-- ==== Sys2Proof/Word.lean ====
section
/-! DEFINITION. Word.lean: the words of the machine. Registers are 32 bits wide (R4); module addresses, DTIME and
WPOS are 64 bits wide (R24, R25). -/

namespace Sys2Proof

/-- A byte. -/
abbrev Byte := BitVec 8

/-- A register word (R4). -/
abbrev Word := BitVec 32

/-- A 64-bit value. -/
abbrev Word64 := BitVec 64

end Sys2Proof
end

