-- ==== Sys2Proof/Syntax.lean ====
section
/-! DEFINITION. Syntax.lean: the commands of the module, one constructor per row of spec/opcode_table.json, in the
table's order. A command is an event at the boundary of the model: a register access, a descriptor, a frame, a packet or
a line level arriving from outside, or an agent of the module taking its next step. Its operands are what the event
brings with it; everything else it needs stands in the state. -/

namespace Sys2Proof

/-- A position tuple (R48). -/
structure Tuple where
  wpos : BitVec 64
  dtime : BitVec 64
  speed : BitVec 32
  seq : BitVec 16
  src : Fin 64
  extrap : Bool
  takeover : Bool
  lost : Bool
  zero : Bool
  deriving DecidableEq, Repr

/-- What a HEARTBEAT carries (R409): RUN and the DTIME of its sync edge. -/
structure Beat where
  run : Bool
  dtime : BitVec 64
  deriving DecidableEq, Repr

/-- What the field controller measures for a STATUS frame (R408): the field supply in 10 mV, its temperature, and the readbacks of
LS_A and LS_B. -/
structure Measured where
  supply : BitVec 16
  temp : BitVec 8
  lsA : Bool
  lsB : Bool
  deriving DecidableEq, Repr

/-- What the decode of a reference image has cost (R290): its cycles, and the samples written when its budget ended it. -/
structure DecodeCost where
  cycles : BitVec 32
  written : BitVec 32
  deriving DecidableEq, Repr

/-- The bytes received between SOP and EOP on a port of the fabric (R427, R429). -/
structure RawPacket where
  port : Fin 8
  bytes : List Byte
  deriving DecidableEq, Repr

/-- Where a PTP message arrives (R460): the Ethernet port, over UDP on IPv4 or IPv6. -/
structure PtpPort where
  port : Fin 2
  ipv6 : Bool
  deriving DecidableEq, Repr

/-- A piece of a camera's image stream (R107-R110): a frame header, a line that starts, or the rest of one. The index of
a line within its frame goes with its marker; `more` tells that the line goes on in the next packet. -/
inductive StreamItem where
  | header (sourceTag : BitVec 16) (pfnc : BitVec 32) (lines : BitVec 24)
  | line (index : BitVec 16) (samples : List (BitVec 16)) (more : Bool)
  | cont (samples : List (BitVec 16)) (more : Bool)
  deriving DecidableEq, Repr


/-- The port at which a packet of the fabric arrives, and the fields of its header (R429) that its receiver reads. -/
structure Packet where
  port : Fin 8
  lseq : BitVec 12
  part : Fin 8
  dst : Fin 64
  src : Fin 64
  tag : BitVec 32
  epoch : BitVec 32
  deriving DecidableEq, Repr
/-- The commands. -/
inductive Instr where
  /-- REGISTER_WRITE (R7): A 32-bit write to a register field that has no row of its own takes effect under its access type and commit class. -/
  | registerWrite (off : BitVec 22) (len : Fin 5) (value : BitVec 32)
  /-- W1C_CLEAR (R8): Writing 1 to a W1C status bit clears it unless the module sets it in the same cycle. -/
  | w1cClear (off : BitVec 22) (value : BitVec 32)
  /-- LO_READ_LATCH (R170): A read of a _LO half of a 64-bit counter copies the high word into a holding register for the matching _HI read. -/
  | loReadLatch (off : BitVec 22) (len : Fin 5)
  /-- COUNTER_CLEAR (R89): Writing 1 to a block's CLEAR bit sets its counters to 0 at once, counting same-cycle events after the clear. -/
  | counterClear (off : BitVec 22)
  /-- ACCESS_ERR_CLEAR (R20): Writing GLB_ACCESS_ERR.CLEAR sets COUNT and GLB_ACCESS_ADDR to 0. -/
  | accessErrClear
  /-- PAIR_MEMBER_WRITE (R377): A write to the non-latching member of a paired field records a pending value and sets PAIR_OPEN. -/
  | pairMemberWrite (off : BitVec 22) (value : BitVec 32)
  /-- PAIR_LATCH (R377): A write to the latching member latches both members of the pair, or sets PAIR_ERR if the pair is invalid. -/
  | pairLatch (off : BitVec 22) (value : BitVec 32)
  /-- WPOS_EXTRAPOLATE (R39): On each DTIME tick the extrapolator computes the target from the position base in force and updates WPOS or the backlog. -/
  | wposExtrapolate
  /-- ENCODER_READ (R36): At each request period an enabled channel runs a read frame, checks and converts the word, and updates its position base. -/
  | encoderRead (ch : Fin 4) (latch : BitVec 64) (ready : Bool) (word : BitVec 48) (err : Bool) (chk : BitVec 5) (tail : Bool)
  /-- POS_LOST (R46): When no good source read or tuple arrives for HOLD_US, WPOS freezes, POS_LOST is set, line stop is requested and parts in flight are ended. -/
  | posLost
  /-- POS_TUPLE_SEND (R49): A master sends a position tuple after every DIV good reads of its source. -/
  | posTupleSend
  /-- TAKEOVER (R52): An aligned standby takes over as master when tuples stop, all carry EXTRAP for FAIL_US, or a LOST tuple arrives. -/
  | takeover
  /-- POS_SNAP_TAKE (R20): Writing POS_SNAP_CTL.TAKE captures WPOS, DTIME and speed on one tick into the snapshot registers. -/
  | posSnapTake
  /-- NOP (R59): A NOP sequencer entry fires and does nothing. -/
  | nop
  /-- PART_CLOSE (R62): A PART_CLOSE entry closes the open part of each lane in its range and finalises its input digest. -/
  | partClose
  /-- PART_OPEN (R61): A PART_OPEN entry opens a tracked part in each enabled lane of its range and places its DECISION and EJECT_PASS entries. -/
  | partOpen
  /-- LINE_GATE (R105): A LINE_GATE entry sends a trigger to each streaming camera in its mask and takes the next line slot. -/
  | lineGate
  /-- STRIP_CUT (R132): A STRIP_CUT entry ends the current strip of each named camera's full streams. -/
  | stripCut
  /-- ROI_APPLY (R129): A ROI_APPLY entry starts or cuts the crop of a crop entry. -/
  | roiApply
  /-- DECISION (R67): A DECISION entry fixes the part's verdict, and arms and sends its eject frame or posts its record. -/
  | decision
  /-- EJECT_PASS (R73): An EJECT_PASS entry records the placement residual of the part's on edge. -/
  | ejectPass
  /-- PULSE (R508): A PULSE entry builds and sends an output pulse frame tied to no part. -/
  | pulse
  /-- SELFTEST_WIN (R401): A SELFTEST_WIN entry offers a window in which core self-test steps may run. -/
  | selftestWin
  /-- SIGNAL (R338): A SIGNAL entry signals a position event, incrementing FIRES and setting LAST_WPOS. -/
  | signal
  /-- LOFT_MARK (R59): A LOFT_MARK entry writes a marker event with WPOS and DTIME to the Loft. -/
  | loftMark
  /-- EDGE_RECOMPUTE (R78): On each new position base the sequencer recomputes pending frames and sends corrections, holds or deferred frames. -/
  | edgeRecompute
  /-- EDGE_REPORT_TIMEOUT (R74): With no EDGE_DONE 2 ms after the off edge, the part is posted with EDGE_UNREPORTED and freed. -/
  | edgeReportTimeout
  /-- PSQ_TBL_READ (R54): Writing PSQ_TBL_IDX copies the active entry with its x and xf into the DATA registers. -/
  | psqTblRead (index : BitVec 16)
  /-- PART_WIN_READ (R66): Writing PART_WIN_IDX copies a part-table entry into the DATA registers. -/
  | partWinRead (index : BitVec 12)
  /-- EDGE_NEW (R77): The field controller accepts or rejects a new pulse frame into its edge queue. -/
  | edgeNew (seq : BitVec 16) (channel : Fin 16) (tag : BitVec 16) (on off : BitVec 64)
  /-- EDGE_CORR (R77): The field controller replaces held edge times that are still correctable, or unparks a held pulse. -/
  | edgeCorr (seq : BitVec 16) (channel : Fin 16) (tag : BitVec 16) (on off : BitVec 64)
  /-- EDGE_HOLD (R77): The field controller parks both edges of a tag whose on window is open. -/
  | edgeHold (seq : BitVec 16) (channel : Fin 16) (tag : BitVec 16)
  /-- EDGE_CANCEL (R77): The field controller removes both edges of a tag whose on window is open. -/
  | edgeCancel (seq : BitVec 16) (channel : Fin 16) (tag : BitVec 16)
  /-- HEARTBEAT (R420): The field controller takes a HEARTBEAT, judges the sync edge against FTIME and answers with STATUS. -/
  | heartbeat (seq : BitVec 16) (beat : Beat) (measured : Measured)
  /-- OUT_CFG (R416): The field controller applies an output configuration frame. -/
  | outCfg (seq : BitVec 16) (channel : Fin 16) (mode : Fin 4) (safe openEn : Bool) (ovlUs : BitVec 16)
  /-- OUT_SET (R416): The field controller applies static output levels, or holds them while in SAFE. -/
  | outSet (seq : BitVec 16) (level : BitVec 16)
  /-- LS_SET (R419): The field controller energises or de-energises LS_A and LS_B by RUN. -/
  | lsSet (seq : BitVec 16) (run : Bool)
  /-- RESUME (R420): A RESUME received within 200 µs after a good HEARTBEAT takes the field controller from SAFE to RUN. -/
  | resume (seq : BitVec 16)
  /-- IN_CFG (R422): The field controller applies an input's filter time and function. -/
  | inCfg (seq : BitVec 16) (input : Fin 16) (filtUs : BitVec 16) (func : Fin 4)
  /-- DOWNLINK_BAD_FRAME (R410): A downlink frame with bad CRC or after a SEQ gap is discarded or judged and reported by REJECT. -/
  | downlinkBadFrame
  /-- EDGE_DONE (R415): The logic side takes a report of one pulse and completes the part or PULSE under its RESULT. -/
  | edgeDone (seq : BitVec 16) (channel : Fin 16) (result : Fin 16) (tag : BitVec 16) (on off : BitVec 64)
  /-- REJECT (R411): The logic side takes a field reject, retransmits where allowed or marks parts EJECT_MISSED and sets cause FIELD. -/
  | reject (seq : BitVec 16) (reason : Fin 16) (tag : BitVec 16) (frameSeq : BitVec 16) (missing : BitVec 16)
  /-- STATUS (R420): The logic side takes a field STATUS frame and sets cause HEARTBEAT when the controller left RUN. -/
  | status (seq : BitVec 16) (fstate : Fin 4) (inputs : BitVec 16) (outFlags : BitVec 32) (supply : BitVec 16) (temp : BitVec 8) (lsA lsB : Bool) (queued : BitVec 16) (hbSeq : BitVec 16)
  /-- INPUT_EDGE (R422): The logic side takes a confirmed input edge report. -/
  | inputEdge (seq : BitVec 16) (input : Fin 16) (level : Bool) (dtime : BitVec 64)
  /-- UPLINK_CRC_ERROR (R410): An uplink frame with bad CRC is discarded and counted in FLD_CNT_UP_CRC. -/
  | uplinkCrcError
  /-- SYNC_EDGE_SEND (R409): At each DTIME multiple of 100,000 ns the logic side sends a sync edge followed by a HEARTBEAT. -/
  | syncEdgeSend
  /-- EDGE_FIRE (R414): An edge queue entry fires when FTIME reaches it and the output changes within 20 ns. -/
  | edgeFire
  /-- HEARTBEAT_LOSS (R15): With no good HEARTBEAT for 2 ms the field controller enters SAFE, de-energises LS_A and LS_B and flushes its queue. -/
  | heartbeatLoss
  /-- UPLINK_LOST (R421): With no STATUS frame for 2 ms the logic side sets UPLINK_LOST and cause FIELD. -/
  | uplinkLost
  /-- OVERLOAD (R417): An output at its current limit for OVL_US is latched off and reported. -/
  | overload (ch : Fin 16)
  /-- OVERTEMP (R417): An output switch above its junction limit is latched off and reported. -/
  | overtemp (ch : Fin 16) (hot : Bool)
  /-- OPEN_OFF (R417): An open wire is detected on an off output with OPEN_EN and reported. -/
  | openOff (ch : Fin 16) (here : Bool)
  /-- OPEN_ON (R417): An on output with current below 5 mA throughout is latched as open. -/
  | openOn (ch : Fin 16)
  /-- SUPPLY_LOW (R418): A field supply below 18 V leaves every output undriven and sets cause FIELD. -/
  | supplyLow
  /-- LS_FAULT (R419): A line-stop readback mismatch for 1 ms de-energises both outputs and sets LS_FAULT and cause FIELD. -/
  | lsFault
  /-- INPUT_CONFIRM (R422): An input level held for FILT_US is confirmed, counted, stamped and reported. -/
  | inputConfirm (input : Fin 16) (level : Bool) (first : BitVec 64)
  /-- LS_CAUSE_CLEAR (R423): Clearing FLD_LS_CAUSE bits whose condition has ended sends LS_SET RUN 1 when none remain. -/
  | lsCauseClear (mask : BitVec 11)
  /-- FLD_STOP (R423): Writing FLD_CTL.STOP sets line-stop cause CLIENT. -/
  | fldStop
  /-- FLD_RESUME (R420): Writing FLD_CTL.RESUME makes firmware send RESUME if a recent STATUS names a HEARTBEAT it sent. -/
  | fldResume
  /-- FLD_OUT_SET_WRITE (R416): Writing FLD_OUT_SET sends the static levels to the field side within 5 µs. -/
  | fldOutSetWrite (level : BitVec 16)
  /-- AC_JUDGE (R425): After the acoustic window closes the module sets AC_OK or AC_FAIL from the qualifying frames. -/
  | acJudge
  /-- SUP_FAULT (R424): A microphone supply below 90 % sets SUP_FAULT and marks affected feature records GAP. -/
  | supFault (inputs : BitVec 4)
  /-- FEATURE_FRAME (R300): A completed acoustic frame yields band energies and, for a privileged channel, a feature record. -/
  | featureFrame (input : Fin 4) (start wpos : BitVec 64) (words : List (List (BitVec 32))) (driven : List (BitVec 8))
  /-- LANE_SIGNAL_DETECT (R83): Signal detect takes a lane from NO_SIGNAL to CDR_ACQ. -/
  | laneSignalDetect (lane : Fin 64)
  /-- LANE_SIGNAL_LOSS (R83): Loss of signal returns a lane to NO_SIGNAL and takes its link layer down. -/
  | laneSignalLoss (lane : Fin 64)
  /-- CDR_LOCK (R83): Recovered clock lock takes a lane to ACQUIRE. -/
  | cdrLock (lane : Fin 64)
  /-- CDR_LOCK_LOSS (R83): Loss of clock lock leaves ALIGNED or ACQUIRE and marks a running scan INVALID. -/
  | cdrLockLoss (lane : Fin 64)
  /-- ACQUIRE_GROUP (R85): A code group received in ACQUIRE advances comma alignment toward ALIGNED. -/
  | acquireGroup (lane : Fin 64) (received wrong : BitVec 10)
  /-- ALIGNED_GROUP (R86): A code group received in ALIGNED is classified, counted and scored for loss of alignment. -/
  | alignedGroup (lane : Fin 64) (group : BitVec 10) (drained : Fin 4)
  /-- EYE_SCAN_START (R90): Writing START latches scan parameters and begins an eye scan, or sets OVERRUN, RANGE or NOLOCK. -/
  | eyeScanStart (lane : Fin 64) (phase : BitVec 7) (voff : BitVec 9) (dwell : BitVec 5)
  /-- EYE_SCAN_ABORT (R91): Writing ABORT ends a running scan with ABORTED. -/
  | eyeScanAbort (lane : Fin 64)
  /-- EYE_SCAN_DONE (R90): A scan completes its bit count, clears BUSY and sets DONE. -/
  | eyeScanDone (lane : Fin 64) (mismatches : BitVec 40)
  /-- REDISCOVER (R102): After REDISC_MS in LINK_DOWN the camera restarts DISCOVER at CXP-1. -/
  | rediscover (cam : Fin 16)
  /-- DISCOVER_LANES_ALIGNED (R101): All lanes of a camera group ALIGNED lets discovery or configuration proceed. -/
  | discoverLanesAligned (cam : Fin 16)
  /-- DISCOVER_ALIGN_TIMEOUT (R101): Lanes not aligned within ALIGN_MS fail discovery or lower the rate in CONFIG. -/
  | discoverAlignTimeout (cam : Fin 16)
  /-- CONTROL_REPLY (R101): A camera control reply advances discovery, configuration, check or a client camera access. -/
  | controlReply (cam : Fin 16) (ok : Bool) (value : BitVec 32) (conn : Fin 8)
  /-- CONTROL_TIMEOUT (R101): A control access unanswered within CTRL_MS fails discovery or completes with CAM_TIMEOUT. -/
  | controlTimeout (cam : Fin 16)
  /-- STREAM_PACKET (R109): A stream packet is checked and its lines assigned to gates by line number and judged. -/
  | streamPacket (lane : Fin 32) (tag : BitVec 8) (crcOk : Bool) (items : List StreamItem)
  /-- SLOT_DEADLINE (R111): A slot still pending at gate tick plus LATE_NS closes with its absent lines MISSING. -/
  | slotDeadline (cam : Fin 16)
  /-- ROW_BUILD (R113): When a slot closes the pipeline builds corrected rows and writes them to strips, crops, taps and Sheepdog. -/
  | rowBuild (cam : Fin 16)
  /-- INPUT_DIGEST_FINAL (R144): The part's input digest is finalised after its last slot closes. -/
  | inputDigestFinal (part : Fin 4096)
  /-- MCMD (R150): A matrix command streams its vectors through the arrays and drains results to the Larder. -/
  | mcmd (core : Fin 16)
  /-- VMOV (R202): Vector move of a source to the destination. -/
  | vmov (core : Fin 16)
  /-- VADD (R202): Vector add. -/
  | vadd (core : Fin 16)
  /-- VSUB (R202): Vector subtract. -/
  | vsub (core : Fin 16)
  /-- VMUL (R202): Vector multiply. -/
  | vmul (core : Fin 16)
  /-- VMAX (R202): Vector maximum. -/
  | vmax (core : Fin 16)
  /-- VMIN (R202): Vector minimum. -/
  | vmin (core : Fin 16)
  /-- VCLAMP (R202): Vector clamp between scalar bounds. -/
  | vclamp (core : Fin 16)
  /-- VCMP (R202): Vector compare giving U8 0 or 1. -/
  | vcmp (core : Fin 16)
  /-- VSEL (R202): Vector select under a mask row. -/
  | vsel (core : Fin 16)
  /-- VMACW (R203): Applies up to eight weighted taps of a row to an accumulator. -/
  | vmacw (core : Fin 16)
  /-- VREQ (R202): Requantises an INT32 accumulator to INT8 or INT16. -/
  | vreq (core : Fin 16)
  /-- VCVT (R202): Converts elements to the output format. -/
  | vcvt (core : Fin 16)
  /-- VLUT (R202): Table lookup indexed by U8 elements. -/
  | vlut (core : Fin 16)
  /-- VPOOLH (R205): Pools along the row by maximum or average. -/
  | vpoolh (core : Fin 16)
  /-- VRSUM (R206): Writes the exact sum of all source elements. -/
  | vrsum (core : Fin 16)
  /-- VRMAX (R206): Writes the maximum element and its index. -/
  | vrmax (core : Fin 16)
  /-- VRMIN (R206): Writes the minimum element and its index. -/
  | vrmin (core : Fin 16)
  /-- VCNT (R206): Counts elements at or above a scalar. -/
  | vcnt (core : Fin 16)
  /-- VDLV (R207): Converts pixel layout to planar layout. -/
  | vdlv (core : Fin 16)
  /-- VILV (R207): Converts planar layout to pixel layout. -/
  | vilv (core : Fin 16)
  /-- XFER_TO_LARDER (R246): A transfer moves lines from the Cellar or Shelf into the Larder. -/
  | xferToLarder (core : Fin 16)
  /-- XFER_FROM_LARDER (R246): A transfer moves lines from the Larder to the Cellar or Shelf. -/
  | xferFromLarder (core : Fin 16)
  /-- COMMAND_COMPLETE (R242): A matrix, vector or transfer command completes, releasing dependent records and its unit. -/
  | commandComplete (core : Fin 16) (u : Fin 3)
  /-- MAXDUR_EXPIRE (R251): A command running past MAXDUR faults and its context is torn down. -/
  | maxdurExpire (core : Fin 16) (u : Fin 3)
  /-- WAIT_RECORD (R247): A list WAIT record waits on a sync object and holds later records. -/
  | waitRecord (ctx : Fin 4112)
  /-- SIGNAL_RECORD (R247): A list SIGNAL record signals a sync object once earlier records complete. -/
  | signalRecord (ctx : Fin 4112)
  /-- LAUNCH (R211): A LAUNCH record starts N Flock threads at an entry address. -/
  | launch (ctx : Fin 4112)
  /-- THREAD_START (R211): A launched thread takes a freed context and starts in index order. -/
  | threadStart (e : Fin 2) (c : Fin 4096)
  /-- IDLE_FOR (R252): A HINT of kind IDLE_FOR declares no MCMD for DURATION. -/
  | idleFor (core : Fin 16)
  /-- LOAD (R252): A HINT of kind LOAD declares expected array utilisation. -/
  | load (core : Fin 16)
  /-- RESULT (R388): A RESULT record snapshots the part's result block as its program result. -/
  | result (part : Fin 4096)
  /-- END (R242): An END record ends a sub-list once earlier records complete. -/
  | endRecord (ctx : Fin 4112)
  /-- NOP_RECORD (R241): A NOP list record does nothing. -/
  | nopRecord (ctx : Fin 4112)
  /-- ADD (R214): Flock register add. -/
  | add (e : Fin 2) (c : Fin 4096)
  /-- SUB (R214): Flock register subtract. -/
  | sub (e : Fin 2) (c : Fin 4096)
  /-- AND (R214): Flock bitwise and. -/
  | and (e : Fin 2) (c : Fin 4096)
  /-- OR (R214): Flock bitwise or. -/
  | or (e : Fin 2) (c : Fin 4096)
  /-- XOR (R214): Flock bitwise exclusive or. -/
  | xor (e : Fin 2) (c : Fin 4096)
  /-- SHL (R214): Flock shift left. -/
  | shl (e : Fin 2) (c : Fin 4096)
  /-- SHR (R214): Flock logical shift right. -/
  | shr (e : Fin 2) (c : Fin 4096)
  /-- SAR (R214): Flock arithmetic shift right. -/
  | sar (e : Fin 2) (c : Fin 4096)
  /-- SLT (R214): Flock signed set-less-than. -/
  | slt (e : Fin 2) (c : Fin 4096)
  /-- SLTU (R214): Flock unsigned set-less-than. -/
  | sltu (e : Fin 2) (c : Fin 4096)
  /-- MIN (R214): Flock signed minimum. -/
  | min (e : Fin 2) (c : Fin 4096)
  /-- MAX (R214): Flock signed maximum. -/
  | max (e : Fin 2) (c : Fin 4096)
  /-- CLZ (R214): Flock count leading zeros. -/
  | clz (e : Fin 2) (c : Fin 4096)
  /-- POPC (R214): Flock population count. -/
  | popc (e : Fin 2) (c : Fin 4096)
  /-- MUL (R214): Flock low 64 bits of a product. -/
  | mul (e : Fin 2) (c : Fin 4096)
  /-- MULHU (R214): Flock high 64 bits of an unsigned product. -/
  | mulhu (e : Fin 2) (c : Fin 4096)
  /-- DIVU (R214): Flock unsigned divide. -/
  | divu (e : Fin 2) (c : Fin 4096)
  /-- FADD (R214): Flock FP32 add. -/
  | fadd (e : Fin 2) (c : Fin 4096)
  /-- FSUB (R214): Flock FP32 subtract. -/
  | fsub (e : Fin 2) (c : Fin 4096)
  /-- FMUL (R214): Flock FP32 multiply. -/
  | fmul (e : Fin 2) (c : Fin 4096)
  /-- FMIN (R214): Flock FP32 minimum. -/
  | fmin (e : Fin 2) (c : Fin 4096)
  /-- FMAX (R214): Flock FP32 maximum. -/
  | fmax (e : Fin 2) (c : Fin 4096)
  /-- FLT (R214): Flock FP32 less-than. -/
  | flt (e : Fin 2) (c : Fin 4096)
  /-- FCVTI (R214): Flock FP32 to i64 conversion. -/
  | fcvti (e : Fin 2) (c : Fin 4096)
  /-- FCVTF (R214): Flock i64 to FP32 conversion. -/
  | fcvtf (e : Fin 2) (c : Fin 4096)
  /-- ADDI (R214): Flock add immediate. -/
  | addi (e : Fin 2) (c : Fin 4096)
  /-- ANDI (R214): Flock and immediate. -/
  | andi (e : Fin 2) (c : Fin 4096)
  /-- ORI (R214): Flock or immediate. -/
  | ori (e : Fin 2) (c : Fin 4096)
  /-- XORI (R214): Flock exclusive or immediate. -/
  | xori (e : Fin 2) (c : Fin 4096)
  /-- SHI (R214): Flock shift by immediate. -/
  | shi (e : Fin 2) (c : Fin 4096)
  /-- LUI (R214): Flock load upper immediate. -/
  | lui (e : Fin 2) (c : Fin 4096)
  /-- SLTI (R214): Flock signed set-less-than immediate. -/
  | slti (e : Fin 2) (c : Fin 4096)
  /-- LD8 (R215): Flock 8-bit load. -/
  | ld8 (e : Fin 2) (c : Fin 4096)
  /-- LD16 (R215): Flock 16-bit load. -/
  | ld16 (e : Fin 2) (c : Fin 4096)
  /-- LD32 (R215): Flock 32-bit load. -/
  | ld32 (e : Fin 2) (c : Fin 4096)
  /-- LD64 (R215): Flock 64-bit load. -/
  | ld64 (e : Fin 2) (c : Fin 4096)
  /-- ST8 (R215): Flock 8-bit store. -/
  | st8 (e : Fin 2) (c : Fin 4096)
  /-- ST16 (R215): Flock 16-bit store. -/
  | st16 (e : Fin 2) (c : Fin 4096)
  /-- ST32 (R215): Flock 32-bit store. -/
  | st32 (e : Fin 2) (c : Fin 4096)
  /-- ST64 (R215): Flock 64-bit store. -/
  | st64 (e : Fin 2) (c : Fin 4096)
  /-- AADD (R219): Atomic add at the home. -/
  | aadd (e : Fin 2) (c : Fin 4096)
  /-- AADDF (R219): Atomic FP32 add at the home, requiring ND. -/
  | aaddf (e : Fin 2) (c : Fin 4096)
  /-- AMIN (R219): Atomic signed minimum. -/
  | amin (e : Fin 2) (c : Fin 4096)
  /-- AMAX (R219): Atomic signed maximum. -/
  | amax (e : Fin 2) (c : Fin 4096)
  /-- AXCHG (R219): Atomic exchange. -/
  | axchg (e : Fin 2) (c : Fin 4096)
  /-- ACAS (R219): Atomic compare and swap. -/
  | acas (e : Fin 2) (c : Fin 4096)
  /-- BEQ (R214): Branch if equal. -/
  | beq (e : Fin 2) (c : Fin 4096)
  /-- BNE (R214): Branch if not equal. -/
  | bne (e : Fin 2) (c : Fin 4096)
  /-- BLT (R214): Branch if signed less. -/
  | blt (e : Fin 2) (c : Fin 4096)
  /-- BGE (R214): Branch if signed greater or equal. -/
  | bge (e : Fin 2) (c : Fin 4096)
  /-- BLTU (R214): Branch if unsigned less. -/
  | bltu (e : Fin 2) (c : Fin 4096)
  /-- BGEU (R214): Branch if unsigned greater or equal. -/
  | bgeu (e : Fin 2) (c : Fin 4096)
  /-- JAL (R214): Jump and link. -/
  | jal (e : Fin 2) (c : Fin 4096)
  /-- JR (R214): Jump to register. -/
  | jr (e : Fin 2) (c : Fin 4096)
  /-- HKEY (R222): Computes the 88-bit salted key of a key string. -/
  | hkey (e : Fin 2) (c : Fin 4096)
  /-- HLOOK (R224): Looks a key up in a serial set. -/
  | hlook (e : Fin 2) (c : Fin 4096)
  /-- HSEEN (R224): Marks an issued key SEEN and reports FIRST or DUPLICATE. -/
  | hseen (e : Fin 2) (c : Fin 4096)
  /-- HINS (R224): Inserts a key as ISSUED into a serial set. -/
  | hins (e : Fin 2) (c : Fin 4096)
  /-- RGET (R229): Reads 8 bytes from a declared window on another module. -/
  | rget (e : Fin 2) (c : Fin 4096)
  /-- SWAIT (R334): A thread waits on a sync object and receives a status. -/
  | swait (e : Fin 2) (c : Fin 4096)
  /-- SSIG (R333): A thread signals a sync object after a fence. -/
  | ssig (e : Fin 2) (c : Fin 4096)
  /-- FENCE (R217): Holds the thread until its earlier memory instructions are visible. -/
  | fence (e : Fin 2) (c : Fin 4096)
  /-- RDT (R214): Reads DTIME, WPOS, context, engine, module ID or the RFAIL bit. -/
  | rdt (e : Fin 2) (c : Fin 4096)
  /-- EXIT (R211): Ends a thread and frees its context. -/
  | exit (e : Fin 2) (c : Fin 4096)
  /-- FLOCK_MEM_COMPLETE (R217): An outstanding Flock memory or set operation completes and writes its result. -/
  | flockMemComplete (e : Fin 2) (c : Fin 4096) (k : Fin 8)
  /-- REMOTE_TIMEOUT (R228): A remote set operation or RGET unanswered after FLK_RTIMEOUT ends in DOUBT, NO_ROUTE or RFAIL. -/
  | remoteTimeout (e : Fin 2) (c : Fin 4096) (k : Fin 8)
  /-- FAULT_RELEASE (R232): Writing FLK_ENGe_FAULT.RELEASE empties the held fault registers. -/
  | faultRelease (e : Fin 2)
  /-- PAGE_RETIRE (R316): Firmware retires a faulted Cellar page onto a spare, holding its accesses meanwhile. -/
  | pageRetire
  /-- CEL_RET_READ (R316): Writing CEL_RET_IDX copies a retirement-list entry into CEL_RET_DATA. -/
  | celRetRead (index : BitVec 11)
  /-- SLICE_END (R325): A background slice ends after SLICE_US minus debt and issuers stop. -/
  | sliceEnd (part : Fin 8)
  /-- SLICE_YIELD (R326): A job blocked for YIELD_US ends its slice at once. -/
  | sliceYield (part : Fin 8)
  /-- PARTITION_SWITCH (R327): When the last core switches the partition records the overrun and saves the old job. -/
  | partitionSwitch (part : Fin 8)
  /-- SLICE_BEGIN (R330): After save and restore the next job's slice begins. -/
  | sliceBegin (part : Fin 8)
  /-- HOLD_EXPIRE (R342): A hold timer reaching HOLD_US tears down the holder and breaks the semaphore. -/
  | holdExpire
  /-- WAIT_TIMEOUT (R334): A wait whose TMO elapses completes with TIMEOUT. -/
  | waitTimeout (so : Fin 16384)
  /-- SO_SELECT (R379): Writing STG_SO_IDX copies an object's state and configuration into the window. -/
  | soSelect (index : BitVec 14)
  /-- SO_RESTAGE (R345): Writing STG_SO_CFG stages an object for restaging at the next commit. -/
  | soRestage (word : BitVec 32)
  /-- RING_ENABLE (R351): Setting ENABLE takes a ring's configuration into effect or refuses it with CFG_ERR. -/
  | ringEnable (ring : Fin 8192) (via : Option (Fin 1024)) (fields : BitVec 9)
  /-- RING_DISABLE (R352): Clearing ENABLE stops the ring and aborts fetched unstarted descriptors. -/
  | ringDisable (ring : Fin 8192) (via : Option (Fin 1024)) (fields : BitVec 9)
  /-- DOORBELL (R353): A doorbell write advances PROD or CONS of a ring, or sets DB_ERR and HALTED. -/
  | doorbell (ring : Fin 8192) (value : BitVec 32)
  /-- DESCRIPTOR_START (R354): A fetched descriptor starts when the ring and its completion ring have room, and is checked. -/
  | descriptorStart (ring : Fin 8192)
  /-- NOP_OPCODE (R358): Completes with no effect. -/
  | nopOpcode (ring : Fin 8192) (index : BitVec 32)
  /-- REG_READ (R358): Returns one or two registers at a BAR0 offset. -/
  | regRead (ring : Fin 8192) (index : BitVec 32)
  /-- REG_WRITE (R358): Performs a 32-bit register write as over BAR0. -/
  | regWrite (ring : Fin 8192) (index : BitVec 32)
  /-- MEM_READ (R358): Copies module memory to the client. -/
  | memRead (ring : Fin 8192) (index : BitVec 32)
  /-- MEM_WRITE (R358): Copies client data into module memory. -/
  | memWrite (ring : Fin 8192) (index : BitVec 32)
  /-- IMAGE_LOAD_PROGRAM (R258): Checks a program image and places it in the job's stage. -/
  | imageLoadProgram (ring : Fin 8192) (index : BitVec 32)
  /-- IMAGE_LOAD_WEIGHTS (R238): Places a weight set in the job's stage. -/
  | imageLoadWeights (ring : Fin 8192) (index : BitVec 32)
  /-- IMAGE_LOAD_REFERENCE (R291): Decodes a reference image to its destination and stages it. -/
  | imageLoadReference (ring : Fin 8192) (index : BitVec 32) (cost : DecodeCost)
  /-- SEQ_WRITE (R358): Writes sequencer entries into the staged program tracks. -/
  | seqWrite (ring : Fin 8192) (index : BitVec 32)
  /-- LPIPE_TABLE (R123): Stages a DARK, GAIN or DEFECT table for a camera. -/
  | lpipeTable (ring : Fin 8192) (index : BitVec 32)
  /-- SET_LOAD_RAW (R358): Copies raw buckets into a staged serial set. -/
  | setLoadRaw (ring : Fin 8192) (index : BitVec 32)
  /-- SET_LOAD_ENTRIES (R358): Inserts entries into a staged serial set under the probe rule. -/
  | setLoadEntries (ring : Fin 8192) (index : BitVec 32)
  /-- SET_LOAD_CLEAR (R358): Zeroes every copy of a staged serial set that the module holds. -/
  | setLoadClear (ring : Fin 8192) (index : BitVec 32)
  /-- CAM_REG_READ (R104): Reads a camera register over the control channel. -/
  | camRegRead (ring : Fin 8192) (index : BitVec 32)
  /-- CAM_REG_WRITE (R104): Writes a camera register over the control channel. -/
  | camRegWrite (ring : Fin 8192) (index : BitVec 32)
  /-- JOB_START (R385): Stages a start of a job. -/
  | jobStart (ring : Fin 8192) (index : BitVec 32)
  /-- JOB_STOP (R385): Stages a stop of a job. -/
  | jobStop (ring : Fin 8192) (index : BitVec 32)
  /-- COMMIT (R382): Freezes the stage and starts its consistency check. -/
  | commit (ring : Fin 8192) (index : BitVec 32)
  /-- COMMIT_CHECK_DONE (R382): The consistency check ends and refuses the commit or sets it pending. -/
  | commitCheckDone
  /-- COMMIT_APPLY (R384): On the commit tick the L rules are rechecked and every block changes to the staged configuration. -/
  | commitApply
  /-- DISCARD (R381): Empties the stage and removes a pending commit. -/
  | discard (ring : Fin 8192) (index : BitVec 32)
  /-- SO_WAIT (R333): A client waits on a sync object. -/
  | soWait (ring : Fin 8192) (index : BitVec 32)
  /-- SO_SIGNAL (R333): A client signals a sync object. -/
  | soSignal (ring : Fin 8192) (index : BitVec 32)
  /-- NET_SET (R366): Stages a port's network configuration block. -/
  | netSet (ring : Fin 8192) (index : BitVec 32)
  /-- ALLOW_LOAD (R368): Stages a new allow list. -/
  | allowLoad (ring : Fin 8192) (index : BitVec 32)
  /-- ATTEST (R487): Builds and signs an attestation report over a nonce. -/
  | attest (ring : Fin 8192) (index : BitVec 32)
  /-- FW_PUSH (R481): Checks and writes a firmware image or program-signer list. -/
  | fwPush (ring : Fin 8192) (index : BitVec 32)
  /-- IRQ_HOLDOFF_END (R363): At the end of a ring's holdoff a pending interrupt is raised. -/
  | irqHoldoffEnd (ring : Fin 8192)
  /-- FUNCTION_LEVEL_RESET (R365): FLR or PCI Express link loss disables every PCI Express ring. -/
  | functionLevelReset
  /-- HOST_READ_TIMEOUT (R365): A host read with an error or no completion in 50 ms completes the descriptor with DMA_ERROR. -/
  | hostReadTimeout (ring : Fin 8192) (index : BitVec 32)
  /-- SESSION_OPEN (R369): An admitted TLS connection takes a session number and enables its two session rings. -/
  | sessionOpen (port : Fin 2) (key : BitVec 256)
  /-- SESSION_CLOSE (R372): A closed session disables every ring bound to it. -/
  | sessionClose (session : Fin 1024)
  /-- SESSION_TIMEOUT (R372): A session silent for 5 s is closed. -/
  | sessionTimeout (session : Fin 1024)
  /-- KEEPALIVE_SEND (R372): After 1 s without sending the module sends KEEPALIVE. -/
  | keepaliveSend (session : Fin 1024)
  /-- SUBMIT (R371): A SUBMIT frame delivers descriptors to a session ring or is dropped. -/
  | submit (session : Fin 1024) (ring : BitVec 16) (index : BitVec 32) (payload : List Byte)
  /-- ACK (R370): An ACK frame advances CONS of a module-filled ring. -/
  | ack (session : Fin 1024) (ring : BitVec 16) (cons : BitVec 32)
  /-- KEEPALIVE (R370): A received KEEPALIVE keeps the session alive. -/
  | keepalive (session : Fin 1024)
  /-- SHEEPDOG_CHECK_DONE (R390): Sheepdog completes its check of a part and its outcome is combined. -/
  | sheepdogCheckDone
  /-- LOCKSTEP_MISMATCH (R392): A Sheepdog core mismatch stops Sheepdog, sets LOCKSTEP and requests line stop. -/
  | lockstepMismatch
  /-- SDG_PROOF_ARM (R404): A write to SDG_PROOF arms, replaces or cancels a proof test on a lane. -/
  | sdgProofArm (lane : Fin 64) (mode : Fin 4)
  /-- ALARM_CLEAR (R399): Clearing ALARM empties the disagreement window. -/
  | alarmClear
  /-- LARDER_MARCH (R182): A self-test step marches one Larder bank while keeping its data. -/
  | larderMarch (core bank : Fin 16) (mismatch : Option (Fin 32768))
  /-- ARRAY_KAV (R400): A self-test step runs known-answer vectors through one array. -/
  | arrayKav (core : Fin 16) (pass : Bool)
  /-- PANTRY_TAG (R400): A self-test step checks 128 Pantry tag sets. -/
  | pantryTag (die : Fin 2) (group : Fin 64) (mismatch : Option (Fin 128 × Fin 16))
  /-- LP_KAL (R403): A self-test step runs a known-answer line through one camera's pipeline. -/
  | lpKal (cam : Fin 16) (pass : Bool)
  /-- COVERAGE_INTERVAL_END (R402): A coverage interval ending with steps owed sets SELFTEST_LATE. -/
  | coverageIntervalEnd
  /-- INPUT_RUN_START (R297): The input pipeline run starts at enable, or when capture becomes DONE with SRC_CAP. -/
  | inputRunStart
  /-- SAMPLE_DECODE_START (R290): A free decode engine takes the next position and begins decoding its sample. -/
  | sampleDecodeStart
  /-- SAMPLE_DECODE_DONE (R290): A sample decode ends with its status written to the batch. -/
  | sampleDecodeDone (engine : Fin 4) (cycles : BitVec 32)
  /-- DECODE_BUDGET_EXPIRE (R290): A decode reaching BUDGET cycles stops with TIMED_OUT. -/
  | decodeBudgetExpire (engine : Fin 4) (written : BitVec 32)
  /-- PUBLICATION_SERVE (R298): Firmware serves a publication request, stages the weight set and signals DONE. -/
  | publicationServe
  /-- HELLO_SEND (R428): A port in HELLO sends a HELLO packet every 100 µs. -/
  | helloSend (port : Fin 8)
  /-- HELLO (R428): A received HELLO is accepted, taking the port UP, or refused to ISOLATED. -/
  | hello (port : Fin 8) (id : Fin 64) (peerPort : Fin 8) (serial members : BitVec 64) (units : List (BitVec 9 × BitVec 11)) (founder : Option (Fin 64))
  /-- LINKSTATE (R434): A received LINKSTATE updates the link-state and routes. -/
  | linkstate (h : Packet) (links : List (Fin 8 × Fin 64 × Fin 8))
  /-- PROMOTE (R439): A received PROMOTE rewrites the shard map and epoch. -/
  | promote (h : Packet) (epoch : BitVec 32) (changes : List (Fin 16 × Fin 256 × BitVec 32))
  /-- POS_TUPLE (R50): A received position tuple replaces a follower's base or names a new master. -/
  | posTuple (h : Packet) (t : Tuple)
  /-- TSYNC_SEND (R436): Every 1 ms a non-master module sends TSYNC_REQ upstream. -/
  | tsyncSend (sub : Fin 64)
  /-- TSYNC_REQ (R436): A received TSYNC_REQ is answered with TSYNC_RESP and time stamps. -/
  | tsyncReq (h : Packet) (t1 : BitVec 64) (sub2 sub3 : Fin 64)
  /-- TSYNC_RESP (R436): A received TSYNC_RESP yields offset and delay and shifts the time-base phase. -/
  | tsyncResp (h : Packet) (t2 t3 : BitVec 64) (sub : Fin 64)
  /-- TSYNC_TIMEOUT (R437): 10 ms without an exchange clears SYNCED. -/
  | tsyncTimeout
  /-- SET_REQ (R227): A primary applies a remote set operation, replicates it and replies. -/
  | setReq (h : Packet) (op : Fin 3) (set : Fin 16) (key : BitVec 88) (node : BitVec 32)
  /-- SET_RESP (R227): A requester takes the outcome of a remote set operation. -/
  | setResp (h : Packet) (value : BitVec 64) (stale : Bool)
  /-- REPL (R227): A replica applies an entry change and acknowledges it. -/
  | repl (h : Packet) (set : Fin 16) (key : BitVec 88) (bucket : BitVec 32) (entry : Fin 4) (st : BitVec 8) (node : BitVec 32)
  /-- REPL_ACK (R227): A primary takes the replica's acknowledgement and replies to the requester. -/
  | replAck (h : Packet)
  /-- RGET_REQ (R441): A target serves or refuses a remote read against its windows. -/
  | rgetReq (h : Packet) (addr : BitVec 64)
  /-- RGET_RESP (R229): A requester takes the 8 bytes or refusal of a remote read. -/
  | rgetResp (h : Packet) (data : Option (BitVec 64))
  /-- HALO (R443): A received HALO packet is written into its halo buffer and the strip signalled when complete. -/
  | halo (h : Packet) (entry : Fin 16) (strip off total : BitVec 32) (bytes : List Byte)
  /-- ACK_SEND (R430): A receiver sends a cumulative ACK at least every 1 µs. -/
  | ackSend (port : Fin 8)
  /-- ACK_SET (R430): A received ACK frees acknowledged packets from the replay buffer. -/
  | ackSet (port : Fin 8) (lseq : BitVec 12)
  /-- NAK (R430): A received NAK resends from the named packet, taking the link down on the fourth. -/
  | nak (port : Fin 8) (lseq : BitVec 12)
  /-- CRED (R432): A received CRED set returns a partition's virtual-channel units. -/
  | cred (port : Fin 8) (vc : Fin 4) (part : Fin 8) (units : BitVec 11)
  /-- PACKET_ERROR (R430): A packet with bad CRC or unexpected LSEQ is discarded and NAKed. -/
  | packetError (received : RawPacket)
  /-- MEMBER_LOST (R439): A member unreachable for LOSS_US is lost and the quorate leader promotes shards. -/
  | memberLost (m : Fin 64) (synced : BitVec 64)
  /-- CLOCK_SOURCE_LOSS (R446): Loss of the selected reference opens the loops to coast and marks DTIME suspect. -/
  | clockSourceLoss
  /-- CLOCK_SWITCH (R447): Firmware selects the first READY source after a loss. -/
  | clockSwitch
  /-- LOOP_RELOCK (R447): The loops relock, SRC_LOST clears and domains return to their frequencies. -/
  | loopRelock
  /-- CLK_SWITCH_REQUEST (R448): Writing CLK_CTL.SWITCH switches hitless to a READY target or is refused. -/
  | clkSwitchRequest (rec : Bool) (port : Fin 8)
  /-- CLOCK_LOST_TIMEOUT (R450): SRC_LOST held for LOST_MS requests line stop with cause OTHER. -/
  | clockLostTimeout
  /-- DT_SUSPECT_CLEAR (R451): 1 ms after relock DTIME is no longer suspect. -/
  | dtSuspectClear
  /-- XTAL_READY (R445): The crystal amplitude holds for 2 ms and XTAL_READY becomes 1. -/
  | xtalReady (mv : BitVec 12)
  /-- GOVERNOR_TICK (R455): Every 100 µs the governor estimates power and steps one quad clock. -/
  | governorTick (estimate mean predicted : BitVec 32)
  /-- VR_ALERT (R457): The regulator alert forces every quad to 800 MHz and firmware reads regulator status. -/
  | vrAlert (status : List (BitVec 16)) (latched : Bool)
  /-- VR_ALERT_DEASSERT (R457): With the alert deasserted and statuses read, GOV_FORCED clears. -/
  | vrAlertDeassert
  /-- THERMAL_SAMPLE (R458): Every 100 µs the sensors are read against throttle and alarm thresholds. -/
  | thermalSample (temps : List (BitVec 8))
  /-- THERMAL_TRIP (R458): A sensor above trip switches the main rails off in hardware. -/
  | thermalTrip (sensor : Fin 11) (temp : BitVec 8)
  /-- QUAD_SLEEP (R453): Firmware gates the clock of an idle quad. -/
  | quadSleep (quad : Fin 4)
  /-- QUAD_WAKE (R453): A sleeping quad wakes for an issuable record or before a hint ends. -/
  | quadWake (quad : Fin 4)
  /-- QUAD_DEEP_ENTER (R454): A quad with no partitioned core and DEEP_EN is power-gated. -/
  | quadDeepEnter (quad : Fin 4)
  /-- PTP_SYNC (R463): A received PTP Sync is time-stamped for the exchange. -/
  | ptpSync (port : PtpPort) (domain : BitVec 8) (source : BitVec 80) (seq : BitVec 16) (twoStep : Bool) (origin : BitVec 64) (corr : BitVec 64) (logInterval : BitVec 8)
  /-- PTP_FOLLOW_UP (R460): A received Follow_Up supplies the master's Sync time. -/
  | ptpFollowUp (port : PtpPort) (domain : BitVec 8) (source : BitVec 80) (seq : BitVec 16) (origin : BitVec 64) (corr : BitVec 64)
  /-- PTP_DELAY_RESP (R463): A received Delay_Resp completes an exchange and updates the servo. -/
  | ptpDelayResp (port : PtpPort) (domain : BitVec 8) (source : BitVec 80) (seq : BitVec 16) (receipt : BitVec 64) (corr : BitVec 64)
  /-- PTP_ANNOUNCE (R460): A received Announce feeds the best master clock algorithm. -/
  | ptpAnnounce (port : PtpPort) (domain : BitVec 8) (source : BitVec 80) (prio1 cls accuracy : BitVec 8) (variance : BitVec 16) (prio2 : BitVec 8) (gm : BitVec 64) (steps : BitVec 16) (utc : Option (BitVec 16)) (logInterval : BitVec 8)
  /-- PTP_TX_COMPLETE (R465): A transmit-complete interrupt queues a transmit time-stamp. -/
  | ptpTxComplete (port : Fin 2) (msgType : BitVec 4) (seq : BitVec 16)
  /-- ANNOUNCE_TIMEOUT (R464): No Sync for ANN_TMO intervals sets LISTENING and HOLDOVER. -/
  | announceTimeout
  /-- TXQ_STALE (R465): A transmit time-stamp older than 1 s is removed and counted. -/
  | txqStale
  /-- NTIME_EXTEND (R462): Firmware reads NTM_NS at least once per second to extend NTIME. -/
  | ntimeExtend
  /-- NTM_SNAP_TAKE (R20): Writing NTM_SNAP_CTL.TAKE latches NTM_NS and DTIME on one tick. -/
  | ntmSnapTake
  /-- NTM_SNAP_EXTEND (R462): Firmware extends the snapshot and sets SNAP_DONE. -/
  | ntmSnapExtend
  /-- TPO_FIRE (R466): A time-pulse target is reached and the output takes its active level. -/
  | tpoFire (n : Fin 4)
  /-- TPO_PULSE_END (R466): After WIDTH the time-pulse output returns to its idle level. -/
  | tpoPulseEnd (n : Fin 4)
  /-- LOFT_UPDATE (R472): The Loft engine applies a queued accumulator update or event record. -/
  | loftUpdate
  /-- LOFT_CUR_WRITE (R473): Writing LOFT_CUR selects the record shown in the window. -/
  | loftCurWrite (record : BitVec 10)
  /-- LOFT_CLEAR_ONE (R468): Clears one accumulator record. -/
  | loftClearOne (record : BitVec 10)
  /-- LOFT_CLEAR_ALL (R468): Clears every accumulator record. -/
  | loftClearAll
  /-- LOFT_CLEAR_DROP (R472): Sets LOFT_CNT_DROP to 0. -/
  | loftClearDrop
  /-- POWER_ON (R491): The main supply above threshold for 10 ms starts the regulators and releases reset. -/
  | powerOn
  /-- SUPPLY_DROP (R491): A main supply out of range switches off the logic-side rails and returns to reset. -/
  | supplyDrop
  /-- MODULE_RESET (R477): After reset release the boot sequence checks firmware and brings the module to READY or recovery. -/
  | moduleReset (readable : Bool) (katFail : BitVec 16)
  /-- BOOT_PUSH_GO (R479): Writing BOOT_PUSH_CTL.GO in recovery reads and checks a pushed firmware image. -/
  | bootPushGo (readOk : Bool)
  /-- PUSH_COMPLETE (R481): A push ends after the image slot is written and verified, setting DONE and its code. -/
  | pushComplete (ok : Bool)
  /-- BOOT_CTL_RESET (R482): Writing BOOT_CTL with KEY 0xA5 and RESET resets the module. -/
  | bootCtlReset (key : BitVec 8) (reset : Bool)
  /-- BOOT_CERT_SELECT (R486): Writing BOOT_CERT_CTL selects a certificate word for BOOT_CERT_DATA. -/
  | bootCertSelect (cert : Fin 4) (word : BitVec 12)
  /-- FUSE_BLOW (R483): After READY firmware blows anti-rollback and revoke fuses one at a time. -/
  | fuseBlow
  /-- EXTEST (R502): TAP instruction driving the boundary register onto the pins. -/
  | extest (cells : BitVec 2216)
  /-- SAMPLE_PRELOAD (R502): TAP instruction sampling or preloading the boundary register. -/
  | samplePreload (cells : BitVec 2216)
  /-- IDCODE (R502): TAP instruction selecting the 32-bit device identification register. -/
  | idcode
  /-- CLAMP (R502): TAP instruction holding boundary outputs and selecting bypass. -/
  | clamp
  /-- HIGHZ (R502): TAP instruction floating boundary outputs and selecting bypass. -/
  | highz
  /-- BYPASS (R502): TAP instruction selecting the 1-bit bypass register. -/
  | bypass
  /-- FIELD_SUPPLY_RETURN (R418): The field supply rises back above the SUPPLY_LOW threshold, so the outputs may be driven again and LS_A and LS_B may be energised once R419 holds. -/
  | fieldSupplyReturn
  /-- HOLD_UP_END (R492): The barrier supply hold-up ends after the logic-side rails switch off, and every Qn, LS_A and LS_B goes off whatever its SAFE bit. -/
  | holdUpEnd
  /-- CRYSTAL_AMPLITUDE_LOSS (R445): The crystal amplitude falls below 100 mV and XTAL_READY becomes 0. -/
  | crystalAmplitudeLoss (mv : BitVec 12)
  /-- RECOVERED_CLOCK_READY (R445): A port's recovered frequency has stayed within ±50 ppm of the crystal for 100 µs, so its REC_READY bit becomes 1, or leaves that range, so the bit becomes 0. -/
  | recoveredClockReady (port : Fin 8) (within : Bool)
  /-- LARDER_FILL_DONE (R181): A Larder zero fill or scrub completes, the Larder mode returns to normal, and commands waiting under R180 may issue. -/
  | larderFillDone (core : Fin 16)
deriving DecidableEq, Repr

end Sys2Proof
end

