-- ==== Sys2Proof/Machine/Arith.lean ====
section
/-! DEFINITION. Machine/Arith.lean: the integer arithmetic of the spec's pseudocode (R12): unsigned values wrap at
their width, signed values are exact and narrowed explicitly, integer division truncates toward zero and a right shift
of a signed value is arithmetic; little-endian byte strings (R4); and the sparse lists in which the state keeps
registers and memories. -/

namespace Sys2Proof.Machine

/-- A value modulo 2^64: u64 of R12. -/
def u64 (n : Nat) : Nat := n % 18446744073709551616

/-- A value modulo 2^32: u32 of R12. -/
def u32 (n : Nat) : Nat := n % 4294967296

/-- A value modulo 2^16. -/
def u16 (n : Nat) : Nat := n % 65536

/-- An unsigned value of `w` bits read as two's complement. -/
def signed (w n : Nat) : Int := if n % 2 ^ w < 2 ^ (w - 1) then (n % 2 ^ w : Nat) else ((n % 2 ^ w : Nat) : Int) - (2 ^ w : Nat)

/-- i64 of an unsigned value (R12). -/
def i64 (n : Nat) : Int := signed 64 n

/-- i32 of an unsigned value (R12). -/
def i32 (n : Nat) : Int := signed 32 n

/-- Two's complement of `w` bits of an integer. -/
def toBits (w : Nat) (z : Int) : Nat := (z % ((2 ^ w : Nat) : Int)).toNat

/-- u64 of a signed value. -/
def toU64 (z : Int) : Nat := toBits 64 z

/-- u32 of a signed value. -/
def toU32 (z : Int) : Nat := toBits 32 z

/-- Integer division that truncates toward zero (R12). -/
def tdiv (a b : Int) : Int := Int.tdiv a b

/-- `z` kept within `lo` and `hi`. -/
def clampInt (z lo hi : Int) : Int := if z < lo then lo else if hi < z then hi else z

/-- Saturation to i32 (R27). -/
def sat32 (z : Int) : Int := clampInt z (-2147483648) 2147483647

/-- Saturation to i64. -/
def sat64 (z : Int) : Int := clampInt z (-9223372036854775808) 9223372036854775807

/-- Sign of an integer. -/
def signOf (z : Int) : Int := if z < 0 then -1 else if z = 0 then 0 else 1

/-- Saturation of a count at `2^w - 1`. -/
def satNat (w n : Nat) : Nat := if n < 2 ^ w then n else 2 ^ w - 1

/-- Division of naturals rounded up. -/
def ceilDiv (a b : Nat) : Nat := if b = 0 then 0 else (a + b - 1) / b

/-- Bits `hi` to `lo` of a number. -/
def bits (n hi lo : Nat) : Nat := n / 2 ^ lo % 2 ^ (hi - lo + 1)

/-- Bit `k` of a number. -/
def bit (n k : Nat) : Bool := n / 2 ^ k % 2 == 1

/-- Number of ones among the low `w` bits. -/
def popCount : Nat → Nat → Nat
  | 0, _ => 0
  | w + 1, n => n % 2 + popCount w (n / 2)

/-- Positions of the ones among the low `w` bits, ascending. -/
def setBits (w n : Nat) : List Nat := (List.range w).filter (fun k => bit n k)

/-- The mask with the listed bits set. -/
def maskOf (ks : List Nat) : Nat := ks.foldl (fun a k => if bit a k then a else a + 2 ^ k) 0

/-- `n` as `k` bytes, least significant first (R4). -/
def leBytes : Nat → Nat → List Byte
  | 0, _ => []
  | k + 1, n => BitVec.ofNat 8 n :: leBytes k (n / 256)

/-- The unsigned value of a byte string, least significant byte first. -/
def leVal : List Byte → Nat
  | [] => 0
  | b :: bs => b.toNat + 256 * leVal bs

/-- `n` bytes of `bs` from position `i`; positions beyond the end read 0. -/
def sliceBytes (bs : List Byte) (i n : Nat) : List Byte :=
  let t := (bs.drop i).take n
  t ++ List.replicate (n - t.length) 0

/-- The unsigned little-endian field of `n` bytes at position `i` of a byte string. -/
def fieldAt (bs : List Byte) (i n : Nat) : Nat := leVal (sliceBytes bs i n)

/-- Cut a list into pieces of `k` elements, at most `fuel` of them. -/
def chunks {α : Type} : Nat → Nat → List α → List (List α)
  | 0, _, _ => []
  | _ + 1, _, [] => []
  | fuel + 1, k, x :: xs => (x :: xs).take k :: chunks fuel k ((x :: xs).drop k)

/-- Entry at key `k` of a sparse list; `d k` where none is listed. -/
def sparseGet {α : Type} (d : Nat → α) : List (Nat × α) → Nat → α
  | [], k => d k
  | (j, v) :: r, k => if j = k then v else if k < j then d k else sparseGet d r k

/-- A sparse list with key `k` set to `v`; the default value is never listed, so equal contents are equal lists. -/
def sparsePut {α : Type} [DecidableEq α] (d : Nat → α) : List (Nat × α) → Nat → α → List (Nat × α)
  | [], k, v => if v = d k then [] else [(k, v)]
  | (j, u) :: r, k, v =>
    if k < j then (if v = d k then (j, u) :: r else (k, v) :: (j, u) :: r)
    else if k = j then (if v = d k then r else (k, v) :: r)
    else (j, u) :: sparsePut d r k v

/-- The canonical form of a sparse list: keys strictly rising above `lo`, no default value listed. -/
def sparseWfFrom {α : Type} [DecidableEq α] (d : Nat → α) : Option Nat → List (Nat × α) → Bool
  | _, [] => true
  | lo, (j, v) :: r =>
    (match lo with
     | none => true
     | some l => decide (l < j)) && decide (v ≠ d j) && sparseWfFrom d (some j) r

/-- The canonical form of a sparse list. -/
def sparseWf {α : Type} [DecidableEq α] (d : Nat → α) (l : List (Nat × α)) : Bool := sparseWfFrom d none l

/-- Entry at key `k` of a keyed list. -/
def keyGet {α : Type} : List (Nat × α) → Nat → Option α
  | [], _ => none
  | (j, v) :: r, k => if j = k then some v else keyGet r k

/-- A keyed list, keys strictly rising, with key `k` set. -/
def keyPut {α : Type} : List (Nat × α) → Nat → α → List (Nat × α)
  | [], k, v => [(k, v)]
  | (j, u) :: r, k, v =>
    if k < j then (k, v) :: (j, u) :: r
    else if k = j then (k, v) :: r
    else (j, u) :: keyPut r k v

/-- A keyed list without key `k`. -/
def keyDel {α : Type} (l : List (Nat × α)) (k : Nat) : List (Nat × α) := l.filter (fun e => e.1 != k)

/-- Element `i` of a list, `d` beyond its end. -/
def nth {α : Type} (l : List α) (i : Nat) (d : α) : α := l.getD i d

/-- A list with element `i` replaced; unchanged beyond its end. -/
def setNth {α : Type} : List α → Nat → α → List α
  | [], _, _ => []
  | _ :: xs, 0, v => v :: xs
  | x :: xs, i + 1, v => x :: setNth xs i v

end Sys2Proof.Machine
end

