-- ==== Sys2Proof/Machine/Digest.lean ====
section
/-! DEFINITION. Machine/Digest.lean: the checks and digests that the spec names: CRC-16 of barrier frames (R76), the
CRC-32 of PNG (R468), Adler-32 (R289) and SHA-256 (R239). SHA-256 is FIPS 180-4 and the PNG CRC is ISO 3309, which the
spec names without restating (log entry 5). -/

namespace Sys2Proof.Machine

/-- One bit of the CRC-16 of R76, polynomial 0x1021, not reflected. -/
def crc16Bit (c : Nat) : Nat := if bit c 15 then Nat.xor (c * 2 % 65536) 0x1021 else c * 2 % 65536

/-- CRC-16 over bytes, initial value 0xFFFF (R76). -/
def crc16 (bs : List Byte) : Nat :=
  bs.foldl (fun c b => crc16Bit (crc16Bit (crc16Bit (crc16Bit (crc16Bit (crc16Bit (crc16Bit (crc16Bit
    (Nat.xor c (b.toNat * 256)))))))))) 0xFFFF

/-- One bit of the CRC-32 of PNG, reflected polynomial 0xEDB88320. -/
def crc32Bit (c : Nat) : Nat := if c % 2 = 1 then Nat.xor (c / 2) 0xEDB88320 else c / 2

/-- CRC-32 as PNG uses it (R468). -/
def crc32 (bs : List Byte) : Nat :=
  Nat.xor (bs.foldl (fun c b => crc32Bit (crc32Bit (crc32Bit (crc32Bit (crc32Bit (crc32Bit (crc32Bit (crc32Bit
    (Nat.xor c b.toNat))))))))) 0xFFFFFFFF) 0xFFFFFFFF

/-- Adler-32, the check of a zlib stream. -/
def adler32 (bs : List Byte) : Nat :=
  let (a, b) := bs.foldl (fun (p : Nat × Nat) x =>
    let a := (p.1 + x.toNat) % 65521
    (a, (p.2 + a) % 65521)) (1, 0)
  b * 65536 + a

/-- Rotate a 32-bit word right. -/
def rotr32 (w n : Nat) : Nat := w / 2 ^ n + w % 2 ^ n * 2 ^ (32 - n)

/-- Exclusive or of three words. -/
def xor3 (a b c : Nat) : Nat := Nat.xor (Nat.xor a b) c

/-- The eight 32-bit words of a 256-bit number, most significant first. -/
def words256 (n : Nat) : List Nat := (List.range 8).map (fun k => n / 2 ^ (32 * (7 - k)) % 2 ^ 32)

/-- Round constants of SHA-256, eight to a number: the first 32 fractional bits of the cube roots of the first 64 primes. -/
def sha256K : List Nat :=
  [0x428A2F98_71374491_B5C0FBCF_E9B5DBA5_3956C25B_59F111F1_923F82A4_AB1C5ED5,
   0xD807AA98_12835B01_243185BE_550C7DC3_72BE5D74_80DEB1FE_9BDC06A7_C19BF174,
   0xE49B69C1_EFBE4786_0FC19DC6_240CA1CC_2DE92C6F_4A7484AA_5CB0A9DC_76F988DA,
   0x983E5152_A831C66D_B00327C8_BF597FC7_C6E00BF3_D5A79147_06CA6351_14292967,
   0x27B70A85_2E1B2138_4D2C6DFC_53380D13_650A7354_766A0ABB_81C2C92E_92722C85,
   0xA2BFE8A1_A81A664B_C24B8B70_C76C51A3_D192E819_D6990624_F40E3585_106AA070,
   0x19A4C116_1E376C08_2748774C_34B0BCB5_391C0CB3_4ED8AA4A_5B9CCA4F_682E6FF3,
   0x748F82EE_78A5636F_84C87814_8CC70208_90BEFFFA_A4506CEB_BEF9A3F7_C67178F2].flatMap words256

/-- Initial hash value of SHA-256: the first 32 fractional bits of the square roots of the first 8 primes. -/
def sha256H : List Nat := words256 0x6A09E667_BB67AE85_3C6EF372_A54FF53A_510E527F_9B05688C_1F83D9AB_5BE0CD19

/-- A byte string as big-endian words of 4 bytes. -/
def beWords : List Byte → List Nat
  | a :: b :: c :: d :: r => (((a.toNat * 256 + b.toNat) * 256 + c.toNat) * 256 + d.toNat) :: beWords r
  | _ => []

/-- `n` as `k` bytes, most significant first. -/
def beBytes (k n : Nat) : List Byte := (leBytes k n).reverse

/-- One round: the eight working words after word `w` and constant `k`. -/
def sha256Round (v : List Nat) (kw : Nat × Nat) : List Nat :=
  match v with
  | [a, b, c, d, e, f, g, h] =>
    let s1 := xor3 (rotr32 e 6) (rotr32 e 11) (rotr32 e 25)
    let ch := Nat.xor (Nat.land e f) (Nat.land (0xFFFFFFFF - e) g)
    let t1 := h + s1 + ch + kw.1 + kw.2
    let s0 := xor3 (rotr32 a 2) (rotr32 a 13) (rotr32 a 22)
    let mj := xor3 (Nat.land a b) (Nat.land a c) (Nat.land b c)
    [u32 (t1 + s0 + mj), a, b, c, u32 (d + t1), e, f, g]
  | _ => v

/-- The message schedule, newest word first, extended by `n` words. -/
def sha256Expand : Nat → List Nat → List Nat
  | 0, w => w
  | n + 1, w =>
    let x := nth w 14 0
    let y := nth w 1 0
    let s0 := xor3 (rotr32 x 7) (rotr32 x 18) (x / 8)
    let s1 := xor3 (rotr32 y 17) (rotr32 y 19) (y / 1024)
    sha256Expand n (u32 (nth w 15 0 + s0 + nth w 6 0 + s1) :: w)

/-- Compress one block of 64 bytes. -/
def sha256Block (h : List Nat) (blk : List Byte) : List Nat :=
  let w := (sha256Expand 48 (beWords blk).reverse).reverse
  let v := (sha256K.zip w).foldl sha256Round h
  (h.zip v).map (fun p => u32 (p.1 + p.2))

/-- SHA-256 of a byte string. -/
def sha256 (bs : List Byte) : List Byte :=
  let n := bs.length
  let pad := (119 - n % 64) % 64
  let m := bs ++ [0x80] ++ List.replicate pad 0 ++ beBytes 8 (n * 8)
  ((chunks m.length 64 m).foldl sha256Block sha256H).flatMap (beBytes 4)

/-- HMAC-SHA-256 with a key of at most 64 bytes (RFC 2104; log entry 5). -/
def hmacSha256 (key msg : List Byte) : List Byte :=
  let k := key ++ List.replicate (64 - key.length) 0
  let inner := sha256 (k.map (fun b => b ^^^ 0x36) ++ msg)
  sha256 (k.map (fun b => b ^^^ 0x5C) ++ inner)

/-- 32 bytes of HKDF-SHA-256 from a secret under an info string, without salt (R485, RFC 5869; log entry 5). -/
def hkdf32 (secret info : List Byte) : List Byte :=
  hmacSha256 (hmacSha256 (List.replicate 32 0) secret) (info ++ [1])

end Sys2Proof.Machine
end

