-- ==== Sys2Proof/Machine/Decoder.lean ====
section
/-! DEFINITION. Machine/Decoder.lean: what a decode engine makes of an encoded sample: KTR and PNG, with the zlib
decoder that PNG needs (spec/13_adaptation.md, R285-R290). DEFLATE and zlib are RFC 1951 and RFC 1950, which PNG
(ISO/IEC 15948) names; log entry 35 says how the points that they leave are read. -/

namespace Sys2Proof.Machine

/-- Sample statuses (R294). -/
inductive Sample where
  | ok | shortData | timedOut | tooBig | ratio | format | corrupt
  deriving DecidableEq, Repr

/-- STATUS codes (R294). -/
def Sample.code : Sample → Nat
  | .ok => 0 | .shortData => 1 | .timedOut => 2 | .tooBig => 3 | .ratio => 4 | .format => 5 | .corrupt => 6

/-- What a header asserts (R290): planes, bytes per sample, width and height. -/
structure Shape where
  planes : Nat
  sbytes : Nat
  width : Nat
  height : Nat
  deriving DecidableEq, Repr

/-- The claim of R290, as u64. -/
def Shape.claim (h : Shape) : Nat := u64 (h.planes * h.height * h.width * h.sbytes)

/-- Offset of a sample in planar packed output (R288). -/
def Shape.at_ (h : Shape) (c y x : Nat) : Nat := c * h.height * h.width * h.sbytes + y * h.width * h.sbytes + x * h.sbytes

/-- The outcome of decoding: status, the header if it was accepted, EXCESS, and the samples in the order in which they
are written, each with its offset in the slot. -/
structure SampleOut where
  status : Sample
  shape : Option Shape := none
  excess : Bool := false
  writes : List (Nat × List Byte) := []
  deriving DecidableEq, Repr

/-! ### zlib -/

/-- The bits of a byte string, least significant bit of each byte first. -/
def bitsOf (bs : List Byte) : List Bool := bs.flatMap (fun b => (List.range 8).map (fun k => bit b.toNat k))

/-- The value of bits, the first least significant. -/
def bitsVal : List Bool → Nat
  | [] => 0
  | b :: bs => (if b then 1 else 0) + 2 * bitsVal bs

/-- A step of the bit reader: a value and the bits left; the data ended; or the data is malformed. -/
inductive Reader (α : Type) where
  | got (v : α) (rest : List Bool)
  | ended
  | bad

/-- Take `n` bits as a number. -/
def takeBits (n : Nat) (bs : List Bool) : Reader Nat :=
  if bs.length < n then .ended else .got (bitsVal (bs.take n)) (bs.drop n)

/-- Symbols of a canonical Huffman code with their length and code. -/
abbrev Huff := List (Nat × Nat × Nat)

/-- First code of length `n` (RFC 1951). -/
def firstCode (lens : List Nat) : Nat → Nat
  | 0 => 0
  | n + 1 => (firstCode lens n + (if n = 0 then 0 else lens.count n)) * 2

/-- The canonical code of a list of lengths, by symbol. -/
def huffOf (lens : List Nat) : Huff :=
  ((List.range lens.length).zip lens).filterMap (fun e =>
    if e.2 = 0 then none else some (e.2, firstCode lens e.2 + (lens.take e.1).count e.2, e.1))

/-- The lengths do not name more codes than there are. -/
def huffFits (lens : List Nat) : Bool :=
  decide ((lens.map (fun n => if n = 0 then 0 else 2 ^ (15 - n))).sum ≤ 32768)

/-- Read one symbol: code bits come most significant first. -/
def readSym (h : Huff) : Nat → Nat → Nat → List Bool → Reader Nat
  | 0, _, _, _ => .bad
  | _ + 1, _, _, [] => .ended
  | f + 1, n, code, b :: bs =>
    let code := code * 2 + (if b then 1 else 0)
    match h.find? (fun e => e.1 == n + 1 && e.2.1 == code) with
    | some e => .got e.2.2 bs
    | none => readSym h f (n + 1) code bs

/-- Base lengths and extra bits of length symbols 257-285. -/
def lenBase : List (Nat × Nat) := [
  (3, 0), (4, 0), (5, 0), (6, 0), (7, 0), (8, 0), (9, 0), (10, 0), (11, 1), (13, 1), (15, 1), (17, 1), (19, 2), (23, 2),
  (27, 2), (31, 2), (35, 3), (43, 3), (51, 3), (59, 3), (67, 4), (83, 4), (99, 4), (115, 4), (131, 5), (163, 5),
  (195, 5), (227, 5), (258, 0)]

/-- Base distances and extra bits of distance symbols 0-29. -/
def distBase : List (Nat × Nat) := [
  (1, 0), (2, 0), (3, 0), (4, 0), (5, 1), (7, 1), (9, 2), (13, 2), (17, 3), (25, 3), (33, 4), (49, 4), (65, 5), (97, 5),
  (129, 6), (193, 6), (257, 7), (385, 7), (513, 8), (769, 8), (1025, 9), (1537, 9), (2049, 10), (3073, 10), (4097, 11),
  (6145, 11), (8193, 12), (12289, 12), (16385, 13), (24577, 13)]

/-- A base value plus its extra bits. -/
def readExtra (e : Option (Nat × Nat)) (bs : List Bool) : Reader Nat :=
  match e with
  | none => .bad
  | some (b, n) => match takeBits n bs with
    | .got v r => .got (b + v) r
    | .ended => .ended
    | .bad => .bad

/-- Copy `n` bytes from `d` back; output is held newest first. -/
def copyBack (d : Nat) : Nat → List Byte → List Byte
  | 0, out => out
  | n + 1, out => copyBack d n (out.getD (d - 1) 0 :: out)

/-- How decompression ended. -/
inductive Ending where
  | complete | dataEnd | malformed
  deriving DecidableEq, Repr

/-- The result of a part of decompression: how it ended, output newest first, and the bits left. -/
structure Inflated where
  ending : Ending
  out : List Byte
  rest : List Bool

/-- One compressed block (RFC 1951). -/
def inflateCodes (lit dist : Huff) : Nat → List Byte → List Bool → Inflated
  | 0, out, bs => ⟨.malformed, out, bs⟩
  | f + 1, out, bs => match readSym lit 15 0 0 bs with
    | .ended => ⟨.dataEnd, out, []⟩
    | .bad => ⟨.malformed, out, bs⟩
    | .got v bs =>
      if v < 256 then inflateCodes lit dist f (BitVec.ofNat 8 v :: out) bs
      else if v = 256 then ⟨.complete, out, bs⟩
      else match readExtra lenBase[v - 257]? bs with
        | .ended => ⟨.dataEnd, out, []⟩
        | .bad => ⟨.malformed, out, bs⟩
        | .got n bs => match readSym dist 15 0 0 bs with
          | .ended => ⟨.dataEnd, out, []⟩
          | .bad => ⟨.malformed, out, bs⟩
          | .got ds bs => match readExtra distBase[ds]? bs with
            | .ended => ⟨.dataEnd, out, []⟩
            | .bad => ⟨.malformed, out, bs⟩
            | .got d bs =>
              if d > out.length then ⟨.malformed, out, bs⟩ else inflateCodes lit dist f (copyBack d n out) bs

/-- Code lengths of a dynamic block: `n` of them, run-length coded. -/
def readLens (h : Huff) (n : Nat) : Nat → List Nat → List Bool → Reader (List Nat)
  | 0, _, _ => .bad
  | f + 1, acc, bs =>
    if acc.length > n then .bad
    else if acc.length = n then .got acc bs
    else match readSym h 15 0 0 bs with
      | .ended => .ended
      | .bad => .bad
      | .got v bs =>
        if v < 16 then readLens h n f (acc ++ [v]) bs
        else
          let (x, base) := if v = 16 then (acc.getLast?, (3, 2)) else if v = 17 then (some 0, (3, 3)) else (some 0, (11, 7))
          match x, readExtra (some base) bs with
          | some x, .got k bs => readLens h n f (acc ++ List.replicate k x) bs
          | none, _ => .bad
          | _, .ended => .ended
          | _, .bad => .bad

/-- Order of the code length code lengths. -/
def lensOrder : List Nat := [16, 17, 18, 0, 8, 7, 9, 6, 10, 5, 11, 4, 12, 3, 13, 2, 14, 1, 15]

/-- The codes of a dynamic block. -/
def readTables (bs : List Bool) : Reader (Huff × Huff) :=
  match takeBits 14 bs with
  | .ended => .ended
  | .bad => .bad
  | .got v bs =>
    let hlit := v % 32 + 257
    let hdist := v / 32 % 32 + 1
    let hclen := v / 1024 + 4
    if bs.length < hclen * 3 then .ended
    else if hlit > 286 then .bad
    else
      let xs := (List.range hclen).map (fun i => bitsVal ((bs.drop (3 * i)).take 3))
      let cl := (List.range 19).map (fun sym => match lensOrder.findIdx? (· == sym) with
        | some i => xs.getD i 0
        | none => 0)
      if !huffFits cl then .bad
      else match readLens (huffOf cl) (hlit + hdist) (hlit + hdist + 1) [] (bs.drop (hclen * 3)) with
        | .ended => .ended
        | .bad => .bad
        | .got lens bs =>
          let lit := lens.take hlit
          let dist := lens.drop hlit
          if huffFits lit && huffFits dist && lit.getD 256 0 != 0 then .got (huffOf lit, huffOf dist) bs else .bad

/-- The fixed codes. -/
def fixedLit : Huff := huffOf (List.replicate 144 8 ++ List.replicate 112 9 ++ List.replicate 24 7 ++ List.replicate 8 8)
def fixedDist : Huff := huffOf (List.replicate 30 5)

/-- A stored block: `pos` bits of the stream have been taken, so that the block starts at the next byte. -/
def inflateStored (total : Nat) (out : List Byte) (bs : List Bool) : Inflated :=
  let bs := bs.drop ((total - bs.length + 7) / 8 * 8 - (total - bs.length))
  match takeBits 32 bs with
  | .got v r =>
    let n := v % 65536
    if v / 65536 != 65535 - n then ⟨.malformed, out, r⟩
    else
      let k := Nat.min n (r.length / 8)
      let bytes := (List.range k).map (fun i => BitVec.ofNat 8 (bitsVal ((r.drop (8 * i)).take 8)))
      ⟨if k < n then .dataEnd else .complete, bytes.reverse ++ out, r.drop (8 * k)⟩
  | _ => ⟨.dataEnd, out, []⟩

/-- DEFLATE blocks (RFC 1951); `total` is the length of the stream in bits. -/
def inflate (total : Nat) : Nat → List Byte → List Bool → Inflated
  | 0, out, bs => ⟨.malformed, out, bs⟩
  | f + 1, out, bs => match takeBits 3 bs with
    | .got v bs =>
      let r := match v / 2 with
        | 0 => inflateStored total out bs
        | 1 => inflateCodes fixedLit fixedDist (bs.length + 1) out bs
        | 2 => (match readTables bs with
          | .got (l, d) bs => inflateCodes l d (bs.length + 1) out bs
          | .ended => ⟨.dataEnd, out, []⟩
          | .bad => ⟨.malformed, out, bs⟩)
        | _ => ⟨.malformed, out, bs⟩
      if r.ending = .complete && v % 2 == 0 then inflate total f r.out r.rest else r
    | _ => ⟨.dataEnd, out, []⟩

/-- A zlib stream (RFC 1950): its output in order, and how it ended; a failing Adler-32 ends as malformed. -/
def unzlib (bs : List Byte) : Ending × List Byte :=
  if bs.length < 2 then (.dataEnd, [])
  else
    let cmf := fieldAt bs 0 1
    let flg := fieldAt bs 1 1
    if cmf % 16 != 8 || cmf / 16 > 7 || (cmf * 256 + flg) % 31 != 0 || bit flg 5 then (.malformed, [])
    else
      let z := bitsOf (bs.drop 2)
      let r := inflate z.length (z.length + 1) [] z
      let out := r.out.reverse
      if r.ending != .complete then (r.ending, out)
      else
        let tail := (bs.drop (bs.length - r.rest.length / 8)).take 4
        if tail.length < 4 then (.dataEnd, out)
        else if leVal tail.reverse = adler32 out then (.complete, out)
        else (.malformed, out)

/-! ### PNG (R289) -/

/-- A chunk: its type, its data, whether it is whole, and whether its CRC holds. -/
structure Chunk where
  type : List Byte
  data : List Byte
  whole : Bool
  good : Bool
  deriving DecidableEq, Repr

/-- Bytes of a chunk type. -/
def chunkIhdr : List Byte := [0x49, 0x48, 0x44, 0x52]
def chunkPlte : List Byte := [0x50, 0x4C, 0x54, 0x45]
def chunkIdat : List Byte := [0x49, 0x44, 0x41, 0x54]
def chunkIend : List Byte := [0x49, 0x45, 0x4E, 0x44]

/-- The chunks of a file after its signature, up to IEND or the end of the data. -/
def chunksOf : Nat → List Byte → List Chunk
  | 0, _ => []
  | f + 1, bs =>
    if bs.length < 8 then []
    else
      let n := leVal (bs.take 4).reverse
      let t := (bs.drop 4).take 4
      let body := bs.drop 8
      if body.length < n + 4 then [⟨t, body.take n, false, true⟩]
      else
        let d := body.take n
        let c := leVal ((body.drop n).take 4).reverse
        let x : Chunk := ⟨t, d, true, c == crc32 (t ++ d)⟩
        if t = chunkIend then [x] else x :: chunksOf f (body.drop (n + 4))

/-- A chunk type is critical: bit 5 of its first byte is 0. -/
def Chunk.critical (c : Chunk) : Bool := !bit (fieldAt c.type 0 1) 5

/-- Channels of a colour type of R289. -/
def pngChannels : Nat → Option Nat
  | 0 => some 1 | 2 => some 3 | 6 => some 4 | _ => none

/-- The header of a PNG file (R289, R290 step 1): signature, IHDR first and with supported values, no unknown critical
chunk. -/
def pngHeader (bs : List Byte) (cs : List Chunk) : Option Shape :=
  if bs.take 8 != [0x89, 0x50, 0x4E, 0x47, 0x0D, 0x0A, 0x1A, 0x0A] then none
  else match cs with
    | [] => none
    | c :: rest =>
      let w := leVal (c.data.take 4).reverse
      let h := leVal ((c.data.drop 4).take 4).reverse
      let depth := fieldAt c.data 8 1
      if c.type != chunkIhdr || c.data.length != 13 || w == 0 || h == 0 || decide (w ≥ 2147483648)
          || decide (h ≥ 2147483648) || (depth != 8 && depth != 16) || fieldAt c.data 10 3 != 0
          || rest.any (fun x => x.critical && x.type != chunkIdat && x.type != chunkPlte && x.type != chunkIend) then none
      else (pngChannels (fieldAt c.data 9 1)).map (fun n => ⟨n, depth / 8, w, h⟩)

/-- Chunks before the first whose CRC fails, and whether there is one. -/
def goodChunks (cs : List Chunk) : List Chunk × Bool := (cs.takeWhile (·.good), cs.any (fun c => !c.good))

/-- The Paeth predictor. -/
def paeth (a b c : Nat) : Nat :=
  let p : Int := (a : Int) + b - c
  let pa := (p - a).natAbs
  let pb := (p - b).natAbs
  let pc := (p - c).natAbs
  if pa ≤ pb && pa ≤ pc then a else if pb ≤ pc then b else c

/-- Undo filter `t` on one row: `done` holds the bytes so far, newest first; `prior` is the row above. -/
def unfilter (t bpp : Nat) (prior : List Nat) : Nat → List Nat → List Nat → List Nat
  | _, done, [] => done
  | i, done, v :: vs =>
    let a := if i < bpp then 0 else done.getD (bpp - 1) 0
    let b := prior.getD i 0
    let c := if i < bpp then 0 else prior.getD (i - bpp) 0
    let p := match t with
      | 1 => a
      | 2 => b
      | 3 => (a + b) / 2
      | 4 => paeth a b c
      | _ => 0
    unfilter t bpp prior (i + 1) ((v + p) % 256 :: done) vs

/-- Rows of the image from the decompressed bytes, as far as they reach, and whether a filter type was not one of the
five. -/
def pngRows (rowBytes bpp : Nat) : Nat → List Nat → List Nat → List (List Nat) × Bool
  | 0, _, _ => ([], false)
  | _ + 1, _, [] => ([], false)
  | h + 1, prior, t :: vs =>
    if t > 4 then ([], true)
    else
      let row := (unfilter t bpp prior 0 [] (vs.take rowBytes)).reverse
      let (rs, bad) := pngRows rowBytes bpp h row (vs.drop rowBytes)
      (row :: rs, bad)

/-- The samples of row `y`, pixel by pixel; 16-bit samples are turned to little-endian. -/
def rowSamples (h : Shape) (y : Nat) (row : List Nat) : List (Nat × List Byte) :=
  (List.range (row.length / h.sbytes)).map (fun k =>
    let bs := ((row.drop (k * h.sbytes)).take h.sbytes).map (BitVec.ofNat 8)
    (h.at_ (k % h.planes) y (k / h.planes), bs.reverse))

/-- PAD as a sample. -/
def padSample (h : Shape) (pad : Nat) : List Byte := leBytes h.sbytes pad

/-- Samples of the slot that `ws` does not write, filled with PAD (R290 step 6). -/
def padFill (h : Shape) (pad : Nat) (ws : List (Nat × List Byte)) : List (Nat × List Byte) :=
  ((List.range (h.claim / h.sbytes)).map (· * h.sbytes)).filterMap (fun o =>
    if ws.any (fun w => w.1 == o) then none else some (o, padSample h pad))

/-- Steps 5 to 7 of R290 for PNG. Samples whose place lies beyond the claim, which is a u64, are discarded. -/
def pngDecode (h : Shape) (cs : List Chunk) (pad : Nat) : SampleOut :=
  let (gs, crcBad) := goodChunks cs
  let (ending, out) := unzlib ((gs.filter (fun c => c.type == chunkIdat)).flatMap (·.data))
  let rowBytes := h.width * h.planes * h.sbytes
  let (rows, badType) := pngRows rowBytes (h.planes * h.sbytes) h.height [] (out.map (·.toNat))
  let all := ((List.range rows.length).zip rows).flatMap (fun r => rowSamples h r.1 r.2)
  let ws := all.filter (fun w => decide (w.1 + h.sbytes ≤ h.claim))
  let excess := decide (out.length > h.height * (rowBytes + 1)) || decide (ws.length < all.length)
  if crcBad || badType || ending = .malformed then { status := .corrupt, shape := some h, writes := ws }
  else if ws.length * h.sbytes < h.claim then
    { status := .shortData, shape := some h, excess := decide (ws.length < all.length), writes := ws ++ padFill h pad ws }
  else { status := .ok, shape := some h, excess := excess, writes := ws }

/-! ### KTR (R285, R286) -/

/-- A power of two from 1 to 4,096. -/
def tileSize (n : Nat) : Bool := ((List.range 13).map (fun k => 2 ^ k)).contains n

/-- The header of a KTR file (R285), with its tile width and height. -/
def ktrHeader (bs : List Byte) : Option (Shape × Nat × Nat) :=
  let f (i n : Nat) : Nat := fieldAt bs i n
  if bs.length < 64 || bs.take 4 != [0x4B, 0x54, 0x52, 0x31] || f 4 2 != 1 || f 6 1 == 0 || decide (f 6 1 > 8)
      || f 7 1 == 0 || decide (f 7 1 > 2) || f 8 4 == 0 || decide (f 8 4 > 65535) || f 12 4 == 0 || decide (f 12 4 > 65535)
      || !tileSize (f 16 2) || !tileSize (f 18 2) || f 44 16 != 0 || f 60 4 != crc32 (bs.take 60) then none
  else some (⟨f 6 1, f 7 1, f 8 4, f 12 4⟩, f 16 2, f 18 2)

/-- The data length of R286. -/
def ktrBytes (h : Shape) (tw th : Nat) : Nat :=
  h.planes * ceilDiv h.height th * ceilDiv h.width tw * tw * th * h.sbytes

/-- The samples of a KTR file in storage order: offset in the slot, and offset in the data; those outside WIDTH or
HEIGHT are left out. -/
def ktrOrder (h : Shape) (tw th : Nat) : List (Nat × Nat) :=
  let tc := ceilDiv h.width tw
  let tr := ceilDiv h.height th
  (List.range (h.planes * tr * tc * tw * th)).filterMap (fun i =>
    let t := i / (tw * th)
    let x := t % tc * tw + i % tw
    let y := t / tc % tr * th + i % (tw * th) / tw
    let c := t / (tc * tr)
    if x < h.width && y < h.height then some (h.at_ c y x, i * h.sbytes) else none)

/-- Steps 5 to 7 of R290 for KTR. -/
def ktrDecode (h : Shape) (tw th : Nat) (data : List Byte) (pad : Nat) : SampleOut :=
  let order := ktrOrder h tw th
  let ws := order.map (fun e =>
    if e.2 + h.sbytes ≤ data.length then (e.1, (data.drop e.2).take h.sbytes) else (e.1, padSample h pad))
  if order.any (fun e => decide (e.2 + h.sbytes > data.length)) then { status := .shortData, shape := some h, writes := ws }
  else { status := .ok, shape := some h, excess := decide (data.length > ktrBytes h tw th), writes := ws }

/-! ### The engine (R290) -/

/-- Steps 2 to 4 of R290: the status that ends the decode, if one does. -/
def claimStatus (h : Shape) (slot ratio len : Nat) : Option Sample :=
  if h.claim > slot then some .tooBig
  else if h.claim > u64 ((if ratio = 0 then 1024 else ratio) * len) then some .ratio
  else none

/-- R290 on a sample: format, its bytes, the slot size, RATIO_MAX and PAD. -/
def decodeSample (format : Nat) (bs : List Byte) (slot ratio pad : Nat) : SampleOut :=
  match format with
  | 0 => (match ktrHeader bs with
    | none => { status := .format }
    | some (h, tw, th) => match claimStatus h slot ratio bs.length with
      | some e => { status := e, shape := some h }
      | none => ktrDecode h tw th (bs.drop 64) pad)
  | 1 =>
    let cs := chunksOf (bs.length + 1) (bs.drop 8)
    (match pngHeader bs cs with
    | none => { status := .format }
    | some h => match claimStatus h slot ratio bs.length with
      | some e => { status := e, shape := some h }
      | none => pngDecode h cs pad)
  | _ => { status := .format }

end Sys2Proof.Machine
end

