-- ==== Sys2Proof/Config.lean ====
section
/-! DEFINITION. Config.lean: what an implementation fixes and the values the spec leaves open: opaque constants, of
which nothing can be computed or proved. -/

namespace Sys2Proof

/-- Free values: the k-th draw of a value that the spec leaves open (log entry 2). -/
opaque Config.freeValue : Nat → BitVec 64

/-- The seed of SR_SEEDED in a vector command, whose record carries none (log entry 28). -/
opaque Config.vectorSeed : BitVec 32

/-- A lane of VPOOLH whose window takes no position, where R205 gives no value: of the command's parameters, its source lanes
and the lane (log entry 28). -/
opaque Config.emptyPool : List Nat → List Int → Nat → BitVec 32

/-- The partition for which R340 judges the SO_WAIT and SO_SIGNAL requests of a client's ring: R340 has a client opcode
refused that breaks it, and no rule gives a client a partition (log entry 40). With none its requests are not judged. -/
opaque Config.clientPart : Nat → Option (Fin 8)

/-- An Ed25519 signature verifies: key, message, signature (R237, R476; log entry 5). -/
opaque Config.ed25519Verify : List Byte → List Byte → List Byte → Bool

/-- An ML-DSA-65 signature verifies: key, message, signature (R237, R476; log entry 5). -/
opaque Config.mldsaVerify : List Byte → List Byte → List Byte → Bool

/-- The Ed25519 signature of a message by the key of a 32-byte seed (R485, R487; log entry 5). -/
opaque Config.ed25519Sign : List Byte → List Byte → List Byte

/-- The ML-DSA-65 signature of a message by the key of a 32-byte seed (R485, R487; log entry 5). -/
opaque Config.mldsaSign : List Byte → List Byte → List Byte

/-- The Ed25519 public key of a 32-byte seed (R485; log entry 5). -/
opaque Config.ed25519Public : List Byte → List Byte

/-- The ML-DSA-65 public key of a 32-byte seed (R485; log entry 5). -/
opaque Config.mldsaPublic : List Byte → List Byte

/-- The public key that an X.509 certificate in DER carries, and the digits of its subject serialNumber (R486; log entry 5). -/
opaque Config.certKey : List Byte → List Byte
opaque Config.certSerial : List Byte → List Nat

/-- The pins that the boundary register covers (R503). -/
inductive PinGroup where
  | encoder | acoustic | timePulse | bootFlash | pmbus | regulatorAlert | isolator
  deriving DecidableEq, Repr, Inhabited

/-- The group of pins to which a cell of the boundary register belongs: the BSDL description says which, the spec does not (R502,
R503; log entry 57). -/
opaque Config.cellGroup : Fin 2216 → PinGroup

/-- The DST byte and the LSEQ of a HELLO on a port: the peer's ID is not known, and no rule numbers it (R428-R430; log entry 31). -/
opaque Config.helloDst : Nat → BitVec 8
opaque Config.helloLseq : Nat → BitVec 12

/-- How the TAG of a HALO packet names entry, strip and byte offset: R443 has it name them, and no rule gives a layout (log entry
22). -/
opaque Config.haloTag : Nat → Nat → Nat → BitVec 32

/-- The FP32 energy that a feature engine reports for a band, where R300's bounds admit it: FFT size, samples, first and last bin
(log entry 36). -/
opaque Config.bandEnergy : Nat → List Int → Nat → Nat → BitVec 32

/-- The two public keys whose hash is a firmware SIGNER: the signature block of R236 holds the hash alone, and R476 has the
keys verify (log entry 38). -/
opaque Config.keysOf : List Byte → List Byte × List Byte

end Sys2Proof
end

