-- ==== Sys2Proof/Machine/Fp.lean ====
section
/-! DEFINITION. Machine/Fp.lean: binary floating point: decoding to an exact value, exact arithmetic, and one rounding
at the end (spec/07_matrix_cores.md, R154-R160). A finite value is m * 2^e with integer m. -/

namespace Sys2Proof.Machine

/-- A decoded floating value. The sign of a zero is kept. -/
inductive Fp where
  | nan
  | inf (neg : Bool)
  | fin (neg : Bool) (m : Nat) (e : Int)
  deriving DecidableEq, Repr

/-- A floating format: exponent bits, mantissa bits, and whether the top exponent holds infinities (E4M3: only NaN). -/
structure FpFmt where
  eb : Nat
  mb : Nat
  inf : Bool
  deriving DecidableEq, Repr

def FpFmt.fp32 : FpFmt := ⟨8, 23, true⟩
def FpFmt.fp16 : FpFmt := ⟨5, 10, true⟩
def FpFmt.bf16 : FpFmt := ⟨8, 7, true⟩
def FpFmt.e4m3 : FpFmt := ⟨4, 3, false⟩
def FpFmt.e5m2 : FpFmt := ⟨5, 2, true⟩

/-- Exponent bias of a format. -/
def FpFmt.bias (f : FpFmt) : Int := (2 ^ (f.eb - 1) : Nat) - 1

/-- Decode bits of a format. -/
def FpFmt.decode (f : FpFmt) (n : Nat) : Fp :=
  let neg := bit n (f.eb + f.mb)
  let e := n / 2 ^ f.mb % 2 ^ f.eb
  let m := n % 2 ^ f.mb
  if e = 2 ^ f.eb - 1 && f.inf then (if m = 0 then .inf neg else .nan)
  else if e = 2 ^ f.eb - 1 && m = 2 ^ f.mb - 1 then .nan
  else if e = 0 then .fin neg m (1 - f.bias - f.mb)
  else .fin neg (m + 2 ^ f.mb) ((e : Int) - f.bias - f.mb)

/-- Canonical NaN of a format (R157, R158). -/
def FpFmt.canonNan (f : FpFmt) : Nat :=
  if f.inf then (2 ^ f.eb - 1) * 2 ^ f.mb + 2 ^ (f.mb - 1) else 2 ^ (f.eb + f.mb) - 1

/-- Bits of the largest finite value of a format. -/
def FpFmt.maxFin (f : FpFmt) : Nat :=
  if f.inf then (2 ^ f.eb - 1) * 2 ^ f.mb - 1 else 2 ^ (f.eb + f.mb) - 2

/-- The rounding of a magnitude: nearest even, or by adding a random field below the last place kept (R159). -/
inductive Rnd where
  | rne
  /-- The random value and its width in bits. -/
  | sr (r w : Nat)
  deriving DecidableEq, Repr

/-- m * 2^e as an integer multiple of 2^q, rounded. -/
def roundTo (rd : Rnd) (m : Nat) (e q : Int) : Nat :=
  if e ≥ q then m * 2 ^ (e - q).toNat
  else
    let k := (q - e).toNat
    match rd with
    | .rne =>
      let r := m % 2 ^ k
      let h := m / 2 ^ k
      if 2 * r > 2 ^ k || (2 * r = 2 ^ k && h % 2 = 1) then h + 1 else h
    | .sr r w =>
      -- The random field lies directly below the last place kept.
      (if k ≥ w then m + r * 2 ^ (k - w) else m + r / 2 ^ (w - k)) / 2 ^ k

/-- Number of bits of a magnitude. -/
def bitLen (m : Nat) : Nat := if m = 0 then 0 else Nat.log2 m + 1

/-- Round an exact value to a format; on overflow `sat` gives the largest finite value, else infinity, or NaN where the
format has none (R158). The second component tells that the value saturated. -/
def FpFmt.encodeWith (f : FpFmt) (rd : Rnd) (sat : Bool) (neg : Bool) (m : Nat) (e : Int) : Nat × Bool :=
  let s := if neg then 2 ^ (f.eb + f.mb) else 0
  if m = 0 then (s, false)
  else
    let qmin := 1 - f.bias - f.mb
    let q := max qmin (e + bitLen m - 1 - f.mb)
    let r := roundTo rd m e q
    let (r, q) := if r ≥ 2 ^ (f.mb + 1) then (r / 2, q + 1) else (r, q)
    if r < 2 ^ f.mb then (s + r, false)
    else
      let ex := q + f.bias + f.mb
      let body := (ex.toNat) * 2 ^ f.mb + (r - 2 ^ f.mb)
      if body > f.maxFin then
        (if sat then (s + f.maxFin, true)
         else if f.inf then (s + (2 ^ f.eb - 1) * 2 ^ f.mb, false) else (f.canonNan, false))
      else (s + body, false)

/-- Encode a value under rounding to nearest even, with infinities kept. -/
def FpFmt.encode (f : FpFmt) : Fp → Nat
  | .nan => f.canonNan
  | .inf neg => (if neg then 2 ^ (f.eb + f.mb) else 0)
      + (if f.inf then (2 ^ f.eb - 1) * 2 ^ f.mb else f.canonNan)
  | .fin neg m e => (f.encodeWith .rne false neg m e).1

/-- The signed integer multiple of 2^q that a finite value is, for q at or below its exponent. -/
def scaled (neg : Bool) (m : Nat) (e q : Int) : Int :=
  let v : Int := m * 2 ^ (e - q).toNat
  if neg then -v else v

/-- An exact value from a signed multiple of 2^q; a zero sum of unlike signs is +0. -/
def Fp.ofScaled (zeroNeg : Bool) (v q : Int) : Fp :=
  if v = 0 then .fin zeroNeg 0 q else .fin (decide (v < 0)) v.natAbs q

/-- Exact sum, with the specials of IEEE 754. -/
def Fp.add : Fp → Fp → Fp
  | .nan, _ => .nan
  | _, .nan => .nan
  | .inf a, .inf b => if a = b then .inf a else .nan
  | .inf a, _ => .inf a
  | _, .inf b => .inf b
  | .fin a m e, .fin b n g =>
    let q := min e g
    Fp.ofScaled (a && b && m == 0 && n == 0) (scaled a m e q + scaled b n g q) q

/-- Negation. -/
def Fp.neg : Fp → Fp
  | .nan => .nan
  | .inf a => .inf (!a)
  | .fin a m e => .fin (!a) m e

/-- Exact product. -/
def Fp.mul : Fp → Fp → Fp
  | .nan, _ => .nan
  | _, .nan => .nan
  | .inf a, .inf b => .inf (xor a b)
  | .inf a, .fin b n _ => if n = 0 then .nan else .inf (xor a b)
  | .fin a m _, .inf b => if m = 0 then .nan else .inf (xor a b)
  | .fin a m e, .fin b n g => .fin (xor a b) (m * n) (e + g)

/-- `a < b`; false with a NaN. -/
def Fp.lt : Fp → Fp → Bool
  | .nan, _ => false
  | _, .nan => false
  | .inf a, .inf b => a && !b
  | .inf a, .fin _ _ _ => a
  | .fin _ _ _, .inf b => !b
  | .fin a m e, .fin b n g => let q := min e g
    decide (scaled a m e q < scaled b n g q)

/-- Equal values; false with a NaN. -/
def Fp.eqv : Fp → Fp → Bool
  | .nan, _ => false
  | _, .nan => false
  | a, b => !Fp.lt a b && !Fp.lt b a

/-- A NaN. -/
def Fp.isNan : Fp → Bool
  | .nan => true
  | _ => false

/-- An integer as a value. -/
def Fp.ofInt (z : Int) : Fp := .fin (decide (z < 0)) z.natAbs 0

/-- Rounding to an integer under RNE, saturating to `lo` and `hi`; NaN gives 0. -/
def Fp.toIntSat (lo hi : Int) : Fp → Int
  | .nan => 0
  | .inf neg => if neg then lo else hi
  | .fin neg m e =>
    let r : Int := roundTo .rne m e 0
    clampInt (if neg then -r else r) lo hi

/-- FP32 values by their bits. -/
def f32 (n : Nat) : Fp := FpFmt.fp32.decode n

/-- FP32 bits of a value, one rounding to nearest even. -/
def f32Bits (x : Fp) : Nat := FpFmt.fp32.encode x

/-- `a ≥ b` of two FP32 bit patterns. -/
def f32Ge (a b : Nat) : Bool := Fp.lt (f32 b) (f32 a) || Fp.eqv (f32 a) (f32 b)

end Sys2Proof.Machine
end

