-- ==== Sys2Proof/Machine/Spectrum.lean ====
section
/-! DEFINITION. Machine/Spectrum.lean: band energies of an acoustic frame (spec/13_adaptation.md, R300), in fixed point of 64
bits after the point, and the FP32 values that the rule's bounds admit. -/

namespace Sys2Proof.Machine

/-- One in fixed point. -/
def fixOne : Nat := 18446744073709551616

/-- Pi in fixed point. -/
def fixPi : Nat := 57952155664616982739

/-- The terms of a cosine from the k-th on, given that term and the square of the angle. -/
def cosTerms (x2 : Nat) : Nat → Nat → Nat → Int
  | 0, _, _ => 0
  | f + 1, k, t => (if k % 2 = 0 then (t : Int) else -(t : Int)) + cosTerms x2 f (k + 1) (t * x2 / fixOne / ((2 * k + 1) * (2 * k + 2)))

/-- cos(2 pi m / n) for an angle of at most a quarter turn. -/
def cosQuarter (m n : Nat) : Int :=
  let x := 2 * fixPi * m / n
  cosTerms (x * x / fixOne) 16 0 fixOne

/-- cos(2 pi m / n), n a multiple of 4. -/
def cosFix (m n : Nat) : Int :=
  let q := n / 4
  let r := m % n % q
  match m % n / q with
  | 0 => cosQuarter r n
  | 1 => -cosQuarter (q - r) n
  | 2 => -cosQuarter r n
  | _ => cosQuarter (q - r) n

/-- sin(2 pi m / n). -/
def sinFix (m n : Nat) : Int := cosFix (m + 3 * n / 4) n

/-- The window w of R300. -/
def windowFix (i n : Nat) : Int := ((fixOne : Int) - cosFix i n) / 2

/-- The windowed samples of a frame, with 87 bits after the point. -/
def windowed (n : Nat) (xs : List Int) : List Int := (List.range n).map (fun i => nth xs i 0 * windowFix i n)

/-- |X[k]|^2 of the windowed samples, with 302 bits after the point. -/
def binPower (n : Nat) (ys : List Int) (k : Nat) : Nat :=
  let sum (f : Nat → Int) : Int := ((List.range n).map (fun i => nth ys i 0 * f (k * i % n))).sum
  (sum (fun m => cosFix m n)).natAbs ^ 2 + (sum (fun m => sinFix m n)).natAbs ^ 2

/-- The energy of bins k0 to k1 of a frame of n samples as a fraction (R300). -/
def bandExact (n : Nat) (xs : List Int) (k0 k1 : Nat) : Nat × Nat :=
  let ys := windowed n xs
  let bins := (List.range (k1 + 1)).drop k0
  let num := (bins.map (fun k => (if k = 0 || 2 * k = n then 1 else 2) * binPower n ys k)).sum
  (num, n * ((List.range n).map (fun i => (windowFix i n).natAbs ^ 2)).sum * 2 ^ 174)

/-- An FP32 value lies within 10^-4 of a fraction, relative, or 10^-12, absolute, whichever is larger (R300). -/
def bandNear (v : Nat) (num den : Nat) : Bool :=
  match f32 v with
  | .fin neg m e =>
    let x : Int := scaled neg m e (-149) * den
    decide ((x - num * 2 ^ 149).natAbs * 10 ^ 12 ≤ Nat.max (10 ^ 8 * num) den * 2 ^ 149)
  | _ => false

/-- The energy that an engine reports (R300): the rule bounds its distance from the exact value and fixes no bit pattern, so it
is a free value within the bounds (log entry 36). -/
def bandEnergy (n : Nat) (xs : List Int) (k0 k1 : Nat) : BitVec 32 :=
  let v := Config.bandEnergy n xs k0 k1
  let (num, den) := bandExact n xs k0 k1
  if bandNear v.toNat num den then v else BitVec.ofNat 32 (f32Bits (.fin false (num * 2 ^ 149 / den) (-149)))

end Sys2Proof.Machine
end

