-- ==== Sys2Proof/Machine/RegMap.lean ====
section
/-! DEFINITION. Machine/RegMap.lean: the register map of BAR0 (R4-R10, R18-R20 and the register tables of every
chapter of spec/), one row per register template, written from those tables. A row gives the register's offset, the
strides of its numbered copies and its fields; a field gives its bits, its access and commit class, its reset value
and the range its table states. Fields whose reset value the tables give as "per module" or "per package" have reset
0 here; State.reset gives them the values of the module's identity (State.lean, log entry 3). -/

namespace Sys2Proof.Machine

/-- Access type and commit class of a field (R7, R375-R377): RW class S, RW class I, RO, W1C, WO, RW class P. -/
inductive Access where
  | staged | immediate | readOnly | oneClears | writeOnly | paired
deriving DecidableEq, Repr

/-- The range or encoding a register table states for a field (judged by rule 1, FIELD_RANGE, of R386). -/
inductive Limit where
  | any
  | within (lo hi : Nat)
  | lowZero (bits : Nat)
deriving DecidableEq, Repr

/-- A reset value: `base + step * (copy / group)`, the copy being the first index of the register. -/
structure ResetVal where
  base : Nat
  step : Nat
  group : Nat
deriving DecidableEq, Repr

/-- One field of a register template. -/
structure FieldRow where
  hi : Nat
  lo : Nat
  access : Access
  reset : ResetVal
  limit : Limit
deriving DecidableEq, Repr

/-- One register template: copies `off + i * stride1 + j * stride2`. -/
structure RegRow where
  off : Nat
  count1 : Nat
  stride1 : Nat
  count2 : Nat
  stride2 : Nat
  fields : List FieldRow
deriving DecidableEq, Repr

/-- Registers of the GLB block (spec/01). -/
def RegMap.rowsGlb : List RegRow := [
  ⟨0x0, 1, 4, 1, 4, [⟨31, 16, .readOnly, ⟨29024, 0, 1⟩, .any⟩, ⟨15, 0, .readOnly, ⟨7996, 0, 1⟩, .any⟩]⟩,
  ⟨0x4, 1, 4, 1, 4, [⟨8, 8, .readOnly, ⟨0, 0, 1⟩, .any⟩, ⟨7, 0, .readOnly, ⟨0, 0, 1⟩, .any⟩]⟩,
  ⟨0x8, 1, 4, 1, 4, [⟨31, 0, .readOnly, ⟨0, 0, 1⟩, .any⟩]⟩,
  ⟨0xC, 1, 4, 1, 4, [⟨31, 0, .readOnly, ⟨0, 0, 1⟩, .any⟩]⟩,
  ⟨0x10, 1, 4, 1, 4, [⟨2, 2, .readOnly, ⟨1, 0, 1⟩, .any⟩, ⟨1, 1, .readOnly, ⟨0, 0, 1⟩, .any⟩, ⟨0, 0, .readOnly, ⟨0, 0, 1⟩, .any⟩]⟩,
  ⟨0x14, 1, 4, 1, 4, [⟨31, 16, .readOnly, ⟨0, 0, 1⟩, .any⟩, ⟨15, 0, .readOnly, ⟨0, 0, 1⟩, .any⟩]⟩,
  ⟨0x18, 1, 4, 1, 4, [⟨31, 31, .writeOnly, ⟨0, 0, 1⟩, .any⟩, ⟨15, 0, .readOnly, ⟨0, 0, 1⟩, .any⟩]⟩,
  ⟨0x1C, 1, 4, 1, 4, [⟨21, 0, .readOnly, ⟨0, 0, 1⟩, .any⟩]⟩,
  ⟨0x20, 1, 4, 1, 4, [⟨31, 0, .immediate, ⟨0, 0, 1⟩, .any⟩]⟩]

/-- Registers of the CLK block (spec/21). -/
def RegMap.rowsClk : List RegRow := [
  ⟨0x10000, 1, 4, 1, 4, [⟨15, 8, .staged, ⟨2, 0, 1⟩, (.within 1 255)⟩, ⟨1, 1, .staged, ⟨0, 0, 1⟩, .any⟩, ⟨0, 0, .staged, ⟨1, 0, 1⟩, .any⟩]⟩,
  ⟨0x10004, 1, 4, 1, 4, [⟨31, 31, .writeOnly, ⟨0, 0, 1⟩, .any⟩, ⟨3, 3, .writeOnly, ⟨0, 0, 1⟩, .any⟩, ⟨2, 0, .writeOnly, ⟨0, 0, 1⟩, .any⟩]⟩,
  ⟨0x10008, 1, 4, 1, 4, [⟨19, 12, .readOnly, ⟨0, 0, 1⟩, .any⟩, ⟨11, 11, .readOnly, ⟨0, 0, 1⟩, .any⟩, ⟨10, 8, .readOnly, ⟨0, 0, 1⟩, .any⟩, ⟨7, 7, .readOnly, ⟨0, 0, 1⟩, .any⟩, ⟨4, 4, .readOnly, ⟨0, 0, 1⟩, .any⟩, ⟨3, 3, .oneClears, ⟨0, 0, 1⟩, .any⟩, ⟨2, 2, .oneClears, ⟨0, 0, 1⟩, .any⟩, ⟨1, 1, .readOnly, ⟨0, 0, 1⟩, .any⟩, ⟨0, 0, .readOnly, ⟨0, 0, 1⟩, .any⟩]⟩,
  ⟨0x1000C, 1, 4, 1, 4, [⟨11, 0, .readOnly, ⟨0, 0, 1⟩, .any⟩]⟩,
  ⟨0x10010, 1, 4, 1, 4, [⟨31, 0, .readOnly, ⟨0, 0, 1⟩, .any⟩]⟩,
  ⟨0x10014, 1, 4, 1, 4, [⟨31, 0, .readOnly, ⟨0, 0, 1⟩, .any⟩]⟩,
  ⟨0x10018, 1, 4, 1, 4, [⟨31, 0, .readOnly, ⟨0, 0, 1⟩, .any⟩]⟩,
  ⟨0x1001C, 1, 4, 1, 4, [⟨31, 0, .readOnly, ⟨0, 0, 1⟩, .any⟩]⟩,
  ⟨0x10020, 1, 4, 1, 4, [⟨0, 0, .writeOnly, ⟨0, 0, 1⟩, .any⟩]⟩,
  ⟨0x10040, 4, 4, 1, 4, [⟨11, 0, .readOnly, ⟨1600, 0, 1⟩, .any⟩]⟩]

/-- Registers of the PWR block (spec/21). -/
def RegMap.rowsPwr : List RegRow := [
  ⟨0x20000, 1, 4, 1, 4, [⟨8, 0, .immediate, ⟨380, 0, 1⟩, .any⟩]⟩,
  ⟨0x20004, 1, 4, 1, 4, [⟨1, 1, .staged, ⟨1, 0, 1⟩, .any⟩, ⟨0, 0, .staged, ⟨1, 0, 1⟩, .any⟩]⟩,
  ⟨0x20010, 4, 4, 1, 4, [⟨17, 17, .staged, ⟨0, 0, 1⟩, .any⟩, ⟨16, 16, .staged, ⟨0, 0, 1⟩, .any⟩, ⟨12, 8, .staged, ⟨16, 0, 1⟩, (.within 8 18)⟩, ⟨4, 0, .staged, ⟨8, 0, 1⟩, (.within 8 18)⟩]⟩,
  ⟨0x20040, 1, 4, 1, 4, [⟨15, 8, .readOnly, ⟨0, 0, 1⟩, .any⟩, ⟨5, 5, .readOnly, ⟨0, 0, 1⟩, .any⟩, ⟨4, 4, .oneClears, ⟨0, 0, 1⟩, .any⟩, ⟨3, 3, .oneClears, ⟨0, 0, 1⟩, .any⟩, ⟨2, 2, .oneClears, ⟨0, 0, 1⟩, .any⟩, ⟨1, 1, .readOnly, ⟨0, 0, 1⟩, .any⟩, ⟨0, 0, .oneClears, ⟨0, 0, 1⟩, .any⟩]⟩,
  ⟨0x20044, 1, 4, 1, 4, [⟨31, 0, .readOnly, ⟨0, 0, 1⟩, .any⟩]⟩,
  ⟨0x20048, 1, 4, 1, 4, [⟨31, 0, .readOnly, ⟨0, 0, 1⟩, .any⟩]⟩,
  ⟨0x2004C, 1, 4, 1, 4, [⟨31, 0, .readOnly, ⟨0, 0, 1⟩, .any⟩]⟩,
  ⟨0x20050, 1, 4, 1, 4, [⟨31, 0, .readOnly, ⟨0, 0, 1⟩, .any⟩]⟩,
  ⟨0x20080, 11, 4, 1, 4, [⟨15, 8, .readOnly, ⟨0, 0, 1⟩, .any⟩, ⟨7, 0, .readOnly, ⟨0, 0, 1⟩, .any⟩]⟩]

/-- Registers of the BOOT block (spec/23). -/
def RegMap.rowsBoot : List RegRow := [
  ⟨0x30000, 1, 4, 1, 4, [⟨11, 8, .readOnly, ⟨0, 0, 1⟩, .any⟩, ⟨3, 3, .readOnly, ⟨0, 0, 1⟩, .any⟩, ⟨2, 2, .readOnly, ⟨0, 0, 1⟩, .any⟩, ⟨1, 1, .readOnly, ⟨0, 0, 1⟩, .any⟩, ⟨0, 0, .readOnly, ⟨0, 0, 1⟩, .any⟩]⟩,
  ⟨0x30004, 1, 4, 1, 4, [⟨22, 16, .readOnly, ⟨0, 0, 1⟩, .any⟩, ⟨15, 8, .readOnly, ⟨0, 0, 1⟩, .any⟩, ⟨5, 4, .readOnly, ⟨0, 0, 1⟩, .any⟩, ⟨3, 0, .readOnly, ⟨0, 0, 1⟩, .any⟩]⟩,
  ⟨0x30008, 1, 4, 1, 4, [⟨31, 0, .readOnly, ⟨0, 0, 1⟩, .any⟩]⟩,
  ⟨0x30010, 8, 4, 1, 4, [⟨31, 0, .readOnly, ⟨0, 0, 1⟩, .any⟩]⟩,
  ⟨0x30040, 1, 4, 1, 4, [⟨31, 0, .immediate, ⟨0, 0, 1⟩, .any⟩]⟩,
  ⟨0x30044, 1, 4, 1, 4, [⟨31, 0, .immediate, ⟨0, 0, 1⟩, .any⟩]⟩,
  ⟨0x30048, 1, 4, 1, 4, [⟨21, 0, .immediate, ⟨0, 0, 1⟩, .any⟩]⟩,
  ⟨0x3004C, 1, 4, 1, 4, [⟨0, 0, .writeOnly, ⟨0, 0, 1⟩, .any⟩]⟩,
  ⟨0x30050, 1, 4, 1, 4, [⟨5, 5, .readOnly, ⟨0, 0, 1⟩, .any⟩, ⟨4, 4, .oneClears, ⟨0, 0, 1⟩, .any⟩, ⟨3, 0, .readOnly, ⟨0, 0, 1⟩, .any⟩]⟩,
  ⟨0x30060, 1, 4, 1, 4, [⟨31, 24, .writeOnly, ⟨0, 0, 1⟩, .any⟩, ⟨0, 0, .writeOnly, ⟨0, 0, 1⟩, .any⟩]⟩,
  ⟨0x30070, 1, 4, 1, 4, [⟨13, 2, .immediate, ⟨0, 0, 1⟩, .any⟩, ⟨1, 0, .immediate, ⟨0, 0, 1⟩, .any⟩]⟩,
  ⟨0x30074, 1, 4, 1, 4, [⟨14, 0, .readOnly, ⟨0, 0, 1⟩, .any⟩]⟩,
  ⟨0x30078, 1, 4, 1, 4, [⟨31, 0, .readOnly, ⟨0, 0, 1⟩, .any⟩]⟩]

/-- Registers of the POS block (spec/02). -/
def RegMap.rowsPos : List RegRow := [
  ⟨0x40000, 1, 4, 1, 4, [⟨4, 4, .staged, ⟨0, 0, 1⟩, .any⟩, ⟨3, 2, .staged, ⟨0, 0, 1⟩, .any⟩, ⟨1, 0, .staged, ⟨0, 0, 1⟩, .any⟩]⟩,
  ⟨0x40004, 1, 4, 1, 4, [⟨9, 9, .readOnly, ⟨0, 0, 1⟩, .any⟩, ⟨8, 8, .readOnly, ⟨0, 0, 1⟩, .any⟩, ⟨7, 7, .oneClears, ⟨0, 0, 1⟩, .any⟩, ⟨6, 5, .readOnly, ⟨0, 0, 1⟩, .any⟩, ⟨4, 4, .readOnly, ⟨0, 0, 1⟩, .any⟩, ⟨3, 3, .readOnly, ⟨1, 0, 1⟩, .any⟩, ⟨2, 2, .readOnly, ⟨0, 0, 1⟩, .any⟩, ⟨1, 1, .readOnly, ⟨0, 0, 1⟩, .any⟩, ⟨0, 0, .readOnly, ⟨0, 0, 1⟩, .any⟩]⟩,
  ⟨0x40008, 1, 4, 1, 4, [⟨31, 16, .staged, ⟨500, 0, 1⟩, .any⟩, ⟨15, 0, .staged, ⟨2000, 0, 1⟩, (.within 100 50000)⟩]⟩,
  ⟨0x4000C, 1, 4, 1, 4, [⟨23, 0, .staged, ⟨100000, 0, 1⟩, .any⟩]⟩,
  ⟨0x40010, 1, 4, 1, 4, [⟨23, 0, .staged, ⟨10000, 0, 1⟩, .any⟩]⟩,
  ⟨0x40014, 1, 4, 1, 4, [⟨27, 20, .staged, ⟨100, 0, 1⟩, (.within 1 255)⟩, ⟨19, 10, .staged, ⟨16, 0, 1⟩, (.within 1 1023)⟩, ⟨9, 0, .staged, ⟨100, 0, 1⟩, (.within 1 1023)⟩]⟩,
  ⟨0x40018, 1, 4, 1, 4, [⟨23, 0, .staged, ⟨10000, 0, 1⟩, .any⟩]⟩,
  ⟨0x4001C, 1, 4, 1, 4, [⟨13, 8, .staged, ⟨0, 0, 1⟩, .any⟩, ⟨7, 0, .staged, ⟨1, 0, 1⟩, (.within 1 255)⟩]⟩,
  ⟨0x40020, 1, 4, 1, 4, [⟨23, 0, .staged, ⟨100, 0, 1⟩, .any⟩]⟩,
  ⟨0x40024, 1, 4, 1, 4, [⟨0, 0, .writeOnly, ⟨0, 0, 1⟩, .any⟩]⟩,
  ⟨0x40028, 1, 4, 1, 4, [⟨31, 0, .readOnly, ⟨0, 0, 1⟩, .any⟩]⟩,
  ⟨0x4002C, 1, 4, 1, 4, [⟨31, 0, .readOnly, ⟨0, 0, 1⟩, .any⟩]⟩,
  ⟨0x40030, 1, 4, 1, 4, [⟨31, 0, .readOnly, ⟨0, 0, 1⟩, .any⟩]⟩,
  ⟨0x40034, 1, 4, 1, 4, [⟨31, 0, .readOnly, ⟨0, 0, 1⟩, .any⟩]⟩,
  ⟨0x40038, 1, 4, 1, 4, [⟨31, 0, .readOnly, ⟨0, 0, 1⟩, .any⟩]⟩,
  ⟨0x4003C, 1, 4, 1, 4, [⟨31, 0, .readOnly, ⟨0, 0, 1⟩, .any⟩]⟩,
  ⟨0x40040, 1, 4, 1, 4, [⟨31, 0, .readOnly, ⟨0, 0, 1⟩, .any⟩]⟩,
  ⟨0x40100, 4, 64, 1, 4, [⟨12, 12, .staged, ⟨0, 0, 1⟩, .any⟩, ⟨11, 10, .staged, ⟨0, 0, 1⟩, .any⟩, ⟨9, 9, .staged, ⟨0, 0, 1⟩, .any⟩, ⟨8, 8, .staged, ⟨0, 0, 1⟩, .any⟩, ⟨7, 7, .staged, ⟨0, 0, 1⟩, .any⟩, ⟨6, 1, .staged, ⟨24, 0, 1⟩, .any⟩, ⟨0, 0, .staged, ⟨0, 0, 1⟩, .any⟩]⟩,
  ⟨0x40104, 4, 64, 1, 4, [⟨21, 10, .staged, ⟨200, 0, 1⟩, .any⟩, ⟨9, 0, .staged, ⟨100, 0, 1⟩, .any⟩]⟩,
  ⟨0x40108, 4, 64, 1, 4, [⟨19, 0, .staged, ⟨10000, 0, 1⟩, .any⟩]⟩,
  ⟨0x4010C, 4, 64, 1, 4, [⟨15, 0, .staged, ⟨0, 0, 1⟩, .any⟩]⟩,
  ⟨0x40110, 4, 64, 1, 4, [⟨31, 0, .staged, ⟨1, 0, 1⟩, .any⟩]⟩,
  ⟨0x40114, 4, 64, 1, 4, [⟨31, 0, .staged, ⟨0, 0, 1⟩, .any⟩]⟩,
  ⟨0x40118, 4, 64, 1, 4, [⟨23, 0, .staged, ⟨50000, 0, 1⟩, .any⟩]⟩,
  ⟨0x4011C, 4, 64, 1, 4, [⟨31, 0, .readOnly, ⟨0, 0, 1⟩, .any⟩]⟩,
  ⟨0x40120, 4, 64, 1, 4, [⟨18, 16, .readOnly, ⟨0, 0, 1⟩, .any⟩, ⟨15, 0, .readOnly, ⟨0, 0, 1⟩, .any⟩]⟩,
  ⟨0x40124, 4, 64, 1, 4, [⟨31, 31, .writeOnly, ⟨0, 0, 1⟩, .any⟩, ⟨29, 24, .readOnly, ⟨0, 0, 1⟩, .any⟩, ⟨23, 18, .readOnly, ⟨0, 0, 1⟩, .any⟩, ⟨17, 12, .readOnly, ⟨0, 0, 1⟩, .any⟩, ⟨11, 6, .readOnly, ⟨0, 0, 1⟩, .any⟩, ⟨5, 0, .readOnly, ⟨0, 0, 1⟩, .any⟩]⟩]

/-- Registers of the PSQ block (spec/03). -/
def RegMap.rowsPsq : List RegRow := [
  ⟨0x50000, 1, 4, 1, 4, [⟨1, 1, .staged, ⟨0, 0, 1⟩, .any⟩, ⟨0, 0, .staged, ⟨0, 0, 1⟩, .any⟩]⟩,
  ⟨0x50004, 1, 4, 1, 4, [⟨5, 5, .oneClears, ⟨0, 0, 1⟩, .any⟩, ⟨4, 4, .oneClears, ⟨0, 0, 1⟩, .any⟩, ⟨3, 3, .oneClears, ⟨0, 0, 1⟩, .any⟩, ⟨2, 2, .oneClears, ⟨0, 0, 1⟩, .any⟩, ⟨1, 1, .readOnly, ⟨0, 0, 1⟩, .any⟩, ⟨0, 0, .readOnly, ⟨0, 0, 1⟩, .any⟩]⟩,
  ⟨0x50008, 1, 4, 1, 4, [⟨31, 0, .staged, ⟨25000000, 0, 1⟩, (.within 1000 25000000)⟩]⟩,
  ⟨0x5000C, 1, 4, 1, 4, [⟨15, 0, .staged, ⟨20, 0, 1⟩, (.within 1 65535)⟩]⟩,
  ⟨0x50010, 1, 4, 1, 4, [⟨31, 0, .readOnly, ⟨0, 0, 1⟩, .any⟩]⟩,
  ⟨0x50014, 1, 4, 1, 4, [⟨31, 0, .readOnly, ⟨0, 0, 1⟩, .any⟩]⟩,
  ⟨0x50018, 1, 4, 1, 4, [⟨31, 0, .readOnly, ⟨0, 0, 1⟩, .any⟩]⟩,
  ⟨0x5001C, 1, 4, 1, 4, [⟨31, 0, .readOnly, ⟨0, 0, 1⟩, .any⟩]⟩,
  ⟨0x50020, 1, 4, 1, 4, [⟨31, 0, .readOnly, ⟨0, 0, 1⟩, .any⟩]⟩,
  ⟨0x50024, 1, 4, 1, 4, [⟨31, 0, .readOnly, ⟨0, 0, 1⟩, .any⟩]⟩,
  ⟨0x50028, 1, 4, 1, 4, [⟨31, 0, .readOnly, ⟨0, 0, 1⟩, .any⟩]⟩,
  ⟨0x5002C, 1, 4, 1, 4, [⟨0, 0, .writeOnly, ⟨0, 0, 1⟩, .any⟩]⟩,
  ⟨0x50100, 56, 4, 1, 4, [⟨28, 16, .staged, ⟨0, 0, 1⟩, (.within 0 4096)⟩, ⟨15, 0, .staged, ⟨0, 0, 1⟩, .any⟩]⟩,
  ⟨0x501E0, 8, 4, 1, 4, [⟨28, 16, .readOnly, ⟨1024, 0, 1⟩, .any⟩, ⟨15, 0, .readOnly, ⟨57344, 1024, 1⟩, .any⟩]⟩,
  ⟨0x50400, 64, 32, 1, 4, [⟨7, 4, .staged, ⟨0, 0, 1⟩, .any⟩, ⟨2, 1, .staged, ⟨0, 0, 1⟩, .any⟩, ⟨0, 0, .staged, ⟨0, 0, 1⟩, .any⟩]⟩,
  ⟨0x50404, 64, 32, 1, 4, [⟨29, 26, .staged, ⟨0, 0, 1⟩, .any⟩, ⟨25, 13, .staged, ⟨0, 0, 1⟩, .any⟩, ⟨12, 0, .staged, ⟨0, 0, 1⟩, .any⟩]⟩,
  ⟨0x50408, 64, 32, 1, 4, [⟨31, 0, .staged, ⟨0, 0, 1⟩, .any⟩]⟩,
  ⟨0x5040C, 64, 32, 1, 4, [⟨31, 0, .staged, ⟨0, 0, 1⟩, .any⟩]⟩,
  ⟨0x50410, 64, 32, 1, 4, [⟨31, 0, .staged, ⟨0, 0, 1⟩, .any⟩]⟩,
  ⟨0x50C00, 16, 16, 1, 4, [⟨31, 16, .staged, ⟨0, 0, 1⟩, .any⟩, ⟨0, 0, .staged, ⟨0, 0, 1⟩, .any⟩]⟩,
  ⟨0x50C04, 16, 16, 1, 4, [⟨19, 0, .paired, ⟨4000, 0, 1⟩, (.within 1 1000000)⟩]⟩,
  ⟨0x50C08, 16, 16, 1, 4, [⟨19, 0, .paired, ⟨1000, 0, 1⟩, (.within 0 1000000)⟩]⟩,
  ⟨0x51000, 1, 4, 1, 4, [⟨15, 0, .immediate, ⟨0, 0, 1⟩, .any⟩]⟩,
  ⟨0x51004, 8, 4, 1, 4, [⟨31, 0, .readOnly, ⟨0, 0, 1⟩, .any⟩]⟩]

/-- Registers of the LANE block (spec/04). -/
def RegMap.rowsLane : List RegRow := [
  ⟨0x80000, 64, 64, 1, 4, [⟨21, 18, .staged, ⟨4, 0, 1⟩, (.within 1 15)⟩, ⟨17, 15, .staged, ⟨3, 0, 1⟩, (.within 1 7)⟩, ⟨14, 14, .staged, ⟨0, 0, 1⟩, .any⟩, ⟨13, 12, .staged, ⟨0, 0, 1⟩, .any⟩, ⟨11, 10, .staged, ⟨0, 0, 1⟩, .any⟩, ⟨9, 9, .staged, ⟨0, 0, 1⟩, .any⟩, ⟨8, 8, .staged, ⟨0, 0, 1⟩, .any⟩, ⟨4, 1, .staged, ⟨0, 0, 1⟩, .any⟩, ⟨0, 0, .staged, ⟨0, 0, 1⟩, .any⟩]⟩,
  ⟨0x80004, 64, 64, 1, 4, [⟨11, 8, .readOnly, ⟨0, 0, 1⟩, .any⟩, ⟨7, 7, .readOnly, ⟨0, 0, 1⟩, .any⟩, ⟨6, 6, .oneClears, ⟨0, 0, 1⟩, .any⟩, ⟨5, 5, .readOnly, ⟨0, 0, 1⟩, .any⟩, ⟨4, 4, .readOnly, ⟨0, 0, 1⟩, .any⟩, ⟨2, 0, .readOnly, ⟨0, 0, 1⟩, .any⟩]⟩,
  ⟨0x80008, 64, 64, 1, 4, [⟨31, 16, .readOnly, ⟨0, 0, 1⟩, .any⟩, ⟨15, 0, .readOnly, ⟨0, 0, 1⟩, .any⟩]⟩,
  ⟨0x8000C, 64, 64, 1, 4, [⟨31, 31, .writeOnly, ⟨0, 0, 1⟩, .any⟩, ⟨23, 16, .readOnly, ⟨0, 0, 1⟩, .any⟩, ⟨15, 8, .readOnly, ⟨0, 0, 1⟩, .any⟩, ⟨7, 0, .readOnly, ⟨0, 0, 1⟩, .any⟩]⟩,
  ⟨0x80010, 64, 64, 1, 4, [⟨31, 0, .readOnly, ⟨0, 0, 1⟩, .any⟩]⟩,
  ⟨0x80014, 64, 64, 1, 4, [⟨15, 0, .readOnly, ⟨0, 0, 1⟩, .any⟩]⟩,
  ⟨0x80018, 64, 64, 1, 4, [⟨31, 0, .readOnly, ⟨0, 0, 1⟩, .any⟩]⟩,
  ⟨0x8001C, 64, 64, 1, 4, [⟨31, 31, .writeOnly, ⟨0, 0, 1⟩, .any⟩, ⟨30, 30, .writeOnly, ⟨0, 0, 1⟩, .any⟩, ⟨22, 18, .immediate, ⟨0, 0, 1⟩, .any⟩, ⟨17, 9, .immediate, ⟨0, 0, 1⟩, .any⟩, ⟨6, 0, .immediate, ⟨0, 0, 1⟩, .any⟩]⟩,
  ⟨0x80020, 64, 64, 1, 4, [⟨15, 8, .readOnly, ⟨0, 0, 1⟩, .any⟩, ⟨6, 6, .oneClears, ⟨0, 0, 1⟩, .any⟩, ⟨5, 5, .oneClears, ⟨0, 0, 1⟩, .any⟩, ⟨4, 4, .oneClears, ⟨0, 0, 1⟩, .any⟩, ⟨3, 3, .oneClears, ⟨0, 0, 1⟩, .any⟩, ⟨2, 2, .oneClears, ⟨0, 0, 1⟩, .any⟩, ⟨1, 1, .oneClears, ⟨0, 0, 1⟩, .any⟩, ⟨0, 0, .readOnly, ⟨0, 0, 1⟩, .any⟩]⟩,
  ⟨0x80024, 64, 64, 1, 4, [⟨31, 0, .readOnly, ⟨0, 0, 1⟩, .any⟩]⟩,
  ⟨0x80028, 64, 64, 1, 4, [⟨31, 0, .readOnly, ⟨0, 0, 1⟩, .any⟩]⟩]

/-- Registers of the CXP block (spec/05). -/
def RegMap.rowsCxp : List RegRow := [
  ⟨0x90800, 1, 4, 1, 4, [⟨23, 16, .staged, ⟨50, 0, 1⟩, (.within 1 255)⟩, ⟨15, 8, .staged, ⟨200, 0, 1⟩, (.within 1 255)⟩, ⟨7, 0, .staged, ⟨100, 0, 1⟩, (.within 1 255)⟩]⟩,
  ⟨0x90900, 32, 4, 1, 4, [⟨8, 8, .readOnly, ⟨0, 0, 1⟩, .any⟩, ⟨7, 4, .readOnly, ⟨0, 0, 1⟩, .any⟩, ⟨2, 0, .readOnly, ⟨0, 0, 1⟩, .any⟩]⟩,
  ⟨0x90000, 16, 128, 1, 4, [⟨14, 13, .staged, ⟨0, 0, 1⟩, .any⟩, ⟨12, 12, .staged, ⟨0, 0, 1⟩, .any⟩, ⟨11, 8, .staged, ⟨1, 0, 1⟩, .any⟩, ⟨7, 3, .staged, ⟨0, 0, 1⟩, .any⟩, ⟨2, 1, .staged, ⟨0, 0, 1⟩, .any⟩, ⟨0, 0, .staged, ⟨0, 0, 1⟩, .any⟩]⟩,
  ⟨0x90004, 16, 128, 1, 4, [⟨31, 24, .staged, ⟨4, 0, 1⟩, .any⟩, ⟨23, 14, .staged, ⟨256, 0, 1⟩, .any⟩, ⟨13, 0, .staged, ⟨8192, 0, 1⟩, .any⟩]⟩,
  ⟨0x90008, 16, 128, 1, 4, [⟨27, 16, .staged, ⟨0, 0, 1⟩, .any⟩, ⟨3, 2, .staged, ⟨0, 0, 1⟩, .any⟩, ⟨1, 0, .staged, ⟨0, 0, 1⟩, .any⟩]⟩,
  ⟨0x9000C, 16, 128, 1, 4, [⟨31, 0, .staged, ⟨0, 0, 1⟩, .any⟩]⟩,
  ⟨0x90010, 16, 128, 1, 4, [⟨16, 0, .staged, ⟨40000, 0, 1⟩, (.within 1000 100000)⟩]⟩,
  ⟨0x90014, 16, 128, 1, 4, [⟨16, 16, .oneClears, ⟨0, 0, 1⟩, .any⟩, ⟨15, 12, .readOnly, ⟨0, 0, 1⟩, .any⟩, ⟨11, 8, .readOnly, ⟨0, 0, 1⟩, .any⟩, ⟨7, 4, .readOnly, ⟨0, 0, 1⟩, .any⟩, ⟨3, 0, .readOnly, ⟨0, 0, 1⟩, .any⟩]⟩,
  ⟨0x90018, 16, 128, 1, 4, [⟨11, 0, .readOnly, ⟨2400, 0, 1⟩, .any⟩]⟩,
  ⟨0x90020, 16, 128, 1, 4, [⟨31, 0, .readOnly, ⟨0, 0, 1⟩, .any⟩]⟩,
  ⟨0x90024, 16, 128, 1, 4, [⟨31, 0, .readOnly, ⟨0, 0, 1⟩, .any⟩]⟩,
  ⟨0x90028, 16, 128, 1, 4, [⟨31, 0, .readOnly, ⟨0, 0, 1⟩, .any⟩]⟩,
  ⟨0x9002C, 16, 128, 1, 4, [⟨31, 0, .readOnly, ⟨0, 0, 1⟩, .any⟩]⟩,
  ⟨0x90030, 16, 128, 1, 4, [⟨31, 0, .readOnly, ⟨0, 0, 1⟩, .any⟩]⟩,
  ⟨0x90034, 16, 128, 1, 4, [⟨31, 0, .readOnly, ⟨0, 0, 1⟩, .any⟩]⟩,
  ⟨0x90038, 16, 128, 1, 4, [⟨31, 0, .readOnly, ⟨0, 0, 1⟩, .any⟩]⟩,
  ⟨0x9003C, 16, 128, 1, 4, [⟨31, 0, .readOnly, ⟨0, 0, 1⟩, .any⟩]⟩,
  ⟨0x90040, 16, 128, 1, 4, [⟨31, 0, .readOnly, ⟨0, 0, 1⟩, .any⟩]⟩,
  ⟨0x90044, 16, 128, 1, 4, [⟨31, 0, .readOnly, ⟨0, 0, 1⟩, .any⟩]⟩,
  ⟨0x90048, 16, 128, 1, 4, [⟨0, 0, .writeOnly, ⟨0, 0, 1⟩, .any⟩]⟩]

/-- Registers of the LPIPE block (spec/06). -/
def RegMap.rowsLpipe : List RegRow := [
  ⟨0xB0000, 1, 4, 1, 4, [⟨0, 0, .staged, ⟨0, 0, 1⟩, .any⟩]⟩,
  ⟨0xB0004, 1, 4, 1, 4, [⟨31, 0, .staged, ⟨0, 0, 1⟩, (.lowZero 16)⟩]⟩,
  ⟨0xB0008, 1, 4, 1, 4, [⟨31, 0, .staged, ⟨0, 0, 1⟩, .any⟩]⟩,
  ⟨0xB000C, 1, 4, 1, 4, [⟨13, 0, .staged, ⟨0, 0, 1⟩, (.within 0 8192)⟩]⟩,
  ⟨0xB0010, 1, 4, 1, 4, [⟨2, 2, .oneClears, ⟨0, 0, 1⟩, .any⟩, ⟨1, 1, .oneClears, ⟨0, 0, 1⟩, .any⟩, ⟨0, 0, .readOnly, ⟨0, 0, 1⟩, .any⟩]⟩,
  ⟨0xA0000, 16, 1024, 1, 4, [⟨1, 1, .staged, ⟨0, 0, 1⟩, .any⟩, ⟨0, 0, .staged, ⟨0, 0, 1⟩, .any⟩]⟩,
  ⟨0xA0004, 16, 1024, 1, 4, [⟨30, 28, .staged, ⟨5, 0, 1⟩, (.within 0 5)⟩, ⟨26, 24, .staged, ⟨5, 0, 1⟩, (.within 0 5)⟩, ⟨22, 20, .staged, ⟨5, 0, 1⟩, (.within 0 5)⟩, ⟨18, 16, .staged, ⟨5, 0, 1⟩, (.within 0 5)⟩, ⟨14, 12, .staged, ⟨5, 0, 1⟩, (.within 0 5)⟩, ⟨10, 8, .staged, ⟨5, 0, 1⟩, (.within 0 5)⟩, ⟨6, 4, .staged, ⟨5, 0, 1⟩, (.within 0 5)⟩, ⟨2, 0, .staged, ⟨5, 0, 1⟩, (.within 0 5)⟩]⟩,
  ⟨0xA0008, 16, 1024, 1, 4, [⟨15, 12, .staged, ⟨0, 0, 1⟩, .any⟩, ⟨11, 8, .staged, ⟨0, 0, 1⟩, .any⟩, ⟨7, 4, .staged, ⟨0, 0, 1⟩, .any⟩, ⟨3, 0, .staged, ⟨0, 0, 1⟩, .any⟩]⟩,
  ⟨0xA0010, 16, 1024, 6, 4, [⟨31, 16, .staged, ⟨0, 0, 1⟩, .any⟩, ⟨15, 0, .staged, ⟨0, 0, 1⟩, .any⟩]⟩,
  ⟨0xA0040, 16, 1024, 1, 4, [⟨31, 0, .readOnly, ⟨0, 0, 1⟩, .any⟩]⟩,
  ⟨0xA0044, 16, 1024, 1, 4, [⟨31, 0, .readOnly, ⟨0, 0, 1⟩, .any⟩]⟩,
  ⟨0xA0048, 16, 1024, 1, 4, [⟨31, 0, .readOnly, ⟨0, 0, 1⟩, .any⟩]⟩,
  ⟨0xA004C, 16, 1024, 1, 4, [⟨31, 0, .readOnly, ⟨0, 0, 1⟩, .any⟩]⟩,
  ⟨0xA0050, 16, 1024, 1, 4, [⟨31, 0, .readOnly, ⟨0, 0, 1⟩, .any⟩]⟩,
  ⟨0xA0054, 16, 1024, 1, 4, [⟨31, 0, .readOnly, ⟨0, 0, 1⟩, .any⟩]⟩,
  ⟨0xA0058, 16, 1024, 1, 4, [⟨31, 0, .readOnly, ⟨0, 0, 1⟩, .any⟩]⟩,
  ⟨0xA005C, 16, 1024, 1, 4, [⟨31, 0, .readOnly, ⟨0, 0, 1⟩, .any⟩]⟩,
  ⟨0xA0060, 16, 1024, 1, 4, [⟨31, 0, .readOnly, ⟨0, 0, 1⟩, .any⟩]⟩,
  ⟨0xA0064, 16, 1024, 1, 4, [⟨31, 0, .readOnly, ⟨0, 0, 1⟩, .any⟩]⟩,
  ⟨0xA0068, 16, 1024, 1, 4, [⟨0, 0, .writeOnly, ⟨0, 0, 1⟩, .any⟩]⟩,
  ⟨0xA0100, 16, 1024, 8, 32, [⟨15, 14, .staged, ⟨0, 0, 1⟩, .any⟩, ⟨13, 13, .staged, ⟨0, 0, 1⟩, .any⟩, ⟨12, 12, .staged, ⟨0, 0, 1⟩, .any⟩, ⟨11, 6, .staged, ⟨0, 0, 1⟩, .any⟩, ⟨5, 4, .staged, ⟨0, 0, 1⟩, .any⟩, ⟨2, 0, .staged, ⟨0, 0, 1⟩, (.within 0 4)⟩]⟩,
  ⟨0xA0104, 16, 1024, 8, 32, [⟨18, 13, .staged, ⟨0, 0, 1⟩, (.within 0 32)⟩, ⟨12, 0, .staged, ⟨256, 0, 1⟩, (.within 64 4096)⟩]⟩,
  ⟨0xA0108, 16, 1024, 8, 32, [⟨31, 0, .staged, ⟨0, 0, 1⟩, (.lowZero 16)⟩]⟩,
  ⟨0xA010C, 16, 1024, 8, 32, [⟨31, 0, .staged, ⟨0, 0, 1⟩, .any⟩]⟩,
  ⟨0xA0110, 16, 1024, 8, 32, [⟨21, 8, .staged, ⟨0, 0, 1⟩, .any⟩, ⟨7, 0, .staged, ⟨0, 0, 1⟩, .any⟩]⟩,
  ⟨0xA0114, 16, 1024, 8, 32, [⟨17, 17, .oneClears, ⟨0, 0, 1⟩, .any⟩, ⟨16, 16, .readOnly, ⟨0, 0, 1⟩, .any⟩, ⟨7, 0, .readOnly, ⟨0, 0, 1⟩, .any⟩]⟩,
  ⟨0xA8000, 1024, 32, 1, 4, [⟨20, 20, .staged, ⟨0, 0, 1⟩, .any⟩, ⟨19, 14, .staged, ⟨0, 0, 1⟩, .any⟩, ⟨13, 13, .staged, ⟨0, 0, 1⟩, .any⟩, ⟨12, 7, .staged, ⟨0, 0, 1⟩, .any⟩, ⟨6, 4, .staged, ⟨0, 0, 1⟩, .any⟩, ⟨3, 0, .staged, ⟨0, 0, 1⟩, .any⟩]⟩,
  ⟨0xA8004, 1024, 32, 1, 4, [⟨12, 0, .paired, ⟨0, 0, 1⟩, .any⟩]⟩,
  ⟨0xA8008, 1024, 32, 1, 4, [⟨13, 0, .paired, ⟨64, 0, 1⟩, (.within 1 8192)⟩]⟩,
  ⟨0xA800C, 1024, 32, 1, 4, [⟨23, 12, .staged, ⟨1024, 0, 1⟩, (.within 1 4095)⟩, ⟨11, 0, .staged, ⟨0, 0, 1⟩, .any⟩]⟩,
  ⟨0xA8010, 1024, 32, 1, 4, [⟨31, 16, .readOnly, ⟨0, 0, 1⟩, .any⟩, ⟨15, 0, .readOnly, ⟨0, 0, 1⟩, .any⟩]⟩,
  ⟨0xB1000, 256, 32, 1, 4, [⟨22, 20, .staged, ⟨0, 0, 1⟩, (.within 0 5)⟩, ⟨19, 17, .staged, ⟨0, 0, 1⟩, (.within 0 5)⟩, ⟨16, 14, .staged, ⟨0, 0, 1⟩, (.within 0 5)⟩, ⟨13, 8, .staged, ⟨0, 0, 1⟩, .any⟩, ⟨7, 7, .staged, ⟨0, 0, 1⟩, .any⟩, ⟨6, 6, .staged, ⟨0, 0, 1⟩, .any⟩, ⟨5, 0, .staged, ⟨0, 0, 1⟩, .any⟩]⟩,
  ⟨0xB1004, 256, 32, 1, 4, [⟨23, 13, .staged, ⟨1, 0, 1⟩, (.within 1 1024)⟩, ⟨12, 0, .staged, ⟨0, 0, 1⟩, .any⟩]⟩,
  ⟨0xB1008, 256, 32, 1, 4, [⟨22, 12, .staged, ⟨1, 0, 1⟩, (.within 1 1024)⟩, ⟨11, 0, .staged, ⟨0, 0, 1⟩, .any⟩]⟩,
  ⟨0xB100C, 256, 32, 1, 4, [⟨31, 16, .readOnly, ⟨0, 0, 1⟩, .any⟩, ⟨15, 0, .readOnly, ⟨0, 0, 1⟩, .any⟩]⟩,
  ⟨0xB3000, 64, 32, 1, 4, [⟨31, 16, .staged, ⟨0, 0, 1⟩, .any⟩, ⟨10, 8, .staged, ⟨0, 0, 1⟩, (.within 0 5)⟩, ⟨7, 7, .staged, ⟨0, 0, 1⟩, .any⟩, ⟨6, 6, .staged, ⟨0, 0, 1⟩, .any⟩, ⟨5, 0, .staged, ⟨0, 0, 1⟩, .any⟩]⟩,
  ⟨0xB3004, 64, 32, 1, 4, [⟨21, 13, .staged, ⟨1, 0, 1⟩, (.within 1 256)⟩, ⟨12, 0, .staged, ⟨0, 0, 1⟩, .any⟩]⟩,
  ⟨0xB3008, 64, 32, 1, 4, [⟨20, 12, .staged, ⟨1, 0, 1⟩, (.within 1 256)⟩, ⟨11, 0, .staged, ⟨0, 0, 1⟩, .any⟩]⟩,
  ⟨0xB300C, 64, 32, 1, 4, [⟨31, 16, .staged, ⟨0, 0, 1⟩, .any⟩, ⟨15, 0, .staged, ⟨0, 0, 1⟩, .any⟩]⟩,
  ⟨0xB3010, 64, 32, 1, 4, [⟨31, 0, .staged, ⟨1, 0, 1⟩, .any⟩]⟩] ++ [
  ⟨0xB3014, 64, 32, 1, 4, [⟨7, 0, .staged, ⟨16, 0, 1⟩, .any⟩]⟩]

/-- Registers of the CORE block (spec/07). -/
def RegMap.rowsCore : List RegRow := [
  ⟨0xC0000, 16, 4096, 1, 4, [⟨7, 7, .readOnly, ⟨0, 1, 8⟩, .any⟩, ⟨6, 5, .readOnly, ⟨0, 1, 4⟩, .any⟩, ⟨4, 4, .readOnly, ⟨0, 0, 1⟩, .any⟩, ⟨2, 2, .readOnly, ⟨0, 0, 1⟩, .any⟩, ⟨1, 1, .readOnly, ⟨0, 0, 1⟩, .any⟩, ⟨0, 0, .readOnly, ⟨0, 0, 1⟩, .any⟩]⟩,
  ⟨0xC0004, 16, 4096, 1, 4, [⟨31, 0, .readOnly, ⟨0, 0, 1⟩, .any⟩]⟩,
  ⟨0xC0010, 16, 4096, 1, 4, [⟨31, 0, .readOnly, ⟨0, 0, 1⟩, .any⟩]⟩,
  ⟨0xC0014, 16, 4096, 1, 4, [⟨31, 0, .readOnly, ⟨0, 0, 1⟩, .any⟩]⟩,
  ⟨0xC0018, 16, 4096, 1, 4, [⟨31, 0, .readOnly, ⟨0, 0, 1⟩, .any⟩]⟩,
  ⟨0xC001C, 16, 4096, 1, 4, [⟨31, 0, .readOnly, ⟨0, 0, 1⟩, .any⟩]⟩,
  ⟨0xC0020, 16, 4096, 1, 4, [⟨0, 0, .writeOnly, ⟨0, 0, 1⟩, .any⟩]⟩,
  ⟨0xC0028, 16, 4096, 1, 4, [⟨31, 0, .readOnly, ⟨0, 0, 1⟩, .any⟩]⟩,
  ⟨0xC002C, 16, 4096, 1, 4, [⟨31, 0, .readOnly, ⟨0, 0, 1⟩, .any⟩]⟩,
  ⟨0xC0030, 16, 4096, 1, 4, [⟨31, 0, .readOnly, ⟨0, 0, 1⟩, .any⟩]⟩,
  ⟨0xC0034, 16, 4096, 1, 4, [⟨31, 0, .readOnly, ⟨0, 0, 1⟩, .any⟩]⟩,
  ⟨0xC0100, 16, 4096, 1, 4, [⟨6, 5, .readOnly, ⟨1, 0, 1⟩, .any⟩, ⟨4, 4, .readOnly, ⟨0, 0, 1⟩, .any⟩, ⟨3, 0, .readOnly, ⟨0, 0, 1⟩, .any⟩]⟩,
  ⟨0xC0104, 16, 4096, 1, 4, [⟨20, 2, .readOnly, ⟨0, 0, 1⟩, .any⟩]⟩,
  ⟨0xC0108, 16, 4096, 1, 4, [⟨15, 0, .readOnly, ⟨0, 0, 1⟩, .any⟩]⟩,
  ⟨0xC010C, 16, 4096, 1, 4, [⟨20, 2, .readOnly, ⟨0, 0, 1⟩, .any⟩]⟩,
  ⟨0xC0110, 16, 4096, 1, 4, [⟨31, 0, .readOnly, ⟨0, 0, 1⟩, .any⟩]⟩,
  ⟨0xC0114, 16, 4096, 1, 4, [⟨31, 0, .readOnly, ⟨0, 0, 1⟩, .any⟩]⟩,
  ⟨0xC0118, 16, 4096, 1, 4, [⟨31, 0, .readOnly, ⟨0, 0, 1⟩, .any⟩]⟩,
  ⟨0xC011C, 16, 4096, 1, 4, [⟨31, 0, .readOnly, ⟨0, 0, 1⟩, .any⟩]⟩,
  ⟨0xC0120, 16, 4096, 1, 4, [⟨31, 0, .readOnly, ⟨0, 0, 1⟩, .any⟩]⟩,
  ⟨0xC0124, 16, 4096, 1, 4, [⟨31, 0, .readOnly, ⟨0, 0, 1⟩, .any⟩]⟩,
  ⟨0xC0128, 16, 4096, 1, 4, [⟨31, 0, .readOnly, ⟨0, 0, 1⟩, .any⟩]⟩,
  ⟨0xC012C, 16, 4096, 1, 4, [⟨0, 0, .writeOnly, ⟨0, 0, 1⟩, .any⟩]⟩,
  ⟨0xC0200, 16, 4096, 1, 4, [⟨7, 0, .readOnly, ⟨0, 0, 1⟩, .any⟩]⟩,
  ⟨0xC0204, 16, 4096, 1, 4, [⟨31, 0, .readOnly, ⟨0, 0, 1⟩, .any⟩]⟩,
  ⟨0xC0208, 16, 4096, 1, 4, [⟨31, 0, .readOnly, ⟨0, 0, 1⟩, .any⟩]⟩,
  ⟨0xC020C, 16, 4096, 1, 4, [⟨31, 0, .readOnly, ⟨0, 0, 1⟩, .any⟩]⟩,
  ⟨0xC0210, 16, 4096, 1, 4, [⟨31, 0, .readOnly, ⟨0, 0, 1⟩, .any⟩]⟩,
  ⟨0xC0214, 16, 4096, 1, 4, [⟨0, 0, .writeOnly, ⟨0, 0, 1⟩, .any⟩]⟩,
  ⟨0xC0300, 16, 4096, 1, 4, [⟨20, 16, .readOnly, ⟨0, 0, 1⟩, .any⟩, ⟨15, 15, .readOnly, ⟨0, 0, 1⟩, .any⟩, ⟨4, 0, .readOnly, ⟨0, 0, 1⟩, .any⟩]⟩,
  ⟨0xC0304, 16, 4096, 1, 4, [⟨31, 0, .readOnly, ⟨0, 0, 1⟩, .any⟩]⟩,
  ⟨0xC0308, 16, 4096, 1, 4, [⟨31, 0, .readOnly, ⟨0, 0, 1⟩, .any⟩]⟩,
  ⟨0xC030C, 16, 4096, 1, 4, [⟨0, 0, .writeOnly, ⟨0, 0, 1⟩, .any⟩]⟩]

/-- Registers of the FLK block (spec/10). -/
def RegMap.rowsFlk : List RegRow := [
  ⟨0xD0000, 2, 4096, 1, 4, [⟨20, 8, .readOnly, ⟨0, 0, 1⟩, .any⟩, ⟨1, 1, .readOnly, ⟨0, 0, 1⟩, .any⟩, ⟨0, 0, .readOnly, ⟨0, 0, 1⟩, .any⟩]⟩,
  ⟨0xD0008, 2, 4096, 1, 4, [⟨31, 0, .readOnly, ⟨0, 0, 1⟩, .any⟩]⟩,
  ⟨0xD000C, 2, 4096, 1, 4, [⟨31, 0, .readOnly, ⟨0, 0, 1⟩, .any⟩]⟩,
  ⟨0xD0010, 2, 4096, 1, 4, [⟨31, 0, .readOnly, ⟨0, 0, 1⟩, .any⟩]⟩,
  ⟨0xD0014, 2, 4096, 1, 4, [⟨31, 0, .readOnly, ⟨0, 0, 1⟩, .any⟩]⟩,
  ⟨0xD0018, 2, 4096, 1, 4, [⟨31, 0, .readOnly, ⟨0, 0, 1⟩, .any⟩]⟩,
  ⟨0xD001C, 2, 4096, 1, 4, [⟨31, 0, .readOnly, ⟨0, 0, 1⟩, .any⟩]⟩,
  ⟨0xD0020, 2, 4096, 1, 4, [⟨31, 0, .readOnly, ⟨0, 0, 1⟩, .any⟩]⟩,
  ⟨0xD0024, 2, 4096, 1, 4, [⟨31, 0, .readOnly, ⟨0, 0, 1⟩, .any⟩]⟩,
  ⟨0xD0028, 2, 4096, 1, 4, [⟨31, 0, .readOnly, ⟨0, 0, 1⟩, .any⟩]⟩,
  ⟨0xD002C, 2, 4096, 1, 4, [⟨31, 0, .readOnly, ⟨0, 0, 1⟩, .any⟩]⟩,
  ⟨0xD0030, 2, 4096, 1, 4, [⟨0, 0, .writeOnly, ⟨0, 0, 1⟩, .any⟩]⟩,
  ⟨0xD0040, 2, 4096, 1, 4, [⟨31, 31, .writeOnly, ⟨0, 0, 1⟩, .any⟩, ⟨19, 8, .readOnly, ⟨0, 0, 1⟩, .any⟩, ⟨7, 0, .readOnly, ⟨0, 0, 1⟩, .any⟩]⟩,
  ⟨0xD0044, 2, 4096, 1, 4, [⟨31, 0, .readOnly, ⟨0, 0, 1⟩, .any⟩]⟩,
  ⟨0xD0048, 2, 4096, 1, 4, [⟨31, 0, .readOnly, ⟨0, 0, 1⟩, .any⟩]⟩,
  ⟨0xD004C, 2, 4096, 1, 4, [⟨31, 0, .readOnly, ⟨0, 0, 1⟩, .any⟩]⟩,
  ⟨0xD0050, 2, 4096, 1, 4, [⟨31, 0, .readOnly, ⟨0, 0, 1⟩, .any⟩]⟩,
  ⟨0xD2000, 1, 4, 1, 4, [⟨13, 0, .staged, ⟨200, 0, 1⟩, (.within 10 10000)⟩]⟩,
  ⟨0xD2100, 16, 32, 1, 4, [⟨31, 0, .staged, ⟨0, 0, 1⟩, (.lowZero 16)⟩]⟩,
  ⟨0xD2104, 16, 32, 1, 4, [⟨31, 0, .staged, ⟨0, 0, 1⟩, .any⟩]⟩,
  ⟨0xD2108, 16, 32, 1, 4, [⟨17, 17, .staged, ⟨0, 0, 1⟩, .any⟩, ⟨16, 16, .staged, ⟨0, 0, 1⟩, .any⟩, ⟨14, 8, .staged, ⟨8, 0, 1⟩, (.within 1 64)⟩, ⟨4, 0, .staged, ⟨8, 0, 1⟩, (.within 8 29)⟩]⟩,
  ⟨0xD210C, 16, 32, 1, 4, [⟨31, 0, .staged, ⟨0, 0, 1⟩, .any⟩]⟩,
  ⟨0xD2110, 16, 32, 1, 4, [⟨31, 0, .staged, ⟨0, 0, 1⟩, .any⟩]⟩,
  ⟨0xD2114, 16, 32, 1, 4, [⟨31, 0, .staged, ⟨0, 0, 1⟩, (.lowZero 10)⟩]⟩,
  ⟨0xD2118, 16, 32, 1, 4, [⟨31, 0, .staged, ⟨0, 0, 1⟩, .any⟩]⟩]

/-- Registers of the CEL block (spec/14). -/
def RegMap.rowsCel : List RegRow := [
  ⟨0xE0000, 1, 4, 1, 4, [⟨3, 3, .readOnly, ⟨0, 0, 1⟩, .any⟩, ⟨2, 2, .oneClears, ⟨0, 0, 1⟩, .any⟩, ⟨1, 1, .oneClears, ⟨0, 0, 1⟩, .any⟩, ⟨0, 0, .oneClears, ⟨0, 0, 1⟩, .any⟩]⟩,
  ⟨0xE0004, 1, 4, 1, 4, [⟨15, 0, .staged, ⟨32768, 0, 1⟩, .any⟩]⟩,
  ⟨0xE0040, 8, 16, 1, 4, [⟨28, 16, .staged, ⟨7168, 0, 1⟩, (.within 1 7168)⟩, ⟨15, 0, .staged, ⟨0, 0, 1⟩, .any⟩]⟩,
  ⟨0xE0044, 8, 16, 1, 4, [⟨27, 16, .staged, ⟨0, 0, 1⟩, (.within 0 2048)⟩, ⟨11, 0, .staged, ⟨0, 0, 1⟩, (.within 0 2047)⟩]⟩,
  ⟨0xE0048, 8, 16, 1, 4, [⟨31, 0, .readOnly, ⟨0, 0, 1⟩, .any⟩]⟩,
  ⟨0xE004C, 8, 16, 1, 4, [⟨31, 0, .readOnly, ⟨0, 0, 1⟩, .any⟩]⟩,
  ⟨0xE0100, 16, 32, 1, 4, [⟨3, 1, .staged, ⟨0, 0, 1⟩, .any⟩, ⟨0, 0, .staged, ⟨0, 0, 1⟩, .any⟩]⟩,
  ⟨0xE0104, 16, 32, 1, 4, [⟨31, 0, .staged, ⟨0, 0, 1⟩, .any⟩]⟩,
  ⟨0xE0108, 16, 32, 1, 4, [⟨30, 16, .staged, ⟨0, 0, 1⟩, .any⟩, ⟨14, 0, .staged, ⟨0, 0, 1⟩, .any⟩]⟩,
  ⟨0xE010C, 16, 32, 1, 4, [⟨31, 0, .staged, ⟨0, 0, 1⟩, (.lowZero 16)⟩]⟩,
  ⟨0xE0110, 16, 32, 1, 4, [⟨31, 0, .staged, ⟨0, 0, 1⟩, .any⟩]⟩,
  ⟨0xE0300, 1, 4, 1, 4, [⟨31, 0, .readOnly, ⟨0, 0, 1⟩, .any⟩]⟩,
  ⟨0xE0304, 1, 4, 1, 4, [⟨31, 0, .readOnly, ⟨0, 0, 1⟩, .any⟩]⟩,
  ⟨0xE0308, 1, 4, 1, 4, [⟨31, 0, .readOnly, ⟨0, 0, 1⟩, .any⟩]⟩,
  ⟨0xE030C, 1, 4, 1, 4, [⟨31, 0, .readOnly, ⟨0, 0, 1⟩, .any⟩]⟩,
  ⟨0xE0310, 1, 4, 1, 4, [⟨31, 0, .readOnly, ⟨0, 0, 1⟩, .any⟩]⟩,
  ⟨0xE0314, 1, 4, 1, 4, [⟨31, 0, .readOnly, ⟨0, 0, 1⟩, .any⟩]⟩,
  ⟨0xE0318, 1, 4, 1, 4, [⟨31, 0, .readOnly, ⟨0, 0, 1⟩, .any⟩]⟩,
  ⟨0xE031C, 1, 4, 1, 4, [⟨0, 0, .writeOnly, ⟨0, 0, 1⟩, .any⟩]⟩,
  ⟨0xE0320, 1, 4, 1, 4, [⟨31, 0, .readOnly, ⟨0, 0, 1⟩, .any⟩]⟩,
  ⟨0xE0324, 1, 4, 1, 4, [⟨31, 0, .readOnly, ⟨0, 0, 1⟩, .any⟩]⟩,
  ⟨0xE0328, 1, 4, 1, 4, [⟨18, 16, .readOnly, ⟨0, 0, 1⟩, .any⟩, ⟨15, 12, .readOnly, ⟨0, 0, 1⟩, .any⟩, ⟨11, 8, .readOnly, ⟨0, 0, 1⟩, .any⟩, ⟨7, 7, .readOnly, ⟨0, 0, 1⟩, .any⟩, ⟨6, 2, .readOnly, ⟨0, 0, 1⟩, .any⟩, ⟨1, 0, .readOnly, ⟨0, 0, 1⟩, .any⟩]⟩,
  ⟨0xE0330, 2, 4, 1, 4, [⟨29, 16, .readOnly, ⟨0, 0, 1⟩, .any⟩, ⟨13, 0, .readOnly, ⟨0, 0, 1⟩, .any⟩]⟩,
  ⟨0xE0400, 32, 4, 1, 4, [⟨6, 0, .readOnly, ⟨0, 0, 1⟩, .any⟩]⟩,
  ⟨0xE0500, 1, 4, 1, 4, [⟨10, 0, .immediate, ⟨0, 0, 1⟩, .any⟩]⟩,
  ⟨0xE0504, 1, 4, 1, 4, [⟨31, 31, .readOnly, ⟨0, 0, 1⟩, .any⟩, ⟨30, 30, .readOnly, ⟨0, 0, 1⟩, .any⟩, ⟨29, 29, .readOnly, ⟨0, 0, 1⟩, .any⟩, ⟨25, 20, .readOnly, ⟨0, 0, 1⟩, .any⟩, ⟨19, 15, .readOnly, ⟨0, 0, 1⟩, .any⟩, ⟨14, 0, .readOnly, ⟨0, 0, 1⟩, .any⟩]⟩]

/-- Registers of the PART block (spec/03). -/
def RegMap.rowsPart : List RegRow := [
  ⟨0xF0000, 1, 4, 1, 4, [⟨12, 0, .readOnly, ⟨0, 0, 1⟩, .any⟩]⟩,
  ⟨0xF0004, 1, 4, 1, 4, [⟨31, 0, .staged, ⟨0, 0, 1⟩, .any⟩]⟩,
  ⟨0xF0008, 1, 4, 1, 4, [⟨11, 0, .immediate, ⟨0, 0, 1⟩, .any⟩]⟩,
  ⟨0xF0010, 8, 4, 1, 4, [⟨31, 0, .readOnly, ⟨0, 0, 1⟩, .any⟩]⟩]

/-- Registers of the RING block (spec/16). -/
def RegMap.rowsRing : List RegRow := [
  ⟨0x100000, 8192, 32, 1, 4, [⟨9, 9, .immediate, ⟨0, 0, 1⟩, .any⟩, ⟨8, 4, .immediate, ⟨0, 0, 1⟩, .any⟩, ⟨3, 1, .immediate, ⟨0, 0, 1⟩, .any⟩, ⟨0, 0, .immediate, ⟨0, 0, 1⟩, .any⟩]⟩,
  ⟨0x100004, 8192, 32, 1, 4, [⟨31, 22, .immediate, ⟨0, 0, 1⟩, .any⟩, ⟨21, 16, .immediate, ⟨0, 0, 1⟩, .any⟩, ⟨14, 14, .immediate, ⟨0, 0, 1⟩, .any⟩, ⟨13, 13, .immediate, ⟨0, 0, 1⟩, .any⟩, ⟨12, 0, .immediate, ⟨0, 0, 1⟩, .any⟩]⟩,
  ⟨0x100008, 8192, 32, 1, 4, [⟨31, 0, .immediate, ⟨0, 0, 1⟩, .any⟩]⟩,
  ⟨0x10000C, 8192, 32, 1, 4, [⟨31, 0, .immediate, ⟨0, 0, 1⟩, .any⟩]⟩,
  ⟨0x100010, 8192, 32, 1, 4, [⟨31, 16, .immediate, ⟨0, 0, 1⟩, .any⟩, ⟨11, 11, .immediate, ⟨0, 0, 1⟩, .any⟩, ⟨10, 0, .immediate, ⟨0, 0, 1⟩, .any⟩]⟩,
  ⟨0x100014, 8192, 32, 1, 4, [⟨31, 0, .readOnly, ⟨0, 0, 1⟩, .any⟩]⟩,
  ⟨0x100018, 8192, 32, 1, 4, [⟨31, 0, .readOnly, ⟨0, 0, 1⟩, .any⟩]⟩,
  ⟨0x10001C, 8192, 32, 1, 4, [⟨31, 16, .readOnly, ⟨0, 0, 1⟩, .any⟩, ⟨15, 8, .readOnly, ⟨0, 0, 1⟩, .any⟩, ⟨5, 5, .readOnly, ⟨0, 0, 1⟩, .any⟩, ⟨4, 4, .oneClears, ⟨0, 0, 1⟩, .any⟩, ⟨3, 3, .oneClears, ⟨0, 0, 1⟩, .any⟩, ⟨2, 2, .oneClears, ⟨0, 0, 1⟩, .any⟩, ⟨1, 1, .readOnly, ⟨0, 0, 1⟩, .any⟩]⟩]

/-- Registers of the DBELL block (spec/16). -/
def RegMap.rowsDbell : List RegRow := [
  ⟨0x180000, 8192, 64, 1, 4, [⟨31, 0, .writeOnly, ⟨0, 0, 1⟩, .any⟩]⟩]

/-- Registers of the STG block (spec/17). -/
def RegMap.rowsStg : List RegRow := [
  ⟨0x200000, 1, 4, 1, 4, [⟨0, 0, .immediate, ⟨0, 0, 1⟩, .any⟩]⟩,
  ⟨0x200004, 1, 4, 1, 4, [⟨6, 6, .oneClears, ⟨0, 0, 1⟩, .any⟩, ⟨5, 5, .oneClears, ⟨0, 0, 1⟩, .any⟩, ⟨4, 4, .oneClears, ⟨0, 0, 1⟩, .any⟩, ⟨3, 3, .readOnly, ⟨0, 0, 1⟩, .any⟩, ⟨2, 2, .readOnly, ⟨0, 0, 1⟩, .any⟩, ⟨1, 1, .readOnly, ⟨0, 0, 1⟩, .any⟩, ⟨0, 0, .readOnly, ⟨0, 0, 1⟩, .any⟩]⟩,
  ⟨0x200008, 1, 4, 1, 4, [⟨15, 0, .readOnly, ⟨0, 0, 1⟩, .any⟩]⟩,
  ⟨0x20000C, 1, 4, 1, 4, [⟨21, 0, .readOnly, ⟨0, 0, 1⟩, .any⟩]⟩,
  ⟨0x200010, 1, 4, 1, 4, [⟨31, 0, .readOnly, ⟨0, 0, 1⟩, .any⟩]⟩,
  ⟨0x200014, 1, 4, 1, 4, [⟨31, 0, .readOnly, ⟨0, 0, 1⟩, .any⟩]⟩,
  ⟨0x200018, 1, 4, 1, 4, [⟨31, 0, .readOnly, ⟨0, 0, 1⟩, .any⟩]⟩,
  ⟨0x20001C, 1, 4, 1, 4, [⟨31, 0, .readOnly, ⟨0, 0, 1⟩, .any⟩]⟩,
  ⟨0x200020, 1, 4, 1, 4, [⟨31, 0, .readOnly, ⟨0, 0, 1⟩, .any⟩]⟩,
  ⟨0x200024, 1, 4, 1, 4, [⟨0, 0, .writeOnly, ⟨0, 0, 1⟩, .any⟩]⟩,
  ⟨0x208200, 8, 16, 1, 4, [⟨31, 0, .staged, ⟨0, 0, 1⟩, (.lowZero 16)⟩]⟩,
  ⟨0x208204, 8, 16, 1, 4, [⟨31, 0, .staged, ⟨0, 0, 1⟩, .any⟩]⟩,
  ⟨0x208208, 8, 16, 1, 4, [⟨15, 0, .staged, ⟨0, 0, 1⟩, .any⟩]⟩,
  ⟨0x208000, 8, 32, 1, 4, [⟨1, 1, .staged, ⟨0, 0, 1⟩, .any⟩, ⟨0, 0, .staged, ⟨0, 0, 1⟩, .any⟩]⟩,
  ⟨0x208004, 8, 32, 1, 4, [⟨15, 0, .staged, ⟨0, 0, 1⟩, .any⟩]⟩,
  ⟨0x208008, 8, 32, 1, 4, [⟨31, 16, .staged, ⟨0, 0, 1⟩, .any⟩, ⟨15, 0, .staged, ⟨0, 0, 1⟩, .any⟩]⟩,
  ⟨0x20800C, 8, 32, 1, 4, [⟨31, 20, .staged, ⟨0, 0, 1⟩, .any⟩, ⟨19, 0, .staged, ⟨10000, 0, 1⟩, .any⟩]⟩,
  ⟨0x208010, 8, 32, 1, 4, [⟨9, 9, .readOnly, ⟨0, 0, 1⟩, .any⟩, ⟨8, 8, .readOnly, ⟨0, 0, 1⟩, .any⟩, ⟨6, 6, .readOnly, ⟨0, 0, 1⟩, .any⟩, ⟨5, 0, .readOnly, ⟨0, 0, 1⟩, .any⟩]⟩,
  ⟨0x208014, 8, 32, 1, 4, [⟨31, 0, .readOnly, ⟨0, 0, 1⟩, .any⟩]⟩,
  ⟨0x208018, 8, 32, 1, 4, [⟨31, 0, .readOnly, ⟨0, 0, 1⟩, .any⟩]⟩,
  ⟨0x208400, 64, 16, 1, 4, [⟨2, 0, .staged, ⟨0, 0, 1⟩, .any⟩]⟩,
  ⟨0x208404, 64, 16, 1, 4, [⟨31, 0, .staged, ⟨0, 0, 1⟩, (.lowZero 16)⟩]⟩,
  ⟨0x208408, 64, 16, 1, 4, [⟨31, 0, .staged, ⟨0, 0, 1⟩, .any⟩]⟩,
  ⟨0x20840C, 64, 16, 1, 4, [⟨15, 8, .readOnly, ⟨0, 0, 1⟩, .any⟩, ⟨2, 0, .readOnly, ⟨0, 0, 1⟩, .any⟩]⟩,
  ⟨0x209000, 1, 4, 1, 4, [⟨13, 0, .immediate, ⟨0, 0, 1⟩, .any⟩]⟩,
  ⟨0x209004, 1, 4, 1, 4, [⟨31, 16, .staged, ⟨0, 0, 1⟩, .any⟩, ⟨15, 8, .staged, ⟨0, 0, 1⟩, .any⟩, ⟨7, 7, .staged, ⟨0, 0, 1⟩, .any⟩, ⟨6, 6, .staged, ⟨0, 0, 1⟩, .any⟩, ⟨5, 3, .staged, ⟨0, 0, 1⟩, .any⟩, ⟨2, 0, .staged, ⟨0, 0, 1⟩, .any⟩]⟩,
  ⟨0x209008, 1, 4, 1, 4, [⟨31, 0, .staged, ⟨0, 0, 1⟩, .any⟩]⟩,
  ⟨0x20900C, 1, 4, 1, 4, [⟨31, 16, .readOnly, ⟨0, 0, 1⟩, .any⟩, ⟨11, 1, .readOnly, ⟨0, 0, 1⟩, .any⟩, ⟨0, 0, .readOnly, ⟨0, 0, 1⟩, .any⟩]⟩,
  ⟨0x209010, 1, 4, 1, 4, [⟨31, 0, .readOnly, ⟨0, 0, 1⟩, .any⟩]⟩,
  ⟨0x209014, 1, 4, 1, 4, [⟨31, 0, .readOnly, ⟨0, 0, 1⟩, .any⟩]⟩,
  ⟨0x209020, 1, 4, 1, 4, [⟨31, 0, .readOnly, ⟨0, 0, 1⟩, .any⟩]⟩,
  ⟨0x209024, 1, 4, 1, 4, [⟨31, 0, .readOnly, ⟨0, 0, 1⟩, .any⟩]⟩,
  ⟨0x209028, 1, 4, 1, 4, [⟨31, 0, .readOnly, ⟨0, 0, 1⟩, .any⟩]⟩,
  ⟨0x20902C, 1, 4, 1, 4, [⟨0, 0, .writeOnly, ⟨0, 0, 1⟩, .any⟩]⟩]

/-- Registers of the SDG block (spec/18). -/
def RegMap.rowsSdg : List RegRow := [
  ⟨0x210000, 1, 4, 1, 4, [⟨23, 16, .staged, ⟨3, 0, 1⟩, (.within 1 255)⟩, ⟨15, 0, .staged, ⟨1000, 0, 1⟩, (.within 10 65535)⟩]⟩,
  ⟨0x210004, 1, 4, 1, 4, [⟨5, 5, .oneClears, ⟨0, 0, 1⟩, .any⟩, ⟨4, 4, .oneClears, ⟨0, 0, 1⟩, .any⟩, ⟨3, 3, .readOnly, ⟨0, 0, 1⟩, .any⟩, ⟨2, 2, .oneClears, ⟨0, 0, 1⟩, .any⟩, ⟨1, 1, .oneClears, ⟨0, 0, 1⟩, .any⟩, ⟨0, 0, .oneClears, ⟨0, 0, 1⟩, .any⟩]⟩,
  ⟨0x210008, 1, 4, 1, 4, [⟨31, 16, .readOnly, ⟨0, 0, 1⟩, .any⟩, ⟨15, 0, .readOnly, ⟨0, 0, 1⟩, .any⟩]⟩,
  ⟨0x21000C, 1, 4, 1, 4, [⟨16, 16, .staged, ⟨1, 0, 1⟩, .any⟩, ⟨15, 0, .staged, ⟨600, 0, 1⟩, (.within 10 65535)⟩]⟩,
  ⟨0x210010, 1, 4, 1, 4, [⟨31, 16, .readOnly, ⟨0, 0, 1⟩, .any⟩, ⟨15, 0, .readOnly, ⟨0, 0, 1⟩, .any⟩]⟩,
  ⟨0x210014, 1, 4, 1, 4, [⟨9, 8, .writeOnly, ⟨0, 0, 1⟩, .any⟩, ⟨5, 0, .writeOnly, ⟨0, 0, 1⟩, .any⟩]⟩,
  ⟨0x210020, 1, 4, 1, 4, [⟨31, 0, .readOnly, ⟨0, 0, 1⟩, .any⟩]⟩,
  ⟨0x210024, 1, 4, 1, 4, [⟨31, 0, .readOnly, ⟨0, 0, 1⟩, .any⟩]⟩,
  ⟨0x210028, 1, 4, 1, 4, [⟨31, 0, .readOnly, ⟨0, 0, 1⟩, .any⟩]⟩,
  ⟨0x21002C, 1, 4, 1, 4, [⟨31, 0, .readOnly, ⟨0, 0, 1⟩, .any⟩]⟩,
  ⟨0x210030, 1, 4, 1, 4, [⟨31, 0, .readOnly, ⟨0, 0, 1⟩, .any⟩]⟩,
  ⟨0x210034, 1, 4, 1, 4, [⟨31, 0, .readOnly, ⟨0, 0, 1⟩, .any⟩]⟩,
  ⟨0x210038, 1, 4, 1, 4, [⟨31, 0, .readOnly, ⟨0, 0, 1⟩, .any⟩]⟩,
  ⟨0x21003C, 1, 4, 1, 4, [⟨31, 0, .readOnly, ⟨0, 0, 1⟩, .any⟩]⟩,
  ⟨0x210040, 1, 4, 1, 4, [⟨31, 0, .readOnly, ⟨0, 0, 1⟩, .any⟩]⟩,
  ⟨0x210044, 1, 4, 1, 4, [⟨31, 0, .readOnly, ⟨0, 0, 1⟩, .any⟩]⟩,
  ⟨0x210048, 1, 4, 1, 4, [⟨0, 0, .writeOnly, ⟨0, 0, 1⟩, .any⟩]⟩,
  ⟨0x21004C, 1, 4, 1, 4, [⟨31, 0, .readOnly, ⟨0, 0, 1⟩, .any⟩]⟩,
  ⟨0x210400, 64, 32, 1, 4, [⟨31, 16, .staged, ⟨1, 0, 1⟩, (.within 1 65535)⟩, ⟨15, 8, .staged, ⟨32, 0, 1⟩, .any⟩, ⟨6, 4, .staged, ⟨1, 0, 1⟩, (.within 0 4)⟩, ⟨3, 1, .staged, ⟨0, 0, 1⟩, (.within 0 5)⟩, ⟨0, 0, .staged, ⟨0, 0, 1⟩, .any⟩]⟩,
  ⟨0x210404, 64, 32, 1, 4, [⟨31, 0, .staged, ⟨0, 0, 1⟩, (.lowZero 6)⟩]⟩,
  ⟨0x210408, 64, 32, 1, 4, [⟨31, 0, .staged, ⟨0, 0, 1⟩, .any⟩]⟩,
  ⟨0x21040C, 64, 32, 1, 4, [⟨28, 16, .staged, ⟨1, 0, 1⟩, (.within 1 8191)⟩, ⟨11, 0, .staged, ⟨1, 0, 1⟩, (.within 1 2048)⟩]⟩,
  ⟨0x210410, 64, 32, 1, 4, [⟨31, 0, .readOnly, ⟨0, 0, 1⟩, .any⟩]⟩]

/-- Registers of the FLD block (spec/19). -/
def RegMap.rowsFld : List RegRow := [
  ⟨0x220000, 1, 4, 1, 4, [⟨1, 1, .writeOnly, ⟨0, 0, 1⟩, .any⟩, ⟨0, 0, .writeOnly, ⟨0, 0, 1⟩, .any⟩]⟩,
  ⟨0x220004, 1, 4, 1, 4, [⟨6, 6, .oneClears, ⟨0, 0, 1⟩, .any⟩, ⟨5, 5, .oneClears, ⟨0, 0, 1⟩, .any⟩, ⟨4, 4, .readOnly, ⟨0, 0, 1⟩, .any⟩, ⟨3, 3, .readOnly, ⟨0, 0, 1⟩, .any⟩, ⟨1, 0, .readOnly, ⟨0, 0, 1⟩, .any⟩]⟩,
  ⟨0x220008, 1, 4, 1, 4, [⟨10, 0, .oneClears, ⟨1, 0, 1⟩, .any⟩]⟩,
  ⟨0x22000C, 1, 4, 1, 4, [⟨23, 16, .readOnly, ⟨0, 0, 1⟩, .any⟩, ⟨15, 0, .readOnly, ⟨0, 0, 1⟩, .any⟩]⟩,
  ⟨0x220010, 1, 4, 1, 4, [⟨28, 16, .readOnly, ⟨0, 0, 1⟩, .any⟩, ⟨12, 0, .readOnly, ⟨0, 0, 1⟩, .any⟩]⟩,
  ⟨0x220014, 1, 4, 1, 4, [⟨15, 0, .immediate, ⟨0, 0, 1⟩, .any⟩]⟩,
  ⟨0x220018, 1, 4, 1, 4, [⟨15, 0, .readOnly, ⟨0, 0, 1⟩, .any⟩]⟩,
  ⟨0x220020, 1, 4, 1, 4, [⟨31, 0, .readOnly, ⟨0, 0, 1⟩, .any⟩]⟩,
  ⟨0x220024, 1, 4, 1, 4, [⟨31, 0, .readOnly, ⟨0, 0, 1⟩, .any⟩]⟩,
  ⟨0x220028, 1, 4, 1, 4, [⟨31, 0, .readOnly, ⟨0, 0, 1⟩, .any⟩]⟩,
  ⟨0x22002C, 1, 4, 1, 4, [⟨31, 0, .readOnly, ⟨0, 0, 1⟩, .any⟩]⟩,
  ⟨0x220030, 1, 4, 1, 4, [⟨31, 0, .readOnly, ⟨0, 0, 1⟩, .any⟩]⟩,
  ⟨0x220034, 1, 4, 1, 4, [⟨0, 0, .writeOnly, ⟨0, 0, 1⟩, .any⟩]⟩,
  ⟨0x220100, 16, 16, 1, 4, [⟨29, 16, .staged, ⟨1000, 0, 1⟩, (.within 10 10000)⟩, ⟨3, 3, .staged, ⟨0, 0, 1⟩, .any⟩, ⟨2, 2, .staged, ⟨0, 0, 1⟩, .any⟩, ⟨1, 0, .staged, ⟨0, 0, 1⟩, (.within 0 2)⟩]⟩,
  ⟨0x220104, 16, 16, 1, 4, [⟨4, 4, .readOnly, ⟨0, 0, 1⟩, .any⟩, ⟨3, 3, .oneClears, ⟨0, 0, 1⟩, .any⟩, ⟨2, 2, .readOnly, ⟨0, 0, 1⟩, .any⟩, ⟨1, 1, .oneClears, ⟨0, 0, 1⟩, .any⟩, ⟨0, 0, .oneClears, ⟨0, 0, 1⟩, .any⟩]⟩,
  ⟨0x220108, 16, 16, 1, 4, [⟨31, 0, .readOnly, ⟨0, 0, 1⟩, .any⟩]⟩,
  ⟨0x22010C, 16, 16, 1, 4, [⟨31, 0, .readOnly, ⟨0, 0, 1⟩, .any⟩]⟩,
  ⟨0x220200, 16, 16, 1, 4, [⟨17, 16, .staged, ⟨0, 0, 1⟩, (.within 0 2)⟩, ⟨9, 0, .staged, ⟨100, 0, 1⟩, (.within 0 1000)⟩]⟩,
  ⟨0x220204, 16, 16, 1, 4, [⟨31, 0, .readOnly, ⟨0, 0, 1⟩, .any⟩]⟩,
  ⟨0x220208, 16, 16, 1, 4, [⟨31, 0, .readOnly, ⟨0, 0, 1⟩, .any⟩]⟩,
  ⟨0x22020C, 16, 16, 1, 4, [⟨31, 0, .readOnly, ⟨0, 0, 1⟩, .any⟩]⟩]

/-- Registers of the AUD block (spec/19). -/
def RegMap.rowsAud : List RegRow := [
  ⟨0x230000, 1, 4, 1, 4, [⟨4, 3, .staged, ⟨0, 0, 1⟩, (.within 0 2)⟩, ⟨1, 0, .staged, ⟨0, 0, 1⟩, (.within 0 2)⟩]⟩,
  ⟨0x230010, 4, 4, 1, 4, [⟨3, 1, .staged, ⟨0, 0, 1⟩, .any⟩, ⟨0, 0, .staged, ⟨0, 0, 1⟩, .any⟩]⟩,
  ⟨0x230020, 1, 4, 1, 4, [⟨3, 0, .oneClears, ⟨0, 0, 1⟩, .any⟩]⟩,
  ⟨0x230100, 16, 16, 1, 4, [⟨22, 7, .staged, ⟨0, 0, 1⟩, .any⟩, ⟨6, 3, .staged, ⟨0, 0, 1⟩, .any⟩, ⟨2, 1, .staged, ⟨0, 0, 1⟩, .any⟩, ⟨0, 0, .staged, ⟨0, 0, 1⟩, .any⟩]⟩,
  ⟨0x230104, 16, 16, 1, 4, [⟨15, 0, .staged, ⟨2000, 0, 1⟩, (.within 1 65535)⟩]⟩,
  ⟨0x230108, 16, 16, 1, 4, [⟨31, 0, .staged, ⟨0, 0, 1⟩, .any⟩]⟩,
  ⟨0x230300, 1, 4, 1, 4, [⟨31, 0, .readOnly, ⟨0, 0, 1⟩, .any⟩]⟩,
  ⟨0x230304, 1, 4, 1, 4, [⟨31, 0, .readOnly, ⟨0, 0, 1⟩, .any⟩]⟩,
  ⟨0x230308, 1, 4, 1, 4, [⟨31, 0, .readOnly, ⟨0, 0, 1⟩, .any⟩]⟩,
  ⟨0x23030C, 1, 4, 1, 4, [⟨31, 0, .readOnly, ⟨0, 0, 1⟩, .any⟩]⟩,
  ⟨0x230310, 1, 4, 1, 4, [⟨0, 0, .writeOnly, ⟨0, 0, 1⟩, .any⟩]⟩]

/-- Registers of the GTS block (spec/20). -/
def RegMap.rowsGts : List RegRow := [
  ⟨0x240000, 1, 4, 1, 4, [⟨23, 8, .staged, ⟨1000, 0, 1⟩, (.within 100 65535)⟩, ⟨6, 6, .staged, ⟨0, 0, 1⟩, .any⟩, ⟨5, 0, .staged, ⟨0, 0, 1⟩, .any⟩]⟩,
  ⟨0x240004, 1, 4, 1, 4, [⟨31, 0, .staged, ⟨0, 0, 1⟩, .any⟩]⟩,
  ⟨0x240008, 1, 4, 1, 4, [⟨31, 0, .staged, ⟨0, 0, 1⟩, .any⟩]⟩,
  ⟨0x24000C, 1, 4, 1, 4, [⟨12, 12, .readOnly, ⟨0, 0, 1⟩, .any⟩, ⟨11, 6, .readOnly, ⟨0, 0, 1⟩, .any⟩, ⟨5, 0, .readOnly, ⟨0, 0, 1⟩, .any⟩]⟩,
  ⟨0x240010, 1, 4, 1, 4, [⟨31, 0, .readOnly, ⟨0, 0, 1⟩, .any⟩]⟩,
  ⟨0x240014, 1, 4, 1, 4, [⟨31, 0, .readOnly, ⟨0, 0, 1⟩, .any⟩]⟩,
  ⟨0x240018, 1, 4, 1, 4, [⟨31, 0, .readOnly, ⟨0, 0, 1⟩, .any⟩]⟩,
  ⟨0x240020, 1, 4, 1, 4, [⟨31, 16, .readOnly, ⟨0, 0, 1⟩, .any⟩, ⟨11, 11, .readOnly, ⟨0, 0, 1⟩, .any⟩, ⟨10, 8, .readOnly, ⟨0, 0, 1⟩, .any⟩, ⟨1, 1, .readOnly, ⟨0, 0, 1⟩, .any⟩, ⟨0, 0, .readOnly, ⟨0, 0, 1⟩, .any⟩]⟩,
  ⟨0x240024, 1, 4, 1, 4, [⟨31, 0, .readOnly, ⟨0, 0, 1⟩, .any⟩]⟩,
  ⟨0x240040, 1, 4, 1, 4, [⟨31, 0, .readOnly, ⟨0, 0, 1⟩, .any⟩]⟩,
  ⟨0x240044, 1, 4, 1, 4, [⟨31, 0, .readOnly, ⟨0, 0, 1⟩, .any⟩]⟩,
  ⟨0x240048, 1, 4, 1, 4, [⟨0, 0, .writeOnly, ⟨0, 0, 1⟩, .any⟩]⟩,
  ⟨0x240100, 8, 32, 1, 4, [⟨0, 0, .staged, ⟨0, 0, 1⟩, .any⟩]⟩,
  ⟨0x240104, 8, 32, 1, 4, [⟨15, 0, .staged, ⟨0, 0, 1⟩, .any⟩]⟩,
  ⟨0x240108, 8, 32, 1, 4, [⟨20, 18, .readOnly, ⟨0, 0, 1⟩, .any⟩, ⟨16, 14, .readOnly, ⟨0, 0, 1⟩, .any⟩, ⟨13, 8, .readOnly, ⟨0, 0, 1⟩, .any⟩, ⟨2, 0, .readOnly, ⟨0, 0, 1⟩, .any⟩]⟩,
  ⟨0x24010C, 8, 32, 1, 4, [⟨31, 0, .readOnly, ⟨0, 0, 1⟩, .any⟩]⟩,
  ⟨0x240110, 8, 32, 1, 4, [⟨31, 0, .readOnly, ⟨0, 0, 1⟩, .any⟩]⟩,
  ⟨0x240114, 8, 32, 1, 4, [⟨31, 0, .readOnly, ⟨0, 0, 1⟩, .any⟩]⟩,
  ⟨0x240300, 8, 4, 1, 4, [⟨20, 10, .staged, ⟨0, 0, 1⟩, (.within 0 1024)⟩, ⟨8, 0, .staged, ⟨0, 0, 1⟩, (.within 0 256)⟩]⟩,
  ⟨0x240400, 8, 16, 1, 4, [⟨31, 0, .staged, ⟨0, 0, 1⟩, (.lowZero 16)⟩]⟩,
  ⟨0x240404, 8, 16, 1, 4, [⟨31, 0, .staged, ⟨0, 0, 1⟩, .any⟩]⟩,
  ⟨0x240408, 8, 16, 1, 4, [⟨25, 25, .staged, ⟨0, 0, 1⟩, .any⟩, ⟨24, 24, .staged, ⟨0, 0, 1⟩, .any⟩, ⟨23, 16, .staged, ⟨0, 0, 1⟩, .any⟩, ⟨15, 0, .staged, ⟨0, 0, 1⟩, .any⟩]⟩,
  ⟨0x240800, 16, 32, 1, 4, [⟨17, 15, .staged, ⟨0, 0, 1⟩, .any⟩, ⟨14, 12, .staged, ⟨0, 0, 1⟩, .any⟩, ⟨11, 8, .staged, ⟨0, 0, 1⟩, .any⟩, ⟨7, 2, .staged, ⟨0, 0, 1⟩, .any⟩, ⟨1, 1, .staged, ⟨0, 0, 1⟩, .any⟩, ⟨0, 0, .staged, ⟨0, 0, 1⟩, .any⟩]⟩,
  ⟨0x240804, 16, 32, 1, 4, [⟨21, 13, .staged, ⟨1, 0, 1⟩, (.within 1 256)⟩, ⟨12, 0, .staged, ⟨0, 0, 1⟩, .any⟩]⟩,
  ⟨0x240808, 16, 32, 1, 4, [⟨31, 0, .staged, ⟨0, 0, 1⟩, (.lowZero 12)⟩]⟩,
  ⟨0x24080C, 16, 32, 1, 4, [⟨31, 0, .staged, ⟨0, 0, 1⟩, .any⟩]⟩,
  ⟨0x240810, 16, 32, 1, 4, [⟨21, 8, .staged, ⟨0, 0, 1⟩, .any⟩, ⟨7, 0, .staged, ⟨0, 0, 1⟩, .any⟩]⟩,
  ⟨0x240814, 16, 32, 1, 4, [⟨15, 0, .staged, ⟨1, 0, 1⟩, .any⟩]⟩,
  ⟨0x240818, 16, 32, 1, 4, [⟨31, 0, .readOnly, ⟨0, 0, 1⟩, .any⟩]⟩,
  ⟨0x24081C, 16, 32, 1, 4, [⟨31, 0, .readOnly, ⟨0, 0, 1⟩, .any⟩]⟩]

/-- Registers of the NTM block (spec/22). -/
def RegMap.rowsNtm : List RegRow := [
  ⟨0x250000, 1, 4, 1, 4, [⟨19, 16, .staged, ⟨3, 0, 1⟩, (.within 2 10)⟩, ⟨15, 8, .staged, ⟨0, 0, 1⟩, (.within 0 127)⟩, ⟨2, 2, .staged, ⟨0, 0, 1⟩, .any⟩, ⟨1, 1, .staged, ⟨0, 0, 1⟩, .any⟩, ⟨0, 0, .staged, ⟨0, 0, 1⟩, .any⟩]⟩,
  ⟨0x250004, 1, 4, 1, 4, [⟨8, 8, .readOnly, ⟨0, 0, 1⟩, .any⟩, ⟨7, 7, .readOnly, ⟨0, 0, 1⟩, .any⟩, ⟨6, 6, .oneClears, ⟨0, 0, 1⟩, .any⟩, ⟨5, 5, .readOnly, ⟨0, 0, 1⟩, .any⟩, ⟨4, 4, .readOnly, ⟨0, 0, 1⟩, .any⟩, ⟨3, 0, .readOnly, ⟨1, 0, 1⟩, .any⟩]⟩,
  ⟨0x250008, 1, 4, 1, 4, [⟨31, 0, .readOnly, ⟨0, 0, 1⟩, .any⟩]⟩,
  ⟨0x25000C, 1, 4, 1, 4, [⟨31, 0, .readOnly, ⟨0, 0, 1⟩, .any⟩]⟩,
  ⟨0x250010, 1, 4, 1, 4, [⟨31, 0, .readOnly, ⟨0, 0, 1⟩, .any⟩]⟩,
  ⟨0x250014, 1, 4, 1, 4, [⟨31, 0, .readOnly, ⟨0, 0, 1⟩, .any⟩]⟩,
  ⟨0x250018, 1, 4, 1, 4, [⟨31, 0, .readOnly, ⟨0, 0, 1⟩, .any⟩]⟩,
  ⟨0x25001C, 1, 4, 1, 4, [⟨15, 0, .readOnly, ⟨0, 0, 1⟩, .any⟩]⟩,
  ⟨0x250020, 1, 4, 1, 4, [⟨31, 0, .readOnly, ⟨0, 0, 1⟩, .any⟩]⟩,
  ⟨0x250024, 1, 4, 1, 4, [⟨0, 0, .writeOnly, ⟨0, 0, 1⟩, .any⟩]⟩,
  ⟨0x250028, 1, 4, 1, 4, [⟨31, 0, .readOnly, ⟨0, 0, 1⟩, .any⟩]⟩,
  ⟨0x25002C, 1, 4, 1, 4, [⟨31, 0, .readOnly, ⟨0, 0, 1⟩, .any⟩]⟩,
  ⟨0x250030, 1, 4, 1, 4, [⟨31, 0, .readOnly, ⟨0, 0, 1⟩, .any⟩]⟩,
  ⟨0x250034, 1, 4, 1, 4, [⟨31, 0, .readOnly, ⟨0, 0, 1⟩, .any⟩]⟩,
  ⟨0x250038, 1, 4, 1, 4, [⟨4, 0, .readOnly, ⟨0, 0, 1⟩, .any⟩]⟩,
  ⟨0x250040, 1, 4, 1, 4, [⟨31, 0, .readOnly, ⟨0, 0, 1⟩, .any⟩]⟩,
  ⟨0x250044, 1, 4, 1, 4, [⟨31, 0, .readOnly, ⟨0, 0, 1⟩, .any⟩]⟩,
  ⟨0x250048, 1, 4, 1, 4, [⟨31, 0, .readOnly, ⟨0, 0, 1⟩, .any⟩]⟩,
  ⟨0x25004C, 1, 4, 1, 4, [⟨31, 0, .readOnly, ⟨0, 0, 1⟩, .any⟩]⟩,
  ⟨0x250050, 1, 4, 1, 4, [⟨0, 0, .writeOnly, ⟨0, 0, 1⟩, .any⟩]⟩,
  ⟨0x250100, 4, 32, 1, 4, [⟨3, 3, .staged, ⟨0, 0, 1⟩, .any⟩, ⟨2, 2, .staged, ⟨0, 0, 1⟩, .any⟩, ⟨1, 1, .staged, ⟨0, 0, 1⟩, .any⟩, ⟨0, 0, .staged, ⟨0, 0, 1⟩, .any⟩]⟩,
  ⟨0x250104, 4, 32, 1, 4, [⟨31, 0, .paired, ⟨0, 0, 1⟩, .any⟩]⟩,
  ⟨0x250108, 4, 32, 1, 4, [⟨31, 0, .paired, ⟨0, 0, 1⟩, .any⟩]⟩,
  ⟨0x25010C, 4, 32, 1, 4, [⟨31, 0, .paired, ⟨1000000000, 0, 1⟩, (.within 1000 4294967295)⟩]⟩,
  ⟨0x250110, 4, 32, 1, 4, [⟨31, 0, .paired, ⟨100000000, 0, 1⟩, (.within 8 4294967295)⟩]⟩,
  ⟨0x250114, 4, 32, 1, 4, [⟨31, 16, .readOnly, ⟨0, 0, 1⟩, .any⟩, ⟨1, 1, .oneClears, ⟨0, 0, 1⟩, .any⟩, ⟨0, 0, .readOnly, ⟨0, 0, 1⟩, .any⟩]⟩,
  ⟨0x250118, 4, 32, 1, 4, [⟨31, 0, .readOnly, ⟨0, 0, 1⟩, .any⟩]⟩]

/-- Registers of the LOFT block (spec/22). -/
def RegMap.rowsLoft : List RegRow := [
  ⟨0x260000, 1, 4, 1, 4, [⟨9, 0, .immediate, ⟨0, 0, 1⟩, .any⟩]⟩,
  ⟨0x260004, 1, 4, 1, 4, [⟨31, 0, .readOnly, ⟨0, 0, 1⟩, .any⟩]⟩,
  ⟨0x260008, 1, 4, 1, 4, [⟨0, 0, .oneClears, ⟨0, 0, 1⟩, .any⟩]⟩,
  ⟨0x26000C, 1, 4, 1, 4, [⟨31, 0, .readOnly, ⟨0, 0, 1⟩, .any⟩]⟩,
  ⟨0x260010, 1, 4, 1, 4, [⟨31, 31, .writeOnly, ⟨0, 0, 1⟩, .any⟩, ⟨30, 30, .writeOnly, ⟨0, 0, 1⟩, .any⟩, ⟨29, 29, .writeOnly, ⟨0, 0, 1⟩, .any⟩, ⟨9, 0, .writeOnly, ⟨0, 0, 1⟩, .any⟩]⟩,
  ⟨0x260100, 64, 4, 1, 4, [⟨31, 0, .readOnly, ⟨0, 0, 1⟩, .any⟩]⟩,
  ⟨0x260400, 2, 8, 1, 4, [⟨31, 0, .paired, ⟨0, 0, 1⟩, .any⟩]⟩,
  ⟨0x260404, 2, 8, 1, 4, [⟨31, 0, .paired, ⟨1, 3999, 1⟩, (.within 1 4294967295)⟩]⟩,
  ⟨0x260418, 1, 4, 1, 4, [⟨31, 0, .paired, ⟨0, 0, 1⟩, .any⟩]⟩,
  ⟨0x26041C, 1, 4, 1, 4, [⟨31, 0, .paired, ⟨1, 0, 1⟩, (.within 1 4294967295)⟩]⟩,
  ⟨0x260480, 16, 8, 1, 4, [⟨31, 0, .paired, ⟨4294967200, 0, 1⟩, .any⟩]⟩,
  ⟨0x260484, 16, 8, 1, 4, [⟨31, 0, .paired, ⟨4, 0, 1⟩, (.within 1 4294967295)⟩]⟩]

/-- Registers of the ADP block (spec/13). -/
def RegMap.rowsAdp : List RegRow := [
  ⟨0x270000, 1, 4, 1, 4, [⟨7, 5, .staged, ⟨0, 0, 1⟩, .any⟩, ⟨4, 2, .staged, ⟨0, 0, 1⟩, .any⟩, ⟨1, 1, .staged, ⟨0, 0, 1⟩, .any⟩, ⟨0, 0, .staged, ⟨0, 0, 1⟩, .any⟩]⟩,
  ⟨0x270004, 1, 4, 1, 4, [⟨31, 0, .staged, ⟨0, 0, 1⟩, .any⟩]⟩,
  ⟨0x270008, 1, 4, 1, 4, [⟨31, 0, .staged, ⟨0, 0, 1⟩, .any⟩]⟩,
  ⟨0x27000C, 1, 4, 1, 4, [⟨15, 0, .staged, ⟨256, 0, 1⟩, (.within 1 65535)⟩]⟩,
  ⟨0x270010, 1, 4, 1, 4, [⟨31, 0, .staged, ⟨0, 0, 1⟩, (.lowZero 16)⟩]⟩,
  ⟨0x270014, 1, 4, 1, 4, [⟨31, 0, .staged, ⟨0, 0, 1⟩, .any⟩]⟩,
  ⟨0x270018, 1, 4, 1, 4, [⟨31, 16, .staged, ⟨1, 0, 1⟩, (.within 1 65535)⟩, ⟨12, 0, .staged, ⟨1, 0, 1⟩, (.within 1 4096)⟩]⟩,
  ⟨0x27001C, 1, 4, 1, 4, [⟨15, 0, .staged, ⟨4096, 0, 1⟩, (.within 1 65535)⟩]⟩,
  ⟨0x270020, 1, 4, 1, 4, [⟨31, 0, .staged, ⟨0, 0, 1⟩, (.lowZero 12)⟩]⟩,
  ⟨0x270024, 1, 4, 1, 4, [⟨31, 0, .staged, ⟨0, 0, 1⟩, .any⟩]⟩,
  ⟨0x270028, 1, 4, 1, 4, [⟨13, 0, .staged, ⟨0, 0, 1⟩, .any⟩]⟩,
  ⟨0x27002C, 1, 4, 1, 4, [⟨31, 16, .readOnly, ⟨0, 0, 1⟩, .any⟩, ⟨1, 0, .readOnly, ⟨0, 0, 1⟩, .any⟩]⟩,
  ⟨0x270030, 1, 4, 1, 4, [⟨31, 0, .readOnly, ⟨0, 0, 1⟩, .any⟩]⟩,
  ⟨0x270034, 1, 4, 1, 4, [⟨31, 0, .readOnly, ⟨0, 0, 1⟩, .any⟩]⟩,
  ⟨0x270038, 1, 4, 1, 4, [⟨31, 0, .readOnly, ⟨0, 0, 1⟩, .any⟩]⟩,
  ⟨0x27003C, 1, 4, 1, 4, [⟨0, 0, .writeOnly, ⟨0, 0, 1⟩, .any⟩]⟩,
  ⟨0x270100, 1, 4, 1, 4, [⟨21, 16, .staged, ⟨4, 0, 1⟩, (.within 2 63)⟩, ⟨15, 8, .staged, ⟨8, 0, 1⟩, (.within 1 255)⟩, ⟨5, 3, .staged, ⟨0, 0, 1⟩, .any⟩, ⟨2, 2, .staged, ⟨0, 0, 1⟩, .any⟩, ⟨1, 1, .staged, ⟨0, 0, 1⟩, .any⟩, ⟨0, 0, .staged, ⟨0, 0, 1⟩, .any⟩]⟩,
  ⟨0x270104, 1, 4, 1, 4, [⟨31, 0, .staged, ⟨0, 0, 1⟩, (.lowZero 5)⟩]⟩,
  ⟨0x270108, 1, 4, 1, 4, [⟨31, 0, .staged, ⟨0, 0, 1⟩, .any⟩]⟩,
  ⟨0x27010C, 1, 4, 1, 4, [⟨23, 0, .staged, ⟨1, 0, 1⟩, (.within 1 16777215)⟩]⟩,
  ⟨0x270110, 1, 4, 1, 4, [⟨31, 0, .staged, ⟨0, 0, 1⟩, (.lowZero 16)⟩]⟩,
  ⟨0x270114, 1, 4, 1, 4, [⟨31, 0, .staged, ⟨0, 0, 1⟩, .any⟩]⟩,
  ⟨0x270118, 1, 4, 1, 4, [⟨19, 0, .staged, ⟨1, 0, 1⟩, .any⟩]⟩,
  ⟨0x27011C, 1, 4, 1, 4, [⟨31, 0, .staged, ⟨0, 0, 1⟩, .any⟩]⟩,
  ⟨0x270120, 1, 4, 1, 4, [⟨31, 0, .staged, ⟨0, 0, 1⟩, .any⟩]⟩,
  ⟨0x270124, 1, 4, 1, 4, [⟨31, 0, .staged, ⟨0, 0, 1⟩, .any⟩]⟩,
  ⟨0x270128, 1, 4, 1, 4, [⟨31, 0, .staged, ⟨0, 0, 1⟩, .any⟩]⟩,
  ⟨0x27012C, 1, 4, 1, 4, [⟨27, 14, .staged, ⟨0, 0, 1⟩, .any⟩, ⟨13, 0, .staged, ⟨0, 0, 1⟩, .any⟩]⟩,
  ⟨0x270130, 1, 4, 1, 4, [⟨7, 0, .staged, ⟨1, 0, 1⟩, .any⟩]⟩,
  ⟨0x270134, 1, 4, 1, 4, [⟨31, 0, .staged, ⟨10000000, 0, 1⟩, (.within 1 4294967295)⟩]⟩,
  ⟨0x270138, 1, 4, 1, 4, [⟨15, 8, .readOnly, ⟨0, 0, 1⟩, .any⟩, ⟨2, 2, .readOnly, ⟨0, 0, 1⟩, .any⟩, ⟨1, 1, .oneClears, ⟨0, 0, 1⟩, .any⟩, ⟨0, 0, .readOnly, ⟨0, 0, 1⟩, .any⟩]⟩,
  ⟨0x27013C, 1, 4, 1, 4, [⟨31, 0, .readOnly, ⟨0, 0, 1⟩, .any⟩]⟩,
  ⟨0x270140, 1, 4, 1, 4, [⟨31, 0, .readOnly, ⟨0, 0, 1⟩, .any⟩]⟩,
  ⟨0x270150, 1, 4, 1, 4, [⟨31, 0, .readOnly, ⟨0, 0, 1⟩, .any⟩]⟩,
  ⟨0x270154, 1, 4, 1, 4, [⟨31, 0, .readOnly, ⟨0, 0, 1⟩, .any⟩]⟩,
  ⟨0x270158, 1, 4, 1, 4, [⟨31, 0, .readOnly, ⟨0, 0, 1⟩, .any⟩]⟩,
  ⟨0x27015C, 1, 4, 1, 4, [⟨31, 0, .readOnly, ⟨0, 0, 1⟩, .any⟩]⟩,
  ⟨0x270160, 1, 4, 1, 4, [⟨31, 0, .readOnly, ⟨0, 0, 1⟩, .any⟩]⟩,
  ⟨0x270164, 1, 4, 1, 4, [⟨31, 0, .readOnly, ⟨0, 0, 1⟩, .any⟩]⟩,
  ⟨0x270168, 1, 4, 1, 4, [⟨31, 0, .readOnly, ⟨0, 0, 1⟩, .any⟩]⟩] ++ [
  ⟨0x27016C, 1, 4, 1, 4, [⟨31, 0, .readOnly, ⟨0, 0, 1⟩, .any⟩]⟩,
  ⟨0x270170, 1, 4, 1, 4, [⟨0, 0, .writeOnly, ⟨0, 0, 1⟩, .any⟩]⟩,
  ⟨0x270200, 1, 4, 1, 4, [⟨7, 2, .staged, ⟨0, 0, 1⟩, .any⟩, ⟨1, 1, .staged, ⟨0, 0, 1⟩, .any⟩, ⟨0, 0, .staged, ⟨0, 0, 1⟩, .any⟩]⟩,
  ⟨0x270204, 1, 4, 1, 4, [⟨29, 16, .staged, ⟨0, 0, 1⟩, .any⟩, ⟨13, 0, .staged, ⟨0, 0, 1⟩, .any⟩]⟩,
  ⟨0x270208, 1, 4, 1, 4, [⟨31, 0, .staged, ⟨0, 0, 1⟩, (.lowZero 5)⟩]⟩,
  ⟨0x27020C, 1, 4, 1, 4, [⟨31, 0, .staged, ⟨0, 0, 1⟩, .any⟩]⟩,
  ⟨0x270210, 1, 4, 1, 4, [⟨12, 0, .staged, ⟨0, 0, 1⟩, .any⟩]⟩,
  ⟨0x270214, 1, 4, 1, 4, [⟨31, 16, .readOnly, ⟨0, 0, 1⟩, .any⟩, ⟨5, 3, .readOnly, ⟨0, 0, 1⟩, .any⟩, ⟨2, 2, .oneClears, ⟨0, 0, 1⟩, .any⟩, ⟨1, 1, .oneClears, ⟨0, 0, 1⟩, .any⟩, ⟨0, 0, .readOnly, ⟨0, 0, 1⟩, .any⟩]⟩,
  ⟨0x270220, 8, 4, 1, 4, [⟨31, 0, .readOnly, ⟨0, 0, 1⟩, .any⟩]⟩,
  ⟨0x270300, 4, 64, 1, 4, [⟨8, 6, .staged, ⟨0, 0, 1⟩, .any⟩, ⟨5, 4, .staged, ⟨1, 0, 1⟩, .any⟩, ⟨3, 2, .staged, ⟨2, 0, 1⟩, .any⟩, ⟨1, 1, .staged, ⟨0, 0, 1⟩, .any⟩, ⟨0, 0, .staged, ⟨0, 0, 1⟩, .any⟩]⟩,
  ⟨0x270304, 4, 64, 1, 4, [⟨31, 0, .staged, ⟨0, 0, 1⟩, (.lowZero 7)⟩]⟩,
  ⟨0x270308, 4, 64, 1, 4, [⟨31, 0, .staged, ⟨0, 0, 1⟩, .any⟩]⟩,
  ⟨0x27030C, 4, 64, 1, 4, [⟨15, 0, .staged, ⟨2, 0, 1⟩, (.within 2 65535)⟩]⟩,
  ⟨0x270310, 4, 64, 1, 4, [⟨13, 0, .staged, ⟨0, 0, 1⟩, .any⟩]⟩,
  ⟨0x270314, 4, 64, 1, 4, [⟨1, 1, .oneClears, ⟨0, 0, 1⟩, .any⟩, ⟨0, 0, .oneClears, ⟨0, 0, 1⟩, .any⟩]⟩,
  ⟨0x270318, 4, 64, 1, 4, [⟨31, 0, .readOnly, ⟨0, 0, 1⟩, .any⟩]⟩,
  ⟨0x270400, 4, 64, 16, 4, [⟨26, 16, .staged, ⟨0, 0, 1⟩, .any⟩, ⟨10, 0, .staged, ⟨1, 0, 1⟩, .any⟩]⟩]

/-- The block map of R18: first offset, last offset, rows. Offsets in no block are the two gaps of R19. -/
def RegMap.blocks : List (Nat × Nat × List RegRow) := [
  (0x0, 0xFFFF, RegMap.rowsGlb),
  (0x10000, 0x1FFFF, RegMap.rowsClk),
  (0x20000, 0x2FFFF, RegMap.rowsPwr),
  (0x30000, 0x3FFFF, RegMap.rowsBoot),
  (0x40000, 0x4FFFF, RegMap.rowsPos),
  (0x50000, 0x7FFFF, RegMap.rowsPsq),
  (0x80000, 0x8FFFF, RegMap.rowsLane),
  (0x90000, 0x9FFFF, RegMap.rowsCxp),
  (0xA0000, 0xBFFFF, RegMap.rowsLpipe),
  (0xC0000, 0xCFFFF, RegMap.rowsCore),
  (0xD0000, 0xDFFFF, RegMap.rowsFlk),
  (0xE0000, 0xEFFFF, RegMap.rowsCel),
  (0xF0000, 0xFFFFF, RegMap.rowsPart),
  (0x100000, 0x13FFFF, RegMap.rowsRing),
  (0x180000, 0x1FFFFF, RegMap.rowsDbell),
  (0x200000, 0x20FFFF, RegMap.rowsStg),
  (0x210000, 0x21FFFF, RegMap.rowsSdg),
  (0x220000, 0x22FFFF, RegMap.rowsFld),
  (0x230000, 0x23FFFF, RegMap.rowsAud),
  (0x240000, 0x24FFFF, RegMap.rowsGts),
  (0x250000, 0x25FFFF, RegMap.rowsNtm),
  (0x260000, 0x26FFFF, RegMap.rowsLoft),
  (0x270000, 0x27FFFF, RegMap.rowsAdp)]

/-- Copy index of `off` in a row, if the row has a copy there. -/
def RegRow.index (r : RegRow) (off : Nat) : Option Nat :=
  if off < r.off then none
  else
    let d := off - r.off
    let i := d / r.stride1
    let e := d % r.stride1
    let j := e / r.stride2
    if r.count1 = 1 then
      (if d / r.stride2 < r.count2 && d % r.stride2 == 0 then some 0 else none)
    else if i < r.count1 && j < r.count2 && e % r.stride2 == 0 then some i
    else none

/-- The row and copy index at an aligned offset inside a list of rows. -/
def RegMap.findRow (off : Nat) : List RegRow → Option (RegRow × Nat)
  | [] => none
  | r :: rs => match r.index off with
    | some i => some (r, i)
    | none => RegMap.findRow off rs

/-- The rows of the block that holds `off`; none in the gaps of R19. -/
def RegMap.blockOf (off : Nat) : List (Nat × Nat × List RegRow) → Option (List RegRow)
  | [] => none
  | (lo, hi, rows) :: bs => if lo ≤ off && off ≤ hi then some rows else RegMap.blockOf off bs

/-- The register at a BAR0 offset: its row and copy index; none where R5 or R19 has no register. -/
def RegMap.lookup (off : Nat) : Option (RegRow × Nat) :=
  match RegMap.blockOf off RegMap.blocks with
  | some rows => RegMap.findRow off rows
  | none => none

/-- Reset value of a field in copy `i`. -/
def FieldRow.resetAt (f : FieldRow) (i : Nat) : Nat :=
  f.reset.base + f.reset.step * (i / f.reset.group)

/-- Mask of a field in its register. -/
def FieldRow.mask (f : FieldRow) : Nat := (2 ^ (f.hi - f.lo + 1) - 1) * 2 ^ f.lo

/-- Reset value of a whole register, from the tables; 0 where no register is defined. -/
def regDefault (off : Nat) : BitVec 32 :=
  match RegMap.lookup off with
  | some (r, i) => BitVec.ofNat 32 (r.fields.foldl (fun a f => a + f.resetAt i * 2 ^ f.lo) 0)
  | none => 0

end Sys2Proof.Machine
end

