-- ==== Sys2Proof/Machine/Fields.lean ====
section
/-! DEFINITION. Machine/Fields.lean: a name for the BAR0 offset of every register and for every field of it, in
namespace R, as the register tables of spec/ name them (block map of R18). A numbered register takes its number or
numbers as arguments. -/

namespace Sys2Proof.Machine

/-- A field of a register: BAR0 offset, high bit, low bit. -/
structure Fld where
  off : Nat
  hi : Nat
  lo : Nat
deriving DecidableEq, Repr

namespace R


/-! ### GLB, spec/01 -/

def GLB_ID : Nat := 0x0
def GLB_ID.DEVICE : Fld := ⟨GLB_ID, 31, 16⟩
def GLB_ID.VENDOR : Fld := ⟨GLB_ID, 15, 0⟩
def GLB_VERSION : Nat := 0x4
def GLB_VERSION.COATED : Fld := ⟨GLB_VERSION, 8, 8⟩
def GLB_VERSION.STEP : Fld := ⟨GLB_VERSION, 7, 0⟩
def GLB_SERIAL_LO : Nat := 0x8
def GLB_SERIAL_LO.SERIAL : Fld := ⟨GLB_SERIAL_LO, 31, 0⟩
def GLB_SERIAL_HI : Nat := 0xC
def GLB_SERIAL_HI.SERIAL : Fld := ⟨GLB_SERIAL_HI, 31, 0⟩
def GLB_STATUS : Nat := 0x10
def GLB_STATUS.LINE_STOP : Fld := ⟨GLB_STATUS, 2, 2⟩
def GLB_STATUS.RECOVERY : Fld := ⟨GLB_STATUS, 1, 1⟩
def GLB_STATUS.READY : Fld := ⟨GLB_STATUS, 0, 0⟩
def GLB_CORE_MAP : Nat := 0x14
def GLB_CORE_MAP.IN_SERVICE : Fld := ⟨GLB_CORE_MAP, 31, 16⟩
def GLB_CORE_MAP.PRESENT : Fld := ⟨GLB_CORE_MAP, 15, 0⟩
def GLB_ACCESS_ERR : Nat := 0x18
def GLB_ACCESS_ERR.CLEAR : Fld := ⟨GLB_ACCESS_ERR, 31, 31⟩
def GLB_ACCESS_ERR.COUNT : Fld := ⟨GLB_ACCESS_ERR, 15, 0⟩
def GLB_ACCESS_ADDR : Nat := 0x1C
def GLB_ACCESS_ADDR.OFFSET : Fld := ⟨GLB_ACCESS_ADDR, 21, 0⟩
def GLB_SCRATCH : Nat := 0x20
def GLB_SCRATCH.VALUE : Fld := ⟨GLB_SCRATCH, 31, 0⟩

/-! ### CLK, spec/21 -/

def CLK_CFG : Nat := 0x10000
def CLK_CFG.LOST_MS : Fld := ⟨CLK_CFG, 15, 8⟩
def CLK_CFG.PREFER : Fld := ⟨CLK_CFG, 1, 1⟩
def CLK_CFG.AUTO : Fld := ⟨CLK_CFG, 0, 0⟩
def CLK_CTL : Nat := 0x10004
def CLK_CTL.SWITCH : Fld := ⟨CLK_CTL, 31, 31⟩
def CLK_CTL.TARGET_REC : Fld := ⟨CLK_CTL, 3, 3⟩
def CLK_CTL.TARGET_PORT : Fld := ⟨CLK_CTL, 2, 0⟩
def CLK_STATUS : Nat := 0x10008
def CLK_STATUS.REC_READY : Fld := ⟨CLK_STATUS, 19, 12⟩
def CLK_STATUS.XTAL_READY : Fld := ⟨CLK_STATUS, 11, 11⟩
def CLK_STATUS.SRC_PORT : Fld := ⟨CLK_STATUS, 10, 8⟩
def CLK_STATUS.SRC : Fld := ⟨CLK_STATUS, 7, 7⟩
def CLK_STATUS.DT_SUSPECT : Fld := ⟨CLK_STATUS, 4, 4⟩
def CLK_STATUS.SW_REFUSED : Fld := ⟨CLK_STATUS, 3, 3⟩
def CLK_STATUS.LOST_SEEN : Fld := ⟨CLK_STATUS, 2, 2⟩
def CLK_STATUS.SRC_LOST : Fld := ⟨CLK_STATUS, 1, 1⟩
def CLK_STATUS.LOCKED : Fld := ⟨CLK_STATUS, 0, 0⟩
def CLK_XTAL : Nat := 0x1000C
def CLK_XTAL.AMP_MV : Fld := ⟨CLK_XTAL, 11, 0⟩
def CLK_CNT_LOST : Nat := 0x10010
def CLK_CNT_LOST.N : Fld := ⟨CLK_CNT_LOST, 31, 0⟩
def CLK_CNT_SWITCH : Nat := 0x10014
def CLK_CNT_SWITCH.N : Fld := ⟨CLK_CNT_SWITCH, 31, 0⟩
def CLK_CNT_REFUSED : Nat := 0x10018
def CLK_CNT_REFUSED.N : Fld := ⟨CLK_CNT_REFUSED, 31, 0⟩
def CLK_COAST_NS : Nat := 0x1001C
def CLK_COAST_NS.N : Fld := ⟨CLK_COAST_NS, 31, 0⟩
def CLK_CNT_CLEAR : Nat := 0x10020
def CLK_CNT_CLEAR.CLEAR : Fld := ⟨CLK_CNT_CLEAR, 0, 0⟩
def CLK_FREQ (i : Nat) : Nat := 0x10040 + i * 4
def CLK_FREQ.MHZ (i : Nat) : Fld := ⟨CLK_FREQ i, 11, 0⟩

/-! ### PWR, spec/21 -/

def PWR_CAP : Nat := 0x20000
def PWR_CAP.CAP_W : Fld := ⟨PWR_CAP, 8, 0⟩
def PWR_CFG : Nat := 0x20004
def PWR_CFG.HINTS_EN : Fld := ⟨PWR_CFG, 1, 1⟩
def PWR_CFG.GOV_EN : Fld := ⟨PWR_CFG, 0, 0⟩
def PWR_QUAD_CFG (i : Nat) : Nat := 0x20010 + i * 4
def PWR_QUAD_CFG.DEEP_EN (i : Nat) : Fld := ⟨PWR_QUAD_CFG i, 17, 17⟩
def PWR_QUAD_CFG.SLEEP_EN (i : Nat) : Fld := ⟨PWR_QUAD_CFG i, 16, 16⟩
def PWR_QUAD_CFG.FMAX (i : Nat) : Fld := ⟨PWR_QUAD_CFG i, 12, 8⟩
def PWR_QUAD_CFG.FMIN (i : Nat) : Fld := ⟨PWR_QUAD_CFG i, 4, 0⟩
def PWR_STATUS : Nat := 0x20040
def PWR_STATUS.QSTATE : Fld := ⟨PWR_STATUS, 15, 8⟩
def PWR_STATUS.GOV_FORCED : Fld := ⟨PWR_STATUS, 5, 5⟩
def PWR_STATUS.VR_FAULT : Fld := ⟨PWR_STATUS, 4, 4⟩
def PWR_STATUS.VR_ALERT : Fld := ⟨PWR_STATUS, 3, 3⟩
def PWR_STATUS.ALARM : Fld := ⟨PWR_STATUS, 2, 2⟩
def PWR_STATUS.THROTTLE : Fld := ⟨PWR_STATUS, 1, 1⟩
def PWR_STATUS.CAP_UNMET : Fld := ⟨PWR_STATUS, 0, 0⟩
def PWR_POWER : Nat := 0x20044
def PWR_POWER.MW : Fld := ⟨PWR_POWER, 31, 0⟩
def PWR_ENERGY_LO : Nat := 0x20048
def PWR_ENERGY_LO.N : Fld := ⟨PWR_ENERGY_LO, 31, 0⟩
def PWR_ENERGY_HI : Nat := 0x2004C
def PWR_ENERGY_HI.N : Fld := ⟨PWR_ENERGY_HI, 31, 0⟩
def PWR_CNT_ALERT : Nat := 0x20050
def PWR_CNT_ALERT.N : Fld := ⟨PWR_CNT_ALERT, 31, 0⟩
def PWR_TEMP (i : Nat) : Nat := 0x20080 + i * 4
def PWR_TEMP.PEAK (i : Nat) : Fld := ⟨PWR_TEMP i, 15, 8⟩
def PWR_TEMP.TEMP (i : Nat) : Fld := ⟨PWR_TEMP i, 7, 0⟩

/-! ### BOOT, spec/23 -/

def BOOT_STATUS : Nat := 0x30000
def BOOT_STATUS.REASON : Fld := ⟨BOOT_STATUS, 11, 8⟩
def BOOT_STATUS.FUSE_BUSY : Fld := ⟨BOOT_STATUS, 3, 3⟩
def BOOT_STATUS.FLASH_BUSY : Fld := ⟨BOOT_STATUS, 2, 2⟩
def BOOT_STATUS.CFG_LOST : Fld := ⟨BOOT_STATUS, 1, 1⟩
def BOOT_STATUS.RECOVERY : Fld := ⟨BOOT_STATUS, 0, 0⟩
def BOOT_FW : Nat := 0x30004
def BOOT_FW.ROLLBACK : Fld := ⟨BOOT_FW, 22, 16⟩
def BOOT_FW.SVN : Fld := ⟨BOOT_FW, 15, 8⟩
def BOOT_FW.SIGNER : Fld := ⟨BOOT_FW, 5, 4⟩
def BOOT_FW.REVOKED : Fld := ⟨BOOT_FW, 3, 0⟩
def BOOT_FW_VER : Nat := 0x30008
def BOOT_FW_VER.RELEASE : Fld := ⟨BOOT_FW_VER, 31, 0⟩
def BOOT_FW_DIGEST (i : Nat) : Nat := 0x30010 + i * 4
def BOOT_FW_DIGEST.N (i : Nat) : Fld := ⟨BOOT_FW_DIGEST i, 31, 0⟩
def BOOT_PUSH_ADDR_LO : Nat := 0x30040
def BOOT_PUSH_ADDR_LO.ADDR : Fld := ⟨BOOT_PUSH_ADDR_LO, 31, 0⟩
def BOOT_PUSH_ADDR_HI : Nat := 0x30044
def BOOT_PUSH_ADDR_HI.ADDR : Fld := ⟨BOOT_PUSH_ADDR_HI, 31, 0⟩
def BOOT_PUSH_LEN : Nat := 0x30048
def BOOT_PUSH_LEN.BYTES : Fld := ⟨BOOT_PUSH_LEN, 21, 0⟩
def BOOT_PUSH_CTL : Nat := 0x3004C
def BOOT_PUSH_CTL.GO : Fld := ⟨BOOT_PUSH_CTL, 0, 0⟩
def BOOT_PUSH_STATUS : Nat := 0x30050
def BOOT_PUSH_STATUS.BUSY : Fld := ⟨BOOT_PUSH_STATUS, 5, 5⟩
def BOOT_PUSH_STATUS.DONE : Fld := ⟨BOOT_PUSH_STATUS, 4, 4⟩
def BOOT_PUSH_STATUS.CODE : Fld := ⟨BOOT_PUSH_STATUS, 3, 0⟩
def BOOT_CTL : Nat := 0x30060
def BOOT_CTL.KEY : Fld := ⟨BOOT_CTL, 31, 24⟩
def BOOT_CTL.RESET : Fld := ⟨BOOT_CTL, 0, 0⟩
def BOOT_CERT_CTL : Nat := 0x30070
def BOOT_CERT_CTL.WORD : Fld := ⟨BOOT_CERT_CTL, 13, 2⟩
def BOOT_CERT_CTL.CERT : Fld := ⟨BOOT_CERT_CTL, 1, 0⟩
def BOOT_CERT_LEN : Nat := 0x30074
def BOOT_CERT_LEN.BYTES : Fld := ⟨BOOT_CERT_LEN, 14, 0⟩
def BOOT_CERT_DATA : Nat := 0x30078
def BOOT_CERT_DATA.N : Fld := ⟨BOOT_CERT_DATA, 31, 0⟩

/-! ### POS, spec/02 -/

def POS_CTL : Nat := 0x40000
def POS_CTL.REZERO : Fld := ⟨POS_CTL, 4, 4⟩
def POS_CTL.SOURCE : Fld := ⟨POS_CTL, 3, 2⟩
def POS_CTL.ROLE : Fld := ⟨POS_CTL, 1, 0⟩
def POS_STATUS : Nat := 0x40004
def POS_STATUS.HAVE_BASE : Fld := ⟨POS_STATUS, 9, 9⟩
def POS_STATUS.ALIGNED : Fld := ⟨POS_STATUS, 8, 8⟩
def POS_STATUS.FAILED_OVER : Fld := ⟨POS_STATUS, 7, 7⟩
def POS_STATUS.ROLE_NOW : Fld := ⟨POS_STATUS, 6, 5⟩
def POS_STATUS.EXTRAP : Fld := ⟨POS_STATUS, 4, 4⟩
def POS_STATUS.SPD_MODE : Fld := ⟨POS_STATUS, 3, 3⟩
def POS_STATUS.DT_SUSPECT : Fld := ⟨POS_STATUS, 2, 2⟩
def POS_STATUS.REV_EXCESS : Fld := ⟨POS_STATUS, 1, 1⟩
def POS_STATUS.POS_LOST : Fld := ⟨POS_STATUS, 0, 0⟩
def POS_HOLD : Nat := 0x40008
def POS_HOLD.FAIL_US : Fld := ⟨POS_HOLD, 31, 16⟩
def POS_HOLD.HOLD_US : Fld := ⟨POS_HOLD, 15, 0⟩
def POS_SPD_CO : Nat := 0x4000C
def POS_SPD_CO.VALUE : Fld := ⟨POS_SPD_CO, 23, 0⟩
def POS_SPD_HYST : Nat := 0x40010
def POS_SPD_HYST.VALUE : Fld := ⟨POS_SPD_HYST, 23, 0⟩
def POS_SPD_WIN : Nat := 0x40014
def POS_SPD_WIN.ZERO_MS : Fld := ⟨POS_SPD_WIN, 27, 20⟩
def POS_SPD_WIN.PCOUNT : Fld := ⟨POS_SPD_WIN, 19, 10⟩
def POS_SPD_WIN.FREQ_READS : Fld := ⟨POS_SPD_WIN, 9, 0⟩
def POS_REV_LIMIT : Nat := 0x40018
def POS_REV_LIMIT.VALUE : Fld := ⟨POS_REV_LIMIT, 23, 0⟩
def POS_BCAST : Nat := 0x4001C
def POS_BCAST.STANDBY_ID : Fld := ⟨POS_BCAST, 13, 8⟩
def POS_BCAST.DIV : Fld := ⟨POS_BCAST, 7, 0⟩
def POS_ALIGN_TOL : Nat := 0x40020
def POS_ALIGN_TOL.VALUE : Fld := ⟨POS_ALIGN_TOL, 23, 0⟩
def POS_SNAP_CTL : Nat := 0x40024
def POS_SNAP_CTL.TAKE : Fld := ⟨POS_SNAP_CTL, 0, 0⟩
def POS_SNAP_WPOS_LO : Nat := 0x40028
def POS_SNAP_WPOS_LO.N : Fld := ⟨POS_SNAP_WPOS_LO, 31, 0⟩
def POS_SNAP_WPOS_HI : Nat := 0x4002C
def POS_SNAP_WPOS_HI.N : Fld := ⟨POS_SNAP_WPOS_HI, 31, 0⟩
def POS_SNAP_DTIME_LO : Nat := 0x40030
def POS_SNAP_DTIME_LO.N : Fld := ⟨POS_SNAP_DTIME_LO, 31, 0⟩
def POS_SNAP_DTIME_HI : Nat := 0x40034
def POS_SNAP_DTIME_HI.N : Fld := ⟨POS_SNAP_DTIME_HI, 31, 0⟩
def POS_SNAP_SPEED : Nat := 0x40038
def POS_SNAP_SPEED.N : Fld := ⟨POS_SNAP_SPEED, 31, 0⟩
def POS_BACKLOG : Nat := 0x4003C
def POS_BACKLOG.N : Fld := ⟨POS_BACKLOG, 31, 0⟩
def POS_FAILOVER_STEP : Nat := 0x40040
def POS_FAILOVER_STEP.N : Fld := ⟨POS_FAILOVER_STEP, 31, 0⟩
def POS_E_CFG (i : Nat) : Nat := 0x40100 + i * 64
def POS_E_CFG.DIR_INVERT (i : Nat) : Fld := ⟨POS_E_CFG i, 12, 12⟩
def POS_E_CFG.CHK (i : Nat) : Fld := ⟨POS_E_CFG i, 11, 10⟩
def POS_E_CFG.ERR_POL (i : Nat) : Fld := ⟨POS_E_CFG i, 9, 9⟩
def POS_E_CFG.ERRBIT (i : Nat) : Fld := ⟨POS_E_CFG i, 8, 8⟩
def POS_E_CFG.CODE (i : Nat) : Fld := ⟨POS_E_CFG i, 7, 7⟩
def POS_E_CFG.WORDLEN (i : Nat) : Fld := ⟨POS_E_CFG i, 6, 1⟩
def POS_E_CFG.ENABLE (i : Nat) : Fld := ⟨POS_E_CFG i, 0, 0⟩
def POS_E_TIMING (i : Nat) : Nat := 0x40104 + i * 64
def POS_E_TIMING.RECOV (i : Nat) : Fld := ⟨POS_E_TIMING i, 21, 10⟩
def POS_E_TIMING.CLKDIV (i : Nat) : Fld := ⟨POS_E_TIMING i, 9, 0⟩
def POS_E_REQ (i : Nat) : Nat := 0x40108 + i * 64
def POS_E_REQ.PERIOD (i : Nat) : Fld := ⟨POS_E_REQ i, 19, 0⟩
def POS_E_LAT (i : Nat) : Nat := 0x4010C + i * 64
def POS_E_LAT.LAT_NS (i : Nat) : Fld := ⟨POS_E_LAT i, 15, 0⟩
def POS_E_SCALE_INT (i : Nat) : Nat := 0x40110 + i * 64
def POS_E_SCALE_INT.N (i : Nat) : Fld := ⟨POS_E_SCALE_INT i, 31, 0⟩
def POS_E_SCALE_FRAC (i : Nat) : Nat := 0x40114 + i * 64
def POS_E_SCALE_FRAC.N (i : Nat) : Fld := ⟨POS_E_SCALE_FRAC i, 31, 0⟩
def POS_E_JUMP_TOL (i : Nat) : Nat := 0x40118 + i * 64
def POS_E_JUMP_TOL.NM (i : Nat) : Fld := ⟨POS_E_JUMP_TOL i, 23, 0⟩
def POS_E_WORD_LO (i : Nat) : Nat := 0x4011C + i * 64
def POS_E_WORD_LO.N (i : Nat) : Fld := ⟨POS_E_WORD_LO i, 31, 0⟩
def POS_E_WORD_HI (i : Nat) : Nat := 0x40120 + i * 64
def POS_E_WORD_HI.LAST (i : Nat) : Fld := ⟨POS_E_WORD_HI i, 18, 16⟩
def POS_E_WORD_HI.WORD (i : Nat) : Fld := ⟨POS_E_WORD_HI i, 15, 0⟩
def POS_E_ERR (i : Nat) : Nat := 0x40124 + i * 64
def POS_E_ERR.CLEAR (i : Nat) : Fld := ⟨POS_E_ERR i, 31, 31⟩
def POS_E_ERR.STUCK (i : Nat) : Fld := ⟨POS_E_ERR i, 29, 24⟩
def POS_E_ERR.JUMP (i : Nat) : Fld := ⟨POS_E_ERR i, 23, 18⟩
def POS_E_ERR.NORESP (i : Nat) : Fld := ⟨POS_E_ERR i, 17, 12⟩
def POS_E_ERR.ERRB (i : Nat) : Fld := ⟨POS_E_ERR i, 11, 6⟩
def POS_E_ERR.CHK (i : Nat) : Fld := ⟨POS_E_ERR i, 5, 0⟩

/-! ### PSQ, spec/03 -/

def PSQ_CTL : Nat := 0x50000
def PSQ_CTL.REAPPLY : Fld := ⟨PSQ_CTL, 1, 1⟩
def PSQ_CTL.ENABLE : Fld := ⟨PSQ_CTL, 0, 0⟩
def PSQ_STATUS : Nat := 0x50004
def PSQ_STATUS.SLIP : Fld := ⟨PSQ_STATUS, 5, 5⟩
def PSQ_STATUS.EDGEQ_FULL : Fld := ⟨PSQ_STATUS, 4, 4⟩
def PSQ_STATUS.LEAD_SHORT : Fld := ⟨PSQ_STATUS, 3, 3⟩
def PSQ_STATUS.PART_FULL : Fld := ⟨PSQ_STATUS, 2, 2⟩
def PSQ_STATUS.OVERSPEED : Fld := ⟨PSQ_STATUS, 1, 1⟩
def PSQ_STATUS.RUNNING : Fld := ⟨PSQ_STATUS, 0, 0⟩
def PSQ_VMAX : Nat := 0x50008
def PSQ_VMAX.VALUE : Fld := ⟨PSQ_VMAX, 31, 0⟩
def PSQ_CORR : Nat := 0x5000C
def PSQ_CORR.THRESH_NS : Fld := ⟨PSQ_CORR, 15, 0⟩
def PSQ_CNT_SLIP : Nat := 0x50010
def PSQ_CNT_SLIP.N : Fld := ⟨PSQ_CNT_SLIP, 31, 0⟩
def PSQ_CNT_STALE : Nat := 0x50014
def PSQ_CNT_STALE.N : Fld := ⟨PSQ_CNT_STALE, 31, 0⟩
def PSQ_CNT_LEAD_SHORT : Nat := 0x50018
def PSQ_CNT_LEAD_SHORT.N : Fld := ⟨PSQ_CNT_LEAD_SHORT, 31, 0⟩
def PSQ_CNT_MERGED : Nat := 0x5001C
def PSQ_CNT_MERGED.N : Fld := ⟨PSQ_CNT_MERGED, 31, 0⟩
def PSQ_CNT_DELAYED : Nat := 0x50020
def PSQ_CNT_DELAYED.N : Fld := ⟨PSQ_CNT_DELAYED, 31, 0⟩
def PSQ_CNT_PART_OVF : Nat := 0x50024
def PSQ_CNT_PART_OVF.N : Fld := ⟨PSQ_CNT_PART_OVF, 31, 0⟩
def PSQ_CNT_CLOSE_NONE : Nat := 0x50028
def PSQ_CNT_CLOSE_NONE.N : Fld := ⟨PSQ_CNT_CLOSE_NONE, 31, 0⟩
def PSQ_CNT_CLEAR : Nat := 0x5002C
def PSQ_CNT_CLEAR.CLEAR : Fld := ⟨PSQ_CNT_CLEAR, 0, 0⟩
def PSQ_TRK_CFG (i : Nat) : Nat := 0x50100 + i * 4
def PSQ_TRK_CFG.LEN (i : Nat) : Fld := ⟨PSQ_TRK_CFG i, 28, 16⟩
def PSQ_TRK_CFG.BASE (i : Nat) : Fld := ⟨PSQ_TRK_CFG i, 15, 0⟩
def PSQ_TRK_PART (i : Nat) : Nat := 0x501E0 + i * 4
def PSQ_TRK_PART.LEN (i : Nat) : Fld := ⟨PSQ_TRK_PART i, 28, 16⟩
def PSQ_TRK_PART.BASE (i : Nat) : Fld := ⟨PSQ_TRK_PART i, 15, 0⟩
def PSQ_LANE_CFG (i : Nat) : Nat := 0x50400 + i * 32
def PSQ_LANE_CFG.CHANNEL (i : Nat) : Fld := ⟨PSQ_LANE_CFG i, 7, 4⟩
def PSQ_LANE_CFG.EJECT (i : Nat) : Fld := ⟨PSQ_LANE_CFG i, 2, 1⟩
def PSQ_LANE_CFG.ENABLE (i : Nat) : Fld := ⟨PSQ_LANE_CFG i, 0, 0⟩
def PSQ_LANE_COLS (i : Nat) : Nat := 0x50404 + i * 32
def PSQ_LANE_COLS.CAMERA (i : Nat) : Fld := ⟨PSQ_LANE_COLS i, 29, 26⟩
def PSQ_LANE_COLS.LAST (i : Nat) : Fld := ⟨PSQ_LANE_COLS i, 25, 13⟩
def PSQ_LANE_COLS.FIRST (i : Nat) : Fld := ⟨PSQ_LANE_COLS i, 12, 0⟩
def PSQ_LANE_DEC_OFF (i : Nat) : Nat := 0x50408 + i * 32
def PSQ_LANE_DEC_OFF.N (i : Nat) : Fld := ⟨PSQ_LANE_DEC_OFF i, 31, 0⟩
def PSQ_LANE_ON_OFF (i : Nat) : Nat := 0x5040C + i * 32
def PSQ_LANE_ON_OFF.N (i : Nat) : Fld := ⟨PSQ_LANE_ON_OFF i, 31, 0⟩
def PSQ_LANE_OFF_OFF (i : Nat) : Nat := 0x50410 + i * 32
def PSQ_LANE_OFF_OFF.N (i : Nat) : Fld := ⟨PSQ_LANE_OFF_OFF i, 31, 0⟩
def PSQ_Q_MODE (i : Nat) : Nat := 0x50C00 + i * 16
def PSQ_Q_MODE.ADV_US (i : Nat) : Fld := ⟨PSQ_Q_MODE i, 31, 16⟩
def PSQ_Q_MODE.DURATION (i : Nat) : Fld := ⟨PSQ_Q_MODE i, 0, 0⟩
def PSQ_Q_PULSE (i : Nat) : Nat := 0x50C04 + i * 16
def PSQ_Q_PULSE.PULSE_US (i : Nat) : Fld := ⟨PSQ_Q_PULSE i, 19, 0⟩
def PSQ_Q_MINOFF (i : Nat) : Nat := 0x50C08 + i * 16
def PSQ_Q_MINOFF.MINOFF_US (i : Nat) : Fld := ⟨PSQ_Q_MINOFF i, 19, 0⟩
def PSQ_TBL_IDX : Nat := 0x51000
def PSQ_TBL_IDX.INDEX : Fld := ⟨PSQ_TBL_IDX, 15, 0⟩
def PSQ_TBL_DATA (i : Nat) : Nat := 0x51004 + i * 4
def PSQ_TBL_DATA.N (i : Nat) : Fld := ⟨PSQ_TBL_DATA i, 31, 0⟩

/-! ### LANE, spec/04 -/

def LANE_L_CFG (i : Nat) : Nat := 0x80000 + i * 64
def LANE_L_CFG.LOA_LIMIT (i : Nat) : Fld := ⟨LANE_L_CFG i, 21, 18⟩
def LANE_L_CFG.ACQ_COMMAS (i : Nat) : Fld := ⟨LANE_L_CFG i, 17, 15⟩
def LANE_L_CFG.TX_SQUELCH (i : Nat) : Fld := ⟨LANE_L_CFG i, 14, 14⟩
def LANE_L_CFG.PATTERN (i : Nat) : Fld := ⟨LANE_L_CFG i, 13, 12⟩
def LANE_L_CFG.LOOP (i : Nat) : Fld := ⟨LANE_L_CFG i, 11, 10⟩
def LANE_L_CFG.TX_INV (i : Nat) : Fld := ⟨LANE_L_CFG i, 9, 9⟩
def LANE_L_CFG.RX_INV (i : Nat) : Fld := ⟨LANE_L_CFG i, 8, 8⟩
def LANE_L_CFG.RATE (i : Nat) : Fld := ⟨LANE_L_CFG i, 4, 1⟩
def LANE_L_CFG.ENABLE (i : Nat) : Fld := ⟨LANE_L_CFG i, 0, 0⟩
def LANE_L_STATUS (i : Nat) : Nat := 0x80004 + i * 64
def LANE_L_STATUS.RATE_NOW (i : Nat) : Fld := ⟨LANE_L_STATUS i, 11, 8⟩
def LANE_L_STATUS.PAT_LOCK (i : Nat) : Fld := ⟨LANE_L_STATUS i, 7, 7⟩
def LANE_L_STATUS.LOA_SEEN (i : Nat) : Fld := ⟨LANE_L_STATUS i, 6, 6⟩
def LANE_L_STATUS.CDR_LOCK (i : Nat) : Fld := ⟨LANE_L_STATUS i, 5, 5⟩
def LANE_L_STATUS.SIG_DET (i : Nat) : Fld := ⟨LANE_L_STATUS i, 4, 4⟩
def LANE_L_STATUS.STATE (i : Nat) : Fld := ⟨LANE_L_STATUS i, 2, 0⟩
def LANE_L_ERR (i : Nat) : Nat := 0x80008 + i * 64
def LANE_L_ERR.DISP (i : Nat) : Fld := ⟨LANE_L_ERR i, 31, 16⟩
def LANE_L_ERR.CV (i : Nat) : Fld := ⟨LANE_L_ERR i, 15, 0⟩
def LANE_L_EVT (i : Nat) : Nat := 0x8000C + i * 64
def LANE_L_EVT.CLEAR (i : Nat) : Fld := ⟨LANE_L_EVT i, 31, 31⟩
def LANE_L_EVT.FE_SLIP (i : Nat) : Fld := ⟨LANE_L_EVT i, 23, 16⟩
def LANE_L_EVT.LOA (i : Nat) : Fld := ⟨LANE_L_EVT i, 15, 8⟩
def LANE_L_EVT.MIS_COMMA (i : Nat) : Fld := ⟨LANE_L_EVT i, 7, 0⟩
def LANE_L_CG_LO (i : Nat) : Nat := 0x80010 + i * 64
def LANE_L_CG_LO.N (i : Nat) : Fld := ⟨LANE_L_CG_LO i, 31, 0⟩
def LANE_L_CG_HI (i : Nat) : Nat := 0x80014 + i * 64
def LANE_L_CG_HI.N (i : Nat) : Fld := ⟨LANE_L_CG_HI i, 15, 0⟩
def LANE_L_PATERR (i : Nat) : Nat := 0x80018 + i * 64
def LANE_L_PATERR.N (i : Nat) : Fld := ⟨LANE_L_PATERR i, 31, 0⟩
def LANE_L_EYE_CTL (i : Nat) : Nat := 0x8001C + i * 64
def LANE_L_EYE_CTL.START (i : Nat) : Fld := ⟨LANE_L_EYE_CTL i, 31, 31⟩
def LANE_L_EYE_CTL.ABORT (i : Nat) : Fld := ⟨LANE_L_EYE_CTL i, 30, 30⟩
def LANE_L_EYE_CTL.DWELL (i : Nat) : Fld := ⟨LANE_L_EYE_CTL i, 22, 18⟩
def LANE_L_EYE_CTL.VOFF (i : Nat) : Fld := ⟨LANE_L_EYE_CTL i, 17, 9⟩
def LANE_L_EYE_CTL.PHASE (i : Nat) : Fld := ⟨LANE_L_EYE_CTL i, 6, 0⟩
def LANE_L_EYE_STAT (i : Nat) : Nat := 0x80020 + i * 64
def LANE_L_EYE_STAT.BITS_HI (i : Nat) : Fld := ⟨LANE_L_EYE_STAT i, 15, 8⟩
def LANE_L_EYE_STAT.RANGE (i : Nat) : Fld := ⟨LANE_L_EYE_STAT i, 6, 6⟩
def LANE_L_EYE_STAT.ABORTED (i : Nat) : Fld := ⟨LANE_L_EYE_STAT i, 5, 5⟩
def LANE_L_EYE_STAT.INVALID (i : Nat) : Fld := ⟨LANE_L_EYE_STAT i, 4, 4⟩
def LANE_L_EYE_STAT.OVERRUN (i : Nat) : Fld := ⟨LANE_L_EYE_STAT i, 3, 3⟩
def LANE_L_EYE_STAT.NOLOCK (i : Nat) : Fld := ⟨LANE_L_EYE_STAT i, 2, 2⟩
def LANE_L_EYE_STAT.DONE (i : Nat) : Fld := ⟨LANE_L_EYE_STAT i, 1, 1⟩
def LANE_L_EYE_STAT.BUSY (i : Nat) : Fld := ⟨LANE_L_EYE_STAT i, 0, 0⟩
def LANE_L_EYE_ERR (i : Nat) : Nat := 0x80024 + i * 64
def LANE_L_EYE_ERR.N (i : Nat) : Fld := ⟨LANE_L_EYE_ERR i, 31, 0⟩
def LANE_L_EYE_BITS_LO (i : Nat) : Nat := 0x80028 + i * 64
def LANE_L_EYE_BITS_LO.N (i : Nat) : Fld := ⟨LANE_L_EYE_BITS_LO i, 31, 0⟩

/-! ### CXP, spec/05 -/

def CXP_CTL : Nat := 0x90800
def CXP_CTL.REDISC_MS : Fld := ⟨CXP_CTL, 23, 16⟩
def CXP_CTL.CTRL_MS : Fld := ⟨CXP_CTL, 15, 8⟩
def CXP_CTL.ALIGN_MS : Fld := ⟨CXP_CTL, 7, 0⟩
def CXP_MAP (i : Nat) : Nat := 0x90900 + i * 4
def CXP_MAP.VALID (i : Nat) : Fld := ⟨CXP_MAP i, 8, 8⟩
def CXP_MAP.CAMERA (i : Nat) : Fld := ⟨CXP_MAP i, 7, 4⟩
def CXP_MAP.CONN (i : Nat) : Fld := ⟨CXP_MAP i, 2, 0⟩
def CXP_CAM_CFG (i : Nat) : Nat := 0x90000 + i * 128
def CXP_CAM_CFG.SENSOR_LINES (i : Nat) : Fld := ⟨CXP_CAM_CFG i, 14, 13⟩
def CXP_CAM_CFG.STOP_ON_LOSS (i : Nat) : Fld := ⟨CXP_CAM_CFG i, 12, 12⟩
def CXP_CAM_CFG.MIN_RATE (i : Nat) : Fld := ⟨CXP_CAM_CFG i, 11, 8⟩
def CXP_CAM_CFG.LANE_BASE (i : Nat) : Fld := ⟨CXP_CAM_CFG i, 7, 3⟩
def CXP_CAM_CFG.LANES (i : Nat) : Fld := ⟨CXP_CAM_CFG i, 2, 1⟩
def CXP_CAM_CFG.ENABLE (i : Nat) : Fld := ⟨CXP_CAM_CFG i, 0, 0⟩
def CXP_CAM_GEOM (i : Nat) : Nat := 0x90004 + i * 128
def CXP_CAM_GEOM.SLOTS (i : Nat) : Fld := ⟨CXP_CAM_GEOM i, 31, 24⟩
def CXP_CAM_GEOM.FRAME_LINES (i : Nat) : Fld := ⟨CXP_CAM_GEOM i, 23, 14⟩
def CXP_CAM_GEOM.WIDTH (i : Nat) : Fld := ⟨CXP_CAM_GEOM i, 13, 0⟩
def CXP_CAM_FMT (i : Nat) : Nat := 0x90008 + i * 128
def CXP_CAM_FMT.PAD (i : Nat) : Fld := ⟨CXP_CAM_FMT i, 27, 16⟩
def CXP_CAM_FMT.KIND (i : Nat) : Fld := ⟨CXP_CAM_FMT i, 3, 2⟩
def CXP_CAM_FMT.DEPTH (i : Nat) : Fld := ⟨CXP_CAM_FMT i, 1, 0⟩
def CXP_CAM_PFNC (i : Nat) : Nat := 0x9000C + i * 128
def CXP_CAM_PFNC.N (i : Nat) : Fld := ⟨CXP_CAM_PFNC i, 31, 0⟩
def CXP_CAM_LATE (i : Nat) : Nat := 0x90010 + i * 128
def CXP_CAM_LATE.LATE_NS (i : Nat) : Fld := ⟨CXP_CAM_LATE i, 16, 0⟩
def CXP_CAM_STATUS (i : Nat) : Nat := 0x90014 + i * 128
def CXP_CAM_STATUS.LOSS_SEEN (i : Nat) : Fld := ⟨CXP_CAM_STATUS i, 16, 16⟩
def CXP_CAM_STATUS.LANES_NOW (i : Nat) : Fld := ⟨CXP_CAM_STATUS i, 15, 12⟩
def CXP_CAM_STATUS.RATE_NOW (i : Nat) : Fld := ⟨CXP_CAM_STATUS i, 11, 8⟩
def CXP_CAM_STATUS.REASON (i : Nat) : Fld := ⟨CXP_CAM_STATUS i, 7, 4⟩
def CXP_CAM_STATUS.STATE (i : Nat) : Fld := ⟨CXP_CAM_STATUS i, 3, 0⟩
def CXP_CAM_TRIG_LAT (i : Nat) : Nat := 0x90018 + i * 128
def CXP_CAM_TRIG_LAT.NS (i : Nat) : Fld := ⟨CXP_CAM_TRIG_LAT i, 11, 0⟩
def CXP_CAM_LINES_OK (i : Nat) : Nat := 0x90020 + i * 128
def CXP_CAM_LINES_OK.N (i : Nat) : Fld := ⟨CXP_CAM_LINES_OK i, 31, 0⟩
def CXP_CAM_SHORT (i : Nat) : Nat := 0x90024 + i * 128
def CXP_CAM_SHORT.N (i : Nat) : Fld := ⟨CXP_CAM_SHORT i, 31, 0⟩
def CXP_CAM_LONG (i : Nat) : Nat := 0x90028 + i * 128
def CXP_CAM_LONG.N (i : Nat) : Fld := ⟨CXP_CAM_LONG i, 31, 0⟩
def CXP_CAM_MISSING (i : Nat) : Nat := 0x9002C + i * 128
def CXP_CAM_MISSING.N (i : Nat) : Fld := ⟨CXP_CAM_MISSING i, 31, 0⟩
def CXP_CAM_LATE_DROP (i : Nat) : Nat := 0x90030 + i * 128
def CXP_CAM_LATE_DROP.N (i : Nat) : Fld := ⟨CXP_CAM_LATE_DROP i, 31, 0⟩
def CXP_CAM_CORRUPT (i : Nat) : Nat := 0x90034 + i * 128
def CXP_CAM_CORRUPT.N (i : Nat) : Fld := ⟨CXP_CAM_CORRUPT i, 31, 0⟩
def CXP_CAM_UNGATED (i : Nat) : Nat := 0x90038 + i * 128
def CXP_CAM_UNGATED.N (i : Nat) : Fld := ⟨CXP_CAM_UNGATED i, 31, 0⟩
def CXP_CAM_CNT_FMT (i : Nat) : Nat := 0x9003C + i * 128
def CXP_CAM_CNT_FMT.N (i : Nat) : Fld := ⟨CXP_CAM_CNT_FMT i, 31, 0⟩
def CXP_CAM_PKT_CRC (i : Nat) : Nat := 0x90040 + i * 128
def CXP_CAM_PKT_CRC.N (i : Nat) : Fld := ⟨CXP_CAM_PKT_CRC i, 31, 0⟩
def CXP_CAM_LINK_LOSS (i : Nat) : Nat := 0x90044 + i * 128
def CXP_CAM_LINK_LOSS.N (i : Nat) : Fld := ⟨CXP_CAM_LINK_LOSS i, 31, 0⟩
def CXP_CAM_CNT_CLEAR (i : Nat) : Nat := 0x90048 + i * 128
def CXP_CAM_CNT_CLEAR.CLEAR (i : Nat) : Fld := ⟨CXP_CAM_CNT_CLEAR i, 0, 0⟩

/-! ### LPIPE, spec/06 -/

def LPIPE_CTL : Nat := 0xB0000
def LPIPE_CTL.ENABLE : Fld := ⟨LPIPE_CTL, 0, 0⟩
def LPIPE_MEAS_BASE_LO : Nat := 0xB0004
def LPIPE_MEAS_BASE_LO.N : Fld := ⟨LPIPE_MEAS_BASE_LO, 31, 0⟩
def LPIPE_MEAS_BASE_HI : Nat := 0xB0008
def LPIPE_MEAS_BASE_HI.N : Fld := ⟨LPIPE_MEAS_BASE_HI, 31, 0⟩
def LPIPE_HALO_KIB : Nat := 0xB000C
def LPIPE_HALO_KIB.KIB : Fld := ⟨LPIPE_HALO_KIB, 13, 0⟩
def LPIPE_STATUS : Nat := 0xB0010
def LPIPE_STATUS.REG_LATE : Fld := ⟨LPIPE_STATUS, 2, 2⟩
def LPIPE_STATUS.SHELF_FULL : Fld := ⟨LPIPE_STATUS, 1, 1⟩
def LPIPE_STATUS.DROPPING : Fld := ⟨LPIPE_STATUS, 0, 0⟩
def LPIPE_CAM_CFG (i : Nat) : Nat := 0xA0000 + i * 1024
def LPIPE_CAM_CFG.PHASE0 (i : Nat) : Fld := ⟨LPIPE_CAM_CFG i, 1, 1⟩
def LPIPE_CAM_CFG.ENABLE (i : Nat) : Fld := ⟨LPIPE_CAM_CFG i, 0, 0⟩
def LPIPE_CAM_PAT (i : Nat) : Nat := 0xA0004 + i * 1024
def LPIPE_CAM_PAT.ODD3 (i : Nat) : Fld := ⟨LPIPE_CAM_PAT i, 30, 28⟩
def LPIPE_CAM_PAT.EVEN3 (i : Nat) : Fld := ⟨LPIPE_CAM_PAT i, 26, 24⟩
def LPIPE_CAM_PAT.ODD2 (i : Nat) : Fld := ⟨LPIPE_CAM_PAT i, 22, 20⟩
def LPIPE_CAM_PAT.EVEN2 (i : Nat) : Fld := ⟨LPIPE_CAM_PAT i, 18, 16⟩
def LPIPE_CAM_PAT.ODD1 (i : Nat) : Fld := ⟨LPIPE_CAM_PAT i, 14, 12⟩
def LPIPE_CAM_PAT.EVEN1 (i : Nat) : Fld := ⟨LPIPE_CAM_PAT i, 10, 8⟩
def LPIPE_CAM_PAT.ODD0 (i : Nat) : Fld := ⟨LPIPE_CAM_PAT i, 6, 4⟩
def LPIPE_CAM_PAT.EVEN0 (i : Nat) : Fld := ⟨LPIPE_CAM_PAT i, 2, 0⟩
def LPIPE_CAM_DELAY (i : Nat) : Nat := 0xA0008 + i * 1024
def LPIPE_CAM_DELAY.D3 (i : Nat) : Fld := ⟨LPIPE_CAM_DELAY i, 15, 12⟩
def LPIPE_CAM_DELAY.D2 (i : Nat) : Fld := ⟨LPIPE_CAM_DELAY i, 11, 8⟩
def LPIPE_CAM_DELAY.D1 (i : Nat) : Fld := ⟨LPIPE_CAM_DELAY i, 7, 4⟩
def LPIPE_CAM_DELAY.D0 (i : Nat) : Fld := ⟨LPIPE_CAM_DELAY i, 3, 0⟩
def LPIPE_CAM_LENS (i : Nat) (j : Nat) : Nat := 0xA0010 + i * 1024 + j * 4
def LPIPE_CAM_LENS.SCL (i : Nat) (j : Nat) : Fld := ⟨LPIPE_CAM_LENS i j, 31, 16⟩
def LPIPE_CAM_LENS.OFF (i : Nat) (j : Nat) : Fld := ⟨LPIPE_CAM_LENS i j, 15, 0⟩
def LPIPE_CAM_ROWS (i : Nat) : Nat := 0xA0040 + i * 1024
def LPIPE_CAM_ROWS.N (i : Nat) : Fld := ⟨LPIPE_CAM_ROWS i, 31, 0⟩
def LPIPE_CAM_PADDED_ROWS (i : Nat) : Nat := 0xA0044 + i * 1024
def LPIPE_CAM_PADDED_ROWS.N (i : Nat) : Fld := ⟨LPIPE_CAM_PADDED_ROWS i, 31, 0⟩
def LPIPE_CAM_REG_LATE (i : Nat) : Nat := 0xA0048 + i * 1024
def LPIPE_CAM_REG_LATE.N (i : Nat) : Fld := ⟨LPIPE_CAM_REG_LATE i, 31, 0⟩
def LPIPE_CAM_DEFECT_NONE (i : Nat) : Nat := 0xA004C + i * 1024
def LPIPE_CAM_DEFECT_NONE.N (i : Nat) : Fld := ⟨LPIPE_CAM_DEFECT_NONE i, 31, 0⟩
def LPIPE_CAM_STRIP_FORCED (i : Nat) : Nat := 0xA0050 + i * 1024
def LPIPE_CAM_STRIP_FORCED.N (i : Nat) : Fld := ⟨LPIPE_CAM_STRIP_FORCED i, 31, 0⟩
def LPIPE_CAM_CUT_EMPTY (i : Nat) : Nat := 0xA0054 + i * 1024
def LPIPE_CAM_CUT_EMPTY.N (i : Nat) : Fld := ⟨LPIPE_CAM_CUT_EMPTY i, 31, 0⟩
def LPIPE_CAM_ROWS_DROPPED (i : Nat) : Nat := 0xA0058 + i * 1024
def LPIPE_CAM_ROWS_DROPPED.N (i : Nat) : Fld := ⟨LPIPE_CAM_ROWS_DROPPED i, 31, 0⟩
def LPIPE_CAM_HALO_CELLAR (i : Nat) : Nat := 0xA005C + i * 1024
def LPIPE_CAM_HALO_CELLAR.N (i : Nat) : Fld := ⟨LPIPE_CAM_HALO_CELLAR i, 31, 0⟩
def LPIPE_CAM_CROP_BUSY (i : Nat) : Nat := 0xA0060 + i * 1024
def LPIPE_CAM_CROP_BUSY.N (i : Nat) : Fld := ⟨LPIPE_CAM_CROP_BUSY i, 31, 0⟩
def LPIPE_CAM_MARK_WEAK (i : Nat) : Nat := 0xA0064 + i * 1024
def LPIPE_CAM_MARK_WEAK.N (i : Nat) : Fld := ⟨LPIPE_CAM_MARK_WEAK i, 31, 0⟩
def LPIPE_CAM_CNT_CLEAR (i : Nat) : Nat := 0xA0068 + i * 1024
def LPIPE_CAM_CNT_CLEAR.CLEAR (i : Nat) : Fld := ⟨LPIPE_CAM_CNT_CLEAR i, 0, 0⟩
def LPIPE_STR_CFG (i : Nat) (j : Nat) : Nat := 0xA0100 + i * 1024 + j * 32
def LPIPE_STR_CFG.CONSUMERS (i : Nat) (j : Nat) : Fld := ⟨LPIPE_STR_CFG i j, 15, 14⟩
def LPIPE_STR_CFG.REQUIRED (i : Nat) (j : Nat) : Fld := ⟨LPIPE_STR_CFG i j, 13, 13⟩
def LPIPE_STR_CFG.DEPTH_OUT (i : Nat) (j : Nat) : Fld := ⟨LPIPE_STR_CFG i j, 12, 12⟩
def LPIPE_STR_CFG.PLANES (i : Nat) (j : Nat) : Fld := ⟨LPIPE_STR_CFG i j, 11, 6⟩
def LPIPE_STR_CFG.LEVEL (i : Nat) (j : Nat) : Fld := ⟨LPIPE_STR_CFG i j, 5, 4⟩
def LPIPE_STR_CFG.TYPE (i : Nat) (j : Nat) : Fld := ⟨LPIPE_STR_CFG i j, 2, 0⟩
def LPIPE_STR_GEOM (i : Nat) (j : Nat) : Nat := 0xA0104 + i * 1024 + j * 32
def LPIPE_STR_GEOM.HALO (i : Nat) (j : Nat) : Fld := ⟨LPIPE_STR_GEOM i j, 18, 13⟩
def LPIPE_STR_GEOM.STRIP_LINES (i : Nat) (j : Nat) : Fld := ⟨LPIPE_STR_GEOM i j, 12, 0⟩
def LPIPE_STR_BUF_LO (i : Nat) (j : Nat) : Nat := 0xA0108 + i * 1024 + j * 32
def LPIPE_STR_BUF_LO.N (i : Nat) (j : Nat) : Fld := ⟨LPIPE_STR_BUF_LO i j, 31, 0⟩
def LPIPE_STR_BUF_HI (i : Nat) (j : Nat) : Nat := 0xA010C + i * 1024 + j * 32
def LPIPE_STR_BUF_HI.N (i : Nat) (j : Nat) : Fld := ⟨LPIPE_STR_BUF_HI i j, 31, 0⟩
def LPIPE_STR_BUF_CTL (i : Nat) (j : Nat) : Nat := 0xA0110 + i * 1024 + j * 32
def LPIPE_STR_BUF_CTL.SO_BASE (i : Nat) (j : Nat) : Fld := ⟨LPIPE_STR_BUF_CTL i j, 21, 8⟩
def LPIPE_STR_BUF_CTL.BUFS (i : Nat) (j : Nat) : Fld := ⟨LPIPE_STR_BUF_CTL i j, 7, 0⟩
def LPIPE_STR_STATUS (i : Nat) (j : Nat) : Nat := 0xA0114 + i * 1024 + j * 32
def LPIPE_STR_STATUS.DROP_SEEN (i : Nat) (j : Nat) : Fld := ⟨LPIPE_STR_STATUS i j, 17, 17⟩
def LPIPE_STR_STATUS.DROPPING (i : Nat) (j : Nat) : Fld := ⟨LPIPE_STR_STATUS i j, 16, 16⟩
def LPIPE_STR_STATUS.FREE (i : Nat) (j : Nat) : Fld := ⟨LPIPE_STR_STATUS i j, 7, 0⟩
def LPIPE_CROP_CFG (i : Nat) : Nat := 0xA8000 + i * 32
def LPIPE_CROP_CFG.ENABLE (i : Nat) : Fld := ⟨LPIPE_CROP_CFG i, 20, 20⟩
def LPIPE_CROP_CFG.MARK (i : Nat) : Fld := ⟨LPIPE_CROP_CFG i, 19, 14⟩
def LPIPE_CROP_CFG.STEER_EN (i : Nat) : Fld := ⟨LPIPE_CROP_CFG i, 13, 13⟩
def LPIPE_CROP_CFG.LANE (i : Nat) : Fld := ⟨LPIPE_CROP_CFG i, 12, 7⟩
def LPIPE_CROP_CFG.STREAM (i : Nat) : Fld := ⟨LPIPE_CROP_CFG i, 6, 4⟩
def LPIPE_CROP_CFG.CAMERA (i : Nat) : Fld := ⟨LPIPE_CROP_CFG i, 3, 0⟩
def LPIPE_CROP_X (i : Nat) : Nat := 0xA8004 + i * 32
def LPIPE_CROP_X.X0 (i : Nat) : Fld := ⟨LPIPE_CROP_X i, 12, 0⟩
def LPIPE_CROP_W (i : Nat) : Nat := 0xA8008 + i * 32
def LPIPE_CROP_W.WIDTH (i : Nat) : Fld := ⟨LPIPE_CROP_W i, 13, 0⟩
def LPIPE_CROP_ROWS (i : Nat) : Nat := 0xA800C + i * 32
def LPIPE_CROP_ROWS.ROWS (i : Nat) : Fld := ⟨LPIPE_CROP_ROWS i, 23, 12⟩
def LPIPE_CROP_ROWS.SKIP (i : Nat) : Fld := ⟨LPIPE_CROP_ROWS i, 11, 0⟩
def LPIPE_CROP_STEER (i : Nat) : Nat := 0xA8010 + i * 32
def LPIPE_CROP_STEER.DY (i : Nat) : Fld := ⟨LPIPE_CROP_STEER i, 31, 16⟩
def LPIPE_CROP_STEER.DX (i : Nat) : Fld := ⟨LPIPE_CROP_STEER i, 15, 0⟩
def LPIPE_PAT_CFG (i : Nat) : Nat := 0xB1000 + i * 32
def LPIPE_PAT_CFG.PLANE_C (i : Nat) : Fld := ⟨LPIPE_PAT_CFG i, 22, 20⟩
def LPIPE_PAT_CFG.PLANE_B (i : Nat) : Fld := ⟨LPIPE_PAT_CFG i, 19, 17⟩
def LPIPE_PAT_CFG.PLANE_A (i : Nat) : Fld := ⟨LPIPE_PAT_CFG i, 16, 14⟩
def LPIPE_PAT_CFG.MARK (i : Nat) : Fld := ⟨LPIPE_PAT_CFG i, 13, 8⟩
def LPIPE_PAT_CFG.STEER_EN (i : Nat) : Fld := ⟨LPIPE_PAT_CFG i, 7, 7⟩
def LPIPE_PAT_CFG.ENABLE (i : Nat) : Fld := ⟨LPIPE_PAT_CFG i, 6, 6⟩
def LPIPE_PAT_CFG.LANE (i : Nat) : Fld := ⟨LPIPE_PAT_CFG i, 5, 0⟩
def LPIPE_PAT_WX (i : Nat) : Nat := 0xB1004 + i * 32
def LPIPE_PAT_WX.COLS (i : Nat) : Fld := ⟨LPIPE_PAT_WX i, 23, 13⟩
def LPIPE_PAT_WX.COL0 (i : Nat) : Fld := ⟨LPIPE_PAT_WX i, 12, 0⟩
def LPIPE_PAT_WY (i : Nat) : Nat := 0xB1008 + i * 32
def LPIPE_PAT_WY.ROWS (i : Nat) : Fld := ⟨LPIPE_PAT_WY i, 22, 12⟩
def LPIPE_PAT_WY.ROW0 (i : Nat) : Fld := ⟨LPIPE_PAT_WY i, 11, 0⟩
def LPIPE_PAT_STEER (i : Nat) : Nat := 0xB100C + i * 32
def LPIPE_PAT_STEER.DY (i : Nat) : Fld := ⟨LPIPE_PAT_STEER i, 31, 16⟩
def LPIPE_PAT_STEER.DX (i : Nat) : Fld := ⟨LPIPE_PAT_STEER i, 15, 0⟩
def LPIPE_MRK_CFG (i : Nat) : Nat := 0xB3000 + i * 32
def LPIPE_MRK_CFG.THR (i : Nat) : Fld := ⟨LPIPE_MRK_CFG i, 31, 16⟩
def LPIPE_MRK_CFG.PLANE (i : Nat) : Fld := ⟨LPIPE_MRK_CFG i, 10, 8⟩
def LPIPE_MRK_CFG.POL (i : Nat) : Fld := ⟨LPIPE_MRK_CFG i, 7, 7⟩
def LPIPE_MRK_CFG.ENABLE (i : Nat) : Fld := ⟨LPIPE_MRK_CFG i, 6, 6⟩
def LPIPE_MRK_CFG.LANE (i : Nat) : Fld := ⟨LPIPE_MRK_CFG i, 5, 0⟩
def LPIPE_MRK_WX (i : Nat) : Nat := 0xB3004 + i * 32
def LPIPE_MRK_WX.COLS (i : Nat) : Fld := ⟨LPIPE_MRK_WX i, 21, 13⟩
def LPIPE_MRK_WX.COL0 (i : Nat) : Fld := ⟨LPIPE_MRK_WX i, 12, 0⟩
def LPIPE_MRK_WY (i : Nat) : Nat := 0xB3008 + i * 32
def LPIPE_MRK_WY.ROWS (i : Nat) : Fld := ⟨LPIPE_MRK_WY i, 20, 12⟩
def LPIPE_MRK_WY.ROW0 (i : Nat) : Fld := ⟨LPIPE_MRK_WY i, 11, 0⟩
def LPIPE_MRK_NOM (i : Nat) : Nat := 0xB300C + i * 32
def LPIPE_MRK_NOM.NOM_Y_Q8 (i : Nat) : Fld := ⟨LPIPE_MRK_NOM i, 31, 16⟩
def LPIPE_MRK_NOM.NOM_X_Q8 (i : Nat) : Fld := ⟨LPIPE_MRK_NOM i, 15, 0⟩
def LPIPE_MRK_MIN_W (i : Nat) : Nat := 0xB3010 + i * 32
def LPIPE_MRK_MIN_W.N (i : Nat) : Fld := ⟨LPIPE_MRK_MIN_W i, 31, 0⟩
def LPIPE_MRK_STEER_MAX (i : Nat) : Nat := 0xB3014 + i * 32
def LPIPE_MRK_STEER_MAX.N (i : Nat) : Fld := ⟨LPIPE_MRK_STEER_MAX i, 7, 0⟩

/-! ### CORE, spec/07 -/

def CORE_STATUS (i : Nat) : Nat := 0xC0000 + i * 4096
def CORE_STATUS.DIE (i : Nat) : Fld := ⟨CORE_STATUS i, 7, 7⟩
def CORE_STATUS.QUAD (i : Nat) : Fld := ⟨CORE_STATUS i, 6, 5⟩
def CORE_STATUS.KAT_FAIL (i : Nat) : Fld := ⟨CORE_STATUS i, 4, 4⟩
def CORE_STATUS.BUSY (i : Nat) : Fld := ⟨CORE_STATUS i, 2, 2⟩
def CORE_STATUS.IN_SERVICE (i : Nat) : Fld := ⟨CORE_STATUS i, 1, 1⟩
def CORE_STATUS.PRESENT (i : Nat) : Fld := ⟨CORE_STATUS i, 0, 0⟩
def CORE_REPAIR (i : Nat) : Nat := 0xC0004 + i * 4096
def CORE_REPAIR.ARRAYJ (i : Nat) : Fld := ⟨CORE_REPAIR i, 31, 0⟩
def CORE_SAT (i : Nat) : Nat := 0xC0010 + i * 4096
def CORE_SAT.N (i : Nat) : Fld := ⟨CORE_SAT i, 31, 0⟩
def CORE_NAN (i : Nat) : Nat := 0xC0014 + i * 4096
def CORE_NAN.N (i : Nat) : Fld := ⟨CORE_NAN i, 31, 0⟩
def CORE_STALL_W (i : Nat) : Nat := 0xC0018 + i * 4096
def CORE_STALL_W.N (i : Nat) : Fld := ⟨CORE_STALL_W i, 31, 0⟩
def CORE_STALL_D (i : Nat) : Nat := 0xC001C + i * 4096
def CORE_STALL_D.N (i : Nat) : Fld := ⟨CORE_STALL_D i, 31, 0⟩
def CORE_CNT_CLEAR (i : Nat) : Nat := 0xC0020 + i * 4096
def CORE_CNT_CLEAR.CLEAR (i : Nat) : Fld := ⟨CORE_CNT_CLEAR i, 0, 0⟩
def CORE_ACT_LO (i : Nat) : Nat := 0xC0028 + i * 4096
def CORE_ACT_LO.N (i : Nat) : Fld := ⟨CORE_ACT_LO i, 31, 0⟩
def CORE_ACT_HI (i : Nat) : Nat := 0xC002C + i * 4096
def CORE_ACT_HI.N (i : Nat) : Fld := ⟨CORE_ACT_HI i, 31, 0⟩
def CORE_CYC_LO (i : Nat) : Nat := 0xC0030 + i * 4096
def CORE_CYC_LO.N (i : Nat) : Fld := ⟨CORE_CYC_LO i, 31, 0⟩
def CORE_CYC_HI (i : Nat) : Nat := 0xC0034 + i * 4096
def CORE_CYC_HI.N (i : Nat) : Fld := ⟨CORE_CYC_HI i, 31, 0⟩
def CORE_LDR_STATUS (i : Nat) : Nat := 0xC0100 + i * 4096
def CORE_LDR_STATUS.MODE (i : Nat) : Fld := ⟨CORE_LDR_STATUS i, 6, 5⟩
def CORE_LDR_STATUS.HARD (i : Nat) : Fld := ⟨CORE_LDR_STATUS i, 4, 4⟩
def CORE_LDR_STATUS.FAULT_BANK (i : Nat) : Fld := ⟨CORE_LDR_STATUS i, 3, 0⟩
def CORE_LDR_FAULT_ADDR (i : Nat) : Nat := 0xC0104 + i * 4096
def CORE_LDR_FAULT_ADDR.WORD (i : Nat) : Fld := ⟨CORE_LDR_FAULT_ADDR i, 20, 2⟩
def CORE_LDR_PAR (i : Nat) : Nat := 0xC0108 + i * 4096
def CORE_LDR_PAR.SOFT (i : Nat) : Fld := ⟨CORE_LDR_PAR i, 15, 0⟩
def CORE_LDR_SOFT_ADDR (i : Nat) : Nat := 0xC010C + i * 4096
def CORE_LDR_SOFT_ADDR.WORD (i : Nat) : Fld := ⟨CORE_LDR_SOFT_ADDR i, 20, 2⟩
def CORE_LDR_WAIT_A (i : Nat) : Nat := 0xC0110 + i * 4096
def CORE_LDR_WAIT_A.N (i : Nat) : Fld := ⟨CORE_LDR_WAIT_A i, 31, 0⟩
def CORE_LDR_WAIT_W (i : Nat) : Nat := 0xC0114 + i * 4096
def CORE_LDR_WAIT_W.N (i : Nat) : Fld := ⟨CORE_LDR_WAIT_W i, 31, 0⟩
def CORE_LDR_WAIT_V (i : Nat) : Nat := 0xC0118 + i * 4096
def CORE_LDR_WAIT_V.N (i : Nat) : Fld := ⟨CORE_LDR_WAIT_V i, 31, 0⟩
def CORE_LDR_WAIT_D (i : Nat) : Nat := 0xC011C + i * 4096
def CORE_LDR_WAIT_D.N (i : Nat) : Fld := ⟨CORE_LDR_WAIT_D i, 31, 0⟩
def CORE_LDR_WAIT_T (i : Nat) : Nat := 0xC0120 + i * 4096
def CORE_LDR_WAIT_T.N (i : Nat) : Fld := ⟨CORE_LDR_WAIT_T i, 31, 0⟩
def CORE_LDR_OFFPLAN (i : Nat) : Nat := 0xC0124 + i * 4096
def CORE_LDR_OFFPLAN.N (i : Nat) : Fld := ⟨CORE_LDR_OFFPLAN i, 31, 0⟩
def CORE_LDR_NARROW (i : Nat) : Nat := 0xC0128 + i * 4096
def CORE_LDR_NARROW.N (i : Nat) : Fld := ⟨CORE_LDR_NARROW i, 31, 0⟩
def CORE_LDR_CNT_CLEAR (i : Nat) : Nat := 0xC012C + i * 4096
def CORE_LDR_CNT_CLEAR.CLEAR (i : Nat) : Fld := ⟨CORE_LDR_CNT_CLEAR i, 0, 0⟩
def CORE_AG_FAULT (i : Nat) : Nat := 0xC0200 + i * 4096
def CORE_AG_FAULT.CODE (i : Nat) : Fld := ⟨CORE_AG_FAULT i, 7, 0⟩
def CORE_STALL_A (i : Nat) : Nat := 0xC0204 + i * 4096
def CORE_STALL_A.N (i : Nat) : Fld := ⟨CORE_STALL_A i, 31, 0⟩
def CORE_AG_ROWS (i : Nat) : Nat := 0xC0208 + i * 4096
def CORE_AG_ROWS.N (i : Nat) : Fld := ⟨CORE_AG_ROWS i, 31, 0⟩
def CORE_AG_PAD (i : Nat) : Nat := 0xC020C + i * 4096
def CORE_AG_PAD.N (i : Nat) : Fld := ⟨CORE_AG_PAD i, 31, 0⟩
def CORE_VEC_STEPS (i : Nat) : Nat := 0xC0210 + i * 4096
def CORE_VEC_STEPS.N (i : Nat) : Fld := ⟨CORE_VEC_STEPS i, 31, 0⟩
def CORE_AG_CNT_CLEAR (i : Nat) : Nat := 0xC0214 + i * 4096
def CORE_AG_CNT_CLEAR.CLEAR (i : Nat) : Fld := ⟨CORE_AG_CNT_CLEAR i, 0, 0⟩
def CORE_ALLOC (i : Nat) : Nat := 0xC0300 + i * 4096
def CORE_ALLOC.LOGICAL (i : Nat) : Fld := ⟨CORE_ALLOC i, 20, 16⟩
def CORE_ALLOC.BOUND (i : Nat) : Fld := ⟨CORE_ALLOC i, 15, 15⟩
def CORE_ALLOC.BACKLOG (i : Nat) : Fld := ⟨CORE_ALLOC i, 4, 0⟩
def CORE_ALLOC_SKIP (i : Nat) : Nat := 0xC0304 + i * 4096
def CORE_ALLOC_SKIP.COUNT (i : Nat) : Fld := ⟨CORE_ALLOC_SKIP i, 31, 0⟩
def CORE_ALLOC_WAIT (i : Nat) : Nat := 0xC0308 + i * 4096
def CORE_ALLOC_WAIT.COUNT (i : Nat) : Fld := ⟨CORE_ALLOC_WAIT i, 31, 0⟩
def CORE_ALLOC_CLEAR (i : Nat) : Nat := 0xC030C + i * 4096
def CORE_ALLOC_CLEAR.CLEAR (i : Nat) : Fld := ⟨CORE_ALLOC_CLEAR i, 0, 0⟩

/-! ### FLK, spec/10 -/

def FLK_ENG_STATUS (i : Nat) : Nat := 0xD0000 + i * 4096
def FLK_ENG_STATUS.ACTIVE (i : Nat) : Fld := ⟨FLK_ENG_STATUS i, 20, 8⟩
def FLK_ENG_STATUS.FAULT_HELD (i : Nat) : Fld := ⟨FLK_ENG_STATUS i, 1, 1⟩
def FLK_ENG_STATUS.IN_SERVICE (i : Nat) : Fld := ⟨FLK_ENG_STATUS i, 0, 0⟩
def FLK_ENG_INSTR_LO (i : Nat) : Nat := 0xD0008 + i * 4096
def FLK_ENG_INSTR_LO.N (i : Nat) : Fld := ⟨FLK_ENG_INSTR_LO i, 31, 0⟩
def FLK_ENG_INSTR_HI (i : Nat) : Nat := 0xD000C + i * 4096
def FLK_ENG_INSTR_HI.N (i : Nat) : Fld := ⟨FLK_ENG_INSTR_HI i, 31, 0⟩
def FLK_ENG_CNT_FIRST (i : Nat) : Nat := 0xD0010 + i * 4096
def FLK_ENG_CNT_FIRST.N (i : Nat) : Fld := ⟨FLK_ENG_CNT_FIRST i, 31, 0⟩
def FLK_ENG_CNT_DUP (i : Nat) : Nat := 0xD0014 + i * 4096
def FLK_ENG_CNT_DUP.N (i : Nat) : Fld := ⟨FLK_ENG_CNT_DUP i, 31, 0⟩
def FLK_ENG_CNT_NOT_ISSUED (i : Nat) : Nat := 0xD0018 + i * 4096
def FLK_ENG_CNT_NOT_ISSUED.N (i : Nat) : Fld := ⟨FLK_ENG_CNT_NOT_ISSUED i, 31, 0⟩
def FLK_ENG_CNT_PROBE_LIMIT (i : Nat) : Nat := 0xD001C + i * 4096
def FLK_ENG_CNT_PROBE_LIMIT.N (i : Nat) : Fld := ⟨FLK_ENG_CNT_PROBE_LIMIT i, 31, 0⟩
def FLK_ENG_CNT_DOUBT (i : Nat) : Nat := 0xD0020 + i * 4096
def FLK_ENG_CNT_DOUBT.N (i : Nat) : Fld := ⟨FLK_ENG_CNT_DOUBT i, 31, 0⟩
def FLK_ENG_CNT_NO_ROUTE (i : Nat) : Nat := 0xD0024 + i * 4096
def FLK_ENG_CNT_NO_ROUTE.N (i : Nat) : Fld := ⟨FLK_ENG_CNT_NO_ROUTE i, 31, 0⟩
def FLK_ENG_CNT_FAULTS (i : Nat) : Nat := 0xD0028 + i * 4096
def FLK_ENG_CNT_FAULTS.N (i : Nat) : Fld := ⟨FLK_ENG_CNT_FAULTS i, 31, 0⟩
def FLK_ENG_CNT_MEM_STALL (i : Nat) : Nat := 0xD002C + i * 4096
def FLK_ENG_CNT_MEM_STALL.N (i : Nat) : Fld := ⟨FLK_ENG_CNT_MEM_STALL i, 31, 0⟩
def FLK_ENG_CNT_CLEAR (i : Nat) : Nat := 0xD0030 + i * 4096
def FLK_ENG_CNT_CLEAR.CLEAR (i : Nat) : Fld := ⟨FLK_ENG_CNT_CLEAR i, 0, 0⟩
def FLK_ENG_FAULT (i : Nat) : Nat := 0xD0040 + i * 4096
def FLK_ENG_FAULT.RELEASE (i : Nat) : Fld := ⟨FLK_ENG_FAULT i, 31, 31⟩
def FLK_ENG_FAULT.CONTEXT (i : Nat) : Fld := ⟨FLK_ENG_FAULT i, 19, 8⟩
def FLK_ENG_FAULT.CODE (i : Nat) : Fld := ⟨FLK_ENG_FAULT i, 7, 0⟩
def FLK_ENG_FAULT_PC (i : Nat) : Nat := 0xD0044 + i * 4096
def FLK_ENG_FAULT_PC.PC (i : Nat) : Fld := ⟨FLK_ENG_FAULT_PC i, 31, 0⟩
def FLK_ENG_FAULT_ADDR_LO (i : Nat) : Nat := 0xD0048 + i * 4096
def FLK_ENG_FAULT_ADDR_LO.N (i : Nat) : Fld := ⟨FLK_ENG_FAULT_ADDR_LO i, 31, 0⟩
def FLK_ENG_FAULT_ADDR_HI (i : Nat) : Nat := 0xD004C + i * 4096
def FLK_ENG_FAULT_ADDR_HI.N (i : Nat) : Fld := ⟨FLK_ENG_FAULT_ADDR_HI i, 31, 0⟩
def FLK_ENG_FAULT_PC_HI (i : Nat) : Nat := 0xD0050 + i * 4096
def FLK_ENG_FAULT_PC_HI.N (i : Nat) : Fld := ⟨FLK_ENG_FAULT_PC_HI i, 31, 0⟩
def FLK_RTIMEOUT : Nat := 0xD2000
def FLK_RTIMEOUT.US : Fld := ⟨FLK_RTIMEOUT, 13, 0⟩
def FLK_SET_BASE_LO (i : Nat) : Nat := 0xD2100 + i * 32
def FLK_SET_BASE_LO.N (i : Nat) : Fld := ⟨FLK_SET_BASE_LO i, 31, 0⟩
def FLK_SET_BASE_HI (i : Nat) : Nat := 0xD2104 + i * 32
def FLK_SET_BASE_HI.N (i : Nat) : Fld := ⟨FLK_SET_BASE_HI i, 31, 0⟩
def FLK_SET_GEOM (i : Nat) : Nat := 0xD2108 + i * 32
def FLK_SET_GEOM.FABRIC (i : Nat) : Fld := ⟨FLK_SET_GEOM i, 17, 17⟩
def FLK_SET_GEOM.ENABLE (i : Nat) : Fld := ⟨FLK_SET_GEOM i, 16, 16⟩
def FLK_SET_GEOM.PROBE_MAX (i : Nat) : Fld := ⟨FLK_SET_GEOM i, 14, 8⟩
def FLK_SET_GEOM.LOG2_BUCKETS (i : Nat) : Fld := ⟨FLK_SET_GEOM i, 4, 0⟩
def FLK_SET_SALT_LO (i : Nat) : Nat := 0xD210C + i * 32
def FLK_SET_SALT_LO.N (i : Nat) : Fld := ⟨FLK_SET_SALT_LO i, 31, 0⟩
def FLK_SET_SALT_HI (i : Nat) : Nat := 0xD2110 + i * 32
def FLK_SET_SALT_HI.N (i : Nat) : Fld := ⟨FLK_SET_SALT_HI i, 31, 0⟩
def FLK_SET_MAP_LO (i : Nat) : Nat := 0xD2114 + i * 32
def FLK_SET_MAP_LO.N (i : Nat) : Fld := ⟨FLK_SET_MAP_LO i, 31, 0⟩
def FLK_SET_MAP_HI (i : Nat) : Nat := 0xD2118 + i * 32
def FLK_SET_MAP_HI.N (i : Nat) : Fld := ⟨FLK_SET_MAP_HI i, 31, 0⟩

/-! ### CEL, spec/14 -/

def CEL_STATUS : Nat := 0xE0000
def CEL_STATUS.RETIRING : Fld := ⟨CEL_STATUS, 3, 3⟩
def CEL_STATUS.SPARES_OUT : Fld := ⟨CEL_STATUS, 2, 2⟩
def CEL_STATUS.SOFT_SEEN : Fld := ⟨CEL_STATUS, 1, 1⟩
def CEL_STATUS.HARD_SEEN : Fld := ⟨CEL_STATUS, 0, 0⟩
def CEL_FW_WAYS : Nat := 0xE0004
def CEL_FW_WAYS.WAYS : Fld := ⟨CEL_FW_WAYS, 15, 0⟩
def CEL_PART_CFG (i : Nat) : Nat := 0xE0040 + i * 16
def CEL_PART_CFG.INFLIGHT (i : Nat) : Fld := ⟨CEL_PART_CFG i, 28, 16⟩
def CEL_PART_CFG.WAYS (i : Nat) : Fld := ⟨CEL_PART_CFG i, 15, 0⟩
def CEL_PART_SHELF (i : Nat) : Nat := 0xE0044 + i * 16
def CEL_PART_SHELF.BLOCKS (i : Nat) : Fld := ⟨CEL_PART_SHELF i, 27, 16⟩
def CEL_PART_SHELF.BASE (i : Nat) : Fld := ⟨CEL_PART_SHELF i, 11, 0⟩
def CEL_PART_HIT (i : Nat) : Nat := 0xE0048 + i * 16
def CEL_PART_HIT.N (i : Nat) : Fld := ⟨CEL_PART_HIT i, 31, 0⟩
def CEL_PART_MISS (i : Nat) : Nat := 0xE004C + i * 16
def CEL_PART_MISS.N (i : Nat) : Fld := ⟨CEL_PART_MISS i, 31, 0⟩
def CEL_REG_CFG (i : Nat) : Nat := 0xE0100 + i * 32
def CEL_REG_CFG.PART (i : Nat) : Fld := ⟨CEL_REG_CFG i, 3, 1⟩
def CEL_REG_CFG.ENABLE (i : Nat) : Fld := ⟨CEL_REG_CFG i, 0, 0⟩
def CEL_REG_CHAN (i : Nat) : Nat := 0xE0104 + i * 32
def CEL_REG_CHAN.N (i : Nat) : Fld := ⟨CEL_REG_CHAN i, 31, 0⟩
def CEL_REG_PAGES (i : Nat) : Nat := 0xE0108 + i * 32
def CEL_REG_PAGES.PAGES (i : Nat) : Fld := ⟨CEL_REG_PAGES i, 30, 16⟩
def CEL_REG_PAGES.PAGE0 (i : Nat) : Fld := ⟨CEL_REG_PAGES i, 14, 0⟩
def CEL_REG_BASE_LO (i : Nat) : Nat := 0xE010C + i * 32
def CEL_REG_BASE_LO.N (i : Nat) : Fld := ⟨CEL_REG_BASE_LO i, 31, 0⟩
def CEL_REG_BASE_HI (i : Nat) : Nat := 0xE0110 + i * 32
def CEL_REG_BASE_HI.N (i : Nat) : Fld := ⟨CEL_REG_BASE_HI i, 31, 0⟩
def CEL_CNT_SOFT_CEL : Nat := 0xE0300
def CEL_CNT_SOFT_CEL.N : Fld := ⟨CEL_CNT_SOFT_CEL, 31, 0⟩
def CEL_CNT_SOFT_SHELF : Nat := 0xE0304
def CEL_CNT_SOFT_SHELF.N : Fld := ⟨CEL_CNT_SOFT_SHELF, 31, 0⟩
def CEL_CNT_SOFT_PAN : Nat := 0xE0308
def CEL_CNT_SOFT_PAN.N : Fld := ⟨CEL_CNT_SOFT_PAN, 31, 0⟩
def CEL_CNT_PAN_LOCK : Nat := 0xE030C
def CEL_CNT_PAN_LOCK.N : Fld := ⟨CEL_CNT_PAN_LOCK, 31, 0⟩
def CEL_CNT_HARD : Nat := 0xE0310
def CEL_CNT_HARD.N : Fld := ⟨CEL_CNT_HARD, 31, 0⟩
def CEL_CNT_RETIRED : Nat := 0xE0314
def CEL_CNT_RETIRED.N : Fld := ⟨CEL_CNT_RETIRED, 31, 0⟩
def CEL_CNT_WAIT_INFL : Nat := 0xE0318
def CEL_CNT_WAIT_INFL.N : Fld := ⟨CEL_CNT_WAIT_INFL, 31, 0⟩
def CEL_CNT_CLEAR : Nat := 0xE031C
def CEL_CNT_CLEAR.CLEAR : Fld := ⟨CEL_CNT_CLEAR, 0, 0⟩
def CEL_FAULT_LO : Nat := 0xE0320
def CEL_FAULT_LO.ADDR : Fld := ⟨CEL_FAULT_LO, 31, 0⟩
def CEL_FAULT_HI : Nat := 0xE0324
def CEL_FAULT_HI.ADDR : Fld := ⟨CEL_FAULT_HI, 31, 0⟩
def CEL_FAULT_INFO : Nat := 0xE0328
def CEL_FAULT_INFO.PART : Fld := ⟨CEL_FAULT_INFO, 18, 16⟩
def CEL_FAULT_INFO.CORE : Fld := ⟨CEL_FAULT_INFO, 15, 12⟩
def CEL_FAULT_INFO.AGENT : Fld := ⟨CEL_FAULT_INFO, 11, 8⟩
def CEL_FAULT_INFO.DIE : Fld := ⟨CEL_FAULT_INFO, 7, 7⟩
def CEL_FAULT_INFO.CHANNEL : Fld := ⟨CEL_FAULT_INFO, 6, 2⟩
def CEL_FAULT_INFO.MEM : Fld := ⟨CEL_FAULT_INFO, 1, 0⟩
def CEL_INFL (i : Nat) : Nat := 0xE0330 + i * 4
def CEL_INFL.PEAK (i : Nat) : Fld := ⟨CEL_INFL i, 29, 16⟩
def CEL_INFL.NOW (i : Nat) : Fld := ⟨CEL_INFL i, 13, 0⟩
def CEL_SPARE (i : Nat) : Nat := 0xE0400 + i * 4
def CEL_SPARE.FREE (i : Nat) : Fld := ⟨CEL_SPARE i, 6, 0⟩
def CEL_RET_IDX : Nat := 0xE0500
def CEL_RET_IDX.INDEX : Fld := ⟨CEL_RET_IDX, 10, 0⟩
def CEL_RET_DATA : Nat := 0xE0504
def CEL_RET_DATA.VALID : Fld := ⟨CEL_RET_DATA, 31, 31⟩
def CEL_RET_DATA.LOST : Fld := ⟨CEL_RET_DATA, 30, 30⟩
def CEL_RET_DATA.UNUSABLE : Fld := ⟨CEL_RET_DATA, 29, 29⟩
def CEL_RET_DATA.SPARE : Fld := ⟨CEL_RET_DATA, 25, 20⟩
def CEL_RET_DATA.CHANNEL : Fld := ⟨CEL_RET_DATA, 19, 15⟩
def CEL_RET_DATA.PAGE : Fld := ⟨CEL_RET_DATA, 14, 0⟩

/-! ### PART, spec/03 -/

def PART_STATUS : Nat := 0xF0000
def PART_STATUS.COUNT : Fld := ⟨PART_STATUS, 12, 0⟩
def PART_NEXT_ID : Nat := 0xF0004
def PART_NEXT_ID.ID : Fld := ⟨PART_NEXT_ID, 31, 0⟩
def PART_WIN_IDX : Nat := 0xF0008
def PART_WIN_IDX.INDEX : Fld := ⟨PART_WIN_IDX, 11, 0⟩
def PART_WIN_DATA (i : Nat) : Nat := 0xF0010 + i * 4
def PART_WIN_DATA.N (i : Nat) : Fld := ⟨PART_WIN_DATA i, 31, 0⟩

/-! ### RING, spec/16 -/

def RING_CFG (i : Nat) : Nat := 0x100000 + i * 32
def RING_CFG.TRANSPORT (i : Nat) : Fld := ⟨RING_CFG i, 9, 9⟩
def RING_CFG.LOG2_ENTRIES (i : Nat) : Fld := ⟨RING_CFG i, 8, 4⟩
def RING_CFG.KIND (i : Nat) : Fld := ⟨RING_CFG i, 3, 1⟩
def RING_CFG.ENABLE (i : Nat) : Fld := ⟨RING_CFG i, 0, 0⟩
def RING_LINK (i : Nat) : Nat := 0x100004 + i * 32
def RING_LINK.SESSION (i : Nat) : Fld := ⟨RING_LINK i, 31, 22⟩
def RING_LINK.JOB (i : Nat) : Fld := ⟨RING_LINK i, 21, 16⟩
def RING_LINK.REJECTS_ONLY (i : Nat) : Fld := ⟨RING_LINK i, 14, 14⟩
def RING_LINK.ALL_JOBS (i : Nat) : Fld := ⟨RING_LINK i, 13, 13⟩
def RING_LINK.PEER (i : Nat) : Fld := ⟨RING_LINK i, 12, 0⟩
def RING_BASE_LO (i : Nat) : Nat := 0x100008 + i * 32
def RING_BASE_LO.BASE (i : Nat) : Fld := ⟨RING_BASE_LO i, 31, 0⟩
def RING_BASE_HI (i : Nat) : Nat := 0x10000C + i * 32
def RING_BASE_HI.BASE (i : Nat) : Fld := ⟨RING_BASE_HI i, 31, 0⟩
def RING_IRQ (i : Nat) : Nat := 0x100010 + i * 32
def RING_IRQ.HOLDOFF_US (i : Nat) : Fld := ⟨RING_IRQ i, 31, 16⟩
def RING_IRQ.IEN (i : Nat) : Fld := ⟨RING_IRQ i, 11, 11⟩
def RING_IRQ.VECTOR (i : Nat) : Fld := ⟨RING_IRQ i, 10, 0⟩
def RING_PROD (i : Nat) : Nat := 0x100014 + i * 32
def RING_PROD.INDEX (i : Nat) : Fld := ⟨RING_PROD i, 31, 0⟩
def RING_CONS (i : Nat) : Nat := 0x100018 + i * 32
def RING_CONS.INDEX (i : Nat) : Fld := ⟨RING_CONS i, 31, 0⟩
def RING_STATUS (i : Nat) : Nat := 0x10001C + i * 32
def RING_STATUS.DROPPED (i : Nat) : Fld := ⟨RING_STATUS i, 31, 16⟩
def RING_STATUS.STARTED (i : Nat) : Fld := ⟨RING_STATUS i, 15, 8⟩
def RING_STATUS.ACTIVE (i : Nat) : Fld := ⟨RING_STATUS i, 5, 5⟩
def RING_STATUS.CFG_ERR (i : Nat) : Fld := ⟨RING_STATUS i, 4, 4⟩
def RING_STATUS.OVERFLOW (i : Nat) : Fld := ⟨RING_STATUS i, 3, 3⟩
def RING_STATUS.DB_ERR (i : Nat) : Fld := ⟨RING_STATUS i, 2, 2⟩
def RING_STATUS.HALTED (i : Nat) : Fld := ⟨RING_STATUS i, 1, 1⟩

/-! ### DBELL, spec/16 -/

def DBELL (i : Nat) : Nat := 0x180000 + i * 64
def DBELL.INDEX (i : Nat) : Fld := ⟨DBELL i, 31, 0⟩

/-! ### STG, spec/17 -/

def STG_CTL : Nat := 0x200000
def STG_CTL.VIEW : Fld := ⟨STG_CTL, 0, 0⟩
def STG_STATUS : Nat := 0x200004
def STG_STATUS.LATE_TRIGGER : Fld := ⟨STG_STATUS, 6, 6⟩
def STG_STATUS.PAIR_ERR : Fld := ⟨STG_STATUS, 5, 5⟩
def STG_STATUS.FROZEN_WR : Fld := ⟨STG_STATUS, 4, 4⟩
def STG_STATUS.PAIR_OPEN : Fld := ⟨STG_STATUS, 3, 3⟩
def STG_STATUS.PENDING : Fld := ⟨STG_STATUS, 2, 2⟩
def STG_STATUS.CHECKING : Fld := ⟨STG_STATUS, 1, 1⟩
def STG_STATUS.FROZEN : Fld := ⟨STG_STATUS, 0, 0⟩
def STG_LAST : Nat := 0x200008
def STG_LAST.RULE : Fld := ⟨STG_LAST, 15, 0⟩
def STG_PAIR_OFF : Nat := 0x20000C
def STG_PAIR_OFF.OFFSET : Fld := ⟨STG_PAIR_OFF, 21, 0⟩
def STG_COMMIT_DTIME_LO : Nat := 0x200010
def STG_COMMIT_DTIME_LO.N : Fld := ⟨STG_COMMIT_DTIME_LO, 31, 0⟩
def STG_COMMIT_DTIME_HI : Nat := 0x200014
def STG_COMMIT_DTIME_HI.N : Fld := ⟨STG_COMMIT_DTIME_HI, 31, 0⟩
def STG_COMMIT_CNT : Nat := 0x200018
def STG_COMMIT_CNT.N : Fld := ⟨STG_COMMIT_CNT, 31, 0⟩
def STG_CNT_REFUSED : Nat := 0x20001C
def STG_CNT_REFUSED.N : Fld := ⟨STG_CNT_REFUSED, 31, 0⟩
def STG_CNT_FROZEN : Nat := 0x200020
def STG_CNT_FROZEN.N : Fld := ⟨STG_CNT_FROZEN, 31, 0⟩
def STG_CNT_CLEAR : Nat := 0x200024
def STG_CNT_CLEAR.CLEAR : Fld := ⟨STG_CNT_CLEAR, 0, 0⟩
def STG_PTN_AREA_LO (i : Nat) : Nat := 0x208200 + i * 16
def STG_PTN_AREA_LO.N (i : Nat) : Fld := ⟨STG_PTN_AREA_LO i, 31, 0⟩
def STG_PTN_AREA_HI (i : Nat) : Nat := 0x208204 + i * 16
def STG_PTN_AREA_HI.N (i : Nat) : Fld := ⟨STG_PTN_AREA_HI i, 31, 0⟩
def STG_PTN_AREA_PAGES (i : Nat) : Nat := 0x208208 + i * 16
def STG_PTN_AREA_PAGES.PAGES (i : Nat) : Fld := ⟨STG_PTN_AREA_PAGES i, 15, 0⟩
def STG_PTN_CFG (i : Nat) : Nat := 0x208000 + i * 32
def STG_PTN_CFG.RT (i : Nat) : Fld := ⟨STG_PTN_CFG i, 1, 1⟩
def STG_PTN_CFG.ENABLE (i : Nat) : Fld := ⟨STG_PTN_CFG i, 0, 0⟩
def STG_PTN_CORES (i : Nat) : Nat := 0x208004 + i * 32
def STG_PTN_CORES.CORES (i : Nat) : Fld := ⟨STG_PTN_CORES i, 15, 0⟩
def STG_PTN_PIPES (i : Nat) : Nat := 0x208008 + i * 32
def STG_PTN_PIPES.ENG1 (i : Nat) : Fld := ⟨STG_PTN_PIPES i, 31, 16⟩
def STG_PTN_PIPES.ENG0 (i : Nat) : Fld := ⟨STG_PTN_PIPES i, 15, 0⟩
def STG_PTN_SLICE (i : Nat) : Nat := 0x20800C + i * 32
def STG_PTN_SLICE.YIELD_US (i : Nat) : Fld := ⟨STG_PTN_SLICE i, 31, 20⟩
def STG_PTN_SLICE.SLICE_US (i : Nat) : Fld := ⟨STG_PTN_SLICE i, 19, 0⟩
def STG_PTN_STATUS (i : Nat) : Nat := 0x208010 + i * 32
def STG_PTN_STATUS.DEFERRED (i : Nat) : Fld := ⟨STG_PTN_STATUS i, 9, 9⟩
def STG_PTN_STATUS.SWITCHING (i : Nat) : Fld := ⟨STG_PTN_STATUS i, 8, 8⟩
def STG_PTN_STATUS.VALID (i : Nat) : Fld := ⟨STG_PTN_STATUS i, 6, 6⟩
def STG_PTN_STATUS.JOB (i : Nat) : Fld := ⟨STG_PTN_STATUS i, 5, 0⟩
def STG_PTN_OVR (i : Nat) : Nat := 0x208014 + i * 32
def STG_PTN_OVR.N (i : Nat) : Fld := ⟨STG_PTN_OVR i, 31, 0⟩
def STG_PTN_SWITCHES (i : Nat) : Nat := 0x208018 + i * 32
def STG_PTN_SWITCHES.N (i : Nat) : Fld := ⟨STG_PTN_SWITCHES i, 31, 0⟩
def STG_JOB_CFG (i : Nat) : Nat := 0x208400 + i * 16
def STG_JOB_CFG.PART (i : Nat) : Fld := ⟨STG_JOB_CFG i, 2, 0⟩
def STG_JOB_SAVE_LO (i : Nat) : Nat := 0x208404 + i * 16
def STG_JOB_SAVE_LO.N (i : Nat) : Fld := ⟨STG_JOB_SAVE_LO i, 31, 0⟩
def STG_JOB_SAVE_HI (i : Nat) : Nat := 0x208408 + i * 16
def STG_JOB_SAVE_HI.N (i : Nat) : Fld := ⟨STG_JOB_SAVE_HI i, 31, 0⟩
def STG_JOB_STATUS (i : Nat) : Nat := 0x20840C + i * 16
def STG_JOB_STATUS.FAULT (i : Nat) : Fld := ⟨STG_JOB_STATUS i, 15, 8⟩
def STG_JOB_STATUS.STATE (i : Nat) : Fld := ⟨STG_JOB_STATUS i, 2, 0⟩
def STG_SO_IDX : Nat := 0x209000
def STG_SO_IDX.INDEX : Fld := ⟨STG_SO_IDX, 13, 0⟩
def STG_SO_CFG : Nat := 0x209004
def STG_SO_CFG.HOLD_US : Fld := ⟨STG_SO_CFG, 31, 16⟩
def STG_SO_CFG.ACCESS : Fld := ⟨STG_SO_CFG, 15, 8⟩
def STG_SO_CFG.HOLDING : Fld := ⟨STG_SO_CFG, 7, 7⟩
def STG_SO_CFG.CROSS : Fld := ⟨STG_SO_CFG, 6, 6⟩
def STG_SO_CFG.OWNER : Fld := ⟨STG_SO_CFG, 5, 3⟩
def STG_SO_CFG.TYPE : Fld := ⟨STG_SO_CFG, 2, 0⟩
def STG_SO_INIT : Nat := 0x209008
def STG_SO_INIT.INIT : Fld := ⟨STG_SO_INIT, 31, 0⟩
def STG_SO_STATE : Nat := 0x20900C
def STG_SO_STATE.WAITERS : Fld := ⟨STG_SO_STATE, 31, 16⟩
def STG_SO_STATE.HOLDS : Fld := ⟨STG_SO_STATE, 11, 1⟩
def STG_SO_STATE.BROKEN : Fld := ⟨STG_SO_STATE, 0, 0⟩
def STG_SO_VAL_LO : Nat := 0x209010
def STG_SO_VAL_LO.VALUE : Fld := ⟨STG_SO_VAL_LO, 31, 0⟩
def STG_SO_VAL_HI : Nat := 0x209014
def STG_SO_VAL_HI.VALUE : Fld := ⟨STG_SO_VAL_HI, 31, 0⟩
def STG_SO_CNT_BROKEN : Nat := 0x209020
def STG_SO_CNT_BROKEN.N : Fld := ⟨STG_SO_CNT_BROKEN, 31, 0⟩
def STG_SO_CNT_BADARG : Nat := 0x209024
def STG_SO_CNT_BADARG.N : Fld := ⟨STG_SO_CNT_BADARG, 31, 0⟩
def STG_SO_CNT_SAT : Nat := 0x209028
def STG_SO_CNT_SAT.N : Fld := ⟨STG_SO_CNT_SAT, 31, 0⟩
def STG_SO_CNT_CLEAR : Nat := 0x20902C
def STG_SO_CNT_CLEAR.CLEAR : Fld := ⟨STG_SO_CNT_CLEAR, 0, 0⟩

/-! ### SDG, spec/18 -/

def SDG_WIN : Nat := 0x210000
def SDG_WIN.K : Fld := ⟨SDG_WIN, 23, 16⟩
def SDG_WIN.N : Fld := ⟨SDG_WIN, 15, 0⟩
def SDG_STATUS : Nat := 0x210004
def SDG_STATUS.ST_FAIL : Fld := ⟨SDG_STATUS, 5, 5⟩
def SDG_STATUS.LP_KAL_FAIL : Fld := ⟨SDG_STATUS, 4, 4⟩
def SDG_STATUS.LOCKSTEP : Fld := ⟨SDG_STATUS, 3, 3⟩
def SDG_STATUS.BEHIND : Fld := ⟨SDG_STATUS, 2, 2⟩
def SDG_STATUS.SELFTEST_LATE : Fld := ⟨SDG_STATUS, 1, 1⟩
def SDG_STATUS.ALARM : Fld := ⟨SDG_STATUS, 0, 0⟩
def SDG_WIN_NOW : Nat := 0x210008
def SDG_WIN_NOW.PARTS : Fld := ⟨SDG_WIN_NOW, 31, 16⟩
def SDG_WIN_NOW.COUNT : Fld := ⟨SDG_WIN_NOW, 15, 0⟩
def SDG_ST_CFG : Nat := 0x21000C
def SDG_ST_CFG.ENABLE : Fld := ⟨SDG_ST_CFG, 16, 16⟩
def SDG_ST_CFG.INTERVAL_S : Fld := ⟨SDG_ST_CFG, 15, 0⟩
def SDG_ST_STATUS : Nat := 0x210010
def SDG_ST_STATUS.ELAPSED_S : Fld := ⟨SDG_ST_STATUS, 31, 16⟩
def SDG_ST_STATUS.OWED : Fld := ⟨SDG_ST_STATUS, 15, 0⟩
def SDG_PROOF : Nat := 0x210014
def SDG_PROOF.MODE : Fld := ⟨SDG_PROOF, 9, 8⟩
def SDG_PROOF.LANE : Fld := ⟨SDG_PROOF, 5, 0⟩
def SDG_CNT_DISAGREE : Nat := 0x210020
def SDG_CNT_DISAGREE.N : Fld := ⟨SDG_CNT_DISAGREE, 31, 0⟩
def SDG_CNT_LATE : Nat := 0x210024
def SDG_CNT_LATE.N : Fld := ⟨SDG_CNT_LATE, 31, 0⟩
def SDG_CNT_LATE_RESULT : Nat := 0x210028
def SDG_CNT_LATE_RESULT.N : Fld := ⟨SDG_CNT_LATE_RESULT, 31, 0⟩
def SDG_CNT_BAD_RESULT : Nat := 0x21002C
def SDG_CNT_BAD_RESULT.N : Fld := ⟨SDG_CNT_BAD_RESULT, 31, 0⟩
def SDG_CNT_DUP_RESULT : Nat := 0x210030
def SDG_CNT_DUP_RESULT.N : Fld := ⟨SDG_CNT_DUP_RESULT, 31, 0⟩
def SDG_CNT_ALARM : Nat := 0x210034
def SDG_CNT_ALARM.N : Fld := ⟨SDG_CNT_ALARM, 31, 0⟩
def SDG_CNT_ST_DONE : Nat := 0x210038
def SDG_CNT_ST_DONE.N : Fld := ⟨SDG_CNT_ST_DONE, 31, 0⟩
def SDG_CNT_ST_DEFER : Nat := 0x21003C
def SDG_CNT_ST_DEFER.N : Fld := ⟨SDG_CNT_ST_DEFER, 31, 0⟩
def SDG_CNT_ST_FAIL : Nat := 0x210040
def SDG_CNT_ST_FAIL.N : Fld := ⟨SDG_CNT_ST_FAIL, 31, 0⟩
def SDG_CNT_ST_LATE : Nat := 0x210044
def SDG_CNT_ST_LATE.N : Fld := ⟨SDG_CNT_ST_LATE, 31, 0⟩
def SDG_CNT_CLEAR : Nat := 0x210048
def SDG_CNT_CLEAR.CLEAR : Fld := ⟨SDG_CNT_CLEAR, 0, 0⟩
def SDG_CNT_SDG_MISSED : Nat := 0x21004C
def SDG_CNT_SDG_MISSED.N : Fld := ⟨SDG_CNT_SDG_MISSED, 31, 0⟩
def SDG_LANE_CFG (i : Nat) : Nat := 0x210400 + i * 32
def SDG_LANE_CFG.TILE_COUNT (i : Nat) : Fld := ⟨SDG_LANE_CFG i, 31, 16⟩
def SDG_LANE_CFG.TILE_THR (i : Nat) : Fld := ⟨SDG_LANE_CFG i, 15, 8⟩
def SDG_LANE_CFG.SEARCH (i : Nat) : Fld := ⟨SDG_LANE_CFG i, 6, 4⟩
def SDG_LANE_CFG.PLANE (i : Nat) : Fld := ⟨SDG_LANE_CFG i, 3, 1⟩
def SDG_LANE_CFG.ENABLE (i : Nat) : Fld := ⟨SDG_LANE_CFG i, 0, 0⟩
def SDG_LANE_REF_LO (i : Nat) : Nat := 0x210404 + i * 32
def SDG_LANE_REF_LO.N (i : Nat) : Fld := ⟨SDG_LANE_REF_LO i, 31, 0⟩
def SDG_LANE_REF_HI (i : Nat) : Nat := 0x210408 + i * 32
def SDG_LANE_REF_HI.N (i : Nat) : Fld := ⟨SDG_LANE_REF_HI i, 31, 0⟩
def SDG_LANE_REF_GEOM (i : Nat) : Nat := 0x21040C + i * 32
def SDG_LANE_REF_GEOM.ROWS (i : Nat) : Fld := ⟨SDG_LANE_REF_GEOM i, 28, 16⟩
def SDG_LANE_REF_GEOM.REF_W (i : Nat) : Fld := ⟨SDG_LANE_REF_GEOM i, 11, 0⟩
def SDG_LANE_LAST (i : Nat) : Nat := 0x210410 + i * 32
def SDG_LANE_LAST.N (i : Nat) : Fld := ⟨SDG_LANE_LAST i, 31, 0⟩

/-! ### FLD, spec/19 -/

def FLD_CTL : Nat := 0x220000
def FLD_CTL.STOP : Fld := ⟨FLD_CTL, 1, 1⟩
def FLD_CTL.RESUME : Fld := ⟨FLD_CTL, 0, 0⟩
def FLD_STATUS : Nat := 0x220004
def FLD_STATUS.LS_FAULT : Fld := ⟨FLD_STATUS, 6, 6⟩
def FLD_STATUS.UPLINK_LOST : Fld := ⟨FLD_STATUS, 5, 5⟩
def FLD_STATUS.SUPPLY_LOW : Fld := ⟨FLD_STATUS, 4, 4⟩
def FLD_STATUS.SYNC_OK : Fld := ⟨FLD_STATUS, 3, 3⟩
def FLD_STATUS.FSTATE : Fld := ⟨FLD_STATUS, 1, 0⟩
def FLD_LS_CAUSE : Nat := 0x220008
def FLD_LS_CAUSE.CAUSE : Fld := ⟨FLD_LS_CAUSE, 10, 0⟩
def FLD_SUPPLY : Nat := 0x22000C
def FLD_SUPPLY.TEMP : Fld := ⟨FLD_SUPPLY, 23, 16⟩
def FLD_SUPPLY.SUPPLY : Fld := ⟨FLD_SUPPLY, 15, 0⟩
def FLD_EDGEQ : Nat := 0x220010
def FLD_EDGEQ.PEAK : Fld := ⟨FLD_EDGEQ, 28, 16⟩
def FLD_EDGEQ.USED : Fld := ⟨FLD_EDGEQ, 12, 0⟩
def FLD_OUT_SET : Nat := 0x220014
def FLD_OUT_SET.LEVEL : Fld := ⟨FLD_OUT_SET, 15, 0⟩
def FLD_IN_STATE : Nat := 0x220018
def FLD_IN_STATE.LEVEL : Fld := ⟨FLD_IN_STATE, 15, 0⟩
def FLD_CNT_REJECT : Nat := 0x220020
def FLD_CNT_REJECT.N : Fld := ⟨FLD_CNT_REJECT, 31, 0⟩
def FLD_CNT_RETX : Nat := 0x220024
def FLD_CNT_RETX.N : Fld := ⟨FLD_CNT_RETX, 31, 0⟩
def FLD_CNT_UP_CRC : Nat := 0x220028
def FLD_CNT_UP_CRC.N : Fld := ⟨FLD_CNT_UP_CRC, 31, 0⟩
def FLD_CNT_SYNC_REJ : Nat := 0x22002C
def FLD_CNT_SYNC_REJ.N : Fld := ⟨FLD_CNT_SYNC_REJ, 31, 0⟩
def FLD_CNT_HB_LOSS : Nat := 0x220030
def FLD_CNT_HB_LOSS.N : Fld := ⟨FLD_CNT_HB_LOSS, 31, 0⟩
def FLD_CNT_CLEAR : Nat := 0x220034
def FLD_CNT_CLEAR.CLEAR : Fld := ⟨FLD_CNT_CLEAR, 0, 0⟩
def FLD_Q_CFG (i : Nat) : Nat := 0x220100 + i * 16
def FLD_Q_CFG.OVL_US (i : Nat) : Fld := ⟨FLD_Q_CFG i, 29, 16⟩
def FLD_Q_CFG.OPEN_EN (i : Nat) : Fld := ⟨FLD_Q_CFG i, 3, 3⟩
def FLD_Q_CFG.SAFE (i : Nat) : Fld := ⟨FLD_Q_CFG i, 2, 2⟩
def FLD_Q_CFG.MODE (i : Nat) : Fld := ⟨FLD_Q_CFG i, 1, 0⟩
def FLD_Q_STATUS (i : Nat) : Nat := 0x220104 + i * 16
def FLD_Q_STATUS.LEVEL (i : Nat) : Fld := ⟨FLD_Q_STATUS i, 4, 4⟩
def FLD_Q_STATUS.OPEN_ON (i : Nat) : Fld := ⟨FLD_Q_STATUS i, 3, 3⟩
def FLD_Q_STATUS.OPEN_OFF (i : Nat) : Fld := ⟨FLD_Q_STATUS i, 2, 2⟩
def FLD_Q_STATUS.OVERTEMP (i : Nat) : Fld := ⟨FLD_Q_STATUS i, 1, 1⟩
def FLD_Q_STATUS.OVERLOAD (i : Nat) : Fld := ⟨FLD_Q_STATUS i, 0, 0⟩
def FLD_Q_PULSES (i : Nat) : Nat := 0x220108 + i * 16
def FLD_Q_PULSES.N (i : Nat) : Fld := ⟨FLD_Q_PULSES i, 31, 0⟩
def FLD_Q_FAULTS (i : Nat) : Nat := 0x22010C + i * 16
def FLD_Q_FAULTS.N (i : Nat) : Fld := ⟨FLD_Q_FAULTS i, 31, 0⟩
def FLD_I_CFG (i : Nat) : Nat := 0x220200 + i * 16
def FLD_I_CFG.FUNC (i : Nat) : Fld := ⟨FLD_I_CFG i, 17, 16⟩
def FLD_I_CFG.FILT_US (i : Nat) : Fld := ⟨FLD_I_CFG i, 9, 0⟩
def FLD_I_LAST_DTIME_LO (i : Nat) : Nat := 0x220204 + i * 16
def FLD_I_LAST_DTIME_LO.N (i : Nat) : Fld := ⟨FLD_I_LAST_DTIME_LO i, 31, 0⟩
def FLD_I_LAST_DTIME_HI (i : Nat) : Nat := 0x220208 + i * 16
def FLD_I_LAST_DTIME_HI.N (i : Nat) : Fld := ⟨FLD_I_LAST_DTIME_HI i, 31, 0⟩
def FLD_I_EDGES (i : Nat) : Nat := 0x22020C + i * 16
def FLD_I_EDGES.N (i : Nat) : Fld := ⟨FLD_I_EDGES i, 31, 0⟩

/-! ### AUD, spec/19 -/

def AUD_CFG : Nat := 0x230000
def AUD_CFG.VSUP : Fld := ⟨AUD_CFG, 4, 3⟩
def AUD_CFG.RATE : Fld := ⟨AUD_CFG, 1, 0⟩
def AUD_A_CFG (i : Nat) : Nat := 0x230010 + i * 4
def AUD_A_CFG.SLOT (i : Nat) : Fld := ⟨AUD_A_CFG i, 3, 1⟩
def AUD_A_CFG.ENABLE (i : Nat) : Fld := ⟨AUD_A_CFG i, 0, 0⟩
def AUD_STATUS : Nat := 0x230020
def AUD_STATUS.SUP_FAULT : Fld := ⟨AUD_STATUS, 3, 0⟩
def AUD_AC_CFG (i : Nat) : Nat := 0x230100 + i * 16
def AUD_AC_CFG.DELAY_US (i : Nat) : Fld := ⟨AUD_AC_CFG i, 22, 7⟩
def AUD_AC_CFG.BAND (i : Nat) : Fld := ⟨AUD_AC_CFG i, 6, 3⟩
def AUD_AC_CFG.INPUT (i : Nat) : Fld := ⟨AUD_AC_CFG i, 2, 1⟩
def AUD_AC_CFG.ENABLE (i : Nat) : Fld := ⟨AUD_AC_CFG i, 0, 0⟩
def AUD_AC_WIN (i : Nat) : Nat := 0x230104 + i * 16
def AUD_AC_WIN.WIN_US (i : Nat) : Fld := ⟨AUD_AC_WIN i, 15, 0⟩
def AUD_AC_THR (i : Nat) : Nat := 0x230108 + i * 16
def AUD_AC_THR.N (i : Nat) : Fld := ⟨AUD_AC_THR i, 31, 0⟩
def AUD_CNT_AC_OK : Nat := 0x230300
def AUD_CNT_AC_OK.N : Fld := ⟨AUD_CNT_AC_OK, 31, 0⟩
def AUD_CNT_AC_FAIL : Nat := 0x230304
def AUD_CNT_AC_FAIL.N : Fld := ⟨AUD_CNT_AC_FAIL, 31, 0⟩
def AUD_CNT_NOFRAME : Nat := 0x230308
def AUD_CNT_NOFRAME.N : Fld := ⟨AUD_CNT_NOFRAME, 31, 0⟩
def AUD_CNT_AC_LATE : Nat := 0x23030C
def AUD_CNT_AC_LATE.N : Fld := ⟨AUD_CNT_AC_LATE, 31, 0⟩
def AUD_CNT_CLEAR : Nat := 0x230310
def AUD_CNT_CLEAR.CLEAR : Fld := ⟨AUD_CNT_CLEAR, 0, 0⟩

/-! ### GTS, spec/20 -/

def GTS_CFG : Nat := 0x240000
def GTS_CFG.LOSS_US : Fld := ⟨GTS_CFG, 23, 8⟩
def GTS_CFG.ENABLE : Fld := ⟨GTS_CFG, 6, 6⟩
def GTS_CFG.ID : Fld := ⟨GTS_CFG, 5, 0⟩
def GTS_MEMBERS_LO : Nat := 0x240004
def GTS_MEMBERS_LO.N : Fld := ⟨GTS_MEMBERS_LO, 31, 0⟩
def GTS_MEMBERS_HI : Nat := 0x240008
def GTS_MEMBERS_HI.N : Fld := ⟨GTS_MEMBERS_HI, 31, 0⟩
def GTS_STATUS : Nat := 0x24000C
def GTS_STATUS.QUORUM : Fld := ⟨GTS_STATUS, 12, 12⟩
def GTS_STATUS.TIME_MASTER : Fld := ⟨GTS_STATUS, 11, 6⟩
def GTS_STATUS.LEADER : Fld := ⟨GTS_STATUS, 5, 0⟩
def GTS_REACH_LO : Nat := 0x240010
def GTS_REACH_LO.N : Fld := ⟨GTS_REACH_LO, 31, 0⟩
def GTS_REACH_HI : Nat := 0x240014
def GTS_REACH_HI.N : Fld := ⟨GTS_REACH_HI, 31, 0⟩
def GTS_MAP_EPOCH : Nat := 0x240018
def GTS_MAP_EPOCH.N : Fld := ⟨GTS_MAP_EPOCH, 31, 0⟩
def GTS_TIME_STATUS : Nat := 0x240020
def GTS_TIME_STATUS.OFFSET : Fld := ⟨GTS_TIME_STATUS, 31, 16⟩
def GTS_TIME_STATUS.UPVALID : Fld := ⟨GTS_TIME_STATUS, 11, 11⟩
def GTS_TIME_STATUS.UPPORT : Fld := ⟨GTS_TIME_STATUS, 10, 8⟩
def GTS_TIME_STATUS.JOIN_BLOCKED : Fld := ⟨GTS_TIME_STATUS, 1, 1⟩
def GTS_TIME_STATUS.SYNCED : Fld := ⟨GTS_TIME_STATUS, 0, 0⟩
def GTS_TIME_DELAY : Nat := 0x240024
def GTS_TIME_DELAY.N : Fld := ⟨GTS_TIME_DELAY, 31, 0⟩
def GTS_CNT_UNROUTED : Nat := 0x240040
def GTS_CNT_UNROUTED.N : Fld := ⟨GTS_CNT_UNROUTED, 31, 0⟩
def GTS_CNT_PROMOTE : Nat := 0x240044
def GTS_CNT_PROMOTE.N : Fld := ⟨GTS_CNT_PROMOTE, 31, 0⟩
def GTS_CNT_CLEAR : Nat := 0x240048
def GTS_CNT_CLEAR.CLEAR : Fld := ⟨GTS_CNT_CLEAR, 0, 0⟩
def GTS_G_CFG (i : Nat) : Nat := 0x240100 + i * 32
def GTS_G_CFG.ENABLE (i : Nat) : Fld := ⟨GTS_G_CFG i, 0, 0⟩
def GTS_G_ASYM (i : Nat) : Nat := 0x240104 + i * 32
def GTS_G_ASYM.PS (i : Nat) : Fld := ⟨GTS_G_ASYM i, 15, 0⟩
def GTS_G_STATUS (i : Nat) : Nat := 0x240108 + i * 32
def GTS_G_STATUS.REASON (i : Nat) : Fld := ⟨GTS_G_STATUS i, 20, 18⟩
def GTS_G_STATUS.PEER_PORT (i : Nat) : Fld := ⟨GTS_G_STATUS i, 16, 14⟩
def GTS_G_STATUS.PEER_ID (i : Nat) : Fld := ⟨GTS_G_STATUS i, 13, 8⟩
def GTS_G_STATUS.STATE (i : Nat) : Fld := ⟨GTS_G_STATUS i, 2, 0⟩
def GTS_G_NAK (i : Nat) : Nat := 0x24010C + i * 32
def GTS_G_NAK.N (i : Nat) : Fld := ⟨GTS_G_NAK i, 31, 0⟩
def GTS_G_REPLAY_FAIL (i : Nat) : Nat := 0x240110 + i * 32
def GTS_G_REPLAY_FAIL.N (i : Nat) : Fld := ⟨GTS_G_REPLAY_FAIL i, 31, 0⟩
def GTS_G_DOWN (i : Nat) : Nat := 0x240114 + i * 32
def GTS_G_DOWN.N (i : Nat) : Fld := ⟨GTS_G_DOWN i, 31, 0⟩
def GTS_PTN_CRED (i : Nat) : Nat := 0x240300 + i * 4
def GTS_PTN_CRED.BULK (i : Nat) : Fld := ⟨GTS_PTN_CRED i, 20, 10⟩
def GTS_PTN_CRED.LOOKUP (i : Nat) : Fld := ⟨GTS_PTN_CRED i, 8, 0⟩
def GTS_RW_BASE_LO (i : Nat) : Nat := 0x240400 + i * 16
def GTS_RW_BASE_LO.N (i : Nat) : Fld := ⟨GTS_RW_BASE_LO i, 31, 0⟩
def GTS_RW_BASE_HI (i : Nat) : Nat := 0x240404 + i * 16
def GTS_RW_BASE_HI.N (i : Nat) : Fld := ⟨GTS_RW_BASE_HI i, 31, 0⟩
def GTS_RW_CTL (i : Nat) : Nat := 0x240408 + i * 16
def GTS_RW_CTL.ENABLE (i : Nat) : Fld := ⟨GTS_RW_CTL i, 25, 25⟩
def GTS_RW_CTL.WRITE (i : Nat) : Fld := ⟨GTS_RW_CTL i, 24, 24⟩
def GTS_RW_CTL.PARTS (i : Nat) : Fld := ⟨GTS_RW_CTL i, 23, 16⟩
def GTS_RW_CTL.PAGES (i : Nat) : Fld := ⟨GTS_RW_CTL i, 15, 0⟩
def GTS_HX_CFG (i : Nat) : Nat := 0x240800 + i * 32
def GTS_HX_CFG.PART (i : Nat) : Fld := ⟨GTS_HX_CFG i, 17, 15⟩
def GTS_HX_CFG.STREAM (i : Nat) : Fld := ⟨GTS_HX_CFG i, 14, 12⟩
def GTS_HX_CFG.CAMERA (i : Nat) : Fld := ⟨GTS_HX_CFG i, 11, 8⟩
def GTS_HX_CFG.PEER (i : Nat) : Fld := ⟨GTS_HX_CFG i, 7, 2⟩
def GTS_HX_CFG.DIR (i : Nat) : Fld := ⟨GTS_HX_CFG i, 1, 1⟩
def GTS_HX_CFG.ENABLE (i : Nat) : Fld := ⟨GTS_HX_CFG i, 0, 0⟩
def GTS_HX_COLS (i : Nat) : Nat := 0x240804 + i * 32
def GTS_HX_COLS.COLS (i : Nat) : Fld := ⟨GTS_HX_COLS i, 21, 13⟩
def GTS_HX_COLS.COL0 (i : Nat) : Fld := ⟨GTS_HX_COLS i, 12, 0⟩
def GTS_HX_BASE_LO (i : Nat) : Nat := 0x240808 + i * 32
def GTS_HX_BASE_LO.N (i : Nat) : Fld := ⟨GTS_HX_BASE_LO i, 31, 0⟩
def GTS_HX_BASE_HI (i : Nat) : Nat := 0x24080C + i * 32
def GTS_HX_BASE_HI.N (i : Nat) : Fld := ⟨GTS_HX_BASE_HI i, 31, 0⟩
def GTS_HX_BUF (i : Nat) : Nat := 0x240810 + i * 32
def GTS_HX_BUF.SO (i : Nat) : Fld := ⟨GTS_HX_BUF i, 21, 8⟩
def GTS_HX_BUF.BUFS (i : Nat) : Fld := ⟨GTS_HX_BUF i, 7, 0⟩
def GTS_HX_STRIDE (i : Nat) : Nat := 0x240814 + i * 32
def GTS_HX_STRIDE.UNITS (i : Nat) : Fld := ⟨GTS_HX_STRIDE i, 15, 0⟩
def GTS_HX_STRIPS (i : Nat) : Nat := 0x240818 + i * 32
def GTS_HX_STRIPS.N (i : Nat) : Fld := ⟨GTS_HX_STRIPS i, 31, 0⟩
def GTS_HX_DROP (i : Nat) : Nat := 0x24081C + i * 32
def GTS_HX_DROP.N (i : Nat) : Fld := ⟨GTS_HX_DROP i, 31, 0⟩

/-! ### NTM, spec/22 -/

def NTM_PTP_CFG : Nat := 0x250000
def NTM_PTP_CFG.ANN_TMO : Fld := ⟨NTM_PTP_CFG, 19, 16⟩
def NTM_PTP_CFG.DOMAIN : Fld := ⟨NTM_PTP_CFG, 15, 8⟩
def NTM_PTP_CFG.IPV6 : Fld := ⟨NTM_PTP_CFG, 2, 2⟩
def NTM_PTP_CFG.PORT : Fld := ⟨NTM_PTP_CFG, 1, 1⟩
def NTM_PTP_CFG.ENABLE : Fld := ⟨NTM_PTP_CFG, 0, 0⟩
def NTM_STATUS : Nat := 0x250004
def NTM_STATUS.SNAP_DONE : Fld := ⟨NTM_STATUS, 8, 8⟩
def NTM_STATUS.HOLDOVER : Fld := ⟨NTM_STATUS, 7, 7⟩
def NTM_STATUS.TXQ_OVF : Fld := ⟨NTM_STATUS, 6, 6⟩
def NTM_STATUS.UTC_VALID : Fld := ⟨NTM_STATUS, 5, 5⟩
def NTM_STATUS.VALID : Fld := ⟨NTM_STATUS, 4, 4⟩
def NTM_STATUS.STATE : Fld := ⟨NTM_STATUS, 3, 0⟩
def NTM_OFFSET : Nat := 0x250008
def NTM_OFFSET.N : Fld := ⟨NTM_OFFSET, 31, 0⟩
def NTM_DELAY : Nat := 0x25000C
def NTM_DELAY.N : Fld := ⟨NTM_DELAY, 31, 0⟩
def NTM_RATE : Nat := 0x250010
def NTM_RATE.N : Fld := ⟨NTM_RATE, 31, 0⟩
def NTM_GM_LO : Nat := 0x250014
def NTM_GM_LO.N : Fld := ⟨NTM_GM_LO, 31, 0⟩
def NTM_GM_HI : Nat := 0x250018
def NTM_GM_HI.N : Fld := ⟨NTM_GM_HI, 31, 0⟩
def NTM_UTC : Nat := 0x25001C
def NTM_UTC.OFFSET : Fld := ⟨NTM_UTC, 15, 0⟩
def NTM_NS : Nat := 0x250020
def NTM_NS.N : Fld := ⟨NTM_NS, 31, 0⟩
def NTM_SNAP_CTL : Nat := 0x250024
def NTM_SNAP_CTL.TAKE : Fld := ⟨NTM_SNAP_CTL, 0, 0⟩
def NTM_SNAP_NT_LO : Nat := 0x250028
def NTM_SNAP_NT_LO.N : Fld := ⟨NTM_SNAP_NT_LO, 31, 0⟩
def NTM_SNAP_NT_HI : Nat := 0x25002C
def NTM_SNAP_NT_HI.N : Fld := ⟨NTM_SNAP_NT_HI, 31, 0⟩
def NTM_SNAP_DT_LO : Nat := 0x250030
def NTM_SNAP_DT_LO.N : Fld := ⟨NTM_SNAP_DT_LO, 31, 0⟩
def NTM_SNAP_DT_HI : Nat := 0x250034
def NTM_SNAP_DT_HI.N : Fld := ⟨NTM_SNAP_DT_HI, 31, 0⟩
def NTM_TXQ : Nat := 0x250038
def NTM_TXQ.COUNT : Fld := ⟨NTM_TXQ, 4, 0⟩
def NTM_CNT_STEP : Nat := 0x250040
def NTM_CNT_STEP.N : Fld := ⟨NTM_CNT_STEP, 31, 0⟩
def NTM_CNT_TXQ_OVF : Nat := 0x250044
def NTM_CNT_TXQ_OVF.N : Fld := ⟨NTM_CNT_TXQ_OVF, 31, 0⟩
def NTM_CNT_TXQ_STALE : Nat := 0x250048
def NTM_CNT_TXQ_STALE.N : Fld := ⟨NTM_CNT_TXQ_STALE, 31, 0⟩
def NTM_CNT_SYNC_RX : Nat := 0x25004C
def NTM_CNT_SYNC_RX.N : Fld := ⟨NTM_CNT_SYNC_RX, 31, 0⟩
def NTM_CNT_CLEAR : Nat := 0x250050
def NTM_CNT_CLEAR.CLEAR : Fld := ⟨NTM_CNT_CLEAR, 0, 0⟩
def NTM_TPO_CFG (i : Nat) : Nat := 0x250100 + i * 32
def NTM_TPO_CFG.POL (i : Nat) : Fld := ⟨NTM_TPO_CFG i, 3, 3⟩
def NTM_TPO_CFG.BASE (i : Nat) : Fld := ⟨NTM_TPO_CFG i, 2, 2⟩
def NTM_TPO_CFG.MODE (i : Nat) : Fld := ⟨NTM_TPO_CFG i, 1, 1⟩
def NTM_TPO_CFG.ENABLE (i : Nat) : Fld := ⟨NTM_TPO_CFG i, 0, 0⟩
def NTM_TPO_START_LO (i : Nat) : Nat := 0x250104 + i * 32
def NTM_TPO_START_LO.N (i : Nat) : Fld := ⟨NTM_TPO_START_LO i, 31, 0⟩
def NTM_TPO_START_HI (i : Nat) : Nat := 0x250108 + i * 32
def NTM_TPO_START_HI.N (i : Nat) : Fld := ⟨NTM_TPO_START_HI i, 31, 0⟩
def NTM_TPO_PERIOD (i : Nat) : Nat := 0x25010C + i * 32
def NTM_TPO_PERIOD.N (i : Nat) : Fld := ⟨NTM_TPO_PERIOD i, 31, 0⟩
def NTM_TPO_WIDTH (i : Nat) : Nat := 0x250110 + i * 32
def NTM_TPO_WIDTH.N (i : Nat) : Fld := ⟨NTM_TPO_WIDTH i, 31, 0⟩
def NTM_TPO_STATUS (i : Nat) : Nat := 0x250114 + i * 32
def NTM_TPO_STATUS.MISSED (i : Nat) : Fld := ⟨NTM_TPO_STATUS i, 31, 16⟩
def NTM_TPO_STATUS.MISS_SEEN (i : Nat) : Fld := ⟨NTM_TPO_STATUS i, 1, 1⟩
def NTM_TPO_STATUS.ARMED (i : Nat) : Fld := ⟨NTM_TPO_STATUS i, 0, 0⟩
def NTM_TPO_PULSES (i : Nat) : Nat := 0x250118 + i * 32
def NTM_TPO_PULSES.N (i : Nat) : Fld := ⟨NTM_TPO_PULSES i, 31, 0⟩

/-! ### LOFT, spec/22 -/

def LOFT_CUR : Nat := 0x260000
def LOFT_CUR.RECORD : Fld := ⟨LOFT_CUR, 9, 0⟩
def LOFT_HEAD : Nat := 0x260004
def LOFT_HEAD.N : Fld := ⟨LOFT_HEAD, 31, 0⟩
def LOFT_STATUS : Nat := 0x260008
def LOFT_STATUS.DROP_SEEN : Fld := ⟨LOFT_STATUS, 0, 0⟩
def LOFT_CNT_DROP : Nat := 0x26000C
def LOFT_CNT_DROP.N : Fld := ⟨LOFT_CNT_DROP, 31, 0⟩
def LOFT_CLEAR : Nat := 0x260010
def LOFT_CLEAR.ONE : Fld := ⟨LOFT_CLEAR, 31, 31⟩
def LOFT_CLEAR.ALL : Fld := ⟨LOFT_CLEAR, 30, 30⟩
def LOFT_CLEAR.DROP : Fld := ⟨LOFT_CLEAR, 29, 29⟩
def LOFT_CLEAR.RECORD : Fld := ⟨LOFT_CLEAR, 9, 0⟩
def LOFT_WIN (i : Nat) : Nat := 0x260100 + i * 4
def LOFT_WIN.N (i : Nat) : Fld := ⟨LOFT_WIN i, 31, 0⟩
def LOFT_A0_BIN0 (i : Nat) : Nat := 0x260400 + i * 8
def LOFT_A0_BIN0.N (i : Nat) : Fld := ⟨LOFT_A0_BIN0 i, 31, 0⟩
def LOFT_A0_BINW (i : Nat) : Nat := 0x260404 + i * 8
def LOFT_A0_BINW.N (i : Nat) : Fld := ⟨LOFT_A0_BINW i, 31, 0⟩
def LOFT_A3_BIN0 : Nat := 0x260418
def LOFT_A3_BIN0.N : Fld := ⟨LOFT_A3_BIN0, 31, 0⟩
def LOFT_A3_BINW : Nat := 0x26041C
def LOFT_A3_BINW.N : Fld := ⟨LOFT_A3_BINW, 31, 0⟩
def LOFT_A16_BIN0 (i : Nat) : Nat := 0x260480 + i * 8
def LOFT_A16_BIN0.N (i : Nat) : Fld := ⟨LOFT_A16_BIN0 i, 31, 0⟩
def LOFT_A16_BINW (i : Nat) : Nat := 0x260484 + i * 8
def LOFT_A16_BINW.N (i : Nat) : Fld := ⟨LOFT_A16_BINW i, 31, 0⟩

/-! ### ADP, spec/13 -/

def ADP_CAP_CFG : Nat := 0x270000
def ADP_CAP_CFG.PART : Fld := ⟨ADP_CAP_CFG, 7, 5⟩
def ADP_CAP_CFG.STREAM : Fld := ⟨ADP_CAP_CFG, 4, 2⟩
def ADP_CAP_CFG.ENABLE : Fld := ⟨ADP_CAP_CFG, 1, 1⟩
def ADP_CAP_CFG.ARM : Fld := ⟨ADP_CAP_CFG, 0, 0⟩
def ADP_CAP_LANES_LO : Nat := 0x270004
def ADP_CAP_LANES_LO.N : Fld := ⟨ADP_CAP_LANES_LO, 31, 0⟩
def ADP_CAP_LANES_HI : Nat := 0x270008
def ADP_CAP_LANES_HI.N : Fld := ⟨ADP_CAP_LANES_HI, 31, 0⟩
def ADP_CAP_N : Nat := 0x27000C
def ADP_CAP_N.N : Fld := ⟨ADP_CAP_N, 15, 0⟩
def ADP_CAP_AREA_LO : Nat := 0x270010
def ADP_CAP_AREA_LO.N : Fld := ⟨ADP_CAP_AREA_LO, 31, 0⟩
def ADP_CAP_AREA_HI : Nat := 0x270014
def ADP_CAP_AREA_HI.N : Fld := ⟨ADP_CAP_AREA_HI, 31, 0⟩
def ADP_CAP_GEOM : Nat := 0x270018
def ADP_CAP_GEOM.PAGES : Fld := ⟨ADP_CAP_GEOM, 31, 16⟩
def ADP_CAP_GEOM.SLOTS : Fld := ⟨ADP_CAP_GEOM, 12, 0⟩
def ADP_CAP_ROWS : Nat := 0x27001C
def ADP_CAP_ROWS.ROWS_MAX : Fld := ⟨ADP_CAP_ROWS, 15, 0⟩
def ADP_CAP_LIST_LO : Nat := 0x270020
def ADP_CAP_LIST_LO.N : Fld := ⟨ADP_CAP_LIST_LO, 31, 0⟩
def ADP_CAP_LIST_HI : Nat := 0x270024
def ADP_CAP_LIST_HI.N : Fld := ⟨ADP_CAP_LIST_HI, 31, 0⟩
def ADP_CAP_SO : Nat := 0x270028
def ADP_CAP_SO.SO : Fld := ⟨ADP_CAP_SO, 13, 0⟩
def ADP_CAP_STATUS : Nat := 0x27002C
def ADP_CAP_STATUS.KEPT : Fld := ⟨ADP_CAP_STATUS, 31, 16⟩
def ADP_CAP_STATUS.STATE : Fld := ⟨ADP_CAP_STATUS, 1, 0⟩
def ADP_CAP_CAND : Nat := 0x270030
def ADP_CAP_CAND.N : Fld := ⟨ADP_CAP_CAND, 31, 0⟩
def ADP_CAP_NOSLOT : Nat := 0x270034
def ADP_CAP_NOSLOT.N : Fld := ⟨ADP_CAP_NOSLOT, 31, 0⟩
def ADP_CAP_DROPPED : Nat := 0x270038
def ADP_CAP_DROPPED.N : Fld := ⟨ADP_CAP_DROPPED, 31, 0⟩
def ADP_CAP_CLEAR : Nat := 0x27003C
def ADP_CAP_CLEAR.CLEAR : Fld := ⟨ADP_CAP_CLEAR, 0, 0⟩
def ADP_IN_CFG : Nat := 0x270100
def ADP_IN_CFG.QDEPTH : Fld := ⟨ADP_IN_CFG, 21, 16⟩
def ADP_IN_CFG.BATCH : Fld := ⟨ADP_IN_CFG, 15, 8⟩
def ADP_IN_CFG.PART : Fld := ⟨ADP_IN_CFG, 5, 3⟩
def ADP_IN_CFG.DROP_LAST : Fld := ⟨ADP_IN_CFG, 2, 2⟩
def ADP_IN_CFG.SRC_CAP : Fld := ⟨ADP_IN_CFG, 1, 1⟩
def ADP_IN_CFG.ENABLE : Fld := ⟨ADP_IN_CFG, 0, 0⟩
def ADP_IN_LIST_LO : Nat := 0x270104
def ADP_IN_LIST_LO.N : Fld := ⟨ADP_IN_LIST_LO, 31, 0⟩
def ADP_IN_LIST_HI : Nat := 0x270108
def ADP_IN_LIST_HI.N : Fld := ⟨ADP_IN_LIST_HI, 31, 0⟩
def ADP_IN_COUNT : Nat := 0x27010C
def ADP_IN_COUNT.N : Fld := ⟨ADP_IN_COUNT, 23, 0⟩
def ADP_IN_Q_LO : Nat := 0x270110
def ADP_IN_Q_LO.N : Fld := ⟨ADP_IN_Q_LO, 31, 0⟩
def ADP_IN_Q_HI : Nat := 0x270114
def ADP_IN_Q_HI.N : Fld := ⟨ADP_IN_Q_HI, 31, 0⟩
def ADP_IN_SLOT : Nat := 0x270118
def ADP_IN_SLOT.UNITS : Fld := ⟨ADP_IN_SLOT, 19, 0⟩
def ADP_IN_SEED_LO : Nat := 0x27011C
def ADP_IN_SEED_LO.N : Fld := ⟨ADP_IN_SEED_LO, 31, 0⟩
def ADP_IN_SEED_HI : Nat := 0x270120
def ADP_IN_SEED_HI.N : Fld := ⟨ADP_IN_SEED_HI, 31, 0⟩
def ADP_IN_EPOCH : Nat := 0x270124
def ADP_IN_EPOCH.N : Fld := ⟨ADP_IN_EPOCH, 31, 0⟩
def ADP_IN_EPOCHS : Nat := 0x270128
def ADP_IN_EPOCHS.N : Fld := ⟨ADP_IN_EPOCHS, 31, 0⟩
def ADP_IN_SO : Nat := 0x27012C
def ADP_IN_SO.FREE : Fld := ⟨ADP_IN_SO, 27, 14⟩
def ADP_IN_SO.READY : Fld := ⟨ADP_IN_SO, 13, 0⟩
def ADP_IN_LOW : Nat := 0x270130
def ADP_IN_LOW.LOW_WATER : Fld := ⟨ADP_IN_LOW, 7, 0⟩
def ADP_IN_BUDGET : Nat := 0x270134
def ADP_IN_BUDGET.N : Fld := ⟨ADP_IN_BUDGET, 31, 0⟩
def ADP_IN_STATUS : Nat := 0x270138
def ADP_IN_STATUS.READY : Fld := ⟨ADP_IN_STATUS, 15, 8⟩
def ADP_IN_STATUS.DONE : Fld := ⟨ADP_IN_STATUS, 2, 2⟩
def ADP_IN_STATUS.LOW_WATER_SEEN : Fld := ⟨ADP_IN_STATUS, 1, 1⟩
def ADP_IN_STATUS.RUNNING : Fld := ⟨ADP_IN_STATUS, 0, 0⟩
def ADP_IN_EPOCH_NOW : Nat := 0x27013C
def ADP_IN_EPOCH_NOW.N : Fld := ⟨ADP_IN_EPOCH_NOW, 31, 0⟩
def ADP_IN_POS_NOW : Nat := 0x270140
def ADP_IN_POS_NOW.N : Fld := ⟨ADP_IN_POS_NOW, 31, 0⟩
def ADP_IN_CNT_OK : Nat := 0x270150
def ADP_IN_CNT_OK.N : Fld := ⟨ADP_IN_CNT_OK, 31, 0⟩
def ADP_IN_CNT_SHORT : Nat := 0x270154
def ADP_IN_CNT_SHORT.N : Fld := ⟨ADP_IN_CNT_SHORT, 31, 0⟩
def ADP_IN_CNT_TIMED_OUT : Nat := 0x270158
def ADP_IN_CNT_TIMED_OUT.N : Fld := ⟨ADP_IN_CNT_TIMED_OUT, 31, 0⟩
def ADP_IN_CNT_TOO_BIG : Nat := 0x27015C
def ADP_IN_CNT_TOO_BIG.N : Fld := ⟨ADP_IN_CNT_TOO_BIG, 31, 0⟩
def ADP_IN_CNT_RATIO : Nat := 0x270160
def ADP_IN_CNT_RATIO.N : Fld := ⟨ADP_IN_CNT_RATIO, 31, 0⟩
def ADP_IN_CNT_FORMAT : Nat := 0x270164
def ADP_IN_CNT_FORMAT.N : Fld := ⟨ADP_IN_CNT_FORMAT, 31, 0⟩
def ADP_IN_CNT_CORRUPT : Nat := 0x270168
def ADP_IN_CNT_CORRUPT.N : Fld := ⟨ADP_IN_CNT_CORRUPT, 31, 0⟩
def ADP_IN_CNT_LOW : Nat := 0x27016C
def ADP_IN_CNT_LOW.N : Fld := ⟨ADP_IN_CNT_LOW, 31, 0⟩
def ADP_IN_CNT_CLEAR : Nat := 0x270170
def ADP_IN_CNT_CLEAR.CLEAR : Fld := ⟨ADP_IN_CNT_CLEAR, 0, 0⟩
def ADP_PUB_CFG : Nat := 0x270200
def ADP_PUB_CFG.JOB : Fld := ⟨ADP_PUB_CFG, 7, 2⟩
def ADP_PUB_CFG.AUTO : Fld := ⟨ADP_PUB_CFG, 1, 1⟩
def ADP_PUB_CFG.ENABLE : Fld := ⟨ADP_PUB_CFG, 0, 0⟩
def ADP_PUB_SO : Nat := 0x270204
def ADP_PUB_SO.DONE : Fld := ⟨ADP_PUB_SO, 29, 16⟩
def ADP_PUB_SO.REQ : Fld := ⟨ADP_PUB_SO, 13, 0⟩
def ADP_PUB_REC_LO : Nat := 0x270208
def ADP_PUB_REC_LO.N : Fld := ⟨ADP_PUB_REC_LO, 31, 0⟩
def ADP_PUB_REC_HI : Nat := 0x27020C
def ADP_PUB_REC_HI.N : Fld := ⟨ADP_PUB_REC_HI, 31, 0⟩
def ADP_PUB_RING : Nat := 0x270210
def ADP_PUB_RING.RING : Fld := ⟨ADP_PUB_RING, 12, 0⟩
def ADP_PUB_STATUS : Nat := 0x270214
def ADP_PUB_STATUS.COUNT : Fld := ⟨ADP_PUB_STATUS, 31, 16⟩
def ADP_PUB_STATUS.REASON : Fld := ⟨ADP_PUB_STATUS, 5, 3⟩
def ADP_PUB_STATUS.REFUSED : Fld := ⟨ADP_PUB_STATUS, 2, 2⟩
def ADP_PUB_STATUS.SUPERSEDED : Fld := ⟨ADP_PUB_STATUS, 1, 1⟩
def ADP_PUB_STATUS.STAGED : Fld := ⟨ADP_PUB_STATUS, 0, 0⟩
def ADP_PUB_DIGEST (i : Nat) : Nat := 0x270220 + i * 4
def ADP_PUB_DIGEST.N (i : Nat) : Fld := ⟨ADP_PUB_DIGEST i, 31, 0⟩
def ADP_AUD_CFG (i : Nat) : Nat := 0x270300 + i * 64
def ADP_AUD_CFG.PART (i : Nat) : Fld := ⟨ADP_AUD_CFG i, 8, 6⟩
def ADP_AUD_CFG.HOP (i : Nat) : Fld := ⟨ADP_AUD_CFG i, 5, 4⟩
def ADP_AUD_CFG.FFT (i : Nat) : Fld := ⟨ADP_AUD_CFG i, 3, 2⟩
def ADP_AUD_CFG.PRIV (i : Nat) : Fld := ⟨ADP_AUD_CFG i, 1, 1⟩
def ADP_AUD_CFG.ENABLE (i : Nat) : Fld := ⟨ADP_AUD_CFG i, 0, 0⟩
def ADP_AUD_RING_LO (i : Nat) : Nat := 0x270304 + i * 64
def ADP_AUD_RING_LO.N (i : Nat) : Fld := ⟨ADP_AUD_RING_LO i, 31, 0⟩
def ADP_AUD_RING_HI (i : Nat) : Nat := 0x270308 + i * 64
def ADP_AUD_RING_HI.N (i : Nat) : Fld := ⟨ADP_AUD_RING_HI i, 31, 0⟩
def ADP_AUD_COUNT (i : Nat) : Nat := 0x27030C + i * 64
def ADP_AUD_COUNT.N (i : Nat) : Fld := ⟨ADP_AUD_COUNT i, 15, 0⟩
def ADP_AUD_SO (i : Nat) : Nat := 0x270310 + i * 64
def ADP_AUD_SO.SO (i : Nat) : Fld := ⟨ADP_AUD_SO i, 13, 0⟩
def ADP_AUD_STATUS (i : Nat) : Nat := 0x270314 + i * 64
def ADP_AUD_STATUS.GAP_SEEN (i : Nat) : Fld := ⟨ADP_AUD_STATUS i, 1, 1⟩
def ADP_AUD_STATUS.CLIP_SEEN (i : Nat) : Fld := ⟨ADP_AUD_STATUS i, 0, 0⟩
def ADP_AUD_SEQ (i : Nat) : Nat := 0x270318 + i * 64
def ADP_AUD_SEQ.N (i : Nat) : Fld := ⟨ADP_AUD_SEQ i, 31, 0⟩
def ADP_AUD_BAND (i : Nat) (j : Nat) : Nat := 0x270400 + i * 64 + j * 4
def ADP_AUD_BAND.K1 (i : Nat) (j : Nat) : Fld := ⟨ADP_AUD_BAND i j, 26, 16⟩
def ADP_AUD_BAND.K0 (i : Nat) (j : Nat) : Fld := ⟨ADP_AUD_BAND i j, 10, 0⟩

end R

end Sys2Proof.Machine
end

