-- ==== Sys2Proof/Machine/State.lean ====
section
/-! DEFINITION. Machine/State.lean: the state of the module, plain data. Every register that client software can see
has its one home in `regs` (values in force) with the stage of R379 in `staged` and the pending members of pairs of
R377 in `pairs`; the structures below hold the state that the chapters of spec/ give the blocks beside those registers. -/

namespace Sys2Proof.Machine

/-- Reasons to stop with a fault. The spec describes the outcome of every command of the table, so one reason is
enough. -/
inductive Fault where
  /-- Raised by no meaning of this model at present: kept for a command that the spec would leave without effect (R2).
  Safe: it stops where the hardware goes on. -/
  | dutyBroken
  deriving DecidableEq, Repr

/-- Reasons to refuse a command. -/
inductive Refusal where
  /-- Raised by an arm of Dispatch.lean whose command has no meaning yet. Safe: the model stops. -/
  | notModelled (mnemonic : String)
  deriving DecidableEq, Repr

/-! ### Identity of the module -/

/-- What fuses, boot flash and the label fix for one module (R20, R166, R316, R474-R486). -/
structure Module where
  coated : Bool := false
  step : Nat := 1
  serial : Nat := 0
  /-- Cores enabled by fuse (GLB_CORE_MAP.PRESENT). -/
  present : Nat := 0xFFFF
  /-- Cores whose repair lane is in use, as CORE_REPAIR shows it. -/
  repair : List Nat := List.replicate 16 0
  /-- Dies lost (R16): CDA 1, CDB 2, MDA 4, MDB 8. -/
  lost : Nat := 0
  /-- Key fuses: revoked firmware signers (4 bits) and the anti-rollback count (R475, R483). -/
  revoked : Nat := 0
  rollback : Nat := 0
  /-- The four firmware signer slots (R476) and the unique device secret (R485). -/
  fwSlots : List (List Byte) := List.replicate 4 (List.replicate 32 0)
  secret : List Byte := List.replicate 32 0
  /-- Certificates of R486, DER bytes by number. -/
  certs : List (List Byte) := List.replicate 4 []
  deriving DecidableEq, Repr

/-- The IDCODE value (R502). -/
def Module.idcode (m : Module) : Nat := m.step % 16 * 2 ^ 28 + 0x7160 * 2 ^ 12 + 0x2E5 * 2 + 1

/-! ### Web position (spec/02_web_position.md) -/

/-- An encoder channel's running values (R36, R42-R44, R506). -/
structure PosChan where
  haveBase : Bool := false
  eNm : Int := 0
  eFrac : Nat := 0
  cPrev : Nat := 0
  tGood : Nat := 0
  v : Int := 0
  vF : Int := 0
  vP : Int := 0
  /-- The mode of R44: true for the frequency method, false for the period method (R44: a restart sets period). -/
  freqMode : Bool := false
  /-- Good reads of R42, newest first: e_nm and t_good. -/
  history : List (Int × Nat) := []
  /-- The anchor of R43: e_nm and t_good. -/
  anchor : Option (Int × Nat) := none
  /-- R506: WORDLEN, CODE or DIR_INVERT changed, so the next good read is taken without the jump check. -/
  rebase : Bool := false
  /-- A good read since enable or REZERO (POS_STATUS.HAVE_BASE). -/
  seen : Bool := false
  /-- DTIME of the first request after the last commit that acted on the channel (R506). -/
  readFrom : Nat := 0
  deriving DecidableEq, Repr

/-- A position base (R39, R50): position, time and speed. -/
structure PosBase where
  pos : Int
  t : Nat
  v : Int
  deriving DecidableEq, Repr

/-- Web position, speed estimation and failover (R25, R36-R53). -/
structure PosSt where
  wpos : Nat := 0
  /-- WPOS on the tick before (R60). -/
  wposBefore : Nat := 0
  /-- The full 64-bit backlog of R39 and R40. -/
  backlog : Nat := 0
  zeroNm : Int := 0
  base : Option PosBase := none
  /-- A base whose first tick is the next one (R39). -/
  nextBase : Option PosBase := none
  /-- R78: a new base came into force and EDGE_RECOMPUTE has not run on it yet. -/
  newBase : Bool := false
  chans : List PosChan := List.replicate 4 {}
  /-- The hold interval of R46 and R50: armed, and the DTIME from which it runs. -/
  holdArmed : Bool := false
  holdStart : Nat := 0
  /-- Reads of the source since the last tuple (R49), and the DTIME that a tuple of the last read carries (R48). -/
  readsSinceTuple : Nat := 0
  readAt : Nat := 0
  tupleSeq : Nat := 0
  /-- Tuples still to carry TAKEOVER (R52) and ZERO (R41). -/
  takeoverLeft : Nat := 0
  zeroLeft : Nat := 0
  /-- The current master of a follower (R50), its last SEQ, and whether only ZERO tuples are accepted (R41). -/
  master : Option Nat := none
  lastSeq : Option Nat := none
  needZero : Bool := false
  lastTuple : Nat := 0
  /-- DTIME of the first tuple of the unbroken run of tuples that carry EXTRAP (R52). -/
  extrapSince : Option Nat := none
  lostTuple : Bool := false
  dAvg : Int := 0
  /-- Consecutive reads of R51 within the alignment tolerance. -/
  alignRun : Nat := 0
  /-- DTIME at which the last good read of the source was processed (R46). -/
  lastGood : Nat := 0
  /-- R41: the next base is taken without the no-decrease test of R39. -/
  takeAsIs : Bool := false
  deriving DecidableEq, Repr

/-! ### Position sequencer and part tracking (spec/03_position_sequencer.md) -/

/-- A sequencer entry (R54) with its running x, xf and n (R55). -/
structure SeqEntry where
  wpos : Nat := 0
  pitch : Nat := 0
  pitchFrac : Nat := 0
  valid : Bool := false
  repeats : Bool := false
  count : Nat := 0
  action : Nat := 0
  tag : Nat := 0
  param : Nat := 0
  /-- VALID as it was written (R54): `valid` falls after the last firing, this does not. -/
  defValid : Bool := false
  x : Nat := 0
  xf : Nat := 0
  n : Nat := 0
  deriving DecidableEq, Repr

/-- Part states (R66). -/
inductive PartState where
  | free | opened | closed | decided | armed | done
  deriving DecidableEq, Repr

/-- Sheepdog's outcome of a part (R389-R391). -/
inductive SdgOutcome where
  | absent | pass | reject
  deriving DecidableEq, Repr

/-- A camera line gated while a part was open: gate number of the camera and whether its slot has closed (R109, R143). -/
structure GatedLine where
  gate : Nat
  closed : Bool
  deriving DecidableEq, Repr

/-- The part of a part-table entry that client software reads (R66) and the values copied at PART_OPEN (R61). -/
structure PartCore where
  id : Nat := 0
  origin : Nat := 0
  lane : Nat := 0
  state : PartState := .free
  verdict : Option Nat := none
  flags : Nat := 0
  tag : Nat := 0
  channel : Nat := 0
  residual : Int := 0
  onDtime : Nat := 0
  decOff : Nat := 0
  onOff : Nat := 0
  offOff : Nat := 0
  /-- Indices of the part's DECISION and EJECT_PASS entries in its part track. -/
  decIdx : Nat := 0
  ejectIdx : Nat := 0
  job : Nat := 0
  decDtime : Nat := 0
  /-- R67: the eject armed. -/
  arms : Bool := false
  deriving DecidableEq, Repr

/-- A decimated row (R128): WPOS of its first row's gate, the OR of the four rows' flags, samples of a part's plane. -/
structure DecRow where
  wpos : Nat
  flags : Nat
  samples : List Nat
  deriving DecidableEq, Repr

/-- A sample that capture makes of a part (R282, R285): its slot, what its header names, the WPOS and the rows built so far, each
with its padded planes. -/
structure CapRun where
  slot : Nat
  id : Nat
  lane : Nat
  cols : Nat
  wpos : Nat := 0
  rows : List (List (List Byte)) := []
  /-- Rows of which every plane is written. -/
  placed : Nat := 0
  /-- The gates of the part, once it is no longer OPEN. -/
  gates : Option (List Nat) := none
  /-- The header is written. -/
  done : Bool := false
  /-- A later ARM or SUPERSEDED ended it (R281, R284), and ARM has freed its slot. -/
  dead : Bool := false
  freed : Bool := false
  deriving DecidableEq, Repr

/-- What a part carries for its verdict (R143, R387-R398, R404, R239). -/
structure PartVerdict where
  /-- The program result (R388), 64 bytes, and whether it is malformed. -/
  result : Option (List Byte) := none
  badResult : Bool := false
  /-- The program result was available before this DTIME's tick began: DTIME of the snapshot. -/
  resultTime : Nat := 0
  /-- SDG_LANEm_CFG, _REF_LO, _REF_HI and _REF_GEOM of the lane in force on the PART_OPEN tick (R389). -/
  sdgCfg : Nat := 0
  sdgRef : Nat := 0
  sdgGeom : Nat := 0
  sdg : SdgOutcome := .absent
  sdgScore : Nat := 0
  sdgTime : Nat := 0
  /-- Decimated rows of the part for Sheepdog's check, in order, and that one of them carried PADDED or REG_LATE (R389). -/
  sdgRows : List DecRow := []
  sdgFlagged : Bool := false
  /-- Position in the combined order of R391: queued, or abandoned. -/
  sdgQueued : Bool := false
  /-- DTIME at which the latest of those rows arrived. -/
  sdgAt : Nat := 0
  sdgAbandoned : Bool := false
  /-- DTIME of the combination (R393). -/
  combined : Option Nat := none
  disagree : Bool := false
  incomplete : Bool := false
  faultMark : Bool := false
  /-- The proof mode of the part (R404), 0 none. -/
  proof : Nat := 0
  acOk : Bool := false
  acFail : Bool := false
  /-- PSQ_LANEm_COLS as copied at PART_OPEN (R61). -/
  cols : Nat := 0
  /-- Gates of the lane's camera fired while the part was OPEN, in order (R143). -/
  gates : List Nat := []
  /-- DTIME of the last of them, and how many came before that tick: a DECISION on it leaves those (R62). -/
  gateTick : Nat := 0
  gatesBefore : Nat := 0
  /-- Leaf digests of R143 by gate, of the gates whose slots have closed, and the final input digest (R144). -/
  leaves : List (Nat × List Byte) := []
  digest : Option (List Byte) := none
  /-- The digests of the image and the weight set under which the part opened (R239, R240). -/
  imageDigest : List Byte := []
  weightDigest : List Byte := []
  /-- The sample that capture makes of the part, while it is a candidate (R282). -/
  capture : Option CapRun := none
  deriving DecidableEq, Repr

/-- A part-table entry. -/
structure Part where
  core : PartCore := {}
  vd : PartVerdict := {}
  deriving DecidableEq, Repr

/-- What an edge pair is computed from (R68, R508): its part, or none for a PULSE; the position of the on edge; the
position of the off edge in position mode, or none in duration mode, where the width in ns counts. -/
structure EdgeSrc where
  owner : Option Nat
  onPos : Nat
  offPos : Option Nat
  width : Nat
  /-- DTIME of the firing tick of a PULSE, from which its lead counts (R508). -/
  fired : Option Nat := none
  deriving DecidableEq, Repr

/-- A frame sent for an output whose EDGE_DONE has not arrived (R71, R74, R78). -/
structure Frame where
  tag : Nat
  channel : Nat
  /-- The source that made the frame, then those merged into it. -/
  srcs : List EdgeSrc
  /-- The edges last sent. -/
  on : Nat
  off : Nat
  /-- The tag of the frame this one was delayed behind, that frame's off edge last sent, and MINOFF in ns (R78). -/
  behind : Option (Nat × Nat)
  minOff : Nat
  parked : Bool := false
  cancelled : Bool := false
  /-- EDGE_HOLD was sent, and no base with v of 1,000 um/s has come since (R78). -/
  held : Bool := false
  deriving DecidableEq, Repr

/-- The sequencer: entries by index, parts by index, pending frames, edge tags (R54-R80). -/
structure SeqSt where
  entries : List (Nat × SeqEntry) := []
  parts : List (Nat × Part) := []
  frames : List Frame := []
  /-- Frames that wait for v of at least 1,000 um/s (R68, R508), by output. -/
  waiting : List (Nat × EdgeSrc) := []
  nextTag : Nat := 0
  /-- The track and action that fired last on the tick DTIME `lastTick`: entries act in ascending ACTION, then track
  (R58), one per track and tick (R57). -/
  firedTick : Nat := 0
  fired : List Nat := []
  /-- Self-test windows offered (R401): core mask, start position, length in µm. -/
  windows : List (Nat × Nat × Nat) := []
  /-- PULSE_US and MINOFF_US of an output before the pair that was latched on a DTIME: DTIME, output, both (R509). -/
  pulseWas : List (Nat × Nat × Nat × Nat) := []
  deriving DecidableEq, Repr


/-! ### Field side (spec/19_field_side.md) -/

/-- Downlink frame contents (R76, R408). -/
inductive DownMsg where
  | edgeNew (channel : Fin 16) (tag : BitVec 16) (on off : BitVec 64)
  | edgeCorr (channel : Fin 16) (tag : BitVec 16) (on off : BitVec 64)
  | edgeHold (channel : Fin 16) (tag : BitVec 16)
  | edgeCancel (channel : Fin 16) (tag : BitVec 16)
  | heartbeat (run : Bool) (dtime : BitVec 64)
  | outCfg (channel : Fin 16) (mode : Fin 4) (safe openEn : Bool) (ovlUs : BitVec 16)
  | outSet (level : BitVec 16)
  | lsSet (run : Bool)
  | resume
  | inCfg (input : Fin 16) (filtUs : BitVec 16) (func : Fin 4)
  deriving DecidableEq, Repr

/-- A downlink frame: its SEQ and its contents. -/
structure DownFrame where
  seq : Nat
  msg : DownMsg
  deriving DecidableEq, Repr

/-- Uplink frame contents (R408). -/
inductive UpMsg where
  | edgeDone (channel : Fin 16) (result : Fin 16) (tag : BitVec 16) (on off : BitVec 64)
  | reject (reason : Fin 16) (tag : BitVec 16) (seq : BitVec 16) (missing : BitVec 16)
  | status (fstate : Fin 4) (inputs : BitVec 16) (outFlags : BitVec 32) (supply : BitVec 16) (temp : BitVec 8)
      (lsA lsB : Bool) (queued : BitVec 16) (hbSeq : BitVec 16)
  | inputEdge (input : Fin 16) (level : Bool) (dtime : BitVec 64)
  deriving DecidableEq, Repr

/-- An uplink frame. -/
structure UpFrame where
  seq : Nat
  msg : UpMsg
  deriving DecidableEq, Repr

/-- The states of the field controller (R420). -/
inductive FieldMode where
  | boot | run | safe
  deriving DecidableEq, Repr

/-- A pulse in the edge queue: two entries, each firing at its own time (R413, R414). -/
structure Pulse where
  channel : Nat
  tag : Nat
  on : Nat
  off : Nat
  parked : Bool := false
  /-- The on DTIME as fired, once the on edge has fired. -/
  onFired : Option Nat := none
  /-- The channel could drive at the on edge, and has not been cut off since (R415). -/
  drove : Bool := false
  cut : Bool := false
  late : Bool := false
  deriving DecidableEq, Repr

/-- An output Qn at the field controller (R416, R417). -/
structure OutSt where
  mode : Nat := 0
  safe : Bool := false
  openEn : Bool := false
  ovlUs : Nat := 1000
  /-- Static level in force, and one held in SAFE (R420). -/
  static : Bool := false
  heldStatic : Option Bool := none
  /-- Latched off by overload or over-temperature; the conditions as they now stand. -/
  overload : Bool := false
  overtemp : Bool := false
  hot : Bool := false
  limiting : Bool := false
  openOff : Bool := false
  openOn : Bool := false
  /-- The condition of the last OPEN_ON still stands: the output has stayed on since. -/
  openNow : Bool := false
  /-- A pulse drives the output now. -/
  pulseOn : Bool := false
  /-- FTIME since which the output has been on, and that it has been on for a whole pulse (R417). -/
  onFrom : Option Nat := none
  pulsed : Bool := false
  deriving DecidableEq, Repr

/-- An input In at the field controller (R422). -/
structure InSt where
  level : Bool := false
  filtUs : Nat := 100
  func : Nat := 0
  /-- Earlier FILT_US of the last 65 ms, newest first: the FTIME up to which each applied (R422). -/
  past : List (Nat × Nat) := []
  deriving DecidableEq, Repr

/-- The field controller (R407-R422). -/
structure FieldSt where
  ftime : Nat := 0
  mode : FieldMode := .boot
  /-- SEQ expected on the downlink, and the next SEQ of the uplink (R408, R410). -/
  expSeq : Nat := 0
  upSeq : Nat := 0
  pulses : List Pulse := []
  outs : List OutSt := List.replicate 16 {}
  ins : List InSt := List.replicate 16 {}
  /-- RUN of the last LS_SET or HEARTBEAT, whether both line-stop outputs are energised, and the hold after LS_FAULT (R419). -/
  lsRun : Bool := false
  lsOn : Bool := false
  lsFaultHold : Bool := false
  supplyLow : Bool := false
  /-- What the controller last measured: the field supply in 10 mV, its temperature, the readbacks of LS_A and LS_B. -/
  supply : Nat := 0
  temp : Nat := 0
  lsBackA : Bool := false
  lsBackB : Bool := false
  /-- FTIME of the last good HEARTBEAT and its SEQ. -/
  lastHb : Option Nat := none
  lastHbSeq : Nat := 0
  /-- FTIME at the last sync edge, not yet judged, and FTIME of the last accepted one (R412). -/
  syncEdge : Option Nat := none
  lastSync : Option Nat := none
  /-- The last forward step of FTIME: from and to (R414). -/
  jump : Option (Nat × Nat) := none
  /-- Pulses flushed on entry to SAFE, to be reported when HEARTBEATs return (R420). -/
  flushed : List Pulse := []
  /-- Supply from the logic side across the barrier (R407, R492), and FTIME at which the logic-side rails switched off. -/
  powered : Bool := true
  offAt : Option Nat := none
  deriving DecidableEq, Repr

/-- A frame sent: for the first time, as a retransmission, or named by a REJECT already (R410). -/
inductive SentMark where
  | first | again | named
  deriving DecidableEq, Repr

/-- The logic side of the barrier (R408-R423). -/
structure LinkSt where
  downSeq : Nat := 0
  /-- Frames on the downlink, oldest first. -/
  down : List DownFrame := []
  /-- Frames on the uplink, oldest first. -/
  up : List UpFrame := []
  /-- Frames sent, newest first, each with its standing for retransmission (R410). -/
  sent : List (DownFrame × SentMark) := []
  lastStatus : Option Nat := none
  lastFstate : Nat := 0
  lastStatusHb : Option Nat := none
  lastSyncDtime : Option Nat := none
  /-- Input levels that INPUT_EDGE and STATUS frames have reported (R422). -/
  inputs : Nat := 0
  /-- Acoustic windows opened by EDGE_DONE: channel, on DTIME, parts of the pulse (R425). -/
  acWindows : List (Nat × Nat × List Nat) := []
  deriving DecidableEq, Repr

/-! ### Acoustic inputs (spec/19_field_side.md, spec/13_adaptation.md) -/

/-- A feature record of an acoustic input (R300): start and end DTIME, GAP, CLIP and 16 band energies (FP32). -/
structure Feature where
  start : Nat
  stop : Nat
  gap : Bool
  clip : Bool
  bands : List (BitVec 32)
  deriving DecidableEq, Repr

/-- Acoustic features and the frame counters of the channels (R300, R301, R424, R425). -/
structure AudSt where
  /-- Feature records, newest first, with their input. -/
  feats : List (Nat × Feature) := []
  /-- Frame number of the next record, by input. -/
  next : List Nat := [0, 0, 0, 0]
  /-- The latest samples of an input, oldest first, each with a mark if it was missing: a frame overlaps the one before (R300). -/
  tails : List (List (Int × Bool)) := [[], [], [], []]
  /-- WPOS by the DTIME from which it held, newest first, over the last 100 ms (R301). -/
  trail : List (Nat × Nat) := []
  deriving DecidableEq, Repr


/-! ### Comma lanes (spec/04_comma_lanes.md) -/

/-- A comma lane: receiver, pattern checker and generator, loopback buffer and running eye scan (R83-R95). -/
structure LaneSt where
  /-- ACQUIRE: the ten bits received before the present ones, the candidate boundary among ten bit positions, and commas seen on
  it (R85). -/
  raw : Option Nat := none
  cand : Option Nat := none
  count : Nat := 0
  /-- ALIGNED: score and run of valid groups (R86), running disparity (true positive) and the last group (R88). -/
  score : Nat := 0
  good : Nat := 0
  rdPos : Bool := false
  last : Nat := 0
  /-- Pattern checker (R95): past bits, run of matches or of mismatches, and the groups since the last K28.5. -/
  hist : Nat := 0
  run : Nat := 0
  /-- The far-end buffer (R94), oldest group first, and whether it has come to 8 groups, from which on it sends. -/
  buf : List Nat := []
  sending : Bool := false
  /-- DWELL, PHASE and VOFF as the running eye scan has latched them (R90). -/
  dwell : Nat := 0
  phase : Int := 0
  voff : Int := 0
  /-- A signal on the receive pin (R83, R93). -/
  pin : Bool := false
  /-- Pattern generator (R95): past bits, 0 where no pattern is sent, groups since the last K28.5, running disparity (true
  positive). -/
  txHist : Nat := 0
  txCount : Nat := 0
  txRd : Bool := false
  /-- Groups that the last group time drove at the transmit pin; none where it idles at the common-mode level (R93). -/
  tx : List Nat := []
  /-- What the last group gave to the link layer: byte, K flag, error flag (R84). -/
  given : Option (Nat × Bool × Bool) := none
  deriving DecidableEq, Repr

/-! ### Camera links (spec/05_camera_links.md) -/

/-- Where discovery of a camera stands (R101). -/
inductive Disc where
  | idle
  /-- Waiting for every lane ALIGNED since a DTIME; in CONFIG at a rate. -/
  | align (since : Nat)
  | readStd
  | readId (k : Nat)
  | readConnDefault
  | readPacketMax
  | writeHost
  | alignAt (rate since : Nat)
  | readWidthAddr
  | readWidth (addr : Nat)
  | readFmtAddr (wAddr : Nat)
  | readFmt (wAddr fAddr : Nat)
  deriving DecidableEq, Repr

/-- A transport line of a slot (R109): its status once judged, and its samples. -/
structure LineBuf where
  status : Option Nat := none
  samples : List Nat := []
  /-- Samples received, those beyond which are PAD. -/
  got : Nat := 0
  deriving DecidableEq, Repr

/-- A line slot (R106): the gate that took it, its tick and WPOS, and the camera table in force then: width, pad value,
depth, LATE_NS, and the first of its line numbers, counted from L0 (R107). -/
structure Slot where
  gate : Nat
  dtime : Nat
  wpos : Nat
  width : Nat
  pad : Nat
  depth : Nat
  late : Nat := 40000
  rel : Nat := 0
  closed : Bool := false
  lines : List LineBuf
  deriving DecidableEq, Repr

/-- A gate of a camera: its number, WPOS and tick, and the lines it owns: the first, counted from L0, and how many (R107). -/
structure GateRec where
  gate : Nat
  wpos : Nat
  dtime : Nat
  rel : Nat
  lines : Nat
  deriving DecidableEq, Repr

/-- A stream packet that waits for its turn (R99): connection index, packet tag, its CRC holds, its contents. -/
structure RxPacket where
  conn : Nat
  tag : Nat
  crcOk : Bool
  items : List StreamItem
  deriving DecidableEq, Repr

/-- A client access to a camera register under way (R104): ring, index, a read, the DTIME at which it was sent. -/
structure CamAccess where
  ring : Nat
  index : Nat
  read : Bool
  since : Nat
  deriving DecidableEq, Repr

/-- A camera's link layer (R98-R112). -/
structure CamSt where
  disc : Disc := .idle
  /-- DTIME of the last control access sent, or of the entry into LINK_DOWN. -/
  since : Nat := 0
  deviceId : Nat := 0
  conns : List Nat := []
  /-- What discovery has read (R97): ConnectionConfigDefault, StreamPacketSizeMax, and the addresses of the width and
  pixel-format registers (R104). -/
  connDefault : Nat := 0
  packetMax : Nat := 0
  widthAddr : Option Nat := none
  fmtAddr : Option Nat := none
  access : Option CamAccess := none
  /-- Gates fired; the first since STREAMING was entered, and the number of its first line (R107). -/
  gates : Nat := 0
  /-- The latest 4,096 gates, newest first, and the lines that gates own since g0. -/
  gateLog : List GateRec := []
  relNext : Nat := 0
  g0 : Option Nat := none
  l0 : Option Nat := none
  /-- Slots by their gate; a gate takes the slot of the gate SLOTS before it (R106). -/
  slots : List (Nat × Slot) := []
  /-- The last trigger packet (R105): the tick on which it started, and the DTIME at which its fine delay lets it act. -/
  trigger : Option (Nat × Nat) := none
  /-- Packets that wait for the connection whose turn it is, and that connection (R99). -/
  rx : List RxPacket := []
  nextConn : Nat := 0
  /-- The stream parser: the packet tag expected, the frame's source tag and whether it is discarded, the line being
  received, the last line index of the frame, whether a packet was discarded since, and the first line lost then. -/
  nextTag : Option Nat := none
  srcTag : Option Nat := none
  frameBad : Bool := false
  cur : Option (Nat × List Nat) := none
  lastIdx : Option Nat := none
  skipping : Bool := false
  lostFrom : Option Nat := none
  deriving DecidableEq, Repr

/-! ### Line pipeline (spec/06_line_pipeline.md) -/

/-- A built row (R113-R121): gate, its WPOS, flags, the columns replaced under R115, and the planes by filter code. -/
structure Row where
  gate : Nat
  wpos : Nat
  flags : Nat
  replaced : List Nat
  planes : List (Nat × List Nat)
  deriving DecidableEq, Repr

/-- The layout of a buffer as its strip or crop took it (R126, R133): its address and sync object, the offset of its body, the
columns of a row, its planes and the bytes of a sample, and the rows of a strip. -/
structure BufLay where
  addr : Nat := 0
  so : Nat := 0
  body : Nat := 0
  width : Nat := 0
  planes : List Nat := []
  bytes : Nat := 1
  lines : Nat := 0
  deriving DecidableEq, Repr

/-- A strip or crop buffer being filled (R132-R134): buffer index, its layout, number, rows written (gate WPOS and flags), header
flags, and the parts with rows in it. -/
structure OpenStrip where
  buf : Nat
  lay : BufLay := {}
  ordinal : Nat
  rows : List (Nat × Nat) := []
  flags : Nat := 0
  parts : List Nat := []
  /-- Halo: rows written, where it lies (0 Shelf, 1 Cellar, 2 none), its address and its Shelf block. -/
  halo : Nat := 0
  haloLoc : Nat := 2
  haloAddr : Nat := 0
  /-- Crop entry, all ones for a strip; and the part of the entry's lane that was OPEN at its ROI_APPLY (R261). -/
  crop : Nat := 4294967295
  part : Option Nat := none
  deriving DecidableEq, Repr

/-- A running crop (R129): entry, first gate, first column, columns, first and number of rows, its buffer, and the part of
the entry's lane that was OPEN at its ROI_APPLY (R261). -/
structure CropRun where
  entry : Nat
  gate : Nat
  x0 : Nat
  width : Nat
  skip : Int
  rows : Nat
  strip : Option OpenStrip := none
  part : Option Nat := none
  deriving DecidableEq, Repr

/-- A stream (R125-R137). -/
structure StreamSt where
  /-- Gate of the stream's first row and rows seen since (R128). -/
  first : Option Nat := none
  seen : Nat := 0
  /-- The first gate assigned to a strip since the stream was enabled; gates assigned to the current strip, the most it takes, and
  the gates at which later strips start, with the FORCED flag (R132). -/
  from_ : Option Nat := none
  gatesIn : Nat := 0
  lines : Nat := 0
  starts : List (Nat × Bool) := []
  /-- Pyramid levels: the latest rows of levels 0, 1 and 2 with their row number; rows made of each level (R127). -/
  levels : List (List (Nat × Row)) := [[], [], []]
  made : List Nat := [0, 0, 0, 0]
  /-- Rows of the decimated stream being gathered (R128). -/
  quad : List Row := []
  next : Nat := 0
  ordinal : Nat := 0
  cur : Option OpenStrip := none
  /-- Rows were dropped before the strip that comes next (R137). -/
  dropped : Bool := false
  /-- The strip before it, until its halo is complete. -/
  prev : Option OpenStrip := none
  /-- Gate after which a stream that dropped rows takes them again (R137). -/
  resumeAfter : Option Nat := none
  crops : List CropRun := []
  deriving DecidableEq, Repr

/-- A halo block in the Shelf (R135, R136): its offset and bytes, and the buffer that holds it: sync object, address, size. -/
structure HaloBlock where
  off : Nat
  bytes : Nat
  so : Nat
  buf : Nat
  size : Nat
  deriving DecidableEq, Repr

/-- A measurement under way (R139-R141): engine (marks from 256 on), part-table index, PART_ID, first gate, window. -/
structure Meas where
  engine : Nat
  part : Nat
  id : Nat
  camera : Nat
  first : Option Nat := none
  col0 : Nat
  cols : Nat
  row0 : Nat
  rows : Nat
  excluded : Bool := false
  n : Nat := 0
  /-- Sum and sum of squares of the three planes; or sw, sx, sy. -/
  sums : List Nat := [0, 0, 0, 0, 0, 0]
  /-- Gate WPOS of the window's rows (marks). -/
  wgs : List Nat := []
  deriving DecidableEq, Repr

/-- The correction tables of a camera (R114, R115, R123); none loaded reads as the defaults. -/
structure Tables where
  dark : Option (List Nat) := none
  gain : Option (List Nat) := none
  defect : Option (List Nat) := none
  deriving DecidableEq, Repr

/-- The line pipeline. -/
structure LpSt where
  /-- The next row to build, by camera. -/
  nextRow : List Nat := List.replicate 16 0
  /-- Streams by camera * 8 + stream. -/
  streams : List (Nat × StreamSt) := []
  meas : List Meas := []
  tables : List (Nat × Tables) := []
  /-- Cameras whose correction table took a hard fault (R314). -/
  badTables : List Nat := []
  /-- Halo blocks of the Shelf region. -/
  blocks : List HaloBlock := []
  /-- Strips with their halo in the Cellar: the sync object of their buffer and the halo's address (R135, R136). -/
  halos : List (Nat × Nat) := []
  /-- Steering registers as they were before this tick wrote them: DTIME, offset, word (R131). -/
  steerWas : List (Nat × Nat × BitVec 32) := []
  deriving DecidableEq, Repr


/-! ### Network time and the Loft (spec/22_time_and_loft.md) -/

/-- A value or an event on its way to the Loft (R472), with the DTIME and WPOS of its tick (R468). -/
inductive LoftItem where
  | value (record : Nat) (v : Int) (part : Nat) (dtime wpos : Nat)
  | event (code : Nat) (part : Nat) (data : List Byte) (dtime wpos : Nat)
  deriving DecidableEq, Repr

/-- An accumulator record of the Loft (R468-R470). -/
structure LoftAcc where
  seq : Nat := 0
  dtime : Nat := 0
  wpos : Nat := 0
  count : Nat := 0
  sum : Int := 0
  underBin : Nat := 0
  overBin : Nat := 0
  bins : List Nat := List.replicate 48 0
  min : Int := 0
  max : Int := 0
  minDtime : Nat := 0
  maxDtime : Nat := 0
  minPart : Nat := 0
  maxPart : Nat := 0
  deriving DecidableEq, Repr

/-- An event record (R468, R471). -/
structure LoftEvent where
  code : Nat
  seq : Nat
  dtime : Nat
  wpos : Nat
  part : Nat
  afterDrop : Bool
  data : List Byte
  deriving DecidableEq, Repr

/-- The Loft engine. -/
structure LoftSt where
  queue : List LoftItem := []
  accs : List (Nat × LoftAcc) := []
  /-- Event ring: records 128 + k, k = 0-895. -/
  events : List (Nat × LoftEvent) := []
  head : Nat := 0
  dropped : Bool := false
  deriving DecidableEq, Repr

/-- An entry of the transmit time-stamp queue (R465). -/
structure TxStamp where
  port : Nat
  msgType : Nat
  seqId : Nat
  ns : Nat
  at_ : Nat
  deriving DecidableEq, Repr

/-- One time-pulse output (R466, R467). -/
structure TpoSt where
  armed : Bool := false
  target : Nat := 0
  active : Bool := false
  /-- DTIME at which the pulse ends, and of its rising tick. -/
  riseAt : Nat := 0
  pulseWidth : Nat := 0
  deriving DecidableEq, Repr

/-- An announcing master (R460): its port identity (clockIdentity, then port number), the data set of its grandmaster in the
order of comparison, that grandmaster, its steps removed, its UTC offset, its announce interval in ns, and the DTIME at which it
was last heard and before that. -/
structure Foreign where
  clock : BitVec 80
  key : List Nat
  gm : BitVec 64
  steps : Nat
  utc : Option (BitVec 16)
  interval : Nat
  heard : Nat
  before : Option Nat
  deriving DecidableEq, Repr

/-- Network time (R459-R467). -/
structure NtmSt where
  acc : Nat := 0
  ns : Nat := 0
  hi : Nat := 0
  lastLo : Nat := 0
  /-- NTM_NS and DTIME latched by TAKE, not yet extended (R462). -/
  snap : Option (Nat × Nat) := none
  integ : Int := 0
  goodRun : Nat := 0
  /-- The exchange under way: sequenceId of the Sync, t1 and t2 (R463). -/
  syncSeq : Nat := 0
  t1 : Option Int := none
  t2 : Option Int := none
  /-- A two-step Sync whose Follow_Up is awaited, and the Sync's correction. -/
  twoStep : Bool := false
  syncCorr : Int := 0
  /-- DTIME of the last Sync accepted, or of the start of the wait for one, and the Sync interval in ns. -/
  lastSync : Nat := 0
  interval : Nat := 1000000000
  master : Option (BitVec 80) := none
  txq : List TxStamp := []
  tpo : List TpoSt := List.replicate 4 {}
  /-- Announcing masters of the domain (R460). -/
  foreign : List Foreign := []
  deriving DecidableEq, Repr


/-! ### Client rings (spec/16_client_rings.md) -/

/-- The configuration of a ring that took effect at its last enable (R351). -/
structure RingCfg where
  kind : Nat
  log2 : Nat
  ethernet : Bool
  peer : Nat
  session : Nat
  job : Nat
  allJobs : Bool
  rejectsOnly : Bool
  base : Nat
  vector : Nat
  ien : Bool
  holdoffUs : Nat
  deriving DecidableEq, Repr

/-- A descriptor in a session frame: 64 bytes and its data (R370). -/
structure SessDesc where
  bytes : List Byte
  data : List Byte
  /-- The host read of the descriptor failed (R365). -/
  failed : Bool := false
  deriving DecidableEq, Repr

/-- A started descriptor (R354): ring, index, its 64 bytes, its data in, its rights. -/
structure Started where
  ring : Nat
  index : Nat
  bytes : List Byte
  data : List Byte
  rights : Nat
  ethernet : Bool
  session : Nat
  /-- The COMPLETION ring that takes its completion, and the enable of that ring that was in force (R352). -/
  peer : Nat
  peerEpoch : Nat
  /-- A SO_WAIT or COMMIT that has taken effect and waits for its completion. -/
  waiting : Bool
  /-- The program-signer list in force at its start (R484). -/
  signers : List Byte := []
  /-- Which opening of its session it came in (R372). -/
  opening : Nat := 0
  deriving DecidableEq, Repr

/-- Frames the module sends in a session (R370). -/
inductive SessOut where
  | entries (session ring index : Nat) (bytes : List Byte)
  | keepalive (session : Nat)
  | data (session ring index : Nat) (bytes : List Byte)
  | closed (session : Nat)
  deriving DecidableEq, Repr

/-- An entry written to a module-filled ring: its tick, and what undoes it on that tick (R352): the host bytes it replaced and
their address, its frame, and whether it raised an interrupt. -/
structure Entry where
  at_ : Nat
  addr : Nat
  old : List Byte
  frame : Option SessOut
  irq : Bool
  deriving DecidableEq, Repr

/-- An enabled ring (R350-R363). -/
structure RingSt where
  cfg : RingCfg
  /-- RING_n_STATUS.ACTIVE: the ring is enabled. -/
  active : Bool := true
  prod : Nat := 0
  cons : Nat := 0
  /-- Count of descriptors fetched (SUBMIT rings). -/
  fetched : Nat := 0
  halted : Bool := false
  dropped : Nat := 0
  /-- Which enable of the ring this is. -/
  epoch : Nat := 0
  /-- DTIME before which no further interrupt is raised, and an interrupt held back (R363). -/
  irqAfter : Nat := 0
  irqHeld : Bool := false
  /-- SUBMIT rings: descriptors fetched and not started. -/
  queue : List SessDesc := []
  /-- Module-filled rings: the entries written on the latest tick that wrote any, newest first (R352). -/
  fresh : List Entry := []
  deriving DecidableEq, Repr

/-- A session over Ethernet (R367-R372). -/
structure Session where
  key : List Byte
  rights : Nat
  lastHeard : Nat
  lastSent : Nat
  /-- Its port, and which opening of a session it is (R366, R372). -/
  port : Nat := 0
  opening : Nat := 0
  deriving DecidableEq, Repr

/-- Network configuration and allow list (R366, R368). -/
structure NetSt where
  ports : List (List Byte) := List.replicate 2 (List.replicate 64 0)
  /-- The allow list as a file: header and entries. -/
  allow : List Byte := []
  deriving DecidableEq, Repr

/-- Rings and sessions. -/
structure ClientSt where
  rings : List (Nat × RingSt) := []
  started : List Started := []
  sessions : List (Nat × Session) := []
  out : List SessOut := []
  /-- MSI-X vectors raised, oldest first: vector and DTIME (R363). -/
  irqs : List (Nat × Nat) := []
  /-- BAR2 (R364): entries of 16 bytes of the MSI-X table as the host has set them, and the vectors in the pending-bit array. -/
  msix : List (Nat × List Byte) := []
  pendingBits : List Nat := []
  /-- Completions that wait for room in their PEER: descriptor, status code and RESULT (R352, R354). -/
  owed : List (Started × Nat × Nat) := []
  /-- The SUBMIT ring from which the next turn goes on (R355). -/
  turn : Nat := 0
  /-- Sessions opened so far (R372). -/
  openings : Nat := 0
  net : NetSt := {}
  deriving DecidableEq, Repr

/-! ### Partitions, jobs and sync objects (spec/15_partitions.md) -/

/-- Agents that use sync objects, in the order of R339. -/
inductive Agent where
  | sequencer | linePipe | inputPipe | feature (input : Nat) | firmware
  | core (n : Nat) | thread (engine ctx : Nat) | client (ring index : Nat)
  /-- The list context of a job that waits for its slice, by logical core (R330). -/
  | saved (logical job : Nat)
  deriving DecidableEq, Repr

/-- A waiter in the queue of a sync object (R334-R338). -/
structure Waiter where
  agent : Agent
  arg : Nat
  deadline : Option Nat
  deriving DecidableEq, Repr

/-- The configuration of a sync object (R332). -/
structure SoCfg where
  type : Nat := 0
  owner : Nat := 0
  cross : Bool := false
  access : Nat := 0
  holding : Bool := false
  holdUs : Nat := 0
  init : Nat := 0
  deriving DecidableEq, Repr

/-- A sync object (R332-R345). -/
structure SyncObj where
  cfg : SoCfg := {}
  /-- Semaphore VALUE, counter VALUE, barrier ARRIVED or position event FIRES. -/
  value : Int := 0
  gen : Nat := 0
  lastWpos : Nat := 0
  broken : Bool := false
  waiters : List Waiter := []
  /-- The head waiter has its units and is kept back for want of a hold entry (R341). -/
  starved : Bool := false
  deriving DecidableEq, Repr

/-- A hold entry (R341, R342). -/
structure Hold where
  agent : Agent
  so : Nat
  count : Nat
  since : Nat
  deriving DecidableEq, Repr

/-- A wait that has completed: the waiter's agent, its status and the value of R334. -/
structure Woken where
  agent : Agent
  so : Nat
  status : Nat
  value : Nat
  deriving DecidableEq, Repr

/-- The sync unit (R332-R346). -/
structure SyncSt where
  objs : List (Nat × SyncObj) := []
  holds : List Hold := []
  woken : List Woken := []
  /-- Waits that have reached the unit on this cycle, which its signals come before: agent, object, argument (R339). -/
  arriving : List (Agent × Nat × Nat) := []
  deriving DecidableEq, Repr


/-! ### Clocks, power and heat (spec/21_clocks_power_heat.md) -/

/-- Clock sources, the governor and the sensors beside their registers (R444-R458). -/
structure ClkSt where
  /-- DTIME of the loss while SRC_LOST is 1, whether LOST_MS has run out since, and whether a switch was made since. -/
  lostAt : Option Nat := none
  lostStop : Bool := false
  switched : Bool := false
  /-- DTIME of the last relock (R451). -/
  relockAt : Option Nat := none
  /-- Quad clocks in MHz to which the quads return after a coast (R447). -/
  freqs : List Nat := [1600, 1600, 1600, 1600]
  /-- Ports whose recovered frequency has stayed within 50 ppm for 100 µs (R445). -/
  stable : Nat := 0
  /-- The regulators' alert wire (R457). -/
  alert : Bool := false
  /-- Sensors above their throttle and alarm thresholds, with hysteresis (R458). -/
  throttled : List Bool := List.replicate 11 false
  alarmed : List Bool := List.replicate 11 false
  /-- Input energy since reset in units of 100 nJ. -/
  energy : Nat := 0
  /-- Clock cycles of each quad since reset, in thousandths (R170). -/
  cycles : List Nat := [0, 0, 0, 0]
  /-- DTIME from which each quad runs again after SLEEP or DEEP (R452). -/
  wakeAt : List Nat := [0, 0, 0, 0]
  deriving DecidableEq, Repr

/-! ### Boot flash, pushes and the test access port (spec/23_boot_identity.md, spec/24_module_electrical.md) -/

/-- A configuration copy in boot flash as its bytes give it (R474): its sequence number, network blocks, allow list and
program-signer list as files. -/
structure FlashCfg where
  seq : Nat := 0
  net : NetSt := {}
  signers : List Byte := []
  deriving DecidableEq, Repr

/-- A push in progress (R479, R481): the file, and the descriptor that brought it, or none for BOOT_PUSH_CTL. -/
structure Push where
  file : List Byte
  signers : Bool
  owner : Option (Nat × Nat)
  deriving DecidableEq, Repr

/-- Instructions of the test access port (R502). -/
inductive TapInstr where
  | extest | samplePreload | idcode | clamp | highz | bypass
  deriving DecidableEq, Repr

/-- The test access port (R502-R504): the instruction loaded, the boundary register, and the register that the instruction
selects. -/
structure TapSt where
  instr : TapInstr := .idcode
  /-- The 8-bit instruction register (R502). -/
  ir : BitVec 8 := 2
  boundary : BitVec 2216 := 0
  /-- The 32-bit identification register or the 1-bit bypass register, as captured. -/
  captured : BitVec 32 := 0
  deriving DecidableEq, Repr

/-- What the boot-and-security core holds (R474-R487). -/
structure BootSt where
  /-- The rails are on and reset is released (R491). -/
  power : Bool := true
  /-- The image slot: a whole firmware file, or nothing valid. -/
  slot : List Byte := []
  /-- The two configuration copies, as bytes; none for an erased one (R474). -/
  cfgA : List Byte := []
  cfgB : List Byte := []
  /-- An update under way: the copy that is being written, true for B, and its bytes (R474). -/
  cfgWrite : Option (Bool × List Byte) := none
  /-- Consecutive boots on which each core failed its known-answer test (R166). -/
  katFails : List Nat := List.replicate 16 0
  /-- The program-signer list in force (R484). -/
  signers : List Byte := []
  /-- The header of the running image, none before READY and in recovery. -/
  running : Option (List Byte) := none
  /-- Fuses still to blow after READY: the anti-rollback count to reach, and signer slots to revoke (R483). -/
  fuseCount : Nat := 0
  fuseRevoke : Nat := 0
  push : Option Push := none
  tap : TapSt := {}
  deriving DecidableEq, Repr


/-! ### Cellar, Pantry and Shelf (spec/14_cellar.md) -/

/-- A word of a memory whose parity fails (R312): by physical word, the reads that will still fail, and whether the
cell is stuck, so that no write mends it. -/
structure BadWord where
  word : Nat
  fails : Nat
  stuck : Bool
  deriving DecidableEq, Repr

/-- An entry of the retirement list in boot flash (R316, R317). -/
structure RetEntry where
  channel : Nat
  page : Nat
  spare : Nat
  lost : Bool
  unusable : Bool
  deriving DecidableEq, Repr

/-- A Pantry line (R308): die, set, way, the channel and line it holds, its last use, and a parity error in it. -/
structure PanLine where
  die : Nat
  set : Nat
  way : Nat
  channel : Nat
  line : Nat
  used : Nat
  bad : Bool
  deriving DecidableEq, Repr

/-- A shard copy that has lost a word (R318): its set and shard, where it lies, and the ranges that set loads have written
since: address and bytes. -/
structure Doubt where
  set : Nat
  shard : Nat
  base : Nat
  bytes : Nat
  fresh : List (Nat × Nat) := []
  deriving DecidableEq, Repr

/-- What the memory-side dies hold beside the data. -/
structure CelSt where
  bad : List BadWord := []
  retired : List RetEntry := []
  /-- Pages with a hard fault that wait for retirement: channel, page (R316). -/
  toRetire : List (Nat × Nat) := []
  lines : List PanLine := []
  clock : Nat := 0
  /-- Pantry sets and ways with an error since reset, and those locked out (R313): die, set, way. -/
  panErrs : List (Nat × Nat × Nat) := []
  locked : List (Nat × Nat × Nat) := []
  /-- Shard copies marked doubtful on this module (R318). -/
  doubtful : List Doubt := []
  deriving DecidableEq, Repr


/-! ### Program images, jobs and instruction lists (spec/11_program_images.md, spec/15_partitions.md) -/

/-- An image in force or staged: where its body lies in module memory and where its sections lie in it (R234-R237). -/
structure ImageRef where
  base : Nat
  bytes : Nat
  digest : List Byte
  wlayout : List Byte
  lag : Nat
  pipes : Nat
  maps : Nat
  anyNd : Bool
  /-- Offset and length of the sections CODE, LISTS, LIVE, MAPS, CONST and WLAYOUT. -/
  code : Nat × Nat
  lists : Nat × Nat
  live : Nat × Nat
  mapSec : Nat × Nat
  const : Nat × Nat
  wlay : Nat × Nat
  deriving DecidableEq, Repr

/-- A weight set in force or staged (R238, R239). -/
structure WeightRef where
  base : Nat
  bytes : Nat
  digest : List Byte
  wlayout : List Byte
  deriving DecidableEq, Repr

/-- An image and weight set under which parts open (R240), numbered among the pairs that its job has had. -/
structure Pair where
  image : ImageRef
  weights : WeightRef
  gen : Nat := 0
  deriving DecidableEq, Repr

/-- A strip posted to the allocator (R133, R256). -/
structure Strip where
  camera : Nat
  stream : Nat
  /-- Module address of its buffer, its sync object, its halo, its ordinal and the parts with rows in it. -/
  buffer : Nat
  so : Nat
  halo : Nat
  ordinal : Nat
  parts : List Nat
  /-- Address of its body rows (R133), and for a crop the part of R261. -/
  body : Nat := 0
  part : Option Nat := none
  /-- Strip class under the map in force, and, once assigned, the offset in LISTS of the sub-list to run. -/
  cls : Nat
  entry : Nat := 0
  /-- The pair under which this run goes (R240). -/
  pair : Pair
  deriving DecidableEq, Repr

/-- What an instruction list is run for (R253-R256). -/
inductive ListKind where
  | setup
  | strip (s : Strip)
  | part (index : Nat)
  deriving DecidableEq, Repr

/-- The units of a core (R242). -/
inductive Unit3 where
  | matrix | vector | transfer
  deriving DecidableEq, Repr

/-- A command record issued: its unit, MAXDUR in ns, its start, whether it has completed (R242, R251), and the bank masks of the
ports that it uses (R176), A 0, W 1, V 2, D 3, T 4. -/
structure Issued where
  unit : Unit3
  maxNs : Nat
  start : Nat
  complete : Bool
  masks : List (Nat × Nat) := []
  deriving DecidableEq, Repr

/-- A list context: contexts 0-15 are the issuers of the cores, 16 + i runs the part list of part-table entry i. -/
structure ListCtx where
  job : Nat
  pair : Pair
  kind : ListKind
  /-- Byte offset in LISTS of the next record. -/
  pc : Nat
  /-- Command records issued, newest first (R241 DEP). -/
  issued : List Issued := []
  /-- The head record is a WAIT that has been issued and not completed. -/
  waiting : Bool := false
  /-- IDLE_FOR: no MCMD before this DTIME (R252). -/
  idleUntil : Nat := 0
  idleUs : Nat := 0
  deriving DecidableEq, Repr

/-- A core's part of a save (R330): the list context, if a list runs, the live-range words of a cheap point, and whether
the core still owes its setup list. -/
structure SavedCore where
  list : Option ListCtx
  live : Option (List (Nat × Nat))
  setup : Bool
  deriving DecidableEq, Repr

/-- A matrix core: its vector accumulators, Larder mode and what it runs. -/
structure CoreSt where
  /-- The vector accumulators acc0-acc3 (R199): elements as integers or FP32 bit patterns, by accumulator and index. -/
  vacc : List (Nat × Int) := []
  /-- Strips assigned and not begun, in order (R256). -/
  queue : List Strip := []
  /-- A setup list is owed (R254), after so many strips that were assigned under the map before it, and whether the core
  drops the Larder data of that binding first (R255). -/
  setupDue : Bool := false
  beforeSetup : Nat := 0
  clearDue : Bool := false
  /-- Rejoins at the next part boundary after a teardown (R347). -/
  awayUntilPart : Bool := false
  /-- Free-running seeds and counters that no register shows: draws of SR_FREE. -/
  noise : Nat := 0
  /-- Words of the Larder with failing parity (R183): word index, replays that fail, stuck. -/
  bad : List BadWord := []
  /-- DTIME at which the march step under way ends (R180, R182). -/
  testUntil : Option Nat := none
  deriving DecidableEq, Repr

/-- A reference image of a job (R291, R380): its slot, where it stands, and SHORT_DATA. -/
structure RefImage where
  job : Nat
  slot : Nat
  addr : Nat
  bytes : Nat
  short : Bool := false
  deriving DecidableEq, Repr

/-- A job (R323-R331): its pair, its binding and its share of slices. -/
structure JobSt where
  pair : Option Pair := none
  /-- An image, or a weight set, that a commit put in force without the other. -/
  loneImage : Option ImageRef := none
  loneWeights : Option WeightRef := none
  /-- Pairs replaced by commits, oldest first, the number of the map of each, and pairs so far (R240). -/
  old : List Pair := []
  oldMaps : List (Nat × Nat) := []
  gens : Nat := 0
  /-- Reference images loaded, one to a slot (R291). -/
  refs : List RefImage := []
  /-- Core map in force, physical core of each logical core (R254). -/
  map : Nat := 0
  bound : List Nat := []
  /-- A map switch is owed at the next part boundary (R255). -/
  switchDue : Bool := false
  /-- Allocator: queues and pointers by pair and class, 256 * gen + class (R240, R256). -/
  queues : List (Nat × List Strip) := []
  ptrs : List (Nat × Nat) := []
  debt : Nat := 0
  /-- DTIME since which the job has been blocked (R326). -/
  blockedSince : Option Nat := none
  /-- What the last switch saved, by logical core (R330). -/
  saved : List (Nat × SavedCore) := []
  deriving DecidableEq, Repr

/-- A partition's slice (R325-R330). -/
structure PtnSt where
  sliceStart : Nat := 0
  sliceEnd : Nat := 0
  /-- DTIME at which the slice ended, while it waits for its switch. -/
  endedAt : Option Nat := none
  /-- The last slice holder (R325). -/
  last : Nat := 63
  deriving DecidableEq, Repr

/-! ### Flock (spec/10_flock.md) -/

/-- What an outstanding memory operation of a thread is (R215-R229). -/
inductive MemOpKind where
  | load (bytes : Nat)
  | store (bytes : Nat) (value : Nat)
  | atomic (fn : Nat) (wide : Bool) (operand expect : Nat)
  | setOp (op : Nat) (set : Nat) (key : List Byte) (node : Nat)
  | rget (module : Nat)
  /-- An HKEY that waits for an earlier access to its bytes. -/
  | hkey (bytes : Nat)
  deriving DecidableEq, Repr

/-- An outstanding memory operation (R209, R217). -/
structure MemOp where
  kind : MemOpKind
  addr : Nat
  rd : Nat
  pc : Nat
  /-- A remote operation: the tag of its request and the DTIME at which it was sent (R228). -/
  remote : Option Nat := none
  sentAt : Nat := 0
  /-- The set entry under which a set operation was issued (R225): BASE, GEOM, SALT, MAP. -/
  setCfg : List Nat := []
  /-- The home that has accepted the operation (R319), none while it waits for room there, or is for no home here. -/
  home : Option Nat := none
  deriving DecidableEq, Repr

/-- A Flock thread in its context (R209, R211). -/
structure Thread where
  g : List Nat
  pc : Nat
  ops : List MemOp := []
  rfail : Bool := false
  /-- In SWAIT: the register that takes the status. -/
  swait : Option Nat := none
  /-- SWAIT acts as a FENCE after the wait completes (R217). -/
  fence : Bool := false
  job : Nat
  part : Nat
  launch : Nat
  /-- The launch carried ND (R219). -/
  nd : Bool
  /-- Part-table index of an ARG_SEL 2 launch, or the parts of the strip it was launched from (R348). -/
  forPart : Option Nat := none
  forStrip : Option (List Nat) := none
  deriving DecidableEq, Repr

/-- A launch whose threads have not all exited (R211, R247). -/
structure Launch where
  id : Nat
  job : Nat
  part : Nat
  entry : Nat
  total : Nat
  nextIndex : Nat
  exited : Nat
  arg : Nat
  so : Nat
  nd : Bool
  forPart : Option Nat
  forStrip : Option (List Nat)
  deriving DecidableEq, Repr

/-- The Flock engines: threads by engine * 4096 + context. -/
structure FlockSt where
  threads : List (Nat × Thread) := []
  launches : List Launch := []
  nextLaunch : Nat := 0
  deriving DecidableEq, Repr

/-! ### The stage (spec/17_staging_commit.md) -/

/-- A job start or stop in the stage (R385). -/
inductive JobAction where
  | start | stop
  deriving DecidableEq, Repr

/-- A commit that is checked or pending (R382, R383). -/
structure PendingCommit where
  /-- The COMMIT descriptor, absent for a commit that firmware requests (R299). -/
  ring : Option (Nat × Nat)
  when_ : Nat
  at_ : Nat
  /-- DTIME at which its check passed. -/
  since : Nat := 0
  deriving DecidableEq, Repr

/-- What the stage holds beside register writes (R379, R380). -/
structure StageSt where
  /-- A SEQ_WRITE since the last applied commit or DISCARD (R60), and its entries. -/
  seqTouched : Bool := false
  seq : List (Nat × SeqEntry) := []
  /-- Correction tables staged: camera, table, values (R123). -/
  tables : List (Nat × Nat × List Nat) := []
  images : List (Nat × ImageRef) := []
  weights : List (Nat × WeightRef) := []
  /-- Reference images staged (R291). -/
  refs : List RefImage := []
  jobs : List (Nat × JobAction) := []
  sos : List (Nat × SoCfg) := []
  nets : List (Nat × List Byte) := []
  /-- An allow list staged, as a file (R368). -/
  allow : Option (List Byte) := none
  commit : Option PendingCommit := none
  /-- The tick on which the last freeze ended (R381). -/
  thawed : Option Nat := none
  deriving DecidableEq, Repr


/-! ### On-line adaptation (spec/13_adaptation.md) -/

/-- A batch of the input pipeline that is not yet signalled (R294, R295): its number in the run, epoch, number in the
epoch, positions, statuses given and its last flag. -/
structure Batch where
  q : Nat
  epoch : Nat
  k : Nat
  count : Nat
  last : Bool
  /-- Positions given a status: slot and its header entry. -/
  done : List (Nat × List Byte) := []
  deriving DecidableEq, Repr

/-- A sample in decoding at an engine (R290): batch, slot and sample. -/
structure Decode where
  batch : Nat
  slot : Nat
  sample : Nat
  deriving DecidableEq, Repr

/-- Capture, the input pipeline and publication (R281-R299). -/
structure AdpSt where
  /-- Capture slots that hold a kept sample. -/
  kept : List Nat := []
  /-- The job, image and weight set that capture was armed under, by their digests (R281). -/
  capPair : Option (Nat × List Byte × List Byte) := none
  /-- Kept samples whose last rows are still to be built (R282, R283). -/
  capLeft : List CapRun := []
  /-- A run begins with INPUT_RUN_START (R297). -/
  runDue : Bool := false
  /-- Samples of the list, n, and batches of the run begun so far. -/
  n : Nat := 0
  batchesBegun : Nat := 0
  /-- The next batch to signal. -/
  nextReady : Nat := 0
  batches : List Batch := []
  engines : List (Option Decode) := [none, none, none, none]
  /-- The ready count has reached LOW_WATER since the last alarm (R296). -/
  armedLow : Bool := false
  /-- It has reached LOW_WATER since the run began; and the epoch at which the run began (R293, R296). -/
  reachedLow : Bool := false
  runEpoch : Nat := 0
  /-- The value of the REQ counter up to which publication requests have been served (R298). -/
  served : Int := 0
  /-- A unit of FREE is being waited for by the pipeline; units of FREE taken in the run (R295). -/
  waitingFree : Bool := false
  freeTaken : Nat := 0
  deriving DecidableEq, Repr


/-! ### Sheepdog and self-test (spec/18_verdicts_sheepdog.md) -/

/-- A resource and step of self-test (R400): step 0 LARDER_MARCH, 1 ARRAY_KAV, 2 PANTRY_TAG, 3 LP_KAL; the core, die or
camera it tests. -/
structure StepKey where
  step : Nat
  unit : Nat
  deriving DecidableEq, Repr

/-- Sheepdog, the disagreement window, proof tests and self-test coverage (R389-R404). -/
structure SdgSt where
  /-- The window of R398, oldest first. -/
  win : List Bool := []
  /-- Parts queued for a check, first the one being checked (R391). -/
  queue : List Nat := []
  /-- The armed proof test (R404): lane and mode. -/
  proof : Option (Nat × Nat) := none
  /-- Steps carried from earlier coverage intervals, and steps completed in this one, by resource (R400, R402). -/
  carried : List (StepKey × Nat) := []
  done : List (StepKey × Nat) := []
  intervalStart : Nat := 0
  /-- Cameras whose last LP_KAL failed (R403). -/
  kalFailed : List Nat := []
  deriving DecidableEq, Repr


/-! ### Gatis fabric (spec/20_gatis_fabric.md) -/

/-- A packet of the fabric (R429): type, channel, partition, destination, source, tag, epoch, payload. -/
structure GPacket where
  type : Nat
  vc : Nat
  part : Nat := 0
  dst : Nat := 0
  bcast : Bool := false
  src : Nat := 0
  tag : Nat := 0
  epoch : Nat := 0
  payload : List Byte := []
  /-- The port by which a packet came that this module forwards: its units return once it has left (R432). -/
  via : Option Nat := none
  deriving DecidableEq, Repr

/-- One port Gk (R428-R433). -/
structure PortSt where
  txSeq : Nat := 0
  rxSeq : Nat := 0
  /-- Packets sent and not acknowledged, oldest first, with their LSEQ (R430). -/
  replay : List (Nat × GPacket) := []
  /-- NAKs received of one LSEQ, and the LSEQ whose NAK was sent (R430). -/
  naks : Nat × Nat := (0, 0)
  nakSent : Option Nat := none
  /-- DTIME at which a HELLO was last sent, at which an ACK was, and whether the peer's HELLO was accepted. -/
  helloAt : Option Nat := none
  /-- The last HELLO sent (R428). -/
  hello : List Byte := []
  ackAt : Nat := 0
  /-- Units held at the peer, by VC * 8 + partition (R432). -/
  creds : List (Nat × Nat) := []
  /-- Units that the peer advertised in HELLO, by the same key. -/
  quota : List (Nat × Nat) := []
  /-- CTL sets sent, oldest first (R427): TYPE and DATA. -/
  ctl : List (Nat × Nat) := []
  /-- The sets sent, oldest first: a control mark and a byte for each lane; and how many since the last IDLE (R427). -/
  line : List (List (Bool × Byte)) := []
  sinceIdle : Nat := 0
  /-- Symbols received by lane, from its first IDLE symbol on, that wait for the other lanes; the lanes are deskewed; and the
  last set received (R427). -/
  skew : List (Option (List (Bool × Byte))) := [none, none, none, none]
  deskewed : Bool := false
  got : List (Bool × Byte) := []
  /-- Packets queued to leave by the port, and whether VC 3 is served before VC 2 next (R431). -/
  out : List GPacket := []
  bulkNext : Bool := false
  /-- Units owed by a packet that has left: the port it came by, and the DATA of the CRED set (R432). -/
  owed : List (Nat × Nat) := []
  deriving DecidableEq, Repr


/-- A set operation that this module, as primary, has applied and replicates (R227): the requester and its tag (none
for a thread of this module: engine * 4096 + context and the key of its operation), the tag of the REPL, the result. -/
structure Serving where
  requester : Nat
  reqTag : Nat
  local_ : Option (Nat × Nat)
  part : Nat
  tag : Nat
  result : Nat
  deriving DecidableEq, Repr

/-- A strip being received by a halo entry (R443): entry, strip, bytes to come in all (once the header is known), the
byte offsets and lengths received, and whether the strip is discarded. -/
structure HaloRecv where
  entry : Nat
  strip : Nat
  total : Nat
  got : List (Nat × Nat) := []
  dropped : Bool := false
  deriving DecidableEq, Repr

/-- The fabric. -/
structure GtsSt where
  ports : List PortSt := List.replicate 8 {}
  /-- Link-state of the other modules: UP ports, the peer and its port (R434). -/
  links : List (Nat × List (Nat × Nat × Nat)) := []
  /-- Members without a route: ID and the DTIME since which; and members lost (R439). -/
  away : List (Nat × Nat) := []
  lost : List Nat := []
  /-- The module has been in a fabric: TIME_MASTER is known (R436). -/
  formed : Bool := false
  /-- Time exchange under way: tag and t1 in units of 62.5 ps; when the last request left; the latest offsets, newest
  first; exchanges in a row within 2 ns; DTIME of the last exchange; phase of the time base in 62.5 ps units. -/
  tsync : Option (Nat × Nat) := none
  tsSent : Nat := 0
  offsets : List Int := []
  goodRun : Nat := 0
  lastExchange : Nat := 0
  phase : Int := 0
  nextTag : Nat := 0
  /-- Shards that promotion has made single-copy, with their word of the shard map (R233, R439): set, shard, word. -/
  single : List (Nat × Nat × Nat) := []
  /-- Doubtful copies that their primaries have reported: set, shard and primary; and a promotion is to be looked for (R439). -/
  reports : List (Nat × Nat × Nat) := []
  promoteDue : Bool := false
  /-- Tags of requests that no link could carry (R228). -/
  unsent : List Nat := []
  serving : List Serving := []
  halos : List HaloRecv := []
  deriving DecidableEq, Repr


/-! ### The state -/

/-- The state of the module and the queue of commands that wait. -/
structure State where
  /-- Registers in force that differ from their reset value, by BAR0 offset. -/
  regs : List (Nat × BitVec 32)
  /-- Staged register values (R379), by BAR0 offset: only registers written since the stage last equalled the
  configuration in force. -/
  staged : List (Nat × BitVec 32)
  /-- Pending values of pairs (R377), by BAR0 offset of the non-latching member, oldest first. -/
  pairs : List (Nat × BitVec 32)
  /-- Holding registers of R170, by BAR0 offset of the _HI register. -/
  holding : List (Nat × BitVec 32)
  /-- DTIME (R24). -/
  dtime : Nat
  /-- Cellar and Shelf by physical byte, Larders by core and byte, host memory by host address. -/
  mem : List Host.Cell
  larder : List Host.Cell
  host : List Host.Cell
  /-- Draws of free values made so far (the model's own field: log entry 2). -/
  free : Nat
  module : Module
  cel : CelSt
  pos : PosSt
  lanes : List LaneSt
  cams : List CamSt
  lp : LpSt
  seq : SeqSt
  field : FieldSt
  link : LinkSt
  aud : AudSt
  loft : LoftSt
  ntm : NtmSt
  gts : GtsSt
  client : ClientSt
  cores : List CoreSt
  lists : List (Nat × ListCtx)
  jobs : List (Nat × JobSt)
  ptns : List PtnSt
  flock : FlockSt
  adp : AdpSt
  sdg : SdgSt
  stage : StageSt
  sync : SyncSt
  clk : ClkSt
  boot : BootSt
  /-- Commands that wait, first in, first out. -/
  pending : List Instr
  deriving DecidableEq, Repr


/-! ### Reset (R20, R474-R482; log entry 3) -/

/-- Cores enabled by fuse whose die is not lost: a compute die takes its eight cores with it (R16). -/
def Module.cores (m : Module) : Nat :=
  m.present - Nat.land m.present ((if bit m.lost 0 then 0xFF else 0) + (if bit m.lost 1 then 0xFF00 else 0))

/-- The registers whose reset value the identity of the module gives: those that the register tables call "per module",
"per package" or "per boot". -/
def Module.regs (m : Module) (retired : List RetEntry) : List (Nat × BitVec 32) :=
  let free (k : Nat) : Nat := 64 - (retired.filter (fun e => e.channel == k && !e.unusable)).length
  let core (n : Nat) : Nat := n / 8 * 128 + n / 4 * 32 + (if bit m.present n then 1 else 0) + (if bit m.cores n then 2 else 0)
  ([(R.GLB_VERSION, (if m.coated then 256 else 0) + m.step), (R.GLB_SERIAL_LO, m.serial % 4294967296),
    (R.GLB_SERIAL_HI, m.serial / 4294967296), (R.GLB_CORE_MAP, m.present + m.cores * 65536),
    (R.BOOT_FW, m.rollback * 65536 + m.revoked), (R.BOOT_CERT_LEN, (nth m.certs 0 []).length)]
    ++ (List.range 16).map (fun n => (R.CORE_STATUS n, core n))
    ++ (List.range 16).map (fun n => (R.CORE_REPAIR n, nth m.repair n 0))
    ++ (List.range 2).map (fun e => (R.FLK_ENG_STATUS e, if bit m.lost e then 0 else 1))
    ++ (List.range 32).map (fun k => (R.CEL_SPARE k, free k))).foldl
      (fun l (e : Nat × Nat) => sparsePut regDefault l e.1 (BitVec.ofNat 32 e.2)) []

/-- A module right after reset: every register and every unit at its reset value; what survives a reset is given: the
module's identity, the retirement list and the stuck words of the memories, boot flash, host memory. -/
def State.resetOf (m : Module) (c : CelSt) (cores : List CoreSt) (b : BootSt) (host : List Host.Cell) (free : Nat)
    (pending : List Instr) : State :=
  { regs := m.regs c.retired, staged := [], pairs := [], holding := [], dtime := 0, mem := [], larder := []
    host := host, free := free, module := m
    cel := { bad := c.bad.filter (·.stuck), retired := c.retired }
    pos := {}, lanes := List.replicate 64 {}, cams := List.replicate 16 {}, lp := {}, seq := {}, field := {}, link := {}
    aud := {}, loft := {}, ntm := {}, gts := {}, client := {}
    cores := cores.map (fun x => { bad := x.bad.filter (·.stuck) })
    lists := [], jobs := [], ptns := List.replicate 8 {}, flock := {}, adp := {}, sdg := {}, stage := {}, sync := {}
    clk := {}
    boot := { slot := b.slot, cfgA := b.cfgA, cfgB := b.cfgB, katFails := b.katFails, tap := b.tap }
    pending := pending }

/-- The test access port after a test-logic reset: IDCODE is selected (R502). -/
def Module.tapReset (m : Module) : TapSt := { captured := BitVec.ofNat 32 m.idcode }

/-- The machine right after reset: a module with the identity of log entry 3, empty boot flash, and an empty queue. -/
def State.reset : State := State.resetOf {} {} (List.replicate 16 {}) { tap := Module.tapReset {} } [] 0 []

end Sys2Proof.Machine
end

