-- ==== Sys2Proof/Machine/Ops.lean ====
section
/-! DEFINITION. Machine/Ops.lean: the named operations over registers, counters, memories and the queues that leave
the logic side: what every meaning is written with. -/

namespace Sys2Proof.Machine

/-! ### Lists -/

/-- An element put in before the first one that `key` does not place before it. -/
def insertBy {α : Type} (key : α → Nat) (x : α) : List α → List α
  | [] => [x]
  | y :: ys => if key x ≤ key y then x :: y :: ys else y :: insertBy key x ys

/-- A list in ascending order of `key`; elements of one key stay in their order. -/
def sortBy {α : Type} (key : α → Nat) (l : List α) : List α := l.foldr (insertBy key) []

/-! ### Registers and fields -/

/-- A register's value in force (R7). -/
def State.reg (s : State) (off : Nat) : BitVec 32 := sparseGet regDefault s.regs off

/-- Set a register's value in force. -/
def State.setReg (s : State) (off : Nat) (v : BitVec 32) : State :=
  { s with regs := sparsePut regDefault s.regs off v }

/-- Word `w` with bits `hi` to `lo` replaced by `v`. -/
def putBits (w hi lo v : Nat) : Nat :=
  w % 2 ^ lo + (v % 2 ^ (hi - lo + 1)) * 2 ^ lo + w / 2 ^ (hi + 1) * 2 ^ (hi + 1)

/-- A field's value in force. -/
def State.get (s : State) (f : Fld) : Nat := bits (s.reg f.off).toNat f.hi f.lo

/-- Set a field, leaving the register's other bits. -/
def State.put (s : State) (f : Fld) (v : Nat) : State :=
  s.setReg f.off (BitVec.ofNat 32 (putBits (s.reg f.off).toNat f.hi f.lo v))

/-- A one-bit field as a truth value. -/
def State.flag (s : State) (f : Fld) : Bool := s.get f != 0

/-- Set a one-bit field to 1. -/
def State.raise (s : State) (f : Fld) : State := s.put f 1

/-- Where the bits of a field stand that the module has set on this tick: beside the register, above BAR0. -/
def Fld.onTick (f : Fld) : Fld := ⟨f.off + 0x400000, f.hi, f.lo⟩

/-- Set bits of a W1C field, and note that this tick set them: a client write of 1 on the same tick leaves them set (R8). -/
def State.latchBits (s : State) (f : Fld) (v : Nat) : State :=
  (s.put f (Nat.lor (s.get f) v)).put f.onTick (Nat.lor (s.get f.onTick) v)

/-- Set a one-bit W1C field (R8). -/
def State.latch (s : State) (f : Fld) : State := s.latchBits f 1

/-- A field with a bit that the module has set on this tick (R8). -/
def State.setNow (s : State) (f : Fld) : Bool := s.flag f.onTick

/-- A new tick: what the tick before has set can be cleared. -/
def State.newTick (s : State) : State := { s with regs := s.regs.filter (fun e => decide (e.1 < 0x400000)) }

/-- Set a field to 0. -/
def State.drop (s : State) (f : Fld) : State := s.put f 0

/-- Set a one-bit field to a truth value. -/
def State.putFlag (s : State) (f : Fld) (b : Bool) : State := s.put f (if b then 1 else 0)

/-- Add to a counter field that saturates at all ones. -/
def State.bumpBy (s : State) (f : Fld) (n : Nat) : State := s.put f (satNat (f.hi - f.lo + 1) (s.get f + n))

/-- Count one event in a saturating counter. -/
def State.bump (s : State) (f : Fld) : State := s.bumpBy f 1

/-- Count one event, and note that this tick counted it: a clear on the same tick leaves it counted (R89). -/
def State.bumpNow (s : State) (f : Fld) : State := (s.bump f).bump f.onTick

/-- A clear of a counter: events that this tick has counted stay counted (R89). -/
def State.clearCount (s : State) (f : Fld) : State := s.put f (s.get f.onTick)

/-- Count one event in a counter that wraps. -/
def State.bumpWrap (s : State) (f : Fld) : State := s.put f (s.get f + 1)

/-- A field read as two's complement. -/
def State.getInt (s : State) (f : Fld) : Int := signed (f.hi - f.lo + 1) (s.get f)

/-- Set a field to the two's complement of an integer. -/
def State.putInt (s : State) (f : Fld) (z : Int) : State := s.put f (toBits (f.hi - f.lo + 1) z)

/-- A 64-bit value held in a _LO and a _HI field. -/
def State.get64 (s : State) (lo hi : Fld) : Nat := s.get lo + 4294967296 * s.get hi

/-- Set a 64-bit value held in a _LO and a _HI field. -/
def State.put64 (s : State) (lo hi : Fld) (v : Nat) : State := (s.put lo (v % 4294967296)).put hi (v / 4294967296)

/-- A clear of several counters; events of the same tick stay counted (R89). -/
def State.clearCounts (s : State) (fs : List Fld) : State := fs.foldl (fun s f => s.clearCount f) s

/-- Set a list of fields to 0. -/
def State.dropAll (s : State) (fs : List Fld) : State := fs.foldl (fun s f => s.drop f) s

/-- Keep a field's peak: raise it to `v` if it is less. -/
def State.peak (s : State) (f : Fld) (v : Nat) : State := if s.get f < v then s.put f v else s

/-! ### The stage (R379) -/

/-- The staged value of a register: the value written since the stage last equalled the configuration in force. -/
def State.stagedReg (s : State) (off : Nat) : BitVec 32 := (keyGet s.staged off).getD (s.reg off)

/-- A field's staged value. -/
def State.stagedGet (s : State) (f : Fld) : Nat := bits (s.stagedReg f.off).toNat f.hi f.lo

/-- The state with the staged registers in force: what the checker of R386 and COMMIT_APPLY look at. -/
def State.withStage (s : State) : State := s.staged.foldl (fun s e => s.setReg e.1 e.2) s

/-! ### Free values -/

/-- A value that the spec leaves open: an opaque constant of Config applied to the count of draws. -/
def State.draw (s : State) : BitVec 64 × State := (Config.freeValue s.free, { s with free := s.free + 1 })

/-! ### Byte memories -/

/-- What a byte of module memory reads as before anything has written it: the boot fill writes every word 0 (R389, R477). -/
def memDefault (_ : Nat) : Byte := 0

/-- Canonical form of a byte memory. -/
def Memory.wf (m : List Host.Cell) : Bool := sparseWf memDefault m

/-- One byte of a byte memory. -/
def Memory.byte (m : List Host.Cell) (a : Nat) : Byte := sparseGet memDefault m a

/-- Write one byte. -/
def Memory.setByte (m : List Host.Cell) (a : Nat) (b : Byte) : List Host.Cell := sparsePut memDefault m a b

/-- `n` bytes from address `a`. -/
def Memory.read (m : List Host.Cell) : Nat → Nat → List Byte
  | _, 0 => []
  | a, n + 1 => Memory.byte m a :: Memory.read m (a + 1) n

/-- Write bytes from address `a`. -/
def Memory.write (m : List Host.Cell) : Nat → List Byte → List Host.Cell
  | _, [] => m
  | a, b :: bs => Memory.write (Memory.setByte m a b) (a + 1) bs

/-- Host memory, read by the module's own requests (R350, R356, R364). -/
def State.hostRead (s : State) (a n : Nat) : List Byte := Memory.read s.host a n

/-- Host memory, written by the module. -/
def State.hostWrite (s : State) (a : Nat) (bs : List Byte) : State := { s with host := Memory.write s.host a bs }

/-! ### The Loft queue (R472) -/

/-- Queue an update or event for the Loft engine: 512 places, and a drop is counted. -/
def State.loftPush (s : State) (i : LoftItem) : State :=
  if s.loft.queue.length < 512 then { s with loft := { s.loft with queue := s.loft.queue ++ [i] } }
  else
    ({ s with loft := { s.loft with dropped := true } }.bump R.LOFT_CNT_DROP.N).latch R.LOFT_STATUS.DROP_SEEN

/-- Queue an event with DTIME and WPOS of this tick; part 0xFFFF_FFFF where the event concerns none (R468). -/
def State.loftEvent (s : State) (code : Nat) (data : List Byte) : State :=
  s.loftPush (.event code 4294967295 data s.dtime s.pos.wpos)

/-- Queue a value for an accumulator. -/
def State.loftValue (s : State) (record : Nat) (v : Int) (part : Nat) : State :=
  s.loftPush (.value record v part s.dtime s.pos.wpos)

/-! ### The downlink and line stop (R408, R423) -/

/-- EXTEST, CLAMP and HIGHZ act as BYPASS once the module is READY and not in recovery (R504). -/
def State.tapBypassed (s : State) : Bool := s.flag R.GLB_STATUS.READY && !s.flag R.GLB_STATUS.RECOVERY

/-- The instruction of the test access port that acts (R504): one loaded while it has no effect acts once it has. -/
def State.tapActs (s : State) : TapInstr :=
  match s.boot.tap.instr with
  | .extest => if s.tapBypassed then .bypass else .extest
  | .clamp => if s.tapBypassed then .bypass else .clamp
  | .highz => if s.tapBypassed then .bypass else .highz
  | i => i

/-- The boundary register, or HIGHZ, has the pins that it covers (R503): the module's own levels do not reach them. -/
def State.pinsTaken (s : State) : Bool := s.tapActs == .extest || s.tapActs == .clamp || s.tapActs == .highz

/-- Send a frame on the downlink with the next SEQ; a frame can be named for retransmission until its SEQ comes round
again (R410). It does not reach the isolator pins while the test access port has them (R503). -/
def State.sendDown (s : State) (m : DownMsg) : State :=
  let f : DownFrame := ⟨s.link.downSeq, m⟩
  { s with link := { s.link with
      downSeq := u16 (s.link.downSeq + 1), down := if s.pinsTaken then s.link.down else s.link.down ++ [f]
      sent := ((f, .first) :: s.link.sent).take 65536 } }

/-- Line-stop causes (R423). -/
inductive Cause where
  | reset | client | position | sequencer | camera | sheepdog | job | field | input | heartbeat | other
  deriving DecidableEq, Repr

/-- The bit of a cause in FLD_LS_CAUSE (R423). -/
def Cause.bitNo : Cause → Nat
  | .reset => 0 | .client => 1 | .position => 2 | .sequencer => 3 | .camera => 4 | .sheepdog => 5
  | .job => 6 | .field => 7 | .input => 8 | .heartbeat => 9 | .other => 10

/-- Change FLD_LS_CAUSE: LS_SET with RUN 0 when the first bit is set, RUN 1 when the last clears, and a LINE_STOP event
on every change (R423, R471). -/
def State.setCauses (s : State) (new : Nat) : State :=
  let old := s.get R.FLD_LS_CAUSE.CAUSE
  if old = new then s
  else
    let s := (s.put R.FLD_LS_CAUSE.CAUSE new).latchBits R.FLD_LS_CAUSE.CAUSE (Nat.land new (2047 - old))
    let s := if old = 0 then s.sendDown (.lsSet false) else if new = 0 then s.sendDown (.lsSet true) else s
    s.loftEvent 0x000D (leBytes 4 old ++ leBytes 4 new ++ List.replicate 208 0)

/-- Request line stop: set the cause's bit (LINE_STOP_REQUEST, R423); set again, it too withstands a clear of its tick (R8). -/
def State.lineStop (s : State) (c : Cause) : State :=
  let old := s.get R.FLD_LS_CAUSE.CAUSE
  (s.setCauses (if bit old c.bitNo then old else old + 2 ^ c.bitNo)).latchBits R.FLD_LS_CAUSE.CAUSE (2 ^ c.bitNo)

/-- RUN as LS_SET and HEARTBEAT carry it: 1 when no cause bit is set (R421, R423). -/
def State.runNow (s : State) : Bool := s.get R.FLD_LS_CAUSE.CAUSE == 0

/-! ### Reset (R482, R491) -/

/-- The field controller at its reset: what it measures of the field supply and its own temperature stays (R493). -/
def FieldSt.again (f : FieldSt) : FieldSt := { supplyLow := f.supplyLow, supply := f.supply, temp := f.temp }

/-- The module returns to reset (R482, R491): what survives is its identity, boot flash, the stuck words and host memory, and what
is so outside it. -/
def State.resetFrom (s : State) : State :=
  { State.resetOf s.module s.cel s.cores s.boot s.host s.free s.pending with field := s.field.again }

/-- The logic-side rails switch off and the module returns to reset; the barrier supply holds the field controller. -/
def State.powerOff (s : State) : State :=
  let t := s.resetFrom
  { t with
    field := { s.field with offAt := some s.field.ftime }
    boot := { t.boot with power := false, tap := t.module.tapReset } }

/-! ### Access errors (R4, R5, R19, R20) -/

/-- Count a discarded write, and keep the offset of the first (GLB_ACCESS_ERR, GLB_ACCESS_ADDR). -/
def State.accessErr (s : State) (off : Nat) : State :=
  let s := if s.get R.GLB_ACCESS_ERR.COUNT = 0 then s.put R.GLB_ACCESS_ADDR.OFFSET off else s
  s.bump R.GLB_ACCESS_ERR.COUNT

/-- The Marfin cores run firmware: in service, not before READY nor in recovery (R477, R478). -/
def State.marfinRuns (s : State) : Bool := s.flag R.GLB_STATUS.READY

/-- A row of the logic side, whose rails are on: with them off it does nothing (R491). -/
def State.onRails (s : State) (f : State → State) : State := if s.boot.power then f s else s

/-- BAR0 answers while the module has power. -/
def State.answers (s : State) : Bool := s.boot.power

/-- The block of an offset is in use: GLB and BOOT always; the others once READY is 1 (R20, R477), and until then they
behave as where no register is defined. -/
def State.inUse (s : State) (off : Nat) : Bool :=
  s.flag R.GLB_STATUS.READY || decide (off < 0x10000) || (decide (0x30000 ≤ off) && decide (off < 0x40000))

/-- A row that is the write of one register: its effect where the register's block is in use; else it is counted as where no
register is defined (R5, R477). -/
def State.written (s : State) (off : Nat) (f : State → State) : State :=
  if !s.answers then s else if !s.inUse off then s.accessErr off else f s

end Sys2Proof.Machine
end

