-- ==== Sys2Proof/Machine/Memory.lean ====
section
/-! DEFINITION. Machine/Memory.lean: module addresses, channels, parity and replay, the Pantry, hard faults and page
retirement (spec/14_cellar.md, R302-R319). Physical bytes of the Cellar are numbered channel * 2 GiB + byte in channel,
those of the two Shelves follow from 64 GiB on. -/

namespace Sys2Proof.Machine

/-- Agents of memory accesses (R314). `issuer` stands for the issuers of lists where they fetch records, and for the save and
restore of cores: it is logged as firmware and enters no line in the Pantry; nor does the engine that reads a shard map (log
entry 20). -/
inductive MemAgent where
  | thread (engine part : Nat)
  | xfer (core part : Nat)
  | linePipe | inputPipe | firmware | fabric | issuer
  /-- An engine's own read of a shard map for a partition. -/
  | mapRead (engine part : Nat)
  deriving DecidableEq, Repr

/-- The code of an agent in CEL_FAULT_INFO. -/
def MemAgent.code : MemAgent → Nat
  | .thread e _ => e % 2 | .xfer _ _ => 2 | .linePipe => 3 | .inputPipe => 4 | .firmware => 5 | .fabric => 6
  | .issuer => 5 | .mapRead e _ => e % 2

/-- The partition of an agent; agents that belong to none give 0. -/
def MemAgent.part : MemAgent → Nat
  | .thread _ p => p | .xfer _ p => p | .mapRead _ p => p | _ => 0

/-- Agents confined to their own partition's regions and Shelf window (R306). -/
def MemAgent.confined : MemAgent → Bool
  | .thread _ _ => true | .xfer _ _ => true | _ => false

/-- The core of a transfer agent. -/
def MemAgent.core : MemAgent → Nat
  | .xfer n _ => n | _ => 0

/-- Where a module address lies (R302-R304). -/
inductive Home where
  | cellar (ch cb : Nat)
  | shelf (off : Nat)
  deriving DecidableEq, Repr

/-- The byte `k` after a home. -/
def Home.plus : Home → Nat → Home
  | .cellar ch cb, k => .cellar ch (cb + k)
  | .shelf o, k => .shelf (o + k)

/-- The byte `k` of the 64-byte line that holds a home. -/
def Home.inLine : Home → Nat → Home
  | .cellar ch cb, k => .cellar ch (cb / 64 * 64 + k)
  | .shelf o, k => .shelf (o / 64 * 64 + k)

/-- Base of region `r` (R304). -/
def State.regionBase (s : State) (r : Nat) : Nat := s.get64 (R.CEL_REG_BASE_LO.N r) (R.CEL_REG_BASE_HI.N r)

/-- Channels of region `r`, ascending. -/
def State.regionChans (s : State) (r : Nat) : List Nat := setBits 32 (s.get (R.CEL_REG_CHAN.N r))

/-- Bytes region `r` spans (R304). -/
def State.regionSpan (s : State) (r : Nat) : Nat :=
  (s.regionChans r).length * s.get (R.CEL_REG_PAGES.PAGES r) * 65536

/-- Address `a` lies in enabled region `r`. -/
def State.inRegion (s : State) (a r : Nat) : Bool :=
  s.flag (R.CEL_REG_CFG.ENABLE r) && decide (s.regionBase r ≤ a) && decide (a < s.regionBase r + s.regionSpan r)

/-- Resolution of an address in region `r` (R304): channel and byte in channel, before retirement. -/
def State.resolveIn (s : State) (a r : Nat) : Home :=
  let o := a - s.regionBase r
  let cs := s.regionChans r
  let n := cs.length
  let g := o / 4096
  .cellar (nth cs (g % n) 0) (s.get (R.CEL_REG_PAGES.PAGE0 r) * 65536 + g / n * 4096 + o % 4096)

/-- Resolution of a module address for an agent (R303, R304, R306, R307); none faults with RANGE. -/
def State.resolve (s : State) (ag : MemAgent) (a : Nat) : Option Home :=
  if a < 68719476736 then
    match (List.range 16).find? (fun r => s.inRegion a r
        && (!ag.confined || s.get (R.CEL_REG_CFG.PART r) == ag.part)) with
    | some r => some (s.resolveIn a r)
    | none => none
  else if a < 68719476736 + 8388608 then
    let o := a - 68719476736
    let b := o / 4096
    let base := s.get (R.CEL_PART_SHELF.BASE ag.part)
    if !ag.confined || (decide (base ≤ b) && decide (b < base + s.get (R.CEL_PART_SHELF.BLOCKS ag.part))) then
      some (.shelf o)
    else none
  else none

/-- The retirement entry of a channel page (R316): the latest one, where the page has been retired more than once. -/
def State.retEntry (s : State) (ch page : Nat) : Option RetEntry :=
  s.cel.retired.reverse.find? (fun e => e.channel == ch && e.page == page)

/-- The physical byte of a home, after retirement (R316). -/
def State.phys (s : State) : Home → Nat
  | .cellar ch cb =>
    let page := cb / 65536
    let pg := match s.retEntry ch page with
      | some e => if e.unusable then page else 32704 + e.spare
      | none => page
    ch * 2147483648 + pg * 65536 + cb % 65536
  | .shelf o => 68719476736 + o

/-- The page of a home is unusable (R317). -/
def State.unusable (s : State) : Home → Bool
  | .cellar ch cb => match s.retEntry ch (cb / 65536) with
    | some e => e.unusable
    | none => false
  | .shelf _ => false

/-- Outcome of an access. -/
inductive MemRes where
  | ok | range | parity
  deriving DecidableEq, Repr

/-- Log a hard fault at module address `a` (R314, R315), and queue a Cellar page for retirement (R316). -/
def State.hardFault (s : State) (ag : MemAgent) (a : Nat) (h : Home) : State :=
  let (mem, ch, die) := match h with
    | .cellar ch _ => (0, ch, ch / 16)
    | .shelf o => (1, 0, o / 4194304)
  let s := s.put64 R.CEL_FAULT_LO.ADDR R.CEL_FAULT_HI.ADDR a
  let s := ((((s.put R.CEL_FAULT_INFO.PART ag.part).put R.CEL_FAULT_INFO.CORE ag.core).put
    R.CEL_FAULT_INFO.AGENT ag.code).put R.CEL_FAULT_INFO.DIE die).put R.CEL_FAULT_INFO.CHANNEL ch
  let s := ((s.put R.CEL_FAULT_INFO.MEM mem).latch R.CEL_STATUS.HARD_SEEN).bump R.CEL_CNT_HARD.N
  let s := s.loftEvent 0x0002 (leBytes 8 a ++ leBytes 4 (s.reg R.CEL_FAULT_INFO).toNat)
  match h with
  | .shelf _ => s
  | .cellar ch cb =>
    if s.unusable h || s.cel.toRetire.contains (ch, cb / 65536) then s
    else { s with cel := { s.cel with toRetire := s.cel.toRetire ++ [(ch, cb / 65536)] } }

/-- Parity of the physical word at byte `p` (R310, R312): clean, mended by a replay, or failing through the last one. -/
def State.wordCheck (s : State) (p : Nat) : Option BadWord := s.cel.bad.find? (fun b => b.word == p / 4)

/-- Read one word at its home (R312): the replays, the soft counter, or a hard fault. -/
def State.checkWord (s : State) (ag : MemAgent) (a : Nat) (h : Home) : MemRes × State :=
  match s.wordCheck (s.phys h) with
  | none => (.ok, s)
  | some b =>
    let replays := match h with
      | .cellar _ _ => 2
      | .shelf _ => 1
    if b.stuck || decide (b.fails > replays) then (.parity, s.hardFault ag a h)
    else if b.fails = 0 then (.ok, s)
    else
      let s := { s with cel := { s.cel with bad := s.cel.bad.filter (fun x => x.word != s.phys h / 4) } }
      let s := s.latch R.CEL_STATUS.SOFT_SEEN
      (.ok, match h with
        | .cellar _ _ => s.bump R.CEL_CNT_SOFT_CEL.N
        | .shelf _ => s.bump R.CEL_CNT_SOFT_SHELF.N)

/-- Read the words at the given offsets of the line of `a`, in ascending address; each hard fault is logged (R315). -/
def State.checkWords (s : State) (ag : MemAgent) (a : Nat) (h : Home) : List Nat → MemRes × State
  | [] => (.ok, s)
  | k :: ks =>
    match s.checkWord ag (a / 64 * 64 + k) (h.inLine k) with
    | (.ok, s) => s.checkWords ag a h ks
    | (_, s) => (.parity, (s.checkWords ag a h ks).2)

/-! ### The Pantry (R308, R309, R313) -/

/-- The ways in which an agent allocates (R308). -/
def State.allocWays (s : State) (ag : MemAgent) : Nat :=
  match ag with
  | .thread _ p => s.get (R.CEL_PART_CFG.WAYS p)
  | .firmware => s.get R.CEL_FW_WAYS.WAYS
  | _ => 0

/-- The line that holds a channel byte. -/
def State.lineOf (s : State) (ch cb : Nat) : Option PanLine :=
  s.cel.lines.find? (fun l => l.channel == ch && l.line == cb / 64)

/-- PANTRY_LOCKOUT (R313): an error of a set and way is counted; a second one locks the way out until reset. -/
def State.pantryError (s : State) (die set way : Nat) : State :=
  let k := (die, set, way)
  let s := { s with cel := { s.cel with
    lines := s.cel.lines.filter (fun l => !(l.die == die && l.set == set && l.way == way)) } }
  if s.cel.panErrs.contains k then
    if s.cel.locked.contains k then s
    else { s with cel := { s.cel with locked := k :: s.cel.locked } }.bump R.CEL_CNT_PAN_LOCK.N
  else { s with cel := { s.cel with panErrs := k :: s.cel.panErrs } }

/-- The way a missing line takes: an invalid way among those allowed, else the least recently used line's (R308). -/
def State.victim (s : State) (die set mask : Nat) : Option Nat :=
  let ways := (setBits 16 mask).filter (fun w => !s.cel.locked.contains (die, set, w))
  let lines := s.cel.lines.filter (fun l => l.die == die && l.set == set && ways.contains l.way)
  match ways.find? (fun w => !lines.any (fun l => l.way == w)) with
  | some w => some w
  | none => (lines.foldl (fun (b : Option PanLine) l => match b with
      | none => some l
      | some m => if l.used < m.used then some l else some m) none).map (·.way)

/-- Count a hit or a miss of a thread's partition (R308). -/
def State.pantryCount (s : State) (ag : MemAgent) (hit : Bool) : State :=
  match ag with
  | .thread _ p => s.bump (if hit then R.CEL_PART_HIT.N p else R.CEL_PART_MISS.N p)
  | _ => s

/-- Enter a line in a way, in place of the line that is there. -/
def State.enterLine (s : State) (ch cb way : Nat) : State :=
  let die := ch / 16
  let set := cb / 64 % 8192
  { s with cel := { s.cel with
      clock := s.cel.clock + 1
      lines := (s.cel.lines.filter (fun l => !(l.die == die && l.set == set && l.way == way)))
        ++ [⟨die, set, way, ch, cb / 64, s.cel.clock, false⟩] } }

/-- What a lookup finds (R308, R313): a good line, which serves the access; or what is to be read at the home: its own words,
or the whole line, which takes a way if one is given. -/
inductive Look where
  | hit
  | words
  | line (way : Option Nat)
  deriving DecidableEq, Repr

/-- A Pantry lookup for an access to a Cellar byte (R308). A line whose parity fails is invalidated, and fetched again into
the way it had unless that is now locked out (R313). -/
def State.lookup (s : State) (ag : MemAgent) (ch cb : Nat) : Look × State :=
  match s.lineOf ch cb with
  | some l =>
    let s := s.pantryCount ag true
    if l.bad then
      let s := ((s.bump R.CEL_CNT_SOFT_PAN.N).latch R.CEL_STATUS.SOFT_SEEN).pantryError l.die l.set l.way
      (.line (if s.cel.locked.contains (l.die, l.set, l.way) then none else some l.way), s)
    else
      (.hit, { s with cel := { s.cel with
        clock := s.cel.clock + 1
        lines := s.cel.lines.map (fun x => if x == l then { x with used := s.cel.clock } else x) } })
  | none =>
    let s := s.pantryCount ag false
    (match s.victim (ch / 16) (cb / 64 % 8192) (s.allocWays ag) with
      | none => .words
      | some w => .line (some w), s)

/-- The lookup of an access to a home: the Shelf has no Pantry. -/
def State.look (s : State) (ag : MemAgent) : Home → Look × State
  | .cellar ch cb => s.lookup ag ch cb
  | .shelf _ => (.words, s)

/-- Fetch the line of an access from the Cellar with the parity of all its words (R310, R313), and enter it in a way. -/
def State.fetchLine (s : State) (ag : MemAgent) (a : Nat) (h : Home) (way : Option Nat) : MemRes × State :=
  match s.checkWords ag a h ((List.range 16).map (4 * ·)), way, h with
  | (.ok, s), some w, .cellar ch cb => (.ok, s.enterLine ch cb w)
  | x, _, _ => x

/-! ### Room at the homes (R319) -/

/-- The die that a home is on. -/
def Home.die : Home → Nat
  | .cellar ch _ => ch / 16
  | .shelf o => o / 4194304

/-- Operations in flight at a home, of a partition's threads or of all (R319). -/
def State.inFlight (s : State) (d : Nat) (part : Option Nat) : Nat :=
  (s.flock.threads.map (fun t => if part.any (· != t.2.part) then 0 else (t.2.ops.filter (fun o => o.home == some d)).length)).sum

/-- An access of an agent that belongs to no partition finds no room while others hold the 7,168 operations of its home: it
waits, and the wait counts (R319). The line pipeline's writes have operations of their own; a thread's operation waits where it
queues (State.addOp), and a transfer where it begins (State.xferWaits; log entry 43). -/
def State.roomWait (s : State) (ag : MemAgent) (h : Home) : State :=
  match ag with
  | .inputPipe | .firmware | .fabric | .issuer =>
    if s.inFlight h.die none < 7168 then s else s.bump R.CEL_CNT_WAIT_INFL.N
  | _ => s

/-! ### Loads and stores -/

/-- Read `k` words from `a` on, within one line, at their home (R308-R313): their parity, and what the Pantry does. -/
def State.readAt (s : State) (ag : MemAgent) (a : Nat) (h : Home) (k : Nat) : MemRes × State :=
  let s := s.roomWait ag h
  if s.unusable h then (.parity, s.hardFault ag a h)
  else match s.look ag h with
    | (.hit, s) => (.ok, s)
    | (.words, s) => s.checkWords ag a h ((List.range k).map (a % 64 + 4 * ·))
    | (.line w, s) => s.fetchLine ag a h w

/-- Load `k` words from the word at address `a`, line by line (R319). -/
def State.loadWords (s : State) (ag : MemAgent) : Nat → Nat → Nat → MemRes × List Byte × State
  | 0, _, _ => (.ok, [], s)
  | f + 1, a, k =>
    if k = 0 then (.ok, [], s)
    else match s.resolve ag a with
      | none => (.range, [], s)
      | some h =>
        let m := Nat.min k (16 - a / 4 % 16)
        match s.readAt ag a h m with
        | (.ok, s) =>
          let bs := Memory.read s.mem (s.phys h) (4 * m)
          match s.loadWords ag f (a + 4 * m) (k - m) with
          | (r, rest, s) => (r, bs ++ rest, s)
        | (r, s) => (r, [], s)

/-- Load `n` bytes from module address `a`. -/
def State.load (s : State) (ag : MemAgent) (a n : Nat) : MemRes × List Byte × State :=
  let a0 := a / 4 * 4
  let k := if n = 0 then 0 else (a + n - a0 + 3) / 4
  match s.loadWords ag (k / 16 + 2) a0 k with
  | (r, bs, s) => (r, sliceBytes bs (a - a0) n, s)

/-- Write bytes at their home: the Cellar or Shelf, and the line that holds them (R308), with new parity (R310); a stuck word
stays so. -/
def State.writeHome (s : State) (h : Home) (bs : List Byte) : State :=
  let p := s.phys h
  { s with
    mem := Memory.write s.mem p bs
    cel := { s.cel with bad := s.cel.bad.filter (fun b =>
      b.stuck || decide (b.word < p / 4) || decide ((p + bs.length + 3) / 4 ≤ b.word)) } }

/-- The words of a line that `n` bytes from `a` cover only in part: their offsets (R311). -/
def partWords (a n : Nat) : List Nat :=
  ((if a % 4 = 0 then [] else [a % 64 / 4 * 4]) ++ (if (a + n) % 4 = 0 then [] else [(a + n) % 64 / 4 * 4])).dedup

/-- Store bytes within one line at their home: words covered in part are read and merged there (R311), and a line that a miss
lets in is fetched after the write. -/
def State.writeAt (s : State) (ag : MemAgent) (a : Nat) (h : Home) (bs : List Byte) : MemRes × State :=
  let s := s.roomWait ag h
  if s.unusable h then (.parity, s.hardFault ag (a / 4 * 4) h)
  else
    let (look, s) := s.look ag h
    match (if look = .hit then (MemRes.ok, s) else s.checkWords ag a h (partWords a bs.length)) with
    | (.ok, s) => match look with
      | .line w => (s.writeHome h bs).fetchLine ag a h w
      | _ => (.ok, s.writeHome h bs)
    | e => e

/-- Store bytes line by line. -/
def State.storeLines (s : State) (ag : MemAgent) : Nat → Nat → List Byte → MemRes × State
  | 0, _, _ => (.ok, s)
  | f + 1, a, bs =>
    if bs.isEmpty then (.ok, s)
    else match s.resolve ag a with
      | none => (.range, s)
      | some h =>
        let m := 64 - a % 64
        match s.writeAt ag a h (bs.take m) with
        | (.ok, s) => s.storeLines ag f (a + m) (bs.drop m)
        | e => e

/-- Store bytes at module address `a`. An operation that fails ends the store; those before it are written. -/
def State.store (s : State) (ag : MemAgent) (a : Nat) (bs : List Byte) : MemRes × State :=
  s.storeLines ag (bs.length / 64 + 2) a bs

/-- Store pieces at offsets from an address, up to one that fails: whether all are done. -/
def State.storeAll (s : State) (ag : MemAgent) (base : Nat) : List (Nat × List Byte) → Bool × State
  | [] => (true, s)
  | w :: ws => match s.store ag (base + w.1) w.2 with
    | (.ok, s) => s.storeAll ag base ws
    | (_, s) => (false, s)

/-- Load pieces, address and length, up to one that fails: whether all are read, and their bytes. -/
def State.loadAll (s : State) (ag : MemAgent) : List (Nat × Nat) → Bool × List Byte × State
  | [] => (true, [], s)
  | p :: ps => match s.load ag p.1 p.2 with
    | (.ok, bs, s) => (match s.loadAll ag ps with
      | (ok, rest, s) => (ok, bs ++ rest, s))
    | (_, _, s) => (false, [], s)

/-- Write whole words back in the operation that has read them at their home: an atomic or a set operation (R219, R224,
R309). -/
def State.storeBack (s : State) (ag : MemAgent) (a : Nat) (bs : List Byte) : State :=
  match s.resolve ag a with
  | none => s
  | some h => s.writeHome h bs

/-- Every byte of `n` from `a` resolves for the agent. -/
def State.reachable (s : State) (ag : MemAgent) (a n : Nat) : Bool :=
  (List.range ((n + 4095) / 4096 + 1)).all (fun k =>
    let x := if k * 4096 < n then a + k * 4096 else a + n - 1
    (s.resolve ag x).isSome)

/-- Home die of an address (R304, R307). -/
def State.homeDie (s : State) (ag : MemAgent) (a : Nat) : Nat :=
  match s.resolve ag a with
  | some h => h.die
  | none => 0

/-! ### Page retirement (R316, R317) -/

/-- The next page to retire: ascending channel, then page (R316). -/
def nextRetire : List (Nat × Nat) → Option (Nat × Nat)
  | [] => none
  | p :: ps => match nextRetire ps with
    | none => some p
    | some q => if p.1 < q.1 || (p.1 == q.1 && decide (p.2 ≤ q.2)) then some p else some q

/-- Entry `k` of the retirement list as CEL_RET_DATA shows it (R316). -/
def RetEntry.word (e : RetEntry) : Nat :=
  e.page + e.channel * 32768 + e.spare * 1048576 + (if e.unusable then 536870912 else 0)
    + (if e.lost then 1073741824 else 0) + 2147483648

/-- Copy the bytes of one physical page onto another. -/
def copyPage (m : List Host.Cell) (src dst : Nat) : List Host.Cell :=
  let cells := m.filter (fun c => decide (src ≤ c.1) && decide (c.1 < src + 65536))
  let cleared := m.filter (fun c => !(decide (dst ≤ c.1) && decide (c.1 < dst + 65536)))
  cells.foldl (fun m c => Memory.setByte m (c.1 - src + dst) c.2) cleared

/-- Module addresses of byte `cb` of a channel, through the enabled regions (R304). -/
def State.addrsOf (s : State) (ch cb : Nat) : List Nat :=
  (List.range 16).filterMap (fun r =>
    let cs := s.regionChans r
    let p0 := s.get (R.CEL_REG_PAGES.PAGE0 r) * 65536
    if s.flag (R.CEL_REG_CFG.ENABLE r) && cs.contains ch && decide (p0 ≤ cb)
        && decide (cb < p0 + s.get (R.CEL_REG_PAGES.PAGES r) * 65536) then
      let g := (cb - p0) / 4096
      some (s.regionBase r + (g * cs.length + cs.findIdx (· == ch)) * 4096 + cb % 4096)
    else none)

/-- The module address of a channel byte for the log of a hard fault; where no region maps it any more, the spec gives none
(log entry 20). -/
def State.addrFor (s : State) (ch cb : Nat) : Nat × State :=
  match s.addrsOf ch cb with
  | a :: _ => (a, s)
  | [] => let (v, s) := s.draw
    (v.toNat, s)

/-- Put a number into an ascending list, once. -/
def insertAsc (x : Nat) : List Nat → List Nat
  | [] => [x]
  | y :: ys => if x < y then x :: y :: ys else if x = y then y :: ys else y :: insertAsc x ys

/-- The numbers of a list in ascending order, each once. -/
def ascending (l : List Nat) : List Nat := l.foldr insertAsc []

/-- Offsets in a channel page of the words with a mark whose reads can fail, ascending, that no good Pantry line holds. -/
def State.marksIn (s : State) (ch page : Nat) : List Nat :=
  let p := s.phys (.cellar ch (page * 65536))
  let marked := s.cel.bad.filter (fun b => decide (p / 4 ≤ b.word) && decide (b.word < p / 4 + 16384))
  (ascending (marked.map (fun b => b.word * 4 - p))).filter (fun o => match s.lineOf ch (page * 65536 + o) with
      | some l => l.bad
      | none => true)

/-- The reads of retirement (R310, R316): offsets of the words that fail through their replays, each logged as firmware's hard
fault. -/
def State.copyReads (s : State) (ch page : Nat) : List Nat → List Nat × State
  | [] => ([], s)
  | o :: os =>
    let (a, s) := s.addrFor ch (page * 65536 + o)
    match s.checkWord .firmware a (.cellar ch (page * 65536 + o)) with
    | (.ok, s) => s.copyReads ch page os
    | (_, s) =>
      let (ws, s) := s.copyReads ch page os
      (o :: ws, s)

/-- Add an entry to the retirement list. -/
def State.addRet (s : State) (e : RetEntry) : State :=
  { s with cel := { s.cel with
      retired := s.cel.retired ++ [e]
      toRetire := s.cel.toRetire.filter (· != (e.channel, e.page)) } }

/-- Retire channel page (ch, page) onto its lowest free spare, or mark it unusable where none is free (R316, R317): the
channel bytes of the words lost, and the state. -/
def State.retire (s : State) (ch page : Nat) : List Nat × State :=
  let used := (s.cel.retired.filter (fun e => e.channel == ch && !e.unusable)).map (·.spare)
  let free := s.get (R.CEL_SPARE.FREE ch)
  match (List.range 64).find? (fun k => !used.contains k), decide (free > 0) with
  | some k, true =>
    let src := s.phys (.cellar ch (page * 65536))
    let dst := ch * 2147483648 + (32704 + k) * 65536
    let (lost, s) := s.copyReads ch page (s.marksIn ch page)
    let m := copyPage s.mem src dst
    let m := lost.foldl (fun m o => Memory.write m (o + dst) [0, 0, 0, 0]) m
    let e : RetEntry := ⟨ch, page, k, !lost.isEmpty, false⟩
    let s := { s with
      mem := m
      cel := { s.cel with bad := s.cel.bad.filter (fun b =>
        b.stuck || decide (b.word < dst / 4) || decide (dst / 4 + 16384 ≤ b.word)) } }
    let s := ((s.addRet e).put (R.CEL_SPARE.FREE ch) (free - 1)).bump R.CEL_CNT_RETIRED.N
    (lost.map (page * 65536 + ·), s.loftEvent 0x0003 (leBytes 4 e.word ++ leBytes 4 lost.length))
  | _, _ =>
    let e0 : RetEntry := ⟨ch, page, 63, false, true⟩
    let s := (s.addRet e0).latch R.CEL_STATUS.SPARES_OUT
    ([], s.loftEvent 0x0003 (leBytes 4 e0.word ++ leBytes 4 0))

/-- CEL_RET_READ (R316): writing CEL_RET_IDX copies an entry of the retirement list into CEL_RET_DATA. -/
def State.celRetRead (s : State) (index : Nat) : State :=
  let s := s.put R.CEL_RET_IDX.INDEX index
  let w := match s.cel.retired[index % 2048]? with
    | some e => e.word
    | none => 0
  s.setReg R.CEL_RET_DATA (BitVec.ofNat 32 w)

/-- CEL_RET_READ (R316). -/
def execCelRetRead (index : BitVec 11) (s : State) : Host.Outcome State Fault Refusal :=
  .next (s.written R.CEL_RET_IDX (fun s => s.celRetRead index.toNat))

/-- Lines in ways whose owner changed are invalidated on the commit tick (R309). -/
def State.waysCommit (s old : State) : State :=
  let owner (t : State) (w : Nat) : List Nat :=
    (List.range 8).filter (fun p => bit (t.get (R.CEL_PART_CFG.WAYS p)) w)
      ++ (if bit (t.get R.CEL_FW_WAYS.WAYS) w then [8] else [])
  let moved := (List.range 16).filter (fun w => owner old w != owner s w)
  if moved.isEmpty then s
  else { s with cel := { s.cel with lines := s.cel.lines.filter (fun l => !moved.contains l.way) } }

end Sys2Proof.Machine
end

