-- ==== Sys2Proof/Machine/Post.lean ====
section
/-! DEFINITION. Machine/Post.lean: what the module writes to client rings: entries, index words, completions, notices
and interrupts (spec/16_client_rings.md, R350, R354, R359-R363). -/

namespace Sys2Proof.Machine

/-- Ring `n`, if it has been enabled since reset (R351). -/
def State.ring (s : State) (n : Nat) : Option RingSt := keyGet s.client.rings n

/-- Replace ring `n`. -/
def State.setRing (s : State) (n : Nat) (r : RingSt) : State :=
  { s with client := { s.client with rings := keyPut s.client.rings n r } }

/-- Entry size of a ring kind (R349). -/
def entrySize : Nat → Nat
  | 1 => 64 | 2 => 32 | 3 => 128 | 4 => 32 | _ => 0

/-- Entries a ring holds (R349). -/
def RingSt.entries (r : RingSt) : Nat := 2 ^ r.cfg.log2

/-- Entries of a module-filled ring that the client has not consumed (R350). -/
def RingSt.held (r : RingSt) : Nat := u32 (r.prod + 4294967296 - r.cons)

/-- Room left in a module-filled ring. -/
def RingSt.room (r : RingSt) : Nat := r.entries - r.held

/-- The 64-byte index word (R350). -/
def RingSt.indexWord (r : RingSt) : List Byte :=
  leBytes 4 (if r.cfg.kind = 1 then r.fetched else r.prod) ++ leBytes 4 r.dropped ++ List.replicate 56 0

/-- Write a ring's index word; over Ethernet there is none (R350). -/
def State.writeIndex (s : State) (r : RingSt) : State :=
  if r.cfg.ethernet then s else s.hostWrite (u64 (r.cfg.base + r.entries * entrySize r.cfg.kind)) r.indexWord

/-- The host has masked a vector in its entry of the MSI-X table (R364): bit 0 of the entry's vector control. -/
def State.vectorMasked (s : State) (v : Nat) : Bool := match keyGet s.client.msix v with
  | some e => bit (fieldAt e 12 4) 0
  | none => false

/-- Raise a vector: its message goes out, or its pending bit stands while it is masked (R363, R364). -/
def State.raiseVector (s : State) (v : Nat) : State :=
  if s.vectorMasked v then { s with client := { s.client with pendingBits := (v :: s.client.pendingBits).dedup } }
  else { s with client := { s.client with irqs := s.client.irqs ++ [(v, s.dtime)] } }

/-- Raise MSI-X vector of a ring whose PROD advanced, or hold it until the holdoff ends (R363). -/
def State.raiseIrq (s : State) (n : Nat) (r : RingSt) : State :=
  if !r.cfg.ien then s.setRing n r
  else if s.dtime ≥ r.irqAfter then
    (s.raiseVector r.cfg.vector).setRing n
      { r with irqAfter := s.dtime + r.cfg.holdoffUs * 1000, irqHeld := false }
  else s.setRing n { r with irqHeld := true }

/-- A session has sent something now (R372). -/
def State.sessionSent (s : State) (k : Nat) (f : SessOut) : State :=
  let ses := s.client.sessions.map (fun e => if e.1 = k then (e.1, { e.2 with lastSent := s.dtime }) else e)
  { s with client := { s.client with sessions := ses, out := s.client.out ++ [f] } }

/-- Write one entry to a module-filled ring with room: the entry, then the index word, then the interrupt (R350, R363). -/
def State.pushEntry (s : State) (n : Nat) (r : RingSt) (bs : List Byte) : State :=
  let at_ := u64 (r.cfg.base + r.prod % r.entries * entrySize r.cfg.kind)
  let f := SessOut.entries r.cfg.session n r.prod bs
  let x : Entry := { at_ := s.dtime, addr := at_, old := if r.cfg.ethernet then [] else s.hostRead at_ bs.length
                     frame := if r.cfg.ethernet then some f else none, irq := r.cfg.ien && decide (s.dtime ≥ r.irqAfter) }
  let s := if r.cfg.ethernet then s.sessionSent r.cfg.session f else s.hostWrite at_ bs
  let r := { r with prod := u32 (r.prod + 1), fresh := x :: r.fresh.filter (fun e => e.at_ == s.dtime) }
  (s.writeIndex r).raiseIrq n r

/-- A list without the last of its elements that equal `x`. -/
def eraseLast {α : Type} [BEq α] (l : List α) (x : α) : List α := (l.reverse.erase x).reverse

/-- Take one entry of this tick back (R352). -/
def State.unwrite (s : State) (vector : Nat) (x : Entry) : State :=
  let s := s.hostWrite x.addr x.old
  { s with client := { s.client with
    out := match x.frame with
      | some f => eraseLast s.client.out f
      | none => s.client.out
    irqs := if x.irq then eraseLast s.client.irqs (vector, s.dtime) else s.client.irqs } }

/-- The entries due on this tick are not written to a ring that is disabled on it (R352): ring `n`, which now stands as `r`. -/
def State.withdraw (s : State) (n : Nat) (r : RingSt) : State :=
  let xs := r.fresh.filter (fun e => e.at_ == s.dtime)
  let r := { r with prod := u32 (r.prod + 4294967296 - xs.length), fresh := [] }
  ((xs.foldl (fun (s : State) x => s.unwrite r.cfg.vector x) s).writeIndex r).setRing n r

/-- RING_OVERFLOW (R362): an entry that meets a full ring is dropped and counted. -/
def State.dropEntry (s : State) (n : Nat) (r : RingSt) : State :=
  let r := { r with dropped := satNat 32 (r.dropped + 1) }
  ((s.writeIndex r).setRing n r).latch (R.RING_STATUS.OVERFLOW n)

/-- Deliver a record or notice to one ring (R361, R362). -/
def State.deliver (s : State) (n : Nat) (bs : List Byte) : State :=
  match s.ring n with
  | none => s
  | some r => if !r.active then s else if r.room > 0 then s.pushEntry n r bs else s.dropEntry n r

/-- Numbers of the enabled rings of a kind that meet `p`, ascending. -/
def State.ringsOf (s : State) (kind : Nat) (p : RingCfg → Bool) : List Nat :=
  (s.client.rings.filter (fun e => e.2.active && e.2.cfg.kind == kind && p e.2.cfg)).map (·.1)

/-- Status codes of R373. -/
inductive Status where
  | ok | badOpcode | badReserved | badParam | badLen | rights | dmaError | aborted | soBadArg | soAccess | soTimeout
  | camBusy | camProtected | camTimeout | camNak | checkFailed | commitPending | discarded | stageFull | jobState
  | soReset | imgFormat | imgSigner | imgSignature | imgSection | imgRecord | imgNd | imgMap | shortData | timedOut
  | tooBig | ratio | format | corrupt | setActive | setFull | noRoute | parity | soBroken | internal
  deriving DecidableEq, Repr

/-- Codes of the *Status codes* table (R373). -/
def Status.code : Status → Nat
  | .ok => 0 | .badOpcode => 0x101 | .badReserved => 0x102 | .badParam => 0x103 | .badLen => 0x104 | .rights => 0x105
  | .dmaError => 0x106 | .aborted => 0x107 | .soBadArg => 0x108 | .soAccess => 0x109 | .soTimeout => 0x10A
  | .camBusy => 0x10B | .camProtected => 0x10C | .camTimeout => 0x10D | .camNak => 0x10E | .checkFailed => 0x201
  | .commitPending => 0x202 | .discarded => 0x203 | .stageFull => 0x204 | .jobState => 0x205 | .soReset => 0x206
  | .imgFormat => 0x207 | .imgSigner => 0x208 | .imgSignature => 0x209 | .imgSection => 0x20A | .imgRecord => 0x20B
  | .imgNd => 0x20C | .imgMap => 0x20D | .shortData => 0x301 | .timedOut => 0x302 | .tooBig => 0x303 | .ratio => 0x304
  | .format => 0x305 | .corrupt => 0x306 | .setActive => 0x401 | .setFull => 0x402 | .noRoute => 0x403
  | .parity => 0x501 | .soBroken => 0x502 | .internal => 0x503

/-- A completion or notice of 32 bytes (R359). -/
def completionBytes (status op flags tag ring index result dtime : Nat) : List Byte :=
  leBytes 2 status ++ leBytes 1 op ++ leBytes 1 flags ++ leBytes 4 tag ++ leBytes 2 ring ++ leBytes 2 0
    ++ leBytes 4 index ++ leBytes 8 result ++ leBytes 8 dtime

/-- Fields of a descriptor (R356). -/
def Started.op (d : Started) : Nat := fieldAt d.bytes 0 1
def Started.flags (d : Started) : Nat := fieldAt d.bytes 1 1
def Started.tag (d : Started) : Nat := fieldAt d.bytes 4 4
def Started.addr (d : Started) : Nat := fieldAt d.bytes 8 8
def Started.len (d : Started) : Nat := fieldAt d.bytes 16 4
/-- A field of PARAM, by its byte position in the descriptor. -/
def Started.param (d : Started) (i n : Nat) : Nat := fieldAt d.bytes i n

/-- The completion of a descriptor, as an entry of its PEER `p` (R359). -/
def State.writeCompletion (s : State) (p : RingSt) (x : Started × Nat × Nat) : State :=
  s.pushEntry x.1.peer p (completionBytes x.2.1 x.1.op 0 x.1.tag x.1.ring x.1.index x.2.2 s.dtime)

/-- Completions that wait for room in ring `n`. -/
def State.owedTo (s : State) (n : Nat) : List (Started × Nat × Nat) := s.client.owed.filter (fun x => x.1.peer == n)

/-- Complete a descriptor: it leaves the started set, and its completion goes to its PEER if that is still enabled, once that has
room, in the order of completion; NO_COMP suppresses an OK completion (R352, R354-R356, R359). -/
def State.complete (s : State) (d : Started) (st : Status) (result : Nat) : State :=
  let s := { s with client := { s.client with started := s.client.started.erase d } }
  if st = .ok && bit d.flags 1 then s
  else match s.ring d.peer with
    | none => s
    | some p =>
      if !(p.active && p.epoch == d.peerEpoch) then s
      else if decide (p.room > 0) && (s.owedTo d.peer).isEmpty then s.writeCompletion p (d, st.code, u64 result)
      else { s with client := { s.client with owed := s.client.owed ++ [(d, st.code, u64 result)] } }

/-- Room in ring `n` takes the completions that wait for it, at most `k`. -/
def State.payOwed (s : State) (n : Nat) : Nat → State
  | 0 => s
  | k + 1 => match s.owedTo n, s.ring n with
    | x :: _, some p =>
      if p.room = 0 then s
      else
        let s := { s with client := { s.client with owed := s.client.owed.erase x } }
        (s.writeCompletion p x).payOwed n k
    | _, _ => s

/-- Out data of a descriptor goes to the client before its completion (R358, R370); a session closed since it started gets none
(R372). -/
def State.dataOut (s : State) (d : Started) (bs : List Byte) : State :=
  if !d.ethernet then s.hostWrite d.addr bs
  else match keyGet s.client.sessions d.session with
    | some x => if x.opening = d.opening then
        s.sessionSent d.session (.data d.session d.peer ((s.ring d.peer).map (·.prod) |>.getD 0) bs)
      else s
    | none => s

/-- Post a notice to one NOTICE ring; INDEX is the notice count of the ring (R359, R360). -/
def State.noticeTo (s : State) (n kind ring result : Nat) : State :=
  match s.ring n with
  | none => s
  | some r => if r.cfg.kind = 4 then s.deliver n (completionBytes 0 kind 1 0 ring r.prod result s.dtime) else s

/-- Post a notice to every ring in a list. -/
def State.noticeAll (s : State) (ns : List Nat) (kind ring result : Nat) : State :=
  ns.foldl (fun s n => s.noticeTo n kind ring result) s

/-- JOB_FAULT notices: rings whose JOB is that job or that have ALL_JOBS set (R360). -/
def State.noticeJobFault (s : State) (job code : Nat) : State :=
  s.noticeAll (s.ringsOf 4 (fun c => c.allJobs || c.job == job)) 1 0 (job + code * 256)

/-- RING_HALTED notices (R360). -/
def State.noticeHalted (s : State) (ring : Nat) (c : RingCfg) : State :=
  s.noticeAll (s.ringsOf 4 (fun k => k.allJobs && k.ethernet == c.ethernet && (!c.ethernet || k.session == c.session)))
    4 ring ring

/-- SUBMIT_DROPPED notices of a session (R360, R371). -/
def State.noticeDropped (s : State) (ring session : Nat) : State :=
  s.noticeAll (s.ringsOf 4 (fun k => k.allJobs && k.ethernet && k.session == session)) 3 ring ring

/-- VERDICT_POST (R361): a verdict record goes to every enabled VERDICT ring that admits it. -/
def State.postVerdict (s : State) (job code : Nat) (record : List Byte) : State :=
  (s.ringsOf 3 (fun c => (c.allJobs || c.job == job) && (!c.rejectsOnly || code != 0))).foldl
    (fun s n => s.deliver n record) s

end Sys2Proof.Machine
end

