-- ==== Sys2Proof/Machine/Sync.lean ====
section
/-! DEFINITION. Machine/Sync.lean: the sync unit: semaphores, counters, barriers, position events, holds and BROKEN
(spec/15_partitions.md, R332-R346). Waits that complete are left in `sync.woken` for the agents to take up
(Teardown.lean). -/

namespace Sys2Proof.Machine

/-- Sync object `o` (R332). -/
def State.so (s : State) (o : Nat) : SyncObj := (keyGet s.sync.objs o).getD {}

/-- Replace sync object `o`. -/
def State.setSo (s : State) (o : Nat) (x : SyncObj) : State :=
  { s with sync := { s.sync with objs := keyPut s.sync.objs o x } }

/-- Wait statuses (R334). -/
inductive WaitStatus where
  | ok | broken | timeout | reset | badArg
  deriving DecidableEq, Repr

/-- Codes of the *Wait status* table. -/
def WaitStatus.code : WaitStatus → Nat
  | .ok => 0 | .broken => 1 | .timeout => 2 | .reset => 3 | .badArg => 4

/-- The value a WAIT reports (R334). -/
def SyncObj.report (x : SyncObj) : Nat :=
  match x.cfg.type with
  | 3 => u32 x.gen
  | _ => toU32 x.value

/-- A wait completes with a status and the object's value. An object with TYPE 0 has no value: the value reported there
is left open. -/
def State.wake (s : State) (a : Agent) (o : Nat) (st : WaitStatus) : State :=
  let x := s.so o
  let (v, s') := s.draw
  let s := if x.cfg.type = 0 then s' else s
  let w : Woken := ⟨a, o, st.code, if x.cfg.type = 0 then v.toNat % 4294967296 else x.report⟩
  { s with sync := { s.sync with woken := s.sync.woken ++ [w] } }

/-- Several waits complete with one status, in queue order. -/
def State.wakeAll (s : State) (ws : List Waiter) (o : Nat) (st : WaitStatus) : State :=
  ws.foldl (fun s w => s.wake w.agent o st) s

/-- A partition's context may use an object under R340. -/
def SyncObj.allowed (x : SyncObj) (part : Nat) : Bool :=
  x.cfg.owner == part || (x.cfg.cross && bit x.cfg.access part)

/-- The low half of a wait argument: the operand without TMO. -/
def waitLow (a : Nat) : Nat := a % 281474976710656

/-- A WAIT argument keeps R333 for the object's type. -/
def SyncObj.waitArgOk (x : SyncObj) (a : Nat) : Bool :=
  let l := waitLow a
  match x.cfg.type with
  | 1 => decide (1 ≤ l) && decide (l < 4294967296)
  | 2 => decide (l < 3 * 4294967296)
  | 3 => l == 0
  | 4 => decide (l < 4294967296)
  | _ => false

/-- A SIGNAL argument keeps R333 for the object's type; a position event takes none (R338). -/
def SyncObj.signalArgOk (x : SyncObj) (a : Nat) : Bool :=
  match x.cfg.type with
  | 1 => decide (1 ≤ a) && decide (a < 4294967296)
  | 2 => decide (a < 2 * 4294967296)
  | 3 => a == 0
  | _ => false

/-- The condition of a counter WAIT (R336). -/
def counterMet (value : Int) (a : Nat) : Bool :=
  let t := i32 (a % 4294967296)
  match waitLow a / 4294967296 with
  | 0 => decide (value ≥ t)
  | 1 => decide (value ≤ t)
  | _ => value == t

/-- A position event has passed TARGET (R338). -/
def firesPassed (fires : Int) (a : Nat) : Bool :=
  let d := toU32 (fires - (a % 4294967296 : Nat))
  decide (1 ≤ d) && decide (d ≤ 2147483647)

/-- The context whose holds an agent has: client requests of one ring share one. -/
def Agent.holder : Agent → Agent
  | .client r _ => .client r 0
  | a => a

/-- The hold entry of a context on an object. -/
def State.holdOf (s : State) (a : Agent) (o : Nat) : Option Hold :=
  s.sync.holds.find? (fun h => h.agent == a.holder && h.so == o)

/-- A grant of `n` units can be recorded: an entry exists or one of the 1,024 is free (R341). -/
def State.holdRoom (s : State) (a : Agent) (o : Nat) : Bool :=
  !(s.so o).cfg.holding || (s.holdOf a o).isSome || decide (s.sync.holds.length < 1024)

/-- Add `n` to a context's held count; its timer starts when the count rises from 0 (R341, R342). -/
def State.addHold (s : State) (a : Agent) (o n : Nat) : State :=
  if !(s.so o).cfg.holding then s
  else match s.holdOf a o with
    | some h => { s with sync := { s.sync with holds := s.sync.holds.map (fun x =>
        if x == h then { x with count := x.count + n } else x) } }
    | none => { s with sync := { s.sync with holds := s.sync.holds ++ [⟨a.holder, o, n, s.dtime⟩] } }

/-- Lower a context's held count by min(held, n); an entry that reaches 0 is removed (R341, R342). -/
def State.lowerHold (s : State) (a : Agent) (o n : Nat) : State :=
  match s.holdOf a o with
  | none => s
  | some h =>
    let c := h.count - n
    let hs := s.sync.holds.map (fun x => if x == h then { x with count := c } else x)
    { s with sync := { s.sync with holds := hs.filter (fun x => decide (x.count > 0)) } }

/-- A queue without some of its waiters: nothing else changes, and a head that they kept back goes on waiting (R334, R347). -/
def SyncObj.without (x : SyncObj) (p : Waiter → Bool) : SyncObj :=
  { x with waiters := x.waiters.filter (fun w => !p w), starved := x.starved && !x.waiters.head?.any p }

/-- The grants of a semaphore after a signal, head first, while the head's units are there (R335, R341). -/
def State.grant (s : State) (o : Nat) : List Waiter → State
  | [] => s.setSo o { s.so o with waiters := [], starved := false }
  | w :: ws =>
    let n := w.arg % 4294967296
    let x := s.so o
    if x.value ≥ n && s.holdRoom w.agent o then
      let s := (s.setSo o { x with value := x.value - n, waiters := ws }).addHold w.agent o n
      (s.wake w.agent o .ok).grant o ws
    else s.setSo o { x with waiters := w :: ws, starved := decide (x.value ≥ n) }

/-- The head waiter of a HOLDING semaphore, kept back for want of a hold entry, can be granted now (R341). -/
def State.grantable (s : State) (o : Nat) : Bool :=
  let x := s.so o
  x.cfg.type == 1 && x.cfg.holding && !x.broken && x.starved && (match x.waiters with
    | [] => false
    | w :: _ => decide (x.value ≥ (w.arg % 4294967296 : Nat)) && s.holdRoom w.agent o)

/-- Hold entries that came free let grants through that wanted one (R341), in ascending order of the objects. -/
def State.grantFreed (s : State) : State :=
  ((s.sync.objs.map (·.1)).filter s.grantable).foldl (fun (s : State) o =>
    if s.grantable o then s.grant o (s.so o).waiters else s) s

/-- Waiters of a counter or position event whose condition now holds complete in queue order (R336, R338). -/
def State.release (s : State) (o : Nat) (met : Waiter → Bool) : State :=
  let x := s.so o
  let s := s.setSo o { x with waiters := x.waiters.filter (fun w => !met w) }
  s.wakeAll (x.waiters.filter met) o .ok

/-- An arrival at a barrier (R337): when ARRIVED reaches PARTIES every waiter completes and GEN increments. -/
def State.arrive (s : State) (o : Nat) : State :=
  let x := s.so o
  let n := x.value + 1
  if n ≥ x.cfg.init % 65536 then
    let s := s.setSo o { x with value := 0, gen := u32 (x.gen + 1), waiters := [] }
    s.wakeAll x.waiters o .ok
  else s.setSo o { x with value := n }

/-- A signal whose argument breaks R333 is discarded and counted (R334). -/
def State.badSignal (s : State) : State := s.bump R.STG_SO_CNT_BADARG.N

/-- A SIGNAL that keeps R333, on an object that is not BROKEN (R335-R337). -/
def State.signalOk (s : State) (ag : Agent) (o a : Nat) : State :=
  let x := s.so o
  match x.cfg.type with
  | 1 =>
    let s := s.lowerHold ag o a
    let v := x.value + a
    let s := if v > 4294967295 then s.bump R.STG_SO_CNT_SAT.N else s
    (s.setSo o { x with value := if v > 4294967295 then 4294967295 else v }).grant o x.waiters
  | 2 =>
    let d := i32 (a % 4294967296)
    let v := if bit a 32 then d else sat64 (x.value + d)
    let s := if !bit a 32 && v != x.value + d then s.bump R.STG_SO_CNT_SAT.N else s
    (s.setSo o { x with value := v }).release o (fun w => counterMet v w.arg)
  | _ => s.arrive o

/-- SIGNAL on an object by an agent (R333-R337, R344). -/
def State.signal (s : State) (ag : Agent) (o a : Nat) : State :=
  let x := s.so o
  if !x.signalArgOk a then s.badSignal
  else if x.broken then s.bump R.STG_SO_CNT_BROKEN.N
  else s.signalOk ag o a

/-- The SIGNAL action of the position sequencer (R338): FIRES, LAST_WPOS, and the waits whose TARGET is passed. -/
def State.positionEvent (s : State) (o x : Nat) : State :=
  let y := s.so o
  if y.cfg.type ≠ 4 then s.badSignal
  else if y.broken then s.bump R.STG_SO_CNT_BROKEN.N
  else
    let f : Int := toU32 (y.value + 1)
    (s.setSo o { y with value := f, lastWpos := x }).release o (fun w => firesPassed f w.arg)

/-- Queue a waiter, with the deadline its TMO gives (R333). -/
def State.enqueue (s : State) (ag : Agent) (o a : Nat) : State :=
  let tmo := a / 281474976710656 % 65536
  let x := s.so o
  s.setSo o { x with waiters := x.waiters ++
    [⟨ag, a, if tmo = 0 then none else some (s.dtime + tmo * 10000)⟩] }

/-- A WAIT that keeps R333, on an object that is not BROKEN (R335-R338). -/
def State.waitOk (s : State) (ag : Agent) (o a : Nat) : State :=
  let x := s.so o
  match x.cfg.type with
  | 1 =>
    let n := a % 4294967296
    if x.waiters.isEmpty && decide (x.value ≥ n) && s.holdRoom ag o then
      ((s.setSo o { x with value := x.value - n }).addHold ag o n).wake ag o .ok
    else
      let t := s.enqueue ag o a
      t.setSo o { t.so o with starved := if x.waiters.isEmpty then decide (x.value ≥ n) else x.starved }
  | 2 => if counterMet x.value a then s.wake ag o .ok else s.enqueue ag o a
  | 3 => (s.enqueue ag o a).arrive o
  | _ => if firesPassed x.value a then s.wake ag o .ok else s.enqueue ag o a

/-- WAIT on an object by an agent (R333-R338, R344). -/
def State.wait (s : State) (ag : Agent) (o a : Nat) : State :=
  let x := s.so o
  if !x.waitArgOk a then s.wake ag o .badArg
  else if x.broken then s.wake ag o .broken
  else s.waitOk ag o a

/-- The place of an agent in the order of one cycle (R339); lists that a slice has put away issue nothing. -/
def Agent.rank : Agent → Nat
  | .sequencer => 0 | .linePipe => 1 | .inputPipe => 2 | .feature i => 3 + i | .firmware => 8
  | .core n => 16 + n | .saved i _ => 16 + i | .thread e c => 8192 + 4096 * e + c | .client r _ => 16384 + r

/-- A WAIT reaches the unit (R333, R339): one with a bad argument completes at once; another takes effect after the signals of its
cycle, when the tick ends. -/
def State.arriveWait (s : State) (ag : Agent) (o a : Nat) : State :=
  if !(s.so o).waitArgOk a then s.wait ag o a
  else { s with sync := { s.sync with arriving := s.sync.arriving ++ [(ag, o, a)] } }

/-- The waits of a cycle take effect, in the order of their agents (R339). -/
def State.takeWaits (s : State) : State :=
  let ws := sortBy (fun w => w.1.rank) s.sync.arriving
  ws.foldl (fun (s : State) w => s.wait w.1 w.2.1 w.2.2) { s with sync := { s.sync with arriving := [] } }

/-- SO_BROKEN (R344): waiters complete with BROKEN and hold entries of the object are removed. -/
def State.breakSo (s : State) (o : Nat) : State :=
  let x := s.so o
  if x.broken then s
  else
    let s := s.setSo o { x with broken := true, waiters := [], starved := false }
    let s := { s with sync := { s.sync with holds := s.sync.holds.filter (fun h => h.so != o) } }
    s.wakeAll x.waiters o .broken

/-- Remove an agent's waits (R347 step 2): a barrier wait breaks its barrier, any other changes nothing. -/
def State.removeWaits (s : State) (p : Agent → Bool) : State :=
  let os := (s.sync.objs.filter (fun e => e.2.waiters.any (fun w => p w.agent))).map (·.1)
  let s := { s with sync := { s.sync with arriving := s.sync.arriving.filter (fun w => !p w.1) } }
  os.foldl (fun s o =>
    let x := s.so o
    let s := s.setSo o (x.without (fun w => p w.agent))
    if x.cfg.type = 3 then s.breakSo o else s) s

/-- An agent's hold entries break their semaphores (R347 step 3). -/
def State.breakHolds (s : State) (p : Agent → Bool) : State :=
  ((s.sync.holds.filter (fun h => p h.agent)).map (·.so)).foldl (fun s o => s.breakSo o) s

/-- The waiter whose TMO has elapsed first in object `o` (R334). -/
def State.timedOut (s : State) (o : Nat) : Option Waiter :=
  (s.so o).waiters.find? (fun w => match w.deadline with
    | some t => decide (s.dtime ≥ t)
    | none => false)

/-- The initial state of an object under a configuration (R332, R345). -/
def SoCfg.fresh (c : SoCfg) : SyncObj :=
  { cfg := c
    value := match c.type with
      | 1 => c.init
      | 2 => i32 c.init
      | 4 => c.init
      | _ => 0 }

/-- RESTAGE (R345): waiters complete with RESET, holds go, and the object takes INIT. -/
def State.restage (s : State) (o : Nat) (c : SoCfg) : State :=
  let ws := (s.so o).waiters
  let s := { s with sync := { s.sync with holds := s.sync.holds.filter (fun h => h.so != o) } }
  (s.setSo o c.fresh).wakeAll ws o .reset

/-! ### The window (R379) -/

/-- A configuration as STG_SO_CFG shows it. -/
def SoCfg.word (c : SoCfg) : Nat :=
  c.type % 8 + c.owner % 8 * 8 + (if c.cross then 64 else 0) + (if c.holding then 128 else 0) + c.access % 256 * 256
    + c.holdUs % 65536 * 65536

/-- A configuration from a word of STG_SO_CFG and INIT. -/
def SoCfg.ofWord (w init : Nat) : SoCfg :=
  { type := w % 8, owner := w / 8 % 8, cross := bit w 6, holding := bit w 7, access := w / 256 % 256
    holdUs := w / 65536 % 65536, init := init }

/-- The state of an object as STG_SO_STATE shows it. -/
def State.soStateWord (s : State) (o : Nat) : Nat :=
  let x := s.so o
  (if x.broken then 1 else 0) + (s.sync.holds.filter (fun h => h.so == o)).length % 2048 * 2
    + satNat 16 x.waiters.length * 65536

/-- The value of an object as STG_SO_VAL shows it. -/
def SyncObj.shown (x : SyncObj) : Nat :=
  match x.cfg.type with
  | 2 => toU64 x.value
  | 3 => toU32 x.value % 65536 + u32 x.gen * 4294967296
  | 4 => toU32 x.value + u32 x.lastWpos * 4294967296
  | _ => toU32 x.value

end Sys2Proof.Machine
end

