-- ==== Sys2Proof/Machine/Parts.lean ====
section
/-! DEFINITION. Machine/Parts.lean: the part table, the sequencer's entries, the job of the real-time partition, and
the marks that later verdicts take from the parts (spec/03_position_sequencer.md, spec/18_verdicts_sheepdog.md). -/

namespace Sys2Proof.Machine

/-- Part-table entry `i` (R66). -/
def State.part (s : State) (i : Nat) : Part := (keyGet s.seq.parts i).getD {}

/-- Replace part-table entry `i`. -/
def State.setPart (s : State) (i : Nat) (p : Part) : State :=
  { s with seq := { s.seq with parts := keyPut s.seq.parts i p } }

/-- Indices of the entries that are not FREE, ascending. -/
def State.liveParts (s : State) : List Nat := (s.seq.parts.filter (fun e => e.2.core.state ≠ .free)).map (·.1)

/-- The OPEN part of a lane (R62). -/
def State.openOf (s : State) (m : Nat) : Option Nat :=
  s.liveParts.find? (fun i => (s.part i).core.state == .opened && (s.part i).core.lane == m)

/-- States before the DECISION (R66). -/
def PartState.undecided : PartState → Bool
  | .opened => true | .closed => true | _ => false

/-- Codes of part states (R66). -/
def PartState.code : PartState → Nat
  | .free => 0 | .opened => 1 | .closed => 2 | .decided => 3 | .armed => 4 | .done => 5

/-- A strip no longer names part-table entry `i`. -/
def Strip.forget (i : Nat) (x : Strip) : Strip :=
  { x with parts := x.parts.filter (· != i), part := if x.part = some i then none else x.part }

/-- A list context no longer names entry `i` by its strip. -/
def ListCtx.forget (i : Nat) (l : ListCtx) : ListCtx :=
  match l.kind with
  | .strip x => { l with kind := .strip (x.forget i) }
  | _ => l

/-- The part of a launch, where it is not that of entry `i`; else a place that no part has. -/
def forgetPart (i : Nat) (p : Option Nat) : Option Nat := if p = some i then some 4096 else p

/-- Part-table entry `i` goes to a new part: the strips, launches and threads of the part before it no longer name it (R348). -/
def State.forget (s : State) (i : Nat) : State :=
  let strips (xs : List Strip) : List Strip := xs.map (Strip.forget i)
  let open_ (o : OpenStrip) : OpenStrip := { o with parts := o.parts.filter (· != i), part := if o.part = some i then none else o.part }
  { s with
    flock := { s.flock with
      threads := s.flock.threads.map (fun e => (e.1, { e.2 with
        forPart := forgetPart i e.2.forPart, forStrip := e.2.forStrip.map (fun ps => ps.filter (· != i)) }))
      launches := s.flock.launches.map (fun l => { l with
        forPart := forgetPart i l.forPart, forStrip := l.forStrip.map (fun ps => ps.filter (· != i)) }) }
    cores := s.cores.map (fun c => { c with queue := strips c.queue })
    lists := s.lists.map (fun e => (e.1, e.2.forget i))
    jobs := s.jobs.map (fun e => (e.1, { e.2 with
      queues := e.2.queues.map (fun q => (q.1, strips q.2))
      saved := e.2.saved.map (fun x => (x.1, { x.2 with list := x.2.list.map (ListCtx.forget i) })) }))
    lp := { s.lp with streams := s.lp.streams.map (fun e => (e.1, { e.2 with cur := e.2.cur.map open_, prev := e.2.prev.map open_ })) } }

/-- Set a part's FLAGS bit (R66). -/
def Part.flag (p : Part) (k : Nat) : Part :=
  if bit p.core.flags k then p else { p with core := { p.core with flags := p.core.flags + 2 ^ k } }

/-- Mark parts that are not yet decided for REJECT_FAULT (R314, R348, R394). -/
def State.markFault (s : State) (is : List Nat) : State :=
  is.foldl (fun s i =>
    let p := s.part i
    if p.core.state.undecided then s.setPart i { p with vd := { p.vd with faultMark := true } } else s) s

/-- Mark a part incomplete (R112, R138). -/
def State.markIncomplete (s : State) (i : Nat) : State :=
  let p := s.part i
  if p.core.state.undecided then s.setPart i { p with vd := { p.vd with incomplete := true } } else s

/-- Sequencer entry `k`. -/
def State.entry (s : State) (k : Nat) : SeqEntry := (keyGet s.seq.entries k).getD {}

/-- Replace sequencer entry `k`. -/
def State.setEntry (s : State) (k : Nat) (e : SeqEntry) : State :=
  { s with seq := { s.seq with entries := keyPut s.seq.entries k e } }

/-- Remove sequencer entry `k`. -/
def State.delEntry (s : State) (k : Nat) : State :=
  { s with seq := { s.seq with entries := keyDel s.seq.entries k } }

/-! ### The commit tick (R58, R383) -/

/-- AT has been reached (R26, R383). -/
def State.atReached (s : State) (c : PendingCommit) : Bool :=
  (c.when_ == 1 && decide (s.pos.wpos ≥ c.at_)) || (c.when_ == 2 && decide (s.dtime ≥ c.at_))

/-- The commit whose tick this is (R383): a commit at WPOS waits while POS_LOST is 1. -/
def State.commitDue (s : State) : Option PendingCommit :=
  match s.stage.commit with
  | none => none
  | some c =>
    if s.flag R.STG_STATUS.PENDING && decide (c.since < s.dtime) && (c.when_ == 0 || s.atReached c)
        && !(c.when_ == 1 && s.flag R.POS_STATUS.POS_LOST) then some c
    else none

/-! ### Jobs and cores -/

/-- Partition number of the enabled real-time partition (R321, R322). -/
def State.rtPart (s : State) : Option Nat :=
  (List.range 8).find? (fun p => s.flag (R.STG_PTN_CFG.ENABLE p) && s.flag (R.STG_PTN_CFG.RT p))

/-- Job states (R323). -/
inductive JobState where
  | empty | loaded | running | preempted | stopped | faulted
  deriving DecidableEq, Repr

/-- Codes of the *Job states* table. -/
def JobState.code : JobState → Nat
  | .empty => 0 | .loaded => 1 | .running => 2 | .preempted => 3 | .stopped => 4 | .faulted => 5

/-- STG_JOBj_STATUS.STATE. -/
def State.jobState (s : State) (j : Nat) : Nat := s.get (R.STG_JOB_STATUS.STATE j)

/-- Set a job's state. -/
def State.setJobState (s : State) (j : Nat) (x : JobState) : State := s.put (R.STG_JOB_STATUS.STATE j) x.code

/-- Partition of a job. -/
def State.jobPart (s : State) (j : Nat) : Nat := s.get (R.STG_JOB_CFG.PART j)

/-- Job `j`. -/
def State.job (s : State) (j : Nat) : JobSt := (keyGet s.jobs j).getD {}

/-- Replace job `j`. -/
def State.setJob (s : State) (j : Nat) (x : JobSt) : State := { s with jobs := keyPut s.jobs j x }

/-- The running job of the real-time partition. -/
def State.rtJob (s : State) : Option Nat :=
  match s.rtPart with
  | none => none
  | some p => (List.range 64).find? (fun j => s.jobPart j == p && s.jobState j == 2)

/-- Core `n`. -/
def State.core (s : State) (n : Nat) : CoreSt := nth s.cores n {}

/-- Replace core `n`. -/
def State.setCore (s : State) (n : Nat) (c : CoreSt) : State := { s with cores := setNth s.cores n c }

/-- A core in service (R20, R166, R185). -/
def State.inService (s : State) (n : Nat) : Bool := bit (s.get R.GLB_CORE_MAP.IN_SERVICE) n

/-- List context `k`: a core's issuer, or 16 + part index. -/
def State.list (s : State) (k : Nat) : Option ListCtx := keyGet s.lists k

/-- Replace list context `k`. -/
def State.setList (s : State) (k : Nat) (l : ListCtx) : State := { s with lists := keyPut s.lists k l }

/-- End list context `k`. -/
def State.delList (s : State) (k : Nat) : State := { s with lists := keyDel s.lists k }

/-- The thread in a context of an engine. -/
def State.thread (s : State) (e c : Nat) : Option Thread := keyGet s.flock.threads (e * 4096 + c)

/-- Replace a thread. -/
def State.setThread (s : State) (e c : Nat) (t : Thread) : State :=
  { s with flock := { s.flock with threads := keyPut s.flock.threads (e * 4096 + c) t } }

/-! ### Larders (R171-R186) -/

/-- Base of core `n` among the Larder bytes. -/
def larderBase (n : Nat) : Nat := n * 2097152

/-- Bytes of a core's Larder. -/
def State.larderRead (s : State) (n a k : Nat) : List Byte := Memory.read s.larder (larderBase n + a % 2097152) k

/-- Write bytes to a core's Larder. -/
def State.larderWrite (s : State) (n a : Nat) (bs : List Byte) : State :=
  { s with
    larder := Memory.write s.larder (larderBase n + a % 2097152) bs
    cores := setNth s.cores n { s.core n with bad := (s.core n).bad.filter (fun b =>
      b.stuck || decide (b.word < a / 4) || decide (a + bs.length ≤ b.word * 4)) } }

/-- Zero a core's whole Larder: the fill of R181. -/
def State.larderZero (s : State) (n : Nat) : State :=
  { s with
    larder := s.larder.filter (fun c => decide (c.1 < larderBase n) || decide (larderBase (n + 1) ≤ c.1))
    cores := setNth s.cores n { s.core n with bad := (s.core n).bad.filter (·.stuck) } }

/-- A scrub (R181): recovery mode, every row zero; the mode returns to normal with LARDER_FILL_DONE. -/
def State.scrub (s : State) (n : Nat) : State := (s.larderZero n).put (R.CORE_LDR_STATUS.MODE n) 3

/-- The Larder of a core is in normal mode, so that commands may issue (R180). -/
def State.larderNormal (s : State) (n : Nat) : Bool := s.get (R.CORE_LDR_STATUS.MODE n) == 0

end Sys2Proof.Machine
end

