-- ==== Sys2Proof/Machine/Teardown.lean ====
section
/-! DEFINITION. Machine/Teardown.lean: fault teardown of threads, list contexts and jobs, and the agents' taking up of
completed waits (spec/15_partitions.md, R334, R342, R344, R347, R348; spec/08_larder.md, R185). -/

namespace Sys2Proof.Machine

/-- Job fault codes (R348). -/
inductive JobFault where
  | cmdRefused | maxdur | soAccess | soStatus | larder | holdExpired | parity | noMap | thread
  deriving DecidableEq, Repr

/-- Codes of the *Job fault codes* table. -/
def JobFault.code : JobFault → Nat
  | .cmdRefused => 1 | .maxdur => 2 | .soAccess => 3 | .soStatus => 4 | .larder => 5 | .holdExpired => 6
  | .parity => 7 | .noMap => 8 | .thread => 9

/-- Step 6 of R347: FAULT, a Loft record and the JOB_FAULT notice. -/
def State.recordFault (s : State) (j : Nat) (f : JobFault) (ctx : Nat) : State :=
  let s := s.put (R.STG_JOB_STATUS.FAULT j) f.code
  let s := s.loftEvent 0x0005 (leBytes 4 j ++ leBytes 4 (s.jobPart j) ++ leBytes 4 f.code ++ leBytes 4 ctx)
  s.noticeJobFault j f.code

/-- Waits and holds of the agents that meet `p` go (R347 steps 2 and 3). -/
def State.dropAgent (s : State) (p : Agent → Bool) : State := (s.removeWaits p).breakHolds p

/-- A job runs in the real-time partition. -/
def State.isRt (s : State) (j : Nat) : Bool := s.rtPart == some (s.jobPart j)

/-- The signal that a launch's completion object receives: N = 1 or DELTA = +1 (R346). -/
def State.launchDone (s : State) (o : Nat) : State := s.signal .firmware o 1

/-- A thread has ended, by EXIT or teardown: its launch counts it, and signals its object once all have (R211, R247). -/
def State.threadEnded (s : State) (launch : Nat) : State :=
  match s.flock.launches.find? (fun l => l.id == launch) with
  | none => s
  | some l =>
    let n := l.exited + 1
    if n ≥ l.total then
      ({ s with flock := { s.flock with launches := s.flock.launches.filter (fun x => x.id != launch) } }).launchDone l.so
    else { s with flock := { s.flock with launches := s.flock.launches.map (fun x =>
        if x.id == launch then { x with exited := n } else x) } }

/-- Free a thread's context. -/
def State.freeThread (s : State) (e c : Nat) : State :=
  { s with flock := { s.flock with threads := keyDel s.flock.threads (e * 4096 + c) } }

/-- The parts whose verdict depended on a torn-down thread of the real-time job (R348). -/
def State.threadParts (s : State) (t : Thread) : List Nat :=
  match t.forPart, t.forStrip with
  | some i, _ => [i]
  | none, some is => is
  | none, none => s.liveParts.filter (fun i => (s.part i).core.job == t.job)

/-- TEARDOWN of a thread (R347): the thread alone, in every partition. -/
def State.tearThread (s : State) (e c : Nat) (t : Thread) (f : JobFault) : State :=
  let s := s.dropAgent (fun (a : Agent) => a == Agent.thread e c)
  let s := (s.freeThread e c).threadEnded t.launch
  let s := s.recordFault t.job f (e * 4096 + c)
  if s.isRt t.job then s.markFault (s.threadParts t) else s

/-- Flock fault codes (R232). -/
inductive ThreadFault where
  | badOp | align | range | badSet | parity | badNd | badSo
  deriving DecidableEq, Repr

/-- Codes of the *Flock fault codes* table. -/
def ThreadFault.code : ThreadFault → Nat
  | .badOp => 1 | .align => 2 | .range => 3 | .badSet => 4 | .parity => 5 | .badNd => 6 | .badSo => 7

/-- A thread fault (R232): the engine's fault registers unless they hold one, the counter, and the teardown. -/
def State.threadFault (s : State) (e c : Nat) (t : Thread) (f : ThreadFault) (pc addr : Nat) : State :=
  let s := s.bump (R.FLK_ENG_CNT_FAULTS.N e)
  let s := if s.flag (R.FLK_ENG_STATUS.FAULT_HELD e) then s
    else
      let s := ((s.raise (R.FLK_ENG_STATUS.FAULT_HELD e)).put (R.FLK_ENG_FAULT.CODE e) f.code).put
        (R.FLK_ENG_FAULT.CONTEXT e) c
      (s.put64 (R.FLK_ENG_FAULT_PC.PC e) (R.FLK_ENG_FAULT_PC_HI.N e) pc).put64 (R.FLK_ENG_FAULT_ADDR_LO.N e)
        (R.FLK_ENG_FAULT_ADDR_HI.N e) addr
  s.tearThread e c t (if f = .parity then .parity else .thread)

/-- Firmware's DELTA -1 on the counters of strips that a torn-down core will not complete (R348). -/
def State.dropStrips (s : State) (ss : List Strip) : State :=
  ss.foldl (fun s x => s.signal .firmware x.so 4294967295) s

/-- The strips assigned to a core and not completed: the one its list runs, then its queue (R348). -/
def State.coreStrips (s : State) (n : Nat) : List Strip :=
  (match s.list n with
   | some l => (match l.kind with
     | .strip x => [x]
     | _ => [])
   | none => []) ++ (s.core n).queue

/-- The job that holds a core. -/
def State.coreJob (s : State) (n : Nat) : Option Nat :=
  (s.jobs.find? (fun e => e.2.bound.contains n && s.jobState e.1 == 2)).map (·.1)

/-- The job of a context that can hold units; a list context that has come to its END is still that of its core's job, or of
its part's. -/
def State.agentJob (s : State) : Agent → Option Nat
  | .core k => match s.list k with
    | some l => some l.job
    | none => if k < 16 then s.coreJob k else some (s.part (k - 16)).core.job
  | .thread e c => (s.thread e c).map (·.job)
  | .saved _ j => some j
  | _ => none

/-- A core loses its list context: strips, backlog, scrub (R347 steps 1 and 5, R348). -/
def State.clearCore (s : State) (n : Nat) (j : Nat) : State :=
  let ss := s.coreStrips n
  let s := if s.isRt j then s.markFault (ss.flatMap (·.parts)) else s
  let s := s.dropStrips ss
  let s := ((s.delList n).setCore n { s.core n with queue := [], beforeSetup := 0, vacc := [] }).put (R.CORE_ALLOC.BACKLOG n) 0
  (s.drop (R.CORE_STATUS.BUSY n)).scrub n

/-- The contexts of a job are released (R347 steps 1 to 5): its lists and threads, with their waits and holds, and the
cores that it holds. -/
def State.releaseJob (s : State) (j : Nat) : State :=
  let bound := if s.jobState j = 2 then (s.job j).bound else []
  let cores := (s.lists.filter (fun e => e.2.job == j)).map (·.1)
  let ths := s.flock.threads.filter (fun e => e.2.job == j)
  let s := s.dropAgent (fun a => s.agentJob a == some j)
  let s := { s with flock := { s.flock with threads := s.flock.threads.filter (fun e => e.2.job != j) } }
  let s := ths.foldl (fun s t => s.threadEnded t.2.launch) s
  let s := { s with flock := { s.flock with launches := s.flock.launches.filter (fun l => l.job != j) } }
  let s := (bound ++ cores.filter (fun n => decide (n < 16) && !bound.contains n)).foldl
    (fun s n => (s.clearCore n j).put (R.CORE_ALLOC.BOUND n) 0) s
  let s := cores.foldl (fun s n => s.delList n) s
  s.setJob j { s.job j with queues := [], ptrs := [], bound := [], saved := [], blockedSince := none }

/-- A job that held its partition's slice holds it no longer. -/
def State.leaveSlice (s : State) (j : Nat) : State :=
  let p := s.jobPart j
  if s.flag (R.STG_PTN_STATUS.VALID p) && s.get (R.STG_PTN_STATUS.JOB p) == j then
    let s := ((s.drop (R.STG_PTN_STATUS.VALID p)).drop (R.STG_PTN_STATUS.JOB p)).drop (R.STG_PTN_STATUS.DEFERRED p)
    { s with ptns := setNth s.ptns p { nth s.ptns p {} with endedAt := none, last := j } }
  else s

/-- TEARDOWN of a whole job (R347): every context of the job, its cores, its threads; state FAULTED. -/
def State.tearJob (s : State) (j : Nat) (f : JobFault) (ctx : Nat) : State :=
  let s := (s.releaseJob j).leaveSlice j
  let s := if s.isRt j then s.markFault (s.liveParts.filter (fun i => (s.part i).core.job == j)) else s
  (s.setJobState j .faulted).recordFault j f ctx

/-- TEARDOWN of a core's list context (R347): that context in the real-time partition, the whole job in a background
one. A torn-down core runs its setup list again and rejoins at the next part boundary. -/
def State.tearList (s : State) (k : Nat) (f : JobFault) : State :=
  match s.list k with
  | none => s
  | some l =>
    match l.kind with
    | .part i =>
      let s := ((s.dropAgent (fun (a : Agent) => a == Agent.core k)).delList k).markFault [i]
      s.recordFault l.job f k
    | _ =>
      if s.isRt l.job then
        let s := s.dropAgent (fun (a : Agent) => a == Agent.core k)
        let s := s.clearCore k l.job
        let s := s.setCore k { s.core k with setupDue := true, awayUntilPart := true }
        s.recordFault l.job f k
      else s.tearJob l.job f k

/-- TEARDOWN of a list context alone, in any partition, though its list has come to its END (R342, R347): the core runs its setup
list again, and in the real-time partition rejoins at the next part boundary (log entry 40). -/
def State.tearContext (s : State) (k j : Nat) (f : JobFault) : State :=
  let s := s.dropAgent (fun (a : Agent) => a == Agent.core k)
  if k < 16 then
    let s := s.clearCore k j
    (s.setCore k { s.core k with setupDue := true, awayUntilPart := s.isRt j }).recordFault j f k
  else ((s.delList k).markFault (if s.isRt j then [k - 16] else [])).recordFault j f k

/-- The same of a list context that waits for its job's slice. -/
def State.tearSaved (s : State) (i j : Nat) (f : JobFault) : State :=
  let s := s.dropAgent (fun (a : Agent) => a == Agent.saved i j)
  (s.setJob j { s.job j with saved := (s.job j).saved.map (fun e =>
    if e.1 == i then (e.1, { e.2 with list := none, live := none, setup := true }) else e) }).recordFault j f i

/-- The event of a Larder hard fault: core, word address, the aligned 16-word group and its parity bits as the memory
holds them (R471). Each word's parity bit is odd parity, false where the word's parity fails. -/
def State.larderEvent (s : State) (n word : Nat) : State :=
  let g := word / 16 * 16
  let ws := chunks 16 4 (s.larderRead n (g * 4) 64)
  let par := (List.range 16).foldl (fun a k =>
    let odd := popCount 32 (leVal (nth ws k [])) % 2 == 0
    let bad := (s.core n).bad.any (fun b => b.word == g + k)
    if xor odd bad then a + 2 ^ k else a) 0
  s.loftEvent 0x0004 (leBytes 4 n ++ leBytes 4 (word * 4) ++ ws.flatten ++ leBytes 2 par)

/-- A core leaves service until reset: its contexts are torn down, and a map switch is owed at the next part boundary (R185,
R255). -/
def State.coreOut (s : State) (n : Nat) : State :=
  let s := (s.drop (R.CORE_STATUS.IN_SERVICE n)).put R.GLB_CORE_MAP.IN_SERVICE
    (let m := s.get R.GLB_CORE_MAP.IN_SERVICE
     if bit m n then m - 2 ^ n else m)
  match s.coreJob n with
  | none => s
  | some j =>
    if s.isRt j then
      let s := s.dropAgent (fun (a : Agent) => a == Agent.core n)
      let s := (s.clearCore n j).recordFault j .larder n
      s.setJob j { s.job j with switchDue := true }
    else s.tearJob j .larder n

/-- A compute die is lost in service: its eight cores and its engine leave it, with the threads there (R16, R405; log entry 61). -/
def State.dieDown (s : State) (d : Nat) : State :=
  let s := ((List.range 8).map (fun k => 8 * d + k)).foldl (fun (s : State) n => if s.inService n then s.coreOut n else s) s
  let ths := s.flock.threads.filter (fun e => e.1 / 4096 == d)
  ths.foldl (fun (s : State) e => s.tearThread d (e.1 % 4096) e.2 .thread) (s.drop (R.FLK_ENG_STATUS.IN_SERVICE d))

/-- LARDER_HARD_FAULT (R185): the core leaves service until reset, its contexts are torn down, and a map switch is owed
at the next part boundary. -/
def State.larderHard (s : State) (n bank word : Nat) : State :=
  let s := if s.flag (R.CORE_LDR_STATUS.HARD n) then s
    else ((s.put (R.CORE_LDR_FAULT_ADDR.WORD n) word).raise (R.CORE_LDR_STATUS.HARD n)).put
      (R.CORE_LDR_STATUS.FAULT_BANK n) bank
  ((s.larderEvent n word).coreOut n).put (R.CORE_LDR_STATUS.MODE n) 3

/-- The completion status of a client's wait (R334, R373). -/
def waitStatusOf : Nat → Status
  | 0 => .ok | 1 => .soBroken | 2 => .soTimeout | 3 => .soReset | _ => .soBadArg

/-- An agent takes up its completed wait (R334). -/
def State.takeUp (s : State) (w : Woken) : State :=
  match w.agent with
  | .thread e c => match s.thread e c with
    | none => s
    | some t => match t.swait with
      | none => s
      | some rd =>
        let v := w.status + w.value * 4294967296
        s.setThread e c { t with
          g := if rd = 0 then t.g else setNth t.g rd v, swait := none, fence := true }
  | .core k => match s.list k with
    | none => s
    | some l =>
      if w.status = 0 then s.setList k { l with waiting := false, pc := l.pc + 32 }
      else s.tearList k .soStatus
  | .saved i j =>
    let jb := s.job j
    match keyGet jb.saved i with
    | none => s
    | some x =>
      if w.status = 0 then
        let l := x.list.map (fun l => { l with waiting := false, pc := l.pc + 32 })
        s.setJob j { jb with saved := keyPut jb.saved i { x with list := l } }
      else s.tearJob j .soStatus i
  | .client r i => match s.client.started.find? (fun d => d.ring == r && d.index == i) with
    | none => s
    | some d => s.complete d (waitStatusOf w.status) (if w.status = 0 then w.value * 4294967296 else 0)
  | .inputPipe =>
    let a := s.adp
    { s with adp := { a with waitingFree := false, freeTaken := a.freeTaken + (if w.status = 0 then 1 else 0) } }
  | _ => s

/-- Take up every completed wait, in order, with those that a teardown completes in its turn. -/
def State.settleN (s : State) : Nat → State
  | 0 => s
  | n + 1 => match s.sync.woken with
    | [] => s
    | w :: ws => ({ s with sync := { s.sync with woken := ws } }.takeUp w).settleN n

/-- A context of job `j` holds units of a HOLDING semaphore (R329). -/
def State.jobHolds (s : State) (j : Nat) : Bool := s.sync.holds.any (fun h => s.agentJob h.agent == some j)

/-- A deferred slice end takes effect once no context of the job holds units (R329). -/
def State.endDeferral (s : State) : State :=
  (List.range 8).foldl (fun (s : State) p =>
    if s.flag (R.STG_PTN_STATUS.DEFERRED p) && !s.jobHolds (s.get (R.STG_PTN_STATUS.JOB p)) then
      s.drop (R.STG_PTN_STATUS.DEFERRED p)
    else s) s

/-- A run of the input pipeline has begun, and goes on or has ended by itself (R293). -/
def State.inRun (s : State) : Bool := s.flag R.ADP_IN_STATUS.RUNNING || s.flag R.ADP_IN_STATUS.DONE

/-- The low-water alarm (R296): the ready count has once reached LOW_WATER in a run, and has fallen below it, though the run has been
stopped since. -/
def State.lowWater (s : State) : State :=
  let low := s.get R.ADP_IN_LOW.LOW_WATER
  let ready := (s.so (s.get R.ADP_IN_SO.READY)).value
  if low = 0 || !(s.inRun || s.adp.reachedLow) then s
  else if ready ≥ low then { s with adp := { s.adp with armedLow := true, reachedLow := true } }
  else if s.adp.armedLow then
    let s := { s with adp := { s.adp with armedLow := false } }
    let s := (s.latch R.ADP_IN_STATUS.LOW_WATER_SEEN).bump R.ADP_IN_CNT_LOW.N
    s.loftEvent 0x0009 (leBytes 4 (toU32 ready) ++ leBytes 4 (s.get R.ADP_IN_EPOCH_NOW.N) ++ leBytes 4 (s.get R.ADP_IN_POS_NOW.N))
  else s

/-- Take up completed waits; every agent waits at most once, so 16,384 rounds suffice. Hold entries that these free, or that the
operation before them freed, let further grants through (R341), and those are taken up too. -/
def State.settle (s : State) : State := ((s.settleN 16384).grantFreed.settleN 16384).endDeferral.lowWater

/-- The slice of a background job has ended and is not deferred, so its issuers are stopped (R327, R329). -/
def State.sliceOver (s : State) (j : Nat) : Bool :=
  let p := s.jobPart j
  (nth s.ptns p {}).endedAt.isSome && !s.flag (R.STG_PTN_STATUS.DEFERRED p)

/-- A hold entry whose timer has reached HOLD_US (R342). -/
def State.holdDue (s : State) : Option Hold :=
  s.sync.holds.find? (fun h => decide (s.dtime ≥ h.since + (s.so h.so).cfg.holdUs * 1000))

/-- A hold timer expiry (R342): the holding context alone is torn down (R347), and the semaphore enters BROKEN. -/
def State.holdExpire (s : State) (h : Hold) : State :=
  let s := s.breakSo h.so
  let s := match h.agent with
    | .thread e c => match s.thread e c with
      | some t => s.tearThread e c t .holdExpired
      | none => s
    | .core k => match s.agentJob (.core k) with
      | some j => s.tearContext k j .holdExpired
      | none => s
    | .saved i j => s.tearSaved i j .holdExpired
    | _ => s
  s.settle

/-- Hold timer expiries come before the signals and waits of their cycle (R339): at most `n` of them. -/
def State.expireDueN (s : State) : Nat → State
  | 0 => s
  | n + 1 => match s.holdDue with
    | none => s
    | some h => (s.holdExpire h).expireDueN n

/-- Every hold timer that has run out expires; there are at most 1,024 entries (R341). -/
def State.expireDue (s : State) : State := s.expireDueN 1024

/-- HOLD_EXPIRE (R342): the first hold entry whose timer has run out. -/
def execHoldExpire (s : State) : Host.Outcome State Fault Refusal :=
  .next (match s.holdDue with
    | none => s
    | some h => s.holdExpire h)

/-- WAIT_TIMEOUT (R334): a wait on object `so` whose TMO has elapsed completes with TIMEOUT; nothing else changes. -/
def execWaitTimeout (so : Fin 16384) (s : State) : Host.Outcome State Fault Refusal :=
  .next (match s.timedOut so.val with
    | none => s
    | some w =>
      let x := s.so so.val
      ((s.setSo so.val (x.without (· == w))).wake w.agent so.val .timeout).settle)

end Sys2Proof.Machine
end

