-- ==== Sys2Proof/Machine/Alloc.lean ====
section
/-! DEFINITION. Machine/Alloc.lean: core maps, the binding of logical cores, the strip allocator and map switches
(spec/11_program_images.md, R240, R253-R256). -/

namespace Sys2Proof.Machine

/-- Bytes of module memory as they stand. What firmware and the issuers fetch is read with its parity beside this (R310, log
entry 20). -/
def State.modBytes (s : State) (a n : Nat) : List Byte :=
  (List.range n).map (fun k => match s.resolve .firmware (a + k) with
    | some h => Memory.byte s.mem (s.phys h)
    | none => 0)

/-! ### Core maps (R253) -/

/-- A core map read from the MAPS section. -/
structure CoreMap where
  ncores : Nat
  setup : List Nat
  partList : Nat
  /-- Strip classes: camera, stream, core list, entries. -/
  classes : List (Nat × Nat × List Nat × List Nat)
  deriving DecidableEq, Repr

/-- A class record (R253). -/
def classOf (r : List Byte) : Nat × Nat × List Nat × List Nat :=
  let n := fieldAt r 2 1
  (fieldAt r 0 1, fieldAt r 1 1, (List.range n).map (fun i => fieldAt r (4 + i) 1),
    (List.range n).map (fun i => fieldAt r (20 + 4 * i) 4))

/-- The map at module address `a`, with its length. -/
def State.mapAt (s : State) (a : Nat) : CoreMap × Nat :=
  let h := s.modBytes a 80
  let nc := fieldAt h 1 1
  ({ ncores := fieldAt h 0 1
     setup := (List.range 16).map (fun i => fieldAt h (8 + 4 * i) 4)
     partList := fieldAt h 72 8
     classes := (List.range nc).map (fun k => classOf (s.modBytes (a + 80 + 96 * k) 96)) }, 80 + 96 * nc)

/-- `n` maps from address `a`. -/
def State.mapsFrom (s : State) : Nat → Nat → List CoreMap
  | _, 0 => []
  | a, n + 1 => let (m, k) := s.mapAt a
    m :: s.mapsFrom (a + k) n

/-- The core maps of an image, the primary first. -/
def State.maps (s : State) (i : ImageRef) : List CoreMap := s.mapsFrom (i.base + i.mapSec.1) i.maps

/-- Cores in service in a partition, ascending (R254). -/
def State.ptnCores (s : State) (p : Nat) : List Nat :=
  (setBits 16 (s.get (R.STG_PTN_CORES.CORES p))).filter (fun n => s.inService n)

/-- The first map whose NCORES does not exceed `n`, with its number (R254). -/
def firstFit (ms : List CoreMap) (n : Nat) : Option (Nat × CoreMap) :=
  ((List.range ms.length).zip ms).find? (fun m => decide (m.2.ncores ≤ n))

/-- Pairs that a commit replaced and that parts opened under them and not yet decided keep in service (R240). -/
def State.oldPairs (s : State) (j : Nat) : List Pair :=
  (s.job j).old.filter (fun p => s.seq.parts.any (fun e => e.2.core.state.undecided && e.2.core.job == j
    && e.2.vd.imageDigest == p.image.digest && e.2.vd.weightDigest == p.weights.digest))

/-- Pairs that a job runs, oldest first, the one in force last. -/
def State.pairsOf (s : State) (j : Nat) : List Pair := s.oldPairs j ++ (s.job j).pair.toList

/-- The map under which a job runs a pair. -/
def State.mapOf (s : State) (j : Nat) (p : Pair) : Option CoreMap :=
  let jb := s.job j
  (s.maps p.image)[if jb.pair == some p then jb.map else (keyGet jb.oldMaps p.gen).getD 0]?

/-- The map in force for a job. -/
def State.jobMap (s : State) (j : Nat) : Option CoreMap :=
  match (s.job j).pair with
  | none => none
  | some p => s.mapOf j p

/-- Number of the strip class of a camera and stream under a map. -/
def CoreMap.classFor (m : CoreMap) (cam str : Nat) : Option Nat :=
  (List.range m.classes.length).find? (fun k => match m.classes[k]? with
    | some c => c.1 == cam && c.2.1 == str
    | none => false)

/-! ### Binding (R254, R259) -/

/-- The registers that show a core's binding. -/
def State.showBinding (s : State) (cores : List Nat) : State :=
  ((List.range cores.length).zip cores).foldl (fun (s : State) (x : Nat × Nat) =>
    (s.put (R.CORE_ALLOC.LOGICAL x.2) x.1).raise (R.CORE_ALLOC.BOUND x.2)) s

/-- Bind a job's logical cores under map `k` of its image (R254), and the first map of each older pair that fits: each core
bound owes its setup list (R255). -/
def State.bindMap (s : State) (j k : Nat) (m : CoreMap) : State :=
  let old := (s.job j).bound
  let all := s.ptnCores (s.jobPart j)
  let olds := (s.oldPairs j).map (fun p => (p.gen, (firstFit (s.maps p.image) all.length).getD (0, m)))
  let cores := all.take ((olds.map (fun e => e.2.2.ncores)).foldl Nat.max m.ncores)
  let s := old.foldl (fun (s : State) n => (s.drop (R.CORE_ALLOC.BOUND n)).drop (R.CORE_ALLOC.LOGICAL n)) s
  let s := s.showBinding cores
  let s := cores.foldl (fun (s : State) n =>
    s.setCore n { s.core n with
      setupDue := true, beforeSetup := (s.core n).queue.length, awayUntilPart := false }) s
  s.setJob j { s.job j with
    bound := cores, map := k, oldMaps := olds.map (fun e => (e.1, e.2.1)), switchDue := false }

/-! ### Lists of a core -/

/-- The setup list of logical core `lg`: that of the map in force, or of an older pair's map that has so many cores (R240, R254). -/
def State.setupOf (s : State) (j lg : Nat) : Option (Pair × Nat) :=
  (s.pairsOf j).reverse.findSome? (fun p => (s.mapOf j p).bind (fun m =>
    if lg < m.ncores then some (p, nth m.setup lg 0) else none))

/-- Start the next list of an idle core: its setup list, else the strip at the head of its queue (R254, R256). -/
def State.coreNext (s : State) (j n : Nat) : State :=
  match s.list n, s.setupOf j (s.get (R.CORE_ALLOC.LOGICAL n)) with
  | none, some (p, pc) =>
    let c := s.core n
    if c.awayUntilPart || !s.inService n || s.jobState j != 2 then s
    else if c.setupDue && c.beforeSetup == 0 then
      let s := if c.clearDue then s.larderZero n else s
      (s.setCore n { s.core n with setupDue := false, clearDue := false }).setList n
        { job := j, pair := p, kind := .setup, pc := pc }
    else match c.queue with
      | [] => s
      | x :: xs =>
        (s.setCore n { c with queue := xs, beforeSetup := c.beforeSetup - 1 }).setList n
          { job := j, pair := x.pair, kind := .strip x, pc := x.entry }
  | _, _ => s

/-! ### The allocator (R256) -/

/-- Backlog of a physical core. -/
def State.backlog (s : State) (n : Nat) : Nat := s.get (R.CORE_ALLOC.BACKLOG n)

/-- The physical core of logical core `c`. -/
def State.physOf (s : State) (j c : Nat) : Option Nat := (s.job j).bound[c]?

/-- A core that may be given a strip: bound, in service, not waiting to rejoin, backlog within the lag limit. -/
def State.takesStrip (s : State) (lag : Nat) (n : Nat) : Bool :=
  s.inService n && !(s.core n).awayUntilPart && decide (s.backlog n ≤ lag)

/-- Try the cores of a class for one strip from position `p + k` on: the position that took it and its core, and the skips
counted. -/
def State.tryCores (s : State) (j lag p : Nat) (cores : List Nat) : Nat → Nat → Option (Nat × Nat) × State
  | _, 0 => (none, s)
  | k, f + 1 =>
    let i := (p + k) % cores.length
    match s.physOf j (nth cores i 0) with
    | none => s.tryCores j lag p cores (k + 1) f
    | some n =>
      if s.takesStrip lag n then (some (i, n), s)
      else
        let s := if s.backlog n > lag then s.bump (R.CORE_ALLOC_SKIP.COUNT n) else s
        s.tryCores j lag p cores (k + 1) f

/-- One class of the allocator's loop (R256): at most `f` strips. -/
def State.allocClass (s : State) (j lag q : Nat) (cores entries : List Nat) : Nat → State
  | 0 => s
  | f + 1 =>
    let jb := s.job j
    match keyGet jb.queues q with
    | none => s
    | some [] => s
    | some (x :: xs) =>
      let p := (keyGet jb.ptrs q).getD 0
      match s.tryCores j lag p cores 0 cores.length with
      | (some (i, n), s) =>
        let s := s.setJob j { s.job j with
          queues := keyPut (s.job j).queues q xs, ptrs := keyPut (s.job j).ptrs q ((i + 1) % cores.length) }
        let x := { x with entry := nth entries i 0 }
        let s := s.setCore n { s.core n with queue := (s.core n).queue ++ [x] }
        let s := (s.put (R.CORE_ALLOC.BACKLOG n) (s.backlog n + 1)).coreNext j n
        s.allocClass j lag q cores entries f
      | (none, s) =>
        match s.physOf j (nth cores (p % cores.length) 0) with
        | some n => s.bump (R.CORE_ALLOC_WAIT.COUNT n)
        | none => s

/-- The allocator's loop for class `k` of a pair's map (R256). -/
def State.allocFor (s : State) (j : Nat) (p : Pair) (m : CoreMap) (k : Nat) : State :=
  match m.classes[k]? with
  | none => s
  | some x =>
    let q := p.gen * 256 + k
    let n := match keyGet (s.job j).queues q with
      | some l => l.length
      | none => 0
    if x.2.2.1.isEmpty then s else s.allocClass j p.image.lag q x.2.2.1 x.2.2.2 (n + 1)

/-- STRIP_ALLOCATE after an END (R256): classes in ascending order, those of older pairs first (R240). -/
def State.allocate (s : State) (j : Nat) : State :=
  (s.pairsOf j).foldl (fun (s : State) p => match s.mapOf j p with
    | none => s
    | some m => (List.range m.classes.length).foldl (fun (s : State) k => s.allocFor j p m k) s) s

/-- The pair under which a part runs (R240), by the digests it opened with. -/
def State.pairOf (s : State) (j : Nat) (v : PartVerdict) : Option Pair :=
  ((s.job j).pair.toList ++ s.oldPairs j).find? (fun p =>
    p.image.digest == v.imageDigest && p.weights.digest == v.weightDigest)

/-- The pairs under which a strip with rows of the given parts runs: each pair of its parts, or the one in force. -/
def State.stripPairs (s : State) (j : Nat) (parts : List Nat) : List Pair :=
  let ps := (parts.filterMap (fun i => s.pairOf j (s.part i).vd)).dedup
  if ps.isEmpty then (s.job j).pair.toList else ps

/-- A strip has been posted: the loop for its class runs (R256). -/
def State.allocPosted (s : State) (j : Nat) (x : Strip) : State :=
  match s.mapOf j x.pair with
  | none => s
  | some m => match m.classFor x.camera x.stream with
    | none => s
    | some k => s.allocFor j x.pair m k

/-- Put a strip at the end of the queue of its camera and stream under its pair's map. -/
def State.enqueueStrip (s : State) (j : Nat) (x : Strip) : State :=
  match (s.mapOf j x.pair).bind (fun m => m.classFor x.camera x.stream) with
  | none => s
  | some q =>
    let k := x.pair.gen * 256 + q
    s.setJob j { s.job j with queues := keyPut (s.job j).queues k (((keyGet (s.job j).queues k).getD []) ++ [{ x with cls := q }]) }

/-- STRIP_POST to the allocator of the real-time job (R133, R256), once under each pair (R240). -/
def State.postStrip (s : State) (parts : List Nat) (strip : Pair → Strip) : State :=
  match s.rtJob with
  | none => s
  | some j =>
    let mine (p : Pair) (i : Nat) : Bool := s.pairOf j (s.part i).vd == some p || s.pairOf j (s.part i).vd == none
    let xs := (s.stripPairs j parts).map (fun p => { strip p with parts := parts.filter (mine p) })
    xs.foldl (fun (s : State) x => (s.enqueueStrip j x).allocPosted j x) s

/-! ### Map switch (R255) -/

/-- Strips queued and not assigned are queued under the class of their camera and stream in the new map. -/
def State.requeue (s : State) (j : Nat) : State :=
  let xs := (s.job j).queues.flatMap (·.2)
  xs.foldl (fun (s : State) x => s.enqueueStrip j x) (s.setJob j { s.job j with queues := [] })

/-- A job without a fitting map faults (R254); in the real-time partition line stop is requested (R255). -/
def State.noMap (s : State) (j : Nat) : State :=
  let rt := s.isRt j
  let s := s.tearJob j .noMap 0
  if rt then s.lineStop .job else s

/-- Work under the first map of an image that fits the job's cores in service (R254), once firmware has read the maps with their
parity (R310); a hard fault there faults the job (R314, log entry 20). -/
def State.underMap (s : State) (j : Nat) (i : ImageRef) (f : State → Nat → CoreMap → State) : State :=
  match s.load .firmware (i.base + i.mapSec.1) i.mapSec.2 with
  | (.ok, _, s) => (match firstFit (s.maps i) (s.ptnCores (s.jobPart j)).length with
    | none => s.noMap j
    | some (k, m) => f s k m)
  | (_, _, s) => s.tearJob j .parity 0

/-- At a map switch every class begins at the head of its core list (R256), and no core keeps Larder data of its old
binding (R255). -/
def State.freshMap (s : State) (j : Nat) : State :=
  let s := s.setJob j { s.job j with ptrs := [] }
  (s.job j).bound.foldl (fun (s : State) n => s.setCore n { s.core n with clearDue := true }) s

/-- MAP_SWITCH (R255) at a part boundary: the first map that fits the cores in service. -/
def State.mapSwitch (s : State) (j : Nat) : State :=
  if !(s.job j).switchDue then s
  else match (s.job j).pair with
    | none => s
    | some p => s.underMap j p.image (fun s k m =>
        let s := ((s.bindMap j k m).freshMap j).requeue j
        (s.job j).bound.foldl (fun (s : State) n => s.coreNext j n) s)

/-- Idle cores that owe a setup list after the teardown of their context alone start it (R342, R347; log entry 40). -/
def State.setupStep (s : State) : State :=
  ((List.range 16).filter (fun n => (s.core n).setupDue && (s.list n).isNone)).foldl (fun (s : State) n => match s.coreJob n with
    | some j => s.coreNext j n
    | none => s) s

/-- A part boundary of the job: a map switch that is owed, and cores that rejoin after a teardown (R255, R347). -/
def State.partBoundary (s : State) (j : Nat) : State :=
  let s := s.mapSwitch j
  (s.job j).bound.foldl (fun (s : State) n =>
    if (s.core n).awayUntilPart then (s.setCore n { s.core n with awayUntilPart := false }).coreNext j n else s) s

end Sys2Proof.Machine
end

