-- ==== Sys2Proof/Machine/Verdict.lean ====
section
/-! DEFINITION. Machine/Verdict.lean: result blocks, the combination, the age monitor, the disagreement window, the
verdict record and the capture of good repeats (spec/18_verdicts_sheepdog.md, R387-R399; spec/13_adaptation.md,
R281-R284). -/

namespace Sys2Proof.Machine

/-- `n` bytes that the spec leaves open. -/
def State.freeBytes (s : State) : Nat → List Byte × State
  | 0 => ([], s)
  | n + 1 => let (v, s) := s.draw
    let (r, s) := s.freeBytes n
    (BitVec.ofNat 8 v.toNat :: r, s)

/-! ### The verdict record (R397) -/

/-- Sheepdog was on for the part's lane on its PART_OPEN tick (R389, R393). -/
def Part.sdgOn (p : Part) : Bool := bit p.vd.sdgCfg 0

/-- A field of the program result for the record: 0 from an absent or malformed one, all ones for PROG, CODE_STATUS,
OUTCOME and GRADE (R397). -/
def Part.prog (p : Part) (i n : Nat) (absent : Nat) : List Byte :=
  match p.vd.result with
  | some r => if p.vd.badResult then leBytes n absent else sliceBytes r i n
  | none => leBytes n absent

/-- SLACK_US: from the combination to the DECISION tick, 0 if not present (R397). -/
def Part.slack (p : Part) : Nat :=
  match p.vd.combined with
  | some t => if p.core.decDtime = 0 then 0 else u32 (u64 (p.core.decDtime + 18446744073709551616 - t) / 1000)
  | none => 0

/-- FLAGS of the record (R397). -/
def State.recordFlags (s : State) (p : Part) : Nat :=
  let f (b : Bool) (k : Nat) : Nat := if b then 2 ^ k else 0
  p.core.flags % 64 + f p.vd.disagree 6 + f (!p.sdgOn) 7 + f p.core.arms 8 + f p.vd.acOk 9 + f p.vd.acFail 10
    + f p.vd.badResult 11 + f ((s.job p.core.job).map != 0) 12 + f (p.vd.proof != 0) 13

/-- SDG of the record: 0 PASS, 1 REJECT, 0xFE not checked, 0xFF absent or withheld by HIDE_SDG (R397, R404). -/
def Part.sdgCode (p : Part) : Nat :=
  if !p.sdgOn then 0xFE
  else if p.vd.proof = 3 then 0xFF
  else match p.vd.sdg with
    | .absent => 0xFF
    | .pass => 0
    | .reject => 1

/-- The verdict digest (R239). A part without an input digest, or opened with no image in force, has none that the spec
states: its bytes are free. -/
def State.verdictDigest (s : State) (p : Part) : List Byte × State :=
  match p.vd.digest, p.vd.imageDigest with
  | some d, _ :: _ => (sha256 (p.vd.imageDigest ++ p.vd.weightDigest ++ d), s)
  | _, _ => s.freeBytes 32

/-- The 128-byte verdict record (R397). -/
def State.record (s : State) (p : Part) (code : Nat) : List Byte × State :=
  let (dg, s) := s.verdictDigest p
  let c := p.core
  (leBytes 4 c.id ++ leBytes 1 code ++ leBytes 1 c.lane ++ leBytes 1 c.job ++ p.prog 4 1 0xFF
    ++ leBytes 8 c.origin ++ leBytes 8 c.decDtime ++ leBytes 2 (s.recordFlags p) ++ leBytes 1 p.sdgCode
    ++ p.prog 6 1 0xFF ++ leBytes 4 p.slack ++ p.prog 12 4 0
    ++ leBytes 4 (if p.sdgOn && p.vd.sdg != .absent && p.vd.proof != 3 then p.vd.sdgScore else 0)
    ++ p.prog 16 4 0 ++ p.prog 20 4 0 ++ p.prog 24 4 0 ++ leBytes 4 (toU32 c.residual) ++ leBytes 8 c.onDtime ++ dg
    ++ p.prog 28 8 0 ++ p.prog 7 1 0xFF ++ p.prog 8 1 0xFF ++ p.prog 9 1 0 ++ p.prog 10 1 0 ++ p.prog 36 20 0, s)

/-- Remove a part's DECISION or EJECT_PASS entry, where it still stands. -/
def State.dropPartEntry (s : State) (i k action : Nat) : State :=
  match keyGet s.seq.entries k with
  | some e => if e.action == action && e.param == i then s.delEntry k else s
  | none => s

/-- Free a part-table entry (R66): it keeps what it shows, with STATE FREE. A candidate that ends without a DECISION is not
kept (R283). -/
def State.freePart (s : State) (i : Nat) : State :=
  let p := s.part i
  let s := if p.vd.capture.isSome then s.bump R.ADP_CAP_DROPPED.N else s
  let s := (s.dropPartEntry i p.core.decIdx 6).dropPartEntry i p.core.ejectIdx 7
  { s with
    seq := { s.seq with parts := keyPut s.seq.parts i { core := { p.core with state := .free } } }
    sdg := { s.sdg with queue := s.sdg.queue.filter (· != i) } }

/-- A part becomes DONE: its record is posted and its entry freed (R67, R74, R75, R80). -/
def State.finish (s : State) (i : Nat) : State :=
  let p := s.part i
  let code := p.core.verdict.getD 7
  let (r, s) := s.record p code
  let s := (s.postVerdict p.core.job code r).loftValue 0 code p.core.id
  s.freePart i

/-! ### Results (R387, R388, R393) -/

/-- A program result is malformed (R388). -/
def malformed (r : List Byte) (id : Nat) : Bool :=
  let f (i n : Nat) : Nat := fieldAt r i n
  f 0 4 != id || decide (f 4 1 > 4) || decide (f 5 1 > 1) || (f 5 1 == 1 && f 4 1 == 0) || decide (f 9 1 > 2)
    || decide (f 10 1 > 20) || f 11 1 != 0 || f 56 8 != 0

/-- COMBINATION (R393): on the tick on which the later of the two results becomes available, unless a proof mode of R404
withholds one or LOCKSTEP is set (R392). -/
def State.combine (s : State) (i : Nat) : State :=
  let p := s.part i
  let sdgReady := !p.sdgOn || (p.vd.sdg != .absent && p.vd.proof != 3)
  let hidden := p.vd.proof == 1
  if p.vd.combined.isNone && p.vd.result.isSome && sdgReady && !hidden && !s.flag R.SDG_STATUS.LOCKSTEP
      && p.core.state.undecided then
    s.setPart i { p with vd := { p.vd with combined := some s.dtime } }
  else s

/-- LATE_RESULT (R388): a result for a decided part or a FREE entry. -/
def State.lateResult (s : State) (i : Nat) : State :=
  let s := match keyGet s.seq.parts i with
    | some p => if p.core.state = PartState.free then s else s.setPart i (p.flag 4)
    | none => s
  s.bump R.SDG_CNT_LATE_RESULT.N

/-- The snapshot of a result block that a RESULT record delivers (R388). -/
def State.takeResult (s : State) (i : Nat) (r : List Byte) : State :=
  let p := s.part i
  if !p.core.state.undecided then s.lateResult i
  else if p.vd.result.isSome then s.bump R.SDG_CNT_DUP_RESULT.N
  else
    let bad := malformed r p.core.id
    let s := if bad then s.bump R.SDG_CNT_BAD_RESULT.N else s
    (s.setPart i { p with vd := { p.vd with result := some r, badResult := bad, resultTime := s.dtime } }).combine i

/-! ### Disagreement window (R398, R399) -/

/-- DISAGREEMENT_WINDOW (R398): one part enters the window; the alarm at the K-th disagreement. -/
def State.disagreeWindow (s : State) (b : Bool) : State :=
  let n := s.get R.SDG_WIN.N
  let w := s.sdg.win ++ [b]
  let w := w.drop (w.length - n)
  let s := { s with sdg := { s.sdg with win := w } }
  if (w.filter id).length ≥ s.get R.SDG_WIN.K then
    if s.flag R.SDG_STATUS.ALARM then s
    else ((s.latch R.SDG_STATUS.ALARM).bump R.SDG_CNT_ALARM.N).lineStop .sheepdog
  else s

/-! ### Capture (R281-R283) -/

/-- Capture registers: lane mask bit, slot size in bytes, plane count, sample bytes of a camera's captured stream. -/
def State.capNamed (s : State) (m : Nat) : Bool := bit (s.get64 R.ADP_CAP_LANES_LO.N R.ADP_CAP_LANES_HI.N) m
def State.capLane (s : State) (m : Nat) : Bool := s.capNamed m && s.flag R.ADP_CAP_CFG.ENABLE
def State.capSlotAddr (s : State) (k : Nat) : Nat :=
  s.get64 R.ADP_CAP_AREA_LO.N R.ADP_CAP_AREA_HI.N + k * s.get R.ADP_CAP_GEOM.PAGES * 65536
def State.capPlanes (s : State) (cam : Nat) : List Nat :=
  setBits 6 (s.get (R.LPIPE_STR_CFG.PLANES cam (s.get R.ADP_CAP_CFG.STREAM)))
def State.capSbytes (s : State) (cam : Nat) : Nat := s.get (R.LPIPE_STR_CFG.DEPTH_OUT cam (s.get R.ADP_CAP_CFG.STREAM)) + 1

/-- Camera, first and last column of a PSQ_LANEm_COLS value. -/
def colsCamera (w : Nat) : Nat := bits w 29 26
def colsFirst (w : Nat) : Nat := bits w 12 0
def colsLast (w : Nat) : Nat := bits w 25 13

/-- Bytes of one plane row of a capture slot: ceil(W / TW) * 512. -/
def State.capRowBytes (s : State) (cols : Nat) : Nat :=
  ceilDiv (colsLast cols + 1 - colsFirst cols) (512 / s.capSbytes (colsCamera cols)) * 512

/-- The slot that a candidate holds. -/
def CapRun.holds (r : CapRun) : Option Nat := if r.freed then none else some r.slot

/-- A part opened under the job, image and weight set that capture was armed under (R281). -/
def State.capMine (s : State) (p : Part) : Bool :=
  s.adp.capPair == some (p.core.job, p.vd.imageDigest, p.vd.weightDigest)

/-- CAPTURE_SLOT_TAKE (R281, R282): a part opening in a captured lane takes the lowest free slot. -/
def State.captureTake (s : State) (i : Nat) : State :=
  let p := s.part i
  if !s.capLane p.core.lane || s.get R.ADP_CAP_STATUS.STATE != 1 || !s.capMine p then s
  else
    let used := s.adp.kept ++ s.seq.parts.filterMap (fun e => e.2.vd.capture.bind (·.holds))
    match (List.range (s.get R.ADP_CAP_GEOM.SLOTS)).find? (fun k => !used.contains k) with
    | none => s.bump R.ADP_CAP_NOSLOT.N
    | some k =>
      let r : CapRun := { slot := k, id := p.core.id, lane := p.core.lane, cols := p.vd.cols }
      (s.setPart i { p with vd := { p.vd with capture := some r } }).bump R.ADP_CAP_CAND.N

/-- The sample descriptor of a kept part (R283, R287). -/
def sampleDescriptor (src bytes : Nat) : List Byte :=
  leBytes 8 src ++ leBytes 4 bytes ++ List.replicate 20 0

/-- CAPTURE_KEEP (R283): at its DECISION a candidate is kept or its slot freed. -/
def State.captureKeep (s : State) (i : Nat) (code : Nat) : State :=
  let p := s.part i
  match p.vd.capture with
  | none => s
  | some r =>
    let s := s.setPart i { p with vd := { p.vd with capture := none } }
    let n := p.vd.gates.length
    if !r.dead && code == 0 && s.get R.ADP_CAP_STATUS.STATE == 1 && decide (n ≤ s.get R.ADP_CAP_ROWS.ROWS_MAX) then
      let kept := s.get R.ADP_CAP_STATUS.KEPT
      let bytes := 64 + (s.capPlanes (colsCamera r.cols)).length * n * s.capRowBytes r.cols
      let s := (s.store .linePipe (s.get64 R.ADP_CAP_LIST_LO.N R.ADP_CAP_LIST_HI.N + kept * 32)
        (sampleDescriptor (s.capSlotAddr r.slot) bytes)).2
      let s := { s with adp := { s.adp with
        kept := s.adp.kept ++ [r.slot]
        capLeft := if r.done then s.adp.capLeft else s.adp.capLeft ++ [r] } }
      let s := (s.put R.ADP_CAP_STATUS.KEPT (kept + 1)).signal .linePipe (s.get R.ADP_CAP_SO.SO) 1
      if kept + 1 ≥ s.get R.ADP_CAP_N.N then
        let s := s.put R.ADP_CAP_STATUS.STATE 2
        if s.flag R.ADP_IN_CFG.ENABLE && s.flag R.ADP_IN_CFG.SRC_CAP then { s with adp := { s.adp with runDue := true } } else s
      else s
    else s.bump R.ADP_CAP_DROPPED.N

/-! ### The age monitor (R394, R395) -/

/-- The real-time job was stopped under R385. -/
def State.rtStopped (s : State) : Bool :=
  match s.rtPart with
  | none => false
  | some p => (List.range 64).any (fun j => s.jobPart j == p && s.jobState j == 4)

/-- SHEEPDOG_ABANDON (R391): a part without a Sheepdog result before its DECISION tick. -/
def State.sdgAbandon (s : State) (i : Nat) : State :=
  let p := s.part i
  if p.sdgOn && (p.vd.sdg == .absent || p.vd.sdgTime == s.dtime) then
    let s := s.setPart i { p with vd := { p.vd with sdg := .absent, sdgScore := 0, sdgAbandoned := true } }
    let s := { s with sdg := { s.sdg with queue := s.sdg.queue.filter (· != i) } }
    (s.latch R.SDG_STATUS.BEHIND).bump R.SDG_CNT_SDG_MISSED.N
  else s

/-- A result that came on the DECISION tick itself is late (R22, R393). -/
def State.sameTickResult (s : State) (i : Nat) : State :=
  let p := s.part i
  if p.vd.result.isSome && p.vd.resultTime == s.dtime then
    (s.setPart i ({ p with vd := { p.vd with result := none, badResult := false } }.flag 4)).bump R.SDG_CNT_LATE_RESULT.N
  else s

/-- The combined verdict is present at DECISION (R393). -/
def State.present (s : State) (p : Part) : Bool :=
  match p.vd.combined with
  | some t => t != s.dtime
  | none => false

/-- The first condition of the *Verdict precedence* table that holds: order and code (R394). -/
def State.verdictFor (s : State) (p : Part) : Nat × Nat :=
  let r := p.vd.result.getD []
  if p.vd.incomplete || s.rtStopped then (1, 7)
  else if p.vd.faultMark || p.vd.badResult then (2, 6)
  else if !s.present p then (3, 5)
  else if p.sdgOn && (fieldAt r 5 1 == 1) != (p.vd.sdg == .reject) then (4, 4)
  else (5, fieldAt r 4 1)

/-- VERDICT_ASSIGN (R394): the part is DECIDED; counters, the disagreement window, the Loft and capture. -/
def State.assignVerdict (s : State) (i : Nat) : State :=
  let s := (s.sdgAbandon i).sameTickResult i
  let p := s.part i
  let (ord, code) := s.verdictFor p
  let there := s.present p
  let p := { p with
    core := { p.core with state := .decided, verdict := some code, decDtime := s.dtime }
    vd := { p.vd with disagree := ord == 4, combined := if there then p.vd.combined else none } }
  let s := s.setPart i p
  let s := if ord = 3 then s.bump R.SDG_CNT_LATE.N else s
  let s := if there then (s.loftValue 1 p.slack p.core.id).loftValue 2 p.slack p.core.id else s
  let s := if ord = 4 then (s.bump R.SDG_CNT_DISAGREE.N).loftValue 3 p.core.lane p.core.id else s
  let s := if p.sdgOn && decide (ord ≥ 4) then s.disagreeWindow (ord == 4) else s
  (s.captureKeep i code).settle

end Sys2Proof.Machine
end

