-- ==== Sys2Proof/Machine/Adapt.lean ====
section
/-! DEFINITION. Machine/Adapt.lean: the input pipeline and the feature engines of the acoustic inputs
(spec/13_adaptation.md, R287-R297, R300, R301; spec/19_field_side.md, R424). Capture is in Verdict.lean and
LinePipe.lean, publication in Publish.lean. -/

namespace Sys2Proof.Machine

/-! ### Shuffle (R292) -/

/-- mix() of R292. -/
def mix (z : Nat) : Nat :=
  let z := u64 (z + 0x9E3779B97F4A7C15)
  let z := u64 (Nat.xor z (z / 2 ^ 30) * 0xBF58476D1CE4E5B9)
  let z := u64 (Nat.xor z (z / 2 ^ 27) * 0x94D049BB133111EB)
  Nat.xor z (z / 2 ^ 31)

/-- The even width w of perm: from 2 up, until 2^w reaches n. -/
def permWidth (n : Nat) : Nat → Nat → Nat
  | 0, w => w
  | f + 1, w => if 2 ^ w < n then permWidth n f (w + 2) else w

/-- One round of the network on halves (l, r). -/
def permRound (seed ep h : Nat) (x : Nat × Nat) (rd : Nat) : Nat × Nat :=
  let f := mix (Nat.xor (Nat.xor (Nat.xor seed (u64 (ep * 2 ^ 32))) rd) (u64 (x.2 * 256))) % 2 ^ h
  (x.2, Nat.xor x.1 f)

/-- The four rounds on x. -/
def permStep (seed ep h x : Nat) : Nat :=
  let p := [0, 1, 2, 3].foldl (permRound seed ep h) (x / 2 ^ h, x % 2 ^ h)
  p.1 * 2 ^ h + p.2

/-- Cycle walking; a cycle of the permutation of 2^w values is no longer than 2^w. -/
def permWalk (seed ep h n : Nat) : Nat → Nat → Nat
  | 0, x => x
  | f + 1, x =>
    let x := permStep seed ep h x
    if x < n then x else permWalk seed ep h n f x

/-- perm(i) of R292. -/
def perm (seed ep n i : Nat) : Nat :=
  let w := permWidth n 16 2
  permWalk seed ep (w / 2) n (2 ^ w) i

/-! ### Batches (R294, R295) -/

/-- B of ADP_IN_CFG. -/
def State.inB (s : State) : Nat := s.get R.ADP_IN_CFG.BATCH

/-- Header region of a batch (R294). -/
def State.inHeader (s : State) : Nat := (64 + s.inB * 16 + 4095) / 4096 * 4096

/-- Slot size in bytes. -/
def State.inSlot (s : State) : Nat := s.get R.ADP_IN_SLOT.UNITS * 4096

/-- Address of batch `q` of the run (R295). -/
def State.batchAddr (s : State) (q : Nat) : Nat :=
  s.get64 R.ADP_IN_Q_LO.N R.ADP_IN_Q_HI.N
    + q % Nat.max 1 (s.get R.ADP_IN_CFG.QDEPTH) * (s.inHeader + s.inB * s.inSlot)

/-- SEED in force. -/
def State.inSeed (s : State) : Nat := s.get64 R.ADP_IN_SEED_LO.N R.ADP_IN_SEED_HI.N

/-- Positions of an epoch that are emitted: those of a last short batch are not, with DROP_LAST (R293). -/
def State.inPositions (s : State) : Nat :=
  if s.flag R.ADP_IN_CFG.DROP_LAST then s.adp.n / Nat.max 1 s.inB * s.inB else s.adp.n

/-- The epochs of the run have all been emitted (R293). -/
def State.inSpent (s : State) : Bool :=
  let e := s.get R.ADP_IN_EPOCHS.N
  e != 0 && decide (u32 (s.get R.ADP_IN_EPOCH_NOW.N + 4294967296 - s.adp.runEpoch) ≥ e)

/-- A batch has a status for every one of its positions (R295). -/
def Batch.ready (b : Batch) : Bool := b.done.length == b.count

/-- The header of a batch with its entries (R294). -/
def State.batchBytes (s : State) (b : Batch) : List Byte :=
  let es := (List.range b.count).map (fun j => (keyGet b.done j).getD (List.replicate 16 0))
  let skipped := (es.filter (fun e => decide (fieldAt e 4 1 > 1))).length
  [0x4B, 0x42, 0x54, 0x31] ++ leBytes 4 b.epoch ++ leBytes 4 b.k ++ leBytes 2 b.count ++ leBytes 2 skipped
    ++ leBytes 8 s.inSeed ++ leBytes 1 (if b.last then 1 else 0) ++ List.replicate 39 0 ++ es.flatten

/-- The run ends once every batch is signalled and no epoch is left (R293). -/
def State.inEnd (s : State) : State :=
  if s.flag R.ADP_IN_STATUS.RUNNING && s.inSpent && s.adp.batches.isEmpty then
    (s.drop R.ADP_IN_STATUS.RUNNING).raise R.ADP_IN_STATUS.DONE
  else s

/-- Signal READY for each batch that is ready, in batch order (R295). -/
def State.signalReady (s : State) : Nat → State
  | 0 => s
  | n + 1 => match s.adp.batches with
    | [] => s
    | b :: bs =>
      if !b.ready then s
      else
        let s := (s.store .inputPipe (s.batchAddr b.q) (s.batchBytes b)).2
        let s := { s with adp := { s.adp with batches := bs, nextReady := b.q + 1 } }
        (s.signal .inputPipe (s.get R.ADP_IN_SO.READY) 1).signalReady n

/-! ### The run (R293, R295, R297) -/

/-- Set a semaphore's VALUE and grant what its queue then allows (R295, R335). -/
def State.setSem (s : State) (o v : Nat) : State :=
  let x := s.so o
  (s.setSo o { x with value := v }).grant o x.waiters

/-- The pipeline's engines stop and its batches are dropped (R297). -/
def State.inStop (s : State) : State :=
  let s := s.removeWaits (fun a => a == Agent.inputPipe)
  { s with adp := { s.adp with
      batches := [], engines := [none, none, none, none], waitingFree := false, freeTaken := 0, batchesBegun := 0
      nextReady := 0 } }.drop R.ADP_IN_STATUS.RUNNING

/-- INPUT_RUN_START (R293, R295, R297): a run that is due starts at ADP_IN_EPOCH, position 0. -/
def execInputRunStart (s : State) : Host.Outcome State Fault Refusal :=
  .next (if !s.adp.runDue || !s.flag R.ADP_IN_CFG.ENABLE then s
    else
      let s := s.inStop
      let n := if s.flag R.ADP_IN_CFG.SRC_CAP then s.get R.ADP_CAP_N.N else s.get R.ADP_IN_COUNT.N
      let s := { s with adp := { s.adp with
        runDue := false, n := n, runEpoch := s.get R.ADP_IN_EPOCH.N, armedLow := false, reachedLow := false } }
      let s := (s.raise R.ADP_IN_STATUS.RUNNING).drop R.ADP_IN_STATUS.DONE
      let s := (s.put R.ADP_IN_EPOCH_NOW.N (s.get R.ADP_IN_EPOCH.N)).drop R.ADP_IN_POS_NOW.N
      let s := (s.setSem (s.get R.ADP_IN_SO.READY) 0).setSem (s.get R.ADP_IN_SO.FREE) (s.get R.ADP_IN_CFG.QDEPTH)
      let s := if s.inPositions = 0 && s.get R.ADP_IN_EPOCHS.N != 0 then
          (s.drop R.ADP_IN_STATUS.RUNNING).raise R.ADP_IN_STATUS.DONE
        else s
      s.settle)

/-- Take a unit of FREE for the next batch, or wait for one (R295). -/
def State.takeFree (s : State) : State :=
  if s.adp.freeTaken > s.adp.batchesBegun || s.adp.waitingFree then s
  else ({ s with adp := { s.adp with waitingFree := true } }.arriveWait .inputPipe (s.get R.ADP_IN_SO.FREE) 1).settle

/-- Begin the batch that the next position opens (R293, R294). -/
def State.beginBatch (s : State) : State :=
  let b := Nat.max 1 s.inB
  let pos := s.get R.ADP_IN_POS_NOW.N
  let x : Batch := { q := s.adp.batchesBegun, epoch := s.get R.ADP_IN_EPOCH_NOW.N, k := pos / b
                     count := Nat.min b (s.inPositions - pos / b * b), last := decide ((pos / b + 1) * b ≥ s.inPositions) }
  { s with adp := { s.adp with batches := s.adp.batches ++ [x], batchesBegun := s.adp.batchesBegun + 1 } }

/-- The next position moves on; after the last one of an epoch the epoch number increments (R293). -/
def State.nextPosition (s : State) : State :=
  let p := s.get R.ADP_IN_POS_NOW.N + 1
  if p < s.inPositions then s.put R.ADP_IN_POS_NOW.N p
  else (s.put R.ADP_IN_EPOCH_NOW.N (s.get R.ADP_IN_EPOCH_NOW.N + 1)).drop R.ADP_IN_POS_NOW.N

/-- SAMPLE_DECODE_START (R292, R295): the next position goes to a free engine; the first of a batch takes a unit of
FREE. -/
def execSampleDecodeStart (s : State) : Host.Outcome State Fault Refusal :=
  .next (match s.adp.engines.findIdx? (·.isNone) with
    | none => s
    | some e =>
      if !s.flag R.ADP_IN_STATUS.RUNNING || s.inSpent || s.inPositions == 0 then s
      else
        let pos := s.get R.ADP_IN_POS_NOW.N
        let first := pos % Nat.max 1 s.inB == 0
        let s := if first then s.takeFree else s
        if first && s.adp.freeTaken ≤ s.adp.batchesBegun then s
        else
          let s := if first then s.beginBatch else s
          let d : Decode := { batch := s.adp.batchesBegun - 1, slot := pos % Nat.max 1 s.inB
                              sample := perm s.inSeed (s.get R.ADP_IN_EPOCH_NOW.N) s.adp.n pos }
          { s with adp := { s.adp with engines := setNth s.adp.engines e (some d) } }.nextPosition)

/-! ### A sample (R287, R290) -/

/-- Bytes `a` to `e - 1` lie in enabled regions of partition `p` (R305, R306); at most 16 regions are crossed. -/
def State.regionsHold (s : State) (p e : Nat) : Nat → Nat → Bool
  | 0, a => decide (e ≤ a)
  | f + 1, a =>
    decide (e ≤ a) || (match (List.range 16).find? (fun r => s.inRegion a r && s.get (R.CEL_REG_CFG.PART r) == p) with
      | some r => s.regionsHold p e f (s.regionBase r + s.regionSpan r)
      | none => false)

/-- A structure of `n` bytes lies within partition `p`'s regions (R306). -/
def State.ownedBy (s : State) (p a n : Nat) : Bool := s.regionsHold p (a + n) 16 a

/-- What decoding the sample of an engine gives: the bytes outside the partition's channel sets are free values, and a
hard fault gives CORRUPT (log entry 35). -/
def State.decodeOf (s : State) (d : Decode) : SampleOut × List Byte × State :=
  match s.load .inputPipe (s.get64 R.ADP_IN_LIST_LO.N R.ADP_IN_LIST_HI.N + d.sample * 32) 32 with
  | (.ok, desc, s) =>
    let src := fieldAt desc 0 8
    let n := fieldAt desc 8 4
    let go (bs : List Byte) : SampleOut := decodeSample (fieldAt desc 12 1) bs s.inSlot (fieldAt desc 16 2) (fieldAt desc 14 2)
    if s.ownedBy (s.get R.ADP_IN_CFG.PART) src n then
      match s.load .inputPipe src n with
      | (.ok, bs, s) => (go bs, desc, s)
      | (_, _, s) => ({ status := .corrupt }, desc, s)
    else
      let (bs, s) := s.freeBytes n
      (go bs, desc, s)
  | (_, _, s) => ({ status := .corrupt }, List.replicate 32 0, s)

/-- Decode budget in force for a descriptor (R287). -/
def State.budget (s : State) (desc : List Byte) : Nat :=
  let b := fieldAt desc 20 4
  if b = 0 then s.get R.ADP_IN_BUDGET.N else b

/-- Count a status (R290). -/
def State.countSample (s : State) : Sample → State
  | .ok => s.bump R.ADP_IN_CNT_OK.N
  | .shortData => s.bump R.ADP_IN_CNT_SHORT.N
  | .timedOut => s.bump R.ADP_IN_CNT_TIMED_OUT.N
  | .tooBig => s.bump R.ADP_IN_CNT_TOO_BIG.N
  | .ratio => s.bump R.ADP_IN_CNT_RATIO.N
  | .format => s.bump R.ADP_IN_CNT_FORMAT.N
  | .corrupt => s.bump R.ADP_IN_CNT_CORRUPT.N

/-- Bytes 5, 6 and 8-11 of an entry: the header's values; free values where no header was accepted (log entry 35). -/
def State.shapeBytes (s : State) (x : SampleOut) : (List Byte × List Byte) × State :=
  match x.shape with
  | some h => ((leBytes 1 h.planes ++ leBytes 1 h.sbytes, leBytes 2 h.width ++ leBytes 2 h.height), s)
  | none =>
    let (bs, s) := s.freeBytes 6
    ((bs.take 2, bs.drop 2), s)

/-- An engine's sample ends, CORRUPT where a write takes a hard fault (R314): its samples are written to the slot, its entry to the batch, and the batches that are ready
are signalled (R290, R294, R295). -/
def State.sampleEnds (s : State) (e : Nat) (d : Decode) (x : SampleOut) (cycles : Nat) : State :=
  let slot := s.batchAddr d.batch + s.inHeader + d.slot * s.inSlot
  let (ok, s) := s.storeAll .inputPipe slot x.writes
  let x := if ok then x else { x with status := .corrupt }
  let (sh, s) := s.shapeBytes x
  let entry := leBytes 4 d.sample ++ leBytes 1 x.status.code ++ sh.1 ++ leBytes 1 (if x.excess then 1 else 0) ++ sh.2
    ++ leBytes 4 cycles
  let s := s.countSample x.status
  let bs := s.adp.batches.map (fun b => if b.q = d.batch then { b with done := keyPut b.done d.slot entry } else b)
  let s := { s with adp := { s.adp with engines := setNth s.adp.engines e none, batches := bs } }
  (s.signalReady (bs.length + 1)).inEnd.settle

/-- SAMPLE_DECODE_DONE (R290): the decode of an engine ends within its budget, after so many cycles. Steps 1 to 4 of
R290 end a sample before cycles are counted against the budget. -/
def execSampleDecodeDone (engine : Fin 4) (cycles : BitVec 32) (s : State) : Host.Outcome State Fault Refusal :=
  .next (match nth s.adp.engines engine.val none with
    | none => s
    | some d =>
      let (x, desc, t) := s.decodeOf d
      let early := x.status = .tooBig || x.status = .ratio || x.status = .format
      if !early && decide (cycles.toNat ≥ t.budget desc) then s else t.sampleEnds engine.val d x cycles.toNat)

/-- DECODE_BUDGET_EXPIRE (R290): the cycle count of an engine reaches BUDGET after it has written so many samples. -/
def execDecodeBudgetExpire (engine : Fin 4) (written : BitVec 32) (s : State) : Host.Outcome State Fault Refusal :=
  .next (match nth s.adp.engines engine.val none with
    | none => s
    | some d =>
      let (x, desc, t) := s.decodeOf d
      if x.status = .tooBig || x.status = .ratio || x.status = .format then s
      else t.sampleEnds engine.val d
        { x with status := .timedOut, excess := false, writes := x.writes.take written.toNat } (t.budget desc))

/-! ### Acoustic inputs (R300, R301, R424) -/

/-- SUP_FAULT (R424): the supply of inputs falls below 90 % of its set value. -/
def execSupFault (inputs : BitVec 4) (s : State) : Host.Outcome State Fault Refusal :=
  .next (s.latchBits R.AUD_STATUS.SUP_FAULT inputs.toNat)

/-- FFT size of a channel (R300). -/
def State.fftSize (s : State) (a : Nat) : Nat := 256 * 2 ^ s.get (R.ADP_AUD_CFG.FFT a)

/-- Sample rate in Hz (R424). -/
def State.audRate (s : State) : Nat := 48000 * 2 ^ s.get R.AUD_CFG.RATE

/-- Energy of a band of a frame (R300). -/
def State.band (s : State) (a : Nat) (xs : List Int) (b : Nat) : BitVec 32 :=
  let k0 := s.get (R.ADP_AUD_BAND.K0 a b)
  let k1 := s.get (R.ADP_AUD_BAND.K1 a b)
  if k0 > k1 then 0 else bandEnergy (s.fftSize a) xs k0 k1

/-- A feature record (R301). -/
def featureBytes (f : Feature) (wpos seq channel : Nat) : List Byte :=
  leBytes 8 f.start ++ leBytes 8 wpos ++ leBytes 4 seq ++ leBytes 1 channel
    ++ leBytes 1 ((if f.clip then 1 else 0) + (if f.gap then 2 else 0)) ++ List.replicate 10 0
    ++ f.bands.flatMap (fun e => leBytes 4 e.toNat) ++ List.replicate 32 0

/-- The hop of a channel (R300). -/
def State.hop (s : State) (a : Nat) : Nat := s.fftSize a / 4 * 2 ^ Nat.min 2 (s.get (R.ADP_AUD_CFG.HOP a))

/-- The sample that input `a` takes from a TDM frame, in the top 24 bits of its slot (R424), with a mark if it is missing: no data
driven there, the supply below 90 %, or the input disabled. One that is missing counts as 0 (R301). -/
def State.sampleOf (s : State) (a : Nat) (f : List (Option (BitVec 32))) : Int × Bool :=
  match nth f (s.get (R.AUD_A_CFG.SLOT a)) none with
  | some w =>
    if bit (s.get R.AUD_STATUS.SUP_FAULT) a || !s.flag (R.AUD_A_CFG.ENABLE a) then (0, true)
    else (signed 24 (w.toNat / 256), false)
  | none => (0, true)

/-- TDM frames of 8 slots (R424): the word of each slot, or none where the frame's mask says that no data is driven there. -/
def tdmFrames (words : List (List (BitVec 32))) (driven : List (BitVec 8)) : List (List (Option (BitVec 32))) :=
  (words.zip driven).map (fun x => (List.range 8).map (fun k => if bit x.2.toNat k then x.1[k]? else none))

/-- The samples of the next frame of an input (R300), each with a mark if it was missing: the first frame has N new ones, a later
one `hop` after those that it shares with the frame before. -/
def State.frameOf (s : State) (a : Nat) (frames : List (List (Option (BitVec 32)))) : List (Int × Bool) :=
  let n := s.fftSize a
  let tail := nth s.aud.tails a []
  let want := if tail.isEmpty then n else s.hop a
  let new := (frames.take want).map (s.sampleOf a) ++ List.replicate (want - frames.length) (0, true)
  let all := List.replicate (n - tail.length - want) (0, true) ++ tail ++ new
  all.drop (all.length - n)

/-- WPOS on the tick `t` (R301), as far back as the module keeps it; `other` before that (log entry 36). -/
def State.wposAt (s : State) (t other : Nat) : Nat :=
  if t ≥ s.dtime then s.pos.wpos
  else match s.aud.trail.find? (fun e => decide (e.1 ≤ t)) with
    | some e => e.2
    | none => other

/-- Write a feature record to the Cellar of ADP_AUDa_CFG.PART (R301); a place outside that partition's regions is left alone
(log entry 36). -/
def State.featureWrite (s : State) (a k : Nat) (bs : List Byte) : State :=
  let base := s.get64 (R.ADP_AUD_RING_LO.N a) (R.ADP_AUD_RING_HI.N a)
  let addr := base + k % Nat.max 1 (s.get (R.ADP_AUD_COUNT.N a)) * 128
  if s.ownedBy (s.get (R.ADP_AUD_CFG.PART a)) addr 128 then (s.store .inputPipe addr bs).2 else s

/-- FEATURE_FRAME (R300, R301, R424): the TDM frames of 8 slots that have arrived since the last frame of an input, with a mask of
the slots in which data is driven; the DTIME of the frame's first sample, and WPOS then where the module no longer keeps it. A record of an input
with SUP_FAULT carries GAP. -/
def execFeatureFrame (input : Fin 4) (start wpos : BitVec 64) (words : List (List (BitVec 32)))
    (driven : List (BitVec 8)) (s : State) : Host.Outcome State Fault Refusal :=
  let a := input.val
  .next (if !s.flag (R.ADP_AUD_CFG.ENABLE a) then s
    else
      let n := s.fftSize a
      let frame := s.frameOf a (tdmFrames words driven)
      let xs := frame.map (·.1)
      let gap := frame.any (·.2) || bit (s.get R.AUD_STATUS.SUP_FAULT) a
      let clip := xs.any (fun v => v == -8388608 || v == 8388607)
      let f : Feature := { start := start.toNat, stop := u64 (start.toNat + ceilDiv (n * 1000000000) s.audRate), gap := gap
                           clip := clip, bands := (List.range 16).map (s.band a xs) }
      let k := nth s.aud.next a 0
      let s := { s with aud := { s.aud with
        feats := (a, f) :: s.aud.feats, next := setNth s.aud.next a (u32 (k + 1)), tails := setNth s.aud.tails a frame } }
      let s := s.put (R.ADP_AUD_SEQ.N a) k
      let s := if gap then s.latch (R.ADP_AUD_STATUS.GAP_SEEN a) else s
      let s := if clip then s.latch (R.ADP_AUD_STATUS.CLIP_SEEN a) else s
      if !s.flag (R.ADP_AUD_CFG.PRIV a) then s
      else
        let s := s.featureWrite a k (featureBytes f (s.wposAt start.toNat wpos.toNat) k a)
        (s.signal (.feature a) (s.get (R.ADP_AUD_SO.SO a)) 1).settle)

/-! ### What a commit does (R293, R297, R300) -/

/-- The registers whose change restarts the run: SEED, the list, B, QDEPTH and the slot size (R297). -/
def State.runKey (s : State) : List Nat :=
  [s.inSeed, s.get64 R.ADP_IN_LIST_LO.N R.ADP_IN_LIST_HI.N, s.inB, s.get R.ADP_IN_CFG.QDEPTH, s.inSlot,
    s.get R.ADP_IN_COUNT.N, s.get R.ADP_IN_CFG.SRC_CAP]

/-- A commit stops, starts or restarts the input pipeline (R297). -/
def State.inCommit (s old : State) : State :=
  let on := s.flag R.ADP_IN_CFG.ENABLE
  let can := !s.flag R.ADP_IN_CFG.SRC_CAP || s.get R.ADP_CAP_STATUS.STATE == 2
  if !on then
    let s := if old.flag R.ADP_IN_CFG.ENABLE then s.inStop else s
    { s with adp := { s.adp with runDue := false } }
  else if !old.flag R.ADP_IN_CFG.ENABLE || old.runKey != s.runKey then
    let s := s.inStop
    { s with adp := { s.adp with runDue := can } }
  else s

/-- A commit that enables a feature channel starts its frames at 0 (R300). -/
def State.audCommit (s old : State) : State :=
  (List.range 4).foldl (fun (s : State) a =>
    if s.flag (R.ADP_AUD_CFG.ENABLE a) && !old.flag (R.ADP_AUD_CFG.ENABLE a) then
      { s with aud := { s.aud with next := setNth s.aud.next a 0, tails := setNth s.aud.tails a [] } }
    else s) s

end Sys2Proof.Machine
end

