-- ==== Sys2Proof/Machine/Clock.lean ====
section
/-! DEFINITION. Machine/Clock.lean: clock sources, loss, switching and relock of the main loops, and the marking of
DTIME as suspect (spec/21_clocks_power_heat.md, R444-R451). -/

namespace Sys2Proof.Machine

/-- Bit k of REC_READY (R445): port Gk in UP, its four lanes with CDR_LOCK, and its frequency within range. -/
def State.recReady (s : State) (k : Nat) : Bool :=
  bit s.clk.stable k && s.get (R.GTS_G_STATUS.STATE k) == 3
    && [32 + 4 * k, 33 + 4 * k, 34 + 4 * k, 35 + 4 * k].all (fun l => s.flag (R.LANE_L_STATUS.CDR_LOCK l))

/-- A target is READY (R444, R445): the crystal, or a recovered clock while GTS_CFG.ENABLE is in force. -/
def State.srcReady (s : State) (rec : Bool) (port : Nat) : Bool :=
  if rec then s.flag R.GTS_CFG.ENABLE && s.recReady port else s.flag R.CLK_STATUS.XTAL_READY

/-- DTIME is suspect (R451). -/
def State.dtSuspect (s : State) : Bool :=
  s.flag R.CLK_STATUS.SRC_LOST
    || (match s.clk.relockAt with
      | some t => decide (s.dtime < t + 1000000)
      | none => false)
    || (s.flag R.GTS_CFG.ENABLE && !s.flag R.GTS_TIME_STATUS.SYNCED)

/-- Show whether DTIME is suspect (R29, R451). -/
def State.markSuspect (s : State) : State :=
  let b := s.dtSuspect
  (s.putFlag R.POS_STATUS.DT_SUSPECT b).putFlag R.CLK_STATUS.DT_SUSPECT b

/-- CLK_FREQq shows the quad clocks in force: 800 MHz in a coast (R446). -/
def State.showFreqs (s : State) : State :=
  (List.range 4).foldl (fun (s : State) q =>
    s.put (R.CLK_FREQ.MHZ q) (if s.flag R.CLK_STATUS.SRC_LOST then 800 else nth s.clk.freqs q 0)) s

/-- The selected source is lost: every main loop coasts (R446). One that replaced a lost source is lost in its turn: the coast
and SRC_LOST go on from the first loss (R447, R450; log entry 55). -/
def State.sourceLost (s : State) : State :=
  if s.flag R.CLK_STATUS.SRC_LOST && !s.clk.switched then s
  else
    let again := s.flag R.CLK_STATUS.SRC_LOST
    let s := ((s.raise R.CLK_STATUS.SRC_LOST).latch R.CLK_STATUS.LOST_SEEN).drop R.CLK_STATUS.LOCKED
    let s := { s with clk := { s.clk with
      lostAt := if again then s.clk.lostAt else some s.dtime, lostStop := again && s.clk.lostStop, switched := false } }
    let s := (s.bump R.CLK_CNT_LOST.N).loftEvent 0x000A
      (leBytes 4 (s.get R.CLK_STATUS.SRC) ++ leBytes 4 (s.get R.CLK_STATUS.SRC_PORT))
    s.showFreqs.markSuspect

/-- CLOCK_SOURCE_LOSS (R446): the selected source gives no edge for 64 ns, or its frequency leaves the range. -/
def execClockSourceLoss (s : State) : Host.Outcome State Fault Refusal := .next (s.onRails State.sourceLost)

/-- A recovered source is lost when its port leaves UP (R446). -/
def State.portLost (s : State) (k : Nat) : State :=
  if s.flag R.CLK_STATUS.SRC && s.get R.CLK_STATUS.SRC_PORT == k then s.sourceLost else s

/-- The multiplexer takes a source: a switch is counted. -/
def State.takeSource (s : State) (rec : Bool) (port : Nat) : State :=
  let s := (s.putFlag R.CLK_STATUS.SRC rec).put R.CLK_STATUS.SRC_PORT (if rec then port else 0)
  let s := s.bump R.CLK_CNT_SWITCH.N
  if s.flag R.CLK_STATUS.SRC_LOST then { s with clk := { s.clk with switched := true } } else s

/-- The first READY source after a loss (R447): the recovered clock of the lowest port, then the crystal. -/
def State.firstReady (s : State) : Option (Bool × Nat) :=
  match (List.range 8).find? (fun k => s.srcReady true k) with
  | some k => some (true, k)
  | none => if s.srcReady false 0 then some (false, 0) else none

/-- CLOCK_SWITCH (R447): with AUTO, firmware replaces a lost source. -/
def execClockSwitch (s : State) : Host.Outcome State Fault Refusal :=
  .next (if !s.marfinRuns || !s.flag R.CLK_STATUS.SRC_LOST || !s.flag R.CLK_CFG.AUTO || s.clk.switched then s
    else match s.firstReady with
      | some (r, k) => s.takeSource r k
      | none => s)

/-- LOOP_RELOCK (R447): the loops lock to the source that replaced the lost one. -/
def execLoopRelock (s : State) : Host.Outcome State Fault Refusal :=
  .next (match s.clk.lostAt with
    | none => s
    | some t =>
      if !s.clk.switched then s
      else
        let s := (s.drop R.CLK_STATUS.SRC_LOST).raise R.CLK_STATUS.LOCKED
        let s := s.put R.CLK_COAST_NS.N (satNat 32 (s.dtime - t))
        let s := { s with clk := { s.clk with lostAt := none, lostStop := false, switched := false, relockAt := some s.dtime } }
        s.showFreqs.markSuspect)

/-- A switch request (R448): refused where the target is not READY; a target in use already makes no switch. -/
def State.clkSwitch (s : State) (rec : Bool) (port : Nat) : State :=
  if !s.srcReady rec port then
    ((s.latch R.CLK_STATUS.SW_REFUSED).bump R.CLK_CNT_REFUSED.N).loftEvent 0x000B
      (leBytes 4 (if rec then 8 + port else 0))
  else if !s.flag R.CLK_STATUS.SRC_LOST && s.flag R.CLK_STATUS.SRC == rec
      && (!rec || s.get R.CLK_STATUS.SRC_PORT == port) then s
  else s.takeSource rec port

/-- CLK_SWITCH_REQUEST (R448): a write of CLK_CTL with SWITCH 1. -/
def execClkSwitchRequest (rec : Bool) (port : Fin 8) (s : State) : Host.Outcome State Fault Refusal :=
  .next (s.written R.CLK_CTL (fun s => s.clkSwitch rec port.val))

/-- A commit that changes PREFER makes the request (R448); without an upstream port the recovered clock has no target. -/
def State.clkCommit (s old : State) : State :=
  if old.get R.CLK_CFG.PREFER = s.get R.CLK_CFG.PREFER then s
  else if !s.flag R.CLK_CFG.PREFER then s.clkSwitch false 0
  else if s.flag R.GTS_TIME_STATUS.UPVALID then s.clkSwitch true (s.get R.GTS_TIME_STATUS.UPPORT)
  else (s.latch R.CLK_STATUS.SW_REFUSED).bump R.CLK_CNT_REFUSED.N |>.loftEvent 0x000B (leBytes 4 8)

/-- The upstream port changed (R448): firmware switches to the new one if it is READY and differs from the port in use; with the
crystal in use every port differs (log entry 55). -/
def State.clkUpstream (s : State) (port : Nat) : State :=
  if !s.flag R.CLK_STATUS.SRC_LOST && (!s.flag R.CLK_STATUS.SRC || s.get R.CLK_STATUS.SRC_PORT != port) && s.srcReady true port
  then s.takeSource true port else s

/-- CLOCK_LOST_TIMEOUT (R450): SRC_LOST has stayed 1 for LOST_MS. -/
def execClockLostTimeout (s : State) : Host.Outcome State Fault Refusal :=
  .next (match s.clk.lostAt with
    | none => s
    | some t =>
      if s.clk.lostStop || decide (s.dtime < t + s.get R.CLK_CFG.LOST_MS * 1000000) then s
      else { s with clk := { s.clk with lostStop := true } }.lineStop .other)

/-- DT_SUSPECT_CLEAR (R451): DTIME is no longer suspect once no condition of R451 holds. -/
def execDtSuspectClear (s : State) : Host.Outcome State Fault Refusal := .next s.markSuspect

/-- XTAL_READY (R445): the amplitude has read at least 200 mV for 2 ms. -/
def execXtalReady (mv : BitVec 12) (s : State) : Host.Outcome State Fault Refusal :=
  .next (s.onRails (fun s =>
    let s := s.put R.CLK_XTAL.AMP_MV mv.toNat
    if mv.toNat ≥ 200 then s.raise R.CLK_STATUS.XTAL_READY else s))

/-- CRYSTAL_AMPLITUDE_LOSS (R445): the amplitude is below 100 mV. -/
def execCrystalAmplitudeLoss (mv : BitVec 12) (s : State) : Host.Outcome State Fault Refusal :=
  .next (s.onRails (fun s =>
    let s := s.put R.CLK_XTAL.AMP_MV mv.toNat
    if mv.toNat < 100 then s.drop R.CLK_STATUS.XTAL_READY else s))

/-- RECOVERED_CLOCK_READY (R445): a port's recovered frequency has stayed within range for 100 µs, or left it. -/
def execRecoveredClockReady (port : Fin 8) (within : Bool) (s : State) : Host.Outcome State Fault Refusal :=
  let k := port.val
  .next (s.onRails (fun s =>
    let m := s.clk.stable
    { s with clk := { s.clk with stable := if bit m k == within then m else if within then m + 2 ^ k else m - 2 ^ k } }))

end Sys2Proof.Machine
end

