-- ==== Sys2Proof/Machine/Fabric.lean ====
section
/-! DEFINITION. Machine/Fabric.lean: packets of the Gatis fabric on their way out: link-state, routes, virtual channels
and credits (spec/20_gatis_fabric.md, R429-R435). -/

namespace Sys2Proof.Machine

/-! ### Ports and link-state -/

/-- Port `p` of the fabric. -/
def State.gport (s : State) (p : Nat) : PortSt := nth s.gts.ports p {}

/-- Replace port `p`. -/
def State.setGport (s : State) (p : Nat) (x : PortSt) : State :=
  { s with gts := { s.gts with ports := setNth s.gts.ports p x } }

/-- Port states of R428: 0 OFF, 1 TRAIN, 2 HELLO, 3 UP, 4 ISOLATED. -/
def State.portState (s : State) (p : Nat) : Nat := s.get (R.GTS_G_STATUS.STATE p)

/-- This module's ID. -/
def State.myId (s : State) : Nat := s.get R.GTS_CFG.ID

/-- The module is in a fabric. -/
def State.inFabric (s : State) : Bool := s.flag R.GTS_CFG.ENABLE

/-- This module's UP ports: port, peer, the peer's port. -/
def State.upPorts (s : State) : List (Nat × Nat × Nat) :=
  ((List.range 8).filter (fun p => s.portState p == 3)).map
    (fun p => (p, s.get (R.GTS_G_STATUS.PEER_ID p), s.get (R.GTS_G_STATUS.PEER_PORT p)))

/-- Links of module `m` as its link-state gives them. -/
def State.linksOf (s : State) (m : Nat) : List (Nat × Nat × Nat) :=
  if m = s.myId then s.upPorts else (keyGet s.gts.links m).getD []

/-- Module IDs of the membership (R434). -/
def State.members (s : State) : List Nat := setBits 64 (s.get64 R.GTS_MEMBERS_LO.N R.GTS_MEMBERS_HI.N)

/-! ### Trees and routes (R434, R435) -/

/-- One round of a breadth-first search: modules with their level. -/
def State.bfsRound (s : State) (ds : List (Nat × Nat)) : List (Nat × Nat) :=
  ds.foldl (fun acc d => (s.linksOf d.1).foldl (fun acc l =>
    if (keyGet acc l.2.1).isSome then acc else keyPut acc l.2.1 (d.2 + 1)) acc) ds

/-- Levels of the breadth-first tree from `root`; the modules listed are its component. -/
def State.levels (s : State) (root : Nat) : Nat → List (Nat × Nat)
  | 0 => [(root, 0)]
  | n + 1 => s.bfsRound (s.levels root n)

/-- Levels from a root; a fabric holds at most 64 modules. -/
def State.tree (s : State) (root : Nat) : List (Nat × Nat) := s.levels root 64

/-- Modules of this module's component. -/
def State.component (s : State) : List Nat := (s.tree s.myId).map (·.1)

/-- The leader (R434): the lowest ID of the component. -/
def State.leader (s : State) : Nat := s.component.foldl Nat.min s.myId

/-- A hop from `a` to `b` goes up in the tree with levels `lv`: to a lower level, or at one level to a lower ID. -/
def goesUp (lv : List (Nat × Nat)) (a b : Nat) : Bool :=
  let x := (keyGet lv a).getD 64
  let y := (keyGet lv b).getD 64
  decide (y < x) || (x == y && decide (b < a))

/-- Permitted next steps of the up*/down* order from a module, `down` once a hop has gone down. -/
def State.nextHops (s : State) (lv : List (Nat × Nat)) (x : Nat × Bool) : List (Nat × Bool) :=
  (s.linksOf x.1).filterMap (fun l =>
    if goesUp lv x.1 l.2.1 then (if x.2 then none else some (l.2.1, false)) else some (l.2.1, true))

/-- Hops on the shortest permitted path from any of the given steps to `dst`. -/
def State.hopsTo (s : State) (lv : List (Nat × Nat)) (dst : Nat) : Nat → List (Nat × Bool) → Option Nat
  | 0, _ => none
  | f + 1, xs =>
    if xs.any (fun x => x.1 == dst) then some 0
    else (s.hopsTo lv dst f ((xs.flatMap (s.nextHops lv)).dedup)).map (· + 1)

/-- Units that a packet takes (R432). -/
def GPacket.units (k : GPacket) : Nat := (20 + k.payload.length + 63) / 64

/-- Units of a virtual channel and partition at the peer of port `p`; VC 0 and VC 1 have 64 each. -/
def PortSt.units (x : PortSt) (vc part : Nat) : Nat :=
  (keyGet x.creds (vc * 8 + if vc < 2 then 0 else part)).getD (if vc < 2 then 64 else 0)

/-- The port by which a packet for `dst` leaves (R434): on VC 0-2 the lowest port of least hops along permitted paths; on VC 3
the permitted port with the most free units, then the lowest. `down` tells that the packet has come here by a hop that went
down. -/
def State.route (s : State) (vc part dst : Nat) (down : Bool) : Option Nat :=
  let lv := s.tree s.leader
  let cand := s.upPorts.filterMap (fun l =>
    let up := goesUp lv s.myId l.2.1
    if up && down then none
    else (s.hopsTo lv dst 64 [(l.2.1, !up)]).map (fun h => (l.1, h)))
  let best := cand.foldl (fun (b : Option (Nat × Nat)) c => match b with
    | none => some c
    | some d =>
      if (if vc = 3 then decide ((s.gport c.1).units vc part > (s.gport d.1).units vc part) else decide (c.2 < d.2)) then some c
      else some d) none
  best.map (·.1)

/-- The parent of `n` in the tree with levels `lv` (R434, R435): the lowest ID one level up. -/
def State.parentOf (s : State) (lv : List (Nat × Nat)) (n : Nat) : Option Nat :=
  (lv.filter (fun d => d.2 + 1 == (keyGet lv n).getD 0 && (s.linksOf d.1).any (fun l => l.2.1 == n))).map (·.1)
    |>.foldl (fun (b : Option Nat) m => some (match b with
      | none => m
      | some k => Nat.min k m)) none

/-- Ports by which a broadcast of module `src` is forwarded from here (R435): the lowest port to each child. -/
def State.bcastPorts (s : State) (src : Nat) : List Nat :=
  let lv := s.tree src
  s.upPorts.filterMap (fun l =>
    if s.parentOf lv l.2.1 == some s.myId && l.2.1 != src && (s.upPorts.find? (fun k => k.2.1 == l.2.1)).map (·.1) == some l.1
    then some l.1 else none)

/-! ### Sending (R430-R432) -/

/-- Bytes of a packet in the replay buffer: header, payload and CRC. -/
def GPacket.bytes (k : GPacket) : Nat := 20 + k.payload.length

/-- The bytes of a packet with its LSEQ: header, payload and the CRC-32 over both (R429). -/
def GPacket.wire (k : GPacket) (lseq : Nat) : List Byte :=
  let h := leBytes 1 k.type ++ leBytes 1 (k.vc + 4 * if k.vc < 2 then 0 else k.part)
    ++ leBytes 1 (k.dst + if k.bcast then 128 else 0) ++ leBytes 1 k.src ++ leBytes 2 k.payload.length ++ leBytes 2 lseq
    ++ leBytes 4 k.tag ++ leBytes 4 k.epoch ++ k.payload
  h ++ leBytes 4 (crc32 h)

/-- An ordered set with one K code on all four lanes (R427): IDLE K28.5 0xBC, SOP K27.7 0xFB, EOP K29.7 0xFD. -/
def kSet (code : Nat) : List (Bool × Byte) := List.replicate 4 (true, BitVec.ofNat 8 code)

/-- A CTL set (R427): K28.3, TYPE, DATA low and high. -/
def ctlSet (type data : Nat) : List (Bool × Byte) :=
  [(true, 0x7C), (false, BitVec.ofNat 8 type), (false, BitVec.ofNat 8 data), (false, BitVec.ofNat 8 (data / 256))]

/-- Data sets: four bytes each, the last filled with zero bytes (R427, R429). -/
def dataSets (bs : List Byte) : List (List (Bool × Byte)) :=
  (List.range (ceilDiv bs.length 4)).map (fun i => (List.range 4).map (fun j => (false, bs.getD (4 * i + j) 0)))

/-- The ordered sets of a packet: SOP, its bytes, EOP (R429). -/
def GPacket.sets (k : GPacket) (lseq : Nat) : List (List (Bool × Byte)) := kSet 0xFB :: dataSets (k.wire lseq) ++ [kSet 0xFD]

/-- Sets go out on the link, not interrupted; an IDLE set before them where 1,024 sets would else hold none (R427). -/
def PortSt.emit (x : PortSt) (ss : List (List (Bool × Byte))) : PortSt :=
  if x.sinceIdle + ss.length < 1024 then { x with line := x.line ++ ss, sinceIdle := x.sinceIdle + ss.length }
  else { x with line := x.line ++ kSet 0xBC :: ss, sinceIdle := ss.length }

/-- What the port has sent that is not yet acknowledged, and what a NAK has it send again: packet by packet (R430). -/
def PortSt.replaySets (x : PortSt) : List (List (List (Bool × Byte))) := x.replay.map (fun e => e.2.sets e.1)

/-- The CTL sets that the port has sent (R427, R430, R432). -/
def PortSt.ctlSets (x : PortSt) : List (List (Bool × Byte)) := x.ctl.map (fun e => ctlSet e.1 e.2)

/-- Bytes held in the replay buffer of a port. -/
def PortSt.held (x : PortSt) : Nat := (x.replay.map (fun e => e.2.bytes)).sum

/-- The partition whose order a packet keeps: VC 2 and VC 3 packets of different partitions do not wait for each other. -/
def GPacket.lineKey (k : GPacket) : Nat := k.vc * 8 + if k.vc < 2 then 0 else k.part

/-- DATA of a CRED set: units, partition and virtual channel (log entry 31). -/
def credData (vc part units : Nat) : Nat := units + part * 2048 + vc * 16384

/-- The units that a forwarded packet holds here: the port it came by, and the DATA of the CRED set that returns them. -/
def GPacket.credits (k : GPacket) : List (Nat × Nat) :=
  k.via.toList.map (fun p => (p, credData k.vc (if k.vc < 2 then 0 else k.part) k.units))

/-- A packet may leave now: first of its virtual channel and partition, with units at the peer and room in the replay
buffer. -/
def PortSt.ready (x : PortSt) (i : Nat) : Bool :=
  match x.out[i]? with
  | none => false
  | some k => !((x.out.take i).any (fun j => j.lineKey == k.lineKey)) && decide (k.units ≤ x.units k.vc k.part)
      && decide (x.held + k.bytes ≤ 32768)

/-- The next packet to leave (R431): VC 1, then VC 0, then VC 2 and VC 3 in turn. -/
def PortSt.pick (x : PortSt) : Option Nat :=
  let of (vc : Nat) : Option Nat := (List.range x.out.length).find? (fun i => x.ready i
    && (match x.out[i]? with
      | some k => k.vc == vc
      | none => false))
  (of 1).or ((of 0).or (if x.bulkNext then (of 3).or (of 2) else (of 2).or (of 3)))

/-- Put packets on the link while any may leave. -/
def PortSt.pump (x : PortSt) : Nat → PortSt
  | 0 => x
  | n + 1 => match x.pick with
    | none => x
    | some i => match x.out[i]? with
      | none => x
      | some k =>
        PortSt.pump { x.emit (k.sets x.txSeq) with
          out := x.out.eraseIdx i
          replay := x.replay ++ [(x.txSeq, k)]
          txSeq := (x.txSeq + 1) % 4096
          creds := keyPut x.creds k.lineKey (x.units k.vc k.part - k.units)
          bulkNext := if k.vc = 2 then true else if k.vc = 3 then false else x.bulkNext
          owed := x.owed ++ k.credits } n

/-- Send a CTL set on a port (R427): type 1 ACK, 2 NAK, 3 CRED. -/
def State.sendCtl (s : State) (p type data : Nat) : State :=
  let x := s.gport p
  s.setGport p { x.emit [ctlSet type data] with ctl := x.ctl ++ [(type, data)] }

/-- Packets leave a port while any may; the units of those forwarded return to where they came from (R432). -/
def State.pumpPort (s : State) (p : Nat) : State :=
  let x := (s.gport p).pump (s.gport p).out.length
  x.owed.foldl (fun (s : State) o => if s.portState o.1 = 3 then s.sendCtl o.1 3 o.2 else s) (s.setGport p { x with owed := [] })

/-- Send a packet on a port in UP. -/
def State.sendOn (s : State) (p : Nat) (k : GPacket) : State :=
  if s.portState p = 3 then
    let x := s.gport p
    (s.setGport p { x with out := x.out ++ [k] }).pumpPort p
  else s

/-- A packet that this module was to forward is discarded: its units return (R432). -/
def State.giveBack (s : State) (k : GPacket) : State :=
  k.credits.foldl (fun (s : State) o => if s.portState o.1 = 3 then s.sendCtl o.1 3 o.2 else s) s

/-- Send or forward a packet toward its destination (R434); `down` as in `route`. A VC 3 packet with no route is
discarded and counted. -/
def State.sendTo (s : State) (k : GPacket) (down : Bool) : State :=
  match s.route k.vc k.part k.dst down with
  | some p => s.sendOn p k
  | none => if k.vc = 3 then (s.giveBack k).bump R.GTS_CNT_UNROUTED.N else s.giveBack k

/-- Forward a broadcast packet along the tree of its sender (R435). -/
def State.sendBcast (s : State) (k : GPacket) : State := (s.bcastPorts k.src).foldl (fun s p => s.sendOn p k) s

/-! ### Receiving (R430, R432) -/

/-- A packet of `len` payload bytes arrives on a port in UP (R430): accepted in LSEQ order; its units return at once where it is
delivered, and else once it has been forwarded (R432); another LSEQ is answered by NAK, once. -/
def State.accept (s : State) (h : Packet) (vc len : Nat) (forward : Bool := false) : Bool × State :=
  let p := h.port.val
  let x := s.gport p
  if s.portState p ≠ 3 then (false, s)
  else if h.lseq.toNat = x.rxSeq then
    let s := s.setGport p { x with rxSeq := (x.rxSeq + 1) % 4096, nakSent := none }
    (true, if forward then s else s.sendCtl p 3 (credData vc (if vc < 2 then 0 else h.part.val) ((20 + len + 63) / 64)))
  else if x.nakSent = some x.rxSeq then (false, s)
  else (false, (s.setGport p { x with nakSent := some x.rxSeq }).sendCtl p 2 x.rxSeq)

/-- The hop by which a packet came here went down in the leader's tree (R434). -/
def State.cameDown (s : State) (p : Nat) : Bool :=
  !goesUp (s.tree s.leader) (s.get (R.GTS_G_STATUS.PEER_ID p)) s.myId

/-- A packet that has arrived goes to this module's own receiver, or on toward its destination with the same header and
payload. -/
def State.deliverOrForward (s : State) (h : Packet) (type vc : Nat) (payload : List Byte) (mine : State → State) : State :=
  match s.accept h vc payload.length (h.dst.val != s.myId) with
  | (false, s) => s
  | (true, s) =>
    if h.dst.val = s.myId then mine s
    else s.sendTo { via := some h.port.val, type := type, vc := vc, part := h.part.val, dst := h.dst.val, src := h.src.val, tag := h.tag.toNat
                    epoch := h.epoch.toNat, payload := payload } (s.cameDown h.port.val)

/-! ### HELLO (R428, R429) -/

/-- What a HELLO of port `p` says: ID, port, serial, membership, and the units per partition (R428, R432). -/
def State.helloBytes (s : State) (p : Nat) : List Byte :=
  leBytes 1 s.myId ++ leBytes 1 p ++ leBytes 8 s.module.serial ++ leBytes 8 (s.get64 R.GTS_MEMBERS_LO.N R.GTS_MEMBERS_HI.N)
    ++ (List.range 8).flatMap (fun k => leBytes 2 (s.get (R.GTS_PTN_CRED.LOOKUP k)) ++ leBytes 2 (s.get (R.GTS_PTN_CRED.BULK k)))

/-- A HELLO leaves a port as a packet (R428, R429). Its DST and LSEQ are free: the peer's ID is not known, and the packets of a
link are numbered in UP (log entry 31). -/
def State.sendHello (s : State) (p : Nat) : State :=
  let x := s.gport p
  let dst := (Config.helloDst p).toNat
  let k : GPacket := { type := 1, vc := 0, dst := dst % 64, bcast := bit dst 7, src := s.myId, payload := s.helloBytes p }
  s.setGport p { x.emit (k.sets (Config.helloLseq p).toNat) with helloAt := some s.dtime, hello := s.helloBytes p }

/-! ### Changes of the link-state (R434-R436, R439) -/

/-- The LINKSTATE packet of this module: its UP ports, their peers and the peers' ports. -/
def State.linkStatePacket (s : State) : GPacket :=
  { type := 2, vc := 0, src := s.myId, bcast := true
    payload := s.upPorts.flatMap (fun l => leBytes 1 l.1 ++ leBytes 1 l.2.1 ++ leBytes 1 l.2.2) }

/-- Quorum of the component (R439). -/
def State.hasQuorum (s : State) : Bool :=
  let ms := s.members
  let n := (ms.filter (fun m => s.component.contains m)).length
  decide (2 * n > ms.length) || (2 * n == ms.length && (match ms with
    | m :: _ => s.component.contains m
    | [] => false))

/-- The upstream port (R436): the first port of the VC 1 route to the time master. -/
def State.upstream (s : State) : Option Nat :=
  let m := s.get R.GTS_STATUS.TIME_MASTER
  if m = s.myId then none else s.route 1 0 m false

/-- Show leader, quorum, reach and upstream port after a change of links; members that have lost their route are noted
with the tick. -/
def State.relink (s : State) : State :=
  let c := s.component
  let s := (s.put R.GTS_STATUS.LEADER s.leader).putFlag R.GTS_STATUS.QUORUM s.hasQuorum
  let s := s.put64 R.GTS_REACH_LO.N R.GTS_REACH_HI.N (maskOf (c.filter (fun m => decide (m < 64))))
  let s := match s.upstream with
    | some p =>
      let was := s.flag R.GTS_TIME_STATUS.UPVALID && s.get R.GTS_TIME_STATUS.UPPORT == p
      let s := (s.raise R.GTS_TIME_STATUS.UPVALID).put R.GTS_TIME_STATUS.UPPORT p
      if was then s else s.clkUpstream p
    | none => (s.drop R.GTS_TIME_STATUS.UPVALID).drop R.GTS_TIME_STATUS.UPPORT
  let gone := s.members.filter (fun m => !c.contains m)
  { s with gts := { s.gts with
      promoteDue := true
      away := gone.map (fun m => (m, (keyGet s.gts.away m).getD s.dtime))
      lost := s.gts.lost.filter (fun m => !c.contains m) } }

/-- A port came up or went down: the link-state is flooded and the routes follow (R434), and quorum with them (R440). -/
def State.portsChanged (s : State) : State :=
  let s := s.relink
  if !s.inFabric then s
  else s.upPorts.foldl (fun s l => s.sendOn l.1 s.linkStatePacket) s

/-! ### Position tuples on the fabric (R48, R435) -/

/-- The 24 bytes of a position tuple (R48, R429). -/
def tupleBytes (t : Tuple) : List Byte :=
  let f (b : Bool) (k : Nat) : Nat := if b then 2 ^ k else 0
  leBytes 8 t.wpos.toNat ++ leBytes 8 t.dtime.toNat ++ leBytes 4 t.speed.toNat ++ leBytes 2 t.seq.toNat
    ++ leBytes 1 t.src.val ++ leBytes 1 (f t.extrap 0 + f t.takeover 1 + f t.lost 2 + f t.zero 3)

/-- Broadcast a position tuple, or forward another module's. -/
def State.bcastTuple (s : State) (t : Tuple) : State :=
  if s.inFabric then s.sendBcast { type := 0x10, vc := 1, src := t.src.val, bcast := true, payload := tupleBytes t } else s

end Sys2Proof.Machine
end

