-- ==== Sys2Proof/Machine/Position.lean ====
section
/-! DEFINITION. Machine/Position.lean: web position, encoder channels, speed estimation, position tuples and takeover
(spec/02_web_position.md, R24-R53, R506, R507). -/

namespace Sys2Proof.Machine

/-- Channel `i` of E0-E3. -/
def State.chan (s : State) (i : Nat) : PosChan := nth s.pos.chans i {}

/-- Replace channel `i`. -/
def State.setChan (s : State) (i : Nat) (c : PosChan) : State :=
  { s with pos := { s.pos with chans := setNth s.pos.chans i c } }

/-- The source channel (POS_CTL.SOURCE, R38). -/
def State.source (s : State) : Nat := s.get R.POS_CTL.SOURCE

/-- The role in force: 0 standalone, 1 master, 2 follower, 3 standby. -/
def State.role (s : State) : Nat := s.get R.POS_STATUS.ROLE_NOW

/-- A module drives its own WPOS when standalone or master (R507). -/
def State.drives (s : State) : Bool := s.role < 2

/-- The speed v in force (R39, R46): that of the base in force, 0 after POS_LOST. -/
def State.speed (s : State) : Int :=
  if s.flag R.POS_STATUS.POS_LOST then 0
  else match s.pos.base with
    | some b => b.v
    | none => 0

/-- Travel in nm at speed `v` over `dt` ns (R39). -/
def travel (v dt : Int) : Int := tdiv (v * dt) 1000000

/-- The target of a base on tick `t` (R39). -/
def PosBase.target (b : PosBase) (t : Nat) : Int := b.pos + travel b.v (i64 (u64 (t + 18446744073709551616 - b.t)))

/-! ### Reading an encoder (R31-R36) -/

/-- Gray code over `w` bits to binary: bit k of the value is the parity of bits k and above (R36). -/
def grayDecode (w g : Nat) : Nat :=
  (List.range w).foldl (fun a k => a + popCount w (g % 2 ^ w / 2 ^ k) % 2 * 2 ^ k) 0

/-- One step of the CRC-5 of R33, polynomial x^5 + x^2 + 1. -/
def crc5Step (c : Nat) (b : Bool) : Nat :=
  let top := xor (bit c 4) b
  let c := c % 16 * 2
  if top then Nat.xor c 5 else c

/-- CRC-5 over a bit list, first bit first, initial value 0 (R33). -/
def crc5 (bs : List Bool) : Nat := bs.foldl crc5Step 0

/-- The word of `w` bits as a bit list, most significant bit first. -/
def bitsMsb (w n : Nat) : List Bool := (List.range w).map (fun k => bit n (w - 1 - k))

/-- The check of a read frame (R33): CHK 0 none, 1 even parity, 2 odd parity, 3 CRC-5, over the word and the error bit. -/
def chkPasses (chk wordLen : Nat) (errBit : Bool) (word : Nat) (err : Bool) (check : Nat) : Bool :=
  let covered := bitsMsb wordLen word ++ (if errBit then [err] else [])
  let ones := (covered.filter id).length
  match chk with
  | 0 => true
  | 1 => (ones + check % 2) % 2 == 0
  | 2 => (ones + check % 2) % 2 == 1
  | _ => crc5 covered == check % 32

/-- Status of a read (POS_En_WORD_HI.LAST). -/
inductive ReadStatus where
  | good | noresp | chk | errb | jump | stuck
  deriving DecidableEq, Repr

/-- The code of a read status. -/
def ReadStatus.code : ReadStatus → Nat
  | .good => 0 | .noresp => 1 | .chk => 2 | .errb => 3 | .jump => 4 | .stuck => 5

/-- The first failing check of R45: NORESP, then CHK, then ERRB. -/
def frameStatus (s : State) (n : Nat) (ready : Bool) (word : Nat) (err : Bool) (check : Nat) (tail : Bool) : ReadStatus :=
  let errBit := s.flag (R.POS_E_CFG.ERRBIT n)
  if !ready || tail then .noresp
  else if !chkPasses (s.get (R.POS_E_CFG.CHK n)) (s.get (R.POS_E_CFG.WORDLEN n)) errBit word err check then .chk
  else if errBit && err == s.flag (R.POS_E_CFG.ERR_POL n) then .errb
  else .good

/-- A count difference in nm, with the new fraction (R36): e_nm advance and e_frac. -/
def convert (s : State) (n : Nat) (eFrac : Nat) (d : Int) : Int × Nat :=
  let acc : Int := eFrac + d * (s.get (R.POS_E_SCALE_FRAC.N n) : Int)
  (d * (s.get (R.POS_E_SCALE_INT.N n) : Int) + acc / 4294967296, (acc % 4294967296).toNat)

/-- The count difference of a word against c_prev (R34-R36). -/
def countDiff (s : State) (n word cPrev : Nat) : Int :=
  let w := s.get (R.POS_E_CFG.WORDLEN n)
  let d := signed w (word + 2 ^ w - cPrev % 2 ^ w)
  if s.flag (R.POS_E_CFG.DIR_INVERT n) then -d else d

/-! ### Speed estimation (R42-R44) -/

/-- Restart of a channel's estimates (R44): period mode, speeds 0, no history, no anchor. -/
def PosChan.restart (c : PosChan) : PosChan :=
  { c with freqMode := false, vF := 0, vP := 0, v := 0, history := [], anchor := none }

/-- v_f of R42 over a history with the new read at its head; `open_` is the value where two good reads share one latch
time, for which the spec states no quotient. -/
def speedFreq (open_ : Int) (f : Nat) (h : List (Int × Nat)) : Int :=
  match h with
  | [] => 0
  | [_] => 0
  | (e, t) :: _ =>
    let (e0, t0) := nth h (min f (h.length - 1)) (e, t)
    let dt := i64 (u64 (t + 18446744073709551616 - t0))
    if dt = 0 then open_ else sat32 (tdiv ((e - e0) * 1000000) dt)

/-- v_p and the anchor of R43 after a good read (e, t); `open_` stands where the anchor shares the read's latch time. -/
def speedPeriod (s : State) (n : Nat) (open_ : Int) (vP : Int) (anchor : Option (Int × Nat)) (e : Int) (t : Nat) :
    Int × Option (Int × Nat) :=
  match anchor with
  | none => (0, some (e, t))
  | some (e0, t0) =>
    let span := i64 (u64 (t + 18446744073709551616 - t0))
    let pCount : Int := s.get R.POS_SPD_WIN.PCOUNT
    let pNm := (convert s n 0 pCount).1
    if (e - e0).natAbs ≥ pNm.natAbs then
      (if span = 0 then open_ else sat32 (tdiv ((e - e0) * 1000000) span), some (e, t))
    else if span > (s.get R.POS_SPD_WIN.ZERO_MS : Int) * 1000000 then (0, some (e, t))
    else if span = 0 then (open_, some (e0, t0))
    else
      let bound := tdiv (pNm * 1000000) span
      (if (vP.natAbs : Int) > bound then signOf vP * bound else vP, some (e0, t0))

/-- The change-over rule of R44: the new mode, true for frequency. -/
def changeOver (s : State) (freqMode : Bool) (vF vP : Int) : Bool :=
  let vCo : Int := s.get R.POS_SPD_CO.VALUE
  let hyst : Int := s.get R.POS_SPD_HYST.VALUE
  if !freqMode && (vP.natAbs : Int) ≥ vCo + hyst then true
  else if freqMode && (vF.natAbs : Int) < vCo - hyst then false
  else freqMode

/-- Both estimates and the change-over after a good read that left the channel at `c` (SPEED_ESTIMATE, R44). -/
def State.speedUpdate (s : State) (n : Nat) (c : PosChan) : PosChan :=
  let h := ((c.eNm, c.tGood) :: c.history).take 1024
  let vF := speedFreq (signed 32 (Config.freeValue s.free).toNat) (s.get R.POS_SPD_WIN.FREQ_READS) h
  let (vP, a) := speedPeriod s n (signed 32 (Config.freeValue (s.free + 1)).toNat) c.vP c.anchor c.eNm c.tGood
  let m := changeOver s c.freqMode vF vP
  { c with history := h, vF := vF, vP := vP, anchor := a, freqMode := m, v := if m then vF else vP }

/-! ### The base of a read (R38, R39) -/

/-- zero_nm for a base that begins anew on tick `t`, so that its target equals WPOS there (R38). -/
def State.freshZero (s : State) (c : PosChan) (t : Nat) : Int :=
  c.eNm + travel c.v (i64 (u64 (t + 18446744073709551616 - c.tGood))) - i64 s.pos.wpos

/-- The position base of channel `c` under zero_nm `z` (R39). -/
def PosChan.baseOf (c : PosChan) (z : Int) : PosBase := ⟨c.eNm - z, c.tGood, c.v⟩

/-- A good read of the source channel on a module that drives its own WPOS: its base is in force from the next tick
(R39); the first read of a channel that had no base begins one anew (R38). -/
def State.sourceRead (s : State) (fresh : Bool) (c : PosChan) : State :=
  let z := if fresh || s.pos.base.isNone then s.freshZero c (u64 (s.dtime + 4)) else s.pos.zeroNm
  { s with pos := { s.pos with
      zeroNm := z, nextBase := some (c.baseOf z), holdArmed := true, holdStart := s.dtime, lastGood := s.dtime } }

/-- STANDBY_ALIGN (R51): d, its running average and the run of reads within tolerance. DESIGN CHOICE (log entry 60): a
read is judged against the average that it has updated, and the local target is taken under the zero_nm that the module
holds, which a standby's own reads never set. -/
def State.standbyAlign (s : State) (c : PosChan) : State :=
  match s.pos.base with
  | none => s
  | some b =>
    let d := b.target c.tGood - (c.eNm - s.pos.zeroNm)
    let a := s.pos.dAvg + tdiv (d - s.pos.dAvg) 256
    let near : Bool := ((d - a).natAbs : Int) ≤ (s.get R.POS_ALIGN_TOL.VALUE : Int) * 1000
    let run := if near then s.pos.alignRun + 1 else 0
    { s with pos := { s.pos with dAvg := a, alignRun := run } }.putFlag R.POS_STATUS.ALIGNED
      (decide (run ≥ 256) && s.flag R.GTS_CFG.ENABLE)

/-- Count a discarded read in its channel's counter (R37, R45). -/
def State.countRead (s : State) (n : Nat) : ReadStatus → State
  | .good => s
  | .noresp => s.bump (R.POS_E_ERR.NORESP n)
  | .chk => s.bump (R.POS_E_ERR.CHK n)
  | .errb => s.bump (R.POS_E_ERR.ERRB n)
  | .jump => s.bump (R.POS_E_ERR.JUMP n)
  | .stuck => s.bump (R.POS_E_ERR.STUCK n)

/-- A read that was judged: LAST, and EXTRAP of the source (R37, R46). -/
def State.markRead (s : State) (n : Nat) (st : ReadStatus) : State :=
  let s := (s.put (R.POS_E_WORD_HI.LAST n) st.code).countRead n st
  if s.source = n then s.putFlag R.POS_STATUS.EXTRAP (st != .good) else s

/-- The word of a good read as its registers show it. -/
def State.showWord (s : State) (n word : Nat) : State :=
  (s.put (R.POS_E_WORD_LO.N n) word).put (R.POS_E_WORD_HI.WORD n) (word / 4294967296)

/-- A read of the source counts towards the next tuple, which carries DTIME `t` (R48, R49). DESIGN CHOICE (log entry
60): in every role, so that a module that becomes master goes on with the count it has. -/
def State.countToTuple (s : State) (t : Nat) : State :=
  { s with pos := { s.pos with readsSinceTuple := s.pos.readsSinceTuple + 1, readAt := t } }

/-- What a good read that leaves channel `n` at `c` does: registers, source base or standby average. While POS_LOST is 1 it
moves nothing, but the hold interval runs from it (R46). -/
def State.acceptRead (s : State) (n word : Nat) (fresh : Bool) (c : PosChan) : State :=
  let s := ((s.setChan n c).markRead n .good).showWord n word
  if s.source = n then
    let s := s.countToTuple c.tGood
    if s.drives then
      (if s.flag R.POS_STATUS.POS_LOST then { s with pos := { s.pos with holdStart := s.dtime, lastGood := s.dtime } }
        else s.sourceRead fresh c)
    else
      let s := { s with pos := { s.pos with lastGood := s.dtime } }
      if s.role = 3 then s.standbyAlign c else s
  else s

/-- A read requested at DTIME `request` that was discarded (READ_DISCARD, R37); a master in EXTRAP keeps its tuple
cadence, and its tuple carries the request time (R48, R49). -/
def State.discardRead (s : State) (n request : Nat) (st : ReadStatus) : State :=
  let s := s.markRead n st
  if s.source = n then s.countToTuple request else s

/-- ENCODER_READ (R36): one read frame of an enabled channel, from the levels sampled and the DTIME of its latch edge,
which is its request time too. A frame that began before the first request after a commit on the channel is abandoned
(R506). -/
def State.encoderRead (s : State) (n : Nat) (latch : Nat) (ready : Bool) (raw : Nat) (err : Bool) (check : Nat)
    (tail : Bool) : State :=
  if !s.flag (R.POS_E_CFG.ENABLE n) || decide (latch < (s.chan n).readFrom) then s
  else
    let c := s.chan n
    let w := s.get (R.POS_E_CFG.WORDLEN n)
    let tLatch := u64 (latch + 18446744073709551616 - s.get (R.POS_E_LAT.LAT_NS n))
    let word := if s.flag (R.POS_E_CFG.CODE n) then grayDecode w raw else raw % 2 ^ w
    let since := i64 (u64 (tLatch + 18446744073709551616 - c.tGood))
    match frameStatus s n ready (raw % 2 ^ w) err check tail with
    | .good =>
      if !c.haveBase then
        let c := s.speedUpdate n { c with haveBase := true, seen := true, eNm := 0, eFrac := 0, cPrev := word, tGood := tLatch }
        { s with free := s.free + 2 }.acceptRead n word true c
      else if c.rebase then
        let c := s.speedUpdate n { c with
          rebase := false, seen := true, eNm := c.eNm + travel c.v since, cPrev := word, tGood := tLatch }
        { s with free := s.free + 2 }.acceptRead n word false c
      else
        let d := countDiff s n word c.cPrev
        let (adv, frac) := convert s n c.eFrac d
        let bad := decide (d.natAbs ≥ 2147483648)
          || decide ((adv - travel c.v since).natAbs > s.get (R.POS_E_JUMP_TOL.NM n))
        if bad then s.discardRead n latch (if decide (d.natAbs < 2147483648) && word == c.cPrev then .stuck else .jump)
        else
          let c := s.speedUpdate n { c with eNm := c.eNm + adv, eFrac := frac, seen := true, cPrev := word, tGood := tLatch }
          { s with free := s.free + 2 }.acceptRead n word false c
    | st => s.discardRead n latch st

/-- ENCODER_READ (R36). -/
def execEncoderRead (ch : Fin 4) (latch : BitVec 64) (ready : Bool) (word : BitVec 48) (err : Bool) (chk : BitVec 5)
    (tail : Bool) (s : State) : Host.Outcome State Fault Refusal :=
  .next (s.encoderRead ch.val latch.toNat ready word.toNat err chk.toNat tail)

/-! ### The DTIME tick (R24, R39, R40, R70, R461) -/

/-- The base whose first tick this is comes into force (R39). -/
def State.promoteBase (s : State) : State :=
  match s.pos.nextBase with
  | none => s
  | some b => { s with pos := { s.pos with base := some b, nextBase := none, newBase := true } }

/-- The extrapolator of R39 on tick `s.dtime`. -/
def State.extrapolate (s : State) : State :=
  if s.flag R.POS_STATUS.POS_LOST then s
  else match s.pos.base with
    | none => s
    | some b =>
      let target := b.target s.dtime
      if s.pos.takeAsIs then
        { s with pos := { s.pos with wpos := toU64 target, backlog := 0, takeAsIs := false } }
      else if target > i64 s.pos.wpos then { s with pos := { s.pos with wpos := toU64 target, backlog := 0 } }
      else { s with pos := { s.pos with backlog := toU64 (i64 s.pos.wpos - target) } }

/-- REV_EXCESS (R40): the backlog exceeds POS_REV_LIMIT micrometres. -/
def State.revExcess (s : State) : State :=
  if s.pos.backlog > s.get R.POS_REV_LIMIT.VALUE * 1000 then (s.raise R.POS_STATUS.REV_EXCESS).lineStop .position else s

/-- OVERSPEED (R70): while the absolute value of v exceeds PSQ_VMAX. -/
def State.overspeed (s : State) : State :=
  if s.speed.natAbs > s.get R.PSQ_VMAX.VALUE then (s.raise R.PSQ_STATUS.OVERSPEED).lineStop .sequencer
  else s.drop R.PSQ_STATUS.OVERSPEED

/-- NTM_NS advances by one tick under RATE_PPB (R461). -/
def State.ntmTick (s : State) : State :=
  let inc : Int := 17179869184 + tdiv (17179869184 * s.getInt R.NTM_RATE.N) 1000000000
  let acc := u64 (s.ntm.acc + toU64 inc)
  { s with ntm := { s.ntm with ns := u32 (s.ntm.ns + acc / 4294967296), acc := acc % 4294967296 } }

/-! ### Position tuples and takeover (R48-R53) -/

/-- The tuple a master sends (R48): WPOS at the latch time of the last read, or at its request time while EXTRAP is 1; the
position held while there is a backlog (log entry 10), and this tick's with LOST. -/
def State.tupleNow (s : State) (lost : Bool) : Tuple :=
  let ex := s.flag R.POS_STATUS.EXTRAP
  let t := if lost then s.dtime else s.pos.readAt
  { wpos := BitVec.ofNat 64 (match s.pos.nextBase.or s.pos.base with
      | some b => if lost || s.pos.backlog != 0 then s.pos.wpos else toU64 (b.target t)
      | none => s.pos.wpos)
    dtime := BitVec.ofNat 64 t
    speed := BitVec.ofNat 32 (toU32 s.speed)
    seq := BitVec.ofNat 16 s.pos.tupleSeq
    src := Fin.ofNat 64 (s.get R.GTS_CFG.ID)
    extrap := ex
    takeover := decide (s.pos.takeoverLeft > 0)
    lost := lost
    zero := decide (s.pos.zeroLeft > 0) }

/-- Send a tuple: SEQ, and the runs of TAKEOVER and ZERO flags (R41, R49, R52); outside a fabric it reaches no module
(R507). -/
def State.sendTuple (s : State) (lost : Bool) : State :=
  let s := s.bcastTuple (s.tupleNow lost)
  { s with pos := { s.pos with
      tupleSeq := u16 (s.pos.tupleSeq + 1),
      takeoverLeft := s.pos.takeoverLeft - 1, zeroLeft := s.pos.zeroLeft - 1, readsSinceTuple := 0 } }

/-- POS_TUPLE_SEND (R49): a master sends a tuple after every DIV reads of its source. -/
def execPosTupleSend (s : State) : Host.Outcome State Fault Refusal :=
  .next (if s.role = 1 && decide (s.pos.readsSinceTuple ≥ s.get R.POS_BCAST.DIV)
      && !s.flag R.POS_STATUS.POS_LOST && decide (s.pos.readsSinceTuple > 0)
    then s.sendTuple false else s)

/-- A tuple's SEQ is new under R50. -/
def seqNew (last : Option Nat) (seq : Nat) : Bool :=
  match last with
  | none => true
  | some l => let d := u16 (seq + 65536 - l); decide (1 ≤ d) && decide (d ≤ 32767)

/-- An accepted tuple replaces the base (R50); the hold interval runs anew from it. -/
def State.acceptTuple (s : State) (t : Tuple) : State :=
  { s with pos := { s.pos with
      nextBase := some ⟨i64 t.wpos.toNat, t.dtime.toNat, i32 t.speed.toNat⟩
      takeAsIs := s.pos.needZero, needZero := false
      master := some t.src.val, lastSeq := some t.seq.toNat
      lastTuple := s.dtime, holdStart := s.dtime, holdArmed := true
      extrapSince := if t.extrap then some (s.pos.extrapSince.getD s.dtime) else none
      lostTuple := t.lost } }

/-- POS_TUPLE (R50, R53): a TAKEOVER tuple from the module of STANDBY_ID names the new master; otherwise a follower or
standby takes a tuple of the current master whose SEQ is new. A module outside a fabric accepts none (R507), and one
with SYNCED 0 discards them (R438). -/
def State.posTuple (s : State) (t : Tuple) : State :=
  if !s.flag R.GTS_CFG.ENABLE || !s.flag R.GTS_TIME_STATUS.SYNCED then s
  else if t.takeover && t.src.val == s.get R.POS_BCAST.STANDBY_ID && s.pos.master != some t.src.val
      && decide (s.role ≠ 0) && t.src.val != s.get R.GTS_CFG.ID then
    let s := if s.role = 1 then s.put R.POS_STATUS.ROLE_NOW 2 else s
    if s.pos.needZero && !t.zero then { s with pos := { s.pos with master := some t.src.val, lastSeq := some t.seq.toNat } }
    else s.acceptTuple t
  else if s.drives then s
  else if (s.pos.master.isNone || s.pos.master == some t.src.val) && seqNew s.pos.lastSeq t.seq.toNat
      && (!s.pos.needZero || t.zero) then s.acceptTuple t
  else s

/-- POS_TUPLE (R50): a tuple of another module, forwarded along its tree (R435). -/
def execPosTuple (h : Packet) (t : Tuple) (s : State) : Host.Outcome State Fault Refusal :=
  .next (match s.accept h 1 24 with
    | (false, s) => s
    | (true, s) => if t.src.val = s.get R.GTS_CFG.ID then s else (s.bcastTuple t).posTuple t)

/-- The conditions of R52 for an aligned standby to take over. DESIGN CHOICE (log entry 60): a standby with POS_LOST 1 does
not take over, and the FAIL_US of tuples that all carry EXTRAP runs from the arrival of the first of them. -/
def State.takeoverDue (s : State) : Bool :=
  let fail := s.get R.POS_HOLD.FAIL_US * 1000
  s.role == 3 && s.flag R.POS_STATUS.ALIGNED && s.flag R.GTS_CFG.ENABLE && s.flag R.GTS_TIME_STATUS.SYNCED
    && !s.flag R.POS_STATUS.POS_LOST
    && (s.pos.lostTuple || decide (s.dtime ≥ s.pos.lastTuple + fail)
      || match s.pos.extrapSince with
        | some t => decide (s.dtime ≥ t + fail)
        | none => false)

/-- What a takeover does (R52). -/
def State.takeOver (s : State) : State :=
  let c := s.chan s.source
  let z := s.pos.zeroNm - s.pos.dAvg
  let mine := (c.baseOf z).target s.dtime
  let w := if mine > i64 s.pos.wpos then toU64 mine else s.pos.wpos
  let step := w - s.pos.wpos
  let (v, s') := s.draw
  let s := if step < 4294967296 then s else s'
  let s := s.put R.POS_FAILOVER_STEP.N (if step < 4294967296 then step else v.toNat)
  let s := (s.latch R.POS_STATUS.FAILED_OVER).put R.POS_STATUS.ROLE_NOW 1
  { s with pos := { s.pos with
      wpos := w, zeroNm := z, nextBase := some (c.baseOf z), takeoverLeft := 256, lostTuple := false
      master := some (s.get R.GTS_CFG.ID), holdArmed := true, holdStart := s.pos.lastGood } }

/-- TAKEOVER (R52). -/
def execTakeover (s : State) : Host.Outcome State Fault Refusal := .next (if s.takeoverDue then s.takeOver else s)

/-! ### Snapshot and clears -/

/-- POS_SNAP_TAKE (R20): WPOS, DTIME and speed of one tick into the snapshot registers. -/
def State.posSnap (s : State) : State :=
  ((s.put64 R.POS_SNAP_WPOS_LO.N R.POS_SNAP_WPOS_HI.N s.pos.wpos).put64 R.POS_SNAP_DTIME_LO.N
    R.POS_SNAP_DTIME_HI.N s.dtime).put R.POS_SNAP_SPEED.N (toU32 s.speed)

/-- POS_SNAP_TAKE. -/
def execPosSnapTake (s : State) : Host.Outcome State Fault Refusal :=
  .next (s.written R.POS_SNAP_CTL (fun s => s.posSnap))

/-! ### What a commit does to position (R38, R41, R44, R46, R506) -/

/-- A commit changes a register of channel `n`. -/
def chanTouched (old s : State) (n : Nat) : Bool :=
  (List.range 7).any (fun k => old.reg (R.POS_E_CFG n + 4 * k) != s.reg (R.POS_E_CFG n + 4 * k))

/-- A commit enables, disables or changes channel `n` (R506): the registers of a channel that is disabled before it and
after it are not meant. -/
def chanActed (old s : State) (n : Nat) : Bool :=
  (old.flag (R.POS_E_CFG.ENABLE n) || s.flag (R.POS_E_CFG.ENABLE n)) && chanTouched old s n

/-- A commit that changes a channel's registers acts on its read frames and base (R506); `old` is the configuration
before it. The next request follows after the new RECOV. -/
def State.chanCommit (s old : State) (n : Nat) : State :=
  let was := old.flag (R.POS_E_CFG.ENABLE n)
  let now := s.flag (R.POS_E_CFG.ENABLE n)
  let c := s.chan n
  let first := s.dtime + s.get (R.POS_E_TIMING.RECOV n) * 100
  if now && !was then s.setChan n { readFrom := first }
  else if was && now && c.haveBase
      && (old.get (R.POS_E_CFG.WORDLEN n) != s.get (R.POS_E_CFG.WORDLEN n)
        || old.get (R.POS_E_CFG.CODE n) != s.get (R.POS_E_CFG.CODE n)
        || old.get (R.POS_E_CFG.DIR_INVERT n) != s.get (R.POS_E_CFG.DIR_INVERT n)) then
    s.setChan n { c with rebase := true, readFrom := first }
  else if was && now && chanTouched old s n then s.setChan n { c with readFrom := first }
  else s

/-- Begin the source's base anew on this tick (R38), or hold WPOS until its first good read. -/
def State.beginBase (s : State) : State :=
  let c := s.chan s.source
  if c.haveBase then
    let z := s.freshZero c s.dtime
    { s with pos := { s.pos with zeroNm := z, base := some (c.baseOf z), nextBase := none, newBase := true, holdArmed := true } }
  else { s with pos := { s.pos with base := none, nextBase := none } }

/-- EXTRAP as the source channel's last read shows it (R38). -/
def State.extrapOfSource (s : State) : State :=
  s.putFlag R.POS_STATUS.EXTRAP (s.get (R.POS_E_WORD_HI.LAST s.source) != 0)

/-- The change of SOURCE or ROLE by a commit (R38, R46, R50). DESIGN CHOICE (log entry 60): ROLE_NOW changes only where ROLE
differs from the value in force before, so that staging the same ROLE again after a takeover changes nothing. DESIGN CHOICE
(log entry 58): a module whose ROLE_NOW was follower or standby, be it by a takeover (R53), begins its source's base anew when
a commit makes it drive. -/
def State.roleCommit (s old : State) : State :=
  let role := s.get R.POS_CTL.ROLE
  let roleNew := old.get R.POS_CTL.ROLE != role
  let srcNew := old.source != s.source
  let s : State := if roleNew then
      { (s.put R.POS_STATUS.ROLE_NOW role).drop R.POS_STATUS.ALIGNED with pos := { s.pos with master := none } } else s
  let s := if roleNew || (s.drives && (srcNew || chanActed old s s.source)) then
      { s with pos := { s.pos with holdStart := s.dtime } } else s
  let s := if srcNew then s.extrapOfSource else s
  if roleNew && decide (2 ≤ role) then
    { s with pos := { s.pos with
        base := none, nextBase := none, lastSeq := none, extrapSince := none
        lostTuple := false, lastTuple := s.dtime, holdArmed := true, dAvg := 0, alignRun := 0 } }
  else if s.drives && (srcNew || (roleNew && !old.drives)
      || (!(s.chan s.source).haveBase)) then s.beginBase
  else s

/-- REZERO (R41): WPOS 0 on this tick, the backlog, POS_LOST and REV_EXCESS cleared, estimates restarted; REZERO reads
0 afterwards. The hold interval of a module that drives goes on from its last good read; that of a follower or standby
starts anew (R46, R50). DESIGN CHOICE (log entry 60): the base that begins on this tick carries the v that the channel had before
the restart of R44. -/
def State.rezero (s : State) : State :=
  let s := { s with pos := { s.pos with wpos := 0, backlog := 0, holdArmed := false } }
  let s := (s.drop R.POS_STATUS.POS_LOST).drop R.POS_STATUS.REV_EXCESS
  let s := if s.drives then s.beginBase
    else { s with pos := { s.pos with
        base := none, nextBase := none, needZero := true, dAvg := 0, alignRun := 0
        holdArmed := true, holdStart := s.dtime } }.drop R.POS_STATUS.ALIGNED
  let s : State := (List.range 4).foldl (fun (s : State) n =>
      if s.flag (R.POS_E_CFG.ENABLE n) then s.setChan n { (s.chan n).restart with seen := false } else s) s
  let s := if s.role = 1 then { s with pos := { s.pos with zeroLeft := 256 } } else s
  s.drop R.POS_CTL.REZERO

/-- The whole of a commit's effect on position; without GTS_CFG.ENABLE a standby is never aligned (R507). -/
def State.posCommit (s old : State) : State :=
  let s := (List.range 4).foldl (fun s n => s.chanCommit old n) s
  let s := s.roleCommit old
  let s := if s.flag R.GTS_CFG.ENABLE then s else s.drop R.POS_STATUS.ALIGNED
  if s.flag R.POS_CTL.REZERO then s.rezero else s

end Sys2Proof.Machine
end

