-- ==== Sys2Proof/Machine/Eject.lean ====
section
/-! DEFINITION. Machine/Eject.lean: eject frames: edges, lead, merge, delay, the edge queue's count, corrections and
holds, and parts that end (spec/03_position_sequencer.md, R67-R80, R508). -/

namespace Sys2Proof.Machine

/-- A signed difference of two times or positions. -/
def diff64 (a b : Nat) : Int := i64 (u64 (a + 18446744073709551616 - b % 18446744073709551616))

/-- edge() of R68: the DTIME at which the web reaches position `w` under a position base. -/
def PosBase.edge (b : PosBase) (w : Nat) : Nat := u64 (b.t + toU64 (tdiv ((i64 w - b.pos) * 1000000) b.v))

/-- ADV_US of an output in ns (R68). -/
def State.adv (s : State) (q : Nat) : Nat := s.get (R.PSQ_Q_MODE.ADV_US q) * 1000

/-- PULSE_US and MINOFF_US of an output for a frame built on this tick: a pair that this tick has latched applies from the
next one on (R509). -/
def State.pulsePair (s : State) (q : Nat) : Nat × Nat :=
  match s.seq.pulseWas.find? (fun e => e.1 == s.dtime && e.2.1 == q) with
  | some e => e.2.2
  | none => (s.get (R.PSQ_Q_PULSE.PULSE_US q), s.get (R.PSQ_Q_MINOFF.MINOFF_US q))

/-- Note the values of an output before a pair that is latched on this tick, if none is noted yet (R509). -/
def State.notePulse (s : State) (q : Nat) : State :=
  let now := s.seq.pulseWas.filter (fun e => e.1 == s.dtime)
  let p := s.pulsePair q
  { s with seq := { s.seq with
      pulseWas := if now.any (fun e => e.2.1 == q) then now else now ++ [(s.dtime, q, p.1, p.2)] } }

/-- MINOFF_US of an output in ns (R71). -/
def State.minOff (s : State) (q : Nat) : Nat := (s.pulsePair q).2 * 1000

/-- On and off edges of one source under a base (EDGE_ARM, R68, R508). -/
def State.edgesOf (s : State) (b : PosBase) (q : Nat) (e : EdgeSrc) : Nat × Nat :=
  let on := u64 (b.edge e.onPos + 18446744073709551616 - s.adv q)
  (on, match e.offPos with
    | none => u64 (on + e.width)
    | some w => u64 (b.edge w + 18446744073709551616 - s.adv q))

/-- The base in force if its speed lets edges be computed (R68). -/
def State.movingBase (s : State) : Option PosBase :=
  match s.pos.base with
  | none => none
  | some b => if s.flag R.POS_STATUS.POS_LOST || decide (b.v < 1000) then none else some b

/-- The pending frame of an output: the last whose off edge has not fired (R71); one that was cancelled counts until the
field side reports it, for its pulse may complete as held (R77). -/
def State.pendingOf (s : State) (q : Nat) : Option Frame :=
  (s.seq.frames.filter (fun f => f.channel == q && (f.parked || decide (diff64 f.off s.dtime > 0)))).getLast?

/-- Edges pending at the field controller as the sequencer tracks them (R72). -/
def State.edgesPending (s : State) : Nat :=
  s.seq.frames.foldl (fun n f => n + (if f.parked || decide (diff64 f.on s.dtime > 0) then 1 else 0)
    + (if f.parked || decide (diff64 f.off s.dtime > 0) then 1 else 0)) 0

/-- Replace the frame with a tag, and tell the frames delayed behind it its off edge (R78). -/
def State.setFrame (s : State) (f : Frame) : State :=
  { s with seq := { s.seq with frames := s.seq.frames.map (fun g =>
      if g.tag = f.tag then f
      else match g.behind with
        | some (t, _) => if t = f.tag then { g with behind := some (t, f.off) } else g
        | none => g) } }

/-- Set FLAGS bits of a source's part. -/
def State.flagOwner (s : State) (e : EdgeSrc) (k : Nat) : State :=
  match e.owner with
  | none => s
  | some i => s.setPart i ((s.part i).flag k)

/-- ON_DTIME and TAG of a frame's parts, which are ARMED from now (R66, R71). -/
def State.armOwners (s : State) (f : Frame) : State :=
  f.srcs.foldl (fun s e => match e.owner with
    | none => s
    | some i =>
      let p := s.part i
      s.setPart i { p with core := { p.core with state := .armed, tag := f.tag, onDtime := f.on } }) s

/-- EDGE_NEW or EDGE_CORR as sent. -/
def Frame.newMsg (f : Frame) : DownMsg :=
  .edgeNew (Fin.ofNat 16 f.channel) (BitVec.ofNat 16 f.tag) (BitVec.ofNat 64 f.on) (BitVec.ofNat 64 f.off)
def Frame.corrMsg (f : Frame) : DownMsg :=
  .edgeCorr (Fin.ofNat 16 f.channel) (BitVec.ofNat 16 f.tag) (BitVec.ofNat 64 f.on) (BitVec.ofNat 64 f.off)
def Frame.holdMsg (f : Frame) : DownMsg := .edgeHold (Fin.ofNat 16 f.channel) (BitVec.ofNat 16 f.tag)
def Frame.cancelMsg (f : Frame) : DownMsg := .edgeCancel (Fin.ofNat 16 f.channel) (BitVec.ofNat 16 f.tag)

/-- A part whose frame is not sent becomes DONE on this tick (R75). -/
def State.refuse (s : State) (e : EdgeSrc) : State :=
  match e.owner with
  | none => s
  | some i =>
    let p := (s.part i).flag 0
    (s.setPart i { p with core := { p.core with residual := 0 } }).finish i

/-- LEAD_SHORT (R69). -/
def State.leadShort (s : State) (e : EdgeSrc) : State :=
  (((s.bump R.PSQ_CNT_LEAD_SHORT.N).latch R.PSQ_STATUS.LEAD_SHORT).lineStop .sequencer).refuse e

/-- A tag for a new frame: a counter that wraps, past the tags of pending frames (R76). -/
def State.freshTag (s : State) : Nat :=
  ((List.range 65536).find? (fun k => !s.seq.frames.any (fun f => f.tag == (s.seq.nextTag + k) % 65536))).elim
    s.seq.nextTag (fun k => (s.seq.nextTag + k) % 65536)

/-- Send a new frame: the edge queue's count and the lead are tested first (R69, R72, R508). DESIGN CHOICE (log entry 13): a
frame that was delayed counts in PSQ_CNT_DELAYED when it is sent. -/
def State.sendNew (s : State) (q on off : Nat) (e : EdgeSrc) (behind : Option (Nat × Nat)) : State :=
  if diff64 on (e.fired.getD s.dtime) < 502000 then s.leadShort e
  else if s.edgesPending + 2 > 4096 then ((s.latch R.PSQ_STATUS.EDGEQ_FULL).lineStop .sequencer).refuse e
  else
    let tag := s.freshTag
    let f : Frame := { tag := tag, channel := q, srcs := [e], on := on, off := off, behind := behind, minOff := s.minOff q }
    let s := if behind.isSome then s.bump R.PSQ_CNT_DELAYED.N else s
    let s := { s with seq := { s.seq with nextTag := (tag + 1) % 65536, frames := s.seq.frames ++ [f] } }
    (s.armOwners f).sendDown f.newMsg

/-- FRAME_MERGE and FRAME_DELAY (R71), then the tests of sendNew. DESIGN CHOICE (log entry 13): a delayed PULSE keeps its width,
so its off edge moves with its on edge as that of a DURATION output does. -/
def State.offerWith (s : State) (b : PosBase) (q : Nat) (e : EdgeSrc) : State :=
  let (on, off) := s.edgesOf b q e
  let mo := s.minOff q
  match s.pendingOf q with
  | none => s.sendNew q on off e none
  | some g =>
    if diff64 on (u64 (g.off + mo)) ≥ 0 then s.sendNew q on off e none
    else if diff64 g.off s.dtime ≥ 102000 then
      let o := if diff64 off g.off > 0 then off else g.off
      let g' := { g with srcs := g.srcs ++ [e], off := o }
      let s := (s.setFrame g').flagOwner e 1
      ((s.armOwners g').bump R.PSQ_CNT_MERGED.N).sendDown g'.corrMsg
    else
      let s := s.flagOwner e 2
      let on := u64 (g.off + mo)
      let off := if e.offPos.isNone then u64 (on + e.width) else off
      if diff64 off on ≤ 0 then (s.lineStop .sequencer).refuse e
      else s.sendNew q on off e (some (g.tag, g.off))

/-- Offer a frame for an output (R68): it waits while no edges can be computed. -/
def State.offer (s : State) (q : Nat) (e : EdgeSrc) : State :=
  match s.movingBase with
  | none => { s with seq := { s.seq with waiting := s.seq.waiting ++ [(q, e)] } }
  | some b => s.offerWith b q e

/-! ### Decision and arming (R67) -/

/-- The source of a part's edges. DESIGN CHOICE (log entry 13): a frame that waits for speed keeps the DURATION and PULSE_US of
the DECISION tick. -/
def State.partSrc (s : State) (i : Nat) (p : Part) : EdgeSrc :=
  let c := p.core
  { owner := some i
    onPos := u64 (c.origin + c.onOff)
    offPos := if s.flag (R.PSQ_Q_MODE.DURATION c.channel) then none else some (u64 (c.origin + c.offOff))
    width := (s.pulsePair c.channel).1 * 1000 }

/-- The eject of a part with a verdict arms (R67). -/
def ejectArms (eject code : Nat) : Bool := (eject == 1 && code != 0) || (eject == 2 && code == 0)

/-- A part's DECISION (R67): the verdict, and the eject frame or the record. -/
def State.decide_ (s : State) (i : Nat) : State :=
  let s := s.assignVerdict i
  let p := s.part i
  if ejectArms (s.get (R.PSQ_LANE_CFG.EJECT p.core.lane)) (p.core.verdict.getD 7) then
    let s := s.setPart i { p with core := { p.core with arms := true } }
    s.offer p.core.channel (s.partSrc i p)
  else s.finish i

/-- A part's EJECT_PASS on this tick (R73). DESIGN CHOICE (log entry 13): before the part's DECISION there is no ON_DTIME, and
nothing is recorded. -/
def State.ejectPass (s : State) (i : Nat) : State :=
  let p := s.part i
  match p.core.state with
  | .armed =>
    let r := clampInt (diff64 s.dtime (u64 (p.core.onDtime + s.adv p.core.channel))) (-2147483648) 2147483647
    let s := s.setPart i { p with core := { p.core with residual := r } }
    (s.loftValue (16 + p.core.channel) r p.core.id).loftValue (32 + p.core.channel) r p.core.id
  | .decided =>
    match s.seq.waiting.find? (fun w => w.2.owner == some i) with
    | none => s
    | some w =>
      let s := { s with seq := { s.seq with waiting := s.seq.waiting.filter (· != w) } }
      s.leadShort w.2
  | _ => s

/-! ### Corrections (R78) -/

/-- The edges of a pending frame under a base: those of its first source, the latest off edge of all merged into it, and
for a delayed frame the later on edge. -/
def State.recomputed (s : State) (b : PosBase) (f : Frame) : Nat × Nat :=
  match f.srcs with
  | [] => (f.on, f.off)
  | e :: es =>
    let (on0, off0) := s.edgesOf b f.channel e
    let on := match f.behind with
      | none => on0
      | some (_, o) => if diff64 (u64 (o + f.minOff)) on0 > 0 then u64 (o + f.minOff) else on0
    let off1 := if e.offPos.isNone then u64 (on + e.width) else off0
    (on, es.foldl (fun o x => let o' := (s.edgesOf b f.channel x).2
      if diff64 o' o > 0 then o' else o) off1)

/-- An edge may be corrected: both the value last sent and the new one lie at least 102 µs ahead. -/
def State.correctable (s : State) (old new : Nat) : Bool :=
  decide (diff64 old s.dtime ≥ 102000) && decide (diff64 new s.dtime ≥ 102000)

/-- One frame under a new base (EDGE_CORR_SEND, EDGE_HOLD_SEND): EDGE_HOLD is sent once for a run of slow bases. -/
def State.correct (s : State) (f : Frame) : State :=
  if f.cancelled then s
  else match s.movingBase with
    | none =>
      if f.held || decide (diff64 f.off s.dtime ≤ 0) then s
      else (s.setFrame { f with parked := true, held := true }).sendDown f.holdMsg
    | some b =>
      let f := { f with held := false }
      let (on, off) := s.recomputed b f
      let th : Int := s.get R.PSQ_CORR.THRESH_NS
      if f.parked then
        let f' := { f with on := on, off := off, parked := decide (diff64 on s.dtime < 500000) }
        ((s.setFrame f').armOwners f').sendDown f'.corrMsg
      else
        let cOn := s.correctable f.on on
        let cOff := s.correctable f.off off
        if (cOn && decide (((diff64 on f.on).natAbs : Int) ≥ th)) || (cOff && decide (((diff64 off f.off).natAbs : Int) ≥ th)) then
          let f' := { f with on := if cOn then on else f.on, off := if cOff then off else f.off }
          ((s.setFrame f').armOwners f').sendDown f'.corrMsg
        else s.setFrame f

/-- Frames that waited for speed are offered, in the order in which they came (R68). -/
def State.offerWaiting (s : State) : State :=
  match s.movingBase with
  | none => s
  | some b =>
    let ws := s.seq.waiting
    ws.foldl (fun s w => s.offerWith b w.1 w.2) { s with seq := { s.seq with waiting := [] } }

/-- EDGE_RECOMPUTE (R78): on a new position base, every pending frame, then the waiting ones. -/
def execEdgeRecompute (s : State) : Host.Outcome State Fault Refusal :=
  .next (if !s.pos.newBase then s
    else
      let s := { s with pos := { s.pos with newBase := false } }
      let s := (s.seq.frames.map (·.tag)).foldl (fun s t => match s.seq.frames.find? (fun f => f.tag == t) with
        | some f => s.correct f
        | none => s) s
      s.offerWaiting)

/-! ### The end of a frame (R74, R75, R80) -/

/-- Every part of a frame becomes DONE, and the frame leaves the pending set. -/
def State.endFrame (s : State) (f : Frame) : State :=
  let s := { s with seq := { s.seq with frames := s.seq.frames.filter (fun g => g.tag != f.tag) } }
  f.srcs.foldl (fun s e => match e.owner with
    | some i => if (s.part i).core.state != .free then s.finish i else s
    | none => s) s

/-- Every part of a frame takes a FLAGS bit. -/
def State.flagFrame (s : State) (f : Frame) (k : Nat) : State := f.srcs.foldl (fun s e => s.flagOwner e k) s

/-- A frame that the field side holds no pulse for: its parts become DONE with EJECT_MISSED and RESIDUAL 0 (R75, R411). -/
def State.missFrame (s : State) (f : Frame) : State :=
  let s : State := (f.srcs.filterMap (·.owner)).foldl (fun s i =>
    let p := s.part i
    s.setPart i { p with core := { p.core with residual := 0 } }) (s.flagFrame f 0)
  s.endFrame f

/-- EDGE_REPORT_TIMEOUT (R74): no report within 2 ms after a frame's off edge last sent. DESIGN CHOICE (log entry 13): a parked
frame waits for its report, also once it is cancelled under R80, for it has no off edge from which the 2 ms could run. -/
def execEdgeReportTimeout (s : State) : Host.Outcome State Fault Refusal :=
  .next (match s.seq.frames.find? (fun f => !f.parked && decide (diff64 s.dtime f.off ≥ 2000000)) with
    | none => s
    | some f => (s.flagFrame f 5).endFrame f)

/-- One part at loss of position (R80). DESIGN CHOICE (log entry 13): an ARMED part shows the flag POS_LOST from this tick on. -/
def State.lossOf (s : State) (i : Nat) : State :=
  let p := s.part i
  match p.core.state with
  | .opened | .closed =>
    let p := p.flag 3
    (s.setPart i { p with core := { p.core with verdict := some 7 } }).finish i
  | .decided =>
    let s := { s with seq := { s.seq with waiting := s.seq.waiting.filter (fun w => w.2.owner != some i) } }
    (s.setPart i ((p.flag 0).flag 3)).finish i
  | .armed => s.setPart i (p.flag 3)
  | _ => s

/-- Parts in flight and pending frames on the tick POS_LOST is raised (R80, R508): every pending frame, a PULSE's too,
receives EDGE_CANCEL. DESIGN CHOICE (log entry 13): a PULSE that still waits for speed is dropped without a count. -/
def State.partsLost (s : State) : State :=
  let s := s.liveParts.foldl (fun s i => s.lossOf i) s
  let s := { s with seq := { s.seq with waiting := [] } }
  (s.seq.frames.filter (fun f => !f.cancelled)).foldl (fun s f =>
    (s.setFrame { f with cancelled := true }).sendDown f.cancelMsg) s

/-- The hold interval has run out without a good source read or an accepted tuple (R46, R50). -/
def State.holdDueNow (s : State) : Bool :=
  let hold := s.get R.POS_HOLD.HOLD_US * 1000
  let since := if s.drives then s.pos.holdStart else Nat.max s.pos.holdStart s.pos.lastTuple
  s.pos.holdArmed && !s.flag R.POS_STATUS.POS_LOST && decide (s.dtime ≥ since + hold)

/-- What loss of position does (R46, R49, R80): every channel's estimates restart (R44), POS_SNAP_SPEED reads 0, and a master
sends one tuple that carries LOST. -/
def State.losePosition (s : State) : State :=
  let m := s.role == 1
  let s := ((s.raise R.POS_STATUS.POS_LOST).lineStop .position).partsLost
  let s : State := (List.range 4).foldl (fun (s : State) n => s.setChan n (s.chan n).restart) s
  let s := if m then s.sendTuple true else s
  { s.put R.POS_SNAP_SPEED.N 0 with pos := { s.pos with nextBase := none, newBase := false } }

/-- POS_LOST (R46). -/
def execPosLost (s : State) : Host.Outcome State Fault Refusal := .next (if s.holdDueNow then s.losePosition else s)

end Sys2Proof.Machine
end

