-- ==== Sys2Proof/Machine/Field.lean ====
section
/-! DEFINITION. Machine/Field.lean: the field controller and its link: frames, the edge queue, outputs, inputs, states
and line stop (spec/19_field_side.md, R407-R423). Each frame row takes the frame's contents and takes the frame out of
the link's queue where it stands there. -/

namespace Sys2Proof.Machine

/-! ### Frames on the links (R76, R408) -/

/-- A frame of 24 bytes: TYPE, bytes 1-19, SEQ and the CRC over bytes 0-21 (R76, R408). -/
def frameBytes (type seq : Nat) (body : List Byte) : List Byte :=
  let h := leBytes 1 type ++ (body ++ List.replicate (19 - body.length) 0).take 19 ++ leBytes 2 seq
  h ++ leBytes 2 (crc16 h)

/-- The bytes of a downlink frame (R76 for the eject frames, R408 for the others). -/
def DownFrame.bytes (f : DownFrame) : List Byte :=
  let edge (type : Nat) (c : Fin 16) (t : BitVec 16) (on off : Nat) : List Byte :=
    frameBytes type f.seq (leBytes 1 c.val ++ leBytes 2 t.toNat ++ leBytes 8 on ++ leBytes 8 off)
  let flag (b : Bool) : Nat := if b then 1 else 0
  match f.msg with
  | .edgeNew c t on off => edge 0x01 c t on.toNat off.toNat
  | .edgeCorr c t on off => edge 0x02 c t on.toNat off.toNat
  | .edgeHold c t => edge 0x03 c t 0 0
  | .edgeCancel c t => edge 0x04 c t 0 0
  | .heartbeat run d => frameBytes 0x10 f.seq (leBytes 1 (flag run) ++ leBytes 2 0 ++ leBytes 8 d.toNat)
  | .outCfg c m safe openEn ovl =>
    frameBytes 0x11 f.seq (leBytes 1 c.val ++ leBytes 1 (m.val + 4 * flag safe + 8 * flag openEn) ++ leBytes 1 0
      ++ leBytes 2 ovl.toNat)
  | .outSet l => frameBytes 0x12 f.seq (leBytes 3 0 ++ leBytes 2 l.toNat)
  | .lsSet run => frameBytes 0x13 f.seq (leBytes 1 (flag run))
  | .resume => frameBytes 0x14 f.seq []
  | .inCfg n filt func => frameBytes 0x15 f.seq (leBytes 1 n.val ++ leBytes 2 filt.toNat ++ leBytes 1 func.val)

/-- The bytes of an uplink frame (R408). -/
def UpFrame.bytes (f : UpFrame) : List Byte :=
  let flag (b : Bool) : Nat := if b then 1 else 0
  match f.msg with
  | .edgeDone c r t on off =>
    frameBytes 0x81 f.seq (leBytes 1 (c.val + 16 * r.val) ++ leBytes 2 t.toNat ++ leBytes 8 on.toNat ++ leBytes 8 off.toNat)
  | .reject r t q m => frameBytes 0x82 f.seq (leBytes 1 r.val ++ leBytes 2 t.toNat ++ leBytes 2 q.toNat ++ leBytes 2 m.toNat)
  | .status st ins fl sup temp a b n hb =>
    frameBytes 0x83 f.seq (leBytes 1 st.val ++ leBytes 2 ins.toNat ++ leBytes 4 fl.toNat ++ leBytes 2 sup.toNat
      ++ leBytes 1 temp.toNat ++ leBytes 1 (flag a + 2 * flag b) ++ leBytes 2 n.toNat ++ leBytes 2 hb.toNat)
  | .inputEdge n l d => frameBytes 0x84 f.seq (leBytes 1 n.val ++ leBytes 1 (flag l) ++ leBytes 1 0 ++ leBytes 8 d.toNat)

/-- A received frame is good: 24 bytes whose CRC holds (R410). -/
def frameGood (b : List Byte) : Bool := b.length == 24 && fieldAt b 22 2 == crc16 (b.take 22)

/-- What stands on the downlink, frame by frame. -/
def State.downBytes (s : State) : List (List Byte) := s.link.down.map (·.bytes)

/-- What stands on the uplink, frame by frame. -/
def State.upBytes (s : State) : List (List Byte) := s.link.up.map (·.bytes)

/-! ### The field controller -/

/-- Send a frame up with the next SEQ (R408); with the logic-side rails off nothing takes it. -/
def State.sendUp (s : State) (m : UpMsg) : State :=
  { s with
    field := { s.field with upSeq := u16 (s.field.upSeq + 1) }
    link := { s.link with up := if s.boot.power then s.link.up ++ [⟨s.field.upSeq, m⟩] else s.link.up } }

/-- Output `q` at the field controller. -/
def State.out (s : State) (q : Nat) : OutSt := nth s.field.outs q {}

/-- Replace output `q`. -/
def State.setOut (s : State) (q : Nat) (o : OutSt) : State :=
  { s with field := { s.field with outs := setNth s.field.outs q o } }

/-- The output may drive its load: not latched off, the field supply is there, and the controller is held up (R417, R418,
R492). -/
def State.canDrive (s : State) (o : OutSt) : Bool := s.field.powered && !o.overload && !o.overtemp && !s.field.supplyLow

/-- The level at the pin (R416, R418, R420). -/
def State.outLevel (s : State) (q : Nat) : Bool :=
  let o := s.out q
  s.canDrive o && (match s.field.mode with
    | .boot => false
    | .safe => o.safe
    | .run => match o.mode with
      | 1 => o.pulseOn
      | 2 => o.static
      | _ => false)

/-- What the level at the pin of output `q` brings with it (R417): since when it has been on, and that OPEN_OFF, which is reported
while present, ends with the test current. -/
def State.settleOut (s : State) (q : Nat) : State :=
  let o := s.out q
  let on := s.outLevel q
  let openOff := o.openOff && o.openEn && !on
  let t := s.setOut q { o with
    onFrom := if on then (if o.onFrom.isSome then o.onFrom else some s.field.ftime) else none
    pulsed := o.pulsed && (!on || o.onFrom.isSome), openOff := openOff }
  if o.openOff && !openOff then t.onRails (fun s => s.drop (R.FLD_Q_STATUS.OPEN_OFF q)) else t

/-- The same for every output. -/
def State.settleOuts (s : State) : State := (List.range 16).foldl (fun (s : State) q => s.settleOut q) s

/-- LS_A and LS_B are energised (R419). -/
def State.lsEnergised (s : State) : Bool :=
  s.field.powered && s.field.mode == .run && s.field.lsRun && !s.field.supplyLow && !s.field.lsFaultHold

/-- Follow the conditions of R419 to the line-stop outputs. -/
def State.driveLs (s : State) : State := { s with field := { s.field with lsOn := s.lsEnergised } }

/-- Edge-queue entries in use (R413). -/
def State.edgeqUsed (s : State) : Nat :=
  s.field.pulses.foldl (fun n p => n + (if p.onFired.isSome then 1 else 2)) 0

/-- Report a rejected frame (R410). -/
def State.rejectUp (s : State) (reason tag seq missing : Nat) : State :=
  s.sendUp (.reject (Fin.ofNat 16 reason) (BitVec.ofNat 16 tag) (BitVec.ofNat 16 seq) (BitVec.ofNat 16 missing))

/-- Take a good downlink frame with SEQ `seq` off the link: a gap is reported first, then the frame is judged (R410). -/
def State.receive (s : State) (seq : Nat) (m : DownMsg) : State :=
  let miss := u16 (seq + 65536 - s.field.expSeq)
  let s := { s with link := { s.link with down := s.link.down.erase ⟨seq, m⟩ } }
  let s := if miss = 0 then s else s.rejectUp 2 0 s.field.expSeq miss
  { s with field := { s.field with expSeq := u16 (seq + 1) } }

/-- The lowest reject reason that applies to an EDGE_NEW; MODE comes first (R410). -/
def State.newReason (s : State) (ch tag on off : Nat) : Option Nat :=
  let f := s.field
  if f.mode != .run || (s.out ch).mode != 1 then some 9
  else if diff64 on f.ftime < 500000 then some 3
  else if diff64 off on ≤ 0 then some 4
  else if f.pulses.any (fun p => p.tag == tag) then some 6
  else if s.edgeqUsed + 2 > 4096 then some 7
  else if f.pulses.any (fun p => p.channel == ch && !p.parked && decide (diff64 on p.off < 0) && decide (diff64 off p.on > 0))
    then some 8
  else none

/-- EDGE_NEW at the field controller (R77). -/
def State.fieldNew (s : State) (seq ch tag on off : Nat) : State :=
  match s.newReason ch tag on off with
  | some r => s.rejectUp r tag seq 0
  | none =>
    let s := { s with field := { s.field with pulses := s.field.pulses ++ [({ channel := ch, tag := tag, on := on, off := off } : Pulse)] } }
    s.onRails (fun s => s.peak R.FLD_EDGEQ.PEAK s.edgeqUsed)

/-- EDGE_NEW (R77). -/
def execEdgeNew (seq : BitVec 16) (channel : Fin 16) (tag : BitVec 16) (on off : BitVec 64) (s : State) :
    Host.Outcome State Fault Refusal :=
  .next ((s.receive seq.toNat (.edgeNew channel tag on off)).fieldNew seq.toNat channel.val tag.toNat on.toNat off.toNat)

/-- The correction window of an edge is open (R77). -/
def State.windowOpen (s : State) (t : Nat) : Bool := decide (diff64 t s.field.ftime ≥ 100000)

/-- The pulse of a tag, for an edge frame of a channel in MODE 1; else the reason of the reject (R410). -/
def State.pulseFor (s : State) (ch tag : Nat) : Nat ⊕ Pulse :=
  if s.field.mode != .run || (s.out ch).mode != 1 then .inl 9
  else match s.field.pulses.find? (fun p => p.tag == tag) with
    | none => .inl 5
    | some p => .inr p

/-- Replace the pulse of a tag. -/
def State.setPulse (s : State) (p : Pulse) : State :=
  { s with field := { s.field with pulses := s.field.pulses.map (fun x => if x.tag == p.tag then p else x) } }

/-- EDGE_CORR at the field controller (R77). -/
def State.fieldCorr (s : State) (seq ch tag on off : Nat) : State :=
  match s.pulseFor ch tag with
  | .inl r => s.rejectUp r tag seq 0
  | .inr p =>
    if p.parked then
      if diff64 on s.field.ftime < 500000 then s.rejectUp 3 tag seq 0
      else if diff64 off on ≤ 0 then s.rejectUp 4 tag seq 0
      else s.setPulse { p with on := on, off := off, parked := false }
    else
      let a := p.onFired.isNone && s.windowOpen p.on && s.windowOpen on
      let b := s.windowOpen p.off && s.windowOpen off
      let on' := if a then on else p.on
      let off' := if b then off else p.off
      if diff64 off' on' ≤ 0 then s.rejectUp 4 tag seq 0
      else if !a && !b then s.rejectUp 10 tag seq 0
      else s.setPulse { p with on := on', off := off' }

/-- EDGE_CORR (R77). -/
def execEdgeCorr (seq : BitVec 16) (channel : Fin 16) (tag : BitVec 16) (on off : BitVec 64) (s : State) :
    Host.Outcome State Fault Refusal :=
  .next ((s.receive seq.toNat (.edgeCorr channel tag on off)).fieldCorr seq.toNat channel.val tag.toNat on.toNat off.toNat)

/-- The on window of a pulse is open; that of a parked one always is (R77). -/
def State.onOpen (s : State) (p : Pulse) : Bool := p.parked || (p.onFired.isNone && s.windowOpen p.on)

/-- EDGE_HOLD (R77). -/
def execEdgeHold (seq : BitVec 16) (channel : Fin 16) (tag : BitVec 16) (s : State) : Host.Outcome State Fault Refusal :=
  let s := s.receive seq.toNat (.edgeHold channel tag)
  .next (match s.pulseFor channel.val tag.toNat with
    | .inl r => s.rejectUp r tag.toNat seq.toNat 0
    | .inr p => if s.onOpen p then s.setPulse { p with parked := true } else s.rejectUp 10 tag.toNat seq.toNat 0)

/-- Report a pulse whose edges did not both fire, CANCELLED or FLUSHED: the time of an edge that did not is left open, and LATE is
added where its on edge fired late (R415). -/
def State.reportUnfired (s : State) (p : Pulse) (result : Nat) : State :=
  let (a, s) := s.draw
  let (b, s) := s.draw
  s.sendUp (.edgeDone (Fin.ofNat 16 p.channel) (Fin.ofNat 16 (result + (if p.late then 8 else 0))) (BitVec.ofNat 16 p.tag)
    ((p.onFired.map (BitVec.ofNat 64)).getD a) b)

/-- EDGE_CANCEL (R77, R409, R415). -/
def execEdgeCancel (seq : BitVec 16) (channel : Fin 16) (tag : BitVec 16) (s : State) : Host.Outcome State Fault Refusal :=
  let s := s.receive seq.toNat (.edgeCancel channel tag)
  .next (match s.pulseFor channel.val tag.toNat with
    | .inl r => s.rejectUp r tag.toNat seq.toNat 0
    | .inr p =>
      if s.onOpen p then
        { s with field := { s.field with pulses := s.field.pulses.filter (fun x => x.tag != p.tag) } }.reportUnfired p 3
      else s.rejectUp 10 tag.toNat seq.toNat 0)

/-- The output flags of STATUS, two bits a channel (R408). -/
def State.outFlags (s : State) : Nat :=
  (List.range 16).foldl (fun a q =>
    let o := s.out q
    a + (if o.overload then 1 else if o.overtemp then 2 else if o.openOff || o.openOn then 3 else 0) * 4 ^ q) 0

/-- Codes of FSTATE (R420). -/
def FieldMode.code : FieldMode → Nat
  | .boot => 0 | .run => 1 | .safe => 2

/-- Confirmed input levels. -/
def State.inLevels (s : State) : Nat := maskOf ((List.range 16).filter (fun n => (nth s.field.ins n {}).level))

/-- The field controller's STATUS frame (R408, R409). -/
def State.sendStatus (s : State) : State :=
  let f := s.field
  s.sendUp (.status (Fin.ofNat 4 f.mode.code) (BitVec.ofNat 16 s.inLevels) (BitVec.ofNat 32 s.outFlags)
    (BitVec.ofNat 16 f.supply) (BitVec.ofNat 8 f.temp) f.lsBackA f.lsBackB (BitVec.ofNat 16 s.edgeqUsed)
    (BitVec.ofNat 16 f.lastHbSeq))

/-- FTIME_STEP (R412): the last sync edge is judged against the DTIME that its HEARTBEAT carries. -/
def State.judgeSync (s : State) (dt : Nat) : State :=
  match s.field.syncEdge with
  | none => s
  | some e =>
    let d := diff64 dt e
    if d.natAbs ≤ 1000 then
      let t := u64 (s.field.ftime + toU64 d)
      let jump := if d > 0 then some (s.field.ftime, t) else if d < 0 then none else s.field.jump
      { s with field := { s.field with ftime := t, syncEdge := none, lastSync := some t, jump := jump } }
    else { s with field := { s.field with syncEdge := none } }.onRails (fun s => s.bump R.FLD_CNT_SYNC_REJ.N)

/-- Pulses flushed on entry to SAFE are reported when HEARTBEATs return (R420). -/
def State.reportFlushed (s : State) : State :=
  let fl := s.field.flushed
  fl.foldl (fun s x => s.reportUnfired x 4) { s with field := { s.field with flushed := [] } }

/-- HEARTBEAT (R412, R419, R420): `measured` is what the controller measures for the STATUS that answers it (R408). -/
def execHeartbeat (seq : BitVec 16) (beat : Beat) (measured : Measured) (s : State) : Host.Outcome State Fault Refusal :=
  let s := s.receive seq.toNat (.heartbeat beat.run beat.dtime)
  let s := s.judgeSync beat.dtime.toNat
  let s := { s with field := { s.field with
    lastHb := some s.field.ftime, lastHbSeq := seq.toNat, lsRun := beat.run
    supply := measured.supply.toNat, temp := measured.temp.toNat, lsBackA := measured.lsA, lsBackB := measured.lsB } }
  .next ((s.reportFlushed.driveLs).sendStatus)

/-- A channel that drives a pulse is cut off (R415). -/
def State.cutPulses (s : State) (q : Nat) : State :=
  let ps := s.field.pulses.map (fun p => if p.channel == q && p.onFired.isSome && p.drove then { p with cut := true } else p)
  { s with field := { s.field with pulses := ps } }

/-- OUT_CFG (R416): entries already queued are kept. -/
def execOutCfg (seq : BitVec 16) (channel : Fin 16) (mode : Fin 4) (safe openEn : Bool) (ovlUs : BitVec 16) (s : State) :
    Host.Outcome State Fault Refusal :=
  let s := s.receive seq.toNat (.outCfg channel mode safe openEn ovlUs)
  let q := channel.val
  let s := if mode.val != 1 then s.cutPulses q else s
  let o := s.out q
  .next ((s.setOut q { o with
    mode := mode.val, safe := safe, openEn := openEn, ovlUs := ovlUs.toNat
    pulseOn := o.pulseOn && mode.val == 1
    openNow := o.openNow && o.mode == mode.val }).settleOut q)

/-- OUT_SET (R416); in SAFE it is held until RESUME (R420). -/
def execOutSet (seq : BitVec 16) (level : BitVec 16) (s : State) : Host.Outcome State Fault Refusal :=
  let s := s.receive seq.toNat (.outSet level)
  .next ((List.range 16).foldl (fun (s : State) q =>
    let b := bit level.toNat q
    if s.field.mode == .safe then s.setOut q { s.out q with heldStatic := some b }
    else (s.setOut q { s.out q with static := b, openNow := (s.out q).openNow && (b || (s.out q).mode != 2) }).settleOut q) s)

/-- LS_SET (R419): RUN 1 ends the hold after LS_FAULT. -/
def execLsSet (seq : BitVec 16) (run : Bool) (s : State) : Host.Outcome State Fault Refusal :=
  let s := s.receive seq.toNat (.lsSet run)
  .next ({ s with field := { s.field with lsRun := run, lsFaultHold := s.field.lsFaultHold && !run } }.driveLs)

/-- RESUME (R420): SAFE to RUN, if a good HEARTBEAT came within the last 200 µs. -/
def execResume (seq : BitVec 16) (s : State) : Host.Outcome State Fault Refusal :=
  let s := s.receive seq.toNat .resume
  let recent : Bool := match s.field.lastHb with
    | some t => decide (diff64 s.field.ftime t ≤ 200000)
    | none => false
  .next (if s.field.mode == .safe && recent then
      let s : State := (List.range 16).foldl (fun (s : State) q =>
        let o := s.out q
        s.setOut q { o with static := o.heldStatic.getD o.static, heldStatic := none }) s
      { s with field := { s.field with mode := .run } }.settleOuts.driveLs
    else s)

/-- IN_CFG (R422). -/
def execInCfg (seq : BitVec 16) (input : Fin 16) (filtUs : BitVec 16) (func : Fin 4) (s : State) :
    Host.Outcome State Fault Refusal :=
  let s := s.receive seq.toNat (.inCfg input filtUs func)
  let i := nth s.field.ins input.val {}
  let past := ((s.field.ftime, i.filtUs) :: i.past).filter (fun e => decide (diff64 s.field.ftime e.1 ≤ 65536000))
  .next { s with field := { s.field with
    ins := setNth s.field.ins input.val { i with filtUs := filtUs.toNat, func := func.val, past := past } } }

/-- DOWNLINK_BAD_FRAME (R410): a frame arrives with a bad CRC. It is discarded and reported with the SEQ expected, which
stays expected: the next good frame follows a gap. -/
def execDownlinkBadFrame (s : State) : Host.Outcome State Fault Refusal :=
  let s := { s with link := { s.link with down := s.link.down.drop 1 } }
  .next (s.rejectUp 1 0 s.field.expSeq 0)

/-! ### Firing (R414, R415) -/

/-- FTIME has stepped forward past `t`, which is so found already due (R414). -/
def State.jumpedPast (s : State) (t : Nat) : Bool :=
  match s.field.jump with
  | some (a, b) => decide (diff64 t a > 0) && decide (diff64 b t > 0)
  | none => false

/-- An entry due at `t` fires on the present tick at `t`, or late at FTIME: the time as fired and LATE. -/
def State.firedAt (s : State) (t : Nat) : Nat × Bool :=
  if diff64 s.field.ftime t < 4 && !s.jumpedPast t then (t, false) else (s.field.ftime, true)

/-- Fire the on edge of a pulse. -/
def State.fireOn (s : State) (p : Pulse) : State :=
  let fired := s.firedAt p.on
  let o := s.out p.channel
  let drive := s.canDrive o && o.mode == 1
  let s := s.setPulse { p with onFired := some fired.1, late := fired.2, drove := drive }
  if drive then s.setOut p.channel { o with pulseOn := true, openNow := false } else s

/-- RESULT of a pulse whose edges both fired (R415). -/
def Pulse.result (p : Pulse) (late : Bool) : Nat :=
  (if !p.drove then 1 else if p.cut then 2 else 0) + (if p.late || late then 8 else 0)

/-- Fire the off edge of a pulse, and report it. -/
def State.fireOff (s : State) (p : Pulse) : State :=
  let fired := s.firedAt p.off
  let s := { s with field := { s.field with pulses := s.field.pulses.filter (fun x => x.tag != p.tag) } }
  let s := s.setOut p.channel { s.out p.channel with pulseOn := false, openNow := false, pulsed := p.drove && !p.cut }
  s.sendUp (.edgeDone (Fin.ofNat 16 p.channel) (Fin.ofNat 16 (p.result fired.2)) (BitVec.ofNat 16 p.tag)
    (BitVec.ofNat 64 (p.onFired.getD p.on)) (BitVec.ofNat 64 fired.1))

/-- The time of a pulse's next edge. -/
def Pulse.nextAt (p : Pulse) : Nat := if p.onFired.isSome then p.off else p.on

/-- The entry due first: least time; of two that fall due together an off edge goes before an on edge, so that the on
entry governs the pin (R414). -/
def State.dueEdge (s : State) : Option Pulse :=
  (s.field.pulses.filter (fun p => !p.parked && decide (diff64 s.field.ftime p.nextAt ≥ 0))).foldl
    (fun (b : Option Pulse) p => match b with
      | none => some p
      | some m => if diff64 p.nextAt m.nextAt < 0 || (p.nextAt == m.nextAt && p.onFired.isSome && m.onFired.isNone)
        then some p else b) none

/-- Fire every due entry, at most `n`. -/
def State.fireDue (s : State) : Nat → State
  | 0 => s
  | n + 1 => match s.dueEdge with
    | none => s
    | some p => (if p.onFired.isSome then s.fireOff p else s.fireOn p).fireDue n

/-- EDGE_FIRE (R414): every entry whose DTIME FTIME has reached; the queue holds 4,096. -/
def execEdgeFire (s : State) : Host.Outcome State Fault Refusal := .next (s.fireDue 4096).settleOuts

/-! ### Losses and faults at the field side -/

/-- Entry to SAFE (R15, R420): outputs to their SAFE bits, line-stop outputs off, the edge queue flushed. -/
def State.enterSafe (s : State) : State :=
  let s := { s with field := { s.field with
    mode := .safe, pulses := [], flushed := s.field.flushed ++ s.field.pulses, lastHb := none } }
  let s : State := (List.range 16).foldl (fun (s : State) q => s.setOut q { s.out q with pulseOn := false, openNow := false }) s
  s.settleOuts.driveLs

/-- HEARTBEAT_LOSS (R15, R420): 2 ms without a good HEARTBEAT; a controller that is in SAFE already does not enter it. -/
def execHeartbeatLoss (s : State) : Host.Outcome State Fault Refusal :=
  .next (match s.field.lastHb with
    | none => s
    | some t =>
      if s.field.mode == .run && decide (diff64 s.field.ftime t ≥ 2000000) then
        s.enterSafe.onRails (fun s => s.bump R.FLD_CNT_HB_LOSS.N)
      else s)

/-- A fault of an output shows at the logic side, whose rails are on, and is counted there (R417). -/
def State.outFault (s : State) (q : Nat) (show_ : State → State) : State :=
  s.onRails (fun s => (show_ s).bump (R.FLD_Q_FAULTS.N q))

/-- Cut an output off: its pulse is CUT and no longer drives. -/
def State.cutOut (s : State) (q : Nat) (o : OutSt) : State :=
  ((s.cutPulses q).setOut q { o with pulseOn := false, openNow := false }).settleOut q

/-- OVERLOAD (R417): the current of a driven output was at the limit for OVL_US; the channel is latched off. -/
def execOverload (ch : Fin 16) (s : State) : Host.Outcome State Fault Refusal :=
  let q := ch.val
  .next (if !s.outLevel q then s
    else (s.cutOut q { s.out q with overload := true }).outFault q (fun s => s.latch (R.FLD_Q_STATUS.OVERLOAD q)))

/-- OVERTEMP (R417): the switch is above its junction limit (`hot`), latched off; or it has cooled below 130 °C, which
lets a clear take effect. -/
def execOvertemp (ch : Fin 16) (hot : Bool) (s : State) : Host.Outcome State Fault Refusal :=
  let q := ch.val
  let o := s.out q
  .next (if !hot then s.setOut q { o with hot := false }
    else if o.hot then s
    else (s.cutOut q { o with overtemp := true, hot := true }).outFault q (fun s => s.latch (R.FLD_Q_STATUS.OVERTEMP q)))

/-- OPEN_OFF (R417): with OPEN_EN and the output off, reported while present; no change of drive. -/
def execOpenOff (ch : Fin 16) (here : Bool) (s : State) : Host.Outcome State Fault Refusal :=
  let q := ch.val
  let o := s.out q
  .next (if here then
      if o.openEn && !s.outLevel q && !o.openOff then
        (s.setOut q { o with openOff := true }).outFault q (fun s => s.raise (R.FLD_Q_STATUS.OPEN_OFF q))
      else s
    else (s.setOut q { o with openOff := false }).onRails (fun s => s.drop (R.FLD_Q_STATUS.OPEN_OFF q)))

/-- An output has been on for a whole pulse, or for 1 ms (R417). -/
def State.onEnough (s : State) (o : OutSt) : Bool :=
  o.pulsed || (match o.onFrom with
    | some t => decide (diff64 s.field.ftime t ≥ 1000000)
    | none => false)

/-- OPEN_ON (R417): an output on for a whole pulse or 1 ms with current below 5 mA throughout. -/
def execOpenOn (ch : Fin 16) (s : State) : Host.Outcome State Fault Refusal :=
  let q := ch.val
  let o := s.out q
  .next (if !s.onEnough o then s
    else (s.setOut q { o with openOn := true, openNow := s.outLevel q, pulsed := false }).outFault q
      (fun s => s.latch (R.FLD_Q_STATUS.OPEN_ON q)))

/-- SUPPLY_LOW (R418): every output is undriven, LS_A and LS_B too (R419), and cause FIELD is set. -/
def execSupplyLow (s : State) : Host.Outcome State Fault Refusal :=
  let s := { s with field := { s.field with supplyLow := true } }
  let s : State := (List.range 16).foldl (fun (s : State) q => s.cutOut q (s.out q)) s
  .next (s.driveLs.onRails (fun s => (s.raise R.FLD_STATUS.SUPPLY_LOW).lineStop .field))

/-- FIELD_SUPPLY_RETURN (R418, R419). -/
def execFieldSupplyReturn (s : State) : Host.Outcome State Fault Refusal :=
  .next ({ s with field := { s.field with supplyLow := false } }.settleOuts.driveLs.onRails
    (fun s => s.drop R.FLD_STATUS.SUPPLY_LOW))

/-- LS_FAULT (R419): the readback of a line-stop output differed from its commanded state for 1 ms. -/
def execLsFault (s : State) : Host.Outcome State Fault Refusal :=
  .next ({ s with field := { s.field with lsFaultHold := true } }.driveLs.onRails
    (fun s => (s.latch R.FLD_STATUS.LS_FAULT).lineStop .field))

/-- FILT_US for a level change first sampled at `first`: that of its first sample, whatever IN_CFG came since (R422). -/
def InSt.filtAt (i : InSt) (first : Nat) : Nat :=
  ((i.past.reverse.find? (fun e => decide (diff64 e.1 first ≥ 0))).map (·.2)).getD i.filtUs

/-- INPUT_CONFIRM (R422): a new level has held for FILT_US since its first sample at FTIME `first`. -/
def execInputConfirm (input : Fin 16) (level : Bool) (first : BitVec 64) (s : State) : Host.Outcome State Fault Refusal :=
  let n := input.val
  let i := nth s.field.ins n {}
  .next (if i.level == level || decide (diff64 s.field.ftime first.toNat < (i.filtAt first.toNat * 1000 : Nat)) then s
    else
      let s := { s with field := { s.field with ins := setNth s.field.ins n { i with level := level } } }
      let s := s.onRails (fun s =>
        (s.bump (R.FLD_I_EDGES.N n)).put64 (R.FLD_I_LAST_DTIME_LO.N n) (R.FLD_I_LAST_DTIME_HI.N n) first.toNat)
      s.sendUp (.inputEdge input level first))

/-! ### The logic side -/

/-- Take an uplink frame off the link. -/
def State.takeUplink (s : State) (seq : Nat) (m : UpMsg) : State :=
  { s with link := { s.link with up := s.link.up.erase ⟨seq, m⟩ } }

/-- SYNC_EDGE_SEND (R407, R409): at each DTIME multiple of 100,000, a sync edge and the HEARTBEAT that carries it; the edge does not
come out while the test access port has the isolator pins (R503). -/
def execSyncEdgeSend (s : State) : Host.Outcome State Fault Refusal :=
  .next (if s.boot.power && s.dtime % 100000 = 0 && s.link.lastSyncDtime != some s.dtime then
      let s := { s with
        field := { s.field with syncEdge := if s.pinsTaken then s.field.syncEdge else some s.field.ftime }
        link := { s.link with lastSyncDtime := some s.dtime } }
      s.sendDown (.heartbeat s.runNow (BitVec.ofNat 64 s.dtime))
    else s)

/-- The inputs set to stop the line stop it at the levels reported (R422). -/
def State.inputStops (s : State) : Bool :=
  (List.range 16).any (fun n => match s.get (R.FLD_I_CFG.FUNC n) with
    | 1 => bit s.link.inputs n
    | 2 => !bit s.link.inputs n
    | _ => false)

/-- Set cause INPUT while an input asks for it. -/
def State.judgeInputs (s : State) : State := if s.inputStops then s.lineStop .input else s

/-- STATUS at the logic side (R420, R421). -/
def execStatus (seq : BitVec 16) (fstate : Fin 4) (inputs : BitVec 16) (outFlags : BitVec 32) (supply : BitVec 16)
    (temp : BitVec 8) (lsA lsB : Bool) (queued : BitVec 16) (hbSeq : BitVec 16) (s : State) :
    Host.Outcome State Fault Refusal :=
  let left : Bool := fstate.val == 2 && s.link.lastFstate == 1
  .next ((s.takeUplink seq.toNat (.status fstate inputs outFlags supply temp lsA lsB queued hbSeq)).onRails (fun s =>
    let s := { s with link := { s.link with
      lastStatus := some s.dtime, lastFstate := fstate.val, lastStatusHb := some hbSeq.toNat, inputs := inputs.toNat } }
    let s := (s.put R.FLD_SUPPLY.SUPPLY supply.toNat).put R.FLD_SUPPLY.TEMP temp.toNat
    let s := if left then s.lineStop .heartbeat else s
    s.judgeInputs))

/-- INPUT_EDGE at the logic side (R422). -/
def execInputEdge (seq : BitVec 16) (input : Fin 16) (level : Bool) (dtime : BitVec 64) (s : State) :
    Host.Outcome State Fault Refusal :=
  let m := s.link.inputs
  let m := if bit m input.val == level then m else if level then m + 2 ^ input.val else m - 2 ^ input.val
  .next ((s.takeUplink seq.toNat (.inputEdge input level dtime)).onRails (fun s =>
    { s with link := { s.link with inputs := m } }.judgeInputs))

/-- UPLINK_CRC_ERROR (R410): an uplink frame arrives with a bad CRC and is discarded. -/
def execUplinkCrcError (s : State) : Host.Outcome State Fault Refusal :=
  .next (s.onRails (fun s => { s with link := { s.link with up := s.link.up.drop 1 } }.bump R.FLD_CNT_UP_CRC.N))

/-- No STATUS frame has arrived in the last 2 ms (R421). -/
def State.uplinkSilent (s : State) : Bool :=
  match s.link.lastStatus with
  | some t => decide (diff64 s.dtime t ≥ 2000000)
  | none => decide (s.dtime ≥ 2000000)

/-- UPLINK_LOST (R421). -/
def execUplinkLost (s : State) : Host.Outcome State Fault Refusal :=
  .next (if s.boot.power && s.uplinkSilent then (s.latch R.FLD_STATUS.UPLINK_LOST).lineStop .field else s)

/-! ### EDGE_DONE and acoustic confirmation (R415, R425) -/

/-- Frames of an input that lie wholly inside a window, without GAP (R425). -/
def State.windowFrames (s : State) (input lo hi : Nat) : List Feature :=
  (s.aud.feats.filter (fun f => f.1 == input && !f.2.gap && decide (diff64 f.2.start lo ≥ 0) && decide (diff64 hi f.2.stop ≥ 0))).map (·.2)

/-- The end of the acoustic window of a pulse of output `q` whose on edge fired at `on`. -/
def State.acEnd (s : State) (q on : Nat) : Nat :=
  u64 (on + (s.get (R.AUD_AC_CFG.DELAY_US q) + s.get (R.AUD_AC_WIN.WIN_US q)) * 1000)

/-- The judgement of R425: counters, and AC_OK for the parts given, or AC_FAIL. -/
def State.acJudge (s : State) (q on : Nat) (parts : List Nat) : State :=
  let lo := u64 (on + s.get (R.AUD_AC_CFG.DELAY_US q) * 1000)
  let fs := s.windowFrames (s.get (R.AUD_AC_CFG.INPUT q)) lo (s.acEnd q on)
  let thr := s.get (R.AUD_AC_THR.N q)
  let ok := fs.any (fun f => f32Ge (nth f.bands (s.get (R.AUD_AC_CFG.BAND q)) 0).toNat thr)
  let s := if fs.isEmpty then s.bump R.AUD_CNT_NOFRAME.N else s
  let s := if ok then s.bump R.AUD_CNT_AC_OK.N else s.bump R.AUD_CNT_AC_FAIL.N
  parts.foldl (fun s i => let p := s.part i
    s.setPart i { p with vd := { p.vd with acOk := ok, acFail := !ok } }) s

/-- AC_JUDGE (R425): the oldest window that has closed since its pulse was reported. Its records are posted already. -/
def execAcJudge (s : State) : Host.Outcome State Fault Refusal :=
  .next (match s.link.acWindows.find? (fun w => decide (diff64 s.dtime (s.acEnd w.1 w.2.1) ≥ 0)) with
    | none => s
    | some w => { s with link := { s.link with acWindows := s.link.acWindows.erase w } }.acJudge w.1 w.2.1 [])

/-- Confirmation at the report of a pulse: judged here if the window has closed, else later, and the records then carry
neither flag (R425). -/
def State.acReport (s : State) (q on : Nat) (parts : List Nat) : State :=
  if !s.flag (R.AUD_AC_CFG.ENABLE q) then s
  else if diff64 s.dtime (s.acEnd q on) ≥ 0 then s.acJudge q on parts
  else
    let s := parts.foldl (fun s _ => s.bump R.AUD_CNT_AC_LATE.N) s
    { s with link := { s.link with acWindows := s.link.acWindows ++ [(q, on, parts)] } }

/-- EDGE_DONE at the sequencer (R74, R80, R415). -/
def execEdgeDone (seq : BitVec 16) (channel : Fin 16) (result : Fin 16) (tag : BitVec 16) (on off : BitVec 64) (s : State) :
    Host.Outcome State Fault Refusal :=
  let r := result.val % 8
  .next ((s.takeUplink seq.toNat (.edgeDone channel result tag on off)).onRails (fun s =>
    let s := if r = 0 then s.bump (R.FLD_Q_PULSES.N channel.val) else s
    match s.seq.frames.find? (fun f => f.tag == tag.toNat) with
    | none => s
    | some f =>
      let parts := f.srcs.filterMap (·.owner)
      let s := if r = 0 then s.acReport channel.val on.toNat parts else s
      let s := if r = 1 || r = 2 || r = 4 || (r = 3 && f.cancelled) then s.flagFrame f 0 else s
      s.endFrame f))

/-! ### Rejects and retransmission (R410, R411) -/

/-- The tag an edge frame names. -/
def DownMsg.tag? : DownMsg → Option Nat
  | .edgeNew _ t _ _ => some t.toNat
  | .edgeCorr _ t _ _ => some t.toNat
  | .edgeHold _ t => some t.toNat
  | .edgeCancel _ t => some t.toNat
  | _ => none

/-- Two control frames of one kind, and for OUT_CFG and IN_CFG of one channel (R410). -/
def DownMsg.sameKind : DownMsg → DownMsg → Bool
  | .outCfg c _ _ _ _, .outCfg d _ _ _ _ => c == d
  | .outSet _, .outSet _ => true
  | .lsSet _, .lsSet _ => true
  | .inCfg c _ _, .inCfg d _ _ => c == d
  | .edgeCorr _ t _ _, .edgeCorr _ u _ _ => t == u
  | _, _ => false

/-- OUT_CFG and IN_CFG with the registers in force (R416, R422). -/
def State.outCfgMsg (s : State) (q : Nat) : DownMsg :=
  .outCfg (Fin.ofNat 16 q) (Fin.ofNat 4 (s.get (R.FLD_Q_CFG.MODE q))) (s.flag (R.FLD_Q_CFG.SAFE q))
    (s.flag (R.FLD_Q_CFG.OPEN_EN q)) (BitVec.ofNat 16 (s.get (R.FLD_Q_CFG.OVL_US q)))
def State.inCfgMsg (s : State) (n : Nat) : DownMsg :=
  .inCfg (Fin.ofNat 16 n) (BitVec.ofNat 16 (s.get (R.FLD_I_CFG.FILT_US n))) (Fin.ofNat 4 (s.get (R.FLD_I_CFG.FUNC n)))

/-- The last STATUS within 200 µs names a HEARTBEAT that was sent (R420). -/
def State.resumeOk (s : State) : Bool :=
  (match s.link.lastStatus with
   | some t => decide (diff64 s.dtime t ≤ 200000)
   | none => false)
  && (match s.link.lastStatusHb with
   | some q => s.link.sent.any (fun f => f.1.seq == q && (match f.1.msg with
      | .heartbeat _ _ => true
      | _ => false))
   | none => false)

/-- A frame of this kind was sent after the frame with SEQ `q`; `sent` is newest first. -/
def laterSent (sent : List (DownFrame × SentMark)) (q : Nat) (m : DownMsg) : Bool :=
  (sent.takeWhile (fun f => f.1.seq != q)).any (fun f => f.1.msg.sameKind m)

/-- The frame that may be resent in place of `f` (R410), or none. -/
def State.ringResend (s : State) (f : DownFrame) : Option DownMsg :=
  let ahead (t : Nat) : Bool := decide (diff64 t s.dtime ≥ 102000)
  let later := laterSent s.link.sent f.seq f.msg
  match f.msg with
  | .heartbeat _ _ => none
  | .outCfg c _ _ _ _ => if later then none else some (s.outCfgMsg c.val)
  | .outSet _ => if later then none else some (.outSet (BitVec.ofNat 16 (s.get R.FLD_OUT_SET.LEVEL)))
  | .lsSet _ => if later then none else some (.lsSet s.runNow)
  | .inCfg c _ _ => if later then none else some (s.inCfgMsg c.val)
  | .resume => if s.link.lastFstate == 2 && s.resumeOk then some .resume else none
  | .edgeNew c t on off => if diff64 on.toNat s.dtime ≥ 502000 then some (.edgeNew c t on off) else none
  | .edgeCorr c t on off =>
    if !later && (ahead on.toNat || ahead off.toNat) then some (.edgeCorr c t on off) else none
  | .edgeHold c t => match s.seq.frames.find? (fun g => g.tag == t.toNat) with
    | some g =>
      if ahead g.on || s.field.pulses.any (fun p => p.tag == t.toNat && p.parked) then some (.edgeHold c t) else none
    | none => none
  | .edgeCancel c t => match s.seq.frames.find? (fun g => g.tag == t.toNat) with
    | some g => if ahead g.on || g.parked then some (.edgeCancel c t) else none
    | none => none

/-- A rejected edge frame (R411): counted, cause FIELD; the parts of an EDGE_NEW are EJECT_MISSED and DONE, and so are those of a
frame of which the field holds no pulse while its off edge is not yet due: that of a parked one has no time (R77). -/
def State.edgeRejected (s : State) (m : DownMsg) (reason : Nat) : State :=
  match m.tag? with
  | none => s
  | some t =>
    let fr := s.seq.frames.find? (fun f => f.tag == t)
    let isNew : Bool := match m with
      | .edgeNew _ _ _ _ => true
      | _ => false
    let s := if reason = 10 && !isNew then s else (s.bump R.FLD_CNT_REJECT.N).lineStop .field
    match fr with
    | none => s
    | some f =>
      if isNew || (reason = 5 && (f.parked || decide (diff64 f.off s.dtime > 0))) then s.missFrame f
      else match m with
        | .edgeHold _ _ => s.setFrame { f with parked := false }
        | .edgeCorr _ _ _ _ => if reason = 3 then s.setFrame { f with parked := true } else s
        | _ => s

/-- Give the frame with SEQ `q` a standing. -/
def State.markSent (s : State) (q : Nat) (m : SentMark) : State :=
  { s with link := { s.link with sent := s.link.sent.map (fun f => if f.1.seq == q then (f.1, m) else f) } }

/-- RETRANSMIT (R410) of the frame with SEQ `q`: at most once, with a new SEQ; an edge frame that may not be sent again is
rejected. -/
def State.retransmit (s : State) (q : Nat) : State :=
  match s.link.sent.find? (fun f => f.1.seq == q) with
  | none => s
  | some (_, .named) => s
  | some (f, mark) =>
    match if mark = .again then none else s.ringResend f with
    | none => (s.markSent q .named).edgeRejected f.msg 1
    | some m =>
      let n := s.link.downSeq
      (((s.markSent q .named).sendDown m).markSent n .again).bump R.FLD_CNT_RETX.N

/-- REJECT at the logic side (R410, R411). -/
def execReject (seq : BitVec 16) (reason : Fin 16) (tag : BitVec 16) (frameSeq : BitVec 16) (missing : BitVec 16) (s : State) :
    Host.Outcome State Fault Refusal :=
  .next ((s.takeUplink seq.toNat (.reject reason tag frameSeq missing)).onRails (fun s => match reason.val with
    | 1 => s.retransmit frameSeq.toNat
    | 2 => (List.range missing.toNat).foldl (fun s k => s.retransmit (u16 (frameSeq.toNat + k))) s
    | r => match s.link.sent.find? (fun f => f.1.seq == frameSeq.toNat) with
      | some f => s.edgeRejected f.1.msg r
      | none => s))

/-! ### Client writes (R416, R420, R423) -/

/-- The bits of FLD_LS_CAUSE whose condition holds (R423): a clear of them has no effect. -/
def State.causeHolds (s : State) : Nat :=
  let f (b : Bool) (k : Nat) : Nat := if b then 2 ^ k else 0
  f (s.flag R.POS_STATUS.POS_LOST || s.flag R.POS_STATUS.REV_EXCESS) 2 + f (s.flag R.PSQ_STATUS.OVERSPEED) 3
    + f ((List.range 16).any (fun c => s.flag (R.CXP_CAM_CFG.STOP_ON_LOSS c) && s.get (R.CXP_CAM_STATUS.STATE c) == 5)) 4
    + f (s.flag R.SDG_STATUS.ALARM || s.flag R.SDG_STATUS.LOCKSTEP || s.flag R.SDG_STATUS.LP_KAL_FAIL) 5
    + f (s.flag R.FLD_STATUS.SUPPLY_LOW || s.flag R.FLD_STATUS.LS_FAULT || s.uplinkSilent) 7 + f s.inputStops 8
    + f ((s.clk.lostStop && s.flag R.CLK_STATUS.SRC_LOST) || s.clk.alarmed.any id) 10

/-- The write of a mask to FLD_LS_CAUSE. -/
def State.clearCauses (s : State) (mask : Nat) : State :=
  let old := s.get R.FLD_LS_CAUSE.CAUSE
  s.setCauses (maskOf ((setBits 11 old).filter (fun k =>
    !bit mask k || bit s.causeHolds k || bit (s.get R.FLD_LS_CAUSE.CAUSE.onTick) k)))

/-- LS_CAUSE_CLEAR (R423). -/
def execLsCauseClear (mask : BitVec 11) (s : State) : Host.Outcome State Fault Refusal :=
  .next (s.written R.FLD_LS_CAUSE (fun s => s.clearCauses mask.toNat))

/-- FLD_STOP (R423): FLD_CTL.STOP written 1. -/
def execFldStop (s : State) : Host.Outcome State Fault Refusal :=
  .next (s.written R.FLD_CTL (fun s => s.lineStop .client))

/-- What FLD_CTL.RESUME does (R420, R422): both configuration frames for every channel, then RESUME. -/
def State.fldResume (s : State) : State :=
  if s.resumeOk then
    let s : State := (List.range 16).foldl (fun (s : State) q => s.sendDown (s.outCfgMsg q)) s
    let s : State := (List.range 16).foldl (fun (s : State) n => s.sendDown (s.inCfgMsg n)) s
    s.sendDown .resume
  else s

/-- FLD_RESUME (R420). -/
def execFldResume (s : State) : Host.Outcome State Fault Refusal :=
  .next (s.written R.FLD_CTL (fun s => s.fldResume))

/-- What a write of FLD_OUT_SET does (R416). -/
def State.outSetWrite (s : State) (level : Nat) : State :=
  (s.put R.FLD_OUT_SET.LEVEL level).sendDown (.outSet (BitVec.ofNat 16 level))

/-- FLD_OUT_SET_WRITE (R416). -/
def execFldOutSetWrite (level : BitVec 16) (s : State) : Host.Outcome State Fault Refusal :=
  .next (s.written R.FLD_OUT_SET (fun s => s.outSetWrite level.toNat))

/-- A clear of an output's latched faults (R417): it has no effect while the condition persists (R8). Whether an output
that has stayed on since its OPEN_ON still carries less than 5 mA is a free value. -/
def State.clearOutFaults (s : State) (q mask : Nat) : State :=
  let o := s.out q
  let s := if bit mask 0 && !s.setNow (R.FLD_Q_STATUS.OVERLOAD q) then (s.setOut q { o with overload := false }).drop (R.FLD_Q_STATUS.OVERLOAD q) else s
  let o := s.out q
  let s := if bit mask 1 && !o.hot && !s.setNow (R.FLD_Q_STATUS.OVERTEMP q) then (s.setOut q { o with overtemp := false }).drop (R.FLD_Q_STATUS.OVERTEMP q) else s
  let s := s.settleOut q
  let o := s.out q
  if !bit mask 3 || s.setNow (R.FLD_Q_STATUS.OPEN_ON q) then s
  else
    let (x, s) := s.draw
    if o.openNow && s.outLevel q && x.getLsbD 0 then s
    else (s.setOut q { o with openOn := false }).drop (R.FLD_Q_STATUS.OPEN_ON q)

/-- What a commit sends to the field side (R422): the frames of the channels whose configuration changed, and an input's
new FUNC. -/
def State.fieldCommit (s old : State) : State :=
  let s : State := (List.range 16).foldl (fun (s : State) q =>
    if old.reg (R.FLD_Q_CFG q) = s.reg (R.FLD_Q_CFG q) then s else s.sendDown (s.outCfgMsg q)) s
  let s : State := (List.range 16).foldl (fun (s : State) n =>
    if old.reg (R.FLD_I_CFG n) = s.reg (R.FLD_I_CFG n) then s else s.sendDown (s.inCfgMsg n)) s
  if (List.range 16).any (fun n => old.reg (R.FLD_I_CFG n) != s.reg (R.FLD_I_CFG n)) then s.judgeInputs else s

end Sys2Proof.Machine
end

