-- ==== Sys2Proof/Machine/Images.lean ====
section
/-! DEFINITION. Machine/Images.lean: the load checks of program images, weight sets, and the place of a file in an image
area (spec/11_program_images.md, R234-R239, R258; spec/17_staging_commit.md, R380). -/

namespace Sys2Proof.Machine

/-- Every byte of a range of a byte string is 0. -/
def zeroIn (bs : List Byte) (i n : Nat) : Bool := (sliceBytes bs i n).all (· == 0)

/-- A number rounded up to a multiple of 8. -/
def round8 (n : Nat) : Nat := (n + 7) / 8 * 8

/-! ### Signers (R236, R237, R484) -/

/-- A signer: its hash, its Ed25519 key, its ML-DSA-65 key and MANAGE. -/
structure Signer where
  hash : List Byte
  ed : List Byte
  ml : List Byte
  manage : Bool
  deriving DecidableEq, Repr

/-- The entries of a signer-list file (R484). -/
def signersOf (f : List Byte) : List Signer :=
  (List.range (fieldAt f 4 4)).map (fun i =>
    let e := sliceBytes f (16 + 2024 * i) 2024
    ⟨e.take 32, sliceBytes e 40 32, sliceBytes e 72 1952, bit (fieldAt e 32 1) 0⟩)

/-- Both signatures of a signature block over a digest verify (R237). -/
def Signer.verifies (g : Signer) (digest block : List Byte) : Bool :=
  Config.ed25519Verify g.ed digest (sliceBytes block 32 64) && Config.mldsaVerify g.ml digest (sliceBytes block 96 3309)

/-! ### Sections (R235) -/

/-- A section: type, offset and length in the body. -/
structure Section where
  type : Nat
  off : Nat
  len : Nat
  deriving DecidableEq, Repr

/-- The section table of a body. -/
def sectionsOf (b : List Byte) : List Section :=
  (List.range (fieldAt b 16 2)).map (fun i =>
    ⟨fieldAt b (256 + 16 * i) 2, fieldAt b (264 + 16 * i) 8, fieldAt b (260 + 16 * i) 4⟩)

/-- Offset and length of the section of a type, 0 and 0 without one. -/
def secOf (ss : List Section) (t : Nat) : Nat × Nat := match ss.find? (fun x => x.type == t) with
  | some x => (x.off, x.len)
  | none => (0, 0)

/-- Bytes of the section of a type. -/
def secBytes (b : List Byte) (t : Nat) : List Byte :=
  let (o, n) := secOf (sectionsOf b) t
  sliceBytes b o n

/-! ### Records (R241-R252) -/

/-- A head record: its offset in LISTS, its bytes and its continuation records. -/
structure Rec where
  off : Nat
  head : List Byte
  cont : List Byte
  deriving DecidableEq, Repr

def Rec.type (r : Rec) : Nat := fieldAt r.head 0 1
def Rec.nd (r : Rec) : Bool := bit (fieldAt r.head 1 1) 0
def Rec.pp (r : Rec) : Bool := bit (fieldAt r.head 1 1) 1

/-- The records of LISTS from offset `o` on. -/
def recordsOf : Nat → Nat → List Byte → List Rec
  | 0, _, _ => []
  | f + 1, o, bs =>
    if bs.length < 32 then []
    else
      let h := bs.take 32
      let n := fieldAt h 3 1
      ⟨o, h, (bs.drop 32).take (32 * n)⟩ :: recordsOf f (o + 32 * (1 + n)) (bs.drop (32 * (1 + n)))

/-- NEXT as TYPE fixes it; VMACW alone takes a second continuation (R241, R245). -/
def Rec.nextOk (r : Rec) : Bool :=
  let n := fieldAt r.head 3 1
  r.cont.length == 32 * n && (match r.type with
    | 1 => n == 1
    | 2 => n == (if fieldAt r.head 8 1 = 0x0A then 2 else 1)
    | _ => n == 0)

/-- Positions of PARAM that a vector operation names (R245). -/
def paramNamed (op bkind t : Nat) : List Nat :=
  let span (a n : Nat) : List Nat := (List.range n).map (fun i => a + i)
  match op with
  | 0x07 => span 0 8
  | 0x08 => (if bkind = 2 then span 0 4 else []) ++ [8]
  | 0x09 => span 8 4
  | 0x0A => span 0 8 ++ span 8 (3 * t)
  | 0x0B => span 0 4
  | 0x0D => span 8 5
  | 0x0E => span 0 5 ++ span 6 2
  | 0x12 => if bkind = 2 then span 0 4 else []
  | 0x13 => span 0 2
  | 0x14 => span 0 2
  | _ => []

/-- Reserved bytes of a record are 0 (R241-R252). -/
def Rec.reservedOk (r : Rec) : Bool :=
  let h := r.head
  let z (i n : Nat) : Bool := zeroIn h i n
  decide (fieldAt h 1 1 < 4) && (match r.type with
  | 0 => z 8 24
  | 1 => fieldAt h 10 1 / 16 == 0 && z 11 1 && zeroIn r.cont 10 2 && zeroIn r.cont 22 10
  | 2 =>
    let param := r.cont.drop 16
    let named := paramNamed (fieldAt h 8 1) (fieldAt h 10 1 / 32 % 4) (fieldAt param 0 1)
    fieldAt h 11 1 / 64 == 0 && zeroIn r.cont 10 6
      && (List.range param.length).all (fun i => named.contains i || zeroIn param i 1)
  | 3 => fieldAt h 8 1 / 16 == 0 && z 9 1
  | 4 => z 11 5 && z 24 8
  | 5 => z 11 5 && z 24 8
  | 6 => z 25 1 && z 28 4
  | 7 => z 9 1 && z 16 16
  | 8 => z 8 8 && z 28 4
  | _ => z 8 24)

/-- MAXDUR under R241. -/
def Rec.maxdurOk (r : Rec) : Bool :=
  let d := fieldAt r.head 4 2
  if r.type = 1 || r.type = 2 || r.type = 3 then decide (1 ≤ d) && decide (d ≤ 25000) else d == 0

/-- Format codes 0-10 (R242). -/
def Rec.formatsOk (r : Rec) : Bool :=
  let nib (i : Nat) : Bool := decide (fieldAt r.head i 1 % 16 ≤ 10) && decide (fieldAt r.head i 1 / 16 ≤ 10)
  match r.type with
  | 1 => nib 9 && decide (fieldAt r.head 10 1 % 16 ≤ 10)
  | 2 => nib 9
  | _ => true

/-- LIVE_IDX lies inside LIVE with PP, and is 0 without (R241). -/
def Rec.liveOk (r : Rec) (liveLen : Nat) : Bool :=
  let i := fieldAt r.head 6 2
  if r.pp then decide (i * 16 + 16 ≤ liveLen) else i == 0

/-- Check 5 of R258 on one record. -/
def Rec.ok (r : Rec) (liveLen : Nat) : Bool :=
  decide (r.type ≤ 9) && r.nextOk && r.reservedOk && r.maxdurOk && r.formatsOk && r.liveOk liveLen

/-- ROUND of a command is SR_FREE (R248). -/
def Rec.srFree (r : Rec) : Bool :=
  (r.type == 1 && fieldAt r.head 8 1 / 64 == 2) || (r.type == 2 && fieldAt r.head 10 1 % 4 == 2)

/-! ### Core maps (R253) -/

/-- A map as it lies in the MAPS section: its head and its class records. -/
def mapParts (bs : List Byte) : Option (List Byte × List (List Byte) × List Byte) :=
  if bs.length < 80 then none
  else
    let n := fieldAt bs 1 1
    if bs.length < 80 + 96 * n then none
    else some (bs.take 80, (List.range n).map (fun k => sliceBytes bs (80 + 96 * k) 96), bs.drop (80 + 96 * n))

/-- An offset in LISTS is that of a record from which an END follows. -/
def entryOk (rs : List Rec) (o : Nat) : Bool :=
  rs.any (fun r => r.off == o) && rs.any (fun r => decide (r.off ≥ o) && r.type == 9)

/-- A class record is well formed under a map of `nc` logical cores. -/
def classOk (rs : List Rec) (nc : Nat) (c : List Byte) : Bool :=
  let n := fieldAt c 2 1
  decide (fieldAt c 0 1 < 16) && decide (fieldAt c 1 1 < 8) && decide (1 ≤ n) && decide (n ≤ 16) && zeroIn c 3 1 && zeroIn c 84 12
    && (List.range n).all (fun i => decide (fieldAt c (4 + i) 1 < nc) && entryOk rs (fieldAt c (20 + 4 * i) 4))

/-- A map is well formed, with NCORES below `above`. -/
def mapOk (rs : List Rec) (above : Nat) (h : List Byte) (cs : List (List Byte)) : Bool :=
  let nc := fieldAt h 0 1
  decide (1 ≤ nc) && decide (nc ≤ 16) && decide (nc < above) && decide (1 ≤ cs.length) && decide (cs.length ≤ 64) && zeroIn h 2 6
    && (List.range 16).all (fun i => if i < nc then entryOk rs (fieldAt h (8 + 4 * i) 4) else fieldAt h (8 + 4 * i) 4 == 0)
    && entryOk rs (fieldAt h 72 8) && cs.all (classOk rs nc)

/-- `n` maps follow one another, NCORES descending (check 7 of R258). -/
def mapsOk (rs : List Rec) : Nat → Nat → List Byte → Bool
  | 0, _, _ => true
  | n + 1, above, bs => match mapParts bs with
    | none => false
    | some (h, cs, rest) => mapOk rs above h cs && mapsOk rs n (fieldAt h 0 1) rest

/-! ### Load checks (R258) -/

/-- Check 1: the header, and BODY_BYTES within the loaded length. -/
def imageFormatOk (f : List Byte) : Bool :=
  let body := fieldAt f 8 8
  f.take 4 == [0x4B, 0x50, 0x49, 0x31] && fieldAt f 4 2 == 1 && decide (fieldAt f 6 2 < 4) && zeroIn f 21 11 && zeroIn f 64 192
    && decide (256 ≤ body) && decide (round8 body + 3408 ≤ f.length) && decide (fieldAt f 18 1 ≤ 15) && decide (fieldAt f 20 1 ≤ 16)

/-- A section lies within the body, at a multiple of 64, and is of a type of R235. -/
def sectionOk (body : Nat) (x : Section) : Bool :=
  decide (1 ≤ x.type) && decide (x.type ≤ 6) && x.off % 64 == 0 && decide (x.off + x.len ≤ body)

/-- Sections do not overlap, and each type stands once. -/
def sectionsApart : List Section → Bool
  | [] => true
  | x :: xs => xs.all (fun y => y.type != x.type && (x.len == 0 || y.len == 0 || decide (x.off + x.len ≤ y.off)
      || decide (y.off + y.len ≤ x.off))) && sectionsApart xs

/-- An entry of WLAYOUT: format code 0-10 and three bytes 0. -/
def tensorOk (e : List Byte) : Bool := decide (fieldAt e 12 1 ≤ 10) && zeroIn e 13 3

/-- Check 4: sections, those required, and the WLAYOUT digest. -/
def imageSectionsOk (b : List Byte) : Bool :=
  let n := fieldAt b 16 2
  let ss := sectionsOf b
  let has (t : Nat) : Bool := ss.any (fun x => x.type == t)
  let wl := secBytes b 6
  let lists := secBytes b 2
  decide (1 ≤ n) && decide (n ≤ 64) && decide (256 + 16 * n ≤ b.length)
    && (List.range n).all (fun i => zeroIn b (258 + 16 * i) 2) && ss.all (sectionOk b.length) && sectionsApart ss
    && has 2 && has 4 && has 6 && (!bit (fieldAt b 6 2) 1 || has 3)
    && (has 1 || (recordsOf (lists.length + 1) 0 lists).all (fun r => r.type != 6))
    && lists.length % 32 == 0 && (secBytes b 3).length % 16 == 0 && wl.length % 16 == 0
    && (chunks (wl.length + 1) 16 wl).all tensorOk && sha256 wl == sliceBytes b 32 32

/-- The checks of R258 in order: the status of the first that fails. -/
def imageStatus (signers f : List Byte) : Option Status :=
  if !imageFormatOk f then some .imgFormat
  else
    let b := f.take (fieldAt f 8 8)
    let block := f.drop (round8 b.length)
    match (signersOf signers).find? (fun g => g.hash == block.take 32) with
    | none => some .imgSigner
    | some g =>
      if !g.verifies (sha256 b) block then some .imgSignature
      else if !imageSectionsOk b then some .imgSection
      else
        let lists := secBytes b 2
        let rs := recordsOf (lists.length + 1) 0 lists
        if !rs.all (fun r => r.ok (secBytes b 3).length) then some .imgRecord
        else if rs.any (fun r => r.srFree && !r.nd) || bit (fieldAt b 6 2) 0 != rs.any (·.nd) then some .imgNd
        else
          let maps := fieldAt b 19 1
          if decide (1 ≤ maps) && decide (maps ≤ 4) && mapsOk rs maps 17 (secBytes b 4) then none else some .imgMap

/-- The reference of an image body placed at `base`. -/
def imageRef (base : Nat) (b : List Byte) : ImageRef :=
  let ss := sectionsOf b
  { base := base, bytes := b.length, digest := sha256 b, wlayout := sliceBytes b 32 32, lag := fieldAt b 18 1
    pipes := fieldAt b 20 1, maps := fieldAt b 19 1, anyNd := bit (fieldAt b 6 2) 0, code := secOf ss 1, lists := secOf ss 2
    live := secOf ss 3, mapSec := secOf ss 4, const := secOf ss 5, wlay := secOf ss 6 }

/-- A weight set's header fits its length (R238). -/
def weightsOk (f : List Byte) : Bool :=
  decide (64 ≤ f.length) && f.take 4 == [0x4B, 0x57, 0x53, 0x31] && fieldAt f 8 8 == f.length && zeroIn f 4 4 && zeroIn f 16 16

/-- The reference of a weight set placed at `base`. -/
def weightRef (base : Nat) (f : List Byte) : WeightRef :=
  { base := base, bytes := f.length, digest := sha256 f, wlayout := sliceBytes f 32 32 }

/-- A weight set fits an image (R238): the WLAYOUT digests are equal and every tensor lies within the set. -/
def State.weightsFit (s : State) (i : ImageRef) (wlayout : List Byte) (bytes : Nat) : Bool :=
  let t := s.modBytes (i.base + i.wlay.1) i.wlay.2
  wlayout == i.wlayout && (chunks (t.length + 1) 16 t).all (fun e => decide (fieldAt e 0 8 + fieldAt e 8 4 ≤ bytes))

/-! ### The image area (R380) -/

/-- The image area of a partition under the registers given: base and bytes. -/
def State.areaOf (s : State) (p : Nat) : Nat × Nat :=
  (s.get64 (R.STG_PTN_AREA_LO.N p) (R.STG_PTN_AREA_HI.N p), s.get (R.STG_PTN_AREA_PAGES.PAGES p) * 65536)

/-- Address ranges of a pair. -/
def Pair.ranges (p : Pair) : List (Nat × Nat) := [(p.image.base, p.image.bytes), (p.weights.base, p.weights.bytes)]

/-- What a load replaces in the stage: the image, the weight set, or the reference image in a slot, of a job. -/
inductive Loading where
  | image (job : Nat) | weights (job : Nat) | ref (job slot : Nat)
  deriving DecidableEq, Repr

/-- Address ranges that the stage and the jobs hold (R380), but for the staged copy that a load replaces. -/
def State.areaUsed (s : State) (x : Loading) : List (Nat × Nat) :=
  (s.stage.images.filter (fun e => x != .image e.1)).map (fun e => (e.2.base, e.2.bytes))
    ++ (s.stage.weights.filter (fun e => x != .weights e.1)).map (fun e => (e.2.base, e.2.bytes))
    ++ (s.stage.refs.filter (fun r => x != .ref r.job r.slot)).map (fun r => (r.addr, r.bytes))
    ++ (List.range 64).flatMap (fun k => (s.pairsOf k).flatMap Pair.ranges
      ++ (s.job k).loneImage.toList.map (fun i => (i.base, i.bytes))
      ++ (s.job k).loneWeights.toList.map (fun w => (w.base, w.bytes))
      ++ (s.job k).refs.map (fun r => (r.addr, r.bytes)))

/-- Two ranges share no byte. -/
def apart (a b : Nat × Nat) : Bool := a.2 == 0 || b.2 == 0 || decide (a.1 + a.2 ≤ b.1) || decide (b.1 + b.2 ≤ a.1)

/-- The lowest place of `n` bytes in an area, a multiple of 64 (log entry 36). -/
def placeIn (area : Nat × Nat) (used : List (Nat × Nat)) (n : Nat) : Option Nat :=
  ((area.1 :: used.map (fun u => (u.1 + u.2 + 63) / 64 * 64)).filter (fun a =>
    decide (area.1 ≤ a) && decide (a + n ≤ area.1 + area.2) && used.all (fun u => apart u (a, n)))).foldl
    (fun (m : Option Nat) a => match m with
      | none => some a
      | some b => if a < b then some a else some b) none

/-- The place of a file of `n` bytes for job `j` in the staged image area of its partition; none where it does not fit or
the area is not all memory. -/
def State.stagePlace (s : State) (j : Nat) (x : Loading) (n : Nat) : Option Nat :=
  let t := s.withStage
  match placeIn (t.areaOf (t.jobPart j)) (s.areaUsed x) n with
  | some a => if s.reachable .firmware a n then some a else none
  | none => none

/-- Put a weight set in the stage of job `j` (R298, R358): OK, no room, or a hard fault. -/
def State.stageWeights (s : State) (j : Nat) (f : List Byte) : Status × State :=
  match s.stagePlace j (.weights j) f.length with
  | none => (.stageFull, s)
  | some a => match s.store .firmware a f with
    | (.ok, s) => (.ok, { s with stage := { s.stage with weights := keyPut s.stage.weights j (weightRef a f) } })
    | (_, s) => (.parity, s)

/-- Put a program image in the stage of job `j`: OK, no room, or a hard fault. -/
def State.stageImage (s : State) (j : Nat) (f : List Byte) : Status × State :=
  let b := f.take (fieldAt f 8 8)
  match s.stagePlace j (.image j) b.length with
  | none => (.stageFull, s)
  | some a => match s.store .firmware a b with
    | (.ok, s) => (.ok, { s with stage := { s.stage with images := keyPut s.stage.images j (imageRef a b) } })
    | (_, s) => (.parity, s)

/-! ### Reference images (R291) -/

/-- The format of a reference file: PNG by its signature, else KTR. -/
def fileFormat (f : List Byte) : Nat := if f.take 4 = [0x89, 0x50, 0x4E, 0x47] then 1 else 0

/-- The completion status of a sample status (R373). -/
def Sample.status : Sample → Status
  | .ok => .ok | .shortData => .shortData | .timedOut => .timedOut | .tooBig => .tooBig | .ratio => .ratio
  | .format => .format | .corrupt => .corrupt

end Sys2Proof.Machine
end

