-- ==== Sys2Proof/Machine/Rings.lean ====
section
/-! DEFINITION. Machine/Rings.lean: client rings: enable, disable, doorbells, the start and the checks of descriptors,
interrupts, PCI Express resets, and sessions over Ethernet (spec/16_client_rings.md, R349-R372). -/

namespace Sys2Proof.Machine

/-! ### Enable and disable (R351, R352) -/

/-- The configuration in a ring's registers. -/
def State.ringRegs (s : State) (n : Nat) : RingCfg :=
  { kind := s.get (R.RING_CFG.KIND n), log2 := s.get (R.RING_CFG.LOG2_ENTRIES n)
    ethernet := s.flag (R.RING_CFG.TRANSPORT n), peer := s.get (R.RING_LINK.PEER n)
    session := s.get (R.RING_LINK.SESSION n), job := s.get (R.RING_LINK.JOB n)
    allJobs := s.flag (R.RING_LINK.ALL_JOBS n), rejectsOnly := s.flag (R.RING_LINK.REJECTS_ONLY n)
    base := s.get64 (R.RING_BASE_LO.BASE n) (R.RING_BASE_HI.BASE n)
    vector := s.get (R.RING_IRQ.VECTOR n), ien := s.flag (R.RING_IRQ.IEN n)
    holdoffUs := s.get (R.RING_IRQ.HOLDOFF_US n) }

/-- Ring `n` is enabled. -/
def State.ringOn (s : State) (n : Nat) : Bool := match s.ring n with
  | some r => r.active
  | none => false

/-- Session `k` is open. -/
def State.session (s : State) (k : Nat) : Option Session := keyGet s.client.sessions k

/-- The PEER of a SUBMIT ring is fit for it (R351). -/
def State.peerFits (s : State) (c : RingCfg) : Bool := match s.ring c.peer with
  | some p => p.active && p.cfg.kind == 2 && p.cfg.ethernet == c.ethernet && (!c.ethernet || p.cfg.session == c.session)
  | none => false

/-- An enable under R351 is accepted. -/
def State.ringFits (s : State) (c : RingCfg) : Bool :=
  decide (1 ≤ c.kind) && decide (c.kind ≤ 4) && decide (4 ≤ c.log2) && decide (c.log2 ≤ 16)
    && (c.ethernet || c.base % 4096 == 0) && (c.kind != 1 || s.peerFits c)
    && (!c.ethernet || (s.session c.session).isSome)

/-- Enable ring `n` (R351). -/
def State.ringEnable (s : State) (n : Nat) : State :=
  let c := s.ringRegs n
  if s.ringFits c then
    let e := match s.ring n with
      | some r => r.epoch + 1
      | none => 0
    let r : RingSt := { cfg := c, epoch := e }
    ((s.setRing n r).writeIndex r).raise (R.RING_CFG.ENABLE n)
  else (s.drop (R.RING_CFG.ENABLE n)).latch (R.RING_STATUS.CFG_ERR n)

/-- A descriptor fetched from ring `n` as it starts; it takes its completion's place in PEER as that now stands. -/
def State.startOf (s : State) (n : Nat) (r : RingSt) (d : SessDesc) (rights : Nat) : Started :=
  { ring := n, index := u32 (r.fetched + 4294967296 - r.queue.length), bytes := d.bytes, data := d.data, rights := rights
    ethernet := r.cfg.ethernet, session := r.cfg.session, peer := r.cfg.peer
    peerEpoch := match s.ring r.cfg.peer with
      | some p => p.epoch
      | none => 0
    waiting := false
    signers := s.boot.signers
    opening := match s.session r.cfg.session with
      | some x => x.opening
      | none => 0 }

/-- Disable ring `n` (R352): descriptors fetched and not started complete with ABORTED, unless they are discarded; a
module-filled ring gets nothing more, not even what was due on this tick. -/
def State.ringDisable (s : State) (n : Nat) (discard : Bool) : State :=
  let s := s.drop (R.RING_CFG.ENABLE n)
  match s.ring n with
  | none => s
  | some r =>
    if !r.active then s
    else
      let s := { s with client := { s.client with owed := s.client.owed.filter (fun x => x.1.peer != n) } }
      let s := s.setRing n { r with active := false, queue := [] }
      if r.cfg.kind ≠ 1 then s.withdraw n { r with active := false, queue := [] }
      else if discard then s
      else ((List.range r.queue.length).zip r.queue).foldl (fun (s : State) (x : Nat × SessDesc) =>
        s.complete (s.startOf n { r with queue := r.queue.drop x.1 } x.2 7) .aborted 0) s

/-- A write of RING_n_CFG (R351, R352): fields are held, and ENABLE acts at once. -/
def State.ringCfgWrite (s : State) (n v : Nat) : State :=
  let on := s.ringOn n
  let s := ((s.put (R.RING_CFG.TRANSPORT n) (v / 512 % 2)).put (R.RING_CFG.LOG2_ENTRIES n) (bits v 8 4)).put
    (R.RING_CFG.KIND n) (bits v 3 1)
  if bit v 0 && !on then s.ringEnable n
  else if !bit v 0 && on then s.ringDisable n false
  else s

/-- A write to a RING register is admitted (R369): `via` is the session it comes through; `link` a write of RING_n_LINK
with its SESSION field. -/
def State.ringAccess (s : State) (via : Option Nat) (n : Nat) (link : Option Nat) : Bool :=
  decide (n < 6144)
    && (match s.ring n with
      | some r =>
        !(r.active && r.cfg.ethernet && (s.session r.cfg.session).isSome && via != some r.cfg.session)
          && !(via.isSome && r.active && !r.cfg.ethernet)
      | none => true)
    && (match via, link with
      | some k, some x => k == x
      | _, _ => true)

/-- A write of RING_n_CFG from a source, discarded and counted where R369 does not admit it. -/
def State.ringCfgFrom (s : State) (via : Option Nat) (n v : Nat) : State :=
  if s.ringAccess via n none then s.ringCfgWrite n v else s.accessErr (R.RING_CFG n)

/-- RING_ENABLE (R351): a write of RING_n_CFG with ENABLE 1; `fields` are its bits 9:1. -/
def execRingEnable (ring : Fin 8192) (via : Option (Fin 1024)) (fields : BitVec 9) (s : State) :
    Host.Outcome State Fault Refusal :=
  .next (s.written (R.RING_CFG ring.val) (fun s => s.ringCfgFrom (via.map (·.val)) ring.val (fields.toNat * 2 + 1)))

/-- RING_DISABLE (R352): a write of RING_n_CFG with ENABLE 0. -/
def execRingDisable (ring : Fin 8192) (via : Option (Fin 1024)) (fields : BitVec 9) (s : State) :
    Host.Outcome State Fault Refusal :=
  .next (s.written (R.RING_CFG ring.val) (fun s => s.ringCfgFrom (via.map (·.val)) ring.val (fields.toNat * 2)))

/-! ### Doorbells (R353) -/

/-- Fetch the descriptors of a ring up to PROD from host memory, with the index word that shows the count (R350, R354). -/
def State.fetchAll (s : State) (n : Nat) (r : RingSt) : State :=
  let k := u32 (r.prod + 4294967296 - r.fetched)
  let ds := (List.range k).map (fun i =>
    (⟨s.hostRead (u64 (r.cfg.base + (r.fetched + i) % r.entries * 64)) 64, [], false⟩ : SessDesc))
  let r := { r with fetched := r.prod, queue := r.queue ++ ds }
  (s.writeIndex r).setRing n r

/-- DB_ERR and HALTED, with the RING_HALTED notice (R353, R360). -/
def State.halt (s : State) (n : Nat) (r : RingSt) : State :=
  ((s.latch (R.RING_STATUS.DB_ERR n)).setRing n { r with halted := true }).noticeHalted n r.cfg

/-- A new CONS of a module-filled ring (R353): completions that wait for room take it. -/
def State.consume (s : State) (n : Nat) (r : RingSt) (v : Nat) : State :=
  if u32 (v + 4294967296 - r.cons) > u32 (r.prod + 4294967296 - r.cons) then s.latch (R.RING_STATUS.DB_ERR n)
  else (s.setRing n { r with cons := v }).payOwed n (s.owedTo n).length

/-- The checks of R353 on a doorbell of an enabled PCI Express ring. -/
def State.doorbellOn (s : State) (n : Nat) (r : RingSt) (v : Nat) : State :=
  if r.cfg.kind = 1 then
    let ahead := u32 (v + 4294967296 - r.fetched)
    if ahead > r.entries || u32 (v + 4294967296 - r.prod) > ahead then s.halt n r
    else if r.halted then s.setRing n { r with prod := v }
    else s.fetchAll n { r with prod := v }
  else s.consume n r v

/-- A doorbell write (R353); one for a disabled ring or for TRANSPORT 1 sets DB_ERR. -/
def State.doorbell (s : State) (n v : Nat) : State :=
  match s.ring n with
  | some r => if r.active && !r.cfg.ethernet then s.doorbellOn n r v else s.latch (R.RING_STATUS.DB_ERR n)
  | none => s.latch (R.RING_STATUS.DB_ERR n)

/-- DOORBELL (R353). -/
def execDoorbell (ring : Fin 8192) (value : BitVec 32) (s : State) : Host.Outcome State Fault Refusal :=
  .next (s.written (R.DBELL ring.val) (fun s => s.doorbell ring.val value.toNat))

/-! ### Start and checks (R354-R358) -/

/-- Rights (R358): bit 0 R, bit 1 C, bit 2 A; none where the opcode is not in the table. -/
def opRights : Nat → Option Nat
  | 0x00 => some 0 | 0x01 => some 0 | 0x02 => some 1 | 0x03 => some 0 | 0x04 => some 1 | 0x10 => some 1
  | 0x11 => some 1 | 0x12 => some 1 | 0x13 => some 1 | 0x14 => some 1 | 0x20 => some 1 | 0x21 => some 1
  | 0x22 => some 1 | 0x30 => some 0 | 0x31 => some 1 | 0x40 => some 2 | 0x41 => some 2 | 0x50 => some 0
  | 0x51 => some 2 | _ => none

/-- Data comes in with an opcode's descriptor (R358). -/
def opDataIn (op mode : Nat) : Bool :=
  op == 0x04 || op == 0x10 || op == 0x11 || op == 0x12 || (op == 0x13 && mode != 2) || op == 0x40 || op == 0x41 || op == 0x51

/-- The PARAM bytes that an opcode names, as positions in the descriptor (R358). -/
def Started.named (d : Started) : List Nat :=
  let span (a b : Nat) : List Nat := (List.range (b + 1 - a)).map (fun i => a + i)
  match d.op with
  | 0x01 => span 24 28
  | 0x02 => span 24 31
  | 0x03 => span 24 31
  | 0x04 => span 24 31
  | 0x10 => if d.param 24 1 = 2 then span 24 26 ++ span 32 51 else span 24 26
  | 0x11 => span 24 25
  | 0x12 => span 24 25
  | 0x13 => if d.param 25 1 = 0 then span 24 25 ++ span 32 39 else span 24 25
  | 0x14 => span 24 25 ++ span 28 35
  | 0x20 => span 24 25
  | 0x21 => span 24 24 ++ span 32 39
  | 0x30 => span 24 25 ++ span 32 39
  | 0x31 => span 24 25 ++ span 32 39
  | 0x40 => span 24 24
  | 0x50 => span 24 55
  | _ => []

/-- Reserved bytes and flags are 0, and so are ADDR over Ethernet and the PARAM bytes that are not named (R356). -/
def Started.reservedOk (d : Started) : Bool :=
  decide (d.flags < 4) && d.param 2 2 == 0 && d.param 20 4 == 0 && (!d.ethernet || d.addr == 0)
    && (List.range 40).all (fun i => d.named.contains (24 + i) || d.param (24 + i) 1 == 0)

/-- A BAR0 offset of a descriptor: a multiple of 4 below 4 MiB. -/
def barOffOk (o : Nat) : Bool := o % 4 == 0 && decide (o < 4194304)

/-- PARAM fields are in range (R358). -/
def Started.paramOk (d : Started) : Bool :=
  let b (i : Nat) : Nat := d.param i 1
  match d.op with
  | 0x01 => barOffOk (d.param 24 4) && (b 28 == 1 || (b 28 == 2 && barOffOk (d.param 24 4 + 4)))
  | 0x02 => barOffOk (d.param 24 4)
  | 0x03 => d.param 24 8 % 4 == 0
  | 0x04 => d.param 24 8 % 4 == 0
  | 0x10 => decide (b 24 ≤ 2) && decide (b 25 < 64)
  | 0x11 => decide (d.param 24 2 ≤ 57343) && decide (d.param 24 2 + d.len / 32 ≤ 57344)
  | 0x12 => decide (b 24 < 16) && decide (b 25 ≤ 2)
  | 0x13 => decide (b 24 < 16) && decide (b 25 ≤ 2)
  | 0x14 => decide (b 24 < 16) && decide (b 25 ≤ 1)
  | 0x20 => decide (b 24 < 64) && decide (b 25 ≤ 1)
  | 0x21 => decide (b 24 ≤ 2)
  | 0x30 => decide (d.param 24 2 < 16384)
  | 0x31 => decide (d.param 24 2 < 16384)
  | 0x40 => decide (b 24 ≤ 1)
  | _ => true

/-- LEN fits the opcode (R358), but for the size of a correction table. -/
def Started.lenOk (d : Started) : Bool :=
  let n := d.len
  (!(d.ethernet && opDataIn d.op (d.param 25 1)) || d.data.length == n) && (match d.op with
  | 0x03 => decide (4 ≤ n) && decide (n ≤ 16777216) && n % 4 == 0
  | 0x04 => decide (4 ≤ n) && decide (n ≤ 16777216) && n % 4 == 0
  | 0x10 => decide (0 < n)
  | 0x11 => decide (0 < n) && n % 32 == 0
  | 0x12 => decide (0 < n)
  | 0x13 => (match d.param 25 1 with
    | 0 => decide (0 < n)
    | 1 => decide (0 < n) && n % 16 == 0
    | _ => n == 0)
  | 0x40 => n == 64
  | 0x41 => decide (16 ≤ n) && (n - 16) % 36 == 0
  | 0x50 => n == 8752
  | 0x51 => decide (0 < n)
  | _ => n == 0)

/-- The size of the correction table that an LPIPE_TABLE places, under the staged WIDTH and SENSOR_LINES of its camera (R358). -/
def State.tableLen (s : State) (d : Started) : Nat :=
  let t := s.withStage
  let c := d.param 24 1
  let n := t.get (R.CXP_CAM_GEOM.WIDTH c) * (t.get (R.CXP_CAM_CFG.SENSOR_LINES c) + 1)
  if d.param 25 1 = 2 then ceilDiv n 8 else 2 * n

/-- LEN fits the opcode (R358). -/
def State.lenFits (s : State) (d : Started) : Bool := d.lenOk && (d.op != 0x12 || d.len == s.tableLen d)

/-- Opcodes served in recovery: NOP, ATTEST and FW_PUSH (R480). -/
def recoveryOp (op : Nat) : Bool := op == 0x00 || op == 0x50 || op == 0x51

/-- The checks of R357 in order: the first failing status. -/
def State.checkDescriptor (s : State) (d : Started) : Option Status :=
  match opRights d.op with
  | none => some .badOpcode
  | some r =>
    if s.flag R.GLB_STATUS.RECOVERY && !recoveryOp d.op then some .badOpcode
    else if !d.reservedOk then some .badReserved
    else if !bit d.rights r then some .rights
    else if !d.paramOk then some .badParam
    else if !s.lenFits d then some .badLen
    else none

/-- Descriptors of ring `n` started and not completed. -/
def State.startedOf (s : State) (n : Nat) : Nat := (s.client.started.filter (fun d => d.ring == n)).length

/-- PEER has room for the completion of one more started descriptor (R354). -/
def State.peerRoom (s : State) (r : RingSt) : Bool := match s.ring r.cfg.peer with
  | some p => p.active && decide ((s.client.started.filter (fun d => d.peer == r.cfg.peer)).length
      + (s.owedTo r.cfg.peer).length < p.room)
  | none => false

/-- The rights of a ring's descriptors: all over PCI Express, those of the session's key over Ethernet (R368). -/
def State.ringRights (s : State) (r : RingSt) : Nat :=
  if !r.cfg.ethernet then 7
  else match s.session r.cfg.session with
    | some k => k.rights
    | none => 0

/-- The next fetched descriptor of ring `n` may start (R354, R355): the ring and its PEER have room, and its FENCE allows it. -/
def State.startable (s : State) (n : Nat) (r : RingSt) : Bool := match r.queue with
  | [] => false
  | q :: _ => decide (s.startedOf n < 64) && s.peerRoom r && !(bit (fieldAt q.bytes 1 1) 0 && s.startedOf n != 0)
      && (s.flag R.GLB_STATUS.READY || s.flag R.GLB_STATUS.RECOVERY)

/-- The ring whose turn it is (R355): the rings in ascending number, round and round, those passed over from which nothing can
start. -/
def State.turnOf (s : State) : Option Nat :=
  let ns := (s.client.rings.filter (fun e => s.startable e.1 e.2)).map (·.1)
  (ns.find? (fun n => decide (s.client.turn ≤ n))).or ns.head?

/-- DESCRIPTOR_START (R354, R355, R357): the next fetched descriptor of the ring whose turn it is starts, with its in data read,
and completes at once where a check, or the host read of the descriptor (R365), fails. -/
def execDescriptorStart (ring : Fin 8192) (s : State) : Host.Outcome State Fault Refusal :=
  let n := ring.val
  .next (match s.ring n with
    | none => s
    | some r => match r.queue with
      | [] => s
      | q :: qs =>
        let d := s.startOf n r q (s.ringRights r)
        if s.turnOf != some n then s
        else
          let s := s.setRing n { r with queue := qs }
          let s := { s with client := { s.client with turn := n + 1 } }
          match if q.failed then some .dmaError else s.checkDescriptor d with
          | some e => s.complete d e 0
          | none =>
            let d := if !d.ethernet && opDataIn d.op (d.param 25 1) then { d with data := s.hostRead d.addr d.len } else d
            { s with client := { s.client with started := s.client.started ++ [d] } })

/-- The started descriptor (ring, index), if it is of opcode `op` and has not taken effect yet. -/
def State.startedAs (s : State) (ring index op : Nat) : Option Started :=
  s.client.started.find? (fun d => d.ring == ring && d.index == index && d.op == op && !d.waiting)

/-- Sixty-four bytes that the spec leaves open. -/
def State.drawBytes (s : State) : List Byte × State :=
  (List.range 8).foldl (fun (x : List Byte × State) _ => let (v, s) := x.2.draw
    (x.1 ++ leBytes 8 v.toNat, s)) ([], s)

/-- The host read of a descriptor fetched and not started fails: what came of its bytes is open (R365, log entry 39). -/
def State.fetchFails (s : State) (n index : Nat) : State := match s.ring n with
  | none => s
  | some r =>
    let i := u32 (index + 4294967296 + r.queue.length - r.fetched)
    if r.cfg.ethernet || decide (r.queue.length ≤ i) then s
    else
      let (bs, s) := s.drawBytes
      s.setRing n { r with queue := setNth r.queue i ⟨bs, [], true⟩ }

/-- HOST_READ_TIMEOUT (R365): a host read ended in an error or had no completion in 50 ms: that of a started descriptor's in
data, which completes with DMA_ERROR, and for FW_PUSH with code 7 in its RESULT (R481); or that of a descriptor itself. -/
def execHostReadTimeout (ring : Fin 8192) (index : BitVec 32) (s : State) : Host.Outcome State Fault Refusal :=
  .next (match s.client.started.find? (fun d => d.ring == ring.val && d.index == index.toNat && !d.waiting
      && !d.ethernet && opDataIn d.op (d.param 25 1)) with
    | none => s.fetchFails ring.val index.toNat
    | some d => s.complete d .dmaError (if d.op = 0x51 then 7 else 0))

/-- NOP (R358): completes with no effect. -/
def execNopOpcode (ring : Fin 8192) (index : BitVec 32) (s : State) : Host.Outcome State Fault Refusal :=
  .next (match s.startedAs ring.val index.toNat 0x00 with
    | none => s
    | some d => s.complete d .ok 0)

/-! ### Interrupts and PCI Express (R363, R365) -/

/-- IRQ_HOLDOFF_END (R363): an interrupt held back is raised when the holdoff ends. -/
def execIrqHoldoffEnd (ring : Fin 8192) (s : State) : Host.Outcome State Fault Refusal :=
  .next (match s.ring ring.val with
    | none => s
    | some r => if r.active && r.irqHeld && decide (s.dtime ≥ r.irqAfter) then s.raiseIrq ring.val r else s)

/-- The transport of ring `n`: as enabled, else as its register holds it. -/
def State.ringEthernet (s : State) (n : Nat) : Bool := match s.ring n with
  | some r => if r.active then r.cfg.ethernet else s.flag (R.RING_CFG.TRANSPORT n)
  | none => s.flag (R.RING_CFG.TRANSPORT n)

/-- FUNCTION_LEVEL_RESET (R365): every PCI Express ring is disabled and its registers are reset, with the indices and counts that
they show; its completions and records are discarded. -/
def execFunctionLevelReset (s : State) : Host.Outcome State Fault Refusal :=
  let ns := (s.client.rings.filter (fun e => e.2.active && !e.2.cfg.ethernet)).map (·.1)
  let t := ns.foldl (fun (s : State) n => s.ringDisable n true) s
  let regs := t.regs.filter (fun e => !(decide (R.RING_CFG 0 ≤ e.1) && decide (e.1 < R.RING_CFG 8192)
    && !s.ringEthernet ((e.1 - R.RING_CFG 0) / 32)))
  let rings := t.client.rings.map (fun e =>
    if s.ringEthernet e.1 then e else (e.1, { cfg := e.2.cfg, active := false, epoch := e.2.epoch }))
  let t := { t with regs := regs }
  .next { t with client := { t.client with rings := rings } }

/-! ### Sessions (R366-R372) -/

/-- Entries of an allow list (R368): the key hash and the rights. -/
def allowEntries (f : List Byte) : List (List Byte × Nat) :=
  (List.range (fieldAt f 4 4)).map (fun i => (sliceBytes f (16 + 36 * i) 32, fieldAt f (48 + 36 * i) 1))

/-- The rights that the allow list in force gives a key. -/
def State.keyRights (s : State) (key : List Byte) : Option Nat :=
  ((allowEntries s.client.net.allow).find? (fun e => e.1 == key)).map (·.2)

/-- A port is enabled (R366). -/
def State.ethPort (s : State) (p : Nat) : Bool := bit (fieldAt (nth s.client.net.ports p []) 0 1) 0

/-- The two rings of session `k` are enabled (R369). -/
def State.sessionRings (s : State) (k : Nat) : State :=
  let sub := 6144 + 2 * k
  let cmp := 6145 + 2 * k
  let regs (s : State) (n kind : Nat) : State :=
    ((((s.put (R.RING_CFG.TRANSPORT n) 1).put (R.RING_CFG.LOG2_ENTRIES n) 8).put (R.RING_CFG.KIND n) kind).put
      (R.RING_LINK.SESSION n) k).put (R.RING_LINK.PEER n) (if kind = 1 then cmp else 0)
  ((regs (regs s sub 1) cmp 2).ringEnable cmp).ringEnable sub

/-- SESSION_OPEN (R368, R369): a TLS connection whose client proves possession of a listed key takes the lowest free
session number. In recovery port 0 admits one session (R480). -/
def execSessionOpen (port : Fin 2) (key : BitVec 256) (s : State) : Host.Outcome State Fault Refusal :=
  let hash := (List.range 32).map (fun i => BitVec.ofNat 8 (key.toNat / 256 ^ i))
  let limit := if s.flag R.GLB_STATUS.RECOVERY then 1 else 1024
  .next (if !s.ethPort port.val || decide (s.client.sessions.length ≥ limit)
      || !(s.flag R.GLB_STATUS.READY || (s.flag R.GLB_STATUS.RECOVERY && port.val == 0)) then s
    else match s.keyRights hash, (List.range 1024).find? (fun k => (s.session k).isNone) with
      | some r, some k =>
        let s := { s with client := { s.client with
          sessions := keyPut s.client.sessions k ⟨hash, r, s.dtime, s.dtime, port.val, s.client.openings + 1⟩
          openings := s.client.openings + 1 } }
        s.sessionRings k
      | _, _ => s)

/-- Close session `k` (R372): every ring bound to it is disabled, and completions are discarded. -/
def State.closeSession (s : State) (k : Nat) : State :=
  if (s.session k).isNone then s
  else
    let ns := (s.client.rings.filter (fun e => e.2.active && e.2.cfg.ethernet && e.2.cfg.session == k)).map (·.1)
    let s := ns.foldl (fun (s : State) n => s.ringDisable n true) s
    { s with client := { s.client with
      sessions := keyDel s.client.sessions k, out := s.client.out ++ [.closed k] } }

/-- SESSION_CLOSE (R371, R372): the connection ends, or a frame breaks R371. -/
def execSessionClose (session : Fin 1024) (s : State) : Host.Outcome State Fault Refusal :=
  .next (s.closeSession session.val)

/-- SESSION_TIMEOUT (R372): a session that has sent no frame for 5 s is closed. -/
def execSessionTimeout (session : Fin 1024) (s : State) : Host.Outcome State Fault Refusal :=
  .next (match s.session session.val with
    | none => s
    | some x => if s.dtime ≥ x.lastHeard + 5000000000 then s.closeSession session.val else s)

/-- KEEPALIVE_SEND (R372): the module has sent nothing for 1 s. -/
def execKeepaliveSend (session : Fin 1024) (s : State) : Host.Outcome State Fault Refusal :=
  let k := session.val
  .next (match s.session k with
    | none => s
    | some x => if s.dtime ≥ x.lastSent + 1000000000 then s.sessionSent k (.keepalive k) else s)

/-- A frame of session `k` has arrived. -/
def State.heard (s : State) (k : Nat) : State :=
  { s with client := { s.client with
    sessions := s.client.sessions.map (fun e => if e.1 = k then (e.1, { e.2 with lastHeard := s.dtime }) else e) } }

/-- A ring bound to session `k` (R369). -/
def State.bound (s : State) (k n : Nat) : Option RingSt := match s.ring n with
  | some r => if r.active && r.cfg.ethernet && r.cfg.session == k then some r else none
  | none => none

/-- The descriptors in a SUBMIT frame's payload (R370): one with LEN above 0 stands alone with its data. -/
def frameDescriptors (p : List Byte) : List SessDesc :=
  if fieldAt p 16 4 > 0 then [⟨sliceBytes p 0 64, p.drop 64, false⟩]
  else (List.range (p.length / 64)).map (fun i => ⟨sliceBytes p (64 * i) 64, [], false⟩)

/-- SUBMIT (R370, R371): a frame of descriptors for a ring bound to the session. -/
def execSubmit (session : Fin 1024) (ring : BitVec 16) (index : BitVec 32) (payload : List Byte) (s : State) :
    Host.Outcome State Fault Refusal :=
  let k := session.val
  let n := ring.toNat
  .next (if (s.session k).isNone then s
    else
      let s := s.heard k
      match s.bound k n with
      | none => s.closeSession k
      | some r =>
        let ds := frameDescriptors payload
        if r.cfg.kind != 1 || r.prod != index.toNat then s.closeSession k
        else if r.prod + ds.length > r.fetched + r.entries then s.noticeDropped n k
        else
          let p := u32 (r.prod + ds.length)
          s.setRing n { r with prod := p, fetched := p, queue := r.queue ++ ds })

/-- ACK (R370): a new CONS of a module-filled ring, checked as a doorbell. -/
def execAck (session : Fin 1024) (ring : BitVec 16) (cons : BitVec 32) (s : State) : Host.Outcome State Fault Refusal :=
  let k := session.val
  let n := ring.toNat
  .next (if (s.session k).isNone then s
    else
      let s := s.heard k
      match s.bound k n with
      | none => s.closeSession k
      | some r => if r.cfg.kind = 1 then s.latch (R.RING_STATUS.DB_ERR n) else s.consume n r cons.toNat)

/-- KEEPALIVE (R370): a received KEEPALIVE keeps the session alive. -/
def execKeepalive (session : Fin 1024) (s : State) : Host.Outcome State Fault Refusal :=
  .next (if (s.session session.val).isNone then s else s.heard session.val)

/-- A session does not go on at a port that a commit has disabled (R366). -/
def State.portsCommit (s : State) : State :=
  (s.client.sessions.filter (fun e => !s.ethPort e.2.port)).foldl (fun (s : State) e => s.closeSession e.1) s

/-- A new allow list closes every open session whose key is no longer listed (R368). -/
def State.allowCommit (s : State) : State :=
  (s.client.sessions.filter (fun e => (s.keyRights e.2.key).isNone)).foldl (fun (s : State) e => s.closeSession e.1) s

end Sys2Proof.Machine
end

