-- ==== Sys2Proof/Machine/Boot.lean ====
section
/-! DEFINITION. Machine/Boot.lean: the boot sequence, recovery, pushes, fuses, certificates, attestation, supplies and
the test access port (spec/23_boot_identity.md, R474-R487; spec/24_module_electrical.md, R491, R492, R502-R504;
spec/21_clocks_power_heat.md, R458). -/

namespace Sys2Proof.Machine

/-! ### Firmware images (R475, R476) -/

/-- Check 1 of R476: the length. -/
def fwLengthOk (f : List Byte) : Bool :=
  decide (f.length ≤ 2097152) && decide (round8 (fieldAt f 8 8) + 3408 ≤ f.length)

/-- Check 2: MAGIC, VERSION, reserved bytes, SVN and BODY_BYTES. -/
def fwFormatOk (f : List Byte) : Bool :=
  f.take 4 == [0x4B, 0x46, 0x57, 0x31] && fieldAt f 4 2 == 1 && decide (fieldAt f 6 1 ≤ 64) && decide (fieldAt f 7 1 < 16)
    && decide (256 ≤ fieldAt f 8 8) && decide (fieldAt f 8 8 ≤ 2093744) && zeroIn f 20 236

/-- Body and signature block of a firmware file. -/
def fwBody (f : List Byte) : List Byte := f.take (fieldAt f 8 8)
def fwBlock (f : List Byte) : List Byte := sliceBytes f (round8 (fieldAt f 8 8)) 3408

/-- The unrevoked slot that a SIGNER names. -/
def Module.slotOf (m : Module) (signer : List Byte) : Option Nat :=
  (List.range 4).find? (fun k => !bit m.revoked k && nth m.fwSlots k [] == signer)

/-- *Firmware image checks* of R476: the code of the first that fails, 0 for OK. -/
def Module.fwCode (m : Module) (f : List Byte) : Nat :=
  let block := fwBlock f
  let keys := Config.keysOf (block.take 32)
  let signer : Signer := ⟨block.take 32, keys.1, keys.2, false⟩
  if !fwLengthOk f then 5
  else if !fwFormatOk f then 1
  else if (m.slotOf (block.take 32)).isNone then 2
  else if !signer.verifies (sha256 (fwBody f)) block then 3
  else if fieldAt f 6 1 < m.rollback then 4
  else 0

/-! ### Configuration in flash (R474) -/

/-- A configuration copy: the blocks of the two ports, the allow list and the program-signer list, each list after its length,
then the sequence number and the CRC-32 over what stands before it (R474; the order of the former is a DESIGN CHOICE, log
entry 56). -/
def FlashCfg.bytes (c : FlashCfg) : List Byte :=
  let port (k : Nat) : List Byte := (nth c.net.ports k [] ++ List.replicate 64 0).take 64
  let b := port 0 ++ port 1 ++ leBytes 4 c.net.allow.length ++ c.net.allow ++ leBytes 4 c.signers.length ++ c.signers
    ++ leBytes 4 c.seq
  b ++ leBytes 4 (crc32 b)

/-- What the bytes of a copy hold, if its CRC holds: an erased one is not valid. -/
def readCopy (b : List Byte) : Option FlashCfg :=
  let n := b.length - 4
  if b.length < 144 || fieldAt b n 4 != crc32 (b.take n) then none
  else
    let a := fieldAt b 128 4
    some {
      seq := fieldAt b (n - 4) 4
      net := { ports := [sliceBytes b 0 64, sliceBytes b 64 64], allow := sliceBytes b 132 a }
      signers := sliceBytes b (136 + a) (fieldAt b (132 + a) 4) }

/-- The valid configuration copy with the higher sequence number. -/
def BootSt.config (b : BootSt) : Option FlashCfg :=
  match readCopy b.cfgA, readCopy b.cfgB with
  | some x, some y => some (if x.seq ≥ y.seq then x else y)
  | some x, none => some x
  | none, y => y

/-- The copy that an update goes into, true for B: the one that is not valid, or that with the lower sequence number. -/
def BootSt.target (b : BootSt) : Bool :=
  match readCopy b.cfgA, readCopy b.cfgB with
  | some x, some y => decide (x.seq ≥ y.seq)
  | some _, none => true
  | none, _ => false

/-- An update of the configuration in flash begins with what is in force (R474): the copy that it replaces is not valid until the
write has ended, and FLASH_BUSY tells of it. -/
def State.saveConfig (s : State) : State :=
  let b := s.boot
  let hi := (b.config.map (·.seq)).getD 0
  let c : FlashCfg := { seq := u32 (hi + 1), net := s.client.net, signers := b.signers }
  let t := b.target
  { s with boot := { b with
      cfgA := if t then b.cfgA else [], cfgB := if t then [] else b.cfgB, cfgWrite := some (t, c.bytes) } }.raise
    R.BOOT_STATUS.FLASH_BUSY

/-- Load the configuration (R474): defaults and CFG_LOST where no copy is valid. -/
def State.loadConfig (s : State) : State :=
  match s.boot.config with
  | some c => { s with client := { s.client with net := c.net }, boot := { s.boot with signers := c.signers } }
  | none => s.raise R.BOOT_STATUS.CFG_LOST

/-! ### Boot (R477, R478) -/

/-- The field controller enters SAFE after its boot (R420); a field supply that is low shows at once (R418, R493). -/
def State.fieldBoot (s : State) : State :=
  let s := if s.field.mode = .boot then s.enterSafe else s
  if s.field.supplyLow then (s.raise R.FLD_STATUS.SUPPLY_LOW).lineStop .field else s

/-- Recovery (R478) with a code: the configuration in force serves port 0 (R480). -/
def State.recover (s : State) (code : Nat) : State :=
  (((s.raise R.GLB_STATUS.RECOVERY).raise R.BOOT_STATUS.RECOVERY).put R.BOOT_STATUS.REASON code).loadConfig

/-- The known-answer tests (R166) of the cores whose die is there (R16): `fails` names those that fail theirs; three boots in a row fuse a core out. -/
def State.knownAnswer (s : State) (fails : Nat) : State :=
  (List.range 16).foldl (fun (s : State) n =>
    if !bit s.module.cores n then s
    else if !bit fails n then { s with boot := { s.boot with katFails := setNth s.boot.katFails n 0 } }
    else
      let k := nth s.boot.katFails n 0 + 1
      let s := { s with boot := { s.boot with katFails := setNth s.boot.katFails n k } }
      let s := (s.raise (R.CORE_STATUS.KAT_FAIL n)).drop (R.CORE_STATUS.IN_SERVICE n)
      let s := s.put R.GLB_CORE_MAP.IN_SERVICE (s.get R.GLB_CORE_MAP.IN_SERVICE - 2 ^ n)
      if k < 3 then s
      else
        let s := { s with module := { s.module with present := s.module.present - 2 ^ n } }
        ((s.drop (R.CORE_STATUS.KAT_FAIL n)).drop (R.CORE_STATUS.PRESENT n)).put R.GLB_CORE_MAP.PRESENT s.module.present) s

/-- The identity of the running image in the BOOT registers (R475). -/
def State.showFirmware (s : State) (f : List Byte) : State :=
  let dg := sha256 (fwBody f)
  let slot := (s.module.slotOf ((fwBlock f).take 32)).getD 0
  let s := ((s.put R.BOOT_FW.SVN (fieldAt f 6 1)).put R.BOOT_FW.SIGNER slot).put R.BOOT_FW_VER.RELEASE (fieldAt f 16 4)
  (List.range 8).foldl (fun (s : State) k => s.put (R.BOOT_FW_DIGEST.N k) (fieldAt dg (4 * k) 4)) s

/-- The fuses to blow after READY (R483). -/
def State.fusesDue (s : State) (f : List Byte) : State :=
  let m := s.module
  let own := match m.slotOf ((fwBlock f).take 32) with
    | some k => 2 ^ k
    | none => 0
  let rev := maskOf ((List.range 4).filter (fun k => bit (fieldAt f 7 1) k && !bit m.revoked k && !bit own k))
  let s := { s with boot := { s.boot with fuseCount := fieldAt f 6 1, fuseRevoke := rev } }
  if m.rollback < fieldAt f 6 1 || rev ≠ 0 then s.raise R.BOOT_STATUS.FUSE_BUSY else s

/-- Steps 4 to 8 of R477 with a good image. -/
def State.bootOk (s : State) (f : List Byte) (katFail : Nat) : State :=
  let s := { s with
    larder := [], mem := [], boot := { s.boot with running := some (f.take 256) }
    cel := { s.cel with bad := s.cel.bad.filter (·.stuck) } }
  let s := s.knownAnswer katFail
  let s : State := (List.range 16).foldl (fun (s : State) n => s.put (R.CORE_LDR_STATUS.MODE n) 0) s
  ((s.showFirmware f).loadConfig.fusesDue f).raise R.GLB_STATUS.READY

/-- MODULE_RESET (R477): cause RESET is set under R423, then the boot sequence after reset release, once XTAL_READY is 1; `readable` tells that the flash can
be read, `katFail` names the cores that fail their known-answer test. The code of a flash that cannot be read is left
open. With a memory-side die lost the Cellar does not train, so the module stays where it is, without inspection (R16,
step 6 of R477; log entry 56). -/
def execModuleReset (readable : Bool) (katFail : BitVec 16) (s : State) : Host.Outcome State Fault Refusal :=
  .next (if !s.boot.power || s.flag R.GLB_STATUS.READY || s.flag R.GLB_STATUS.RECOVERY || !s.flag R.CLK_STATUS.XTAL_READY then s
    else
      let c := s.get R.FLD_LS_CAUSE.CAUSE
      let s := ((s.put R.FLD_LS_CAUSE.CAUSE 0).setCauses (Nat.lor c 1)).fieldBoot.raise R.CLK_STATUS.LOCKED
      let f := s.boot.slot
      let code := s.module.fwCode f
      if !readable || s.pinsTaken then
        let (v, s) := s.draw
        s.recover v.toNat
      else if code ≠ 0 then s.recover code
      else if s.module.lost / 4 ≠ 0 then s
      else s.bootOk f katFail.toNat)

/-- BOOT_CTL_RESET (R482): KEY 0xA5 with RESET resets the module; another KEY is counted as an access error. -/
def State.bootCtl (s : State) (key : Nat) (reset : Bool) : State :=
  if !s.answers then s else if key ≠ 0xA5 then s.accessErr R.BOOT_CTL else if reset then s.resetFrom else s

/-- BOOT_CTL_RESET. -/
def execBootCtlReset (key : BitVec 8) (reset : Bool) (s : State) : Host.Outcome State Fault Refusal :=
  .next (s.bootCtl key.toNat reset)

/-! ### Pushes (R479, R481, R484) -/

/-- A push ends with a code. -/
def State.pushDone (s : State) (code : Nat) : State := (s.put R.BOOT_PUSH_STATUS.CODE code).latch R.BOOT_PUSH_STATUS.DONE

/-- A checked file is being written: the image slot holds no valid image meanwhile. -/
def State.pushBegin (s : State) (p : Push) : State :=
  let s := (s.raise R.BOOT_PUSH_STATUS.BUSY).raise R.BOOT_STATUS.FLASH_BUSY
  { s with boot := { s.boot with push := some p, slot := if p.signers then s.boot.slot else [] } }

/-- A write of BOOT_PUSH_CTL.GO (R479): the boot core reads and checks the image; `readOk` tells that the host read
succeeded. -/
def State.pushGo (s : State) (readOk : Bool) : State :=
  if !s.flag R.GLB_STATUS.RECOVERY then s.accessErr R.BOOT_PUSH_CTL
  else if s.boot.push.isSome then s.pushDone 8
  else if !readOk then s.pushDone 7
  else
    let f := s.hostRead (s.get64 R.BOOT_PUSH_ADDR_LO.ADDR R.BOOT_PUSH_ADDR_HI.ADDR) (s.get R.BOOT_PUSH_LEN.BYTES)
    let code := s.module.fwCode f
    if code ≠ 0 then s.pushDone code else s.pushBegin { file := f, signers := false, owner := none }

/-- BOOT_PUSH_GO (R479). -/
def execBootPushGo (readOk : Bool) (s : State) : Host.Outcome State Fault Refusal := .next (s.pushGo readOk)

/-- Header and entries of a signer-list file. -/
def listBody (f : List Byte) : List Byte := f.take (16 + 2024 * fieldAt f 4 4)

/-- An entry of a signer list names its keys by their hash, with reserved bytes 0 (R484). -/
def signerOk (g : Signer) (e : List Byte) : Bool :=
  g.hash == sha256 (g.ed ++ g.ml) && decide (fieldAt e 32 1 < 2) && zeroIn e 33 7

/-- The checks of a signer-list file (R484), with the codes of R476: 5 length, 1 format, 2 signer, 3 signature. -/
def State.listCode (s : State) (f : List Byte) (ethernet : Bool) : Nat :=
  let n := fieldAt f 4 4
  let b := listBody f
  let block := sliceBytes f b.length 3408
  let own := signersOf f
  let force := signersOf s.boot.signers
  let from_ := if force.isEmpty then (if ethernet then [] else own) else force
  if n > 8 || zeroIn f 8 8 == false then 1
  else if f.length < 16 + 2024 * n + 3408 then 5
  else if !((List.range n).all (fun i => signerOk (nth own i ⟨[], [], [], false⟩) (sliceBytes f (16 + 2024 * i) 2024))) then 1
  else match from_.find? (fun g => g.manage && g.hash == block.take 32) with
    | none => 2
    | some g => if g.verifies (sha256 b) block then 0 else 3

/-- The completion status of a code (R481). -/
def pushStatus : Nat → Status
  | 0 => .ok | 5 => .badLen | 1 => .imgFormat | 2 => .imgSigner | 3 => .imgSignature | 4 => .imgFormat | 7 => .dmaError
  | _ => .internal

/-- FW_PUSH (R481, R484): a file is checked, then written; pushes are served one at a time in start order. -/
def execFwPush (ring : Fin 8192) (index : BitVec 32) (s : State) : Host.Outcome State Fault Refusal :=
  .next (match s.client.started.find? (fun d => d.op == 0x51 && !d.waiting), s.startedAs ring.val index.toNat 0x51 with
    | some d0, some d =>
      if d0 != d || s.boot.push.isSome then s
      else
        let isList := d.data.take 4 == [0x4B, 0x53, 0x4C, 0x31]
        let isFw := d.data.take 4 == [0x4B, 0x46, 0x57, 0x31]
        let code := if isList then s.listCode d.data d.ethernet else if isFw then s.module.fwCode d.data else 1
        if code ≠ 0 then (s.pushDone code).complete d (pushStatus code) code
        else
          let ds := s.client.started.map (fun x => if x == d then { x with waiting := true } else x)
          { s with client := { s.client with started := ds } }.pushBegin
            { file := d.data, signers := isList, owner := some (d.ring, d.index) }
    | _, _ => s)

/-- What a finished push puts into flash: an image into the slot, a list into force and into the configuration. -/
def State.pushStore (s : State) (p : Push) : State :=
  if p.signers then { s with boot := { s.boot with signers := listBody p.file } }.saveConfig
  else { s with boot := { s.boot with slot := p.file } }

/-- A Loft record of what firmware could not complete (R373); the spec gives it no code and no data (log entry 39). -/
def State.internalRecord (s : State) (st : Status) : State :=
  if st = .internal then
    let (c, s) := s.draw
    let (x, s) := s.draw
    s.loftEvent (c.toNat % 65536) (leBytes 8 x.toNat)
  else s

/-- PUSH_COMPLETE (R479, R481): the write and the verify-read end, well or not. -/
def execPushComplete (ok : Bool) (s : State) : Host.Outcome State Fault Refusal :=
  .next (match s.boot.push with
    | none => s
    | some p =>
      let ok := ok && !s.pinsTaken
      let code := if ok then 0 else 6
      let s := (({ s with boot := { s.boot with push := none } }.drop R.BOOT_PUSH_STATUS.BUSY).putFlag R.BOOT_STATUS.FLASH_BUSY
        s.boot.cfgWrite.isSome).pushDone code
      let s := if ok then s.pushStore p else s
      match p.owner with
      | none => s
      | some (r, i) => match s.client.started.find? (fun d => d.ring == r && d.index == i) with
        | none => s
        | some d => (s.internalRecord (pushStatus code)).complete d (pushStatus code) code)

/-! ### Fuses, certificates, attestation (R483, R486, R487) -/

/-- FUSE_BLOW (R483): one fuse of the anti-rollback counter, then one revoke fuse. -/
def execFuseBlow (s : State) : Host.Outcome State Fault Refusal :=
  .next (if !s.flag R.GLB_STATUS.READY || !s.flag R.BOOT_STATUS.FUSE_BUSY then s
    else
      let m := s.module
      let (m, rev) := if m.rollback < s.boot.fuseCount then ({ m with rollback := m.rollback + 1 }, s.boot.fuseRevoke)
        else match (List.range 4).find? (fun k => bit s.boot.fuseRevoke k) with
          | some k => ({ m with revoked := m.revoked + (if bit m.revoked k then 0 else 2 ^ k) }, s.boot.fuseRevoke - 2 ^ k)
          | none => (m, 0)
      let s := { s with module := m, boot := { s.boot with fuseRevoke := rev } }
      let s := (s.put R.BOOT_FW.ROLLBACK m.rollback).put R.BOOT_FW.REVOKED m.revoked
      if m.rollback < s.boot.fuseCount || rev ≠ 0 then s else s.drop R.BOOT_STATUS.FUSE_BUSY)

/-- A write of BOOT_CERT_CTL (R486): LEN and DATA of the certificate and word selected; CERT 3 reads 0. -/
def State.certSelect (s : State) (v : Nat) : State :=
  let c := if v % 4 = 3 then [] else (nth s.module.certs (v % 4) []).take 16384
  let s := s.setReg R.BOOT_CERT_CTL (BitVec.ofNat 32 (v % 16384))
  (s.put R.BOOT_CERT_LEN.BYTES c.length).put R.BOOT_CERT_DATA.N (fieldAt c (v % 16384 / 4 * 4) 4)

/-- BOOT_CERT_SELECT (R486). -/
def execBootCertSelect (cert : Fin 4) (word : BitVec 12) (s : State) : Host.Outcome State Fault Refusal :=
  .next (s.certSelect (cert.val + 4 * word.toNat))

/-- The JOB entry of an attestation report (R487). -/
def State.attestJob (s : State) (j : Nat) : List Byte :=
  let st := s.jobState j
  let dg := match (s.job j).pair with
    | some p => p.image.digest ++ p.weights.digest
    | none => List.replicate 64 0
  leBytes 1 j ++ leBytes 1 st ++ leBytes 1 (s.jobPart j) ++ List.replicate 5 0
    ++ (if st = 0 then List.replicate 64 0 else dg) ++ List.replicate 8 0

/-- The body of an attestation report (R487): bytes 0-5,375. -/
def State.attestBody (s : State) (nonce : List Byte) : List Byte :=
  let fl := (if s.module.coated then 1 else 0) + (if s.flag R.GLB_STATUS.RECOVERY then 2 else 0)
    + (if s.flag R.BOOT_STATUS.CFG_LOST then 4 else 0)
  let fw := match s.boot.running with
    | some _ => (List.range 8).flatMap (fun k => leBytes 4 (s.get (R.BOOT_FW_DIGEST.N k)))
    | none => List.replicate 32 0
  let svn := match s.boot.running with
    | some h => fieldAt h 6 1
    | none => 0
  [0x4B, 0x41, 0x54, 0x31] ++ leBytes 2 1 ++ leBytes 1 s.module.step ++ leBytes 1 fl ++ leBytes 8 s.module.serial
    ++ leBytes 8 s.dtime ++ leBytes 1 s.module.rollback ++ leBytes 1 svn ++ leBytes 1 s.module.revoked ++ [0]
    ++ leBytes 4 (s.reg R.GLB_CORE_MAP).toNat ++ nonce ++ fw ++ sha256 s.boot.signers ++ sha256 s.client.net.allow
    ++ sha256 (nth s.module.certs 0 []) ++ List.replicate 64 0 ++ (List.range 64).flatMap s.attestJob

/-- The seeds of the identity key and the attestation key (R485): "IDK" and "ATK" in bytes. -/
def Module.idSeed (m : Module) : List Byte := hkdf32 m.secret [0x49, 0x44, 0x4B]
def Module.atkSeed (m : Module) : List Byte := hkdf32 m.secret [0x41, 0x54, 0x4B]

/-- The certificates are those of R486 for this module: at most 16 KiB each, the identity certificate with the identity key and the
serial number in decimal, the attestation certificate with the attestation key. -/
def Module.issued (m : Module) : Prop :=
  m.certs.length = 3 ∧ (∀ c ∈ m.certs, c.length ≤ 16384)
    ∧ Config.certKey (nth m.certs 0 []) = Config.ed25519Public m.idSeed
    ∧ Config.certSerial (nth m.certs 0 []) = (Nat.digits 10 m.serial).reverse
    ∧ Config.certKey (nth m.certs 1 []) = Config.mldsaPublic m.atkSeed

/-- An attestation report (R487): the body, both signatures over its SHA-256, reserved bytes. -/
def State.attest (s : State) (nonce : List Byte) : List Byte :=
  let b := s.attestBody nonce
  let dg := sha256 b
  b ++ sliceBytes (Config.ed25519Sign s.module.idSeed dg) 0 64 ++ sliceBytes (Config.mldsaSign s.module.atkSeed dg) 0 3309
    ++ [0, 0, 0]

/-- ATTEST (R487): a commit that is due is applied first (R58). -/
def execAttest (ring : Fin 8192) (index : BitVec 32) (s : State) : Host.Outcome State Fault Refusal :=
  .next (match s.startedAs ring.val index.toNat 0x50 with
    | none => s
    | some d => if s.commitDue.isSome then s else (s.dataOut d (s.attest (sliceBytes d.bytes 24 32))).complete d .ok 0)

/-! ### Supplies (R458, R491, R492) -/

/-- POWER_ON (R491): the main supply has stayed above its threshold for 10 ms, and reset is released. -/
def execPowerOn (s : State) : Host.Outcome State Fault Refusal := .next (if s.boot.power then s else s.resetFrom)

/-- SUPPLY_DROP (R491): the main supply is out of range. -/
def execSupplyDrop (s : State) : Host.Outcome State Fault Refusal := .next (if s.boot.power then s.powerOff else s)

/-- The barrier supply has held the field controller for 5 ms after the logic-side rails switched off (R492). -/
def State.holdUpOver (s : State) : Bool :=
  match s.field.offAt with
  | some t => decide (diff64 s.field.ftime t ≥ 5000000)
  | none => false

/-- HOLD_UP_END (R492): every Qn, LS_A and LS_B goes off. -/
def execHoldUpEnd (s : State) : Host.Outcome State Fault Refusal :=
  .next (if s.boot.power || !s.holdUpOver then s else { s with field := { s.field.again with powered := false } })

/-- Trip thresholds in °C (R458); the cold plate has none. -/
def tripLimit (sensor : Nat) : Option Int :=
  if sensor = 6 || sensor = 7 then some 105 else if sensor < 9 then some 115 else if sensor = 9 then some 125 else none

/-- THERMAL_TRIP (R458): a sensor above its trip threshold switches the main rails off. -/
def execThermalTrip (sensor : Fin 11) (temp : BitVec 8) (s : State) : Host.Outcome State Fault Refusal :=
  .next (match tripLimit sensor.val with
    | some l => if s.boot.power && decide (temp.toInt > l) then s.powerOff else s
    | none => s)

/-! ### Test access port (R502-R504) -/

/-- What the 8-bit instruction register captures (R502). -/
def tapCapture : BitVec 8 := 0b00000001

/-- The instruction of a code (R502): every code without one selects the bypass register. -/
def tapDecode (code : BitVec 8) : TapInstr :=
  match code.toNat with
  | 0 => .extest | 1 => .samplePreload | 2 => .idcode | 3 => .clamp | 4 => .highz | _ => .bypass

/-- Load an instruction; `reg` is what the register it selects captures. -/
def State.tap (s : State) (code : BitVec 8) (reg : BitVec 32) : State :=
  { s with boot := { s.boot with tap := { s.boot.tap with instr := tapDecode code, ir := code, captured := reg } } }

/-- The boundary register takes the cells sampled or shifted in. -/
def State.boundary (s : State) (cells : BitVec 2216) : State :=
  { s with boot := { s.boot with tap := { s.boot.tap with boundary := cells } } }

/-- What the test access port makes of the pin of a boundary cell (R502-R504): its group, and whether the cell's value drives it,
it floats, or the module has it. -/
inductive PinDrive where
  | module | cell (level : Bool) | floats
  deriving DecidableEq, Repr
def State.pinDrive (s : State) (k : Fin 2216) : PinGroup × PinDrive :=
  (Config.cellGroup k, match s.tapActs with
    | .extest => .cell (s.boot.tap.boundary.getLsbD k.val)
    | .clamp => .cell (s.boot.tap.boundary.getLsbD k.val)
    | .highz => .floats
    | _ => .module)

/-- BYPASS (R502): the 1-bit bypass register, which captures 0. The row's code is 0xFF; every other code without an instruction selects
the same register (tapDecode). -/
def execBypass (s : State) : Host.Outcome State Fault Refusal := .next (s.tap 0xFF 0)

/-- EXTEST (R502, R504): the boundary register takes the cells shifted in and drives the pins; while the instruction acts as BYPASS
the bypass register takes its place. -/
def execExtest (cells : BitVec 2216) (s : State) : Host.Outcome State Fault Refusal :=
  let s := s.tap 0 0
  .next (if s.tapBypassed then s else s.boundary cells)

/-- SAMPLE/PRELOAD (R502): the boundary register takes the cells sampled or shifted in; the pins are not driven. -/
def execSamplePreload (cells : BitVec 2216) (s : State) : Host.Outcome State Fault Refusal :=
  .next ((s.tap 1 0).boundary cells)

/-- IDCODE (R502). -/
def execIdcode (s : State) : Host.Outcome State Fault Refusal :=
  .next (s.tap 2 (BitVec.ofNat 32 s.module.idcode))

/-- CLAMP (R502, R504): the boundary register holds the pins, and the bypass register is selected. -/
def execClamp (s : State) : Host.Outcome State Fault Refusal := .next (s.tap 3 0)

/-- HIGHZ (R502, R504): the pins float, and the bypass register is selected. -/
def execHighz (s : State) : Host.Outcome State Fault Refusal := .next (s.tap 4 0)

end Sys2Proof.Machine
end

