-- ==== Sys2Proof/Machine/Lanes.lean ====
section
/-! DEFINITION. Machine/Lanes.lean: comma lanes: 8b/10b groups, alignment, error counting, the pattern checker, the
far-end loopback and the eye scan (spec/04_comma_lanes.md, R81-R95). A code group is written with its first bit (a) as
the most significant. The 8b/10b code itself is taken from its standard (log entry 7). -/

namespace Sys2Proof.Machine

/-! ### The 8b/10b code -/

/-- Six-bit sub-blocks of D.0-D.31 at negative running disparity. -/
def code6 : List Nat := [
  0b100111, 0b011101, 0b101101, 0b110001, 0b110101, 0b101001, 0b011001, 0b111000,
  0b111001, 0b100101, 0b010101, 0b110100, 0b001101, 0b101100, 0b011100, 0b010111,
  0b011011, 0b100011, 0b010011, 0b110010, 0b001011, 0b101010, 0b011010, 0b111010,
  0b110011, 0b100110, 0b010110, 0b110110, 0b001110, 0b101110, 0b011110, 0b101011]

/-- Four-bit sub-blocks of y = 0-7 at negative running disparity. -/
def code4 : List Nat := [0b1011, 0b1001, 0b0101, 0b1100, 0b1101, 0b1010, 0b0110, 0b1110]

/-- A sub-block of `w` bits at running disparity `pos`: unbalanced ones and the two special balanced ones are
complemented. -/
def subBlock (w c : Nat) (pos : Bool) : Nat :=
  let special := c == (if w = 6 then 0b111000 else 0b1100)
  if pos && (2 * popCount w c != w || special) then 2 ^ w - 1 - c else c

/-- Running disparity after a sub-block. -/
def rdAfter (w c : Nat) (pos : Bool) : Bool := if 2 * popCount w c = w then pos else decide (2 * popCount w c > w)

/-- The group of data byte `b` at running disparity `pos`, and the disparity after it. -/
def encodeD (b : Nat) (pos : Bool) : Nat × Bool :=
  let x := b % 32
  let c6 := subBlock 6 (nth code6 x 0) pos
  let p6 := rdAfter 6 c6 pos
  let alt := b / 32 % 8 == 7 && (if p6 then x == 11 || x == 13 || x == 14 else x == 17 || x == 18 || x == 20)
  let c4 := subBlock 4 (if alt then 0b0111 else nth code4 (b / 32 % 8) 0) p6
  (c6 * 16 + c4, rdAfter 4 c4 p6)

/-- Control groups at negative running disparity, with their bytes: K28.0-K28.7, K23.7, K27.7, K29.7, K30.7. -/
def codeK : List (Nat × Nat) := [
  (0x1C, 0b0011110100), (0x3C, 0b0011111001), (0x5C, 0b0011110101), (0x7C, 0b0011110011),
  (0x9C, 0b0011110010), (0xBC, 0b0011111010), (0xDC, 0b0011110110), (0xFC, 0b0011111000),
  (0xF7, 0b1110101000), (0xFB, 0b1101101000), (0xFD, 0b1011101000), (0xFE, 0b0111101000)]

/-- The group of a control byte at running disparity `pos`, and the disparity after it. -/
def encodeK (c : Nat) (pos : Bool) : Nat × Bool :=
  let g := if pos then 1023 - c else c
  (g, rdAfter 10 g pos)

/-- A decoded group: byte, control mark, disparity after it. -/
structure Decoded where
  byte : Nat
  ctl : Bool
  rd : Bool
  deriving DecidableEq, Repr

/-- The group decoded at running disparity `pos`, if it is one of that disparity's. -/
def decodeAt (g : Nat) (pos : Bool) : Option Decoded :=
  match (List.range 256).find? (fun b => (encodeD b pos).1 == g) with
  | some b => some ⟨b, false, (encodeD b pos).2⟩
  | none => (codeK.find? (fun k => (encodeK k.2 pos).1 == g)).map (fun k => ⟨k.1, true, (encodeK k.2 pos).2⟩)

/-- A group decoded: right at disparity `pos`, else wrong in disparity, else a code violation (R88). -/
inductive GroupClass where
  | good (d : Decoded)
  | disp (d : Decoded)
  | cv
  deriving DecidableEq, Repr

/-- Classify a group. After a disparity error the disparity is taken from the group received (R88). -/
def classify (g : Nat) (pos : Bool) : GroupClass :=
  match decodeAt g pos with
  | some d => .good d
  | none => match decodeAt g (!pos) with
    | some d => .disp d
    | none => .cv

/-- A comma: the 7 bits 0011111 or 1100000. -/
def isComma (n : Nat) : Bool := n == 0b0011111 || n == 0b1100000

/-- A group that holds a comma: within a group it stands at its begin. -/
def commaGroup (g : Nat) : Bool := isComma (g / 8)

/-- A comma straddles the boundary between two groups (R86, R88). DESIGN CHOICE (log entry 44): it counts against the later
of the two. -/
def straddles (prev g : Nat) : Bool :=
  (List.range 6).any (fun k => isComma ((prev * 1024 + g) / 2 ^ (k + 4) % 128))

/-! ### Lane states (R83) -/

/-- Lane `n`. -/
def State.lane (s : State) (n : Nat) : LaneSt := nth s.lanes n {}

/-- Replace lane `n`. -/
def State.setLane (s : State) (n : Nat) (l : LaneSt) : State := { s with lanes := setNth s.lanes n l }

/-- LANE_Ln_STATUS.STATE: 0 OFF, 1 NO_SIGNAL, 2 CDR_ACQ, 3 ACQUIRE, 4 ALIGNED. -/
def State.laneState (s : State) (n : Nat) : Nat := s.get (R.LANE_L_STATUS.STATE n)

/-- A lane delivers to its link (R84, R93). -/
def State.laneUp (s : State) (n : Nat) : Bool :=
  s.laneState n == 4 && s.get (R.LANE_L_CFG.LOOP n) == 0 && s.get (R.LANE_L_CFG.PATTERN n) == 0

/-- The loopback of a lane (R92). -/
def State.loop (s : State) (n : Nat) : Nat := s.get (R.LANE_L_CFG.LOOP n)

/-- A near-end loopback: the lane receives its own signal, and the receive pin is ignored (R92, R93). -/
def State.nearEnd (s : State) (n : Nat) : Bool := s.loop n == 1 || s.loop n == 2

/-- The receiver begins anew: alignment, checker and far-end buffer. A pattern goes on being sent (R95). -/
def LaneSt.anew (l : LaneSt) : LaneSt :=
  { l with raw := none, cand := none, count := 0, score := 0, good := 0, rdPos := false, last := 0, hist := 0, run := 0, buf := []
           sending := false, tx := if l.txHist = 0 then [] else l.tx, given := none }

/-- The camera whose lane group holds lane `n` (R98). -/
def State.camOfLane (s : State) (n : Nat) : Option Nat :=
  (List.range 16).find? (fun c => s.flag (R.CXP_CAM_CFG.ENABLE c)
    && decide (s.get (R.CXP_CAM_CFG.LANE_BASE c) ≤ n)
    && decide (n < s.get (R.CXP_CAM_CFG.LANE_BASE c) + 2 ^ s.get (R.CXP_CAM_CFG.LANES c)))

/-- Camera `c`. -/
def State.cam (s : State) (c : Nat) : CamSt := nth s.cams c {}

/-- Replace camera `c`. -/
def State.setCam (s : State) (c : Nat) (x : CamSt) : State := { s with cams := setNth s.cams c x }

/-- Lanes of a camera's group. -/
def State.camLanes (s : State) (c : Nat) : List Nat :=
  (List.range (2 ^ s.get (R.CXP_CAM_CFG.LANES c))).map (fun k => s.get (R.CXP_CAM_CFG.LANE_BASE c) + k)

/-- Entries of the lane map are cleared when their camera leaves STREAMING (R99). -/
def State.clearMap (s : State) (c : Nat) : State :=
  (List.range 32).foldl (fun (s : State) k =>
    if s.flag (R.CXP_MAP.VALID k) && s.get (R.CXP_MAP.CAMERA k) == c then s.setReg (R.CXP_MAP k) 0 else s) s

/-- CAMERA_LINK_DOWN (R102): a lane of a STREAMING camera left ALIGNED. -/
def State.cameraDown (s : State) (c : Nat) : State :=
  if s.get (R.CXP_CAM_STATUS.STATE c) != 4 then s
  else
    let s := ((s.put (R.CXP_CAM_STATUS.STATE c) 5).bump (R.CXP_CAM_LINK_LOSS.N c)).latch (R.CXP_CAM_STATUS.LOSS_SEEN c)
    let s := ((s.drop (R.CXP_CAM_STATUS.LANES_NOW c)).drop (R.CXP_CAM_STATUS.RATE_NOW c)).clearMap c
    let s := s.setCam c { s.cam c with
      since := s.dtime, g0 := none, l0 := none, cur := none, disc := .idle, rx := [], skipping := false
      lostFrom := none }
    if s.flag (R.CXP_CAM_CFG.STOP_ON_LOSS c) then s.lineStop .camera else s

/-- The lanes of a fabric port (R426). -/
def portLanes (p : Nat) : List Nat := [32 + 4 * p, 33 + 4 * p, 34 + 4 * p, 35 + 4 * p]

/-- A packet that was queued at a port whose link went down takes another route; a request that finds none was carried
by no link (R228). -/
def State.resend (s : State) (k : GPacket) : State :=
  if k.bcast then s.giveBack k
  else if (s.route k.vc k.part k.dst false).isSome || k.vc = 3 then s.sendTo k false
  else if k.src = s.myId && (k.type = 0x20 || k.type = 0x24) then { s with gts := { s.gts with unsent := s.gts.unsent ++ [k.tag] } }
  else s.giveBack k

/-- A link goes down (R427, R428, R430): the port trains again and its replay buffer is discarded. A port in UP was a source of the
module's clock (R446). -/
def State.linkDown (s : State) (p : Nat) : State :=
  let st := s.get (R.GTS_G_STATUS.STATE p)
  if st = 2 || st = 3 then
    let s := if st = 3 then s.bump (R.GTS_G_DOWN.N p) else s
    let s := (s.put (R.GTS_G_STATUS.STATE p) 1)
    let queued := (s.gport p).out
    let s := (if st = 3 then s.portLost p else s)
    let s := { s with gts := { s.gts with ports := setNth s.gts.ports p {} } }.portsChanged
    queued.foldl (fun (s : State) k => s.resend k) s
  else s

/-- A lane left ALIGNED, or is withdrawn: its link layer sees it as down on the same cycle (R84, R93). -/
def State.linkSees (s : State) (n : Nat) : State :=
  if n < 32 then match s.camOfLane n with
    | some c => s.cameraDown c
    | none => s
  else
    let p := (n - 32) / 4
    (s.setGport p { s.gport p with skew := List.replicate 4 none, deskewed := false }).linkDown p

/-- TRAIN ends when all four lanes of the port are ALIGNED and deskewed (R428); the port sends its first HELLO at once
(log entry 31). -/
def State.trainDone (s : State) (p : Nat) : State :=
  if s.get (R.GTS_G_STATUS.STATE p) == 1 && (s.gport p).deskewed && (portLanes p).all (fun k => s.laneUp k) then
    (s.put (R.GTS_G_STATUS.STATE p) 2).sendHello p
  else s

/-- A symbol of lane `j` reaches the link (R427). The lanes are deskewed on IDLE sets: each begins with its first IDLE symbol, and
a set is one symbol of each. A lane that runs more than 16 symbols ahead has them all begin anew (log entry 31). -/
def PortSt.symbol (x : PortSt) (j : Nat) (b : Bool × Byte) : PortSt :=
  let q := match nth x.skew j none with
    | some l => some (l ++ [b])
    | none => if b == (true, 0xBC) then some [b] else none
  let ks := setNth x.skew j q
  if ks.all (fun l => (l.getD []).length > 0) then
    { x with got := ks.map (fun l => (l.getD []).headD (false, 0)), skew := ks.map (Option.map List.tail), deskewed := true }
  else if (q.getD []).length > 16 then { x with skew := List.replicate 4 none, deskewed := false }
  else { x with skew := ks }

/-- The byte that lane `n` of a fabric port has delivered goes to its link. -/
def State.linkSymbol (s : State) (n : Nat) : State :=
  if n < 32 then s
  else match (s.lane n).given with
    | none => s
    | some (b, ctl, _) =>
      let p := (n - 32) / 4
      (s.setGport p ((s.gport p).symbol ((n - 32) % 4) (ctl, BitVec.ofNat 8 b))).trainDone p

/-- Set a lane's state; leaving ALIGNED takes its link down. -/
def State.toLaneState (s : State) (n st : Nat) : State :=
  let was := s.laneState n
  let s := (s.put (R.LANE_L_STATUS.STATE n) st).putFlag (R.LANE_L_STATUS.CDR_LOCK n) (decide (st ≥ 3))
  let s := if st = 4 then s else s.drop (R.LANE_L_STATUS.PAT_LOCK n)
  if was = 4 && st != 4 then s.linkSees n else s

/-- A running eye scan ends at once with ABORTED: the bits and mismatches compared so far are not stated (R91). -/
def State.abortScan (s : State) (n : Nat) : State :=
  if !s.flag (R.LANE_L_EYE_STAT.BUSY n) then s
  else
    let (v, s) := s.draw
    let (w, s) := s.draw
    let total := 2 ^ ((s.lane n).dwell + 10)
    let b := v.toNat % total
    let s := ((s.drop (R.LANE_L_EYE_STAT.BUSY n)).latch (R.LANE_L_EYE_STAT.ABORTED n)).put (R.LANE_L_EYE_STAT.BITS_HI n) (b / 4294967296)
    (s.put (R.LANE_L_EYE_BITS_LO.N n) b).put (R.LANE_L_EYE_ERR.N n) (if b = 0 then 0 else w.toNat % (b + 1))

/-- Restart a lane at clock acquisition (R82, R87), or without a signal at NO_SIGNAL. -/
def State.restartLane (s : State) (n : Nat) : State :=
  let s := s.abortScan n
  let here := s.nearEnd n || (s.lane n).pin
  let s := (s.putFlag (R.LANE_L_STATUS.SIG_DET n) here).toLaneState n (if here then 2 else 1)
  s.setLane n (s.lane n).anew

/-- The link layer sets the rate in use; a change of it restarts the lane (R82). -/
def State.setRate (s : State) (n rate : Nat) : State :=
  if s.get (R.LANE_L_STATUS.RATE_NOW n) = rate then s
  else
    let s := s.put (R.LANE_L_STATUS.RATE_NOW n) rate
    if s.flag (R.LANE_L_CFG.ENABLE n) then s.restartLane n else s

/-- LANE_SIGNAL_DETECT (R83): a signal on the receive pin, which a near-end loopback ignores (R93). -/
def execLaneSignalDetect (lane : Fin 64) (s : State) : Host.Outcome State Fault Refusal :=
  let n := lane.val
  .next (if !s.flag (R.LANE_L_CFG.ENABLE n) then s
    else
      let s := s.setLane n { s.lane n with pin := true }
      if s.nearEnd n then s
      else
        let s := s.raise (R.LANE_L_STATUS.SIG_DET n)
        if s.laneState n = 1 then s.toLaneState n 2 else s)

/-- LANE_SIGNAL_LOSS (R83): from any later state to NO_SIGNAL; the clock is lost with it, so a scan turns INVALID. A
near-end loopback ignores the receive pin (R93). -/
def execLaneSignalLoss (lane : Fin 64) (s : State) : Host.Outcome State Fault Refusal :=
  let n := lane.val
  let s := s.setLane n { s.lane n with pin := false }
  .next (if s.nearEnd n then s
    else
      let s := s.drop (R.LANE_L_STATUS.SIG_DET n)
      if s.laneState n ≥ 2 then
        let s := if s.flag (R.LANE_L_EYE_STAT.BUSY n) then s.latch (R.LANE_L_EYE_STAT.INVALID n) else s
        let s := s.toLaneState n 1
        s.setLane n (s.lane n).anew
      else s)

/-- CDR_LOCK (R83): CDR_ACQ to ACQUIRE. DESIGN CHOICE (log entry 44): a lane in near-end parallel loopback, whose clock recovery
is bypassed, takes it and CDR_LOCK_LOSS like any other. -/
def execCdrLock (lane : Fin 64) (s : State) : Host.Outcome State Fault Refusal :=
  let n := lane.val
  .next (if s.laneState n = 2 then
      let s := s.toLaneState n 3
      s.setLane n (s.lane n).anew
    else s)

/-- CDR_LOCK_LOSS (R83, R91): a running scan goes on to its count with INVALID. -/
def execCdrLockLoss (lane : Fin 64) (s : State) : Host.Outcome State Fault Refusal :=
  let n := lane.val
  .next (if s.laneState n ≥ 3 then
      let s := if s.flag (R.LANE_L_EYE_STAT.BUSY n) then s.latch (R.LANE_L_EYE_STAT.INVALID n) else s
      let s := s.toLaneState n 2
      s.setLane n (s.lane n).anew
    else s)

/-! ### The pattern generator and the loopbacks (R92-R95) -/

/-- The next byte of a PRBS from its past bits, newest bit lowest: x^7 + x^6 + 1 or x^31 + x^28 + 1; first bit of a byte
least significant (log entry 7). -/
def prbsByte (taps : Nat × Nat) (hist : Nat) : Nat × Nat :=
  (List.range 8).foldl (fun (a : Nat × Nat) k =>
    let b := (hist2 a.2 taps)
    (a.1 + b * 2 ^ k, (a.2 * 2 + b) % 2 ^ 64)) (0, hist)
where
  /-- The next bit. -/
  hist2 (h : Nat) (t : Nat × Nat) : Nat := (h / 2 ^ (t.1 - 1) + h / 2 ^ (t.2 - 1)) % 2

/-- Past bits after a received byte. -/
def shiftByte (hist b : Nat) : Nat :=
  (List.range 8).foldl (fun h k => (h * 2 + b / 2 ^ k % 2) % 2 ^ 64) hist

/-- Taps of the pattern of a lane (R95). -/
def State.taps (s : State) (n : Nat) : Nat × Nat := if s.get (R.LANE_L_CFG.PATTERN n) = 1 then (7, 6) else (31, 28)

/-- The generator's next group: a byte of the PRBS as data, and K28.5 in the place of every 256th (R95). -/
def State.generate (s : State) (n : Nat) : Nat × State :=
  let l := s.lane n
  let b := prbsByte (s.taps n) l.txHist
  let g := if l.txCount = 255 then encodeK 0b0011111010 l.txRd else encodeD b.1 l.txRd
  (g.1, s.setLane n { l with txHist := b.2, txCount := (l.txCount + 1) % 256, txRd := g.2 })

/-- A group with its polarity inverted. -/
def inverted (b : Bool) (g : Nat) : Nat := if b then 1023 - g % 1024 else g

/-- Groups go to the transmit pin: the transmitter of lanes 0-31 has none (R82), and TX_SQUELCH idles the pin in near-end
serial loopback (R93). -/
def State.drivePin (s : State) (n : Nat) (gs : List Nat) : State :=
  let off := decide (n < 32) || s.loop n == 1 || (s.loop n == 2 && s.flag (R.LANE_L_CFG.TX_SQUELCH n))
  s.setLane n { s.lane n with tx := if off then [] else gs.map (inverted (s.flag (R.LANE_L_CFG.TX_INV n))) }

/-- One group time: the group that reaches the aligner (R92), and what the transmitter sends. `bits` is the group at the
receive pin, in a near-end loopback without a pattern the group that the encoder is given; `wrong` are the bits of a looped pattern
that the receiver takes wrong, of which the parallel loopback has none (log entry 44). -/
def State.groupTime (s : State) (n bits wrong : Nat) : Nat × State :=
  let rxInv := s.flag (R.LANE_L_CFG.RX_INV n)
  let serial (g : Nat) : Nat := inverted (s.flag (R.LANE_L_CFG.TX_INV n) != rxInv) g
  if s.get (R.LANE_L_CFG.PATTERN n) ≠ 0 then
    let (own, t) := s.generate n
    (match s.loop n with
      | 1 => own
      | 2 => serial (Nat.xor own wrong)
      | _ => inverted rxInv bits, t.drivePin n [own])
  else match s.loop n with
    | 1 => (bits, s)
    | 2 => (serial bits, s.drivePin n [bits])
    | _ => (inverted rxInv bits, s)

/-- The far-end buffer at 2 groups repeats the oldest group that holds no comma, at 14 it drops the oldest ones that hold
none, until it holds 8 again (R94). DESIGN CHOICE (log entry 44): with too few such groups it comes as near to 8 as it can. -/
def farReturn (b : List Nat) : List Nat :=
  if b.length ≤ 2 then
    let i := b.findIdx (fun g => !commaGroup g)
    if i < b.length then b.take (i + 1) ++ List.replicate (8 - b.length) (nth b i 0) ++ b.drop (i + 1) else b
  else if b.length ≥ 14 then dropPlain (b.length - 8) b
  else b
where
  /-- Drop the first `k` groups that hold no comma. -/
  dropPlain (k : Nat) : List Nat → List Nat
    | [] => []
    | g :: r => if k = 0 || commaGroup g then g :: dropPlain k r else dropPlain (k - 1) r

/-- FE_SLIP (R94): the far-end buffer takes a group and sends `out`; it sends from 8 groups on. DESIGN CHOICE (log entry 44):
with a pattern set too, the lane sends its groups in ALIGNED, the pattern before. -/
def State.farEnd (s : State) (n g out : Nat) : State :=
  if s.loop n != 3 then s
  else
    let l := s.lane n
    let b := l.buf ++ [g]
    if !l.sending then (s.setLane n { l with buf := b, sending := decide (b.length ≥ 8) }).drivePin n []
    else
      let r := farReturn (b.drop out)
      let t := (s.setLane n { l with buf := r }).drivePin n (b.take out)
      if r.length = (b.drop out).length then t else t.bumpNow (R.LANE_L_EVT.FE_SLIP n)

/-! ### Alignment (R85, R86, R88) -/

/-- The running disparity that a group leaves when it begins anew. -/
def groupRd (g : Nat) : Bool :=
  match decodeAt g false with
  | some d => d.rd
  | none => match decodeAt g true with
    | some d => d.rd
    | none => false

/-- `commas` have been seen on the candidate boundary (R85). -/
def LaneSt.acquired (l : LaneSt) (commas : Nat) : Bool := decide (l.count ≥ commas && l.count > 0)

/-- The group `g` that begins at bit position `k` of ten (R85). A comma on the candidate boundary counts on; one on another
boundary, or in a group that is not valid there, starts the count at 1; a group on the candidate boundary that holds none and is
not valid leaves no candidate; other positions hold no group. -/
def LaneSt.seek (commas : Nat) (l : LaneSt) (k g : Nat) : LaneSt :=
  if l.acquired commas then l
  else if commaGroup g then
    match l.cand == some k, classify g l.rdPos with
    | true, .good d => { l with count := l.count + 1, rdPos := d.rd, last := g }
    | _, _ => { l with cand := some k, count := 1, rdPos := groupRd g, last := g }
  else if l.cand == some k then
    match classify g l.rdPos with
    | .good d => { l with rdPos := d.rd }
    | _ => { l with cand := none, count := 0 }
  else l

/-- The groups that end in the ten bits `w`, after the ten bits `prev`: the bit position at which each begins, and its bits. -/
def groupsIn (prev : Option Nat) (w : Nat) : List (Nat × Nat) :=
  match prev with
  | none => [(0, w)]
  | some p => (List.range 10).map (fun k => ((k + 1) % 10, (p * 1024 + w) / 2 ^ (9 - k) % 1024))

/-- Ten bits received in ACQUIRE (R85): every bit position is searched for a comma. -/
def State.acquire (s : State) (n w : Nat) : State :=
  let l := s.lane n
  let commas := s.get (R.LANE_L_CFG.ACQ_COMMAS n)
  let l := { (groupsIn l.raw w).foldl (fun (l : LaneSt) e => l.seek commas e.1 e.2) l with raw := some w }
  if l.acquired commas then (s.setLane n { l.anew with rdPos := l.rdPos, last := l.last, tx := l.tx }).toLaneState n 4
  else s.setLane n l

/-- ACQUIRE_GROUP (R85): ten bits received, the first the most significant, wherever the boundary of a group lies in them. -/
def execAcquireGroup (lane : Fin 64) (received wrong : BitVec 10) (s : State) : Host.Outcome State Fault Refusal :=
  let n := lane.val
  .next (if s.laneState n != 3 then s
    else
      let (w, s) := s.groupTime n received.toNat wrong.toNat
      s.acquire n w)

/-! ### The pattern checker (R95) -/

/-- One group at the checker: it locks after 4 or 8 matching bytes, counts mismatches while locked, and after 64 in a row
locks again. A control group stands for one byte of the sequence. -/
def State.checkPattern (s : State) (n : Nat) (b : Option Nat) : State :=
  let p := s.get (R.LANE_L_CFG.PATTERN n)
  if p = 0 then s
  else
    let l := s.lane n
    let (want, h') := prbsByte (s.taps n) l.hist
    if s.flag (R.LANE_L_STATUS.PAT_LOCK n) then
      match b with
      | none => s.setLane n { l with hist := h' }
      | some x =>
        if x = want then s.setLane n { l with hist := h', run := 0 }
        else
          let s := s.bumpNow (R.LANE_L_PATERR.N n)
          if l.run + 1 ≥ 64 then (s.drop (R.LANE_L_STATUS.PAT_LOCK n)).setLane n { l with hist := shiftByte l.hist x, run := 0 }
          else s.setLane n { l with hist := h', run := l.run + 1 }
    else match b with
      | none => s.setLane n { l with hist := h' }
      | some x =>
        let run := if x = want then l.run + 1 else 0
        if run ≥ (if p = 1 then 4 else 8) then
          (s.raise (R.LANE_L_STATUS.PAT_LOCK n)).setLane n { l with hist := shiftByte l.hist x, run := 0 }
        else s.setLane n { l with hist := shiftByte l.hist x, run := run }

/-- LOA (R86): the score after a group, and loss of alignment at LOA_LIMIT. -/
def State.score (s : State) (n : Nat) (bad : Bool) : State :=
  let l := s.lane n
  let good := if bad then 0 else if l.good + 1 = 64 then 0 else l.good + 1
  let sc := if bad then l.score + 1 else if l.good + 1 = 64 then l.score - 1 else l.score
  let s := s.setLane n { l with good := good, score := sc }
  if sc ≥ s.get (R.LANE_L_CFG.LOA_LIMIT n) then
    (((s.bumpNow (R.LANE_L_EVT.LOA n)).latch (R.LANE_L_STATUS.LOA_SEEN n)).toLaneState n 3).setLane n { l.anew with raw := some l.last }
  else s

/-- The group count CG, 48 bits, saturating (R88, R89). -/
def State.countGroup (s : State) (n : Nat) : State :=
  let v := s.get64 (R.LANE_L_CG_LO.N n) (R.LANE_L_CG_HI.N n)
  (s.put64 (R.LANE_L_CG_LO.N n) (R.LANE_L_CG_HI.N n) (satNat 48 (v + 1))).bump (R.LANE_L_CG_LO.N n).onTick

/-- The decoded byte goes to the link layer with its K flag and its error flag (R84); the byte of a code violation is
free. A lane that is withdrawn from its link gives none (R93). -/
def State.giveByte (s : State) (n : Nat) (cls : GroupClass) (bad : Bool) : State :=
  let (v, t) := s.draw
  if !s.laneUp n then s.setLane n { s.lane n with given := none }
  else match cls with
    | .good d => s.setLane n { s.lane n with given := some (d.byte, d.ctl, bad) }
    | .disp d => s.setLane n { s.lane n with given := some (d.byte, d.ctl, bad) }
    | .cv => t.setLane n { t.lane n with given := some (v.toNat % 256, false, bad) }

/-- A group in ALIGNED (R84, R86, R88): counted in at most one error counter, delivered, checked and scored. DESIGN CHOICE
(log entry 44): a code violation leaves the running disparity as it was. -/
def State.alignedGroup (s : State) (n g out : Nat) : State :=
  let l := s.lane n
  let s := s.countGroup n
  let cls := classify g l.rdPos
  let mis := straddles l.last g
  let bad := mis || (match cls with
    | .good _ => false
    | _ => true)
  let s := if mis then s.bumpNow (R.LANE_L_EVT.MIS_COMMA n)
    else match cls with
      | .good _ => s
      | .disp _ => s.bumpNow (R.LANE_L_ERR.DISP n)
      | .cv => s.bumpNow (R.LANE_L_ERR.CV n)
  let rd := match cls with
    | .good d => d.rd
    | .disp d => d.rd
    | .cv => l.rdPos
  let s := ((s.setLane n { l with rdPos := rd, last := g }).giveByte n cls bad).linkSymbol n
  let s := (match cls with
    | .good d => s.checkPattern n (if d.ctl then none else some d.byte)
    | .disp d => s.checkPattern n (if d.ctl then none else some d.byte)
    | .cv => s.checkPattern n (some 256)).farEnd n g out
  s.score n bad

/-- ALIGNED_GROUP (R86, R88): one group on the fixed boundary; `drained` groups left the far-end buffer since the last. -/
def execAlignedGroup (lane : Fin 64) (group : BitVec 10) (drained : Fin 4) (s : State) : Host.Outcome State Fault Refusal :=
  let n := lane.val
  .next (if s.laneState n != 4 then s
    else
      let (g, s) := s.groupTime n group.toNat group.toNat
      s.alignedGroup n g drained.val)

/-! ### Eye scan (R90, R91) -/

/-- What a write of START does: each row of R91 that applies sets its flag, and without one the scan begins with the values
latched (R90). -/
def State.eyeStart (s : State) (n phase voff dwell : Nat) : State :=
  let p := signed 7 phase
  let v := signed 9 voff
  let busy := s.flag (R.LANE_L_EYE_STAT.BUSY n)
  let range := decide (p < -32 || p > 31 || v < -127 || v > 127 || dwell > 24)
  let noLock := decide (s.laneState n < 3)
  let s := if busy then s.latch (R.LANE_L_EYE_STAT.OVERRUN n) else s
  let s := if range then s.latch (R.LANE_L_EYE_STAT.RANGE n) else s
  let s := if noLock then s.latch (R.LANE_L_EYE_STAT.NOLOCK n) else s
  if busy || range || noLock then s
  else
    let s := (s.drop (R.LANE_L_EYE_ERR.N n)).drop (R.LANE_L_EYE_BITS_LO.N n)
    let s := (s.drop (R.LANE_L_EYE_STAT.BITS_HI n)).raise (R.LANE_L_EYE_STAT.BUSY n)
    s.setLane n { s.lane n with dwell := dwell, phase := p, voff := v }

/-- EYE_SCAN_START (R90): a write of LANE_Ln_EYE_CTL with START 1. -/
def execEyeScanStart (lane : Fin 64) (phase : BitVec 7) (voff : BitVec 9) (dwell : BitVec 5) (s : State) :
    Host.Outcome State Fault Refusal :=
  let n := lane.val
  .next (s.written (R.LANE_L_EYE_CTL n) (fun s =>
    let s := ((s.put (R.LANE_L_EYE_CTL.PHASE n) phase.toNat).put (R.LANE_L_EYE_CTL.VOFF n) voff.toNat).put
      (R.LANE_L_EYE_CTL.DWELL n) dwell.toNat
    s.eyeStart n phase.toNat voff.toNat dwell.toNat))

/-- EYE_SCAN_ABORT (R91). -/
def execEyeScanAbort (lane : Fin 64) (s : State) : Host.Outcome State Fault Refusal :=
  .next (s.written (R.LANE_L_EYE_CTL lane.val) (fun s => s.abortScan lane.val))

/-- EYE_SCAN_DONE (R90): the count is reached with so many mismatches. -/
def execEyeScanDone (lane : Fin 64) (mismatches : BitVec 40) (s : State) : Host.Outcome State Fault Refusal :=
  let n := lane.val
  .next (if !s.flag (R.LANE_L_EYE_STAT.BUSY n) then s
    else
      let b := 2 ^ ((s.lane n).dwell + 10)
      let s := ((s.drop (R.LANE_L_EYE_STAT.BUSY n)).latch (R.LANE_L_EYE_STAT.DONE n)).put (R.LANE_L_EYE_STAT.BITS_HI n) (b / 4294967296)
      (s.put (R.LANE_L_EYE_BITS_LO.N n) b).put (R.LANE_L_EYE_ERR.N n) (satNat 32 (Nat.min mismatches.toNat b)))

/-- The generator starts with a commit that sets PATTERN: the spec states no first bits, so they are free, but not all 0
(R95). -/
def State.startPattern (s : State) (n : Nat) : State :=
  if s.get (R.LANE_L_CFG.PATTERN n) = 0 then s.setLane n { s.lane n with txHist := 0 }
  else
    let (v, s) := s.draw
    s.setLane n { s.lane n with txHist := 1 + v.toNat % (2 ^ (s.taps n).1 - 1), txCount := 0, txRd := false }

/-- A lane that receives no groups goes on sending its pattern (R95): one group in 4 ns stands for those of that time (log entry
44). -/
def State.sendPattern (s : State) (n : Nat) : State :=
  if s.laneState n = 1 || s.laneState n = 2 then
    let (own, t) := s.generate n
    t.drivePin n [own]
  else s

/-- The lanes that send a pattern and receive no groups send on (R95). -/
def State.sendPatterns (s : State) : State :=
  ((List.range 64).filter (fun n => (s.lane n).txHist != 0)).foldl (fun (s : State) n => s.sendPattern n) s

/-- What a commit does to a lane (R83, R87): a change of RATE, RX_INV, TX_INV, LOOP, PATTERN or ENABLE restarts it. In a
near-end loopback the lane's own signal is there at once. DESIGN CHOICE (log entry 44): RATE_NOW of a lane that is disabled
stays as it was. -/
def State.laneCommit (s old : State) (n : Nat) : State :=
  let on := s.flag (R.LANE_L_CFG.ENABLE n)
  let was := old.flag (R.LANE_L_CFG.ENABLE n)
  let ch (f : Fld) : Bool := old.get f != s.get f
  if on && !was then
    let s := ((s.put (R.LANE_L_STATUS.RATE_NOW n) (s.get (R.LANE_L_CFG.RATE n))).setLane n {}).restartLane n
    s.startPattern n
  else if was && !on then
    (((s.abortScan n).toLaneState n 0).drop (R.LANE_L_STATUS.SIG_DET n)).setLane n {}
  else if on && (ch (R.LANE_L_CFG.RATE n) || ch (R.LANE_L_CFG.RX_INV n) || ch (R.LANE_L_CFG.TX_INV n)
      || ch (R.LANE_L_CFG.LOOP n) || ch (R.LANE_L_CFG.PATTERN n)) then
    let s := if ch (R.LANE_L_CFG.RATE n) then s.put (R.LANE_L_STATUS.RATE_NOW n) (s.get (R.LANE_L_CFG.RATE n)) else s
    let s := s.restartLane n
    let s := if ch (R.LANE_L_CFG.PATTERN n) then s.startPattern n else s
    if s.laneUp n then s else s.linkSees n
  else s

end Sys2Proof.Machine
end

