-- ==== Sys2Proof/Machine/Camera.lean ====
section
/-! DEFINITION. Machine/Camera.lean: discovery of cameras, control accesses, line gates, slots and stream packets
(spec/05_camera_links.md, R96-R112). -/

namespace Sys2Proof.Machine

/-! ### Discovery (R100, R101) -/

/-- CXP_CAMc_STATUS.STATE: 0 OFF, 1 DISCOVER, 2 CONFIG, 3 CHECK, 4 STREAMING, 5 LINK_DOWN, 6 FAILED. -/
def State.camState (s : State) (c : Nat) : Nat := s.get (R.CXP_CAM_STATUS.STATE c)

/-- Put discovery at a step; `since` is the tick of the access. -/
def State.setDisc (s : State) (c : Nat) (d : Disc) : State := s.setCam c { s.cam c with disc := d, since := s.dtime }

/-- A camera leaves STREAMING, if it was there (R99, R107). -/
def State.leaveStreaming (s : State) (c : Nat) : State :=
  if s.camState c = 4 then
    (s.clearMap c).setCam c { s.cam c with g0 := none, l0 := none, cur := none, skipping := false, lostFrom := none, rx := [] }
  else s

/-- Enter DISCOVER: the lanes of the group at CXP-1 (R101), whose trigger latency is 2,400 ns (R105). -/
def State.startDiscover (s : State) (c : Nat) : State :=
  let s := s.leaveStreaming c
  let s := (((s.put (R.CXP_CAM_STATUS.STATE c) 1).drop (R.CXP_CAM_STATUS.REASON c)).drop
    (R.CXP_CAM_STATUS.LANES_NOW c)).drop (R.CXP_CAM_STATUS.RATE_NOW c)
  let s := s.put (R.CXP_CAM_TRIG_LAT.NS c) 2400
  let s := (s.camLanes c).foldl (fun s n => s.setRate n 1) s
  s.setCam c { s.cam c with disc := .align s.dtime, since := s.dtime, conns := [] }

/-- FAILED with a reason. -/
def State.camFail (s : State) (c reason : Nat) : State :=
  ((s.put (R.CXP_CAM_STATUS.STATE c) 6).put (R.CXP_CAM_STATUS.REASON c) reason).setDisc c .idle

/-- Enter CHECK: the width and pixel-format registers are read (R101). -/
def State.startCheck (s : State) (c : Nat) : State :=
  ((s.leaveStreaming c).put (R.CXP_CAM_STATUS.STATE c) 3).setDisc c .readWidthAddr

/-- REDISCOVER (R102): REDISC_MS after LINK_DOWN. -/
def execRediscover (cam : Fin 16) (s : State) : Host.Outcome State Fault Refusal :=
  let c := cam.val
  .next (if s.camState c = 5 && decide (s.dtime ≥ (s.cam c).since + s.get R.CXP_CTL.REDISC_MS * 1000000) then s.startDiscover c
    else s)

/-- Every lane of the group is ALIGNED and delivers. -/
def State.groupAligned (s : State) (c : Nat) : Bool := (s.camLanes c).all (fun n => s.laneUp n)

/-- ALIGN_MS has passed since a wait for alignment began (R101). -/
def State.alignLate (s : State) (since : Nat) : Bool := decide (s.dtime ≥ since + s.get R.CXP_CTL.ALIGN_MS * 1000000)

/-- ConnectionConfig is written with a rate, the lanes go to it, and their alignment is awaited (R82, R101): the write itself awaits
no reply. -/
def State.tryRate (s : State) (c r : Nat) : State :=
  ((s.camLanes c).foldl (fun s n => s.setRate n r) s).setDisc c (.alignAt r s.dtime)

/-- A wait for alignment has run out (R101): no camera, or the next lower rate. -/
def State.alignFails (s : State) (c : Nat) : State :=
  match (s.cam c).disc with
  | .align t => if s.alignLate t then s.camFail c 1 else s
  | .alignAt r t =>
    if !s.alignLate t then s
    else if r ≤ s.get (R.CXP_CAM_CFG.MIN_RATE c) then s.camFail c 4
    else s.tryRate c (r - 1)
  | _ => s

/-- Every lane of the group is ALIGNED within the limit (R101); after it the wait has run out. -/
def State.lanesAligned (s : State) (c : Nat) : State :=
  match (s.cam c).disc with
  | .align t => if s.alignLate t then s.alignFails c else s.setDisc c .readStd
  | .alignAt r t =>
    if s.alignLate t then s.alignFails c
    else
      let s := (s.put (R.CXP_CAM_STATUS.RATE_NOW c) r).put (R.CXP_CAM_STATUS.LANES_NOW c) (s.camLanes c).length
      (s.put (R.CXP_CAM_TRIG_LAT.NS c) (if r ≥ 6 then 1200 else 2400)).startCheck c
  | _ => s

/-- DISCOVER_LANES_ALIGNED (R101). -/
def execDiscoverLanesAligned (cam : Fin 16) (s : State) : Host.Outcome State Fault Refusal :=
  .next (if s.groupAligned cam.val then s.lanesAligned cam.val else s)

/-- DISCOVER_ALIGN_TIMEOUT (R101): ALIGN_MS has passed without alignment. -/
def execDiscoverAlignTimeout (cam : Fin 16) (s : State) : Host.Outcome State Fault Refusal := .next (s.alignFails cam.val)

/-- The value of the CoaXPress Standard register, from the CoaXPress standard (log entry 7). -/
def cxpStandard : Nat := 0xC0A79AE5

/-- The rate CONFIG begins with: the least RATE of the group. -/
def State.groupRate (s : State) (c : Nat) : Nat := (s.camLanes c).foldl (fun m n => Nat.min m (s.get (R.LANE_L_CFG.RATE n))) 8

/-- Discovery writes the lane map: lane `k` of the group has the camera's connection `conn` (R99). -/
def State.mapLane (s : State) (c k conn : Nat) : State :=
  let lane := s.get (R.CXP_CAM_CFG.LANE_BASE c) + k
  (((s.setReg (R.CXP_MAP lane) 0).raise (R.CXP_MAP.VALID lane)).put (R.CXP_MAP.CAMERA lane) c).put (R.CXP_MAP.CONN lane) conn

/-- The map of a camera that has passed CHECK: the one that discovery found, written again where the camera left STREAMING for
CHECK, which cleared it (R99, R103; log entry 45). -/
def State.mapAgain (s : State) (c : Nat) : State :=
  ((List.range (s.camLanes c).length).zip (s.cam c).conns).foldl (fun (s : State) e => s.mapLane c e.1 e.2) s

/-- A reply to a discovery access (R101). R101 gives ConnectionConfigDefault and StreamPacketSizeMax of R97 no step: DESIGN
CHOICE (log entry 45), they are read when every lane is identified. -/
def State.discReply (s : State) (c value conn : Nat) : State :=
  let x := s.cam c
  match x.disc with
  | .readStd => if value = cxpStandard then s.setDisc c (.readId 0) else s.camFail c 1
  | .readId k =>
    if k > 0 && x.deviceId != value then s.camFail c 3
    else
      let s := s.mapLane c k conn
      let n := (s.camLanes c).length
      let cs := x.conns ++ [conn]
      let s := s.setCam c { x with deviceId := value, conns := cs }
      if k + 1 < n then s.setDisc c (.readId (k + 1))
      else if (List.range n).all (fun i => cs.contains i) then s.setDisc c .readConnDefault
      else s.camFail c 2
  | .readConnDefault => (s.setCam c { x with connDefault := value }).setDisc c .readPacketMax
  | .readPacketMax => (s.setCam c { x with packetMax := value }).setDisc c .writeHost
  | .writeHost => (s.put (R.CXP_CAM_STATUS.STATE c) 2).tryRate c (s.groupRate c)
  | .readWidthAddr => s.setDisc c (.readWidth value)
  | .readWidth a => if value = s.get (R.CXP_CAM_GEOM.WIDTH c) then s.setDisc c (.readFmtAddr a) else s.camFail c 5
  | .readFmtAddr a => s.setDisc c (.readFmt a value)
  | .readFmt a b =>
    if value = s.get (R.CXP_CAM_PFNC.N c) then
      let s := (s.put (R.CXP_CAM_STATUS.STATE c) 4).mapAgain c
      s.setCam c { s.cam c with
        disc := .idle, widthAddr := some a, fmtAddr := some b, g0 := none, l0 := none, nextTag := none, srcTag := none
        frameBad := false, cur := none, lastIdx := none, skipping := false, lostFrom := none, rx := [], nextConn := 0 }
    else s.camFail c 6
  | _ => s

/-- A discovery access awaits its reply. -/
def Disc.waiting : Disc → Bool
  | .idle => false | .align _ => false | .alignAt _ _ => false | _ => true

/-- A client's access of a camera ends with a status (R104). -/
def State.accessEnd (s : State) (c : Nat) (a : CamAccess) (st : Status) (v : Nat) : State :=
  let s := s.setCam c { s.cam c with access := none }
  match s.client.started.find? (fun d => d.ring == a.ring && d.index == a.index) with
  | none => s
  | some d => s.complete d st v

/-- The client's access of a camera that has had no reply for CTRL_MS. -/
def State.accessLate (s : State) (c : Nat) : Option CamAccess :=
  (s.cam c).access.filter (fun a => decide (s.dtime ≥ a.since + s.get R.CXP_CTL.CTRL_MS * 1000000))

/-- The lane on which a reply may come is ALIGNED (R84, R96): that of the access for DeviceConnectionID, any of the group
before, and the master connection's after. -/
def State.replyLane (s : State) (c : Nat) : Bool :=
  let any := (s.camLanes c).any (fun n => s.laneUp n)
  match (s.cam c).disc with
  | .readId k => s.laneUp (s.get (R.CXP_CAM_CFG.LANE_BASE c) + k)
  | .readStd => any
  | _ => match (s.camLanes c).find? (fun n => s.flag (R.CXP_MAP.VALID n) && s.get (R.CXP_MAP.CAMERA n) == c
      && s.get (R.CXP_MAP.CONN n) == 0) with
    | some n => s.laneUp n
    | none => any

/-- CTRL_MS without a reply (R101, R104): a client's access ends with CAM_TIMEOUT, discovery fails. -/
def State.controlLate (s : State) (c : Nat) : State :=
  match s.accessLate c with
  | some a => s.accessEnd c a .camTimeout 0
  | none =>
    if (s.cam c).disc.waiting && decide (s.dtime ≥ (s.cam c).since + s.get R.CXP_CTL.CTRL_MS * 1000000) then s.camFail c 7
    else s

/-- CONTROL_REPLY (R101, R104): a camera's reply with a value, and for DeviceConnectionID the connection index; `ok`
false is a reply with an error, which discovery takes as none. A reply after CTRL_MS is too late, and one can come only
over an ALIGNED lane. -/
def execControlReply (cam : Fin 16) (ok : Bool) (value : BitVec 32) (conn : Fin 8) (s : State) :
    Host.Outcome State Fault Refusal :=
  let c := cam.val
  .next (if !s.replyLane c then s
    else
      let s := s.controlLate c
      let x := s.cam c
      if x.disc.waiting then (if ok then s.discReply c value.toNat conn.val else s)
      else match x.access with
        | none => s
        | some a => if ok then s.accessEnd c a .ok (if a.read then value.toNat else 0) else s.accessEnd c a .camNak 0)

/-- CONTROL_TIMEOUT (R101, R104): CTRL_MS without a reply. -/
def execControlTimeout (cam : Fin 16) (s : State) : Host.Outcome State Fault Refusal := .next (s.controlLate cam.val)

/-! ### Slots (R106, R109, R111) -/

/-- SLOTS of a camera (R106). -/
def State.slotCount (s : State) (c : Nat) : Nat := Nat.max 1 (s.get (R.CXP_CAM_GEOM.SLOTS c))

/-- The slot that still holds a gate. -/
def CamSt.slotOf (x : CamSt) (g : Nat) : Option Slot := keyGet x.slots g

/-- Replace the slot of its gate. -/
def State.setSlot (s : State) (c : Nat) (sl : Slot) : State :=
  let x := s.cam c
  s.setCam c { x with slots := keyPut x.slots sl.gate sl }

/-- Samples of `sl` with PAD in place of data lie in columns `a` to `b` (R112). -/
def Slot.padIn (sl : Slot) (a b : Nat) : Bool :=
  sl.lines.any (fun l => match l.status with
    | some 1 => decide (l.got ≤ b)
    | some 3 => decide (a ≤ b)
    | some 4 => decide (a ≤ b)
    | _ => false)

/-- Samples of a line over a column range as R143 hashes them. -/
def leafSamples (depth a b : Nat) (xs : List Nat) : List Byte :=
  ((xs.drop a).take (b + 1 - a)).flatMap (fun v => leBytes (if depth = 0 then 1 else 2) v)

/-- The leaves of one slot, in sensor-line order (R143). -/
def slotLeaves (sl : Slot) (a b : Nat) : List Byte :=
  sl.lines.flatMap (fun l => sha256 (leBytes 1 (l.status.getD 3) ++ leafSamples sl.depth a b l.samples))

/-- A slot has closed: each part of its gate hashes its columns (R143), and one with PAD in them is incomplete (R112). -/
def State.slotClosed (s : State) (c : Nat) (sl : Slot) : State :=
  s.liveParts.foldl (fun s i =>
    let p := s.part i
    let a := colsFirst p.vd.cols
    let b := colsLast p.vd.cols
    if colsCamera p.vd.cols == c && p.vd.gates.contains sl.gate then
      let s := s.setPart i { p with vd := { p.vd with leaves := keyPut p.vd.leaves sl.gate (slotLeaves sl a b) } }
      if sl.padIn a b then s.markIncomplete i else s
    else s) s

/-- The counter of a line status (R109). -/
def statusCounter (c : Nat) : Nat → Fld
  | 0 => R.CXP_CAM_LINES_OK.N c
  | 1 => R.CXP_CAM_SHORT.N c
  | 2 => R.CXP_CAM_LONG.N c
  | 3 => R.CXP_CAM_MISSING.N c
  | _ => R.CXP_CAM_CORRUPT.N c

/-- A slot whose lines all have their status closes: each line is counted (R109). -/
def State.shutSlot (s : State) (c : Nat) (sl : Slot) : State :=
  let sl := { sl with closed := true }
  let s := sl.lines.foldl (fun s l => s.bump (statusCounter c (l.status.getD 3))) s
  (s.setSlot c sl).slotClosed c sl

/-- A line filled with PAD under a status. -/
def padLine (sl : Slot) (st : Nat) : LineBuf := { status := some st, samples := List.replicate sl.width sl.pad, got := 0 }

/-- Close a slot: its absent lines become MISSING (R111), and with `whole` every line that is not CORRUPT (R105, R106). -/
def State.closeSlot (s : State) (c : Nat) (sl : Slot) (whole : Bool) : State :=
  if sl.closed then s
  else s.shutSlot c { sl with lines := sl.lines.map (fun l =>
    if l.status.isNone || (whole && l.status != some 4) then padLine sl 3 else l) }

/-- SLOT_DEADLINE (R111): every pending slot of the camera closes whose gate tick lies more than its LATE_NS back. -/
def State.closeOverdue (s : State) (c : Nat) : State :=
  ((s.cam c).slots.filter (fun e => !e.2.closed && decide (s.dtime > e.2.dtime + e.2.late))).foldl
    (fun s e => s.closeSlot c e.2 false) s

/-- Parts with PAD in their columns in place of data of a line are incomplete (R112). -/
def State.markPadded (s : State) (c : Nat) (sl : Slot) : State :=
  s.liveParts.foldl (fun s i =>
    let p := s.part i
    if colsCamera p.vd.cols == c && p.vd.gates.contains sl.gate && sl.padIn (colsFirst p.vd.cols) (colsLast p.vd.cols) then
      s.markIncomplete i
    else s) s

/-- A judged line enters its slot, and PAD in it counts at once; the slot closes once every line has a status. -/
def State.putLine (s : State) (c : Nat) (sl : Slot) (k : Nat) (l : LineBuf) : State :=
  let s := s.markPadded c { sl with lines := [l] }
  let sl := { sl with lines := setNth sl.lines k l }
  if sl.lines.all (fun l => l.status.isSome) then s.shutSlot c sl else s.setSlot c sl

/-- A line of `width` samples, the missing ones PAD. -/
def padTo (width pad : Nat) (xs : List Nat) : List Nat := xs.take width ++ List.replicate (width - xs.length) pad

/-- Judge a line that has arrived whole (R109): SHORT, LONG or OK. -/
def State.judgeLine (s : State) (c : Nat) (sl : Slot) (k : Nat) (xs : List Nat) : State :=
  let n := xs.length
  s.putLine c sl k { status := some (if n < sl.width then 1 else if n > sl.width then 2 else 0)
                     samples := padTo sl.width sl.pad xs, got := Nat.min n sl.width }

/-- A line that takes CORRUPT or MISSING. -/
def State.voidLine (s : State) (c : Nat) (sl : Slot) (k st : Nat) : State := s.putLine c sl k (padLine sl st)

/-- Where a line number belongs (R107, R111). -/
inductive LineHome where
  | slot (sl : Slot) (k : Nat)
  | late
  | ungated
  deriving DecidableEq, Repr

/-- Line numbers of a camera run modulo this (R107). -/
def State.lineSpan (s : State) (c : Nat) : Nat := 65536 * s.get (R.CXP_CAM_GEOM.FRAME_LINES c)

/-- Line number `n` counted from `l0`, modulo the span. -/
def lineRel (span l0 n : Nat) : Nat := (n + span - l0 % span) % span

/-- The home of line number `n`; the first line after g0 sets L0. -/
def State.lineHome (s : State) (c n : Nat) : LineHome × State :=
  let x := s.cam c
  match x.g0 with
  | none => (.ungated, s)
  | some g0 =>
    let l0 := x.l0.getD n
    let s := s.setCam c { x with l0 := some l0 }
    let span := s.lineSpan c
    let d := lineRel span l0 n
    match (x.gateLog.filter (fun r => decide (g0 ≤ r.gate))).find? (fun r => decide (lineRel span r.rel d < r.lines)) with
    | none => (.ungated, s)
    | some r =>
      let k := lineRel span r.rel d
      if x.gates - 1 - r.gate > s.slotCount c then (.ungated, s)
      else match x.slotOf r.gate with
        | none => (.late, s)
        | some t => if t.closed then (.late, s)
          else match (nth t.lines k { status := some 0 }).status with
            | some _ => (.late, s)
            | none => (.slot t k, s)

/-- The number of a line: source tag and index in the frame (R107). -/
def State.lineNumber (s : State) (c tag idx : Nat) : Nat := tag * s.get (R.CXP_CAM_GEOM.FRAME_LINES c) + idx

/-- A line has ended, whole or void (`st` 4 CORRUPT, 3 MISSING). -/
def State.lineEnd (s : State) (c idx : Nat) (xs : List Nat) (st : Option Nat) : State :=
  match (s.cam c).srcTag with
  | none => s
  | some tag =>
    match s.lineHome c (s.lineNumber c tag idx) with
    | (.slot sl k, s) => match st with
      | none => s.judgeLine c sl k xs
      | some v => s.voidLine c sl k v
    | (.late, s) => s.bump (R.CXP_CAM_LATE_DROP.N c)
    | (.ungated, s) => s.bump (R.CXP_CAM_UNGATED.N c)

/-- The line being received ends with the samples it has. -/
def State.endCur (s : State) (c : Nat) : State :=
  match (s.cam c).cur with
  | none => s
  | some (i, xs) => (s.setCam c { s.cam c with cur := none }).lineEnd c i xs none

/-- A line of a discarded frame (R110): its pending place takes MISSING. -/
def State.discardLine (s : State) (c n : Nat) : State :=
  match s.lineHome c n with
  | (.slot sl k, s) => s.voidLine c sl k 3
  | (_, s) => s

/-- The first line index not yet known in the frame. -/
def CamSt.known (x : CamSt) : Nat := match x.lastIdx with
  | some i => i + 1
  | none => 0

/-- Line `k` of the pending slot of gate `g` is CORRUPT if it is absent. -/
def State.corruptLine (s : State) (c g k : Nat) : State :=
  match (s.cam c).slotOf g with
  | none => s
  | some sl => if sl.closed || (nth sl.lines k {}).status.isSome then s else s.voidLine c sl k 4

/-- The stream is taken up again at line number `b`: the lines lost since the break, which lay in a discarded packet or
across a gap in the packet tags, are CORRUPT (R109); the first of them may be L0 (R107). A number that lies back, of a camera whose
image counter began anew, tells of none (log entry 45). -/
def State.lostTo (s : State) (c b : Nat) : State :=
  let x := s.cam c
  match x.lostFrom, x.g0 with
  | some a, some g0 =>
    let span := s.lineSpan c
    let n := lineRel span a b
    if n = 0 || 2 * n > span then s
    else
      let l0 := x.l0.getD a
      let s := s.setCam c { x with l0 := some l0 }
      (x.slots.filter (fun e => !e.2.closed && decide (g0 ≤ e.1))).foldl (fun s e =>
        (List.range e.2.lines.length).foldl (fun s k =>
          if lineRel span a (l0 + e.2.rel + k) < n then s.corruptLine c e.1 k else s) s) s
  | _, _ => s

/-- The frame of a line at which the stream is taken up again: an index that its frame has passed already is one of the frame after
it, whose header was lost; its image counter is the next (R107, R109; log entry 45). -/
def CamSt.resumed (x : CamSt) (i : Nat) : CamSt :=
  if x.skipping && decide (i < x.known) then
    { x with srcTag := x.srcTag.map (fun t => (t + 1) % 65536), frameBad := false, lastIdx := none }
  else x

/-- One piece of the stream (R107-R110). -/
def State.streamItem (s : State) (c : Nat) : StreamItem → State
  | .header tag pfnc lines =>
    let s := if (s.cam c).skipping then s.lostTo c (s.lineNumber c tag.toNat 0) else s.endCur c
    let bad := pfnc.toNat != s.get (R.CXP_CAM_PFNC.N c) || lines.toNat != s.get (R.CXP_CAM_GEOM.FRAME_LINES c)
    let s := s.setCam c { s.cam c with
      srcTag := some tag.toNat, frameBad := bad, cur := none, lastIdx := none, skipping := false, lostFrom := none }
    if bad then s.bump (R.CXP_CAM_CNT_FMT.N c) else s
  | .line idx xs more =>
    let x := (s.cam c).resumed idx.toNat
    match x.srcTag with
    | none => s
    | some tag =>
      let i := idx.toNat
      let n := s.lineNumber c tag i
      let s := s.setCam c x
      let s := if x.skipping then s.lostTo c n else s.endCur c
      let s := s.setCam c { s.cam c with cur := none, lastIdx := some i, skipping := false, lostFrom := none }
      let ys := xs.map (·.toNat)
      if x.frameBad then (if i < s.get (R.CXP_CAM_GEOM.FRAME_LINES c) then s.discardLine c n else s)
      else if more then s.setCam c { s.cam c with cur := some (i, ys) }
      else s.lineEnd c i ys none
  | .cont xs more =>
    let x := s.cam c
    match x.cur, x.skipping with
    | some (i, ys), false =>
      let zs := ys ++ xs.map (·.toNat)
      if more then s.setCam c { x with cur := some (i, zs) }
      else (s.setCam c { x with cur := none }).lineEnd c i zs none
    | _, _ => s

/-- A packet is discarded, or packets before it were lost: the line under way is CORRUPT, and the stream is taken up
again at the next marker or header (R109). -/
def State.breakStream (s : State) (c : Nat) : State :=
  let x := s.cam c
  if x.skipping then s
  else
    let s := match x.cur with
      | some (i, _) => s.lineEnd c i [] (some 4)
      | none => s
    s.setCam c { s.cam c with
      cur := none, skipping := true
      lostFrom := if x.g0.isSome then x.srcTag.map (fun t => s.lineNumber c t x.known) else none }

/-- A stream packet in its turn (R109): tag sequence, CRC, contents. -/
def State.streamPacket (s : State) (c tag : Nat) (crcOk : Bool) (items : List StreamItem) : State :=
  let gap : Bool := match (s.cam c).nextTag with
    | some t => t != tag
    | none => false
  let s := s.setCam c { s.cam c with nextTag := some ((tag + 1) % 256) }
  let s := if gap then s.breakStream c else s
  if crcOk then items.foldl (fun s i => s.streamItem c i) s
  else (s.bump (R.CXP_CAM_PKT_CRC.N c)).breakStream c

/-- Take the packets whose turn has come, in connection-index order (R99), at most `n` turns. The turn of a packet that was
lost passes when a later one of its connection is there: their tags lie a whole number of rounds apart (log entry 45). -/
def State.assemble (s : State) (c : Nat) : Nat → State
  | 0 => s
  | n + 1 =>
    let x := s.cam c
    let conns := Nat.max 1 (s.camLanes c).length
    match x.rx.find? (fun p => p.conn == x.nextConn) with
    | none => s
    | some p =>
      let ahead := (p.tag + 256 - (x.nextTag.getD p.tag)) % 256
      let turn := (x.nextConn + 1) % conns
      if ahead ≠ 0 && ahead % conns = 0 then
        let s := s.setCam c { x with nextTag := x.nextTag.map (fun t => (t + 1) % 256), nextConn := turn }
        (s.breakStream c).assemble c n
      else
        let s := s.setCam c { x with rx := x.rx.erase p, nextConn := turn }
        (s.streamPacket c p.tag p.crcOk p.items).assemble c n

/-- A packet has come on a connection of a STREAMING camera; the first of all takes its turn at once. -/
def State.packetIn (s : State) (c conn tag : Nat) (crcOk : Bool) (items : List StreamItem) : State :=
  let s := s.closeOverdue c
  let x := s.cam c
  let s := s.setCam c { x with
    rx := x.rx ++ [⟨conn, tag, crcOk, items⟩], nextConn := if x.nextTag.isNone && x.rx.isEmpty then conn else x.nextConn }
  s.assemble c (257 + x.rx.length)

/-- STREAM_PACKET (R99, R109): only the packets of an ALIGNED lane in the map of a STREAMING camera reach the slots. -/
def execStreamPacket (lane : Fin 32) (tag : BitVec 8) (crcOk : Bool) (items : List StreamItem) (s : State) :
    Host.Outcome State Fault Refusal :=
  let n := lane.val
  let c := s.get (R.CXP_MAP.CAMERA n)
  .next (if s.flag (R.CXP_MAP.VALID n) && s.laneUp n && s.camState c == 4 then
      s.packetIn c (s.get (R.CXP_MAP.CONN n)) tag.toNat crcOk items
    else s)

/-- SLOT_DEADLINE (R111). -/
def execSlotDeadline (cam : Fin 16) (s : State) : Host.Outcome State Fault Refusal := .next (s.closeOverdue cam.val)

/-! ### The input digest (R143, R144) -/

/-- The digest trailer (R143). -/
def State.trailer (s : State) (p : Part) : List Byte :=
  let c := colsCamera p.vd.cols
  leBytes 4 p.core.id ++ leBytes 8 p.core.origin ++ leBytes 4 p.vd.gates.length ++ leBytes 2 (colsFirst p.vd.cols)
    ++ leBytes 2 (colsLast p.vd.cols) ++ leBytes 1 c ++ leBytes 1 (s.get (R.CXP_CAM_FMT.DEPTH c))
    ++ leBytes 1 (s.get (R.CXP_CAM_CFG.SENSOR_LINES c) + 1) ++ List.replicate 9 0

/-- The digest of a part that is no longer OPEN is final once its last slot has closed (R62, R144). -/
def State.digestFinal (s : State) (i : Nat) : State :=
  let p := s.part i
  let leaves := p.vd.gates.map (fun g => keyGet p.vd.leaves g)
  if p.core.state == .opened || p.core.state == .free || p.vd.digest.isSome || leaves.any (·.isNone) then s
  else s.setPart i { p with vd := { p.vd with digest := some (sha256 (leaves.flatMap (·.getD []) ++ s.trailer p)) } }

/-- INPUT_DIGEST_FINAL (R144). -/
def execInputDigestFinal (part : Fin 4096) (s : State) : Host.Outcome State Fault Refusal :=
  .next (s.digestFinal part.val)

/-! ### Commits (R103) -/

/-- A commit changes the group of a camera, or touches it or its lanes. DESIGN CHOICE (log entry 45): a commit touches them where
some register of theirs changes its value; one that restages equal values does not. -/
def camTouched (old s : State) (c : Nat) : Bool × Bool :=
  let ch (f : Nat → Fld) : Bool := old.get (f c) != s.get (f c)
  let lane (f : Nat → Fld) : Bool := (s.camLanes c).any (fun n => old.get (f n) != s.get (f n))
  let group := ch R.CXP_CAM_CFG.LANES || ch R.CXP_CAM_CFG.LANE_BASE || ch R.CXP_CAM_CFG.MIN_RATE || lane R.LANE_L_CFG.RATE
    || lane R.LANE_L_CFG.ENABLE || lane R.LANE_L_CFG.LOOP || lane R.LANE_L_CFG.PATTERN
  let any := group || old.reg (R.CXP_CAM_CFG c) != s.reg (R.CXP_CAM_CFG c) || old.reg (R.CXP_CAM_GEOM c) != s.reg (R.CXP_CAM_GEOM c)
    || old.reg (R.CXP_CAM_FMT c) != s.reg (R.CXP_CAM_FMT c) || old.reg (R.CXP_CAM_PFNC c) != s.reg (R.CXP_CAM_PFNC c)
    || old.reg (R.CXP_CAM_LATE c) != s.reg (R.CXP_CAM_LATE c) || (s.camLanes c).any (fun n => old.reg (R.LANE_L_CFG n) != s.reg (R.LANE_L_CFG n))
  (group, any)

/-- The cameras that a commit sends to DISCOVER (R100, R103). -/
def discoverList (old s : State) : List Nat :=
  (List.range 16).filter (fun c =>
    let (group, any) := camTouched old s c
    s.flag (R.CXP_CAM_CFG.ENABLE c) && (!old.flag (R.CXP_CAM_CFG.ENABLE c) || group || (s.camState c == 6 && any)))

/-- What a commit does to lanes and cameras; the cameras sent to DISCOVER leave STREAMING before their lanes restart. -/
def State.cameraCommit (s old : State) : State :=
  let ds := discoverList old s
  let offs := (List.range 16).filter (fun c => old.flag (R.CXP_CAM_CFG.ENABLE c) && !s.flag (R.CXP_CAM_CFG.ENABLE c))
  let s := ds.foldl (fun s c => (s.leaveStreaming c).put (R.CXP_CAM_STATUS.STATE c) 1) s
  let s := offs.foldl (fun s c => ((s.leaveStreaming c).setReg (R.CXP_CAM_STATUS c)
    ((s.reg (R.CXP_CAM_STATUS c)) &&& 0x10000#32)).setDisc c .idle) s
  let s := (List.range 64).foldl (fun s n => s.laneCommit old n) s
  let s := ds.foldl (fun s c => s.startDiscover c) s
  (List.range 16).foldl (fun (s : State) c =>
    let g := old.reg (R.CXP_CAM_GEOM c) != s.reg (R.CXP_CAM_GEOM c)
    let chk := g || old.reg (R.CXP_CAM_FMT c) != s.reg (R.CXP_CAM_FMT c) || old.reg (R.CXP_CAM_PFNC c) != s.reg (R.CXP_CAM_PFNC c)
    if chk && s.camState c == 4 then s.startCheck c else s) s

end Sys2Proof.Machine
end

