-- ==== Sys2Proof/Machine/Larder.lean ====
section
/-! DEFINITION. Machine/Larder.lean: row accesses of a Larder: reads and writes that keep to the 21-bit address, the
parity of the rows read, and the counters of off-plan and narrow accesses (spec/08_larder.md, R171-R186). -/

namespace Sys2Proof.Machine

/-- Write bytes to a core's Larder from address `a`, row by row; addresses are 21 bits wide (R171). -/
def State.ldrWriteN (s : State) (n : Nat) : Nat → Nat → List Byte → State
  | 0, _, _ => s
  | _ + 1, _, [] => s
  | f + 1, a, b :: bs =>
    let k := 512 - a % 512
    (s.larderWrite n (a % 2097152) ((b :: bs).take k)).ldrWriteN n f (a + k) ((b :: bs).drop k)

/-- Write bytes to a core's Larder from address `a`. -/
def State.ldrWrite (s : State) (n a : Nat) (bs : List Byte) : State := s.ldrWriteN n (bs.length + 1) a bs

/-- Read bytes of a core's Larder from address `a`, row by row. -/
def State.ldrReadN (s : State) (n : Nat) : Nat → Nat → Nat → List Byte
  | 0, _, _ => []
  | f + 1, a, k =>
    if k = 0 then []
    else
      let m := Nat.min k (512 - a % 512)
      s.larderRead n (a % 2097152) m ++ s.ldrReadN n f (a + m) (k - m)

/-- Read `k` bytes of a core's Larder from address `a`. -/
def State.ldrRead (s : State) (n a k : Nat) : List Byte := s.ldrReadN n (k / 512 + 2) a k

/-- Rows, from 0, that `k` bytes from address `a` touch. -/
def rowsOf (a k : Nat) : List Nat :=
  if k = 0 then [] else (List.range ((a + k - 1) / 512 - a / 512 + 1)).map (fun i => (a / 512 + i) % 4096)

/-- Why a command of a core stops before its end. -/
inductive CoreStop where
  /-- Refused under R153 with no code, or with a code of R196. -/
  | refused
  | window (code : Nat)
  /-- A hard fault of a bank: the word whose read failed through the replay (R185). -/
  | hard (word : Nat)
  /-- A hard fault of the Cellar or Shelf under a transfer (R314). -/
  | parity
  deriving DecidableEq, Repr

/-- The parity of one row read in normal service (R183, R184): clean, mended by the replay, or a hard fault. -/
def State.rowCheck (s : State) (n row : Nat) : Option CoreStop × State :=
  let bad := (s.core n).bad.filter (fun b => b.word / 128 == row && (b.stuck || decide (b.fails > 0)))
  match bad with
  | [] => (none, s)
  | b :: bs =>
    let low (l : List BadWord) (b : BadWord) : Nat := l.foldl (fun m x => Nat.min m x.word) b.word
    match bad.filter (fun b => b.stuck || decide (b.fails > 1)) with
    | h :: hs => (some (.hard (low hs h)), s)
    | [] =>
      let s := s.setCore n { s.core n with bad := (s.core n).bad.filter (fun b => !(b.word / 128 == row)) }
      (none, (s.bump (R.CORE_LDR_PAR.SOFT n)).put (R.CORE_LDR_SOFT_ADDR.WORD n) (low bs b))

/-- The parity of the rows that a command reads through one port, one row a cycle, up to the first hard fault. -/
def State.rowsCheck (s : State) (n : Nat) : List Nat → Option CoreStop × State
  | [] => (none, s)
  | r :: rs => match s.rowCheck n r with
    | (none, s) => s.rowsCheck n rs
    | e => e

/-- The parity of the rows that several ports read on one cycle (R184-R186): soft errors count, and of the hard faults the
lowest address stands. -/
def State.cycleCheck (s : State) (n : Nat) (rows : List Nat) : Option CoreStop × State :=
  rows.foldl (fun (a : Option CoreStop × State) r => match a.1, a.2.rowCheck n r with
    | some (.hard v), (some (.hard w), s) => (some (.hard (Nat.min v w)), s)
    | some e, (_, s) => (some e, s)
    | none, x => x) (none, s)

/-- The parity of reads cycle by cycle, up to the first cycle with a hard fault; and the cycles made. -/
def State.cyclesCheck (s : State) (n : Nat) : List (List Nat) → Option CoreStop × State × Nat
  | [] => (none, s, 0)
  | c :: cs => match s.cycleCheck n c with
    | (none, s) =>
      let (e, s, k) := s.cyclesCheck n cs
      (e, s, k + 1)
    | (some e, s) => (some e, s, 1)

/-- Row accesses outside a port's bank mask are counted (R176). -/
def State.offPlan (s : State) (n mask : Nat) (rows : List Nat) : State :=
  s.bumpBy (R.CORE_LDR_OFFPLAN.N n) (rows.filter (fun r => !bit mask (r / 256))).length

/-- Rows that a port reads one after another, up to the first hard fault: each access off plan counts (R176, R184). -/
def State.rowsRead (s : State) (n mask : Nat) : List Nat → Option CoreStop × State
  | [] => (none, s)
  | r :: rs => match (s.offPlan n mask [r]).rowCheck n r with
    | (none, s) => s.rowsRead n mask rs
    | e => e

/-- Rows that the T port reads one after another, up to the first hard fault, each with a mark if the access is narrow: each narrow
access counts (R178). -/
def State.narrowRead (s : State) (n : Nat) : List (Nat × Bool) → Option CoreStop × State
  | [] => (none, s)
  | r :: rs => match (if r.2 then s.bump (R.CORE_LDR_NARROW.N n) else s).rowCheck n r.1 with
    | (none, s) => s.narrowRead n rs
    | e => e

/-- A command of list context `n` of core `n` stops (R153, R185, R196, R347). -/
def State.stopCommand (s : State) (n : Nat) : CoreStop → State
  | .refused => (s.tearList n .cmdRefused).settle
  | .window code => ((s.put (R.CORE_AG_FAULT.CODE n) code).tearList n .cmdRefused).settle
  | .parity => (s.tearList n .parity).settle
  | .hard w => (s.larderHard n (w / 32768) w).settle

end Sys2Proof.Machine
end

