-- ==== Sys2Proof/Machine/Issue.lean ====
section
/-! DEFINITION. Machine/Issue.lean: how an issuer takes the records of an instruction list
(spec/11_program_images.md, R241, R242). A command record has its whole effect when it issues; its unit stays busy
until COMMAND_COMPLETE (log entry 26). -/

namespace Sys2Proof.Machine

/-- The 32 bytes of record `k` from the issuer's position. -/
def State.recordAt (s : State) (l : ListCtx) (k : Nat) : List Byte :=
  s.modBytes (l.pair.image.base + l.pair.image.lists.1 + l.pc + 32 * k) 32

/-- The DEP records of a record have completed (R241). -/
def ListCtx.depMet (l : ListCtx) (dep : Nat) : Bool :=
  (List.range 8).all (fun i => !bit dep i || (match l.issued[i]? with
    | some r => r.complete
    | none => true))

/-- Every earlier record of the list has completed (R242). -/
def ListCtx.allDone (l : ListCtx) : Bool := l.issued.all (·.complete)

/-- A command runs on a unit of the list's core. -/
def ListCtx.unitBusy (l : ListCtx) (u : Unit3) : Bool := l.issued.any (fun r => r.unit == u && !r.complete)

/-- The position after a head record and its continuation records. -/
def ListCtx.advance (l : ListCtx) (r : List Byte) : ListCtx := { l with pc := l.pc + 32 * (1 + fieldAt r 3 1) }

/-- The quad of a core runs: neither asleep nor power-gated, and no longer on its way out of either (R452). -/
def State.quadRuns (s : State) (n : Nat) : Bool :=
  bits (s.get R.PWR_STATUS.QSTATE) (2 * (n / 4) + 1) (2 * (n / 4)) == 0 && decide (nth s.clk.wakeAt (n / 4) 0 ≤ s.dtime)

/-- The head record of list context `k`, if it is of a type and may issue: the core's quad runs (R452; a part list has none), the
job holds its slice, no WAIT holds the list, the slice has not ended, and the DEP records have completed. A commit that is due
is applied before the tick's records (R384). -/
def State.headRecord (s : State) (k type : Nat) : Option (ListCtx × List Byte) :=
  match s.list k with
  | none => none
  | some l =>
    let r := s.recordAt l 0
    if s.jobState l.job == 2 && !l.waiting && !s.sliceOver l.job && fieldAt r 0 1 == type && l.depMet (fieldAt r 2 1)
        && (decide (k ≥ 16) || s.quadRuns k) && s.commitDue.isNone then
      some (l, r)
    else none

/-- The head record of core `n`, if it is a command that may issue: its unit is free and the Larder is in normal mode (R180,
R242). -/
def State.headCommand (s : State) (n type : Nat) (u : Unit3) : Option (ListCtx × List Byte) :=
  match s.headRecord n type with
  | none => none
  | some (l, r) =>
    if !l.unitBusy u && s.larderNormal n && !(u == .matrix && decide (s.dtime < l.idleUntil)) then
      some (l, r)
    else none

/-- The fetch of a head record of list context `k` with its continuation records, before the record acts (R310): one that fails
tears the context down (R314, log entry 20). -/
def State.fetched (s : State) (k : Nat) (l : ListCtx) (r : List Byte) (f : State → State) : State :=
  match s.load .issuer (l.pair.image.base + l.pair.image.lists.1 + l.pc) (32 * (1 + fieldAt r 3 1)) with
  | (.ok, _, s) => f s
  | (.range, _, s) => (s.tearList k .cmdRefused).settle
  | (.parity, _, s) => (s.tearList k .parity).settle

/-- The bank masks A, W, V, D, T of a plan (R176, R243). -/
def planMask (r : List Byte) (port : Nat) : Nat := fieldAt r (2 * port) 2

/-- The ports that a command record uses, with their masks (R173, R176): a transfer's are the banks of its lines. -/
def State.portMasks (s : State) (l : ListCtx) (r : List Byte) (u : Unit3) : List (Nat × Nat) :=
  let plan := s.recordAt l 1
  match u with
  | .matrix => [0, 1, 3].map (fun p => (p, planMask plan p))
  | .vector => [(2, planMask plan 2)]
  | .transfer => [(4, (List.range (fieldAt r 10 2)).foldl (fun (m : Nat) j =>
      (rowsOf (fieldAt r 12 4 + j * fieldAt r 26 2) (fieldAt r 24 2)).foldl (fun m x => Nat.lor m (2 ^ (x / 256))) m) 0)]

/-- Ports of running commands whose masks meet another port's (R176); with none, no access is delayed. -/
def contended (ms : List (Nat × Nat)) : List Nat :=
  (List.range 5).filter (fun p => ms.any (fun a => a.1 == p && ms.any (fun b => b.1 != p && Nat.land a.2 b.2 != 0)))

/-- The cycles on which a port is denied, and the stalls that follow (R177, R179): free values (log entry 43). -/
def State.denied (s : State) (n port : Nat) : State :=
  let (v, s) := s.draw
  match port with
  | 0 => s.bumpBy (R.CORE_LDR_WAIT_A.N n) (v.toNat % 4294967296)
  | 1 => (s.bumpBy (R.CORE_LDR_WAIT_W.N n) (v.toNat % 4294967296)).bumpBy (R.CORE_STALL_W.N n) (v.toNat / 4294967296)
  | 2 => s.bumpBy (R.CORE_LDR_WAIT_V.N n) (v.toNat % 4294967296)
  | 3 => (s.bumpBy (R.CORE_LDR_WAIT_D.N n) (v.toNat % 4294967296)).bumpBy (R.CORE_STALL_D.N n) (v.toNat / 4294967296)
  | _ => s.bumpBy (R.CORE_LDR_WAIT_T.N n) (v.toNat % 4294967296)

/-- Issue a command record: the list goes on after it, and the unit is busy. Of the records issued, DEP names the latest
eight; an older one stays only while it runs. -/
def State.issueCommand (s : State) (n : Nat) (l : ListCtx) (r : List Byte) (u : Unit3) : State :=
  let i : Issued := ⟨u, fieldAt r 4 2 * 10, s.dtime, false, s.portMasks l r u⟩
  let ports := contended ((i :: l.issued.filter (fun x => !x.complete)).flatMap (·.masks))
  let s := ports.foldl (fun (s : State) p => s.denied n p) s
  let l := { l.advance r with issued := i :: (l.issued.take 7 ++ (l.issued.drop 7).filter (fun x => !x.complete)) }
  let s := s.setList n l
  if u = .matrix then s.raise (R.CORE_STATUS.BUSY n) else s

/-- What a command does once issued: it stops, or it goes on to its end. -/
def State.endCommand (n : Nat) (x : Option CoreStop × State) : State :=
  match x with
  | (none, s) => s
  | (some e, s) => s.stopCommand n e

end Sys2Proof.Machine
end

