-- ==== Sys2Proof/Machine/Rows.lean ====
section
/-! DEFINITION. Machine/Rows.lean: from slots to corrected planar rows: stages 1 to 7 of the line pipeline
(spec/06_line_pipeline.md, R113-R121). -/

namespace Sys2Proof.Machine

/-! ### Camera tables -/

/-- CXP_CAMc_FMT.KIND: 0 monochrome, 1 two-line mosaic, 2 multi-line colour. -/
def State.kind (s : State) (c : Nat) : Nat := s.get (R.CXP_CAM_FMT.KIND c)

/-- Columns of a camera. -/
def State.width (s : State) (c : Nat) : Nat := s.get (R.CXP_CAM_GEOM.WIDTH c)

/-- Transport lines of a gate. -/
def State.sensorLines (s : State) (c : Nat) : Nat := s.get (R.CXP_CAM_CFG.SENSOR_LINES c) + 1

/-- Filter code of pattern line `k` over even (0) or odd columns (R117). -/
def State.filterCode (s : State) (c k par : Nat) : Nat :=
  if s.kind c = 0 then 5 else bits (s.reg (R.LPIPE_CAM_PAT c)).toNat (8 * k + 4 * par + 2) (8 * k + 4 * par)

/-- DELAY_k of a camera. -/
def State.delayOf (s : State) (c k : Nat) : Nat := bits (s.reg (R.LPIPE_CAM_DELAY c)).toNat (4 * k + 3) (4 * k)

/-- Pattern lines in use (R117). -/
def State.patLines (s : State) (c : Nat) : List Nat :=
  match s.kind c with
  | 0 => [0]
  | 1 => [0, 1]
  | _ => List.range (s.sensorLines c)

/-- The planes of a camera by filter code, ascending (R117). -/
def State.planesOf (s : State) (c : Nat) : List Nat :=
  (List.range 6).filter (fun p => (s.patLines c).any (fun k => s.filterCode c k 0 == p || s.filterCode c k 1 == p))

/-- The correction tables of a camera; the defaults of R123 where none are loaded. -/
def State.tables (s : State) (c : Nat) : Tables := (keyGet s.lp.tables c).getD {}

/-! ### Stages 1 to 4 (R114, R115) -/

/-- Stages 1 to 3 for one sample. -/
def correctSample (depth dark gain raw : Nat) : Nat :=
  let v := u16 (u16 raw * 2 ^ (16 - depth))
  let d := if v > dark then v - dark else 0
  Nat.min (u32 (u32 (d * gain) + 8192) / 16384) 65535

/-- Bits per sample of a DEPTH code. -/
def depthBits : Nat → Nat
  | 0 => 8 | 1 => 10 | _ => 12

/-- Stage 4 for one column: its value, and whether no candidate was there. -/
def mendColumn (width q : Nat) (bad : Nat → Bool) (f : List Nat) (x : Nat) : Nat × Bool :=
  if !bad x then (nth f x 0, false)
  else
    let ok (y : Nat) : Bool := decide (y < width) && !bad y
    let l := decide (q ≤ x) && ok (x - q)
    let r := ok (x + q)
    if l && r then ((nth f (x - q) 0 + nth f (x + q) 0 + 1) / 2, false)
    else if l then (nth f (x - q) 0, false)
    else if r then (nth f (x + q) 0, false)
    else (nth f x 0, true)

/-- A corrected sensor line. -/
structure LineOut where
  samples : List Nat
  replaced : List Nat
  noCandidate : Nat
  deriving DecidableEq, Repr

/-- Stages 1 to 4 on sensor line `k`, whose pattern line is `pl`. -/
def State.correctLine (s : State) (c k pl depth : Nat) (raw : List Nat) : LineOut :=
  let w := s.width c
  let t := s.tables c
  let at_ (tab : Option (List Nat)) (d x : Nat) : Nat := match tab with
    | some l => nth l (k * w + x) d
    | none => d
  let f := (List.range w).map (fun x =>
    correctSample (depthBits depth) (at_ t.dark 0 x) (at_ t.gain 16384 x) (nth raw x 0))
  let bad (x : Nat) : Bool := at_ t.defect 0 x != 0
  let q := if s.filterCode c pl 0 = s.filterCode c pl 1 then 1 else 2
  let out := (List.range w).map (fun x => mendColumn w q bad f x)
  { samples := out.map (·.1), replaced := (List.range w).filter bad, noCandidate := (out.filter (·.2)).length }

/-! ### Stage 5 (R116) -/

/-- What a row takes from a gate: its slot's line, PAD before g0, or PAD because the slot was taken again. -/
inductive Source where
  | line (l : LineBuf) (depth : Nat)
  | before
  | late
  | notYet
  deriving DecidableEq, Repr

/-- Line `k` of gate `g - delay`. -/
def State.rowSource (s : State) (c g delay k : Nat) : Source :=
  let x := s.cam c
  if g < delay then .before
  else
    let h := g - delay
    if h < x.g0.getD 0 then .before
    else if h ≥ x.gates then .notYet
    else match x.slotOf h with
      | none => .late
      | some sl => if sl.closed then .line (nth sl.lines k {}) sl.depth else .notYet

/-- A source's samples and the row flags it sets (R121). -/
def State.sourceLine (s : State) (c : Nat) : Source → List Nat × Nat × Nat
  | .line l d =>
    let f := match l.status with
      | some 0 => 0
      | some 2 => 2
      | _ => 1
    (l.samples, d, f)
  | .late => (List.replicate (s.width c) (s.get (R.CXP_CAM_FMT.PAD c)), s.get (R.CXP_CAM_FMT.DEPTH c), 5)
  | _ => (List.replicate (s.width c) (s.get (R.CXP_CAM_FMT.PAD c)), s.get (R.CXP_CAM_FMT.DEPTH c), 1)

/-- OR of row flags. -/
def orFlags (a b : Nat) : Nat := maskOf ((List.range 3).filter (fun k => bit a k || bit b k))

/-! ### Stage 6 (R117-R119) -/

/-- Sum and count of the samples of the given columns in the lines with filter `p` at parity `par`. -/
def gather (filt : Nat → Nat → Nat) (ls : List (Nat × List Nat)) (p par : Nat) (cols : List Nat) : Nat × Nat :=
  ls.foldl (fun a l => if filt l.1 par = p then
    cols.foldl (fun a x => (a.1 + nth l.2 x 0, a.2 + 1)) a else a) (0, 0)

/-- Plane `p` at column `x` (R118), from pattern lines with their samples. -/
def planeAt (filt : Nat → Nat → Nat) (width : Nat) (ls : List (Nat × List Nat)) (p x : Nat) : Nat :=
  let par := x % 2
  let d := gather filt ls p par [x]
  let (sum, n) := if d.2 > 0 then d
    else gather filt ls p (1 - par) ((if x = 0 then [] else [x - 1]) ++ (if x + 1 < width then [x + 1] else []))
  if n = 0 then 0 else u16 ((sum + n / 2) / n)

/-- Plane `p` of a gate's lines. -/
def planeRow (filt : Nat → Nat → Nat) (width : Nat) (ls : List (Nat × List Nat)) (p : Nat) : List Nat :=
  (List.range width).map (fun x => planeAt filt width ls p x)

/-- Mosaic phase of gate `g` (R119). -/
def State.phase (s : State) (c g : Nat) : Nat :=
  (g - (s.cam c).g0.getD 0 + s.get (R.LPIPE_CAM_CFG.PHASE0 c)) % 2

/-! ### Stage 7 (R120) -/

/-- Lateral correction of one plane. -/
def State.lens (s : State) (c p : Nat) (xs : List Nat) : List Nat :=
  let w := xs.length
  let off := s.getInt (R.LPIPE_CAM_LENS.OFF c p)
  let scl := s.getInt (R.LPIPE_CAM_LENS.SCL c p)
  (List.range w).map (fun (x : Nat) =>
    let src : Int := i32 (toU32 (off + i32 (toU32 ((x : Int) * (65536 + scl) / 256))))
    let i := src / 256
    let fr := (src % 256).toNat
    let at_ (j : Int) : Nat := nth xs (clampInt j 0 ((w : Int) - 1)).toNat 0
    u16 ((at_ i * (256 - fr) + at_ (i + 1) * fr + 128) / 256))

/-! ### A row -/

/-- The sources a row of gate `g` needs: gate, delay and transport line, with the pattern line. -/
def State.rowSources (s : State) (c g : Nat) : List (Nat × Source) :=
  match s.kind c with
  | 1 =>
    let d := s.delayOf c 0
    [(s.phase c g, s.rowSource c g d 0), (s.phase c (g + 1), s.rowSource c (g + 1) d 0)]
      ++ (if g > (s.cam c).g0.getD 0 then [(s.phase c (g - 1), s.rowSource c (g - 1) d 0)] else [])
  | 0 => [(0, s.rowSource c g (s.delayOf c 0) 0)]
  | _ => (List.range (s.sensorLines c)).map (fun k => (k, s.rowSource c g (s.delayOf c k) k))

/-- Every source of the row is there, or will never be. The row's own slot closes first, and under KIND 1 that of the next gate
(R119). -/
def State.rowReady (s : State) (c g : Nat) : Bool :=
  decide (g < (s.cam c).gates) && (s.rowSources c g).all (fun x => x.2 != .notYet) && s.rowSource c g 0 0 != .notYet
    && (s.kind c != 1 || s.rowSource c (g + 1) 0 0 != .notYet)

/-- The rows of the planes under KIND 1 (R119): planes of the gate's own line under R118, the others from the
neighbouring gates. -/
def mosaicPlane (filt : Nat → Nat → Nat) (w : Nat) (own next : Nat × List Nat) (prev : Option (Nat × List Nat)) (p : Nat) :
    List Nat :=
  if filt own.1 0 = p || filt own.1 1 = p then planeRow filt w [own] p
  else
    let b := planeRow filt w [next] p
    match prev with
    | none => b
    | some l => ((planeRow filt w [l] p).zip b).map (fun x => (x.1 + x.2 + 1) / 2)

/-- Row `g` of camera `c`, with the columns without a candidate of R115. -/
def State.buildRow (s : State) (c g : Nat) : Row × Nat :=
  let w := s.width c
  let ls := (s.rowSources c g).map (fun (x : Nat × Source) =>
    let (raw, d, f) := s.sourceLine c x.2
    let k := if s.kind c = 2 then x.1 else 0
    (x.1, s.correctLine c k x.1 d raw, f))
  let lines := ls.map (fun x => (x.1, x.2.1.samples))
  let filt (k par : Nat) : Nat := s.filterCode c k par
  let plane (p : Nat) : List Nat := match s.kind c, lines with
    | 1, own :: next :: rest => mosaicPlane filt w own next rest.head? p
    | _, _ => planeRow filt w lines p
  let own := if s.kind c = 1 then ls.take 1 else ls
  let wpos := (((s.cam c).gateLog.find? (fun r => r.gate == g)).map (·.wpos)).getD 0
  -- the neighbouring gates contribute where a plane is absent from the gate's own line
  let near := (s.planesOf c).any (fun p => own.all (fun x => filt x.1 0 != p && filt x.1 1 != p))
  let used := if near then ls else own
  ({ gate := g, wpos := wpos
     flags := used.foldl (fun a x => orFlags a x.2.2) 0
     replaced := ((used.flatMap (fun x => x.2.1.replaced)).dedup)
     planes := (s.planesOf c).map (fun p => (p, s.lens c p (plane p))) },
   (own.map (fun x => x.2.1.noCandidate)).sum)

/-- Samples of a plane of a row; a plane that the camera does not produce has none. -/
def Row.plane (r : Row) (p : Nat) : List Nat := (keyGet r.planes p).getD []

end Sys2Proof.Machine
end

