-- ==== Sys2Proof/Machine/Strips.lean ====
section
/-! DEFINITION. Machine/Strips.lean: streams, strip and crop buffers, halos, and what is posted to the allocator and
sent to other modules (spec/06_line_pipeline.md, R125-R138; spec/20_gatis_fabric.md, R442). -/

namespace Sys2Proof.Machine

/-- Stream `k` of camera `c`. -/
def State.stream (s : State) (c k : Nat) : StreamSt := (keyGet s.lp.streams (c * 8 + k)).getD {}

/-- Replace a stream. -/
def State.setStream (s : State) (c k : Nat) (x : StreamSt) : State :=
  { s with lp := { s.lp with streams := keyPut s.lp.streams (c * 8 + k) x } }

/-- TYPE of a stream. -/
def State.strType (s : State) (c k : Nat) : Nat := s.get (R.LPIPE_STR_CFG.TYPE c k)

/-- The pipeline builds rows of this camera (R113). -/
def State.lpOn (s : State) (c : Nat) : Bool := s.flag R.LPIPE_CTL.ENABLE && s.flag (R.LPIPE_CAM_CFG.ENABLE c)

/-! ### Buffers (R126, R133, R135) -/

/-- `n` rounded up to a multiple of `m`. -/
def roundUp (n m : Nat) : Nat := (n + m - 1) / m * m

/-- Width of pyramid level `n`. -/
def levelWidth (w : Nat) : Nat → Nat
  | 0 => w
  | n + 1 => (levelWidth w n + 1) / 2

/-- Crop entries of a stream. -/
def State.cropsOf (s : State) (c k : Nat) : List Nat :=
  (List.range 1024).filter (fun i => s.flag (R.LPIPE_CROP_CFG.ENABLE i) && s.get (R.LPIPE_CROP_CFG.CAMERA i) == c
    && s.get (R.LPIPE_CROP_CFG.STREAM i) == k)

/-- Columns of a stream's rows; of a crop stream, the most of its crop entries. -/
def State.strWidth (s : State) (c k : Nat) : Nat :=
  match s.strType c k with
  | 2 => levelWidth (s.width c) (s.get (R.LPIPE_STR_CFG.LEVEL c k))
  | 3 => (s.cropsOf c k).foldl (fun m i => Nat.max m (s.get (R.LPIPE_CROP_W.WIDTH i))) 0
  | 4 => (s.width c + 3) / 4
  | _ => s.width c

/-- Rows a buffer of the stream is laid out for. -/
def State.strRows (s : State) (c k : Nat) : Nat :=
  if s.strType c k = 3 then (s.cropsOf c k).foldl (fun m i => Nat.max m (s.get (R.LPIPE_CROP_ROWS.ROWS i))) 0
  else s.get (R.LPIPE_STR_GEOM.STRIP_LINES c k)

/-- Planes of a stream, ascending filter code. -/
def State.strPlanes (s : State) (c k : Nat) : List Nat := setBits 6 (s.get (R.LPIPE_STR_CFG.PLANES c k))

/-- Bytes of one sample of a stream. -/
def State.strBytes (s : State) (c k : Nat) : Nat := s.get (R.LPIPE_STR_CFG.DEPTH_OUT c k) + 1

/-- Row stride for rows of `w` columns (R126). -/
def State.strStride (s : State) (c k w : Nat) : Nat := (s.strPlanes c k).length * roundUp (w * s.strBytes c k) 512

/-- Offset of the body in a buffer (R133). -/
def State.bodyOff (s : State) (c k : Nat) : Nat := 512 + roundUp (16 * s.strRows c k) 512

/-- Size of a buffer. -/
def State.bufSize (s : State) (c k : Nat) : Nat :=
  roundUp (s.bodyOff c k + s.strRows c k * s.strStride c k (s.strWidth c k)) 65536

/-- Address of buffer `i`. -/
def State.bufAddr (s : State) (c k i : Nat) : Nat :=
  s.get64 (R.LPIPE_STR_BUF_LO.N c k) (R.LPIPE_STR_BUF_HI.N c k) + i * s.bufSize c k

/-- Buffers in the ring. -/
def State.bufs (s : State) (c k : Nat) : Nat := s.get (R.LPIPE_STR_BUF_CTL.BUFS c k)

/-- Counter object of buffer `i`. -/
def State.bufSo (s : State) (c k i : Nat) : Nat := (s.get (R.LPIPE_STR_BUF_CTL.SO_BASE c k) + i) % 16384

/-- Buffers being filled or waiting for their halo. -/
def StreamSt.filling (x : StreamSt) : List Nat :=
  (x.cur.toList ++ x.prev.toList ++ x.crops.filterMap (·.strip)).map (·.buf)

/-- No strip that is still in use has its halo in the `size` bytes from address `a` (R135). -/
def State.noHaloIn (s : State) (a size : Nat) : Bool :=
  s.lp.halos.all (fun h => decide (h.2 < a) || decide (a + size ≤ h.2) || (s.so h.1).value == 0)

/-- Buffer `i` is free (R135). -/
def State.bufFree (s : State) (c k i : Nat) : Bool :=
  !(s.stream c k).filling.contains i && (s.so (s.bufSo c k i)).value == 0
    && s.noHaloIn (s.bufAddr c k i) (s.bufSize c k)

/-- Free buffers of a ring (LPIPE_CAMc_STRs_STATUS.FREE). -/
def State.freeBufs (s : State) (c k : Nat) : Nat := ((List.range (s.bufs c k)).filter (fun i => s.bufFree c k i)).length

/-! ### The Shelf halo region (R136) -/

/-- Bytes of a camera's correction tables (R123). -/
def State.tableBytes (s : State) (c : Nat) : Nat :=
  let n := s.width c * s.sensorLines c
  4 * n + n / 8

/-- Cameras whose tables are in the Shelf. -/
def State.tableCams (s : State) : List Nat := (List.range 16).filter (fun c => s.flag (R.LPIPE_CAM_CFG.ENABLE c))

/-- Where the tables of camera `c` lie in the Shelf: both sets of each enabled camera in turn from its start, the one in
force first (log entry 21). -/
def State.tableBase (s : State) (c : Nat) : Nat :=
  68719476736 + 2 * ((s.tableCams.filter (fun d => decide (d < c))).map (fun d => s.tableBytes d)).sum

/-- Base of the halo region: after the tables (log entry 21). -/
def State.haloBase (s : State) : Nat := s.tableBase 16

/-- Halo blocks in use: their strip is not yet posted, or its buffer is not free (R135). -/
def State.blocksInUse (s : State) : List HaloBlock :=
  let open_ := s.lp.streams.flatMap (fun e => ((e.2.cur.toList ++ e.2.prev.toList).filter (fun o => o.haloLoc == 0)).map (·.haloAddr))
  s.lp.blocks.filter (fun b =>
    open_.contains (s.haloBase + b.off) || (s.so b.so).value != 0 || !s.noHaloIn b.buf b.size)

/-- The lowest place for a block of `n` bytes among the blocks in use. -/
def placeBlock (size n : Nat) (bs : List HaloBlock) : Option Nat :=
  let ok (a : Nat) : Bool := decide (a + n ≤ size) && bs.all (fun b => decide (a + n ≤ b.off) || decide (b.off + b.bytes ≤ a))
  let cand := (0 :: bs.map (fun b => b.off + b.bytes)).filter ok
  cand.foldl (fun (m : Option Nat) a => some (match m with
    | none => a
    | some k => Nat.min k a)) none

/-! ### Halo strips to other modules (R442) -/

/-- The bytes of a strip as HALO packets of 256 bytes each (R443): entry, strip and byte offset are named in the TAG, in a way that
the spec does not give (log entry 22). -/
def State.haloPackets (s : State) (e strip : Nat) (bs : List Byte) : State :=
  let ps := chunks (bs.length + 1) 256 bs
  ((List.range ps.length).zip ps).foldl (fun (s : State) (x : Nat × List Byte) =>
    s.sendTo { type := 0x30, vc := 3, part := s.get (R.GTS_HX_CFG.PART e), dst := s.get (R.GTS_HX_CFG.PEER e), src := s.myId
               tag := (Config.haloTag e strip (x.1 * 256)).toNat, payload := x.2 } false) s

/-- The row stride of a buffer (R126). -/
def BufLay.stride (l : BufLay) : Nat := l.planes.length * roundUp (l.width * l.bytes) 512

/-- Where the columns of one row lie that a halo entry sends: address and bytes by plane. -/
def State.haloRow (s : State) (e : Nat) (l : BufLay) (addr : Nat) : List (Nat × Nat) :=
  let col0 := s.get (R.GTS_HX_COLS.COL0 e)
  let cols := s.get (R.GTS_HX_COLS.COLS e)
  let pl := roundUp (l.width * l.bytes) 512
  (List.range l.planes.length).map (fun p => (addr + p * pl + col0 * l.bytes, cols * l.bytes))

/-- The header of a strip or crop buffer (R134), its first 36 bytes. -/
def stripHeader (ordinal cam str rows halo loc flags so haloAddr wpos crop : Nat) : List Byte :=
  leBytes 4 ordinal ++ leBytes 1 cam ++ leBytes 1 str ++ leBytes 2 rows ++ leBytes 1 halo ++ leBytes 1 loc ++ leBytes 2 flags
    ++ leBytes 4 so ++ leBytes 8 haloAddr ++ leBytes 8 wpos ++ leBytes 4 crop

/-- Send a posted strip by every send entry of its camera and stream. The fabric's own read of it can fail, and the strip is
then not sent (log entry 20). -/
def State.haloSend (s : State) (c k : Nat) (o : OpenStrip) (flags : Nat) : State :=
  if !s.inFabric then s
  else
    let es := (List.range 16).filter (fun e => s.flag (R.GTS_HX_CFG.ENABLE e) && !s.flag (R.GTS_HX_CFG.DIR e)
      && s.get (R.GTS_HX_CFG.CAMERA e) == c && s.get (R.GTS_HX_CFG.STREAM e) == k)
    let st := o.lay.stride
    let body := o.lay.addr + o.lay.body
    es.foldl (fun (s : State) e =>
      let hdr := stripHeader o.ordinal c k o.rows.length o.halo 2 flags 0 0 ((o.rows.head?.map (·.1)).getD 0) 4294967295
        ++ List.replicate 28 0
      let rows := (List.range o.rows.length).flatMap (fun r => s.haloRow e o.lay (body + r * st))
      let halo := (List.range o.halo).flatMap (fun r => s.haloRow e o.lay (o.haloAddr + r * st))
      match s.loadAll .fabric (rows ++ halo) with
      | (true, bs, s) => (s.haloPackets e o.ordinal (hdr ++ bs)).bump (R.GTS_HX_STRIPS.N e)
      | (false, _, s) => s) s

/-! ### Posting (R133-R135) -/

/-- STRIP_POST: header and row table are written, the buffer's counter is set to CONSUMERS, and the strip goes to the
allocator. -/
def State.post (s : State) (c k : Nat) (o : OpenStrip) : State :=
  let n := o.rows.length
  if n = 0 then s
  else
    let any (b : Nat) : Bool := o.rows.any (fun r => bit r.2 b)
    let flags := o.flags + (if any 0 then 4 else 0) + if any 2 then 8 else 0
    let loc := if o.halo = 0 then 2 else o.haloLoc
    let addr := if o.halo = 0 then 0 else o.haloAddr
    let so := o.lay.so
    let a := o.lay.addr
    let hdr := stripHeader o.ordinal c k n o.halo loc flags so addr ((o.rows.head?.map (·.1)).getD 0) o.crop
      ++ List.replicate 476 0
    let tab := o.rows.flatMap (fun r => leBytes 8 r.1 ++ leBytes 1 r.2 ++ List.replicate 7 0)
    let s := (s.store .linePipe a (hdr ++ tab)).2
    let s := s.signal .linePipe so (4294967296 + s.get (R.LPIPE_STR_CFG.CONSUMERS c k) + 1)
    (s.haloSend c k o flags).postStrip o.parts (fun p => {
      camera := c, stream := k, buffer := a, so := so, halo := addr, ordinal := o.ordinal, parts := o.parts
      body := a + o.lay.body, part := o.part, cls := 0, pair := p })

/-- Post the strip that waits for its halo, if there is one. -/
def State.postPrev (s : State) (c k : Nat) : State :=
  let x := s.stream c k
  match x.prev with
  | none => s
  | some o => (s.setStream c k { x with prev := none }).post c k o

/-- The current strip ends: one whose halo is still to come waits for it (R133). -/
def State.endStrip (s : State) (c k : Nat) (forced : Bool) : State :=
  let s := s.postPrev c k
  let x := s.stream c k
  match x.cur with
  | none => s
  | some o =>
    let o := if forced then { o with flags := o.flags + 1 } else o
    let s := s.setStream c k { x with cur := none }
    if s.get (R.LPIPE_STR_GEOM.HALO c k) = 0 then s.post c k o
    else s.setStream c k { s.stream c k with prev := some o }

/-! ### Rows into buffers (R126, R132, R136, R137) -/

/-- A sample of `bytes` bytes (R126). -/
def sampleBytes (bytes v : Nat) : List Byte := if bytes = 1 then leBytes 1 (Nat.min ((v + 128) / 256) 255) else leBytes 2 v

/-- A sample at the stream's depth (R126). -/
def State.outSample (s : State) (c k v : Nat) : List Byte := sampleBytes (s.strBytes c k) v

/-- One plane of a row, padded. -/
def planeBytes (bytes : Nat) (xs : List Nat) : List Byte :=
  let bs := xs.flatMap (fun v => sampleBytes bytes v)
  bs ++ List.replicate (roundUp bs.length 512 - bs.length) 0

/-- A planar row in a buffer (R126), from column `x0` of the row built. -/
def BufLay.rowBytes (l : BufLay) (r : Row) (x0 : Nat) : List Byte :=
  l.planes.flatMap (fun p => planeBytes l.bytes (((r.plane p).drop x0).take l.width))

/-- Parts that were OPEN at a gate of camera `c`. -/
def State.partsAt (s : State) (c g : Nat) : List Nat :=
  s.liveParts.filter (fun i => let v := (s.part i).vd
    colsCamera v.cols == c && v.gates.contains g)

/-- ROW_DROP (R137, R138): a dropped row is counted, and a REQUIRED stream makes the parts it covers incomplete. -/
def State.dropRow (s : State) (c k g x0 w : Nat) : State :=
  let s := (s.bump (R.LPIPE_CAM_ROWS_DROPPED.N c))
  let s := if s.flag (R.LPIPE_STR_STATUS.DROPPING c k) then s
    else ((s.raise (R.LPIPE_STR_STATUS.DROPPING c k)).latch (R.LPIPE_STR_STATUS.DROP_SEEN c k))
  let s := s.setStream c k { s.stream c k with dropped := true }
  if s.flag (R.LPIPE_STR_CFG.REQUIRED c k) then
    (s.partsAt c g).foldl (fun s i =>
      let v := (s.part i).vd
      if decide (x0 ≤ colsLast v.cols) && decide (colsFirst v.cols < x0 + w) then s.markIncomplete i else s) s
  else s

/-- The layout of buffer `i` as the registers in force have it, for rows of `w` columns: the strip or crop that takes it keeps it,
whatever a later write or commit changes (log entry 46). -/
def State.bufLay (s : State) (c k i w : Nat) : BufLay :=
  { addr := s.bufAddr c k i, so := s.bufSo c k i, body := s.bodyOff c k, width := w, planes := s.strPlanes c k
    bytes := s.strBytes c k, lines := s.get (R.LPIPE_STR_GEOM.STRIP_LINES c k) }

/-- Take the next buffer of the ring for a strip or crop; none if it is not free (R135, R137). -/
def State.takeBuf (s : State) (c k w crop : Nat) (part : Option Nat) : Option (OpenStrip × State) :=
  let x := s.stream c k
  let i := x.next
  if s.bufs c k = 0 || !s.bufFree c k i then none
  else
    let o : OpenStrip := { buf := i, lay := s.bufLay c k i w, ordinal := x.ordinal, flags := if x.dropped then 16 else 0, crop := crop, part := part }
    let so := o.lay.so
    let s := s.drop (R.LPIPE_STR_STATUS.DROPPING c k)
    let s := { s with lp := { s.lp with
      blocks := s.lp.blocks.filter (fun b => b.so != so), halos := s.lp.halos.filter (fun h => h.1 != so) } }
    some (o, s.setStream c k { x with
      next := (i + 1) % s.bufs c k, ordinal := u32 (x.ordinal + 1), dropped := false, resumeAfter := none })

/-- Where the halo of the strip before goes, at its first row (R136). -/
def State.placeHalo (s : State) (c k : Nat) (p o : OpenStrip) : OpenStrip × State :=
  let n := s.get (R.LPIPE_STR_GEOM.HALO c k) * o.lay.stride
  let s := { s with lp := { s.lp with blocks := s.blocksInUse } }
  match placeBlock (s.get R.LPIPE_HALO_KIB.KIB * 1024) n s.lp.blocks with
  | some a =>
    ({ p with haloLoc := 0, haloAddr := s.haloBase + a },
      { s with lp := { s.lp with
        blocks := s.lp.blocks ++ [⟨a, n, p.lay.so, p.lay.addr, s.bufSize c k⟩] } })
  | none =>
    let at_ := o.lay.addr + o.lay.body
    let s := { s with lp := { s.lp with halos := s.lp.halos ++ [(p.lay.so, at_)] } }
    ({ p with haloLoc := 1, haloAddr := at_ },
      (s.bump (R.LPIPE_CAM_HALO_CELLAR.N c)).latch R.LPIPE_STATUS.SHELF_FULL)

/-- A row of the new strip is also a halo row of the strip before (R133). -/
def State.haloWrite (s : State) (c k : Nat) (o : OpenStrip) (idx : Nat) (bs : List Byte) : State :=
  match (s.stream c k).prev with
  | none => s
  | some p =>
    let (p, s) := if idx = 0 then s.placeHalo c k p o else (p, s)
    let s := if p.haloLoc = 0 then (s.store .linePipe (p.haloAddr + idx * bs.length) bs).2 else s
    let p := { p with halo := idx + 1 }
    let s := s.setStream c k { s.stream c k with prev := some p }
    if p.halo ≥ s.get (R.LPIPE_STR_GEOM.HALO c k) then s.postPrev c k else s

/-- Write one row into an open buffer. -/
def State.bodyWrite (s : State) (o : OpenStrip) (r : Row) (parts : List Nat) (bs : List Byte) : OpenStrip × State :=
  let a := o.lay.addr + o.lay.body + o.rows.length * bs.length
  ({ o with rows := o.rows ++ [(r.wpos, r.flags)], parts := (o.parts ++ parts).dedup }, (s.store .linePipe a bs).2)

/-- A row of a TYPE 1 or TYPE 2 stream, whose columns are `w`. -/
def State.emitRow (s : State) (c k : Nat) (r : Row) (w : Nat) (parts : List Nat) : State :=
  let x := s.stream c k
  let held := match x.resumeAfter with
    | some g => decide (r.gate < g)
    | none => s.flag (R.LPIPE_STR_STATUS.DROPPING c k)
  let dropped (s : State) : State := s.dropRow c k r.gate 0 (s.width c)
  let write (s : State) (o : OpenStrip) : State :=
    let idx := o.rows.length
    let bs := o.lay.rowBytes r 0
    let (o', s) := s.bodyWrite o r parts bs
    (s.setStream c k { s.stream c k with cur := some o' }).haloWrite c k o' idx bs
  match x.cur with
  | some o => write s o
  | none => if held then dropped s
    else match s.takeBuf c k w 4294967295 none with
      | some (o, s) => write s o
      | none => dropped s

/-! ### Where strips begin (R132) -/

/-- Gates at which strips begin, with a cut that waits for its gate. -/
def State.startsOf (s : State) (c k : Nat) : List (Nat × Bool) :=
  let x := s.stream c k
  x.starts ++ if x.gatesIn = 0 then [((s.cam c).gates, false)] else []

/-- A start has been reached by the next row to come: row of gate `g` of a full stream, row `j` of level `n`. -/
def StreamSt.reached (x : StreamSt) (n next : Nat) (st : Nat × Bool) : Bool :=
  if n = 0 then decide (st.1 ≤ next) else decide (st.1 - x.first.getD 0 ≤ 2 ^ n * next)

/-- End the strips of a stream whose successors begin with the next row (R132, R133). -/
def State.endReached (s : State) (c k : Nat) : State :=
  let x := s.stream c k
  let n := if s.strType c k = 2 then s.get (R.LPIPE_STR_CFG.LEVEL c k) else 0
  let next := if n = 0 then nth s.lp.nextRow c 0 else nth x.made n 0
  let hit := (s.startsOf c k).filter (fun st => x.reached n next st)
  if hit.isEmpty then s
  else
    let s := s.setStream c k { x with starts := x.starts.filter (fun st => !x.reached n next st) }
    if x.cur.isSome then s.endStrip c k (n == 0 && hit.any (·.2)) else s

/-- The streams of a camera with strips. -/
def State.stripStreams (s : State) (c : Nat) : List Nat :=
  (List.range 8).filter (fun k => s.strType c k == 1 || s.strType c k == 2)

/-- A gate is assigned to the strips of the camera's streams (R132); a stream that drops rows takes them again from the
first gate after its buffer has freed (R137). -/
def State.assignGate (s : State) (c g : Nat) : State :=
  (List.range 8).foldl (fun (s : State) k =>
    let ty := s.strType c k
    if ty = 0 || ty > 3 then s
    else
      let x := s.stream c k
      let x := if s.flag (R.LPIPE_STR_STATUS.DROPPING c k) && x.resumeAfter.isNone && s.bufFree c k x.next then
          { x with resumeAfter := some g, gatesIn := 0 } else x
      let x := { x with from_ := x.from_.or (some g) }
      let lines := s.get (R.LPIPE_STR_GEOM.STRIP_LINES c k)
      if ty = 3 then s.setStream c k x
      else if x.gatesIn = 0 then (s.setStream c k { x with gatesIn := 1, lines := lines, starts := x.starts ++ [(g, false)] })
      else if ty = 1 && x.gatesIn ≥ x.lines then
        ((s.setStream c k { x with gatesIn := 1, lines := lines, starts := x.starts ++ [(g, true)] }).bump
          (R.LPIPE_CAM_STRIP_FORCED.N c)).endReached c k
      else s.setStream c k { x with gatesIn := x.gatesIn + 1 }) s

/-- The first gate of a camera fired on this tick, or the next to come; and how many have fired on this tick. -/
def State.gatesNow (s : State) (c : Nat) : Nat × Nat :=
  let n := ((s.cam c).gateLog.filter (fun r => r.dtime == s.dtime)).length
  ((s.cam c).gates - n, n)

/-- STRIP_CUT of one camera (R132). The gates fired on the cut's own tick go to the next strip. -/
def State.stripCut (s : State) (c : Nat) : State :=
  let (first, now) := s.gatesNow c
  (s.stripStreams c).foldl (fun (s : State) k =>
    let x := s.stream c k
    let before := if x.starts.any (fun st => decide (first < st.1)) then 1 else x.gatesIn - now
    if before = 0 then (if s.strType c k = 1 then s.bump (R.LPIPE_CAM_CUT_EMPTY.N c) else s)
    else if now = 0 then (s.setStream c k { x with gatesIn := 0 }).endReached c k
    else (s.setStream c k { x with
      gatesIn := now, lines := s.get (R.LPIPE_STR_GEOM.STRIP_LINES c k), starts := x.starts.filter (fun st => decide (st.1 < first)) ++ [(first, false)] }).endReached c k) s

/-! ### Pyramid levels (R127) -/

/-- h of R127 at row `xs`. -/
def levelH (xs : List Nat) (i : Nat) : Nat :=
  let at_ (j : Nat) : Nat := nth xs (Nat.min j (xs.length - 1)) 0
  at_ (2 * i - 1) + 2 * at_ (2 * i) + at_ (2 * i + 1)

/-- One row of the next level from rows 2j - 1, 2j and 2j + 1. -/
def levelRow (a b d : List Nat) : List Nat :=
  (List.range ((b.length + 1) / 2)).map (fun i => u16 ((levelH a i + 2 * levelH b i + levelH d i + 8) / 16))

/-- The row of the next level made from rows `2j - 1`, `2j`, `2j + 1`; its gate and WPOS are those of row 2j. -/
def nextLevel (a b d : Row) : Row :=
  { gate := b.gate, wpos := b.wpos, flags := orFlags (orFlags a.flags b.flags) d.flags, replaced := []
    planes := b.planes.map (fun e => (e.1, levelRow (a.plane e.1) e.2 (d.plane e.1))) }

/-- A row of level `m` of a TYPE 2 stream has come: the rows of the levels above it that it completes. -/
def State.level (s : State) (c k : Nat) (r : Row) (m : Nat) : Nat → State
  | 0 => s
  | fuel + 1 =>
    let x := s.stream c k
    let y := nth x.made m 0
    let old := nth x.levels m []
    let x := { x with made := setNth x.made m (y + 1), levels := setNth x.levels m (((y, r) :: old).take 3) }
    let s := s.setStream c k x
    if y % 2 = 0 || m ≥ s.get (R.LPIPE_STR_CFG.LEVEL c k) then s
    else match keyGet old (y - 1) with
      | none => s.setStream c k { x with made := setNth x.made (m + 1) (y / 2 + 1) }
      | some b =>
        let a := if y = 1 then b else (keyGet old (y - 2)).getD b
        let up := nextLevel a b r
        if m + 1 = s.get (R.LPIPE_STR_CFG.LEVEL c k) then
          let s := s.endReached c k
          let full := match (s.stream c k).cur with
            | some o => decide (o.rows.length ≥ o.lay.lines)
            | none => false
          let s := if full then (s.endStrip c k true).bump (R.LPIPE_CAM_STRIP_FORCED.N c) else s
          let parts := ((List.range (2 ^ (m + 1))).flatMap (fun d => s.partsAt c (up.gate + d))).dedup
          let s := s.emitRow c k up (levelWidth (s.width c) (m + 1)) parts
          let x := s.stream c k
          (s.setStream c k { x with made := setNth x.made (m + 1) (y / 2 + 1) }).endReached c k
        else s.level c k up (m + 1) fuel

/-! ### Crops (R129-R131) -/

/-- The crop of entry `i` that runs in a stream. -/
def StreamSt.cropOf (x : StreamSt) (i : Nat) : Option CropRun := x.crops.find? (fun r => r.entry == i)

/-- A crop waits for a buffer at row `g`: its rows are being dropped (R137). -/
def CropRun.waits (q : CropRun) (g : Nat) : Bool := q.strip.isNone && decide (q.gate + q.skip.toNat ≤ g)

/-- A crop ends: what it has is posted. If no other crop of the stream waits for a buffer, no row is being dropped. -/
def State.endCrop (s : State) (c k : Nat) (r : CropRun) (cut : Bool) : State :=
  let x := s.stream c k
  let left := x.crops.filter (fun q => q.entry != r.entry)
  let s := if left.any (fun q => q.waits (nth s.lp.nextRow c 0)) then s.setStream c k { x with crops := left }
    else (s.setStream c k { x with crops := left, resumeAfter := none }).drop (R.LPIPE_STR_STATUS.DROPPING c k)
  match r.strip with
  | none => s
  | some o => s.post c k (if cut then { o with flags := o.flags + 2 } else o)

/-- A refused crop (R130, R138). -/
def State.cropBusy (s : State) (c k i : Nat) : State :=
  let s := s.bump (R.LPIPE_CAM_CROP_BUSY.N c)
  if s.flag (R.LPIPE_STR_CFG.REQUIRED c k) then
    (s.liveParts.filter (fun j => (s.part j).core.state == .opened
      && (s.part j).core.lane == s.get (R.LPIPE_CROP_CFG.LANE i))).foldl (fun s j => s.markIncomplete j) s
  else s

/-- A steering field as a crop or a patch samples it on this tick: an update made on the same tick is not seen (R131). -/
def State.steerOf (s : State) (f : Fld) : Int :=
  match s.lp.steerWas.find? (fun w => w.1 == s.dtime && w.2.1 == f.off) with
  | some w => signed (f.hi - f.lo + 1) (bits w.2.2.toNat f.hi f.lo)
  | none => s.getInt f

/-- ROI_APPLY of crop entry `i` (R129-R131, R261). -/
def State.roiApply (s : State) (i : Nat) : State :=
  let c := s.get (R.LPIPE_CROP_CFG.CAMERA i)
  let k := s.get (R.LPIPE_CROP_CFG.STREAM i)
  if !s.flag (R.LPIPE_CROP_CFG.ENABLE i) || !s.lpOn c || s.strType c k != 3 then s
  else
    let s := match (s.stream c k).cropOf i with
      | some r => s.endCrop c k r true
      | none => s
    let x := s.stream c k
    if x.crops.length ≥ 4 then s.cropBusy c k i
    else
      let w : Nat := s.get (R.LPIPE_CROP_W.WIDTH i)
      let x0 := clampInt ((s.get (R.LPIPE_CROP_X.X0 i) : Int) + s.steerOf (R.LPIPE_CROP_STEER.DX i)) 0 ((s.width c : Int) - (w : Int))
      let skip := (s.get (R.LPIPE_CROP_ROWS.SKIP i) : Int) + s.steerOf (R.LPIPE_CROP_STEER.DY i)
      s.setStream c k { x with crops := x.crops ++ [{
        entry := i, gate := (s.gatesNow c).1, x0 := x0.toNat, width := w
        skip := if skip < 0 then 0 else skip, rows := s.get (R.LPIPE_CROP_ROWS.ROWS i)
        part := s.openOf (s.get (R.LPIPE_CROP_CFG.LANE i)) }] }

/-- A row passes a running crop. -/
def State.cropRow (s : State) (c k : Nat) (row : Row) (q : CropRun) : State :=
  let put (s : State) (q : CropRun) : State :=
    s.setStream c k { s.stream c k with crops := (s.stream c k).crops.map (fun p => if p.entry = q.entry then q else p) }
  if row.gate < q.gate then s
  else
    let n := row.gate - q.gate
    let lo := q.skip.toNat
    if n < lo then s
    else
      let parts := (s.partsAt c row.gate).filter (fun i => let v := (s.part i).vd
        decide (q.x0 ≤ colsLast v.cols) && decide (colsFirst v.cols < q.x0 + q.width))
      let write (s : State) (o : OpenStrip) : CropRun × State :=
        let (o', s) := s.bodyWrite o row parts (o.lay.rowBytes row q.x0)
        ({ q with strip := some o' }, put s { q with strip := some o' })
      let held := match (s.stream c k).resumeAfter with
        | some g => decide (row.gate < g)
        | none => s.flag (R.LPIPE_STR_STATUS.DROPPING c k)
      let (q, s) := match q.strip with
        | some o => write s o
        | none =>
          if held then (q, s.dropRow c k row.gate q.x0 q.width)
          else match s.takeBuf c k q.width q.entry q.part with
            | some (o, s) => write s o
            | none => (q, s.dropRow c k row.gate q.x0 q.width)
      if n + 1 ≥ lo + q.rows then s.endCrop c k q false else s

end Sys2Proof.Machine
end

