-- ==== Sys2Proof/Machine/Lists.lean ====
section
/-! DEFINITION. Machine/Lists.lean: the records of an instruction list other than matrix and vector commands, the
completion of commands, and the start of Flock threads (spec/11_program_images.md, R241-R252, R256;
spec/10_flock.md, R211; spec/18_verdicts_sheepdog.md, R388). -/

namespace Sys2Proof.Machine

/-! ### Transfers (R246) -/

/-- The strip that a list runs for. -/
def ListCtx.strip (l : ListCtx) : Option Strip := match l.kind with
  | .strip x => some x
  | _ => none

/-- The base that BASE_SEL names; none where the list has no such base. -/
def ListCtx.xferBase (l : ListCtx) (sel : Nat) : Option Nat :=
  match sel with
  | 0 => some 0
  | 1 => l.strip.map (·.body)
  | 2 => l.strip.map (·.halo)
  | 3 => some (l.pair.image.base + l.pair.image.const.1)
  | 4 => some l.pair.weights.base
  | _ => none

/-- The pieces of `k` bytes from Larder address `a` that lie in one row each: offset and length. -/
def rowPieces : Nat → Nat → Nat → Nat → List (Nat × Nat)
  | 0, _, _, _ => []
  | f + 1, a, off, k =>
    if k = 0 then []
    else
      let m := Nat.min k (512 - (a + off) % 512)
      (off, m) :: rowPieces f a (off + m) (k - m)

/-- The rows that a line of `k` bytes at Larder address `a` touches, each with a mark if the access is narrow (R172, R178). -/
def lineRows (a k : Nat) : List (Nat × Bool) :=
  (rowPieces (k / 512 + 2) a 0 k).map (fun p => ((a + p.1) / 512 % 4096, p.2 != 512))

/-- One line from memory to the Larder. -/
def State.lineIn (s : State) (n part mem ldr k : Nat) : Option CoreStop × State :=
  match s.load (.xfer n part) mem k with
  | (.ok, bs, s) =>
    -- a row written whole is not read before
    match s.narrowRead n ((lineRows ldr k).filter (·.2)) with
    | (none, s) => (none, s.ldrWrite n ldr bs)
    | e => e
  | (.range, _, s) => (some .refused, s)
  | (.parity, _, s) => (some .parity, s)

/-- One line from the Larder to memory. -/
def State.lineOut (s : State) (n part mem ldr k : Nat) : Option CoreStop × State :=
  match s.narrowRead n (lineRows ldr k) with
  | (none, s) =>
    match s.store (.xfer n part) mem (s.ldrRead n ldr k) with
    | (.ok, s) => (none, s)
    | (.range, s) => (some .refused, s)
    | (.parity, s) => (some .parity, s)
  | e => e

/-- The lines of a transfer in order, up to one that stops. -/
def State.xferLines (s : State) (toLarder : Bool) (n part k lst mst : Nat) : Nat → Nat → Nat → Option CoreStop × State
  | 0, _, _ => (none, s)
  | f + 1, mem, ldr =>
    match (if toLarder then s.lineIn n part mem ldr k else s.lineOut n part mem ldr k) with
    | (none, s) => s.xferLines toLarder n part k lst mst f (mem + mst) (ldr + lst)
    | e => e

/-- A transfer of more operations than its partition's INFLIGHT, or the homes' 7,168, leave room for waits; how often is left
open (R319, log entry 43). -/
def State.xferWaits (s : State) (part mem k mst lines : Nat) : State :=
  let ops := ((List.range lines).map (fun i => ((mem + i * mst) % 64 + k + 63) / 64)).sum
  let own := Nat.max (s.inFlight 0 (some part)) (s.inFlight 1 (some part))
  let all := Nat.max (s.inFlight 0 none) (s.inFlight 1 none)
  if ops + own ≤ s.get (R.CEL_PART_CFG.INFLIGHT part) && ops + all ≤ 7168 then s
  else
    let (v, s) := s.draw
    s.bumpBy R.CEL_CNT_WAIT_INFL.N v.toNat

/-- An XFER record at the head of a core's list issues and runs, if its DIR is that given (R246). A length, stride or
address that is not a multiple of 4, or a base that the list does not have, is refused under R172 and R153. -/
def State.xfer (s : State) (n : Nat) (toLarder : Bool) : State :=
  match s.headCommand n 3 .transfer with
  | none => s
  | some (l, r) =>
    if bit (fieldAt r 8 1) 0 == toLarder then s
    else s.fetched n l r (fun s =>
      let s := s.issueCommand n l r .transfer
      let ldr := fieldAt r 12 4
      let k := fieldAt r 24 2
      let lst := fieldAt r 26 2
      match l.xferBase (bits (fieldAt r 8 1) 3 1) with
      | none => s.stopCommand n .refused
      | some base =>
        if ldr % 4 != 0 || k % 4 != 0 || lst % 4 != 0 then s.stopCommand n .refused
        else
          let mem := base + fieldAt r 16 8
          let p := s.jobPart l.job
          let s := s.xferWaits p mem k (fieldAt r 28 4) (fieldAt r 10 2)
          State.endCommand n (s.xferLines toLarder n p k lst (fieldAt r 28 4) (fieldAt r 10 2) mem ldr))

/-- XFER_TO_LARDER (R246): a transfer with DIR 0. -/
def execXferToLarder (core : Fin 16) (s : State) : Host.Outcome State Fault Refusal := .next (s.xfer core.val true)

/-- XFER_FROM_LARDER (R246): a transfer with DIR 1. -/
def execXferFromLarder (core : Fin 16) (s : State) : Host.Outcome State Fault Refusal := .next (s.xfer core.val false)

/-! ### Completion (R242, R251) -/

/-- The units by number. -/
def unitOf (u : Fin 3) : Unit3 := if u.val = 0 then .matrix else if u.val = 1 then .vector else .transfer

/-- The command that runs on a unit of a list's core. -/
def ListCtx.running (l : ListCtx) (u : Unit3) : Option Issued := l.issued.find? (fun r => r.unit == u && !r.complete)

/-- A command has run past MAXDUR (R251). -/
def Issued.expired (i : Issued) (t : Nat) : Bool := decide (t > i.start + i.maxNs)

/-- COMMAND_COMPLETE (R242): the command that runs on a unit completes; one that ran past MAXDUR faults instead (R251). -/
def execCommandComplete (core : Fin 16) (u : Fin 3) (s : State) : Host.Outcome State Fault Refusal :=
  let n := core.val
  .next (match s.list n with
    | none => s
    | some l => match l.running (unitOf u) with
      | none => s
      | some i =>
        if i.expired s.dtime then (s.tearList n .maxdur).settle
        else
          let l := { l with issued := l.issued.map (fun r =>
            if r.unit == unitOf u && !r.complete then { r with complete := true } else r) }
          let s := s.setList n l
          if u.val = 0 then s.drop (R.CORE_STATUS.BUSY n) else s)

/-- MAXDUR_EXPIRE (R251): a command that has run past MAXDUR faults, and its context is torn down. -/
def execMaxdurExpire (core : Fin 16) (u : Fin 3) (s : State) : Host.Outcome State Fault Refusal :=
  let n := core.val
  .next (match s.list n with
    | none => s
    | some l => match l.running (unitOf u) with
      | none => s
      | some i => if i.expired s.dtime then (s.tearList n .maxdur).settle else s)

/-! ### WAIT and SIGNAL (R247, R334, R340) -/

/-- The sync object of a WAIT or SIGNAL record: as written, or the current strip buffer's (R247). -/
def ListCtx.object (l : ListCtx) (r : List Byte) : Nat :=
  match fieldAt r 10 1, l.strip with
  | 1, some x => x.so
  | _, _ => fieldAt r 8 2 % 16384

/-- A list context of the job may use object `o`; an object with TYPE 0 is not judged (R333, R340). -/
def State.listMay (s : State) (j o : Nat) : Bool := (s.so o).cfg.type == 0 || (s.so o).allowed (s.jobPart j)

/-- The WAIT record at the head of a list issues. -/
def State.waitRecord (s : State) (k : Nat) : State :=
  match s.headRecord k 4 with
  | none => s
  | some (l, r) => s.fetched k l r (fun s =>
    let o := l.object r
    if !s.listMay l.job o then (s.tearList k .soAccess).settle
    else ((s.setList k { l with waiting := true }).arriveWait (.core k) o (fieldAt r 16 8)).settle)

/-- The SIGNAL record at the head of a list issues once every earlier record has completed. -/
def State.signalRecord (s : State) (k : Nat) : State :=
  match s.headRecord k 5 with
  | none => s
  | some (l, r) =>
    let o := l.object r
    if !l.allDone then s
    else s.fetched k l r (fun s =>
      if !s.listMay l.job o then (s.tearList k .soAccess).settle
      else ((s.setList k (l.advance r)).signal (.core k) o (fieldAt r 16 8)).settle)

/-- WAIT_RECORD (R247): a WAIT record issues, and holds the list until it completes. Expiries come first (R339). -/
def execWaitRecord (ctx : Fin 4112) (s : State) : Host.Outcome State Fault Refusal :=
  let k := ctx.val
  .next (if (s.headRecord k 4).isSome then s.expireDue.waitRecord k else s)

/-- SIGNAL_RECORD (R247): a SIGNAL record issues once every earlier record has completed. Expiries come first (R339). -/
def execSignalRecord (ctx : Fin 4112) (s : State) : Host.Outcome State Fault Refusal :=
  let k := ctx.val
  .next (match s.headRecord k 5 with
    | none => s
    | some (l, _) => if l.allDone then s.expireDue.signalRecord k else s)

/-! ### LAUNCH and threads (R211, R247) -/

/-- The part-table index that a list runs for: that of a part list's part, and in a sub-list of a crop class that of the
part in the crop entry's lane which was OPEN at its ROI_APPLY (R261). -/
def ListCtx.partIndex (l : ListCtx) : Option Nat := match l.kind with
  | .part i => some i
  | .strip x => x.part
  | .setup => none

/-- The launch argument (R247); `free` is the index where the list runs for no part: no part-table index, so no result is that of a
part (R261). -/
def ListCtx.launchArg (l : ListCtx) (r : List Byte) (free : Nat) : Nat :=
  u64 (fieldAt r 16 8 + (match fieldAt r 24 1, l.strip with
    | 1, some x => x.buffer
    | 2, _ => l.partIndex.getD free
    | _, _ => 0))

/-- LAUNCH (R211, R247): N threads are to start at an entry offset in CODE; the record completes at issue. A part-table
index for a list that runs for no part is a free value (log entry 59). -/
def execLaunch (ctx : Fin 4112) (s : State) : Host.Outcome State Fault Refusal :=
  let k := ctx.val
  .next (match s.headRecord k 6 with
    | none => s
    | some (l, r) => s.fetched k l r (fun s =>
      let so := fieldAt r 26 2 % 16384
      let n := fieldAt r 12 4
      let (v, s') := s.draw
      let s := if n != 0 && fieldAt r 24 1 = 2 && l.partIndex.isNone then s' else s
      let s := s.setList k (l.advance r)
      if n = 0 then (s.launchDone so).settle
      else
        let x : Launch := {
          id := s.flock.nextLaunch, job := l.job, part := s.jobPart l.job
          entry := l.pair.image.base + l.pair.image.code.1 + fieldAt r 8 4
          total := n, nextIndex := 0, exited := 0, arg := l.launchArg r (4096 + v.toNat % 4294963200), so := so, nd := bit (fieldAt r 1 1) 0
          forPart := if fieldAt r 24 1 = 2 then l.partIndex else none
          forStrip := l.strip.map (·.parts) }
        { s with flock := { s.flock with launches := s.flock.launches ++ [x], nextLaunch := s.flock.nextLaunch + 1 } }))

/-- The partition that holds pipeline `p` of engine `e` (R210, R320). -/
def State.pipeOwner (s : State) (e p : Nat) : Option Nat :=
  (List.range 8).find? (fun k => s.flag (R.STG_PTN_CFG.ENABLE k) && bit (s.reg (R.STG_PTN_PIPES k)).toNat (16 * e + p))

/-- The launch whose next thread a free context of partition `p` takes: the oldest with threads to start whose job holds
its slice (R211, R331). -/
def State.nextStart (s : State) (p : Nat) : Option Launch :=
  s.flock.launches.find? (fun l => l.part == p && decide (l.nextIndex < l.total) && s.jobState l.job == 2)

/-- The state of a new thread (R211). -/
def Launch.thread (l : Launch) : Thread :=
  { g := [0, l.arg, l.nextIndex] ++ List.replicate 29 0, pc := l.entry, job := l.job, part := l.part, launch := l.id
    nd := l.nd, forPart := l.forPart, forStrip := l.forStrip }

/-- THREAD_START (R211): a launched thread takes free context `c` of engine `e`. -/
def execThreadStart (e : Fin 2) (c : Fin 4096) (s : State) : Host.Outcome State Fault Refusal :=
  .next (match s.thread e.val c.val, s.pipeOwner e.val (c.val / 256) with
    | none, some p =>
      if !s.flag (R.FLK_ENG_STATUS.IN_SERVICE e.val) then s
      else match s.nextStart p with
        | none => s
        | some l =>
          let s := s.setThread e.val c.val l.thread
          { s with flock := { s.flock with launches := s.flock.launches.map (fun x =>
            if x.id == l.id then { x with nextIndex := x.nextIndex + 1 } else x) } }
    | _, _ => s)

/-! ### Hints, RESULT, END, NOP -/

/-- A list takes an IDLE_FOR hint (R252): it issues no MCMD for DURATION, nor before an earlier hint has ended. -/
def ListCtx.idle (l : ListCtx) (now us : Nat) : ListCtx :=
  { l with
    idleUntil := Nat.max l.idleUntil (now + us * 1000)
    idleUs := if l.idleUntil > now then Nat.max l.idleUs us else us }

/-- IDLE_FOR (R252). -/
def execIdleFor (core : Fin 16) (s : State) : Host.Outcome State Fault Refusal :=
  let n := core.val
  .next (match s.headRecord n 7 with
    | none => s
    | some (l, r) =>
      if fieldAt r 8 1 = 0 then s.fetched n l r (fun s => s.setList n ((l.advance r).idle s.dtime (fieldAt r 12 4))) else s)

/-- LOAD (R252): a hint that changes no result, order or bound; the power governor may ignore it. -/
def execLoad (core : Fin 16) (s : State) : Host.Outcome State Fault Refusal :=
  let n := core.val
  .next (match s.headRecord n 7 with
    | none => s
    | some (l, r) => if fieldAt r 8 1 = 0 then s else s.fetched n l r (fun s => s.setList n (l.advance r)))

/-- RESULT (R247, R388): the 64-byte block of the part is snapshotted as its program result. A block outside memory or with a
hard fault tears the part's list down (R303, R314). -/
def execResult (part : Fin 4096) (s : State) : Host.Outcome State Fault Refusal :=
  let i := part.val
  .next (match s.headRecord (16 + i) 8 with
    | none => s
    | some (l, r) => s.fetched (16 + i) l r (fun s => match s.load .issuer (u64 (fieldAt r 16 8 + i * fieldAt r 24 4)) 64 with
      | (.ok, block, s) => (s.setList (16 + i) (l.advance r)).takeResult i block
      | (.range, _, s) => (s.tearList (16 + i) .cmdRefused).settle
      | (.parity, _, s) => (s.tearList (16 + i) .parity).settle))

/-- A sub-list has ended: the strip's backlog falls, queued strips are allocated, and the core takes its next list
(R256). -/
def State.listEnd (s : State) (k : Nat) (l : ListCtx) : State :=
  let s := s.delList k
  match l.kind with
  | .part _ => s
  | .setup => s.coreNext l.job k
  | .strip _ =>
    let s := s.put (R.CORE_ALLOC.BACKLOG k) (s.backlog k - 1)
    (s.coreNext l.job k).allocate l.job

/-- END (R242): a sub-list ends once every earlier record has completed. -/
def execEndRecord (ctx : Fin 4112) (s : State) : Host.Outcome State Fault Refusal :=
  let k := ctx.val
  .next (match s.headRecord k 9 with
    | none => s
    | some (l, r) => if l.allDone then s.fetched k l r (fun s => s.listEnd k l) else s)

/-- NOP_RECORD (R241): nothing but the next record. -/
def execNopRecord (ctx : Fin 4112) (s : State) : Host.Outcome State Fault Refusal :=
  let k := ctx.val
  .next (match s.headRecord k 0 with
    | none => s
    | some (l, r) => s.fetched k l r (fun s => s.setList k (l.advance r)))

end Sys2Proof.Machine
end

