-- ==== Sys2Proof/Machine/Sets.lean ====
section
/-! DEFINITION. Machine/Sets.lean: serial sets in memory and across the fabric (spec/10_flock.md, R220-R229;
spec/20_gatis_fabric.md, R439, R440). -/

namespace Sys2Proof.Machine

/-! ### Configuration and place (R220, R226) -/

/-- The entry of a set as an operation holds it (R225): BASE, GEOM, SALT, MAP. -/
def State.setCfg (s : State) (k : Nat) : List Nat :=
  [s.get64 (R.FLK_SET_BASE_LO.N k) (R.FLK_SET_BASE_HI.N k), (s.reg (R.FLK_SET_GEOM k)).toNat,
    s.get64 (R.FLK_SET_SALT_LO.N k) (R.FLK_SET_SALT_HI.N k), s.get64 (R.FLK_SET_MAP_LO.N k) (R.FLK_SET_MAP_HI.N k)]

/-- Fields of a set entry. -/
def cfgBase (c : List Nat) : Nat := nth c 0 0
def cfgLog2 (c : List Nat) : Nat := bits (nth c 1 0) 4 0
def cfgProbe (c : List Nat) : Nat := bits (nth c 1 0) 14 8
def cfgEnabled (c : List Nat) : Bool := bit (nth c 1 0) 16
def cfgFabric (c : List Nat) : Bool := bit (nth c 1 0) 17
def cfgSalt (c : List Nat) : Nat := nth c 2 0
def cfgMap (c : List Nat) : Nat := nth c 3 0

/-- Buckets of a shard. -/
def cfgBuckets (c : List Nat) : Nat := 2 ^ (cfgLog2 c - 8)

/-- A key: 88 bits, byte 0 least significant. -/
def keyBytes (k : Nat) : List Byte := leBytes 11 k

/-- A key's shard, and its home bucket (R223). -/
def keyShard (k : Nat) : Nat := k % 256
def keyHome (c : List Nat) (k : Nat) : Nat := k / 256 % 4294967296 % cfgBuckets c

/-- The entry of the shard map for shard `z` (R226). -/
def State.mapEntry (s : State) (c : List Nat) (z : Nat) : Nat := leVal ((List.range 4).map (fun i =>
  match s.resolve .firmware (cfgMap c + 4 * z + i) with
  | some h => Memory.byte s.mem (s.phys h)
  | none => 0))

/-- Read the entry of the shard map for shard `z` with its parity (R310); a local set has no map. -/
def State.readMap (s : State) (ag : MemAgent) (c : List Nat) (z : Nat) : MemRes × State :=
  if cfgFabric c then (let (r, _, s) := s.load ag (cfgMap c + 4 * z) 4; (r, s)) else (.ok, s)

/-- SLOT, PRIMARY and REPLICA of a shard; a local set has shard z at slot z. -/
def State.shardSlot (s : State) (c : List Nat) (z : Nat) : Nat := if cfgFabric c then s.mapEntry c z % 256 else z
def State.shardPrimary (s : State) (c : List Nat) (z : Nat) : Nat := bits (s.mapEntry c z) 13 8
def State.shardReplica (s : State) (c : List Nat) (z : Nat) : Nat := bits (s.mapEntry c z) 21 16

/-- Address of a bucket of a shard's copy at a slot (R220). -/
def bucketAddr (c : List Nat) (slot b : Nat) : Nat := cfgBase c + (slot * cfgBuckets c + b) * 64

/-! ### Search (R223) -/

/-- Where a search ended. -/
inductive Found where
  /-- A matching entry: bucket, entry, STATE, NODE, buckets visited. -/
  | hit (bucket entry state node visited : Nat)
  /-- The first EMPTY entry: bucket, entry, buckets visited. -/
  | empty (bucket entry visited : Nat)
  | limit (visited : Nat)
  | failed (r : MemRes) (addr : Nat)
  deriving DecidableEq, Repr

/-- The first entry of a bucket that is EMPTY or holds the key; none where there is neither. -/
def findEntry (bs : List Byte) (b key visited : Nat) : Option Found :=
  ((List.range 4).find? (fun e => fieldAt bs (16 * e + 11) 1 == 0 || fieldAt bs (16 * e) 11 == key)).map (fun e =>
    let st := fieldAt bs (16 * e + 11) 1
    if st = 0 then .empty b e visited else .hit b e st (fieldAt bs (16 * e + 12) 4) visited)

/-- Search one bucket, which is one operation at its home (R319). -/
def State.searchBucket (s : State) (ag : MemAgent) (c : List Nat) (slot b key visited : Nat) : Option Found × State :=
  match s.load ag (bucketAddr c slot b) 64 with
  | (.ok, bs, s) => (findEntry bs b key visited, s)
  | (r, _, s) => (some (.failed r (bucketAddr c slot b)), s)

/-- Search bucket after bucket, at most PROBE_MAX. -/
def State.search (s : State) (ag : MemAgent) (c : List Nat) (slot key : Nat) : Nat → Nat → Found × State
  | 0, k => (.limit k, s)
  | f + 1, k =>
    match s.searchBucket ag c slot ((keyHome c key + k) % cfgBuckets c) key (k + 1) with
    | (some r, s) => (r, s)
    | (none, s) => s.search ag c slot key f (k + 1)

/-! ### Operations (R224) -/

/-- The value in rd: OUTCOME, buckets visited, NODE. -/
def setResult (outcome visited node : Nat) : Nat := outcome + visited * 8 + node * 4294967296

/-- The value in rd of an operation that reached no copy: OUTCOME DOUBT or NO_ROUTE. The buckets visited, 1-64, are left
open, and no entry was found. -/
def State.setFailed (s : State) (outcome : Nat) : Nat × State :=
  let (v, s) := s.draw
  (setResult outcome (1 + v.toNat % 64) 4294967295, s)

/-- A change of an entry: bucket, entry, STATE and NODE. -/
structure EntryChange where
  bucket : Nat
  entry : Nat
  state : Nat
  node : Nat
  deriving DecidableEq, Repr

/-- Result of an operation on one copy: the value, the change made, or why the memory failed. -/
structure SetDone where
  value : Nat
  change : Option EntryChange
  failed : Option (MemRes × Nat)
  deriving DecidableEq, Repr

/-- The bytes of an entry (R220). -/
def entryBytes (key : Nat) (x : EntryChange) : List Byte := keyBytes key ++ leBytes 1 x.state ++ leBytes 4 x.node

/-- Write an entry (R220) in an operation of its own. -/
def State.writeEntry (s : State) (ag : MemAgent) (c : List Nat) (slot key : Nat) (x : EntryChange) : MemRes × State :=
  s.store ag (bucketAddr c slot x.bucket + x.entry * 16) (entryBytes key x)

/-- Write an entry of the bucket that the operation has searched (R224). -/
def State.putEntry (s : State) (ag : MemAgent) (c : List Nat) (slot key : Nat) (x : EntryChange) : State :=
  s.storeBack ag (bucketAddr c slot x.bucket + x.entry * 16) (entryBytes key x)

/-- One operation on the copy at a slot, atomic at its home (R224): op 0 HLOOK, 1 HSEEN, 2 HINS. -/
def State.setApply (s : State) (ag : MemAgent) (c : List Nat) (slot op key node : Nat) : SetDone × State :=
  let done (v : Nat) : SetDone := ⟨v, none, none⟩
  let write (s : State) (v : Nat) (x : EntryChange) : SetDone × State := (⟨v, some x, none⟩, s.putEntry ag c slot key x)
  match s.search ag c slot key (cfgProbe c) 0 with
  | (.failed r a, s) => (⟨0, none, some (r, a)⟩, s)
  | (.limit k, s) => (done (setResult 3 k 4294967295), s)
  | (.hit b e st nd k, s) =>
    if op = 2 then (done (setResult 1 k nd), s)
    else if st ≠ 1 then (done (setResult 1 k nd), s)
    else if op = 1 then write s (setResult 0 k nd) ⟨b, e, 2, nd⟩
    else (done (setResult 0 k nd), s)
  | (.empty b e k, s) =>
    if op = 2 then write s (setResult 0 k 4294967295) ⟨b, e, 1, node⟩
    else (done (setResult 2 k 4294967295), s)

/-- Where this module's copy of a shard begins (R220, R226). -/
def State.copyBase (s : State) (c : List Nat) (z : Nat) : Nat := bucketAddr c (s.shardSlot c z) 0

/-- This module's copy of shard `z` of set `k` is doubtful (R318). -/
def State.doubted (s : State) (k : Nat) (c : List Nat) (z : Nat) : Bool :=
  s.cel.doubtful.any (fun d => d.set == k && d.shard == z && d.base == s.copyBase c z)

/-- Operations on this module's copy of a shard end in DOUBT: the copy is doubtful (R318), or the set is in the fabric
and the component has no quorum (R440). -/
def State.setDoubt (s : State) (k : Nat) (c : List Nat) (z : Nat) : Bool :=
  s.doubted k c z || (cfgFabric c && !s.flag R.GTS_STATUS.QUORUM)

/-! ### Payloads (R429, log entry 31) -/

/-- SET_REQ: operation, set, key, NODE. -/
def setReqBytes (op set key node : Nat) : List Byte := leBytes 1 op ++ leBytes 1 set ++ keyBytes key ++ leBytes 4 node

/-- SET_RESP: the value of R224, and a stale reply. -/
def setRespBytes (v : Nat) (stale : Bool) : List Byte := leBytes 8 v ++ leBytes 1 (if stale then 1 else 0)

/-- REPL: set, key and the change of its entry. -/
def replBytes (set key : Nat) (x : EntryChange) : List Byte :=
  leBytes 1 set ++ keyBytes key ++ leBytes 4 x.bucket ++ leBytes 1 x.entry ++ leBytes 1 x.state ++ leBytes 4 x.node

/-- Send a packet of virtual channel 2 with this module as source. -/
def State.sendLookup (s : State) (type part dst tag : Nat) (payload : List Byte) : State :=
  s.sendTo { type := type, vc := 2, part := part, dst := dst, src := s.myId, tag := tag
             epoch := if decide (0x20 ≤ type) && decide (type ≤ 0x23) then (s.reg R.GTS_MAP_EPOCH).toNat else 0
             payload := payload } false

/-- A fresh request tag. -/
def State.newTag (s : State) : Nat × State := (s.gts.nextTag, { s with gts := { s.gts with nextTag := u32 (s.gts.nextTag + 1) } })

/-- A partition can send on VC 2 toward a module: a route, and units at its next hop (R433, R434). -/
def State.lookupRoute (s : State) (part dst : Nat) : Bool :=
  match s.route 2 part dst false with
  | none => false
  | some p => decide ((keyGet (s.gport p).quota (16 + part)).getD 0 > 0)

/-! ### Results in threads -/

/-- Write a thread's register; g0 stays 0 (R213). -/
def Thread.setReg (t : Thread) (r v : Nat) : Thread := if r = 0 then t else { t with g := setNth t.g r (u64 v) }

/-- A thread's register. -/
def Thread.reg (t : Thread) (r : Nat) : Nat := if r = 0 then 0 else nth t.g r 0

/-- Operation `i` of a thread completes with a value for its register. -/
def State.finishOp (s : State) (e c : Nat) (t : Thread) (i v : Nat) : State :=
  match t.ops[i]? with
  | none => s
  | some o => s.setThread e c { t.setReg o.rd v with ops := t.ops.eraseIdx i }

/-- Count an outcome of HSEEN (R224). -/
def State.countSeen (s : State) (e outcome : Nat) : State :=
  match outcome with
  | 0 => s.bump (R.FLK_ENG_CNT_FIRST.N e) | 1 => s.bump (R.FLK_ENG_CNT_DUP.N e)
  | 2 => s.bump (R.FLK_ENG_CNT_NOT_ISSUED.N e) | 3 => s.bump (R.FLK_ENG_CNT_PROBE_LIMIT.N e)
  | 4 => s.bump (R.FLK_ENG_CNT_DOUBT.N e) | _ => s.bump (R.FLK_ENG_CNT_NO_ROUTE.N e)

/-- A set operation of a thread ends with a value. -/
def State.finishSet (s : State) (e c : Nat) (t : Thread) (i v : Nat) : State :=
  let s := match t.ops[i]? with
    | some o => (match o.kind with
      | .setOp 1 _ _ _ => s.countSeen e (v % 8)
      | _ => s)
    | none => s
  s.finishOp e c t i v

/-- A set operation of a thread ends in DOUBT (4) or NO_ROUTE (5). -/
def State.failSet (s : State) (e c : Nat) (t : Thread) (i outcome : Nat) : State :=
  let (v, s) := s.setFailed outcome
  s.finishSet e c t i v

/-- An RGET ends without data: rd takes 0, and the context's RFAIL bit is set (R229). -/
def State.failGet (s : State) (e c : Nat) (t : Thread) (i : Nat) : State := s.finishOp e c { t with rfail := true } i 0

/-- The thread and operation that wait for a tag: engine, context, thread, position. -/
def State.waiterOf (s : State) (tag : Nat) : Option (Nat × Nat × Thread × Nat) :=
  match s.flock.threads.find? (fun x => x.2.ops.any (fun o => o.remote == some tag)) with
  | none => none
  | some x => some (x.1 / 4096, x.1 % 4096, x.2, x.2.ops.findIdx (fun o => o.remote == some tag))

/-! ### The primary (R227) -/

/-- After the primary's own copy holds a change: the replica is told, and the answer waits for it; false where no
replica is to be told. -/
def State.replicate (s : State) (set part key requester reqTag : Nat) (c : List Nat) (loc : Option (Nat × Nat)) (d : SetDone) :
    Bool × State :=
  match d.change with
  | none => (false, s)
  | some x =>
    let r := s.shardReplica c (keyShard key)
    if !cfgFabric c || r == s.myId then (false, s)
    else
      let (tag, s) := s.newTag
      let s := { s with gts := { s.gts with serving := s.gts.serving ++ [({
        requester := requester, reqTag := reqTag, local_ := loc, part := part, tag := tag, result := d.value } : Serving)] } }
      (true, s.sendLookup 0x22 part r tag (replBytes set key x))

/-- Answer a SET_REQ. -/
def State.answerSet (s : State) (dst part tag v : Nat) (stale : Bool) : State :=
  s.sendLookup 0x21 part dst tag (setRespBytes v stale)

/-- Serve a SET_REQ of another module (R227, R439, R440): an older epoch, or a shard that has its primary elsewhere, is
answered as stale; DOUBT from a doubtful copy, without quorum, and where the memory fails (R314). -/
def State.serveSet (s : State) (h : Packet) (op set key node : Nat) : State :=
  let c := s.setCfg set
  let z := keyShard key
  let old := decide (toU32 ((s.reg R.GTS_MAP_EPOCH).toNat - (h.epoch.toNat : Int)) % 4294967296 ≠ 0)
    && decide (toU32 ((s.reg R.GTS_MAP_EPOCH).toNat - (h.epoch.toNat : Int)) < 2147483648)
  let answer (s : State) (v : Nat) (st : Bool) : State := s.answerSet h.src.val h.part.val h.tag.toNat v st
  let doubt (s : State) (st : Bool) : State :=
    let (v, s) := s.setFailed 4
    answer s v st
  if old || !cfgEnabled c || !cfgFabric c then doubt s true
  else match s.readMap .fabric c z with
    | (.ok, s) =>
      if s.shardPrimary c z != s.myId then doubt s true
      else if s.setDoubt set c z then doubt s false
      else
        (match s.setApply .fabric c (s.shardSlot c z) op key node with
         | (d, s) =>
          if d.failed.isSome then doubt s false
          else match s.replicate set h.part.val key h.src.val h.tag.toNat c none d with
            | (true, s) => s
            | (false, s) => answer s d.value false)
    | (_, s) => doubt s false

end Sys2Proof.Machine
end

