-- ==== Sys2Proof/Machine/Flock.lean ====
section
/-! DEFINITION. Machine/Flock.lean: the instructions of Flock threads (spec/10_flock.md, R209-R232). A row names an
engine and a context: the context issues its next instruction if that is the row's. An instruction that a thread may
not issue yet changes nothing, an instruction that the table does not list faults under any row (R214). Memory, set and
remote operations take effect with FLOCK_MEM_COMPLETE and the replies of the fabric. Log entry 30 gives the readings. -/

namespace Sys2Proof.Machine

/-! ### Instruction words (R213) -/

/-- Fields of an instruction word. -/
def opOf (w : Nat) : Nat := bits w 31 26
def rdOf (w : Nat) : Nat := bits w 25 21
def raOf (w : Nat) : Nat := bits w 20 16
def rbOf (w : Nat) : Nat := bits w 15 11
def fnOf (w : Nat) : Nat := bits w 10 0
/-- imm16 and off16, sign-extended. -/
def immOf (w : Nat) : Int := signed 16 w
/-- imm26, sign-extended. -/
def imm26Of (w : Nat) : Int := signed 26 w

/-- An instruction that the table lists (R214). -/
def listed (w : Nat) : Bool :=
  let op := opOf w
  let fn := fnOf w
  if op = 0 then decide (fn ≤ 0x10)
  else if op = 1 then decide (fn ≤ 7)
  else if op = 0x18 then decide (fn % 16 ≤ 5 && fn ≤ 0x15)
  else if op = 6 then bits w 7 6 != 3
  else if op = 0x3B then w % 65536 ≤ 5
  else (decide (2 ≤ op) && decide (op ≤ 8)) || (decide (0x10 ≤ op) && decide (op ≤ 0x17))
    || (decide (0x20 ≤ op) && decide (op ≤ 0x27)) || (decide (0x30 ≤ op) && decide (op ≤ 0x34))
    || (decide (0x38 ≤ op) && decide (op ≤ 0x3A)) || op == 0x3F

/-- Registers that an instruction reads or writes (R212, R214). -/
def regsOf (w : Nat) : List Nat :=
  let op := opOf w
  let rd := rdOf w
  let ra := raOf w
  let rb := rbOf w
  if (op = 0 && (fnOf w == 0xF || fnOf w == 0x10)) || (op = 1 && fnOf w ≥ 6) then [rd, ra]
  else if op ≤ 1 then [rd, ra, rb]
  else if op = 0x18 then [rd, ra, rb]
  else if op = 7 then [rd]
  else if op ≤ 8 then [rd, ra]
  else if op ≤ 0x17 then [rd, ra]
  else if decide (0x20 ≤ op) && decide (op ≤ 0x25) then [rd, ra]
  else if op = 0x26 then [31]
  else if op = 0x27 then [ra]
  else if op = 0x30 then [rd, rd + 1, ra, rb]
  else if op = 0x33 then [rd, ra, ra + 1, rb]
  else if op = 0x31 || op = 0x32 then [rd, ra, ra + 1]
  else if op = 0x34 then [rd, ra, rb]
  else if op = 0x38 || op = 0x39 then [rd, ra]
  else if op = 0x3B then [rd]
  else []

/-- Memory, set and remote instructions, which take one of the eight places of a context (R209); HKEY reads memory too. -/
def isMemory (w : Nat) : Bool :=
  let op := opOf w
  (decide (0x10 ≤ op) && decide (op ≤ 0x18)) || (decide (0x30 ≤ op) && decide (op ≤ 0x34))

/-! ### Issue (R212) -/

/-- Registers with a pending result: HKEY writes a pair. -/
def Thread.pendingRegs (t : Thread) : List Nat :=
  (t.ops.flatMap (fun o => match o.kind with
    | .hkey _ => [o.rd, o.rd + 1]
    | _ => [o.rd])).filter (fun r => r != 0)

/-- Operations outstanding of an engine. -/
def State.engineOps (s : State) (e : Nat) : Nat :=
  ((s.flock.threads.filter (fun x => x.1 / 4096 == e)).map (fun x => x.2.ops.length)).sum

/-- A context that may issue some instruction: its pipeline belongs to its partition, its job holds the slice, no SWAIT, no
FENCE open (R210, R212, R217, R331). -/
def State.mayIssue (s : State) (e c : Nat) (t : Thread) : Bool :=
  s.pipeOwner e (c / 256) == some t.part && s.jobState t.job == 2 && s.flag (R.FLK_ENG_STATUS.IN_SERVICE e) && t.swait.isNone && (!t.fence || t.ops.isEmpty)

/-- No register of the instruction has a pending result; SSIG acts as a FENCE first (R212, R217). -/
def Thread.resolved (t : Thread) (w : Nat) : Bool :=
  !(regsOf w).any (fun r => r != 0 && t.pendingRegs.contains r) && (opOf w != 0x39 || t.ops.isEmpty)

/-- The limits of R212 on operations outstanding hold the context. -/
def State.memFull (s : State) (e : Nat) (t : Thread) (w : Nat) : Bool :=
  (isMemory w && decide (t.ops.length ≥ 8)) || decide (s.engineOps e ≥ 4096)

/-- The context is ready for the instruction (R212). -/
def State.ready (s : State) (e : Nat) (t : Thread) (w : Nat) : Bool := t.resolved w && !s.memFull e t w

/-- A context that is ready but for memory waits: some cycles count in MEM_STALL, how many no rule says (log entry 43). -/
def State.memStall (s : State) (e : Nat) : State :=
  let (v, s) := s.draw
  s.bumpBy (R.FLK_ENG_CNT_MEM_STALL.N e) (v.toNat % 4294967296)

/-- Count an instruction issued. -/
def State.countInstr (s : State) (e : Nat) : State :=
  s.put64 (R.FLK_ENG_INSTR_LO.N e) (R.FLK_ENG_INSTR_HI.N e)
    (u64 (s.get64 (R.FLK_ENG_INSTR_LO.N e) (R.FLK_ENG_INSTR_HI.N e) + 1))

/-- The word at a module address as it stands, if the address resolves for the thread. -/
def State.peekWord (s : State) (ag : MemAgent) (a : Nat) : Option Nat :=
  (s.resolve ag a).map (fun h => leVal (Memory.read s.mem (s.phys h) 4))

/-- The agent of a thread's accesses. -/
def Thread.agent (t : Thread) (e : Nat) : MemAgent := .thread e t.part

/-- A thread fault, and what its teardown completes. -/
def State.flockFault (s : State) (e c : Nat) (t : Thread) (f : ThreadFault) (pc addr : Nat) : State :=
  (s.threadFault e c t f pc addr).settle

/-- Context `c` of engine `e` issues its next instruction, if that is one that `want` admits: `body` has the thread with
its FENCE closed and its pc moved on, and the word. -/
def State.issue (s : State) (e c : Nat) (want : Nat → Bool) (body : State → Thread → Nat → State) : State :=
  match s.thread e c with
  | none => s
  | some t =>
    if !s.mayIssue e c t then s
    else if t.pc % 4 ≠ 0 then s.flockFault e c t .align t.pc t.pc
    else match s.peekWord (t.agent e) t.pc with
      | none => s.flockFault e c t .range t.pc t.pc
      | some w =>
        if listed w && !want w then s
        else if listed w && !s.ready e t w then (if t.resolved w then s.memStall e else s)
        else match s.load (t.agent e) t.pc 4 with
          | (.ok, _, s) =>
            if !listed w then s.flockFault e c t .badOp t.pc 0
            else
              let t := { t with fence := false, pc := u64 (t.pc + 4) }
              body ((s.countInstr e).setThread e c t) t w
          | (_, _, s) => s.flockFault e c t .parity t.pc t.pc

/-- The pc of the instruction that a body runs. -/
def Thread.here (t : Thread) : Nat := u64 (t.pc + 18446744073709551612)

/-- An instruction that writes a register from the thread's registers. -/
def State.alu (s : State) (e c : Nat) (want : Nat → Bool) (f : Thread → Nat → Nat) : State :=
  s.issue e c want (fun s t w => s.setThread e c (t.setReg (rdOf w) (f t w)))

/-- Operands of the formats R and I. -/
def Thread.a (t : Thread) (w : Nat) : Nat := t.reg (raOf w)
def Thread.b (t : Thread) (w : Nat) : Nat := t.reg (rbOf w)
def Thread.d (t : Thread) (w : Nat) : Nat := t.reg (rdOf w)

/-- An instruction of OP `op` with FN `fn`. -/
def isR (op fn w : Nat) : Bool := opOf w == op && fnOf w == fn

/-- An instruction of OP `op`. -/
def isOp (op w : Nat) : Bool := opOf w == op

/-- An R-format integer instruction: rd := f ra rb. -/
def State.intOp (s : State) (e c fn : Nat) (f : Nat → Nat → Nat) : State :=
  s.alu e c (isR 0 fn) (fun t w => f (t.a w) (t.b w))

/-- An R-format FP32 instruction on bits 31:0. -/
def State.fpOp (s : State) (e c fn : Nat) (f : Fp → Fp → Nat) : State :=
  s.alu e c (isR 1 fn) (fun t w => f (f32 (t.a w % 4294967296)) (f32 (t.b w % 4294967296)))

/-- An I-format instruction: rd := f ra imm16. -/
def State.immOp (s : State) (e c op : Nat) (f : Nat → Int → Nat) : State :=
  s.alu e c (isOp op) (fun t w => f (t.a w) (immOf w))

/-- Shifts: 0 SHL, 1 SHR, 2 SAR. -/
def shift (kind a n : Nat) : Nat :=
  match kind with
  | 0 => u64 (a * 2 ^ n)
  | 1 => a / 2 ^ n
  | _ => toU64 (i64 a / 2 ^ n)

/-- Leading zeros of 64 bits. -/
def clz64 (a : Nat) : Nat := 64 - bitLen a

/-- The lesser or greater FP32 value; NaN if either is NaN. -/
def fpPick (great : Bool) (x y : Fp) : Nat :=
  if x.isNan || y.isNan then 0x7FC00000
  else
    let negZero (v : Fp) : Bool := match v with
      | .fin true 0 _ => true
      | _ => false
    if great then f32Bits (if Fp.lt x y || (Fp.eqv x y && negZero x) then y else x)
    else f32Bits (if Fp.lt y x || (Fp.eqv x y && negZero y) then y else x)

/-! ### Branches -/

/-- A branch on ra and rb of the B format, which lie in the fields of rd and ra. -/
def State.branch (s : State) (e c op : Nat) (cc : Nat → Nat → Bool) : State :=
  s.issue e c (isOp op) (fun s t w =>
    if cc (t.d w) (t.a w) then s.setThread e c { t with pc := toU64 ((t.here : Int) + 4 * immOf w) } else s)

/-! ### Memory operations -/

/-- The module that an operation goes to (R227): none where this module's own copy serves it. -/
def State.setTarget (s : State) (c : List Nat) (op z : Nat) : Option Nat :=
  if !cfgFabric c || s.shardPrimary c z == s.myId || (op == 0 && s.shardReplica c z == s.myId) then none
  else some (s.shardPrimary c z)

/-- A home accepts one more operation of a partition's agents (R319): INFLIGHT of the partition, and the 7,168 that all share. -/
def State.homeRoom (s : State) (d part : Nat) : Bool :=
  decide (s.inFlight d (some part) < s.get (R.CEL_PART_CFG.INFLIGHT part)) && decide (s.inFlight d none < 7168)

/-- The home that an operation goes to: none for another module's memory. -/
def State.opHome (s : State) (e : Nat) (t : Thread) (o : MemOp) : Option Nat := match o.kind with
  | .rget _ => none
  | .setOp op _ key _ =>
    let z := leVal (key.take 1)
    if (s.setTarget o.setCfg op z).isSome then none
    else some (s.homeDie (t.agent e) (bucketAddr o.setCfg (s.shardSlot o.setCfg z) (keyHome o.setCfg (leVal key))))
  | _ => some (s.homeDie (t.agent e) o.addr)

/-- An operation asks its home for room (R319). -/
def State.accepted (s : State) (e : Nat) (t : Thread) (o : MemOp) : MemOp :=
  match s.opHome e t o with
  | none => o
  | some d => if s.homeRoom d t.part then { o with home := some d } else o

/-- Put an operation among those outstanding of a context; one that finds no room at its home waits, and is counted (R319). -/
def State.addOp (s : State) (e c : Nat) (t : Thread) (o : MemOp) : State :=
  let o' := s.accepted e t o
  let s := if (s.opHome e t o).isSome && o'.home.isNone then s.bump R.CEL_CNT_WAIT_INFL.N else s
  s.setThread e c { t with ops := t.ops ++ [o'] }

/-- Operation `i` of a thread waits for room at its home, and finds none. -/
def State.roomless (s : State) (e : Nat) (t : Thread) (o : MemOp) : Bool :=
  o.home.isNone && (s.opHome e t o).isSome && (s.accepted e t o).home.isNone

/-- The address of an M-format instruction. -/
def Thread.ea (t : Thread) (w : Nat) : Nat := toU64 ((t.a w : Int) + immOf w)

/-- The bytes at an address resolve for the thread. -/
def State.inReach (s : State) (e : Nat) (t : Thread) (a n : Nat) : Bool :=
  (s.resolve (t.agent e) a).isSome && (s.resolve (t.agent e) (a + n - 1)).isSome

/-- A load, a store or an atomic: ALIGN, RANGE, then the operation is outstanding (R215). -/
def State.access (s : State) (e c : Nat) (t : Thread) (a n rd : Nat) (k : MemOpKind) : State :=
  if a % n ≠ 0 then s.flockFault e c t .align t.here a
  else if !s.inReach e t a n then s.flockFault e c t .range t.here a
  else s.addOp e c t { kind := k, addr := a, rd := rd, pc := t.here }

/-- A load of `n` bytes. -/
def State.loadOp (s : State) (e c op n : Nat) : State :=
  s.issue e c (isOp op) (fun s t w => s.access e c t (t.ea w) n (rdOf w) (.load n))

/-- A store of the low `n` bytes of rd. -/
def State.storeOp (s : State) (e c op n : Nat) : State :=
  s.issue e c (isOp op) (fun s t w => s.access e c t (t.ea w) n 0 (.store n (t.d w % 256 ^ n)))

/-- An atomic of function `fn` (R219): FN[4] gives the width; AADDF needs the ND mark. -/
def State.atomicOp (s : State) (e c fn : Nat) : State :=
  s.issue e c (fun w => opOf w == 0x18 && fnOf w % 16 == fn) (fun s t w =>
    let wide := bit (fnOf w) 4
    if fn = 1 && !t.nd then s.flockFault e c t .badNd t.here 0
    else s.access e c t (t.a w) (if wide then 8 else 4) (rdOf w) (.atomic fn wide (t.b w) (t.d w)))

/-- What an atomic writes, from the old value (R219). -/
def atomicNew (fn : Nat) (wide : Bool) (old operand expect : Nat) : Nat :=
  let w := if wide then 64 else 32
  let m := 2 ^ w
  match fn with
  | 0 => (old + operand) % m
  | 1 => f32Bits ((f32 (old % 4294967296)).add (f32 (operand % 4294967296)))
  | 2 => if signed w operand < signed w old then operand % m else old
  | 3 => if signed w old < signed w operand then operand % m else old
  | 4 => operand % m
  | _ => if old = expect % m then operand % m else old


/-- Bytes of this module's memory that an operation touches: address and number; of a set operation those of its shard's
copy. -/
def State.opRange (s : State) (o : MemOp) : Nat × Nat := match o.kind with
  | .load n => (o.addr, n)
  | .store n _ => (o.addr, n)
  | .atomic _ wide _ _ => (o.addr, if wide then 8 else 4)
  | .hkey n => (o.addr, n)
  | .rget m => (o.addr, if m = s.myId then 8 else 0)
  | .setOp op _ key _ =>
    let z := leVal (key.take 1)
    if (s.setTarget o.setCfg op z).isSome then (0, 0)
    else (bucketAddr o.setCfg (s.shardSlot o.setCfg z) 0, 64 * cfgBuckets o.setCfg)

/-- Operation `o` has to wait for the earlier operation `p` of its thread (R217): both on one set, or with a byte in common. -/
def State.opAfter (s : State) (o p : MemOp) : Bool :=
  (match o.kind, p.kind with
   | .setOp _ x _ _, .setOp _ y _ _ => x == y
   | _, _ => false)
  || (let (a, n) := s.opRange o
      let (b, m) := s.opRange p
      decide (n > 0) && decide (m > 0) && decide (a < b + m) && decide (b < a + n))

/-- The registers that HKEY writes, from the salt and the bytes (R222). -/
def Thread.setKey (t : Thread) (rd : Nat) (cfg : List Nat) (bs : List Byte) : Thread :=
  let h := sha256 (leBytes 8 (cfgSalt cfg) ++ bs)
  (t.setReg rd (leVal (h.take 8))).setReg (rd + 1) (leVal ((h.drop 8).take 3))

/-- Perform a load, store, atomic or held HKEY of a thread at its home, and complete it (R217-R219). -/
def State.performMem (s : State) (e c : Nat) (t : Thread) (i : Nat) (o : MemOp) : State :=
  let ag := t.agent e
  let bad (s : State) (r : MemRes) : State :=
    s.flockFault e c t (if r = .range then .range else .parity) o.pc o.addr
  match o.kind with
  | .load n => match s.load ag o.addr n with
    | (.ok, bs, s) => s.finishOp e c t i (leVal bs)
    | (r, _, s) => bad s r
  | .store n v => match s.store ag o.addr (leBytes n v) with
    | (.ok, s) => s.finishOp e c t i 0
    | (r, s) => bad s r
  | .atomic fn wide x y =>
    let n := if wide then 8 else 4
    match s.load ag o.addr n with
    | (.ok, bs, s) =>
      let old := leVal bs
      (s.storeBack ag o.addr (leBytes n (atomicNew fn wide old x y))).finishOp e c t i old
    | (r, _, s) => bad s r
  | .hkey n => match s.load ag o.addr n with
    | (.ok, bs, s) => s.setThread e c { t.setKey o.rd o.setCfg bs with ops := t.ops.eraseIdx i }
    | (r, _, s) => bad s r
  | _ => s

/-- Perform a set operation on this module's copy, and complete it or wait for the replica (R224, R227). -/
def State.performSet (s : State) (e c : Nat) (t : Thread) (i : Nat) (o : MemOp) (op set key node : Nat) : State :=
  let z := key % 256
  if s.setDoubt set o.setCfg z then s.failSet e c t i 4
  else
    match s.setApply (t.agent e) o.setCfg (s.shardSlot o.setCfg z) op key node with
    | (d, s) => match d.failed with
      | some (r, a) => s.flockFault e c t (if r = .range then .range else .parity) o.pc a
      | none =>
        let tag := s.gts.nextTag
        match s.replicate set t.part key s.myId 0 o.setCfg (some (e * 4096 + c, tag)) d with
        | (true, s) => s.setThread e c { t with ops := setNth t.ops i { o with remote := some tag, sentAt := s.dtime } }
        | (false, s) => s.finishSet e c t i d.value

/-- The window that admits an access (R441): the enabled window that holds the bytes, admits the partition, and for a
write has WRITE set. -/
def State.windowFor (s : State) (a n part : Nat) (write : Bool) : Bool :=
  (List.range 8).any (fun r =>
    let base := s.get64 (R.GTS_RW_BASE_LO.N r) (R.GTS_RW_BASE_HI.N r)
    let ctl := (s.reg (R.GTS_RW_CTL r)).toNat
    bit ctl 25 && bit ctl (16 + part) && (!write || bit ctl 24) && decide (base ≤ a)
      && decide (a + n ≤ base + ctl % 65536 * 65536))

/-- Read 8 bytes for an RGET through this module's windows (R229, R441). -/
def State.windowRead (s : State) (a part : Nat) : Option Nat × State :=
  if a % 8 ≠ 0 || !s.windowFor a 8 part false then (none, s)
  else match s.load .fabric a 8 with
    | (.ok, bs, s) => (some (leVal bs), s)
    | (_, _, s) => (none, s)

/-- Send the request of operation `i` of a thread to another module; without a route, or units of the partition toward its
next hop, it ends at once (R433, R434). -/
def State.request (s : State) (e c : Nat) (t : Thread) (i : Nat) (o : MemOp) (dst type : Nat) (payload : List Byte)
    (fail : State → Thread → Nat → State) : State :=
  if !s.inFabric || !s.lookupRoute t.part dst then fail (s.setThread e c t) t i
  else
    let (tag, s) := s.newTag
    (s.setThread e c { t with ops := setNth t.ops i { o with remote := some tag, sentAt := s.dtime } }).sendLookup type t.part dst
      tag payload

/-- Send a set operation to the primary of its shard (R227, R440). -/
def State.requestSet (s : State) (e c : Nat) (t : Thread) (i : Nat) (o : MemOp) (op set key node dst : Nat) : State :=
  if !s.flag R.GTS_STATUS.QUORUM then (s.setThread e c t).failSet e c t i 4
  else s.request e c t i o dst 0x20 (setReqBytes op set key node) (fun s t i => s.failSet e c t i 5)

/-- A set operation that no earlier one holds: on this module's copy, or sent to the primary, as the shard map names it. -/
def State.runSet (s : State) (e c : Nat) (t : Thread) (i : Nat) (o : MemOp) (op set key node : Nat) : State :=
  match s.readMap (.mapRead e t.part) o.setCfg (key % 256) with
  | (.ok, s) => (match s.setTarget o.setCfg op (key % 256) with
    | none => s.performSet e c t i o op set key node
    | some dst => s.requestSet e c t i o op set key node dst)
  | (r, s) => s.flockFault e c t (if r = .range then .range else .parity) o.pc (cfgMap o.setCfg + 4 * (key % 256))

/-- Operation `k` of a thread at this module runs (R217). -/
def State.runOp (s : State) (e c : Nat) (t : Thread) (k : Nat) (o : MemOp) : State :=
  match o.kind with
  | .setOp op set key node => s.runSet e c t k o op set (leVal key) node
  | .rget _ => (match s.windowRead o.addr t.part with
    | (some v, s) => s.finishOp e c t k v
    | (none, s) => s.failGet e c t k)
  | _ => s.performMem e c t k o

/-- Operation `k` of a thread may not run: it waits for another module, behind an earlier one (R217), or for room (R319). -/
def State.opHeld (s : State) (e : Nat) (t : Thread) (k : Nat) (o : MemOp) : Bool :=
  o.remote.isSome || (t.ops.take k).any (fun p => s.opAfter o p) || s.roomless e t o

/-- FLOCK_MEM_COMPLETE (R217): operation `k` of a context completes, unless the order of R217 holds it behind an earlier
one, or it waits for another module. -/
def execFlockMemComplete (e : Fin 2) (c : Fin 4096) (k : Fin 8) (s : State) : Host.Outcome State Fault Refusal :=
  .next (match s.thread e.val c.val with
    | none => s
    | some t => match t.ops[k.val]? with
      | none => s
      | some o =>
        if s.opHeld e.val t k.val o then s else s.runOp e.val c.val t k.val o)

/-! ### Set operations and RGET -/

/-- The 88-bit key in a register pair (R222). -/
def Thread.key (t : Thread) (r : Nat) : Nat := t.reg r + t.reg ((r + 1) % 32) % 16777216 * 18446744073709551616

/-- HLOOK, HSEEN, HINS (R224): op 0, 1, 2. An operation of the thread on the same set that has not completed delays its
effect (R217). -/
def State.hashOp (s : State) (e c opcode op : Nat) : State :=
  s.issue e c (isOp opcode) (fun s t w =>
    let k := fnOf w % 16
    let cfg := s.setCfg k
    if !cfgEnabled cfg then s.flockFault e c t .badSet t.here 0
    else
      let key := t.key (raOf w)
      let node := if op = 2 then t.b w % 4294967296 else 0
      let o : MemOp := { kind := .setOp op k (keyBytes key) node, addr := 0, rd := rdOf w, pc := t.here, setCfg := cfg }
      if (s.setTarget cfg op (key % 256)).isNone || t.ops.any (fun p => s.opAfter o p) then s.addOp e c t o
      else s.runSet e c { t with ops := t.ops ++ [o] } t.ops.length o op k key node)

/-- REMOTE_TIMEOUT (R228, R229): operation `k` of a context has had no answer for FLK_RTIMEOUT. A request that no link has carried
yet is not sent any more. -/
def execRemoteTimeout (e : Fin 2) (c : Fin 4096) (k : Fin 8) (s : State) : Host.Outcome State Fault Refusal :=
  .next (match s.thread e.val c.val with
    | none => s
    | some t => match t.ops[k.val]? with
      | none => s
      | some o => match o.remote with
        | none => s
        | some tag =>
          if s.dtime < o.sentAt + s.get R.FLK_RTIMEOUT.US * 1000 then s
          else
            let mine (q : GPacket) : Bool := q.tag == tag && q.src == s.myId && q.vc == 2 && (q.type == 0x20 || q.type == 0x24)
            let unsent := s.gts.ports.any (fun p => p.out.any mine) || s.gts.unsent.contains tag
            let s := { s with gts := { s.gts with ports := s.gts.ports.map (fun (p : PortSt) => { p with out := p.out.filter (fun q => !mine q) }) } }
            match o.kind with
            | .rget _ => s.failGet e.val c.val t k.val
            | _ => s.failSet e.val c.val t k.val (if unsent then 5 else 4))

/-- HKEY (R222). -/
def execHkey (e : Fin 2) (c : Fin 4096) (s : State) : Host.Outcome State Fault Refusal :=
  .next (s.issue e.val c.val (isOp 0x30) (fun s t w =>
    let rd := rdOf w
    let n := t.b w
    let cfg := s.setCfg (fnOf w % 16)
    if rd % 2 = 1 || rd = 0 || t.b w > 64 then s.flockFault e.val c.val t .badOp t.here 0
    else if !cfgEnabled cfg then s.flockFault e.val c.val t .badSet t.here 0
    else if n = 0 then s.setThread e.val c.val (t.setKey rd cfg [])
    else if !s.inReach e.val t (t.a w) n then s.flockFault e.val c.val t .range t.here (t.a w)
    else
      let o : MemOp := { kind := .hkey n, addr := t.a w, rd := rd, pc := t.here, setCfg := cfg }
      if t.ops.any (fun p => s.opAfter o p) || s.roomless e.val t o then s.addOp e.val c.val t o
      else match s.load (t.agent e.val) (t.a w) n with
        | (.ok, bs, s) => s.setThread e.val c.val (t.setKey rd cfg bs)
        | (.range, _, s) => s.flockFault e.val c.val t .range t.here (t.a w)
        | (.parity, _, s) => s.flockFault e.val c.val t .parity t.here (t.a w)))

/-- HLOOK (R224). -/
def execHlook (e : Fin 2) (c : Fin 4096) (s : State) : Host.Outcome State Fault Refusal := .next (s.hashOp e.val c.val 0x31 0)

/-- HSEEN (R224). -/
def execHseen (e : Fin 2) (c : Fin 4096) (s : State) : Host.Outcome State Fault Refusal := .next (s.hashOp e.val c.val 0x32 1)

/-- HINS (R224). -/
def execHins (e : Fin 2) (c : Fin 4096) (s : State) : Host.Outcome State Fault Refusal := .next (s.hashOp e.val c.val 0x33 2)

/-- RGET (R229): 8 bytes at address rb on module ra[5:0]. -/
def execRget (e : Fin 2) (c : Fin 4096) (s : State) : Host.Outcome State Fault Refusal :=
  .next (s.issue e.val c.val (isOp 0x34) (fun s t w =>
    let dst := t.a w % 64
    let a := t.b w
    if a % 8 ≠ 0 then s.flockFault e.val c.val t .align t.here a
    else
      let o : MemOp := { kind := .rget dst, addr := a, rd := rdOf w, pc := t.here }
      if dst = s.myId then s.addOp e.val c.val t o
      else s.request e.val c.val { t with ops := t.ops ++ [o] } t.ops.length o dst 0x24 (leBytes 8 a)
        (fun s t i => s.failGet e.val c.val t i)))

/-! ### Sync, FENCE, RDT, EXIT -/

/-- A thread may use sync object `o` (R333, R340). -/
def State.threadMay (s : State) (t : Thread) (o : Nat) : Bool :=
  decide (o < 16384) && ((s.so o).cfg.type == 0 || (s.so o).allowed t.part)

/-- The context issues an instruction of OP `op` now. -/
def State.issues (s : State) (e c op : Nat) : Bool :=
  match s.thread e c with
  | none => false
  | some t => s.mayIssue e c t && t.pc % 4 == 0 && (match s.peekWord (t.agent e) t.pc with
    | some w => isOp op w && s.ready e t w
    | none => false)

/-- Expiries take effect before the operation of an instruction of OP `op` (R339). -/
def State.expireFor (s : State) (e c op : Nat) : State := if s.issues e c op then s.expireDue else s

/-- SWAIT (R214, R217, R333): the thread waits; its status comes in rd, and it acts as a FENCE after that. -/
def execSwait (e : Fin 2) (c : Fin 4096) (s : State) : Host.Outcome State Fault Refusal :=
  .next ((s.expireFor e.val c.val 0x38).issue e.val c.val (isOp 0x38) (fun s t w =>
    let o := t.ea w
    if !s.threadMay t o then s.flockFault e.val c.val t .badSo t.here 0
    else ((s.setThread e.val c.val { t with swait := some (rdOf w) }).arriveWait (.thread e.val c.val) o (t.d w)).settle))

/-- SSIG (R214, R217, R333). -/
def execSsig (e : Fin 2) (c : Fin 4096) (s : State) : Host.Outcome State Fault Refusal :=
  .next ((s.expireFor e.val c.val 0x39).issue e.val c.val (isOp 0x39) (fun s t w =>
    let o := t.ea w
    if !s.threadMay t o then s.flockFault e.val c.val t .badSo t.here 0
    else (s.signal (.thread e.val c.val) o (t.d w)).settle))

/-- FENCE (R217): the next instruction waits for every earlier memory instruction. -/
def execFence (e : Fin 2) (c : Fin 4096) (s : State) : Host.Outcome State Fault Refusal :=
  .next (s.issue e.val c.val (isOp 0x3A) (fun s t _ => s.setThread e.val c.val { t with fence := true }))

/-- RDT (R214). -/
def execRdt (e : Fin 2) (c : Fin 4096) (s : State) : Host.Outcome State Fault Refusal :=
  .next (s.issue e.val c.val (isOp 0x3B) (fun s t w =>
    let v := match w % 65536 with
      | 0 => s.dtime
      | 1 => s.pos.wpos
      | 2 => c.val
      | 3 => e.val
      | 4 => s.myId
      | _ => if t.rfail then 1 else 0
    let t := if w % 65536 = 5 then { t with rfail := false } else t
    s.setThread e.val c.val (t.setReg (rdOf w) v)))

/-- Complete the outstanding operations of an ending thread that nothing holds, in program order (log entry 30). -/
def State.drainOps (s : State) (e c : Nat) : Nat → State
  | 0 => s
  | f + 1 => match s.thread e c with
    | none => s
    | some t =>
      match (List.range t.ops.length).find? (fun i => match t.ops[i]? with
          | some o => !s.opHeld e t i o
          | none => false) with
      | none => s
      | some i => match t.ops[i]? with
        | none => s
        | some o => (s.runOp e c t i o).drainOps e c f

/-- EXIT (R211): the thread ends, and its context is free; its launch counts it. It waits for an operation here that is held behind
one at another module, or for room; those at other modules are left (log entry 30). -/
def execExit (e : Fin 2) (c : Fin 4096) (s : State) : Host.Outcome State Fault Refusal :=
  let s := if s.issues e.val c.val 0x3F then s.drainOps e.val c.val 8 else s
  .next (if (s.thread e.val c.val).any (fun t => t.ops.any (fun o => o.remote.isNone)) && s.issues e.val c.val 0x3F then s
    else s.issue e.val c.val (isOp 0x3F) (fun s t _ => ((s.freeThread e.val c.val).threadEnded t.launch).settle))

/-- RELEASE empties the held fault of an engine. -/
def State.faultRelease (s : State) (n : Nat) : State :=
  s.dropAll [R.FLK_ENG_STATUS.FAULT_HELD n, R.FLK_ENG_FAULT.CODE n, R.FLK_ENG_FAULT.CONTEXT n, R.FLK_ENG_FAULT_PC.PC n,
    R.FLK_ENG_FAULT_PC_HI.N n, R.FLK_ENG_FAULT_ADDR_LO.N n, R.FLK_ENG_FAULT_ADDR_HI.N n]

/-- FAULT_RELEASE (R232). -/
def execFaultRelease (e : Fin 2) (s : State) : Host.Outcome State Fault Refusal :=
  .next (s.written (R.FLK_ENG_FAULT e.val) (fun s => s.faultRelease e.val))

/-! ### The rows of R214 that write one register, branch, load, store -/

/-- ADD (R214). -/
def execAdd (e : Fin 2) (c : Fin 4096) (s : State) : Host.Outcome State Fault Refusal :=
  .next (s.intOp e.val c.val 0x000 (fun a b => a + b))

/-- SUB (R214). -/
def execSub (e : Fin 2) (c : Fin 4096) (s : State) : Host.Outcome State Fault Refusal :=
  .next (s.intOp e.val c.val 0x001 (fun a b => a + (18446744073709551616 - b)))

/-- AND (R214). -/
def execAnd (e : Fin 2) (c : Fin 4096) (s : State) : Host.Outcome State Fault Refusal :=
  .next (s.intOp e.val c.val 0x002 Nat.land)

/-- OR (R214). -/
def execOr (e : Fin 2) (c : Fin 4096) (s : State) : Host.Outcome State Fault Refusal :=
  .next (s.intOp e.val c.val 0x003 Nat.lor)

/-- XOR (R214). -/
def execXor (e : Fin 2) (c : Fin 4096) (s : State) : Host.Outcome State Fault Refusal :=
  .next (s.intOp e.val c.val 0x004 Nat.xor)

/-- SHL (R214). -/
def execShl (e : Fin 2) (c : Fin 4096) (s : State) : Host.Outcome State Fault Refusal :=
  .next (s.intOp e.val c.val 0x005 (fun a b => shift 0 a (b % 64)))

/-- SHR (R214). -/
def execShr (e : Fin 2) (c : Fin 4096) (s : State) : Host.Outcome State Fault Refusal :=
  .next (s.intOp e.val c.val 0x006 (fun a b => shift 1 a (b % 64)))

/-- SAR (R214). -/
def execSar (e : Fin 2) (c : Fin 4096) (s : State) : Host.Outcome State Fault Refusal :=
  .next (s.intOp e.val c.val 0x007 (fun a b => shift 2 a (b % 64)))

/-- SLT (R214). -/
def execSlt (e : Fin 2) (c : Fin 4096) (s : State) : Host.Outcome State Fault Refusal :=
  .next (s.intOp e.val c.val 0x008 (fun a b => if i64 a < i64 b then 1 else 0))

/-- SLTU (R214). -/
def execSltu (e : Fin 2) (c : Fin 4096) (s : State) : Host.Outcome State Fault Refusal :=
  .next (s.intOp e.val c.val 0x009 (fun a b => if a < b then 1 else 0))

/-- MIN (R214). -/
def execMin (e : Fin 2) (c : Fin 4096) (s : State) : Host.Outcome State Fault Refusal :=
  .next (s.intOp e.val c.val 0x00A (fun a b => if i64 b < i64 a then b else a))

/-- MAX (R214). -/
def execMax (e : Fin 2) (c : Fin 4096) (s : State) : Host.Outcome State Fault Refusal :=
  .next (s.intOp e.val c.val 0x00B (fun a b => if i64 a < i64 b then b else a))

/-- CLZ (R214). -/
def execClz (e : Fin 2) (c : Fin 4096) (s : State) : Host.Outcome State Fault Refusal :=
  .next (s.intOp e.val c.val 0x00F (fun a _ => clz64 a))

/-- POPC (R214). -/
def execPopc (e : Fin 2) (c : Fin 4096) (s : State) : Host.Outcome State Fault Refusal :=
  .next (s.intOp e.val c.val 0x010 (fun a _ => popCount 64 a))

/-- MUL (R214). -/
def execMul (e : Fin 2) (c : Fin 4096) (s : State) : Host.Outcome State Fault Refusal :=
  .next (s.intOp e.val c.val 0x00C (fun a b => a * b))

/-- MULHU (R214). -/
def execMulhu (e : Fin 2) (c : Fin 4096) (s : State) : Host.Outcome State Fault Refusal :=
  .next (s.intOp e.val c.val 0x00D (fun a b => a * b / 18446744073709551616))

/-- DIVU (R214). -/
def execDivu (e : Fin 2) (c : Fin 4096) (s : State) : Host.Outcome State Fault Refusal :=
  .next (s.intOp e.val c.val 0x00E (fun a b => if b = 0 then 18446744073709551615 else a / b))

/-- FADD (R214). -/
def execFadd (e : Fin 2) (c : Fin 4096) (s : State) : Host.Outcome State Fault Refusal :=
  .next (s.fpOp e.val c.val 0 (fun a b => f32Bits (a.add b)))

/-- FSUB (R214). -/
def execFsub (e : Fin 2) (c : Fin 4096) (s : State) : Host.Outcome State Fault Refusal :=
  .next (s.fpOp e.val c.val 1 (fun a b => f32Bits (a.add b.neg)))

/-- FMUL (R214). -/
def execFmul (e : Fin 2) (c : Fin 4096) (s : State) : Host.Outcome State Fault Refusal :=
  .next (s.fpOp e.val c.val 2 (fun a b => f32Bits (a.mul b)))

/-- FMIN (R214). -/
def execFmin (e : Fin 2) (c : Fin 4096) (s : State) : Host.Outcome State Fault Refusal :=
  .next (s.fpOp e.val c.val 3 (fpPick false))

/-- FMAX (R214). -/
def execFmax (e : Fin 2) (c : Fin 4096) (s : State) : Host.Outcome State Fault Refusal :=
  .next (s.fpOp e.val c.val 4 (fpPick true))

/-- FLT (R214). -/
def execFlt (e : Fin 2) (c : Fin 4096) (s : State) : Host.Outcome State Fault Refusal :=
  .next (s.fpOp e.val c.val 5 (fun a b => if Fp.lt a b then 1 else 0))

/-- FCVTI (R214). -/
def execFcvti (e : Fin 2) (c : Fin 4096) (s : State) : Host.Outcome State Fault Refusal :=
  .next (s.fpOp e.val c.val 6 (fun a _ => toU64 (a.toIntSat (-9223372036854775808) 9223372036854775807)))

/-- FCVTF (R214). -/
def execFcvtf (e : Fin 2) (c : Fin 4096) (s : State) : Host.Outcome State Fault Refusal :=
  .next (s.alu e.val c.val (isR 1 7) (fun t w => f32Bits (Fp.ofInt (i64 (t.a w)))))

/-- ADDI (R214). -/
def execAddi (e : Fin 2) (c : Fin 4096) (s : State) : Host.Outcome State Fault Refusal :=
  .next (s.immOp e.val c.val 0x02 (fun a i => toU64 (a + i)))

/-- ANDI (R214). -/
def execAndi (e : Fin 2) (c : Fin 4096) (s : State) : Host.Outcome State Fault Refusal :=
  .next (s.immOp e.val c.val 0x03 (fun a i => Nat.land a (toU64 i)))

/-- ORI (R214). -/
def execOri (e : Fin 2) (c : Fin 4096) (s : State) : Host.Outcome State Fault Refusal :=
  .next (s.immOp e.val c.val 0x04 (fun a i => Nat.lor a (toU64 i)))

/-- XORI (R214). -/
def execXori (e : Fin 2) (c : Fin 4096) (s : State) : Host.Outcome State Fault Refusal :=
  .next (s.immOp e.val c.val 0x05 (fun a i => Nat.xor a (toU64 i)))

/-- SHI (R214). -/
def execShi (e : Fin 2) (c : Fin 4096) (s : State) : Host.Outcome State Fault Refusal :=
  .next (s.alu e.val c.val (isOp 0x06) (fun t w => shift (bits w 7 6) (t.a w) (bits w 5 0)))

/-- LUI (R214). -/
def execLui (e : Fin 2) (c : Fin 4096) (s : State) : Host.Outcome State Fault Refusal :=
  .next (s.immOp e.val c.val 0x07 (fun _ i => toU64 (i * 65536)))

/-- SLTI (R214). -/
def execSlti (e : Fin 2) (c : Fin 4096) (s : State) : Host.Outcome State Fault Refusal :=
  .next (s.immOp e.val c.val 0x08 (fun a i => if i64 a < i then 1 else 0))

/-- LD8 (R215). -/
def execLd8 (e : Fin 2) (c : Fin 4096) (s : State) : Host.Outcome State Fault Refusal :=
  .next (s.loadOp e.val c.val 0x10 1)

/-- LD16 (R215). -/
def execLd16 (e : Fin 2) (c : Fin 4096) (s : State) : Host.Outcome State Fault Refusal :=
  .next (s.loadOp e.val c.val 0x11 2)

/-- LD32 (R215). -/
def execLd32 (e : Fin 2) (c : Fin 4096) (s : State) : Host.Outcome State Fault Refusal :=
  .next (s.loadOp e.val c.val 0x12 4)

/-- LD64 (R215). -/
def execLd64 (e : Fin 2) (c : Fin 4096) (s : State) : Host.Outcome State Fault Refusal :=
  .next (s.loadOp e.val c.val 0x13 8)

/-- ST8 (R215). -/
def execSt8 (e : Fin 2) (c : Fin 4096) (s : State) : Host.Outcome State Fault Refusal :=
  .next (s.storeOp e.val c.val 0x14 1)

/-- ST16 (R215). -/
def execSt16 (e : Fin 2) (c : Fin 4096) (s : State) : Host.Outcome State Fault Refusal :=
  .next (s.storeOp e.val c.val 0x15 2)

/-- ST32 (R215). -/
def execSt32 (e : Fin 2) (c : Fin 4096) (s : State) : Host.Outcome State Fault Refusal :=
  .next (s.storeOp e.val c.val 0x16 4)

/-- ST64 (R215). -/
def execSt64 (e : Fin 2) (c : Fin 4096) (s : State) : Host.Outcome State Fault Refusal :=
  .next (s.storeOp e.val c.val 0x17 8)

/-- AADD (R219). -/
def execAadd (e : Fin 2) (c : Fin 4096) (s : State) : Host.Outcome State Fault Refusal :=
  .next (s.atomicOp e.val c.val 0)

/-- AADDF (R219). -/
def execAaddf (e : Fin 2) (c : Fin 4096) (s : State) : Host.Outcome State Fault Refusal :=
  .next (s.atomicOp e.val c.val 1)

/-- AMIN (R219). -/
def execAmin (e : Fin 2) (c : Fin 4096) (s : State) : Host.Outcome State Fault Refusal :=
  .next (s.atomicOp e.val c.val 2)

/-- AMAX (R219). -/
def execAmax (e : Fin 2) (c : Fin 4096) (s : State) : Host.Outcome State Fault Refusal :=
  .next (s.atomicOp e.val c.val 3)

/-- AXCHG (R219). -/
def execAxchg (e : Fin 2) (c : Fin 4096) (s : State) : Host.Outcome State Fault Refusal :=
  .next (s.atomicOp e.val c.val 4)

/-- ACAS (R219). -/
def execAcas (e : Fin 2) (c : Fin 4096) (s : State) : Host.Outcome State Fault Refusal :=
  .next (s.atomicOp e.val c.val 5)

/-- BEQ (R214). -/
def execBeq (e : Fin 2) (c : Fin 4096) (s : State) : Host.Outcome State Fault Refusal :=
  .next (s.branch e.val c.val 0x20 (fun a b => a == b))

/-- BNE (R214). -/
def execBne (e : Fin 2) (c : Fin 4096) (s : State) : Host.Outcome State Fault Refusal :=
  .next (s.branch e.val c.val 0x21 (fun a b => a != b))

/-- BLT (R214). -/
def execBlt (e : Fin 2) (c : Fin 4096) (s : State) : Host.Outcome State Fault Refusal :=
  .next (s.branch e.val c.val 0x22 (fun a b => decide (i64 a < i64 b)))

/-- BGE (R214). -/
def execBge (e : Fin 2) (c : Fin 4096) (s : State) : Host.Outcome State Fault Refusal :=
  .next (s.branch e.val c.val 0x23 (fun a b => decide (i64 a ≥ i64 b)))

/-- BLTU (R214). -/
def execBltu (e : Fin 2) (c : Fin 4096) (s : State) : Host.Outcome State Fault Refusal :=
  .next (s.branch e.val c.val 0x24 (fun a b => decide (a < b)))

/-- BGEU (R214). -/
def execBgeu (e : Fin 2) (c : Fin 4096) (s : State) : Host.Outcome State Fault Refusal :=
  .next (s.branch e.val c.val 0x25 (fun a b => decide (a ≥ b)))

/-- JAL (R214). -/
def execJal (e : Fin 2) (c : Fin 4096) (s : State) : Host.Outcome State Fault Refusal :=
  .next (s.issue e.val c.val (isOp 0x26) (fun s t w =>
    s.setThread e.val c.val { t.setReg 31 t.pc with pc := toU64 ((t.here : Int) + 4 * imm26Of w) }))

/-- JR (R214). -/
def execJr (e : Fin 2) (c : Fin 4096) (s : State) : Host.Outcome State Fault Refusal :=
  .next (s.issue e.val c.val (isOp 0x27) (fun s t w => s.setThread e.val c.val { t with pc := t.a w }))

end Sys2Proof.Machine
end

