-- ==== Sys2Proof/Machine/Gatis.lean ====
section
/-! DEFINITION. Machine/Gatis.lean: what arrives from other modules of the fabric and what the module does in time for
it: HELLO, link-state, promotion, the time exchange, set traffic, remote windows, halo strips, and the link's own
acknowledgements (spec/20_gatis_fabric.md, R426-R443). Log entry 31 gives the layouts and readings that the rules leave
open. -/

namespace Sys2Proof.Machine

/-! ### HELLO (R428) -/

/-- HELLO_SEND (R428): a port in HELLO sends a HELLO every 100 µs. -/
def execHelloSend (port : Fin 8) (s : State) : Host.Outcome State Fault Refusal :=
  let p := port.val
  .next (if s.portState p = 2 && (match (s.gport p).helloAt with
      | none => true
      | some t => decide (s.dtime ≥ t + 100000)) then s.sendHello p
  else s)

/-- Why a HELLO is refused (R428): the first reason that holds, or 0. -/
def State.helloReason (s : State) (id serial members : Nat) : Nat :=
  if id = s.myId && serial ≠ s.module.serial then 1
  else if !s.members.contains id then 2
  else if members ≠ s.get64 R.GTS_MEMBERS_LO.N R.GTS_MEMBERS_HI.N then 3
  else if id = s.myId then 4
  else 0

/-- The units that a HELLO advertises, by VC * 8 + partition (R432). -/
def helloUnits (us : List (BitVec 9 × BitVec 11)) : List (Nat × Nat) :=
  let get (k : Nat) : BitVec 9 × BitVec 11 := us.getD k (0, 0)
  (List.range 8).map (fun k => (16 + k, (get k).1.toNat)) ++ (List.range 8).map (fun k => (24 + k, (get k).2.toNat))

/-- The fabric forms for this module with its first accepted HELLO (R436): the time master is the founder that the peer
names, else the lower of the two IDs. -/
def State.form (s : State) (id : Nat) (founder : Option (Fin 64)) : State :=
  if s.gts.formed then s
  else
    let m := match founder with
      | some f => f.val
      | none => Nat.min s.myId id
    let s := { s with gts := { s.gts with formed := true } }.put R.GTS_STATUS.TIME_MASTER m
    if m = s.myId then s.raise R.GTS_TIME_STATUS.SYNCED else s

/-- The link-state of module `m` as a packet. -/
def State.linkStateOf (s : State) (m : Nat) : GPacket :=
  { type := 2, vc := 0, src := m, bcast := true
    payload := (s.linksOf m).flatMap (fun l => leBytes 1 l.1 ++ leBytes 1 l.2.1 ++ leBytes 1 l.2.2) }

/-- HELLO (R428): the peer's HELLO on a port in HELLO, which has sent its own, is accepted, and the port is UP; or refused, and it
is ISOLATED. -/
def execHello (port : Fin 8) (id : Fin 64) (peerPort : Fin 8) (serial members : BitVec 64)
    (units : List (BitVec 9 × BitVec 11)) (founder : Option (Fin 64)) (s : State) : Host.Outcome State Fault Refusal :=
  let p := port.val
  .next (if s.portState p ≠ 2 || (s.gport p).helloAt.isNone then s
  else
    let why := s.helloReason id.val serial.toNat members.toNat
    if why ≠ 0 then (s.put (R.GTS_G_STATUS.STATE p) 4).put (R.GTS_G_STATUS.REASON p) why
    else
      let q := helloUnits units
      let s := ((s.put (R.GTS_G_STATUS.STATE p) 3).put (R.GTS_G_STATUS.PEER_ID p) id.val).put (R.GTS_G_STATUS.PEER_PORT p)
        peerPort.val
      let s := (s.drop (R.GTS_G_STATUS.REASON p)).setGport p { s.gport p with creds := q, quota := q }
      let s := (s.form id.val founder).portsChanged
      (s.gts.links.map (·.1)).foldl (fun (s : State) m => s.sendOn p (s.linkStateOf m)) s)

/-! ### Link-state (R434) -/

/-- LINKSTATE (R434): the UP ports of a module and their peers; news is flooded on, and the routes follow. -/
def execLinkstate (h : Packet) (links : List (Fin 8 × Fin 64 × Fin 8)) (s : State) : Host.Outcome State Fault Refusal :=
  .next (match s.accept h 0 (3 * links.length) with
    | (false, s) => s
    | (true, s) =>
      let m := h.src.val
      let new := links.map (fun l => (l.1.val, l.2.1.val, l.2.2.val))
      if m = s.myId || keyGet s.gts.links m == some new then s
      else
        let s := { s with gts := { s.gts with links := keyPut s.gts.links m new } }
        let s := s.relink
        ((s.upPorts.filter (fun l => l.1 != h.port.val)).map (·.1)).foldl (fun (s : State) p => s.sendOn p (s.linkStateOf m)) s)

/-! ### Promotion (R439) -/

/-- A word of the shard map. -/
def mapWord (slot primary replica : Nat) : Nat := slot + primary * 256 + replica * 65536

/-- The threads' operations on shard `z` of set `k`, as they stand, end in DOUBT (R228); at most `n` of them. -/
def State.doubtOps (s : State) (k z : Nat) : Nat → State
  | 0 => s
  | n + 1 =>
    let on (o : MemOp) : Bool := match o.kind with
      | .setOp _ y key _ => y == k && leVal (key.take 1) == z
      | _ => false
    match s.flock.threads.find? (fun t => t.2.ops.any on) with
    | none => s
    | some t => (s.failSet (t.1 / 4096) (t.1 % 4096) t.2 (t.2.ops.findIdx on) 4).doubtOps k z n

/-- Rewrite shard-map entries: set, shard and word; operations in flight on a shard whose primary changes, or whose old
entry cannot be read (R314), end in DOUBT (R228). -/
def State.rewriteMap (s : State) (xs : List (Nat × Nat × Nat)) : State :=
  xs.foldl (fun (s : State) x =>
    let (k, z, w) := x
    let c := s.setCfg k
    if !cfgEnabled c || !cfgFabric c then s
    else
      let (r, s) := s.readMap .firmware c z
      let moved := r != .ok || s.shardPrimary c z != bits w 13 8
      let s := (s.store .firmware (cfgMap c + 4 * z) (leBytes 4 w)).2
      let others := s.gts.single.filter (fun e => !(e.1 == k && e.2.1 == z))
      let s := { s with gts := { s.gts with
        single := if bits w 13 8 = bits w 21 16 then (k, z, w) :: others else others } }
      if moved then s.doubtOps k z (s.flock.threads.map (fun t => t.2.ops.length)).sum else s) s

/-- Take a new epoch; each promotion counts once. -/
def State.takeEpoch (s : State) (epoch : Nat) : State :=
  if s.get R.GTS_MAP_EPOCH.N = epoch then s else (s.put R.GTS_MAP_EPOCH.N epoch).bump R.GTS_CNT_PROMOTE.N

/-- The enabled fabric sets whose shard maps firmware reads without a hard fault (R310, R314). -/
def State.readMaps (s : State) : List Nat × State :=
  ((List.range 16).filter (fun k => cfgEnabled (s.setCfg k) && cfgFabric (s.setCfg k))).foldl (fun (x : List Nat × State) k =>
    match x.2.load .firmware (cfgMap (s.setCfg k)) 1024 with
    | (.ok, _, s) => (x.1 ++ [k], s)
    | (_, _, s) => (x.1, s)) ([], s)

/-- The shards of sets `ks` to promote under R439: those whose primary meets `bad`, or whose replica is lost. -/
def State.promotions (s : State) (ks : List Nat) (bad : Nat → Nat → Nat → Bool) : List (Nat × Nat × Nat) :=
  let lost (m : Nat) : Bool := s.gts.lost.contains m
  ks.flatMap (fun k =>
    let c := s.setCfg k
    (List.range 256).filterMap (fun z =>
      let p := s.shardPrimary c z
      let r := s.shardReplica c z
      if p == r then none
      else if bad k z p && !lost r then some (k, z, mapWord (s.shardSlot c z) r r)
      else if lost r && !lost p then some (k, z, mapWord (s.shardSlot c z) p p)
      else none))

/-- Payload of PROMOTE: an epoch, and entries of shard maps as set, shard and word. -/
def promoteBytes (epoch : Nat) (xs : List (Nat × Nat × Nat)) : List Byte :=
  leBytes 4 epoch ++ xs.flatMap (fun x => leBytes 1 x.1 ++ leBytes 1 x.2.1 ++ leBytes 4 x.2.2)

/-- A primary that the leader replaces (R439): it is lost, or its copy is doubtful here or by its own report. -/
def State.badPrimary (s : State) (k z p : Nat) : Bool :=
  s.gts.lost.contains p || (p == s.myId && s.doubted k (s.setCfg k) z) || s.gts.reports.contains (k, z, p)

/-- The leader of a component with quorum promotes (R439): epoch + 1, its own map, and PROMOTE to the others, at most 42
entries a packet. -/
def State.promoteNow (s : State) : State :=
  if !s.inFabric || s.leader != s.myId || !s.hasQuorum then s
  else
  let (ks, s) := s.readMaps
  let xs := s.promotions ks s.badPrimary
  if xs.isEmpty then s
  else
    let epoch := u32 (s.get R.GTS_MAP_EPOCH.N + 1)
    let s := (s.rewriteMap xs).takeEpoch epoch
    (chunks (xs.length + 1) 42 xs).foldl (fun (s : State) ys =>
      s.sendBcast { type := 3, vc := 0, src := s.myId, bcast := true
                    payload := promoteBytes epoch ys }) s

/-- A leader or a quorum gained promotes what has come due before it (R439). -/
def State.promoteStep (s : State) : State :=
  if !s.gts.promoteDue then s
  else
    let s := { s with gts := { s.gts with promoteDue := false } }
    if s.gts.lost.isEmpty && s.gts.reports.isEmpty && s.cel.doubtful.isEmpty then s else s.promoteNow

/-- A doubtful copy of which this module is the primary is reported to the leader (R439): no packet type is given for it, so it
goes as PROMOTE with the epoch in force and the entries as they are (log entry 31). -/
def State.reportDoubt (s : State) (ds : List Doubt) : State :=
  if !s.inFabric || s.leader == s.myId then s
  else
    let xs := (ds.filter (fun d => let c := s.setCfg d.set
      cfgEnabled c && cfgFabric c && s.shardPrimary c d.shard == s.myId)).map (fun d => (d.set, d.shard, s.mapEntry (s.setCfg d.set) d.shard))
    (chunks (xs.length + 1) 42 xs).foldl (fun (s : State) ys =>
      s.sendTo { type := 3, vc := 0, dst := s.leader, src := s.myId, payload := promoteBytes (s.get R.GTS_MAP_EPOCH.N) ys } false) s

/-- PROMOTE (R439): a new epoch and changed shard-map entries, forwarded along the leader's tree. From another module,
with the epoch in force, it is a primary's report of doubtful copies (log entry 31). -/
def execPromote (h : Packet) (epoch : BitVec 32) (changes : List (Fin 16 × Fin 256 × BitVec 32)) (s : State) :
    Host.Outcome State Fault Refusal :=
  let xs := changes.map (fun x => (x.1.val, x.2.1.val, x.2.2.toNat))
  let payload := promoteBytes epoch.toNat xs
  .next (if epoch.toNat = s.get R.GTS_MAP_EPOCH.N && h.src.val != s.leader then
      s.deliverOrForward h 3 0 payload (fun s =>
        let rs := xs.map (fun x => (x.1, x.2.1, h.src.val))
        { s with gts := { s.gts with reports := s.gts.reports.filter (fun r => !rs.contains r) ++ rs } }.promoteNow)
    else match s.accept h 0 payload.length with
    | (false, s) => s
    | (true, s) =>
      if h.src.val = s.myId then s
      else
        let s := s.sendBcast { type := 3, vc := 0, src := h.src.val, bcast := true, payload := payload }
        (s.rewriteMap xs).takeEpoch epoch.toNat)

/-- MEMBER_LOST (R436, R439): no route has reached a member for LOSS_US. A lost time master is followed by the lowest ID
with SYNCED 1; `synced` names the modules of the component that report it. -/
def execMemberLost (m : Fin 64) (synced : BitVec 64) (s : State) : Host.Outcome State Fault Refusal :=
  .next (match keyGet s.gts.away m.val with
    | none => s
    | some t =>
      if !s.inFabric || s.gts.lost.contains m.val || s.dtime < t + s.get R.GTS_CFG.LOSS_US * 1000 then s
      else
        let s := { s with gts := { s.gts with lost := s.gts.lost ++ [m.val] } }
        let s := if s.get R.GTS_STATUS.TIME_MASTER = m.val then
            (match s.component.filter (fun k => if k == s.myId then s.flag R.GTS_TIME_STATUS.SYNCED else bit synced.toNat k) with
             | [] => s
             | k :: ks => (s.put R.GTS_STATUS.TIME_MASTER (ks.foldl Nat.min k)).relink)
          else s
        s.promoteNow)

/-! ### Time (R436, R437) -/

/-- A time stamp in units of 62.5 ps. -/
def State.stamp (s : State) (sub : Nat) : Nat := s.dtime * 16 + sub

/-- TSYNC_SEND (R436): once every 1 ms a module that is not time master sends TSYNC_REQ on its upstream port; `sub` is the
part of t1 below the tick. -/
def execTsyncSend (sub : Fin 64) (s : State) : Host.Outcome State Fault Refusal :=
  .next (match s.upstream with
    | none => s
    | some p =>
      if !s.inFabric || s.dtime < s.gts.tsSent + 1000000 then s
      else
        let (tag, s) := s.newTag
        let t1 := s.stamp sub.val
        let s := { s with gts := { s.gts with tsync := some (tag, t1), tsSent := s.dtime } }
        s.sendOn p { type := 0x11, vc := 1, dst := s.get (R.GTS_G_STATUS.PEER_ID p), src := s.myId, tag := tag, payload := leBytes 8 t1 })

/-- TSYNC_REQ (R436): the upstream neighbour answers with t2 and t3, the times of this tick; `sub2` and `sub3` are their parts
below it. -/
def execTsyncReq (h : Packet) (t1 : BitVec 64) (sub2 sub3 : Fin 64) (s : State) : Host.Outcome State Fault Refusal :=
  .next (s.deliverOrForward h 0x11 1 (leBytes 8 t1.toNat) (fun s =>
    s.sendOn h.port.val { type := 0x12, vc := 1, dst := h.src.val, src := s.myId, tag := h.tag.toNat
                          payload := leBytes 8 (s.stamp sub2.val) ++ leBytes 8 (s.stamp sub3.val) }))

/-- A job is committed for R437: started and not stopped. -/
def State.jobsRun (s : State) : Bool := (List.range 64).any (fun j => s.jobState j == 2 || s.jobState j == 3)

/-- Cable asymmetry of a port in units of 62.5 ps (R436). -/
def State.asym (s : State) (p : Nat) : Int := tdiv (s.getInt (R.GTS_G_ASYM.PS p) * 16) 1000

/-- Four consecutive offsets that agree within 10 ns (R437). -/
def offsetsAgree (xs : List Int) : Bool :=
  xs.length == 4 && xs.all (fun x => xs.all (fun y => decide ((x - y).natAbs ≤ 160)))

/-- DTIME steps by an offset (R437): by the nearest multiple of 4 ns, and by phase toward the rest, at most 1 ns (R436). The times
from which the fabric's own intervals run step with it (log entry 31). -/
def State.stepTime (s : State) (off : Int) : State :=
  let ticks : Int := (off + 32) / 64
  let on (t : Nat) : Nat := toU64 ((t : Int) + 4 * ticks)
  { s with
    dtime := on s.dtime
    gts := { s.gts with
      phase := s.gts.phase + clampInt (off - 64 * ticks) (-16) 16, offsets := []
      tsSent := on s.gts.tsSent, lastExchange := on s.gts.lastExchange
      away := s.gts.away.map (fun (e : Nat × Nat) => (e.1, on e.2))
      ports := s.gts.ports.map (fun (x : PortSt) => { x with helloAt := x.helloAt.map on, ackAt := on x.ackAt }) } }.drop
    R.GTS_TIME_STATUS.JOIN_BLOCKED

/-- What an exchange does with its offset (R436, R437). -/
def State.takeOffset (s : State) (off : Int) : State :=
  let n := off.natAbs
  let run := if n ≤ 32 then s.gts.goodRun + 1 else 0
  let offs := (off :: s.gts.offsets).take 4
  let s := { s with gts := { s.gts with goodRun := run, offsets := offs, lastExchange := s.dtime } }
  let s := if n > 64 then s.drop R.GTS_TIME_STATUS.SYNCED else s
  if s.jobsRun then
    let s := if n > 64 then s.raise R.GTS_TIME_STATUS.JOIN_BLOCKED else s
    let s := { s with gts := { s.gts with phase := s.gts.phase + clampInt off (-16) 16 } }
    if run ≥ 16 && !s.flag R.GTS_TIME_STATUS.JOIN_BLOCKED then s.raise R.GTS_TIME_STATUS.SYNCED else s
  else
    let s := if offsetsAgree offs then s.stepTime off
      else { s with gts := { s.gts with phase := s.gts.phase + clampInt off (-16) 16 } }.drop R.GTS_TIME_STATUS.JOIN_BLOCKED
    if run ≥ 16 then s.raise R.GTS_TIME_STATUS.SYNCED else s

/-- TSYNC_RESP (R436): offset and delay of the exchange under way; t4 is this tick and `sub`, its part below it. -/
def execTsyncResp (h : Packet) (t2 t3 : BitVec 64) (sub : Fin 64) (s : State) : Host.Outcome State Fault Refusal :=
  .next (s.deliverOrForward h 0x12 1 (leBytes 8 t2.toNat ++ leBytes 8 t3.toNat) (fun s => match s.gts.tsync with
    | none => s
    | some (tag, t1) =>
      if h.tag.toNat ≠ tag then s
      else
        let d1 : Int := i64 (toU64 ((t2.toNat : Int) - t1))
        let d2 : Int := i64 (toU64 ((s.stamp sub.val : Int) - t3.toNat))
        let off := tdiv (d1 - d2 - s.asym h.port.val) 2
        let s := { s with gts := { s.gts with tsync := none } }
        let (v, s') := s.draw
        let s := if off < -32768 || 32767 < off then s'.put R.GTS_TIME_STATUS.OFFSET (v.toNat % 65536)
          else s.putInt R.GTS_TIME_STATUS.OFFSET off
        (s.put R.GTS_TIME_DELAY.N (toU32 (tdiv (d1 + d2) 2))).takeOffset off))

/-- TSYNC_TIMEOUT (R437): 10 ms without an exchange. -/
def execTsyncTimeout (s : State) : Host.Outcome State Fault Refusal :=
  .next (if s.get R.GTS_STATUS.TIME_MASTER != s.myId && decide (s.dtime ≥ s.gts.lastExchange + 10000000) then
      { s with gts := { s.gts with goodRun := 0 } }.drop R.GTS_TIME_STATUS.SYNCED
    else s)

/-! ### Set traffic (R227, R439) -/

/-- SET_REQ (R227): op 0 HLOOK, 1 HSEEN, 2 HINS. -/
def execSetReq (h : Packet) (op : Fin 3) (set : Fin 16) (key : BitVec 88) (node : BitVec 32) (s : State) :
    Host.Outcome State Fault Refusal :=
  .next (s.deliverOrForward h 0x20 2 (setReqBytes op.val set.val key.toNat node.toNat)
    (fun s => s.serveSet h op.val set.val key.toNat node.toNat))

/-- SET_RESP (R227, R439): the value of R224; a stale reply ends the operation in DOUBT. -/
def execSetResp (h : Packet) (value : BitVec 64) (stale : Bool) (s : State) : Host.Outcome State Fault Refusal :=
  .next (s.deliverOrForward h 0x21 2 (setRespBytes value.toNat stale) (fun s => match s.waiterOf h.tag.toNat with
    | none => s
    | some (e, c, t, i) => if stale then s.failSet e c t i 4 else s.finishSet e c t i value.toNat))

/-- REPL (R227): the replica takes the primary's change of an entry and acknowledges it; where its memory fails it does not
(R314). -/
def execRepl (h : Packet) (set : Fin 16) (key : BitVec 88) (bucket : BitVec 32) (entry : Fin 4) (st : BitVec 8)
    (node : BitVec 32) (s : State) : Host.Outcome State Fault Refusal :=
  let x : EntryChange := ⟨bucket.toNat, entry.val, st.toNat, node.toNat⟩
  .next (s.deliverOrForward h 0x22 2 (replBytes set.val key.toNat x) (fun s =>
    let c := s.setCfg set.val
    let z := keyShard key.toNat
    if !cfgEnabled c || !cfgFabric c then s
    else match s.readMap .fabric c z with
      | (.ok, s) =>
        if s.shardReplica c z != s.myId then s
        else (match s.writeEntry .fabric c (s.shardSlot c z) key.toNat x with
          | (.ok, s) => s.sendLookup 0x23 h.part.val h.src.val h.tag.toNat []
          | (_, s) => s)
      | (_, s) => s))

/-- REPL_ACK (R227): both copies hold the change, and the requester is answered. -/
def execReplAck (h : Packet) (s : State) : Host.Outcome State Fault Refusal :=
  .next (s.deliverOrForward h 0x23 2 [] (fun s =>
    match s.gts.serving.find? (fun x => x.tag == h.tag.toNat) with
    | none => s
    | some x =>
      let s := { s with gts := { s.gts with serving := s.gts.serving.filter (fun y => y.tag != x.tag) } }
      match x.local_ with
      | none => s.answerSet x.requester x.part x.reqTag x.result false
      | some (_, tag) => match s.waiterOf tag with
        | some (e, c, t, i) => s.finishSet e c t i x.result
        | none => s))

/-- RGET_REQ (R229, R441): 8 bytes through a window, or a refusal. -/
def execRgetReq (h : Packet) (addr : BitVec 64) (s : State) : Host.Outcome State Fault Refusal :=
  .next (s.deliverOrForward h 0x24 2 (leBytes 8 addr.toNat) (fun s =>
    match s.windowRead addr.toNat h.part.val with
    | (some v, s) => s.sendLookup 0x25 h.part.val h.src.val h.tag.toNat (leBytes 8 v)
    | (none, s) => s.sendLookup 0x25 h.part.val h.src.val h.tag.toNat []))

/-- RGET_RESP (R229, R441): 8 bytes, or none where the target refused. -/
def execRgetResp (h : Packet) (data : Option (BitVec 64)) (s : State) : Host.Outcome State Fault Refusal :=
  let payload := match data with
    | some v => leBytes 8 v.toNat
    | none => []
  .next (s.deliverOrForward h 0x25 2 payload (fun s => match s.waiterOf h.tag.toNat with
    | none => s
    | some (e, c, t, i) => match data with
      | some v => s.finishOp e c t i v.toNat
      | none => s.failGet e c t i))

/-! ### Halo strips (R441, R443) -/

/-- A halo strip being received. -/
def State.haloRecv (s : State) (e strip : Nat) : Option HaloRecv :=
  s.gts.halos.find? (fun x => x.entry == e && x.strip == strip)

/-- Replace, or remove, the reception of a strip. -/
def State.setHalo (s : State) (e strip : Nat) (x : Option HaloRecv) : State :=
  { s with gts := { s.gts with
      halos := s.gts.halos.filter (fun y => !(y.entry == e && y.strip == strip)) ++ x.toList } }

/-- How far the bytes from 0 on are covered by ranges, taken in ascending order. -/
def coveredTo (rs : List (Nat × Nat)) : Nat :=
  (sortBy (·.1) rs).foldl (fun n r => if r.1 ≤ n then Nat.max n (r.1 + r.2) else n) 0

/-- Every byte of the strip has arrived (R443). -/
def HaloRecv.whole (x : HaloRecv) : Bool := decide (coveredTo x.got ≥ x.total)

/-- A HALO packet for a receive entry (R443). -/
def State.haloTake (s : State) (part e strip off total : Nat) (bs : List Byte) : State :=
  let bufs := s.get (R.GTS_HX_BUF.BUFS e)
  let so := s.get (R.GTS_HX_BUF.SO e)
  let x := match s.haloRecv e strip with
    | some x => x
    | none => { entry := e, strip := strip, total := total, dropped := decide ((s.so so).value ≥ bufs) }
  let fresh := (s.haloRecv e strip).isNone
  let x := { x with got := x.got ++ [(off, bs.length)] }
  let whole := x.whole
  let keep := if whole then none else some x
  if x.dropped then
    let s := s.setHalo e strip keep
    if fresh then s.bump (R.GTS_HX_DROP.N e) else s
  else
    let a := s.get64 (R.GTS_HX_BASE_LO.N e) (R.GTS_HX_BASE_HI.N e) + strip % bufs * s.get (R.GTS_HX_STRIDE.UNITS e) * 4096 + off
    if !s.windowFor a bs.length part true then s.bump (R.GTS_HX_DROP.N e)
    else
      match s.store .fabric a bs with
      | (.ok, s) =>
        let s := s.setHalo e strip keep
        if whole then ((s.bump (R.GTS_HX_STRIPS.N e)).signal .firmware so 1).settle else s
      | (_, s) => (s.setHalo e strip (if whole then none else some { x with dropped := true })).bump (R.GTS_HX_DROP.N e)

/-- HALO (R443): bytes of a strip for a receive entry; anything else is refused and counted (R441). -/
def execHalo (h : Packet) (entry : Fin 16) (strip off total : BitVec 32) (bytes : List Byte) (s : State) :
    Host.Outcome State Fault Refusal :=
  let e := entry.val
  .next (s.deliverOrForward h 0x30 3 bytes (fun s =>
    if s.flag (R.GTS_HX_CFG.ENABLE e) && s.flag (R.GTS_HX_CFG.DIR e) && s.get (R.GTS_HX_CFG.PEER e) == h.src.val then
      s.haloTake h.part.val e strip.toNat off.toNat total.toNat bytes
    else s.bump (R.GTS_HX_DROP.N e)))

/-! ### The link (R430, R432) -/

/-- ACK_SEND (R430): a cumulative ACK of the packets accepted on a port in UP. -/
def execAckSend (port : Fin 8) (s : State) : Host.Outcome State Fault Refusal :=
  let p := port.val
  .next (if s.portState p = 3 then
      let x := s.gport p
      (s.setGport p { x with ackAt := s.dtime }).sendCtl p 1 ((x.rxSeq + 4095) % 4096)
    else s)

/-- ACK_SET (R430): packets up to an LSEQ are acknowledged and leave the replay buffer. -/
def execAckSet (port : Fin 8) (lseq : BitVec 12) (s : State) : Host.Outcome State Fault Refusal :=
  let p := port.val
  .next (if s.portState p = 3 then
      let x := s.gport p
      match x.replay.findIdx? (fun e => e.1 == lseq.toNat) with
      | none => s
      | some i =>
        let gone := x.replay.take (i + 1)
        (s.setGport p { x with
          replay := x.replay.drop (i + 1)
          naks := if gone.any (fun e => e.1 == x.naks.1) then (0, 0) else x.naks }).pumpPort p
    else s)

/-- The sets of the packets that a NAK of `lseq` has the sender send again (R430): from the packet named on. -/
def PortSt.again (x : PortSt) (lseq : Nat) : List (List (List (Bool × Byte))) :=
  (x.replay.dropWhile (fun e => e.1 != lseq)).map (fun e => e.2.sets e.1)

/-- NAK (R430): the sender resends from the packet named; the fourth NAK of one LSEQ takes the link down. -/
def execNak (port : Fin 8) (lseq : BitVec 12) (s : State) : Host.Outcome State Fault Refusal :=
  let p := port.val
  .next (if s.portState p = 3 then
      let s := s.bump (R.GTS_G_NAK.N p)
      let x := s.gport p
      let n := if x.naks.1 = lseq.toNat then x.naks.2 + 1 else 1
      if n ≥ 4 then (s.bump (R.GTS_G_REPLAY_FAIL.N p)).linkDown p
      else s.setGport p ((x.again lseq.toNat).foldl (fun (x : PortSt) ss => x.emit ss) { x with naks := (lseq.toNat, n) })
    else s)

/-- CRED (R432): units return to this transmitter. -/
def execCred (port : Fin 8) (vc : Fin 4) (part : Fin 8) (units : BitVec 11) (s : State) : Host.Outcome State Fault Refusal :=
  let p := port.val
  .next (if s.portState p = 3 then
      let x := s.gport p
      let key := vc.val * 8 + if vc.val < 2 then 0 else part.val
      (s.setGport p { x with creds := keyPut x.creds key (x.units vc.val part.val + units.toNat) }).pumpPort p
    else s)

/-- The bytes between SOP and EOP are no packet with its CRC-32 (R429): LEN payload bytes and the CRC of header and payload. -/
def badCrc (bs : List Byte) : Bool :=
  let n := 16 + leVal ((bs.drop 4).take 2)
  decide (bs.length < n + 4) || leVal ((bs.drop n).take 4) != crc32 (bs.take n)

/-- PACKET_ERROR (R430): bytes between SOP and EOP with a bad CRC, or with another LSEQ than the one expected, are discarded; NAK
with the LSEQ expected, once. -/
def execPacketError (received : RawPacket) (s : State) : Host.Outcome State Fault Refusal :=
  let p := received.port.val
  .next (if s.portState p ≠ 3 || (!badCrc received.bytes && leVal ((received.bytes.drop 6).take 2) % 4096 == (s.gport p).rxSeq) then s
    else
      let x := s.gport p
      if x.nakSent = some x.rxSeq then s
      else (s.setGport p { x with nakSent := some x.rxSeq }).sendCtl p 2 x.rxSeq)

/-! ### Page retirement (R316-R318) -/

/-- Copies of shards of enabled sets on this module that hold an address: of the local sets, and of the fabric sets `ks`, whose
maps have been read. -/
def State.shardsAt (s : State) (ks : List Nat) (a : Nat) : List Doubt :=
  ((List.range 16).filter (fun k => cfgEnabled (s.setCfg k) && (!cfgFabric (s.setCfg k) || ks.contains k))).flatMap (fun k =>
    let c := s.setCfg k
    (List.range 256).filterMap (fun z =>
      let base := s.copyBase c z
      let here := !cfgFabric c || s.shardPrimary c z == s.myId || s.shardReplica c z == s.myId
      if here && decide (base ≤ a) && decide (a < base + cfgBuckets c * 64) then some ⟨k, z, base, cfgBuckets c * 64, []⟩ else none))

/-- Mark copies doubtful that are not yet (R318); a copy that has lost a word anew has to be loaded anew. -/
def State.markDoubt (s : State) (ds : List Doubt) : State :=
  { s with cel := { s.cel with
    doubtful := s.cel.doubtful.filter (fun d => !ds.any (fun x => x.set == d.set && x.shard == d.shard && x.base == d.base)) ++ ds } }

/-- PAGE_RETIRE (R316-R318): firmware retires the next page with a hard fault; shards that lose a word are doubtful, and
a doubtful primary is promoted (R439). -/
def execPageRetire (s : State) : Host.Outcome State Fault Refusal :=
  .next (match nextRetire s.cel.toRetire with
    | none => s
    | some (ch, page) =>
      let (lost, s) := s.retire ch page
      if lost.isEmpty then s
      else
        let (ks, s) := s.readMaps
        let ds := ((lost.flatMap (fun cb => s.addrsOf ch cb)).flatMap (fun a => s.shardsAt ks a)).dedup
        if ds.isEmpty then s
        else ((s.markDoubt ds).reportDoubt ds).promoteNow)

end Sys2Proof.Machine
end

