-- ==== Sys2Proof/Machine/LinePipe.lean ====
section
/-! DEFINITION. Machine/LinePipe.lean: line gates, the building of a row and what it feeds: strips, crops, measurements,
captured samples and Sheepdog (spec/05_camera_links.md, R105, R106; spec/06_line_pipeline.md, R113, R128, R139-R141;
spec/13_adaptation.md, R282; spec/18_verdicts_sheepdog.md, R389, R391). -/

namespace Sys2Proof.Machine

/-! ### Line gates (R105, R106, R143) -/

/-- Parts of a camera that are OPEN. -/
def State.openParts (s : State) (c : Nat) : List Nat :=
  s.liveParts.filter (fun i => (s.part i).core.state == .opened && colsCamera (s.part i).vd.cols == c)

/-- A gate belongs to the OPEN parts of its camera, and is the first gate of measurements that have none (R138, R143). -/
def State.gateParts (s : State) (c g : Nat) : State :=
  let s := (s.openParts c).foldl (fun s i =>
    let p := s.part i
    s.setPart i { p with vd := { p.vd with
      gates := p.vd.gates ++ [g]
      gateTick := s.dtime
      gatesBefore := if p.vd.gateTick = s.dtime && !p.vd.gates.isEmpty then p.vd.gatesBefore else p.vd.gates.length
      capture := p.vd.capture.map (fun r => if p.vd.gates.isEmpty then { r with wpos := s.pos.wpos } else r) } }) s
  { s with lp := { s.lp with meas := s.lp.meas.map (fun m =>
    if m.camera == c && m.first.isNone then { m with first := some g } else m) } }

/-! ### The decimated stream and Sheepdog's queue (R128, R389, R391) -/

/-- The TYPE 4 stream of a camera. -/
def State.decStream (s : State) (c : Nat) : Option Nat := (List.range 8).find? (fun k => s.strType c k == 4)

/-- One decimated plane row from four rows of `w` columns. -/
def decimate (w : Nat) (rows : List (List Nat)) : List Nat :=
  (List.range ((w + 3) / 4)).map (fun i =>
    let xs := rows.flatMap (fun r => (r.drop (4 * i)).take 4)
    if xs.length = 0 then 0 else u16 ((xs.sum + xs.length / 2) / xs.length))

/-- Gates of a part that begin a decimated row: those of rows 4j of the stream; any gate, while the stream has no row yet. -/
def State.decGates (s : State) (i : Nat) : Nat :=
  let v := (s.part i).vd
  match s.decStream (colsCamera v.cols) with
  | none => 0
  | some k => match (s.stream (colsCamera v.cols) k).first with
    | none => v.gates.length
    | some f => (v.gates.filter (fun g => decide (f ≤ g) && (g - f) % 4 == 0)).length

/-- A part whose last decimated row has arrived and which is not yet in Sheepdog's queue (R391). -/
def State.sdgReady (s : State) (i : Nat) : Bool :=
  let p := s.part i
  p.sdgOn && p.core.state != .opened && p.core.state.undecided && !p.vd.sdgQueued && !p.vd.sdgAbandoned
    && decide (p.vd.sdgRows.length ≥ s.decGates i)

/-- Part `i` is checked before part `j`: its last row arrived on an earlier tick, or on the same one for a lower lane (R391). -/
def State.sdgBefore (s : State) (i j : Nat) : Bool :=
  let p := s.part i
  let q := s.part j
  decide (p.vd.sdgAt < q.vd.sdgAt) || (p.vd.sdgAt == q.vd.sdgAt && decide (p.core.lane < q.core.lane))

/-- Sheepdog's queue with part `i` in its place; a check under way, of a part queued before this tick, goes on. -/
def State.sdgInsert (s : State) (i : Nat) : List Nat → List Nat
  | [] => [i]
  | h :: t =>
    let goesOn := decide ((s.part h).vd.sdgAt < s.dtime)
    let order := if goesOn then t else h :: t
    (if goesOn then [h] else []) ++ order.takeWhile (fun j => !s.sdgBefore i j) ++ i :: order.dropWhile (fun j => !s.sdgBefore i j)

/-- Queue parts for Sheepdog in the order of their last rows, on one tick in ascending lane; the queue holds 4,096 parts, and a
part that meets a full queue is not queued. -/
def State.sdgEnqueue (s : State) : State :=
  let ready := s.liveParts.filter (fun i => s.sdgReady i)
  let order := (List.range 64).flatMap (fun m => ready.filter (fun i => (s.part i).core.lane == m))
  order.foldl (fun (s : State) i =>
    let p := s.part i
    let s := s.setPart i { p with vd := { p.vd with
      sdgQueued := true, sdgAt := if p.vd.sdgRows.isEmpty then s.dtime else p.vd.sdgAt } }
    if s.sdg.queue.length < 4096 then { s with sdg := { s.sdg with queue := s.sdgInsert i s.sdg.queue } } else s) s

/-- A decimated row: each part that was OPEN at the gate of row 4j takes its samples of plane PLANE at 8 bits. -/
def State.decimatedRow (s : State) (c : Nat) (planes : List (Nat × List Nat)) (g wpos flags : Nat) : State :=
  (s.partsAt c g).foldl (fun s i =>
    let p := s.part i
    if p.vd.sdgAbandoned then s
    else
      let xs := ((keyGet planes (bits p.vd.sdgCfg 3 1)).getD []).map (fun v => Nat.min ((v + 128) / 256) 255)
      s.setPart i { p with vd := { p.vd with
        sdgAt := s.dtime, sdgRows := p.vd.sdgRows ++ [⟨wpos, flags, xs⟩], sdgFlagged := p.vd.sdgFlagged || bit flags 0 || bit flags 2 } }) s

/-- A row enters the TYPE 4 stream `k`; the first of every four is counted from the stream's first row. -/
def State.decRow (s : State) (c k : Nat) (r : Row) : State :=
  let x := s.stream c k
  let y := (r.gate - x.first.getD 0) % 4
  let q := if y = 0 then [r] else if x.quad.length = y then x.quad ++ [r] else []
  match q with
  | [a, b, d, e] =>
    let s := s.setStream c k { x with quad := [] }
    let planes := (s.strPlanes c k).map (fun p => (p, decimate (s.width c) [a.plane p, b.plane p, d.plane p, e.plane p]))
    s.decimatedRow c planes a.gate a.wpos (orFlags (orFlags a.flags b.flags) (orFlags d.flags e.flags))
  | _ => s.setStream c k { x with quad := q }

/-! ### Captured samples (R282, R285, R286) -/

/-- One plane of a captured row: the lane's columns, padded to whole tiles. -/
def State.captureRow (s : State) (c : Nat) (cols : Nat) (r : Row) (p : Nat) : List Byte :=
  let k := s.get R.ADP_CAP_CFG.STREAM
  let bs := (((r.plane p).drop (colsFirst cols)).take (colsLast cols + 1 - colsFirst cols)).flatMap (fun v => s.outSample c k v)
  bs ++ List.replicate (s.capRowBytes cols - bs.length) 0

/-- The number of rows of a sample, where it is known by now (R282): the part's gates once it is no longer OPEN, at most
ROWS_MAX; or ROWS_MAX rows built. -/
def CapRun.height (r : CapRun) (most : Nat) : Option Nat :=
  match r.gates with
  | some gs => some (Nat.min gs.length most)
  | none => if r.rows.length < most then none else some most

/-- Write row `y` of plane number `j` of a sample of `h` rows (R286): tile rows of one row, plane after plane. -/
def State.capStore (s : State) (r : CapRun) (h j y : Nat) : State :=
  (s.store .linePipe (s.capSlotAddr r.slot + 64 + (j * h + y) * s.capRowBytes r.cols) (nth (nth r.rows y []) j [])).2

/-- A row of a gate of the part joins its sample (R282); the place of its first plane does not depend on HEIGHT. -/
def State.capAdd (s : State) (r : CapRun) (row : Row) : CapRun × State :=
  if r.dead || r.done || decide (r.rows.length ≥ s.get R.ADP_CAP_ROWS.ROWS_MAX) then (r, s)
  else
    let c := colsCamera r.cols
    let x := { r with rows := r.rows ++ [(s.capPlanes c).map (fun pl => s.captureRow c r.cols row pl)] }
    (x, s.capStore x 0 0 r.rows.length)

/-- The KTR header of a captured sample (R285). -/
def State.captureHeader (s : State) (r : CapRun) : List Byte :=
  let c := colsCamera r.cols
  let pls := s.capPlanes c
  let h := leBytes 4 0x3152544B ++ leBytes 2 1 ++ leBytes 1 pls.length ++ leBytes 1 (s.capSbytes c)
    ++ leBytes 4 (colsLast r.cols + 1 - colsFirst r.cols) ++ leBytes 4 r.rows.length
    ++ leBytes 2 (512 / s.capSbytes c) ++ leBytes 2 1
    ++ (pls ++ List.replicate (8 - pls.length) 255).flatMap (fun f => leBytes 1 f)
    ++ leBytes 4 r.id ++ leBytes 1 c ++ leBytes 1 r.lane ++ leBytes 2 (colsFirst r.cols)
    ++ leBytes 8 r.wpos ++ List.replicate 16 0
  h ++ leBytes 4 (crc32 h)

/-- Once HEIGHT is known, the other planes of the rows built so far are written, and the header with the last row (R282,
R286). -/
def State.capPlace (s : State) (r : CapRun) : CapRun × State :=
  match r.height (s.get R.ADP_CAP_ROWS.ROWS_MAX) with
  | none => (r, s)
  | some h =>
    if r.dead || r.done || h = 0 then (r, s)
    else
      let js := (List.range (s.capPlanes (colsCamera r.cols)).length).drop 1
      let s := ((List.range r.rows.length).drop r.placed).foldl (fun (s : State) y =>
        js.foldl (fun (s : State) j => s.capStore r h j y) s) s
      let r := { r with placed := r.rows.length }
      if r.rows.length < h then (r, s)
      else ({ r with done := true }, (s.store .linePipe (s.capSlotAddr r.slot) (s.captureHeader r)).2)

/-- One step of the sample of a part that is a candidate. -/
def State.captureStep (s : State) (i : Nat) (f : State → CapRun → CapRun × State) : State :=
  match (s.part i).vd.capture with
  | none => s
  | some r =>
    let (r, s) := f s r
    s.setPart i { s.part i with vd := { (s.part i).vd with capture := some r } }

/-- A row joins a sample, and what is known of its place is written. -/
def State.capRow (s : State) (row : Row) (r : CapRun) : CapRun × State :=
  let (r, s) := s.capAdd r row
  s.capPlace r

/-- A row of a gate goes to the candidates that take it, and to kept samples that still want it (R282). -/
def State.captureTakes (s : State) (c : Nat) (row : Row) : State :=
  let s := (s.partsAt c row.gate).foldl (fun (s : State) i => s.captureStep i (fun s r => s.capRow row r)) s
  let (rs, s) := s.adp.capLeft.foldl (fun (x : List CapRun × State) r =>
    if colsCamera r.cols = c && (r.gates.getD []).contains row.gate then
      (let (r, s) := x.2.capRow row r
       (x.1 ++ [r], s))
    else (x.1 ++ [r], x.2)) ([], s)
  { s with adp := { s.adp with capLeft := rs.filter (fun r => !r.done) } }

/-- A part is no longer OPEN: the rows of its sample are those of its gates (R282). -/
def State.captureClose (s : State) (i : Nat) : State :=
  s.captureStep i (fun s r =>
    let gs := (s.part i).vd.gates
    s.capPlace { r with gates := some gs, rows := r.rows.take gs.length })

/-! ### Measurement (R139-R141) -/

/-- Address of the result of an engine for a part: patch p at p * 64, mark m at 16,384 + m * 32. -/
def State.measAddr (s : State) (part engine : Nat) : Nat :=
  s.get64 R.LPIPE_MEAS_BASE_LO.N R.LPIPE_MEAS_BASE_HI.N + part * 18432
    + (if engine < 256 then engine * 64 else 16384 + (engine - 256) * 32)

/-- The measurement of patch engine `p` for a part, with its steered window. -/
def State.patchMeas (s : State) (i p : Nat) : Meas :=
  let pt := s.part i
  let c := colsCamera pt.vd.cols
  let on := s.flag (R.LPIPE_PAT_CFG.STEER_EN p)
  let cols := s.get (R.LPIPE_PAT_WX.COLS p)
  let dx : Int := if on then s.steerOf (R.LPIPE_PAT_STEER.DX p) else 0
  let dy : Int := if on then s.steerOf (R.LPIPE_PAT_STEER.DY p) else 0
  let x := clampInt ((s.get (R.LPIPE_PAT_WX.COL0 p) : Int) + dx) 0 ((s.width c : Int) - cols)
  let y := (s.get (R.LPIPE_PAT_WY.ROW0 p) : Int) + dy
  { engine := p, part := i, id := pt.core.id, camera := c, col0 := x.toNat, cols := cols
    row0 := y.toNat, rows := s.get (R.LPIPE_PAT_WY.ROWS p) }

/-- The measurement of mark engine `m` for a part. -/
def State.markMeas (s : State) (i m : Nat) : Meas :=
  let pt := s.part i
  { engine := 256 + m, part := i, id := pt.core.id, camera := colsCamera pt.vd.cols
    col0 := s.get (R.LPIPE_MRK_WX.COL0 m), cols := s.get (R.LPIPE_MRK_WX.COLS m)
    row0 := s.get (R.LPIPE_MRK_WY.ROW0 m), rows := s.get (R.LPIPE_MRK_WY.ROWS m) }

/-- At PART_OPEN the bound engines begin (R139): the part's identifier and FLAGS 0 go into each result. -/
def State.measOpen (s : State) (i : Nat) : State :=
  let lane := (s.part i).core.lane
  if !s.flag R.LPIPE_CTL.ENABLE then s
  else
    let ps := (List.range 256).filter (fun p => s.flag (R.LPIPE_PAT_CFG.ENABLE p) && s.get (R.LPIPE_PAT_CFG.LANE p) == lane)
    let ms := (List.range 64).filter (fun m => s.flag (R.LPIPE_MRK_CFG.ENABLE m) && s.get (R.LPIPE_MRK_CFG.LANE m) == lane)
    let new := ps.map (fun p => s.patchMeas i p) ++ ms.map (fun m => s.markMeas i m)
    let s := { s with lp := { s.lp with meas := s.lp.meas ++ new } }
    new.foldl (fun (s : State) m =>
      let a := s.measAddr i m.engine
      let s := (s.store .linePipe a (leBytes 4 m.id)).2
      (s.store .linePipe (a + 6) (leBytes 2 0)).2) s

/-- Add values and their squares to a sum pair. -/
def sumPair (xs : List Nat) : Nat × Nat := (xs.sum, (xs.map (fun v => v * v)).sum)

/-- A patch engine takes one row of its window (R140). -/
def State.patchRow (s : State) (m : Meas) (r : Row) : Meas :=
  if bit r.flags 0 then { m with excluded := true }
  else
    let cols := (List.range m.cols).map (· + m.col0)
    let inc := cols.filter (fun x => !r.replaced.contains x)
    let take (p : Nat) : Nat × Nat := let xs := r.plane p
      sumPair (inc.map (fun x => nth xs x 0))
    let a := take (s.get (R.LPIPE_PAT_CFG.PLANE_A m.engine))
    let b := take (s.get (R.LPIPE_PAT_CFG.PLANE_B m.engine))
    let c := take (s.get (R.LPIPE_PAT_CFG.PLANE_C m.engine))
    { m with
      n := m.n + inc.length, excluded := m.excluded || decide (inc.length < cols.length)
      sums := (m.sums.zip [a.1, a.2, b.1, b.2, c.1, c.2]).map (fun x => x.1 + x.2) }

/-- A mark engine takes row `y` of its window (R141). -/
def State.markRow (s : State) (m : Meas) (r : Row) (y : Nat) : Meas :=
  let m := { m with wgs := m.wgs ++ [r.wpos] }
  if bit r.flags 0 then { m with excluded := true }
  else
    let e := m.engine - 256
    let thr := s.get (R.LPIPE_MRK_CFG.THR e)
    let xs := r.plane (s.get (R.LPIPE_MRK_CFG.PLANE e))
    let ws := (List.range m.cols).map (fun x =>
      let v := nth xs (m.col0 + x) 0
      if s.flag (R.LPIPE_MRK_CFG.POL e) then v - thr else thr - v)
    let sw := ws.sum
    let sx := ((List.range m.cols).zip ws).foldl (fun a x => a + x.1 * x.2) 0
    { m with sums := (m.sums.zip [sw, sx, sw * y, 0, 0, 0]).map (fun x => x.1 + x.2) }

/-- The patch result (R140). -/
def patchResult (m : Meas) : List Byte :=
  leBytes 4 m.id ++ leBytes 2 m.engine ++ leBytes 2 (1 + if m.excluded then 2 else 0) ++ leBytes 4 m.n ++ leBytes 4 0
    ++ m.sums.flatMap (fun v => leBytes 8 v)

/-- Keep a steering register as it was before this tick first wrote it (R131). -/
def State.noteSteer (s : State) (off : Nat) : State :=
  let was := s.lp.steerWas.filter (fun w => w.1 == s.dtime)
  { s with lp := { s.lp with
    steerWas := if was.any (fun w => w.2.1 == off) then was else was ++ [(s.dtime, off, s.reg off)] } }

/-- Write one steering register. -/
def State.steerReg (s : State) (dx dy : Fld) (x y : Int) : State := ((s.noteSteer dx.off).putInt dx x).putInt dy y

/-- Steering by a VALID mark result (R131). -/
def State.steer (s : State) (e : Nat) (dx dy : Int) : State :=
  let lim : Int := s.get (R.LPIPE_MRK_STEER_MAX.N e)
  let step (d : Int) : Int := clampInt ((d + 128) / 256) (-lim) lim
  let s := (List.range 1024).foldl (fun (s : State) i =>
    if s.flag (R.LPIPE_CROP_CFG.STEER_EN i) && s.get (R.LPIPE_CROP_CFG.MARK i) == e then
      s.steerReg (R.LPIPE_CROP_STEER.DX i) (R.LPIPE_CROP_STEER.DY i) (step dx) (step dy)
    else s) s
  (List.range 256).foldl (fun (s : State) i =>
    if s.flag (R.LPIPE_PAT_CFG.STEER_EN i) && s.get (R.LPIPE_PAT_CFG.MARK i) == e then
      s.steerReg (R.LPIPE_PAT_STEER.DX i) (R.LPIPE_PAT_STEER.DY i) (step dx) (step dy)
    else s) s

/-- The mark result (R141). With no weight at all there is no centroid: CX, CY and Y_WPOS are left open. -/
def State.markResult (s : State) (m : Meas) : State :=
  let e := m.engine - 256
  let sw := nth m.sums 0 0
  let valid := decide (sw ≥ s.get (R.LPIPE_MRK_MIN_W.N e)) && decide (sw > 0)
  let (f1, s1) := s.draw
  let (f2, s2) := s1.draw
  let (f3, s3) := s2.draw
  let s := if sw = 0 then s3 else s
  let cx : Int := if sw = 0 then i32 f1.toNat else i32 ((nth m.sums 1 0 * 256 + sw / 2) / sw)
  let cy : Int := if sw = 0 then i32 f2.toNat else i32 ((nth m.sums 2 0 * 256 + sw / 2) / sw)
  let r := toU32 cy / 256
  let fr := if r + 1 ≥ m.rows then 0 else toU32 cy % 256
  let wg (k : Nat) : Nat := nth m.wgs k 0
  let y := if sw = 0 then f3.toNat else u64 (wg r + u64 ((wg (r + 1) - wg r) * fr) / 256)
  let dx := cx - s.get (R.LPIPE_MRK_NOM.NOM_X_Q8 e)
  let dy := cy - s.get (R.LPIPE_MRK_NOM.NOM_Y_Q8 e)
  let bs := leBytes 4 m.id ++ leBytes 2 e ++ leBytes 2 ((if valid then 1 else 2) + if m.excluded then 4 else 0)
    ++ leBytes 4 (toU32 cx) ++ leBytes 4 (toU32 cy) ++ leBytes 4 (toU32 dx) ++ leBytes 4 (toU32 dy) ++ leBytes 8 y
  let s := (s.store .linePipe (s.measAddr m.part m.engine) bs).2
  if valid then s.steer e dx dy else s.bump (R.LPIPE_CAM_MARK_WEAK.N m.camera)

/-- A row passes one measurement: what is left of it, and the state with its result once the window is done. -/
def State.measRow (s : State) (c : Nat) (r : Row) (m : Meas) : Option Meas × State :=
  match m.first with
  | none => (some m, s)
  | some f =>
    if m.camera != c || r.gate < f + m.row0 then (some m, s)
    else
      let y := r.gate - f - m.row0
      let m := if m.engine < 256 then s.patchRow m r else s.markRow m r y
      if y + 1 < m.rows then (some m, s)
      else if m.engine < 256 then (none, (s.store .linePipe (s.measAddr m.part m.engine) (patchResult m)).2)
      else (none, s.markResult m)

/-- A row passes every measurement, patches before marks and in the order they began. -/
def State.measRows (s : State) (c : Nat) (r : Row) : State :=
  s.lp.meas.foldl (fun (s : State) m =>
    match s.measRow c r m with
    | (some m', s) => { s with lp := { s.lp with meas := s.lp.meas ++ [m'] } }
    | (none, s) => s) { s with lp := { s.lp with meas := [] } }

/-! ### ROW_BUILD -/

/-- The correction tables of a camera are read from the Shelf with their parity (R310, R312); a hard fault rejects the
camera's parts until a commit loads its tables (R314). -/
def State.readTables (s : State) (c : Nat) : State :=
  let t := s.tables c
  if t.dark.isNone && t.gain.isNone && t.defect.isNone then s
  else
    let a := s.tableBase c
    let n := s.tableBytes c
    let bad := ascending ((s.cel.bad.filter (fun b => decide (a ≤ b.word * 4) && decide (b.word * 4 < a + n))).map (·.word))
    let (hit, s) := bad.foldl (fun (x : Bool × State) w =>
      match x.2.checkWord .linePipe (w * 4) (.shelf (w * 4 - 68719476736)) with
      | (.ok, s) => (x.1, s)
      | (_, s) => (true, s)) (false, s)
    if hit && !s.lp.badTables.contains c then
      let s := { s with lp := { s.lp with badTables := c :: s.lp.badTables } }
      (s.markFault (s.liveParts.filter (fun i => colsCamera (s.part i).vd.cols == c))).lineStop .job
    else s

/-- A row goes to one stream (R125-R129): to one with strips, if its gate was assigned to a strip (R132). -/
def State.streamRow (s : State) (c : Nat) (r : Row) (k : Nat) : State :=
  let x := s.stream c k
  let restart := match x.first with
    | none => true
    | some f => decide (f < (s.cam c).g0.getD 0)
  let x := if restart then { x with first := some r.gate, levels := [[], [], []], made := [0, 0, 0, 0], quad := [] } else x
  let s := s.setStream c k x
  match s.strType c k with
  | 1 =>
    let s := s.endReached c k
    let begun : Bool := match x.from_ with
      | some f => decide (f ≤ r.gate)
      | none => false
    if begun then s.emitRow c k r (s.width c) (s.partsAt c r.gate) else s
  | 2 => s.level c k r 0 4
  | 3 => (s.stream c k).crops.foldl (fun (s : State) q => s.cropRow c k r q) s
  | 4 => s.decRow c k r
  | _ => s

/-- One built row and everything it feeds. -/
def State.feedRow (s : State) (c : Nat) (r : Row) (none_ : Nat) : State :=
  let s := (s.bump (R.LPIPE_CAM_ROWS.N c)).bumpBy (R.LPIPE_CAM_DEFECT_NONE.N c) none_
  let s := if bit r.flags 0 then s.bump (R.LPIPE_CAM_PADDED_ROWS.N c) else s
  let s := if bit r.flags 2 then
      (((s.bump (R.LPIPE_CAM_REG_LATE.N c)).latch R.LPIPE_STATUS.REG_LATE) |> fun s =>
        (s.partsAt c r.gate).foldl (fun s i => s.markIncomplete i) s)
    else s
  let s := (List.range 8).foldl (fun (s : State) k => s.streamRow c r k) s
  let s := (s.measRows c r).captureTakes c r
  let s := { s with lp := { s.lp with nextRow := setNth s.lp.nextRow c (r.gate + 1) } }
  let s := (s.stripStreams c).foldl (fun (s : State) k => s.endReached c k) s
  s.sdgEnqueue.settle

/-- The next row of a camera is built and goes to all that takes it. -/
def State.rowBuild (s : State) (c : Nat) : State :=
  let g := nth s.lp.nextRow c 0
  let s := s.readTables c
  let (r, n) := s.buildRow c g
  s.feedRow c r n

/-- The next row of a camera can be built: its pipeline runs, and the slots it takes from have closed (R113). -/
def State.rowDue (s : State) (c : Nat) : Bool := s.lpOn c && s.rowReady c (nth s.lp.nextRow c 0)

/-- ROW_BUILD (R113): the next row of a camera, once the slots it takes from have closed. -/
def execRowBuild (cam : Fin 16) (s : State) : Host.Outcome State Fault Refusal :=
  .next (if s.rowDue cam.val then s.rowBuild cam.val else s)

/-- Build the rows that can be built, at most `n`. -/
def State.buildReady (s : State) (c : Nat) : Nat → State
  | 0 => s
  | n + 1 => if s.rowDue c then (s.rowBuild c).buildReady c n else s

/-! ### Line gates (R105, R106) -/

/-- A gate that needs the place of a slot closes it, if it is pending, as MISSING; a slot is read when it closes (R106,
R113), and its place is then taken. -/
def State.reclaim (s : State) (c : Nat) : State :=
  let g := (s.cam c).gates
  let n := s.slotCount c
  let old := (s.cam c).slots.filter (fun e => decide (e.1 + n ≤ g))
  if old.isEmpty then s
  else
    let s := (old.foldl (fun (s : State) e => s.closeSlot c e.2 true) s).buildReady c 256
    s.setCam c { s.cam c with slots := (s.cam c).slots.filter (fun e => decide (g < e.1 + n)) }

/-- LINE_GATE of one camera: the gate takes the next slot; a STREAMING camera is sent a trigger, which its fine delay lets
act at the gate tick plus TRIG_LAT, and for any other the slot closes at once as MISSING (R105-R107). -/
def State.lineGate (s : State) (c : Nat) : State :=
  let s := (s.closeOverdue c).reclaim c
  let x := s.cam c
  let g := x.gates
  let stream := s.camState c == 4
  let n := if s.kind c = 2 then s.sensorLines c else 1
  let rel := if stream && x.g0.isNone then 0 else x.relNext
  let sl : Slot := {
    gate := g, dtime := s.dtime, wpos := s.pos.wpos, width := s.width c, pad := s.get (R.CXP_CAM_FMT.PAD c)
    depth := s.get (R.CXP_CAM_FMT.DEPTH c), late := s.get (R.CXP_CAM_LATE.LATE_NS c), rel := rel
    lines := List.replicate n {} }
  let s := s.setCam c { x with
    gates := g + 1, slots := keyPut x.slots g sl, gateLog := (⟨g, s.pos.wpos, s.dtime, rel, n⟩ :: x.gateLog).take 4096
    relNext := if stream then rel + n else x.relNext
    g0 := if stream && x.g0.isNone then some g else x.g0
    trigger := if stream then some (s.dtime, s.dtime + s.get (R.CXP_CAM_TRIG_LAT.NS c)) else x.trigger }
  let s := (s.assignGate c g).gateParts c g
  if stream then s else s.closeSlot c sl true

/-! ### Commits (R123, R131, R133) -/

/-- A stream's ring of buffers differs between two states. -/
def ringDiffers (s t : State) (c k : Nat) : Bool :=
  [R.LPIPE_STR_BUF_LO c k, R.LPIPE_STR_BUF_HI c k, R.LPIPE_STR_BUF_CTL c k].any (fun o => s.reg o != t.reg o)

/-- A mark engine's registers differ between two states. -/
def markDiffers (s t : State) (m : Nat) : Bool :=
  [R.LPIPE_MRK_CFG m, R.LPIPE_MRK_WX m, R.LPIPE_MRK_WY m, R.LPIPE_MRK_NOM m, R.LPIPE_MRK_MIN_W m, R.LPIPE_MRK_STEER_MAX m].any
    (fun o => s.reg o != t.reg o)

/-- A stream that a commit enables, or gives another TYPE, begins anew. One that stays enabled goes on, its current strip and crops
with it; what the commit changes of its buffers begins with the next that it takes (log entry 46). -/
def State.streamCommit (s old : State) (c k : Nat) : State :=
  let on (s : State) : Bool := s.lpOn c && decide (s.strType c k ≠ 0)
  if on s && on old && s.strType c k == old.strType c k then
    if ringDiffers s old c k then s.setStream c k { s.stream c k with next := 0 } else s
  else if !on s && !on old then s
  else (s.setStream c k {}).drop (R.LPIPE_STR_STATUS.DROPPING c k)

/-- A commit resets a steering register: what a mark wrote of it on this tick counts no more (R58, R131). -/
def State.resetSteer (s : State) (off : Nat) : State :=
  { s with lp := { s.lp with steerWas := s.lp.steerWas.filter (fun w => w.2.1 != off) } }.setReg off 0

/-- Streams, steering and row counts at a commit. -/
def State.lpCommit (s old : State) : State :=
  let s := (List.range 16).foldl (fun (s : State) c =>
    let s := if s.lpOn c && !old.lpOn c then
      { s with lp := { s.lp with nextRow := setNth s.lp.nextRow c (s.cam c).gates } } else s
    (List.range 8).foldl (fun (s : State) k => s.streamCommit old c k) s) s
  let s := (List.range 1024).foldl (fun (s : State) i =>
    if [R.LPIPE_CROP_CFG i, R.LPIPE_CROP_ROWS i, R.LPIPE_CROP_X i, R.LPIPE_CROP_W i].any (fun o => old.reg o != s.reg o)
        || markDiffers s old (s.get (R.LPIPE_CROP_CFG.MARK i)) then s.resetSteer (R.LPIPE_CROP_STEER i)
    else s) s
  (List.range 256).foldl (fun (s : State) i =>
    if [R.LPIPE_PAT_CFG i, R.LPIPE_PAT_WX i, R.LPIPE_PAT_WY i].any (fun o => old.reg o != s.reg o)
        || markDiffers s old (s.get (R.LPIPE_PAT_CFG.MARK i)) then s.resetSteer (R.LPIPE_PAT_STEER i)
    else s) s

/-- Before a commit disables a stream, or gives it another TYPE, the strips and crops it holds are posted with what they have
(R133). -/
def State.lpEnd (s new : State) : State :=
  (List.range 128).foldl (fun (s : State) n =>
    let c := n / 8
    let k := n % 8
    if s.lpOn c && (!new.lpOn c || s.strType c k != new.strType c k) then
      let s := if s.strType c k == 1 || s.strType c k == 2 then (s.endStrip c k false).postPrev c k else s
      (s.stream c k).crops.foldl (fun (s : State) r => s.endCrop c k r false) s
    else s) s

end Sys2Proof.Machine
end

