-- ==== Sys2Proof/Machine/Ntm.lean ====
section
/-! DEFINITION. Machine/Ntm.lean: network time: its extension to 64 bits, the PTP clock and its servo, the transmit
time-stamps and the time-pulse outputs (spec/22_time_and_loft.md, R459-R467). -/

namespace Sys2Proof.Machine

/-! ### Extension (R462) -/

/-- Firmware reads NTM_NS and brings hi and last_lo up to date (R462). -/
def State.ntmExtend (s : State) : State :=
  let lo := s.ntm.ns
  { s with ntm := { s.ntm with hi := if lo < s.ntm.lastLo then u32 (s.ntm.hi + 1) else s.ntm.hi, lastLo := lo } }

/-- ref of R462. -/
def NtmSt.refTime (n : NtmSt) : Nat := n.hi * 4294967296 + n.lastLo

/-- ext of R462. -/
def NtmSt.ext (n : NtmSt) (ts : Nat) : Nat :=
  toU64 ((n.refTime : Int) + i32 (u32 (ts + 4294967296 - u32 n.refTime)))

/-- NTIME now, as firmware extends it. -/
def State.ntime (s : State) : Nat := s.ntmExtend.ntm.refTime

/-- NTIME_EXTEND (R462). -/
def execNtimeExtend (s : State) : Host.Outcome State Fault Refusal := .next s.ntmExtend

/-- NTM_SNAP_TAKE: NTM_NS and DTIME are latched on one tick; SNAP_DONE reads 0 until firmware has extended them (R462). -/
def State.snapTake (s : State) : State :=
  let s := (s.put64 R.NTM_SNAP_DT_LO.N R.NTM_SNAP_DT_HI.N s.dtime).drop R.NTM_STATUS.SNAP_DONE
  { s with ntm := { s.ntm with snap := some (s.ntm.ns, s.dtime) } }

/-- NTM_SNAP_TAKE (R20's table of the NTM block, R462). -/
def execNtmSnapTake (s : State) : Host.Outcome State Fault Refusal :=
  .next (s.written R.NTM_SNAP_CTL (fun s => s.snapTake))

/-- NTM_SNAP_EXTEND (R462): firmware extends the snapshot. -/
def execNtmSnapExtend (s : State) : Host.Outcome State Fault Refusal :=
  .next (match s.ntm.snap with
    | none => s
    | some (ns, _) =>
      let s := s.ntmExtend
      let s := (s.put64 R.NTM_SNAP_NT_LO.N R.NTM_SNAP_NT_HI.N (s.ntm.ext ns)).raise R.NTM_STATUS.SNAP_DONE
      { s with ntm := { s.ntm with snap := none } })

/-! ### Time-pulse outputs (R466, R467) -/

/-- The base of an output: NTIME or DTIME. -/
def State.tpoBase (s : State) (n : Nat) : Nat := if s.flag (R.NTM_TPO_CFG.BASE n) then s.dtime else s.ntime

/-- Output `n`. -/
def State.tpo (s : State) (n : Nat) : TpoSt := nth s.ntm.tpo n {}

/-- The level of pin TPOn (R466): its active level, which POL gives, while a pulse runs, else the other. -/
def State.tpoLevel (s : State) (n : Nat) : Bool := (s.tpo n).active == s.flag (R.NTM_TPO_CFG.POL n)

/-- Replace output `n`; NTM_TPOn_STATUS.ARMED shows whether a target is awaited. -/
def State.setTpo (s : State) (n : Nat) (t : TpoSt) : State :=
  { s with ntm := { s.ntm with tpo := setNth s.ntm.tpo n t } }.putFlag (R.NTM_TPO_STATUS.ARMED n) t.armed

/-- Targets missed (R467). -/
def State.tpoMissed (s : State) (n k : Nat) : State :=
  if k = 0 then s else (s.bumpBy (R.NTM_TPO_STATUS.MISSED n) k).latch (R.NTM_TPO_STATUS.MISS_SEEN n)

/-- The output goes on from target `t`: those already passed are missed, and with MODE 1 it continues at the first one
that is not (R467). -/
def State.tpoFrom (s : State) (n t : Nat) : State :=
  let now := s.tpoBase n
  let x := s.tpo n
  if now < t then s.setTpo n { x with armed := true, target := t }
  else if !s.flag (R.NTM_TPO_CFG.MODE n) then (s.tpoMissed n 1).setTpo n { x with armed := false, target := t }
  else
    let p := s.get (R.NTM_TPO_PERIOD.N n)
    let k := (now - t) / p + 1
    (s.tpoMissed n k).setTpo n { x with armed := true, target := t + k * p }

/-- START is latched, or the output is enabled (R467). -/
def State.tpoStart (s : State) (n : Nat) : State :=
  if s.flag (R.NTM_TPO_CFG.ENABLE n) then s.tpoFrom n (s.get64 (R.NTM_TPO_START_LO.N n) (R.NTM_TPO_START_HI.N n))
  else s.setTpo n { s.tpo n with armed := false }

/-- A commit changed ENABLE, MODE or BASE of an output: one enabled, or with another mode or base, starts afresh (R467, log
entry 33). -/
def State.tpoCommit (s old : State) : State :=
  (List.range 4).foldl (fun (s : State) n =>
    if [R.NTM_TPO_CFG.ENABLE n, R.NTM_TPO_CFG.MODE n, R.NTM_TPO_CFG.BASE n].all (fun f => old.flag f == s.flag f) then s
    else s.tpoStart n) s

/-- TPO_FIRE (R466): the target is reached; with BASE 0 and VALID 0 it is missed (R467). -/
def execTpoFire (n : Fin 4) (s : State) : Host.Outcome State Fault Refusal :=
  let k := n.val
  let x := s.tpo k
  .next (if !s.flag (R.NTM_TPO_CFG.ENABLE k) || !x.armed || decide (s.tpoBase k < x.target) then s
    else
      let dead := !s.flag (R.NTM_TPO_CFG.BASE k) && !s.flag R.NTM_STATUS.VALID
      let s := if dead then s.tpoMissed k 1
        else (s.setTpo k { x with active := true, riseAt := s.dtime, pulseWidth := s.get (R.NTM_TPO_WIDTH.N k) }).bumpWrap
          (R.NTM_TPO_PULSES.N k)
      let x := s.tpo k
      if s.flag (R.NTM_TPO_CFG.MODE k) then s.setTpo k { x with target := x.target + s.get (R.NTM_TPO_PERIOD.N k) }
      else s.setTpo k { x with armed := false })

/-- TPO_PULSE_END (R466): the output returns to its idle level WIDTH after its rising tick. -/
def execTpoPulseEnd (n : Fin 4) (s : State) : Host.Outcome State Fault Refusal :=
  let x := s.tpo n.val
  .next (if x.active && decide (s.dtime ≥ x.riseAt + x.pulseWidth) then s.setTpo n.val { x with active := false } else s)

/-! ### Steps and the servo (R463) -/

/-- A step of NTIME: NTM_NS, hi and last_lo are set together (R462); targets passed by a forward step are missed (R467).
VALID becomes 1 at the first step, and each is counted and recorded. -/
def State.ntmStep (s : State) (d : Int) : State :=
  let t := toU64 ((s.ntime : Int) + d)
  let s := { s with ntm := { s.ntm with ns := t % 4294967296, lastLo := t % 4294967296, hi := t / 4294967296, integ := 0 } }
  let s := ((s.raise R.NTM_STATUS.VALID).bump R.NTM_CNT_STEP.N).loftEvent 0x000E (leBytes 8 (toU64 d))
  let s := s.put R.NTM_STATUS.STATE 8
  if d ≤ 0 then s
  else (List.range 4).foldl (fun (s : State) n =>
    let x := s.tpo n
    if s.flag (R.NTM_TPO_CFG.ENABLE n) && x.armed && !s.flag (R.NTM_TPO_CFG.BASE n) && decide (s.ntime ≥ x.target) then
      s.tpoFrom n x.target
    else s) s

/-- The servo of R463 on the four time-stamps of an exchange. -/
def State.servo (s : State) (t1 t2 t3 t4 : Int) : State :=
  let delay := tdiv ((t2 - t1) + (t4 - t3)) 2
  let o := (t2 - t1) - delay
  let s := ((s.putInt R.NTM_OFFSET.N (sat32 o)).putInt R.NTM_DELAY.N delay).drop R.NTM_STATUS.HOLDOVER
  let st := s.get R.NTM_STATUS.STATE
  let s :=
    if (st ≠ 9 && st ≠ 8) || decide (o.natAbs > 1000000) then s.ntmStep (-o)
    else
      let op := tdiv (o * 1000000000) s.ntm.interval
      let i := clampInt (s.ntm.integ + tdiv op 8) (-500000) 500000
      { s with ntm := { s.ntm with integ := i } }.putInt R.NTM_RATE.N (clampInt (-(tdiv op 2) - i) (-500000) 500000)
  let run := if o.natAbs < 10000 then s.ntm.goodRun + 1 else 0
  let s := { s with ntm := { s.ntm with goodRun := run } }
  if run ≥ 8 then s.put R.NTM_STATUS.STATE 9 else s

/-! ### Messages (R460, R463-R465; the message rules of IEEE 1588 are PRESUMED: log entry 33) -/

/-- The PTP clock runs on a port, over UDP on IPv4 or IPv6, and in a domain. -/
def State.ptpHears (s : State) (port : PtpPort) (domain : Nat) : Bool :=
  s.flag R.NTM_PTP_CFG.ENABLE && s.get R.NTM_PTP_CFG.PORT == port.port.val && s.flag R.NTM_PTP_CFG.IPV6 == port.ipv6
    && s.get R.NTM_PTP_CFG.DOMAIN == domain

/-- 2^n seconds in ns, n being the log interval of a message. -/
def logNs (n : BitVec 8) : Nat :=
  let z := n.toInt
  if z ≥ 0 then 1000000000 * 2 ^ z.toNat else 1000000000 / 2 ^ z.natAbs

/-- A correctionField, in units of 2^-16 ns, as whole ns. -/
def corrNs (c : BitVec 64) : Int := tdiv c.toInt 65536

/-- PTP_SYNC (R463): a Sync of the master is accepted, counted and stamped with NTIME. -/
def execPtpSync (port : PtpPort) (domain : BitVec 8) (source : BitVec 80) (seq : BitVec 16) (twoStep : Bool)
    (origin : BitVec 64) (corr : BitVec 64) (logInterval : BitVec 8) (s : State) : Host.Outcome State Fault Refusal :=
  .next (if !s.ptpHears port domain.toNat || s.ntm.master != some source then s
    else
      let s := s.ntmExtend.bump R.NTM_CNT_SYNC_RX.N
      let t1 : Int := origin.toNat + corrNs corr
      { s with ntm := { s.ntm with
        syncSeq := seq.toNat, twoStep := twoStep, syncCorr := corrNs corr, t1 := if twoStep then none else some t1
        t2 := some (s.ntm.refTime : Nat), lastSync := s.dtime, interval := logNs logInterval } })

/-- PTP_FOLLOW_UP (R460): the master's Sync time of a two-step exchange. -/
def execPtpFollowUp (port : PtpPort) (domain : BitVec 8) (source : BitVec 80) (seq : BitVec 16) (origin : BitVec 64)
    (corr : BitVec 64) (s : State) : Host.Outcome State Fault Refusal :=
  .next (if !s.ptpHears port domain.toNat || s.ntm.master != some source || !s.ntm.twoStep
      || s.ntm.syncSeq != seq.toNat || s.ntm.t2.isNone then s
    else
      let t1 : Int := origin.toNat + s.ntm.syncCorr + corrNs corr
      { s with ntm := { s.ntm with t1 := some t1 } })

/-- PTP_DELAY_RESP (R463, R465): the answer to a Delay_Req whose transmit time-stamp is queued completes the exchange. -/
def execPtpDelayResp (port : PtpPort) (domain : BitVec 8) (source : BitVec 80) (seq : BitVec 16) (receipt : BitVec 64)
    (corr : BitVec 64) (s : State) : Host.Outcome State Fault Refusal :=
  .next (if !s.ptpHears port domain.toNat || s.ntm.master != some source then s
    else match s.ntm.txq.find? (fun e => e.msgType == 1 && e.port == port.port.val && e.seqId == seq.toNat) with
      | none => s
      | some e =>
        let s := { s with ntm := { s.ntm with txq := s.ntm.txq.erase e } }
        match s.ntm.t1, s.ntm.t2 with
        | some t1, some t2 =>
          let s := s.ntmExtend
          let t3 : Int := s.ntm.ext e.ns
          let s := { s with ntm := { s.ntm with t1 := none, t2 := none } }
          s.servo t1 t2 t3 (receipt.toNat - corrNs corr)
        | _, _ => s)

/-- Lexicographic order of data sets: `a` is the better. -/
def betterSet : List Nat → List Nat → Bool
  | [], _ => true
  | _, [] => false
  | a :: as, b :: bs => if a < b then true else if b < a then false else betterSet as bs

/-- One announcing master is better than another (log entry 33): of one grandmaster the one fewer steps away, then the one with
the lower port identity; else by the data sets of their grandmasters. -/
def Foreign.better (f g : Foreign) : Bool :=
  if f.gm = g.gm then betterSet [f.steps, f.clock.toNat] [g.steps, g.clock.toNat] else betterSet f.key g.key

/-- The best of the announcing masters. -/
def bestMaster : List Foreign → Option Foreign
  | [] => none
  | f :: fs => match bestMaster fs with
    | none => some f
    | some g => if f.better g then some f else some g

/-- An announcing master counts (log entry 33): it is heard within ANN_TMO of its intervals, and two of its Announces fell in the
last four. -/
def State.qualified (s : State) (f : Foreign) : Bool :=
  decide (s.dtime ≤ f.heard + s.get R.NTM_PTP_CFG.ANN_TMO * f.interval) && (match f.before with
    | some b => decide (s.dtime ≤ b + 4 * f.interval)
    | none => false)

/-- The announce interval of the current master in ns: 2 s before one is known. -/
def State.announceNs (s : State) : Nat :=
  match s.ntm.foreign.find? (fun f => s.ntm.master == some f.clock) with
  | some f => f.interval
  | none => 2000000000

/-- The master is chosen (R460); another master starts a new exchange, and its grandmaster and UTC offset show. -/
def State.chooseMaster (s : State) : State :=
  let fs := s.ntm.foreign.filter (fun f => decide (s.dtime ≤ f.heard + s.get R.NTM_PTP_CFG.ANN_TMO * f.interval))
  let s := { s with ntm := { s.ntm with foreign := fs } }
  match bestMaster (fs.filter s.qualified) with
  | none => s
  | some f =>
    let s := if s.ntm.master = some f.clock then s
      else { s with ntm := { s.ntm with
        master := some f.clock, t1 := none, t2 := none, twoStep := false, goodRun := 0, lastSync := s.dtime } }
    let s := s.put64 R.NTM_GM_LO.N R.NTM_GM_HI.N f.gm.toNat
    match f.utc with
    | some u => (s.put R.NTM_UTC.OFFSET u.toNat).raise R.NTM_STATUS.UTC_VALID
    | none => s

/-- PTP_ANNOUNCE (R460): an announcing master of the domain feeds the best master clock algorithm; one 255 steps or more from its
grandmaster does not (log entry 33). -/
def execPtpAnnounce (port : PtpPort) (domain : BitVec 8) (source : BitVec 80) (prio1 cls accuracy : BitVec 8)
    (variance : BitVec 16) (prio2 : BitVec 8) (gm : BitVec 64) (steps : BitVec 16) (utc : Option (BitVec 16))
    (logInterval : BitVec 8) (s : State) : Host.Outcome State Fault Refusal :=
  .next (if !s.ptpHears port domain.toNat || decide (255 ≤ steps.toNat) then s
    else
      let f : Foreign := ⟨source, [prio1.toNat, cls.toNat, accuracy.toNat, variance.toNat, prio2.toNat, gm.toNat], gm,
        steps.toNat, utc, logNs logInterval, s.dtime, (s.ntm.foreign.find? (fun g => g.clock == source)).map (·.heard)⟩
      { s with ntm := { s.ntm with foreign := s.ntm.foreign.filter (fun (g : Foreign) => g.clock != source) ++ [f] } }.chooseMaster)

/-- PTP_TX_COMPLETE (R465): the transmit time-stamp of an event message is queued, or meets a full queue. -/
def execPtpTxComplete (port : Fin 2) (msgType : BitVec 4) (seq : BitVec 16) (s : State) :
    Host.Outcome State Fault Refusal :=
  .next (if s.ntm.txq.length < 16 then
      { s with ntm := { s.ntm with txq := s.ntm.txq ++ [⟨port.val, msgType.toNat, seq.toNat, s.ntm.ns, s.dtime⟩] } }
    else
      let s := (s.latch R.NTM_STATUS.TXQ_OVF).bump R.NTM_CNT_TXQ_OVF.N
      { s with ntm := { s.ntm with t1 := none, t2 := none, twoStep := false } })

/-- TXQ_STALE (R465): an entry older than 1 s is removed and counted. -/
def execTxqStale (s : State) : Host.Outcome State Fault Refusal :=
  .next (match s.ntm.txq.find? (fun e => decide (s.dtime > e.at_ + 1000000000)) with
    | none => s
    | some e => { s with ntm := { s.ntm with txq := s.ntm.txq.erase e } }.bump R.NTM_CNT_TXQ_STALE.N)

/-- ANNOUNCE_TIMEOUT (R464): no Sync for ANN_TMO announce intervals. -/
def execAnnounceTimeout (s : State) : Host.Outcome State Fault Refusal :=
  .next (if s.flag R.NTM_PTP_CFG.ENABLE
      && decide (s.dtime ≥ s.ntm.lastSync + s.get R.NTM_PTP_CFG.ANN_TMO * s.announceNs) then
      (s.put R.NTM_STATUS.STATE 4).raise R.NTM_STATUS.HOLDOVER
    else s)

/-- A commit enables or disables the PTP clock: portState LISTENING or DISABLED, with no master and no exchange. -/
def State.ptpCommit (s old : State) : State :=
  if old.reg R.NTM_PTP_CFG = s.reg R.NTM_PTP_CFG then s
  else
    let s := { s with ntm := { s.ntm with
      t1 := none, t2 := none, twoStep := false, goodRun := 0, master := none, foreign := [], lastSync := s.dtime } }
    s.put R.NTM_STATUS.STATE (if s.flag R.NTM_PTP_CFG.ENABLE then 4 else 3)

end Sys2Proof.Machine
end

