-- ==== Sys2Proof/Machine/Power.lean ====
section
/-! DEFINITION. Machine/Power.lean: power states of the quads, the governor, the regulators' alert and the sensors
(spec/21_clocks_power_heat.md, R452-R458). -/

namespace Sys2Proof.Machine

/-! ### Power states (R452-R454) -/

/-- State of quad `q`: 0 RUN, 1 SLEEP, 2 DEEP. -/
def State.quadState (s : State) (q : Nat) : Nat := bits (s.get R.PWR_STATUS.QSTATE) (2 * q + 1) (2 * q)

/-- Set the state of quad `q`. -/
def State.setQuad (s : State) (q v : Nat) : State :=
  s.put R.PWR_STATUS.QSTATE (putBits (s.get R.PWR_STATUS.QSTATE) (2 * q + 1) (2 * q) v)

/-- Quad `q` leaves its state for RUN and runs again `ns` later (R452). -/
def State.wakeQuad (s : State) (q ns : Nat) : State :=
  { s with clk := { s.clk with wakeAt := setNth s.clk.wakeAt q (s.dtime + ns) } }.setQuad q 0

/-- The cores of quad `q`. -/
def quadCores (q : Nat) : List Nat := [4 * q, 4 * q + 1, 4 * q + 2, 4 * q + 3]

/-- A core is idle (R453): no bound job, out of service, or its issuer held by a WAIT record with no command running. -/
def State.coreIdle (s : State) (n : Nat) : Bool :=
  !s.flag (R.CORE_ALLOC.BOUND n) || !s.inService n
    || (match s.list n with
      | some l => l.waiting && l.allDone
      | none => false)

/-- A core belongs to partition `p`. -/
def State.coreOf (s : State) (n p : Nat) : Bool :=
  s.flag (R.STG_PTN_CFG.ENABLE p) && bit (s.get (R.STG_PTN_CORES.CORES p)) n

/-- A real-time quad (R455): a core of it is in the real-time partition. -/
def State.rtQuad (s : State) (q : Nat) : Bool :=
  match s.rtPart with
  | none => false
  | some p => (quadCores q).any (fun n => s.coreOf n p)

/-- The end of the shortest IDLE_FOR hint of a quad, if hints of at least 20 µs cover every core of it (R453): one without a
list has none. -/
def State.hintEnd (s : State) (q : Nat) : Option Nat :=
  let ends := (quadCores q).map (fun n => match s.list n with
    | some l => if l.idleUs ≥ 20 && decide (l.idleUntil > s.dtime) then l.idleUntil else 0
    | none => 0)
  match ends with
  | [] => none
  | e :: es => let m := es.foldl Nat.min e
    if m = 0 then none else some m

/-- QUAD_SLEEP (R453): firmware gates the clock of an idle quad. -/
def execQuadSleep (quad : Fin 4) (s : State) : Host.Outcome State Fault Refusal :=
  let q := quad.val
  .next (if !s.marfinRuns || s.quadState q != 0 || !s.flag (R.PWR_QUAD_CFG.SLEEP_EN q) || !(quadCores q).all (fun n => s.coreIdle n) then s
    else if !s.rtQuad q then s.setQuad q 1
    else match s.flag R.PWR_CFG.HINTS_EN, s.hintEnd q with
      | true, some t => if s.dtime + 2000 < t then s.setQuad q 1 else s
      | _, _ => s)

/-- The head record of a core could issue but for its quad (R242, R453). -/
def State.issuable (s : State) (n : Nat) : Bool :=
  match s.list n with
  | none => false
  | some l =>
    let r := s.recordAt l 0
    let free (u : Unit3) : Bool := !l.unitBusy u && s.larderNormal n
    s.jobState l.job == 2 && !l.waiting && !s.sliceOver l.job && l.depMet (fieldAt r 2 1) && (match fieldAt r 0 1 with
      | 1 => free .matrix && decide (s.dtime ≥ l.idleUntil)
      | 2 => free .vector
      | 3 => free .transfer
      | 5 => l.allDone
      | 9 => l.allDone
      | _ => true)

/-- QUAD_WAKE (R453): 2 µs before the shortest hint of a real-time quad ends, or for a record that could issue. -/
def execQuadWake (quad : Fin 4) (s : State) : Host.Outcome State Fault Refusal :=
  let q := quad.val
  .next (if s.quadState q != 1 then s
    else if s.rtQuad q then
      (match s.hintEnd q with
       | some t => if s.dtime + 2000 ≥ t then s.wakeQuad q 2000 else s
       | none => s.wakeQuad q 2000)
    else if (quadCores q).any (fun n => s.issuable n) then s.wakeQuad q 2000
    else s)

/-- QUAD_DEEP_ENTER (R454): no core of the quad belongs to an enabled partition; its Larders are lost. -/
def execQuadDeepEnter (quad : Fin 4) (s : State) : Host.Outcome State Fault Refusal :=
  let q := quad.val
  .next (if !s.marfinRuns || s.quadState q == 2 || !s.flag (R.PWR_QUAD_CFG.DEEP_EN q)
      || (quadCores q).any (fun n => (List.range 8).any (fun p => s.coreOf n p)) then s
    else (quadCores q).foldl (fun (s : State) n => (s.larderZero n).setCore n { s.core n with vacc := [] }) (s.setQuad q 2))

/-- Quads that a commit gives a partition leave DEEP, which takes 200 µs, with the start-up fill of R181 (R452, R454). -/
def State.deepCommit (s : State) : State :=
  (List.range 4).foldl (fun (s : State) q =>
    if s.quadState q = 2 && (quadCores q).any (fun n => (List.range 8).any (fun p => s.coreOf n p)) then
      (quadCores q).foldl (fun (s : State) n => if s.inService n then (s.larderZero n).put (R.CORE_LDR_STATUS.MODE n) 1 else s)
        (s.wakeQuad q 200000)
    else s) s

/-- LARDER_FILL_DONE (R181): a start-up fill or a scrub is complete, and commands may issue again. -/
def execLarderFillDone (core : Fin 16) (s : State) : Host.Outcome State Fault Refusal :=
  let n := core.val
  let m := s.get (R.CORE_LDR_STATUS.MODE n)
  .next (if (m = 1 && s.quadRuns n) || (m = 3 && s.inService n) then s.put (R.CORE_LDR_STATUS.MODE n) 0 else s)

/-! ### The governor (R455-R457) -/

/-- Clock of quad `q` in MHz: 800 in a coast (R446), else as the governor set it. -/
def State.freq (s : State) (q : Nat) : Nat := if s.flag R.CLK_STATUS.SRC_LOST then 800 else nth s.clk.freqs q 0

/-- Set the clock of quad `q`; in a coast its loop is open, and the relock returns it to its frequency before (R446, R447). -/
def State.setFreq (s : State) (q mhz : Nat) : State :=
  if s.flag R.CLK_STATUS.SRC_LOST then s
  else { s with clk := { s.clk with freqs := setNth s.clk.freqs q mhz } }.showFreqs

/-- Every quad to 800 MHz. -/
def State.allTo800 (s : State) : State :=
  { s with clk := { s.clk with freqs := [800, 800, 800, 800] } }.showFreqs

/-- One step of 100 MHz down to FMIN. -/
def State.stepDown (s : State) (q : Nat) : State :=
  let m := s.get (R.PWR_QUAD_CFG.FMIN q) * 100
  if s.freq q > m then s.setFreq q (s.freq q - 100) else s

/-- The quads that a throttled sensor lowers (R455, R458): those of its die, every quad for sensors 4 to 8. The regulator area
is on no die. -/
def throttleQuads (sensor : Nat) : List Nat :=
  if sensor < 2 then [0, 1] else if sensor < 4 then [2, 3] else if sensor < 9 then [0, 1, 2, 3] else []

/-- The first of `qs` by `better`. -/
def bestOf (better : Nat → Nat → Bool) : List Nat → Option Nat
  | [] => none
  | q :: qs => match bestOf better qs with
    | none => some q
    | some r => if better r q then some r else some q

/-- The quad to lower: above FMIN; non-real-time first, then highest frequency, then lowest number. -/
def State.lowerChoice (s : State) : Option Nat :=
  bestOf (fun a b => (!s.rtQuad a && s.rtQuad b) || (s.rtQuad a == s.rtQuad b && decide (s.freq a > s.freq b)))
    ((List.range 4).filter (fun q => decide (s.freq q > s.get (R.PWR_QUAD_CFG.FMIN q) * 100)))

/-- The quad to raise: below FMAX; real-time first, then lowest frequency, then lowest number. -/
def State.raiseChoice (s : State) : Option Nat :=
  bestOf (fun a b => (s.rtQuad a && !s.rtQuad b) || (s.rtQuad a == s.rtQuad b && decide (s.freq a < s.freq b)))
    ((List.range 4).filter (fun q => decide (s.freq q < s.get (R.PWR_QUAD_CFG.FMAX q) * 100)))

/-- One period of the governor on an estimate and a predicted step, in mW (R455). -/
def State.govern (s : State) (p predicted : Nat) : State :=
  let hot := (((List.range 11).filter (fun k => nth s.clk.throttled k false)).flatMap throttleQuads).dedup
  let cap := s.get R.PWR_CAP.CAP_W * 1000
  if s.flag R.PWR_STATUS.GOV_FORCED || s.clk.alert || s.clk.alarmed.any id then s.allTo800
  else if !hot.isEmpty then hot.foldl (fun (s : State) q => s.stepDown q) s
  else if !s.flag R.PWR_CFG.GOV_EN then
    (List.range 4).foldl (fun (s : State) q => s.setFreq q (s.get (R.PWR_QUAD_CFG.FMAX q) * 100)) s
  else if p > cap then
    match s.lowerChoice with
    | some q => s.setFreq q (s.freq q - 100)
    | none => s.latch R.PWR_STATUS.CAP_UNMET
  else if p + predicted < cap then
    match s.raiseChoice with
    | some q => s.setFreq q (s.freq q + 100)
    | none => s
  else s

/-- GOVERNOR_TICK (R455): the estimate of input power, the mean that telemetry reports, and the predicted step, in mW. The
governor runs on a Marfin core, so not in recovery (R478). -/
def execGovernorTick (estimate mean predicted : BitVec 32) (s : State) : Host.Outcome State Fault Refusal :=
  .next (if !s.marfinRuns then s
    else
      let s := s.put R.PWR_POWER.MW mean.toNat
      let e := s.clk.energy + mean.toNat
      let s := { s with clk := { s.clk with energy := e } }
      (s.put64 R.PWR_ENERGY_LO.N R.PWR_ENERGY_HI.N (e / 10000)).govern estimate.toNat predicted.toNat)

/-- A commit lowers a quad that runs above its new FMAX, or would run so after the coast. -/
def State.freqCommit (s : State) : State :=
  { s with clk := { s.clk with freqs := ((List.range 4).zip s.clk.freqs).map (fun (e : Nat × Nat) =>
      Nat.min e.2 (s.get (R.PWR_QUAD_CFG.FMAX e.1) * 100)) } }.showFreqs

/-- VR_ALERT (R457): the alert wire asserts; firmware reads the status of every regulator, and one that reports a latched
over-current, over-voltage or under-voltage fault stops the line. Without firmware the wire alone is seen (R478). -/
def execVrAlert (status : List (BitVec 16)) (latched : Bool) (s : State) : Host.Outcome State Fault Refusal :=
  .next (s.onRails (fun s =>
    let s := { s with clk := { s.clk with alert := true } }
    if !s.marfinRuns then s
    else
      let s := ((s.allTo800.latch R.PWR_STATUS.VR_ALERT).raise R.PWR_STATUS.GOV_FORCED).bump R.PWR_CNT_ALERT.N
      let s := s.loftEvent 0x000C ((status.take 16).flatMap (fun w => leBytes 2 w.toNat))
      if latched then (s.latch R.PWR_STATUS.VR_FAULT).lineStop .other else s))

/-- VR_ALERT_DEASSERT (R457): the wire has deasserted and every status has been read. -/
def execVrAlertDeassert (s : State) : Host.Outcome State Fault Refusal :=
  .next ({ s with clk := { s.clk with alert := false } }.drop R.PWR_STATUS.GOV_FORCED)

/-! ### Sensors (R458) -/

/-- Throttle, alarm and trip thresholds of a sensor in °C; the cold plate has an alarm only (R458). -/
def thresholds (sensor : Nat) : Option Int × Int × Option Int :=
  if sensor = 6 || sensor = 7 then (some 85, 95, some 105)
  else if sensor = 9 then (some 110, 120, some 125)
  else if sensor = 10 then (none, 60, none)
  else (some 95, 105, some 115)

/-- A threshold with 2 °C of hysteresis: entered above it, left at 2 °C below. -/
def hysteresis (was : Bool) (t limit : Int) : Bool := if was then decide (t > limit - 2) else decide (t > limit)

/-- One sensor's reading: the register with its peak, and the two conditions. -/
def State.sense (s : State) (k : Nat) (t : BitVec 8) : State :=
  let old := s.get (R.PWR_TEMP.PEAK k)
  let s := s.put (R.PWR_TEMP.TEMP k) t.toNat
  let s := if t.toInt > signed 8 old then s.put (R.PWR_TEMP.PEAK k) t.toNat else s
  let (th, al, _) := thresholds k
  let thr := match th with
    | some l => hysteresis (nth s.clk.throttled k false) t.toInt l
    | none => false
  { s with clk := { s.clk with
    throttled := setNth s.clk.throttled k thr
    alarmed := setNth s.clk.alarmed k (hysteresis (nth s.clk.alarmed k false) t.toInt al) } }

/-- Every quad to 800 MHz by the governor, where it runs (R455, R478). -/
def State.forced800 (s : State) : State := if s.marfinRuns then s.allTo800 else s

/-- THERMAL_SAMPLE (R458): the eleven sensors are read. -/
def execThermalSample (temps : List (BitVec 8)) (s : State) : Host.Outcome State Fault Refusal :=
  .next (s.onRails (fun s =>
    let s := ((List.range 11).zip temps).foldl (fun (s : State) x => s.sense x.1 x.2) s
    let s := s.putFlag R.PWR_STATUS.THROTTLE (s.clk.throttled.any id)
    if s.clk.alarmed.any id then ((s.latch R.PWR_STATUS.ALARM).forced800).lineStop .other else s))

end Sys2Proof.Machine
end

