-- ==== Sys2Proof/Machine/Sequencer.lean ====
section
/-! DEFINITION. Machine/Sequencer.lean: the position sequencer: tracks, the order in which entries fire, and the actions
(spec/03_position_sequencer.md, R54-R67, R508). A command of the table names an action; it fires the entry that is next on
this tick if that entry has the action, and changes nothing otherwise. -/

namespace Sys2Proof.Machine

/-! ### Tracks and heads (R56, R57) -/

/-- First index and length of a track. -/
def State.trackRange (s : State) (t : Nat) : Nat × Nat :=
  if t < 56 then (s.get (R.PSQ_TRK_CFG.BASE t), s.get (R.PSQ_TRK_CFG.LEN t)) else (57344 + (t - 56) * 1024, 1024)

/-- Entries of a track, by index. -/
def State.trackEntries (s : State) (t : Nat) : List (Nat × SeqEntry) :=
  let r := s.trackRange t
  s.seq.entries.filter (fun e => decide (r.1 ≤ e.1) && decide (e.1 < r.1 + r.2))

/-- The head of a track (R57): the valid entry with the least next position, of equals the one with the lower index. -/
def State.head (s : State) (t : Nat) : Option (Nat × SeqEntry) :=
  ((s.trackEntries t).filter (fun e => e.2.valid)).foldl (fun (b : Option (Nat × SeqEntry)) e => match b with
    | none => some e
    | some h => if e.2.x < h.2.x then some e else some h) none

/-- The sequencer runs (PSQ_STATUS.RUNNING). -/
def State.seqRuns (s : State) : Bool := s.flag R.PSQ_CTL.ENABLE && !s.flag R.POS_STATUS.POS_LOST

/-- Tracks that have fired on this tick. -/
def State.firedNow (s : State) : List Nat := if s.seq.firedTick = s.dtime then s.seq.fired else []

/-- The next entry to fire on this tick (R57, R58): of the heads whose position has been passed, in tracks that have not
fired on it, the least in action, then track. A commit that applies on this tick comes before any of them. -/
def State.nextDue (s : State) : Option (Nat × Nat × SeqEntry) :=
  if !s.seqRuns || s.commitDue.isSome then none
  else
    let due := ((List.range 64).filter (fun t => !s.firedNow.contains t)).filterMap (fun t => match s.head t with
      | some (k, e) => if e.x ≤ s.pos.wpos then some (t, k, e) else none
      | none => none)
    due.foldl (fun (b : Option (Nat × Nat × SeqEntry)) d => match b with
      | none => some d
      | some h => if d.2.2.action < h.2.2.action then some d else some h) none

/-- An entry after a firing (R55). -/
def SeqEntry.advance (e : SeqEntry) : SeqEntry :=
  if !e.repeats then { e with valid := false, n := u32 (e.n + 1) }
  else
    let f := u32 (e.xf + e.pitchFrac)
    let n := u32 (e.n + 1)
    { e with x := u64 (e.x + e.pitch + f / 65536), xf := f % 65536, n := n
             valid := !(decide (e.count ≠ 0) && n == e.count) }

/-- Count the slips of a track (R57): entries of it that are due and wait for the next tick. -/
def State.slips (s : State) (t : Nat) : State :=
  let n := ((s.trackEntries t).filter (fun e => e.2.valid && decide (e.2.x ≤ s.pos.wpos))).length
  if n = 0 then s else (s.bumpBy R.PSQ_CNT_SLIP.N n).latch R.PSQ_STATUS.SLIP

/-- The entry of track `t` fires: it advances, a part track's entry goes, and the track has fired on this tick. -/
def State.firing (s : State) (t k : Nat) (e : SeqEntry) : State :=
  let s := if t < 56 then s.setEntry k e.advance else s.delEntry k
  let s := { s with seq := { s.seq with fired := t :: s.firedNow, firedTick := s.dtime } }
  s.slips t

/-- Fire the next entry of this tick if its action is `a`. -/
def State.fire (s : State) (a : Nat) (act : State → SeqEntry → State) : State :=
  match s.nextDue with
  | none => s
  | some (t, k, e) => if e.action = a then (act (s.firing t k e) e).settle else s

/-! ### Parts (R61-R66) -/

/-- A part stops being OPEN (R62): a part whose decimated rows or captured rows are complete goes on at once. -/
def State.closePart (s : State) (i : Nat) : State :=
  let p := s.part i
  let s := s.setPart i { p with core := { p.core with state := .closed } }
  (s.captureClose i).sdgEnqueue

/-- A part still OPEN at its DECISION closes, and the lines gated on that tick are not its own (R62). DESIGN CHOICE (log entry
13): where such a line has closed as MISSING on its gate tick, the part stays incomplete under R112, for it was OPEN then. -/
def State.closeAtDecision (s : State) (i : Nat) : State :=
  let p := s.part i
  let s := if p.vd.gateTick = s.dtime then
      s.setPart i { p with vd := { p.vd with gates := p.vd.gates.take p.vd.gatesBefore } } else s
  s.closePart i

/-- Lanes of a PART_OPEN or PART_CLOSE entry. -/
def SeqEntry.lanes (e : SeqEntry) : List Nat :=
  (List.range (bits e.param 14 8)).map (fun k => bits e.param 5 0 + k)

/-- PART_CLOSE (R62). -/
def State.partClose (s : State) (e : SeqEntry) : State :=
  e.lanes.foldl (fun s m => match s.openOf m with
    | some i => s.closePart i
    | none => s.bump R.PSQ_CNT_CLOSE_NONE.N) s

/-- The lowest free part-table entry whose part list has ended, else the lowest free one (log entry 23). -/
def State.freeEntry (s : State) : Option Nat :=
  let free := (List.range 4096).filter (fun i => match keyGet s.seq.parts i with
    | some p => p.core.state == .free
    | none => true)
  (free.find? (fun i => (s.list (16 + i)).isNone)).or free.head?

/-- The lowest two free indices of a part track. -/
def State.trackRoom (s : State) (m : Nat) : Option (Nat × Nat) :=
  let b := 57344 + m % 8 * 1024
  match (List.range 1024).filter (fun k => (keyGet s.seq.entries (b + k)).isNone) with
  | x :: y :: _ => some (b + x, b + y)
  | _ => none

/-- A part-track entry that the sequencer writes. -/
def partEntry (x action part : Nat) : SeqEntry :=
  { wpos := x, valid := true, action := action, param := part, defValid := true, x := x }

/-- The values copied into a part at PART_OPEN (R61, R389, R404, R240). -/
def State.newPart (s : State) (m x dk ek : Nat) : Part :=
  let job := s.rtJob
  let pr := job.bind (fun j => (s.job j).pair)
  let cols := (s.reg (R.PSQ_LANE_COLS m)).toNat
  let cam := colsCamera cols
  { core := {
      id := s.get R.PART_NEXT_ID.ID, origin := x, lane := m, state := .opened
      channel := s.get (R.PSQ_LANE_CFG.CHANNEL m)
      decOff := s.get (R.PSQ_LANE_DEC_OFF.N m), onOff := s.get (R.PSQ_LANE_ON_OFF.N m), offOff := s.get (R.PSQ_LANE_OFF_OFF.N m)
      decIdx := dk, ejectIdx := ek, job := job.getD 0 }
    vd := {
      cols := cols
      sdgCfg := (s.reg (R.SDG_LANE_CFG m)).toNat
      sdgRef := s.get64 (R.SDG_LANE_REF_LO.N m) (R.SDG_LANE_REF_HI.N m)
      sdgGeom := (s.reg (R.SDG_LANE_REF_GEOM m)).toNat
      faultMark := s.sdg.kalFailed.contains cam || s.lp.badTables.contains cam
      proof := match s.sdg.proof with
        | some (l, md) => if l = m then md else 0
        | none => 0
      imageDigest := (pr.map (·.image.digest)).getD []
      weightDigest := (pr.map (·.weights.digest)).getD [] } }

/-- Start the part list of the map in force for a part (R253). -/
def State.startPartList (s : State) (i : Nat) : State :=
  match s.rtJob with
  | none => s
  | some j => match s.jobMap j, (s.job j).pair with
    | some m, some p => s.setList (16 + i) { job := j, pair := p, kind := .part i, pc := m.partList }
    | _, _ => s

/-- PART_OPEN of one lane (R61, R64). -/
def State.openLane (s : State) (m x : Nat) : State :=
  if !s.flag (R.PSQ_LANE_CFG.ENABLE m) then s
  else
    let s := match s.openOf m with
      | some i => s.closePart i
      | none => s
    match s.freeEntry, s.trackRoom m with
    | some i, some (dk, ek) =>
      let p := s.newPart m x dk ek
      let s := s.put R.PART_NEXT_ID.ID (u32 (p.core.id + 1))
      let s := if p.vd.proof ≠ 0 then ({ s with sdg := { s.sdg with proof := none } }).setReg R.SDG_PROOF 0 else s
      let s := (s.setEntry dk (partEntry (u64 (x + p.core.decOff)) 6 i)).setEntry ek (partEntry (u64 (x + p.core.onOff)) 7 i)
      (((s.forget i).setPart i p).captureTake i |>.measOpen i).startPartList i
    | _, _ => ((s.bump R.PSQ_CNT_PART_OVF.N).latch R.PSQ_STATUS.PART_FULL).lineStop .sequencer

/-- PART_OPEN (R61): a part boundary of the real-time job comes first (R255). -/
def State.partOpen (s : State) (e : SeqEntry) : State :=
  let s := match s.rtJob with
    | some j => s.partBoundary j
    | none => s
  e.lanes.foldl (fun s m => s.openLane m e.x) s

/-! ### The actions -/

/-- NOP entry (R59). -/
def execNop (s : State) : Host.Outcome State Fault Refusal := .next (s.fire 0 (fun s _ => s))

/-- PART_CLOSE entry (R62). -/
def execPartClose (s : State) : Host.Outcome State Fault Refusal := .next (s.fire 1 (fun s e => s.partClose e))

/-- PART_OPEN entry (R61). -/
def execPartOpen (s : State) : Host.Outcome State Fault Refusal := .next (s.fire 2 (fun s e => s.partOpen e))

/-- Cameras of a mask. -/
def camMask (e : SeqEntry) : List Nat := setBits 16 e.param

/-- LINE_GATE entry (R105). -/
def execLineGate (s : State) : Host.Outcome State Fault Refusal :=
  .next (s.fire 3 (fun s e => (camMask e).foldl (fun s c => s.lineGate c) s))

/-- STRIP_CUT entry (R132). -/
def execStripCut (s : State) : Host.Outcome State Fault Refusal :=
  .next (s.fire 4 (fun s e => (camMask e).foldl (fun s c => if s.lpOn c then s.stripCut c else s) s))

/-- ROI_APPLY entry (R129). -/
def execRoiApply (s : State) : Host.Outcome State Fault Refusal := .next (s.fire 5 (fun s e => s.roiApply (bits e.param 15 0)))

/-- DECISION entry (R67): a part still OPEN is closed by it (R62). -/
def execDecision (s : State) : Host.Outcome State Fault Refusal :=
  .next (s.fire 6 (fun s e =>
    let i := bits e.param 11 0
    let s := if (s.part i).core.state == .opened then s.closeAtDecision i else s
    if (s.part i).core.state.undecided then s.decide_ i else s))

/-- EJECT_PASS entry (R73). -/
def execEjectPass (s : State) : Host.Outcome State Fault Refusal := .next (s.fire 7 (fun s e => s.ejectPass (bits e.param 11 0)))

/-- PULSE entry (R508). -/
def execPulse (s : State) : Host.Outcome State Fault Refusal :=
  .next (s.fire 8 (fun s e => s.offer (bits e.param 3 0)
    { owner := none, onPos := u64 (e.x + bits e.param 63 36 * 1000), offPos := none, width := bits e.param 35 16 * 1000
      fired := some s.dtime }))

/-- SELFTEST_WIN entry (R401): the window is offered; windows that have ended are forgotten. -/
def execSelftestWin (s : State) : Host.Outcome State Fault Refusal :=
  .next (s.fire 9 (fun s e => { s with seq := { s.seq with
    windows := s.seq.windows.filter (fun w => decide (s.pos.wpos < w.2.1 + w.2.2 * 1000))
      ++ [(bits e.param 15 0, e.x, bits e.param 63 32)] } }))

/-- SIGNAL entry (R338). -/
def execSignal (s : State) : Host.Outcome State Fault Refusal := .next (s.fire 10 (fun s e => s.expireDue.positionEvent (bits e.param 13 0) e.x))

/-- LOFT_MARK entry (R59): an event with the value and the entry's TAG. -/
def execLoftMark (s : State) : Host.Outcome State Fault Refusal :=
  .next (s.fire 11 (fun s e => s.loftEvent 1 (leBytes 2 (bits e.param 15 0) ++ leBytes 2 e.tag)))

/-! ### Read windows (R54, R66) -/

/-- The 32 bytes of an entry (R54). -/
def SeqEntry.bytes (e : SeqEntry) (pos : Nat) (valid : Bool) : List Byte :=
  leBytes 8 pos ++ leBytes 4 e.pitch ++ leBytes 2 e.pitchFrac
    ++ leBytes 2 ((if valid then 1 else 0) + if e.repeats then 2 else 0)
    ++ leBytes 4 e.count ++ leBytes 1 e.action ++ leBytes 1 0 ++ leBytes 2 e.tag ++ leBytes 8 e.param

/-- An entry from its 32 bytes. -/
def SeqEntry.ofBytes (b : List Byte) : SeqEntry :=
  let fl := fieldAt b 14 2
  { wpos := fieldAt b 0 8, pitch := fieldAt b 8 4, pitchFrac := fieldAt b 12 2, valid := bit fl 0, repeats := bit fl 1
    count := fieldAt b 16 4, action := fieldAt b 20 1, tag := fieldAt b 22 2, param := fieldAt b 24 8, defValid := bit fl 0
    x := fieldAt b 0 8 }

/-- Put 32 bytes into eight registers. -/
def State.putWindow (s : State) (reg : Nat → Nat) (bs : List Byte) : State :=
  (List.range 8).foldl (fun (s : State) k => s.setReg (reg k) (BitVec.ofNat 32 (fieldAt bs (4 * k) 4))) s

/-- PSQ_TBL_READ (R54): the active entry with its next position x in the place of WPOS (log entry 24). -/
def State.psqTblRead (s : State) (k : Nat) : State :=
  let e := s.entry k
  (s.put R.PSQ_TBL_IDX.INDEX k).putWindow R.PSQ_TBL_DATA (e.bytes e.x e.valid)

/-- PSQ_TBL_READ. -/
def execPsqTblRead (index : BitVec 16) (s : State) : Host.Outcome State Fault Refusal :=
  .next (s.written R.PSQ_TBL_IDX (fun s => s.psqTblRead index.toNat))

/-- The 32 bytes of a part-table entry (R66). -/
def Part.bytes (p : Part) : List Byte :=
  let c := p.core
  leBytes 4 c.id ++ leBytes 8 c.origin ++ leBytes 1 c.lane ++ leBytes 1 c.state.code ++ leBytes 1 (c.verdict.getD 255)
    ++ leBytes 1 c.flags ++ leBytes 2 c.tag ++ leBytes 1 c.channel ++ leBytes 1 0 ++ leBytes 4 (toU32 c.residual)
    ++ leBytes 8 c.onDtime

/-- PART_WIN_READ (R66). -/
def State.partWinRead (s : State) (i : Nat) : State :=
  (s.put R.PART_WIN_IDX.INDEX i).putWindow R.PART_WIN_DATA (s.part i).bytes

/-- PART_WIN_READ. -/
def execPartWinRead (index : BitVec 12) (s : State) : Host.Outcome State Fault Refusal :=
  .next (s.written R.PART_WIN_IDX (fun s => s.partWinRead index.toNat))

/-! ### Commits (R60, R63) -/

/-- The definitions of the program tracks in the stage: those in force as they were written, under what SEQ_WRITE has
staged. -/
def State.stagedEntries (s : State) : List (Nat × SeqEntry) :=
  let cur := (s.seq.entries.filter (fun e => decide (e.1 < 57344))).map (fun e => (e.1, { e.2 with valid := e.2.defValid }))
  s.stage.seq.foldl (fun acc e => keyPut acc e.1 e.2) cur

/-- Place a new entry (R60): `before` is WPOS on the tick before the commit, none at a REZERO (R41). None where it is
discarded as stale. -/
def SeqEntry.place (e : SeqEntry) (before : Option Nat) : Option SeqEntry :=
  let e0 := { e with x := e.wpos, xf := 0, n := 0, valid := true }
  match before with
  | none => some e0
  | some w =>
    if w < e.wpos then some e0
    else if !e.repeats then none
    else
      let p := e.pitch * 65536 + e.pitchFrac
      let k := ceilDiv ((w - e.wpos + 1) * 65536) p
      some { e with
        x := u64 (e.wpos + k * p / 65536), xf := k * p % 65536, n := u32 k
        valid := decide (e.count = 0) || decide (k < e.count) }

/-- The program tracks of the stage replace the active ones (R60); an entry in no track stays as it is defined. -/
def State.replaceTracks (s : State) (before : Option Nat) : State :=
  let inTrack (k : Nat) : Bool := (List.range 56).any (fun t =>
    let r := s.trackRange t
    decide (r.1 ≤ k) && decide (k < r.1 + r.2))
  let out := s.seq.entries.filter (fun e => decide (57344 ≤ e.1))
  let (es, n) := s.stagedEntries.foldl (fun (a : List (Nat × SeqEntry) × Nat) e =>
    if !e.2.defValid || !inTrack e.1 then (keyPut a.1 e.1 e.2, a.2)
    else match e.2.place before with
      | some x => (keyPut a.1 e.1 x, a.2)
      | none => (keyPut a.1 e.1 { e.2 with valid := false }, a.2 + 1)) (out, 0)
  ({ s with seq := { s.seq with entries := es } }).bumpBy R.PSQ_CNT_STALE.N n

/-- Move a part's entry, where it still stands (R63). -/
def State.moveEntry (s : State) (k : Nat) (e : SeqEntry) : State :=
  match keyGet s.seq.entries k with
  | some old => if old.action == e.action && old.param == e.param then s.setEntry k e else s
  | none => s

/-- REAPPLY (R63): parts OPEN or CLOSED take the new offsets of their lane and their entries move. -/
def State.reapply (s : State) : State :=
  let s := (s.liveParts.filter (fun i => (s.part i).core.state.undecided)).foldl (fun (s : State) i =>
    let p := s.part i
    let m := p.core.lane
    let c := { p.core with
      decOff := s.get (R.PSQ_LANE_DEC_OFF.N m), onOff := s.get (R.PSQ_LANE_ON_OFF.N m), offOff := s.get (R.PSQ_LANE_OFF_OFF.N m) }
    let s := s.setPart i { p with core := c }
    (s.moveEntry c.decIdx (partEntry (u64 (c.origin + c.decOff)) 6 i)).moveEntry c.ejectIdx
      (partEntry (u64 (c.origin + c.onOff)) 7 i)) s
  s.drop R.PSQ_CTL.REAPPLY

/-- The commit's effect on the sequencer (R60, R63); `rezero` tells that the stage sets POS_CTL.REZERO. -/
def State.seqCommit (s old : State) (rezero : Bool) : State :=
  let cfg := (List.range 56).any (fun t => old.reg (R.PSQ_TRK_CFG t) != s.reg (R.PSQ_TRK_CFG t))
  let s := if s.stage.seqTouched || cfg || rezero then
      s.replaceTracks (if rezero then none else some old.pos.wposBefore)
    else s
  if s.flag R.PSQ_CTL.REAPPLY then s.reapply else s

end Sys2Proof.Machine
end

