-- ==== Sys2Proof/Machine/Opcodes.lean ====
section
/-! DEFINITION. Machine/Opcodes.lean: the opcodes that move memory, fill the stage, and reach cameras and sync objects
(spec/16_client_rings.md, R358; spec/17_staging_commit.md, R379-R381). -/

namespace Sys2Proof.Machine

/-! ### Module memory -/

/-- MEM_READ (R358). An address that does not resolve gives BAD_PARAM (log entry 34). -/
def execMemRead (ring : Fin 8192) (index : BitVec 32) (s : State) : Host.Outcome State Fault Refusal :=
  .next (match s.startedAs ring.val index.toNat 0x03 with
    | none => s
    | some d =>
      let a := d.param 24 8
      if !s.reachable .firmware a d.len then s.complete d .badParam 0
      else match s.load .firmware a d.len with
        | (.ok, bs, s) => (s.dataOut d bs).complete d .ok 0
        | (_, _, s) => s.complete d .parity 0)

/-- MEM_WRITE (R358). -/
def execMemWrite (ring : Fin 8192) (index : BitVec 32) (s : State) : Host.Outcome State Fault Refusal :=
  .next (match s.startedAs ring.val index.toNat 0x04 with
    | none => s
    | some d =>
      let a := d.param 24 8
      if !s.reachable .firmware a d.len then s.complete d .badParam 0
      else match s.store .firmware a d.data with
        | (.ok, s) => s.complete d .ok 0
        | (_, s) => s.complete d .parity 0)

/-! ### Staging descriptors (R379-R381) -/

/-- Opcodes that act on the stage: IMAGE_LOAD, SEQ_WRITE, LPIPE_TABLE, SET_LOAD, JOB_CTL, NET_SET, ALLOW_LOAD. -/
def stagingOp (op : Nat) : Bool := [0x10, 0x11, 0x12, 0x13, 0x20, 0x40, 0x41].contains op

/-- The staging descriptor (ring, index), if the stage is not frozen, no freeze has ended on this tick, and it is the first
started one: staging descriptors take effect in start order (R381). -/
def State.stagingAs (s : State) (ring index op : Nat) : Option Started :=
  if s.flag R.STG_STATUS.FROZEN || s.stage.thawed == some s.dtime then none
  else match s.client.started.find? (fun d => stagingOp d.op) with
    | none => none
    | some d => if d.ring == ring && d.index == index && d.op == op then some d else none

/-- Replace what the stage holds. -/
def State.setStage (s : State) (x : StageSt) : State := { s with stage := x }

/-- IMAGE_LOAD of a program image (R258, R358, R380). -/
def execImageLoadProgram (ring : Fin 8192) (index : BitVec 32) (s : State) : Host.Outcome State Fault Refusal :=
  .next (match (s.stagingAs ring.val index.toNat 0x10).filter (fun d => d.param 24 1 == 0) with
    | none => s
    | some d => match imageStatus d.signers d.data with
      | some e => s.complete d e 0
      | none =>
        let (st, s) := s.stageImage (d.param 25 1) d.data
        s.complete d st 0)

/-- IMAGE_LOAD of a weight set (R238, R358, R380). -/
def execImageLoadWeights (ring : Fin 8192) (index : BitVec 32) (s : State) : Host.Outcome State Fault Refusal :=
  .next (match (s.stagingAs ring.val index.toNat 0x10).filter (fun d => d.param 24 1 == 1) with
    | none => s
    | some d =>
      if !weightsOk d.data then s.complete d .imgFormat 0
      else
        let (st, s) := s.stageWeights (d.param 25 1) d.data
        s.complete d st 0)

/-- A reference image is in the stage. -/
def State.stageRef (s : State) (x : RefImage) : State :=
  s.setStage { s.stage with refs := s.stage.refs.filter (fun r => !(r.job == x.job && r.slot == x.slot)) ++ [x] }

/-- A reference image of job `j` for `slot` fits at `dest` (R291, R380): within the job's image area, and clear of every other
copy held there. -/
def State.refFits (s : State) (j slot dest n : Nat) : Bool :=
  let t := s.withStage
  let area := t.areaOf (t.jobPart j)
  decide (area.1 ≤ dest) && decide (dest + n ≤ area.1 + area.2) && s.reachable .firmware dest n
    && (s.areaUsed (.ref j slot)).all (fun u => apart u (dest, n))

/-- The decode budget of an IMAGE_LOAD (R358): BUDGET, or ADP_IN_BUDGET where it is 0. -/
def State.loadBudget (s : State) (d : Started) : Nat :=
  if d.param 48 4 = 0 then s.get R.ADP_IN_BUDGET.N else d.param 48 4

/-- IMAGE_LOAD of a reference image (R291, R358): its decode takes `cost.cycles`, and where that reaches the budget ends after it
has written `cost.written` samples. -/
def execImageLoadReference (ring : Fin 8192) (index : BitVec 32) (cost : DecodeCost) (s : State) :
    Host.Outcome State Fault Refusal :=
  .next (match (s.stagingAs ring.val index.toNat 0x10).filter (fun d => d.param 24 1 == 2) with
    | none => s
    | some d =>
      let j := d.param 25 1
      let dest := d.param 32 8
      let n := d.param 40 4
      if !s.refFits j (d.param 26 1) dest n then s.complete d .stageFull 0
      else
        let x := decodeSample (fileFormat d.data) d.data n (d.param 44 2) (d.param 46 2)
        let late := x.status = .ok || x.status = .shortData || x.status = .corrupt
        let x : SampleOut := if late && decide (s.loadBudget d ≤ cost.cycles.toNat) then
            { x with status := .timedOut, writes := x.writes.take cost.written.toNat }
          else x
        let (ok, s) := s.storeAll .inputPipe dest x.writes
        if !ok then s.complete d .parity 0
        else
          let s := match x.status with
            | .ok => s.stageRef ⟨j, d.param 26 1, dest, n, false⟩
            | .shortData => s.stageRef ⟨j, d.param 26 1, dest, n, true⟩
            | _ => s
          s.complete d x.status.status 0)

/-- SEQ_WRITE (R60, R358): entries FIRST onward of the staged program tracks. -/
def execSeqWrite (ring : Fin 8192) (index : BitVec 32) (s : State) : Host.Outcome State Fault Refusal :=
  .next (match s.stagingAs ring.val index.toNat 0x11 with
    | none => s
    | some d =>
      let es := (List.range (d.data.length / 32)).map (fun i =>
        (d.param 24 2 + i, SeqEntry.ofBytes (sliceBytes d.data (32 * i) 32)))
      let st := s.stage
      (s.setStage { st with seqTouched := true, seq := es.foldl (fun a e => keyPut a e.1 e.2) st.seq }).complete d .ok 0)

/-- Values of a correction table from its data: u16 per column, or one bit per column (R358). -/
def tableValues (table n : Nat) (bs : List Byte) : List Nat :=
  if table = 2 then (List.range n).map (fun i => if bit (fieldAt bs (i / 8) 1) (i % 8) then 1 else 0)
  else (List.range n).map (fun i => fieldAt bs (2 * i) 2)

/-- LPIPE_TABLE (R123, R358): LEN must be the size that the staged WIDTH and SENSOR_LINES give. -/
def execLpipeTable (ring : Fin 8192) (index : BitVec 32) (s : State) : Host.Outcome State Fault Refusal :=
  .next (match s.stagingAs ring.val index.toNat 0x12 with
    | none => s
    | some d =>
      let c := d.param 24 1
      let k := d.param 25 1
      let t := s.withStage
      let n := t.width c * t.sensorLines c
      if d.len ≠ s.tableLen d then s.complete d .badLen 0
      else
        let ts := s.stage.tables.filter (fun x => !(x.1 == c && x.2.1 == k))
        (s.setStage { s.stage with tables := ts ++ [(c, k, tableValues k n d.data)] }).complete d .ok 0)

/-! ### SET_LOAD (R220-R226, R358) -/

/-- The memory of the copies of a set that this module holds (R226). -/
def State.setRanges (s : State) (c : List Nat) : List (Nat × Nat) :=
  if cfgFabric c then
    ((List.range 256).filter (fun z => s.shardPrimary c z == s.myId || s.shardReplica c z == s.myId)).map (fun z =>
      (bucketAddr c (s.shardSlot c z) 0, cfgBuckets c * 64))
  else [(cfgBase c, 256 * cfgBuckets c * 64)]

/-- That memory overlaps a set in force. -/
def State.setActive (s : State) (c : List Nat) : Bool :=
  (List.range 16).any (fun k =>
    let f := s.setCfg k
    cfgEnabled f && (s.setRanges f).any (fun a => (s.setRanges c).any (fun b => !apart a b)))

/-- The set entry that a SET_LOAD names, in the stage. -/
def State.loadCfg (s : State) (d : Started) : List Nat := s.withStage.setCfg (d.param 24 1)

/-- Firmware reads the shard maps of those of some set entries that have one (R310), up to one that it cannot read. -/
def State.mapsRead (s : State) : List (List Nat) → MemRes × State
  | [] => (.ok, s)
  | c :: cs =>
    if !cfgFabric c then s.mapsRead cs
    else match s.load .firmware (cfgMap c) 1024 with
      | (.ok, _, s) => s.mapsRead cs
      | (r, _, s) => (r, s)

/-- A SET_LOAD on the memory of the set that it names (R358): firmware reads the maps of that set and of the sets in force; a set
that is in force there is not loaded; else the load `f` runs. A map out of reach gives BAD_PARAM (log entry 34), a hard fault
PARITY (R314). -/
def State.loading (s : State) (d : Started) (f : State → List Nat → State) : State :=
  let c := s.loadCfg d
  match s.mapsRead (c :: ((List.range 16).map s.setCfg).filter cfgEnabled) with
  | (.ok, s) => if s.setActive c then s.complete d .setActive 0 else f s c
  | (.range, s) => s.complete d .badParam 0
  | (.parity, s) => s.complete d .parity 0

/-- Every byte of the copies resolves. -/
def State.setReach (s : State) (c : List Nat) : Bool := (s.setRanges c).all (fun r => s.reachable .firmware r.1 r.2)

/-- Write 0 over the words of a range within one 4 KiB granule: an access to an unusable page fails (R317). -/
def State.zeroPiece (s : State) (a n : Nat) : Bool × State :=
  match s.resolve .firmware a with
  | none => (false, s)
  | some h =>
    if s.unusable h then (false, s.hardFault .firmware a h)
    else
      let p := s.phys h
      (true, { s with
        mem := s.mem.filter (fun c => !(decide (p ≤ c.1) && decide (c.1 < p + n)))
        cel := { s.cel with bad := s.cel.bad.filter (fun b =>
          b.stuck || !(decide (p ≤ b.word * 4) && decide (b.word * 4 < p + n))) } })

/-- Write 0 over a range: whether every access was done. -/
def State.zeroRange (s : State) (a n : Nat) : Bool × State :=
  (List.range ((a % 4096 + n + 4095) / 4096)).foldl (fun (x : Bool × State) k =>
    let lo := Nat.max a (a / 4096 * 4096 + 4096 * k)
    let hi := Nat.min (a + n) (a / 4096 * 4096 + 4096 * (k + 1))
    let y := x.2.zeroPiece lo (hi - lo)
    (x.1 && y.1, y.2)) (true, s)

/-- The ranges, taken one after another, cover every byte from `a` to `e - 1`. -/
def covered (rs : List (Nat × Nat)) (e : Nat) : Nat → Nat → Bool
  | 0, a => decide (e ≤ a)
  | f + 1, a => decide (e ≤ a) || (match rs.find? (fun r => decide (r.1 ≤ a) && decide (a < r.1 + r.2)) with
    | some r => covered rs e f (r.1 + r.2)
    | none => false)

/-- A set load has written `n` bytes from `a`: a doubtful copy that set loads have replaced as a whole is so no longer
(R318). -/
def State.reloaded (s : State) (a n : Nat) : State :=
  let ds := s.cel.doubtful.map (fun d =>
    if a < d.base + d.bytes && d.base < a + n then { d with fresh := d.fresh ++ [(a, n)] } else d)
  { s with cel := { s.cel with
    doubtful := ds.filter (fun d => !covered d.fresh (d.base + d.bytes) d.fresh.length d.base) } }

/-- SET_LOAD MODE 0 (R358): raw buckets to OFFSET; beyond the set's memory BAD_PARAM results (log entry 34). -/
def execSetLoadRaw (ring : Fin 8192) (index : BitVec 32) (s : State) : Host.Outcome State Fault Refusal :=
  .next (match (s.stagingAs ring.val index.toNat 0x13).filter (fun d => d.param 25 1 == 0) with
    | none => s
    | some d => s.loading d (fun s c =>
      let a := cfgBase c + d.param 32 8
      if d.param 32 8 + d.len > 256 * cfgBuckets c * 64 || !s.reachable .firmware a d.len then s.complete d .badParam 0
      else match s.store .firmware a d.data with
        | (.ok, s) => (s.reloaded a d.data.length).complete d .ok 0
        | (_, s) => s.complete d .parity 0))

/-- Insert one entry (R223): inserted, skipped, no room, or a failing memory. An entry of a shard that this module does
not hold is skipped, and so is a key that is already there (log entry 34). -/
def State.loadEntry (s : State) (c : List Nat) (e : List Byte) : Except Status Bool × State :=
  let key := fieldAt e 0 11
  let z := keyShard key
  match s.readMap .firmware c z with
  | (.ok, s) =>
    if cfgFabric c && s.shardPrimary c z != s.myId && s.shardReplica c z != s.myId then (.ok false, s)
    else
      let slot := s.shardSlot c z
      (match s.search .firmware c slot key (cfgProbe c) 0 with
       | (.hit _ _ _ _ _, s) => (.ok false, s)
       | (.limit _, s) => (.error .setFull, s)
       | (.failed _ _, s) => (.error .parity, s)
       | (.empty b k _, s) => (.ok true, s.putEntry .firmware c slot key ⟨b, k, fieldAt e 11 1, fieldAt e 12 4⟩))
  | (_, s) => (.error .parity, s)

/-- Insert entries in order: entries inserted and skipped, and the status that ended the load. -/
def State.loadEntries (s : State) (c : List Nat) : Nat → Nat → List (List Byte) → Status × Nat × State
  | i, k, [] => (.ok, i + 4294967296 * k, s)
  | i, k, e :: es => match s.loadEntry c e with
    | (.ok true, s) => s.loadEntries c (i + 1) k es
    | (.ok false, s) => s.loadEntries c i (k + 1) es
    | (.error x, s) => (x, if x = .setFull then i else 0, s)

/-- SET_LOAD MODE 1 (R220, R223, R358). -/
def execSetLoadEntries (ring : Fin 8192) (index : BitVec 32) (s : State) : Host.Outcome State Fault Refusal :=
  .next (match (s.stagingAs ring.val index.toNat 0x13).filter (fun d => d.param 25 1 == 1) with
    | none => s
    | some d => s.loading d (fun s c =>
      if !s.setReach c then s.complete d .badParam 0
      else
        let (st, v, s) := s.loadEntries c 0 0 (chunks (d.data.length + 1) 16 d.data)
        s.complete d st v))

/-- Write 0 over the copies of a set: whether every access was done. -/
def State.clearCopies (s : State) (rs : List (Nat × Nat)) : Bool × State :=
  rs.foldl (fun (x : Bool × State) r =>
    let (ok, s) := x.2.zeroRange r.1 r.2
    (x.1 && ok, if ok then s.reloaded r.1 r.2 else s)) (true, s)

/-- SET_LOAD MODE 2 (R221, R358). -/
def execSetLoadClear (ring : Fin 8192) (index : BitVec 32) (s : State) : Host.Outcome State Fault Refusal :=
  .next (match (s.stagingAs ring.val index.toNat 0x13).filter (fun d => d.param 25 1 == 2) with
    | none => s
    | some d => s.loading d (fun s c =>
      if !s.setReach c then s.complete d .badParam 0
      else
        let (ok, s) := s.clearCopies (s.setRanges c)
        s.complete d (if ok then .ok else .parity) 0))

/-! ### Cameras (R104) -/

/-- A camera refuses client accesses in DISCOVER, CONFIG and CHECK. -/
def State.camBusy (s : State) (c : Nat) : Bool := s.camState c == 1 || s.camState c == 2 || s.camState c == 3

/-- Registers that a STREAMING camera's client may not write: MasterHostConnectionID and ConnectionConfig (addresses of
the CoaXPress standard, log entry 7), and the width and pixel-format registers. -/
def State.camProtected (s : State) (c a : Nat) : Bool :=
  s.camState c == 4 && (a == 0x4008 || a == 0x4014 || (s.cam c).widthAddr == some a || (s.cam c).fmtAddr == some a)

/-- An access is sent to a camera. -/
def State.camSend (s : State) (c : Nat) (d : Started) (read : Bool) : State :=
  let ds := s.client.started.map (fun x => if x == d then { x with waiting := true } else x)
  let x : CamAccess := { ring := d.ring, index := d.index, read := read, since := s.dtime }
  { s with client := { s.client with started := ds } }.setCam c { s.cam c with access := some x }

/-- CAM_REG read (R104, R358); it waits while another access of the camera is under way. -/
def execCamRegRead (ring : Fin 8192) (index : BitVec 32) (s : State) : Host.Outcome State Fault Refusal :=
  .next (match (s.startedAs ring.val index.toNat 0x14).filter (fun d => d.param 25 1 == 0) with
    | none => s
    | some d =>
      let c := d.param 24 1
      if s.camBusy c then s.complete d .camBusy 0
      else if (s.cam c).access.isSome then s
      else s.camSend c d true)

/-- CAM_REG write (R104, R358). -/
def execCamRegWrite (ring : Fin 8192) (index : BitVec 32) (s : State) : Host.Outcome State Fault Refusal :=
  .next (match (s.startedAs ring.val index.toNat 0x14).filter (fun d => d.param 25 1 == 1) with
    | none => s
    | some d =>
      let c := d.param 24 1
      if s.camBusy c then s.complete d .camBusy 0
      else if s.camProtected c (d.param 28 4) then s.complete d .camProtected 0
      else if (s.cam c).access.isSome then s
      else s.camSend c d false)

/-! ### Jobs (R385) -/

/-- Put an action of a job in the stage. -/
def State.stageJob (s : State) (d : Started) (a : JobAction) (admits : Bool) : State :=
  if !admits then s.complete d .jobState 0
  else (s.setStage { s.stage with jobs := keyPut s.stage.jobs (d.param 24 1) a }).complete d .ok 0

/-- A job that runs or waits for its slice (R323). -/
def State.jobLive (s : State) (j : Nat) : Bool := s.jobState j == 2 || s.jobState j == 3

/-- JOB_CTL start (R385): not admitted for a job that runs (log entry 37). -/
def execJobStart (ring : Fin 8192) (index : BitVec 32) (s : State) : Host.Outcome State Fault Refusal :=
  .next (match (s.stagingAs ring.val index.toNat 0x20).filter (fun d => d.param 25 1 == 0) with
    | none => s
    | some d => s.stageJob d .start (!s.jobLive (d.param 24 1)))

/-- JOB_CTL stop (R385): admitted for a job that runs (log entry 37). -/
def execJobStop (ring : Fin 8192) (index : BitVec 32) (s : State) : Host.Outcome State Fault Refusal :=
  .next (match (s.stagingAs ring.val index.toNat 0x20).filter (fun d => d.param 25 1 == 1) with
    | none => s
    | some d => s.stageJob d .stop (s.jobLive (d.param 24 1)))

/-! ### Sync objects (R333, R334) -/

/-- A client may use object `o` through ring `n` (R340): judged for the partition for which that ring's requests stand, if
they stand for one (log entry 40); an object with TYPE 0 is not judged (R333). -/
def State.clientMay (s : State) (n o : Nat) : Bool :=
  (s.so o).cfg.type == 0 || (match Config.clientPart n with
    | some p => (s.so o).allowed p.val
    | none => true)

/-- SO_WAIT (R333, R334): the descriptor stays started until its wait completes. -/
def execSoWait (ring : Fin 8192) (index : BitVec 32) (s : State) : Host.Outcome State Fault Refusal :=
  .next (match s.startedAs ring.val index.toNat 0x30 with
    | none => s
    | some d =>
      let s := s.expireDue
      let o := d.param 24 2
      if !s.clientMay d.ring o then s.complete d .soAccess 0
      else
        let ds := s.client.started.map (fun x => if x == d then { x with waiting := true } else x)
        ({ s with client := { s.client with started := ds } }.arriveWait (.client d.ring d.index) o (d.param 32 8)).settle)

/-- SO_SIGNAL (R333, R334): a signal that breaks R333 completes with SO_BAD_ARG. -/
def execSoSignal (ring : Fin 8192) (index : BitVec 32) (s : State) : Host.Outcome State Fault Refusal :=
  .next (match s.startedAs ring.val index.toNat 0x31 with
    | none => s
    | some d =>
      let s := s.expireDue
      let o := d.param 24 2
      if !s.clientMay d.ring o then s.complete d .soAccess 0
      else
      let ok := (s.so o).signalArgOk (d.param 32 8)
      ((s.signal (.client d.ring d.index) o (d.param 32 8)).settle).complete d (if ok then .ok else .soBadArg) 0)

/-! ### Network (R366, R368) -/

/-- NET_SET (R366): a port's block enters the stage. -/
def execNetSet (ring : Fin 8192) (index : BitVec 32) (s : State) : Host.Outcome State Fault Refusal :=
  .next (match s.stagingAs ring.val index.toNat 0x40 with
    | none => s
    | some d => (s.setStage { s.stage with nets := keyPut s.stage.nets (d.param 24 1) d.data }).complete d .ok 0)

/-- ALLOW_LOAD (R368): an allow list enters the stage. -/
def execAllowLoad (ring : Fin 8192) (index : BitVec 32) (s : State) : Host.Outcome State Fault Refusal :=
  .next (match s.stagingAs ring.val index.toNat 0x41 with
    | none => s
    | some d => (s.setStage { s.stage with allow := some d.data }).complete d .ok 0)

end Sys2Proof.Machine
end

