-- ==== Sys2Proof/Machine/Slices.lean ====
section
/-! DEFINITION. Machine/Slices.lean: the time slices of background partitions: their end, the switch with its saves,
and the start of the next slice with its restores (spec/15_partitions.md, R325-R331). -/

namespace Sys2Proof.Machine

/-- Partition `p`'s slice state. -/
def State.ptn (s : State) (p : Nat) : PtnSt := nth s.ptns p {}

/-- Replace partition `p`'s slice state. -/
def State.setPtn (s : State) (p : Nat) (x : PtnSt) : State := { s with ptns := setNth s.ptns p x }

/-- An enabled background partition (R321). -/
def State.background (s : State) (p : Nat) : Bool := s.flag (R.STG_PTN_CFG.ENABLE p) && !s.flag (R.STG_PTN_CFG.RT p)

/-- Jobs that take turns in a partition, ascending (R325). -/
def State.sliceJobs (s : State) (p : Nat) : List Nat :=
  (List.range 64).filter (fun j => s.jobPart j == p && (s.jobState j == 2 || s.jobState j == 3))

/-- The next job: the lowest above the last slice holder, wrapping to the lowest (R325). -/
def State.nextJob (s : State) (p : Nat) : Option Nat :=
  let js := s.sliceJobs p
  match js.find? (fun j => decide (j > (s.ptn p).last)) with
  | some j => some j
  | none => js.head?

/-- The job that holds a background partition's slice. -/
def State.holder (s : State) (p : Nat) : Option Nat :=
  if s.background p && s.flag (R.STG_PTN_STATUS.VALID p) then some (s.get (R.STG_PTN_STATUS.JOB p)) else none

/-- A slice begins (R325): its length is SLICE_US less the job's debt, which is then 0. -/
def State.openSlice (s : State) (p j : Nat) : State :=
  let len := s.get (R.STG_PTN_SLICE.SLICE_US p) * 1000 - (s.job j).debt
  let s := (s.raise (R.STG_PTN_STATUS.VALID p)).put (R.STG_PTN_STATUS.JOB p) j
  let s := s.setPtn p { sliceStart := s.dtime, sliceEnd := s.dtime + len, endedAt := none, last := j }
  s.setJob j { s.job j with debt := 0, blockedSince := none }

/-- A slice ends (R325, R327, R329): the issuers stop, unless a context of the job holds units; alone in its partition,
the job's slice begins again on the same tick. -/
def State.endSlice (s : State) (p j t : Nat) : State :=
  if s.sliceJobs p == [j] then s.openSlice p j
  else
    let s := s.setPtn p { s.ptn p with endedAt := some t }
    let s := s.raise (R.STG_PTN_STATUS.SWITCHING p)
    s.putFlag (R.STG_PTN_STATUS.DEFERRED p) (s.jobHolds j)

/-- SLICE_END (R325): the slice has lasted its length. -/
def execSliceEnd (part : Fin 8) (s : State) : Host.Outcome State Fault Refusal :=
  let p := part.val
  .next (match s.holder p, (s.ptn p).endedAt with
    | some j, none => if s.dtime ≥ (s.ptn p).sliceEnd then s.endSlice p j (s.ptn p).sliceEnd else s
    | _, _ => s)

/-- A job is blocked (R326): every bound core's issuer is held by a WAIT record or at the end of its list, and every
thread of the job is in SWAIT. -/
def State.blocked (s : State) (j : Nat) : Bool :=
  (s.job j).bound.all (fun n => match s.list n with
    | some l => l.waiting
    | none => true)
  && s.flock.threads.all (fun t => t.2.job != j || t.2.swait.isSome)

/-- On a tick, the holder of each slice is noted blocked, or no longer so (R326). -/
def State.blockTick (s : State) : State :=
  (List.range 8).foldl (fun (s : State) p => match s.holder p with
    | none => s
    | some j =>
      let jb := s.job j
      match s.blocked j, jb.blockedSince with
      | true, none => s.setJob j { jb with blockedSince := some s.dtime }
      | false, some _ => s.setJob j { jb with blockedSince := none }
      | _, _ => s) s

/-- SLICE_YIELD (R326): a job blocked for YIELD_US ends its slice at once. -/
def execSliceYield (part : Fin 8) (s : State) : Host.Outcome State Fault Refusal :=
  let p := part.val
  let y := s.get (R.STG_PTN_SLICE.YIELD_US p)
  .next (match s.holder p, (s.ptn p).endedAt with
    | some j, none => (match (s.job j).blockedSince with
      | some t => if y ≠ 0 && s.blocked j && decide (s.dtime ≥ t + y * 1000) then s.endSlice p j s.dtime else s
      | none => s)
    | _, _ => s)

/-! ### The switch (R327, R328, R330, R331) -/

/-- The save block of a job's logical core (R324): rows at row * 512, then the accumulators at 2 MiB (log entry 32). -/
def State.saveBlock (s : State) (j i : Nat) : Nat :=
  s.get64 (R.STG_JOB_SAVE_LO.N j) (R.STG_JOB_SAVE_HI.N j) + i * 2162688

/-- The live-range words of the next unissued record if it has PP = 1 (R249, R330); a WAIT that holds the list has issued. -/
def State.liveWords (s : State) (l : ListCtx) : Option (List (Nat × Nat)) :=
  let r := s.recordAt l (if l.waiting then 1 else 0)
  if bit (fieldAt r 1 1) 1 then
    let e := s.modBytes (l.pair.image.base + l.pair.image.live.1 + 16 * fieldAt r 6 2) 16
    some ((List.range 4).map (fun k => (fieldAt e (4 * k) 2, fieldAt e (4 * k + 2) 2)))
  else none

/-- The reads of a save find the next unissued record and its live-range entry without a hard fault (R310). -/
def State.liveRead (s : State) (l : ListCtx) : Bool × State :=
  let k := if l.waiting then 1 else 0
  let r := s.recordAt l k
  let at_ := l.pair.image.base + l.pair.image.lists.1 + l.pc + 32 * k
  let entry := (l.pair.image.base + l.pair.image.live.1 + 16 * fieldAt r 6 2, 16)
  let (ok, _, s) := s.loadAll .issuer ((at_, 32) :: if bit (fieldAt r 1 1) 1 then [entry] else [])
  (ok, s)

/-- The rows that live-range words name. -/
def liveRows (x : Option (List (Nat × Nat))) : List Nat := match x with
  | none => List.range 4096
  | some ws => (ws.flatMap (fun w => (List.range w.2).map (fun k => w.1 + k))).filter (fun r => decide (r < 4096))

/-- Put one agent in another's place in every queue and hold entry. -/
def State.renameAgent (s : State) (a b : Agent) : State :=
  { s with sync := { s.sync with
      objs := s.sync.objs.map (fun e => (e.1, { e.2 with
        waiters := e.2.waiters.map (fun w => if w.agent == a then { w with agent := b } else w) }))
      holds := s.sync.holds.map (fun h => if h.agent == a then { h with agent := b } else h)
      arriving := s.sync.arriving.map (fun w => if w.1 == a then (b, w.2) else w) } }

/-- The accumulators of a core as saved: 2,048 words. -/
def CoreSt.accBytes (c : CoreSt) : List Byte :=
  (List.range 2048).flatMap (fun k => leBytes 4 (toU32 ((keyGet c.vacc k).getD 0)))

/-- The state of core `n` goes into the save block of logical core `i` (R330). A row whose parity fails through the
replay is a Larder hard fault (R185), and a hard fault of module memory tears the job down (R314). -/
def State.saveCore (s : State) (j i n : Nat) : State :=
  if s.jobState j != 2 then s
  else
    let l := s.list n
    match (match l with
      | some l => s.liveRead l
      | none => (true, s)) with
    | (false, s) => (s.tearJob j .parity n).settle
    | (true, s) =>
    let live := l.bind (fun l => s.liveWords l)
    match s.rowsCheck n (liveRows live) with
    | (some (.hard w), s) => (s.larderHard n (w / 32768) w).settle
    | (_, s) =>
      let pieces := (liveRows live).map (fun r => (r * 512, s.larderRead n (r * 512) 512)) ++ [(2097152, (s.core n).accBytes)]
      match s.storeAll .issuer (s.saveBlock j i) pieces with
      | (false, s) => (s.tearJob j .parity n).settle
      | (true, s) =>
      let s := (s.renameAgent (.core n) (.saved i j)).delList n
      let due := (s.core n).setupDue
      let s := s.setCore n { s.core n with vacc := [], setupDue := false }
      let s := (s.drop (R.CORE_ALLOC.BOUND n)).drop (R.CORE_ALLOC.LOGICAL n)
      s.setJob j { s.job j with saved := keyPut (s.job j).saved i ⟨l, live, due⟩ }

/-- The Larders of the cores in service among `cs` are in normal mode, so that their T ports act (R180). -/
def State.portsAct (s : State) (cs : List Nat) : Bool := cs.all (fun n => !s.inService n || s.larderNormal n)

/-- Every command that the job has issued on its cores has completed (R327). -/
def State.coresIdle (s : State) (j : Nat) : Bool := s.lists.all (fun e => e.2.job != j || e.2.allDone)

/-- PARTITION_SWITCH (R327, R328, R330): the last core of the partition switches; the overrun is noted, added to the
job's debt, and the job is saved. -/
def execPartitionSwitch (part : Fin 8) (s : State) : Host.Outcome State Fault Refusal :=
  let p := part.val
  .next (match s.holder p, (s.ptn p).endedAt with
    | some j, some t =>
      if s.flag (R.STG_PTN_STATUS.DEFERRED p) || !s.coresIdle j || !s.portsAct (s.job j).bound then s
      else
        let ov := satNat 32 (s.dtime - t)
        let s := (s.put (R.STG_PTN_OVR.N p) ov).bumpWrap (R.STG_PTN_SWITCHES.N p)
        let s := s.loftEvent 0x0006 (leBytes 4 p ++ leBytes 4 j ++ leBytes 4 ov)
        let s := s.setJob j { s.job j with debt := (s.job j).debt + (s.dtime - t) }
        let cs := (s.job j).bound
        let s := ((List.range cs.length).zip cs).foldl (fun (s : State) x => s.saveCore j x.1 x.2) s
        if s.jobState j = 2 then (s.leaveSlice j).setJobState j .preempted else s
    | _, _ => s)

/-! ### The next slice -/

/-- A core takes up the state of a job's logical core: the saved rows and accumulators, every other row 0 (R330). A hard fault
of module memory tears the job down (R314). -/
def State.restoreCore (s : State) (j i n : Nat) : State :=
  if s.jobState j != 2 then s
  else
  let s := s.larderZero n
  match keyGet (s.job j).saved i with
  | none => s.setCore n { s.core n with vacc := [], setupDue := true, beforeSetup := 0 }
  | some x =>
    let b := s.saveBlock j i
    let rows := liveRows x.live
    match s.loadAll .issuer (rows.map (fun r => (b + r * 512, 512)) ++ [(b + 2097152, 8192)]) with
    | (false, _, s) => (s.tearJob j .parity n).settle
    | (true, bs, s) =>
    let s := ((List.range rows.length).zip rows).foldl (fun (s : State) r =>
      s.larderWrite n (r.2 * 512) (sliceBytes bs (512 * r.1) 512)) s
    let acc := bs.drop (512 * rows.length)
    let s := s.setCore n { s.core n with
      vacc := (List.range 2048).map (fun k => (k, (fieldAt acc (4 * k) 4 : Nat))), setupDue := x.setup, beforeSetup := 0 }
    let s := s.renameAgent (.saved i j) (.core n)
    match x.list with
    | none => s
    | some l => s.setList n l

/-- The cores of a job that takes the slice: under its map in force with what was saved, else under the first map that
fits, from its setup lists (R254, R255, R330). -/
def State.takeCores (s : State) (p j : Nat) (img : ImageRef) : State :=
  let cs := s.ptnCores p
  let need := match s.jobMap j with
    | some m => Nat.max m.ncores (s.job j).bound.length
    | none => 17
  if !(s.job j).bound.isEmpty && need ≤ cs.length then
    let cs := cs.take need
    let s := s.setJob j { s.job j with bound := cs }
    let s := s.showBinding cs
    ((List.range need).zip cs).foldl (fun (s : State) x => s.restoreCore j x.1 x.2) s
  else s.underMap j img (fun s k m =>
      let s := s.dropAgent (fun a => match a with
        | .saved _ i => i == j
        | _ => false)
      let s := s.setJob j { s.job j with saved := [], bound := [], ptrs := [] }
      let s := (cs.take m.ncores).foldl (fun (s : State) c => s.restoreCore j 16 c) s
      s.bindMap j k m)

/-- SLICE_BEGIN (R325, R330): in a partition whose slice nobody holds, the next job takes it with its first issue. -/
def execSliceBegin (part : Fin 8) (s : State) : Host.Outcome State Fault Refusal :=
  let p := part.val
  .next (if !s.background p || s.flag (R.STG_PTN_STATUS.VALID p) || !s.portsAct (s.ptnCores p) then s
    else match s.nextJob p with
      | none => s
      | some j => match (s.job j).pair with
        | none => s
        | some pr =>
          let s := s.setJobState j .running
          let s := (s.openSlice p j).drop (R.STG_PTN_STATUS.SWITCHING p)
          let s := s.takeCores p j pr.image
          let s := s.setJob j { s.job j with saved := [] }
          ((s.job j).bound.foldl (fun (s : State) n => s.coreNext j n) s).settle)

end Sys2Proof.Machine
end

