-- ==== Sys2Proof/Machine/Rules.lean ====
section
/-! DEFINITION. Machine/Rules.lean: the 42 consistency rules of R386 (spec/17_staging_commit.md, with the rules of the
other chapters that they name). A rule takes the state before the commit and the same state with the staged registers in
force, and tells whether the stage fails it. -/

namespace Sys2Proof.Machine

/-- Some two of a list's elements, at different places, meet a test. -/
def anyPair {α : Type} (f : α → α → Bool) : List α → Bool
  | [] => false
  | x :: xs => xs.any (f x) || anyPair f xs

/-! ### Rule 1, FIELD_RANGE -/

/-- A field's value keeps the range that its register table states. -/
def Limit.keeps (l : Limit) (v : Nat) : Bool := match l with
  | .any => true
  | .within lo hi => decide (lo ≤ v) && decide (v ≤ hi)
  | .lowZero n => v % 2 ^ n == 0

/-- The classes that a commit or a latch judges (R376, R377). -/
def FieldRow.judged (f : FieldRow) : Bool := f.access == .staged || f.access == .paired

/-- A register's value keeps the ranges of its table. -/
def regKeeps (off v : Nat) : Bool := match RegMap.lookup off with
  | none => true
  | some (r, _) => r.fields.all (fun f => !f.judged || f.limit.keeps (bits v f.hi f.lo))

/-- A pulse width that is not below its period in MODE 1 (R467). -/
def State.badTpo (t : State) (n : Nat) : Bool :=
  t.flag (R.NTM_TPO_CFG.MODE n) && decide (t.get (R.NTM_TPO_PERIOD.N n) ≤ t.get (R.NTM_TPO_WIDTH.N n))

/-- A Gatis port enabled without its four lanes enabled at RATE 8, LOOP 0 and PATTERN 0. -/
def State.badPort (t : State) (k : Nat) : Bool :=
  t.flag (R.GTS_G_CFG.ENABLE k) && (List.range 4).any (fun i =>
    let n := 32 + 4 * k + i
    !(t.flag (R.LANE_L_CFG.ENABLE n) && t.get (R.LANE_L_CFG.RATE n) == 8 && t.get (R.LANE_L_CFG.LOOP n) == 0
      && t.get (R.LANE_L_CFG.PATTERN n) == 0))

/-- An enabled window that lies within the regions of no one partition (R441). -/
def State.badWindow (t : State) (r : Nat) : Bool :=
  t.flag (R.GTS_RW_CTL.ENABLE r) && !(List.range 8).any (fun p =>
    t.ownedBy p (t.get64 (R.GTS_RW_BASE_LO.N r) (R.GTS_RW_BASE_HI.N r)) (t.get (R.GTS_RW_CTL.PAGES r) * 65536))

/-- A halo entry beyond its camera's WIDTH; enabled, one that sends a stream that is not TYPE 1, or receives into no
buffers. -/
def State.badHalo (t : State) (e : Nat) : Bool :=
  let c := t.get (R.GTS_HX_CFG.CAMERA e)
  let on := t.flag (R.GTS_HX_CFG.ENABLE e)
  decide (t.get (R.GTS_HX_COLS.COL0 e) + t.get (R.GTS_HX_COLS.COLS e) > t.width c)
    || (on && t.get (R.GTS_HX_CFG.DIR e) == 0 && t.strType c (t.get (R.GTS_HX_CFG.STREAM e)) != 1)
    || (on && t.get (R.GTS_HX_CFG.DIR e) == 1 && t.get (R.GTS_HX_BUF.BUFS e) == 0)

/-- FIELD_RANGE: the ranges of single fields, and the ranges that a table states against another field. -/
def failRange (_ t : State) : Bool :=
  t.regs.any (fun e => !regKeeps e.1 e.2.toNat)
    || t.get R.SDG_WIN.K > t.get R.SDG_WIN.N
    || (List.range 4).any (fun q => decide (t.get (R.PWR_QUAD_CFG.FMIN q) > t.get (R.PWR_QUAD_CFG.FMAX q)))
    || (List.range 4).any t.badTpo
    || (t.flag R.GTS_CFG.ENABLE && !t.members.contains (t.get R.GTS_CFG.ID))
    || (List.range 8).any t.badPort
    || decide (((List.range 8).map (fun p => t.get (R.GTS_PTN_CRED.BULK p))).sum > 1024)
    || decide (((List.range 8).map (fun p => t.get (R.GTS_PTN_CRED.LOOKUP p))).sum > 256)
    || (List.range 8).any t.badWindow || (List.range 16).any t.badHalo

/-! ### Rules 2 to 6: web position -/

/-- ENC_RANGE (R30). -/
def failEncRange (_ t : State) : Bool :=
  (List.range 4).any (fun n =>
    !(Limit.within 10 1000).keeps (t.get (R.POS_E_TIMING.CLKDIV n)) || !(Limit.within 12 48).keeps (t.get (R.POS_E_CFG.WORDLEN n))
      || !(Limit.within 400 1000000).keeps (t.get (R.POS_E_REQ.PERIOD n)))

/-- Check bits of a CHK code (R30). -/
def chkBits : Nat → Nat
  | 0 => 0 | 1 => 1 | 2 => 1 | _ => 5

/-- ENC_PERIOD (R32). -/
def failEncPeriod (_ t : State) : Bool :=
  (List.range 4).any (fun n =>
    let b := t.get (R.POS_E_CFG.WORDLEN n) + t.get (R.POS_E_CFG.ERRBIT n) + chkBits (t.get (R.POS_E_CFG.CHK n))
    decide (t.get (R.POS_E_REQ.PERIOD n) * 10
      < (b + 1) * t.get (R.POS_E_TIMING.CLKDIV n) * 10 + t.get (R.POS_E_TIMING.RECOV n) * 100))

/-- POS_HYST (R44). -/
def failHyst (_ t : State) : Bool := t.get R.POS_SPD_HYST.VALUE ≥ t.get R.POS_SPD_CO.VALUE

/-- POS_FAIL (R52). -/
def failFail (_ t : State) : Bool := t.get R.POS_HOLD.FAIL_US ≥ t.get R.POS_HOLD.HOLD_US

/-- POS_REZERO (R41, R80), on live state. -/
def failRezero (_ t : State) : Bool := t.flag R.POS_CTL.REZERO && !t.liveParts.isEmpty

/-! ### Rules 7 to 11: the position sequencer -/

/-- PSQ_TRACK (R56). -/
def failTrack (_ t : State) : Bool :=
  let rs := ((List.range 56).map t.trackRange).filter (fun r => r.2 != 0)
  rs.any (fun r => decide (r.1 + r.2 > 57344)) || anyPair (fun a b => !apart a b) rs

/-- Lanes that a PART_OPEN or PART_CLOSE names (R59): the first and their number. -/
def SeqEntry.laneSpan (e : SeqEntry) : Nat × Nat := (bits e.param 5 0, bits e.param 14 8)

/-- PSQ_ACTION (R59): an unknown code, or a code of the part tracks, in the program tracks; and of the valid entries, a
bad lane range or a repeat without a pitch. -/
def failAction (_ t : State) : Bool :=
  t.stagedEntries.any (fun x =>
    let e := x.2
    e.action > 11 || e.action == 6 || e.action == 7 || (e.defValid && (
      ((e.action == 1 || e.action == 2) && (e.laneSpan.2 == 0 || decide (e.laneSpan.1 + e.laneSpan.2 > 64)))
        || (e.repeats && e.pitch == 0 && e.pitchFrac == 0))))

/-- Enabled lanes that eject. -/
def State.ejecting (t : State) : List Nat :=
  (List.range 64).filter (fun m => t.flag (R.PSQ_LANE_CFG.ENABLE m) && t.get (R.PSQ_LANE_CFG.EJECT m) != 0)

/-- The lane's output is in duration mode. -/
def State.laneDuration (t : State) (m : Nat) : Bool := t.flag (R.PSQ_Q_MODE.DURATION (t.get (R.PSQ_LANE_CFG.CHANNEL m)))

/-- PSQ_LANE_OFF (R509). -/
def failLaneOff (_ t : State) : Bool :=
  (List.range 64).any (fun m => t.get (R.PSQ_LANE_CFG.EJECT m) == 3)
    || t.ejecting.any (fun m =>
      decide (t.get (R.PSQ_LANE_DEC_OFF.N m) ≥ t.get (R.PSQ_LANE_ON_OFF.N m))
        || (!t.laneDuration m && decide (t.get (R.PSQ_LANE_ON_OFF.N m) ≥ t.get (R.PSQ_LANE_OFF_OFF.N m))))

/-- The term of a lane (R65): a sum over the valid PART_OPEN entries of the program tracks that name it. -/
def State.laneTerm (t : State) (opens : List SeqEntry) (m : Nat) : Nat :=
  let dec := t.get (R.PSQ_LANE_DEC_OFF.N m)
  let off := if t.get (R.PSQ_LANE_CFG.EJECT m) = 0 || t.laneDuration m then t.get (R.PSQ_LANE_ON_OFF.N m)
    else t.get (R.PSQ_LANE_OFF_OFF.N m)
  ((opens.filter (fun e => decide (e.laneSpan.1 ≤ m) && decide (m < e.laneSpan.1 + e.laneSpan.2))).map (fun e =>
    if e.repeats then ceilDiv (Nat.max dec off * 65536) (e.pitch * 65536 + e.pitchFrac) + 1 else 1)).sum

/-- PSQ_PART_CAP (R65): a part track serves the lanes that are equal to it modulo 8. -/
def failPartCap (_ t : State) : Bool :=
  let opens := (t.stagedEntries.filter (fun x => x.2.defValid && x.2.action == 2 && (List.range 56).any (fun k =>
    let r := t.trackRange k
    decide (r.1 ≤ x.1) && decide (x.1 < r.1 + r.2)))).map (·.2)
  (List.range 8).any (fun j => decide ((((List.range 8).map (fun k => j + 8 * k)).map (fun m =>
    if t.flag (R.PSQ_LANE_CFG.ENABLE m) then t.laneTerm opens m else 0)).sum > 512))

/-- PSQ_LEAD (R70). -/
def failLead (_ t : State) : Bool :=
  t.ejecting.any (fun m =>
    let d : Int := (t.get (R.PSQ_LANE_ON_OFF.N m) : Int) - t.get (R.PSQ_LANE_DEC_OFF.N m)
    let adv := t.get (R.PSQ_Q_MODE.ADV_US (t.get (R.PSQ_LANE_CFG.CHANNEL m))) * 1000
    decide (tdiv (d * 1000000) (t.get R.PSQ_VMAX.VALUE) - adv < 502000))

/-! ### Rules 12 to 16: lanes and cameras -/

/-- LANE_RATE (R81). -/
def failLaneRate (_ t : State) : Bool :=
  (List.range 64).any (fun n =>
    let r := t.get (R.LANE_L_CFG.RATE n)
    (t.flag (R.LANE_L_CFG.ENABLE n) && r == 0) || (if n < 32 then decide (r > 7) else r != 0 && r != 8))

/-- LANE_LOOP (R92, R95). -/
def failLaneLoop (_ t : State) : Bool :=
  (List.range 64).any (fun n => (decide (n < 32) && t.get (R.LANE_L_CFG.LOOP n) == 3) || t.get (R.LANE_L_CFG.PATTERN n) == 3)

/-- Enabled cameras. -/
def State.camsOn (t : State) : List Nat := (List.range 16).filter (fun c => t.flag (R.CXP_CAM_CFG.ENABLE c))

/-- CAM_GROUP (R98). -/
def failCamGroup (_ t : State) : Bool :=
  t.camsOn.any (fun c =>
    t.get (R.CXP_CAM_CFG.LANE_BASE c) % (t.camLanes c).length != 0
      || (t.camLanes c).any (fun n => !t.flag (R.LANE_L_CFG.ENABLE n)
        || decide (t.get (R.CXP_CAM_CFG.MIN_RATE c) > t.get (R.LANE_L_CFG.RATE n))))
    || anyPair (fun a b => (t.camLanes a).any (fun n => (t.camLanes b).contains n)) t.camsOn

/-- CAM_GEOM (R98, R108). -/
def failCamGeom (_ t : State) : Bool :=
  (List.range 16).any (fun c => t.kind c == 3 || t.get (R.CXP_CAM_FMT.DEPTH c) == 3)
    || t.camsOn.any (fun c =>
      let f := t.get (R.CXP_CAM_GEOM.FRAME_LINES c)
      !(Limit.within 64 8192).keeps (t.width c) || f == 0 || f % t.sensorLines c != 0
        || (decide (t.sensorLines c > 1) && t.kind c != 2))

/-- CAM_BUFFER (R98). -/
def failCamBuffer (_ t : State) : Bool :=
  (t.camsOn.map (fun c => t.get (R.CXP_CAM_GEOM.SLOTS c) * (t.width c * t.sensorLines c)
    * (if t.get (R.CXP_CAM_FMT.DEPTH c) = 0 then 1 else 2))).sum > 4194304

/-! ### Rules 17 to 22: the line pipeline -/

/-- LP_DELAY (R116). -/
def failDelay (_ t : State) : Bool :=
  (List.range 16).any (fun c => (List.range 4).any (fun k =>
    decide (t.delayOf c k + 2 > t.get (R.CXP_CAM_GEOM.SLOTS c))))

/-- LP_FILTER (R117). A filter in use with KIND 1 is always one of a phase. -/
def failFilter (_ t : State) : Bool :=
  (List.range 16).any (fun c =>
    ((t.kind c == 1 || t.kind c == 2) && (t.planesOf c).contains 5)
      || (t.kind c == 0 && t.reg (R.LPIPE_CAM_PAT c) != regDefault (R.LPIPE_CAM_PAT c)))

/-- Bytes of the correction tables, both sets, and of the halo region (R123, R124). -/
def State.lpShelf (t : State) : Nat :=
  (t.tableCams.map (fun c => 2 * t.tableBytes c)).sum + t.get R.LPIPE_HALO_KIB.KIB * 1024

/-- LP_SHELF (R124). -/
def failShelf (_ t : State) : Bool := t.lpShelf > 8388608

/-- A stream definition breaks R125. -/
def State.badStream (t : State) (c k : Nat) : Bool :=
  let ty := t.strType c k
  let ps := t.strPlanes c k
  (ty != 0 && (ps.isEmpty || ps.any (fun p => !(t.planesOf c).contains p)))
    || (ty == 2 && t.get (R.LPIPE_STR_CFG.LEVEL c k) == 0)
    || !(Limit.within 64 4096).keeps (t.get (R.LPIPE_STR_GEOM.STRIP_LINES c k))
    || decide (t.get (R.LPIPE_STR_GEOM.HALO c k) > 32)
    || ((ty == 1 || ty == 2 || ty == 3) && decide (t.bufs c k < 2))

/-- LP_STREAM (R125). -/
def failStream (_ t : State) : Bool :=
  (List.range 16).any (fun c => (List.range 8).any (t.badStream c)
    || decide (((List.range 8).filter (fun k => t.strType c k == 4)).length > 1))

/-- The columns of a crop entry go beyond its camera's WIDTH (R129). -/
def State.badCrop (t : State) (i : Nat) : Bool :=
  t.get (R.LPIPE_CROP_X.X0 i) + t.get (R.LPIPE_CROP_W.WIDTH i) > t.width (t.get (R.LPIPE_CROP_CFG.CAMERA i))

/-- LP_CROP (R129). -/
def failCrop (_ t : State) : Bool :=
  t.stagedEntries.any (fun e => e.2.action == 5 && decide (bits e.2.param 15 0 > 1023)) || (List.range 1024).any t.badCrop

/-- Camera of a lane. -/
def State.laneCam (t : State) (m : Nat) : Nat := colsCamera (t.reg (R.PSQ_LANE_COLS m)).toNat

/-- LP_ENGINE (spec/06_line_pipeline.md, after its register tables). -/
def failEngine (_ t : State) : Bool :=
  (List.range 256).any (fun p => t.flag (R.LPIPE_PAT_CFG.ENABLE p) && (
    let c := t.laneCam (t.get (R.LPIPE_PAT_CFG.LANE p))
    decide (t.get (R.LPIPE_PAT_WX.COL0 p) + t.get (R.LPIPE_PAT_WX.COLS p) > t.width c)
      || [t.get (R.LPIPE_PAT_CFG.PLANE_A p), t.get (R.LPIPE_PAT_CFG.PLANE_B p), t.get (R.LPIPE_PAT_CFG.PLANE_C p)].any
        (fun q => !(t.planesOf c).contains q)))
    || (List.range 64).any (fun m => t.flag (R.LPIPE_MRK_CFG.ENABLE m) && (
      let c := t.laneCam (t.get (R.LPIPE_MRK_CFG.LANE m))
      decide (t.get (R.LPIPE_MRK_WX.COL0 m) + t.get (R.LPIPE_MRK_WX.COLS m) > t.width c)
        || !(t.planesOf c).contains (t.get (R.LPIPE_MRK_CFG.PLANE m))))

/-! ### Rules 23 and 24: set memories -/

/-- Enabled sets. -/
def State.setsOn (t : State) : List Nat := (List.range 16).filter (fun k => cfgEnabled (t.setCfg k))

/-- LOG2_BUCKETS and PROBE_MAX of a set are in range (R220, R233). -/
def setGeomOk (c : List Nat) : Bool :=
  (Limit.within 8 29).keeps (cfgLog2 c) && (Limit.within 1 64).keeps (cfgProbe c)

/-- FLK_SET (R233). -/
def failSet (_ t : State) : Bool :=
  t.setsOn.any (fun k =>
    let c := t.setCfg k
    !setGeomOk c || !(List.range 8).any (fun p => (t.setRanges c).all (fun r => t.ownedBy p r.1 r.2)
      && (!cfgFabric c || t.ownedBy p (cfgMap c) 1024)))
    || anyPair (fun a b => (t.setRanges (t.setCfg a)).any (fun x => (t.setRanges (t.setCfg b)).any (fun y => !apart x y)))
      t.setsOn

/-- A shard that promotion has made single-copy, in the map in force, which the stage keeps (R233, R439). -/
def State.keptSingle (s t : State) (k z : Nat) : Bool :=
  cfgMap (s.setCfg k) == cfgMap (t.setCfg k) && t.gts.single.contains (k, z, t.mapEntry (t.setCfg k) z)

/-- FLK_SHARD (R226, R233). -/
def failShard (s t : State) : Bool :=
  t.setsOn.any (fun k =>
    let c := t.setCfg k
    cfgFabric c && (
      (List.range 256).any (fun z => t.shardPrimary c z == t.shardReplica c z && !s.keptSingle t k z)
        || anyPair (fun a b => t.shardSlot c a == t.shardSlot c b)
          ((List.range 256).filter (fun z => t.shardPrimary c z == t.myId || t.shardReplica c z == t.myId))))

/-! ### Rules 25 to 27: Cellar, Shelf and Pantry -/

/-- Enabled regions. -/
def State.regionsOn (t : State) : List Nat := (List.range 16).filter (fun r => t.flag (R.CEL_REG_CFG.ENABLE r))

/-- Pages of a region in each of its channels: the first and their number. -/
def State.regionPages (t : State) (r : Nat) : Nat × Nat := (t.get (R.CEL_REG_PAGES.PAGE0 r), t.get (R.CEL_REG_PAGES.PAGES r))

/-- Two regions share a channel. -/
def State.shareChan (t : State) (a b : Nat) : Bool := (t.regionChans a).any (fun k => (t.regionChans b).contains k)

/-- CEL_REGION (R305, R317). -/
def failRegion (_ t : State) : Bool :=
  t.regionsOn.any (fun r =>
    let n := (t.regionChans r).length
    let g := t.regionPages r
    !([1, 2, 4, 8, 16, 32].contains n) || g.2 == 0 || decide (g.1 + g.2 > 32704) || t.regionBase r % 65536 != 0
      || decide (t.regionBase r + t.regionSpan r > 68719476736)
      || t.cel.retired.any (fun e => e.unusable && (t.regionChans r).contains e.channel && !apart g (e.page, 1)))
    || anyPair (fun a b =>
      !apart (t.regionBase a, t.regionSpan a) (t.regionBase b, t.regionSpan b)
        || (t.shareChan a b && (!apart (t.regionPages a) (t.regionPages b)
          || t.get (R.CEL_REG_CFG.PART a) != t.get (R.CEL_REG_CFG.PART b)))) t.regionsOn

/-- CEL_SHELF (R307). -/
def failShelfWin (_ t : State) : Bool :=
  let ws := ((List.range 8).map (fun p => (t.get (R.CEL_PART_SHELF.BASE p), t.get (R.CEL_PART_SHELF.BLOCKS p)))).filter
    (fun w => w.2 != 0)
  ws.any (fun w => decide (w.1 + w.2 > 2048) || !apart w (0, ceilDiv t.lpShelf 4096)) || anyPair (fun a b => !apart a b) ws

/-- CEL_WAYS (R308). -/
def failWays (_ t : State) : Bool :=
  anyPair (fun a b => (List.range 16).any (fun k => bit a k && bit b k))
    (t.get R.CEL_FW_WAYS.WAYS :: (List.range 8).map (fun p => t.get (R.CEL_PART_CFG.WAYS p)))

/-! ### Rules 28 to 34: partitions and jobs -/

/-- Enabled partitions. -/
def State.ptnsOn (t : State) : List Nat := (List.range 8).filter (fun p => t.flag (R.STG_PTN_CFG.ENABLE p))

/-- The stage starts, or stops, job `j` (R385). -/
def State.starts (t : State) (j : Nat) : Bool := keyGet t.stage.jobs j == some .start
def State.stops (t : State) (j : Nat) : Bool := keyGet t.stage.jobs j == some .stop

/-- The image that job `j` has once the stage applies, and its weight set. -/
def State.nextImage (t : State) (j : Nat) : Option ImageRef := match keyGet t.stage.images j with
  | some i => some i
  | none => ((t.job j).pair.map (·.image)).or (t.job j).loneImage
def State.nextWeights (t : State) (j : Nat) : Option WeightRef := match keyGet t.stage.weights j with
  | some w => some w
  | none => ((t.job j).pair.map (·.weights)).or (t.job j).loneWeights

/-- A job counts as bound to its partition once it is loaded, or the stage loads or starts it. -/
def State.isBound (t : State) (j : Nat) : Bool :=
  t.jobState j != 0 || t.starts j || ((t.nextImage j).isSome && (t.nextWeights j).isSome)

/-- Jobs bound to partitions. -/
def State.boundJobs (t : State) : List Nat := (List.range 64).filter t.isBound

/-- Two masks share a bit. -/
def shareBit (a b : Nat) : Bool := Nat.land a b != 0

/-- Cores and pipelines of a partition. -/
def State.ptnHolds (t : State) (p : Nat) : Nat × Nat := (t.get (R.STG_PTN_CORES.CORES p), (t.reg (R.STG_PTN_PIPES p)).toNat)

/-- PTN_RESOURCE (R322). -/
def failResource (_ t : State) : Bool :=
  anyPair (fun a b => shareBit (t.ptnHolds a).1 (t.ptnHolds b).1 || shareBit (t.ptnHolds a).2 (t.ptnHolds b).2) t.ptnsOn
    || decide ((t.ptnsOn.filter (fun p => t.flag (R.STG_PTN_CFG.RT p))).length > 1)
    || t.boundJobs.any (fun j => !t.flag (R.STG_PTN_CFG.ENABLE (t.jobPart j)))
    || anyPair (fun a b => t.jobPart a == t.jobPart b && t.flag (R.STG_PTN_CFG.ENABLE (t.jobPart a))
      && t.flag (R.STG_PTN_CFG.RT (t.jobPart a))) t.boundJobs
    || t.ptnsOn.any (fun p => t.background p && !(Limit.within 1000 1000000).keeps (t.get (R.STG_PTN_SLICE.SLICE_US p)))

/-- PTN_REMOVE (R322), on live state: a core or pipeline leaves a partition with a RUNNING job that the stage does not
stop; a partition that is disabled holds none. -/
def failRemove (s t : State) : Bool :=
  (List.range 64).any (fun j =>
    let p := s.jobPart j
    let old := s.ptnHolds p
    let new := if t.flag (R.STG_PTN_CFG.ENABLE p) then t.ptnHolds p else (0, 0)
    s.jobState j == 2 && !t.stops j && s.flag (R.STG_PTN_CFG.ENABLE p)
      && ((setBits 16 old.1).any (fun k => !bit new.1 k) || (setBits 32 old.2).any (fun k => !bit new.2 k)))

/-- Save area of a job: base and bytes (R324). -/
def State.saveArea (t : State) (j : Nat) : Nat × Nat := (t.get64 (R.STG_JOB_SAVE_LO.N j) (R.STG_JOB_SAVE_HI.N j), 34603008)

/-- JOB_SAVE (R324). -/
def failSave (_ t : State) : Bool :=
  let js := t.boundJobs.filter (fun j => t.background (t.jobPart j))
  js.any (fun j => (t.saveArea j).1 % 65536 != 0 || !t.ownedBy (t.jobPart j) (t.saveArea j).1 (t.saveArea j).2)
    || anyPair (fun a b => !apart (t.saveArea a) (t.saveArea b)) js

/-- JOB_PAIR (R238): a pair that the stage makes does not fit, or a started job lacks an image or a weight set. -/
def failPair (_ t : State) : Bool :=
  (List.range 64).any (fun j =>
    let touched := (keyGet t.stage.images j).isSome || (keyGet t.stage.weights j).isSome
    match t.nextImage j, t.nextWeights j with
    | some i, some w => touched && !t.weightsFit i w.wlayout w.bytes
    | _, _ => t.starts j)

/-- Jobs that run once the stage applies: started, or RUNNING or PREEMPTED and not stopped. -/
def State.willRun (t : State) (j : Nat) : Bool := t.starts j || ((t.jobState j == 2 || t.jobState j == 3) && !t.stops j)

/-- JOB_MAP (R254, R258), on live state. -/
def failMap (_ t : State) : Bool :=
  (List.range 64).any (fun j => t.willRun j && (match t.nextImage j with
    | none => false
    | some i =>
      let p := t.jobPart j
      (firstFit (t.maps i) (t.ptnCores p).length).isNone || decide (i.pipes > (setBits 32 (t.ptnHolds p).2).length)))

/-- JOB_REF (R291). -/
def failRef (_ t : State) : Bool := t.stage.refs.any (·.short)

/-- JOB_AREA (R380). -/
def failArea (_ t : State) : Bool :=
  let ps := (List.range 8).filter (fun p => (t.areaOf p).2 != 0)
  ps.any (fun p => !t.ownedBy p (t.areaOf p).1 (t.areaOf p).2) || anyPair (fun a b => !apart (t.areaOf a) (t.areaOf b)) ps

/-! ### Rules 35 to 37: sync objects -/

/-- The configuration of object `o` once the stage applies. -/
def State.soNext (t : State) (o : Nat) : SoCfg := (keyGet t.stage.sos o).getD (t.so o).cfg

/-- Every object that is configured or staged, with that configuration. -/
def State.soAll (t : State) : List SoCfg :=
  (t.sync.objs.filter (fun e => (keyGet t.stage.sos e.1).isNone)).map (fun e => e.2.cfg) ++ t.stage.sos.map (·.2)

/-- The records of the jobs' images that name a sync object: partition, whether it is a LAUNCH, the object. A record
that names its strip's object names none. -/
def State.recordObjects (t : State) : List (Nat × Bool × Nat) :=
  (List.range 64).flatMap (fun j => match t.nextImage j with
    | none => []
    | some i =>
      (recordsOf (i.lists.2 / 32 + 1) 0 (t.modBytes (i.base + i.lists.1) i.lists.2)).filterMap (fun r =>
        if r.type = 6 then some (t.jobPart j, true, fieldAt r.head 26 2 % 16384)
        else if (r.type = 4 || r.type = 5) && fieldAt r.head 10 1 = 0 then some (t.jobPart j, false, fieldAt r.head 8 2 % 16384)
        else none))

/-- Objects that blocks name as counters (R346). -/
def State.counterUses (t : State) : List Nat :=
  (List.range 16).flatMap (fun c => (List.range 8).flatMap (fun k =>
    if t.strType c k = 1 || t.strType c k = 2 || t.strType c k = 3 then (List.range (t.bufs c k)).map (t.bufSo c k) else []))
    ++ (if t.flag R.ADP_CAP_CFG.ENABLE then [t.get R.ADP_CAP_SO.SO] else [])
    ++ ((List.range 4).filter (fun a => t.flag (R.ADP_AUD_CFG.ENABLE a) && t.flag (R.ADP_AUD_CFG.PRIV a))).map
      (fun a => t.get (R.ADP_AUD_SO.SO a))
    ++ (if t.flag R.ADP_PUB_CFG.ENABLE then [t.get R.ADP_PUB_SO.REQ, t.get R.ADP_PUB_SO.DONE] else [])
    ++ ((List.range 16).filter (fun e => t.flag (R.GTS_HX_CFG.ENABLE e) && t.get (R.GTS_HX_CFG.DIR e) == 1)).map
      (fun e => t.get (R.GTS_HX_BUF.SO e))

/-- SO_TYPE (R346). -/
def failSoType (_ t : State) : Bool :=
  t.stage.sos.any (fun e => decide (e.2.type > 4) || (e.2.type == 3 && e.2.init % 65536 == 0))
    || t.counterUses.any (fun o => (t.soNext o).type != 2)
    || (t.flag R.ADP_IN_CFG.ENABLE && [t.get R.ADP_IN_SO.READY, t.get R.ADP_IN_SO.FREE].any (fun o => (t.soNext o).type != 1))
    || t.stagedEntries.any (fun e => e.2.action == 10 && (t.soNext (bits e.2.param 13 0)).type != 4)
    || t.recordObjects.any (fun x => x.2.1 && (t.soNext x.2.2).type != 1 && (t.soNext x.2.2).type != 2)

/-- A configuration breaks R343. -/
def State.badHolding (t : State) (c : SoCfg) : Bool :=
  let rt := (List.range 8).find? (fun p => t.flag (R.STG_PTN_CFG.ENABLE p) && t.flag (R.STG_PTN_CFG.RT p))
  (c.holding && (c.type != 1 || !c.cross || !(Limit.within 10 65535).keeps c.holdUs
      || (List.range 8).any (fun p => t.background p && (c.owner == p || bit c.access p)
        && decide (c.holdUs + 250 ≥ t.get (R.STG_PTN_SLICE.SLICE_US p)))))
    || ((c.type == 1 || c.type == 3) && c.cross && (match rt with
      | some p => c.owner == p || bit c.access p
      | none => false))

/-- SO_HOLD (R343). -/
def failSoHold (_ t : State) : Bool := t.soAll.any t.badHolding

/-- A partition may use an object of a configuration (R340). -/
def SoCfg.mayUse (c : SoCfg) (p : Nat) : Bool := c.owner == p || (c.cross && bit c.access p)

/-- SO_ACCESS (R340, R346). -/
def failSoAccess (_ t : State) : Bool :=
  t.recordObjects.any (fun x => (t.soNext x.2.2).type != 0 && !(t.soNext x.2.2).mayUse x.1)

/-! ### Rules 38 to 40: adaptation -/

/-- The partition that holds the inspection job. -/
def State.inspects (t : State) (p : Nat) : Bool := t.flag (R.STG_PTN_CFG.ENABLE p) && t.flag (R.STG_PTN_CFG.RT p)

/-- ADP_CAP (R284). ENABLE stands in the first case alone. -/
def failCapture (_ t : State) : Bool :=
  let p := t.get R.ADP_CAP_CFG.PART
  let pages := t.get R.ADP_CAP_GEOM.PAGES * 65536
  ((List.range 64).filter t.capNamed).any (fun m =>
    let w := (t.reg (R.PSQ_LANE_COLS m)).toNat
    let c := colsCamera w
    (t.flag R.ADP_CAP_CFG.ENABLE && t.strType c (t.get R.ADP_CAP_CFG.STREAM) != 1)
      || decide (64 + (t.capPlanes c).length * t.get R.ADP_CAP_ROWS.ROWS_MAX * t.capRowBytes w > pages))
  || !t.ownedBy p (t.capSlotAddr 0) (t.get R.ADP_CAP_GEOM.SLOTS * pages)
  || !t.ownedBy p (t.get64 R.ADP_CAP_LIST_LO.N R.ADP_CAP_LIST_HI.N) (t.get R.ADP_CAP_N.N * 32)
  || t.inspects p

/-- ADP_IN (R297), whatever ENABLE. A semaphore lies in the partition that owns it (R320). -/
def failInput (_ t : State) : Bool :=
  let p := t.get R.ADP_IN_CFG.PART
  let batch := t.inHeader + t.inB * t.inSlot
  let list := t.get64 R.ADP_IN_LIST_LO.N R.ADP_IN_LIST_HI.N
  let n := if t.flag R.ADP_IN_CFG.SRC_CAP then t.get R.ADP_CAP_N.N else t.get R.ADP_IN_COUNT.N
  t.inspects p || !t.ownedBy p list (n * 32)
    || !t.ownedBy p (t.get64 R.ADP_IN_Q_LO.N R.ADP_IN_Q_HI.N) (t.get R.ADP_IN_CFG.QDEPTH * batch)
    || [t.get R.ADP_IN_SO.READY, t.get R.ADP_IN_SO.FREE].any (fun o => (t.soNext o).owner != p)
    || decide (batch > 4294967296)
    || (t.flag R.ADP_IN_CFG.SRC_CAP && list != t.get64 R.ADP_CAP_LIST_LO.N R.ADP_CAP_LIST_HI.N)

/-- ADP_AUD (R300). -/
def failAudio (_ t : State) : Bool :=
  (List.range 4).any (fun a =>
    t.get (R.ADP_AUD_CFG.HOP a) == 3
      || (List.range 16).any (fun b => decide (t.get (R.ADP_AUD_BAND.K1 a b) > t.fftSize a / 2)))

/-! ### Rules 41 and 42: the network -/

/-- NET_CFG (R366). -/
def failNet (_ t : State) : Bool :=
  t.stage.nets.any (fun e =>
    (bit (fieldAt e.2 0 1) 0 && fieldAt e.2 1 1 % 4 == 0) || decide (fieldAt e.2 8 1 > 32) || decide (fieldAt e.2 32 1 > 128))

/-- ALLOW_LIST (R368). -/
def failAllow (_ t : State) : Bool := match t.stage.allow with
  | none => false
  | some f =>
    let n := fieldAt f 4 4
    f.take 4 != [0x4B, 0x41, 0x4C, 0x31] || !(Limit.within 1 256).keeps n || !zeroIn f 8 8 || f.length != 16 + 36 * n

/-! ### The checker (R382, R386) -/

/-- The rules by ascending code; true marks a rule that depends on live state (L). -/
def rules : List (Nat × Bool × (State → State → Bool)) :=
  [(1, false, failRange), (2, false, failEncRange), (3, false, failEncPeriod), (4, false, failHyst), (5, false, failFail),
    (6, true, failRezero), (7, false, failTrack), (8, false, failAction), (9, false, failLaneOff), (10, false, failPartCap),
    (11, false, failLead), (12, false, failLaneRate), (13, false, failLaneLoop), (14, false, failCamGroup)]
  ++ [(15, false, failCamGeom), (16, false, failCamBuffer), (17, false, failDelay), (18, false, failFilter),
    (19, false, failShelf), (20, false, failStream), (21, false, failCrop), (22, false, failEngine), (23, false, failSet),
    (24, false, failShard), (25, false, failRegion), (26, false, failShelfWin), (27, false, failWays), (28, false, failResource)]
  ++ [(29, true, failRemove), (30, false, failSave), (31, false, failPair), (32, true, failMap), (33, false, failRef),
    (34, false, failArea), (35, false, failSoType), (36, false, failSoHold), (37, false, failSoAccess), (38, false, failCapture),
    (39, false, failInput), (40, false, failAudio), (41, false, failNet), (42, false, failAllow)]

/-- The code of the first rule that the stage fails, or 0; with `live`, of the rules marked L only (R382). -/
def State.checkStage (s : State) (live : Bool) : Nat :=
  let t := s.withStage
  ((rules.find? (fun r => (r.2.1 || !live) && r.2.2 s t)).map (·.1)).getD 0

end Sys2Proof.Machine
end

