-- ==== Sys2Proof/Machine/Commit.lean ====
section
/-! DEFINITION. Machine/Commit.lean: the COMMIT and DISCARD opcodes, the end of the consistency check, and the commit
tick (spec/17_staging_commit.md, R378-R385). -/

namespace Sys2Proof.Machine

/-! ### The freeze and its end (R379, R381, R382) -/

/-- The stage unfreezes with no commit under way; the tick of a freeze's end is kept (R381). -/
def State.unfreeze (s : State) : State :=
  ((s.drop R.STG_STATUS.FROZEN).drop R.STG_STATUS.CHECKING).drop R.STG_STATUS.PENDING
    |>.setStage { s.stage with
      commit := none, thawed := if s.flag R.STG_STATUS.FROZEN then some s.dtime else s.stage.thawed }

/-- The stage equals the configuration in force (R379); no published weights wait in it. -/
def State.emptyStage (s : State) : State :=
  let s := s.unfreeze
  ({ s with staged := [], stage := { thawed := s.stage.thawed } }).drop R.ADP_PUB_STATUS.STAGED

/-- The COMMIT descriptor of a commit completes; a commit that firmware requested has none. -/
def State.commitEnds (s : State) (c : PendingCommit) (st : Status) (result : Nat) : State :=
  match c.ring with
  | none => s
  | some (r, i) => match s.client.started.find? (fun d => d.ring == r && d.index == i) with
    | none => s
    | some d => s.complete d st result

/-- The stage freezes and its check begins (R382 steps 1 and 2). -/
def State.beginCheck (s : State) (c : PendingCommit) : State :=
  ((s.raise R.STG_STATUS.FROZEN).raise R.STG_STATUS.CHECKING).setStage { s.stage with commit := some c }

/-- COMMIT (R382): at most one commit is checked or pending. -/
def execCommit (ring : Fin 8192) (index : BitVec 32) (s : State) : Host.Outcome State Fault Refusal :=
  .next (match s.startedAs ring.val index.toNat 0x21 with
    | none => s
    | some d =>
      if s.stage.commit.isSome then s.complete d .commitPending 0
      else
        let ds := s.client.started.map (fun x => if x == d then { x with waiting := true } else x)
        { s with client := { s.client with started := ds } }.beginCheck
          { ring := some (d.ring, d.index), when_ := d.param 24 1, at_ := d.param 32 8 })

/-- A commit is refused (R382 step 3) with the code of the failing rule. -/
def State.refuseCommit (s : State) (c : PendingCommit) (code : Nat) : State :=
  ((s.unfreeze.put R.STG_LAST.RULE code).bump R.STG_CNT_REFUSED.N).commitEnds c .checkFailed code

/-- What firmware reads for the check, where the regions in force reach it: of each job's image its lists, maps and weight
layout, and the shard maps of the stage's enabled sets (log entry 20). -/
def State.checkReads (s : State) : List (Nat × Nat) :=
  let t := s.withStage
  let images := ((List.range 64).filterMap s.nextImage).flatMap (fun i =>
    [i.lists, i.mapSec, i.wlay].map (fun x => (i.base + x.1, x.2)))
  let maps := (t.setsOn.filter (fun k => cfgFabric (t.setCfg k))).map (fun k => (cfgMap (t.setCfg k), 1024))
  (images ++ maps).filter (fun r => s.reachable .firmware r.1 r.2)

/-- COMMIT_CHECK_DONE (R382 steps 3 and 4, R383). A hard fault in what the check reads ends the commit with PARITY (R314, log
entry 20). -/
def execCommitCheckDone (s : State) : Host.Outcome State Fault Refusal :=
  .next (match s.stage.commit with
    | none => s
    | some c =>
      if !s.flag R.STG_STATUS.CHECKING then s
      else match s.loadAll .firmware s.checkReads with
      | (false, _, s) => s.unfreeze.commitEnds c .parity 0
      | (true, _, s) =>
        let code := s.checkStage false
        if code ≠ 0 then s.refuseCommit c code
        else
          let s := ((s.drop R.STG_STATUS.CHECKING).raise R.STG_STATUS.PENDING).setStage
            { s.stage with commit := some { c with since := s.dtime } }
          if s.atReached c then s.latch R.STG_STATUS.LATE_TRIGGER else s)

/-! ### Jobs (R240, R254, R323, R385) -/

/-- A stop: the contexts of the job are released; parts of the real-time job that are not yet DECIDED are not inspected. -/
def State.stopJob (s : State) (j : Nat) : State :=
  if !s.jobLive j then s
  else
    let s := if s.isRt j then
        (s.liveParts.filter (fun i => (s.part i).core.job == j)).foldl (fun (s : State) i => s.markIncomplete i) s
      else s
    ((s.releaseJob j).leaveSlice j).setJobState j .stopped

/-- Bind a running job under the first map of its image that fits, and start what its cores owe (R254). -/
def State.rebind (s : State) (j : Nat) (i : ImageRef) : State :=
  s.underMap j i (fun s k m =>
    let s := (s.bindMap j k m).requeue j
    (s.job j).bound.foldl (fun (s : State) n => s.coreNext j n) s)

/-- A start: the real-time job runs at once, a background job waits for its slice (R323, R325). -/
def State.startJob (s : State) (j : Nat) : State :=
  let s := s.setJob j { s.job j with queues := [], ptrs := [], bound := [], saved := [], switchDue := false, blockedSince := none }
  let p := s.jobPart j
  match (s.job j).pair with
  | none => s
  | some pr =>
    if s.isRt j then
      (((s.setJobState j .running).raise (R.STG_PTN_STATUS.VALID p)).put (R.STG_PTN_STATUS.JOB p) j).rebind j pr.image
    else s.setJobState j .preempted

/-- The saved contexts of a job that waits for its slice owe the setup lists of a new pair. -/
def oweSetup (x : List (Nat × SavedCore)) : List (Nat × SavedCore) := x.map (fun e => (e.1, { e.2 with setup := true }))

/-- The pointers of a pair's classes, and of another pair of the same image from where they stand: a commit of weights alone
leaves them (R256). -/
def copyPtrs (ptrs : List (Nat × Nat)) (old new : Nat) : List (Nat × Nat) :=
  (ptrs.filter (fun e => e.1 / 256 == old)).foldl (fun acc e => keyPut acc (new * 256 + e.1 % 256) e.2) ptrs

/-- A new image or weight set of a job comes into force (R240): the old pair stays for the parts opened under it, a
running job is bound under the new image's map, and its cores run the setup lists of that map (log entry 41); a map switch that is
owed waits for its part boundary (R255). -/
def State.takePair (s : State) (j : Nat) : State :=
  match s.nextImage j, s.nextWeights j with
  | some i, some w =>
    let jb := s.job j
    let olds := s.oldPairs j ++ jb.pair.toList
    let s := s.setJob j { jb with
      pair := some ⟨i, w, jb.gens⟩, old := olds, oldMaps := jb.oldMaps ++ jb.pair.toList.map (fun p => (p.gen, jb.map))
      ptrs := match jb.pair with
        | some p => if p.image == i then copyPtrs jb.ptrs p.gen jb.gens else jb.ptrs
        | none => jb.ptrs
      gens := jb.gens + 1, loneImage := none, loneWeights := none }
    if s.jobState j = 2 && !jb.switchDue then s.rebind j i
    else if s.jobState j = 2 || s.jobState j = 3 then
      let k := ((firstFit (s.maps i) (s.ptnCores (s.jobPart j)).length).map (·.1)).getD 0
      s.setJob j { s.job j with map := k, saved := oweSetup (s.job j).saved }
    else if s.jobState j = 0 then s.setJobState j .loaded
    else s
  | i, w => s.setJob j { s.job j with loneImage := i, loneWeights := w }

/-- Pairs, reference images and starts of the stage (R240, R291, R385). -/
def State.jobsCommit (s : State) : State :=
  let js := (List.range 64).filter (fun j => (keyGet s.stage.images j).isSome || (keyGet s.stage.weights j).isSome)
  let s := js.foldl (fun (s : State) j => s.takePair j) s
  let s := s.stage.refs.foldl (fun (s : State) r =>
    s.setJob r.job { s.job r.job with refs := (s.job r.job).refs.filter (fun x => x.slot != r.slot) ++ [r] }) s
  ((List.range 64).filter (fun j => s.starts j)).foldl (fun (s : State) j => s.startJob j) s

/-- A core that changes partition is scrubbed before its first command there (R322). -/
def State.coresCommit (s old : State) : State :=
  (List.range 16).foldl (fun (s : State) n =>
    if s.inService n && (List.range 8).any (fun p => s.coreOf n p && !old.coreOf n p) then s.scrub n else s) s

/-! ### Capture, tables, the window, sync objects, the fabric, the network -/

/-- Candidates open at the commit are not kept (R281, R284); with `free` their slots are free at once. -/
def State.endCandidates (s : State) (free : Bool) : State :=
  { s with seq := { s.seq with parts := s.seq.parts.map (fun e =>
      (e.1, { e.2 with vd := { e.2.vd with
        capture := e.2.vd.capture.map (fun r => { r with dead := true, freed := r.freed || free }) } })) } }

/-- Capture at a commit (R281, R284): a new pair of the captured job ends a running capture, and then ARM starts one. -/
def State.captureCommit (s old : State) : State :=
  let replaced := match old.adp.capPair with
    | none => false
    | some (j, _) => (keyGet s.stage.images j).isSome || (keyGet s.stage.weights j).isSome
  let s := if replaced && old.get R.ADP_CAP_STATUS.STATE == 1 then (s.put R.ADP_CAP_STATUS.STATE 3).endCandidates false else s
  if s.flag R.ADP_CAP_CFG.ARM then
    let s := ((s.drop R.ADP_CAP_CFG.ARM).put R.ADP_CAP_STATUS.STATE 1).drop R.ADP_CAP_STATUS.KEPT
    { s.endCandidates true with adp := { s.adp with kept := [], capLeft := [] } }
  else s

/-- Capture that this commit has armed takes parts under the image and weight set now in force (R281). -/
def State.captureArmed (s old : State) : State :=
  if !old.withStage.flag R.ADP_CAP_CFG.ARM then s
  else { s with adp := { s.adp with
    capPair := s.rtJob.bind (fun j => (s.job j).pair.map (fun p => (j, p.image.digest, p.weights.digest))) } }

/-- The correction tables of the stage come into force (R123), written to the Shelf with good parity. -/
def State.tablesCommit (s : State) : State :=
  let cams := (s.stage.tables.map (·.1)).dedup
  let s := s.stage.tables.foldl (fun (s : State) x =>
    let t := s.tables x.1
    let t := match x.2.1 with
      | 0 => { t with dark := some x.2.2 }
      | 1 => { t with gain := some x.2.2 }
      | _ => { t with defect := some x.2.2 }
    { s with lp := { s.lp with tables := keyPut s.lp.tables x.1 t } }) s
  cams.foldl (fun (s : State) c =>
    let a := s.tableBase c
    let n := s.tableBytes c
    { s with
      lp := { s.lp with badTables := s.lp.badTables.filter (· != c) }
      cel := { s.cel with
        bad := s.cel.bad.filter (fun b => b.stuck || !(decide (a ≤ b.word * 4) && decide (b.word * 4 < a + n))) } }) s

/-- A change of K or N empties the disagreement window (R398). -/
def State.windowCommit (s old : State) : State :=
  if old.reg R.SDG_WIN = s.reg R.SDG_WIN then s else { s with sdg := { s.sdg with win := [] } }

/-- Restaged sync objects (R345). -/
def State.soCommit (s : State) : State := s.stage.sos.foldl (fun (s : State) e => s.restage e.1 e.2) s

/-- The publication counter counts on from its value where its object was restaged, or publication is enabled or takes
another object (log entry 42). -/
def State.pubCommit (s old : State) : State :=
  let o := s.get R.ADP_PUB_SO.REQ
  if (keyGet s.stage.sos o).isSome || old.get R.ADP_PUB_SO.REQ != o
      || (s.flag R.ADP_PUB_CFG.ENABLE && !old.flag R.ADP_PUB_CFG.ENABLE) then
    { s with adp := { s.adp with served := (s.so o).value } }
  else s

/-- A port of the fabric at a commit (R428): enabled, disabled, or touched while ISOLATED. -/
def State.portCommit (s old : State) (p : Nat) : State :=
  let on := s.flag (R.GTS_G_CFG.ENABLE p)
  let was := old.flag (R.GTS_G_CFG.ENABLE p)
  let touched := old.reg R.GTS_CFG != s.reg R.GTS_CFG || old.reg R.GTS_MEMBERS_LO != s.reg R.GTS_MEMBERS_LO
    || old.reg R.GTS_MEMBERS_HI != s.reg R.GTS_MEMBERS_HI || old.reg (R.GTS_G_CFG p) != s.reg (R.GTS_G_CFG p)
    || old.reg (R.GTS_G_ASYM p) != s.reg (R.GTS_G_ASYM p)
  if !on then (if was then ((s.linkDown p).put (R.GTS_G_STATUS.STATE p) 0).drop (R.GTS_G_STATUS.REASON p) else s)
  else if !was || (s.portState p == 4 && touched) then
    ((s.put (R.GTS_G_STATUS.STATE p) 1).drop (R.GTS_G_STATUS.REASON p)).trainDone p
  else s

/-- A set whose shard map lies elsewhere from this commit on has no shard that promotion made single-copy (R233, R439). -/
def State.mapsCommit (s old : State) : State :=
  { s with gts := { s.gts with
    single := s.gts.single.filter (fun e => cfgMap (old.setCfg e.1) == cfgMap (s.setCfg e.1)) } }

/-- The fabric at a commit: ports, then the routes if this module's place in the fabric changed (R428, R434). -/
def State.fabricCommit (s old : State) : State :=
  let s := (List.range 8).foldl (fun (s : State) p => s.portCommit old p) (s.mapsCommit old)
  if old.reg R.GTS_CFG != s.reg R.GTS_CFG || old.reg R.GTS_MEMBERS_LO != s.reg R.GTS_MEMBERS_LO
      || old.reg R.GTS_MEMBERS_HI != s.reg R.GTS_MEMBERS_HI then s.portsChanged else s

/-- The network configuration and the allow list come into force and go to flash (R366, R368, R474). -/
def State.netCommit (s : State) : State :=
  let st := s.stage
  if st.nets.isEmpty && st.allow.isNone then s
  else
    let n := s.client.net
    let n := { n with
      ports := st.nets.foldl (fun (l : List (List Byte)) e => setNth l e.1 e.2) n.ports, allow := st.allow.getD n.allow }
    let s := { s with client := { s.client with net := n } }.saveConfig
    let s := s.portsCommit
    if st.allow.isSome then s.allowCommit else s

/-! ### The commit tick (R378, R382-R385) -/

/-- The stage comes into force, block by block on one tick. Stops act under the configuration before the commit, and
strips of a stream that changes are posted before it does. -/
def State.applyStage (s : State) : State :=
  let old := s
  let rezero := s.withStage.flag R.POS_CTL.REZERO
  let s := s.lpEnd s.withStage
  let s := ((List.range 64).filter (fun j => s.stops j)).foldl (fun (s : State) j => s.stopJob j) s
  let s := (s.withStage.captureCommit old).coresCommit old
  let s := ((s.posCommit old).seqCommit old rezero).waysCommit old
  let s := ((s.cameraCommit old).tablesCommit.lpCommit old).fieldCommit old
  let s := (((s.windowCommit old).soCommit.pubCommit old).deepCommit).freqCommit
  let s := s.jobsCommit.captureArmed old
  let s := ((s.inCommit old).audCommit old).tpoCommit old
  let s := ((s.clkCommit old).fabricCommit old).ptpCommit old
  s.netCommit

/-- An applied commit (R378, R379, R382 step 5): pending pair values are discarded, and its tick is noted. -/
def State.applyCommit (s : State) (c : PendingCommit) : State :=
  let s := s.applyStage.emptyStage
  let s := { s with pairs := [] }.drop R.STG_STATUS.PAIR_OPEN
  let s := (s.put64 R.STG_COMMIT_DTIME_LO.N R.STG_COMMIT_DTIME_HI.N s.dtime).bumpWrap R.STG_COMMIT_CNT.N
  (s.settle.commitEnds c .ok s.dtime).settle

/-- The commit tick (R382 step 5): the rules that depend on live state are judged again. -/
def State.commitTick (s : State) : State :=
  match s.commitDue with
  | none => s
  | some c =>
    let code := s.checkStage true
    if code ≠ 0 then s.refuseCommit c code else s.applyCommit c

/-- COMMIT_APPLY (R384). -/
def execCommitApply (s : State) : Host.Outcome State Fault Refusal := .next s.commitTick

/-- DISCARD (R358, R381): the stage is emptied, and a commit under way ends with DISCARDED. -/
def execDiscard (ring : Fin 8192) (index : BitVec 32) (s : State) : Host.Outcome State Fault Refusal :=
  .next (match s.startedAs ring.val index.toNat 0x22 with
    | none => s
    | some d =>
      let c := s.stage.commit
      let s := s.emptyStage
      let s := match c with
        | none => s
        | some c => s.commitEnds c .discarded 0
      s.complete d .ok 0)

end Sys2Proof.Machine
end

