-- ==== Sys2Proof/Machine/Loft.lean ====
section
/-! DEFINITION. Machine/Loft.lean: the Loft engine: histograms, extremes, the event ring and the window
(spec/22_time_and_loft.md, R468-R473). -/

namespace Sys2Proof.Machine

/-- TYPE of an accumulator record (R468, table *Accumulators*). -/
def accType (r : Nat) : Nat :=
  if r = 0 || r = 1 || r = 3 || (decide (16 ≤ r) && decide (r < 32)) then 1
  else if r = 2 || (decide (32 ≤ r) && decide (r < 48)) then 2
  else 0

/-- BIN0 and BINW of a histogram record. -/
def State.bins (s : State) (r : Nat) : Int × Nat :=
  if r ≤ 1 then (s.getInt (R.LOFT_A0_BIN0.N r), s.get (R.LOFT_A0_BINW.N r))
  else if r = 3 then (s.getInt R.LOFT_A3_BIN0.N, s.get R.LOFT_A3_BINW.N)
  else (s.getInt (R.LOFT_A16_BIN0.N (r - 16)), s.get (R.LOFT_A16_BINW.N (r - 16)))

/-- Accumulator record `r`. -/
def State.acc (s : State) (r : Nat) : LoftAcc := (keyGet s.loft.accs r).getD {}

/-- A histogram takes a value (R469). -/
def LoftAcc.histogram (a : LoftAcc) (bin0 : Int) (binw : Nat) (v : Int) : LoftAcc :=
  let a := { a with count := satNat 64 (a.count + 1), sum := sat64 (a.sum + v) }
  if v < bin0 then { a with underBin := satNat 32 (a.underBin + 1) }
  else
    let b := toU64 (v - bin0) / binw
    if b ≥ 48 then { a with overBin := satNat 32 (a.overBin + 1) }
    else { a with bins := setNth a.bins b (satNat 32 (nth a.bins b 0 + 1)) }

/-- Extremes take a value (R470). -/
def LoftAcc.extremes (a : LoftAcc) (v : Int) (part dtime : Nat) : LoftAcc :=
  let first := a.count == 0
  let a := { a with count := satNat 64 (a.count + 1), sum := sat64 (a.sum + v) }
  let a := if first || decide (v < a.min) then { a with min := v, minDtime := dtime, minPart := part } else a
  if first || decide (v > a.max) then { a with max := v, maxDtime := dtime, maxPart := part } else a

/-- An accumulator takes a value: its count of updates, its stamps and its body (R468). -/
def State.takeValue (s : State) (r : Nat) (v : Int) (part dtime wpos : Nat) : State :=
  let a := s.acc r
  let b := match accType r with
    | 1 => a.histogram (s.bins r).1 (s.bins r).2 v
    | _ => a.extremes v part dtime
  let b := { b with seq := u32 (a.seq + 1), dtime := dtime, wpos := wpos }
  if accType r = 0 then s else { s with loft := { s.loft with accs := keyPut s.loft.accs r b } }

/-- An event takes the next number and its place in the ring (R471); the first after a drop carries AFTER_DROP (R472). -/
def State.takeEvent (s : State) (code part : Nat) (data : List Byte) (dtime wpos : Nat) : State :=
  let n := s.loft.head
  let e : LoftEvent := ⟨code, n, dtime, wpos, part, s.loft.dropped, sliceBytes data 0 216⟩
  { s with loft := { s.loft with
      events := keyPut s.loft.events (128 + n % 896) e, head := u32 (n + 1), dropped := false } }

/-- Place of an item among those of one tick: accumulators by record, then events by code (R472). -/
def LoftItem.rank : LoftItem → Nat
  | .value r _ _ _ _ => r
  | .event c _ _ _ _ => 128 + c

/-- The tick of an item. -/
def LoftItem.tick : LoftItem → Nat
  | .value _ _ _ t _ => t
  | .event _ _ _ t _ => t

/-- Index of the item to apply next: of those queued on the tick of the first, the lowest rank, in order of arrival. -/
def nextItem (q : List LoftItem) : Nat :=
  match q with
  | [] => 0
  | x :: _ =>
    let same := q.takeWhile (fun y => y.tick == x.tick)
    let m := same.foldl (fun m y => Nat.min m y.rank) x.rank
    same.findIdx (fun y => y.rank == m)

/-- LOFT_UPDATE (R472): the Loft engine applies one queued update. -/
def execLoftUpdate (s : State) : Host.Outcome State Fault Refusal :=
  let k := nextItem s.loft.queue
  .next (match s.loft.queue[k]? with
    | none => s
    | some i =>
      let s := { s with loft := { s.loft with queue := s.loft.queue.eraseIdx k } }
      match i with
      | .value r v p t w => s.takeValue r v p t w
      | .event c p d t w => s.takeEvent c p d t w)

/-- A clear sets an accumulator's counts, SUM and SEQ to 0; with COUNT 0 its extremes and stamps read 0 (R470). -/
def State.clearAcc (s : State) (r : Nat) : State :=
  if accType r = 0 then s
  else
    let a := s.acc r
    { s with loft := { s.loft with accs := keyPut s.loft.accs r { ({} : LoftAcc) with dtime := a.dtime, wpos := a.wpos } } }

/-- LOFT_CLEAR_ONE (R468): one accumulator. -/
def execLoftClearOne (record : BitVec 10) (s : State) : Host.Outcome State Fault Refusal :=
  .next (s.written R.LOFT_CLEAR (fun s => s.clearAcc record.toNat))

/-- Every accumulator is cleared. -/
def State.clearAccs (s : State) : State := (List.range 128).foldl (fun (s : State) r => s.clearAcc r) s

/-- LOFT_CLEAR_ALL (R468). -/
def execLoftClearAll (s : State) : Host.Outcome State Fault Refusal :=
  .next (s.written R.LOFT_CLEAR (fun s => s.clearAccs))

/-- LOFT_CLEAR_DROP (R472). -/
def execLoftClearDrop (s : State) : Host.Outcome State Fault Refusal :=
  .next (s.written R.LOFT_CLEAR (fun s => s.put R.LOFT_CNT_DROP.N 0))

/-- LOFT_CUR_WRITE (R473): the record shown in the window. -/
def execLoftCurWrite (record : BitVec 10) (s : State) : Host.Outcome State Fault Refusal :=
  .next (s.written R.LOFT_CUR (fun s => s.put R.LOFT_CUR.RECORD record.toNat))

/-! ### The window (R468, R473) -/

/-- Body bytes 24-247 of an accumulator. -/
def State.accBody (s : State) (r : Nat) : List Byte :=
  let a := s.acc r
  let sum := leBytes 8 a.count ++ leBytes 8 (toU64 a.sum)
  match accType r with
  | 1 => leBytes 4 (toU32 (s.bins r).1) ++ leBytes 4 (s.bins r).2 ++ leBytes 4 a.underBin ++ leBytes 4 a.overBin ++ sum
      ++ a.bins.flatMap (leBytes 4)
  | 2 => sum ++ leBytes 8 (toU64 a.min) ++ leBytes 8 a.minDtime ++ leBytes 4 a.minPart ++ leBytes 4 a.maxPart
      ++ leBytes 8 (toU64 a.max) ++ leBytes 8 a.maxDtime ++ List.replicate 168 0
  | _ => List.replicate 224 0

/-- Bytes 0-251 of record `r`. -/
def State.loftBody (s : State) (r : Nat) : List Byte :=
  if r < 128 then
    let a := s.acc r
    let t := accType r
    leBytes 2 t ++ leBytes 2 (if t = 0 then 0 else r) ++ leBytes 4 a.seq ++ leBytes 8 a.dtime ++ leBytes 8 a.wpos
      ++ s.accBody r ++ leBytes 4 0
  else match keyGet s.loft.events r with
    | none => List.replicate 252 0
    | some e => leBytes 2 3 ++ leBytes 2 e.code ++ leBytes 4 e.seq ++ leBytes 8 e.dtime ++ leBytes 8 e.wpos
        ++ leBytes 4 e.part ++ leBytes 4 (if e.afterDrop then 1 else 0) ++ e.data ++ leBytes 4 0

/-- Record `r`: 256 bytes with the CRC-32 over bytes 0-251 (R468). -/
def State.loftRecord (s : State) (r : Nat) : List Byte := s.loftBody r ++ leBytes 4 (crc32 (s.loftBody r))

end Sys2Proof.Machine
end

