-- ==== Sys2Proof/Machine/Matrix.lean ====
section
/-! DEFINITION. Machine/Matrix.lean: the matrix command: operands, tile geometry, the address generator, accumulation
and the drain conversions (spec/07_matrix_cores.md, R145-R164; spec/09_windows_and_vectors.md, R188-R197). Commands are
followed in the order of R150, segment after segment, the next one loading while one streams. Log entry 25 gives the order of a weight tile's elements, log entry 27
the readings of the window checks and counters. -/

namespace Sys2Proof.Machine

/-! ### Formats (R154, *Format codes*) -/

/-- Bytes of an element, by format code; 0 for Q4B32. -/
def fmtBytes : Nat → Nat
  | 0 => 1 | 1 => 1 | 2 => 1 | 3 => 1 | 4 => 2 | 5 => 2 | 6 => 4 | 7 => 2 | 8 => 4 | 9 => 8 | _ => 0

/-- Family of a format: formats of one family may be mixed (R153). -/
def fmtFamily : Nat → Nat
  | 0 => 0 | 1 => 0 | 2 => 1 | 3 => 1 | n => n

/-- The floating format of a code. -/
def fmtFp : Nat → Option FpFmt
  | 2 => some .e4m3 | 3 => some .e5m2 | 4 => some .bf16 | 5 => some .fp16 | 6 => some .fp32 | _ => none

/-- The format is a floating one. -/
def fmtIsFp (f : Nat) : Bool := (fmtFp f).isSome

/-- An integer element's value. -/
def elemInt (f raw : Nat) : Int := if f = 1 then (raw % 256 : Nat) else signed (8 * fmtBytes f) raw

/-- A floating element's value. -/
def elemFp (f raw : Nat) : Fp := match fmtFp f with
  | some x => x.decode raw
  | none => .ofInt (elemInt f raw)

/-- Least and greatest value of an integer format. -/
def intLo : Nat → Int
  | 0 => -128 | 1 => 0 | 7 => -32768 | 8 => -2147483648 | _ => -9223372036854775808
def intHi : Nat → Int
  | 0 => 127 | 1 => 255 | 7 => 32767 | 8 => 2147483647 | _ => 9223372036854775807

/-! ### Operands (R147, R243) -/

/-- A matrix command. -/
structure Mx where
  wide : Bool
  trans : Bool
  multi : Nat
  load : Bool
  sat : Bool
  round : Nat
  fa : Nat
  fw : Nat
  out : Nat
  m : Nat
  k : Nat
  n : Nat
  seed : Nat
  win : Nat
  wbase : Nat
  dbase : Nat
  qparam : Nat
  plan : List Byte
  tstride : Nat
  planeOff : Nat
  dsbase : Nat
  deriving DecidableEq, Repr

/-- The operands that a head record and its continuation encode (R243). -/
def Mx.decode (h c : List Byte) : Mx :=
  let f := fieldAt h 8 1
  { wide := bit f 0, trans := bit f 1, multi := bits f 3 2, load := bit f 4, sat := bit f 5, round := bits f 7 6
    fa := fieldAt h 9 1 % 16, fw := fieldAt h 9 1 / 16, out := fieldAt h 10 1 % 16
    m := fieldAt h 12 4, k := fieldAt h 16 2 + 1, n := fieldAt h 18 2 + 1, seed := fieldAt h 20 4
    win := fieldAt h 24 2 * 64, wbase := fieldAt h 26 2 * 512, dbase := fieldAt h 28 2 * 512, qparam := fieldAt h 30 2 * 512
    plan := c.take 10, tstride := fieldAt c 12 4, planeOff := fieldAt c 16 4, dsbase := fieldAt c 20 2 * 512 }

/-- Reduction length kp and output columns np of a pass, for the combinations that R151, R163 and R164 list; others are
refused (R153). -/
def Mx.geom (c : Mx) : Option (Nat × Nat) :=
  let fam := fmtFamily c.fa
  let same := fam == fmtFamily c.fw
  match c.multi with
  | 0 =>
    if !same || fam == 6 || fam == 7 || fam == 8 || fam == 9 || decide (fam > 10) then none
    else if c.trans then (if c.wide || fam == 0 || fam == 10 then none else some (256, 64))
    else if c.wide then some (if fam == 10 then 32 else 16, 1024)
    else some (if fam == 10 then 128 else 64, 256)
  | 1 => if !c.wide && !c.trans && c.fa == 7 && c.fw == 7 then some (64, 256) else none
  | 2 => if !c.wide && !c.trans && same && (fam == 1 || fam == 4 || fam == 5 || (c.fa == 0 && c.fw == 0)) then
      some (64, 256) else none
  | _ => none

/-- The accumulators hold integers. -/
def Mx.isInt (c : Mx) : Bool := c.multi == 1 || fmtFamily c.fa == 0

/-- OUT and ROUND are listed for the accumulator type (R158). -/
def Mx.outOk (c : Mx) : Bool :=
  c.round != 3 && (if c.isInt then c.out == 0 || c.out == 7 || c.out == 8
    else (fmtIsFp c.out) || (c.out == 10 && c.round == 0))

/-- Element bytes of activations and weights as a pass reads them; 0 for Q4B32. -/
def Mx.ebytes (c : Mx) : Nat := if c.multi = 1 then 1 else fmtBytes c.fa

/-- Passes of a k-block. -/
def Mx.passes (c : Mx) : Nat := if c.multi = 0 then 1 else 4

/-- Bytes of a weight tile (R169). -/
def Mx.tileBytes (c : Mx) : Nat := match c.ebytes with
  | 0 => 17408
  | e => 16384 * e

/-- Cycles that a vector takes to enter the arrays (R151). -/
def Mx.cpv (c : Mx) : Nat :=
  if c.multi = 1 then 1 else if c.trans then 4
  else match fmtFamily c.fa with
    | 1 => 2 | 4 => 4 | 5 => 4 | _ => 1

/-- Cycles that a weight tile takes to load (R169). -/
def Mx.loadCycles (c : Mx) : Nat := ceilDiv c.tileBytes 512

/-- A pass of a k-block (R163, R164): activation plane, activation and weight formats, shift of P, bank, and sign. -/
structure Pass where
  plane : Nat
  fa : Nat
  fw : Nat
  shift : Nat
  imag : Bool
  neg : Bool
  deriving DecidableEq, Repr

/-- Pass `p` of a k-block. -/
def Mx.pass (c : Mx) (p : Nat) : Pass :=
  match c.multi, p with
  | 1, 0 => ⟨0, 1, 1, 0, false, false⟩
  | 1, 1 => ⟨1, 0, 1, 8, false, false⟩
  | 1, 2 => ⟨0, 1, 0, 8, false, false⟩
  | 1, _ => ⟨1, 0, 0, 16, false, false⟩
  | 2, 0 => ⟨0, c.fa, c.fw, 0, false, false⟩
  | 2, 1 => ⟨1, c.fa, c.fw, 0, true, false⟩
  | 2, 2 => ⟨1, c.fa, c.fw, 0, false, true⟩
  | 2, _ => ⟨0, c.fa, c.fw, 0, true, false⟩
  | _, _ => ⟨0, c.fa, c.fw, 0, false, false⟩

/-! ### The window descriptor (R189, R196) -/

/-- A window descriptor. -/
structure Win where
  mode : Nat
  replicate : Bool
  padVal : Nat
  base : Nat
  sbase : Nat
  vstride : Nat
  bstride : Nat
  ystride : Nat
  cstride : Nat
  ih : Nat
  iw : Nat
  oh : Nat
  ow : Nat
  kh : Nat
  kw : Nat
  sy : Nat
  sx : Nat
  dy : Nat
  dx : Nat
  padT : Nat
  padL : Nat
  taps : Nat
  channels : Nat
  sstride : Nat
  deriving DecidableEq, Repr

/-- The descriptor in 64 bytes. -/
def Win.decode (b : List Byte) : Win :=
  let f (i n : Nat) : Nat := fieldAt b i n
  { mode := f 0 1, replicate := bit (f 1 1) 0, padVal := f 2 2, base := f 4 4, sbase := f 8 4, vstride := f 12 2
    bstride := f 14 2, ystride := f 16 4, cstride := f 20 4, ih := f 24 2, iw := f 26 2, oh := f 28 2, ow := f 30 2
    kh := f 32 1, kw := f 33 1, sy := f 34 1, sx := f 35 1, dy := f 36 1, dx := f 37 1, padT := f 38 1, padL := f 39 1
    taps := f 40 4, channels := f 44 2, sstride := f 46 2 }

/-- VBYTES (R189). -/
def Mx.vbytes (c : Mx) (kp : Nat) : Nat := match c.ebytes with
  | 0 => kp / 2
  | e => kp * e

/-- Channel groups of PIXWIN (R192). -/
def Win.groups (w : Win) (kp : Nat) : Nat := ceilDiv w.channels kp

/-- k-blocks of a command (R150). -/
def Mx.blocks (c : Mx) (kp : Nat) : Nat := ceilDiv c.k kp

/-- The input position of PIXWIN and PLANWIN (R192, R194). -/
def Win.position (w : Win) (i ky kx : Nat) : Int × Int :=
  let oy := i / w.ow
  let ox := i % w.ow
  ((oy * w.sy + ky * w.dy : Nat) - (w.padT : Int), (ox * w.sx + kx * w.dx : Nat) - (w.padL : Int))

/-- A position out of range (R195). -/
def Win.outside (w : Win) (p : Int × Int) : Bool :=
  decide (p.1 < 0) || decide (p.1 ≥ w.ih) || decide (p.2 < 0) || decide (p.2 ≥ w.iw)

/-- A position clamped to the range (R195). -/
def Win.clamped (w : Win) (p : Int × Int) : Nat × Nat :=
  ((clampInt p.1 0 (w.ih - 1 : Nat)).toNat, (clampInt p.2 0 (w.iw - 1 : Nat)).toNat)

/-- An element that the generator delivers: a constant, or the bytes at an address; and whether its position was out of
range. -/
structure AgElem where
  const : Option Nat
  addr : Nat
  pad : Bool
  deriving DecidableEq, Repr

/-- A delivered 0. -/
def AgElem.zero : AgElem := ⟨some 0, 0, false⟩

/-- A constant pad of `e`-byte elements (R195). -/
def Win.pad (w : Win) (e : Nat) : AgElem := ⟨some (w.padVal % 256 ^ e), 0, true⟩

/-- The tap or slot entry at an offset of a tap row (R193). -/
def tapEntry (tap : List Byte) (off : Nat) : Nat := fieldAt tap off 4

/-- Element `j` of vector `i` in k-block `b` (R191, R192, R194), with that block's tap row; `plane` is the activation plane of
a multi-pass product. For Q4B32 the address is that of the byte that holds the mantissa. -/
def Mx.agElem (c : Mx) (w : Win) (tap : List Byte) (kp b i plane j : Nat) : AgElem :=
  let e := c.ebytes
  if b * kp + j ≥ c.k then .zero
  else match w.mode with
    | 0 => ⟨none, w.base + plane * c.planeOff + i * w.vstride + b * w.bstride + (if e = 0 then j / 2 else j * e), false⟩
    | 1 =>
      let cg := w.groups kp
      let g := b % cg
      let kx := b / cg % w.kw
      let ky := b / cg / w.kw
      if g * kp + j ≥ w.channels then .zero
      else
        let p := w.position i ky kx
        if w.outside p && !w.replicate then w.pad e
        else
          let (y, x) := w.clamped p
          ⟨none, u32 (w.base + y * w.ystride + x * w.vstride + g * c.vbytes kp) + j * e, w.outside p⟩
    | _ =>
      let t := tapEntry tap (4 * j)
      if bit t 6 then .zero
      else
        let sl := tapEntry tap (256 + 4 * (t % 64))
        let p := w.position i (bits sl 19 16) (bits t 11 8)
        if w.outside p && !w.replicate then w.pad e
        else
          let (y, x) := w.clamped p
          ⟨none, w.base + sl % 65536 * w.cstride + y * w.ystride + x * e, w.outside p⟩

/-- Address of the block scale of element `j` in ROWS mode with Q4B32 (R191). -/
def Mx.scaleAddr (w : Win) (kp b i j : Nat) : Nat := w.sbase + i * w.sstride + b * (kp / 32) + j / 32

/-- The data rows that vectors `i0` to `i0 + len - 1` read in k-block `b` (R197): distinct, in the order of the elements. -/
def Mx.rowSet (c : Mx) (w : Win) (tap : List Byte) (kp b i0 len : Nat) : List Nat :=
  ((List.range len).flatMap (fun v => (List.range kp).filterMap (fun j =>
    let a := c.agElem w tap kp b (i0 + v) 0 j
    if a.const.isNone then some (a.addr / 512) else none))).dedup

/-- The first check of R196 that fails when a command starts; ADDR of PLANWIN is left to the k-blocks. -/
def Mx.winFault (c : Mx) (w : Win) (kp : Nat) : Option Nat :=
  let e := c.ebytes
  let nz (v m : Nat) : Bool := v % m != 0
  let vb := c.vbytes kp
  let window := w.mode != 0
  let planar := w.mode == 2
  let kh := if planar then 16 else w.kh
  let kw := if planar then 16 else w.kw
  let outK (v : Nat) : Bool := v == 0 || decide (v > 16)
  let outS (v : Nat) : Bool := v == 0 || decide (v > 8)
  if w.mode > 2 || (window && (c.trans || c.multi != 0 || e == 0)) then some 1
  else if window && c.m != w.oh * w.ow then some 2
  else if w.mode = 1 && c.blocks kp != w.kh * w.kw * w.groups kp then some 3
  else if (if planar then nz w.base 512 || nz w.ystride 512 || nz w.cstride 512 || nz w.taps 512
      else nz w.base vb || nz w.vstride vb || nz w.bstride vb || nz w.ystride vb
        || (decide (kp ≥ 32) && (nz w.sbase (kp / 32) || nz w.sstride (kp / 32)))) then some 4
  else if w.ih = 0 || w.iw = 0 || w.oh = 0 || w.ow = 0 || (planar && decide (w.iw * e > 512)) then some 5
  else if outK kh || outK kw || outS w.sy || outS w.sx || outS w.dy || outS w.dx
      || decide (w.padT > (kh - 1) * w.dy) || decide (w.padL > (kw - 1) * w.dx) then some 6
  else match w.mode with
    | 0 =>
      if c.m = 0 then none
      else
        let i := c.m - 1
        let b := c.blocks kp - 1
        let top := w.base + (if c.multi = 0 then 0 else c.planeOff) + i * w.vstride + b * w.bstride
        if top ≥ 2097152 || (e == 0 && decide (Mx.scaleAddr w kp b i 0 ≥ 2097152)) then some 7 else none
    | 1 =>
      if (List.range (c.blocks kp)).any (fun b => (c.rowSet w [] kp b 0 c.m).any (fun r => decide (r ≥ 4096))) then
        some 7 else none
    | _ => none

/-! ### A run -/

/-- A run of vectors that streams while the rows of the next one load (R197): its n-tile, chunk, k-block and pass, the
chunk's first vector and length, its own, and whether it begins and ends its pass. -/
structure Seg where
  t : Nat
  ch : Nat
  b : Nat
  p : Nat
  c0 : Nat
  clen : Nat
  i0 : Nat
  len : Nat
  first : Bool
  last : Bool
  deriving DecidableEq, Repr

/-- A weight tile as loaded (R148): its number, and raw weights and block scales column by column. -/
structure Tile where
  num : Nat
  ws : List (List Nat × List Int)
  deriving DecidableEq, Repr

/-- A vector as the generator delivers it: raw elements, block scales, and elements from positions out of range. -/
structure AgVec where
  xs : List Nat
  sx : List Int
  pads : Nat
  deriving DecidableEq, Repr

/-- A command under way: the state; the accumulators of the chunk by entry (real, and imaginary for COMPLEX); the active and
the shadow weights; the vectors whose rows the other half has loaded; the tap row of their k-block; the rows last read, of data
and of scales; the cycles of the chunk's passes and of the last drain; and why it stopped. -/
structure MxRun where
  s : State
  re : List (List Int) := []
  im : List (List Int) := []
  active : Option Tile := none
  shadow : Option Tile := none
  half : List AgVec := []
  tap : List Byte := []
  kept : Option (Nat × List Byte) := none
  keptScale : Option (Nat × List Byte) := none
  spent : Nat := 0
  drained : Nat := 0
  stop : Option CoreStop := none

/-- Continue a run unless it has stopped. -/
def MxRun.andThen (r : MxRun) (f : MxRun → MxRun) : MxRun := if r.stop.isSome then r else f r

/-- Check the parity of rows read one after another, and count those off plan. -/
def MxRun.readRows (r : MxRun) (n mask : Nat) (rows : List Nat) : MxRun :=
  let (e, s) := r.s.rowsRead n mask rows
  { r with s := s, stop := e }

/-- Raw bits of the element at an address, in the 512 bytes of its row. -/
def rawIn (row : List Byte) (e j addr : Nat) : Nat :=
  if e = 0 then (let b := fieldAt row (addr % 512) 1
    if j % 2 = 0 then b % 16 else b / 16)
  else fieldAt row (addr % 512) e

/-- Raw bits of weight (row `k` of the reduction, output column `j`) in the tile at address `a`: the axis that the
forward product reduces lies innermost (R155, log entry 25). -/
def State.rawWeight (s : State) (n : Nat) (c : Mx) (kp a k j : Nat) : Nat :=
  let idx := if c.trans then k * 64 + j else j * kp + k
  match c.ebytes with
  | 0 => let b := leVal (s.ldrRead n (a + idx / 2) 1)
    if idx % 2 = 0 then b % 16 else b / 16
  | e => leVal (s.ldrRead n (a + idx * e) e)

/-- Scale of the weight block of column `j` that holds row `k` (R155, R244). -/
def State.weightScale (s : State) (n kp a k j : Nat) : Int :=
  signed 8 (leVal (s.ldrRead n (a + 16384 + j * (kp / 32) + k / 32) 1))

/-- Number of a segment's weight tile (R244). -/
def Mx.tileOf (c : Mx) (kp : Nat) (g : Seg) : Nat := (g.t * c.blocks kp + g.b) * c.passes + g.p

/-- Columns of an n-tile below N. -/
def Mx.columns (c : Mx) (np t : Nat) : Nat := Nat.min np (c.n - t * np)

/-- Weight tile `q` of n-tile `t`, as it lies in the Larder. -/
def State.readTile (s : State) (n : Nat) (c : Mx) (kp np t q : Nat) : Tile :=
  let a := c.wbase + q * c.tileBytes
  ⟨q, (List.range (c.columns np t)).map (fun j => ((List.range kp).map (fun k => s.rawWeight n c kp a k j),
    if c.ebytes = 0 then (List.range (kp / 32)).map (fun g => s.weightScale n kp a (32 * g) j) else []))⟩

/-! #### The address generator -/

/-- The row last read, or a new one (R192): the row with its content, and the row read. -/
def State.keepRow (s : State) (n : Nat) (k : Option (Nat × List Byte)) (row : Nat) : (Nat × List Byte) × List Nat :=
  match k with
  | some (q, bs) => if q = row then ((q, bs), []) else ((row, s.larderRead n (row * 512) 512), [row])
  | none => ((row, s.larderRead n (row * 512) 512), [row])

/-- The vectors of ROWS or PIXWIN that the generator forms, one after another, and the rows that it reads for them. -/
def MxRun.stream (r : MxRun) (n : Nat) (c : Mx) (w : Win) (kp b plane : Nat) : List Nat → MxRun × List Nat
  | [] => ({ r with half := [] }, [])
  | i :: is =>
    let es := (List.range kp).map (fun j => c.agElem w [] kp b i plane j)
    let data := es.find? (fun a => a.const.isNone)
    let (r, row, rows) := match data with
      | none => (r, [], [])
      | some a =>
        let (x, rows) := r.s.keepRow n r.kept (a.addr / 512)
        ({ r with kept := some x }, x.2, rows)
    let at_ := Mx.scaleAddr w kp b i 0
    let (r, scales, rows) := if data.isNone || c.ebytes != 0 then (r, [], rows) else
      let (x, more) := r.s.keepRow n r.keptScale (at_ / 512)
      ({ r with keptScale := some x }, x.2, rows ++ more)
    let v : AgVec :=
      { xs := ((List.range kp).zip es).map (fun x => match x.2.const with
          | some k => k
          | none => rawIn row c.ebytes x.1 x.2.addr)
        sx := if c.ebytes = 0 then (List.range (kp / 32)).map (fun g => signed 8 (fieldAt scales (at_ % 512 + g) 1)) else []
        pads := (es.filter (·.pad)).length }
    let (r, more) := r.stream n c w kp b plane is
    ({ r with half := v :: r.half }, rows ++ more)

/-- The vectors of a segment of PLANWIN, from the rows that its half holds. -/
def State.gather (s : State) (n : Nat) (c : Mx) (w : Win) (tap : List Byte) (kp b : Nat) (vs : List Nat) : List AgVec :=
  vs.map (fun i =>
    let es := (List.range kp).map (fun j => c.agElem w tap kp b i 0 j)
    ⟨es.map (fun a => match a.const with
      | some k => k
      | none => leVal (s.larderRead n a.addr c.ebytes)), [], (es.filter (·.pad)).length⟩)

/-- Load a segment (R192, R197): its vectors, and the rows read, those of data marked. A row outside the Larder is not read:
the check of its k-block stops the command. -/
def MxRun.loadHalf (r : MxRun) (n : Nat) (c : Mx) (w : Win) (kp : Nat) (g : Seg) : MxRun × List (Nat × Bool) :=
  let vs := (List.range g.len).map (g.i0 + ·)
  if w.mode ≠ 2 then
    let (r, rows) := r.stream n c w kp g.b (c.pass g.p).plane vs
    (r, rows.map (fun x => (x, true)))
  else
    let at_ := w.taps + g.b * 512
    let own := g.first && decide (at_ < 2097152)
    let r := if own then { r with tap := r.s.larderRead n at_ 512 } else if g.first then { r with tap := [] } else r
    let set := (c.rowSet w r.tap kp g.b g.i0 g.len).filter (· < 4096)
    ({ r with half := r.s.gather n c w r.tap kp g.b vs },
      (if own then [(at_ / 512, false)] else []) ++ set.map (fun x => (x, true)))

/-- What the W and A ports read on each cycle, each from its first row on (R173, R174). -/
def portCycles : List Nat → List (Nat × Bool) → List (List Nat)
  | [], as_ => as_.map (fun a => [a.1])
  | ws, [] => ws.map (fun w => [w])
  | w :: ws, a :: as_ => [a.1, w] :: portCycles ws as_

/-- The W port loads a tile while the A port loads rows (R148, R197): parity, accesses off plan, and data rows loaded. -/
def MxRun.loadRows (r : MxRun) (n : Nat) (c : Mx) (ws : List Nat) (as_ : List (Nat × Bool)) : MxRun :=
  let (e, s, k) := r.s.cyclesCheck n (portCycles ws as_)
  let s := (s.offPlan n (planMask c.plan 1) (ws.take k)).offPlan n (planMask c.plan 0) ((as_.take k).map (·.1))
  let whole := if e.isSome then k - 1 else k
  { r with s := s.bumpBy (R.CORE_AG_ROWS.N n) ((as_.take whole).filter (·.2)).length, stop := e }

/-- A segment and the tile that its pass needs load while `cycles` of streaming go on; what does not fit stalls the arrays
(R148, R197). The segment of no pass loads nothing. -/
def MxRun.prepare (r : MxRun) (n : Nat) (c : Mx) (w : Win) (kp np : Nat) (g : Option Seg) (tile : Option Seg)
    (cycles passCycles : Nat) : MxRun :=
  let (r, rows) := match g with
    | none => (r, [])
    | some g => r.loadHalf n c w kp g
  let q := tile.map (fun x => c.tileOf kp x)
  let load := match tile, r.active with
    | none, _ => none
    | some x, none => some x
    | some x, some a => if c.tileOf kp x = a.num then none else some x
  let r := match load, q with
    | some x, some q => { r with shadow := some (r.s.readTile n c kp np x.t q) }
    | _, _ => r
  let ws := match load, q with
    | some _, some q => rowsOf (c.wbase + q * c.tileBytes) c.tileBytes
    | _, _ => []
  let r := r.loadRows n c ws rows
  r.andThen (fun r =>
    let s := if load.isSome then r.s.bumpBy (R.CORE_STALL_W.N n) (c.loadCycles - passCycles) else r.s
    let s := if w.mode = 2 && r.active.isSome then s.bumpBy (R.CORE_STALL_A.N n) (rows.length - cycles) else s
    { r with s := s })

/-- The exact pass sum of one column (R156, R157), as an integer. -/
def passSumInt (fa fw : Nat) (xs ws : List Nat) : Int :=
  ((xs.zip ws).map (fun p => elemInt fa p.1 * elemInt fw p.2)).sum

/-- The exact pass sum of one column, as a floating value; -0 is neutral. -/
def passSumFp (fa fw : Nat) (xs ws : List Nat) : Fp :=
  (xs.zip ws).foldl (fun a p => a.add ((elemFp fa p.1).mul (elemFp fw p.2))) (.fin true 0 0)

/-- The exact pass sum of Q4B32 blocks (R157): mantissas, with the scales by block. -/
def passSumQ4 (xs ws : List Nat) (sx sw : List Int) : Fp :=
  let bs := (chunks xs.length 32 xs).zip (chunks ws.length 32 ws)
  (bs.zip (sx.zip sw)).foldl (fun a b =>
    let z : Int := ((b.1.1.zip b.1.2).map (fun p => signed 4 p.1 * signed 4 p.2)).sum
    a.add (.fin (decide (z < 0)) z.natAbs (b.2.1 + b.2.2))) (.fin true 0 0)

/-- A new accumulator entry, and whether it saturated under R156. -/
def Mx.accumulate (c : Mx) (p : Pass) (acc : Int) (xs ws : List Nat) (sx sw : List Int) : Int × Bool :=
  if c.multi = 1 then (sat64 (acc + passSumInt p.fa p.fw xs ws * 2 ^ p.shift), false)
  else if c.isInt then
    let z := passSumInt p.fa p.fw xs ws
    let v := acc + (if p.neg then -z else z)
    (sat32 v, decide (sat32 v ≠ v))
  else
    let z := if c.ebytes = 0 then passSumQ4 xs ws sx sw else passSumFp p.fa p.fw xs ws
    (f32Bits ((f32 acc.toNat).add (if p.neg then z.neg else z)), false)

/-- One entry through one pass: columns at or beyond N compute 0 (R150). -/
def Mx.entryPass (c : Mx) (p : Pass) (cols : Nat) (xs : List Nat) (sx : List Int) (ws : List (List Nat × List Int))
    (acc : List Int) : List Int × Nat :=
  let rs := (acc.zip (List.range acc.length)).map (fun a =>
    if a.2 ≥ cols then (a.1, false)
    else
      let w := nth ws a.2 ([], [])
      c.accumulate p a.1 xs w.1 sx w.2)
  (rs.map (·.1), (rs.filter (·.2)).length)

/-- Runs of vectors of one output row within a chunk (R197): first vector and length of each; a chunk in ROWS mode is one
run. -/
def segments (w : Win) (i0 len : Nat) : List (Nat × Nat) :=
  if w.mode = 0 then [(i0, len)]
  else (List.range ((i0 + len - 1) / w.ow - i0 / w.ow + 1)).map (fun k =>
    let y := i0 / w.ow + k
    let a := Nat.max i0 (y * w.ow)
    (a, Nat.min (i0 + len) ((y + 1) * w.ow) - a))

/-- The segments of a command in the order of R150. -/
def Mx.segs (c : Mx) (w : Win) (kp np : Nat) : List Seg :=
  (List.range (ceilDiv c.n np)).flatMap (fun t => (List.range (ceilDiv c.m 512)).flatMap (fun ch =>
    let c0 := ch * 512
    let clen := Nat.min 512 (c.m - c0)
    let gs := segments w c0 clen
    (List.range (c.blocks kp)).flatMap (fun b => (List.range c.passes).flatMap (fun p =>
      ((List.range gs.length).zip gs).map (fun g =>
        { t := t, ch := ch, b := b, p := p, c0 := c0, clen := clen, i0 := g.2.1, len := g.2.2, first := g.1 == 0,
          last := g.1 + 1 == gs.length : Seg })))))

/-- The tap row of a k-block, and the rows that its segments of the chunk read, lie in the Larder (R196, code 7). -/
def MxRun.blockCheck (r : MxRun) (c : Mx) (w : Win) (kp : Nat) (g : Seg) : MxRun :=
  if w.mode = 2 && g.first && (decide (w.taps + g.b * 512 ≥ 2097152)
      || (c.rowSet w r.tap kp g.b g.c0 g.clen).any (fun x => decide (x ≥ 4096))) then { r with stop := some (.window 7) } else r

/-- At a pass boundary the shadow weights become active (R148); the pass adds its cycles to its chunk's (R169). -/
def MxRun.boundary (r : MxRun) (c : Mx) (kp : Nat) (g : Seg) : MxRun :=
  if !g.first then r
  else
    let stream := g.clen * c.cpv
    match r.active with
    | some a =>
      if a.num = c.tileOf kp g then { r with spent := r.spent + stream }
      else { r with active := r.shadow, spent := r.spent + Nat.max stream c.loadCycles }
    | none => { r with active := r.shadow, spent := r.spent + stream }

/-- The vectors of a segment pass through the arrays (R148, R150). -/
def MxRun.pass (r : MxRun) (n : Nat) (c : Mx) (np : Nat) (g : Seg) (vs : List AgVec) : MxRun :=
  let ps := c.pass g.p
  let ws := match r.active with
    | some a => a.ws
    | none => []
  let acc := if ps.imag then r.im else r.re
  let k := g.i0 - g.c0
  let out := (vs.zip (acc.drop k)).map (fun x => c.entryPass ps (c.columns np g.t) x.1.xs x.1.sx ws x.2)
  let next := acc.take k ++ out.map (·.1) ++ acc.drop (k + g.len)
  let s := (r.s.bumpBy (R.CORE_SAT.N n) (out.map (·.2)).sum).bumpBy (R.CORE_AG_PAD.N n) (vs.map (·.pads)).sum
  let s := s.put64 (R.CORE_ACT_LO.N n) (R.CORE_ACT_HI.N n)
    ((s.get64 (R.CORE_ACT_LO.N n) (R.CORE_ACT_HI.N n) + g.len * c.cpv) % 2 ^ 64)
  if ps.imag then { r with s := s, im := next } else { r with s := s, re := next }

/-! ### Drain (R158-R161) -/

/-- An element written: its bits, at a saturation bound, NaN. -/
structure OutElem where
  raw : Nat
  sat : Bool
  nan : Bool
  deriving DecidableEq, Repr

/-- Requantisation (R160) by a QPARAM entry, before the clamp. -/
def requantRaw (q : Nat) (acc : Int) : Int :=
  let mult := q % 65536
  let sh := bits q 21 16
  let rnd : Int := if sh > 0 then 2 ^ (sh - 1) else 0
  (acc * mult + rnd) / 2 ^ sh + signed 8 (q / 16777216)

/-- Requantisation (R160), and whether the result is a bound of the output format. -/
def requant (q : Nat) (acc lo hi : Int) : Int × Bool :=
  let v := clampInt (requantRaw q acc) lo hi
  (v, v == lo || v == hi)

/-- A floating value in a narrower format (R158). -/
def narrow (f : FpFmt) (rd : Rnd) (sat : Bool) : Fp → OutElem
  | .nan => ⟨f.canonNan, false, true⟩
  | .inf neg =>
    let sg := if neg then 2 ^ (f.eb + f.mb) else 0
    if sat then ⟨sg + f.maxFin, true, false⟩
    else if f.inf then ⟨sg + (2 ^ f.eb - 1) * 2 ^ f.mb, false, false⟩
    else ⟨f.canonNan, false, true⟩
  | .fin neg m e =>
    let b := (f.encodeWith rd sat neg m e).1
    ⟨b, sat && b % 2 ^ (f.eb + f.mb) == f.maxFin, !f.inf && b == f.canonNan⟩

/-- The start of a column's noise (R159). -/
def srSeed (seed col ch : Nat) : Nat :=
  let x := xor3 seed (u32 (col * 0x9E3779B9)) (u32 (ch * 0x85EBCA6B))
  if x = 0 then 1 else x

/-- The next word of a column's noise (R159). -/
def srNext (st : Nat) : Nat :=
  let a := Nat.xor st (u32 (st * 8192))
  let b := Nat.xor a (a / 131072)
  Nat.xor b (u32 (b * 32))

/-- Rounding of R159: up when the 16 leading discarded bits exceed st >> 16. -/
def srRnd (st : Nat) : Rnd := .sr (65535 - st / 65536) 16

/-- One accumulator entry converted to OUT, other than Q4B32. -/
def Mx.convert (c : Mx) (q : Nat) (rd : Rnd) (v : Int) : OutElem :=
  if c.isInt then
    let (z, b) := requant q v (intLo c.out) (intHi c.out)
    ⟨toBits (8 * fmtBytes c.out) z, b, false⟩
  else match c.out, fmtFp c.out with
    | 6, _ => ⟨v.toNat, false, (f32 v.toNat).isNan⟩
    | _, some f => narrow f rd c.sat (f32 v.toNat)
    | _, none => ⟨0, false, false⟩

/-- A Q4B32 block (R161): mantissas, scale, elements clamped, and a NaN. -/
def q4Block (xs : List Fp) : List Nat × Nat × Nat × Bool :=
  if xs.any (·.isNan) then (List.replicate xs.length 0, 128, 0, true)
  else
    let over_ (s : Int) : Bool := xs.any (fun x => match x with
      | .nan => false
      | .inf _ => true
      | .fin _ m e => Fp.lt (.fin false 7 s) (.fin false m e))
    let sc : Int := (((List.range 255).map (fun (k : Nat) => (k : Int) - 128)).find? (fun s => !over_ s)).getD 127
    let ms := xs.map (fun x => match x with
      | .nan => (0, false)
      | .inf neg => (if neg then (-8 : Int) else 7, true)
      | .fin neg m e =>
        let r : Int := roundTo .rne m (e - sc) 0
        let z := if neg then -r else r
        (clampInt z (-8) 7, decide (clampInt z (-8) 7 ≠ z)))
    (ms.map (fun x => toBits 4 x.1), toBits 8 sc, (ms.filter (·.2)).length, false)

/-- Pack nibbles, the lower-numbered element in the lower half (R155). -/
def packNibbles : List Nat → List Byte
  | a :: b :: r => BitVec.ofNat 8 (a + 16 * b) :: packNibbles r
  | [a] => [BitVec.ofNat 8 a]
  | [] => []

/-- A result row in Q4B32: mantissa row, scale row, and the counts for SAT and NAN. -/
def q4Row (row : List Int) : List Byte × List Byte × Nat × Nat :=
  let bs := (chunks row.length 32 row).map (fun b => q4Block (b.map (fun v => f32 v.toNat)))
  (packNibbles (bs.flatMap (·.1)), bs.map (fun b => BitVec.ofNat 8 b.2.1), (bs.map (·.2.2.1)).sum,
    (bs.filter (·.2.2.2)).length)

/-- Bytes of a result row; of its mantissa row for Q4B32 (R244). -/
def Mx.rowBytes (c : Mx) (np : Nat) : Nat := if c.out = 10 then np / 2 else np * fmtBytes c.out

/-- Bytes with zeros to the end of the last Larder row (R244). -/
def padRow (bs : List Byte) : List Byte := bs ++ List.replicate ((512 - bs.length % 512) % 512) 0

/-- The conversion of rows in entry order, with each column's noise going on from row to row. -/
def Mx.convertRows (c : Mx) (qs : List Nat) (sr : Bool) : List Nat → List (List Int) → List (List OutElem)
  | _, [] => []
  | st, row :: rows =>
    let st := if sr then st.map srNext else st
    (row.zip (qs.zip st)).map (fun x => c.convert x.2.1 (if sr then srRnd x.2.2 else .rne) x.1) :: c.convertRows qs sr st rows

/-- The real and imaginary rows of entries, in drain order (R164). -/
def Mx.drainRows (c : Mx) (re im : List (List Int)) : List (List Int) :=
  if c.multi = 2 then (re.zip im).flatMap (fun p => [p.1, p.2]) else re

/-- Rows that an entry drains. -/
def Mx.perEntry (c : Mx) : Nat := if c.multi = 2 then 2 else 1

/-- The drain of chunk `ch` of n-tile `t`, its first entry `i0` (R149, R158-R161, R244). -/
def MxRun.drain (r : MxRun) (n : Nat) (c : Mx) (np t ch i0 : Nat) : MxRun :=
  let rows := c.drainRows r.re r.im
  let first := i0 * c.perEntry
  let at_ := c.dbase + t * c.tstride + first * c.rowBytes np
  let mask := planMask c.plan 3
  if c.out = 10 then
    let qs := rows.map q4Row
    let mb := padRow (qs.flatMap (·.1))
    let sb := padRow (qs.flatMap (·.2.1))
    let sat_ := c.dsbase + t * c.tstride / 16 + first * (np / 32)
    let s := (r.s.ldrWrite n at_ mb).ldrWrite n sat_ sb
    let s := s.offPlan n mask (rowsOf at_ mb.length ++ rowsOf sat_ sb.length)
    { r with s := (s.bumpBy (R.CORE_SAT.N n) (qs.map (·.2.2.1)).sum).bumpBy (R.CORE_NAN.N n) (qs.map (·.2.2.2)).sum }
  else
    let qp := c.qparam + 4 * t * np
    let r := if c.isInt then r.readRows n mask (rowsOf qp (np * 4)) else r
    r.andThen (fun r =>
      let qs := if c.isInt then (List.range np).map (fun j => leVal (r.s.ldrRead n (qp + 4 * j) 4))
        else List.replicate np 0
      let sr := c.round != 0
      let (fresh, s) := if c.round = 2 then r.s.draw else (0, r.s)
      let seed := if c.round = 2 then fresh.toNat % 4294967296 else c.seed
      let st := (List.range np).map (fun j => srSeed seed (u32 (t * np + j)) ch)
      let es := c.convertRows qs sr st rows
      let bs := padRow (es.flatMap (fun row => row.flatMap (fun x => leBytes (fmtBytes c.out) x.raw)))
      let s := (s.ldrWrite n at_ bs).offPlan n mask (rowsOf at_ bs.length)
      let all := es.flatten
      let s := s.bumpBy (R.CORE_SAT.N n) (all.filter (·.sat)).length
      { r with s := s.bumpBy (R.CORE_NAN.N n) (all.filter (·.nan)).length })

/-- Bytes of an accumulator entry. -/
def Mx.accBytes (c : Mx) : Nat := if c.multi = 1 then 8 else 4

/-- The initial content of a chunk (R149, R244): zeros, or the output location in the accumulator's element size. -/
def MxRun.start (r : MxRun) (n : Nat) (c : Mx) (np t i0 len : Nat) : MxRun :=
  let zeros := List.replicate len (List.replicate np (0 : Int))
  if !c.load then { r with re := zeros, im := zeros }
  else
    let rb := np * c.accBytes
    let at_ := c.dbase + t * c.tstride + i0 * c.perEntry * rb
    let r := r.readRows n (planMask c.plan 3) (rowsOf at_ (len * c.perEntry * rb))
    let rowAt (k : Nat) : List Int := (List.range np).map (fun j =>
      let v := leVal (r.s.ldrRead n (at_ + k * rb + j * c.accBytes) c.accBytes)
      if c.isInt then signed (8 * c.accBytes) v else (v : Int))
    { r with
      re := (List.range len).map (fun v => rowAt (v * c.perEntry))
      im := (List.range len).map (fun v => rowAt (v * c.perEntry + 1)) }

/-- Cycles that the drain of `m` entries takes (R169). -/
def Mx.drainCycles (c : Mx) (np m : Nat) : Nat :=
  ceilDiv (m * c.perEntry * (if c.out = 10 then np / 2 + np / 32 else np * fmtBytes c.out)) 512

/-- A chunk ends: it drains (R149), and where another follows, that one waits for the drain that its bank needs (R163, R164,
R169). -/
def MxRun.endChunk (r : MxRun) (n : Nat) (c : Mx) (np : Nat) (g : Seg) (more : Bool) : MxRun :=
  let dr := c.drainCycles np g.clen
  let fill := if c.load then ceilDiv (g.clen * c.perEntry * np * c.accBytes) 512 else 0
  let wait := if !more then 0 else if c.multi = 0 then r.drained - (r.spent + fill) else dr
  (r.drain n c np g.t g.ch g.c0).andThen (fun r =>
    { r with s := r.s.bumpBy (R.CORE_STALL_D.N n) wait, drained := dr, spent := 0 })

/-- One segment: what begins with it, the load of what comes next, its vectors, and the drain where it ends its chunk. -/
def MxRun.seg (r : MxRun) (n : Nat) (c : Mx) (w : Win) (kp np : Nat) (g : Seg) (rest : List Seg) : MxRun :=
  let begins := g.first && g.b == 0 && g.p == 0
  let ends := g.last && g.b + 1 == c.blocks kp && g.p + 1 == c.passes
  let r := r.blockCheck c w kp g
  let r := r.andThen (fun r => if begins then r.start n c np g.t g.c0 g.clen else r)
  let r := r.andThen (fun r => r.boundary c kp g)
  let vs := r.half
  let nextPass := if g.first then rest.find? (·.first) else none
  let r := r.andThen (fun r => r.prepare n c w kp np rest.head? nextPass (g.len * c.cpv) (g.clen * c.cpv))
  let r := r.andThen (fun r => r.pass n c np g vs)
  r.andThen (fun r => if ends then r.endChunk n c np g (!rest.isEmpty) else r)

/-- The segments, one after another. -/
def MxRun.go (n : Nat) (c : Mx) (w : Win) (kp np : Nat) : List Seg → MxRun → MxRun
  | [], r => r
  | g :: rest, r => MxRun.go n c w kp np rest (r.andThen (fun r => r.seg n c w kp np g rest))

/-- Addresses of the W and D ports that are not whole rows, or strides that R243 and R244 do not allow (R172). -/
def Mx.aligned (c : Mx) : Bool :=
  c.tstride % 512 == 0 && c.planeOff % 512 == 0 && (c.out != 10 || c.tstride % 8192 == 0)

/-- A matrix command as a whole (R147-R164). -/
def State.matrix (s : State) (n : Nat) (c : Mx) : Option CoreStop × State :=
  match c.geom with
  | none => (some .refused, s)
  | some (kp, np) =>
    if !c.outOk || !c.aligned then (some .refused, s)
    else if c.win ≥ 2097152 then (some (.window 7), s)
    else
      let r : MxRun := { s := s }
      let r := r.readRows n (planMask c.plan 0) [c.win / 512]
      let w := Win.decode (r.s.larderRead n c.win 64)
      let r := r.andThen (fun r => match c.winFault w kp with
        | some f => { r with stop := some (.window f) }
        | none => r)
      let gs := c.segs w kp np
      let r := r.andThen (fun r => r.prepare n c w kp np gs.head? gs.head? 0 0)
      let r := MxRun.go n c w kp np gs r
      (r.stop, r.s)

/-- MCMD (R150, R241-R244): the MCMD record at the head of the list of core `core` issues and runs. -/
def execMcmd (core : Fin 16) (s : State) : Host.Outcome State Fault Refusal :=
  let n := core.val
  .next (match s.headCommand n 1 .matrix with
    | none => s
    | some (l, r) => s.fetched n l r (fun s =>
      let c := Mx.decode r (s.recordAt l 1)
      State.endCommand n ((s.issueCommand n l r .matrix).matrix n c)))

end Sys2Proof.Machine
end

