-- ==== Sys2Proof/Machine/Publish.lean ====
section
/-! DEFINITION. Machine/Publish.lean: publication of trained weights (spec/13_adaptation.md, R298, R299). -/

namespace Sys2Proof.Machine

/-- A request waits: publication is enabled and REQ stands above the requests served; a frozen stage holds it back
(R299). -/
def State.pubDue (s : State) : Bool :=
  s.flag R.ADP_PUB_CFG.ENABLE && decide ((s.so (s.get R.ADP_PUB_SO.REQ)).value > s.adp.served)
    && !s.flag R.STG_STATUS.FROZEN

/-- A publication record (R298): WADDR, WBYTES and JOB. -/
structure PubRecord where
  waddr : Nat
  wbytes : Nat
  job : Nat
  deriving DecidableEq, Repr

/-- The publication record in memory. -/
def State.pubRecord (s : State) : PubRecord :=
  let r := s.modBytes (s.get64 R.ADP_PUB_REC_LO.N R.ADP_PUB_REC_HI.N) 32
  { waddr := fieldAt r 0 8, wbytes := fieldAt r 8 8, job := fieldAt r 16 1 }

/-- The header of a published weight set is one of R238 and fits JOB's image. -/
def State.pubFits (s : State) (j : Nat) (h : List Byte) : Bool :=
  match (s.job j).pair with
  | none => false
  | some p => h.take 4 == [0x4B, 0x57, 0x53, 0x31] && zeroIn h 4 4 && zeroIn h 16 16 && decide (64 ≤ fieldAt h 8 8)
      && s.weightsFit p.image (sliceBytes h 32 32) (fieldAt h 8 8)

/-- Step 1 of R298: the reason of a refusal, 0 for none. -/
def State.pubReason (s : State) (r : PubRecord) : Nat :=
  let h := s.modBytes r.waddr 64
  if r.job ≠ s.get R.ADP_PUB_CFG.JOB || s.jobState r.job ≠ 2 then 1
  else if !s.ownedBy (s.get R.ADP_IN_CFG.PART) r.waddr r.wbytes then 2
  else if !s.pubFits r.job h then 3
  else if fieldAt h 8 8 ≠ r.wbytes then 4
  else 0

/-- A request is refused. -/
def State.pubRefuse (s : State) (reason : Nat) : State :=
  (s.latch R.ADP_PUB_STATUS.REFUSED).put R.ADP_PUB_STATUS.REASON reason

/-- A refusal whose reason the spec does not name (log entry 42). -/
def State.pubRefuseFree (s : State) : State :=
  let (x, s) := s.draw
  s.pubRefuse (x.toNat % 8)

/-- Where the weight layout of a job's image stands. -/
def State.wlayAt (s : State) (j : Nat) : List (Nat × Nat) :=
  (s.job j).pair.toList.map (fun p => (p.image.base + p.image.wlay.1, p.image.wlay.2))

/-- Firmware reads the record of a request, the weight set that it is to check and the layout that it is to fit (R310): false
where a read fails (R314), or leaves memory. -/
def State.pubRead (s : State) : Bool × State :=
  match s.load .firmware (s.get64 R.ADP_PUB_REC_LO.N R.ADP_PUB_REC_HI.N) 32 with
  | (.ok, _, s) =>
    if s.pubReason s.pubRecord = 1 || s.pubReason s.pubRecord = 2 then (true, s)
    else (match s.loadAll .firmware ((s.pubRecord.waddr, Nat.max 64 s.pubRecord.wbytes) :: s.wlayAt s.pubRecord.job) with
      | (ok, _, s) => (ok, s))
  | (_, _, s) => (false, s)

/-- The stage holds nothing but the weight set of job `j` (R299). -/
def State.stageHoldsOnly (s : State) (j : Nat) : Bool :=
  let t := s.stage
  s.staged.all (fun e => s.reg e.1 == e.2) && !t.seqTouched && t.seq.isEmpty && t.tables.isEmpty && t.images.isEmpty
    && t.weights.all (fun e => e.1 == j) && t.refs.isEmpty && t.jobs.isEmpty && t.sos.isEmpty && t.nets.isEmpty
    && t.allow.isNone

/-- ADP_PUB_DIGEST holds a weight digest, and the notice WEIGHTS_STAGED carries its first bytes (R298 step 4). -/
def State.pubDigest (s : State) (dg : List Byte) : State :=
  let s := (List.range 8).foldl (fun (s : State) i => s.put (R.ADP_PUB_DIGEST.N i) (fieldAt dg (4 * i) 4)) s
  s.noticeTo (s.get R.ADP_PUB_RING.RING) 2 0 (fieldAt dg 0 8)

/-- Steps 2 to 4 of R298: the weight set is in the stage as JOB's, its digest shown and noticed; and whether it is. A
stage with no room, or a hard fault, refuses the request with a reason that the spec does not name (log entry 42). -/
def State.pubStage (s : State) (r : PubRecord) : Bool × State :=
  let f := s.modBytes r.waddr r.wbytes
  let before := (keyGet s.stage.weights r.job).isSome
  match s.stageWeights r.job f with
  | (.ok, s) =>
    let s := (s.raise R.ADP_PUB_STATUS.STAGED).bumpWrap R.ADP_PUB_STATUS.COUNT
    let s := if before then s.latch R.ADP_PUB_STATUS.SUPERSEDED else s
    (true, s.pubDigest (sha256 f))
  | (_, s) => (false, s.pubRefuseFree)

/-- AUTO = 1 (R299): firmware requests an immediate commit if the stage holds nothing else. -/
def State.pubAuto (s : State) (j : Nat) : State :=
  if !s.flag R.ADP_PUB_CFG.AUTO then s
  else if s.stageHoldsOnly j then s.beginCheck { ring := none, when_ := 0, at_ := 0 }
  else s.put R.ADP_PUB_STATUS.REASON 5

/-- PUBLICATION_SERVE (R298, R299): one request, in order; DONE is signalled for a refused request as well. -/
def execPublicationServe (s : State) : Host.Outcome State Fault Refusal :=
  .next (if !s.pubDue then s
    else
      let (ok, s) := s.pubRead
      let r := s.pubRecord
      let n := s.pubReason r
      let s := { s with adp := { s.adp with served := s.adp.served + 1 } }
      let (done, s) := if !ok then (false, s.pubRefuseFree) else if n ≠ 0 then (false, s.pubRefuse n) else s.pubStage r
      let s := (s.signal .firmware (s.get R.ADP_PUB_SO.DONE) 1).settle
      if done then s.pubAuto r.job else s)

end Sys2Proof.Machine
end

