-- ==== Sys2Proof/Machine/Sheepdog.lean ====
section
/-! DEFINITION. Machine/Sheepdog.lean: Sheepdog's check, lockstep, proof tests, the alarm and self-test
(spec/18_verdicts_sheepdog.md, R389-R393, R398-R404). -/

namespace Sys2Proof.Machine

/-! ### The check (R389, R390) -/

/-- A field of the lane configuration a part opened under. -/
def Part.sdgField (p : Part) (hi lo : Nat) : Nat := bits p.vd.sdgCfg hi lo

/-- Difference of two samples. -/
def absDiff (a b : Nat) : Nat := if a < b then b - a else a - b

/-- A sample of a list of rows at integer coordinates. -/
def sampleAt (s : List (List Nat)) (r c : Int) : Nat := nth (nth s r.toNat []) c.toNat 0

/-- Sum of differences over a rectangle of rows `r0`, `nr` and columns `c0`, `nc`, the samples shifted by dy, dx. -/
def sumDiff (s ref : List (List Nat)) (r0 nr c0 nc : Nat) (dy dx : Int) : Nat :=
  ((List.range nr).map (fun (i : Nat) => ((List.range nc).map (fun (j : Nat) =>
    absDiff (sampleAt s (r0 + i + dy) (c0 + j + dx)) (sampleAt ref (r0 + i) (c0 + j)))).sum)).sum

/-- The best shift (R390): ascending dy, then dx; of equal sums the one nearest. -/
def bestShift (s ref : List (List Nat)) (srch nr nc : Nat) : Int × Int :=
  let ks := (List.range (2 * srch + 1)).map (fun (k : Nat) => (k : Int) - srch)
  let cand := ks.flatMap (fun dy => ks.map (fun dx => (dy, dx)))
  (cand.foldl (fun (b : Option Nat × (Int × Int)) y =>
    let d := sumDiff s ref srch nr srch nc y.1 y.2
    match b.1 with
    | none => (some d, y)
    | some m => if d < m || (d == m && decide (y.1.natAbs + y.2.natAbs < b.2.1.natAbs + b.2.2.natAbs)) then (some d, y) else b)
    (none, (0, 0))).2

/-- Failing tiles (R390). -/
def failTiles (s ref : List (List Nat)) (srch nr nc thr : Nat) (b : Int × Int) : Nat :=
  ((List.range ((nr + 7) / 8)).flatMap (fun ty => (List.range ((nc + 7) / 8)).filter (fun tx =>
    let h := Nat.min 8 (nr - 8 * ty)
    let w := Nat.min 8 (nc - 8 * tx)
    decide (sumDiff s ref (srch + 8 * ty) h (srch + 8 * tx) w b.1 b.2 > thr * (h * w))))).length

/-- The reference rows of a part, or none where a read faults (R389). -/
def State.reference (s : State) (addr rows refW : Nat) : Option (List (List Nat)) × State :=
  match s.load .firmware addr (rows * refW) with
  | (.ok, bs, s) => (some ((List.range rows).map (fun r => ((bs.drop (r * refW)).take refW).map (·.toNat))), s)
  | (_, _, s) => (none, s)

/-- Outcome and score of a part's check: rejected without a check, or as R390 computes. -/
def State.sdgCheck (s : State) (i : Nat) : Bool × Nat × State :=
  let p := s.part i
  let c := colsCamera p.vd.cols
  let c0 := colsFirst p.vd.cols / 4
  let w := colsLast p.vd.cols / 4 + 1 - c0
  let refW := bits p.vd.sdgGeom 11 0
  let rows := bits p.vd.sdgGeom 28 16
  let srch := p.sdgField 6 4
  let h2 := Nat.min p.vd.sdgRows.length rows
  let plane := match s.decStream c with
    | some k => (s.strPlanes c k).contains (p.sdgField 3 1)
    | none => false
  if !plane || refW ≠ w || p.vd.sdgFlagged || h2 ≤ 2 * srch || w ≤ 2 * srch then (true, 4294967295, s)
  else match s.reference p.vd.sdgRef rows refW with
    | (none, s) => (true, 4294967295, s)
    | (some ref, s) =>
      let sm := p.vd.sdgRows.map (fun r => (r.samples.drop c0).take w)
      let nr := h2 - 2 * srch
      let nc := w - 2 * srch
      let f := failTiles sm ref srch nr nc (p.sdgField 15 8) (bestShift sm ref srch nr nc)
      (decide (f ≥ p.sdgField 31 16), f, s)

/-- SHEEPDOG_CHECK_DONE: the part at the head of the queue has its outcome, inverted under FLIP_SDG (R404), and is
combined (R393). -/
def State.sdgDone (s : State) : State :=
  match s.sdg.queue with
  | [] => s
  | i :: is =>
    if s.flag R.SDG_STATUS.LOCKSTEP then s
    else
      let s := { s with sdg := { s.sdg with queue := is } }
      let (rej, score, s) := s.sdgCheck i
      let p := s.part i
      let out := if p.vd.proof = 2 then !rej else rej
      let s := s.setPart i { p with vd := { p.vd with
        sdg := if out then .reject else .pass, sdgScore := score, sdgTime := s.dtime } }
      (s.put (R.SDG_LANE_LAST.N p.core.lane) score).combine i

/-- SHEEPDOG_CHECK_DONE (R391, R393). -/
def execSheepdogCheckDone (s : State) : Host.Outcome State Fault Refusal := .next s.sdgDone

/-- From a lockstep mismatch on no part has a Sheepdog result or a combination: those of parts not yet decided go (R392). -/
def State.sdgLost (s : State) : State :=
  s.liveParts.foldl (fun (s : State) i =>
    let p := s.part i
    if p.core.state.undecided then
      s.setPart i { p with vd := { p.vd with sdg := .absent, sdgScore := 0, combined := none } }
    else s) s

/-- LOCKSTEP_MISMATCH (R392). -/
def execLockstepMismatch (s : State) : Host.Outcome State Fault Refusal :=
  .next (if s.flag R.SDG_STATUS.LOCKSTEP then s
    else ((s.sdgLost.raise R.SDG_STATUS.LOCKSTEP).loftEvent 0x0007 []).lineStop .sheepdog)

/-- What a write of SDG_PROOF does (R404): MODE 0 cancels, another mode replaces the armed test. -/
def State.proofArm (s : State) (lane mode : Nat) : State :=
  { s with sdg := { s.sdg with proof := if mode = 0 then none else some (lane, mode) } }

/-- SDG_PROOF_ARM (R404). -/
def execSdgProofArm (lane : Fin 64) (mode : Fin 4) (s : State) : Host.Outcome State Fault Refusal :=
  .next (s.written R.SDG_PROOF (fun s => s.proofArm lane.val mode.val))

/-- A clear of ALARM empties the window (R398, R399); on the tick that sets it the set wins (R8). -/
def State.alarmClear (s : State) : State :=
  if s.setNow R.SDG_STATUS.ALARM then s else { s.drop R.SDG_STATUS.ALARM with sdg := { s.sdg with win := [] } }

/-- ALARM_CLEAR (R399). -/
def execAlarmClear (s : State) : Host.Outcome State Fault Refusal :=
  .next (s.written R.SDG_STATUS (fun s => s.alarmClear))

/-! ### Self-test (R400-R403) -/

/-- Entry of a list keyed by resource and step. -/
def stepCount (l : List (StepKey × Nat)) (k : StepKey) : Nat := ((l.find? (fun e => e.1 == k)).map (·.2)).getD 0

/-- Set an entry of such a list. -/
def stepSet (l : List (StepKey × Nat)) (k : StepKey) (n : Nat) : List (StepKey × Nat) := l.filter (fun e => e.1 != k) ++ [(k, n)]

/-- Resources that owe coverage, in service only (R400, R402): their steps per coverage. None is in service before the
module is ready. -/
def State.coverage (s : State) : List (StepKey × Nat) :=
  if !s.flag R.GLB_STATUS.READY then [] else
  let cores := (List.range 16).filter (fun n => s.inService n)
  cores.map (fun n => (⟨0, n⟩, 16)) ++ cores.map (fun n => (⟨1, n⟩, 4)) ++ [(⟨2, 0⟩, 64), (⟨2, 1⟩, 64)]
    ++ ((List.range 16).filter (fun c => s.flag (R.CXP_CAM_CFG.ENABLE c))).map (fun c => (⟨3, c⟩, 1))

/-- Steps that a resource owes in this interval. -/
def State.owed (s : State) (k : StepKey) : Nat :=
  match s.coverage.find? (fun e => e.1 == k) with
  | none => 0
  | some e => e.2 + stepCount s.sdg.carried k - stepCount s.sdg.done k

/-- Steps owed in all (SDG_ST_STATUS.OWED). -/
def State.owedAll (s : State) : Nat := (s.coverage.map (fun e => s.owed e.1)).sum

/-- Time until position `x` at PSQ_VMAX (R401), in wrapping u64 arithmetic (R12). -/
def State.avail (s : State) (x : Nat) : Nat :=
  u64 (u64 (x + 18446744073709551616 - s.pos.wpos) * 1000000) / Nat.max 1 (s.get R.PSQ_VMAX.VALUE)

/-- The least next position of the valid entries that meet `p`. -/
def State.nextPos (s : State) (p : SeqEntry → Bool) : Option Nat :=
  (s.seq.entries.filter (fun e => e.2.valid && p e.2)).foldl (fun (b : Option Nat) e => some (match b with
    | none => e.2.x
    | some m => Nat.min m e.2.x)) none

/-- A step of `d` ns ends before a position; one that no entry supplies leaves it unlimited. -/
def State.endsBefore (s : State) (d : Nat) : Option Nat → Bool
  | none => true
  | some x => decide (d ≤ s.avail x)

/-- Cameras that feed a class whose core list names physical core `n` (R400). -/
def State.feeders (s : State) (n : Nat) : List Nat :=
  match s.coreJob n with
  | none => []
  | some j => match s.jobMap j with
    | none => []
    | some m => (m.classes.filter (fun c => c.2.2.1.contains (s.get (R.CORE_ALLOC.LOGICAL n)))).map (·.1)

/-- A core step may start (R400, R401): its core idle, with backlog 0 and no command running; before the next cut, within an
offered window. -/
def State.coreStepOk (s : State) (n d : Nat) : Bool :=
  let cams := s.feeders n
  (match s.list n with
    | some l => l.allDone
    | none => true) && s.backlog n == 0 && s.larderNormal n
    && s.endsBefore d (s.nextPos (fun e => e.action == 4 && cams.any (fun c => bit e.param c)))
    && s.seq.windows.any (fun w => bit w.1 n && decide (w.2.1 ≤ s.pos.wpos) && decide (d ≤ s.avail (u64 (w.2.1 + w.2.2 * 1000))))

/-- A self-test step: not run where none is owed, deferred and counted where it may not start, else run. -/
def State.selfTest (s : State) (k : StepKey) (ok : Bool) (run : State → State) : State :=
  if !s.flag R.SDG_ST_CFG.ENABLE || s.owed k = 0 then s
  else if !ok then s.bump R.SDG_CNT_ST_DEFER.N
  else
    let s := { s with sdg := { s.sdg with done := stepSet s.sdg.done k (stepCount s.sdg.done k + 1) } }
    run (s.bump R.SDG_CNT_ST_DONE.N)

/-- A failed step (R403). -/
def State.stFail (s : State) : State := (s.bump R.SDG_CNT_ST_FAIL.N).latch R.SDG_STATUS.ST_FAIL

/-- The word of a bank that a march finds wrong: one the test met, or one whose parity the memory holds wrong (R182, R183). -/
def State.marchFault (s : State) (n b : Nat) (mismatch : Option Nat) : Option Nat :=
  let bad := ((s.core n).bad.filter (fun w => decide (w.word / 32768 = b))).map (·.word)
  (((mismatch.map (fun w => b * 32768 + w)).toList ++ bad).foldl (fun (m : Option Nat) w => some (match m with
    | none => w
    | some k => Nat.min k w)) none)

/-- The row in which the march met a mismatch keeps the value the march last wrote: zeros or ones, whichever phase of
March C- it had reached, which the rules leave open (R182). -/
def State.marchRow (s : State) (n w : Nat) : State :=
  let (v, s) := s.draw
  s.larderWrite n (w / 128 * 512) (List.replicate 512 (if bit v.toNat 0 then 0xFF else 0))

/-- Time of a march step of bank `b` of core `n` (R182), at the clock of its quad. -/
def State.marchNs (s : State) (n b : Nat) : Nat := ceilDiv (256 * (42 + 12 * b) * 1000) (s.get (R.CLK_FREQ.MHZ (n / 4)))

/-- LARDER_MARCH (R182, R400, R403): one bank, its data kept; the Larder is in test mode while the step lasts (R180); a mismatch at word `mismatch` of the bank is a hard fault. -/
def execLarderMarch (core bank : Fin 16) (mismatch : Option (Fin 32768)) (s : State) : Host.Outcome State Fault Refusal :=
  let n := core.val
  .next (s.selfTest ⟨0, n⟩ (s.coreStepOk n 71040) (fun s =>
    let s := (s.put (R.CORE_LDR_STATUS.MODE n) 2).setCore n { s.core n with testUntil := some (s.dtime + s.marchNs n bank.val) }
    match s.marchFault n bank.val (mismatch.map (·.val)) with
    | none => s
    | some w =>
      let s := if mismatch.map (fun m => bank.val * 32768 + m.val) = some w then s.marchRow n w else s
      (s.stFail.larderHard n bank.val w).settle))

/-- ARRAY_KAV (R400, R403): a mismatch has the consequences of R185 with FAULT_BANK 0. -/
def execArrayKav (core : Fin 16) (pass : Bool) (s : State) : Host.Outcome State Fault Refusal :=
  let n := core.val
  .next (s.selfTest ⟨1, n⟩ (s.coreStepOk n 18000) (fun s => if pass then s else (s.stFail.larderHard n 0 0).settle))

/-- PANTRY_TAG (R400, R403): 128 sets of one die; a mismatch locks its set and way out. -/
def execPantryTag (die : Fin 2) (group : Fin 64) (mismatch : Option (Fin 128 × Fin 16)) (s : State) :
    Host.Outcome State Fault Refusal :=
  .next (s.selfTest ⟨2, die.val⟩ (s.endsBefore 20000 (s.nextPos (fun e => e.action == 6))) (fun s =>
    match mismatch with
    | none => s
    | some (k, w) =>
      let set := group.val * 128 + k.val
      let s := s.stFail.pantryError die.val set w.val
      if s.cel.locked.contains (die.val, set, w.val) then s else s.pantryError die.val set w.val))

/-- LP_KAL (R400, R403), while no slot of the camera is read, since no row of it is due: a mismatch rejects the camera's parts
until a later step on it passes. -/
def execLpKal (cam : Fin 16) (pass : Bool) (s : State) : Host.Outcome State Fault Refusal :=
  let c := cam.val
  .next (s.selfTest ⟨3, c⟩ (!s.rowDue c && s.endsBefore 3000 (s.nextPos (fun e => e.action == 3 && bit e.param c))) (fun s =>
    if pass then { s with sdg := { s.sdg with kalFailed := s.sdg.kalFailed.filter (· != c) } }
    else
      let s := s.stFail.latch R.SDG_STATUS.LP_KAL_FAIL
      let s := { s with sdg := { s.sdg with kalFailed := c :: s.sdg.kalFailed.filter (· != c) } }
      (s.markFault (s.liveParts.filter (fun i => colsCamera (s.part i).vd.cols == c))).lineStop .sheepdog))

/-- COVERAGE_INTERVAL_END (R402): steps still owed are late and carry over. -/
def execCoverageIntervalEnd (s : State) : Host.Outcome State Fault Refusal :=
  .next (if !s.flag R.SDG_ST_CFG.ENABLE || s.dtime < s.sdg.intervalStart + s.get R.SDG_ST_CFG.INTERVAL_S * 1000000000 then s
    else
      let n := s.owedAll
      let carried := (s.coverage.map (fun e => (e.1, s.owed e.1))).filter (fun e => e.2 != 0)
      let s := { s with sdg := { s.sdg with carried := carried, done := [], intervalStart := s.dtime } }
      if n = 0 then s
      else ((s.latch R.SDG_STATUS.SELFTEST_LATE).bump R.SDG_CNT_ST_LATE.N).loftEvent 0x0008 (leBytes 2 n))

end Sys2Proof.Machine
end

