-- ==== Sys2Proof/Machine/Registers.lean ====
section
/-! DEFINITION. Machine/Registers.lean: reads and writes of the register blocks through BAR0 and through REG_READ and
REG_WRITE: which registers answer, access types and commit classes, pairs, the sync object window, counters and their
clears, the latches of 64-bit counters (spec/00_scope.md, R4-R9; spec/01_part_journey.md, R18-R20;
spec/07_matrix_cores.md, R167, R170; spec/16_client_rings.md, R358, R369; spec/17_staging_commit.md, R375-R381). -/

namespace Sys2Proof.Machine

/-! ### Which registers answer -/

/-- The register defined at an aligned offset (R5, R19); of a core that is fused out, CORE_n_STATUS alone (R167). -/
def State.regAt (s : State) (off : Nat) : Option RegRow := match RegMap.lookup off with
  | none => none
  | some (r, _) =>
    if !s.inUse off then none
    else if 0xC0000 ≤ off && off < 0xD0000 && off % 4096 != 0 && !bit (s.get R.GLB_CORE_MAP.PRESENT) ((off - 0xC0000) / 4096) then none
    else some r

/-- Bits of a register whose fields are of one access type and class. -/
def RegRow.maskOf (r : RegRow) (a : Access) : Nat := ((r.fields.filter (fun f => f.access == a)).map FieldRow.mask).sum

/-- The index at which a numbered register has an offset. -/
def pick (n : Nat) (f : Nat → Nat) (off : Nat) : Option Nat := (List.range n).find? (fun i => f i == off)

/-! ### Counters and their clears (R89 and the CLEAR fields) -/

/-- Clears of the numbered blocks: the counters that a clear register of a lane, channel, camera, core or engine clears. -/
def clearNumbered (off : Nat) : Option (List Fld) :=
  ((pick 4 R.POS_E_ERR off).map (fun n =>
      [R.POS_E_ERR.CHK n, R.POS_E_ERR.ERRB n, R.POS_E_ERR.NORESP n, R.POS_E_ERR.JUMP n, R.POS_E_ERR.STUCK n])).or <|
  ((pick 64 R.LANE_L_EVT off).map (fun n =>
      [R.LANE_L_ERR.DISP n, R.LANE_L_ERR.CV n, R.LANE_L_EVT.FE_SLIP n, R.LANE_L_EVT.LOA n, R.LANE_L_EVT.MIS_COMMA n,
       R.LANE_L_PATERR.N n, R.LANE_L_CG_LO.N n, R.LANE_L_CG_HI.N n])).or <|
  ((pick 16 R.CXP_CAM_CNT_CLEAR off).map (fun c =>
      [R.CXP_CAM_LINES_OK.N c, R.CXP_CAM_SHORT.N c, R.CXP_CAM_LONG.N c, R.CXP_CAM_MISSING.N c, R.CXP_CAM_LATE_DROP.N c,
       R.CXP_CAM_CORRUPT.N c, R.CXP_CAM_UNGATED.N c, R.CXP_CAM_CNT_FMT.N c, R.CXP_CAM_PKT_CRC.N c, R.CXP_CAM_LINK_LOSS.N c])).or <|
  ((pick 16 R.LPIPE_CAM_CNT_CLEAR off).map (fun c =>
      [R.LPIPE_CAM_ROWS.N c, R.LPIPE_CAM_PADDED_ROWS.N c, R.LPIPE_CAM_REG_LATE.N c, R.LPIPE_CAM_DEFECT_NONE.N c,
       R.LPIPE_CAM_STRIP_FORCED.N c, R.LPIPE_CAM_CUT_EMPTY.N c, R.LPIPE_CAM_ROWS_DROPPED.N c, R.LPIPE_CAM_HALO_CELLAR.N c,
       R.LPIPE_CAM_CROP_BUSY.N c, R.LPIPE_CAM_MARK_WEAK.N c])).or <|
  ((pick 16 R.CORE_CNT_CLEAR off).map (fun n =>
      [R.CORE_SAT.N n, R.CORE_NAN.N n, R.CORE_STALL_W.N n, R.CORE_STALL_D.N n])).or <|
  ((pick 16 R.CORE_LDR_CNT_CLEAR off).map (fun n =>
      [R.CORE_LDR_PAR.SOFT n, R.CORE_LDR_WAIT_A.N n, R.CORE_LDR_WAIT_W.N n, R.CORE_LDR_WAIT_V.N n, R.CORE_LDR_WAIT_D.N n,
       R.CORE_LDR_WAIT_T.N n, R.CORE_LDR_OFFPLAN.N n, R.CORE_LDR_NARROW.N n])).or <|
  ((pick 16 R.CORE_AG_CNT_CLEAR off).map (fun n =>
      [R.CORE_STALL_A.N n, R.CORE_AG_ROWS.N n, R.CORE_AG_PAD.N n, R.CORE_VEC_STEPS.N n])).or <|
  ((pick 16 R.CORE_ALLOC_CLEAR off).map (fun n => [R.CORE_ALLOC_SKIP.COUNT n, R.CORE_ALLOC_WAIT.COUNT n])).or <|
  ((pick 2 R.FLK_ENG_CNT_CLEAR off).map (fun e =>
      [R.FLK_ENG_CNT_FIRST.N e, R.FLK_ENG_CNT_DUP.N e, R.FLK_ENG_CNT_NOT_ISSUED.N e, R.FLK_ENG_CNT_PROBE_LIMIT.N e,
       R.FLK_ENG_CNT_DOUBT.N e, R.FLK_ENG_CNT_NO_ROUTE.N e, R.FLK_ENG_CNT_FAULTS.N e, R.FLK_ENG_CNT_MEM_STALL.N e]))

/-- Counters that a clear register clears; none for any other register. -/
def clearFields (off : Nat) : Option (List Fld) :=
  if off = R.CLK_CNT_CLEAR then some [R.CLK_CNT_LOST.N, R.CLK_CNT_SWITCH.N, R.CLK_CNT_REFUSED.N]
  else if off = R.PSQ_CNT_CLEAR then
    some [R.PSQ_CNT_SLIP.N, R.PSQ_CNT_STALE.N, R.PSQ_CNT_LEAD_SHORT.N, R.PSQ_CNT_MERGED.N, R.PSQ_CNT_DELAYED.N,
      R.PSQ_CNT_PART_OVF.N, R.PSQ_CNT_CLOSE_NONE.N]
  else if off = R.CEL_CNT_CLEAR then
    some ([R.CEL_CNT_SOFT_CEL.N, R.CEL_CNT_SOFT_SHELF.N, R.CEL_CNT_SOFT_PAN.N, R.CEL_CNT_PAN_LOCK.N, R.CEL_CNT_HARD.N,
      R.CEL_CNT_RETIRED.N, R.CEL_CNT_WAIT_INFL.N, R.CEL_INFL.PEAK 0, R.CEL_INFL.PEAK 1]
      ++ (List.range 8).flatMap (fun p => [R.CEL_PART_HIT.N p, R.CEL_PART_MISS.N p]))
  else if off = R.STG_CNT_CLEAR then some [R.STG_CNT_REFUSED.N, R.STG_CNT_FROZEN.N]
  else if off = R.STG_SO_CNT_CLEAR then some [R.STG_SO_CNT_BROKEN.N, R.STG_SO_CNT_BADARG.N, R.STG_SO_CNT_SAT.N]
  else if off = R.SDG_CNT_CLEAR then
    some [R.SDG_CNT_DISAGREE.N, R.SDG_CNT_LATE.N, R.SDG_CNT_LATE_RESULT.N, R.SDG_CNT_BAD_RESULT.N, R.SDG_CNT_DUP_RESULT.N,
      R.SDG_CNT_ALARM.N, R.SDG_CNT_ST_DONE.N, R.SDG_CNT_ST_DEFER.N, R.SDG_CNT_ST_FAIL.N, R.SDG_CNT_ST_LATE.N,
      R.SDG_CNT_SDG_MISSED.N]
  else if off = R.FLD_CNT_CLEAR then
    some ([R.FLD_CNT_REJECT.N, R.FLD_CNT_RETX.N, R.FLD_CNT_UP_CRC.N, R.FLD_CNT_SYNC_REJ.N, R.FLD_CNT_HB_LOSS.N,
      R.FLD_EDGEQ.PEAK]
      ++ (List.range 16).flatMap (fun n => [R.FLD_Q_PULSES.N n, R.FLD_Q_FAULTS.N n, R.FLD_I_EDGES.N n]))
  else if off = R.AUD_CNT_CLEAR then
    some [R.AUD_CNT_AC_OK.N, R.AUD_CNT_AC_FAIL.N, R.AUD_CNT_NOFRAME.N, R.AUD_CNT_AC_LATE.N]
  else if off = R.GTS_CNT_CLEAR then
    some ([R.GTS_CNT_UNROUTED.N, R.GTS_CNT_PROMOTE.N]
      ++ (List.range 8).flatMap (fun k => [R.GTS_G_NAK.N k, R.GTS_G_REPLAY_FAIL.N k, R.GTS_G_DOWN.N k])
      ++ (List.range 16).flatMap (fun e => [R.GTS_HX_STRIPS.N e, R.GTS_HX_DROP.N e]))
  else if off = R.NTM_CNT_CLEAR then
    some [R.NTM_CNT_STEP.N, R.NTM_CNT_TXQ_OVF.N, R.NTM_CNT_TXQ_STALE.N, R.NTM_CNT_SYNC_RX.N]
  else if off = R.ADP_CAP_CLEAR then some [R.ADP_CAP_CAND.N, R.ADP_CAP_NOSLOT.N, R.ADP_CAP_DROPPED.N]
  else if off = R.ADP_IN_CNT_CLEAR then
    some [R.ADP_IN_CNT_OK.N, R.ADP_IN_CNT_SHORT.N, R.ADP_IN_CNT_TIMED_OUT.N, R.ADP_IN_CNT_TOO_BIG.N, R.ADP_IN_CNT_RATIO.N,
      R.ADP_IN_CNT_FORMAT.N, R.ADP_IN_CNT_CORRUPT.N, R.ADP_IN_CNT_LOW.N]
  else clearNumbered off

/-- The bit of CLEAR in a clear register. -/
def clearBit (off : Nat) : Nat := if (pick 4 R.POS_E_ERR off).isSome || (pick 64 R.LANE_L_EVT off).isSome then 31 else 0

/-! ### Class S, class I and W1C (R7-R9, R375, R376, R381) -/

/-- A class S write while the stage is frozen: discarded and counted (R381). -/
def State.frozenWrite (s : State) : State := (s.latch R.STG_STATUS.FROZEN_WR).bump R.STG_CNT_FROZEN.N

/-- A write of a class S register goes to the stage (R375), reserved bits as 0 (R6). -/
def State.stageWrite (s : State) (off mask v : Nat) : State :=
  if s.flag R.STG_STATUS.FROZEN then s.frozenWrite
  else { s with staged := keyPut s.staged off (BitVec.ofNat 32 (Nat.land v mask)) }

/-- A word with the W1C bits written 1 cleared, but those that this tick has set (R8), and the class I fields as written
(R7). -/
def writtenWord (r : RegRow) (w v now : Nat) : Nat :=
  let c := Nat.land v (r.maskOf .oneClears)
  let c := c - Nat.land c now
  let i := r.maskOf .immediate
  let w := w - Nat.land w c
  w - Nat.land w i + Nat.land v i

/-- A write of a register that has no action of its own. -/
def State.plainWrite (s : State) (off : Nat) (r : RegRow) (v : Nat) : State :=
  let s := if r.maskOf .oneClears + r.maskOf .immediate = 0 then s
    else s.setReg off (BitVec.ofNat 32 (writtenWord r (s.reg off).toNat v (s.reg (off + 0x400000)).toNat))
  if r.maskOf .staged = 0 then s else s.stageWrite off (r.maskOf .staged) v

/-! ### Pairs (R377, R378) -/

/-- The members of the pair that an offset belongs to: the other member, then the latching member. -/
def pairAt (off : Nat) : Option (Nat × Nat) :=
  let two (n : Nat) (f g : Nat → Nat) : Option (Nat × Nat) :=
    ((pick n f off).or (pick n g off)).map (fun i => (f i, g i))
  (two 16 R.PSQ_Q_PULSE R.PSQ_Q_MINOFF).or <| (two 1024 R.LPIPE_CROP_X R.LPIPE_CROP_W).or <|
    (two 4 R.NTM_TPO_START_LO R.NTM_TPO_START_HI).or <| (two 4 R.NTM_TPO_PERIOD R.NTM_TPO_WIDTH).or <|
    (two 2 R.LOFT_A0_BIN0 R.LOFT_A0_BINW).or <| (two 1 (fun _ => R.LOFT_A3_BIN0) (fun _ => R.LOFT_A3_BINW)).or <|
    two 16 R.LOFT_A16_BIN0 R.LOFT_A16_BINW

/-- Show the pairs that are open (R377): the offset of the oldest stays shown after the last one closes. -/
def State.showPairs (s : State) : State :=
  let s := s.putFlag R.STG_STATUS.PAIR_OPEN !s.pairs.isEmpty
  match s.pairs.head? with
  | some e => s.put R.STG_PAIR_OFF.OFFSET e.1
  | none => s

/-- A write of the member that does not latch: its value waits (R377). -/
def State.pairMember (s : State) (off mask v : Nat) : State :=
  let e : Nat × BitVec 32 := (off, BitVec.ofNat 32 (Nat.land v mask))
  let l := if s.pairs.any (fun x => x.1 == off) then s.pairs.map (fun x => if x.1 == off then e else x) else s.pairs ++ [e]
  { s with pairs := l }.showPairs

/-- A pair keeps its ranges and the consistency rules under the configuration in force (R377). -/
def State.pairKeeps (t : State) (m l : Nat) : Bool :=
  regKeeps m (t.reg m).toNat && regKeeps l (t.reg l).toNat
    && (match pick 4 R.NTM_TPO_WIDTH l with
      | some n => !t.badTpo n
      | none => true)
    && (match pick 1024 R.LPIPE_CROP_W l with
      | some i => !t.badCrop i
      | none => true)

/-- What a latched pair does at once: a Loft pair clears its record, START is judged (R467, R470). -/
def State.pairActs (s : State) (l : Nat) : State :=
  match pick 4 R.NTM_TPO_START_HI l with
  | some n => s.tpoStart n
  | none => match (pick 2 R.LOFT_A0_BINW l).or (((pick 1 (fun _ => R.LOFT_A3_BINW) l).map (· + 3)).or
      ((pick 16 R.LOFT_A16_BINW l).map (· + 16))) with
    | some r => s.clearAcc r
    | none => s

/-- A write of the latching member (R377); a commit that is due on this tick applies first (R378). -/
def State.pairLatch (s : State) (m l mask v : Nat) : State :=
  let s := s.commitTick
  let other := (keyGet s.pairs m).getD (s.reg m)
  let s := { s with pairs := s.pairs.filter (fun e => e.1 != m) }.showPairs
  let n := match pick 16 R.PSQ_Q_MINOFF l with
    | some q => s.notePulse q
    | none => s
  let t := (n.setReg m other).setReg l (BitVec.ofNat 32 (Nat.land v mask))
  if t.pairKeeps m l then t.pairActs l else s.latch R.STG_STATUS.PAIR_ERR

/-! ### The sync object window (R345, R379) -/

/-- STG_SO_IDX selects object `o`: its state, and its configuration as VIEW selects, go into the window. -/
def State.soSelect (s : State) (o : Nat) : State :=
  let s := s.put R.STG_SO_IDX.INDEX o
  let c := if s.flag R.STG_CTL.VIEW then s.soNext o else (s.so o).cfg
  let s := (s.setReg R.STG_SO_CFG (BitVec.ofNat 32 c.word)).setReg R.STG_SO_INIT (BitVec.ofNat 32 c.init)
  let v := (s.so o).shown
  (s.setReg R.STG_SO_STATE (BitVec.ofNat 32 (s.soStateWord o))).put64 R.STG_SO_VAL_LO.VALUE R.STG_SO_VAL_HI.VALUE v

/-- Object INDEX enters the stage with a new CFG word, or a new INIT (R345). -/
def State.soStage (s : State) (off v : Nat) : State :=
  if s.flag R.STG_STATUS.FROZEN then s.frozenWrite
  else
    let o := s.get R.STG_SO_IDX.INDEX
    let c := s.soNext o
    let c := if off = R.STG_SO_INIT then { c with init := v } else SoCfg.ofWord v c.init
    let s := s.setStage { s.stage with sos := keyPut s.stage.sos o c }
    if s.flag R.STG_CTL.VIEW then s.setReg off (BitVec.ofNat 32 v) else s

/-! ### Registers with an action of their own -/

/-- A write of a register of ring `n` (R351, R369). -/
def State.ringRegWrite (s : State) (via : Option Nat) (off : Nat) (r : RegRow) (v : Nat) : State :=
  let n := (off - 0x100000) / 32
  let k := off % 32
  if k = 0 then s.ringCfgFrom via n v
  else if s.ringAccess via n (if k = 4 then some (v / 4194304) else none) then s.plainWrite off r v
  else s.accessErr off

/-- GLB, CLK, PWR and BOOT. -/
def State.baseWrite (s : State) (off : Nat) (r : RegRow) (v : Nat) : State :=
  if off = R.GLB_ACCESS_ERR then (if bit v 31 then (s.drop R.GLB_ACCESS_ERR.COUNT).drop R.GLB_ACCESS_ADDR.OFFSET else s)
  else if off = R.CLK_CTL then (if bit v 31 then s.clkSwitch (bit v 3) (v % 8) else s)
  else if off = R.PWR_CAP then s.put R.PWR_CAP.CAP_W (Nat.min 380 (Nat.max 150 (v % 512)))
  else if off = R.BOOT_PUSH_CTL then (if bit v 0 then s.pushGo true else s)
  else if off = R.BOOT_CTL then s.bootCtl (bits v 31 24) (bit v 0)
  else if off = R.BOOT_CERT_CTL then s.certSelect (v % 16384)
  else s.plainWrite off r v

/-- POS, PSQ, PART, LANE and CEL. A write of EYE_CTL with START and ABORT both 1 first ends a scan under way and then starts the
new one: DESIGN CHOICE, R91 gives no order (log entry 44). -/
def State.webWrite (s : State) (off : Nat) (r : RegRow) (v : Nat) : State :=
  if off = R.POS_SNAP_CTL then (if bit v 0 then s.posSnap else s)
  else if off = R.PSQ_TBL_IDX then s.psqTblRead (v % 65536)
  else if off = R.PART_WIN_IDX then s.partWinRead (v % 4096)
  else if off = R.CEL_RET_IDX then s.celRetRead (v % 2048)
  else match pick 64 R.LANE_L_EYE_CTL off with
    | none => s.plainWrite off r v
    | some n =>
      let s := s.plainWrite off r v
      let s := if bit v 30 then s.abortScan n else s
      if bit v 31 then s.eyeStart n (bits v 6 0) (bits v 17 9) (bits v 22 18) else s

/-- FLK, STG, SDG, NTM and LOFT. -/
def State.unitWrite (s : State) (off : Nat) (r : RegRow) (v : Nat) : State :=
  if off = R.STG_SO_IDX then s.soSelect (v % 16384)
  else if off = R.STG_SO_CFG || off = R.STG_SO_INIT then s.soStage off v
  else if off = R.SDG_STATUS then (let s := s.plainWrite off r v; if bit v 0 then s.alarmClear else s)
  else if off = R.SDG_PROOF then s.proofArm (v % 64) (bits v 9 8)
  else if off = R.NTM_SNAP_CTL then (if bit v 0 then s.snapTake else s)
  else if off = R.LOFT_CLEAR then
    let s := if bit v 31 then s.clearAcc (v % 1024) else s
    let s := if bit v 30 then s.clearAccs else s
    if bit v 29 then s.drop R.LOFT_CNT_DROP.N else s
  else match pick 2 R.FLK_ENG_FAULT off with
    | some e => if bit v 31 then s.faultRelease e else s
    | none => s.plainWrite off r v

/-- FLD. -/
def State.fieldWrite (s : State) (off : Nat) (r : RegRow) (v : Nat) : State :=
  if off = R.FLD_CTL then
    let s := if bit v 1 then s.lineStop .client else s
    if bit v 0 then s.fldResume else s
  else if off = R.FLD_STATUS then s.plainWrite off r (if s.uplinkSilent && bit v 5 then v - 32 else v)
  else if off = R.FLD_LS_CAUSE then s.clearCauses (v % 2048)
  else if off = R.FLD_OUT_SET then s.outSetWrite (v % 65536)
  else match pick 16 R.FLD_Q_STATUS off with
    | some q => s.clearOutFaults q v
    | none => s.plainWrite off r v

/-- A write of a defined register. -/
def State.regWrite (s : State) (via : Option Nat) (off : Nat) (r : RegRow) (v : Nat) : State :=
  match clearFields off with
  | some fs =>
    if !bit v (clearBit off) then s
    else if (pick 64 R.LANE_L_EVT off).isSome then s.clearCounts fs
    else s.dropAll fs
  | none =>
    if r.maskOf .paired ≠ 0 then
      match pairAt off with
      | some (m, l) => if off = l then s.pairLatch m l (r.maskOf .paired) v else s.pairMember off (r.maskOf .paired) v
      | none => s
    else if off < 0x40000 then s.baseWrite off r v
    else if 0x100000 ≤ off && off < 0x140000 then s.ringRegWrite via off r v
    else if 0x180000 ≤ off && off < 0x200000 then s.doorbell ((off - 0x180000) / 64) v
    else if off < 0x100000 && !(0xD0000 ≤ off && off < 0xE0000) then s.webWrite off r v
    else if 0x220000 ≤ off && off < 0x230000 then s.fieldWrite off r v
    else s.unitWrite off r v

/-- A naturally aligned 32-bit write at an offset of BAR0, through session `via` where one is given (R4-R7, R19). -/
def State.barWrite (s : State) (via : Option Nat) (off v : Nat) : State :=
  if !s.answers then s
  else match s.regAt off with
    | none => s.accessErr off
    | some r => s.regWrite via off r v

/-! ### Reads -/

/-- A register word with a field replaced. -/
def Fld.over (f : Fld) (v w : Nat) : Nat := putBits w f.hi f.lo v

/-- 1 or 0 for a truth value. -/
def flagBit (b : Bool) : Nat := if b then 1 else 0

/-- Fields of the rings' registers that show a ring's state (R350, R374). -/
def State.ringShown (s : State) (off w : Nat) : Nat :=
  let n := (off - 0x100000) / 32
  match s.ring n with
  | none => w
  | some r =>
    let k := off % 32
    if k = 20 then r.prod
    else if k = 24 then (if r.cfg.kind = 1 then r.fetched else r.cons)
    else if k = 28 then
      (R.RING_STATUS.DROPPED n).over (satNat 16 r.dropped) ((R.RING_STATUS.STARTED n).over (s.startedOf n)
        ((R.RING_STATUS.ACTIVE n).over (flagBit r.active) ((R.RING_STATUS.HALTED n).over (flagBit r.halted) w)))
    else w

/-- Fields of the field side that show its state (R408, R412, R413, R416, R420, R422). -/
def State.fieldShown (s : State) (off w : Nat) : Nat :=
  if off = R.FLD_STATUS then
    let ok := match s.field.lastSync with
      | some t => decide (s.field.ftime < t + 200000)
      | none => false
    R.FLD_STATUS.SYNC_OK.over (flagBit ok) (R.FLD_STATUS.FSTATE.over s.field.mode.code w)
  else if off = R.FLD_EDGEQ then R.FLD_EDGEQ.USED.over s.edgeqUsed w
  else if off = R.FLD_IN_STATE then s.link.inputs
  else match pick 16 R.FLD_Q_STATUS off with
    | some q => (R.FLD_Q_STATUS.LEVEL q).over (flagBit (s.outLevel q)) w
    | none => w

/-- Fields of the line pipeline that show its state (R135, R137). -/
def State.lpShown (s : State) (off w : Nat) : Nat :=
  if off = R.LPIPE_STATUS then
    let d := (List.range 16).any (fun c => (List.range 8).any (fun k => s.flag (R.LPIPE_STR_STATUS.DROPPING c k)))
    R.LPIPE_STATUS.DROPPING.over (flagBit d) w
  else match pick 128 (fun n => R.LPIPE_STR_STATUS (n / 8) (n % 8)) off with
    | some n => (R.LPIPE_STR_STATUS.FREE (n / 8) (n % 8)).over (s.freeBufs (n / 8) (n % 8)) w
    | none => w

/-- Fields that show a state which is kept elsewhere. -/
def State.shown (s : State) (off w : Nat) : Nat :=
  if off = R.GLB_STATUS then R.GLB_STATUS.LINE_STOP.over (flagBit !s.field.lsOn) w
  else if off = R.CLK_STATUS then
    R.CLK_STATUS.REC_READY.over (maskOf ((List.range 8).filter (fun k => s.recReady k)))
      (R.CLK_STATUS.DT_SUSPECT.over (flagBit s.dtSuspect) w)
  else if off = R.POS_STATUS then
    R.POS_STATUS.HAVE_BASE.over (flagBit (s.chan s.source).seen) (R.POS_STATUS.SPD_MODE.over (flagBit !(s.chan s.source).freqMode)
      (R.POS_STATUS.DT_SUSPECT.over (flagBit s.dtSuspect) w))
  else if off = R.POS_BACKLOG then satNat 32 s.pos.backlog
  else if off = R.PSQ_STATUS then R.PSQ_STATUS.RUNNING.over (flagBit s.seqRuns) w
  else if off = R.PART_STATUS then s.liveParts.length
  else if 0xA0000 ≤ off && off < 0xC0000 then s.lpShown off w
  else if 0xD0000 ≤ off && off < 0xD2000 && off % 4096 = 0 then
    let e := (off - 0xD0000) / 4096
    (R.FLK_ENG_STATUS.ACTIVE e).over (s.flock.threads.filter (fun t => t.1 / 4096 == e)).length w
  else if 0x100000 ≤ off && off < 0x140000 then s.ringShown off w
  else if off = R.SDG_WIN_NOW then
    R.SDG_WIN_NOW.PARTS.over s.sdg.win.length (R.SDG_WIN_NOW.COUNT.over (s.sdg.win.filter (fun b => b)).length w)
  else if off = R.SDG_ST_STATUS then
    R.SDG_ST_STATUS.ELAPSED_S.over (satNat 16 ((s.dtime - s.sdg.intervalStart) / 1000000000))
      (R.SDG_ST_STATUS.OWED.over (satNat 16 s.owedAll) w)
  else if 0x220000 ≤ off && off < 0x230000 then s.fieldShown off w
  else if off = R.NTM_NS then s.ntm.ns
  else if off = R.NTM_TXQ then s.ntm.txq.length
  else if off = R.LOFT_HEAD then s.loft.head
  else if 0x260100 ≤ off && off < 0x260200 then fieldAt (s.loftRecord (s.get R.LOFT_CUR.RECORD)) (off - 0x260100) 4
  else if off = R.ADP_IN_STATUS then
    R.ADP_IN_STATUS.READY.over (satNat 8 (s.so (s.get R.ADP_IN_SO.READY)).value.toNat) w
  else w

/-- _LO halves of the 64-bit counters whose reads latch the high word (R170). -/
def loHalf (off : Nat) : Bool :=
  (pick 16 R.CORE_ACT_LO off).isSome || (pick 16 R.CORE_CYC_LO off).isSome || (pick 2 R.FLK_ENG_INSTR_LO off).isSome
    || (pick 16 R.FLD_I_LAST_DTIME_LO off).isSome || off == R.PWR_ENERGY_LO

/-- The two words of a 64-bit counter: a core's CYC shows the cycles of its quad (R170). -/
def State.loWords (s : State) (off : Nat) : Nat × Nat :=
  match pick 16 R.CORE_CYC_LO off with
  | some n =>
    let v := nth s.clk.cycles (n / 4) 0 / 1000
    (v % 4294967296, v / 4294967296 % 4294967296)
  | none => ((s.reg off).toNat, (s.reg (off + 4)).toNat)

/-- A read of a _LO half (R170): the high word goes to the holding register of the _HI half. -/
def State.readLo (s : State) (off : Nat) : Nat × State :=
  let (lo, hi) := s.loWords off
  (lo, { s with holding := keyPut s.holding (off + 4) (BitVec.ofNat 32 hi) })

/-- Operations in flight at home `d` now and at most (R319): those of threads, and of the other agents any number that there is
room for (log entry 43). -/
def State.readInfl (s : State) (d : Nat) : Nat × State :=
  let (v, s) := s.draw
  let mine := Nat.min 8192 (s.inFlight d none)
  let now := mine + v.toNat % (8193 - mine)
  let least := Nat.max now (s.get (R.CEL_INFL.PEAK d))
  let peak := least + v.toNat / 8193 % (8193 - least)
  (now + peak * 65536, s.put (R.CEL_INFL.PEAK d) peak)

/-- What a naturally aligned 32-bit read at an offset returns, with the state after it (R4-R7, R19, R379). -/
def State.readReg (s : State) (off : Nat) : Nat × State :=
  if !s.answers then (0, s)
  else match s.regAt off with
    | none => (0, s)
    | some r =>
      if loHalf off then s.readLo off
      else if loHalf (off - 4) then (((keyGet s.holding off).getD 0).toNat, s)
      else if off = R.CEL_INFL 0 then s.readInfl 0
      else if off = R.CEL_INFL 1 then s.readInfl 1
      else
        let w := if s.flag R.STG_CTL.VIEW then s.stagedReg off else s.reg off
        let w := s.shown off w.toNat
        (w - Nat.land w (r.maskOf .writeOnly), s)

/-- What a read of `len` bytes at a BAR0 offset returns (R4): a full aligned read the register; a narrow or unaligned one the
bytes of its containing register, 0 beyond it, with no side effect on any register. -/
def State.readBar (s : State) (off len : Nat) : List Byte × State :=
  let (v, t) := s.readReg (off / 4 * 4)
  if off % 4 = 0 && len = 4 then (leBytes 4 v, t)
  else ((List.range len).map (fun k => BitVec.ofNat 8 (if off % 4 + k < 4 then v / 256 ^ (off % 4 + k) % 256 else 0)),
    { s with free := t.free })

/-! ### Rows -/

/-- REGISTER_WRITE (R4, R7): a write of `len` bytes; one that is narrower than 32 bits or not aligned is discarded and
counted. -/
def execRegisterWrite (off : BitVec 22) (len : Fin 5) (value : BitVec 32) (s : State) : Host.Outcome State Fault Refusal :=
  .next (if len.val < 4 || off.toNat % 4 != 0 then (if s.answers then s.accessErr off.toNat else s)
    else s.barWrite none off.toNat value.toNat)

/-- W1C_CLEAR (R8): a write to a register with W1C bits; another register is left alone. -/
def execW1cClear (off : BitVec 22) (value : BitVec 32) (s : State) : Host.Outcome State Fault Refusal :=
  .next (match RegMap.lookup off.toNat with
    | some (r, _) => if r.maskOf .oneClears = 0 then s else s.barWrite none off.toNat value.toNat
    | none => s)

/-- LO_READ_LATCH (R4, R170): a full aligned read of a _LO half; a narrow or unaligned read has no side effect. -/
def execLoReadLatch (off : BitVec 22) (len : Fin 5) (s : State) : Host.Outcome State Fault Refusal :=
  .next (if len.val < 4 || !loHalf off.toNat then s else (s.readBar off.toNat 4).2)

/-- COUNTER_CLEAR (R89 and the CLEAR fields of the blocks): 1 is written to the CLEAR bit of a clear register. -/
def execCounterClear (off : BitVec 22) (s : State) : Host.Outcome State Fault Refusal :=
  .next (if (clearFields off.toNat).isSome then s.barWrite none off.toNat (2 ^ clearBit off.toNat) else s)

/-- ACCESS_ERR_CLEAR (R20). -/
def execAccessErrClear (s : State) : Host.Outcome State Fault Refusal :=
  .next (s.barWrite none R.GLB_ACCESS_ERR (2 ^ 31))

/-- PAIR_MEMBER_WRITE (R377): a write to a member that does not latch. -/
def execPairMemberWrite (off : BitVec 22) (value : BitVec 32) (s : State) : Host.Outcome State Fault Refusal :=
  .next (match pairAt off.toNat with
    | some (m, _) => if off.toNat = m then s.barWrite none m value.toNat else s
    | none => s)

/-- PAIR_LATCH (R377, R378): a write to a latching member. -/
def execPairLatch (off : BitVec 22) (value : BitVec 32) (s : State) : Host.Outcome State Fault Refusal :=
  .next (match pairAt off.toNat with
    | some (_, l) => if off.toNat = l then s.barWrite none l value.toNat else s
    | none => s)

/-- SO_SELECT (R379): a write of STG_SO_IDX. -/
def execSoSelect (index : BitVec 14) (s : State) : Host.Outcome State Fault Refusal :=
  .next (s.barWrite none R.STG_SO_IDX index.toNat)

/-- SO_RESTAGE (R345): a write of STG_SO_CFG. -/
def execSoRestage (word : BitVec 32) (s : State) : Host.Outcome State Fault Refusal :=
  .next (s.barWrite none R.STG_SO_CFG word.toNat)

/-- REG_READ (R358): one or two registers. -/
def execRegRead (ring : Fin 8192) (index : BitVec 32) (s : State) : Host.Outcome State Fault Refusal :=
  .next (match s.startedAs ring.val index.toNat 0x01 with
    | none => s
    | some d =>
      let (lo, s) := s.readReg (d.param 24 4)
      let (hi, s) := if d.param 28 1 = 2 then s.readReg (d.param 24 4 + 4) else (0, s)
      s.complete d .ok (lo + hi * 4294967296))

/-- REG_WRITE (R358, R369): as a 32-bit BAR0 write, through its session over Ethernet. -/
def execRegWrite (ring : Fin 8192) (index : BitVec 32) (s : State) : Host.Outcome State Fault Refusal :=
  .next (match s.startedAs ring.val index.toNat 0x02 with
    | none => s
    | some d =>
      (s.barWrite (if d.ethernet then some d.session else none) (d.param 24 4) (d.param 28 4)).complete d .ok 0)

end Sys2Proof.Machine
end

