-- ==== Sys2Proof/Machine/Tick.lean ====
section
/-! DEFINITION. Machine/Tick.lean: the tick of module time, 4 ns (spec/02_web_position.md, R39; R326,
R412). -/

namespace Sys2Proof.Machine

/-- The times move on by one tick: DTIME, and FTIME at its nominal rate (R412, log entry 12). -/
def State.timesOn (s : State) : State :=
  { s.newTick with
    dtime := u64 (s.dtime + 4)
    field := { s.field with ftime := u64 (s.field.ftime + 4) }
    pos := { s.pos with wposBefore := s.pos.wpos } }

/-- Entries of a trail that are still kept at DTIME `now`: those of the last 100 ms, and the one in force before them. -/
def keptTrail (now : Nat) : List (Nat × Nat) → List (Nat × Nat)
  | [] => []
  | e :: es => if e.1 + 100000000 < now then [e] else e :: keptTrail now es

/-- WPOS of the tick that ends is kept for the records of the acoustic inputs (R301). -/
def State.noteWpos (s : State) : State :=
  if (s.aud.trail.head?.map (·.2)) == some s.pos.wpos then s
  else { s with aud := { s.aud with trail := (s.dtime, s.pos.wpos) :: keptTrail s.dtime s.aud.trail } }

/-- The quads that run count their clock cycles (R170), in thousandths: 4 ns at CLK_FREQq MHz. -/
def State.countCycles (s : State) : State :=
  { s with clk := { s.clk with cycles := ((List.range 4).zip s.clk.cycles).map (fun e =>
      if s.quadRuns (4 * e.1) then e.2 + 4 * s.get (R.CLK_FREQ.MHZ e.1) else e.2) } }

/-- A Larder whose march step has lasted its time is in normal mode again (R180, R182). -/
def State.marchesEnd (s : State) : State :=
  (List.range 16).foldl (fun (s : State) n => match (s.core n).testUntil with
    | none => s
    | some t =>
      if s.dtime < t then s
      else
        let s := s.setCore n { s.core n with testUntil := none }
        if s.get (R.CORE_LDR_STATUS.MODE n) = 2 then s.put (R.CORE_LDR_STATUS.MODE n) 0 else s) s

/-- An update of the configuration in flash has been written (R474; log entry 56). -/
def State.flashStep (s : State) : State :=
  match s.boot.cfgWrite with
  | none => s
  | some (b, c) =>
    { s with boot := { s.boot with
        cfgA := if b then s.boot.cfgA else c, cfgB := if b then c else s.boot.cfgB, cfgWrite := none } }.putFlag
      R.BOOT_STATUS.FLASH_BUSY s.boot.push.isSome

/-- The dies whose loss a running module has still to answer (R16): a compute die with cores or an engine in service. -/
def State.diesGone (s : State) : List Nat :=
  (List.range 2).filter (fun d => bit s.module.lost d
    && ((List.range 8).any (fun k => s.inService (8 * d + k)) || s.flag (R.FLK_ENG_STATUS.IN_SERVICE d)))

/-- A die is lost in service (R16, R405): a memory-side die takes the whole module down, as rank 2 of the table; a compute die its
eight cores and its engine (log entry 61). -/
def State.dieLoss (s : State) : State :=
  if s.module.lost = 0 || !s.flag R.GLB_STATUS.READY then s
  else if s.module.lost / 4 ≠ 0 then s.powerOff
  else match s.diesGone with
    | [] => s
    | ds => (ds.foldl (fun (s : State) d => s.dieDown d) s).settle

/-- The sync unit at the end of a tick: the waits that have reached it (R339). -/
def State.waitsStep (s : State) : State := if s.sync.arriving.isEmpty then s else s.takeWaits.settle

/-- WPOS_EXTRAPOLATE (R39): one DTIME tick of 4 ns. With the supply off only the field controller's time runs
(R412). -/
def execWposExtrapolate (s : State) : Host.Outcome State Fault Refusal :=
  .next (if s.boot.power then s.waitsStep.noteWpos.countCycles.timesOn.expireDue.setupStep.marchesEnd.ntmTick.promoteBase.extrapolate.revExcess.overspeed.blockTick.flashStep.sendPatterns.promoteStep.dieLoss
    else { s with field := { s.field with ftime := u64 (s.field.ftime + 4) } })

end Sys2Proof.Machine
end

