-- ==== Sys2Proof/Machine/Vector.lean ====
section
/-! DEFINITION. Machine/Vector.lean: the vector engine (spec/09_windows_and_vectors.md, R199-R207; operands in
spec/11_program_images.md, R245). Log entry 28 gives the readings of points that the rules leave open. -/

namespace Sys2Proof.Machine

/-- A vector command (R199, R245). -/
structure Vx where
  op : Nat
  fmt : Nat
  ofmt : Nat
  round : Nat
  sat : Bool
  ak : Nat
  bk : Nat
  dAcc : Bool
  accA : Nat
  accB : Nat
  accD : Nat
  a : Nat
  b : Nat
  d : Nat
  count : Nat
  sa : Nat
  sb : Nat
  sd : Nat
  plan : List Byte
  param : List Byte
  deriving DecidableEq, Repr

/-- The operands that a head record and its continuations encode (R245). -/
def Vx.decode (h c1 c2 : List Byte) : Vx :=
  let f (i n : Nat) : Nat := fieldAt h i n
  { op := f 8 1, fmt := f 9 1 % 16, ofmt := f 9 1 / 16, round := f 10 1 % 4, sat := bit (f 10 1) 2
    ak := bits (f 10 1) 4 3, bk := bits (f 10 1) 6 5, dAcc := bit (f 10 1) 7
    accA := f 11 1 % 4, accB := bits (f 11 1) 3 2, accD := bits (f 11 1) 5 4
    a := f 12 4, b := f 16 4, d := f 20 4, count := f 24 2 + 1
    sa := f 26 2 * 512, sb := f 28 2 * 512, sd := f 30 2 * 512
    plan := c1.take 10, param := sliceBytes c1 16 16 ++ sliceBytes c2 0 32 }

/-- A field of PARAM. -/
def Vx.par (c : Vx) (i n : Nat) : Nat := fieldAt c.param i n

/-- A value of a lane. -/
inductive Lane where
  | int (z : Int)
  | fp (x : Fp)
  deriving DecidableEq, Repr

/-- An element of a format. -/
def laneOf (f raw : Nat) : Lane := if fmtIsFp f then .fp (elemFp f raw) else .int (elemInt f raw)

/-- A lane's value as a floating value. -/
def Lane.toFp : Lane → Fp
  | .int z => .ofInt z
  | .fp x => x

/-- The formats I and F of R202. -/
def vecFmt (f : Nat) : Bool := f ≤ 8

/-- Operations of the table (R202). -/
def vecOp (op : Nat) : Bool := decide (1 ≤ op) && decide (op ≤ 0x14)

/-- Operations that take source b. -/
def usesB (op : Nat) : Bool := op == 2 || op == 3 || op == 4 || op == 5 || op == 6 || op == 8 || op == 9

/-- Reductions (R206). -/
def isReduction (op : Nat) : Bool := decide (0x0F ≤ op) && decide (op ≤ 0x12)

/-- Format of source a as it lies in a row. -/
def Vx.aFmt (c : Vx) : Nat := if c.op = 0x0D then 1 else c.fmt

/-- Element bytes of d as it lies in a row. -/
def Vx.dBytes (c : Vx) : Nat := if c.op = 8 then 1 else if c.op = 0x0D then c.par 12 1
  else if c.op = 0x13 || c.op = 0x14 then fmtBytes c.fmt else fmtBytes c.ofmt

/-- Bytes of the narrowest element of a row operand (R199); with no row operand, those of FMT (log entry 28). -/
def Vx.ebytes (c : Vx) : Nat :=
  let xs := (if c.ak = 0 then [fmtBytes c.aFmt] else []) ++ (if usesB c.op && c.bk = 0 then [fmtBytes c.fmt] else [])
    ++ (if c.op = 9 then [1] else []) ++ (if !c.dAcc && !isReduction c.op then [c.dBytes] else [])
  xs.foldl Nat.min (match xs with
    | [] => fmtBytes c.fmt
    | x :: _ => x)

/-- Lanes of a step. -/
def Vx.lanes (c : Vx) : Nat := 512 / c.ebytes

/-- The formats that the op lists (R202). -/
def Vx.fmtOk (c : Vx) : Bool :=
  match c.op with
  | 0x0A => c.fmt ≤ 5
  | 0x0B => c.ak == 1 && !fmtIsFp c.fmt && vecFmt c.fmt && (c.ofmt == 0 || c.ofmt == 7)
  | 0x0D => c.fmt == 1 && (c.par 12 1 == 1 || c.par 12 1 == 2)
  | _ => vecFmt c.fmt && (isReduction c.op || vecFmt c.ofmt)

/-- The kinds of operands that the op takes. -/
def Vx.kindsOk (c : Vx) : Bool :=
  c.ak ≤ 1 && (!usesB c.op || c.bk ≤ 2)
    && (c.op != 0x0A || (c.ak == 0 && c.dAcc))
    && (!isReduction c.op || !c.dAcc) && (c.op != 0x12 || c.bk == 2)
    && ((c.op != 0x13 && c.op != 0x14) || (c.ak == 0 && !c.dAcc))

/-- Row addresses are multiples of 512, a reduction's destination of 4 (R196 code 8). -/
def Vx.rowsOk (c : Vx) : Bool :=
  (c.ak != 0 || c.a % 512 == 0) && (!usesB c.op || c.bk != 0 || c.b % 512 == 0)
    && (c.dAcc || (if isReduction c.op then c.d % 4 == 0 else c.d % 512 == 0))
    && ((c.op != 9 && c.op != 0x0D) || c.par 8 4 % 512 == 0)

/-- The parameters of VMACW, VPOOLH, VDLV and VILV are in range (R196 code 9, R203, R205, R207). -/
def Vx.paramsOk (c : Vx) : Bool :=
  let w := c.par 6 2
  let wOk := decide (1 ≤ w) && decide (w ≤ c.lanes)
  match c.op with
  | 0x0A =>
    let t := c.par 0 1
    decide (1 ≤ t) && decide (t ≤ 8) && decide (1 ≤ c.par 1 1) && decide (c.par 1 1 ≤ 2) && decide (c.par 2 1 ≤ 1)
      && decide (c.par 3 1 ≤ 1) && wOk
      && (List.range t).all (fun i => decide ((signed 8 (c.par (10 + 3 * i) 1)).natAbs ≤ 8))
  | 0x0E =>
    let kw := c.par 0 1
    decide (2 ≤ kw) && decide (kw ≤ 16) && decide (1 ≤ c.par 1 1) && decide (c.par 1 1 ≤ 8) && decide (c.par 2 1 < kw)
      && decide (c.par 3 1 ≤ 2) && decide (1 ≤ c.par 4 1) && decide (c.par 4 1 ≤ 16) && wOk
  | 0x13 | 0x14 => [2, 4, 8, 16, 32, 64, 128, 256].any (fun k => k == c.par 0 2 && decide (k ≤ 512 / fmtBytes c.fmt))
      || (c.par 0 2 == 512 && fmtBytes c.fmt == 1)
  | _ => true

/-- The checks before a vector command (R172, R196, R202). -/
def Vx.check (c : Vx) : Option CoreStop :=
  if !vecOp c.op || !c.fmtOk || !c.kindsOk || !c.rowsOk then some (.window 8)
  else if !c.paramsOk then some (.window 9)
  else if c.round = 3 then some .refused
  else if isReduction c.op && decide (c.d % 512 + (if c.op = 0x12 || (c.op = 0x0F && fmtIsFp c.fmt) then 4 else 8) > 512) then
    some .refused
  else none

/-! ### Operands -/

/-- Lane `l` of accumulator `k`, of the family of FMT (R199). -/
def State.accLane (s : State) (n f k l : Nat) : Lane :=
  let v := (keyGet (s.core n).vacc (k * 512 + l)).getD 0
  if fmtIsFp f then .fp (f32 (toU32 v)) else .int (i32 (toU32 v))

/-- Source lanes of step `k`: `m` lanes of a row operand or an accumulator. -/
def State.operandRow (s : State) (n : Nat) (kind acc addr f m : Nat) (c : Vx) : List Lane :=
  match kind with
  | 0 =>
    let z := fmtBytes f
    let bs := s.ldrRead n addr (m * z)
    (chunks m z bs).map (fun b => laneOf f (leVal b))
  | 1 => (List.range m).map (fun l => s.accLane n c.fmt acc l)
  | _ => List.replicate m (laneOf c.fmt (c.par 0 4 % 256 ^ fmtBytes c.fmt))

/-! ### Results (R201) -/

/-- A floating value written in a format, with one rounding: bits, saturated, NaN. FP32 follows R157. -/
def floatOut (f : FpFmt) (rd : Rnd) (sat : Bool) (x : Fp) : OutElem :=
  if f.eb = 8 && f.mb = 23 then
    (match x with
     | .fin neg m e => ⟨(f.encodeWith rd false neg m e).1, false, false⟩
     | y => ⟨f.encode y, false, y.isNan⟩)
  else
    let r := narrow f rd sat x
    let sat' := match x with
      | .fin neg m e => (f.encodeWith rd sat neg m e).2
      | .inf _ => sat
      | .nan => false
    { r with sat := sat' }

/-- A result in a format (R201, R202). -/
def Lane.toFmt (f : Nat) (rd : Rnd) (sat : Bool) (x : Lane) : OutElem :=
  match fmtFp f, x with
  | some g, .fp y => floatOut g rd sat y
  | some g, .int z => floatOut g .rne sat (.ofInt z)
  | none, .int z =>
    let v := clampInt z (intLo f) (intHi f)
    ⟨toBits (8 * fmtBytes f) v, decide (v ≠ z), false⟩
  | none, .fp y =>
    let v := y.toIntSat (intLo f) (intHi f)
    let exceeds := match y with
      | .nan => false
      | .inf _ => true
      | .fin neg m e =>
        let r : Int := roundTo .rne m e 0
        decide ((if neg then -r else r) ≠ v)
    ⟨toBits (8 * fmtBytes f) v, exceeds, false⟩

/-- A result in an accumulator of the family of FMT (R201). -/
def Lane.toAcc (f : Nat) (rd : Rnd) (x : Lane) : Int × OutElem :=
  if fmtIsFp f then
    let o := floatOut .fp32 rd false x.toFp
    (o.raw, o)
  else
    let o := x.toFmt 8 rd false
    (signed 32 o.raw, o)

/-- Rounding of lane `l` in step `k`: R159 with the lane for the column and the step for the chunk (log entry 28). -/
def Vx.rnd (c : Vx) (seed k l : Nat) : Rnd := if c.round = 0 then .rne else srRnd (srNext (srSeed seed l k))

/-- Write the lanes of step `k` to destination d, at `addr` for a row, with the counts of R201. -/
def State.writeLanes (s : State) (n : Nat) (c : Vx) (seed k addr : Nat) (xs : List Lane) : State :=
  let ls := (List.range xs.length).zip xs
  let (s, os) :=
    if c.dAcc then
      let rs := ls.map (fun x => (x.1, x.2.toAcc c.fmt (c.rnd seed k x.1)))
      let acc := rs.foldl (fun (m : List (Nat × Int)) r => keyPut m (c.accD * 512 + r.1) r.2.1) (s.core n).vacc
      (s.setCore n { s.core n with vacc := acc }, rs.map (·.2.2))
    else
      let f := if c.op = 8 then 1 else c.ofmt
      let rs := ls.map (fun x => x.2.toFmt f (c.rnd seed k x.1) c.sat)
      let bs := rs.flatMap (fun o => leBytes (fmtBytes f) o.raw)
      ((s.ldrWrite n addr bs).offPlan n (planMask c.plan 2) (rowsOf addr bs.length), rs)
  (s.bumpBy (R.CORE_SAT.N n) (os.filter (·.sat)).length).bumpBy (R.CORE_NAN.N n) (os.filter (·.nan)).length

/-! ### Lane operations (R202) -/

/-- A sum, exact. -/
def Lane.add : Lane → Lane → Lane
  | .int x, .int y => .int (x + y)
  | x, y => .fp (x.toFp.add y.toFp)

/-- A difference, exact. -/
def Lane.sub : Lane → Lane → Lane
  | .int x, .int y => .int (x - y)
  | x, y => .fp (x.toFp.add y.toFp.neg)

/-- A product, exact. -/
def Lane.mul : Lane → Lane → Lane
  | .int x, .int y => .int (x * y)
  | x, y => .fp (x.toFp.mul y.toFp)

/-- `x < y`; false with a NaN. -/
def Lane.lt : Lane → Lane → Bool
  | .int x, .int y => decide (x < y)
  | x, y => Fp.lt x.toFp y.toFp

/-- Equal values; false with a NaN. -/
def Lane.eqv : Lane → Lane → Bool
  | .int x, .int y => x == y
  | x, y => Fp.eqv x.toFp y.toFp

/-- A NaN lane. -/
def Lane.isNan : Lane → Bool
  | .int _ => false
  | .fp x => x.isNan

/-- A negative zero. -/
def Lane.negZero : Lane → Bool
  | .fp (.fin true 0 _) => true
  | _ => false

/-- The greater value; NaN if either is NaN; +0 above -0. -/
def Lane.max (x y : Lane) : Lane :=
  if x.isNan || y.isNan then .fp .nan else if x.lt y || (x.eqv y && x.negZero) then y else x

/-- The lesser value; NaN if either is NaN. -/
def Lane.min (x y : Lane) : Lane :=
  if x.isNan || y.isNan then .fp .nan else if y.lt x || (x.eqv y && y.negZero) then y else x

/-- The comparison cc (R202, R245). -/
def Lane.cmp (cc : Nat) (x y : Lane) : Bool :=
  match cc with
  | 0 => y.lt x
  | 1 => y.lt x || x.eqv y
  | 2 => x.eqv y
  | _ => !x.eqv y

/-- A scalar of PARAM in FMT. -/
def Vx.scalar (c : Vx) (i : Nat) : Lane := laneOf c.fmt (c.par i 4 % 256 ^ fmtBytes c.fmt)

/-- The result of a lane for the operations that take one element of each source: a, b and the mask. -/
def Vx.laneOp (c : Vx) (a b : Lane) (m : Nat) : Lane :=
  match c.op with
  | 0x02 => a.add b
  | 0x03 => a.sub b
  | 0x04 => a.mul b
  | 0x05 => a.max b
  | 0x06 => a.min b
  | 0x07 => (a.max (c.scalar 0)).min (c.scalar 4)
  | 0x08 => .int (if Lane.cmp (c.par 8 1) a b then 1 else 0)
  | 0x09 => if m ≠ 0 then a else b
  | 0x0B => match a with
    | .int z => .int (requantRaw (c.par 0 2 + c.par 2 1 % 64 * 65536 + c.par 3 1 * 16777216) z)
    | x => x
  | _ => a

/-! ### VMACW, VPOOLH (R203, R205) -/

/-- Element `p` of a VMACW source row of width `w`: the value, and whether it was padded. -/
def Vx.tapSource (c : Vx) (w : Nat) (xs : List Lane) (p : Int) : Lane × Bool :=
  if 0 ≤ p && p < w then (nth xs p.toNat (.int 0), false)
  else if c.par 3 1 = 0 then (laneOf c.fmt (c.par 4 2 % 256 ^ fmtBytes c.fmt), true)
  else (nth xs (clampInt p 0 (w - 1 : Nat)).toNat (.int 0), true)

/-- A lane of VMACW: the new accumulator, saturated, NaN, and elements padded. -/
def Vx.macLane (c : Vx) (xs : List Lane) (acc : Lane) (l : Nat) : Lane × Bool × Bool × Nat :=
  let w := c.par 6 2
  let es := (List.range (c.par 0 1)).map (fun i =>
    (laneOf c.fmt (c.par (8 + 3 * i) 2 % 256 ^ fmtBytes c.fmt),
      c.tapSource w xs ((l * c.par 1 1 : Nat) + signed 8 (c.par (10 + 3 * i) 1))))
  let pads := (es.filter (fun e => e.2.2)).length
  let start := if c.par 2 1 = 0 then laneOf (if fmtIsFp c.fmt then 6 else 8) 0 else acc
  let v := es.foldl (fun a e => a.add (e.1.mul e.2.1)) start
  let r := v.toAcc c.fmt .rne
  (if fmtIsFp c.fmt then .fp (f32 r.1.toNat) else .int r.1, r.2.sat, r.2.nan, pads)

/-- Exact quotient of a floating value by a count, to more bits than any rounding uses. -/
def Fp.divNat (x : Fp) (d : Nat) : Fp :=
  match x with
  | .fin neg m e =>
    let q := m * 2 ^ 80 / d
    .fin neg (2 * q + (if m * 2 ^ 80 % d = 0 then 0 else 1)) (e - 81)
  | y => y

/-- Integer quotient to nearest, ties away from zero (R205). -/
def divAway (z : Int) (d : Nat) : Int :=
  let q : Int := (2 * z.natAbs + d) / (2 * d)
  if z < 0 then -q else q

/-- A lane of VPOOLH; none where no position is taken and the rule gives no value. -/
def Vx.poolLane (c : Vx) (xs : List Lane) (l : Nat) : Option Lane :=
  let w := c.par 6 2
  let ps := ((List.range (c.par 0 1)).map (fun i => l * c.par 1 1 + i)).filter (fun p => decide (c.par 2 1 ≤ p) && decide (p - c.par 2 1 < w))
  let vs := ps.map (fun p => nth xs (p - c.par 2 1) (.int 0))
  let avg (k : Nat) : Option Lane :=
    let zero : Lane := if fmtIsFp c.fmt then .fp (.fin (!vs.isEmpty) 0 0) else .int 0
    if k = 0 then none
    else some (match vs.foldl Lane.add zero with
      | .int z => .int (divAway z k)
      | .fp x => .fp (x.divNat k))
  match c.par 3 1, vs with
  | 0, [] => none
  | 0, v :: r => some (r.foldl Lane.max v)
  | 1, _ => avg (vs.length * c.par 4 1)
  | _, _ => avg (c.par 0 1 * c.par 4 1)

/-- A lane as an integer, or as FP32 bits. -/
def Lane.raw : Lane → Int
  | .int z => z
  | .fp x => f32Bits x

/-- A lane of VPOOLH: where no position is taken, a free value of the operands (R162, R205). -/
def Vx.pool (c : Vx) (xs : List Lane) (l : Nat) : Lane :=
  (c.poolLane xs l).getD (laneOf (if fmtIsFp c.fmt then 6 else 8)
    (Config.emptyPool ([c.fmt, c.ak] ++ (List.range 8).map (fun i => c.par i 1)) (xs.map Lane.raw) l).toNat)

/-! ### Runs -/

/-- A vector command under way. -/
structure VxRun where
  s : State
  stop : Option CoreStop := none

/-- Continue a run unless it has stopped. -/
def VxRun.andThen (r : VxRun) (f : State → VxRun) : VxRun := if r.stop.isSome then r else f r.s

/-- Read rows through the V port. -/
def State.vread (s : State) (n : Nat) (c : Vx) (rows : List Nat) : VxRun :=
  let (e, s) := s.rowsRead n (planMask c.plan 2) rows
  ⟨s, e⟩

/-- Rows of source a, of source b and of the mask in step `k`. -/
def Vx.sourceRows (c : Vx) (k : Nat) : List Nat :=
  let m := c.lanes
  (if c.ak = 0 then rowsOf (c.a + k * c.sa) (m * fmtBytes c.aFmt) else [])
    ++ (if usesB c.op && c.bk = 0 then rowsOf (c.b + k * c.sb) (m * fmtBytes c.fmt) else [])
    ++ (if c.op = 9 then rowsOf (c.par 8 4 + k * 512) m else [])

/-- One step of an operation that writes lanes (R202-R205); `table` is VLUT's, read at the command's start. -/
def State.vstep (s : State) (n : Nat) (c : Vx) (table : List Byte) (seed k : Nat) : VxRun :=
  let m := c.lanes
  (s.vread n c (c.sourceRows k)).andThen (fun s =>
    let xs := s.operandRow n c.ak c.accA (c.a + k * c.sa) c.aFmt (if c.op = 0x0E && c.ak = 1 then 512 else m) c
    let s := s.bump (R.CORE_VEC_STEPS.N n)
    let d := c.d + k * c.sd
    match c.op with
    | 0x0A =>
      let rs := (List.range m).map (fun l => c.macLane xs (s.accLane n c.fmt c.accD l) l)
      let s := s.bumpBy (R.CORE_AG_PAD.N n) (rs.map (·.2.2.2)).sum
      let s := (s.bumpBy (R.CORE_SAT.N n) (rs.filter (·.2.1)).length).bumpBy (R.CORE_NAN.N n) (rs.filter (·.2.2.1)).length
      let acc := ((List.range m).zip rs).foldl (fun (a : List (Nat × Int)) r =>
        keyPut a (c.accD * 512 + r.1) (match r.2.1 with
          | .int z => z
          | .fp x => f32Bits x)) (s.core n).vacc
      ⟨s.setCore n { s.core n with vacc := acc }, none⟩
    | 0x0D =>
      let z := c.par 12 1
      let es := xs.map (fun x => match x with
        | .int v => sliceBytes table (v.toNat * z) z
        | .fp _ => [])
      if c.dAcc then ⟨s.writeLanes n c seed k d (es.map (fun e => .int (leVal e))), none⟩
      else
        let bs := es.flatten
        ⟨(s.ldrWrite n d bs).offPlan n (planMask c.plan 2) (rowsOf d bs.length), none⟩
    | 0x0E =>
      ⟨s.writeLanes n c seed k d ((List.range m).map (c.pool xs)), none⟩
    | _ =>
      let ys := if usesB c.op then s.operandRow n c.bk c.accB (c.b + k * c.sb) c.fmt m c else List.replicate m (.int 0)
      let ms := if c.op = 9 then (s.ldrRead n (c.par 8 4 + k * 512) m).map (·.toNat) else List.replicate m 0
      ⟨s.writeLanes n c seed k d ((xs.zip (ys.zip ms)).map (fun x => c.laneOp x.1 x.2.1 x.2.2)), none⟩)

/-- The elements that VDLV and VILV write, in the format they are read in, with their NaNs canonical and counted (R201). -/
def State.turnOut (s : State) (n : Nat) (c : Vx) (es : List (List Byte)) : List Byte × State :=
  let os := es.map (fun b => (laneOf c.fmt (leVal b)).toFmt c.fmt .rne false)
  (os.flatMap (fun o => leBytes (fmtBytes c.fmt) o.raw), s.bumpBy (R.CORE_NAN.N n) (os.filter (·.nan)).length)

/-- One step of VDLV or VILV (R207): rows as they lie in pixel and in planar layout. -/
def State.vturn (s : State) (n : Nat) (c : Vx) (k : Nat) : VxRun :=
  let ch := c.par 0 2
  let e := fmtBytes c.fmt
  let m := 512 / e
  let back := c.op == 0x14
  -- Planar row `j` of step `k`, and the first of the C consecutive pixel rows.
  let planar (j : Nat) : Nat := if back then c.a + (k * ch + j) * c.sa else c.d + (k * ch + j) * c.sd
  let pixel := if back then c.d + k * c.sd else c.a + k * c.sa
  let rows := if back then (List.range ch).map (fun j => planar j / 512 % 4096) else rowsOf pixel (ch * 512)
  (s.vread n c rows).andThen (fun s =>
    let s := s.bump (R.CORE_VEC_STEPS.N n)
    if back then
      let src := (List.range ch).map (fun j => chunks m e (s.ldrRead n (planar j) 512))
      let (bs, s) := s.turnOut n c ((List.range m).flatMap (fun p => src.map (fun r => nth r p [])))
      ⟨(s.ldrWrite n pixel bs).offPlan n (planMask c.plan 2) (rowsOf pixel (ch * 512)), none⟩
    else
      let px := chunks (m * ch) e (s.ldrRead n pixel (ch * 512))
      let s := (List.range ch).foldl (fun (s : State) j =>
        let (bs, s) := s.turnOut n c ((List.range m).map (fun p => nth px (p * ch + j) []))
        s.ldrWrite n (planar j) bs) s
      ⟨s.offPlan n (planMask c.plan 2) ((List.range ch).map (fun j => planar j / 512 % 4096)), none⟩)

/-- The first greatest (or least) element that is no NaN, with its index. -/
def extreme (great : Bool) (xs : List (Nat × Lane)) : Option (Nat × Lane) :=
  xs.foldl (fun (b : Option (Nat × Lane)) x =>
    if x.2.isNan then b
    else match b with
      | none => some x
      | some y => if (if great then y.2.lt x.2 else x.2.lt y.2) then some x else some y) none

/-- A reduction (R206): its result bytes, and whether a NaN is written. A floating sum rounds once, under ROUND (R201). -/
def Vx.reduce (c : Vx) (rd : Rnd) (xs : List Lane) : List Byte × Bool :=
  let ixs := (List.range xs.length).zip xs
  let value (x : Lane) : List Byte := match x with
    | .int z => leBytes 4 (toBits 32 z)
    | .fp y => leBytes 4 (f32Bits y)
  match c.op with
  | 0x0F =>
    if fmtIsFp c.fmt then
      let o := floatOut .fp32 rd false (xs.foldl (fun a x => a.add x.toFp) (.fin true 0 0))
      (leBytes 4 o.raw, o.nan)
    else
      let z : Int := (xs.map (fun x => match x with
        | .int z => z
        | .fp _ => 0)).sum
      (leBytes 8 (toBits 64 z), false)
  | 0x12 => (leBytes 4 (xs.filter (fun x => Lane.cmp 1 x (c.scalar 0))).length, false)
  | op => match extreme (op == 0x10) ixs with
    | some (i, x) => (value x ++ leBytes 4 i, false)
    | none => (leBytes 4 0x7FC00000 ++ leBytes 4 0xFFFFFFFF, true)

/-- All steps of a reduction, and its narrow write to d (R178, R206). -/
def State.vreduce (s : State) (n : Nat) (c : Vx) (seed : Nat) : VxRun :=
  let m := c.lanes
  let (r, xs) := (List.range c.count).foldl (fun (a : VxRun × List (List Lane)) k =>
    let r := a.1.andThen (fun s => s.vread n c (c.sourceRows k))
    let r := if r.stop.isSome then r else { r with s := r.s.bump (R.CORE_VEC_STEPS.N n) }
    (r, r.s.operandRow n c.ak c.accA (c.a + k * c.sa) c.fmt m c :: a.2)) (⟨s, none⟩, [])
  r.andThen (fun s =>
    let (bs, nan) := c.reduce (c.rnd seed 0 0) xs.reverse.flatten
    let row := c.d / 512 % 4096
    ((s.bump (R.CORE_LDR_NARROW.N n)).vread n c [row]).andThen (fun s =>
      let s := s.ldrWrite n c.d bs
      ⟨if nan then s.bump (R.CORE_NAN.N n) else s, none⟩))

/-- A vector command as a whole. -/
def State.vector (s : State) (n : Nat) (c : Vx) : Option CoreStop × State :=
  match c.check with
  | some e => (some e, s)
  | none =>
    let r : VxRun := if c.op = 0x0D then s.vread n c [c.par 8 4 / 512 % 4096] else ⟨s, none⟩
    let r := r.andThen (fun s =>
      -- SR_FREE takes its seed from noise at each step; a vector command carries no seed of its own.
      let (v, s') := s.draw
      let table := if c.op = 0x0D then s.ldrRead n (c.par 8 4) (256 * c.par 12 1) else []
      if isReduction c.op then (if c.round = 2 then s'.vreduce n c (v.toNat % 4294967296)
        else s.vreduce n c Config.vectorSeed.toNat)
      else (List.range c.count).foldl (fun (r : VxRun) k => r.andThen (fun s =>
        if c.op = 0x13 || c.op = 0x14 then s.vturn n c k
        else
          let (v, s') := s.draw
          if c.round = 2 then s'.vstep n c table (v.toNat % 4294967296) k
          else s.vstep n c table Config.vectorSeed.toNat k)) ⟨s, none⟩)
    (r.stop, r.s)

/-- A VCMD record at the head of the list of a core issues and runs, if its OP is `op` or is none of the table's. -/
def State.vcmd (s : State) (n op : Nat) : State :=
  match s.headCommand n 2 .vector with
  | none => s
  | some (l, r) =>
    let o := fieldAt r 8 1
    if o == op || !vecOp o then s.fetched n l r (fun s =>
      let c := Vx.decode r (s.recordAt l 1) (if fieldAt r 3 1 ≥ 2 then s.recordAt l 2 else [])
      State.endCommand n ((s.issueCommand n l r .vector).vector n c))
    else s

/-- VMOV (R202). -/
def execVmov (core : Fin 16) (s : State) : Host.Outcome State Fault Refusal := .next (s.vcmd core.val 0x01)

/-- VADD (R202). -/
def execVadd (core : Fin 16) (s : State) : Host.Outcome State Fault Refusal := .next (s.vcmd core.val 0x02)

/-- VSUB (R202). -/
def execVsub (core : Fin 16) (s : State) : Host.Outcome State Fault Refusal := .next (s.vcmd core.val 0x03)

/-- VMUL (R202). -/
def execVmul (core : Fin 16) (s : State) : Host.Outcome State Fault Refusal := .next (s.vcmd core.val 0x04)

/-- VMAX (R202). -/
def execVmax (core : Fin 16) (s : State) : Host.Outcome State Fault Refusal := .next (s.vcmd core.val 0x05)

/-- VMIN (R202). -/
def execVmin (core : Fin 16) (s : State) : Host.Outcome State Fault Refusal := .next (s.vcmd core.val 0x06)

/-- VCLAMP (R202). -/
def execVclamp (core : Fin 16) (s : State) : Host.Outcome State Fault Refusal := .next (s.vcmd core.val 0x07)

/-- VCMP (R202). -/
def execVcmp (core : Fin 16) (s : State) : Host.Outcome State Fault Refusal := .next (s.vcmd core.val 0x08)

/-- VSEL (R202). -/
def execVsel (core : Fin 16) (s : State) : Host.Outcome State Fault Refusal := .next (s.vcmd core.val 0x09)

/-- VMACW (R203). -/
def execVmacw (core : Fin 16) (s : State) : Host.Outcome State Fault Refusal := .next (s.vcmd core.val 0x0A)

/-- VREQ (R202). -/
def execVreq (core : Fin 16) (s : State) : Host.Outcome State Fault Refusal := .next (s.vcmd core.val 0x0B)

/-- VCVT (R202). -/
def execVcvt (core : Fin 16) (s : State) : Host.Outcome State Fault Refusal := .next (s.vcmd core.val 0x0C)

/-- VLUT (R202). -/
def execVlut (core : Fin 16) (s : State) : Host.Outcome State Fault Refusal := .next (s.vcmd core.val 0x0D)

/-- VPOOLH (R205). -/
def execVpoolh (core : Fin 16) (s : State) : Host.Outcome State Fault Refusal := .next (s.vcmd core.val 0x0E)

/-- VRSUM (R206). -/
def execVrsum (core : Fin 16) (s : State) : Host.Outcome State Fault Refusal := .next (s.vcmd core.val 0x0F)

/-- VRMAX (R206). -/
def execVrmax (core : Fin 16) (s : State) : Host.Outcome State Fault Refusal := .next (s.vcmd core.val 0x10)

/-- VRMIN (R206). -/
def execVrmin (core : Fin 16) (s : State) : Host.Outcome State Fault Refusal := .next (s.vcmd core.val 0x11)

/-- VCNT (R206). -/
def execVcnt (core : Fin 16) (s : State) : Host.Outcome State Fault Refusal := .next (s.vcmd core.val 0x12)

/-- VDLV (R207). -/
def execVdlv (core : Fin 16) (s : State) : Host.Outcome State Fault Refusal := .next (s.vcmd core.val 0x13)

/-- VILV (R207). -/
def execVilv (core : Fin 16) (s : State) : Host.Outcome State Fault Refusal := .next (s.vcmd core.val 0x14)

end Sys2Proof.Machine
end

