-- ==== Sys2Proof/Machine/Dispatch.lean ====
section
/-! DEFINITION. Machine/Dispatch.lean: one arm per command. -/

namespace Sys2Proof.Machine

def exec (i : Instr) (s : State) : Host.Outcome State Fault Refusal :=
  match i with
  | .registerWrite off len value => Sys2Proof.Machine.execRegisterWrite off len value s
  | .w1cClear off value => Sys2Proof.Machine.execW1cClear off value s
  | .loReadLatch off len => Sys2Proof.Machine.execLoReadLatch off len s
  | .counterClear off => Sys2Proof.Machine.execCounterClear off s
  | .accessErrClear => Sys2Proof.Machine.execAccessErrClear s
  | .pairMemberWrite off value => Sys2Proof.Machine.execPairMemberWrite off value s
  | .pairLatch off value => Sys2Proof.Machine.execPairLatch off value s
  | .wposExtrapolate => Sys2Proof.Machine.execWposExtrapolate s
  | .encoderRead ch latch ready word err chk tail => Sys2Proof.Machine.execEncoderRead ch latch ready word err chk tail s
  | .posLost => Sys2Proof.Machine.execPosLost s
  | .posTupleSend => Sys2Proof.Machine.execPosTupleSend s
  | .takeover => Sys2Proof.Machine.execTakeover s
  | .posSnapTake => Sys2Proof.Machine.execPosSnapTake s
  | .nop => Sys2Proof.Machine.execNop s
  | .partClose => Sys2Proof.Machine.execPartClose s
  | .partOpen => Sys2Proof.Machine.execPartOpen s
  | .lineGate => Sys2Proof.Machine.execLineGate s
  | .stripCut => Sys2Proof.Machine.execStripCut s
  | .roiApply => Sys2Proof.Machine.execRoiApply s
  | .decision => Sys2Proof.Machine.execDecision s
  | .ejectPass => Sys2Proof.Machine.execEjectPass s
  | .pulse => Sys2Proof.Machine.execPulse s
  | .selftestWin => Sys2Proof.Machine.execSelftestWin s
  | .signal => Sys2Proof.Machine.execSignal s
  | .loftMark => Sys2Proof.Machine.execLoftMark s
  | .edgeRecompute => Sys2Proof.Machine.execEdgeRecompute s
  | .edgeReportTimeout => Sys2Proof.Machine.execEdgeReportTimeout s
  | .psqTblRead index => Sys2Proof.Machine.execPsqTblRead index s
  | .partWinRead index => Sys2Proof.Machine.execPartWinRead index s
  | .edgeNew seq channel tag on off => Sys2Proof.Machine.execEdgeNew seq channel tag on off s
  | .edgeCorr seq channel tag on off => Sys2Proof.Machine.execEdgeCorr seq channel tag on off s
  | .edgeHold seq channel tag => Sys2Proof.Machine.execEdgeHold seq channel tag s
  | .edgeCancel seq channel tag => Sys2Proof.Machine.execEdgeCancel seq channel tag s
  | .heartbeat seq beat measured => Sys2Proof.Machine.execHeartbeat seq beat measured s
  | .outCfg seq channel mode safe openEn ovlUs => Sys2Proof.Machine.execOutCfg seq channel mode safe openEn ovlUs s
  | .outSet seq level => Sys2Proof.Machine.execOutSet seq level s
  | .lsSet seq run => Sys2Proof.Machine.execLsSet seq run s
  | .resume seq => Sys2Proof.Machine.execResume seq s
  | .inCfg seq input filtUs func => Sys2Proof.Machine.execInCfg seq input filtUs func s
  | .downlinkBadFrame => Sys2Proof.Machine.execDownlinkBadFrame s
  | .edgeDone seq channel result tag on off => Sys2Proof.Machine.execEdgeDone seq channel result tag on off s
  | .reject seq reason tag frameSeq missing => Sys2Proof.Machine.execReject seq reason tag frameSeq missing s
  | .status seq fstate inputs outFlags supply temp lsA lsB queued hbSeq => Sys2Proof.Machine.execStatus seq fstate inputs outFlags supply temp lsA lsB queued hbSeq s
  | .inputEdge seq input level dtime => Sys2Proof.Machine.execInputEdge seq input level dtime s
  | .uplinkCrcError => Sys2Proof.Machine.execUplinkCrcError s
  | .syncEdgeSend => Sys2Proof.Machine.execSyncEdgeSend s
  | .edgeFire => Sys2Proof.Machine.execEdgeFire s
  | .heartbeatLoss => Sys2Proof.Machine.execHeartbeatLoss s
  | .uplinkLost => Sys2Proof.Machine.execUplinkLost s
  | .overload ch => Sys2Proof.Machine.execOverload ch s
  | .overtemp ch hot => Sys2Proof.Machine.execOvertemp ch hot s
  | .openOff ch here => Sys2Proof.Machine.execOpenOff ch here s
  | .openOn ch => Sys2Proof.Machine.execOpenOn ch s
  | .supplyLow => Sys2Proof.Machine.execSupplyLow s
  | .lsFault => Sys2Proof.Machine.execLsFault s
  | .inputConfirm input level first => Sys2Proof.Machine.execInputConfirm input level first s
  | .lsCauseClear mask => Sys2Proof.Machine.execLsCauseClear mask s
  | .fldStop => Sys2Proof.Machine.execFldStop s
  | .fldResume => Sys2Proof.Machine.execFldResume s
  | .fldOutSetWrite level => Sys2Proof.Machine.execFldOutSetWrite level s
  | .acJudge => Sys2Proof.Machine.execAcJudge s
  | .supFault inputs => Sys2Proof.Machine.execSupFault inputs s
  | .featureFrame input start wpos words driven => Sys2Proof.Machine.execFeatureFrame input start wpos words driven s
  | .laneSignalDetect lane => Sys2Proof.Machine.execLaneSignalDetect lane s
  | .laneSignalLoss lane => Sys2Proof.Machine.execLaneSignalLoss lane s
  | .cdrLock lane => Sys2Proof.Machine.execCdrLock lane s
  | .cdrLockLoss lane => Sys2Proof.Machine.execCdrLockLoss lane s
  | .acquireGroup lane received wrong => Sys2Proof.Machine.execAcquireGroup lane received wrong s
  | .alignedGroup lane group drained => Sys2Proof.Machine.execAlignedGroup lane group drained s
  | .eyeScanStart lane phase voff dwell => Sys2Proof.Machine.execEyeScanStart lane phase voff dwell s
  | .eyeScanAbort lane => Sys2Proof.Machine.execEyeScanAbort lane s
  | .eyeScanDone lane mismatches => Sys2Proof.Machine.execEyeScanDone lane mismatches s
  | .rediscover cam => Sys2Proof.Machine.execRediscover cam s
  | .discoverLanesAligned cam => Sys2Proof.Machine.execDiscoverLanesAligned cam s
  | .discoverAlignTimeout cam => Sys2Proof.Machine.execDiscoverAlignTimeout cam s
  | .controlReply cam ok value conn => Sys2Proof.Machine.execControlReply cam ok value conn s
  | .controlTimeout cam => Sys2Proof.Machine.execControlTimeout cam s
  | .streamPacket lane tag crcOk items => Sys2Proof.Machine.execStreamPacket lane tag crcOk items s
  | .slotDeadline cam => Sys2Proof.Machine.execSlotDeadline cam s
  | .rowBuild cam => Sys2Proof.Machine.execRowBuild cam s
  | .inputDigestFinal part => Sys2Proof.Machine.execInputDigestFinal part s
  | .mcmd core => Sys2Proof.Machine.execMcmd core s
  | .vmov core => Sys2Proof.Machine.execVmov core s
  | .vadd core => Sys2Proof.Machine.execVadd core s
  | .vsub core => Sys2Proof.Machine.execVsub core s
  | .vmul core => Sys2Proof.Machine.execVmul core s
  | .vmax core => Sys2Proof.Machine.execVmax core s
  | .vmin core => Sys2Proof.Machine.execVmin core s
  | .vclamp core => Sys2Proof.Machine.execVclamp core s
  | .vcmp core => Sys2Proof.Machine.execVcmp core s
  | .vsel core => Sys2Proof.Machine.execVsel core s
  | .vmacw core => Sys2Proof.Machine.execVmacw core s
  | .vreq core => Sys2Proof.Machine.execVreq core s
  | .vcvt core => Sys2Proof.Machine.execVcvt core s
  | .vlut core => Sys2Proof.Machine.execVlut core s
  | .vpoolh core => Sys2Proof.Machine.execVpoolh core s
  | .vrsum core => Sys2Proof.Machine.execVrsum core s
  | .vrmax core => Sys2Proof.Machine.execVrmax core s
  | .vrmin core => Sys2Proof.Machine.execVrmin core s
  | .vcnt core => Sys2Proof.Machine.execVcnt core s
  | .vdlv core => Sys2Proof.Machine.execVdlv core s
  | .vilv core => Sys2Proof.Machine.execVilv core s
  | .xferToLarder core => Sys2Proof.Machine.execXferToLarder core s
  | .xferFromLarder core => Sys2Proof.Machine.execXferFromLarder core s
  | .commandComplete core u => Sys2Proof.Machine.execCommandComplete core u s
  | .maxdurExpire core u => Sys2Proof.Machine.execMaxdurExpire core u s
  | .waitRecord ctx => Sys2Proof.Machine.execWaitRecord ctx s
  | .signalRecord ctx => Sys2Proof.Machine.execSignalRecord ctx s
  | .launch ctx => Sys2Proof.Machine.execLaunch ctx s
  | .threadStart e c => Sys2Proof.Machine.execThreadStart e c s
  | .idleFor core => Sys2Proof.Machine.execIdleFor core s
  | .load core => Sys2Proof.Machine.execLoad core s
  | .result part => Sys2Proof.Machine.execResult part s
  | .endRecord ctx => Sys2Proof.Machine.execEndRecord ctx s
  | .nopRecord ctx => Sys2Proof.Machine.execNopRecord ctx s
  | .add e c => Sys2Proof.Machine.execAdd e c s
  | .sub e c => Sys2Proof.Machine.execSub e c s
  | .and e c => Sys2Proof.Machine.execAnd e c s
  | .or e c => Sys2Proof.Machine.execOr e c s
  | .xor e c => Sys2Proof.Machine.execXor e c s
  | .shl e c => Sys2Proof.Machine.execShl e c s
  | .shr e c => Sys2Proof.Machine.execShr e c s
  | .sar e c => Sys2Proof.Machine.execSar e c s
  | .slt e c => Sys2Proof.Machine.execSlt e c s
  | .sltu e c => Sys2Proof.Machine.execSltu e c s
  | .min e c => Sys2Proof.Machine.execMin e c s
  | .max e c => Sys2Proof.Machine.execMax e c s
  | .clz e c => Sys2Proof.Machine.execClz e c s
  | .popc e c => Sys2Proof.Machine.execPopc e c s
  | .mul e c => Sys2Proof.Machine.execMul e c s
  | .mulhu e c => Sys2Proof.Machine.execMulhu e c s
  | .divu e c => Sys2Proof.Machine.execDivu e c s
  | .fadd e c => Sys2Proof.Machine.execFadd e c s
  | .fsub e c => Sys2Proof.Machine.execFsub e c s
  | .fmul e c => Sys2Proof.Machine.execFmul e c s
  | .fmin e c => Sys2Proof.Machine.execFmin e c s
  | .fmax e c => Sys2Proof.Machine.execFmax e c s
  | .flt e c => Sys2Proof.Machine.execFlt e c s
  | .fcvti e c => Sys2Proof.Machine.execFcvti e c s
  | .fcvtf e c => Sys2Proof.Machine.execFcvtf e c s
  | .addi e c => Sys2Proof.Machine.execAddi e c s
  | .andi e c => Sys2Proof.Machine.execAndi e c s
  | .ori e c => Sys2Proof.Machine.execOri e c s
  | .xori e c => Sys2Proof.Machine.execXori e c s
  | .shi e c => Sys2Proof.Machine.execShi e c s
  | .lui e c => Sys2Proof.Machine.execLui e c s
  | .slti e c => Sys2Proof.Machine.execSlti e c s
  | .ld8 e c => Sys2Proof.Machine.execLd8 e c s
  | .ld16 e c => Sys2Proof.Machine.execLd16 e c s
  | .ld32 e c => Sys2Proof.Machine.execLd32 e c s
  | .ld64 e c => Sys2Proof.Machine.execLd64 e c s
  | .st8 e c => Sys2Proof.Machine.execSt8 e c s
  | .st16 e c => Sys2Proof.Machine.execSt16 e c s
  | .st32 e c => Sys2Proof.Machine.execSt32 e c s
  | .st64 e c => Sys2Proof.Machine.execSt64 e c s
  | .aadd e c => Sys2Proof.Machine.execAadd e c s
  | .aaddf e c => Sys2Proof.Machine.execAaddf e c s
  | .amin e c => Sys2Proof.Machine.execAmin e c s
  | .amax e c => Sys2Proof.Machine.execAmax e c s
  | .axchg e c => Sys2Proof.Machine.execAxchg e c s
  | .acas e c => Sys2Proof.Machine.execAcas e c s
  | .beq e c => Sys2Proof.Machine.execBeq e c s
  | .bne e c => Sys2Proof.Machine.execBne e c s
  | .blt e c => Sys2Proof.Machine.execBlt e c s
  | .bge e c => Sys2Proof.Machine.execBge e c s
  | .bltu e c => Sys2Proof.Machine.execBltu e c s
  | .bgeu e c => Sys2Proof.Machine.execBgeu e c s
  | .jal e c => Sys2Proof.Machine.execJal e c s
  | .jr e c => Sys2Proof.Machine.execJr e c s
  | .hkey e c => Sys2Proof.Machine.execHkey e c s
  | .hlook e c => Sys2Proof.Machine.execHlook e c s
  | .hseen e c => Sys2Proof.Machine.execHseen e c s
  | .hins e c => Sys2Proof.Machine.execHins e c s
  | .rget e c => Sys2Proof.Machine.execRget e c s
  | .swait e c => Sys2Proof.Machine.execSwait e c s
  | .ssig e c => Sys2Proof.Machine.execSsig e c s
  | .fence e c => Sys2Proof.Machine.execFence e c s
  | .rdt e c => Sys2Proof.Machine.execRdt e c s
  | .exit e c => Sys2Proof.Machine.execExit e c s
  | .flockMemComplete e c k => Sys2Proof.Machine.execFlockMemComplete e c k s
  | .remoteTimeout e c k => Sys2Proof.Machine.execRemoteTimeout e c k s
  | .faultRelease e => Sys2Proof.Machine.execFaultRelease e s
  | .pageRetire => Sys2Proof.Machine.execPageRetire s
  | .celRetRead index => Sys2Proof.Machine.execCelRetRead index s
  | .sliceEnd part => Sys2Proof.Machine.execSliceEnd part s
  | .sliceYield part => Sys2Proof.Machine.execSliceYield part s
  | .partitionSwitch part => Sys2Proof.Machine.execPartitionSwitch part s
  | .sliceBegin part => Sys2Proof.Machine.execSliceBegin part s
  | .holdExpire => Sys2Proof.Machine.execHoldExpire s
  | .waitTimeout so => Sys2Proof.Machine.execWaitTimeout so s
  | .soSelect index => Sys2Proof.Machine.execSoSelect index s
  | .soRestage word => Sys2Proof.Machine.execSoRestage word s
  | .ringEnable ring via fields => Sys2Proof.Machine.execRingEnable ring via fields s
  | .ringDisable ring via fields => Sys2Proof.Machine.execRingDisable ring via fields s
  | .doorbell ring value => Sys2Proof.Machine.execDoorbell ring value s
  | .descriptorStart ring => Sys2Proof.Machine.execDescriptorStart ring s
  | .nopOpcode ring index => Sys2Proof.Machine.execNopOpcode ring index s
  | .regRead ring index => Sys2Proof.Machine.execRegRead ring index s
  | .regWrite ring index => Sys2Proof.Machine.execRegWrite ring index s
  | .memRead ring index => Sys2Proof.Machine.execMemRead ring index s
  | .memWrite ring index => Sys2Proof.Machine.execMemWrite ring index s
  | .imageLoadProgram ring index => Sys2Proof.Machine.execImageLoadProgram ring index s
  | .imageLoadWeights ring index => Sys2Proof.Machine.execImageLoadWeights ring index s
  | .imageLoadReference ring index cost => Sys2Proof.Machine.execImageLoadReference ring index cost s
  | .seqWrite ring index => Sys2Proof.Machine.execSeqWrite ring index s
  | .lpipeTable ring index => Sys2Proof.Machine.execLpipeTable ring index s
  | .setLoadRaw ring index => Sys2Proof.Machine.execSetLoadRaw ring index s
  | .setLoadEntries ring index => Sys2Proof.Machine.execSetLoadEntries ring index s
  | .setLoadClear ring index => Sys2Proof.Machine.execSetLoadClear ring index s
  | .camRegRead ring index => Sys2Proof.Machine.execCamRegRead ring index s
  | .camRegWrite ring index => Sys2Proof.Machine.execCamRegWrite ring index s
  | .jobStart ring index => Sys2Proof.Machine.execJobStart ring index s
  | .jobStop ring index => Sys2Proof.Machine.execJobStop ring index s
  | .commit ring index => Sys2Proof.Machine.execCommit ring index s
  | .commitCheckDone => Sys2Proof.Machine.execCommitCheckDone s
  | .commitApply => Sys2Proof.Machine.execCommitApply s
  | .discard ring index => Sys2Proof.Machine.execDiscard ring index s
  | .soWait ring index => Sys2Proof.Machine.execSoWait ring index s
  | .soSignal ring index => Sys2Proof.Machine.execSoSignal ring index s
  | .netSet ring index => Sys2Proof.Machine.execNetSet ring index s
  | .allowLoad ring index => Sys2Proof.Machine.execAllowLoad ring index s
  | .attest ring index => Sys2Proof.Machine.execAttest ring index s
  | .fwPush ring index => Sys2Proof.Machine.execFwPush ring index s
  | .irqHoldoffEnd ring => Sys2Proof.Machine.execIrqHoldoffEnd ring s
  | .functionLevelReset => Sys2Proof.Machine.execFunctionLevelReset s
  | .hostReadTimeout ring index => Sys2Proof.Machine.execHostReadTimeout ring index s
  | .sessionOpen port key => Sys2Proof.Machine.execSessionOpen port key s
  | .sessionClose session => Sys2Proof.Machine.execSessionClose session s
  | .sessionTimeout session => Sys2Proof.Machine.execSessionTimeout session s
  | .keepaliveSend session => Sys2Proof.Machine.execKeepaliveSend session s
  | .submit session ring index payload => Sys2Proof.Machine.execSubmit session ring index payload s
  | .ack session ring cons => Sys2Proof.Machine.execAck session ring cons s
  | .keepalive session => Sys2Proof.Machine.execKeepalive session s
  | .sheepdogCheckDone => Sys2Proof.Machine.execSheepdogCheckDone s
  | .lockstepMismatch => Sys2Proof.Machine.execLockstepMismatch s
  | .sdgProofArm lane mode => Sys2Proof.Machine.execSdgProofArm lane mode s
  | .alarmClear => Sys2Proof.Machine.execAlarmClear s
  | .larderMarch core bank mismatch => Sys2Proof.Machine.execLarderMarch core bank mismatch s
  | .arrayKav core pass => Sys2Proof.Machine.execArrayKav core pass s
  | .pantryTag die group mismatch => Sys2Proof.Machine.execPantryTag die group mismatch s
  | .lpKal cam pass => Sys2Proof.Machine.execLpKal cam pass s
  | .coverageIntervalEnd => Sys2Proof.Machine.execCoverageIntervalEnd s
  | .inputRunStart => Sys2Proof.Machine.execInputRunStart s
  | .sampleDecodeStart => Sys2Proof.Machine.execSampleDecodeStart s
  | .sampleDecodeDone engine cycles => Sys2Proof.Machine.execSampleDecodeDone engine cycles s
  | .decodeBudgetExpire engine written => Sys2Proof.Machine.execDecodeBudgetExpire engine written s
  | .publicationServe => Sys2Proof.Machine.execPublicationServe s
  | .helloSend port => Sys2Proof.Machine.execHelloSend port s
  | .hello port id peerPort serial members units founder => Sys2Proof.Machine.execHello port id peerPort serial members units founder s
  | .linkstate h links => Sys2Proof.Machine.execLinkstate h links s
  | .promote h epoch changes => Sys2Proof.Machine.execPromote h epoch changes s
  | .posTuple h t => Sys2Proof.Machine.execPosTuple h t s
  | .tsyncSend sub => Sys2Proof.Machine.execTsyncSend sub s
  | .tsyncReq h t1 sub2 sub3 => Sys2Proof.Machine.execTsyncReq h t1 sub2 sub3 s
  | .tsyncResp h t2 t3 sub => Sys2Proof.Machine.execTsyncResp h t2 t3 sub s
  | .tsyncTimeout => Sys2Proof.Machine.execTsyncTimeout s
  | .setReq h op set key node => Sys2Proof.Machine.execSetReq h op set key node s
  | .setResp h value stale => Sys2Proof.Machine.execSetResp h value stale s
  | .repl h set key bucket entry st node => Sys2Proof.Machine.execRepl h set key bucket entry st node s
  | .replAck h => Sys2Proof.Machine.execReplAck h s
  | .rgetReq h addr => Sys2Proof.Machine.execRgetReq h addr s
  | .rgetResp h data => Sys2Proof.Machine.execRgetResp h data s
  | .halo h entry strip off total bytes => Sys2Proof.Machine.execHalo h entry strip off total bytes s
  | .ackSend port => Sys2Proof.Machine.execAckSend port s
  | .ackSet port lseq => Sys2Proof.Machine.execAckSet port lseq s
  | .nak port lseq => Sys2Proof.Machine.execNak port lseq s
  | .cred port vc part units => Sys2Proof.Machine.execCred port vc part units s
  | .packetError received => Sys2Proof.Machine.execPacketError received s
  | .memberLost m synced => Sys2Proof.Machine.execMemberLost m synced s
  | .clockSourceLoss => Sys2Proof.Machine.execClockSourceLoss s
  | .clockSwitch => Sys2Proof.Machine.execClockSwitch s
  | .loopRelock => Sys2Proof.Machine.execLoopRelock s
  | .clkSwitchRequest rec port => Sys2Proof.Machine.execClkSwitchRequest rec port s
  | .clockLostTimeout => Sys2Proof.Machine.execClockLostTimeout s
  | .dtSuspectClear => Sys2Proof.Machine.execDtSuspectClear s
  | .xtalReady mv => Sys2Proof.Machine.execXtalReady mv s
  | .governorTick estimate mean predicted => Sys2Proof.Machine.execGovernorTick estimate mean predicted s
  | .vrAlert status latched => Sys2Proof.Machine.execVrAlert status latched s
  | .vrAlertDeassert => Sys2Proof.Machine.execVrAlertDeassert s
  | .thermalSample temps => Sys2Proof.Machine.execThermalSample temps s
  | .thermalTrip sensor temp => Sys2Proof.Machine.execThermalTrip sensor temp s
  | .quadSleep quad => Sys2Proof.Machine.execQuadSleep quad s
  | .quadWake quad => Sys2Proof.Machine.execQuadWake quad s
  | .quadDeepEnter quad => Sys2Proof.Machine.execQuadDeepEnter quad s
  | .ptpSync port domain source seq twoStep origin corr logInterval => Sys2Proof.Machine.execPtpSync port domain source seq twoStep origin corr logInterval s
  | .ptpFollowUp port domain source seq origin corr => Sys2Proof.Machine.execPtpFollowUp port domain source seq origin corr s
  | .ptpDelayResp port domain source seq receipt corr => Sys2Proof.Machine.execPtpDelayResp port domain source seq receipt corr s
  | .ptpAnnounce port domain source prio1 cls accuracy variance prio2 gm steps utc logInterval => Sys2Proof.Machine.execPtpAnnounce port domain source prio1 cls accuracy variance prio2 gm steps utc logInterval s
  | .ptpTxComplete port msgType seq => Sys2Proof.Machine.execPtpTxComplete port msgType seq s
  | .announceTimeout => Sys2Proof.Machine.execAnnounceTimeout s
  | .txqStale => Sys2Proof.Machine.execTxqStale s
  | .ntimeExtend => Sys2Proof.Machine.execNtimeExtend s
  | .ntmSnapTake => Sys2Proof.Machine.execNtmSnapTake s
  | .ntmSnapExtend => Sys2Proof.Machine.execNtmSnapExtend s
  | .tpoFire n => Sys2Proof.Machine.execTpoFire n s
  | .tpoPulseEnd n => Sys2Proof.Machine.execTpoPulseEnd n s
  | .loftUpdate => Sys2Proof.Machine.execLoftUpdate s
  | .loftCurWrite record => Sys2Proof.Machine.execLoftCurWrite record s
  | .loftClearOne record => Sys2Proof.Machine.execLoftClearOne record s
  | .loftClearAll => Sys2Proof.Machine.execLoftClearAll s
  | .loftClearDrop => Sys2Proof.Machine.execLoftClearDrop s
  | .powerOn => Sys2Proof.Machine.execPowerOn s
  | .supplyDrop => Sys2Proof.Machine.execSupplyDrop s
  | .moduleReset readable katFail => Sys2Proof.Machine.execModuleReset readable katFail s
  | .bootPushGo readOk => Sys2Proof.Machine.execBootPushGo readOk s
  | .pushComplete ok => Sys2Proof.Machine.execPushComplete ok s
  | .bootCtlReset key reset => Sys2Proof.Machine.execBootCtlReset key reset s
  | .bootCertSelect cert word => Sys2Proof.Machine.execBootCertSelect cert word s
  | .fuseBlow => Sys2Proof.Machine.execFuseBlow s
  | .extest cells => Sys2Proof.Machine.execExtest cells s
  | .samplePreload cells => Sys2Proof.Machine.execSamplePreload cells s
  | .idcode => Sys2Proof.Machine.execIdcode s
  | .clamp => Sys2Proof.Machine.execClamp s
  | .highz => Sys2Proof.Machine.execHighz s
  | .bypass => Sys2Proof.Machine.execBypass s
  | .fieldSupplyReturn => Sys2Proof.Machine.execFieldSupplyReturn s
  | .holdUpEnd => Sys2Proof.Machine.execHoldUpEnd s
  | .crystalAmplitudeLoss mv => Sys2Proof.Machine.execCrystalAmplitudeLoss mv s
  | .recoveredClockReady port within => Sys2Proof.Machine.execRecoveredClockReady port within s
  | .larderFillDone core => Sys2Proof.Machine.execLarderFillDone core s

end Sys2Proof.Machine
end

