-- ==== Sys2Proof/Safety.lean ====
section
/-! DEFINITION. Safety.lean: the terms the claims are stated in: the canonical form of a state's sparse contents, the
invariant of every step, and what a command leaves alone. -/

namespace Sys2Proof.Machine

/-- The registers and the byte memories are in canonical form: keys strictly rising, no entry that equals its default. -/
def State.canonical (s : State) : Prop :=
  sparseWf regDefault s.regs = true ∧ Memory.wf s.mem = true ∧ Memory.wf s.larder = true ∧ Memory.wf s.host = true

/-- The invariant of every step: canonical contents, and DTIME a multiple of 4 ns (R20, R427). -/
def State.Inv (s : State) : Prop := s.canonical ∧ s.dtime % 4 = 0

/-! ### Frames -/

/-- The fields of State, by name. -/
inductive Comp where
  | regs | staged | pairs | holding | dtime | mem | larder | host | free | module | cel | pos | lanes | cams | lp | seq | field | link | aud | loft | ntm | gts | client | cores | lists | jobs | ptns | flock | adp | sdg | stage | sync | clk | boot | pending
  deriving DecidableEq, Repr

/-- Two states agree in a part. -/
def Comp.same (s t : State) : Comp → Prop
  | .regs => t.regs = s.regs
  | .staged => t.staged = s.staged
  | .pairs => t.pairs = s.pairs
  | .holding => t.holding = s.holding
  | .dtime => t.dtime = s.dtime
  | .mem => t.mem = s.mem
  | .larder => t.larder = s.larder
  | .host => t.host = s.host
  | .free => t.free = s.free
  | .module => t.module = s.module
  | .cel => t.cel = s.cel
  | .pos => t.pos = s.pos
  | .lanes => t.lanes = s.lanes
  | .cams => t.cams = s.cams
  | .lp => t.lp = s.lp
  | .seq => t.seq = s.seq
  | .field => t.field = s.field
  | .link => t.link = s.link
  | .aud => t.aud = s.aud
  | .loft => t.loft = s.loft
  | .ntm => t.ntm = s.ntm
  | .gts => t.gts = s.gts
  | .client => t.client = s.client
  | .cores => t.cores = s.cores
  | .lists => t.lists = s.lists
  | .jobs => t.jobs = s.jobs
  | .ptns => t.ptns = s.ptns
  | .flock => t.flock = s.flock
  | .adp => t.adp = s.adp
  | .sdg => t.sdg = s.sdg
  | .stage => t.stage = s.stage
  | .sync => t.sync = s.sync
  | .clk => t.clk = s.clk
  | .boot => t.boot = s.boot
  | .pending => t.pending = s.pending

/-- From `s` to `t` no part changed but those listed. -/
def State.changesOnly (s : State) (cs : List Comp) (t : State) : Prop := ∀ c, c ∉ cs → c.same s t

/-- Every part of State but the queue. -/
def everything : List Comp :=
  [.regs, .staged, .pairs, .holding, .dtime, .mem, .larder, .host, .free, .module, .cel, .pos, .lanes, .cams, .lp,
   .seq, .field, .link, .aud, .loft, .ntm, .gts, .client, .cores, .lists, .jobs, .ptns, .flock, .adp, .sdg, .stage,
   .sync, .clk, .boot]

/-- The parts of State that a command may change: in each state all of it, or less. -/
def touches : Instr → List Comp
  | .loReadLatch _ _ =>
    [.regs, .holding, .free]
  | .encoderRead _ _ _ _ _ _ _ | .takeover =>
    [.regs, .free, .pos]
  | .posLost =>
    [.regs, .host, .free, .pos, .seq, .link, .loft, .gts, .client, .sdg]
  | .posTupleSend =>
    [.pos, .gts]
  | .posSnapTake | .psqTblRead _ | .partWinRead _ | .supFault _ | .eyeScanDone _ _ | .faultRelease _
  | .celRetRead _ | .dtSuspectClear | .xtalReady _ | .quadSleep _ | .announceTimeout | .loftCurWrite _
  | .loftClearDrop | .bootCertSelect _ _ | .crystalAmplitudeLoss _ | .larderFillDone _ =>
    [.regs]
  | .quadWake _ | .clockSwitch | .loopRelock | .governorTick _ _ _ | .vrAlertDeassert =>
    [.regs, .clk]
  | .nop | .selftestWin | .signal | .loftMark | .commandComplete _ _ | .maxdurExpire _ _ | .holdExpire
  | .waitTimeout _ | .soWait _ _ | .soSignal _ _ | .inputRunStart | .sampleDecodeStart =>
    [.regs, .larder, .host, .free, .seq, .loft, .client, .cores, .lists, .jobs, .ptns, .flock, .adp, .sync]
  | .mcmd _ | .vmov _ | .vadd _ | .vsub _ | .vmul _ | .vmax _ | .vmin _ | .vclamp _ | .vcmp _ | .vsel _
  | .vmacw _ | .vreq _ | .vcvt _ | .vlut _ | .vpoolh _ | .vrsum _ | .vrmax _ | .vrmin _ | .vcnt _ | .vdlv _
  | .vilv _ | .waitRecord _ | .signalRecord _ | .launch _ | .idleFor _ | .load _ | .nopRecord _ | .result _
  | .endRecord _ | .add _ _ | .sub _ _ | .and _ _ | .or _ _ | .xor _ _ | .shl _ _ | .shr _ _ | .sar _ _
  | .slt _ _ | .sltu _ _ | .min _ _ | .max _ _ | .clz _ _ | .popc _ _ | .mul _ _ | .mulhu _ _ | .divu _ _
  | .fadd _ _ | .fsub _ _ | .fmul _ _ | .fmin _ _ | .fmax _ _ | .flt _ _ | .fcvti _ _ | .fcvtf _ _ | .addi _ _
  | .andi _ _ | .ori _ _ | .xori _ _ | .shi _ _ | .lui _ _ | .slti _ _ | .ld8 _ _ | .ld16 _ _ | .ld32 _ _
  | .ld64 _ _ | .st8 _ _ | .st16 _ _ | .st32 _ _ | .st64 _ _ | .aadd _ _ | .aaddf _ _ | .amin _ _ | .amax _ _
  | .axchg _ _ | .acas _ _ | .beq _ _ | .bne _ _ | .blt _ _ | .bge _ _ | .bltu _ _ | .bgeu _ _ | .jal _ _
  | .jr _ _ | .hkey _ _ | .swait _ _ | .ssig _ _ | .fence _ _ | .rdt _ _ =>
    [.regs, .larder, .host, .free, .cel, .seq, .loft, .client, .cores, .lists, .jobs, .ptns, .flock, .adp, .sync]
  | .partClose =>
    [.regs, .mem, .larder, .host, .free, .cel, .seq, .loft, .client, .cores, .lists, .jobs, .ptns, .flock, .adp,
     .sdg, .sync]
  | .partOpen =>
    [.regs, .mem, .larder, .host, .free, .cel, .lp, .seq, .link, .loft, .client, .cores, .lists, .jobs, .ptns,
     .flock, .adp, .sdg, .sync]
  | .lineGate =>
    [.regs, .mem, .larder, .host, .free, .cel, .cams, .lp, .seq, .link, .loft, .gts, .client, .cores, .lists,
     .jobs, .ptns, .flock, .adp, .sdg, .sync]
  | .stripCut | .roiApply =>
    [.regs, .mem, .larder, .host, .free, .cel, .lp, .seq, .loft, .gts, .client, .cores, .lists, .jobs, .ptns,
     .flock, .adp, .sync]
  | .decision =>
    [.regs, .mem, .larder, .host, .free, .cel, .seq, .link, .loft, .client, .cores, .lists, .jobs, .ptns, .flock,
     .adp, .sdg, .sync]
  | .ejectPass | .pulse =>
    [.regs, .larder, .host, .free, .seq, .link, .loft, .client, .cores, .lists, .jobs, .ptns, .flock, .adp, .sdg,
     .sync]
  | .edgeRecompute =>
    [.regs, .host, .free, .pos, .seq, .link, .loft, .client, .sdg]
  | .edgeReportTimeout =>
    [.regs, .host, .free, .seq, .loft, .client, .sdg]
  | .edgeNew _ _ _ _ _ | .inputConfirm _ _ _ | .outCfg _ _ _ _ _ _ | .outSet _ _ | .resume _ | .edgeFire =>
    [.regs, .field, .link]
  | .edgeCorr _ _ _ _ _ | .edgeHold _ _ _ | .lsSet _ _ | .inCfg _ _ _ _ | .downlinkBadFrame | .syncEdgeSend =>
    [.field, .link]
  | .edgeCancel _ _ _ =>
    [.free, .field, .link]
  | .heartbeat _ _ _ =>
    [.regs, .free, .field, .link]
  | .edgeDone _ _ _ _ _ _ | .reject _ _ _ _ _ =>
    [.regs, .host, .free, .seq, .link, .loft, .client, .sdg]
  | .status _ _ _ _ _ _ _ _ _ _ | .inputEdge _ _ _ _ | .uplinkLost | .lsCauseClear _ | .fldStop =>
    [.regs, .link, .loft]
  | .lockstepMismatch =>
    [.regs, .seq, .link, .loft]
  | .uplinkCrcError | .fldResume | .fldOutSetWrite _ =>
    [.regs, .link]
  | .heartbeatLoss | .overload _ | .overtemp _ _ | .openOff _ _ | .openOn _ | .fieldSupplyReturn =>
    [.regs, .field]
  | .supplyLow | .lsFault =>
    [.regs, .field, .link, .loft]
  | .acJudge =>
    [.regs, .seq, .link]
  | .featureFrame _ _ _ _ _ =>
    [.regs, .mem, .larder, .host, .free, .cel, .seq, .aud, .loft, .client, .cores, .lists, .jobs, .ptns, .flock,
     .adp, .sync]
  | .laneSignalDetect _ | .laneSignalLoss _ | .cdrLock _ | .cdrLockLoss _ | .acquireGroup _ _ _ =>
    [.regs, .lanes, .cams, .link, .loft, .gts, .clk]
  | .alignedGroup _ _ _ | .rediscover _ | .discoverLanesAligned _ | .discoverAlignTimeout _ =>
    [.regs, .free, .lanes, .cams, .link, .loft, .gts, .clk]
  | .eyeScanStart _ _ _ _ =>
    [.regs, .lanes]
  | .eyeScanAbort _ =>
    [.regs, .free]
  | .controlReply _ _ _ _ =>
    [.regs, .host, .free, .lanes, .cams, .link, .loft, .gts, .client, .clk]
  | .controlTimeout _ =>
    [.regs, .host, .cams, .client]
  | .camRegRead _ _ | .camRegWrite _ _ =>
    [.host, .cams, .client]
  | .streamPacket _ _ _ _ | .slotDeadline _ =>
    [.regs, .cams, .seq]
  | .rowBuild _ =>
    [.regs, .mem, .larder, .host, .free, .cel, .lp, .seq, .link, .loft, .gts, .client, .cores, .lists, .jobs,
     .ptns, .flock, .adp, .sdg, .sync]
  | .inputDigestFinal _ =>
    [.seq]
  | .xferToLarder _ | .xferFromLarder _ | .sampleDecodeDone _ _ | .decodeBudgetExpire _ _ | .partitionSwitch _ =>
    [.regs, .mem, .larder, .host, .free, .cel, .seq, .loft, .client, .cores, .lists, .jobs, .ptns, .flock, .adp,
     .sync]
  | .threadStart _ _ =>
    [.flock]
  | .hlook _ _ | .hseen _ _ | .hins _ _ | .exit _ _ | .flockMemComplete _ _ _ | .halo _ _ _ _ _ _ =>
    [.regs, .mem, .larder, .host, .free, .cel, .seq, .loft, .gts, .client, .cores, .lists, .jobs, .ptns, .flock,
     .adp, .sync]
  | .rget _ _ =>
    [.regs, .larder, .host, .free, .cel, .seq, .loft, .gts, .client, .cores, .lists, .jobs, .ptns, .flock, .adp,
     .sync]
  | .remoteTimeout _ _ _ | .setResp _ _ _ =>
    [.regs, .free, .gts, .flock]
  | .pageRetire | .promote _ _ _ =>
    [.regs, .mem, .free, .cel, .loft, .gts, .flock]
  | .sliceEnd _ | .sliceYield _ =>
    [.regs, .jobs, .ptns]
  | .sliceBegin _ =>
    [.regs, .larder, .host, .free, .cel, .seq, .link, .loft, .client, .cores, .lists, .jobs, .ptns, .flock, .adp,
     .sync]
  | .ringEnable _ _ _ | .ringDisable _ _ _ | .functionLevelReset | .sessionClose _ | .sessionTimeout _
  | .submit _ _ _ _ | .ack _ _ _ | .doorbell _ _ | .sessionOpen _ _ =>
    [.regs, .host, .client]
  | .descriptorStart _ | .nopOpcode _ _ | .attest _ _ =>
    [.host, .client]
  | .hostReadTimeout _ _ =>
    [.host, .free, .client]
  | .regRead _ _ =>
    [.regs, .holding, .host, .free, .client]
  | .memRead _ _ =>
    [.regs, .host, .cel, .loft, .client]
  | .memWrite _ _ | .setLoadRaw _ _ | .setLoadEntries _ _ | .setLoadClear _ _ =>
    [.regs, .mem, .host, .cel, .loft, .client]
  | .imageLoadProgram _ _ | .imageLoadWeights _ _ | .imageLoadReference _ _ _ =>
    [.regs, .mem, .host, .cel, .loft, .client, .stage]
  | .seqWrite _ _ | .jobStart _ _ | .jobStop _ _ | .netSet _ _ | .allowLoad _ _ =>
    [.host, .client, .stage]
  | .lpipeTable _ _ | .commit _ _ =>
    [.regs, .host, .client, .stage]
  | .commitCheckDone =>
    [.regs, .host, .cel, .loft, .client, .stage]
  | .commitApply =>
    [.regs, .staged, .pairs, .mem, .larder, .host, .free, .cel, .pos, .lanes, .cams, .lp, .seq, .link, .aud,
     .loft, .ntm, .gts, .client, .cores, .lists, .jobs, .ptns, .flock, .adp, .sdg, .stage, .sync, .clk, .boot]
  | .discard _ _ =>
    [.regs, .staged, .host, .client, .stage]
  | .fwPush _ _ =>
    [.regs, .host, .client, .boot]
  | .pushComplete _ =>
    [.regs, .host, .free, .loft, .client, .boot]
  | .irqHoldoffEnd _ | .keepaliveSend _ | .keepalive _ =>
    [.client]
  | .sheepdogCheckDone =>
    [.regs, .cel, .seq, .loft, .sdg]
  | .sdgProofArm _ _ | .alarmClear =>
    [.regs, .sdg]
  | .larderMarch _ _ _ | .arrayKav _ _ =>
    [.regs, .larder, .host, .free, .seq, .loft, .client, .cores, .lists, .jobs, .ptns, .flock, .adp, .sdg, .sync]
  | .pantryTag _ _ _ =>
    [.regs, .cel, .sdg]
  | .lpKal _ _ =>
    [.regs, .seq, .link, .loft, .sdg]
  | .coverageIntervalEnd =>
    [.regs, .loft, .sdg]
  | .publicationServe =>
    [.regs, .mem, .larder, .host, .free, .cel, .seq, .loft, .client, .cores, .lists, .jobs, .ptns, .flock, .adp,
     .stage, .sync]
  | .helloSend _ | .tsyncSend _ | .ackSend _ | .ackSet _ _ | .cred _ _ _ _ | .packetError _ =>
    [.gts]
  | .hello _ _ _ _ _ _ _ | .linkstate _ _ =>
    [.regs, .gts, .clk]
  | .nak _ _ =>
    [.regs, .loft, .gts, .clk]
  | .posTuple _ _ =>
    [.regs, .pos, .gts]
  | .tsyncReq _ _ _ _ | .tsyncTimeout =>
    [.regs, .gts]
  | .tsyncResp _ _ _ _ =>
    [.regs, .dtime, .free, .gts]
  | .setReq _ _ _ _ _ =>
    [.regs, .mem, .free, .cel, .loft, .gts]
  | .repl _ _ _ _ _ _ _ =>
    [.regs, .mem, .cel, .loft, .gts]
  | .replAck _ | .rgetResp _ _ =>
    [.regs, .gts, .flock]
  | .rgetReq _ _ =>
    [.regs, .cel, .loft, .gts]
  | .memberLost _ _ =>
    [.regs, .mem, .free, .cel, .loft, .gts, .flock, .clk]
  | .clockSourceLoss | .clkSwitchRequest _ _ =>
    [.regs, .loft, .clk]
  | .clockLostTimeout | .vrAlert _ _ | .thermalSample _ =>
    [.regs, .link, .loft, .clk]
  | .quadDeepEnter _ =>
    [.regs, .larder, .cores]
  | .ptpSync _ _ _ _ _ _ _ _ | .ptpAnnounce _ _ _ _ _ _ _ _ _ _ _ _ | .ptpTxComplete _ _ _ | .txqStale
  | .ntmSnapTake | .ntmSnapExtend | .tpoFire _ | .tpoPulseEnd _ =>
    [.regs, .ntm]
  | .ptpFollowUp _ _ _ _ _ _ | .ntimeExtend =>
    [.ntm]
  | .ptpDelayResp _ _ _ _ _ _ =>
    [.regs, .loft, .ntm]
  | .loftUpdate =>
    [.loft]
  | .loftClearOne _ | .loftClearAll =>
    [.regs, .loft]
  | .moduleReset _ _ =>
    [.regs, .mem, .larder, .free, .module, .cel, .field, .link, .loft, .client, .boot]
  | .bootPushGo _ =>
    [.regs, .boot]
  | .fuseBlow =>
    [.regs, .module, .boot]
  | .extest _ | .samplePreload _ | .idcode | .clamp | .highz | .bypass =>
    [.boot]
  | .holdUpEnd =>
    [.field]
  | .recoveredClockReady _ _ =>
    [.clk]
  | .wposExtrapolate | .registerWrite _ _ _ | .w1cClear _ _ | .counterClear _ | .accessErrClear
  | .pairMemberWrite _ _ | .pairLatch _ _ | .soSelect _ | .soRestage _ | .regWrite _ _ | .thermalTrip _ _
  | .powerOn | .supplyDrop | .bootCtlReset _ _ =>
    everything


/-- From `s` to `t` no register of BAR0 changed but those at the offsets listed. -/
def State.keepsRegs (s : State) (offs : List Nat) (t : State) : Prop := ∀ off, off < 0x400000 → off ∉ offs → t.reg off = s.reg off

/-- A command completes from `s`: it answers a next state, which differs from `s` in the parts listed alone, of the
registers in those at the offsets listed alone, and meets `p`. -/
def State.completes (s : State) (i : Instr) (cs : List Comp) (offs : List Nat) (p : State → Prop) : Prop :=
  ∃ t, exec i s = .next t ∧ s.changesOnly cs t ∧ s.keepsRegs offs t ∧ p t

/-- From `s` to `t` a counter field counts `n` events, and holds at all ones. -/
def State.counts (s : State) (f : Fld) (n : Nat) (t : State) : Prop :=
  t.get f = min (2 ^ (f.hi - f.lo + 1) - 1) (s.get f + n)

/-- Registers that a request of line stop may change: the causes, and the count of the Loft queue's drops (R423, R471). -/
def lineStopOffsets : List Nat := [R.FLD_LS_CAUSE, R.LOFT_CNT_DROP, R.LOFT_STATUS]

/-- No completed wait waits to be taken up, no grant waits for a hold entry, no slice end is deferred, and no run of the input
pipeline is watched for low water: what follows every signal (R296, R329, R334, R341) has nothing to do. -/
def State.calm (s : State) : Prop :=
  s.sync.woken = [] ∧ (∀ e ∈ s.sync.objs, s.grantable e.1 = false) ∧
  (∀ p, p < 8 → s.flag (R.STG_PTN_STATUS.DEFERRED p) = false) ∧
  ((s.inRun = false ∧ s.adp.reachedLow = false) ∨ s.get R.ADP_IN_LOW.LOW_WATER = 0)

/-- Nothing of what a tick of DTIME brings to an end is under way but the position itself: no wait has reached the sync unit, no
hold timer runs out, no core owes a setup list, no promotion is due and no die is lost (R16, R339, R342, R347, R439). -/
def State.stillTick (s : State) : Prop :=
  s.sync.arriving = [] ∧ (∀ h ∈ s.sync.holds, u64 (s.dtime + 4) < h.since + (s.so h.so).cfg.holdUs * 1000) ∧
  (∀ n, n < 16 → (s.core n).setupDue = false) ∧ s.gts.promoteDue = false ∧ s.module.lost = 0

/-- What reaches the downlink of frames that are sent: nothing, while the test access port has the isolator pins (R503). -/
def State.onPins {α : Type} (s : State) (fs : List α) : List α := if s.pinsTaken then [] else fs

/-- What the logic side takes of frames sent up: nothing, while its rails are off (R491). -/
def State.onLink {α : Type} (s : State) (fs : List α) : List α := if s.boot.power then fs else []

/-- Output `q` of `t` is `o`, but for what its level at the pin brings with it (R417): since when it has been on, and OPEN_OFF,
which stays only while the output has its test current. -/
def State.settled (t : State) (q : Nat) (o : OutSt) : Prop :=
  t.out q = { o with onFrom := (t.out q).onFrom, pulsed := (t.out q).pulsed, openOff := o.openOff && o.openEn && !t.outLevel q }

/-! ### Register access -/

/-- A write to an offset that acts by the access types and commit classes of its register alone (R7, R375-R376): no clear
register, no member of a pair, no ring register or doorbell, and none whose table gives a write an action of its own. -/
def plainOffset (off : Nat) : Bool :=
  (clearFields off).isNone && (pairAt off).isNone && !(decide (0x100000 ≤ off) && decide (off < 0x200000))
    && !([R.GLB_ACCESS_ERR, R.CLK_CTL, R.PWR_CAP, R.BOOT_PUSH_CTL, R.BOOT_CTL, R.BOOT_CERT_CTL, R.POS_SNAP_CTL,
      R.PSQ_TBL_IDX, R.PART_WIN_IDX, R.CEL_RET_IDX, R.STG_SO_IDX, R.STG_SO_CFG, R.STG_SO_INIT, R.SDG_STATUS, R.SDG_PROOF,
      R.NTM_SNAP_CTL, R.LOFT_CLEAR, R.FLD_CTL, R.FLD_STATUS, R.FLD_LS_CAUSE, R.FLD_OUT_SET].contains off)
    && (pick 64 R.LANE_L_EYE_CTL off).isNone && (pick 2 R.FLK_ENG_FAULT off).isNone && (pick 16 R.FLD_Q_STATUS off).isNone

/-- The module has power and is READY, so that every block of BAR0 is in use (R477). -/
def State.serves (s : State) : Prop := s.boot.power = true ∧ s.flag R.GLB_STATUS.READY = true

/-- The rows that are the write of one register of a block other than GLB and BOOT: its offset. -/
def writtenRow : Instr → Option Nat
  | .clkSwitchRequest _ _ => some R.CLK_CTL
  | .posSnapTake => some R.POS_SNAP_CTL
  | .psqTblRead _ => some R.PSQ_TBL_IDX
  | .partWinRead _ => some R.PART_WIN_IDX
  | .eyeScanStart lane _ _ _ | .eyeScanAbort lane => some (R.LANE_L_EYE_CTL lane.val)
  | .faultRelease e => some (R.FLK_ENG_FAULT e.val)
  | .celRetRead _ => some R.CEL_RET_IDX
  | .soSelect _ => some R.STG_SO_IDX
  | .soRestage _ => some R.STG_SO_CFG
  | .ringEnable ring _ _ | .ringDisable ring _ _ => some (R.RING_CFG ring.val)
  | .doorbell ring _ => some (R.DBELL ring.val)
  | .sdgProofArm _ _ => some R.SDG_PROOF
  | .alarmClear => some R.SDG_STATUS
  | .lsCauseClear _ => some R.FLD_LS_CAUSE
  | .fldStop | .fldResume => some R.FLD_CTL
  | .fldOutSetWrite _ => some R.FLD_OUT_SET
  | .ntmSnapTake => some R.NTM_SNAP_CTL
  | .loftCurWrite _ => some R.LOFT_CUR
  | .loftClearOne _ | .loftClearAll | .loftClearDrop => some R.LOFT_CLEAR
  | _ => none

/-! ### Flock threads -/

/-- The rows of Flock instructions (R214): the command, its OP, and its FN where the OP holds several rows; of the FN of an
atomic, bits 3:0. -/
def flockRows (e : Fin 2) (c : Fin 4096) : List (Instr × Nat × Option Nat) :=
  [(.add e c, 0, some 0), (.sub e c, 0, some 1), (.and e c, 0, some 2), (.or e c, 0, some 3), (.xor e c, 0, some 4),
   (.shl e c, 0, some 5), (.shr e c, 0, some 6), (.sar e c, 0, some 7), (.slt e c, 0, some 8), (.sltu e c, 0, some 9),
   (.min e c, 0, some 10), (.max e c, 0, some 11), (.mul e c, 0, some 12), (.mulhu e c, 0, some 13),
   (.divu e c, 0, some 14), (.clz e c, 0, some 15), (.popc e c, 0, some 16)]
  ++ [(.fadd e c, 1, some 0), (.fsub e c, 1, some 1), (.fmul e c, 1, some 2), (.fmin e c, 1, some 3), (.fmax e c, 1, some 4),
   (.flt e c, 1, some 5), (.fcvti e c, 1, some 6), (.fcvtf e c, 1, some 7)]
  ++ [(.addi e c, 2, none), (.andi e c, 3, none), (.ori e c, 4, none), (.xori e c, 5, none), (.shi e c, 6, none),
   (.lui e c, 7, none), (.slti e c, 8, none), (.ld8 e c, 0x10, none), (.ld16 e c, 0x11, none), (.ld32 e c, 0x12, none),
   (.ld64 e c, 0x13, none), (.st8 e c, 0x14, none), (.st16 e c, 0x15, none), (.st32 e c, 0x16, none), (.st64 e c, 0x17, none)]
  ++ [(.aadd e c, 0x18, some 0), (.aaddf e c, 0x18, some 1), (.amin e c, 0x18, some 2), (.amax e c, 0x18, some 3),
   (.axchg e c, 0x18, some 4), (.acas e c, 0x18, some 5), (.beq e c, 0x20, none), (.bne e c, 0x21, none), (.blt e c, 0x22, none),
   (.bge e c, 0x23, none), (.bltu e c, 0x24, none), (.bgeu e c, 0x25, none), (.jal e c, 0x26, none), (.jr e c, 0x27, none)]
  ++ [(.hkey e c, 0x30, none), (.hlook e c, 0x31, none), (.hseen e c, 0x32, none), (.hins e c, 0x33, none),
   (.rget e c, 0x34, none), (.swait e c, 0x38, none), (.ssig e c, 0x39, none), (.fence e c, 0x3A, none), (.rdt e c, 0x3B, none),
   (.exit e c, 0x3F, none)]

/-- An instruction word is of a row. -/
def rowWord (op : Nat) (fn : Option Nat) (w : Nat) : Bool :=
  opOf w == op && (match fn with
    | none => true
    | some f => if op = 0x18 then fnOf w % 16 == f else fnOf w == f)

/-- Context `c` of engine `e` holds thread `t`, which issues instruction word `w` now (R212); `u` is the state after the
fetch, with the instruction counted. -/
def State.fetches (s : State) (e c : Nat) (t : Thread) (w : Nat) (u : State) : Prop :=
  s.thread e c = some t ∧ s.mayIssue e c t = true ∧ t.pc % 4 = 0 ∧ s.peekWord (t.agent e) t.pc = some w ∧ listed w = true ∧
    s.ready e t w = true ∧ ∃ bs v, s.load (t.agent e) t.pc 4 = (.ok, bs, v) ∧ u = v.countInstr e

/-- The thread past the instruction that it issues. -/
def Thread.past (t : Thread) : Thread := { t with fence := false, pc := (t.pc + 4) % 2 ^ 64 }

/-! ### Packets of the fabric -/

/-- The addressed packets (R429): the header, TYPE, virtual channel and payload. -/
def packetRow : Instr → Option (Packet × Nat × Nat × List Byte)
  | .tsyncReq h t1 _ _ => some (h, 0x11, 1, leBytes 8 t1.toNat)
  | .tsyncResp h t2 t3 _ => some (h, 0x12, 1, leBytes 8 t2.toNat ++ leBytes 8 t3.toNat)
  | .setReq h op set key node => some (h, 0x20, 2, setReqBytes op.val set.val key.toNat node.toNat)
  | .setResp h value stale => some (h, 0x21, 2, setRespBytes value.toNat stale)
  | .repl h set key bucket entry st node =>
    some (h, 0x22, 2, replBytes set.val key.toNat ⟨bucket.toNat, entry.val, st.toNat, node.toNat⟩)
  | .replAck h => some (h, 0x23, 2, [])
  | .rgetReq h addr => some (h, 0x24, 2, leBytes 8 addr.toNat)
  | .rgetResp h none => some (h, 0x25, 2, [])
  | .rgetResp h (some v) => some (h, 0x25, 2, leBytes 8 v.toNat)
  | .halo h _ _ _ _ bytes => some (h, 0x30, 3, bytes)
  | _ => none

/-- A port is UP and the packet that arrives on it has the LSEQ that the port expects (R430). -/
def State.inOrder (s : State) (h : Packet) : Prop := s.portState h.port.val = 3 ∧ h.lseq.toNat = (s.gport h.port.val).rxSeq

/-- The state once the port has accepted a packet of `len` payload bytes on a virtual channel (R430, R432): the next LSEQ is
expected, and, but for a packet to be forwarded, its units go back in a CRED set. -/
def State.taken (s : State) (h : Packet) (vc len : Nat) (forward : Bool := false) : State :=
  let x := { s.gport h.port.val with rxSeq := ((s.gport h.port.val).rxSeq + 1) % 4096, nakSent := none }
  let data := (20 + len + 63) / 64 + (if vc < 2 then 0 else h.part.val * 2048) + vc * 16384
  s.setGport h.port.val (if forward then x else { x.emit [ctlSet 3 data] with ctl := x.ctl ++ [(3, data)] })

end Sys2Proof.Machine
end

