-- ==== Sys2Proof/Certificates/Slice0/Obligations.lean ====
section
/-! DEFINITION. Certificates/Slice0/Obligations.lean: the statements about the machine, from the numbered rules of spec/. -/

open Sys2Proof Sys2Proof.Machine

/-! ### The machine -/

/-- A step takes the command at the front of the queue and is exec of that command on the state with the queue's rest.
DESIGN CHOICE (log entry 1): on an empty queue the block idles, and the state stays as it is. -/
def Obligations.StepRunsFrontCommand : Prop :=
  (∀ (s : State) (c : Instr) (cs : List Instr), s.pending = c :: cs → step s = exec c { s with pending := cs }) ∧
  (∀ s : State, s.pending = [] → step s = .next s)

/-- At State.reset: DTIME and WPOS are 0; no byte of memory, Larder or host memory is listed; nothing is staged, pending, in a
part table, a ring, a job, a thread or the queue; every sync object is free; and one register of every block of the register
tables that has a non-zero Reset entry reads it, LINE_STOP requested for reset alone, READY and RECOVERY 0. -/
def Obligations.ResetLeavesTableValues : Prop :=
  let s := State.reset
  (s.dtime = 0 ∧ s.pos.wpos = 0 ∧ s.mem = [] ∧ s.larder = [] ∧ s.host = [] ∧ s.staged = [] ∧ s.pairs = [] ∧ s.jobs = [] ∧
    s.lists = [] ∧ s.pending = [] ∧ s.flock.threads = [] ∧ s.seq = {} ∧ s.client.started = [] ∧ s.sync = {}) ∧
  (∀ k, (s.so k).cfg.type = 0) ∧
  (∀ x ∈ [(R.GLB_ID.DEVICE, 0x7160), (R.GLB_ID.VENDOR, 0x1F3C), (R.GLB_STATUS.LINE_STOP, 1), (R.GLB_STATUS.READY, 0),
      (R.GLB_STATUS.RECOVERY, 0), (R.CLK_CFG.LOST_MS, 2), (R.CLK_CFG.AUTO, 1), (R.CLK_FREQ.MHZ 3, 1600), (R.PWR_CAP.CAP_W, 380),
      (R.PWR_CFG.GOV_EN, 1), (R.PWR_QUAD_CFG.FMAX 3, 16), (R.PWR_QUAD_CFG.FMIN 3, 8), (R.POS_STATUS.SPD_MODE, 1),
      (R.POS_HOLD.FAIL_US, 500), (R.POS_HOLD.HOLD_US, 2000), (R.POS_SPD_CO.VALUE, 100000), (R.POS_BCAST.DIV, 1),
      (R.POS_E_CFG.WORDLEN 3, 24), (R.POS_E_JUMP_TOL.NM 3, 50000), (R.PSQ_VMAX.VALUE, 25000000), (R.PSQ_CORR.THRESH_NS, 20),
      (R.PSQ_TRK_PART.LEN 7, 1024), (R.PSQ_Q_PULSE.PULSE_US 15, 4000)], s.get x.1 = x.2) ∧
  (∀ x ∈ [(R.LANE_L_CFG.LOA_LIMIT 63, 4), (R.LANE_L_CFG.ACQ_COMMAS 63, 3), (R.CXP_CTL.ALIGN_MS, 100), (R.CXP_CAM_GEOM.WIDTH 15, 8192),
      (R.CXP_CAM_LATE.LATE_NS 15, 40000), (R.CXP_CAM_TRIG_LAT.NS 15, 2400), (R.LPIPE_CAM_PAT.EVEN0 15, 5),
      (R.LPIPE_PAT_WX.COLS 255, 1), (R.LPIPE_MRK_STEER_MAX.N 63, 16), (R.CORE_LDR_STATUS.MODE 15, 1), (R.FLK_RTIMEOUT.US, 200),
      (R.FLK_SET_GEOM.PROBE_MAX 15, 8), (R.CEL_FW_WAYS.WAYS, 0x8000), (R.CEL_PART_CFG.INFLIGHT 7, 7168),
      (R.STG_PTN_SLICE.SLICE_US 7, 10000), (R.SDG_WIN.N, 1000), (R.SDG_WIN.K, 3), (R.SDG_ST_CFG.ENABLE, 1), (R.SDG_LANE_CFG.TILE_THR 63, 32),
      (R.FLD_LS_CAUSE.CAUSE, 1), (R.FLD_Q_CFG.OVL_US 15, 1000), (R.FLD_I_CFG.FILT_US 15, 100), (R.AUD_AC_WIN.WIN_US 15, 2000),
      (R.GTS_CFG.LOSS_US, 1000), (R.GTS_HX_STRIDE.UNITS 15, 1), (R.NTM_PTP_CFG.ANN_TMO, 3), (R.NTM_STATUS.STATE, 1),
      (R.NTM_TPO_PERIOD.N 3, 1000000000), (R.LOFT_A3_BINW.N, 1), (R.LOFT_A16_BIN0.N 15, 0xFFFFFFA0), (R.ADP_CAP_N.N, 256),
      (R.ADP_IN_CFG.BATCH, 8)], s.get x.1 = x.2)

/-- After reset the registers and the byte memories are in canonical form, and DTIME is a multiple of 4 ns. The canonical
form is the model's own (it makes equal memories equal data). -/
def Obligations.ResetMeetsInvariant : Prop := State.reset.Inv

/-- From every state, reached or not, in which registers and byte memories are in canonical form and DTIME is a multiple of
4 ns, a step that answers a next state answers one of the same kind, whichever of the commands is at the front. -/
def Obligations.StepKeepsInvariant : Prop :=
  ∀ s t : State, s.Inv → step s = .next t → t.Inv

/-- From every state every command is answered by a next state, never by a fault or a refusal, and it leaves the queue of
waiting commands as it is; registers and memories in canonical form stay so. -/
def Obligations.EveryCommandAnswers : Prop :=
  ∀ (c : Instr) (s : State), ∃ t, exec c s = .next t ∧ t.pending = s.pending ∧ (s.canonical → t.canonical)

/-- The frame of every command: from every state, a command changes no part of State but those that `touches` lists for it
(a command that resets the module lists every part but the queue). -/
def Obligations.CommandsTouchTheirPartsOnly : Prop :=
  ∀ (c : Instr) (s t : State), exec c s = .next t → s.changesOnly (touches c) t

/-! ### Register access -/

/-- REGISTER_WRITE with power on: narrower than 32 bits or not 4-byte aligned (R4), or to an offset at which no
register is defined (R5): nothing changes but GLB_ACCESS_ERR.COUNT, which counts it and saturates, and GLB_ACCESS_ADDR, which
takes the offset if COUNT was 0. A full aligned read of such an offset returns 0 and changes nothing. Until READY is 1 no
register is defined outside GLB and BOOT (R477): the rows that are one such write are counted, and do nothing else. -/
def Obligations.DiscardedWritesAreCounted : Prop :=
  ∀ (s : State) (off : BitVec 22) (len : Fin 5) (v : BitVec 32), s.canonical → s.answers = true →
    ((len.val < 4 ∨ off.toNat % 4 ≠ 0 ∨ s.regAt off.toNat = none) →
      s.completes (.registerWrite off len v) [.regs] [R.GLB_ACCESS_ERR, R.GLB_ACCESS_ADDR] (fun t =>
        s.counts R.GLB_ACCESS_ERR.COUNT 1 t ∧
        t.get R.GLB_ACCESS_ADDR.OFFSET
          = if s.get R.GLB_ACCESS_ERR.COUNT = 0 then off.toNat else s.get R.GLB_ACCESS_ADDR.OFFSET)) ∧
    (off.toNat % 4 = 0 → s.regAt off.toNat = none → s.readReg off.toNat = (0, s)) ∧
    (s.flag R.GLB_STATUS.READY = false →
      (¬ (off.toNat < 0x10000 ∨ (0x30000 ≤ off.toNat ∧ off.toNat < 0x40000)) → s.regAt off.toNat = none) ∧
      ∀ i o, writtenRow i = some o → exec i s = .next (s.accessErr o))

/-- REGISTER_WRITE, aligned and 32 bits wide, to a register whose written fields are all class S and which has no action of
its own. With the stage not frozen, the staged value of that register is the value written, its reserved bits 0; no register
in force and nothing else changes. With the stage frozen (R381) the write is discarded, FROZEN_WR is set, STG_CNT_FROZEN
counts it, and nothing else changes. -/
def Obligations.ClassSWritesAreStaged : Prop :=
  ∀ (s : State) (off : BitVec 22) (len : Fin 5) (v : BitVec 32) (r : RegRow), s.canonical → len.val = 4 →
    off.toNat % 4 = 0 → s.answers = true → s.regAt off.toNat = some r → plainOffset off.toNat = true →
    r.maskOf .staged ≠ 0 → r.maskOf .immediate = 0 → r.maskOf .oneClears = 0 → r.maskOf .paired = 0 →
    (s.flag R.STG_STATUS.FROZEN = false →
      s.completes (.registerWrite off len v) [.staged] [] (fun t =>
        ∀ o, t.stagedReg o = if o = off.toNat then v &&& BitVec.ofNat 32 (r.maskOf .staged) else s.stagedReg o)) ∧
    (s.flag R.STG_STATUS.FROZEN = true →
      s.completes (.registerWrite off len v) [.regs] [R.STG_STATUS, R.STG_CNT_FROZEN] (fun t =>
        t.flag R.STG_STATUS.FROZEN_WR = true ∧ s.counts R.STG_CNT_FROZEN.N 1 t))

/-- REGISTER_WRITE and W1C_CLEAR of a register that has W1C or class I fields and no class S or P field, and no action of its
own: bit by bit, a class I bit takes the bit written, a W1C bit is cleared by a 1 and kept by a 0, but one that the module
set on this tick stays set (R8; the bits set on a tick stand in a word of their own, which the tick's end clears), and every
other bit (RO, reserved, WO) keeps its value. Nothing else changes. W1C_CLEAR is stated for the registers that have a W1C bit. -/
def Obligations.ImmediateAndW1cBits : Prop :=
  ∀ (s : State) (off : BitVec 22) (len : Fin 5) (v : BitVec 32) (r : RegRow), s.canonical → len.val = 4 →
    off.toNat % 4 = 0 → s.answers = true → s.regAt off.toNat = some r → plainOffset off.toNat = true →
    r.maskOf .staged = 0 → r.maskOf .paired = 0 → r.maskOf .immediate + r.maskOf .oneClears ≠ 0 →
    let effect (t : State) : Prop := ∀ b, b < 32 → (t.reg off.toNat).getLsbD b =
      if (r.maskOf .immediate).testBit b then v.getLsbD b
      else if (r.maskOf .oneClears).testBit b then
        (s.reg off.toNat).getLsbD b && (!v.getLsbD b || (s.reg (off.toNat + 0x400000)).getLsbD b)
      else (s.reg off.toNat).getLsbD b
    s.completes (.registerWrite off len v) [.regs] [off.toNat] effect ∧
    (r.maskOf .oneClears ≠ 0 → s.completes (.w1cClear off v) [.regs] [off.toNat] effect)

/-- COUNTER_CLEAR of a clear register that is defined and answers: each counter it names reads 0, a lane's the number of
events that it has counted on this very tick (R89; they stand beside the register), and no other register changes. ACCESS_ERR_CLEAR: COUNT and ADDR read 0. LO_READ_LATCH of a _LO half: the high word of that instant is what
the next read of _HI returns, and nothing else changes; for a core's CYC that is the high word of the cycles of its quad, for
every other counter the value in the _HI register. A narrow read latches nothing. -/
def Obligations.CounterClearsAndLatches : Prop :=
  ∀ (s : State) (off : BitVec 22) (len : Fin 5), s.canonical → s.answers = true →
    (∀ fs r, clearFields off.toNat = some fs → s.regAt off.toNat = some r →
      s.completes (.counterClear off) [.regs] (fs.map (·.off)) (fun t => ∀ f ∈ fs,
        t.get f = if (pick 64 R.LANE_L_EVT off.toNat).isSome then s.get f.onTick else 0)) ∧
    s.completes .accessErrClear [.regs] [R.GLB_ACCESS_ERR, R.GLB_ACCESS_ADDR] (fun t =>
      t.get R.GLB_ACCESS_ERR.COUNT = 0 ∧ t.get R.GLB_ACCESS_ADDR.OFFSET = 0) ∧
    (∀ r, loHalf off.toNat = true → s.regAt off.toNat = some r → (s.regAt (off.toNat + 4)).isSome = true → len.val = 4 →
      (pick 16 R.CORE_CYC_LO off.toNat = none →
        s.completes (.loReadLatch off len) [.holding] [] (fun t =>
          keyGet t.holding (off.toNat + 4) = some (s.reg (off.toNat + 4)) ∧
          t.readReg (off.toNat + 4) = ((s.reg (off.toNat + 4)).toNat, t))) ∧
      (∀ n, n < 16 → off.toNat = R.CORE_CYC_LO n →
        let high := nth s.clk.cycles (n / 4) 0 / 1000 / 2 ^ 32 % 2 ^ 32
        s.completes (.loReadLatch off len) [.holding] [] (fun t =>
          keyGet t.holding (off.toNat + 4) = some (BitVec.ofNat 32 high) ∧ t.readReg (off.toNat + 4) = (high, t)))) ∧
    (len.val < 4 → exec (.loReadLatch off len) s = .next s)

/-- PAIR_MEMBER_WRITE: the value waits, PAIR_OPEN is set, STG_PAIR_OFF shows the member that was opened first, and both members
read as before. PAIR_LATCH with no commit due: the pending value is gone; if the pair keeps its ranges and rules the latching
member takes the value written and the other its pending value, or its value in force if none was pending; if not, both stay
and PAIR_ERR is set. -/
def Obligations.PairsLatchTogether : Prop :=
  ∀ (s : State) (off : BitVec 22) (v : BitVec 32) (m l : Nat) (r : RegRow), s.canonical → s.answers = true →
    s.regAt off.toNat = some r → pairAt off.toNat = some (m, l) →
    let w := v &&& BitVec.ofNat 32 (r.maskOf .paired)
    (off.toNat = m →
      s.completes (.pairMemberWrite off v) [.pairs, .regs] [R.STG_STATUS, R.STG_PAIR_OFF] (fun t =>
        keyGet t.pairs m = some w ∧ t.flag R.STG_STATUS.PAIR_OPEN = true ∧ t.reg m = s.reg m ∧ t.reg l = s.reg l ∧
        (s.pairs = [] → t.get R.STG_PAIR_OFF.OFFSET = m))) ∧
    (off.toNat = l → s.stage.commit = none →
      let waiting := (keyGet s.pairs m).getD (s.reg m)
      let keeps := ((s.setReg m waiting).setReg l w).pairKeeps m l
      ∃ t, exec (.pairLatch off v) s = .next t ∧ keyGet t.pairs m = none ∧
        (keeps = true → t.reg m = waiting ∧ t.reg l = w) ∧
        (keeps = false → t.reg m = s.reg m ∧ t.reg l = s.reg l ∧ t.flag R.STG_STATUS.PAIR_ERR = true ∧
          s.changesOnly [.pairs, .regs] t ∧ s.keepsRegs [R.STG_STATUS, R.STG_PAIR_OFF] t))

/-! ### Web position -/

/-- WPOS_EXTRAPOLATE with power on. DTIME advances by 4 ns (R24), and a pending base comes into force. With POS_LOST set, or
with no base, WPOS and the backlog stay. Otherwise the target of R39 is the base's position plus v times the time since its
read, truncated to nm: a target beyond WPOS moves WPOS to it and clears the backlog; one that is not leaves WPOS, and the
backlog becomes the difference (R40); a base that a REZERO or a ZERO tuple has left to be taken as it is gives WPOS its
target whatever WPOS was. A backlog above POS_REV_LIMIT sets REV_EXCESS. A Larder whose march step has lasted its time is in
normal mode again (R182), and an update of the configuration in flash has been written (R474). This is stated for a tick on which nothing else that waits for one comes due (stillTick): no wait of
a sync object and no hold timer, no core's setup, no promotion and no die lost. With power off (R412) FTIME alone advances. -/
def Obligations.TickExtrapolatesPosition : Prop :=
  ∀ s : State, s.canonical →
    let now := u64 (s.dtime + 4)
    let base := s.pos.nextBase.or s.pos.base
    (s.boot.power = true → s.stillTick →
      s.completes .wposExtrapolate [.regs, .dtime, .pos, .field, .lanes, .link, .aud, .loft, .ntm, .cores, .jobs, .clk, .boot]
          (R.POS_STATUS :: R.PSQ_STATUS :: R.BOOT_STATUS :: lineStopOffsets ++ (List.range 16).map R.CORE_LDR_STATUS) (fun t =>
        t.dtime = now ∧ t.pos.nextBase = none ∧ t.pos.base = base ∧
        (s.flag R.POS_STATUS.POS_LOST = true ∨ base = none → t.pos.wpos = s.pos.wpos ∧ t.pos.backlog = s.pos.backlog) ∧
        (∀ b, base = some b → s.flag R.POS_STATUS.POS_LOST = false →
          let target := b.pos + tdiv (b.v * i64 (u64 (now + 2 ^ 64 - b.t))) 1000000
          (s.pos.takeAsIs = true ∨ target > i64 s.pos.wpos → t.pos.wpos = toU64 target ∧ t.pos.backlog = 0) ∧
          (s.pos.takeAsIs = false → target ≤ i64 s.pos.wpos →
            t.pos.wpos = s.pos.wpos ∧ t.pos.backlog = toU64 (i64 s.pos.wpos - target))) ∧
        (t.pos.backlog > s.get R.POS_REV_LIMIT.VALUE * 1000 → t.flag R.POS_STATUS.REV_EXCESS = true) ∧
        (∀ n, n < 16 →
          ((s.core n).testUntil = none → t.reg (R.CORE_LDR_STATUS n) = s.reg (R.CORE_LDR_STATUS n)) ∧
          (∀ u, (s.core n).testUntil = some u → u ≤ now → t.get (R.CORE_LDR_STATUS.MODE n) ≠ 2)) ∧
        (∀ b c, s.boot.cfgWrite = some (b, c) → t.boot.cfgWrite = none ∧ (if b then t.boot.cfgB else t.boot.cfgA) = c ∧
          (if b then t.boot.cfgA else t.boot.cfgB) = (if b then s.boot.cfgA else s.boot.cfgB)))) ∧
    (s.boot.power = false → exec .wposExtrapolate s = .next { s with field := { s.field with ftime := u64 (s.field.ftime + 4) } })

/-- ENCODER_READ of an enabled channel, its frame begun after the last commit on the channel. The first failing check of R45
(NORESP, CHK, ERRB, then, with a base, the jump check of R36, which tells STUCK from JUMP by the word) gives the status. A
discarded read counts it in the channel, shows it in LAST and, on the source, sets EXTRAP; channels, WPOS and bases stay
(R37). A good read moves e_nm by the count difference times the scale, keeps the fraction, takes the word and the latch time,
and v is that of the method in use; on the source of a module that drives its WPOS and has a base, the base of R39 waits for
the next tick. The first good read of a channel begins e_nm at 0; one after a change of the word's format moves e_nm by v
times the time since the last read, without the jump check. A disabled channel, and a frame begun earlier, read nothing. -/
def Obligations.EncoderReadsAreJudged : Prop :=
  ∀ (s : State) (ch : Fin 4) (latch : BitVec 64) (ready : Bool) (word : BitVec 48) (err : Bool) (chk : BitVec 5) (tail : Bool),
    s.canonical → s.pos.chans.length = 4 →
    let n := ch.val
    let i := Instr.encoderRead ch latch ready word err chk tail
    let c := s.chan n
    let w := s.get (R.POS_E_CFG.WORDLEN n)
    let x := if s.flag (R.POS_E_CFG.CODE n) then grayDecode w word.toNat else word.toNat % 2 ^ w
    let tLatch := u64 (latch.toNat + 2 ^ 64 - s.get (R.POS_E_LAT.LAT_NS n))
    let d0 := signed w (x + 2 ^ w - c.cPrev % 2 ^ w)
    let d := if s.flag (R.POS_E_CFG.DIR_INVERT n) then -d0 else d0
    let acc : Int := c.eFrac + d * (s.get (R.POS_E_SCALE_FRAC.N n) : Int)
    let adv : Int := d * (s.get (R.POS_E_SCALE_INT.N n) : Int) + acc / 2 ^ 32
    let pred := tdiv (c.v * i64 (u64 (tLatch + 2 ^ 64 - c.tGood))) 1000000
    let first := frameStatus s n ready (word.toNat % 2 ^ w) err chk.toNat tail
    let jumps := d.natAbs ≥ 2 ^ 31 ∨ (adv - pred).natAbs > s.get (R.POS_E_JUMP_TOL.NM n)
    let discarded (st : ReadStatus) : Prop :=
      s.completes i [.regs, .pos] [R.POS_E_ERR n, R.POS_E_WORD_HI n, R.POS_STATUS] (fun t =>
        t.get (R.POS_E_WORD_HI.LAST n) = st.code ∧ (s.source = n → t.flag R.POS_STATUS.EXTRAP = true) ∧
        (∀ m, (t.chan m) = s.chan m) ∧ t.pos.wpos = s.pos.wpos ∧ t.pos.base = s.pos.base ∧ t.pos.nextBase = s.pos.nextBase ∧
        ∀ e ∈ [(ReadStatus.noresp, R.POS_E_ERR.NORESP n), (.chk, R.POS_E_ERR.CHK n), (.errb, R.POS_E_ERR.ERRB n),
            (.jump, R.POS_E_ERR.JUMP n), (.stuck, R.POS_E_ERR.STUCK n)], s.counts e.2 (if e.1 = st then 1 else 0) t)
    let shows := [R.POS_E_WORD_LO n, R.POS_E_WORD_HI n, R.POS_STATUS]
    (s.flag (R.POS_E_CFG.ENABLE n) = false ∨ latch.toNat < c.readFrom → exec i s = .next s) ∧
    (s.flag (R.POS_E_CFG.ENABLE n) = true → c.readFrom ≤ latch.toNat → (first ≠ .good → discarded first) ∧
      (first = .good → c.haveBase = false → s.completes i [.regs, .free, .pos] shows (fun t =>
        (t.chan n).haveBase = true ∧ (t.chan n).eNm = 0 ∧ (t.chan n).eFrac = 0 ∧ (t.chan n).cPrev = x ∧
        (t.chan n).tGood = tLatch ∧ (∀ m, m ≠ n → t.chan m = s.chan m) ∧ t.get (R.POS_E_WORD_HI.LAST n) = 0 ∧
        t.pos.wpos = s.pos.wpos)) ∧
      (first = .good → c.haveBase = true → c.rebase = true → s.completes i [.regs, .free, .pos] shows (fun t =>
        (t.chan n).rebase = false ∧ (t.chan n).eNm = c.eNm + pred ∧ (t.chan n).eFrac = c.eFrac ∧ (t.chan n).cPrev = x ∧
        (t.chan n).tGood = tLatch ∧ (∀ m, m ≠ n → t.chan m = s.chan m) ∧ t.get (R.POS_E_WORD_HI.LAST n) = 0 ∧
        t.pos.wpos = s.pos.wpos)) ∧
      (first = .good → c.haveBase = true → c.rebase = false →
        (jumps → discarded (if d.natAbs < 2 ^ 31 ∧ x = c.cPrev then .stuck else .jump)) ∧
        (¬ jumps → s.completes i [.regs, .free, .pos] shows (fun t =>
          (t.chan n).eNm = c.eNm + adv ∧ (t.chan n).eFrac = (acc % 2 ^ 32).toNat ∧ (t.chan n).cPrev = x ∧
          (t.chan n).tGood = tLatch ∧ (t.chan n).v = (if (t.chan n).freqMode then (t.chan n).vF else (t.chan n).vP) ∧
          (∀ m, m ≠ n → t.chan m = s.chan m) ∧ t.get (R.POS_E_WORD_HI.LAST n) = 0 ∧ t.pos.wpos = s.pos.wpos ∧
          (s.source = n → t.flag R.POS_STATUS.EXTRAP = false) ∧
          (s.source = n → s.role < 2 → s.pos.base ≠ none → s.flag R.POS_STATUS.POS_LOST = false →
            t.pos.nextBase = some ⟨c.eNm + adv - s.pos.zeroNm, tLatch, (t.chan n).v⟩)))))

/-- POS_LOST is raised when the armed hold interval has run out: with no part in flight and no edge frame pending, POS_LOST is
set, line stop is requested with the position cause, WPOS stays, POS_SNAP_SPEED reads 0 and every channel restarts;
before that nothing changes. TAKEOVER by a standby for which R52 holds: WPOS becomes the greater of itself and the aligned local target, the step
is shown if it fits, FAILED_OVER is set, the role is master, and 256 tuples carry TAKEOVER; otherwise nothing changes.
POS_TUPLE_SEND after DIV source reads counts the tuple and starts the cadence anew. POS_SNAP_TAKE stores WPOS, DTIME and
speed. -/
def Obligations.PositionLossTakeoverTuplesSnapshot : Prop :=
  ∀ s : State, s.canonical →
    (s.holdDueNow = false → exec .posLost s = .next s) ∧
    (s.holdDueNow = true → s.liveParts = [] → s.seq.frames = [] → s.pos.chans.length = 4 →
      s.completes .posLost [.regs, .pos, .seq, .link, .loft, .gts] (R.POS_STATUS :: R.POS_SNAP_SPEED :: lineStopOffsets) (fun t =>
        t.get R.POS_SNAP_SPEED.N = 0 ∧ t.flag R.POS_STATUS.POS_LOST = true ∧ bit (t.get R.FLD_LS_CAUSE.CAUSE) 2 = true ∧ t.pos.wpos = s.pos.wpos ∧
        t.seq.waiting = [] ∧ t.pos.nextBase = none ∧
        ∀ n, n < 4 → (t.chan n).v = 0 ∧ (t.chan n).history = [] ∧ (t.chan n).anchor = none)) ∧
    (s.takeoverDue = false → exec .takeover s = .next s) ∧
    (s.takeoverDue = true →
      let mine := ((s.chan s.source).baseOf (s.pos.zeroNm - s.pos.dAvg)).target s.dtime
      let w := if mine > i64 s.pos.wpos then toU64 mine else s.pos.wpos
      s.completes .takeover [.regs, .free, .pos] [R.POS_FAILOVER_STEP, R.POS_STATUS] (fun t =>
        t.pos.wpos = w ∧ (w - s.pos.wpos < 2 ^ 32 → t.get R.POS_FAILOVER_STEP.N = w - s.pos.wpos) ∧
        t.flag R.POS_STATUS.FAILED_OVER = true ∧ t.role = 1 ∧ t.pos.takeoverLeft = 256 ∧
        t.pos.master = some (s.get R.GTS_CFG.ID))) ∧
    (let due := s.role = 1 ∧ s.flag R.POS_STATUS.POS_LOST = false ∧ 0 < s.pos.readsSinceTuple ∧
        s.get R.POS_BCAST.DIV ≤ s.pos.readsSinceTuple;
      (¬ due → exec .posTupleSend s = .next s) ∧
      (due → s.completes .posTupleSend [.pos, .gts] [] (fun t =>
        t.pos = { s.pos with tupleSeq := u16 (s.pos.tupleSeq + 1), takeoverLeft := s.pos.takeoverLeft - 1,
                             zeroLeft := s.pos.zeroLeft - 1, readsSinceTuple := 0 }))) ∧
    (s.serves → s.completes .posSnapTake [.regs] [R.POS_SNAP_WPOS_LO, R.POS_SNAP_WPOS_HI, R.POS_SNAP_DTIME_LO, R.POS_SNAP_DTIME_HI,
        R.POS_SNAP_SPEED] (fun t =>
      t.get64 R.POS_SNAP_WPOS_LO.N R.POS_SNAP_WPOS_HI.N = s.pos.wpos % 2 ^ 64 ∧
      t.get64 R.POS_SNAP_DTIME_LO.N R.POS_SNAP_DTIME_HI.N = s.dtime % 2 ^ 64 ∧ t.get R.POS_SNAP_SPEED.N = toU32 s.speed))

/-! ### The position sequencer and the part table -/

/-- The entry that fires next on a tick is valid, its position is passed, its track has not fired on the tick, the sequencer
runs, and no other track's head that is due has a lower action code, or the same code and a lower track number. An entry does
fire: where the sequencer runs, no commit applies on this tick and the head of a track that has not fired on it has been passed,
there is one. A command of
the table that names another action than that entry's, and every one when no entry is due, changes nothing. -/
def Obligations.SequencerFiresLeastDueEntry : Prop :=
  ∀ s : State,
    (∀ t k e, s.nextDue = some (t, k, e) →
      s.head t = some (k, e) ∧ t < 64 ∧ e.valid = true ∧ e.x ≤ s.pos.wpos ∧ t ∉ s.firedNow ∧ s.seqRuns = true ∧
      ∀ t' k' e', t' < 64 → t' ∉ s.firedNow → s.head t' = some (k', e') → e'.x ≤ s.pos.wpos →
        e.action < e'.action ∨ (e.action = e'.action ∧ t ≤ t')) ∧
    (s.seqRuns = true → s.commitDue = none → ∀ t k e, t < 64 → t ∉ s.firedNow → s.head t = some (k, e) → e.x ≤ s.pos.wpos →
      ∃ d, s.nextDue = some d) ∧
    (∀ a ∈ [(Instr.nop, 0), (.partClose, 1), (.partOpen, 2), (.lineGate, 3), (.stripCut, 4), (.roiApply, 5), (.decision, 6),
        (.ejectPass, 7), (.pulse, 8), (.selftestWin, 9), (.signal, 10), (.loftMark, 11)],
      (∀ t k e, s.nextDue = some (t, k, e) → e.action ≠ a.2) → exec a.1 s = .next s)

/-- NOP, LOFT_MARK, SELFTEST_WIN and SIGNAL, when the due entry has that action and no completed wait or slice end is under
way. The fired entry of a program track takes x plus PITCH plus the carry of its fraction, the fraction's rest and one firing
more, and becomes invalid after COUNT firings or, not repeating, at once (R55); an entry of a part track is removed; every
other entry stays, and its track has fired on this tick. NOP does nothing else; LOFT_MARK queues its value and TAG for the
Loft, SELFTEST_WIN offers its window, SIGNAL of a position event on which nothing waits, no hold timer having run out, raises
FIRES and keeps the entry's position. -/
def Obligations.FiringAdvancesTheEntry : Prop :=
  ∀ (s : State) (t k : Nat) (e : SeqEntry), s.canonical → s.calm → s.nextDue = some (t, k, e) →
    let n := u32 (e.n + 1)
    let after : SeqEntry :=
      if e.repeats then { e with x := u64 (e.x + e.pitch + u32 (e.xf + e.pitchFrac) / 65536)
                                 xf := u32 (e.xf + e.pitchFrac) % 65536, n := n
                                 valid := !(decide (e.count ≠ 0) && n == e.count) }
      else { e with valid := false, n := n }
    let fired (u : State) : Prop :=
      (t < 56 → keyGet u.seq.entries k = some after) ∧ (56 ≤ t → keyGet u.seq.entries k = none) ∧
      (∀ j, j ≠ k → keyGet u.seq.entries j = keyGet s.seq.entries j) ∧ u.firedNow = t :: s.firedNow ∧
      u.seq.parts = s.seq.parts ∧ u.seq.frames = s.seq.frames
    let slips := [R.PSQ_CNT_SLIP, R.PSQ_STATUS]
    (e.action = 0 → s.completes .nop [.regs, .seq] slips (fun u => fired u ∧ u.seq.windows = s.seq.windows)) ∧
    (e.action = 11 → s.completes .loftMark [.regs, .seq, .loft] (slips ++ lineStopOffsets) (fun u => fired u ∧
      (s.loft.queue.length < 512 → u.loft.queue = s.loft.queue ++
        [.event 1 4294967295 (leBytes 2 (bits e.param 15 0) ++ leBytes 2 e.tag) s.dtime s.pos.wpos]))) ∧
    (e.action = 9 → s.completes .selftestWin [.regs, .seq] slips (fun u => fired u ∧
      (bits e.param 15 0, e.x, bits e.param 63 32) ∈ u.seq.windows)) ∧
    (e.action = 10 → (s.so (bits e.param 13 0)).cfg.type = 4 → (s.so (bits e.param 13 0)).broken = false →
      (s.so (bits e.param 13 0)).waiters = [] → s.holdDue = none →
      s.completes .signal [.regs, .seq, .sync] slips (fun u => fired u ∧
        (u.so (bits e.param 13 0)).value = toU32 ((s.so (bits e.param 13 0)).value + 1) ∧
        (u.so (bits e.param 13 0)).lastWpos = e.x ∧
        ∀ o, o ≠ bits e.param 13 0 → u.so o = s.so o))

/-- For an entry of one lane m, with the state after the firing written f, no job running in the real-time partition, capture
and the line pipeline off, and no part open in the lane. PART_OPEN, lane enabled: the free table entry that freeEntry names (log
entry 23) becomes OPEN with the entry's position as origin, PART_NEXT_ID as its number and the lane's offsets and output;
PART_NEXT_ID counts on; strips, launches and threads that the entry's part before it had name it no more (R348); DECISION and EJECT_PASS entries stand at x + DEC_OFF and x + ON_OFF in the lane's part track, at two
indices that held none. A lane that is not enabled is skipped.
With no free entry: PART_OVF is counted, PART_FULL set and line stop requested. PART_CLOSE: the lane has no open part, so
CLOSE_NONE counts; a lane with an open part that Sheepdog does not check has it CLOSED. -/
def Obligations.PartsOpenAndClose : Prop :=
  ∀ (s : State) (t k : Nat) (e : SeqEntry) (m : Nat), s.canonical → s.calm → s.nextDue = some (t, k, e) →
    e.lanes = [m] → m < 64 →
    let f := s.firing t k e
    f.rtJob = none → s.flag R.ADP_CAP_CFG.ENABLE = false → s.flag R.LPIPE_CTL.ENABLE = false →
    (e.action = 2 → f.openOf m = none → s.sdg.proof = none →
      (s.flag (R.PSQ_LANE_CFG.ENABLE m) = false → exec .partOpen s = .next f) ∧
      (s.flag (R.PSQ_LANE_CFG.ENABLE m) = true → ∀ i dk ek, f.freeEntry = some i → f.trackRoom m = some (dk, ek) →
        s.completes .partOpen [.regs, .seq, .lp, .cores, .lists, .jobs, .flock] [R.PSQ_CNT_SLIP, R.PSQ_STATUS, R.PART_NEXT_ID] (fun u =>
          (let w := s.forget i; u.lp = w.lp ∧ u.cores = w.cores ∧ u.lists = w.lists ∧ u.jobs = w.jobs ∧ u.flock = w.flock) ∧
          (u.part i).core.state = .opened ∧ (u.part i).core.origin = e.x ∧ (u.part i).core.lane = m ∧
          (u.part i).core.id = s.get R.PART_NEXT_ID.ID ∧ u.get R.PART_NEXT_ID.ID = u32 (s.get R.PART_NEXT_ID.ID + 1) ∧
          (u.part i).core.decOff = s.get (R.PSQ_LANE_DEC_OFF.N m) ∧ (u.part i).core.onOff = s.get (R.PSQ_LANE_ON_OFF.N m) ∧
          (u.part i).core.offOff = s.get (R.PSQ_LANE_OFF_OFF.N m) ∧
          (u.part i).core.channel = s.get (R.PSQ_LANE_CFG.CHANNEL m) ∧ (u.part i).core.verdict = none ∧
          (u.entry dk).x = u64 (e.x + s.get (R.PSQ_LANE_DEC_OFF.N m)) ∧ (u.entry dk).action = 6 ∧ (u.entry dk).param = i ∧
          (u.entry ek).x = u64 (e.x + s.get (R.PSQ_LANE_ON_OFF.N m)) ∧ (u.entry ek).action = 7 ∧ (u.entry ek).param = i ∧
          i < 4096 ∧ (s.part i).core.state = .free ∧ dk < ek ∧ keyGet f.seq.entries dk = none ∧ keyGet f.seq.entries ek = none ∧
          ∀ j, j ≠ i → u.part j = s.part j)) ∧
      (s.flag (R.PSQ_LANE_CFG.ENABLE m) = true → f.freeEntry = none ∨ f.trackRoom m = none →
        s.completes .partOpen [.regs, .seq, .link, .loft]
          ([R.PSQ_CNT_SLIP, R.PSQ_STATUS, R.PSQ_CNT_PART_OVF] ++ lineStopOffsets) (fun u =>
          s.counts R.PSQ_CNT_PART_OVF.N 1 u ∧
          u.flag R.PSQ_STATUS.PART_FULL = true ∧ bit (u.get R.FLD_LS_CAUSE.CAUSE) 3 = true ∧ u.seq.parts = s.seq.parts))) ∧
    (e.action = 1 →
      (f.openOf m = none → s.completes .partClose [.regs, .seq] [R.PSQ_CNT_SLIP, R.PSQ_STATUS, R.PSQ_CNT_CLOSE_NONE] (fun u =>
        s.counts R.PSQ_CNT_CLOSE_NONE.N 1 u ∧ u.seq.parts = s.seq.parts)) ∧
      (∀ i, f.openOf m = some i → (s.part i).vd.capture = none → (∀ j, (s.part j).sdgOn = false) →
        s.completes .partClose [.regs, .seq] [R.PSQ_CNT_SLIP, R.PSQ_STATUS] (fun u =>
          u.part i = { s.part i with core := { (s.part i).core with state := .closed } } ∧ ∀ j, j ≠ i → u.part j = s.part j)))

/-- DECISION of a CLOSED part that Sheepdog does not check and capture does not hold, its program result not of this very
tick; the state after the firing is f. The verdict is REJECT_UNINSPECTED for an incomplete part or a stopped job, then
REJECT_FAULT, then REJECT_LATE without a combined result, else the program's code. If the lane's EJECT does not arm, the part's
entry is freed. If it arms and v is under 1,000 um/s the frame waits, the part DECIDED. If edges can be computed, no frame is
pending on the output, the lead is at least 502 us and the edge queue has room, EDGE_NEW goes out with the edges of R68 (PULSE_US
as before a pair that this very tick latched, R509) and a fresh tag, and the part is ARMED. A frame that goes out reaches the
downlink but while the test access port has the isolator pins (R503). -/
def Obligations.DecisionFixesVerdictAndArms : Prop :=
  ∀ (s : State) (t k : Nat) (e : SeqEntry), s.canonical → s.calm → s.nextDue = some (t, k, e) → e.action = 6 →
    let f := s.firing t k e
    let i := bits e.param 11 0
    let p := s.part i
    let c := p.core.channel
    p.core.state = .closed → p.sdgOn = false → p.vd.capture = none →
    (p.vd.result = none ∨ p.vd.resultTime ≠ s.dtime) →
    let code : Nat :=
      if p.vd.incomplete = true ∨ s.rtStopped = true then 7
      else if p.vd.faultMark = true ∨ p.vd.badResult = true then 6
      else if p.vd.combined = none ∨ p.vd.combined = some s.dtime then 5
      else fieldAt (p.vd.result.getD []) 4 1
    let arms := (s.get (R.PSQ_LANE_CFG.EJECT p.core.lane) = 1 ∧ code ≠ 0) ∨ (s.get (R.PSQ_LANE_CFG.EJECT p.core.lane) = 2 ∧ code = 0)
    ∃ u, exec .decision s = .next u ∧ s.changesOnly (touches .decision) u ∧
      (¬ arms → (u.part i).core.state = .free ∧ (u.part i).core.verdict = some code ∧ (u.part i).core.decDtime = s.dtime) ∧
      (arms → f.movingBase = none → (u.part i).core.state = .decided ∧ (u.part i).core.verdict = some code ∧
        u.seq.waiting = s.seq.waiting ++ [(c, s.partSrc i p)] ∧ u.link = s.link) ∧
      (arms → ∀ b, f.movingBase = some b → f.pendingOf c = none → f.edgesPending + 2 ≤ 4096 →
        let on := u64 (b.edge (u64 (p.core.origin + p.core.onOff)) + 2 ^ 64 - s.get (R.PSQ_Q_MODE.ADV_US c) * 1000)
        let off := if s.flag (R.PSQ_Q_MODE.DURATION c) then u64 (on + (s.pulsePair c).1 * 1000)
          else u64 (b.edge (u64 (p.core.origin + p.core.offOff)) + 2 ^ 64 - s.get (R.PSQ_Q_MODE.ADV_US c) * 1000)
        502000 ≤ diff64 on s.dtime →
          (u.part i).core.state = .armed ∧ (u.part i).core.verdict = some code ∧ (u.part i).core.tag = f.freshTag ∧
          (u.part i).core.onDtime = on ∧
          u.link.down = s.link.down ++ s.onPins [⟨s.link.downSeq,
            .edgeNew (Fin.ofNat 16 c) (BitVec.ofNat 16 f.freshTag) (BitVec.ofNat 64 on) (BitVec.ofNat 64 off)⟩] ∧
          u.seq.frames.length = s.seq.frames.length + 1 ∧ u.link.downSeq = u16 (s.link.downSeq + 1))

/-- EJECT_PASS of an ARMED part records the residual of R73 in the part alone. PULSE waits while no edges can be computed, and
otherwise, with no frame pending on its output, the lead kept and room in the edge queue, sends EDGE_NEW at the edges of R508.
EDGE_RECOMPUTE does nothing without a new base; with one, a pending frame of one source is parked by EDGE_HOLD, sent once, while
v is under 1,000 um/s, is corrected by EDGE_CORR when its edges are open and its on edge moves by PSQ_CORR.THRESH_NS or more,
and is left alone when both move by less. EDGE_REPORT_TIMEOUT does nothing while every frame is parked or under 2 ms past its off edge; a
frame beyond leaves the pending set, and its parts have EDGE_UNREPORTED and are freed. -/
def Obligations.EjectPassPulseAndReports : Prop :=
  ∀ s : State, s.canonical → s.calm →
    (∀ t k e, s.nextDue = some (t, k, e) → e.action = 7 → (s.part (bits e.param 11 0)).core.state = .armed →
      let i := bits e.param 11 0
      let p := s.part i
      s.completes .ejectPass [.regs, .seq, .loft] ([R.PSQ_CNT_SLIP, R.PSQ_STATUS] ++ lineStopOffsets) (fun u =>
        u.part i = { p with core := { p.core with
          residual := sat32 (diff64 s.dtime (u64 (p.core.onDtime + s.get (R.PSQ_Q_MODE.ADV_US p.core.channel) * 1000))) } } ∧
        ∀ j, j ≠ i → u.part j = s.part j)) ∧
    (∀ t k e, s.nextDue = some (t, k, e) → e.action = 8 →
      let q := bits e.param 3 0
      let src : EdgeSrc := { owner := none, onPos := u64 (e.x + bits e.param 63 36 * 1000), offPos := none
                             width := bits e.param 35 16 * 1000, fired := some s.dtime }
      (s.movingBase = none → s.completes .pulse [.regs, .seq] [R.PSQ_CNT_SLIP, R.PSQ_STATUS] (fun u =>
        u.seq.waiting = s.seq.waiting ++ [(q, src)])) ∧
      (∀ b, s.movingBase = some b → s.pendingOf q = none → s.edgesPending + 2 ≤ 4096 →
        let on := u64 (b.edge src.onPos + 2 ^ 64 - s.get (R.PSQ_Q_MODE.ADV_US q) * 1000)
        502000 ≤ diff64 on s.dtime →
        s.completes .pulse [.regs, .seq, .link] [R.PSQ_CNT_SLIP, R.PSQ_STATUS] (fun u =>
          u.link.down = s.link.down ++ s.onPins [⟨s.link.downSeq, .edgeNew (Fin.ofNat 16 q) (BitVec.ofNat 16 s.freshTag)
            (BitVec.ofNat 64 on) (BitVec.ofNat 64 (u64 (on + src.width)))⟩]))) ∧
    (s.pos.newBase = false → exec .edgeRecompute s = .next s) ∧
    (s.pos.newBase = true → s.seq.frames = [] → s.seq.waiting = [] →
      exec .edgeRecompute s = .next { s with pos := { s.pos with newBase := false } }) ∧
    (∀ f src, s.pos.newBase = true → s.seq.frames = [f] → s.seq.waiting = [] → f.parked = false → f.cancelled = false →
      f.srcs = [src] → f.behind = none →
      (s.movingBase = none → f.held = true → exec .edgeRecompute s = .next { s with pos := { s.pos with newBase := false } }) ∧
      (s.movingBase = none → f.held = false → 0 < diff64 f.off s.dtime → s.completes .edgeRecompute [.pos, .seq, .link] [] (fun u =>
        u.seq.frames = [{ f with parked := true, held := true }] ∧ u.link.down = s.link.down ++
          s.onPins [⟨s.link.downSeq, .edgeHold (Fin.ofNat 16 f.channel) (BitVec.ofNat 16 f.tag)⟩])) ∧
      (∀ b, s.movingBase = some b →
        let on := (s.edgesOf b f.channel src).1
        let off := (s.edgesOf b f.channel src).2
        let ahead (x : Nat) : Prop := 102000 ≤ diff64 x s.dtime
        (ahead f.on → ahead on → ahead f.off → ahead off → s.get R.PSQ_CORR.THRESH_NS ≤ (diff64 on f.on).natAbs →
          s.completes .edgeRecompute [.pos, .seq, .link] [] (fun u =>
            (u.seq.frames.map (fun g => (g.on, g.off)) = [(on, off)]) ∧ u.link.down = s.link.down ++
              s.onPins [⟨s.link.downSeq, .edgeCorr (Fin.ofNat 16 f.channel) (BitVec.ofNat 16 f.tag) (BitVec.ofNat 64 on)
                (BitVec.ofNat 64 off)⟩])) ∧
        (f.held = false → (diff64 on f.on).natAbs < s.get R.PSQ_CORR.THRESH_NS → (diff64 off f.off).natAbs < s.get R.PSQ_CORR.THRESH_NS →
          exec .edgeRecompute s = .next { s with pos := { s.pos with newBase := false } }))) ∧
    ((∀ f ∈ s.seq.frames, f.parked = true ∨ diff64 s.dtime f.off < 2000000) → exec .edgeReportTimeout s = .next s) ∧
    (∀ f, s.seq.frames.find? (fun f => !f.parked && decide (diff64 s.dtime f.off ≥ 2000000)) = some f →
      ∃ u, exec .edgeReportTimeout s = .next u ∧ s.changesOnly (touches .edgeReportTimeout) u ∧
        u.seq.frames = s.seq.frames.filter (fun g => g.tag != f.tag) ∧
        ∀ x ∈ f.srcs, ∀ i, x.owner = some i → (s.part i).core.state ≠ .free →
          (u.part i).core.state = .free ∧ bit (u.part i).core.flags 5 = true)

/-- PSQ_TBL_READ puts the 32 bytes of the entry of an index into the window, its next position in the place of WPOS, and
PART_WIN_READ the part-table entry's number, origin, lane, state, verdict, flags, tag, output channel, residual and ON_DTIME;
nothing but the window and its index changes. -/
def Obligations.ReadWindowsShowEntries : Prop :=
  ∀ (s : State) (k : BitVec 16) (i : BitVec 12), s.canonical → s.serves →
    let e := s.entry k.toNat
    let p := (s.part i.toNat).core
    s.completes (.psqTblRead k) [.regs] (R.PSQ_TBL_IDX :: (List.range 8).map R.PSQ_TBL_DATA) (fun t =>
      t.get R.PSQ_TBL_IDX.INDEX = k.toNat ∧
      (t.reg (R.PSQ_TBL_DATA 0)).toNat = e.x % 2 ^ 32 ∧ (t.reg (R.PSQ_TBL_DATA 1)).toNat = e.x / 2 ^ 32 % 2 ^ 32 ∧
      (t.reg (R.PSQ_TBL_DATA 2)).toNat = e.pitch % 2 ^ 32 ∧
      (t.reg (R.PSQ_TBL_DATA 3)).toNat
        = e.pitchFrac % 65536 + ((if e.valid then 1 else 0) + (if e.repeats then 2 else 0)) * 65536 ∧ (t.reg (R.PSQ_TBL_DATA 4)).toNat = e.count % 2 ^ 32 ∧
      (t.reg (R.PSQ_TBL_DATA 5)).toNat = e.action % 256 + e.tag % 65536 * 65536 ∧
      (t.reg (R.PSQ_TBL_DATA 6)).toNat = e.param % 2 ^ 32 ∧ (t.reg (R.PSQ_TBL_DATA 7)).toNat = e.param / 2 ^ 32 % 2 ^ 32) ∧
    s.completes (.partWinRead i) [.regs] (R.PART_WIN_IDX :: (List.range 8).map R.PART_WIN_DATA) (fun t =>
      t.get R.PART_WIN_IDX.INDEX = i.toNat ∧
      (t.reg (R.PART_WIN_DATA 0)).toNat = p.id % 2 ^ 32 ∧ (t.reg (R.PART_WIN_DATA 1)).toNat = p.origin % 2 ^ 32 ∧
      (t.reg (R.PART_WIN_DATA 2)).toNat = p.origin / 2 ^ 32 % 2 ^ 32 ∧
      (t.reg (R.PART_WIN_DATA 3)).toNat
        = p.lane % 256 + p.state.code * 256 + p.verdict.getD 255 % 256 * 65536 + p.flags % 256 * 2 ^ 24 ∧
      (t.reg (R.PART_WIN_DATA 4)).toNat = p.tag % 65536 + p.channel % 256 * 65536 ∧
      (t.reg (R.PART_WIN_DATA 5)).toNat = toU32 p.residual ∧ (t.reg (R.PART_WIN_DATA 6)).toNat = p.onDtime % 2 ^ 32 ∧
      (t.reg (R.PART_WIN_DATA 7)).toNat = p.onDtime / 2 ^ 32 % 2 ^ 32)

/-! ### Camera slots and the line pipeline -/

/-- The due entry names camera c alone. LINE_GATE, the camera's streams all off, no part open and no measurement under way, no
slot overdue and the place of the gate's slot free: the gate takes the slot with its tick, WPOS and the camera's table, and a
STREAMING camera is sent a trigger, whose fine delay ends at the gate tick plus TRIG_LAT; for a camera that is not STREAMING
the slot closes at once with every line MISSING and counted. STRIP_CUT of a TYPE 1 stream, no gate having fired on its tick:
without a gate in the current strip it counts in CUT_EMPTY and leaves the stream; with gates, those to come belong to the next
strip. ROI_APPLY of a disabled entry does nothing; of an enabled one that is not running, with fewer than four crops in its
stream and no steering update of this tick, it starts a crop from the first gate of its tick with the entry's columns, rows and
steering and the part that is open in its lane. -/
def Obligations.GatesCutsAndCrops : Prop :=
  ∀ (s : State) (t k : Nat) (e : SeqEntry) (c : Nat), s.canonical → s.calm → s.cams.length = 16 → c < 16 →
    s.nextDue = some (t, k, e) →
    let slips := [R.PSQ_CNT_SLIP, R.PSQ_STATUS]
    (e.action = 3 → setBits 16 e.param = [c] → (∀ j, j < 8 → s.strType c j = 0) → s.openParts c = [] → s.lp.meas = [] →
      let x := s.cam c
      let g := x.gates
      let n := if s.kind c = 2 then s.get (R.CXP_CAM_CFG.SENSOR_LINES c) + 1 else 1
      let pad := s.get (R.CXP_CAM_FMT.PAD c)
      let w := s.get (R.CXP_CAM_GEOM.WIDTH c)
      let slot (closed : Bool) (rel : Nat) (l : LineBuf) : Slot :=
        { gate := g, dtime := s.dtime, wpos := s.pos.wpos, width := w, pad := pad, depth := s.get (R.CXP_CAM_FMT.DEPTH c)
          late := s.get (R.CXP_CAM_LATE.LATE_NS c), rel := rel, closed := closed, lines := List.replicate n l }
      (∀ y ∈ x.slots, g < y.1 + max 1 (s.get (R.CXP_CAM_GEOM.SLOTS c)) ∧
        (y.2.closed = true ∨ s.dtime ≤ y.2.dtime + y.2.late)) →
      (s.camState c = 4 → s.completes .lineGate [.regs, .seq, .cams] slips (fun u =>
        let rel := if x.g0 = none then 0 else x.relNext
        (u.cam c).gates = g + 1 ∧ keyGet (u.cam c).slots g = some (slot false rel {}) ∧
        (u.cam c).gateLog.head? = some ⟨g, s.pos.wpos, s.dtime, rel, n⟩ ∧ (u.cam c).relNext = rel + n ∧
        (u.cam c).trigger = some (s.dtime, s.dtime + s.get (R.CXP_CAM_TRIG_LAT.NS c)) ∧
        (u.cam c).g0 = some (x.g0.getD g) ∧ ∀ d, d ≠ c → u.cam d = s.cam d)) ∧
      (s.camState c ≠ 4 → s.completes .lineGate [.regs, .seq, .cams] (R.CXP_CAM_MISSING c :: slips) (fun u =>
        (u.cam c).gates = g + 1 ∧ s.counts (R.CXP_CAM_MISSING.N c) n u ∧
        keyGet (u.cam c).slots g = some (slot true x.relNext { status := some 3, samples := List.replicate w pad, got := 0 }) ∧
        (u.cam c).trigger = x.trigger ∧ ∀ d, d ≠ c → u.cam d = s.cam d))) ∧
    (e.action = 4 → setBits 16 e.param = [c] →
      (s.lpOn c = false → exec .stripCut s = .next (s.firing t k e)) ∧
      (∀ j, s.lpOn c = true → s.stripStreams c = [j] → s.strType c j = 1 → (∀ r ∈ (s.cam c).gateLog, r.dtime ≠ s.dtime) →
        (∀ b ∈ (s.stream c j).starts, b.1 ≤ (s.cam c).gates) →
        ((s.stream c j).gatesIn = 0 → s.completes .stripCut [.regs, .seq] (R.LPIPE_CAM_CUT_EMPTY c :: slips) (fun u =>
          s.counts (R.LPIPE_CAM_CUT_EMPTY.N c) 1 u)) ∧
        (0 < (s.stream c j).gatesIn →
          ∃ u, exec .stripCut s = .next u ∧ s.changesOnly (touches .stripCut) u ∧ (u.stream c j).gatesIn = 0))) ∧
    (e.action = 5 →
      let i := bits e.param 15 0
      let d := s.get (R.LPIPE_CROP_CFG.CAMERA i)
      let j := s.get (R.LPIPE_CROP_CFG.STREAM i)
      (s.flag (R.LPIPE_CROP_CFG.ENABLE i) = false → exec .roiApply s = .next (s.firing t k e)) ∧
      (s.flag (R.LPIPE_CROP_CFG.ENABLE i) = true → s.lpOn d = true → s.strType d j = 3 → (s.stream d j).cropOf i = none →
        (s.stream d j).crops.length < 4 → (∀ w ∈ s.lp.steerWas, w.1 ≠ s.dtime) → s.completes .roiApply [.regs, .seq, .lp] slips (fun u =>
          ∃ r : CropRun, (u.stream d j).crops = (s.stream d j).crops ++ [r] ∧ r.entry = i ∧ r.gate = (s.gatesNow d).1 ∧
            r.part = s.openOf (s.get (R.LPIPE_CROP_CFG.LANE i)) ∧
            r.width = s.get (R.LPIPE_CROP_W.WIDTH i) ∧ r.rows = s.get (R.LPIPE_CROP_ROWS.ROWS i) ∧ r.strip = none ∧
            r.x0 = (clampInt ((s.get (R.LPIPE_CROP_X.X0 i) : Int) + s.getInt (R.LPIPE_CROP_STEER.DX i)) 0
              ((s.width d : Int) - (s.get (R.LPIPE_CROP_W.WIDTH i) : Int))).toNat ∧
            r.skip = max 0 ((s.get (R.LPIPE_CROP_ROWS.SKIP i) : Int) + s.getInt (R.LPIPE_CROP_STEER.DY i)))))

/-- STREAM_PACKET reaches the slots of a STREAMING camera over an ALIGNED lane in its map only. For a packet whose turn it is, no
other packet waiting and no slot overdue, between lines: one with a CRC failure counts in PKT_CRC, sets the parser to take up at
the next marker, and leaves every slot. A whole line, in a packet of the expected tag, whose number has a place in a pending
slot: it is OK, SHORT or LONG by its length against the width of the slot, and is held cut or padded to that width; the slot
closes when it was the last, and then each of its lines counts under its status; a part at the gate with PAD of a line too short
in its columns is incomplete from then on (R112). SLOT_DEADLINE does nothing while no pending
slot is older than the LATE_NS of its gate; a lone pending slot beyond closes, its absent lines MISSING, each line counted, and
the parts of its gate have the leaves of R143. -/
def Obligations.PacketsFillSlots : Prop :=
  ∀ (s : State) (lane : Fin 32) (tag : BitVec 8) (idx : BitVec 16) (xs : List (BitVec 16)), s.canonical → s.cams.length = 16 →
    let cnts (c : Nat) : List Nat := [R.CXP_CAM_LINES_OK c, R.CXP_CAM_SHORT c, R.CXP_CAM_LONG c, R.CXP_CAM_MISSING c,
      R.CXP_CAM_CORRUPT c]
    let counted (c : Nat) (ls : List LineBuf) (t : State) : Prop :=
      ∀ v ∈ [(0, R.CXP_CAM_LINES_OK.N c), (1, R.CXP_CAM_SHORT.N c), (2, R.CXP_CAM_LONG.N c), (3, R.CXP_CAM_MISSING.N c),
        (4, R.CXP_CAM_CORRUPT.N c)], s.counts v.2 (ls.filter (fun l => min 4 (l.status.getD 3) == v.1)).length t
    (let c := s.get (R.CXP_MAP.CAMERA lane.val)
    let x := s.cam c
    let conn := s.get (R.CXP_MAP.CONN lane.val)
    let live : Prop := s.flag (R.CXP_MAP.VALID lane.val) = true ∧ s.laneUp lane.val = true ∧ s.camState c = 4
    (∀ ok items, ¬ live → exec (.streamPacket lane tag ok items) s = .next s) ∧
    (live → x.rx = [] → x.nextTag = none ∨ (x.nextTag = some tag.toNat ∧ x.nextConn = conn) → x.cur = none →
      (∀ e ∈ x.slots, e.2.closed = true ∨ s.dtime ≤ e.2.dtime + e.2.late) →
      (∀ items, s.completes (.streamPacket lane tag false items) [.regs, .cams] [R.CXP_CAM_PKT_CRC c] (fun t =>
        s.counts (R.CXP_CAM_PKT_CRC.N c) 1 t ∧ (t.cam c).slots = x.slots ∧ (t.cam c).skipping = true ∧
        (t.cam c).nextTag = some ((tag.toNat + 1) % 256))) ∧
      (∀ src sl k, x.srcTag = some src → x.frameBad = false → x.skipping = false →
        (s.lineHome c (src * s.get (R.CXP_CAM_GEOM.FRAME_LINES c) + idx.toNat)).1 = .slot sl k →
        let n := xs.length
        let line : LineBuf := { status := some (if n < sl.width then 1 else if sl.width < n then 2 else 0), got := min n sl.width
                                samples := (xs.map (·.toNat)).take sl.width ++ List.replicate (sl.width - n) sl.pad }
        let ls := setNth sl.lines k line
        let padded (t : State) : Prop := ∀ i ∈ s.liveParts, colsCamera (s.part i).vd.cols = c → sl.gate ∈ (s.part i).vd.gates →
          (s.part i).core.state.undecided = true → n < sl.width → n ≤ colsLast (s.part i).vd.cols → (t.part i).vd.incomplete = true
        nth ls k {} = line ∧
        ((∃ l ∈ ls, l.status = none) → s.completes (.streamPacket lane tag true [.line idx xs false]) [.cams, .seq] [] (fun t =>
          padded t ∧ (t.cam c).slotOf sl.gate = some { sl with lines := ls })) ∧
        ((∀ l ∈ ls, l.status ≠ none) →
          s.completes (.streamPacket lane tag true [.line idx xs false]) [.regs, .cams, .seq] (cnts c) (fun t =>
            counted c ls t ∧ padded t ∧ (t.cam c).slotOf sl.gate = some { sl with lines := ls, closed := true }))))) ∧
    (∀ cam : Fin 16,
      let c := cam.val
      let x := s.cam c
      ((∀ e ∈ x.slots, e.2.closed = true ∨ s.dtime ≤ e.2.dtime + e.2.late) → exec (.slotDeadline cam) s = .next s) ∧
      (∀ sl, x.slots = [(sl.gate, sl)] → sl.closed = false → sl.dtime + sl.late < s.dtime →
        let ls := sl.lines.map (fun l => if l.status.isNone then
          { status := some 3, samples := List.replicate sl.width sl.pad, got := 0 } else l)
        let shut : Slot := { sl with closed := true, lines := ls }
        s.completes (.slotDeadline cam) [.regs, .cams, .seq] (cnts c) (fun t =>
          counted c ls t ∧ (t.cam c).slots = [(sl.gate, shut)] ∧
          ∀ i ∈ s.liveParts, colsCamera (s.part i).vd.cols = c → sl.gate ∈ (s.part i).vd.gates →
            keyGet (t.part i).vd.leaves sl.gate
              = some (slotLeaves shut (colsFirst (s.part i).vd.cols) (colsLast (s.part i).vd.cols)))))

/-- ROW_BUILD does nothing while the pipeline is off or a slot the row takes from is pending. For a monochrome camera without
tables or lens correction, its streams off but one TYPE 4 stream that gathers the first three of four rows, no measurement, no
part at the gate, no captured sample that wants rows and no part for Sheepdog: the row is counted, the next gate is next, and the stream holds the row of the gate, each
sample scaled to 16 bits and its flags those of the line's status. INPUT_DIGEST_FINAL of a part that is no longer OPEN and has
no digest yet: with the leaves of every gate there, the digest is the SHA-256 of the leaves, gate by gate, and the trailer;
otherwise it does nothing. -/
def Obligations.RowsAndInputDigests : Prop :=
  ∀ s : State, s.canonical → s.calm →
    (∀ cam : Fin 16, s.lpOn cam.val = false ∨ s.rowReady cam.val (nth s.lp.nextRow cam.val 0) = false →
      exec (.rowBuild cam) s = .next s) ∧
    (∀ (cam : Fin 16) (k : Nat) (sl : Slot) (l : LineBuf) (st : Nat),
      let c := cam.val
      let g := nth s.lp.nextRow c 0
      let x := s.stream c k
      s.lp.nextRow.length = 16 → s.lpOn c = true → k < 8 → s.strType c k = 4 → (∀ j, j < 8 → j ≠ k → s.strType c j = 0) →
      s.kind c = 0 → s.delayOf c 0 = 0 → keyGet s.lp.tables c = none → s.reg (R.LPIPE_CAM_LENS c 5) = 0 → s.lp.meas = [] →
      s.partsAt c g = [] → (∀ j, (s.part j).sdgOn = false) → s.adp.capLeft = [] →
      x.quad.length < 3 → x.quad.length = (g - x.first.getD 0) % 4 → x.first.getD 0 ≥ (s.cam c).g0.getD 0 →
      x.first ≠ none → g < (s.cam c).gates → (s.cam c).g0.getD 0 ≤ g → (s.cam c).slotOf g = some sl → sl.closed = true →
      sl.lines = [l] → l.status = some st → st < 5 → l.samples.length = s.width c → (∀ v ∈ l.samples, v < 2 ^ depthBits sl.depth) →
      s.completes (.rowBuild cam) [.regs, .lp] [R.LPIPE_CAM_ROWS c, R.LPIPE_CAM_DEFECT_NONE c, R.LPIPE_CAM_PADDED_ROWS c] (fun t =>
        s.counts (R.LPIPE_CAM_ROWS.N c) 1 t ∧ nth t.lp.nextRow c 0 = g + 1 ∧
        ∃ r : Row, (t.stream c k).quad = x.quad ++ [r] ∧ r.gate = g ∧
          r.flags = (if st = 0 then 0 else if st = 2 then 2 else 1) ∧
          r.plane 5 = l.samples.map (fun v => v * 2 ^ (16 - depthBits sl.depth)))) ∧
    (∀ part : Fin 4096,
      let i := part.val
      let p := s.part i
      let leaves := p.vd.gates.map (fun g => keyGet p.vd.leaves g)
      (p.core.state = .opened ∨ p.core.state = .free ∨ p.vd.digest.isSome = true ∨ none ∈ leaves →
        exec (.inputDigestFinal part) s = .next s) ∧
      (p.core.state ≠ .opened → p.core.state ≠ .free → p.vd.digest = none → none ∉ leaves →
        s.completes (.inputDigestFinal part) [.seq] [] (fun t =>
          t.part i = { p with vd := { p.vd with digest := some (sha256 (leaves.flatMap (·.getD []) ++ s.trailer p)) } } ∧
          ∀ j, j ≠ i → t.part j = s.part j)))

/-! ### Comma lanes -/

/-- LANE_SIGNAL_DETECT on a lane that is off does nothing; in a near-end loopback it notes the pin alone; else SIG_DET is set, and
NO_SIGNAL goes to CDR_ACQ. LANE_SIGNAL_LOSS clears SIG_DET, and a lane in CDR_ACQ or ACQUIRE goes to NO_SIGNAL; in a near-end
loopback it notes the pin alone, before CDR_ACQ only SIG_DET follows. CDR_LOCK takes CDR_ACQ to ACQUIRE, CDR_LOCK_LOSS takes
ACQUIRE, or ALIGNED where no camera has the lane, back to CDR_ACQ; in another state they do nothing. A running eye scan turns
INVALID where the signal or the clock is lost. A lane of a STREAMING camera that leaves ALIGNED takes the camera to LINK_DOWN
and counts it. ACQUIRE_GROUP outside ACQUIRE does nothing. On a lane without loopback, pattern and inversion the groups are
those that begin at each of ten bit positions in the ten bits before and these (before the first ten, the one group that they
are). Where one of them holds a comma: if it is valid and on the candidate boundary it counts on, else it is the candidate and
the count 1. Where none does: a group on the candidate boundary that is not valid leaves no candidate, a valid one moves the
disparity. At ACQ_COMMAS the lane enters ALIGNED. ALIGNED_GROUP outside ALIGNED does nothing; on such a lane the group is counted
and its byte given with the K and the error flag, to the link of a fabric port too that does not train. A good group
on the boundary leaves the error counts; wrong disparity counts in DISP, no code group in CV, with a free byte, and a comma off
the boundary in MIS_COMMA alone; each raises the score, and at LOA_LIMIT a lane that no camera has counts a loss and falls to
ACQUIRE. -/
def Obligations.LanesRiseAndFall : Prop :=
  ∀ (s : State) (lane : Fin 64) (g wrong : BitVec 10) (d : Fin 4), s.canonical → s.lanes.length = 64 →
    let n := lane.val
    let l := s.lane n
    let w := g.toNat
    let st := [R.LANE_L_STATUS n]
    let eye := [R.LANE_L_STATUS n, R.LANE_L_EYE_STAT n]
    let others (t : State) : Prop := ∀ m, m ≠ n → t.lane m = s.lane m
    let scan (t : State) : Prop := t.flag (R.LANE_L_EYE_STAT.BUSY n) = s.flag (R.LANE_L_EYE_STAT.BUSY n) ∧
      (s.flag (R.LANE_L_EYE_STAT.BUSY n) = true → t.flag (R.LANE_L_EYE_STAT.INVALID n) = true)
    let pin (b : Bool) : State := s.setLane n { l with pin := b }
    (s.flag (R.LANE_L_CFG.ENABLE n) = false → exec (.laneSignalDetect lane) s = .next s) ∧
    (s.flag (R.LANE_L_CFG.ENABLE n) = true →
      (s.nearEnd n = true → exec (.laneSignalDetect lane) s = .next (pin true)) ∧
      (s.nearEnd n = false → s.laneState n ≠ 1 →
        exec (.laneSignalDetect lane) s = .next ((pin true).raise (R.LANE_L_STATUS.SIG_DET n))) ∧
      (s.nearEnd n = false → s.laneState n = 1 → s.completes (.laneSignalDetect lane) [.regs, .lanes] st (fun t =>
        t.laneState n = 2 ∧ t.flag (R.LANE_L_STATUS.SIG_DET n) = true ∧ t.flag (R.LANE_L_STATUS.CDR_LOCK n) = false ∧
        t.lane n = { l with pin := true } ∧ others t))) ∧
    (s.nearEnd n = true → exec (.laneSignalLoss lane) s = .next (pin false)) ∧
    (s.nearEnd n = false → s.laneState n < 2 →
      exec (.laneSignalLoss lane) s = .next ((pin false).drop (R.LANE_L_STATUS.SIG_DET n))) ∧
    (s.nearEnd n = false → s.laneState n = 2 ∨ s.laneState n = 3 → s.completes (.laneSignalLoss lane) [.regs, .lanes] eye (fun t =>
      t.laneState n = 1 ∧ t.flag (R.LANE_L_STATUS.SIG_DET n) = false ∧ t.flag (R.LANE_L_STATUS.CDR_LOCK n) = false ∧
      t.lane n = LaneSt.anew { l with pin := false } ∧ others t ∧ scan t)) ∧
    (s.laneState n = 2 → s.completes (.cdrLock lane) [.regs, .lanes] st (fun t =>
      t.laneState n = 3 ∧ t.flag (R.LANE_L_STATUS.CDR_LOCK n) = true ∧ t.lane n = l.anew ∧ others t)) ∧
    (s.laneState n ≠ 2 → exec (.cdrLock lane) s = .next s) ∧
    (s.laneState n < 3 → exec (.cdrLockLoss lane) s = .next s) ∧
    (s.laneState n = 3 ∨ (s.laneState n = 4 ∧ n < 32 ∧ s.camOfLane n = none) →
      s.completes (.cdrLockLoss lane) [.regs, .lanes] eye (fun t =>
        t.laneState n = 2 ∧ t.flag (R.LANE_L_STATUS.CDR_LOCK n) = false ∧ t.lane n = l.anew ∧ others t ∧ scan t)) ∧
    (∀ c, n < 32 → s.laneState n = 4 → s.camOfLane n = some c → s.camState c = 4 →
      s.flag (R.CXP_CAM_CFG.STOP_ON_LOSS c) = false →
      let lost (t : State) : Prop := t.camState c = 5 ∧ s.counts (R.CXP_CAM_LINK_LOSS.N c) 1 t ∧
        t.flag (R.CXP_CAM_STATUS.LOSS_SEEN c) = true ∧ t.link = s.link ∧ scan t
      (s.nearEnd n = false → ∃ t, exec (.laneSignalLoss lane) s = .next t ∧ t.laneState n = 1 ∧ lost t) ∧
      (∃ t, exec (.cdrLockLoss lane) s = .next t ∧ t.laneState n = 2 ∧ lost t)) ∧
    (s.laneState n ≠ 3 → exec (.acquireGroup lane g wrong) s = .next s) ∧
    (s.laneState n ≠ 4 → exec (.alignedGroup lane g d) s = .next s) ∧
    (s.get (R.LANE_L_CFG.PATTERN n) = 0 → s.loop n = 0 → s.flag (R.LANE_L_CFG.RX_INV n) = false → s.laneState n = 3 →
      let commas := s.get (R.LANE_L_CFG.ACQ_COMMAS n)
      let group (k x : Nat) : Prop := (l.raw = none ∧ k = 0 ∧ x = w) ∨
        ∃ p, l.raw = some p ∧ k < 10 ∧ x = (p * 1024 + w) / 2 ^ ((10 - k) % 10) % 1024
      let stays (l2 : LaneSt) : Prop := exec (.acquireGroup lane g wrong) s = .next (s.setLane n { l2 with raw := some w })
      let ends (l2 : LaneSt) : Prop := (l2.count < commas → stays l2) ∧
        (commas ≤ l2.count → s.completes (.acquireGroup lane g wrong) [.regs, .lanes] st (fun t =>
          t.laneState n = 4 ∧ others t ∧ t.lane n = { l.anew with rdPos := l2.rdPos, last := l2.last, tx := l.tx }))
      l.count < commas ∨ l.count = 0 →
      (∀ k x, group k x → commaGroup x = true → (∀ j y, group j y → j ≠ k → commaGroup y = false) →
        (∀ q, l.cand = some k → decodeAt x l.rdPos = some q → ends { l with count := l.count + 1, rdPos := q.rd, last := x }) ∧
        (l.cand ≠ some k ∨ decodeAt x l.rdPos = none →
          ends { l with cand := some k, count := 1, rdPos := groupRd x, last := x })) ∧
      ((∀ k x, group k x → commaGroup x = false) →
        (∀ k x q, group k x → l.cand = some k → decodeAt x l.rdPos = some q → stays { l with rdPos := q.rd }) ∧
        (∀ k x, group k x → l.cand = some k → decodeAt x l.rdPos = none → stays { l with cand := none, count := 0 }) ∧
        ((∀ k x, group k x → l.cand ≠ some k) → stays l))) ∧
    (s.get (R.LANE_L_CFG.PATTERN n) = 0 → s.loop n = 0 → s.flag (R.LANE_L_CFG.RX_INV n) = false → s.laneState n = 4 →
      l.score < s.get (R.LANE_L_CFG.LOA_LIMIT n) → n < 32 ∨ s.get (R.GTS_G_STATUS.STATE ((n - 32) / 4)) ≠ 1 →
      let cg (u : State) : Nat := u.get64 (R.LANE_L_CG_LO.N n) (R.LANE_L_CG_HI.N n)
      let cgs := [R.LANE_L_CG_LO n, R.LANE_L_CG_HI n]
      let goes (parts : List Comp) (offs : List Nat) (p : State → Prop) : Prop :=
        s.completes (.alignedGroup lane g d) (parts ++ if n < 32 then [] else [.gts]) (offs ++ cgs) (fun t =>
          cg t = min (2 ^ 48 - 1) (cg s + 1) ∧ others t ∧ p t)
      let port := (n - 32) / 4
      let given (b : Nat) (ctl : Bool) (t : State) : Prop := 32 ≤ n → s.gts.ports.length = 8 →
        t.gport port = (s.gport port).symbol ((n - 32) % 4) (ctl, BitVec.ofNat 8 b)
      let bad (rd : Bool) (b : Nat) (ctl : Bool) : LaneSt :=
        { l with rdPos := rd, last := w, good := 0, score := l.score + 1, given := some (b, ctl, true) }
      let fewer : Prop := l.score + 1 < s.get (R.LANE_L_CFG.LOA_LIMIT n)
      let noCode : Prop := straddles l.last w = false ∧ decodeAt w false = none ∧ decodeAt w true = none
      (∀ x, straddles l.last w = false → decodeAt w l.rdPos = some x → goes [.regs, .lanes] [] (fun t => given x.byte x.ctl t ∧ t.lane n = { l with
        rdPos := x.rd, last := w, given := some (x.byte, x.ctl, false), good := (if l.good + 1 = 64 then 0 else l.good + 1)
        score := (if l.good + 1 = 64 then l.score - 1 else l.score) })) ∧
      (∀ x, straddles l.last w = true → decodeAt w l.rdPos = some x → fewer → goes [.regs, .lanes] [R.LANE_L_EVT n] (fun t =>
        s.counts (R.LANE_L_EVT.MIS_COMMA n) 1 t ∧ given x.byte x.ctl t ∧ t.lane n = bad x.rd x.byte x.ctl)) ∧
      (∀ x, straddles l.last w = false → decodeAt w l.rdPos = none → decodeAt w (!l.rdPos) = some x → fewer →
        goes [.regs, .lanes] [R.LANE_L_ERR n] (fun t =>
          s.counts (R.LANE_L_ERR.DISP n) 1 t ∧ given x.byte x.ctl t ∧ t.lane n = bad x.rd x.byte x.ctl)) ∧
      (noCode → fewer → goes [.regs, .lanes, .free] [R.LANE_L_ERR n] (fun t =>
        s.counts (R.LANE_L_ERR.CV n) 1 t ∧ ∃ b, b < 256 ∧ given b false t ∧ t.lane n = bad l.rdPos b false)) ∧
      (noCode → l.score + 1 = s.get (R.LANE_L_CFG.LOA_LIMIT n) → n < 32 → s.camOfLane n = none →
        goes [.regs, .lanes, .free] [R.LANE_L_ERR n, R.LANE_L_EVT n, R.LANE_L_STATUS n] (fun t =>
          t.laneState n = 3 ∧ s.counts (R.LANE_L_ERR.CV n) 1 t ∧ s.counts (R.LANE_L_EVT.LOA n) 1 t ∧
          t.flag (R.LANE_L_STATUS.LOA_SEEN n) = true ∧ t.lane n = { l.anew with raw := some w })))

/-- EYE_SCAN_START keeps PHASE, VOFF and DWELL in the control register. While a scan runs it sets OVERRUN, with a value out of
range RANGE, in a state before ACQUIRE NOLOCK, each of the flags whose row applies, and BUSY stays as it is; where none applies
it clears the result registers and sets BUSY with the three values latched. EYE_SCAN_DONE of a running scan clears BUSY, sets
DONE and shows 2^(DWELL+10) bits and the mismatches, no more than those bits and saturating in 32 bits. EYE_SCAN_ABORT of a
running scan clears BUSY and sets ABORTED: the counts shown so far are not stated, but lie within the scan. Without a running
scan, both change nothing. -/
def Obligations.EyeScans : Prop :=
  ∀ (s : State) (lane : Fin 64) (phase : BitVec 7) (voff : BitVec 9) (dwell : BitVec 5) (mis : BitVec 40),
    s.canonical → s.lanes.length = 64 →
    let n := lane.val
    let ctl := R.LANE_L_EYE_CTL n
    let stat := R.LANE_L_EYE_STAT n
    let busy (u : State) : Bool := u.flag (R.LANE_L_EYE_STAT.BUSY n)
    let bitsOf (u : State) : Nat := u.get64 (R.LANE_L_EYE_BITS_LO.N n) (R.LANE_L_EYE_STAT.BITS_HI n)
    let kept (u : State) : Prop := u.get (R.LANE_L_EYE_CTL.PHASE n) = phase.toNat ∧ u.get (R.LANE_L_EYE_CTL.VOFF n) = voff.toNat ∧
      u.get (R.LANE_L_EYE_CTL.DWELL n) = dwell.toNat
    let fits : Bool := decide (phase.toInt ≥ -32 ∧ phase.toInt ≤ 31 ∧ voff.toInt ≥ -127 ∧ voff.toInt ≤ 127 ∧ dwell.toNat ≤ 24)
    let stays (f : Fld) (u : State) : Prop := u.flag f = s.flag f
    (s.serves → busy s = true ∨ fits = false ∨ s.laneState n < 3 →
      s.completes (.eyeScanStart lane phase voff dwell) [.regs] [ctl, stat] (fun t => kept t ∧ busy t = busy s ∧
        (if busy s then t.flag (R.LANE_L_EYE_STAT.OVERRUN n) = true else stays (R.LANE_L_EYE_STAT.OVERRUN n) t) ∧
        (if fits then stays (R.LANE_L_EYE_STAT.RANGE n) t else t.flag (R.LANE_L_EYE_STAT.RANGE n) = true) ∧
        (if s.laneState n < 3 then t.flag (R.LANE_L_EYE_STAT.NOLOCK n) = true else stays (R.LANE_L_EYE_STAT.NOLOCK n) t))) ∧
    (s.serves → busy s = false → fits = true → 3 ≤ s.laneState n →
      s.completes (.eyeScanStart lane phase voff dwell) [.regs, .lanes]
        [ctl, stat, R.LANE_L_EYE_ERR n, R.LANE_L_EYE_BITS_LO n] (fun t =>
        kept t ∧ busy t = true ∧ bitsOf t = 0 ∧ t.get (R.LANE_L_EYE_ERR.N n) = 0 ∧
        t.lane n = { s.lane n with dwell := dwell.toNat, phase := phase.toInt, voff := voff.toInt } ∧
        ∀ m, m ≠ n → t.lane m = s.lane m)) ∧
    (busy s = false → exec (.eyeScanDone lane mis) s = .next s ∧ (s.serves → exec (.eyeScanAbort lane) s = .next s)) ∧
    (busy s = true → (s.lane n).dwell ≤ 24 →
      s.completes (.eyeScanDone lane mis) [.regs] [stat, R.LANE_L_EYE_ERR n, R.LANE_L_EYE_BITS_LO n] (fun t =>
        busy t = false ∧ t.flag (R.LANE_L_EYE_STAT.DONE n) = true ∧ bitsOf t = 2 ^ ((s.lane n).dwell + 10) ∧
        t.get (R.LANE_L_EYE_ERR.N n) = min (2 ^ 32 - 1) (min mis.toNat (2 ^ ((s.lane n).dwell + 10)))) ∧
      (s.serves → s.completes (.eyeScanAbort lane) [.regs, .free] [stat, R.LANE_L_EYE_ERR n, R.LANE_L_EYE_BITS_LO n] (fun t =>
        busy t = false ∧ t.flag (R.LANE_L_EYE_STAT.ABORTED n) = true ∧ bitsOf t < 2 ^ ((s.lane n).dwell + 10) ∧
        t.get (R.LANE_L_EYE_ERR.N n) ≤ bitsOf t)))

/-! ### Cameras: discovery and control -/

/-- REDISCOVER starts discovery REDISC_MS after LINK_DOWN, not before, with the trigger latency of CXP-1; the lanes of the group
are the camera's alone. DISCOVER_LANES_ALIGNED, the group aligned within ALIGN_MS, goes on to read the CXP standard, or in
CONFIG to CHECK with the rate, the lanes and the trigger latency; later it is DISCOVER_ALIGN_TIMEOUT, which before ALIGN_MS does
nothing and after it fails with 1 in DISCOVER; in CONFIG the lanes go to the next lower rate, no reply to the write of it being
awaited, or it fails with 4 at MIN_RATE. CONTROL_REPLY over
an ALIGNED lane within CTRL_MS carries each step: the standard's value or failure 1; the device of each lane with its map entry,
failure 3 where it is another, failure 2 where connection indices lack; the two values read from the camera; CONFIG at the
group's rate; the width or failure 5; the pixel format and STREAMING, with the lane map as discovery found it, or failure 6. An error reply counts as none. After CTRL_MS a
reply or CONTROL_TIMEOUT fails with 7; before it CONTROL_TIMEOUT does nothing. A client's access ends with the reply's value,
CAM_NAK or after CTRL_MS CAM_TIMEOUT, and none is left. -/
def Obligations.CameraDiscoverySteps : Prop :=
  ∀ (s : State) (cam : Fin 16) (v : BitVec 32) (conn : Fin 8), s.canonical → s.cams.length = 16 →
    let c := cam.val
    let x := s.cam c
    let stat := [R.CXP_CAM_STATUS c]
    let fails (i : Instr) (reason : Nat) : Prop := s.completes i [.regs, .cams] stat (fun t =>
      t.camState c = 6 ∧ t.get (R.CXP_CAM_STATUS.REASON c) = reason ∧ (t.cam c).disc = .idle ∧ ∀ d, d ≠ c → t.cam d = s.cam d)
    let goes (i : Instr) (y : CamSt) (d : Disc) : Prop := exec i s = .next (s.setCam c { y with disc := d, since := s.dtime })
    let redisc := x.since + s.get R.CXP_CTL.REDISC_MS * 1000000
    let ends (t0 : Nat) : Nat := t0 + s.get R.CXP_CTL.ALIGN_MS * 1000000
    let limit := x.since + s.get R.CXP_CTL.CTRL_MS * 1000000
    let lanes := 2 ^ s.get (R.CXP_CAM_CFG.LANES c)
    let mine : Prop := ∀ n ∈ s.camLanes c, n < 32 ∧ s.camOfLane n = some c
    let reply : Instr := .controlReply cam true v conn
    let tries (i : Instr) (r : Nat) (p : State → Prop) : Prop := ∃ t, exec i s = .next t ∧
      s.changesOnly [.regs, .lanes, .cams, .free] t ∧ (t.cam c).disc = .alignAt r s.dtime ∧
      (∀ n ∈ s.camLanes c, t.get (R.LANE_L_STATUS.RATE_NOW n) = r) ∧ p t
    (s.camState c ≠ 5 ∨ s.dtime < redisc → exec (.rediscover cam) s = .next s) ∧
    (s.camState c = 5 → redisc ≤ s.dtime → mine → ∃ t, exec (.rediscover cam) s = .next t ∧
      s.changesOnly [.regs, .lanes, .cams, .free] t ∧ t.camState c = 1 ∧ t.get (R.CXP_CAM_STATUS.REASON c) = 0 ∧
      t.get (R.CXP_CAM_TRIG_LAT.NS c) = 2400 ∧
      (t.cam c).disc = .align s.dtime ∧ (t.cam c).conns = [] ∧ ∀ d, d ≠ c → t.cam d = s.cam d) ∧
    (s.groupAligned c = false → exec (.discoverLanesAligned cam) s = .next s) ∧
    (s.groupAligned c = true → (∀ t0, x.disc = .align t0 → s.dtime < ends t0 → goes (.discoverLanesAligned cam) x .readStd) ∧
      (∀ r t0, x.disc = .align t0 ∨ x.disc = .alignAt r t0 → ends t0 ≤ s.dtime →
        exec (.discoverLanesAligned cam) s = exec (.discoverAlignTimeout cam) s) ∧
      (∀ r t0, x.disc = .alignAt r t0 → s.dtime < ends t0 → s.camState c ≠ 4 → r < 16 →
        s.completes (.discoverLanesAligned cam) [.regs, .cams] [R.CXP_CAM_STATUS c, R.CXP_CAM_TRIG_LAT c] (fun t =>
          t.camState c = 3 ∧ t.get (R.CXP_CAM_STATUS.RATE_NOW c) = r ∧ t.get (R.CXP_CAM_STATUS.LANES_NOW c) = lanes ∧
          t.get (R.CXP_CAM_TRIG_LAT.NS c) = (if r ≥ 6 then 1200 else 2400) ∧ (t.cam c).disc = .readWidthAddr))) ∧
    (∀ t0 r, x.disc = .align t0 ∨ x.disc = .alignAt r t0 → s.dtime < ends t0 →
      exec (.discoverAlignTimeout cam) s = .next s) ∧
    (∀ t0, x.disc = .align t0 → ends t0 ≤ s.dtime → fails (.discoverAlignTimeout cam) 1) ∧
    (∀ t0 r, x.disc = .alignAt r t0 → ends t0 ≤ s.dtime →
      (r ≤ s.get (R.CXP_CAM_CFG.MIN_RATE c) → fails (.discoverAlignTimeout cam) 4) ∧
      (s.get (R.CXP_CAM_CFG.MIN_RATE c) < r → r ≤ 16 → mine → s.camState c ≠ 4 → tries (.discoverAlignTimeout cam) (r - 1) (fun _ => True))) ∧
    (s.replyLane c = false → ∀ ok, exec (.controlReply cam ok v conn) s = .next s) ∧
    (s.replyLane c = true → x.access = none → s.dtime < limit →
      (x.disc = .readStd → (v.toNat = cxpStandard → goes reply x (.readId 0)) ∧ (v.toNat ≠ cxpStandard → fails reply 1)) ∧
      (∀ k, x.disc = .readId k → s.get (R.CXP_CAM_CFG.LANE_BASE c) + k < 32 →
        let n := s.get (R.CXP_CAM_CFG.LANE_BASE c) + k
        let named (d : Disc) : Prop := s.completes reply [.regs, .cams] [R.CXP_MAP n] (fun t =>
          t.flag (R.CXP_MAP.VALID n) = true ∧ t.get (R.CXP_MAP.CAMERA n) = c ∧ t.get (R.CXP_MAP.CONN n) = conn.val ∧
          t.cam c = { x with disc := d, since := s.dtime, deviceId := v.toNat, conns := x.conns ++ [conn.val] })
        (0 < k → x.deviceId ≠ v.toNat → fails reply 3) ∧
        (k = 0 ∨ x.deviceId = v.toNat → k + 1 < lanes → named (.readId (k + 1))) ∧
        (k = 0 ∨ x.deviceId = v.toNat → lanes ≤ k + 1 → (∀ i, i < lanes → i ∈ x.conns ++ [conn.val]) → named .readConnDefault) ∧
        (k = 0 ∨ x.deviceId = v.toNat → lanes ≤ k + 1 → (∃ i, i < lanes ∧ i ∉ x.conns ++ [conn.val]) →
          ∃ t, exec reply s = .next t ∧ t.camState c = 6 ∧ t.get (R.CXP_CAM_STATUS.REASON c) = 2)) ∧
      (x.disc = .readConnDefault → goes reply { x with connDefault := v.toNat } .readPacketMax) ∧
      (x.disc = .readPacketMax → goes reply { x with packetMax := v.toNat } .writeHost) ∧
      (x.disc = .writeHost → mine → tries reply (s.groupRate c) (fun t => t.camState c = 2)) ∧
      (x.disc = .readWidthAddr → goes reply x (.readWidth v.toNat)) ∧
      (∀ a, x.disc = .readWidth a → (v.toNat = s.get (R.CXP_CAM_GEOM.WIDTH c) → goes reply x (.readFmtAddr a)) ∧
        (v.toNat ≠ s.get (R.CXP_CAM_GEOM.WIDTH c) → fails reply 5)) ∧
      (∀ a, x.disc = .readFmtAddr a → goes reply x (.readFmt a v.toNat)) ∧
      (∀ a b, x.disc = .readFmt a b →
        (v.toNat = s.get (R.CXP_CAM_PFNC.N c) → s.completes reply [.regs, .cams] (stat ++ (s.camLanes c).map R.CXP_MAP) (fun t =>
          (∀ k, k < lanes → k < x.conns.length → let n := s.get (R.CXP_CAM_CFG.LANE_BASE c) + k
            t.flag (R.CXP_MAP.VALID n) = true ∧ t.get (R.CXP_MAP.CAMERA n) = c ∧ t.get (R.CXP_MAP.CONN n) = nth x.conns k 0 % 8) ∧
          t.camState c = 4 ∧ (t.cam c).disc = .idle ∧ (t.cam c).widthAddr = some a ∧ (t.cam c).fmtAddr = some b ∧
          (t.cam c).g0 = none ∧ (t.cam c).gates = x.gates ∧ (t.cam c).slots = x.slots)) ∧
        (v.toNat ≠ s.get (R.CXP_CAM_PFNC.N c) → fails reply 6)) ∧
      (x.disc.waiting = true → exec (.controlReply cam false v conn) s = .next s)) ∧
    (x.access = none → (x.disc.waiting = false ∨ s.dtime < limit → exec (.controlTimeout cam) s = .next s) ∧
      (x.disc.waiting = true → limit ≤ s.dtime → fails (.controlTimeout cam) 7 ∧
        (s.replyLane c = true → ∀ ok, fails (.controlReply cam ok v conn) 7))) ∧
    (x.disc = .idle → ∀ a, x.access = some a → ∀ q, s.client.started.find? (fun y => y.ring == a.ring && y.index == a.index) = some q →
      let free := s.setCam c { x with access := none }
      let late := a.since + s.get R.CXP_CTL.CTRL_MS * 1000000
      (s.replyLane c = true → s.dtime < late → exec reply s = .next (free.complete q .ok (if a.read then v.toNat else 0)) ∧
        exec (.controlReply cam false v conn) s = .next (free.complete q .camNak 0)) ∧
      (s.replyLane c = true → late ≤ s.dtime → ∀ ok, exec (.controlReply cam ok v conn) s = .next (free.complete q .camTimeout 0)) ∧
      (late ≤ s.dtime → exec (.controlTimeout cam) s = .next (free.complete q .camTimeout 0)) ∧
      (s.dtime < late → exec (.controlTimeout cam) s = .next s))

/-! ### The field side -/

/-- r is the state after a frame has been taken off the link: one out of order is reported as SEQ_GAP with the first missing
SEQ and their number. EDGE_NEW is rejected with MODE if that applies, else the lowest reason that applies; accepted, its pulse
stands last in the queue and the queue's peak follows. The other edge frames are rejected with MODE too, and with the reason of
an unknown tag. EDGE_CORR of a parked pulse unparks it with times that meet the lead rule and have ON < OFF; of another, each
edge with an open window for its held and new value is replaced, the frame refused if ON >= OFF would result, WINDOW if neither
moves. EDGE_HOLD parks and EDGE_CANCEL removes a pulse whose on window is open, CANCELLED reported; else WINDOW is reported and
the pulse stays. With the logic side's rails off nothing takes what the controller reports, and no register follows. On the link
a frame of either direction is 24 bytes with a good CRC and its SEQ at byte 20; EDGE_NEW's carry
the type, the channel, the tag and the two times. -/
def Obligations.FieldJudgesEdgeFrames : Prop :=
  ∀ (s : State) (seq tag : BitVec 16) (ch : Fin 16) (on off : BitVec 64), s.canonical →
    let f := s.field
    let q := ch.val
    let rejects (i : Instr) (r : State) (reason : Nat) : Prop := exec i s = .next (r.rejectUp reason tag.toNat seq.toNat 0)
    let works : Prop := f.mode = .run ∧ (s.out q).mode = 1
    let lead (t : Nat) : Int := diff64 t f.ftime
    (∀ m, let r := s.receive seq.toNat m
      s.changesOnly [.field, .link] r ∧ r.field.expSeq = u16 (seq.toNat + 1) ∧ r.link.down = s.link.down.erase ⟨seq.toNat, m⟩ ∧
      r.field.pulses = f.pulses ∧ r.field.outs = f.outs ∧ r.field.ftime = f.ftime ∧
      (seq.toNat = f.expSeq → r.link.up = s.link.up) ∧
      (f.expSeq < 65536 → seq.toNat ≠ f.expSeq → ∃ n : BitVec 16, r.link.up = s.link.up ++
        s.onLink [⟨f.upSeq, .reject 2 0 (BitVec.ofNat 16 f.expSeq) n⟩] ∧ (f.expSeq + n.toNat) % 65536 = seq.toNat)) ∧
    (let r := s.receive seq.toNat (.edgeNew ch tag on off)
     let i := Instr.edgeNew seq ch tag on off
     let overlap : Prop := ∃ p ∈ f.pulses, p.channel = q ∧ p.parked = false ∧ diff64 on.toNat p.off < 0 ∧ 0 < diff64 off.toNat p.on
     (¬ works → rejects i r 9) ∧
     (works → lead on.toNat < 500000 → rejects i r 3) ∧
     (works → 500000 ≤ lead on.toNat →
       (diff64 off.toNat on.toNat ≤ 0 → rejects i r 4) ∧
       (0 < diff64 off.toNat on.toNat →
         ((∃ p ∈ f.pulses, p.tag = tag.toNat) → rejects i r 6) ∧
         ((∀ p ∈ f.pulses, p.tag ≠ tag.toNat) →
           (4096 < s.edgeqUsed + 2 → rejects i r 7) ∧
           (s.edgeqUsed + 2 ≤ 4096 → overlap → rejects i r 8) ∧
           (s.edgeqUsed + 2 ≤ 4096 → ¬ overlap → s.completes i [.regs, .field, .link] [R.FLD_EDGEQ] (fun t =>
             t.field.pulses = f.pulses ++ [{ channel := q, tag := tag.toNat, on := on.toNat, off := off.toNat }] ∧
             t.link = r.link ∧ t.edgeqUsed = s.edgeqUsed + 2 ∧
             (s.boot.power = true → t.get R.FLD_EDGEQ.PEAK = max (s.get R.FLD_EDGEQ.PEAK) (s.edgeqUsed + 2)))))))) ∧
    (∀ p, works → f.pulses.find? (fun x => x.tag == tag.toNat) = some p →
      let swap (x : Pulse) : List Pulse := f.pulses.map (fun y => if y.tag = tag.toNat then x else y)
      let parts := [Comp.field, .link]
      let open_ : Prop := p.parked = true ∨ (p.onFired = none ∧ 100000 ≤ lead p.on)
      (let r := s.receive seq.toNat (.edgeCorr ch tag on off)
       let i := Instr.edgeCorr seq ch tag on off
       (p.parked = true → lead on.toNat < 500000 → rejects i r 3) ∧
       (p.parked = true → 500000 ≤ lead on.toNat → diff64 off.toNat on.toNat ≤ 0 → rejects i r 4) ∧
       (p.parked = true → 500000 ≤ lead on.toNat → 0 < diff64 off.toNat on.toNat → s.completes i parts [] (fun t =>
         t.field.pulses = swap { p with on := on.toNat, off := off.toNat, parked := false } ∧ t.link = r.link)) ∧
       (p.parked = false →
         let a : Bool := p.onFired.isNone && decide (100000 ≤ lead p.on ∧ 100000 ≤ lead on.toNat)
         let b : Bool := decide (100000 ≤ lead p.off ∧ 100000 ≤ lead off.toNat)
         let on' := if a then on.toNat else p.on
         let off' := if b then off.toNat else p.off
         (diff64 off' on' ≤ 0 → rejects i r 4) ∧
         (0 < diff64 off' on' → a = false → b = false → rejects i r 10) ∧
         (0 < diff64 off' on' → a = true ∨ b = true → s.completes i parts [] (fun t =>
           t.field.pulses = swap { p with on := on', off := off' } ∧ t.link = r.link)))) ∧
      (let r := s.receive seq.toNat (.edgeHold ch tag)
       (open_ → s.completes (.edgeHold seq ch tag) parts [] (fun t =>
         t.field.pulses = swap { p with parked := true } ∧ t.link = r.link)) ∧
       (¬ open_ → rejects (.edgeHold seq ch tag) r 10)) ∧
      (let r := s.receive seq.toNat (.edgeCancel ch tag)
       (open_ → s.completes (.edgeCancel seq ch tag) [.field, .link, .free] [] (fun t =>
         t.field.pulses = f.pulses.filter (fun x => x.tag != tag.toNat) ∧ t.link.down = r.link.down ∧
         ∃ x y, (∀ w, p.onFired = some w → x = BitVec.ofNat 64 w) ∧ t.link.up = r.link.up ++ s.onLink [⟨r.field.upSeq,
           .edgeDone (Fin.ofNat 16 p.channel) (Fin.ofNat 16 (3 + if p.late then 8 else 0)) tag x y⟩])) ∧
       (¬ open_ → rejects (.edgeCancel seq ch tag) r 10))) ∧
    (let refused (reason : Nat) : Prop :=
       rejects (.edgeHold seq ch tag) (s.receive seq.toNat (.edgeHold ch tag)) reason ∧
       rejects (.edgeCancel seq ch tag) (s.receive seq.toNat (.edgeCancel ch tag)) reason ∧
       rejects (.edgeCorr seq ch tag on off) (s.receive seq.toNat (.edgeCorr ch tag on off)) reason
     (¬ works → refused 9) ∧ (works → (∀ p ∈ f.pulses, p.tag ≠ tag.toNat) → refused 5)) ∧
    (∀ n m, let b := DownFrame.bytes ⟨n, m⟩
      b.length = 24 ∧ frameGood b = true ∧ fieldAt b 20 2 = n % 65536 ∧
      (m = .edgeNew ch tag on off → fieldAt b 0 1 = 1 ∧ fieldAt b 1 1 = q ∧ fieldAt b 2 2 = tag.toNat ∧
        fieldAt b 4 8 = on.toNat ∧ fieldAt b 12 8 = off.toNat)) ∧
    (∀ n m, let b := UpFrame.bytes ⟨n, m⟩
      b.length = 24 ∧ frameGood b = true ∧ fieldAt b 20 2 = n % 65536)

/-- r is the state after the frame has been taken off the link. HEARTBEAT keeps its RUN and FTIME, answers with STATUS, which has
what the controller measures, first reporting the pulses flushed, LATE with those whose on edge fired late; a sync edge within
1,000 ns steps FTIME to its DTIME, another is counted. The line-stop outputs are on exactly in state RUN with RUN 1, the supply
present and no hold. OUT_CFG and IN_CFG set their channel alone and keep the entries queued; OUT_SET sets every static level, held
while in SAFE; LS_SET with RUN 1 ends the hold of LS_FAULT; RESUME takes SAFE to RUN only within 200 us after a good HEARTBEAT,
and applies held levels. OPEN_OFF ends where OPEN_EN goes to 0 or the output turns on. A frame with a bad CRC is reported with the
SEQ expected, which stays. With the logic side's rails off nothing takes a report, and no register follows. -/
def Obligations.FieldTakesControlFrames : Prop :=
  ∀ (s : State) (seq : BitVec 16) (run : Bool) (dt : BitVec 64) (ch : Fin 16) (mode func : Fin 4) (safe openEn : Bool)
    (us level vsup : BitVec 16) (vtemp : BitVec 8) (lsA lsB : Bool), s.canonical → s.field.outs.length = 16 →
    s.field.ins.length = 16 →
    let f := s.field
    let qs := (List.range 16).map R.FLD_Q_STATUS
    let openEnds (t : State) : Prop := s.boot.power = true → ∀ q, q < 16 → (s.out q).openOff = true → (t.out q).openOff = false →
      t.flag (R.FLD_Q_STATUS.OPEN_OFF q) = false
    let energised (u : State) : Prop := u.field.lsOn = (u.field.powered && u.field.mode == .run && u.field.lsRun &&
      !u.field.supplyLow && !u.field.lsFaultHold)
    (let r := s.receive seq.toNat (.heartbeat run dt)
     let i := Instr.heartbeat seq ⟨run, dt⟩ ⟨vsup, vtemp, lsA, lsB⟩
     let done (t : State) : Prop := t.field.lastHb = some t.field.ftime ∧ t.field.lsRun = run ∧ energised t ∧
       t.field.syncEdge = none ∧ t.field.mode = f.mode ∧ t.field.pulses = f.pulses ∧ t.field.outs = f.outs ∧ t.field.flushed = [] ∧
       t.link.down = r.link.down
     let status (t : State) (q : Nat) : UpFrame := ⟨q, .status (Fin.ofNat 4 f.mode.code) (BitVec.ofNat 16 s.inLevels)
       (BitVec.ofNat 32 s.outFlags) vsup vtemp lsA lsB (BitVec.ofNat 16 s.edgeqUsed) seq⟩
     (f.syncEdge = none → f.flushed = [] → s.completes i [.field, .link] [] (fun t => done t ∧ t.field.ftime = f.ftime ∧
       t.link.up = r.link.up ++ s.onLink [status t r.field.upSeq])) ∧
     (f.syncEdge = none → ∀ p, f.flushed = [p] → s.completes i [.field, .link, .free] [] (fun t => done t ∧
       ∃ x y, (∀ w, p.onFired = some w → x = BitVec.ofNat 64 w) ∧ t.link.up = r.link.up ++ s.onLink [⟨r.field.upSeq,
         .edgeDone (Fin.ofNat 16 p.channel) (Fin.ofNat 16 (4 + if p.late then 8 else 0)) (BitVec.ofNat 16 p.tag) x y⟩,
         status t (u16 (r.field.upSeq + 1))])) ∧
     (∀ e, f.syncEdge = some e → f.flushed = [] → (diff64 dt.toNat e).natAbs ≤ 1000 → s.completes i [.field, .link] [] (fun t =>
       done t ∧ t.field.ftime = u64 (f.ftime + toU64 (diff64 dt.toNat e)) ∧ t.field.lastSync = some t.field.ftime ∧
       t.link.up = r.link.up ++ s.onLink [status t r.field.upSeq])) ∧
     (∀ e, f.syncEdge = some e → f.flushed = [] → 1000 < (diff64 dt.toNat e).natAbs →
       s.completes i [.regs, .field, .link] [R.FLD_CNT_SYNC_REJ] (fun t => done t ∧ t.field.ftime = f.ftime ∧
         (s.boot.power = true → s.counts R.FLD_CNT_SYNC_REJ.N 1 t) ∧ t.link.up = r.link.up ++ s.onLink [status t r.field.upSeq]))) ∧
    (let r := s.receive seq.toNat (.outCfg ch mode safe openEn us)
     s.completes (.outCfg seq ch mode safe openEn us) [.regs, .field, .link] [R.FLD_Q_STATUS ch.val] (fun t => t.link = r.link ∧
       openEnds t ∧ (openEn = false → (t.out ch.val).openOff = false) ∧
       (t.out ch.val).mode = mode.val ∧ (t.out ch.val).safe = safe ∧ (t.out ch.val).openEn = openEn ∧
       (t.out ch.val).ovlUs = us.toNat ∧ (t.out ch.val).static = (s.out ch.val).static ∧
       (∀ q, q ≠ ch.val → t.out q = s.out q) ∧ t.edgeqUsed = s.edgeqUsed ∧
       t.field.pulses.map (fun p => (p.channel, p.tag, p.on, p.off)) = f.pulses.map (fun p => (p.channel, p.tag, p.on, p.off)))) ∧
    (let r := s.receive seq.toNat (.outSet level)
     s.completes (.outSet seq level) [.regs, .field, .link] qs (fun t => t.link = r.link ∧ t.field.pulses = f.pulses ∧ openEnds t ∧
       ∀ q, q < 16 →
         (f.mode = .safe → t.out q = { s.out q with heldStatic := some (bit level.toNat q) }) ∧
         (f.mode ≠ .safe → (t.out q).static = bit level.toNat q ∧ (t.out q).heldStatic = (s.out q).heldStatic ∧
           (t.out q).mode = (s.out q).mode))) ∧
    (let r := s.receive seq.toNat (.lsSet run)
     s.completes (.lsSet seq run) [.field, .link] [] (fun t => t.link = r.link ∧ t.field.lsRun = run ∧ energised t ∧
       t.field.lsFaultHold = (f.lsFaultHold && !run) ∧ t.field.outs = f.outs ∧ t.field.pulses = f.pulses)) ∧
    (let r := s.receive seq.toNat .resume
     let recent : Prop := ∃ t0, f.lastHb = some t0 ∧ diff64 f.ftime t0 ≤ 200000
     (f.mode ≠ .safe ∨ ¬ recent → exec (.resume seq) s = .next r) ∧
     (f.mode = .safe → recent → s.completes (.resume seq) [.regs, .field, .link] qs (fun t => t.link = r.link ∧ t.field.mode = .run ∧
       energised t ∧ openEnds t ∧ ∀ q, q < 16 →
         t.settled q { s.out q with static := (s.out q).heldStatic.getD (s.out q).static, heldStatic := none }))) ∧
    (let r := s.receive seq.toNat (.inCfg ch us func)
     s.completes (.inCfg seq ch us func) [.field, .link] [] (fun t => t.link = r.link ∧
       (nth t.field.ins ch.val {}).filtUs = us.toNat ∧ (nth t.field.ins ch.val {}).func = func.val ∧
       (nth t.field.ins ch.val {}).level = (nth f.ins ch.val {}).level ∧ t.field.pulses = f.pulses ∧
       ∀ n, n ≠ ch.val → nth t.field.ins n {} = nth f.ins n {})) ∧
    s.completes .downlinkBadFrame [.field, .link] [] (fun t => t.link.down = s.link.down.drop 1 ∧ t.field.expSeq = f.expSeq ∧
      t.link.up = s.link.up ++ s.onLink [⟨f.upSeq, .reject 1 0 (BitVec.ofNat 16 f.expSeq) 0⟩] ∧ t.field.pulses = f.pulses)

/-- EDGE_FIRE with no entry due changes no entry; a lone pulse's due on edge fires, drives its channel if that can drive in
MODE 1, and stays queued; its due off edge leaves the queue and EDGE_DONE reports its times and result. An edge is late 4 ns past
its time, or when FTIME has stepped forward past it. OVERLOAD of a driven output and OVERTEMP of a cool one latch it off and
count; OPEN_OFF, with OPEN_EN and the output off, and OPEN_ON, of an output on for a whole pulse or 1 ms, count and leave the
drive. Where an output turns on or off, OPEN_OFF ends with the test current. HEARTBEAT_LOSS, in RUN 2 ms after the last good
HEARTBEAT and no sooner, enters SAFE: every output at its SAFE bit, line stop off, the queue flushed. SUPPLY_LOW and LS_FAULT set
their bit and cause FIELD; the supply's return clears its bit. HOLD_UP_END, 5 ms after the rails went off and no sooner, leaves
every output off. INPUT_CONFIRM of a level held for FILT_US counts and is sent. With the logic side's rails off nothing takes a
report, and no register follows. -/
def Obligations.FieldOutputsFollowEdgesAndFaults : Prop :=
  ∀ (s : State) (ch : Fin 16), s.canonical → s.field.outs.length = 16 → s.field.ins.length = 16 →
    let f := s.field
    let q := ch.val
    let o := s.out q
    let st := [R.FLD_Q_STATUS q, R.FLD_Q_FAULTS q]
    let qs := (List.range 16).map R.FLD_Q_STATUS
    let rails (x : Prop) : Prop := s.boot.power = true → x
    let others (t : State) : Prop := ∀ k, k ≠ q → t.out k = s.out k
    let rest (t : State) : Prop := ∀ k, k < 16 → k ≠ q → t.settled k (s.out k)
    let energised : Bool := f.powered && f.mode == .run && f.lsRun
    let isLate (x : Nat) : Bool := decide (4 ≤ diff64 f.ftime x) || s.jumpedPast x
    let enough : Prop := o.pulsed = true ∨ ∃ x, o.onFrom = some x ∧ 1000000 ≤ diff64 f.ftime x
    ((∀ p ∈ f.pulses, p.parked = true ∨ diff64 f.ftime p.nextAt < 0) → s.completes .edgeFire [.regs, .field] qs (fun t =>
      t.field = { f with outs := t.field.outs } ∧ ∀ k, k < 16 → t.settled k (s.out k))) ∧
    (∀ p, f.pulses = [p] → p.parked = false → p.channel = q →
      let drive := s.canDrive o && o.mode == 1
      (p.onFired = none → 0 ≤ diff64 f.ftime p.on → diff64 f.ftime p.off < 0 → s.completes .edgeFire [.regs, .field] qs (fun t =>
        ∃ x, t.field.pulses = [x] ∧ x.channel = q ∧ x.tag = p.tag ∧ x.off = p.off ∧ x.drove = drive ∧
          x.onFired = some (if isLate p.on then f.ftime else p.on) ∧ x.late = isLate p.on ∧
          (t.out q).pulseOn = (drive || o.pulseOn) ∧ rest t)) ∧
      (∀ w, p.onFired = some w → 0 ≤ diff64 f.ftime p.off → s.completes .edgeFire [.regs, .field, .link] qs (fun t =>
        let late := isLate p.off
        t.field.pulses = [] ∧ (t.out q).pulseOn = false ∧ rest t ∧ t.link.down = s.link.down ∧
        t.link.up = s.link.up ++ s.onLink [⟨f.upSeq, .edgeDone ch
          (Fin.ofNat 16 ((if p.drove then (if p.cut then 2 else 0) else 1) + (if p.late || late then 8 else 0))) (BitVec.ofNat 16 p.tag)
          (BitVec.ofNat 64 w) (BitVec.ofNat 64 (if late then f.ftime else p.off))⟩]))) ∧
    (s.outLevel q = false → exec (.overload ch) s = .next s) ∧
    (s.outLevel q = true → s.completes (.overload ch) [.regs, .field] st (fun t => t.outLevel q = false ∧ (t.out q).overload = true ∧
      others t ∧ rails (t.flag (R.FLD_Q_STATUS.OVERLOAD q) = true ∧ s.counts (R.FLD_Q_FAULTS.N q) 1 t))) ∧
    (o.hot = false → s.completes (.overtemp ch true) [.regs, .field] st (fun t => t.outLevel q = false ∧ (t.out q).overtemp = true ∧
      (t.out q).hot = true ∧ others t ∧ rails (t.flag (R.FLD_Q_STATUS.OVERTEMP q) = true ∧ s.counts (R.FLD_Q_FAULTS.N q) 1 t))) ∧
    (o.hot = true → exec (.overtemp ch true) s = .next s) ∧
    exec (.overtemp ch false) s = .next (s.setOut q { o with hot := false }) ∧
    (o.openEn = true → s.outLevel q = false → o.openOff = false → s.completes (.openOff ch true) [.regs, .field] st (fun t =>
      t.out q = { o with openOff := true } ∧ others t ∧
      rails (t.flag (R.FLD_Q_STATUS.OPEN_OFF q) = true ∧ s.counts (R.FLD_Q_FAULTS.N q) 1 t))) ∧
    (o.openEn = false ∨ s.outLevel q = true ∨ o.openOff = true → exec (.openOff ch true) s = .next s) ∧
    s.completes (.openOff ch false) [.regs, .field] [R.FLD_Q_STATUS q] (fun t =>
      t.out q = { o with openOff := false } ∧ others t ∧ rails (t.flag (R.FLD_Q_STATUS.OPEN_OFF q) = false)) ∧
    (¬ enough → exec (.openOn ch) s = .next s) ∧
    (enough → s.completes (.openOn ch) [.regs, .field] st (fun t => (t.out q).openOn = true ∧ t.outLevel q = s.outLevel q ∧ others t ∧
      rails (t.flag (R.FLD_Q_STATUS.OPEN_ON q) = true ∧ s.counts (R.FLD_Q_FAULTS.N q) 1 t))) ∧
    (f.lastHb = none ∨ f.mode ≠ .run → exec .heartbeatLoss s = .next s) ∧
    (∀ t0, f.lastHb = some t0 →
      (diff64 f.ftime t0 < 2000000 → exec .heartbeatLoss s = .next s) ∧
      (f.mode = .run → 2000000 ≤ diff64 f.ftime t0 → s.completes .heartbeatLoss [.regs, .field] (R.FLD_CNT_HB_LOSS :: qs) (fun t =>
        t.field.mode = .safe ∧ t.field.pulses = [] ∧ t.field.lsOn = false ∧ rails (s.counts R.FLD_CNT_HB_LOSS.N 1 t) ∧
        t.field.flushed = f.flushed ++ f.pulses ∧
        ∀ k, k < 16 → t.outLevel k = (s.canDrive (s.out k) && (s.out k).safe)))) ∧
    s.completes .supplyLow [.regs, .field, .link, .loft] (R.FLD_STATUS :: lineStopOffsets ++ qs) (fun t =>
      (∀ k, t.outLevel k = false) ∧ t.field.lsOn = false ∧ t.edgeqUsed = s.edgeqUsed ∧
      rails (t.flag R.FLD_STATUS.SUPPLY_LOW = true ∧ bit (t.get R.FLD_LS_CAUSE.CAUSE) 7 = true)) ∧
    s.completes .fieldSupplyReturn [.regs, .field] (R.FLD_STATUS :: qs) (fun t => rails (t.flag R.FLD_STATUS.SUPPLY_LOW = false) ∧
      t.field = { f with supplyLow := false, lsOn := energised && !f.lsFaultHold, outs := t.field.outs } ∧
      ∀ k, k < 16 → t.settled k (s.out k)) ∧
    s.completes .lsFault [.regs, .field, .link, .loft] (R.FLD_STATUS :: lineStopOffsets) (fun t =>
      rails (t.flag R.FLD_STATUS.LS_FAULT = true ∧ bit (t.get R.FLD_LS_CAUSE.CAUSE) 7 = true) ∧
      t.field = { f with lsFaultHold := true, lsOn := false }) ∧
    (s.boot.power = true ∨ (∀ x, f.offAt = some x → diff64 f.ftime x < 5000000) → exec .holdUpEnd s = .next s) ∧
    (∀ x, s.boot.power = false → f.offAt = some x → 5000000 ≤ diff64 f.ftime x → s.completes .holdUpEnd [.field] [] (fun t =>
      (∀ k, t.outLevel k = false) ∧ t.field.lsOn = false ∧ t.field.pulses = [] ∧ t.field.supplyLow = f.supplyLow)) ∧
    (∀ (level : Bool) (first : BitVec 64),
      let i := nth f.ins q {}
      (i.level = level ∨ diff64 f.ftime first.toNat < ((i.filtAt first.toNat * 1000 : Nat) : Int) →
        exec (.inputConfirm ch level first) s = .next s) ∧
      (i.level ≠ level → ((i.filtAt first.toNat * 1000 : Nat) : Int) ≤ diff64 f.ftime first.toNat →
        s.completes (.inputConfirm ch level first) [.regs, .field, .link]
          [R.FLD_I_EDGES q, R.FLD_I_LAST_DTIME_LO q, R.FLD_I_LAST_DTIME_HI q] (fun t =>
          (nth t.field.ins q {}).level = level ∧ t.link.down = s.link.down ∧
          rails (s.counts (R.FLD_I_EDGES.N q) 1 t ∧
            t.get64 (R.FLD_I_LAST_DTIME_LO.N q) (R.FLD_I_LAST_DTIME_HI.N q) = first.toNat) ∧
          t.link.up = s.link.up ++ s.onLink [⟨f.upSeq, .inputEdge ch level first⟩])))

/-- With the logic side's rails off the rows of what arrives there do nothing but take the frame off the link. With them on,
SYNC_EDGE_SEND acts once at each DTIME multiple of 100,000; no frame and no edge comes out while the test access port has the
isolator pins. STATUS keeps its values, sets cause HEARTBEAT when FSTATE
falls from 1 to 2 and INPUT when an input asks; INPUT_EDGE keeps its level. UPLINK_LOST acts after 2 ms of silence. EDGE_DONE
counts DONE pulses; the lone ARMED part of its frame becomes FREE, EJECT_MISSED set for results 1, 2 and 4. REJECT with CRC of
an LS_SET sent once, none since, sends the RUN in force anew; a refused EDGE_NEW is counted and sets cause FIELD. Line-stop
causes clear only where their condition has gone and none was set on this tick, STOP sets CLIENT, and LS_SET follows the first and last bit. RESUME sends all
configuration first. AC_JUDGE settles one closed window. -/
def Obligations.LogicSideOfTheFieldLink : Prop :=
  ∀ (s : State) (seq : BitVec 16), s.canonical →
    let cause (u : State) : Nat := u.get R.FLD_LS_CAUSE.CAUSE
    let sends (t : State) (ms : List DownMsg) : Prop :=
      (t.link.down.drop s.link.down.length).map (·.msg) = s.onPins ms ∧ t.link.down.take s.link.down.length = s.link.down
    let gone (m : UpMsg) : State := { s with link := { s.link with up := s.link.up.erase ⟨seq.toNat, m⟩ } }
    (s.boot.power = false →
      (∀ i ∈ [Instr.syncEdgeSend, .uplinkCrcError, .uplinkLost], exec i s = .next s) ∧
      (∀ fs ins fl v tc a b n hb, exec (.status seq fs ins fl v tc a b n hb) s = .next (gone (.status fs ins fl v tc a b n hb))) ∧
      (∀ n level d, exec (.inputEdge seq n level d) s = .next (gone (.inputEdge n level d))) ∧
      (∀ c r tag on off, exec (.edgeDone seq c r tag on off) s = .next (gone (.edgeDone c r tag on off))) ∧
      (∀ r tag q m, exec (.reject seq r tag q m) s = .next (gone (.reject r tag q m)))) ∧
    (s.boot.power = true →
    (¬ (s.dtime % 100000 = 0 ∧ s.link.lastSyncDtime ≠ some s.dtime) → exec .syncEdgeSend s = .next s) ∧
    (s.dtime % 100000 = 0 → s.link.lastSyncDtime ≠ some s.dtime → s.completes .syncEdgeSend [.field, .link] [] (fun t =>
      t.field = { s.field with syncEdge := if s.pinsTaken then s.field.syncEdge else some s.field.ftime } ∧
      t.link.lastSyncDtime = some s.dtime ∧
      sends t [.heartbeat (cause s == 0) (BitVec.ofNat 64 s.dtime)])) ∧
    (∀ (fs : Fin 4) (ins : BitVec 16) (fl : BitVec 32) (v : BitVec 16) (tc : BitVec 8) (a b : Bool) (n hb : BitVec 16),
      s.completes (.status seq fs ins fl v tc a b n hb) [.regs, .link, .loft] (R.FLD_SUPPLY :: lineStopOffsets) (fun t =>
        t.get R.FLD_SUPPLY.SUPPLY = v.toNat ∧ t.get R.FLD_SUPPLY.TEMP = tc.toNat ∧ t.link.lastStatus = some s.dtime ∧
        t.link.lastFstate = fs.val ∧ t.link.lastStatusHb = some hb.toNat ∧ t.link.inputs = ins.toNat ∧
        (∀ k, k < 11 → bit (cause t) k = (bit (cause s) k || (k == 9 && fs == 2 && s.link.lastFstate == 1) ||
          (k == 8 && t.inputStops))))) ∧
    (∀ (n : Fin 16) (level : Bool) (d : BitVec 64), s.completes (.inputEdge seq n level d) [.regs, .link, .loft] lineStopOffsets (fun t =>
      bit t.link.inputs n.val = level ∧ (∀ k, k ≠ n.val → bit t.link.inputs k = bit s.link.inputs k) ∧
      (∀ k, k < 11 → bit (cause t) k = (bit (cause s) k || (k == 8 && t.inputStops))))) ∧
    s.completes .uplinkCrcError [.regs, .link] [R.FLD_CNT_UP_CRC] (fun t => s.counts R.FLD_CNT_UP_CRC.N 1 t ∧
      t.link = { s.link with up := s.link.up.drop 1 }) ∧
    ((∃ t0, s.link.lastStatus = some t0 ∧ diff64 s.dtime t0 < 2000000) → exec .uplinkLost s = .next s) ∧
    (∀ t0, s.link.lastStatus = some t0 → 2000000 ≤ diff64 s.dtime t0 →
      s.completes .uplinkLost [.regs, .link, .loft] (R.FLD_STATUS :: lineStopOffsets) (fun t =>
        t.flag R.FLD_STATUS.UPLINK_LOST = true ∧ bit (cause t) 7 = true)) ∧
    (∀ (ch : Fin 16) (res : Fin 16) (tag : BitVec 16) (on off : BitVec 64),
      let i := Instr.edgeDone seq ch res tag on off
      ((∀ f ∈ s.seq.frames, f.tag ≠ tag.toNat) → res.val % 8 = 0 → s.completes i [.regs, .link] [R.FLD_Q_PULSES ch.val] (fun t =>
        s.counts (R.FLD_Q_PULSES.N ch.val) 1 t)) ∧
      (∀ f e k, s.seq.frames.find? (fun f => f.tag == tag.toNat) = some f → f.srcs = [e] → e.owner = some k →
        (s.part k).core.state = .armed → s.flag (R.AUD_AC_CFG.ENABLE ch.val) = false →
        ∃ t, exec i s = .next t ∧ s.changesOnly (touches i) t ∧ (t.part k).core.state = .free ∧
          t.seq.frames = s.seq.frames.filter (fun g => g.tag != tag.toNat) ∧
          bit (t.part k).core.flags 0 = (bit (s.part k).core.flags 0 || [1, 2, 4].contains (res.val % 8) ||
            (res.val % 8 == 3 && f.cancelled)))) ∧
    (∀ (q : BitVec 16) (r : DownFrame), s.link.sent.find? (fun f => f.1.seq == q.toNat) = some (r, .first) →
      ((∃ b, r.msg = .lsSet b) → (∀ f ∈ s.link.sent.takeWhile (fun f => f.1.seq != r.seq), ∀ b, f.1.msg ≠ .lsSet b) →
        s.completes (.reject seq 1 0 q 0) [.regs, .link] [R.FLD_CNT_RETX] (fun t => sends t [.lsSet (cause s == 0)] ∧
          s.counts R.FLD_CNT_RETX.N 1 t)) ∧
      (∀ (c : Fin 16) (g : BitVec 16) (on off : BitVec 64) (k : Fin 16), r.msg = .edgeNew c g on off → 3 ≤ k.val →
        (∀ f ∈ s.seq.frames, f.tag ≠ g.toNat) →
        s.completes (.reject seq k g q 0) [.regs, .link, .loft] (R.FLD_CNT_REJECT :: lineStopOffsets) (fun t =>
          s.counts R.FLD_CNT_REJECT.N 1 t ∧ bit (cause t) 7 = true)))) ∧
    (∀ mask : BitVec 11, s.serves → s.completes (.lsCauseClear mask) [.regs, .link, .loft] lineStopOffsets (fun t =>
      (∀ k, k < 11 → bit (cause t) k = (bit (cause s) k && (!bit mask.toNat k || bit s.causeHolds k ||
        bit (s.get R.FLD_LS_CAUSE.CAUSE.onTick) k))) ∧
      sends t (if cause s ≠ 0 ∧ cause t = 0 then [.lsSet true] else []))) ∧
    (s.serves → s.completes .fldStop [.regs, .link, .loft] lineStopOffsets (fun t =>
      (∀ k, k < 11 → bit (cause t) k = (bit (cause s) k || k == 1)) ∧ sends t (if cause s = 0 then [.lsSet false] else []))) ∧
    (s.serves → s.resumeOk = false → exec .fldResume s = .next s) ∧
    (s.serves → s.resumeOk = true → s.completes .fldResume [.link] [] (fun t =>
      sends t ((List.range 16).map s.outCfgMsg ++ (List.range 16).map s.inCfgMsg ++ [.resume]))) ∧
    (∀ level : BitVec 16, s.serves → s.completes (.fldOutSetWrite level) [.regs, .link] [R.FLD_OUT_SET] (fun t =>
      t.get R.FLD_OUT_SET.LEVEL = level.toNat ∧ sends t [.outSet level])) ∧
    ((∀ w ∈ s.link.acWindows, diff64 s.dtime (s.acEnd w.1 w.2.1) < 0) → exec .acJudge s = .next s) ∧
    (∀ w, s.link.acWindows = [w] → 0 ≤ diff64 s.dtime (s.acEnd w.1 w.2.1) →
      let fs := s.windowFrames (s.get (R.AUD_AC_CFG.INPUT w.1)) (u64 (w.2.1 + s.get (R.AUD_AC_CFG.DELAY_US w.1) * 1000)) (s.acEnd w.1 w.2.1)
      let ok : Bool := fs.any (fun f => f32Ge (nth f.bands (s.get (R.AUD_AC_CFG.BAND w.1)) 0).toNat (s.get (R.AUD_AC_THR.N w.1)))
      s.completes .acJudge [.regs, .link] [R.AUD_CNT_NOFRAME, R.AUD_CNT_AC_OK, R.AUD_CNT_AC_FAIL] (fun t =>
        t.link = { s.link with acWindows := [] } ∧ s.counts R.AUD_CNT_AC_OK.N (if ok then 1 else 0) t ∧
        s.counts R.AUD_CNT_AC_FAIL.N (if ok then 0 else 1) t ∧ s.counts R.AUD_CNT_NOFRAME.N (if fs.isEmpty then 1 else 0) t))

/-! ### Sync objects -/

/-- s is calm, without holds, and d the started SO_SIGNAL descriptor that the row names, for object o with argument a; where a
partition is judged for its ring and may not use the object, it completes with SO_ACCESS alone. Else the descriptor completes
on the state u. An argument that the object's type does not admit is counted in BADARG and completes with SO_BAD_ARG; a signal
to a BROKEN object is counted in BROKEN. A semaphore without waiters adds a, saturating at 2^32-1 and counting that in SAT; one
that the list of a core waits for grants it its units and the list goes on; a counter adds its signed DELTA, saturating in 64
bits, or takes the value of SET; a barrier counts the arrival, and at PARTIES returns to 0 and counts GEN. No other object
changes. -/
def Obligations.SignalsFollowTheObjectType : Prop :=
  ∀ (s : State) (ring : Fin 8192) (index : BitVec 32) (d : Started), s.canonical → s.calm → s.sync.holds = [] →
    s.startedAs ring.val index.toNat 0x31 = some d →
    let o := d.param 24 2
    let a := d.param 32 8
    let x := s.so o
    let ends (cs : List Comp) (offs : List Nat) (st : Status) (p : State → Prop) : Prop := ∃ u,
      exec (.soSignal ring index) s = .next (u.complete d st 0) ∧ s.changesOnly cs u ∧ s.keepsRegs offs u ∧
      (∀ k, k ≠ o → u.so k = s.so k) ∧ p u
    if s.clientMay d.ring o = false then exec (.soSignal ring index) s = .next (s.complete d .soAccess 0) else
    (x.signalArgOk a = false → ends [.regs] [R.STG_SO_CNT_BADARG] .soBadArg (fun u => s.counts R.STG_SO_CNT_BADARG.N 1 u)) ∧
    (x.cfg.type = 1 → x.signalArgOk a = decide (1 ≤ a ∧ a < 2 ^ 32)) ∧
    (x.cfg.type = 2 → x.signalArgOk a = decide (a < 2 ^ 33)) ∧
    (x.cfg.type = 3 → x.signalArgOk a = decide (a = 0)) ∧
    (x.cfg.type = 0 ∨ 4 ≤ x.cfg.type → x.signalArgOk a = false) ∧
    (x.signalArgOk a = true → x.broken = true → ends [.regs] [R.STG_SO_CNT_BROKEN] .ok (fun u =>
      s.counts R.STG_SO_CNT_BROKEN.N 1 u ∧ u.so o = x)) ∧
    (x.signalArgOk a = true → x.broken = false →
      (x.cfg.type = 1 → x.waiters = [] → ends [.regs, .sync] [R.STG_SO_CNT_SAT] .ok (fun u =>
        u.so o = { x with value := min (2 ^ 32 - 1) (x.value + a), starved := false } ∧
        s.counts R.STG_SO_CNT_SAT.N (if x.value + a > 2 ^ 32 - 1 then 1 else 0) u)) ∧
      (∀ w k l, x.cfg.type = 1 → x.cfg.holding = false → x.waiters = [w] → w.agent = .core k → s.list k = some l →
        x.value + a < 2 ^ 32 → ((w.arg % 2 ^ 32 : Nat) : Int) ≤ x.value + a → ends [.sync, .lists] [] .ok (fun u =>
          u.so o = { x with value := x.value + a - ((w.arg % 2 ^ 32 : Nat) : Int), waiters := [], starved := false } ∧
          u.list k = some { l with waiting := false, pc := l.pc + 32 })) ∧
      (x.cfg.type = 2 → x.waiters = [] → ends [.regs, .sync] [R.STG_SO_CNT_SAT] .ok (fun u =>
        u.so o = { x with value := if bit a 32 then i32 (a % 2 ^ 32) else max (-(2 ^ 63)) (min (2 ^ 63 - 1) (x.value + i32 (a % 2 ^ 32))) })) ∧
      (x.cfg.type = 3 → x.value + 1 < ((x.cfg.init % 65536 : Nat) : Int) → ends [.sync] [] .ok (fun u =>
        u.so o = { x with value := x.value + 1 })) ∧
      (x.cfg.type = 3 → ((x.cfg.init % 65536 : Nat) : Int) ≤ x.value + 1 → x.waiters = [] → ends [.sync] [] .ok (fun u =>
        u.so o = { x with value := 0, gen := u32 (x.gen + 1) })))

/-- s is calm. For SO_WAIT no hold timer has run out, d is the started descriptor of the row, alone with its ring and index, and
v is s with d marked as having taken effect; where a partition is judged for the ring and may not use the object, d completes
with SO_ACCESS. Else a bad argument completes it at once, and any other wait reaches the sync unit, where it takes effect after
the signals of its cycle: a tick with that one wait of a client there is the tick of the state in which it has taken effect. A
BROKEN object, a met condition and units that are there complete it, with the value of the object in the result's high half;
else it joins the end of the object's queue with the deadline of TMO, at a barrier that still lacks parties counted as an
arrival. WAIT_TIMEOUT completes a client's wait with SO_TIMEOUT once its deadline has come, not before. HOLD_EXPIRE, its timer
run out and not before, breaks the semaphore, and tears down with fault code 6 the thread that holds it, or the one list context
of a core, which owes its setup list. SO_SELECT shows object and configuration; SO_RESTAGE stages a new word, and a frozen stage
counts it. -/
def Obligations.WaitsHoldsAndWindow : Prop :=
  ∀ s : State, s.canonical → s.calm →
    (∀ (ring : Fin 8192) (index : BitVec 32) (d : Started), s.startedAs ring.val index.toNat 0x30 = some d →
      (∀ e ∈ s.client.started, e.ring = d.ring → e.index = d.index → e = d) →
      let o := d.param 24 2
      let a := d.param 32 8
      let x := s.so o
      let w : Started := { d with waiting := true }
      let v : State := { s with client := { s.client with started := s.client.started.map (fun e => if e == d then w else e) } }
      s.holdDue = none →
      if s.clientMay d.ring o = false then exec (.soWait ring index) s = .next (s.complete d .soAccess 0) else
      (x.waitArgOk a = false → x.cfg.type ≠ 0 → exec (.soWait ring index) s = .next (v.complete w .soBadArg 0)) ∧
      (x.waitArgOk a = true → exec (.soWait ring index) s =
        .next { v with sync := { v.sync with arriving := s.sync.arriving ++ [(.client ring.val index.toNat, o, a)] } })) ∧
    (∀ (r i o a : Nat) (d : Started), s.boot.power = true → s.sync.arriving = [(.client r i, o, a)] →
      s.client.started.find? (fun y => y.ring == r && y.index == i) = some d →
      let x := s.so o
      let n : Nat := a % 2 ^ 32
      let v : State := { s with sync := { s.sync with arriving := [] } }
      let takes (u : State) : Prop := exec .wposExtrapolate s = exec .wposExtrapolate u
      let ends (u : State) (st : Status) (res : Nat) : Prop := takes (u.complete d st res)
      let joins (val : Int) (kept : Bool) : Prop := takes (v.setSo o { x with value := val, starved := x.starved && kept, waiters := x.waiters ++
        [⟨.client r i, a, if a / 2 ^ 48 % 65536 = 0 then none else some (s.dtime + a / 2 ^ 48 % 65536 * 10000)⟩] })
      x.waitArgOk a = true →
      (x.broken = true → x.cfg.type ≠ 0 → ends v .soBroken 0) ∧
      (x.broken = false →
        (x.cfg.type = 1 → x.cfg.holding = false → x.waiters = [] → (n : Int) ≤ x.value →
          ends (v.setSo o { x with value := x.value - n }) .ok (toU32 (x.value - n) * 2 ^ 32)) ∧
        (x.cfg.type = 1 → x.waiters ≠ [] ∨ x.value < n → joins x.value (!x.waiters.isEmpty)) ∧
        (x.cfg.type = 2 → counterMet x.value a = true → ends v .ok (toU32 x.value * 2 ^ 32)) ∧
        (x.cfg.type = 2 → counterMet x.value a = false → joins x.value true) ∧
        (x.cfg.type = 3 → x.value + 1 < ((x.cfg.init % 65536 : Nat) : Int) → joins (x.value + 1) true) ∧
        (x.cfg.type = 4 → firesPassed x.value a = true → ends v .ok (toU32 x.value * 2 ^ 32)) ∧
        (x.cfg.type = 4 → firesPassed x.value a = false → joins x.value true))) ∧
    (∀ so : Fin 16384,
      let x := s.so so.val
      ((∀ w ∈ x.waiters, ∀ t, w.deadline = some t → s.dtime < t) → exec (.waitTimeout so) s = .next s) ∧
      (∀ w r i e t, x.waiters = [w] → w.agent = .client r i → w.deadline = some t → t ≤ s.dtime → x.cfg.type ≠ 0 →
        s.client.started.find? (fun y => y.ring == r && y.index == i) = some e →
        exec (.waitTimeout so) s = .next ((s.setSo so.val { x with waiters := [], starved := false }).complete e .soTimeout 0))) ∧
    ((∀ h ∈ s.sync.holds, s.dtime < h.since + (s.so h.so).cfg.holdUs * 1000) → exec .holdExpire s = .next s) ∧
    (∀ h, s.sync.holds = [h] → h.since + (s.so h.so).cfg.holdUs * 1000 ≤ s.dtime → (s.so h.so).broken = false →
      (∀ e ∈ s.sync.objs, e.2.waiters = []) →
      (∀ r i, h.agent = .client r i → s.completes .holdExpire [.sync] [] (fun u =>
        u.so h.so = { s.so h.so with broken := true, starved := false } ∧ u.sync.holds = [] ∧ ∀ k, k ≠ h.so → u.so k = s.so k)) ∧
      (∀ e c t, h.agent = .thread e c → s.thread e c = some t → t.job < 64 → s.flock.launches = [] → ∃ u, exec .holdExpire s = .next u ∧
        s.changesOnly (touches .holdExpire) u ∧ (u.so h.so).broken = true ∧ u.sync.holds = [] ∧ u.thread e c = none ∧
        u.get (R.STG_JOB_STATUS.FAULT t.job) = 6) ∧
      (∀ k j, h.agent = .core k → k < 16 → s.agentJob (.core k) = some j → j < 64 → s.cores.length = 16 →
        ∃ u, exec .holdExpire s = .next u ∧ s.changesOnly (touches .holdExpire) u ∧ (u.so h.so).broken = true ∧ u.sync.holds = [] ∧
          u.list k = none ∧ (u.core k).setupDue = true ∧ u.get (R.STG_JOB_STATUS.FAULT j) = 6 ∧
          (∀ m, m ≠ k → u.list m = s.list m ∧ u.core m = s.core m) ∧ u.flock = s.flock)) ∧
    (∀ o : BitVec 14, s.serves → s.flag R.STG_CTL.VIEW = false →
      let x := s.so o.toNat
      s.completes (.soSelect o) [.regs] [R.STG_SO_IDX, R.STG_SO_CFG, R.STG_SO_INIT, R.STG_SO_STATE, R.STG_SO_VAL_LO, R.STG_SO_VAL_HI]
        (fun u => u.get R.STG_SO_IDX.INDEX = o.toNat ∧ u.get R.STG_SO_CFG.TYPE = x.cfg.type % 8 ∧
          u.get R.STG_SO_CFG.OWNER = x.cfg.owner % 8 ∧ u.get R.STG_SO_CFG.HOLD_US = x.cfg.holdUs % 65536 ∧
          u.get R.STG_SO_INIT.INIT = x.cfg.init % 2 ^ 32 ∧ u.get R.STG_SO_STATE.BROKEN = (if x.broken then 1 else 0) ∧
          u.get R.STG_SO_STATE.WAITERS = min 65535 x.waiters.length)) ∧
    (∀ w : BitVec 32, s.serves →
      let o := s.get R.STG_SO_IDX.INDEX
      (s.flag R.STG_STATUS.FROZEN = true → s.completes (.soRestage w) [.regs] [R.STG_STATUS, R.STG_CNT_FROZEN] (fun u =>
        s.counts R.STG_CNT_FROZEN.N 1 u ∧ u.flag R.STG_STATUS.FROZEN_WR = true)) ∧
      (s.flag R.STG_STATUS.FROZEN = false → s.flag R.STG_CTL.VIEW = false → s.completes (.soRestage w) [.stage] [] (fun u =>
        ∃ c, keyGet u.stage.sos o = some c ∧ c.type = w.toNat % 8 ∧ c.owner = w.toNat / 8 % 8 ∧ c.cross = bit w.toNat 6 ∧
          c.holding = bit w.toNat 7 ∧ c.access = w.toNat / 256 % 256 ∧ c.holdUs = w.toNat / 65536 ∧
          c.init = ((keyGet s.stage.sos o).getD (s.so o).cfg).init ∧ (∀ k, k ≠ o → keyGet u.stage.sos k = keyGet s.stage.sos k) ∧
          ∀ k, u.so k = s.so k)))

/-! ### Adaptation -/

/-- INPUT_RUN_START acts on a due run of an enabled pipeline: READY is 0 and FREE QDEPTH, the run stands at ADP_IN_EPOCH and
position 0 with its engines idle, and it is RUNNING, or DONE at once where it has no position. SAMPLE_DECODE_START gives a free
engine the sample that the shuffle puts at the next position; the first of a batch takes a unit of FREE that it has been granted,
or waits for one and starts nothing; a tick grants it the unit that is there. SAMPLE_DECODE_DONE within the budget, and DECODE_BUDGET_EXPIRE with status TIMED_OUT, end an engine's sample:
t is the state after its decode and stores; its status, CORRUPT where a store fails, is counted and stands in its batch's entry,
the engine is free. No engine, no run, no position left, a count that does not fit the row: they do nothing. -/
def Obligations.InputPipelineRuns : Prop :=
  ∀ s : State, s.canonical → s.calm → s.get R.ADP_IN_LOW.LOW_WATER = 0 →
    let ready := s.get R.ADP_IN_SO.READY
    let free := s.get R.ADP_IN_SO.FREE
    let b := max 1 (s.get R.ADP_IN_CFG.BATCH)
    let pos := s.get R.ADP_IN_POS_NOW.N
    let epoch := s.get R.ADP_IN_EPOCH_NOW.N
    (s.adp.runDue = false ∨ s.flag R.ADP_IN_CFG.ENABLE = false → exec .inputRunStart s = .next s) ∧
    (s.adp.runDue = true → s.flag R.ADP_IN_CFG.ENABLE = true → (∀ e ∈ s.sync.objs, e.2.waiters = []) → ready ≠ free →
      let n := if s.flag R.ADP_IN_CFG.SRC_CAP then s.get R.ADP_CAP_N.N else s.get R.ADP_IN_COUNT.N
      s.completes .inputRunStart [.regs, .adp, .sync] [R.ADP_IN_STATUS, R.ADP_IN_EPOCH_NOW, R.ADP_IN_POS_NOW] (fun u =>
        u.adp.runDue = false ∧ u.adp.n = n ∧ u.adp.engines = [none, none, none, none] ∧ u.adp.batches = [] ∧
        u.get R.ADP_IN_EPOCH_NOW.N = s.get R.ADP_IN_EPOCH.N ∧ u.get R.ADP_IN_POS_NOW.N = 0 ∧
        (u.so ready).value = 0 ∧ (u.so free).value = (s.get R.ADP_IN_CFG.QDEPTH : Int) ∧
        (s.get R.ADP_IN_CFG.BATCH ≠ 0 → s.get R.ADP_IN_CFG.BATCH ≤ n →
          u.flag R.ADP_IN_STATUS.RUNNING = true ∧ u.flag R.ADP_IN_STATUS.DONE = false) ∧
        (n = 0 → s.get R.ADP_IN_EPOCHS.N ≠ 0 → u.flag R.ADP_IN_STATUS.RUNNING = false ∧ u.flag R.ADP_IN_STATUS.DONE = true))) ∧
    ((∀ e ∈ s.adp.engines, e ≠ none) ∨ s.flag R.ADP_IN_STATUS.RUNNING = false ∨ s.inSpent = true ∨ s.inPositions = 0 →
      exec .sampleDecodeStart s = .next s) ∧
    (∀ e, s.adp.engines.findIdx? (·.isNone) = some e → s.flag R.ADP_IN_STATUS.RUNNING = true → s.inSpent = false → s.inPositions ≠ 0 → s.adp.n < 2 ^ 32 →
      let moved (u : State) : Prop :=
        (pos + 1 < s.inPositions → u.get R.ADP_IN_POS_NOW.N = pos + 1 ∧ u.get R.ADP_IN_EPOCH_NOW.N = epoch) ∧
        (s.inPositions ≤ pos + 1 → u.get R.ADP_IN_POS_NOW.N = 0 ∧ u.get R.ADP_IN_EPOCH_NOW.N = u32 (epoch + 1))
      let offs := [R.ADP_IN_POS_NOW, R.ADP_IN_EPOCH_NOW]
      (pos % b ≠ 0 → s.completes .sampleDecodeStart [.regs, .adp] offs (fun u => moved u ∧ u.adp.batches = s.adp.batches ∧
        u.adp.engines = setNth s.adp.engines e (some { batch := s.adp.batchesBegun - 1, slot := pos % b
                                                       sample := perm s.inSeed epoch s.adp.n pos }))) ∧
      (pos % b = 0 → s.adp.batchesBegun < s.adp.freeTaken → s.completes .sampleDecodeStart [.regs, .adp] offs (fun u => moved u ∧
        u.adp.batchesBegun = s.adp.batchesBegun + 1 ∧ u.adp.freeTaken = s.adp.freeTaken ∧
        (∃ x : Batch, u.adp.batches = s.adp.batches ++ [x] ∧ x.q = s.adp.batchesBegun ∧ x.epoch = epoch ∧ x.k = pos / b ∧
          x.count = min b (s.inPositions - pos) ∧ x.done = []) ∧
        u.adp.engines = setNth s.adp.engines e (some { batch := s.adp.batchesBegun, slot := 0
                                                       sample := perm s.inSeed epoch s.adp.n pos }))) ∧
      (pos % b = 0 → s.adp.freeTaken = s.adp.batchesBegun → (s.so free).cfg.type = 1 →
        (s.adp.waitingFree = true → exec .sampleDecodeStart s = .next s) ∧
        (s.adp.waitingFree = false → exec .sampleDecodeStart s = .next { s with
          adp := { s.adp with waitingFree := true }, sync := { s.sync with arriving := s.sync.arriving ++ [(.inputPipe, free, 1)] } }))) ∧
    (s.boot.power = true → s.sync.arriving = [(.inputPipe, free, 1)] → (s.so free).cfg.type = 1 → (s.so free).cfg.holding = false →
      (s.so free).broken = false → (s.so free).waiters = [] → 1 ≤ (s.so free).value →
      let v : State := { s with sync := { s.sync with arriving := [] } }
      exec .wposExtrapolate s = exec .wposExtrapolate { v.setSo free { s.so free with value := (s.so free).value - 1 } with
        adp := { s.adp with waitingFree := false, freeTaken := s.adp.freeTaken + 1 } }) ∧
    (∀ (e : Fin 4) (cycles written : BitVec 32),
      (nth s.adp.engines e.val none = none → exec (.sampleDecodeDone e cycles) s = .next s ∧
        exec (.decodeBudgetExpire e written) s = .next s) ∧
      (∀ d bt, nth s.adp.engines e.val none = some d → s.adp.engines.length = 4 →
        let out := s.decodeOf d
        let early : Bool := [Sample.tooBig, .ratio, .format].contains out.1.status
        let stored (ws : List (Nat × List Byte)) : Bool × State :=
          out.2.2.storeAll .inputPipe (out.2.2.batchAddr d.batch + out.2.2.inHeader + d.slot * out.2.2.inSlot) ws
        let ends (i : Instr) (t : State) (st : Sample) (n : Nat) (cnt : Fld) : Prop :=
          t.adp = s.adp → t.sync = s.sync → s.adp.batches = [bt] → bt.q = d.batch → bt.done.length + 1 < bt.count →
          (∀ x ∈ bt.done, x.1 ≠ d.slot) → t.canonical → (∀ off, 0x270000 ≤ off → t.reg off = s.reg off) →
          (∀ p, p < 8 → t.flag (R.STG_PTN_STATUS.DEFERRED p) = false) →
          ∃ u, exec i s = .next u ∧ t.changesOnly [.regs, .free, .adp] u ∧ t.keepsRegs [cnt.off] u ∧ t.counts cnt 1 u ∧
            nth u.adp.engines e.val none = none ∧ ∃ entry, u.adp.batches = [{ bt with done := keyPut bt.done d.slot entry }] ∧
              entry.length = 16 ∧ fieldAt entry 0 4 = u32 d.sample ∧ fieldAt entry 4 1 = st.code ∧ fieldAt entry 12 4 = u32 n
        (early = false → out.2.2.budget out.2.1 ≤ cycles.toNat → exec (.sampleDecodeDone e cycles) s = .next s) ∧
        (early = true → exec (.decodeBudgetExpire e written) s = .next s) ∧
        (∀ ok t, out.1.status = .ok → cycles.toNat < out.2.2.budget out.2.1 → stored out.1.writes = (ok, t) →
          ends (.sampleDecodeDone e cycles) t (if ok then .ok else .corrupt) cycles.toNat
            (if ok then R.ADP_IN_CNT_OK.N else R.ADP_IN_CNT_CORRUPT.N)) ∧
        (∀ t, early = false → stored (out.1.writes.take written.toNat) = (true, t) →
          ends (.decodeBudgetExpire e written) t .timedOut (out.2.2.budget out.2.1) R.ADP_IN_CNT_TIMED_OUT.N)))

/-- SUP_FAULT marks its inputs. FEATURE_FRAME of a channel that is off does nothing; of an enabled one it takes from the TDM
frames that have come the top 24 bits of its slot, N samples for the first frame and a hop for a later one, after the end of the
frame before; one that is missing, for want of a frame or of data in the slot, through a supply fault or a disabled input, counts
as 0. It keeps a record of the frame: its start, GAP for a missing sample or a supply fault, CLIP for an extreme sample, and
sixteen energies, 0 for an empty band; SEQ counts. Of a privileged channel the record, with WPOS of its start, also goes to its
ring, and its object is signalled. PUBLICATION_SERVE with no request does nothing; of a request whose record and weight set are
read, one that passes is served once: the weight set is staged, its SHA-256 shown, COUNT and DONE count, and nothing is committed
without AUTO. A record naming another job is refused with reason 1, and DONE counts. -/
def Obligations.FeaturesAndPublication : Prop :=
  ∀ s : State, s.canonical → s.calm →
    (∀ m : BitVec 4, s.completes (.supFault m) [.regs] [R.AUD_STATUS] (fun u => ∀ k, k < 4 →
      bit (u.get R.AUD_STATUS.SUP_FAULT) k = (bit (s.get R.AUD_STATUS.SUP_FAULT) k || bit m.toNat k))) ∧
    (∀ (input : Fin 4) (start wpos : BitVec 64) (words : List (List (BitVec 32))) (driven : List (BitVec 8)),
      let tdm : List (List (Option (BitVec 32))) :=
        (words.zip driven).map (fun x => (List.range 8).map (fun k => if bit x.2.toNat k then x.1[k]? else none))
      let a := input.val
      let n := 256 * 2 ^ s.get (R.ADP_AUD_CFG.FFT a)
      let i := Instr.featureFrame input start wpos words driven
      let k := nth s.aud.next a 0
      let old : List (Int × Bool) := nth s.aud.tails a []
      let hop := n / 4 * 2 ^ min 2 (s.get (R.ADP_AUD_CFG.HOP a))
      let want := if old = [] then n else hop
      let fault := bit (s.get R.AUD_STATUS.SUP_FAULT) a
      let sample (f : List (Option (BitVec 32))) : Int × Bool := match nth f (s.get (R.AUD_A_CFG.SLOT a)) none with
        | some v => if fault || !s.flag (R.AUD_A_CFG.ENABLE a) then (0, true) else ((v.extractLsb' 8 24).toInt, false)
        | none => (0, true)
      let frame := old.drop hop ++ (tdm.take want).map sample ++ List.replicate (want - tdm.length) (0, true)
      let ys := frame.map (·.1)
      (s.flag (R.ADP_AUD_CFG.ENABLE a) = false → exec i s = .next s) ∧
      (s.flag (R.ADP_AUD_CFG.ENABLE a) = true → s.aud.next.length = 4 → s.aud.tails.length = 4 → old = [] ∨ old.length = n →
        ∃ (u : State) (f : Feature),
        s.changesOnly [.regs, .aud] u ∧ s.keepsRegs [R.ADP_AUD_SEQ a, R.ADP_AUD_STATUS a] u ∧
        u.aud.feats = (a, f) :: s.aud.feats ∧ nth u.aud.next a 0 = u32 (k + 1) ∧ u.get (R.ADP_AUD_SEQ.N a) = u32 k ∧
        nth u.aud.tails a [] = frame ∧ f.start = start.toNat ∧ f.gap = (frame.any (·.2) || fault) ∧
        f.clip = ys.any (fun v => v == -(2 ^ 23) || v == 2 ^ 23 - 1) ∧ f.bands.length = 16 ∧
        (∀ j, j < 16 → nth f.bands j 0 = (if s.get (R.ADP_AUD_BAND.K0 a j) > s.get (R.ADP_AUD_BAND.K1 a j) then 0
          else bandEnergy n ys (s.get (R.ADP_AUD_BAND.K0 a j)) (s.get (R.ADP_AUD_BAND.K1 a j)))) ∧
        u.flag (R.ADP_AUD_STATUS.GAP_SEEN a) = (s.flag (R.ADP_AUD_STATUS.GAP_SEEN a) || f.gap) ∧
        u.flag (R.ADP_AUD_STATUS.CLIP_SEEN a) = (s.flag (R.ADP_AUD_STATUS.CLIP_SEEN a) || f.clip) ∧
        (s.flag (R.ADP_AUD_CFG.PRIV a) = false → exec i s = .next u) ∧
        (s.flag (R.ADP_AUD_CFG.PRIV a) = true → exec i s = .next
          (((u.featureWrite a k (featureBytes f (s.wposAt start.toNat wpos.toNat) k a)).signal (.feature a)
            (s.get (R.ADP_AUD_SO.SO a)) 1).settle)))) ∧
    (s.pubDue = false → exec .publicationServe s = .next s) ∧
    -- Firmware has read what it needs, and leaves v.
    (∀ v, s.pubDue = true → s.pubRead = (true, v) → s.sync.holds = [] →
      let done := s.get R.ADP_PUB_SO.DONE
      let r := v.pubRecord
      let served : State := { v with adp := { v.adp with served := s.adp.served + 1 } }
      (r.job ≠ s.get R.ADP_PUB_CFG.JOB → (s.so done).cfg.type = 1 → (s.so done).broken = false → (s.so done).waiters = [] →
        ∃ u, exec .publicationServe s = .next u ∧ v.changesOnly [.regs, .adp, .sync] u ∧
          v.keepsRegs [R.ADP_PUB_STATUS, R.STG_SO_CNT_SAT] u ∧ u.flag R.ADP_PUB_STATUS.REFUSED = true ∧
          u.get R.ADP_PUB_STATUS.REASON = 1 ∧ u.adp.served = s.adp.served + 1 ∧
          (u.so done).value = min (2 ^ 32 - 1) ((s.so done).value + 1)) ∧
      (∀ w, v.pubReason r = 0 → s.flag R.ADP_PUB_CFG.AUTO = false →
        served.stageWeights r.job (v.modBytes r.waddr r.wbytes) = (.ok, w) → w.calm → w.sync = v.sync →
        w.regs = v.regs → (s.so done).cfg.type = 1 → (s.so done).broken = false → (s.so done).waiters = [] →
        ∃ u, exec .publicationServe s = .next u ∧ u.stage = w.stage ∧ u.mem = w.mem ∧ u.adp.served = s.adp.served + 1 ∧
          u.flag R.ADP_PUB_STATUS.STAGED = true ∧ u.get R.ADP_PUB_STATUS.COUNT = u16 (s.get R.ADP_PUB_STATUS.COUNT + 1) ∧
          u.flag R.STG_STATUS.FROZEN = false ∧
          (∀ k, k < 8 → u.get (R.ADP_PUB_DIGEST.N k) = fieldAt (sha256 (v.modBytes r.waddr r.wbytes)) (4 * k) 4) ∧
          (u.so done).value = min (2 ^ 32 - 1) ((s.so done).value + 1)))

/-! ### Client rings and sessions -/

/-- For a descriptor d whose PEER is a PCI Express ring r, still as enabled when d started, with room and a BASE whose ring and
index word do not wrap, and to which no completion is owed: completing d with a status and a result takes d from the started set,
writes the completion of R359 at the place of PROD, the index word after the ring, and PROD counts. With IEN off no interrupt is
raised; with IEN on and no holdoff running, one with the ring's VECTOR goes out, or its pending bit stands where the host has
masked the vector. Without room, or behind one that waits, the completion waits. An OK completion with NO_COMP writes nothing,
and so does one whose PEER has been disabled since. -/
def Obligations.CompletionsGoToThePeer : Prop :=
  ∀ (s : State) (d : Started) (st : Status) (v : Nat), s.canonical →
    let taken : State := { s with client := { s.client with started := s.client.started.erase d } }
    (st = .ok → bit d.flags 1 = true → s.complete d st v = taken) ∧
    (∀ r, s.ring d.peer = some r → st ≠ .ok ∨ bit d.flags 1 = false →
      (r.active = false ∨ r.epoch ≠ d.peerEpoch → s.complete d st v = taken) ∧
      (r.active = true → r.epoch = d.peerEpoch → r.room = 0 ∨ s.owedTo d.peer ≠ [] →
        s.complete d st v = { taken with client := { taken.client with owed := s.client.owed ++ [(d, st.code, u64 v)] } }) ∧
      (r.active = true → r.epoch = d.peerEpoch → r.room ≠ 0 → s.owedTo d.peer = [] → r.cfg.ethernet = false → r.cfg.kind = 2 →
        r.cfg.base + r.entries * 32 + 64 ≤ 2 ^ 64 →
        let u := s.complete d st v
        s.changesOnly [.host, .client] u ∧ u.client.started = s.client.started.erase d ∧
        u.hostRead (r.cfg.base + r.prod % r.entries * 32) 32 =
          leBytes 2 st.code ++ leBytes 1 d.op ++ leBytes 1 0 ++ leBytes 4 d.tag ++ leBytes 2 d.ring ++ leBytes 2 0
            ++ leBytes 4 d.index ++ leBytes 8 (u64 v) ++ leBytes 8 s.dtime ∧
        u.hostRead (r.cfg.base + r.entries * 32) 8 = leBytes 4 (u32 (r.prod + 1)) ++ leBytes 4 r.dropped ∧
        (∀ a, (a < r.cfg.base + r.prod % r.entries * 32 ∨ r.cfg.base + r.prod % r.entries * 32 + 32 ≤ a) →
          (a < r.cfg.base + r.entries * 32 ∨ r.cfg.base + r.entries * 32 + 64 ≤ a) → u.hostRead a 1 = s.hostRead a 1) ∧
        (∃ r', u.ring d.peer = some r' ∧ r'.prod = u32 (r.prod + 1) ∧ r'.cfg = r.cfg ∧ r'.cons = r.cons ∧ r'.active = true) ∧
        (∀ k, k ≠ d.peer → u.ring k = s.ring k) ∧
        (r.cfg.ien = false → u.client.irqs = s.client.irqs) ∧
        (r.cfg.ien = true → r.irqAfter ≤ s.dtime → s.vectorMasked r.cfg.vector = false →
          u.client.irqs = s.client.irqs ++ [(r.cfg.vector, s.dtime)]) ∧
        (r.cfg.ien = true → r.irqAfter ≤ s.dtime → s.vectorMasked r.cfg.vector = true →
          u.client.irqs = s.client.irqs ∧ r.cfg.vector ∈ u.client.pendingBits) ∧
        (r.cfg.ien = true → s.dtime < r.irqAfter → u.client.irqs = s.client.irqs)))

/-- A write to the registers of a session's rings from outside is discarded and counted. RING_ENABLE of a disabled ring: with a
KIND 1-4, LOG2_ENTRIES 4-16, an aligned BASE or an open session, and for a SUBMIT ring a fit PEER, it is enabled under the
configuration in its registers with fresh indices; else it stays disabled with CFG_ERR. RING_DISABLE stops an enabled one; a
descriptor fetched and not started completes with ABORTED, a completion that waits for room there is no longer owed, and of a
module-filled ring PROD goes back over the entries of this very tick. DOORBELL of a SUBMIT ring within its room fetches every descriptor up
to the value, of a halted one it only moves PROD; beyond it halts the ring with DB_ERR, no NOTICE ring being there to be told;
of a filled ring it sets CONS, and the room takes a completion that waits, or it sets DB_ERR; of a disabled or Ethernet ring it
sets DB_ERR. IRQ_HOLDOFF_END raises a held interrupt once its time has come. FUNCTION_LEVEL_RESET disables every PCI Express ring
with all that its registers show, owes it nothing more and leaves every Ethernet ring, and the registers of a PCI Express ring
return to reset. -/
def Obligations.RingsEnableStopAndRing : Prop :=
  ∀ (s : State) (ring : Fin 8192), s.canonical →
    let n := ring.val
    (s.serves → n ≥ 6144 → ∀ fields : BitVec 9, exec (.ringEnable ring none fields) s = .next (s.accessErr (R.RING_CFG n)) ∧
      exec (.ringDisable ring none fields) s = .next (s.accessErr (R.RING_CFG n))) ∧
    (∀ fields : BitVec 9, s.serves → n < 6144 → s.ringOn n = false →
      let kind := fields.toNat % 8
      let log2 := fields.toNat / 8 % 32
      let eth := bit fields.toNat 8
      let base := s.get64 (R.RING_BASE_LO.BASE n) (R.RING_BASE_HI.BASE n)
      let ses := s.get (R.RING_LINK.SESSION n)
      let peerOk : Prop := ∃ p, s.ring (s.get (R.RING_LINK.PEER n)) = some p ∧ p.active = true ∧ p.cfg.kind = 2 ∧
        p.cfg.ethernet = eth ∧ (eth = true → p.cfg.session = ses)
      let ok : Prop := 1 ≤ kind ∧ kind ≤ 4 ∧ 4 ≤ log2 ∧ log2 ≤ 16 ∧ (eth = false → base % 4096 = 0) ∧
        (eth = true → s.session ses ≠ none) ∧ (kind = 1 → peerOk)
      (ok → s.completes (.ringEnable ring none fields) [.regs, .client, .host] [R.RING_CFG n] (fun u =>
        u.flag (R.RING_CFG.ENABLE n) = true ∧ ∃ r, u.ring n = some r ∧ r.active = true ∧ r.prod = 0 ∧ r.cons = 0 ∧ r.fetched = 0 ∧
          r.halted = false ∧ r.queue = [] ∧ r.cfg.kind = kind ∧ r.cfg.log2 = log2 ∧ r.cfg.base = base ∧ r.cfg.ethernet = eth ∧
          r.cfg.session = ses ∧ r.cfg.peer = s.get (R.RING_LINK.PEER n) ∧ r.cfg.job = s.get (R.RING_LINK.JOB n) ∧
          r.cfg.vector = s.get (R.RING_IRQ.VECTOR n))) ∧
      (¬ ok → s.completes (.ringEnable ring none fields) [.regs] [R.RING_CFG n, R.RING_STATUS n] (fun u =>
        u.flag (R.RING_CFG.ENABLE n) = false ∧ u.flag (R.RING_STATUS.CFG_ERR n) = true))) ∧
    (∀ (via : Option (Fin 1024)) (fields : BitVec 9) (r : RingSt), s.serves → n < 6144 → s.ring n = some r → r.active = true →
      (r.cfg.ethernet = false ∧ via = none) ∨ (r.cfg.ethernet = true ∧ via.map (·.val) = some r.cfg.session) →
      let stopped : RingSt := { r with active := false, queue := [] }
      let kept : List (Started × Nat × Nat) := s.client.owed.filter (fun x => x.1.peer != n)
      let now : List Entry := r.fresh.filter (fun e => e.at_ == s.dtime)
      (r.cfg.kind = 1 → r.queue = [] → s.completes (.ringDisable ring via fields) [.regs, .client] [R.RING_CFG n] (fun u =>
        u.ring n = some stopped ∧ u.client.owed = kept ∧ u.flag (R.RING_CFG.ENABLE n) = false ∧
          ∀ k, k ≠ n → u.ring k = s.ring k)) ∧
      (r.cfg.kind = 1 → ∀ q, r.queue = [q] → ∃ u d, exec (.ringDisable ring via fields) s = .next (u.complete d .aborted 0) ∧
        s.changesOnly [.regs, .client] u ∧ u.ring n = some stopped ∧ d.ring = n ∧ d.bytes = q.bytes ∧ d.peer = r.cfg.peer ∧
        d.index = u32 (r.fetched + 2 ^ 32 - 1)) ∧
      (r.cfg.kind ≠ 1 → s.completes (.ringDisable ring via fields) [.regs, .client, .host] [R.RING_CFG n] (fun u =>
        u.ring n = some { stopped with prod := u32 (r.prod + 2 ^ 32 - now.length), fresh := [] } ∧ u.client.owed = kept ∧
          u.flag (R.RING_CFG.ENABLE n) = false ∧ (∀ k, k ≠ n → u.ring k = s.ring k) ∧
          (now = [] → u.client.irqs = s.client.irqs ∧ u.client.out = s.client.out)))) ∧
    (∀ v : BitVec 32, s.serves →
      (s.ring n = none → s.completes (.doorbell ring v) [.regs] [R.RING_STATUS n] (fun u => u.flag (R.RING_STATUS.DB_ERR n) = true)) ∧
      (∀ r, s.ring n = some r →
        let ahead := u32 (v.toNat + 2 ^ 32 - r.fetched)
        let step := u32 (v.toNat + 2 ^ 32 - r.prod)
        (r.active = false ∨ r.cfg.ethernet = true → s.completes (.doorbell ring v) [.regs] [R.RING_STATUS n] (fun u =>
          u.flag (R.RING_STATUS.DB_ERR n) = true)) ∧
        (r.active = true → r.cfg.ethernet = false → r.cfg.kind = 1 →
          (r.entries < ahead ∨ ahead < step → s.ringsOf 4 (fun _ => true) = [] →
            s.completes (.doorbell ring v) [.regs, .client] [R.RING_STATUS n] (fun u =>
              u.flag (R.RING_STATUS.DB_ERR n) = true ∧ u.ring n = some { r with halted := true })) ∧
          (ahead ≤ r.entries → step ≤ ahead → r.halted = true →
            exec (.doorbell ring v) s = .next (s.setRing n { r with prod := v.toNat })) ∧
          (ahead ≤ r.entries → step ≤ ahead → r.halted = false → s.completes (.doorbell ring v) [.client, .host] [] (fun u =>
            u.ring n = some { r with prod := v.toNat, fetched := v.toNat, queue := r.queue ++ (List.range ahead).map (fun i =>
              ⟨s.hostRead (u64 (r.cfg.base + (r.fetched + i) % r.entries * 64)) 64, [], false⟩) } ∧ ∀ k, k ≠ n → u.ring k = s.ring k))) ∧
        (r.active = true → r.cfg.ethernet = false → r.cfg.kind ≠ 1 →
          let used := u32 (r.prod + 2 ^ 32 - r.cons)
          let by_ := u32 (v.toNat + 2 ^ 32 - r.cons)
          (used < by_ → s.completes (.doorbell ring v) [.regs] [R.RING_STATUS n] (fun u => u.flag (R.RING_STATUS.DB_ERR n) = true)) ∧
          (by_ ≤ used → s.owedTo n = [] → exec (.doorbell ring v) s = .next (s.setRing n { r with cons := v.toNat })) ∧
          (by_ ≤ used → ∀ x, s.owedTo n = [x] →
            let c : RingSt := { r with cons := v.toNat }
            let t := s.setRing n c
            let paid : State := { t with client := { t.client with owed := s.client.owed.erase x } }
            c.room ≠ 0 → exec (.doorbell ring v) s = .next (paid.writeCompletion c x))))) ∧
    (∀ r, s.ring n = some r →
      (r.active = false ∨ r.irqHeld = false ∨ s.dtime < r.irqAfter → exec (.irqHoldoffEnd ring) s = .next s) ∧
      (r.active = true → r.irqHeld = true → r.irqAfter ≤ s.dtime → r.cfg.ien = true → s.vectorMasked r.cfg.vector = false →
        s.completes (.irqHoldoffEnd ring) [.client] [] (fun u => u.client.irqs = s.client.irqs ++ [(r.cfg.vector, s.dtime)] ∧
          u.ring n = some { r with irqHeld := false, irqAfter := s.dtime + r.cfg.holdoffUs * 1000 }))) ∧
    ((s.client.rings.map (·.1)).Nodup → ∃ u, exec .functionLevelReset s = .next u ∧ s.changesOnly [.regs, .client, .host] u ∧
      (∀ k r, s.ring k = some r → u.ring k = (if s.ringEthernet k = true then some r
        else some { cfg := r.cfg, active := false, epoch := r.epoch })) ∧
      u.client.started = s.client.started ∧ u.client.sessions = s.client.sessions ∧
      (∀ x ∈ u.client.owed, ∀ r, s.ring x.1.peer = some r → r.active = true → r.cfg.ethernet = true) ∧
      (∀ k r off, k < 8192 → s.ring k = some r → r.cfg.ethernet = false → s.flag (R.RING_CFG.TRANSPORT k) = false →
        R.RING_CFG k ≤ off → off < R.RING_CFG k + 32 → u.reg off = regDefault off))

/-- DESCRIPTOR_START takes the front descriptor of the ring whose turn it is, d, with its in data from host memory over PCI
Express, and the turn goes on. A ring from which nothing can start has no turn: one with none fetched, with 64 started, whose
PEER has no room, with a FENCE behind started ones, or on a module neither READY nor in recovery; the others take theirs in
ascending order, round and round. A descriptor that a check turns away completes with that status, one whose own host read
failed with DMA_ERROR, else it joins the started ones. The checks go in the order opcode, recovery, reserved bytes, rights,
parameters, length, for a correction table the length of its staged geometry. A started NOP completes OK, and a host read of in
data that fails completes its descriptor with DMA_ERROR, of FW_PUSH with code 7 as its result; a host read of a descriptor that
fails marks it. Neither does anything where no such descriptor is started or fetched. -/
def Obligations.DescriptorsStartAndAreChecked : Prop :=
  ∀ (s : State) (ring : Fin 8192) (index : BitVec 32), s.canonical →
    let n := ring.val
    (∀ d : Started,
      (opRights d.op = none → s.checkDescriptor d = some .badOpcode) ∧
      (∀ r, opRights d.op = some r →
        let ok : Prop := d.lenOk = true ∧ (d.op = 0x12 → d.len = s.tableLen d)
        (s.flag R.GLB_STATUS.RECOVERY = true → d.op ≠ 0 → d.op ≠ 0x50 → d.op ≠ 0x51 → s.checkDescriptor d = some .badOpcode) ∧
        (s.flag R.GLB_STATUS.RECOVERY = false →
          (d.reservedOk = false → s.checkDescriptor d = some .badReserved) ∧
          (d.reservedOk = true → bit d.rights r = false → s.checkDescriptor d = some .rights) ∧
          (d.reservedOk = true → bit d.rights r = true → d.paramOk = false → s.checkDescriptor d = some .badParam) ∧
          (d.reservedOk = true → bit d.rights r = true → d.paramOk = true → ¬ ok → s.checkDescriptor d = some .badLen) ∧
          (d.reservedOk = true → bit d.rights r = true → d.paramOk = true → ok → s.checkDescriptor d = none)))) ∧
    (∀ r, s.startable n r = true ↔ ∃ q qs, r.queue = q :: qs ∧ s.startedOf n < 64 ∧ s.peerRoom r = true ∧
      ¬ (bit (fieldAt q.bytes 1 1) 0 = true ∧ s.startedOf n ≠ 0) ∧
      (s.flag R.GLB_STATUS.READY = true ∨ s.flag R.GLB_STATUS.RECOVERY = true)) ∧
    ((s.client.rings.map (·.1)).Pairwise (· < ·) → s.turnOf = some n →
      (∃ r, s.ring n = some r ∧ s.startable n r = true) ∧ ∀ e ∈ s.client.rings, s.startable e.1 e.2 = true →
        (s.client.turn ≤ n → s.client.turn ≤ e.1 → n ≤ e.1) ∧ (n < s.client.turn → e.1 < s.client.turn ∧ n ≤ e.1)) ∧
    ((∃ e ∈ s.client.rings, s.startable e.1 e.2 = true) → s.turnOf ≠ none) ∧
    (∀ r q qs, s.ring n = some r → r.queue = q :: qs →
      let d := s.startOf n r q (s.ringRights r)
      let t := s.setRing n { r with queue := qs }
      let u : State := { t with client := { t.client with turn := n + 1 } }
      d.ring = n ∧ d.bytes = q.bytes ∧ d.peer = r.cfg.peer ∧ d.waiting = false ∧ (r.cfg.ethernet = false → d.rights = 7) ∧
      (s.turnOf ≠ some n → exec (.descriptorStart ring) s = .next s) ∧
      (s.turnOf = some n → q.failed = true → exec (.descriptorStart ring) s = .next (u.complete d .dmaError 0)) ∧
      (s.turnOf = some n → q.failed = false → ∀ e, s.checkDescriptor d = some e →
        exec (.descriptorStart ring) s = .next (u.complete d e 0)) ∧
      (s.turnOf = some n → q.failed = false → s.checkDescriptor d = none → exec (.descriptorStart ring) s = .next { u with
        client := { u.client with started := s.client.started ++
          [if d.ethernet = false ∧ opDataIn d.op (d.param 25 1) = true then { d with data := s.hostRead d.addr d.len }
            else d] } })) ∧
    ((∀ r, s.ring n = some r → r.queue = []) → exec (.descriptorStart ring) s = .next s) ∧
    ((∀ d ∈ s.client.started, ¬ (d.ring = n ∧ d.index = index.toNat)) →
      exec (.nopOpcode ring index) s = .next s ∧
      ((∀ r, s.ring n = some r → r.queue = []) → exec (.hostReadTimeout ring index) s = .next s) ∧
      (∀ r q, s.ring n = some r → r.cfg.ethernet = false → r.queue = [q] → r.fetched = u32 (index.toNat + 1) →
        s.completes (.hostReadTimeout ring index) [.client, .free] [] (fun u =>
          ∃ bs, u.ring n = some { r with queue := [⟨bs, [], true⟩] } ∧ ∀ k, k ≠ n → u.ring k = s.ring k))) ∧
    (∀ d, s.client.started = [d] → d.ring = n → d.index = index.toNat → d.waiting = false →
      (d.op = 0 → exec (.nopOpcode ring index) s = .next (s.complete d .ok 0)) ∧
      (d.op ≠ 0 → exec (.nopOpcode ring index) s = .next s) ∧
      (d.ethernet = false → opDataIn d.op (d.param 25 1) = true →
        exec (.hostReadTimeout ring index) s = .next (s.complete d .dmaError (if d.op = 0x51 then 7 else 0))) ∧
      (d.ethernet = true ∨ opDataIn d.op (d.param 25 1) = false → (∀ r, s.ring n = some r → r.queue = []) →
        exec (.hostReadTimeout ring index) s = .next s))

/-- SESSION_OPEN of a listed key at an enabled port of a READY module takes the lowest free session number with the rights of
the key, and enables its SUBMIT and COMPLETION rings. SESSION_CLOSE, and SESSION_TIMEOUT 5 s after the last frame heard, remove
the session and disable its rings alone (of a ring to which nothing was written on this very tick). KEEPALIVE_SEND sends 1 s after the last frame sent. SUBMIT with the ring's next index
adds its descriptors to the ring; one beyond the room is dropped whole, and one for a ring of another session closes the
session. ACK moves CONS, or sets DB_ERR. KEEPALIVE only keeps the session heard. Frames of a session that is not open do
nothing. -/
def Obligations.SessionsOpenCarryAndClose : Prop :=
  ∀ s : State, s.canonical → (s.client.rings.map (·.1)).Nodup →
    (∀ (port : Fin 2) (key : BitVec 256) (rights k : Nat),
      let hash := (List.range 32).map (fun i => BitVec.ofNat 8 (key.toNat / 256 ^ i))
      (s.ethPort port.val = false ∨ s.keyRights hash = none ∨ 1024 ≤ s.client.sessions.length →
        exec (.sessionOpen port key) s = .next s) ∧
      (s.ethPort port.val = true → s.flag R.GLB_STATUS.READY = true → s.flag R.GLB_STATUS.RECOVERY = false →
        s.client.sessions.length < 1024 → s.keyRights hash = some rights → k < 1024 → s.session k = none →
        (∀ j, j < k → s.session j ≠ none) → ∃ u, exec (.sessionOpen port key) s = .next u ∧ s.changesOnly [.regs, .client] u ∧
          u.session k = some ⟨hash, rights, s.dtime, s.dtime, port.val, s.client.openings + 1⟩ ∧
          u.client.openings = s.client.openings + 1 ∧ (∀ j, j ≠ k → u.session j = s.session j) ∧
          (∃ r, u.ring (6144 + 2 * k) = some r ∧ r.active = true ∧ r.cfg.kind = 1 ∧ r.cfg.ethernet = true ∧ r.cfg.session = k ∧
            r.cfg.peer = 6145 + 2 * k ∧ r.cfg.log2 = 8 ∧ r.prod = 0) ∧
          (∃ r, u.ring (6145 + 2 * k) = some r ∧ r.active = true ∧ r.cfg.kind = 2 ∧ r.cfg.ethernet = true ∧ r.cfg.session = k ∧
            r.prod = 0 ∧ r.cons = 0) ∧
          ∀ j, j ≠ 6144 + 2 * k → j ≠ 6145 + 2 * k → u.ring j = s.ring j)) ∧
    (∀ ses : Fin 1024,
      let k := ses.val
      let closed (u : State) : Prop := u.session k = none ∧ (∀ j, j ≠ k → u.session j = s.session j) ∧
        u.client.started = s.client.started ∧
        (∀ n r, s.ring n = some r → ¬ (r.active = true ∧ r.cfg.ethernet = true ∧ r.cfg.session = k) → u.ring n = some r) ∧
        (∀ n r, s.ring n = some r → r.active = true → r.cfg.ethernet = true → r.cfg.session = k →
          ∃ r', u.ring n = some r' ∧ r'.active = false ∧ r'.queue = [] ∧ r'.cfg = r.cfg ∧ r'.epoch = r.epoch) ∧
        ((∀ e ∈ s.client.rings, ∀ x ∈ e.2.fresh, x.at_ ≠ s.dtime) → u.client.out = s.client.out ++ [.closed k])
      (s.session k = none → exec (.sessionClose ses) s = .next s ∧ exec (.sessionTimeout ses) s = .next s ∧
        exec (.keepaliveSend ses) s = .next s ∧ exec (.keepalive ses) s = .next s ∧
        (∀ ring index p, exec (.submit ses ring index p) s = .next s) ∧ ∀ ring c, exec (.ack ses ring c) s = .next s) ∧
      (∀ x, s.session k = some x →
        (∃ u, exec (.sessionClose ses) s = .next u ∧ s.changesOnly [.regs, .client, .host] u ∧ closed u) ∧
        (s.dtime < x.lastHeard + 5000000000 → exec (.sessionTimeout ses) s = .next s) ∧
        (x.lastHeard + 5000000000 ≤ s.dtime → ∃ u, exec (.sessionTimeout ses) s = .next u ∧ closed u) ∧
        (s.dtime < x.lastSent + 1000000000 → exec (.keepaliveSend ses) s = .next s) ∧
        (x.lastSent + 1000000000 ≤ s.dtime → s.completes (.keepaliveSend ses) [.client] [] (fun u =>
          u.client.out = s.client.out ++ [.keepalive k] ∧ u.session k = some { x with lastSent := s.dtime } ∧
          u.client.rings = s.client.rings)) ∧
        s.completes (.keepalive ses) [.client] [] (fun u => u.session k = some { x with lastHeard := s.dtime } ∧
          u.client.rings = s.client.rings ∧ u.client.out = s.client.out) ∧
        (∀ (ring : BitVec 16) (index cons : BitVec 32) (p : List Byte),
          let n := ring.toNat
          let ds := frameDescriptors p
          (s.bound k n = none → (∃ u, exec (.submit ses ring index p) s = .next u ∧ closed u) ∧
            ∃ u, exec (.ack ses ring cons) s = .next u ∧ closed u) ∧
          (∀ r, s.bound k n = some r →
            (r.cfg.kind ≠ 1 ∨ r.prod ≠ index.toNat → ∃ u, exec (.submit ses ring index p) s = .next u ∧ closed u) ∧
            (r.cfg.kind = 1 → r.prod = index.toNat → r.prod + ds.length ≤ r.fetched + r.entries →
              s.completes (.submit ses ring index p) [.client] [] (fun u => u.session k = some { x with lastHeard := s.dtime } ∧
                u.ring n = some { r with prod := u32 (r.prod + ds.length), fetched := u32 (r.prod + ds.length)
                                         queue := r.queue ++ ds } ∧ ∀ j, j ≠ n → u.ring j = s.ring j)) ∧
            (r.cfg.kind = 1 → r.prod = index.toNat → r.fetched + r.entries < r.prod + ds.length →
              s.ringsOf 4 (fun c => c.allJobs && c.ethernet && c.session == k) = [] →
              s.completes (.submit ses ring index p) [.client] [] (fun u => u.client.rings = s.client.rings)) ∧
            (r.cfg.kind ≠ 1 →
              let by_ := u32 (cons.toNat + 2 ^ 32 - r.cons)
              let used := u32 (r.prod + 2 ^ 32 - r.cons)
              (by_ ≤ used → s.owedTo n = [] → s.completes (.ack ses ring cons) [.client] [] (fun u => u.ring n = some { r with cons := cons.toNat } ∧
                u.session k = some { x with lastHeard := s.dtime } ∧ ∀ j, j ≠ n → u.ring j = s.ring j)) ∧
              (used < by_ → s.completes (.ack ses ring cons) [.regs, .client] [R.RING_STATUS n] (fun u =>
                u.flag (R.RING_STATUS.DB_ERR n) = true ∧ u.client.rings = s.client.rings)))))))

/-! ### Opcodes, the stage and commits -/

/-- d is the started descriptor of the row's ring and index with its opcode. REG_READ completes with one or two registers as a
read gives them; REG_WRITE does what a 32-bit BAR0 write does, over Ethernet one through its session; MEM_READ of a range that resolves delivers
the bytes loaded, MEM_WRITE stores its data; a range that does not resolve gives BAD_PARAM (log entry 34), a failing word
PARITY. CAM_REG of a camera that discovery has in hand gives CAM_BUSY, a write to a protected register of a STREAMING camera
CAM_PROTECTED; with an access under way it waits, else the access goes out and the descriptor stays started. None of these acts
where no such descriptor is started. -/
def Obligations.TargetOpcodes : Prop :=
  ∀ (s : State) (ring : Fin 8192) (index : BitVec 32), s.canonical →
    let as_ (op : Nat) (d : Started) : Prop := s.startedAs ring.val index.toNat op = some d
    ((∀ d ∈ s.client.started, ¬ (d.ring = ring.val ∧ d.index = index.toNat)) →
      ∀ i ∈ [Instr.regRead ring index, .regWrite ring index, .memRead ring index, .memWrite ring index, .camRegRead ring index,
        .camRegWrite ring index, .soWait ring index, .soSignal ring index, .commit ring index, .discard ring index,
        .attest ring index], exec i s = .next s) ∧
    (∀ d, as_ 0x01 d →
      (d.param 28 1 = 1 → exec (.regRead ring index) s = .next ((s.readReg (d.param 24 4)).2.complete d .ok (s.readReg (d.param 24 4)).1)) ∧
      (d.param 28 1 = 2 → ∀ lo hi t u, s.readReg (d.param 24 4) = (lo, t) → t.readReg (d.param 24 4 + 4) = (hi, u) →
        exec (.regRead ring index) s = .next (u.complete d .ok (lo + hi * 2 ^ 32)))) ∧
    (s.boot.power = true → s.flag R.STG_CTL.VIEW = false → s.readReg R.GLB_SCRATCH = ((s.reg R.GLB_SCRATCH).toNat, s)) ∧
    (∀ d, as_ 0x02 d →
      let via : Option Nat := if d.ethernet then some d.session else none
      exec (.regWrite ring index) s = .next ((s.barWrite via (d.param 24 4) (d.param 28 4)).complete d .ok 0)) ∧
    (∀ (off : BitVec 22) (v : BitVec 32), off.toNat % 4 = 0 →
      exec (.registerWrite off 4 v) s = .next (s.barWrite none off.toNat v.toNat)) ∧
    (∀ d, as_ 0x03 d →
      (s.reachable .firmware (d.param 24 8) d.len = false → exec (.memRead ring index) s = .next (s.complete d .badParam 0)) ∧
      (s.reachable .firmware (d.param 24 8) d.len = true → ∀ r bs u, s.load .firmware (d.param 24 8) d.len = (r, bs, u) →
        (r = .ok → d.ethernet = false → exec (.memRead ring index) s = .next ((u.hostWrite d.addr bs).complete d .ok 0)) ∧
        (r ≠ .ok → exec (.memRead ring index) s = .next (u.complete d .parity 0)))) ∧
    (∀ d, as_ 0x04 d →
      (s.reachable .firmware (d.param 24 8) d.len = false → exec (.memWrite ring index) s = .next (s.complete d .badParam 0)) ∧
      (s.reachable .firmware (d.param 24 8) d.len = true → ∀ r u, s.store .firmware (d.param 24 8) d.data = (r, u) →
        exec (.memWrite ring index) s = .next (u.complete d (if r = .ok then .ok else .parity) 0))) ∧
    (∀ d (read : Bool), as_ 0x14 d → d.param 25 1 = (if read then 0 else 1) → s.cams.length = 16 → d.param 24 1 < 16 →
      let i : Instr := if read then .camRegRead ring index else .camRegWrite ring index
      let c := d.param 24 1
      let shut : Bool := !read && s.camState c == 4 && ([0x4008, 0x4014].contains (d.param 28 4) ||
        (s.cam c).widthAddr == some (d.param 28 4) || (s.cam c).fmtAddr == some (d.param 28 4))
      (s.camState c = 1 ∨ s.camState c = 2 ∨ s.camState c = 3 → exec i s = .next (s.complete d .camBusy 0)) ∧
      (s.camState c = 0 ∨ 4 ≤ s.camState c → shut = true → exec i s = .next (s.complete d .camProtected 0)) ∧
      (s.camState c = 0 ∨ 4 ≤ s.camState c → shut = false → (s.cam c).access ≠ none → exec i s = .next s) ∧
      (s.camState c = 0 ∨ 4 ≤ s.camState c → shut = false → (s.cam c).access = none → s.completes i [.client, .cams] [] (fun u =>
        (u.cam c).access = some { ring := d.ring, index := d.index, read := read, since := s.dtime } ∧
        u.client.started = s.client.started.map (fun x => if x == d then { x with waiting := true } else x) ∧
        u.client.rings = s.client.rings ∧ ∀ k, k ≠ c → u.cam k = s.cam k)))

/-- While the stage is frozen and on the tick of a freeze's end none of them acts, nor does one that is not the first staging descriptor started. For the one
whose turn it is, d: SEQ_WRITE stages its entries from FIRST on; LPIPE_TABLE of the right length its values, of another
BAD_LEN; NET_SET and ALLOW_LOAD their data; JOB_CTL stages a start of a job that does not run and a stop of one that does, else
JOB_STATE (log entry 37). IMAGE_LOAD of a program that passes R258 and fits its area stores the body there and stages its
reference, under the signers that were in force as it started; a failing check gives its status, no room STAGE_FULL, a
failing store PARITY; so a weight set; a reference image is stored at its DEST, clear of what the area holds, and staged if its
decode ends OK or SHORT_DATA, and one whose decode takes its budget completes with TIMED_OUT. -/
def Obligations.StagingOpcodes : Prop :=
  ∀ (s : State) (ring : Fin 8192) (index cycles written : BitVec 32), s.canonical →
    let as_ (op : Nat) (d : Started) : Prop := s.stagingAs ring.val index.toNat op = some d
    let all := [Instr.imageLoadProgram ring index, .imageLoadWeights ring index, .imageLoadReference ring index ⟨cycles, written⟩,
      .seqWrite ring index, .lpipeTable ring index, .setLoadRaw ring index, .setLoadEntries ring index, .setLoadClear ring index,
      .jobStart ring index, .jobStop ring index, .netSet ring index, .allowLoad ring index]
    let ends (i : Instr) (d : Started) (st : Status) : Prop := exec i s = .next (s.complete d st 0)
    let stages (i : Instr) (d : Started) (cs : List Comp) (p : State → Prop) : Prop := ∃ u,
      exec i s = .next (u.complete d .ok 0) ∧ s.changesOnly cs u ∧ p u
    (s.flag R.STG_STATUS.FROZEN = true ∨ s.stage.thawed = some s.dtime → ∀ i ∈ all, exec i s = .next s) ∧
    (∀ d, s.client.started.find? (fun x => stagingOp x.op) = some d → d.ring ≠ ring.val ∨ d.index ≠ index.toNat →
      ∀ i ∈ all, exec i s = .next s) ∧
    (∀ d, as_ 0x11 d → stages (.seqWrite ring index) d [.stage] (fun u => u.stage.seqTouched = true ∧
      (∀ k, k < d.data.length / 32 → keyGet u.stage.seq (d.param 24 2 + k) = some (SeqEntry.ofBytes (sliceBytes d.data (32 * k) 32))) ∧
      ∀ k, (k < d.param 24 2 ∨ d.param 24 2 + d.data.length / 32 ≤ k) → keyGet u.stage.seq k = keyGet s.stage.seq k)) ∧
    (∀ d, as_ 0x12 d →
      let c := d.param 24 1
      let k := d.param 25 1
      let n := s.withStage.width c * s.withStage.sensorLines c
      let len := if k = 2 then (n + 7) / 8 else 2 * n
      (d.len ≠ len → ends (.lpipeTable ring index) d .badLen) ∧
      (d.len = len → stages (.lpipeTable ring index) d [.stage] (fun u => ∃ vs, (c, k, vs) ∈ u.stage.tables ∧ vs.length = n ∧
        (k ≠ 2 → ∀ j, j < n → nth vs j 0 = fieldAt d.data (2 * j) 2) ∧
        (k = 2 → ∀ j, j < n → nth vs j 0 = (if bit (fieldAt d.data (j / 8) 1) (j % 8) then 1 else 0)) ∧
        ∀ x ∈ u.stage.tables, (x.1 = c ∧ x.2.1 = k → x.2.2 = vs) ∧ (x.1 ≠ c ∨ x.2.1 ≠ k → x ∈ s.stage.tables)))) ∧
    (∀ d, as_ 0x40 d → stages (.netSet ring index) d [.stage] (fun u =>
      u.stage = { s.stage with nets := keyPut s.stage.nets (d.param 24 1) d.data })) ∧
    (∀ d, as_ 0x41 d → stages (.allowLoad ring index) d [.stage] (fun u => u.stage = { s.stage with allow := some d.data })) ∧
    (∀ d, as_ 0x20 d →
      let j := d.param 24 1
      let runs : Prop := s.jobState j = 2 ∨ s.jobState j = 3
      (d.param 25 1 = 0 → (runs → ends (.jobStart ring index) d .jobState) ∧ (¬ runs → stages (.jobStart ring index) d [.stage] (fun u =>
        u.stage = { s.stage with jobs := keyPut s.stage.jobs j .start }))) ∧
      (d.param 25 1 = 1 → (¬ runs → ends (.jobStop ring index) d .jobState) ∧ (runs → stages (.jobStop ring index) d [.stage] (fun u =>
        u.stage = { s.stage with jobs := keyPut s.stage.jobs j .stop })))) ∧
    (∀ d, as_ 0x10 d →
      let j := d.param 25 1
      let t := s.withStage
      let area := t.areaOf (t.jobPart j)
      (d.param 24 1 = 0 →
        let b := d.data.take (fieldAt d.data 8 8)
        (∀ e, imageStatus d.signers d.data = some e → ends (.imageLoadProgram ring index) d e) ∧
        (imageStatus d.signers d.data = none → s.stagePlace j (.image j) b.length = none →
          ends (.imageLoadProgram ring index) d .stageFull) ∧
        (∀ a r u, imageStatus d.signers d.data = none → s.stagePlace j (.image j) b.length = some a → s.store .firmware a b = (r, u) →
          area.1 ≤ a ∧ a + b.length ≤ area.1 + area.2 ∧
          (r = .ok → exec (.imageLoadProgram ring index) s = .next ((u.setStage { s.stage with
            images := keyPut s.stage.images j (imageRef a b) }).complete d .ok 0)) ∧
          (r ≠ .ok → exec (.imageLoadProgram ring index) s = .next (u.complete d .parity 0)))) ∧
      (d.param 24 1 = 1 →
        (weightsOk d.data = false → ends (.imageLoadWeights ring index) d .imgFormat) ∧
        (weightsOk d.data = true → s.stagePlace j (.weights j) d.data.length = none → ends (.imageLoadWeights ring index) d .stageFull) ∧
        (∀ a r u, weightsOk d.data = true → s.stagePlace j (.weights j) d.data.length = some a → s.store .firmware a d.data = (r, u) →
          area.1 ≤ a ∧ a + d.data.length ≤ area.1 + area.2 ∧
          (r = .ok → exec (.imageLoadWeights ring index) s = .next ((u.setStage { s.stage with
            weights := keyPut s.stage.weights j (weightRef a d.data) }).complete d .ok 0)) ∧
          (r ≠ .ok → exec (.imageLoadWeights ring index) s = .next (u.complete d .parity 0)))) ∧
      (d.param 24 1 = 2 →
        let dest := d.param 32 8
        let slot := d.param 26 1
        let n := d.param 40 4
        let fits : Prop := area.1 ≤ dest ∧ dest + n ≤ area.1 + area.2 ∧ s.reachable .firmware dest n = true ∧
          ∀ u ∈ s.areaUsed (.ref j slot), apart u (dest, n) = true
        let budget := if d.param 48 4 = 0 then s.get R.ADP_IN_BUDGET.N else d.param 48 4
        let x := decodeSample (fileFormat d.data) d.data n (d.param 44 2) (d.param 46 2)
        let counted : Prop := x.status = .ok ∨ x.status = .shortData ∨ x.status = .corrupt
        let i := Instr.imageLoadReference ring index ⟨cycles, written⟩
        (¬ fits → ends i d .stageFull) ∧
        (fits → ∀ u, s.storeAll .inputPipe dest x.writes = (true, u) → cycles.toNat < budget ∨ ¬ counted →
          (x.status = .ok ∨ x.status = .shortData →
            exec i s = .next ((u.stageRef ⟨j, slot, dest, n, x.status == .shortData⟩).complete d x.status.status 0)) ∧
          (x.status ≠ .ok → x.status ≠ .shortData → exec i s = .next (u.complete d x.status.status 0))) ∧
        (fits → ∀ u, s.storeAll .inputPipe dest x.writes = (false, u) → cycles.toNat < budget ∨ ¬ counted →
          exec i s = .next (u.complete d .parity 0)) ∧
        (fits → ∀ u, budget ≤ cycles.toNat → counted → s.storeAll .inputPipe dest (x.writes.take written.toNat) = (true, u) →
          exec i s = .next (u.complete d .timedOut 0))))

/-- d is the SET_LOAD descriptor whose turn it is, c the staged configuration of its set. Firmware reads the shard maps of that
set and of the sets in force first: m is the state after it, s itself where none has a map; one out of reach gives BAD_PARAM, a
failing one PARITY. A set whose memory overlaps one in force gives SET_ACTIVE in each mode. Raw data beyond the set's memory, or out of reach, gives BAD_PARAM (log entry 34); else it
is stored at its offset, and a doubtful copy that loads have replaced as a whole is so no longer; a failing store gives PARITY.
Of one entry for a local set: a search that ends at an EMPTY place writes it there and completes with 1 inserted, one that hits
the key completes with 1 skipped in the high half, one that runs out of buckets gives SET_FULL. A clear of a set in usable pages
only removes bytes, so that each 4 KiB piece of the set's memory reads 0 afterwards, and completes OK. -/
def Obligations.SetLoads : Prop :=
  ∀ (s : State) (ring : Fin 8192) (index : BitVec 32) (d : Started), s.canonical →
    s.stagingAs ring.val index.toNat 0x13 = some d →
    let c := s.loadCfg d
    let mode := d.param 25 1
    let a := cfgBase c + d.param 32 8
    let i : Instr := if mode = 0 then .setLoadRaw ring index else if mode = 1 then .setLoadEntries ring index else .setLoadClear ring index
    let maps := s.mapsRead (c :: ((List.range 16).map s.setCfg).filter cfgEnabled)
    ((∀ k, k < 16 → cfgEnabled (s.setCfg k) = true → cfgFabric (s.setCfg k) = false) → cfgFabric c = false → maps = (.ok, s)) ∧
    (∀ m, mode ≤ 2 → maps = (.range, m) → exec i s = .next (m.complete d .badParam 0)) ∧
    (∀ m, mode ≤ 2 → maps = (.parity, m) → exec i s = .next (m.complete d .parity 0)) ∧
    (∀ m, maps = (.ok, m) →
    (mode ≤ 2 → m.setActive c = true → exec i s = .next (m.complete d .setActive 0)) ∧
    (m.setActive c = false →
      (mode = 0 → 256 * cfgBuckets c * 64 < d.param 32 8 + d.len ∨ m.reachable .firmware a d.len = false →
        exec i s = .next (m.complete d .badParam 0)) ∧
      (mode = 0 → d.param 32 8 + d.len ≤ 256 * cfgBuckets c * 64 → m.reachable .firmware a d.len = true →
        ∀ r u, m.store .firmware a d.data = (r, u) →
          (r = .ok → exec i s = .next ((u.reloaded a d.data.length).complete d .ok 0)) ∧
          (r ≠ .ok → exec i s = .next (u.complete d .parity 0))) ∧
      (mode = 1 ∨ mode = 2 → m.setReach c = false → exec i s = .next (m.complete d .badParam 0)) ∧
      (mode = 1 → m.setReach c = true → cfgFabric c = false → d.data.length = 16 →
        let key := fieldAt d.data 0 11
        let slot := m.shardSlot c (keyShard key)
        ∀ f u, m.search .firmware c slot key (cfgProbe c) 0 = (f, u) →
          (∀ b e st nd k, f = .hit b e st nd k → exec i s = .next (u.complete d .ok (2 ^ 32))) ∧
          (∀ k, f = .limit k → exec i s = .next (u.complete d .setFull 0)) ∧
          (∀ b e k, f = .empty b e k → exec i s = .next ((u.storeBack .firmware (bucketAddr c slot b + e * 16)
            (keyBytes key ++ leBytes 1 (fieldAt d.data 11 1) ++ leBytes 4 (fieldAt d.data 12 4))).complete d .ok 1))) ∧
      (mode = 2 → m.setReach c = true → (∀ e ∈ m.cel.retired, e.unusable = false) →
        (∀ r ∈ m.setRanges c, ∀ k, k < (r.1 % 4096 + r.2 + 4095) / 4096 →
          m.resolve .firmware (max r.1 (r.1 / 4096 * 4096 + 4096 * k)) ≠ none) → ∃ u, exec i s = .next (u.complete d .ok 0) ∧ m.changesOnly [.mem, .cel] u ∧
        (∀ x ∈ u.mem, x ∈ m.mem) ∧ u.cel.retired = m.cel.retired ∧
        ∀ r ∈ m.setRanges c, ∀ k, k < (r.1 % 4096 + r.2 + 4095) / 4096 →
          let lo := max r.1 (r.1 / 4096 * 4096 + 4096 * k)
          let hi := min (r.1 + r.2) (r.1 / 4096 * 4096 + 4096 * (k + 1))
          ∀ h, m.resolve .firmware lo = some h → ∀ j, lo + j < hi → Memory.byte u.mem (m.phys h + j) = 0)))

/-- COMMIT with none under way freezes the stage, begins its check and stays started; with one under way it gives
COMMIT_PENDING. COMMIT_CHECK_DONE without a check under way does nothing; where a read of the staged images fails it unfreezes
the stage and completes PARITY; those reads clean, with a failing rule it shows its code, counts, unfreezes and completes CHECK_FAILED; with none it
makes the commit PENDING, LATE_TRIGGER set if its time has been reached. COMMIT_APPLY does nothing before its tick, nor while
POS_LOST for a commit at WPOS; on it a live rule that fails refuses the commit, else the stage comes into force: v is the state
after that, and the stage and the open pairs are empty, the tick is noted and the commit counted. Of a stage that holds a word
for SDG_WIN and one correction table, that word is then in the register, the window of verdicts starts anew where it differs, and
the table is in force at its camera, the others there and at other cameras being kept. DISCARD empties the stage,
ends a commit with DISCARDED and completes OK. -/
def Obligations.CommitsFreezeCheckAndApply : Prop :=
  ∀ s : State, s.canonical →
    let flags (t : State) : Bool × Bool × Bool := (t.flag R.STG_STATUS.FROZEN, t.flag R.STG_STATUS.CHECKING, t.flag R.STG_STATUS.PENDING)
    -- Firmware has read what it checks, and leaves w.
    let clean (w : State) : Prop := ∃ bs, s.loadAll .firmware s.checkReads = (true, bs, w)
    let thawed (u : State) : Option Nat := if u.flag R.STG_STATUS.FROZEN then some u.dtime else u.stage.thawed
    (∀ (ring : Fin 8192) (index : BitVec 32) (d : Started), s.startedAs ring.val index.toNat 0x21 = some d →
      (∀ c, s.stage.commit = some c → exec (.commit ring index) s = .next (s.complete d .commitPending 0)) ∧
      (s.stage.commit = none → s.flag R.STG_STATUS.PENDING = false →
        s.completes (.commit ring index) [.regs, .client, .stage] [R.STG_STATUS] (fun t => flags t = (true, true, false) ∧
          t.stage = { s.stage with commit := some { ring := some (d.ring, d.index), when_ := d.param 24 1, at_ := d.param 32 8 } } ∧
          t.client.started = s.client.started.map (fun x => if x == d then { x with waiting := true } else x) ∧
          t.client.rings = s.client.rings))) ∧
    (s.stage.commit = none ∨ s.flag R.STG_STATUS.CHECKING = false → exec .commitCheckDone s = .next s) ∧
    (s.commitDue = none → exec .commitApply s = .next s) ∧
    (∀ c, s.stage.commit = some c →
      let reached : Bool := (c.when_ == 1 && decide (c.at_ ≤ s.pos.wpos)) || (c.when_ == 2 && decide (c.at_ ≤ s.dtime))
      let due : Bool := s.flag R.STG_STATUS.PENDING && decide (c.since < s.dtime) && (c.when_ == 0 || reached) &&
        !(c.when_ == 1 && s.flag R.POS_STATUS.POS_LOST)
      s.commitDue = (if due then some c else none) ∧
      (∀ r i d, c.ring = some (r, i) → s.client.started.find? (fun x => x.ring == r && x.index == i) = some d →
        let refused (i : Instr) (live : Bool) (w : State) : Prop := ∃ u,
          exec i s = .next (u.complete d .checkFailed (w.checkStage live)) ∧ w.changesOnly [.regs, .stage] u ∧
          w.keepsRegs [R.STG_STATUS, R.STG_LAST, R.STG_CNT_REFUSED] u ∧ flags u = (false, false, false) ∧
          u.stage = { s.stage with commit := none, thawed := thawed s } ∧ u.get R.STG_LAST.RULE = u16 (w.checkStage live) ∧
          w.counts R.STG_CNT_REFUSED.N 1 u
        (s.flag R.STG_STATUS.CHECKING = true → ∀ w, clean w → w.checkStage false ≠ 0 → refused .commitCheckDone false w) ∧
        (s.flag R.STG_STATUS.CHECKING = true → ∀ bs w, s.loadAll .firmware s.checkReads = (false, bs, w) → ∃ u,
          exec .commitCheckDone s = .next (u.complete d .parity 0) ∧ w.changesOnly [.regs, .stage] u ∧
          w.keepsRegs [R.STG_STATUS] u ∧ flags u = (false, false, false) ∧ u.stage = { s.stage with commit := none, thawed := thawed w }) ∧
        (due = true → s.checkStage true ≠ 0 → refused .commitApply true s)) ∧
      (s.flag R.STG_STATUS.CHECKING = true → s.flag R.STG_STATUS.FROZEN = true → ∀ w, clean w → w.checkStage false = 0 →
        ∃ t, exec .commitCheckDone s = .next t ∧ w.changesOnly [.regs, .stage] t ∧ w.keepsRegs [R.STG_STATUS] t ∧
          flags t = (true, false, true) ∧ t.stage = { s.stage with commit := some { c with since := s.dtime } } ∧
          t.flag R.STG_STATUS.LATE_TRIGGER = (s.flag R.STG_STATUS.LATE_TRIGGER || reached)) ∧
      (due = true → s.checkStage true = 0 → s.applyStage.calm →
        let v := s.applyStage
        ∃ t, (c.ring = none → exec .commitApply s = .next t) ∧
          (∀ r i d, c.ring = some (r, i) → v.client.started.find? (fun x => x.ring == r && x.index == i) = some d →
            exec .commitApply s = .next (t.complete d .ok v.dtime)) ∧
          v.changesOnly [.regs, .staged, .pairs, .stage] t ∧
          v.keepsRegs [R.STG_STATUS, R.ADP_PUB_STATUS, R.STG_COMMIT_DTIME_LO, R.STG_COMMIT_DTIME_HI, R.STG_COMMIT_CNT] t ∧
          flags t = (false, false, false) ∧ t.staged = [] ∧ t.stage = { thawed := thawed v } ∧ t.pairs = [] ∧
          t.flag R.STG_STATUS.PAIR_OPEN = false ∧
          t.get64 R.STG_COMMIT_DTIME_LO.N R.STG_COMMIT_DTIME_HI.N = v.dtime % 2 ^ 64 ∧
          t.get R.STG_COMMIT_CNT.N = u32 (v.get R.STG_COMMIT_CNT.N + 1))) ∧
    (∀ (w : BitVec 32) (c k : Nat) (vs : List Nat), s.staged = [(R.SDG_WIN, w)] →
      s.stage = { commit := s.stage.commit, thawed := s.stage.thawed, tables := [(c, k, vs)] } →
      s.flag R.POS_CTL.REZERO = false → s.flag R.PSQ_CTL.REAPPLY = false → s.flag R.ADP_CAP_CFG.ARM = false →
      (∀ q, q < 4 → s.quadState q ≠ 2) →
      let v := s.applyStage
      v.reg R.SDG_WIN = w ∧ v.sdg.win = (if s.reg R.SDG_WIN = w then s.sdg.win else []) ∧
      (v.tables c).dark = (if k = 0 then some vs else (s.tables c).dark) ∧
      (v.tables c).gain = (if k = 1 then some vs else (s.tables c).gain) ∧
      (v.tables c).defect = (if 2 ≤ k then some vs else (s.tables c).defect) ∧
      ∀ x, x ≠ c → v.tables x = s.tables x) ∧
    (∀ (ring : Fin 8192) (index : BitVec 32) (d : Started), s.startedAs ring.val index.toNat 0x22 = some d →
      let t0 (u : State) : Prop := flags u = (false, false, false) ∧ u.staged = [] ∧ u.stage = { thawed := thawed s } ∧
        s.changesOnly [.regs, .staged, .stage] u ∧ s.keepsRegs [R.STG_STATUS, R.ADP_PUB_STATUS] u
      (s.stage.commit = none → ∃ u, t0 u ∧ exec (.discard ring index) s = .next (u.complete d .ok 0)) ∧
      (∀ c r i e, s.stage.commit = some c → c.ring = some (r, i) →
        s.client.started.find? (fun x => x.ring == r && x.index == i) = some e →
        ∃ u, t0 u ∧ exec (.discard ring index) s = .next ((u.complete e .discarded 0).complete d .ok 0)))

/-! ### Memory, retirement, boot and the test access port -/

/-- For an agent of partition 0-7 and bytes within one word w that is mapped as a whole: where the words of its line are sound, the
store takes the bytes, every other byte of memory keeps its value, and a load gives the bytes back. An address that resolves
nowhere gives RANGE with no effect. A stuck word of a usable page that the Pantry does not hold, the only bad one of its line,
fails a load with PARITY, counts in CEL_CNT_HARD and shows its address. PAGE_RETIRE with no page waiting changes nothing. With no
set enabled, the first waiting page of a channel with a free spare is copied onto its lowest unused spare, FREE falls by one,
CEL_CNT_RETIRED counts and the page joins the list; without a marked word nothing else changes, and where every marked word is
stuck those that no good Pantry line holds are copied as 0 and counted as hard faults. With no free spare SPARES_OUT is set and
the page is listed unusable. A write of CEL_RET_IDX shows the entry. -/
def Obligations.MemoryWordsAndRetirement : Prop :=
  ∀ (s : State) (ag : MemAgent) (a : Nat) (bs : List Byte), s.canonical → ag.part < 8 → bs ≠ [] → a % 4 + bs.length ≤ 4 →
    let w := a / 4 * 4
    (∀ h, (∀ i, i < 4 → s.resolve ag (w + i) = some (h.plus i)) → s.phys h % 4 = 0 → s.unusable h = false →
       (∀ k, k < 16 → s.wordCheck (s.phys (h.inLine (4 * k))) = none) →
      ∃ t u, s.store ag a bs = (.ok, t) ∧ t.load ag a bs.length = (.ok, bs, u) ∧ u.mem = t.mem ∧
        ∀ x, Memory.byte t.mem x = if s.phys h + a % 4 ≤ x ∧ x < s.phys h + a % 4 + bs.length
          then nth bs (x - (s.phys h + a % 4)) 0 else Memory.byte s.mem x) ∧
    (s.resolve ag a = none → s.resolve ag w = none → s.store ag a bs = (.range, s) ∧ (s.load ag a bs.length).1 = .range ∧
      (s.load ag a bs.length).2.2 = s) ∧
    (∀ h b, s.resolve ag w = some h → h.inLine (w % 64) = h → s.unusable h = false → (s.look ag h).1 ≠ .hit →
      s.wordCheck (s.phys h) = some b → b.stuck = true →
      (∀ k, k < 16 → 4 * k ≠ w % 64 → s.wordCheck (s.phys (h.inLine (4 * k))) = none) →
      ∃ u bs', s.load ag a bs.length = (.parity, bs', u) ∧ u.mem = s.mem ∧ s.counts R.CEL_CNT_HARD.N 1 u ∧
        u.flag R.CEL_STATUS.HARD_SEEN = true ∧ u.get64 R.CEL_FAULT_LO.ADDR R.CEL_FAULT_HI.ADDR = w) ∧
    (nextRetire s.cel.toRetire = none → exec .pageRetire s = .next s) ∧
    (∀ ch page k, nextRetire s.cel.toRetire = some (ch, page) → ch < 32 → page < 32704 →
      (∀ n, n < 16 → cfgEnabled (s.setCfg n) = false) → 0 < s.get (R.CEL_SPARE.FREE ch) → k < 64 →
      (∀ e ∈ s.cel.retired, e.channel = ch → e.unusable = false → e.spare ≠ k) →
      (∀ j, j < k → ∃ e ∈ s.cel.retired, e.channel = ch ∧ e.unusable = false ∧ e.spare = j) →
      let src := s.phys (.cellar ch (page * 65536))
      let dst := ch * 2147483648 + (32704 + k) * 65536
      let lost := s.marksIn ch page
      let onto (t : State) : Prop :=
        t.cel.toRetire = s.cel.toRetire.filter (· != (ch, page)) ∧
        t.cel.retired = s.cel.retired ++ [⟨ch, page, k, !lost.isEmpty, false⟩] ∧
        t.cel.bad = s.cel.bad.filter (fun b => b.stuck || decide (b.word < dst / 4) || decide (dst / 4 + 16384 ≤ b.word)) ∧
        t.cel.lines = s.cel.lines ∧ t.cel.doubtful = s.cel.doubtful ∧
        t.get (R.CEL_SPARE.FREE ch) + 1 = s.get (R.CEL_SPARE.FREE ch) ∧ s.counts R.CEL_CNT_RETIRED.N 1 t ∧
        ∀ x, Memory.byte t.mem x = if dst ≤ x ∧ x < dst + 65536 then
            (if (x - dst) / 4 * 4 ∈ lost then 0 else Memory.byte s.mem (x - dst + src))
          else Memory.byte s.mem x
      let always := [R.CEL_SPARE ch, R.CEL_CNT_RETIRED] ++ lineStopOffsets
      (lost = [] → s.completes .pageRetire [.regs, .mem, .cel, .loft] always onto) ∧
      ((∀ b ∈ s.cel.bad, b.stuck = true) → s.completes .pageRetire [.regs, .mem, .cel, .loft, .free]
        ([R.CEL_FAULT_LO, R.CEL_FAULT_HI, R.CEL_FAULT_INFO, R.CEL_STATUS, R.CEL_CNT_HARD] ++ always) (fun t =>
          onto t ∧ s.counts R.CEL_CNT_HARD.N lost.length t))) ∧
    (∀ ch page, nextRetire s.cel.toRetire = some (ch, page) → s.get (R.CEL_SPARE.FREE ch) = 0 →
      s.completes .pageRetire [.regs, .cel, .loft] (R.CEL_STATUS :: lineStopOffsets) (fun t =>
        t.flag R.CEL_STATUS.SPARES_OUT = true ∧ t.cel.retired = s.cel.retired ++ [⟨ch, page, 63, false, true⟩] ∧
        t.cel.toRetire = s.cel.toRetire.filter (· != (ch, page)))) ∧
    (∀ index : BitVec 11, s.serves → s.completes (.celRetRead index) [.regs] [R.CEL_RET_IDX, R.CEL_RET_DATA] (fun t =>
      t.get R.CEL_RET_IDX.INDEX = index.toNat ∧ t.reg R.CEL_RET_DATA = BitVec.ofNat 32
        (match s.cel.retired[index.toNat]? with | some e => e.word | none => 0)))

/-- MODULE_RESET acts while the module is powered with XTAL_READY, neither READY nor in RECOVERY. It sets cause RESET and sends the
line stop. A readable slot that passes the checks gives READY with clean memories and the valid configuration or CFG_LOST, unless
a memory-side die is lost; a failing check gives RECOVERY with its code, and so does a flash that cannot be read, with a code the
spec does not give. BOOT_CTL with KEY 0xA5 and RESET is a reset, another KEY an access error, without power neither. POWER_ON of
an unpowered module is a reset; a SUPPLY_DROP, or a sensor above its trip limit, leaves it in reset with its field side as it was,
the rails off and the test access port reset. A reset keeps the module's identity, flash and retirement list and the queue;
nothing is READY, DTIME is 0. FUSE_BLOW acts while FUSE_BUSY: the anti-rollback count rises by one to the image's SVN, then the
slots to revoke are. BOOT_CERT_CTL shows a certificate's length and the word selected. -/
def Obligations.BootFusesAndResets : Prop :=
  ∀ (s : State), s.canonical →
    let due : Prop := s.boot.power = true ∧ s.flag R.GLB_STATUS.READY = false ∧ s.flag R.GLB_STATUS.RECOVERY = false ∧
      s.flag R.CLK_STATUS.XTAL_READY = true
    let isReset (t : State) : Prop := t.pending = s.pending ∧ t.module = s.module ∧ t.host = s.host ∧ t.free = s.free ∧
      t.dtime = 0 ∧ t.mem = [] ∧ t.cel.retired = s.cel.retired ∧ t.boot.slot = s.boot.slot ∧ t.boot.cfgA = s.boot.cfgA ∧
      t.boot.cfgB = s.boot.cfgB ∧ t.flag R.GLB_STATUS.READY = false ∧ t.flag R.GLB_STATUS.RECOVERY = false ∧
      t.client.started = [] ∧ t.jobs = [] ∧ t.seq = {} ∧ t.canonical
    let off (i : Instr) : Prop := ∃ t, exec i s = .next t ∧
      { t with field := {} } = { (s.resetFrom) with field := {}, boot := t.boot } ∧ isReset t ∧ t.boot.power = false ∧
      t.boot.tap = s.module.tapReset ∧ t.field = { s.field with offAt := some s.field.ftime }
    let stops (t : State) : Prop := bit (t.get R.FLD_LS_CAUSE.CAUSE) 0 = true ∧
      (s.pinsTaken = false → ∃ q, ⟨q, .lsSet false⟩ ∈ t.link.down)
    let recovers (t : State) : Prop := t.flag R.GLB_STATUS.RECOVERY = true ∧ t.flag R.BOOT_STATUS.RECOVERY = true ∧
      t.flag R.GLB_STATUS.READY = false ∧ t.boot.running = s.boot.running ∧ t.mem = s.mem
    (¬ due → ∀ readable kat, exec (.moduleReset readable kat) s = .next s) ∧
    (∀ readable kat, due → readable = false ∨ s.pinsTaken = true → ∃ t, exec (.moduleReset readable kat) s = .next t ∧
      stops t ∧ recovers t) ∧
    (∀ kat, due → s.pinsTaken = false → 0 < s.module.fwCode s.boot.slot → ∃ t, exec (.moduleReset true kat) s = .next t ∧
      stops t ∧ recovers t ∧ t.get R.BOOT_STATUS.REASON = s.module.fwCode s.boot.slot) ∧
    (∀ kat, due → s.pinsTaken = false → s.module.fwCode s.boot.slot = 0 → s.module.lost / 4 = 0 → ∃ t,
      exec (.moduleReset true kat) s = .next t ∧ stops t ∧
      t.flag R.GLB_STATUS.READY = true ∧ t.flag R.GLB_STATUS.RECOVERY = false ∧ t.mem = [] ∧ t.larder = [] ∧
      t.boot.running = some (s.boot.slot.take 256) ∧ (∀ b ∈ t.cel.bad, b ∈ s.cel.bad ∧ b.stuck = true) ∧
      (s.boot.config = none → t.flag R.BOOT_STATUS.CFG_LOST = true ∧ t.boot.signers = s.boot.signers) ∧
      (∀ c, s.boot.config = some c → t.client.net = c.net ∧ t.boot.signers = c.signers)) ∧
    (∀ kat, due → s.pinsTaken = false → s.module.fwCode s.boot.slot = 0 → s.module.lost / 4 ≠ 0 → ∃ t,
      exec (.moduleReset true kat) s = .next t ∧ stops t ∧ t.flag R.GLB_STATUS.READY = false ∧
      t.flag R.GLB_STATUS.RECOVERY = false) ∧
    (s.boot.power = true → (∃ t, exec (.bootCtlReset 0xA5 true) s = .next t ∧ isReset t ∧ t.boot.power = true) ∧
      exec (.bootCtlReset 0xA5 false) s = .next s ∧
      ∀ key reset, key ≠ 0xA5 → exec (.bootCtlReset key reset) s = .next (s.accessErr R.BOOT_CTL)) ∧
    (s.boot.power = false → ∀ key reset, exec (.bootCtlReset key reset) s = .next s) ∧
    (s.boot.power = true → exec .powerOn s = .next s ∧ off .supplyDrop) ∧
    (s.boot.power = false → exec .supplyDrop s = .next s ∧ ∃ t, exec .powerOn s = .next t ∧ isReset t ∧ t.boot.power = true) ∧
    (∀ (sensor : Fin 11) (temp : BitVec 8),
      let limit : Int := if sensor.val = 6 ∨ sensor.val = 7 then 105 else if sensor.val < 9 then 115 else 125
      (s.boot.power = true → sensor.val < 10 → limit < temp.toInt → off (.thermalTrip sensor temp)) ∧
      (s.boot.power = false ∨ sensor.val = 10 ∨ temp.toInt ≤ limit → exec (.thermalTrip sensor temp) s = .next s)) ∧
    (s.flag R.GLB_STATUS.READY = false ∨ s.flag R.BOOT_STATUS.FUSE_BUSY = false → exec .fuseBlow s = .next s) ∧
    (s.flag R.GLB_STATUS.READY = true → s.flag R.BOOT_STATUS.FUSE_BUSY = true →
      (s.module.rollback < s.boot.fuseCount → s.module.rollback < 127 →
        s.completes .fuseBlow [.regs, .module, .boot] [R.BOOT_FW, R.BOOT_STATUS] (fun t =>
          t.module = { s.module with rollback := s.module.rollback + 1 } ∧ t.boot = s.boot ∧
          t.get R.BOOT_FW.ROLLBACK = s.module.rollback + 1 ∧ (t.flag R.BOOT_STATUS.FUSE_BUSY = true ↔
            s.module.rollback + 1 < s.boot.fuseCount ∨ s.boot.fuseRevoke ≠ 0))) ∧
      (∀ k, s.boot.fuseCount ≤ s.module.rollback → k < 4 → bit s.boot.fuseRevoke k = true →
        (∀ j, j < k → bit s.boot.fuseRevoke j = false) →
        s.completes .fuseBlow [.regs, .module, .boot] [R.BOOT_FW, R.BOOT_STATUS] (fun t =>
          t.module.rollback = s.module.rollback ∧ bit t.module.revoked k = true ∧
          (∀ j, j ≠ k → bit t.module.revoked j = bit s.module.revoked j) ∧ bit t.boot.fuseRevoke k = false ∧
          ∀ j, j ≠ k → bit t.boot.fuseRevoke j = bit s.boot.fuseRevoke j))) ∧
    (∀ (cert : Fin 4) (word : BitVec 12), s.completes (.bootCertSelect cert word) [.regs]
        [R.BOOT_CERT_CTL, R.BOOT_CERT_LEN, R.BOOT_CERT_DATA] (fun t =>
      let c := if cert.val = 3 then [] else (nth s.module.certs cert.val []).take 16384
      (t.reg R.BOOT_CERT_CTL).toNat = cert.val + 4 * word.toNat ∧ t.get R.BOOT_CERT_LEN.BYTES = c.length ∧
      t.get R.BOOT_CERT_DATA.N = fieldAt c (4 * word.toNat) 4))

/-- BOOT_PUSH_CTL.GO outside recovery is an access error; in recovery a running push gives code 8, a failed host read 7, a
failing image its code and none of them touches the slot; a good image occupies the slot's write until PUSH_COMPLETE. FW_PUSH
completes with the status and code of a failing check, or begins the write, while it is the first one started and no push is
under way; else it waits. PUSH_COMPLETE puts an image into the slot, or a list into force and an update of the configuration
under way that carries it, where the write ended well and the port has no pins, code 6 where not, and completes the descriptor
that began it. ATTEST waits for a commit that is due; then it returns body, Ed25519 and ML-DSA-65 signature over the body's
SHA-256, with the identity and the attestation key; the body carries the magic, the serial number, DTIME and the nonce. -/
def Obligations.PushesAndAttestation : Prop :=
  ∀ (s : State) (ring : Fin 8192) (index : BitVec 32), s.canonical →
    let file := s.hostRead (s.get64 R.BOOT_PUSH_ADDR_LO.ADDR R.BOOT_PUSH_ADDR_HI.ADDR) (s.get R.BOOT_PUSH_LEN.BYTES)
    let reports (i : Instr) (c : Nat) : Prop := s.completes i [.regs] [R.BOOT_PUSH_STATUS] (fun t =>
      t.get R.BOOT_PUSH_STATUS.CODE = c ∧ t.flag R.BOOT_PUSH_STATUS.DONE = true ∧
      t.flag R.BOOT_PUSH_STATUS.BUSY = s.flag R.BOOT_PUSH_STATUS.BUSY)
    let writing (t : State) (p : Push) : Prop := t.boot.push = some p ∧ t.flag R.BOOT_PUSH_STATUS.BUSY = true ∧
      t.flag R.BOOT_STATUS.FLASH_BUSY = true ∧ t.boot.slot = (if p.signers then s.boot.slot else []) ∧
      t.boot.signers = s.boot.signers
    (∀ ok, s.flag R.GLB_STATUS.RECOVERY = false → exec (.bootPushGo ok) s = .next (s.accessErr R.BOOT_PUSH_CTL)) ∧
    (s.flag R.GLB_STATUS.RECOVERY = true →
      (∀ ok, s.boot.push ≠ none → reports (.bootPushGo ok) 8) ∧
      (s.boot.push = none → reports (.bootPushGo false) 7) ∧
      (s.boot.push = none → s.module.fwCode file ≠ 0 → reports (.bootPushGo true) (s.module.fwCode file)) ∧
      (s.boot.push = none → s.module.fwCode file = 0 → s.completes (.bootPushGo true) [.regs, .boot]
        [R.BOOT_PUSH_STATUS, R.BOOT_STATUS] (fun t => writing t { file := file, signers := false, owner := none }))) ∧
    ((∀ d ∈ s.client.started, ¬ (d.op = 0x51 ∧ d.ring = ring.val ∧ d.index = index.toNat)) →
      exec (.fwPush ring index) s = .next s) ∧
    (∀ d, s.client.started.find? (fun x => x.op == 0x51 && !x.waiting) = some d →
      s.startedAs ring.val index.toNat 0x51 = some d →
      let isList : Bool := d.data.take 4 == [0x4B, 0x53, 0x4C, 0x31]
      let isImage : Bool := d.data.take 4 == [0x4B, 0x46, 0x57, 0x31]
      let code := if isList then s.listCode d.data d.ethernet else if isImage then s.module.fwCode d.data else 1
      (s.boot.push ≠ none → exec (.fwPush ring index) s = .next s) ∧
      (s.boot.push = none → code ≠ 0 → ∃ t, exec (.fwPush ring index) s = .next (t.complete d (pushStatus code) code) ∧
        s.changesOnly [.regs] t ∧ t.get R.BOOT_PUSH_STATUS.CODE = code % 16) ∧
      (s.boot.push = none → code = 0 → s.completes (.fwPush ring index) [.regs, .client, .boot]
        [R.BOOT_PUSH_STATUS, R.BOOT_STATUS] (fun t =>
          writing t { file := d.data, signers := isList, owner := some (d.ring, d.index) }))) ∧
    (∀ ok, s.boot.push = none → exec (.pushComplete ok) s = .next s) ∧
    (∀ ok p, s.boot.push = some p →
      let good : Bool := ok && !s.pinsTaken
      let ended (t : State) : Prop := s.changesOnly [.regs, .boot, .loft, .free] t ∧ t.boot.push = none ∧
        t.get R.BOOT_PUSH_STATUS.CODE = (if good then 0 else 6) ∧ t.flag R.BOOT_PUSH_STATUS.DONE = true ∧
        t.flag R.BOOT_PUSH_STATUS.BUSY = false ∧ t.flag R.BOOT_STATUS.FLASH_BUSY = t.boot.cfgWrite.isSome ∧
        (good = false → t.boot = { s.boot with push := none }) ∧
        (good = true → p.signers = false → t.boot = { s.boot with push := none, slot := p.file }) ∧
        (good = true → p.signers = true → t.boot.signers = listBody p.file ∧ t.boot.slot = s.boot.slot ∧ ∃ c : FlashCfg,
          t.boot.cfgWrite = some (s.boot.target, c.bytes) ∧ c.signers = listBody p.file ∧ c.net = s.client.net ∧
          (∀ x, s.boot.config = some x → c.seq = u32 (x.seq + 1)) ∧
          (if s.boot.target then t.boot.cfgB else t.boot.cfgA) = [] ∧
          (if s.boot.target then t.boot.cfgA else t.boot.cfgB) = (if s.boot.target then s.boot.cfgA else s.boot.cfgB))
      (p.owner = none → ∃ t, exec (.pushComplete ok) s = .next t ∧ ended t) ∧
      (∀ r i d, p.owner = some (r, i) → s.client.started.find? (fun d => d.ring == r && d.index == i) = some d →
        ∃ t, ended t ∧ exec (.pushComplete ok) s =
          .next (t.complete d (if good then .ok else .internal) (if good then 0 else 6)))) ∧
    ((∀ d ∈ s.client.started, ¬ (d.op = 0x50 ∧ d.ring = ring.val ∧ d.index = index.toNat)) →
      exec (.attest ring index) s = .next s) ∧
    (∀ d, s.startedAs ring.val index.toNat 0x50 = some d →
      let nonce := sliceBytes d.bytes 24 32
      let body := s.attestBody nonce
      let dg := sha256 body
      (s.commitDue ≠ none → exec (.attest ring index) s = .next s) ∧
      (s.commitDue = none → exec (.attest ring index) s = .next ((s.dataOut d (body ++
        sliceBytes (Config.ed25519Sign s.module.idSeed dg) 0 64 ++ sliceBytes (Config.mldsaSign s.module.atkSeed dg) 0 3309
          ++ [0, 0, 0])).complete d .ok 0)) ∧
      body.take 4 = [0x4B, 0x41, 0x54, 0x31] ∧ fieldAt body 8 8 = s.module.serial % 2 ^ 64 ∧
      fieldAt body 16 8 = s.dtime % 2 ^ 64 ∧ sliceBytes body 32 32 = nonce)

/-- BYPASS loads its code and selects the bypass register, as every code without an instruction does, IDCODE the identification
word of R502, SAMPLE/PRELOAD takes the boundary cells; none of them changes with the module's mode. EXTEST, CLAMP and HIGHZ are
loaded in any mode and act before READY and in recovery; with the module READY and not in recovery each acts as BYPASS, and the
boundary register then keeps its cells. Under EXTEST and CLAMP the cells drive the pins, under HIGHZ the pins float. Nothing
outside the port changes. -/
def Obligations.TestAccessPort : Prop :=
  ∀ (s : State) (cells : BitVec 2216),
    let service : Bool := s.flag R.GLB_STATUS.READY && !s.flag R.GLB_STATUS.RECOVERY
    let becomes (i : Instr) (x : TapSt) : Prop := exec i s = .next { s with boot := { s.boot with tap := x } }
    let tap := s.boot.tap
    becomes .bypass { tap with instr := .bypass, ir := 0xFF, captured := 0 } ∧
    (∀ code : BitVec 8, 4 < code.toNat → tapDecode code = .bypass) ∧
    becomes .idcode { tap with
      instr := .idcode, ir := 2, captured := BitVec.ofNat 32 (s.module.step % 16 * 2 ^ 28 + 0x7160 * 2 ^ 12 + 0x5CB) } ∧
    becomes (.samplePreload cells) { tap with instr := .samplePreload, ir := 1, captured := 0, boundary := cells } ∧
    becomes (.extest cells) { tap with
      instr := .extest, ir := 0, captured := 0, boundary := if service then tap.boundary else cells } ∧
    becomes .clamp { tap with instr := .clamp, ir := 3, captured := 0 } ∧
    becomes .highz { tap with instr := .highz, ir := 4, captured := 0 } ∧
    (service = true → s.tapActs = (if tap.instr = .extest ∨ tap.instr = .clamp ∨ tap.instr = .highz then .bypass
      else tap.instr)) ∧
    (service = false → s.tapActs = tap.instr) ∧
    ∀ k, (s.tapActs = .extest ∨ s.tapActs = .clamp → (s.pinDrive k).2 = .cell (tap.boundary.getLsbD k.val)) ∧
      (s.tapActs = .highz → (s.pinDrive k).2 = .floats) ∧
      (s.tapActs = .bypass ∨ s.tapActs = .samplePreload ∨ s.tapActs = .idcode → (s.pinDrive k).2 = .module)

/-! ### Matrix cores: matrix, vector and transfer commands -/

/-- MCMD does nothing where no matrix command may issue. One that may issue is fetched with its continuation first: a fetch out
of reach tears the context down with CMD_REFUSED, one that fails its parity with PARITY. Then it leaves its list, the unit
busy. An operand combination, OUT or alignment that the rules do not list is refused, a window descriptor outside the Larder is
window fault 7, and a failed window check stops it with its code. Else, for a single-pass product of INT8 or U8 in ROWS mode of
at most 512 vectors and one n-tile, with LOAD 0 and sound words: entry (i, j) is the sum over the k-blocks, saturated to INT32
after each, of the exact products, 0 beyond N, and d holds (acc x MULT + half) >> SHIFT + ZP, clamped to OUT, at its place;
ACT counts the cycles in which vectors enter the arrays; nothing else in any Larder changes. -/
def Obligations.MatrixCommandsMultiply : Prop :=
  ∀ (s : State) (core : Fin 16), s.canonical →
    let n := core.val
    (s.headCommand n 1 .matrix = none → exec (.mcmd core) s = .next s) ∧
    (∀ l r bs v, s.headCommand n 1 .matrix = some (l, r) →
      let fetch := s.load .issuer (l.pair.image.base + l.pair.image.lists.1 + l.pc) (32 * (1 + fieldAt r 3 1))
      let c := Mx.decode r (v.recordAt l 1)
      let u := v.issueCommand n l r .matrix
      (fetch = (.range, bs, v) → exec (.mcmd core) s = .next (v.tearList n .cmdRefused).settle) ∧
      (fetch = (.parity, bs, v) → exec (.mcmd core) s = .next (v.tearList n .parity).settle) ∧
      (fetch = (.ok, bs, v) →
        ((c.geom = none ∨ c.outOk = false ∨ c.aligned = false) → exec (.mcmd core) s = .next (u.stopCommand n .refused)) ∧
        (c.geom ≠ none → c.outOk = true → c.aligned = true → 2097152 ≤ c.win →
          exec (.mcmd core) s = .next (u.stopCommand n (.window 7))) ∧
        (∀ kp np f, c.geom = some (kp, np) → c.outOk = true → c.aligned = true → c.win < 2097152 → (v.core n).bad = [] →
          c.winFault (Win.decode (v.larderRead n c.win 64)) kp = some f →
          exec (.mcmd core) s = .next ((u.offPlan n (planMask c.plan 0) [c.win / 512]).stopCommand n (.window f)))) ∧
      (fetch = (.ok, bs, v) → v = s → ∀ kp np, c.geom = some (kp, np) → c.outOk = true → c.aligned = true → c.win < 2097152 →
        c.multi = 0 → fmtFamily c.fa = 0 → c.load = false → c.m ≤ 512 → c.n ≤ np → (s.core n).bad = [] →
        let w := Win.decode (s.larderRead n c.win 64)
        w.mode = 0 → c.winFault w kp = none →
        let x (i b k : Nat) : Int := if b * kp + k < c.k then
            elemInt c.fa (leVal (s.larderRead n (w.base + i * w.vstride + b * w.bstride + k) 1)) else 0
        let wt (b k j : Nat) : Int := elemInt c.fw (leVal (s.ldrRead n (c.wbase + b * 16384 + j * kp + k) 1))
        let acc (i j : Nat) : Int := if c.n ≤ j then 0 else (List.range (ceilDiv c.k kp)).foldl (fun (a : Int) b =>
          clampInt (a + ((List.range kp).map (fun k => x i b k * wt b k j)).sum) (-2147483648) 2147483647) 0
        let z := if c.out = 0 then 1 else if c.out = 7 then 2 else 4
        let q (j : Nat) : Nat := leVal (s.ldrRead n (c.qparam + 4 * j) 4)
        let shift (j : Nat) : Nat := q j / 65536 % 64
        let half (j : Nat) : Int := if shift j = 0 then 0 else 2 ^ (shift j - 1)
        let out (i j : Nat) : Int := clampInt ((acc i j * ((q j % 65536 : Nat) : Int) + half j) / 2 ^ shift j +
          signed 8 (q j / 16777216)) (-(2 ^ (8 * z - 1))) (2 ^ (8 * z - 1) - 1)
        let act (t : State) : Nat := t.get64 (R.CORE_ACT_LO.N n) (R.CORE_ACT_HI.N n)
        s.completes (.mcmd core) [.regs, .larder, .free, .cores, .lists]
          [R.CORE_STATUS n, R.CORE_SAT n, R.CORE_NAN n, R.CORE_AG_PAD n, R.CORE_AG_ROWS n, R.CORE_LDR_OFFPLAN n, R.CORE_ACT_LO n,
            R.CORE_ACT_HI n, R.CORE_STALL_W n, R.CORE_STALL_D n, R.CORE_LDR_WAIT_A n, R.CORE_LDR_WAIT_W n, R.CORE_LDR_WAIT_V n,
            R.CORE_LDR_WAIT_D n, R.CORE_LDR_WAIT_T n] (fun t =>
          (∀ i j, i < c.m → j < np →
            signed (8 * z) (leVal (t.ldrRead n (c.dbase + (i * np + j) * z) z)) = out i j) ∧
          (∀ a, a < 2097152 → a / 512 ∉ rowsOf c.dbase (c.m * np * z) → t.larderRead n a 1 = s.larderRead n a 1) ∧
          (∀ m a, m < 16 → m ≠ n → t.larderRead m a 1 = s.larderRead m a 1) ∧
          act t = (act s + ceilDiv c.k kp * c.m) % 2 ^ 64 ∧
          t.flag (R.CORE_STATUS.BUSY n) = true ∧ (∀ k, k ≠ n → t.list k = s.list k) ∧
          ∃ l', t.list n = some l' ∧ l'.pc = l.pc + 32 * (1 + fieldAt r 3 1) ∧
            l'.issued[0]? = some ⟨.matrix, fieldAt r 4 2 * 10, s.dtime, false, s.portMasks l r .matrix⟩)))

/-- A vector command acts on a record of its own OP (or of an OP that the table does not hold, which is refused). It is
fetched with its continuations first, and a fetch that fails tears the context down. A failed check stops the list. Else, with
ROUND 0, sound words and no step's rows read or written again by a later step: an elementwise operation or VPOOLH leaves in
each lane of every step's d the lane result converted to the destination format, with integers saturated; VLUT the entry of
the table as it was at the start. VMACW leaves in the accumulator the products' sum with the start chosen; VRSUM the sum as
INT64, VRMAX and VRMIN the first extreme and its index, VCNT the count; VDLV and VILV turn rows, with canonical NaNs. All other Larder bytes are
kept, CORE_VEC_STEPS counts COUNT. -/
def Obligations.VectorCommandsCompute : Prop :=
  ∀ (s : State) (core : Fin 16) (i : Instr) (op : Nat), s.canonical →
    (i, op) ∈ [(Instr.vmov core, 1), (.vadd core, 2), (.vsub core, 3), (.vmul core, 4), (.vmax core, 5), (.vmin core, 6),
      (.vclamp core, 7), (.vcmp core, 8), (.vsel core, 9), (.vmacw core, 10), (.vreq core, 11), (.vcvt core, 12),
      (.vlut core, 13), (.vpoolh core, 14), (.vrsum core, 15), (.vrmax core, 16), (.vrmin core, 17), (.vcnt core, 18),
      (.vdlv core, 19), (.vilv core, 20)] →
    let n := core.val
    (s.headCommand n 2 .vector = none → exec i s = .next s) ∧
    (∀ l r bs v, s.headCommand n 2 .vector = some (l, r) →
      let fetch := s.load .issuer (l.pair.image.base + l.pair.image.lists.1 + l.pc) (32 * (1 + fieldAt r 3 1))
      let o := fieldAt r 8 1
      let c := Vx.decode r (v.recordAt l 1) (if fieldAt r 3 1 ≥ 2 then v.recordAt l 2 else [])
      let u := v.issueCommand n l r .vector
      (1 ≤ o → o ≤ 20 → o ≠ op → exec i s = .next s) ∧
      (o = 0 ∨ 20 < o ∨ o = op →
        (fetch = (.range, bs, v) → exec i s = .next (v.tearList n .cmdRefused).settle) ∧
        (fetch = (.parity, bs, v) → exec i s = .next (v.tearList n .parity).settle) ∧
        (fetch = (.ok, bs, v) → ∀ e, c.check = some e → exec i s = .next (u.stopCommand n e))) ∧
      (fetch = (.ok, bs, v) → v = s → c.check = none → o = op → c.round = 0 → (s.core n).bad = [] → s.cores.length = 16 →
        let m := c.lanes
        let z := c.dBytes
        let d (k : Nat) : Nat := c.d + k * c.sd
        let xs (k w : Nat) : List Lane := s.operandRow n c.ak c.accA (c.a + k * c.sa) c.aFmt w c
        let ys (k : Nat) : List Lane := s.operandRow n c.bk c.accB (c.b + k * c.sb) c.fmt m c
        let ms (k l : Nat) : Nat := leVal (s.ldrRead n (c.par 8 4 + k * 512 + l) 1)
        let apart : Prop := ∀ k k', k' < k → k < c.count → ∀ x ∈ rowsOf (d k') (m * z), x ∉ rowsOf (d k) (m * z) ∧
          x ∉ c.sourceRows k
        let offs := [R.CORE_SAT n, R.CORE_NAN n, R.CORE_AG_PAD n, R.CORE_VEC_STEPS n, R.CORE_LDR_OFFPLAN n, R.CORE_LDR_NARROW n,
          R.CORE_STALL_W n, R.CORE_STALL_D n, R.CORE_LDR_WAIT_A n, R.CORE_LDR_WAIT_W n, R.CORE_LDR_WAIT_V n, R.CORE_LDR_WAIT_D n,
          R.CORE_LDR_WAIT_T n]
        let issued (t : State) : Prop := t.list n = u.list n ∧ (∀ k, k ≠ n → t.list k = s.list k) ∧
          s.counts (R.CORE_VEC_STEPS.N n) c.count t
        let rowsKept (t : State) (f len : Nat) : Prop := ∀ k a, k < 16 → a < 2097152 →
          (k = n → ∀ st, st < f → a / 512 ∉ rowsOf (d st) len) → t.larderRead k a 1 = s.larderRead k a 1
        let runs (p : State → Prop) : Prop := s.completes i [.regs, .larder, .free, .cores, .lists] offs (fun t => issued t ∧ p t)
        -- Elementwise operations and VPOOLH, row destination.
        (op ≤ 9 ∨ op = 11 ∨ op = 12 → c.dAcc = false → apart → runs (fun t => rowsKept t c.count (m * z) ∧
          (t.core n).vacc = (s.core n).vacc ∧
          ∀ k l, k < c.count → l < m →
            let x := nth (xs k m) l (.int 0)
            let y := if usesB op then nth (ys k) l (.int 0) else .int 0
            let v := c.laneOp x y (if op = 9 then ms k l else 0)
            let f := if op = 8 then 1 else c.ofmt
            leVal (t.ldrRead n (d k + l * z) z) = (v.toFmt f .rne c.sat).raw % 256 ^ z ∧
            ∀ a b : Int, x = .int a → y = .int b → fmtIsFp f = false → op ≤ 6 →
              elemInt f (leVal (t.ldrRead n (d k + l * z) z)) = clampInt
                (if op = 1 then a else if op = 2 then a + b else if op = 3 then a - b else if op = 4 then a * b
                 else if op = 5 then max a b else min a b) (intLo f) (intHi f))) ∧
        (op ≤ 9 ∨ op = 11 ∨ op = 12 → c.dAcc = true → c.count = 1 → fmtIsFp c.fmt = false → runs (fun t => t.larder = s.larder ∧
          ∀ l, l < m → ∀ v : Int, c.laneOp (nth (xs 0 m) l (.int 0)) (if usesB op then nth (ys 0) l (.int 0) else .int 0)
            (if op = 9 then ms 0 l else 0) = .int v → t.accLane n c.fmt c.accD l = .int (clampInt v (-2147483648) 2147483647))) ∧
        (op = 14 → c.dAcc = false → apart → runs (fun t => rowsKept t c.count (m * z) ∧ ∀ k l, k < c.count → l < m →
            leVal (t.ldrRead n (d k + l * z) z) =
              ((c.pool (xs k (if c.ak = 1 then 512 else m)) l).toFmt c.ofmt .rne c.sat).raw % 256 ^ z)) ∧
        (op = 13 → c.dAcc = false → apart → runs (fun t => rowsKept t c.count (m * z) ∧ ∀ k l (v : Int), k < c.count → l < m →
          nth (xs k m) l (.int 0) = .int v → 0 ≤ v → v < 256 →
          t.ldrRead n (d k + l * z) z = s.ldrRead n (c.par 8 4 + v.toNat * z) z)) ∧
        -- VMACW adds into its accumulator.
        (op = 10 → c.count = 1 → fmtIsFp c.fmt = false → runs (fun t => t.larder = s.larder ∧ ∀ l, l < m → ∀ a : Int,
          s.accLane n c.fmt c.accD l = .int a →
          let tap (j : Nat) : Int := elemInt c.fmt (c.par (8 + 3 * j) 2 % 256 ^ fmtBytes c.fmt)
          let src (j : Nat) : Int := match (c.tapSource (c.par 6 2) (xs 0 m) ((l * c.par 1 1 : Nat) +
              signed 8 (c.par (10 + 3 * j) 1))).1 with | .int v => v | .fp _ => 0
          t.accLane n c.fmt c.accD l = .int (clampInt ((if c.par 2 1 = 0 then 0 else a) +
            ((List.range (c.par 0 1)).map (fun j => tap j * src j)).sum) (-2147483648) 2147483647))) ∧
        -- Reductions over every lane of every step.
        (15 ≤ op → op ≤ 18 → fmtIsFp c.fmt = false →
          let v (j : Nat) : Int := match nth (xs (j / m) m) (j % m) (.int 0) with | .int a => a | .fp _ => 0
          let total := m * c.count
          runs (fun t => (∀ k a, k < 16 → a < 2097152 → (k = n → (a < c.d % 2097152 ∨ c.d % 2097152 + 8 ≤ a)) →
              t.larderRead k a 1 = s.larderRead k a 1) ∧
            (op = 15 → signed 64 (leVal (t.ldrRead n c.d 8)) = ((List.range total).map v).sum) ∧
            (op = 16 → ∃ j, j < total ∧ leVal (t.ldrRead n (c.d + 4) 4) = j ∧ signed 32 (leVal (t.ldrRead n c.d 4)) = v j ∧
              (∀ k, k < total → v k ≤ v j) ∧ ∀ k, k < j → v k < v j) ∧
            (op = 17 → ∃ j, j < total ∧ leVal (t.ldrRead n (c.d + 4) 4) = j ∧ signed 32 (leVal (t.ldrRead n c.d 4)) = v j ∧
              (∀ k, k < total → v j ≤ v k) ∧ ∀ k, k < j → v j < v k) ∧
            (op = 18 → ∀ b : Int, c.scalar 0 = .int b → leVal (t.ldrRead n c.d 4) =
              ((List.range total).filter (fun j => decide (b ≤ v j))).length))) ∧
        -- Layouts.
        (op = 19 ∨ op = 20 → c.count = 1 →
          let ch := c.par 0 2
          let e := fmtBytes c.fmt
          let turned (b : List Byte) : List Byte := leBytes e ((laneOf c.fmt (leVal b)).toFmt c.fmt .rne false).raw
          (op = 19 → (∀ j j', j < ch → j' < ch → j ≠ j' → (c.d + j * c.sd) / 512 % 4096 ≠ (c.d + j' * c.sd) / 512 % 4096) →
            runs (fun t => ∀ j p, j < ch → p < 512 / e →
              t.ldrRead n (c.d + j * c.sd + p * e) e = turned (s.ldrRead n (c.a + (p * ch + j) * e) e) ∧
              (fmtIsFp c.fmt = false →
                t.ldrRead n (c.d + j * c.sd + p * e) e = s.ldrRead n (c.a + (p * ch + j) * e) e))) ∧
          (op = 20 → runs (fun t => ∀ j p, j < ch → p < 512 / e →
              t.ldrRead n (c.d + (p * ch + j) * e) e = turned (s.ldrRead n (c.a + j * c.sa + p * e) e) ∧
              (fmtIsFp c.fmt = false →
                t.ldrRead n (c.d + (p * ch + j) * e) e = s.ldrRead n (c.a + j * c.sa + p * e) e))))))

/-- A transfer acts on a record of its own direction, fetched first; a fetch that fails tears the context down. A base that the
list does not have, or a length, stride or Larder address that is no multiple of 4, is refused. Else its lines go one after another: to the Larder, each is loaded from memory and
written; from it, each is read and stored; a line out of reach is refused, a failing word, or a failing Larder row, stops it.
Of a sound Larder the narrow rows of a line count.
COMMAND_COMPLETE marks the running command of the unit complete, and drops BUSY for the matrix unit; both it and
MAXDUR_EXPIRE tear the list down where the command has run past MAXDUR; without a running command nothing happens. -/
def Obligations.TransfersAndCommandEnds : Prop :=
  ∀ (s : State) (core : Fin 16) (out : Bool), s.canonical →
    let n := core.val
    let i : Instr := if out then .xferFromLarder core else .xferToLarder core
    (s.headCommand n 3 .transfer = none → exec i s = .next s) ∧
    (∀ l r bs0 v0, s.headCommand n 3 .transfer = some (l, r) →
      let fetch := s.load .issuer (l.pair.image.base + l.pair.image.lists.1 + l.pc) (32 * (1 + fieldAt r 3 1))
      let u := v0.issueCommand n l r .transfer
      let ldr := fieldAt r 12 4
      let k := fieldAt r 24 2
      let lst := fieldAt r 26 2
      let lines := fieldAt r 10 2
      let sel := fieldAt r 8 1 / 2 % 8
      let ag : MemAgent := .xfer n (u.jobPart l.job)
      (bit (fieldAt r 8 1) 0 = !out → exec i s = .next s) ∧
      (bit (fieldAt r 8 1) 0 = out → (fetch = (.range, bs0, v0) → exec i s = .next (v0.tearList n .cmdRefused).settle) ∧
        (fetch = (.parity, bs0, v0) → exec i s = .next (v0.tearList n .parity).settle)) ∧
      (bit (fieldAt r 8 1) 0 = out → fetch = (.ok, bs0, v0) → ldr % 4 ≠ 0 ∨ k % 4 ≠ 0 ∨ lst % 4 ≠ 0 ∨ 4 < sel ∨
          ((sel = 1 ∨ sel = 2) ∧ ∀ x, l.kind ≠ .strip x) → exec i s = .next (u.stopCommand n .refused)) ∧
      (bit (fieldAt r 8 1) 0 = out → fetch = (.ok, bs0, v0) → ldr % 4 = 0 → k % 4 = 0 → lst % 4 = 0 →
        ∀ base, l.xferBase sel = some base →
        let at_ (j : Nat) : Nat := base + fieldAt r 16 8 + j * fieldAt r 28 4
        let la (j : Nat) : Nat := ldr + j * lst
        let partRows (x : Nat) : List (Nat × Bool) := (lineRows x k).filter (·.2)
        -- Line j leaves w (j + 1).
        ∀ (w : Nat → State) (m : Nat), m ≤ lines →
          w 0 = u.xferWaits (u.jobPart l.job) (at_ 0) k (fieldAt r 28 4) lines →
          (out = false → (∀ j, j < m → ∃ bs v x, (w j).load ag (at_ j) k = (.ok, bs, v) ∧
              v.narrowRead n (partRows (la j)) = (none, x) ∧ w (j + 1) = x.ldrWrite n (la j) bs) →
            (m = lines → exec i s = .next (w m)) ∧
            (m < lines → ∀ bs v, (w m).load ag (at_ m) k = (.range, bs, v) → exec i s = .next (v.stopCommand n .refused)) ∧
            (m < lines → ∀ bs v, (w m).load ag (at_ m) k = (.parity, bs, v) → exec i s = .next (v.stopCommand n .parity)) ∧
            (m < lines → ∀ bs v e x, (w m).load ag (at_ m) k = (.ok, bs, v) → v.narrowRead n (partRows (la m)) = (some e, x) →
              exec i s = .next (x.stopCommand n e))) ∧
          (out = true → (∀ j, j < m → ∃ x, (w j).narrowRead n (lineRows (la j) k) = (none, x) ∧
              x.store ag (at_ j) (x.ldrRead n (la j) k) = (.ok, w (j + 1))) →
            (m = lines → exec i s = .next (w m)) ∧
            (m < lines → ∀ x e v, (w m).narrowRead n (lineRows (la m) k) = (none, x) →
                x.store ag (at_ m) (x.ldrRead n (la m) k) = (e, v) →
              (e = .range → exec i s = .next (v.stopCommand n .refused)) ∧
              (e = .parity → exec i s = .next (v.stopCommand n .parity))) ∧
            (m < lines → ∀ e x, (w m).narrowRead n (lineRows (la m) k) = (some e, x) →
              exec i s = .next (x.stopCommand n e))))) ∧
    (∀ (v : State) (rs : List (Nat × Bool)), (v.core n).bad = [] → ∃ x, v.narrowRead n rs = (none, x) ∧
      v.changesOnly [.regs] x ∧ v.keepsRegs [R.CORE_LDR_NARROW n] x ∧
      v.counts (R.CORE_LDR_NARROW.N n) (rs.filter (·.2)).length x) ∧
    (∀ unit : Fin 3,
      let un : Unit3 := if unit.val = 0 then .matrix else if unit.val = 1 then .vector else .transfer
      let both (t : State) : Prop := exec (.commandComplete core unit) s = .next t ∧ exec (.maxdurExpire core unit) s = .next t
      ((s.list n = none ∨ ∃ l, s.list n = some l ∧ l.running un = none) → both s) ∧
      (∀ l x, s.list n = some l → l.running un = some x →
        (x.start + x.maxNs < s.dtime → both (s.tearList n .maxdur).settle) ∧
        (s.dtime ≤ x.start + x.maxNs → exec (.maxdurExpire core unit) s = .next s ∧
          s.completes (.commandComplete core unit) [.regs, .lists] [R.CORE_STATUS n] (fun t =>
            (unit.val = 0 → t.flag (R.CORE_STATUS.BUSY n) = false) ∧ (unit.val ≠ 0 → t.regs = s.regs) ∧
            (∀ k, k ≠ n → t.list k = s.list k) ∧ ∃ l', t.list n = some l' ∧ l'.running un = none ∧ l'.pc = l.pc ∧
              l'.issued.length = l.issued.length ∧ ∀ y ∈ l.issued, y.unit ≠ un → y ∈ l'.issued))))

/-! ### Lists and launches -/

/-- A record acts only when its own type is at the head and may issue, and is fetched first: a fetch out of reach tears the
list down with CMD_REFUSED, a failing one with PARITY. NOP_RECORD, LOAD and IDLE_FOR pass, the last holding matrix commands for
DURATION, and no less than an earlier hint. WAIT, after the hold entries that are due have expired, holds the list, and its wait
reaches the sync unit; SIGNAL, once earlier records completed, likewise signals it; an object that the partition may not use tears the list
down with SO_ACCESS. LAUNCH of N > 0 queues a launch of N threads with their entry and argument, N = 0 signals at once. RESULT
takes the part's 64-byte block. END, once earlier records completed, ends the list. THREAD_START puts the next thread of the
oldest launch of the pipeline's partition into a free context of an engine in service: g1 the argument, g2 the index.
DESIGN CHOICE (log entry 59): the index of ARG_SEL 2 in a list that runs for no part is any 32-bit number that is no index of the
part table. -/
def Obligations.ListRecordsAndThreads : Prop :=
  ∀ (s : State) (ctx : Fin 4112) (core : Fin 16) (part : Fin 4096), s.canonical →
    let fetch (u : State) (l : ListCtx) (r : List Byte) :=
      u.load .issuer (l.pair.image.base + l.pair.image.lists.1 + l.pc) (32 * (1 + fieldAt r 3 1))
    -- The record at the head of list `k` of state `u` is fetched, which leaves `v`.
    let head (u : State) (k type : Nat) (l : ListCtx) (r : List Byte) (v : State) : Prop :=
      u.headRecord k type = some (l, r) ∧ ∃ bs, fetch u l r = (.ok, bs, v)
    -- A fetch from state `u` that fails.
    let fails (u : State) (i : Instr) (k : Nat) (l : ListCtx) (r : List Byte) : Prop := ∀ bs v,
      (fetch u l r = (.range, bs, v) → exec i s = .next (v.tearList k .cmdRefused).settle) ∧
      (fetch u l r = (.parity, bs, v) → exec i s = .next (v.tearList k .parity).settle)
    let after (l : ListCtx) (r : List Byte) : ListCtx := { l with pc := l.pc + 32 * (1 + fieldAt r 3 1) }
    let object (l : ListCtx) (r : List Byte) : Nat := match fieldAt r 10 1, l.kind with
      | 1, .strip x => x.so
      | _, _ => fieldAt r 8 2 % 16384
    let may (v : State) (l : ListCtx) (o : Nat) : Prop := (v.so o).cfg.type = 0 ∨ (v.so o).allowed (v.jobPart l.job) = true
    let allDone (l : ListCtx) : Prop := ∀ x ∈ l.issued, x.complete = true
    -- Once the hold entries that are due have expired.
    let u := s.expireDue
    (∀ p ∈ [(Instr.nopRecord ctx, 0), (.waitRecord ctx, 4), (.signalRecord ctx, 5), (.launch ctx, 6), (.endRecord ctx, 9)],
      s.headRecord ctx.val p.2 = none → exec p.1 s = .next s) ∧
    (s.headRecord core.val 7 = none → exec (.load core) s = .next s ∧ exec (.idleFor core) s = .next s) ∧
    (s.headRecord (16 + part.val) 8 = none → exec (.result part) s = .next s) ∧
    (∀ l r, s.headRecord ctx.val 0 = some (l, r) → fails s (.nopRecord ctx) ctx.val l r ∧
      ∀ v, head s ctx.val 0 l r v → exec (.nopRecord ctx) s = .next (v.setList ctx.val (after l r))) ∧
    (∀ l r, s.headRecord core.val 7 = some (l, r) →
      (fieldAt r 8 1 = 0 → exec (.load core) s = .next s ∧ fails s (.idleFor core) core.val l r ∧
        ∀ v, head s core.val 7 l r v → exec (.idleFor core) s = .next (v.setList core.val
          { after l r with
            idleUntil := max l.idleUntil (v.dtime + fieldAt r 12 4 * 1000)
            idleUs := if v.dtime < l.idleUntil then max l.idleUs (fieldAt r 12 4) else fieldAt r 12 4 })) ∧
      (fieldAt r 8 1 ≠ 0 → exec (.idleFor core) s = .next s ∧ fails s (.load core) core.val l r ∧
        ∀ v, head s core.val 7 l r v → exec (.load core) s = .next (v.setList core.val (after l r)))) ∧
    ((s.headRecord ctx.val 4 ≠ none → (u.headRecord ctx.val 4 = none → exec (.waitRecord ctx) s = .next u) ∧
        ∀ l r, u.headRecord ctx.val 4 = some (l, r) → fails u (.waitRecord ctx) ctx.val l r ∧
          ∀ v, head u ctx.val 4 l r v →
            (may v l (object l r) → exec (.waitRecord ctx) s = .next
              ((v.setList ctx.val { l with waiting := true }).arriveWait (.core ctx.val) (object l r) (fieldAt r 16 8)).settle) ∧
            (¬ may v l (object l r) → exec (.waitRecord ctx) s = .next (v.tearList ctx.val .soAccess).settle)) ∧
      (∀ l0 r0, s.headRecord ctx.val 5 = some (l0, r0) → (¬ allDone l0 → exec (.signalRecord ctx) s = .next s) ∧
        (allDone l0 → (u.headRecord ctx.val 5 = none → exec (.signalRecord ctx) s = .next u) ∧
          ∀ l r, u.headRecord ctx.val 5 = some (l, r) → (¬ allDone l → exec (.signalRecord ctx) s = .next u) ∧
            (allDone l → fails u (.signalRecord ctx) ctx.val l r ∧ ∀ v, head u ctx.val 5 l r v →
              (may v l (object l r) → exec (.signalRecord ctx) s = .next
                ((v.setList ctx.val (after l r)).signal (.core ctx.val) (object l r) (fieldAt r 16 8)).settle) ∧
              (¬ may v l (object l r) → exec (.signalRecord ctx) s = .next (v.tearList ctx.val .soAccess).settle))))) ∧
    (∀ l r, s.headRecord ctx.val 6 = some (l, r) → fails s (.launch ctx) ctx.val l r ∧
      (∀ v, head s ctx.val 6 l r v → fieldAt r 12 4 = 0 → exec (.launch ctx) s = .next
        ((v.setList ctx.val (after l r)).signal .firmware (fieldAt r 26 2 % 16384) 1).settle) ∧
      (head s ctx.val 6 l r s → fieldAt r 12 4 ≠ 0 → s.completes (.launch ctx) [.lists, .flock, .free] [] (fun t =>
        t.lists = (s.setList ctx.val (after l r)).lists ∧ t.flock.threads = s.flock.threads ∧
        ∃ x f, 4096 ≤ f ∧ f < 2 ^ 32 ∧ t.flock.launches = s.flock.launches ++ [x] ∧ x.job = l.job ∧ x.part = s.jobPart l.job ∧
          x.total = fieldAt r 12 4 ∧ x.nextIndex = 0 ∧ x.exited = 0 ∧ x.so = fieldAt r 26 2 % 16384 ∧
          x.nd = bit (fieldAt r 1 1) 0 ∧ x.entry = l.pair.image.base + l.pair.image.code.1 + fieldAt r 8 4 ∧
          x.arg = (fieldAt r 16 8 + (match fieldAt r 24 1, l.kind with
            | 1, .strip b => b.buffer
            | 2, .part i => i
            | 2, .strip b => b.part.getD f
            | 2, .setup => f
            | _, _ => 0)) % 2 ^ 64))) ∧
    (∀ l r, s.headRecord (16 + part.val) 8 = some (l, r) → fails s (.result part) (16 + part.val) l r ∧
      ∀ v, head s (16 + part.val) 8 l r v → ∀ e bs w,
        v.load .issuer ((fieldAt r 16 8 + part.val * fieldAt r 24 4) % 2 ^ 64) 64 = (e, bs, w) →
        exec (.result part) s = .next (match e with
          | .ok => (w.setList (16 + part.val) (after l r)).takeResult part.val bs
          | .range => (w.tearList (16 + part.val) .cmdRefused).settle
          | .parity => (w.tearList (16 + part.val) .parity).settle)) ∧
    (∀ l r, s.headRecord ctx.val 9 = some (l, r) →
      (¬ allDone l → exec (.endRecord ctx) s = .next s) ∧
      (allDone l → fails s (.endRecord ctx) ctx.val l r ∧ ∀ v, head s ctx.val 9 l r v →
        ((∃ i, l.kind = .part i) → exec (.endRecord ctx) s = .next (v.delList ctx.val)) ∧
        (l.kind = .setup → exec (.endRecord ctx) s = .next ((v.delList ctx.val).coreNext l.job ctx.val)) ∧
        ((∃ x, l.kind = .strip x) → exec (.endRecord ctx) s = .next ((((v.delList ctx.val).put (R.CORE_ALLOC.BACKLOG ctx.val)
          (v.backlog ctx.val - 1)).coreNext l.job ctx.val).allocate l.job)))) ∧
    (∀ (e : Fin 2) (c : Fin 4096),
      let owner (p : Nat) : Prop := s.pipeOwner e.val (c.val / 256) = some p
      ((s.thread e.val c.val).isSome = true ∨ s.flag (R.FLK_ENG_STATUS.IN_SERVICE e.val) = false ∨
        (∀ p, ¬ owner p) ∨ (∃ p, owner p ∧ ∀ l ∈ s.flock.launches, ¬ (l.part = p ∧ l.nextIndex < l.total ∧ s.jobState l.job = 2)) →
        exec (.threadStart e c) s = .next s) ∧
      (∀ p l, s.thread e.val c.val = none → s.flag (R.FLK_ENG_STATUS.IN_SERVICE e.val) = true → owner p →
        s.flock.launches.find? (fun l => l.part == p && decide (l.nextIndex < l.total) && s.jobState l.job == 2) = some l →
        s.completes (.threadStart e c) [.flock] [] (fun t =>
          (∃ th, t.thread e.val c.val = some th ∧ th.pc = l.entry ∧ nth th.g 1 0 = l.arg ∧ nth th.g 2 0 = l.nextIndex ∧
            th.job = l.job ∧ th.part = p ∧ th.launch = l.id) ∧
          (∀ e' c' : Nat, c' < 4096 → (e' ≠ e.val ∨ c' ≠ c.val) → t.thread e' c' = s.thread e' c') ∧
          t.flock.launches = s.flock.launches.map (fun x => if x.id = l.id then { x with nextIndex := x.nextIndex + 1 } else x))))

/-! ### Flock -/

/-- For each Flock row: nothing happens where the context holds no thread, its pipeline is no longer its partition's, its job
does not hold the slice, its engine is not in service, it waits in SWAIT, or a FENCE is open over outstanding operations; nor
where the next word is of another row, or a register of it has a pending result (for SSIG any operation outstanding). With
eight operations outstanding before a memory instruction, or 4,096 of the engine, MEM_STALL alone grows. A pc that is no
multiple of 4 faults ALIGN, one out of reach RANGE, a fetch that fails PARITY, a word that the table does not list BAD_OP. -/
def Obligations.FlockThreadsIssue : Prop :=
  ∀ (s : State) (e : Fin 2) (c : Fin 4096) (i : Instr) (op : Nat) (fn : Option Nat), (i, op, fn) ∈ flockRows e c →
    (s.thread e.val c.val = none → exec i s = .next s) ∧
    (∀ t, s.thread e.val c.val = some t →
      let faults (v : State) (f : ThreadFault) (a : Nat) : Prop := exec i s = .next (v.flockFault e.val c.val t f t.pc a)
      let may : Prop := s.pipeOwner e.val (c.val / 256) = some t.part ∧ s.jobState t.job = 2 ∧
        s.flag (R.FLK_ENG_STATUS.IN_SERVICE e.val) = true ∧ t.swait = none ∧ (t.fence = true → t.ops = [])
      let resolved (w : Nat) : Prop := (∀ r ∈ regsOf w, r ≠ 0 → ∀ o ∈ t.ops, o.rd ≠ r ∧ ∀ n, o.kind = .hkey n → o.rd + 1 ≠ r) ∧
        (opOf w = 0x39 → t.ops = [])
      let full (w : Nat) : Prop := (isMemory w = true ∧ 8 ≤ t.ops.length) ∨ 4096 ≤ s.engineOps e.val
      (¬ may → exec i s = .next s) ∧
      (may → t.pc % 4 ≠ 0 → faults s .align t.pc) ∧
      (may → t.pc % 4 = 0 → s.peekWord (t.agent e.val) t.pc = none → faults s .range t.pc) ∧
      (∀ w r bs v, may → t.pc % 4 = 0 → s.peekWord (t.agent e.val) t.pc = some w → s.load (t.agent e.val) t.pc 4 = (r, bs, v) →
        (listed w = false → (r = .ok → faults v .badOp 0) ∧ (r ≠ .ok → faults v .parity t.pc)) ∧
        (listed w = true → rowWord op fn w = false ∨ ¬ resolved w → exec i s = .next s) ∧
        (listed w = true → rowWord op fn w = true → resolved w → full w →
          s.completes i [.regs, .free] [R.FLK_ENG_CNT_MEM_STALL e.val] (fun u =>
            s.get (R.FLK_ENG_CNT_MEM_STALL.N e.val) ≤ u.get (R.FLK_ENG_CNT_MEM_STALL.N e.val))) ∧
        (listed w = true → rowWord op fn w = true → resolved w → ¬ full w → r ≠ .ok →
          (op = 0x38 ∨ op = 0x39 → s.holdDue = none) → (op = 0x3F → t.ops = []) → faults v .parity t.pc)))

/-- For a thread that issues a word of the row, with 64-bit values in ra and rb: the state after is the state after the fetch
with that thread's pc moved on and rd written with the table's result (nothing for rd = g0): wrap-around, signed and
unsigned comparisons, shifts by rb[5:0] or the immediate's, FP32 with one rounding to nearest even, the immediate
sign-extended. A branch taken goes to its own pc plus 4 times the offset; JAL keeps the return address in g31; FENCE closes
the thread's issue; RDT reads DTIME, WPOS, context, engine, module ID or the RFAIL bit, which it clears. -/
def Obligations.FlockRegisterInstructions : Prop :=
  ∀ (s : State) (e : Fin 2) (c : Fin 4096) (t : Thread) (w : Nat) (u : State), s.fetches e.val c.val t w u →
    let a := t.reg (raOf w)
    let b := t.reg (rbOf w)
    let d := t.reg (rdOf w)
    let imm : Int := signed 16 w
    let z (x : Int) : Nat := (x % 18446744073709551616).toNat
    let sg (x : Nat) : Int := signed 64 x
    let fa := f32 (a % 2 ^ 32)
    let fb := f32 (b % 2 ^ 32)
    let yes (p : Bool) : Nat := if p then 1 else 0
    let becomes (i : Instr) (x : Thread) : Prop := exec i s = .next (u.setThread e.val c.val x)
    let gives (i : Instr) (v : Nat) : Prop := becomes i (t.past.setReg (rdOf w) v)
    a < 2 ^ 64 → b < 2 ^ 64 → d < 2 ^ 64 →
    (∀ x ∈ [(Instr.add e c, 0, (a + b) % 2 ^ 64), (.sub e c, 1, z ((a : Int) - (b : Int))), (.and e c, 2, a &&& b),
        (.or e c, 3, a ||| b), (.xor e c, 4, a ^^^ b), (.shl e c, 5, a * 2 ^ (b % 64) % 2 ^ 64), (.shr e c, 6, a / 2 ^ (b % 64)),
        (.sar e c, 7, z (sg a / 2 ^ (b % 64))), (.slt e c, 8, yes (decide (sg a < sg b))), (.sltu e c, 9, yes (decide (a < b))),
        (.min e c, 10, if sg b < sg a then b else a), (.max e c, 11, if sg a < sg b then b else a),
        (.mul e c, 12, a * b % 2 ^ 64), (.mulhu e c, 13, a * b / 2 ^ 64), (.divu e c, 14, if b = 0 then 2 ^ 64 - 1 else a / b),
        (.clz e c, 15, if a = 0 then 64 else 63 - Nat.log2 a),
        (.popc e c, 16, ((List.range 64).filter (fun j => a.testBit j)).length)],
      opOf w = 0 → fnOf w = x.2.1 → gives x.1 x.2.2) ∧
    (∀ x ∈ [(Instr.fadd e c, 0, f32Bits (fa.add fb)), (.fsub e c, 1, f32Bits (fa.add fb.neg)), (.fmul e c, 2, f32Bits (fa.mul fb)),
        (.fmin e c, 3, fpPick false fa fb), (.fmax e c, 4, fpPick true fa fb), (.flt e c, 5, yes (Fp.lt fa fb)),
        (.fcvti e c, 6, z (fa.toIntSat (-(2 ^ 63)) (2 ^ 63 - 1))), (.fcvtf e c, 7, f32Bits (Fp.ofInt (sg a)))],
      opOf w = 1 → fnOf w = x.2.1 → gives x.1 x.2.2) ∧
    (∀ x ∈ [(Instr.addi e c, 2, z (a + imm)), (.andi e c, 3, a &&& z imm), (.ori e c, 4, a ||| z imm), (.xori e c, 5, a ^^^ z imm),
        (.shi e c, 6, if w / 64 % 4 = 0 then a * 2 ^ (w % 64) % 2 ^ 64 else if w / 64 % 4 = 1 then a / 2 ^ (w % 64)
          else z (sg a / 2 ^ (w % 64))), (.lui e c, 7, z (imm * 65536)), (.slti e c, 8, yes (decide (sg a < imm)))],
      opOf w = x.2.1 → gives x.1 x.2.2) ∧
    -- Branches compare the fields at [25:21] and [20:16].
    (∀ x ∈ [(Instr.beq e c, 0x20, decide (d = a)), (.bne e c, 0x21, decide (d ≠ a)), (.blt e c, 0x22, decide (sg d < sg a)),
        (.bge e c, 0x23, decide (sg a ≤ sg d)), (.bltu e c, 0x24, decide (d < a)), (.bgeu e c, 0x25, decide (a ≤ d))],
      opOf w = x.2.1 → becomes x.1 (if x.2.2 then { t.past with pc := z (t.pc + 4 * imm) } else t.past)) ∧
    (opOf w = 0x26 → becomes (.jal e c) { t.past.setReg 31 (t.pc + 4) with pc := z (t.pc + 4 * signed 26 w) }) ∧
    (opOf w = 0x27 → becomes (.jr e c) { t.past with pc := a }) ∧
    (opOf w = 0x3A → becomes (.fence e c) { t.past with fence := true }) ∧
    (opOf w = 0x3B → (w % 65536 = 0 → gives (.rdt e c) u.dtime) ∧ (w % 65536 = 1 → gives (.rdt e c) u.pos.wpos) ∧
      (w % 65536 = 2 → gives (.rdt e c) c.val) ∧ (w % 65536 = 3 → gives (.rdt e c) e.val) ∧
      (w % 65536 = 4 → gives (.rdt e c) u.myId) ∧
      (w % 65536 = 5 → becomes (.rdt e c) ({ t.past with rfail := false }.setReg (rdOf w) (yes t.rfail))))

/-- A load, store or atomic that is misaligned faults ALIGN, out of reach RANGE, AADDF without ND BAD_ND; else it is
outstanding, at its home if that has room. HKEY writes the 88-bit hash of salt and bytes, once no operation before it touches
those and their home has room. A set operation needs an enabled set, else BAD_SET; one that this module's copy serves, or that follows another on the
set, is outstanding; another is requested, or ends in DOUBT without quorum, NO_ROUTE without a route; so RGET.
FLOCK_MEM_COMPLETE completes an operation that has room and no earlier one to follow: a load returns the bytes, a store writes
them, an atomic does both, a set operation acts under R224, or is sent, RGET reads a window. REMOTE_TIMEOUT after FLK_RTIMEOUT
ends DOUBT, NO_ROUTE or RFAIL. SWAIT and SSIG, after due hold entries have expired, need an object of the partition, else
BAD_SO; the wait of SWAIT reaches the sync unit. EXIT with nothing outstanding at this module frees the context, and with only
operations there that are held it waits. A request that no link has carried is not sent after its time-out. -/
def Obligations.FlockMemoryAndEnds : Prop :=
  ∀ (s : State) (e : Fin 2) (c : Fin 4096), s.canonical →
    (∀ (t : Thread) (w : Nat) (u : State), s.fetches e.val c.val t w u →
      let p := t.past
      let v := u.setThread e.val c.val p
      let fault (i : Instr) (f : ThreadFault) (a : Nat) : Prop := exec i s = .next (v.flockFault e.val c.val p f t.pc a)
      let adds (x : State) (o : MemOp) : State := x.setThread e.val c.val { p with ops := t.ops ++ [o] }
      let out (i : Instr) (o : MemOp) : Prop := (v.opHome e.val p o = none → exec i s = .next (adds v o)) ∧
        ∀ d, v.opHome e.val p o = some d →
          (v.homeRoom d t.part = true → exec i s = .next (adds v { o with home := some d })) ∧
          (v.homeRoom d t.part = false → exec i s = .next (adds (v.bump R.CEL_CNT_WAIT_INFL.N) o))
      let ea := (((t.reg (raOf w) : Int) + signed 16 w) % 18446744073709551616).toNat
      let access (i : Instr) (a n rd : Nat) (k : MemOpKind) : Prop :=
        (a % n ≠ 0 → fault i .align a) ∧ (a % n = 0 → v.inReach e.val p a n = false → fault i .range a) ∧
        (a % n = 0 → v.inReach e.val p a n = true → out i { kind := k, addr := a, rd := rd, pc := t.pc })
      (∀ x ∈ [(Instr.ld8 e c, 0x10, 1), (.ld16 e c, 0x11, 2), (.ld32 e c, 0x12, 4), (.ld64 e c, 0x13, 8)],
        opOf w = x.2.1 → access x.1 ea x.2.2 (rdOf w) (.load x.2.2)) ∧
      (∀ x ∈ [(Instr.st8 e c, 0x14, 1), (.st16 e c, 0x15, 2), (.st32 e c, 0x16, 4), (.st64 e c, 0x17, 8)],
        opOf w = x.2.1 → access x.1 ea x.2.2 0 (.store x.2.2 (t.reg (rdOf w) % 256 ^ x.2.2))) ∧
      (∀ x ∈ [(Instr.aadd e c, 0), (.aaddf e c, 1), (.amin e c, 2), (.amax e c, 3), (.axchg e c, 4), (.acas e c, 5)],
        opOf w = 0x18 → fnOf w % 16 = x.2 →
        let wide := bit (fnOf w) 4
        (x.2 = 1 → t.nd = false → fault x.1 .badNd 0) ∧
        (x.2 ≠ 1 ∨ t.nd = true → access x.1 (t.reg (raOf w)) (if wide then 8 else 4) (rdOf w)
          (.atomic x.2 wide (t.reg (rbOf w)) (t.reg (rdOf w))))) ∧
      (opOf w = 0x30 →
        let rd := rdOf w
        let n := t.reg (rbOf w)
        let cfg := v.setCfg (fnOf w % 16)
        let a := t.reg (raOf w)
        let o : MemOp := { kind := .hkey n, addr := a, rd := rd, pc := t.pc, setCfg := cfg }
        let fine : Prop := rd % 2 = 0 ∧ rd ≠ 0 ∧ n ≤ 64
        let writes (x : State) (bs : List Byte) : Prop :=
          let h := sha256 (leBytes 8 (cfgSalt cfg) ++ bs)
          exec (.hkey e c) s = .next (x.setThread e.val c.val
            ((p.setReg rd (leVal (h.take 8))).setReg (rd + 1) (leVal ((h.drop 8).take 3))))
        (¬ fine → fault (.hkey e c) .badOp 0) ∧ (fine → cfgEnabled cfg = false → fault (.hkey e c) .badSet 0) ∧
        (fine → cfgEnabled cfg = true → n = 0 → writes v []) ∧
        (fine → cfgEnabled cfg = true → 0 < n → (v.inReach e.val p a n = false → fault (.hkey e c) .range a) ∧
          (v.inReach e.val p a n = true → ((∃ q ∈ t.ops, v.opAfter o q = true) ∨ v.roomless e.val p o = true → out (.hkey e c) o) ∧
            ((∀ q ∈ t.ops, v.opAfter o q = false) → v.roomless e.val p o = false → ∀ r bs x, v.load (p.agent e.val) a n = (r, bs, x) →
              (r = .ok → writes x bs) ∧ (r ≠ .ok → exec (.hkey e c) s = .next
                (x.flockFault e.val c.val p (if r = .range then .range else .parity) t.pc a)))))) ∧
      (∀ x ∈ [(Instr.hlook e c, 0x31, 0), (.hseen e c, 0x32, 1), (.hins e c, 0x33, 2)], opOf w = x.2.1 →
        let k := fnOf w % 16
        let cfg := v.setCfg k
        let key := t.key (raOf w)
        let z := key % 256
        let node := if x.2.2 = 2 then t.reg (rbOf w) % 2 ^ 32 else 0
        let o : MemOp := { kind := .setOp x.2.2 k (keyBytes key) node, addr := 0, rd := rdOf w, pc := t.pc, setCfg := cfg }
        let q : Thread := { p with ops := t.ops ++ [o] }
        (cfgEnabled cfg = false → fault x.1 .badSet 0) ∧
        (cfgEnabled cfg = true → (v.setTarget cfg x.2.2 z = none ∨ ∃ y ∈ t.ops, v.opAfter o y = true) → out x.1 o) ∧
        (cfgEnabled cfg = true → v.setTarget cfg x.2.2 z ≠ none → (∀ y ∈ t.ops, v.opAfter o y = false) →
          ∀ r v', v.readMap (.mapRead e.val t.part) cfg z = (r, v') →
          (r ≠ .ok → exec x.1 s = .next (v'.flockFault e.val c.val q (if r = .range then .range else .parity) t.pc
            (cfgMap cfg + 4 * z))) ∧
          (r = .ok → ∀ dst, v'.setTarget cfg x.2.2 z = some dst →
            (v'.flag R.GTS_STATUS.QUORUM = false → exec x.1 s = .next
              ((v'.setThread e.val c.val q).failSet e.val c.val q t.ops.length 4)) ∧
            (v'.flag R.GTS_STATUS.QUORUM = true → (v'.inFabric = false ∨ v'.lookupRoute t.part dst = false) → exec x.1 s = .next
              ((v'.setThread e.val c.val q).failSet e.val c.val q t.ops.length 5)) ∧
            (v'.flag R.GTS_STATUS.QUORUM = true → v'.inFabric = true → v'.lookupRoute t.part dst = true → exec x.1 s = .next
              ((adds v'.newTag.2 { o with remote := some v'.gts.nextTag, sentAt := s.dtime }).sendLookup
                0x20 t.part dst v'.gts.nextTag (setReqBytes x.2.2 k key node)))))) ∧
      (opOf w = 0x34 →
        let dst := t.reg (raOf w) % 64
        let a := t.reg (rbOf w)
        let o : MemOp := { kind := .rget dst, addr := a, rd := rdOf w, pc := t.pc }
        (a % 8 ≠ 0 → fault (.rget e c) .align a) ∧ (a % 8 = 0 → dst = v.myId → exec (.rget e c) s = .next (adds v o)) ∧
        (a % 8 = 0 → dst ≠ v.myId → v.inFabric = false ∨ v.lookupRoute t.part dst = false →
          exec (.rget e c) s = .next (u.setThread e.val c.val
            ({ p with rfail := true, ops := (t.ops ++ [o]).eraseIdx t.ops.length }.setReg (rdOf w) 0))) ∧
        (a % 8 = 0 → dst ≠ v.myId → v.inFabric = true → v.lookupRoute t.part dst = true → exec (.rget e c) s = .next
          ((adds v.newTag.2 { o with remote := some v.gts.nextTag, sentAt := s.dtime }).sendLookup
            0x24 t.part dst v.gts.nextTag (leBytes 8 a)))) ∧
      (opOf w = 0x3F → ((∀ o ∈ t.ops, o.remote ≠ none) → exec (.exit e c) s = .next
          ((v.freeThread e.val c.val).threadEnded t.launch).settle) ∧
        ((∃ o ∈ t.ops, o.remote = none) → (∀ k o, t.ops[k]? = some o → s.opHeld e.val t k o = true) →
          exec (.exit e c) s = .next s))) ∧
    -- SWAIT and SSIG: `x` is the state once the hold entries that are due have expired.
    (∀ (t0 : Thread) (w0 : Nat) (u0 : State), s.fetches e.val c.val t0 w0 u0 → opOf w0 = 0x38 ∨ opOf w0 = 0x39 →
      let x := s.expireDue
      let i : Instr := if opOf w0 = 0x38 then .swait e c else .ssig e c
      (x.thread e.val c.val = none → exec i s = .next x) ∧
      (∀ (t : Thread) (w : Nat) (u : State), x.fetches e.val c.val t w u → opOf w = opOf w0 →
        let p := t.past
        let v := u.setThread e.val c.val p
        let o := (((t.reg (raOf w) : Int) + signed 16 w) % 18446744073709551616).toNat
        let may : Prop := o < 16384 ∧ ((v.so o).cfg.type = 0 ∨ (v.so o).allowed t.part = true)
        (¬ may → exec i s = .next (v.flockFault e.val c.val p .badSo t.pc 0)) ∧
        (may → opOf w = 0x38 → exec i s = .next
          ((u.setThread e.val c.val { p with swait := some (rdOf w) }).arriveWait (.thread e.val c.val) o (t.reg (rdOf w))).settle) ∧
        (may → opOf w = 0x39 → exec i s = .next (v.signal (.thread e.val c.val) o (t.reg (rdOf w))).settle))) ∧
    -- Completion at the home.
    (∀ k : Fin 8, (s.thread e.val c.val = none ∨ (∃ t, s.thread e.val c.val = some t ∧ t.ops.length ≤ k.val) →
      exec (.flockMemComplete e c k) s = .next s ∧ exec (.remoteTimeout e c k) s = .next s)) ∧
    (∀ (k : Fin 8) (t : Thread) (o : MemOp), s.thread e.val c.val = some t → t.ops[k.val]? = some o →
      let i := Instr.flockMemComplete e c k
      let rest := t.ops.eraseIdx k.val
      let ends (v : State) (x : Nat) : Prop := exec i s = .next (v.setThread e.val c.val { t.setReg o.rd x with ops := rest })
      let held : Prop := o.remote ≠ none ∨ (∃ q ∈ t.ops.take k.val, s.opAfter o q = true) ∨ s.roomless e.val t o = true
      let fails (v : State) (r : MemRes) (a : Nat) : Prop :=
        exec i s = .next (v.flockFault e.val c.val t (if r = .range then .range else .parity) o.pc a)
      (held → exec i s = .next s) ∧
      (¬ held → ∀ n, o.kind = .load n → ∀ r bs v, s.load (t.agent e.val) o.addr n = (r, bs, v) →
        (r = .ok → ends v (leVal bs)) ∧ (r ≠ .ok → fails v r o.addr)) ∧
      (¬ held → ∀ n x, o.kind = .store n x → ∀ r v, s.store (t.agent e.val) o.addr (leBytes n x) = (r, v) →
        (r = .ok → ends v 0) ∧ (r ≠ .ok → fails v r o.addr)) ∧
      (¬ held → ∀ fn (wide : Bool) x y, o.kind = .atomic fn wide x y →
        let n := if wide then 8 else 4
        ∀ r bs v, s.load (t.agent e.val) o.addr n = (r, bs, v) →
          let old := leVal bs
          let new := if fn = 0 then (old + x) % 256 ^ n else if fn = 1 then
              f32Bits ((f32 (old % 2 ^ 32)).add (f32 (x % 2 ^ 32)))
            else if fn = 2 then (if signed (8 * n) x < signed (8 * n) old then x % 256 ^ n else old)
            else if fn = 3 then (if signed (8 * n) old < signed (8 * n) x then x % 256 ^ n else old)
            else if fn = 4 then x % 256 ^ n else if old = y % 256 ^ n then x % 256 ^ n else old
          (r = .ok → ends (v.storeBack (t.agent e.val) o.addr (leBytes n new)) old) ∧ (r ≠ .ok → fails v r o.addr)) ∧
      (¬ held → ∀ n, o.kind = .hkey n → ∀ r bs v, s.load (t.agent e.val) o.addr n = (r, bs, v) →
        (r = .ok → exec i s = .next (v.setThread e.val c.val { t.setKey o.rd o.setCfg bs with ops := rest })) ∧
        (r ≠ .ok → fails v r o.addr)) ∧
      (¬ held → ∀ m, o.kind = .rget m →
        (∀ x v, s.windowRead o.addr t.part = (some x, v) → ends v x) ∧
        (∀ v, s.windowRead o.addr t.part = (none, v) → exec i s = .next (v.failGet e.val c.val t k.val))) ∧
      (¬ held → ∀ op set key node, o.kind = .setOp op set key node →
        let kv := leVal key
        let z := kv % 256
        ∀ r0 s', s.readMap (.mapRead e.val t.part) o.setCfg z = (r0, s') →
        (r0 ≠ .ok → fails s' r0 (cfgMap o.setCfg + 4 * z)) ∧
        -- Another module has the primary.
        (r0 = .ok → ∀ dst, s'.setTarget o.setCfg op z = some dst →
          let waits := s'.setThread e.val c.val t
          (s'.flag R.GTS_STATUS.QUORUM = false → exec i s = .next (waits.failSet e.val c.val t k.val 4)) ∧
          (s'.flag R.GTS_STATUS.QUORUM = true → s'.inFabric = false ∨ s'.lookupRoute t.part dst = false →
            exec i s = .next (waits.failSet e.val c.val t k.val 5)) ∧
          (s'.flag R.GTS_STATUS.QUORUM = true → s'.inFabric = true → s'.lookupRoute t.part dst = true → exec i s = .next
            ((s'.newTag.2.setThread e.val c.val
              { t with ops := setNth t.ops k.val { o with remote := some s'.gts.nextTag, sentAt := s'.dtime } }).sendLookup
                0x20 t.part dst s'.gts.nextTag (setReqBytes op set kv node)))) ∧
        -- This module's copy.
        (r0 = .ok → s'.setTarget o.setCfg op z = none →
          let slot := s'.shardSlot o.setCfg z
          (s'.setDoubt set o.setCfg z = true → exec i s = .next (s'.failSet e.val c.val t k.val 4)) ∧
          (s'.setDoubt set o.setCfg z = false → ∀ f v, s'.search (t.agent e.val) o.setCfg slot kv (cfgProbe o.setCfg) 0 = (f, v) →
            let answers (x : Nat) : Prop := exec i s = .next (v.finishSet e.val c.val t k.val x)
            let writes (x : Nat) (y : EntryChange) : Prop :=
              let v' := v.putEntry (t.agent e.val) o.setCfg slot kv y
              (cfgFabric o.setCfg = false ∨ v'.shardReplica o.setCfg z = v'.myId →
                exec i s = .next (v'.finishSet e.val c.val t k.val x)) ∧
              (cfgFabric o.setCfg = true → v'.shardReplica o.setCfg z ≠ v'.myId → exec i s = .next
                ((v'.replicate set t.part kv v'.myId 0 o.setCfg (some (e.val * 4096 + c.val, v'.gts.nextTag)) ⟨x, some y, none⟩).2.setThread
                  e.val c.val { t with ops := setNth t.ops k.val { o with remote := some v'.gts.nextTag, sentAt := s.dtime } }))
            (∀ r a, f = .failed r a → fails v r a) ∧
            (∀ n, f = .limit n → answers (3 + n * 8 + 4294967295 * 2 ^ 32)) ∧
            (∀ b en st nd n, f = .hit b en st nd n →
              (op = 2 ∨ st ≠ 1 → answers (1 + n * 8 + nd * 2 ^ 32)) ∧
              (op ≠ 2 → op ≠ 1 → st = 1 → answers (n * 8 + nd * 2 ^ 32)) ∧
              (op = 1 → st = 1 → writes (n * 8 + nd * 2 ^ 32) ⟨b, en, 2, nd⟩)) ∧
            (∀ b en n, f = .empty b en n →
              (op ≠ 2 → answers (2 + n * 8 + 4294967295 * 2 ^ 32)) ∧
              (op = 2 → writes (n * 8 + 4294967295 * 2 ^ 32) ⟨b, en, 1, node⟩))))) ∧
      -- Time-outs of remote operations.
      (let us := s.get R.FLK_RTIMEOUT.US * 1000;
        (o.remote = none ∨ s.dtime < o.sentAt + us → exec (.remoteTimeout e c k) s = .next s) ∧
        (∀ tag, o.remote = some tag → o.sentAt + us ≤ s.dtime →
          let mine (q : GPacket) : Prop := q.tag = tag ∧ q.src = s.myId ∧ q.vc = 2 ∧ (q.type = 0x20 ∨ q.type = 0x24)
          let queued : Prop := ∃ g ∈ s.gts.ports, ∃ q ∈ g.out, mine q
          let cut : State := { s with gts := { s.gts with ports := s.gts.ports.map (fun (g : PortSt) =>
            { g with out := g.out.filter (fun q => !(q.tag == tag && q.src == s.myId && q.vc == 2 &&
              (q.type == 0x20 || q.type == 0x24))) }) } }
          (∀ m, o.kind = .rget m → exec (.remoteTimeout e c k) s = .next (cut.failGet e.val c.val t k.val)) ∧
          ((∀ m, o.kind ≠ .rget m) →
            (queued ∨ tag ∈ s.gts.unsent → exec (.remoteTimeout e c k) s = .next (cut.failSet e.val c.val t k.val 5)) ∧
            (¬ (queued ∨ tag ∈ s.gts.unsent) → exec (.remoteTimeout e c k) s = .next (cut.failSet e.val c.val t k.val 4)))))) ∧
    (s.serves → s.completes (.faultRelease e) [.regs] [R.FLK_ENG_STATUS e.val, R.FLK_ENG_FAULT e.val, R.FLK_ENG_FAULT_PC e.val,
      R.FLK_ENG_FAULT_PC_HI e.val, R.FLK_ENG_FAULT_ADDR_LO e.val, R.FLK_ENG_FAULT_ADDR_HI e.val] (fun t =>
        t.flag (R.FLK_ENG_STATUS.FAULT_HELD e.val) = false ∧ t.get (R.FLK_ENG_FAULT.CODE e.val) = 0 ∧
        t.get (R.FLK_ENG_FAULT.CONTEXT e.val) = 0 ∧ t.get64 (R.FLK_ENG_FAULT_PC.PC e.val) (R.FLK_ENG_FAULT_PC_HI.N e.val) = 0 ∧
        t.get64 (R.FLK_ENG_FAULT_ADDR_LO.N e.val) (R.FLK_ENG_FAULT_ADDR_HI.N e.val) = 0 ∧
        t.flag (R.FLK_ENG_STATUS.IN_SERVICE e.val) = s.flag (R.FLK_ENG_STATUS.IN_SERVICE e.val)))

/-! ### Slices -/

/-- SLICE_END at the slice's end, and SLICE_YIELD once the holder has been blocked for a non-zero YIELD_US, end the slice: alone
in its partition the job begins again at once, for SLICE_US less its debt, which is then 0; else the partition is SWITCHING
with the end noted, deferred while a context of the job holds units. Then, not deferred, with every issued command
complete and the Larders in normal mode, PARTITION_SWITCH records the overrun, adds it to the debt, counts, saves core after
core and, if every save succeeds, leaves the job PREEMPTED. A save stores the core's live rows and accumulators, and unbinds
it; a read or a store that fails tears the job down, a Larder fault is that of the core. SLICE_BEGIN gives the free slice of an enabled background partition to the next job, the
lowest above the last holder, else the lowest. Otherwise none of them does anything. -/
def Obligations.SlicesTurn : Prop :=
  ∀ (s : State) (part : Fin 8), s.canonical → s.ptns.length = 8 →
    let p := part.val
    let none_ : Prop := s.background p = false ∨ s.flag (R.STG_PTN_STATUS.VALID p) = false
    let begins (i : Instr) (j : Nat) : Prop := s.completes i [.regs, .jobs, .ptns] [R.STG_PTN_STATUS p] (fun t =>
      t.flag (R.STG_PTN_STATUS.VALID p) = true ∧ t.get (R.STG_PTN_STATUS.JOB p) = j % 64 ∧
      t.ptn p = { sliceStart := s.dtime, sliceEnd := s.dtime + (s.get (R.STG_PTN_SLICE.SLICE_US p) * 1000 - (s.job j).debt),
                  endedAt := none, last := j } ∧
      t.job j = { s.job j with debt := 0, blockedSince := none } ∧ (∀ k, k ≠ j → t.job k = s.job k) ∧
      ∀ k, k ≠ p → t.ptn k = s.ptn k)
    let stops (i : Instr) (j at_ : Nat) : Prop := s.completes i [.regs, .ptns] [R.STG_PTN_STATUS p] (fun t =>
      t.ptn p = { s.ptn p with endedAt := some at_ } ∧ t.flag (R.STG_PTN_STATUS.SWITCHING p) = true ∧
      t.flag (R.STG_PTN_STATUS.DEFERRED p) = s.jobHolds j ∧ t.flag (R.STG_PTN_STATUS.VALID p) = true ∧
      t.get (R.STG_PTN_STATUS.JOB p) = s.get (R.STG_PTN_STATUS.JOB p) ∧ ∀ k, k ≠ p → t.ptn k = s.ptn k)
    (none_ → exec (.sliceEnd part) s = .next s ∧ exec (.sliceYield part) s = .next s ∧ exec (.partitionSwitch part) s = .next s) ∧
    (∀ j, s.background p = true → s.flag (R.STG_PTN_STATUS.VALID p) = true → s.get (R.STG_PTN_STATUS.JOB p) = j →
      ((s.ptn p).endedAt ≠ none → exec (.sliceEnd part) s = .next s ∧ exec (.sliceYield part) s = .next s) ∧
      ((s.ptn p).endedAt = none → exec (.partitionSwitch part) s = .next s ∧
        (s.dtime < (s.ptn p).sliceEnd → exec (.sliceEnd part) s = .next s) ∧
        ((s.ptn p).sliceEnd ≤ s.dtime →
          (s.sliceJobs p = [j] → begins (.sliceEnd part) j) ∧
          (s.sliceJobs p ≠ [j] → stops (.sliceEnd part) j (s.ptn p).sliceEnd)) ∧
        (let y := s.get (R.STG_PTN_SLICE.YIELD_US p)
          let due : Prop := y ≠ 0 ∧ s.blocked j = true ∧ ∃ t, (s.job j).blockedSince = some t ∧ t + y * 1000 ≤ s.dtime;
          (¬ due → exec (.sliceYield part) s = .next s) ∧
          (due → (s.sliceJobs p = [j] → begins (.sliceYield part) j) ∧
            (s.sliceJobs p ≠ [j] → stops (.sliceYield part) j s.dtime)))) ∧
      (∀ t0, (s.ptn p).endedAt = some t0 →
        (s.flag (R.STG_PTN_STATUS.DEFERRED p) = true ∨ s.coresIdle j = false ∨ s.portsAct (s.job j).bound = false →
          exec (.partitionSwitch part) s = .next s) ∧
        (s.flag (R.STG_PTN_STATUS.DEFERRED p) = false → s.coresIdle j = true → s.portsAct (s.job j).bound = true →
          ∃ a : State, s.changesOnly [.regs, .loft, .jobs] a ∧
            a.get (R.STG_PTN_OVR.N p) = min (2 ^ 32 - 1) (s.dtime - t0) ∧
            a.get (R.STG_PTN_SWITCHES.N p) = (s.get (R.STG_PTN_SWITCHES.N p) + 1) % 2 ^ 32 ∧
            a.job j = { s.job j with debt := (s.job j).debt + (s.dtime - t0) } ∧ (∀ k, k ≠ j → a.job k = s.job k) ∧
            let b := ((List.range (s.job j).bound.length).zip (s.job j).bound).foldl (fun (x : State) y => x.saveCore j y.1 y.2) a
            (b.jobState j = 2 → ∃ t, exec (.partitionSwitch part) s = .next t ∧ b.changesOnly [.regs, .jobs, .ptns] t ∧
              (j < 64 → t.jobState j = 3) ∧ (∀ k, t.job k = b.job k) ∧
              (b.jobPart j = p → b.flag (R.STG_PTN_STATUS.VALID p) = true → b.get (R.STG_PTN_STATUS.JOB p) = j → b.ptns.length = 8 →
                t.flag (R.STG_PTN_STATUS.VALID p) = false ∧ (t.ptn p).endedAt = none ∧ (t.ptn p).last = j)) ∧
            (b.jobState j ≠ 2 → exec (.partitionSwitch part) s = .next b)))) ∧
    -- The save of one core: `n`, logical core `i`.
    (∀ (j i n : Nat) (e : Bool) (v : State), s.jobState j = 2 → n < 16 → s.cores.length = 16 →
      (match s.list n with
        | some l => s.liveRead l
        | none => (true, s)) = (e, v) →
      (e = false → s.saveCore j i n = (v.tearJob j .parity n).settle) ∧
      (e = true →
        let live := (s.list n).bind (fun l => v.liveWords l)
        ∀ r w, v.rowsCheck n (liveRows live) = (r, w) →
          (∀ x, r = some (.hard x) → s.saveCore j i n = (w.larderHard n (x / 32768) x).settle) ∧
          (r = none → ∀ ok u, w.storeAll .issuer (w.saveBlock j i)
              ((liveRows live).map (fun r => (r * 512, w.larderRead n (r * 512) 512)) ++ [(2097152, (w.core n).accBytes)]) = (ok, u) →
            (ok = false → s.saveCore j i n = (u.tearJob j .parity n).settle) ∧
            (ok = true →
              let t := s.saveCore j i n
              u.changesOnly [.regs, .lists, .cores, .jobs, .sync] t ∧ t.list n = none ∧ (t.core n).vacc = [] ∧
              (t.core n).setupDue = false ∧ t.flag (R.CORE_ALLOC.BOUND n) = false ∧
              keyGet (t.job j).saved i = some ⟨s.list n, live, (u.core n).setupDue⟩ ∧
              ∀ k, k < 16 → k ≠ n → t.list k = u.list k ∧ t.core k = u.core k)))) ∧
    (s.background p = false ∨ s.flag (R.STG_PTN_STATUS.VALID p) = true ∨ s.sliceJobs p = [] ∨ s.portsAct (s.ptnCores p) = false →
      exec (.sliceBegin part) s = .next s) ∧
    (∀ j pr, s.background p = true → s.flag (R.STG_PTN_STATUS.VALID p) = false → s.portsAct (s.ptnCores p) = true →
      j ∈ s.sliceJobs p →
      ((s.ptn p).last < j ∧ (∀ k ∈ s.sliceJobs p, (s.ptn p).last < k → j ≤ k) ∨
        (∀ k ∈ s.sliceJobs p, k ≤ (s.ptn p).last ∧ j ≤ k)) →
      (s.job j).pair = some pr →
      let a := ((s.setJobState j .running).openSlice p j).drop (R.STG_PTN_STATUS.SWITCHING p)
      let b := a.takeCores p j pr.image
      let c := b.setJob j { b.job j with saved := [] }
      exec (.sliceBegin part) s = .next ((c.job j).bound.foldl (fun (x : State) n => x.coreNext j n) c).settle ∧
      a.jobState j = 2 ∧ a.flag (R.STG_PTN_STATUS.VALID p) = true ∧ a.get (R.STG_PTN_STATUS.JOB p) = j ∧
      a.flag (R.STG_PTN_STATUS.SWITCHING p) = false ∧ (a.ptn p).last = j ∧ (a.ptn p).sliceStart = s.dtime)

/-! ### Sheepdog -/

/-- SHEEPDOG_CHECK_DONE gives the part at the head of the queue its outcome and score, inverted under FLIP_SDG, unless the
queue is empty or LOCKSTEP is set: REJECT without a score where no check is possible, else REJECT from TILE_COUNT failing
tiles on, at the shift of least sum. LOCKSTEP_MISMATCH halts the check, takes back the results of
the parts not yet decided, and stops the line. A self-test step that is enabled and
owed counts as deferred where its conditions fail, else as done; found faults have the effects of R403. The interval's end
carries what is owed and reports it late. SDG_PROOF and the clear of ALARM act at once; a Larder fill ends. -/
def Obligations.SheepdogChecksAndSelfTest : Prop :=
  ∀ (s : State), s.canonical →
    (s.sdg.queue = [] ∨ s.flag R.SDG_STATUS.LOCKSTEP = true → exec .sheepdogCheckDone s = .next s) ∧
    (∀ i is, s.sdg.queue = i :: is → s.flag R.SDG_STATUS.LOCKSTEP = false → ∃ w rej score,
      exec .sheepdogCheckDone s = .next (w.combine i) ∧ s.changesOnly [.regs, .cel, .seq, .loft, .sdg] w ∧
      w.sdg = { s.sdg with queue := is } ∧ w.get (R.SDG_LANE_LAST.N (s.part i).core.lane) = score % 2 ^ 32 ∧
      w.part i = { s.part i with vd := { (s.part i).vd with
        sdg := if ((s.part i).vd.proof = 2) = (rej = true) then .pass else .reject, sdgScore := score, sdgTime := s.dtime } } ∧
      (∀ k, k ≠ i → w.part k = s.part k) ∧
      let p := s.part i
      let c0 := colsFirst p.vd.cols / 4
      let wd := colsLast p.vd.cols / 4 + 1 - c0
      let refW := bits p.vd.sdgGeom 11 0
      let rows := bits p.vd.sdgGeom 28 16
      let srch := bits p.vd.sdgCfg 6 4
      let h2 := min p.vd.sdgRows.length rows
      let plane : Prop := ∃ k, s.decStream (colsCamera p.vd.cols) = some k ∧
        bits p.vd.sdgCfg 3 1 ∈ s.strPlanes (colsCamera p.vd.cols) k
      let possible : Prop := plane ∧ refW = wd ∧ p.vd.sdgFlagged = false ∧ 2 * srch < h2 ∧ 2 * srch < wd
      (¬ possible → rej = true ∧ score = 4294967295) ∧
      (possible → ∀ r bs v, ({ s with sdg := { s.sdg with queue := is } } : State).load .firmware p.vd.sdgRef (rows * refW) = (r, bs, v) →
        (r ≠ .ok → rej = true ∧ score = 4294967295) ∧
        (r = .ok →
          let ref := (List.range rows).map (fun k => ((bs.drop (k * refW)).take refW).map (·.toNat))
          let sm := p.vd.sdgRows.map (fun x => (x.samples.drop c0).take wd)
          let nr := h2 - 2 * srch
          let nc := wd - 2 * srch
          ∃ dy dx : Int, dy.natAbs ≤ srch ∧ dx.natAbs ≤ srch ∧
            (∀ y x : Int, y.natAbs ≤ srch → x.natAbs ≤ srch →
              sumDiff sm ref srch nr srch nc dy dx ≤ sumDiff sm ref srch nr srch nc y x ∧
              (sumDiff sm ref srch nr srch nc y x = sumDiff sm ref srch nr srch nc dy dx →
                dy.natAbs + dx.natAbs ≤ y.natAbs + x.natAbs)) ∧
            score = failTiles sm ref srch nr nc (bits p.vd.sdgCfg 15 8) (dy, dx) ∧
            rej = decide (bits p.vd.sdgCfg 31 16 ≤ score)))) ∧
    (s.flag R.SDG_STATUS.LOCKSTEP = true → exec .lockstepMismatch s = .next s) ∧
    (s.flag R.SDG_STATUS.LOCKSTEP = false → s.completes .lockstepMismatch [.regs, .seq, .link, .loft]
      (R.SDG_STATUS :: lineStopOffsets) (fun t => t.flag R.SDG_STATUS.LOCKSTEP = true ∧
        (∀ i, t.part i = if i ∈ s.liveParts ∧ ((s.part i).core.state = .opened ∨ (s.part i).core.state = .closed) then
            { s.part i with vd := { (s.part i).vd with sdg := .absent, sdgScore := 0, combined := none } }
          else s.part i) ∧ bit (t.get R.FLD_LS_CAUSE.CAUSE) Cause.sheepdog.bitNo = true)) ∧
    (∀ (lane : Fin 64) (mode : Fin 4), s.serves → exec (.sdgProofArm lane mode) s = .next { s with sdg := { s.sdg with
      proof := if mode.val = 0 then none else some (lane.val, mode.val) } }) ∧
    (s.serves → s.setNow R.SDG_STATUS.ALARM = true → exec .alarmClear s = .next s) ∧
    (s.serves → s.setNow R.SDG_STATUS.ALARM = false → s.completes .alarmClear [.regs, .sdg] [R.SDG_STATUS] (fun t => t.sdg = { s.sdg with win := [] } ∧
      t.flag R.SDG_STATUS.ALARM = false ∧ t.flag R.SDG_STATUS.LOCKSTEP = s.flag R.SDG_STATUS.LOCKSTEP)) ∧
    -- Self-test: resource, condition, command, and what a step does once it counted.
    (∀ (core bank : Fin 16) (bad : Option (Fin 32768)) (die : Fin 2) (group : Fin 64) (way : Option (Fin 128 × Fin 16)) (pass : Bool),
      let n := core.val
      let ok (x : Nat) : Bool := s.endsBefore (if x = 2 then 20000 else 3000) (s.nextPos (fun e =>
        if x = 2 then e.action == 6 else e.action == 3 && bit e.param n))
      let rows : List (Instr × StepKey × Bool) := [(.larderMarch core bank bad, ⟨0, n⟩, s.coreStepOk n 71040),
        (.arrayKav core pass, ⟨1, n⟩, s.coreStepOk n 18000), (.pantryTag die group way, ⟨2, die.val⟩, ok 2),
        (.lpKal core pass, ⟨3, n⟩, !s.rowDue n && ok 3)]
      (∀ x ∈ rows, s.flag R.SDG_ST_CFG.ENABLE = false ∨ s.owed x.2.1 = 0 → exec x.1 s = .next s) ∧
      (∀ x ∈ rows, s.flag R.SDG_ST_CFG.ENABLE = true → s.owed x.2.1 ≠ 0 → x.2.2 = false →
        s.completes x.1 [.regs] [R.SDG_CNT_ST_DEFER] (fun t => s.counts R.SDG_CNT_ST_DEFER.N 1 t)) ∧
      (∀ x ∈ rows, s.flag R.SDG_ST_CFG.ENABLE = true → s.owed x.2.1 ≠ 0 → x.2.2 = true →
        let u : State := { s with sdg := { s.sdg with done := stepSet s.sdg.done x.2.1 (stepCount s.sdg.done x.2.1 + 1) } }.bump
          R.SDG_CNT_ST_DONE.N
        -- A march keeps the Larder in test mode for its 256 x (42 + 12 x bank) cycles.
        let m := (u.put (R.CORE_LDR_STATUS.MODE n) 2).setCore n { u.core n with
          testUntil := some (s.dtime + ceilDiv (256 * (42 + 12 * bank.val) * 1000) (s.get (R.CLK_FREQ.MHZ (n / 4)))) }
        s.counts R.SDG_CNT_ST_DONE.N 1 u ∧ stepCount u.sdg.done x.2.1 = stepCount s.sdg.done x.2.1 + 1 ∧
        (x.2.1.step = 0 → (bad = none → (∀ b ∈ (s.core n).bad, b.word / 32768 ≠ bank.val) → exec x.1 s = .next m) ∧
          (∀ w, bad = some w → (s.core n).bad = [] → exec x.1 s = .next
            (((m.marchRow n (bank.val * 32768 + w.val)).stFail.larderHard n bank.val (bank.val * 32768 + w.val)).settle)) ∧
          (bad = none → ∀ b ∈ (s.core n).bad, b.word / 32768 = bank.val → (∀ c ∈ (s.core n).bad, b.word ≤ c.word) →
            exec x.1 s = .next ((m.stFail.larderHard n bank.val b.word).settle))) ∧
        (x.2.1.step = 1 → exec x.1 s = .next (if pass then u else (u.stFail.larderHard n 0 0).settle)) ∧
        (x.2.1.step = 2 → (way = none → exec x.1 s = .next u) ∧ (∀ k w, way = some (k, w) → ∃ t, exec x.1 s = .next t ∧
          (die.val, group.val * 128 + k.val, w.val) ∈ t.cel.locked ∧ t.flag R.SDG_STATUS.ST_FAIL = true ∧
          s.counts R.SDG_CNT_ST_FAIL.N 1 t)) ∧
        (x.2.1.step = 3 → (pass = true → exec x.1 s = .next
            { u with sdg := { u.sdg with kalFailed := u.sdg.kalFailed.filter (· != n) } }) ∧
          (pass = false → ∃ t, exec x.1 s = .next t ∧ n ∈ t.sdg.kalFailed ∧ t.flag R.SDG_STATUS.LP_KAL_FAIL = true ∧
            t.flag R.SDG_STATUS.ST_FAIL = true ∧ bit (t.get R.FLD_LS_CAUSE.CAUSE) Cause.sheepdog.bitNo = true)))) ∧
    (let due : Prop := s.flag R.SDG_ST_CFG.ENABLE = true ∧
        s.sdg.intervalStart + s.get R.SDG_ST_CFG.INTERVAL_S * 1000000000 ≤ s.dtime;
      (¬ due → exec .coverageIntervalEnd s = .next s) ∧
      (due → ∃ t, exec .coverageIntervalEnd s = .next t ∧ s.changesOnly [.regs, .loft, .sdg] t ∧ t.sdg.done = [] ∧
        t.sdg.intervalStart = s.dtime ∧ (∀ e ∈ s.coverage, s.owed e.1 ≠ 0 → (e.1, s.owed e.1) ∈ t.sdg.carried) ∧
        (s.owedAll = 0 → t.regs = s.regs) ∧
        (s.owedAll ≠ 0 → t.flag R.SDG_STATUS.SELFTEST_LATE = true ∧ s.counts R.SDG_CNT_ST_LATE.N 1 t))) ∧
    (∀ core : Fin 16,
      let m := s.get (R.CORE_LDR_STATUS.MODE core.val)
      let ends : Prop := (m = 1 ∧ s.quadRuns core.val = true) ∨ (m = 3 ∧ s.inService core.val = true)
      (¬ ends → exec (.larderFillDone core) s = .next s) ∧
      (ends → s.completes (.larderFillDone core) [.regs] [R.CORE_LDR_STATUS core.val] (fun t =>
        t.get (R.CORE_LDR_STATUS.MODE core.val) = 0 ∧ t.flag (R.CORE_LDR_STATUS.HARD core.val) = s.flag (R.CORE_LDR_STATUS.HARD core.val))))

/-! ### Clocks, power and heat -/

/-- A loss, unless one is under way whose source has not been replaced, sets SRC_LOST and LOST_SEEN, clears LOCKED, counts, and
shows 800 MHz on every quad; the coast of a replacement lost in its turn goes on from the first loss (log entry 55). CLOCK_SWITCH
with AUTO on a READY module takes the lowest ready recovered clock, else the crystal, once per loss. LOOP_RELOCK of a replaced source
clears SRC_LOST, gives the coast time and the quads their clocks. A request whose target is not ready is refused and counted;
the source in use makes no switch; else the source is taken. SRC_LOST for LOST_MS stops the line once. DTIME is suspect while
SRC_LOST is 1, within 1 ms of a relock, and in a fabric out of synchronism. The crystal is ready from 200 mV, not below 100.
With the rails off none of these inputs does anything. -/
def Obligations.ClockSourcesFailOver : Prop :=
  ∀ (s : State), s.canonical → s.clk.freqs.length = 4 → (∀ f ∈ s.clk.freqs, f < 4096) →
    let lost := s.flag R.CLK_STATUS.SRC_LOST
    let recReady (k : Nat) : Prop := s.flag R.GTS_CFG.ENABLE = true ∧ bit s.clk.stable k = true ∧ s.get (R.GTS_G_STATUS.STATE k) = 3 ∧
      ∀ j, j < 4 → s.flag (R.LANE_L_STATUS.CDR_LOCK (32 + 4 * k + j)) = true
    let xtal : Prop := s.flag R.CLK_STATUS.XTAL_READY = true
    let freqRegs := [R.CLK_FREQ 0, R.CLK_FREQ 1, R.CLK_FREQ 2, R.CLK_FREQ 3]
    let suspect (t : State) (b : Bool) : Prop := t.flag R.POS_STATUS.DT_SUSPECT = b ∧ t.flag R.CLK_STATUS.DT_SUSPECT = b
    let taken (i : Instr) (rec : Bool) (port : Nat) : Prop := s.completes i [.regs, .clk] [R.CLK_STATUS, R.CLK_CNT_SWITCH] (fun t =>
      t.flag R.CLK_STATUS.SRC = rec ∧ t.get R.CLK_STATUS.SRC_PORT = port ∧ s.counts R.CLK_CNT_SWITCH.N 1 t ∧
      t.flag R.CLK_STATUS.SRC_LOST = lost ∧ t.clk = { s.clk with switched := s.clk.switched || lost })
    let rails : Prop := s.boot.power = true
    let coasts : Prop := lost = true ∧ s.clk.switched = false
    (¬ rails → ∀ mv port within, ∀ i ∈ [Instr.clockSourceLoss, .xtalReady mv, .crystalAmplitudeLoss mv,
      .recoveredClockReady port within], exec i s = .next s) ∧
    (coasts → exec .clockSourceLoss s = .next s) ∧
    (rails → ¬ coasts → s.completes .clockSourceLoss [.regs, .loft, .clk]
      ([R.CLK_STATUS, R.CLK_CNT_LOST, R.POS_STATUS] ++ freqRegs ++ lineStopOffsets) (fun t =>
        t.flag R.CLK_STATUS.SRC_LOST = true ∧ t.flag R.CLK_STATUS.LOST_SEEN = true ∧ t.flag R.CLK_STATUS.LOCKED = false ∧
        s.counts R.CLK_CNT_LOST.N 1 t ∧ (∀ q, q < 4 → t.get (R.CLK_FREQ.MHZ q) = 800) ∧ suspect t true ∧
        t.clk = { s.clk with
          lostAt := if lost then s.clk.lostAt else some s.dtime, lostStop := lost && s.clk.lostStop, switched := false })) ∧
    (s.flag R.GLB_STATUS.READY = false ∨ lost = false ∨ s.flag R.CLK_CFG.AUTO = false ∨ s.clk.switched = true ∨ ((∀ k, k < 8 → ¬ recReady k) ∧ ¬ xtal) →
      exec .clockSwitch s = .next s) ∧
    (s.flag R.GLB_STATUS.READY = true → lost = true → s.flag R.CLK_CFG.AUTO = true → s.clk.switched = false →
      (∀ k, k < 8 → recReady k → (∀ j, j < k → ¬ recReady j) → taken .clockSwitch true k) ∧
      ((∀ k, k < 8 → ¬ recReady k) → xtal → taken .clockSwitch false 0)) ∧
    (s.clk.lostAt = none ∨ s.clk.switched = false → exec .loopRelock s = .next s) ∧
    (∀ t0, s.clk.lostAt = some t0 → s.clk.switched = true → s.completes .loopRelock [.regs, .clk]
      ([R.CLK_STATUS, R.CLK_COAST_NS, R.POS_STATUS] ++ freqRegs) (fun t =>
        t.flag R.CLK_STATUS.SRC_LOST = false ∧ t.flag R.CLK_STATUS.LOCKED = true ∧
        t.get R.CLK_COAST_NS.N = min (2 ^ 32 - 1) (s.dtime - t0) ∧ (∀ q, q < 4 → t.get (R.CLK_FREQ.MHZ q) = nth s.clk.freqs q 0) ∧
        t.clk.lostAt = none ∧ t.clk.relockAt = some s.dtime ∧ suspect t true)) ∧
    (∀ (rec : Bool) (port : Fin 8), s.serves →
      let ready : Prop := (rec = true → recReady port.val) ∧ (rec = false → xtal)
      let inUse : Prop := lost = false ∧ s.flag R.CLK_STATUS.SRC = rec ∧ (rec = true → s.get R.CLK_STATUS.SRC_PORT = port.val)
      (¬ ready → s.completes (.clkSwitchRequest rec port) [.regs, .loft] ([R.CLK_STATUS, R.CLK_CNT_REFUSED] ++ lineStopOffsets) (fun t =>
        t.flag R.CLK_STATUS.SW_REFUSED = true ∧ s.counts R.CLK_CNT_REFUSED.N 1 t ∧
        t.flag R.CLK_STATUS.SRC = s.flag R.CLK_STATUS.SRC ∧ t.get R.CLK_STATUS.SRC_PORT = s.get R.CLK_STATUS.SRC_PORT)) ∧
      (ready → inUse → exec (.clkSwitchRequest rec port) s = .next s) ∧
      (ready → ¬ inUse → taken (.clkSwitchRequest rec port) rec (if rec then port.val else 0))) ∧
    (let due : Prop := s.clk.lostStop = false ∧ ∃ t0, s.clk.lostAt = some t0 ∧ t0 + s.get R.CLK_CFG.LOST_MS * 1000000 ≤ s.dtime;
      (¬ due → exec .clockLostTimeout s = .next s) ∧
      (due → s.completes .clockLostTimeout [.regs, .link, .loft, .clk] lineStopOffsets (fun t =>
        bit (t.get R.FLD_LS_CAUSE.CAUSE) 10 = true ∧ t.clk = { s.clk with lostStop := true }))) ∧
    s.completes .dtSuspectClear [.regs] [R.POS_STATUS, R.CLK_STATUS] (fun t => suspect t
      (lost || (match s.clk.relockAt with | some r => decide (s.dtime < r + 1000000) | none => false) ||
        (s.flag R.GTS_CFG.ENABLE && !s.flag R.GTS_TIME_STATUS.SYNCED))) ∧
    (rails → ∀ mv : BitVec 12, s.completes (.xtalReady mv) [.regs] [R.CLK_XTAL, R.CLK_STATUS] (fun t => t.get R.CLK_XTAL.AMP_MV = mv.toNat ∧
        t.flag R.CLK_STATUS.XTAL_READY = (s.flag R.CLK_STATUS.XTAL_READY || decide (200 ≤ mv.toNat))) ∧
      s.completes (.crystalAmplitudeLoss mv) [.regs] [R.CLK_XTAL, R.CLK_STATUS] (fun t => t.get R.CLK_XTAL.AMP_MV = mv.toNat ∧
        t.flag R.CLK_STATUS.XTAL_READY = (s.flag R.CLK_STATUS.XTAL_READY && decide (100 ≤ mv.toNat)))) ∧
    (rails → ∀ (port : Fin 8) (within : Bool), s.completes (.recoveredClockReady port within) [.clk] [] (fun t =>
      bit t.clk.stable port.val = within ∧ (∀ j, j ≠ port.val → bit t.clk.stable j = bit s.clk.stable j) ∧
      t.clk = { s.clk with stable := t.clk.stable }))

/-- On a READY module GOVERNOR_TICK shows the mean power and adds it to the energy; then, first that applies: forced or alarmed,
every quad to 800 MHz; the quads of a throttled sensor step down to FMIN; without GOV_EN every quad at FMAX; above the cap one quad
100 MHz down (non-real-time first, then the fastest, then the lowest), or CAP_UNMET; below it with the predicted step one up. In a
coast every quad is at 800 MHz, and but for that of the first case no frequency is set. VR_ALERT forces 800 MHz, and a latched fault stops the line. THERMAL_SAMPLE
updates temperatures, peaks and the conditions with 2 degrees of hysteresis. A quad sleeps only with its cores idle, wakes within
2 us for a record that could issue or before its hint ends, and loses its Larders in DEEP. -/
def Obligations.PowerAndHeatGovern : Prop :=
  ∀ (s : State), s.canonical → s.clk.freqs.length = 4 → s.clk.throttled.length = 11 → s.clk.alarmed.length = 11 →
    s.clk.wakeAt.length = 4 → s.cores.length = 16 →
    let freqRegs := [R.CLK_FREQ 0, R.CLK_FREQ 1, R.CLK_FREQ 2, R.CLK_FREQ 3]
    let all800 : List Nat := [800, 800, 800, 800]
    let ready := s.flag R.GLB_STATUS.READY
    let lost := s.flag R.CLK_STATUS.SRC_LOST
    let fmin (q : Nat) : Nat := s.get (R.PWR_QUAD_CFG.FMIN q) * 100
    let fmax (q : Nat) : Nat := s.get (R.PWR_QUAD_CFG.FMAX q) * 100
    let f (q : Nat) : Nat := nth s.clk.freqs q 0
    (ready = false → ∀ est mean pred, exec (.governorTick est mean pred) s = .next s) ∧
    (ready = true → ∀ est mean pred : BitVec 32, ∃ t, exec (.governorTick est mean pred) s = .next t ∧ s.changesOnly [.regs, .clk] t ∧
      s.keepsRegs ([R.PWR_POWER, R.PWR_ENERGY_LO, R.PWR_ENERGY_HI, R.PWR_STATUS] ++ freqRegs) t ∧
      t.get R.PWR_POWER.MW = mean.toNat ∧ t.clk.energy = s.clk.energy + mean.toNat ∧
      t.get64 R.PWR_ENERGY_LO.N R.PWR_ENERGY_HI.N = (s.clk.energy + mean.toNat) / 10000 % 2 ^ 64 ∧
      let cap := s.get R.PWR_CAP.CAP_W * 1000
      let forced : Bool := s.flag R.PWR_STATUS.GOV_FORCED || s.clk.alert || s.clk.alarmed.any id
      let hot (q : Nat) : Bool := (List.range 11).any (fun k => nth s.clk.throttled k false && (throttleQuads k).contains q)
      let cool : Bool := !((List.range 4).any hot)
      let gov := s.flag R.PWR_CFG.GOV_EN
      let at_ (q : Nat) : Nat := nth t.clk.freqs q 0
      (forced = true → t.clk.freqs = all800) ∧
      (forced = false → lost = true → t.clk.freqs = s.clk.freqs) ∧
      (forced = false → lost = false → cool = false → ∀ q, q < 4 → at_ q = if hot q = true ∧ fmin q < f q then f q - 100 else f q) ∧
      (forced = false → lost = false → cool = true → gov = false → ∀ q, q < 4 → at_ q = fmax q) ∧
      (forced = false → cool = true → gov = true → cap < est.toNat →
        (∀ q, q < 4 → (if lost then 800 else f q) ≤ fmin q) → t.clk.freqs = s.clk.freqs ∧ t.flag R.PWR_STATUS.CAP_UNMET = true) ∧
      (forced = false → lost = false → cool = true → gov = true →
        (cap < est.toNat →
          ((∃ q, q < 4 ∧ fmin q < f q) → ∃ q, q < 4 ∧ fmin q < f q ∧ at_ q = f q - 100 ∧ (∀ r, r ≠ q → at_ r = f r) ∧
            ∀ r, r < 4 → fmin r < f r → r ≠ q →
              (s.rtQuad q = false ∧ s.rtQuad r = true) ∨ (s.rtQuad q = s.rtQuad r ∧ (f r < f q ∨ (f r = f q ∧ q < r))))) ∧
        (est.toNat ≤ cap → est.toNat + pred.toNat < cap →
          ((∀ q, q < 4 → fmax q ≤ f q) → t.clk.freqs = s.clk.freqs) ∧
          ((∃ q, q < 4 ∧ f q < fmax q) → ∃ q, q < 4 ∧ f q < fmax q ∧ at_ q = f q + 100 ∧ (∀ r, r ≠ q → at_ r = f r) ∧
            ∀ r, r < 4 → f r < fmax r → r ≠ q →
              (s.rtQuad q = true ∧ s.rtQuad r = false) ∨ (s.rtQuad q = s.rtQuad r ∧ (f q < f r ∨ (f r = f q ∧ q < r))))) ∧
        (est.toNat ≤ cap → cap ≤ est.toNat + pred.toNat → t.clk.freqs = s.clk.freqs))) ∧
    (s.boot.power = false → ∀ status latched temps, exec (.vrAlert status latched) s = .next s ∧
      exec (.thermalSample temps) s = .next s) ∧
    (s.boot.power = true → ready = false → ∀ status latched, exec (.vrAlert status latched) s =
      .next { s with clk := { s.clk with alert := true } }) ∧
    (s.boot.power = true → ready = true → ∀ status latched, s.completes (.vrAlert status latched) [.regs, .link, .loft, .clk]
      ([R.PWR_STATUS, R.PWR_CNT_ALERT] ++ freqRegs ++ lineStopOffsets) (fun t => t.clk = { s.clk with alert := true, freqs := all800 } ∧
        t.flag R.PWR_STATUS.VR_ALERT = true ∧ t.flag R.PWR_STATUS.GOV_FORCED = true ∧ s.counts R.PWR_CNT_ALERT.N 1 t ∧
        (latched = true → t.flag R.PWR_STATUS.VR_FAULT = true ∧ bit (t.get R.FLD_LS_CAUSE.CAUSE) 10 = true) ∧
        (latched = false → t.flag R.PWR_STATUS.VR_FAULT = s.flag R.PWR_STATUS.VR_FAULT ∧ t.link = s.link))) ∧
    s.completes .vrAlertDeassert [.regs, .clk] [R.PWR_STATUS] (fun t => t.clk = { s.clk with alert := false } ∧
      t.flag R.PWR_STATUS.GOV_FORCED = false ∧ t.flag R.PWR_STATUS.VR_ALERT = s.flag R.PWR_STATUS.VR_ALERT) ∧
    (s.boot.power = true → ∀ temps : List (BitVec 8), temps.length = 11 → ∃ t, exec (.thermalSample temps) s = .next t ∧
      s.changesOnly [.regs, .link, .loft, .clk] t ∧
      (∀ k v, temps[k]? = some v →
        let limit (was : Bool) (l : Int) : Bool := if was then decide (l - 2 < v.toInt) else decide (l < v.toInt)
        t.get (R.PWR_TEMP.TEMP k) = v.toNat ∧
        signed 8 (t.get (R.PWR_TEMP.PEAK k)) = max (signed 8 (s.get (R.PWR_TEMP.PEAK k))) v.toInt ∧
        nth t.clk.throttled k false = (if k = 10 then false else limit (nth s.clk.throttled k false)
          (if k = 6 ∨ k = 7 then 85 else if k = 9 then 110 else 95)) ∧
        nth t.clk.alarmed k false = limit (nth s.clk.alarmed k false)
          (if k = 6 ∨ k = 7 then 95 else if k = 9 then 120 else if k = 10 then 60 else 105)) ∧
      t.flag R.PWR_STATUS.THROTTLE = t.clk.throttled.any id ∧
      (t.clk.alarmed.any id = true → t.flag R.PWR_STATUS.ALARM = true ∧
        t.clk.freqs = (if ready then all800 else s.clk.freqs) ∧
        bit (t.get R.FLD_LS_CAUSE.CAUSE) 10 = true) ∧
      (t.clk.alarmed.any id = false → t.clk.freqs = s.clk.freqs ∧ t.link = s.link)) ∧
    (∀ quad : Fin 4,
      let q := quad.val
      let st := s.quadState q
      let cores := [4 * q, 4 * q + 1, 4 * q + 2, 4 * q + 3]
      let goes (i : Instr) (v : Nat) : Prop := s.completes i [.regs] [R.PWR_STATUS] (fun t => t.quadState q = v ∧
        ∀ r, r < 4 → r ≠ q → t.quadState r = s.quadState r)
      let mayHint : Prop := s.flag R.PWR_CFG.HINTS_EN = true ∧ ∃ t, s.hintEnd q = some t ∧ s.dtime + 2000 < t
      let sleeps : Prop := ready = true ∧ st = 0 ∧ s.flag (R.PWR_QUAD_CFG.SLEEP_EN q) = true ∧ (∀ n ∈ cores, s.coreIdle n = true) ∧
        (s.rtQuad q = true → mayHint)
      let wakes : Prop := st = 1 ∧ (s.rtQuad q = true → ∀ t, s.hintEnd q = some t → t ≤ s.dtime + 2000) ∧
        (s.rtQuad q = false → ∃ n ∈ cores, s.issuable n = true)
      let deep : Prop := ready = true ∧ st ≠ 2 ∧ s.flag (R.PWR_QUAD_CFG.DEEP_EN q) = true ∧
        ∀ n ∈ cores, ∀ p, p < 8 → ¬ (s.flag (R.STG_PTN_CFG.ENABLE p) = true ∧ bit (s.get (R.STG_PTN_CORES.CORES p)) n = true)
      (¬ sleeps → exec (.quadSleep quad) s = .next s) ∧ (sleeps → goes (.quadSleep quad) 1) ∧
      (¬ wakes → exec (.quadWake quad) s = .next s) ∧
      (wakes → s.completes (.quadWake quad) [.regs, .clk] [R.PWR_STATUS] (fun t => t.quadState q = 0 ∧
        (∀ r, r < 4 → r ≠ q → t.quadState r = s.quadState r) ∧
        t.clk = { s.clk with wakeAt := setNth s.clk.wakeAt q (s.dtime + 2000) } ∧
        ∀ n ∈ cores, t.quadRuns n = false)) ∧
      (¬ deep → exec (.quadDeepEnter quad) s = .next s) ∧
      (deep → s.completes (.quadDeepEnter quad) [.regs, .larder, .cores] [R.PWR_STATUS] (fun t => t.quadState q = 2 ∧
        (∀ n ∈ cores, (t.core n).vacc = [] ∧ ∀ a, a < 2097152 → t.larderRead n a 1 = [0]) ∧
        ∀ n, n < 16 → n ∉ cores → t.core n = s.core n ∧ ∀ a, a < 2097152 → t.larderRead n a 1 = s.larderRead n a 1)))

/-! ### Network time and the Loft -/

/-- NTIME_EXTEND keeps 64 bits over the wraps of NTM_NS; a snapshot latches NTM_NS and DTIME together and is extended later.
Messages count only on the configured port, transport and domain from the chosen master, that of two Announces within four
intervals which is the best: Sync and Follow_Up give t1 and t2, the Delay_Resp
with its transmit stamp completes the exchange, which sets offset and delay and steps, beyond 1 ms or before the first, or else
steers the rate within 500,000. A full stamp queue or an entry older than 1 s is counted. No Sync for ANN_TMO intervals is
HOLDOVER. An output fires at its target, its pin at the level of POL while the pulse runs, or misses it where NTIME is not VALID. LOFT_UPDATE takes the lowest-ranked queued item
of the first's tick into its accumulator or the event ring; clears act on one or on all (message rules: log entry 33). -/
def Obligations.NetworkTimeAndLoft : Prop :=
  ∀ (s : State), s.canonical → s.ntm.tpo.length = 4 →
    let n := s.ntm
    let ext : NtmSt := { n with hi := if n.ns < n.lastLo then (n.hi + 1) % 2 ^ 32 else n.hi, lastLo := n.ns }
    let now := ext.hi * 2 ^ 32 + ext.lastLo
    let same (i : Instr) : Prop := exec i s = .next s
    exec .ntimeExtend s = .next { s with ntm := ext } ∧
    (s.serves → s.completes .ntmSnapTake [.regs, .ntm] [R.NTM_SNAP_DT_LO, R.NTM_SNAP_DT_HI, R.NTM_STATUS] (fun t =>
      t.ntm = { n with snap := some (n.ns, s.dtime) } ∧ t.flag R.NTM_STATUS.SNAP_DONE = false ∧
      t.get64 R.NTM_SNAP_DT_LO.N R.NTM_SNAP_DT_HI.N = s.dtime % 2 ^ 64)) ∧
    (n.snap = none → same .ntmSnapExtend) ∧
    (∀ ns d, n.snap = some (ns, d) → s.completes .ntmSnapExtend [.regs, .ntm] [R.NTM_SNAP_NT_LO, R.NTM_SNAP_NT_HI, R.NTM_STATUS] (fun t =>
      t.ntm = { ext with snap := none } ∧ t.flag R.NTM_STATUS.SNAP_DONE = true ∧
      (ns < 2 ^ 32 → n.ns < 2 ^ 32 → now < 2 ^ 64 → ns ≤ n.ns → n.ns < ns + 2 ^ 31 →
        t.get64 R.NTM_SNAP_NT_LO.N R.NTM_SNAP_NT_HI.N = now - (n.ns - ns)))) ∧
    (∀ (port : Fin 2) (ipv6 : Bool) (domain : BitVec 8) (source : BitVec 80) (seq : BitVec 16),
      let hears : Prop := s.flag R.NTM_PTP_CFG.ENABLE = true ∧ s.get R.NTM_PTP_CFG.PORT = port.val ∧
        s.flag R.NTM_PTP_CFG.IPV6 = ipv6 ∧ s.get R.NTM_PTP_CFG.DOMAIN = domain.toNat
      let mine : Prop := hears ∧ n.master = some source
      (∀ (two : Bool) (origin corr : BitVec 64) (log : BitVec 8),
        let i := Instr.ptpSync ⟨port, ipv6⟩ domain source seq two origin corr log
        (¬ mine → same i) ∧
        (mine → s.completes i [.regs, .ntm] [R.NTM_CNT_SYNC_RX] (fun t => s.counts R.NTM_CNT_SYNC_RX.N 1 t ∧
          t.ntm.t2 = some (now : Int) ∧ t.ntm.t1 = (if two then none else some ((origin.toNat : Int) + Int.tdiv corr.toInt 65536)) ∧
          t.ntm.syncSeq = seq.toNat ∧ t.ntm.twoStep = two ∧ t.ntm.lastSync = s.dtime ∧ t.ntm.master = n.master))) ∧
      (∀ origin corr : BitVec 64,
        let i := Instr.ptpFollowUp ⟨port, ipv6⟩ domain source seq origin corr
        let fits : Prop := mine ∧ n.twoStep = true ∧ n.syncSeq = seq.toNat ∧ n.t2 ≠ none
        (¬ fits → same i) ∧ (fits → exec i s = .next { s with ntm := { n with
          t1 := some ((origin.toNat : Int) + n.syncCorr + Int.tdiv corr.toInt 65536) } })) ∧
      (∀ receipt corr : BitVec 64,
        let i := Instr.ptpDelayResp ⟨port, ipv6⟩ domain source seq receipt corr
        let stamp (e : TxStamp) : Prop := n.txq.find? (fun e => e.msgType == 1 && e.port == port.val && e.seqId == seq.toNat) = some e
        (¬ mine ∨ (∀ e, ¬ stamp e) → same i) ∧
        (∀ e, mine → stamp e → n.t1 = none ∨ n.t2 = none → exec i s = .next { s with ntm := { n with txq := n.txq.erase e } }) ∧
        (∀ e t1 t2, mine → stamp e → n.t1 = some t1 → n.t2 = some t2 → n.interval ≠ 0 →
          let t3 : Int := ext.ext e.ns
          let t4 : Int := (receipt.toNat : Int) - Int.tdiv corr.toInt 65536
          let delay := Int.tdiv ((t2 - t1) + (t4 - t3)) 2
          let o := (t2 - t1) - delay
          let stepped : Prop := (s.get R.NTM_STATUS.STATE ≠ 9 ∧ s.get R.NTM_STATUS.STATE ≠ 8) ∨ 1000000 < o.natAbs
          let op := Int.tdiv (o * 1000000000) n.interval
          let integ := clampInt (n.integ + Int.tdiv op 8) (-500000) 500000
          ∃ t, exec i s = .next t ∧ s.changesOnly [.regs, .loft, .ntm] t ∧ t.ntm.txq = n.txq.erase e ∧ t.ntm.t1 = none ∧
            t.ntm.t2 = none ∧ t.getInt R.NTM_OFFSET.N = clampInt o (-2147483648) 2147483647 ∧
            t.flag R.NTM_STATUS.HOLDOVER = false ∧ t.ntm.goodRun = (if o.natAbs < 10000 then n.goodRun + 1 else 0) ∧
            (8 ≤ t.ntm.goodRun → t.get R.NTM_STATUS.STATE = 9) ∧
            (stepped → t.ntm.ns = (((now : Int) - o) % 2 ^ 64).toNat % 2 ^ 32 ∧ t.ntm.integ = 0 ∧
              t.flag R.NTM_STATUS.VALID = true ∧ s.counts R.NTM_CNT_STEP.N 1 t) ∧
            (¬ stepped → t.ntm.ns = n.ns ∧ t.ntm.integ = integ ∧
              t.getInt R.NTM_RATE.N = clampInt (-(Int.tdiv op 2) - integ) (-500000) 500000))) ∧
      (∀ (p1 cls acc : BitVec 8) (var : BitVec 16) (p2 : BitVec 8) (gm : BitVec 64) (steps : BitVec 16) (utc : Option (BitVec 16))
          (log : BitVec 8),
        let i := Instr.ptpAnnounce ⟨port, ipv6⟩ domain source p1 cls acc var p2 gm steps utc log
        let iv := logNs log
        let entry (before : Option Nat) : Foreign := ⟨source, [p1.toNat, cls.toNat, acc.toNat, var.toNat, p2.toNat, gm.toNat], gm,
          steps.toNat, utc, iv, s.dtime, before⟩
        let counts : Prop := hears ∧ steps.toNat < 255
        (¬ counts → same i) ∧
        (counts → n.foreign = [] → exec i s = .next { s with ntm := { n with foreign := [entry none] } }) ∧
        (counts → ∀ f, n.foreign = [f] → f.clock = source → s.dtime ≤ f.heard + 4 * iv →
          s.completes i [.regs, .ntm] [R.NTM_GM_LO, R.NTM_GM_HI, R.NTM_UTC, R.NTM_STATUS] (fun t =>
            t.ntm.foreign = [entry (some f.heard)] ∧
            t.ntm.master = some source ∧ t.get64 R.NTM_GM_LO.N R.NTM_GM_HI.N = gm.toNat ∧
            (∀ u, utc = some u → t.get R.NTM_UTC.OFFSET = u.toNat ∧ t.flag R.NTM_STATUS.UTC_VALID = true) ∧
            (n.master ≠ some source → t.ntm.t1 = none ∧ t.ntm.t2 = none))) ∧
        (counts → ∃ t,
          let fs := n.foreign.filter (fun g => g.clock != source) ++
            [entry ((n.foreign.find? (fun g => g.clock == source)).map (·.heard))]
          let kept := fs.filter (fun g => decide (s.dtime ≤ g.heard + s.get R.NTM_PTP_CFG.ANN_TMO * g.interval))
          let twice (g : Foreign) : Prop := ∃ h, g.before = some h ∧ s.dtime ≤ h + 4 * g.interval
          exec i s = .next t ∧ t.ntm.foreign = kept ∧ ∀ b ∈ kept, twice b →
            (∀ g ∈ kept, twice g → g ≠ b → b.better g = true ∧ g.better b = false) → t.ntm.master = some b.clock) ∧
        (∀ f g : Foreign, (f.gm = g.gm → f.better g = true → f.steps ≤ g.steps) ∧
          (f.gm ≠ g.gm → f.better g = betterSet f.key g.key))) ∧
      (∀ kind : BitVec 4,
        let i := Instr.ptpTxComplete port kind seq
        (n.txq.length < 16 → exec i s = .next { s with ntm := { n with
          txq := n.txq ++ [⟨port.val, kind.toNat, seq.toNat, n.ns, s.dtime⟩] } }) ∧
        (16 ≤ n.txq.length → s.completes i [.regs, .ntm] [R.NTM_STATUS, R.NTM_CNT_TXQ_OVF] (fun t =>
          t.flag R.NTM_STATUS.TXQ_OVF = true ∧ s.counts R.NTM_CNT_TXQ_OVF.N 1 t ∧ t.ntm.txq = n.txq ∧ t.ntm.t1 = none ∧ t.ntm.t2 = none)))) ∧
    ((∀ e ∈ n.txq, s.dtime ≤ e.at_ + 1000000000) → same .txqStale) ∧
    (∀ e, n.txq.find? (fun e => decide (e.at_ + 1000000000 < s.dtime)) = some e → s.completes .txqStale [.regs, .ntm] [R.NTM_CNT_TXQ_STALE]
      (fun t => t.ntm = { n with txq := n.txq.erase e } ∧ s.counts R.NTM_CNT_TXQ_STALE.N 1 t)) ∧
    (let due : Prop := s.flag R.NTM_PTP_CFG.ENABLE = true ∧ n.lastSync + s.get R.NTM_PTP_CFG.ANN_TMO * s.announceNs ≤ s.dtime;
      (¬ due → same .announceTimeout) ∧ (due → s.completes .announceTimeout [.regs] [R.NTM_STATUS] (fun t =>
        t.get R.NTM_STATUS.STATE = 4 ∧ t.flag R.NTM_STATUS.HOLDOVER = true ∧ t.flag R.NTM_STATUS.VALID = s.flag R.NTM_STATUS.VALID))) ∧
    (∀ k : Fin 4,
      let x := s.tpo k.val
      let base := if s.flag (R.NTM_TPO_CFG.BASE k.val) then s.dtime else now
      let due : Prop := s.flag (R.NTM_TPO_CFG.ENABLE k.val) = true ∧ x.armed = true ∧ x.target ≤ base
      let dead : Prop := s.flag (R.NTM_TPO_CFG.BASE k.val) = false ∧ s.flag R.NTM_STATUS.VALID = false
      let again := s.flag (R.NTM_TPO_CFG.MODE k.val)
      (¬ due → same (.tpoFire k)) ∧
      (due → s.completes (.tpoFire k) [.regs, .ntm] [R.NTM_TPO_STATUS k.val, R.NTM_TPO_PULSES k.val] (fun t =>
        (t.tpo k.val).armed = again ∧ t.flag (R.NTM_TPO_STATUS.ARMED k.val) = again ∧
        (t.tpo k.val).target = x.target + (if again then s.get (R.NTM_TPO_PERIOD.N k.val) else 0) ∧
        (dead → s.counts (R.NTM_TPO_STATUS.MISSED k.val) 1 t ∧ t.flag (R.NTM_TPO_STATUS.MISS_SEEN k.val) = true ∧
          (t.tpo k.val).active = x.active) ∧
        (¬ dead → (t.tpo k.val).active = true ∧ (t.tpo k.val).riseAt = s.dtime ∧
          (t.tpo k.val).pulseWidth = s.get (R.NTM_TPO_WIDTH.N k.val) ∧ t.tpoLevel k.val = s.flag (R.NTM_TPO_CFG.POL k.val) ∧
          t.get (R.NTM_TPO_PULSES.N k.val) = (s.get (R.NTM_TPO_PULSES.N k.val) + 1) % 2 ^ 32) ∧
        ∀ j, j ≠ k.val → t.tpo j = s.tpo j)) ∧
      (let ends : Prop := x.active = true ∧ x.riseAt + x.pulseWidth ≤ s.dtime;
        (¬ ends → same (.tpoPulseEnd k)) ∧ (ends → s.completes (.tpoPulseEnd k) [.regs, .ntm] [R.NTM_TPO_STATUS k.val] (fun t =>
          t.tpo k.val = { x with active := false } ∧ t.tpoLevel k.val = !s.flag (R.NTM_TPO_CFG.POL k.val) ∧ ∀ j, j ≠ k.val → t.tpo j = s.tpo j)))) ∧
    -- The Loft.
    (s.loft.queue = [] → same .loftUpdate) ∧
    (∀ k item, s.loft.queue[k]? = some item → (∀ (j : Nat) (x : LoftItem), j ≤ k → s.loft.queue[j]? = some x → x.tick = item.tick ∧ (j < k → item.rank < x.rank)) →
      (∀ (j : Nat) (x : LoftItem), s.loft.queue[j]? = some x → x.tick = item.tick → item.rank ≤ x.rank) →
      s.completes .loftUpdate [.loft] [] (fun t => t.loft.queue = s.loft.queue.eraseIdx k ∧
        (∀ c p d tm w, item = .event c p d tm w → t.loft.accs = s.loft.accs ∧ t.loft.head = (s.loft.head + 1) % 2 ^ 32 ∧
          keyGet t.loft.events (128 + s.loft.head % 896) = some ⟨c, s.loft.head, tm, w, p, s.loft.dropped, sliceBytes d 0 216⟩) ∧
        (∀ r v p tm w, item = .value r v p tm w → t.loft.events = s.loft.events ∧
          (∀ r', r' ≠ r → t.acc r' = s.acc r') ∧
          let a := s.acc r
          let b := t.acc r
          (accType r = 0 → b = a) ∧
          (accType r ≠ 0 → b.seq = (a.seq + 1) % 2 ^ 32 ∧ b.dtime = tm ∧ b.wpos = w ∧ b.count = min (2 ^ 64 - 1) (a.count + 1) ∧
            b.sum = clampInt (a.sum + v) (-(2 ^ 63)) (2 ^ 63 - 1)) ∧
          (accType r = 1 → 0 < (s.bins r).2 →
            let bin := (v - (s.bins r).1) / ((s.bins r).2 : Int)
            (v < (s.bins r).1 → b.underBin = min (2 ^ 32 - 1) (a.underBin + 1) ∧ b.bins = a.bins ∧ b.overBin = a.overBin) ∧
            ((s.bins r).1 ≤ v → v - (s.bins r).1 < 2 ^ 64 → 48 ≤ bin → b.overBin = min (2 ^ 32 - 1) (a.overBin + 1) ∧ b.bins = a.bins) ∧
            ((s.bins r).1 ≤ v → bin < 48 → a.bins.length = 48 → ∀ j, nth b.bins j 0 =
              if (j : Int) = bin then min (2 ^ 32 - 1) (nth a.bins j 0 + 1) else nth a.bins j 0)) ∧
          (accType r = 2 → (a.count = 0 → b.min = v ∧ b.max = v) ∧ (a.count ≠ 0 → b.min = min a.min v ∧ b.max = max a.max v))))) ∧
    (∀ r : BitVec 10, s.serves → s.completes (.loftClearOne r) [.loft] [] (fun t => (∀ k, k ≠ r.toNat → t.acc k = s.acc k) ∧
        (accType r.toNat ≠ 0 → t.acc r.toNat = { dtime := (s.acc r.toNat).dtime, wpos := (s.acc r.toNat).wpos })) ∧
      s.completes (.loftCurWrite r) [.regs] [R.LOFT_CUR] (fun t => t.get R.LOFT_CUR.RECORD = r.toNat)) ∧
    (s.serves → s.completes .loftClearAll [.loft] [] (fun t => ∀ k, k < 128 → accType k ≠ 0 →
      t.acc k = { dtime := (s.acc k).dtime, wpos := (s.acc k).wpos }) ∧
      s.completes .loftClearDrop [.regs] [R.LOFT_CNT_DROP] (fun t => t.get R.LOFT_CNT_DROP.N = 0))

/-! ### The Gatis fabric -/

/-- A port in HELLO sends one every 100 us, as a packet whose DST and LSEQ are free (log entry 31). A peer's HELLO, on a port that has sent its own, is
refused with the first reason that holds, and the port is ISOLATED; else the port is UP with the peer's ID, port and units,
and the first formation names the time master. On a port in UP: ACK_SEND acknowledges the last LSEQ accepted; an ACK removes
the packets up to its LSEQ from the replay buffer, and what waited may leave; a NAK counts and sends again from the packet
named, and the fourth of one LSEQ takes the link down and counts; CRED adds its units; a packet with a bad CRC or another
LSEQ is answered by one NAK. Otherwise each changes nothing. An IDLE set stands in every 1,024 sets. A packet that leaves is
ready, and none of VC 1, then of VC 0, is passed over. LINKSTATE replaces a module's links, and leader and quorum follow. A
member away for LOSS_US is lost; a lost time master is followed by the lowest ID with SYNCED 1; the leader promotes the shards
whose primary is lost or doubtful, here or by its report, and those whose replica is lost. -/
def Obligations.LinksComeUpAndKeepOrder : Prop :=
  ∀ (s : State), s.canonical → s.gts.ports.length = 8 →
    let me := s.get R.GTS_CFG.ID
    let members := s.get64 R.GTS_MEMBERS_LO.N R.GTS_MEMBERS_HI.N
    (∀ port : Fin 8,
      let p := port.val
      let x := s.gport p
      let st := s.get (R.GTS_G_STATUS.STATE p)
      let same (i : Instr) : Prop := exec i s = .next s
      let becomes (i : Instr) (y : PortSt) : Prop := s.completes i [.gts] [] (fun t => t.gport p = y ∧
        (∀ j, j ≠ p → t.gport j = s.gport j) ∧ t.gts = { s.gts with ports := t.gts.ports })
      (let due : Prop := st = 2 ∧ ∀ t, x.helloAt = some t → t + 100000 ≤ s.dtime;
        (¬ due → same (.helloSend port)) ∧
        (due → let bytes := leBytes 1 me ++ leBytes 1 p ++ leBytes 8 s.module.serial ++ leBytes 8 members ++
            (List.range 8).flatMap (fun k => leBytes 2 (s.get (R.GTS_PTN_CRED.LOOKUP k)) ++ leBytes 2 (s.get (R.GTS_PTN_CRED.BULK k)));
          let k : GPacket := { type := 1, vc := 0, dst := (Config.helloDst p).toNat % 64, bcast := bit (Config.helloDst p).toNat 7, src := me, payload := bytes };
          becomes (.helloSend port) { x.emit (k.sets (Config.helloLseq p).toNat) with helloAt := some s.dtime, hello := bytes })) ∧
      (∀ (id : Fin 64) (peerPort : Fin 8) (serial theirs : BitVec 64) (units : List (BitVec 9 × BitVec 11)) (founder : Option (Fin 64)),
        let i := Instr.hello port id peerPort serial theirs units founder
        let dup : Prop := id.val = me ∧ serial.toNat ≠ s.module.serial
        let in_ : Prop := bit members id.val = true
        let agree : Prop := theirs.toNat = members
        let refused (why : Nat) : Prop := s.completes i [.regs] [R.GTS_G_STATUS p] (fun t =>
          t.get (R.GTS_G_STATUS.STATE p) = 4 ∧ t.get (R.GTS_G_STATUS.REASON p) = why)
        let hears : Prop := st = 2 ∧ x.helloAt ≠ none
        (¬ hears → same i) ∧
        (hears → dup → refused 1) ∧
        (hears → ¬ dup → ¬ in_ → refused 2) ∧
        (hears → ¬ dup → in_ → ¬ agree → refused 3) ∧
        (hears → ¬ dup → in_ → agree → id.val = me → refused 4) ∧
        (hears → in_ → agree → id.val ≠ me → ∃ t, exec i s = .next t ∧ s.changesOnly [.regs, .gts, .clk] t ∧
          t.get (R.GTS_G_STATUS.STATE p) = 3 ∧ t.get (R.GTS_G_STATUS.REASON p) = 0 ∧ t.get (R.GTS_G_STATUS.PEER_ID p) = id.val ∧
          t.get (R.GTS_G_STATUS.PEER_PORT p) = peerPort.val ∧
          (∀ k, k < 8 → keyGet (t.gport p).quota (16 + k) = some (units.getD k (0, 0)).1.toNat ∧
            keyGet (t.gport p).quota (24 + k) = some (units.getD k (0, 0)).2.toNat) ∧
          t.gts.formed = true ∧
          (s.gts.formed = true → t.get R.GTS_STATUS.TIME_MASTER = s.get R.GTS_STATUS.TIME_MASTER) ∧
          (s.gts.formed = false → t.get R.GTS_STATUS.TIME_MASTER = (match founder with | some f => f.val | none => min me id.val)) ∧
          t.get R.GTS_STATUS.LEADER = t.leader ∧ t.flag R.GTS_STATUS.QUORUM = t.hasQuorum)) ∧
      (st ≠ 3 → same (.ackSend port)) ∧
      (st = 3 → let d := (x.rxSeq + 4095) % 4096;
        becomes (.ackSend port) { x.emit [ctlSet 1 d] with ackAt := s.dtime, ctl := x.ctl ++ [(1, d)] }) ∧
      (∀ lseq : BitVec 12,
        (st ≠ 3 ∨ (∀ e ∈ x.replay, e.1 ≠ lseq.toNat) → same (.ackSet port lseq)) ∧
        (∀ old k rest, st = 3 → x.replay = old ++ (lseq.toNat, k) :: rest → (∀ e ∈ old, e.1 ≠ lseq.toNat) →
          let y : PortSt := { x with replay := rest, naks := if ∃ e ∈ old ++ [(lseq.toNat, k)], e.1 = x.naks.1 then (0, 0) else x.naks }
          exec (.ackSet port lseq) s = .next ((s.setGport p y).pumpPort p) ∧
          (x.out = [] → x.owed = [] → becomes (.ackSet port lseq) y)) ∧
        (let n := if x.naks.1 = lseq.toNat then x.naks.2 + 1 else 1;
          (st ≠ 3 → same (.nak port lseq)) ∧
          (st = 3 → n < 4 → s.completes (.nak port lseq) [.regs, .gts] [R.GTS_G_NAK p] (fun t => s.counts (R.GTS_G_NAK.N p) 1 t ∧
            t.gport p = (x.replay.dropWhile (fun e => e.1 != lseq.toNat)).foldl (fun (y : PortSt) e => y.emit (e.2.sets e.1))
              { x with naks := (lseq.toNat, n) } ∧ ∀ j, j ≠ p → t.gport j = s.gport j)) ∧
          (st = 3 → 4 ≤ n → ∃ t, exec (.nak port lseq) s = .next t ∧ s.changesOnly [.regs, .loft, .gts, .clk] t ∧
            s.counts (R.GTS_G_NAK.N p) 1 t ∧ s.counts (R.GTS_G_REPLAY_FAIL.N p) 1 t ∧ s.counts (R.GTS_G_DOWN.N p) 1 t ∧
            t.get (R.GTS_G_STATUS.STATE p) = 1 ∧ t.gport p = {}))) ∧
      (∀ (vc : Fin 4) (part : Fin 8) (units : BitVec 11),
        let i := Instr.cred port vc part units
        (st ≠ 3 → same i) ∧
        (st = 3 → x.out = [] → x.owed = [] → ∃ y, becomes i y ∧ y = { x with creds := y.creds } ∧
          y.units vc.val part.val = x.units vc.val part.val + units.toNat ∧
          ∀ v q, q < 8 → (v ≠ vc.val ∨ (2 ≤ v ∧ q ≠ part.val)) → v < 4 → y.units v q = x.units v q)) ∧
      (∀ bytes : List Byte,
        let n := 16 + leVal ((bytes.drop 4).take 2)
        -- A CRC-32 that does not match header and payload, or another LSEQ than the one expected.
        let bad : Prop := bytes.length < n + 4 ∨ leVal ((bytes.drop n).take 4) ≠ crc32 (bytes.take n) ∨ leVal ((bytes.drop 6).take 2) % 4096 ≠ x.rxSeq
        (st ≠ 3 ∨ ¬ bad ∨ x.nakSent = some x.rxSeq → same (.packetError ⟨port, bytes⟩)) ∧
        (st = 3 → bad → x.nakSent ≠ some x.rxSeq →
          becomes (.packetError ⟨port, bytes⟩) { x.emit [ctlSet 2 x.rxSeq] with nakSent := some x.rxSeq, ctl := x.ctl ++ [(2, x.rxSeq)] }))) ∧
    -- Sets go out whole and in order, with an IDLE set wherever 1,024 sets would else hold none.
    (∀ (y : PortSt) (ss : List (List (Bool × Byte))), ss.length < 1024 → y.sinceIdle < 1024 →
      let z := y.emit ss
      z = { y with line := z.line, sinceIdle := z.sinceIdle } ∧ z.sinceIdle < 1024 ∧
      (y.sinceIdle + ss.length < 1024 → z.line = y.line ++ ss ∧ z.sinceIdle = y.sinceIdle + ss.length) ∧
      (1024 ≤ y.sinceIdle + ss.length → z.line = y.line ++ List.replicate 4 (true, 0xBC) :: ss ∧ z.sinceIdle = ss.length)) ∧
    (∀ (y : PortSt) (i : Nat) (k : GPacket), y.pick = some i → y.out[i]? = some k → y.ready i = true ∧
      (∀ (j : Nat) (k' : GPacket), y.ready j = true → y.out[j]? = some k' → k.vc < 4 → k'.vc < 4 →
        (k'.vc = 1 → k.vc = 1) ∧ (k'.vc = 0 → k.vc < 2) ∧ (k'.vc = 3 → y.bulkNext = true → k.vc ≠ 2) ∧
        (k'.vc = 2 → y.bulkNext = false → k.vc ≠ 3))) ∧
    (∀ (h : Packet) (links : List (Fin 8 × Fin 64 × Fin 8)),
      let i := Instr.linkstate h links
      let m := h.src.val
      let new := links.map (fun l => (l.1.val, l.2.1.val, l.2.2.val))
      let a := s.taken h 0 (3 * links.length)
      (s.inOrder h → m = me ∨ keyGet s.gts.links m = some new → exec i s = .next a) ∧
      (s.inOrder h → m ≠ me → keyGet s.gts.links m ≠ some new → ∃ t, exec i s = .next t ∧ s.changesOnly [.regs, .gts, .clk] t ∧
        t.linksOf m = new ∧ (∀ k, k ≠ m → t.linksOf k = s.linksOf k) ∧
        t.get R.GTS_STATUS.LEADER = t.leader ∧ t.flag R.GTS_STATUS.QUORUM = t.hasQuorum)) ∧
    (∀ (m : Fin 64) (synced : BitVec 64),
      let i := Instr.memberLost m synced
      let due : Prop := s.flag R.GTS_CFG.ENABLE = true ∧ m.val ∉ s.gts.lost ∧
        ∃ t, keyGet s.gts.away m.val = some t ∧ t + s.get R.GTS_CFG.LOSS_US * 1000 ≤ s.dtime
      let good (k : Nat) : Prop := k ∈ s.component ∧ (if k = me then s.flag R.GTS_TIME_STATUS.SYNCED = true else bit synced.toNat k = true)
      (¬ due → exec i s = .next s) ∧
      (due → ∃ t, exec i s = .next t ∧ s.changesOnly [.regs, .mem, .free, .cel, .gts, .loft, .flock, .clk] t ∧
        (m.val ∉ s.component → m.val ∈ t.gts.lost) ∧
        (s.get R.GTS_STATUS.TIME_MASTER ≠ m.val → t.get R.GTS_STATUS.TIME_MASTER = s.get R.GTS_STATUS.TIME_MASTER) ∧
        (s.get R.GTS_STATUS.TIME_MASTER = m.val → ∀ k, k < 64 → good k → (∀ j, good j → k ≤ j) → t.get R.GTS_STATUS.TIME_MASTER = k) ∧
        (s.leader ≠ me ∨ s.hasQuorum = false → t.mem = s.mem ∧ t.cel = s.cel ∧ t.get R.GTS_MAP_EPOCH.N = s.get R.GTS_MAP_EPOCH.N) ∧
        (s.get R.GTS_STATUS.TIME_MASTER ≠ m.val →
          let u := { s with gts := { s.gts with lost := s.gts.lost ++ [m.val] } }
          -- The sets whose maps can be read, and the state after the reads.
          let ks := u.readMaps.1
          let v := u.readMaps.2
          let fabric (k : Nat) : Prop := k < 16 ∧ cfgEnabled (s.setCfg k) = true ∧ cfgFabric (s.setCfg k) = true
          t = u.promoteNow ∧ (∀ k ∈ ks, fabric k) ∧
          (s.cel.bad = [] → (∀ e ∈ s.cel.retired, e.unusable = false) →
            (∀ k, fabric k → s.reachable .firmware (cfgMap (s.setCfg k)) 1024 = true) → ∀ k, fabric k → k ∈ ks) ∧
          (s.leader = me → s.hasQuorum = true → v.promotions ks v.badPrimary ≠ [] →
            t.get R.GTS_MAP_EPOCH.N = (s.get R.GTS_MAP_EPOCH.N + 1) % 2 ^ 32) ∧
          ∀ k z w, (k, z, w) ∈ v.promotions ks v.badPrimary ↔ k ∈ ks ∧ z < 256 ∧
            let c := s.setCfg k
            let pr := s.shardPrimary c z
            let re := s.shardReplica c z
            let away (n : Nat) : Prop := n ∈ u.gts.lost
            let fails : Prop := away pr ∨ (pr = me ∧ s.doubted k c z = true) ∨ (k, z, pr) ∈ s.gts.reports
            pr ≠ re ∧ ((fails ∧ ¬ away re ∧ w = mapWord (s.shardSlot c z) re re) ∨
              (away re ∧ ¬ away pr ∧ w = mapWord (s.shardSlot c z) pr pr)))))

/-- A packet on a port that is not UP changes nothing; one out of order is answered by one NAK; one in order returns its units
or, for another module, goes on unchanged and returns them once it has left. Here: TSYNC_REQ is answered with t2 and t3; the matching TSYNC_RESP gives offset
and delay, drops SYNCED above 4 ns and sets it after 16 within 2 ns; DTIME steps only, and at once, where no job is committed and
four offsets agree within 10 ns. 10 ms without an exchange ends SYNCED. A position tuple is discarded while SYNCED is 0 or its SEQ is
old, else it is the base; a TAKEOVER tuple names the new master. PROMOTE takes epoch and map; with the epoch in
force and not from the leader it is a report of doubtful copies (log entry 31). SET_REQ is served, REPL written and acknowledged; replies end the
operation that waits for their tag. RGET reads only inside a window. HALO bytes go to buffer k mod BUFS inside a writable
window, the strip's last missing byte signals SO, and a refused packet or strip, or one that cannot be stored, counts in HX_DROP. -/
def Obligations.PacketsAreTakenForwardedOrServed : Prop :=
  ∀ (s : State), s.canonical → s.gts.ports.length = 8 →
    let me := s.get R.GTS_CFG.ID
    let master := s.get R.GTS_STATUS.TIME_MASTER
    let dropped (i : Instr) (h : Packet) : Prop :=
      let p := h.port.val
      let x := s.gport p
      (s.portState p ≠ 3 → exec i s = .next s) ∧
      (s.portState p = 3 → h.lseq.toNat ≠ x.rxSeq →
        (x.nakSent = some x.rxSeq → exec i s = .next s) ∧
        (x.nakSent ≠ some x.rxSeq → exec i s = .next (s.setGport p
          { x.emit [ctlSet 2 x.rxSeq] with nakSent := some x.rxSeq, ctl := x.ctl ++ [(2, x.rxSeq)] })))
    let onward (h : Packet) (type vc : Nat) (bs : List Byte) : State := (s.taken h vc bs.length true).sendTo
      { via := some h.port.val, type := type, vc := vc, part := h.part.val, dst := h.dst.val, src := h.src.val, tag := h.tag.toNat
        epoch := h.epoch.toNat, payload := bs } (s.cameDown h.port.val)
    (∀ i h type vc bs, packetRow i = some (h, type, vc, bs) → dropped i h ∧
      (s.inOrder h → h.dst.val ≠ me → exec i s = .next (onward h type vc bs))) ∧
    -- The units of a forwarded packet return when it leaves, by the port it came by.
    (∀ (h : Packet) (type vc : Nat) (bs : List Byte), ({ via := some h.port.val, type := type, vc := vc, part := h.part.val, payload := bs } : GPacket).credits =
      [(h.port.val, (20 + bs.length + 63) / 64 + (if vc < 2 then 0 else h.part.val * 2048) + vc * 16384)]) ∧
    (∀ h links, dropped (.linkstate h links) h) ∧
    -- PROMOTE and POS_TUPLE, which every module takes.
    (∀ (h : Packet) (epoch : BitVec 32) (changes : List (Fin 16 × Fin 256 × BitVec 32)),
      let i := Instr.promote h epoch changes
      let xs := changes.map (fun x => (x.1.val, x.2.1.val, x.2.2.toNat))
      let bs := leBytes 4 epoch.toNat ++ xs.flatMap (fun x => leBytes 1 x.1 ++ leBytes 1 x.2.1 ++ leBytes 4 x.2.2)
      let a := s.taken h 0 (4 + 6 * changes.length)
      let report : Prop := epoch.toNat = s.get R.GTS_MAP_EPOCH.N ∧ h.src.val ≠ s.leader
      let rs := xs.map (fun x => (x.1, x.2.1, h.src.val))
      dropped i h ∧
      (s.inOrder h → report → h.dst.val ≠ me → exec i s = .next (onward h 3 0 bs)) ∧
      (s.inOrder h → report → h.dst.val = me → exec i s = .next
        ({ a with gts := { a.gts with reports := s.gts.reports.filter (fun r => !rs.contains r) ++ rs } } : State).promoteNow) ∧
      (s.inOrder h → ¬ report → h.src.val = me → exec i s = .next a) ∧
      (s.inOrder h → ¬ report → h.src.val ≠ me → ∃ t, exec i s = .next t ∧
        t = ((a.sendBcast { type := 3, vc := 0, src := h.src.val, bcast := true, payload := bs }).rewriteMap xs).takeEpoch epoch.toNat ∧
        t.get R.GTS_MAP_EPOCH.N = epoch.toNat ∧
        s.counts R.GTS_CNT_PROMOTE.N (if s.get R.GTS_MAP_EPOCH.N = epoch.toNat then 0 else 1) t)) ∧
    (∀ (k z w : Nat), k < 16 → let c := s.setCfg k; let fabric : Prop := cfgEnabled c = true ∧ cfgFabric c = true;
      (¬ fabric → s.rewriteMap [(k, z, w)] = s) ∧ (fabric → ∀ r v, s.readMap .firmware c z = (r, v) →
        (s.rewriteMap [(k, z, w)]).mem = (v.store .firmware (cfgMap c + 4 * z) (leBytes 4 w)).2.mem)) ∧
    (∀ (h : Packet) (t : Tuple),
      let i := Instr.posTuple h t
      let a := s.taken h 1 24
      let b := a.bcastTuple t
      let on : Prop := s.flag R.GTS_CFG.ENABLE = true ∧ s.flag R.GTS_TIME_STATUS.SYNCED = true
      let seqOk : Prop := ∀ l, s.pos.lastSeq = some l → 1 ≤ (t.seq.toNat + 65536 - l) % 65536 ∧ (t.seq.toNat + 65536 - l) % 65536 ≤ 32767
      -- A TAKEOVER tuple that names the new master.
      let names : Prop := t.takeover = true ∧ t.src.val = s.get R.POS_BCAST.STANDBY_ID ∧ s.pos.master ≠ some t.src.val ∧ s.role ≠ 0
      dropped i h ∧ (s.inOrder h → t.src.val = me → exec i s = .next a) ∧
      (s.inOrder h → t.src.val ≠ me → ¬ on → exec i s = .next b) ∧
      (s.inOrder h → t.src.val ≠ me → on → ¬ names → s.drives = true ∨ ¬ seqOk ∨
        (s.pos.master ≠ none ∧ s.pos.master ≠ some t.src.val) ∨ (s.pos.needZero = true ∧ t.zero = false) → exec i s = .next b) ∧
      (s.inOrder h → t.src.val ≠ me → on → ¬ names → s.drives = false → seqOk →
        (s.pos.master = none ∨ s.pos.master = some t.src.val) → (s.pos.needZero = true → t.zero = true) →
        s.completes i [.pos, .gts] [] (fun u => u.pos.nextBase = some ⟨t.wpos.toInt, t.dtime.toNat, t.speed.toInt⟩ ∧
          u.pos.master = some t.src.val ∧ u.pos.lastSeq = some t.seq.toNat ∧ u.pos.lastTuple = s.dtime ∧ u.pos.needZero = false)) ∧
      (s.inOrder h → t.src.val ≠ me → on → names →
        s.completes i [.regs, .pos, .gts] [R.POS_STATUS] (fun u => u.pos.master = some t.src.val ∧
          u.pos.nextBase = (if s.pos.needZero = true ∧ t.zero = false then s.pos.nextBase
            else some ⟨t.wpos.toInt, t.dtime.toNat, t.speed.toInt⟩) ∧ u.pos.lastSeq = some t.seq.toNat ∧
          u.get R.POS_STATUS.ROLE_NOW = (if s.role = 1 then 2 else s.get R.POS_STATUS.ROLE_NOW)))) ∧
    -- The time exchange.
    (∀ sub : Fin 64,
      let i := Instr.tsyncSend sub
      (s.upstream = none ∨ s.flag R.GTS_CFG.ENABLE = false ∨ s.dtime < s.gts.tsSent + 1000000 → exec i s = .next s) ∧
      (∀ p, s.upstream = some p → s.flag R.GTS_CFG.ENABLE = true → s.gts.tsSent + 1000000 ≤ s.dtime →
        let t1 := s.dtime * 16 + sub.val
        exec i s = .next (({ s with gts := { s.gts with
            nextTag := (s.gts.nextTag + 1) % 2 ^ 32, tsync := some (s.gts.nextTag, t1), tsSent := s.dtime } } : State).sendOn p
          { type := 0x11, vc := 1, dst := s.get (R.GTS_G_STATUS.PEER_ID p), src := me, tag := s.gts.nextTag, payload := leBytes 8 t1 }))) ∧
    (let due : Prop := master ≠ me ∧ s.gts.lastExchange + 10000000 ≤ s.dtime;
      (¬ due → exec .tsyncTimeout s = .next s) ∧
      (due → s.completes .tsyncTimeout [.regs, .gts] [R.GTS_TIME_STATUS] (fun t => t.flag R.GTS_TIME_STATUS.SYNCED = false ∧
        t.gts = { s.gts with goodRun := 0 }))) ∧
    (∀ h : Packet, s.inOrder h → h.dst.val = me →
      (∀ (t1 : BitVec 64) (sub2 sub3 : Fin 64), exec (.tsyncReq h t1 sub2 sub3) s = .next ((s.taken h 1 8).sendOn h.port.val
        { type := 0x12, vc := 1, dst := h.src.val, src := me, tag := h.tag.toNat
          payload := leBytes 8 (s.dtime * 16 + sub2.val) ++ leBytes 8 (s.dtime * 16 + sub3.val) })) ∧
      (∀ (t2 t3 : BitVec 64) (sub4 : Fin 64),
        let i := Instr.tsyncResp h t2 t3 sub4
        let t4 := BitVec.ofNat 64 (s.dtime * 16 + sub4.val)
        let a := s.taken h 1 16
        ((∀ tag t1, s.gts.tsync = some (tag, t1) → tag ≠ h.tag.toNat) → exec i s = .next a) ∧
        (∀ t1, s.gts.tsync = some (h.tag.toNat, t1) →
          let d1 : Int := (t2 - BitVec.ofNat 64 t1).toInt
          let d2 : Int := (t4 - t3).toInt
          let asym : Int := Int.tdiv (s.getInt (R.GTS_G_ASYM.PS h.port.val) * 16) 1000
          let o : Int := Int.tdiv (d1 - d2 - asym) 2
          let offs := (o :: s.gts.offsets).take 4
          let agree : Prop := offs.length = 4 ∧ ∀ x ∈ offs, ∀ y ∈ offs, (x - y).natAbs ≤ 160
          let committed : Prop := ∃ j, j < 64 ∧ (s.jobState j = 2 ∨ s.jobState j = 3)
          let steps : Prop := ¬ committed ∧ agree
          ∃ t, exec i s = .next t ∧ s.changesOnly [.regs, .dtime, .free, .gts] t ∧
            s.keepsRegs [R.GTS_TIME_STATUS, R.GTS_TIME_DELAY] t ∧ t.gts.tsync = none ∧ t.gts.lastExchange = t.dtime ∧
            (-32768 ≤ o → o ≤ 32767 → t.getInt R.GTS_TIME_STATUS.OFFSET = o ∧ t.free = s.free) ∧
            t.get R.GTS_TIME_DELAY.N = (Int.tdiv (d1 + d2) 2 % 2 ^ 32).toNat ∧
            t.gts.goodRun = (if o.natAbs ≤ 32 then s.gts.goodRun + 1 else 0) ∧
            (64 < o.natAbs → t.flag R.GTS_TIME_STATUS.SYNCED = false) ∧
            (o.natAbs ≤ 64 → t.gts.goodRun < 16 → t.flag R.GTS_TIME_STATUS.SYNCED = s.flag R.GTS_TIME_STATUS.SYNCED) ∧
            (16 ≤ t.gts.goodRun → ¬ committed ∨ s.flag R.GTS_TIME_STATUS.JOIN_BLOCKED = false → t.flag R.GTS_TIME_STATUS.SYNCED = true) ∧
            (committed → t.flag R.GTS_TIME_STATUS.JOIN_BLOCKED = (s.flag R.GTS_TIME_STATUS.JOIN_BLOCKED || decide (64 < o.natAbs))) ∧
            (¬ committed → t.flag R.GTS_TIME_STATUS.JOIN_BLOCKED = false) ∧
            (¬ steps → t.dtime = s.dtime ∧ t.gts.offsets = offs ∧ t.gts.tsSent = s.gts.tsSent ∧ t.gts.phase = s.gts.phase + clampInt o (-16) 16) ∧
            (steps → let on (n : Nat) : Nat := (((n : Int) + 4 * ((o + 32) / 64)) % 2 ^ 64).toNat;
              t.dtime = on s.dtime ∧ t.gts.offsets = [] ∧ t.gts.tsSent = on s.gts.tsSent ∧
              t.gts.away = s.gts.away.map (fun e => (e.1, on e.2)) ∧
              t.gts.phase = s.gts.phase + clampInt (o - 64 * ((o + 32) / 64)) (-16) 16))) ∧
      -- Set and window traffic.
      (∀ (op : Fin 3) (set : Fin 16) (key : BitVec 88) (node : BitVec 32),
        let a := s.taken h 2 (setReqBytes op.val set.val key.toNat node.toNat).length
        let c := s.setCfg set.val
        let z := key.toNat % 256
        let old : Prop := h.epoch.toNat ≠ s.get R.GTS_MAP_EPOCH.N ∧ (s.get R.GTS_MAP_EPOCH.N + 2 ^ 32 - h.epoch.toNat) % 2 ^ 32 < 2 ^ 31
        let none_ : Prop := cfgEnabled c = false ∨ cfgFabric c = false
        let i := Instr.setReq h op set key node
        let doubt (x : State) (stale : Bool) : Prop := exec i s = .next
          ((x.setFailed 4).2.answerSet h.src.val h.part.val h.tag.toNat (x.setFailed 4).1 stale)
        (old ∨ none_ → doubt a true) ∧
        (¬ old → ¬ none_ → ∀ r v, a.readMap .fabric c z = (r, v) →
          (r ≠ .ok → doubt v false) ∧
          (r = .ok → s.shardPrimary c z ≠ me → doubt v true) ∧
          (r = .ok → s.shardPrimary c z = me → v.setDoubt set.val c z = true → doubt v false) ∧
          (r = .ok → s.shardPrimary c z = me → v.setDoubt set.val c z = false → ∀ d w,
            v.setApply .fabric c (v.shardSlot c z) op.val key.toNat node.toNat = (d, w) →
            (d.failed ≠ none → doubt w false) ∧
            (d.failed = none → d.change = none ∨ w.shardReplica c z = w.myId → exec i s = .next
              (w.answerSet h.src.val h.part.val h.tag.toNat d.value false)) ∧
            (d.failed = none → d.change ≠ none → w.shardReplica c z ≠ w.myId → exec i s = .next
              (w.replicate set.val h.part.val key.toNat h.src.val h.tag.toNat c none d).2)))) ∧
      (∀ (value : BitVec 64) (stale : Bool),
        let a := s.taken h 2 (setRespBytes value.toNat stale).length
        (s.waiterOf h.tag.toNat = none → exec (.setResp h value stale) s = .next a) ∧
        (∀ e c t k, s.waiterOf h.tag.toNat = some (e, c, t, k) → exec (.setResp h value stale) s = .next
          (if stale then a.failSet e c t k 4 else a.finishSet e c t k value.toNat))) ∧
      (∀ (set : Fin 16) (key : BitVec 88) (bucket : BitVec 32) (entry : Fin 4) (st : BitVec 8) (node : BitVec 32),
        let i := Instr.repl h set key bucket entry st node
        let x : EntryChange := ⟨bucket.toNat, entry.val, st.toNat, node.toNat⟩
        let a := s.taken h 2 (replBytes set.val key.toNat x).length
        let c := s.setCfg set.val
        let z := key.toNat % 256
        let fabric : Prop := cfgEnabled c = true ∧ cfgFabric c = true
        (¬ fabric → exec i s = .next a) ∧
        (fabric → ∀ r v, a.readMap .fabric c z = (r, v) →
          (r ≠ .ok ∨ s.shardReplica c z ≠ me → exec i s = .next v) ∧
          (r = .ok → s.shardReplica c z = me → ∀ q w, v.writeEntry .fabric c (s.shardSlot c z) key.toNat x = (q, w) →
            exec i s = .next (if q = .ok then w.sendLookup 0x23 h.part.val h.src.val h.tag.toNat [] else w)))) ∧
      (let a := s.taken h 2 0;
        ((∀ x ∈ s.gts.serving, x.tag ≠ h.tag.toNat) → exec (.replAck h) s = .next a) ∧
        (∀ x, s.gts.serving.find? (fun x => x.tag == h.tag.toNat) = some x →
          let b := { a with gts := { a.gts with serving := s.gts.serving.filter (fun y => y.tag != x.tag) } }
          (x.local_ = none → exec (.replAck h) s = .next (b.answerSet x.requester x.part x.reqTag x.result false)) ∧
          (∀ n tag, x.local_ = some (n, tag) →
            (s.waiterOf tag = none → exec (.replAck h) s = .next b) ∧
            (∀ e c t k, s.waiterOf tag = some (e, c, t, k) → exec (.replAck h) s = .next (b.finishSet e c t k x.result))))) ∧
      (∀ addr : BitVec 64,
        let i := Instr.rgetReq h addr
        let a := s.taken h 2 8
        let open_ : Prop := addr.toNat % 8 = 0 ∧ s.windowFor addr.toNat 8 h.part.val false = true
        (¬ open_ → exec i s = .next (a.sendLookup 0x25 h.part.val h.src.val h.tag.toNat [])) ∧
        (open_ → ∀ r bs v, a.load .fabric addr.toNat 8 = (r, bs, v) → exec i s = .next
          (v.sendLookup 0x25 h.part.val h.src.val h.tag.toNat (if r = .ok then leBytes 8 (leVal bs) else [])))) ∧
      (∀ data : Option (BitVec 64),
        let i := Instr.rgetResp h data
        let a := s.taken h 2 (match data with | some _ => 8 | none => 0)
        (s.waiterOf h.tag.toNat = none → exec i s = .next a) ∧
        (∀ e c t k, s.waiterOf h.tag.toNat = some (e, c, t, k) → exec i s = .next
          (match data with | some v => a.finishOp e c t k v.toNat | none => a.failGet e c t k))) ∧
      (∀ (entry : Fin 16) (strip off total : BitVec 32) (bytes : List Byte),
        let i := Instr.halo h entry strip off total bytes
        let e := entry.val
        let a := s.taken h 3 bytes.length
        let admitted : Prop := s.flag (R.GTS_HX_CFG.ENABLE e) = true ∧ s.flag (R.GTS_HX_CFG.DIR e) = true ∧
          s.get (R.GTS_HX_CFG.PEER e) = h.src.val
        let bufs := s.get (R.GTS_HX_BUF.BUFS e)
        let so := s.get (R.GTS_HX_BUF.SO e)
        let addr := s.get64 (R.GTS_HX_BASE_LO.N e) (R.GTS_HX_BASE_HI.N e) + strip.toNat % bufs * s.get (R.GTS_HX_STRIDE.UNITS e) * 4096 + off.toNat
        let x : HaloRecv := (s.haloRecv e strip.toNat).getD
          { entry := e, strip := strip.toNat, total := total.toNat, dropped := decide ((s.so so).value ≥ bufs) }
        let got := x.got ++ [(off.toNat, bytes.length)]
        let whole : Prop := ({ x with got := got } : HaloRecv).whole = true
        let keeps (v : State) (n : Nat) : Prop := v.mem = s.mem ∧ v.sync = s.sync ∧ s.counts (R.GTS_HX_DROP.N e) n v
        (¬ admitted → s.completes i [.regs, .gts] [R.GTS_HX_DROP e] (fun v => keeps v 1 ∧ v.gts = a.gts)) ∧
        (admitted → x.dropped = true → s.completes i [.regs, .gts] [R.GTS_HX_DROP e] (fun v =>
          keeps v (if s.haloRecv e strip.toNat = none then 1 else 0))) ∧
        (admitted → x.dropped = false → s.windowFor addr bytes.length h.part.val true = false →
          s.completes i [.regs, .gts] [R.GTS_HX_DROP e] (fun v => keeps v 1)) ∧
        (admitted → x.dropped = false → s.windowFor addr bytes.length h.part.val true = true →
          ∀ r v, a.store .fabric addr bytes = (r, v) →
          (r = .ok → ¬ whole → exec i s = .next (v.setHalo e strip.toNat (some { x with got := got }))) ∧
          (r = .ok → whole → exec i s = .next
            ((((v.setHalo e strip.toNat none).bump (R.GTS_HX_STRIPS.N e)).signal .firmware so 1).settle)) ∧
          (r ≠ .ok → ¬ whole → exec i s = .next
            ((v.setHalo e strip.toNat (some { x with got := got, dropped := true })).bump (R.GTS_HX_DROP.N e))) ∧
          (r ≠ .ok → whole → exec i s = .next ((v.setHalo e strip.toNat none).bump (R.GTS_HX_DROP.N e)))))) ∧
    -- A strip is whole when each of its bytes has arrived, in whatever packets and order.
    (∀ x : HaloRecv, x.whole = true ↔ ∀ b, b < x.total → ∃ g ∈ x.got, g.1 ≤ b ∧ b < g.1 + g.2)
end

