-- ==== Sys2Proof/Laws/Sparse.lean ====
section
/-! SUPPORT. Laws/Sparse.lean: what the sparse lists of registers and bytes do: a read after a write, every other key left
alone, and the canonical form kept. -/

namespace Sys2Proof.Machine

variable {α : Type}

/-! ### Reading and writing -/

/-- A key below every listed key reads as its default. -/
theorem sparseGet_eq_default {d : Nat → α} [DecidableEq α] {lo k : Nat} :
    ∀ {l : List (Nat × α)}, sparseWfFrom d (some lo) l = true → k ≤ lo → sparseGet d l k = d k
  | [], _, _ => rfl
  | (j, v) :: r, h, hk => by
    simp only [sparseWfFrom, Bool.and_eq_true, decide_eq_true_eq] at h
    have h1 : ¬ j = k := by omega
    have h2 : k < j := by omega
    simp [sparseGet, h1, h2]

/-- The tail of a canonical list is canonical above its head. -/
theorem sparseWfFrom_tail {d : Nat → α} [DecidableEq α] {lo : Option Nat} {j : Nat} {v : α} {r : List (Nat × α)}
    (h : sparseWfFrom d lo ((j, v) :: r) = true) : sparseWfFrom d (some j) r = true := by
  simp only [sparseWfFrom, Bool.and_eq_true] at h
  exact h.2

/-- A read of a written key gives the value written; every other key reads as before. -/
theorem sparseGet_put {d : Nat → α} [DecidableEq α] {k k' : Nat} {v : α} :
    ∀ {lo : Option Nat} {l : List (Nat × α)}, sparseWfFrom d lo l = true →
      sparseGet d (sparsePut d l k v) k' = if k' = k then v else sparseGet d l k'
  | _, [], _ => by
    by_cases hv : v = d k <;> by_cases hk : k' = k
    · subst hk; simp [sparsePut, sparseGet, hv]
    · simp [sparsePut, sparseGet, hv, hk]
    · subst hk; simp [sparsePut, sparseGet, hv]
    · simp only [sparsePut, hv, if_false, sparseGet, hk]
      have : ¬ k = k' := fun h => hk h.symm
      simp [this]
  | lo, (j, u) :: r, h => by
    have ht := sparseWfFrom_tail h
    unfold sparsePut
    rcases Nat.lt_trichotomy k j with hlt | heq | hgt
    · simp only [hlt, if_true]
      by_cases hv : v = d k
      · simp only [hv, if_true]
        by_cases hk : k' = k
        · subst hk
          have h1 : ¬ j = k' := by omega
          simp [sparseGet, h1, hlt]
        · simp [hk]
      · simp only [hv, if_false]
        by_cases hk : k' = k
        · subst hk; simp [sparseGet]
        · have h1 : ¬ k = k' := fun h => hk h.symm
          simp only [hk, if_false]
          rw [sparseGet]
          simp only [h1, if_false]
          by_cases hkk : k' < k
          · have h2 : ¬ j = k' := by omega
            have h3 : k' < j := by omega
            simp [sparseGet, hkk, h2, h3]
          · simp [hkk]
    · subst heq
      simp only [Nat.lt_irrefl, if_false, if_true]
      by_cases hv : v = d k
      · simp only [hv, if_true]
        by_cases hk : k' = k
        · subst hk
          simp only [if_true]
          exact sparseGet_eq_default ht (Nat.le_refl _)
        · simp only [hk, if_false]
          have h1 : ¬ k = k' := fun h => hk h.symm
          conv_rhs => rw [sparseGet]
          simp only [h1, if_false]
          by_cases hkk : k' < k
          · simp only [hkk, if_true]
            exact sparseGet_eq_default ht (Nat.le_of_lt hkk)
          · simp [hkk]
      · simp only [hv, if_false]
        by_cases hk : k' = k
        · subst hk; simp [sparseGet]
        · have h1 : ¬ k = k' := fun h => hk h.symm
          simp [sparseGet, hk, h1]
    · have h1 : ¬ k < j := by omega
      have h2 : ¬ k = j := by omega
      simp only [h1, h2, if_false]
      by_cases hjk : j = k'
      · have h3 : ¬ k' = k := by omega
        simp [sparseGet, hjk, h3]
      · rw [sparseGet, sparseGet]
        simp only [hjk, if_false]
        by_cases hkk : k' < j
        · have h3 : ¬ k' = k := by omega
          simp [hkk, h3]
        · simp only [hkk, if_false]
          exact sparseGet_put ht

/-! ### The canonical form -/

/-- A canonical list stays one when its lower bound falls away or falls. -/
theorem sparseWfFrom_mono {d : Nat → α} [DecidableEq α] {lo lo' : Option Nat}
    (hl : ∀ a, lo' = some a → ∃ b, lo = some b ∧ a ≤ b) :
    ∀ {l : List (Nat × α)}, sparseWfFrom d lo l = true → sparseWfFrom d lo' l = true
  | [], _ => rfl
  | (j, v) :: r, h => by
    simp only [sparseWfFrom, Bool.and_eq_true] at h ⊢
    refine ⟨⟨?_, h.1.2⟩, h.2⟩
    cases lo' with
    | none => rfl
    | some a =>
      obtain ⟨b, hb, hab⟩ := hl a rfl
      subst hb
      have := h.1.1
      simp only [decide_eq_true_eq] at this ⊢
      omega

/-- A write keeps the canonical form. -/
theorem sparsePut_wfFrom {d : Nat → α} [DecidableEq α] {k : Nat} {v : α} :
    ∀ {lo : Option Nat} {l : List (Nat × α)}, sparseWfFrom d lo l = true → (∀ a, lo = some a → a < k) →
      sparseWfFrom d lo (sparsePut d l k v) = true
  | lo, [], _, hlo => by
    unfold sparsePut
    by_cases hv : v = d k
    · simp [hv, sparseWfFrom]
    · cases lo with
      | none => simp [hv, sparseWfFrom]
      | some a => simp [hv, sparseWfFrom, hlo a rfl]
  | lo, (j, u) :: r, h, hlo => by
    have ht := sparseWfFrom_tail h
    have hh := h
    simp only [sparseWfFrom, Bool.and_eq_true] at hh
    unfold sparsePut
    rcases Nat.lt_trichotomy k j with hlt | heq | hgt
    · simp only [hlt, if_true]
      by_cases hv : v = d k
      · simpa [hv] using h
      · have hk : sparseWfFrom d (some k) ((j, u) :: r) = true := by
          simp only [sparseWfFrom, Bool.and_eq_true]
          exact ⟨⟨by simpa using hlt, hh.1.2⟩, hh.2⟩
        simp only [hv, if_false]
        simp only [sparseWfFrom, Bool.and_eq_true] at hk ⊢
        refine ⟨⟨?_, by simpa using hv⟩, hk⟩
        cases lo with
        | none => rfl
        | some a => simpa using hlo a rfl
    · subst heq
      simp only [Nat.lt_irrefl, if_false, if_true]
      by_cases hv : v = d k
      · simp only [hv, if_true]
        refine sparseWfFrom_mono ?_ ht
        intro a ha
        exact ⟨k, rfl, Nat.le_of_lt (hlo a ha)⟩
      · simp only [hv, if_false, sparseWfFrom, Bool.and_eq_true]
        exact ⟨⟨hh.1.1, by simpa using hv⟩, ht⟩
    · have h1 : ¬ k < j := by omega
      have h2 : ¬ k = j := by omega
      simp only [h1, h2, if_false, sparseWfFrom, Bool.and_eq_true]
      refine ⟨hh.1, sparsePut_wfFrom ht ?_⟩
      intro a ha
      cases ha
      exact hgt

/-- A write keeps the canonical form. -/
theorem sparsePut_wf {d : Nat → α} [DecidableEq α] {l : List (Nat × α)} {k : Nat} {v : α} (h : sparseWf d l = true) :
    sparseWf d (sparsePut d l k v) = true :=
  sparsePut_wfFrom h (fun a ha => by cases ha)

/-- Leaving entries out keeps the canonical form. -/
theorem sparseWfFrom_filter {d : Nat → α} [DecidableEq α] {p : Nat × α → Bool} :
    ∀ {lo : Option Nat} {l : List (Nat × α)}, sparseWfFrom d lo l = true → sparseWfFrom d lo (l.filter p) = true
  | _, [], _ => rfl
  | lo, (j, v) :: r, h => by
    have hh := h
    simp only [sparseWfFrom, Bool.and_eq_true] at hh
    by_cases hp : p (j, v) = true
    · rw [List.filter_cons_of_pos hp]
      simp only [sparseWfFrom, Bool.and_eq_true]
      exact ⟨hh.1, sparseWfFrom_filter hh.2⟩
    · rw [List.filter_cons_of_neg hp]
      refine sparseWfFrom_filter (sparseWfFrom_mono ?_ hh.2)
      intro a ha
      subst ha
      refine ⟨j, rfl, ?_⟩
      have := hh.1.1
      simp only [decide_eq_true_eq] at this
      omega

/-- Leaving entries out keeps the canonical form. -/
theorem sparseWf_filter {d : Nat → α} [DecidableEq α] {l : List (Nat × α)} {p : Nat × α → Bool}
    (h : sparseWf d l = true) : sparseWf d (l.filter p) = true := sparseWfFrom_filter h

/-! ### Byte memories -/

/-- Reading a byte after writing one. -/
theorem Memory.byte_setByte {m : List Host.Cell} (h : Memory.wf m = true) (a b : Nat) (v : Byte) :
    Memory.byte (Memory.setByte m a v) b = if b = a then v else Memory.byte m b := sparseGet_put h

/-- Writing a byte keeps the canonical form. -/
theorem Memory.setByte_wf {m : List Host.Cell} (a : Nat) (v : Byte) (h : Memory.wf m = true) :
    Memory.wf (Memory.setByte m a v) = true := sparsePut_wf h

/-- Writing bytes keeps the canonical form. -/
theorem Memory.write_wf : ∀ (bs : List Byte) (m : List Host.Cell) (a : Nat), Memory.wf m = true →
    Memory.wf (Memory.write m a bs) = true
  | [], _, _, h => h
  | b :: bs, m, a, h => Memory.write_wf bs _ _ (Memory.setByte_wf a b h)

/-- Leaving bytes out keeps the canonical form. -/
theorem Memory.filter_wf {m : List Host.Cell} (p : Host.Cell → Bool) (h : Memory.wf m = true) :
    Memory.wf (m.filter p) = true := sparseWf_filter h

/-- Reading a byte after writing a run of bytes: those written read as written, every other one as before. -/
theorem Memory.byte_write : ∀ (bs : List Byte) (m : List Host.Cell) (a b : Nat), Memory.wf m = true →
    Memory.byte (Memory.write m a bs) b = if a ≤ b ∧ b < a + bs.length then (bs[b - a]?).getD 0 else Memory.byte m b
  | [], m, a, b, _ => by
    have : ¬ (a ≤ b ∧ b < a + ([] : List Byte).length) := by simp
    simp [Memory.write, this]
  | v :: bs, m, a, b, h => by
    rw [Memory.write, Memory.byte_write bs _ (a + 1) b (Memory.setByte_wf a v h), Memory.byte_setByte h]
    simp only [List.length_cons]
    by_cases h1 : b = a
    · subst h1
      have h2 : ¬ (b + 1 ≤ b ∧ b < b + 1 + bs.length) := by omega
      have h3 : b ≤ b ∧ b < b + (bs.length + 1) := by omega
      simp [h3]
    · by_cases h2 : a + 1 ≤ b ∧ b < a + 1 + bs.length
      · have h3 : a ≤ b ∧ b < a + (bs.length + 1) := by omega
        have h4 : b - a = (b - (a + 1)) + 1 := by omega
        simp [h2, h3, h4]
      · have h3 : ¬ (a ≤ b ∧ b < a + (bs.length + 1)) := by omega
        rw [if_neg h2, if_neg h3, if_neg h1]

/-- Copying a page keeps the canonical form (R316). -/
theorem copyPage_wf {m : List Host.Cell} (src dst : Nat) (h : Memory.wf m = true) : Memory.wf (copyPage m src dst) = true := by
  unfold copyPage
  generalize m.filter (fun c => decide (src ≤ c.1) && decide (c.1 < src + 65536)) = cells
  have h0 := Memory.filter_wf (fun c => !(decide (dst ≤ c.1) && decide (c.1 < dst + 65536))) h
  revert h0
  generalize m.filter (fun c => !(decide (dst ≤ c.1) && decide (c.1 < dst + 65536))) = base
  induction cells generalizing base with
  | nil => exact fun h0 => h0
  | cons c cs ih => exact fun h0 => ih _ (Memory.setByte_wf _ _ h0)

/-- Writing runs of bytes one after another keeps the canonical form. -/
theorem Memory.foldl_write_wf {β : Type} (f : β → Nat) (g : β → List Byte) : ∀ (l : List β) (m : List Host.Cell),
    Memory.wf m = true → Memory.wf (l.foldl (fun m x => Memory.write m (f x) (g x)) m) = true
  | [], _, h => h
  | _ :: l, _, h => Memory.foldl_write_wf f g l _ (Memory.write_wf _ _ _ h)

end Sys2Proof.Machine
end

