-- ==== Sys2Proof/Laws/Closure.lean ====
section
/-! SUPPORT. Laws/Closure.lean: properties of states that an operation keeps, whatever they are. `Closed<Part> G` says that
`G` is closed under changes of that part of State; a change of the registers, of a byte memory or of DTIME counts only where
it keeps the canonical form, or the 4 ns grid. For each function of the machine one lemma `<function>_holds` lists the parts
it can change, those of the functions it calls among them: it keeps every property that is closed under changes of these.
Taken with `G t := t.lp = s.lp` such a lemma is a frame; taken with a canonical form it is an invariant. -/

namespace Sys2Proof.Machine

/-- `G` holds of a state: kept apart, so that a lemma is found by the head of the state. -/
def Holds (G : State → Prop) (s : State) : Prop := G s

/-- `G` holds of the state that an outcome gives, where it gives one. -/
def HoldsOut (G : State → Prop) (o : Host.Outcome State Fault Refusal) : Prop := ∀ t, o = .next t → Holds G t

variable {G : State → Prop}

theorem HoldsOut.next {s : State} (h : Holds G s) : HoldsOut G (.next s) := fun _ e => by cases e; exact h

theorem HoldsOut.ite {c : Prop} [Decidable c] {a b : Host.Outcome State Fault Refusal} (ha : HoldsOut G a) (hb : HoldsOut G b) :
    HoldsOut G (if c then a else b) := by
  split <;> assumption

theorem HoldsOut.fault {r : Fault} : HoldsOut G (.fault r) := fun _ e => by cases e

/-- DTIME stays on its 4 ns grid as it wraps. -/
theorem u64_step_grid {n : Nat} (h : n % 4 = 0) : u64 (n + 4) % 4 = 0 := by
  unfold u64; omega

/-- DTIME stays on its grid as it is stepped by whole ticks. -/
theorem toU64_grid {n : Nat} (k : Int) (h : n % 4 = 0) : toU64 ((n : Int) + 4 * k) % 4 = 0 := by
  unfold toU64 toBits
  omega

/-! ### The shapes a state is built in -/

theorem Holds.ite {c : Prop} [Decidable c] {a b : State} (ha : Holds G a) (hb : Holds G b) : Holds G (if c then a else b) := by
  split <;> assumption

theorem Holds.dite {c : Prop} [Decidable c] {a : c → State} {b : ¬c → State} (ha : ∀ h, Holds G (a h)) (hb : ∀ h, Holds G (b h)) :
    Holds G (if h : c then a h else b h) := by
  split
  · exact ha _
  · exact hb _

theorem Holds.foldl {β : Type} {f : State → β → State} {l : List β} {s : State} (h : Holds G s)
    (hf : ∀ t x, Holds G t → Holds G (f t x)) : Holds G (l.foldl f s) := by
  induction l generalizing s with
  | nil => exact h
  | cons x l ih => exact ih (hf _ _ h)

theorem Holds.foldl_snd {α β : Type} {f : α × State → β → α × State} {l : List β} {b : α × State} (h : Holds G b.2)
    (hf : ∀ t x, Holds G t.2 → Holds G (f t x).2) : Holds G (l.foldl f b).2 := by
  induction l generalizing b with
  | nil => exact h
  | cons x l ih => exact ih (hf _ _ h)

theorem Holds.foldl_fst {α β : Type} {f : State × α → β → State × α} {l : List β} {b : State × α} (h : Holds G b.1)
    (hf : ∀ t x, Holds G t.1 → Holds G (f t x).1) : Holds G (l.foldl f b).1 := by
  induction l generalizing b with
  | nil => exact h
  | cons x l ih => exact ih (hf _ _ h)

theorem Holds.foldl_snd_snd {α β γ : Type} {f : α × β × State → γ → α × β × State} {l : List γ} {b : α × β × State}
    (h : Holds G b.2.2) (hf : ∀ t x, Holds G t.2.2 → Holds G (f t x).2.2) : Holds G (l.foldl f b).2.2 := by
  induction l generalizing b with
  | nil => exact h
  | cons x l ih => exact ih (hf _ _ h)

theorem Holds.getD {o : Option State} {s : State} (h : Holds G s) (ho : ∀ t, o = some t → Holds G t) : Holds G (o.getD s) := by
  cases o with
  | none => exact h
  | some t => exact ho t rfl

theorem Holds.of_pair {α : Type} {e : α × State} {a : α} {s : State} (he : e = (a, s)) (h : Holds G e.2) : Holds G s := by
  subst he; exact h

theorem Holds.of_fst {α : Type} {e : State × α} {s : State} {a : α} (he : e = (s, a)) (h : Holds G e.1) : Holds G s := by
  subst he; exact h

theorem Holds.of_triple {α β : Type} {e : α × β × State} {a : α} {b : β} {s : State} (he : e = (a, b, s))
    (h : Holds G e.2.2) : Holds G s := by
  subst he; exact h

theorem Holds.of_mid {α β : Type} {e : α × State × β} {a : α} {s : State} {b : β} (he : e = (a, s, b))
    (h : Holds G e.2.1) : Holds G s := by
  subst he; exact h

theorem Holds.of_snd_pair {α β : Type} {e : α × β × State} {a : α} {p : β × State} (he : e = (a, p))
    (h : Holds G e.2.2) : Holds G p.2 := by
  subst he; exact h

/-- `G` holds of the state that an option gives, where it gives one. -/
def HoldsOpt (G : State → Prop) (o : Option State) : Prop := ∀ t, o = some t → Holds G t

theorem HoldsOpt.none : HoldsOpt G none := fun _ e => by cases e

theorem HoldsOpt.some {s : State} (h : Holds G s) : HoldsOpt G (some s) := fun _ e => by cases e; exact h

theorem Holds.of_some {o : Option State} {s : State} (he : o = Option.some s) (h : HoldsOpt G o) : Holds G s := h s he

/-- The same for an option that gives something beside the state. -/
def HoldsOptSnd (G : State → Prop) {α : Type} (o : Option (α × State)) : Prop := ∀ p, o = some p → Holds G p.2

theorem HoldsOptSnd.none {α : Type} : HoldsOptSnd G (none : Option (α × State)) := fun _ e => by cases e

theorem HoldsOptSnd.some {α : Type} {p : α × State} (h : Holds G p.2) : HoldsOptSnd G (some p) := fun _ e => by cases e; exact h

theorem Holds.of_some_pair {α : Type} {o : Option (α × State)} {a : α} {s : State} (he : o = Option.some (a, s))
    (h : HoldsOptSnd G o) : Holds G s := h (a, s) he

/-! ### Closure under changes of one part -/

class ClosedRegs (G : State → Prop) : Prop where
  upd : ∀ (s : State) x, (sparseWf regDefault s.regs = true → sparseWf regDefault x = true) → Holds G s → Holds G { s with regs := x }

class ClosedStaged (G : State → Prop) : Prop where
  upd : ∀ (s : State) x, Holds G s → Holds G { s with staged := x }

class ClosedPairs (G : State → Prop) : Prop where
  upd : ∀ (s : State) x, Holds G s → Holds G { s with pairs := x }

class ClosedHolding (G : State → Prop) : Prop where
  upd : ∀ (s : State) x, Holds G s → Holds G { s with holding := x }

class ClosedDtime (G : State → Prop) : Prop where
  upd : ∀ (s : State) x, (s.dtime % 4 = 0 → x % 4 = 0) → Holds G s → Holds G { s with dtime := x }

class ClosedMem (G : State → Prop) : Prop where
  upd : ∀ (s : State) x, (Memory.wf s.mem = true → Memory.wf x = true) → Holds G s → Holds G { s with mem := x }

class ClosedLarder (G : State → Prop) : Prop where
  upd : ∀ (s : State) x, (Memory.wf s.larder = true → Memory.wf x = true) → Holds G s → Holds G { s with larder := x }

class ClosedHost (G : State → Prop) : Prop where
  upd : ∀ (s : State) x, (Memory.wf s.host = true → Memory.wf x = true) → Holds G s → Holds G { s with host := x }

class ClosedFree (G : State → Prop) : Prop where
  upd : ∀ (s : State) x, Holds G s → Holds G { s with free := x }

class ClosedModule (G : State → Prop) : Prop where
  upd : ∀ (s : State) x, Holds G s → Holds G { s with module := x }

class ClosedCel (G : State → Prop) : Prop where
  upd : ∀ (s : State) x, Holds G s → Holds G { s with cel := x }

class ClosedPos (G : State → Prop) : Prop where
  upd : ∀ (s : State) x, Holds G s → Holds G { s with pos := x }

class ClosedLanes (G : State → Prop) : Prop where
  upd : ∀ (s : State) x, Holds G s → Holds G { s with lanes := x }

class ClosedCams (G : State → Prop) : Prop where
  upd : ∀ (s : State) x, Holds G s → Holds G { s with cams := x }

class ClosedLp (G : State → Prop) : Prop where
  upd : ∀ (s : State) x, Holds G s → Holds G { s with lp := x }

class ClosedSeq (G : State → Prop) : Prop where
  upd : ∀ (s : State) x, Holds G s → Holds G { s with seq := x }

class ClosedField (G : State → Prop) : Prop where
  upd : ∀ (s : State) x, Holds G s → Holds G { s with field := x }

class ClosedLink (G : State → Prop) : Prop where
  upd : ∀ (s : State) x, Holds G s → Holds G { s with link := x }

class ClosedAud (G : State → Prop) : Prop where
  upd : ∀ (s : State) x, Holds G s → Holds G { s with aud := x }

class ClosedLoft (G : State → Prop) : Prop where
  upd : ∀ (s : State) x, Holds G s → Holds G { s with loft := x }

class ClosedNtm (G : State → Prop) : Prop where
  upd : ∀ (s : State) x, Holds G s → Holds G { s with ntm := x }

class ClosedGts (G : State → Prop) : Prop where
  upd : ∀ (s : State) x, Holds G s → Holds G { s with gts := x }

class ClosedClient (G : State → Prop) : Prop where
  upd : ∀ (s : State) x, Holds G s → Holds G { s with client := x }

class ClosedCores (G : State → Prop) : Prop where
  upd : ∀ (s : State) x, Holds G s → Holds G { s with cores := x }

class ClosedLists (G : State → Prop) : Prop where
  upd : ∀ (s : State) x, Holds G s → Holds G { s with lists := x }

class ClosedJobs (G : State → Prop) : Prop where
  upd : ∀ (s : State) x, Holds G s → Holds G { s with jobs := x }

class ClosedPtns (G : State → Prop) : Prop where
  upd : ∀ (s : State) x, Holds G s → Holds G { s with ptns := x }

class ClosedFlock (G : State → Prop) : Prop where
  upd : ∀ (s : State) x, Holds G s → Holds G { s with flock := x }

class ClosedAdp (G : State → Prop) : Prop where
  upd : ∀ (s : State) x, Holds G s → Holds G { s with adp := x }

class ClosedSdg (G : State → Prop) : Prop where
  upd : ∀ (s : State) x, Holds G s → Holds G { s with sdg := x }

class ClosedStage (G : State → Prop) : Prop where
  upd : ∀ (s : State) x, Holds G s → Holds G { s with stage := x }

class ClosedSync (G : State → Prop) : Prop where
  upd : ∀ (s : State) x, Holds G s → Holds G { s with sync := x }

class ClosedClk (G : State → Prop) : Prop where
  upd : ∀ (s : State) x, Holds G s → Holds G { s with clk := x }

class ClosedBoot (G : State → Prop) : Prop where
  upd : ∀ (s : State) x, Holds G s → Holds G { s with boot := x }

class ClosedReset (G : State → Prop) : Prop where
  upd : ∀ (s : State) m c cores b host free, (Memory.wf s.host = true → Memory.wf host = true) → Holds G s →
    Holds G (State.resetOf m c cores b host free s.pending)

theorem Holds.regs [ClosedRegs G] {s : State} {x} (hx : sparseWf regDefault s.regs = true → sparseWf regDefault x = true) (h : Holds G s) : Holds G { s with regs := x } := ClosedRegs.upd _ _ hx h

theorem Holds.staged [ClosedStaged G] {s : State} {x} (h : Holds G s) : Holds G { s with staged := x } := ClosedStaged.upd _ _ h

theorem Holds.pairs [ClosedPairs G] {s : State} {x} (h : Holds G s) : Holds G { s with pairs := x } := ClosedPairs.upd _ _ h

theorem Holds.holding [ClosedHolding G] {s : State} {x} (h : Holds G s) : Holds G { s with holding := x } := ClosedHolding.upd _ _ h

theorem Holds.dtime [ClosedDtime G] {s : State} {x} (hx : s.dtime % 4 = 0 → x % 4 = 0) (h : Holds G s) : Holds G { s with dtime := x } := ClosedDtime.upd _ _ hx h

theorem Holds.mem [ClosedMem G] {s : State} {x} (hx : Memory.wf s.mem = true → Memory.wf x = true) (h : Holds G s) : Holds G { s with mem := x } := ClosedMem.upd _ _ hx h

theorem Holds.larder [ClosedLarder G] {s : State} {x} (hx : Memory.wf s.larder = true → Memory.wf x = true) (h : Holds G s) : Holds G { s with larder := x } := ClosedLarder.upd _ _ hx h

theorem Holds.host [ClosedHost G] {s : State} {x} (hx : Memory.wf s.host = true → Memory.wf x = true) (h : Holds G s) : Holds G { s with host := x } := ClosedHost.upd _ _ hx h

theorem Holds.free [ClosedFree G] {s : State} {x} (h : Holds G s) : Holds G { s with free := x } := ClosedFree.upd _ _ h

theorem Holds.module [ClosedModule G] {s : State} {x} (h : Holds G s) : Holds G { s with module := x } := ClosedModule.upd _ _ h

theorem Holds.cel [ClosedCel G] {s : State} {x} (h : Holds G s) : Holds G { s with cel := x } := ClosedCel.upd _ _ h

theorem Holds.pos [ClosedPos G] {s : State} {x} (h : Holds G s) : Holds G { s with pos := x } := ClosedPos.upd _ _ h

theorem Holds.lanes [ClosedLanes G] {s : State} {x} (h : Holds G s) : Holds G { s with lanes := x } := ClosedLanes.upd _ _ h

theorem Holds.cams [ClosedCams G] {s : State} {x} (h : Holds G s) : Holds G { s with cams := x } := ClosedCams.upd _ _ h

theorem Holds.lp [ClosedLp G] {s : State} {x} (h : Holds G s) : Holds G { s with lp := x } := ClosedLp.upd _ _ h

theorem Holds.seq [ClosedSeq G] {s : State} {x} (h : Holds G s) : Holds G { s with seq := x } := ClosedSeq.upd _ _ h

theorem Holds.field [ClosedField G] {s : State} {x} (h : Holds G s) : Holds G { s with field := x } := ClosedField.upd _ _ h

theorem Holds.link [ClosedLink G] {s : State} {x} (h : Holds G s) : Holds G { s with link := x } := ClosedLink.upd _ _ h

theorem Holds.aud [ClosedAud G] {s : State} {x} (h : Holds G s) : Holds G { s with aud := x } := ClosedAud.upd _ _ h

theorem Holds.loft [ClosedLoft G] {s : State} {x} (h : Holds G s) : Holds G { s with loft := x } := ClosedLoft.upd _ _ h

theorem Holds.ntm [ClosedNtm G] {s : State} {x} (h : Holds G s) : Holds G { s with ntm := x } := ClosedNtm.upd _ _ h

theorem Holds.gts [ClosedGts G] {s : State} {x} (h : Holds G s) : Holds G { s with gts := x } := ClosedGts.upd _ _ h

theorem Holds.client [ClosedClient G] {s : State} {x} (h : Holds G s) : Holds G { s with client := x } := ClosedClient.upd _ _ h

theorem Holds.cores [ClosedCores G] {s : State} {x} (h : Holds G s) : Holds G { s with cores := x } := ClosedCores.upd _ _ h

theorem Holds.lists [ClosedLists G] {s : State} {x} (h : Holds G s) : Holds G { s with lists := x } := ClosedLists.upd _ _ h

theorem Holds.jobs [ClosedJobs G] {s : State} {x} (h : Holds G s) : Holds G { s with jobs := x } := ClosedJobs.upd _ _ h

theorem Holds.ptns [ClosedPtns G] {s : State} {x} (h : Holds G s) : Holds G { s with ptns := x } := ClosedPtns.upd _ _ h

theorem Holds.flock [ClosedFlock G] {s : State} {x} (h : Holds G s) : Holds G { s with flock := x } := ClosedFlock.upd _ _ h

theorem Holds.adp [ClosedAdp G] {s : State} {x} (h : Holds G s) : Holds G { s with adp := x } := ClosedAdp.upd _ _ h

theorem Holds.sdg [ClosedSdg G] {s : State} {x} (h : Holds G s) : Holds G { s with sdg := x } := ClosedSdg.upd _ _ h

theorem Holds.stage [ClosedStage G] {s : State} {x} (h : Holds G s) : Holds G { s with stage := x } := ClosedStage.upd _ _ h

theorem Holds.sync [ClosedSync G] {s : State} {x} (h : Holds G s) : Holds G { s with sync := x } := ClosedSync.upd _ _ h

theorem Holds.clk [ClosedClk G] {s : State} {x} (h : Holds G s) : Holds G { s with clk := x } := ClosedClk.upd _ _ h

theorem Holds.boot [ClosedBoot G] {s : State} {x} (h : Holds G s) : Holds G { s with boot := x } := ClosedBoot.upd _ _ h

theorem Holds.reset [ClosedReset G] {s : State} {m c cores b host free pending}
    (hh : Memory.wf s.host = true → Memory.wf host = true) (hp : pending = s.pending) (h : Holds G s) :
    Holds G (State.resetOf m c cores b host free pending) := by
  subst hp; exact ClosedReset.upd _ _ _ _ _ _ _ hh h

theorem Holds.cel_lp [ClosedCel G] [ClosedLp G] {s : State} {x0 x1} (h : Holds G s) :
    Holds G { s with cel := x0, lp := x1 } :=
  ClosedLp.upd { s with cel := x0 } x1 (ClosedCel.upd s x0 (h))

theorem Holds.client_boot [ClosedClient G] [ClosedBoot G] {s : State} {x0 x1} (h : Holds G s) :
    Holds G { s with client := x0, boot := x1 } :=
  ClosedBoot.upd { s with client := x0 } x1 (ClosedClient.upd s x0 (h))

theorem Holds.dtime_gts [ClosedDtime G] [ClosedGts G] {s : State} {x0 x1} (h0 : s.dtime % 4 = 0 → x0 % 4 = 0) (h : Holds G s) :
    Holds G { s with dtime := x0, gts := x1 } :=
  ClosedGts.upd { s with dtime := x0 } x1 (ClosedDtime.upd s x0 h0 (h))

theorem Holds.dtime_pos_field [ClosedDtime G] [ClosedPos G] [ClosedField G] {s : State} {x0 x1 x2} (h0 : s.dtime % 4 = 0 → x0 % 4 = 0) (h : Holds G s) :
    Holds G { s with dtime := x0, pos := x1, field := x2 } :=
  ClosedField.upd { s with dtime := x0, pos := x1 } x2 (ClosedPos.upd { s with dtime := x0 } x1 (ClosedDtime.upd s x0 h0 (h)))

theorem Holds.field_boot [ClosedField G] [ClosedBoot G] {s : State} {x0 x1} (h : Holds G s) :
    Holds G { s with field := x0, boot := x1 } :=
  ClosedBoot.upd { s with field := x0 } x1 (ClosedField.upd s x0 (h))

theorem Holds.field_link [ClosedField G] [ClosedLink G] {s : State} {x0 x1} (h : Holds G s) :
    Holds G { s with field := x0, link := x1 } :=
  ClosedLink.upd { s with field := x0 } x1 (ClosedField.upd s x0 (h))

theorem Holds.larder_cores [ClosedLarder G] [ClosedCores G] {s : State} {x0 x1} (h0 : Memory.wf s.larder = true → Memory.wf x0 = true) (h : Holds G s) :
    Holds G { s with larder := x0, cores := x1 } :=
  ClosedCores.upd { s with larder := x0 } x1 (ClosedLarder.upd s x0 h0 (h))

theorem Holds.lp_cores_lists_jobs_flock [ClosedLp G] [ClosedCores G] [ClosedLists G] [ClosedJobs G] [ClosedFlock G]
    {s : State} {x0 x1 x2 x3 x4} (h : Holds G s) :
    Holds G { s with lp := x0, cores := x1, lists := x2, jobs := x3, flock := x4 } :=
  ClosedFlock.upd { s with lp := x0, cores := x1, lists := x2, jobs := x3 } x4
    (ClosedJobs.upd { s with lp := x0, cores := x1, lists := x2 } x3
      (ClosedLists.upd { s with lp := x0, cores := x1 } x2 (ClosedCores.upd { s with lp := x0 } x1 (ClosedLp.upd s x0 h))))

theorem Holds.mem_cel [ClosedMem G] [ClosedCel G] {s : State} {x0 x1} (h0 : Memory.wf s.mem = true → Memory.wf x0 = true) (h : Holds G s) :
    Holds G { s with mem := x0, cel := x1 } :=
  ClosedCel.upd { s with mem := x0 } x1 (ClosedMem.upd s x0 h0 (h))

theorem Holds.mem_larder_cel_boot [ClosedMem G] [ClosedLarder G] [ClosedCel G] [ClosedBoot G] {s : State} {x0 x1 x2 x3} (h0 : Memory.wf s.mem = true → Memory.wf x0 = true) (h1 : Memory.wf s.larder = true → Memory.wf x1 = true) (h : Holds G s) :
    Holds G { s with mem := x0, larder := x1, cel := x2, boot := x3 } :=
  ClosedBoot.upd { s with mem := x0, larder := x1, cel := x2 } x3 (ClosedCel.upd { s with mem := x0, larder := x1 } x2 (ClosedLarder.upd { s with mem := x0 } x1 h1 (ClosedMem.upd s x0 h0 (h))))

theorem Holds.module_boot [ClosedModule G] [ClosedBoot G] {s : State} {x0 x1} (h : Holds G s) :
    Holds G { s with module := x0, boot := x1 } :=
  ClosedBoot.upd { s with module := x0 } x1 (ClosedModule.upd s x0 (h))

theorem Holds.seq_sdg [ClosedSeq G] [ClosedSdg G] {s : State} {x0 x1} (h : Holds G s) :
    Holds G { s with seq := x0, sdg := x1 } :=
  ClosedSdg.upd { s with seq := x0 } x1 (ClosedSeq.upd s x0 (h))

theorem Holds.staged_stage [ClosedStaged G] [ClosedStage G] {s : State} {x0 x1} (h : Holds G s) :
    Holds G { s with staged := x0, stage := x1 } :=
  ClosedStage.upd { s with staged := x0 } x1 (ClosedStaged.upd s x0 (h))

end Sys2Proof.Machine
end

