-- ==== Sys2Proof/Laws/Ops.lean ====
section
/-! SUPPORT. Laws/Ops.lean: what the functions of Machine/Ops.lean can change (Laws/Closure.lean). -/

namespace Sys2Proof.Machine

variable {G : State → Prop}

theorem State.setReg_holds [ClosedRegs G] {s off v} (hs : Holds G s) :
    Holds G (State.setReg s off v) := by
  unfold State.setReg
  exact Holds.regs (fun h => sparsePut_wf h) hs

theorem State.put_holds [ClosedRegs G] {s f v} (hs : Holds G s) :
    Holds G (State.put s f v) := by
  unfold State.put
  exact State.setReg_holds hs

theorem State.raise_holds [ClosedRegs G] {s f} (hs : Holds G s) :
    Holds G (State.raise s f) := by
  unfold State.raise
  exact State.put_holds hs

theorem State.latchBits_holds [ClosedRegs G] {s f v} (hs : Holds G s) :
    Holds G (State.latchBits s f v) := by
  unfold State.latchBits
  exact State.put_holds (State.put_holds hs)

theorem State.latch_holds [ClosedRegs G] {s f} (hs : Holds G s) :
    Holds G (State.latch s f) := by
  unfold State.latch
  exact State.latchBits_holds hs

theorem State.newTick_holds [ClosedRegs G] {s} (hs : Holds G s) :
    Holds G (State.newTick s) := by
  unfold State.newTick
  exact Holds.regs (fun h => sparseWf_filter h) hs

theorem State.drop_holds [ClosedRegs G] {s f} (hs : Holds G s) :
    Holds G (State.drop s f) := by
  unfold State.drop
  exact State.put_holds hs

theorem State.putFlag_holds [ClosedRegs G] {s f b} (hs : Holds G s) :
    Holds G (State.putFlag s f b) := by
  unfold State.putFlag
  exact State.put_holds hs

theorem State.bumpBy_holds [ClosedRegs G] {s f n} (hs : Holds G s) :
    Holds G (State.bumpBy s f n) := by
  unfold State.bumpBy
  exact State.put_holds hs

theorem State.bump_holds [ClosedRegs G] {s f} (hs : Holds G s) :
    Holds G (State.bump s f) := by
  unfold State.bump
  exact State.bumpBy_holds hs

theorem State.bumpNow_holds [ClosedRegs G] {s f} (hs : Holds G s) :
    Holds G (State.bumpNow s f) := by
  unfold State.bumpNow
  exact State.bump_holds (State.bump_holds hs)

theorem State.clearCount_holds [ClosedRegs G] {s f} (hs : Holds G s) :
    Holds G (State.clearCount s f) := by
  unfold State.clearCount
  exact State.put_holds hs

theorem State.bumpWrap_holds [ClosedRegs G] {s f} (hs : Holds G s) :
    Holds G (State.bumpWrap s f) := by
  unfold State.bumpWrap
  exact State.put_holds hs

theorem State.putInt_holds [ClosedRegs G] {s f z} (hs : Holds G s) :
    Holds G (State.putInt s f z) := by
  unfold State.putInt
  exact State.put_holds hs

theorem State.put64_holds [ClosedRegs G] {s lo hi v} (hs : Holds G s) :
    Holds G (State.put64 s lo hi v) := by
  unfold State.put64
  exact State.put_holds (State.put_holds hs)

theorem State.clearCounts_holds [ClosedRegs G] {s fs} (hs : Holds G s) :
    Holds G (State.clearCounts s fs) := by
  unfold State.clearCounts
  exact Holds.foldl hs (fun y1 y2 h1 => State.clearCount_holds h1)

theorem State.dropAll_holds [ClosedRegs G] {s fs} (hs : Holds G s) :
    Holds G (State.dropAll s fs) := by
  unfold State.dropAll
  exact Holds.foldl hs (fun y1 y2 h1 => State.drop_holds h1)

theorem State.peak_holds [ClosedRegs G] {s f v} (hs : Holds G s) :
    Holds G (State.peak s f v) := by
  unfold State.peak
  exact Holds.ite (State.put_holds hs) hs

theorem State.withStage_holds [ClosedRegs G] {s} (hs : Holds G s) :
    Holds G (State.withStage s) := by
  unfold State.withStage
  exact Holds.foldl hs (fun y1 y2 h1 => State.setReg_holds h1)

theorem State.draw_holds [ClosedFree G] {s} (hs : Holds G s) :
    Holds G (State.draw s).2 := by
  unfold State.draw
  exact Holds.free hs

theorem State.hostWrite_holds [ClosedHost G] {s a bs} (hs : Holds G s) :
    Holds G (State.hostWrite s a bs) := by
  unfold State.hostWrite
  exact Holds.host (fun h => Memory.write_wf _ _ _ h) hs

theorem State.loftPush_holds [ClosedRegs G] [ClosedLoft G] {s i} (hs : Holds G s) :
    Holds G (State.loftPush s i) := by
  unfold State.loftPush
  extract_lets
  exact Holds.ite (Holds.loft hs) (State.latch_holds (State.bump_holds (Holds.loft hs)))

theorem State.loftEvent_holds [ClosedRegs G] [ClosedLoft G] {s code data} (hs : Holds G s) :
    Holds G (State.loftEvent s code data) := by
  unfold State.loftEvent
  exact State.loftPush_holds hs

theorem State.loftValue_holds [ClosedRegs G] [ClosedLoft G] {s record v part} (hs : Holds G s) :
    Holds G (State.loftValue s record v part) := by
  unfold State.loftValue
  exact State.loftPush_holds hs

theorem State.sendDown_holds [ClosedLink G] {s m} (hs : Holds G s) :
    Holds G (State.sendDown s m) := by
  unfold State.sendDown
  extract_lets
  exact Holds.link hs

theorem State.setCauses_holds [ClosedRegs G] [ClosedLink G] [ClosedLoft G] {s new} (hs : Holds G s) :
    Holds G (State.setCauses s new) := by
  unfold State.setCauses
  extract_lets _ t1 t2
  have ht1 : Holds G t1 := State.latchBits_holds (State.put_holds hs)
  have ht2 : Holds G t2 := Holds.ite (State.sendDown_holds ht1) (Holds.ite (State.sendDown_holds ht1) ht1)
  clear_value t1 t2
  exact Holds.ite hs (State.loftEvent_holds ht2)

theorem State.lineStop_holds [ClosedRegs G] [ClosedLink G] [ClosedLoft G] {s c} (hs : Holds G s) :
    Holds G (State.lineStop s c) := by
  unfold State.lineStop
  extract_lets
  exact State.latchBits_holds (State.setCauses_holds hs)

theorem State.resetFrom_holds [ClosedField G] [ClosedReset G] {s} (hs : Holds G s) :
    Holds G (State.resetFrom s) := by
  unfold State.resetFrom
  extract_lets t1
  have ht1 : Holds G t1 := Holds.reset (fun h => h) rfl hs
  clear_value t1
  exact Holds.field ht1

theorem State.powerOff_holds [ClosedField G] [ClosedBoot G] [ClosedReset G] {s} (hs : Holds G s) :
    Holds G (State.powerOff s) := by
  unfold State.powerOff
  extract_lets t1 _ _
  have ht1 : Holds G t1 := State.resetFrom_holds hs
  clear_value t1
  exact Holds.field_boot ht1

theorem State.accessErr_holds [ClosedRegs G] {s off} (hs : Holds G s) :
    Holds G (State.accessErr s off) := by
  unfold State.accessErr
  extract_lets t1
  have ht1 : Holds G t1 := Holds.ite (State.put_holds hs) hs
  clear_value t1
  exact State.bump_holds ht1

theorem State.onRails_holds  {s f} (hs : Holds G s) (hf : ∀ y0, Holds G y0 → Holds G (f y0)) :
    Holds G (State.onRails s f) := by
  unfold State.onRails
  exact Holds.ite (hf _ hs) hs

theorem State.written_holds [ClosedRegs G] {s off f} (hs : Holds G s) (hf : ∀ y0, Holds G y0 → Holds G (f y0)) :
    Holds G (State.written s off f) := by
  unfold State.written
  exact Holds.ite hs (Holds.ite (State.accessErr_holds hs) (hf _ hs))

end Sys2Proof.Machine
end

