-- ==== Sys2Proof/Laws/Memory.lean ====
section
/-! SUPPORT. Laws/Memory.lean: what the functions of Machine/Memory.lean can change (Laws/Closure.lean). -/

namespace Sys2Proof.Machine

variable {G : State → Prop}

theorem State.hardFault_holds [ClosedRegs G] [ClosedCel G] [ClosedLoft G] {s ag a h} (hs : Holds G s) :
    Holds G (State.hardFault s ag a h) := by
  unfold State.hardFault
  split
  · extract_lets t1 t2 t3 t4 _
    have ht1 : Holds G t1 := State.put64_holds hs
    have ht2 : Holds G t2 := State.put_holds (State.put_holds (State.put_holds (State.put_holds (State.put_holds ht1))))
    have ht3 : Holds G t3 := State.bump_holds (State.latch_holds (State.put_holds ht2))
    have ht4 : Holds G t4 := State.loftEvent_holds ht3
    clear_value t1 t2 t3 t4
    split
    · exact ht4
    · exact Holds.ite ht4 (Holds.cel ht4)

theorem State.checkWord_holds [ClosedRegs G] [ClosedCel G] [ClosedLoft G] {s ag a h} (hs : Holds G s) :
    Holds G (State.checkWord s ag a h).2 := by
  unfold State.checkWord
  split
  · exact hs
  · extract_lets _ _ t1 t2
    have ht1 : Holds G t1 := Holds.cel hs
    have ht2 : Holds G t2 := State.latch_holds ht1
    clear_value t1 t2
    split
    · exact State.hardFault_holds hs
    · split
      · exact hs
      · split
        · exact State.bump_holds ht2
        · exact State.bump_holds ht2

theorem State.checkWords_holds [ClosedRegs G] [ClosedCel G] [ClosedLoft G] {s ag a h a4} (hs : Holds G s) :
    Holds G (State.checkWords s ag a h a4).2 := by
  induction a4 generalizing s ag a h with
  | nil =>
    unfold State.checkWords
    exact hs
  | cons x xs ih =>
    unfold State.checkWords
    split
    · exact ih (Holds.of_pair (by assumption) (State.checkWord_holds hs))
    · exact ih (Holds.of_pair (by assumption) (State.checkWord_holds hs))

theorem State.pantryError_holds [ClosedRegs G] [ClosedCel G] {s die set way} (hs : Holds G s) :
    Holds G (State.pantryError s die set way) := by
  unfold State.pantryError
  extract_lets _ _ t1 _
  have ht1 : Holds G t1 := Holds.cel hs
  clear_value t1
  exact Holds.ite (Holds.ite ht1 (State.bump_holds (Holds.cel ht1))) (Holds.cel ht1)

theorem State.pantryCount_holds [ClosedRegs G] {s ag hit} (hs : Holds G s) :
    Holds G (State.pantryCount s ag hit) := by
  unfold State.pantryCount
  split
  · exact State.bump_holds hs
  · exact hs

theorem State.enterLine_holds [ClosedCel G] {s ch cb way} (hs : Holds G s) :
    Holds G (State.enterLine s ch cb way) := by
  unfold State.enterLine
  extract_lets
  exact Holds.cel hs

theorem State.lookup_holds [ClosedRegs G] [ClosedCel G] {s ag ch cb} (hs : Holds G s) :
    Holds G (State.lookup s ag ch cb).2 := by
  unfold State.lookup
  split
  · extract_lets t1 t2 _
    have ht1 : Holds G t1 := State.pantryCount_holds hs
    have ht2 : Holds G t2 := State.pantryError_holds (State.latch_holds (State.bump_holds ht1))
    clear_value t1 t2
    split
    · exact ht2
    · exact Holds.cel ht1
  · extract_lets t3
    have ht3 : Holds G t3 := State.pantryCount_holds hs
    clear_value t3
    exact ht3

theorem State.look_holds [ClosedRegs G] [ClosedCel G] {s ag a2} (hs : Holds G s) :
    Holds G (State.look s ag a2).2 := by
  unfold State.look
  split
  · exact State.lookup_holds hs
  · exact hs

theorem State.fetchLine_holds [ClosedRegs G] [ClosedCel G] [ClosedLoft G] {s ag a h way} (hs : Holds G s) :
    Holds G (State.fetchLine s ag a h way).2 := by
  unfold State.fetchLine
  split
  · exact State.enterLine_holds (Holds.of_pair (by assumption) (State.checkWords_holds hs))
  · exact State.checkWords_holds hs

theorem State.roomWait_holds [ClosedRegs G] {s ag h} (hs : Holds G s) :
    Holds G (State.roomWait s ag h) := by
  unfold State.roomWait
  split
  · exact Holds.ite hs (State.bump_holds hs)
  · exact Holds.ite hs (State.bump_holds hs)
  · exact Holds.ite hs (State.bump_holds hs)
  · exact Holds.ite hs (State.bump_holds hs)
  · exact hs

theorem State.readAt_holds [ClosedRegs G] [ClosedCel G] [ClosedLoft G] {s ag a h k} (hs : Holds G s) :
    Holds G (State.readAt s ag a h k).2 := by
  unfold State.readAt
  extract_lets t1
  have ht1 : Holds G t1 := State.roomWait_holds hs
  clear_value t1
  split
  · exact State.hardFault_holds ht1
  · split
    · exact Holds.of_pair (by assumption) (State.look_holds ht1)
    · exact State.checkWords_holds (Holds.of_pair (by assumption) (State.look_holds ht1))
    · exact State.fetchLine_holds (Holds.of_pair (by assumption) (State.look_holds ht1))

theorem State.loadWords_holds [ClosedRegs G] [ClosedCel G] [ClosedLoft G] {s ag a2 a3 a4} (hs : Holds G s) :
    Holds G (State.loadWords s ag a2 a3 a4).2.2 := by
  induction a2 generalizing s ag a3 a4 with
  | zero =>
    unfold State.loadWords
    exact hs
  | succ k ih =>
    unfold State.loadWords
    split
    · exact hs
    · split
      · exact hs
      · extract_lets
        split
        · extract_lets
          split
          · exact Holds.of_triple (by assumption) (ih (Holds.of_pair (by assumption) (State.readAt_holds hs)))
        · exact Holds.of_pair (by assumption) (State.readAt_holds hs)

theorem State.load_holds [ClosedRegs G] [ClosedCel G] [ClosedLoft G] {s ag a n} (hs : Holds G s) :
    Holds G (State.load s ag a n).2.2 := by
  unfold State.load
  extract_lets
  split
  · exact Holds.of_triple (by assumption) (State.loadWords_holds hs)

theorem State.writeHome_holds [ClosedMem G] [ClosedCel G] {s h bs} (hs : Holds G s) :
    Holds G (State.writeHome s h bs) := by
  unfold State.writeHome
  extract_lets
  exact Holds.mem_cel (fun h => Memory.write_wf _ _ _ h) hs

theorem State.writeAt_holds [ClosedRegs G] [ClosedMem G] [ClosedCel G] [ClosedLoft G] {s ag a h bs} (hs : Holds G s) :
    Holds G (State.writeAt s ag a h bs).2 := by
  unfold State.writeAt
  extract_lets t1
  have ht1 : Holds G t1 := State.roomWait_holds hs
  clear_value t1
  split
  · exact State.hardFault_holds ht1
  · split
    · split
      · split
        · refine State.fetchLine_holds ?_
          refine State.writeHome_holds ?_
          refine Holds.of_pair (by assumption) ?_
          split
          · exact Holds.of_pair (by assumption) (State.look_holds ht1)
          · exact State.checkWords_holds (Holds.of_pair (by assumption) (State.look_holds ht1))
        · refine State.writeHome_holds ?_
          refine Holds.of_pair (by assumption) ?_
          split
          · exact Holds.of_pair (by assumption) (State.look_holds ht1)
          · exact State.checkWords_holds (Holds.of_pair (by assumption) (State.look_holds ht1))
      · split
        · exact Holds.of_pair (by assumption) (State.look_holds ht1)
        · exact State.checkWords_holds (Holds.of_pair (by assumption) (State.look_holds ht1))

theorem State.storeLines_holds [ClosedRegs G] [ClosedMem G] [ClosedCel G] [ClosedLoft G] {s ag a2 a3 a4} (hs : Holds G s) :
    Holds G (State.storeLines s ag a2 a3 a4).2 := by
  induction a2 generalizing s ag a3 a4 with
  | zero =>
    unfold State.storeLines
    exact hs
  | succ k ih =>
    unfold State.storeLines
    split
    · exact hs
    · split
      · exact hs
      · extract_lets
        split
        · exact ih (Holds.of_pair (by assumption) (State.writeAt_holds hs))
        · exact State.writeAt_holds hs

theorem State.store_holds [ClosedRegs G] [ClosedMem G] [ClosedCel G] [ClosedLoft G] {s ag a bs} (hs : Holds G s) :
    Holds G (State.store s ag a bs).2 := by
  unfold State.store
  exact State.storeLines_holds hs

theorem State.storeAll_holds [ClosedRegs G] [ClosedMem G] [ClosedCel G] [ClosedLoft G] {s ag base a3} (hs : Holds G s) :
    Holds G (State.storeAll s ag base a3).2 := by
  induction a3 generalizing s ag base with
  | nil =>
    unfold State.storeAll
    exact hs
  | cons x xs ih =>
    unfold State.storeAll
    split
    · exact ih (Holds.of_pair (by assumption) (State.store_holds hs))
    · exact Holds.of_pair (by assumption) (State.store_holds hs)

theorem State.loadAll_holds [ClosedRegs G] [ClosedCel G] [ClosedLoft G] {s ag a2} (hs : Holds G s) :
    Holds G (State.loadAll s ag a2).2.2 := by
  induction a2 generalizing s ag with
  | nil =>
    unfold State.loadAll
    exact hs
  | cons x xs ih =>
    unfold State.loadAll
    split
    · split
      · exact Holds.of_triple (by assumption) (ih (Holds.of_triple (by assumption) (State.load_holds hs)))
    · exact Holds.of_triple (by assumption) (State.load_holds hs)

theorem State.storeBack_holds [ClosedMem G] [ClosedCel G] {s ag a bs} (hs : Holds G s) :
    Holds G (State.storeBack s ag a bs) := by
  unfold State.storeBack
  split
  · exact hs
  · exact State.writeHome_holds hs

theorem State.addrFor_holds [ClosedFree G] {s ch cb} (hs : Holds G s) :
    Holds G (State.addrFor s ch cb).2 := by
  unfold State.addrFor
  split
  · exact hs
  · split
    · exact Holds.of_pair (by assumption) (State.draw_holds hs)

theorem State.copyReads_holds [ClosedRegs G] [ClosedFree G] [ClosedCel G] [ClosedLoft G] {s ch page a3} (hs : Holds G s) :
    Holds G (State.copyReads s ch page a3).2 := by
  induction a3 generalizing s ch page with
  | nil =>
    unfold State.copyReads
    exact hs
  | cons x xs ih =>
    unfold State.copyReads
    split
    · split
      · exact ih (Holds.of_pair (by assumption) (State.checkWord_holds (Holds.of_pair (by assumption) (State.addrFor_holds hs))))
      · split
        · exact Holds.of_pair (by assumption) (ih (Holds.of_pair (by assumption) (State.checkWord_holds (Holds.of_pair (by assumption) (State.addrFor_holds hs)))))

theorem State.addRet_holds [ClosedCel G] {s e} (hs : Holds G s) :
    Holds G (State.addRet s e) := by
  unfold State.addRet
  extract_lets
  exact Holds.cel hs

theorem State.retire_holds [ClosedRegs G] [ClosedMem G] [ClosedFree G] [ClosedCel G] [ClosedLoft G] {s ch page} (hs : Holds G s) :
    Holds G (State.retire s ch page).2 := by
  unfold State.retire
  extract_lets used free src e0 t1
  split
  · extract_lets dst
    split
    rename_i lost s1 h1
    have hs1 : Holds G s1 := Holds.of_pair h1 (State.copyReads_holds hs)
    extract_lets m1 m2 e x s2 s3
    have hs2 : Holds G s2 :=
      Holds.mem_cel (fun h => Memory.foldl_write_wf _ _ _ _ (copyPage_wf _ _ h)) hs1
    exact State.loftEvent_holds (State.bump_holds (State.put_holds (State.addRet_holds hs2)))
  · exact State.loftEvent_holds (State.latch_holds (State.addRet_holds hs))

theorem State.celRetRead_holds [ClosedRegs G] {s index} (hs : Holds G s) :
    Holds G (State.celRetRead s index) := by
  unfold State.celRetRead
  extract_lets t1 _
  have ht1 : Holds G t1 := State.put_holds hs
  clear_value t1
  exact State.setReg_holds ht1

theorem execCelRetRead_holds [ClosedRegs G] {index s} (hs : Holds G s) :
    HoldsOut G (execCelRetRead index s) := by
  unfold execCelRetRead
  exact HoldsOut.next (State.written_holds hs (fun y1 h1 => State.celRetRead_holds h1))

theorem State.waysCommit_holds [ClosedCel G] {s old} (hs : Holds G s) :
    Holds G (State.waysCommit s old) := by
  unfold State.waysCommit
  extract_lets
  exact Holds.ite hs (Holds.cel hs)

end Sys2Proof.Machine
end

