-- ==== Sys2Proof/Laws/Sync.lean ====
section
/-! SUPPORT. Laws/Sync.lean: what the functions of Machine/Sync.lean can change (Laws/Closure.lean). -/

namespace Sys2Proof.Machine

variable {G : State → Prop}

theorem State.setSo_holds [ClosedSync G] {s o x} (hs : Holds G s) :
    Holds G (State.setSo s o x) := by
  unfold State.setSo
  extract_lets
  exact Holds.sync hs

theorem State.wake_holds [ClosedFree G] [ClosedSync G] {s a o st} (hs : Holds G s) :
    Holds G (State.wake s a o st) := by
  unfold State.wake
  extract_lets
  split
  · extract_lets t1 _ _
    have ht1 : Holds G t1 := Holds.ite (Holds.of_pair (by assumption) (State.draw_holds hs)) hs
    clear_value t1
    exact Holds.sync ht1

theorem State.wakeAll_holds [ClosedFree G] [ClosedSync G] {s ws o st} (hs : Holds G s) :
    Holds G (State.wakeAll s ws o st) := by
  unfold State.wakeAll
  exact Holds.foldl hs (fun y1 y2 h1 => State.wake_holds h1)

theorem State.addHold_holds [ClosedSync G] {s a o n} (hs : Holds G s) :
    Holds G (State.addHold s a o n) := by
  unfold State.addHold
  refine Holds.ite hs ?_
  split
  · extract_lets
    exact Holds.sync hs
  · extract_lets
    exact Holds.sync hs

theorem State.lowerHold_holds [ClosedSync G] {s a o n} (hs : Holds G s) :
    Holds G (State.lowerHold s a o n) := by
  unfold State.lowerHold
  split
  · exact hs
  · extract_lets
    exact Holds.sync hs

theorem State.grant_holds [ClosedFree G] [ClosedSync G] {s o a2} (hs : Holds G s) :
    Holds G (State.grant s o a2) := by
  induction a2 generalizing s o with
  | nil =>
    unfold State.grant
    extract_lets
    exact State.setSo_holds hs
  | cons x xs ih =>
    unfold State.grant
    extract_lets _ _ t1
    have ht1 : Holds G t1 := State.addHold_holds (State.setSo_holds hs)
    clear_value t1
    exact Holds.ite (ih (State.wake_holds ht1)) (State.setSo_holds hs)

theorem State.grantFreed_holds [ClosedFree G] [ClosedSync G] {s} (hs : Holds G s) :
    Holds G (State.grantFreed s) := by
  unfold State.grantFreed
  exact Holds.foldl hs (fun y1 y2 h1 => Holds.ite (State.grant_holds h1) h1)

theorem State.release_holds [ClosedFree G] [ClosedSync G] {s o met} (hs : Holds G s) :
    Holds G (State.release s o met) := by
  unfold State.release
  extract_lets _ t1
  have ht1 : Holds G t1 := State.setSo_holds hs
  clear_value t1
  exact State.wakeAll_holds ht1

theorem State.arrive_holds [ClosedFree G] [ClosedSync G] {s o} (hs : Holds G s) :
    Holds G (State.arrive s o) := by
  unfold State.arrive
  extract_lets _ _ t1
  have ht1 : Holds G t1 := State.setSo_holds hs
  clear_value t1
  exact Holds.ite (State.wakeAll_holds ht1) (State.setSo_holds hs)

theorem State.badSignal_holds [ClosedRegs G] {s} (hs : Holds G s) :
    Holds G (State.badSignal s) := by
  unfold State.badSignal
  exact State.bump_holds hs

theorem State.signalOk_holds [ClosedRegs G] [ClosedFree G] [ClosedSync G] {s ag o a} (hs : Holds G s) :
    Holds G (State.signalOk s ag o a) := by
  unfold State.signalOk
  extract_lets _ t1 _ t2 _ _ t3
  have ht1 : Holds G t1 := State.lowerHold_holds hs
  have ht2 : Holds G t2 := Holds.ite (State.bump_holds ht1) ht1
  have ht3 : Holds G t3 := Holds.ite (State.bump_holds hs) hs
  clear_value t1 t2 t3
  split
  · exact State.grant_holds (State.setSo_holds ht2)
  · exact State.release_holds (State.setSo_holds ht3)
  · exact State.arrive_holds hs

theorem State.signal_holds [ClosedRegs G] [ClosedFree G] [ClosedSync G] {s ag o a} (hs : Holds G s) :
    Holds G (State.signal s ag o a) := by
  unfold State.signal
  extract_lets
  exact Holds.ite (State.badSignal_holds hs) (Holds.ite (State.bump_holds hs) (State.signalOk_holds hs))

theorem State.positionEvent_holds [ClosedRegs G] [ClosedFree G] [ClosedSync G] {s o x} (hs : Holds G s) :
    Holds G (State.positionEvent s o x) := by
  unfold State.positionEvent
  extract_lets
  exact Holds.ite (State.badSignal_holds hs) (Holds.ite (State.bump_holds hs) (State.release_holds (State.setSo_holds hs)))

theorem State.enqueue_holds [ClosedSync G] {s ag o a} (hs : Holds G s) :
    Holds G (State.enqueue s ag o a) := by
  unfold State.enqueue
  extract_lets
  exact State.setSo_holds hs

theorem State.waitOk_holds [ClosedFree G] [ClosedSync G] {s ag o a} (hs : Holds G s) :
    Holds G (State.waitOk s ag o a) := by
  unfold State.waitOk
  extract_lets _ _ t1 _
  have ht1 : Holds G t1 := State.enqueue_holds hs
  clear_value t1
  split
  · exact Holds.ite (State.wake_holds (State.addHold_holds (State.setSo_holds hs))) (State.setSo_holds ht1)
  · exact Holds.ite (State.wake_holds hs) (State.enqueue_holds hs)
  · exact State.arrive_holds (State.enqueue_holds hs)
  · exact Holds.ite (State.wake_holds hs) (State.enqueue_holds hs)

theorem State.wait_holds [ClosedFree G] [ClosedSync G] {s ag o a} (hs : Holds G s) :
    Holds G (State.wait s ag o a) := by
  unfold State.wait
  extract_lets
  exact Holds.ite (State.wake_holds hs) (Holds.ite (State.wake_holds hs) (State.waitOk_holds hs))

theorem State.arriveWait_holds [ClosedFree G] [ClosedSync G] {s ag o a} (hs : Holds G s) :
    Holds G (State.arriveWait s ag o a) := by
  unfold State.arriveWait
  extract_lets
  exact Holds.ite (State.wait_holds hs) (Holds.sync hs)

theorem State.takeWaits_holds [ClosedFree G] [ClosedSync G] {s} (hs : Holds G s) :
    Holds G (State.takeWaits s) := by
  unfold State.takeWaits
  extract_lets
  exact Holds.foldl (Holds.sync hs) (fun y1 y2 h1 => State.wait_holds h1)

theorem State.breakSo_holds [ClosedFree G] [ClosedSync G] {s o} (hs : Holds G s) :
    Holds G (State.breakSo s o) := by
  unfold State.breakSo
  extract_lets _ t1 _ t2
  have ht1 : Holds G t1 := State.setSo_holds hs
  have ht2 : Holds G t2 := Holds.sync ht1
  clear_value t1 t2
  exact Holds.ite hs (State.wakeAll_holds ht2)

theorem State.removeWaits_holds [ClosedFree G] [ClosedSync G] {s p} (hs : Holds G s) :
    Holds G (State.removeWaits s p) := by
  unfold State.removeWaits
  extract_lets _ _ t1
  have ht1 : Holds G t1 := Holds.sync hs
  clear_value t1
  refine Holds.foldl ht1 ?_
  intro y1 y2 h1
  extract_lets _ t2
  have ht2 : Holds G t2 := State.setSo_holds h1
  clear_value t2
  exact Holds.ite (State.breakSo_holds ht2) ht2

theorem State.breakHolds_holds [ClosedFree G] [ClosedSync G] {s p} (hs : Holds G s) :
    Holds G (State.breakHolds s p) := by
  unfold State.breakHolds
  exact Holds.foldl hs (fun y1 y2 h1 => State.breakSo_holds h1)

theorem State.restage_holds [ClosedFree G] [ClosedSync G] {s o c} (hs : Holds G s) :
    Holds G (State.restage s o c) := by
  unfold State.restage
  extract_lets _ _ t1
  have ht1 : Holds G t1 := Holds.sync hs
  clear_value t1
  exact State.wakeAll_holds (State.setSo_holds ht1)

end Sys2Proof.Machine
end

