-- ==== Sys2Proof/Laws/Parts.lean ====
section
/-! SUPPORT. Laws/Parts.lean: what the functions of Machine/Parts.lean can change (Laws/Closure.lean). -/

namespace Sys2Proof.Machine

variable {G : State → Prop}

theorem State.setPart_holds [ClosedSeq G] {s i p} (hs : Holds G s) :
    Holds G (State.setPart s i p) := by
  unfold State.setPart
  extract_lets
  exact Holds.seq hs

theorem State.forget_holds [ClosedLp G] [ClosedCores G] [ClosedLists G] [ClosedJobs G] [ClosedFlock G] {s i} (hs : Holds G s) :
    Holds G (State.forget s i) := by
  unfold State.forget
  extract_lets
  exact Holds.lp_cores_lists_jobs_flock hs

theorem State.markFault_holds [ClosedSeq G] {s is} (hs : Holds G s) :
    Holds G (State.markFault s is) := by
  unfold State.markFault
  refine Holds.foldl hs ?_
  intro y1 y2 h1
  extract_lets
  exact Holds.ite (State.setPart_holds h1) h1

theorem State.markIncomplete_holds [ClosedSeq G] {s i} (hs : Holds G s) :
    Holds G (State.markIncomplete s i) := by
  unfold State.markIncomplete
  extract_lets
  exact Holds.ite (State.setPart_holds hs) hs

theorem State.setEntry_holds [ClosedSeq G] {s k e} (hs : Holds G s) :
    Holds G (State.setEntry s k e) := by
  unfold State.setEntry
  extract_lets
  exact Holds.seq hs

theorem State.delEntry_holds [ClosedSeq G] {s k} (hs : Holds G s) :
    Holds G (State.delEntry s k) := by
  unfold State.delEntry
  extract_lets
  exact Holds.seq hs

theorem State.setJobState_holds [ClosedRegs G] {s j x} (hs : Holds G s) :
    Holds G (State.setJobState s j x) := by
  unfold State.setJobState
  exact State.put_holds hs

theorem State.setJob_holds [ClosedJobs G] {s j x} (hs : Holds G s) :
    Holds G (State.setJob s j x) := by
  unfold State.setJob
  exact Holds.jobs hs

theorem State.setCore_holds [ClosedCores G] {s n c} (hs : Holds G s) :
    Holds G (State.setCore s n c) := by
  unfold State.setCore
  exact Holds.cores hs

theorem State.setList_holds [ClosedLists G] {s k l} (hs : Holds G s) :
    Holds G (State.setList s k l) := by
  unfold State.setList
  exact Holds.lists hs

theorem State.delList_holds [ClosedLists G] {s k} (hs : Holds G s) :
    Holds G (State.delList s k) := by
  unfold State.delList
  exact Holds.lists hs

theorem State.setThread_holds [ClosedFlock G] {s e c t} (hs : Holds G s) :
    Holds G (State.setThread s e c t) := by
  unfold State.setThread
  extract_lets
  exact Holds.flock hs

theorem State.larderWrite_holds [ClosedLarder G] [ClosedCores G] {s n a bs} (hs : Holds G s) :
    Holds G (State.larderWrite s n a bs) := by
  unfold State.larderWrite
  extract_lets
  exact Holds.larder_cores (fun h => Memory.write_wf _ _ _ h) hs

theorem State.larderZero_holds [ClosedLarder G] [ClosedCores G] {s n} (hs : Holds G s) :
    Holds G (State.larderZero s n) := by
  unfold State.larderZero
  extract_lets
  exact Holds.larder_cores (fun h => Memory.filter_wf _ h) hs

theorem State.scrub_holds [ClosedRegs G] [ClosedLarder G] [ClosedCores G] {s n} (hs : Holds G s) :
    Holds G (State.scrub s n) := by
  unfold State.scrub
  exact State.put_holds (State.larderZero_holds hs)

end Sys2Proof.Machine
end

