-- ==== Sys2Proof/Laws/Post.lean ====
section
/-! SUPPORT. Laws/Post.lean: what the functions of Machine/Post.lean can change (Laws/Closure.lean). -/

namespace Sys2Proof.Machine

variable {G : State → Prop}

theorem State.setRing_holds [ClosedClient G] {s n r} (hs : Holds G s) :
    Holds G (State.setRing s n r) := by
  unfold State.setRing
  extract_lets
  exact Holds.client hs

theorem State.writeIndex_holds [ClosedHost G] {s r} (hs : Holds G s) :
    Holds G (State.writeIndex s r) := by
  unfold State.writeIndex
  exact Holds.ite hs (State.hostWrite_holds hs)

theorem State.raiseVector_holds [ClosedClient G] {s v} (hs : Holds G s) :
    Holds G (State.raiseVector s v) := by
  unfold State.raiseVector
  extract_lets
  exact Holds.ite (Holds.client hs) (Holds.client hs)

theorem State.raiseIrq_holds [ClosedClient G] {s n r} (hs : Holds G s) :
    Holds G (State.raiseIrq s n r) := by
  unfold State.raiseIrq
  exact Holds.ite (State.setRing_holds hs) (Holds.ite (State.setRing_holds (State.raiseVector_holds hs)) (State.setRing_holds hs))

theorem State.sessionSent_holds [ClosedClient G] {s k f} (hs : Holds G s) :
    Holds G (State.sessionSent s k f) := by
  unfold State.sessionSent
  extract_lets
  exact Holds.client hs

theorem State.pushEntry_holds [ClosedHost G] [ClosedClient G] {s n r bs} (hs : Holds G s) :
    Holds G (State.pushEntry s n r bs) := by
  unfold State.pushEntry
  extract_lets _ _ _ t1 _
  have ht1 : Holds G t1 := Holds.ite (State.sessionSent_holds hs) (State.hostWrite_holds hs)
  clear_value t1
  exact State.raiseIrq_holds (State.writeIndex_holds ht1)

theorem State.unwrite_holds [ClosedHost G] [ClosedClient G] {s vector x} (hs : Holds G s) :
    Holds G (State.unwrite s vector x) := by
  unfold State.unwrite
  extract_lets t1 _
  have ht1 : Holds G t1 := State.hostWrite_holds hs
  clear_value t1
  exact Holds.client ht1

theorem State.withdraw_holds [ClosedHost G] [ClosedClient G] {s n r} (hs : Holds G s) :
    Holds G (State.withdraw s n r) := by
  unfold State.withdraw
  extract_lets
  exact State.setRing_holds (State.writeIndex_holds (Holds.foldl hs (fun y1 y2 h1 => State.unwrite_holds h1)))

theorem State.dropEntry_holds [ClosedRegs G] [ClosedHost G] [ClosedClient G] {s n r} (hs : Holds G s) :
    Holds G (State.dropEntry s n r) := by
  unfold State.dropEntry
  extract_lets
  exact State.latch_holds (State.setRing_holds (State.writeIndex_holds hs))

theorem State.deliver_holds [ClosedRegs G] [ClosedHost G] [ClosedClient G] {s n bs} (hs : Holds G s) :
    Holds G (State.deliver s n bs) := by
  unfold State.deliver
  split
  · exact hs
  · exact Holds.ite hs (Holds.ite (State.pushEntry_holds hs) (State.dropEntry_holds hs))

theorem State.writeCompletion_holds [ClosedHost G] [ClosedClient G] {s p x} (hs : Holds G s) :
    Holds G (State.writeCompletion s p x) := by
  unfold State.writeCompletion
  exact State.pushEntry_holds hs

theorem State.complete_holds [ClosedHost G] [ClosedClient G] {s d st result} (hs : Holds G s) :
    Holds G (State.complete s d st result) := by
  unfold State.complete
  extract_lets _ t1 _
  have ht1 : Holds G t1 := Holds.client hs
  clear_value t1
  refine Holds.ite ht1 ?_
  split
  · exact ht1
  · exact Holds.ite ht1 (Holds.ite (State.writeCompletion_holds ht1) (Holds.client ht1))

theorem State.payOwed_holds [ClosedHost G] [ClosedClient G] {s n a2} (hs : Holds G s) :
    Holds G (State.payOwed s n a2) := by
  induction a2 generalizing s n with
  | zero =>
    unfold State.payOwed
    exact hs
  | succ k ih =>
    unfold State.payOwed
    split
    · extract_lets _ t1
      have ht1 : Holds G t1 := Holds.client hs
      clear_value t1
      exact Holds.ite hs (ih (State.writeCompletion_holds ht1))
    · exact hs

theorem State.dataOut_holds [ClosedHost G] [ClosedClient G] {s d bs} (hs : Holds G s) :
    Holds G (State.dataOut s d bs) := by
  unfold State.dataOut
  refine Holds.ite (State.hostWrite_holds hs) ?_
  split
  · exact Holds.ite (State.sessionSent_holds hs) hs
  · exact hs

theorem State.noticeTo_holds [ClosedRegs G] [ClosedHost G] [ClosedClient G] {s n kind ring result} (hs : Holds G s) :
    Holds G (State.noticeTo s n kind ring result) := by
  unfold State.noticeTo
  split
  · exact hs
  · exact Holds.ite (State.deliver_holds hs) hs

theorem State.noticeAll_holds [ClosedRegs G] [ClosedHost G] [ClosedClient G] {s ns kind ring result} (hs : Holds G s) :
    Holds G (State.noticeAll s ns kind ring result) := by
  unfold State.noticeAll
  exact Holds.foldl hs (fun y1 y2 h1 => State.noticeTo_holds h1)

theorem State.noticeJobFault_holds [ClosedRegs G] [ClosedHost G] [ClosedClient G] {s job code} (hs : Holds G s) :
    Holds G (State.noticeJobFault s job code) := by
  unfold State.noticeJobFault
  exact State.noticeAll_holds hs

theorem State.noticeHalted_holds [ClosedRegs G] [ClosedHost G] [ClosedClient G] {s ring c} (hs : Holds G s) :
    Holds G (State.noticeHalted s ring c) := by
  unfold State.noticeHalted
  exact State.noticeAll_holds hs

theorem State.noticeDropped_holds [ClosedRegs G] [ClosedHost G] [ClosedClient G] {s ring session} (hs : Holds G s) :
    Holds G (State.noticeDropped s ring session) := by
  unfold State.noticeDropped
  exact State.noticeAll_holds hs

theorem State.postVerdict_holds [ClosedRegs G] [ClosedHost G] [ClosedClient G] {s job code record} (hs : Holds G s) :
    Holds G (State.postVerdict s job code record) := by
  unfold State.postVerdict
  exact Holds.foldl hs (fun y1 y2 h1 => State.deliver_holds h1)

end Sys2Proof.Machine
end

