-- ==== Sys2Proof/Laws/Teardown.lean ====
section
/-! SUPPORT. Laws/Teardown.lean: what the functions of Machine/Teardown.lean can change (Laws/Closure.lean). -/

namespace Sys2Proof.Machine

variable {G : State → Prop}

theorem State.recordFault_holds [ClosedRegs G] [ClosedHost G] [ClosedLoft G] [ClosedClient G] {s j f ctx} (hs : Holds G s) :
    Holds G (State.recordFault s j f ctx) := by
  unfold State.recordFault
  extract_lets t1 t2
  have ht1 : Holds G t1 := State.put_holds hs
  have ht2 : Holds G t2 := State.loftEvent_holds ht1
  clear_value t1 t2
  exact State.noticeJobFault_holds ht2

theorem State.dropAgent_holds [ClosedFree G] [ClosedSync G] {s p} (hs : Holds G s) :
    Holds G (State.dropAgent s p) := by
  unfold State.dropAgent
  exact State.breakHolds_holds (State.removeWaits_holds hs)

theorem State.launchDone_holds [ClosedRegs G] [ClosedFree G] [ClosedSync G] {s o} (hs : Holds G s) :
    Holds G (State.launchDone s o) := by
  unfold State.launchDone
  exact State.signal_holds hs

theorem State.threadEnded_holds [ClosedRegs G] [ClosedFree G] [ClosedFlock G] [ClosedSync G] {s launch} (hs : Holds G s) :
    Holds G (State.threadEnded s launch) := by
  unfold State.threadEnded
  split
  · exact hs
  · extract_lets
    exact Holds.ite (State.launchDone_holds (Holds.flock hs)) (Holds.flock hs)

theorem State.freeThread_holds [ClosedFlock G] {s e c} (hs : Holds G s) :
    Holds G (State.freeThread s e c) := by
  unfold State.freeThread
  extract_lets
  exact Holds.flock hs

theorem State.tearThread_holds [ClosedRegs G] [ClosedHost G] [ClosedFree G] [ClosedSeq G] [ClosedLoft G] [ClosedClient G] [ClosedFlock G] [ClosedSync G] {s e c t f} (hs : Holds G s) :
    Holds G (State.tearThread s e c t f) := by
  unfold State.tearThread
  extract_lets t1 t2 t3
  have ht1 : Holds G t1 := State.dropAgent_holds hs
  have ht2 : Holds G t2 := State.threadEnded_holds (State.freeThread_holds ht1)
  have ht3 : Holds G t3 := State.recordFault_holds ht2
  clear_value t1 t2 t3
  exact Holds.ite (State.markFault_holds ht3) ht3

theorem State.threadFault_holds [ClosedRegs G] [ClosedHost G] [ClosedFree G] [ClosedSeq G] [ClosedLoft G] [ClosedClient G] [ClosedFlock G] [ClosedSync G] {s e c t f pc addr} (hs : Holds G s) :
    Holds G (State.threadFault s e c t f pc addr) := by
  unfold State.threadFault
  extract_lets t1 t2 t3
  have ht1 : Holds G t1 := State.bump_holds hs
  have ht2 : Holds G t2 := State.put_holds (State.put_holds (State.raise_holds ht1))
  have ht3 : Holds G t3 := Holds.ite ht1 (State.put64_holds (State.put64_holds ht2))
  clear_value t1 t2 t3
  exact State.tearThread_holds ht3

theorem State.dropStrips_holds [ClosedRegs G] [ClosedFree G] [ClosedSync G] {s ss} (hs : Holds G s) :
    Holds G (State.dropStrips s ss) := by
  unfold State.dropStrips
  exact Holds.foldl hs (fun y1 y2 h1 => State.signal_holds h1)

theorem State.clearCore_holds [ClosedRegs G] [ClosedLarder G] [ClosedFree G] [ClosedSeq G] [ClosedCores G] [ClosedLists G] [ClosedSync G] {s n j} (hs : Holds G s) :
    Holds G (State.clearCore s n j) := by
  unfold State.clearCore
  extract_lets _ t1 t2 _ t3
  have ht1 : Holds G t1 := Holds.ite (State.markFault_holds hs) hs
  have ht2 : Holds G t2 := State.dropStrips_holds ht1
  have ht3 : Holds G t3 := State.put_holds (State.setCore_holds (State.delList_holds ht2))
  clear_value t1 t2 t3
  exact State.scrub_holds (State.drop_holds ht3)

theorem State.releaseJob_holds [ClosedRegs G] [ClosedLarder G] [ClosedFree G] [ClosedSeq G] [ClosedCores G] [ClosedLists G] [ClosedJobs G] [ClosedFlock G] [ClosedSync G] {s j} (hs : Holds G s) :
    Holds G (State.releaseJob s j) := by
  unfold State.releaseJob
  extract_lets _ _ _ t1 _ t2 t3 _ t4 t5 t6 _
  have ht1 : Holds G t1 := State.dropAgent_holds hs
  have ht2 : Holds G t2 := Holds.flock ht1
  have ht3 : Holds G t3 := Holds.foldl ht2 (fun y1 y2 h1 => State.threadEnded_holds h1)
  have ht4 : Holds G t4 := Holds.flock ht3
  have ht5 : Holds G t5 := Holds.foldl ht4 (fun y3 y4 h2 => State.put_holds (State.clearCore_holds h2))
  have ht6 : Holds G t6 := Holds.foldl ht5 (fun y5 y6 h3 => State.delList_holds h3)
  clear_value t1 t2 t3 t4 t5 t6
  exact State.setJob_holds ht6

theorem State.leaveSlice_holds [ClosedRegs G] [ClosedPtns G] {s j} (hs : Holds G s) :
    Holds G (State.leaveSlice s j) := by
  unfold State.leaveSlice
  extract_lets _ t1 _
  have ht1 : Holds G t1 := State.drop_holds (State.drop_holds (State.drop_holds hs))
  clear_value t1
  exact Holds.ite (Holds.ptns ht1) hs

theorem State.tearJob_holds [ClosedRegs G] [ClosedLarder G] [ClosedHost G] [ClosedFree G] [ClosedSeq G] [ClosedLoft G] [ClosedClient G] [ClosedCores G] [ClosedLists G] [ClosedJobs G] [ClosedPtns G] [ClosedFlock G] [ClosedSync G] {s j f ctx} (hs : Holds G s) :
    Holds G (State.tearJob s j f ctx) := by
  unfold State.tearJob
  extract_lets t1 t2
  have ht1 : Holds G t1 := State.leaveSlice_holds (State.releaseJob_holds hs)
  have ht2 : Holds G t2 := Holds.ite (State.markFault_holds ht1) ht1
  clear_value t1 t2
  exact State.recordFault_holds (State.setJobState_holds ht2)

theorem State.tearList_holds [ClosedRegs G] [ClosedLarder G] [ClosedHost G] [ClosedFree G] [ClosedSeq G] [ClosedLoft G] [ClosedClient G] [ClosedCores G] [ClosedLists G] [ClosedJobs G] [ClosedPtns G] [ClosedFlock G] [ClosedSync G] {s k f} (hs : Holds G s) :
    Holds G (State.tearList s k f) := by
  unfold State.tearList
  split
  · exact hs
  · split
    · extract_lets t1
      have ht1 : Holds G t1 := State.markFault_holds (State.delList_holds (State.dropAgent_holds hs))
      clear_value t1
      exact State.recordFault_holds ht1
    · extract_lets t2 t3 _ t4
      have ht2 : Holds G t2 := State.dropAgent_holds hs
      have ht3 : Holds G t3 := State.clearCore_holds ht2
      have ht4 : Holds G t4 := State.setCore_holds ht3
      clear_value t2 t3 t4
      exact Holds.ite (State.recordFault_holds ht4) (State.tearJob_holds hs)

theorem State.tearContext_holds [ClosedRegs G] [ClosedLarder G] [ClosedHost G] [ClosedFree G] [ClosedSeq G] [ClosedLoft G] [ClosedClient G] [ClosedCores G] [ClosedLists G] [ClosedSync G] {s k j f} (hs : Holds G s) :
    Holds G (State.tearContext s k j f) := by
  unfold State.tearContext
  extract_lets t1 t2 _
  have ht1 : Holds G t1 := State.dropAgent_holds hs
  have ht2 : Holds G t2 := State.clearCore_holds ht1
  clear_value t1 t2
  exact Holds.ite (State.recordFault_holds (State.setCore_holds ht2)) (State.recordFault_holds (State.markFault_holds (State.delList_holds ht1)))

theorem State.tearSaved_holds [ClosedRegs G] [ClosedHost G] [ClosedFree G] [ClosedLoft G] [ClosedClient G] [ClosedJobs G] [ClosedSync G] {s i j f} (hs : Holds G s) :
    Holds G (State.tearSaved s i j f) := by
  unfold State.tearSaved
  extract_lets t1 _
  have ht1 : Holds G t1 := State.dropAgent_holds hs
  clear_value t1
  exact State.recordFault_holds (State.setJob_holds ht1)

theorem State.larderEvent_holds [ClosedRegs G] [ClosedLoft G] {s n word} (hs : Holds G s) :
    Holds G (State.larderEvent s n word) := by
  unfold State.larderEvent
  extract_lets
  exact State.loftEvent_holds hs

theorem State.coreOut_holds [ClosedRegs G] [ClosedLarder G] [ClosedHost G] [ClosedFree G] [ClosedSeq G] [ClosedLoft G] [ClosedClient G] [ClosedCores G] [ClosedLists G] [ClosedJobs G] [ClosedPtns G] [ClosedFlock G] [ClosedSync G] {s n} (hs : Holds G s) :
    Holds G (State.coreOut s n) := by
  unfold State.coreOut
  extract_lets _ t1 t2
  have ht1 : Holds G t1 := State.put_holds (State.drop_holds hs)
  have ht2 : Holds G t2 := State.dropAgent_holds ht1
  clear_value t1 t2
  split
  · exact ht1
  · extract_lets t3 _
    have ht3 : Holds G t3 := State.recordFault_holds (State.clearCore_holds ht2)
    clear_value t3
    exact Holds.ite (State.setJob_holds ht3) (State.tearJob_holds ht1)

theorem State.dieDown_holds [ClosedRegs G] [ClosedLarder G] [ClosedHost G] [ClosedFree G] [ClosedSeq G] [ClosedLoft G] [ClosedClient G] [ClosedCores G] [ClosedLists G] [ClosedJobs G] [ClosedPtns G] [ClosedFlock G] [ClosedSync G] {s d} (hs : Holds G s) :
    Holds G (State.dieDown s d) := by
  unfold State.dieDown
  extract_lets t1 _
  have ht1 : Holds G t1 := Holds.foldl hs (fun y1 y2 h1 => Holds.ite (State.coreOut_holds h1) h1)
  clear_value t1
  exact Holds.foldl (State.drop_holds ht1) (fun y3 y4 h2 => State.tearThread_holds h2)

theorem State.larderHard_holds [ClosedRegs G] [ClosedLarder G] [ClosedHost G] [ClosedFree G] [ClosedSeq G] [ClosedLoft G] [ClosedClient G] [ClosedCores G] [ClosedLists G] [ClosedJobs G] [ClosedPtns G] [ClosedFlock G] [ClosedSync G] {s n bank word} (hs : Holds G s) :
    Holds G (State.larderHard s n bank word) := by
  unfold State.larderHard
  extract_lets t1
  have ht1 : Holds G t1 := Holds.ite hs (State.put_holds (State.raise_holds (State.put_holds hs)))
  clear_value t1
  exact State.put_holds (State.coreOut_holds (State.larderEvent_holds ht1))

theorem State.takeUp_holds [ClosedRegs G] [ClosedLarder G] [ClosedHost G] [ClosedFree G] [ClosedSeq G] [ClosedLoft G] [ClosedClient G] [ClosedCores G] [ClosedLists G] [ClosedJobs G] [ClosedPtns G] [ClosedFlock G] [ClosedAdp G] [ClosedSync G] {s w} (hs : Holds G s) :
    Holds G (State.takeUp s w) := by
  unfold State.takeUp
  split
  · split
    · exact hs
    · split
      · exact hs
      · extract_lets
        exact State.setThread_holds hs
  · split
    · exact hs
    · exact Holds.ite (State.setList_holds hs) (State.tearList_holds hs)
  · extract_lets
    split
    · exact hs
    · extract_lets
      exact Holds.ite (State.setJob_holds hs) (State.tearJob_holds hs)
  · split
    · exact hs
    · exact State.complete_holds hs
  · extract_lets
    exact Holds.adp hs
  · exact hs

theorem State.settleN_holds [ClosedRegs G] [ClosedLarder G] [ClosedHost G] [ClosedFree G] [ClosedSeq G] [ClosedLoft G] [ClosedClient G] [ClosedCores G] [ClosedLists G] [ClosedJobs G] [ClosedPtns G] [ClosedFlock G] [ClosedAdp G] [ClosedSync G] {s a1} (hs : Holds G s) :
    Holds G (State.settleN s a1) := by
  induction a1 generalizing s with
  | zero =>
    unfold State.settleN
    exact hs
  | succ k ih =>
    unfold State.settleN
    split
    · exact hs
    · extract_lets
      exact ih (State.takeUp_holds (Holds.sync hs))

theorem State.endDeferral_holds [ClosedRegs G] {s} (hs : Holds G s) :
    Holds G (State.endDeferral s) := by
  unfold State.endDeferral
  exact Holds.foldl hs (fun y1 y2 h1 => Holds.ite (State.drop_holds h1) h1)

theorem State.lowWater_holds [ClosedRegs G] [ClosedLoft G] [ClosedAdp G] {s} (hs : Holds G s) :
    Holds G (State.lowWater s) := by
  unfold State.lowWater
  extract_lets _ _ _ t1 t2
  have ht1 : Holds G t1 := Holds.adp hs
  have ht2 : Holds G t2 := State.bump_holds (State.latch_holds ht1)
  clear_value t1 t2
  exact Holds.ite hs (Holds.ite (Holds.adp hs) (Holds.ite (State.loftEvent_holds ht2) hs))

theorem State.settle_holds [ClosedRegs G] [ClosedLarder G] [ClosedHost G] [ClosedFree G] [ClosedSeq G] [ClosedLoft G] [ClosedClient G] [ClosedCores G] [ClosedLists G] [ClosedJobs G] [ClosedPtns G] [ClosedFlock G] [ClosedAdp G] [ClosedSync G] {s} (hs : Holds G s) :
    Holds G (State.settle s) := by
  unfold State.settle
  exact State.lowWater_holds (State.endDeferral_holds (State.settleN_holds (State.grantFreed_holds (State.settleN_holds hs))))

theorem State.holdExpire_holds [ClosedRegs G] [ClosedLarder G] [ClosedHost G] [ClosedFree G] [ClosedSeq G] [ClosedLoft G] [ClosedClient G] [ClosedCores G] [ClosedLists G] [ClosedJobs G] [ClosedPtns G] [ClosedFlock G] [ClosedAdp G] [ClosedSync G] {s h} (hs : Holds G s) :
    Holds G (State.holdExpire s h) := by
  unfold State.holdExpire
  extract_lets t1 t2
  have ht1 : Holds G t1 := State.breakSo_holds hs
  have ht2 : Holds G t2 := by
    unfold t2
    split
    · split
      · exact State.tearThread_holds ht1
      · exact ht1
    · split
      · exact State.tearContext_holds ht1
      · exact ht1
    · exact State.tearSaved_holds ht1
    · exact ht1
  clear_value t1 t2
  exact State.settle_holds ht2

theorem State.expireDueN_holds [ClosedRegs G] [ClosedLarder G] [ClosedHost G] [ClosedFree G] [ClosedSeq G] [ClosedLoft G] [ClosedClient G] [ClosedCores G] [ClosedLists G] [ClosedJobs G] [ClosedPtns G] [ClosedFlock G] [ClosedAdp G] [ClosedSync G] {s a1} (hs : Holds G s) :
    Holds G (State.expireDueN s a1) := by
  induction a1 generalizing s with
  | zero =>
    unfold State.expireDueN
    exact hs
  | succ k ih =>
    unfold State.expireDueN
    split
    · exact hs
    · exact ih (State.holdExpire_holds hs)

theorem State.expireDue_holds [ClosedRegs G] [ClosedLarder G] [ClosedHost G] [ClosedFree G] [ClosedSeq G] [ClosedLoft G] [ClosedClient G] [ClosedCores G] [ClosedLists G] [ClosedJobs G] [ClosedPtns G] [ClosedFlock G] [ClosedAdp G] [ClosedSync G] {s} (hs : Holds G s) :
    Holds G (State.expireDue s) := by
  unfold State.expireDue
  exact State.expireDueN_holds hs

theorem execHoldExpire_holds [ClosedRegs G] [ClosedLarder G] [ClosedHost G] [ClosedFree G] [ClosedSeq G] [ClosedLoft G] [ClosedClient G] [ClosedCores G] [ClosedLists G] [ClosedJobs G] [ClosedPtns G] [ClosedFlock G] [ClosedAdp G] [ClosedSync G] {s} (hs : Holds G s) :
    HoldsOut G (execHoldExpire s) := by
  unfold execHoldExpire
  refine HoldsOut.next ?_
  split
  · exact hs
  · exact State.holdExpire_holds hs

theorem execWaitTimeout_holds [ClosedRegs G] [ClosedLarder G] [ClosedHost G] [ClosedFree G] [ClosedSeq G] [ClosedLoft G] [ClosedClient G] [ClosedCores G] [ClosedLists G] [ClosedJobs G] [ClosedPtns G] [ClosedFlock G] [ClosedAdp G] [ClosedSync G] {so s} (hs : Holds G s) :
    HoldsOut G (execWaitTimeout so s) := by
  unfold execWaitTimeout
  refine HoldsOut.next ?_
  split
  · exact hs
  · extract_lets
    exact State.settle_holds (State.wake_holds (State.setSo_holds hs))

end Sys2Proof.Machine
end

