-- ==== Sys2Proof/Laws/Verdict.lean ====
section
/-! SUPPORT. Laws/Verdict.lean: what the functions of Machine/Verdict.lean can change (Laws/Closure.lean). -/

namespace Sys2Proof.Machine

variable {G : State → Prop}

theorem State.freeBytes_holds [ClosedFree G] {s a1} (hs : Holds G s) :
    Holds G (State.freeBytes s a1).2 := by
  induction a1 generalizing s with
  | zero =>
    unfold State.freeBytes
    exact hs
  | succ k ih =>
    unfold State.freeBytes
    split
    · split
      · exact Holds.of_pair (by assumption) (ih (Holds.of_pair (by assumption) (State.draw_holds hs)))

theorem State.verdictDigest_holds [ClosedFree G] {s p} (hs : Holds G s) :
    Holds G (State.verdictDigest s p).2 := by
  unfold State.verdictDigest
  split
  · exact hs
  · exact State.freeBytes_holds hs

theorem State.record_holds [ClosedFree G] {s p code} (hs : Holds G s) :
    Holds G (State.record s p code).2 := by
  unfold State.record
  split
  · extract_lets
    exact Holds.of_pair (by assumption) (State.verdictDigest_holds hs)

theorem State.dropPartEntry_holds [ClosedSeq G] {s i k action} (hs : Holds G s) :
    Holds G (State.dropPartEntry s i k action) := by
  unfold State.dropPartEntry
  split
  · exact Holds.ite (State.delEntry_holds hs) hs
  · exact hs

theorem State.freePart_holds [ClosedRegs G] [ClosedSeq G] [ClosedSdg G] {s i} (hs : Holds G s) :
    Holds G (State.freePart s i) := by
  unfold State.freePart
  extract_lets _ t1 t2 _ _ _
  have ht1 : Holds G t1 := Holds.ite (State.bump_holds hs) hs
  have ht2 : Holds G t2 := State.dropPartEntry_holds (State.dropPartEntry_holds ht1)
  clear_value t1 t2
  exact Holds.seq_sdg ht2

theorem State.finish_holds [ClosedRegs G] [ClosedHost G] [ClosedFree G] [ClosedSeq G] [ClosedLoft G] [ClosedClient G] [ClosedSdg G] {s i} (hs : Holds G s) :
    Holds G (State.finish s i) := by
  unfold State.finish
  extract_lets
  split
  · extract_lets t1
    have ht1 : Holds G t1 := State.loftValue_holds (State.postVerdict_holds (Holds.of_pair (by assumption) (State.record_holds hs)))
    clear_value t1
    exact State.freePart_holds ht1

theorem State.combine_holds [ClosedSeq G] {s i} (hs : Holds G s) :
    Holds G (State.combine s i) := by
  unfold State.combine
  extract_lets
  exact Holds.ite (State.setPart_holds hs) hs

theorem State.lateResult_holds [ClosedRegs G] [ClosedSeq G] {s i} (hs : Holds G s) :
    Holds G (State.lateResult s i) := by
  unfold State.lateResult
  extract_lets t1
  have ht1 : Holds G t1 := by
    unfold t1
    split
    · exact Holds.ite hs (State.setPart_holds hs)
    · exact hs
  clear_value t1
  exact State.bump_holds ht1

theorem State.takeResult_holds [ClosedRegs G] [ClosedSeq G] {s i r} (hs : Holds G s) :
    Holds G (State.takeResult s i r) := by
  unfold State.takeResult
  extract_lets _ _ t1 _
  have ht1 : Holds G t1 := Holds.ite (State.bump_holds hs) hs
  clear_value t1
  exact Holds.ite (State.lateResult_holds hs) (Holds.ite (State.bump_holds hs) (State.combine_holds (State.setPart_holds ht1)))

theorem State.disagreeWindow_holds [ClosedRegs G] [ClosedLink G] [ClosedLoft G] [ClosedSdg G] {s b} (hs : Holds G s) :
    Holds G (State.disagreeWindow s b) := by
  unfold State.disagreeWindow
  extract_lets _ _ _ _ t1
  have ht1 : Holds G t1 := Holds.sdg hs
  clear_value t1
  exact Holds.ite (Holds.ite ht1 (State.lineStop_holds (State.bump_holds (State.latch_holds ht1)))) ht1

theorem State.captureTake_holds [ClosedRegs G] [ClosedSeq G] {s i} (hs : Holds G s) :
    Holds G (State.captureTake s i) := by
  unfold State.captureTake
  extract_lets
  refine Holds.ite hs ?_
  split
  · exact State.bump_holds hs
  · extract_lets
    exact State.bump_holds (State.setPart_holds hs)

theorem State.captureKeep_holds [ClosedRegs G] [ClosedMem G] [ClosedFree G] [ClosedCel G] [ClosedSeq G] [ClosedLoft G] [ClosedAdp G] [ClosedSync G] {s i code} (hs : Holds G s) :
    Holds G (State.captureKeep s i code) := by
  unfold State.captureKeep
  extract_lets _ _ t1 _ _
  have ht1 : Holds G t1 := State.setPart_holds hs
  clear_value t1
  split
  · exact hs
  · extract_lets _ t2 _ t3 t4 t5 _
    have ht2 : Holds G t2 := State.store_holds ht1
    have ht3 : Holds G t3 := Holds.adp ht2
    have ht4 : Holds G t4 := State.signal_holds (State.put_holds ht3)
    have ht5 : Holds G t5 := State.put_holds ht4
    clear_value t2 t3 t4 t5
    exact Holds.ite (Holds.ite (Holds.ite (Holds.adp ht5) ht5) ht4) (State.bump_holds ht1)

theorem State.sdgAbandon_holds [ClosedRegs G] [ClosedSeq G] [ClosedSdg G] {s i} (hs : Holds G s) :
    Holds G (State.sdgAbandon s i) := by
  unfold State.sdgAbandon
  extract_lets _ _ t1 _ t2
  have ht1 : Holds G t1 := State.setPart_holds hs
  have ht2 : Holds G t2 := Holds.sdg ht1
  clear_value t1 t2
  exact Holds.ite (State.bump_holds (State.latch_holds ht2)) hs

theorem State.sameTickResult_holds [ClosedRegs G] [ClosedSeq G] {s i} (hs : Holds G s) :
    Holds G (State.sameTickResult s i) := by
  unfold State.sameTickResult
  extract_lets
  exact Holds.ite (State.bump_holds (State.setPart_holds hs)) hs

theorem State.assignVerdict_holds [ClosedRegs G] [ClosedMem G] [ClosedLarder G] [ClosedHost G] [ClosedFree G] [ClosedCel G] [ClosedSeq G] [ClosedLink G] [ClosedLoft G] [ClosedClient G] [ClosedCores G] [ClosedLists G] [ClosedJobs G] [ClosedPtns G] [ClosedFlock G] [ClosedAdp G] [ClosedSdg G] [ClosedSync G] {s i} (hs : Holds G s) :
    Holds G (State.assignVerdict s i) := by
  unfold State.assignVerdict
  extract_lets t1 _ _ _ _
  have ht1 : Holds G t1 := State.sameTickResult_holds (State.sdgAbandon_holds hs)
  clear_value t1
  split
  · extract_lets _ t2 t3 t4 t5 t6
    have ht2 : Holds G t2 := State.setPart_holds ht1
    have ht3 : Holds G t3 := Holds.ite (State.bump_holds ht2) ht2
    have ht4 : Holds G t4 := Holds.ite (State.loftValue_holds (State.loftValue_holds ht3)) ht3
    have ht5 : Holds G t5 := Holds.ite (State.loftValue_holds (State.bump_holds ht4)) ht4
    have ht6 : Holds G t6 := Holds.ite (State.disagreeWindow_holds ht5) ht5
    clear_value t2 t3 t4 t5 t6
    exact State.settle_holds (State.captureKeep_holds ht6)

end Sys2Proof.Machine
end

