-- ==== Sys2Proof/Laws/Adapt.lean ====
section
/-! SUPPORT. Laws/Adapt.lean: what the functions of Machine/Adapt.lean can change (Laws/Closure.lean). -/

namespace Sys2Proof.Machine

variable {G : State → Prop}

theorem State.inEnd_holds [ClosedRegs G] {s} (hs : Holds G s) :
    Holds G (State.inEnd s) := by
  unfold State.inEnd
  exact Holds.ite (State.raise_holds (State.drop_holds hs)) hs

theorem State.signalReady_holds [ClosedRegs G] [ClosedMem G] [ClosedFree G] [ClosedCel G] [ClosedLoft G] [ClosedAdp G] [ClosedSync G] {s a1} (hs : Holds G s) :
    Holds G (State.signalReady s a1) := by
  induction a1 generalizing s with
  | zero =>
    unfold State.signalReady
    exact hs
  | succ k ih =>
    unfold State.signalReady
    split
    · exact hs
    · extract_lets t1 _ t2
      have ht1 : Holds G t1 := State.store_holds hs
      have ht2 : Holds G t2 := Holds.adp ht1
      clear_value t1 t2
      exact Holds.ite hs (ih (State.signal_holds ht2))

theorem State.setSem_holds [ClosedFree G] [ClosedSync G] {s o v} (hs : Holds G s) :
    Holds G (State.setSem s o v) := by
  unfold State.setSem
  extract_lets
  exact State.grant_holds (State.setSo_holds hs)

theorem State.inStop_holds [ClosedRegs G] [ClosedFree G] [ClosedAdp G] [ClosedSync G] {s} (hs : Holds G s) :
    Holds G (State.inStop s) := by
  unfold State.inStop
  extract_lets t1 _
  have ht1 : Holds G t1 := State.removeWaits_holds hs
  clear_value t1
  exact State.drop_holds (Holds.adp ht1)

theorem execInputRunStart_holds [ClosedRegs G] [ClosedLarder G] [ClosedHost G] [ClosedFree G] [ClosedSeq G] [ClosedLoft G] [ClosedClient G] [ClosedCores G] [ClosedLists G] [ClosedJobs G] [ClosedPtns G] [ClosedFlock G] [ClosedAdp G] [ClosedSync G] {s} (hs : Holds G s) :
    HoldsOut G (execInputRunStart s) := by
  unfold execInputRunStart
  extract_lets t1 _ _ t2 t3 t4 t5 t6
  have ht1 : Holds G t1 := State.inStop_holds hs
  have ht2 : Holds G t2 := Holds.adp ht1
  have ht3 : Holds G t3 := State.drop_holds (State.raise_holds ht2)
  have ht4 : Holds G t4 := State.drop_holds (State.put_holds ht3)
  have ht5 : Holds G t5 := State.setSem_holds (State.setSem_holds ht4)
  have ht6 : Holds G t6 := Holds.ite (State.raise_holds (State.drop_holds ht5)) ht5
  clear_value t1 t2 t3 t4 t5 t6
  exact HoldsOut.next (Holds.ite hs (State.settle_holds ht6))

theorem State.takeFree_holds [ClosedRegs G] [ClosedLarder G] [ClosedHost G] [ClosedFree G] [ClosedSeq G] [ClosedLoft G] [ClosedClient G] [ClosedCores G] [ClosedLists G] [ClosedJobs G] [ClosedPtns G] [ClosedFlock G] [ClosedAdp G] [ClosedSync G] {s} (hs : Holds G s) :
    Holds G (State.takeFree s) := by
  unfold State.takeFree
  extract_lets
  exact Holds.ite hs (State.settle_holds (State.arriveWait_holds (Holds.adp hs)))

theorem State.beginBatch_holds [ClosedAdp G] {s} (hs : Holds G s) :
    Holds G (State.beginBatch s) := by
  unfold State.beginBatch
  extract_lets
  exact Holds.adp hs

theorem State.nextPosition_holds [ClosedRegs G] {s} (hs : Holds G s) :
    Holds G (State.nextPosition s) := by
  unfold State.nextPosition
  extract_lets
  exact Holds.ite (State.put_holds hs) (State.drop_holds (State.put_holds hs))

theorem execSampleDecodeStart_holds [ClosedRegs G] [ClosedLarder G] [ClosedHost G] [ClosedFree G] [ClosedSeq G] [ClosedLoft G] [ClosedClient G] [ClosedCores G] [ClosedLists G] [ClosedJobs G] [ClosedPtns G] [ClosedFlock G] [ClosedAdp G] [ClosedSync G] {s} (hs : Holds G s) :
    HoldsOut G (execSampleDecodeStart s) := by
  unfold execSampleDecodeStart
  refine HoldsOut.next ?_
  split
  · exact hs
  · extract_lets _ _ t1 t2 _ _
    have ht1 : Holds G t1 := Holds.ite (State.takeFree_holds hs) hs
    have ht2 : Holds G t2 := Holds.ite (State.beginBatch_holds ht1) ht1
    clear_value t1 t2
    exact Holds.ite hs (Holds.ite ht1 (State.nextPosition_holds (Holds.adp ht2)))

theorem State.decodeOf_holds [ClosedRegs G] [ClosedFree G] [ClosedCel G] [ClosedLoft G] {s d} (hs : Holds G s) :
    Holds G (State.decodeOf s d).2.2 := by
  unfold State.decodeOf
  split
  · extract_lets
    split
    · split
      · exact Holds.of_triple (by assumption) (State.load_holds (Holds.of_triple (by assumption) (State.load_holds hs)))
      · exact Holds.of_triple (by assumption) (State.load_holds (Holds.of_triple (by assumption) (State.load_holds hs)))
    · split
      · exact Holds.of_pair (by assumption) (State.freeBytes_holds (Holds.of_triple (by assumption) (State.load_holds hs)))
  · exact Holds.of_triple (by assumption) (State.load_holds hs)

theorem State.countSample_holds [ClosedRegs G] {s a1} (hs : Holds G s) :
    Holds G (State.countSample s a1) := by
  unfold State.countSample
  split
  · exact State.bump_holds hs
  · exact State.bump_holds hs
  · exact State.bump_holds hs
  · exact State.bump_holds hs
  · exact State.bump_holds hs
  · exact State.bump_holds hs
  · exact State.bump_holds hs

theorem State.shapeBytes_holds [ClosedFree G] {s x} (hs : Holds G s) :
    Holds G (State.shapeBytes s x).2 := by
  unfold State.shapeBytes
  split
  · exact hs
  · split
    · exact Holds.of_pair (by assumption) (State.freeBytes_holds hs)

theorem State.sampleEnds_holds [ClosedRegs G] [ClosedMem G] [ClosedLarder G] [ClosedHost G] [ClosedFree G] [ClosedCel G] [ClosedSeq G] [ClosedLoft G] [ClosedClient G] [ClosedCores G] [ClosedLists G] [ClosedJobs G] [ClosedPtns G] [ClosedFlock G] [ClosedAdp G] [ClosedSync G] {s e d x cycles} (hs : Holds G s) :
    Holds G (State.sampleEnds s e d x cycles) := by
  unfold State.sampleEnds
  extract_lets
  split
  · extract_lets
    split
    · extract_lets _ t1 _ _ t2
      have ht1 : Holds G t1 := State.countSample_holds (Holds.of_pair (by assumption) (State.shapeBytes_holds (Holds.of_pair (by assumption) (State.storeAll_holds hs))))
      have ht2 : Holds G t2 := Holds.adp ht1
      clear_value t1 t2
      exact State.settle_holds (State.inEnd_holds (State.signalReady_holds ht2))

theorem execSampleDecodeDone_holds [ClosedRegs G] [ClosedMem G] [ClosedLarder G] [ClosedHost G] [ClosedFree G] [ClosedCel G] [ClosedSeq G] [ClosedLoft G] [ClosedClient G] [ClosedCores G] [ClosedLists G] [ClosedJobs G] [ClosedPtns G] [ClosedFlock G] [ClosedAdp G] [ClosedSync G] {engine cycles s} (hs : Holds G s) :
    HoldsOut G (execSampleDecodeDone engine cycles s) := by
  unfold execSampleDecodeDone
  refine HoldsOut.next ?_
  split
  · exact hs
  · split
    · extract_lets
      exact Holds.ite hs (State.sampleEnds_holds (Holds.of_triple (by assumption) (State.decodeOf_holds hs)))

theorem execDecodeBudgetExpire_holds [ClosedRegs G] [ClosedMem G] [ClosedLarder G] [ClosedHost G] [ClosedFree G] [ClosedCel G] [ClosedSeq G] [ClosedLoft G] [ClosedClient G] [ClosedCores G] [ClosedLists G] [ClosedJobs G] [ClosedPtns G] [ClosedFlock G] [ClosedAdp G] [ClosedSync G] {engine written s} (hs : Holds G s) :
    HoldsOut G (execDecodeBudgetExpire engine written s) := by
  unfold execDecodeBudgetExpire
  refine HoldsOut.next ?_
  split
  · exact hs
  · split
    · exact Holds.ite hs (State.sampleEnds_holds (Holds.of_triple (by assumption) (State.decodeOf_holds hs)))

theorem execSupFault_holds [ClosedRegs G] {inputs s} (hs : Holds G s) :
    HoldsOut G (execSupFault inputs s) := by
  unfold execSupFault
  exact HoldsOut.next (State.latchBits_holds hs)

theorem State.featureWrite_holds [ClosedRegs G] [ClosedMem G] [ClosedCel G] [ClosedLoft G] {s a k bs} (hs : Holds G s) :
    Holds G (State.featureWrite s a k bs) := by
  unfold State.featureWrite
  extract_lets
  exact Holds.ite (State.store_holds hs) hs

theorem execFeatureFrame_holds [ClosedRegs G] [ClosedMem G] [ClosedLarder G] [ClosedHost G] [ClosedFree G] [ClosedCel G] [ClosedSeq G] [ClosedAud G] [ClosedLoft G] [ClosedClient G] [ClosedCores G] [ClosedLists G] [ClosedJobs G] [ClosedPtns G] [ClosedFlock G] [ClosedAdp G] [ClosedSync G] {input start wpos words driven s} (hs : Holds G s) :
    HoldsOut G (execFeatureFrame input start wpos words driven s) := by
  unfold execFeatureFrame
  extract_lets _ _ _ _ _ _ _ _ _ t1 t2 t3 t4 t5
  have ht1 : Holds G t1 := Holds.aud hs
  have ht2 : Holds G t2 := State.put_holds ht1
  have ht3 : Holds G t3 := Holds.ite (State.latch_holds ht2) ht2
  have ht4 : Holds G t4 := Holds.ite (State.latch_holds ht3) ht3
  have ht5 : Holds G t5 := State.featureWrite_holds ht4
  clear_value t1 t2 t3 t4 t5
  exact HoldsOut.next (Holds.ite hs (Holds.ite ht4 (State.settle_holds (State.signal_holds ht5))))

theorem State.inCommit_holds [ClosedRegs G] [ClosedFree G] [ClosedAdp G] [ClosedSync G] {s old} (hs : Holds G s) :
    Holds G (State.inCommit s old) := by
  unfold State.inCommit
  extract_lets _ _ t1 _ t2 _
  have ht1 : Holds G t1 := Holds.ite (State.inStop_holds hs) hs
  have ht2 : Holds G t2 := State.inStop_holds hs
  clear_value t1 t2
  exact Holds.ite (Holds.adp ht1) (Holds.ite (Holds.adp ht2) hs)

theorem State.audCommit_holds [ClosedAud G] {s old} (hs : Holds G s) :
    Holds G (State.audCommit s old) := by
  unfold State.audCommit
  refine Holds.foldl hs ?_
  intro y1 y2 h1
  extract_lets
  exact Holds.ite (Holds.aud h1) h1

end Sys2Proof.Machine
end

