-- ==== Sys2Proof/Laws/Alloc.lean ====
section
/-! SUPPORT. Laws/Alloc.lean: what the functions of Machine/Alloc.lean can change (Laws/Closure.lean). -/

namespace Sys2Proof.Machine

variable {G : State → Prop}

theorem State.showBinding_holds [ClosedRegs G] {s cores} (hs : Holds G s) :
    Holds G (State.showBinding s cores) := by
  unfold State.showBinding
  exact Holds.foldl hs (fun y1 y2 h1 => State.raise_holds (State.put_holds h1))

theorem State.bindMap_holds [ClosedRegs G] [ClosedCores G] [ClosedJobs G] {s j k m} (hs : Holds G s) :
    Holds G (State.bindMap s j k m) := by
  unfold State.bindMap
  extract_lets _ _ _ _ t1 t2 t3 _
  have ht1 : Holds G t1 := Holds.foldl hs (fun y1 y2 h1 => State.drop_holds (State.drop_holds h1))
  have ht2 : Holds G t2 := State.showBinding_holds ht1
  have ht3 : Holds G t3 := by
    refine Holds.foldl ht2 ?_
    intro y3 y4 h2
    extract_lets
    exact State.setCore_holds h2
  clear_value t1 t2 t3
  exact State.setJob_holds ht3

theorem State.coreNext_holds [ClosedLarder G] [ClosedCores G] [ClosedLists G] {s j n} (hs : Holds G s) :
    Holds G (State.coreNext s j n) := by
  unfold State.coreNext
  split
  · extract_lets _ t1 _
    have ht1 : Holds G t1 := Holds.ite (State.larderZero_holds hs) hs
    clear_value t1
    refine Holds.ite hs ?_
    refine Holds.ite (State.setList_holds (State.setCore_holds ht1)) ?_
    split
    · exact hs
    · exact State.setList_holds (State.setCore_holds hs)
  · exact hs

theorem State.tryCores_holds [ClosedRegs G] {s j lag p cores a5 a6} (hs : Holds G s) :
    Holds G (State.tryCores s j lag p cores a5 a6).2 := by
  induction a6 generalizing s j lag p cores a5 with
  | zero =>
    unfold State.tryCores
    exact hs
  | succ k ih =>
    unfold State.tryCores
    extract_lets
    split
    · exact ih hs
    · extract_lets t1
      have ht1 : Holds G t1 := Holds.ite (State.bump_holds hs) hs
      clear_value t1
      split
      · exact hs
      · exact ih ht1

theorem State.allocClass_holds [ClosedRegs G] [ClosedLarder G] [ClosedCores G] [ClosedLists G] [ClosedJobs G] {s j lag q cores entries a6} (hs : Holds G s) :
    Holds G (State.allocClass s j lag q cores entries a6) := by
  induction a6 generalizing s j lag q cores entries with
  | zero =>
    unfold State.allocClass
    exact hs
  | succ k ih =>
    unfold State.allocClass
    extract_lets
    split
    · exact hs
    · exact hs
    · split
      · extract_lets _ t1 _ _ t2 t3
        have ht1 : Holds G t1 := State.setJob_holds (Holds.of_pair (by assumption) (State.tryCores_holds hs))
        have ht2 : Holds G t2 := State.setCore_holds ht1
        have ht3 : Holds G t3 := State.coreNext_holds (State.put_holds ht2)
        clear_value t1 t2 t3
        exact ih ht3
      · split
        · exact State.bump_holds (Holds.of_pair (by assumption) (State.tryCores_holds hs))
        · exact Holds.of_pair (by assumption) (State.tryCores_holds hs)

theorem State.allocFor_holds [ClosedRegs G] [ClosedLarder G] [ClosedCores G] [ClosedLists G] [ClosedJobs G] {s j p m k} (hs : Holds G s) :
    Holds G (State.allocFor s j p m k) := by
  unfold State.allocFor
  split
  · exact hs
  · extract_lets
    exact Holds.ite hs (State.allocClass_holds hs)

theorem State.allocate_holds [ClosedRegs G] [ClosedLarder G] [ClosedCores G] [ClosedLists G] [ClosedJobs G] {s j} (hs : Holds G s) :
    Holds G (State.allocate s j) := by
  unfold State.allocate
  refine Holds.foldl hs ?_
  intro y1 y2 h1
  split
  · exact h1
  · exact Holds.foldl h1 (fun y3 y4 h2 => State.allocFor_holds h2)

theorem State.allocPosted_holds [ClosedRegs G] [ClosedLarder G] [ClosedCores G] [ClosedLists G] [ClosedJobs G] {s j x} (hs : Holds G s) :
    Holds G (State.allocPosted s j x) := by
  unfold State.allocPosted
  split
  · exact hs
  · split
    · exact hs
    · exact State.allocFor_holds hs

theorem State.enqueueStrip_holds [ClosedJobs G] {s j x} (hs : Holds G s) :
    Holds G (State.enqueueStrip s j x) := by
  unfold State.enqueueStrip
  split
  · exact hs
  · extract_lets
    exact State.setJob_holds hs

theorem State.postStrip_holds [ClosedRegs G] [ClosedLarder G] [ClosedCores G] [ClosedLists G] [ClosedJobs G] {s parts strip} (hs : Holds G s) :
    Holds G (State.postStrip s parts strip) := by
  unfold State.postStrip
  split
  · exact hs
  · extract_lets
    exact Holds.foldl hs (fun y1 y2 h1 => State.allocPosted_holds (State.enqueueStrip_holds h1))

theorem State.requeue_holds [ClosedJobs G] {s j} (hs : Holds G s) :
    Holds G (State.requeue s j) := by
  unfold State.requeue
  extract_lets
  exact Holds.foldl (State.setJob_holds hs) (fun y1 y2 h1 => State.enqueueStrip_holds h1)

theorem State.noMap_holds [ClosedRegs G] [ClosedLarder G] [ClosedHost G] [ClosedFree G] [ClosedSeq G] [ClosedLink G] [ClosedLoft G] [ClosedClient G] [ClosedCores G] [ClosedLists G] [ClosedJobs G] [ClosedPtns G] [ClosedFlock G] [ClosedSync G] {s j} (hs : Holds G s) :
    Holds G (State.noMap s j) := by
  unfold State.noMap
  extract_lets _ t1
  have ht1 : Holds G t1 := State.tearJob_holds hs
  clear_value t1
  exact Holds.ite (State.lineStop_holds ht1) ht1

theorem State.underMap_holds [ClosedRegs G] [ClosedLarder G] [ClosedHost G] [ClosedFree G] [ClosedCel G] [ClosedSeq G] [ClosedLink G] [ClosedLoft G] [ClosedClient G] [ClosedCores G] [ClosedLists G] [ClosedJobs G] [ClosedPtns G] [ClosedFlock G] [ClosedSync G] {s j i f} (hs : Holds G s) (hf : ∀ y0 y1 y2, Holds G y0 → Holds G (f y0 y1 y2)) :
    Holds G (State.underMap s j i f) := by
  unfold State.underMap
  split
  · split
    · exact State.noMap_holds (Holds.of_triple (by assumption) (State.load_holds hs))
    · exact hf _ _ _ (Holds.of_triple (by assumption) (State.load_holds hs))
  · exact State.tearJob_holds (Holds.of_triple (by assumption) (State.load_holds hs))

theorem State.freshMap_holds [ClosedCores G] [ClosedJobs G] {s j} (hs : Holds G s) :
    Holds G (State.freshMap s j) := by
  unfold State.freshMap
  extract_lets _ t1
  have ht1 : Holds G t1 := State.setJob_holds hs
  clear_value t1
  refine Holds.foldl ht1 ?_
  intro y1 y2 h1
  extract_lets
  exact State.setCore_holds h1

theorem State.mapSwitch_holds [ClosedRegs G] [ClosedLarder G] [ClosedHost G] [ClosedFree G] [ClosedCel G] [ClosedSeq G] [ClosedLink G] [ClosedLoft G] [ClosedClient G] [ClosedCores G] [ClosedLists G] [ClosedJobs G] [ClosedPtns G] [ClosedFlock G] [ClosedSync G] {s j} (hs : Holds G s) :
    Holds G (State.mapSwitch s j) := by
  unfold State.mapSwitch
  refine Holds.ite hs ?_
  split
  · exact hs
  · refine State.underMap_holds hs ?_
    intro y1 y2 y3 h1
    extract_lets t1
    have ht1 : Holds G t1 := State.requeue_holds (State.freshMap_holds (State.bindMap_holds h1))
    clear_value t1
    exact Holds.foldl ht1 (fun y4 y5 h2 => State.coreNext_holds h2)

theorem State.setupStep_holds [ClosedLarder G] [ClosedCores G] [ClosedLists G] {s} (hs : Holds G s) :
    Holds G (State.setupStep s) := by
  unfold State.setupStep
  refine Holds.foldl hs ?_
  intro y1 y2 h1
  split
  · exact State.coreNext_holds h1
  · exact h1

theorem State.partBoundary_holds [ClosedRegs G] [ClosedLarder G] [ClosedHost G] [ClosedFree G] [ClosedCel G] [ClosedSeq G] [ClosedLink G] [ClosedLoft G] [ClosedClient G] [ClosedCores G] [ClosedLists G] [ClosedJobs G] [ClosedPtns G] [ClosedFlock G] [ClosedSync G] {s j} (hs : Holds G s) :
    Holds G (State.partBoundary s j) := by
  unfold State.partBoundary
  extract_lets t1
  have ht1 : Holds G t1 := State.mapSwitch_holds hs
  clear_value t1
  refine Holds.foldl ht1 ?_
  intro y1 y2 h1
  extract_lets
  exact Holds.ite (State.coreNext_holds (State.setCore_holds h1)) h1

end Sys2Proof.Machine
end

