-- ==== Sys2Proof/Laws/Clock.lean ====
section
/-! SUPPORT. Laws/Clock.lean: what the functions of Machine/Clock.lean can change (Laws/Closure.lean). -/

namespace Sys2Proof.Machine

variable {G : State → Prop}

theorem State.markSuspect_holds [ClosedRegs G] {s} (hs : Holds G s) :
    Holds G (State.markSuspect s) := by
  unfold State.markSuspect
  extract_lets
  exact State.putFlag_holds (State.putFlag_holds hs)

theorem State.showFreqs_holds [ClosedRegs G] {s} (hs : Holds G s) :
    Holds G (State.showFreqs s) := by
  unfold State.showFreqs
  exact Holds.foldl hs (fun y1 y2 h1 => State.put_holds h1)

theorem State.sourceLost_holds [ClosedRegs G] [ClosedLoft G] [ClosedClk G] {s} (hs : Holds G s) :
    Holds G (State.sourceLost s) := by
  unfold State.sourceLost
  extract_lets _ t1 _ t2 t3
  have ht1 : Holds G t1 := State.drop_holds (State.latch_holds (State.raise_holds hs))
  have ht2 : Holds G t2 := Holds.clk ht1
  have ht3 : Holds G t3 := State.loftEvent_holds (State.bump_holds ht2)
  clear_value t1 t2 t3
  exact Holds.ite hs (State.markSuspect_holds (State.showFreqs_holds ht3))

theorem execClockSourceLoss_holds [ClosedRegs G] [ClosedLoft G] [ClosedClk G] {s} (hs : Holds G s) :
    HoldsOut G (execClockSourceLoss s) := by
  unfold execClockSourceLoss
  exact HoldsOut.next (State.onRails_holds hs (fun y1 h1 => State.sourceLost_holds h1))

theorem State.portLost_holds [ClosedRegs G] [ClosedLoft G] [ClosedClk G] {s k} (hs : Holds G s) :
    Holds G (State.portLost s k) := by
  unfold State.portLost
  exact Holds.ite (State.sourceLost_holds hs) hs

theorem State.takeSource_holds [ClosedRegs G] [ClosedClk G] {s rec port} (hs : Holds G s) :
    Holds G (State.takeSource s rec port) := by
  unfold State.takeSource
  extract_lets t1 t2 _
  have ht1 : Holds G t1 := State.put_holds (State.putFlag_holds hs)
  have ht2 : Holds G t2 := State.bump_holds ht1
  clear_value t1 t2
  exact Holds.ite (Holds.clk ht2) ht2

theorem execClockSwitch_holds [ClosedRegs G] [ClosedClk G] {s} (hs : Holds G s) :
    HoldsOut G (execClockSwitch s) := by
  unfold execClockSwitch
  refine HoldsOut.next ?_
  refine Holds.ite hs ?_
  split
  · exact State.takeSource_holds hs
  · exact hs

theorem execLoopRelock_holds [ClosedRegs G] [ClosedClk G] {s} (hs : Holds G s) :
    HoldsOut G (execLoopRelock s) := by
  unfold execLoopRelock
  refine HoldsOut.next ?_
  split
  · exact hs
  · extract_lets t1 t2 _ t3
    have ht1 : Holds G t1 := State.raise_holds (State.drop_holds hs)
    have ht2 : Holds G t2 := State.put_holds ht1
    have ht3 : Holds G t3 := Holds.clk ht2
    clear_value t1 t2 t3
    exact Holds.ite hs (State.markSuspect_holds (State.showFreqs_holds ht3))

theorem State.clkSwitch_holds [ClosedRegs G] [ClosedLoft G] [ClosedClk G] {s rec port} (hs : Holds G s) :
    Holds G (State.clkSwitch s rec port) := by
  unfold State.clkSwitch
  exact Holds.ite (State.loftEvent_holds (State.bump_holds (State.latch_holds hs))) (Holds.ite hs (State.takeSource_holds hs))

theorem execClkSwitchRequest_holds [ClosedRegs G] [ClosedLoft G] [ClosedClk G] {rec port s} (hs : Holds G s) :
    HoldsOut G (execClkSwitchRequest rec port s) := by
  unfold execClkSwitchRequest
  exact HoldsOut.next (State.written_holds hs (fun y1 h1 => State.clkSwitch_holds h1))

theorem State.clkCommit_holds [ClosedRegs G] [ClosedLoft G] [ClosedClk G] {s old} (hs : Holds G s) :
    Holds G (State.clkCommit s old) := by
  unfold State.clkCommit
  exact Holds.ite hs (Holds.ite (State.clkSwitch_holds hs) (Holds.ite (State.clkSwitch_holds hs) (State.loftEvent_holds (State.bump_holds (State.latch_holds hs)))))

theorem State.clkUpstream_holds [ClosedRegs G] [ClosedClk G] {s port} (hs : Holds G s) :
    Holds G (State.clkUpstream s port) := by
  unfold State.clkUpstream
  exact Holds.ite (State.takeSource_holds hs) hs

theorem execClockLostTimeout_holds [ClosedRegs G] [ClosedLink G] [ClosedLoft G] [ClosedClk G] {s} (hs : Holds G s) :
    HoldsOut G (execClockLostTimeout s) := by
  unfold execClockLostTimeout
  refine HoldsOut.next ?_
  split
  · exact hs
  · extract_lets
    exact Holds.ite hs (State.lineStop_holds (Holds.clk hs))

theorem execDtSuspectClear_holds [ClosedRegs G] {s} (hs : Holds G s) :
    HoldsOut G (execDtSuspectClear s) := by
  unfold execDtSuspectClear
  exact HoldsOut.next (State.markSuspect_holds hs)

theorem execXtalReady_holds [ClosedRegs G] {mv s} (hs : Holds G s) :
    HoldsOut G (execXtalReady mv s) := by
  unfold execXtalReady
  refine HoldsOut.next ?_
  refine State.onRails_holds hs ?_
  intro y1 h1
  extract_lets t1
  have ht1 : Holds G t1 := State.put_holds h1
  clear_value t1
  exact Holds.ite (State.raise_holds ht1) ht1

theorem execCrystalAmplitudeLoss_holds [ClosedRegs G] {mv s} (hs : Holds G s) :
    HoldsOut G (execCrystalAmplitudeLoss mv s) := by
  unfold execCrystalAmplitudeLoss
  refine HoldsOut.next ?_
  refine State.onRails_holds hs ?_
  intro y1 h1
  extract_lets t1
  have ht1 : Holds G t1 := State.put_holds h1
  clear_value t1
  exact Holds.ite (State.drop_holds ht1) ht1

theorem execRecoveredClockReady_holds [ClosedClk G] {port within s} (hs : Holds G s) :
    HoldsOut G (execRecoveredClockReady port within s) := by
  unfold execRecoveredClockReady
  extract_lets
  refine HoldsOut.next ?_
  refine State.onRails_holds hs ?_
  intro y1 h1
  extract_lets
  exact Holds.clk h1

end Sys2Proof.Machine
end

