-- ==== Sys2Proof/Laws/Fabric.lean ====
section
/-! SUPPORT. Laws/Fabric.lean: what the functions of Machine/Fabric.lean can change (Laws/Closure.lean). -/

namespace Sys2Proof.Machine

variable {G : State → Prop}

theorem State.setGport_holds [ClosedGts G] {s p x} (hs : Holds G s) :
    Holds G (State.setGport s p x) := by
  unfold State.setGport
  extract_lets
  exact Holds.gts hs

theorem State.sendCtl_holds [ClosedGts G] {s p type data} (hs : Holds G s) :
    Holds G (State.sendCtl s p type data) := by
  unfold State.sendCtl
  extract_lets
  exact State.setGport_holds hs

theorem State.pumpPort_holds [ClosedGts G] {s p} (hs : Holds G s) :
    Holds G (State.pumpPort s p) := by
  unfold State.pumpPort
  extract_lets
  exact Holds.foldl (State.setGport_holds hs) (fun y1 y2 h1 => Holds.ite (State.sendCtl_holds h1) h1)

theorem State.sendOn_holds [ClosedGts G] {s p k} (hs : Holds G s) :
    Holds G (State.sendOn s p k) := by
  unfold State.sendOn
  extract_lets
  exact Holds.ite (State.pumpPort_holds (State.setGport_holds hs)) hs

theorem State.giveBack_holds [ClosedGts G] {s k} (hs : Holds G s) :
    Holds G (State.giveBack s k) := by
  unfold State.giveBack
  exact Holds.foldl hs (fun y1 y2 h1 => Holds.ite (State.sendCtl_holds h1) h1)

theorem State.sendTo_holds [ClosedRegs G] [ClosedGts G] {s k down} (hs : Holds G s) :
    Holds G (State.sendTo s k down) := by
  unfold State.sendTo
  split
  · exact State.sendOn_holds hs
  · exact Holds.ite (State.bump_holds (State.giveBack_holds hs)) (State.giveBack_holds hs)

theorem State.sendBcast_holds [ClosedGts G] {s k} (hs : Holds G s) :
    Holds G (State.sendBcast s k) := by
  unfold State.sendBcast
  exact Holds.foldl hs (fun y1 y2 h1 => State.sendOn_holds h1)

theorem State.accept_holds [ClosedGts G] {s h vc len forward} (hs : Holds G s) :
    Holds G (State.accept s h vc len forward).2 := by
  unfold State.accept
  extract_lets _ _ t1
  have ht1 : Holds G t1 := State.setGport_holds hs
  clear_value t1
  split
  · exact hs
  · split
    · exact Holds.ite ht1 (State.sendCtl_holds ht1)
    · split
      · exact hs
      · exact State.sendCtl_holds (State.setGport_holds hs)

theorem State.deliverOrForward_holds [ClosedRegs G] [ClosedGts G] {s h type vc payload mine} (hs : Holds G s) (hmine : ∀ y0, Holds G y0 → Holds G (mine y0)) :
    Holds G (State.deliverOrForward s h type vc payload mine) := by
  unfold State.deliverOrForward
  split
  · exact Holds.of_pair (by assumption) (State.accept_holds hs)
  · exact Holds.ite (hmine _ (Holds.of_pair (by assumption) (State.accept_holds hs))) (State.sendTo_holds (Holds.of_pair (by assumption) (State.accept_holds hs)))

theorem State.sendHello_holds [ClosedGts G] {s p} (hs : Holds G s) :
    Holds G (State.sendHello s p) := by
  unfold State.sendHello
  extract_lets
  exact State.setGport_holds hs

theorem State.relink_holds [ClosedRegs G] [ClosedGts G] [ClosedClk G] {s} (hs : Holds G s) :
    Holds G (State.relink s) := by
  unfold State.relink
  extract_lets _ t1 t2 t3 _ _
  have ht1 : Holds G t1 := State.putFlag_holds (State.put_holds hs)
  have ht2 : Holds G t2 := State.put64_holds ht1
  have ht3 : Holds G t3 := by
    unfold t3
    split
    · extract_lets _ t4
      have ht4 : Holds G t4 := State.put_holds (State.raise_holds ht2)
      clear_value t4
      exact Holds.ite ht4 (State.clkUpstream_holds ht4)
    · exact State.drop_holds (State.drop_holds ht2)
  clear_value t1 t2 t3
  exact Holds.gts ht3

theorem State.portsChanged_holds [ClosedRegs G] [ClosedGts G] [ClosedClk G] {s} (hs : Holds G s) :
    Holds G (State.portsChanged s) := by
  unfold State.portsChanged
  extract_lets t1
  have ht1 : Holds G t1 := State.relink_holds hs
  clear_value t1
  exact Holds.ite ht1 (Holds.foldl ht1 (fun y1 y2 h1 => State.sendOn_holds h1))

theorem State.bcastTuple_holds [ClosedGts G] {s t} (hs : Holds G s) :
    Holds G (State.bcastTuple s t) := by
  unfold State.bcastTuple
  exact Holds.ite (State.sendBcast_holds hs) hs

end Sys2Proof.Machine
end

