-- ==== Sys2Proof/Laws/Position.lean ====
section
/-! SUPPORT. Laws/Position.lean: what the functions of Machine/Position.lean can change (Laws/Closure.lean). -/

namespace Sys2Proof.Machine

variable {G : State → Prop}

theorem State.setChan_holds [ClosedPos G] {s i c} (hs : Holds G s) :
    Holds G (State.setChan s i c) := by
  unfold State.setChan
  extract_lets
  exact Holds.pos hs

theorem State.sourceRead_holds [ClosedPos G] {s fresh c} (hs : Holds G s) :
    Holds G (State.sourceRead s fresh c) := by
  unfold State.sourceRead
  extract_lets
  exact Holds.pos hs

theorem State.standbyAlign_holds [ClosedRegs G] [ClosedPos G] {s c} (hs : Holds G s) :
    Holds G (State.standbyAlign s c) := by
  unfold State.standbyAlign
  split
  · exact hs
  · extract_lets
    exact State.putFlag_holds (Holds.pos hs)

theorem State.countRead_holds [ClosedRegs G] {s n a2} (hs : Holds G s) :
    Holds G (State.countRead s n a2) := by
  unfold State.countRead
  split
  · exact hs
  · exact State.bump_holds hs
  · exact State.bump_holds hs
  · exact State.bump_holds hs
  · exact State.bump_holds hs
  · exact State.bump_holds hs

theorem State.markRead_holds [ClosedRegs G] {s n st} (hs : Holds G s) :
    Holds G (State.markRead s n st) := by
  unfold State.markRead
  extract_lets t1
  have ht1 : Holds G t1 := State.countRead_holds (State.put_holds hs)
  clear_value t1
  exact Holds.ite (State.putFlag_holds ht1) ht1

theorem State.showWord_holds [ClosedRegs G] {s n word} (hs : Holds G s) :
    Holds G (State.showWord s n word) := by
  unfold State.showWord
  exact State.put_holds (State.put_holds hs)

theorem State.countToTuple_holds [ClosedPos G] {s t} (hs : Holds G s) :
    Holds G (State.countToTuple s t) := by
  unfold State.countToTuple
  extract_lets
  exact Holds.pos hs

theorem State.acceptRead_holds [ClosedRegs G] [ClosedPos G] {s n word fresh c} (hs : Holds G s) :
    Holds G (State.acceptRead s n word fresh c) := by
  unfold State.acceptRead
  extract_lets t1 t2 p t3
  have ht1 : Holds G t1 := State.showWord_holds (State.markRead_holds (State.setChan_holds hs))
  have ht2 : Holds G t2 := State.countToTuple_holds ht1
  have ht3 : Holds G t3 := Holds.pos ht2
  exact Holds.ite (Holds.ite (Holds.ite (Holds.pos ht2) (State.sourceRead_holds ht2)) (Holds.ite (State.standbyAlign_holds ht3) ht3)) ht1

theorem State.discardRead_holds [ClosedRegs G] [ClosedPos G] {s n request st} (hs : Holds G s) :
    Holds G (State.discardRead s n request st) := by
  unfold State.discardRead
  extract_lets t1
  have ht1 : Holds G t1 := State.markRead_holds hs
  clear_value t1
  exact Holds.ite (State.countToTuple_holds ht1) ht1

theorem State.encoderRead_holds [ClosedRegs G] [ClosedFree G] [ClosedPos G] {s n latch ready raw err check tail} (hs : Holds G s) :
    Holds G (State.encoderRead s n latch ready raw err check tail) := by
  unfold State.encoderRead
  extract_lets
  refine Holds.ite hs ?_
  split
  · refine Holds.ite (State.acceptRead_holds (Holds.free hs)) ?_
    refine Holds.ite (State.acceptRead_holds (Holds.free hs)) ?_
    split
    · extract_lets
      exact Holds.ite (State.discardRead_holds hs) (State.acceptRead_holds (Holds.free hs))
  · exact State.discardRead_holds hs

theorem execEncoderRead_holds [ClosedRegs G] [ClosedFree G] [ClosedPos G] {ch latch ready word err chk tail s} (hs : Holds G s) :
    HoldsOut G (execEncoderRead ch latch ready word err chk tail s) := by
  unfold execEncoderRead
  exact HoldsOut.next (State.encoderRead_holds hs)

theorem State.promoteBase_holds [ClosedPos G] {s} (hs : Holds G s) :
    Holds G (State.promoteBase s) := by
  unfold State.promoteBase
  split
  · exact hs
  · extract_lets
    exact Holds.pos hs

theorem State.extrapolate_holds [ClosedPos G] {s} (hs : Holds G s) :
    Holds G (State.extrapolate s) := by
  unfold State.extrapolate
  refine Holds.ite hs ?_
  split
  · exact hs
  · extract_lets
    exact Holds.ite (Holds.pos hs) (Holds.ite (Holds.pos hs) (Holds.pos hs))

theorem State.revExcess_holds [ClosedRegs G] [ClosedLink G] [ClosedLoft G] {s} (hs : Holds G s) :
    Holds G (State.revExcess s) := by
  unfold State.revExcess
  exact Holds.ite (State.lineStop_holds (State.raise_holds hs)) hs

theorem State.overspeed_holds [ClosedRegs G] [ClosedLink G] [ClosedLoft G] {s} (hs : Holds G s) :
    Holds G (State.overspeed s) := by
  unfold State.overspeed
  exact Holds.ite (State.lineStop_holds (State.raise_holds hs)) (State.drop_holds hs)

theorem State.ntmTick_holds [ClosedNtm G] {s} (hs : Holds G s) :
    Holds G (State.ntmTick s) := by
  unfold State.ntmTick
  extract_lets
  exact Holds.ntm hs

theorem State.sendTuple_holds [ClosedPos G] [ClosedGts G] {s lost} (hs : Holds G s) :
    Holds G (State.sendTuple s lost) := by
  unfold State.sendTuple
  extract_lets t1 _
  have ht1 : Holds G t1 := State.bcastTuple_holds hs
  clear_value t1
  exact Holds.pos ht1

theorem execPosTupleSend_holds [ClosedPos G] [ClosedGts G] {s} (hs : Holds G s) :
    HoldsOut G (execPosTupleSend s) := by
  unfold execPosTupleSend
  exact HoldsOut.next (Holds.ite (State.sendTuple_holds hs) hs)

theorem State.acceptTuple_holds [ClosedPos G] {s t} (hs : Holds G s) :
    Holds G (State.acceptTuple s t) := by
  unfold State.acceptTuple
  extract_lets
  exact Holds.pos hs

theorem State.posTuple_holds [ClosedRegs G] [ClosedPos G] {s t} (hs : Holds G s) :
    Holds G (State.posTuple s t) := by
  unfold State.posTuple
  extract_lets t1 _
  have ht1 : Holds G t1 := Holds.ite (State.put_holds hs) hs
  clear_value t1
  exact Holds.ite hs (Holds.ite (Holds.ite (Holds.pos ht1) (State.acceptTuple_holds ht1)) (Holds.ite hs (Holds.ite (State.acceptTuple_holds hs) hs)))

theorem execPosTuple_holds [ClosedRegs G] [ClosedPos G] [ClosedGts G] {h t s} (hs : Holds G s) :
    HoldsOut G (execPosTuple h t s) := by
  unfold execPosTuple
  refine HoldsOut.next ?_
  split
  · exact Holds.of_pair (by assumption) (State.accept_holds hs)
  · exact Holds.ite (Holds.of_pair (by assumption) (State.accept_holds hs)) (State.posTuple_holds (State.bcastTuple_holds (Holds.of_pair (by assumption) (State.accept_holds hs))))

theorem State.takeOver_holds [ClosedRegs G] [ClosedFree G] [ClosedPos G] {s} (hs : Holds G s) :
    Holds G (State.takeOver s) := by
  unfold State.takeOver
  extract_lets
  split
  · extract_lets t1 t2 t3 _
    have ht1 : Holds G t1 := Holds.ite hs (Holds.of_pair (by assumption) (State.draw_holds hs))
    have ht2 : Holds G t2 := State.put_holds ht1
    have ht3 : Holds G t3 := State.put_holds (State.latch_holds ht2)
    clear_value t1 t2 t3
    exact Holds.pos ht3

theorem execTakeover_holds [ClosedRegs G] [ClosedFree G] [ClosedPos G] {s} (hs : Holds G s) :
    HoldsOut G (execTakeover s) := by
  unfold execTakeover
  exact HoldsOut.next (Holds.ite (State.takeOver_holds hs) hs)

theorem State.posSnap_holds [ClosedRegs G] {s} (hs : Holds G s) :
    Holds G (State.posSnap s) := by
  unfold State.posSnap
  exact State.put_holds (State.put64_holds (State.put64_holds hs))

theorem execPosSnapTake_holds [ClosedRegs G] {s} (hs : Holds G s) :
    HoldsOut G (execPosSnapTake s) := by
  unfold execPosSnapTake
  exact HoldsOut.next (State.written_holds hs (fun y1 h1 => State.posSnap_holds h1))

theorem State.chanCommit_holds [ClosedPos G] {s old n} (hs : Holds G s) :
    Holds G (State.chanCommit s old n) := by
  unfold State.chanCommit
  extract_lets
  exact Holds.ite (State.setChan_holds hs) (Holds.ite (State.setChan_holds hs) (Holds.ite (State.setChan_holds hs) hs))

theorem State.beginBase_holds [ClosedPos G] {s} (hs : Holds G s) :
    Holds G (State.beginBase s) := by
  unfold State.beginBase
  extract_lets
  exact Holds.ite (Holds.pos hs) (Holds.pos hs)

theorem State.extrapOfSource_holds [ClosedRegs G] {s} (hs : Holds G s) :
    Holds G (State.extrapOfSource s) := by
  unfold State.extrapOfSource
  exact State.putFlag_holds hs

theorem State.roleCommit_holds [ClosedRegs G] [ClosedPos G] {s old} (hs : Holds G s) :
    Holds G (State.roleCommit s old) := by
  unfold State.roleCommit
  extract_lets _ _ _ t1 _ t2 _ t3 t4 _
  have ht1 : Holds G t1 := State.drop_holds (State.put_holds hs)
  have ht2 : Holds G t2 := Holds.ite (Holds.pos ht1) hs
  have ht3 : Holds G t3 := Holds.ite (Holds.pos ht2) ht2
  have ht4 : Holds G t4 := Holds.ite (State.extrapOfSource_holds ht3) ht3
  clear_value t1 t2 t3 t4
  exact Holds.ite (Holds.pos ht4) (Holds.ite (State.beginBase_holds ht4) ht4)

theorem State.rezero_holds [ClosedRegs G] [ClosedPos G] {s} (hs : Holds G s) :
    Holds G (State.rezero s) := by
  unfold State.rezero
  extract_lets _ t1 t2 _ t3 t4 _ t5
  have ht1 : Holds G t1 := Holds.pos hs
  have ht2 : Holds G t2 := State.drop_holds (State.drop_holds ht1)
  have ht3 : Holds G t3 := Holds.ite (State.beginBase_holds ht2) (State.drop_holds (Holds.pos ht2))
  have ht4 : Holds G t4 := by
    refine Holds.foldl ht3 ?_
    intro y1 y2 h1
    extract_lets
    exact Holds.ite (State.setChan_holds h1) h1
  have ht5 : Holds G t5 := Holds.ite (Holds.pos ht4) ht4
  clear_value t1 t2 t3 t4 t5
  exact State.drop_holds ht5

theorem State.posCommit_holds [ClosedRegs G] [ClosedPos G] {s old} (hs : Holds G s) :
    Holds G (State.posCommit s old) := by
  unfold State.posCommit
  extract_lets t1 t2 t3
  have ht1 : Holds G t1 := Holds.foldl hs (fun y1 y2 h1 => State.chanCommit_holds h1)
  have ht2 : Holds G t2 := State.roleCommit_holds ht1
  have ht3 : Holds G t3 := Holds.ite ht2 (State.drop_holds ht2)
  clear_value t1 t2 t3
  exact Holds.ite (State.rezero_holds ht3) ht3

end Sys2Proof.Machine
end

