-- ==== Sys2Proof/Laws/Eject.lean ====
section
/-! SUPPORT. Laws/Eject.lean: what the functions of Machine/Eject.lean can change (Laws/Closure.lean). -/

namespace Sys2Proof.Machine

variable {G : State → Prop}

theorem State.notePulse_holds [ClosedSeq G] {s q} (hs : Holds G s) :
    Holds G (State.notePulse s q) := by
  unfold State.notePulse
  extract_lets
  exact Holds.seq hs

theorem State.setFrame_holds [ClosedSeq G] {s f} (hs : Holds G s) :
    Holds G (State.setFrame s f) := by
  unfold State.setFrame
  extract_lets
  exact Holds.seq hs

theorem State.flagOwner_holds [ClosedSeq G] {s e k} (hs : Holds G s) :
    Holds G (State.flagOwner s e k) := by
  unfold State.flagOwner
  split
  · exact hs
  · exact State.setPart_holds hs

theorem State.armOwners_holds [ClosedSeq G] {s f} (hs : Holds G s) :
    Holds G (State.armOwners s f) := by
  unfold State.armOwners
  refine Holds.foldl hs ?_
  intro y1 y2 h1
  split
  · exact h1
  · extract_lets
    exact State.setPart_holds h1

theorem State.refuse_holds [ClosedRegs G] [ClosedHost G] [ClosedFree G] [ClosedSeq G] [ClosedLoft G] [ClosedClient G] [ClosedSdg G] {s e} (hs : Holds G s) :
    Holds G (State.refuse s e) := by
  unfold State.refuse
  split
  · exact hs
  · extract_lets
    exact State.finish_holds (State.setPart_holds hs)

theorem State.leadShort_holds [ClosedRegs G] [ClosedHost G] [ClosedFree G] [ClosedSeq G] [ClosedLink G] [ClosedLoft G] [ClosedClient G] [ClosedSdg G] {s e} (hs : Holds G s) :
    Holds G (State.leadShort s e) := by
  unfold State.leadShort
  exact State.refuse_holds (State.lineStop_holds (State.latch_holds (State.bump_holds hs)))

theorem State.sendNew_holds [ClosedRegs G] [ClosedHost G] [ClosedFree G] [ClosedSeq G] [ClosedLink G] [ClosedLoft G] [ClosedClient G] [ClosedSdg G] {s q on off e behind} (hs : Holds G s) :
    Holds G (State.sendNew s q on off e behind) := by
  unfold State.sendNew
  extract_lets _ _ t1 _ t2
  have ht1 : Holds G t1 := Holds.ite (State.bump_holds hs) hs
  have ht2 : Holds G t2 := Holds.seq ht1
  clear_value t1 t2
  exact Holds.ite (State.leadShort_holds hs) (Holds.ite (State.refuse_holds (State.lineStop_holds (State.latch_holds hs))) (State.sendDown_holds (State.armOwners_holds ht2)))

theorem State.offerWith_holds [ClosedRegs G] [ClosedHost G] [ClosedFree G] [ClosedSeq G] [ClosedLink G] [ClosedLoft G] [ClosedClient G] [ClosedSdg G] {s b q e} (hs : Holds G s) :
    Holds G (State.offerWith s b q e) := by
  unfold State.offerWith
  split
  · extract_lets _ t1
    have ht1 : Holds G t1 := State.flagOwner_holds hs
    clear_value t1
    split
    · exact State.sendNew_holds hs
    · extract_lets _ _ t2 _ _
      have ht2 : Holds G t2 := State.flagOwner_holds (State.setFrame_holds hs)
      clear_value t2
      exact Holds.ite (State.sendNew_holds hs) (Holds.ite (State.sendDown_holds (State.bump_holds (State.armOwners_holds ht2))) (Holds.ite (State.refuse_holds (State.lineStop_holds ht1)) (State.sendNew_holds ht1)))

theorem State.offer_holds [ClosedRegs G] [ClosedHost G] [ClosedFree G] [ClosedSeq G] [ClosedLink G] [ClosedLoft G] [ClosedClient G] [ClosedSdg G] {s q e} (hs : Holds G s) :
    Holds G (State.offer s q e) := by
  unfold State.offer
  split
  · extract_lets
    exact Holds.seq hs
  · exact State.offerWith_holds hs

theorem State.decide__holds [ClosedRegs G] [ClosedMem G] [ClosedLarder G] [ClosedHost G] [ClosedFree G] [ClosedCel G] [ClosedSeq G] [ClosedLink G] [ClosedLoft G] [ClosedClient G] [ClosedCores G] [ClosedLists G] [ClosedJobs G] [ClosedPtns G] [ClosedFlock G] [ClosedAdp G] [ClosedSdg G] [ClosedSync G] {s i} (hs : Holds G s) :
    Holds G (State.decide_ s i) := by
  unfold State.decide_
  extract_lets t1 _ _ t2
  have ht1 : Holds G t1 := State.assignVerdict_holds hs
  have ht2 : Holds G t2 := State.setPart_holds ht1
  clear_value t1 t2
  exact Holds.ite (State.offer_holds ht2) (State.finish_holds ht1)

theorem State.ejectPass_holds [ClosedRegs G] [ClosedHost G] [ClosedFree G] [ClosedSeq G] [ClosedLink G] [ClosedLoft G] [ClosedClient G] [ClosedSdg G] {s i} (hs : Holds G s) :
    Holds G (State.ejectPass s i) := by
  unfold State.ejectPass
  extract_lets _ _ _ t1 _
  have ht1 : Holds G t1 := State.setPart_holds hs
  clear_value t1
  split
  · exact State.loftValue_holds (State.loftValue_holds ht1)
  · split
    · exact hs
    · extract_lets t2
      have ht2 : Holds G t2 := Holds.seq hs
      clear_value t2
      exact State.leadShort_holds ht2
  · exact hs

theorem State.correct_holds [ClosedSeq G] [ClosedLink G] {s f} (hs : Holds G s) :
    Holds G (State.correct s f) := by
  unfold State.correct
  refine Holds.ite hs ?_
  split
  · exact Holds.ite hs (State.sendDown_holds (State.setFrame_holds hs))
  · extract_lets
    split
    · extract_lets
      exact Holds.ite (State.sendDown_holds (State.armOwners_holds (State.setFrame_holds hs))) (Holds.ite (State.sendDown_holds (State.armOwners_holds (State.setFrame_holds hs))) (State.setFrame_holds hs))

theorem State.offerWaiting_holds [ClosedRegs G] [ClosedHost G] [ClosedFree G] [ClosedSeq G] [ClosedLink G] [ClosedLoft G] [ClosedClient G] [ClosedSdg G] {s} (hs : Holds G s) :
    Holds G (State.offerWaiting s) := by
  unfold State.offerWaiting
  split
  · exact hs
  · extract_lets
    exact Holds.foldl (Holds.seq hs) (fun y1 y2 h1 => State.offerWith_holds h1)

theorem execEdgeRecompute_holds [ClosedRegs G] [ClosedHost G] [ClosedFree G] [ClosedPos G] [ClosedSeq G] [ClosedLink G] [ClosedLoft G] [ClosedClient G] [ClosedSdg G] {s} (hs : Holds G s) :
    HoldsOut G (execEdgeRecompute s) := by
  unfold execEdgeRecompute
  extract_lets _ t1 t2
  have ht1 : Holds G t1 := Holds.pos hs
  have ht2 : Holds G t2 := by
    refine Holds.foldl ht1 ?_
    intro y1 y2 h1
    split
    · exact State.correct_holds h1
    · exact h1
  clear_value t1 t2
  exact HoldsOut.next (Holds.ite hs (State.offerWaiting_holds ht2))

theorem State.endFrame_holds [ClosedRegs G] [ClosedHost G] [ClosedFree G] [ClosedSeq G] [ClosedLoft G] [ClosedClient G] [ClosedSdg G] {s f} (hs : Holds G s) :
    Holds G (State.endFrame s f) := by
  unfold State.endFrame
  extract_lets _ t1
  have ht1 : Holds G t1 := Holds.seq hs
  clear_value t1
  refine Holds.foldl ht1 ?_
  intro y1 y2 h1
  split
  · exact Holds.ite (State.finish_holds h1) h1
  · exact h1

theorem State.flagFrame_holds [ClosedSeq G] {s f k} (hs : Holds G s) :
    Holds G (State.flagFrame s f k) := by
  unfold State.flagFrame
  exact Holds.foldl hs (fun y1 y2 h1 => State.flagOwner_holds h1)

theorem State.missFrame_holds [ClosedRegs G] [ClosedHost G] [ClosedFree G] [ClosedSeq G] [ClosedLoft G] [ClosedClient G] [ClosedSdg G] {s f} (hs : Holds G s) :
    Holds G (State.missFrame s f) := by
  unfold State.missFrame
  extract_lets t1
  have ht1 : Holds G t1 := by
    refine Holds.foldl (State.flagFrame_holds hs) ?_
    intro y1 y2 h1
    extract_lets
    exact State.setPart_holds h1
  clear_value t1
  exact State.endFrame_holds ht1

theorem execEdgeReportTimeout_holds [ClosedRegs G] [ClosedHost G] [ClosedFree G] [ClosedSeq G] [ClosedLoft G] [ClosedClient G] [ClosedSdg G] {s} (hs : Holds G s) :
    HoldsOut G (execEdgeReportTimeout s) := by
  unfold execEdgeReportTimeout
  refine HoldsOut.next ?_
  split
  · exact hs
  · exact State.endFrame_holds (State.flagFrame_holds hs)

theorem State.lossOf_holds [ClosedRegs G] [ClosedHost G] [ClosedFree G] [ClosedSeq G] [ClosedLoft G] [ClosedClient G] [ClosedSdg G] {s i} (hs : Holds G s) :
    Holds G (State.lossOf s i) := by
  unfold State.lossOf
  extract_lets _ _ _ _ t1
  have ht1 : Holds G t1 := Holds.seq hs
  clear_value t1
  split
  · exact State.finish_holds (State.setPart_holds hs)
  · exact State.finish_holds (State.setPart_holds hs)
  · exact State.finish_holds (State.setPart_holds ht1)
  · exact State.setPart_holds hs
  · exact hs

theorem State.partsLost_holds [ClosedRegs G] [ClosedHost G] [ClosedFree G] [ClosedSeq G] [ClosedLink G] [ClosedLoft G] [ClosedClient G] [ClosedSdg G] {s} (hs : Holds G s) :
    Holds G (State.partsLost s) := by
  unfold State.partsLost
  extract_lets t1 _ t2
  have ht1 : Holds G t1 := Holds.foldl hs (fun y1 y2 h1 => State.lossOf_holds h1)
  have ht2 : Holds G t2 := Holds.seq ht1
  clear_value t1 t2
  exact Holds.foldl ht2 (fun y3 y4 h2 => State.sendDown_holds (State.setFrame_holds h2))

theorem State.losePosition_holds [ClosedRegs G] [ClosedHost G] [ClosedFree G] [ClosedPos G] [ClosedSeq G] [ClosedLink G] [ClosedLoft G] [ClosedGts G] [ClosedClient G] [ClosedSdg G] {s} (hs : Holds G s) :
    Holds G (State.losePosition s) := by
  unfold State.losePosition
  extract_lets _ t1 t2 t3 t4 _
  have ht1 : Holds G t1 := State.partsLost_holds (State.lineStop_holds (State.raise_holds hs))
  have ht2 : Holds G t2 := Holds.foldl ht1 (fun y1 y2 h1 => State.setChan_holds h1)
  have ht3 : Holds G t3 := Holds.ite (State.sendTuple_holds ht2) ht2
  have ht4 : Holds G t4 := State.put_holds ht3
  clear_value t1 t2 t3 t4
  exact Holds.pos ht4

theorem execPosLost_holds [ClosedRegs G] [ClosedHost G] [ClosedFree G] [ClosedPos G] [ClosedSeq G] [ClosedLink G] [ClosedLoft G] [ClosedGts G] [ClosedClient G] [ClosedSdg G] {s} (hs : Holds G s) :
    HoldsOut G (execPosLost s) := by
  unfold execPosLost
  exact HoldsOut.next (Holds.ite (State.losePosition_holds hs) hs)

end Sys2Proof.Machine
end

