-- ==== Sys2Proof/Laws/Field.lean ====
section
/-! SUPPORT. Laws/Field.lean: what the functions of Machine/Field.lean can change (Laws/Closure.lean). -/

namespace Sys2Proof.Machine

variable {G : State → Prop}

theorem State.sendUp_holds [ClosedField G] [ClosedLink G] {s m} (hs : Holds G s) :
    Holds G (State.sendUp s m) := by
  unfold State.sendUp
  extract_lets
  exact Holds.field_link hs

theorem State.setOut_holds [ClosedField G] {s q o} (hs : Holds G s) :
    Holds G (State.setOut s q o) := by
  unfold State.setOut
  extract_lets
  exact Holds.field hs

theorem State.settleOut_holds [ClosedRegs G] [ClosedField G] {s q} (hs : Holds G s) :
    Holds G (State.settleOut s q) := by
  unfold State.settleOut
  extract_lets _ _ _ t1
  have ht1 : Holds G t1 := State.setOut_holds hs
  clear_value t1
  exact Holds.ite (State.onRails_holds ht1 (fun y1 h1 => State.drop_holds h1)) ht1

theorem State.settleOuts_holds [ClosedRegs G] [ClosedField G] {s} (hs : Holds G s) :
    Holds G (State.settleOuts s) := by
  unfold State.settleOuts
  exact Holds.foldl hs (fun y1 y2 h1 => State.settleOut_holds h1)

theorem State.driveLs_holds [ClosedField G] {s} (hs : Holds G s) :
    Holds G (State.driveLs s) := by
  unfold State.driveLs
  extract_lets
  exact Holds.field hs

theorem State.rejectUp_holds [ClosedField G] [ClosedLink G] {s reason tag seq missing} (hs : Holds G s) :
    Holds G (State.rejectUp s reason tag seq missing) := by
  unfold State.rejectUp
  exact State.sendUp_holds hs

theorem State.receive_holds [ClosedField G] [ClosedLink G] {s seq m} (hs : Holds G s) :
    Holds G (State.receive s seq m) := by
  unfold State.receive
  extract_lets _ _ t1 t2 _
  have ht1 : Holds G t1 := Holds.link hs
  have ht2 : Holds G t2 := Holds.ite ht1 (State.rejectUp_holds ht1)
  clear_value t1 t2
  exact Holds.field ht2

theorem State.fieldNew_holds [ClosedRegs G] [ClosedField G] [ClosedLink G] {s seq ch tag on off} (hs : Holds G s) :
    Holds G (State.fieldNew s seq ch tag on off) := by
  unfold State.fieldNew
  split
  · exact State.rejectUp_holds hs
  · extract_lets _ t1
    have ht1 : Holds G t1 := Holds.field hs
    clear_value t1
    exact State.onRails_holds ht1 (fun y1 h1 => State.peak_holds h1)

theorem execEdgeNew_holds [ClosedRegs G] [ClosedField G] [ClosedLink G] {seq channel tag on off s} (hs : Holds G s) :
    HoldsOut G (execEdgeNew seq channel tag on off s) := by
  unfold execEdgeNew
  exact HoldsOut.next (State.fieldNew_holds (State.receive_holds hs))

theorem State.setPulse_holds [ClosedField G] {s p} (hs : Holds G s) :
    Holds G (State.setPulse s p) := by
  unfold State.setPulse
  extract_lets
  exact Holds.field hs

theorem State.fieldCorr_holds [ClosedField G] [ClosedLink G] {s seq ch tag on off} (hs : Holds G s) :
    Holds G (State.fieldCorr s seq ch tag on off) := by
  unfold State.fieldCorr
  split
  · exact State.rejectUp_holds hs
  · extract_lets
    exact Holds.ite (Holds.ite (State.rejectUp_holds hs) (Holds.ite (State.rejectUp_holds hs) (State.setPulse_holds hs))) (Holds.ite (State.rejectUp_holds hs) (Holds.ite (State.rejectUp_holds hs) (State.setPulse_holds hs)))

theorem execEdgeCorr_holds [ClosedField G] [ClosedLink G] {seq channel tag on off s} (hs : Holds G s) :
    HoldsOut G (execEdgeCorr seq channel tag on off s) := by
  unfold execEdgeCorr
  exact HoldsOut.next (State.fieldCorr_holds (State.receive_holds hs))

theorem execEdgeHold_holds [ClosedField G] [ClosedLink G] {seq channel tag s} (hs : Holds G s) :
    HoldsOut G (execEdgeHold seq channel tag s) := by
  unfold execEdgeHold
  extract_lets t1
  have ht1 : Holds G t1 := State.receive_holds hs
  clear_value t1
  refine HoldsOut.next ?_
  split
  · exact State.rejectUp_holds ht1
  · exact Holds.ite (State.setPulse_holds ht1) (State.rejectUp_holds ht1)

theorem State.reportUnfired_holds [ClosedFree G] [ClosedField G] [ClosedLink G] {s p result} (hs : Holds G s) :
    Holds G (State.reportUnfired s p result) := by
  unfold State.reportUnfired
  split
  · split
    · exact State.sendUp_holds (Holds.of_pair (by assumption) (State.draw_holds (Holds.of_pair (by assumption) (State.draw_holds hs))))

theorem execEdgeCancel_holds [ClosedFree G] [ClosedField G] [ClosedLink G] {seq channel tag s} (hs : Holds G s) :
    HoldsOut G (execEdgeCancel seq channel tag s) := by
  unfold execEdgeCancel
  extract_lets t1 _
  have ht1 : Holds G t1 := State.receive_holds hs
  clear_value t1
  refine HoldsOut.next ?_
  split
  · exact State.rejectUp_holds ht1
  · exact Holds.ite (State.reportUnfired_holds (Holds.field ht1)) (State.rejectUp_holds ht1)

theorem State.sendStatus_holds [ClosedField G] [ClosedLink G] {s} (hs : Holds G s) :
    Holds G (State.sendStatus s) := by
  unfold State.sendStatus
  extract_lets
  exact State.sendUp_holds hs

theorem State.judgeSync_holds [ClosedRegs G] [ClosedField G] {s dt} (hs : Holds G s) :
    Holds G (State.judgeSync s dt) := by
  unfold State.judgeSync
  split
  · exact hs
  · extract_lets
    exact Holds.ite (Holds.field hs) (State.onRails_holds (Holds.field hs) (fun y1 h1 => State.bump_holds h1))

theorem State.reportFlushed_holds [ClosedFree G] [ClosedField G] [ClosedLink G] {s} (hs : Holds G s) :
    Holds G (State.reportFlushed s) := by
  unfold State.reportFlushed
  extract_lets
  exact Holds.foldl (Holds.field hs) (fun y1 y2 h1 => State.reportUnfired_holds h1)

theorem execHeartbeat_holds [ClosedRegs G] [ClosedFree G] [ClosedField G] [ClosedLink G] {seq beat measured s} (hs : Holds G s) :
    HoldsOut G (execHeartbeat seq beat measured s) := by
  unfold execHeartbeat
  extract_lets t1 t2 _ t3
  have ht1 : Holds G t1 := State.receive_holds hs
  have ht2 : Holds G t2 := State.judgeSync_holds ht1
  have ht3 : Holds G t3 := Holds.field ht2
  clear_value t1 t2 t3
  exact HoldsOut.next (State.sendStatus_holds (State.driveLs_holds (State.reportFlushed_holds ht3)))

theorem State.cutPulses_holds [ClosedField G] {s q} (hs : Holds G s) :
    Holds G (State.cutPulses s q) := by
  unfold State.cutPulses
  extract_lets
  exact Holds.field hs

theorem execOutCfg_holds [ClosedRegs G] [ClosedField G] [ClosedLink G] {seq channel mode safe openEn ovlUs s} (hs : Holds G s) :
    HoldsOut G (execOutCfg seq channel mode safe openEn ovlUs s) := by
  unfold execOutCfg
  extract_lets t1 _ t2 _
  have ht1 : Holds G t1 := State.receive_holds hs
  have ht2 : Holds G t2 := Holds.ite (State.cutPulses_holds ht1) ht1
  clear_value t1 t2
  exact HoldsOut.next (State.settleOut_holds (State.setOut_holds ht2))

theorem execOutSet_holds [ClosedRegs G] [ClosedField G] [ClosedLink G] {seq level s} (hs : Holds G s) :
    HoldsOut G (execOutSet seq level s) := by
  unfold execOutSet
  extract_lets t1
  have ht1 : Holds G t1 := State.receive_holds hs
  clear_value t1
  refine HoldsOut.next ?_
  refine Holds.foldl ht1 ?_
  intro y1 y2 h1
  extract_lets
  exact Holds.ite (State.setOut_holds h1) (State.settleOut_holds (State.setOut_holds h1))

theorem execLsSet_holds [ClosedField G] [ClosedLink G] {seq run s} (hs : Holds G s) :
    HoldsOut G (execLsSet seq run s) := by
  unfold execLsSet
  extract_lets t1 _
  have ht1 : Holds G t1 := State.receive_holds hs
  clear_value t1
  exact HoldsOut.next (State.driveLs_holds (Holds.field ht1))

theorem execResume_holds [ClosedRegs G] [ClosedField G] [ClosedLink G] {seq s} (hs : Holds G s) :
    HoldsOut G (execResume seq s) := by
  unfold execResume
  extract_lets t1 _ t2 _
  have ht1 : Holds G t1 := State.receive_holds hs
  have ht2 : Holds G t2 := by
    refine Holds.foldl ht1 ?_
    intro y1 y2 h1
    extract_lets
    exact State.setOut_holds h1
  clear_value t1 t2
  exact HoldsOut.next (Holds.ite (State.driveLs_holds (State.settleOuts_holds (Holds.field ht2))) ht1)

theorem execInCfg_holds [ClosedField G] [ClosedLink G] {seq input filtUs func s} (hs : Holds G s) :
    HoldsOut G (execInCfg seq input filtUs func s) := by
  unfold execInCfg
  extract_lets t1 _ _ _
  have ht1 : Holds G t1 := State.receive_holds hs
  clear_value t1
  exact HoldsOut.next (Holds.field ht1)

theorem execDownlinkBadFrame_holds [ClosedField G] [ClosedLink G] {s} (hs : Holds G s) :
    HoldsOut G (execDownlinkBadFrame s) := by
  unfold execDownlinkBadFrame
  extract_lets _ t1
  have ht1 : Holds G t1 := Holds.link hs
  clear_value t1
  exact HoldsOut.next (State.rejectUp_holds ht1)

theorem State.fireOn_holds [ClosedField G] {s p} (hs : Holds G s) :
    Holds G (State.fireOn s p) := by
  unfold State.fireOn
  extract_lets _ _ _ t1
  have ht1 : Holds G t1 := State.setPulse_holds hs
  clear_value t1
  exact Holds.ite (State.setOut_holds ht1) ht1

theorem State.fireOff_holds [ClosedField G] [ClosedLink G] {s p} (hs : Holds G s) :
    Holds G (State.fireOff s p) := by
  unfold State.fireOff
  extract_lets _ _ t1 _ t2
  have ht1 : Holds G t1 := Holds.field hs
  have ht2 : Holds G t2 := State.setOut_holds ht1
  clear_value t1 t2
  exact State.sendUp_holds ht2

theorem State.fireDue_holds [ClosedField G] [ClosedLink G] {s a1} (hs : Holds G s) :
    Holds G (State.fireDue s a1) := by
  induction a1 generalizing s with
  | zero =>
    unfold State.fireDue
    exact hs
  | succ k ih =>
    unfold State.fireDue
    split
    · exact hs
    · exact ih (Holds.ite (State.fireOff_holds hs) (State.fireOn_holds hs))

theorem execEdgeFire_holds [ClosedRegs G] [ClosedField G] [ClosedLink G] {s} (hs : Holds G s) :
    HoldsOut G (execEdgeFire s) := by
  unfold execEdgeFire
  exact HoldsOut.next (State.settleOuts_holds (State.fireDue_holds hs))

theorem State.enterSafe_holds [ClosedRegs G] [ClosedField G] {s} (hs : Holds G s) :
    Holds G (State.enterSafe s) := by
  unfold State.enterSafe
  extract_lets _ t1 t2
  have ht1 : Holds G t1 := Holds.field hs
  have ht2 : Holds G t2 := by
    refine Holds.foldl ht1 ?_
    intro y1 y2 h1
    extract_lets
    exact State.setOut_holds h1
  clear_value t1 t2
  exact State.driveLs_holds (State.settleOuts_holds ht2)

theorem execHeartbeatLoss_holds [ClosedRegs G] [ClosedField G] {s} (hs : Holds G s) :
    HoldsOut G (execHeartbeatLoss s) := by
  unfold execHeartbeatLoss
  refine HoldsOut.next ?_
  split
  · exact hs
  · exact Holds.ite (State.onRails_holds (State.enterSafe_holds hs) (fun y1 h1 => State.bump_holds h1)) hs

theorem State.outFault_holds [ClosedRegs G] {s q show_} (hs : Holds G s) (hshow_ : ∀ y0, Holds G y0 → Holds G (show_ y0)) :
    Holds G (State.outFault s q show_) := by
  unfold State.outFault
  exact State.onRails_holds hs (fun y1 h1 => State.bump_holds (hshow_ _ h1))

theorem State.cutOut_holds [ClosedRegs G] [ClosedField G] {s q o} (hs : Holds G s) :
    Holds G (State.cutOut s q o) := by
  unfold State.cutOut
  exact State.settleOut_holds (State.setOut_holds (State.cutPulses_holds hs))

theorem execOverload_holds [ClosedRegs G] [ClosedField G] {ch s} (hs : Holds G s) :
    HoldsOut G (execOverload ch s) := by
  unfold execOverload
  extract_lets
  exact HoldsOut.next (Holds.ite hs (State.outFault_holds (State.cutOut_holds hs) (fun y1 h1 => State.latch_holds h1)))

theorem execOvertemp_holds [ClosedRegs G] [ClosedField G] {ch hot s} (hs : Holds G s) :
    HoldsOut G (execOvertemp ch hot s) := by
  unfold execOvertemp
  extract_lets
  exact HoldsOut.next (Holds.ite (State.setOut_holds hs) (Holds.ite hs (State.outFault_holds (State.cutOut_holds hs) (fun y1 h1 => State.latch_holds h1))))

theorem execOpenOff_holds [ClosedRegs G] [ClosedField G] {ch here s} (hs : Holds G s) :
    HoldsOut G (execOpenOff ch here s) := by
  unfold execOpenOff
  extract_lets
  exact HoldsOut.next (Holds.ite (Holds.ite (State.outFault_holds (State.setOut_holds hs) (fun y1 h1 => State.raise_holds h1)) hs) (State.onRails_holds (State.setOut_holds hs) (fun y2 h2 => State.drop_holds h2)))

theorem execOpenOn_holds [ClosedRegs G] [ClosedField G] {ch s} (hs : Holds G s) :
    HoldsOut G (execOpenOn ch s) := by
  unfold execOpenOn
  extract_lets
  exact HoldsOut.next (Holds.ite hs (State.outFault_holds (State.setOut_holds hs) (fun y1 h1 => State.latch_holds h1)))

theorem execSupplyLow_holds [ClosedRegs G] [ClosedField G] [ClosedLink G] [ClosedLoft G] {s} (hs : Holds G s) :
    HoldsOut G (execSupplyLow s) := by
  unfold execSupplyLow
  extract_lets _ t1 t2
  have ht1 : Holds G t1 := Holds.field hs
  have ht2 : Holds G t2 := Holds.foldl ht1 (fun y1 y2 h1 => State.cutOut_holds h1)
  clear_value t1 t2
  exact HoldsOut.next (State.onRails_holds (State.driveLs_holds ht2) (fun y3 h2 => State.lineStop_holds (State.raise_holds h2)))

theorem execFieldSupplyReturn_holds [ClosedRegs G] [ClosedField G] {s} (hs : Holds G s) :
    HoldsOut G (execFieldSupplyReturn s) := by
  unfold execFieldSupplyReturn
  extract_lets
  exact HoldsOut.next (State.onRails_holds (State.driveLs_holds (State.settleOuts_holds (Holds.field hs))) (fun y1 h1 => State.drop_holds h1))

theorem execLsFault_holds [ClosedRegs G] [ClosedField G] [ClosedLink G] [ClosedLoft G] {s} (hs : Holds G s) :
    HoldsOut G (execLsFault s) := by
  unfold execLsFault
  extract_lets
  exact HoldsOut.next (State.onRails_holds (State.driveLs_holds (Holds.field hs)) (fun y1 h1 => State.lineStop_holds (State.latch_holds h1)))

theorem execInputConfirm_holds [ClosedRegs G] [ClosedField G] [ClosedLink G] {input level first s} (hs : Holds G s) :
    HoldsOut G (execInputConfirm input level first s) := by
  unfold execInputConfirm
  extract_lets _ _ _ t1 t2
  have ht1 : Holds G t1 := Holds.field hs
  have ht2 : Holds G t2 := State.onRails_holds ht1 (fun y1 h1 => State.put64_holds (State.bump_holds h1))
  clear_value t1 t2
  exact HoldsOut.next (Holds.ite hs (State.sendUp_holds ht2))

theorem State.takeUplink_holds [ClosedLink G] {s seq m} (hs : Holds G s) :
    Holds G (State.takeUplink s seq m) := by
  unfold State.takeUplink
  extract_lets
  exact Holds.link hs

theorem execSyncEdgeSend_holds [ClosedField G] [ClosedLink G] {s} (hs : Holds G s) :
    HoldsOut G (execSyncEdgeSend s) := by
  unfold execSyncEdgeSend
  extract_lets _ _ t1
  have ht1 : Holds G t1 := Holds.field_link hs
  clear_value t1
  exact HoldsOut.next (Holds.ite (State.sendDown_holds ht1) hs)

theorem State.judgeInputs_holds [ClosedRegs G] [ClosedLink G] [ClosedLoft G] {s} (hs : Holds G s) :
    Holds G (State.judgeInputs s) := by
  unfold State.judgeInputs
  exact Holds.ite (State.lineStop_holds hs) hs

theorem execStatus_holds [ClosedRegs G] [ClosedLink G] [ClosedLoft G] {seq fstate inputs outFlags supply temp lsA lsB queued hbSeq s} (hs : Holds G s) :
    HoldsOut G (execStatus seq fstate inputs outFlags supply temp lsA lsB queued hbSeq s) := by
  unfold execStatus
  extract_lets
  refine HoldsOut.next ?_
  refine State.onRails_holds (State.takeUplink_holds hs) ?_
  intro y1 h1
  extract_lets _ t1 t2 t3
  have ht1 : Holds G t1 := Holds.link h1
  have ht2 : Holds G t2 := State.put_holds (State.put_holds ht1)
  have ht3 : Holds G t3 := Holds.ite (State.lineStop_holds ht2) ht2
  clear_value t1 t2 t3
  exact State.judgeInputs_holds ht3

theorem execInputEdge_holds [ClosedRegs G] [ClosedLink G] [ClosedLoft G] {seq input level dtime s} (hs : Holds G s) :
    HoldsOut G (execInputEdge seq input level dtime s) := by
  unfold execInputEdge
  extract_lets
  refine HoldsOut.next ?_
  refine State.onRails_holds (State.takeUplink_holds hs) ?_
  intro y1 h1
  extract_lets
  exact State.judgeInputs_holds (Holds.link h1)

theorem execUplinkCrcError_holds [ClosedRegs G] [ClosedLink G] {s} (hs : Holds G s) :
    HoldsOut G (execUplinkCrcError s) := by
  unfold execUplinkCrcError
  refine HoldsOut.next ?_
  refine State.onRails_holds hs ?_
  intro y1 h1
  extract_lets
  exact State.bump_holds (Holds.link h1)

theorem execUplinkLost_holds [ClosedRegs G] [ClosedLink G] [ClosedLoft G] {s} (hs : Holds G s) :
    HoldsOut G (execUplinkLost s) := by
  unfold execUplinkLost
  exact HoldsOut.next (Holds.ite (State.lineStop_holds (State.latch_holds hs)) hs)

theorem State.acJudge_holds [ClosedRegs G] [ClosedSeq G] {s q on parts} (hs : Holds G s) :
    Holds G (State.acJudge s q on parts) := by
  unfold State.acJudge
  extract_lets _ _ _ _ t1 t2
  have ht1 : Holds G t1 := Holds.ite (State.bump_holds hs) hs
  have ht2 : Holds G t2 := Holds.ite (State.bump_holds ht1) (State.bump_holds ht1)
  clear_value t1 t2
  refine Holds.foldl ht2 ?_
  intro y1 y2 h1
  extract_lets
  exact State.setPart_holds h1

theorem execAcJudge_holds [ClosedRegs G] [ClosedSeq G] [ClosedLink G] {s} (hs : Holds G s) :
    HoldsOut G (execAcJudge s) := by
  unfold execAcJudge
  refine HoldsOut.next ?_
  split
  · exact hs
  · extract_lets
    exact State.acJudge_holds (Holds.link hs)

theorem State.acReport_holds [ClosedRegs G] [ClosedSeq G] [ClosedLink G] {s q on parts} (hs : Holds G s) :
    Holds G (State.acReport s q on parts) := by
  unfold State.acReport
  extract_lets t1 _
  have ht1 : Holds G t1 := Holds.foldl hs (fun y1 y2 h1 => State.bump_holds h1)
  clear_value t1
  exact Holds.ite hs (Holds.ite (State.acJudge_holds hs) (Holds.link ht1))

theorem execEdgeDone_holds [ClosedRegs G] [ClosedHost G] [ClosedFree G] [ClosedSeq G] [ClosedLink G] [ClosedLoft G] [ClosedClient G] [ClosedSdg G] {seq channel result tag on off s} (hs : Holds G s) :
    HoldsOut G (execEdgeDone seq channel result tag on off s) := by
  unfold execEdgeDone
  extract_lets
  refine HoldsOut.next ?_
  refine State.onRails_holds (State.takeUplink_holds hs) ?_
  intro y1 h1
  extract_lets t1
  have ht1 : Holds G t1 := Holds.ite (State.bump_holds h1) h1
  clear_value t1
  split
  · exact ht1
  · extract_lets _ t2 t3
    have ht2 : Holds G t2 := Holds.ite (State.acReport_holds ht1) ht1
    have ht3 : Holds G t3 := Holds.ite (State.flagFrame_holds ht2) ht2
    clear_value t2 t3
    exact State.endFrame_holds ht3

theorem State.edgeRejected_holds [ClosedRegs G] [ClosedHost G] [ClosedFree G] [ClosedSeq G] [ClosedLink G] [ClosedLoft G] [ClosedClient G] [ClosedSdg G] {s m reason} (hs : Holds G s) :
    Holds G (State.edgeRejected s m reason) := by
  unfold State.edgeRejected
  split
  · exact hs
  · extract_lets x1 x2 t1
    have ht1 : Holds G t1 := Holds.ite hs (State.lineStop_holds (State.bump_holds hs))
    clear_value t1
    clear_value x1 x2
    split
    · exact ht1
    · refine Holds.ite (State.missFrame_holds ht1) ?_
      split
      · exact State.setFrame_holds ht1
      · exact Holds.ite (State.setFrame_holds ht1) ht1
      · exact ht1

theorem State.markSent_holds [ClosedLink G] {s q m} (hs : Holds G s) :
    Holds G (State.markSent s q m) := by
  unfold State.markSent
  extract_lets
  exact Holds.link hs

theorem State.retransmit_holds [ClosedRegs G] [ClosedHost G] [ClosedFree G] [ClosedSeq G] [ClosedLink G] [ClosedLoft G] [ClosedClient G] [ClosedSdg G] {s q} (hs : Holds G s) :
    Holds G (State.retransmit s q) := by
  unfold State.retransmit
  split
  · exact hs
  · exact hs
  · split
    · exact State.edgeRejected_holds (State.markSent_holds hs)
    · extract_lets
      exact State.bump_holds (State.markSent_holds (State.sendDown_holds (State.markSent_holds hs)))

theorem execReject_holds [ClosedRegs G] [ClosedHost G] [ClosedFree G] [ClosedSeq G] [ClosedLink G] [ClosedLoft G] [ClosedClient G] [ClosedSdg G] {seq reason tag frameSeq missing s} (hs : Holds G s) :
    HoldsOut G (execReject seq reason tag frameSeq missing s) := by
  unfold execReject
  refine HoldsOut.next ?_
  refine State.onRails_holds (State.takeUplink_holds hs) ?_
  intro y1 h1
  split
  · exact State.retransmit_holds h1
  · exact Holds.foldl h1 (fun y2 y3 h2 => State.retransmit_holds h2)
  · split
    · exact State.edgeRejected_holds h1
    · exact h1

theorem State.clearCauses_holds [ClosedRegs G] [ClosedLink G] [ClosedLoft G] {s mask} (hs : Holds G s) :
    Holds G (State.clearCauses s mask) := by
  unfold State.clearCauses
  extract_lets
  exact State.setCauses_holds hs

theorem execLsCauseClear_holds [ClosedRegs G] [ClosedLink G] [ClosedLoft G] {mask s} (hs : Holds G s) :
    HoldsOut G (execLsCauseClear mask s) := by
  unfold execLsCauseClear
  exact HoldsOut.next (State.written_holds hs (fun y1 h1 => State.clearCauses_holds h1))

theorem execFldStop_holds [ClosedRegs G] [ClosedLink G] [ClosedLoft G] {s} (hs : Holds G s) :
    HoldsOut G (execFldStop s) := by
  unfold execFldStop
  exact HoldsOut.next (State.written_holds hs (fun y1 h1 => State.lineStop_holds h1))

theorem State.fldResume_holds [ClosedLink G] {s} (hs : Holds G s) :
    Holds G (State.fldResume s) := by
  unfold State.fldResume
  extract_lets t1 t2
  have ht1 : Holds G t1 := Holds.foldl hs (fun y1 y2 h1 => State.sendDown_holds h1)
  have ht2 : Holds G t2 := Holds.foldl ht1 (fun y3 y4 h2 => State.sendDown_holds h2)
  clear_value t1 t2
  exact Holds.ite (State.sendDown_holds ht2) hs

theorem execFldResume_holds [ClosedRegs G] [ClosedLink G] {s} (hs : Holds G s) :
    HoldsOut G (execFldResume s) := by
  unfold execFldResume
  exact HoldsOut.next (State.written_holds hs (fun y1 h1 => State.fldResume_holds h1))

theorem State.outSetWrite_holds [ClosedRegs G] [ClosedLink G] {s level} (hs : Holds G s) :
    Holds G (State.outSetWrite s level) := by
  unfold State.outSetWrite
  exact State.sendDown_holds (State.put_holds hs)

theorem execFldOutSetWrite_holds [ClosedRegs G] [ClosedLink G] {level s} (hs : Holds G s) :
    HoldsOut G (execFldOutSetWrite level s) := by
  unfold execFldOutSetWrite
  exact HoldsOut.next (State.written_holds hs (fun y1 h1 => State.outSetWrite_holds h1))

theorem State.clearOutFaults_holds [ClosedRegs G] [ClosedFree G] [ClosedField G] {s q mask} (hs : Holds G s) :
    Holds G (State.clearOutFaults s q mask) := by
  unfold State.clearOutFaults
  extract_lets _ t1 _ t2 t3 _
  have ht1 : Holds G t1 := Holds.ite (State.drop_holds (State.setOut_holds hs)) hs
  have ht2 : Holds G t2 := Holds.ite (State.drop_holds (State.setOut_holds ht1)) ht1
  have ht3 : Holds G t3 := State.settleOut_holds ht2
  clear_value t1 t2 t3
  refine Holds.ite ht3 ?_
  split
  · exact Holds.ite (Holds.of_pair (by assumption) (State.draw_holds ht3)) (State.drop_holds (State.setOut_holds (Holds.of_pair (by assumption) (State.draw_holds ht3))))

theorem State.fieldCommit_holds [ClosedRegs G] [ClosedLink G] [ClosedLoft G] {s old} (hs : Holds G s) :
    Holds G (State.fieldCommit s old) := by
  unfold State.fieldCommit
  extract_lets t1 t2
  have ht1 : Holds G t1 := Holds.foldl hs (fun y1 y2 h1 => Holds.ite h1 (State.sendDown_holds h1))
  have ht2 : Holds G t2 := Holds.foldl ht1 (fun y3 y4 h2 => Holds.ite h2 (State.sendDown_holds h2))
  clear_value t1 t2
  exact Holds.ite (State.judgeInputs_holds ht2) ht2

end Sys2Proof.Machine
end

