-- ==== Sys2Proof/Laws/Boot.lean ====
section
/-! SUPPORT. Laws/Boot.lean: what the functions of Machine/Boot.lean can change (Laws/Closure.lean). -/

namespace Sys2Proof.Machine

variable {G : State → Prop}

theorem State.saveConfig_holds [ClosedRegs G] [ClosedBoot G] {s} (hs : Holds G s) :
    Holds G (State.saveConfig s) := by
  unfold State.saveConfig
  extract_lets
  exact State.raise_holds (Holds.boot hs)

theorem State.loadConfig_holds [ClosedRegs G] [ClosedClient G] [ClosedBoot G] {s} (hs : Holds G s) :
    Holds G (State.loadConfig s) := by
  unfold State.loadConfig
  split
  · extract_lets
    exact Holds.client_boot hs
  · exact State.raise_holds hs

theorem State.fieldBoot_holds [ClosedRegs G] [ClosedField G] [ClosedLink G] [ClosedLoft G] {s} (hs : Holds G s) :
    Holds G (State.fieldBoot s) := by
  unfold State.fieldBoot
  extract_lets t1
  have ht1 : Holds G t1 := Holds.ite (State.enterSafe_holds hs) hs
  clear_value t1
  exact Holds.ite (State.lineStop_holds (State.raise_holds ht1)) ht1

theorem State.recover_holds [ClosedRegs G] [ClosedClient G] [ClosedBoot G] {s code} (hs : Holds G s) :
    Holds G (State.recover s code) := by
  unfold State.recover
  exact State.loadConfig_holds (State.put_holds (State.raise_holds (State.raise_holds hs)))

theorem State.knownAnswer_holds [ClosedRegs G] [ClosedModule G] [ClosedBoot G] {s fails} (hs : Holds G s) :
    Holds G (State.knownAnswer s fails) := by
  unfold State.knownAnswer
  refine Holds.foldl hs ?_
  intro y1 y2 h1
  extract_lets _ _ t1 t2 t3 _ t4
  have ht1 : Holds G t1 := Holds.boot h1
  have ht2 : Holds G t2 := State.drop_holds (State.raise_holds ht1)
  have ht3 : Holds G t3 := State.put_holds ht2
  have ht4 : Holds G t4 := Holds.module ht3
  clear_value t1 t2 t3 t4
  exact Holds.ite h1 (Holds.ite (Holds.boot h1) (Holds.ite ht3 (State.put_holds (State.drop_holds (State.drop_holds ht4)))))

theorem State.showFirmware_holds [ClosedRegs G] {s f} (hs : Holds G s) :
    Holds G (State.showFirmware s f) := by
  unfold State.showFirmware
  extract_lets _ _ t1
  have ht1 : Holds G t1 := State.put_holds (State.put_holds (State.put_holds hs))
  clear_value t1
  exact Holds.foldl ht1 (fun y1 y2 h1 => State.put_holds h1)

theorem State.fusesDue_holds [ClosedRegs G] [ClosedBoot G] {s f} (hs : Holds G s) :
    Holds G (State.fusesDue s f) := by
  unfold State.fusesDue
  extract_lets _ _ _ _ t1
  have ht1 : Holds G t1 := Holds.boot hs
  clear_value t1
  exact Holds.ite (State.raise_holds ht1) ht1

theorem State.bootOk_holds [ClosedRegs G] [ClosedMem G] [ClosedLarder G] [ClosedModule G] [ClosedCel G] [ClosedClient G] [ClosedBoot G] {s f katFail} (hs : Holds G s) :
    Holds G (State.bootOk s f katFail) := by
  unfold State.bootOk
  extract_lets _ _ t1 t2 t3
  have ht1 : Holds G t1 := Holds.mem_larder_cel_boot (fun _ => rfl) (fun _ => rfl) hs
  have ht2 : Holds G t2 := State.knownAnswer_holds ht1
  have ht3 : Holds G t3 := Holds.foldl ht2 (fun y1 y2 h1 => State.put_holds h1)
  clear_value t1 t2 t3
  exact State.raise_holds (State.fusesDue_holds (State.loadConfig_holds (State.showFirmware_holds ht3)))

theorem execModuleReset_holds [ClosedRegs G] [ClosedMem G] [ClosedLarder G] [ClosedFree G] [ClosedModule G] [ClosedCel G] [ClosedField G] [ClosedLink G] [ClosedLoft G] [ClosedClient G] [ClosedBoot G] {readable katFail s} (hs : Holds G s) :
    HoldsOut G (execModuleReset readable katFail s) := by
  unfold execModuleReset
  extract_lets _ t1 _ _
  have ht1 : Holds G t1 := State.raise_holds (State.fieldBoot_holds (State.setCauses_holds (State.put_holds hs)))
  clear_value t1
  refine HoldsOut.next ?_
  refine Holds.ite hs ?_
  refine Holds.ite ?_ (Holds.ite (State.recover_holds ht1) (Holds.ite ht1 (State.bootOk_holds ht1)))
  split
  · exact State.recover_holds (Holds.of_pair (by assumption) (State.draw_holds ht1))

theorem State.bootCtl_holds [ClosedRegs G] [ClosedField G] [ClosedReset G] {s key reset} (hs : Holds G s) :
    Holds G (State.bootCtl s key reset) := by
  unfold State.bootCtl
  exact Holds.ite hs (Holds.ite (State.accessErr_holds hs) (Holds.ite (State.resetFrom_holds hs) hs))

theorem execBootCtlReset_holds [ClosedRegs G] [ClosedField G] [ClosedReset G] {key reset s} (hs : Holds G s) :
    HoldsOut G (execBootCtlReset key reset s) := by
  unfold execBootCtlReset
  exact HoldsOut.next (State.bootCtl_holds hs)

theorem State.pushDone_holds [ClosedRegs G] {s code} (hs : Holds G s) :
    Holds G (State.pushDone s code) := by
  unfold State.pushDone
  exact State.latch_holds (State.put_holds hs)

theorem State.pushBegin_holds [ClosedRegs G] [ClosedBoot G] {s p} (hs : Holds G s) :
    Holds G (State.pushBegin s p) := by
  unfold State.pushBegin
  extract_lets t1 _
  have ht1 : Holds G t1 := State.raise_holds (State.raise_holds hs)
  clear_value t1
  exact Holds.boot ht1

theorem State.pushGo_holds [ClosedRegs G] [ClosedBoot G] {s readOk} (hs : Holds G s) :
    Holds G (State.pushGo s readOk) := by
  unfold State.pushGo
  extract_lets
  exact Holds.ite (State.accessErr_holds hs) (Holds.ite (State.pushDone_holds hs) (Holds.ite (State.pushDone_holds hs) (Holds.ite (State.pushDone_holds hs) (State.pushBegin_holds hs))))

theorem execBootPushGo_holds [ClosedRegs G] [ClosedBoot G] {readOk s} (hs : Holds G s) :
    HoldsOut G (execBootPushGo readOk s) := by
  unfold execBootPushGo
  exact HoldsOut.next (State.pushGo_holds hs)

theorem execFwPush_holds [ClosedRegs G] [ClosedHost G] [ClosedClient G] [ClosedBoot G] {ring index s} (hs : Holds G s) :
    HoldsOut G (execFwPush ring index s) := by
  unfold execFwPush
  refine HoldsOut.next ?_
  split
  · extract_lets
    exact Holds.ite hs (Holds.ite (State.complete_holds (State.pushDone_holds hs)) (State.pushBegin_holds (Holds.client hs)))
  · exact hs

theorem State.pushStore_holds [ClosedRegs G] [ClosedBoot G] {s p} (hs : Holds G s) :
    Holds G (State.pushStore s p) := by
  unfold State.pushStore
  extract_lets
  exact Holds.ite (State.saveConfig_holds (Holds.boot hs)) (Holds.boot hs)

theorem State.internalRecord_holds [ClosedRegs G] [ClosedFree G] [ClosedLoft G] {s st} (hs : Holds G s) :
    Holds G (State.internalRecord s st) := by
  unfold State.internalRecord
  refine Holds.ite ?_ hs
  split
  · split
    · exact State.loftEvent_holds (Holds.of_pair (by assumption) (State.draw_holds (Holds.of_pair (by assumption) (State.draw_holds hs))))

theorem execPushComplete_holds [ClosedRegs G] [ClosedHost G] [ClosedFree G] [ClosedLoft G] [ClosedClient G] [ClosedBoot G] {ok s} (hs : Holds G s) :
    HoldsOut G (execPushComplete ok s) := by
  unfold execPushComplete
  refine HoldsOut.next ?_
  split
  · exact hs
  · extract_lets _ _ _ t1 t2
    have ht1 : Holds G t1 := State.pushDone_holds (State.putFlag_holds (State.drop_holds (Holds.boot hs)))
    have ht2 : Holds G t2 := Holds.ite (State.pushStore_holds ht1) ht1
    clear_value t1 t2
    split
    · exact ht2
    · split
      · exact ht2
      · exact State.complete_holds (State.internalRecord_holds ht2)

theorem execFuseBlow_holds [ClosedRegs G] [ClosedModule G] [ClosedBoot G] {s} (hs : Holds G s) :
    HoldsOut G (execFuseBlow s) := by
  unfold execFuseBlow
  extract_lets
  refine HoldsOut.next ?_
  refine Holds.ite hs ?_
  split
  · extract_lets t1 t2
    have ht1 : Holds G t1 := Holds.module_boot hs
    have ht2 : Holds G t2 := State.put_holds (State.put_holds ht1)
    clear_value t1 t2
    exact Holds.ite ht2 (State.drop_holds ht2)

theorem State.certSelect_holds [ClosedRegs G] {s v} (hs : Holds G s) :
    Holds G (State.certSelect s v) := by
  unfold State.certSelect
  extract_lets _ t1
  have ht1 : Holds G t1 := State.setReg_holds hs
  clear_value t1
  exact State.put_holds (State.put_holds ht1)

theorem execBootCertSelect_holds [ClosedRegs G] {cert word s} (hs : Holds G s) :
    HoldsOut G (execBootCertSelect cert word s) := by
  unfold execBootCertSelect
  exact HoldsOut.next (State.certSelect_holds hs)

theorem execAttest_holds [ClosedHost G] [ClosedClient G] {ring index s} (hs : Holds G s) :
    HoldsOut G (execAttest ring index s) := by
  unfold execAttest
  refine HoldsOut.next ?_
  split
  · exact hs
  · exact Holds.ite hs (State.complete_holds (State.dataOut_holds hs))

theorem execPowerOn_holds [ClosedField G] [ClosedReset G] {s} (hs : Holds G s) :
    HoldsOut G (execPowerOn s) := by
  unfold execPowerOn
  exact HoldsOut.next (Holds.ite hs (State.resetFrom_holds hs))

theorem execSupplyDrop_holds [ClosedField G] [ClosedBoot G] [ClosedReset G] {s} (hs : Holds G s) :
    HoldsOut G (execSupplyDrop s) := by
  unfold execSupplyDrop
  exact HoldsOut.next (Holds.ite (State.powerOff_holds hs) hs)

theorem execHoldUpEnd_holds [ClosedField G] {s} (hs : Holds G s) :
    HoldsOut G (execHoldUpEnd s) := by
  unfold execHoldUpEnd
  extract_lets
  exact HoldsOut.next (Holds.ite hs (Holds.field hs))

theorem execThermalTrip_holds [ClosedField G] [ClosedBoot G] [ClosedReset G] {sensor temp s} (hs : Holds G s) :
    HoldsOut G (execThermalTrip sensor temp s) := by
  unfold execThermalTrip
  refine HoldsOut.next ?_
  split
  · exact Holds.ite (State.powerOff_holds hs) hs
  · exact hs

theorem State.tap_holds [ClosedBoot G] {s code reg} (hs : Holds G s) :
    Holds G (State.tap s code reg) := by
  unfold State.tap
  extract_lets
  exact Holds.boot hs

theorem State.boundary_holds [ClosedBoot G] {s cells} (hs : Holds G s) :
    Holds G (State.boundary s cells) := by
  unfold State.boundary
  extract_lets
  exact Holds.boot hs

theorem execBypass_holds [ClosedBoot G] {s} (hs : Holds G s) :
    HoldsOut G (execBypass s) := by
  unfold execBypass
  exact HoldsOut.next (State.tap_holds hs)

theorem execExtest_holds [ClosedBoot G] {cells s} (hs : Holds G s) :
    HoldsOut G (execExtest cells s) := by
  unfold execExtest
  extract_lets t1
  have ht1 : Holds G t1 := State.tap_holds hs
  clear_value t1
  exact HoldsOut.next (Holds.ite ht1 (State.boundary_holds ht1))

theorem execSamplePreload_holds [ClosedBoot G] {cells s} (hs : Holds G s) :
    HoldsOut G (execSamplePreload cells s) := by
  unfold execSamplePreload
  exact HoldsOut.next (State.boundary_holds (State.tap_holds hs))

theorem execIdcode_holds [ClosedBoot G] {s} (hs : Holds G s) :
    HoldsOut G (execIdcode s) := by
  unfold execIdcode
  exact HoldsOut.next (State.tap_holds hs)

theorem execClamp_holds [ClosedBoot G] {s} (hs : Holds G s) :
    HoldsOut G (execClamp s) := by
  unfold execClamp
  exact HoldsOut.next (State.tap_holds hs)

theorem execHighz_holds [ClosedBoot G] {s} (hs : Holds G s) :
    HoldsOut G (execHighz s) := by
  unfold execHighz
  exact HoldsOut.next (State.tap_holds hs)

end Sys2Proof.Machine
end

