-- ==== Sys2Proof/Laws/Lanes.lean ====
section
/-! SUPPORT. Laws/Lanes.lean: what the functions of Machine/Lanes.lean can change (Laws/Closure.lean). -/

namespace Sys2Proof.Machine

variable {G : State → Prop}

theorem State.setLane_holds [ClosedLanes G] {s n l} (hs : Holds G s) :
    Holds G (State.setLane s n l) := by
  unfold State.setLane
  exact Holds.lanes hs

theorem State.setCam_holds [ClosedCams G] {s c x} (hs : Holds G s) :
    Holds G (State.setCam s c x) := by
  unfold State.setCam
  exact Holds.cams hs

theorem State.clearMap_holds [ClosedRegs G] {s c} (hs : Holds G s) :
    Holds G (State.clearMap s c) := by
  unfold State.clearMap
  exact Holds.foldl hs (fun y1 y2 h1 => Holds.ite (State.setReg_holds h1) h1)

theorem State.cameraDown_holds [ClosedRegs G] [ClosedCams G] [ClosedLink G] [ClosedLoft G] {s c} (hs : Holds G s) :
    Holds G (State.cameraDown s c) := by
  unfold State.cameraDown
  extract_lets t1 t2 _ t3
  have ht1 : Holds G t1 := State.latch_holds (State.bump_holds (State.put_holds hs))
  have ht2 : Holds G t2 := State.clearMap_holds (State.drop_holds (State.drop_holds ht1))
  have ht3 : Holds G t3 := State.setCam_holds ht2
  clear_value t1 t2 t3
  exact Holds.ite hs (Holds.ite (State.lineStop_holds ht3) ht3)

theorem State.resend_holds [ClosedRegs G] [ClosedGts G] {s k} (hs : Holds G s) :
    Holds G (State.resend s k) := by
  unfold State.resend
  extract_lets
  exact Holds.ite (State.giveBack_holds hs) (Holds.ite (State.sendTo_holds hs) (Holds.ite (Holds.gts hs) (State.giveBack_holds hs)))

theorem State.linkDown_holds [ClosedRegs G] [ClosedLoft G] [ClosedGts G] [ClosedClk G] {s p} (hs : Holds G s) :
    Holds G (State.linkDown s p) := by
  unfold State.linkDown
  extract_lets _ t1 t2 _ t3 _ t4
  have ht1 : Holds G t1 := Holds.ite (State.bump_holds hs) hs
  have ht2 : Holds G t2 := State.put_holds ht1
  have ht3 : Holds G t3 := Holds.ite (State.portLost_holds ht2) ht2
  have ht4 : Holds G t4 := State.portsChanged_holds (Holds.gts ht3)
  clear_value t1 t2 t3 t4
  exact Holds.ite (Holds.foldl ht4 (fun y1 y2 h1 => State.resend_holds h1)) hs

theorem State.linkSees_holds [ClosedRegs G] [ClosedCams G] [ClosedLink G] [ClosedLoft G] [ClosedGts G] [ClosedClk G] {s n} (hs : Holds G s) :
    Holds G (State.linkSees s n) := by
  unfold State.linkSees
  extract_lets
  refine Holds.ite ?_ (State.linkDown_holds (State.setGport_holds hs))
  split
  · exact State.cameraDown_holds hs
  · exact hs

theorem State.trainDone_holds [ClosedRegs G] [ClosedGts G] {s p} (hs : Holds G s) :
    Holds G (State.trainDone s p) := by
  unfold State.trainDone
  exact Holds.ite (State.sendHello_holds (State.put_holds hs)) hs

theorem State.linkSymbol_holds [ClosedRegs G] [ClosedGts G] {s n} (hs : Holds G s) :
    Holds G (State.linkSymbol s n) := by
  unfold State.linkSymbol
  refine Holds.ite hs ?_
  split
  · exact hs
  · extract_lets
    exact State.trainDone_holds (State.setGport_holds hs)

theorem State.toLaneState_holds [ClosedRegs G] [ClosedCams G] [ClosedLink G] [ClosedLoft G] [ClosedGts G] [ClosedClk G] {s n st} (hs : Holds G s) :
    Holds G (State.toLaneState s n st) := by
  unfold State.toLaneState
  extract_lets _ t1 t2
  have ht1 : Holds G t1 := State.putFlag_holds (State.put_holds hs)
  have ht2 : Holds G t2 := Holds.ite ht1 (State.drop_holds ht1)
  clear_value t1 t2
  exact Holds.ite (State.linkSees_holds ht2) ht2

theorem State.abortScan_holds [ClosedRegs G] [ClosedFree G] {s n} (hs : Holds G s) :
    Holds G (State.abortScan s n) := by
  unfold State.abortScan
  refine Holds.ite hs ?_
  split
  · split
    · extract_lets _ _ t1
      have ht1 : Holds G t1 := State.put_holds (State.latch_holds (State.drop_holds (Holds.of_pair (by assumption) (State.draw_holds (Holds.of_pair (by assumption) (State.draw_holds hs))))))
      clear_value t1
      exact State.put_holds (State.put_holds ht1)

theorem State.restartLane_holds [ClosedRegs G] [ClosedFree G] [ClosedLanes G] [ClosedCams G] [ClosedLink G] [ClosedLoft G] [ClosedGts G] [ClosedClk G] {s n} (hs : Holds G s) :
    Holds G (State.restartLane s n) := by
  unfold State.restartLane
  extract_lets t1 _ t2
  have ht1 : Holds G t1 := State.abortScan_holds hs
  have ht2 : Holds G t2 := State.toLaneState_holds (State.putFlag_holds ht1)
  clear_value t1 t2
  exact State.setLane_holds ht2

theorem State.setRate_holds [ClosedRegs G] [ClosedFree G] [ClosedLanes G] [ClosedCams G] [ClosedLink G] [ClosedLoft G] [ClosedGts G] [ClosedClk G] {s n rate} (hs : Holds G s) :
    Holds G (State.setRate s n rate) := by
  unfold State.setRate
  extract_lets t1
  have ht1 : Holds G t1 := State.put_holds hs
  clear_value t1
  exact Holds.ite hs (Holds.ite (State.restartLane_holds ht1) ht1)

theorem execLaneSignalDetect_holds [ClosedRegs G] [ClosedLanes G] [ClosedCams G] [ClosedLink G] [ClosedLoft G] [ClosedGts G] [ClosedClk G] {lane s} (hs : Holds G s) :
    HoldsOut G (execLaneSignalDetect lane s) := by
  unfold execLaneSignalDetect
  extract_lets _ _ t1 t2
  have ht1 : Holds G t1 := State.setLane_holds hs
  have ht2 : Holds G t2 := State.raise_holds ht1
  clear_value t1 t2
  exact HoldsOut.next (Holds.ite hs (Holds.ite ht1 (Holds.ite (State.toLaneState_holds ht2) ht2)))

theorem execLaneSignalLoss_holds [ClosedRegs G] [ClosedLanes G] [ClosedCams G] [ClosedLink G] [ClosedLoft G] [ClosedGts G] [ClosedClk G] {lane s} (hs : Holds G s) :
    HoldsOut G (execLaneSignalLoss lane s) := by
  unfold execLaneSignalLoss
  extract_lets _ _ t1 t2 t3 t4
  have ht1 : Holds G t1 := State.setLane_holds hs
  have ht2 : Holds G t2 := State.drop_holds ht1
  have ht3 : Holds G t3 := Holds.ite (State.latch_holds ht2) ht2
  have ht4 : Holds G t4 := State.toLaneState_holds ht3
  clear_value t1 t2 t3 t4
  exact HoldsOut.next (Holds.ite ht1 (Holds.ite (State.setLane_holds ht4) ht2))

theorem execCdrLock_holds [ClosedRegs G] [ClosedLanes G] [ClosedCams G] [ClosedLink G] [ClosedLoft G] [ClosedGts G] [ClosedClk G] {lane s} (hs : Holds G s) :
    HoldsOut G (execCdrLock lane s) := by
  unfold execCdrLock
  extract_lets _ t1
  have ht1 : Holds G t1 := State.toLaneState_holds hs
  clear_value t1
  exact HoldsOut.next (Holds.ite (State.setLane_holds ht1) hs)

theorem execCdrLockLoss_holds [ClosedRegs G] [ClosedLanes G] [ClosedCams G] [ClosedLink G] [ClosedLoft G] [ClosedGts G] [ClosedClk G] {lane s} (hs : Holds G s) :
    HoldsOut G (execCdrLockLoss lane s) := by
  unfold execCdrLockLoss
  extract_lets _ t1 t2
  have ht1 : Holds G t1 := Holds.ite (State.latch_holds hs) hs
  have ht2 : Holds G t2 := State.toLaneState_holds ht1
  clear_value t1 t2
  exact HoldsOut.next (Holds.ite (State.setLane_holds ht2) hs)

theorem State.generate_holds [ClosedLanes G] {s n} (hs : Holds G s) :
    Holds G (State.generate s n).2 := by
  unfold State.generate
  extract_lets
  exact State.setLane_holds hs

theorem State.drivePin_holds [ClosedLanes G] {s n gs} (hs : Holds G s) :
    Holds G (State.drivePin s n gs) := by
  unfold State.drivePin
  extract_lets
  exact State.setLane_holds hs

theorem State.groupTime_holds [ClosedLanes G] {s n bits wrong} (hs : Holds G s) :
    Holds G (State.groupTime s n bits wrong).2 := by
  unfold State.groupTime
  extract_lets
  split
  · split
    · exact State.drivePin_holds (Holds.of_pair (by assumption) (State.generate_holds hs))
  · split
    · exact hs
    · exact State.drivePin_holds hs
    · exact hs

theorem State.farEnd_holds [ClosedRegs G] [ClosedLanes G] {s n g out} (hs : Holds G s) :
    Holds G (State.farEnd s n g out) := by
  unfold State.farEnd
  extract_lets _ _ _ t1
  have ht1 : Holds G t1 := State.drivePin_holds (State.setLane_holds hs)
  clear_value t1
  exact Holds.ite hs (Holds.ite (State.drivePin_holds (State.setLane_holds hs)) (Holds.ite ht1 (State.bumpNow_holds ht1)))

theorem State.acquire_holds [ClosedRegs G] [ClosedLanes G] [ClosedCams G] [ClosedLink G] [ClosedLoft G] [ClosedGts G] [ClosedClk G] {s n w} (hs : Holds G s) :
    Holds G (State.acquire s n w) := by
  unfold State.acquire
  extract_lets
  exact Holds.ite (State.toLaneState_holds (State.setLane_holds hs)) (State.setLane_holds hs)

theorem execAcquireGroup_holds [ClosedRegs G] [ClosedLanes G] [ClosedCams G] [ClosedLink G] [ClosedLoft G] [ClosedGts G] [ClosedClk G] {lane received wrong s} (hs : Holds G s) :
    HoldsOut G (execAcquireGroup lane received wrong s) := by
  unfold execAcquireGroup
  extract_lets
  refine HoldsOut.next ?_
  refine Holds.ite hs ?_
  split
  · exact State.acquire_holds (Holds.of_pair (by assumption) (State.groupTime_holds hs))

theorem State.checkPattern_holds [ClosedRegs G] [ClosedLanes G] {s n b} (hs : Holds G s) :
    Holds G (State.checkPattern s n b) := by
  unfold State.checkPattern
  extract_lets _ _ t1
  have ht1 : Holds G t1 := State.bumpNow_holds hs
  clear_value t1
  refine Holds.ite hs ?_
  split
  · refine Holds.ite ?_ ?_
    · split
      · exact State.setLane_holds hs
      · exact Holds.ite (State.setLane_holds hs) (Holds.ite (State.setLane_holds (State.drop_holds ht1)) (State.setLane_holds ht1))
    · split
      · exact State.setLane_holds hs
      · extract_lets
        exact Holds.ite (State.setLane_holds (State.raise_holds hs)) (State.setLane_holds hs)

theorem State.score_holds [ClosedRegs G] [ClosedLanes G] [ClosedCams G] [ClosedLink G] [ClosedLoft G] [ClosedGts G] [ClosedClk G] {s n bad} (hs : Holds G s) :
    Holds G (State.score s n bad) := by
  unfold State.score
  extract_lets _ _ _ t1 _
  have ht1 : Holds G t1 := State.setLane_holds hs
  clear_value t1
  exact Holds.ite (State.setLane_holds (State.toLaneState_holds (State.latch_holds (State.bumpNow_holds ht1)))) ht1

theorem State.countGroup_holds [ClosedRegs G] {s n} (hs : Holds G s) :
    Holds G (State.countGroup s n) := by
  unfold State.countGroup
  extract_lets
  exact State.bump_holds (State.put64_holds hs)

theorem State.giveByte_holds [ClosedFree G] [ClosedLanes G] {s n cls bad} (hs : Holds G s) :
    Holds G (State.giveByte s n cls bad) := by
  unfold State.giveByte
  split
  · extract_lets
    refine Holds.ite (State.setLane_holds hs) ?_
    split
    · exact State.setLane_holds hs
    · exact State.setLane_holds hs
    · exact State.setLane_holds (Holds.of_pair (by assumption) (State.draw_holds hs))

theorem State.alignedGroup_holds [ClosedRegs G] [ClosedFree G] [ClosedLanes G] [ClosedCams G] [ClosedLink G] [ClosedLoft G] [ClosedGts G] [ClosedClk G] {s n g out} (hs : Holds G s) :
    Holds G (State.alignedGroup s n g out) := by
  unfold State.alignedGroup
  extract_lets l t1 cls mis bad t2 rd t3 t4
  have ht1 : Holds G t1 := State.countGroup_holds hs
  have ht2 : Holds G t2 := by
    unfold t2
    clear_value cls
    split
    · exact State.bumpNow_holds ht1
    · split
      · exact ht1
      · exact State.bumpNow_holds ht1
      · exact State.bumpNow_holds ht1
  have ht3 : Holds G t3 := State.linkSymbol_holds (State.giveByte_holds (State.setLane_holds ht2))
  have ht4 : Holds G t4 := by
    unfold t4
    clear_value t3 t2 bad rd mis cls
    refine State.farEnd_holds ?_
    split
    · exact State.checkPattern_holds ht3
    · exact State.checkPattern_holds ht3
    · exact State.checkPattern_holds ht3
  exact State.score_holds ht4

theorem execAlignedGroup_holds [ClosedRegs G] [ClosedFree G] [ClosedLanes G] [ClosedCams G] [ClosedLink G] [ClosedLoft G] [ClosedGts G] [ClosedClk G] {lane group drained s} (hs : Holds G s) :
    HoldsOut G (execAlignedGroup lane group drained s) := by
  unfold execAlignedGroup
  extract_lets
  refine HoldsOut.next ?_
  refine Holds.ite hs ?_
  split
  · exact State.alignedGroup_holds (Holds.of_pair (by assumption) (State.groupTime_holds hs))

theorem State.eyeStart_holds [ClosedRegs G] [ClosedLanes G] {s n phase voff dwell} (hs : Holds G s) :
    Holds G (State.eyeStart s n phase voff dwell) := by
  unfold State.eyeStart
  extract_lets _ _ _ _ _ t1 t2 t3 t4 t5 _
  have ht1 : Holds G t1 := Holds.ite (State.latch_holds hs) hs
  have ht2 : Holds G t2 := Holds.ite (State.latch_holds ht1) ht1
  have ht3 : Holds G t3 := Holds.ite (State.latch_holds ht2) ht2
  have ht4 : Holds G t4 := State.drop_holds (State.drop_holds ht3)
  have ht5 : Holds G t5 := State.raise_holds (State.drop_holds ht4)
  clear_value t1 t2 t3 t4 t5
  exact Holds.ite ht3 (State.setLane_holds ht5)

theorem execEyeScanStart_holds [ClosedRegs G] [ClosedLanes G] {lane phase voff dwell s} (hs : Holds G s) :
    HoldsOut G (execEyeScanStart lane phase voff dwell s) := by
  unfold execEyeScanStart
  extract_lets
  refine HoldsOut.next ?_
  refine State.written_holds hs ?_
  intro y1 h1
  extract_lets t1
  have ht1 : Holds G t1 := State.put_holds (State.put_holds (State.put_holds h1))
  clear_value t1
  exact State.eyeStart_holds ht1

theorem execEyeScanAbort_holds [ClosedRegs G] [ClosedFree G] {lane s} (hs : Holds G s) :
    HoldsOut G (execEyeScanAbort lane s) := by
  unfold execEyeScanAbort
  exact HoldsOut.next (State.written_holds hs (fun y1 h1 => State.abortScan_holds h1))

theorem execEyeScanDone_holds [ClosedRegs G] {lane mismatches s} (hs : Holds G s) :
    HoldsOut G (execEyeScanDone lane mismatches s) := by
  unfold execEyeScanDone
  extract_lets _ _ t1
  have ht1 : Holds G t1 := State.put_holds (State.latch_holds (State.drop_holds hs))
  clear_value t1
  exact HoldsOut.next (Holds.ite hs (State.put_holds (State.put_holds ht1)))

theorem State.startPattern_holds [ClosedFree G] [ClosedLanes G] {s n} (hs : Holds G s) :
    Holds G (State.startPattern s n) := by
  unfold State.startPattern
  extract_lets
  refine Holds.ite (State.setLane_holds hs) ?_
  split
  · extract_lets
    exact State.setLane_holds (Holds.of_pair (by assumption) (State.draw_holds hs))

theorem State.sendPattern_holds [ClosedLanes G] {s n} (hs : Holds G s) :
    Holds G (State.sendPattern s n) := by
  unfold State.sendPattern
  refine Holds.ite ?_ hs
  split
  · exact State.drivePin_holds (Holds.of_pair (by assumption) (State.generate_holds hs))

theorem State.sendPatterns_holds [ClosedLanes G] {s} (hs : Holds G s) :
    Holds G (State.sendPatterns s) := by
  unfold State.sendPatterns
  exact Holds.foldl hs (fun y1 y2 h1 => State.sendPattern_holds h1)

theorem State.laneCommit_holds [ClosedRegs G] [ClosedFree G] [ClosedLanes G] [ClosedCams G] [ClosedLink G] [ClosedLoft G] [ClosedGts G] [ClosedClk G] {s old n} (hs : Holds G s) :
    Holds G (State.laneCommit s old n) := by
  unfold State.laneCommit
  extract_lets _ _ _ t1 t2 t3 t4
  have ht1 : Holds G t1 := State.restartLane_holds (State.setLane_holds (State.put_holds hs))
  have ht2 : Holds G t2 := Holds.ite (State.put_holds hs) hs
  have ht3 : Holds G t3 := State.restartLane_holds ht2
  have ht4 : Holds G t4 := Holds.ite (State.startPattern_holds ht3) ht3
  clear_value t1 t2 t3 t4
  exact Holds.ite (State.startPattern_holds ht1) (Holds.ite (State.setLane_holds (State.drop_holds (State.toLaneState_holds (State.abortScan_holds hs)))) (Holds.ite (Holds.ite ht4 (State.linkSees_holds ht4)) hs))

end Sys2Proof.Machine
end

