-- ==== Sys2Proof/Laws/Camera.lean ====
section
/-! SUPPORT. Laws/Camera.lean: what the functions of Machine/Camera.lean can change (Laws/Closure.lean). -/

namespace Sys2Proof.Machine

variable {G : State → Prop}

theorem State.setDisc_holds [ClosedCams G] {s c d} (hs : Holds G s) :
    Holds G (State.setDisc s c d) := by
  unfold State.setDisc
  extract_lets
  exact State.setCam_holds hs

theorem State.leaveStreaming_holds [ClosedRegs G] [ClosedCams G] {s c} (hs : Holds G s) :
    Holds G (State.leaveStreaming s c) := by
  unfold State.leaveStreaming
  extract_lets
  exact Holds.ite (State.setCam_holds (State.clearMap_holds hs)) hs

theorem State.startDiscover_holds [ClosedRegs G] [ClosedFree G] [ClosedLanes G] [ClosedCams G] [ClosedLink G] [ClosedLoft G] [ClosedGts G] [ClosedClk G] {s c} (hs : Holds G s) :
    Holds G (State.startDiscover s c) := by
  unfold State.startDiscover
  extract_lets t1 t2 t3 t4 _
  have ht1 : Holds G t1 := State.leaveStreaming_holds hs
  have ht2 : Holds G t2 := State.drop_holds (State.drop_holds (State.drop_holds (State.put_holds ht1)))
  have ht3 : Holds G t3 := State.put_holds ht2
  have ht4 : Holds G t4 := Holds.foldl ht3 (fun y1 y2 h1 => State.setRate_holds h1)
  clear_value t1 t2 t3 t4
  exact State.setCam_holds ht4

theorem State.camFail_holds [ClosedRegs G] [ClosedCams G] {s c reason} (hs : Holds G s) :
    Holds G (State.camFail s c reason) := by
  unfold State.camFail
  exact State.setDisc_holds (State.put_holds (State.put_holds hs))

theorem State.startCheck_holds [ClosedRegs G] [ClosedCams G] {s c} (hs : Holds G s) :
    Holds G (State.startCheck s c) := by
  unfold State.startCheck
  exact State.setDisc_holds (State.put_holds (State.leaveStreaming_holds hs))

theorem execRediscover_holds [ClosedRegs G] [ClosedFree G] [ClosedLanes G] [ClosedCams G] [ClosedLink G] [ClosedLoft G] [ClosedGts G] [ClosedClk G] {cam s} (hs : Holds G s) :
    HoldsOut G (execRediscover cam s) := by
  unfold execRediscover
  extract_lets
  exact HoldsOut.next (Holds.ite (State.startDiscover_holds hs) hs)

theorem State.tryRate_holds [ClosedRegs G] [ClosedFree G] [ClosedLanes G] [ClosedCams G] [ClosedLink G] [ClosedLoft G] [ClosedGts G] [ClosedClk G] {s c r} (hs : Holds G s) :
    Holds G (State.tryRate s c r) := by
  unfold State.tryRate
  exact State.setDisc_holds (Holds.foldl hs (fun y1 y2 h1 => State.setRate_holds h1))

theorem State.alignFails_holds [ClosedRegs G] [ClosedFree G] [ClosedLanes G] [ClosedCams G] [ClosedLink G] [ClosedLoft G] [ClosedGts G] [ClosedClk G] {s c} (hs : Holds G s) :
    Holds G (State.alignFails s c) := by
  unfold State.alignFails
  split
  · exact Holds.ite (State.camFail_holds hs) hs
  · exact Holds.ite hs (Holds.ite (State.camFail_holds hs) (State.tryRate_holds hs))
  · exact hs

theorem State.lanesAligned_holds [ClosedRegs G] [ClosedFree G] [ClosedLanes G] [ClosedCams G] [ClosedLink G] [ClosedLoft G] [ClosedGts G] [ClosedClk G] {s c} (hs : Holds G s) :
    Holds G (State.lanesAligned s c) := by
  unfold State.lanesAligned
  split
  · exact Holds.ite (State.alignFails_holds hs) (State.setDisc_holds hs)
  · extract_lets t1
    have ht1 : Holds G t1 := State.put_holds (State.put_holds hs)
    clear_value t1
    exact Holds.ite (State.alignFails_holds hs) (State.startCheck_holds (State.put_holds ht1))
  · exact hs

theorem execDiscoverLanesAligned_holds [ClosedRegs G] [ClosedFree G] [ClosedLanes G] [ClosedCams G] [ClosedLink G] [ClosedLoft G] [ClosedGts G] [ClosedClk G] {cam s} (hs : Holds G s) :
    HoldsOut G (execDiscoverLanesAligned cam s) := by
  unfold execDiscoverLanesAligned
  exact HoldsOut.next (Holds.ite (State.lanesAligned_holds hs) hs)

theorem execDiscoverAlignTimeout_holds [ClosedRegs G] [ClosedFree G] [ClosedLanes G] [ClosedCams G] [ClosedLink G] [ClosedLoft G] [ClosedGts G] [ClosedClk G] {cam s} (hs : Holds G s) :
    HoldsOut G (execDiscoverAlignTimeout cam s) := by
  unfold execDiscoverAlignTimeout
  exact HoldsOut.next (State.alignFails_holds hs)

theorem State.mapLane_holds [ClosedRegs G] {s c k conn} (hs : Holds G s) :
    Holds G (State.mapLane s c k conn) := by
  unfold State.mapLane
  extract_lets
  exact State.put_holds (State.put_holds (State.raise_holds (State.setReg_holds hs)))

theorem State.mapAgain_holds [ClosedRegs G] {s c} (hs : Holds G s) :
    Holds G (State.mapAgain s c) := by
  unfold State.mapAgain
  exact Holds.foldl hs (fun y1 y2 h1 => State.mapLane_holds h1)

theorem State.discReply_holds [ClosedRegs G] [ClosedFree G] [ClosedLanes G] [ClosedCams G] [ClosedLink G] [ClosedLoft G] [ClosedGts G] [ClosedClk G] {s c value conn} (hs : Holds G s) :
    Holds G (State.discReply s c value conn) := by
  unfold State.discReply
  extract_lets _ _ t1 _
  have ht1 : Holds G t1 := State.mapAgain_holds (State.put_holds hs)
  clear_value t1
  split
  · exact Holds.ite (State.setDisc_holds hs) (State.camFail_holds hs)
  · extract_lets t2 _ t3
    have ht2 : Holds G t2 := State.mapLane_holds hs
    have ht3 : Holds G t3 := State.setCam_holds ht2
    clear_value t2 t3
    exact Holds.ite (State.camFail_holds hs) (Holds.ite (State.setDisc_holds ht3) (Holds.ite (State.setDisc_holds ht3) (State.camFail_holds ht3)))
  · exact State.setDisc_holds (State.setCam_holds hs)
  · exact State.setDisc_holds (State.setCam_holds hs)
  · exact State.tryRate_holds (State.put_holds hs)
  · exact State.setDisc_holds hs
  · exact Holds.ite (State.setDisc_holds hs) (State.camFail_holds hs)
  · exact State.setDisc_holds hs
  · exact Holds.ite (State.setCam_holds ht1) (State.camFail_holds hs)
  · exact hs

theorem State.accessEnd_holds [ClosedHost G] [ClosedCams G] [ClosedClient G] {s c a st v} (hs : Holds G s) :
    Holds G (State.accessEnd s c a st v) := by
  unfold State.accessEnd
  extract_lets _ t1
  have ht1 : Holds G t1 := State.setCam_holds hs
  clear_value t1
  split
  · exact ht1
  · exact State.complete_holds ht1

theorem State.controlLate_holds [ClosedRegs G] [ClosedHost G] [ClosedCams G] [ClosedClient G] {s c} (hs : Holds G s) :
    Holds G (State.controlLate s c) := by
  unfold State.controlLate
  split
  · exact State.accessEnd_holds hs
  · exact Holds.ite (State.camFail_holds hs) hs

theorem execControlReply_holds [ClosedRegs G] [ClosedHost G] [ClosedFree G] [ClosedLanes G] [ClosedCams G] [ClosedLink G] [ClosedLoft G] [ClosedGts G] [ClosedClient G] [ClosedClk G] {cam ok value conn s} (hs : Holds G s) :
    HoldsOut G (execControlReply cam ok value conn s) := by
  unfold execControlReply
  extract_lets _ t1 _
  have ht1 : Holds G t1 := State.controlLate_holds hs
  clear_value t1
  refine HoldsOut.next ?_
  refine Holds.ite hs ?_
  refine Holds.ite (Holds.ite (State.discReply_holds ht1) ht1) ?_
  split
  · exact ht1
  · exact Holds.ite (State.accessEnd_holds ht1) (State.accessEnd_holds ht1)

theorem execControlTimeout_holds [ClosedRegs G] [ClosedHost G] [ClosedCams G] [ClosedClient G] {cam s} (hs : Holds G s) :
    HoldsOut G (execControlTimeout cam s) := by
  unfold execControlTimeout
  exact HoldsOut.next (State.controlLate_holds hs)

theorem State.setSlot_holds [ClosedCams G] {s c sl} (hs : Holds G s) :
    Holds G (State.setSlot s c sl) := by
  unfold State.setSlot
  extract_lets
  exact State.setCam_holds hs

theorem State.slotClosed_holds [ClosedSeq G] {s c sl} (hs : Holds G s) :
    Holds G (State.slotClosed s c sl) := by
  unfold State.slotClosed
  refine Holds.foldl hs ?_
  intro y1 y2 h1
  extract_lets _ _ _ _ t1
  have ht1 : Holds G t1 := State.setPart_holds h1
  clear_value t1
  exact Holds.ite (Holds.ite (State.markIncomplete_holds ht1) ht1) h1

theorem State.shutSlot_holds [ClosedRegs G] [ClosedCams G] [ClosedSeq G] {s c sl} (hs : Holds G s) :
    Holds G (State.shutSlot s c sl) := by
  unfold State.shutSlot
  extract_lets _ t1
  have ht1 : Holds G t1 := Holds.foldl hs (fun y1 y2 h1 => State.bump_holds h1)
  clear_value t1
  exact State.slotClosed_holds (State.setSlot_holds ht1)

theorem State.closeSlot_holds [ClosedRegs G] [ClosedCams G] [ClosedSeq G] {s c sl whole} (hs : Holds G s) :
    Holds G (State.closeSlot s c sl whole) := by
  unfold State.closeSlot
  exact Holds.ite hs (State.shutSlot_holds hs)

theorem State.closeOverdue_holds [ClosedRegs G] [ClosedCams G] [ClosedSeq G] {s c} (hs : Holds G s) :
    Holds G (State.closeOverdue s c) := by
  unfold State.closeOverdue
  exact Holds.foldl hs (fun y1 y2 h1 => State.closeSlot_holds h1)

theorem State.markPadded_holds [ClosedSeq G] {s c sl} (hs : Holds G s) :
    Holds G (State.markPadded s c sl) := by
  unfold State.markPadded
  refine Holds.foldl hs ?_
  intro y1 y2 h1
  extract_lets
  exact Holds.ite (State.markIncomplete_holds h1) h1

theorem State.putLine_holds [ClosedRegs G] [ClosedCams G] [ClosedSeq G] {s c sl k l} (hs : Holds G s) :
    Holds G (State.putLine s c sl k l) := by
  unfold State.putLine
  extract_lets t1 _
  have ht1 : Holds G t1 := State.markPadded_holds hs
  clear_value t1
  exact Holds.ite (State.shutSlot_holds ht1) (State.setSlot_holds ht1)

theorem State.judgeLine_holds [ClosedRegs G] [ClosedCams G] [ClosedSeq G] {s c sl k xs} (hs : Holds G s) :
    Holds G (State.judgeLine s c sl k xs) := by
  unfold State.judgeLine
  extract_lets
  exact State.putLine_holds hs

theorem State.voidLine_holds [ClosedRegs G] [ClosedCams G] [ClosedSeq G] {s c sl k st} (hs : Holds G s) :
    Holds G (State.voidLine s c sl k st) := by
  unfold State.voidLine
  exact State.putLine_holds hs

theorem State.lineHome_holds [ClosedCams G] {s c n} (hs : Holds G s) :
    Holds G (State.lineHome s c n).2 := by
  unfold State.lineHome
  extract_lets _ _ t1 _ _
  have ht1 : Holds G t1 := State.setCam_holds hs
  clear_value t1
  split
  · exact hs
  · split
    · exact ht1
    · extract_lets
      split
      · exact ht1
      · split
        · exact ht1
        · split
          · exact ht1
          · split
            · exact ht1
            · exact ht1

theorem State.lineEnd_holds [ClosedRegs G] [ClosedCams G] [ClosedSeq G] {s c idx xs st} (hs : Holds G s) :
    Holds G (State.lineEnd s c idx xs st) := by
  unfold State.lineEnd
  split
  · exact hs
  · split
    · split
      · exact State.judgeLine_holds (Holds.of_pair (by assumption) (State.lineHome_holds hs))
      · exact State.voidLine_holds (Holds.of_pair (by assumption) (State.lineHome_holds hs))
    · exact State.bump_holds (Holds.of_pair (by assumption) (State.lineHome_holds hs))
    · exact State.bump_holds (Holds.of_pair (by assumption) (State.lineHome_holds hs))

theorem State.endCur_holds [ClosedRegs G] [ClosedCams G] [ClosedSeq G] {s c} (hs : Holds G s) :
    Holds G (State.endCur s c) := by
  unfold State.endCur
  split
  · exact hs
  · extract_lets
    exact State.lineEnd_holds (State.setCam_holds hs)

theorem State.discardLine_holds [ClosedRegs G] [ClosedCams G] [ClosedSeq G] {s c n} (hs : Holds G s) :
    Holds G (State.discardLine s c n) := by
  unfold State.discardLine
  split
  · exact State.voidLine_holds (Holds.of_pair (by assumption) (State.lineHome_holds hs))
  · exact Holds.of_pair (by assumption) (State.lineHome_holds hs)

theorem State.corruptLine_holds [ClosedRegs G] [ClosedCams G] [ClosedSeq G] {s c g k} (hs : Holds G s) :
    Holds G (State.corruptLine s c g k) := by
  unfold State.corruptLine
  split
  · exact hs
  · exact Holds.ite hs (State.voidLine_holds hs)

theorem State.lostTo_holds [ClosedRegs G] [ClosedCams G] [ClosedSeq G] {s c b} (hs : Holds G s) :
    Holds G (State.lostTo s c b) := by
  unfold State.lostTo
  extract_lets
  split
  · extract_lets _ _ t1
    have ht1 : Holds G t1 := State.setCam_holds hs
    clear_value t1
    exact Holds.ite hs (Holds.foldl ht1 (fun y1 y2 h1 => Holds.foldl h1 (fun y3 y4 h2 => Holds.ite (State.corruptLine_holds h2) h2)))
  · exact hs

theorem State.streamItem_holds [ClosedRegs G] [ClosedCams G] [ClosedSeq G] {s c a2} (hs : Holds G s) :
    Holds G (State.streamItem s c a2) := by
  unfold State.streamItem
  split
  · extract_lets t1 _ _ t2
    have ht1 : Holds G t1 := Holds.ite (State.lostTo_holds hs) (State.endCur_holds hs)
    have ht2 : Holds G t2 := State.setCam_holds ht1
    clear_value t1 t2
    exact Holds.ite (State.bump_holds ht2) ht2
  · extract_lets _ _ t3 _
    have ht3 : Holds G t3 := State.setCam_holds hs
    clear_value t3
    split
    · exact hs
    · extract_lets _ t4 _ t5 _
      have ht4 : Holds G t4 := Holds.ite (State.lostTo_holds ht3) (State.endCur_holds ht3)
      have ht5 : Holds G t5 := State.setCam_holds ht4
      clear_value t4 t5
      exact Holds.ite (Holds.ite (State.discardLine_holds ht5) ht5) (Holds.ite (State.setCam_holds ht5) (State.lineEnd_holds ht5))
  · extract_lets
    split
    · extract_lets
      exact Holds.ite (State.setCam_holds hs) (State.lineEnd_holds (State.setCam_holds hs))
    · exact hs

theorem State.breakStream_holds [ClosedRegs G] [ClosedCams G] [ClosedSeq G] {s c} (hs : Holds G s) :
    Holds G (State.breakStream s c) := by
  unfold State.breakStream
  extract_lets _ t1 _
  have ht1 : Holds G t1 := by
    unfold t1
    split
    · exact State.lineEnd_holds hs
    · exact hs
  clear_value t1
  exact Holds.ite hs (State.setCam_holds ht1)

theorem State.streamPacket_holds [ClosedRegs G] [ClosedCams G] [ClosedSeq G] {s c tag crcOk items} (hs : Holds G s) :
    Holds G (State.streamPacket s c tag crcOk items) := by
  unfold State.streamPacket
  extract_lets _ _ t1 t2
  have ht1 : Holds G t1 := State.setCam_holds hs
  have ht2 : Holds G t2 := Holds.ite (State.breakStream_holds ht1) ht1
  clear_value t1 t2
  exact Holds.ite (Holds.foldl ht2 (fun y1 y2 h1 => State.streamItem_holds h1)) (State.breakStream_holds (State.bump_holds ht2))

theorem State.assemble_holds [ClosedRegs G] [ClosedCams G] [ClosedSeq G] {s c a2} (hs : Holds G s) :
    Holds G (State.assemble s c a2) := by
  induction a2 generalizing s c with
  | zero =>
    unfold State.assemble
    exact hs
  | succ k ih =>
    unfold State.assemble
    extract_lets _ _ _ t1
    have ht1 : Holds G t1 := State.setCam_holds hs
    clear_value t1
    split
    · exact hs
    · extract_lets _ t2
      have ht2 : Holds G t2 := State.setCam_holds hs
      clear_value t2
      exact Holds.ite (ih (State.breakStream_holds ht1)) (ih (State.streamPacket_holds ht2))

theorem State.packetIn_holds [ClosedRegs G] [ClosedCams G] [ClosedSeq G] {s c conn tag crcOk items} (hs : Holds G s) :
    Holds G (State.packetIn s c conn tag crcOk items) := by
  unfold State.packetIn
  extract_lets t1 _ t2
  have ht1 : Holds G t1 := State.closeOverdue_holds hs
  have ht2 : Holds G t2 := State.setCam_holds ht1
  clear_value t1 t2
  exact State.assemble_holds ht2

theorem execStreamPacket_holds [ClosedRegs G] [ClosedCams G] [ClosedSeq G] {lane tag crcOk items s} (hs : Holds G s) :
    HoldsOut G (execStreamPacket lane tag crcOk items s) := by
  unfold execStreamPacket
  extract_lets
  exact HoldsOut.next (Holds.ite (State.packetIn_holds hs) hs)

theorem execSlotDeadline_holds [ClosedRegs G] [ClosedCams G] [ClosedSeq G] {cam s} (hs : Holds G s) :
    HoldsOut G (execSlotDeadline cam s) := by
  unfold execSlotDeadline
  exact HoldsOut.next (State.closeOverdue_holds hs)

theorem State.digestFinal_holds [ClosedSeq G] {s i} (hs : Holds G s) :
    Holds G (State.digestFinal s i) := by
  unfold State.digestFinal
  extract_lets
  exact Holds.ite hs (State.setPart_holds hs)

theorem execInputDigestFinal_holds [ClosedSeq G] {part s} (hs : Holds G s) :
    HoldsOut G (execInputDigestFinal part s) := by
  unfold execInputDigestFinal
  exact HoldsOut.next (State.digestFinal_holds hs)

theorem State.cameraCommit_holds [ClosedRegs G] [ClosedFree G] [ClosedLanes G] [ClosedCams G] [ClosedLink G] [ClosedLoft G] [ClosedGts G] [ClosedClk G] {s old} (hs : Holds G s) :
    Holds G (State.cameraCommit s old) := by
  unfold State.cameraCommit
  extract_lets _ _ t1 t2 t3 t4
  have ht1 : Holds G t1 := Holds.foldl hs (fun y1 y2 h1 => State.put_holds (State.leaveStreaming_holds h1))
  have ht2 : Holds G t2 := Holds.foldl ht1 (fun y3 y4 h2 => State.setDisc_holds (State.setReg_holds (State.leaveStreaming_holds h2)))
  have ht3 : Holds G t3 := Holds.foldl ht2 (fun y5 y6 h3 => State.laneCommit_holds h3)
  have ht4 : Holds G t4 := Holds.foldl ht3 (fun y7 y8 h4 => State.startDiscover_holds h4)
  clear_value t1 t2 t3 t4
  refine Holds.foldl ht4 ?_
  intro y9 y10 h5
  extract_lets
  exact Holds.ite (State.startCheck_holds h5) h5

end Sys2Proof.Machine
end

