-- ==== Sys2Proof/Laws/Strips.lean ====
section
/-! SUPPORT. Laws/Strips.lean: what the functions of Machine/Strips.lean can change (Laws/Closure.lean). -/

namespace Sys2Proof.Machine

variable {G : State → Prop}

theorem State.setStream_holds [ClosedLp G] {s c k x} (hs : Holds G s) :
    Holds G (State.setStream s c k x) := by
  unfold State.setStream
  extract_lets
  exact Holds.lp hs

theorem State.haloPackets_holds [ClosedRegs G] [ClosedGts G] {s e strip bs} (hs : Holds G s) :
    Holds G (State.haloPackets s e strip bs) := by
  unfold State.haloPackets
  extract_lets
  exact Holds.foldl hs (fun y1 y2 h1 => State.sendTo_holds h1)

theorem State.haloSend_holds [ClosedRegs G] [ClosedCel G] [ClosedLoft G] [ClosedGts G] {s c k o flags} (hs : Holds G s) :
    Holds G (State.haloSend s c k o flags) := by
  unfold State.haloSend
  extract_lets
  refine Holds.ite hs ?_
  refine Holds.foldl hs ?_
  intro y1 y2 h1
  extract_lets
  split
  · exact State.bump_holds (State.haloPackets_holds (Holds.of_triple (by assumption) (State.loadAll_holds h1)))
  · exact Holds.of_triple (by assumption) (State.loadAll_holds h1)

theorem State.post_holds [ClosedRegs G] [ClosedMem G] [ClosedLarder G] [ClosedFree G] [ClosedCel G] [ClosedLoft G] [ClosedGts G] [ClosedCores G] [ClosedLists G] [ClosedJobs G] [ClosedSync G] {s c k o} (hs : Holds G s) :
    Holds G (State.post s c k o) := by
  unfold State.post
  extract_lets _ _ _ _ _ _ _ _ _ t1 t2
  have ht1 : Holds G t1 := State.store_holds hs
  have ht2 : Holds G t2 := State.signal_holds ht1
  clear_value t1 t2
  exact Holds.ite hs (State.postStrip_holds (State.haloSend_holds ht2))

theorem State.postPrev_holds [ClosedRegs G] [ClosedMem G] [ClosedLarder G] [ClosedFree G] [ClosedCel G] [ClosedLp G] [ClosedLoft G] [ClosedGts G] [ClosedCores G] [ClosedLists G] [ClosedJobs G] [ClosedSync G] {s c k} (hs : Holds G s) :
    Holds G (State.postPrev s c k) := by
  unfold State.postPrev
  extract_lets
  split
  · exact hs
  · exact State.post_holds (State.setStream_holds hs)

theorem State.endStrip_holds [ClosedRegs G] [ClosedMem G] [ClosedLarder G] [ClosedFree G] [ClosedCel G] [ClosedLp G] [ClosedLoft G] [ClosedGts G] [ClosedCores G] [ClosedLists G] [ClosedJobs G] [ClosedSync G] {s c k forced} (hs : Holds G s) :
    Holds G (State.endStrip s c k forced) := by
  unfold State.endStrip
  extract_lets t1 _ t2 _
  have ht1 : Holds G t1 := State.postPrev_holds hs
  have ht2 : Holds G t2 := State.setStream_holds ht1
  clear_value t1 t2
  split
  · exact ht1
  · extract_lets
    exact Holds.ite (State.post_holds ht2) (State.setStream_holds ht2)

theorem State.dropRow_holds [ClosedRegs G] [ClosedLp G] [ClosedSeq G] {s c k g x0 w} (hs : Holds G s) :
    Holds G (State.dropRow s c k g x0 w) := by
  unfold State.dropRow
  extract_lets t1 t2 _ t3
  have ht1 : Holds G t1 := State.bump_holds hs
  have ht2 : Holds G t2 := Holds.ite ht1 (State.latch_holds (State.raise_holds ht1))
  have ht3 : Holds G t3 := State.setStream_holds ht2
  clear_value t1 t2 t3
  refine Holds.ite ?_ ht3
  refine Holds.foldl ht3 ?_
  intro y1 y2 h1
  extract_lets
  exact Holds.ite (State.markIncomplete_holds h1) h1

theorem State.takeBuf_holds [ClosedRegs G] [ClosedLp G] {s c k w crop part} (hs : Holds G s) :
    HoldsOptSnd G (State.takeBuf s c k w crop part) := by
  unfold State.takeBuf
  extract_lets _ _ _ _ t1 _ t2
  have ht1 : Holds G t1 := State.drop_holds hs
  have ht2 : Holds G t2 := Holds.lp ht1
  clear_value t1 t2
  split
  · exact HoldsOptSnd.none
  · exact HoldsOptSnd.some (State.setStream_holds ht2)

theorem State.placeHalo_holds [ClosedRegs G] [ClosedLp G] {s c k p o} (hs : Holds G s) :
    Holds G (State.placeHalo s c k p o).2 := by
  unfold State.placeHalo
  extract_lets _ _ t1 _ _ t2
  have ht1 : Holds G t1 := Holds.lp hs
  have ht2 : Holds G t2 := Holds.lp ht1
  clear_value t1 t2
  split
  · exact Holds.lp ht1
  · exact State.latch_holds (State.bump_holds ht2)

theorem State.haloWrite_holds [ClosedRegs G] [ClosedMem G] [ClosedLarder G] [ClosedFree G] [ClosedCel G] [ClosedLp G] [ClosedLoft G] [ClosedGts G] [ClosedCores G] [ClosedLists G] [ClosedJobs G] [ClosedSync G] {s c k o idx bs} (hs : Holds G s) :
    Holds G (State.haloWrite s c k o idx bs) := by
  unfold State.haloWrite
  split
  · exact hs
  · split
    · extract_lets t1 _ _ t2
      have ht1 : Holds G t1 := by
        refine Holds.ite ?_ ?_
        · refine State.store_holds ?_
          refine Holds.of_pair (by assumption) ?_
          split
          · exact State.placeHalo_holds hs
          · exact hs
        · refine Holds.of_pair (by assumption) ?_
          split
          · exact State.placeHalo_holds hs
          · exact hs
      have ht2 : Holds G t2 := State.setStream_holds ht1
      clear_value t1 t2
      exact Holds.ite (State.postPrev_holds ht2) ht2

theorem State.bodyWrite_holds [ClosedRegs G] [ClosedMem G] [ClosedCel G] [ClosedLoft G] {s o r parts bs} (hs : Holds G s) :
    Holds G (State.bodyWrite s o r parts bs).2 := by
  unfold State.bodyWrite
  extract_lets
  exact State.store_holds hs

theorem State.emitRow_holds [ClosedRegs G] [ClosedMem G] [ClosedLarder G] [ClosedFree G] [ClosedCel G] [ClosedLp G] [ClosedSeq G] [ClosedLoft G] [ClosedGts G] [ClosedCores G] [ClosedLists G] [ClosedJobs G] [ClosedSync G] {s c k r w parts} (hs : Holds G s) :
    Holds G (State.emitRow s c k r w parts) := by
  unfold State.emitRow
  extract_lets _ _ dropped write
  have hd : ∀ t, Holds G t → Holds G (dropped t) := fun t h => State.dropRow_holds h
  have hw : ∀ t o, Holds G t → Holds G (write t o) := by
    intro t o h
    unfold write
    extract_lets
    split
    exact State.haloWrite_holds (State.setStream_holds (Holds.of_pair (by assumption) (State.bodyWrite_holds h)))
  clear_value dropped write
  split
  · exact hw _ _ hs
  · refine Holds.ite (hd _ hs) ?_
    split
    · exact hw _ _ (Holds.of_some_pair (by assumption) (State.takeBuf_holds hs))
    · exact hd _ hs

theorem State.endReached_holds [ClosedRegs G] [ClosedMem G] [ClosedLarder G] [ClosedFree G] [ClosedCel G] [ClosedLp G] [ClosedLoft G] [ClosedGts G] [ClosedCores G] [ClosedLists G] [ClosedJobs G] [ClosedSync G] {s c k} (hs : Holds G s) :
    Holds G (State.endReached s c k) := by
  unfold State.endReached
  extract_lets _ _ _ _ t1
  have ht1 : Holds G t1 := State.setStream_holds hs
  clear_value t1
  exact Holds.ite hs (Holds.ite (State.endStrip_holds ht1) ht1)

theorem State.assignGate_holds [ClosedRegs G] [ClosedMem G] [ClosedLarder G] [ClosedFree G] [ClosedCel G] [ClosedLp G] [ClosedLoft G] [ClosedGts G] [ClosedCores G] [ClosedLists G] [ClosedJobs G] [ClosedSync G] {s c g} (hs : Holds G s) :
    Holds G (State.assignGate s c g) := by
  unfold State.assignGate
  refine Holds.foldl hs ?_
  intro y1 y2 h1
  extract_lets
  exact Holds.ite h1 (Holds.ite (State.setStream_holds h1) (Holds.ite (State.setStream_holds h1) (Holds.ite (State.endReached_holds (State.bump_holds (State.setStream_holds h1))) (State.setStream_holds h1))))

theorem State.stripCut_holds [ClosedRegs G] [ClosedMem G] [ClosedLarder G] [ClosedFree G] [ClosedCel G] [ClosedLp G] [ClosedLoft G] [ClosedGts G] [ClosedCores G] [ClosedLists G] [ClosedJobs G] [ClosedSync G] {s c} (hs : Holds G s) :
    Holds G (State.stripCut s c) := by
  unfold State.stripCut
  split
  · refine Holds.foldl hs ?_
    intro y1 y2 h1
    extract_lets
    exact Holds.ite (Holds.ite (State.bump_holds h1) h1) (Holds.ite (State.endReached_holds (State.setStream_holds h1)) (State.endReached_holds (State.setStream_holds h1)))

theorem State.level_holds [ClosedRegs G] [ClosedMem G] [ClosedLarder G] [ClosedFree G] [ClosedCel G] [ClosedLp G] [ClosedSeq G] [ClosedLoft G] [ClosedGts G] [ClosedCores G] [ClosedLists G] [ClosedJobs G] [ClosedSync G] {s c k r m a5} (hs : Holds G s) :
    Holds G (State.level s c k r m a5) := by
  induction a5 generalizing s c k r m with
  | zero =>
    unfold State.level
    exact hs
  | succ k ih =>
    unfold State.level
    extract_lets _ _ _ _ t1 t2 _ t3
    have ht1 : Holds G t1 := State.setStream_holds hs
    have ht2 : Holds G t2 := State.endReached_holds ht1
    have ht3 : Holds G t3 := Holds.ite (State.bump_holds (State.endStrip_holds ht2)) ht2
    clear_value t1 t2 t3
    refine Holds.ite ht1 ?_
    split
    · exact State.setStream_holds ht1
    · extract_lets _ _ _ t4 _
      have ht4 : Holds G t4 := State.emitRow_holds ht3
      clear_value t4
      exact Holds.ite (State.endReached_holds (State.setStream_holds ht4)) (ih ht1)

theorem State.endCrop_holds [ClosedRegs G] [ClosedMem G] [ClosedLarder G] [ClosedFree G] [ClosedCel G] [ClosedLp G] [ClosedLoft G] [ClosedGts G] [ClosedCores G] [ClosedLists G] [ClosedJobs G] [ClosedSync G] {s c k r cut} (hs : Holds G s) :
    Holds G (State.endCrop s c k r cut) := by
  unfold State.endCrop
  extract_lets _ _ t1
  have ht1 : Holds G t1 := Holds.ite (State.setStream_holds hs) (State.drop_holds (State.setStream_holds hs))
  clear_value t1
  split
  · exact ht1
  · exact State.post_holds ht1

theorem State.cropBusy_holds [ClosedRegs G] [ClosedSeq G] {s c k i} (hs : Holds G s) :
    Holds G (State.cropBusy s c k i) := by
  unfold State.cropBusy
  extract_lets t1
  have ht1 : Holds G t1 := State.bump_holds hs
  clear_value t1
  exact Holds.ite (Holds.foldl ht1 (fun y1 y2 h1 => State.markIncomplete_holds h1)) ht1

theorem State.roiApply_holds [ClosedRegs G] [ClosedMem G] [ClosedLarder G] [ClosedFree G] [ClosedCel G] [ClosedLp G] [ClosedSeq G] [ClosedLoft G] [ClosedGts G] [ClosedCores G] [ClosedLists G] [ClosedJobs G] [ClosedSync G] {s i} (hs : Holds G s) :
    Holds G (State.roiApply s i) := by
  unfold State.roiApply
  extract_lets _ _ t1
  have ht1 : Holds G t1 := by
    unfold t1
    split
    · exact State.endCrop_holds hs
    · exact hs
  exact Holds.ite hs (Holds.ite (State.cropBusy_holds ht1) (State.setStream_holds ht1))

theorem State.cropRow_holds [ClosedRegs G] [ClosedMem G] [ClosedLarder G] [ClosedFree G] [ClosedCel G] [ClosedLp G] [ClosedSeq G] [ClosedLoft G] [ClosedGts G] [ClosedCores G] [ClosedLists G] [ClosedJobs G] [ClosedSync G] {s c k row q} (hs : Holds G s) :
    Holds G (State.cropRow s c k row q) := by
  unfold State.cropRow
  extract_lets _ _ _ _ x5
  refine Holds.ite hs ?_
  refine Holds.ite hs ?_
  split
  · refine Holds.ite ?_ ?_
    · refine State.endCrop_holds ?_
      refine Holds.of_pair (by assumption) ?_
      split
      · unfold x5
        split
        · exact State.setStream_holds (Holds.of_pair (by assumption) (State.bodyWrite_holds hs))
      · split
        · exact State.dropRow_holds hs
        · split
          · unfold x5
            split
            · exact State.setStream_holds (Holds.of_pair (by assumption) (State.bodyWrite_holds (Holds.of_some_pair (by assumption) (State.takeBuf_holds hs))))
          · exact State.dropRow_holds hs
    · refine Holds.of_pair (by assumption) ?_
      split
      · unfold x5
        split
        · exact State.setStream_holds (Holds.of_pair (by assumption) (State.bodyWrite_holds hs))
      · split
        · exact State.dropRow_holds hs
        · split
          · unfold x5
            split
            · exact State.setStream_holds (Holds.of_pair (by assumption) (State.bodyWrite_holds (Holds.of_some_pair (by assumption) (State.takeBuf_holds hs))))
          · exact State.dropRow_holds hs

end Sys2Proof.Machine
end

