-- ==== Sys2Proof/Laws/LinePipe.lean ====
section
/-! SUPPORT. Laws/LinePipe.lean: what the functions of Machine/LinePipe.lean can change (Laws/Closure.lean). -/

namespace Sys2Proof.Machine

variable {G : State → Prop}

theorem State.gateParts_holds [ClosedLp G] [ClosedSeq G] {s c g} (hs : Holds G s) :
    Holds G (State.gateParts s c g) := by
  unfold State.gateParts
  extract_lets t1 _
  have ht1 : Holds G t1 := by
    refine Holds.foldl hs ?_
    intro y1 y2 h1
    extract_lets
    exact State.setPart_holds h1
  clear_value t1
  exact Holds.lp ht1

theorem State.sdgEnqueue_holds [ClosedSeq G] [ClosedSdg G] {s} (hs : Holds G s) :
    Holds G (State.sdgEnqueue s) := by
  unfold State.sdgEnqueue
  extract_lets
  refine Holds.foldl hs ?_
  intro y1 y2 h1
  extract_lets _ _ t1 _
  have ht1 : Holds G t1 := State.setPart_holds h1
  clear_value t1
  exact Holds.ite (Holds.sdg ht1) ht1

theorem State.decimatedRow_holds [ClosedSeq G] {s c planes g wpos flags} (hs : Holds G s) :
    Holds G (State.decimatedRow s c planes g wpos flags) := by
  unfold State.decimatedRow
  refine Holds.foldl hs ?_
  intro y1 y2 h1
  extract_lets
  exact Holds.ite h1 (State.setPart_holds h1)

theorem State.decRow_holds [ClosedLp G] [ClosedSeq G] {s c k r} (hs : Holds G s) :
    Holds G (State.decRow s c k r) := by
  unfold State.decRow
  extract_lets x y q t1
  have ht1 : Holds G t1 := State.setStream_holds hs
  clear_value t1
  clear_value q
  split
  · extract_lets
    exact State.decimatedRow_holds ht1
  · exact State.setStream_holds hs

theorem State.capStore_holds [ClosedRegs G] [ClosedMem G] [ClosedCel G] [ClosedLoft G] {s r h j y} (hs : Holds G s) :
    Holds G (State.capStore s r h j y) := by
  unfold State.capStore
  exact State.store_holds hs

theorem State.capAdd_holds [ClosedRegs G] [ClosedMem G] [ClosedCel G] [ClosedLoft G] {s r row} (hs : Holds G s) :
    Holds G (State.capAdd s r row).2 := by
  unfold State.capAdd
  extract_lets
  split
  · exact hs
  · exact State.capStore_holds hs

theorem State.capPlace_holds [ClosedRegs G] [ClosedMem G] [ClosedCel G] [ClosedLoft G] {s r} (hs : Holds G s) :
    Holds G (State.capPlace s r).2 := by
  unfold State.capPlace
  split
  · exact hs
  · extract_lets _ t1 _
    have ht1 : Holds G t1 := Holds.foldl hs (fun y1 y2 h1 => Holds.foldl h1 (fun y3 y4 h2 => State.capStore_holds h2))
    clear_value t1
    split
    · exact hs
    · split
      · exact ht1
      · exact State.store_holds ht1

theorem State.captureStep_holds [ClosedSeq G] {s i f} (hs : Holds G s) (hf : ∀ y0 y1, Holds G y0 → Holds G (f y0 y1).2) :
    Holds G (State.captureStep s i f) := by
  unfold State.captureStep
  split
  · exact hs
  · split
    · extract_lets
      exact State.setPart_holds (Holds.of_pair (by assumption) (hf _ _ hs))

theorem State.capRow_holds [ClosedRegs G] [ClosedMem G] [ClosedCel G] [ClosedLoft G] {s row r} (hs : Holds G s) :
    Holds G (State.capRow s row r).2 := by
  unfold State.capRow
  split
  · exact State.capPlace_holds (Holds.of_pair (by assumption) (State.capAdd_holds hs))

theorem State.captureTakes_holds [ClosedRegs G] [ClosedMem G] [ClosedCel G] [ClosedSeq G] [ClosedLoft G] [ClosedAdp G] {s c row} (hs : Holds G s) :
    Holds G (State.captureTakes s c row) := by
  unfold State.captureTakes
  extract_lets t1
  have ht1 : Holds G t1 := Holds.foldl hs (fun y1 y2 h1 => State.captureStep_holds h1 (fun y3 y4 h2 => State.capRow_holds h2))
  clear_value t1
  split
  · extract_lets
    refine Holds.adp ?_
    refine Holds.of_pair (by assumption) ?_
    refine Holds.foldl_snd ht1 ?_
    intro y5 y6 h3
    split
    · split
      · exact Holds.of_pair (by assumption) (State.capRow_holds h3)
    · exact h3

theorem State.captureClose_holds [ClosedRegs G] [ClosedMem G] [ClosedCel G] [ClosedSeq G] [ClosedLoft G] {s i} (hs : Holds G s) :
    Holds G (State.captureClose s i) := by
  unfold State.captureClose
  refine State.captureStep_holds hs ?_
  intro y1 y2 h1
  extract_lets
  exact State.capPlace_holds h1

theorem State.measOpen_holds [ClosedRegs G] [ClosedMem G] [ClosedCel G] [ClosedLp G] [ClosedLoft G] {s i} (hs : Holds G s) :
    Holds G (State.measOpen s i) := by
  unfold State.measOpen
  extract_lets _ _ _ _ _ t1
  have ht1 : Holds G t1 := Holds.lp hs
  clear_value t1
  refine Holds.ite hs ?_
  refine Holds.foldl ht1 ?_
  intro y1 y2 h1
  extract_lets _ t2
  have ht2 : Holds G t2 := State.store_holds h1
  clear_value t2
  exact State.store_holds ht2

theorem State.noteSteer_holds [ClosedLp G] {s off} (hs : Holds G s) :
    Holds G (State.noteSteer s off) := by
  unfold State.noteSteer
  extract_lets
  exact Holds.lp hs

theorem State.steerReg_holds [ClosedRegs G] [ClosedLp G] {s dx dy x y} (hs : Holds G s) :
    Holds G (State.steerReg s dx dy x y) := by
  unfold State.steerReg
  exact State.putInt_holds (State.putInt_holds (State.noteSteer_holds hs))

theorem State.steer_holds [ClosedRegs G] [ClosedLp G] {s e dx dy} (hs : Holds G s) :
    Holds G (State.steer s e dx dy) := by
  unfold State.steer
  extract_lets _ _ t1
  have ht1 : Holds G t1 := Holds.foldl hs (fun y1 y2 h1 => Holds.ite (State.steerReg_holds h1) h1)
  clear_value t1
  exact Holds.foldl ht1 (fun y3 y4 h2 => Holds.ite (State.steerReg_holds h2) h2)

theorem State.markResult_holds [ClosedRegs G] [ClosedMem G] [ClosedFree G] [ClosedCel G] [ClosedLp G] [ClosedLoft G] {s m} (hs : Holds G s) :
    Holds G (State.markResult s m) := by
  unfold State.markResult
  extract_lets
  split
  · split
    · split
      · extract_lets t1 _ _ _ _ _ _ _ _ t2
        have ht1 : Holds G t1 := Holds.ite (Holds.of_pair (by assumption) (State.draw_holds (Holds.of_pair (by assumption) (State.draw_holds (Holds.of_pair (by assumption) (State.draw_holds hs)))))) hs
        have ht2 : Holds G t2 := State.store_holds ht1
        clear_value t1 t2
        exact Holds.ite (State.steer_holds ht2) (State.bump_holds ht2)

theorem State.measRow_holds [ClosedRegs G] [ClosedMem G] [ClosedFree G] [ClosedCel G] [ClosedLp G] [ClosedLoft G] {s c r m} (hs : Holds G s) :
    Holds G (State.measRow s c r m).2 := by
  unfold State.measRow
  split
  · exact hs
  · extract_lets
    split
    · exact hs
    · split
      · exact hs
      · split
        · exact State.store_holds hs
        · exact State.markResult_holds hs

theorem State.measRows_holds [ClosedRegs G] [ClosedMem G] [ClosedFree G] [ClosedCel G] [ClosedLp G] [ClosedLoft G] {s c r} (hs : Holds G s) :
    Holds G (State.measRows s c r) := by
  unfold State.measRows
  extract_lets
  refine Holds.foldl (Holds.lp hs) ?_
  intro y1 y2 h1
  split
  · extract_lets
    exact Holds.lp (Holds.of_pair (by assumption) (State.measRow_holds h1))
  · exact Holds.of_pair (by assumption) (State.measRow_holds h1)

theorem State.readTables_holds [ClosedRegs G] [ClosedCel G] [ClosedLp G] [ClosedSeq G] [ClosedLink G] [ClosedLoft G] {s c} (hs : Holds G s) :
    Holds G (State.readTables s c) := by
  unfold State.readTables
  extract_lets
  refine Holds.ite hs ?_
  split
  · extract_lets _ t1
    have ht1 : Holds G t1 := by
      refine Holds.lp ?_
      refine Holds.of_pair (by assumption) ?_
      refine Holds.foldl_snd hs ?_
      intro y1 y2 h1
      split
      · exact Holds.of_pair (by assumption) (State.checkWord_holds h1)
      · exact Holds.of_pair (by assumption) (State.checkWord_holds h1)
    clear_value t1
    refine Holds.ite (State.lineStop_holds (State.markFault_holds ht1)) ?_
    refine Holds.of_pair (by assumption) ?_
    refine Holds.foldl_snd hs ?_
    intro y3 y4 h2
    split
    · exact Holds.of_pair (by assumption) (State.checkWord_holds h2)
    · exact Holds.of_pair (by assumption) (State.checkWord_holds h2)

theorem State.streamRow_holds [ClosedRegs G] [ClosedMem G] [ClosedLarder G] [ClosedFree G] [ClosedCel G] [ClosedLp G] [ClosedSeq G] [ClosedLoft G] [ClosedGts G] [ClosedCores G] [ClosedLists G] [ClosedJobs G] [ClosedSync G] {s c r k} (hs : Holds G s) :
    Holds G (State.streamRow s c r k) := by
  unfold State.streamRow
  extract_lets _ _ _ t1 t2 _
  have ht1 : Holds G t1 := State.setStream_holds hs
  have ht2 : Holds G t2 := State.endReached_holds ht1
  clear_value t1 t2
  split
  · exact Holds.ite (State.emitRow_holds ht2) ht2
  · exact State.level_holds ht1
  · exact Holds.foldl ht1 (fun y1 y2 h1 => State.cropRow_holds h1)
  · exact State.decRow_holds ht1
  · exact ht1

theorem State.feedRow_holds [ClosedRegs G] [ClosedMem G] [ClosedLarder G] [ClosedHost G] [ClosedFree G] [ClosedCel G] [ClosedLp G] [ClosedSeq G] [ClosedLoft G] [ClosedGts G] [ClosedClient G] [ClosedCores G] [ClosedLists G] [ClosedJobs G] [ClosedPtns G] [ClosedFlock G] [ClosedAdp G] [ClosedSdg G] [ClosedSync G] {s c r none_} (hs : Holds G s) :
    Holds G (State.feedRow s c r none_) := by
  unfold State.feedRow
  extract_lets t1 t2 t3 t4 t5 _ t6 t7
  have ht1 : Holds G t1 := State.bumpBy_holds (State.bump_holds hs)
  have ht2 : Holds G t2 := Holds.ite (State.bump_holds ht1) ht1
  have ht3 : Holds G t3 := Holds.ite (Holds.foldl (State.latch_holds (State.bump_holds ht2)) (fun y1 y2 h1 => State.markIncomplete_holds h1)) ht2
  have ht4 : Holds G t4 := Holds.foldl ht3 (fun y3 y4 h2 => State.streamRow_holds h2)
  have ht5 : Holds G t5 := State.captureTakes_holds (State.measRows_holds ht4)
  have ht6 : Holds G t6 := Holds.lp ht5
  have ht7 : Holds G t7 := Holds.foldl ht6 (fun y5 y6 h3 => State.endReached_holds h3)
  clear_value t1 t2 t3 t4 t5 t6 t7
  exact State.settle_holds (State.sdgEnqueue_holds ht7)

theorem State.rowBuild_holds [ClosedRegs G] [ClosedMem G] [ClosedLarder G] [ClosedHost G] [ClosedFree G] [ClosedCel G] [ClosedLp G] [ClosedSeq G] [ClosedLink G] [ClosedLoft G] [ClosedGts G] [ClosedClient G] [ClosedCores G] [ClosedLists G] [ClosedJobs G] [ClosedPtns G] [ClosedFlock G] [ClosedAdp G] [ClosedSdg G] [ClosedSync G] {s c} (hs : Holds G s) :
    Holds G (State.rowBuild s c) := by
  unfold State.rowBuild
  extract_lets _ t1
  have ht1 : Holds G t1 := State.readTables_holds hs
  clear_value t1
  split
  · exact State.feedRow_holds ht1

theorem execRowBuild_holds [ClosedRegs G] [ClosedMem G] [ClosedLarder G] [ClosedHost G] [ClosedFree G] [ClosedCel G] [ClosedLp G] [ClosedSeq G] [ClosedLink G] [ClosedLoft G] [ClosedGts G] [ClosedClient G] [ClosedCores G] [ClosedLists G] [ClosedJobs G] [ClosedPtns G] [ClosedFlock G] [ClosedAdp G] [ClosedSdg G] [ClosedSync G] {cam s} (hs : Holds G s) :
    HoldsOut G (execRowBuild cam s) := by
  unfold execRowBuild
  exact HoldsOut.next (Holds.ite (State.rowBuild_holds hs) hs)

theorem State.buildReady_holds [ClosedRegs G] [ClosedMem G] [ClosedLarder G] [ClosedHost G] [ClosedFree G] [ClosedCel G] [ClosedLp G] [ClosedSeq G] [ClosedLink G] [ClosedLoft G] [ClosedGts G] [ClosedClient G] [ClosedCores G] [ClosedLists G] [ClosedJobs G] [ClosedPtns G] [ClosedFlock G] [ClosedAdp G] [ClosedSdg G] [ClosedSync G] {s c a2} (hs : Holds G s) :
    Holds G (State.buildReady s c a2) := by
  induction a2 generalizing s c with
  | zero =>
    unfold State.buildReady
    exact hs
  | succ k ih =>
    unfold State.buildReady
    exact Holds.ite (ih (State.rowBuild_holds hs)) hs

theorem State.reclaim_holds [ClosedRegs G] [ClosedMem G] [ClosedLarder G] [ClosedHost G] [ClosedFree G] [ClosedCel G] [ClosedCams G] [ClosedLp G] [ClosedSeq G] [ClosedLink G] [ClosedLoft G] [ClosedGts G] [ClosedClient G] [ClosedCores G] [ClosedLists G] [ClosedJobs G] [ClosedPtns G] [ClosedFlock G] [ClosedAdp G] [ClosedSdg G] [ClosedSync G] {s c} (hs : Holds G s) :
    Holds G (State.reclaim s c) := by
  unfold State.reclaim
  extract_lets _ _ _ t1 _
  have ht1 : Holds G t1 := State.buildReady_holds (Holds.foldl hs (fun y1 y2 h1 => State.closeSlot_holds h1))
  clear_value t1
  exact Holds.ite hs (State.setCam_holds ht1)

theorem State.lineGate_holds [ClosedRegs G] [ClosedMem G] [ClosedLarder G] [ClosedHost G] [ClosedFree G] [ClosedCel G] [ClosedCams G] [ClosedLp G] [ClosedSeq G] [ClosedLink G] [ClosedLoft G] [ClosedGts G] [ClosedClient G] [ClosedCores G] [ClosedLists G] [ClosedJobs G] [ClosedPtns G] [ClosedFlock G] [ClosedAdp G] [ClosedSdg G] [ClosedSync G] {s c} (hs : Holds G s) :
    Holds G (State.lineGate s c) := by
  unfold State.lineGate
  extract_lets t1 _ _ _ _ _ _ t2 t3
  have ht1 : Holds G t1 := State.reclaim_holds (State.closeOverdue_holds hs)
  have ht2 : Holds G t2 := State.setCam_holds ht1
  have ht3 : Holds G t3 := State.gateParts_holds (State.assignGate_holds ht2)
  clear_value t1 t2 t3
  exact Holds.ite ht3 (State.closeSlot_holds ht3)

theorem State.streamCommit_holds [ClosedRegs G] [ClosedLp G] {s old c k} (hs : Holds G s) :
    Holds G (State.streamCommit s old c k) := by
  unfold State.streamCommit
  extract_lets
  exact Holds.ite (Holds.ite (State.setStream_holds hs) hs) (Holds.ite hs (State.drop_holds (State.setStream_holds hs)))

theorem State.resetSteer_holds [ClosedRegs G] [ClosedLp G] {s off} (hs : Holds G s) :
    Holds G (State.resetSteer s off) := by
  unfold State.resetSteer
  extract_lets
  exact State.setReg_holds (Holds.lp hs)

theorem State.lpCommit_holds [ClosedRegs G] [ClosedLp G] {s old} (hs : Holds G s) :
    Holds G (State.lpCommit s old) := by
  unfold State.lpCommit
  extract_lets t1 t2
  have ht1 : Holds G t1 := by
    refine Holds.foldl hs ?_
    intro y1 y2 h1
    extract_lets _ t3
    have ht3 : Holds G t3 := Holds.ite (Holds.lp h1) h1
    clear_value t3
    exact Holds.foldl ht3 (fun y3 y4 h2 => State.streamCommit_holds h2)
  have ht2 : Holds G t2 := Holds.foldl ht1 (fun y5 y6 h3 => Holds.ite (State.resetSteer_holds h3) h3)
  clear_value t1 t2
  exact Holds.foldl ht2 (fun y7 y8 h4 => Holds.ite (State.resetSteer_holds h4) h4)

theorem State.lpEnd_holds [ClosedRegs G] [ClosedMem G] [ClosedLarder G] [ClosedFree G] [ClosedCel G] [ClosedLp G] [ClosedLoft G] [ClosedGts G] [ClosedCores G] [ClosedLists G] [ClosedJobs G] [ClosedSync G] {s new} (hs : Holds G s) :
    Holds G (State.lpEnd s new) := by
  unfold State.lpEnd
  refine Holds.foldl hs ?_
  intro y1 y2 h1
  extract_lets _ _ t1
  have ht1 : Holds G t1 := Holds.ite (State.postPrev_holds (State.endStrip_holds h1)) h1
  clear_value t1
  exact Holds.ite (Holds.foldl ht1 (fun y3 y4 h2 => State.endCrop_holds h2)) h1

end Sys2Proof.Machine
end

