-- ==== Sys2Proof/Laws/Ntm.lean ====
section
/-! SUPPORT. Laws/Ntm.lean: what the functions of Machine/Ntm.lean can change (Laws/Closure.lean). -/

namespace Sys2Proof.Machine

variable {G : State → Prop}

theorem State.ntmExtend_holds [ClosedNtm G] {s} (hs : Holds G s) :
    Holds G (State.ntmExtend s) := by
  unfold State.ntmExtend
  extract_lets
  exact Holds.ntm hs

theorem execNtimeExtend_holds [ClosedNtm G] {s} (hs : Holds G s) :
    HoldsOut G (execNtimeExtend s) := by
  unfold execNtimeExtend
  exact HoldsOut.next (State.ntmExtend_holds hs)

theorem State.snapTake_holds [ClosedRegs G] [ClosedNtm G] {s} (hs : Holds G s) :
    Holds G (State.snapTake s) := by
  unfold State.snapTake
  extract_lets t1 _
  have ht1 : Holds G t1 := State.drop_holds (State.put64_holds hs)
  clear_value t1
  exact Holds.ntm ht1

theorem execNtmSnapTake_holds [ClosedRegs G] [ClosedNtm G] {s} (hs : Holds G s) :
    HoldsOut G (execNtmSnapTake s) := by
  unfold execNtmSnapTake
  exact HoldsOut.next (State.written_holds hs (fun y1 h1 => State.snapTake_holds h1))

theorem execNtmSnapExtend_holds [ClosedRegs G] [ClosedNtm G] {s} (hs : Holds G s) :
    HoldsOut G (execNtmSnapExtend s) := by
  unfold execNtmSnapExtend
  refine HoldsOut.next ?_
  split
  · exact hs
  · extract_lets t1 t2 _
    have ht1 : Holds G t1 := State.ntmExtend_holds hs
    have ht2 : Holds G t2 := State.raise_holds (State.put64_holds ht1)
    clear_value t1 t2
    exact Holds.ntm ht2

theorem State.setTpo_holds [ClosedRegs G] [ClosedNtm G] {s n t} (hs : Holds G s) :
    Holds G (State.setTpo s n t) := by
  unfold State.setTpo
  extract_lets
  exact State.putFlag_holds (Holds.ntm hs)

theorem State.tpoMissed_holds [ClosedRegs G] {s n k} (hs : Holds G s) :
    Holds G (State.tpoMissed s n k) := by
  unfold State.tpoMissed
  exact Holds.ite hs (State.latch_holds (State.bumpBy_holds hs))

theorem State.tpoFrom_holds [ClosedRegs G] [ClosedNtm G] {s n t} (hs : Holds G s) :
    Holds G (State.tpoFrom s n t) := by
  unfold State.tpoFrom
  extract_lets
  exact Holds.ite (State.setTpo_holds hs) (Holds.ite (State.setTpo_holds (State.tpoMissed_holds hs)) (State.setTpo_holds (State.tpoMissed_holds hs)))

theorem State.tpoStart_holds [ClosedRegs G] [ClosedNtm G] {s n} (hs : Holds G s) :
    Holds G (State.tpoStart s n) := by
  unfold State.tpoStart
  extract_lets
  exact Holds.ite (State.tpoFrom_holds hs) (State.setTpo_holds hs)

theorem State.tpoCommit_holds [ClosedRegs G] [ClosedNtm G] {s old} (hs : Holds G s) :
    Holds G (State.tpoCommit s old) := by
  unfold State.tpoCommit
  exact Holds.foldl hs (fun y1 y2 h1 => Holds.ite h1 (State.tpoStart_holds h1))

theorem execTpoFire_holds [ClosedRegs G] [ClosedNtm G] {n s} (hs : Holds G s) :
    HoldsOut G (execTpoFire n s) := by
  unfold execTpoFire
  extract_lets _ _ _ t1 _
  have ht1 : Holds G t1 := Holds.ite (State.tpoMissed_holds hs) (State.bumpWrap_holds (State.setTpo_holds hs))
  clear_value t1
  exact HoldsOut.next (Holds.ite hs (Holds.ite (State.setTpo_holds ht1) (State.setTpo_holds ht1)))

theorem execTpoPulseEnd_holds [ClosedRegs G] [ClosedNtm G] {n s} (hs : Holds G s) :
    HoldsOut G (execTpoPulseEnd n s) := by
  unfold execTpoPulseEnd
  extract_lets
  exact HoldsOut.next (Holds.ite (State.setTpo_holds hs) hs)

theorem State.ntmStep_holds [ClosedRegs G] [ClosedLoft G] [ClosedNtm G] {s d} (hs : Holds G s) :
    Holds G (State.ntmStep s d) := by
  unfold State.ntmStep
  extract_lets _ _ t1 t2 t3
  have ht1 : Holds G t1 := Holds.ntm hs
  have ht2 : Holds G t2 := State.loftEvent_holds (State.bump_holds (State.raise_holds ht1))
  have ht3 : Holds G t3 := State.put_holds ht2
  clear_value t1 t2 t3
  refine Holds.ite ht3 ?_
  refine Holds.foldl ht3 ?_
  intro y1 y2 h1
  extract_lets
  exact Holds.ite (State.tpoFrom_holds h1) h1

theorem State.servo_holds [ClosedRegs G] [ClosedLoft G] [ClosedNtm G] {s t1 t2 t3 t4} (hs : Holds G s) :
    Holds G (State.servo s t1 t2 t3 t4) := by
  unfold State.servo
  extract_lets _ _ t1 _ _ _ _ t2 _ _ t3
  have ht1 : Holds G t1 := State.drop_holds (State.putInt_holds (State.putInt_holds hs))
  have ht2 : Holds G t2 := Holds.ite (State.ntmStep_holds ht1) (State.putInt_holds (Holds.ntm ht1))
  have ht3 : Holds G t3 := Holds.ntm ht2
  clear_value t1 t2 t3
  exact Holds.ite (State.put_holds ht3) ht3

theorem execPtpSync_holds [ClosedRegs G] [ClosedNtm G] {port domain source seq twoStep origin corr logInterval s} (hs : Holds G s) :
    HoldsOut G (execPtpSync port domain source seq twoStep origin corr logInterval s) := by
  unfold execPtpSync
  extract_lets t1 _ _
  have ht1 : Holds G t1 := State.bump_holds (State.ntmExtend_holds hs)
  clear_value t1
  exact HoldsOut.next (Holds.ite hs (Holds.ntm ht1))

theorem execPtpFollowUp_holds [ClosedNtm G] {port domain source seq origin corr s} (hs : Holds G s) :
    HoldsOut G (execPtpFollowUp port domain source seq origin corr s) := by
  unfold execPtpFollowUp
  extract_lets
  exact HoldsOut.next (Holds.ite hs (Holds.ntm hs))

theorem execPtpDelayResp_holds [ClosedRegs G] [ClosedLoft G] [ClosedNtm G] {port domain source seq receipt corr s} (hs : Holds G s) :
    HoldsOut G (execPtpDelayResp port domain source seq receipt corr s) := by
  unfold execPtpDelayResp
  refine HoldsOut.next ?_
  refine Holds.ite hs ?_
  split
  · exact hs
  · extract_lets _ t1 t2 _ _ t3
    have ht1 : Holds G t1 := Holds.ntm hs
    have ht2 : Holds G t2 := State.ntmExtend_holds ht1
    have ht3 : Holds G t3 := Holds.ntm ht2
    clear_value t1 t2 t3
    split
    · exact State.servo_holds ht3
    · exact ht1

theorem State.chooseMaster_holds [ClosedRegs G] [ClosedNtm G] {s} (hs : Holds G s) :
    Holds G (State.chooseMaster s) := by
  unfold State.chooseMaster
  extract_lets _ _ t1 _
  have ht1 : Holds G t1 := Holds.ntm hs
  clear_value t1
  split
  · exact ht1
  · extract_lets t2 t3
    have ht2 : Holds G t2 := Holds.ite ht1 (Holds.ntm ht1)
    have ht3 : Holds G t3 := State.put64_holds ht2
    clear_value t2 t3
    split
    · exact State.raise_holds (State.put_holds ht3)
    · exact ht3

theorem execPtpAnnounce_holds [ClosedRegs G] [ClosedNtm G] {port domain source prio1 cls accuracy variance prio2 gm steps utc logInterval s} (hs : Holds G s) :
    HoldsOut G (execPtpAnnounce port domain source prio1 cls accuracy variance prio2 gm steps utc logInterval s) := by
  unfold execPtpAnnounce
  extract_lets
  exact HoldsOut.next (Holds.ite hs (State.chooseMaster_holds (Holds.ntm hs)))

theorem execPtpTxComplete_holds [ClosedRegs G] [ClosedNtm G] {port msgType seq s} (hs : Holds G s) :
    HoldsOut G (execPtpTxComplete port msgType seq s) := by
  unfold execPtpTxComplete
  extract_lets _ t1 _
  have ht1 : Holds G t1 := State.bump_holds (State.latch_holds hs)
  clear_value t1
  exact HoldsOut.next (Holds.ite (Holds.ntm hs) (Holds.ntm ht1))

theorem execTxqStale_holds [ClosedRegs G] [ClosedNtm G] {s} (hs : Holds G s) :
    HoldsOut G (execTxqStale s) := by
  unfold execTxqStale
  refine HoldsOut.next ?_
  split
  · exact hs
  · extract_lets
    exact State.bump_holds (Holds.ntm hs)

theorem execAnnounceTimeout_holds [ClosedRegs G] {s} (hs : Holds G s) :
    HoldsOut G (execAnnounceTimeout s) := by
  unfold execAnnounceTimeout
  exact HoldsOut.next (Holds.ite (State.raise_holds (State.put_holds hs)) hs)

theorem State.ptpCommit_holds [ClosedRegs G] [ClosedNtm G] {s old} (hs : Holds G s) :
    Holds G (State.ptpCommit s old) := by
  unfold State.ptpCommit
  extract_lets _ t1
  have ht1 : Holds G t1 := Holds.ntm hs
  clear_value t1
  exact Holds.ite hs (State.put_holds ht1)

end Sys2Proof.Machine
end

