-- ==== Sys2Proof/Laws/Images.lean ====
section
/-! SUPPORT. Laws/Images.lean: what the functions of Machine/Images.lean can change (Laws/Closure.lean). -/

namespace Sys2Proof.Machine

variable {G : State → Prop}

theorem State.stageWeights_holds [ClosedRegs G] [ClosedMem G] [ClosedCel G] [ClosedLoft G] [ClosedStage G] {s j f} (hs : Holds G s) :
    Holds G (State.stageWeights s j f).2 := by
  unfold State.stageWeights
  split
  · exact hs
  · split
    · extract_lets
      exact Holds.stage (Holds.of_pair (by assumption) (State.store_holds hs))
    · exact Holds.of_pair (by assumption) (State.store_holds hs)

theorem State.stageImage_holds [ClosedRegs G] [ClosedMem G] [ClosedCel G] [ClosedLoft G] [ClosedStage G] {s j f} (hs : Holds G s) :
    Holds G (State.stageImage s j f).2 := by
  unfold State.stageImage
  extract_lets
  split
  · exact hs
  · split
    · extract_lets
      exact Holds.stage (Holds.of_pair (by assumption) (State.store_holds hs))
    · exact Holds.of_pair (by assumption) (State.store_holds hs)

end Sys2Proof.Machine
end

