-- ==== Sys2Proof/Laws/Sets.lean ====
section
/-! SUPPORT. Laws/Sets.lean: what the functions of Machine/Sets.lean can change (Laws/Closure.lean). -/

namespace Sys2Proof.Machine

variable {G : State → Prop}

theorem State.readMap_holds [ClosedRegs G] [ClosedCel G] [ClosedLoft G] {s ag c z} (hs : Holds G s) :
    Holds G (State.readMap s ag c z).2 := by
  unfold State.readMap
  split
  · split
    · exact Holds.of_triple (by assumption) (State.load_holds hs)
  · exact hs

theorem State.searchBucket_holds [ClosedRegs G] [ClosedCel G] [ClosedLoft G] {s ag c slot b key visited} (hs : Holds G s) :
    Holds G (State.searchBucket s ag c slot b key visited).2 := by
  unfold State.searchBucket
  split
  · exact Holds.of_triple (by assumption) (State.load_holds hs)
  · exact Holds.of_triple (by assumption) (State.load_holds hs)

theorem State.search_holds [ClosedRegs G] [ClosedCel G] [ClosedLoft G] {s ag c slot key a5 a6} (hs : Holds G s) :
    Holds G (State.search s ag c slot key a5 a6).2 := by
  induction a5 generalizing s ag c slot key a6 with
  | zero =>
    unfold State.search
    exact hs
  | succ k ih =>
    unfold State.search
    split
    · exact Holds.of_pair (by assumption) (State.searchBucket_holds hs)
    · exact ih (Holds.of_pair (by assumption) (State.searchBucket_holds hs))

theorem State.setFailed_holds [ClosedFree G] {s outcome} (hs : Holds G s) :
    Holds G (State.setFailed s outcome).2 := by
  unfold State.setFailed
  split
  · exact Holds.of_pair (by assumption) (State.draw_holds hs)

theorem State.writeEntry_holds [ClosedRegs G] [ClosedMem G] [ClosedCel G] [ClosedLoft G] {s ag c slot key x} (hs : Holds G s) :
    Holds G (State.writeEntry s ag c slot key x).2 := by
  unfold State.writeEntry
  exact State.store_holds hs

theorem State.putEntry_holds [ClosedMem G] [ClosedCel G] {s ag c slot key x} (hs : Holds G s) :
    Holds G (State.putEntry s ag c slot key x) := by
  unfold State.putEntry
  exact State.storeBack_holds hs

theorem State.setApply_holds [ClosedRegs G] [ClosedMem G] [ClosedCel G] [ClosedLoft G] {s ag c slot op key node} (hs : Holds G s) :
    Holds G (State.setApply s ag c slot op key node).2 := by
  unfold State.setApply
  extract_lets done write
  have hw : ∀ t v x, Holds G t → Holds G (write t v x).2 := fun t v x h => State.putEntry_holds h
  clear_value done write
  split
  · exact Holds.of_pair (by assumption) (State.search_holds hs)
  · exact Holds.of_pair (by assumption) (State.search_holds hs)
  · rename_i h1
    have h := Holds.of_pair h1 (State.search_holds hs)
    split
    · exact h
    · split
      · exact h
      · split
        · exact hw _ _ _ h
        · exact h
  · rename_i h1
    have h := Holds.of_pair h1 (State.search_holds hs)
    split
    · exact hw _ _ _ h
    · exact h

theorem State.sendLookup_holds [ClosedRegs G] [ClosedGts G] {s type part dst tag payload} (hs : Holds G s) :
    Holds G (State.sendLookup s type part dst tag payload) := by
  unfold State.sendLookup
  exact State.sendTo_holds hs

theorem State.newTag_holds [ClosedGts G] {s} (hs : Holds G s) :
    Holds G (State.newTag s).2 := by
  unfold State.newTag
  extract_lets
  exact Holds.gts hs

theorem State.finishOp_holds [ClosedFlock G] {s e c t i v} (hs : Holds G s) :
    Holds G (State.finishOp s e c t i v) := by
  unfold State.finishOp
  split
  · exact hs
  · extract_lets
    exact State.setThread_holds hs

theorem State.countSeen_holds [ClosedRegs G] {s e outcome} (hs : Holds G s) :
    Holds G (State.countSeen s e outcome) := by
  unfold State.countSeen
  split
  · exact State.bump_holds hs
  · exact State.bump_holds hs
  · exact State.bump_holds hs
  · exact State.bump_holds hs
  · exact State.bump_holds hs
  · exact State.bump_holds hs

theorem State.finishSet_holds [ClosedRegs G] [ClosedFlock G] {s e c t i v} (hs : Holds G s) :
    Holds G (State.finishSet s e c t i v) := by
  unfold State.finishSet
  extract_lets t1
  have ht1 : Holds G t1 := by
    unfold t1
    split
    · split
      · exact State.countSeen_holds hs
      · exact hs
    · exact hs
  clear_value t1
  exact State.finishOp_holds ht1

theorem State.failSet_holds [ClosedRegs G] [ClosedFree G] [ClosedFlock G] {s e c t i outcome} (hs : Holds G s) :
    Holds G (State.failSet s e c t i outcome) := by
  unfold State.failSet
  split
  · exact State.finishSet_holds (Holds.of_pair (by assumption) (State.setFailed_holds hs))

theorem State.failGet_holds [ClosedFlock G] {s e c t i} (hs : Holds G s) :
    Holds G (State.failGet s e c t i) := by
  unfold State.failGet
  exact State.finishOp_holds hs

theorem State.replicate_holds [ClosedRegs G] [ClosedGts G] {s set part key requester reqTag c loc d} (hs : Holds G s) :
    Holds G (State.replicate s set part key requester reqTag c loc d).2 := by
  unfold State.replicate
  split
  · exact hs
  · extract_lets
    split
    · exact hs
    · split
      · extract_lets _ t1
        have ht1 : Holds G t1 := Holds.gts (Holds.of_pair (by assumption) (State.newTag_holds hs))
        clear_value t1
        exact State.sendLookup_holds ht1

theorem State.answerSet_holds [ClosedRegs G] [ClosedGts G] {s dst part tag v stale} (hs : Holds G s) :
    Holds G (State.answerSet s dst part tag v stale) := by
  unfold State.answerSet
  exact State.sendLookup_holds hs

theorem State.serveSet_holds [ClosedRegs G] [ClosedMem G] [ClosedFree G] [ClosedCel G] [ClosedLoft G] [ClosedGts G] {s h op set key node} (hs : Holds G s) :
    Holds G (State.serveSet s h op set key node) := by
  unfold State.serveSet
  extract_lets c z old answer doubt
  have ha : ∀ t v b, Holds G t → Holds G (answer t v b) := fun t v b h => State.answerSet_holds h
  have hd : ∀ t b, Holds G t → Holds G (doubt t b) := by
    intro t b h
    unfold doubt
    split
    exact ha _ _ _ (Holds.of_pair (by assumption) (State.setFailed_holds h))
  clear_value answer doubt
  refine Holds.ite (hd _ _ hs) ?_
  split
  · rename_i h1
    have h := Holds.of_pair h1 (State.readMap_holds hs)
    refine Holds.ite (hd _ _ h) (Holds.ite (hd _ _ h) ?_)
    split
    rename_i h2
    have h' := Holds.of_pair h2 (State.setApply_holds h)
    refine Holds.ite (hd _ _ h') ?_
    split
    · exact Holds.of_pair (by assumption) (State.replicate_holds h')
    · exact ha _ _ _ (Holds.of_pair (by assumption) (State.replicate_holds h'))
  · exact hd _ _ (Holds.of_pair (by assumption) (State.readMap_holds hs))

end Sys2Proof.Machine
end

