-- ==== Sys2Proof/Laws/Opcodes.lean ====
section
/-! SUPPORT. Laws/Opcodes.lean: what the functions of Machine/Opcodes.lean can change (Laws/Closure.lean). -/

namespace Sys2Proof.Machine

variable {G : State → Prop}

theorem execMemRead_holds [ClosedRegs G] [ClosedHost G] [ClosedCel G] [ClosedLoft G] [ClosedClient G] {ring index s} (hs : Holds G s) :
    HoldsOut G (execMemRead ring index s) := by
  unfold execMemRead
  refine HoldsOut.next ?_
  split
  · exact hs
  · extract_lets
    refine Holds.ite (State.complete_holds hs) ?_
    split
    · exact State.complete_holds (State.dataOut_holds (Holds.of_triple (by assumption) (State.load_holds hs)))
    · exact State.complete_holds (Holds.of_triple (by assumption) (State.load_holds hs))

theorem execMemWrite_holds [ClosedRegs G] [ClosedMem G] [ClosedHost G] [ClosedCel G] [ClosedLoft G] [ClosedClient G] {ring index s} (hs : Holds G s) :
    HoldsOut G (execMemWrite ring index s) := by
  unfold execMemWrite
  refine HoldsOut.next ?_
  split
  · exact hs
  · extract_lets
    refine Holds.ite (State.complete_holds hs) ?_
    split
    · exact State.complete_holds (Holds.of_pair (by assumption) (State.store_holds hs))
    · exact State.complete_holds (Holds.of_pair (by assumption) (State.store_holds hs))

theorem State.setStage_holds [ClosedStage G] {s x} (hs : Holds G s) :
    Holds G (State.setStage s x) := by
  unfold State.setStage
  exact Holds.stage hs

theorem execImageLoadProgram_holds [ClosedRegs G] [ClosedMem G] [ClosedHost G] [ClosedCel G] [ClosedLoft G] [ClosedClient G] [ClosedStage G] {ring index s} (hs : Holds G s) :
    HoldsOut G (execImageLoadProgram ring index s) := by
  unfold execImageLoadProgram
  refine HoldsOut.next ?_
  split
  · exact hs
  · split
    · exact State.complete_holds hs
    · split
      · exact State.complete_holds (Holds.of_pair (by assumption) (State.stageImage_holds hs))

theorem execImageLoadWeights_holds [ClosedRegs G] [ClosedMem G] [ClosedHost G] [ClosedCel G] [ClosedLoft G] [ClosedClient G] [ClosedStage G] {ring index s} (hs : Holds G s) :
    HoldsOut G (execImageLoadWeights ring index s) := by
  unfold execImageLoadWeights
  refine HoldsOut.next ?_
  split
  · exact hs
  · refine Holds.ite (State.complete_holds hs) ?_
    split
    · exact State.complete_holds (Holds.of_pair (by assumption) (State.stageWeights_holds hs))

theorem State.stageRef_holds [ClosedStage G] {s x} (hs : Holds G s) :
    Holds G (State.stageRef s x) := by
  unfold State.stageRef
  extract_lets
  exact State.setStage_holds hs

theorem execImageLoadReference_holds [ClosedRegs G] [ClosedMem G] [ClosedHost G] [ClosedCel G] [ClosedLoft G] [ClosedClient G] [ClosedStage G] {ring index cost s} (hs : Holds G s) :
    HoldsOut G (execImageLoadReference ring index cost s) := by
  unfold execImageLoadReference
  refine HoldsOut.next ?_
  split
  · exact hs
  · extract_lets
    refine Holds.ite (State.complete_holds hs) ?_
    split
    · extract_lets t1
      have ht1 : Holds G t1 := by
        unfold t1
        split
        · exact State.stageRef_holds (Holds.of_pair (by assumption) (State.storeAll_holds hs))
        · exact State.stageRef_holds (Holds.of_pair (by assumption) (State.storeAll_holds hs))
        · exact Holds.of_pair (by assumption) (State.storeAll_holds hs)
      clear_value t1
      exact Holds.ite (State.complete_holds (Holds.of_pair (by assumption) (State.storeAll_holds hs))) (State.complete_holds ht1)

theorem execSeqWrite_holds [ClosedHost G] [ClosedClient G] [ClosedStage G] {ring index s} (hs : Holds G s) :
    HoldsOut G (execSeqWrite ring index s) := by
  unfold execSeqWrite
  refine HoldsOut.next ?_
  split
  · exact hs
  · extract_lets
    exact State.complete_holds (State.setStage_holds hs)

theorem execLpipeTable_holds [ClosedRegs G] [ClosedHost G] [ClosedClient G] [ClosedStage G] {ring index s} (hs : Holds G s) :
    HoldsOut G (execLpipeTable ring index s) := by
  unfold execLpipeTable
  refine HoldsOut.next ?_
  split
  · exact hs
  · extract_lets _ _ t1 _ _ _
    have ht1 : Holds G t1 := State.withStage_holds hs
    clear_value t1
    exact Holds.ite (State.complete_holds hs) (State.complete_holds (State.setStage_holds hs))

theorem State.mapsRead_holds [ClosedRegs G] [ClosedCel G] [ClosedLoft G] {s a1} (hs : Holds G s) :
    Holds G (State.mapsRead s a1).2 := by
  induction a1 generalizing s with
  | nil =>
    unfold State.mapsRead
    exact hs
  | cons x xs ih =>
    unfold State.mapsRead
    split
    · exact ih hs
    · split
      · exact ih (Holds.of_triple (by assumption) (State.load_holds hs))
      · exact Holds.of_triple (by assumption) (State.load_holds hs)

theorem State.loading_holds [ClosedRegs G] [ClosedHost G] [ClosedCel G] [ClosedLoft G] [ClosedClient G] {s d f} (hs : Holds G s) (hf : ∀ y0 y1, Holds G y0 → Holds G (f y0 y1)) :
    Holds G (State.loading s d f) := by
  unfold State.loading
  extract_lets
  split
  · exact Holds.ite (State.complete_holds (Holds.of_pair (by assumption) (State.mapsRead_holds hs))) (hf _ _ (Holds.of_pair (by assumption) (State.mapsRead_holds hs)))
  · exact State.complete_holds (Holds.of_pair (by assumption) (State.mapsRead_holds hs))
  · exact State.complete_holds (Holds.of_pair (by assumption) (State.mapsRead_holds hs))

theorem State.zeroPiece_holds [ClosedRegs G] [ClosedMem G] [ClosedCel G] [ClosedLoft G] {s a n} (hs : Holds G s) :
    Holds G (State.zeroPiece s a n).2 := by
  unfold State.zeroPiece
  split
  · exact hs
  · extract_lets
    split
    · exact State.hardFault_holds hs
    · exact Holds.mem_cel (fun h => Memory.filter_wf _ h) hs

theorem State.zeroRange_holds [ClosedRegs G] [ClosedMem G] [ClosedCel G] [ClosedLoft G] {s a n} (hs : Holds G s) :
    Holds G (State.zeroRange s a n).2 := by
  unfold State.zeroRange
  refine Holds.foldl_snd hs ?_
  intro y1 y2 h1
  extract_lets _ _ t1
  have ht1 : Holds G t1.2 := State.zeroPiece_holds h1
  clear_value t1
  exact ht1

theorem State.reloaded_holds [ClosedCel G] {s a n} (hs : Holds G s) :
    Holds G (State.reloaded s a n) := by
  unfold State.reloaded
  extract_lets
  exact Holds.cel hs

theorem execSetLoadRaw_holds [ClosedRegs G] [ClosedMem G] [ClosedHost G] [ClosedCel G] [ClosedLoft G] [ClosedClient G] {ring index s} (hs : Holds G s) :
    HoldsOut G (execSetLoadRaw ring index s) := by
  unfold execSetLoadRaw
  refine HoldsOut.next ?_
  split
  · exact hs
  · refine State.loading_holds hs ?_
    intro y1 y2 h1
    extract_lets
    refine Holds.ite (State.complete_holds h1) ?_
    split
    · exact State.complete_holds (State.reloaded_holds (Holds.of_pair (by assumption) (State.store_holds h1)))
    · exact State.complete_holds (Holds.of_pair (by assumption) (State.store_holds h1))

theorem State.loadEntry_holds [ClosedRegs G] [ClosedMem G] [ClosedCel G] [ClosedLoft G] {s c e} (hs : Holds G s) :
    Holds G (State.loadEntry s c e).2 := by
  unfold State.loadEntry
  extract_lets
  split
  · extract_lets
    split
    · exact Holds.of_pair (by assumption) (State.readMap_holds hs)
    · split
      · exact Holds.of_pair (by assumption) (State.search_holds (Holds.of_pair (by assumption) (State.readMap_holds hs)))
      · exact Holds.of_pair (by assumption) (State.search_holds (Holds.of_pair (by assumption) (State.readMap_holds hs)))
      · exact Holds.of_pair (by assumption) (State.search_holds (Holds.of_pair (by assumption) (State.readMap_holds hs)))
      · exact State.putEntry_holds (Holds.of_pair (by assumption) (State.search_holds (Holds.of_pair (by assumption) (State.readMap_holds hs))))
  · exact Holds.of_pair (by assumption) (State.readMap_holds hs)

theorem State.loadEntries_holds [ClosedRegs G] [ClosedMem G] [ClosedCel G] [ClosedLoft G] {s c a2 a3 a4} (hs : Holds G s) :
    Holds G (State.loadEntries s c a2 a3 a4).2.2 := by
  induction a4 generalizing s c a2 a3 with
  | nil =>
    unfold State.loadEntries
    exact hs
  | cons x xs ih =>
    unfold State.loadEntries
    split
    · exact ih (Holds.of_pair (by assumption) (State.loadEntry_holds hs))
    · exact ih (Holds.of_pair (by assumption) (State.loadEntry_holds hs))
    · exact Holds.of_pair (by assumption) (State.loadEntry_holds hs)

theorem execSetLoadEntries_holds [ClosedRegs G] [ClosedMem G] [ClosedHost G] [ClosedCel G] [ClosedLoft G] [ClosedClient G] {ring index s} (hs : Holds G s) :
    HoldsOut G (execSetLoadEntries ring index s) := by
  unfold execSetLoadEntries
  refine HoldsOut.next ?_
  split
  · exact hs
  · refine State.loading_holds hs ?_
    intro y1 y2 h1
    refine Holds.ite (State.complete_holds h1) ?_
    split
    · exact State.complete_holds (Holds.of_triple (by assumption) (State.loadEntries_holds h1))

theorem State.clearCopies_holds [ClosedRegs G] [ClosedMem G] [ClosedCel G] [ClosedLoft G] {s rs} (hs : Holds G s) :
    Holds G (State.clearCopies s rs).2 := by
  unfold State.clearCopies
  refine Holds.foldl_snd hs ?_
  intro y1 y2 h1
  split
  · exact Holds.ite (State.reloaded_holds (Holds.of_pair (by assumption) (State.zeroRange_holds h1))) (Holds.of_pair (by assumption) (State.zeroRange_holds h1))

theorem execSetLoadClear_holds [ClosedRegs G] [ClosedMem G] [ClosedHost G] [ClosedCel G] [ClosedLoft G] [ClosedClient G] {ring index s} (hs : Holds G s) :
    HoldsOut G (execSetLoadClear ring index s) := by
  unfold execSetLoadClear
  refine HoldsOut.next ?_
  split
  · exact hs
  · refine State.loading_holds hs ?_
    intro y1 y2 h1
    refine Holds.ite (State.complete_holds h1) ?_
    split
    · exact State.complete_holds (Holds.of_pair (by assumption) (State.clearCopies_holds h1))

theorem State.camSend_holds [ClosedCams G] [ClosedClient G] {s c d read} (hs : Holds G s) :
    Holds G (State.camSend s c d read) := by
  unfold State.camSend
  extract_lets
  exact State.setCam_holds (Holds.client hs)

theorem execCamRegRead_holds [ClosedHost G] [ClosedCams G] [ClosedClient G] {ring index s} (hs : Holds G s) :
    HoldsOut G (execCamRegRead ring index s) := by
  unfold execCamRegRead
  refine HoldsOut.next ?_
  split
  · exact hs
  · extract_lets
    exact Holds.ite (State.complete_holds hs) (Holds.ite hs (State.camSend_holds hs))

theorem execCamRegWrite_holds [ClosedHost G] [ClosedCams G] [ClosedClient G] {ring index s} (hs : Holds G s) :
    HoldsOut G (execCamRegWrite ring index s) := by
  unfold execCamRegWrite
  refine HoldsOut.next ?_
  split
  · exact hs
  · extract_lets
    exact Holds.ite (State.complete_holds hs) (Holds.ite (State.complete_holds hs) (Holds.ite hs (State.camSend_holds hs)))

theorem State.stageJob_holds [ClosedHost G] [ClosedClient G] [ClosedStage G] {s d a admits} (hs : Holds G s) :
    Holds G (State.stageJob s d a admits) := by
  unfold State.stageJob
  extract_lets
  exact Holds.ite (State.complete_holds hs) (State.complete_holds (State.setStage_holds hs))

theorem execJobStart_holds [ClosedHost G] [ClosedClient G] [ClosedStage G] {ring index s} (hs : Holds G s) :
    HoldsOut G (execJobStart ring index s) := by
  unfold execJobStart
  refine HoldsOut.next ?_
  split
  · exact hs
  · exact State.stageJob_holds hs

theorem execJobStop_holds [ClosedHost G] [ClosedClient G] [ClosedStage G] {ring index s} (hs : Holds G s) :
    HoldsOut G (execJobStop ring index s) := by
  unfold execJobStop
  refine HoldsOut.next ?_
  split
  · exact hs
  · exact State.stageJob_holds hs

theorem execSoWait_holds [ClosedRegs G] [ClosedLarder G] [ClosedHost G] [ClosedFree G] [ClosedSeq G] [ClosedLoft G] [ClosedClient G] [ClosedCores G] [ClosedLists G] [ClosedJobs G] [ClosedPtns G] [ClosedFlock G] [ClosedAdp G] [ClosedSync G] {ring index s} (hs : Holds G s) :
    HoldsOut G (execSoWait ring index s) := by
  unfold execSoWait
  refine HoldsOut.next ?_
  split
  · exact hs
  · extract_lets t1 _ _ _
    have ht1 : Holds G t1 := State.expireDue_holds hs
    clear_value t1
    exact Holds.ite (State.complete_holds ht1) (State.settle_holds (State.arriveWait_holds (Holds.client ht1)))

theorem execSoSignal_holds [ClosedRegs G] [ClosedLarder G] [ClosedHost G] [ClosedFree G] [ClosedSeq G] [ClosedLoft G] [ClosedClient G] [ClosedCores G] [ClosedLists G] [ClosedJobs G] [ClosedPtns G] [ClosedFlock G] [ClosedAdp G] [ClosedSync G] {ring index s} (hs : Holds G s) :
    HoldsOut G (execSoSignal ring index s) := by
  unfold execSoSignal
  refine HoldsOut.next ?_
  split
  · exact hs
  · extract_lets t1 _ _
    have ht1 : Holds G t1 := State.expireDue_holds hs
    clear_value t1
    exact Holds.ite (State.complete_holds ht1) (State.complete_holds (State.settle_holds (State.signal_holds ht1)))

theorem execNetSet_holds [ClosedHost G] [ClosedClient G] [ClosedStage G] {ring index s} (hs : Holds G s) :
    HoldsOut G (execNetSet ring index s) := by
  unfold execNetSet
  refine HoldsOut.next ?_
  split
  · exact hs
  · extract_lets
    exact State.complete_holds (State.setStage_holds hs)

theorem execAllowLoad_holds [ClosedHost G] [ClosedClient G] [ClosedStage G] {ring index s} (hs : Holds G s) :
    HoldsOut G (execAllowLoad ring index s) := by
  unfold execAllowLoad
  refine HoldsOut.next ?_
  split
  · exact hs
  · extract_lets
    exact State.complete_holds (State.setStage_holds hs)

end Sys2Proof.Machine
end

