-- ==== Sys2Proof/Laws/Power.lean ====
section
/-! SUPPORT. Laws/Power.lean: what the functions of Machine/Power.lean can change (Laws/Closure.lean). -/

namespace Sys2Proof.Machine

variable {G : State → Prop}

theorem State.setQuad_holds [ClosedRegs G] {s q v} (hs : Holds G s) :
    Holds G (State.setQuad s q v) := by
  unfold State.setQuad
  exact State.put_holds hs

theorem State.wakeQuad_holds [ClosedRegs G] [ClosedClk G] {s q ns} (hs : Holds G s) :
    Holds G (State.wakeQuad s q ns) := by
  unfold State.wakeQuad
  extract_lets
  exact State.setQuad_holds (Holds.clk hs)

theorem execQuadSleep_holds [ClosedRegs G] {quad s} (hs : Holds G s) :
    HoldsOut G (execQuadSleep quad s) := by
  unfold execQuadSleep
  extract_lets
  refine HoldsOut.next ?_
  refine Holds.ite hs ?_
  refine Holds.ite (State.setQuad_holds hs) ?_
  split
  · exact Holds.ite (State.setQuad_holds hs) hs
  · exact hs

theorem execQuadWake_holds [ClosedRegs G] [ClosedClk G] {quad s} (hs : Holds G s) :
    HoldsOut G (execQuadWake quad s) := by
  unfold execQuadWake
  extract_lets
  refine HoldsOut.next ?_
  refine Holds.ite hs ?_
  refine Holds.ite ?_ (Holds.ite (State.wakeQuad_holds hs) hs)
  split
  · exact Holds.ite (State.wakeQuad_holds hs) hs
  · exact State.wakeQuad_holds hs

theorem execQuadDeepEnter_holds [ClosedRegs G] [ClosedLarder G] [ClosedCores G] {quad s} (hs : Holds G s) :
    HoldsOut G (execQuadDeepEnter quad s) := by
  unfold execQuadDeepEnter
  extract_lets
  refine HoldsOut.next ?_
  refine Holds.ite hs ?_
  refine Holds.foldl (State.setQuad_holds hs) ?_
  intro y1 y2 h1
  extract_lets
  exact State.setCore_holds (State.larderZero_holds h1)

theorem State.deepCommit_holds [ClosedRegs G] [ClosedLarder G] [ClosedCores G] [ClosedClk G] {s} (hs : Holds G s) :
    Holds G (State.deepCommit s) := by
  unfold State.deepCommit
  exact Holds.foldl hs (fun y1 y2 h1 => Holds.ite (Holds.foldl (State.wakeQuad_holds h1) (fun y3 y4 h2 => Holds.ite (State.put_holds (State.larderZero_holds h2)) h2)) h1)

theorem execLarderFillDone_holds [ClosedRegs G] {core s} (hs : Holds G s) :
    HoldsOut G (execLarderFillDone core s) := by
  unfold execLarderFillDone
  extract_lets
  exact HoldsOut.next (Holds.ite (State.put_holds hs) hs)

theorem State.setFreq_holds [ClosedRegs G] [ClosedClk G] {s q mhz} (hs : Holds G s) :
    Holds G (State.setFreq s q mhz) := by
  unfold State.setFreq
  extract_lets
  exact Holds.ite hs (State.showFreqs_holds (Holds.clk hs))

theorem State.allTo800_holds [ClosedRegs G] [ClosedClk G] {s} (hs : Holds G s) :
    Holds G (State.allTo800 s) := by
  unfold State.allTo800
  extract_lets
  exact State.showFreqs_holds (Holds.clk hs)

theorem State.stepDown_holds [ClosedRegs G] [ClosedClk G] {s q} (hs : Holds G s) :
    Holds G (State.stepDown s q) := by
  unfold State.stepDown
  extract_lets
  exact Holds.ite (State.setFreq_holds hs) hs

theorem State.govern_holds [ClosedRegs G] [ClosedClk G] {s p predicted} (hs : Holds G s) :
    Holds G (State.govern s p predicted) := by
  unfold State.govern
  extract_lets
  refine Holds.ite (State.allTo800_holds hs) ?_
  refine Holds.ite (Holds.foldl hs (fun y1 y2 h1 => State.stepDown_holds h1)) ?_
  refine Holds.ite (Holds.foldl hs (fun y3 y4 h2 => State.setFreq_holds h2)) ?_
  refine Holds.ite ?_ ?_
  · split
    · exact State.setFreq_holds hs
    · exact State.latch_holds hs
  · refine Holds.ite ?_ hs
    split
    · exact State.setFreq_holds hs
    · exact hs

theorem execGovernorTick_holds [ClosedRegs G] [ClosedClk G] {estimate mean predicted s} (hs : Holds G s) :
    HoldsOut G (execGovernorTick estimate mean predicted s) := by
  unfold execGovernorTick
  extract_lets t1 _ _ t2
  have ht1 : Holds G t1 := State.put_holds hs
  have ht2 : Holds G t2 := Holds.clk ht1
  clear_value t1 t2
  exact HoldsOut.next (Holds.ite hs (State.govern_holds (State.put64_holds ht2)))

theorem State.freqCommit_holds [ClosedRegs G] [ClosedClk G] {s} (hs : Holds G s) :
    Holds G (State.freqCommit s) := by
  unfold State.freqCommit
  extract_lets
  exact State.showFreqs_holds (Holds.clk hs)

theorem execVrAlert_holds [ClosedRegs G] [ClosedLink G] [ClosedLoft G] [ClosedClk G] {status latched s} (hs : Holds G s) :
    HoldsOut G (execVrAlert status latched s) := by
  unfold execVrAlert
  refine HoldsOut.next ?_
  refine State.onRails_holds hs ?_
  intro y1 h1
  extract_lets _ t1 t2 t3
  have ht1 : Holds G t1 := Holds.clk h1
  have ht2 : Holds G t2 := State.bump_holds (State.raise_holds (State.latch_holds (State.allTo800_holds ht1)))
  have ht3 : Holds G t3 := State.loftEvent_holds ht2
  clear_value t1 t2 t3
  exact Holds.ite ht1 (Holds.ite (State.lineStop_holds (State.latch_holds ht3)) ht3)

theorem execVrAlertDeassert_holds [ClosedRegs G] [ClosedClk G] {s} (hs : Holds G s) :
    HoldsOut G (execVrAlertDeassert s) := by
  unfold execVrAlertDeassert
  extract_lets
  exact HoldsOut.next (State.drop_holds (Holds.clk hs))

theorem State.sense_holds [ClosedRegs G] [ClosedClk G] {s k t} (hs : Holds G s) :
    Holds G (State.sense s k t) := by
  unfold State.sense
  extract_lets _ t1 t2 _
  have ht1 : Holds G t1 := State.put_holds hs
  have ht2 : Holds G t2 := Holds.ite (State.put_holds ht1) ht1
  clear_value t1 t2
  split
  · extract_lets
    exact Holds.clk ht2

theorem State.forced800_holds [ClosedRegs G] [ClosedClk G] {s} (hs : Holds G s) :
    Holds G (State.forced800 s) := by
  unfold State.forced800
  exact Holds.ite (State.allTo800_holds hs) hs

theorem execThermalSample_holds [ClosedRegs G] [ClosedLink G] [ClosedLoft G] [ClosedClk G] {temps s} (hs : Holds G s) :
    HoldsOut G (execThermalSample temps s) := by
  unfold execThermalSample
  refine HoldsOut.next ?_
  refine State.onRails_holds hs ?_
  intro y1 h1
  extract_lets t1 t2
  have ht1 : Holds G t1 := Holds.foldl h1 (fun y2 y3 h2 => State.sense_holds h2)
  have ht2 : Holds G t2 := State.putFlag_holds ht1
  clear_value t1 t2
  exact Holds.ite (State.lineStop_holds (State.forced800_holds (State.latch_holds ht2))) ht2

end Sys2Proof.Machine
end

