-- ==== Sys2Proof/Laws/Rings.lean ====
section
/-! SUPPORT. Laws/Rings.lean: what the functions of Machine/Rings.lean can change (Laws/Closure.lean). -/

namespace Sys2Proof.Machine

variable {G : State → Prop}

theorem State.ringEnable_holds [ClosedRegs G] [ClosedHost G] [ClosedClient G] {s n} (hs : Holds G s) :
    Holds G (State.ringEnable s n) := by
  unfold State.ringEnable
  extract_lets
  exact Holds.ite (State.raise_holds (State.writeIndex_holds (State.setRing_holds hs))) (State.latch_holds (State.drop_holds hs))

theorem State.ringDisable_holds [ClosedRegs G] [ClosedHost G] [ClosedClient G] {s n discard} (hs : Holds G s) :
    Holds G (State.ringDisable s n discard) := by
  unfold State.ringDisable
  extract_lets t1 _ t2
  have ht1 : Holds G t1 := State.drop_holds hs
  have ht2 : Holds G t2 := Holds.client ht1
  clear_value t1 t2
  split
  · exact ht1
  · extract_lets t3
    have ht3 : Holds G t3 := State.setRing_holds ht2
    clear_value t3
    exact Holds.ite ht1 (Holds.ite (State.withdraw_holds ht3) (Holds.ite ht3 (Holds.foldl ht3 (fun y1 y2 h1 => State.complete_holds h1))))

theorem State.ringCfgWrite_holds [ClosedRegs G] [ClosedHost G] [ClosedClient G] {s n v} (hs : Holds G s) :
    Holds G (State.ringCfgWrite s n v) := by
  unfold State.ringCfgWrite
  extract_lets _ t1
  have ht1 : Holds G t1 := State.put_holds (State.put_holds (State.put_holds hs))
  clear_value t1
  exact Holds.ite (State.ringEnable_holds ht1) (Holds.ite (State.ringDisable_holds ht1) ht1)

theorem State.ringCfgFrom_holds [ClosedRegs G] [ClosedHost G] [ClosedClient G] {s via n v} (hs : Holds G s) :
    Holds G (State.ringCfgFrom s via n v) := by
  unfold State.ringCfgFrom
  exact Holds.ite (State.ringCfgWrite_holds hs) (State.accessErr_holds hs)

theorem execRingEnable_holds [ClosedRegs G] [ClosedHost G] [ClosedClient G] {ring via fields s} (hs : Holds G s) :
    HoldsOut G (execRingEnable ring via fields s) := by
  unfold execRingEnable
  exact HoldsOut.next (State.written_holds hs (fun y1 h1 => State.ringCfgFrom_holds h1))

theorem execRingDisable_holds [ClosedRegs G] [ClosedHost G] [ClosedClient G] {ring via fields s} (hs : Holds G s) :
    HoldsOut G (execRingDisable ring via fields s) := by
  unfold execRingDisable
  exact HoldsOut.next (State.written_holds hs (fun y1 h1 => State.ringCfgFrom_holds h1))

theorem State.fetchAll_holds [ClosedHost G] [ClosedClient G] {s n r} (hs : Holds G s) :
    Holds G (State.fetchAll s n r) := by
  unfold State.fetchAll
  extract_lets
  exact State.setRing_holds (State.writeIndex_holds hs)

theorem State.halt_holds [ClosedRegs G] [ClosedHost G] [ClosedClient G] {s n r} (hs : Holds G s) :
    Holds G (State.halt s n r) := by
  unfold State.halt
  exact State.noticeHalted_holds (State.setRing_holds (State.latch_holds hs))

theorem State.consume_holds [ClosedRegs G] [ClosedHost G] [ClosedClient G] {s n r v} (hs : Holds G s) :
    Holds G (State.consume s n r v) := by
  unfold State.consume
  exact Holds.ite (State.latch_holds hs) (State.payOwed_holds (State.setRing_holds hs))

theorem State.doorbellOn_holds [ClosedRegs G] [ClosedHost G] [ClosedClient G] {s n r v} (hs : Holds G s) :
    Holds G (State.doorbellOn s n r v) := by
  unfold State.doorbellOn
  extract_lets
  exact Holds.ite (Holds.ite (State.halt_holds hs) (Holds.ite (State.setRing_holds hs) (State.fetchAll_holds hs))) (State.consume_holds hs)

theorem State.doorbell_holds [ClosedRegs G] [ClosedHost G] [ClosedClient G] {s n v} (hs : Holds G s) :
    Holds G (State.doorbell s n v) := by
  unfold State.doorbell
  split
  · exact Holds.ite (State.doorbellOn_holds hs) (State.latch_holds hs)
  · exact State.latch_holds hs

theorem execDoorbell_holds [ClosedRegs G] [ClosedHost G] [ClosedClient G] {ring value s} (hs : Holds G s) :
    HoldsOut G (execDoorbell ring value s) := by
  unfold execDoorbell
  exact HoldsOut.next (State.written_holds hs (fun y1 h1 => State.doorbell_holds h1))

theorem execDescriptorStart_holds [ClosedHost G] [ClosedClient G] {ring s} (hs : Holds G s) :
    HoldsOut G (execDescriptorStart ring s) := by
  unfold execDescriptorStart
  extract_lets
  refine HoldsOut.next ?_
  split
  · exact hs
  · split
    · exact hs
    · extract_lets _ t1 _ t2 _ _
      have ht1 : Holds G t1 := State.setRing_holds hs
      have ht2 : Holds G t2 := Holds.client ht1
      clear_value t1 t2
      refine Holds.ite hs ?_
      split
      · exact State.complete_holds ht2
      · exact Holds.client ht2

theorem State.drawBytes_holds [ClosedFree G] {s} (hs : Holds G s) :
    Holds G (State.drawBytes s).2 := by
  unfold State.drawBytes
  refine Holds.foldl_snd hs ?_
  intro y1 y2 h1
  split
  · exact Holds.of_pair (by assumption) (State.draw_holds h1)

theorem State.fetchFails_holds [ClosedFree G] [ClosedClient G] {s n index} (hs : Holds G s) :
    Holds G (State.fetchFails s n index) := by
  unfold State.fetchFails
  split
  · exact hs
  · extract_lets
    refine Holds.ite hs ?_
    split
    · exact State.setRing_holds (Holds.of_pair (by assumption) (State.drawBytes_holds hs))

theorem execHostReadTimeout_holds [ClosedHost G] [ClosedFree G] [ClosedClient G] {ring index s} (hs : Holds G s) :
    HoldsOut G (execHostReadTimeout ring index s) := by
  unfold execHostReadTimeout
  refine HoldsOut.next ?_
  split
  · exact State.fetchFails_holds hs
  · exact State.complete_holds hs

theorem execNopOpcode_holds [ClosedHost G] [ClosedClient G] {ring index s} (hs : Holds G s) :
    HoldsOut G (execNopOpcode ring index s) := by
  unfold execNopOpcode
  refine HoldsOut.next ?_
  split
  · exact hs
  · exact State.complete_holds hs

theorem execIrqHoldoffEnd_holds [ClosedClient G] {ring s} (hs : Holds G s) :
    HoldsOut G (execIrqHoldoffEnd ring s) := by
  unfold execIrqHoldoffEnd
  refine HoldsOut.next ?_
  split
  · exact hs
  · exact Holds.ite (State.raiseIrq_holds hs) hs

theorem execFunctionLevelReset_holds [ClosedRegs G] [ClosedHost G] [ClosedClient G] {s} (hs : Holds G s) :
    HoldsOut G (execFunctionLevelReset s) := by
  unfold execFunctionLevelReset
  extract_lets _ t1 _ _ t2 _
  have ht1 : Holds G t1 := Holds.foldl hs (fun y1 y2 h1 => State.ringDisable_holds h1)
  have ht2 : Holds G t2 := Holds.regs (fun h => sparseWf_filter h) ht1
  clear_value t1 t2
  exact HoldsOut.next (Holds.client ht2)

theorem State.sessionRings_holds [ClosedRegs G] [ClosedHost G] [ClosedClient G] {s k} (hs : Holds G s) :
    Holds G (State.sessionRings s k) := by
  unfold State.sessionRings
  extract_lets
  exact State.ringEnable_holds (State.ringEnable_holds (State.put_holds (State.put_holds (State.put_holds (State.put_holds (State.put_holds (State.put_holds (State.put_holds (State.put_holds (State.put_holds (State.put_holds hs)))))))))))

theorem execSessionOpen_holds [ClosedRegs G] [ClosedHost G] [ClosedClient G] {port key s} (hs : Holds G s) :
    HoldsOut G (execSessionOpen port key s) := by
  unfold execSessionOpen
  extract_lets
  refine HoldsOut.next ?_
  refine Holds.ite hs ?_
  split
  · extract_lets t1
    have ht1 : Holds G t1 := Holds.client hs
    clear_value t1
    exact State.sessionRings_holds ht1
  · exact hs

theorem State.closeSession_holds [ClosedRegs G] [ClosedHost G] [ClosedClient G] {s k} (hs : Holds G s) :
    Holds G (State.closeSession s k) := by
  unfold State.closeSession
  extract_lets _ t1 _
  have ht1 : Holds G t1 := Holds.foldl hs (fun y1 y2 h1 => State.ringDisable_holds h1)
  clear_value t1
  exact Holds.ite hs (Holds.client ht1)

theorem execSessionClose_holds [ClosedRegs G] [ClosedHost G] [ClosedClient G] {session s} (hs : Holds G s) :
    HoldsOut G (execSessionClose session s) := by
  unfold execSessionClose
  exact HoldsOut.next (State.closeSession_holds hs)

theorem execSessionTimeout_holds [ClosedRegs G] [ClosedHost G] [ClosedClient G] {session s} (hs : Holds G s) :
    HoldsOut G (execSessionTimeout session s) := by
  unfold execSessionTimeout
  refine HoldsOut.next ?_
  split
  · exact hs
  · exact Holds.ite (State.closeSession_holds hs) hs

theorem execKeepaliveSend_holds [ClosedClient G] {session s} (hs : Holds G s) :
    HoldsOut G (execKeepaliveSend session s) := by
  unfold execKeepaliveSend
  extract_lets
  refine HoldsOut.next ?_
  split
  · exact hs
  · exact Holds.ite (State.sessionSent_holds hs) hs

theorem State.heard_holds [ClosedClient G] {s k} (hs : Holds G s) :
    Holds G (State.heard s k) := by
  unfold State.heard
  extract_lets
  exact Holds.client hs

theorem execSubmit_holds [ClosedRegs G] [ClosedHost G] [ClosedClient G] {session ring index payload s} (hs : Holds G s) :
    HoldsOut G (execSubmit session ring index payload s) := by
  unfold execSubmit
  extract_lets _ _ t1 _
  have ht1 : Holds G t1 := State.heard_holds hs
  clear_value t1
  refine HoldsOut.next ?_
  refine Holds.ite hs ?_
  split
  · exact State.closeSession_holds ht1
  · extract_lets
    exact Holds.ite (State.closeSession_holds ht1) (Holds.ite (State.noticeDropped_holds ht1) (State.setRing_holds ht1))

theorem execAck_holds [ClosedRegs G] [ClosedHost G] [ClosedClient G] {session ring cons s} (hs : Holds G s) :
    HoldsOut G (execAck session ring cons s) := by
  unfold execAck
  extract_lets _ _ t1
  have ht1 : Holds G t1 := State.heard_holds hs
  clear_value t1
  refine HoldsOut.next ?_
  refine Holds.ite hs ?_
  split
  · exact State.closeSession_holds ht1
  · exact Holds.ite (State.latch_holds ht1) (State.consume_holds ht1)

theorem execKeepalive_holds [ClosedClient G] {session s} (hs : Holds G s) :
    HoldsOut G (execKeepalive session s) := by
  unfold execKeepalive
  exact HoldsOut.next (Holds.ite hs (State.heard_holds hs))

theorem State.portsCommit_holds [ClosedRegs G] [ClosedHost G] [ClosedClient G] {s} (hs : Holds G s) :
    Holds G (State.portsCommit s) := by
  unfold State.portsCommit
  exact Holds.foldl hs (fun y1 y2 h1 => State.closeSession_holds h1)

theorem State.allowCommit_holds [ClosedRegs G] [ClosedHost G] [ClosedClient G] {s} (hs : Holds G s) :
    Holds G (State.allowCommit s) := by
  unfold State.allowCommit
  exact Holds.foldl hs (fun y1 y2 h1 => State.closeSession_holds h1)

end Sys2Proof.Machine
end

