-- ==== Sys2Proof/Laws/Sequencer.lean ====
section
/-! SUPPORT. Laws/Sequencer.lean: what the functions of Machine/Sequencer.lean can change (Laws/Closure.lean). -/

namespace Sys2Proof.Machine

variable {G : State → Prop}

theorem State.slips_holds [ClosedRegs G] {s t} (hs : Holds G s) :
    Holds G (State.slips s t) := by
  unfold State.slips
  extract_lets
  exact Holds.ite hs (State.latch_holds (State.bumpBy_holds hs))

theorem State.firing_holds [ClosedRegs G] [ClosedSeq G] {s t k e} (hs : Holds G s) :
    Holds G (State.firing s t k e) := by
  unfold State.firing
  extract_lets t1 _ t2
  have ht1 : Holds G t1 := Holds.ite (State.setEntry_holds hs) (State.delEntry_holds hs)
  have ht2 : Holds G t2 := Holds.seq ht1
  clear_value t1 t2
  exact State.slips_holds ht2

theorem State.fire_holds [ClosedRegs G] [ClosedLarder G] [ClosedHost G] [ClosedFree G] [ClosedSeq G] [ClosedLoft G] [ClosedClient G] [ClosedCores G] [ClosedLists G] [ClosedJobs G] [ClosedPtns G] [ClosedFlock G] [ClosedAdp G] [ClosedSync G] {s a act} (hs : Holds G s) (hact : ∀ y0 y1, Holds G y0 → Holds G (act y0 y1)) :
    Holds G (State.fire s a act) := by
  unfold State.fire
  split
  · exact hs
  · exact Holds.ite (State.settle_holds (hact _ _ (State.firing_holds hs))) hs

theorem State.closePart_holds [ClosedRegs G] [ClosedMem G] [ClosedCel G] [ClosedSeq G] [ClosedLoft G] [ClosedSdg G] {s i} (hs : Holds G s) :
    Holds G (State.closePart s i) := by
  unfold State.closePart
  extract_lets _ _ t1
  have ht1 : Holds G t1 := State.setPart_holds hs
  clear_value t1
  exact State.sdgEnqueue_holds (State.captureClose_holds ht1)

theorem State.closeAtDecision_holds [ClosedRegs G] [ClosedMem G] [ClosedCel G] [ClosedSeq G] [ClosedLoft G] [ClosedSdg G] {s i} (hs : Holds G s) :
    Holds G (State.closeAtDecision s i) := by
  unfold State.closeAtDecision
  extract_lets _ _ t1
  have ht1 : Holds G t1 := Holds.ite (State.setPart_holds hs) hs
  clear_value t1
  exact State.closePart_holds ht1

theorem State.partClose_holds [ClosedRegs G] [ClosedMem G] [ClosedCel G] [ClosedSeq G] [ClosedLoft G] [ClosedSdg G] {s e} (hs : Holds G s) :
    Holds G (State.partClose s e) := by
  unfold State.partClose
  refine Holds.foldl hs ?_
  intro y1 y2 h1
  split
  · exact State.closePart_holds h1
  · exact State.bump_holds h1

theorem State.startPartList_holds [ClosedLists G] {s i} (hs : Holds G s) :
    Holds G (State.startPartList s i) := by
  unfold State.startPartList
  split
  · exact hs
  · split
    · exact State.setList_holds hs
    · exact hs

theorem State.openLane_holds [ClosedRegs G] [ClosedMem G] [ClosedCel G] [ClosedLp G] [ClosedSeq G] [ClosedLink G] [ClosedLoft G] [ClosedCores G] [ClosedLists G] [ClosedJobs G] [ClosedFlock G] [ClosedSdg G] {s m x} (hs : Holds G s) :
    Holds G (State.openLane s m x) := by
  unfold State.openLane
  extract_lets t1
  have ht1 : Holds G t1 := by
    unfold t1
    split
    · exact State.closePart_holds hs
    · exact hs
  clear_value t1
  refine Holds.ite hs ?_
  split
  · extract_lets _ t2 _ t3 t4
    have ht2 : Holds G t2 := State.put_holds ht1
    have ht3 : Holds G t3 := Holds.ite (State.setReg_holds (Holds.sdg ht2)) ht2
    have ht4 : Holds G t4 := State.setEntry_holds (State.setEntry_holds ht3)
    clear_value t2 t3 t4
    exact State.startPartList_holds (State.measOpen_holds (State.captureTake_holds (State.setPart_holds (State.forget_holds ht4))))
  · exact State.lineStop_holds (State.latch_holds (State.bump_holds ht1))

theorem State.partOpen_holds [ClosedRegs G] [ClosedMem G] [ClosedLarder G] [ClosedHost G] [ClosedFree G] [ClosedCel G] [ClosedLp G] [ClosedSeq G] [ClosedLink G] [ClosedLoft G] [ClosedClient G] [ClosedCores G] [ClosedLists G] [ClosedJobs G] [ClosedPtns G] [ClosedFlock G] [ClosedSdg G] [ClosedSync G] {s e} (hs : Holds G s) :
    Holds G (State.partOpen s e) := by
  unfold State.partOpen
  extract_lets t1
  have ht1 : Holds G t1 := by
    unfold t1
    split
    · exact State.partBoundary_holds hs
    · exact hs
  clear_value t1
  exact Holds.foldl ht1 (fun y1 y2 h1 => State.openLane_holds h1)

theorem execNop_holds [ClosedRegs G] [ClosedLarder G] [ClosedHost G] [ClosedFree G] [ClosedSeq G] [ClosedLoft G] [ClosedClient G] [ClosedCores G] [ClosedLists G] [ClosedJobs G] [ClosedPtns G] [ClosedFlock G] [ClosedAdp G] [ClosedSync G] {s} (hs : Holds G s) :
    HoldsOut G (execNop s) := by
  unfold execNop
  exact HoldsOut.next (State.fire_holds hs (fun y1 y2 h1 => h1))

theorem execPartClose_holds [ClosedRegs G] [ClosedMem G] [ClosedLarder G] [ClosedHost G] [ClosedFree G] [ClosedCel G] [ClosedSeq G] [ClosedLoft G] [ClosedClient G] [ClosedCores G] [ClosedLists G] [ClosedJobs G] [ClosedPtns G] [ClosedFlock G] [ClosedAdp G] [ClosedSdg G] [ClosedSync G] {s} (hs : Holds G s) :
    HoldsOut G (execPartClose s) := by
  unfold execPartClose
  exact HoldsOut.next (State.fire_holds hs (fun y1 y2 h1 => State.partClose_holds h1))

theorem execPartOpen_holds [ClosedRegs G] [ClosedMem G] [ClosedLarder G] [ClosedHost G] [ClosedFree G] [ClosedCel G] [ClosedLp G] [ClosedSeq G] [ClosedLink G] [ClosedLoft G] [ClosedClient G] [ClosedCores G] [ClosedLists G] [ClosedJobs G] [ClosedPtns G] [ClosedFlock G] [ClosedAdp G] [ClosedSdg G] [ClosedSync G] {s} (hs : Holds G s) :
    HoldsOut G (execPartOpen s) := by
  unfold execPartOpen
  exact HoldsOut.next (State.fire_holds hs (fun y1 y2 h1 => State.partOpen_holds h1))

theorem execLineGate_holds [ClosedRegs G] [ClosedMem G] [ClosedLarder G] [ClosedHost G] [ClosedFree G] [ClosedCel G] [ClosedCams G] [ClosedLp G] [ClosedSeq G] [ClosedLink G] [ClosedLoft G] [ClosedGts G] [ClosedClient G] [ClosedCores G] [ClosedLists G] [ClosedJobs G] [ClosedPtns G] [ClosedFlock G] [ClosedAdp G] [ClosedSdg G] [ClosedSync G] {s} (hs : Holds G s) :
    HoldsOut G (execLineGate s) := by
  unfold execLineGate
  exact HoldsOut.next (State.fire_holds hs (fun y1 y2 h1 => Holds.foldl h1 (fun y3 y4 h2 => State.lineGate_holds h2)))

theorem execStripCut_holds [ClosedRegs G] [ClosedMem G] [ClosedLarder G] [ClosedHost G] [ClosedFree G] [ClosedCel G] [ClosedLp G] [ClosedSeq G] [ClosedLoft G] [ClosedGts G] [ClosedClient G] [ClosedCores G] [ClosedLists G] [ClosedJobs G] [ClosedPtns G] [ClosedFlock G] [ClosedAdp G] [ClosedSync G] {s} (hs : Holds G s) :
    HoldsOut G (execStripCut s) := by
  unfold execStripCut
  exact HoldsOut.next (State.fire_holds hs (fun y1 y2 h1 => Holds.foldl h1 (fun y3 y4 h2 => Holds.ite (State.stripCut_holds h2) h2)))

theorem execRoiApply_holds [ClosedRegs G] [ClosedMem G] [ClosedLarder G] [ClosedHost G] [ClosedFree G] [ClosedCel G] [ClosedLp G] [ClosedSeq G] [ClosedLoft G] [ClosedGts G] [ClosedClient G] [ClosedCores G] [ClosedLists G] [ClosedJobs G] [ClosedPtns G] [ClosedFlock G] [ClosedAdp G] [ClosedSync G] {s} (hs : Holds G s) :
    HoldsOut G (execRoiApply s) := by
  unfold execRoiApply
  exact HoldsOut.next (State.fire_holds hs (fun y1 y2 h1 => State.roiApply_holds h1))

theorem execDecision_holds [ClosedRegs G] [ClosedMem G] [ClosedLarder G] [ClosedHost G] [ClosedFree G] [ClosedCel G] [ClosedSeq G] [ClosedLink G] [ClosedLoft G] [ClosedClient G] [ClosedCores G] [ClosedLists G] [ClosedJobs G] [ClosedPtns G] [ClosedFlock G] [ClosedAdp G] [ClosedSdg G] [ClosedSync G] {s} (hs : Holds G s) :
    HoldsOut G (execDecision s) := by
  unfold execDecision
  refine HoldsOut.next ?_
  refine State.fire_holds hs ?_
  intro y1 y2 h1
  extract_lets _ t1
  have ht1 : Holds G t1 := Holds.ite (State.closeAtDecision_holds h1) h1
  clear_value t1
  exact Holds.ite (State.decide__holds ht1) ht1

theorem execEjectPass_holds [ClosedRegs G] [ClosedLarder G] [ClosedHost G] [ClosedFree G] [ClosedSeq G] [ClosedLink G] [ClosedLoft G] [ClosedClient G] [ClosedCores G] [ClosedLists G] [ClosedJobs G] [ClosedPtns G] [ClosedFlock G] [ClosedAdp G] [ClosedSdg G] [ClosedSync G] {s} (hs : Holds G s) :
    HoldsOut G (execEjectPass s) := by
  unfold execEjectPass
  exact HoldsOut.next (State.fire_holds hs (fun y1 y2 h1 => State.ejectPass_holds h1))

theorem execPulse_holds [ClosedRegs G] [ClosedLarder G] [ClosedHost G] [ClosedFree G] [ClosedSeq G] [ClosedLink G] [ClosedLoft G] [ClosedClient G] [ClosedCores G] [ClosedLists G] [ClosedJobs G] [ClosedPtns G] [ClosedFlock G] [ClosedAdp G] [ClosedSdg G] [ClosedSync G] {s} (hs : Holds G s) :
    HoldsOut G (execPulse s) := by
  unfold execPulse
  exact HoldsOut.next (State.fire_holds hs (fun y1 y2 h1 => State.offer_holds h1))

theorem execSelftestWin_holds [ClosedRegs G] [ClosedLarder G] [ClosedHost G] [ClosedFree G] [ClosedSeq G] [ClosedLoft G] [ClosedClient G] [ClosedCores G] [ClosedLists G] [ClosedJobs G] [ClosedPtns G] [ClosedFlock G] [ClosedAdp G] [ClosedSync G] {s} (hs : Holds G s) :
    HoldsOut G (execSelftestWin s) := by
  unfold execSelftestWin
  refine HoldsOut.next ?_
  refine State.fire_holds hs ?_
  intro y1 y2 h1
  extract_lets
  exact Holds.seq h1

theorem execSignal_holds [ClosedRegs G] [ClosedLarder G] [ClosedHost G] [ClosedFree G] [ClosedSeq G] [ClosedLoft G] [ClosedClient G] [ClosedCores G] [ClosedLists G] [ClosedJobs G] [ClosedPtns G] [ClosedFlock G] [ClosedAdp G] [ClosedSync G] {s} (hs : Holds G s) :
    HoldsOut G (execSignal s) := by
  unfold execSignal
  exact HoldsOut.next (State.fire_holds hs (fun y1 y2 h1 => State.positionEvent_holds (State.expireDue_holds h1)))

theorem execLoftMark_holds [ClosedRegs G] [ClosedLarder G] [ClosedHost G] [ClosedFree G] [ClosedSeq G] [ClosedLoft G] [ClosedClient G] [ClosedCores G] [ClosedLists G] [ClosedJobs G] [ClosedPtns G] [ClosedFlock G] [ClosedAdp G] [ClosedSync G] {s} (hs : Holds G s) :
    HoldsOut G (execLoftMark s) := by
  unfold execLoftMark
  exact HoldsOut.next (State.fire_holds hs (fun y1 y2 h1 => State.loftEvent_holds h1))

theorem State.putWindow_holds [ClosedRegs G] {s reg bs} (hs : Holds G s) :
    Holds G (State.putWindow s reg bs) := by
  unfold State.putWindow
  exact Holds.foldl hs (fun y1 y2 h1 => State.setReg_holds h1)

theorem State.psqTblRead_holds [ClosedRegs G] {s k} (hs : Holds G s) :
    Holds G (State.psqTblRead s k) := by
  unfold State.psqTblRead
  extract_lets
  exact State.putWindow_holds (State.put_holds hs)

theorem execPsqTblRead_holds [ClosedRegs G] {index s} (hs : Holds G s) :
    HoldsOut G (execPsqTblRead index s) := by
  unfold execPsqTblRead
  exact HoldsOut.next (State.written_holds hs (fun y1 h1 => State.psqTblRead_holds h1))

theorem State.partWinRead_holds [ClosedRegs G] {s i} (hs : Holds G s) :
    Holds G (State.partWinRead s i) := by
  unfold State.partWinRead
  exact State.putWindow_holds (State.put_holds hs)

theorem execPartWinRead_holds [ClosedRegs G] {index s} (hs : Holds G s) :
    HoldsOut G (execPartWinRead index s) := by
  unfold execPartWinRead
  exact HoldsOut.next (State.written_holds hs (fun y1 h1 => State.partWinRead_holds h1))

theorem State.replaceTracks_holds [ClosedRegs G] [ClosedSeq G] {s before} (hs : Holds G s) :
    Holds G (State.replaceTracks s before) := by
  unfold State.replaceTracks
  extract_lets
  split
  · exact State.bumpBy_holds (Holds.seq hs)

theorem State.moveEntry_holds [ClosedSeq G] {s k e} (hs : Holds G s) :
    Holds G (State.moveEntry s k e) := by
  unfold State.moveEntry
  split
  · exact Holds.ite (State.setEntry_holds hs) hs
  · exact hs

theorem State.reapply_holds [ClosedRegs G] [ClosedSeq G] {s} (hs : Holds G s) :
    Holds G (State.reapply s) := by
  unfold State.reapply
  extract_lets t1
  have ht1 : Holds G t1 := by
    refine Holds.foldl hs ?_
    intro y1 y2 h1
    extract_lets _ _ _ _ t2
    have ht2 : Holds G t2 := State.setPart_holds h1
    clear_value t2
    exact State.moveEntry_holds (State.moveEntry_holds ht2)
  clear_value t1
  exact State.drop_holds ht1

theorem State.seqCommit_holds [ClosedRegs G] [ClosedSeq G] {s old rezero} (hs : Holds G s) :
    Holds G (State.seqCommit s old rezero) := by
  unfold State.seqCommit
  extract_lets _ t1
  have ht1 : Holds G t1 := Holds.ite (State.replaceTracks_holds hs) hs
  clear_value t1
  exact Holds.ite (State.reapply_holds ht1) ht1

end Sys2Proof.Machine
end

