-- ==== Sys2Proof/Laws/Commit.lean ====
section
/-! SUPPORT. Laws/Commit.lean: what the functions of Machine/Commit.lean can change (Laws/Closure.lean). -/

namespace Sys2Proof.Machine

variable {G : State → Prop}

theorem State.unfreeze_holds [ClosedRegs G] [ClosedStage G] {s} (hs : Holds G s) :
    Holds G (State.unfreeze s) := by
  unfold State.unfreeze
  extract_lets
  exact State.setStage_holds (State.drop_holds (State.drop_holds (State.drop_holds hs)))

theorem State.emptyStage_holds [ClosedRegs G] [ClosedStaged G] [ClosedStage G] {s} (hs : Holds G s) :
    Holds G (State.emptyStage s) := by
  unfold State.emptyStage
  extract_lets t1
  have ht1 : Holds G t1 := State.unfreeze_holds hs
  clear_value t1
  exact State.drop_holds (Holds.staged_stage ht1)

theorem State.commitEnds_holds [ClosedHost G] [ClosedClient G] {s c st result} (hs : Holds G s) :
    Holds G (State.commitEnds s c st result) := by
  unfold State.commitEnds
  split
  · exact hs
  · split
    · exact hs
    · exact State.complete_holds hs

theorem State.beginCheck_holds [ClosedRegs G] [ClosedStage G] {s c} (hs : Holds G s) :
    Holds G (State.beginCheck s c) := by
  unfold State.beginCheck
  extract_lets
  exact State.setStage_holds (State.raise_holds (State.raise_holds hs))

theorem execCommit_holds [ClosedRegs G] [ClosedHost G] [ClosedClient G] [ClosedStage G] {ring index s} (hs : Holds G s) :
    HoldsOut G (execCommit ring index s) := by
  unfold execCommit
  refine HoldsOut.next ?_
  split
  · exact hs
  · extract_lets
    exact Holds.ite (State.complete_holds hs) (State.beginCheck_holds (Holds.client hs))

theorem State.refuseCommit_holds [ClosedRegs G] [ClosedHost G] [ClosedClient G] [ClosedStage G] {s c code} (hs : Holds G s) :
    Holds G (State.refuseCommit s c code) := by
  unfold State.refuseCommit
  exact State.commitEnds_holds (State.bump_holds (State.put_holds (State.unfreeze_holds hs)))

theorem execCommitCheckDone_holds [ClosedRegs G] [ClosedHost G] [ClosedCel G] [ClosedLoft G] [ClosedClient G] [ClosedStage G] {s} (hs : Holds G s) :
    HoldsOut G (execCommitCheckDone s) := by
  unfold execCommitCheckDone
  refine HoldsOut.next ?_
  split
  · exact hs
  · refine Holds.ite hs ?_
    split
    · exact State.commitEnds_holds (State.unfreeze_holds (Holds.of_triple (by assumption) (State.loadAll_holds hs)))
    · extract_lets _ _ t1
      have ht1 : Holds G t1 := State.setStage_holds (State.raise_holds (State.drop_holds (Holds.of_triple (by assumption) (State.loadAll_holds hs))))
      clear_value t1
      exact Holds.ite (State.refuseCommit_holds (Holds.of_triple (by assumption) (State.loadAll_holds hs))) (Holds.ite (State.latch_holds ht1) ht1)

theorem State.stopJob_holds [ClosedRegs G] [ClosedLarder G] [ClosedFree G] [ClosedSeq G] [ClosedCores G] [ClosedLists G] [ClosedJobs G] [ClosedPtns G] [ClosedFlock G] [ClosedSync G] {s j} (hs : Holds G s) :
    Holds G (State.stopJob s j) := by
  unfold State.stopJob
  extract_lets t1
  have ht1 : Holds G t1 := Holds.ite (Holds.foldl hs (fun y1 y2 h1 => State.markIncomplete_holds h1)) hs
  clear_value t1
  exact Holds.ite hs (State.setJobState_holds (State.leaveSlice_holds (State.releaseJob_holds ht1)))

theorem State.rebind_holds [ClosedRegs G] [ClosedLarder G] [ClosedHost G] [ClosedFree G] [ClosedCel G] [ClosedSeq G] [ClosedLink G] [ClosedLoft G] [ClosedClient G] [ClosedCores G] [ClosedLists G] [ClosedJobs G] [ClosedPtns G] [ClosedFlock G] [ClosedSync G] {s j i} (hs : Holds G s) :
    Holds G (State.rebind s j i) := by
  unfold State.rebind
  refine State.underMap_holds hs ?_
  intro y1 y2 y3 h1
  extract_lets t1
  have ht1 : Holds G t1 := State.requeue_holds (State.bindMap_holds h1)
  clear_value t1
  exact Holds.foldl ht1 (fun y4 y5 h2 => State.coreNext_holds h2)

theorem State.startJob_holds [ClosedRegs G] [ClosedLarder G] [ClosedHost G] [ClosedFree G] [ClosedCel G] [ClosedSeq G] [ClosedLink G] [ClosedLoft G] [ClosedClient G] [ClosedCores G] [ClosedLists G] [ClosedJobs G] [ClosedPtns G] [ClosedFlock G] [ClosedSync G] {s j} (hs : Holds G s) :
    Holds G (State.startJob s j) := by
  unfold State.startJob
  extract_lets _ t1 _
  have ht1 : Holds G t1 := State.setJob_holds hs
  clear_value t1
  split
  · exact ht1
  · exact Holds.ite (State.rebind_holds (State.put_holds (State.raise_holds (State.setJobState_holds ht1)))) (State.setJobState_holds ht1)

theorem State.takePair_holds [ClosedRegs G] [ClosedLarder G] [ClosedHost G] [ClosedFree G] [ClosedCel G] [ClosedSeq G] [ClosedLink G] [ClosedLoft G] [ClosedClient G] [ClosedCores G] [ClosedLists G] [ClosedJobs G] [ClosedPtns G] [ClosedFlock G] [ClosedSync G] {s j} (hs : Holds G s) :
    Holds G (State.takePair s j) := by
  unfold State.takePair
  split
  · extract_lets _ _ t1 _ _
    have ht1 : Holds G t1 := State.setJob_holds hs
    clear_value t1
    exact Holds.ite (State.rebind_holds ht1) (Holds.ite (State.setJob_holds ht1) (Holds.ite (State.setJobState_holds ht1) ht1))
  · extract_lets
    exact State.setJob_holds hs

theorem State.jobsCommit_holds [ClosedRegs G] [ClosedLarder G] [ClosedHost G] [ClosedFree G] [ClosedCel G] [ClosedSeq G] [ClosedLink G] [ClosedLoft G] [ClosedClient G] [ClosedCores G] [ClosedLists G] [ClosedJobs G] [ClosedPtns G] [ClosedFlock G] [ClosedSync G] {s} (hs : Holds G s) :
    Holds G (State.jobsCommit s) := by
  unfold State.jobsCommit
  extract_lets _ t1 t2
  have ht1 : Holds G t1 := Holds.foldl hs (fun y1 y2 h1 => State.takePair_holds h1)
  have ht2 : Holds G t2 := by
    refine Holds.foldl ht1 ?_
    intro y3 y4 h2
    extract_lets
    exact State.setJob_holds h2
  clear_value t1 t2
  exact Holds.foldl ht2 (fun y5 y6 h3 => State.startJob_holds h3)

theorem State.coresCommit_holds [ClosedRegs G] [ClosedLarder G] [ClosedCores G] {s old} (hs : Holds G s) :
    Holds G (State.coresCommit s old) := by
  unfold State.coresCommit
  exact Holds.foldl hs (fun y1 y2 h1 => Holds.ite (State.scrub_holds h1) h1)

theorem State.endCandidates_holds [ClosedSeq G] {s free} (hs : Holds G s) :
    Holds G (State.endCandidates s free) := by
  unfold State.endCandidates
  extract_lets
  exact Holds.seq hs

theorem State.captureCommit_holds [ClosedRegs G] [ClosedSeq G] [ClosedAdp G] {s old} (hs : Holds G s) :
    Holds G (State.captureCommit s old) := by
  unfold State.captureCommit
  extract_lets _ t1 t2 t3 _
  have ht1 : Holds G t1 := Holds.ite (State.endCandidates_holds (State.put_holds hs)) hs
  have ht2 : Holds G t2 := State.drop_holds (State.put_holds (State.drop_holds ht1))
  have ht3 : Holds G t3 := State.endCandidates_holds ht2
  clear_value t1 t2 t3
  exact Holds.ite (Holds.adp ht3) ht1

theorem State.captureArmed_holds [ClosedAdp G] {s old} (hs : Holds G s) :
    Holds G (State.captureArmed s old) := by
  unfold State.captureArmed
  extract_lets
  exact Holds.ite hs (Holds.adp hs)

theorem State.tablesCommit_holds [ClosedCel G] [ClosedLp G] {s} (hs : Holds G s) :
    Holds G (State.tablesCommit s) := by
  unfold State.tablesCommit
  extract_lets _ t1
  have ht1 : Holds G t1 := by
    refine Holds.foldl hs ?_
    intro y1 y2 h1
    extract_lets
    exact Holds.lp h1
  clear_value t1
  refine Holds.foldl ht1 ?_
  intro y3 y4 h2
  extract_lets
  exact Holds.cel_lp h2

theorem State.windowCommit_holds [ClosedSdg G] {s old} (hs : Holds G s) :
    Holds G (State.windowCommit s old) := by
  unfold State.windowCommit
  extract_lets
  exact Holds.ite hs (Holds.sdg hs)

theorem State.soCommit_holds [ClosedFree G] [ClosedSync G] {s} (hs : Holds G s) :
    Holds G (State.soCommit s) := by
  unfold State.soCommit
  exact Holds.foldl hs (fun y1 y2 h1 => State.restage_holds h1)

theorem State.pubCommit_holds [ClosedAdp G] {s old} (hs : Holds G s) :
    Holds G (State.pubCommit s old) := by
  unfold State.pubCommit
  extract_lets
  exact Holds.ite (Holds.adp hs) hs

theorem State.portCommit_holds [ClosedRegs G] [ClosedLoft G] [ClosedGts G] [ClosedClk G] {s old p} (hs : Holds G s) :
    Holds G (State.portCommit s old p) := by
  unfold State.portCommit
  extract_lets
  exact Holds.ite (Holds.ite (State.drop_holds (State.put_holds (State.linkDown_holds hs))) hs) (Holds.ite (State.trainDone_holds (State.drop_holds (State.put_holds hs))) hs)

theorem State.mapsCommit_holds [ClosedGts G] {s old} (hs : Holds G s) :
    Holds G (State.mapsCommit s old) := by
  unfold State.mapsCommit
  extract_lets
  exact Holds.gts hs

theorem State.fabricCommit_holds [ClosedRegs G] [ClosedLoft G] [ClosedGts G] [ClosedClk G] {s old} (hs : Holds G s) :
    Holds G (State.fabricCommit s old) := by
  unfold State.fabricCommit
  extract_lets t1
  have ht1 : Holds G t1 := Holds.foldl (State.mapsCommit_holds hs) (fun y1 y2 h1 => State.portCommit_holds h1)
  clear_value t1
  exact Holds.ite (State.portsChanged_holds ht1) ht1

theorem State.netCommit_holds [ClosedRegs G] [ClosedHost G] [ClosedClient G] [ClosedBoot G] {s} (hs : Holds G s) :
    Holds G (State.netCommit s) := by
  unfold State.netCommit
  extract_lets _ _ _ _ t1 t2
  have ht1 : Holds G t1 := State.saveConfig_holds (Holds.client hs)
  have ht2 : Holds G t2 := State.portsCommit_holds ht1
  clear_value t1 t2
  exact Holds.ite hs (Holds.ite (State.allowCommit_holds ht2) ht2)

theorem State.applyStage_holds [ClosedRegs G] [ClosedMem G] [ClosedLarder G] [ClosedHost G] [ClosedFree G] [ClosedCel G] [ClosedPos G] [ClosedLanes G] [ClosedCams G] [ClosedLp G] [ClosedSeq G] [ClosedLink G] [ClosedAud G] [ClosedLoft G] [ClosedNtm G] [ClosedGts G] [ClosedClient G] [ClosedCores G] [ClosedLists G] [ClosedJobs G] [ClosedPtns G] [ClosedFlock G] [ClosedAdp G] [ClosedSdg G] [ClosedSync G] [ClosedClk G] [ClosedBoot G] {s} (hs : Holds G s) :
    Holds G (State.applyStage s) := by
  unfold State.applyStage
  extract_lets t1 _ t2 t3 t4 t5 t6 t7 t8 t9 t10
  have ht1 : Holds G t1 := hs
  have ht2 : Holds G t2 := State.lpEnd_holds hs
  have ht3 : Holds G t3 := Holds.foldl ht2 (fun y1 y2 h1 => State.stopJob_holds h1)
  have ht4 : Holds G t4 := State.coresCommit_holds (State.captureCommit_holds (State.withStage_holds ht3))
  have ht5 : Holds G t5 := State.waysCommit_holds (State.seqCommit_holds (State.posCommit_holds ht4))
  have ht6 : Holds G t6 := State.fieldCommit_holds (State.lpCommit_holds (State.tablesCommit_holds (State.cameraCommit_holds ht5)))
  have ht7 : Holds G t7 := State.freqCommit_holds (State.deepCommit_holds (State.pubCommit_holds (State.soCommit_holds (State.windowCommit_holds ht6))))
  have ht8 : Holds G t8 := State.captureArmed_holds (State.jobsCommit_holds ht7)
  have ht9 : Holds G t9 := State.tpoCommit_holds (State.audCommit_holds (State.inCommit_holds ht8))
  have ht10 : Holds G t10 := State.ptpCommit_holds (State.fabricCommit_holds (State.clkCommit_holds ht9))
  clear_value t1 t2 t3 t4 t5 t6 t7 t8 t9 t10
  exact State.netCommit_holds ht10

theorem State.applyCommit_holds [ClosedRegs G] [ClosedStaged G] [ClosedPairs G] [ClosedMem G] [ClosedLarder G] [ClosedHost G] [ClosedFree G] [ClosedCel G] [ClosedPos G] [ClosedLanes G] [ClosedCams G] [ClosedLp G] [ClosedSeq G] [ClosedLink G] [ClosedAud G] [ClosedLoft G] [ClosedNtm G] [ClosedGts G] [ClosedClient G] [ClosedCores G] [ClosedLists G] [ClosedJobs G] [ClosedPtns G] [ClosedFlock G] [ClosedAdp G] [ClosedSdg G] [ClosedStage G] [ClosedSync G] [ClosedClk G] [ClosedBoot G] {s c} (hs : Holds G s) :
    Holds G (State.applyCommit s c) := by
  unfold State.applyCommit
  extract_lets t1 t2 t3
  have ht1 : Holds G t1 := State.emptyStage_holds (State.applyStage_holds hs)
  have ht2 : Holds G t2 := State.drop_holds (Holds.pairs ht1)
  have ht3 : Holds G t3 := State.bumpWrap_holds (State.put64_holds ht2)
  clear_value t1 t2 t3
  exact State.settle_holds (State.commitEnds_holds (State.settle_holds ht3))

theorem State.commitTick_holds [ClosedRegs G] [ClosedStaged G] [ClosedPairs G] [ClosedMem G] [ClosedLarder G] [ClosedHost G] [ClosedFree G] [ClosedCel G] [ClosedPos G] [ClosedLanes G] [ClosedCams G] [ClosedLp G] [ClosedSeq G] [ClosedLink G] [ClosedAud G] [ClosedLoft G] [ClosedNtm G] [ClosedGts G] [ClosedClient G] [ClosedCores G] [ClosedLists G] [ClosedJobs G] [ClosedPtns G] [ClosedFlock G] [ClosedAdp G] [ClosedSdg G] [ClosedStage G] [ClosedSync G] [ClosedClk G] [ClosedBoot G] {s} (hs : Holds G s) :
    Holds G (State.commitTick s) := by
  unfold State.commitTick
  split
  · exact hs
  · extract_lets
    exact Holds.ite (State.refuseCommit_holds hs) (State.applyCommit_holds hs)

theorem execCommitApply_holds [ClosedRegs G] [ClosedStaged G] [ClosedPairs G] [ClosedMem G] [ClosedLarder G] [ClosedHost G] [ClosedFree G] [ClosedCel G] [ClosedPos G] [ClosedLanes G] [ClosedCams G] [ClosedLp G] [ClosedSeq G] [ClosedLink G] [ClosedAud G] [ClosedLoft G] [ClosedNtm G] [ClosedGts G] [ClosedClient G] [ClosedCores G] [ClosedLists G] [ClosedJobs G] [ClosedPtns G] [ClosedFlock G] [ClosedAdp G] [ClosedSdg G] [ClosedStage G] [ClosedSync G] [ClosedClk G] [ClosedBoot G] {s} (hs : Holds G s) :
    HoldsOut G (execCommitApply s) := by
  unfold execCommitApply
  exact HoldsOut.next (State.commitTick_holds hs)

theorem execDiscard_holds [ClosedRegs G] [ClosedStaged G] [ClosedHost G] [ClosedClient G] [ClosedStage G] {ring index s} (hs : Holds G s) :
    HoldsOut G (execDiscard ring index s) := by
  unfold execDiscard
  refine HoldsOut.next ?_
  split
  · exact hs
  · extract_lets x1 t1 t2
    have ht1 : Holds G t1 := State.emptyStage_holds hs
    have ht2 : Holds G t2 := by
      unfold t2
      clear_value x1 t1 t2
      split
      · exact ht1
      · exact State.commitEnds_holds ht1
    clear_value t1 t2
    exact State.complete_holds ht2

end Sys2Proof.Machine
end

