-- ==== Sys2Proof/Laws/Flock.lean ====
section
/-! SUPPORT. Laws/Flock.lean: what the functions of Machine/Flock.lean can change (Laws/Closure.lean). -/

namespace Sys2Proof.Machine

variable {G : State → Prop}

theorem State.memStall_holds [ClosedRegs G] [ClosedFree G] {s e} (hs : Holds G s) :
    Holds G (State.memStall s e) := by
  unfold State.memStall
  split
  · exact State.bumpBy_holds (Holds.of_pair (by assumption) (State.draw_holds hs))

theorem State.countInstr_holds [ClosedRegs G] {s e} (hs : Holds G s) :
    Holds G (State.countInstr s e) := by
  unfold State.countInstr
  exact State.put64_holds hs

theorem State.flockFault_holds [ClosedRegs G] [ClosedLarder G] [ClosedHost G] [ClosedFree G] [ClosedSeq G] [ClosedLoft G] [ClosedClient G] [ClosedCores G] [ClosedLists G] [ClosedJobs G] [ClosedPtns G] [ClosedFlock G] [ClosedAdp G] [ClosedSync G] {s e c t f pc addr} (hs : Holds G s) :
    Holds G (State.flockFault s e c t f pc addr) := by
  unfold State.flockFault
  exact State.settle_holds (State.threadFault_holds hs)

theorem State.issue_holds [ClosedRegs G] [ClosedLarder G] [ClosedHost G] [ClosedFree G] [ClosedCel G] [ClosedSeq G] [ClosedLoft G] [ClosedClient G] [ClosedCores G] [ClosedLists G] [ClosedJobs G] [ClosedPtns G] [ClosedFlock G] [ClosedAdp G] [ClosedSync G] {s e c want body} (hs : Holds G s) (hbody : ∀ y0 y1 y2, Holds G y0 → Holds G (body y0 y1 y2)) :
    Holds G (State.issue s e c want body) := by
  unfold State.issue
  split
  · exact hs
  · refine Holds.ite hs ?_
    refine Holds.ite (State.flockFault_holds hs) ?_
    split
    · exact State.flockFault_holds hs
    · refine Holds.ite hs ?_
      refine Holds.ite (Holds.ite (State.memStall_holds hs) hs) ?_
      split
      · extract_lets
        exact Holds.ite (State.flockFault_holds (Holds.of_triple (by assumption) (State.load_holds hs))) (hbody _ _ _ (State.setThread_holds (State.countInstr_holds (Holds.of_triple (by assumption) (State.load_holds hs)))))
      · exact State.flockFault_holds (Holds.of_triple (by assumption) (State.load_holds hs))

theorem State.alu_holds [ClosedRegs G] [ClosedLarder G] [ClosedHost G] [ClosedFree G] [ClosedCel G] [ClosedSeq G] [ClosedLoft G] [ClosedClient G] [ClosedCores G] [ClosedLists G] [ClosedJobs G] [ClosedPtns G] [ClosedFlock G] [ClosedAdp G] [ClosedSync G] {s e c want f} (hs : Holds G s) :
    Holds G (State.alu s e c want f) := by
  unfold State.alu
  exact State.issue_holds hs (fun y1 y2 y3 h1 => State.setThread_holds h1)

theorem State.intOp_holds [ClosedRegs G] [ClosedLarder G] [ClosedHost G] [ClosedFree G] [ClosedCel G] [ClosedSeq G] [ClosedLoft G] [ClosedClient G] [ClosedCores G] [ClosedLists G] [ClosedJobs G] [ClosedPtns G] [ClosedFlock G] [ClosedAdp G] [ClosedSync G] {s e c fn f} (hs : Holds G s) :
    Holds G (State.intOp s e c fn f) := by
  unfold State.intOp
  exact State.alu_holds hs

theorem State.fpOp_holds [ClosedRegs G] [ClosedLarder G] [ClosedHost G] [ClosedFree G] [ClosedCel G] [ClosedSeq G] [ClosedLoft G] [ClosedClient G] [ClosedCores G] [ClosedLists G] [ClosedJobs G] [ClosedPtns G] [ClosedFlock G] [ClosedAdp G] [ClosedSync G] {s e c fn f} (hs : Holds G s) :
    Holds G (State.fpOp s e c fn f) := by
  unfold State.fpOp
  exact State.alu_holds hs

theorem State.immOp_holds [ClosedRegs G] [ClosedLarder G] [ClosedHost G] [ClosedFree G] [ClosedCel G] [ClosedSeq G] [ClosedLoft G] [ClosedClient G] [ClosedCores G] [ClosedLists G] [ClosedJobs G] [ClosedPtns G] [ClosedFlock G] [ClosedAdp G] [ClosedSync G] {s e c op f} (hs : Holds G s) :
    Holds G (State.immOp s e c op f) := by
  unfold State.immOp
  exact State.alu_holds hs

theorem State.branch_holds [ClosedRegs G] [ClosedLarder G] [ClosedHost G] [ClosedFree G] [ClosedCel G] [ClosedSeq G] [ClosedLoft G] [ClosedClient G] [ClosedCores G] [ClosedLists G] [ClosedJobs G] [ClosedPtns G] [ClosedFlock G] [ClosedAdp G] [ClosedSync G] {s e c op cc} (hs : Holds G s) :
    Holds G (State.branch s e c op cc) := by
  unfold State.branch
  exact State.issue_holds hs (fun y1 y2 y3 h1 => Holds.ite (State.setThread_holds h1) h1)

theorem State.addOp_holds [ClosedRegs G] [ClosedFlock G] {s e c t o} (hs : Holds G s) :
    Holds G (State.addOp s e c t o) := by
  unfold State.addOp
  extract_lets _ t1
  have ht1 : Holds G t1 := Holds.ite (State.bump_holds hs) hs
  clear_value t1
  exact State.setThread_holds ht1

theorem State.access_holds [ClosedRegs G] [ClosedLarder G] [ClosedHost G] [ClosedFree G] [ClosedSeq G] [ClosedLoft G] [ClosedClient G] [ClosedCores G] [ClosedLists G] [ClosedJobs G] [ClosedPtns G] [ClosedFlock G] [ClosedAdp G] [ClosedSync G] {s e c t a n rd k} (hs : Holds G s) :
    Holds G (State.access s e c t a n rd k) := by
  unfold State.access
  exact Holds.ite (State.flockFault_holds hs) (Holds.ite (State.flockFault_holds hs) (State.addOp_holds hs))

theorem State.loadOp_holds [ClosedRegs G] [ClosedLarder G] [ClosedHost G] [ClosedFree G] [ClosedCel G] [ClosedSeq G] [ClosedLoft G] [ClosedClient G] [ClosedCores G] [ClosedLists G] [ClosedJobs G] [ClosedPtns G] [ClosedFlock G] [ClosedAdp G] [ClosedSync G] {s e c op n} (hs : Holds G s) :
    Holds G (State.loadOp s e c op n) := by
  unfold State.loadOp
  exact State.issue_holds hs (fun y1 y2 y3 h1 => State.access_holds h1)

theorem State.storeOp_holds [ClosedRegs G] [ClosedLarder G] [ClosedHost G] [ClosedFree G] [ClosedCel G] [ClosedSeq G] [ClosedLoft G] [ClosedClient G] [ClosedCores G] [ClosedLists G] [ClosedJobs G] [ClosedPtns G] [ClosedFlock G] [ClosedAdp G] [ClosedSync G] {s e c op n} (hs : Holds G s) :
    Holds G (State.storeOp s e c op n) := by
  unfold State.storeOp
  exact State.issue_holds hs (fun y1 y2 y3 h1 => State.access_holds h1)

theorem State.atomicOp_holds [ClosedRegs G] [ClosedLarder G] [ClosedHost G] [ClosedFree G] [ClosedCel G] [ClosedSeq G] [ClosedLoft G] [ClosedClient G] [ClosedCores G] [ClosedLists G] [ClosedJobs G] [ClosedPtns G] [ClosedFlock G] [ClosedAdp G] [ClosedSync G] {s e c fn} (hs : Holds G s) :
    Holds G (State.atomicOp s e c fn) := by
  unfold State.atomicOp
  refine State.issue_holds hs ?_
  intro y1 y2 y3 h1
  extract_lets
  exact Holds.ite (State.flockFault_holds h1) (State.access_holds h1)

theorem State.performMem_holds [ClosedRegs G] [ClosedMem G] [ClosedLarder G] [ClosedHost G] [ClosedFree G] [ClosedCel G] [ClosedSeq G] [ClosedLoft G] [ClosedClient G] [ClosedCores G] [ClosedLists G] [ClosedJobs G] [ClosedPtns G] [ClosedFlock G] [ClosedAdp G] [ClosedSync G] {s e c t i o} (hs : Holds G s) :
    Holds G (State.performMem s e c t i o) := by
  unfold State.performMem
  extract_lets ag bad
  have hb : ∀ t r, Holds G t → Holds G (bad t r) := fun t r h => State.flockFault_holds h
  clear_value bad
  split
  · split
    · exact State.finishOp_holds (Holds.of_triple (by assumption) (State.load_holds hs))
    · exact hb _ _ (Holds.of_triple (by assumption) (State.load_holds hs))
  · split
    · exact State.finishOp_holds (Holds.of_pair (by assumption) (State.store_holds hs))
    · exact hb _ _ (Holds.of_pair (by assumption) (State.store_holds hs))
  · extract_lets
    split
    · extract_lets
      exact State.finishOp_holds (State.storeBack_holds (Holds.of_triple (by assumption) (State.load_holds hs)))
    · exact hb _ _ (Holds.of_triple (by assumption) (State.load_holds hs))
  · split
    · exact State.setThread_holds (Holds.of_triple (by assumption) (State.load_holds hs))
    · exact hb _ _ (Holds.of_triple (by assumption) (State.load_holds hs))
  · exact hs

theorem State.performSet_holds [ClosedRegs G] [ClosedMem G] [ClosedLarder G] [ClosedHost G] [ClosedFree G] [ClosedCel G] [ClosedSeq G] [ClosedLoft G] [ClosedGts G] [ClosedClient G] [ClosedCores G] [ClosedLists G] [ClosedJobs G] [ClosedPtns G] [ClosedFlock G] [ClosedAdp G] [ClosedSync G] {s e c t i o op set key node} (hs : Holds G s) :
    Holds G (State.performSet s e c t i o op set key node) := by
  unfold State.performSet
  extract_lets
  refine Holds.ite (State.failSet_holds hs) ?_
  split
  · split
    · exact State.flockFault_holds (Holds.of_pair (by assumption) (State.setApply_holds hs))
    · extract_lets
      split
      · exact State.setThread_holds (Holds.of_pair (by assumption) (State.replicate_holds (Holds.of_pair (by assumption) (State.setApply_holds hs))))
      · exact State.finishSet_holds (Holds.of_pair (by assumption) (State.replicate_holds (Holds.of_pair (by assumption) (State.setApply_holds hs))))

theorem State.windowRead_holds [ClosedRegs G] [ClosedCel G] [ClosedLoft G] {s a part} (hs : Holds G s) :
    Holds G (State.windowRead s a part).2 := by
  unfold State.windowRead
  split
  · exact hs
  · split
    · exact Holds.of_triple (by assumption) (State.load_holds hs)
    · exact Holds.of_triple (by assumption) (State.load_holds hs)

theorem State.request_holds [ClosedRegs G] [ClosedGts G] [ClosedFlock G] {s e c t i o dst type payload fail} (hs : Holds G s) (hfail : ∀ y0 y1 y2, Holds G y0 → Holds G (fail y0 y1 y2)) :
    Holds G (State.request s e c t i o dst type payload fail) := by
  unfold State.request
  refine Holds.ite (hfail _ _ _ (State.setThread_holds hs)) ?_
  split
  · exact State.sendLookup_holds (State.setThread_holds (Holds.of_pair (by assumption) (State.newTag_holds hs)))

theorem State.requestSet_holds [ClosedRegs G] [ClosedFree G] [ClosedGts G] [ClosedFlock G] {s e c t i o op set key node dst} (hs : Holds G s) :
    Holds G (State.requestSet s e c t i o op set key node dst) := by
  unfold State.requestSet
  exact Holds.ite (State.failSet_holds (State.setThread_holds hs)) (State.request_holds hs (fun y1 y2 y3 h1 => State.failSet_holds h1))

theorem State.runSet_holds [ClosedRegs G] [ClosedMem G] [ClosedLarder G] [ClosedHost G] [ClosedFree G] [ClosedCel G] [ClosedSeq G] [ClosedLoft G] [ClosedGts G] [ClosedClient G] [ClosedCores G] [ClosedLists G] [ClosedJobs G] [ClosedPtns G] [ClosedFlock G] [ClosedAdp G] [ClosedSync G] {s e c t i o op set key node} (hs : Holds G s) :
    Holds G (State.runSet s e c t i o op set key node) := by
  unfold State.runSet
  split
  · split
    · exact State.performSet_holds (Holds.of_pair (by assumption) (State.readMap_holds hs))
    · exact State.requestSet_holds (Holds.of_pair (by assumption) (State.readMap_holds hs))
  · exact State.flockFault_holds (Holds.of_pair (by assumption) (State.readMap_holds hs))

theorem State.runOp_holds [ClosedRegs G] [ClosedMem G] [ClosedLarder G] [ClosedHost G] [ClosedFree G] [ClosedCel G] [ClosedSeq G] [ClosedLoft G] [ClosedGts G] [ClosedClient G] [ClosedCores G] [ClosedLists G] [ClosedJobs G] [ClosedPtns G] [ClosedFlock G] [ClosedAdp G] [ClosedSync G] {s e c t k o} (hs : Holds G s) :
    Holds G (State.runOp s e c t k o) := by
  unfold State.runOp
  split
  · exact State.runSet_holds hs
  · split
    · exact State.finishOp_holds (Holds.of_pair (by assumption) (State.windowRead_holds hs))
    · exact State.failGet_holds (Holds.of_pair (by assumption) (State.windowRead_holds hs))
  · exact State.performMem_holds hs

theorem execFlockMemComplete_holds [ClosedRegs G] [ClosedMem G] [ClosedLarder G] [ClosedHost G] [ClosedFree G] [ClosedCel G] [ClosedSeq G] [ClosedLoft G] [ClosedGts G] [ClosedClient G] [ClosedCores G] [ClosedLists G] [ClosedJobs G] [ClosedPtns G] [ClosedFlock G] [ClosedAdp G] [ClosedSync G] {e c k s} (hs : Holds G s) :
    HoldsOut G (execFlockMemComplete e c k s) := by
  unfold execFlockMemComplete
  refine HoldsOut.next ?_
  split
  · exact hs
  · split
    · exact hs
    · exact Holds.ite hs (State.runOp_holds hs)

theorem State.hashOp_holds [ClosedRegs G] [ClosedMem G] [ClosedLarder G] [ClosedHost G] [ClosedFree G] [ClosedCel G] [ClosedSeq G] [ClosedLoft G] [ClosedGts G] [ClosedClient G] [ClosedCores G] [ClosedLists G] [ClosedJobs G] [ClosedPtns G] [ClosedFlock G] [ClosedAdp G] [ClosedSync G] {s e c opcode op} (hs : Holds G s) :
    Holds G (State.hashOp s e c opcode op) := by
  unfold State.hashOp
  refine State.issue_holds hs ?_
  intro y1 y2 y3 h1
  extract_lets
  exact Holds.ite (State.flockFault_holds h1) (Holds.ite (State.addOp_holds h1) (State.runSet_holds h1))

theorem execRemoteTimeout_holds [ClosedRegs G] [ClosedFree G] [ClosedGts G] [ClosedFlock G] {e c k s} (hs : Holds G s) :
    HoldsOut G (execRemoteTimeout e c k s) := by
  unfold execRemoteTimeout
  refine HoldsOut.next ?_
  split
  · exact hs
  · split
    · exact hs
    · split
      · exact hs
      · extract_lets _ _ _ t1
        have ht1 : Holds G t1 := Holds.gts hs
        clear_value t1
        refine Holds.ite hs ?_
        split
        · exact State.failGet_holds ht1
        · exact State.failSet_holds ht1

theorem execHkey_holds [ClosedRegs G] [ClosedLarder G] [ClosedHost G] [ClosedFree G] [ClosedCel G] [ClosedSeq G] [ClosedLoft G] [ClosedClient G] [ClosedCores G] [ClosedLists G] [ClosedJobs G] [ClosedPtns G] [ClosedFlock G] [ClosedAdp G] [ClosedSync G] {e c s} (hs : Holds G s) :
    HoldsOut G (execHkey e c s) := by
  unfold execHkey
  refine HoldsOut.next ?_
  refine State.issue_holds hs ?_
  intro y1 y2 y3 h1
  extract_lets
  refine Holds.ite (State.flockFault_holds h1) ?_
  refine Holds.ite (State.flockFault_holds h1) ?_
  refine Holds.ite (State.setThread_holds h1) ?_
  refine Holds.ite (State.flockFault_holds h1) ?_
  refine Holds.ite (State.addOp_holds h1) ?_
  split
  · exact State.setThread_holds (Holds.of_triple (by assumption) (State.load_holds h1))
  · exact State.flockFault_holds (Holds.of_triple (by assumption) (State.load_holds h1))
  · exact State.flockFault_holds (Holds.of_triple (by assumption) (State.load_holds h1))

theorem execHlook_holds [ClosedRegs G] [ClosedMem G] [ClosedLarder G] [ClosedHost G] [ClosedFree G] [ClosedCel G] [ClosedSeq G] [ClosedLoft G] [ClosedGts G] [ClosedClient G] [ClosedCores G] [ClosedLists G] [ClosedJobs G] [ClosedPtns G] [ClosedFlock G] [ClosedAdp G] [ClosedSync G] {e c s} (hs : Holds G s) :
    HoldsOut G (execHlook e c s) := by
  unfold execHlook
  exact HoldsOut.next (State.hashOp_holds hs)

theorem execHseen_holds [ClosedRegs G] [ClosedMem G] [ClosedLarder G] [ClosedHost G] [ClosedFree G] [ClosedCel G] [ClosedSeq G] [ClosedLoft G] [ClosedGts G] [ClosedClient G] [ClosedCores G] [ClosedLists G] [ClosedJobs G] [ClosedPtns G] [ClosedFlock G] [ClosedAdp G] [ClosedSync G] {e c s} (hs : Holds G s) :
    HoldsOut G (execHseen e c s) := by
  unfold execHseen
  exact HoldsOut.next (State.hashOp_holds hs)

theorem execHins_holds [ClosedRegs G] [ClosedMem G] [ClosedLarder G] [ClosedHost G] [ClosedFree G] [ClosedCel G] [ClosedSeq G] [ClosedLoft G] [ClosedGts G] [ClosedClient G] [ClosedCores G] [ClosedLists G] [ClosedJobs G] [ClosedPtns G] [ClosedFlock G] [ClosedAdp G] [ClosedSync G] {e c s} (hs : Holds G s) :
    HoldsOut G (execHins e c s) := by
  unfold execHins
  exact HoldsOut.next (State.hashOp_holds hs)

theorem execRget_holds [ClosedRegs G] [ClosedLarder G] [ClosedHost G] [ClosedFree G] [ClosedCel G] [ClosedSeq G] [ClosedLoft G] [ClosedGts G] [ClosedClient G] [ClosedCores G] [ClosedLists G] [ClosedJobs G] [ClosedPtns G] [ClosedFlock G] [ClosedAdp G] [ClosedSync G] {e c s} (hs : Holds G s) :
    HoldsOut G (execRget e c s) := by
  unfold execRget
  refine HoldsOut.next ?_
  refine State.issue_holds hs ?_
  intro y1 y2 y3 h1
  extract_lets
  exact Holds.ite (State.flockFault_holds h1) (Holds.ite (State.addOp_holds h1) (State.request_holds h1 (fun y4 y5 y6 h2 => State.failGet_holds h2)))

theorem State.expireFor_holds [ClosedRegs G] [ClosedLarder G] [ClosedHost G] [ClosedFree G] [ClosedSeq G] [ClosedLoft G] [ClosedClient G] [ClosedCores G] [ClosedLists G] [ClosedJobs G] [ClosedPtns G] [ClosedFlock G] [ClosedAdp G] [ClosedSync G] {s e c op} (hs : Holds G s) :
    Holds G (State.expireFor s e c op) := by
  unfold State.expireFor
  exact Holds.ite (State.expireDue_holds hs) hs

theorem execSwait_holds [ClosedRegs G] [ClosedLarder G] [ClosedHost G] [ClosedFree G] [ClosedCel G] [ClosedSeq G] [ClosedLoft G] [ClosedClient G] [ClosedCores G] [ClosedLists G] [ClosedJobs G] [ClosedPtns G] [ClosedFlock G] [ClosedAdp G] [ClosedSync G] {e c s} (hs : Holds G s) :
    HoldsOut G (execSwait e c s) := by
  unfold execSwait
  refine HoldsOut.next ?_
  refine State.issue_holds (State.expireFor_holds hs) ?_
  intro y1 y2 y3 h1
  extract_lets
  exact Holds.ite (State.flockFault_holds h1) (State.settle_holds (State.arriveWait_holds (State.setThread_holds h1)))

theorem execSsig_holds [ClosedRegs G] [ClosedLarder G] [ClosedHost G] [ClosedFree G] [ClosedCel G] [ClosedSeq G] [ClosedLoft G] [ClosedClient G] [ClosedCores G] [ClosedLists G] [ClosedJobs G] [ClosedPtns G] [ClosedFlock G] [ClosedAdp G] [ClosedSync G] {e c s} (hs : Holds G s) :
    HoldsOut G (execSsig e c s) := by
  unfold execSsig
  refine HoldsOut.next ?_
  refine State.issue_holds (State.expireFor_holds hs) ?_
  intro y1 y2 y3 h1
  extract_lets
  exact Holds.ite (State.flockFault_holds h1) (State.settle_holds (State.signal_holds h1))

theorem execFence_holds [ClosedRegs G] [ClosedLarder G] [ClosedHost G] [ClosedFree G] [ClosedCel G] [ClosedSeq G] [ClosedLoft G] [ClosedClient G] [ClosedCores G] [ClosedLists G] [ClosedJobs G] [ClosedPtns G] [ClosedFlock G] [ClosedAdp G] [ClosedSync G] {e c s} (hs : Holds G s) :
    HoldsOut G (execFence e c s) := by
  unfold execFence
  exact HoldsOut.next (State.issue_holds hs (fun y1 y2 y3 h1 => State.setThread_holds h1))

theorem execRdt_holds [ClosedRegs G] [ClosedLarder G] [ClosedHost G] [ClosedFree G] [ClosedCel G] [ClosedSeq G] [ClosedLoft G] [ClosedClient G] [ClosedCores G] [ClosedLists G] [ClosedJobs G] [ClosedPtns G] [ClosedFlock G] [ClosedAdp G] [ClosedSync G] {e c s} (hs : Holds G s) :
    HoldsOut G (execRdt e c s) := by
  unfold execRdt
  refine HoldsOut.next ?_
  refine State.issue_holds hs ?_
  intro y1 y2 y3 h1
  extract_lets
  exact State.setThread_holds h1

theorem State.drainOps_holds [ClosedRegs G] [ClosedMem G] [ClosedLarder G] [ClosedHost G] [ClosedFree G] [ClosedCel G] [ClosedSeq G] [ClosedLoft G] [ClosedGts G] [ClosedClient G] [ClosedCores G] [ClosedLists G] [ClosedJobs G] [ClosedPtns G] [ClosedFlock G] [ClosedAdp G] [ClosedSync G] {s e c a3} (hs : Holds G s) :
    Holds G (State.drainOps s e c a3) := by
  induction a3 generalizing s e c with
  | zero =>
    unfold State.drainOps
    exact hs
  | succ k ih =>
    unfold State.drainOps
    split
    · exact hs
    · split
      · exact hs
      · split
        · exact hs
        · exact ih (State.runOp_holds hs)

theorem execExit_holds [ClosedRegs G] [ClosedMem G] [ClosedLarder G] [ClosedHost G] [ClosedFree G] [ClosedCel G] [ClosedSeq G] [ClosedLoft G] [ClosedGts G] [ClosedClient G] [ClosedCores G] [ClosedLists G] [ClosedJobs G] [ClosedPtns G] [ClosedFlock G] [ClosedAdp G] [ClosedSync G] {e c s} (hs : Holds G s) :
    HoldsOut G (execExit e c s) := by
  unfold execExit
  extract_lets t1
  have ht1 : Holds G t1 := Holds.ite (State.drainOps_holds hs) hs
  clear_value t1
  exact HoldsOut.next (Holds.ite ht1 (State.issue_holds ht1 (fun y1 y2 y3 h1 => State.settle_holds (State.threadEnded_holds (State.freeThread_holds h1)))))

theorem State.faultRelease_holds [ClosedRegs G] {s n} (hs : Holds G s) :
    Holds G (State.faultRelease s n) := by
  unfold State.faultRelease
  exact State.dropAll_holds hs

theorem execFaultRelease_holds [ClosedRegs G] {e s} (hs : Holds G s) :
    HoldsOut G (execFaultRelease e s) := by
  unfold execFaultRelease
  exact HoldsOut.next (State.written_holds hs (fun y1 h1 => State.faultRelease_holds h1))

theorem execAdd_holds [ClosedRegs G] [ClosedLarder G] [ClosedHost G] [ClosedFree G] [ClosedCel G] [ClosedSeq G] [ClosedLoft G] [ClosedClient G] [ClosedCores G] [ClosedLists G] [ClosedJobs G] [ClosedPtns G] [ClosedFlock G] [ClosedAdp G] [ClosedSync G] {e c s} (hs : Holds G s) :
    HoldsOut G (execAdd e c s) := by
  unfold execAdd
  exact HoldsOut.next (State.intOp_holds hs)

theorem execSub_holds [ClosedRegs G] [ClosedLarder G] [ClosedHost G] [ClosedFree G] [ClosedCel G] [ClosedSeq G] [ClosedLoft G] [ClosedClient G] [ClosedCores G] [ClosedLists G] [ClosedJobs G] [ClosedPtns G] [ClosedFlock G] [ClosedAdp G] [ClosedSync G] {e c s} (hs : Holds G s) :
    HoldsOut G (execSub e c s) := by
  unfold execSub
  exact HoldsOut.next (State.intOp_holds hs)

theorem execAnd_holds [ClosedRegs G] [ClosedLarder G] [ClosedHost G] [ClosedFree G] [ClosedCel G] [ClosedSeq G] [ClosedLoft G] [ClosedClient G] [ClosedCores G] [ClosedLists G] [ClosedJobs G] [ClosedPtns G] [ClosedFlock G] [ClosedAdp G] [ClosedSync G] {e c s} (hs : Holds G s) :
    HoldsOut G (execAnd e c s) := by
  unfold execAnd
  exact HoldsOut.next (State.intOp_holds hs)

theorem execOr_holds [ClosedRegs G] [ClosedLarder G] [ClosedHost G] [ClosedFree G] [ClosedCel G] [ClosedSeq G] [ClosedLoft G] [ClosedClient G] [ClosedCores G] [ClosedLists G] [ClosedJobs G] [ClosedPtns G] [ClosedFlock G] [ClosedAdp G] [ClosedSync G] {e c s} (hs : Holds G s) :
    HoldsOut G (execOr e c s) := by
  unfold execOr
  exact HoldsOut.next (State.intOp_holds hs)

theorem execXor_holds [ClosedRegs G] [ClosedLarder G] [ClosedHost G] [ClosedFree G] [ClosedCel G] [ClosedSeq G] [ClosedLoft G] [ClosedClient G] [ClosedCores G] [ClosedLists G] [ClosedJobs G] [ClosedPtns G] [ClosedFlock G] [ClosedAdp G] [ClosedSync G] {e c s} (hs : Holds G s) :
    HoldsOut G (execXor e c s) := by
  unfold execXor
  exact HoldsOut.next (State.intOp_holds hs)

theorem execShl_holds [ClosedRegs G] [ClosedLarder G] [ClosedHost G] [ClosedFree G] [ClosedCel G] [ClosedSeq G] [ClosedLoft G] [ClosedClient G] [ClosedCores G] [ClosedLists G] [ClosedJobs G] [ClosedPtns G] [ClosedFlock G] [ClosedAdp G] [ClosedSync G] {e c s} (hs : Holds G s) :
    HoldsOut G (execShl e c s) := by
  unfold execShl
  exact HoldsOut.next (State.intOp_holds hs)

theorem execShr_holds [ClosedRegs G] [ClosedLarder G] [ClosedHost G] [ClosedFree G] [ClosedCel G] [ClosedSeq G] [ClosedLoft G] [ClosedClient G] [ClosedCores G] [ClosedLists G] [ClosedJobs G] [ClosedPtns G] [ClosedFlock G] [ClosedAdp G] [ClosedSync G] {e c s} (hs : Holds G s) :
    HoldsOut G (execShr e c s) := by
  unfold execShr
  exact HoldsOut.next (State.intOp_holds hs)

theorem execSar_holds [ClosedRegs G] [ClosedLarder G] [ClosedHost G] [ClosedFree G] [ClosedCel G] [ClosedSeq G] [ClosedLoft G] [ClosedClient G] [ClosedCores G] [ClosedLists G] [ClosedJobs G] [ClosedPtns G] [ClosedFlock G] [ClosedAdp G] [ClosedSync G] {e c s} (hs : Holds G s) :
    HoldsOut G (execSar e c s) := by
  unfold execSar
  exact HoldsOut.next (State.intOp_holds hs)

theorem execSlt_holds [ClosedRegs G] [ClosedLarder G] [ClosedHost G] [ClosedFree G] [ClosedCel G] [ClosedSeq G] [ClosedLoft G] [ClosedClient G] [ClosedCores G] [ClosedLists G] [ClosedJobs G] [ClosedPtns G] [ClosedFlock G] [ClosedAdp G] [ClosedSync G] {e c s} (hs : Holds G s) :
    HoldsOut G (execSlt e c s) := by
  unfold execSlt
  exact HoldsOut.next (State.intOp_holds hs)

theorem execSltu_holds [ClosedRegs G] [ClosedLarder G] [ClosedHost G] [ClosedFree G] [ClosedCel G] [ClosedSeq G] [ClosedLoft G] [ClosedClient G] [ClosedCores G] [ClosedLists G] [ClosedJobs G] [ClosedPtns G] [ClosedFlock G] [ClosedAdp G] [ClosedSync G] {e c s} (hs : Holds G s) :
    HoldsOut G (execSltu e c s) := by
  unfold execSltu
  exact HoldsOut.next (State.intOp_holds hs)

theorem execMin_holds [ClosedRegs G] [ClosedLarder G] [ClosedHost G] [ClosedFree G] [ClosedCel G] [ClosedSeq G] [ClosedLoft G] [ClosedClient G] [ClosedCores G] [ClosedLists G] [ClosedJobs G] [ClosedPtns G] [ClosedFlock G] [ClosedAdp G] [ClosedSync G] {e c s} (hs : Holds G s) :
    HoldsOut G (execMin e c s) := by
  unfold execMin
  exact HoldsOut.next (State.intOp_holds hs)

theorem execMax_holds [ClosedRegs G] [ClosedLarder G] [ClosedHost G] [ClosedFree G] [ClosedCel G] [ClosedSeq G] [ClosedLoft G] [ClosedClient G] [ClosedCores G] [ClosedLists G] [ClosedJobs G] [ClosedPtns G] [ClosedFlock G] [ClosedAdp G] [ClosedSync G] {e c s} (hs : Holds G s) :
    HoldsOut G (execMax e c s) := by
  unfold execMax
  exact HoldsOut.next (State.intOp_holds hs)

theorem execClz_holds [ClosedRegs G] [ClosedLarder G] [ClosedHost G] [ClosedFree G] [ClosedCel G] [ClosedSeq G] [ClosedLoft G] [ClosedClient G] [ClosedCores G] [ClosedLists G] [ClosedJobs G] [ClosedPtns G] [ClosedFlock G] [ClosedAdp G] [ClosedSync G] {e c s} (hs : Holds G s) :
    HoldsOut G (execClz e c s) := by
  unfold execClz
  exact HoldsOut.next (State.intOp_holds hs)

theorem execPopc_holds [ClosedRegs G] [ClosedLarder G] [ClosedHost G] [ClosedFree G] [ClosedCel G] [ClosedSeq G] [ClosedLoft G] [ClosedClient G] [ClosedCores G] [ClosedLists G] [ClosedJobs G] [ClosedPtns G] [ClosedFlock G] [ClosedAdp G] [ClosedSync G] {e c s} (hs : Holds G s) :
    HoldsOut G (execPopc e c s) := by
  unfold execPopc
  exact HoldsOut.next (State.intOp_holds hs)

theorem execMul_holds [ClosedRegs G] [ClosedLarder G] [ClosedHost G] [ClosedFree G] [ClosedCel G] [ClosedSeq G] [ClosedLoft G] [ClosedClient G] [ClosedCores G] [ClosedLists G] [ClosedJobs G] [ClosedPtns G] [ClosedFlock G] [ClosedAdp G] [ClosedSync G] {e c s} (hs : Holds G s) :
    HoldsOut G (execMul e c s) := by
  unfold execMul
  exact HoldsOut.next (State.intOp_holds hs)

theorem execMulhu_holds [ClosedRegs G] [ClosedLarder G] [ClosedHost G] [ClosedFree G] [ClosedCel G] [ClosedSeq G] [ClosedLoft G] [ClosedClient G] [ClosedCores G] [ClosedLists G] [ClosedJobs G] [ClosedPtns G] [ClosedFlock G] [ClosedAdp G] [ClosedSync G] {e c s} (hs : Holds G s) :
    HoldsOut G (execMulhu e c s) := by
  unfold execMulhu
  exact HoldsOut.next (State.intOp_holds hs)

theorem execDivu_holds [ClosedRegs G] [ClosedLarder G] [ClosedHost G] [ClosedFree G] [ClosedCel G] [ClosedSeq G] [ClosedLoft G] [ClosedClient G] [ClosedCores G] [ClosedLists G] [ClosedJobs G] [ClosedPtns G] [ClosedFlock G] [ClosedAdp G] [ClosedSync G] {e c s} (hs : Holds G s) :
    HoldsOut G (execDivu e c s) := by
  unfold execDivu
  exact HoldsOut.next (State.intOp_holds hs)

theorem execFadd_holds [ClosedRegs G] [ClosedLarder G] [ClosedHost G] [ClosedFree G] [ClosedCel G] [ClosedSeq G] [ClosedLoft G] [ClosedClient G] [ClosedCores G] [ClosedLists G] [ClosedJobs G] [ClosedPtns G] [ClosedFlock G] [ClosedAdp G] [ClosedSync G] {e c s} (hs : Holds G s) :
    HoldsOut G (execFadd e c s) := by
  unfold execFadd
  exact HoldsOut.next (State.fpOp_holds hs)

theorem execFsub_holds [ClosedRegs G] [ClosedLarder G] [ClosedHost G] [ClosedFree G] [ClosedCel G] [ClosedSeq G] [ClosedLoft G] [ClosedClient G] [ClosedCores G] [ClosedLists G] [ClosedJobs G] [ClosedPtns G] [ClosedFlock G] [ClosedAdp G] [ClosedSync G] {e c s} (hs : Holds G s) :
    HoldsOut G (execFsub e c s) := by
  unfold execFsub
  exact HoldsOut.next (State.fpOp_holds hs)

theorem execFmul_holds [ClosedRegs G] [ClosedLarder G] [ClosedHost G] [ClosedFree G] [ClosedCel G] [ClosedSeq G] [ClosedLoft G] [ClosedClient G] [ClosedCores G] [ClosedLists G] [ClosedJobs G] [ClosedPtns G] [ClosedFlock G] [ClosedAdp G] [ClosedSync G] {e c s} (hs : Holds G s) :
    HoldsOut G (execFmul e c s) := by
  unfold execFmul
  exact HoldsOut.next (State.fpOp_holds hs)

theorem execFmin_holds [ClosedRegs G] [ClosedLarder G] [ClosedHost G] [ClosedFree G] [ClosedCel G] [ClosedSeq G] [ClosedLoft G] [ClosedClient G] [ClosedCores G] [ClosedLists G] [ClosedJobs G] [ClosedPtns G] [ClosedFlock G] [ClosedAdp G] [ClosedSync G] {e c s} (hs : Holds G s) :
    HoldsOut G (execFmin e c s) := by
  unfold execFmin
  exact HoldsOut.next (State.fpOp_holds hs)

theorem execFmax_holds [ClosedRegs G] [ClosedLarder G] [ClosedHost G] [ClosedFree G] [ClosedCel G] [ClosedSeq G] [ClosedLoft G] [ClosedClient G] [ClosedCores G] [ClosedLists G] [ClosedJobs G] [ClosedPtns G] [ClosedFlock G] [ClosedAdp G] [ClosedSync G] {e c s} (hs : Holds G s) :
    HoldsOut G (execFmax e c s) := by
  unfold execFmax
  exact HoldsOut.next (State.fpOp_holds hs)

theorem execFlt_holds [ClosedRegs G] [ClosedLarder G] [ClosedHost G] [ClosedFree G] [ClosedCel G] [ClosedSeq G] [ClosedLoft G] [ClosedClient G] [ClosedCores G] [ClosedLists G] [ClosedJobs G] [ClosedPtns G] [ClosedFlock G] [ClosedAdp G] [ClosedSync G] {e c s} (hs : Holds G s) :
    HoldsOut G (execFlt e c s) := by
  unfold execFlt
  exact HoldsOut.next (State.fpOp_holds hs)

theorem execFcvti_holds [ClosedRegs G] [ClosedLarder G] [ClosedHost G] [ClosedFree G] [ClosedCel G] [ClosedSeq G] [ClosedLoft G] [ClosedClient G] [ClosedCores G] [ClosedLists G] [ClosedJobs G] [ClosedPtns G] [ClosedFlock G] [ClosedAdp G] [ClosedSync G] {e c s} (hs : Holds G s) :
    HoldsOut G (execFcvti e c s) := by
  unfold execFcvti
  exact HoldsOut.next (State.fpOp_holds hs)

theorem execFcvtf_holds [ClosedRegs G] [ClosedLarder G] [ClosedHost G] [ClosedFree G] [ClosedCel G] [ClosedSeq G] [ClosedLoft G] [ClosedClient G] [ClosedCores G] [ClosedLists G] [ClosedJobs G] [ClosedPtns G] [ClosedFlock G] [ClosedAdp G] [ClosedSync G] {e c s} (hs : Holds G s) :
    HoldsOut G (execFcvtf e c s) := by
  unfold execFcvtf
  exact HoldsOut.next (State.alu_holds hs)

theorem execAddi_holds [ClosedRegs G] [ClosedLarder G] [ClosedHost G] [ClosedFree G] [ClosedCel G] [ClosedSeq G] [ClosedLoft G] [ClosedClient G] [ClosedCores G] [ClosedLists G] [ClosedJobs G] [ClosedPtns G] [ClosedFlock G] [ClosedAdp G] [ClosedSync G] {e c s} (hs : Holds G s) :
    HoldsOut G (execAddi e c s) := by
  unfold execAddi
  exact HoldsOut.next (State.immOp_holds hs)

theorem execAndi_holds [ClosedRegs G] [ClosedLarder G] [ClosedHost G] [ClosedFree G] [ClosedCel G] [ClosedSeq G] [ClosedLoft G] [ClosedClient G] [ClosedCores G] [ClosedLists G] [ClosedJobs G] [ClosedPtns G] [ClosedFlock G] [ClosedAdp G] [ClosedSync G] {e c s} (hs : Holds G s) :
    HoldsOut G (execAndi e c s) := by
  unfold execAndi
  exact HoldsOut.next (State.immOp_holds hs)

theorem execOri_holds [ClosedRegs G] [ClosedLarder G] [ClosedHost G] [ClosedFree G] [ClosedCel G] [ClosedSeq G] [ClosedLoft G] [ClosedClient G] [ClosedCores G] [ClosedLists G] [ClosedJobs G] [ClosedPtns G] [ClosedFlock G] [ClosedAdp G] [ClosedSync G] {e c s} (hs : Holds G s) :
    HoldsOut G (execOri e c s) := by
  unfold execOri
  exact HoldsOut.next (State.immOp_holds hs)

theorem execXori_holds [ClosedRegs G] [ClosedLarder G] [ClosedHost G] [ClosedFree G] [ClosedCel G] [ClosedSeq G] [ClosedLoft G] [ClosedClient G] [ClosedCores G] [ClosedLists G] [ClosedJobs G] [ClosedPtns G] [ClosedFlock G] [ClosedAdp G] [ClosedSync G] {e c s} (hs : Holds G s) :
    HoldsOut G (execXori e c s) := by
  unfold execXori
  exact HoldsOut.next (State.immOp_holds hs)

theorem execShi_holds [ClosedRegs G] [ClosedLarder G] [ClosedHost G] [ClosedFree G] [ClosedCel G] [ClosedSeq G] [ClosedLoft G] [ClosedClient G] [ClosedCores G] [ClosedLists G] [ClosedJobs G] [ClosedPtns G] [ClosedFlock G] [ClosedAdp G] [ClosedSync G] {e c s} (hs : Holds G s) :
    HoldsOut G (execShi e c s) := by
  unfold execShi
  exact HoldsOut.next (State.alu_holds hs)

theorem execLui_holds [ClosedRegs G] [ClosedLarder G] [ClosedHost G] [ClosedFree G] [ClosedCel G] [ClosedSeq G] [ClosedLoft G] [ClosedClient G] [ClosedCores G] [ClosedLists G] [ClosedJobs G] [ClosedPtns G] [ClosedFlock G] [ClosedAdp G] [ClosedSync G] {e c s} (hs : Holds G s) :
    HoldsOut G (execLui e c s) := by
  unfold execLui
  exact HoldsOut.next (State.immOp_holds hs)

theorem execSlti_holds [ClosedRegs G] [ClosedLarder G] [ClosedHost G] [ClosedFree G] [ClosedCel G] [ClosedSeq G] [ClosedLoft G] [ClosedClient G] [ClosedCores G] [ClosedLists G] [ClosedJobs G] [ClosedPtns G] [ClosedFlock G] [ClosedAdp G] [ClosedSync G] {e c s} (hs : Holds G s) :
    HoldsOut G (execSlti e c s) := by
  unfold execSlti
  exact HoldsOut.next (State.immOp_holds hs)

theorem execLd8_holds [ClosedRegs G] [ClosedLarder G] [ClosedHost G] [ClosedFree G] [ClosedCel G] [ClosedSeq G] [ClosedLoft G] [ClosedClient G] [ClosedCores G] [ClosedLists G] [ClosedJobs G] [ClosedPtns G] [ClosedFlock G] [ClosedAdp G] [ClosedSync G] {e c s} (hs : Holds G s) :
    HoldsOut G (execLd8 e c s) := by
  unfold execLd8
  exact HoldsOut.next (State.loadOp_holds hs)

theorem execLd16_holds [ClosedRegs G] [ClosedLarder G] [ClosedHost G] [ClosedFree G] [ClosedCel G] [ClosedSeq G] [ClosedLoft G] [ClosedClient G] [ClosedCores G] [ClosedLists G] [ClosedJobs G] [ClosedPtns G] [ClosedFlock G] [ClosedAdp G] [ClosedSync G] {e c s} (hs : Holds G s) :
    HoldsOut G (execLd16 e c s) := by
  unfold execLd16
  exact HoldsOut.next (State.loadOp_holds hs)

theorem execLd32_holds [ClosedRegs G] [ClosedLarder G] [ClosedHost G] [ClosedFree G] [ClosedCel G] [ClosedSeq G] [ClosedLoft G] [ClosedClient G] [ClosedCores G] [ClosedLists G] [ClosedJobs G] [ClosedPtns G] [ClosedFlock G] [ClosedAdp G] [ClosedSync G] {e c s} (hs : Holds G s) :
    HoldsOut G (execLd32 e c s) := by
  unfold execLd32
  exact HoldsOut.next (State.loadOp_holds hs)

theorem execLd64_holds [ClosedRegs G] [ClosedLarder G] [ClosedHost G] [ClosedFree G] [ClosedCel G] [ClosedSeq G] [ClosedLoft G] [ClosedClient G] [ClosedCores G] [ClosedLists G] [ClosedJobs G] [ClosedPtns G] [ClosedFlock G] [ClosedAdp G] [ClosedSync G] {e c s} (hs : Holds G s) :
    HoldsOut G (execLd64 e c s) := by
  unfold execLd64
  exact HoldsOut.next (State.loadOp_holds hs)

theorem execSt8_holds [ClosedRegs G] [ClosedLarder G] [ClosedHost G] [ClosedFree G] [ClosedCel G] [ClosedSeq G] [ClosedLoft G] [ClosedClient G] [ClosedCores G] [ClosedLists G] [ClosedJobs G] [ClosedPtns G] [ClosedFlock G] [ClosedAdp G] [ClosedSync G] {e c s} (hs : Holds G s) :
    HoldsOut G (execSt8 e c s) := by
  unfold execSt8
  exact HoldsOut.next (State.storeOp_holds hs)

theorem execSt16_holds [ClosedRegs G] [ClosedLarder G] [ClosedHost G] [ClosedFree G] [ClosedCel G] [ClosedSeq G] [ClosedLoft G] [ClosedClient G] [ClosedCores G] [ClosedLists G] [ClosedJobs G] [ClosedPtns G] [ClosedFlock G] [ClosedAdp G] [ClosedSync G] {e c s} (hs : Holds G s) :
    HoldsOut G (execSt16 e c s) := by
  unfold execSt16
  exact HoldsOut.next (State.storeOp_holds hs)

theorem execSt32_holds [ClosedRegs G] [ClosedLarder G] [ClosedHost G] [ClosedFree G] [ClosedCel G] [ClosedSeq G] [ClosedLoft G] [ClosedClient G] [ClosedCores G] [ClosedLists G] [ClosedJobs G] [ClosedPtns G] [ClosedFlock G] [ClosedAdp G] [ClosedSync G] {e c s} (hs : Holds G s) :
    HoldsOut G (execSt32 e c s) := by
  unfold execSt32
  exact HoldsOut.next (State.storeOp_holds hs)

theorem execSt64_holds [ClosedRegs G] [ClosedLarder G] [ClosedHost G] [ClosedFree G] [ClosedCel G] [ClosedSeq G] [ClosedLoft G] [ClosedClient G] [ClosedCores G] [ClosedLists G] [ClosedJobs G] [ClosedPtns G] [ClosedFlock G] [ClosedAdp G] [ClosedSync G] {e c s} (hs : Holds G s) :
    HoldsOut G (execSt64 e c s) := by
  unfold execSt64
  exact HoldsOut.next (State.storeOp_holds hs)

theorem execAadd_holds [ClosedRegs G] [ClosedLarder G] [ClosedHost G] [ClosedFree G] [ClosedCel G] [ClosedSeq G] [ClosedLoft G] [ClosedClient G] [ClosedCores G] [ClosedLists G] [ClosedJobs G] [ClosedPtns G] [ClosedFlock G] [ClosedAdp G] [ClosedSync G] {e c s} (hs : Holds G s) :
    HoldsOut G (execAadd e c s) := by
  unfold execAadd
  exact HoldsOut.next (State.atomicOp_holds hs)

theorem execAaddf_holds [ClosedRegs G] [ClosedLarder G] [ClosedHost G] [ClosedFree G] [ClosedCel G] [ClosedSeq G] [ClosedLoft G] [ClosedClient G] [ClosedCores G] [ClosedLists G] [ClosedJobs G] [ClosedPtns G] [ClosedFlock G] [ClosedAdp G] [ClosedSync G] {e c s} (hs : Holds G s) :
    HoldsOut G (execAaddf e c s) := by
  unfold execAaddf
  exact HoldsOut.next (State.atomicOp_holds hs)

theorem execAmin_holds [ClosedRegs G] [ClosedLarder G] [ClosedHost G] [ClosedFree G] [ClosedCel G] [ClosedSeq G] [ClosedLoft G] [ClosedClient G] [ClosedCores G] [ClosedLists G] [ClosedJobs G] [ClosedPtns G] [ClosedFlock G] [ClosedAdp G] [ClosedSync G] {e c s} (hs : Holds G s) :
    HoldsOut G (execAmin e c s) := by
  unfold execAmin
  exact HoldsOut.next (State.atomicOp_holds hs)

theorem execAmax_holds [ClosedRegs G] [ClosedLarder G] [ClosedHost G] [ClosedFree G] [ClosedCel G] [ClosedSeq G] [ClosedLoft G] [ClosedClient G] [ClosedCores G] [ClosedLists G] [ClosedJobs G] [ClosedPtns G] [ClosedFlock G] [ClosedAdp G] [ClosedSync G] {e c s} (hs : Holds G s) :
    HoldsOut G (execAmax e c s) := by
  unfold execAmax
  exact HoldsOut.next (State.atomicOp_holds hs)

theorem execAxchg_holds [ClosedRegs G] [ClosedLarder G] [ClosedHost G] [ClosedFree G] [ClosedCel G] [ClosedSeq G] [ClosedLoft G] [ClosedClient G] [ClosedCores G] [ClosedLists G] [ClosedJobs G] [ClosedPtns G] [ClosedFlock G] [ClosedAdp G] [ClosedSync G] {e c s} (hs : Holds G s) :
    HoldsOut G (execAxchg e c s) := by
  unfold execAxchg
  exact HoldsOut.next (State.atomicOp_holds hs)

theorem execAcas_holds [ClosedRegs G] [ClosedLarder G] [ClosedHost G] [ClosedFree G] [ClosedCel G] [ClosedSeq G] [ClosedLoft G] [ClosedClient G] [ClosedCores G] [ClosedLists G] [ClosedJobs G] [ClosedPtns G] [ClosedFlock G] [ClosedAdp G] [ClosedSync G] {e c s} (hs : Holds G s) :
    HoldsOut G (execAcas e c s) := by
  unfold execAcas
  exact HoldsOut.next (State.atomicOp_holds hs)

theorem execBeq_holds [ClosedRegs G] [ClosedLarder G] [ClosedHost G] [ClosedFree G] [ClosedCel G] [ClosedSeq G] [ClosedLoft G] [ClosedClient G] [ClosedCores G] [ClosedLists G] [ClosedJobs G] [ClosedPtns G] [ClosedFlock G] [ClosedAdp G] [ClosedSync G] {e c s} (hs : Holds G s) :
    HoldsOut G (execBeq e c s) := by
  unfold execBeq
  exact HoldsOut.next (State.branch_holds hs)

theorem execBne_holds [ClosedRegs G] [ClosedLarder G] [ClosedHost G] [ClosedFree G] [ClosedCel G] [ClosedSeq G] [ClosedLoft G] [ClosedClient G] [ClosedCores G] [ClosedLists G] [ClosedJobs G] [ClosedPtns G] [ClosedFlock G] [ClosedAdp G] [ClosedSync G] {e c s} (hs : Holds G s) :
    HoldsOut G (execBne e c s) := by
  unfold execBne
  exact HoldsOut.next (State.branch_holds hs)

theorem execBlt_holds [ClosedRegs G] [ClosedLarder G] [ClosedHost G] [ClosedFree G] [ClosedCel G] [ClosedSeq G] [ClosedLoft G] [ClosedClient G] [ClosedCores G] [ClosedLists G] [ClosedJobs G] [ClosedPtns G] [ClosedFlock G] [ClosedAdp G] [ClosedSync G] {e c s} (hs : Holds G s) :
    HoldsOut G (execBlt e c s) := by
  unfold execBlt
  exact HoldsOut.next (State.branch_holds hs)

theorem execBge_holds [ClosedRegs G] [ClosedLarder G] [ClosedHost G] [ClosedFree G] [ClosedCel G] [ClosedSeq G] [ClosedLoft G] [ClosedClient G] [ClosedCores G] [ClosedLists G] [ClosedJobs G] [ClosedPtns G] [ClosedFlock G] [ClosedAdp G] [ClosedSync G] {e c s} (hs : Holds G s) :
    HoldsOut G (execBge e c s) := by
  unfold execBge
  exact HoldsOut.next (State.branch_holds hs)

theorem execBltu_holds [ClosedRegs G] [ClosedLarder G] [ClosedHost G] [ClosedFree G] [ClosedCel G] [ClosedSeq G] [ClosedLoft G] [ClosedClient G] [ClosedCores G] [ClosedLists G] [ClosedJobs G] [ClosedPtns G] [ClosedFlock G] [ClosedAdp G] [ClosedSync G] {e c s} (hs : Holds G s) :
    HoldsOut G (execBltu e c s) := by
  unfold execBltu
  exact HoldsOut.next (State.branch_holds hs)

theorem execBgeu_holds [ClosedRegs G] [ClosedLarder G] [ClosedHost G] [ClosedFree G] [ClosedCel G] [ClosedSeq G] [ClosedLoft G] [ClosedClient G] [ClosedCores G] [ClosedLists G] [ClosedJobs G] [ClosedPtns G] [ClosedFlock G] [ClosedAdp G] [ClosedSync G] {e c s} (hs : Holds G s) :
    HoldsOut G (execBgeu e c s) := by
  unfold execBgeu
  exact HoldsOut.next (State.branch_holds hs)

theorem execJal_holds [ClosedRegs G] [ClosedLarder G] [ClosedHost G] [ClosedFree G] [ClosedCel G] [ClosedSeq G] [ClosedLoft G] [ClosedClient G] [ClosedCores G] [ClosedLists G] [ClosedJobs G] [ClosedPtns G] [ClosedFlock G] [ClosedAdp G] [ClosedSync G] {e c s} (hs : Holds G s) :
    HoldsOut G (execJal e c s) := by
  unfold execJal
  refine HoldsOut.next ?_
  refine State.issue_holds hs ?_
  intro y1 y2 y3 h1
  extract_lets
  exact State.setThread_holds h1

theorem execJr_holds [ClosedRegs G] [ClosedLarder G] [ClosedHost G] [ClosedFree G] [ClosedCel G] [ClosedSeq G] [ClosedLoft G] [ClosedClient G] [ClosedCores G] [ClosedLists G] [ClosedJobs G] [ClosedPtns G] [ClosedFlock G] [ClosedAdp G] [ClosedSync G] {e c s} (hs : Holds G s) :
    HoldsOut G (execJr e c s) := by
  unfold execJr
  exact HoldsOut.next (State.issue_holds hs (fun y1 y2 y3 h1 => State.setThread_holds h1))

end Sys2Proof.Machine
end

