-- ==== Sys2Proof/Laws/Gatis.lean ====
section
/-! SUPPORT. Laws/Gatis.lean: what the functions of Machine/Gatis.lean can change (Laws/Closure.lean). -/

namespace Sys2Proof.Machine

variable {G : State → Prop}

theorem execHelloSend_holds [ClosedGts G] {port s} (hs : Holds G s) :
    HoldsOut G (execHelloSend port s) := by
  unfold execHelloSend
  extract_lets
  exact HoldsOut.next (Holds.ite (State.sendHello_holds hs) hs)

theorem State.form_holds [ClosedRegs G] [ClosedGts G] {s id founder} (hs : Holds G s) :
    Holds G (State.form s id founder) := by
  unfold State.form
  refine Holds.ite hs ?_
  extract_lets _ _ t1
  have ht1 : Holds G t1 := State.put_holds (Holds.gts hs)
  exact Holds.ite (State.raise_holds ht1) ht1

theorem execHello_holds [ClosedRegs G] [ClosedGts G] [ClosedClk G] {port id peerPort serial members units founder s} (hs : Holds G s) :
    HoldsOut G (execHello port id peerPort serial members units founder s) := by
  unfold execHello
  extract_lets _ _ _ t1 _ t2 t3
  have ht1 : Holds G t1 := State.put_holds (State.put_holds (State.put_holds hs))
  have ht2 : Holds G t2 := State.setGport_holds (State.drop_holds ht1)
  have ht3 : Holds G t3 := State.portsChanged_holds (State.form_holds ht2)
  clear_value t1 t2 t3
  exact HoldsOut.next (Holds.ite hs (Holds.ite (State.put_holds (State.put_holds hs)) (Holds.foldl ht3 (fun y1 y2 h1 => State.sendOn_holds h1))))

theorem execLinkstate_holds [ClosedRegs G] [ClosedGts G] [ClosedClk G] {h links s} (hs : Holds G s) :
    HoldsOut G (execLinkstate h links s) := by
  unfold execLinkstate
  refine HoldsOut.next ?_
  split
  · exact Holds.of_pair (by assumption) (State.accept_holds hs)
  · extract_lets _ _ _ t1 t2
    have ht1 : Holds G t1 := Holds.gts (Holds.of_pair (by assumption) (State.accept_holds hs))
    have ht2 : Holds G t2 := State.relink_holds ht1
    clear_value t1 t2
    exact Holds.ite (Holds.of_pair (by assumption) (State.accept_holds hs)) (Holds.foldl ht2 (fun y1 y2 h1 => State.sendOn_holds h1))

theorem State.doubtOps_holds [ClosedRegs G] [ClosedFree G] [ClosedFlock G] {s k z a3} (hs : Holds G s) :
    Holds G (State.doubtOps s k z a3) := by
  induction a3 generalizing s k z with
  | zero =>
    unfold State.doubtOps
    exact hs
  | succ k ih =>
    unfold State.doubtOps
    extract_lets
    split
    · exact hs
    · exact ih (State.failSet_holds hs)

theorem State.rewriteMap_holds [ClosedRegs G] [ClosedMem G] [ClosedFree G] [ClosedCel G] [ClosedLoft G] [ClosedGts G] [ClosedFlock G] {s xs} (hs : Holds G s) :
    Holds G (State.rewriteMap s xs) := by
  unfold State.rewriteMap
  refine Holds.foldl hs ?_
  intro y1 y2 h1
  split
  · extract_lets
    refine Holds.ite h1 ?_
    split
    · extract_lets _ t1 _ _ t2
      have ht1 : Holds G t1 := State.store_holds (Holds.of_pair (by assumption) (State.readMap_holds h1))
      have ht2 : Holds G t2 := Holds.gts ht1
      clear_value t1 t2
      exact Holds.ite (State.doubtOps_holds ht2) ht2

theorem State.takeEpoch_holds [ClosedRegs G] {s epoch} (hs : Holds G s) :
    Holds G (State.takeEpoch s epoch) := by
  unfold State.takeEpoch
  exact Holds.ite hs (State.bump_holds (State.put_holds hs))

theorem State.readMaps_holds [ClosedRegs G] [ClosedCel G] [ClosedLoft G] {s} (hs : Holds G s) :
    Holds G (State.readMaps s).2 := by
  unfold State.readMaps
  refine Holds.foldl_snd hs ?_
  intro y1 y2 h1
  split
  · exact Holds.of_triple (by assumption) (State.load_holds h1)
  · exact Holds.of_triple (by assumption) (State.load_holds h1)

theorem State.promoteNow_holds [ClosedRegs G] [ClosedMem G] [ClosedFree G] [ClosedCel G] [ClosedLoft G] [ClosedGts G] [ClosedFlock G] {s} (hs : Holds G s) :
    Holds G (State.promoteNow s) := by
  unfold State.promoteNow
  refine Holds.ite hs ?_
  split
  · extract_lets _ _ t1
    have ht1 : Holds G t1 := State.takeEpoch_holds (State.rewriteMap_holds (Holds.of_pair (by assumption) (State.readMaps_holds hs)))
    clear_value t1
    exact Holds.ite (Holds.of_pair (by assumption) (State.readMaps_holds hs)) (Holds.foldl ht1 (fun y1 y2 h1 => State.sendBcast_holds h1))

theorem State.promoteStep_holds [ClosedRegs G] [ClosedMem G] [ClosedFree G] [ClosedCel G] [ClosedLoft G] [ClosedGts G] [ClosedFlock G] {s} (hs : Holds G s) :
    Holds G (State.promoteStep s) := by
  unfold State.promoteStep
  extract_lets _ t1
  have ht1 : Holds G t1 := Holds.gts hs
  clear_value t1
  exact Holds.ite hs (Holds.ite ht1 (State.promoteNow_holds ht1))

theorem State.reportDoubt_holds [ClosedRegs G] [ClosedGts G] {s ds} (hs : Holds G s) :
    Holds G (State.reportDoubt s ds) := by
  unfold State.reportDoubt
  extract_lets
  exact Holds.ite hs (Holds.foldl hs (fun y1 y2 h1 => State.sendTo_holds h1))

theorem execPromote_holds [ClosedRegs G] [ClosedMem G] [ClosedFree G] [ClosedCel G] [ClosedLoft G] [ClosedGts G] [ClosedFlock G] {h epoch changes s} (hs : Holds G s) :
    HoldsOut G (execPromote h epoch changes s) := by
  unfold execPromote
  extract_lets
  refine HoldsOut.next ?_
  refine Holds.ite ?_ ?_
  · refine State.deliverOrForward_holds hs ?_
    intro y1 h1
    extract_lets
    exact State.promoteNow_holds (Holds.gts h1)
  · split
    · exact Holds.of_pair (by assumption) (State.accept_holds hs)
    · extract_lets t1
      have ht1 : Holds G t1 := State.sendBcast_holds (Holds.of_pair (by assumption) (State.accept_holds hs))
      clear_value t1
      exact Holds.ite (Holds.of_pair (by assumption) (State.accept_holds hs)) (State.takeEpoch_holds (State.rewriteMap_holds ht1))

theorem execMemberLost_holds [ClosedRegs G] [ClosedMem G] [ClosedFree G] [ClosedCel G] [ClosedLoft G] [ClosedGts G] [ClosedFlock G] [ClosedClk G] {m synced s} (hs : Holds G s) :
    HoldsOut G (execMemberLost m synced s) := by
  unfold execMemberLost
  refine HoldsOut.next ?_
  split
  · exact hs
  · extract_lets _ t1 t2
    have ht1 : Holds G t1 := Holds.gts hs
    have ht2 : Holds G t2 := by
      refine Holds.ite ?_ ht1
      split
      · exact ht1
      · exact State.relink_holds (State.put_holds ht1)
    clear_value t1 t2
    exact Holds.ite hs (State.promoteNow_holds ht2)

theorem execTsyncSend_holds [ClosedGts G] {sub s} (hs : Holds G s) :
    HoldsOut G (execTsyncSend sub s) := by
  unfold execTsyncSend
  refine HoldsOut.next ?_
  split
  · exact hs
  · refine Holds.ite hs ?_
    split
    · extract_lets _ _ t1
      have ht1 : Holds G t1 := Holds.gts (Holds.of_pair (by assumption) (State.newTag_holds hs))
      clear_value t1
      exact State.sendOn_holds ht1

theorem execTsyncReq_holds [ClosedRegs G] [ClosedGts G] {h t1 sub2 sub3 s} (hs : Holds G s) :
    HoldsOut G (execTsyncReq h t1 sub2 sub3 s) := by
  unfold execTsyncReq
  exact HoldsOut.next (State.deliverOrForward_holds hs (fun y1 h1 => State.sendOn_holds h1))

theorem State.stepTime_holds [ClosedRegs G] [ClosedDtime G] [ClosedGts G] {s off} (hs : Holds G s) :
    Holds G (State.stepTime s off) := by
  unfold State.stepTime
  extract_lets
  exact State.drop_holds (Holds.dtime_gts (fun h => toU64_grid _ h) hs)

theorem State.takeOffset_holds [ClosedRegs G] [ClosedDtime G] [ClosedGts G] {s off} (hs : Holds G s) :
    Holds G (State.takeOffset s off) := by
  unfold State.takeOffset
  extract_lets _ _ _ _ t1 t2 t3 _ t4 _ t5
  have ht1 : Holds G t1 := Holds.gts hs
  have ht2 : Holds G t2 := Holds.ite (State.drop_holds ht1) ht1
  have ht3 : Holds G t3 := Holds.ite (State.raise_holds ht2) ht2
  have ht4 : Holds G t4 := Holds.gts ht3
  have ht5 : Holds G t5 := Holds.ite (State.stepTime_holds ht2) (State.drop_holds (Holds.gts ht2))
  clear_value t1 t2 t3 t4 t5
  exact Holds.ite (Holds.ite (State.raise_holds ht4) ht4) (Holds.ite (State.raise_holds ht5) ht5)

theorem execTsyncResp_holds [ClosedRegs G] [ClosedDtime G] [ClosedFree G] [ClosedGts G] {h t2 t3 sub s} (hs : Holds G s) :
    HoldsOut G (execTsyncResp h t2 t3 sub s) := by
  unfold execTsyncResp
  refine HoldsOut.next ?_
  refine State.deliverOrForward_holds hs ?_
  intro y1 h1
  split
  · exact h1
  · extract_lets _ _ _ _ t1
    have ht1 : Holds G t1 := Holds.gts h1
    clear_value t1
    refine Holds.ite h1 ?_
    split
    · extract_lets t2
      have ht2 : Holds G t2 := Holds.ite (State.put_holds (Holds.of_pair (by assumption) (State.draw_holds ht1))) (State.putInt_holds ht1)
      clear_value t2
      exact State.takeOffset_holds (State.put_holds ht2)

theorem execTsyncTimeout_holds [ClosedRegs G] [ClosedGts G] {s} (hs : Holds G s) :
    HoldsOut G (execTsyncTimeout s) := by
  unfold execTsyncTimeout
  extract_lets
  exact HoldsOut.next (Holds.ite (State.drop_holds (Holds.gts hs)) hs)

theorem execSetReq_holds [ClosedRegs G] [ClosedMem G] [ClosedFree G] [ClosedCel G] [ClosedLoft G] [ClosedGts G] {h op set key node s} (hs : Holds G s) :
    HoldsOut G (execSetReq h op set key node s) := by
  unfold execSetReq
  exact HoldsOut.next (State.deliverOrForward_holds hs (fun y1 h1 => State.serveSet_holds h1))

theorem execSetResp_holds [ClosedRegs G] [ClosedFree G] [ClosedGts G] [ClosedFlock G] {h value stale s} (hs : Holds G s) :
    HoldsOut G (execSetResp h value stale s) := by
  unfold execSetResp
  refine HoldsOut.next ?_
  refine State.deliverOrForward_holds hs ?_
  intro y1 h1
  split
  · exact h1
  · exact Holds.ite (State.failSet_holds h1) (State.finishSet_holds h1)

theorem execRepl_holds [ClosedRegs G] [ClosedMem G] [ClosedCel G] [ClosedLoft G] [ClosedGts G] {h set key bucket entry st node s} (hs : Holds G s) :
    HoldsOut G (execRepl h set key bucket entry st node s) := by
  unfold execRepl
  extract_lets
  refine HoldsOut.next ?_
  refine State.deliverOrForward_holds hs ?_
  intro y1 h1
  extract_lets
  refine Holds.ite h1 ?_
  split
  · refine Holds.ite (Holds.of_pair (by assumption) (State.readMap_holds h1)) ?_
    split
    · exact State.sendLookup_holds (Holds.of_pair (by assumption) (State.writeEntry_holds (Holds.of_pair (by assumption) (State.readMap_holds h1))))
    · exact Holds.of_pair (by assumption) (State.writeEntry_holds (Holds.of_pair (by assumption) (State.readMap_holds h1)))
  · exact Holds.of_pair (by assumption) (State.readMap_holds h1)

theorem execReplAck_holds [ClosedRegs G] [ClosedGts G] [ClosedFlock G] {h s} (hs : Holds G s) :
    HoldsOut G (execReplAck h s) := by
  unfold execReplAck
  refine HoldsOut.next ?_
  refine State.deliverOrForward_holds hs ?_
  intro y1 h1
  split
  · exact h1
  · extract_lets _ t1
    have ht1 : Holds G t1 := Holds.gts h1
    clear_value t1
    split
    · exact State.answerSet_holds ht1
    · split
      · exact State.finishSet_holds ht1
      · exact ht1

theorem execRgetReq_holds [ClosedRegs G] [ClosedCel G] [ClosedLoft G] [ClosedGts G] {h addr s} (hs : Holds G s) :
    HoldsOut G (execRgetReq h addr s) := by
  unfold execRgetReq
  refine HoldsOut.next ?_
  refine State.deliverOrForward_holds hs ?_
  intro y1 h1
  split
  · exact State.sendLookup_holds (Holds.of_pair (by assumption) (State.windowRead_holds h1))
  · exact State.sendLookup_holds (Holds.of_pair (by assumption) (State.windowRead_holds h1))

theorem execRgetResp_holds [ClosedRegs G] [ClosedGts G] [ClosedFlock G] {h data s} (hs : Holds G s) :
    HoldsOut G (execRgetResp h data s) := by
  unfold execRgetResp
  extract_lets
  refine HoldsOut.next ?_
  refine State.deliverOrForward_holds hs ?_
  intro y1 h1
  split
  · exact h1
  · split
    · exact State.finishOp_holds h1
    · exact State.failGet_holds h1

theorem State.setHalo_holds [ClosedGts G] {s e strip x} (hs : Holds G s) :
    Holds G (State.setHalo s e strip x) := by
  unfold State.setHalo
  extract_lets
  exact Holds.gts hs

theorem State.haloTake_holds [ClosedRegs G] [ClosedMem G] [ClosedLarder G] [ClosedHost G] [ClosedFree G] [ClosedCel G] [ClosedSeq G] [ClosedLoft G] [ClosedGts G] [ClosedClient G] [ClosedCores G] [ClosedLists G] [ClosedJobs G] [ClosedPtns G] [ClosedFlock G] [ClosedAdp G] [ClosedSync G] {s part e strip off total bs} (hs : Holds G s) :
    Holds G (State.haloTake s part e strip off total bs) := by
  unfold State.haloTake
  extract_lets _ _ _ _ _ _ _ t1 _
  have ht1 : Holds G t1 := State.setHalo_holds hs
  clear_value t1
  refine Holds.ite (Holds.ite (State.bump_holds ht1) ht1) ?_
  refine Holds.ite (State.bump_holds hs) ?_
  split
  · extract_lets t2
    have ht2 : Holds G t2 := State.setHalo_holds (Holds.of_pair (by assumption) (State.store_holds hs))
    clear_value t2
    exact Holds.ite (State.settle_holds (State.signal_holds (State.bump_holds ht2))) ht2
  · exact State.bump_holds (State.setHalo_holds (Holds.of_pair (by assumption) (State.store_holds hs)))

theorem execHalo_holds [ClosedRegs G] [ClosedMem G] [ClosedLarder G] [ClosedHost G] [ClosedFree G] [ClosedCel G] [ClosedSeq G] [ClosedLoft G] [ClosedGts G] [ClosedClient G] [ClosedCores G] [ClosedLists G] [ClosedJobs G] [ClosedPtns G] [ClosedFlock G] [ClosedAdp G] [ClosedSync G] {h entry strip off total bytes s} (hs : Holds G s) :
    HoldsOut G (execHalo h entry strip off total bytes s) := by
  unfold execHalo
  extract_lets
  exact HoldsOut.next (State.deliverOrForward_holds hs (fun y1 h1 => Holds.ite (State.haloTake_holds h1) (State.bump_holds h1)))

theorem execAckSend_holds [ClosedGts G] {port s} (hs : Holds G s) :
    HoldsOut G (execAckSend port s) := by
  unfold execAckSend
  extract_lets
  exact HoldsOut.next (Holds.ite (State.sendCtl_holds (State.setGport_holds hs)) hs)

theorem execAckSet_holds [ClosedGts G] {port lseq s} (hs : Holds G s) :
    HoldsOut G (execAckSet port lseq s) := by
  unfold execAckSet
  extract_lets
  refine HoldsOut.next ?_
  refine Holds.ite ?_ hs
  split
  · exact hs
  · extract_lets
    exact State.pumpPort_holds (State.setGport_holds hs)

theorem execNak_holds [ClosedRegs G] [ClosedLoft G] [ClosedGts G] [ClosedClk G] {port lseq s} (hs : Holds G s) :
    HoldsOut G (execNak port lseq s) := by
  unfold execNak
  extract_lets _ t1 _ _
  have ht1 : Holds G t1 := State.bump_holds hs
  clear_value t1
  exact HoldsOut.next (Holds.ite (Holds.ite (State.linkDown_holds (State.bump_holds ht1)) (State.setGport_holds ht1)) hs)

theorem execCred_holds [ClosedGts G] {port vc part units s} (hs : Holds G s) :
    HoldsOut G (execCred port vc part units s) := by
  unfold execCred
  extract_lets
  exact HoldsOut.next (Holds.ite (State.pumpPort_holds (State.setGport_holds hs)) hs)

theorem execPacketError_holds [ClosedGts G] {received s} (hs : Holds G s) :
    HoldsOut G (execPacketError received s) := by
  unfold execPacketError
  extract_lets
  exact HoldsOut.next (Holds.ite hs (Holds.ite hs (State.sendCtl_holds (State.setGport_holds hs))))

theorem State.markDoubt_holds [ClosedCel G] {s ds} (hs : Holds G s) :
    Holds G (State.markDoubt s ds) := by
  unfold State.markDoubt
  extract_lets
  exact Holds.cel hs

theorem execPageRetire_holds [ClosedRegs G] [ClosedMem G] [ClosedFree G] [ClosedCel G] [ClosedLoft G] [ClosedGts G] [ClosedFlock G] {s} (hs : Holds G s) :
    HoldsOut G (execPageRetire s) := by
  unfold execPageRetire
  refine HoldsOut.next ?_
  split
  · exact hs
  · split
    · refine Holds.ite (Holds.of_pair (by assumption) (State.retire_holds hs)) ?_
      split
      · extract_lets
        exact Holds.ite (Holds.of_pair (by assumption) (State.readMaps_holds (Holds.of_pair (by assumption) (State.retire_holds hs)))) (State.promoteNow_holds (State.reportDoubt_holds (State.markDoubt_holds (Holds.of_pair (by assumption) (State.readMaps_holds (Holds.of_pair (by assumption) (State.retire_holds hs)))))))

end Sys2Proof.Machine
end

