-- ==== Sys2Proof/Laws/Larder.lean ====
section
/-! SUPPORT. Laws/Larder.lean: what the functions of Machine/Larder.lean can change (Laws/Closure.lean). -/

namespace Sys2Proof.Machine

variable {G : State → Prop}

theorem State.ldrWriteN_holds [ClosedLarder G] [ClosedCores G] {s n a2 a3 a4} (hs : Holds G s) :
    Holds G (State.ldrWriteN s n a2 a3 a4) := by
  induction a2 generalizing s a3 a4 with
  | zero =>
    unfold State.ldrWriteN
    exact hs
  | succ k ih =>
    cases a4 with
    | nil =>
      unfold State.ldrWriteN
      exact hs
    | cons b bs =>
      unfold State.ldrWriteN
      extract_lets
      exact ih (State.larderWrite_holds hs)

theorem State.ldrWrite_holds [ClosedLarder G] [ClosedCores G] {s n a bs} (hs : Holds G s) :
    Holds G (State.ldrWrite s n a bs) := by
  unfold State.ldrWrite
  exact State.ldrWriteN_holds hs

theorem State.rowCheck_holds [ClosedRegs G] [ClosedCores G] {s n row} (hs : Holds G s) :
    Holds G (State.rowCheck s n row).2 := by
  unfold State.rowCheck
  extract_lets x1 _ x3 t1
  have ht1 : Holds G t1 := State.setCore_holds hs
  clear_value t1
  split
  · clear_value x1 x3
    split
    · exact hs
    · exact hs
  · clear_value x1 x3
    split
    · exact hs
    · exact State.put_holds (State.bump_holds ht1)

theorem State.rowsCheck_holds [ClosedRegs G] [ClosedCores G] {s n a2} (hs : Holds G s) :
    Holds G (State.rowsCheck s n a2).2 := by
  induction a2 generalizing s n with
  | nil =>
    unfold State.rowsCheck
    exact hs
  | cons x xs ih =>
    unfold State.rowsCheck
    split
    · exact ih (Holds.of_pair (by assumption) (State.rowCheck_holds hs))
    · exact State.rowCheck_holds hs

theorem State.cycleCheck_holds [ClosedRegs G] [ClosedCores G] {s n rows} (hs : Holds G s) :
    Holds G (State.cycleCheck s n rows).2 := by
  unfold State.cycleCheck
  refine Holds.foldl_snd hs ?_
  intro y1 y2 h1
  split
  · exact Holds.of_pair (by assumption) (State.rowCheck_holds h1)
  · exact Holds.of_pair (by assumption) (State.rowCheck_holds h1)
  · exact State.rowCheck_holds h1

theorem State.cyclesCheck_holds [ClosedRegs G] [ClosedCores G] {s n a2} (hs : Holds G s) :
    Holds G (State.cyclesCheck s n a2).2.1 := by
  induction a2 generalizing s n with
  | nil =>
    unfold State.cyclesCheck
    exact hs
  | cons x xs ih =>
    unfold State.cyclesCheck
    split
    · split
      · exact Holds.of_mid (by assumption) (ih (Holds.of_pair (by assumption) (State.cycleCheck_holds hs)))
    · exact Holds.of_pair (by assumption) (State.cycleCheck_holds hs)

theorem State.offPlan_holds [ClosedRegs G] {s n mask rows} (hs : Holds G s) :
    Holds G (State.offPlan s n mask rows) := by
  unfold State.offPlan
  exact State.bumpBy_holds hs

theorem State.rowsRead_holds [ClosedRegs G] [ClosedCores G] {s n mask a3} (hs : Holds G s) :
    Holds G (State.rowsRead s n mask a3).2 := by
  induction a3 generalizing s n mask with
  | nil =>
    unfold State.rowsRead
    exact hs
  | cons x xs ih =>
    unfold State.rowsRead
    split
    · exact ih (Holds.of_pair (by assumption) (State.rowCheck_holds (State.offPlan_holds hs)))
    · exact State.rowCheck_holds (State.offPlan_holds hs)

theorem State.narrowRead_holds [ClosedRegs G] [ClosedCores G] {s n a2} (hs : Holds G s) :
    Holds G (State.narrowRead s n a2).2 := by
  induction a2 generalizing s n with
  | nil =>
    unfold State.narrowRead
    exact hs
  | cons x xs ih =>
    unfold State.narrowRead
    split
    · exact ih (Holds.of_pair (by assumption) (State.rowCheck_holds (Holds.ite (State.bump_holds hs) hs)))
    · exact State.rowCheck_holds (Holds.ite (State.bump_holds hs) hs)

theorem State.stopCommand_holds [ClosedRegs G] [ClosedLarder G] [ClosedHost G] [ClosedFree G] [ClosedSeq G] [ClosedLoft G] [ClosedClient G] [ClosedCores G] [ClosedLists G] [ClosedJobs G] [ClosedPtns G] [ClosedFlock G] [ClosedAdp G] [ClosedSync G] {s n a2} (hs : Holds G s) :
    Holds G (State.stopCommand s n a2) := by
  unfold State.stopCommand
  split
  · exact State.settle_holds (State.tearList_holds hs)
  · exact State.settle_holds (State.tearList_holds (State.put_holds hs))
  · exact State.settle_holds (State.tearList_holds hs)
  · exact State.settle_holds (State.larderHard_holds hs)

end Sys2Proof.Machine
end

