-- ==== Sys2Proof/Laws/Issue.lean ====
section
/-! SUPPORT. Laws/Issue.lean: what the functions of Machine/Issue.lean can change (Laws/Closure.lean). -/

namespace Sys2Proof.Machine

variable {G : State → Prop}

theorem State.fetched_holds [ClosedRegs G] [ClosedLarder G] [ClosedHost G] [ClosedFree G] [ClosedCel G] [ClosedSeq G] [ClosedLoft G] [ClosedClient G] [ClosedCores G] [ClosedLists G] [ClosedJobs G] [ClosedPtns G] [ClosedFlock G] [ClosedAdp G] [ClosedSync G] {s k l r f} (hs : Holds G s) (hf : ∀ y0, Holds G y0 → Holds G (f y0)) :
    Holds G (State.fetched s k l r f) := by
  unfold State.fetched
  split
  · exact hf _ (Holds.of_triple (by assumption) (State.load_holds hs))
  · exact State.settle_holds (State.tearList_holds (Holds.of_triple (by assumption) (State.load_holds hs)))
  · exact State.settle_holds (State.tearList_holds (Holds.of_triple (by assumption) (State.load_holds hs)))

theorem State.denied_holds [ClosedRegs G] [ClosedFree G] {s n port} (hs : Holds G s) :
    Holds G (State.denied s n port) := by
  unfold State.denied
  split
  · split
    · exact State.bumpBy_holds (Holds.of_pair (by assumption) (State.draw_holds hs))
    · exact State.bumpBy_holds (State.bumpBy_holds (Holds.of_pair (by assumption) (State.draw_holds hs)))
    · exact State.bumpBy_holds (Holds.of_pair (by assumption) (State.draw_holds hs))
    · exact State.bumpBy_holds (State.bumpBy_holds (Holds.of_pair (by assumption) (State.draw_holds hs)))
    · exact State.bumpBy_holds (Holds.of_pair (by assumption) (State.draw_holds hs))

theorem State.issueCommand_holds [ClosedRegs G] [ClosedFree G] [ClosedLists G] {s n l r u} (hs : Holds G s) :
    Holds G (State.issueCommand s n l r u) := by
  unfold State.issueCommand
  extract_lets _ _ t1 _ _ t2
  have ht1 : Holds G t1 := Holds.foldl hs (fun y1 y2 h1 => State.denied_holds h1)
  have ht2 : Holds G t2 := State.setList_holds ht1
  clear_value t1 t2
  exact Holds.ite (State.raise_holds ht2) ht2

theorem State.endCommand_holds [ClosedRegs G] [ClosedLarder G] [ClosedHost G] [ClosedFree G] [ClosedSeq G] [ClosedLoft G] [ClosedClient G] [ClosedCores G] [ClosedLists G] [ClosedJobs G] [ClosedPtns G] [ClosedFlock G] [ClosedAdp G] [ClosedSync G] {n x} (hx : Holds G x.2) :
    Holds G (State.endCommand n x) := by
  unfold State.endCommand
  split
  · exact hx
  · exact State.stopCommand_holds hx

end Sys2Proof.Machine
end

