-- ==== Sys2Proof/Laws/Lists.lean ====
section
/-! SUPPORT. Laws/Lists.lean: what the functions of Machine/Lists.lean can change (Laws/Closure.lean). -/

namespace Sys2Proof.Machine

variable {G : State → Prop}

theorem State.lineIn_holds [ClosedRegs G] [ClosedLarder G] [ClosedCel G] [ClosedLoft G] [ClosedCores G] {s n part mem ldr k} (hs : Holds G s) :
    Holds G (State.lineIn s n part mem ldr k).2 := by
  unfold State.lineIn
  split
  · split
    · exact State.ldrWrite_holds (Holds.of_pair (by assumption) (State.narrowRead_holds (Holds.of_triple (by assumption) (State.load_holds hs))))
    · exact State.narrowRead_holds (Holds.of_triple (by assumption) (State.load_holds hs))
  · exact Holds.of_triple (by assumption) (State.load_holds hs)
  · exact Holds.of_triple (by assumption) (State.load_holds hs)

theorem State.lineOut_holds [ClosedRegs G] [ClosedMem G] [ClosedCel G] [ClosedLoft G] [ClosedCores G] {s n part mem ldr k} (hs : Holds G s) :
    Holds G (State.lineOut s n part mem ldr k).2 := by
  unfold State.lineOut
  split
  · split
    · exact Holds.of_pair (by assumption) (State.store_holds (Holds.of_pair (by assumption) (State.narrowRead_holds hs)))
    · exact Holds.of_pair (by assumption) (State.store_holds (Holds.of_pair (by assumption) (State.narrowRead_holds hs)))
    · exact Holds.of_pair (by assumption) (State.store_holds (Holds.of_pair (by assumption) (State.narrowRead_holds hs)))
  · exact State.narrowRead_holds hs

theorem State.xferLines_holds [ClosedRegs G] [ClosedMem G] [ClosedLarder G] [ClosedCel G] [ClosedLoft G] [ClosedCores G] {s toLarder n part k lst mst a7 a8 a9} (hs : Holds G s) :
    Holds G (State.xferLines s toLarder n part k lst mst a7 a8 a9).2 := by
  induction a7 generalizing s toLarder n part k lst mst a8 a9 with
  | zero =>
    unfold State.xferLines
    exact hs
  | succ k ih =>
    unfold State.xferLines
    split
    · refine ih ?_
      refine Holds.of_pair (by assumption) ?_
      split
      · exact State.lineIn_holds hs
      · exact State.lineOut_holds hs
    · split
      · exact State.lineIn_holds hs
      · exact State.lineOut_holds hs

theorem State.xferWaits_holds [ClosedRegs G] [ClosedFree G] {s part mem k mst lines} (hs : Holds G s) :
    Holds G (State.xferWaits s part mem k mst lines) := by
  unfold State.xferWaits
  extract_lets
  refine Holds.ite hs ?_
  split
  · exact State.bumpBy_holds (Holds.of_pair (by assumption) (State.draw_holds hs))

theorem State.xfer_holds [ClosedRegs G] [ClosedMem G] [ClosedLarder G] [ClosedHost G] [ClosedFree G] [ClosedCel G] [ClosedSeq G] [ClosedLoft G] [ClosedClient G] [ClosedCores G] [ClosedLists G] [ClosedJobs G] [ClosedPtns G] [ClosedFlock G] [ClosedAdp G] [ClosedSync G] {s n toLarder} (hs : Holds G s) :
    Holds G (State.xfer s n toLarder) := by
  unfold State.xfer
  split
  · exact hs
  · refine Holds.ite hs ?_
    refine State.fetched_holds hs ?_
    intro y1 h1
    extract_lets t1 _ _ _ _
    have ht1 : Holds G t1 := State.issueCommand_holds h1
    clear_value t1
    split
    · exact State.stopCommand_holds ht1
    · extract_lets _ t2
      have ht2 : Holds G t2 := State.xferWaits_holds ht1
      clear_value t2
      exact Holds.ite (State.stopCommand_holds ht1) (State.endCommand_holds (State.xferLines_holds ht2))

theorem execXferToLarder_holds [ClosedRegs G] [ClosedMem G] [ClosedLarder G] [ClosedHost G] [ClosedFree G] [ClosedCel G] [ClosedSeq G] [ClosedLoft G] [ClosedClient G] [ClosedCores G] [ClosedLists G] [ClosedJobs G] [ClosedPtns G] [ClosedFlock G] [ClosedAdp G] [ClosedSync G] {core s} (hs : Holds G s) :
    HoldsOut G (execXferToLarder core s) := by
  unfold execXferToLarder
  exact HoldsOut.next (State.xfer_holds hs)

theorem execXferFromLarder_holds [ClosedRegs G] [ClosedMem G] [ClosedLarder G] [ClosedHost G] [ClosedFree G] [ClosedCel G] [ClosedSeq G] [ClosedLoft G] [ClosedClient G] [ClosedCores G] [ClosedLists G] [ClosedJobs G] [ClosedPtns G] [ClosedFlock G] [ClosedAdp G] [ClosedSync G] {core s} (hs : Holds G s) :
    HoldsOut G (execXferFromLarder core s) := by
  unfold execXferFromLarder
  exact HoldsOut.next (State.xfer_holds hs)

theorem execCommandComplete_holds [ClosedRegs G] [ClosedLarder G] [ClosedHost G] [ClosedFree G] [ClosedSeq G] [ClosedLoft G] [ClosedClient G] [ClosedCores G] [ClosedLists G] [ClosedJobs G] [ClosedPtns G] [ClosedFlock G] [ClosedAdp G] [ClosedSync G] {core u s} (hs : Holds G s) :
    HoldsOut G (execCommandComplete core u s) := by
  unfold execCommandComplete
  extract_lets
  refine HoldsOut.next ?_
  split
  · exact hs
  · split
    · exact hs
    · extract_lets _ t1
      have ht1 : Holds G t1 := State.setList_holds hs
      clear_value t1
      exact Holds.ite (State.settle_holds (State.tearList_holds hs)) (Holds.ite (State.drop_holds ht1) ht1)

theorem execMaxdurExpire_holds [ClosedRegs G] [ClosedLarder G] [ClosedHost G] [ClosedFree G] [ClosedSeq G] [ClosedLoft G] [ClosedClient G] [ClosedCores G] [ClosedLists G] [ClosedJobs G] [ClosedPtns G] [ClosedFlock G] [ClosedAdp G] [ClosedSync G] {core u s} (hs : Holds G s) :
    HoldsOut G (execMaxdurExpire core u s) := by
  unfold execMaxdurExpire
  extract_lets
  refine HoldsOut.next ?_
  split
  · exact hs
  · split
    · exact hs
    · exact Holds.ite (State.settle_holds (State.tearList_holds hs)) hs

theorem State.waitRecord_holds [ClosedRegs G] [ClosedLarder G] [ClosedHost G] [ClosedFree G] [ClosedCel G] [ClosedSeq G] [ClosedLoft G] [ClosedClient G] [ClosedCores G] [ClosedLists G] [ClosedJobs G] [ClosedPtns G] [ClosedFlock G] [ClosedAdp G] [ClosedSync G] {s k} (hs : Holds G s) :
    Holds G (State.waitRecord s k) := by
  unfold State.waitRecord
  split
  · exact hs
  · refine State.fetched_holds hs ?_
    intro y1 h1
    extract_lets
    exact Holds.ite (State.settle_holds (State.tearList_holds h1)) (State.settle_holds (State.arriveWait_holds (State.setList_holds h1)))

theorem State.signalRecord_holds [ClosedRegs G] [ClosedLarder G] [ClosedHost G] [ClosedFree G] [ClosedCel G] [ClosedSeq G] [ClosedLoft G] [ClosedClient G] [ClosedCores G] [ClosedLists G] [ClosedJobs G] [ClosedPtns G] [ClosedFlock G] [ClosedAdp G] [ClosedSync G] {s k} (hs : Holds G s) :
    Holds G (State.signalRecord s k) := by
  unfold State.signalRecord
  split
  · exact hs
  · extract_lets
    exact Holds.ite hs (State.fetched_holds hs (fun y1 h1 => Holds.ite (State.settle_holds (State.tearList_holds h1)) (State.settle_holds (State.signal_holds (State.setList_holds h1)))))

theorem execWaitRecord_holds [ClosedRegs G] [ClosedLarder G] [ClosedHost G] [ClosedFree G] [ClosedCel G] [ClosedSeq G] [ClosedLoft G] [ClosedClient G] [ClosedCores G] [ClosedLists G] [ClosedJobs G] [ClosedPtns G] [ClosedFlock G] [ClosedAdp G] [ClosedSync G] {ctx s} (hs : Holds G s) :
    HoldsOut G (execWaitRecord ctx s) := by
  unfold execWaitRecord
  extract_lets
  exact HoldsOut.next (Holds.ite (State.waitRecord_holds (State.expireDue_holds hs)) hs)

theorem execSignalRecord_holds [ClosedRegs G] [ClosedLarder G] [ClosedHost G] [ClosedFree G] [ClosedCel G] [ClosedSeq G] [ClosedLoft G] [ClosedClient G] [ClosedCores G] [ClosedLists G] [ClosedJobs G] [ClosedPtns G] [ClosedFlock G] [ClosedAdp G] [ClosedSync G] {ctx s} (hs : Holds G s) :
    HoldsOut G (execSignalRecord ctx s) := by
  unfold execSignalRecord
  extract_lets
  refine HoldsOut.next ?_
  split
  · exact hs
  · exact Holds.ite (State.signalRecord_holds (State.expireDue_holds hs)) hs

theorem execLaunch_holds [ClosedRegs G] [ClosedLarder G] [ClosedHost G] [ClosedFree G] [ClosedCel G] [ClosedSeq G] [ClosedLoft G] [ClosedClient G] [ClosedCores G] [ClosedLists G] [ClosedJobs G] [ClosedPtns G] [ClosedFlock G] [ClosedAdp G] [ClosedSync G] {ctx s} (hs : Holds G s) :
    HoldsOut G (execLaunch ctx s) := by
  unfold execLaunch
  extract_lets
  refine HoldsOut.next ?_
  split
  · exact hs
  · refine State.fetched_holds hs ?_
    intro y1 h1
    extract_lets
    split
    · extract_lets t1 t2 _ _
      have ht1 : Holds G t1 := Holds.ite (Holds.of_pair (by assumption) (State.draw_holds h1)) h1
      have ht2 : Holds G t2 := State.setList_holds ht1
      clear_value t1 t2
      exact Holds.ite (State.settle_holds (State.launchDone_holds ht2)) (Holds.flock ht2)

theorem execThreadStart_holds [ClosedFlock G] {e c s} (hs : Holds G s) :
    HoldsOut G (execThreadStart e c s) := by
  unfold execThreadStart
  refine HoldsOut.next ?_
  split
  · refine Holds.ite hs ?_
    split
    · exact hs
    · extract_lets t1 _
      have ht1 : Holds G t1 := State.setThread_holds hs
      clear_value t1
      exact Holds.flock ht1
  · exact hs

theorem execIdleFor_holds [ClosedRegs G] [ClosedLarder G] [ClosedHost G] [ClosedFree G] [ClosedCel G] [ClosedSeq G] [ClosedLoft G] [ClosedClient G] [ClosedCores G] [ClosedLists G] [ClosedJobs G] [ClosedPtns G] [ClosedFlock G] [ClosedAdp G] [ClosedSync G] {core s} (hs : Holds G s) :
    HoldsOut G (execIdleFor core s) := by
  unfold execIdleFor
  extract_lets
  refine HoldsOut.next ?_
  split
  · exact hs
  · exact Holds.ite (State.fetched_holds hs (fun y1 h1 => State.setList_holds h1)) hs

theorem execLoad_holds [ClosedRegs G] [ClosedLarder G] [ClosedHost G] [ClosedFree G] [ClosedCel G] [ClosedSeq G] [ClosedLoft G] [ClosedClient G] [ClosedCores G] [ClosedLists G] [ClosedJobs G] [ClosedPtns G] [ClosedFlock G] [ClosedAdp G] [ClosedSync G] {core s} (hs : Holds G s) :
    HoldsOut G (execLoad core s) := by
  unfold execLoad
  extract_lets
  refine HoldsOut.next ?_
  split
  · exact hs
  · exact Holds.ite hs (State.fetched_holds hs (fun y1 h1 => State.setList_holds h1))

theorem execResult_holds [ClosedRegs G] [ClosedLarder G] [ClosedHost G] [ClosedFree G] [ClosedCel G] [ClosedSeq G] [ClosedLoft G] [ClosedClient G] [ClosedCores G] [ClosedLists G] [ClosedJobs G] [ClosedPtns G] [ClosedFlock G] [ClosedAdp G] [ClosedSync G] {part s} (hs : Holds G s) :
    HoldsOut G (execResult part s) := by
  unfold execResult
  extract_lets
  refine HoldsOut.next ?_
  split
  · exact hs
  · refine State.fetched_holds hs ?_
    intro y1 h1
    split
    · exact State.takeResult_holds (State.setList_holds (Holds.of_triple (by assumption) (State.load_holds h1)))
    · exact State.settle_holds (State.tearList_holds (Holds.of_triple (by assumption) (State.load_holds h1)))
    · exact State.settle_holds (State.tearList_holds (Holds.of_triple (by assumption) (State.load_holds h1)))

theorem State.listEnd_holds [ClosedRegs G] [ClosedLarder G] [ClosedCores G] [ClosedLists G] [ClosedJobs G] {s k l} (hs : Holds G s) :
    Holds G (State.listEnd s k l) := by
  unfold State.listEnd
  extract_lets t1 t2
  have ht1 : Holds G t1 := State.delList_holds hs
  have ht2 : Holds G t2 := State.put_holds ht1
  clear_value t1 t2
  split
  · exact ht1
  · exact State.coreNext_holds ht1
  · exact State.allocate_holds (State.coreNext_holds ht2)

theorem execEndRecord_holds [ClosedRegs G] [ClosedLarder G] [ClosedHost G] [ClosedFree G] [ClosedCel G] [ClosedSeq G] [ClosedLoft G] [ClosedClient G] [ClosedCores G] [ClosedLists G] [ClosedJobs G] [ClosedPtns G] [ClosedFlock G] [ClosedAdp G] [ClosedSync G] {ctx s} (hs : Holds G s) :
    HoldsOut G (execEndRecord ctx s) := by
  unfold execEndRecord
  extract_lets
  refine HoldsOut.next ?_
  split
  · exact hs
  · exact Holds.ite (State.fetched_holds hs (fun y1 h1 => State.listEnd_holds h1)) hs

theorem execNopRecord_holds [ClosedRegs G] [ClosedLarder G] [ClosedHost G] [ClosedFree G] [ClosedCel G] [ClosedSeq G] [ClosedLoft G] [ClosedClient G] [ClosedCores G] [ClosedLists G] [ClosedJobs G] [ClosedPtns G] [ClosedFlock G] [ClosedAdp G] [ClosedSync G] {ctx s} (hs : Holds G s) :
    HoldsOut G (execNopRecord ctx s) := by
  unfold execNopRecord
  extract_lets
  refine HoldsOut.next ?_
  split
  · exact hs
  · exact State.fetched_holds hs (fun y1 h1 => State.setList_holds h1)

end Sys2Proof.Machine
end

