-- ==== Sys2Proof/Laws/Loft.lean ====
section
/-! SUPPORT. Laws/Loft.lean: what the functions of Machine/Loft.lean can change (Laws/Closure.lean). -/

namespace Sys2Proof.Machine

variable {G : State → Prop}

theorem State.takeValue_holds [ClosedLoft G] {s r v part dtime wpos} (hs : Holds G s) :
    Holds G (State.takeValue s r v part dtime wpos) := by
  unfold State.takeValue
  extract_lets
  exact Holds.ite hs (Holds.loft hs)

theorem State.takeEvent_holds [ClosedLoft G] {s code part data dtime wpos} (hs : Holds G s) :
    Holds G (State.takeEvent s code part data dtime wpos) := by
  unfold State.takeEvent
  extract_lets
  exact Holds.loft hs

theorem execLoftUpdate_holds [ClosedLoft G] {s} (hs : Holds G s) :
    HoldsOut G (execLoftUpdate s) := by
  unfold execLoftUpdate
  extract_lets _ _ t1
  have ht1 : Holds G t1 := Holds.loft hs
  clear_value t1
  refine HoldsOut.next ?_
  split
  · exact hs
  · split
    · exact State.takeValue_holds ht1
    · exact State.takeEvent_holds ht1

theorem State.clearAcc_holds [ClosedLoft G] {s r} (hs : Holds G s) :
    Holds G (State.clearAcc s r) := by
  unfold State.clearAcc
  extract_lets
  exact Holds.ite hs (Holds.loft hs)

theorem execLoftClearOne_holds [ClosedRegs G] [ClosedLoft G] {record s} (hs : Holds G s) :
    HoldsOut G (execLoftClearOne record s) := by
  unfold execLoftClearOne
  exact HoldsOut.next (State.written_holds hs (fun y1 h1 => State.clearAcc_holds h1))

theorem State.clearAccs_holds [ClosedLoft G] {s} (hs : Holds G s) :
    Holds G (State.clearAccs s) := by
  unfold State.clearAccs
  exact Holds.foldl hs (fun y1 y2 h1 => State.clearAcc_holds h1)

theorem execLoftClearAll_holds [ClosedRegs G] [ClosedLoft G] {s} (hs : Holds G s) :
    HoldsOut G (execLoftClearAll s) := by
  unfold execLoftClearAll
  exact HoldsOut.next (State.written_holds hs (fun y1 h1 => State.clearAccs_holds h1))

theorem execLoftClearDrop_holds [ClosedRegs G] {s} (hs : Holds G s) :
    HoldsOut G (execLoftClearDrop s) := by
  unfold execLoftClearDrop
  exact HoldsOut.next (State.written_holds hs (fun y1 h1 => State.put_holds h1))

theorem execLoftCurWrite_holds [ClosedRegs G] {record s} (hs : Holds G s) :
    HoldsOut G (execLoftCurWrite record s) := by
  unfold execLoftCurWrite
  exact HoldsOut.next (State.written_holds hs (fun y1 h1 => State.put_holds h1))

end Sys2Proof.Machine
end

