-- ==== Sys2Proof/Laws/Matrix.lean ====
section
/-! SUPPORT. Laws/Matrix.lean: what the functions of Machine/Matrix.lean can change (Laws/Closure.lean). -/

namespace Sys2Proof.Machine

variable {G : State → Prop}

theorem Holds.foldl_mx {β : Type} {f : MxRun → β → MxRun} {l : List β} {b : MxRun} (h : Holds G b.s)
    (hf : ∀ t x, Holds G t.s → Holds G (f t x).s) : Holds G (l.foldl f b).s := by
  induction l generalizing b with
  | nil => exact h
  | cons x l ih => exact ih (hf _ _ h)

theorem Holds.of_mx {α : Type} {e : MxRun × α} {r : MxRun} {a : α} (he : e = (r, a)) (h : Holds G e.1.s) : Holds G r.s := by
  subst he; exact h

theorem Holds.of_mx_triple {α β : Type} {e : MxRun × α × β} {r : MxRun} {a : α} {b : β} (he : e = (r, a, b))
    (h : Holds G e.1.s) : Holds G r.s := by
  subst he; exact h

theorem MxRun.andThen_holds  {r f} (hr : Holds G r.s) (hf : ∀ y0, Holds G y0.s → Holds G (f y0).s) :
    Holds G (MxRun.andThen r f).s := by
  unfold MxRun.andThen
  split
  · exact hr
  · exact hf _ hr

theorem MxRun.readRows_holds [ClosedRegs G] [ClosedCores G] {r n mask rows} (hr : Holds G r.s) :
    Holds G (MxRun.readRows r n mask rows).s := by
  unfold MxRun.readRows
  split
  · exact Holds.of_pair (by assumption) (State.rowsRead_holds hr)

theorem MxRun.stream_holds  {r n c w kp b plane a7} (hr : Holds G r.s) :
    Holds G (MxRun.stream r n c w kp b plane a7).1.s := by
  induction a7 generalizing r with
  | nil => unfold MxRun.stream; exact hr
  | cons x xs ih =>
    unfold MxRun.stream
    extract_lets es data at_
    clear_value data at_
    split
    rename_i r1 row1 rows1 h1
    have hr1 : Holds G r1.s := by
      refine Holds.of_mx_triple h1 ?_
      split
      · exact hr
      · exact hr
    split
    rename_i r2 sc2 rows2 h2
    have hr2 : Holds G r2.s := by
      refine Holds.of_mx_triple h2 ?_
      split
      · exact hr1
      · exact hr1
    extract_lets v
    clear_value v
    split
    rename_i r3 more h3
    have hr3 := Holds.of_mx h3 (ih hr2)
    exact hr3

theorem MxRun.loadHalf_holds  {r n c w kp g} (hr : Holds G r.s) :
    Holds G (MxRun.loadHalf r n c w kp g).1.s := by
  unfold MxRun.loadHalf
  extract_lets _ _ _ t1 _
  have ht1 : Holds G t1.s := by
    unfold t1
    split
    · exact hr
    · split
      · exact hr
      · exact hr
  clear_value t1
  split
  · split
    · exact Holds.of_mx (by assumption) (MxRun.stream_holds hr)
  · exact ht1

theorem MxRun.loadRows_holds [ClosedRegs G] [ClosedCores G] {r n c ws as_} (hr : Holds G r.s) :
    Holds G (MxRun.loadRows r n c ws as_).s := by
  unfold MxRun.loadRows
  split
  · extract_lets t1 _
    have ht1 : Holds G t1 := State.offPlan_holds (State.offPlan_holds (Holds.of_mid (by assumption) (State.cyclesCheck_holds hr)))
    clear_value t1
    exact State.bumpBy_holds ht1

theorem MxRun.prepare_holds [ClosedRegs G] [ClosedCores G] {r n c w kp np g tile cycles passCycles} (hr : Holds G r.s) :
    Holds G (MxRun.prepare r n c w kp np g tile cycles passCycles).s := by
  unfold MxRun.prepare
  split
  rename_i r1 rows heq
  have hr1 : Holds G r1.s := by
    refine Holds.of_mx heq ?_
    split
    · exact hr
    · exact MxRun.loadHalf_holds hr
  extract_lets q load r2 ws r3
  have hr2 : Holds G r2.s := by
    unfold r2
    clear_value load q
    split
    · exact hr1
    · exact hr1
  have hr3 : Holds G r3.s := MxRun.loadRows_holds hr2
  refine MxRun.andThen_holds hr3 ?_
  intro y1 h1
  extract_lets s1 s2
  have hs1 : Holds G s1 := Holds.ite (State.bumpBy_holds h1) h1
  exact Holds.ite (State.bumpBy_holds hs1) hs1

theorem MxRun.blockCheck_holds  {r c w kp g} (hr : Holds G r.s) :
    Holds G (MxRun.blockCheck r c w kp g).s := by
  unfold MxRun.blockCheck
  split
  · exact hr
  · exact hr

theorem MxRun.boundary_holds  {r c kp g} (hr : Holds G r.s) :
    Holds G (MxRun.boundary r c kp g).s := by
  unfold MxRun.boundary
  extract_lets
  split
  · exact hr
  · split
    · split
      · exact hr
      · exact hr
    · exact hr

theorem MxRun.pass_holds [ClosedRegs G] {r n c np g vs} (hr : Holds G r.s) :
    Holds G (MxRun.pass r n c np g vs).s := by
  unfold MxRun.pass
  extract_lets _ _ _ _ _ _ t1 t2
  have ht1 : Holds G t1 := State.bumpBy_holds (State.bumpBy_holds hr)
  have ht2 : Holds G t2 := State.put64_holds ht1
  clear_value t1 t2
  split
  · exact ht2
  · exact ht2

theorem MxRun.drain_holds [ClosedRegs G] [ClosedLarder G] [ClosedFree G] [ClosedCores G] {r n c np t ch i0} (hr : Holds G r.s) :
    Holds G (MxRun.drain r n c np t ch i0).s := by
  unfold MxRun.drain
  extract_lets _ _ _ _ _ _ _ _ t1 t2 _ t3 _
  have ht1 : Holds G t1 := State.ldrWrite_holds (State.ldrWrite_holds hr)
  have ht2 : Holds G t2 := State.offPlan_holds ht1
  have ht3 : Holds G t3.s := by
    unfold t3
    split
    · exact MxRun.readRows_holds hr
    · exact hr
  clear_value t1 t2 t3
  split
  · exact State.bumpBy_holds (State.bumpBy_holds ht2)
  · refine MxRun.andThen_holds ht3 ?_
    intro y1 h1
    extract_lets
    split
    · extract_lets _ _ _ _ t4 _ t5
      have ht4 : Holds G t4 := by
        refine State.offPlan_holds ?_
        refine State.ldrWrite_holds ?_
        refine Holds.of_pair (by assumption) ?_
        split
        · exact State.draw_holds h1
        · exact h1
      have ht5 : Holds G t5 := State.bumpBy_holds ht4
      clear_value t4 t5
      exact State.bumpBy_holds ht5

theorem MxRun.start_holds [ClosedRegs G] [ClosedCores G] {r n c np t i0 len} (hr : Holds G r.s) :
    Holds G (MxRun.start r n c np t i0 len).s := by
  unfold MxRun.start
  extract_lets _ _ _ t1 _
  have ht1 : Holds G t1.s := MxRun.readRows_holds hr
  clear_value t1
  split
  · exact hr
  · exact ht1

theorem MxRun.endChunk_holds [ClosedRegs G] [ClosedLarder G] [ClosedFree G] [ClosedCores G] {r n c np g more} (hr : Holds G r.s) :
    Holds G (MxRun.endChunk r n c np g more).s := by
  unfold MxRun.endChunk
  extract_lets
  exact MxRun.andThen_holds (MxRun.drain_holds hr) (fun y1 h1 => State.bumpBy_holds h1)

theorem MxRun.seg_holds [ClosedRegs G] [ClosedLarder G] [ClosedFree G] [ClosedCores G] {r n c w kp np g rest} (hr : Holds G r.s) :
    Holds G (MxRun.seg r n c w kp np g rest).s := by
  unfold MxRun.seg
  extract_lets _ _ t1 t2 t3 _ _ t4 t5
  have ht1 : Holds G t1.s := MxRun.blockCheck_holds hr
  have ht2 : Holds G t2.s := by
    refine MxRun.andThen_holds ht1 ?_
    intro y1 h1
    split
    · exact MxRun.start_holds h1
    · exact h1
  have ht3 : Holds G t3.s := MxRun.andThen_holds ht2 (fun y2 h2 => MxRun.boundary_holds h2)
  have ht4 : Holds G t4.s := MxRun.andThen_holds ht3 (fun y3 h3 => MxRun.prepare_holds h3)
  have ht5 : Holds G t5.s := MxRun.andThen_holds ht4 (fun y4 h4 => MxRun.pass_holds h4)
  clear_value t1 t2 t3 t4 t5
  refine MxRun.andThen_holds ht5 ?_
  intro y5 h5
  split
  · exact MxRun.endChunk_holds h5
  · exact h5

theorem MxRun.go_holds [ClosedRegs G] [ClosedLarder G] [ClosedFree G] [ClosedCores G] {n c w kp np a5 a6} (ha6 : Holds G a6.s) :
    Holds G (MxRun.go n c w kp np a5 a6).s := by
  induction a5 generalizing n c w kp np a6 with
  | nil =>
    unfold MxRun.go
    exact ha6
  | cons x xs ih =>
    unfold MxRun.go
    exact ih (MxRun.andThen_holds ha6 (fun y1 h1 => MxRun.seg_holds h1))

theorem State.matrix_holds [ClosedRegs G] [ClosedLarder G] [ClosedFree G] [ClosedCores G] {s n c} (hs : Holds G s) :
    Holds G (State.matrix s n c).2 := by
  unfold State.matrix
  split
  · exact hs
  · extract_lets t1 t2 _ t3 _ t4 t5
    have ht1 : Holds G t1.s := hs
    have ht2 : Holds G t2.s := MxRun.readRows_holds hs
    have ht3 : Holds G t3.s := by
      refine MxRun.andThen_holds ht2 ?_
      intro y1 h1
      split
      · exact h1
      · exact h1
    have ht4 : Holds G t4.s := MxRun.andThen_holds ht3 (fun y2 h2 => MxRun.prepare_holds h2)
    have ht5 : Holds G t5.s := MxRun.go_holds ht4
    clear_value t1 t2 t3 t4 t5
    split
    · exact hs
    · split
      · exact hs
      · exact ht5

theorem execMcmd_holds [ClosedRegs G] [ClosedLarder G] [ClosedHost G] [ClosedFree G] [ClosedCel G] [ClosedSeq G] [ClosedLoft G] [ClosedClient G] [ClosedCores G] [ClosedLists G] [ClosedJobs G] [ClosedPtns G] [ClosedFlock G] [ClosedAdp G] [ClosedSync G] {core s} (hs : Holds G s) :
    HoldsOut G (execMcmd core s) := by
  unfold execMcmd
  extract_lets
  refine HoldsOut.next ?_
  split
  · exact hs
  · refine State.fetched_holds hs ?_
    intro y1 h1
    extract_lets
    exact State.endCommand_holds (State.matrix_holds (State.issueCommand_holds h1))

end Sys2Proof.Machine
end

