-- ==== Sys2Proof/Laws/Publish.lean ====
section
/-! SUPPORT. Laws/Publish.lean: what the functions of Machine/Publish.lean can change (Laws/Closure.lean). -/

namespace Sys2Proof.Machine

variable {G : State → Prop}

theorem State.pubRefuse_holds [ClosedRegs G] {s reason} (hs : Holds G s) :
    Holds G (State.pubRefuse s reason) := by
  unfold State.pubRefuse
  exact State.put_holds (State.latch_holds hs)

theorem State.pubRefuseFree_holds [ClosedRegs G] [ClosedFree G] {s} (hs : Holds G s) :
    Holds G (State.pubRefuseFree s) := by
  unfold State.pubRefuseFree
  split
  · exact State.pubRefuse_holds (Holds.of_pair (by assumption) (State.draw_holds hs))

theorem State.pubRead_holds [ClosedRegs G] [ClosedCel G] [ClosedLoft G] {s} (hs : Holds G s) :
    Holds G (State.pubRead s).2 := by
  unfold State.pubRead
  have h0 := State.load_holds (ag := .firmware) (a := s.get64 R.ADP_PUB_REC_LO.N R.ADP_PUB_REC_HI.N) (n := 32) hs
  generalize s.load .firmware (s.get64 R.ADP_PUB_REC_LO.N R.ADP_PUB_REC_HI.N) 32 = e at h0 ⊢
  obtain ⟨r, bs, s1⟩ := e
  have h1 := State.loadAll_holds (ag := .firmware) (a2 := (s1.pubRecord.waddr, Nat.max 64 s1.pubRecord.wbytes) :: s1.wlayAt s1.pubRecord.job) h0
  cases r with
  | ok =>
    dsimp only
    generalize s1.loadAll .firmware ((s1.pubRecord.waddr, Nat.max 64 s1.pubRecord.wbytes) :: s1.wlayAt s1.pubRecord.job) = e at h1 ⊢
    generalize (decide (s1.pubReason s1.pubRecord = 1) || decide (s1.pubReason s1.pubRecord = 2)) = b
    obtain ⟨ok, bs', s2⟩ := e
    cases b
    · exact h1
    · exact h0
  | _ => exact h0

theorem State.pubDigest_holds [ClosedRegs G] [ClosedHost G] [ClosedClient G] {s dg} (hs : Holds G s) :
    Holds G (State.pubDigest s dg) := by
  unfold State.pubDigest
  extract_lets t1
  have ht1 : Holds G t1 := Holds.foldl hs (fun y1 y2 h1 => State.put_holds h1)
  clear_value t1
  exact State.noticeTo_holds ht1

theorem State.pubStage_holds [ClosedRegs G] [ClosedMem G] [ClosedHost G] [ClosedFree G] [ClosedCel G] [ClosedLoft G] [ClosedClient G] [ClosedStage G] {s r} (hs : Holds G s) :
    Holds G (State.pubStage s r).2 := by
  unfold State.pubStage
  extract_lets
  split
  · extract_lets t1 t2
    have ht1 : Holds G t1 := State.bumpWrap_holds (State.raise_holds (Holds.of_pair (by assumption) (State.stageWeights_holds hs)))
    have ht2 : Holds G t2 := Holds.ite (State.latch_holds ht1) ht1
    clear_value t1 t2
    exact State.pubDigest_holds ht2
  · exact State.pubRefuseFree_holds (Holds.of_pair (by assumption) (State.stageWeights_holds hs))

theorem State.pubAuto_holds [ClosedRegs G] [ClosedStage G] {s j} (hs : Holds G s) :
    Holds G (State.pubAuto s j) := by
  unfold State.pubAuto
  exact Holds.ite hs (Holds.ite (State.beginCheck_holds hs) (State.put_holds hs))

theorem execPublicationServe_holds [ClosedRegs G] [ClosedMem G] [ClosedLarder G] [ClosedHost G] [ClosedFree G] [ClosedCel G] [ClosedSeq G] [ClosedLoft G] [ClosedClient G] [ClosedCores G] [ClosedLists G] [ClosedJobs G] [ClosedPtns G] [ClosedFlock G] [ClosedAdp G] [ClosedStage G] [ClosedSync G] {s} (hs : Holds G s) :
    HoldsOut G (execPublicationServe s) := by
  unfold execPublicationServe
  refine HoldsOut.next ?_
  refine Holds.ite hs ?_
  split
  · extract_lets _ _ _ t1
    have ht1 : Holds G t1 := Holds.adp (Holds.of_pair (by assumption) (State.pubRead_holds hs))
    clear_value t1
    split
    · extract_lets t2
      have ht2 : Holds G t2 := by
        refine State.settle_holds ?_
        refine State.signal_holds ?_
        refine Holds.of_pair (by assumption) ?_
        split
        · exact State.pubRefuseFree_holds ht1
        · split
          · exact State.pubRefuse_holds ht1
          · exact State.pubStage_holds ht1
      clear_value t2
      exact Holds.ite (State.pubAuto_holds ht2) ht2

end Sys2Proof.Machine
end

