-- ==== Sys2Proof/Laws/Sheepdog.lean ====
section
/-! SUPPORT. Laws/Sheepdog.lean: what the functions of Machine/Sheepdog.lean can change (Laws/Closure.lean). -/

namespace Sys2Proof.Machine

variable {G : State → Prop}

theorem State.reference_holds [ClosedRegs G] [ClosedCel G] [ClosedLoft G] {s addr rows refW} (hs : Holds G s) :
    Holds G (State.reference s addr rows refW).2 := by
  unfold State.reference
  split
  · exact Holds.of_triple (by assumption) (State.load_holds hs)
  · exact Holds.of_triple (by assumption) (State.load_holds hs)

theorem State.sdgCheck_holds [ClosedRegs G] [ClosedCel G] [ClosedLoft G] {s i} (hs : Holds G s) :
    Holds G (State.sdgCheck s i).2.2 := by
  unfold State.sdgCheck
  extract_lets
  split
  · exact hs
  · split
    · exact Holds.of_pair (by assumption) (State.reference_holds hs)
    · extract_lets
      exact Holds.of_pair (by assumption) (State.reference_holds hs)

theorem State.sdgDone_holds [ClosedRegs G] [ClosedCel G] [ClosedSeq G] [ClosedLoft G] [ClosedSdg G] {s} (hs : Holds G s) :
    Holds G (State.sdgDone s) := by
  unfold State.sdgDone
  split
  · exact hs
  · extract_lets _ t1
    have ht1 : Holds G t1 := Holds.sdg hs
    clear_value t1
    refine Holds.ite hs ?_
    split
    · extract_lets _ _ _ t2
      have ht2 : Holds G t2 := State.setPart_holds (Holds.of_triple (by assumption) (State.sdgCheck_holds ht1))
      clear_value t2
      exact State.combine_holds (State.put_holds ht2)

theorem execSheepdogCheckDone_holds [ClosedRegs G] [ClosedCel G] [ClosedSeq G] [ClosedLoft G] [ClosedSdg G] {s} (hs : Holds G s) :
    HoldsOut G (execSheepdogCheckDone s) := by
  unfold execSheepdogCheckDone
  exact HoldsOut.next (State.sdgDone_holds hs)

theorem State.sdgLost_holds [ClosedSeq G] {s} (hs : Holds G s) :
    Holds G (State.sdgLost s) := by
  unfold State.sdgLost
  refine Holds.foldl hs ?_
  intro y1 y2 h1
  extract_lets
  exact Holds.ite (State.setPart_holds h1) h1

theorem execLockstepMismatch_holds [ClosedRegs G] [ClosedSeq G] [ClosedLink G] [ClosedLoft G] {s} (hs : Holds G s) :
    HoldsOut G (execLockstepMismatch s) := by
  unfold execLockstepMismatch
  exact HoldsOut.next (Holds.ite hs (State.lineStop_holds (State.loftEvent_holds (State.raise_holds (State.sdgLost_holds hs)))))

theorem State.proofArm_holds [ClosedSdg G] {s lane mode} (hs : Holds G s) :
    Holds G (State.proofArm s lane mode) := by
  unfold State.proofArm
  extract_lets
  exact Holds.sdg hs

theorem execSdgProofArm_holds [ClosedRegs G] [ClosedSdg G] {lane mode s} (hs : Holds G s) :
    HoldsOut G (execSdgProofArm lane mode s) := by
  unfold execSdgProofArm
  exact HoldsOut.next (State.written_holds hs (fun y1 h1 => State.proofArm_holds h1))

theorem State.alarmClear_holds [ClosedRegs G] [ClosedSdg G] {s} (hs : Holds G s) :
    Holds G (State.alarmClear s) := by
  unfold State.alarmClear
  extract_lets t1 _
  have ht1 : Holds G t1 := State.drop_holds hs
  clear_value t1
  exact Holds.ite hs (Holds.sdg ht1)

theorem execAlarmClear_holds [ClosedRegs G] [ClosedSdg G] {s} (hs : Holds G s) :
    HoldsOut G (execAlarmClear s) := by
  unfold execAlarmClear
  exact HoldsOut.next (State.written_holds hs (fun y1 h1 => State.alarmClear_holds h1))

theorem State.selfTest_holds [ClosedRegs G] [ClosedSdg G] {s k ok run} (hs : Holds G s) (hrun : ∀ y0, Holds G y0 → Holds G (run y0)) :
    Holds G (State.selfTest s k ok run) := by
  unfold State.selfTest
  extract_lets _ t1
  have ht1 : Holds G t1 := Holds.sdg hs
  clear_value t1
  exact Holds.ite hs (Holds.ite (State.bump_holds hs) (hrun _ (State.bump_holds ht1)))

theorem State.stFail_holds [ClosedRegs G] {s} (hs : Holds G s) :
    Holds G (State.stFail s) := by
  unfold State.stFail
  exact State.latch_holds (State.bump_holds hs)

theorem State.marchRow_holds [ClosedLarder G] [ClosedFree G] [ClosedCores G] {s n w} (hs : Holds G s) :
    Holds G (State.marchRow s n w) := by
  unfold State.marchRow
  split
  · exact State.larderWrite_holds (Holds.of_pair (by assumption) (State.draw_holds hs))

theorem execLarderMarch_holds [ClosedRegs G] [ClosedLarder G] [ClosedHost G] [ClosedFree G] [ClosedSeq G] [ClosedLoft G] [ClosedClient G] [ClosedCores G] [ClosedLists G] [ClosedJobs G] [ClosedPtns G] [ClosedFlock G] [ClosedAdp G] [ClosedSdg G] [ClosedSync G] {core bank mismatch s} (hs : Holds G s) :
    HoldsOut G (execLarderMarch core bank mismatch s) := by
  unfold execLarderMarch
  extract_lets
  refine HoldsOut.next ?_
  refine State.selfTest_holds hs ?_
  intro y1 h1
  extract_lets _ t1
  have ht1 : Holds G t1 := State.setCore_holds (State.put_holds h1)
  clear_value t1
  split
  · exact ht1
  · extract_lets t2
    have ht2 : Holds G t2 := Holds.ite (State.marchRow_holds ht1) ht1
    clear_value t2
    exact State.settle_holds (State.larderHard_holds (State.stFail_holds ht2))

theorem execArrayKav_holds [ClosedRegs G] [ClosedLarder G] [ClosedHost G] [ClosedFree G] [ClosedSeq G] [ClosedLoft G] [ClosedClient G] [ClosedCores G] [ClosedLists G] [ClosedJobs G] [ClosedPtns G] [ClosedFlock G] [ClosedAdp G] [ClosedSdg G] [ClosedSync G] {core pass s} (hs : Holds G s) :
    HoldsOut G (execArrayKav core pass s) := by
  unfold execArrayKav
  extract_lets
  exact HoldsOut.next (State.selfTest_holds hs (fun y1 h1 => Holds.ite h1 (State.settle_holds (State.larderHard_holds (State.stFail_holds h1)))))

theorem execPantryTag_holds [ClosedRegs G] [ClosedCel G] [ClosedSdg G] {die group mismatch s} (hs : Holds G s) :
    HoldsOut G (execPantryTag die group mismatch s) := by
  unfold execPantryTag
  refine HoldsOut.next ?_
  refine State.selfTest_holds hs ?_
  intro y1 h1
  split
  · exact h1
  · extract_lets _ t1
    have ht1 : Holds G t1 := State.pantryError_holds (State.stFail_holds h1)
    clear_value t1
    exact Holds.ite ht1 (State.pantryError_holds ht1)

theorem execLpKal_holds [ClosedRegs G] [ClosedSeq G] [ClosedLink G] [ClosedLoft G] [ClosedSdg G] {cam pass s} (hs : Holds G s) :
    HoldsOut G (execLpKal cam pass s) := by
  unfold execLpKal
  extract_lets
  refine HoldsOut.next ?_
  refine State.selfTest_holds hs ?_
  intro y1 h1
  extract_lets _ t1 _ t2
  have ht1 : Holds G t1 := State.latch_holds (State.stFail_holds h1)
  have ht2 : Holds G t2 := Holds.sdg ht1
  clear_value t1 t2
  exact Holds.ite (Holds.sdg h1) (State.lineStop_holds (State.markFault_holds ht2))

theorem execCoverageIntervalEnd_holds [ClosedRegs G] [ClosedLoft G] [ClosedSdg G] {s} (hs : Holds G s) :
    HoldsOut G (execCoverageIntervalEnd s) := by
  unfold execCoverageIntervalEnd
  extract_lets _ _ _ t1
  have ht1 : Holds G t1 := Holds.sdg hs
  clear_value t1
  exact HoldsOut.next (Holds.ite hs (Holds.ite ht1 (State.loftEvent_holds (State.bump_holds (State.latch_holds ht1)))))

end Sys2Proof.Machine
end

