-- ==== Sys2Proof/Laws/Registers.lean ====
section
/-! SUPPORT. Laws/Registers.lean: what the functions of Machine/Registers.lean can change (Laws/Closure.lean). -/

namespace Sys2Proof.Machine

variable {G : State → Prop}

theorem State.frozenWrite_holds [ClosedRegs G] {s} (hs : Holds G s) :
    Holds G (State.frozenWrite s) := by
  unfold State.frozenWrite
  exact State.bump_holds (State.latch_holds hs)

theorem State.stageWrite_holds [ClosedRegs G] [ClosedStaged G] {s off mask v} (hs : Holds G s) :
    Holds G (State.stageWrite s off mask v) := by
  unfold State.stageWrite
  exact Holds.ite (State.frozenWrite_holds hs) (Holds.staged hs)

theorem State.plainWrite_holds [ClosedRegs G] [ClosedStaged G] {s off r v} (hs : Holds G s) :
    Holds G (State.plainWrite s off r v) := by
  unfold State.plainWrite
  extract_lets t1
  have ht1 : Holds G t1 := Holds.ite hs (State.setReg_holds hs)
  clear_value t1
  exact Holds.ite ht1 (State.stageWrite_holds ht1)

theorem State.showPairs_holds [ClosedRegs G] {s} (hs : Holds G s) :
    Holds G (State.showPairs s) := by
  unfold State.showPairs
  extract_lets t1
  have ht1 : Holds G t1 := State.putFlag_holds hs
  clear_value t1
  split
  · exact State.put_holds ht1
  · exact ht1

theorem State.pairMember_holds [ClosedRegs G] [ClosedPairs G] {s off mask v} (hs : Holds G s) :
    Holds G (State.pairMember s off mask v) := by
  unfold State.pairMember
  extract_lets
  exact State.showPairs_holds (Holds.pairs hs)

theorem State.pairActs_holds [ClosedRegs G] [ClosedLoft G] [ClosedNtm G] {s l} (hs : Holds G s) :
    Holds G (State.pairActs s l) := by
  unfold State.pairActs
  split
  · exact State.tpoStart_holds hs
  · split
    · exact State.clearAcc_holds hs
    · exact hs

theorem State.pairLatch_holds [ClosedRegs G] [ClosedStaged G] [ClosedPairs G] [ClosedMem G] [ClosedLarder G] [ClosedHost G] [ClosedFree G] [ClosedCel G] [ClosedPos G] [ClosedLanes G] [ClosedCams G] [ClosedLp G] [ClosedSeq G] [ClosedLink G] [ClosedAud G] [ClosedLoft G] [ClosedNtm G] [ClosedGts G] [ClosedClient G] [ClosedCores G] [ClosedLists G] [ClosedJobs G] [ClosedPtns G] [ClosedFlock G] [ClosedAdp G] [ClosedSdg G] [ClosedStage G] [ClosedSync G] [ClosedClk G] [ClosedBoot G] {s m l mask v} (hs : Holds G s) :
    Holds G (State.pairLatch s m l mask v) := by
  unfold State.pairLatch
  extract_lets t1 _ t2 t3 t4
  have ht1 : Holds G t1 := State.commitTick_holds hs
  have ht2 : Holds G t2 := State.showPairs_holds (Holds.pairs ht1)
  have ht3 : Holds G t3 := by
    unfold t3
    split
    · exact State.notePulse_holds ht2
    · exact ht2
  have ht4 : Holds G t4 := State.setReg_holds (State.setReg_holds ht3)
  clear_value t1 t2 t3 t4
  exact Holds.ite (State.pairActs_holds ht4) (State.latch_holds ht2)

theorem State.soSelect_holds [ClosedRegs G] {s o} (hs : Holds G s) :
    Holds G (State.soSelect s o) := by
  unfold State.soSelect
  extract_lets t1 _ t2 _
  have ht1 : Holds G t1 := State.put_holds hs
  have ht2 : Holds G t2 := State.setReg_holds (State.setReg_holds ht1)
  clear_value t1 t2
  exact State.put64_holds (State.setReg_holds ht2)

theorem State.soStage_holds [ClosedRegs G] [ClosedStage G] {s off v} (hs : Holds G s) :
    Holds G (State.soStage s off v) := by
  unfold State.soStage
  extract_lets _ _ _ _ t1
  have ht1 : Holds G t1 := State.setStage_holds hs
  clear_value t1
  exact Holds.ite (State.frozenWrite_holds hs) (Holds.ite (State.setReg_holds ht1) ht1)

theorem State.ringRegWrite_holds [ClosedRegs G] [ClosedStaged G] [ClosedHost G] [ClosedClient G] {s via off r v} (hs : Holds G s) :
    Holds G (State.ringRegWrite s via off r v) := by
  unfold State.ringRegWrite
  extract_lets
  exact Holds.ite (State.ringCfgFrom_holds hs) (Holds.ite (State.plainWrite_holds hs) (State.accessErr_holds hs))

theorem State.baseWrite_holds [ClosedRegs G] [ClosedStaged G] [ClosedField G] [ClosedLoft G] [ClosedClk G] [ClosedBoot G] [ClosedReset G] {s off r v} (hs : Holds G s) :
    Holds G (State.baseWrite s off r v) := by
  unfold State.baseWrite
  exact Holds.ite (Holds.ite (State.drop_holds (State.drop_holds hs)) hs) (Holds.ite (Holds.ite (State.clkSwitch_holds hs) hs) (Holds.ite (State.put_holds hs) (Holds.ite (Holds.ite (State.pushGo_holds hs) hs) (Holds.ite (State.bootCtl_holds hs) (Holds.ite (State.certSelect_holds hs) (State.plainWrite_holds hs))))))

theorem State.webWrite_holds [ClosedRegs G] [ClosedStaged G] [ClosedFree G] [ClosedLanes G] {s off r v} (hs : Holds G s) :
    Holds G (State.webWrite s off r v) := by
  unfold State.webWrite
  refine Holds.ite (Holds.ite (State.posSnap_holds hs) hs) ?_
  refine Holds.ite (State.psqTblRead_holds hs) ?_
  refine Holds.ite (State.partWinRead_holds hs) ?_
  refine Holds.ite (State.celRetRead_holds hs) ?_
  split
  · exact State.plainWrite_holds hs
  · extract_lets t1 t2
    have ht1 : Holds G t1 := State.plainWrite_holds hs
    have ht2 : Holds G t2 := Holds.ite (State.abortScan_holds ht1) ht1
    clear_value t1 t2
    exact Holds.ite (State.eyeStart_holds ht2) ht2

theorem State.unitWrite_holds [ClosedRegs G] [ClosedStaged G] [ClosedLoft G] [ClosedNtm G] [ClosedSdg G] [ClosedStage G] {s off r v} (hs : Holds G s) :
    Holds G (State.unitWrite s off r v) := by
  unfold State.unitWrite
  extract_lets t1 t2 t3
  have ht1 : Holds G t1 := State.plainWrite_holds hs
  have ht2 : Holds G t2 := Holds.ite (State.clearAcc_holds hs) hs
  have ht3 : Holds G t3 := Holds.ite (State.clearAccs_holds ht2) ht2
  clear_value t1 t2 t3
  refine Holds.ite (State.soSelect_holds hs) ?_
  refine Holds.ite (State.soStage_holds hs) ?_
  refine Holds.ite (Holds.ite (State.alarmClear_holds ht1) ht1) ?_
  refine Holds.ite (State.proofArm_holds hs) ?_
  refine Holds.ite (Holds.ite (State.snapTake_holds hs) hs) ?_
  refine Holds.ite (Holds.ite (State.drop_holds ht3) ht3) ?_
  split
  · exact Holds.ite (State.faultRelease_holds hs) hs
  · exact State.plainWrite_holds hs

theorem State.fieldWrite_holds [ClosedRegs G] [ClosedStaged G] [ClosedFree G] [ClosedField G] [ClosedLink G] [ClosedLoft G] {s off r v} (hs : Holds G s) :
    Holds G (State.fieldWrite s off r v) := by
  unfold State.fieldWrite
  extract_lets t1
  have ht1 : Holds G t1 := Holds.ite (State.lineStop_holds hs) hs
  clear_value t1
  refine Holds.ite (Holds.ite (State.fldResume_holds ht1) ht1) ?_
  refine Holds.ite (State.plainWrite_holds hs) ?_
  refine Holds.ite (State.clearCauses_holds hs) ?_
  refine Holds.ite (State.outSetWrite_holds hs) ?_
  split
  · exact State.clearOutFaults_holds hs
  · exact State.plainWrite_holds hs

theorem State.regWrite_holds [ClosedRegs G] [ClosedStaged G] [ClosedPairs G] [ClosedMem G] [ClosedLarder G] [ClosedHost G] [ClosedFree G] [ClosedCel G] [ClosedPos G] [ClosedLanes G] [ClosedCams G] [ClosedLp G] [ClosedSeq G] [ClosedField G] [ClosedLink G] [ClosedAud G] [ClosedLoft G] [ClosedNtm G] [ClosedGts G] [ClosedClient G] [ClosedCores G] [ClosedLists G] [ClosedJobs G] [ClosedPtns G] [ClosedFlock G] [ClosedAdp G] [ClosedSdg G] [ClosedStage G] [ClosedSync G] [ClosedClk G] [ClosedBoot G] [ClosedReset G] {s via off r v} (hs : Holds G s) :
    Holds G (State.regWrite s via off r v) := by
  unfold State.regWrite
  split
  · exact Holds.ite hs (Holds.ite (State.clearCounts_holds hs) (State.dropAll_holds hs))
  · refine Holds.ite ?_ (Holds.ite (State.baseWrite_holds hs) (Holds.ite (State.ringRegWrite_holds hs) (Holds.ite (State.doorbell_holds hs) (Holds.ite (State.webWrite_holds hs) (Holds.ite (State.fieldWrite_holds hs) (State.unitWrite_holds hs))))))
    split
    · exact Holds.ite (State.pairLatch_holds hs) (State.pairMember_holds hs)
    · exact hs

theorem State.barWrite_holds [ClosedRegs G] [ClosedStaged G] [ClosedPairs G] [ClosedMem G] [ClosedLarder G] [ClosedHost G] [ClosedFree G] [ClosedCel G] [ClosedPos G] [ClosedLanes G] [ClosedCams G] [ClosedLp G] [ClosedSeq G] [ClosedField G] [ClosedLink G] [ClosedAud G] [ClosedLoft G] [ClosedNtm G] [ClosedGts G] [ClosedClient G] [ClosedCores G] [ClosedLists G] [ClosedJobs G] [ClosedPtns G] [ClosedFlock G] [ClosedAdp G] [ClosedSdg G] [ClosedStage G] [ClosedSync G] [ClosedClk G] [ClosedBoot G] [ClosedReset G] {s via off v} (hs : Holds G s) :
    Holds G (State.barWrite s via off v) := by
  unfold State.barWrite
  refine Holds.ite hs ?_
  split
  · exact State.accessErr_holds hs
  · exact State.regWrite_holds hs

theorem State.readLo_holds [ClosedHolding G] {s off} (hs : Holds G s) :
    Holds G (State.readLo s off).2 := by
  unfold State.readLo
  split
  · exact Holds.holding hs

theorem State.readInfl_holds [ClosedRegs G] [ClosedFree G] {s d} (hs : Holds G s) :
    Holds G (State.readInfl s d).2 := by
  unfold State.readInfl
  split
  · extract_lets
    exact State.put_holds (Holds.of_pair (by assumption) (State.draw_holds hs))

theorem State.readReg_holds [ClosedRegs G] [ClosedHolding G] [ClosedFree G] {s off} (hs : Holds G s) :
    Holds G (State.readReg s off).2 := by
  unfold State.readReg
  split
  · exact hs
  · split
    · exact hs
    · extract_lets
      split
      · exact State.readLo_holds hs
      · split
        · exact hs
        · split
          · exact State.readInfl_holds hs
          · split
            · exact State.readInfl_holds hs
            · exact hs

theorem State.readBar_holds [ClosedRegs G] [ClosedHolding G] [ClosedFree G] {s off len} (hs : Holds G s) :
    Holds G (State.readBar s off len).2 := by
  unfold State.readBar
  split
  · split
    · exact Holds.of_pair (by assumption) (State.readReg_holds hs)
    · exact Holds.free hs

theorem execRegisterWrite_holds [ClosedRegs G] [ClosedStaged G] [ClosedPairs G] [ClosedMem G] [ClosedLarder G] [ClosedHost G] [ClosedFree G] [ClosedCel G] [ClosedPos G] [ClosedLanes G] [ClosedCams G] [ClosedLp G] [ClosedSeq G] [ClosedField G] [ClosedLink G] [ClosedAud G] [ClosedLoft G] [ClosedNtm G] [ClosedGts G] [ClosedClient G] [ClosedCores G] [ClosedLists G] [ClosedJobs G] [ClosedPtns G] [ClosedFlock G] [ClosedAdp G] [ClosedSdg G] [ClosedStage G] [ClosedSync G] [ClosedClk G] [ClosedBoot G] [ClosedReset G] {off len value s} (hs : Holds G s) :
    HoldsOut G (execRegisterWrite off len value s) := by
  unfold execRegisterWrite
  exact HoldsOut.next (Holds.ite (Holds.ite (State.accessErr_holds hs) hs) (State.barWrite_holds hs))

theorem execW1cClear_holds [ClosedRegs G] [ClosedStaged G] [ClosedPairs G] [ClosedMem G] [ClosedLarder G] [ClosedHost G] [ClosedFree G] [ClosedCel G] [ClosedPos G] [ClosedLanes G] [ClosedCams G] [ClosedLp G] [ClosedSeq G] [ClosedField G] [ClosedLink G] [ClosedAud G] [ClosedLoft G] [ClosedNtm G] [ClosedGts G] [ClosedClient G] [ClosedCores G] [ClosedLists G] [ClosedJobs G] [ClosedPtns G] [ClosedFlock G] [ClosedAdp G] [ClosedSdg G] [ClosedStage G] [ClosedSync G] [ClosedClk G] [ClosedBoot G] [ClosedReset G] {off value s} (hs : Holds G s) :
    HoldsOut G (execW1cClear off value s) := by
  unfold execW1cClear
  refine HoldsOut.next ?_
  split
  · exact Holds.ite hs (State.barWrite_holds hs)
  · exact hs

theorem execLoReadLatch_holds [ClosedRegs G] [ClosedHolding G] [ClosedFree G] {off len s} (hs : Holds G s) :
    HoldsOut G (execLoReadLatch off len s) := by
  unfold execLoReadLatch
  exact HoldsOut.next (Holds.ite hs (State.readBar_holds hs))

theorem execCounterClear_holds [ClosedRegs G] [ClosedStaged G] [ClosedPairs G] [ClosedMem G] [ClosedLarder G] [ClosedHost G] [ClosedFree G] [ClosedCel G] [ClosedPos G] [ClosedLanes G] [ClosedCams G] [ClosedLp G] [ClosedSeq G] [ClosedField G] [ClosedLink G] [ClosedAud G] [ClosedLoft G] [ClosedNtm G] [ClosedGts G] [ClosedClient G] [ClosedCores G] [ClosedLists G] [ClosedJobs G] [ClosedPtns G] [ClosedFlock G] [ClosedAdp G] [ClosedSdg G] [ClosedStage G] [ClosedSync G] [ClosedClk G] [ClosedBoot G] [ClosedReset G] {off s} (hs : Holds G s) :
    HoldsOut G (execCounterClear off s) := by
  unfold execCounterClear
  exact HoldsOut.next (Holds.ite (State.barWrite_holds hs) hs)

theorem execAccessErrClear_holds [ClosedRegs G] [ClosedStaged G] [ClosedPairs G] [ClosedMem G] [ClosedLarder G] [ClosedHost G] [ClosedFree G] [ClosedCel G] [ClosedPos G] [ClosedLanes G] [ClosedCams G] [ClosedLp G] [ClosedSeq G] [ClosedField G] [ClosedLink G] [ClosedAud G] [ClosedLoft G] [ClosedNtm G] [ClosedGts G] [ClosedClient G] [ClosedCores G] [ClosedLists G] [ClosedJobs G] [ClosedPtns G] [ClosedFlock G] [ClosedAdp G] [ClosedSdg G] [ClosedStage G] [ClosedSync G] [ClosedClk G] [ClosedBoot G] [ClosedReset G] {s} (hs : Holds G s) :
    HoldsOut G (execAccessErrClear s) := by
  unfold execAccessErrClear
  exact HoldsOut.next (State.barWrite_holds hs)

theorem execPairMemberWrite_holds [ClosedRegs G] [ClosedStaged G] [ClosedPairs G] [ClosedMem G] [ClosedLarder G] [ClosedHost G] [ClosedFree G] [ClosedCel G] [ClosedPos G] [ClosedLanes G] [ClosedCams G] [ClosedLp G] [ClosedSeq G] [ClosedField G] [ClosedLink G] [ClosedAud G] [ClosedLoft G] [ClosedNtm G] [ClosedGts G] [ClosedClient G] [ClosedCores G] [ClosedLists G] [ClosedJobs G] [ClosedPtns G] [ClosedFlock G] [ClosedAdp G] [ClosedSdg G] [ClosedStage G] [ClosedSync G] [ClosedClk G] [ClosedBoot G] [ClosedReset G] {off value s} (hs : Holds G s) :
    HoldsOut G (execPairMemberWrite off value s) := by
  unfold execPairMemberWrite
  refine HoldsOut.next ?_
  split
  · exact Holds.ite (State.barWrite_holds hs) hs
  · exact hs

theorem execPairLatch_holds [ClosedRegs G] [ClosedStaged G] [ClosedPairs G] [ClosedMem G] [ClosedLarder G] [ClosedHost G] [ClosedFree G] [ClosedCel G] [ClosedPos G] [ClosedLanes G] [ClosedCams G] [ClosedLp G] [ClosedSeq G] [ClosedField G] [ClosedLink G] [ClosedAud G] [ClosedLoft G] [ClosedNtm G] [ClosedGts G] [ClosedClient G] [ClosedCores G] [ClosedLists G] [ClosedJobs G] [ClosedPtns G] [ClosedFlock G] [ClosedAdp G] [ClosedSdg G] [ClosedStage G] [ClosedSync G] [ClosedClk G] [ClosedBoot G] [ClosedReset G] {off value s} (hs : Holds G s) :
    HoldsOut G (execPairLatch off value s) := by
  unfold execPairLatch
  refine HoldsOut.next ?_
  split
  · exact Holds.ite (State.barWrite_holds hs) hs
  · exact hs

theorem execSoSelect_holds [ClosedRegs G] [ClosedStaged G] [ClosedPairs G] [ClosedMem G] [ClosedLarder G] [ClosedHost G] [ClosedFree G] [ClosedCel G] [ClosedPos G] [ClosedLanes G] [ClosedCams G] [ClosedLp G] [ClosedSeq G] [ClosedField G] [ClosedLink G] [ClosedAud G] [ClosedLoft G] [ClosedNtm G] [ClosedGts G] [ClosedClient G] [ClosedCores G] [ClosedLists G] [ClosedJobs G] [ClosedPtns G] [ClosedFlock G] [ClosedAdp G] [ClosedSdg G] [ClosedStage G] [ClosedSync G] [ClosedClk G] [ClosedBoot G] [ClosedReset G] {index s} (hs : Holds G s) :
    HoldsOut G (execSoSelect index s) := by
  unfold execSoSelect
  exact HoldsOut.next (State.barWrite_holds hs)

theorem execSoRestage_holds [ClosedRegs G] [ClosedStaged G] [ClosedPairs G] [ClosedMem G] [ClosedLarder G] [ClosedHost G] [ClosedFree G] [ClosedCel G] [ClosedPos G] [ClosedLanes G] [ClosedCams G] [ClosedLp G] [ClosedSeq G] [ClosedField G] [ClosedLink G] [ClosedAud G] [ClosedLoft G] [ClosedNtm G] [ClosedGts G] [ClosedClient G] [ClosedCores G] [ClosedLists G] [ClosedJobs G] [ClosedPtns G] [ClosedFlock G] [ClosedAdp G] [ClosedSdg G] [ClosedStage G] [ClosedSync G] [ClosedClk G] [ClosedBoot G] [ClosedReset G] {word s} (hs : Holds G s) :
    HoldsOut G (execSoRestage word s) := by
  unfold execSoRestage
  exact HoldsOut.next (State.barWrite_holds hs)

theorem execRegRead_holds [ClosedRegs G] [ClosedHolding G] [ClosedHost G] [ClosedFree G] [ClosedClient G] {ring index s} (hs : Holds G s) :
    HoldsOut G (execRegRead ring index s) := by
  unfold execRegRead
  refine HoldsOut.next ?_
  split
  · exact hs
  · split
    · split
      · refine State.complete_holds ?_
        refine Holds.of_pair (by assumption) ?_
        split
        · exact State.readReg_holds (Holds.of_pair (by assumption) (State.readReg_holds hs))
        · exact Holds.of_pair (by assumption) (State.readReg_holds hs)

theorem execRegWrite_holds [ClosedRegs G] [ClosedStaged G] [ClosedPairs G] [ClosedMem G] [ClosedLarder G] [ClosedHost G] [ClosedFree G] [ClosedCel G] [ClosedPos G] [ClosedLanes G] [ClosedCams G] [ClosedLp G] [ClosedSeq G] [ClosedField G] [ClosedLink G] [ClosedAud G] [ClosedLoft G] [ClosedNtm G] [ClosedGts G] [ClosedClient G] [ClosedCores G] [ClosedLists G] [ClosedJobs G] [ClosedPtns G] [ClosedFlock G] [ClosedAdp G] [ClosedSdg G] [ClosedStage G] [ClosedSync G] [ClosedClk G] [ClosedBoot G] [ClosedReset G] {ring index s} (hs : Holds G s) :
    HoldsOut G (execRegWrite ring index s) := by
  unfold execRegWrite
  refine HoldsOut.next ?_
  split
  · exact hs
  · exact State.complete_holds (State.barWrite_holds hs)

end Sys2Proof.Machine
end

