-- ==== Sys2Proof/Laws/Slices.lean ====
section
/-! SUPPORT. Laws/Slices.lean: what the functions of Machine/Slices.lean can change (Laws/Closure.lean). -/

namespace Sys2Proof.Machine

variable {G : State → Prop}

theorem State.setPtn_holds [ClosedPtns G] {s p x} (hs : Holds G s) :
    Holds G (State.setPtn s p x) := by
  unfold State.setPtn
  exact Holds.ptns hs

theorem State.openSlice_holds [ClosedRegs G] [ClosedJobs G] [ClosedPtns G] {s p j} (hs : Holds G s) :
    Holds G (State.openSlice s p j) := by
  unfold State.openSlice
  extract_lets _ t1 t2 _
  have ht1 : Holds G t1 := State.put_holds (State.raise_holds hs)
  have ht2 : Holds G t2 := State.setPtn_holds ht1
  clear_value t1 t2
  exact State.setJob_holds ht2

theorem State.endSlice_holds [ClosedRegs G] [ClosedJobs G] [ClosedPtns G] {s p j t} (hs : Holds G s) :
    Holds G (State.endSlice s p j t) := by
  unfold State.endSlice
  extract_lets _ t1 t2
  have ht1 : Holds G t1 := State.setPtn_holds hs
  have ht2 : Holds G t2 := State.raise_holds ht1
  clear_value t1 t2
  exact Holds.ite (State.openSlice_holds hs) (State.putFlag_holds ht2)

theorem execSliceEnd_holds [ClosedRegs G] [ClosedJobs G] [ClosedPtns G] {part s} (hs : Holds G s) :
    HoldsOut G (execSliceEnd part s) := by
  unfold execSliceEnd
  extract_lets
  refine HoldsOut.next ?_
  split
  · exact Holds.ite (State.endSlice_holds hs) hs
  · exact hs

theorem State.blockTick_holds [ClosedJobs G] {s} (hs : Holds G s) :
    Holds G (State.blockTick s) := by
  unfold State.blockTick
  refine Holds.foldl hs ?_
  intro y1 y2 h1
  split
  · exact h1
  · extract_lets
    split
    · exact State.setJob_holds h1
    · exact State.setJob_holds h1
    · exact h1

theorem execSliceYield_holds [ClosedRegs G] [ClosedJobs G] [ClosedPtns G] {part s} (hs : Holds G s) :
    HoldsOut G (execSliceYield part s) := by
  unfold execSliceYield
  extract_lets
  refine HoldsOut.next ?_
  split
  · split
    · exact Holds.ite (State.endSlice_holds hs) hs
    · exact hs
  · exact hs

theorem State.liveRead_holds [ClosedRegs G] [ClosedCel G] [ClosedLoft G] {s l} (hs : Holds G s) :
    Holds G (State.liveRead s l).2 := by
  unfold State.liveRead
  extract_lets
  split
  · exact Holds.of_triple (by assumption) (State.loadAll_holds hs)

theorem State.renameAgent_holds [ClosedSync G] {s a b} (hs : Holds G s) :
    Holds G (State.renameAgent s a b) := by
  unfold State.renameAgent
  extract_lets
  exact Holds.sync hs

theorem State.saveCore_holds [ClosedRegs G] [ClosedMem G] [ClosedLarder G] [ClosedHost G] [ClosedFree G] [ClosedCel G] [ClosedSeq G] [ClosedLoft G] [ClosedClient G] [ClosedCores G] [ClosedLists G] [ClosedJobs G] [ClosedPtns G] [ClosedFlock G] [ClosedAdp G] [ClosedSync G] {s j i n} (hs : Holds G s) :
    Holds G (State.saveCore s j i n) := by
  unfold State.saveCore
  refine Holds.ite hs ?_
  extract_lets l
  have hr : Holds G (match l with
      | some l => s.liveRead l
      | none => (true, s)).2 := by
    clear_value l
    split
    · exact State.liveRead_holds hs
    · exact hs
  split
  · exact State.settle_holds (State.tearJob_holds (Holds.of_pair (by assumption) hr))
  · rename_i s1 h1
    have hs1 := Holds.of_pair h1 hr
    extract_lets live
    split
    · exact State.settle_holds (State.larderHard_holds (Holds.of_pair (by assumption) (State.rowsCheck_holds hs1)))
    · rename_i s2 _ h2
      have hs2 := Holds.of_pair h2 (State.rowsCheck_holds hs1)
      extract_lets pieces
      split
      · exact State.settle_holds (State.tearJob_holds (Holds.of_pair (by assumption) (State.storeAll_holds hs2)))
      · rename_i s3 h3
        have hs3 := Holds.of_pair h3 (State.storeAll_holds hs2)
        extract_lets t3 due t4 t5
        exact State.setJob_holds (State.drop_holds (State.drop_holds (State.setCore_holds (State.delList_holds (State.renameAgent_holds hs3)))))

theorem execPartitionSwitch_holds [ClosedRegs G] [ClosedMem G] [ClosedLarder G] [ClosedHost G] [ClosedFree G] [ClosedCel G] [ClosedSeq G] [ClosedLoft G] [ClosedClient G] [ClosedCores G] [ClosedLists G] [ClosedJobs G] [ClosedPtns G] [ClosedFlock G] [ClosedAdp G] [ClosedSync G] {part s} (hs : Holds G s) :
    HoldsOut G (execPartitionSwitch part s) := by
  unfold execPartitionSwitch
  extract_lets
  refine HoldsOut.next ?_
  split
  · extract_lets _ t1 t2 _ t3 _ t4
    have ht1 : Holds G t1 := State.bumpWrap_holds (State.put_holds hs)
    have ht2 : Holds G t2 := State.loftEvent_holds ht1
    have ht3 : Holds G t3 := State.setJob_holds ht2
    have ht4 : Holds G t4 := Holds.foldl ht3 (fun y1 y2 h1 => State.saveCore_holds h1)
    clear_value t1 t2 t3 t4
    exact Holds.ite hs (Holds.ite (State.setJobState_holds (State.leaveSlice_holds ht4)) ht4)
  · exact hs

theorem State.restoreCore_holds [ClosedRegs G] [ClosedLarder G] [ClosedHost G] [ClosedFree G] [ClosedCel G] [ClosedSeq G] [ClosedLoft G] [ClosedClient G] [ClosedCores G] [ClosedLists G] [ClosedJobs G] [ClosedPtns G] [ClosedFlock G] [ClosedAdp G] [ClosedSync G] {s j i n} (hs : Holds G s) :
    Holds G (State.restoreCore s j i n) := by
  unfold State.restoreCore
  extract_lets t1 _ _
  have ht1 : Holds G t1 := State.larderZero_holds hs
  clear_value t1
  refine Holds.ite hs ?_
  split
  · exact State.setCore_holds ht1
  · extract_lets
    split
    · exact State.settle_holds (State.tearJob_holds (Holds.of_triple (by assumption) (State.loadAll_holds ht1)))
    · extract_lets t2 _ _ t3 t4
      have ht2 : Holds G t2 := Holds.foldl (Holds.of_triple (by assumption) (State.loadAll_holds ht1)) (fun y1 y2 h1 => State.larderWrite_holds h1)
      have ht3 : Holds G t3 := State.setCore_holds ht2
      have ht4 : Holds G t4 := State.renameAgent_holds ht3
      clear_value t2 t3 t4
      split
      · exact ht4
      · exact State.setList_holds ht4

theorem State.takeCores_holds [ClosedRegs G] [ClosedLarder G] [ClosedHost G] [ClosedFree G] [ClosedCel G] [ClosedSeq G] [ClosedLink G] [ClosedLoft G] [ClosedClient G] [ClosedCores G] [ClosedLists G] [ClosedJobs G] [ClosedPtns G] [ClosedFlock G] [ClosedAdp G] [ClosedSync G] {s p j img} (hs : Holds G s) :
    Holds G (State.takeCores s p j img) := by
  unfold State.takeCores
  extract_lets _ _ _ _ t1 t2
  have ht1 : Holds G t1 := State.setJob_holds hs
  have ht2 : Holds G t2 := State.showBinding_holds ht1
  clear_value t1 t2
  refine Holds.ite (Holds.foldl ht2 (fun y1 y2 h1 => State.restoreCore_holds h1)) ?_
  refine State.underMap_holds hs ?_
  intro y3 y4 y5 h2
  extract_lets t3 _ t4 t5
  have ht3 : Holds G t3 := State.dropAgent_holds h2
  have ht4 : Holds G t4 := State.setJob_holds ht3
  have ht5 : Holds G t5 := Holds.foldl ht4 (fun y6 y7 h3 => State.restoreCore_holds h3)
  clear_value t3 t4 t5
  exact State.bindMap_holds ht5

theorem execSliceBegin_holds [ClosedRegs G] [ClosedLarder G] [ClosedHost G] [ClosedFree G] [ClosedCel G] [ClosedSeq G] [ClosedLink G] [ClosedLoft G] [ClosedClient G] [ClosedCores G] [ClosedLists G] [ClosedJobs G] [ClosedPtns G] [ClosedFlock G] [ClosedAdp G] [ClosedSync G] {part s} (hs : Holds G s) :
    HoldsOut G (execSliceBegin part s) := by
  unfold execSliceBegin
  extract_lets
  refine HoldsOut.next ?_
  refine Holds.ite hs ?_
  split
  · exact hs
  · split
    · exact hs
    · extract_lets t1 t2 t3 _ t4
      have ht1 : Holds G t1 := State.setJobState_holds hs
      have ht2 : Holds G t2 := State.drop_holds (State.openSlice_holds ht1)
      have ht3 : Holds G t3 := State.takeCores_holds ht2
      have ht4 : Holds G t4 := State.setJob_holds ht3
      clear_value t1 t2 t3 t4
      exact State.settle_holds (Holds.foldl ht4 (fun y1 y2 h1 => State.coreNext_holds h1))

end Sys2Proof.Machine
end

