-- ==== Sys2Proof/Laws/Tick.lean ====
section
/-! SUPPORT. Laws/Tick.lean: what the functions of Machine/Tick.lean can change (Laws/Closure.lean). -/

namespace Sys2Proof.Machine

variable {G : State → Prop}

theorem State.timesOn_holds [ClosedRegs G] [ClosedDtime G] [ClosedPos G] [ClosedField G] {s} (hs : Holds G s) :
    Holds G (State.timesOn s) := by
  unfold State.timesOn
  exact Holds.dtime_pos_field (fun h => u64_step_grid h) (State.newTick_holds hs)

theorem State.noteWpos_holds [ClosedAud G] {s} (hs : Holds G s) :
    Holds G (State.noteWpos s) := by
  unfold State.noteWpos
  extract_lets
  exact Holds.ite hs (Holds.aud hs)

theorem State.countCycles_holds [ClosedClk G] {s} (hs : Holds G s) :
    Holds G (State.countCycles s) := by
  unfold State.countCycles
  extract_lets
  exact Holds.clk hs

theorem State.marchesEnd_holds [ClosedRegs G] [ClosedCores G] {s} (hs : Holds G s) :
    Holds G (State.marchesEnd s) := by
  unfold State.marchesEnd
  refine Holds.foldl hs ?_
  intro y1 y2 h1
  split
  · exact h1
  · extract_lets _ t1
    have ht1 : Holds G t1 := State.setCore_holds h1
    clear_value t1
    exact Holds.ite h1 (Holds.ite (State.put_holds ht1) ht1)

theorem State.flashStep_holds [ClosedRegs G] [ClosedBoot G] {s} (hs : Holds G s) :
    Holds G (State.flashStep s) := by
  unfold State.flashStep
  split
  · exact hs
  · extract_lets
    exact State.putFlag_holds (Holds.boot hs)

theorem State.dieLoss_holds [ClosedRegs G] [ClosedLarder G] [ClosedHost G] [ClosedFree G] [ClosedSeq G] [ClosedField G] [ClosedLoft G] [ClosedClient G] [ClosedCores G] [ClosedLists G] [ClosedJobs G] [ClosedPtns G] [ClosedFlock G] [ClosedAdp G] [ClosedSync G] [ClosedBoot G] [ClosedReset G] {s} (hs : Holds G s) :
    Holds G (State.dieLoss s) := by
  unfold State.dieLoss
  refine Holds.ite hs ?_
  refine Holds.ite (State.powerOff_holds hs) ?_
  split
  · exact hs
  · exact State.settle_holds (Holds.foldl hs (fun y1 y2 h1 => State.dieDown_holds h1))

theorem State.waitsStep_holds [ClosedRegs G] [ClosedLarder G] [ClosedHost G] [ClosedFree G] [ClosedSeq G] [ClosedLoft G] [ClosedClient G] [ClosedCores G] [ClosedLists G] [ClosedJobs G] [ClosedPtns G] [ClosedFlock G] [ClosedAdp G] [ClosedSync G] {s} (hs : Holds G s) :
    Holds G (State.waitsStep s) := by
  unfold State.waitsStep
  exact Holds.ite hs (State.settle_holds (State.takeWaits_holds hs))

theorem execWposExtrapolate_holds [ClosedRegs G] [ClosedDtime G] [ClosedMem G] [ClosedLarder G] [ClosedHost G] [ClosedFree G] [ClosedCel G] [ClosedPos G] [ClosedLanes G] [ClosedSeq G] [ClosedField G] [ClosedLink G] [ClosedAud G] [ClosedLoft G] [ClosedNtm G] [ClosedGts G] [ClosedClient G] [ClosedCores G] [ClosedLists G] [ClosedJobs G] [ClosedPtns G] [ClosedFlock G] [ClosedAdp G] [ClosedSync G] [ClosedClk G] [ClosedBoot G] [ClosedReset G] {s} (hs : Holds G s) :
    HoldsOut G (execWposExtrapolate s) := by
  unfold execWposExtrapolate
  extract_lets
  exact HoldsOut.next (Holds.ite (State.dieLoss_holds (State.promoteStep_holds (State.sendPatterns_holds (State.flashStep_holds (State.blockTick_holds (State.overspeed_holds (State.revExcess_holds (State.extrapolate_holds (State.promoteBase_holds (State.ntmTick_holds (State.marchesEnd_holds (State.setupStep_holds (State.expireDue_holds (State.timesOn_holds (State.countCycles_holds (State.noteWpos_holds (State.waitsStep_holds hs))))))))))))))))) (Holds.field hs))

end Sys2Proof.Machine
end

