-- ==== Sys2Proof/Laws/Vector.lean ====
section
/-! SUPPORT. Laws/Vector.lean: what the functions of Machine/Vector.lean can change (Laws/Closure.lean). -/

namespace Sys2Proof.Machine

variable {G : State → Prop}

theorem Holds.foldl_vx {β : Type} {f : VxRun → β → VxRun} {l : List β} {b : VxRun} (h : Holds G b.s)
    (hf : ∀ t x, Holds G t.s → Holds G (f t x).s) : Holds G (l.foldl f b).s := by
  induction l generalizing b with
  | nil => exact h
  | cons x l ih => exact ih (hf _ _ h)

theorem Holds.foldl_vx_fst {α β : Type} {f : VxRun × α → β → VxRun × α} {l : List β} {b : VxRun × α} (h : Holds G b.1.s)
    (hf : ∀ t x, Holds G t.1.s → Holds G (f t x).1.s) : Holds G (l.foldl f b).1.s := by
  induction l generalizing b with
  | nil => exact h
  | cons x l ih => exact ih (hf _ _ h)

theorem Holds.of_vx {α : Type} {e : VxRun × α} {r : VxRun} {a : α} (he : e = (r, a)) (h : Holds G e.1.s) : Holds G r.s := by
  subst he; exact h

theorem State.writeLanes_holds [ClosedRegs G] [ClosedLarder G] [ClosedCores G] {s n c seed k addr xs} (hs : Holds G s) :
    Holds G (State.writeLanes s n c seed k addr xs) := by
  unfold State.writeLanes
  extract_lets
  split
  · refine State.bumpBy_holds ?_
    refine State.bumpBy_holds ?_
    refine Holds.of_fst (by assumption) ?_
    split
    · exact State.setCore_holds hs
    · exact State.offPlan_holds (State.ldrWrite_holds hs)

theorem VxRun.andThen_holds  {r f} (hr : Holds G r.s) (hf : ∀ y0, Holds G y0 → Holds G (f y0).s) :
    Holds G (VxRun.andThen r f).s := by
  unfold VxRun.andThen
  split
  · exact hr
  · exact hf _ hr

theorem State.vread_holds [ClosedRegs G] [ClosedCores G] {s n c rows} (hs : Holds G s) :
    Holds G (State.vread s n c rows).s := by
  unfold State.vread
  split
  · exact Holds.of_pair (by assumption) (State.rowsRead_holds hs)

theorem State.vstep_holds [ClosedRegs G] [ClosedLarder G] [ClosedCores G] {s n c table seed k} (hs : Holds G s) :
    Holds G (State.vstep s n c table seed k).s := by
  unfold State.vstep
  extract_lets
  refine VxRun.andThen_holds (State.vread_holds hs) ?_
  intro y1 h1
  extract_lets _ t1 _ t2 t3 _ _ _ _ _ _
  have ht1 : Holds G t1 := State.bump_holds h1
  have ht2 : Holds G t2 := State.bumpBy_holds ht1
  have ht3 : Holds G t3 := State.bumpBy_holds (State.bumpBy_holds ht2)
  clear_value t1 t2 t3
  split
  · exact State.setCore_holds ht3
  · split
    · exact State.writeLanes_holds ht1
    · exact State.offPlan_holds (State.ldrWrite_holds ht1)
  · exact State.writeLanes_holds ht1
  · exact State.writeLanes_holds ht1

theorem State.turnOut_holds [ClosedRegs G] {s n c es} (hs : Holds G s) :
    Holds G (State.turnOut s n c es).2 := by
  unfold State.turnOut
  extract_lets
  exact State.bumpBy_holds hs

theorem State.vturn_holds [ClosedRegs G] [ClosedLarder G] [ClosedCores G] {s n c k} (hs : Holds G s) :
    Holds G (State.vturn s n c k).s := by
  unfold State.vturn
  extract_lets
  refine VxRun.andThen_holds (State.vread_holds hs) ?_
  intro y1 h1
  extract_lets t1 _ _ t2
  have ht1 : Holds G t1 := State.bump_holds h1
  have ht2 : Holds G t2 := by
    refine Holds.foldl ht1 ?_
    intro y2 y3 h2
    split
    · exact State.ldrWrite_holds (Holds.of_pair (by assumption) (State.turnOut_holds h2))
  clear_value t1 t2
  split
  · split
    · exact State.offPlan_holds (State.ldrWrite_holds (Holds.of_pair (by assumption) (State.turnOut_holds ht1)))
  · exact State.offPlan_holds ht2

theorem State.vreduce_holds [ClosedRegs G] [ClosedLarder G] [ClosedCores G] {s n c seed} (hs : Holds G s) :
    Holds G (State.vreduce s n c seed).s := by
  unfold State.vreduce
  extract_lets
  split
  · refine VxRun.andThen_holds ?_ ?_
    · refine Holds.of_vx (by assumption) ?_
      refine Holds.foldl_vx_fst hs ?_
      intro y1 y2 h1
      extract_lets t1 t2
      have ht1 : Holds G t1.s := VxRun.andThen_holds h1 (fun y3 h2 => State.vread_holds h2)
      have ht2 : Holds G t2.s := by
        unfold t2
        split
        · exact ht1
        · exact State.bump_holds ht1
      clear_value t1 t2
      exact ht2
    · intro y4 h3
      split
      · refine VxRun.andThen_holds (State.vread_holds (State.bump_holds h3)) ?_
        intro y5 h4
        extract_lets t3
        have ht3 : Holds G t3 := State.ldrWrite_holds h4
        clear_value t3
        exact Holds.ite (State.bump_holds ht3) ht3

theorem State.vector_holds [ClosedRegs G] [ClosedLarder G] [ClosedFree G] [ClosedCores G] {s n c} (hs : Holds G s) :
    Holds G (State.vector s n c).2 := by
  unfold State.vector
  split
  · exact hs
  · extract_lets t1 t2
    have ht1 : Holds G t1.s := by
      unfold t1
      split
      · exact State.vread_holds hs
      · exact hs
    have ht2 : Holds G t2.s := by
      refine VxRun.andThen_holds ht1 ?_
      intro y1 h1
      split
      · extract_lets
        split
        · split
          · exact State.vreduce_holds (Holds.of_pair (by assumption) (State.draw_holds h1))
          · exact State.vreduce_holds h1
        · refine Holds.foldl_vx h1 ?_
          intro y2 y3 h2
          refine VxRun.andThen_holds h2 ?_
          intro y4 h3
          split
          · exact State.vturn_holds h3
          · split
            · split
              · exact State.vstep_holds (Holds.of_pair (by assumption) (State.draw_holds h3))
              · exact State.vstep_holds h3
    clear_value t1 t2
    exact ht2

theorem State.vcmd_holds [ClosedRegs G] [ClosedLarder G] [ClosedHost G] [ClosedFree G] [ClosedCel G] [ClosedSeq G] [ClosedLoft G] [ClosedClient G] [ClosedCores G] [ClosedLists G] [ClosedJobs G] [ClosedPtns G] [ClosedFlock G] [ClosedAdp G] [ClosedSync G] {s n op} (hs : Holds G s) :
    Holds G (State.vcmd s n op) := by
  unfold State.vcmd
  split
  · exact hs
  · extract_lets
    refine Holds.ite ?_ hs
    refine State.fetched_holds hs ?_
    intro y1 h1
    extract_lets
    exact State.endCommand_holds (State.vector_holds (State.issueCommand_holds h1))

theorem execVmov_holds [ClosedRegs G] [ClosedLarder G] [ClosedHost G] [ClosedFree G] [ClosedCel G] [ClosedSeq G] [ClosedLoft G] [ClosedClient G] [ClosedCores G] [ClosedLists G] [ClosedJobs G] [ClosedPtns G] [ClosedFlock G] [ClosedAdp G] [ClosedSync G] {core s} (hs : Holds G s) :
    HoldsOut G (execVmov core s) := by
  unfold execVmov
  exact HoldsOut.next (State.vcmd_holds hs)

theorem execVadd_holds [ClosedRegs G] [ClosedLarder G] [ClosedHost G] [ClosedFree G] [ClosedCel G] [ClosedSeq G] [ClosedLoft G] [ClosedClient G] [ClosedCores G] [ClosedLists G] [ClosedJobs G] [ClosedPtns G] [ClosedFlock G] [ClosedAdp G] [ClosedSync G] {core s} (hs : Holds G s) :
    HoldsOut G (execVadd core s) := by
  unfold execVadd
  exact HoldsOut.next (State.vcmd_holds hs)

theorem execVsub_holds [ClosedRegs G] [ClosedLarder G] [ClosedHost G] [ClosedFree G] [ClosedCel G] [ClosedSeq G] [ClosedLoft G] [ClosedClient G] [ClosedCores G] [ClosedLists G] [ClosedJobs G] [ClosedPtns G] [ClosedFlock G] [ClosedAdp G] [ClosedSync G] {core s} (hs : Holds G s) :
    HoldsOut G (execVsub core s) := by
  unfold execVsub
  exact HoldsOut.next (State.vcmd_holds hs)

theorem execVmul_holds [ClosedRegs G] [ClosedLarder G] [ClosedHost G] [ClosedFree G] [ClosedCel G] [ClosedSeq G] [ClosedLoft G] [ClosedClient G] [ClosedCores G] [ClosedLists G] [ClosedJobs G] [ClosedPtns G] [ClosedFlock G] [ClosedAdp G] [ClosedSync G] {core s} (hs : Holds G s) :
    HoldsOut G (execVmul core s) := by
  unfold execVmul
  exact HoldsOut.next (State.vcmd_holds hs)

theorem execVmax_holds [ClosedRegs G] [ClosedLarder G] [ClosedHost G] [ClosedFree G] [ClosedCel G] [ClosedSeq G] [ClosedLoft G] [ClosedClient G] [ClosedCores G] [ClosedLists G] [ClosedJobs G] [ClosedPtns G] [ClosedFlock G] [ClosedAdp G] [ClosedSync G] {core s} (hs : Holds G s) :
    HoldsOut G (execVmax core s) := by
  unfold execVmax
  exact HoldsOut.next (State.vcmd_holds hs)

theorem execVmin_holds [ClosedRegs G] [ClosedLarder G] [ClosedHost G] [ClosedFree G] [ClosedCel G] [ClosedSeq G] [ClosedLoft G] [ClosedClient G] [ClosedCores G] [ClosedLists G] [ClosedJobs G] [ClosedPtns G] [ClosedFlock G] [ClosedAdp G] [ClosedSync G] {core s} (hs : Holds G s) :
    HoldsOut G (execVmin core s) := by
  unfold execVmin
  exact HoldsOut.next (State.vcmd_holds hs)

theorem execVclamp_holds [ClosedRegs G] [ClosedLarder G] [ClosedHost G] [ClosedFree G] [ClosedCel G] [ClosedSeq G] [ClosedLoft G] [ClosedClient G] [ClosedCores G] [ClosedLists G] [ClosedJobs G] [ClosedPtns G] [ClosedFlock G] [ClosedAdp G] [ClosedSync G] {core s} (hs : Holds G s) :
    HoldsOut G (execVclamp core s) := by
  unfold execVclamp
  exact HoldsOut.next (State.vcmd_holds hs)

theorem execVcmp_holds [ClosedRegs G] [ClosedLarder G] [ClosedHost G] [ClosedFree G] [ClosedCel G] [ClosedSeq G] [ClosedLoft G] [ClosedClient G] [ClosedCores G] [ClosedLists G] [ClosedJobs G] [ClosedPtns G] [ClosedFlock G] [ClosedAdp G] [ClosedSync G] {core s} (hs : Holds G s) :
    HoldsOut G (execVcmp core s) := by
  unfold execVcmp
  exact HoldsOut.next (State.vcmd_holds hs)

theorem execVsel_holds [ClosedRegs G] [ClosedLarder G] [ClosedHost G] [ClosedFree G] [ClosedCel G] [ClosedSeq G] [ClosedLoft G] [ClosedClient G] [ClosedCores G] [ClosedLists G] [ClosedJobs G] [ClosedPtns G] [ClosedFlock G] [ClosedAdp G] [ClosedSync G] {core s} (hs : Holds G s) :
    HoldsOut G (execVsel core s) := by
  unfold execVsel
  exact HoldsOut.next (State.vcmd_holds hs)

theorem execVmacw_holds [ClosedRegs G] [ClosedLarder G] [ClosedHost G] [ClosedFree G] [ClosedCel G] [ClosedSeq G] [ClosedLoft G] [ClosedClient G] [ClosedCores G] [ClosedLists G] [ClosedJobs G] [ClosedPtns G] [ClosedFlock G] [ClosedAdp G] [ClosedSync G] {core s} (hs : Holds G s) :
    HoldsOut G (execVmacw core s) := by
  unfold execVmacw
  exact HoldsOut.next (State.vcmd_holds hs)

theorem execVreq_holds [ClosedRegs G] [ClosedLarder G] [ClosedHost G] [ClosedFree G] [ClosedCel G] [ClosedSeq G] [ClosedLoft G] [ClosedClient G] [ClosedCores G] [ClosedLists G] [ClosedJobs G] [ClosedPtns G] [ClosedFlock G] [ClosedAdp G] [ClosedSync G] {core s} (hs : Holds G s) :
    HoldsOut G (execVreq core s) := by
  unfold execVreq
  exact HoldsOut.next (State.vcmd_holds hs)

theorem execVcvt_holds [ClosedRegs G] [ClosedLarder G] [ClosedHost G] [ClosedFree G] [ClosedCel G] [ClosedSeq G] [ClosedLoft G] [ClosedClient G] [ClosedCores G] [ClosedLists G] [ClosedJobs G] [ClosedPtns G] [ClosedFlock G] [ClosedAdp G] [ClosedSync G] {core s} (hs : Holds G s) :
    HoldsOut G (execVcvt core s) := by
  unfold execVcvt
  exact HoldsOut.next (State.vcmd_holds hs)

theorem execVlut_holds [ClosedRegs G] [ClosedLarder G] [ClosedHost G] [ClosedFree G] [ClosedCel G] [ClosedSeq G] [ClosedLoft G] [ClosedClient G] [ClosedCores G] [ClosedLists G] [ClosedJobs G] [ClosedPtns G] [ClosedFlock G] [ClosedAdp G] [ClosedSync G] {core s} (hs : Holds G s) :
    HoldsOut G (execVlut core s) := by
  unfold execVlut
  exact HoldsOut.next (State.vcmd_holds hs)

theorem execVpoolh_holds [ClosedRegs G] [ClosedLarder G] [ClosedHost G] [ClosedFree G] [ClosedCel G] [ClosedSeq G] [ClosedLoft G] [ClosedClient G] [ClosedCores G] [ClosedLists G] [ClosedJobs G] [ClosedPtns G] [ClosedFlock G] [ClosedAdp G] [ClosedSync G] {core s} (hs : Holds G s) :
    HoldsOut G (execVpoolh core s) := by
  unfold execVpoolh
  exact HoldsOut.next (State.vcmd_holds hs)

theorem execVrsum_holds [ClosedRegs G] [ClosedLarder G] [ClosedHost G] [ClosedFree G] [ClosedCel G] [ClosedSeq G] [ClosedLoft G] [ClosedClient G] [ClosedCores G] [ClosedLists G] [ClosedJobs G] [ClosedPtns G] [ClosedFlock G] [ClosedAdp G] [ClosedSync G] {core s} (hs : Holds G s) :
    HoldsOut G (execVrsum core s) := by
  unfold execVrsum
  exact HoldsOut.next (State.vcmd_holds hs)

theorem execVrmax_holds [ClosedRegs G] [ClosedLarder G] [ClosedHost G] [ClosedFree G] [ClosedCel G] [ClosedSeq G] [ClosedLoft G] [ClosedClient G] [ClosedCores G] [ClosedLists G] [ClosedJobs G] [ClosedPtns G] [ClosedFlock G] [ClosedAdp G] [ClosedSync G] {core s} (hs : Holds G s) :
    HoldsOut G (execVrmax core s) := by
  unfold execVrmax
  exact HoldsOut.next (State.vcmd_holds hs)

theorem execVrmin_holds [ClosedRegs G] [ClosedLarder G] [ClosedHost G] [ClosedFree G] [ClosedCel G] [ClosedSeq G] [ClosedLoft G] [ClosedClient G] [ClosedCores G] [ClosedLists G] [ClosedJobs G] [ClosedPtns G] [ClosedFlock G] [ClosedAdp G] [ClosedSync G] {core s} (hs : Holds G s) :
    HoldsOut G (execVrmin core s) := by
  unfold execVrmin
  exact HoldsOut.next (State.vcmd_holds hs)

theorem execVcnt_holds [ClosedRegs G] [ClosedLarder G] [ClosedHost G] [ClosedFree G] [ClosedCel G] [ClosedSeq G] [ClosedLoft G] [ClosedClient G] [ClosedCores G] [ClosedLists G] [ClosedJobs G] [ClosedPtns G] [ClosedFlock G] [ClosedAdp G] [ClosedSync G] {core s} (hs : Holds G s) :
    HoldsOut G (execVcnt core s) := by
  unfold execVcnt
  exact HoldsOut.next (State.vcmd_holds hs)

theorem execVdlv_holds [ClosedRegs G] [ClosedLarder G] [ClosedHost G] [ClosedFree G] [ClosedCel G] [ClosedSeq G] [ClosedLoft G] [ClosedClient G] [ClosedCores G] [ClosedLists G] [ClosedJobs G] [ClosedPtns G] [ClosedFlock G] [ClosedAdp G] [ClosedSync G] {core s} (hs : Holds G s) :
    HoldsOut G (execVdlv core s) := by
  unfold execVdlv
  exact HoldsOut.next (State.vcmd_holds hs)

theorem execVilv_holds [ClosedRegs G] [ClosedLarder G] [ClosedHost G] [ClosedFree G] [ClosedCel G] [ClosedSeq G] [ClosedLoft G] [ClosedClient G] [ClosedCores G] [ClosedLists G] [ClosedJobs G] [ClosedPtns G] [ClosedFlock G] [ClosedAdp G] [ClosedSync G] {core s} (hs : Holds G s) :
    HoldsOut G (execVilv core s) := by
  unfold execVilv
  exact HoldsOut.next (State.vcmd_holds hs)

end Sys2Proof.Machine
end

