-- ==== Sys2Proof/Laws/Dispatch.lean ====
section
/-! SUPPORT. Laws/Dispatch.lean: what a command can change (Laws/Closure.lean): every part of State but the queue. -/

namespace Sys2Proof.Machine

variable {G : State → Prop}

/-! ### One arm of the dispatch after the other -/

theorem exec_registerWrite {off} {len} {value} {s : State} : exec (.registerWrite off len value) s = execRegisterWrite off len value s := rfl
theorem exec_w1cClear {off} {value} {s : State} : exec (.w1cClear off value) s = execW1cClear off value s := rfl
theorem exec_loReadLatch {off} {len} {s : State} : exec (.loReadLatch off len) s = execLoReadLatch off len s := rfl
theorem exec_counterClear {off} {s : State} : exec (.counterClear off) s = execCounterClear off s := rfl
theorem exec_accessErrClear {s : State} : exec (.accessErrClear) s = execAccessErrClear s := rfl
theorem exec_pairMemberWrite {off} {value} {s : State} : exec (.pairMemberWrite off value) s = execPairMemberWrite off value s := rfl
theorem exec_pairLatch {off} {value} {s : State} : exec (.pairLatch off value) s = execPairLatch off value s := rfl
theorem exec_wposExtrapolate {s : State} : exec (.wposExtrapolate) s = execWposExtrapolate s := rfl
theorem exec_encoderRead {ch} {latch} {ready} {word} {err} {chk} {tail} {s : State} : exec (.encoderRead ch latch ready word err chk tail) s = execEncoderRead ch latch ready word err chk tail s := rfl
theorem exec_posLost {s : State} : exec (.posLost) s = execPosLost s := rfl
theorem exec_posTupleSend {s : State} : exec (.posTupleSend) s = execPosTupleSend s := rfl
theorem exec_takeover {s : State} : exec (.takeover) s = execTakeover s := rfl
theorem exec_posSnapTake {s : State} : exec (.posSnapTake) s = execPosSnapTake s := rfl
theorem exec_nop {s : State} : exec (.nop) s = execNop s := rfl
theorem exec_partClose {s : State} : exec (.partClose) s = execPartClose s := rfl
theorem exec_partOpen {s : State} : exec (.partOpen) s = execPartOpen s := rfl
theorem exec_lineGate {s : State} : exec (.lineGate) s = execLineGate s := rfl
theorem exec_stripCut {s : State} : exec (.stripCut) s = execStripCut s := rfl
theorem exec_roiApply {s : State} : exec (.roiApply) s = execRoiApply s := rfl
theorem exec_decision {s : State} : exec (.decision) s = execDecision s := rfl
theorem exec_ejectPass {s : State} : exec (.ejectPass) s = execEjectPass s := rfl
theorem exec_pulse {s : State} : exec (.pulse) s = execPulse s := rfl
theorem exec_selftestWin {s : State} : exec (.selftestWin) s = execSelftestWin s := rfl
theorem exec_signal {s : State} : exec (.signal) s = execSignal s := rfl
theorem exec_loftMark {s : State} : exec (.loftMark) s = execLoftMark s := rfl
theorem exec_edgeRecompute {s : State} : exec (.edgeRecompute) s = execEdgeRecompute s := rfl
theorem exec_edgeReportTimeout {s : State} : exec (.edgeReportTimeout) s = execEdgeReportTimeout s := rfl
theorem exec_psqTblRead {index} {s : State} : exec (.psqTblRead index) s = execPsqTblRead index s := rfl
theorem exec_partWinRead {index} {s : State} : exec (.partWinRead index) s = execPartWinRead index s := rfl
theorem exec_edgeNew {seq} {channel} {tag} {on} {off} {s : State} : exec (.edgeNew seq channel tag on off) s = execEdgeNew seq channel tag on off s := rfl
theorem exec_edgeCorr {seq} {channel} {tag} {on} {off} {s : State} : exec (.edgeCorr seq channel tag on off) s = execEdgeCorr seq channel tag on off s := rfl
theorem exec_edgeHold {seq} {channel} {tag} {s : State} : exec (.edgeHold seq channel tag) s = execEdgeHold seq channel tag s := rfl
theorem exec_edgeCancel {seq} {channel} {tag} {s : State} : exec (.edgeCancel seq channel tag) s = execEdgeCancel seq channel tag s := rfl
theorem exec_heartbeat {seq} {beat} {measured} {s : State} : exec (.heartbeat seq beat measured) s = execHeartbeat seq beat measured s := rfl
theorem exec_outCfg {seq} {channel} {mode} {safe} {openEn} {ovlUs} {s : State} : exec (.outCfg seq channel mode safe openEn ovlUs) s = execOutCfg seq channel mode safe openEn ovlUs s := rfl
theorem exec_outSet {seq} {level} {s : State} : exec (.outSet seq level) s = execOutSet seq level s := rfl
theorem exec_lsSet {seq} {run} {s : State} : exec (.lsSet seq run) s = execLsSet seq run s := rfl
theorem exec_resume {seq} {s : State} : exec (.resume seq) s = execResume seq s := rfl
theorem exec_inCfg {seq} {input} {filtUs} {func} {s : State} : exec (.inCfg seq input filtUs func) s = execInCfg seq input filtUs func s := rfl
theorem exec_downlinkBadFrame {s : State} : exec (.downlinkBadFrame) s = execDownlinkBadFrame s := rfl
theorem exec_edgeDone {seq} {channel} {result} {tag} {on} {off} {s : State} : exec (.edgeDone seq channel result tag on off) s = execEdgeDone seq channel result tag on off s := rfl
theorem exec_reject {seq} {reason} {tag} {frameSeq} {missing} {s : State} : exec (.reject seq reason tag frameSeq missing) s = execReject seq reason tag frameSeq missing s := rfl
theorem exec_status {seq} {fstate} {inputs} {outFlags} {supply} {temp} {lsA} {lsB} {queued} {hbSeq} {s : State} : exec (.status seq fstate inputs outFlags supply temp lsA lsB queued hbSeq) s = execStatus seq fstate inputs outFlags supply temp lsA lsB queued hbSeq s := rfl
theorem exec_inputEdge {seq} {input} {level} {dtime} {s : State} : exec (.inputEdge seq input level dtime) s = execInputEdge seq input level dtime s := rfl
theorem exec_uplinkCrcError {s : State} : exec (.uplinkCrcError) s = execUplinkCrcError s := rfl
theorem exec_syncEdgeSend {s : State} : exec (.syncEdgeSend) s = execSyncEdgeSend s := rfl
theorem exec_edgeFire {s : State} : exec (.edgeFire) s = execEdgeFire s := rfl
theorem exec_heartbeatLoss {s : State} : exec (.heartbeatLoss) s = execHeartbeatLoss s := rfl
theorem exec_uplinkLost {s : State} : exec (.uplinkLost) s = execUplinkLost s := rfl
theorem exec_overload {ch} {s : State} : exec (.overload ch) s = execOverload ch s := rfl
theorem exec_overtemp {ch} {hot} {s : State} : exec (.overtemp ch hot) s = execOvertemp ch hot s := rfl
theorem exec_openOff {ch} {here} {s : State} : exec (.openOff ch here) s = execOpenOff ch here s := rfl
theorem exec_openOn {ch} {s : State} : exec (.openOn ch) s = execOpenOn ch s := rfl
theorem exec_supplyLow {s : State} : exec (.supplyLow) s = execSupplyLow s := rfl
theorem exec_lsFault {s : State} : exec (.lsFault) s = execLsFault s := rfl
theorem exec_inputConfirm {input} {level} {first} {s : State} : exec (.inputConfirm input level first) s = execInputConfirm input level first s := rfl
theorem exec_lsCauseClear {mask} {s : State} : exec (.lsCauseClear mask) s = execLsCauseClear mask s := rfl
theorem exec_fldStop {s : State} : exec (.fldStop) s = execFldStop s := rfl
theorem exec_fldResume {s : State} : exec (.fldResume) s = execFldResume s := rfl
theorem exec_fldOutSetWrite {level} {s : State} : exec (.fldOutSetWrite level) s = execFldOutSetWrite level s := rfl
theorem exec_acJudge {s : State} : exec (.acJudge) s = execAcJudge s := rfl
theorem exec_supFault {inputs} {s : State} : exec (.supFault inputs) s = execSupFault inputs s := rfl
theorem exec_featureFrame {input} {start} {wpos} {words} {driven} {s : State} : exec (.featureFrame input start wpos words driven) s = execFeatureFrame input start wpos words driven s := rfl
theorem exec_laneSignalDetect {lane} {s : State} : exec (.laneSignalDetect lane) s = execLaneSignalDetect lane s := rfl
theorem exec_laneSignalLoss {lane} {s : State} : exec (.laneSignalLoss lane) s = execLaneSignalLoss lane s := rfl
theorem exec_cdrLock {lane} {s : State} : exec (.cdrLock lane) s = execCdrLock lane s := rfl
theorem exec_cdrLockLoss {lane} {s : State} : exec (.cdrLockLoss lane) s = execCdrLockLoss lane s := rfl
theorem exec_acquireGroup {lane} {received} {wrong} {s : State} : exec (.acquireGroup lane received wrong) s = execAcquireGroup lane received wrong s := rfl
theorem exec_alignedGroup {lane} {group} {drained} {s : State} : exec (.alignedGroup lane group drained) s = execAlignedGroup lane group drained s := rfl
theorem exec_eyeScanStart {lane} {phase} {voff} {dwell} {s : State} : exec (.eyeScanStart lane phase voff dwell) s = execEyeScanStart lane phase voff dwell s := rfl
theorem exec_eyeScanAbort {lane} {s : State} : exec (.eyeScanAbort lane) s = execEyeScanAbort lane s := rfl
theorem exec_eyeScanDone {lane} {mismatches} {s : State} : exec (.eyeScanDone lane mismatches) s = execEyeScanDone lane mismatches s := rfl
theorem exec_rediscover {cam} {s : State} : exec (.rediscover cam) s = execRediscover cam s := rfl
theorem exec_discoverLanesAligned {cam} {s : State} : exec (.discoverLanesAligned cam) s = execDiscoverLanesAligned cam s := rfl
theorem exec_discoverAlignTimeout {cam} {s : State} : exec (.discoverAlignTimeout cam) s = execDiscoverAlignTimeout cam s := rfl
theorem exec_controlReply {cam} {ok} {value} {conn} {s : State} : exec (.controlReply cam ok value conn) s = execControlReply cam ok value conn s := rfl
theorem exec_controlTimeout {cam} {s : State} : exec (.controlTimeout cam) s = execControlTimeout cam s := rfl
theorem exec_streamPacket {cam} {tag} {crcOk} {items} {s : State} : exec (.streamPacket cam tag crcOk items) s = execStreamPacket cam tag crcOk items s := rfl
theorem exec_slotDeadline {cam} {s : State} : exec (.slotDeadline cam) s = execSlotDeadline cam s := rfl
theorem exec_rowBuild {cam} {s : State} : exec (.rowBuild cam) s = execRowBuild cam s := rfl
theorem exec_inputDigestFinal {part} {s : State} : exec (.inputDigestFinal part) s = execInputDigestFinal part s := rfl
theorem exec_mcmd {core} {s : State} : exec (.mcmd core) s = execMcmd core s := rfl
theorem exec_vmov {core} {s : State} : exec (.vmov core) s = execVmov core s := rfl
theorem exec_vadd {core} {s : State} : exec (.vadd core) s = execVadd core s := rfl
theorem exec_vsub {core} {s : State} : exec (.vsub core) s = execVsub core s := rfl
theorem exec_vmul {core} {s : State} : exec (.vmul core) s = execVmul core s := rfl
theorem exec_vmax {core} {s : State} : exec (.vmax core) s = execVmax core s := rfl
theorem exec_vmin {core} {s : State} : exec (.vmin core) s = execVmin core s := rfl
theorem exec_vclamp {core} {s : State} : exec (.vclamp core) s = execVclamp core s := rfl
theorem exec_vcmp {core} {s : State} : exec (.vcmp core) s = execVcmp core s := rfl
theorem exec_vsel {core} {s : State} : exec (.vsel core) s = execVsel core s := rfl
theorem exec_vmacw {core} {s : State} : exec (.vmacw core) s = execVmacw core s := rfl
theorem exec_vreq {core} {s : State} : exec (.vreq core) s = execVreq core s := rfl
theorem exec_vcvt {core} {s : State} : exec (.vcvt core) s = execVcvt core s := rfl
theorem exec_vlut {core} {s : State} : exec (.vlut core) s = execVlut core s := rfl
theorem exec_vpoolh {core} {s : State} : exec (.vpoolh core) s = execVpoolh core s := rfl
theorem exec_vrsum {core} {s : State} : exec (.vrsum core) s = execVrsum core s := rfl
theorem exec_vrmax {core} {s : State} : exec (.vrmax core) s = execVrmax core s := rfl
theorem exec_vrmin {core} {s : State} : exec (.vrmin core) s = execVrmin core s := rfl
theorem exec_vcnt {core} {s : State} : exec (.vcnt core) s = execVcnt core s := rfl
theorem exec_vdlv {core} {s : State} : exec (.vdlv core) s = execVdlv core s := rfl
theorem exec_vilv {core} {s : State} : exec (.vilv core) s = execVilv core s := rfl
theorem exec_xferToLarder {core} {s : State} : exec (.xferToLarder core) s = execXferToLarder core s := rfl
theorem exec_xferFromLarder {core} {s : State} : exec (.xferFromLarder core) s = execXferFromLarder core s := rfl
theorem exec_commandComplete {core} {u} {s : State} : exec (.commandComplete core u) s = execCommandComplete core u s := rfl
theorem exec_maxdurExpire {core} {u} {s : State} : exec (.maxdurExpire core u) s = execMaxdurExpire core u s := rfl
theorem exec_waitRecord {ctx} {s : State} : exec (.waitRecord ctx) s = execWaitRecord ctx s := rfl
theorem exec_signalRecord {ctx} {s : State} : exec (.signalRecord ctx) s = execSignalRecord ctx s := rfl
theorem exec_launch {ctx} {s : State} : exec (.launch ctx) s = execLaunch ctx s := rfl
theorem exec_threadStart {e} {c} {s : State} : exec (.threadStart e c) s = execThreadStart e c s := rfl
theorem exec_idleFor {core} {s : State} : exec (.idleFor core) s = execIdleFor core s := rfl
theorem exec_load {core} {s : State} : exec (.load core) s = execLoad core s := rfl
theorem exec_result {part} {s : State} : exec (.result part) s = execResult part s := rfl
theorem exec_endRecord {ctx} {s : State} : exec (.endRecord ctx) s = execEndRecord ctx s := rfl
theorem exec_nopRecord {ctx} {s : State} : exec (.nopRecord ctx) s = execNopRecord ctx s := rfl
theorem exec_add {e} {c} {s : State} : exec (.add e c) s = execAdd e c s := rfl
theorem exec_sub {e} {c} {s : State} : exec (.sub e c) s = execSub e c s := rfl
theorem exec_and {e} {c} {s : State} : exec (.and e c) s = execAnd e c s := rfl
theorem exec_or {e} {c} {s : State} : exec (.or e c) s = execOr e c s := rfl
theorem exec_xor {e} {c} {s : State} : exec (.xor e c) s = execXor e c s := rfl
theorem exec_shl {e} {c} {s : State} : exec (.shl e c) s = execShl e c s := rfl
theorem exec_shr {e} {c} {s : State} : exec (.shr e c) s = execShr e c s := rfl
theorem exec_sar {e} {c} {s : State} : exec (.sar e c) s = execSar e c s := rfl
theorem exec_slt {e} {c} {s : State} : exec (.slt e c) s = execSlt e c s := rfl
theorem exec_sltu {e} {c} {s : State} : exec (.sltu e c) s = execSltu e c s := rfl
theorem exec_min {e} {c} {s : State} : exec (.min e c) s = execMin e c s := rfl
theorem exec_max {e} {c} {s : State} : exec (.max e c) s = execMax e c s := rfl
theorem exec_clz {e} {c} {s : State} : exec (.clz e c) s = execClz e c s := rfl
theorem exec_popc {e} {c} {s : State} : exec (.popc e c) s = execPopc e c s := rfl
theorem exec_mul {e} {c} {s : State} : exec (.mul e c) s = execMul e c s := rfl
theorem exec_mulhu {e} {c} {s : State} : exec (.mulhu e c) s = execMulhu e c s := rfl
theorem exec_divu {e} {c} {s : State} : exec (.divu e c) s = execDivu e c s := rfl
theorem exec_fadd {e} {c} {s : State} : exec (.fadd e c) s = execFadd e c s := rfl
theorem exec_fsub {e} {c} {s : State} : exec (.fsub e c) s = execFsub e c s := rfl
theorem exec_fmul {e} {c} {s : State} : exec (.fmul e c) s = execFmul e c s := rfl
theorem exec_fmin {e} {c} {s : State} : exec (.fmin e c) s = execFmin e c s := rfl
theorem exec_fmax {e} {c} {s : State} : exec (.fmax e c) s = execFmax e c s := rfl
theorem exec_flt {e} {c} {s : State} : exec (.flt e c) s = execFlt e c s := rfl
theorem exec_fcvti {e} {c} {s : State} : exec (.fcvti e c) s = execFcvti e c s := rfl
theorem exec_fcvtf {e} {c} {s : State} : exec (.fcvtf e c) s = execFcvtf e c s := rfl
theorem exec_addi {e} {c} {s : State} : exec (.addi e c) s = execAddi e c s := rfl
theorem exec_andi {e} {c} {s : State} : exec (.andi e c) s = execAndi e c s := rfl
theorem exec_ori {e} {c} {s : State} : exec (.ori e c) s = execOri e c s := rfl
theorem exec_xori {e} {c} {s : State} : exec (.xori e c) s = execXori e c s := rfl
theorem exec_shi {e} {c} {s : State} : exec (.shi e c) s = execShi e c s := rfl
theorem exec_lui {e} {c} {s : State} : exec (.lui e c) s = execLui e c s := rfl
theorem exec_slti {e} {c} {s : State} : exec (.slti e c) s = execSlti e c s := rfl
theorem exec_ld8 {e} {c} {s : State} : exec (.ld8 e c) s = execLd8 e c s := rfl
theorem exec_ld16 {e} {c} {s : State} : exec (.ld16 e c) s = execLd16 e c s := rfl
theorem exec_ld32 {e} {c} {s : State} : exec (.ld32 e c) s = execLd32 e c s := rfl
theorem exec_ld64 {e} {c} {s : State} : exec (.ld64 e c) s = execLd64 e c s := rfl
theorem exec_st8 {e} {c} {s : State} : exec (.st8 e c) s = execSt8 e c s := rfl
theorem exec_st16 {e} {c} {s : State} : exec (.st16 e c) s = execSt16 e c s := rfl
theorem exec_st32 {e} {c} {s : State} : exec (.st32 e c) s = execSt32 e c s := rfl
theorem exec_st64 {e} {c} {s : State} : exec (.st64 e c) s = execSt64 e c s := rfl
theorem exec_aadd {e} {c} {s : State} : exec (.aadd e c) s = execAadd e c s := rfl
theorem exec_aaddf {e} {c} {s : State} : exec (.aaddf e c) s = execAaddf e c s := rfl
theorem exec_amin {e} {c} {s : State} : exec (.amin e c) s = execAmin e c s := rfl
theorem exec_amax {e} {c} {s : State} : exec (.amax e c) s = execAmax e c s := rfl
theorem exec_axchg {e} {c} {s : State} : exec (.axchg e c) s = execAxchg e c s := rfl
theorem exec_acas {e} {c} {s : State} : exec (.acas e c) s = execAcas e c s := rfl
theorem exec_beq {e} {c} {s : State} : exec (.beq e c) s = execBeq e c s := rfl
theorem exec_bne {e} {c} {s : State} : exec (.bne e c) s = execBne e c s := rfl
theorem exec_blt {e} {c} {s : State} : exec (.blt e c) s = execBlt e c s := rfl
theorem exec_bge {e} {c} {s : State} : exec (.bge e c) s = execBge e c s := rfl
theorem exec_bltu {e} {c} {s : State} : exec (.bltu e c) s = execBltu e c s := rfl
theorem exec_bgeu {e} {c} {s : State} : exec (.bgeu e c) s = execBgeu e c s := rfl
theorem exec_jal {e} {c} {s : State} : exec (.jal e c) s = execJal e c s := rfl
theorem exec_jr {e} {c} {s : State} : exec (.jr e c) s = execJr e c s := rfl
theorem exec_hkey {e} {c} {s : State} : exec (.hkey e c) s = execHkey e c s := rfl
theorem exec_hlook {e} {c} {s : State} : exec (.hlook e c) s = execHlook e c s := rfl
theorem exec_hseen {e} {c} {s : State} : exec (.hseen e c) s = execHseen e c s := rfl
theorem exec_hins {e} {c} {s : State} : exec (.hins e c) s = execHins e c s := rfl
theorem exec_rget {e} {c} {s : State} : exec (.rget e c) s = execRget e c s := rfl
theorem exec_swait {e} {c} {s : State} : exec (.swait e c) s = execSwait e c s := rfl
theorem exec_ssig {e} {c} {s : State} : exec (.ssig e c) s = execSsig e c s := rfl
theorem exec_fence {e} {c} {s : State} : exec (.fence e c) s = execFence e c s := rfl
theorem exec_rdt {e} {c} {s : State} : exec (.rdt e c) s = execRdt e c s := rfl
theorem exec_exit {e} {c} {s : State} : exec (.exit e c) s = execExit e c s := rfl
theorem exec_flockMemComplete {e} {c} {k} {s : State} : exec (.flockMemComplete e c k) s = execFlockMemComplete e c k s := rfl
theorem exec_remoteTimeout {e} {c} {k} {s : State} : exec (.remoteTimeout e c k) s = execRemoteTimeout e c k s := rfl
theorem exec_faultRelease {e} {s : State} : exec (.faultRelease e) s = execFaultRelease e s := rfl
theorem exec_pageRetire {s : State} : exec (.pageRetire) s = execPageRetire s := rfl
theorem exec_celRetRead {index} {s : State} : exec (.celRetRead index) s = execCelRetRead index s := rfl
theorem exec_sliceEnd {part} {s : State} : exec (.sliceEnd part) s = execSliceEnd part s := rfl
theorem exec_sliceYield {part} {s : State} : exec (.sliceYield part) s = execSliceYield part s := rfl
theorem exec_partitionSwitch {part} {s : State} : exec (.partitionSwitch part) s = execPartitionSwitch part s := rfl
theorem exec_sliceBegin {part} {s : State} : exec (.sliceBegin part) s = execSliceBegin part s := rfl
theorem exec_holdExpire {s : State} : exec (.holdExpire) s = execHoldExpire s := rfl
theorem exec_waitTimeout {so} {s : State} : exec (.waitTimeout so) s = execWaitTimeout so s := rfl
theorem exec_soSelect {index} {s : State} : exec (.soSelect index) s = execSoSelect index s := rfl
theorem exec_soRestage {word} {s : State} : exec (.soRestage word) s = execSoRestage word s := rfl
theorem exec_ringEnable {ring} {via} {fields} {s : State} : exec (.ringEnable ring via fields) s = execRingEnable ring via fields s := rfl
theorem exec_ringDisable {ring} {via} {fields} {s : State} : exec (.ringDisable ring via fields) s = execRingDisable ring via fields s := rfl
theorem exec_doorbell {ring} {value} {s : State} : exec (.doorbell ring value) s = execDoorbell ring value s := rfl
theorem exec_descriptorStart {ring} {s : State} : exec (.descriptorStart ring) s = execDescriptorStart ring s := rfl
theorem exec_nopOpcode {ring} {index} {s : State} : exec (.nopOpcode ring index) s = execNopOpcode ring index s := rfl
theorem exec_regRead {ring} {index} {s : State} : exec (.regRead ring index) s = execRegRead ring index s := rfl
theorem exec_regWrite {ring} {index} {s : State} : exec (.regWrite ring index) s = execRegWrite ring index s := rfl
theorem exec_memRead {ring} {index} {s : State} : exec (.memRead ring index) s = execMemRead ring index s := rfl
theorem exec_memWrite {ring} {index} {s : State} : exec (.memWrite ring index) s = execMemWrite ring index s := rfl
theorem exec_imageLoadProgram {ring} {index} {s : State} : exec (.imageLoadProgram ring index) s = execImageLoadProgram ring index s := rfl
theorem exec_imageLoadWeights {ring} {index} {s : State} : exec (.imageLoadWeights ring index) s = execImageLoadWeights ring index s := rfl
theorem exec_imageLoadReference {ring} {index} {cost} {s : State} : exec (.imageLoadReference ring index cost) s = execImageLoadReference ring index cost s := rfl
theorem exec_seqWrite {ring} {index} {s : State} : exec (.seqWrite ring index) s = execSeqWrite ring index s := rfl
theorem exec_lpipeTable {ring} {index} {s : State} : exec (.lpipeTable ring index) s = execLpipeTable ring index s := rfl
theorem exec_setLoadRaw {ring} {index} {s : State} : exec (.setLoadRaw ring index) s = execSetLoadRaw ring index s := rfl
theorem exec_setLoadEntries {ring} {index} {s : State} : exec (.setLoadEntries ring index) s = execSetLoadEntries ring index s := rfl
theorem exec_setLoadClear {ring} {index} {s : State} : exec (.setLoadClear ring index) s = execSetLoadClear ring index s := rfl
theorem exec_camRegRead {ring} {index} {s : State} : exec (.camRegRead ring index) s = execCamRegRead ring index s := rfl
theorem exec_camRegWrite {ring} {index} {s : State} : exec (.camRegWrite ring index) s = execCamRegWrite ring index s := rfl
theorem exec_jobStart {ring} {index} {s : State} : exec (.jobStart ring index) s = execJobStart ring index s := rfl
theorem exec_jobStop {ring} {index} {s : State} : exec (.jobStop ring index) s = execJobStop ring index s := rfl
theorem exec_commit {ring} {index} {s : State} : exec (.commit ring index) s = execCommit ring index s := rfl
theorem exec_commitCheckDone {s : State} : exec (.commitCheckDone) s = execCommitCheckDone s := rfl
theorem exec_commitApply {s : State} : exec (.commitApply) s = execCommitApply s := rfl
theorem exec_discard {ring} {index} {s : State} : exec (.discard ring index) s = execDiscard ring index s := rfl
theorem exec_soWait {ring} {index} {s : State} : exec (.soWait ring index) s = execSoWait ring index s := rfl
theorem exec_soSignal {ring} {index} {s : State} : exec (.soSignal ring index) s = execSoSignal ring index s := rfl
theorem exec_netSet {ring} {index} {s : State} : exec (.netSet ring index) s = execNetSet ring index s := rfl
theorem exec_allowLoad {ring} {index} {s : State} : exec (.allowLoad ring index) s = execAllowLoad ring index s := rfl
theorem exec_attest {ring} {index} {s : State} : exec (.attest ring index) s = execAttest ring index s := rfl
theorem exec_fwPush {ring} {index} {s : State} : exec (.fwPush ring index) s = execFwPush ring index s := rfl
theorem exec_irqHoldoffEnd {ring} {s : State} : exec (.irqHoldoffEnd ring) s = execIrqHoldoffEnd ring s := rfl
theorem exec_functionLevelReset {s : State} : exec (.functionLevelReset) s = execFunctionLevelReset s := rfl
theorem exec_hostReadTimeout {ring} {index} {s : State} : exec (.hostReadTimeout ring index) s = execHostReadTimeout ring index s := rfl
theorem exec_sessionOpen {port} {key} {s : State} : exec (.sessionOpen port key) s = execSessionOpen port key s := rfl
theorem exec_sessionClose {session} {s : State} : exec (.sessionClose session) s = execSessionClose session s := rfl
theorem exec_sessionTimeout {session} {s : State} : exec (.sessionTimeout session) s = execSessionTimeout session s := rfl
theorem exec_keepaliveSend {session} {s : State} : exec (.keepaliveSend session) s = execKeepaliveSend session s := rfl
theorem exec_submit {session} {ring} {index} {payload} {s : State} : exec (.submit session ring index payload) s = execSubmit session ring index payload s := rfl
theorem exec_ack {session} {ring} {cons} {s : State} : exec (.ack session ring cons) s = execAck session ring cons s := rfl
theorem exec_keepalive {session} {s : State} : exec (.keepalive session) s = execKeepalive session s := rfl
theorem exec_sheepdogCheckDone {s : State} : exec (.sheepdogCheckDone) s = execSheepdogCheckDone s := rfl
theorem exec_lockstepMismatch {s : State} : exec (.lockstepMismatch) s = execLockstepMismatch s := rfl
theorem exec_sdgProofArm {lane} {mode} {s : State} : exec (.sdgProofArm lane mode) s = execSdgProofArm lane mode s := rfl
theorem exec_alarmClear {s : State} : exec (.alarmClear) s = execAlarmClear s := rfl
theorem exec_larderMarch {core} {bank} {mismatch} {s : State} : exec (.larderMarch core bank mismatch) s = execLarderMarch core bank mismatch s := rfl
theorem exec_arrayKav {core} {pass} {s : State} : exec (.arrayKav core pass) s = execArrayKav core pass s := rfl
theorem exec_pantryTag {die} {group} {mismatch} {s : State} : exec (.pantryTag die group mismatch) s = execPantryTag die group mismatch s := rfl
theorem exec_lpKal {cam} {pass} {s : State} : exec (.lpKal cam pass) s = execLpKal cam pass s := rfl
theorem exec_coverageIntervalEnd {s : State} : exec (.coverageIntervalEnd) s = execCoverageIntervalEnd s := rfl
theorem exec_inputRunStart {s : State} : exec (.inputRunStart) s = execInputRunStart s := rfl
theorem exec_sampleDecodeStart {s : State} : exec (.sampleDecodeStart) s = execSampleDecodeStart s := rfl
theorem exec_sampleDecodeDone {engine} {cycles} {s : State} : exec (.sampleDecodeDone engine cycles) s = execSampleDecodeDone engine cycles s := rfl
theorem exec_decodeBudgetExpire {engine} {written} {s : State} : exec (.decodeBudgetExpire engine written) s = execDecodeBudgetExpire engine written s := rfl
theorem exec_publicationServe {s : State} : exec (.publicationServe) s = execPublicationServe s := rfl
theorem exec_helloSend {port} {s : State} : exec (.helloSend port) s = execHelloSend port s := rfl
theorem exec_hello {port} {id} {peerPort} {serial} {members} {units} {founder} {s : State} : exec (.hello port id peerPort serial members units founder) s = execHello port id peerPort serial members units founder s := rfl
theorem exec_linkstate {h} {links} {s : State} : exec (.linkstate h links) s = execLinkstate h links s := rfl
theorem exec_promote {h} {epoch} {changes} {s : State} : exec (.promote h epoch changes) s = execPromote h epoch changes s := rfl
theorem exec_posTuple {h} {t} {s : State} : exec (.posTuple h t) s = execPosTuple h t s := rfl
theorem exec_tsyncSend {sub} {s : State} : exec (.tsyncSend sub) s = execTsyncSend sub s := rfl
theorem exec_tsyncReq {h} {t1} {t2} {t3} {s : State} : exec (.tsyncReq h t1 t2 t3) s = execTsyncReq h t1 t2 t3 s := rfl
theorem exec_tsyncResp {h} {t2} {t3} {t4} {s : State} : exec (.tsyncResp h t2 t3 t4) s = execTsyncResp h t2 t3 t4 s := rfl
theorem exec_tsyncTimeout {s : State} : exec (.tsyncTimeout) s = execTsyncTimeout s := rfl
theorem exec_setReq {h} {op} {set} {key} {node} {s : State} : exec (.setReq h op set key node) s = execSetReq h op set key node s := rfl
theorem exec_setResp {h} {value} {stale} {s : State} : exec (.setResp h value stale) s = execSetResp h value stale s := rfl
theorem exec_repl {h} {set} {key} {bucket} {entry} {st} {node} {s : State} : exec (.repl h set key bucket entry st node) s = execRepl h set key bucket entry st node s := rfl
theorem exec_replAck {h} {s : State} : exec (.replAck h) s = execReplAck h s := rfl
theorem exec_rgetReq {h} {addr} {s : State} : exec (.rgetReq h addr) s = execRgetReq h addr s := rfl
theorem exec_rgetResp {h} {data} {s : State} : exec (.rgetResp h data) s = execRgetResp h data s := rfl
theorem exec_halo {h} {entry} {strip} {off} {total} {bytes} {s : State} : exec (.halo h entry strip off total bytes) s = execHalo h entry strip off total bytes s := rfl
theorem exec_ackSend {port} {s : State} : exec (.ackSend port) s = execAckSend port s := rfl
theorem exec_ackSet {port} {lseq} {s : State} : exec (.ackSet port lseq) s = execAckSet port lseq s := rfl
theorem exec_nak {port} {lseq} {s : State} : exec (.nak port lseq) s = execNak port lseq s := rfl
theorem exec_cred {port} {vc} {part} {units} {s : State} : exec (.cred port vc part units) s = execCred port vc part units s := rfl
theorem exec_packetError {received} {s : State} : exec (.packetError received) s = execPacketError received s := rfl
theorem exec_memberLost {m} {synced} {s : State} : exec (.memberLost m synced) s = execMemberLost m synced s := rfl
theorem exec_clockSourceLoss {s : State} : exec (.clockSourceLoss) s = execClockSourceLoss s := rfl
theorem exec_clockSwitch {s : State} : exec (.clockSwitch) s = execClockSwitch s := rfl
theorem exec_loopRelock {s : State} : exec (.loopRelock) s = execLoopRelock s := rfl
theorem exec_clkSwitchRequest {rec} {port} {s : State} : exec (.clkSwitchRequest rec port) s = execClkSwitchRequest rec port s := rfl
theorem exec_clockLostTimeout {s : State} : exec (.clockLostTimeout) s = execClockLostTimeout s := rfl
theorem exec_dtSuspectClear {s : State} : exec (.dtSuspectClear) s = execDtSuspectClear s := rfl
theorem exec_xtalReady {mv} {s : State} : exec (.xtalReady mv) s = execXtalReady mv s := rfl
theorem exec_governorTick {estimate} {mean} {predicted} {s : State} : exec (.governorTick estimate mean predicted) s = execGovernorTick estimate mean predicted s := rfl
theorem exec_vrAlert {status} {latched} {s : State} : exec (.vrAlert status latched) s = execVrAlert status latched s := rfl
theorem exec_vrAlertDeassert {s : State} : exec (.vrAlertDeassert) s = execVrAlertDeassert s := rfl
theorem exec_thermalSample {temps} {s : State} : exec (.thermalSample temps) s = execThermalSample temps s := rfl
theorem exec_thermalTrip {sensor} {temp} {s : State} : exec (.thermalTrip sensor temp) s = execThermalTrip sensor temp s := rfl
theorem exec_quadSleep {quad} {s : State} : exec (.quadSleep quad) s = execQuadSleep quad s := rfl
theorem exec_quadWake {quad} {s : State} : exec (.quadWake quad) s = execQuadWake quad s := rfl
theorem exec_quadDeepEnter {quad} {s : State} : exec (.quadDeepEnter quad) s = execQuadDeepEnter quad s := rfl
theorem exec_ptpSync {port} {domain} {source} {seq} {twoStep} {origin} {corr} {logInterval} {s : State} : exec (.ptpSync port domain source seq twoStep origin corr logInterval) s = execPtpSync port domain source seq twoStep origin corr logInterval s := rfl
theorem exec_ptpFollowUp {port} {domain} {source} {seq} {origin} {corr} {s : State} : exec (.ptpFollowUp port domain source seq origin corr) s = execPtpFollowUp port domain source seq origin corr s := rfl
theorem exec_ptpDelayResp {port} {domain} {source} {seq} {receipt} {corr} {s : State} : exec (.ptpDelayResp port domain source seq receipt corr) s = execPtpDelayResp port domain source seq receipt corr s := rfl
theorem exec_ptpAnnounce {port} {domain} {source} {prio1} {cls} {accuracy} {variance} {prio2} {gm} {steps} {utc} {logInterval} {s : State} : exec (.ptpAnnounce port domain source prio1 cls accuracy variance prio2 gm steps utc logInterval) s = execPtpAnnounce port domain source prio1 cls accuracy variance prio2 gm steps utc logInterval s := rfl
theorem exec_ptpTxComplete {port} {msgType} {seq} {s : State} : exec (.ptpTxComplete port msgType seq) s = execPtpTxComplete port msgType seq s := rfl
theorem exec_announceTimeout {s : State} : exec (.announceTimeout) s = execAnnounceTimeout s := rfl
theorem exec_txqStale {s : State} : exec (.txqStale) s = execTxqStale s := rfl
theorem exec_ntimeExtend {s : State} : exec (.ntimeExtend) s = execNtimeExtend s := rfl
theorem exec_ntmSnapTake {s : State} : exec (.ntmSnapTake) s = execNtmSnapTake s := rfl
theorem exec_ntmSnapExtend {s : State} : exec (.ntmSnapExtend) s = execNtmSnapExtend s := rfl
theorem exec_tpoFire {n} {s : State} : exec (.tpoFire n) s = execTpoFire n s := rfl
theorem exec_tpoPulseEnd {n} {s : State} : exec (.tpoPulseEnd n) s = execTpoPulseEnd n s := rfl
theorem exec_loftUpdate {s : State} : exec (.loftUpdate) s = execLoftUpdate s := rfl
theorem exec_loftCurWrite {record} {s : State} : exec (.loftCurWrite record) s = execLoftCurWrite record s := rfl
theorem exec_loftClearOne {record} {s : State} : exec (.loftClearOne record) s = execLoftClearOne record s := rfl
theorem exec_loftClearAll {s : State} : exec (.loftClearAll) s = execLoftClearAll s := rfl
theorem exec_loftClearDrop {s : State} : exec (.loftClearDrop) s = execLoftClearDrop s := rfl
theorem exec_powerOn {s : State} : exec (.powerOn) s = execPowerOn s := rfl
theorem exec_supplyDrop {s : State} : exec (.supplyDrop) s = execSupplyDrop s := rfl
theorem exec_moduleReset {readable} {katFail} {s : State} : exec (.moduleReset readable katFail) s = execModuleReset readable katFail s := rfl
theorem exec_bootPushGo {readOk} {s : State} : exec (.bootPushGo readOk) s = execBootPushGo readOk s := rfl
theorem exec_pushComplete {ok} {s : State} : exec (.pushComplete ok) s = execPushComplete ok s := rfl
theorem exec_bootCtlReset {key} {reset} {s : State} : exec (.bootCtlReset key reset) s = execBootCtlReset key reset s := rfl
theorem exec_bootCertSelect {cert} {word} {s : State} : exec (.bootCertSelect cert word) s = execBootCertSelect cert word s := rfl
theorem exec_fuseBlow {s : State} : exec (.fuseBlow) s = execFuseBlow s := rfl
theorem exec_extest {cells} {s : State} : exec (.extest cells) s = execExtest cells s := rfl
theorem exec_samplePreload {cells} {s : State} : exec (.samplePreload cells) s = execSamplePreload cells s := rfl
theorem exec_idcode {s : State} : exec (.idcode) s = execIdcode s := rfl
theorem exec_clamp {s : State} : exec (.clamp) s = execClamp s := rfl
theorem exec_highz {s : State} : exec (.highz) s = execHighz s := rfl
theorem exec_bypass {s : State} : exec (.bypass) s = execBypass s := rfl
theorem exec_fieldSupplyReturn {s : State} : exec (.fieldSupplyReturn) s = execFieldSupplyReturn s := rfl
theorem exec_holdUpEnd {s : State} : exec (.holdUpEnd) s = execHoldUpEnd s := rfl
theorem exec_crystalAmplitudeLoss {mv} {s : State} : exec (.crystalAmplitudeLoss mv) s = execCrystalAmplitudeLoss mv s := rfl
theorem exec_recoveredClockReady {port} {within} {s : State} : exec (.recoveredClockReady port within) s = execRecoveredClockReady port within s := rfl
theorem exec_larderFillDone {core} {s : State} : exec (.larderFillDone core) s = execLarderFillDone core s := rfl

/-- A command keeps every property of states that is closed under changes of each part of State but `pending`. -/
theorem exec_holds [ClosedRegs G] [ClosedStaged G] [ClosedPairs G] [ClosedHolding G] [ClosedDtime G] [ClosedMem G]
    [ClosedLarder G] [ClosedHost G] [ClosedFree G] [ClosedModule G] [ClosedCel G] [ClosedPos G]
    [ClosedLanes G] [ClosedCams G] [ClosedLp G] [ClosedSeq G] [ClosedField G] [ClosedLink G] [ClosedAud
    G] [ClosedLoft G] [ClosedNtm G] [ClosedGts G] [ClosedClient G] [ClosedCores G] [ClosedLists G]
    [ClosedJobs G] [ClosedPtns G] [ClosedFlock G] [ClosedAdp G] [ClosedSdg G] [ClosedStage G]
    [ClosedSync G] [ClosedClk G] [ClosedBoot G] [ClosedReset G] (i : Instr) {s : State} (hs : Holds G s) : HoldsOut G (exec i s) := by
  refine Instr.casesOn (motive := fun i => HoldsOut G (exec i s)) i
    (fun _ _ _ => exec_registerWrite ▸ execRegisterWrite_holds hs)
    (fun _ _ => exec_w1cClear ▸ execW1cClear_holds hs)
    (fun _ _ => exec_loReadLatch ▸ execLoReadLatch_holds hs)
    (fun _ => exec_counterClear ▸ execCounterClear_holds hs)
    (exec_accessErrClear ▸ execAccessErrClear_holds hs)
    (fun _ _ => exec_pairMemberWrite ▸ execPairMemberWrite_holds hs)
    (fun _ _ => exec_pairLatch ▸ execPairLatch_holds hs)
    (exec_wposExtrapolate ▸ execWposExtrapolate_holds hs)
    (fun _ _ _ _ _ _ _ => exec_encoderRead ▸ execEncoderRead_holds hs)
    (exec_posLost ▸ execPosLost_holds hs)
    (exec_posTupleSend ▸ execPosTupleSend_holds hs)
    (exec_takeover ▸ execTakeover_holds hs)
    (exec_posSnapTake ▸ execPosSnapTake_holds hs)
    (exec_nop ▸ execNop_holds hs)
    (exec_partClose ▸ execPartClose_holds hs)
    (exec_partOpen ▸ execPartOpen_holds hs)
    (exec_lineGate ▸ execLineGate_holds hs)
    (exec_stripCut ▸ execStripCut_holds hs)
    (exec_roiApply ▸ execRoiApply_holds hs)
    (exec_decision ▸ execDecision_holds hs)
    (exec_ejectPass ▸ execEjectPass_holds hs)
    (exec_pulse ▸ execPulse_holds hs)
    (exec_selftestWin ▸ execSelftestWin_holds hs)
    (exec_signal ▸ execSignal_holds hs)
    (exec_loftMark ▸ execLoftMark_holds hs)
    (exec_edgeRecompute ▸ execEdgeRecompute_holds hs)
    (exec_edgeReportTimeout ▸ execEdgeReportTimeout_holds hs)
    (fun _ => exec_psqTblRead ▸ execPsqTblRead_holds hs)
    (fun _ => exec_partWinRead ▸ execPartWinRead_holds hs)
    (fun _ _ _ _ _ => exec_edgeNew ▸ execEdgeNew_holds hs)
    (fun _ _ _ _ _ => exec_edgeCorr ▸ execEdgeCorr_holds hs)
    (fun _ _ _ => exec_edgeHold ▸ execEdgeHold_holds hs)
    (fun _ _ _ => exec_edgeCancel ▸ execEdgeCancel_holds hs)
    (fun _ _ _ => exec_heartbeat ▸ execHeartbeat_holds hs)
    (fun _ _ _ _ _ _ => exec_outCfg ▸ execOutCfg_holds hs)
    (fun _ _ => exec_outSet ▸ execOutSet_holds hs)
    (fun _ _ => exec_lsSet ▸ execLsSet_holds hs)
    (fun _ => exec_resume ▸ execResume_holds hs)
    (fun _ _ _ _ => exec_inCfg ▸ execInCfg_holds hs)
    (exec_downlinkBadFrame ▸ execDownlinkBadFrame_holds hs)
    (fun _ _ _ _ _ _ => exec_edgeDone ▸ execEdgeDone_holds hs)
    (fun _ _ _ _ _ => exec_reject ▸ execReject_holds hs)
    (fun _ _ _ _ _ _ _ _ _ _ => exec_status ▸ execStatus_holds hs)
    (fun _ _ _ _ => exec_inputEdge ▸ execInputEdge_holds hs)
    (exec_uplinkCrcError ▸ execUplinkCrcError_holds hs)
    (exec_syncEdgeSend ▸ execSyncEdgeSend_holds hs)
    (exec_edgeFire ▸ execEdgeFire_holds hs)
    (exec_heartbeatLoss ▸ execHeartbeatLoss_holds hs)
    (exec_uplinkLost ▸ execUplinkLost_holds hs)
    (fun _ => exec_overload ▸ execOverload_holds hs)
    (fun _ _ => exec_overtemp ▸ execOvertemp_holds hs)
    (fun _ _ => exec_openOff ▸ execOpenOff_holds hs)
    (fun _ => exec_openOn ▸ execOpenOn_holds hs)
    (exec_supplyLow ▸ execSupplyLow_holds hs)
    (exec_lsFault ▸ execLsFault_holds hs)
    (fun _ _ _ => exec_inputConfirm ▸ execInputConfirm_holds hs)
    (fun _ => exec_lsCauseClear ▸ execLsCauseClear_holds hs)
    (exec_fldStop ▸ execFldStop_holds hs)
    (exec_fldResume ▸ execFldResume_holds hs)
    (fun _ => exec_fldOutSetWrite ▸ execFldOutSetWrite_holds hs)
    (exec_acJudge ▸ execAcJudge_holds hs)
    (fun _ => exec_supFault ▸ execSupFault_holds hs)
    (fun _ _ _ _ _ => exec_featureFrame ▸ execFeatureFrame_holds hs)
    (fun _ => exec_laneSignalDetect ▸ execLaneSignalDetect_holds hs)
    (fun _ => exec_laneSignalLoss ▸ execLaneSignalLoss_holds hs)
    (fun _ => exec_cdrLock ▸ execCdrLock_holds hs)
    (fun _ => exec_cdrLockLoss ▸ execCdrLockLoss_holds hs)
    (fun _ _ _ => exec_acquireGroup ▸ execAcquireGroup_holds hs)
    (fun _ _ _ => exec_alignedGroup ▸ execAlignedGroup_holds hs)
    (fun _ _ _ _ => exec_eyeScanStart ▸ execEyeScanStart_holds hs)
    (fun _ => exec_eyeScanAbort ▸ execEyeScanAbort_holds hs)
    (fun _ _ => exec_eyeScanDone ▸ execEyeScanDone_holds hs)
    (fun _ => exec_rediscover ▸ execRediscover_holds hs)
    (fun _ => exec_discoverLanesAligned ▸ execDiscoverLanesAligned_holds hs)
    (fun _ => exec_discoverAlignTimeout ▸ execDiscoverAlignTimeout_holds hs)
    (fun _ _ _ _ => exec_controlReply ▸ execControlReply_holds hs)
    (fun _ => exec_controlTimeout ▸ execControlTimeout_holds hs)
    (fun _ _ _ _ => exec_streamPacket ▸ execStreamPacket_holds hs)
    (fun _ => exec_slotDeadline ▸ execSlotDeadline_holds hs)
    (fun _ => exec_rowBuild ▸ execRowBuild_holds hs)
    (fun _ => exec_inputDigestFinal ▸ execInputDigestFinal_holds hs)
    (fun _ => exec_mcmd ▸ execMcmd_holds hs)
    (fun _ => exec_vmov ▸ execVmov_holds hs)
    (fun _ => exec_vadd ▸ execVadd_holds hs)
    (fun _ => exec_vsub ▸ execVsub_holds hs)
    (fun _ => exec_vmul ▸ execVmul_holds hs)
    (fun _ => exec_vmax ▸ execVmax_holds hs)
    (fun _ => exec_vmin ▸ execVmin_holds hs)
    (fun _ => exec_vclamp ▸ execVclamp_holds hs)
    (fun _ => exec_vcmp ▸ execVcmp_holds hs)
    (fun _ => exec_vsel ▸ execVsel_holds hs)
    (fun _ => exec_vmacw ▸ execVmacw_holds hs)
    (fun _ => exec_vreq ▸ execVreq_holds hs)
    (fun _ => exec_vcvt ▸ execVcvt_holds hs)
    (fun _ => exec_vlut ▸ execVlut_holds hs)
    (fun _ => exec_vpoolh ▸ execVpoolh_holds hs)
    (fun _ => exec_vrsum ▸ execVrsum_holds hs)
    (fun _ => exec_vrmax ▸ execVrmax_holds hs)
    (fun _ => exec_vrmin ▸ execVrmin_holds hs)
    (fun _ => exec_vcnt ▸ execVcnt_holds hs)
    (fun _ => exec_vdlv ▸ execVdlv_holds hs)
    (fun _ => exec_vilv ▸ execVilv_holds hs)
    (fun _ => exec_xferToLarder ▸ execXferToLarder_holds hs)
    (fun _ => exec_xferFromLarder ▸ execXferFromLarder_holds hs)
    (fun _ _ => exec_commandComplete ▸ execCommandComplete_holds hs)
    (fun _ _ => exec_maxdurExpire ▸ execMaxdurExpire_holds hs)
    (fun _ => exec_waitRecord ▸ execWaitRecord_holds hs)
    (fun _ => exec_signalRecord ▸ execSignalRecord_holds hs)
    (fun _ => exec_launch ▸ execLaunch_holds hs)
    (fun _ _ => exec_threadStart ▸ execThreadStart_holds hs)
    (fun _ => exec_idleFor ▸ execIdleFor_holds hs)
    (fun _ => exec_load ▸ execLoad_holds hs)
    (fun _ => exec_result ▸ execResult_holds hs)
    (fun _ => exec_endRecord ▸ execEndRecord_holds hs)
    (fun _ => exec_nopRecord ▸ execNopRecord_holds hs)
    (fun _ _ => exec_add ▸ execAdd_holds hs)
    (fun _ _ => exec_sub ▸ execSub_holds hs)
    (fun _ _ => exec_and ▸ execAnd_holds hs)
    (fun _ _ => exec_or ▸ execOr_holds hs)
    (fun _ _ => exec_xor ▸ execXor_holds hs)
    (fun _ _ => exec_shl ▸ execShl_holds hs)
    (fun _ _ => exec_shr ▸ execShr_holds hs)
    (fun _ _ => exec_sar ▸ execSar_holds hs)
    (fun _ _ => exec_slt ▸ execSlt_holds hs)
    (fun _ _ => exec_sltu ▸ execSltu_holds hs)
    (fun _ _ => exec_min ▸ execMin_holds hs)
    (fun _ _ => exec_max ▸ execMax_holds hs)
    (fun _ _ => exec_clz ▸ execClz_holds hs)
    (fun _ _ => exec_popc ▸ execPopc_holds hs)
    (fun _ _ => exec_mul ▸ execMul_holds hs)
    (fun _ _ => exec_mulhu ▸ execMulhu_holds hs)
    (fun _ _ => exec_divu ▸ execDivu_holds hs)
    (fun _ _ => exec_fadd ▸ execFadd_holds hs)
    (fun _ _ => exec_fsub ▸ execFsub_holds hs)
    (fun _ _ => exec_fmul ▸ execFmul_holds hs)
    (fun _ _ => exec_fmin ▸ execFmin_holds hs)
    (fun _ _ => exec_fmax ▸ execFmax_holds hs)
    (fun _ _ => exec_flt ▸ execFlt_holds hs)
    (fun _ _ => exec_fcvti ▸ execFcvti_holds hs)
    (fun _ _ => exec_fcvtf ▸ execFcvtf_holds hs)
    (fun _ _ => exec_addi ▸ execAddi_holds hs)
    (fun _ _ => exec_andi ▸ execAndi_holds hs)
    (fun _ _ => exec_ori ▸ execOri_holds hs)
    (fun _ _ => exec_xori ▸ execXori_holds hs)
    (fun _ _ => exec_shi ▸ execShi_holds hs)
    (fun _ _ => exec_lui ▸ execLui_holds hs)
    (fun _ _ => exec_slti ▸ execSlti_holds hs)
    (fun _ _ => exec_ld8 ▸ execLd8_holds hs)
    (fun _ _ => exec_ld16 ▸ execLd16_holds hs)
    (fun _ _ => exec_ld32 ▸ execLd32_holds hs)
    (fun _ _ => exec_ld64 ▸ execLd64_holds hs)
    (fun _ _ => exec_st8 ▸ execSt8_holds hs)
    (fun _ _ => exec_st16 ▸ execSt16_holds hs)
    (fun _ _ => exec_st32 ▸ execSt32_holds hs)
    (fun _ _ => exec_st64 ▸ execSt64_holds hs)
    (fun _ _ => exec_aadd ▸ execAadd_holds hs)
    (fun _ _ => exec_aaddf ▸ execAaddf_holds hs)
    (fun _ _ => exec_amin ▸ execAmin_holds hs)
    (fun _ _ => exec_amax ▸ execAmax_holds hs)
    (fun _ _ => exec_axchg ▸ execAxchg_holds hs)
    (fun _ _ => exec_acas ▸ execAcas_holds hs)
    (fun _ _ => exec_beq ▸ execBeq_holds hs)
    (fun _ _ => exec_bne ▸ execBne_holds hs)
    (fun _ _ => exec_blt ▸ execBlt_holds hs)
    (fun _ _ => exec_bge ▸ execBge_holds hs)
    (fun _ _ => exec_bltu ▸ execBltu_holds hs)
    (fun _ _ => exec_bgeu ▸ execBgeu_holds hs)
    (fun _ _ => exec_jal ▸ execJal_holds hs)
    (fun _ _ => exec_jr ▸ execJr_holds hs)
    (fun _ _ => exec_hkey ▸ execHkey_holds hs)
    (fun _ _ => exec_hlook ▸ execHlook_holds hs)
    (fun _ _ => exec_hseen ▸ execHseen_holds hs)
    (fun _ _ => exec_hins ▸ execHins_holds hs)
    (fun _ _ => exec_rget ▸ execRget_holds hs)
    (fun _ _ => exec_swait ▸ execSwait_holds hs)
    (fun _ _ => exec_ssig ▸ execSsig_holds hs)
    (fun _ _ => exec_fence ▸ execFence_holds hs)
    (fun _ _ => exec_rdt ▸ execRdt_holds hs)
    (fun _ _ => exec_exit ▸ execExit_holds hs)
    (fun _ _ _ => exec_flockMemComplete ▸ execFlockMemComplete_holds hs)
    (fun _ _ _ => exec_remoteTimeout ▸ execRemoteTimeout_holds hs)
    (fun _ => exec_faultRelease ▸ execFaultRelease_holds hs)
    (exec_pageRetire ▸ execPageRetire_holds hs)
    (fun _ => exec_celRetRead ▸ execCelRetRead_holds hs)
    (fun _ => exec_sliceEnd ▸ execSliceEnd_holds hs)
    (fun _ => exec_sliceYield ▸ execSliceYield_holds hs)
    (fun _ => exec_partitionSwitch ▸ execPartitionSwitch_holds hs)
    (fun _ => exec_sliceBegin ▸ execSliceBegin_holds hs)
    (exec_holdExpire ▸ execHoldExpire_holds hs)
    (fun _ => exec_waitTimeout ▸ execWaitTimeout_holds hs)
    (fun _ => exec_soSelect ▸ execSoSelect_holds hs)
    (fun _ => exec_soRestage ▸ execSoRestage_holds hs)
    (fun _ _ _ => exec_ringEnable ▸ execRingEnable_holds hs)
    (fun _ _ _ => exec_ringDisable ▸ execRingDisable_holds hs)
    (fun _ _ => exec_doorbell ▸ execDoorbell_holds hs)
    (fun _ => exec_descriptorStart ▸ execDescriptorStart_holds hs)
    (fun _ _ => exec_nopOpcode ▸ execNopOpcode_holds hs)
    (fun _ _ => exec_regRead ▸ execRegRead_holds hs)
    (fun _ _ => exec_regWrite ▸ execRegWrite_holds hs)
    (fun _ _ => exec_memRead ▸ execMemRead_holds hs)
    (fun _ _ => exec_memWrite ▸ execMemWrite_holds hs)
    (fun _ _ => exec_imageLoadProgram ▸ execImageLoadProgram_holds hs)
    (fun _ _ => exec_imageLoadWeights ▸ execImageLoadWeights_holds hs)
    (fun _ _ _ => exec_imageLoadReference ▸ execImageLoadReference_holds hs)
    (fun _ _ => exec_seqWrite ▸ execSeqWrite_holds hs)
    (fun _ _ => exec_lpipeTable ▸ execLpipeTable_holds hs)
    (fun _ _ => exec_setLoadRaw ▸ execSetLoadRaw_holds hs)
    (fun _ _ => exec_setLoadEntries ▸ execSetLoadEntries_holds hs)
    (fun _ _ => exec_setLoadClear ▸ execSetLoadClear_holds hs)
    (fun _ _ => exec_camRegRead ▸ execCamRegRead_holds hs)
    (fun _ _ => exec_camRegWrite ▸ execCamRegWrite_holds hs)
    (fun _ _ => exec_jobStart ▸ execJobStart_holds hs)
    (fun _ _ => exec_jobStop ▸ execJobStop_holds hs)
    (fun _ _ => exec_commit ▸ execCommit_holds hs)
    (exec_commitCheckDone ▸ execCommitCheckDone_holds hs)
    (exec_commitApply ▸ execCommitApply_holds hs)
    (fun _ _ => exec_discard ▸ execDiscard_holds hs)
    (fun _ _ => exec_soWait ▸ execSoWait_holds hs)
    (fun _ _ => exec_soSignal ▸ execSoSignal_holds hs)
    (fun _ _ => exec_netSet ▸ execNetSet_holds hs)
    (fun _ _ => exec_allowLoad ▸ execAllowLoad_holds hs)
    (fun _ _ => exec_attest ▸ execAttest_holds hs)
    (fun _ _ => exec_fwPush ▸ execFwPush_holds hs)
    (fun _ => exec_irqHoldoffEnd ▸ execIrqHoldoffEnd_holds hs)
    (exec_functionLevelReset ▸ execFunctionLevelReset_holds hs)
    (fun _ _ => exec_hostReadTimeout ▸ execHostReadTimeout_holds hs)
    (fun _ _ => exec_sessionOpen ▸ execSessionOpen_holds hs)
    (fun _ => exec_sessionClose ▸ execSessionClose_holds hs)
    (fun _ => exec_sessionTimeout ▸ execSessionTimeout_holds hs)
    (fun _ => exec_keepaliveSend ▸ execKeepaliveSend_holds hs)
    (fun _ _ _ _ => exec_submit ▸ execSubmit_holds hs)
    (fun _ _ _ => exec_ack ▸ execAck_holds hs)
    (fun _ => exec_keepalive ▸ execKeepalive_holds hs)
    (exec_sheepdogCheckDone ▸ execSheepdogCheckDone_holds hs)
    (exec_lockstepMismatch ▸ execLockstepMismatch_holds hs)
    (fun _ _ => exec_sdgProofArm ▸ execSdgProofArm_holds hs)
    (exec_alarmClear ▸ execAlarmClear_holds hs)
    (fun _ _ _ => exec_larderMarch ▸ execLarderMarch_holds hs)
    (fun _ _ => exec_arrayKav ▸ execArrayKav_holds hs)
    (fun _ _ _ => exec_pantryTag ▸ execPantryTag_holds hs)
    (fun _ _ => exec_lpKal ▸ execLpKal_holds hs)
    (exec_coverageIntervalEnd ▸ execCoverageIntervalEnd_holds hs)
    (exec_inputRunStart ▸ execInputRunStart_holds hs)
    (exec_sampleDecodeStart ▸ execSampleDecodeStart_holds hs)
    (fun _ _ => exec_sampleDecodeDone ▸ execSampleDecodeDone_holds hs)
    (fun _ _ => exec_decodeBudgetExpire ▸ execDecodeBudgetExpire_holds hs)
    (exec_publicationServe ▸ execPublicationServe_holds hs)
    (fun _ => exec_helloSend ▸ execHelloSend_holds hs)
    (fun _ _ _ _ _ _ _ => exec_hello ▸ execHello_holds hs)
    (fun _ _ => exec_linkstate ▸ execLinkstate_holds hs)
    (fun _ _ _ => exec_promote ▸ execPromote_holds hs)
    (fun _ _ => exec_posTuple ▸ execPosTuple_holds hs)
    (fun _ => exec_tsyncSend ▸ execTsyncSend_holds hs)
    (fun _ _ _ _ => exec_tsyncReq ▸ execTsyncReq_holds hs)
    (fun _ _ _ _ => exec_tsyncResp ▸ execTsyncResp_holds hs)
    (exec_tsyncTimeout ▸ execTsyncTimeout_holds hs)
    (fun _ _ _ _ _ => exec_setReq ▸ execSetReq_holds hs)
    (fun _ _ _ => exec_setResp ▸ execSetResp_holds hs)
    (fun _ _ _ _ _ _ _ => exec_repl ▸ execRepl_holds hs)
    (fun _ => exec_replAck ▸ execReplAck_holds hs)
    (fun _ _ => exec_rgetReq ▸ execRgetReq_holds hs)
    (fun _ _ => exec_rgetResp ▸ execRgetResp_holds hs)
    (fun _ _ _ _ _ _ => exec_halo ▸ execHalo_holds hs)
    (fun _ => exec_ackSend ▸ execAckSend_holds hs)
    (fun _ _ => exec_ackSet ▸ execAckSet_holds hs)
    (fun _ _ => exec_nak ▸ execNak_holds hs)
    (fun _ _ _ _ => exec_cred ▸ execCred_holds hs)
    (fun _ => exec_packetError ▸ execPacketError_holds hs)
    (fun _ _ => exec_memberLost ▸ execMemberLost_holds hs)
    (exec_clockSourceLoss ▸ execClockSourceLoss_holds hs)
    (exec_clockSwitch ▸ execClockSwitch_holds hs)
    (exec_loopRelock ▸ execLoopRelock_holds hs)
    (fun _ _ => exec_clkSwitchRequest ▸ execClkSwitchRequest_holds hs)
    (exec_clockLostTimeout ▸ execClockLostTimeout_holds hs)
    (exec_dtSuspectClear ▸ execDtSuspectClear_holds hs)
    (fun _ => exec_xtalReady ▸ execXtalReady_holds hs)
    (fun _ _ _ => exec_governorTick ▸ execGovernorTick_holds hs)
    (fun _ _ => exec_vrAlert ▸ execVrAlert_holds hs)
    (exec_vrAlertDeassert ▸ execVrAlertDeassert_holds hs)
    (fun _ => exec_thermalSample ▸ execThermalSample_holds hs)
    (fun _ _ => exec_thermalTrip ▸ execThermalTrip_holds hs)
    (fun _ => exec_quadSleep ▸ execQuadSleep_holds hs)
    (fun _ => exec_quadWake ▸ execQuadWake_holds hs)
    (fun _ => exec_quadDeepEnter ▸ execQuadDeepEnter_holds hs)
    (fun _ _ _ _ _ _ _ _ => exec_ptpSync ▸ execPtpSync_holds hs)
    (fun _ _ _ _ _ _ => exec_ptpFollowUp ▸ execPtpFollowUp_holds hs)
    (fun _ _ _ _ _ _ => exec_ptpDelayResp ▸ execPtpDelayResp_holds hs)
    (fun _ _ _ _ _ _ _ _ _ _ _ _ => exec_ptpAnnounce ▸ execPtpAnnounce_holds hs)
    (fun _ _ _ => exec_ptpTxComplete ▸ execPtpTxComplete_holds hs)
    (exec_announceTimeout ▸ execAnnounceTimeout_holds hs)
    (exec_txqStale ▸ execTxqStale_holds hs)
    (exec_ntimeExtend ▸ execNtimeExtend_holds hs)
    (exec_ntmSnapTake ▸ execNtmSnapTake_holds hs)
    (exec_ntmSnapExtend ▸ execNtmSnapExtend_holds hs)
    (fun _ => exec_tpoFire ▸ execTpoFire_holds hs)
    (fun _ => exec_tpoPulseEnd ▸ execTpoPulseEnd_holds hs)
    (exec_loftUpdate ▸ execLoftUpdate_holds hs)
    (fun _ => exec_loftCurWrite ▸ execLoftCurWrite_holds hs)
    (fun _ => exec_loftClearOne ▸ execLoftClearOne_holds hs)
    (exec_loftClearAll ▸ execLoftClearAll_holds hs)
    (exec_loftClearDrop ▸ execLoftClearDrop_holds hs)
    (exec_powerOn ▸ execPowerOn_holds hs)
    (exec_supplyDrop ▸ execSupplyDrop_holds hs)
    (fun _ _ => exec_moduleReset ▸ execModuleReset_holds hs)
    (fun _ => exec_bootPushGo ▸ execBootPushGo_holds hs)
    (fun _ => exec_pushComplete ▸ execPushComplete_holds hs)
    (fun _ _ => exec_bootCtlReset ▸ execBootCtlReset_holds hs)
    (fun _ _ => exec_bootCertSelect ▸ execBootCertSelect_holds hs)
    (exec_fuseBlow ▸ execFuseBlow_holds hs)
    (fun _ => exec_extest ▸ execExtest_holds hs)
    (fun _ => exec_samplePreload ▸ execSamplePreload_holds hs)
    (exec_idcode ▸ execIdcode_holds hs)
    (exec_clamp ▸ execClamp_holds hs)
    (exec_highz ▸ execHighz_holds hs)
    (exec_bypass ▸ execBypass_holds hs)
    (exec_fieldSupplyReturn ▸ execFieldSupplyReturn_holds hs)
    (exec_holdUpEnd ▸ execHoldUpEnd_holds hs)
    (fun _ => exec_crystalAmplitudeLoss ▸ execCrystalAmplitudeLoss_holds hs)
    (fun _ _ => exec_recoveredClockReady ▸ execRecoveredClockReady_holds hs)
    (fun _ => exec_larderFillDone ▸ execLarderFillDone_holds hs)

end Sys2Proof.Machine
end

