-- ==== Sys2Proof/Laws/Fields.lean ====
section
/-! SUPPORT. Laws/Fields.lean: reading a register or a field after a write, over canonical registers. -/

namespace Sys2Proof.Machine

/-! ### Bit fields -/

/-- The parts of a word with a field replaced: below it, the field, above it. -/
theorem putBits_parts {w hi lo v : Nat} (h : lo ≤ hi) :
    putBits w hi lo v % 2 ^ lo = w % 2 ^ lo ∧ putBits w hi lo v / 2 ^ lo % 2 ^ (hi - lo + 1) = v % 2 ^ (hi - lo + 1) ∧
      putBits w hi lo v / 2 ^ (hi + 1) = w / 2 ^ (hi + 1) := by
  have hA : 2 ^ (hi + 1) = 2 ^ lo * 2 ^ (hi - lo + 1) := by
    rw [← Nat.pow_add]; congr 1; omega
  unfold putBits
  rw [hA]
  generalize ha : 2 ^ lo = a
  generalize hb : 2 ^ (hi - lo + 1) = b
  have a0 : 0 < a := by rw [← ha]; exact Nat.two_pow_pos lo
  have b0 : 0 < b := by rw [← hb]; exact Nat.two_pow_pos _
  have hm : v % b < b := Nat.mod_lt _ b0
  generalize hq : w / (a * b) = q
  generalize hk : v % b = m at *
  have e : w % a + m * a + q * (a * b) = w % a + a * (m + q * b) := by
    rw [Nat.mul_add, ← Nat.mul_assoc a q b, Nat.mul_comm a m, Nat.mul_comm a q]; ring
  have d : (w % a + a * (m + q * b)) / a = m + q * b := by
    rw [Nat.add_mul_div_left _ _ a0, Nat.div_eq_of_lt (Nat.mod_lt _ a0), Nat.zero_add]
  refine ⟨?_, ?_, ?_⟩
  · rw [e, Nat.add_mul_mod_self_left, Nat.mod_mod]
  · rw [e, d, Nat.add_mul_mod_self_right, Nat.mod_eq_of_lt hm]
  · rw [e, ← Nat.div_div_eq_div_mul, d, Nat.add_mul_div_right _ _ b0, Nat.div_eq_of_lt hm, Nat.zero_add]

/-- A field read after it was written. -/
theorem bits_putBits_same {w hi lo v : Nat} (h : lo ≤ hi) : bits (putBits w hi lo v) hi lo = v % 2 ^ (hi - lo + 1) :=
  (putBits_parts h).2.1

/-- A field below the one written. -/
theorem bits_putBits_below {w hi lo v hi' lo' : Nat} (h : lo ≤ hi) (h' : lo' ≤ hi') (hd : hi' < lo) :
    bits (putBits w hi lo v) hi' lo' = bits w hi' lo' := by
  have key : ∀ n : Nat, n / 2 ^ lo' % 2 ^ (hi' - lo' + 1) = n % 2 ^ lo / 2 ^ lo' % 2 ^ (hi' - lo' + 1) := by
    intro n
    have e : 2 ^ lo = 2 ^ lo' * (2 ^ (hi' - lo' + 1) * 2 ^ (lo - hi' - 1)) := by
      rw [← Nat.pow_add, ← Nat.pow_add]; congr 1; omega
    rw [e, Nat.mod_mul_right_div_self, Nat.mod_mul_right_mod]
  unfold bits
  rw [key (putBits w hi lo v), key w, (putBits_parts h).1]

/-- A field above the one written. -/
theorem bits_putBits_above {w hi lo v hi' lo' : Nat} (h : lo ≤ hi) (hd : hi < lo') :
    bits (putBits w hi lo v) hi' lo' = bits w hi' lo' := by
  have e : 2 ^ lo' = 2 ^ (hi + 1) * 2 ^ (lo' - hi - 1) := by
    rw [← Nat.pow_add]; congr 1; omega
  unfold bits
  rw [e, ← Nat.div_div_eq_div_mul, ← Nat.div_div_eq_div_mul, (putBits_parts h).2.2]

/-- A word of 32 bits stays one. -/
theorem putBits_lt {w hi lo v : Nat} (h : lo ≤ hi) (hh : hi < 32) (hw : w < 2 ^ 32) : putBits w hi lo v < 2 ^ 32 := by
  have hp := (putBits_parts (w := w) (v := v) h).2.2
  have hq : w / 2 ^ (hi + 1) < 2 ^ (32 - (hi + 1)) := by
    rw [Nat.div_lt_iff_lt_mul (Nat.two_pow_pos _), ← Nat.pow_add]
    have : 32 - (hi + 1) + (hi + 1) = 32 := by omega
    rw [this]; exact hw
  rw [← hp, Nat.div_lt_iff_lt_mul (Nat.two_pow_pos _), ← Nat.pow_add] at hq
  have : 32 - (hi + 1) + (hi + 1) = 32 := by omega
  rwa [this] at hq

/-! ### Registers -/

/-- A field lies in its register. -/
def Fld.ok (f : Fld) : Prop := f.lo ≤ f.hi ∧ f.hi < 32

/-- A register read after a write. -/
theorem State.reg_setReg {s : State} (h : sparseWf regDefault s.regs = true) (off off' : Nat) (v : BitVec 32) :
    (s.setReg off v).reg off' = if off' = off then v else s.reg off' := sparseGet_put h

/-- A write of a register keeps the canonical form. -/
theorem State.setReg_wf {s : State} (h : sparseWf regDefault s.regs = true) (off : Nat) (v : BitVec 32) :
    sparseWf regDefault (s.setReg off v).regs = true := sparsePut_wf h

/-- A write of a field keeps the canonical form. -/
theorem State.put_wf {s : State} (h : sparseWf regDefault s.regs = true) (f : Fld) (v : Nat) :
    sparseWf regDefault (s.put f v).regs = true := sparsePut_wf h

/-- The register of a field after the field was written. -/
theorem State.reg_put {s : State} (h : sparseWf regDefault s.regs = true) {f : Fld} (hf : f.ok) (v off : Nat) :
    ((s.put f v).reg off).toNat = if off = f.off then putBits (s.reg f.off).toNat f.hi f.lo v else (s.reg off).toNat := by
  unfold State.put
  rw [State.reg_setReg h]
  split
  · rw [BitVec.toNat_ofNat, Nat.mod_eq_of_lt (putBits_lt hf.1 hf.2 (s.reg f.off).isLt)]
  · rfl

/-- A field read after it was written. -/
theorem State.get_put_same {s : State} (h : sparseWf regDefault s.regs = true) {f : Fld} (hf : f.ok) (v : Nat) :
    (s.put f v).get f = v % 2 ^ (f.hi - f.lo + 1) := by
  unfold State.get
  rw [State.reg_put h hf, if_pos rfl, bits_putBits_same hf.1]

/-- Two fields that share no bit. -/
def Fld.apart (f g : Fld) : Prop := g.off ≠ f.off ∨ (g.lo ≤ g.hi ∧ g.hi < f.lo) ∨ f.hi < g.lo

/-- A field read after one that shares no bit with it was written. -/
theorem State.get_put_apart {s : State} (h : sparseWf regDefault s.regs = true) {f g : Fld} (hf : f.ok) (hg : f.apart g)
    (v : Nat) : (s.put f v).get g = s.get g := by
  unfold State.get
  rw [State.reg_put h hf]
  by_cases ho : g.off = f.off
  · rw [if_pos ho, ho]
    rcases hg with hg | hg | hg
    · exact absurd ho hg
    · exact bits_putBits_below hf.1 hg.1 hg.2
    · exact bits_putBits_above hf.1 hg
  · rw [if_neg ho]

/-- A one-bit field after it was set. -/
theorem State.flag_raise {s : State} (h : sparseWf regDefault s.regs = true) {f : Fld} (hf : f.ok) :
    (s.raise f).flag f = true := by
  unfold State.flag State.raise
  rw [State.get_put_same h hf]
  have : 1 < 2 ^ (f.hi - f.lo + 1) := Nat.one_lt_two_pow (by omega)
  rw [Nat.mod_eq_of_lt this]; rfl

/-- A field after it was cleared. -/
theorem State.get_drop {s : State} (h : sparseWf regDefault s.regs = true) {f : Fld} (hf : f.ok) : (s.drop f).get f = 0 := by
  unfold State.drop
  rw [State.get_put_same h hf]; exact Nat.zero_mod _

end Sys2Proof.Machine
end

