-- ==== Sys2Proof/Laws/Frame.lean ====
section
/-! SUPPORT. Laws/Frame.lean: the frame of a part is closed under changes of every other part (Laws/Closure.lean), so that a
closure lemma gives a frame. -/

namespace Sys2Proof.Machine

variable {s : State} {c : Comp}

theorem closedRegs_of_ne (hc : c ≠ .regs) : ClosedRegs (fun t => c.same s t) := by
  refine ⟨fun _ _ _ h => ?_⟩
  cases c <;> first | exact h | exact absurd rfl hc

theorem closedStaged_of_ne (hc : c ≠ .staged) : ClosedStaged (fun t => c.same s t) := by
  refine ⟨fun _ _ h => ?_⟩
  cases c <;> first | exact h | exact absurd rfl hc

theorem closedPairs_of_ne (hc : c ≠ .pairs) : ClosedPairs (fun t => c.same s t) := by
  refine ⟨fun _ _ h => ?_⟩
  cases c <;> first | exact h | exact absurd rfl hc

theorem closedHolding_of_ne (hc : c ≠ .holding) : ClosedHolding (fun t => c.same s t) := by
  refine ⟨fun _ _ h => ?_⟩
  cases c <;> first | exact h | exact absurd rfl hc

theorem closedDtime_of_ne (hc : c ≠ .dtime) : ClosedDtime (fun t => c.same s t) := by
  refine ⟨fun _ _ _ h => ?_⟩
  cases c <;> first | exact h | exact absurd rfl hc

theorem closedMem_of_ne (hc : c ≠ .mem) : ClosedMem (fun t => c.same s t) := by
  refine ⟨fun _ _ _ h => ?_⟩
  cases c <;> first | exact h | exact absurd rfl hc

theorem closedLarder_of_ne (hc : c ≠ .larder) : ClosedLarder (fun t => c.same s t) := by
  refine ⟨fun _ _ _ h => ?_⟩
  cases c <;> first | exact h | exact absurd rfl hc

theorem closedHost_of_ne (hc : c ≠ .host) : ClosedHost (fun t => c.same s t) := by
  refine ⟨fun _ _ _ h => ?_⟩
  cases c <;> first | exact h | exact absurd rfl hc

theorem closedFree_of_ne (hc : c ≠ .free) : ClosedFree (fun t => c.same s t) := by
  refine ⟨fun _ _ h => ?_⟩
  cases c <;> first | exact h | exact absurd rfl hc

theorem closedModule_of_ne (hc : c ≠ .module) : ClosedModule (fun t => c.same s t) := by
  refine ⟨fun _ _ h => ?_⟩
  cases c <;> first | exact h | exact absurd rfl hc

theorem closedCel_of_ne (hc : c ≠ .cel) : ClosedCel (fun t => c.same s t) := by
  refine ⟨fun _ _ h => ?_⟩
  cases c <;> first | exact h | exact absurd rfl hc

theorem closedPos_of_ne (hc : c ≠ .pos) : ClosedPos (fun t => c.same s t) := by
  refine ⟨fun _ _ h => ?_⟩
  cases c <;> first | exact h | exact absurd rfl hc

theorem closedLanes_of_ne (hc : c ≠ .lanes) : ClosedLanes (fun t => c.same s t) := by
  refine ⟨fun _ _ h => ?_⟩
  cases c <;> first | exact h | exact absurd rfl hc

theorem closedCams_of_ne (hc : c ≠ .cams) : ClosedCams (fun t => c.same s t) := by
  refine ⟨fun _ _ h => ?_⟩
  cases c <;> first | exact h | exact absurd rfl hc

theorem closedLp_of_ne (hc : c ≠ .lp) : ClosedLp (fun t => c.same s t) := by
  refine ⟨fun _ _ h => ?_⟩
  cases c <;> first | exact h | exact absurd rfl hc

theorem closedSeq_of_ne (hc : c ≠ .seq) : ClosedSeq (fun t => c.same s t) := by
  refine ⟨fun _ _ h => ?_⟩
  cases c <;> first | exact h | exact absurd rfl hc

theorem closedField_of_ne (hc : c ≠ .field) : ClosedField (fun t => c.same s t) := by
  refine ⟨fun _ _ h => ?_⟩
  cases c <;> first | exact h | exact absurd rfl hc

theorem closedLink_of_ne (hc : c ≠ .link) : ClosedLink (fun t => c.same s t) := by
  refine ⟨fun _ _ h => ?_⟩
  cases c <;> first | exact h | exact absurd rfl hc

theorem closedAud_of_ne (hc : c ≠ .aud) : ClosedAud (fun t => c.same s t) := by
  refine ⟨fun _ _ h => ?_⟩
  cases c <;> first | exact h | exact absurd rfl hc

theorem closedLoft_of_ne (hc : c ≠ .loft) : ClosedLoft (fun t => c.same s t) := by
  refine ⟨fun _ _ h => ?_⟩
  cases c <;> first | exact h | exact absurd rfl hc

theorem closedNtm_of_ne (hc : c ≠ .ntm) : ClosedNtm (fun t => c.same s t) := by
  refine ⟨fun _ _ h => ?_⟩
  cases c <;> first | exact h | exact absurd rfl hc

theorem closedGts_of_ne (hc : c ≠ .gts) : ClosedGts (fun t => c.same s t) := by
  refine ⟨fun _ _ h => ?_⟩
  cases c <;> first | exact h | exact absurd rfl hc

theorem closedClient_of_ne (hc : c ≠ .client) : ClosedClient (fun t => c.same s t) := by
  refine ⟨fun _ _ h => ?_⟩
  cases c <;> first | exact h | exact absurd rfl hc

theorem closedCores_of_ne (hc : c ≠ .cores) : ClosedCores (fun t => c.same s t) := by
  refine ⟨fun _ _ h => ?_⟩
  cases c <;> first | exact h | exact absurd rfl hc

theorem closedLists_of_ne (hc : c ≠ .lists) : ClosedLists (fun t => c.same s t) := by
  refine ⟨fun _ _ h => ?_⟩
  cases c <;> first | exact h | exact absurd rfl hc

theorem closedJobs_of_ne (hc : c ≠ .jobs) : ClosedJobs (fun t => c.same s t) := by
  refine ⟨fun _ _ h => ?_⟩
  cases c <;> first | exact h | exact absurd rfl hc

theorem closedPtns_of_ne (hc : c ≠ .ptns) : ClosedPtns (fun t => c.same s t) := by
  refine ⟨fun _ _ h => ?_⟩
  cases c <;> first | exact h | exact absurd rfl hc

theorem closedFlock_of_ne (hc : c ≠ .flock) : ClosedFlock (fun t => c.same s t) := by
  refine ⟨fun _ _ h => ?_⟩
  cases c <;> first | exact h | exact absurd rfl hc

theorem closedAdp_of_ne (hc : c ≠ .adp) : ClosedAdp (fun t => c.same s t) := by
  refine ⟨fun _ _ h => ?_⟩
  cases c <;> first | exact h | exact absurd rfl hc

theorem closedSdg_of_ne (hc : c ≠ .sdg) : ClosedSdg (fun t => c.same s t) := by
  refine ⟨fun _ _ h => ?_⟩
  cases c <;> first | exact h | exact absurd rfl hc

theorem closedStage_of_ne (hc : c ≠ .stage) : ClosedStage (fun t => c.same s t) := by
  refine ⟨fun _ _ h => ?_⟩
  cases c <;> first | exact h | exact absurd rfl hc

theorem closedSync_of_ne (hc : c ≠ .sync) : ClosedSync (fun t => c.same s t) := by
  refine ⟨fun _ _ h => ?_⟩
  cases c <;> first | exact h | exact absurd rfl hc

theorem closedClk_of_ne (hc : c ≠ .clk) : ClosedClk (fun t => c.same s t) := by
  refine ⟨fun _ _ h => ?_⟩
  cases c <;> first | exact h | exact absurd rfl hc

theorem closedBoot_of_ne (hc : c ≠ .boot) : ClosedBoot (fun t => c.same s t) := by
  refine ⟨fun _ _ h => ?_⟩
  cases c <;> first | exact h | exact absurd rfl hc

/-- A frame starts where it is taken. -/
theorem Holds.same_refl : Holds (fun t => c.same s t) s := by
  cases c <;> rfl

end Sys2Proof.Machine
end

