-- ==== Sys2Proof/Laws/State.lean ====
section
/-! SUPPORT. Laws/State.lean: the fields of State that each named update leaves alone, one lemma per field and update. -/

namespace Sys2Proof.Machine

/-! ### `State.setReg` -/

@[simp] theorem State.setReg_staged (s : State) (off : Nat) (v : BitVec 32) : (s.setReg off v).staged = s.staged := rfl
@[simp] theorem State.setReg_pairs (s : State) (off : Nat) (v : BitVec 32) : (s.setReg off v).pairs = s.pairs := rfl
@[simp] theorem State.setReg_holding (s : State) (off : Nat) (v : BitVec 32) : (s.setReg off v).holding = s.holding := rfl
@[simp] theorem State.setReg_dtime (s : State) (off : Nat) (v : BitVec 32) : (s.setReg off v).dtime = s.dtime := rfl
@[simp] theorem State.setReg_mem (s : State) (off : Nat) (v : BitVec 32) : (s.setReg off v).mem = s.mem := rfl
@[simp] theorem State.setReg_larder (s : State) (off : Nat) (v : BitVec 32) : (s.setReg off v).larder = s.larder := rfl
@[simp] theorem State.setReg_host (s : State) (off : Nat) (v : BitVec 32) : (s.setReg off v).host = s.host := rfl
@[simp] theorem State.setReg_free (s : State) (off : Nat) (v : BitVec 32) : (s.setReg off v).free = s.free := rfl
@[simp] theorem State.setReg_module (s : State) (off : Nat) (v : BitVec 32) : (s.setReg off v).module = s.module := rfl
@[simp] theorem State.setReg_cel (s : State) (off : Nat) (v : BitVec 32) : (s.setReg off v).cel = s.cel := rfl
@[simp] theorem State.setReg_pos (s : State) (off : Nat) (v : BitVec 32) : (s.setReg off v).pos = s.pos := rfl
@[simp] theorem State.setReg_lanes (s : State) (off : Nat) (v : BitVec 32) : (s.setReg off v).lanes = s.lanes := rfl
@[simp] theorem State.setReg_cams (s : State) (off : Nat) (v : BitVec 32) : (s.setReg off v).cams = s.cams := rfl
@[simp] theorem State.setReg_lp (s : State) (off : Nat) (v : BitVec 32) : (s.setReg off v).lp = s.lp := rfl
@[simp] theorem State.setReg_seq (s : State) (off : Nat) (v : BitVec 32) : (s.setReg off v).seq = s.seq := rfl
@[simp] theorem State.setReg_field (s : State) (off : Nat) (v : BitVec 32) : (s.setReg off v).field = s.field := rfl
@[simp] theorem State.setReg_link (s : State) (off : Nat) (v : BitVec 32) : (s.setReg off v).link = s.link := rfl
@[simp] theorem State.setReg_aud (s : State) (off : Nat) (v : BitVec 32) : (s.setReg off v).aud = s.aud := rfl
@[simp] theorem State.setReg_loft (s : State) (off : Nat) (v : BitVec 32) : (s.setReg off v).loft = s.loft := rfl
@[simp] theorem State.setReg_ntm (s : State) (off : Nat) (v : BitVec 32) : (s.setReg off v).ntm = s.ntm := rfl
@[simp] theorem State.setReg_gts (s : State) (off : Nat) (v : BitVec 32) : (s.setReg off v).gts = s.gts := rfl
@[simp] theorem State.setReg_client (s : State) (off : Nat) (v : BitVec 32) : (s.setReg off v).client = s.client := rfl
@[simp] theorem State.setReg_cores (s : State) (off : Nat) (v : BitVec 32) : (s.setReg off v).cores = s.cores := rfl
@[simp] theorem State.setReg_lists (s : State) (off : Nat) (v : BitVec 32) : (s.setReg off v).lists = s.lists := rfl
@[simp] theorem State.setReg_jobs (s : State) (off : Nat) (v : BitVec 32) : (s.setReg off v).jobs = s.jobs := rfl
@[simp] theorem State.setReg_ptns (s : State) (off : Nat) (v : BitVec 32) : (s.setReg off v).ptns = s.ptns := rfl
@[simp] theorem State.setReg_flock (s : State) (off : Nat) (v : BitVec 32) : (s.setReg off v).flock = s.flock := rfl
@[simp] theorem State.setReg_adp (s : State) (off : Nat) (v : BitVec 32) : (s.setReg off v).adp = s.adp := rfl
@[simp] theorem State.setReg_sdg (s : State) (off : Nat) (v : BitVec 32) : (s.setReg off v).sdg = s.sdg := rfl
@[simp] theorem State.setReg_stage (s : State) (off : Nat) (v : BitVec 32) : (s.setReg off v).stage = s.stage := rfl
@[simp] theorem State.setReg_sync (s : State) (off : Nat) (v : BitVec 32) : (s.setReg off v).sync = s.sync := rfl
@[simp] theorem State.setReg_clk (s : State) (off : Nat) (v : BitVec 32) : (s.setReg off v).clk = s.clk := rfl
@[simp] theorem State.setReg_boot (s : State) (off : Nat) (v : BitVec 32) : (s.setReg off v).boot = s.boot := rfl
@[simp] theorem State.setReg_pending (s : State) (off : Nat) (v : BitVec 32) : (s.setReg off v).pending = s.pending := rfl

/-! ### `State.put` -/

@[simp] theorem State.put_staged (s : State) (f : Fld) (v : Nat) : (s.put f v).staged = s.staged := rfl
@[simp] theorem State.put_pairs (s : State) (f : Fld) (v : Nat) : (s.put f v).pairs = s.pairs := rfl
@[simp] theorem State.put_holding (s : State) (f : Fld) (v : Nat) : (s.put f v).holding = s.holding := rfl
@[simp] theorem State.put_dtime (s : State) (f : Fld) (v : Nat) : (s.put f v).dtime = s.dtime := rfl
@[simp] theorem State.put_mem (s : State) (f : Fld) (v : Nat) : (s.put f v).mem = s.mem := rfl
@[simp] theorem State.put_larder (s : State) (f : Fld) (v : Nat) : (s.put f v).larder = s.larder := rfl
@[simp] theorem State.put_host (s : State) (f : Fld) (v : Nat) : (s.put f v).host = s.host := rfl
@[simp] theorem State.put_free (s : State) (f : Fld) (v : Nat) : (s.put f v).free = s.free := rfl
@[simp] theorem State.put_module (s : State) (f : Fld) (v : Nat) : (s.put f v).module = s.module := rfl
@[simp] theorem State.put_cel (s : State) (f : Fld) (v : Nat) : (s.put f v).cel = s.cel := rfl
@[simp] theorem State.put_pos (s : State) (f : Fld) (v : Nat) : (s.put f v).pos = s.pos := rfl
@[simp] theorem State.put_lanes (s : State) (f : Fld) (v : Nat) : (s.put f v).lanes = s.lanes := rfl
@[simp] theorem State.put_cams (s : State) (f : Fld) (v : Nat) : (s.put f v).cams = s.cams := rfl
@[simp] theorem State.put_lp (s : State) (f : Fld) (v : Nat) : (s.put f v).lp = s.lp := rfl
@[simp] theorem State.put_seq (s : State) (f : Fld) (v : Nat) : (s.put f v).seq = s.seq := rfl
@[simp] theorem State.put_field (s : State) (f : Fld) (v : Nat) : (s.put f v).field = s.field := rfl
@[simp] theorem State.put_link (s : State) (f : Fld) (v : Nat) : (s.put f v).link = s.link := rfl
@[simp] theorem State.put_aud (s : State) (f : Fld) (v : Nat) : (s.put f v).aud = s.aud := rfl
@[simp] theorem State.put_loft (s : State) (f : Fld) (v : Nat) : (s.put f v).loft = s.loft := rfl
@[simp] theorem State.put_ntm (s : State) (f : Fld) (v : Nat) : (s.put f v).ntm = s.ntm := rfl
@[simp] theorem State.put_gts (s : State) (f : Fld) (v : Nat) : (s.put f v).gts = s.gts := rfl
@[simp] theorem State.put_client (s : State) (f : Fld) (v : Nat) : (s.put f v).client = s.client := rfl
@[simp] theorem State.put_cores (s : State) (f : Fld) (v : Nat) : (s.put f v).cores = s.cores := rfl
@[simp] theorem State.put_lists (s : State) (f : Fld) (v : Nat) : (s.put f v).lists = s.lists := rfl
@[simp] theorem State.put_jobs (s : State) (f : Fld) (v : Nat) : (s.put f v).jobs = s.jobs := rfl
@[simp] theorem State.put_ptns (s : State) (f : Fld) (v : Nat) : (s.put f v).ptns = s.ptns := rfl
@[simp] theorem State.put_flock (s : State) (f : Fld) (v : Nat) : (s.put f v).flock = s.flock := rfl
@[simp] theorem State.put_adp (s : State) (f : Fld) (v : Nat) : (s.put f v).adp = s.adp := rfl
@[simp] theorem State.put_sdg (s : State) (f : Fld) (v : Nat) : (s.put f v).sdg = s.sdg := rfl
@[simp] theorem State.put_stage (s : State) (f : Fld) (v : Nat) : (s.put f v).stage = s.stage := rfl
@[simp] theorem State.put_sync (s : State) (f : Fld) (v : Nat) : (s.put f v).sync = s.sync := rfl
@[simp] theorem State.put_clk (s : State) (f : Fld) (v : Nat) : (s.put f v).clk = s.clk := rfl
@[simp] theorem State.put_boot (s : State) (f : Fld) (v : Nat) : (s.put f v).boot = s.boot := rfl
@[simp] theorem State.put_pending (s : State) (f : Fld) (v : Nat) : (s.put f v).pending = s.pending := rfl

/-! ### `State.raise` -/

@[simp] theorem State.raise_staged (s : State) (f : Fld) : (s.raise f).staged = s.staged := rfl
@[simp] theorem State.raise_pairs (s : State) (f : Fld) : (s.raise f).pairs = s.pairs := rfl
@[simp] theorem State.raise_holding (s : State) (f : Fld) : (s.raise f).holding = s.holding := rfl
@[simp] theorem State.raise_dtime (s : State) (f : Fld) : (s.raise f).dtime = s.dtime := rfl
@[simp] theorem State.raise_mem (s : State) (f : Fld) : (s.raise f).mem = s.mem := rfl
@[simp] theorem State.raise_larder (s : State) (f : Fld) : (s.raise f).larder = s.larder := rfl
@[simp] theorem State.raise_host (s : State) (f : Fld) : (s.raise f).host = s.host := rfl
@[simp] theorem State.raise_free (s : State) (f : Fld) : (s.raise f).free = s.free := rfl
@[simp] theorem State.raise_module (s : State) (f : Fld) : (s.raise f).module = s.module := rfl
@[simp] theorem State.raise_cel (s : State) (f : Fld) : (s.raise f).cel = s.cel := rfl
@[simp] theorem State.raise_pos (s : State) (f : Fld) : (s.raise f).pos = s.pos := rfl
@[simp] theorem State.raise_lanes (s : State) (f : Fld) : (s.raise f).lanes = s.lanes := rfl
@[simp] theorem State.raise_cams (s : State) (f : Fld) : (s.raise f).cams = s.cams := rfl
@[simp] theorem State.raise_lp (s : State) (f : Fld) : (s.raise f).lp = s.lp := rfl
@[simp] theorem State.raise_seq (s : State) (f : Fld) : (s.raise f).seq = s.seq := rfl
@[simp] theorem State.raise_field (s : State) (f : Fld) : (s.raise f).field = s.field := rfl
@[simp] theorem State.raise_link (s : State) (f : Fld) : (s.raise f).link = s.link := rfl
@[simp] theorem State.raise_aud (s : State) (f : Fld) : (s.raise f).aud = s.aud := rfl
@[simp] theorem State.raise_loft (s : State) (f : Fld) : (s.raise f).loft = s.loft := rfl
@[simp] theorem State.raise_ntm (s : State) (f : Fld) : (s.raise f).ntm = s.ntm := rfl
@[simp] theorem State.raise_gts (s : State) (f : Fld) : (s.raise f).gts = s.gts := rfl
@[simp] theorem State.raise_client (s : State) (f : Fld) : (s.raise f).client = s.client := rfl
@[simp] theorem State.raise_cores (s : State) (f : Fld) : (s.raise f).cores = s.cores := rfl
@[simp] theorem State.raise_lists (s : State) (f : Fld) : (s.raise f).lists = s.lists := rfl
@[simp] theorem State.raise_jobs (s : State) (f : Fld) : (s.raise f).jobs = s.jobs := rfl
@[simp] theorem State.raise_ptns (s : State) (f : Fld) : (s.raise f).ptns = s.ptns := rfl
@[simp] theorem State.raise_flock (s : State) (f : Fld) : (s.raise f).flock = s.flock := rfl
@[simp] theorem State.raise_adp (s : State) (f : Fld) : (s.raise f).adp = s.adp := rfl
@[simp] theorem State.raise_sdg (s : State) (f : Fld) : (s.raise f).sdg = s.sdg := rfl
@[simp] theorem State.raise_stage (s : State) (f : Fld) : (s.raise f).stage = s.stage := rfl
@[simp] theorem State.raise_sync (s : State) (f : Fld) : (s.raise f).sync = s.sync := rfl
@[simp] theorem State.raise_clk (s : State) (f : Fld) : (s.raise f).clk = s.clk := rfl
@[simp] theorem State.raise_boot (s : State) (f : Fld) : (s.raise f).boot = s.boot := rfl
@[simp] theorem State.raise_pending (s : State) (f : Fld) : (s.raise f).pending = s.pending := rfl

/-! ### `State.drop` -/

@[simp] theorem State.drop_staged (s : State) (f : Fld) : (s.drop f).staged = s.staged := rfl
@[simp] theorem State.drop_pairs (s : State) (f : Fld) : (s.drop f).pairs = s.pairs := rfl
@[simp] theorem State.drop_holding (s : State) (f : Fld) : (s.drop f).holding = s.holding := rfl
@[simp] theorem State.drop_dtime (s : State) (f : Fld) : (s.drop f).dtime = s.dtime := rfl
@[simp] theorem State.drop_mem (s : State) (f : Fld) : (s.drop f).mem = s.mem := rfl
@[simp] theorem State.drop_larder (s : State) (f : Fld) : (s.drop f).larder = s.larder := rfl
@[simp] theorem State.drop_host (s : State) (f : Fld) : (s.drop f).host = s.host := rfl
@[simp] theorem State.drop_free (s : State) (f : Fld) : (s.drop f).free = s.free := rfl
@[simp] theorem State.drop_module (s : State) (f : Fld) : (s.drop f).module = s.module := rfl
@[simp] theorem State.drop_cel (s : State) (f : Fld) : (s.drop f).cel = s.cel := rfl
@[simp] theorem State.drop_pos (s : State) (f : Fld) : (s.drop f).pos = s.pos := rfl
@[simp] theorem State.drop_lanes (s : State) (f : Fld) : (s.drop f).lanes = s.lanes := rfl
@[simp] theorem State.drop_cams (s : State) (f : Fld) : (s.drop f).cams = s.cams := rfl
@[simp] theorem State.drop_lp (s : State) (f : Fld) : (s.drop f).lp = s.lp := rfl
@[simp] theorem State.drop_seq (s : State) (f : Fld) : (s.drop f).seq = s.seq := rfl
@[simp] theorem State.drop_field (s : State) (f : Fld) : (s.drop f).field = s.field := rfl
@[simp] theorem State.drop_link (s : State) (f : Fld) : (s.drop f).link = s.link := rfl
@[simp] theorem State.drop_aud (s : State) (f : Fld) : (s.drop f).aud = s.aud := rfl
@[simp] theorem State.drop_loft (s : State) (f : Fld) : (s.drop f).loft = s.loft := rfl
@[simp] theorem State.drop_ntm (s : State) (f : Fld) : (s.drop f).ntm = s.ntm := rfl
@[simp] theorem State.drop_gts (s : State) (f : Fld) : (s.drop f).gts = s.gts := rfl
@[simp] theorem State.drop_client (s : State) (f : Fld) : (s.drop f).client = s.client := rfl
@[simp] theorem State.drop_cores (s : State) (f : Fld) : (s.drop f).cores = s.cores := rfl
@[simp] theorem State.drop_lists (s : State) (f : Fld) : (s.drop f).lists = s.lists := rfl
@[simp] theorem State.drop_jobs (s : State) (f : Fld) : (s.drop f).jobs = s.jobs := rfl
@[simp] theorem State.drop_ptns (s : State) (f : Fld) : (s.drop f).ptns = s.ptns := rfl
@[simp] theorem State.drop_flock (s : State) (f : Fld) : (s.drop f).flock = s.flock := rfl
@[simp] theorem State.drop_adp (s : State) (f : Fld) : (s.drop f).adp = s.adp := rfl
@[simp] theorem State.drop_sdg (s : State) (f : Fld) : (s.drop f).sdg = s.sdg := rfl
@[simp] theorem State.drop_stage (s : State) (f : Fld) : (s.drop f).stage = s.stage := rfl
@[simp] theorem State.drop_sync (s : State) (f : Fld) : (s.drop f).sync = s.sync := rfl
@[simp] theorem State.drop_clk (s : State) (f : Fld) : (s.drop f).clk = s.clk := rfl
@[simp] theorem State.drop_boot (s : State) (f : Fld) : (s.drop f).boot = s.boot := rfl
@[simp] theorem State.drop_pending (s : State) (f : Fld) : (s.drop f).pending = s.pending := rfl

/-! ### `State.putFlag` -/

@[simp] theorem State.putFlag_staged (s : State) (f : Fld) (b : Bool) : (s.putFlag f b).staged = s.staged := rfl
@[simp] theorem State.putFlag_pairs (s : State) (f : Fld) (b : Bool) : (s.putFlag f b).pairs = s.pairs := rfl
@[simp] theorem State.putFlag_holding (s : State) (f : Fld) (b : Bool) : (s.putFlag f b).holding = s.holding := rfl
@[simp] theorem State.putFlag_dtime (s : State) (f : Fld) (b : Bool) : (s.putFlag f b).dtime = s.dtime := rfl
@[simp] theorem State.putFlag_mem (s : State) (f : Fld) (b : Bool) : (s.putFlag f b).mem = s.mem := rfl
@[simp] theorem State.putFlag_larder (s : State) (f : Fld) (b : Bool) : (s.putFlag f b).larder = s.larder := rfl
@[simp] theorem State.putFlag_host (s : State) (f : Fld) (b : Bool) : (s.putFlag f b).host = s.host := rfl
@[simp] theorem State.putFlag_free (s : State) (f : Fld) (b : Bool) : (s.putFlag f b).free = s.free := rfl
@[simp] theorem State.putFlag_module (s : State) (f : Fld) (b : Bool) : (s.putFlag f b).module = s.module := rfl
@[simp] theorem State.putFlag_cel (s : State) (f : Fld) (b : Bool) : (s.putFlag f b).cel = s.cel := rfl
@[simp] theorem State.putFlag_pos (s : State) (f : Fld) (b : Bool) : (s.putFlag f b).pos = s.pos := rfl
@[simp] theorem State.putFlag_lanes (s : State) (f : Fld) (b : Bool) : (s.putFlag f b).lanes = s.lanes := rfl
@[simp] theorem State.putFlag_cams (s : State) (f : Fld) (b : Bool) : (s.putFlag f b).cams = s.cams := rfl
@[simp] theorem State.putFlag_lp (s : State) (f : Fld) (b : Bool) : (s.putFlag f b).lp = s.lp := rfl
@[simp] theorem State.putFlag_seq (s : State) (f : Fld) (b : Bool) : (s.putFlag f b).seq = s.seq := rfl
@[simp] theorem State.putFlag_field (s : State) (f : Fld) (b : Bool) : (s.putFlag f b).field = s.field := rfl
@[simp] theorem State.putFlag_link (s : State) (f : Fld) (b : Bool) : (s.putFlag f b).link = s.link := rfl
@[simp] theorem State.putFlag_aud (s : State) (f : Fld) (b : Bool) : (s.putFlag f b).aud = s.aud := rfl
@[simp] theorem State.putFlag_loft (s : State) (f : Fld) (b : Bool) : (s.putFlag f b).loft = s.loft := rfl
@[simp] theorem State.putFlag_ntm (s : State) (f : Fld) (b : Bool) : (s.putFlag f b).ntm = s.ntm := rfl
@[simp] theorem State.putFlag_gts (s : State) (f : Fld) (b : Bool) : (s.putFlag f b).gts = s.gts := rfl
@[simp] theorem State.putFlag_client (s : State) (f : Fld) (b : Bool) : (s.putFlag f b).client = s.client := rfl
@[simp] theorem State.putFlag_cores (s : State) (f : Fld) (b : Bool) : (s.putFlag f b).cores = s.cores := rfl
@[simp] theorem State.putFlag_lists (s : State) (f : Fld) (b : Bool) : (s.putFlag f b).lists = s.lists := rfl
@[simp] theorem State.putFlag_jobs (s : State) (f : Fld) (b : Bool) : (s.putFlag f b).jobs = s.jobs := rfl
@[simp] theorem State.putFlag_ptns (s : State) (f : Fld) (b : Bool) : (s.putFlag f b).ptns = s.ptns := rfl
@[simp] theorem State.putFlag_flock (s : State) (f : Fld) (b : Bool) : (s.putFlag f b).flock = s.flock := rfl
@[simp] theorem State.putFlag_adp (s : State) (f : Fld) (b : Bool) : (s.putFlag f b).adp = s.adp := rfl
@[simp] theorem State.putFlag_sdg (s : State) (f : Fld) (b : Bool) : (s.putFlag f b).sdg = s.sdg := rfl
@[simp] theorem State.putFlag_stage (s : State) (f : Fld) (b : Bool) : (s.putFlag f b).stage = s.stage := rfl
@[simp] theorem State.putFlag_sync (s : State) (f : Fld) (b : Bool) : (s.putFlag f b).sync = s.sync := rfl
@[simp] theorem State.putFlag_clk (s : State) (f : Fld) (b : Bool) : (s.putFlag f b).clk = s.clk := rfl
@[simp] theorem State.putFlag_boot (s : State) (f : Fld) (b : Bool) : (s.putFlag f b).boot = s.boot := rfl
@[simp] theorem State.putFlag_pending (s : State) (f : Fld) (b : Bool) : (s.putFlag f b).pending = s.pending := rfl

/-! ### `State.putInt` -/

@[simp] theorem State.putInt_staged (s : State) (f : Fld) (z : Int) : (s.putInt f z).staged = s.staged := rfl
@[simp] theorem State.putInt_pairs (s : State) (f : Fld) (z : Int) : (s.putInt f z).pairs = s.pairs := rfl
@[simp] theorem State.putInt_holding (s : State) (f : Fld) (z : Int) : (s.putInt f z).holding = s.holding := rfl
@[simp] theorem State.putInt_dtime (s : State) (f : Fld) (z : Int) : (s.putInt f z).dtime = s.dtime := rfl
@[simp] theorem State.putInt_mem (s : State) (f : Fld) (z : Int) : (s.putInt f z).mem = s.mem := rfl
@[simp] theorem State.putInt_larder (s : State) (f : Fld) (z : Int) : (s.putInt f z).larder = s.larder := rfl
@[simp] theorem State.putInt_host (s : State) (f : Fld) (z : Int) : (s.putInt f z).host = s.host := rfl
@[simp] theorem State.putInt_free (s : State) (f : Fld) (z : Int) : (s.putInt f z).free = s.free := rfl
@[simp] theorem State.putInt_module (s : State) (f : Fld) (z : Int) : (s.putInt f z).module = s.module := rfl
@[simp] theorem State.putInt_cel (s : State) (f : Fld) (z : Int) : (s.putInt f z).cel = s.cel := rfl
@[simp] theorem State.putInt_pos (s : State) (f : Fld) (z : Int) : (s.putInt f z).pos = s.pos := rfl
@[simp] theorem State.putInt_lanes (s : State) (f : Fld) (z : Int) : (s.putInt f z).lanes = s.lanes := rfl
@[simp] theorem State.putInt_cams (s : State) (f : Fld) (z : Int) : (s.putInt f z).cams = s.cams := rfl
@[simp] theorem State.putInt_lp (s : State) (f : Fld) (z : Int) : (s.putInt f z).lp = s.lp := rfl
@[simp] theorem State.putInt_seq (s : State) (f : Fld) (z : Int) : (s.putInt f z).seq = s.seq := rfl
@[simp] theorem State.putInt_field (s : State) (f : Fld) (z : Int) : (s.putInt f z).field = s.field := rfl
@[simp] theorem State.putInt_link (s : State) (f : Fld) (z : Int) : (s.putInt f z).link = s.link := rfl
@[simp] theorem State.putInt_aud (s : State) (f : Fld) (z : Int) : (s.putInt f z).aud = s.aud := rfl
@[simp] theorem State.putInt_loft (s : State) (f : Fld) (z : Int) : (s.putInt f z).loft = s.loft := rfl
@[simp] theorem State.putInt_ntm (s : State) (f : Fld) (z : Int) : (s.putInt f z).ntm = s.ntm := rfl
@[simp] theorem State.putInt_gts (s : State) (f : Fld) (z : Int) : (s.putInt f z).gts = s.gts := rfl
@[simp] theorem State.putInt_client (s : State) (f : Fld) (z : Int) : (s.putInt f z).client = s.client := rfl
@[simp] theorem State.putInt_cores (s : State) (f : Fld) (z : Int) : (s.putInt f z).cores = s.cores := rfl
@[simp] theorem State.putInt_lists (s : State) (f : Fld) (z : Int) : (s.putInt f z).lists = s.lists := rfl
@[simp] theorem State.putInt_jobs (s : State) (f : Fld) (z : Int) : (s.putInt f z).jobs = s.jobs := rfl
@[simp] theorem State.putInt_ptns (s : State) (f : Fld) (z : Int) : (s.putInt f z).ptns = s.ptns := rfl
@[simp] theorem State.putInt_flock (s : State) (f : Fld) (z : Int) : (s.putInt f z).flock = s.flock := rfl
@[simp] theorem State.putInt_adp (s : State) (f : Fld) (z : Int) : (s.putInt f z).adp = s.adp := rfl
@[simp] theorem State.putInt_sdg (s : State) (f : Fld) (z : Int) : (s.putInt f z).sdg = s.sdg := rfl
@[simp] theorem State.putInt_stage (s : State) (f : Fld) (z : Int) : (s.putInt f z).stage = s.stage := rfl
@[simp] theorem State.putInt_sync (s : State) (f : Fld) (z : Int) : (s.putInt f z).sync = s.sync := rfl
@[simp] theorem State.putInt_clk (s : State) (f : Fld) (z : Int) : (s.putInt f z).clk = s.clk := rfl
@[simp] theorem State.putInt_boot (s : State) (f : Fld) (z : Int) : (s.putInt f z).boot = s.boot := rfl
@[simp] theorem State.putInt_pending (s : State) (f : Fld) (z : Int) : (s.putInt f z).pending = s.pending := rfl

/-! ### `State.bumpBy` -/

@[simp] theorem State.bumpBy_staged (s : State) (f : Fld) (n : Nat) : (s.bumpBy f n).staged = s.staged := rfl
@[simp] theorem State.bumpBy_pairs (s : State) (f : Fld) (n : Nat) : (s.bumpBy f n).pairs = s.pairs := rfl
@[simp] theorem State.bumpBy_holding (s : State) (f : Fld) (n : Nat) : (s.bumpBy f n).holding = s.holding := rfl
@[simp] theorem State.bumpBy_dtime (s : State) (f : Fld) (n : Nat) : (s.bumpBy f n).dtime = s.dtime := rfl
@[simp] theorem State.bumpBy_mem (s : State) (f : Fld) (n : Nat) : (s.bumpBy f n).mem = s.mem := rfl
@[simp] theorem State.bumpBy_larder (s : State) (f : Fld) (n : Nat) : (s.bumpBy f n).larder = s.larder := rfl
@[simp] theorem State.bumpBy_host (s : State) (f : Fld) (n : Nat) : (s.bumpBy f n).host = s.host := rfl
@[simp] theorem State.bumpBy_free (s : State) (f : Fld) (n : Nat) : (s.bumpBy f n).free = s.free := rfl
@[simp] theorem State.bumpBy_module (s : State) (f : Fld) (n : Nat) : (s.bumpBy f n).module = s.module := rfl
@[simp] theorem State.bumpBy_cel (s : State) (f : Fld) (n : Nat) : (s.bumpBy f n).cel = s.cel := rfl
@[simp] theorem State.bumpBy_pos (s : State) (f : Fld) (n : Nat) : (s.bumpBy f n).pos = s.pos := rfl
@[simp] theorem State.bumpBy_lanes (s : State) (f : Fld) (n : Nat) : (s.bumpBy f n).lanes = s.lanes := rfl
@[simp] theorem State.bumpBy_cams (s : State) (f : Fld) (n : Nat) : (s.bumpBy f n).cams = s.cams := rfl
@[simp] theorem State.bumpBy_lp (s : State) (f : Fld) (n : Nat) : (s.bumpBy f n).lp = s.lp := rfl
@[simp] theorem State.bumpBy_seq (s : State) (f : Fld) (n : Nat) : (s.bumpBy f n).seq = s.seq := rfl
@[simp] theorem State.bumpBy_field (s : State) (f : Fld) (n : Nat) : (s.bumpBy f n).field = s.field := rfl
@[simp] theorem State.bumpBy_link (s : State) (f : Fld) (n : Nat) : (s.bumpBy f n).link = s.link := rfl
@[simp] theorem State.bumpBy_aud (s : State) (f : Fld) (n : Nat) : (s.bumpBy f n).aud = s.aud := rfl
@[simp] theorem State.bumpBy_loft (s : State) (f : Fld) (n : Nat) : (s.bumpBy f n).loft = s.loft := rfl
@[simp] theorem State.bumpBy_ntm (s : State) (f : Fld) (n : Nat) : (s.bumpBy f n).ntm = s.ntm := rfl
@[simp] theorem State.bumpBy_gts (s : State) (f : Fld) (n : Nat) : (s.bumpBy f n).gts = s.gts := rfl
@[simp] theorem State.bumpBy_client (s : State) (f : Fld) (n : Nat) : (s.bumpBy f n).client = s.client := rfl
@[simp] theorem State.bumpBy_cores (s : State) (f : Fld) (n : Nat) : (s.bumpBy f n).cores = s.cores := rfl
@[simp] theorem State.bumpBy_lists (s : State) (f : Fld) (n : Nat) : (s.bumpBy f n).lists = s.lists := rfl
@[simp] theorem State.bumpBy_jobs (s : State) (f : Fld) (n : Nat) : (s.bumpBy f n).jobs = s.jobs := rfl
@[simp] theorem State.bumpBy_ptns (s : State) (f : Fld) (n : Nat) : (s.bumpBy f n).ptns = s.ptns := rfl
@[simp] theorem State.bumpBy_flock (s : State) (f : Fld) (n : Nat) : (s.bumpBy f n).flock = s.flock := rfl
@[simp] theorem State.bumpBy_adp (s : State) (f : Fld) (n : Nat) : (s.bumpBy f n).adp = s.adp := rfl
@[simp] theorem State.bumpBy_sdg (s : State) (f : Fld) (n : Nat) : (s.bumpBy f n).sdg = s.sdg := rfl
@[simp] theorem State.bumpBy_stage (s : State) (f : Fld) (n : Nat) : (s.bumpBy f n).stage = s.stage := rfl
@[simp] theorem State.bumpBy_sync (s : State) (f : Fld) (n : Nat) : (s.bumpBy f n).sync = s.sync := rfl
@[simp] theorem State.bumpBy_clk (s : State) (f : Fld) (n : Nat) : (s.bumpBy f n).clk = s.clk := rfl
@[simp] theorem State.bumpBy_boot (s : State) (f : Fld) (n : Nat) : (s.bumpBy f n).boot = s.boot := rfl
@[simp] theorem State.bumpBy_pending (s : State) (f : Fld) (n : Nat) : (s.bumpBy f n).pending = s.pending := rfl

/-! ### `State.bump` -/

@[simp] theorem State.bump_staged (s : State) (f : Fld) : (s.bump f).staged = s.staged := rfl
@[simp] theorem State.bump_pairs (s : State) (f : Fld) : (s.bump f).pairs = s.pairs := rfl
@[simp] theorem State.bump_holding (s : State) (f : Fld) : (s.bump f).holding = s.holding := rfl
@[simp] theorem State.bump_dtime (s : State) (f : Fld) : (s.bump f).dtime = s.dtime := rfl
@[simp] theorem State.bump_mem (s : State) (f : Fld) : (s.bump f).mem = s.mem := rfl
@[simp] theorem State.bump_larder (s : State) (f : Fld) : (s.bump f).larder = s.larder := rfl
@[simp] theorem State.bump_host (s : State) (f : Fld) : (s.bump f).host = s.host := rfl
@[simp] theorem State.bump_free (s : State) (f : Fld) : (s.bump f).free = s.free := rfl
@[simp] theorem State.bump_module (s : State) (f : Fld) : (s.bump f).module = s.module := rfl
@[simp] theorem State.bump_cel (s : State) (f : Fld) : (s.bump f).cel = s.cel := rfl
@[simp] theorem State.bump_pos (s : State) (f : Fld) : (s.bump f).pos = s.pos := rfl
@[simp] theorem State.bump_lanes (s : State) (f : Fld) : (s.bump f).lanes = s.lanes := rfl
@[simp] theorem State.bump_cams (s : State) (f : Fld) : (s.bump f).cams = s.cams := rfl
@[simp] theorem State.bump_lp (s : State) (f : Fld) : (s.bump f).lp = s.lp := rfl
@[simp] theorem State.bump_seq (s : State) (f : Fld) : (s.bump f).seq = s.seq := rfl
@[simp] theorem State.bump_field (s : State) (f : Fld) : (s.bump f).field = s.field := rfl
@[simp] theorem State.bump_link (s : State) (f : Fld) : (s.bump f).link = s.link := rfl
@[simp] theorem State.bump_aud (s : State) (f : Fld) : (s.bump f).aud = s.aud := rfl
@[simp] theorem State.bump_loft (s : State) (f : Fld) : (s.bump f).loft = s.loft := rfl
@[simp] theorem State.bump_ntm (s : State) (f : Fld) : (s.bump f).ntm = s.ntm := rfl
@[simp] theorem State.bump_gts (s : State) (f : Fld) : (s.bump f).gts = s.gts := rfl
@[simp] theorem State.bump_client (s : State) (f : Fld) : (s.bump f).client = s.client := rfl
@[simp] theorem State.bump_cores (s : State) (f : Fld) : (s.bump f).cores = s.cores := rfl
@[simp] theorem State.bump_lists (s : State) (f : Fld) : (s.bump f).lists = s.lists := rfl
@[simp] theorem State.bump_jobs (s : State) (f : Fld) : (s.bump f).jobs = s.jobs := rfl
@[simp] theorem State.bump_ptns (s : State) (f : Fld) : (s.bump f).ptns = s.ptns := rfl
@[simp] theorem State.bump_flock (s : State) (f : Fld) : (s.bump f).flock = s.flock := rfl
@[simp] theorem State.bump_adp (s : State) (f : Fld) : (s.bump f).adp = s.adp := rfl
@[simp] theorem State.bump_sdg (s : State) (f : Fld) : (s.bump f).sdg = s.sdg := rfl
@[simp] theorem State.bump_stage (s : State) (f : Fld) : (s.bump f).stage = s.stage := rfl
@[simp] theorem State.bump_sync (s : State) (f : Fld) : (s.bump f).sync = s.sync := rfl
@[simp] theorem State.bump_clk (s : State) (f : Fld) : (s.bump f).clk = s.clk := rfl
@[simp] theorem State.bump_boot (s : State) (f : Fld) : (s.bump f).boot = s.boot := rfl
@[simp] theorem State.bump_pending (s : State) (f : Fld) : (s.bump f).pending = s.pending := rfl

/-! ### `State.bumpWrap` -/

@[simp] theorem State.bumpWrap_staged (s : State) (f : Fld) : (s.bumpWrap f).staged = s.staged := rfl
@[simp] theorem State.bumpWrap_pairs (s : State) (f : Fld) : (s.bumpWrap f).pairs = s.pairs := rfl
@[simp] theorem State.bumpWrap_holding (s : State) (f : Fld) : (s.bumpWrap f).holding = s.holding := rfl
@[simp] theorem State.bumpWrap_dtime (s : State) (f : Fld) : (s.bumpWrap f).dtime = s.dtime := rfl
@[simp] theorem State.bumpWrap_mem (s : State) (f : Fld) : (s.bumpWrap f).mem = s.mem := rfl
@[simp] theorem State.bumpWrap_larder (s : State) (f : Fld) : (s.bumpWrap f).larder = s.larder := rfl
@[simp] theorem State.bumpWrap_host (s : State) (f : Fld) : (s.bumpWrap f).host = s.host := rfl
@[simp] theorem State.bumpWrap_free (s : State) (f : Fld) : (s.bumpWrap f).free = s.free := rfl
@[simp] theorem State.bumpWrap_module (s : State) (f : Fld) : (s.bumpWrap f).module = s.module := rfl
@[simp] theorem State.bumpWrap_cel (s : State) (f : Fld) : (s.bumpWrap f).cel = s.cel := rfl
@[simp] theorem State.bumpWrap_pos (s : State) (f : Fld) : (s.bumpWrap f).pos = s.pos := rfl
@[simp] theorem State.bumpWrap_lanes (s : State) (f : Fld) : (s.bumpWrap f).lanes = s.lanes := rfl
@[simp] theorem State.bumpWrap_cams (s : State) (f : Fld) : (s.bumpWrap f).cams = s.cams := rfl
@[simp] theorem State.bumpWrap_lp (s : State) (f : Fld) : (s.bumpWrap f).lp = s.lp := rfl
@[simp] theorem State.bumpWrap_seq (s : State) (f : Fld) : (s.bumpWrap f).seq = s.seq := rfl
@[simp] theorem State.bumpWrap_field (s : State) (f : Fld) : (s.bumpWrap f).field = s.field := rfl
@[simp] theorem State.bumpWrap_link (s : State) (f : Fld) : (s.bumpWrap f).link = s.link := rfl
@[simp] theorem State.bumpWrap_aud (s : State) (f : Fld) : (s.bumpWrap f).aud = s.aud := rfl
@[simp] theorem State.bumpWrap_loft (s : State) (f : Fld) : (s.bumpWrap f).loft = s.loft := rfl
@[simp] theorem State.bumpWrap_ntm (s : State) (f : Fld) : (s.bumpWrap f).ntm = s.ntm := rfl
@[simp] theorem State.bumpWrap_gts (s : State) (f : Fld) : (s.bumpWrap f).gts = s.gts := rfl
@[simp] theorem State.bumpWrap_client (s : State) (f : Fld) : (s.bumpWrap f).client = s.client := rfl
@[simp] theorem State.bumpWrap_cores (s : State) (f : Fld) : (s.bumpWrap f).cores = s.cores := rfl
@[simp] theorem State.bumpWrap_lists (s : State) (f : Fld) : (s.bumpWrap f).lists = s.lists := rfl
@[simp] theorem State.bumpWrap_jobs (s : State) (f : Fld) : (s.bumpWrap f).jobs = s.jobs := rfl
@[simp] theorem State.bumpWrap_ptns (s : State) (f : Fld) : (s.bumpWrap f).ptns = s.ptns := rfl
@[simp] theorem State.bumpWrap_flock (s : State) (f : Fld) : (s.bumpWrap f).flock = s.flock := rfl
@[simp] theorem State.bumpWrap_adp (s : State) (f : Fld) : (s.bumpWrap f).adp = s.adp := rfl
@[simp] theorem State.bumpWrap_sdg (s : State) (f : Fld) : (s.bumpWrap f).sdg = s.sdg := rfl
@[simp] theorem State.bumpWrap_stage (s : State) (f : Fld) : (s.bumpWrap f).stage = s.stage := rfl
@[simp] theorem State.bumpWrap_sync (s : State) (f : Fld) : (s.bumpWrap f).sync = s.sync := rfl
@[simp] theorem State.bumpWrap_clk (s : State) (f : Fld) : (s.bumpWrap f).clk = s.clk := rfl
@[simp] theorem State.bumpWrap_boot (s : State) (f : Fld) : (s.bumpWrap f).boot = s.boot := rfl
@[simp] theorem State.bumpWrap_pending (s : State) (f : Fld) : (s.bumpWrap f).pending = s.pending := rfl

/-! ### `State.put64` -/

@[simp] theorem State.put64_staged (s : State) (lo : Fld) (hi : Fld) (v : Nat) : (s.put64 lo hi v).staged = s.staged := rfl
@[simp] theorem State.put64_pairs (s : State) (lo : Fld) (hi : Fld) (v : Nat) : (s.put64 lo hi v).pairs = s.pairs := rfl
@[simp] theorem State.put64_holding (s : State) (lo : Fld) (hi : Fld) (v : Nat) : (s.put64 lo hi v).holding = s.holding := rfl
@[simp] theorem State.put64_dtime (s : State) (lo : Fld) (hi : Fld) (v : Nat) : (s.put64 lo hi v).dtime = s.dtime := rfl
@[simp] theorem State.put64_mem (s : State) (lo : Fld) (hi : Fld) (v : Nat) : (s.put64 lo hi v).mem = s.mem := rfl
@[simp] theorem State.put64_larder (s : State) (lo : Fld) (hi : Fld) (v : Nat) : (s.put64 lo hi v).larder = s.larder := rfl
@[simp] theorem State.put64_host (s : State) (lo : Fld) (hi : Fld) (v : Nat) : (s.put64 lo hi v).host = s.host := rfl
@[simp] theorem State.put64_free (s : State) (lo : Fld) (hi : Fld) (v : Nat) : (s.put64 lo hi v).free = s.free := rfl
@[simp] theorem State.put64_module (s : State) (lo : Fld) (hi : Fld) (v : Nat) : (s.put64 lo hi v).module = s.module := rfl
@[simp] theorem State.put64_cel (s : State) (lo : Fld) (hi : Fld) (v : Nat) : (s.put64 lo hi v).cel = s.cel := rfl
@[simp] theorem State.put64_pos (s : State) (lo : Fld) (hi : Fld) (v : Nat) : (s.put64 lo hi v).pos = s.pos := rfl
@[simp] theorem State.put64_lanes (s : State) (lo : Fld) (hi : Fld) (v : Nat) : (s.put64 lo hi v).lanes = s.lanes := rfl
@[simp] theorem State.put64_cams (s : State) (lo : Fld) (hi : Fld) (v : Nat) : (s.put64 lo hi v).cams = s.cams := rfl
@[simp] theorem State.put64_lp (s : State) (lo : Fld) (hi : Fld) (v : Nat) : (s.put64 lo hi v).lp = s.lp := rfl
@[simp] theorem State.put64_seq (s : State) (lo : Fld) (hi : Fld) (v : Nat) : (s.put64 lo hi v).seq = s.seq := rfl
@[simp] theorem State.put64_field (s : State) (lo : Fld) (hi : Fld) (v : Nat) : (s.put64 lo hi v).field = s.field := rfl
@[simp] theorem State.put64_link (s : State) (lo : Fld) (hi : Fld) (v : Nat) : (s.put64 lo hi v).link = s.link := rfl
@[simp] theorem State.put64_aud (s : State) (lo : Fld) (hi : Fld) (v : Nat) : (s.put64 lo hi v).aud = s.aud := rfl
@[simp] theorem State.put64_loft (s : State) (lo : Fld) (hi : Fld) (v : Nat) : (s.put64 lo hi v).loft = s.loft := rfl
@[simp] theorem State.put64_ntm (s : State) (lo : Fld) (hi : Fld) (v : Nat) : (s.put64 lo hi v).ntm = s.ntm := rfl
@[simp] theorem State.put64_gts (s : State) (lo : Fld) (hi : Fld) (v : Nat) : (s.put64 lo hi v).gts = s.gts := rfl
@[simp] theorem State.put64_client (s : State) (lo : Fld) (hi : Fld) (v : Nat) : (s.put64 lo hi v).client = s.client := rfl
@[simp] theorem State.put64_cores (s : State) (lo : Fld) (hi : Fld) (v : Nat) : (s.put64 lo hi v).cores = s.cores := rfl
@[simp] theorem State.put64_lists (s : State) (lo : Fld) (hi : Fld) (v : Nat) : (s.put64 lo hi v).lists = s.lists := rfl
@[simp] theorem State.put64_jobs (s : State) (lo : Fld) (hi : Fld) (v : Nat) : (s.put64 lo hi v).jobs = s.jobs := rfl
@[simp] theorem State.put64_ptns (s : State) (lo : Fld) (hi : Fld) (v : Nat) : (s.put64 lo hi v).ptns = s.ptns := rfl
@[simp] theorem State.put64_flock (s : State) (lo : Fld) (hi : Fld) (v : Nat) : (s.put64 lo hi v).flock = s.flock := rfl
@[simp] theorem State.put64_adp (s : State) (lo : Fld) (hi : Fld) (v : Nat) : (s.put64 lo hi v).adp = s.adp := rfl
@[simp] theorem State.put64_sdg (s : State) (lo : Fld) (hi : Fld) (v : Nat) : (s.put64 lo hi v).sdg = s.sdg := rfl
@[simp] theorem State.put64_stage (s : State) (lo : Fld) (hi : Fld) (v : Nat) : (s.put64 lo hi v).stage = s.stage := rfl
@[simp] theorem State.put64_sync (s : State) (lo : Fld) (hi : Fld) (v : Nat) : (s.put64 lo hi v).sync = s.sync := rfl
@[simp] theorem State.put64_clk (s : State) (lo : Fld) (hi : Fld) (v : Nat) : (s.put64 lo hi v).clk = s.clk := rfl
@[simp] theorem State.put64_boot (s : State) (lo : Fld) (hi : Fld) (v : Nat) : (s.put64 lo hi v).boot = s.boot := rfl
@[simp] theorem State.put64_pending (s : State) (lo : Fld) (hi : Fld) (v : Nat) : (s.put64 lo hi v).pending = s.pending := rfl

/-! ### `State.hostWrite` -/

@[simp] theorem State.hostWrite_regs (s : State) (a : Nat) (bs : List Byte) : (s.hostWrite a bs).regs = s.regs := rfl
@[simp] theorem State.hostWrite_staged (s : State) (a : Nat) (bs : List Byte) : (s.hostWrite a bs).staged = s.staged := rfl
@[simp] theorem State.hostWrite_pairs (s : State) (a : Nat) (bs : List Byte) : (s.hostWrite a bs).pairs = s.pairs := rfl
@[simp] theorem State.hostWrite_holding (s : State) (a : Nat) (bs : List Byte) : (s.hostWrite a bs).holding = s.holding := rfl
@[simp] theorem State.hostWrite_dtime (s : State) (a : Nat) (bs : List Byte) : (s.hostWrite a bs).dtime = s.dtime := rfl
@[simp] theorem State.hostWrite_mem (s : State) (a : Nat) (bs : List Byte) : (s.hostWrite a bs).mem = s.mem := rfl
@[simp] theorem State.hostWrite_larder (s : State) (a : Nat) (bs : List Byte) : (s.hostWrite a bs).larder = s.larder := rfl
@[simp] theorem State.hostWrite_free (s : State) (a : Nat) (bs : List Byte) : (s.hostWrite a bs).free = s.free := rfl
@[simp] theorem State.hostWrite_module (s : State) (a : Nat) (bs : List Byte) : (s.hostWrite a bs).module = s.module := rfl
@[simp] theorem State.hostWrite_cel (s : State) (a : Nat) (bs : List Byte) : (s.hostWrite a bs).cel = s.cel := rfl
@[simp] theorem State.hostWrite_pos (s : State) (a : Nat) (bs : List Byte) : (s.hostWrite a bs).pos = s.pos := rfl
@[simp] theorem State.hostWrite_lanes (s : State) (a : Nat) (bs : List Byte) : (s.hostWrite a bs).lanes = s.lanes := rfl
@[simp] theorem State.hostWrite_cams (s : State) (a : Nat) (bs : List Byte) : (s.hostWrite a bs).cams = s.cams := rfl
@[simp] theorem State.hostWrite_lp (s : State) (a : Nat) (bs : List Byte) : (s.hostWrite a bs).lp = s.lp := rfl
@[simp] theorem State.hostWrite_seq (s : State) (a : Nat) (bs : List Byte) : (s.hostWrite a bs).seq = s.seq := rfl
@[simp] theorem State.hostWrite_field (s : State) (a : Nat) (bs : List Byte) : (s.hostWrite a bs).field = s.field := rfl
@[simp] theorem State.hostWrite_link (s : State) (a : Nat) (bs : List Byte) : (s.hostWrite a bs).link = s.link := rfl
@[simp] theorem State.hostWrite_aud (s : State) (a : Nat) (bs : List Byte) : (s.hostWrite a bs).aud = s.aud := rfl
@[simp] theorem State.hostWrite_loft (s : State) (a : Nat) (bs : List Byte) : (s.hostWrite a bs).loft = s.loft := rfl
@[simp] theorem State.hostWrite_ntm (s : State) (a : Nat) (bs : List Byte) : (s.hostWrite a bs).ntm = s.ntm := rfl
@[simp] theorem State.hostWrite_gts (s : State) (a : Nat) (bs : List Byte) : (s.hostWrite a bs).gts = s.gts := rfl
@[simp] theorem State.hostWrite_client (s : State) (a : Nat) (bs : List Byte) : (s.hostWrite a bs).client = s.client := rfl
@[simp] theorem State.hostWrite_cores (s : State) (a : Nat) (bs : List Byte) : (s.hostWrite a bs).cores = s.cores := rfl
@[simp] theorem State.hostWrite_lists (s : State) (a : Nat) (bs : List Byte) : (s.hostWrite a bs).lists = s.lists := rfl
@[simp] theorem State.hostWrite_jobs (s : State) (a : Nat) (bs : List Byte) : (s.hostWrite a bs).jobs = s.jobs := rfl
@[simp] theorem State.hostWrite_ptns (s : State) (a : Nat) (bs : List Byte) : (s.hostWrite a bs).ptns = s.ptns := rfl
@[simp] theorem State.hostWrite_flock (s : State) (a : Nat) (bs : List Byte) : (s.hostWrite a bs).flock = s.flock := rfl
@[simp] theorem State.hostWrite_adp (s : State) (a : Nat) (bs : List Byte) : (s.hostWrite a bs).adp = s.adp := rfl
@[simp] theorem State.hostWrite_sdg (s : State) (a : Nat) (bs : List Byte) : (s.hostWrite a bs).sdg = s.sdg := rfl
@[simp] theorem State.hostWrite_stage (s : State) (a : Nat) (bs : List Byte) : (s.hostWrite a bs).stage = s.stage := rfl
@[simp] theorem State.hostWrite_sync (s : State) (a : Nat) (bs : List Byte) : (s.hostWrite a bs).sync = s.sync := rfl
@[simp] theorem State.hostWrite_clk (s : State) (a : Nat) (bs : List Byte) : (s.hostWrite a bs).clk = s.clk := rfl
@[simp] theorem State.hostWrite_boot (s : State) (a : Nat) (bs : List Byte) : (s.hostWrite a bs).boot = s.boot := rfl
@[simp] theorem State.hostWrite_pending (s : State) (a : Nat) (bs : List Byte) : (s.hostWrite a bs).pending = s.pending := rfl

/-! ### `State.sendDown` -/

@[simp] theorem State.sendDown_regs (s : State) (m : DownMsg) : (s.sendDown m).regs = s.regs := rfl
@[simp] theorem State.sendDown_staged (s : State) (m : DownMsg) : (s.sendDown m).staged = s.staged := rfl
@[simp] theorem State.sendDown_pairs (s : State) (m : DownMsg) : (s.sendDown m).pairs = s.pairs := rfl
@[simp] theorem State.sendDown_holding (s : State) (m : DownMsg) : (s.sendDown m).holding = s.holding := rfl
@[simp] theorem State.sendDown_dtime (s : State) (m : DownMsg) : (s.sendDown m).dtime = s.dtime := rfl
@[simp] theorem State.sendDown_mem (s : State) (m : DownMsg) : (s.sendDown m).mem = s.mem := rfl
@[simp] theorem State.sendDown_larder (s : State) (m : DownMsg) : (s.sendDown m).larder = s.larder := rfl
@[simp] theorem State.sendDown_host (s : State) (m : DownMsg) : (s.sendDown m).host = s.host := rfl
@[simp] theorem State.sendDown_free (s : State) (m : DownMsg) : (s.sendDown m).free = s.free := rfl
@[simp] theorem State.sendDown_module (s : State) (m : DownMsg) : (s.sendDown m).module = s.module := rfl
@[simp] theorem State.sendDown_cel (s : State) (m : DownMsg) : (s.sendDown m).cel = s.cel := rfl
@[simp] theorem State.sendDown_pos (s : State) (m : DownMsg) : (s.sendDown m).pos = s.pos := rfl
@[simp] theorem State.sendDown_lanes (s : State) (m : DownMsg) : (s.sendDown m).lanes = s.lanes := rfl
@[simp] theorem State.sendDown_cams (s : State) (m : DownMsg) : (s.sendDown m).cams = s.cams := rfl
@[simp] theorem State.sendDown_lp (s : State) (m : DownMsg) : (s.sendDown m).lp = s.lp := rfl
@[simp] theorem State.sendDown_seq (s : State) (m : DownMsg) : (s.sendDown m).seq = s.seq := rfl
@[simp] theorem State.sendDown_field (s : State) (m : DownMsg) : (s.sendDown m).field = s.field := rfl
@[simp] theorem State.sendDown_aud (s : State) (m : DownMsg) : (s.sendDown m).aud = s.aud := rfl
@[simp] theorem State.sendDown_loft (s : State) (m : DownMsg) : (s.sendDown m).loft = s.loft := rfl
@[simp] theorem State.sendDown_ntm (s : State) (m : DownMsg) : (s.sendDown m).ntm = s.ntm := rfl
@[simp] theorem State.sendDown_gts (s : State) (m : DownMsg) : (s.sendDown m).gts = s.gts := rfl
@[simp] theorem State.sendDown_client (s : State) (m : DownMsg) : (s.sendDown m).client = s.client := rfl
@[simp] theorem State.sendDown_cores (s : State) (m : DownMsg) : (s.sendDown m).cores = s.cores := rfl
@[simp] theorem State.sendDown_lists (s : State) (m : DownMsg) : (s.sendDown m).lists = s.lists := rfl
@[simp] theorem State.sendDown_jobs (s : State) (m : DownMsg) : (s.sendDown m).jobs = s.jobs := rfl
@[simp] theorem State.sendDown_ptns (s : State) (m : DownMsg) : (s.sendDown m).ptns = s.ptns := rfl
@[simp] theorem State.sendDown_flock (s : State) (m : DownMsg) : (s.sendDown m).flock = s.flock := rfl
@[simp] theorem State.sendDown_adp (s : State) (m : DownMsg) : (s.sendDown m).adp = s.adp := rfl
@[simp] theorem State.sendDown_sdg (s : State) (m : DownMsg) : (s.sendDown m).sdg = s.sdg := rfl
@[simp] theorem State.sendDown_stage (s : State) (m : DownMsg) : (s.sendDown m).stage = s.stage := rfl
@[simp] theorem State.sendDown_sync (s : State) (m : DownMsg) : (s.sendDown m).sync = s.sync := rfl
@[simp] theorem State.sendDown_clk (s : State) (m : DownMsg) : (s.sendDown m).clk = s.clk := rfl
@[simp] theorem State.sendDown_boot (s : State) (m : DownMsg) : (s.sendDown m).boot = s.boot := rfl
@[simp] theorem State.sendDown_pending (s : State) (m : DownMsg) : (s.sendDown m).pending = s.pending := rfl

/-! ### `State.sendUp` -/

@[simp] theorem State.sendUp_regs (s : State) (m : UpMsg) : (s.sendUp m).regs = s.regs := rfl
@[simp] theorem State.sendUp_staged (s : State) (m : UpMsg) : (s.sendUp m).staged = s.staged := rfl
@[simp] theorem State.sendUp_pairs (s : State) (m : UpMsg) : (s.sendUp m).pairs = s.pairs := rfl
@[simp] theorem State.sendUp_holding (s : State) (m : UpMsg) : (s.sendUp m).holding = s.holding := rfl
@[simp] theorem State.sendUp_dtime (s : State) (m : UpMsg) : (s.sendUp m).dtime = s.dtime := rfl
@[simp] theorem State.sendUp_mem (s : State) (m : UpMsg) : (s.sendUp m).mem = s.mem := rfl
@[simp] theorem State.sendUp_larder (s : State) (m : UpMsg) : (s.sendUp m).larder = s.larder := rfl
@[simp] theorem State.sendUp_host (s : State) (m : UpMsg) : (s.sendUp m).host = s.host := rfl
@[simp] theorem State.sendUp_free (s : State) (m : UpMsg) : (s.sendUp m).free = s.free := rfl
@[simp] theorem State.sendUp_module (s : State) (m : UpMsg) : (s.sendUp m).module = s.module := rfl
@[simp] theorem State.sendUp_cel (s : State) (m : UpMsg) : (s.sendUp m).cel = s.cel := rfl
@[simp] theorem State.sendUp_pos (s : State) (m : UpMsg) : (s.sendUp m).pos = s.pos := rfl
@[simp] theorem State.sendUp_lanes (s : State) (m : UpMsg) : (s.sendUp m).lanes = s.lanes := rfl
@[simp] theorem State.sendUp_cams (s : State) (m : UpMsg) : (s.sendUp m).cams = s.cams := rfl
@[simp] theorem State.sendUp_lp (s : State) (m : UpMsg) : (s.sendUp m).lp = s.lp := rfl
@[simp] theorem State.sendUp_seq (s : State) (m : UpMsg) : (s.sendUp m).seq = s.seq := rfl
@[simp] theorem State.sendUp_aud (s : State) (m : UpMsg) : (s.sendUp m).aud = s.aud := rfl
@[simp] theorem State.sendUp_loft (s : State) (m : UpMsg) : (s.sendUp m).loft = s.loft := rfl
@[simp] theorem State.sendUp_ntm (s : State) (m : UpMsg) : (s.sendUp m).ntm = s.ntm := rfl
@[simp] theorem State.sendUp_gts (s : State) (m : UpMsg) : (s.sendUp m).gts = s.gts := rfl
@[simp] theorem State.sendUp_client (s : State) (m : UpMsg) : (s.sendUp m).client = s.client := rfl
@[simp] theorem State.sendUp_cores (s : State) (m : UpMsg) : (s.sendUp m).cores = s.cores := rfl
@[simp] theorem State.sendUp_lists (s : State) (m : UpMsg) : (s.sendUp m).lists = s.lists := rfl
@[simp] theorem State.sendUp_jobs (s : State) (m : UpMsg) : (s.sendUp m).jobs = s.jobs := rfl
@[simp] theorem State.sendUp_ptns (s : State) (m : UpMsg) : (s.sendUp m).ptns = s.ptns := rfl
@[simp] theorem State.sendUp_flock (s : State) (m : UpMsg) : (s.sendUp m).flock = s.flock := rfl
@[simp] theorem State.sendUp_adp (s : State) (m : UpMsg) : (s.sendUp m).adp = s.adp := rfl
@[simp] theorem State.sendUp_sdg (s : State) (m : UpMsg) : (s.sendUp m).sdg = s.sdg := rfl
@[simp] theorem State.sendUp_stage (s : State) (m : UpMsg) : (s.sendUp m).stage = s.stage := rfl
@[simp] theorem State.sendUp_sync (s : State) (m : UpMsg) : (s.sendUp m).sync = s.sync := rfl
@[simp] theorem State.sendUp_clk (s : State) (m : UpMsg) : (s.sendUp m).clk = s.clk := rfl
@[simp] theorem State.sendUp_boot (s : State) (m : UpMsg) : (s.sendUp m).boot = s.boot := rfl
@[simp] theorem State.sendUp_pending (s : State) (m : UpMsg) : (s.sendUp m).pending = s.pending := rfl

/-! ### `State.setOut` -/

@[simp] theorem State.setOut_regs (s : State) (q : Nat) (o : OutSt) : (s.setOut q o).regs = s.regs := rfl
@[simp] theorem State.setOut_staged (s : State) (q : Nat) (o : OutSt) : (s.setOut q o).staged = s.staged := rfl
@[simp] theorem State.setOut_pairs (s : State) (q : Nat) (o : OutSt) : (s.setOut q o).pairs = s.pairs := rfl
@[simp] theorem State.setOut_holding (s : State) (q : Nat) (o : OutSt) : (s.setOut q o).holding = s.holding := rfl
@[simp] theorem State.setOut_dtime (s : State) (q : Nat) (o : OutSt) : (s.setOut q o).dtime = s.dtime := rfl
@[simp] theorem State.setOut_mem (s : State) (q : Nat) (o : OutSt) : (s.setOut q o).mem = s.mem := rfl
@[simp] theorem State.setOut_larder (s : State) (q : Nat) (o : OutSt) : (s.setOut q o).larder = s.larder := rfl
@[simp] theorem State.setOut_host (s : State) (q : Nat) (o : OutSt) : (s.setOut q o).host = s.host := rfl
@[simp] theorem State.setOut_free (s : State) (q : Nat) (o : OutSt) : (s.setOut q o).free = s.free := rfl
@[simp] theorem State.setOut_module (s : State) (q : Nat) (o : OutSt) : (s.setOut q o).module = s.module := rfl
@[simp] theorem State.setOut_cel (s : State) (q : Nat) (o : OutSt) : (s.setOut q o).cel = s.cel := rfl
@[simp] theorem State.setOut_pos (s : State) (q : Nat) (o : OutSt) : (s.setOut q o).pos = s.pos := rfl
@[simp] theorem State.setOut_lanes (s : State) (q : Nat) (o : OutSt) : (s.setOut q o).lanes = s.lanes := rfl
@[simp] theorem State.setOut_cams (s : State) (q : Nat) (o : OutSt) : (s.setOut q o).cams = s.cams := rfl
@[simp] theorem State.setOut_lp (s : State) (q : Nat) (o : OutSt) : (s.setOut q o).lp = s.lp := rfl
@[simp] theorem State.setOut_seq (s : State) (q : Nat) (o : OutSt) : (s.setOut q o).seq = s.seq := rfl
@[simp] theorem State.setOut_link (s : State) (q : Nat) (o : OutSt) : (s.setOut q o).link = s.link := rfl
@[simp] theorem State.setOut_aud (s : State) (q : Nat) (o : OutSt) : (s.setOut q o).aud = s.aud := rfl
@[simp] theorem State.setOut_loft (s : State) (q : Nat) (o : OutSt) : (s.setOut q o).loft = s.loft := rfl
@[simp] theorem State.setOut_ntm (s : State) (q : Nat) (o : OutSt) : (s.setOut q o).ntm = s.ntm := rfl
@[simp] theorem State.setOut_gts (s : State) (q : Nat) (o : OutSt) : (s.setOut q o).gts = s.gts := rfl
@[simp] theorem State.setOut_client (s : State) (q : Nat) (o : OutSt) : (s.setOut q o).client = s.client := rfl
@[simp] theorem State.setOut_cores (s : State) (q : Nat) (o : OutSt) : (s.setOut q o).cores = s.cores := rfl
@[simp] theorem State.setOut_lists (s : State) (q : Nat) (o : OutSt) : (s.setOut q o).lists = s.lists := rfl
@[simp] theorem State.setOut_jobs (s : State) (q : Nat) (o : OutSt) : (s.setOut q o).jobs = s.jobs := rfl
@[simp] theorem State.setOut_ptns (s : State) (q : Nat) (o : OutSt) : (s.setOut q o).ptns = s.ptns := rfl
@[simp] theorem State.setOut_flock (s : State) (q : Nat) (o : OutSt) : (s.setOut q o).flock = s.flock := rfl
@[simp] theorem State.setOut_adp (s : State) (q : Nat) (o : OutSt) : (s.setOut q o).adp = s.adp := rfl
@[simp] theorem State.setOut_sdg (s : State) (q : Nat) (o : OutSt) : (s.setOut q o).sdg = s.sdg := rfl
@[simp] theorem State.setOut_stage (s : State) (q : Nat) (o : OutSt) : (s.setOut q o).stage = s.stage := rfl
@[simp] theorem State.setOut_sync (s : State) (q : Nat) (o : OutSt) : (s.setOut q o).sync = s.sync := rfl
@[simp] theorem State.setOut_clk (s : State) (q : Nat) (o : OutSt) : (s.setOut q o).clk = s.clk := rfl
@[simp] theorem State.setOut_boot (s : State) (q : Nat) (o : OutSt) : (s.setOut q o).boot = s.boot := rfl
@[simp] theorem State.setOut_pending (s : State) (q : Nat) (o : OutSt) : (s.setOut q o).pending = s.pending := rfl

/-! ### `State.setPulse` -/

@[simp] theorem State.setPulse_regs (s : State) (p : Pulse) : (s.setPulse p).regs = s.regs := rfl
@[simp] theorem State.setPulse_staged (s : State) (p : Pulse) : (s.setPulse p).staged = s.staged := rfl
@[simp] theorem State.setPulse_pairs (s : State) (p : Pulse) : (s.setPulse p).pairs = s.pairs := rfl
@[simp] theorem State.setPulse_holding (s : State) (p : Pulse) : (s.setPulse p).holding = s.holding := rfl
@[simp] theorem State.setPulse_dtime (s : State) (p : Pulse) : (s.setPulse p).dtime = s.dtime := rfl
@[simp] theorem State.setPulse_mem (s : State) (p : Pulse) : (s.setPulse p).mem = s.mem := rfl
@[simp] theorem State.setPulse_larder (s : State) (p : Pulse) : (s.setPulse p).larder = s.larder := rfl
@[simp] theorem State.setPulse_host (s : State) (p : Pulse) : (s.setPulse p).host = s.host := rfl
@[simp] theorem State.setPulse_free (s : State) (p : Pulse) : (s.setPulse p).free = s.free := rfl
@[simp] theorem State.setPulse_module (s : State) (p : Pulse) : (s.setPulse p).module = s.module := rfl
@[simp] theorem State.setPulse_cel (s : State) (p : Pulse) : (s.setPulse p).cel = s.cel := rfl
@[simp] theorem State.setPulse_pos (s : State) (p : Pulse) : (s.setPulse p).pos = s.pos := rfl
@[simp] theorem State.setPulse_lanes (s : State) (p : Pulse) : (s.setPulse p).lanes = s.lanes := rfl
@[simp] theorem State.setPulse_cams (s : State) (p : Pulse) : (s.setPulse p).cams = s.cams := rfl
@[simp] theorem State.setPulse_lp (s : State) (p : Pulse) : (s.setPulse p).lp = s.lp := rfl
@[simp] theorem State.setPulse_seq (s : State) (p : Pulse) : (s.setPulse p).seq = s.seq := rfl
@[simp] theorem State.setPulse_link (s : State) (p : Pulse) : (s.setPulse p).link = s.link := rfl
@[simp] theorem State.setPulse_aud (s : State) (p : Pulse) : (s.setPulse p).aud = s.aud := rfl
@[simp] theorem State.setPulse_loft (s : State) (p : Pulse) : (s.setPulse p).loft = s.loft := rfl
@[simp] theorem State.setPulse_ntm (s : State) (p : Pulse) : (s.setPulse p).ntm = s.ntm := rfl
@[simp] theorem State.setPulse_gts (s : State) (p : Pulse) : (s.setPulse p).gts = s.gts := rfl
@[simp] theorem State.setPulse_client (s : State) (p : Pulse) : (s.setPulse p).client = s.client := rfl
@[simp] theorem State.setPulse_cores (s : State) (p : Pulse) : (s.setPulse p).cores = s.cores := rfl
@[simp] theorem State.setPulse_lists (s : State) (p : Pulse) : (s.setPulse p).lists = s.lists := rfl
@[simp] theorem State.setPulse_jobs (s : State) (p : Pulse) : (s.setPulse p).jobs = s.jobs := rfl
@[simp] theorem State.setPulse_ptns (s : State) (p : Pulse) : (s.setPulse p).ptns = s.ptns := rfl
@[simp] theorem State.setPulse_flock (s : State) (p : Pulse) : (s.setPulse p).flock = s.flock := rfl
@[simp] theorem State.setPulse_adp (s : State) (p : Pulse) : (s.setPulse p).adp = s.adp := rfl
@[simp] theorem State.setPulse_sdg (s : State) (p : Pulse) : (s.setPulse p).sdg = s.sdg := rfl
@[simp] theorem State.setPulse_stage (s : State) (p : Pulse) : (s.setPulse p).stage = s.stage := rfl
@[simp] theorem State.setPulse_sync (s : State) (p : Pulse) : (s.setPulse p).sync = s.sync := rfl
@[simp] theorem State.setPulse_clk (s : State) (p : Pulse) : (s.setPulse p).clk = s.clk := rfl
@[simp] theorem State.setPulse_boot (s : State) (p : Pulse) : (s.setPulse p).boot = s.boot := rfl
@[simp] theorem State.setPulse_pending (s : State) (p : Pulse) : (s.setPulse p).pending = s.pending := rfl

/-! ### `State.setPart` -/

@[simp] theorem State.setPart_regs (s : State) (i : Nat) (p : Part) : (s.setPart i p).regs = s.regs := rfl
@[simp] theorem State.setPart_staged (s : State) (i : Nat) (p : Part) : (s.setPart i p).staged = s.staged := rfl
@[simp] theorem State.setPart_pairs (s : State) (i : Nat) (p : Part) : (s.setPart i p).pairs = s.pairs := rfl
@[simp] theorem State.setPart_holding (s : State) (i : Nat) (p : Part) : (s.setPart i p).holding = s.holding := rfl
@[simp] theorem State.setPart_dtime (s : State) (i : Nat) (p : Part) : (s.setPart i p).dtime = s.dtime := rfl
@[simp] theorem State.setPart_mem (s : State) (i : Nat) (p : Part) : (s.setPart i p).mem = s.mem := rfl
@[simp] theorem State.setPart_larder (s : State) (i : Nat) (p : Part) : (s.setPart i p).larder = s.larder := rfl
@[simp] theorem State.setPart_host (s : State) (i : Nat) (p : Part) : (s.setPart i p).host = s.host := rfl
@[simp] theorem State.setPart_free (s : State) (i : Nat) (p : Part) : (s.setPart i p).free = s.free := rfl
@[simp] theorem State.setPart_module (s : State) (i : Nat) (p : Part) : (s.setPart i p).module = s.module := rfl
@[simp] theorem State.setPart_cel (s : State) (i : Nat) (p : Part) : (s.setPart i p).cel = s.cel := rfl
@[simp] theorem State.setPart_pos (s : State) (i : Nat) (p : Part) : (s.setPart i p).pos = s.pos := rfl
@[simp] theorem State.setPart_lanes (s : State) (i : Nat) (p : Part) : (s.setPart i p).lanes = s.lanes := rfl
@[simp] theorem State.setPart_cams (s : State) (i : Nat) (p : Part) : (s.setPart i p).cams = s.cams := rfl
@[simp] theorem State.setPart_lp (s : State) (i : Nat) (p : Part) : (s.setPart i p).lp = s.lp := rfl
@[simp] theorem State.setPart_field (s : State) (i : Nat) (p : Part) : (s.setPart i p).field = s.field := rfl
@[simp] theorem State.setPart_link (s : State) (i : Nat) (p : Part) : (s.setPart i p).link = s.link := rfl
@[simp] theorem State.setPart_aud (s : State) (i : Nat) (p : Part) : (s.setPart i p).aud = s.aud := rfl
@[simp] theorem State.setPart_loft (s : State) (i : Nat) (p : Part) : (s.setPart i p).loft = s.loft := rfl
@[simp] theorem State.setPart_ntm (s : State) (i : Nat) (p : Part) : (s.setPart i p).ntm = s.ntm := rfl
@[simp] theorem State.setPart_gts (s : State) (i : Nat) (p : Part) : (s.setPart i p).gts = s.gts := rfl
@[simp] theorem State.setPart_client (s : State) (i : Nat) (p : Part) : (s.setPart i p).client = s.client := rfl
@[simp] theorem State.setPart_cores (s : State) (i : Nat) (p : Part) : (s.setPart i p).cores = s.cores := rfl
@[simp] theorem State.setPart_lists (s : State) (i : Nat) (p : Part) : (s.setPart i p).lists = s.lists := rfl
@[simp] theorem State.setPart_jobs (s : State) (i : Nat) (p : Part) : (s.setPart i p).jobs = s.jobs := rfl
@[simp] theorem State.setPart_ptns (s : State) (i : Nat) (p : Part) : (s.setPart i p).ptns = s.ptns := rfl
@[simp] theorem State.setPart_flock (s : State) (i : Nat) (p : Part) : (s.setPart i p).flock = s.flock := rfl
@[simp] theorem State.setPart_adp (s : State) (i : Nat) (p : Part) : (s.setPart i p).adp = s.adp := rfl
@[simp] theorem State.setPart_sdg (s : State) (i : Nat) (p : Part) : (s.setPart i p).sdg = s.sdg := rfl
@[simp] theorem State.setPart_stage (s : State) (i : Nat) (p : Part) : (s.setPart i p).stage = s.stage := rfl
@[simp] theorem State.setPart_sync (s : State) (i : Nat) (p : Part) : (s.setPart i p).sync = s.sync := rfl
@[simp] theorem State.setPart_clk (s : State) (i : Nat) (p : Part) : (s.setPart i p).clk = s.clk := rfl
@[simp] theorem State.setPart_boot (s : State) (i : Nat) (p : Part) : (s.setPart i p).boot = s.boot := rfl
@[simp] theorem State.setPart_pending (s : State) (i : Nat) (p : Part) : (s.setPart i p).pending = s.pending := rfl

/-! ### `State.setFrame` -/

@[simp] theorem State.setFrame_regs (s : State) (f : Frame) : (s.setFrame f).regs = s.regs := rfl
@[simp] theorem State.setFrame_staged (s : State) (f : Frame) : (s.setFrame f).staged = s.staged := rfl
@[simp] theorem State.setFrame_pairs (s : State) (f : Frame) : (s.setFrame f).pairs = s.pairs := rfl
@[simp] theorem State.setFrame_holding (s : State) (f : Frame) : (s.setFrame f).holding = s.holding := rfl
@[simp] theorem State.setFrame_dtime (s : State) (f : Frame) : (s.setFrame f).dtime = s.dtime := rfl
@[simp] theorem State.setFrame_mem (s : State) (f : Frame) : (s.setFrame f).mem = s.mem := rfl
@[simp] theorem State.setFrame_larder (s : State) (f : Frame) : (s.setFrame f).larder = s.larder := rfl
@[simp] theorem State.setFrame_host (s : State) (f : Frame) : (s.setFrame f).host = s.host := rfl
@[simp] theorem State.setFrame_free (s : State) (f : Frame) : (s.setFrame f).free = s.free := rfl
@[simp] theorem State.setFrame_module (s : State) (f : Frame) : (s.setFrame f).module = s.module := rfl
@[simp] theorem State.setFrame_cel (s : State) (f : Frame) : (s.setFrame f).cel = s.cel := rfl
@[simp] theorem State.setFrame_pos (s : State) (f : Frame) : (s.setFrame f).pos = s.pos := rfl
@[simp] theorem State.setFrame_lanes (s : State) (f : Frame) : (s.setFrame f).lanes = s.lanes := rfl
@[simp] theorem State.setFrame_cams (s : State) (f : Frame) : (s.setFrame f).cams = s.cams := rfl
@[simp] theorem State.setFrame_lp (s : State) (f : Frame) : (s.setFrame f).lp = s.lp := rfl
@[simp] theorem State.setFrame_field (s : State) (f : Frame) : (s.setFrame f).field = s.field := rfl
@[simp] theorem State.setFrame_link (s : State) (f : Frame) : (s.setFrame f).link = s.link := rfl
@[simp] theorem State.setFrame_aud (s : State) (f : Frame) : (s.setFrame f).aud = s.aud := rfl
@[simp] theorem State.setFrame_loft (s : State) (f : Frame) : (s.setFrame f).loft = s.loft := rfl
@[simp] theorem State.setFrame_ntm (s : State) (f : Frame) : (s.setFrame f).ntm = s.ntm := rfl
@[simp] theorem State.setFrame_gts (s : State) (f : Frame) : (s.setFrame f).gts = s.gts := rfl
@[simp] theorem State.setFrame_client (s : State) (f : Frame) : (s.setFrame f).client = s.client := rfl
@[simp] theorem State.setFrame_cores (s : State) (f : Frame) : (s.setFrame f).cores = s.cores := rfl
@[simp] theorem State.setFrame_lists (s : State) (f : Frame) : (s.setFrame f).lists = s.lists := rfl
@[simp] theorem State.setFrame_jobs (s : State) (f : Frame) : (s.setFrame f).jobs = s.jobs := rfl
@[simp] theorem State.setFrame_ptns (s : State) (f : Frame) : (s.setFrame f).ptns = s.ptns := rfl
@[simp] theorem State.setFrame_flock (s : State) (f : Frame) : (s.setFrame f).flock = s.flock := rfl
@[simp] theorem State.setFrame_adp (s : State) (f : Frame) : (s.setFrame f).adp = s.adp := rfl
@[simp] theorem State.setFrame_sdg (s : State) (f : Frame) : (s.setFrame f).sdg = s.sdg := rfl
@[simp] theorem State.setFrame_stage (s : State) (f : Frame) : (s.setFrame f).stage = s.stage := rfl
@[simp] theorem State.setFrame_sync (s : State) (f : Frame) : (s.setFrame f).sync = s.sync := rfl
@[simp] theorem State.setFrame_clk (s : State) (f : Frame) : (s.setFrame f).clk = s.clk := rfl
@[simp] theorem State.setFrame_boot (s : State) (f : Frame) : (s.setFrame f).boot = s.boot := rfl
@[simp] theorem State.setFrame_pending (s : State) (f : Frame) : (s.setFrame f).pending = s.pending := rfl

/-! ### `State.setLane` -/

@[simp] theorem State.setLane_regs (s : State) (n : Nat) (l : LaneSt) : (s.setLane n l).regs = s.regs := rfl
@[simp] theorem State.setLane_staged (s : State) (n : Nat) (l : LaneSt) : (s.setLane n l).staged = s.staged := rfl
@[simp] theorem State.setLane_pairs (s : State) (n : Nat) (l : LaneSt) : (s.setLane n l).pairs = s.pairs := rfl
@[simp] theorem State.setLane_holding (s : State) (n : Nat) (l : LaneSt) : (s.setLane n l).holding = s.holding := rfl
@[simp] theorem State.setLane_dtime (s : State) (n : Nat) (l : LaneSt) : (s.setLane n l).dtime = s.dtime := rfl
@[simp] theorem State.setLane_mem (s : State) (n : Nat) (l : LaneSt) : (s.setLane n l).mem = s.mem := rfl
@[simp] theorem State.setLane_larder (s : State) (n : Nat) (l : LaneSt) : (s.setLane n l).larder = s.larder := rfl
@[simp] theorem State.setLane_host (s : State) (n : Nat) (l : LaneSt) : (s.setLane n l).host = s.host := rfl
@[simp] theorem State.setLane_free (s : State) (n : Nat) (l : LaneSt) : (s.setLane n l).free = s.free := rfl
@[simp] theorem State.setLane_module (s : State) (n : Nat) (l : LaneSt) : (s.setLane n l).module = s.module := rfl
@[simp] theorem State.setLane_cel (s : State) (n : Nat) (l : LaneSt) : (s.setLane n l).cel = s.cel := rfl
@[simp] theorem State.setLane_pos (s : State) (n : Nat) (l : LaneSt) : (s.setLane n l).pos = s.pos := rfl
@[simp] theorem State.setLane_cams (s : State) (n : Nat) (l : LaneSt) : (s.setLane n l).cams = s.cams := rfl
@[simp] theorem State.setLane_lp (s : State) (n : Nat) (l : LaneSt) : (s.setLane n l).lp = s.lp := rfl
@[simp] theorem State.setLane_seq (s : State) (n : Nat) (l : LaneSt) : (s.setLane n l).seq = s.seq := rfl
@[simp] theorem State.setLane_field (s : State) (n : Nat) (l : LaneSt) : (s.setLane n l).field = s.field := rfl
@[simp] theorem State.setLane_link (s : State) (n : Nat) (l : LaneSt) : (s.setLane n l).link = s.link := rfl
@[simp] theorem State.setLane_aud (s : State) (n : Nat) (l : LaneSt) : (s.setLane n l).aud = s.aud := rfl
@[simp] theorem State.setLane_loft (s : State) (n : Nat) (l : LaneSt) : (s.setLane n l).loft = s.loft := rfl
@[simp] theorem State.setLane_ntm (s : State) (n : Nat) (l : LaneSt) : (s.setLane n l).ntm = s.ntm := rfl
@[simp] theorem State.setLane_gts (s : State) (n : Nat) (l : LaneSt) : (s.setLane n l).gts = s.gts := rfl
@[simp] theorem State.setLane_client (s : State) (n : Nat) (l : LaneSt) : (s.setLane n l).client = s.client := rfl
@[simp] theorem State.setLane_cores (s : State) (n : Nat) (l : LaneSt) : (s.setLane n l).cores = s.cores := rfl
@[simp] theorem State.setLane_lists (s : State) (n : Nat) (l : LaneSt) : (s.setLane n l).lists = s.lists := rfl
@[simp] theorem State.setLane_jobs (s : State) (n : Nat) (l : LaneSt) : (s.setLane n l).jobs = s.jobs := rfl
@[simp] theorem State.setLane_ptns (s : State) (n : Nat) (l : LaneSt) : (s.setLane n l).ptns = s.ptns := rfl
@[simp] theorem State.setLane_flock (s : State) (n : Nat) (l : LaneSt) : (s.setLane n l).flock = s.flock := rfl
@[simp] theorem State.setLane_adp (s : State) (n : Nat) (l : LaneSt) : (s.setLane n l).adp = s.adp := rfl
@[simp] theorem State.setLane_sdg (s : State) (n : Nat) (l : LaneSt) : (s.setLane n l).sdg = s.sdg := rfl
@[simp] theorem State.setLane_stage (s : State) (n : Nat) (l : LaneSt) : (s.setLane n l).stage = s.stage := rfl
@[simp] theorem State.setLane_sync (s : State) (n : Nat) (l : LaneSt) : (s.setLane n l).sync = s.sync := rfl
@[simp] theorem State.setLane_clk (s : State) (n : Nat) (l : LaneSt) : (s.setLane n l).clk = s.clk := rfl
@[simp] theorem State.setLane_boot (s : State) (n : Nat) (l : LaneSt) : (s.setLane n l).boot = s.boot := rfl
@[simp] theorem State.setLane_pending (s : State) (n : Nat) (l : LaneSt) : (s.setLane n l).pending = s.pending := rfl

/-! ### `State.setCam` -/

@[simp] theorem State.setCam_regs (s : State) (c : Nat) (x : CamSt) : (s.setCam c x).regs = s.regs := rfl
@[simp] theorem State.setCam_staged (s : State) (c : Nat) (x : CamSt) : (s.setCam c x).staged = s.staged := rfl
@[simp] theorem State.setCam_pairs (s : State) (c : Nat) (x : CamSt) : (s.setCam c x).pairs = s.pairs := rfl
@[simp] theorem State.setCam_holding (s : State) (c : Nat) (x : CamSt) : (s.setCam c x).holding = s.holding := rfl
@[simp] theorem State.setCam_dtime (s : State) (c : Nat) (x : CamSt) : (s.setCam c x).dtime = s.dtime := rfl
@[simp] theorem State.setCam_mem (s : State) (c : Nat) (x : CamSt) : (s.setCam c x).mem = s.mem := rfl
@[simp] theorem State.setCam_larder (s : State) (c : Nat) (x : CamSt) : (s.setCam c x).larder = s.larder := rfl
@[simp] theorem State.setCam_host (s : State) (c : Nat) (x : CamSt) : (s.setCam c x).host = s.host := rfl
@[simp] theorem State.setCam_free (s : State) (c : Nat) (x : CamSt) : (s.setCam c x).free = s.free := rfl
@[simp] theorem State.setCam_module (s : State) (c : Nat) (x : CamSt) : (s.setCam c x).module = s.module := rfl
@[simp] theorem State.setCam_cel (s : State) (c : Nat) (x : CamSt) : (s.setCam c x).cel = s.cel := rfl
@[simp] theorem State.setCam_pos (s : State) (c : Nat) (x : CamSt) : (s.setCam c x).pos = s.pos := rfl
@[simp] theorem State.setCam_lanes (s : State) (c : Nat) (x : CamSt) : (s.setCam c x).lanes = s.lanes := rfl
@[simp] theorem State.setCam_lp (s : State) (c : Nat) (x : CamSt) : (s.setCam c x).lp = s.lp := rfl
@[simp] theorem State.setCam_seq (s : State) (c : Nat) (x : CamSt) : (s.setCam c x).seq = s.seq := rfl
@[simp] theorem State.setCam_field (s : State) (c : Nat) (x : CamSt) : (s.setCam c x).field = s.field := rfl
@[simp] theorem State.setCam_link (s : State) (c : Nat) (x : CamSt) : (s.setCam c x).link = s.link := rfl
@[simp] theorem State.setCam_aud (s : State) (c : Nat) (x : CamSt) : (s.setCam c x).aud = s.aud := rfl
@[simp] theorem State.setCam_loft (s : State) (c : Nat) (x : CamSt) : (s.setCam c x).loft = s.loft := rfl
@[simp] theorem State.setCam_ntm (s : State) (c : Nat) (x : CamSt) : (s.setCam c x).ntm = s.ntm := rfl
@[simp] theorem State.setCam_gts (s : State) (c : Nat) (x : CamSt) : (s.setCam c x).gts = s.gts := rfl
@[simp] theorem State.setCam_client (s : State) (c : Nat) (x : CamSt) : (s.setCam c x).client = s.client := rfl
@[simp] theorem State.setCam_cores (s : State) (c : Nat) (x : CamSt) : (s.setCam c x).cores = s.cores := rfl
@[simp] theorem State.setCam_lists (s : State) (c : Nat) (x : CamSt) : (s.setCam c x).lists = s.lists := rfl
@[simp] theorem State.setCam_jobs (s : State) (c : Nat) (x : CamSt) : (s.setCam c x).jobs = s.jobs := rfl
@[simp] theorem State.setCam_ptns (s : State) (c : Nat) (x : CamSt) : (s.setCam c x).ptns = s.ptns := rfl
@[simp] theorem State.setCam_flock (s : State) (c : Nat) (x : CamSt) : (s.setCam c x).flock = s.flock := rfl
@[simp] theorem State.setCam_adp (s : State) (c : Nat) (x : CamSt) : (s.setCam c x).adp = s.adp := rfl
@[simp] theorem State.setCam_sdg (s : State) (c : Nat) (x : CamSt) : (s.setCam c x).sdg = s.sdg := rfl
@[simp] theorem State.setCam_stage (s : State) (c : Nat) (x : CamSt) : (s.setCam c x).stage = s.stage := rfl
@[simp] theorem State.setCam_sync (s : State) (c : Nat) (x : CamSt) : (s.setCam c x).sync = s.sync := rfl
@[simp] theorem State.setCam_clk (s : State) (c : Nat) (x : CamSt) : (s.setCam c x).clk = s.clk := rfl
@[simp] theorem State.setCam_boot (s : State) (c : Nat) (x : CamSt) : (s.setCam c x).boot = s.boot := rfl
@[simp] theorem State.setCam_pending (s : State) (c : Nat) (x : CamSt) : (s.setCam c x).pending = s.pending := rfl

/-! ### `State.setCore` -/

@[simp] theorem State.setCore_regs (s : State) (n : Nat) (c : CoreSt) : (s.setCore n c).regs = s.regs := rfl
@[simp] theorem State.setCore_staged (s : State) (n : Nat) (c : CoreSt) : (s.setCore n c).staged = s.staged := rfl
@[simp] theorem State.setCore_pairs (s : State) (n : Nat) (c : CoreSt) : (s.setCore n c).pairs = s.pairs := rfl
@[simp] theorem State.setCore_holding (s : State) (n : Nat) (c : CoreSt) : (s.setCore n c).holding = s.holding := rfl
@[simp] theorem State.setCore_dtime (s : State) (n : Nat) (c : CoreSt) : (s.setCore n c).dtime = s.dtime := rfl
@[simp] theorem State.setCore_mem (s : State) (n : Nat) (c : CoreSt) : (s.setCore n c).mem = s.mem := rfl
@[simp] theorem State.setCore_larder (s : State) (n : Nat) (c : CoreSt) : (s.setCore n c).larder = s.larder := rfl
@[simp] theorem State.setCore_host (s : State) (n : Nat) (c : CoreSt) : (s.setCore n c).host = s.host := rfl
@[simp] theorem State.setCore_free (s : State) (n : Nat) (c : CoreSt) : (s.setCore n c).free = s.free := rfl
@[simp] theorem State.setCore_module (s : State) (n : Nat) (c : CoreSt) : (s.setCore n c).module = s.module := rfl
@[simp] theorem State.setCore_cel (s : State) (n : Nat) (c : CoreSt) : (s.setCore n c).cel = s.cel := rfl
@[simp] theorem State.setCore_pos (s : State) (n : Nat) (c : CoreSt) : (s.setCore n c).pos = s.pos := rfl
@[simp] theorem State.setCore_lanes (s : State) (n : Nat) (c : CoreSt) : (s.setCore n c).lanes = s.lanes := rfl
@[simp] theorem State.setCore_cams (s : State) (n : Nat) (c : CoreSt) : (s.setCore n c).cams = s.cams := rfl
@[simp] theorem State.setCore_lp (s : State) (n : Nat) (c : CoreSt) : (s.setCore n c).lp = s.lp := rfl
@[simp] theorem State.setCore_seq (s : State) (n : Nat) (c : CoreSt) : (s.setCore n c).seq = s.seq := rfl
@[simp] theorem State.setCore_field (s : State) (n : Nat) (c : CoreSt) : (s.setCore n c).field = s.field := rfl
@[simp] theorem State.setCore_link (s : State) (n : Nat) (c : CoreSt) : (s.setCore n c).link = s.link := rfl
@[simp] theorem State.setCore_aud (s : State) (n : Nat) (c : CoreSt) : (s.setCore n c).aud = s.aud := rfl
@[simp] theorem State.setCore_loft (s : State) (n : Nat) (c : CoreSt) : (s.setCore n c).loft = s.loft := rfl
@[simp] theorem State.setCore_ntm (s : State) (n : Nat) (c : CoreSt) : (s.setCore n c).ntm = s.ntm := rfl
@[simp] theorem State.setCore_gts (s : State) (n : Nat) (c : CoreSt) : (s.setCore n c).gts = s.gts := rfl
@[simp] theorem State.setCore_client (s : State) (n : Nat) (c : CoreSt) : (s.setCore n c).client = s.client := rfl
@[simp] theorem State.setCore_lists (s : State) (n : Nat) (c : CoreSt) : (s.setCore n c).lists = s.lists := rfl
@[simp] theorem State.setCore_jobs (s : State) (n : Nat) (c : CoreSt) : (s.setCore n c).jobs = s.jobs := rfl
@[simp] theorem State.setCore_ptns (s : State) (n : Nat) (c : CoreSt) : (s.setCore n c).ptns = s.ptns := rfl
@[simp] theorem State.setCore_flock (s : State) (n : Nat) (c : CoreSt) : (s.setCore n c).flock = s.flock := rfl
@[simp] theorem State.setCore_adp (s : State) (n : Nat) (c : CoreSt) : (s.setCore n c).adp = s.adp := rfl
@[simp] theorem State.setCore_sdg (s : State) (n : Nat) (c : CoreSt) : (s.setCore n c).sdg = s.sdg := rfl
@[simp] theorem State.setCore_stage (s : State) (n : Nat) (c : CoreSt) : (s.setCore n c).stage = s.stage := rfl
@[simp] theorem State.setCore_sync (s : State) (n : Nat) (c : CoreSt) : (s.setCore n c).sync = s.sync := rfl
@[simp] theorem State.setCore_clk (s : State) (n : Nat) (c : CoreSt) : (s.setCore n c).clk = s.clk := rfl
@[simp] theorem State.setCore_boot (s : State) (n : Nat) (c : CoreSt) : (s.setCore n c).boot = s.boot := rfl
@[simp] theorem State.setCore_pending (s : State) (n : Nat) (c : CoreSt) : (s.setCore n c).pending = s.pending := rfl

/-! ### `State.setJob` -/

@[simp] theorem State.setJob_regs (s : State) (j : Nat) (x : JobSt) : (s.setJob j x).regs = s.regs := rfl
@[simp] theorem State.setJob_staged (s : State) (j : Nat) (x : JobSt) : (s.setJob j x).staged = s.staged := rfl
@[simp] theorem State.setJob_pairs (s : State) (j : Nat) (x : JobSt) : (s.setJob j x).pairs = s.pairs := rfl
@[simp] theorem State.setJob_holding (s : State) (j : Nat) (x : JobSt) : (s.setJob j x).holding = s.holding := rfl
@[simp] theorem State.setJob_dtime (s : State) (j : Nat) (x : JobSt) : (s.setJob j x).dtime = s.dtime := rfl
@[simp] theorem State.setJob_mem (s : State) (j : Nat) (x : JobSt) : (s.setJob j x).mem = s.mem := rfl
@[simp] theorem State.setJob_larder (s : State) (j : Nat) (x : JobSt) : (s.setJob j x).larder = s.larder := rfl
@[simp] theorem State.setJob_host (s : State) (j : Nat) (x : JobSt) : (s.setJob j x).host = s.host := rfl
@[simp] theorem State.setJob_free (s : State) (j : Nat) (x : JobSt) : (s.setJob j x).free = s.free := rfl
@[simp] theorem State.setJob_module (s : State) (j : Nat) (x : JobSt) : (s.setJob j x).module = s.module := rfl
@[simp] theorem State.setJob_cel (s : State) (j : Nat) (x : JobSt) : (s.setJob j x).cel = s.cel := rfl
@[simp] theorem State.setJob_pos (s : State) (j : Nat) (x : JobSt) : (s.setJob j x).pos = s.pos := rfl
@[simp] theorem State.setJob_lanes (s : State) (j : Nat) (x : JobSt) : (s.setJob j x).lanes = s.lanes := rfl
@[simp] theorem State.setJob_cams (s : State) (j : Nat) (x : JobSt) : (s.setJob j x).cams = s.cams := rfl
@[simp] theorem State.setJob_lp (s : State) (j : Nat) (x : JobSt) : (s.setJob j x).lp = s.lp := rfl
@[simp] theorem State.setJob_seq (s : State) (j : Nat) (x : JobSt) : (s.setJob j x).seq = s.seq := rfl
@[simp] theorem State.setJob_field (s : State) (j : Nat) (x : JobSt) : (s.setJob j x).field = s.field := rfl
@[simp] theorem State.setJob_link (s : State) (j : Nat) (x : JobSt) : (s.setJob j x).link = s.link := rfl
@[simp] theorem State.setJob_aud (s : State) (j : Nat) (x : JobSt) : (s.setJob j x).aud = s.aud := rfl
@[simp] theorem State.setJob_loft (s : State) (j : Nat) (x : JobSt) : (s.setJob j x).loft = s.loft := rfl
@[simp] theorem State.setJob_ntm (s : State) (j : Nat) (x : JobSt) : (s.setJob j x).ntm = s.ntm := rfl
@[simp] theorem State.setJob_gts (s : State) (j : Nat) (x : JobSt) : (s.setJob j x).gts = s.gts := rfl
@[simp] theorem State.setJob_client (s : State) (j : Nat) (x : JobSt) : (s.setJob j x).client = s.client := rfl
@[simp] theorem State.setJob_cores (s : State) (j : Nat) (x : JobSt) : (s.setJob j x).cores = s.cores := rfl
@[simp] theorem State.setJob_lists (s : State) (j : Nat) (x : JobSt) : (s.setJob j x).lists = s.lists := rfl
@[simp] theorem State.setJob_ptns (s : State) (j : Nat) (x : JobSt) : (s.setJob j x).ptns = s.ptns := rfl
@[simp] theorem State.setJob_flock (s : State) (j : Nat) (x : JobSt) : (s.setJob j x).flock = s.flock := rfl
@[simp] theorem State.setJob_adp (s : State) (j : Nat) (x : JobSt) : (s.setJob j x).adp = s.adp := rfl
@[simp] theorem State.setJob_sdg (s : State) (j : Nat) (x : JobSt) : (s.setJob j x).sdg = s.sdg := rfl
@[simp] theorem State.setJob_stage (s : State) (j : Nat) (x : JobSt) : (s.setJob j x).stage = s.stage := rfl
@[simp] theorem State.setJob_sync (s : State) (j : Nat) (x : JobSt) : (s.setJob j x).sync = s.sync := rfl
@[simp] theorem State.setJob_clk (s : State) (j : Nat) (x : JobSt) : (s.setJob j x).clk = s.clk := rfl
@[simp] theorem State.setJob_boot (s : State) (j : Nat) (x : JobSt) : (s.setJob j x).boot = s.boot := rfl
@[simp] theorem State.setJob_pending (s : State) (j : Nat) (x : JobSt) : (s.setJob j x).pending = s.pending := rfl

/-! ### `State.setSo` -/

@[simp] theorem State.setSo_regs (s : State) (o : Nat) (x : SyncObj) : (s.setSo o x).regs = s.regs := rfl
@[simp] theorem State.setSo_staged (s : State) (o : Nat) (x : SyncObj) : (s.setSo o x).staged = s.staged := rfl
@[simp] theorem State.setSo_pairs (s : State) (o : Nat) (x : SyncObj) : (s.setSo o x).pairs = s.pairs := rfl
@[simp] theorem State.setSo_holding (s : State) (o : Nat) (x : SyncObj) : (s.setSo o x).holding = s.holding := rfl
@[simp] theorem State.setSo_dtime (s : State) (o : Nat) (x : SyncObj) : (s.setSo o x).dtime = s.dtime := rfl
@[simp] theorem State.setSo_mem (s : State) (o : Nat) (x : SyncObj) : (s.setSo o x).mem = s.mem := rfl
@[simp] theorem State.setSo_larder (s : State) (o : Nat) (x : SyncObj) : (s.setSo o x).larder = s.larder := rfl
@[simp] theorem State.setSo_host (s : State) (o : Nat) (x : SyncObj) : (s.setSo o x).host = s.host := rfl
@[simp] theorem State.setSo_free (s : State) (o : Nat) (x : SyncObj) : (s.setSo o x).free = s.free := rfl
@[simp] theorem State.setSo_module (s : State) (o : Nat) (x : SyncObj) : (s.setSo o x).module = s.module := rfl
@[simp] theorem State.setSo_cel (s : State) (o : Nat) (x : SyncObj) : (s.setSo o x).cel = s.cel := rfl
@[simp] theorem State.setSo_pos (s : State) (o : Nat) (x : SyncObj) : (s.setSo o x).pos = s.pos := rfl
@[simp] theorem State.setSo_lanes (s : State) (o : Nat) (x : SyncObj) : (s.setSo o x).lanes = s.lanes := rfl
@[simp] theorem State.setSo_cams (s : State) (o : Nat) (x : SyncObj) : (s.setSo o x).cams = s.cams := rfl
@[simp] theorem State.setSo_lp (s : State) (o : Nat) (x : SyncObj) : (s.setSo o x).lp = s.lp := rfl
@[simp] theorem State.setSo_seq (s : State) (o : Nat) (x : SyncObj) : (s.setSo o x).seq = s.seq := rfl
@[simp] theorem State.setSo_field (s : State) (o : Nat) (x : SyncObj) : (s.setSo o x).field = s.field := rfl
@[simp] theorem State.setSo_link (s : State) (o : Nat) (x : SyncObj) : (s.setSo o x).link = s.link := rfl
@[simp] theorem State.setSo_aud (s : State) (o : Nat) (x : SyncObj) : (s.setSo o x).aud = s.aud := rfl
@[simp] theorem State.setSo_loft (s : State) (o : Nat) (x : SyncObj) : (s.setSo o x).loft = s.loft := rfl
@[simp] theorem State.setSo_ntm (s : State) (o : Nat) (x : SyncObj) : (s.setSo o x).ntm = s.ntm := rfl
@[simp] theorem State.setSo_gts (s : State) (o : Nat) (x : SyncObj) : (s.setSo o x).gts = s.gts := rfl
@[simp] theorem State.setSo_client (s : State) (o : Nat) (x : SyncObj) : (s.setSo o x).client = s.client := rfl
@[simp] theorem State.setSo_cores (s : State) (o : Nat) (x : SyncObj) : (s.setSo o x).cores = s.cores := rfl
@[simp] theorem State.setSo_lists (s : State) (o : Nat) (x : SyncObj) : (s.setSo o x).lists = s.lists := rfl
@[simp] theorem State.setSo_jobs (s : State) (o : Nat) (x : SyncObj) : (s.setSo o x).jobs = s.jobs := rfl
@[simp] theorem State.setSo_ptns (s : State) (o : Nat) (x : SyncObj) : (s.setSo o x).ptns = s.ptns := rfl
@[simp] theorem State.setSo_flock (s : State) (o : Nat) (x : SyncObj) : (s.setSo o x).flock = s.flock := rfl
@[simp] theorem State.setSo_adp (s : State) (o : Nat) (x : SyncObj) : (s.setSo o x).adp = s.adp := rfl
@[simp] theorem State.setSo_sdg (s : State) (o : Nat) (x : SyncObj) : (s.setSo o x).sdg = s.sdg := rfl
@[simp] theorem State.setSo_stage (s : State) (o : Nat) (x : SyncObj) : (s.setSo o x).stage = s.stage := rfl
@[simp] theorem State.setSo_clk (s : State) (o : Nat) (x : SyncObj) : (s.setSo o x).clk = s.clk := rfl
@[simp] theorem State.setSo_boot (s : State) (o : Nat) (x : SyncObj) : (s.setSo o x).boot = s.boot := rfl
@[simp] theorem State.setSo_pending (s : State) (o : Nat) (x : SyncObj) : (s.setSo o x).pending = s.pending := rfl

end Sys2Proof.Machine
end

