-- ==== Sys2Proof/WellFormed.lean ====
section
/-! DEFINITION. WellFormed.lean: the commands that the formats of spec/ allow: lengths that a frame, a packet or an
access can carry. A meaning answers for an ill-formed command too; the check says which ones a sender can send. -/

namespace Sys2Proof

/-- A line of a camera starts or goes on with at least one sample (R109). -/
def StreamItem.wf : StreamItem → Bool
  | .header _ _ _ => true
  | .line _ samples _ => !samples.isEmpty
  | .cont samples _ => !samples.isEmpty

/-- A command is one that its sender can form: an access of 1 to 4 bytes (R4), registers at multiples of 4 (R3), a frame
of at most 2,048 samples (R300), a SUBMIT payload of at least one descriptor (R370), packets of at most 256 bytes
(R429), and the eleven sensors of R458. -/
def Instr.wf : Instr → Bool
  | .registerWrite _ len _ => decide (1 ≤ len.val)
  | .w1cClear off _ => off.toNat % 4 == 0
  | .loReadLatch _ len => decide (1 ≤ len.val)
  | .counterClear off => off.toNat % 4 == 0
  | .accessErrClear => true
  | .pairMemberWrite off _ => off.toNat % 4 == 0
  | .pairLatch off _ => off.toNat % 4 == 0
  | .wposExtrapolate => true
  | .encoderRead _ _ _ _ _ _ _ => true
  | .posLost => true
  | .posTupleSend => true
  | .takeover => true
  | .posSnapTake => true
  | .nop => true
  | .partClose => true
  | .partOpen => true
  | .lineGate => true
  | .stripCut => true
  | .roiApply => true
  | .decision => true
  | .ejectPass => true
  | .pulse => true
  | .selftestWin => true
  | .signal => true
  | .loftMark => true
  | .edgeRecompute => true
  | .edgeReportTimeout => true
  | .psqTblRead _ => true
  | .partWinRead _ => true
  | .edgeNew _ _ _ _ _ => true
  | .edgeCorr _ _ _ _ _ => true
  | .edgeHold _ _ _ => true
  | .edgeCancel _ _ _ => true
  | .heartbeat _ _ _ => true
  | .outCfg _ _ _ _ _ _ => true
  | .outSet _ _ => true
  | .lsSet _ _ => true
  | .resume _ => true
  | .inCfg _ _ _ _ => true
  | .downlinkBadFrame => true
  | .edgeDone _ _ _ _ _ _ => true
  | .reject _ _ _ _ _ => true
  | .status _ _ _ _ _ _ _ _ _ _ => true
  | .inputEdge _ _ _ _ => true
  | .uplinkCrcError => true
  | .syncEdgeSend => true
  | .edgeFire => true
  | .heartbeatLoss => true
  | .uplinkLost => true
  | .overload _ => true
  | .overtemp _ _ => true
  | .openOff _ _ => true
  | .openOn _ => true
  | .supplyLow => true
  | .lsFault => true
  | .inputConfirm _ _ _ => true
  | .lsCauseClear _ => true
  | .fldStop => true
  | .fldResume => true
  | .fldOutSetWrite _ => true
  | .acJudge => true
  | .supFault _ => true
  | .featureFrame _ _ _ words driven => decide (words.length ≤ 2048) && words.length == driven.length && words.all (fun f => f.length == 8)
  | .laneSignalDetect _ => true
  | .laneSignalLoss _ => true
  | .cdrLock _ => true
  | .cdrLockLoss _ => true
  | .acquireGroup _ _ _ => true
  | .alignedGroup _ _ _ => true
  | .eyeScanStart _ _ _ _ => true
  | .eyeScanAbort _ => true
  | .eyeScanDone _ _ => true
  | .rediscover _ => true
  | .discoverLanesAligned _ => true
  | .discoverAlignTimeout _ => true
  | .controlReply _ _ _ _ => true
  | .controlTimeout _ => true
  | .streamPacket _ _ _ items => items.all StreamItem.wf
  | .slotDeadline _ => true
  | .rowBuild _ => true
  | .inputDigestFinal _ => true
  | .mcmd _ => true
  | .vmov _ => true
  | .vadd _ => true
  | .vsub _ => true
  | .vmul _ => true
  | .vmax _ => true
  | .vmin _ => true
  | .vclamp _ => true
  | .vcmp _ => true
  | .vsel _ => true
  | .vmacw _ => true
  | .vreq _ => true
  | .vcvt _ => true
  | .vlut _ => true
  | .vpoolh _ => true
  | .vrsum _ => true
  | .vrmax _ => true
  | .vrmin _ => true
  | .vcnt _ => true
  | .vdlv _ => true
  | .vilv _ => true
  | .xferToLarder _ => true
  | .xferFromLarder _ => true
  | .commandComplete _ _ => true
  | .maxdurExpire _ _ => true
  | .waitRecord _ => true
  | .signalRecord _ => true
  | .launch _ => true
  | .threadStart _ _ => true
  | .idleFor _ => true
  | .load _ => true
  | .result _ => true
  | .endRecord _ => true
  | .nopRecord _ => true
  | .add _ _ => true
  | .sub _ _ => true
  | .and _ _ => true
  | .or _ _ => true
  | .xor _ _ => true
  | .shl _ _ => true
  | .shr _ _ => true
  | .sar _ _ => true
  | .slt _ _ => true
  | .sltu _ _ => true
  | .min _ _ => true
  | .max _ _ => true
  | .clz _ _ => true
  | .popc _ _ => true
  | .mul _ _ => true
  | .mulhu _ _ => true
  | .divu _ _ => true
  | .fadd _ _ => true
  | .fsub _ _ => true
  | .fmul _ _ => true
  | .fmin _ _ => true
  | .fmax _ _ => true
  | .flt _ _ => true
  | .fcvti _ _ => true
  | .fcvtf _ _ => true
  | .addi _ _ => true
  | .andi _ _ => true
  | .ori _ _ => true
  | .xori _ _ => true
  | .shi _ _ => true
  | .lui _ _ => true
  | .slti _ _ => true
  | .ld8 _ _ => true
  | .ld16 _ _ => true
  | .ld32 _ _ => true
  | .ld64 _ _ => true
  | .st8 _ _ => true
  | .st16 _ _ => true
  | .st32 _ _ => true
  | .st64 _ _ => true
  | .aadd _ _ => true
  | .aaddf _ _ => true
  | .amin _ _ => true
  | .amax _ _ => true
  | .axchg _ _ => true
  | .acas _ _ => true
  | .beq _ _ => true
  | .bne _ _ => true
  | .blt _ _ => true
  | .bge _ _ => true
  | .bltu _ _ => true
  | .bgeu _ _ => true
  | .jal _ _ => true
  | .jr _ _ => true
  | .hkey _ _ => true
  | .hlook _ _ => true
  | .hseen _ _ => true
  | .hins _ _ => true
  | .rget _ _ => true
  | .swait _ _ => true
  | .ssig _ _ => true
  | .fence _ _ => true
  | .rdt _ _ => true
  | .exit _ _ => true
  | .flockMemComplete _ _ _ => true
  | .remoteTimeout _ _ _ => true
  | .faultRelease _ => true
  | .pageRetire => true
  | .celRetRead _ => true
  | .sliceEnd _ => true
  | .sliceYield _ => true
  | .partitionSwitch _ => true
  | .sliceBegin _ => true
  | .holdExpire => true
  | .waitTimeout _ => true
  | .soSelect _ => true
  | .soRestage _ => true
  | .ringEnable _ _ _ => true
  | .ringDisable _ _ _ => true
  | .doorbell _ _ => true
  | .descriptorStart _ => true
  | .nopOpcode _ _ => true
  | .regRead _ _ => true
  | .regWrite _ _ => true
  | .memRead _ _ => true
  | .memWrite _ _ => true
  | .imageLoadProgram _ _ => true
  | .imageLoadWeights _ _ => true
  | .imageLoadReference _ _ _ => true
  | .seqWrite _ _ => true
  | .lpipeTable _ _ => true
  | .setLoadRaw _ _ => true
  | .setLoadEntries _ _ => true
  | .setLoadClear _ _ => true
  | .camRegRead _ _ => true
  | .camRegWrite _ _ => true
  | .jobStart _ _ => true
  | .jobStop _ _ => true
  | .commit _ _ => true
  | .commitCheckDone => true
  | .commitApply => true
  | .discard _ _ => true
  | .soWait _ _ => true
  | .soSignal _ _ => true
  | .netSet _ _ => true
  | .allowLoad _ _ => true
  | .attest _ _ => true
  | .fwPush _ _ => true
  | .irqHoldoffEnd _ => true
  | .functionLevelReset => true
  | .hostReadTimeout _ _ => true
  | .sessionOpen _ _ => true
  | .sessionClose _ => true
  | .sessionTimeout _ => true
  | .keepaliveSend _ => true
  | .submit _ _ _ payload => decide (64 ≤ payload.length)
  | .ack _ _ _ => true
  | .keepalive _ => true
  | .sheepdogCheckDone => true
  | .lockstepMismatch => true
  | .sdgProofArm _ _ => true
  | .alarmClear => true
  | .larderMarch _ _ _ => true
  | .arrayKav _ _ => true
  | .pantryTag _ _ _ => true
  | .lpKal _ _ => true
  | .coverageIntervalEnd => true
  | .inputRunStart => true
  | .sampleDecodeStart => true
  | .sampleDecodeDone _ _ => true
  | .decodeBudgetExpire _ _ => true
  | .publicationServe => true
  | .helloSend _ => true
  | .hello _ _ _ _ _ units _ => decide (units.length ≤ 16)
  | .linkstate _ links => decide (links.length ≤ 8) && (links.map (fun l => l.1.val)).Nodup
  | .promote _ _ changes => decide (4 + 6 * changes.length ≤ 256)
  | .posTuple _ t => t.dtime.toNat % 4 == 0
  | .tsyncSend _ => true
  | .tsyncReq _ _ _ _ => true
  | .tsyncResp _ _ _ _ => true
  | .tsyncTimeout => true
  | .setReq _ _ _ _ _ => true
  | .setResp _ _ _ => true
  | .repl _ _ _ _ _ _ _ => true
  | .replAck _ => true
  | .rgetReq _ _ => true
  | .rgetResp _ _ => true
  | .halo _ _ _ off total bytes => decide (1 ≤ bytes.length) && decide (bytes.length ≤ 256) && decide (off.toNat + bytes.length ≤ total.toNat)
  | .ackSend _ => true
  | .ackSet _ _ => true
  | .nak _ _ => true
  | .cred _ _ _ _ => true
  | .packetError received => decide (received.bytes.length ≤ 276)
  | .memberLost _ _ => true
  | .clockSourceLoss => true
  | .clockSwitch => true
  | .loopRelock => true
  | .clkSwitchRequest _ _ => true
  | .clockLostTimeout => true
  | .dtSuspectClear => true
  | .xtalReady _ => true
  | .governorTick _ _ _ => true
  | .vrAlert words _ => decide (words.length ≤ 16)
  | .vrAlertDeassert => true
  | .thermalSample temps => temps.length == 11
  | .thermalTrip _ _ => true
  | .quadSleep _ => true
  | .quadWake _ => true
  | .quadDeepEnter _ => true
  | .ptpSync _ _ _ _ _ _ _ _ => true
  | .ptpFollowUp _ _ _ _ _ _ => true
  | .ptpDelayResp _ _ _ _ _ _ => true
  | .ptpAnnounce _ _ _ _ _ _ _ _ _ _ _ _ => true
  | .ptpTxComplete _ _ _ => true
  | .announceTimeout => true
  | .txqStale => true
  | .ntimeExtend => true
  | .ntmSnapTake => true
  | .ntmSnapExtend => true
  | .tpoFire _ => true
  | .tpoPulseEnd _ => true
  | .loftUpdate => true
  | .loftCurWrite _ => true
  | .loftClearOne _ => true
  | .loftClearAll => true
  | .loftClearDrop => true
  | .powerOn => true
  | .supplyDrop => true
  | .moduleReset _ _ => true
  | .bootPushGo _ => true
  | .pushComplete _ => true
  | .bootCtlReset _ _ => true
  | .bootCertSelect _ _ => true
  | .fuseBlow => true
  | .extest _ => true
  | .samplePreload _ => true
  | .idcode => true
  | .clamp => true
  | .highz => true
  | .bypass => true
  | .fieldSupplyReturn => true
  | .holdUpEnd => true
  | .crystalAmplitudeLoss _ => true
  | .recoveredClockReady _ _ => true
  | .larderFillDone _ => true

end Sys2Proof
end

