-- ==== Sys2Proof/Tests/Slice0.lean ====
section
/-! SUPPORT. Tests/Slice0.lean: the smoke test of WellFormed.lean, one-step tests with results worked out by hand from the
rules of spec/, and for each statement of Certificates/Slice0 concrete states that meet its hypotheses (witness_...). -/

open Sys2Proof Sys2Proof.Machine

namespace Sys2Proof.Tests

-- The evaluations below are large: one at a time keeps the memory and the threads of a compilation small.
set_option Elab.async false

/-! ### Helpers -/

/-- A state with fields set. -/
def fill (s : State) (xs : List (Fld × Nat)) : State := xs.foldl (fun s x => s.put x.1 x.2) s

/-- A READY module. -/
def served : State := fill State.reset [(R.GLB_STATUS.READY, 1)]

/-- A READY module with fields set. -/
def mk (xs : List (Fld × Nat)) : State := fill served xs

/-- The state after a command. -/
def after (i : Instr) (s : State) : State :=
  match exec i s with
  | .next t => t
  | _ => s

/-- Module memory with bytes stored at an address, past the Pantry. -/
def poke (s : State) (a : Nat) (bs : List Byte) : State := (s.store .issuer a bs).2

/-- `canonical` as a truth value. -/
def tidy (s : State) : Bool :=
  sparseWf regDefault s.regs && Memory.wf s.mem && Memory.wf s.larder && Memory.wf s.host

theorem canonical_of_tidy {s : State} (h : tidy s = true) : s.canonical := by
  simp only [tidy, Bool.and_eq_true] at h
  exact ⟨h.1.1.1, h.1.1.2, h.1.2, h.2⟩

/-- `calm` as a truth value. -/
def still (s : State) : Bool :=
  s.sync.woken.isEmpty && s.sync.objs.all (fun e => !s.grantable e.1)
    && (List.range 8).all (fun p => !s.flag (R.STG_PTN_STATUS.DEFERRED p))
    && ((!s.inRun && !s.adp.reachedLow) || s.get R.ADP_IN_LOW.LOW_WATER == 0)

theorem calm_of_still {s : State} (h : still s = true) : s.calm := by
  simp only [still, Bool.and_eq_true, List.all_eq_true, List.mem_range, Bool.not_eq_true', List.isEmpty_iff, Bool.or_eq_true,
    beq_iff_eq] at h
  exact ⟨h.1.1.1, h.1.1.2, h.1.2, h.2⟩

/-- `stillTick` as a truth value, without hold entries. -/
def restful (s : State) : Bool :=
  s.sync.arriving.isEmpty && s.sync.holds.isEmpty && (List.range 16).all (fun n => !(s.core n).setupDue)
    && !s.gts.promoteDue && s.module.lost == 0

theorem stillTick_of_restful {s : State} (h : restful s = true) : s.stillTick := by
  simp only [restful, Bool.and_eq_true, List.all_eq_true, List.mem_range, Bool.not_eq_true', List.isEmpty_iff, beq_iff_eq] at h
  exact ⟨h.1.1.1.1, by simp [h.1.1.1.2], h.1.1.2, h.1.2, h.2⟩

/-! ### WellFormed -/

theorem test_wf_refuses :
    [Instr.registerWrite 0 0 0, .w1cClear 1 0, .loReadLatch 0 0, .counterClear 2, .pairMemberWrite 3 0, .pairLatch 1 0,
      .featureFrame 0 0 0 (List.replicate 2049 (List.replicate 8 0)) (List.replicate 2049 0), .featureFrame 0 0 0 [[0]] [0],
      .featureFrame 0 0 0 [] [0], .packetError ⟨0, List.replicate 277 0⟩, .streamPacket 0 0 true [.line 0 [] false],
      .streamPacket 0 0 true [.cont [] false], .submit 0 0 0 (List.replicate 63 0),
      .hello 0 0 0 0 0 (List.replicate 17 (0, 0)) none, .linkstate ⟨0, 0, 0, 0, 0, 0, 0⟩ (List.replicate 9 (0, 0, 0)),
      .linkstate ⟨0, 0, 0, 0, 0, 0, 0⟩ [(1, 0, 0), (1, 2, 3)], .promote ⟨0, 0, 0, 0, 0, 0, 0⟩ 0 (List.replicate 43 (0, 0, 0)),
      .posTuple ⟨0, 0, 0, 0, 0, 0, 0⟩ ⟨0, 2, 0, 0, 0, false, false, false, false⟩,
      .halo ⟨0, 0, 0, 0, 0, 0, 0⟩ 0 0 0 10 [], .halo ⟨0, 0, 0, 0, 0, 0, 0⟩ 0 0 0 10 (List.replicate 257 0),
      .halo ⟨0, 0, 0, 0, 0, 0, 0⟩ 0 0 8 10 [0, 0, 0], .vrAlert (List.replicate 17 0) false,
      .thermalSample (List.replicate 10 0)].map Instr.wf = List.replicate 23 false := by decide +kernel

theorem test_wf_admits :
    [Instr.registerWrite 0 4 0, .w1cClear 4 0, .linkstate ⟨0, 0, 0, 0, 0, 0, 0⟩ [(1, 0, 0), (2, 2, 3)],
      .promote ⟨0, 0, 0, 0, 0, 0, 0⟩ 0 (List.replicate 42 (0, 0, 0)), .submit 0 0 0 (List.replicate 64 0),
      .halo ⟨0, 0, 0, 0, 0, 0, 0⟩ 0 0 7 10 [0, 0, 0], .thermalSample (List.replicate 11 0)].map Instr.wf
      = List.replicate 7 true := by decide +kernel

/-- No word spells a command: the table gives no row any bits. -/
theorem test_table_has_no_words : decodeTableWord 32 0x12345678 = none := rfl

/-! ### Register access -/

theorem witness_StepRunsFrontCommand :
    ({ State.reset with pending := [.ntimeExtend, .nop] } : State).pending = .ntimeExtend :: [.nop] ∧
    step { State.reset with pending := [.ntimeExtend, .nop] } = exec .ntimeExtend { State.reset with pending := [.nop] } ∧
    step State.reset = .next State.reset :=
  ⟨rfl, rfl, rfl⟩

theorem witness_StepKeepsInvariant : State.reset.Inv ∧ step State.reset = .next State.reset :=
  ⟨⟨canonical_of_tidy (by decide +kernel), rfl⟩, rfl⟩

theorem witness_CommandsTouchTheirPartsOnly : exec .ntimeExtend State.reset = .next (after .ntimeExtend State.reset) := rfl

/-- R4, R5: a narrow write, an unaligned one, one to an undefined offset of GLB, and one to a block not yet in use. -/
theorem witness_DiscardedWritesAreCounted :
    tidy served = true ∧ served.answers = true ∧ served.regAt 0x30 = none ∧ State.reset.answers = true ∧
    State.reset.regAt 0x10000 = none ∧ State.reset.flag R.GLB_STATUS.READY = false ∧ writtenRow .fldStop = some R.FLD_CTL ∧
    (after (.registerWrite 0 2 0) served).get R.GLB_ACCESS_ERR.COUNT = 1 ∧
    (after (.registerWrite 3 4 0) served).get R.GLB_ACCESS_ADDR.OFFSET = 3 ∧
    (after (.registerWrite 0x30 4 1) served).get R.GLB_ACCESS_ADDR.OFFSET = 0x30 ∧
    (after .fldStop State.reset).get R.GLB_ACCESS_ADDR.OFFSET = 0x220000 ∧
    (after (.registerWrite 0x30 4 1) (mk [(R.GLB_ACCESS_ERR.COUNT, 65535)])).get R.GLB_ACCESS_ERR.COUNT = 65535 := by decide +kernel

/-- R375: PSQ_VMAX, a register of class S alone, with the stage free and frozen. -/
theorem witness_ClassSWritesAreStaged :
    let off : BitVec 22 := BitVec.ofNat 22 R.PSQ_VMAX
    let frozen := mk [(R.STG_STATUS.FROZEN, 1)]
    tidy served = true ∧ tidy frozen = true ∧ off.toNat % 4 = 0 ∧ (served.regAt off.toNat).isSome = true ∧
    plainOffset off.toNat = true ∧
    (served.regAt off.toNat).map (fun r => (r.maskOf .staged, r.maskOf .immediate, r.maskOf .oneClears, r.maskOf .paired))
      = some (0xFFFFFFFF, 0, 0, 0) ∧
    frozen.flag R.STG_STATUS.FROZEN = true ∧
    (after (.registerWrite off 4 7) served).stagedGet R.PSQ_VMAX.VALUE = 7 ∧
    (after (.registerWrite off 4 7) served).get R.PSQ_VMAX.VALUE = 25000000 ∧
    (after (.registerWrite off 4 7) frozen).get R.STG_CNT_FROZEN.N = 1 ∧
    (after (.registerWrite off 4 7) frozen).stagedGet R.PSQ_VMAX.VALUE = 25000000 := by decide +kernel

/-- R7: GLB_SCRATCH is class I; CLK_STATUS.LOST_SEEN is W1C. -/
theorem witness_ImmediateAndW1cBits :
    let scratch : BitVec 22 := BitVec.ofNat 22 R.GLB_SCRATCH
    let clk : BitVec 22 := BitVec.ofNat 22 R.CLK_STATUS
    let s := mk [(R.CLK_STATUS.LOST_SEEN, 1), (R.CLK_STATUS.SW_REFUSED, 1)]
    let one (f : Fld) : BitVec 32 := BitVec.ofNat 32 (2 ^ f.lo)
    tidy s = true ∧ plainOffset scratch.toNat = true ∧ plainOffset clk.toNat = true ∧
    (s.regAt scratch.toNat).map (fun r => (r.maskOf .staged, r.maskOf .immediate, r.maskOf .oneClears, r.maskOf .paired))
      = some (0, 0xFFFFFFFF, 0, 0) ∧
    (s.regAt clk.toNat).map (fun r => (r.maskOf .staged, r.maskOf .immediate, r.maskOf .paired, decide (r.maskOf .oneClears ≠ 0)))
      = some (0, 0, 0, true) ∧
    (after (.registerWrite scratch 4 0xA5A5A5A5) s).get R.GLB_SCRATCH.VALUE = 0xA5A5A5A5 ∧
    (after (.w1cClear clk (one R.CLK_STATUS.LOST_SEEN)) s).flag R.CLK_STATUS.LOST_SEEN = false ∧
    (after (.w1cClear clk (one R.CLK_STATUS.LOST_SEEN)) s).flag R.CLK_STATUS.SW_REFUSED = true ∧
    (after (.w1cClear clk (one R.CLK_STATUS.LOST_SEEN)) (s.latchBits R.CLK_STATUS.LOST_SEEN 1)).flag R.CLK_STATUS.LOST_SEEN = true := by
  decide +kernel

/-- R89, R170: a clear register, the access error clear, and the latch of a _LO half. -/
theorem witness_CounterClearsAndLatches :
    let clr : BitVec 22 := BitVec.ofNat 22 R.CLK_CNT_CLEAR
    let lo : BitVec 22 := BitVec.ofNat 22 R.PWR_ENERGY_LO
    let cyc : BitVec 22 := BitVec.ofNat 22 (R.CORE_CYC_LO 5)
    let m := mk [(R.CLK_CNT_LOST.N, 9), (R.GLB_ACCESS_ERR.COUNT, 5), (R.PWR_ENERGY_HI.N, 77)]
    let s := { m with clk := { m.clk with cycles := [0, 3 * 2 ^ 32 * 1000, 0, 0] } }
    tidy s = true ∧ s.answers = true ∧ (clearFields clr.toNat).isSome = true ∧ (s.regAt clr.toNat).isSome = true ∧
    loHalf lo.toNat = true ∧ (s.regAt lo.toNat).isSome = true ∧ loHalf cyc.toNat = true ∧ (s.regAt cyc.toNat).isSome = true ∧
    (s.regAt (lo.toNat + 4)).isSome = true ∧ (s.regAt (cyc.toNat + 4)).isSome = true ∧ pick 16 R.CORE_CYC_LO lo.toNat = none ∧
    (clearFields clr.toNat).map (fun fs => fs.length) ≠ some 0 ∧
    (after (.counterClear clr) s).get R.CLK_CNT_LOST.N = 0 ∧ (after .accessErrClear s).get R.GLB_ACCESS_ERR.COUNT = 0 ∧
    keyGet (after (.loReadLatch lo 4) s).holding (lo.toNat + 4) = some 77 ∧
    keyGet (after (.loReadLatch cyc 4) s).holding (cyc.toNat + 4) = some 3 ∧
    (after (.loReadLatch lo 2) s).holding = [] := by decide +kernel

/-- R89: a clear on the very tick of an event leaves that event. -/
theorem witness_CounterClearsAndLatches_lane :
    let clr : BitVec 22 := BitVec.ofNat 22 (R.LANE_L_EVT 5)
    let s := fill served [(R.LANE_L_EVT.MIS_COMMA 5, 7), ((R.LANE_L_EVT.MIS_COMMA 5).onTick, 2)]
    (pick 64 R.LANE_L_EVT clr.toNat).isSome = true ∧ (after (.counterClear clr) s).get (R.LANE_L_EVT.MIS_COMMA 5) = 2 ∧
    (after (.counterClear clr) s).get (R.LANE_L_EVT.LOA 5) = 0 := by decide +kernel

/-- R377: the pair MINOFF_US and PULSE_US of output 3; a width out of range breaks it. -/
theorem witness_PairsLatchTogether :
    let a : BitVec 22 := BitVec.ofNat 22 (R.PSQ_Q_PULSE 3)
    let b : BitVec 22 := BitVec.ofNat 22 (R.PSQ_Q_MINOFF 3)
    let s := after (.pairMemberWrite a 500) served
    tidy served = true ∧ tidy s = true ∧ pairAt a.toNat = some (a.toNat, b.toNat) ∧ (served.regAt a.toNat).isSome = true ∧
    (served.regAt b.toNat).isSome = true ∧ pairAt b.toNat = some (a.toNat, b.toNat) ∧ s.stage.commit = none ∧
    ((s.setReg a.toNat 500).setReg b.toNat 900).pairKeeps a.toNat b.toNat = true ∧
    ((s.setReg a.toNat 0).setReg b.toNat 900).pairKeeps a.toNat b.toNat = false ∧
    s.flag R.STG_STATUS.PAIR_OPEN = true ∧ s.get (R.PSQ_Q_PULSE.PULSE_US 3) = 4000 ∧
    (after (.pairLatch b 900) s).get (R.PSQ_Q_PULSE.PULSE_US 3) = 500 ∧
    (after (.pairLatch b 900) s).get (R.PSQ_Q_MINOFF.MINOFF_US 3) = 900 ∧
    (after (.pairLatch b 900) (after (.pairMemberWrite a 0) served)).flag R.STG_STATUS.PAIR_ERR = true := by decide +kernel

/-! ### Web position -/

/-- A module that drives WPOS from channel 0, with a base read at DTIME 1000. -/
def moving (wpos : Nat) (v : Int) : State :=
  let s := mk [(R.POS_E_CFG.ENABLE 0, 1)]
  { s with dtime := 1000, pos := { s.pos with wpos := wpos, base := some ⟨500, 1000, v⟩ } }

/-- R39, R40: at 1,000,000 um/s (1 mm/ms) the web moves 4,000 nm in 4 ns / 1 ms steps; a target behind holds WPOS. -/
theorem witness_TickExtrapolatesPosition :
    let s := moving 500 1000000
    let h := moving 900 0
    let off := { served with boot := { served.boot with power := false } }
    let as_ := { h with pos := { h.pos with takeAsIs := true } }
    let back := moving 1000500 0
    let limit := back.put R.POS_REV_LIMIT.VALUE 999
    let march := { s.setCore 2 { s.core 2 with testUntil := some 1004 } with regs := (s.put (R.CORE_LDR_STATUS.MODE 2) 2).regs }
    let saving := { s with boot := { s.boot with cfgWrite := some (true, [1, 2]) } }
    tidy s = true ∧ tidy h = true ∧ restful s = true ∧ restful h = true ∧ restful saving = true ∧
    (after .wposExtrapolate saving).boot.cfgB = [1, 2] ∧ (after .wposExtrapolate saving).boot.cfgWrite = none ∧
    as_.pos.takeAsIs = true ∧ (march.core 2).testUntil = some 1004 ∧
    (march.core 3).testUntil = none ∧ s.boot.power = true ∧ s.flag R.POS_STATUS.POS_LOST = false ∧ s.pos.takeAsIs = false ∧
    off.boot.power = false ∧
    (after .wposExtrapolate s).dtime = 1004 ∧ (after .wposExtrapolate s).pos.wpos = 504 ∧
    (after .wposExtrapolate h).pos.wpos = 900 ∧ (after .wposExtrapolate h).pos.backlog = 400 ∧
    (after .wposExtrapolate as_).pos.wpos = 500 ∧ (after .wposExtrapolate limit).flag R.POS_STATUS.REV_EXCESS = true ∧
    (after .wposExtrapolate march).get (R.CORE_LDR_STATUS.MODE 2) = 0 ∧
    (after .wposExtrapolate off).dtime = 0 ∧ (after .wposExtrapolate off).field.ftime = 4 := by decide +kernel

/-- A channel with a base, 8-bit words, 10 nm a count. -/
def reading (c : PosChan) : State :=
  let s := mk [(R.POS_E_CFG.ENABLE 0, 1), (R.POS_E_CFG.WORDLEN 0, 8), (R.POS_E_SCALE_INT.N 0, 10), (R.POS_E_JUMP_TOL.NM 0, 100)]
  { s with pos := { s.pos with chans := setNth s.pos.chans 0 c, base := some ⟨0, 0, 0⟩ } }

/-- R36, R45: a good read across the wrap of 8 bits, a stuck word, a jump, and no response. -/
theorem witness_EncoderReadsAreJudged :
    let c : PosChan := { haveBase := true, cPrev := 254, eNm := 2540 }
    let far : PosChan := { haveBase := true, cPrev := 100, eNm := 1000, v := 1000000000 }
    let s := reading c
    let j := reading far
    let fresh := reading {}
    let re := reading { c with rebase := true, v := 1000000 }
    let later := reading { c with readFrom := 2001 }
    let read (w : BitVec 48) := Instr.encoderRead 0 2000 true w false 0 false
    (fresh.chan 0).haveBase = false ∧ (re.chan 0).rebase = true ∧ (later.chan 0).readFrom = 2001 ∧ s.source = 0 ∧ s.role < 2 ∧
    ((after (read 9) fresh).chan 0).eNm = 0 ∧ ((after (read 9) fresh).chan 0).cPrev = 9 ∧
    ((after (read 9) re).chan 0).eNm = 4540 ∧ ((after (read 9) re).chan 0).cPrev = 9 ∧ ((after (read 9) later).chan 0).cPrev = 254 ∧
    tidy s = true ∧ s.pos.chans.length = 4 ∧ s.flag (R.POS_E_CFG.ENABLE 0) = true ∧ served.flag (R.POS_E_CFG.ENABLE 0) = false ∧
    frameStatus s 0 true 1 false 0 false = .good ∧ frameStatus s 0 false 1 false 0 false = .noresp ∧
    ((after (read 1) s).chan 0).eNm = 2570 ∧ (after (read 1) s).pos.nextBase = some ⟨2570, 2000, ((after (read 1) s).chan 0).v⟩ ∧
    (after (read 40) s).get (R.POS_E_WORD_HI.LAST 0) = ReadStatus.jump.code ∧
    (after (read 100) j).get (R.POS_E_WORD_HI.LAST 0) = ReadStatus.stuck.code ∧ ((after (read 100) j).chan 0) = far ∧
    (after (.encoderRead 0 2000 false 1 false 0 false) s).get (R.POS_E_ERR.NORESP 0) = 1 := by decide +kernel

/-- R46, R49, R52: the hold interval runs out; an aligned standby takes over; a master's cadence. -/
theorem witness_PositionLossTakeoverTuplesSnapshot :
    let s := mk [(R.POS_E_CFG.ENABLE 0, 1)]
    let lost := { s with dtime := 2000000, pos := { s.pos with holdArmed := true, holdStart := 0 } }
    let st := mk [(R.POS_STATUS.ROLE_NOW, 3), (R.POS_STATUS.ALIGNED, 1), (R.GTS_CFG.ENABLE, 1), (R.GTS_TIME_STATUS.SYNCED, 1), (R.GTS_CFG.ID, 5)]
    let stand := { st with pos := { st.pos with lostTuple := true, wpos := 70 } }
    let ma := mk [(R.POS_STATUS.ROLE_NOW, 1)]
    let master := { ma with pos := { ma.pos with readsSinceTuple := 1 } }
    tidy lost = true ∧ lost.holdDueNow = true ∧ lost.liveParts = [] ∧ lost.seq.frames = [] ∧ lost.pos.chans.length = 4 ∧
    served.holdDueNow = false ∧ stand.takeoverDue = true ∧ served.takeoverDue = false ∧ master.role = 1 ∧
    master.get R.POS_BCAST.DIV ≤ master.pos.readsSinceTuple ∧ served.boot.power = true ∧ served.flag R.GLB_STATUS.READY = true ∧
    (after .posLost (lost.put R.POS_SNAP_SPEED.N 5)).get R.POS_SNAP_SPEED.N = 0 ∧
    (after .posLost lost).flag R.POS_STATUS.POS_LOST = true ∧ (after .posLost lost).get R.FLD_LS_CAUSE.CAUSE = 5 ∧
    (after .takeover stand).role = 1 ∧ (after .takeover stand).pos.takeoverLeft = 256 ∧
    (after .takeover stand).pos.master = some 5 ∧ (after .posTupleSend master).pos.readsSinceTuple = 0 ∧
    (after .posSnapTake stand).get R.POS_SNAP_WPOS_LO.N = 70 := by decide +kernel
/-! ### The position sequencer and the part table -/

/-- A running sequencer at WPOS 1,000,000 nm and DTIME 10 ms, program tracks of 8 entries each at 8t, with entries, parts
and fields given. -/
def seq (xs : List (Fld × Nat)) (es : List (Nat × SeqEntry)) (ps : List (Nat × Part)) : State :=
  let s := mk ([(R.PSQ_CTL.ENABLE, 1), (R.PSQ_TRK_CFG.LEN 0, 8), (R.PSQ_TRK_CFG.BASE 1, 8), (R.PSQ_TRK_CFG.LEN 1, 8)] ++ xs)
  { s with dtime := 10000000, pos := { s.pos with wpos := 1000000 }, seq := { s.seq with entries := es, parts := ps } }

/-- A valid entry at 900,000 nm. -/
def ent (action param : Nat) : SeqEntry :=
  { wpos := 900000, x := 900000, valid := true, defValid := true, action := action, tag := 7, param := param }

/-- R57, R58: of the two heads due the lower action code fires, of equal codes the lower track. -/
theorem witness_SequencerFiresLeastDueEntry :
    (seq [] [(0, ent 11 5), (8, ent 0 0)] []).seqRuns = true ∧ (seq [] [(0, ent 11 5), (8, ent 0 0)] []).commitDue = none ∧
    (seq [] [(0, ent 11 5), (8, ent 0 0)] []).firedNow = [] ∧ (seq [] [(0, ent 11 5)] []).head 0 = some (0, ent 11 5) ∧
    (seq [] [(0, ent 11 5), (8, ent 0 0)] []).nextDue = some (1, 8, ent 0 0) ∧
    (seq [] [(0, ent 11 5), (8, ent 11 6)] []).nextDue = some (0, 0, ent 11 5) ∧
    (seq [] [(0, { ent 0 0 with x := 1000001 })] []).nextDue = none ∧
    (after .loftMark (seq [] [(0, ent 11 5), (8, ent 0 0)] [])).seq.entries = [(0, ent 11 5), (8, ent 0 0)] := by decide +kernel

/-- R55: a repeating entry takes 1,000.5 nm on with its fraction; NOP, LOFT_MARK, SELFTEST_WIN and a position event. -/
theorem witness_FiringAdvancesTheEntry :
    let rep : SeqEntry := { ent 0 0 with repeats := true, pitch := 1000, pitchFrac := 32768, xf := 32768, count := 2, n := 1 }
    let nop := seq [] [(0, rep)] []
    let mark := seq [] [(0, ent 11 5)] []
    let win := seq [] [(0, ent 9 (3 + 100 * 2 ^ 32))] []
    let ev := seq [] [(57344, ent 10 4)] []
    let sig := { ev with sync := { ev.sync with objs := [(4, { cfg := { type := 4 } })] } }
    tidy nop = true ∧ still nop = true ∧ tidy sig = true ∧ still sig = true ∧ nop.nextDue = some (0, 0, rep) ∧
    mark.nextDue = some (0, 0, ent 11 5) ∧ (win.nextDue).isSome = true ∧ sig.nextDue = some (56, 57344, ent 10 4) ∧
    (sig.so 4).cfg.type = 4 ∧ (sig.so 4).broken = false ∧ (sig.so 4).waiters = [] ∧ mark.loft.queue.length < 512 ∧
    keyGet (after .nop nop).seq.entries 0 = some { rep with x := 901001, xf := 0, n := 2, valid := false } ∧
    keyGet (after .loftMark mark).seq.entries 0 = some { ent 11 5 with valid := false, n := 1 } ∧
    (after .loftMark mark).loft.queue.length = 1 ∧ (after .selftestWin win).seq.windows = [(3, 900000, 100)] ∧
    ((after .signal sig).so 4).value = 1 ∧ ((after .signal sig).so 4).lastWpos = 900000 ∧ (after .signal sig).seq.entries = [] := by
  decide +kernel

/-- R61, R62: lane 2 opens a part with its two entries; a lane not enabled; a full table; a lane without an open part. -/
theorem witness_PartsOpenAndClose :
    let one (a : Nat) := ent a (2 + 256)
    let cfg := [(R.PSQ_LANE_CFG.ENABLE 2, 1), (R.PSQ_LANE_DEC_OFF.N 2, 5000), (R.PSQ_LANE_ON_OFF.N 2, 6000), (R.PART_NEXT_ID.ID, 40)]
    let s := seq cfg [(0, one 2)] []
    let off := seq [] [(0, one 2)] []
    let open_ : Part := { core := { state := .opened, lane := 2 } }
    let close := seq [] [(0, one 1)] [(3, open_)]
    let none_ := seq [] [(0, one 1)] []
    tidy s = true ∧ still s = true ∧ s.nextDue = some (0, 0, one 2) ∧ (one 2).lanes = [2] ∧ (s.firing 0 0 (one 2)).rtJob = none ∧
    s.flag R.ADP_CAP_CFG.ENABLE = false ∧ s.flag R.LPIPE_CTL.ENABLE = false ∧ (s.firing 0 0 (one 2)).openOf 2 = none ∧
    s.sdg.proof = none ∧ (close.firing 0 0 (one 1)).rtJob = none ∧ s.flag (R.PSQ_LANE_CFG.ENABLE 2) = true ∧ off.flag (R.PSQ_LANE_CFG.ENABLE 2) = false ∧
    (s.firing 0 0 (one 2)).freeEntry = some 0 ∧ (s.firing 0 0 (one 2)).trackRoom 2 = some (59392, 59393) ∧
    (close.firing 0 0 (one 1)).openOf 2 = some 3 ∧ (close.part 3).vd.capture = none ∧ (none_.firing 0 0 (one 1)).openOf 2 = none ∧
    ((after .partOpen s).part 0).core.state = .opened ∧ ((after .partOpen s).part 0).core.origin = 900000 ∧
    ((after .partOpen s).part 0).core.id = 40 ∧ (after .partOpen s).get R.PART_NEXT_ID.ID = 41 ∧
    ((after .partOpen s).entry 59392).x = 905000 ∧ ((after .partOpen s).entry 59393).x = 906000 ∧
    (after .partOpen off).seq.parts = [] ∧ ((after .partClose close).part 3).core.state = .closed ∧
    (after .partClose none_).get R.PSQ_CNT_CLOSE_NONE.N = 1 := by decide +kernel

theorem witness_PartsOpenAndClose_unchecked :
    ∀ j, ((seq [] [(0, ent 1 (2 + 256))] [(3, { core := { state := .opened, lane := 2 } })]).part j).sdgOn = false := by
  intro j
  show ((keyGet [(3, ({ core := { state := .opened, lane := 2 } } : Part))] j).getD {}).sdgOn = false
  unfold keyGet
  split
  · rfl
  · simp only [keyGet, Option.getD_none]; rfl

theorem keyGet_full {α : Type} (v : α) : ∀ (n b k : Nat), b ≤ k → k < b + n →
    keyGet ((List.range' b n).map (fun i => (i, v))) k = some v
  | 0, _, _, h1, h2 => by omega
  | n + 1, b, k, h1, h2 => by
    simp only [List.range'_succ, List.map_cons, keyGet]
    split
    · rfl
    · exact keyGet_full v n (b + 1) k (by omega) (by omega)

/-- A part table with every entry taken. -/
def fullTable : List (Nat × Part) := (List.range' 0 4096).map (fun i => (i, { core := { state := .armed } }))

theorem no_freeEntry {u : State} (h : u.seq.parts = fullTable) : u.freeEntry = none := by
  have e : ((List.range 4096).filter (fun i => match keyGet u.seq.parts i with
      | some p => p.core.state == .free
      | none => true)) = [] := by
    rw [List.filter_eq_nil_iff]
    intro i hi
    rw [h, fullTable, keyGet_full _ 4096 0 i (Nat.zero_le _) (by simpa using List.mem_range.mp hi)]
    decide
  unfold State.freeEntry
  extract_lets l
  rw [show l = [] from e]
  rfl

/-- R61: with every part-table entry taken there is no room. -/
theorem witness_PartsOpenAndClose_full :
    let s := seq [(R.PSQ_LANE_CFG.ENABLE 2, 1)] [(0, ent 2 (2 + 256))] fullTable
    s.nextDue = some (0, 0, ent 2 (2 + 256)) ∧ (s.firing 0 0 (ent 2 (2 + 256))).freeEntry = none :=
  ⟨by decide +kernel, no_freeEntry (by rfl)⟩

/-- A closed part of lane 2, output 1. -/
def closed (r : Option (List Byte)) : Part :=
  { core := { state := .closed, lane := 2, channel := 1, origin := 1000000, onOff := 2000000, offOff := 3000000 }
    vd := { result := r, resultTime := 5, combined := some 9 } }

/-- R67-R69, R394: code 1 arms EJECT 1 and the frame goes out at 1 ms + 1 s / 1 m/s; without a base it waits; EJECT 0 frees. -/
theorem witness_DecisionFixesVerdictAndArms :
    let r : Option (List Byte) := some ([0, 0, 0, 0, 1] ++ List.replicate 59 0)
    let e := ent 6 5
    let cfg := [(R.PSQ_LANE_CFG.EJECT 2, 1)]
    let wait := seq cfg [(59392, e)] [(5, closed r)]
    let go := { wait with pos := { wait.pos with base := some ⟨1000000, 10000000, 1000000⟩ } }
    let free := seq [] [(59392, e)] [(5, closed none)]
    let p := closed r
    let b : PosBase := ⟨1000000, 10000000, 1000000⟩
    tidy go = true ∧ still go = true ∧ go.nextDue = some (58, 59392, e) ∧ p.sdgOn = false ∧ p.vd.capture = none ∧
    p.vd.resultTime ≠ go.dtime ∧ (go.firing 58 59392 e).movingBase = some b ∧ (go.firing 58 59392 e).pendingOf 1 = none ∧
    (wait.firing 58 59392 e).movingBase = none ∧ (go.firing 58 59392 e).edgesPending + 2 ≤ 4096 ∧
    502000 ≤ diff64 (u64 (b.edge 3000000)) go.dtime ∧
    ((after .decision go).part 5).core.state = .armed ∧ ((after .decision go).part 5).core.verdict = some 1 ∧
    ((after .decision go).part 5).core.onDtime = 12000000 ∧ (after .decision go).link.down.length = 1 ∧
    ((after .decision wait).part 5).core.state = .decided ∧ (after .decision wait).seq.waiting.length = 1 ∧
    ((after .decision free).part 5).core.state = .free ∧ ((after .decision free).part 5).core.verdict = some 0 := by decide +kernel

/-- R73, R74, R78, R508: the residual of an armed part; a PULSE that waits and one that goes; a frame parked, corrected, kept,
and one without a report. -/
theorem witness_EjectPassPulseAndReports :
    let armed : Part := { core := { state := .armed, channel := 1, onDtime := 9999000 } }
    let pass := seq [] [(59392, ent 7 5)] [(5, armed)]
    let b : PosBase := ⟨1000000, 10000000, 1000000⟩
    let wait := seq [] [(0, ent 8 (1 + 100 * 2 ^ 16 + 1000 * 2 ^ 36))] []
    let go := { wait with pos := { wait.pos with base := some b } }
    let src : EdgeSrc := { owner := none, onPos := 2000000, offPos := none, width := 100000 }
    let f : Frame := { tag := 3, channel := 1, srcs := [src], on := 11000100, off := 11100100, behind := none, minOff := 0 }
    let q := seq [] [] []
    let park := { q with pos := { q.pos with newBase := true }, seq := { q.seq with frames := [f] } }
    let corr := { park with pos := { park.pos with base := some b } }
    let near : Frame := { f with on := 11000001, off := 11100001 }
    let keep := { corr with seq := { corr.seq with frames := [near] } }
    let idle := { q with pos := { q.pos with newBase := true } }
    let gone : Frame := { f with srcs := [{ src with owner := some 5 }], off := 8000000 }
    let late := { pass with seq := { pass.seq with frames := [gone] } }
    park.pos.newBase = true ∧ f.parked = false ∧ f.cancelled = false ∧ f.behind = none ∧ f.held = false ∧ park.seq.waiting = [] ∧
    102000 ≤ diff64 11000000 corr.dtime ∧ 102000 ≤ diff64 f.off corr.dtime ∧ 102000 ≤ diff64 11100000 corr.dtime ∧
    tidy pass = true ∧ still pass = true ∧ (pass.nextDue).isSome = true ∧ (pass.part 5).core.state = .armed ∧
    wait.movingBase = none ∧ go.movingBase = some b ∧ go.pendingOf 1 = none ∧ go.edgesPending + 2 ≤ 4096 ∧
    502000 ≤ diff64 (u64 (b.edge 1900000)) go.dtime ∧ park.movingBase = none ∧ 0 < diff64 f.off park.dtime ∧
    corr.edgesOf b 1 src = (11000000, 11100000) ∧ 102000 ≤ diff64 f.on corr.dtime ∧ (diff64 11000000 f.on).natAbs = 100 ∧
    corr.get R.PSQ_CORR.THRESH_NS = 20 ∧ late.seq.frames.find? (fun f => !f.parked && decide (diff64 late.dtime f.off ≥ 2000000)) = some gone ∧
    ((after .ejectPass pass).part 5).core.residual = 1000 ∧ (after .pulse wait).seq.waiting.length = 1 ∧
    (after .pulse go).link.down.length = 1 ∧ (after .edgeRecompute park).seq.frames = [{ f with parked := true, held := true }] ∧
    (after .edgeRecompute { park with seq := { park.seq with frames := [{ f with held := true }] } }).link.down = [] ∧
    (after .edgeRecompute corr).seq.frames.map (fun g => (g.on, g.off)) = [(11000000, 11100000)] ∧
    (after .edgeRecompute keep).seq.frames = [near] ∧ (after .edgeRecompute idle).pos.newBase = false ∧
    ((after .edgeReportTimeout late).part 5).core.state = .free ∧ ((after .edgeReportTimeout late).part 5).core.flags = 32 := by
  decide +kernel

/-- R54, R66: the window shows x, and the part's state and verdict 0xFF. -/
theorem witness_ReadWindowsShowEntries :
    let s := seq [] [(9, { ent 2 1 with x := 950000 })] [(5, closed none)]
    tidy s = true ∧ s.boot.power = true ∧ s.flag R.GLB_STATUS.READY = true ∧
    ((after (.psqTblRead 9) s).reg (R.PSQ_TBL_DATA 0)).toNat = 950000 ∧
    ((after (.partWinRead 5) s).reg (R.PART_WIN_DATA 3)).toNat = 2 + 2 * 256 + 255 * 65536 := by decide +kernel
/-! ### Camera slots and the line pipeline -/

/-- A sequencer with one due entry and camera 3 in a state. -/
def cam3 (st : Nat) (xs : List (Fld × Nat)) (e : SeqEntry) (c : CamSt) : State :=
  let s := seq ([(R.CXP_CAM_STATUS.STATE 3, st), (R.CXP_CAM_GEOM.WIDTH 3, 4), (R.CXP_CAM_GEOM.FRAME_LINES 3, 1),
    (R.CXP_CAM_FMT.PAD 3, 9)] ++ xs) [(0, e)] []
  { s with cams := setNth s.cams 3 c }

/-- R106, R132, R130: gates of a STREAMING camera and of one that is not; a cut without and with gates; a crop. -/
theorem witness_GatesCutsAndCrops :
    let g := ent 3 8
    let old : Slot := { gate := 2, dtime := 9990000, wpos := 1, width := 4, pad := 9, depth := 0, lines := [{}] }
    let on := cam3 4 [] g { gates := 5, slots := [(2, old)] }
    let off := cam3 0 [] g {}
    let lp := [(R.LPIPE_CTL.ENABLE, 1), (R.LPIPE_CAM_CFG.ENABLE 3, 1), (R.LPIPE_STR_CFG.TYPE 3 2, 1)]
    let cut := cam3 4 lp (ent 4 8) {}
    let cut1 := { cut with lp := { cut.lp with streams := [(26, { gatesIn := 2 })] } }
    let idle := cam3 4 [] (ent 4 8) {}
    let crops := [(R.LPIPE_CTL.ENABLE, 1), (R.LPIPE_CAM_CFG.ENABLE 3, 1), (R.LPIPE_STR_CFG.TYPE 3 2, 3), (R.LPIPE_CROP_CFG.ENABLE 7, 1),
      (R.LPIPE_CROP_CFG.CAMERA 7, 3), (R.LPIPE_CROP_CFG.STREAM 7, 2), (R.LPIPE_CROP_X.X0 7, 900), (R.LPIPE_CROP_W.WIDTH 7, 2)]
    let roi := cam3 4 crops (ent 5 7) {}
    let dis := cam3 4 [] (ent 5 7) {}
    tidy on = true ∧ still on = true ∧ on.cams.length = 16 ∧ on.nextDue = some (0, 0, g) ∧ setBits 16 g.param = [3] ∧
    (∀ j, j < 8 → on.strType 3 j = 0) ∧ on.openParts 3 = [] ∧ on.lp.meas = [] ∧ on.kind 3 = 0 ∧ 5 < 2 + max 1 (on.get (R.CXP_CAM_GEOM.SLOTS 3)) ∧
    on.dtime ≤ old.dtime + old.late ∧ cut1.strType 3 2 = 1 ∧ (cut1.cam 3).gateLog = [] ∧ (cut1.stream 3 2).starts = [] ∧
    roi.lp.steerWas = [] ∧ ((after .lineGate on).cam 3).trigger = some (10000000, 10002400) ∧
    (keyGet ((after .lineGate on).cam 3).slots 5).map (fun x => (x.dtime, x.wpos, x.late)) = some (10000000, 1000000, 40000) ∧
    ((after .roiApply (roi.setPart 9 { core := { state := .opened, lane := 0 } })).stream 3 2).crops.map (·.part) = [some 9] ∧
    on.camState 3 = 4 ∧ off.camState 3 ≠ 4 ∧ idle.lpOn 3 = false ∧ cut.lpOn 3 = true ∧ cut.stripStreams 3 = [2] ∧
    (cut.stream 3 2).gatesIn = 0 ∧ 0 < (cut1.stream 3 2).gatesIn ∧
    dis.flag (R.LPIPE_CROP_CFG.ENABLE 7) = false ∧ roi.flag (R.LPIPE_CROP_CFG.ENABLE 7) = true ∧ roi.lpOn 3 = true ∧
    roi.strType 3 2 = 3 ∧ (roi.stream 3 2).cropOf 7 = none ∧ (roi.stream 3 2).crops.length < 4 ∧
    ((after .lineGate on).cam 3).gates = 6 ∧ ((after .lineGate on).cam 3).g0 = some 5 ∧
    (after .lineGate off).get (R.CXP_CAM_MISSING.N 3) = 1 ∧ (after .stripCut cut).get (R.LPIPE_CAM_CUT_EMPTY.N 3) = 1 ∧
    ((after .stripCut cut1).stream 3 2).gatesIn = 0 ∧ ((after .roiApply roi).stream 3 2).crops.map (·.x0) = [2] := by decide +kernel

/-- R109-R112: a SHORT line is padded; a bad CRC; a slot 40 us old closes with its line MISSING. -/
theorem witness_PacketsFillSlots :
    let sl : Slot := { gate := 0, dtime := 9990000, wpos := 1, width := 4, pad := 9, depth := 0, lines := [{}] }
    let two : Slot := { sl with lines := [{}, {}] }
    let cfg := [(R.CXP_MAP.VALID 12, 1), (R.CXP_MAP.CAMERA 12, 3), (R.LANE_L_STATUS.STATE 12, 4)]
    let at_ (sl : Slot) (n : Nat) : State := cam3 4 cfg (ent 0 0)
      { gates := 1, g0 := some 0, l0 := some 6, srcTag := some 6, slots := [(0, sl)], gateLog := [⟨0, 1, 9990000, 0, n⟩] }
    let s := at_ sl 1
    let more := at_ two 2
    let part : Part := { core := { state := .opened }, vd := { cols := 3 * 2 ^ 26 + 2 * 2 ^ 13 + 1, gates := [0] } }
    let late := { s with dtime := 10030001, seq := { s.seq with parts := [(5, part)] } }
    let i := Instr.streamPacket 12 0 true [.line 0 [7, 8] false]
    tidy s = true ∧ s.cams.length = 16 ∧ s.get (R.CXP_MAP.CAMERA 12) = 3 ∧ s.flag (R.CXP_MAP.VALID 12) = true ∧ s.laneUp 12 = true ∧
    s.camState 3 = 4 ∧ served.laneUp 12 = false ∧ (s.cam 3).nextTag = none ∧ (s.cam 3).cur = none ∧ (s.cam 3).rx = [] ∧
    (s.cam 3).frameBad = false ∧ (s.cam 3).skipping = false ∧ (s.lineHome 3 6).1 = .slot sl 0 ∧ (more.lineHome 3 6).1 = .slot two 0 ∧
    nth (setNth two.lines 0 { status := some 0 }) 0 {} = { status := some 0 } ∧ s.dtime ≤ sl.dtime + sl.late ∧
    sl.dtime + sl.late < late.dtime ∧ late.liveParts = [5] ∧ colsCamera part.vd.cols = 3 ∧
    (after i served).cams = served.cams ∧
    (((after i s).cam 3).slots.map (fun e => e.2.lines)) = [[{ status := some 1, samples := [7, 8, 9, 9], got := 2 }]] ∧
    (((after i more).cam 3).slots.map (fun e => e.2.closed)) = [false] ∧ (after i more).get (R.CXP_CAM_SHORT.N 3) = 0 ∧
    (after i s).get (R.CXP_CAM_SHORT.N 3) = 1 ∧ (after (.streamPacket 12 0 false []) s).get (R.CXP_CAM_PKT_CRC.N 3) = 1 ∧
    (keyGet ((after (.slotDeadline 3) late).part 5).vd.leaves 0).isSome = true ∧
    (((after (.slotDeadline 3) late).cam 3).slots.map (fun e => e.2.lines)) = [[{ status := some 3, samples := [9, 9, 9, 9], got := 0 }]] := by
  decide +kernel

/-- R113-R121, R128, R144: an 8-bit row of four columns reaches a TYPE 4 stream, scaled to 16 bits; digests. -/
theorem witness_RowsAndInputDigests :
    let sl : Slot := { gate := 0, dtime := 1, wpos := 1, width := 4, pad := 0, depth := 0, closed := true
                       lines := [{ status := some 0, samples := [1, 2, 3, 255], got := 4 }] }
    let cfg := [(R.LPIPE_CTL.ENABLE, 1), (R.LPIPE_CAM_CFG.ENABLE 3, 1), (R.LPIPE_STR_CFG.TYPE 3 2, 4)]
    let b := cam3 4 cfg (ent 0 0) { gates := 1, g0 := some 0, slots := [(0, sl)] }
    let s := { b with lp := { b.lp with streams := [(26, { first := some 0 })] } }
    let part : Part := { core := { state := .closed }, vd := { cols := 3 * 2 ^ 26 + 3 * 2 ^ 13, gates := [0] } }
    let open_ := { s with seq := { s.seq with parts := [(5, part)] } }
    let hash := { s with seq := { s.seq with parts := [(5, { part with vd := { part.vd with leaves := [(0, slotLeaves sl 0 3)] } })] } }
    let pend := b.setCam 3 { b.cam 3 with slots := [(0, { sl with closed := false })], gateLog := [⟨0, 1, 1, 0, 1⟩] }
    tidy s = true ∧ still s = true ∧ s.lp.nextRow.length = 16 ∧ s.lpOn 3 = true ∧ served.lpOn 3 = false ∧ s.strType 3 2 = 4 ∧
    (∀ j, j < 8 → j ≠ 2 → s.strType 3 j = 0) ∧ s.kind 3 = 0 ∧ s.delayOf 3 0 = 0 ∧ keyGet s.lp.tables 3 = none ∧
    s.reg (R.LPIPE_CAM_LENS 3 5) = 0 ∧ s.lp.meas = [] ∧ s.partsAt 3 0 = [] ∧ s.adp.capLeft = [] ∧
    (s.stream 3 2).quad.length = (0 - (s.stream 3 2).first.getD 0) % 4 ∧ (s.cam 3).g0.getD 0 ≤ 0 ∧ 0 < (s.cam 3).gates ∧
    pend.lpOn 3 = true ∧ pend.rowReady 3 0 = false ∧ (s.stream 3 2).quad.length < 3 ∧
    (s.stream 3 2).first = some 0 ∧ nth s.lp.nextRow 3 0 = 0 ∧ (s.cam 3).slotOf 0 = some sl ∧ s.width 3 = 4 ∧
    (∀ v ∈ [1, 2, 3, 255], v < 2 ^ depthBits sl.depth) ∧
    ((after (.rowBuild 3) s).stream 3 2).quad.map (fun r => r.plane 5) = [[256, 512, 768, 65280]] ∧
    (after (.rowBuild 3) s).get (R.LPIPE_CAM_ROWS.N 3) = 1 ∧
    (hash.part 5).core.state = .closed ∧ (hash.part 5).vd.digest = none ∧ (hash.part 5).vd.gates = [0] ∧
    (keyGet (hash.part 5).vd.leaves 0).isSome = true ∧ keyGet (open_.part 5).vd.leaves 0 = none ∧
    (after (.inputDigestFinal 5) open_).seq = open_.seq := by
  decide +kernel

theorem witness_RowsAndInputDigests_unchecked : ∀ j, ((cam3 4 [] (ent 0 0) {}).part j).sdgOn = false := by
  intro j
  show ({} : Part).sdgOn = false
  decide +kernel
/-! ### Comma lanes and discovery -/

/-- A module with lane 5 of camera 1 (lanes 4-7) in a state. -/
def lane5 (st cst : Nat) (xs : List (Fld × Nat)) (l : LaneSt) : State :=
  let s := mk ([(R.LANE_L_STATUS.STATE 5, st), (R.LANE_L_CFG.ENABLE 5, 1), (R.CXP_CAM_CFG.ENABLE 1, 1), (R.CXP_CAM_CFG.LANE_BASE 1, 4),
    (R.CXP_CAM_CFG.LANES 1, 2), (R.CXP_CAM_STATUS.STATE 1, cst)] ++ xs)
  { s with lanes := setNth s.lanes 5 l }

/-- R112: a line of two samples at the gate of an undecided part whose columns reach 3 marks it. -/
theorem witness_PacketsFillSlots_padded :
    let sl : Slot := { gate := 0, dtime := 9990000, wpos := 1, width := 4, pad := 9, depth := 0, lines := [{}] }
    let cfg := [(R.CXP_MAP.VALID 12, 1), (R.CXP_MAP.CAMERA 12, 3), (R.LANE_L_STATUS.STATE 12, 4)]
    let cols (last : Nat) : Nat := 3 * 2 ^ 26 + last * 2 ^ 13
    let part (last : Nat) : Part := { core := { state := .opened }, vd := { cols := cols last, gates := [0] } }
    let s := cam3 4 cfg (ent 0 0)
      { gates := 1, g0 := some 0, l0 := some 6, srcTag := some 6, slots := [(0, sl)], gateLog := [⟨0, 1, 9990000, 0, 1⟩] }
    let s := { s with seq := { s.seq with parts := [(5, part 2), (6, part 1)] } }
    let t := after (.streamPacket 12 0 true [.line 0 [7, 8] false]) s
    s.liveParts = [5, 6] ∧ colsCamera (cols 2) = 3 ∧ colsLast (cols 2) = 2 ∧ (s.part 5).core.state.undecided = true ∧
    (t.part 5).vd.incomplete = true ∧ (t.part 6).vd.incomplete = false := by decide +kernel

/-- R83, R85, R86, R88, R102: the lane rises and falls; group 181 is a code group, 0 is none of either disparity. -/
theorem witness_LanesRiseAndFall :
    let none_ := lane5 1 0 [] {}
    let acq := lane5 2 0 [] {}
    let sync := lane5 3 0 [(R.LANE_L_EYE_STAT.BUSY 5, 1)] { cand := some 0, count := 1 }
    let off3 := lane5 3 0 [] { raw := some 31, cand := some 3, count := 1 }
    let last := lane5 3 0 [] { cand := some 0, count := 2 }
    let up := lane5 4 4 [] {}
    let worst := lane5 4 0 [(R.CXP_CAM_CFG.ENABLE 1, 0)] { score := 3 }
    tidy up = true ∧ up.lanes.length = 64 ∧ none_.laneState 5 = 1 ∧ none_.flag (R.LANE_L_CFG.ENABLE 5) = true ∧ acq.laneState 5 = 2 ∧
    sync.laneState 5 = 3 ∧ sync.flag (R.LANE_L_EYE_STAT.BUSY 5) = true ∧ up.laneState 5 = 4 ∧ up.camOfLane 5 = some 1 ∧
    up.camState 1 = 4 ∧ up.flag (R.CXP_CAM_CFG.STOP_ON_LOSS 1) = false ∧ up.get (R.LANE_L_CFG.PATTERN 5) = 0 ∧
    up.get (R.LANE_L_CFG.LOOP 5) = 0 ∧ straddles (up.lane 5).last 181 = false ∧ (up.lane 5).score < up.get (R.LANE_L_CFG.LOA_LIMIT 5) ∧
    (decodeAt 181 false).isSome = true ∧ decodeAt 0 false = none ∧ decodeAt 0 true = none ∧
    (worst.lane 5).score + 1 = worst.get (R.LANE_L_CFG.LOA_LIMIT 5) ∧ worst.camOfLane 5 = none ∧ straddles 0 0 = false ∧
    (after (.laneSignalDetect 5) none_).laneState 5 = 2 ∧ (after (.cdrLock 5) acq).laneState 5 = 3 ∧
    (after (.cdrLockLoss 5) sync).laneState 5 = 2 ∧ (after (.laneSignalLoss 5) sync).laneState 5 = 1 ∧
    (after (.laneSignalLoss 5) up).camState 1 = 5 ∧ (after (.laneSignalLoss 5) up).get (R.CXP_CAM_LINK_LOSS.N 1) = 1 ∧
    (List.range 10).map (fun k => commaGroup ((31 * 1024 + 256) / 2 ^ ((10 - k) % 10) % 1024)) = (List.range 10).map (· == 3) ∧
    ((after (.acquireGroup 5 250 0) sync).lane 5).count = 2 ∧ ((after (.acquireGroup 5 256 0) off3).lane 5).count = 2 ∧
    ((after (.acquireGroup 5 250 0) { sync with lanes := setNth sync.lanes 5 { cand := some 4, count := 1 } }).lane 5).count = 1 ∧
    (after (.acquireGroup 5 250 0) last).laneState 5 = 4 ∧ ((after (.alignedGroup 5 181 0) up).lane 5).good = 1 ∧
    (after (.alignedGroup 5 0 0) up).get (R.LANE_L_ERR.CV 5) = 1 ∧ (after (.alignedGroup 5 0 0) worst).laneState 5 = 3 ∧
    (after (.alignedGroup 5 0 0) worst).get (R.LANE_L_EVT.LOA 5) = 1 := by decide +kernel

/-- R85, R88, R427: lane 37 is lane 1 of fabric port 1; its byte goes to the port's link. Group 250 is K28.5. -/
theorem witness_LanesRiseAndFall_fabric :
    let s0 := mk [(R.LANE_L_STATUS.STATE 37, 4), (R.LANE_L_CFG.ENABLE 37, 1), (R.GTS_G_STATUS.STATE 1, 2)]
    let up := { s0 with lanes := setNth s0.lanes 37 {} }
    let t := after (.alignedGroup 37 250 0) up
    up.lanes.length = 64 ∧ up.laneState 37 = 4 ∧ (37 - 32) / 4 = 1 ∧ up.get (R.GTS_G_STATUS.STATE 1) ≠ 1 ∧ up.gts.ports.length = 8 ∧
    (up.lane 37).score < up.get (R.LANE_L_CFG.LOA_LIMIT 37) ∧ straddles (up.lane 37).last 250 = false ∧
    decodeAt 250 (up.lane 37).rdPos = some ⟨0xBC, true, true⟩ ∧ (t.gport 1).skew = [none, some [(true, 0xBC)], none, none] := by
  decide +kernel

/-- R83-R88, R92: a lane in a near-end loopback, a straddling comma, and a group of the other disparity. -/
theorem witness_LanesRiseAndFall_more :
    let none_ := lane5 1 0 [] {}
    let sync := lane5 3 0 [(R.LANE_L_EYE_STAT.BUSY 5, 1)] { cand := some 0, count := 1 }
    let else_ := { sync with lanes := setNth sync.lanes 5 { cand := some 4, count := 1 } }
    let up := lane5 4 4 [] {}
    let worst := lane5 4 0 [(R.CXP_CAM_CFG.ENABLE 1, 0)] { score := 3 }
    let off := lane5 0 0 [(R.LANE_L_CFG.ENABLE 5, 0)] {}
    let near := lane5 1 0 [(R.LANE_L_CFG.LOOP 5, 2)] {}
    let split := lane5 4 0 [] { last := 115 }
    off.flag (R.LANE_L_CFG.ENABLE 5) = false ∧ off.laneState 5 = 0 ∧ near.nearEnd 5 = true ∧ up.nearEnd 5 = false ∧ up.loop 5 = 0 ∧
    up.flag (R.LANE_L_CFG.RX_INV 5) = false ∧ sync.get (R.LANE_L_CFG.PATTERN 5) = 0 ∧ sync.loop 5 = 0 ∧
    sync.flag (R.LANE_L_CFG.RX_INV 5) = false ∧ commaGroup 250 = true ∧ commaGroup 0 = false ∧ (decodeAt 250 false).isSome = true ∧
    decodeAt 250 true = none ∧ straddles 115 901 = true ∧ (decodeAt 901 false).isSome = true ∧ straddles 0 85 = false ∧
    decodeAt 85 false = none ∧ (decodeAt 85 true).isSome = true ∧ (up.lane 5).score + 1 < up.get (R.LANE_L_CFG.LOA_LIMIT 5) ∧
    (after (.laneSignalDetect 5) near).laneState 5 = 1 ∧ ((after (.laneSignalDetect 5) near).lane 5).pin = true ∧
    (after (.laneSignalDetect 5) up).flag (R.LANE_L_STATUS.SIG_DET 5) = true ∧ (after (.laneSignalDetect 5) up).laneState 5 = 4 ∧
    ((after (.laneSignalLoss 5) { near with lanes := setNth near.lanes 5 { pin := true } }).lane 5).pin = false ∧
    (after (.laneSignalLoss 5) (none_.raise (R.LANE_L_STATUS.SIG_DET 5))).flag (R.LANE_L_STATUS.SIG_DET 5) = false ∧
    (after (.cdrLockLoss 5) up).camState 1 = 5 ∧ (after (.cdrLockLoss 5) worst).laneState 5 = 2 ∧
    ((after (.acquireGroup 5 0 0) sync).lane 5).cand = none ∧ ((after (.acquireGroup 5 181 0) sync).lane 5).cand = some 0 ∧
    ((after (.acquireGroup 5 0 0) else_).lane 5).count = 1 ∧ ((after (.acquireGroup 5 0 0) else_).lane 5).raw = some 0 ∧
    (after (.alignedGroup 5 901 0) split).get (R.LANE_L_EVT.MIS_COMMA 5) = 1 ∧
    (after (.alignedGroup 5 85 0) up).get (R.LANE_L_ERR.DISP 5) = 1 := by decide +kernel

/-- R90, R91: DWELL 2 compares 4,096 bits; PHASE 32 is out of range, -32 is not. -/
theorem witness_EyeScans :
    let up := lane5 4 0 [] {}
    let low := lane5 2 0 [] {}
    let run := after (.eyeScanStart 5 0 0 2) up
    tidy up = true ∧ up.lanes.length = 64 ∧ up.boot.power = true ∧ up.flag R.GLB_STATUS.READY = true ∧
    up.flag (R.LANE_L_EYE_STAT.BUSY 5) = false ∧ up.laneState 5 = 4 ∧ low.laneState 5 < 3 ∧
    run.flag (R.LANE_L_EYE_STAT.BUSY 5) = true ∧ (run.lane 5).dwell ≤ 24 ∧
    (after (.eyeScanStart 5 32 0 2) up).flag (R.LANE_L_EYE_STAT.RANGE 5) = true ∧
    (after (.eyeScanStart 5 (-32) 0 2) up).flag (R.LANE_L_EYE_STAT.BUSY 5) = true ∧
    (after (.eyeScanStart 5 0 0 2) low).flag (R.LANE_L_EYE_STAT.NOLOCK 5) = true ∧
    (after (.eyeScanStart 5 0 0 2) run).flag (R.LANE_L_EYE_STAT.OVERRUN 5) = true ∧
    (after (.eyeScanStart 5 32 0 2) low).flag (R.LANE_L_EYE_STAT.RANGE 5) = true ∧
    (after (.eyeScanStart 5 32 0 2) low).flag (R.LANE_L_EYE_STAT.NOLOCK 5) = true ∧ run.lane 5 = { dwell := 2 } ∧
    run.boot.power = true ∧ run.flag R.GLB_STATUS.READY = true ∧
    (after (.eyeScanDone 5 77) run).get (R.LANE_L_EYE_BITS_LO.N 5) = 4096 ∧ (after (.eyeScanDone 5 77) run).get (R.LANE_L_EYE_ERR.N 5) = 77 := by decide +kernel

/-- R100-R102, R104: discovery from LINK_DOWN through the width to STREAMING, its failures, and a client's access. -/
theorem witness_CameraDiscoverySteps :
    let at_ (st : Nat) (d : Disc) : State :=
      let s := lane5 4 st [(R.CXP_CAM_CFG.LANES 1, 0), (R.CXP_CAM_CFG.LANE_BASE 1, 5), (R.LANE_L_STATUS.SIG_DET 5, 1), (R.LANE_L_STATUS.CDR_LOCK 5, 1)] {}
      { s with dtime := 500000000, cams := setNth s.cams 1 { disc := d, since := 400000000 } }
    let down := at_ 5 .idle
    let dark := lane5 1 1 [(R.CXP_CAM_CFG.LANES 1, 0), (R.CXP_CAM_CFG.LANE_BASE 1, 5)] {}
    let wait (d : Disc) : State := { dark with dtime := 100000000, cams := setNth dark.cams 1 { disc := d } }
    let cmd : Started := { ring := 2, index := 3, bytes := List.replicate 64 0, data := [], rights := 0, ethernet := false, session := 0,
                           peer := 9, peerEpoch := 0, waiting := false }
    let acc : CamAccess := { ring := 2, index := 3, read := true, since := 400000000 }
    let lane0 (d : Disc) (ids : List Nat) : State :=
      let s := (at_ 1 d).put (R.CXP_CAM_CFG.LANES 1) 1
      { s with cams := setNth s.cams 1 { disc := d, since := 400000000, deviceId := 8, conns := ids } }
    let past (s : State) : State := { s with dtime := 600000000 }
    (at_ 1 .readStd).replyLane 1 = true ∧ dark.replyLane 1 = false ∧ (at_ 1 .readStd).dtime < 400000000 + down.get R.CXP_CTL.CTRL_MS * 1000000 ∧
    400000000 + down.get R.CXP_CTL.CTRL_MS * 1000000 ≤ (past down).dtime ∧ down.dtime < 450000000 + down.get R.CXP_CTL.ALIGN_MS * 1000000 ∧
    ((lane0 (.readId 0) []).cam 1).access = none ∧ (lane0 (.readId 0) []).replyLane 1 = true ∧
    (after (.discoverLanesAligned 1) (past (at_ 1 (.align 450000000)))).get (R.CXP_CAM_STATUS.REASON 1) = 1 ∧
    ((after (.controlReply 1 true 8 0) (lane0 (.readId 0) [])).cam 1).disc = .readId 1 ∧
    (after (.controlReply 1 true 8 0) (lane0 (.readId 0) [])).flag (R.CXP_MAP.VALID 5) = true ∧
    (after (.controlReply 1 true 9 1) ((lane0 (.readId 1) [0]).put (R.LANE_L_STATUS.STATE 6) 4)).get (R.CXP_CAM_STATUS.REASON 1) = 3 ∧
    (after (.controlReply 1 true 8 2) ((lane0 (.readId 1) [0]).put (R.LANE_L_STATUS.STATE 6) 4)).get (R.CXP_CAM_STATUS.REASON 1) = 2 ∧
    ((after (.controlReply 1 true 8 1) ((lane0 (.readId 1) [0]).put (R.LANE_L_STATUS.STATE 6) 4)).cam 1).disc = .readConnDefault ∧
    ((after (.controlReply 1 true 7 0) (at_ 1 .readConnDefault)).cam 1).connDefault = 7 ∧
    ((after (.controlReply 1 true 7 0) (at_ 1 .readPacketMax)).cam 1).packetMax = 7 ∧
    (after (.controlReply 1 true 7 0) (at_ 1 .writeHost)).camState 1 = 2 ∧
    ((after (.controlReply 1 true 7 0) (at_ 1 .writeHost)).cam 1).disc = .alignAt ((at_ 1 .writeHost).groupRate 1) 500000000 ∧
    (after (.controlReply 1 true 0 0) (lane0 (.readFmt 4 8) [3, 0])).get (R.CXP_MAP.CONN 5) = 3 ∧
    (after (.controlReply 1 true 0 0) (lane0 (.readFmt 4 8) [3, 0])).flag (R.CXP_MAP.VALID 6) = true ∧
    ((after (.controlReply 1 true 7 0) (at_ 3 .readWidthAddr)).cam 1).disc = .readWidth 7 ∧
    ((after (.controlReply 1 true 7 0) (at_ 3 (.readFmtAddr 4))).cam 1).disc = .readFmt 4 7 ∧
    (after (.controlReply 1 true 7 0) (past (at_ 1 .readStd))).get (R.CXP_CAM_STATUS.REASON 1) = 7 ∧
    let cl := at_ 4 .idle
    let client := { cl with cams := setNth cl.cams 1 { access := some acc }, client := { cl.client with started := [cmd] } }
    tidy down = true ∧ down.cams.length = 16 ∧ down.camState 1 = 5 ∧ (∀ n ∈ down.camLanes 1, n < 32 ∧ down.camOfLane n = some 1) ∧
    (at_ 1 (.align 7)).groupAligned 1 = true ∧ (wait (.align 0)).groupAligned 1 = false ∧ (at_ 3 (.readWidth 4)).camState 1 ≠ 4 ∧
    (wait (.alignAt 1 0)).get (R.CXP_CAM_CFG.MIN_RATE 1) = 1 ∧ 0 + down.get R.CXP_CTL.ALIGN_MS * 1000000 ≤ (wait .idle).dtime ∧
    (Disc.readStd).waiting = true ∧ (client.cam 1).disc = .idle ∧
    client.client.started.find? (fun y => y.ring == acc.ring && y.index == acc.index) = some cmd ∧
    (after (.rediscover 1) down).camState 1 = 1 ∧ ((after (.discoverLanesAligned 1) (at_ 1 (.align 450000000))).cam 1).disc = .readStd ∧
    (after (.discoverLanesAligned 1) (at_ 3 (.alignAt 6 450000000))).get (R.CXP_CAM_TRIG_LAT.NS 1) = 1200 ∧
    (after (.discoverAlignTimeout 1) (wait (.align 0))).get (R.CXP_CAM_STATUS.REASON 1) = 1 ∧
    (after (.discoverAlignTimeout 1) (wait (.alignAt 1 0))).get (R.CXP_CAM_STATUS.REASON 1) = 4 ∧
    ((after (.discoverAlignTimeout 1) (wait (.alignAt 2 0))).cam 1).disc = .alignAt 1 100000000 ∧
    (wait (.alignAt 2 0)).camState 1 = 1 ∧
    (after (.controlReply 1 true 1 0) (at_ 1 .readStd)).get (R.CXP_CAM_STATUS.REASON 1) = 1 ∧
    ((after (.controlReply 1 true (BitVec.ofNat 32 cxpStandard) 0) (at_ 1 .readStd)).cam 1).disc = .readId 0 ∧
    (after (.controlReply 1 true 8193 0) (at_ 3 (.readWidth 4))).get (R.CXP_CAM_STATUS.REASON 1) = 5 ∧
    ((after (.controlReply 1 true 8192 0) (at_ 3 (.readWidth 4))).cam 1).disc = .readFmtAddr 4 ∧
    (after (.controlReply 1 true 0 0) (at_ 3 (.readFmt 4 8))).camState 1 = 4 ∧
    (after (.controlReply 1 true 1 0) (at_ 3 (.readFmt 4 8))).get (R.CXP_CAM_STATUS.REASON 1) = 6 ∧
    (after (.controlTimeout 1) (past (at_ 1 .readStd))).get (R.CXP_CAM_STATUS.REASON 1) = 7 ∧
    (after (.controlReply 1 true 5 0) client).client.started = [] ∧ ((after (.controlTimeout 1) (past client)).cam 1).access = none ∧
    client.replyLane 1 = true ∧ (after (.controlTimeout 1) client).client.started = [cmd] ∧
    ((after (.controlReply 1 false 5 0) client).cam 1).access = none ∧ ((after (.controlReply 1 true 5 0) (past client)).cam 1).access = none := by decide +kernel
/-! ### The field side -/

/-- A field controller in state RUN at FTIME 10 ms, outputs in MODE 1, with pulses given; DTIME 10 ms, downlink SEQ 0. -/
def fld (xs : List (Fld × Nat)) (ps : List Pulse) : State :=
  let s := mk ((R.FLD_LS_CAUSE.CAUSE, 0) :: xs)
  { s with dtime := 10000000
           field := { s.field with ftime := 10000000, mode := .run, pulses := ps, outs := List.replicate 16 { mode := 1 } } }

/-- A pulse of output 3 under tag 7 with an on edge at 11 ms and an off edge at 12 ms. -/
def pulse : Pulse := { channel := 3, tag := 7, on := 11000000, off := 12000000 }

/-- R77, R410, R413: an EDGE_NEW 500 us ahead is queued, one 1 ns sooner is rejected, and each other reason; windows at 100 us. -/
theorem witness_FieldJudgesEdgeFrames :
    let run := fld [] []
    let boot := { run with field := { run.field with mode := .boot } }
    let one := fld [] [pulse]
    let full := fld [] (List.replicate 2048 { pulse with channel := 4 })
    let near := fld [] [{ pulse with on := 10099999 }]
    let parked := fld [] [{ pulse with parked := true }]
    let fired := fld [] [{ pulse with on := 9000000, onFired := some 9000000, off := 10050000 }]
    let last (t : State) : Option UpMsg := t.link.up.getLast?.map (·.msg)
    let why (i : Instr) (s : State) : Option UpMsg := last (after i s)
    tidy run = true ∧ run.field.mode = .run ∧ (run.out 3).mode = 1 ∧ boot.field.mode ≠ .run ∧ run.field.expSeq < 65536 ∧
    diff64 10500000 run.field.ftime = 500000 ∧ (full.field.pulses.all (fun p => p.tag != 8)) = true ∧
    one.field.pulses.find? (fun x => x.tag == 7) = some pulse ∧ parked.field.pulses.find? (fun x => x.tag == 7) = some { pulse with parked := true } ∧
    (after (.edgeNew 0 3 7 10500000 10500001) run).field.pulses = [{ pulse with on := 10500000, off := 10500001 }] ∧
    (after (.edgeNew 0 3 7 10500000 10500001) run).get R.FLD_EDGEQ.PEAK = 2 ∧ (after (.edgeNew 0 3 7 10500000 10500001) run).link.up = [] ∧
    (after (.edgeNew 3 3 7 10500000 10500001) run).link.up.map (·.msg) = [.reject 2 0 0 3] ∧
    why (.edgeNew 0 3 7 10500000 10500001) boot = some (.reject 9 7 0 0) ∧ why (.edgeNew 0 3 7 10499999 10500001) run = some (.reject 3 7 0 0) ∧
    why (.edgeNew 0 3 7 10500000 10500000) run = some (.reject 4 7 0 0) ∧ why (.edgeNew 0 3 7 13000000 14000000) one = some (.reject 6 7 0 0) ∧
    why (.edgeNew 0 3 8 13000000 14000000) full = some (.reject 7 8 0 0) ∧ why (.edgeNew 0 3 8 11999999 14000000) one = some (.reject 8 8 0 0) ∧
    (after (.edgeNew 0 3 8 12000000 14000000) one).field.pulses.length = 2 ∧
    (after (.edgeCorr 0 3 7 10100000 12500000) one).field.pulses = [{ pulse with on := 10100000, off := 12500000 }] ∧
    (after (.edgeCorr 0 3 7 11000001 12500000) near).field.pulses = [{ pulse with on := 10099999, off := 12500000 }] ∧
    why (.edgeCorr 0 3 7 12000000 12000000) one = some (.reject 4 7 0 0) ∧ why (.edgeCorr 0 3 7 10499999 12000000) parked = some (.reject 3 7 0 0) ∧
    why (.edgeCorr 0 3 7 1 13000000) fired = some (.reject 10 7 0 0) ∧
    (after (.edgeCorr 0 3 7 10500000 12000000) parked).field.pulses = [{ pulse with on := 10500000 }] ∧
    (after (.edgeHold 0 3 7) one).field.pulses = [{ pulse with parked := true }] ∧ why (.edgeHold 0 3 7) near = some (.reject 10 7 0 0) ∧
    (after (.edgeCancel 0 3 7) one).field.pulses = [] ∧ why (.edgeCancel 0 3 7) near = some (.reject 10 7 0 0) ∧
    why (.edgeHold 0 3 8) one = some (.reject 5 8 0 0) := by decide +kernel

/-- R412, R417: an output with OPEN_OFF standing, its test ended by OUT_CFG, by its level and with the logic side's rails off. -/
theorem witness_FieldTakesControlFrames_open :
    let o : OutSt := { mode := 2, openEn := true, openOff := true }
    let run := fld [(R.FLD_Q_STATUS.OPEN_OFF 3, 1)] []
    let s := { run with field := { run.field with outs := setNth run.field.outs 3 o } }
    let dark := { s with boot := { s.boot with power := false } }
    let f := R.FLD_Q_STATUS.OPEN_OFF 3
    (s.out 3).openOff = true ∧ ((after (.outCfg 0 3 2 false false 30) s).out 3).openOff = false ∧
    (after (.outCfg 0 3 2 false false 30) s).flag f = false ∧ ((after (.outSet 0 8) s).out 3).openOff = false ∧
    (after (.outSet 0 8) s).flag f = false ∧ (after (.outSet 0 0) s).flag f = true ∧
    ((after (.outCfg 0 3 2 false false 30) dark).out 3).openOff = false ∧ (after (.outCfg 0 3 2 false false 30) dark).flag f = true := by
  decide +kernel

/-- R412, R416, R419, R420: a sync edge 1,000 ns off is taken and one 1,001 ns off is not; RESUME 200 us after a HEARTBEAT. -/
theorem witness_FieldTakesControlFrames :
    let run := fld [] []
    let edge := { run with field := { run.field with syncEdge := some 10000000 } }
    let flushed := { run with field := { run.field with flushed := [pulse] } }
    let hold := { run with field := { run.field with lsFaultHold := true } }
    let safe := { run with field := { run.field with mode := .safe, lastHb := some 9800000 } }
    let stale := { run with field := { run.field with mode := .safe, lastHb := some 9799999 } }
    tidy run = true ∧ run.field.outs.length = 16 ∧ run.field.ins.length = 16 ∧ run.field.syncEdge = none ∧ run.field.flushed = [] ∧
    flushed.field.flushed = [pulse] ∧ edge.field.syncEdge = some 10000000 ∧ (diff64 10001000 10000000).natAbs = 1000 ∧
    (diff64 10001001 10000000).natAbs = 1001 ∧ safe.field.mode = .safe ∧ diff64 safe.field.ftime 9800000 = 200000 ∧
    (after (.heartbeat 0 ⟨true, 10000000⟩ ⟨2400, 40, true, false⟩) run).field.lsOn = true ∧ (after (.heartbeat 0 ⟨true, 10000000⟩ ⟨2400, 40, true, false⟩) hold).field.lsOn = false ∧
    (after (.heartbeat 0 ⟨true, 10000000⟩ ⟨2400, 40, true, false⟩) run).link.up.length = 1 ∧ (after (.heartbeat 0 ⟨true, 10000000⟩ ⟨2400, 40, true, false⟩) flushed).link.up.length = 2 ∧
    (after (.heartbeat 0 ⟨false, 10001000⟩ ⟨2400, 40, true, false⟩) edge).field.ftime = 10001000 ∧ (after (.heartbeat 0 ⟨false, 9999000⟩ ⟨2400, 40, true, false⟩) edge).field.ftime = 9999000 ∧
    (after (.heartbeat 0 ⟨false, 10001001⟩ ⟨2400, 40, true, false⟩) edge).field.ftime = 10000000 ∧
    (after (.heartbeat 0 ⟨false, 10001001⟩ ⟨2400, 40, true, false⟩) edge).get R.FLD_CNT_SYNC_REJ.N = 1 ∧
    ((after (.outCfg 0 5 2 true true 30) run).out 5) = { mode := 2, safe := true, openEn := true, ovlUs := 30 } ∧
    ((after (.outSet 0 0x20) run).out 5).static = true ∧ ((after (.outSet 0 0x20) safe).out 5).heldStatic = some true ∧
    (after (.lsSet 0 true) hold).field.lsOn = true ∧ (after (.resume 0) safe).field.mode = .run ∧
    (after (.resume 0) stale).field.mode = .safe ∧ (nth (after (.inCfg 0 4 9 2) run).field.ins 4 {}).filtUs = 9 ∧
    (after .downlinkBadFrame run).link.up.map (·.msg) = [.reject 1 0 0 0] := by decide +kernel

/-- R414-R420, R422, R492: edges on their tick and 4 ns late; the off edge of a fired pulse; faults; 2 ms without a HEARTBEAT. -/
theorem witness_FieldOutputsFollowEdgesAndFaults :
    let due := fld [] [{ pulse with on := 9999997 }]
    let late := fld [] [{ pulse with on := 9999996 }]
    let off := fld [] [{ pulse with onFired := some 9000000, drove := true, off := 9999997 }]
    let idle := fld [] [pulse]
    let cfg (o : OutSt) : State := { idle with field := { idle.field with outs := setNth idle.field.outs 3 o } }
    let on := cfg { mode := 2, static := true }
    let opened := cfg { mode := 1, openEn := true }
    let seen := cfg { mode := 1, openEn := true, openOff := true }
    let hb (t : Nat) : State := { idle with field := { idle.field with lastHb := some t } }
    let supply := { on with field := { on.field with supplyLow := true } }
    let dark := { on with boot := { on.boot with power := false }, field := { on.field with offAt := some 5000000 } }
    let early := { dark with field := { dark.field with offAt := some 5000001 } }
    let lit := cfg { mode := 2, static := true, pulsed := true }
    let since (t : Nat) : State := cfg { mode := 2, static := true, onFrom := some t }
    let jumped := { due with field := { due.field with jump := some (9999000, 10000000) } }
    tidy due = true ∧ due.field.outs.length = 16 ∧ due.field.ins.length = 16 ∧ diff64 idle.field.ftime pulse.nextAt < 0 ∧
    diff64 late.field.ftime 9999996 = 4 ∧ diff64 due.field.ftime 12000000 < 0 ∧ idle.outLevel 3 = false ∧ on.outLevel 3 = true ∧
    (on.out 3).hot = false ∧ (opened.out 3).openEn = true ∧ (opened.out 3).openOff = false ∧ opened.outLevel 3 = false ∧
    (seen.out 3).openOff = true ∧ idle.field.lastHb = none ∧ diff64 idle.field.ftime 8000000 = 2000000 ∧
    diff64 idle.field.ftime 8000001 = 1999999 ∧ dark.boot.power = false ∧ on.boot.power = true ∧
    ((nth idle.field.ins 4 {}).filtAt 9900000 * 1000 : Nat) = 100000 ∧
    (after .edgeFire due).field.pulses = [{ pulse with on := 9999997, onFired := some 9999997, drove := true }] ∧
    (after .edgeFire due).outLevel 3 = true ∧
    (after .edgeFire late).field.pulses = [{ pulse with on := 9999996, onFired := some 10000000, drove := true, late := true }] ∧
    (after .edgeFire off).link.up.map (·.msg) = [.edgeDone 3 0 7 9000000 9999997] ∧ (after .edgeFire off).field.pulses = [] ∧
    (after (.overload 3) on).outLevel 3 = false ∧ (after (.overload 3) on).get (R.FLD_Q_FAULTS.N 3) = 1 ∧
    (after (.overtemp 3 true) on).flag (R.FLD_Q_STATUS.OVERTEMP 3) = true ∧
    (after (.overtemp 3 true) (cfg { mode := 2, hot := true })).flag (R.FLD_Q_STATUS.OVERTEMP 3) = false ∧
    ((after (.overtemp 3 false) (cfg { mode := 2, hot := true })).out 3).hot = false ∧ idle.field.mode = .run ∧
    (after .heartbeatLoss { hb 8000000 with field := { (hb 8000000).field with mode := .safe } }).field.pulses = [pulse] ∧
    (after (.openOff 3 true) opened).flag (R.FLD_Q_STATUS.OPEN_OFF 3) = true ∧ (after (.openOn 3) on).regs = on.regs ∧
    (after (.openOn 3) lit).outLevel 3 = true ∧ (after (.openOn 3) lit).flag (R.FLD_Q_STATUS.OPEN_ON 3) = true ∧
    (after (.openOn 3) (since 9000000)).get (R.FLD_Q_FAULTS.N 3) = 1 ∧ (after (.openOn 3) (since 9000001)).get (R.FLD_Q_FAULTS.N 3) = 0 ∧
    ((after .edgeFire jumped).field.pulses.map (fun p => (p.late, p.onFired))) = [(true, some 10000000)] ∧
    (after .holdUpEnd early).field.pulses = [pulse] ∧
    (after .heartbeatLoss (hb 8000000)).field.mode = .safe ∧ (after .heartbeatLoss (hb 8000000)).field.flushed = [pulse] ∧
    (after .heartbeatLoss (hb 8000001)).field.mode = .run ∧ (after .supplyLow on).outLevel 3 = false ∧
    (after .supplyLow on).get R.FLD_LS_CAUSE.CAUSE = 128 ∧ (after .fieldSupplyReturn supply).flag R.FLD_STATUS.SUPPLY_LOW = false ∧
    (after .lsFault on).flag R.FLD_STATUS.LS_FAULT = true ∧ (after .holdUpEnd dark).field.pulses = [] ∧
    (nth (after (.inputConfirm 4 true 9900000) idle).field.ins 4 {}).level = true ∧
    (nth (after (.inputConfirm 4 true 9900001) idle).field.ins 4 {}).level = false := by decide +kernel

/-- R74, R407, R410, R420-R425: heartbeats at 100 us, reports, a retransmitted LS_SET, causes, RESUME and a closed window. -/
theorem witness_LogicSideOfTheFieldLink :
    let s := fld [] []
    let odd := { s with dtime := 10000001 }
    let ran := { s with link := { s.link with lastFstate := 1 } }
    let heard (t : Nat) : State := { s with link := { s.link with lastStatus := some t } }
    let src : EdgeSrc := { owner := some 5, onPos := 0, offPos := none, width := 10 }
    let f : Frame := { tag := 7, channel := 3, srcs := [src], on := 1, off := 2, behind := none, minOff := 0 }
    let armed := { s with seq := { s.seq with frames := [f], parts := [(5, { core := { state := .armed } })] } }
    let sent (m : DownMsg) : State := { s with link := { s.link with sent := [(⟨9, m⟩, .first)] } }
    let ready := { s with link := { s.link with lastStatus := some 9800000, lastStatusHb := some 9, sent := [(⟨9, .heartbeat true 0⟩, .first)] } }
    let stopped := fld [(R.FLD_LS_CAUSE.CAUSE, 2), (R.POS_STATUS.POS_LOST, 1)] []
    let window := { fld [(R.AUD_AC_CFG.DELAY_US 3, 10), (R.AUD_AC_WIN.WIN_US 3, 20)] [] with
      link := { s.link with acWindows := [(3, 9970000, [])] }, dtime := 10000000 }
    let opened := { window with dtime := 9999999 }
    let dark := { heard 8000000 with boot := { s.boot with power := false } }
    let held := { s with boot := { s.boot with tap := { s.boot.tap with instr := .extest } } }.drop R.GLB_STATUS.READY
    let down (t : State) : List DownMsg := t.link.down.map (·.msg)
    tidy s = true ∧ s.boot.power = true ∧ s.flag R.GLB_STATUS.READY = true ∧ s.dtime % 100000 = 0 ∧ s.link.lastSyncDtime = none ∧
    odd.dtime % 100000 ≠ 0 ∧ diff64 s.dtime 8000000 = 2000000 ∧ (s.seq.frames = []) ∧
    armed.seq.frames.find? (fun f => f.tag == 7) = some f ∧ (armed.part 5).core.state = .armed ∧ armed.flag (R.AUD_AC_CFG.ENABLE 3) = false ∧
    (sent (.lsSet true)).link.sent.find? (fun f => f.1.seq == 9) = some (⟨9, .lsSet true⟩, .first) ∧ s.resumeOk = false ∧
    ready.resumeOk = true ∧ window.link.acWindows = [(3, 9970000, [])] ∧ window.acEnd 3 9970000 = 10000000 ∧
    (after .uplinkLost dark).flag R.FLD_STATUS.UPLINK_LOST = false ∧ (after .syncEdgeSend dark).link.down = [] ∧
    held.pinsTaken = true ∧ (after .syncEdgeSend held).link.down = [] ∧ (after .syncEdgeSend held).link.downSeq = 1 ∧
    down (after .syncEdgeSend s) = [.heartbeat true 10000000] ∧ (after .syncEdgeSend odd).link.down = [] ∧
    (after (.status 0 2 0 0 24000 40 true true 0 0) ran).get R.FLD_LS_CAUSE.CAUSE = 512 ∧
    (after (.status 0 2 0 0 24000 40 true true 0 0) ran).get R.FLD_SUPPLY.SUPPLY = 24000 ∧
    (after (.inputEdge 0 4 true 0) s).link.inputs = 16 ∧ (after .uplinkCrcError s).get R.FLD_CNT_UP_CRC.N = 1 ∧
    (after .uplinkLost (heard 8000000)).flag R.FLD_STATUS.UPLINK_LOST = true ∧
    (after .uplinkLost (heard 8000001)).flag R.FLD_STATUS.UPLINK_LOST = false ∧
    (after (.edgeDone 0 3 0 7 1 2) s).get (R.FLD_Q_PULSES.N 3) = 1 ∧ ((after (.edgeDone 0 3 1 7 1 2) armed).part 5).core.flags = 1 ∧
    ((after (.edgeDone 0 3 0 7 1 2) armed).part 5).core.state = .free ∧
    down (after (.reject 0 1 0 9 0) (sent (.lsSet true))) = [.lsSet true] ∧
    (after (.reject 0 3 7 9 0) (sent (.edgeNew 3 7 1 2))).get R.FLD_CNT_REJECT.N = 1 ∧
    (after (.reject 0 3 7 9 0) (sent (.edgeNew 3 7 1 2))).get R.FLD_LS_CAUSE.CAUSE = 128 ∧
    (after (.lsCauseClear 0x7FF) stopped).get R.FLD_LS_CAUSE.CAUSE = 0 ∧
    (after (.lsCauseClear 0x7FF) (stopped.put R.FLD_LS_CAUSE.CAUSE.onTick 2)).get R.FLD_LS_CAUSE.CAUSE = 2 ∧ down (after (.lsCauseClear 0x7FF) stopped) = [.lsSet true] ∧
    (after .fldStop s).get R.FLD_LS_CAUSE.CAUSE = 2 ∧ down (after .fldStop s) = [.lsSet false] ∧
    (after .fldResume s).link.down = [] ∧ (after .fldResume ready).link.down.length = 33 ∧
    down (after (.fldOutSetWrite 5) s) = [.outSet 5] ∧ (after .acJudge window).get R.AUD_CNT_AC_FAIL.N = 1 ∧
    (after .acJudge window).get R.AUD_CNT_NOFRAME.N = 1 ∧ (after .acJudge opened).link.acWindows.length = 1 := by decide +kernel
/-! ### Sync objects and adaptation -/

/-- A started descriptor of ring 2, index 3, of an operation with PARAM bytes 24 to 63. -/
def cmd (op : Nat) (param : List Byte) : Started :=
  { ring := 2, index := 3, bytes := ([BitVec.ofNat 8 op] ++ List.replicate 23 0 ++ param ++ List.replicate 40 0).take 64, data := []
    rights := 0xFF, ethernet := false, session := 0, peer := 9, peerEpoch := 0, waiting := false }

/-- A module at DTIME 10 ms with object 4 and the descriptors started given. -/
def so4 (x : SyncObj) (ds : List Started) : State :=
  { served with dtime := 10000000, sync := { served.sync with objs := [(4, x)] }, client := { served.client with started := ds } }

/-- The argument of SO_SIGNAL or SO_WAIT on object 4. -/
def arg4 (a : Nat) : List Byte := [4, 0, 0, 0, 0, 0, 0, 0] ++ leBytes 8 a

/-- The configuration of an object of a type that every partition may use (R340). -/
def anyPart (type : Nat) : SoCfg := { type := type, cross := true, access := 255 }

/-- Whichever partition a ring's requests stand for, it may use such an object. -/
theorem may_any {s : State} {n o : Nat} (hc : (s.so o).cfg.cross = true) (ha : (s.so o).cfg.access = 255) :
    s.clientMay n o = true := by
  unfold State.clientMay
  cases Config.clientPart n with
  | none => simp
  | some p =>
    simp only [SyncObj.allowed, hc, ha, Bool.true_and, Bool.or_eq_true]
    exact Or.inr (Or.inr (by revert p; decide))

/-- R340: of the ring's partition, one that neither owns the object nor stands in ACCESS may not use it. -/
theorem may_not {s : State} {n o : Nat} {p : Fin 8} (h : Config.clientPart n = some p) (ht : (s.so o).cfg.type ≠ 0)
    (ha : (s.so o).allowed p.val = false) : s.clientMay n o = false := by
  unfold State.clientMay
  simp [h, ht, ha]

/-- SO_SIGNAL and SO_WAIT of ring 2, index 3, on an object that the ring's partition may use. -/
def signalled (s : State) : State :=
  match s.startedAs 2 3 0x31 with
  | none => s
  | some d =>
    let s := s.expireDue
    ((s.signal (.client d.ring d.index) (d.param 24 2) (d.param 32 8)).settle).complete d
      (if (s.so (d.param 24 2)).signalArgOk (d.param 32 8) then .ok else .soBadArg) 0

def waited (s : State) : State :=
  match s.startedAs 2 3 0x30 with
  | none => s
  | some d =>
    let s := s.expireDue
    let ds := s.client.started.map (fun x => if x == d then { x with waiting := true } else x)
    ({ s with client := { s.client with started := ds } }.arriveWait (.client d.ring d.index) (d.param 24 2) (d.param 32 8)).settle

/-- That wait once the sync unit takes it, as the tick ends. -/
def went (s : State) : State := (waited s).waitsStep

theorem after_soSignal {s : State} {d : Started} (h : s.startedAs 2 3 0x31 = some d)
    (hm : s.expireDue.clientMay d.ring (d.param 24 2) = true) : after (.soSignal 2 3) s = signalled s := by
  simp [after, exec, execSoSignal, signalled, h, hm]

theorem after_soWait {s : State} {d : Started} (h : s.startedAs 2 3 0x30 = some d)
    (hm : s.expireDue.clientMay d.ring (d.param 24 2) = true) : after (.soWait 2 3) s = waited s := by
  simp [after, exec, execSoWait, waited, h, hm]

theorem witness_SignalsFollowTheObjectType_open :
    let s := so4 { cfg := anyPart 1, value := 5 } [cmd 0x31 (arg4 1)]
    let w := so4 { cfg := anyPart 1, value := 5 } [cmd 0x30 (arg4 5)]
    let shut := so4 { cfg := { type := 1, owner := 3 } } [cmd 0x31 (arg4 1)]
    after (.soSignal 2 3) s = signalled s ∧ s.clientMay 2 4 = true ∧ after (.soWait 2 3) w = waited w ∧ w.clientMay 2 4 = true ∧
    (Config.clientPart 2 = some 1 → shut.clientMay 2 4 = false) :=
  ⟨after_soSignal (d := cmd 0x31 (arg4 1)) (by decide +kernel) (may_any (by decide +kernel) (by decide +kernel)),
    may_any (by decide +kernel) (by decide +kernel),
    after_soWait (d := cmd 0x30 (arg4 5)) (by decide +kernel) (may_any (by decide +kernel) (by decide +kernel)),
    may_any (by decide +kernel) (by decide +kernel),
    fun h => may_not h (by decide +kernel) (by decide +kernel)⟩

/-- R333-R337, R344: each type, at the ends of its range. -/
theorem witness_SignalsFollowTheObjectType :
    let go (x : SyncObj) (a : Nat) : State := signalled (so4 x [cmd 0x31 (arg4 a)])
    let val (x : SyncObj) (a : Nat) : Int := ((go x a).so 4).value
    let sem (v : Int) : SyncObj := { cfg := anyPart 1, value := v }
    let cnt (v : Int) : SyncObj := { cfg := anyPart 2, value := v }
    let bar : SyncObj := { cfg := { anyPart 3 with init := 3 }, value := 1 }
    let s := so4 (sem 5) [cmd 0x31 (arg4 1)]
    let pr : Pair := ⟨⟨0, 0, [], [], 0, 0, 0, false, (0, 0), (0, 0), (0, 0), (0, 0), (0, 0), (0, 0)⟩, ⟨0, 0, [], []⟩, 0⟩
    let l : ListCtx := { job := 0, pair := pr, kind := .setup, pc := 64, waiting := true }
    let held := { so4 { sem 5 with waiters := [⟨.core 2, 6, none⟩] } [cmd 0x31 (arg4 1)] with lists := [(2, l)] }
    tidy s = true ∧ still s = true ∧ s.sync.holds = [] ∧ s.startedAs 2 3 0x31 = some (cmd 0x31 (arg4 1)) ∧
    (cmd 0x31 (arg4 1)).param 24 2 = 4 ∧ (cmd 0x31 (arg4 0x100000000)).param 32 8 = 0x100000000 ∧
    (s.so 4).signalArgOk 0 = false ∧ (s.so 4).signalArgOk 0x100000000 = false ∧ (s.so 4).signalArgOk 0xFFFFFFFF = true ∧
    ((so4 (cnt 0) []).so 4).signalArgOk 0x1FFFFFFFF = true ∧ bar.signalArgOk 1 = false ∧ bar.signalArgOk 0 = true ∧
    (s.so 4).waiters = [] ∧ held.list 2 = some l ∧ (held.so 4).waiters = [⟨.core 2, 6, none⟩] ∧
    (go (sem 5) 0).get R.STG_SO_CNT_BADARG.N = 1 ∧ (go { sem 5 with broken := true } 1).get R.STG_SO_CNT_BROKEN.N = 1 ∧
    val (sem 5) 7 = 12 ∧ val (sem 5) 0xFFFFFFFF = 0xFFFFFFFF ∧ (go (sem 5) 0xFFFFFFFF).get R.STG_SO_CNT_SAT.N = 1 ∧
    still held = true ∧ ((signalled held).so 4).value = 0 ∧ ((signalled held).list 2).map (·.pc) = some 96 ∧
    val (cnt 5) 0xFFFFFFFE = 3 ∧ val (cnt 5) 0x1FFFFFFFE = -2 ∧ val (cnt (2 ^ 63 - 1)) 1 = 2 ^ 63 - 1 ∧ val bar 0 = 2 ∧
    val { bar with value := 2 } 0 = 0 ∧ ((go { bar with value := 2 } 0).so 4).gen = 1 ∧
    (go (sem 5) 1).client.started = [] := by decide +kernel

/-- R342, R347: the list of core 5 in job 6 loses its hold, and no other list does. -/
theorem witness_WaitsHoldsAndWindow_core :
    let l : ListCtx := { job := 6, pair := ⟨⟨0x4000, 0x1000, [], [], 0, 0, 0, false, (0x40, 0x40), (0x100, 0x200), (0, 0), (0, 0), (0, 0),
      (0, 0)⟩, ⟨0, 0, [], []⟩, 0⟩, kind := .setup, pc := 0 }
    let s := so4 { cfg := { type := 1, holding := true, holdUs := 30 } } []
    let s := { s with sync := { s.sync with holds := [⟨.core 5, 4, 1, 9970000⟩] }, lists := [(5, l), (7, l)] }
    let t := after .holdExpire s
    s.agentJob (.core 5) = some 6 ∧ s.cores.length = 16 ∧ still s = true ∧ (t.so 4).broken = true ∧ t.list 5 = none ∧
    (t.core 5).setupDue = true ∧ t.get (R.STG_JOB_STATUS.FAULT 6) = 6 ∧ t.list 7 = some l := by decide +kernel

/-- R333-R338, R342, R345, R379: units there and not there, TMO of 20 us, a hold of 30 us that a client and a thread have. -/
theorem witness_WaitsHoldsAndWindow :
    let d (a : Nat) : Started := cmd 0x30 (arg4 a)
    let go (x : SyncObj) (a : Nat) : State := went (so4 x [d a])
    let sem (v : Int) : SyncObj := { cfg := anyPart 1, value := v }
    let ev : SyncObj := { cfg := anyPart 4, value := 7 }
    let cnt : SyncObj := { cfg := anyPart 2, value := 4 }
    let bar : SyncObj := { cfg := { anyPart 3 with init := 3 }, value := 1 }
    let s := so4 (sem 5) [d 5]
    let late := so4 { sem 5 with waiters := [⟨.client 2 3, 9, some 10000000⟩] } [{ d 9 with waiting := true }]
    let early := { late with dtime := 9999999 }
    let h (a : Agent) : Hold := ⟨a, 4, 1, 9970000⟩
    let hold (a : Agent) : State :=
      let s := so4 { cfg := { type := 1, holding := true, holdUs := 30 } } []
      { s with sync := { s.sync with holds := [h a] } }
    let thr : Thread := { g := List.replicate 32 0, pc := 0, job := 6, part := 1, launch := 0, nd := false }
    let t := { hold (.thread 1 8) with flock := { served.flock with threads := [(4104, thr)] } }
    let win := fill (so4 { sem 5 with cfg := { type := 1, owner := 3, holdUs := 30, init := 9 } } []) [(R.STG_SO_IDX.INDEX, 4)]
    let frozen := win.raise R.STG_STATUS.FROZEN
    tidy s = true ∧ still s = true ∧ s.startedAs 2 3 0x30 = some (d 5) ∧ s.client.started = [d 5] ∧ (sem 5).waitArgOk 0 = false ∧
    (sem 5).waitArgOk 1 = true ∧ counterMet 5 5 = true ∧ counterMet 4 5 = false ∧ firesPassed 7 6 = true ∧ firesPassed 7 7 = false ∧
    (waited s).sync.arriving = [(.client 2 3, 4, 5)] ∧ (waited s).boot.power = true ∧
    (waited s).client.started.find? (fun y => y.ring == 2 && y.index == 3) = some { d 5 with waiting := true } ∧
    late.client.started.find? (fun y => y.ring == 2 && y.index == 3) = some { d 9 with waiting := true } ∧
    (hold (.client 2 0)).sync.holds = [h (.client 2 0)] ∧ 9970000 + ((hold (.client 2 0)).so 4).cfg.holdUs * 1000 = 10000000 ∧
    t.thread 1 8 = some thr ∧ t.flock.launches = [] ∧ win.boot.power = true ∧ win.flag R.GLB_STATUS.READY = true ∧
    win.flag R.STG_CTL.VIEW = false ∧ frozen.flag R.STG_STATUS.FROZEN = true ∧ s.holdDue = none ∧
    (go cnt 4).client.started = [] ∧ ((go cnt 5).so 4).waiters.length = 1 ∧ ((go bar 0).so 4).value = 2 ∧
    ((go bar 0).so 4).waiters.length = 1 ∧
    ((go (sem 5) 5).so 4).value = 0 ∧ (go (sem 5) 5).client.started = [] ∧ (go (sem 5) 0).client.started = [] ∧
    ((go (sem 4) (5 + 2 * 2 ^ 48)).so 4).waiters = [⟨.client 2 3, 5 + 2 * 2 ^ 48, some 10020000⟩] ∧
    (go { sem 5 with broken := true } 1).client.started = [] ∧ (go ev 6).client.started = [] ∧ ((go ev 7).so 4).waiters.length = 1 ∧
    ((after (.waitTimeout 4) late).so 4).waiters = [] ∧ (after (.waitTimeout 4) late).client.started = [] ∧
    ((after (.waitTimeout 4) early).so 4).waiters.length = 1 ∧ ((after .holdExpire (hold (.client 2 0))).so 4).broken = true ∧
    (after .holdExpire { hold (.client 2 0) with dtime := 9999999 }).sync.holds.length = 1 ∧
    (after .holdExpire t).thread 1 8 = none ∧ (after .holdExpire t).get (R.STG_JOB_STATUS.FAULT 6) = 6 ∧
    (after (.soSelect 4) win).get R.STG_SO_CFG.OWNER = 3 ∧ (after (.soSelect 4) win).get R.STG_SO_INIT.INIT = 9 ∧
    (after (.soRestage 0x1E0001) frozen).get R.STG_CNT_FROZEN.N = 1 ∧
    keyGet (after (.soRestage 0x1E0001) win).stage.sos 4 = some { type := 1, holdUs := 30, init := 9 } := by decide +kernel

/-- A module with fields set and region 0 of partition 0: channel 0, 64 KiB, at address 0; bytes stored at addresses. -/
def ram (xs : List (Fld × Nat)) (ms : List (Nat × List Byte)) : State :=
  ms.foldl (fun s m => poke s m.1 m.2)
    (mk ([(R.CEL_REG_CFG.ENABLE 0, 1), (R.CEL_REG_CHAN.N 0, 1), (R.CEL_REG_PAGES.PAGES 0, 1)] ++ xs))

/-- A KTR file (R285, R286): one plane of two 8-bit samples in one tile of 2 x 1. -/
def ktr : List Byte :=
  let h : List Byte := [0x4B, 0x54, 0x52, 0x31, 1, 0, 1, 1, 2, 0, 0, 0, 1, 0, 0, 0, 8, 0, 8, 0] ++ List.replicate 40 0
  h ++ leBytes 4 (crc32 h) ++ ([0xA1, 0xA2] : List Byte) ++ List.replicate 62 0

/-- A due run of three samples in batches of two, with queue objects 5 and 6, each sample the file `ktr`. -/
def dueRun : State :=
  let cfg := [(R.ADP_IN_CFG.ENABLE, 1), (R.ADP_IN_CFG.BATCH, 2), (R.ADP_IN_CFG.QDEPTH, 4), (R.ADP_IN_COUNT.N, 3), (R.ADP_IN_SO.READY, 5),
    (R.ADP_IN_SO.FREE, 6), (R.ADP_IN_EPOCHS.N, 1), (R.ADP_IN_SLOT.UNITS, 1), (R.ADP_IN_BUDGET.N, 100), (R.ADP_IN_LOW.LOW_WATER, 0), (R.ADP_IN_Q_LO.N, 8192)]
  let desc : List Byte := leBytes 8 256 ++ leBytes 4 128 ++ List.replicate 20 0
  let s := ram cfg [(0, desc), (32, desc), (64, desc), (256, ktr)]
  { s with sync := { s.sync with objs := [(5, { cfg := { type := 1 } }), (6, { cfg := { type := 1 } })] }
           adp := { s.adp with runDue := true } }

/-- R290, R293-R295: a run of three samples in batches of two starts, takes a unit of FREE, and ends a sample with OK. -/
theorem witness_InputPipelineRuns :
    let s := { dueRun with adp := { dueRun.adp with runDue := false } }
    let run := after .inputRunStart dueRun
    let asks := after .sampleDecodeStart run
    let one := after .sampleDecodeStart asks.waitsStep
    let dry := run.setSo 6 { run.so 6 with value := 0 }
    let d : Decode := { batch := 0, slot := 0, sample := perm 0 0 3 0 }
    tidy dueRun = true ∧ tidy one = true ∧ still dueRun = true ∧ still one = true ∧ one.get R.ADP_IN_LOW.LOW_WATER = 0 ∧ run.flag R.ADP_IN_STATUS.RUNNING = true ∧
    (List.range 8).all (fun p => !one.flag (R.STG_PTN_STATUS.DEFERRED p)) = true ∧
    s.adp.runDue = false ∧ dueRun.flag R.ADP_IN_CFG.ENABLE = true ∧ (s.sync.objs.all (fun e => e.2.waiters.isEmpty)) = true ∧
    run.adp.n = 3 ∧ run.get R.ADP_IN_POS_NOW.N = 0 ∧ (run.so 6).value = 4 ∧ run.adp.engines.findIdx? (·.isNone) = some 0 ∧
    run.inSpent = false ∧ run.inPositions = 3 ∧ run.adp.freeTaken = run.adp.batchesBegun ∧ run.adp.waitingFree = false ∧
    (run.so 6).cfg.type = 1 ∧ (run.so 6).waiters = [] ∧ asks.adp.waitingFree = true ∧
    asks.sync.arriving = [(.inputPipe, 6, 1)] ∧ asks.boot.power = true ∧ asks.waitsStep.adp.waitingFree = false ∧
    asks.waitsStep.adp.batchesBegun < asks.waitsStep.adp.freeTaken ∧ (one.so 6).value = 3 ∧ one.adp.engines = [some d, none, none, none] ∧
    one.adp.engines.findIdx? (·.isNone) = some 1 ∧ one.get R.ADP_IN_POS_NOW.N % 2 = 1 ∧ (after .sampleDecodeStart dry).adp.waitingFree = true := by decide +kernel

theorem witness_InputPipelineRuns_ends :
    let one := after .sampleDecodeStart (after .sampleDecodeStart (after .inputRunStart dueRun)).waitsStep
    let d : Decode := { batch := 0, slot := 0, sample := perm 0 0 3 0 }
    let out := one.decodeOf d
    let fin := after (.sampleDecodeDone 0 99) one
    let stored := out.2.2.storeAll .inputPipe (out.2.2.batchAddr 0 + out.2.2.inHeader) out.1.writes
    let t := stored.2
    tidy t = true ∧ stored.1 = true ∧ t.regs = one.regs ∧
    (out.2.2.storeAll .inputPipe (out.2.2.batchAddr 0 + out.2.2.inHeader) (out.1.writes.take 1)).1 = true ∧
    one.adp.engines.length = 4 ∧ nth one.adp.engines 0 none = some d ∧ nth one.adp.engines 1 none = none ∧ out.1.status = .ok ∧
    out.1.writes = [(0, [0xA1]), (1, [0xA2])] ∧ out.2.2.budget out.2.1 = 100 ∧ t.adp = one.adp ∧ t.sync = one.sync ∧
    one.adp.batches.map (fun b => (b.q, b.count, b.done)) = [(0, 2, [])] ∧
    fin.get R.ADP_IN_CNT_OK.N = 1 ∧ nth fin.adp.engines 0 none = none ∧ fin.modBytes 12288 2 = [0xA1, 0xA2] ∧
    (after (.sampleDecodeDone 0 100) one).get R.ADP_IN_CNT_OK.N = 0 ∧
    (after (.decodeBudgetExpire 0 1) one).get R.ADP_IN_CNT_TIMED_OUT.N = 1 ∧
    (after (.decodeBudgetExpire 0 1) one).modBytes 12288 2 = [0xA1, 0] := by decide +kernel

/-- R298-R301, R424: a frame of 256 samples with a short one and an empty band; a request served and one with another job. -/
theorem witness_FeaturesAndPublication :
    let cfg := [(R.ADP_AUD_CFG.ENABLE 1, 1), (R.ADP_AUD_CFG.FFT 1, 0), (R.AUD_A_CFG.ENABLE 1, 1), (R.ADP_AUD_BAND.K0 1 2, 9), (R.ADP_AUD_BAND.K1 1 2, 8)]
    let s := ram cfg []
    let priv := { ram (cfg ++ [(R.ADP_AUD_CFG.PRIV 1, 1), (R.ADP_AUD_RING_LO.N 1, 1024), (R.ADP_AUD_COUNT.N 1, 4), (R.ADP_AUD_SO.SO 1, 4)]) [] with
      sync := { s.sync with objs := [(4, { cfg := { type := 1 } })] } }
    let frame (n : Nat) : Instr := .featureFrame 1 7 9 (List.replicate n (0x80000012 :: List.replicate 7 0)) (List.replicate n 1)
    let other := after (.featureFrame 1 7 9 (List.replicate 256 (List.replicate 8 5)) (List.replicate 256 0xFE)) s
    let later := { s with aud := { s.aud with tails := setNth s.aud.tails 1 (List.replicate 256 (1, false)) } }
    tidy s = true ∧ still s = true ∧ s.flag (R.ADP_AUD_CFG.ENABLE 0) = false ∧ s.flag (R.ADP_AUD_CFG.ENABLE 1) = true ∧
    s.aud.next.length = 4 ∧ s.flag (R.ADP_AUD_CFG.PRIV 1) = false ∧ priv.flag (R.ADP_AUD_CFG.PRIV 1) = true ∧ s.pubDue = false ∧
    s.aud.tails.length = 4 ∧ nth s.aud.tails 1 [] = [] ∧ (nth later.aud.tails 1 []).length = 256 ∧ later.aud.next.length = 4 ∧
    nth (after (frame 64) later).aud.tails 1 [] = List.replicate 128 (1, false) ++ List.replicate 64 (-8388608, false) ++ List.replicate 64 (0, true) ∧
    (after (.supFault 5) s).get R.AUD_STATUS.SUP_FAULT = 5 ∧
    (after (frame 256) s).aud.feats.map (fun f => (f.1, f.2.start, f.2.gap, f.2.clip, nth f.2.bands 2 1)) = [(1, 7, false, true, 0)] ∧
    (after (frame 255) s).aud.feats.map (fun f => f.2.gap) = [true] ∧ other.aud.feats.map (fun f => (f.2.gap, f.2.clip)) = [(true, false)] ∧
    (after (frame 256) (s.put R.AUD_STATUS.SUP_FAULT 2)).aud.feats.map (fun f => f.2.gap) = [true] ∧ (after (frame 256) s).flag (R.ADP_AUD_STATUS.CLIP_SEEN 1) = true ∧
    ((after (frame 256) priv).so 4).value = 1 ∧ (after (frame 256) priv).modBytes 1024 1 = [7] := by decide +kernel

/-- R298, R299: a publication request that passes, and one that names another job. -/
theorem witness_FeaturesAndPublication_more :
    let w : List Byte := [0x4B, 0x57, 0x53, 0x31, 0, 0, 0, 0] ++ leBytes 8 64 ++ List.replicate 48 0
    let rec_ (job : Byte) : List Byte := leBytes 8 1024 ++ leBytes 8 64 ++ [job] ++ List.replicate 7 0
    let pub (job : Byte) : State :=
      let s := ram [(R.ADP_PUB_CFG.ENABLE, 1), (R.ADP_PUB_CFG.JOB, 2), (R.ADP_PUB_SO.REQ, 5), (R.ADP_PUB_SO.DONE, 6),
        (R.ADP_PUB_REC_LO.N, 512), (R.STG_JOB_STATUS.STATE 2, 2), (R.STG_PTN_AREA_LO.N 0, 4096), (R.STG_PTN_AREA_PAGES.PAGES 0, 1)]
        [(512, rec_ job), (1024, w)]
      let pr : Pair := ⟨⟨8192, 64, [], List.replicate 32 0, 0, 0, 0, false, (0, 0), (0, 0), (0, 0), (0, 0), (0, 0), (0, 0)⟩, ⟨0, 0, [], []⟩, 0⟩
      { s with sync := { s.sync with objs := [(5, { cfg := { type := 2 }, value := 1 }), (6, { cfg := { type := 1 } })] }
               jobs := [(2, { pair := some pr })] }
    let good := pub 2
    let fin := after .publicationServe good
    let v := good.pubRead.2
    let staged := ({ v with adp := { v.adp with served := 1 } }).stageWeights 2 w
    tidy good = true ∧ still good = true ∧ good.pubDue = true ∧ good.sync.holds = [] ∧
    (pub 1).pubRead.2.pubRecord.job ≠ (pub 1).get R.ADP_PUB_CFG.JOB ∧ (good.so 6).cfg.type = 1 ∧ v.pubReason v.pubRecord = 0 ∧
    good.flag R.ADP_PUB_CFG.AUTO = false ∧ v.pubRecord.waddr = 1024 ∧ v.pubRecord.wbytes = 64 ∧ v.modBytes 1024 64 = w ∧ v.pubRecord.job = 2 ∧
    staged.1 = .ok ∧ still staged.2 = true ∧ staged.2.sync = v.sync ∧
    staged.2.regs = v.regs ∧ good.pubRead.1 = true ∧ (pub 1).pubRead.1 = true ∧ ((pub 1).pubRead.2.so 6).value = 0 ∧
    (after .publicationServe (pub 1)).get R.ADP_PUB_STATUS.REASON = 1 ∧ ((after .publicationServe (pub 1)).so 6).value = 1 ∧
    fin.get R.ADP_PUB_STATUS.COUNT = 1 ∧ (fin.so 6).value = 1 ∧ keyGet fin.stage.weights 2 = some (weightRef 4096 w) := by decide +kernel
/-! ### Client rings and sessions -/

/-- The configuration of a PCI Express ring of 16 entries at a base. -/
def rcfg (kind base : Nat) : RingCfg :=
  { kind := kind, log2 := 4, ethernet := false, peer := 9, session := 0, job := 0, allJobs := false, rejectsOnly := false, base := base
    vector := 5, ien := false, holdoffUs := 7 }

/-- A module at DTIME 10 s with rings, started descriptors and sessions. -/
def rings (xs : List (Fld × Nat)) (rs : List (Nat × RingSt)) (ds : List Started) (ks : List (Nat × Session)) : State :=
  let s := mk xs
  { s with dtime := 10000000000, client := { s.client with rings := rs, started := ds, sessions := ks } }

/-- Descriptor 3 of ring 2 with OP and FLAGS. -/
def dsc (op flags : Nat) : Started :=
  { cmd op [] with bytes := [BitVec.ofNat 8 op, BitVec.ofNat 8 flags] ++ List.replicate 62 0 }

/-- R350, R352, R359, R363: PROD 17 puts the completion at place 1; NO_COMP, a stale PEER, an interrupt and one held back. -/
theorem witness_CompletionsGoToThePeer :
    let r : RingSt := { cfg := rcfg 2 4096, prod := 17, cons := 10 }
    let d := dsc 0 0
    let s (r : RingSt) : State := rings [] [(9, r)] [d] []
    let irq : RingSt := { r with cfg := { rcfg 2 4096 with ien := true } }
    let held : RingSt := { irq with irqAfter := 10000000001 }
    let t := (s r).complete d .aborted 0x1122
    tidy (s r) = true ∧ (s r).ring d.peer = some r ∧ bit (dsc 0 2).flags 1 = true ∧ bit d.flags 1 = false ∧ r.epoch = d.peerEpoch ∧
    ({ r with epoch := 1 } : RingSt).epoch ≠ d.peerEpoch ∧ r.room ≠ 0 ∧ r.cfg.base + r.entries * 32 + 64 ≤ 2 ^ 64 ∧
    irq.irqAfter ≤ (s irq).dtime ∧ (s held).dtime < held.irqAfter ∧
    t.hostRead (4096 + 32) 32 = [0x07, 0x01, 0, 0, 0, 0, 0, 0, 2, 0, 0, 0, 3, 0, 0, 0, 0x22, 0x11, 0, 0, 0, 0, 0, 0, 0, 0xE4, 0x0B, 0x54, 2, 0, 0, 0] ∧
    t.hostRead (4096 + 512) 8 = [18, 0, 0, 0, 0, 0, 0, 0] ∧ t.client.started = [] ∧ t.client.irqs = [] ∧
    ((s irq).complete d .ok 0).client.irqs = [(5, 10000000000)] ∧ ((s held).complete d .ok 0).client.irqs = [] ∧
    ((s r).complete (dsc 0 2) .ok 0).host = [] ∧ ((s { r with epoch := 1 }).complete d .ok 0).host = [] := by decide +kernel

/-- R351-R353, R363, R365: an enable with LOG2_ENTRIES 4 and one with 3; a doorbell of 16 ahead and one of 17. -/
theorem witness_RingsEnableStopAndRing :
    let cmpl : RingSt := { cfg := rcfg 2 4096, prod := 5, cons := 2 }
    let sub : RingSt := { cfg := rcfg 1 8192, prod := 2, fetched := 2 }
    let regs := [(R.RING_BASE_LO.BASE 2, 8192), (R.RING_LINK.PEER 2, 9)]
    let s := rings regs [(9, cmpl)] [] []
    let go := after (.ringEnable 2 none (1 + 4 * 8)) s
    let on (r : RingSt) : State := rings regs [(2, r), (9, cmpl)] [] []
    let q : SessDesc := ⟨List.replicate 64 0, [], false⟩
    let net : RingSt := { sub with cfg := { rcfg 1 0 with ethernet := true, session := 7 } }
    let held : RingSt := { cmpl with irqHeld := true, cfg := { rcfg 2 4096 with ien := true }, irqAfter := 10000000000 }
    let soon : RingSt := { held with irqAfter := 10000000001 }
    tidy s = true ∧ s.boot.power = true ∧ s.flag R.GLB_STATUS.READY = true ∧ s.ringOn 2 = false ∧ s.ring 9 = some cmpl ∧
    (rings [] [(2, net)] [] []).ring 2 = some net ∧ (on sub).ring 2 = some sub ∧ (on sub).ringsOf 4 (fun _ => true) = [] ∧ s.ring 3 = none ∧
    ((on sub).client.rings.map (·.1)).Nodup ∧ (on sub).flag (R.RING_CFG.TRANSPORT 2) = false ∧
    go.flag (R.RING_CFG.ENABLE 2) = true ∧ (go.ring 2).map (fun r => (r.prod, r.cfg.base, r.cfg.log2)) = some (0, 8192, 4) ∧
    (after (.ringEnable 2 none (1 + 3 * 8)) s).flag (R.RING_STATUS.CFG_ERR 2) = true ∧
    (after (.ringEnable 6144 none 1) s).get (R.GLB_ACCESS_ERR.COUNT) = 1 ∧
    ((after (.ringDisable 2 none 0) (on { sub with queue := [q] })).ring 9).map (·.prod) = some 6 ∧
    ((after (.ringDisable 2 none 0) (on sub)).ring 2).map (·.active) = some false ∧
    ((after (.ringDisable 2 (some 7) 0) (rings [] [(2, net)] [] [])).ring 2).map (·.active) = some false ∧
    (after (.doorbell 3 0) s).flag (R.RING_STATUS.DB_ERR 3) = true ∧
    (after (.doorbell 2 0) (rings [] [(2, net)] [] [])).flag (R.RING_STATUS.DB_ERR 2) = true ∧
    ((after (.doorbell 2 18) (on { sub with halted := true })).ring 2).map (fun r => (r.prod, r.fetched)) = some (18, 2) ∧
    ((after (.doorbell 2 18) (on sub)).ring 2).map (fun r => (r.prod, r.fetched, r.queue.length)) = some (18, 18, 16) ∧
    ((after (.doorbell 2 19) (on sub)).ring 2).map (·.halted) = some true ∧ ((after (.doorbell 9 5) s).ring 9).map (·.cons) = some 5 ∧
    (after (.doorbell 9 6) s).flag (R.RING_STATUS.DB_ERR 9) = true ∧
    (after (.irqHoldoffEnd 9) (rings [] [(9, held)] [] [])).client.irqs = [(5, 10000000000)] ∧
    (after (.irqHoldoffEnd 9) (rings [] [(9, soon)] [] [])).client.irqs = [] ∧
    ((after .functionLevelReset (on sub)).ring 2).map (·.active) = some false ∧
    (after .functionLevelReset (on sub)).get (R.RING_BASE_LO.BASE 2) = 0 := by decide +kernel

/-- R354-R358, R365: the sixteenth place of PEER is free for one; each check fails in its order. -/
theorem witness_DescriptorsStartAndAreChecked :
    let cmpl (used : Nat) : RingSt := { cfg := rcfg 2 4096, prod := used }
    let sub (q : List SessDesc) : RingSt := { cfg := rcfg 1 8192, prod := 4, fetched := 4, queue := q }
    let q (op : Byte) : SessDesc := ⟨op :: List.replicate 63 0, [], false⟩
    let s (op : Byte) (used : Nat) : State := rings [] [(2, sub [q op]), (9, cmpl used)] [] []
    let low : Started := { dsc 2 0 with rights := 1 }
    let long : Started := { dsc 0 0 with bytes := List.replicate 16 0 ++ [1] ++ List.replicate 47 0 }
    let odd : Started := { dsc 1 0 with bytes := [1] ++ List.replicate 23 0 ++ [2] ++ List.replicate 39 0 }
    let rec_ := (s 0 0).raise R.GLB_STATUS.RECOVERY
    let one (d : Started) : State := rings [] [(9, cmpl 0)] [d] []
    tidy (s 0 0) = true ∧ (s 0 0).ring 2 = some (sub [q 0]) ∧ (s 0 0).peerRoom (sub [q 0]) = true ∧ (s 0 16).peerRoom (sub [q 0]) = false ∧
    (s 0 0).startedOf 2 = 0 ∧ opRights 0x44 = none ∧ opRights 2 = some 1 ∧ rec_.flag R.GLB_STATUS.RECOVERY = true ∧ (s 0 0).flag R.GLB_STATUS.RECOVERY = false ∧
    (dsc 0 4).reservedOk = false ∧ (dsc 2 0).reservedOk = true ∧ bit low.rights 1 = false ∧ bit (dsc 2 0).rights 1 = true ∧
    odd.reservedOk = true ∧ bit odd.rights 0 = true ∧ odd.paramOk = false ∧ long.reservedOk = true ∧ bit long.rights 0 = true ∧
    long.paramOk = true ∧ long.lenOk = false ∧ (one (dsc 0 0)).client.started = [dsc 0 0] ∧ opDataIn 0x41 0 = true ∧
    (s 0 0).checkDescriptor (dsc 0x44 0) = some .badOpcode ∧ rec_.checkDescriptor (dsc 2 0) = some .badOpcode ∧
    (s 0 0).checkDescriptor (dsc 0 4) = some .badReserved ∧ (s 0 0).checkDescriptor low = some .rights ∧
    (s 0 0).checkDescriptor odd = some .badParam ∧ (s 0 0).checkDescriptor long = some .badLen ∧ (s 0 0).checkDescriptor (dsc 0 0) = none ∧
    ((after (.descriptorStart 2) (s 0 15)).client.started.map (fun d => (d.index, d.op))) = [(3, 0)] ∧
    (after (.descriptorStart 2) (s 0 16)).client.started = [] ∧
    ((after (.descriptorStart 2) (s 0x44 0)).ring 9).map (·.prod) = some 1 ∧
    ((after (.nopOpcode 2 3) (one (dsc 0 0))).ring 9).map (·.prod) = some 1 ∧ (after (.nopOpcode 2 3) (one (dsc 2 0))).client.started = [dsc 2 0] ∧
    (after (.hostReadTimeout 2 3) (one (dsc 0x41 0))).client.started = [] ∧
    (after (.hostReadTimeout 2 3) (one (dsc 0 0))).client.started = [dsc 0 0] := by decide +kernel

/-- R368-R372: the key of thirty-two bytes 1 opens session 1 beside session 0; 5 s of silence; a frame with the next index. -/
theorem witness_SessionsOpenCarryAndClose :
    let key : List Byte := List.replicate 32 1
    let word : BitVec 256 := 0x0101010101010101010101010101010101010101010101010101010101010101
    let allow : List Byte := leBytes 4 0 ++ leBytes 4 1 ++ List.replicate 8 0 ++ key ++ [5, 0, 0, 0]
    let ses : Session := ⟨key, 7, 5000000000, 9000000000, 0, 3⟩
    let scfg (kind peer : Nat) : RingCfg := { rcfg kind 0 with ethernet := true, session := 0, peer := peer }
    let sub : RingSt := { cfg := scfg 1 6145, prod := 2, fetched := 2 }
    let cmpl : RingSt := { cfg := scfg 2 0, prod := 5, cons := 2 }
    let b := rings [] [(6144, sub), (6145, cmpl)] [] [(0, ses)]
    let s := { b with client := { b.client with net := { ports := [1 :: List.replicate 63 0, List.replicate 64 0], allow := allow } } }
    let early := { s with dtime := 9999999999 }
    let open_ := after (.sessionOpen 0 word) s
    let nops (n : Nat) : List Byte := List.replicate (64 * n) 0
    tidy s = true ∧ (s.client.rings.map (·.1)).Nodup ∧ s.ethPort 0 = true ∧ s.ethPort 1 = false ∧ s.keyRights key = some 5 ∧
    s.keyRights [] = none ∧ s.flag R.GLB_STATUS.READY = true ∧ s.flag R.GLB_STATUS.RECOVERY = false ∧ s.session 0 = some ses ∧
    s.session 1 = none ∧ s.dtime = ses.lastHeard + 5000000000 ∧ s.dtime = ses.lastSent + 1000000000 ∧ s.bound 0 6144 = some sub ∧
    s.bound 0 7 = none ∧ (frameDescriptors (nops 16)).length = 16 ∧ s.ringsOf 4 (fun c => c.allJobs && c.ethernet && c.session == 0) = [] ∧
    (open_.session 1).map (·.rights) = some 5 ∧ (open_.ring 6146).map (fun r => (r.active, r.cfg.kind, r.cfg.peer)) = some (true, 1, 6147) ∧
    (open_.ring 6147).map (fun r => (r.active, r.cfg.kind)) = some (true, 2) ∧ (after (.sessionOpen 1 word) s).session 1 = none ∧
    (after (.sessionClose 0) s).client.out = [.closed 0] ∧ ((after (.sessionClose 0) s).ring 6144).map (·.active) = some false ∧
    (after (.sessionTimeout 0) s).session 0 = none ∧ (after (.sessionTimeout 0) early).session 0 = some ses ∧
    (after (.keepaliveSend 0) s).client.out = [.keepalive 0] ∧ (after (.keepaliveSend 0) early).client.out = [] ∧
    ((after (.keepalive 0) s).session 0).map (·.lastHeard) = some 10000000000 ∧
    ((after (.submit 0 6144 2 (nops 16)) s).ring 6144).map (fun r => (r.prod, r.queue.length)) = some (18, 16) ∧
    ((after (.submit 0 6144 2 (nops 17)) s).ring 6144).map (·.prod) = some 2 ∧ (after (.submit 0 6144 3 (nops 1)) s).session 0 = none ∧
    (after (.submit 0 7 0 (nops 1)) s).session 0 = none ∧ ((after (.ack 0 6145 5) s).ring 6145).map (·.cons) = some 5 ∧
    (after (.ack 0 6145 6) s).flag (R.RING_STATUS.DB_ERR 6145) = true := by decide +kernel
/-- R350, R352, R359, R364: a PEER without room, one to which a completion is owed, a vector that the host has masked; a doorbell
that makes room, a disable of a filled ring, and a reset of the function. -/
theorem witness_CompletionsGoToThePeer_waits :
    let full : RingSt := { cfg := rcfg 2 4096, prod := 17, cons := 1 }
    let irq : RingSt := { full with cons := 10, cfg := { rcfg 2 4096 with ien := true } }
    let d := dsc 0 0
    let s (r : RingSt) : State := rings [] [(9, r)] [d] []
    let owing := (s full).complete d .ok 5
    let masked := { s irq with client := { (s irq).client with msix := [(5, List.replicate 12 0 ++ [1, 0, 0, 0])] } }
    let paid := after (.doorbell 9 2) owing
    let soon : RingSt := { full with cons := 10, fresh := [⟨10000000000, 4096, List.replicate 32 0, none, false⟩] }
    let held : RingSt := { irq with irqHeld := true }
    tidy owing = true ∧ full.room = 0 ∧ (s full).owedTo 9 = [] ∧ owing.owedTo 9 = [(d, 0, 5)] ∧ owing.client.started = [] ∧
    owing.host = [] ∧ (owing.complete d .ok 6).client.owed = [(d, 0, 5), (d, 0, 6)] ∧ (s irq).vectorMasked 5 = false ∧
    masked.vectorMasked 5 = true ∧ (masked.complete d .ok 0).client.irqs = [] ∧ (masked.complete d .ok 0).client.pendingBits = [5] ∧
    (after (.irqHoldoffEnd 9) (s held)).client.irqs = [(5, 10000000000)] ∧
    ({ full with cons := 2 } : RingSt).room ≠ 0 ∧ paid.client.owed = [] ∧ paid.hostRead (4096 + 32 + 16) 1 = [5] ∧
    (paid.ring 9).map (fun r => (r.prod, r.cons)) = some (18, 2) ∧
    ((after (.ringDisable 9 none 0) (s soon)).ring 9).map (fun r => (r.prod, r.fresh.length)) = some (16, 0) ∧
    ((after (.ringDisable 9 none 0) (s irq)).ring 9).map (fun r => (r.prod, r.active)) = some (17, false) ∧
    (after (.ringDisable 9 none 0) (s irq)).client.irqs = [] ∧ (after (.ringDisable 9 none 0) owing).client.owed = [] ∧
    (after .functionLevelReset owing).client.owed = [] ∧
    ((after .functionLevelReset owing).ring 9).map (fun r => (r.prod, r.active)) = some (0, false) := by decide +kernel

/-- R354-R357, R365, R481: turns of rings 2 and 4, a table's length, a descriptor whose own read failed, and FW_PUSH's code. -/
theorem witness_DescriptorsStartAndAreChecked_turns :
    let cmpl : RingSt := { cfg := rcfg 2 4096 }
    let sub (q : List SessDesc) : RingSt := { cfg := rcfg 1 8192, prod := 4, fetched := 4, queue := q }
    let q : SessDesc := ⟨List.replicate 64 0, [], false⟩
    let s (turn : Nat) (x y : List SessDesc) : State :=
      let s := rings [(R.CXP_CAM_GEOM.WIDTH 1, 4), (R.CXP_CAM_GEOM.FRAME_LINES 1, 1)] [(2, sub x), (4, sub y), (9, cmpl)] [] []
      { s with client := { s.client with turn := turn } }
    let fenced : SessDesc := ⟨[0, 1] ++ List.replicate 62 0, [], false⟩
    let busy := { s 0 [fenced] [q] with client := { (s 0 [fenced] [q]).client with started := [dsc 0 0] } }
    let tab (n : Nat) : Started :=
      { dsc 0 0 with bytes := [0x12] ++ List.replicate 15 0 ++ leBytes 4 n ++ [0, 0, 0, 0, 1, 2] ++ List.replicate 38 0 }
    let one (d : Started) : State := rings [] [(9, cmpl)] [d] []
    let gone := after (.hostReadTimeout 2 3) (s 0 [q] [])
    ((s 3 [q] [q]).client.rings.map (·.1)).Pairwise (· < ·) ∧ (s 3 [q] [q]).turnOf = some 4 ∧ (s 0 [q] [q]).turnOf = some 2 ∧
    (s 5 [q] [q]).turnOf = some 2 ∧ (s 0 [] []).turnOf = none ∧ (s 3 [q] [q]).startable 2 (sub [q]) = true ∧
    busy.startable 2 (sub [fenced]) = false ∧ busy.turnOf = some 4 ∧ (after (.descriptorStart 2) (s 3 [q] [q])).client.started = [] ∧
    (after (.descriptorStart 4) (s 3 [q] [q])).client.turn = 5 ∧
    (s 0 [] []).tableLen (tab 1) = 1 ∧ (s 0 [] []).checkDescriptor (tab 1) = none ∧ (s 0 [] []).checkDescriptor (tab 2) = some .badLen ∧
    ((after (.descriptorStart 2) (s 0 [{ q with failed := true }] [])).hostRead 4096 2) = leBytes 2 Status.dmaError.code ∧
    ((s 0 [q] []).ring 2).map (·.fetched) = some (u32 (3 + 1)) ∧ (gone.ring 2).map (fun r => r.queue.map (·.failed)) = some [true] ∧
    (after (.hostReadTimeout 2 3) (one (dsc 0x51 0))).hostRead (4096 + 16) 1 = [7] := by decide +kernel

/-! ### Opcodes, the stage and commits -/

/-- Descriptor 3 of ring 2 with OP, LEN, PARAM bytes from 24 on, and data. -/
def dat (op len : Nat) (param data : List Byte) : Started :=
  { cmd op param with bytes := ([BitVec.ofNat 8 op] ++ List.replicate 15 0 ++ leBytes 4 len ++ [0, 0, 0, 0] ++ param ++ List.replicate 40 0).take 64
                      data := data }

/-- A module with region 0 of 64 KiB, fields set, and descriptor d started, with COMPLETION ring 9. -/
def job (xs : List (Fld × Nat)) (d : Started) : State :=
  let s := ram xs []
  { s with client := { s.client with started := [d], rings := [(9, { cfg := rcfg 2 4096 })] } }

/-- Status, result and count of the completions in ring 9. -/
def ended (s : State) : Nat × Nat × Nat :=
  (fieldAt (s.hostRead 4096 32) 0 2, fieldAt (s.hostRead 4096 32) 16 8, ((s.ring 9).map (·.prod)).getD 0)

/-- R104, R358: GLB_SCRATCH read and written, memory in reach, at its end, out of reach and with a stuck word; a camera. -/
theorem witness_TargetOpcodes :
    let at_ (a : Nat) : List Byte := leBytes 8 a
    let scr : List Byte := leBytes 4 R.GLB_SCRATCH
    let rd := job [(R.GLB_SCRATCH.VALUE, 77)] (dat 1 0 (scr ++ [1]) [])
    let rd2 := job [(R.GLB_SCRATCH.VALUE, 77)] (dat 1 0 (scr ++ [2]) [])
    let wr := job [] (dat 2 0 (scr ++ leBytes 4 5) [])
    let ld (a : Nat) : State := poke (job [] (dat 3 4 (at_ a) [])) 65532 [1, 2, 3, 4]
    let bad := { ld 0 with cel := { served.cel with bad := [⟨0, 9, true⟩] } }
    let st (a : Nat) : State := job [] (dat 4 4 (at_ a) [9, 8, 7, 6])
    let cam (x : Nat) (rw : Byte) (a : Nat) : State := job [(R.CXP_CAM_STATUS.STATE 1, x)] (dat 0x14 0 ([1, rw, 0, 0] ++ leBytes 4 a ++ leBytes 4 0) [])
    let acc : CamAccess := { ring := 1, index := 1, read := true, since := 0 }
    let busy := { cam 4 0 16 with cams := setNth served.cams 1 { access := some acc } }
    tidy rd = true ∧ rd.startedAs 2 3 1 = some (dat 1 0 (scr ++ [1]) []) ∧ rd.boot.power = true ∧ rd.flag R.STG_CTL.VIEW = false ∧
    wr.startedAs 2 3 2 = some (dat 2 0 (scr ++ leBytes 4 5) []) ∧ (dat 2 0 (scr ++ leBytes 4 5) []).param 28 4 = 5 ∧
    (ld 65532).reachable .firmware 65532 4 = true ∧ (ld 65536).reachable .firmware 65536 4 = false ∧
    (bad.load .firmware 0 4).1 = .parity ∧ (cam 4 0 16).cams.length = 16 ∧ (cam 2 0 16).camState 1 = 2 ∧ (busy.cam 1).access = some acc ∧
    ended (after (.regRead 2 3) rd) = (0, 77, 1) ∧ (ended (after (.regRead 2 3) rd2)).2.1 % 2 ^ 32 = 77 ∧
    (after (.regWrite 2 3) wr).get R.GLB_SCRATCH.VALUE = 5 ∧ ended (after (.regWrite 2 3) wr) = (0, 0, 1) ∧
    (after (.memRead 2 3) (ld 65532)).hostRead 0 4 = [1, 2, 3, 4] ∧ ended (after (.memRead 2 3) (ld 65536)) = (0x103, 0, 1) ∧
    ended (after (.memRead 2 3) bad) = (0x501, 0, 1) ∧ (after (.memWrite 2 3) (st 65532)).modBytes 65532 4 = [9, 8, 7, 6] ∧
    ended (after (.memWrite 2 3) (st 65536)) = (0x103, 0, 1) ∧ ended (after (.camRegRead 2 3) (cam 2 0 16)) = (0x10B, 0, 1) ∧
    ended (after (.camRegWrite 2 3) (cam 4 1 0x4014)) = (0x10C, 0, 1) ∧ ended (after (.camRegRead 2 3) busy) = (0, 0, 0) ∧
    ((after (.camRegRead 2 3) (cam 4 0 0x4014)).cam 1).access = some { ring := 2, index := 3, read := true, since := 0 } ∧
    ((after (.camRegRead 2 3) (cam 4 0 0x4014)).client.started.map (·.waiting)) = [true] := by decide +kernel

/-- R60, R123, R291, R358, R380: each staging opcode, its bad length, a full area, a job that runs and one that does not. -/
theorem witness_StagingOpcodes :
    let seqw := job [] (dat 0x11 32 [2, 0] (List.replicate 32 1))
    let geom := [(R.CXP_CAM_GEOM.WIDTH 1, 4), (R.CXP_CAM_GEOM.FRAME_LINES 1, 1)]
    let tab (n : Nat) : State := job geom (dat 0x12 n [1, 2] [5])
    let net := job [] (dat 0x40 64 [1] (List.replicate 64 3))
    let allow := job [] (dat 0x41 16 [] (List.replicate 16 0))
    let ctl (x : Nat) (a : Byte) : State := job [(R.STG_JOB_STATUS.STATE 6, x)] (dat 0x20 0 [6, a] [])
    let frozen := net.raise R.STG_STATUS.FROZEN
    tidy seqw = true ∧ seqw.stagingAs 2 3 0x11 = some (dat 0x11 32 [2, 0] (List.replicate 32 1)) ∧ frozen.flag R.STG_STATUS.FROZEN = true ∧
    (tab 1).withStage.width 1 * (tab 1).withStage.sensorLines 1 = 4 ∧ (ctl 2 1).jobState 6 = 2 ∧ (ctl 1 0).jobState 6 = 1 ∧
    keyGet (after (.seqWrite 2 3) seqw).stage.seq 2 = some (SeqEntry.ofBytes (List.replicate 32 1)) ∧
    (after (.lpipeTable 2 3) (tab 1)).stage.tables = [(1, 2, [1, 0, 1, 0])] ∧ ended (after (.lpipeTable 2 3) (tab 2)) = (0x104, 0, 1) ∧
    (after (.netSet 2 3) net).stage.nets = [(1, List.replicate 64 3)] ∧ (after (.netSet 2 3) frozen).stage.nets = [] ∧
    (after (.allowLoad 2 3) allow).stage.allow = some (List.replicate 16 0) ∧ (after (.jobStart 2 3) (ctl 1 0)).stage.jobs = [(6, .start)] ∧
    ended (after (.jobStart 2 3) (ctl 2 0)) = (0x205, 0, 1) ∧ (after (.jobStop 2 3) (ctl 2 1)).stage.jobs = [(6, .stop)] ∧
    ended (after (.jobStop 2 3) (ctl 1 1)) = (0x205, 0, 1) := by decide +kernel

/-- R291, R358, R380: a weight set and a reference image in their area and beyond it. -/
theorem witness_StagingOpcodes_loads :
    let area := [(R.STG_PTN_AREA_LO.N 0, 4096), (R.STG_PTN_AREA_PAGES.PAGES 0, 1)]
    let w : List Byte := [0x4B, 0x57, 0x53, 0x31, 0, 0, 0, 0] ++ leBytes 8 64 ++ List.replicate 48 0
    let wl (xs : List (Fld × Nat)) (f : List Byte) : State := job xs (dat 0x10 64 [1, 6] f)
    let pl := job area (dat 0x10 8 [0, 6] (List.replicate 8 0))
    let ref (dest : Nat) : State := job ((R.ADP_IN_BUDGET.N, 100) :: area) (dat 0x10 128 ([2, 6, 1, 0, 0, 0, 0, 0] ++ leBytes 8 dest ++ leBytes 4 64 ++ [0, 0, 0, 0]) ktr)
    let r := after (.imageLoadReference 2 3 ⟨99, 0⟩) (ref 8192)
    let stuck := { ref 8192 with cel := { (ref 8192).cel with bad := [⟨2048, 9, true⟩] } }
    weightsOk w = true ∧ weightsOk [] = false ∧ (wl area w).stagePlace 6 (.weights 6) 64 = some 4096 ∧ (wl [] w).stagePlace 6 (.weights 6) 64 = none ∧
    imageStatus pl.boot.signers (List.replicate 8 0) = some .imgFormat ∧ (ref 8192).reachable .firmware 8192 64 = true ∧
    (decodeSample (fileFormat ktr) ktr 64 0 0).status = .ok ∧
    keyGet (after (.imageLoadWeights 2 3) (wl area w)).stage.weights 6 = some (weightRef 4096 w) ∧
    ended (after (.imageLoadWeights 2 3) (wl [] w)) = (0x204, 0, 1) ∧ ended (after (.imageLoadWeights 2 3) (wl area [])) = (0x207, 0, 1) ∧
    ended (after (.imageLoadProgram 2 3) pl) = (0x207, 0, 1) ∧ r.modBytes 8192 2 = [0xA1, 0xA2] ∧ r.stage.refs = [⟨6, 1, 8192, 64, false⟩] ∧
    ((ref 8192).storeAll .inputPipe 8192 (decodeSample (fileFormat ktr) ktr 64 0 0).writes).1 = true ∧
    (stuck.storeAll .inputPipe 8192 (decodeSample (fileFormat ktr) ktr 64 0 0).writes).1 = false ∧
    ((ref 8192).storeAll .inputPipe 8192 ((decodeSample (fileFormat ktr) ktr 64 0 0).writes.take 1)).1 = true ∧
    ended (after (.imageLoadReference 2 3 ⟨99, 0⟩) stuck) = (0x501, 0, 1) ∧
    ended (after (.imageLoadReference 2 3 ⟨100, 1⟩) (ref 8192)) = (Status.timedOut.code, 0, 1) ∧
    ended (after (.imageLoadReference 2 3 ⟨99, 0⟩) (ref 0)) = (0x204, 0, 1) := by decide +kernel

/-- A program image without its signatures' bytes filled in: one END record, one map of one core and one class, no tensors. -/
def program : List Byte :=
  let sec (t off len : Nat) : List Byte := leBytes 2 t ++ [0, 0] ++ leBytes 4 len ++ leBytes 8 off
  let head := [0x4B, 0x50, 0x49, 0x31, 1, 0, 0, 0] ++ leBytes 8 576 ++ [3, 0, 0, 1, 1] ++ List.replicate 11 0 ++ sha256 [] ++ List.replicate 192 0
  let table := sec 2 320 32 ++ sec 4 384 176 ++ sec 6 576 0
  let lists := 9 :: List.replicate 31 0
  let map := [1, 1] ++ List.replicate 78 0 ++ [0, 0, 1] ++ List.replicate 93 0
  head ++ table ++ List.replicate 16 0 ++ lists ++ List.replicate 32 0 ++ map ++ List.replicate 16 0 ++ List.replicate 3408 0

/-- A signer list of one signer, whose hash and keys are zeros. -/
def signerFile : List Byte := leBytes 4 0 ++ leBytes 4 1 ++ List.replicate 2032 0

/-- The checks of R258 one by one. -/
theorem passes_checks {S f b block lists live : List Byte} {g : Signer} (e1 : imageFormatOk f = true)
    (e2 : f.take (fieldAt f 8 8) = b) (e3 : f.drop (round8 b.length) = block)
    (e4 : (signersOf S).find? (fun g => g.hash == block.take 32) = some g) (e5 : g.verifies (sha256 b) block = true)
    (e6 : imageSectionsOk b = true) (e7 : secBytes b 2 = lists) (e8 : secBytes b 3 = live)
    (e9 : (recordsOf (lists.length + 1) 0 lists).all (fun r => r.ok live.length) = true)
    (e10 : ((recordsOf (lists.length + 1) 0 lists).any (fun r => r.srFree && !r.nd)
      || bit (fieldAt b 6 2) 0 != (recordsOf (lists.length + 1) 0 lists).any (·.nd)) = false)
    (e11 : (decide (1 ≤ fieldAt b 19 1) && decide (fieldAt b 19 1 ≤ 4)
      && mapsOk (recordsOf (lists.length + 1) 0 lists) (fieldAt b 19 1) 17 (secBytes b 4)) = true) :
    imageStatus S f = none := by
  subst e2 e3 e7 e8
  unfold imageStatus
  simp only [e1, Bool.not_true, Bool.false_eq_true, ↓reduceIte, e4, e5, e6, e9, e10, e11]

/-- R258: where both signatures of the one signer verify, that image passes every check. -/
theorem witness_StagingOpcodes_program
    (h : ∀ g ∈ signersOf signerFile, g.verifies (sha256 (program.take 576)) (program.drop 576) = true) :
    imageStatus signerFile program = none := by
  have e6 : (signersOf signerFile).find? (fun g => g.hash == (program.drop 576).take 32) =
      some ⟨List.replicate 32 0, List.replicate 32 0, List.replicate 1952 0, false⟩ := by decide +kernel
  exact passes_checks (b := program.take 576) (block := program.drop 576) (lists := 9 :: List.replicate 31 0) (live := [])
    (by decide +kernel) (by decide +kernel) (by decide +kernel) e6 (h _ (List.mem_of_find?_eq_some e6)) (by decide +kernel)
    (by decide +kernel) (by decide +kernel) (by decide +kernel) (by decide +kernel) (by decide +kernel)

/-- R220-R223, R358: set 3 of 256 buckets in force and not; one entry inserted, skipped, and with every entry taken; a clear. -/
theorem witness_SetLoads :
    let cfg (on base : Nat) : List (Fld × Nat) := [(R.FLK_SET_GEOM.LOG2_BUCKETS 3, 8), (R.FLK_SET_GEOM.PROBE_MAX 3, 1),
      (R.FLK_SET_GEOM.ENABLE 3, on), (R.FLK_SET_BASE_LO.N 3, base)]
    let entry : List Byte := [2, 0, 0, 0, 0, 0, 0, 0, 0, 0, 0, 1, 9, 0, 0, 0]
    let raw (off : Nat) (on : Nat) : State := job (cfg on 4096) (dat 0x13 16 ([3, 0, 0, 0, 0, 0, 0, 0] ++ leBytes 8 off) entry)
    let one := job (cfg 0 4096) (dat 0x13 16 [3, 1] entry)
    let again := poke one (4096 + 128) entry
    let full := poke one (4096 + 128) ((List.range 4).flatMap (fun k => [2, BitVec.ofNat 8 (k + 1)] ++ List.replicate 9 0 ++ [1, 0, 0, 0, 0]))
    let far := job (cfg 0 65536) (dat 0x13 16 [3, 1] entry)
    let clear := poke (job (cfg 0 4096) (dat 0x13 0 [3, 2] [])) (4096 + 16383) [7, 8]
    let c := one.loadCfg (dat 0x13 16 [3, 1] entry)
    let t := after (.setLoadEntries 2 3) one
    let short := job (cfg 0 4096) (dat 0x13 15 [3, 0, 0, 0, 0, 0, 0, 0, 0, 0, 0, 0, 0, 0, 0, 0] entry.tail)
    let torn := { short with cel := { short.cel with bad := [⟨1027, 9, true⟩] } }
    let lost := { raw 0 0 with cel := { (raw 0 0).cel with doubtful := [⟨3, 0, 4096, 16, []⟩] } }
    tidy one = true ∧ one.stagingAs 2 3 0x13 = some (dat 0x13 16 [3, 1] entry) ∧ one.setActive c = false ∧ (raw 0 1).setActive c = true ∧
    one.setReach c = true ∧ cfgFabric c = false ∧ 256 * cfgBuckets c * 64 = 16384 ∧ far.setReach (far.loadCfg (dat 0x13 16 [3, 1] entry)) = false ∧
    one.shardSlot c (keyShard 2) = 2 ∧ (one.search .firmware c 2 2 1 0).1 = .empty 0 0 1 ∧ (again.search .firmware c 2 2 1 0).1 = .hit 0 0 1 9 1 ∧
    (full.search .firmware c 2 2 1 0).1 = .limit 1 ∧ ended (after (.setLoadRaw 2 3) (raw 0 1)) = (0x401, 0, 1) ∧
    (after (.setLoadRaw 2 3) (raw 16368 0)).modBytes (4096 + 16368) 16 = entry ∧ ended (after (.setLoadRaw 2 3) (raw 16369 0)) = (0x103, 0, 1) ∧
    ((raw 0 0).store .firmware 4096 entry).1 = .ok ∧ (torn.store .firmware 4096 entry.tail).1 = .parity ∧
    ended (after (.setLoadRaw 2 3) torn) = (0x501, 0, 1) ∧ clear.cel.retired = [] ∧
    (clear.setRanges (clear.loadCfg (dat 0x13 0 [3, 2] []))).length = 1 ∧
    (after (.setLoadRaw 2 3) lost).cel.doubtful.length = 0 ∧ lost.cel.doubtful.length = 1 ∧
    t.modBytes (4096 + 128) 16 = entry ∧ ended t = (0, 1, 1) ∧ ended (after (.setLoadEntries 2 3) again) = (0, 2 ^ 32, 1) ∧
    ended (after (.setLoadEntries 2 3) full) = (0x402, 0, 1) ∧ ended (after (.setLoadEntries 2 3) far) = (0x103, 0, 1) ∧
    (after (.setLoadClear 2 3) clear).modBytes (4096 + 16383) 2 = [0, 8] := by decide +kernel

/-- R221, R310, R380, R381, R484: maps that firmware reads for SET_LOAD, the tick on which a freeze ended, a DEST that overlaps
the reference held in another slot, a file of no known format, and REG_WRITE over a session. -/
theorem witness_SetLoads_maps :
    let cfg (map : Nat) : List (Fld × Nat) := [(R.FLK_SET_GEOM.LOG2_BUCKETS 3, 8), (R.FLK_SET_GEOM.PROBE_MAX 3, 1),
      (R.FLK_SET_GEOM.FABRIC 3, 1), (R.FLK_SET_BASE_LO.N 3, 4096), (R.FLK_SET_MAP_LO.N 3, map)]
    let d := dat 0x13 16 ([3, 0, 0, 0, 0, 0, 0, 0] ++ leBytes 8 0) (List.replicate 16 1)
    let s (map : Nat) : State := job (cfg map) d
    let torn := { s 2048 with cel := { served.cel with bad := [⟨512, 9, true⟩] } }
    let maps (s : State) : MemRes := (s.mapsRead (s.loadCfg d :: ((List.range 16).map s.setCfg).filter cfgEnabled)).1
    cfgFabric ((s 2048).loadCfg d) = true ∧ maps (s 2048) = .ok ∧ maps (s 65536) = .range ∧ maps torn = .parity ∧
    ended (after (.setLoadRaw 2 3) (s 2048)) = (0, 0, 1) ∧ ended (after (.setLoadRaw 2 3) (s 65536)) = (0x103, 0, 1) ∧
    ended (after (.setLoadRaw 2 3) torn) = (0x501, 0, 1) := by decide +kernel

theorem witness_StagingOpcodes_more :
    let net := job [] (dat 0x40 64 [1] (List.replicate 64 3))
    let thaw := { net with stage := { net.stage with thawed := some net.dtime } }
    let area := [(R.ADP_IN_BUDGET.N, 100), (R.STG_PTN_AREA_LO.N 0, 4096), (R.STG_PTN_AREA_PAGES.PAGES 0, 1)]
    let ref (f : List Byte) : State := job area (dat 0x10 128 ([2, 6, 1, 0, 0, 0, 0, 0] ++ leBytes 8 8192 ++ leBytes 4 64 ++ [0, 0, 0, 0]) f)
    let held (slot at_ : Nat) : State := { ref ktr with stage := { (ref ktr).stage with refs := [⟨6, slot, at_, 64, false⟩] } }
    let wr := { dat 2 0 (leBytes 4 R.GLB_SCRATCH ++ leBytes 4 5) [] with ethernet := true, session := 4 }
    let eth := after (.regWrite 2 3) (job [] wr)
    thaw.stage.thawed = some thaw.dtime ∧ (after (.netSet 2 3) thaw).stage.nets = [] ∧
    ended (after (.imageLoadReference 2 3 ⟨99, 0⟩) (held 2 8255)) = (0x204, 0, 1) ∧
    (ended (after (.imageLoadReference 2 3 ⟨99, 0⟩) (held 2 8256))).1 ≠ 0x204 ∧
    (ended (after (.imageLoadReference 2 3 ⟨99, 0⟩) (held 1 8255))).1 ≠ 0x204 ∧
    (decodeSample (fileFormat [0, 0]) [0, 0] 64 0 0).status ≠ .ok ∧ (decodeSample (fileFormat [0, 0]) [0, 0] 64 0 0).status ≠ .corrupt ∧
    (ended (after (.imageLoadReference 2 3 ⟨100, 1⟩) (ref [0, 0]))).1 ≠ Status.timedOut.code ∧
    eth.get R.GLB_SCRATCH.VALUE = 5 ∧ ended eth = (0, 0, 1) := by decide +kernel

/-- A commit at DTIME 50 of descriptor 3 of ring 2, whose check passed at 90. -/
def pc : PendingCommit := { ring := some (2, 3), when_ := 2, at_ := 50, since := 90 }

/-- A frozen stage at DTIME 100 with a commit under way and a flag of STG_STATUS set; region 0 holds what ADP_CAP and ADP_IN
name (R284, R297). -/
def committing (f : Fld) (c : PendingCommit) : State :=
  let s := ram [(R.STG_STATUS.FROZEN, 1), (f, 1), (R.ADP_IN_CFG.BATCH, 2), (R.ADP_IN_CFG.QDEPTH, 2)] []
  { s with dtime := 100, stage := { s.stage with commit := some c }, client := (job [] (dat 0x21 0 [2, 0, 0, 0, 0, 0, 0, 0, 50] [])).client }

/-- CLK_CFG with its field of range 1-255 at 0 in the stage. -/
def wrongly (s : State) : State := { s with staged := [(R.CLK_CFG, 1)] }

/-- A commit of one word for SDG_WIN and of a gain table of camera 3 meets the premises of the clause on what comes into force. -/
theorem witness_CommitsFreezeCheckAndApply_staged :
    let s := committing R.STG_STATUS.PENDING pc
    let s := { s with staged := [(R.SDG_WIN, 5)], stage := { s.stage with tables := [(3, 1, [7])] } }
    s.stage = { commit := s.stage.commit, thawed := s.stage.thawed, tables := [(3, 1, [7])] } ∧ s.flag R.POS_CTL.REZERO = false ∧
    s.flag R.PSQ_CTL.REAPPLY = false ∧ s.flag R.ADP_CAP_CFG.ARM = false ∧ (∀ q < 4, s.quadState q ≠ 2) ∧
    s.reg R.SDG_WIN ≠ 5 ∧ tidy s = true := by decide +kernel

/-- R378, R381-R383: a first COMMIT and a second, a commit due at DTIME 100 and one a tick later, DISCARD. -/
theorem witness_CommitsFreezeCheckAndApply :
    let req := job [] (dat 0x21 0 [2, 0, 0, 0, 0, 0, 0, 0, 50] [])
    let pend := committing R.STG_STATUS.PENDING { pc with at_ := 100 }
    let wait := committing R.STG_STATUS.PENDING { pc with at_ := 101 }
    let check := committing R.STG_STATUS.CHECKING pc
    let torn := { check with
      cel := { check.cel with bad := [⟨0, 9, true⟩] }
      stage := { check.stage with images := [(6, ⟨0, 64, [], [], 0, 0, 0, false, (0, 0), (0, 32), (0, 0), (0, 0), (0, 0), (0, 0)⟩)] } }
    let dis := { job [] (dat 0x22 0 [] []) with stage := { served.stage with seqTouched := true } }
    let ends := { dis with stage := { dis.stage with commit := some { pc with ring := some (2, 3) } } }
    tidy req = true ∧ req.startedAs 2 3 0x21 = some (dat 0x21 0 [2, 0, 0, 0, 0, 0, 0, 0, 50] []) ∧ req.stage.commit = none ∧
    req.flag R.STG_STATUS.PENDING = false ∧ pend.commitDue = some { pc with at_ := 100 } ∧ wait.commitDue = none ∧
    dis.startedAs 2 3 0x22 = some (dat 0x22 0 [] []) ∧
    check.loadAll .firmware check.checkReads = (true, [], check) ∧ (torn.loadAll .firmware torn.checkReads).1 = false ∧
    torn.flag R.STG_STATUS.CHECKING = true ∧ (ended (after .commitCheckDone torn)).1 = 0x501 ∧
    (after .commitCheckDone torn).stage.commit = none ∧
    ends.client.started.find? (fun x => x.ring == 2 && x.index == 3) = some (dat 0x22 0 [] []) ∧
    (after (.commit 2 3) req).stage.commit = some { ring := some (2, 3), when_ := 2, at_ := 50 } ∧
    (after (.commit 2 3) req).flag R.STG_STATUS.FROZEN = true ∧ ended (after (.commit 2 3) pend) = (0x202, 0, 1) ∧
    (after .commitApply wait).stage.commit.isSome = true ∧ (after (.discard 2 3) dis).stage = {} ∧
    ended (after (.discard 2 3) dis) = (0, 0, 1) := by decide +kernel

/-- That state with CHECKING set: its stage is empty. -/
def checking : State := committing R.STG_STATUS.CHECKING pc

/-- A rule of the checker that the empty stage keeps. -/
def fine (r : Nat × Bool × (State → State → Bool)) : Bool := !r.2.2 checking checking.withStage

/-- The crop entries from 128 k on keep LP_CROP. -/
def cropsFine (k : Nat) : Bool := (List.range 128).all (fun i => !checking.withStage.badCrop (128 * k + i))

theorem crops_0 : cropsFine 0 = true := by decide +kernel
theorem crops_1 : cropsFine 1 = true := by decide +kernel
theorem crops_2 : cropsFine 2 = true := by decide +kernel
theorem crops_3 : cropsFine 3 = true := by decide +kernel
theorem crops_4 : cropsFine 4 = true := by decide +kernel
theorem crops_5 : cropsFine 5 = true := by decide +kernel
theorem crops_6 : cropsFine 6 = true := by decide +kernel
theorem crops_7 : cropsFine 7 = true := by decide +kernel

theorem crops_fine {i : Nat} (h : i < 1024) : checking.withStage.badCrop i = false := by
  have all (k : Nat) (hk : k < 8) : cropsFine k = true :=
    match k, hk with
    | 0, _ => crops_0 | 1, _ => crops_1 | 2, _ => crops_2 | 3, _ => crops_3
    | 4, _ => crops_4 | 5, _ => crops_5 | 6, _ => crops_6 | 7, _ => crops_7
  have hb := List.all_eq_true.mp (all (i / 128) (by omega)) (i % 128) (List.mem_range.mpr (by omega))
  rw [Nat.div_add_mod] at hb
  simpa using hb

theorem fine_crop : fine (21, false, failCrop) = true := by
  have he : checking.withStage.stagedEntries.any (fun e => e.2.action == 5 && decide (bits e.2.param 15 0 > 1023)) = false := by
    decide +kernel
  have hc : (List.range 1024).any checking.withStage.badCrop = false := by
    rw [List.any_eq_false]
    intro i hi
    rw [crops_fine (List.mem_range.mp hi)]
    exact Bool.false_ne_true
  simp only [fine, failCrop, he, hc, Bool.or_self, Bool.not_false]

theorem fine_first : (rules.take 14).all fine = true := by decide +kernel
theorem fine_second : ((rules.drop 14).take 6).all fine = true := by decide +kernel
theorem fine_third : ((rules.drop 21).take 8).all fine = true := by decide +kernel
theorem fine_last : (rules.drop 29).all fine = true := by decide +kernel

/-- R382: the check of an empty stage passes. -/
theorem witness_CommitsFreezeCheckAndApply_check :
    (committing R.STG_STATUS.CHECKING pc).checkStage false = 0 := by
  have h : rules.all fine = true := by
    show (rules.take 14 ++ ((rules.drop 14).take 6 ++ ((21, false, failCrop) :: ((rules.drop 21).take 8 ++ rules.drop 29)))).all
      fine = true
    simp only [List.all_append, List.all_cons, fine_first, fine_second, fine_crop, fine_third, fine_last, Bool.and_self]
  have none : rules.find? (fun r => (r.2.1 || !false) && r.2.2 checking checking.withStage) = none := by
    rw [List.find?_eq_none]
    intro r hr
    have := List.all_eq_true.mp h r hr
    simpa [fine] using this
  show ((rules.find? (fun r => (r.2.1 || !false) && r.2.2 checking checking.withStage)).map (·.1)).getD 0 = 0
  rw [none]
  rfl

/-- R382: LOST_MS 0 in the stage fails rule FIELD_RANGE. -/
theorem witness_CommitsFreezeCheckAndApply_refused :
    let s := wrongly (committing R.STG_STATUS.CHECKING pc)
    s.checkStage false = 1 ∧ (ended (after .commitCheckDone s)).1 = 0x201 ∧ (after .commitCheckDone s).get R.STG_CNT_REFUSED.N = 1 := by
  decide +kernel

/-- What a commit does before the line pipeline's part, and after it. -/
def beforeLp (s : State) : State :=
  let old := s
  let rezero := s.withStage.flag R.POS_CTL.REZERO
  let s := s.lpEnd s.withStage
  let s := ((List.range 64).filter (fun j => s.stops j)).foldl (fun (s : State) j => s.stopJob j) s
  let s := (s.withStage.captureCommit old).coresCommit old
  let s := ((s.posCommit old).seqCommit old rezero).waysCommit old
  (s.cameraCommit old).tablesCommit

def afterLp (s old : State) : State :=
  let s := s.fieldCommit old
  let s := (((s.windowCommit old).soCommit.pubCommit old).deepCommit).freqCommit
  let s := s.jobsCommit.captureArmed old
  let s := ((s.inCommit old).audCommit old).tpoCommit old
  let s := ((s.clkCommit old).fabricCommit old).ptpCommit old
  s.netCommit

theorem foldl_same {α β : Type} (f : β → α → β) (b : β) : ∀ l : List α, (∀ x ∈ l, f b x = b) → l.foldl f b = b
  | [], _ => rfl
  | x :: l, h => by
    rw [List.foldl_cons, h x (List.mem_cons_self ..)]
    exact foldl_same f b l (fun y hy => h y (List.mem_cons_of_mem _ hy))

/-- With the registers as they were and the line pipeline off, a commit changes nothing in it. -/
theorem lpCommit_same {s old : State} (h : s.regs = old.regs) (hs : ∀ c, s.lpOn c = false) (ho : ∀ c, old.lpOn c = false) :
    s.lpCommit old = s := by
  have hr : ∀ off, old.reg off = s.reg off := fun off => by unfold State.reg; rw [h]
  have hm : ∀ m, markDiffers s old m = false := fun m => by simp [markDiffers, hr]
  have h1 : (List.range 16).foldl (fun (s : State) c =>
      let s := if s.lpOn c && !old.lpOn c then
        { s with lp := { s.lp with nextRow := setNth s.lp.nextRow c (s.cam c).gates } } else s
      (List.range 8).foldl (fun (s : State) k => s.streamCommit old c k) s) s = s :=
    foldl_same _ s _ (fun c _ => by
      simp only [hs, ho, Bool.false_and, Bool.false_eq_true, ↓reduceIte]
      exact foldl_same _ s _ (fun k _ => by simp [State.streamCommit, hs, ho]))
  unfold State.lpCommit
  simp only [h1, hr]
  rw [foldl_same _ s (List.range 1024) (fun _ _ => by simp [hm]), foldl_same _ s (List.range 256) (fun _ _ => by simp [hm])]

/-- R383: the stage comes into force on its tick. -/
theorem witness_CommitsFreezeCheckAndApply_applies :
    let s := committing R.STG_STATUS.PENDING pc
    s.checkStage true = 0 ∧ still s.applyStage = true ∧ s.applyStage.client.started = s.client.started := by
  intro s
  have off : ∀ t : State, t.flag R.LPIPE_CTL.ENABLE = false → ∀ c, t.lpOn c = false := fun t ht c => by
    unfold State.lpOn; rw [ht]; rfl
  have e : s.applyStage = afterLp (beforeLp s) s := by
    show afterLp ((beforeLp s).lpCommit s) s = _
    rw [lpCommit_same (by decide +kernel) (off _ (by decide +kernel)) (off _ (by decide +kernel))]
  rw [e]
  decide +kernel
/-! ### Memory, boot, pushes and the test access port -/

/-- R304, R310-R317: bytes at the end of a word; out of reach; a stuck word; a page with a spare, the last one, and none. -/
theorem witness_MemoryWordsAndRetirement :
    let s := ram [(R.CEL_SPARE.FREE 0, 64)] [(65536 - 4, [1, 2, 3, 4])]
    let bad := { s with cel := { s.cel with bad := [⟨16383, 9, true⟩] } }
    let h := Home.cellar 0 65532
    let due (free : Nat) : State := { bad.put (R.CEL_SPARE.FREE 0) free with cel := { bad.cel with toRetire := [(0, 0)] } }
    let e : RetEntry := ⟨1, 7, 3, false, false⟩
    let listed := { s with cel := { s.cel with retired := [e] } }
    let t := after .pageRetire (due 64)
    let clean := { due 64 with cel := { (due 64).cel with bad := [] } }
    (List.range 4).all (fun i => s.resolve .firmware (65532 + i) == some (h.plus i)) = true ∧ s.phys h % 4 = 0 ∧
    (List.range 16).all (fun k => (s.wordCheck (s.phys (h.inLine (4 * k)))).isNone) = true ∧ h.inLine (65532 % 64) = h ∧
    (bad.look .firmware h).1 ≠ .hit ∧
    (List.range 15).all (fun k => (bad.wordCheck (bad.phys (h.inLine (4 * k)))).isNone) = true ∧
    clean.marksIn 0 0 = [] ∧ (due 64).marksIn 0 0 = [65532] ∧ nextRetire clean.cel.toRetire = some (0, 0) ∧
    (after .pageRetire clean).cel.retired = [⟨0, 0, 0, false, false⟩] ∧ (after .pageRetire (due 64)).get R.CEL_CNT_HARD.N = 1 ∧
    tidy s = true ∧ s.resolve .firmware 65532 = some h ∧ s.unusable h = false ∧ s.wordCheck (s.phys h) = none ∧
    s.resolve .firmware 65536 = none ∧ bad.wordCheck (bad.phys h) = some ⟨16383, 9, true⟩ ∧ nextRetire s.cel.toRetire = none ∧
    nextRetire (due 64).cel.toRetire = some (0, 0) ∧ (List.range 16).all (fun n => !cfgEnabled ((due 64).setCfg n)) = true ∧
    0 < (due 64).get (R.CEL_SPARE.FREE 0) ∧ (due 0).get (R.CEL_SPARE.FREE 0) = 0 ∧ (due 64).cel.retired = [] ∧
    s.boot.power = true ∧ s.flag R.GLB_STATUS.READY = true ∧
    ((s.store .firmware 65533 [7, 8, 9]).2.load .firmware 65532 4).2.1 = [1, 7, 8, 9] ∧ (s.store .firmware 65536 [7]).1 = .range ∧
    (bad.load .firmware 65535 1).1 = .parity ∧ (bad.load .firmware 65535 1).2.2.get R.CEL_FAULT_LO.ADDR = 65532 ∧
    t.cel.retired = [⟨0, 0, 0, true, false⟩] ∧ t.get (R.CEL_SPARE.FREE 0) = 63 ∧ t.get R.CEL_CNT_RETIRED.N = 1 ∧
    (after .pageRetire (due 0)).flag R.CEL_STATUS.SPARES_OUT = true ∧
    (after (.celRetRead 0) listed).get R.CEL_RET_DATA.PAGE = 7 ∧ (after (.celRetRead 1) listed).reg R.CEL_RET_DATA = 0 := by decide +kernel

/-- A powered module before READY with the crystal ready, and firmware slot 2 naming a signer of zeros. -/
def starting (xs : List (Fld × Nat)) (slot : List Byte) : State :=
  let s := fill State.reset (xs ++ [(R.CLK_STATUS.XTAL_READY, 1)])
  { s with module := { s.module with fwSlots := [[], [], List.replicate 32 0, []], revoked := 0, rollback := 0 }
           boot := { s.boot with slot := slot } }

/-- A firmware file of a header alone, SVN 5, which revokes slot 1. -/
def firmware : List Byte := [0x4B, 0x46, 0x57, 0x31, 1, 0, 5, 2] ++ leBytes 8 256 ++ List.replicate 240 0 ++ List.replicate 3408 0

/-- R476: where its signatures verify, that file passes. -/
theorem witness_BootFusesAndResets_image
    (h : ∀ g : Signer, g.hash = List.replicate 32 0 → g.verifies (sha256 (fwBody firmware)) (fwBlock firmware) = true) :
    (starting [] []).module.fwCode firmware = 0 := by
  have e1 : fwLengthOk firmware = true := by decide +kernel
  have e2 : fwFormatOk firmware = true := by decide +kernel
  have e3 : ((starting [] []).module.slotOf ((fwBlock firmware).take 32)).isNone = false := by decide +kernel
  have e4 : fieldAt firmware 6 1 = 5 := by decide +kernel
  have e5 : (fwBlock firmware).take 32 = List.replicate 32 0 := by decide +kernel
  have hv := h ⟨(fwBlock firmware).take 32, (Config.keysOf ((fwBlock firmware).take 32)).1,
    (Config.keysOf ((fwBlock firmware).take 32)).2, false⟩ e5
  have hr : (starting [] []).module.rollback = 0 := rfl
  unfold Module.fwCode
  simp only [hv, hr, e1, e2, e3, e4, Bool.not_true, Bool.false_eq_true, ↓reduceIte, Nat.not_lt_zero]

/-- R476-R478, R482-R486, R491, R458: recovery with code 5; resets; a drop; a trip at 126; fuses to SVN 5 and slot 3. -/
theorem witness_BootFusesAndResets :
    let due := starting [] []
    let dark := due.drop R.CLK_STATUS.XTAL_READY
    let off := { due with boot := { due.boot with power := false } }
    let c : FlashCfg := { seq := 3, net := { ports := [List.replicate 64 0, List.replicate 64 0], allow := [] }, signers := [1] }
    let conf := { due with boot := { due.boot with cfgA := c.bytes } }
    let fuse (have_ : Nat) (rev : Nat) : State :=
      let s := fill served [(R.BOOT_STATUS.FUSE_BUSY, 1)]
      { s with module := { due.module with rollback := have_ }, boot := { s.boot with fuseCount := 5, fuseRevoke := rev } }
    let cert := { due with module := { due.module with certs := [[1, 2, 3, 4, 5, 6, 7, 8], [], []] } }
    let t := after (.moduleReset true 0) due
    tidy due = true ∧ due.boot.power = true ∧ due.flag R.GLB_STATUS.READY = false ∧ due.flag R.GLB_STATUS.RECOVERY = false ∧
    due.flag R.CLK_STATUS.XTAL_READY = true ∧ off.boot.power = false ∧ due.module.fwCode due.boot.slot = 5 ∧ due.boot.config = none ∧
    conf.boot.config = some c ∧ conf.boot.target = true ∧ due.boot.target = false ∧ (125 : Int) < (126#8 : BitVec 8).toInt ∧ (115 : Int) < (116#8 : BitVec 8).toInt ∧
    (fuse 4 0).module.rollback < (fuse 4 0).boot.fuseCount ∧ (fuse 5 8).boot.fuseCount ≤ (fuse 5 8).module.rollback ∧
    bit (fuse 5 8).boot.fuseRevoke 3 = true ∧ served.flag R.GLB_STATUS.READY = true ∧
    t.flag R.GLB_STATUS.RECOVERY = true ∧ t.get R.BOOT_STATUS.REASON = 5 ∧
    (after (.moduleReset true 0) dark).flag R.GLB_STATUS.RECOVERY = false ∧
    (after (.bootCtlReset 0xA5 true) served).flag R.GLB_STATUS.READY = false ∧
    (after (.bootCtlReset 0xA4 true) served).get R.GLB_ACCESS_ERR.COUNT = 1 ∧ (after .powerOn off).boot.power = true ∧
    (after .supplyDrop due).boot.power = false ∧ (after (.thermalTrip 9 126) due).boot.power = false ∧
    (after (.thermalTrip 9 125) due).boot.power = true ∧ (after (.thermalTrip 6 106) due).boot.power = false ∧
    (after (.thermalTrip 8 115) due).boot.power = true ∧ (after (.thermalTrip 8 116) due).boot.power = false ∧
    (after .fuseBlow (fuse 4 0)).get R.BOOT_FW.ROLLBACK = 5 ∧ (after .fuseBlow (fuse 4 0)).flag R.BOOT_STATUS.FUSE_BUSY = false ∧
    (after .fuseBlow (fuse 5 8)).module.revoked = 8 ∧ (after (.bootCertSelect 0 1) cert).get R.BOOT_CERT_DATA.N = 0x08070605 ∧
    (after (.bootCertSelect 0 1) cert).get R.BOOT_CERT_LEN.BYTES = 8 := by
  decide +kernel

/-- R479, R481, R487: GO outside recovery, beside a push, and with a short file; FW_PUSH of neither kind; a push that ends. -/
theorem witness_PushesAndAttestation :
    let rec_ := starting [(R.GLB_STATUS.RECOVERY, 1)] [1]
    let p (sg : Bool) : Push := { file := [0x4B, 0x53, 0x4C, 0x31, 0, 0, 0, 0, 0, 0, 0, 0, 0, 0, 0, 0, 9], signers := sg, owner := some (2, 3) }
    let busy (sg : Bool) : State := { job [] (dat 0x51 4 [] [1, 2, 3, 4]) with boot := { rec_.boot with push := some (p sg) } }
    let alone := { rec_ with boot := { rec_.boot with push := some { p false with owner := none } } }
    let fw := job [] (dat 0x51 4 [] [1, 2, 3, 4])
    tidy rec_ = true ∧ rec_.flag R.GLB_STATUS.RECOVERY = true ∧ served.flag R.GLB_STATUS.RECOVERY = false ∧ rec_.boot.push = none ∧
    rec_.module.fwCode [] = 5 ∧ rec_.hostRead 0 0 = [] ∧ fw.startedAs 2 3 0x51 = some (dat 0x51 4 [] [1, 2, 3, 4]) ∧
    fw.client.started.find? (fun x => x.op == 0x51 && !x.waiting) = some (dat 0x51 4 [] [1, 2, 3, 4]) ∧ fw.boot.push = none ∧
    (busy true).boot.push = some (p true) ∧
    (after (.bootPushGo true) served).get R.GLB_ACCESS_ERR.COUNT = 1 ∧ (after (.bootPushGo true) alone).get R.BOOT_PUSH_STATUS.CODE = 8 ∧
    (after (.bootPushGo false) rec_).get R.BOOT_PUSH_STATUS.CODE = 7 ∧ (after (.bootPushGo true) rec_).get R.BOOT_PUSH_STATUS.CODE = 5 ∧
    (after (.bootPushGo true) rec_).boot.slot = [1] ∧ ended (after (.fwPush 2 3) fw) = (0x207, 1, 1) ∧
    (after (.pushComplete true) (busy false)).boot.slot = (p false).file ∧ (after (.pushComplete true) (busy true)).boot.signers.length = 16 ∧
    ended (after (.pushComplete false) (busy true)) = (0x503, 6, 1) ∧ (after (.pushComplete true) alone).boot.slot = (p false).file := by
  decide +kernel

/-- R474, R477, R478, R481, R484, R491, R502-R504: a good slot on a module with its memory dies and with one lost; a flash that
the port has, or that cannot be read; BOOT_CTL without power; a list while an update of flash is written; ATTEST on a commit's tick. -/
theorem witness_BootFusesAndResets_more :
    let due := starting [] []
    let held := { due with boot := { due.boot with tap := { due.boot.tap with instr := .extest } } }
    let off := { due with boot := { due.boot with power := false } }
    let stops (t : State) : Bool := bit (t.get R.FLD_LS_CAUSE.CAUSE) 0 && t.link.down.any (fun f => f.msg == .lsSet false)
    let dead := after (.moduleReset false 0) due
    held.pinsTaken = true ∧ due.pinsTaken = false ∧ due.module.lost / 4 = 0 ∧ ({ due.module with lost := 4 } : Module).lost / 4 ≠ 0 ∧
    dead.flag R.GLB_STATUS.RECOVERY = true ∧ (after (.moduleReset true 0) held).flag R.GLB_STATUS.RECOVERY = true ∧
    stops (after (.moduleReset true 0) due) = true ∧
    (after (.bootCtlReset 0xA5 true) off).boot.power = false ∧ (after (.bootCtlReset 0 true) off).get R.GLB_ACCESS_ERR.COUNT = 0 ∧
    (after .supplyDrop due).field.offAt = some due.field.ftime ∧ (after .supplyDrop due).boot.tap = due.module.tapReset := by
  decide +kernel

theorem witness_PushesAndAttestation_more :
    let c : FlashCfg := { seq := 3, net := { ports := [List.replicate 64 0, List.replicate 64 0], allow := [] }, signers := [1] }
    let p : Push := { file := [0x4B, 0x53, 0x4C, 0x31, 0, 0, 0, 0, 0, 0, 0, 0, 0, 0, 0, 0, 9], signers := true, owner := none }
    let s := starting [(R.GLB_STATUS.RECOVERY, 1)] [1]
    let s := { s with boot := { s.boot with push := some p, cfgA := c.bytes } }
    let held := { s with boot := { s.boot with tap := { s.boot.tap with instr := .extest } } }
    let t := after (.pushComplete true) s
    let d := dat 0x50 8752 (List.replicate 32 6) []
    let due := committing R.STG_STATUS.PENDING pc
    let due := { due with client := { due.client with started := due.client.started ++ [{ d with index := 4 }] } }
    s.boot.push = some p ∧ s.boot.config = some c ∧ s.boot.target = true ∧ held.pinsTaken = true ∧
    t.boot.cfgWrite.isSome = true ∧ t.boot.cfgB = [] ∧ t.boot.cfgA = c.bytes ∧ t.flag R.BOOT_STATUS.FLASH_BUSY = true ∧
    (after (.pushComplete true) held).get R.BOOT_PUSH_STATUS.CODE = 6 ∧ (after (.pushComplete true) held).boot.signers = s.boot.signers ∧
    due.startedAs 2 4 0x50 = some { d with index := 4 } ∧ due.commitDue ≠ none ∧ after (.attest 2 4) due = due := by decide +kernel

/-- R487: a started ATTEST. -/
theorem witness_PushesAndAttestation_attest :
    let d := dat 0x50 8752 (List.replicate 32 6) []
    (job [] d).startedAs 2 3 0x50 = some d ∧ sliceBytes d.bytes 24 32 = List.replicate 32 6 ∧ d.lenOk = true ∧ d.reservedOk = true := by
  decide +kernel

/-- R502, R504: CLAMP drives before READY and acts as BYPASS in service. -/
theorem witness_TestAccessPort :
    State.reset.flag R.GLB_STATUS.READY = false ∧ served.tapBypassed = true ∧ (after .clamp State.reset).boot.tap.instr = .clamp ∧
    (after .clamp served).boot.tap.instr = .clamp ∧ (after .clamp served).tapActs = .bypass ∧ (after .clamp State.reset).tapActs = .clamp ∧
    (after .bypass served).boot.tap.ir = 255 ∧ (after .bypass served).boot.tap.instr = .bypass ∧ tapDecode 9 = .bypass ∧
    (after (.extest 5) served).boot.tap.boundary = 0 ∧
    ((after .highz State.reset).pinDrive 7).2 = .floats ∧ (served.pinDrive 7).2 = .module ∧ ((after (.extest 128) State.reset).pinDrive 7).2 = .cell true ∧ (after (.extest 5) State.reset).boot.tap.boundary = 5 ∧
    (after .idcode State.reset).boot.tap.captured.toNat % 2 ^ 28 = 0x7160 * 2 ^ 12 + 0x5CB := by decide +kernel
/-! ### Matrix cores: matrix, vector and transfer commands -/

/-- A pair whose image lies at 0x4000, its lists at 0x4100. -/
def pair0 : Pair :=
  ⟨⟨0x4000, 0x1000, [], [], 0, 0, 0, false, (0x40, 0x40), (0x100, 0x200), (0, 0), (0, 0), (0, 0), (0, 0)⟩, ⟨0, 0, [], []⟩, 0⟩

/-- A list of job 0. -/
def list0 : ListCtx := { job := 0, pair := pair0, kind := .setup, pc := 0 }

/-- Core 1 in normal mode, its job RUNNING at DTIME 1 ms, at the head of a list of records; bytes in its Larder. -/
def lab (records : List Byte) (larder : List (Nat × List Byte)) : State :=
  let s := ram [(R.CORE_LDR_STATUS.MODE 1, 0), (R.PWR_STATUS.QSTATE, 0), (R.STG_JOB_STATUS.STATE 0, 2)] [(0x4100, records)]
  let s := larder.foldl (fun s m => s.larderWrite 1 m.1 m.2) s
  { s with dtime := 1000000, lists := [(1, list0)] }

/-- Core 1 at a record whose continuations lie out of reach: the record ends region 0. -/
def edge (record : List Byte) : State :=
  let s := poke (lab [] []) 65504 (record.take 32)
  { s with lists := [(1, { list0 with pair := { pair0 with image := { pair0.image with base := 65504 - 256 } } })] }

/-- The first word of the lists at 0x4100 is stuck. -/
def torn (s : State) : State := { s with cel := { s.cel with bad := [⟨0x1040, 9, true⟩] } }

/-- What a fetch of the record at the head of core 1's list and its continuations ends with. -/
def fetchEnds (s : State) (r : List Byte) : Option MemRes :=
  (s.list 1).map (fun l => (s.load .issuer (l.pair.image.base + l.pair.image.lists.1 + l.pc) (32 * (1 + fieldAt r 3 1))).1)

/-- An MCMD record (R243): formats FA and FW, OUT, one vector of one element and one column, window at 0, weights at 512,
d at 0x8000, quantisation at 1024; MAXDUR 3. -/
def mcmd (fa fw out : Nat) : List Byte :=
  [1, 0, 0, 1, 3, 0, 0, 0, 0, BitVec.ofNat 8 (fa + 16 * fw), BitVec.ofNat 8 out, 0] ++ leBytes 4 1 ++ List.replicate 8 0 ++
    leBytes 2 0 ++ leBytes 2 1 ++ leBytes 2 64 ++ leBytes 2 2 ++ List.replicate 32 0

/-- A window descriptor of mode 0 (R189) with the vectors at 1536. -/
def rowsWin : List Byte := [0, 0, 0, 0] ++ leBytes 4 1536 ++ List.replicate 16 0 ++ [1, 0, 1, 0, 1, 0, 1, 0, 1, 1, 1, 1, 1, 1]

/-- R147, R150, R158: 3 x 5 = 15, (15 x 2 + 1) >> 1 = 15, with ZP -1 is 14, as INT8. -/
theorem witness_MatrixCommandsMultiply :
    let s := lab (mcmd 0 0 0) [(0, rowsWin), (512, [5]), (1024, [2, 0, 1, 0xFF]), (1536, [3])]
    let c := Mx.decode (mcmd 0 0 0) ((mcmd 0 0 0).drop 32)
    tidy s = true ∧ s.headCommand 1 1 .matrix = some (list0, (mcmd 0 0 0).take 32) ∧ s.headCommand 2 1 .matrix = none ∧
    s.recordAt list0 1 = (mcmd 0 0 0).drop 32 ∧ c.geom = some (64, 256) ∧ c.outOk = true ∧ c.aligned = true ∧ c.win = 0 ∧
    c.multi = 0 ∧ fmtFamily c.fa = 0 ∧ c.load = false ∧ c.m = 1 ∧ c.n = 1 ∧ (s.core 1).bad = [] ∧
    (Win.decode (s.larderRead 1 c.win 64)).mode = 0 ∧ c.winFault (Win.decode (s.larderRead 1 c.win 64)) 64 = none ∧
    (s.load .issuer 0x4100 64).1 = .ok ∧ (s.load .issuer 0x4100 64).2.2 = s ∧ fetchEnds (edge (mcmd 0 0 0)) (mcmd 0 0 0) = some .range ∧
    ((edge (mcmd 0 0 0)).headCommand 1 1 .matrix).isSome = true ∧ fetchEnds (torn s) (mcmd 0 0 0) = some .parity ∧
    ((torn s).headCommand 1 1 .matrix).isSome = true ∧ c.winFault (Win.decode (List.replicate 64 0)) 64 = some 5 ∧
    (Mx.decode (mcmd 0 6 0) []).geom = none ∧ (Mx.decode (mcmd 0 0 6) []).outOk = false ∧
    c.wbase = 512 ∧ c.dbase = 0x8000 ∧ c.qparam = 1024 := by decide +kernel

theorem witness_MatrixCommandsMultiply_result :
    let t := after (.mcmd 1) (lab (mcmd 0 0 0) [(0, rowsWin), (512, [5]), (1024, [2, 0, 1, 0xFF]), (1536, [3])])
    t.ldrRead 1 0x8000 3 = [14, 0, 0] ∧ t.ldrRead 1 1536 1 = [3] ∧ t.flag (R.CORE_STATUS.BUSY 1) = true ∧
    (t.list 1).map (fun l => (l.pc, l.issued)) = some (64, [⟨.matrix, 30, 1000000, false,
      (lab (mcmd 0 0 0) []).portMasks list0 ((mcmd 0 0 0).take 32) .matrix⟩]) ∧ t.get (R.CORE_ACT_LO.N 1) = 1 ∧
    ((after (.mcmd 1) (edge (mcmd 0 0 0))).list 1).isNone = true ∧
    ((after (.mcmd 1) (torn (lab (mcmd 0 0 0) []))).list 1).isNone = true := by decide +kernel

/-- A VCMD record (R245): OP, FMT and OFMT, bytes 10 and 11, a at 0, b at 512, d at 2048, COUNT of one, PARAM. -/
def vcmd (op fmt b10 b11 : Nat) (param : List Byte) : List Byte :=
  [2, 0, 0, 2, 3, 0, 0, 0, BitVec.ofNat 8 op, BitVec.ofNat 8 (fmt * 17), BitVec.ofNat 8 b10, BitVec.ofNat 8 b11] ++ leBytes 4 0 ++
    leBytes 4 512 ++ leBytes 4 2048 ++ leBytes 2 0 ++ [1, 0, 1, 0, 1, 0] ++ List.replicate 16 0 ++
    (param ++ List.replicate 48 0).take 48

/-- The command of `vcmd` as decoded, and the state before it: a and b rows of INT32. -/
def vx (op fmt b10 b11 : Nat) (param : List Byte) : Vx :=
  Vx.decode (vcmd op fmt b10 b11 param) ((vcmd op fmt b10 b11 param).drop 32) ((vcmd op fmt b10 b11 param).drop 64)
def vlab (op fmt b10 b11 : Nat) (param : List Byte) : State :=
  lab (vcmd op fmt b10 b11 param) [(0, leBytes 4 7 ++ leBytes 4 9 ++ leBytes 4 4294967295), (512, leBytes 4 2147483647 ++ leBytes 4 3)]

/-- PARAM of VMACW: t = 1 tap of weight 3 at dx 0, INIT KEEP, W = 2. -/
def tap : List Byte := [1, 1, 1, 0, 0, 0, 2, 0, 3, 0, 0]

/-- R202: a sum, its saturation, and each group of clauses has a command that passes the checks. -/
theorem witness_VectorCommandsCompute :
    let s := vlab 2 8 0 0 []
    let r := (vcmd 2 8 0 0 []).take 32
    let t := after (.vadd 1) s
    tidy s = true ∧ s.headCommand 1 2 .vector = some (list0, r) ∧ s.headCommand 2 2 .vector = none ∧ fieldAt r 3 1 = 2 ∧
    fieldAt r 8 1 = 2 ∧ s.cores.length = 16 ∧ (s.core 1).bad = [] ∧ (vx 2 8 0 0 []).check = none ∧ (vx 2 8 0 0 []).lanes = 128 ∧
    (vx 2 8 0 0 []).dAcc = false ∧ (vx 2 8 0 0 []).round = 0 ∧ (vx 2 8 0 0 []).count = 1 ∧ (vx 21 8 0 0 []).check = some (.window 8) ∧
    (s.load .issuer 0x4100 96).1 = .ok ∧ (s.load .issuer 0x4100 96).2.2 = s ∧ fetchEnds (torn s) r = some .parity ∧
    fetchEnds (edge (vcmd 2 8 0 0 [])) r = some .range ∧ ((edge (vcmd 2 8 0 0 [])).headCommand 1 2 .vector).isSome = true ∧
    (vx 2 9 0 0 []).check = some (.window 8) ∧ (vx 0 8 0 0 []).check = some (.window 8) ∧
    t.ldrRead 1 2048 12 = leBytes 4 2147483647 ++ leBytes 4 12 ++ leBytes 4 4294967295 ∧ t.get (R.CORE_SAT.N 1) = 1 ∧
    t.get (R.CORE_VEC_STEPS.N 1) = 1 ∧ (after (.vsub 1) s).ldrRead 1 2048 4 = [0, 0, 0, 0] := by decide +kernel

/-- R203, R205, R207: commands of the other clauses, with what they leave. -/
theorem witness_VectorCommandsCompute_kinds :
    let pool : List Byte := [2, 1, 0, 0, 1, 0, 128]
    let lut : List Byte := List.replicate 8 0 ++ leBytes 4 512 ++ [2]
    [vx 2 8 0x80 0x10 [], vx 14 8 0 0 pool, vx 13 1 0 0 lut, vx 10 0 0x80 0 tap, vx 15 8 0 0 [], vx 18 8 0x40 0 [8, 0, 0, 0],
      vx 19 8 0 0 [2, 0], vx 20 8 0 0 [2, 0]].map (fun c => (c.check.isNone, c.dAcc, c.round, c.count)) =
      [(true, true, 0, 1), (true, false, 0, 1), (true, false, 0, 1), (true, true, 0, 1), (true, false, 0, 1), (true, false, 0, 1),
        (true, false, 0, 1), (true, false, 0, 1)] ∧
    (vx 14 8 0 0 pool).pool (List.replicate 128 (.int 1)) 0 = .int 1 ∧
    (vx 19 8 0 0 [2, 0]).sd = 512 ∧
    (after (.vadd 1) (vlab 2 8 0x80 0x10 [])).accLane 1 8 1 1 = .int 12 ∧
    (after (.vpoolh 1) (vlab 14 8 0 0 pool)).ldrRead 1 2048 4 = leBytes 4 9 ∧
    (after (.vlut 1) (vlab 13 1 0 0 lut)).ldrRead 1 2048 4 = [0, 0, 0xFF, 0xFF] := by decide +kernel

theorem witness_VectorCommandsCompute_more :
    (after (.vmacw 1) (vlab 10 0 0x80 0 tap)).accLane 1 0 0 0 = .int 21 ∧
    (after (.vrsum 1) (vlab 15 8 0 0 [])).ldrRead 1 2048 8 = leBytes 8 15 ∧
    (after (.vrmax 1) (vlab 16 8 0 0 [])).ldrRead 1 2048 8 = leBytes 4 9 ++ leBytes 4 1 := by decide +kernel

theorem witness_VectorCommandsCompute_last :
    (after (.vrmin 1) (vlab 17 8 0 0 [])).ldrRead 1 2048 8 = leBytes 4 4294967295 ++ leBytes 4 2 ∧
    (after (.vcnt 1) (vlab 18 8 0x40 0 [8, 0, 0, 0])).ldrRead 1 2048 4 = leBytes 4 1 ∧
    (after (.vdlv 1) (vlab 19 8 0 0 [2, 0])).ldrRead 1 2560 4 = leBytes 4 9 ∧
    (after (.vilv 1) (vlab 20 8 0 0 [2, 0])).ldrRead 1 2048 8 = leBytes 4 7 ++ leBytes 4 2147483647 ∧
    fmtIsFp 8 = false ∧ fmtIsFp 6 = true ∧ (after (.vdlv 1) (vlab 19 6 0 0 [2, 0])).ldrRead 1 2048 8 = leBytes 4 7 ++ leBytes 4 0x7FC00000 := by
  decide +kernel

/-- A record of 32 bytes: its type, and bytes at offsets. -/
def rcd (type : Nat) (xs : List (Nat × List Byte)) : List Byte :=
  xs.foldl (fun r x => r.take x.1 ++ x.2 ++ r.drop (x.1 + x.2.length)) (BitVec.ofNat 8 type :: List.replicate 31 0)

/-- A transfer of two lines of 8 bytes: Larder 1024 on, with stride 16; memory 0x800 on, with stride 64. -/
def xfer (b8 : Nat) : List Byte := rcd 3 [(4, [3]), (8, [BitVec.ofNat 8 b8]), (10, [2]), (12, leBytes 4 1024), (16, leBytes 4 0x800),
  (24, [8, 0, 16, 0, 64])]
def xlab (b8 : Nat) : State := poke (lab (xfer b8) [(1024, [1, 2, 3, 4]), (1040, [5, 6])]) 0x800 [9, 8, 7]

/-- R246, R251: both directions, a base that the list does not have, and the ends of the commands with MAXDUR of 30 ns. -/
theorem witness_TransfersAndCommandEnds :
    let u := (xlab 0).issueCommand 1 list0 (xfer 0) .transfer
    let w0 := u.xferWaits (u.jobPart 0) 0x800 8 64 2
    let part (a : Nat) : List (Nat × Bool) := (lineRows a 8).filter (·.2)
    let w1 := ((w0.load (.xfer 1 0) 0x800 8).2.2.narrowRead 1 (part 1024)).2.ldrWrite 1 1024 (w0.load (.xfer 1 0) 0x800 8).2.1
    let sick (s : State) : State := s.setCore 1 { s.core 1 with bad := [⟨260, 9, true⟩] }
    let su := (sick (xlab 0)).issueCommand 1 list0 (xfer 0) .transfer
    let sw := su.xferWaits (su.jobPart 0) 0x800 8 64 2
    let so := (sick (xlab 1)).issueCommand 1 list0 (xfer 1) .transfer
    let x := xlab 1
    let run (dt : Nat) : State := { x with
      dtime := dt, lists := [(1, { list0 with issued := [⟨.transfer, 30, 1000000, false, []⟩] })] }
    fetchEnds x (xfer 1) = some .ok ∧ (w0.core 1).bad = [] ∧ fetchEnds (torn x) (xfer 1) = some .parity ∧
    ((torn x).headCommand 1 3 .transfer).isSome = true ∧ list0.kind = .setup ∧
    fetchEnds (edge ((xfer 1).take 3 ++ [1] ++ (xfer 1).drop 4)) ((xfer 1).take 3 ++ [1]) = some .range ∧
    tidy x = true ∧ x.headCommand 1 3 .transfer = some (list0, xfer 1) ∧ x.headCommand 2 3 .transfer = none ∧
    bit (fieldAt (xfer 1) 8 1) 0 = true ∧ list0.xferBase 0 = some 0 ∧ fieldAt (xfer 5) 8 1 / 2 % 8 = 2 ∧
    (u.core 1).bad = [] ∧ (w0.load (.xfer 1 0) 0x800 8).1 = .ok ∧ (w1.load (.xfer 1 0) 0x840 8).1 = .ok ∧
    (part 1024).length = 1 ∧ ((w0.load (.xfer 1 0) 0x800 8).2.2.narrowRead 1 (part 1024)).1 = none ∧
    (sw.load (.xfer 1 0) 0x800 8).1 = .ok ∧ ((sw.load (.xfer 1 0) 0x800 8).2.2.narrowRead 1 (part 1024)).1.isSome = true ∧
    (so.xferWaits 0 0x800 8 64 2 |>.narrowRead 1 (lineRows 1024 8)).1.isSome = true ∧ (w0.narrowRead 1 (lineRows 1024 8)).1 = none ∧ (u.load (.xfer 1 0) 0x800000 8).1 = .range ∧
    ((((xlab 1).issueCommand 1 list0 (xfer 1) .transfer).xferWaits 0 0x800 8 64 2).store (.xfer 1 0) 0x800 [1, 2, 3, 4, 0, 0, 0, 0]).1 = .ok ∧
    ((run 1000030).list 1).map (fun l => (l.running .transfer).isSome) = some true ∧
    ((run 1000030).list 1).map (fun l => (l.running .vector).isNone) = some true ∧
    (after (.xferToLarder 1) (xlab 0)).ldrRead 1 1024 18 = [9, 8, 7, 0, 0, 0, 0, 0, 0, 0, 0, 0, 0, 0, 0, 0, 0, 0] ∧
    (after (.xferFromLarder 1) x).modBytes 0x800 4 = [1, 2, 3, 4] ∧ (after (.xferFromLarder 1) x).modBytes 0x840 3 = [5, 6, 0] ∧
    ((after (.xferFromLarder 1) (xlab 5)).list 1).isNone = true ∧
    ((after (.maxdurExpire 1 2) (run 1000030)).list 1).isSome = true ∧ ((after (.maxdurExpire 1 2) (run 1000031)).list 1).isNone = true ∧
    ((after (.commandComplete 1 2) (run 1000030)).list 1).map (fun l => l.running .transfer) = some none := by decide +kernel

/-- A module at DTIME 1 ms whose core 1 and part entry 0 are at the head of one record each, with object 4. -/
def llab (r : List Byte) (kind : ListKind) (o : SyncObj) (parts : List Byte := []) : State :=
  poke { lab r [] with
    lists := [(1, { list0 with kind := kind }), (16, { list0 with kind := .part 0, pc := 64 })]
    sync := { served.sync with objs := [(4, o)] } } 0x4140 parts

/-- R247, R252, R333: a record of each type, at its head and elsewhere. -/
theorem witness_ListRecordsAndThreads :
    let sem (v : Int) : SyncObj := { cfg := { type := 1 }, value := v }
    let lone : SyncObj := { cfg := { type := 1, owner := 0, access := 0 } }
    let at1 (r : List Byte) : State := llab r .setup (sem 1)
    let wait := rcd 4 [(8, [4]), (16, [1])]
    let signal := rcd 5 [(8, [4]), (16, [2])]
    let launch := rcd 6 [(8, [0x10]), (12, [3]), (16, [7]), (26, [4])]
    let idle := rcd 7 [(12, [50])]
    let load := rcd 7 [(8, [1]), (10, [90])]
    let result := rcd 8 [(16, leBytes 4 0x3000)]
    let busy := { at1 signal with lists := [(1, { list0 with issued := [⟨.vector, 30, 0, false, []⟩] })] }
    let own : SyncObj := { cfg := { type := 1, owner := 3 }, value := 1 }
    let s := llab idle .setup (sem 1) result
    tidy s = true ∧ [rcd 0 [], wait, signal, launch, idle, load, rcd 9 []].all (fun r =>
      (at1 r).headRecord 1 (fieldAt r 0 1) == some (list0, r)) = true ∧ s.headRecord 17 8 = none ∧ (at1 idle).headRecord 1 9 = none ∧
    (s.headRecord 16 8).map (·.2) = some result ∧ ((at1 wait).so 4).allowed 0 = true ∧ s.jobPart 0 = 0 ∧ lone.allowed 1 = false ∧
    (∃ x ∈ [(⟨.vector, 30, 0, false, []⟩ : Issued)], x.complete = false) ∧ busy.headRecord 1 5 = some ({ list0 with
      issued := [⟨.vector, 30, 0, false, []⟩] }, signal) ∧ own.allowed 0 = false ∧ (at1 wait).expireDue = at1 wait ∧
    ((after (.waitRecord 1) (llab wait .setup own)).list 1).isNone = true ∧
    ((after (.signalRecord 1) (llab signal .setup own)).list 1).isNone = true ∧ fetchEnds (at1 idle) idle = some .ok ∧
    fetchEnds (torn (at1 idle)) idle = some .parity ∧ ((after (.idleFor 1) (torn (at1 idle))).list 1).isNone = true ∧
    fetchEnds (edge (rcd 0 [(3, [1])])) (rcd 0 [(3, [1])]) = some .range ∧
    ((after (.nopRecord 1) (edge (rcd 0 [(3, [1])]))).list 1).isNone = true ∧
    ((after (.idleFor 1) { s with lists := [(1, { list0 with idleUntil := 1060000, idleUs := 60 })] }).list 1).map
      (fun l => (l.idleUntil, l.idleUs)) = some (1060000, 60) ∧
    ((after (.nopRecord 1) (at1 (rcd 0 []))).list 1).map (·.pc) = some 32 ∧
    ((after (.idleFor 1) s).list 1).map (fun l => (l.pc, l.idleUntil)) = some (32, 1050000) ∧
    ((after (.load 1) s).list 1).map (·.pc) = some 0 ∧ ((after (.load 1) (at1 load)).list 1).map (·.pc) = some 32 ∧
    (after (.waitRecord 1) (at1 wait)).sync.arriving = [(.core 1, 4, 1)] ∧ ((after (.waitRecord 1) (at1 wait)).waitsStep.so 4).value = 0 ∧
    ((after (.waitRecord 1) (at1 wait)).waitsStep.list 1).map (·.pc) = some 32 := by decide +kernel

/-- R211, R247, R256: signals wait for earlier records, launches and ends, results of a part, threads that start. -/
theorem witness_ListRecordsAndThreads_more :
    let sem (v : Int) : SyncObj := { cfg := { type := 1 }, value := v }
    let at1 (r : List Byte) : State := llab r .setup (sem 1)
    let signal := rcd 5 [(8, [4]), (16, [2])]
    let launch (n : Nat) := rcd 6 [(8, [0x10]), (12, [BitVec.ofNat 8 n]), (16, [7]), (26, [4])]
    let run := after (.launch 1) (at1 (launch 3))
    let t := fill run [(R.STG_PTN_CFG.ENABLE 0, 1), (R.FLK_ENG_STATUS.IN_SERVICE 1, 1)]
    let t := t.setReg (R.STG_PTN_PIPES 0) 0xFFFF0000#32
    let done := after (.threadStart 1 5) t
    let fin : ListCtx := { list0 with kind := .part 0 }
    ((after (.signalRecord 1) (at1 signal)).so 4).value = 3 ∧ ((after (.launch 1) (at1 (launch 0))).so 4).value = 2 ∧
    run.flock.launches.map (fun l => (l.total, l.entry, l.arg, l.so, l.part)) = [(3, 0x4050, 7, 4, 0)] ∧
    t.pipeOwner 1 0 = some 0 ∧ t.pipeOwner 0 0 = none ∧ t.thread 1 5 = none ∧
    (t.flock.launches.find? (fun l => l.part == 0 && decide (l.nextIndex < l.total) && t.jobState l.job == 2)).isSome = true ∧
    (done.thread 1 5).map (fun x => (x.pc, x.g.take 3)) = some (0x4050, [0, 7, 0]) ∧ done.flock.launches.map (·.nextIndex) = [1] ∧
    ((after (.endRecord 1) (at1 (rcd 9 []))).list 1).isNone = true ∧ (at1 (rcd 9 [])).list 1 = some list0 ∧
    ((after (.endRecord 16) (llab [] .setup (sem 1) (rcd 9 []))).list 16).isNone = true ∧
    (after (.result 0) (llab [] .setup (sem 1) (rcd 8 [(16, leBytes 4 0x3000)]))).list 16 = some { fin with pc := 96 } := by decide +kernel
/-! ### Flock -/

/-- Words of the formats R and I (R213). -/
def wr (op rd ra rb fn : Nat) : Nat := ((op * 32 + rd) * 32 + ra) * 65536 + rb * 2048 + fn
def wi (op rd ra imm : Nat) : Nat := ((op * 32 + rd) * 32 + ra) * 65536 + imm

/-- A thread of job 0 at address 0x100, with registers g1 on. -/
def th0 (gs : List Nat) : Thread :=
  { g := ([0] ++ gs ++ List.replicate 31 0).take 32, pc := 0x100, job := 0, part := 0, launch := 0, nd := false }

/-- Context 9 of engine 0 holds a thread, its job RUNNING, pipeline 0 of its partition and the engine in service; `w` lies at address 0x100. -/
def flk (w : Nat) (t : Thread) (xs : List (Fld × Nat) := []) : State :=
  let s := ram ([(R.STG_JOB_STATUS.STATE 0, 2), (R.FLK_ENG_STATUS.IN_SERVICE 0, 1), (R.GTS_STATUS.QUORUM, 1), (R.STG_PTN_CFG.ENABLE 0, 1)] ++ xs)
    [(0x100, leBytes 4 w)]
  let s := s.setReg (R.STG_PTN_PIPES 0) 1
  { s with flock := { s.flock with threads := [(9, t)] } }

/-- `fetches` as a truth value, with the state after the fetch. -/
def fetched (s : State) (t : Thread) (w : Nat) : Bool :=
  s.thread 0 9 == some t && s.mayIssue 0 9 t && s.peekWord (t.agent 0) t.pc == some w && listed w && s.ready 0 t w &&
    (s.load (t.agent 0) t.pc 4).1 == .ok

/-- The registers g1 on after an instruction, and the pc. -/
def ran (i : Instr) (s : State) (n : Nat) : Option (List Nat × Nat) := ((after i s).thread 0 9).map (fun t => ((t.g.drop 1).take n, t.pc))

/-- R212, R214: each way not to issue, the faults, and a word that is issued. -/
theorem witness_FlockThreadsIssue :
    let w := wr 0 3 1 2 0
    let t := th0 [5, 7]
    let s := flk w t
    let bad := { s with cel := { s.cel with bad := [{ word := 64, fails := 9, stuck := true }] } }
    let code (s : State) : Nat := (after (.add 0 9) s).get (R.FLK_ENG_FAULT.CODE 0)
    let ld (rd : Nat) : MemOp := { kind := .load 4, addr := 0, rd := rd, pc := 0 }
    let mw := wi 0x12 3 1 0
    let full := flk mw { t with ops := List.replicate 8 (ld 9) }
    let badWord := { flk (wr 0 0 0 0 0x11) t with cel := bad.cel }
    tidy s = true ∧ s.thread 0 8 = none ∧ fetched s t w = true ∧ s.mayIssue 0 9 { t with swait := some 1 } = false ∧
    s.mayIssue 0 9 { t with fence := true, ops := [ld 5] } = false ∧ listed (wr 0 0 0 0 0x11) = false ∧
    rowWord 0 (some 1) w = false ∧ s.peekWord (t.agent 0) 0x800000 = none ∧ regsOf w ≠ [] ∧
    s.ready 0 { t with ops := [ld 1] } w = false ∧
    s.mayIssue 0 300 t = false ∧ ({ t with ops := [ld 1] } : Thread).resolved w = false ∧ full.memFull 0 { t with ops := List.replicate 8 (ld 9) } mw = true ∧
    (after (.ld32 0 9) full).flock = full.flock ∧ code badWord = ThreadFault.parity.code ∧ (bad.load (t.agent 0) 0x100 4).1 = .parity ∧
    bad.peekWord (t.agent 0) 0x100 = some w ∧ code s = 0 ∧ code (flk w { t with pc := 0x102 }) = ThreadFault.align.code ∧
    code (flk w { t with pc := 0x800000 }) = ThreadFault.range.code ∧ code (flk (wr 0 0 0 0 0x11) t) = ThreadFault.badOp.code ∧
    code bad = ThreadFault.parity.code := by decide +kernel

/-- R213, R214: results worked out by hand from the instruction table. -/
theorem witness_FlockRegisterInstructions :
    let go (i : Instr) (w : Nat) (gs : List Nat) : Option (List Nat × Nat) := ran i (flk w (th0 gs)) 3
    let m := 2 ^ 64 - 1
    fetched (flk (wr 0 3 1 2 1) (th0 [3, 5])) (th0 [3, 5]) (wr 0 3 1 2 1) = true ∧
    go (.add 0 9) (wr 0 3 1 2 0) [m, 2] = some ([m, 2, 1], 0x104) ∧ go (.sub 0 9) (wr 0 3 1 2 1) [3, 5] = some ([3, 5, m - 1], 0x104) ∧
    go (.sar 0 9) (wr 0 3 1 2 7) [2 ^ 63, 64 + 63] = some ([2 ^ 63, 127, m], 0x104) ∧
    go (.slt 0 9) (wr 0 3 1 2 8) [m, 0] = some ([m, 0, 1], 0x104) ∧ go (.sltu 0 9) (wr 0 3 1 2 9) [m, 0] = some ([m, 0, 0], 0x104) ∧
    go (.mulhu 0 9) (wr 0 3 1 2 13) [2 ^ 63, 6] = some ([2 ^ 63, 6, 3], 0x104) ∧
    go (.divu 0 9) (wr 0 3 1 2 14) [9, 0] = some ([9, 0, m], 0x104) ∧ go (.clz 0 9) (wr 0 3 1 2 15) [1, 0] = some ([1, 0, 63], 0x104) ∧
    go (.popc 0 9) (wr 0 3 1 2 16) [0xF0F, 0] = some ([0xF0F, 0, 8], 0x104) ∧
    go (.fadd 0 9) (wr 1 3 1 2 0) [0x3F800000, 0x40000000] = some ([0x3F800000, 0x40000000, 0x40400000], 0x104) ∧
    go (.fcvtf 0 9) (wr 1 3 1 2 7) [m, 0] = some ([m, 0, 0xBF800000], 0x104) ∧
    go (.fcvti 0 9) (wr 1 3 1 2 6) [0x40200000, 0] = some ([0x40200000, 0, 2], 0x104) := by decide +kernel

theorem witness_FlockRegisterInstructions_more :
    let go (i : Instr) (w : Nat) (gs : List Nat) : Option (List Nat × Nat) := ran i (flk w (th0 gs)) 3
    let m := 2 ^ 64 - 1
    go (.addi 0 9) (wi 2 3 1 0xFFFF) [5] = some ([5, 0, 4], 0x104) ∧ go (.addi 0 9) (wi 2 0 1 1) [5] = some ([5, 0, 0], 0x104) ∧
    go (.andi 0 9) (wi 3 3 1 0xFFF0) [0x1FF] = some ([0x1FF, 0, 0x1F0], 0x104) ∧
    go (.shi 0 9) (wi 6 3 1 0x81) [m] = some ([m, 0, m], 0x104) ∧ go (.shi 0 9) (wi 6 3 1 0x41) [m] = some ([m, 0, 2 ^ 63 - 1], 0x104) ∧
    go (.lui 0 9) (wi 7 3 0 0x8000) [] = some ([0, 0, 2 ^ 64 - 2 ^ 31], 0x104) ∧
    go (.beq 0 9) (wi 0x20 1 2 3) [4, 4] = some ([4, 4, 0], 0x10C) ∧ go (.beq 0 9) (wi 0x20 1 2 3) [4, 5] = some ([4, 5, 0], 0x104) ∧
    go (.blt 0 9) (wi 0x22 1 2 0xFFFE) [m, 0] = some ([m, 0, 0], 0xF8) ∧ go (.bltu 0 9) (wi 0x24 1 2 3) [m, 0] = some ([m, 0, 0], 0x104) := by decide +kernel

theorem witness_FlockRegisterInstructions_jumps :
    let go (i : Instr) (w : Nat) (gs : List Nat) : Option (List Nat × Nat) := ran i (flk w (th0 gs)) 3
    ((after (.jal 0 9) (flk (0x26 * 2 ^ 26 + 2 ^ 26 - 1) (th0 []))).thread 0 9).map (fun t => (t.pc, t.reg 31)) = some (0xFC, 0x104) ∧
    go (.jr 0 9) (wi 0x27 0 1 0) [0x200] = some ([0x200, 0, 0], 0x200) ∧
    ((after (.fence 0 9) (flk (wi 0x3A 0 0 0) (th0 []))).thread 0 9).map (·.fence) = some true ∧
    go (.rdt 0 9) (wi 0x3B 3 0 2) [] = some ([0, 0, 9], 0x104) ∧
    go (.rdt 0 9) (wi 0x3B 3 0 4) [] = some ([0, 0, (flk 0 (th0 [])).myId], 0x104) := by decide +kernel

/-- R215, R217, R219: accesses go out aligned and in reach, and complete. -/
theorem witness_FlockMemoryAndEnds :
    let s (w : Nat) (gs : List Nat) : State := flk w (th0 gs)
    let ops (i : Instr) (s : State) : Option (List (MemOp × Bool)) := ((after i s).thread 0 9).map (fun t =>
      t.ops.map (fun o => ({ o with home := none }, o.home.isSome)))
    let code (i : Instr) (s : State) : Nat := (after i s).get (R.FLK_ENG_FAULT.CODE 0)
    let t := th0 [0x200, 5]
    let op (k : MemOpKind) : MemOp := { kind := k, addr := 0x200, rd := 3, pc := 0x100 }
    let held (os : List MemOp) : State := poke (flk (wi 0x13 3 1 0) { t with ops := os }) 0x200 [7, 1]
    let ld := after (.flockMemComplete 0 9 0) (held [op (.load 2)])
    tidy (held []) = true ∧ fetched (s (wi 0x13 3 1 8) [0x200]) (th0 [0x200]) (wi 0x13 3 1 8) = true ∧
    (held []).inReach 0 t 0x200 8 = true ∧ (held []).inReach 0 t 0x800000 8 = false ∧ (held []).opAfter (op (.load 2)) (op (.store 2 0)) = true ∧
    ops (.ld64 0 9) (s (wi 0x13 3 1 8) [0x200]) = some [({ kind := .load 8, addr := 0x208, rd := 3, pc := 0x100 }, true)] ∧
    code (.ld64 0 9) (s (wi 0x13 3 1 4) [0x200]) = ThreadFault.align.code ∧
    code (.ld64 0 9) (s (wi 0x13 3 1 0) [0x800000]) = ThreadFault.range.code ∧
    ops (.st16 0 9) (s (wi 0x15 2 1 0) [0x200, 0x12345]) = some [({ kind := .store 2 0x2345, addr := 0x200, rd := 0, pc := 0x100 }, true)] ∧
    code (.aaddf 0 9) (s (wr 0x18 3 1 2 1) [0x200, 5]) = ThreadFault.badNd.code ∧
    ops (.aadd 0 9) (s (wr 0x18 3 1 2 0x10) [0x200, 5]) = some [({ kind := .atomic 0 true 5 0, addr := 0x200, rd := 3, pc := 0x100 }, true)] ∧
    (ld.thread 0 9).map (fun t => (t.reg 3, t.ops)) = some (0x107, []) ∧
    (after (.flockMemComplete 0 9 0) (held [op (.store 2 0xABCD)])).modBytes 0x200 3 = [0xCD, 0xAB, 0] ∧
    (after (.flockMemComplete 0 9 0) (held [op (.atomic 0 false 0xFFFFFFFF 0)])).modBytes 0x200 4 = [6, 1, 0, 0] ∧
    ((after (.flockMemComplete 0 9 0) (held [op (.atomic 5 false 3 0x107)])).thread 0 9).map (·.reg 3) = some 0x107 ∧
    ops (.flockMemComplete 0 9 1) (held [op (.store 2 0), op (.load 2)]) = some [(op (.store 2 0), false), (op (.load 2), false)] := by decide +kernel

/-- R222-R224, R227, R228: a local set: the key of no bytes under SALT 0 is the digest of eight bytes of 0. -/
theorem witness_FlockMemoryAndEnds_sets :
    let cfg := [(R.FLK_SET_GEOM.LOG2_BUCKETS 2, 8), (R.FLK_SET_GEOM.PROBE_MAX 2, 1), (R.FLK_SET_GEOM.ENABLE 2, 1)]
    let s (w : Nat) (gs : List Nat) : State := (flk w (th0 gs) cfg).put (R.FLK_SET_BASE_LO.N 2) 0x1000
    let hk := s (wr 0x30 4 1 2 2) [0x200, 0]
    let one := after (.hins 0 9) (s (wr 0x33 3 4 2 2) [0, 77, 0, 0x105, 0])
    let two := after (.flockMemComplete 0 9 0) one
    let o : MemOp := { kind := .setOp 1 2 (keyBytes 0x105) 0, addr := 0, rd := 3, pc := 0x100, setCfg := one.setCfg 2 }
    let again (op : Nat) : State := after (.flockMemComplete 0 9 0) { two with flock := { two.flock with
      threads := [(9, { th0 [] with ops := [{ o with kind := .setOp op 2 (keyBytes 0x105) 0 }] })] } }
    tidy hk = true ∧ fetched hk (th0 [0x200, 0]) (wr 0x30 4 1 2 2) = true ∧ cfgEnabled (hk.setCfg 2) = true ∧
    cfgEnabled (hk.setCfg 3) = false ∧ hk.setTarget (hk.setCfg 2) 1 5 = none ∧ one.setDoubt 2 (one.setCfg 2) 5 = false ∧
    ((after (.hkey 0 9) hk).thread 0 9).map (fun t => (t.reg 4, t.reg 5)) = some (0x7A0B81A1F57055AF, 0xAF8CF7) ∧
    (one.thread 0 9).map (fun t => t.ops.map (·.kind)) = some [.setOp 2 2 (keyBytes 0x105) 77] ∧
    (two.thread 0 9).map (·.reg 3) = some (8 + 0xFFFFFFFF * 2 ^ 32) ∧
    two.modBytes (0x1000 + 5 * 64) 16 = keyBytes 0x105 ++ [1, 77, 0, 0, 0] ∧
    ((again 0).thread 0 9).map (·.reg 3) = some (8 + 77 * 2 ^ 32) ∧ (again 1).modBytes (0x1000 + 5 * 64 + 11) 1 = [2] ∧
    ((again 2).thread 0 9).map (·.reg 3) = some (1 + 8 + 77 * 2 ^ 32) ∧
    (after (.hlook 0 9) (s (wr 0x31 3 4 2 3) [])).get (R.FLK_ENG_FAULT.CODE 0) = ThreadFault.badSet.code := by decide +kernel

/-- R227-R229, R333: remote requests without a route and without quorum, time-outs, SWAIT, SSIG, EXIT and the release. -/
theorem witness_FlockMemoryAndEnds_remote :
    let fab := [(R.FLK_SET_GEOM.LOG2_BUCKETS 2, 8), (R.FLK_SET_GEOM.PROBE_MAX 2, 1), (R.FLK_SET_GEOM.ENABLE 2, 1),
      (R.FLK_SET_GEOM.FABRIC 2, 1)]
    let s (w : Nat) (gs : List Nat) : State := poke (flk w (th0 gs) fab) 0 [0, 7, 7, 0]
    let obj (s : State) : State := { s with sync := { s.sync with objs := [(4, { cfg := { type := 1 }, value := 1 })] } }
    let wait := obj (s (wi 0x38 1 0 4) [1])
    let sig := obj (s (wi 0x39 1 0 4) [1])
    let o : MemOp := { kind := .rget 7, addr := 0, rd := 3, pc := 0x100, remote := some 1, sentAt := 10 }
    let rt := { flk 0 { th0 [] with ops := [o] } [(R.FLK_RTIMEOUT.US, 2)] with dtime := 2010 }
    let hold := mk [(R.FLK_ENG_STATUS.FAULT_HELD 1, 1), (R.FLK_ENG_FAULT.CODE 1, 3), (R.FLK_ENG_STATUS.IN_SERVICE 1, 1)]
    let lk := s (wr 0x31 3 4 2 2) []
    fetched lk (th0 []) (wr 0x31 3 4 2 2) = true ∧ lk.setTarget (lk.setCfg 2) 0 0 = some 7 ∧ lk.inFabric = false ∧
    (lk.drop R.GTS_STATUS.QUORUM).setTarget (lk.setCfg 2) 0 0 = some 7 ∧ lk.myId ≠ 7 ∧
    (wait.so 4).allowed 0 = true ∧ fetched wait (th0 [1]) (wi 0x38 1 0 4) = true ∧
    (wait.so 16383).cfg.type = 0 ∧ rt.get R.FLK_RTIMEOUT.US = 2 ∧ (rt.thread 0 9).map (fun t => t.ops[0]?) = some (some o) ∧
    hold.boot.power = true ∧ hold.flag R.GLB_STATUS.READY = true ∧ ((after (.hlook 0 9) lk).thread 0 9).map (·.ops) = some [] ∧
    ((after (.rget 0 9) (s (wr 0x34 3 1 2 0) [7, 8])).thread 0 9).map (fun t => (t.reg 3, t.rfail, t.ops)) = some (0, true, []) ∧
    (after (.rget 0 9) (s (wr 0x34 3 1 2 0) [7, 4])).get (R.FLK_ENG_FAULT.CODE 0) = ThreadFault.align.code ∧
    ((after (.remoteTimeout 0 9 0) rt).thread 0 9).map (fun t => (t.rfail, t.ops)) = some (true, []) ∧
    ((after (.remoteTimeout 0 9 0) { rt with dtime := 2009 }).thread 0 9).map (·.ops.length) = some 1 ∧
    (after (.swait 0 9) wait).sync.arriving = [(.thread 0 9, 4, 1)] ∧ ((after (.swait 0 9) wait).waitsStep.so 4).value = 0 ∧
    ((after (.swait 0 9) wait).waitsStep.thread 0 9).map (fun t => (t.swait, t.fence)) = some (none, true) ∧
    ((after (.ssig 0 9) sig).so 4).value = 2 ∧
    (after (.ssig 0 9) (s (wi 0x39 3 0 0x7FFF) [1])).get (R.FLK_ENG_FAULT.CODE 0) = ThreadFault.badSo.code ∧
    (after (.exit 0 9) (s (wi 0x3F 0 0 0) [])).thread 0 9 = none ∧
    (after (.faultRelease 1) hold).flag (R.FLK_ENG_STATUS.FAULT_HELD 1) = false ∧ (after (.faultRelease 1) hold).get (R.FLK_ENG_FAULT.CODE 1) = 0 ∧
    (after (.faultRelease 1) hold).flag (R.FLK_ENG_STATUS.IN_SERVICE 1) = true := by decide +kernel
/-- A module whose word at address 4w fails every read. -/
def struck (w : Nat) (s : State) : State := { s with cel := { s.cel with bad := [{ word := w, fails := 9, stuck := true }] } }

/-- R217-R224, R319: no room at the home, the key of two bytes at once and held back, and what fails; the digest is that of
eight bytes of 0 and the bytes 7 and 1 under SHA-256 (log entry 5). -/
theorem witness_FlockMemoryAndEnds_room :
    let t := th0 [0x200, 2]
    let code (i : Instr) (s : State) : Nat := (after i s).get (R.FLK_ENG_FAULT.CODE 0)
    let ld := flk (wi 0x13 3 1 8) t [(R.CEL_PART_CFG.INFLIGHT 0, 0)]
    let waits := after (.ld64 0 9) ld
    let lop : MemOp := { kind := .load 8, addr := 0x208, rd := 3, pc := 0x100 }
    let w := wr 0x30 4 1 2 2
    let hk (os : List MemOp) : State := poke (flk w { t with ops := os } [(R.FLK_SET_GEOM.ENABLE 2, 1)]) 0x200 [7, 1]
    let st : MemOp := { kind := .store 2 0, addr := 0x200, rd := 0, pc := 0x100 }
    let hop : MemOp := { kind := .hkey 2, addr := 0x200, rd := 4, pc := 0x100, setCfg := (hk []).setCfg 2 }
    let key (s : State) : Option (Nat × Nat) := (s.thread 0 9).map (fun t => (t.reg 4, t.reg 5))
    let digest : Option (Nat × Nat) := some (0x750d124e5466fe77, 0xc0f86d)
    let done (o : MemOp) : State := hk [o]
    let rg (a : Nat) (s : State) : State := { s with flock := { s.flock with
      threads := [(9, { t with ops := [{ kind := .rget s.myId, addr := a, rd := 3, pc := 0x100 }] })] } }
    let win := (hk []).setReg (R.GTS_RW_CTL 0) (BitVec.ofNat 32 (1 + 2 ^ 16 + 2 ^ 25))
    ld.opHome 0 t lop = some (ld.homeDie (t.agent 0) 0x208) ∧ ld.homeRoom (ld.homeDie (t.agent 0) 0x208) 0 = false ∧
    waits.get R.CEL_CNT_WAIT_INFL.N = 1 ∧ (waits.thread 0 9).map (·.ops) = some [lop] ∧
    waits.roomless 0 { t.past with ops := [lop] } lop = true ∧ (after (.flockMemComplete 0 9 0) waits).flock = waits.flock ∧
    fetched (hk []) t w = true ∧ fetched (hk [st]) { t with ops := [st] } w = true ∧ cfgEnabled ((hk []).setCfg 2) = true ∧
    (hk []).inReach 0 t.past 0x200 2 = true ∧ (hk [st]).opAfter hop st = true ∧ key (after (.hkey 0 9) (hk [])) = digest ∧
    ((after (.hkey 0 9) (hk [st])).thread 0 9).map (·.ops.length) = some 2 ∧ key (after (.flockMemComplete 0 9 0) (done hop)) = digest ∧
    code (.hkey 0 9) (struck 128 (hk [])) = ThreadFault.parity.code ∧
    code (.flockMemComplete 0 9 0) (struck 128 (done hop)) = ThreadFault.parity.code ∧
    code (.flockMemComplete 0 9 0) (struck 128 (done { hop with kind := .load 2 })) = ThreadFault.parity.code ∧
    code (.flockMemComplete 0 9 0) (struck 128 (done st)) = ThreadFault.parity.code ∧
    code (.flockMemComplete 0 9 0) (struck 128 (done { hop with kind := .atomic 0 false 1 0 })) = ThreadFault.parity.code ∧
    code (.hkey 0 9) (flk w (th0 [0x800000, 2]) [(R.FLK_SET_GEOM.ENABLE 2, 1)]) = ThreadFault.range.code ∧
    code (.hkey 0 9) (flk w (th0 [0x200, 65]) [(R.FLK_SET_GEOM.ENABLE 2, 1)]) = ThreadFault.badOp.code ∧
    code (.hkey 0 9) (flk w t) = ThreadFault.badSet.code ∧ win.windowFor 0x200 8 0 false = true ∧
    ((after (.flockMemComplete 0 9 0) (rg 0x200 win)).thread 0 9).map (fun t => (t.reg 3, t.rfail)) = some (0x107, false) ∧
    ((after (.flockMemComplete 0 9 0) (rg 0x200 (hk []))).thread 0 9).map (fun t => (t.reg 3, t.rfail)) = some (0, true) ∧
    ((after (.rget 0 9) (flk (wr 0x34 3 1 2 0) (th0 [0, 8]))).thread 0 9).map (·.ops.length) = some 1 := by decide +kernel

/-- A port with units for lookups of partition 0. -/
def lookupPort : PortSt := { quota := [(16, 9)], creds := [(16, 9)] }

/-- Module 1 of 1, 2 and 7, port 0 UP to module 2, with a thread as in `flk` and set 2 at 0x1000, in the fabric if `fab` is 1; map
words of the set from shard 5 on. -/
def setOn (w : Nat) (t : Thread) (fab : Nat) (map : List Byte) : State :=
  let cfg := [(R.FLK_SET_GEOM.LOG2_BUCKETS 2, 8), (R.FLK_SET_GEOM.PROBE_MAX 2, 1), (R.FLK_SET_GEOM.ENABLE 2, 1),
    (R.FLK_SET_GEOM.FABRIC 2, fab), (R.GTS_CFG.ENABLE, 1), (R.GTS_CFG.ID, 1), (R.GTS_G_STATUS.STATE 0, 3),
    (R.GTS_G_STATUS.PEER_ID 0, 2), (R.GTS_G_STATUS.PEER_PORT 0, 3), (R.GTS_MEMBERS_LO.N, 0x86), (R.FLK_SET_BASE_LO.N 2, 0x1000)]
  let s := poke (flk w t cfg) 20 map
  { s with gts := { s.gts with
      formed := true, links := [(2, [(3, 1, 0), (4, 7, 0)]), (7, [(0, 2, 4)])], ports := setNth s.gts.ports 0 lookupPort } }

/-- The type of the latest packet that port 0 holds to send or to send again. -/
def sentType (s : State) : Option Nat :=
  ((s.gport 0).out.getLast?.orElse (fun _ => ((s.gport 0).replay.getLast?).map (·.2))).map (·.type)

/-- R224, R227, R229, R318: a doubtful copy, words that fail, requests that leave and the replication of a change. -/
theorem witness_FlockMemoryAndEnds_fabric :
    let code (i : Instr) (s : State) : Nat := (after i s).get (R.FLK_ENG_FAULT.CODE 0)
    let w := wr 0x33 3 4 2 2
    let t := th0 [0, 77, 0, 0x105, 0]
    let away := setOn w t 1 [0, 7, 7, 0]
    let o : MemOp := { kind := .setOp 2 2 (keyBytes 0x105) 77, addr := 0, rd := 3, pc := 0x100, setCfg := away.setCfg 2 }
    let own := setOn w { t with ops := [o] } 1 [0, 1, 7, 0]
    let asks := after (.hins 0 9) away
    let ops (s : State) : Option (List (Option Nat)) := (s.thread 0 9).map (fun t => t.ops.map (·.remote))
    let noQ (s : State) : State := s.drop R.GTS_STATUS.QUORUM
    fetched away t w = true ∧ away.setTarget (away.setCfg 2) 2 5 = some 7 ∧ away.inFabric = true ∧ away.lookupRoute 0 7 = true ∧
    ops asks = some [some 0] ∧ sentType asks = some 0x20 ∧ ops (after (.hins 0 9) (noQ away)) = some [] ∧
    code (.hins 0 9) (struck 5 away) = ThreadFault.parity.code ∧ own.setTarget (own.setCfg 2) 2 5 = none ∧
    own.shardReplica (own.setCfg 2) 5 = 7 ∧ own.myId = 1 ∧ own.setDoubt 2 (own.setCfg 2) 5 = false ∧
    ops (after (.flockMemComplete 0 9 0) own) = some [some 0] ∧ sentType (after (.flockMemComplete 0 9 0) own) = some 0x22 ∧
    (after (.flockMemComplete 0 9 0) own).modBytes 0x1000 13 = keyBytes 0x105 ++ [1, 77] ∧
    (after (.flockMemComplete 0 9 0) own).gts.serving.length = 1 := by decide +kernel

/-- R224, R228, R318: operations at another primary, in a doubtful copy or without quorum, and time-outs. -/
theorem witness_FlockMemoryAndEnds_doubt :
    let code (i : Instr) (s : State) : Nat := (after i s).get (R.FLK_ENG_FAULT.CODE 0)
    let w := wr 0x33 3 4 2 2
    let t := th0 [0, 77, 0, 0x105, 0]
    let away := setOn w t 1 [0, 7, 7, 0]
    let o : MemOp := { kind := .setOp 2 2 (keyBytes 0x105) 77, addr := 0, rd := 3, pc := 0x100, setCfg := away.setCfg 2 }
    let own := setOn w { t with ops := [o] } 1 [0, 1, 7, 0]
    let both := setOn w { t with ops := [o] } 1 [0, 1, 1, 0]
    let loc := setOn w { t with ops := [{ o with setCfg := (setOn w t 0 []).setCfg 2 }] } 0 []
    let gone := setOn w { t with ops := [o] } 1 [0, 7, 7, 0]
    let ops (s : State) : Option (List (Option Nat)) := (s.thread 0 9).map (fun t => t.ops.map (·.remote))
    let doubt : State := { loc with cel := { loc.cel with doubtful := [⟨2, 5, loc.copyBase (loc.setCfg 2) 5, 64, []⟩] } }
    let noQ (s : State) : State := s.drop R.GTS_STATUS.QUORUM
    let rt (qs : List GPacket) (un : List Nat) : State :=
      let s := flk 0 { th0 [] with ops := [{ o with remote := some 1, sentAt := 10 }] } [(R.FLK_RTIMEOUT.US, 2)]
      { s with dtime := 2010, gts := { s.gts with unsent := un, ports := setNth s.gts.ports 0 { lookupPort with out := qs } } }
    ((after (.flockMemComplete 0 9 0) both).thread 0 9).map (fun t => (t.reg 3, t.ops)) = some (8 + 0xFFFFFFFF * 2 ^ 32, []) ∧
    ops (after (.flockMemComplete 0 9 0) gone) = some [some 0] ∧ sentType (after (.flockMemComplete 0 9 0) gone) = some 0x20 ∧
    ops (after (.flockMemComplete 0 9 0) (noQ gone)) = some [] ∧
    ops (after (.flockMemComplete 0 9 0) (gone.drop R.GTS_CFG.ENABLE)) = some [] ∧
    code (.flockMemComplete 0 9 0) (struck 5 own) = ThreadFault.parity.code ∧
    code (.flockMemComplete 0 9 0) (struck 0x400 own) = ThreadFault.parity.code ∧ loc.setDoubt 2 (loc.setCfg 2) 5 = false ∧
    doubt.setDoubt 2 (doubt.setCfg 2) 5 = true ∧ ops (after (.flockMemComplete 0 9 0) doubt) = some [] ∧
    (after (.flockMemComplete 0 9 0) doubt).modBytes (0x1000 + 5 * 64) 1 = [0] ∧ (noQ own).setDoubt 2 (own.setCfg 2) 5 = true ∧
    ops (after (.flockMemComplete 0 9 0) (noQ own)) = some [] ∧ ops (after (.remoteTimeout 0 9 0) (rt [] [])) = some [] ∧
    ops (after (.remoteTimeout 0 9 0) (rt [] [1])) = some [] ∧
    ops (after (.remoteTimeout 0 9 0) (rt [{ type := 0x20, vc := 2, tag := 1, src := (rt [] []).myId }] [])) = some [] := by decide +kernel

/-- R217, R319: HKEY and EXIT of a thread whose home has no room: the key waits, and so does the end. -/
theorem witness_FlockMemoryAndEnds_held :
    let t := th0 [0x200, 2]
    let full := [(R.FLK_SET_GEOM.ENABLE 2, 1), (R.CEL_PART_CFG.INFLIGHT 0, 0)]
    let hk := flk (wr 0x30 4 1 2 2) t full
    let o : MemOp := { kind := .hkey 2, addr := 0x200, rd := 4, pc := 0x100, setCfg := hk.setCfg 2 }
    let st : MemOp := { kind := .store 2 0, addr := 0x200, rd := 0, pc := 0x100 }
    let ex := flk (wi 0x3F 0 0 0) { t with ops := [st] } full
    let away := flk (wi 0x3F 0 0 0) { t with ops := [{ st with remote := some 1 }] }
    hk.roomless 0 t.past o = true ∧ ((after (.hkey 0 9) hk).thread 0 9).map (fun t => t.ops.length) = some 1 ∧
    ex.opHeld 0 { t with ops := [st] } 0 st = true ∧ fetched ex { t with ops := [st] } (wi 0x3F 0 0 0) = true ∧
    after (.exit 0 9) ex = ex ∧ (after (.exit 0 9) away).thread 0 9 = none := by decide +kernel

/-- R333, R342: a hold entry of object 6 that is due is freed before a thread waits. -/
theorem witness_FlockMemoryAndEnds_due :
    let x : SyncObj := { cfg := { anyPart 1 with holding := true, holdUs := 30 }, value := 1 }
    let s := flk (wi 0x38 1 0 4) (th0 [1])
    let due : State := { s with dtime := 10000000, sync := { s.sync with
      objs := [(4, { cfg := { type := 1 }, value := 1 }), (6, x)]
      holds := [{ agent := .client 2 0, so := 6, count := 1, since := 9970000 }] } }
    due.expireDue.sync.holds = [] ∧ fetched due (th0 [1]) (wi 0x38 1 0 4) = true ∧ fetched due.expireDue (th0 [1]) (wi 0x38 1 0 4) = true ∧
    (after (.swait 0 9) due).sync.holds = [] ∧ ((after (.swait 0 9) due).waitsStep.so 4).value = 0 := by decide +kernel

/-! ### Slices -/

/-- Background partition 1 at DTIME 10 ms with jobs 3 and 5 in states given, core 1 bound to job 3, a slice of 5 ms that
began with the module and ended as given. -/
def slices (j3 j5 : Nat) (xs : List (Fld × Nat)) (ended : Option Nat) : State :=
  let s := ram ([(R.STG_PTN_CFG.ENABLE 1, 1), (R.STG_PTN_SLICE.SLICE_US 1, 5000), (R.STG_JOB_CFG.PART 3, 1), (R.STG_JOB_CFG.PART 5, 1),
    (R.STG_JOB_STATUS.STATE 3, j3), (R.STG_JOB_STATUS.STATE 5, j5), (R.STG_PTN_STATUS.JOB 1, 3), (R.CORE_LDR_STATUS.MODE 1, 0),
    (R.CORE_ALLOC.BOUND 1, 1)] ++ xs) []
  { s with dtime := 10000000, ptns := setNth s.ptns 1 { sliceEnd := 5000000, endedAt := ended, last := 3 }
           jobs := [(3, { pair := some pair0, bound := [1], debt := 7 }), (5, { pair := some pair0 })] }

/-- R325-R330: the end alone and with another job, the yield, the switch and the next slice. -/
theorem witness_SlicesTurn :
    let held := [(R.STG_PTN_STATUS.VALID 1, 1)]
    let alone := slices 2 1 held none
    let two := slices 2 3 held none
    let yield : State := { slices 2 3 (held ++ [(R.STG_PTN_SLICE.YIELD_US 1, 20)]) none with
      jobs := [(3, { pair := some pair0, bound := [1], blockedSince := some 9980000 })] }
    let sw := slices 2 3 held (some 9000000)
    let open_ := slices 3 3 [] none
    tidy two = true ∧ two.ptns.length = 8 ∧ two.background 1 = true ∧ two.background 2 = false ∧ two.flag (R.STG_PTN_STATUS.VALID 1) = true ∧
    two.get (R.STG_PTN_STATUS.JOB 1) = 3 ∧ (two.ptn 1).endedAt = none ∧ (two.ptn 1).sliceEnd ≤ two.dtime ∧
    alone.sliceJobs 1 = [3] ∧ two.sliceJobs 1 = [3, 5] ∧ yield.blocked 3 = true ∧ (yield.job 3).blockedSince = some 9980000 ∧
    (sw.ptn 1).endedAt = some 9000000 ∧ sw.flag (R.STG_PTN_STATUS.DEFERRED 1) = false ∧ sw.coresIdle 3 = true ∧ sw.jobState 3 = 2 ∧
    sw.jobPart 3 = 1 ∧ sw.cores.length = 16 ∧ (sw.job 3).bound = [1] ∧ (sw.core 1).bad = [] ∧ open_.sliceJobs 1 = [3, 5] ∧
    open_.flag (R.STG_PTN_STATUS.VALID 1) = false ∧ (open_.ptn 1).last = 3 ∧ (open_.job 5).pair = some pair0 ∧
    (after (.sliceEnd 1) alone).ptn 1 = ⟨10000000, 14999993, none, 3⟩ ∧ ((after (.sliceEnd 1) alone).job 3).debt = 0 := by decide +kernel

theorem witness_SlicesTurn_results :
    let held := [(R.STG_PTN_STATUS.VALID 1, 1)]
    let yield : State := { slices 2 3 (held ++ [(R.STG_PTN_SLICE.YIELD_US 1, 20)]) none with
      jobs := [(3, { pair := some pair0, bound := [1], blockedSince := some 9980000 })] }
    let sw := after (.partitionSwitch 1) { slices 2 3 held (some 9000000) with
      jobs := [(3, { pair := some pair0, debt := 7 })] }
    let one : Pair := { pair0 with image := { pair0.image with maps := 1, mapSec := (0x300, 80) } }
    let open_ := after (.sliceBegin 1) { poke (slices 3 3 [(R.STG_PTN_CORES.CORES 1, 4), (R.GLB_CORE_MAP.IN_SERVICE, 4), (R.CORE_LDR_STATUS.MODE 2, 0)] none) 0x4300 [1]
      with jobs := [(5, { pair := some one })] }
    ((after (.sliceEnd 1) (slices 2 3 held none)).ptn 1).endedAt = some 5000000 ∧ ((after (.sliceYield 1) yield).ptn 1).endedAt = some 10000000 ∧
    (after (.sliceEnd 1) (slices 2 3 held none)).flag (R.STG_PTN_STATUS.SWITCHING 1) = true ∧
    sw.jobState 3 = 3 ∧ sw.get (R.STG_PTN_OVR.N 1) = 1000000 ∧ sw.get (R.STG_PTN_SWITCHES.N 1) = 1 ∧ (sw.job 3).debt = 1000007 ∧
    sw.flag (R.STG_PTN_STATUS.VALID 1) = false ∧
    open_.get (R.STG_PTN_STATUS.JOB 1) = 5 ∧ (open_.job 5).bound = [2] ∧ open_.jobState 5 = 2 := by decide +kernel

/-- R314, R330: the save of core 1 at a record whose live range is row 0: stored, and what tears the job down or takes the
core out. -/
theorem witness_SlicesTurn_save :
    let ctx : ListCtx := { job := 3, pair := { pair0 with image := { pair0.image with live := (0x200, 16) } }, kind := .setup, pc := 0 }
    let sv (pages : Nat) : State :=
      let s := slices 2 3 [(R.STG_PTN_STATUS.VALID 1, 1), (R.CEL_REG_PAGES.PAGES 0, pages), (R.STG_JOB_SAVE_LO.N 3, 0x10000)] (some 9000000)
      let s := poke (poke s 0x4100 [0, 2, 0, 0]) 0x4200 [0, 0, 1, 0]
      { s.larderWrite 1 0 [5, 6, 7] with lists := [(1, ctx)] }
    let s := sv 64
    let bad : BadWord := { word := 0, fails := 9, stuck := true }
    let torn := { s with cel := { s.cel with bad := [{ bad with word := 0x1040 }] } }
    let hard := s.setCore 1 { s.core 1 with bad := [bad] }
    let t := after (.partitionSwitch 1) s
    s.jobState 3 = 2 ∧ s.cores.length = 16 ∧ s.portsAct [1] = true ∧ s.list 1 = some ctx ∧ (s.liveRead ctx).1 = true ∧
    (torn.liveRead ctx).1 = false ∧ s.liveWords ctx = some [(0, 1), (0, 0), (0, 0), (0, 0)] ∧ (s.rowsCheck 1 [0]).1 = none ∧
    (hard.rowsCheck 1 [0]).1 = some (.hard 0) ∧ t.jobState 3 = 3 ∧ (keyGet (t.job 3).saved 0).map (fun x => x.list) = some (some ctx) ∧
    s.saveBlock 3 0 = 0x10000 ∧ (t.list 1).isNone = true ∧ t.flag (R.CORE_ALLOC.BOUND 1) = false ∧
    (after (.partitionSwitch 1) torn).jobState 3 ≠ 2 ∧ (after (.partitionSwitch 1) torn).jobState 3 ≠ 3 ∧
    (after (.partitionSwitch 1) hard).flag (R.CORE_LDR_STATUS.HARD 1) = true ∧
    (after (.partitionSwitch 1) (sv 1)).jobState 3 ≠ 3 := by decide +kernel

/-! ### Sheepdog -/

/-- A part of camera 0, columns 0-7, with two decimated rows; reference at 0x200 of two rows of two samples, SRCH 0,
TILE_COUNT 1, threshold 0. -/
def sheep (thr : Nat) (w : Nat) (xs : List (Fld × Nat)) : State :=
  let p : Part := { core := { state := .closed, lane := 2 }
                    vd := { cols := 7 * 8192, sdgCfg := 65536 + thr * 256, sdgRef := 0x200, sdgGeom := w + 2 * 65536
                            sdgRows := [⟨0, 0, [10, 20, 99]⟩, ⟨0, 0, [30, 40, 99]⟩] } }
  let s := ram ([(R.LPIPE_STR_CFG.TYPE 0 3, 4), (R.LPIPE_STR_CFG.PLANES 0 3, 1)] ++ xs) [(0x200, [10, 20, 30, 48])]
  { s with seq := { s.seq with parts := [(5, p)] }, sdg := { s.sdg with queue := [5] } }

/-- R389-R392: a sum of 8 over a tile of 4 samples fails at a threshold of 1, not of 2; a reference of another width rejects. -/
theorem witness_SheepdogChecksAndSelfTest :
    let s := sheep 1 2 []
    let go (s : State) : Nat × SdgOutcome :=
      let t := after .sheepdogCheckDone s
      (t.get (R.SDG_LANE_LAST.N 2), (t.part 5).vd.sdg)
    tidy s = true ∧ s.sdg.queue = [5] ∧ s.flag R.SDG_STATUS.LOCKSTEP = false ∧ s.decStream 0 = some 3 ∧ s.strPlanes 0 3 = [0] ∧
    (s.load .firmware 0x200 4).1 = .ok ∧ go s = (1, .reject) ∧ go (sheep 2 2 []) = (0, .pass) ∧ go (sheep 2 3 []) = (4294967295, .reject) ∧
    (after .lockstepMismatch s).flag R.SDG_STATUS.LOCKSTEP = true ∧ s.boot.power = true ∧ s.flag R.GLB_STATUS.READY = true ∧
    (after (.sdgProofArm 2 1) s).sdg.proof = some (2, 1) ∧ (after .alarmClear (mk [(R.SDG_STATUS.ALARM, 1)])).flag R.SDG_STATUS.ALARM = false := by
  decide +kernel

/-- R400-R403: core 1 idle and in service, within an offered window; camera 3 enabled. -/
theorem witness_SheepdogChecksAndSelfTest_steps :
    let s0 := mk [(R.GLB_CORE_MAP.IN_SERVICE, 2), (R.CORE_LDR_STATUS.MODE 1, 0), (R.SDG_ST_CFG.ENABLE, 1), (R.PSQ_VMAX.VALUE, 1000000),
      (R.SDG_ST_CFG.INTERVAL_S, 1), (R.CXP_CAM_CFG.ENABLE 3, 1)]
    let s := { s0 with pos := { s0.pos with wpos := 1000 }, seq := { s0.seq with windows := [(2, 1000, 100)] } }
    let poor := { s with seq := { s.seq with windows := [] } }
    let bad := { s with cores := setNth s.cores 1 { s.core 1 with bad := [⟨65540, 9, true⟩] } }
    let late := { s with dtime := 1000000000 }
    let fill_ := mk [(R.CORE_LDR_STATUS.MODE 1, 1)]
    tidy s = true ∧ s.owed ⟨0, 1⟩ = 16 ∧ s.owed ⟨1, 1⟩ = 4 ∧ s.owed ⟨2, 1⟩ = 64 ∧ s.owed ⟨3, 3⟩ = 1 ∧ s.owed ⟨3, 1⟩ = 0 ∧
    s.coreStepOk 1 71040 = true ∧ poor.coreStepOk 1 71040 = false ∧ s.flag R.SDG_ST_CFG.ENABLE = true ∧
    (after (.larderMarch 1 2 none) poor).get R.SDG_CNT_ST_DEFER.N = 1 ∧ (after (.larderMarch 1 2 none) s).get R.SDG_CNT_ST_DONE.N = 1 ∧
    (after (.larderMarch 1 2 (some 4)) s).get R.SDG_CNT_ST_FAIL.N = 1 ∧ (after (.larderMarch 1 2 none) bad).get R.SDG_CNT_ST_FAIL.N = 1 ∧
    (after (.larderMarch 1 3 none) bad).get R.SDG_CNT_ST_FAIL.N = 0 ∧ (after (.arrayKav 1 true) s).get R.SDG_CNT_ST_DONE.N = 1 ∧
    (after (.pantryTag 1 3 (some (5, 6))) s).cel.locked = [(1, 389, 6)] ∧ (after (.lpKal 3 false) s).sdg.kalFailed = [3] ∧
    (after .coverageIntervalEnd s).sdg.carried = [] ∧ (after .coverageIntervalEnd late).get R.SDG_CNT_ST_LATE.N = 1 ∧
    late.owedAll ≠ 0 ∧ (after (.larderFillDone 1) fill_).get (R.CORE_LDR_STATUS.MODE 1) = 0 := by decide +kernel

/-- R314, R391, R393, R398: a reference that cannot be read, the results that a mismatch takes back, a clear on the tick that
sets ALARM, and a march that holds its Larder in test mode. -/
theorem witness_SheepdogChecksAndSelfTest_more :
    let s := sheep 1 2 []
    let torn := { s with cel := { s.cel with bad := [{ word := 128, fails := 9, stuck := true }] } }
    let p := s.part 5
    let q : Part := { p with core := { p.core with state := .armed } }
    let vd : PartVerdict := { p.vd with sdg := .pass, sdgScore := 3 }
    let two := { s with seq := { s.seq with parts := [(5, { p with vd := vd }), (6, { q with vd := vd })] } }
    let mm := after .lockstepMismatch two
    let alarm := mk [(R.SDG_STATUS.ALARM, 1)]
    let now := alarm.put R.SDG_STATUS.ALARM.onTick 1
    let core := mk [(R.GLB_CORE_MAP.IN_SERVICE, 2), (R.CORE_LDR_STATUS.MODE 1, 0), (R.SDG_ST_CFG.ENABLE, 1), (R.PSQ_VMAX.VALUE, 1000000),
      (R.SDG_ST_CFG.INTERVAL_S, 1)]
    let core := { core with pos := { core.pos with wpos := 1000 }, seq := { core.seq with windows := [(2, 1000, 100)] } }
    let march := after (.larderMarch 1 2 none) core
    (torn.load .firmware 0x200 4).1 = .parity ∧ ((after .sheepdogCheckDone torn).part 5).vd.sdg = .reject ∧
    (after .sheepdogCheckDone torn).get (R.SDG_LANE_LAST.N 2) = 4294967295 ∧ 5 ∈ two.liveParts ∧
    (mm.part 5).vd.sdg = .absent ∧ (mm.part 5).vd.sdgScore = 0 ∧ (mm.part 6).vd.sdgScore = 3 ∧
    alarm.setNow R.SDG_STATUS.ALARM = false ∧ now.setNow R.SDG_STATUS.ALARM = true ∧
    (after .alarmClear now).flag R.SDG_STATUS.ALARM = true ∧ (core.core 1).bad = [] ∧ march.get (R.CORE_LDR_STATUS.MODE 1) = 2 ∧
    (march.core 1).testUntil = some (ceilDiv (256 * 66 * 1000) (core.get (R.CLK_FREQ.MHZ 0))) := by decide +kernel

/-! ### Clocks, power and heat -/

/-- R445-R451: port 2 with a stable recovered clock, LOST_MS of 5; a loss, its replacement, its relock, requests. -/
theorem witness_ClockSourcesFailOver :
    let s0 := mk [(R.GTS_CFG.ENABLE, 1), (R.GTS_TIME_STATUS.SYNCED, 1), (R.GTS_G_STATUS.STATE 2, 3), (R.LANE_L_STATUS.CDR_LOCK 40, 1),
      (R.LANE_L_STATUS.CDR_LOCK 41, 1), (R.LANE_L_STATUS.CDR_LOCK 42, 1), (R.LANE_L_STATUS.CDR_LOCK 43, 1), (R.CLK_CFG.AUTO, 1),
      (R.CLK_CFG.LOST_MS, 5), (R.CLK_STATUS.XTAL_READY, 1), (R.CLK_STATUS.LOCKED, 1), (R.CLK_STATUS.SRC, 0)]
    let s := { s0 with dtime := 10000000, clk := { s0.clk with stable := 4 } }
    let lost := after .clockSourceLoss s
    let took := after .clockSwitch { lost with dtime := 10001000 }
    let back := after .loopRelock { took with dtime := 10002500 }
    let xt := after .clockSwitch { lost with clk := { lost.clk with stable := 0 } }
    tidy s = true ∧ tidy took = true ∧ s.clk.freqs.length = 4 ∧ (∀ f ∈ s.clk.freqs, f < 4096) ∧ s.flag R.CLK_STATUS.SRC_LOST = false ∧
    lost.flag R.CLK_STATUS.SRC_LOST = true ∧ lost.clk.lostAt = some 10000000 ∧ lost.get (R.CLK_FREQ.MHZ 3) = 800 ∧
    lost.clk.switched = false ∧ took.flag R.CLK_STATUS.SRC = true ∧ took.get R.CLK_STATUS.SRC_PORT = 2 ∧ took.clk.switched = true ∧
    xt.flag R.CLK_STATUS.SRC = false ∧ xt.clk.switched = true ∧ back.get R.CLK_COAST_NS.N = 2500 ∧ back.get (R.CLK_FREQ.MHZ 3) = 1600 ∧
    back.flag R.CLK_STATUS.DT_SUSPECT = true ∧ s.boot.power = true ∧ s.flag R.GLB_STATUS.READY = true ∧
    (after (.clkSwitchRequest true 3) s).flag R.CLK_STATUS.SW_REFUSED = true ∧ (after (.clkSwitchRequest true 2) s).get R.CLK_STATUS.SRC_PORT = 2 ∧
    (after (.clkSwitchRequest false 0) s).get R.CLK_CNT_SWITCH.N = 0 := by decide +kernel

theorem witness_ClockSourcesFailOver_more :
    let s0 := mk [(R.CLK_CFG.LOST_MS, 5), (R.CLK_STATUS.SRC_LOST, 1)]
    let s := { s0 with dtime := 15000000, clk := { s0.clk with lostAt := some 10000000 } }
    bit ((after .clockLostTimeout s).get R.FLD_LS_CAUSE.CAUSE) 10 = true ∧ (after .clockLostTimeout { s with dtime := 14999999 }).clk.lostStop = false ∧
    (after .dtSuspectClear (mk [(R.CLK_STATUS.DT_SUSPECT, 1)])).flag R.CLK_STATUS.DT_SUSPECT = false ∧
    (after .dtSuspectClear s).flag R.CLK_STATUS.DT_SUSPECT = true ∧
    (after (.xtalReady 200) (mk [(R.CLK_STATUS.XTAL_READY, 0)])).flag R.CLK_STATUS.XTAL_READY = true ∧
    (after (.xtalReady 199) (mk [(R.CLK_STATUS.XTAL_READY, 0)])).flag R.CLK_STATUS.XTAL_READY = false ∧
    (after (.crystalAmplitudeLoss 99) (mk [(R.CLK_STATUS.XTAL_READY, 1)])).flag R.CLK_STATUS.XTAL_READY = false ∧
    (after (.crystalAmplitudeLoss 100) (mk [(R.CLK_STATUS.XTAL_READY, 1)])).flag R.CLK_STATUS.XTAL_READY = true ∧
    (after (.recoveredClockReady 3 true) (mk [])).clk.stable = 8 := by decide +kernel

/-- A module with the governor on, a cap of 50 W, every quad from 800 MHz to 2 GHz, and quad clocks. -/
def gov (xs : List (Fld × Nat)) (fs : List Nat) : State :=
  let s := mk ([(R.PWR_CFG.GOV_EN, 1), (R.PWR_CAP.CAP_W, 50)] ++ (List.range 4).flatMap (fun q =>
    [(R.PWR_QUAD_CFG.FMIN q, 8), (R.PWR_QUAD_CFG.FMAX q, 20)]) ++ xs)
  { s with clk := { s.clk with freqs := fs } }

/-- R400, R445-R447, R450, R452, R453, R455, R457, R458: without power, before READY, in a coast whose replacement is lost too, under a
throttled sensor of no quad, and with a record that a sleeping quad has to wake for. -/
theorem witness_PowerAndHeatGovern_states :
    let rt := [(R.STG_PTN_CFG.ENABLE 0, 1), (R.STG_PTN_CFG.RT 0, 1), (R.STG_PTN_CORES.CORES 0, 0x100)]
    let cold (xs : List (Fld × Nat)) : State := (gov xs [1600, 1600, 1600, 1600]).drop R.GLB_STATUS.READY
    let dark := { gov [] [1600, 1600, 1600, 1600] with boot := { served.boot with power := false } }
    let nine := { gov rt [800, 800, 1900, 800] with clk := { (gov rt [800, 800, 1900, 800]).clk with
      throttled := List.replicate 9 false ++ [true, false] } }
    let coast := gov [(R.CLK_STATUS.SRC_LOST, 1), (R.CLK_STATUS.SRC, 1)] [1600, 800, 1600, 1600]
    let coast := { coast with dtime := 50, clk := { coast.clk with lostAt := some 9, switched := true } }
    let again := after .clockSourceLoss coast
    let job := lab (rcd 2 []) []
    let wake := { fill job [(R.PWR_STATUS.QSTATE, 1), (R.CORE_ALLOC.BOUND 1, 1), (R.GLB_CORE_MAP.IN_SERVICE, 2)] with dtime := 7 }
    let awake := after (.quadWake 0) wake
    after (.governorTick 1 2 3) (cold []) = cold [] ∧ after (.vrAlert (List.replicate 16 0) true) dark = dark ∧
    after (.thermalSample (List.replicate 11 20)) dark = dark ∧ (cold []).boot.power = true ∧
    (after (.vrAlert (List.replicate 16 0) true) (cold [])).clk.alert = true ∧
    (after (.thermalSample (106 :: List.replicate 10 20)) (cold [])).clk.freqs = [1600, 1600, 1600, 1600] ∧
    (after (.governorTick 50001 0 0) nine).clk.freqs = [800, 800, 1800, 800] ∧
    (after (.governorTick 50001 0 0) coast).flag R.PWR_STATUS.CAP_UNMET = true ∧ (after (.governorTick 50001 0 0) coast).clk.freqs = coast.clk.freqs ∧
    again.get R.CLK_CNT_LOST.N = 1 ∧ again.clk.lostAt = some 9 ∧ again.clk.switched = false ∧
    after .clockSourceLoss again = again ∧ after .clockSourceLoss dark = dark ∧ after (.xtalReady 300) dark = dark ∧
    after .clockSwitch ((gov [(R.CLK_STATUS.SRC_LOST, 1), (R.CLK_CFG.AUTO, 1)] []).drop R.GLB_STATUS.READY) =
      (gov [(R.CLK_STATUS.SRC_LOST, 1), (R.CLK_CFG.AUTO, 1)] []).drop R.GLB_STATUS.READY ∧
    wake.clk.wakeAt.length = 4 ∧ wake.cores.length = 16 ∧ awake.clk.wakeAt = [2007, 0, 0, 0] ∧ awake.quadRuns 1 = false ∧
    ({ awake with dtime := 2007 } : State).quadRuns 1 = true := by decide +kernel

/-- R452-R455: quad 2 in the real-time partition 0. -/
theorem witness_PowerAndHeatGovern :
    let rt := [(R.STG_PTN_CFG.ENABLE 0, 1), (R.STG_PTN_CFG.RT 0, 1), (R.STG_PTN_CORES.CORES 0, 0x100)]
    let go (e m p : BitVec 32) (s : State) : List Nat := (after (.governorTick e m p) s).clk.freqs
    let hot := { gov [] [1600, 800, 1600, 1600] with clk := { (gov [] [1600, 800, 1600, 1600]).clk with
      throttled := [true] ++ List.replicate 10 false } }
    tidy (gov rt []) = true ∧ (gov rt [1, 2, 3, 4]).clk.throttled.length = 11 ∧ (gov rt []).clk.alarmed.length = 11 ∧
    (gov rt []).cores.length = 16 ∧ (gov rt []).rtQuad 2 = true ∧ (gov rt []).rtQuad 1 = false ∧
    go 50001 0 0 (gov rt [1600, 1600, 1900, 1600]) = [1500, 1600, 1900, 1600] ∧ go 50000 0 0 (gov rt [1600, 1600, 1900, 1600]) =
      [1600, 1600, 1900, 1600] ∧ go 50001 0 0 (gov rt [800, 800, 1900, 800]) = [800, 800, 1800, 800] ∧
    go 49000 0 999 (gov rt [1500, 1600, 1900, 1600]) = [1500, 1600, 2000, 1600] ∧
    go 49000 0 1000 (gov rt [1500, 1600, 1900, 1600]) = [1500, 1600, 1900, 1600] ∧
    go 0 0 0 (gov [(R.PWR_STATUS.GOV_FORCED, 1)] [1600, 1600, 1600, 1600]) = [800, 800, 800, 800] ∧
    go 0 0 0 (gov [(R.CLK_STATUS.SRC_LOST, 1)] [1600, 900, 1600, 1600]) = [1600, 900, 1600, 1600] ∧
    go 0 0 0 hot = [1500, 800, 1600, 1600] ∧ go 0 0 0 (gov [(R.PWR_CFG.GOV_EN, 0)] [800, 900, 1600, 1600]) = [2000, 2000, 2000, 2000] ∧
    (after (.governorTick 50001 7 0) (gov rt [800, 800, 800, 800])).flag R.PWR_STATUS.CAP_UNMET = true ∧
    (after (.governorTick 50001 7 0) (gov rt [800, 800, 800, 800])).clk.energy = 7 := by decide +kernel

/-- R453-R458. -/
theorem witness_PowerAndHeatGovern_more :
    let s := gov [(R.PWR_QUAD_CFG.SLEEP_EN 0, 1), (R.PWR_QUAD_CFG.DEEP_EN 0, 1)] [1600, 1600, 1600, 1600]
    let al := after (.vrAlert (List.replicate 16 0) true) s
    let th (v : BitVec 8) (was : Bool) : Bool := nth (after (.thermalSample (v :: List.replicate 10 20)) { s with clk := { s.clk with
      throttled := was :: List.replicate 10 false } }).clk.throttled 0 false
    let job := lab (rcd 2 []) []
    let wake := { fill job [(R.PWR_STATUS.QSTATE, 1), (R.CORE_ALLOC.BOUND 1, 1), (R.GLB_CORE_MAP.IN_SERVICE, 2)] with dtime := 0 }
    let full := s.larderWrite 1 8 [7]
    al.flag R.PWR_STATUS.VR_FAULT = true ∧ al.clk.freqs = [800, 800, 800, 800] ∧
    (after .vrAlertDeassert al).flag R.PWR_STATUS.GOV_FORCED = false ∧ th 95 false = false ∧ th 96 false = true ∧ th 94 true = true ∧
    th 93 true = false ∧ (after (.thermalSample (106 :: List.replicate 10 20)) s).flag R.PWR_STATUS.ALARM = true ∧
    (after (.quadSleep 0) s).quadState 0 = 1 ∧ (after (.quadSleep 1) s).quadState 1 = 0 ∧ wake.issuable 1 = true ∧
    wake.quadState 0 = 1 ∧ wake.rtQuad 0 = false ∧ (after (.quadWake 0) wake).quadState 0 = 0 ∧
    (after (.quadDeepEnter 0) full).quadState 0 = 2 ∧ (after (.quadDeepEnter 0) full).larderRead 1 8 1 = [0] := by decide +kernel

/-! ### Network time and the Loft -/

/-- A module that listens to master 77 on port 1, domain 3, with a network time of `ns`. -/
def net (n : NtmSt → NtmSt) (xs : List (Fld × Nat)) : State :=
  let s := mk ([(R.NTM_PTP_CFG.ENABLE, 1), (R.NTM_PTP_CFG.PORT, 1), (R.NTM_PTP_CFG.DOMAIN, 3), (R.NTM_PTP_CFG.ANN_TMO, 3)] ++ xs)
  { s with dtime := 4000000000, ntm := n { s.ntm with master := some 77, ns := 5000, lastLo := 4000, hi := 2 } }

/-- R462-R465: extension and snapshots; a Sync of two steps, its Follow_Up, and a Delay_Resp that completes an exchange. -/
theorem witness_NetworkTimeAndLoft :
    let s := net id []
    let snap := after .ntmSnapTake s
    let wrap := net (fun n => { n with ns := 5, snap := some (4294967290, 9) }) []
    let sync := after (.ptpSync ⟨1, false⟩ 3 77 9 true 0 0 0) s
    let fu := after (.ptpFollowUp ⟨1, false⟩ 3 77 9 8589938000 0) sync
    let q : TxStamp := ⟨1, 1, 4, 4900, 3999999999⟩
    let ex := { fu with ntm := { fu.ntm with txq := [q] } }
    let done := after (.ptpDelayResp ⟨1, false⟩ 3 77 4 8589940000 0) ex
    tidy s = true ∧ s.ntm.tpo.length = 4 ∧ (after .ntimeExtend s).ntm.lastLo = 5000 ∧ (after .ntimeExtend wrap).ntm.hi = 3 ∧
    s.boot.power = true ∧ s.flag R.GLB_STATUS.READY = true ∧ snap.ntm.snap = some (5000, 4000000000) ∧
    (after .ntmSnapExtend wrap).get64 R.NTM_SNAP_NT_LO.N R.NTM_SNAP_NT_HI.N = 2 * 2 ^ 32 + 4294967290 ∧
    s.get R.NTM_PTP_CFG.DOMAIN = 3 ∧ sync.ntm.t1 = none ∧ sync.ntm.t2 = some (2 * 2 ^ 32 + 5000) ∧ sync.ntm.twoStep = true ∧
    (after (.ptpSync ⟨1, false⟩ 4 77 9 true 0 0 0) s).ntm.t2 = none ∧ fu.ntm.t1 = some 8589938000 ∧ ex.ntm.interval ≠ 0 ∧
    ex.ntm.txq.find? (fun e => e.msgType == 1 && e.port == 1 && e.seqId == 4) = some q ∧
    done.getInt R.NTM_OFFSET.N = 542 ∧ done.ntm.ns = 4458 ∧ done.get R.NTM_CNT_STEP.N = 1 ∧ done.ntm.txq = [] := by decide +kernel

/-- R460, R465-R467. -/
theorem witness_NetworkTimeAndLoft_more :
    let s := net (fun n => { n with foreign := [] }) []
    let tells (steps : BitVec 16) : Instr := .ptpAnnounce ⟨1, false⟩ 3 88 1 2 3 4 5 0x99 steps (some 37) 0
    let once := after (tells 0) s
    let ann := after (tells 0) { once with dtime := once.dtime + 4000000000 }
    let slow := after (tells 0) { once with dtime := once.dtime + 4000000001 }
    let q : TxStamp := ⟨1, 1, 4, 6000, 2999999999⟩
    let full := net (fun n => { n with txq := List.replicate 16 q }) []
    let quiet := { net (fun n => { n with lastSync := 0 }) [] with dtime := 6000000000 }
    let tpo (x : TpoSt) (xs : List (Fld × Nat)) : State :=
      net (fun n => { n with tpo := setNth n.tpo 2 x }) ([(R.NTM_TPO_CFG.ENABLE 2, 1), (R.NTM_TPO_CFG.BASE 2, 1)] ++ xs)
    let fire := after (.tpoFire 2) (tpo { armed := true, target := 4000000000 } [])
    let miss := after (.tpoFire 2) (tpo { armed := true, target := 5 } [(R.NTM_TPO_CFG.BASE 2, 0), (R.NTM_STATUS.VALID, 0)])
    once.ntm.foreign = [⟨88, [1, 2, 3, 4, 5, 0x99], 0x99, 0, some 37, 1000000000, 4000000000, none⟩] ∧ once.ntm.master = s.ntm.master ∧
    slow.ntm.master ≠ some 88 ∧ (after (tells 255) s).ntm.foreign = [] ∧ ann.ntm.foreign.map (·.before) = [some 4000000000] ∧
    ann.ntm.master = some 88 ∧ ann.get R.NTM_UTC.OFFSET = 37 ∧ (after (.ptpTxComplete 1 1 4) s).ntm.txq.length = 1 ∧
    (after (.ptpTxComplete 1 1 4) full).flag R.NTM_STATUS.TXQ_OVF = true ∧ (after .txqStale full).ntm.txq.length = 15 ∧
    quiet.get R.NTM_PTP_CFG.ANN_TMO * quiet.announceNs ≤ quiet.dtime ∧ (after .announceTimeout quiet).flag R.NTM_STATUS.HOLDOVER = true ∧
    (fire.tpo 2).active = true ∧ (fire.tpo 2).armed = false ∧ (miss.tpo 2).active = false ∧ miss.get (R.NTM_TPO_STATUS.MISSED 2) = 1 ∧
    (after (.tpoPulseEnd 2) (tpo { active := true, riseAt := 10, pulseWidth := 20 } [])).tpo 2 = { riseAt := 10, pulseWidth := 20 } := by
  decide +kernel

/-- R468-R470: of two items of a tick the lower rank goes first; a value below, in and above the bins; the clears. -/
theorem witness_NetworkTimeAndLoft_loft :
    let s (q : List LoftItem) : State :=
      let s := mk [(R.LOFT_A0_BINW.N 0, 10)]
      { s with loft := { s.loft with queue := q, accs := [(0, { count := 1, sum := 7, bins := List.replicate 48 0, dtime := 3 })] } }
    let bins := fun (v : Int) => ((after .loftUpdate (s [.value 0 v 1 8 9])).acc 0)
    let two := s [.event 5 1 [] 4 0, .value 2 6 1 4 0, .event 6 1 [] 8 0]
    tidy two = true ∧ accType 0 = 1 ∧ accType 2 = 2 ∧ accType 5 = 0 ∧ (s []).bins 0 = (0, 10) ∧ two.loft.queue.length = 3 ∧
    (two.loft.queue.map LoftItem.rank).take 2 = [(LoftItem.event 5 1 [] 4 0).rank, (LoftItem.value 2 6 1 4 0).rank] ∧
    (bins 25).count = 2 ∧ (bins 25).sum = 32 ∧ nth (bins 25).bins 2 0 = 1 ∧ nth (bins 25).bins 3 0 = 0 ∧ (bins (-1)).underBin = 1 ∧
    (bins 480).overBin = 1 ∧ (bins 479).overBin = 0 ∧ (after .loftUpdate (s [.event 5 1 [] 4 0])).loft.head = 1 ∧
    ((after .loftUpdate (s [.value 2 6 1 4 0])).acc 2).min = 6 ∧ (after (.loftClearOne 0) (s [])).acc 0 = { dtime := 3 } ∧
    (after .loftClearAll (s [])).acc 0 = { dtime := 3 } ∧ (after (.loftCurWrite 9) (s [])).get R.LOFT_CUR.RECORD = 9 := by decide +kernel

/-! ### The Gatis fabric -/

/-- Module 1 of the members 1, 2 and 7, with port 0 UP to port 3 of module 2, which leads on to module 7; time master 2,
quorum, SYNCED; region 0 of memory. -/
def fabric (xs : List (Fld × Nat)) (p0 : PortSt) : State :=
  let s := ram ([(R.GTS_CFG.ENABLE, 1), (R.GTS_CFG.ID, 1), (R.GTS_MEMBERS_LO.N, 0x86), (R.GTS_G_STATUS.STATE 0, 3),
    (R.GTS_G_STATUS.PEER_ID 0, 2), (R.GTS_G_STATUS.PEER_PORT 0, 3), (R.GTS_STATUS.TIME_MASTER, 2), (R.GTS_STATUS.QUORUM, 1),
    (R.GTS_TIME_STATUS.SYNCED, 1)] ++ xs) []
  { s with dtime := 100000000, gts := { s.gts with
      formed := true, links := [(2, [(3, 1, 0), (4, 7, 0)]), (7, [(0, 2, 4)])], ports := setNth s.gts.ports 0 p0 } }

/-- The header of a packet on port 0 with LSEQ 0 from module 7 to a module, TAG 5, in partition 0 and epoch 0. -/
def hdr (dst : Fin 64) : Packet := ⟨0, 0, 0, dst, 7, 5, 0⟩

/-- The latest packet that port 0 holds to send or to send again. -/
def sent (s : State) : Option GPacket := ((s.gport 0).out.getLast?).orElse (fun _ => ((s.gport 0).replay.getLast?).map (·.2))

/-- R428, R430-R432: port 1 in HELLO; the reasons of a refusal in turn; the link set of port 0. -/
theorem witness_LinksComeUpAndKeepOrder :
    let s := fabric [(R.GTS_G_STATUS.STATE 1, 2)] {}
    let sent := after (.helloSend 1) s
    let hi (id : Fin 64) (serial theirs : BitVec 64) : State := after (.hello 1 id 5 serial theirs [(9, 8)] none) sent
    let k : GPacket := { type := 0x20, vc := 2 }
    let r := fabric [] { replay := [(4, k), (5, k), (6, k)], naks := (4, 3), rxSeq := 9, ctl := [] }
    tidy s = true ∧ s.gts.ports.length = 8 ∧ s.get R.GTS_CFG.ID = 1 ∧ s.get64 R.GTS_MEMBERS_LO.N R.GTS_MEMBERS_HI.N = 0x86 ∧
    s.get (R.GTS_G_STATUS.STATE 1) = 2 ∧ (s.gport 1).helloAt = none ∧ (sent.gport 1).helloAt = some 100000000 ∧ sent.get (R.GTS_G_STATUS.STATE 1) = 2 ∧
    (after (.hello 1 7 5 0 0x86 [(9, 8)] none) s).get (R.GTS_G_STATUS.STATE 1) = 2 ∧ s.module.serial ≠ 12345 ∧ s.flag R.GTS_CFG.ENABLE = true ∧
    s.gts.formed = true ∧ 1 < (sent.gport 1).line.length ∧
    (hi 1 12345 0x86).get (R.GTS_G_STATUS.REASON 1) = 1 ∧ (hi 3 0 0x86).get (R.GTS_G_STATUS.REASON 1) = 2 ∧
    (hi 7 0 0x84).get (R.GTS_G_STATUS.REASON 1) = 3 ∧ (hi 1 (BitVec.ofNat 64 s.module.serial) 0x86).get (R.GTS_G_STATUS.REASON 1) = 4 ∧
    (hi 7 0 0x86).get (R.GTS_G_STATUS.STATE 1) = 3 ∧ (hi 7 0 0x86).get (R.GTS_G_STATUS.PEER_PORT 1) = 5 ∧
    keyGet ((hi 7 0 0x86).gport 1).quota 16 = some 9 ∧
    r.get (R.GTS_G_STATUS.STATE 0) = 3 ∧ ((after (.ackSend 0) r).gport 0).ctl = [(1, 8)] ∧
    ((after (.ackSet 0 5) r).gport 0).replay = [(6, k)] ∧ ((after (.ackSet 0 7) r).gport 0).replay.length = 3 := by decide +kernel

theorem witness_LinksComeUpAndKeepOrder_more :
    let k : GPacket := { type := 0x20, vc := 2 }
    let p : PortSt := { replay := [(4, k)], naks := (4, 3), rxSeq := 9 }
    let r := fabric [] p
    let o : PortSt := { out := [{ type := 0x24, vc := 2 }, { type := 3, vc := 0 }, { type := 0x11, vc := 1 }], creds := [(0, 4), (8, 4), (16, 4)] }
    let empty : PortSt := { p with replay := [] }
    let ls := after (.linkstate (hdr 1) [(0, 2, 4), (1, 3, 0)]) (fabric [] {})
    let same := after (.linkstate (hdr 1) [(0, 2, 4)]) (fabric [] {})
    let cut := fabric [(R.GTS_CFG.LOSS_US, 50), (R.GTS_STATUS.TIME_MASTER, 7)] {}
    let away := { cut with gts := { cut.gts with links := [(2, [(3, 1, 0)])], away := [(7, 99950000)] } }
    let lost := after (.memberLost 7 0) away
    ((after (.nak 0 4) r).get (R.GTS_G_STATUS.STATE 0) = 1) ∧ (after (.nak 0 4) r).get (R.GTS_G_REPLAY_FAIL.N 0) = 1 ∧
    ((after (.nak 0 6) r).gport 0).naks = (6, 1) ∧ (after (.nak 0 6) r).get (R.GTS_G_NAK.N 0) = 1 ∧
    ((after (.cred 0 2 3 7) (fabric [] empty)).gport 0).units 2 3 = 7 ∧ ((after (.packetError ⟨0, []⟩) r).gport 0).nakSent = some 9 ∧
    ((after (.packetError ⟨0, []⟩) r).gport 0).ctl = [(2, 9)] ∧ ((after (.packetError ⟨0, (k.wire 8)⟩) r).gport 0).ctl = [(2, 9)] ∧
    badCrc (k.wire 9) = false ∧ ((after (.packetError ⟨0, (k.wire 9)⟩) r).gport 0).ctl = [] ∧ ((after (.packetError ⟨0, []⟩) r).gport 0).line = [ctlSet 2 9] ∧
    { p with sinceIdle := 1023 }.emit [kSet 0xFB] = { p with line := [kSet 0xBC, kSet 0xFB], sinceIdle := 1 } ∧ o.pick = some 2 ∧ o.ready 2 = true ∧
    ((fabric [] {}).gport 0).rxSeq = 0 ∧ (fabric [] {}).portState 0 = 3 ∧ ls.linksOf 7 = [(0, 2, 4), (1, 3, 0)] ∧
    keyGet (fabric [] {}).gts.links 7 = some [(0, 2, 4)] ∧ (same.gport 0).rxSeq = 1 ∧
    keyGet away.gts.away 7 = some 99950000 ∧ away.component.contains 7 = false ∧ lost.gts.lost = [7] ∧
    lost.get R.GTS_STATUS.TIME_MASTER = 1 ∧ (after (.memberLost 7 0) { away with dtime := 99999999 }).gts.lost = [] := by decide +kernel

/-- R427, R429-R432, R437, R439, R440, R443: a NAK that sends two packets again, packets that pass through, a report of a doubtful
copy for the leader and one passed on, a map word rewritten, silence in a module outside a fabric, bytes received twice. -/
theorem witness_PacketsAreTakenForwardedOrServed_links :
    let s := fabric [] {}
    let k : GPacket := { type := 0x20, vc := 2 }
    let two := after (.nak 0 5) (fabric [] { replay := [(4, k), (5, k), (6, k)] })
    let via := after (.replAck (hdr 3)) (fabric [(R.GTS_G_STATUS.STATE 2, 3)] {})
    let set := fabric [(R.FLK_SET_GEOM.LOG2_BUCKETS 2, 8), (R.FLK_SET_GEOM.ENABLE 2, 1), (R.FLK_SET_GEOM.FABRIC 2, 1)] {}
    let rep := after (.promote (hdr 1) 0 [(2, 3, 0)]) set
    let on := after (.promote (hdr 2) 0 [(2, 3, 0)]) set
    let map := poke set 12 [3, 1, 7, 0]
    let quiet := s.drop R.GTS_CFG.ENABLE
    let got (xs : List (Nat × Nat)) : HaloRecv := { entry := 4, strip := 4, total := 5, got := xs, dropped := false }
    (two.gport 0).line = k.sets 5 ++ k.sets 6 ∧ (two.gport 0).replay.length = 3 ∧ via.get (R.GTS_G_STATUS.STATE 0) = 3 ∧
    set.leader = 1 ∧ (0 : Nat) = set.get R.GTS_MAP_EPOCH.N ∧ (hdr 1).src.val ≠ set.leader ∧ rep.gts.reports = [(2, 3, 7)] ∧
    on.gts.reports = [] ∧ (set.readMap .firmware (set.setCfg 2) 3).1 = .ok ∧
    (set.rewriteMap [(2, 3, 0x070205)]).modBytes 12 4 = [5, 2, 7, 0] ∧ s.rewriteMap [(2, 3, 5)] = s ∧
    map.shardPrimary (map.setCfg 2) 3 = 1 ∧
    (after .tsyncTimeout quiet).flag R.GTS_TIME_STATUS.SYNCED = false ∧ (got [(0, 3), (0, 3)]).whole = false ∧
    (got [(3, 2), (0, 3)]).whole = true ∧ (got [(0, 2), (1, 4)]).whole = true := by decide +kernel

/-- R430, R434-R437: out of order, forwarded, a promotion, a position tuple and a take-over. -/
theorem witness_PacketsAreTakenForwardedOrServed :
    let s := fabric [] {}
    let h := hdr 1
    let late := fabric [] { rxSeq := 3 }
    let fol := { fabric [(R.POS_STATUS.ROLE_NOW, 2), (R.POS_BCAST.STANDBY_ID, 2)] {} with pos := { s.pos with needZero := true } }
    let set := fabric [(R.FLK_SET_GEOM.LOG2_BUCKETS 2, 8), (R.FLK_SET_GEOM.ENABLE 2, 1), (R.FLK_SET_GEOM.FABRIC 2, 1)] {}
    let pr := after (.promote h 9 [(2, 3, 0x070205)]) set
    tidy s = true ∧ s.gts.ports.length = 8 ∧ s.portState 0 = 3 ∧ (s.gport 0).rxSeq = 0 ∧ s.portState 4 ≠ 3 ∧ s.get R.GTS_CFG.ID = 1 ∧
    ((after (.replAck h) late).gport 0).nakSent = some 3 ∧ ((after (.replAck h) late).gport 0).ctl = [(2, 3)] ∧
    ((after (.replAck h) s).gport 0).rxSeq = 1 ∧ ((after (.rgetReq (hdr 2) 8) s).gport 0).rxSeq = 1 ∧
    pr.get R.GTS_MAP_EPOCH.N = 9 ∧ pr.get R.GTS_CNT_PROMOTE.N = 1 ∧ pr.modBytes 12 4 = [5, 2, 7, 0] ∧
    cfgEnabled (set.setCfg 2) = true ∧ cfgFabric (set.setCfg 2) = true ∧
    fol.drives = false ∧ fol.pos.master = none ∧ fol.pos.lastSeq = none ∧ fol.flag R.GTS_TIME_STATUS.SYNCED = true := by decide +kernel

/-- R50, R51. -/
theorem witness_PacketsAreTakenForwardedOrServed_tuple :
    let s := fabric [] {}
    let tp (seq : BitVec 16) (zero take : Bool) : Tuple := ⟨500, 90000000, 7, seq, 2, false, take, false, zero⟩
    let fol (xs : List (Fld × Nat)) : State :=
      { fabric ([(R.POS_STATUS.ROLE_NOW, 2), (R.POS_BCAST.STANDBY_ID, 2)] ++ xs) {} with pos := { s.pos with needZero := true } }
    let pt (seq : BitVec 16) (zero take : Bool) : State := after (.posTuple (hdr 1) (tp seq zero take)) (fol [])
    (pt 4 true false).pos.nextBase = some ⟨500, 90000000, 7⟩ ∧ (pt 4 true false).pos.master = some 2 ∧
    (pt 4 false false).pos.nextBase = none ∧ (pt 4 true true).pos.master = some 2 ∧
    (after (.posTuple (hdr 1) (tp 4 true false)) (fol [(R.GTS_TIME_STATUS.SYNCED, 0)])).pos.nextBase = none ∧
    (fol []).role ≠ 0 ∧ (fol []).get R.POS_BCAST.STANDBY_ID = 2 := by decide +kernel

/-- R436: an exchange with offset (1000 - 800) / 2 = 100 (6.25 ns); a step of DTIME by 8 ns after four that agree. -/
theorem witness_PacketsAreTakenForwardedOrServed_time :
    let s := fabric [] {}
    let ex := { s with gts := { s.gts with tsync := some (5, 1000), goodRun := 3 } }
    -- t4 is 1,600,000,000 and the operand.
    let ex := { ex with gts := { ex.gts with tsync := some (5, 1599997200) } }
    let go (s : State) (t2 t3 : BitVec 64) (sub : Fin 64) : State := after (.tsyncResp (hdr 1) t2 t3 sub) s
    let a := go ex 1599998200 1599999205 5
    let old := { ex with gts := { ex.gts with offsets := [110, 90, 100] } }
    let b := go old 1599998200 1599999205 5
    let up := fabric [] { quota := [(8, 9)], creds := [(8, 9)] }
    tidy ex = true ∧ s.upstream = some 0 ∧ s.gts.tsSent + 1000000 ≤ s.dtime ∧ s.gts.lastExchange + 10000000 ≤ s.dtime ∧
    (after (.tsyncSend 3) up).gts.tsync = some (0, 1600000003) ∧ (after .tsyncTimeout s).flag R.GTS_TIME_STATUS.SYNCED = false ∧
    (sent (after (.tsyncReq (hdr 1) 1 2 3) up)).map (fun k => (k.type, k.dst, k.tag, k.payload)) =
      some (0x12, 7, 5, leBytes 8 1600000002 ++ leBytes 8 1600000003) ∧ b.gts.tsSent = s.gts.tsSent + 8 ∧ b.gts.lastExchange = b.dtime ∧
    a.getInt R.GTS_TIME_STATUS.OFFSET = 100 ∧ a.get R.GTS_TIME_DELAY.N = 900 ∧ a.flag R.GTS_TIME_STATUS.SYNCED = false ∧ a.dtime = s.dtime ∧
    a.gts.phase = 16 ∧ a.gts.goodRun = 0 ∧ b.dtime = s.dtime + 8 ∧ b.gts.offsets = [] ∧ b.gts.phase = -16 := by decide +kernel

/-- R227, R229, R437: a set operation served and replicated, RGET in a window and outside, replies to waiting operations. -/
theorem witness_PacketsAreTakenForwardedOrServed_sets :
    let cfg := [(R.FLK_SET_GEOM.LOG2_BUCKETS 2, 8), (R.FLK_SET_GEOM.PROBE_MAX 2, 1), (R.FLK_SET_GEOM.ENABLE 2, 1),
      (R.FLK_SET_GEOM.FABRIC 2, 1), (R.FLK_SET_BASE_LO.N 2, 0x1000)]
    let p : PortSt := { quota := [(16, 9)], creds := [(16, 9)] }
    let s (word : Nat) : State := poke (fabric cfg p) (4 * 3) (leBytes 4 word)
    let ins (word : Nat) : State := after (.setReq (hdr 1) 2 2 0x103 77) (s word)
    let o : MemOp := { kind := .rget 7, addr := 0, rd := 3, pc := 0x100, remote := some 5 }
    let wait (k : MemOpKind) : State :=
      let s := fabric [] p
      { s with flock := { s.flock with threads := [(9, { th0 [] with ops := [{ o with kind := k }] })] } }
    let win := (fabric [] p).setReg (R.GTS_RW_CTL 0) (BitVec.ofNat 32 (1 + 2 ^ 16 + 2 ^ 25))
    let win := (poke win 0x40 [7])
    let rep := after (.repl (hdr 1) 2 0x103 4 1 2 9) (s 0x010703)
    (s 0x070103).shardPrimary ((s 0x070103).setCfg 2) 3 = 1 ∧ (s 0x070103).setDoubt 2 ((s 0x070103).setCfg 2) 3 = false ∧
    (s 0x070703).shardPrimary ((s 0x070703).setCfg 2) 3 = 7 ∧ (s 0x010703).shardReplica ((s 0x010703).setCfg 2) 3 = 1 ∧
    (ins 0x010103).modBytes (0x1000 + 3 * 64) 16 = keyBytes 0x103 ++ [1, 77, 0, 0, 0] ∧ (sent (ins 0x010103)).map (·.type) = some 0x21 ∧
    (sent (ins 0x070103)).map (·.type) = some 0x22 ∧ (ins 0x070103).gts.serving.length = 1 ∧
    rep.modBytes (0x1000 + (3 + 4) * 64 + 16 + 11) 2 = [2, 9] ∧ (sent rep).map (·.type) = some 0x23 ∧
    (wait (.rget 7)).waiterOf 5 ≠ none ∧ (wait (.rget 7)).waiterOf 6 = none ∧
    ((after (.rgetResp (hdr 1) (some 42)) (wait (.rget 7))).thread 0 9).map (fun t => (t.reg 3, t.ops)) = some (42, []) ∧
    ((after (.rgetResp (hdr 1) none) (wait (.rget 7))).thread 0 9).map (·.rfail) = some true ∧
    win.windowFor 0x40 8 0 false = true ∧ win.windowFor 0x44 8 1 false = false ∧
    (sent (after (.rgetReq (hdr 1) 0x40) win)).map (·.payload) = some (leBytes 8 7) ∧
    (sent (after (.rgetReq (hdr 1) 0x10000) win)).map (·.payload) = some [] := by decide +kernel

/-- R443: a halo entry with three buffers of 4 KiB: strip 4 goes to buffer 1; refused from another module. -/
theorem witness_PacketsAreTakenForwardedOrServed_halo :
    let cfg := [(R.GTS_HX_CFG.ENABLE 4, 1), (R.GTS_HX_CFG.DIR 4, 1), (R.GTS_HX_CFG.PEER 4, 7), (R.GTS_HX_BUF.BUFS 4, 3), (R.GTS_HX_BUF.SO 4, 6),
      (R.GTS_HX_BASE_LO.N 4, 0x2000), (R.GTS_HX_STRIDE.UNITS 4, 1)]
    let s := (fabric cfg {}).setReg (R.GTS_RW_CTL 0) (BitVec.ofNat 32 (1 + 2 ^ 16 + 2 ^ 24 + 2 ^ 25))
    let s := { s with sync := { s.sync with objs := [(6, { cfg := { type := 1 }, value := 1 })] } }
    let go (s : State) (off : BitVec 32) (bs : List Byte) : State := after (.halo (hdr 1) 4 4 off 5 bs) s
    let one := go s 0 [1, 2, 3]
    let two := go { one with gts := { one.gts with ports := setNth one.gts.ports 0 {} } } 3 [4, 5]
    let full := { s with sync := { s.sync with objs := [(6, { cfg := { type := 1 }, value := 3 })] } }
    tidy s = true ∧ s.windowFor 0x3000 3 0 true = true ∧ (s.haloRecv 4 4).isNone = true ∧ (s.so 6).value = 1 ∧
    one.modBytes 0x3000 5 = [1, 2, 3, 0, 0] ∧ (one.so 6).value = 1 ∧ two.modBytes 0x3000 5 = [1, 2, 3, 4, 5] ∧ (two.so 6).value = 2 ∧
    two.get (R.GTS_HX_STRIPS.N 4) = 1 ∧ (two.haloRecv 4 4).isNone = true ∧ (go full 0 [1]).get (R.GTS_HX_DROP.N 4) = 1 ∧
    (go (s.put (R.GTS_HX_CFG.PEER 4) 2) 0 [1]).get (R.GTS_HX_DROP.N 4) = 1 ∧
    (go (s.setReg (R.GTS_RW_CTL 0) 0) 0 [1]).get (R.GTS_HX_DROP.N 4) = 1 := by decide +kernel

/-- R227, R310, R318, R439: requests on a shard whose primary is elsewhere, whose map or bucket cannot be read, or that is doubtful;
and the promotions at a member's loss. -/
theorem witness_PacketsAreTakenForwardedOrServed_doubt :
    let cfg := [(R.FLK_SET_GEOM.LOG2_BUCKETS 2, 8), (R.FLK_SET_GEOM.PROBE_MAX 2, 1), (R.FLK_SET_GEOM.ENABLE 2, 1),
      (R.FLK_SET_GEOM.FABRIC 2, 1), (R.FLK_SET_BASE_LO.N 2, 0x1000), (R.GTS_CFG.LOSS_US, 50)]
    let p : PortSt := { quota := [(16, 9)], creds := [(16, 9)] }
    let s (map : List Byte) : State := poke (fabric cfg p) 12 map
    let doubtful (s : State) : State := { s with cel := { s.cel with doubtful := [⟨2, 3, s.copyBase (s.setCfg 2) 3, 64, []⟩] } }
    let req (s : State) : Option Nat := (sent (after (.setReq (hdr 1) 1 2 0x103 0) s)).map (·.type)
    let mine := s [3, 1, 1, 0]
    let away := { s [3, 7, 1, 0, 4, 1, 7, 0, 5, 1, 2, 0] with gts := { mine.gts with links := [(2, [(3, 1, 0)])], away := [(7, 99950000)] } }
    let away := { away with cel := { away.cel with doubtful := [⟨2, 5, away.copyBase (away.setCfg 2) 5, 64, []⟩] } }
    let lost := after (.memberLost 7 0) away
    mine.shardPrimary (mine.setCfg 2) 3 = 1 ∧ (mine.readMap .fabric (mine.setCfg 2) 3).1 = .ok ∧
    ((struck 3 mine).readMap .fabric (mine.setCfg 2) 3).1 = .parity ∧ mine.setDoubt 2 (mine.setCfg 2) 3 = false ∧
    (doubtful mine).setDoubt 2 (mine.setCfg 2) 3 = true ∧
    (mine.setApply .fabric (mine.setCfg 2) 3 1 0x103 0).1.failed = none ∧
    ((struck (0x400 + 48) mine).setApply .fabric (mine.setCfg 2) 3 1 0x103 0).1.failed ≠ none ∧
    req mine = some 0x21 ∧ req (struck 3 mine) = some 0x21 ∧ req (doubtful mine) = some 0x21 ∧ req (struck (0x400 + 48) mine) = some 0x21 ∧
    req (s [3, 7, 1, 0]) = some 0x21 ∧ away.leader = 1 ∧ away.hasQuorum = true ∧ lost.gts.lost = [7] ∧
    lost.modBytes 12 12 = [3, 1, 1, 0, 4, 1, 1, 0, 5, 2, 2, 0] ∧ lost.get R.GTS_MAP_EPOCH.N = 1 ∧
    (struck 3 away).readMaps.1 = [] ∧ (after (.memberLost 7 0) (struck 3 away)).get R.GTS_MAP_EPOCH.N = 0 := by decide +kernel

/-- R50, R53, R443: a standby that hears the take-over named in its configuration, with and without a zero; a halo piece whose
store fails. -/
theorem witness_PacketsAreTakenForwardedOrServed_more :
    let p0 := (fabric [] {}).pos
    let tp (zero : Bool) : Tuple := ⟨500, 90000000, 7, 4, 2, false, true, false, zero⟩
    let s (role : Nat) (need : Bool) : State :=
      { fabric [(R.POS_STATUS.ROLE_NOW, role), (R.POS_BCAST.STANDBY_ID, 2)] {} with pos := { p0 with needZero := need, master := some 3 } }
    let go (role : Nat) (need zero : Bool) : State := after (.posTuple (hdr 1) (tp zero)) (s role need)
    let halo := (fabric [(R.GTS_HX_CFG.ENABLE 4, 1), (R.GTS_HX_CFG.DIR 4, 1), (R.GTS_HX_CFG.PEER 4, 7), (R.GTS_HX_BUF.BUFS 4, 3),
      (R.GTS_HX_BUF.SO 4, 6), (R.GTS_HX_BASE_LO.N 4, 0x2000), (R.GTS_HX_STRIDE.UNITS 4, 1)] {}).setReg (R.GTS_RW_CTL 0)
      (BitVec.ofNat 32 (1 + 2 ^ 16 + 2 ^ 24 + 2 ^ 25))
    let halo := { halo with cel := { halo.cel with bad := [⟨0xC00, 9, true⟩] } }
    let part := after (.halo (hdr 1) 4 4 0 5 [1, 2, 3]) halo
    (s 1 true).role ≠ 0 ∧ (s 1 true).pos.master = some 3 ∧ (go 1 true false).pos.nextBase = none ∧ (go 1 true false).pos.master = some 2 ∧
    (go 1 true false).get R.POS_STATUS.ROLE_NOW = 2 ∧ (go 1 false false).pos.nextBase = some ⟨500, 90000000, 7⟩ ∧
    (go 2 true true).pos.nextBase = some ⟨500, 90000000, 7⟩ ∧ (halo.store .fabric 0x3000 [1, 2, 3]).1 = .parity ∧
    part.get (R.GTS_HX_DROP.N 4) = 1 ∧ (part.haloRecv 4 4).map (·.dropped) = some true ∧
    ((after (.halo (hdr 1) 4 4 0 3 [1, 2, 3]) halo).haloRecv 4 4).isNone = true := by decide +kernel

/-! ### Digests and formats -/

/-- The published digests of "abc" under SHA-256 and of "123456789" under CRC-32 (log entry 5). -/
theorem test_digests :
    sha256 [0x61, 0x62, 0x63] = [0xBA, 0x78, 0x16, 0xBF, 0x8F, 0x01, 0xCF, 0xEA, 0x41, 0x41, 0x40, 0xDE, 0x5D, 0xAE, 0x22, 0x23,
      0xB0, 0x03, 0x61, 0xA3, 0x96, 0x17, 0x7A, 0x9C, 0xB4, 0x10, 0xFF, 0x61, 0xF2, 0x00, 0x15, 0xAD] ∧
    crc32 [0x31, 0x32, 0x33, 0x34, 0x35, 0x36, 0x37, 0x38, 0x39] = 0xCBF43926 := by decide +kernel

/-- R154, R157: 1 + 2^-24 rounds to even, 3 x 2^-149 / 2 as well; 448 is the greatest E4M3 value. -/
theorem test_formats :
    f32Bits ((f32 0x3F800000).add (f32 0x33800000)) = 0x3F800000 ∧ f32Bits ((f32 0x3F800001).add (f32 0x33800000)) = 0x3F800002 ∧
    f32Bits (FpFmt.e4m3.decode 0x7E) = 0x43E00000 ∧ f32Bits (FpFmt.bf16.decode 0x3F80) = 0x3F800000 := by decide +kernel

/-- R21: the queue is served from its front, and an empty queue leaves the block idle (log entry 1). -/
theorem test_step_takes_the_front :
    (match step { served with pending := [.dtSuspectClear, .clockSwitch] } with
      | .next t => decide (t.pending = [.clockSwitch])
      | _ => false) = true ∧
    (match step served with
      | .next t => decide (t = served)
      | _ => false) = true := by decide +kernel

end Sys2Proof.Tests
end

section
/-! PROOFS, scope (spec/00_scope.md): what every command keeps (O5), and the parts of State that each one leaves alone (O6).
Both are the closure lemmas of Laws/Closure.lean, taken with one property of states. -/

namespace Sys2Proof.Machine

/-! ### Reset and the canonical form -/

/-- Writing entries one after another keeps the canonical form of a sparse list. -/
theorem sparsePut_foldl_wf {α β : Type} [DecidableEq α] {d : Nat → α} (key : β → Nat) (val : β → α) :
    ∀ (es : List β) {l : List (Nat × α)}, sparseWf d l = true →
      sparseWf d (es.foldl (fun l e => sparsePut d l (key e) (val e)) l) = true
  | [], _, h => h
  | _ :: es, _, h => sparsePut_foldl_wf key val es (sparsePut_wf h)

@[simp] theorem State.resetOf_pending (m : Module) (c : CelSt) (cores : List CoreSt) (b : BootSt) (host : List Host.Cell)
    (free : Nat) (p : List Instr) : (State.resetOf m c cores b host free p).pending = p := rfl

@[simp] theorem State.resetOf_dtime (m : Module) (c : CelSt) (cores : List CoreSt) (b : BootSt) (host : List Host.Cell)
    (free : Nat) (p : List Instr) : (State.resetOf m c cores b host free p).dtime = 0 := rfl

@[simp] theorem State.resetOf_regs (m : Module) (c : CelSt) (cores : List CoreSt) (b : BootSt) (host : List Host.Cell)
    (free : Nat) (p : List Instr) : (State.resetOf m c cores b host free p).regs = m.regs c.retired := by simp only [State.resetOf]

/-- The registers of a module right after reset are in canonical form. -/
theorem Module.regs_wf (m : Module) (retired : List RetEntry) : sparseWf regDefault (m.regs retired) = true :=
  sparsePut_foldl_wf _ _ _ rfl

/-- A reset leaves canonical contents, where host memory was canonical. -/
theorem State.resetOf_canonical (m : Module) (c : CelSt) (cores : List CoreSt) (b : BootSt) {host : List Host.Cell} (free : Nat)
    (p : List Instr) (h : Memory.wf host = true) : (State.resetOf m c cores b host free p).canonical :=
  ⟨(congrArg _ (State.resetOf_regs ..)).trans (m.regs_wf c.retired), rfl, rfl, h⟩

/-! ### Every command answers -/

/-- From `s` to `t` the queue stays, canonical contents stay canonical, and DTIME stays on its 4 ns grid. -/
def State.keepsForm (s t : State) : Prop :=
  t.pending = s.pending ∧ (s.canonical → t.canonical) ∧ (s.dtime % 4 = 0 → t.dtime % 4 = 0)

/-- A command keeps the queue, the canonical form and the grid of DTIME: the changes that Laws/Closure.lean admits of registers,
byte memories and DTIME keep them, and no other part has a form to keep. -/
theorem exec_keepsForm (i : Instr) (s : State) : HoldsOut s.keepsForm (exec i s) := by
  have regs : ClosedRegs s.keepsForm :=
    ⟨fun _ _ hx ⟨hp, hc, hd⟩ => ⟨hp, fun h => have ⟨r, m, l, o⟩ := hc h; ⟨hx r, m, l, o⟩, hd⟩⟩
  have mem : ClosedMem s.keepsForm :=
    ⟨fun _ _ hx ⟨hp, hc, hd⟩ => ⟨hp, fun h => have ⟨r, m, l, o⟩ := hc h; ⟨r, hx m, l, o⟩, hd⟩⟩
  have larder : ClosedLarder s.keepsForm :=
    ⟨fun _ _ hx ⟨hp, hc, hd⟩ => ⟨hp, fun h => have ⟨r, m, l, o⟩ := hc h; ⟨r, m, hx l, o⟩, hd⟩⟩
  have host : ClosedHost s.keepsForm :=
    ⟨fun _ _ hx ⟨hp, hc, hd⟩ => ⟨hp, fun h => have ⟨r, m, l, o⟩ := hc h; ⟨r, m, l, hx o⟩, hd⟩⟩
  have reset : ClosedReset s.keepsForm :=
    ⟨fun _ _ _ _ _ _ _ hx ⟨hp, hc, _⟩ => ⟨(State.resetOf_pending ..).trans hp, fun h =>
      have ⟨_, _, _, o⟩ := hc h; State.resetOf_canonical _ _ _ _ _ _ (hx o), fun _ => congrArg (· % 4) (State.resetOf_dtime ..)⟩⟩
  have dtime : ClosedDtime s.keepsForm := ⟨fun _ _ hx ⟨hp, hc, hd⟩ => ⟨hp, hc, fun h => hx (hd h)⟩⟩
  have staged : ClosedStaged s.keepsForm := ⟨fun _ _ h => h⟩
  have pairs : ClosedPairs s.keepsForm := ⟨fun _ _ h => h⟩
  have holding : ClosedHolding s.keepsForm := ⟨fun _ _ h => h⟩
  have free : ClosedFree s.keepsForm := ⟨fun _ _ h => h⟩
  have module : ClosedModule s.keepsForm := ⟨fun _ _ h => h⟩
  have cel : ClosedCel s.keepsForm := ⟨fun _ _ h => h⟩
  have pos : ClosedPos s.keepsForm := ⟨fun _ _ h => h⟩
  have lanes : ClosedLanes s.keepsForm := ⟨fun _ _ h => h⟩
  have cams : ClosedCams s.keepsForm := ⟨fun _ _ h => h⟩
  have lp : ClosedLp s.keepsForm := ⟨fun _ _ h => h⟩
  have seq : ClosedSeq s.keepsForm := ⟨fun _ _ h => h⟩
  have field : ClosedField s.keepsForm := ⟨fun _ _ h => h⟩
  have link : ClosedLink s.keepsForm := ⟨fun _ _ h => h⟩
  have aud : ClosedAud s.keepsForm := ⟨fun _ _ h => h⟩
  have loft : ClosedLoft s.keepsForm := ⟨fun _ _ h => h⟩
  have ntm : ClosedNtm s.keepsForm := ⟨fun _ _ h => h⟩
  have gts : ClosedGts s.keepsForm := ⟨fun _ _ h => h⟩
  have client : ClosedClient s.keepsForm := ⟨fun _ _ h => h⟩
  have cores : ClosedCores s.keepsForm := ⟨fun _ _ h => h⟩
  have lists : ClosedLists s.keepsForm := ⟨fun _ _ h => h⟩
  have jobs : ClosedJobs s.keepsForm := ⟨fun _ _ h => h⟩
  have ptns : ClosedPtns s.keepsForm := ⟨fun _ _ h => h⟩
  have flock : ClosedFlock s.keepsForm := ⟨fun _ _ h => h⟩
  have adp : ClosedAdp s.keepsForm := ⟨fun _ _ h => h⟩
  have sdg : ClosedSdg s.keepsForm := ⟨fun _ _ h => h⟩
  have stage : ClosedStage s.keepsForm := ⟨fun _ _ h => h⟩
  have sync : ClosedSync s.keepsForm := ⟨fun _ _ h => h⟩
  have clk : ClosedClk s.keepsForm := ⟨fun _ _ h => h⟩
  have boot : ClosedBoot s.keepsForm := ⟨fun _ _ h => h⟩
  exact exec_holds i ⟨rfl, id, id⟩

/-- Every command of the dispatch answers: each arm is a next state. -/
theorem exec_answers (i : Instr) (s : State) : ∃ t, exec i s = .next t := by
  cases i <;> exact ⟨_, rfl⟩

/-- Settles O5: every arm of the dispatch is a next state, and what a command can change keeps the queue and the canonical form. -/
theorem everyCommandAnswers : Obligations.EveryCommandAnswers := by
  intro i s
  obtain ⟨t, h⟩ := exec_answers i s
  obtain ⟨hp, hc, _⟩ := exec_keepsForm i s t h
  exact ⟨t, h, hp, hc⟩

/-! ### The frame of every command -/

/-- A part of State is among those listed: a class, so that the closure lemmas of a command (Laws/Closure.lean) find it by themselves. -/
class Among (c : Comp) (cs : List Comp) : Prop where
  mem : c ∈ cs

theorem Among.ne {c d : Comp} {cs : List Comp} (h : Among c cs) (hd : d ∉ cs) : d ≠ c := fun e => hd (e ▸ h.mem)

/-- A command that lists every part but the queue may reset the module: a reset keeps the queue (R482). -/
theorem closedReset_everything {s : State} : ClosedReset (s.changesOnly everything) := by
  refine ⟨fun t m x cores b host free _ ht c hc => ?_⟩
  cases c with
  | pending => exact (State.resetOf_pending ..).trans (ht .pending hc)
  | _ => exact absurd (by decide) hc

/-- A command changes no part of State but those listed for it. -/
theorem exec_changesOnly (i : Instr) (s : State) : HoldsOut (s.changesOnly (touches i)) (exec i s) := by
  have here (c cs) : Among c (c :: cs) := ⟨.head cs⟩
  have there (c d cs) [h : Among c cs] : Among c (d :: cs) := ⟨.tail d h.mem⟩
  have regs (cs) [h : Among .regs cs] : ClosedRegs (s.changesOnly cs) :=
    ⟨fun t x k ht c hc => (closedRegs_of_ne (h.ne hc)).upd t x k (ht c hc)⟩
  have staged (cs) [h : Among .staged cs] : ClosedStaged (s.changesOnly cs) :=
    ⟨fun t x ht c hc => (closedStaged_of_ne (h.ne hc)).upd t x (ht c hc)⟩
  have pairs (cs) [h : Among .pairs cs] : ClosedPairs (s.changesOnly cs) :=
    ⟨fun t x ht c hc => (closedPairs_of_ne (h.ne hc)).upd t x (ht c hc)⟩
  have holding (cs) [h : Among .holding cs] : ClosedHolding (s.changesOnly cs) :=
    ⟨fun t x ht c hc => (closedHolding_of_ne (h.ne hc)).upd t x (ht c hc)⟩
  have dtime (cs) [h : Among .dtime cs] : ClosedDtime (s.changesOnly cs) :=
    ⟨fun t x k ht c hc => (closedDtime_of_ne (h.ne hc)).upd t x k (ht c hc)⟩
  have mem (cs) [h : Among .mem cs] : ClosedMem (s.changesOnly cs) :=
    ⟨fun t x k ht c hc => (closedMem_of_ne (h.ne hc)).upd t x k (ht c hc)⟩
  have larder (cs) [h : Among .larder cs] : ClosedLarder (s.changesOnly cs) :=
    ⟨fun t x k ht c hc => (closedLarder_of_ne (h.ne hc)).upd t x k (ht c hc)⟩
  have host (cs) [h : Among .host cs] : ClosedHost (s.changesOnly cs) :=
    ⟨fun t x k ht c hc => (closedHost_of_ne (h.ne hc)).upd t x k (ht c hc)⟩
  have free (cs) [h : Among .free cs] : ClosedFree (s.changesOnly cs) :=
    ⟨fun t x ht c hc => (closedFree_of_ne (h.ne hc)).upd t x (ht c hc)⟩
  have module (cs) [h : Among .module cs] : ClosedModule (s.changesOnly cs) :=
    ⟨fun t x ht c hc => (closedModule_of_ne (h.ne hc)).upd t x (ht c hc)⟩
  have cel (cs) [h : Among .cel cs] : ClosedCel (s.changesOnly cs) :=
    ⟨fun t x ht c hc => (closedCel_of_ne (h.ne hc)).upd t x (ht c hc)⟩
  have pos (cs) [h : Among .pos cs] : ClosedPos (s.changesOnly cs) :=
    ⟨fun t x ht c hc => (closedPos_of_ne (h.ne hc)).upd t x (ht c hc)⟩
  have lanes (cs) [h : Among .lanes cs] : ClosedLanes (s.changesOnly cs) :=
    ⟨fun t x ht c hc => (closedLanes_of_ne (h.ne hc)).upd t x (ht c hc)⟩
  have cams (cs) [h : Among .cams cs] : ClosedCams (s.changesOnly cs) :=
    ⟨fun t x ht c hc => (closedCams_of_ne (h.ne hc)).upd t x (ht c hc)⟩
  have lp (cs) [h : Among .lp cs] : ClosedLp (s.changesOnly cs) :=
    ⟨fun t x ht c hc => (closedLp_of_ne (h.ne hc)).upd t x (ht c hc)⟩
  have seq (cs) [h : Among .seq cs] : ClosedSeq (s.changesOnly cs) :=
    ⟨fun t x ht c hc => (closedSeq_of_ne (h.ne hc)).upd t x (ht c hc)⟩
  have field (cs) [h : Among .field cs] : ClosedField (s.changesOnly cs) :=
    ⟨fun t x ht c hc => (closedField_of_ne (h.ne hc)).upd t x (ht c hc)⟩
  have link (cs) [h : Among .link cs] : ClosedLink (s.changesOnly cs) :=
    ⟨fun t x ht c hc => (closedLink_of_ne (h.ne hc)).upd t x (ht c hc)⟩
  have aud (cs) [h : Among .aud cs] : ClosedAud (s.changesOnly cs) :=
    ⟨fun t x ht c hc => (closedAud_of_ne (h.ne hc)).upd t x (ht c hc)⟩
  have loft (cs) [h : Among .loft cs] : ClosedLoft (s.changesOnly cs) :=
    ⟨fun t x ht c hc => (closedLoft_of_ne (h.ne hc)).upd t x (ht c hc)⟩
  have ntm (cs) [h : Among .ntm cs] : ClosedNtm (s.changesOnly cs) :=
    ⟨fun t x ht c hc => (closedNtm_of_ne (h.ne hc)).upd t x (ht c hc)⟩
  have gts (cs) [h : Among .gts cs] : ClosedGts (s.changesOnly cs) :=
    ⟨fun t x ht c hc => (closedGts_of_ne (h.ne hc)).upd t x (ht c hc)⟩
  have client (cs) [h : Among .client cs] : ClosedClient (s.changesOnly cs) :=
    ⟨fun t x ht c hc => (closedClient_of_ne (h.ne hc)).upd t x (ht c hc)⟩
  have cores (cs) [h : Among .cores cs] : ClosedCores (s.changesOnly cs) :=
    ⟨fun t x ht c hc => (closedCores_of_ne (h.ne hc)).upd t x (ht c hc)⟩
  have lists (cs) [h : Among .lists cs] : ClosedLists (s.changesOnly cs) :=
    ⟨fun t x ht c hc => (closedLists_of_ne (h.ne hc)).upd t x (ht c hc)⟩
  have jobs (cs) [h : Among .jobs cs] : ClosedJobs (s.changesOnly cs) :=
    ⟨fun t x ht c hc => (closedJobs_of_ne (h.ne hc)).upd t x (ht c hc)⟩
  have ptns (cs) [h : Among .ptns cs] : ClosedPtns (s.changesOnly cs) :=
    ⟨fun t x ht c hc => (closedPtns_of_ne (h.ne hc)).upd t x (ht c hc)⟩
  have flock (cs) [h : Among .flock cs] : ClosedFlock (s.changesOnly cs) :=
    ⟨fun t x ht c hc => (closedFlock_of_ne (h.ne hc)).upd t x (ht c hc)⟩
  have adp (cs) [h : Among .adp cs] : ClosedAdp (s.changesOnly cs) :=
    ⟨fun t x ht c hc => (closedAdp_of_ne (h.ne hc)).upd t x (ht c hc)⟩
  have sdg (cs) [h : Among .sdg cs] : ClosedSdg (s.changesOnly cs) :=
    ⟨fun t x ht c hc => (closedSdg_of_ne (h.ne hc)).upd t x (ht c hc)⟩
  have stage (cs) [h : Among .stage cs] : ClosedStage (s.changesOnly cs) :=
    ⟨fun t x ht c hc => (closedStage_of_ne (h.ne hc)).upd t x (ht c hc)⟩
  have sync (cs) [h : Among .sync cs] : ClosedSync (s.changesOnly cs) :=
    ⟨fun t x ht c hc => (closedSync_of_ne (h.ne hc)).upd t x (ht c hc)⟩
  have clk (cs) [h : Among .clk cs] : ClosedClk (s.changesOnly cs) :=
    ⟨fun t x ht c hc => (closedClk_of_ne (h.ne hc)).upd t x (ht c hc)⟩
  have boot (cs) [h : Among .boot cs] : ClosedBoot (s.changesOnly cs) :=
    ⟨fun t x ht c hc => (closedBoot_of_ne (h.ne hc)).upd t x (ht c hc)⟩
  have reset : ClosedReset (s.changesOnly everything) := closedReset_everything
  have hs (cs) : Holds (s.changesOnly cs) s := fun c _ => Holds.same_refl
  dsimp only [everything] at reset
  cases i with dsimp only [touches, everything]
  | registerWrite _ _ _ => exact exec_registerWrite ▸ execRegisterWrite_holds (hs _)
  | w1cClear _ _ => exact exec_w1cClear ▸ execW1cClear_holds (hs _)
  | loReadLatch _ _ => exact exec_loReadLatch ▸ execLoReadLatch_holds (hs _)
  | counterClear _ => exact exec_counterClear ▸ execCounterClear_holds (hs _)
  | accessErrClear => exact exec_accessErrClear ▸ execAccessErrClear_holds (hs _)
  | pairMemberWrite _ _ => exact exec_pairMemberWrite ▸ execPairMemberWrite_holds (hs _)
  | pairLatch _ _ => exact exec_pairLatch ▸ execPairLatch_holds (hs _)
  | wposExtrapolate => exact exec_wposExtrapolate ▸ execWposExtrapolate_holds (hs _)
  | encoderRead _ _ _ _ _ _ _ => exact exec_encoderRead ▸ execEncoderRead_holds (hs _)
  | posLost => exact exec_posLost ▸ execPosLost_holds (hs _)
  | posTupleSend => exact exec_posTupleSend ▸ execPosTupleSend_holds (hs _)
  | takeover => exact exec_takeover ▸ execTakeover_holds (hs _)
  | posSnapTake => exact exec_posSnapTake ▸ execPosSnapTake_holds (hs _)
  | nop => exact exec_nop ▸ execNop_holds (hs _)
  | partClose => exact exec_partClose ▸ execPartClose_holds (hs _)
  | partOpen => exact exec_partOpen ▸ execPartOpen_holds (hs _)
  | lineGate => exact exec_lineGate ▸ execLineGate_holds (hs _)
  | stripCut => exact exec_stripCut ▸ execStripCut_holds (hs _)
  | roiApply => exact exec_roiApply ▸ execRoiApply_holds (hs _)
  | decision => exact exec_decision ▸ execDecision_holds (hs _)
  | ejectPass => exact exec_ejectPass ▸ execEjectPass_holds (hs _)
  | pulse => exact exec_pulse ▸ execPulse_holds (hs _)
  | selftestWin => exact exec_selftestWin ▸ execSelftestWin_holds (hs _)
  | signal => exact exec_signal ▸ execSignal_holds (hs _)
  | loftMark => exact exec_loftMark ▸ execLoftMark_holds (hs _)
  | edgeRecompute => exact exec_edgeRecompute ▸ execEdgeRecompute_holds (hs _)
  | edgeReportTimeout => exact exec_edgeReportTimeout ▸ execEdgeReportTimeout_holds (hs _)
  | psqTblRead _ => exact exec_psqTblRead ▸ execPsqTblRead_holds (hs _)
  | partWinRead _ => exact exec_partWinRead ▸ execPartWinRead_holds (hs _)
  | edgeNew _ _ _ _ _ => exact exec_edgeNew ▸ execEdgeNew_holds (hs _)
  | edgeCorr _ _ _ _ _ => exact exec_edgeCorr ▸ execEdgeCorr_holds (hs _)
  | edgeHold _ _ _ => exact exec_edgeHold ▸ execEdgeHold_holds (hs _)
  | edgeCancel _ _ _ => exact exec_edgeCancel ▸ execEdgeCancel_holds (hs _)
  | heartbeat _ _ _ => exact exec_heartbeat ▸ execHeartbeat_holds (hs _)
  | outCfg _ _ _ _ _ _ => exact exec_outCfg ▸ execOutCfg_holds (hs _)
  | outSet _ _ => exact exec_outSet ▸ execOutSet_holds (hs _)
  | lsSet _ _ => exact exec_lsSet ▸ execLsSet_holds (hs _)
  | resume _ => exact exec_resume ▸ execResume_holds (hs _)
  | inCfg _ _ _ _ => exact exec_inCfg ▸ execInCfg_holds (hs _)
  | downlinkBadFrame => exact exec_downlinkBadFrame ▸ execDownlinkBadFrame_holds (hs _)
  | edgeDone _ _ _ _ _ _ => exact exec_edgeDone ▸ execEdgeDone_holds (hs _)
  | reject _ _ _ _ _ => exact exec_reject ▸ execReject_holds (hs _)
  | status _ _ _ _ _ _ _ _ _ _ => exact exec_status ▸ execStatus_holds (hs _)
  | inputEdge _ _ _ _ => exact exec_inputEdge ▸ execInputEdge_holds (hs _)
  | uplinkCrcError => exact exec_uplinkCrcError ▸ execUplinkCrcError_holds (hs _)
  | syncEdgeSend => exact exec_syncEdgeSend ▸ execSyncEdgeSend_holds (hs _)
  | edgeFire => exact exec_edgeFire ▸ execEdgeFire_holds (hs _)
  | heartbeatLoss => exact exec_heartbeatLoss ▸ execHeartbeatLoss_holds (hs _)
  | uplinkLost => exact exec_uplinkLost ▸ execUplinkLost_holds (hs _)
  | overload _ => exact exec_overload ▸ execOverload_holds (hs _)
  | overtemp _ _ => exact exec_overtemp ▸ execOvertemp_holds (hs _)
  | openOff _ _ => exact exec_openOff ▸ execOpenOff_holds (hs _)
  | openOn _ => exact exec_openOn ▸ execOpenOn_holds (hs _)
  | supplyLow => exact exec_supplyLow ▸ execSupplyLow_holds (hs _)
  | lsFault => exact exec_lsFault ▸ execLsFault_holds (hs _)
  | inputConfirm _ _ _ => exact exec_inputConfirm ▸ execInputConfirm_holds (hs _)
  | lsCauseClear _ => exact exec_lsCauseClear ▸ execLsCauseClear_holds (hs _)
  | fldStop => exact exec_fldStop ▸ execFldStop_holds (hs _)
  | fldResume => exact exec_fldResume ▸ execFldResume_holds (hs _)
  | fldOutSetWrite _ => exact exec_fldOutSetWrite ▸ execFldOutSetWrite_holds (hs _)
  | acJudge => exact exec_acJudge ▸ execAcJudge_holds (hs _)
  | supFault _ => exact exec_supFault ▸ execSupFault_holds (hs _)
  | featureFrame _ _ _ _ _ => exact exec_featureFrame ▸ execFeatureFrame_holds (hs _)
  | laneSignalDetect _ => exact exec_laneSignalDetect ▸ execLaneSignalDetect_holds (hs _)
  | laneSignalLoss _ => exact exec_laneSignalLoss ▸ execLaneSignalLoss_holds (hs _)
  | cdrLock _ => exact exec_cdrLock ▸ execCdrLock_holds (hs _)
  | cdrLockLoss _ => exact exec_cdrLockLoss ▸ execCdrLockLoss_holds (hs _)
  | acquireGroup _ _ _ => exact exec_acquireGroup ▸ execAcquireGroup_holds (hs _)
  | alignedGroup _ _ _ => exact exec_alignedGroup ▸ execAlignedGroup_holds (hs _)
  | eyeScanStart _ _ _ _ => exact exec_eyeScanStart ▸ execEyeScanStart_holds (hs _)
  | eyeScanAbort _ => exact exec_eyeScanAbort ▸ execEyeScanAbort_holds (hs _)
  | eyeScanDone _ _ => exact exec_eyeScanDone ▸ execEyeScanDone_holds (hs _)
  | rediscover _ => exact exec_rediscover ▸ execRediscover_holds (hs _)
  | discoverLanesAligned _ => exact exec_discoverLanesAligned ▸ execDiscoverLanesAligned_holds (hs _)
  | discoverAlignTimeout _ => exact exec_discoverAlignTimeout ▸ execDiscoverAlignTimeout_holds (hs _)
  | controlReply _ _ _ _ => exact exec_controlReply ▸ execControlReply_holds (hs _)
  | controlTimeout _ => exact exec_controlTimeout ▸ execControlTimeout_holds (hs _)
  | streamPacket _ _ _ _ => exact exec_streamPacket ▸ execStreamPacket_holds (hs _)
  | slotDeadline _ => exact exec_slotDeadline ▸ execSlotDeadline_holds (hs _)
  | rowBuild _ => exact exec_rowBuild ▸ execRowBuild_holds (hs _)
  | inputDigestFinal _ => exact exec_inputDigestFinal ▸ execInputDigestFinal_holds (hs _)
  | mcmd _ => exact exec_mcmd ▸ execMcmd_holds (hs _)
  | vmov _ => exact exec_vmov ▸ execVmov_holds (hs _)
  | vadd _ => exact exec_vadd ▸ execVadd_holds (hs _)
  | vsub _ => exact exec_vsub ▸ execVsub_holds (hs _)
  | vmul _ => exact exec_vmul ▸ execVmul_holds (hs _)
  | vmax _ => exact exec_vmax ▸ execVmax_holds (hs _)
  | vmin _ => exact exec_vmin ▸ execVmin_holds (hs _)
  | vclamp _ => exact exec_vclamp ▸ execVclamp_holds (hs _)
  | vcmp _ => exact exec_vcmp ▸ execVcmp_holds (hs _)
  | vsel _ => exact exec_vsel ▸ execVsel_holds (hs _)
  | vmacw _ => exact exec_vmacw ▸ execVmacw_holds (hs _)
  | vreq _ => exact exec_vreq ▸ execVreq_holds (hs _)
  | vcvt _ => exact exec_vcvt ▸ execVcvt_holds (hs _)
  | vlut _ => exact exec_vlut ▸ execVlut_holds (hs _)
  | vpoolh _ => exact exec_vpoolh ▸ execVpoolh_holds (hs _)
  | vrsum _ => exact exec_vrsum ▸ execVrsum_holds (hs _)
  | vrmax _ => exact exec_vrmax ▸ execVrmax_holds (hs _)
  | vrmin _ => exact exec_vrmin ▸ execVrmin_holds (hs _)
  | vcnt _ => exact exec_vcnt ▸ execVcnt_holds (hs _)
  | vdlv _ => exact exec_vdlv ▸ execVdlv_holds (hs _)
  | vilv _ => exact exec_vilv ▸ execVilv_holds (hs _)
  | xferToLarder _ => exact exec_xferToLarder ▸ execXferToLarder_holds (hs _)
  | xferFromLarder _ => exact exec_xferFromLarder ▸ execXferFromLarder_holds (hs _)
  | commandComplete _ _ => exact exec_commandComplete ▸ execCommandComplete_holds (hs _)
  | maxdurExpire _ _ => exact exec_maxdurExpire ▸ execMaxdurExpire_holds (hs _)
  | waitRecord _ => exact exec_waitRecord ▸ execWaitRecord_holds (hs _)
  | signalRecord _ => exact exec_signalRecord ▸ execSignalRecord_holds (hs _)
  | launch _ => exact exec_launch ▸ execLaunch_holds (hs _)
  | threadStart _ _ => exact exec_threadStart ▸ execThreadStart_holds (hs _)
  | idleFor _ => exact exec_idleFor ▸ execIdleFor_holds (hs _)
  | load _ => exact exec_load ▸ execLoad_holds (hs _)
  | result _ => exact exec_result ▸ execResult_holds (hs _)
  | endRecord _ => exact exec_endRecord ▸ execEndRecord_holds (hs _)
  | nopRecord _ => exact exec_nopRecord ▸ execNopRecord_holds (hs _)
  | add _ _ => exact exec_add ▸ execAdd_holds (hs _)
  | sub _ _ => exact exec_sub ▸ execSub_holds (hs _)
  | and _ _ => exact exec_and ▸ execAnd_holds (hs _)
  | or _ _ => exact exec_or ▸ execOr_holds (hs _)
  | xor _ _ => exact exec_xor ▸ execXor_holds (hs _)
  | shl _ _ => exact exec_shl ▸ execShl_holds (hs _)
  | shr _ _ => exact exec_shr ▸ execShr_holds (hs _)
  | sar _ _ => exact exec_sar ▸ execSar_holds (hs _)
  | slt _ _ => exact exec_slt ▸ execSlt_holds (hs _)
  | sltu _ _ => exact exec_sltu ▸ execSltu_holds (hs _)
  | min _ _ => exact exec_min ▸ execMin_holds (hs _)
  | max _ _ => exact exec_max ▸ execMax_holds (hs _)
  | clz _ _ => exact exec_clz ▸ execClz_holds (hs _)
  | popc _ _ => exact exec_popc ▸ execPopc_holds (hs _)
  | mul _ _ => exact exec_mul ▸ execMul_holds (hs _)
  | mulhu _ _ => exact exec_mulhu ▸ execMulhu_holds (hs _)
  | divu _ _ => exact exec_divu ▸ execDivu_holds (hs _)
  | fadd _ _ => exact exec_fadd ▸ execFadd_holds (hs _)
  | fsub _ _ => exact exec_fsub ▸ execFsub_holds (hs _)
  | fmul _ _ => exact exec_fmul ▸ execFmul_holds (hs _)
  | fmin _ _ => exact exec_fmin ▸ execFmin_holds (hs _)
  | fmax _ _ => exact exec_fmax ▸ execFmax_holds (hs _)
  | flt _ _ => exact exec_flt ▸ execFlt_holds (hs _)
  | fcvti _ _ => exact exec_fcvti ▸ execFcvti_holds (hs _)
  | fcvtf _ _ => exact exec_fcvtf ▸ execFcvtf_holds (hs _)
  | addi _ _ => exact exec_addi ▸ execAddi_holds (hs _)
  | andi _ _ => exact exec_andi ▸ execAndi_holds (hs _)
  | ori _ _ => exact exec_ori ▸ execOri_holds (hs _)
  | xori _ _ => exact exec_xori ▸ execXori_holds (hs _)
  | shi _ _ => exact exec_shi ▸ execShi_holds (hs _)
  | lui _ _ => exact exec_lui ▸ execLui_holds (hs _)
  | slti _ _ => exact exec_slti ▸ execSlti_holds (hs _)
  | ld8 _ _ => exact exec_ld8 ▸ execLd8_holds (hs _)
  | ld16 _ _ => exact exec_ld16 ▸ execLd16_holds (hs _)
  | ld32 _ _ => exact exec_ld32 ▸ execLd32_holds (hs _)
  | ld64 _ _ => exact exec_ld64 ▸ execLd64_holds (hs _)
  | st8 _ _ => exact exec_st8 ▸ execSt8_holds (hs _)
  | st16 _ _ => exact exec_st16 ▸ execSt16_holds (hs _)
  | st32 _ _ => exact exec_st32 ▸ execSt32_holds (hs _)
  | st64 _ _ => exact exec_st64 ▸ execSt64_holds (hs _)
  | aadd _ _ => exact exec_aadd ▸ execAadd_holds (hs _)
  | aaddf _ _ => exact exec_aaddf ▸ execAaddf_holds (hs _)
  | amin _ _ => exact exec_amin ▸ execAmin_holds (hs _)
  | amax _ _ => exact exec_amax ▸ execAmax_holds (hs _)
  | axchg _ _ => exact exec_axchg ▸ execAxchg_holds (hs _)
  | acas _ _ => exact exec_acas ▸ execAcas_holds (hs _)
  | beq _ _ => exact exec_beq ▸ execBeq_holds (hs _)
  | bne _ _ => exact exec_bne ▸ execBne_holds (hs _)
  | blt _ _ => exact exec_blt ▸ execBlt_holds (hs _)
  | bge _ _ => exact exec_bge ▸ execBge_holds (hs _)
  | bltu _ _ => exact exec_bltu ▸ execBltu_holds (hs _)
  | bgeu _ _ => exact exec_bgeu ▸ execBgeu_holds (hs _)
  | jal _ _ => exact exec_jal ▸ execJal_holds (hs _)
  | jr _ _ => exact exec_jr ▸ execJr_holds (hs _)
  | hkey _ _ => exact exec_hkey ▸ execHkey_holds (hs _)
  | hlook _ _ => exact exec_hlook ▸ execHlook_holds (hs _)
  | hseen _ _ => exact exec_hseen ▸ execHseen_holds (hs _)
  | hins _ _ => exact exec_hins ▸ execHins_holds (hs _)
  | rget _ _ => exact exec_rget ▸ execRget_holds (hs _)
  | swait _ _ => exact exec_swait ▸ execSwait_holds (hs _)
  | ssig _ _ => exact exec_ssig ▸ execSsig_holds (hs _)
  | fence _ _ => exact exec_fence ▸ execFence_holds (hs _)
  | rdt _ _ => exact exec_rdt ▸ execRdt_holds (hs _)
  | exit _ _ => exact exec_exit ▸ execExit_holds (hs _)
  | flockMemComplete _ _ _ => exact exec_flockMemComplete ▸ execFlockMemComplete_holds (hs _)
  | remoteTimeout _ _ _ => exact exec_remoteTimeout ▸ execRemoteTimeout_holds (hs _)
  | faultRelease _ => exact exec_faultRelease ▸ execFaultRelease_holds (hs _)
  | pageRetire => exact exec_pageRetire ▸ execPageRetire_holds (hs _)
  | celRetRead _ => exact exec_celRetRead ▸ execCelRetRead_holds (hs _)
  | sliceEnd _ => exact exec_sliceEnd ▸ execSliceEnd_holds (hs _)
  | sliceYield _ => exact exec_sliceYield ▸ execSliceYield_holds (hs _)
  | partitionSwitch _ => exact exec_partitionSwitch ▸ execPartitionSwitch_holds (hs _)
  | sliceBegin _ => exact exec_sliceBegin ▸ execSliceBegin_holds (hs _)
  | holdExpire => exact exec_holdExpire ▸ execHoldExpire_holds (hs _)
  | waitTimeout _ => exact exec_waitTimeout ▸ execWaitTimeout_holds (hs _)
  | soSelect _ => exact exec_soSelect ▸ execSoSelect_holds (hs _)
  | soRestage _ => exact exec_soRestage ▸ execSoRestage_holds (hs _)
  | ringEnable _ _ _ => exact exec_ringEnable ▸ execRingEnable_holds (hs _)
  | ringDisable _ _ _ => exact exec_ringDisable ▸ execRingDisable_holds (hs _)
  | doorbell _ _ => exact exec_doorbell ▸ execDoorbell_holds (hs _)
  | descriptorStart _ => exact exec_descriptorStart ▸ execDescriptorStart_holds (hs _)
  | nopOpcode _ _ => exact exec_nopOpcode ▸ execNopOpcode_holds (hs _)
  | regRead _ _ => exact exec_regRead ▸ execRegRead_holds (hs _)
  | regWrite _ _ => exact exec_regWrite ▸ execRegWrite_holds (hs _)
  | memRead _ _ => exact exec_memRead ▸ execMemRead_holds (hs _)
  | memWrite _ _ => exact exec_memWrite ▸ execMemWrite_holds (hs _)
  | imageLoadProgram _ _ => exact exec_imageLoadProgram ▸ execImageLoadProgram_holds (hs _)
  | imageLoadWeights _ _ => exact exec_imageLoadWeights ▸ execImageLoadWeights_holds (hs _)
  | imageLoadReference _ _ _ => exact exec_imageLoadReference ▸ execImageLoadReference_holds (hs _)
  | seqWrite _ _ => exact exec_seqWrite ▸ execSeqWrite_holds (hs _)
  | lpipeTable _ _ => exact exec_lpipeTable ▸ execLpipeTable_holds (hs _)
  | setLoadRaw _ _ => exact exec_setLoadRaw ▸ execSetLoadRaw_holds (hs _)
  | setLoadEntries _ _ => exact exec_setLoadEntries ▸ execSetLoadEntries_holds (hs _)
  | setLoadClear _ _ => exact exec_setLoadClear ▸ execSetLoadClear_holds (hs _)
  | camRegRead _ _ => exact exec_camRegRead ▸ execCamRegRead_holds (hs _)
  | camRegWrite _ _ => exact exec_camRegWrite ▸ execCamRegWrite_holds (hs _)
  | jobStart _ _ => exact exec_jobStart ▸ execJobStart_holds (hs _)
  | jobStop _ _ => exact exec_jobStop ▸ execJobStop_holds (hs _)
  | commit _ _ => exact exec_commit ▸ execCommit_holds (hs _)
  | commitCheckDone => exact exec_commitCheckDone ▸ execCommitCheckDone_holds (hs _)
  | commitApply => exact exec_commitApply ▸ execCommitApply_holds (hs _)
  | discard _ _ => exact exec_discard ▸ execDiscard_holds (hs _)
  | soWait _ _ => exact exec_soWait ▸ execSoWait_holds (hs _)
  | soSignal _ _ => exact exec_soSignal ▸ execSoSignal_holds (hs _)
  | netSet _ _ => exact exec_netSet ▸ execNetSet_holds (hs _)
  | allowLoad _ _ => exact exec_allowLoad ▸ execAllowLoad_holds (hs _)
  | attest _ _ => exact exec_attest ▸ execAttest_holds (hs _)
  | fwPush _ _ => exact exec_fwPush ▸ execFwPush_holds (hs _)
  | irqHoldoffEnd _ => exact exec_irqHoldoffEnd ▸ execIrqHoldoffEnd_holds (hs _)
  | functionLevelReset => exact exec_functionLevelReset ▸ execFunctionLevelReset_holds (hs _)
  | hostReadTimeout _ _ => exact exec_hostReadTimeout ▸ execHostReadTimeout_holds (hs _)
  | sessionOpen _ _ => exact exec_sessionOpen ▸ execSessionOpen_holds (hs _)
  | sessionClose _ => exact exec_sessionClose ▸ execSessionClose_holds (hs _)
  | sessionTimeout _ => exact exec_sessionTimeout ▸ execSessionTimeout_holds (hs _)
  | keepaliveSend _ => exact exec_keepaliveSend ▸ execKeepaliveSend_holds (hs _)
  | submit _ _ _ _ => exact exec_submit ▸ execSubmit_holds (hs _)
  | ack _ _ _ => exact exec_ack ▸ execAck_holds (hs _)
  | keepalive _ => exact exec_keepalive ▸ execKeepalive_holds (hs _)
  | sheepdogCheckDone => exact exec_sheepdogCheckDone ▸ execSheepdogCheckDone_holds (hs _)
  | lockstepMismatch => exact exec_lockstepMismatch ▸ execLockstepMismatch_holds (hs _)
  | sdgProofArm _ _ => exact exec_sdgProofArm ▸ execSdgProofArm_holds (hs _)
  | alarmClear => exact exec_alarmClear ▸ execAlarmClear_holds (hs _)
  | larderMarch _ _ _ => exact exec_larderMarch ▸ execLarderMarch_holds (hs _)
  | arrayKav _ _ => exact exec_arrayKav ▸ execArrayKav_holds (hs _)
  | pantryTag _ _ _ => exact exec_pantryTag ▸ execPantryTag_holds (hs _)
  | lpKal _ _ => exact exec_lpKal ▸ execLpKal_holds (hs _)
  | coverageIntervalEnd => exact exec_coverageIntervalEnd ▸ execCoverageIntervalEnd_holds (hs _)
  | inputRunStart => exact exec_inputRunStart ▸ execInputRunStart_holds (hs _)
  | sampleDecodeStart => exact exec_sampleDecodeStart ▸ execSampleDecodeStart_holds (hs _)
  | sampleDecodeDone _ _ => exact exec_sampleDecodeDone ▸ execSampleDecodeDone_holds (hs _)
  | decodeBudgetExpire _ _ => exact exec_decodeBudgetExpire ▸ execDecodeBudgetExpire_holds (hs _)
  | publicationServe => exact exec_publicationServe ▸ execPublicationServe_holds (hs _)
  | helloSend _ => exact exec_helloSend ▸ execHelloSend_holds (hs _)
  | hello _ _ _ _ _ _ _ => exact exec_hello ▸ execHello_holds (hs _)
  | linkstate _ _ => exact exec_linkstate ▸ execLinkstate_holds (hs _)
  | promote _ _ _ => exact exec_promote ▸ execPromote_holds (hs _)
  | posTuple _ _ => exact exec_posTuple ▸ execPosTuple_holds (hs _)
  | tsyncSend _ => exact exec_tsyncSend ▸ execTsyncSend_holds (hs _)
  | tsyncReq _ _ _ _ => exact exec_tsyncReq ▸ execTsyncReq_holds (hs _)
  | tsyncResp _ _ _ _ => exact exec_tsyncResp ▸ execTsyncResp_holds (hs _)
  | tsyncTimeout => exact exec_tsyncTimeout ▸ execTsyncTimeout_holds (hs _)
  | setReq _ _ _ _ _ => exact exec_setReq ▸ execSetReq_holds (hs _)
  | setResp _ _ _ => exact exec_setResp ▸ execSetResp_holds (hs _)
  | repl _ _ _ _ _ _ _ => exact exec_repl ▸ execRepl_holds (hs _)
  | replAck _ => exact exec_replAck ▸ execReplAck_holds (hs _)
  | rgetReq _ _ => exact exec_rgetReq ▸ execRgetReq_holds (hs _)
  | rgetResp _ _ => exact exec_rgetResp ▸ execRgetResp_holds (hs _)
  | halo _ _ _ _ _ _ => exact exec_halo ▸ execHalo_holds (hs _)
  | ackSend _ => exact exec_ackSend ▸ execAckSend_holds (hs _)
  | ackSet _ _ => exact exec_ackSet ▸ execAckSet_holds (hs _)
  | nak _ _ => exact exec_nak ▸ execNak_holds (hs _)
  | cred _ _ _ _ => exact exec_cred ▸ execCred_holds (hs _)
  | packetError _ => exact exec_packetError ▸ execPacketError_holds (hs _)
  | memberLost _ _ => exact exec_memberLost ▸ execMemberLost_holds (hs _)
  | clockSourceLoss => exact exec_clockSourceLoss ▸ execClockSourceLoss_holds (hs _)
  | clockSwitch => exact exec_clockSwitch ▸ execClockSwitch_holds (hs _)
  | loopRelock => exact exec_loopRelock ▸ execLoopRelock_holds (hs _)
  | clkSwitchRequest _ _ => exact exec_clkSwitchRequest ▸ execClkSwitchRequest_holds (hs _)
  | clockLostTimeout => exact exec_clockLostTimeout ▸ execClockLostTimeout_holds (hs _)
  | dtSuspectClear => exact exec_dtSuspectClear ▸ execDtSuspectClear_holds (hs _)
  | xtalReady _ => exact exec_xtalReady ▸ execXtalReady_holds (hs _)
  | governorTick _ _ _ => exact exec_governorTick ▸ execGovernorTick_holds (hs _)
  | vrAlert _ _ => exact exec_vrAlert ▸ execVrAlert_holds (hs _)
  | vrAlertDeassert => exact exec_vrAlertDeassert ▸ execVrAlertDeassert_holds (hs _)
  | thermalSample _ => exact exec_thermalSample ▸ execThermalSample_holds (hs _)
  | thermalTrip _ _ => exact exec_thermalTrip ▸ execThermalTrip_holds (hs _)
  | quadSleep _ => exact exec_quadSleep ▸ execQuadSleep_holds (hs _)
  | quadWake _ => exact exec_quadWake ▸ execQuadWake_holds (hs _)
  | quadDeepEnter _ => exact exec_quadDeepEnter ▸ execQuadDeepEnter_holds (hs _)
  | ptpSync _ _ _ _ _ _ _ _ => exact exec_ptpSync ▸ execPtpSync_holds (hs _)
  | ptpFollowUp _ _ _ _ _ _ => exact exec_ptpFollowUp ▸ execPtpFollowUp_holds (hs _)
  | ptpDelayResp _ _ _ _ _ _ => exact exec_ptpDelayResp ▸ execPtpDelayResp_holds (hs _)
  | ptpAnnounce _ _ _ _ _ _ _ _ _ _ _ _ => exact exec_ptpAnnounce ▸ execPtpAnnounce_holds (hs _)
  | ptpTxComplete _ _ _ => exact exec_ptpTxComplete ▸ execPtpTxComplete_holds (hs _)
  | announceTimeout => exact exec_announceTimeout ▸ execAnnounceTimeout_holds (hs _)
  | txqStale => exact exec_txqStale ▸ execTxqStale_holds (hs _)
  | ntimeExtend => exact exec_ntimeExtend ▸ execNtimeExtend_holds (hs _)
  | ntmSnapTake => exact exec_ntmSnapTake ▸ execNtmSnapTake_holds (hs _)
  | ntmSnapExtend => exact exec_ntmSnapExtend ▸ execNtmSnapExtend_holds (hs _)
  | tpoFire _ => exact exec_tpoFire ▸ execTpoFire_holds (hs _)
  | tpoPulseEnd _ => exact exec_tpoPulseEnd ▸ execTpoPulseEnd_holds (hs _)
  | loftUpdate => exact exec_loftUpdate ▸ execLoftUpdate_holds (hs _)
  | loftCurWrite _ => exact exec_loftCurWrite ▸ execLoftCurWrite_holds (hs _)
  | loftClearOne _ => exact exec_loftClearOne ▸ execLoftClearOne_holds (hs _)
  | loftClearAll => exact exec_loftClearAll ▸ execLoftClearAll_holds (hs _)
  | loftClearDrop => exact exec_loftClearDrop ▸ execLoftClearDrop_holds (hs _)
  | powerOn => exact exec_powerOn ▸ execPowerOn_holds (hs _)
  | supplyDrop => exact exec_supplyDrop ▸ execSupplyDrop_holds (hs _)
  | moduleReset _ _ => exact exec_moduleReset ▸ execModuleReset_holds (hs _)
  | bootPushGo _ => exact exec_bootPushGo ▸ execBootPushGo_holds (hs _)
  | pushComplete _ => exact exec_pushComplete ▸ execPushComplete_holds (hs _)
  | bootCtlReset _ _ => exact exec_bootCtlReset ▸ execBootCtlReset_holds (hs _)
  | bootCertSelect _ _ => exact exec_bootCertSelect ▸ execBootCertSelect_holds (hs _)
  | fuseBlow => exact exec_fuseBlow ▸ execFuseBlow_holds (hs _)
  | extest _ => exact exec_extest ▸ execExtest_holds (hs _)
  | samplePreload _ => exact exec_samplePreload ▸ execSamplePreload_holds (hs _)
  | idcode => exact exec_idcode ▸ execIdcode_holds (hs _)
  | clamp => exact exec_clamp ▸ execClamp_holds (hs _)
  | highz => exact exec_highz ▸ execHighz_holds (hs _)
  | bypass => exact exec_bypass ▸ execBypass_holds (hs _)
  | fieldSupplyReturn => exact exec_fieldSupplyReturn ▸ execFieldSupplyReturn_holds (hs _)
  | holdUpEnd => exact exec_holdUpEnd ▸ execHoldUpEnd_holds (hs _)
  | crystalAmplitudeLoss _ => exact exec_crystalAmplitudeLoss ▸ execCrystalAmplitudeLoss_holds (hs _)
  | recoveredClockReady _ _ => exact exec_recoveredClockReady ▸ execRecoveredClockReady_holds (hs _)
  | larderFillDone _ => exact exec_larderFillDone ▸ execLarderFillDone_holds (hs _)

/-- Settles O6: the closure lemma of each command, taken with the frame of the parts listed for it. -/
theorem commandsTouchTheirPartsOnly : Obligations.CommandsTouchTheirPartsOnly :=
  fun i s t h => exec_changesOnly i s t h

end Sys2Proof.Machine
end

section
/-! SUPPORT. Register rules: which registers of BAR0 an operation can change, and what its fields then read. Laws/Closure.lean speaks
of the registers as a whole; these rules name the offsets. -/

namespace Sys2Proof.Machine

variable {s t : State} {offs : List Nat}

/-! ### Registers within a list of offsets -/

/-- The registers of `t` are canonical, and those of BAR0 differ from the registers of `s` at the offsets listed alone. -/
def State.regsWithin (s : State) (offs : List Nat) (t : State) : Prop :=
  sparseWf regDefault t.regs = true ∧ s.keepsRegs offs t

theorem State.regsWithin_refl (h : sparseWf regDefault s.regs = true) : s.regsWithin offs s := ⟨h, fun _ _ _ => rfl⟩

/-- The words beside the registers (R8, R89) stand above BAR0, so any of them may change. -/
theorem State.regsWithin.setReg (h : s.regsWithin offs t) {off : Nat} (ho : off ∈ offs ∨ 0x400000 ≤ off) (v : BitVec 32) :
    s.regsWithin offs (t.setReg off v) := by
  obtain ⟨hw, hk⟩ := h
  refine ⟨State.setReg_wf hw off v, fun o hlt hn => ?_⟩
  have hne : o ≠ off := by
    rintro rfl
    exact ho.elim hn (by omega)
  rw [State.reg_setReg hw, if_neg hne, hk o hlt hn]

theorem State.regsWithin.put (h : s.regsWithin offs t) {f : Fld} (hf : f.off ∈ offs) (v : Nat) : s.regsWithin offs (t.put f v) :=
  h.setReg (.inl hf) _

theorem State.regsWithin.raise (h : s.regsWithin offs t) {f : Fld} (hf : f.off ∈ offs) : s.regsWithin offs (t.raise f) := h.put hf _

theorem State.regsWithin.drop (h : s.regsWithin offs t) {f : Fld} (hf : f.off ∈ offs) : s.regsWithin offs (t.drop f) := h.put hf _

theorem State.regsWithin.bump (h : s.regsWithin offs t) {f : Fld} (hf : f.off ∈ offs) : s.regsWithin offs (t.bump f) := h.put hf _

theorem State.regsWithin.latchBits (h : s.regsWithin offs t) {f : Fld} (hf : f.off ∈ offs) (v : Nat) :
    s.regsWithin offs (t.latchBits f v) :=
  (h.put hf _).setReg (.inr (Nat.le_add_left ..)) _

theorem State.regsWithin.latch (h : s.regsWithin offs t) {f : Fld} (hf : f.off ∈ offs) : s.regsWithin offs (t.latch f) :=
  h.latchBits hf 1

/-- A change of other parts of State. -/
theorem State.regsWithin.of_regs (h : s.regsWithin offs t) {u : State} (e : u.regs = t.regs) : s.regsWithin offs u := by
  unfold State.regsWithin State.keepsRegs State.reg at *
  rwa [e]

theorem State.regsWithin.ite {c : Prop} [Decidable c] {u : State} (ht : s.regsWithin offs t) (hu : s.regsWithin offs u) :
    s.regsWithin offs (if c then t else u) := by
  split <;> assumption

theorem State.regsWithin.foldl {β : Type} {f : State → β → State} {l : List β} (h : s.regsWithin offs t)
    (hf : ∀ u, ∀ x ∈ l, s.regsWithin offs u → s.regsWithin offs (f u x)) : s.regsWithin offs (l.foldl f t) := by
  induction l generalizing t with
  | nil => exact h
  | cons x l ih => exact ih (hf _ x (.head _) h) fun u y hy => hf u y (.tail _ hy)

theorem State.regsWithin.get (h : s.regsWithin offs t) {f : Fld} (hl : f.off < 0x400000) (hn : f.off ∉ offs) : t.get f = s.get f := by
  unfold State.get
  rw [h.2 f.off hl hn]

theorem State.regsWithin.flag (h : s.regsWithin offs t) {f : Fld} (hl : f.off < 0x400000) (hn : f.off ∉ offs) : t.flag f = s.flag f := by
  unfold State.flag
  rw [h.get hl hn]

/-- An operation that is known to change the registers at most. -/
theorem State.changesOnly_regs (h : ∀ {G : State → Prop} [ClosedRegs G], Holds G s → Holds G t) : s.changesOnly [.regs] t := by
  intro c hc
  have := closedRegs_of_ne (s := s) (c := c) (by simpa using hc)
  exact h Holds.same_refl

/-! ### Counters -/

theorem satNat_eq_min (w n : Nat) : satNat w n = min (2 ^ w - 1) n := by
  have := Nat.two_pow_pos w
  unfold satNat
  split <;> omega

/-- A counter that is bumped counts one event, and holds at all ones. -/
theorem State.counts_bump (h : sparseWf regDefault s.regs = true) {f : Fld} (hf : f.ok) : s.counts f 1 (s.bump f) := by
  have := Nat.two_pow_pos (f.hi - f.lo + 1)
  unfold State.counts State.bump State.bumpBy
  rw [State.get_put_same h hf, satNat_eq_min, Nat.mod_eq_of_lt (by omega)]

/-! ### Access errors (R5, R20) -/

/-- The first offset is noted where nothing is counted yet. -/
def State.noteAccess (s : State) (off : Nat) : State :=
  if s.get R.GLB_ACCESS_ERR.COUNT = 0 then s.put R.GLB_ACCESS_ADDR.OFFSET off else s

theorem State.accessErr_eq (off : Nat) : s.accessErr off = (s.noteAccess off).bump R.GLB_ACCESS_ERR.COUNT := rfl

theorem State.noteAccess_regsWithin (h : sparseWf regDefault s.regs = true) (off : Nat) :
    s.regsWithin [R.GLB_ACCESS_ADDR] (s.noteAccess off) :=
  ((State.regsWithin_refl h).put (.head _) _).ite (State.regsWithin_refl h)

theorem State.accessErr_regsWithin (h : sparseWf regDefault s.regs = true) (off : Nat) :
    s.regsWithin [R.GLB_ACCESS_ERR, R.GLB_ACCESS_ADDR] (s.accessErr off) :=
  (((State.regsWithin_refl h).put (.tail _ (.head _)) _).ite (State.regsWithin_refl h)).bump (.head _)

theorem State.accessErr_changesOnly (off : Nat) : s.changesOnly [.regs] (s.accessErr off) :=
  State.changesOnly_regs State.accessErr_holds

theorem State.counts_accessErr (h : sparseWf regDefault s.regs = true) (off : Nat) :
    s.counts R.GLB_ACCESS_ERR.COUNT 1 (s.accessErr off) := by
  have hn := State.noteAccess_regsWithin h off
  have hc := State.counts_bump hn.1 (f := R.GLB_ACCESS_ERR.COUNT) ⟨by decide, by decide⟩
  unfold State.counts at *
  rwa [hn.get (by decide) (by decide)] at hc

/-- GLB_ACCESS_ADDR keeps the offset of the first discarded write. -/
theorem State.accessErr_offset (h : sparseWf regDefault s.regs = true) {off : Nat} (ho : off < 2 ^ 22) :
    (s.accessErr off).get R.GLB_ACCESS_ADDR.OFFSET
      = if s.get R.GLB_ACCESS_ERR.COUNT = 0 then off else s.get R.GLB_ACCESS_ADDR.OFFSET := by
  have hn := State.noteAccess_regsWithin h off
  rw [State.accessErr_eq, State.bump, State.bumpBy, State.get_put_apart hn.1 ⟨by decide, by decide⟩ (.inl (by decide)), State.noteAccess]
  split
  · exact (State.get_put_same h ⟨by decide, by decide⟩ off).trans (Nat.mod_eq_of_lt ho)
  · rfl

end Sys2Proof.Machine
end

section
/-! PROOFS, register access: writes that are discarded (O7), and writes of class I and W1C bits (O9). -/

namespace Sys2Proof.Machine

variable {s : State}

/-! ### Which registers answer (R5, R477) -/

/-- Until READY is 1 the blocks other than GLB and BOOT are not in use. -/
theorem State.inUse_of_not_ready (hr : s.flag R.GLB_STATUS.READY = false) {off : Nat}
    (ho : ¬ (off < 0x10000 ∨ (0x30000 ≤ off ∧ off < 0x40000))) : s.inUse off = false := by
  unfold State.inUse
  simp only [hr, Bool.false_or, Bool.or_eq_false_iff, Bool.and_eq_false_iff, decide_eq_false_iff_not]
  omega

/-- No register is defined in a block that is not in use. -/
theorem State.regAt_of_unused {off : Nat} (h : s.inUse off = false) : s.regAt off = none := by
  unfold State.regAt
  split
  · rfl
  · simp [h]

/-- A register that answers has a row in the map. -/
theorem State.lookup_of_regAt {off : Nat} {r : RegRow} (h : s.regAt off = some r) : ∃ i, RegMap.lookup off = some (r, i) := by
  unfold State.regAt at h
  split at h
  · exact absurd h (by simp)
  · rename_i r' i e
    split at h
    · exact absurd h (by simp)
    · split at h
      · exact absurd h (by simp)
      · cases h
        exact ⟨i, e⟩

/-! ### Writes that are discarded (R4, R5) -/

theorem State.barWrite_of_none (ha : s.answers = true) {off : Nat} (h : s.regAt off = none) (via : Option Nat) (v : Nat) :
    s.barWrite via off v = s.accessErr off := by
  simp [State.barWrite, ha, h]

theorem State.barWrite_of_some (ha : s.answers = true) {off : Nat} {r : RegRow} (h : s.regAt off = some r) (via : Option Nat)
    (v : Nat) : s.barWrite via off v = s.regWrite via off r v := by
  simp [State.barWrite, ha, h]

/-- A row that is the write of one register, in a block that is not in use. -/
theorem State.written_of_unused (ha : s.answers = true) {off : Nat} (h : s.inUse off = false) (f : State → State) :
    s.written off f = s.accessErr off := by
  simp [State.written, ha, h]

/-- A full aligned write. -/
theorem exec_registerWrite_full {off : BitVec 22} {len : Fin 5} {v : BitVec 32} (hl : len.val = 4) (ho : off.toNat % 4 = 0) :
    exec (.registerWrite off len v) s = .next (s.barWrite none off.toNat v.toNat) := by
  simp [exec_registerWrite, execRegisterWrite, hl, ho]

/-- A narrow or unaligned write, or one where no register is defined. -/
theorem exec_registerWrite_discarded (ha : s.answers = true) {off : BitVec 22} {len : Fin 5} {v : BitVec 32}
    (h : len.val < 4 ∨ off.toNat % 4 ≠ 0 ∨ s.regAt off.toNat = none) :
    exec (.registerWrite off len v) s = .next (s.accessErr off.toNat) := by
  by_cases hp : len.val < 4 ∨ off.toNat % 4 ≠ 0
  · simp only [exec_registerWrite, execRegisterWrite, Bool.or_eq_true, decide_eq_true_eq, bne_iff_ne, hp, ha, if_true]
  · have hn : s.regAt off.toNat = none := by tauto
    rw [exec_registerWrite_full (by omega) (by omega), State.barWrite_of_none ha hn]

/-- A row that is the write of one register is counted where the block of that register is not in use. -/
theorem exec_writtenRow (ha : s.answers = true) {i : Instr} {o : Nat} (h : writtenRow i = some o) (hu : s.inUse o = false) :
    exec i s = .next (s.accessErr o) := by
  have hw (f : State → State) : Host.Outcome.next (s.written o f) = (.next (s.accessErr o) : Host.Outcome State Fault Refusal) :=
    congrArg _ (State.written_of_unused ha hu f)
  have hb (v : Nat) : Host.Outcome.next (s.barWrite none o v) = (.next (s.accessErr o) : Host.Outcome State Fault Refusal) :=
    congrArg _ (State.barWrite_of_none ha (State.regAt_of_unused hu) none v)
  cases i with cases h
  | clkSwitchRequest rec port => exact hw _
  | posSnapTake => exact hw _
  | psqTblRead index => exact hw _
  | partWinRead index => exact hw _
  | eyeScanStart lane phase voff dwell => exact hw _
  | eyeScanAbort lane => exact hw _
  | faultRelease e => exact hw _
  | celRetRead index => exact hw _
  | soSelect index => exact hb _
  | soRestage word => exact hb _
  | ringEnable ring via fields => exact hw _
  | ringDisable ring via fields => exact hw _
  | doorbell ring value => exact hw _
  | sdgProofArm lane mode => exact hw _
  | alarmClear => exact hw _
  | lsCauseClear mask => exact hw _
  | fldStop => exact hw _
  | fldResume => exact hw _
  | fldOutSetWrite level => exact hw _
  | ntmSnapTake => exact hw _
  | loftCurWrite record => exact hw _
  | loftClearOne record => exact hw _
  | loftClearAll => exact hw _
  | loftClearDrop => exact hw _

/-- Such a register stands outside GLB and BOOT. -/
theorem writtenRow_outside {i : Instr} {o : Nat} (h : writtenRow i = some o) :
    ¬ (o < 0x10000 ∨ (0x30000 ≤ o ∧ o < 0x40000)) := by
  cases i with cases h
  | clkSwitchRequest rec port => decide
  | posSnapTake => decide
  | psqTblRead index => decide
  | partWinRead index => decide
  | eyeScanStart lane phase voff dwell => unfold R.LANE_L_EYE_CTL; omega
  | eyeScanAbort lane => unfold R.LANE_L_EYE_CTL; omega
  | faultRelease e => unfold R.FLK_ENG_FAULT; omega
  | celRetRead index => decide
  | soSelect index => decide
  | soRestage word => decide
  | ringEnable ring via fields => unfold R.RING_CFG; omega
  | ringDisable ring via fields => unfold R.RING_CFG; omega
  | doorbell ring value => unfold R.DBELL; omega
  | sdgProofArm lane mode => decide
  | alarmClear => decide
  | lsCauseClear mask => decide
  | fldStop => decide
  | fldResume => decide
  | fldOutSetWrite level => decide
  | ntmSnapTake => decide
  | loftCurWrite record => decide
  | loftClearOne record => decide
  | loftClearAll => decide
  | loftClearDrop => decide

/-- Settles O7: a discarded write is an access error, whose effect the register rules give. -/
theorem discardedWritesAreCounted : Obligations.DiscardedWritesAreCounted := by
  intro s off len v hc ha
  obtain ⟨hregs, -⟩ := hc
  refine ⟨fun h => ?_, fun _ hn => ?_, fun hr => ⟨fun ho => ?_, fun i o h => ?_⟩⟩
  · exact ⟨_, exec_registerWrite_discarded ha h, State.accessErr_changesOnly _, (State.accessErr_regsWithin hregs _).2,
      State.counts_accessErr hregs _, State.accessErr_offset hregs off.isLt⟩
  · simp [State.readReg, ha, hn]
  · exact State.regAt_of_unused (State.inUse_of_not_ready hr ho)
  · exact exec_writtenRow ha h (State.inUse_of_not_ready hr (writtenRow_outside h))

/-! ### Writes of class I and W1C bits (R7, R8) -/

/-- A write at a plain offset to a register outside the pairs acts by the classes of its fields alone. -/
theorem State.regWrite_of_plain {via : Option Nat} {off v : Nat} {r : RegRow} (hp : plainOffset off = true)
    (h0 : r.maskOf .paired = 0) : s.regWrite via off r v = s.plainWrite off r v := by
  simp only [plainOffset, Bool.and_eq_true, Option.isNone_iff_eq_none, Bool.not_eq_true', List.contains_eq_mem,
    decide_eq_false_iff_not, Bool.and_eq_false_iff] at hp
  obtain ⟨⟨⟨⟨⟨⟨hc, -⟩, hr⟩, hl⟩, he⟩, hf⟩, hq⟩ := hp
  have hring : ¬ (0x100000 ≤ off ∧ off < 0x140000) := by omega
  have hdbell : ¬ (0x180000 ≤ off ∧ off < 0x200000) := by omega
  simp only [List.mem_cons, not_or] at hl
  obtain ⟨h1, h2, h3, h4, h5, h6, h7, h8, h9, h10, h11, h12, h13, h14, h15, h16, h17, h18, h19, h20, h21, -⟩ := hl
  have hbase : s.baseWrite off r v = s.plainWrite off r v := by
    simp only [State.baseWrite, h1, h2, h3, h4, h5, h6, if_false]
  have hweb : s.webWrite off r v = s.plainWrite off r v := by
    simp only [State.webWrite, h7, h8, h9, h10, he, if_false]
  have hfield : s.fieldWrite off r v = s.plainWrite off r v := by
    simp only [State.fieldWrite, h18, h19, h20, h21, hq, if_false]
  have hunit : s.unitWrite off r v = s.plainWrite off r v := by
    simp only [State.unitWrite, h11, h12, h13, h14, h15, h16, h17, hf, decide_false, Bool.or_self, Bool.false_eq_true, if_false]
  simp only [State.regWrite, hc, h0, ne_eq, not_true_eq_false, hbase, hweb, hfield, hunit, if_false, Bool.and_eq_true,
    decide_eq_true_eq, hring, hdbell, ite_self]

/-- A register with no class S field takes the word as written at once. -/
theorem State.plainWrite_unstaged {off v : Nat} {r : RegRow} (hs : r.maskOf .staged = 0)
    (hi : r.maskOf .immediate + r.maskOf .oneClears ≠ 0) : s.plainWrite off r v
      = s.setReg off (BitVec.ofNat 32 (writtenWord r (s.reg off).toNat v (s.reg (off + 0x400000)).toNat)) := by
  have : r.maskOf .oneClears + r.maskOf .immediate ≠ 0 := by omega
  simp only [State.plainWrite, hs, this, if_true, if_false]

/-- Numbers that share no bit add without a carry. -/
theorem add_eq_lor_of_land_eq_zero {a b : Nat} (h : a &&& b = 0) : a + b = a ||| b := by
  have hlt {n : Nat} (hn : n ≤ a + b) : n < 2 ^ (a + b) := hn.trans_lt Nat.lt_two_pow_self
  have h0 : BitVec.ofNat (a + b) a &&& BitVec.ofNat (a + b) b = 0#(a + b) := by
    rw [← BitVec.ofNat_and, h]
  have e := congrArg BitVec.toNat (BitVec.add_eq_or_of_and_eq_zero _ _ h0)
  rwa [← BitVec.ofNat_or, ← BitVec.ofNat_add, BitVec.toNat_ofNat, BitVec.toNat_ofNat, Nat.mod_eq_of_lt (hlt le_rfl),
    Nat.mod_eq_of_lt (Nat.or_lt_two_pow (hlt (by omega)) (hlt (by omega)))] at e

theorem land_eq_and (a b : Nat) : Nat.land a b = a &&& b := rfl

/-- Taking off the bits shared with a mask leaves the bits outside it. -/
theorem sub_and_eq_ldiff (a b : Nat) : a - (a &&& b) = Nat.ldiff a b := by
  have hd : a &&& b &&& Nat.ldiff a b = 0 := Nat.eq_of_testBit_eq fun k => by
    simp only [Nat.testBit_land, Nat.testBit_ldiff, Nat.zero_testBit]
    cases b.testBit k <;> simp
  have e : (a &&& b) + Nat.ldiff a b = a :=
    (add_eq_lor_of_land_eq_zero hd).trans (Nat.eq_of_testBit_eq fun k => by
      simp only [Nat.testBit_lor, Nat.testBit_land, Nat.testBit_ldiff]
      cases b.testBit k <;> simp)
  omega

/-- A word as written, by the operations on its bits. -/
theorem writtenWord_eq (r : RegRow) (w v now : Nat) : writtenWord r w v now =
    Nat.ldiff (Nat.ldiff w (Nat.ldiff (v &&& r.maskOf .oneClears) now)) (r.maskOf .immediate) ||| (v &&& r.maskOf .immediate) := by
  simp only [writtenWord, land_eq_and, sub_and_eq_ldiff]
  refine add_eq_lor_of_land_eq_zero (Nat.eq_of_testBit_eq fun k => ?_)
  simp only [Nat.testBit_land, Nat.testBit_ldiff, Nat.zero_testBit]
  cases (r.maskOf .immediate).testBit k <;> simp

/-- A word as written, bit by bit. -/
theorem testBit_writtenWord (r : RegRow) (w v now b : Nat) : (writtenWord r w v now).testBit b =
    if (r.maskOf .immediate).testBit b then v.testBit b
    else if (r.maskOf .oneClears).testBit b then w.testBit b && (!v.testBit b || now.testBit b)
    else w.testBit b := by
  simp only [writtenWord_eq, Nat.testBit_lor, Nat.testBit_land, Nat.testBit_ldiff]
  cases (r.maskOf .immediate).testBit b <;> cases (r.maskOf .oneClears).testBit b <;> simp

/-- What a write of `v` leaves of a register, bit by bit: the effect that O9 states. -/
theorem State.getLsbD_writtenWord (r : RegRow) (off : Nat) (v : BitVec 32) {b : Nat} (hb : b < 32) :
    (BitVec.ofNat 32 (writtenWord r (s.reg off).toNat v.toNat (s.reg (off + 0x400000)).toNat)).getLsbD b =
      if (r.maskOf .immediate).testBit b then v.getLsbD b
      else if (r.maskOf .oneClears).testBit b then
        (s.reg off).getLsbD b && (!v.getLsbD b || (s.reg (off + 0x400000)).getLsbD b)
      else (s.reg off).getLsbD b := by
  simp only [BitVec.getLsbD_ofNat, hb, decide_true, Bool.true_and, testBit_writtenWord, BitVec.testBit_toNat]

/-- Settles O9: both commands put the word as written into the register, and its bits are those of `testBit_writtenWord`. -/
theorem immediateAndW1cBits : Obligations.ImmediateAndW1cBits := by
  intro s off len v r hc hl ho ha hr hp hs h0 hi effect
  obtain ⟨hregs, -⟩ := hc
  have hbar : s.barWrite none off.toNat v.toNat = _ :=
    (State.barWrite_of_some ha hr none v.toNat).trans ((State.regWrite_of_plain hp h0).trans (State.plainWrite_unstaged hs hi))
  have completes {i : Instr} (h : exec i s = .next (s.barWrite none off.toNat v.toNat)) :
      s.completes i [.regs] [off.toNat] effect := by
    refine ⟨_, h.trans (congrArg _ hbar), State.changesOnly_regs State.setReg_holds,
      ((State.regsWithin_refl hregs).setReg (.inl (.head _)) _).2, fun b hb => ?_⟩
    rw [State.reg_setReg hregs, if_pos rfl, State.getLsbD_writtenWord r _ v hb]
  refine ⟨completes (exec_registerWrite_full hl ho), fun hw => completes ?_⟩
  obtain ⟨i, e⟩ := State.lookup_of_regAt hr
  simp [exec_w1cClear, execW1cClear, e, hw]

end Sys2Proof.Machine
end

section
/-! SUPPORT. Line stop (R423): the registers, the causes and the downlink after a change of the causes. -/

namespace Sys2Proof.Machine

variable {s t : State} {offs : List Nat}

/-! ### Bits of numbers -/

theorem bit_eq_testBit (n k : Nat) : bit n k = n.testBit k := by
  rw [Nat.testBit_eq_decide_div_mod_eq, bit, Bool.beq_eq_decide_eq]

/-- A bit that is 0, set by adding its value. -/
theorem add_two_pow_eq_lor {n k : Nat} (h : n.testBit k = false) : n + 2 ^ k = n ||| 2 ^ k := by
  refine add_eq_lor_of_land_eq_zero (Nat.eq_of_testBit_eq fun j => ?_)
  rw [Nat.testBit_land, Nat.zero_testBit, Nat.testBit_two_pow]
  by_cases hj : k = j
  · subst hj; simp [h]
  · simp [hj]

theorem land_two_pow_of_testBit {n k : Nat} (h : n.testBit k = true) : n &&& 2 ^ k = 2 ^ k :=
  Nat.eq_of_testBit_eq fun j => by
    rw [Nat.testBit_land, Nat.testBit_two_pow]
    by_cases hj : k = j
    · subst hj; simp [h]
    · simp [hj]

theorem lor_land_self (n m : Nat) : n ||| (n &&& m) = n := Nat.eq_of_testBit_eq fun j => by
  rw [Nat.testBit_lor, Nat.testBit_land]
  cases n.testBit j <;> rfl

theorem lor_two_pow_of_testBit {n k : Nat} (h : n.testBit k = true) : n ||| 2 ^ k = n := by
  rw [← land_two_pow_of_testBit h, lor_land_self]

/-- A bit that is 1, cleared by taking off its value. -/
theorem sub_two_pow_eq_ldiff {n k : Nat} (h : n.testBit k = true) : n - 2 ^ k = Nat.ldiff n (2 ^ k) := by
  rw [← sub_and_eq_ldiff, land_two_pow_of_testBit h]

theorem State.get_lt (s : State) (f : Fld) : s.get f < 2 ^ (f.hi - f.lo + 1) := Nat.mod_lt _ (Nat.two_pow_pos _)

/-! ### Registers -/

theorem State.regsWithin.loftEvent (h : s.regsWithin offs t) (hc : R.LOFT_CNT_DROP ∈ offs) (hd : R.LOFT_STATUS ∈ offs)
    (code : Nat) (data : List Byte) : s.regsWithin offs (t.loftEvent code data) := by
  unfold State.loftEvent State.loftPush
  split
  · exact h.of_regs rfl
  · exact ((h.of_regs (u := { t with loft := { t.loft with dropped := true } }) rfl).bump hc).latch hd

/-! ### A change of the causes, in its three steps -/

/-- The causes as they become; those that are new withstand a clear of this tick (R8). -/
def State.putCauses (s : State) (new : Nat) : State :=
  (s.put R.FLD_LS_CAUSE.CAUSE new).latchBits R.FLD_LS_CAUSE.CAUSE (Nat.land new (2047 - s.get R.FLD_LS_CAUSE.CAUSE))

/-- LS_SET where line stop begins or ends. -/
def State.tellRun (s : State) (old new : Nat) : State :=
  if old = 0 then s.sendDown (.lsSet false) else if new = 0 then s.sendDown (.lsSet true) else s

theorem State.setCauses_same {new : Nat} (h : s.get R.FLD_LS_CAUSE.CAUSE = new) : s.setCauses new = s := if_pos h

theorem State.setCauses_change {new : Nat} (h : s.get R.FLD_LS_CAUSE.CAUSE ≠ new) :
    s.setCauses new = ((s.putCauses new).tellRun (s.get R.FLD_LS_CAUSE.CAUSE) new).loftEvent 0x000D
      (leBytes 4 (s.get R.FLD_LS_CAUSE.CAUSE) ++ leBytes 4 new ++ List.replicate 208 0) := if_neg h

theorem State.tellRun_regs (old new : Nat) : (s.tellRun old new).regs = s.regs := by
  unfold State.tellRun
  split
  · exact State.sendDown_regs ..
  · split
    · exact State.sendDown_regs ..
    · rfl

theorem State.regsWithin.setCauses (h : s.regsWithin offs t) (ho : lineStopOffsets ⊆ offs) (new : Nat) :
    s.regsWithin offs (t.setCauses new) := by
  obtain ⟨hcause, hcnt, hst⟩ : R.FLD_LS_CAUSE ∈ offs ∧ R.LOFT_CNT_DROP ∈ offs ∧ R.LOFT_STATUS ∈ offs := by
    simpa [lineStopOffsets] using ho
  by_cases he : t.get R.FLD_LS_CAUSE.CAUSE = new
  · rwa [State.setCauses_same he]
  · rw [State.setCauses_change he]
    have hb : s.regsWithin offs (t.putCauses new) := (h.put hcause _).latchBits hcause _
    exact (hb.of_regs (State.tellRun_regs _ _)).loftEvent hcnt hst _ _

theorem State.regsWithin.lineStop (h : s.regsWithin offs t) (ho : lineStopOffsets ⊆ offs) (c : Cause) :
    s.regsWithin offs (t.lineStop c) :=
  (h.setCauses ho _).latchBits (ho (.head _)) _

/-! ### The causes -/

theorem State.get_latchBits (h : sparseWf regDefault s.regs = true) {f : Fld} (hf : f.ok) (v : Nat) :
    (s.latchBits f v).get f = (s.get f ||| v) % 2 ^ (f.hi - f.lo + 1) := by
  have hap : f.onTick.apart f := .inl (by simp [Fld.onTick])
  have hok : f.onTick.ok := hf
  unfold State.latchBits
  rw [State.get_put_apart (State.put_wf h _ _) hok hap, State.get_put_same h hf]
  rfl

theorem State.get_loftEvent (h : sparseWf regDefault s.regs = true) {f : Fld} (hl : f.off < 0x400000)
    (hn : f.off ∉ [R.LOFT_CNT_DROP, R.LOFT_STATUS]) (code : Nat) (data : List Byte) : (s.loftEvent code data).get f = s.get f :=
  ((State.regsWithin_refl h).loftEvent (offs := [R.LOFT_CNT_DROP, R.LOFT_STATUS]) (.head _) (.tail _ (.head _)) code data).get hl hn

theorem State.get_of_regs (e : t.regs = s.regs) (f : Fld) : t.get f = s.get f := by
  unfold State.get State.reg
  rw [e]

/-- The causes are those that were put. -/
theorem State.setCauses_get (h : sparseWf regDefault s.regs = true) {new : Nat} (hn : new < 2 ^ 11) :
    (s.setCauses new).get R.FLD_LS_CAUSE.CAUSE = new := by
  by_cases he : s.get R.FLD_LS_CAUSE.CAUSE = new
  · rw [State.setCauses_same he, he]
  · have hp := State.put_wf h R.FLD_LS_CAUSE.CAUSE new
    have hw : sparseWf regDefault (s.putCauses new).regs = true := State.put_wf (State.put_wf hp _ _) _ _
    rw [State.setCauses_change he, State.get_loftEvent (by rwa [State.tellRun_regs]) (by decide) (by decide),
      State.get_of_regs (State.tellRun_regs _ _), State.putCauses, State.get_latchBits hp ⟨by decide, by decide⟩,
      State.get_put_same h ⟨by decide, by decide⟩, land_eq_and]
    change (new % 2 ^ 11 ||| (new &&& _)) % 2 ^ 11 = new
    rw [Nat.mod_eq_of_lt hn, lor_land_self, Nat.mod_eq_of_lt hn]

/-- A request of line stop sets the bit of its cause. -/
theorem State.lineStop_get (h : sparseWf regDefault s.regs = true) (c : Cause) :
    (s.lineStop c).get R.FLD_LS_CAUSE.CAUSE = s.get R.FLD_LS_CAUSE.CAUSE ||| 2 ^ c.bitNo := by
  have hold : s.get R.FLD_LS_CAUSE.CAUSE < 2 ^ 11 := s.get_lt _
  have hbit : 2 ^ c.bitNo < 2 ^ 11 := Nat.pow_lt_pow_right (by omega) (by cases c <;> decide)
  have hor : s.get R.FLD_LS_CAUSE.CAUSE ||| 2 ^ c.bitNo < 2 ^ 11 := Nat.or_lt_two_pow hold hbit
  have hnew : (if bit (s.get R.FLD_LS_CAUSE.CAUSE) c.bitNo then s.get R.FLD_LS_CAUSE.CAUSE
      else s.get R.FLD_LS_CAUSE.CAUSE + 2 ^ c.bitNo) = s.get R.FLD_LS_CAUSE.CAUSE ||| 2 ^ c.bitNo := by
    rw [bit_eq_testBit]
    split
    · next hb => exact (lor_two_pow_of_testBit hb).symm
    · next hb => exact add_two_pow_eq_lor (by simpa using hb)
  have hw := ((State.regsWithin_refl h).setCauses (List.Subset.refl _) (s.get R.FLD_LS_CAUSE.CAUSE ||| 2 ^ c.bitNo)).1
  unfold State.lineStop
  simp only [hnew]
  rw [State.get_latchBits hw ⟨by decide, by decide⟩, State.setCauses_get h hor, Nat.or_assoc, Nat.or_self]
  exact Nat.mod_eq_of_lt hor

/-! ### The downlink -/

theorem State.sendDown_down_subset (s : State) (m : DownMsg) : s.link.down ⊆ (s.sendDown m).link.down := by
  unfold State.sendDown
  dsimp only
  split
  · exact List.Subset.refl _
  · exact List.subset_append_left _ _

theorem State.loftEvent_link (code : Nat) (data : List Byte) : (s.loftEvent code data).link = s.link := by
  unfold State.loftEvent State.loftPush
  split <;> rfl

/-- No change of the causes takes a frame off the downlink. -/
theorem State.setCauses_down_subset (new : Nat) : s.link.down ⊆ (s.setCauses new).link.down := by
  by_cases he : s.get R.FLD_LS_CAUSE.CAUSE = new
  · rw [State.setCauses_same he]
    exact List.Subset.refl _
  · rw [State.setCauses_change he, State.loftEvent_link, State.tellRun]
    split
    · exact State.sendDown_down_subset (s.putCauses new) _
    · split
      · exact State.sendDown_down_subset (s.putCauses new) _
      · exact List.Subset.refl _

theorem State.lineStop_down_subset (c : Cause) : s.link.down ⊆ (s.lineStop c).link.down := State.setCauses_down_subset _

/-- The instruction of the test access port and the module's mode decide who has the pins (R503, R504). -/
theorem State.pinsTaken_congr (hb : t.boot.tap = s.boot.tap) (hr : t.flag R.GLB_STATUS.READY = s.flag R.GLB_STATUS.READY)
    (hv : t.flag R.GLB_STATUS.RECOVERY = s.flag R.GLB_STATUS.RECOVERY) : t.pinsTaken = s.pinsTaken := by
  unfold State.pinsTaken State.tapActs State.tapBypassed
  rw [hb, hr, hv]

/-- A frame that is sent stands on the downlink, where the module has its pins. -/
theorem State.mem_sendDown (h : s.pinsTaken = false) (m : DownMsg) : ⟨s.link.downSeq, m⟩ ∈ (s.sendDown m).link.down := by
  simp [State.sendDown, h]

/-- LS_SET with RUN 0 goes down as the first cause is set. -/
theorem State.setCauses_stops (h : sparseWf regDefault s.regs = true) (h0 : s.get R.FLD_LS_CAUSE.CAUSE = 0) {new : Nat}
    (hn : new ≠ 0) (hp : s.pinsTaken = false) : ∃ q, ⟨q, .lsSet false⟩ ∈ (s.setCauses new).link.down := by
  have hw : s.regsWithin [R.FLD_LS_CAUSE] (s.putCauses new) :=
    ((State.regsWithin_refl h).put (.head _) _).latchBits (.head _) _
  have hpins : (s.putCauses new).pinsTaken = s.pinsTaken :=
    State.pinsTaken_congr rfl (hw.flag (by decide) (by decide)) (hw.flag (by decide) (by decide))
  rw [State.setCauses_change (by rw [h0]; exact hn.symm), State.loftEvent_link, State.tellRun, if_pos h0]
  exact ⟨_, State.mem_sendDown (hpins.trans hp) _⟩

end Sys2Proof.Machine
end

section
/-! PROOFS, boot: what a reset leaves. -/

namespace Sys2Proof.Machine

variable {s t u : State} {offs : List Nat}

/-! ### What a reset leaves (R482, R491) -/

/-- Writing entries at other keys leaves a key alone. -/
theorem sparseGet_foldl_put {α β : Type} [DecidableEq α] {d : Nat → α} {key : β → Nat} {val : β → α} {k : Nat} :
    ∀ {es : List β} {l : List (Nat × α)}, sparseWf d l = true → (∀ e ∈ es, key e ≠ k) →
      sparseGet d (es.foldl (fun l e => sparsePut d l (key e) (val e)) l) k = sparseGet d l k
  | [], _, _, _ => rfl
  | e :: es, l, h, hk => by
    rw [List.foldl_cons, sparseGet_foldl_put (sparsePut_wf h) fun e' he => hk e' (.tail _ he), sparseGet_put h,
      if_neg (hk e (.head _)).symm]

/-- No register that the identity of the module sets is GLB_STATUS. -/
theorem Module.regs_status (m : Module) (retired : List RetEntry) :
    sparseGet regDefault (m.regs retired) R.GLB_STATUS = regDefault R.GLB_STATUS := by
  refine sparseGet_foldl_put rfl fun e he => ?_
  simp only [List.mem_append, List.mem_map, List.mem_range, List.mem_cons, List.not_mem_nil, or_false] at he
  unfold R.GLB_STATUS
  rcases he with (((h | ⟨n, -, rfl⟩) | ⟨n, -, rfl⟩) | ⟨n, -, rfl⟩) | ⟨n, -, rfl⟩
  · rcases h with rfl | rfl | rfl | rfl | rfl | rfl <;> exact of_decide_eq_true rfl
  · exact Nat.ne_of_gt (by unfold R.CORE_STATUS; omega)
  · exact Nat.ne_of_gt (by unfold R.CORE_REPAIR; omega)
  · exact Nat.ne_of_gt (by unfold R.FLK_ENG_STATUS; omega)
  · exact Nat.ne_of_gt (by unfold R.CEL_SPARE; omega)

/-- What a reset leaves of `s` (R482): the queue, host memory, the module's identity, retirement list and flash; nothing runs. -/
def State.returnsToReset (s t : State) : Prop :=
  t.pending = s.pending ∧ t.module = s.module ∧ t.host = s.host ∧ t.free = s.free ∧
  t.dtime = 0 ∧ t.mem = [] ∧ t.cel.retired = s.cel.retired ∧ t.boot.slot = s.boot.slot ∧ t.boot.cfgA = s.boot.cfgA ∧
  t.boot.cfgB = s.boot.cfgB ∧ t.flag R.GLB_STATUS.READY = false ∧ t.flag R.GLB_STATUS.RECOVERY = false ∧
  t.client.started = [] ∧ t.jobs = [] ∧ t.seq = {} ∧ t.canonical

theorem State.resetFrom_regs (s : State) : s.resetFrom.regs = s.module.regs s.cel.retired := by
  simp only [State.resetFrom, State.resetOf_regs]

theorem State.resetFrom_canonical (hc : s.canonical) : s.resetFrom.canonical := by
  obtain ⟨-, -, -, ho⟩ := hc
  have hr := Module.regs_wf s.module s.cel.retired
  have h0 : Memory.wf [] = true := rfl
  simp only [State.canonical, State.resetFrom, State.resetOf, hr, h0, ho, and_self]

/-- After a reset GLB_STATUS shows its reset value: neither READY nor in recovery. -/
theorem State.resetFrom_status (s : State) : s.resetFrom.reg R.GLB_STATUS = 4 := by
  unfold State.reg
  rw [State.resetFrom_regs, Module.regs_status]
  decide

theorem State.resetFrom_flag (s : State) {f : Fld} (hf : f.off = R.GLB_STATUS) (h : bits 4 f.hi f.lo = 0) :
    s.resetFrom.flag f = false := by
  unfold State.flag State.get
  rw [hf, State.resetFrom_status]
  simpa using h

theorem State.resetFrom_returns (hc : s.canonical) : s.returnsToReset s.resetFrom := by
  refine ⟨?_, ?_, ?_, ?_, ?_, ?_, ?_, ?_, ?_, ?_, s.resetFrom_flag rfl rfl, s.resetFrom_flag rfl rfl, ?_, ?_, ?_,
    State.resetFrom_canonical hc⟩
  all_goals simp only [State.resetFrom, State.resetOf]

/-- The rails, the test access port and the field side are no part of it. -/
theorem State.returnsToReset.with_field_boot (h : s.returnsToReset t) (f : FieldSt) (p : Bool) (x : TapSt) :
    s.returnsToReset { t with field := f, boot := { t.boot with power := p, tap := x } } := h

theorem State.powerOff_returns (hc : s.canonical) : s.returnsToReset s.powerOff :=
  (State.resetFrom_returns hc).with_field_boot _ _ _

end Sys2Proof.Machine
end

section
/-! PROOFS, boot: fuses and certificates (R483, R486). -/

namespace Sys2Proof.Machine

variable {s t u : State}

/-! ### Fuses (R483) -/

/-- The state once fuses are as `m` has them and `rev` names the slots still to revoke; FUSE_BUSY falls with the last fuse. -/
def State.fused (s : State) (m : Module) (rev : Nat) : State :=
  let t := (({ s with module := m, boot := { s.boot with fuseRevoke := rev } }.put R.BOOT_FW.ROLLBACK m.rollback).put
    R.BOOT_FW.REVOKED m.revoked)
  if m.rollback < s.boot.fuseCount || rev ≠ 0 then t else t.drop R.BOOT_STATUS.FUSE_BUSY

theorem exec_fuseBlow_idle (h : s.flag R.GLB_STATUS.READY = false ∨ s.flag R.BOOT_STATUS.FUSE_BUSY = false) :
    exec .fuseBlow s = .next s := by
  rw [exec_fuseBlow, execFuseBlow, if_pos (by simpa using h)]

/-- The anti-rollback count goes first. -/
theorem exec_fuseBlow_count (hr : s.flag R.GLB_STATUS.READY = true) (hb : s.flag R.BOOT_STATUS.FUSE_BUSY = true)
    (hc : s.module.rollback < s.boot.fuseCount) :
    exec .fuseBlow s = .next (s.fused { s.module with rollback := s.module.rollback + 1 } s.boot.fuseRevoke) := by
  simp only [exec_fuseBlow, execFuseBlow, hr, hb, hc, if_true, Bool.not_true, Bool.or_self, Bool.false_eq_true, if_false]
  rfl

/-- Then the lowest slot that is still to revoke. -/
theorem exec_fuseBlow_revoke (hr : s.flag R.GLB_STATUS.READY = true) (hb : s.flag R.BOOT_STATUS.FUSE_BUSY = true)
    (hc : s.boot.fuseCount ≤ s.module.rollback) {k : Nat} (hk : (List.range 4).find? (fun k => bit s.boot.fuseRevoke k) = some k) :
    exec .fuseBlow s = .next (s.fused
      { s.module with revoked := s.module.revoked + (if bit s.module.revoked k then 0 else 2 ^ k) } (s.boot.fuseRevoke - 2 ^ k)) := by
  simp only [exec_fuseBlow, execFuseBlow, hr, hb, Nat.not_lt.2 hc, hk, Bool.not_true, Bool.or_self, Bool.false_eq_true, if_false]
  rfl

theorem State.fused_module (m : Module) (rev : Nat) : (s.fused m rev).module = m := by
  unfold State.fused
  dsimp only
  split <;> rfl

theorem State.fused_boot (m : Module) (rev : Nat) : (s.fused m rev).boot = { s.boot with fuseRevoke := rev } := by
  unfold State.fused
  dsimp only
  split <;> rfl

theorem State.fused_regsWithin (h : sparseWf regDefault s.regs = true) (m : Module) (rev : Nat) :
    s.regsWithin [R.BOOT_FW, R.BOOT_STATUS] (s.fused m rev) := by
  have hs : s.regsWithin [R.BOOT_FW, R.BOOT_STATUS] { s with module := m, boot := { s.boot with fuseRevoke := rev } } :=
    (State.regsWithin_refl h).of_regs rfl
  have hp := (hs.put (f := R.BOOT_FW.ROLLBACK) (.head _) m.rollback).put (f := R.BOOT_FW.REVOKED) (.head _) m.revoked
  exact hp.ite (hp.drop (.tail _ (.head _)))

theorem State.fused_rollback (h : sparseWf regDefault s.regs = true) {m : Module} (hm : m.rollback < 128) (rev : Nat) :
    (s.fused m rev).get R.BOOT_FW.ROLLBACK = m.rollback := by
  have hs : sparseWf regDefault ({ s with module := m, boot := { s.boot with fuseRevoke := rev } } : State).regs = true := h
  have hw := State.put_wf hs R.BOOT_FW.ROLLBACK m.rollback
  have e : (({ s with module := m, boot := { s.boot with fuseRevoke := rev } }.put R.BOOT_FW.ROLLBACK m.rollback).put
      R.BOOT_FW.REVOKED m.revoked).get R.BOOT_FW.ROLLBACK = m.rollback := by
    rw [State.get_put_apart hw ⟨by decide, by decide⟩ (.inr (.inr (by decide))), State.get_put_same hs ⟨by decide, by decide⟩]
    exact Nat.mod_eq_of_lt hm
  unfold State.fused
  dsimp only
  split
  · exact e
  · rw [State.drop, State.get_put_apart (State.put_wf hw _ _) ⟨by decide, by decide⟩ (.inl (by decide)), e]

/-- FUSE_BUSY stays while a fuse is left to blow. -/
theorem State.fused_busy (h : sparseWf regDefault s.regs = true) (hb : s.flag R.BOOT_STATUS.FUSE_BUSY = true) (m : Module) (rev : Nat) :
    (s.fused m rev).flag R.BOOT_STATUS.FUSE_BUSY = true ↔ m.rollback < s.boot.fuseCount ∨ rev ≠ 0 := by
  have hs : s.regsWithin [R.BOOT_FW] { s with module := m, boot := { s.boot with fuseRevoke := rev } } :=
    (State.regsWithin_refl h).of_regs rfl
  have hp := (hs.put (f := R.BOOT_FW.ROLLBACK) (.head _) m.rollback).put (f := R.BOOT_FW.REVOKED) (.head _) m.revoked
  have e := (hp.flag (f := R.BOOT_STATUS.FUSE_BUSY) (by decide) (by decide)).trans hb
  unfold State.fused
  dsimp only
  split
  · next hl => simpa [e] using hl
  · next hl =>
    have hd := State.get_drop hp.1 (f := R.BOOT_STATUS.FUSE_BUSY) ⟨by decide, by decide⟩
    simpa [State.flag, hd] using hl

/-- The first slot to revoke is the one that the search finds. -/
theorem find_lowest_bit {n k : Nat} (hk : k < 4) (h : bit n k = true) (hl : ∀ j, j < k → bit n j = false) :
    (List.range 4).find? (fun k => bit n k) = some k := by
  rw [List.find?_range_eq_some]
  exact ⟨h, List.mem_range.2 hk, fun j hj => by simp [hl j hj]⟩

/-- A slot that is revoked is revoked at last, and no other slot. -/
theorem bit_revoke (n k j : Nat) : bit (n + if bit n k then 0 else 2 ^ k) j = (bit n j || decide (k = j)) := by
  rw [bit_eq_testBit n k]
  split
  · next h =>
    rw [Nat.add_zero]
    by_cases hj : k = j
    · subst hj; simp [bit_eq_testBit, h]
    · simp [hj]
  · next h =>
    rw [add_two_pow_eq_lor (by simpa using h), bit_eq_testBit, bit_eq_testBit, Nat.testBit_lor, Nat.testBit_two_pow]

theorem bit_sub_two_pow {n k : Nat} (h : bit n k = true) (j : Nat) : bit (n - 2 ^ k) j = (bit n j && !decide (k = j)) := by
  rw [bit_eq_testBit] at h
  rw [sub_two_pow_eq_ldiff h, bit_eq_testBit, bit_eq_testBit, Nat.testBit_ldiff, Nat.testBit_two_pow]

/-- A fuse of the anti-rollback count: O44's clause. -/
theorem fuseBlow_count_completes (h : sparseWf regDefault s.regs = true) (hr : s.flag R.GLB_STATUS.READY = true)
    (hb : s.flag R.BOOT_STATUS.FUSE_BUSY = true) (hc : s.module.rollback < s.boot.fuseCount) (hm : s.module.rollback < 127) :
    s.completes .fuseBlow [.regs, .module, .boot] [R.BOOT_FW, R.BOOT_STATUS] (fun t =>
      t.module = { s.module with rollback := s.module.rollback + 1 } ∧ t.boot = s.boot ∧
      t.get R.BOOT_FW.ROLLBACK = s.module.rollback + 1 ∧ (t.flag R.BOOT_STATUS.FUSE_BUSY = true ↔
        s.module.rollback + 1 < s.boot.fuseCount ∨ s.boot.fuseRevoke ≠ 0)) :=
  have e := exec_fuseBlow_count hr hb hc
  ⟨_, e, exec_changesOnly .fuseBlow s _ e, (State.fused_regsWithin h _ _).2, State.fused_module _ _, State.fused_boot _ _,
    State.fused_rollback h (Nat.succ_lt_succ hm) _, State.fused_busy h hb _ _⟩

/-- A revoke fuse. -/
theorem fuseBlow_revoke_completes (h : sparseWf regDefault s.regs = true) (hr : s.flag R.GLB_STATUS.READY = true)
    (hb : s.flag R.BOOT_STATUS.FUSE_BUSY = true) (hc : s.boot.fuseCount ≤ s.module.rollback) {k : Nat} (hk : k < 4)
    (hbit : bit s.boot.fuseRevoke k = true) (hl : ∀ j, j < k → bit s.boot.fuseRevoke j = false) :
    s.completes .fuseBlow [.regs, .module, .boot] [R.BOOT_FW, R.BOOT_STATUS] (fun t =>
      t.module.rollback = s.module.rollback ∧ bit t.module.revoked k = true ∧
      (∀ j, j ≠ k → bit t.module.revoked j = bit s.module.revoked j) ∧ bit t.boot.fuseRevoke k = false ∧
      ∀ j, j ≠ k → bit t.boot.fuseRevoke j = bit s.boot.fuseRevoke j) := by
  have e := exec_fuseBlow_revoke hr hb hc (find_lowest_bit hk hbit hl)
  refine ⟨_, e, exec_changesOnly .fuseBlow s _ e, (State.fused_regsWithin h _ _).2, ?_⟩
  beta_reduce
  rw [State.fused_module, State.fused_boot]
  refine ⟨rfl, ?_, fun j hj => ?_, ?_, fun j hj => ?_⟩
  · rw [bit_revoke]; simp
  · rw [bit_revoke]; simp [hj.symm]
  · rw [bit_sub_two_pow hbit]; simp
  · rw [bit_sub_two_pow hbit]; simp [hj.symm]

/-! ### Certificates (R486) -/

theorem leVal_lt (bs : List Byte) : leVal bs < 256 ^ bs.length := by
  induction bs with
  | nil => exact Nat.one_pos
  | cons b bs ih =>
    have := b.isLt
    simp only [leVal, List.length_cons, Nat.pow_succ]
    omega

theorem fieldAt_lt (bs : List Byte) (i n : Nat) : fieldAt bs i n < 256 ^ n := by
  have h := leVal_lt (sliceBytes bs i n)
  have hlen : (sliceBytes bs i n).length = n := by
    simp only [sliceBytes, List.length_append, List.length_replicate, List.length_take]
    omega
  rwa [hlen] at h

/-- The bytes that CERT selects. -/
def Module.certBytes (m : Module) (cert : Nat) : List Byte := if cert = 3 then [] else (nth m.certs cert []).take 16384

theorem exec_bootCertSelect_eq (cert : Fin 4) (word : BitVec 12) : exec (.bootCertSelect cert word) s = .next
    (((s.setReg R.BOOT_CERT_CTL (BitVec.ofNat 32 (cert.val + 4 * word.toNat))).put R.BOOT_CERT_LEN.BYTES
      (s.module.certBytes cert.val).length).put R.BOOT_CERT_DATA.N (fieldAt (s.module.certBytes cert.val) (4 * word.toNat) 4)) := by
  have hw : word.toNat < 4096 := word.isLt
  have hc : (cert.val + 4 * word.toNat) % 4 = cert.val := by omega
  have hv : (cert.val + 4 * word.toNat) % 16384 = cert.val + 4 * word.toNat := by omega
  have hd : (cert.val + 4 * word.toNat) / 4 * 4 = 4 * word.toNat := by omega
  simp only [exec_bootCertSelect, execBootCertSelect, State.certSelect, hc, hv, hd]
  rfl

/-- BOOT_CERT_CTL shows the length and the word selected: O44's clause. -/
theorem bootCertSelect_completes (h : sparseWf regDefault s.regs = true) (cert : Fin 4) (word : BitVec 12) :
    s.completes (.bootCertSelect cert word) [.regs] [R.BOOT_CERT_CTL, R.BOOT_CERT_LEN, R.BOOT_CERT_DATA] (fun t =>
      (t.reg R.BOOT_CERT_CTL).toNat = cert.val + 4 * word.toNat ∧
      t.get R.BOOT_CERT_LEN.BYTES = (s.module.certBytes cert.val).length ∧
      t.get R.BOOT_CERT_DATA.N = fieldAt (s.module.certBytes cert.val) (4 * word.toNat) 4) := by
  have hword : word.toNat < 4096 := word.isLt
  have hlen : (s.module.certBytes cert.val).length < 2 ^ 15 := by
    unfold Module.certBytes
    split
    · decide
    · rw [List.length_take]; omega
  have e := exec_bootCertSelect_eq (s := s) cert word
  have hw1 : s.regsWithin [R.BOOT_CERT_CTL, R.BOOT_CERT_LEN, R.BOOT_CERT_DATA] _ :=
    (State.regsWithin_refl h).setReg (.inl (.head _)) (BitVec.ofNat 32 (cert.val + 4 * word.toNat))
  have hw2 := hw1.put (f := R.BOOT_CERT_LEN.BYTES) (.tail _ (.head _)) (s.module.certBytes cert.val).length
  have hw3 := hw2.put (f := R.BOOT_CERT_DATA.N) (.tail _ (.tail _ (.head _))) (fieldAt (s.module.certBytes cert.val) (4 * word.toNat) 4)
  refine ⟨_, e, exec_changesOnly (.bootCertSelect cert word) s _ e, hw3.2, ?_, ?_, ?_⟩
  · rw [State.reg_put hw2.1 ⟨by decide, by decide⟩, if_neg (by decide), State.reg_put hw1.1 ⟨by decide, by decide⟩, if_neg (by decide),
      State.reg_setReg h, if_pos rfl, BitVec.toNat_ofNat]
    omega
  · rw [State.get_put_apart hw2.1 ⟨by decide, by decide⟩ (.inl (by decide)), State.get_put_same hw1.1 ⟨by decide, by decide⟩]
    exact Nat.mod_eq_of_lt hlen
  · rw [State.get_put_same hw2.1 ⟨by decide, by decide⟩]
    exact Nat.mod_eq_of_lt (fieldAt_lt _ _ 4)

end Sys2Proof.Machine
end

section
/-! PROOFS, boot: the boot sequence (R477, R478). -/

namespace Sys2Proof.Machine

variable {s t : State} {offs : List Nat}

/-! ### The start of the field controller -/

theorem State.regsWithin.settleOut (h : s.regsWithin offs t) {q : Nat} (ho : R.FLD_Q_STATUS q ∈ offs) :
    s.regsWithin offs (t.settleOut q) := by
  unfold State.settleOut
  extract_lets _ _ _ u
  have hu : s.regsWithin offs u := h.of_regs rfl
  exact ((hu.drop (f := R.FLD_Q_STATUS.OPEN_OFF q) ho).ite hu).ite hu

/-- The field state as SAFE begins: no pulse is queued and no output drives for one. -/
def State.pulsesOff (s : State) : State :=
  (List.range 16).foldl (fun (s : State) q => s.setOut q { s.out q with pulseOn := false, openNow := false })
    { s with field := { s.field with
      mode := .safe, pulses := [], flushed := s.field.flushed ++ s.field.pulses, lastHb := none } }

theorem State.enterSafe_eq (s : State) : s.enterSafe = s.pulsesOff.settleOuts.driveLs := rfl

theorem State.regsWithin.pulsesOff (h : s.regsWithin offs t) : s.regsWithin offs t.pulsesOff := by
  unfold State.pulsesOff
  refine State.regsWithin.foldl ?_ fun u q _ hu => ?_
  · exact h.of_regs rfl
  · exact hu.of_regs rfl

theorem State.regsWithin.settleOuts (h : s.regsWithin offs t) (ho : ∀ q < 16, R.FLD_Q_STATUS q ∈ offs) :
    s.regsWithin offs t.settleOuts := by
  unfold State.settleOuts
  exact h.foldl fun u q hq hu => hu.settleOut (ho q (List.mem_range.1 hq))

theorem State.driveLs_regs (s : State) : s.driveLs.regs = s.regs := rfl

theorem State.regsWithin.enterSafe (h : s.regsWithin offs t) (ho : ∀ q < 16, R.FLD_Q_STATUS q ∈ offs) :
    s.regsWithin offs t.enterSafe := by
  rw [State.enterSafe_eq]
  exact (h.pulsesOff.settleOuts ho).of_regs (State.driveLs_regs _)

/-- The field controller in SAFE after its boot (R420). -/
def State.fieldAwake (s : State) : State := if s.field.mode = .boot then s.enterSafe else s

theorem State.fieldBoot_eq (s : State) : s.fieldBoot = if s.fieldAwake.field.supplyLow then
    (s.fieldAwake.raise R.FLD_STATUS.SUPPLY_LOW).lineStop .field else s.fieldAwake := rfl

theorem State.regsWithin.fieldAwake (h : s.regsWithin offs t) (ho : ∀ q < 16, R.FLD_Q_STATUS q ∈ offs) :
    s.regsWithin offs t.fieldAwake := (h.enterSafe ho).ite h

theorem State.regsWithin.fieldBoot (h : s.regsWithin offs t) (hq : ∀ q < 16, R.FLD_Q_STATUS q ∈ offs)
    (hf : R.FLD_STATUS ∈ offs) (hl : lineStopOffsets ⊆ offs) : s.regsWithin offs t.fieldBoot := by
  have hs := h.fieldAwake hq
  rw [State.fieldBoot_eq]
  exact ((hs.raise (f := R.FLD_STATUS.SUPPLY_LOW) hf).lineStop hl .field).ite hs

/-- The start of the field controller sends nothing. -/
theorem State.fieldAwake_link (s : State) : s.fieldAwake.link = s.link := by
  have := closedRegs_of_ne (s := s) (c := .link) (by decide)
  have := closedField_of_ne (s := s) (c := .link) (by decide)
  have h0 : Holds (fun t => Comp.link.same s t) s := Holds.same_refl
  exact Holds.ite (State.enterSafe_holds h0) h0

theorem State.fieldBoot_down_subset (s : State) : s.link.down ⊆ s.fieldBoot.link.down := by
  rw [State.fieldBoot_eq, ← s.fieldAwake_link]
  split
  · exact State.lineStop_down_subset (s := s.fieldAwake.raise R.FLD_STATUS.SUPPLY_LOW) .field
  · exact List.Subset.refl _

/-- A low field supply adds a cause; no cause goes. -/
theorem State.fieldBoot_cause (h : sparseWf regDefault s.regs = true) {k : Nat} (hb : bit (s.get R.FLD_LS_CAUSE.CAUSE) k = true) :
    bit (s.fieldBoot.get R.FLD_LS_CAUSE.CAUSE) k = true := by
  have hs : s.regsWithin (R.FLD_STATUS :: (List.range 16).map R.FLD_Q_STATUS) s.fieldAwake :=
    (State.regsWithin_refl h).fieldAwake fun q hq => .tail _ (List.mem_map_of_mem (List.mem_range.2 hq))
  rw [State.fieldBoot_eq]
  split
  · have hr := hs.raise (f := R.FLD_STATUS.SUPPLY_LOW) (.head _)
    rw [State.lineStop_get hr.1, hr.get (by decide) (by decide), bit_eq_testBit, Nat.testBit_lor, ← bit_eq_testBit, hb, Bool.true_or]
  · rwa [hs.get (by decide) (by decide)]

/-! ### The start of the boot sequence -/

/-- Cause RESET is set, the field controller boots and the clocks lock: what precedes the check of the image. -/
def State.bootStart (s : State) : State :=
  ((s.put R.FLD_LS_CAUSE.CAUSE 0).setCauses (Nat.lor (s.get R.FLD_LS_CAUSE.CAUSE) 1)).fieldBoot.raise R.CLK_STATUS.LOCKED

/-- Registers that the start of the boot sequence may change. -/
def bootOffsets : List Nat := R.CLK_STATUS :: R.FLD_STATUS :: ((List.range 16).map R.FLD_Q_STATUS ++ lineStopOffsets)

theorem State.bootStart_regsWithin (h : sparseWf regDefault s.regs = true) : s.regsWithin bootOffsets s.bootStart := by
  have hl : lineStopOffsets ⊆ bootOffsets := fun x hx => .tail _ (.tail _ (List.mem_append_right _ hx))
  have hc := ((State.regsWithin_refl h).put (f := R.FLD_LS_CAUSE.CAUSE) (hl (.head _)) 0).setCauses hl
    (Nat.lor (s.get R.FLD_LS_CAUSE.CAUSE) 1)
  have hb := hc.fieldBoot (fun q hq => .tail _ (.tail _ (List.mem_append_left _ (List.mem_map_of_mem (List.mem_range.2 hq)))))
    (.tail _ (.head _)) hl
  exact hb.raise (.head _)

theorem State.bootStart_changesOnly (s : State) : s.changesOnly [.regs, .field, .link, .loft] s.bootStart := by
  intro c hc
  simp only [List.mem_cons, List.not_mem_nil, or_false, not_or] at hc
  obtain ⟨hr, hf, hl, ho⟩ := hc
  have := closedRegs_of_ne (s := s) hr
  have := closedField_of_ne (s := s) hf
  have := closedLink_of_ne (s := s) hl
  have := closedLoft_of_ne (s := s) ho
  exact State.raise_holds (G := fun t => c.same s t)
    (State.fieldBoot_holds (State.setCauses_holds (State.put_holds Holds.same_refl)))

/-- Cause RESET stands, and LS_SET with RUN 0 is on the downlink unless the test access port has the pins. -/
def State.stopsLine (s t : State) : Prop :=
  bit (t.get R.FLD_LS_CAUSE.CAUSE) 0 = true ∧ (s.pinsTaken = false → ∃ q, ⟨q, .lsSet false⟩ ∈ t.link.down)

theorem State.bootStart_stopsLine (h : sparseWf regDefault s.regs = true) : s.stopsLine s.bootStart := by
  have hw := State.put_wf h R.FLD_LS_CAUSE.CAUSE 0
  have hlt : Nat.lor (s.get R.FLD_LS_CAUSE.CAUSE) 1 < 2 ^ 11 := Nat.or_lt_two_pow (s.get_lt R.FLD_LS_CAUSE.CAUSE) (by decide)
  have hbit : Nat.testBit (Nat.lor (s.get R.FLD_LS_CAUSE.CAUSE) 1) 0 = true :=
    (Nat.testBit_lor ..).trans (by rw [show Nat.testBit 1 0 = true from rfl, Bool.or_true])
  have hne : Nat.lor (s.get R.FLD_LS_CAUSE.CAUSE) 1 ≠ 0 := fun h0 => by
    rw [h0, Nat.zero_testBit] at hbit
    cases hbit
  have hset := ((State.regsWithin_refl hw).setCauses (List.Subset.refl _) (Nat.lor (s.get R.FLD_LS_CAUSE.CAUSE) 1)).1
  refine ⟨?_, fun hp => ?_⟩
  · have hb : bit (_ : Nat) 0 = true := State.fieldBoot_cause (k := 0) hset (by rwa [State.setCauses_get hw hlt, bit_eq_testBit])
    have hf := (State.regsWithin_refl hset).fieldBoot (offs := bootOffsets)
      (fun q hq => .tail _ (.tail _ (List.mem_append_left _ (List.mem_map_of_mem (List.mem_range.2 hq))))) (.tail _ (.head _))
      fun x hx => .tail _ (.tail _ (List.mem_append_right _ hx))
    rwa [State.bootStart, State.raise, State.get_put_apart hf.1 ⟨by decide, by decide⟩ (.inl (by decide))]
  · have hp0 : (s.put R.FLD_LS_CAUSE.CAUSE 0).pinsTaken = false := by
      have hr : s.regsWithin [R.FLD_LS_CAUSE] (s.put R.FLD_LS_CAUSE.CAUSE 0) := (State.regsWithin_refl h).put (.head _) 0
      rw [← hp]
      exact State.pinsTaken_congr rfl (hr.flag (by decide) (by decide)) (hr.flag (by decide) (by decide))
    obtain ⟨q, hq⟩ := State.setCauses_stops hw (State.get_put_same h ⟨by decide, by decide⟩ 0)
      (new := Nat.lor (s.get R.FLD_LS_CAUSE.CAUSE) 1) hne hp0
    exact ⟨q, State.fieldBoot_down_subset _ hq⟩

end Sys2Proof.Machine
end

section
/-! PROOFS, boot: recovery and a good image (R477, R478). -/

namespace Sys2Proof.Machine

variable {s t : State} {offs : List Nat}

/-! ### The configuration in force (R474) -/

theorem State.loadConfig_none (h : s.boot.config = none) : s.loadConfig = s.raise R.BOOT_STATUS.CFG_LOST := by
  rw [State.loadConfig, h]

theorem State.loadConfig_some {c : FlashCfg} (h : s.boot.config = some c) :
    s.loadConfig = { s with client := { s.client with net := c.net }, boot := { s.boot with signers := c.signers } } := by
  rw [State.loadConfig, h]

theorem State.regsWithin.loadConfig (h : s.regsWithin offs t) (ho : R.BOOT_STATUS ∈ offs) : s.regsWithin offs t.loadConfig := by
  cases hc : t.boot.config with
  | none => rw [State.loadConfig_none hc]; exact h.raise ho
  | some c => rw [State.loadConfig_some hc]; exact h.of_regs rfl

theorem State.loadConfig_get (h : sparseWf regDefault s.regs = true) {f : Fld} (hf : R.BOOT_STATUS.CFG_LOST.apart f) :
    s.loadConfig.get f = s.get f := by
  cases hc : s.boot.config with
  | none => rw [State.loadConfig_none hc, State.raise, State.get_put_apart h ⟨by decide, by decide⟩ hf]
  | some c => rw [State.loadConfig_some hc]; rfl

/-- The configuration changes the list in force of the boot core, nothing else of it. -/
theorem State.loadConfig_boot (s : State) : s.loadConfig.boot = { s.boot with signers := s.loadConfig.boot.signers } := by
  cases hc : s.boot.config with
  | none => rw [State.loadConfig_none hc]; rfl
  | some c => rw [State.loadConfig_some hc]

/-! ### Recovery (R478) -/

theorem State.recover_regsWithin (h : sparseWf regDefault s.regs = true) (code : Nat) :
    s.regsWithin [R.GLB_STATUS, R.BOOT_STATUS] (s.recover code) := by
  have h1 := (State.regsWithin_refl h).raise (f := R.GLB_STATUS.RECOVERY) (offs := [R.GLB_STATUS, R.BOOT_STATUS]) (.head _)
  have h2 := h1.raise (f := R.BOOT_STATUS.RECOVERY) (.tail _ (.head _))
  have h3 := h2.put (f := R.BOOT_STATUS.REASON) (.tail _ (.head _)) code
  exact h3.loadConfig (.tail _ (.head _))

/-- RECOVERY shows in both registers, with the code; READY stays as it is. -/
theorem State.recover_shows (h : sparseWf regDefault s.regs = true) (code : Nat) :
    (s.recover code).flag R.GLB_STATUS.RECOVERY = true ∧ (s.recover code).flag R.BOOT_STATUS.RECOVERY = true ∧
    (s.recover code).flag R.GLB_STATUS.READY = s.flag R.GLB_STATUS.READY ∧
    (s.recover code).get R.BOOT_STATUS.REASON = code % 16 := by
  have h1 := State.put_wf h R.GLB_STATUS.RECOVERY 1
  have h2 := State.put_wf h1 R.BOOT_STATUS.RECOVERY 1
  have h3 := State.put_wf h2 R.BOOT_STATUS.REASON code
  unfold State.recover State.flag State.raise
  refine ⟨?_, ?_, ?_, ?_⟩
  · rw [State.loadConfig_get h3 (.inl (by decide)), State.get_put_apart h2 ⟨by decide, by decide⟩ (.inl (by decide)),
      State.get_put_apart h1 ⟨by decide, by decide⟩ (.inl (by decide)), State.get_put_same h ⟨by decide, by decide⟩]
    rfl
  · rw [State.loadConfig_get h3 (.inr (.inl (by decide))), State.get_put_apart h2 ⟨by decide, by decide⟩ (.inr (.inl (by decide))),
      State.get_put_same h1 ⟨by decide, by decide⟩]
    rfl
  · rw [State.loadConfig_get h3 (.inl (by decide)), State.get_put_apart h2 ⟨by decide, by decide⟩ (.inl (by decide)),
      State.get_put_apart h1 ⟨by decide, by decide⟩ (.inl (by decide)),
      State.get_put_apart h ⟨by decide, by decide⟩ (.inr (.inl (by decide)))]
  · rw [State.loadConfig_get h3 (.inr (.inr (by decide))), State.get_put_same h2 ⟨by decide, by decide⟩]
    rfl

theorem State.recover_changesOnly (s : State) (code : Nat) : s.changesOnly [.regs, .client, .boot] (s.recover code) := by
  intro c hc
  simp only [List.mem_cons, List.not_mem_nil, or_false, not_or] at hc
  obtain ⟨hr, hl, hb⟩ := hc
  have := closedRegs_of_ne (s := s) hr
  have := closedClient_of_ne (s := s) hl
  have := closedBoot_of_ne (s := s) hb
  exact State.recover_holds (G := fun t => c.same s t) Holds.same_refl

theorem State.recover_running (s : State) (code : Nat) : (s.recover code).boot.running = s.boot.running := by
  rw [State.recover, State.loadConfig_boot]
  rfl

/-! ### A good image (steps 4 to 8 of R477) -/

/-- The memories come up clean but for words that are stuck, and the image runs. -/
def State.cleared (s : State) (f : List Byte) : State := { s with
  larder := [], mem := [], boot := { s.boot with running := some (f.take 256) }
  cel := { s.cel with bad := s.cel.bad.filter (·.stuck) } }

/-- The image is shown, after the cores' known-answer tests; the configuration is still to be loaded. -/
def State.imageUp (s : State) (f : List Byte) (kat : Nat) : State :=
  ((List.range 16).foldl (fun (s : State) n => s.put (R.CORE_LDR_STATUS.MODE n) 0) ((s.cleared f).knownAnswer kat)).showFirmware f

theorem State.bootOk_eq (s : State) (f : List Byte) (kat : Nat) :
    s.bootOk f kat = ((s.imageUp f kat).loadConfig.fusesDue f).raise R.GLB_STATUS.READY := rfl

/-- Registers that steps 4 to 8 may change, besides GLB_STATUS. -/
def imageOffsets : List Nat := [R.GLB_CORE_MAP, R.BOOT_STATUS, R.BOOT_FW, R.BOOT_FW_VER] ++
  ((List.range 8).map R.BOOT_FW_DIGEST ++ ((List.range 16).map R.CORE_STATUS ++ (List.range 16).map R.CORE_LDR_STATUS))

theorem State.regsWithin.knownAnswer (h : s.regsWithin offs t) (hm : R.GLB_CORE_MAP ∈ offs)
    (hq : ∀ n < 16, R.CORE_STATUS n ∈ offs) (kat : Nat) : s.regsWithin offs (t.knownAnswer kat) := by
  unfold State.knownAnswer
  refine h.foldl fun u n hn hu => ?_
  have ho := hq n (List.mem_range.1 hn)
  extract_lets _ _ t1 t2 t3 _ t4
  have h1 : s.regsWithin offs t1 := hu.of_regs rfl
  have h2 : s.regsWithin offs t2 := (h1.raise (f := R.CORE_STATUS.KAT_FAIL n) ho).drop (f := R.CORE_STATUS.IN_SERVICE n) ho
  have h3 : s.regsWithin offs t3 := h2.put (f := R.GLB_CORE_MAP.IN_SERVICE) hm _
  have h4 : s.regsWithin offs t4 := h3.of_regs rfl
  have h5 := (h4.drop (f := R.CORE_STATUS.KAT_FAIL n) ho).drop (f := R.CORE_STATUS.PRESENT n) ho
  refine hu.ite (.ite (hu.of_regs rfl) (h3.ite ?_))
  exact h5.put (f := R.GLB_CORE_MAP.PRESENT) hm _

theorem State.regsWithin.showFirmware (h : s.regsWithin offs t) (hf : R.BOOT_FW ∈ offs) (hv : R.BOOT_FW_VER ∈ offs)
    (hd : ∀ k < 8, R.BOOT_FW_DIGEST k ∈ offs) (f : List Byte) : s.regsWithin offs (t.showFirmware f) := by
  unfold State.showFirmware
  extract_lets _ _ u
  have hu : s.regsWithin offs u := ((h.put (f := R.BOOT_FW.SVN) hf _).put (f := R.BOOT_FW.SIGNER) hf _).put (f := R.BOOT_FW_VER.RELEASE) hv _
  exact hu.foldl fun v k hk hv => hv.put (f := R.BOOT_FW_DIGEST.N k) (hd k (List.mem_range.1 hk)) _

theorem State.regsWithin.fusesDue (h : s.regsWithin offs t) (ho : R.BOOT_STATUS ∈ offs) (f : List Byte) :
    s.regsWithin offs (t.fusesDue f) := by
  unfold State.fusesDue
  extract_lets _ _ _ _ u
  have hu : s.regsWithin offs u := h.of_regs rfl
  exact (hu.raise (f := R.BOOT_STATUS.FUSE_BUSY) ho).ite hu

theorem State.imageUp_regsWithin (h : sparseWf regDefault s.regs = true) (f : List Byte) (kat : Nat) :
    s.regsWithin imageOffsets (s.imageUp f kat) := by
  have hc : s.regsWithin imageOffsets (s.cleared f) := (State.regsWithin_refl h).of_regs rfl
  have hmem {n : Nat} {g : Nat → Nat} {m : Nat} (hn : n < m) : g n ∈ (List.range m).map g := List.mem_map_of_mem (List.mem_range.2 hn)
  have hk := hc.knownAnswer (.head _)
    (fun n hn => List.mem_append_right _ (List.mem_append_right _ (List.mem_append_left _ (hmem hn)))) kat
  have hl := State.regsWithin.foldl (f := fun (s : State) n => s.put (R.CORE_LDR_STATUS.MODE n) 0) (l := List.range 16) hk
    fun u n hn hu => hu.put (f := R.CORE_LDR_STATUS.MODE n)
      (List.mem_append_right _ (List.mem_append_right _ (List.mem_append_right _ (hmem (List.mem_range.1 hn))))) 0
  exact hl.showFirmware (.tail _ (.tail _ (.head _))) (.tail _ (.tail _ (.tail _ (.head _))))
    (fun k hk => List.mem_append_right _ (List.mem_append_left _ (hmem hk))) f

/-- The known-answer tests change their own count of the boot core's state. -/
theorem State.knownAnswer_boot (s : State) (kat : Nat) : ∃ k, (s.knownAnswer kat).boot = { s.boot with katFails := k } := by
  unfold State.knownAnswer
  refine Holds.foldl (G := fun t => ∃ k, t.boot = { s.boot with katFails := k }) ⟨_, rfl⟩ fun u n ⟨k, hk⟩ => ?_
  refine .ite ⟨k, hk⟩ (.ite ⟨setNth u.boot.katFails n 0, ?_⟩ (.ite ?_ ?_))
  · change ({ u.boot with katFails := setNth u.boot.katFails n 0 } : BootSt) = _
    rw [hk]
  all_goals
    refine ⟨setNth u.boot.katFails n (nth u.boot.katFails n 0 + 1), ?_⟩
    change ({ u.boot with katFails := setNth u.boot.katFails n (nth u.boot.katFails n 0 + 1) } : BootSt) = _
    rw [hk]

theorem State.imageUp_boot (s : State) (f : List Byte) (kat : Nat) :
    ∃ k, (s.imageUp f kat).boot = { s.boot with running := some (f.take 256), katFails := k } := by
  obtain ⟨k, hk⟩ := (s.cleared f).knownAnswer_boot kat
  have := closedRegs_of_ne (s := (s.cleared f).knownAnswer kat) (c := .boot) (by decide)
  have hb := State.showFirmware_holds (G := fun t => Comp.boot.same ((s.cleared f).knownAnswer kat) t) (f := f)
    (Holds.foldl (f := fun (s : State) n => s.put (R.CORE_LDR_STATUS.MODE n) 0) (l := List.range 16) Holds.same_refl
      fun _ _ h => State.put_holds h)
  exact ⟨k, hb.trans hk⟩

/-- The fuses to blow are noted for the boot core; nothing else of its state changes. -/
theorem State.fusesDue_boot (s : State) (f : List Byte) :
    ∃ n r, (s.fusesDue f).boot = { s.boot with fuseCount := n, fuseRevoke := r } := by
  unfold State.fusesDue
  extract_lets _ _ _ _ u
  refine ⟨u.boot.fuseCount, u.boot.fuseRevoke, ?_⟩
  split <;> rfl

theorem State.fusesDue_client (s : State) (f : List Byte) : (s.fusesDue f).client = s.client := by
  unfold State.fusesDue
  extract_lets
  split <;> rfl

theorem State.fusesDue_get (h : sparseWf regDefault s.regs = true) {g : Fld} (hg : R.BOOT_STATUS.FUSE_BUSY.apart g) (f : List Byte) :
    (s.fusesDue f).get g = s.get g := by
  unfold State.fusesDue
  extract_lets _ _ _ _ u
  split
  · exact State.get_put_apart (s := u) h ⟨by decide, by decide⟩ hg 1
  · rfl

/-- What the memories hold after a good boot. -/
theorem State.bootOk_changesOnly (s : State) (f : List Byte) (kat : Nat) :
    (s.cleared f).changesOnly [.regs, .module, .client, .boot] (s.bootOk f kat) := by
  intro c hc
  simp only [List.mem_cons, List.not_mem_nil, or_false, not_or] at hc
  obtain ⟨hr, hm, hl, hb⟩ := hc
  have := closedRegs_of_ne (s := s.cleared f) hr
  have := closedModule_of_ne (s := s.cleared f) hm
  have := closedClient_of_ne (s := s.cleared f) hl
  have := closedBoot_of_ne (s := s.cleared f) hb
  rw [State.bootOk_eq]
  refine State.raise_holds (G := fun t => c.same (s.cleared f) t) (State.fusesDue_holds (State.loadConfig_holds ?_))
  exact State.showFirmware_holds (Holds.foldl (State.knownAnswer_holds Holds.same_refl) fun _ _ h => State.put_holds h)

end Sys2Proof.Machine
end

section
/-! PROOFS, boot: MODULE_RESET, the supplies, and what settles O44. -/

namespace Sys2Proof.Machine

variable {s t u : State}

/-! ### The state of a good image -/

theorem State.bootOk_shows (h : sparseWf regDefault s.regs = true) (f : List Byte) (kat : Nat) :
    (s.bootOk f kat).flag R.GLB_STATUS.READY = true ∧
    (s.bootOk f kat).flag R.GLB_STATUS.RECOVERY = s.flag R.GLB_STATUS.RECOVERY ∧
    (s.bootOk f kat).get R.FLD_LS_CAUSE.CAUSE = s.get R.FLD_LS_CAUSE.CAUSE := by
  have hw := ((State.imageUp_regsWithin h f kat).loadConfig (by decide)).fusesDue (by decide) f
  rw [State.bootOk_eq]
  refine ⟨State.flag_raise hw.1 ⟨by decide, by decide⟩, ?_, ?_⟩
  · rw [← hw.flag (f := R.GLB_STATUS.RECOVERY) (by decide) (by decide)]
    unfold State.flag State.raise
    rw [State.get_put_apart hw.1 ⟨by decide, by decide⟩ (.inr (.inr (by decide)))]
  · rw [← hw.get (f := R.FLD_LS_CAUSE.CAUSE) (by decide) (by decide)]
    exact State.get_put_apart hw.1 ⟨by decide, by decide⟩ (.inl (by decide)) 1

/-- What boot core and client hold after a good boot: the configuration has been loaded, the fuses to blow are noted. -/
theorem State.bootOk_boot (s : State) (f : List Byte) (kat : Nat) :
    ∃ n r, (s.bootOk f kat).boot = { (s.imageUp f kat).loadConfig.boot with fuseCount := n, fuseRevoke := r } :=
  State.fusesDue_boot _ f

theorem State.bootOk_client (s : State) (f : List Byte) (kat : Nat) :
    (s.bootOk f kat).client = (s.imageUp f kat).loadConfig.client := State.fusesDue_client _ f

theorem State.bootOk_running (s : State) (f : List Byte) (kat : Nat) : (s.bootOk f kat).boot.running = some (f.take 256) := by
  obtain ⟨n, r, hb⟩ := s.bootOk_boot f kat
  obtain ⟨k, hk⟩ := s.imageUp_boot f kat
  rw [hb, State.loadConfig_boot, hk]

/-- Without a valid copy the configuration is lost, and the signers in force stay. -/
theorem State.bootOk_config_none (h : sparseWf regDefault s.regs = true) (hc : s.boot.config = none) (f : List Byte) (kat : Nat) :
    (s.bootOk f kat).flag R.BOOT_STATUS.CFG_LOST = true ∧ (s.bootOk f kat).boot.signers = s.boot.signers := by
  obtain ⟨n, r, hb⟩ := s.bootOk_boot f kat
  obtain ⟨k, hk⟩ := s.imageUp_boot f kat
  have hi := State.imageUp_regsWithin h f kat
  have hw := (hi.loadConfig (by decide)).fusesDue (by decide) f
  have hlost : (s.imageUp f kat).loadConfig = (s.imageUp f kat).raise R.BOOT_STATUS.CFG_LOST :=
    State.loadConfig_none (by rw [hk]; exact hc)
  constructor
  · rw [State.bootOk_eq, State.flag, State.raise, State.get_put_apart hw.1 ⟨by decide, by decide⟩ (.inl (by decide)),
      State.fusesDue_get (hi.loadConfig (by decide)).1 (.inr (.inl (by decide))), hlost]
    exact State.flag_raise hi.1 ⟨by decide, by decide⟩
  · rw [hb, hlost]
    change (s.imageUp f kat).boot.signers = s.boot.signers
    rw [hk]

/-- A valid copy is in force. -/
theorem State.bootOk_config_some {c : FlashCfg} (hc : s.boot.config = some c) (f : List Byte) (kat : Nat) :
    (s.bootOk f kat).client.net = c.net ∧ (s.bootOk f kat).boot.signers = c.signers := by
  obtain ⟨n, r, hb⟩ := s.bootOk_boot f kat
  obtain ⟨k, hk⟩ := s.imageUp_boot f kat
  have hload := State.loadConfig_some (s := s.imageUp f kat) (c := c) (by rw [hk]; exact hc)
  rw [State.bootOk_client, hb, hload]
  exact ⟨rfl, rfl⟩

/-! ### MODULE_RESET (R477) -/

/-- The module waits for its boot: powered, with the crystal running, neither READY nor in recovery. -/
def State.awaitsBoot (s : State) : Prop :=
  s.boot.power = true ∧ s.flag R.GLB_STATUS.READY = false ∧ s.flag R.GLB_STATUS.RECOVERY = false ∧ s.flag R.CLK_STATUS.XTAL_READY = true

/-- The module comes up in recovery: it runs what it ran, and the memories keep what they hold. -/
def State.recovers (s t : State) : Prop :=
  t.flag R.GLB_STATUS.RECOVERY = true ∧ t.flag R.BOOT_STATUS.RECOVERY = true ∧ t.flag R.GLB_STATUS.READY = false ∧
  t.boot.running = s.boot.running ∧ t.mem = s.mem

theorem exec_moduleReset_idle (h : ¬ s.awaitsBoot) (readable : Bool) (kat : BitVec 16) :
    exec (.moduleReset readable kat) s = .next s := by
  have hc : (!s.boot.power || s.flag R.GLB_STATUS.READY || s.flag R.GLB_STATUS.RECOVERY || !s.flag R.CLK_STATUS.XTAL_READY) = true := by
    simp only [Bool.or_eq_true, Bool.not_eq_true']
    by_contra hn
    simp only [not_or, Bool.not_eq_true, Bool.not_eq_false] at hn
    obtain ⟨⟨⟨hp, hr⟩, hv⟩, hx⟩ := hn
    exact h ⟨hp, hr, hv, hx⟩
  rw [exec_moduleReset, execModuleReset, if_pos hc]

theorem State.bootStart_module (s : State) : s.bootStart.module = s.module := s.bootStart_changesOnly .module (by decide)
theorem State.bootStart_boot (s : State) : s.bootStart.boot = s.boot := s.bootStart_changesOnly .boot (by decide)

theorem State.bootStart_flag (h : sparseWf regDefault s.regs = true) {f : Fld} (hf : f.off = R.GLB_STATUS) :
    s.bootStart.flag f = s.flag f :=
  (State.bootStart_regsWithin h).flag (by rw [hf]; decide) (by rw [hf]; decide)

theorem State.bootStart_pinsTaken (h : sparseWf regDefault s.regs = true) : s.bootStart.pinsTaken = s.pinsTaken :=
  State.pinsTaken_congr (by rw [State.bootStart_boot]) (State.bootStart_flag h rfl) (State.bootStart_flag h rfl)

theorem exec_moduleReset_due (h : s.awaitsBoot) (readable : Bool) (kat : BitVec 16) :
    exec (.moduleReset readable kat) s = .next (if !readable || s.bootStart.pinsTaken then s.bootStart.draw.2.recover s.bootStart.draw.1.toNat
      else if s.bootStart.module.fwCode s.bootStart.boot.slot ≠ 0 then s.bootStart.recover (s.bootStart.module.fwCode s.bootStart.boot.slot)
      else if s.bootStart.module.lost / 4 ≠ 0 then s.bootStart
      else s.bootStart.bootOk s.bootStart.boot.slot kat.toNat) := by
  obtain ⟨hp, hr, hv, hx⟩ := h
  rw [exec_moduleReset, execModuleReset, hp, hr, hv, hx]
  rfl

/-- The flash cannot be read, or the test access port has its pins. -/
theorem exec_moduleReset_unreadable (hw : sparseWf regDefault s.regs = true) (h : s.awaitsBoot) {readable : Bool}
    (hn : readable = false ∨ s.pinsTaken = true) (kat : BitVec 16) :
    exec (.moduleReset readable kat) s = .next (s.bootStart.draw.2.recover s.bootStart.draw.1.toNat) := by
  rw [exec_moduleReset_due h, if_pos (by rw [State.bootStart_pinsTaken hw]; simpa using hn)]

theorem exec_moduleReset_fails (hw : sparseWf regDefault s.regs = true) (h : s.awaitsBoot) (hp : s.pinsTaken = false)
    (hc : s.module.fwCode s.boot.slot ≠ 0) (kat : BitVec 16) :
    exec (.moduleReset true kat) s = .next (s.bootStart.recover (s.module.fwCode s.boot.slot)) := by
  rw [exec_moduleReset_due h, State.bootStart_pinsTaken hw, State.bootStart_module, State.bootStart_boot, hp,
    if_neg (by decide), if_pos hc]

theorem exec_moduleReset_dieLost (hw : sparseWf regDefault s.regs = true) (h : s.awaitsBoot) (hp : s.pinsTaken = false)
    (hc : s.module.fwCode s.boot.slot = 0) (hl : s.module.lost / 4 ≠ 0) (kat : BitVec 16) :
    exec (.moduleReset true kat) s = .next s.bootStart := by
  rw [exec_moduleReset_due h, State.bootStart_pinsTaken hw, State.bootStart_module, State.bootStart_boot, hp,
    if_neg (by decide), if_neg (not_not.2 hc), if_pos hl]

theorem exec_moduleReset_good (hw : sparseWf regDefault s.regs = true) (h : s.awaitsBoot) (hp : s.pinsTaken = false)
    (hc : s.module.fwCode s.boot.slot = 0) (hl : s.module.lost / 4 = 0) (kat : BitVec 16) :
    exec (.moduleReset true kat) s = .next (s.bootStart.bootOk s.boot.slot kat.toNat) := by
  rw [exec_moduleReset_due h, State.bootStart_pinsTaken hw, State.bootStart_module, State.bootStart_boot, hp,
    if_neg (by decide), if_neg (not_not.2 hc), if_neg (not_not.2 hl)]

/-- What keeps the causes and the downlink keeps the line stopped. -/
theorem State.stopsLine.trans (h : s.stopsLine t) (hc : u.get R.FLD_LS_CAUSE.CAUSE = t.get R.FLD_LS_CAUSE.CAUSE)
    (hl : u.link = t.link) : s.stopsLine u := by
  unfold State.stopsLine
  rwa [hc, hl]

/-- A free value is drawn; nothing else changes. -/
theorem State.draw_changesOnly (s : State) : s.changesOnly [.free] s.draw.2 := by
  intro c hc
  have := closedFree_of_ne (s := s) (c := c) (by simpa using hc)
  exact State.draw_holds (G := fun t => c.same s t) Holds.same_refl

/-- Recovery after the start of the boot sequence. -/
theorem State.bootStart_recovers (hw : sparseWf regDefault s.regs = true) (h : s.awaitsBoot)
    (hr : u.regs = s.bootStart.regs) (hl : u.link = s.bootStart.link) (hb : u.boot = s.boot) (hm : u.mem = s.mem) (code : Nat) :
    s.stopsLine (u.recover code) ∧ s.recovers (u.recover code) := by
  have hwu : sparseWf regDefault u.regs = true := by rw [hr]; exact (State.bootStart_regsWithin hw).1
  obtain ⟨hglb, hboot, hready, -⟩ := State.recover_shows hwu code
  obtain ⟨-, hnot, -, -⟩ := h
  refine ⟨(State.bootStart_stopsLine hw).trans ?_ ?_, hglb, hboot, ?_, ?_, ?_⟩
  · rw [(State.recover_regsWithin hwu code).get (by decide) (by decide), State.get_of_regs hr]
  · exact (u.recover_changesOnly code .link (by decide)).trans hl
  · rw [hready, State.flag, State.get_of_regs hr, ← State.flag, State.bootStart_flag hw rfl, hnot]
  · rw [State.recover_running, hb]
  · exact (u.recover_changesOnly code .mem (by decide)).trans hm

/-- The code of a failing check fits REASON. -/
theorem Module.fwCode_lt (m : Module) (f : List Byte) : m.fwCode f < 16 := by
  unfold Module.fwCode
  extract_lets
  split_ifs <;> decide

/-- A lost memory-side die: the line is stopped, and nothing else begins. -/
theorem State.bootStart_waits (hw : sparseWf regDefault s.regs = true) (h : s.awaitsBoot) :
    s.stopsLine s.bootStart ∧ s.bootStart.flag R.GLB_STATUS.READY = false ∧ s.bootStart.flag R.GLB_STATUS.RECOVERY = false := by
  obtain ⟨-, hr, hv, -⟩ := h
  exact ⟨State.bootStart_stopsLine hw, (State.bootStart_flag hw rfl).trans hr, (State.bootStart_flag hw rfl).trans hv⟩

/-- A good image stops the line and serves. -/
theorem State.bootOk_serves (hw : sparseWf regDefault s.regs = true) (h : s.awaitsBoot) (f : List Byte) (kat : Nat) :
    s.stopsLine (s.bootStart.bootOk f kat) ∧ (s.bootStart.bootOk f kat).flag R.GLB_STATUS.READY = true ∧
    (s.bootStart.bootOk f kat).flag R.GLB_STATUS.RECOVERY = false := by
  obtain ⟨-, -, hv, -⟩ := h
  obtain ⟨hready, hrec, hcause⟩ := State.bootOk_shows (State.bootStart_regsWithin hw).1 f kat
  refine ⟨(State.bootStart_stopsLine hw).trans hcause (s.bootStart.bootOk_changesOnly f kat .link (by decide)), hready, ?_⟩
  rw [hrec, State.bootStart_flag hw rfl, hv]

/-- The memories come up clean, but for the words that are stuck. -/
theorem State.bootOk_clean (s : State) (f : List Byte) (kat : Nat) :
    (s.bootStart.bootOk f kat).mem = [] ∧ (s.bootStart.bootOk f kat).larder = [] ∧
    ∀ b ∈ (s.bootStart.bootOk f kat).cel.bad, b ∈ s.cel.bad ∧ b.stuck = true := by
  have hk := s.bootStart.bootOk_changesOnly f kat
  have hcel : (s.bootStart.bootOk f kat).cel.bad = s.bootStart.cel.bad.filter (·.stuck) :=
    congrArg CelSt.bad (hk .cel (by decide))
  have hold : s.bootStart.cel = s.cel := s.bootStart_changesOnly .cel (by decide)
  refine ⟨hk .mem (by decide), hk .larder (by decide), fun b hb => ?_⟩
  rw [hcel, hold] at hb
  exact List.mem_filter.1 hb

/-! ### BOOT_CTL and the supplies (R458, R482, R491) -/

/-- The rails switch off: nothing but the field side, the supply and the test access port differs from a reset. -/
def State.switchesOff (s t : State) : Prop :=
  { t with field := {} } = { (s.resetFrom) with field := {}, boot := t.boot } ∧ s.returnsToReset t ∧ t.boot.power = false ∧
  t.boot.tap = s.module.tapReset ∧ t.field = { s.field with offAt := some s.field.ftime }

theorem State.powerOff_switchesOff (hc : s.canonical) : s.switchesOff s.powerOff := by
  refine ⟨?_, State.powerOff_returns hc, ?_, ?_, ?_⟩
  · simp only [State.powerOff]
  · simp only [State.powerOff]
  · simp only [State.powerOff, State.resetFrom, State.resetOf]
  · simp only [State.powerOff]

theorem State.resetFrom_power (s : State) : s.resetFrom.boot.power = true := by
  simp only [State.resetFrom, State.resetOf]

theorem exec_bootCtlReset_keyed (h : s.boot.power = true) (reset : Bool) :
    exec (.bootCtlReset 0xA5 reset) s = .next (if reset then s.resetFrom else s) := by
  rw [exec_bootCtlReset, execBootCtlReset, State.bootCtl, State.answers, h, if_neg (by decide), if_neg (by decide)]

theorem exec_bootCtlReset_wrongKey (h : s.boot.power = true) {key : BitVec 8} (hk : key ≠ 0xA5) (reset : Bool) :
    exec (.bootCtlReset key reset) s = .next (s.accessErr R.BOOT_CTL) := by
  have hn : key.toNat ≠ 0xA5 := fun e => hk (BitVec.eq_of_toNat_eq e)
  rw [exec_bootCtlReset, execBootCtlReset, State.bootCtl, State.answers, h, if_neg (by decide), if_pos hn]

theorem exec_bootCtlReset_off (h : s.boot.power = false) (key : BitVec 8) (reset : Bool) :
    exec (.bootCtlReset key reset) s = .next s := by
  rw [exec_bootCtlReset, execBootCtlReset, State.bootCtl, State.answers, h, if_pos (by decide)]

theorem exec_powerOn_eq (s : State) : exec .powerOn s = .next (if s.boot.power then s else s.resetFrom) := rfl
theorem exec_supplyDrop_eq (s : State) : exec .supplyDrop s = .next (if s.boot.power then s.powerOff else s) := rfl

/-- The trip limit of a sensor that has one (R458). -/
def tripDegrees (sensor : Nat) : Int := if sensor = 6 ∨ sensor = 7 then 105 else if sensor < 9 then 115 else 125

theorem tripLimit_eq (sensor : Fin 11) : tripLimit sensor.val = if sensor.val = 10 then none else some (tripDegrees sensor.val) := by
  decide +revert

theorem exec_thermalTrip_over (h : s.boot.power = true) {sensor : Fin 11} (hs : sensor.val < 10) {temp : BitVec 8}
    (ht : tripDegrees sensor.val < temp.toInt) : exec (.thermalTrip sensor temp) s = .next s.powerOff := by
  rw [exec_thermalTrip, execThermalTrip, tripLimit_eq, if_neg (Nat.ne_of_lt hs)]
  simp only [h, ht, decide_true, Bool.and_self, if_true]

theorem exec_thermalTrip_within {sensor : Fin 11} {temp : BitVec 8}
    (h : s.boot.power = false ∨ sensor.val = 10 ∨ temp.toInt ≤ tripDegrees sensor.val) :
    exec (.thermalTrip sensor temp) s = .next s := by
  rw [exec_thermalTrip, execThermalTrip, tripLimit_eq]
  by_cases hs : sensor.val = 10
  · rw [if_pos hs]
  · have hn : (s.boot.power && decide (tripDegrees sensor.val < temp.toInt)) = false := by
      rcases h with hp | h10 | ht
      · rw [hp, Bool.false_and]
      · exact absurd h10 hs
      · rw [decide_eq_false (not_lt.2 ht), Bool.and_false]
    rw [if_neg hs]
    simp only [gt_iff_lt, hn, Bool.false_eq_true, if_false]

/-- Settles O44: MODULE_RESET by the start of the boot sequence and its four ends, resets by what a reset leaves, fuses by the one
that is blown next. -/
theorem bootFusesAndResets : Obligations.BootFusesAndResets := by
  unfold Obligations.BootFusesAndResets
  intro s hc due isReset off stops recovers
  obtain ⟨hw, -⟩ := id hc
  have hreset : isReset s.resetFrom := State.resetFrom_returns hc
  have hoff : s.switchesOff s.powerOff := State.powerOff_switchesOff hc
  refine ⟨fun h readable kat => exec_moduleReset_idle h readable kat, fun readable kat h hn => ?unreadable,
    fun kat h hp hf => ?fails, fun kat h hp hf hl => ?good, fun kat h hp hf hl => ?dieLost, fun h => ?bootCtl,
    fun h key reset => exec_bootCtlReset_off h key reset, fun h => ?powered, fun h => ?unpowered, fun sensor temp => ?trip,
    exec_fuseBlow_idle, fun hr hb => ⟨fun hn hm => fuseBlow_count_completes hw hr hb hn hm,
      fun k hn hk hbit hl => fuseBlow_revoke_completes hw hr hb hn hk hbit hl⟩,
    fun cert word => bootCertSelect_completes hw cert word⟩
  case unreadable =>
    have hd := s.bootStart.draw_changesOnly
    exact ⟨_, exec_moduleReset_unreadable hw h hn kat, State.bootStart_recovers hw h (hd .regs (by decide)) (hd .link (by decide))
      ((hd .boot (by decide)).trans s.bootStart_boot) ((hd .mem (by decide)).trans (s.bootStart_changesOnly .mem (by decide))) _⟩
  case fails =>
    have hr := State.bootStart_recovers (u := s.bootStart) hw h rfl rfl s.bootStart_boot (s.bootStart_changesOnly .mem (by decide))
      (s.module.fwCode s.boot.slot)
    obtain ⟨-, -, -, hreason⟩ := State.recover_shows (State.bootStart_regsWithin hw).1 (s.module.fwCode s.boot.slot)
    rw [Nat.mod_eq_of_lt (Module.fwCode_lt ..)] at hreason
    exact ⟨_, exec_moduleReset_fails hw h hp (Nat.ne_of_gt hf) kat, hr.1, hr.2, hreason⟩
  case good =>
    obtain ⟨hstop, hready, hrec⟩ := State.bootOk_serves hw h s.boot.slot kat.toNat
    obtain ⟨hmem, hlarder, hbad⟩ := s.bootOk_clean s.boot.slot kat.toNat
    refine ⟨_, exec_moduleReset_good hw h hp hf hl kat, hstop, hready, hrec, hmem, hlarder, State.bootOk_running _ _ _, hbad,
      fun hnone => ?_, fun c hsome => State.bootOk_config_some (by rwa [State.bootStart_boot]) _ _⟩
    have hlost := State.bootOk_config_none (State.bootStart_regsWithin hw).1 (by rwa [State.bootStart_boot]) s.boot.slot kat.toNat
    rwa [State.bootStart_boot] at hlost
  case dieLost => exact ⟨_, exec_moduleReset_dieLost hw h hp hf hl kat, State.bootStart_waits hw h⟩
  case bootCtl =>
    exact ⟨⟨_, exec_bootCtlReset_keyed h true, hreset, s.resetFrom_power⟩, exec_bootCtlReset_keyed h false,
      fun key reset hk => exec_bootCtlReset_wrongKey h hk reset⟩
  case powered => exact ⟨by rw [exec_powerOn_eq, if_pos h], _, by rw [exec_supplyDrop_eq, if_pos h], hoff⟩
  case unpowered =>
    exact ⟨by rw [exec_supplyDrop_eq, h]; rfl, _, by rw [exec_powerOn_eq, h]; rfl, hreset, s.resetFrom_power⟩
  case trip => exact ⟨fun h hs ht => ⟨_, exec_thermalTrip_over h hs ht, hoff⟩, fun h => exec_thermalTrip_within h⟩

end Sys2Proof.Machine
end

section
/-! PROOFS, the part's journey (spec/01_part_journey.md): reset (O2, O3) and the invariant of every step (O4). -/

namespace Sys2Proof.Machine

/-- Settles O3: the registers of a reset are in canonical form whatever the module is, and every memory is empty. -/
theorem resetMeetsInvariant : Obligations.ResetMeetsInvariant :=
  ⟨State.resetOf_canonical _ _ _ _ _ _ rfl, rfl⟩

/-- The queue is no part of the invariant. -/
theorem State.Inv.with_pending {s : State} (h : s.Inv) (cs : List Instr) : ({ s with pending := cs } : State).Inv := h

/-- A command keeps the invariant. -/
theorem exec_keepsInv {i : Instr} {s t : State} (hs : s.Inv) (h : exec i s = .next t) : t.Inv := by
  obtain ⟨-, hc, hd⟩ := exec_keepsForm i s t h
  exact ⟨hc hs.1, hd hs.2⟩

/-- Settles O4, by the queue: an idle module stays as it is, and every command keeps the canonical form and the grid of DTIME. -/
theorem stepKeepsInvariant : Obligations.StepKeepsInvariant := by
  intro s t hs h
  unfold step at h
  cases hq : s.pending with
  | nil =>
    rw [hq] at h
    cases h
    exact hs
  | cons c cs =>
    rw [hq] at h
    exact exec_keepsInv (hs.with_pending cs) h

/-- Settles O2: what a reset does not build from the module's identity is empty or 0 by definition, and the fields are read off the
register tables. -/
theorem resetLeavesTableValues : Obligations.ResetLeavesTableValues :=
  ⟨⟨rfl, rfl, rfl, rfl, rfl, rfl, rfl, rfl, rfl, rfl, rfl, rfl, rfl, rfl⟩, fun _ => rfl, by decide +kernel, by decide +kernel⟩

end Sys2Proof.Machine
end
section
/-! SUPPORT. Web position: the channels, the tuples and the 64-bit registers after a write. -/

namespace Sys2Proof.Machine

variable {s t : State} {offs : List Nat}

/-! ### Lists -/

theorem setNth_eq_set {α : Type} (v : α) : ∀ (l : List α) (i : Nat), setNth l i v = l.set i v
  | [], _ => rfl
  | _ :: _, 0 => rfl
  | x :: xs, i + 1 => congrArg (x :: ·) (setNth_eq_set v xs i)

theorem length_setNth {α : Type} (l : List α) (i : Nat) (v : α) : (setNth l i v).length = l.length := by
  rw [setNth_eq_set, List.length_set]

theorem nth_setNth {α : Type} {l : List α} {i : Nat} (h : i < l.length) (j : Nat) (v d : α) :
    nth (setNth l i v) j d = if j = i then v else nth l j d := by
  unfold nth
  rw [setNth_eq_set, List.getD_eq_getElem?_getD, List.getD_eq_getElem?_getD, List.getElem?_set]
  by_cases hj : j = i
  · subst hj
    simp [h]
  · simp [hj, Ne.symm hj]

/-! ### Registers -/

/-- A latched W1C bit reads 1. -/
theorem State.flag_latch (h : sparseWf regDefault s.regs = true) {f : Fld} (hf : f.ok) : (s.latch f).flag f = true := by
  have hb : ((s.get f ||| 1) % 2 ^ (f.hi - f.lo + 1)).testBit 0 = true := by
    rw [Nat.testBit_mod_two_pow, Nat.testBit_lor]
    simp
  rw [State.flag, State.latch, State.get_latchBits h hf, bne_iff_ne]
  intro h0
  rw [h0, Nat.zero_testBit] at hb
  cases hb

/-- The word of a 64-bit register pair after it was written. -/
theorem State.get64_put64 (h : sparseWf regDefault s.regs = true) {a b : Nat} (hab : a ≠ b) (v : Nat) :
    (s.put64 ⟨a, 31, 0⟩ ⟨b, 31, 0⟩ v).get64 ⟨a, 31, 0⟩ ⟨b, 31, 0⟩ = v % 2 ^ 64 := by
  have ha : Fld.ok ⟨a, 31, 0⟩ := ⟨Nat.zero_le _, Nat.lt_succ_self _⟩
  have hb : Fld.ok ⟨b, 31, 0⟩ := ⟨Nat.zero_le _, Nat.lt_succ_self _⟩
  unfold State.get64 State.put64
  rw [State.get_put_apart (State.put_wf h _ _) hb (.inl hab), State.get_put_same h ha,
    State.get_put_same (State.put_wf h _ _) hb]
  dsimp only
  omega

theorem State.get64_put_apart (h : sparseWf regDefault s.regs = true) {f lo hi : Fld} (hf : f.ok) (hl : f.apart lo) (hh : f.apart hi)
    (v : Nat) : (s.put f v).get64 lo hi = s.get64 lo hi := by
  unfold State.get64
  rw [State.get_put_apart h hf hl, State.get_put_apart h hf hh]

theorem toU32_lt (z : Int) : toU32 z < 2 ^ 32 := by
  unfold toU32 toBits
  omega

theorem State.regsWithin.put64 (h : s.regsWithin offs t) {lo hi : Fld} (hl : lo.off ∈ offs) (hh : hi.off ∈ offs) (v : Nat) :
    s.regsWithin offs (t.put64 lo hi v) := (h.put hl _).put hh _

/-! ### Channels -/

theorem State.chan_setChan {n : Nat} (h : n < s.pos.chans.length) (m : Nat) (c : PosChan) :
    (s.setChan n c).chan m = if m = n then c else s.chan m := nth_setNth h m c {}

/-- Every channel's estimates restart (R44). -/
def State.restartChans (s : State) : State :=
  (List.range 4).foldl (fun (s : State) n => s.setChan n (s.chan n).restart) s

theorem State.restartChans_chan (h : s.pos.chans.length = 4) {n : Nat} (hn : n < 4) :
    s.restartChans.chan n = (s.chan n).restart := by
  obtain ⟨a, b, c, d, e⟩ : ∃ a b c d, s.pos.chans = [a, b, c, d] := List.length_eq_four.1 h
  have hs : ∀ m, s.chan m = nth [a, b, c, d] m {} := fun m => by rw [State.chan, e]
  have hr : s.restartChans.pos.chans = [a.restart, b.restart, c.restart, d.restart] := by
    simp [State.restartChans, State.setChan, State.chan, e, setNth, nth, List.range_succ]
  rw [hs, State.chan, hr]
  match n, hn with
  | 0, _ => rfl
  | 1, _ => rfl
  | 2, _ => rfl
  | 3, _ => rfl

/-- Position but for the channels. -/
theorem State.restartChans_pos : s.restartChans.pos = { s.pos with chans := s.restartChans.pos.chans } := rfl

theorem State.restartChans_congr (h : t.pos = s.pos) : t.restartChans.pos = s.restartChans.pos := by
  simp only [State.restartChans, State.setChan, State.chan, List.range_succ, List.range_zero, List.nil_append, List.cons_append,
    List.foldl_cons, List.foldl_nil, h]

theorem State.restartChans_regs : s.restartChans.regs = s.regs := rfl

/-! ### Tuples (R48, R49) -/

theorem State.bcastTuple_changesOnly (s : State) (x : Tuple) : s.changesOnly [.gts] (s.bcastTuple x) := by
  intro c hc
  have := closedGts_of_ne (s := s) (c := c) (by simpa using hc)
  exact State.bcastTuple_holds (G := fun t => c.same s t) Holds.same_refl

theorem State.sendTuple_changesOnly (s : State) (lost : Bool) : s.changesOnly [.pos, .gts] (s.sendTuple lost) := by
  intro c hc
  simp only [List.mem_cons, List.not_mem_nil, or_false, not_or] at hc
  obtain ⟨hp, hg⟩ := hc
  have := closedPos_of_ne (s := s) hp
  have := closedGts_of_ne (s := s) hg
  exact State.sendTuple_holds (G := fun t => c.same s t) Holds.same_refl

/-- A tuple that is sent takes the next SEQ and starts the cadence anew. -/
theorem State.sendTuple_pos (lost : Bool) : (s.sendTuple lost).pos = { s.pos with
    tupleSeq := u16 (s.pos.tupleSeq + 1), takeoverLeft := s.pos.takeoverLeft - 1, zeroLeft := s.pos.zeroLeft - 1,
    readsSinceTuple := 0 } := by
  have hp : (s.bcastTuple (s.tupleNow lost)).pos = s.pos := s.bcastTuple_changesOnly _ .pos (by decide)
  unfold State.sendTuple
  dsimp only
  rw [hp]

theorem State.sendTuple_regs (lost : Bool) : (s.sendTuple lost).regs = s.regs :=
  s.sendTuple_changesOnly lost .regs (by decide)

end Sys2Proof.Machine
end
section
/-! PROOFS, web position: loss of position, takeover, tuples and the snapshot, and what settles O14. -/

namespace Sys2Proof.Machine

variable {s t : State} {offs : List Nat}

/-! ### Loss of position (R46, R80) -/

/-- POS_LOST is set and line stop requested: the first step of a loss. -/
def State.positionStop (s : State) : State := (s.raise R.POS_STATUS.POS_LOST).lineStop .position

theorem State.positionStop_changesOnly (s : State) : s.changesOnly [.regs, .link, .loft] s.positionStop := by
  intro c hc
  simp only [List.mem_cons, List.not_mem_nil, or_false, not_or] at hc
  obtain ⟨hr, hl, ho⟩ := hc
  have := closedRegs_of_ne (s := s) hr
  have := closedLink_of_ne (s := s) hl
  have := closedLoft_of_ne (s := s) ho
  exact State.lineStop_holds (G := fun t => c.same s t) (State.raise_holds Holds.same_refl)

theorem State.positionStop_regsWithin (h : sparseWf regDefault s.regs = true) :
    s.regsWithin (R.POS_STATUS :: lineStopOffsets) s.positionStop :=
  ((State.regsWithin_refl h).raise (.head _)).lineStop (List.subset_cons_self ..) _

theorem State.positionStop_lost (h : sparseWf regDefault s.regs = true) : s.positionStop.flag R.POS_STATUS.POS_LOST = true := by
  have hl := (State.regsWithin_refl (State.put_wf h R.POS_STATUS.POS_LOST 1)).lineStop (List.Subset.refl lineStopOffsets) .position
  exact (hl.flag (by decide) (by decide)).trans (State.flag_raise h ⟨by decide, by decide⟩)

theorem State.positionStop_cause (h : sparseWf regDefault s.regs = true) :
    bit (s.positionStop.get R.FLD_LS_CAUSE.CAUSE) 2 = true := by
  rw [State.positionStop, State.raise, State.lineStop_get (State.put_wf h _ _), bit_eq_testBit, Nat.testBit_lor]
  exact Bool.or_true _

/-- PULSEs that wait for speed are dropped (log entry 13). -/
def State.noWaiting (s : State) : State := { s with seq := { s.seq with waiting := [] } }

theorem State.liveParts_congr (h : t.seq = s.seq) : t.liveParts = s.liveParts := by
  unfold State.liveParts
  rw [h]

theorem State.partsLost_idle (hp : s.liveParts = []) (hf : s.seq.frames = []) : s.partsLost = s.noWaiting := by
  simp [State.partsLost, State.noWaiting, hp, hf]

/-- A loss with nothing in flight, up to the speed shown and the base: a master tells it (R49). -/
def State.idleLoss (s : State) : State :=
  let t := s.positionStop.noWaiting.restartChans
  if s.role == 1 then t.sendTuple true else t

theorem State.losePosition_idle (hp : s.liveParts = []) (hf : s.seq.frames = []) : s.losePosition =
    { s.idleLoss.put R.POS_SNAP_SPEED.N 0 with pos := { s.idleLoss.pos with nextBase := none, newBase := false } } := by
  have hs : s.positionStop.seq = s.seq := s.positionStop_changesOnly .seq (by decide)
  have hl : s.positionStop.partsLost = s.positionStop.noWaiting :=
    State.partsLost_idle ((State.liveParts_congr hs).trans hp) (by rw [hs, hf])
  unfold State.idleLoss
  rw [← hl]
  rfl

theorem State.idleLoss_changesOnly (s : State) : s.changesOnly [.regs, .pos, .seq, .link, .loft, .gts] s.idleLoss := by
  intro c hc
  simp only [List.mem_cons, List.not_mem_nil, or_false, not_or] at hc
  obtain ⟨hr, hp, hq, hl, ho, hg⟩ := hc
  have := closedRegs_of_ne (s := s) hr
  have := closedPos_of_ne (s := s) hp
  have := closedSeq_of_ne (s := s) hq
  have := closedLink_of_ne (s := s) hl
  have := closedLoft_of_ne (s := s) ho
  have := closedGts_of_ne (s := s) hg
  have hstop : Holds (fun t => c.same s t) s.positionStop := State.lineStop_holds (State.raise_holds Holds.same_refl)
  have hchans : Holds (fun t => c.same s t) s.positionStop.noWaiting.restartChans :=
    Holds.foldl (Holds.seq hstop) fun _ _ h => State.setChan_holds h
  exact Holds.ite (G := fun t => c.same s t) (State.sendTuple_holds hchans) hchans

theorem State.idleLoss_regs (s : State) : s.idleLoss.regs = s.positionStop.regs := by
  unfold State.idleLoss
  dsimp only
  split
  · exact State.sendTuple_regs _
  · rfl

theorem State.idleLoss_waiting (s : State) : s.idleLoss.seq.waiting = [] := by
  unfold State.idleLoss
  dsimp only
  split
  · exact congrArg SeqSt.waiting (State.sendTuple_changesOnly _ true .seq (by decide))
  · rfl

/-- Position but for the channels and the tuples' counts stays, and every channel restarts. -/
theorem State.idleLoss_pos (s : State) : s.idleLoss.pos.wpos = s.pos.wpos ∧ s.idleLoss.pos.chans = s.restartChans.pos.chans := by
  have hp : s.positionStop.noWaiting.pos = s.pos := s.positionStop_changesOnly .pos (by decide)
  have hr : s.positionStop.noWaiting.restartChans.pos = s.restartChans.pos := State.restartChans_congr hp
  unfold State.idleLoss
  dsimp only
  split
  · rw [State.sendTuple_pos, hr]
    exact ⟨rfl, rfl⟩
  · rw [hr]
    exact ⟨rfl, rfl⟩

theorem posLost_completes (hw : sparseWf regDefault s.regs = true) (hd : s.holdDueNow = true) (hp : s.liveParts = [])
    (hf : s.seq.frames = []) (h4 : s.pos.chans.length = 4) :
    s.completes .posLost [.regs, .pos, .seq, .link, .loft, .gts] (R.POS_STATUS :: R.POS_SNAP_SPEED :: lineStopOffsets) (fun t =>
      t.get R.POS_SNAP_SPEED.N = 0 ∧ t.flag R.POS_STATUS.POS_LOST = true ∧ bit (t.get R.FLD_LS_CAUSE.CAUSE) 2 = true ∧
      t.pos.wpos = s.pos.wpos ∧ t.seq.waiting = [] ∧ t.pos.nextBase = none ∧
      ∀ n, n < 4 → (t.chan n).v = 0 ∧ (t.chan n).history = [] ∧ (t.chan n).anchor = none) := by
  obtain ⟨hstop, hkeep⟩ := State.positionStop_regsWithin hw
  have hwl : sparseWf regDefault s.idleLoss.regs = true := by rwa [State.idleLoss_regs]
  obtain ⟨hwpos, hchans⟩ := s.idleLoss_pos
  have hother {f : Fld} (hne : R.POS_SNAP_SPEED ≠ f.off) :
      (s.idleLoss.put R.POS_SNAP_SPEED.N 0).get f = s.positionStop.get f :=
    (State.get_put_apart hwl ⟨by decide, by decide⟩ (.inl hne.symm) 0).trans (State.get_of_regs s.idleLoss_regs f)
  have hexec : exec .posLost s = .next s.losePosition := by rw [exec_posLost, execPosLost, if_pos hd]
  rw [State.losePosition_idle hp hf] at hexec
  refine ⟨_, hexec, ?frame, ?regs, State.get_put_same hwl ⟨by decide, by decide⟩ 0, ?lost, ?cause, hwpos, s.idleLoss_waiting, rfl,
    fun n hn => ?chans⟩
  case frame =>
    intro c hc
    have hs := s.idleLoss_changesOnly c hc
    simp only [List.mem_cons, List.not_mem_nil, or_false, not_or] at hc
    obtain ⟨hr, hp, -⟩ := hc
    have := closedRegs_of_ne (s := s) hr
    have := closedPos_of_ne (s := s) hp
    exact Holds.pos (G := fun t => c.same s t) (State.put_holds hs)
  case regs =>
    have hin : s.regsWithin (R.POS_STATUS :: R.POS_SNAP_SPEED :: lineStopOffsets) s.idleLoss :=
      ⟨hwl, fun o hl hn => (congrArg (sparseGet regDefault · o) s.idleLoss_regs).trans
        (hkeep o hl fun hm => hn (by
          rcases List.mem_cons.1 hm with rfl | hm
          · exact .head _
          · exact .tail _ (.tail _ hm)))⟩
    exact (hin.put (.tail _ (.head _)) 0).2
  case lost =>
    exact (congrArg (· != 0) (hother (by decide))).trans (State.positionStop_lost hw)
  case cause =>
    exact (congrArg (bit · 2) (hother (by decide))).trans (State.positionStop_cause hw)
  case chans =>
    have hc : s.idleLoss.chan n = (s.chan n).restart := by
      rw [← State.restartChans_chan h4 hn, State.chan, hchans, State.chan]
    exact ⟨congrArg PosChan.v hc, congrArg PosChan.history hc, congrArg PosChan.anchor hc⟩

/-! ### Takeover (R52) -/

/-- The registers that show a takeover: the step in WPOS, FAILED_OVER and the role of a master. -/
def State.showTakeover (s : State) (step : Nat) : State :=
  ((s.put R.POS_FAILOVER_STEP.N step).latch R.POS_STATUS.FAILED_OVER).put R.POS_STATUS.ROLE_NOW 1

theorem State.regsWithin.showTakeover (h : s.regsWithin [R.POS_FAILOVER_STEP, R.POS_STATUS] t) (step : Nat) :
    s.regsWithin [R.POS_FAILOVER_STEP, R.POS_STATUS] (t.showTakeover step) :=
  ((h.put (f := R.POS_FAILOVER_STEP.N) (.head _) _).latch (f := R.POS_STATUS.FAILED_OVER) (.tail _ (.head _))).put
    (.tail _ (.head _)) _

theorem State.showTakeover_shows (h : sparseWf regDefault s.regs = true) (step : Nat) :
    (s.showTakeover step).get R.POS_FAILOVER_STEP.N = step % 2 ^ 32 ∧
    (s.showTakeover step).flag R.POS_STATUS.FAILED_OVER = true ∧ (s.showTakeover step).role = 1 := by
  have h1 := State.put_wf h R.POS_FAILOVER_STEP.N step
  have hl := (State.regsWithin_refl (offs := [R.POS_STATUS]) h1).latch (f := R.POS_STATUS.FAILED_OVER) (.head _)
  refine ⟨?_, ?_, State.get_put_same hl.1 ⟨by decide, by decide⟩ 1⟩
  · rw [State.showTakeover, State.get_put_apart hl.1 ⟨by decide, by decide⟩ (.inl (by decide)), hl.get (by decide) (by decide)]
    exact State.get_put_same h ⟨by decide, by decide⟩ step
  · rw [State.showTakeover, State.flag, State.get_put_apart hl.1 ⟨by decide, by decide⟩ (.inr (.inr (by decide)))]
    exact State.flag_latch h1 ⟨by decide, by decide⟩

/-- The web position that a standby takes over with. -/
def State.takeoverWpos (s : State) : Nat :=
  let mine := ((s.chan s.source).baseOf (s.pos.zeroNm - s.pos.dAvg)).target s.dtime
  if mine > i64 s.pos.wpos then toU64 mine else s.pos.wpos

/-- The step in WPOS as shown: a free value where it does not fit (log entry 9). -/
def State.takeoverStep (s : State) : Nat :=
  if s.takeoverWpos - s.pos.wpos < 2 ^ 32 then s.takeoverWpos - s.pos.wpos else s.draw.1.toNat

/-- A step that does not fit draws that free value. -/
def State.takeoverDraw (s : State) : State := if s.takeoverWpos - s.pos.wpos < 2 ^ 32 then s else s.draw.2

theorem State.takeOver_regs (s : State) : s.takeOver.regs = (s.takeoverDraw.showTakeover s.takeoverStep).regs := rfl

theorem State.takeOver_pos (s : State) : s.takeOver.pos =
    { s.takeoverDraw.pos with
      wpos := s.takeoverWpos, zeroNm := s.pos.zeroNm - s.pos.dAvg
      nextBase := some ((s.chan s.source).baseOf (s.pos.zeroNm - s.pos.dAvg)), takeoverLeft := 256, lostTuple := false
      master := some ((s.takeoverDraw.showTakeover s.takeoverStep).get R.GTS_CFG.ID), holdArmed := true
      holdStart := s.takeoverDraw.pos.lastGood } := rfl

theorem State.takeoverDraw_regs (s : State) : s.takeoverDraw.regs = s.regs := by
  unfold State.takeoverDraw
  split <;> rfl

theorem takeover_completes (hw : sparseWf regDefault s.regs = true) (hd : s.takeoverDue = true) :
    s.completes .takeover [.regs, .free, .pos] [R.POS_FAILOVER_STEP, R.POS_STATUS] (fun t =>
      t.pos.wpos = s.takeoverWpos ∧
      (s.takeoverWpos - s.pos.wpos < 2 ^ 32 → t.get R.POS_FAILOVER_STEP.N = s.takeoverWpos - s.pos.wpos) ∧
      t.flag R.POS_STATUS.FAILED_OVER = true ∧ t.role = 1 ∧ t.pos.takeoverLeft = 256 ∧
      t.pos.master = some (s.get R.GTS_CFG.ID)) := by
  have hwd : sparseWf regDefault s.takeoverDraw.regs = true := by rwa [State.takeoverDraw_regs]
  have hin : s.regsWithin [R.POS_FAILOVER_STEP, R.POS_STATUS] (s.takeoverDraw.showTakeover s.takeoverStep) :=
    ((State.regsWithin_refl hw).of_regs s.takeoverDraw_regs).showTakeover _
  obtain ⟨hstep, hover, hrole⟩ := State.showTakeover_shows hwd s.takeoverStep
  have hexec : exec .takeover s = .next s.takeOver := by rw [exec_takeover, execTakeover, if_pos hd]
  have hget (f : Fld) := State.get_of_regs s.takeOver_regs f
  refine ⟨_, hexec, exec_changesOnly .takeover s _ hexec, (hin.of_regs s.takeOver_regs).2, by rw [State.takeOver_pos],
    fun hlt => ?_, (congrArg (· != 0) (hget _)).trans hover, (hget _).trans hrole, by rw [State.takeOver_pos], ?_⟩
  · rw [hget, hstep, State.takeoverStep, if_pos hlt, Nat.mod_eq_of_lt hlt]
  · rw [State.takeOver_pos]
    exact congrArg some (hin.get (by decide) (by decide))

/-! ### Tuples and the snapshot (R20, R49) -/

/-- A master with a position sends a tuple after DIV reads of its source, and after one at least. -/
def State.tupleDue (s : State) : Prop :=
  s.role = 1 ∧ s.flag R.POS_STATUS.POS_LOST = false ∧ 0 < s.pos.readsSinceTuple ∧ s.get R.POS_BCAST.DIV ≤ s.pos.readsSinceTuple

theorem exec_posTupleSend_due (h : s.tupleDue) : exec .posTupleSend s = .next (s.sendTuple false) := by
  obtain ⟨hr, hl, h0, hd⟩ := h
  rw [exec_posTupleSend, execPosTupleSend]
  simp [hr, hl, h0, hd]

theorem exec_posTupleSend_idle (h : ¬ s.tupleDue) : exec .posTupleSend s = .next s := by
  rw [exec_posTupleSend, execPosTupleSend, if_neg]
  simp only [Bool.and_eq_true, decide_eq_true_eq, Bool.not_eq_true']
  rintro ⟨⟨⟨hr, hd⟩, hl⟩, h0⟩
  exact h ⟨hr, hl, h0, hd⟩

theorem posTupleSend_completes (h : s.tupleDue) : s.completes .posTupleSend [.pos, .gts] [] (fun t =>
    t.pos = { s.pos with tupleSeq := u16 (s.pos.tupleSeq + 1), takeoverLeft := s.pos.takeoverLeft - 1,
                         zeroLeft := s.pos.zeroLeft - 1, readsSinceTuple := 0 }) :=
  ⟨_, exec_posTupleSend_due h, exec_changesOnly .posTupleSend s _ (exec_posTupleSend_due h),
    fun o _ _ => congrArg (sparseGet regDefault · o) (State.sendTuple_regs false), State.sendTuple_pos false⟩

theorem posSnapTake_completes (hw : sparseWf regDefault s.regs = true) (hs : s.serves) :
    s.completes .posSnapTake [.regs] [R.POS_SNAP_WPOS_LO, R.POS_SNAP_WPOS_HI, R.POS_SNAP_DTIME_LO, R.POS_SNAP_DTIME_HI,
        R.POS_SNAP_SPEED] (fun t =>
      t.get64 R.POS_SNAP_WPOS_LO.N R.POS_SNAP_WPOS_HI.N = s.pos.wpos % 2 ^ 64 ∧
      t.get64 R.POS_SNAP_DTIME_LO.N R.POS_SNAP_DTIME_HI.N = s.dtime % 2 ^ 64 ∧ t.get R.POS_SNAP_SPEED.N = toU32 s.speed) := by
  obtain ⟨hp, hr⟩ := hs
  have hexec : exec .posSnapTake s = .next s.posSnap := by
    rw [exec_posSnapTake, execPosSnapTake, State.written, State.answers, State.inUse, hp, hr]
    rfl
  have h1 : s.regsWithin [R.POS_SNAP_WPOS_LO, R.POS_SNAP_WPOS_HI, R.POS_SNAP_DTIME_LO, R.POS_SNAP_DTIME_HI, R.POS_SNAP_SPEED]
      (s.put64 R.POS_SNAP_WPOS_LO.N R.POS_SNAP_WPOS_HI.N s.pos.wpos) :=
    (State.regsWithin_refl hw).put64 (by decide) (by decide) _
  have h2 := h1.put64 (lo := R.POS_SNAP_DTIME_LO.N) (hi := R.POS_SNAP_DTIME_HI.N) (by decide) (by decide) s.dtime
  refine ⟨_, hexec, exec_changesOnly .posSnapTake s _ hexec, (h2.put (by decide) _).2, ?_, ?_, ?_⟩
  · rw [State.posSnap, State.get64_put_apart h2.1 ⟨by decide, by decide⟩ (.inl (by decide)) (.inl (by decide))]
    unfold State.put64 at h1 ⊢
    rw [State.get64_put_apart (State.put_wf h1.1 _ _) ⟨by decide, by decide⟩ (.inl (by decide)) (.inl (by decide)),
      State.get64_put_apart h1.1 ⟨by decide, by decide⟩ (.inl (by decide)) (.inl (by decide))]
    exact State.get64_put64 hw (by decide) s.pos.wpos
  · rw [State.posSnap, State.get64_put_apart h2.1 ⟨by decide, by decide⟩ (.inl (by decide)) (.inl (by decide))]
    exact State.get64_put64 h1.1 (by decide) s.dtime
  · exact (State.get_put_same h2.1 ⟨by decide, by decide⟩ _).trans (Nat.mod_eq_of_lt (toU32_lt _))

/-- Settles O14: each command by whether it is due. -/
theorem positionLossTakeoverTuplesSnapshot : Obligations.PositionLossTakeoverTuplesSnapshot := by
  intro s hc
  obtain ⟨hw, -⟩ := id hc
  refine ⟨fun h => ?_, fun hd hp hf h4 => posLost_completes hw hd hp hf h4, fun h => ?_, fun hd => takeover_completes hw hd,
    ⟨fun h => exec_posTupleSend_idle h, fun h => posTupleSend_completes h⟩, fun hs => posSnapTake_completes hw hs⟩
  · rw [exec_posLost, execPosLost, h]
    rfl
  · rw [exec_takeover, execTakeover, h]
    rfl

end Sys2Proof.Machine
end
section
/-! PROOFS, the position sequencer: a DECISION of a part whose channel is no output refutes O18. -/

namespace Sys2Proof.Machine

/-- A channel beyond the sixteen outputs: a part in the part table is not held to one of them. -/
def strayChannel : Nat := 0x1BF42

/-- The offset at which the PULSE_US of that channel is read is the counter of late verdicts. -/
theorem pulse_strayChannel : R.PSQ_Q_PULSE strayChannel = R.SDG_CNT_LATE := rfl

/-- The DECISION entry of part 0, due at WPOS 0. -/
def strayEntry : SeqEntry := { valid := true, action := 6 }

/-- After reset, with the sequencer enabled and lane 0 ejecting rejects. -/
def strayModule : State := (State.reset.put R.PSQ_CTL.ENABLE 1).put (R.PSQ_LANE_CFG.EJECT 0) 1

/-- That module with a CLOSED part 0, on the stray channel and without a result, and its DECISION entry. -/
def strayState : State := { strayModule with seq := { strayModule.seq with
  entries := [(57344, strayEntry)], parts := [(0, { core := { state := .closed, channel := strayChannel } })] } }

theorem strayState_canonical : strayState.canonical := by
  obtain ⟨⟨hr, hm, hl, ho⟩, -⟩ := resetMeetsInvariant
  have hw : sparseWf regDefault strayModule.regs = true := State.put_wf (State.put_wf hr R.PSQ_CTL.ENABLE 1) (R.PSQ_LANE_CFG.EJECT 0) 1
  exact ⟨hw, hm, hl, ho⟩

theorem strayState_calm : strayState.calm := by
  refine ⟨rfl, fun e he => absurd he List.not_mem_nil, ?_, .inl ⟨by decide +kernel, rfl⟩⟩
  decide +kernel

theorem strayState_due : strayState.nextDue = some (56, 57344, strayEntry) := by decide +kernel

/-- The pulse widths of the frames that wait in the state that an outcome gives. -/
def waitingWidths : Host.Outcome State Fault Refusal → List Nat
  | .next t => t.seq.waiting.map (·.2.width)
  | _ => []

/-- After the DECISION a frame of 1 us waits. -/
theorem strayState_widths : waitingWidths (exec .decision strayState) = [1000] := by decide +kernel

/-- Before it, the registers give the frame no width. -/
theorem strayState_width : (strayState.partSrc 0 (strayState.part 0)).width = 0 := by decide +kernel

/-- Refutes O18: nothing bounds the channel of a part by the sixteen outputs. The verdict of the stray part is REJECT_LATE, which
SDG_CNT_LATE counts before the eject is offered, and PULSE_US of its channel stands at the offset of that counter: the frame that
waits has a pulse of 1 us, where the registers before the DECISION give it none. -/
theorem not_decisionFixesVerdictAndArms : ¬ Obligations.DecisionFixesVerdictAndArms := by
  intro h
  obtain ⟨u, hu, -, -, hwaits, -⟩ :=
    h strayState 56 57344 strayEntry strayState_canonical strayState_calm strayState_due rfl rfl rfl rfl (.inl rfl)
  obtain ⟨-, -, hw, -⟩ := hwaits (.inl ⟨by decide +kernel, by decide +kernel⟩) (by decide +kernel)
  have hmap : u.seq.waiting.map (·.2.width) = [1000] := by simpa only [hu, waitingWidths] using strayState_widths
  have hone : [(strayState.partSrc 0 (strayState.part 0)).width] = [1000] := by rwa [hw] at hmap
  rw [strayState_width] at hone
  exact absurd hone (by decide)

end Sys2Proof.Machine
end

section
/-! PROOFS, web position: a read of an encoder is judged (R36, R37, R45), and what settles O13. -/

namespace Sys2Proof.Machine

variable {s t : State} {offs : List Nat} {n : Nat}

/-! ### Fields by their bits -/

/-- A field whose bits are numerals lies in its register. -/
theorem Fld.ok_of {f : Fld} (h : (decide (f.lo ≤ f.hi) && decide (f.hi < 32)) = true) : f.ok := by
  simpa [Fld.ok] using h

/-- Two fields whose bits are numerals and do not overlap. -/
theorem Fld.apart_of {f g : Fld} (h : (decide (g.lo ≤ g.hi) && decide (g.hi < f.lo) || decide (f.hi < g.lo)) = true) : f.apart g := by
  simp only [Bool.or_eq_true, Bool.and_eq_true, decide_eq_true_eq] at h
  exact .inr h

theorem State.regsWithin.putFlag (h : s.regsWithin offs t) {f : Fld} (hf : f.off ∈ offs) (b : Bool) :
    s.regsWithin offs (t.putFlag f b) := h.put hf _

/-- A flag read after it was written. -/
theorem State.flag_putFlag (h : sparseWf regDefault s.regs = true) {f : Fld} (hf : f.ok) (b : Bool) : (s.putFlag f b).flag f = b := by
  cases b
  · exact congrArg (· != 0) (State.get_drop h hf)
  · exact State.flag_raise h hf

theorem State.flag_put_apart (h : sparseWf regDefault s.regs = true) {f g : Fld} (hf : f.ok) (hg : f.apart g) (v : Nat) :
    (s.put f v).flag g = s.flag g := congrArg (· != 0) (State.get_put_apart h hf hg v)

/-- A field that is left alone counts nothing. -/
theorem State.counts_zero {f : Fld} (h : t.get f = s.get f) : s.counts f 0 t := by
  have := s.get_lt f
  unfold State.counts
  omega

/-! ### A judged read (R37, R45) -/

/-- The place of a status among the six-bit counters of POS_En_ERR. -/
def ReadStatus.place : ReadStatus → Nat
  | .chk => 0 | .errb => 1 | .noresp => 2 | .jump => 3 | .stuck => 4 | .good => 5

/-- The counter of a discarded read. -/
def ReadStatus.counter (n : Nat) (st : ReadStatus) : Fld := ⟨R.POS_E_ERR n, 6 * st.place + 5, 6 * st.place⟩

theorem ReadStatus.place_inj {a b : ReadStatus} (h : a.place = b.place) : a = b := by
  revert h
  cases a <;> cases b <;> decide

theorem ReadStatus.place_lt {st : ReadStatus} (h : st ≠ .good) : st.place < 5 := by
  cases st with
  | good => exact absurd rfl h
  | _ => decide

theorem ReadStatus.counter_ok {st : ReadStatus} (h : st ≠ .good) : (st.counter n).ok := by
  have := ReadStatus.place_lt h
  unfold Fld.ok ReadStatus.counter
  dsimp only
  omega

theorem ReadStatus.counter_apart {a b : ReadStatus} (h : a ≠ b) : (a.counter n).apart (b.counter n) := by
  have : a.place ≠ b.place := fun e => h (ReadStatus.place_inj e)
  unfold Fld.apart ReadStatus.counter
  dsimp only
  omega

theorem State.countRead_eq {st : ReadStatus} (h : st ≠ .good) : s.countRead n st = s.bump (st.counter n) := by
  cases st with
  | good => exact absurd rfl h
  | _ => rfl

/-- A discarded read counts in the counter of its status, and in no other. -/
theorem State.counts_countRead (hw : sparseWf regDefault s.regs = true) {st e : ReadStatus} (hst : st ≠ .good) :
    s.counts (e.counter n) (if e = st then 1 else 0) (s.countRead n st) := by
  rw [State.countRead_eq hst]
  split
  · next he =>
    subst he
    exact State.counts_bump hw (ReadStatus.counter_ok hst)
  · next he => exact State.counts_zero (State.get_put_apart hw (ReadStatus.counter_ok hst) (ReadStatus.counter_apart (Ne.symm he)) _)

theorem State.regsWithin.countRead (h : s.regsWithin offs t) {st : ReadStatus} (hst : st ≠ .good) (ho : R.POS_E_ERR n ∈ offs) :
    s.regsWithin offs (t.countRead n st) := by
  rw [State.countRead_eq hst]
  exact h.bump ho

/-- LAST shows the status. -/
def State.showLast (s : State) (n : Nat) (st : ReadStatus) : State := s.put (R.POS_E_WORD_HI.LAST n) st.code

theorem State.markRead_eq (st : ReadStatus) : s.markRead n st = if ((s.showLast n st).countRead n st).source = n
    then ((s.showLast n st).countRead n st).putFlag R.POS_STATUS.EXTRAP (st != .good) else (s.showLast n st).countRead n st := rfl

/-- What a judged read shows, whatever its status; the counters are kept apart. -/
theorem State.shown_countRead (hw : sparseWf regDefault s.regs = true) (st : ReadStatus) :
    sparseWf regDefault ((s.showLast n st).countRead n st).regs = true ∧
    ∀ f : Fld, f.off ≠ R.POS_E_ERR n → ((s.showLast n st).countRead n st).get f = (s.showLast n st).get f := by
  have h1 : sparseWf regDefault (s.showLast n st).regs = true := State.put_wf hw _ _
  by_cases hst : st = .good
  · subst hst
    exact ⟨h1, fun _ _ => rfl⟩
  · rw [State.countRead_eq hst]
    exact ⟨State.put_wf h1 _ _, fun f hf => State.get_put_apart h1 (ReadStatus.counter_ok hst) (.inl hf) _⟩

theorem State.get_showLast (hw : sparseWf regDefault s.regs = true) (st : ReadStatus) {f : Fld} (hf : f.off ≠ R.POS_E_WORD_HI n) :
    (s.showLast n st).get f = s.get f := State.get_put_apart hw (Fld.ok_of rfl) (.inl hf) _

/-- The offsets of the channels' registers differ from those of the block's common registers and from each other. -/
theorem channel_offsets (n : Nat) : R.POS_STATUS ≠ R.POS_E_ERR n ∧ R.POS_STATUS ≠ R.POS_E_WORD_HI n ∧ R.POS_STATUS ≠ R.POS_E_WORD_LO n ∧
    R.POS_CTL ≠ R.POS_E_ERR n ∧ R.POS_CTL ≠ R.POS_E_WORD_HI n ∧ R.POS_E_WORD_HI n ≠ R.POS_E_ERR n ∧
    R.POS_E_WORD_HI n ≠ R.POS_E_WORD_LO n := by
  unfold R.POS_STATUS R.POS_E_ERR R.POS_E_WORD_HI R.POS_E_WORD_LO R.POS_CTL
  omega

/-- The state that a judged read leaves, but for the flag EXTRAP of the source. -/
theorem State.source_shown (hw : sparseWf regDefault s.regs = true) (st : ReadStatus) :
    ((s.showLast n st).countRead n st).source = s.source := by
  obtain ⟨-, -, -, hc, hh, -⟩ := channel_offsets n
  exact ((State.shown_countRead hw st).2 _ hc).trans (State.get_showLast hw st hh)

/-- A field outside the channel's registers and other than EXTRAP keeps its value as a read is judged. -/
theorem State.get_markRead (hw : sparseWf regDefault s.regs = true) (st : ReadStatus) {f : Fld} (he : f.off ≠ R.POS_E_ERR n)
    (hh : f.off ≠ R.POS_E_WORD_HI n) (hx : R.POS_STATUS.EXTRAP.apart f) : (s.markRead n st).get f = s.get f := by
  obtain ⟨h1, hk⟩ := State.shown_countRead (n := n) hw st
  have hf := (hk f he).trans (State.get_showLast hw st hh)
  rw [State.markRead_eq]
  split
  · exact (State.get_put_apart h1 (Fld.ok_of rfl) hx _).trans hf
  · exact hf

theorem State.markRead_last (hw : sparseWf regDefault s.regs = true) (st : ReadStatus) :
    (s.markRead n st).get (R.POS_E_WORD_HI.LAST n) = st.code := by
  obtain ⟨hs, -, -, -, -, hhe, -⟩ := channel_offsets n
  obtain ⟨h1, hk⟩ := State.shown_countRead (n := n) hw st
  have hl : ((s.showLast n st).countRead n st).get (R.POS_E_WORD_HI.LAST n) = st.code := by
    rw [hk _ hhe, State.showLast, State.get_put_same hw (Fld.ok_of rfl)]
    cases st <;> rfl
  obtain ⟨-, hsh, -⟩ := channel_offsets n
  rw [State.markRead_eq]
  split
  · exact (State.get_put_apart h1 (Fld.ok_of rfl) (.inl hsh.symm) _).trans hl
  · exact hl

theorem State.markRead_extrap (hw : sparseWf regDefault s.regs = true) (st : ReadStatus) (hn : s.source = n) :
    (s.markRead n st).flag R.POS_STATUS.EXTRAP = (st != .good) := by
  rw [State.markRead_eq, if_pos ((State.source_shown hw st).trans hn)]
  exact State.flag_putFlag (State.shown_countRead hw st).1 (Fld.ok_of rfl) _

theorem State.markRead_source (hw : sparseWf regDefault s.regs = true) (st : ReadStatus) : (s.markRead n st).source = s.source := by
  obtain ⟨-, -, -, hc, hh, -⟩ := channel_offsets n
  exact State.get_markRead hw st hc hh (.inl (by decide))

theorem State.regsWithin.markRead_discarded (h : s.regsWithin offs t) {st : ReadStatus} (hst : st ≠ .good) (he : R.POS_E_ERR n ∈ offs)
    (hh : R.POS_E_WORD_HI n ∈ offs) (hx : R.POS_STATUS ∈ offs) : s.regsWithin offs (t.markRead n st) := by
  have hc : s.regsWithin offs ((t.showLast n st).countRead n st) := (h.put (f := R.POS_E_WORD_HI.LAST n) hh _).countRead hst he
  rw [State.markRead_eq]
  exact (hc.putFlag (f := R.POS_STATUS.EXTRAP) hx _).ite hc

theorem State.regsWithin.markRead_good (h : s.regsWithin offs t) (hh : R.POS_E_WORD_HI n ∈ offs) (hx : R.POS_STATUS ∈ offs) :
    s.regsWithin offs (t.markRead n .good) := by
  have hc : s.regsWithin offs (t.showLast n .good) := h.put (f := R.POS_E_WORD_HI.LAST n) hh _
  rw [State.markRead_eq]
  exact (State.regsWithin.putFlag (f := R.POS_STATUS.EXTRAP) hc hx _).ite hc

theorem State.markRead_pos (st : ReadStatus) : (s.markRead n st).pos = s.pos := by
  have := closedRegs_of_ne (s := s) (c := .pos) (by decide)
  exact State.markRead_holds (G := fun t => Comp.pos.same s t) Holds.same_refl

/-! ### A discarded read (R37) -/

/-- The counters of discarded reads as POS_En_ERR holds them. -/
theorem mem_read_counters {e : ReadStatus × Fld} (h : e ∈ [(ReadStatus.noresp, R.POS_E_ERR.NORESP n), (.chk, R.POS_E_ERR.CHK n),
    (.errb, R.POS_E_ERR.ERRB n), (.jump, R.POS_E_ERR.JUMP n), (.stuck, R.POS_E_ERR.STUCK n)]) :
    e.2 = e.1.counter n := by
  simp only [List.mem_cons, List.not_mem_nil, or_false] at h
  rcases h with rfl | rfl | rfl | rfl | rfl <;> rfl

theorem State.discardRead_eq (request : Nat) (st : ReadStatus) : s.discardRead n request st =
    if (s.markRead n st).source = n then (s.markRead n st).countToTuple request else s.markRead n st := rfl

theorem State.discardRead_regs (request : Nat) (st : ReadStatus) : (s.discardRead n request st).regs = (s.markRead n st).regs := by
  rw [State.discardRead_eq]
  split <;> rfl

/-- A discarded read moves nothing: of position it counts itself towards the next tuple alone. -/
theorem State.discardRead_pos (request : Nat) (st : ReadStatus) : ∃ k a, (s.discardRead n request st).pos =
    { s.pos with readsSinceTuple := k, readAt := a } := by
  rw [State.discardRead_eq]
  split
  · refine ⟨s.pos.readsSinceTuple + 1, request, ?_⟩
    unfold State.countToTuple
    rw [State.markRead_pos]
  · exact ⟨_, _, State.markRead_pos st⟩

theorem State.discardRead_changesOnly (request : Nat) (st : ReadStatus) :
    s.changesOnly [.regs, .pos] (s.discardRead n request st) := by
  intro c hc
  simp only [List.mem_cons, List.not_mem_nil, or_false, not_or] at hc
  obtain ⟨hr, hp⟩ := hc
  have := closedRegs_of_ne (s := s) hr
  have := closedPos_of_ne (s := s) hp
  exact State.discardRead_holds (G := fun t => c.same s t) Holds.same_refl

theorem encoderRead_discard_completes (hw : sparseWf regDefault s.regs = true) {i : Instr} {request : Nat} {st : ReadStatus}
    (hst : st ≠ .good) (he : exec i s = .next (s.discardRead n request st)) :
    s.completes i [.regs, .pos] [R.POS_E_ERR n, R.POS_E_WORD_HI n, R.POS_STATUS] (fun t =>
      t.get (R.POS_E_WORD_HI.LAST n) = st.code ∧ (s.source = n → t.flag R.POS_STATUS.EXTRAP = true) ∧
      (∀ m, (t.chan m) = s.chan m) ∧ t.pos.wpos = s.pos.wpos ∧ t.pos.base = s.pos.base ∧ t.pos.nextBase = s.pos.nextBase ∧
      ∀ e ∈ [(ReadStatus.noresp, R.POS_E_ERR.NORESP n), (.chk, R.POS_E_ERR.CHK n), (.errb, R.POS_E_ERR.ERRB n),
          (.jump, R.POS_E_ERR.JUMP n), (.stuck, R.POS_E_ERR.STUCK n)], s.counts e.2 (if e.1 = st then 1 else 0) t) := by
  have hr := State.discardRead_regs (s := s) (n := n) request st
  obtain ⟨k, a, hp⟩ := State.discardRead_pos (s := s) (n := n) request st
  have hin := ((State.regsWithin_refl hw).markRead_discarded (n := n) (offs := [R.POS_E_ERR n, R.POS_E_WORD_HI n, R.POS_STATUS]) hst
    (.head _) (.tail _ (.head _)) (.tail _ (.tail _ (.head _)))).of_regs hr
  refine ⟨_, he, State.discardRead_changesOnly _ _, hin.2, (State.get_of_regs hr _).trans (State.markRead_last hw st), fun hn => ?_,
    fun m => ?_, ?_, ?_, ?_, fun e hm => ?_⟩
  · rw [State.flag, State.get_of_regs hr]
    exact (State.markRead_extrap hw st hn).trans (by simpa using hst)
  · rw [State.chan, hp, State.chan]
  · rw [hp]
  · rw [hp]
  · rw [hp]
  · obtain ⟨h1, -⟩ := State.shown_countRead (n := n) hw st
    obtain ⟨hse, -, -, -, -, hhe, -⟩ := channel_offsets n
    have hl : (s.showLast n st).get (e.1.counter n) = s.get (e.1.counter n) := State.get_showLast hw st hhe.symm
    have hc := State.counts_countRead (s := s.showLast n st) (n := n) (e := e.1) (State.put_wf hw _ _) hst
    have hm' : (s.discardRead n request st).get (e.1.counter n) = ((s.showLast n st).countRead n st).get (e.1.counter n) := by
      rw [State.get_of_regs hr, State.markRead_eq]
      split
      · exact State.get_put_apart h1 (Fld.ok_of rfl) (.inl hse.symm) _
      · rfl
    rw [mem_read_counters hm]
    unfold State.counts at hc ⊢
    rw [hm', hc, hl]

/-! ### A good read (R36, R39, R42-R44) -/

/-- The state that shows a good read, its channel left at `c`. -/
def State.readShown (s : State) (n word : Nat) (c : PosChan) : State := ((s.setChan n c).markRead n .good).showWord n word

/-- What a good read of the source does beyond its channel. -/
def State.sourceTakes (s : State) (fresh : Bool) (c : PosChan) : State :=
  let s := s.countToTuple c.tGood
  if s.drives then
    (if s.flag R.POS_STATUS.POS_LOST then { s with pos := { s.pos with holdStart := s.dtime, lastGood := s.dtime } }
      else s.sourceRead fresh c)
  else
    let s := { s with pos := { s.pos with lastGood := s.dtime } }
    if s.role = 3 then s.standbyAlign c else s

theorem State.acceptRead_eq (word : Nat) (fresh : Bool) (c : PosChan) : s.acceptRead n word fresh c =
    if (s.readShown n word c).source = n then (s.readShown n word c).sourceTakes fresh c else s.readShown n word c := rfl

theorem State.showWord_pos (word : Nat) : (s.showWord n word).pos = s.pos := by
  have := closedRegs_of_ne (s := s) (c := .pos) (by decide)
  exact State.showWord_holds (G := fun t => Comp.pos.same s t) Holds.same_refl

theorem State.readShown_pos (word : Nat) (c : PosChan) : (s.readShown n word c).pos = (s.setChan n c).pos :=
  (State.showWord_pos word).trans (State.markRead_pos .good)

theorem State.regsWithin.readShown (h : s.regsWithin offs t) (word : Nat) (c : PosChan) (hl : R.POS_E_WORD_LO n ∈ offs)
    (hh : R.POS_E_WORD_HI n ∈ offs) (hx : R.POS_STATUS ∈ offs) : s.regsWithin offs (t.readShown n word c) := by
  have h1 : s.regsWithin offs (t.setChan n c) := h
  have h2 := h1.markRead_good (n := n) hh hx
  exact (h2.put (f := R.POS_E_WORD_LO.N n) hl word).put (f := R.POS_E_WORD_HI.WORD n) hh (word / 4294967296)

/-- The words that a good read shows leave every field outside their bits. -/
theorem State.get_showWord (hw : sparseWf regDefault s.regs = true) (word : Nat) {f : Fld} (hl : (R.POS_E_WORD_LO.N n).apart f)
    (hh : (R.POS_E_WORD_HI.WORD n).apart f) : (s.showWord n word).get f = s.get f :=
  (State.get_put_apart (State.put_wf hw _ _) (Fld.ok_of rfl) hh _).trans (State.get_put_apart hw (Fld.ok_of rfl) hl _)

/-- A field of POS_STATUS or POS_CTL other than EXTRAP is left alone by the show of a good read. -/
theorem State.get_readShown (hw : sparseWf regDefault s.regs = true) (word : Nat) (c : PosChan) {f : Fld}
    (ho : f.off = R.POS_STATUS ∨ f.off = R.POS_CTL) (hx : R.POS_STATUS.EXTRAP.apart f) :
    (s.readShown n word c).get f = s.get f := by
  have hne : f.off ≠ R.POS_E_ERR n ∧ f.off ≠ R.POS_E_WORD_HI n ∧ f.off ≠ R.POS_E_WORD_LO n := by
    unfold R.POS_STATUS R.POS_CTL at ho
    unfold R.POS_E_ERR R.POS_E_WORD_HI R.POS_E_WORD_LO
    omega
  obtain ⟨he, hh, hl⟩ := hne
  have hm : ((s.setChan n c).markRead n .good).get f = s.get f := State.get_markRead (s := s.setChan n c) hw .good he hh hx
  have hwm : sparseWf regDefault ((s.setChan n c).markRead n .good).regs = true :=
    ((State.regsWithin_refl (offs := [R.POS_E_WORD_HI n, R.POS_STATUS]) (s := s.setChan n c) hw).markRead_good (.head _) (.tail _ (.head _))).1
  exact (State.get_showWord (n := n) (f := f) hwm word (.inl hl) (.inl hh)).trans hm

/-- LAST of a good read, and EXTRAP where the channel is the source. -/
theorem State.readShown_last (hw : sparseWf regDefault s.regs = true) (word : Nat) (c : PosChan) :
    (s.readShown n word c).get (R.POS_E_WORD_HI.LAST n) = 0 ∧
    (s.source = n → (s.readShown n word c).flag R.POS_STATUS.EXTRAP = false) := by
  obtain ⟨-, hsh, hsl, -, -, -, hhl⟩ := channel_offsets n
  have hwm : sparseWf regDefault ((s.setChan n c).markRead n .good).regs = true :=
    ((State.regsWithin_refl (offs := [R.POS_E_WORD_HI n, R.POS_STATUS]) (s := s.setChan n c) hw).markRead_good (.head _) (.tail _ (.head _))).1
  refine ⟨(State.get_showWord (n := n) (f := R.POS_E_WORD_HI.LAST n) hwm word (.inl hhl) (Fld.apart_of rfl)).trans (State.markRead_last (s := s.setChan n c) hw .good), fun hn => ?_⟩
  have hf : (s.readShown n word c).flag R.POS_STATUS.EXTRAP = ((s.setChan n c).markRead n .good).flag R.POS_STATUS.EXTRAP :=
    congrArg (· != 0) (State.get_showWord (n := n) (f := R.POS_STATUS.EXTRAP) hwm word (.inl hsl) (.inl hsh))
  exact hf.trans (State.markRead_extrap (s := s.setChan n c) hw .good hn)

/-- Beyond its channel a good read of the source writes POS_STATUS alone, and of it ALIGNED; channels and WPOS stay. -/
theorem State.standbyAlign_rules (hw : sparseWf regDefault s.regs = true) (c : PosChan) :
    s.regsWithin [R.POS_STATUS] (s.standbyAlign c) ∧ (s.standbyAlign c).pos.chans = s.pos.chans ∧
    (s.standbyAlign c).pos.wpos = s.pos.wpos ∧
    ∀ f : Fld, R.POS_STATUS.ALIGNED.apart f → (s.standbyAlign c).get f = s.get f := by
  unfold State.standbyAlign
  split
  · exact ⟨State.regsWithin_refl hw, rfl, rfl, fun _ _ => rfl⟩
  · extract_lets d a near run p
    have hp : s.regsWithin [R.POS_STATUS] { s with pos := p } := State.regsWithin_refl hw
    exact ⟨hp.putFlag (f := R.POS_STATUS.ALIGNED) (.head _) _, rfl, rfl,
      fun f hf => State.get_put_apart (s := { s with pos := p }) hw (Fld.ok_of rfl) hf _⟩

theorem State.sourceTakes_rules (hw : sparseWf regDefault s.regs = true) (fresh : Bool) (c : PosChan) :
    s.regsWithin [R.POS_STATUS] (s.sourceTakes fresh c) ∧ (s.sourceTakes fresh c).pos.chans = s.pos.chans ∧
    (s.sourceTakes fresh c).pos.wpos = s.pos.wpos ∧
    ∀ f : Fld, R.POS_STATUS.ALIGNED.apart f → (s.sourceTakes fresh c).get f = s.get f := by
  have hr : s.regsWithin [R.POS_STATUS] s := State.regsWithin_refl hw
  unfold State.sourceTakes
  extract_lets s1 p1 s2
  split
  · split
    · exact ⟨hr, rfl, rfl, fun _ _ => rfl⟩
    · exact ⟨hr, rfl, rfl, fun _ _ => rfl⟩
  · split
    · exact State.standbyAlign_rules (s := s2) hw c
    · exact ⟨hr, rfl, rfl, fun _ _ => rfl⟩

/-- The base that waits after a good read of the source of a module that drives its WPOS (R39). -/
theorem State.sourceTakes_nextBase (c : PosChan) (hd : s.role < 2) (hb : s.pos.base ≠ none) (hl : s.flag R.POS_STATUS.POS_LOST = false) :
    (s.sourceTakes false c).pos.nextBase = some ⟨c.eNm - s.pos.zeroNm, c.tGood, c.v⟩ := by
  have hd' : (s.countToTuple c.tGood).drives = true := decide_eq_true hd
  have hl' : (s.countToTuple c.tGood).flag R.POS_STATUS.POS_LOST = false := hl
  have hn : (s.countToTuple c.tGood).pos.base.isNone = false := by
    cases h : s.pos.base with
    | none => exact absurd h hb
    | some b => exact congrArg Option.isNone h
  unfold State.sourceTakes
  dsimp only
  rw [if_pos hd', hl', if_neg Bool.false_ne_true]
  unfold State.sourceRead
  rw [hn]
  rfl

/-- An accepted read: the registers it writes, its channel, LAST, WPOS, and EXTRAP and the waiting base of the source. -/
theorem State.acceptRead_rules (hw : sparseWf regDefault s.regs = true) (hn : n < s.pos.chans.length) (word : Nat) (fresh : Bool)
    (c : PosChan) : let t := s.acceptRead n word fresh c
    s.regsWithin [R.POS_E_WORD_LO n, R.POS_E_WORD_HI n, R.POS_STATUS] t ∧ t.chan n = c ∧ (∀ m, m ≠ n → t.chan m = s.chan m) ∧
    t.get (R.POS_E_WORD_HI.LAST n) = 0 ∧ t.pos.wpos = s.pos.wpos ∧ (s.source = n → t.flag R.POS_STATUS.EXTRAP = false) := by
  obtain ⟨-, hsh, -⟩ := channel_offsets n
  have hr := (State.regsWithin_refl (offs := [R.POS_E_WORD_LO n, R.POS_E_WORD_HI n, R.POS_STATUS]) hw).readShown (n := n) word c
    (.head _) (.tail _ (.head _)) (.tail _ (.tail _ (.head _)))
  have hp := State.readShown_pos (s := s) (n := n) word c
  obtain ⟨hl, hx⟩ := State.readShown_last (n := n) hw word c
  have hc : ∀ m, (s.readShown n word c).chan m = if m = n then c else s.chan m := fun m => by
    rw [State.chan, hp]
    exact State.chan_setChan hn m c
  obtain ⟨⟨hw2, hk⟩, hchans, hwpos, hget⟩ := State.sourceTakes_rules hr.1 fresh c
  intro t
  have ht : t = s.acceptRead n word fresh c := rfl
  rw [State.acceptRead_eq] at ht
  split at ht
  · have hchan : ∀ m, t.chan m = if m = n then c else s.chan m := fun m => by
      rw [State.chan, ht, hchans]
      exact hc m
    refine ⟨⟨ht ▸ hw2, fun o ho hmem => ?_⟩, (hchan n).trans (if_pos rfl), fun m hm => (hchan m).trans (if_neg hm), ?_, ?_, fun h => ?_⟩
    · simp only [List.mem_cons, List.not_mem_nil, or_false, not_or] at hmem
      rw [ht, hk o ho (by simpa using hmem.2.2)]
      exact hr.2 o ho (by simpa using hmem)
    · rw [ht, hget (R.POS_E_WORD_HI.LAST n) (.inl hsh.symm)]
      exact hl
    · rw [ht, hwpos, hp]
      rfl
    · rw [State.flag, ht, hget _ (Fld.apart_of rfl)]
      exact hx h
  · rw [ht]
    refine ⟨hr, (hc n).trans (if_pos rfl), fun m hm => (hc m).trans (if_neg hm), hl, ?_, hx⟩
    rw [hp]
    rfl

theorem State.acceptRead_nextBase (hw : sparseWf regDefault s.regs = true) (word : Nat) (c : PosChan) (hs : s.source = n)
    (hd : s.role < 2) (hb : s.pos.base ≠ none) (hl : s.flag R.POS_STATUS.POS_LOST = false) :
    (s.acceptRead n word false c).pos.nextBase = some ⟨c.eNm - s.pos.zeroNm, c.tGood, c.v⟩ := by
  have hp := State.readShown_pos (s := s) (n := n) word c
  have hsrc : (s.readShown n word c).source = n := (State.get_readShown hw word c (.inr rfl) (.inl (by decide))).trans hs
  have hrole : (s.readShown n word c).role < 2 :=
    (State.get_readShown (n := n) hw word c (f := R.POS_STATUS.ROLE_NOW) (.inl rfl) (Fld.apart_of rfl)).trans_lt hd
  have hlost : (s.readShown n word c).flag R.POS_STATUS.POS_LOST = false :=
    (congrArg (· != 0) (State.get_readShown hw word c (.inl rfl) (Fld.apart_of rfl))).trans hl
  rw [State.acceptRead_eq, if_pos hsrc, State.sourceTakes_nextBase c hrole (by rw [hp]; exact hb) hlost, hp]
  rfl

/-- A good read takes two of the free values, and leaves its channel at what the estimates make of `c`. -/
theorem encoderRead_accept_completes (hw : sparseWf regDefault s.regs = true) {i : Instr} {word : Nat} {fresh : Bool} {c : PosChan}
    {p : State → Prop} (he : exec i s = .next ({ s with free := s.free + 2 }.acceptRead n word fresh c))
    (hp : p ({ s with free := s.free + 2 }.acceptRead n word fresh c)) (hn : n < s.pos.chans.length) :
    s.completes i [.regs, .free, .pos] [R.POS_E_WORD_LO n, R.POS_E_WORD_HI n, R.POS_STATUS] p := by
  obtain ⟨⟨-, hk⟩, -⟩ := State.acceptRead_rules (s := { s with free := s.free + 2 }) hw hn word fresh c
  refine ⟨_, he, fun d hd => ?_, hk, hp⟩
  simp only [List.mem_cons, List.not_mem_nil, or_false, not_or] at hd
  obtain ⟨hr, hf, hpo⟩ := hd
  have := closedRegs_of_ne (s := s) hr
  have := closedFree_of_ne (s := s) hf
  have := closedPos_of_ne (s := s) hpo
  exact State.acceptRead_holds (G := fun t => d.same s t) (Holds.free Holds.same_refl)

/-! ### The judgement of a read (R45) -/

/-- The estimates leave the position of their channel; v is that of the method in use (R44). -/
theorem State.speedUpdate_rules (c : PosChan) : let e := s.speedUpdate n c
    e.haveBase = c.haveBase ∧ e.rebase = c.rebase ∧ e.eNm = c.eNm ∧ e.eFrac = c.eFrac ∧ e.cPrev = c.cPrev ∧ e.tGood = c.tGood ∧
    e.v = if e.freqMode then e.vF else e.vP := ⟨rfl, rfl, rfl, rfl, rfl, rfl, rfl⟩

/-- The word of a read, of Gray code where CODE says so. -/
def State.readWord (s : State) (n raw : Nat) : Nat :=
  if s.flag (R.POS_E_CFG.CODE n) then grayDecode (s.get (R.POS_E_CFG.WORDLEN n)) raw else raw % 2 ^ s.get (R.POS_E_CFG.WORDLEN n)

/-- The latch time of a read. -/
def State.readLatch (s : State) (n latch : Nat) : Nat := u64 (latch + 2 ^ 64 - s.get (R.POS_E_LAT.LAT_NS n))

/-- The travel that the channel's speed predicts up to tick `t`. -/
def PosChan.predicted (c : PosChan) (t : Nat) : Int := travel c.v (i64 (u64 (t + 2 ^ 64 - c.tGood)))

/-- The advance of e_nm under a word, and the new fraction (R36). -/
def State.readAdvance (s : State) (n word : Nat) : Int × Nat := convert s n (s.chan n).eFrac (countDiff s n word (s.chan n).cPrev)

/-- The jump check of R36 fails a word latched at `t`. -/
def State.jumps (s : State) (n word t : Nat) : Bool :=
  decide ((countDiff s n word (s.chan n).cPrev).natAbs ≥ 2 ^ 31) ||
  decide (((s.readAdvance n word).1 - (s.chan n).predicted t).natAbs > s.get (R.POS_E_JUMP_TOL.NM n))

/-- The status of a read that fails the jump check. -/
def State.jumpStatus (s : State) (n word : Nat) : ReadStatus :=
  if decide ((countDiff s n word (s.chan n).cPrev).natAbs < 2 ^ 31) && word == (s.chan n).cPrev then .stuck else .jump

section
variable {latch raw check : Nat} {ready err tail : Bool}

/-- The read is of an enabled channel, its frame begun after the last commit on it. -/
def State.readBegun (s : State) (n latch : Nat) : Prop := s.flag (R.POS_E_CFG.ENABLE n) = true ∧ (s.chan n).readFrom ≤ latch

theorem State.encoderRead_skip (h : s.flag (R.POS_E_CFG.ENABLE n) = false ∨ latch < (s.chan n).readFrom) :
    s.encoderRead n latch ready raw err check tail = s := by
  unfold State.encoderRead
  refine if_pos ?_
  simpa using h

theorem State.encoderRead_discard (hb : s.readBegun n latch) {st : ReadStatus}
    (h : frameStatus s n ready (raw % 2 ^ s.get (R.POS_E_CFG.WORDLEN n)) err check tail = st) (hst : st ≠ .good) :
    s.encoderRead n latch ready raw err check tail = s.discardRead n latch st := by
  unfold State.encoderRead
  rw [if_neg (by simpa [State.readBegun] using hb)]
  dsimp only
  rw [h]
  cases st with
  | good => exact absurd rfl hst
  | _ => rfl

theorem State.encoderRead_first (hb : s.readBegun n latch) (h : frameStatus s n ready (raw % 2 ^ s.get (R.POS_E_CFG.WORDLEN n)) err check tail = .good)
    (hbase : (s.chan n).haveBase = false) : s.encoderRead n latch ready raw err check tail =
      { s with free := s.free + 2 }.acceptRead n (s.readWord n raw) true
        (s.speedUpdate n { (s.chan n) with
          haveBase := true, seen := true, eNm := 0, eFrac := 0, cPrev := s.readWord n raw, tGood := s.readLatch n latch }) := by
  unfold State.encoderRead
  rw [if_neg (by simpa [State.readBegun] using hb)]
  dsimp only
  rw [h, hbase]
  rfl

theorem State.encoderRead_rebase (hb : s.readBegun n latch) (h : frameStatus s n ready (raw % 2 ^ s.get (R.POS_E_CFG.WORDLEN n)) err check tail = .good)
    (hbase : (s.chan n).haveBase = true) (hr : (s.chan n).rebase = true) : s.encoderRead n latch ready raw err check tail =
      { s with free := s.free + 2 }.acceptRead n (s.readWord n raw) false
        (s.speedUpdate n { (s.chan n) with
          rebase := false, seen := true, eNm := (s.chan n).eNm + (s.chan n).predicted (s.readLatch n latch)
          cPrev := s.readWord n raw, tGood := s.readLatch n latch }) := by
  unfold State.encoderRead
  rw [if_neg (by simpa [State.readBegun] using hb)]
  dsimp only
  rw [h, hbase, hr]
  rfl

theorem State.encoderRead_judged (hb : s.readBegun n latch) (h : frameStatus s n ready (raw % 2 ^ s.get (R.POS_E_CFG.WORDLEN n)) err check tail = .good)
    (hbase : (s.chan n).haveBase = true) (hr : (s.chan n).rebase = false) : s.encoderRead n latch ready raw err check tail =
      if s.jumps n (s.readWord n raw) (s.readLatch n latch) then s.discardRead n latch (s.jumpStatus n (s.readWord n raw))
      else { s with free := s.free + 2 }.acceptRead n (s.readWord n raw) false
        (s.speedUpdate n { (s.chan n) with
          eNm := (s.chan n).eNm + (s.readAdvance n (s.readWord n raw)).1, eFrac := (s.readAdvance n (s.readWord n raw)).2, seen := true
          cPrev := s.readWord n raw, tGood := s.readLatch n latch }) := by
  unfold State.encoderRead
  rw [if_neg (by simpa [State.readBegun] using hb)]
  dsimp only
  rw [h, hbase, hr]
  rfl

end

/-- Settles O13: a read is skipped, discarded by the first failing check, or accepted, and each is one equation of the read. -/
theorem encoderReadsAreJudged : Obligations.EncoderReadsAreJudged := by
  unfold Obligations.EncoderReadsAreJudged
  intro s ch latch ready word err chk tail hcan hlen n i c w x tLatch d0 d acc adv pred first jumps discarded shows
  have hw : sparseWf regDefault s.regs = true := hcan.1
  have hn : n < s.pos.chans.length := by
    rw [hlen]
    exact ch.isLt
  have hexec : exec i s = .next (s.encoderRead n latch.toNat ready word.toNat err chk.toNat tail) := rfl
  refine ⟨fun hskip => hexec.trans (congrArg _ (State.encoderRead_skip hskip)), fun hen hfrom => ?_⟩
  have hb : s.readBegun n latch.toNat := ⟨hen, hfrom⟩
  have hdisc : ∀ {st : ReadStatus}, s.encoderRead n latch.toNat ready word.toNat err chk.toNat tail = s.discardRead n latch.toNat st →
      st ≠ .good → discarded st := fun he hst => encoderRead_discard_completes hw hst (hexec.trans (congrArg _ he))
  refine ⟨fun hst => hdisc (State.encoderRead_discard hb rfl hst) hst, fun hg hbase => ?_, fun hg hbase hr => ?_, fun hg hbase hr => ⟨fun hj => ?_, fun hj => ?_⟩⟩
  · have he := State.encoderRead_first hb hg hbase
    obtain ⟨-, hc, hm, hl, hp, -⟩ := State.acceptRead_rules (s := { s with free := s.free + 2 }) hw hn _ _ _
    refine encoderRead_accept_completes hw (hexec.trans (congrArg _ he)) ?_ hn
    rw [hc]
    exact ⟨rfl, rfl, rfl, rfl, rfl, hm, hl, hp⟩
  · have he := State.encoderRead_rebase hb hg hbase hr
    obtain ⟨-, hc, hm, hl, hp, -⟩ := State.acceptRead_rules (s := { s with free := s.free + 2 }) hw hn _ _ _
    refine encoderRead_accept_completes hw (hexec.trans (congrArg _ he)) ?_ hn
    rw [hc]
    exact ⟨rfl, rfl, rfl, rfl, rfl, hm, hl, hp⟩
  · have he := State.encoderRead_judged hb hg hbase hr
    have hj' : s.jumps n (s.readWord n word.toNat) (s.readLatch n latch.toNat) = true := by
      rw [State.jumps, Bool.or_eq_true, decide_eq_true_eq, decide_eq_true_eq]
      exact hj
    have hst : s.jumpStatus n (s.readWord n word.toNat) = if d.natAbs < 2 ^ 31 ∧ x = c.cPrev then .stuck else .jump := by
      rw [State.jumpStatus]
      refine if_congr ?_ rfl rfl
      rw [Bool.and_eq_true, decide_eq_true_eq, beq_iff_eq]
      rfl
    rw [hj', if_pos rfl, hst] at he
    exact hdisc he (by split <;> exact nofun)
  · have he := State.encoderRead_judged hb hg hbase hr
    have hj' : s.jumps n (s.readWord n word.toNat) (s.readLatch n latch.toNat) = false := by
      rw [State.jumps, ← Bool.not_eq_true, Bool.or_eq_true, decide_eq_true_eq, decide_eq_true_eq]
      exact hj
    rw [hj', if_neg Bool.false_ne_true] at he
    obtain ⟨-, hc, hm, hl, hp, hx⟩ := State.acceptRead_rules (s := { s with free := s.free + 2 }) hw hn _ _ _
    refine encoderRead_accept_completes hw (hexec.trans (congrArg _ he)) ?_ hn
    rw [hc]
    exact ⟨rfl, rfl, rfl, rfl, rfl, hm, hl, hp, hx,
      fun hsrc hd hb hl => State.acceptRead_nextBase (s := { s with free := s.free + 2 }) hw _ _ hsrc hd hb hl⟩

end Sys2Proof.Machine
end

section
/-! PROOFS, web position: the tick of DTIME and the position it extrapolates (R24, R39, R40), and what settles O12. -/

namespace Sys2Proof.Machine

variable {s t : State} {offs : List Nat} {n : Nat}

/-! ### The times (R24, R412) -/

/-- An entry that is kept reads as before. -/
theorem sparseGet_filter {α : Type} {d : Nat → α} [DecidableEq α] {p : Nat × α → Bool} {k : Nat} (hp : ∀ v, p (k, v) = true) :
    ∀ {lo : Option Nat} {l : List (Nat × α)}, sparseWfFrom d lo l = true → sparseGet d (l.filter p) k = sparseGet d l k
  | _, [], _ => rfl
  | _, (j, v) :: r, h => by
    have ih := sparseGet_filter (k := k) hp (sparseWfFrom_tail h)
    by_cases hj : p (j, v) = true
    · rw [List.filter_cons_of_pos hj, sparseGet, sparseGet, ih]
    · have hne : j ≠ k := by
        rintro rfl
        exact hj (hp v)
      rw [List.filter_cons_of_neg hj, ih, sparseGet, if_neg hne]
      split
      · next hlt => exact sparseGet_eq_default (sparseWfFrom_tail h) hlt.le
      · rfl

/-- What the tick before has set is forgotten; the registers stay. -/
theorem State.newTick_regsWithin (h : sparseWf regDefault s.regs = true) : s.regsWithin [] s.newTick :=
  ⟨sparseWf_filter h, fun _ hoff _ => sparseGet_filter (fun _ => decide_eq_true hoff) h⟩

/-- The times after a tick, and what is kept of the one that ends. -/
def State.tickTimes (s : State) : State := s.noteWpos.countCycles.timesOn

theorem State.tickTimes_eq (s : State) : ∃ a c, s.tickTimes = { s.newTick with
    dtime := u64 (s.dtime + 4), field := { s.field with ftime := u64 (s.field.ftime + 4) }, aud := a, clk := c
    pos := { s.pos with wposBefore := s.pos.wpos } } := by
  unfold State.tickTimes State.noteWpos
  split <;> exact ⟨_, _, rfl⟩

theorem State.tickTimes_dtime (s : State) : s.tickTimes.dtime = u64 (s.dtime + 4) := by
  obtain ⟨a, c, he⟩ := s.tickTimes_eq
  rw [he]

theorem State.tickTimes_pos (s : State) : s.tickTimes.pos = { s.pos with wposBefore := s.pos.wpos } := by
  obtain ⟨a, c, he⟩ := s.tickTimes_eq
  rw [he]

theorem State.tickTimes_core (s : State) (n : Nat) : s.tickTimes.core n = s.core n := by
  obtain ⟨a, c, he⟩ := s.tickTimes_eq
  rw [he]
  rfl

theorem State.tickTimes_regsWithin (h : sparseWf regDefault s.regs = true) : s.regsWithin [] s.tickTimes := by
  obtain ⟨a, c, he⟩ := s.tickTimes_eq
  rw [he]
  exact State.newTick_regsWithin h

/-- Nothing but the position ends on the tick: the rest of it does not act. -/
theorem State.expireDue_of_none (h : s.holdDue = none) : s.expireDue = s := by
  unfold State.expireDue State.expireDueN
  rw [h]

theorem State.setupStep_of_none (h : ∀ n, n < 16 → (s.core n).setupDue = false) : s.setupStep = s := by
  have hf : (List.range 16).filter (fun n => (s.core n).setupDue && (s.list n).isNone) = [] := by
    refine List.filter_eq_nil_iff.2 fun n hn => ?_
    rw [h n (List.mem_range.1 hn)]
    exact Bool.false_ne_true
  unfold State.setupStep
  rw [hf]
  rfl

/-! ### The march test of the Larders (R180, R182) -/

/-- A Larder whose march step has lasted its time is in normal mode again. -/
def State.marchEnd (s : State) (n : Nat) : State :=
  match (s.core n).testUntil with
  | none => s
  | some t =>
    if s.dtime < t then s
    else
      let s := s.setCore n { s.core n with testUntil := none }
      if s.get (R.CORE_LDR_STATUS.MODE n) = 2 then s.put (R.CORE_LDR_STATUS.MODE n) 0 else s

theorem State.marchesEnd_eq (s : State) : s.marchesEnd = (List.range 16).foldl State.marchEnd s := rfl

theorem State.marchEnd_of_none (h : (s.core n).testUntil = none) : s.marchEnd n = s := by
  unfold State.marchEnd
  rw [h]

theorem State.regsWithin.marchEnd (h : s.regsWithin offs t) (ho : R.CORE_LDR_STATUS n ∈ offs) : s.regsWithin offs (t.marchEnd n) := by
  unfold State.marchEnd
  split
  · exact h
  · exact h.ite (State.regsWithin.ite (State.regsWithin.put (t := t.setCore n _) (f := R.CORE_LDR_STATUS.MODE n) h ho _) h)

theorem State.marchEnd_dtime (s : State) (n : Nat) : (s.marchEnd n).dtime = s.dtime := by
  unfold State.marchEnd
  split
  · rfl
  · split
    · rfl
    · dsimp only
      split <;> rfl

/-- A march step touches the core it names alone. -/
theorem State.marchEnd_core (s : State) {m : Nat} (h : m ≠ n) : (s.marchEnd m).core n = s.core n := by
  have hs : ∀ c, (s.setCore m c).core n = s.core n := fun c => by
    unfold State.core State.setCore nth
    rw [setNth_eq_set, List.getD_eq_getElem?_getD, List.getElem?_set_ne h, List.getD_eq_getElem?_getD]
  unfold State.marchEnd
  split
  · rfl
  · split
    · rfl
    · dsimp only
      split
      · exact hs _
      · exact hs _

/-- The march step of a core whose time has come leaves no march under way. -/
theorem State.marchEnd_mode (hw : sparseWf regDefault s.regs = true) {u : Nat} (hu : (s.core n).testUntil = some u) (hd : u ≤ s.dtime) :
    (s.marchEnd n).get (R.CORE_LDR_STATUS.MODE n) ≠ 2 := by
  unfold State.marchEnd
  rw [hu]
  dsimp only
  rw [if_neg (Nat.not_lt.2 hd)]
  split
  · rw [State.get_put_same (s := s.setCore n _) hw (Fld.ok_of rfl)]
    exact Nat.zero_ne_add_one 1
  · next h => exact h

theorem ldrStatus_ne {m : Nat} (h : m ≠ n) : R.CORE_LDR_STATUS n ≠ R.CORE_LDR_STATUS m := by
  unfold R.CORE_LDR_STATUS
  omega

theorem ldrStatus_lt (h : n < 16) : R.CORE_LDR_STATUS n < 0x400000 := by
  unfold R.CORE_LDR_STATUS
  omega

theorem State.marchEnd_wf (hw : sparseWf regDefault s.regs = true) (n : Nat) : sparseWf regDefault (s.marchEnd n).regs = true :=
  ((State.regsWithin_refl (offs := [R.CORE_LDR_STATUS n]) hw).marchEnd (.head _)).1

/-- The march step of another core leaves the registers of this one. -/
theorem State.marchEnd_reg (hw : sparseWf regDefault s.regs = true) (hn : n < 16) {m : Nat} (h : m ≠ n) :
    (s.marchEnd m).reg (R.CORE_LDR_STATUS n) = s.reg (R.CORE_LDR_STATUS n) :=
  ((State.regsWithin_refl (offs := [R.CORE_LDR_STATUS m]) hw).marchEnd (.head _)).2 _ (ldrStatus_lt hn) (by simpa using ldrStatus_ne h)

theorem State.get_of_reg {f : Fld} (h : t.reg f.off = s.reg f.off) : t.get f = s.get f := by
  unfold State.get
  rw [h]

/-- No march step begins a march. -/
theorem State.marchEnd_mode_ne (hw : sparseWf regDefault s.regs = true) (hn : n < 16) (h : s.get (R.CORE_LDR_STATUS.MODE n) ≠ 2) (m : Nat) :
    (s.marchEnd m).get (R.CORE_LDR_STATUS.MODE n) ≠ 2 := by
  by_cases hm : m = n
  · subst hm
    cases hu : (s.core m).testUntil with
    | none => rwa [State.marchEnd_of_none hu]
    | some u =>
      by_cases hd : u ≤ s.dtime
      · exact State.marchEnd_mode hw hu hd
      · unfold State.marchEnd
        rw [hu]
        dsimp only
        rwa [if_pos (Nat.lt_of_not_le hd)]
  · rwa [State.get_of_reg (f := R.CORE_LDR_STATUS.MODE n) (State.marchEnd_reg hw hn hm)]

theorem State.foldl_marchEnd_mode_ne (hn : n < 16) : ∀ (l : List Nat) (s : State), sparseWf regDefault s.regs = true →
    s.get (R.CORE_LDR_STATUS.MODE n) ≠ 2 → (l.foldl State.marchEnd s).get (R.CORE_LDR_STATUS.MODE n) ≠ 2
  | [], _, _, h => h
  | m :: l, _, hw, h => State.foldl_marchEnd_mode_ne hn l _ (State.marchEnd_wf hw m) (State.marchEnd_mode_ne hw hn h m)

/-- A core whose march step has lasted its time is out of the test when its turn has come. -/
theorem State.foldl_marchEnd_mode (hn : n < 16) {u : Nat} : ∀ (l : List Nat) (s : State), n ∈ l → sparseWf regDefault s.regs = true →
    (s.core n).testUntil = some u → u ≤ s.dtime → (l.foldl State.marchEnd s).get (R.CORE_LDR_STATUS.MODE n) ≠ 2
  | [], _, hmem, _, _, _ => absurd hmem List.not_mem_nil
  | m :: l, s, hmem, hw, hu, hd => by
    have hw' := State.marchEnd_wf hw m
    by_cases hm : m = n
    · subst hm
      exact State.foldl_marchEnd_mode_ne hn l _ hw' (State.marchEnd_mode hw hu hd)
    · refine State.foldl_marchEnd_mode (u := u) hn l (s.marchEnd m) ((List.mem_cons.1 hmem).resolve_left (Ne.symm hm)) hw' ?_ ?_
      · rwa [State.marchEnd_core s hm]
      · rwa [State.marchEnd_dtime]

/-- A core without a march under way keeps its register. -/
theorem State.foldl_marchEnd_reg (hn : n < 16) : ∀ (l : List Nat) (s : State), sparseWf regDefault s.regs = true →
    (s.core n).testUntil = none → (l.foldl State.marchEnd s).reg (R.CORE_LDR_STATUS n) = s.reg (R.CORE_LDR_STATUS n)
  | [], _, _, _ => rfl
  | m :: l, s, hw, hu => by
    by_cases hm : m = n
    · rw [List.foldl_cons, State.marchEnd_of_none (hm ▸ hu)]
      exact State.foldl_marchEnd_reg hn l s hw hu
    · exact (State.foldl_marchEnd_reg hn l (s.marchEnd m) (State.marchEnd_wf hw m) (by rwa [State.marchEnd_core s hm])).trans
        (State.marchEnd_reg hw hn hm)

theorem State.marchesEnd_regsWithin (hw : sparseWf regDefault s.regs = true) :
    s.regsWithin ((List.range 16).map R.CORE_LDR_STATUS) s.marchesEnd :=
  (State.regsWithin_refl hw).foldl fun _ _ hm h => h.marchEnd (List.mem_map_of_mem hm)

theorem State.marchesEnd_mode (hw : sparseWf regDefault s.regs = true) (hn : n < 16) {u : Nat} (hu : (s.core n).testUntil = some u)
    (hd : u ≤ s.dtime) : s.marchesEnd.get (R.CORE_LDR_STATUS.MODE n) ≠ 2 :=
  State.foldl_marchEnd_mode hn _ s (List.mem_range.2 hn) hw hu hd

theorem State.marchesEnd_reg (hw : sparseWf regDefault s.regs = true) (hn : n < 16) (hu : (s.core n).testUntil = none) :
    s.marchesEnd.reg (R.CORE_LDR_STATUS n) = s.reg (R.CORE_LDR_STATUS n) :=
  State.foldl_marchEnd_reg hn _ s hw hu

/-! ### The position (R39, R40) -/

theorem State.promoteBase_pos (s : State) : ∃ b, s.promoteBase.pos =
    { s.pos with base := s.pos.nextBase.or s.pos.base, nextBase := none, newBase := b } := by
  unfold State.promoteBase
  split
  · next h =>
    refine ⟨s.pos.newBase, ?_⟩
    rw [h, Option.none_or, ← h]
  · next h =>
    refine ⟨true, ?_⟩
    rw [h]
    rfl

/-- The extrapolator moves WPOS and the backlog alone; what it leaves is in force. -/
theorem State.extrapolate_bases (s : State) : s.extrapolate.pos.base = s.pos.base ∧ s.extrapolate.pos.nextBase = s.pos.nextBase := by
  unfold State.extrapolate
  split
  · exact ⟨rfl, rfl⟩
  · split
    · exact ⟨rfl, rfl⟩
    · dsimp only
      split
      · exact ⟨rfl, rfl⟩
      · split <;> exact ⟨rfl, rfl⟩

theorem State.extrapolate_stays (h : s.flag R.POS_STATUS.POS_LOST = true ∨ s.pos.base = none) : s.extrapolate = s := by
  unfold State.extrapolate
  split
  · rfl
  · next hl => rw [h.resolve_left hl]

theorem State.extrapolate_moves (hl : s.flag R.POS_STATUS.POS_LOST = false) {b : PosBase} (hb : s.pos.base = some b)
    (h : s.pos.takeAsIs = true ∨ b.target s.dtime > i64 s.pos.wpos) :
    s.extrapolate.pos.wpos = toU64 (b.target s.dtime) ∧ s.extrapolate.pos.backlog = 0 := by
  unfold State.extrapolate
  rw [hl, hb, if_neg Bool.false_ne_true]
  dsimp only
  split
  · exact ⟨rfl, rfl⟩
  · next ht =>
    rw [if_pos (h.resolve_left ht)]
    exact ⟨rfl, rfl⟩

theorem State.extrapolate_waits (hl : s.flag R.POS_STATUS.POS_LOST = false) {b : PosBase} (hb : s.pos.base = some b)
    (ht : s.pos.takeAsIs = false) (h : b.target s.dtime ≤ i64 s.pos.wpos) :
    s.extrapolate.pos.wpos = s.pos.wpos ∧ s.extrapolate.pos.backlog = toU64 (i64 s.pos.wpos - b.target s.dtime) := by
  unfold State.extrapolate
  rw [hl, hb, ht, if_neg Bool.false_ne_true]
  dsimp only
  rw [if_neg Bool.false_ne_true, if_neg (Int.not_lt.2 h)]
  exact ⟨rfl, rfl⟩

/-! ### What follows on the position (R40, R70, R326, R474, R95) -/

theorem State.blockTick_regs (s : State) : s.blockTick.regs = s.regs := by
  have := closedJobs_of_ne (s := s) (c := .regs) (by decide)
  exact State.blockTick_holds (G := fun t => Comp.regs.same s t) Holds.same_refl

theorem State.sendPatterns_regs (s : State) : s.sendPatterns.regs = s.regs := by
  have := closedLanes_of_ne (s := s) (c := .regs) (by decide)
  exact State.sendPatterns_holds (G := fun t => Comp.regs.same s t) Holds.same_refl

theorem State.sendPatterns_boot (s : State) : s.sendPatterns.boot = s.boot := by
  have := closedLanes_of_ne (s := s) (c := .boot) (by decide)
  exact State.sendPatterns_holds (G := fun t => Comp.boot.same s t) Holds.same_refl

theorem State.regsWithin.revExcess (h : s.regsWithin offs t) (hp : R.POS_STATUS ∈ offs) (hl : lineStopOffsets ⊆ offs) :
    s.regsWithin offs t.revExcess :=
  ((h.raise (f := R.POS_STATUS.REV_EXCESS) hp).lineStop hl _).ite h

theorem State.regsWithin.overspeed (h : s.regsWithin offs t) (hp : R.PSQ_STATUS ∈ offs) (hl : lineStopOffsets ⊆ offs) :
    s.regsWithin offs t.overspeed :=
  ((h.raise (f := R.PSQ_STATUS.OVERSPEED) hp).lineStop hl _).ite (h.drop (f := R.PSQ_STATUS.OVERSPEED) hp)

theorem State.regsWithin.flashStep (h : s.regsWithin offs t) (hb : R.BOOT_STATUS ∈ offs) : s.regsWithin offs t.flashStep := by
  unfold State.flashStep
  split
  · exact h
  · exact State.regsWithin.putFlag (t := { t with boot := _ }) (f := R.BOOT_STATUS.FLASH_BUSY) h hb _

/-- What the tick does with the position moved and the stop of R40 requested. -/
def State.tickEnds (s : State) : State := s.overspeed.blockTick.flashStep.sendPatterns

theorem State.regsWithin.tickEnds (h : s.regsWithin offs t) (hp : R.PSQ_STATUS ∈ offs) (hb : R.BOOT_STATUS ∈ offs)
    (hl : lineStopOffsets ⊆ offs) : s.regsWithin offs t.tickEnds :=
  (State.regsWithin.flashStep ((h.overspeed hp hl).of_regs (State.blockTick_regs _)) hb).of_regs (State.sendPatterns_regs _)

/-- The update of the configuration that waits is in flash. -/
theorem State.flashStep_boot {b : Bool} {c : List Byte} (h : s.boot.cfgWrite = some (b, c)) :
    s.flashStep.boot.cfgWrite = none ∧ (if b then s.flashStep.boot.cfgB else s.flashStep.boot.cfgA) = c ∧
    (if b then s.flashStep.boot.cfgA else s.flashStep.boot.cfgB) = (if b then s.boot.cfgA else s.boot.cfgB) := by
  unfold State.flashStep
  rw [h]
  cases b <;> exact ⟨rfl, rfl, rfl⟩

theorem State.tickEnds_cfgWrite {b : Bool} {c : List Byte} (h : s.boot.cfgWrite = some (b, c)) :
    s.tickEnds.boot.cfgWrite = none ∧ (if b then s.tickEnds.boot.cfgB else s.tickEnds.boot.cfgA) = c ∧
    (if b then s.tickEnds.boot.cfgA else s.tickEnds.boot.cfgB) = (if b then s.boot.cfgA else s.boot.cfgB) := by
  have hb : s.overspeed.blockTick.boot = s.boot := by
    have := closedRegs_of_ne (s := s) (c := .boot) (by decide)
    have := closedLink_of_ne (s := s) (c := .boot) (by decide)
    have := closedLoft_of_ne (s := s) (c := .boot) (by decide)
    have := closedJobs_of_ne (s := s) (c := .boot) (by decide)
    exact State.blockTick_holds (G := fun t => Comp.boot.same s t) (State.overspeed_holds Holds.same_refl)
  have hf := State.flashStep_boot (s := s.overspeed.blockTick) (by rwa [hb])
  unfold State.tickEnds
  rwa [State.sendPatterns_boot, ← hb]

/-- A backlog above the limit is told (R40). -/
theorem State.revExcess_tells (h : sparseWf regDefault s.regs = true) (hb : s.pos.backlog > s.get R.POS_REV_LIMIT.VALUE * 1000) :
    s.revExcess.flag R.POS_STATUS.REV_EXCESS = true := by
  have hl := (State.regsWithin_refl (State.put_wf h R.POS_STATUS.REV_EXCESS 1)).lineStop (List.Subset.refl lineStopOffsets) .position
  unfold State.revExcess
  rw [if_pos hb]
  exact (hl.flag (by decide) (by decide)).trans (State.flag_raise h (Fld.ok_of rfl))

/-! ### The tick -/

/-- The part of the tick that stands before the position's own step. -/
def State.tickMoves (s : State) : State := s.tickTimes.marchesEnd.ntmTick

/-- The tick with its position moved. -/
def State.tickMoved (s : State) : State := s.tickMoves.promoteBase.extrapolate

theorem State.tickMoved_holds {G : State → Prop} [ClosedRegs G] [ClosedDtime G] [ClosedPos G] [ClosedField G] [ClosedAud G] [ClosedClk G]
    [ClosedCores G] [ClosedNtm G] [ClosedLink G] [ClosedLoft G] (hs : Holds G s) : Holds G s.tickMoved.revExcess :=
  State.revExcess_holds (State.extrapolate_holds (State.promoteBase_holds (State.ntmTick_holds (State.marchesEnd_holds
    (State.timesOn_holds (State.countCycles_holds (State.noteWpos_holds hs)))))))

theorem State.tickEnds_holds {G : State → Prop} [ClosedRegs G] [ClosedLink G] [ClosedLoft G] [ClosedJobs G] [ClosedBoot G] [ClosedLanes G]
    (hs : Holds G s) : Holds G s.tickEnds :=
  State.sendPatterns_holds (State.flashStep_holds (State.blockTick_holds (State.overspeed_holds hs)))

theorem State.tick_changesOnly (s : State) :
    s.changesOnly [.regs, .dtime, .pos, .field, .lanes, .link, .aud, .loft, .ntm, .cores, .jobs, .clk, .boot]
      s.tickMoved.revExcess.tickEnds := by
  intro c hc
  simp only [List.mem_cons, List.not_mem_nil, or_false, not_or] at hc
  obtain ⟨hr, hd, hp, hf, hn, hl, ha, ho, hm, hco, hj, hk, hb⟩ := hc
  have := closedRegs_of_ne (s := s) hr
  have := closedDtime_of_ne (s := s) hd
  have := closedPos_of_ne (s := s) hp
  have := closedField_of_ne (s := s) hf
  have := closedLanes_of_ne (s := s) hn
  have := closedLink_of_ne (s := s) hl
  have := closedAud_of_ne (s := s) ha
  have := closedLoft_of_ne (s := s) ho
  have := closedNtm_of_ne (s := s) hm
  have := closedCores_of_ne (s := s) hco
  have := closedJobs_of_ne (s := s) hj
  have := closedClk_of_ne (s := s) hk
  have := closedBoot_of_ne (s := s) hb
  exact State.tickEnds_holds (G := fun t => c.same s t) (State.tickMoved_holds Holds.same_refl)

/-- What follows on the position leaves DTIME and the position as they are. -/
theorem State.tickStops_rules (s : State) : s.revExcess.tickEnds.dtime = s.dtime ∧ s.revExcess.tickEnds.pos = s.pos := by
  have hsame : ∀ c, c ∉ [Comp.regs, .link, .loft, .jobs, .boot, .lanes] → c.same s s.revExcess.tickEnds := fun c hc => by
    simp only [List.mem_cons, List.not_mem_nil, or_false, not_or] at hc
    obtain ⟨hr, hl, ho, hj, hb, hn⟩ := hc
    have := closedRegs_of_ne (s := s) hr
    have := closedLink_of_ne (s := s) hl
    have := closedLoft_of_ne (s := s) ho
    have := closedJobs_of_ne (s := s) hj
    have := closedBoot_of_ne (s := s) hb
    have := closedLanes_of_ne (s := s) hn
    exact State.tickEnds_holds (G := fun t => c.same s t) (State.revExcess_holds Holds.same_refl)
  exact ⟨hsame .dtime (by decide), hsame .pos (by decide)⟩

/-- The tick up to the stop of R40 leaves the boot as it was. -/
theorem State.tickMoved_boot (s : State) : s.tickMoved.revExcess.boot = s.boot := by
  have := closedRegs_of_ne (s := s) (c := .boot) (by decide)
  have := closedDtime_of_ne (s := s) (c := .boot) (by decide)
  have := closedPos_of_ne (s := s) (c := .boot) (by decide)
  have := closedField_of_ne (s := s) (c := .boot) (by decide)
  have := closedAud_of_ne (s := s) (c := .boot) (by decide)
  have := closedClk_of_ne (s := s) (c := .boot) (by decide)
  have := closedCores_of_ne (s := s) (c := .boot) (by decide)
  have := closedNtm_of_ne (s := s) (c := .boot) (by decide)
  have := closedLink_of_ne (s := s) (c := .boot) (by decide)
  have := closedLoft_of_ne (s := s) (c := .boot) (by decide)
  exact State.tickMoved_holds (G := fun t => Comp.boot.same s t) Holds.same_refl

theorem exec_wposExtrapolate_still (hp : s.boot.power = true) (h : s.stillTick) :
    exec .wposExtrapolate s = .next s.tickMoved.revExcess.tickEnds := by
  obtain ⟨ha, hh, hs, hg, hm⟩ := h
  have hwaits : s.waitsStep = s := by
    unfold State.waitsStep
    rw [ha]
    rfl
  obtain ⟨a, c, he⟩ := s.tickTimes_eq
  have hdue : s.tickTimes.expireDue = s.tickTimes := by
    refine State.expireDue_of_none (List.find?_eq_none.2 fun x hx => ?_)
    rw [he] at hx ⊢
    exact fun hd => absurd (of_decide_eq_true hd) (Nat.not_le.2 (hh x hx))
  have hsetup : s.tickTimes.setupStep = s.tickTimes := by
    refine State.setupStep_of_none fun n hn => ?_
    rw [he]
    exact hs n hn
  have hend : ∀ u : State, u.gts = s.gts → u.module = s.module → u.promoteStep.dieLoss = u := fun u h1 h2 => by
    have hu : u.promoteStep = u := by
      unfold State.promoteStep
      rw [h1, hg]
      rfl
    unfold State.dieLoss
    rw [hu, h2, hm]
    rfl
  have hexec : exec .wposExtrapolate s = .next (if s.boot.power then
      s.waitsStep.tickTimes.expireDue.setupStep.marchesEnd.ntmTick.promoteBase.extrapolate.revExcess.tickEnds.promoteStep.dieLoss
      else { s with field := { s.field with ftime := u64 (s.field.ftime + 4) } }) := rfl
  rw [hexec, if_pos hp, hwaits, hdue, hsetup]
  exact congrArg _ (hend _ (s.tick_changesOnly .gts (by decide)) (s.tick_changesOnly .module (by decide)))

/-- DTIME, the position and the flag POS_LOST as the position's own step finds them. -/
theorem State.tickMoves_rules (hw : sparseWf regDefault s.regs = true) : s.tickMoves.promoteBase.dtime = u64 (s.dtime + 4) ∧
    (∃ w b, s.tickMoves.promoteBase.pos =
      { s.pos with wposBefore := w, base := s.pos.nextBase.or s.pos.base, nextBase := none, newBase := b }) ∧
    s.tickMoves.promoteBase.flag R.POS_STATUS.POS_LOST = s.flag R.POS_STATUS.POS_LOST := by
  have hsame : ∀ c, c ∉ [Comp.regs, .cores, .ntm] → c.same s.tickTimes s.tickMoves := fun c hc => by
    simp only [List.mem_cons, List.not_mem_nil, or_false, not_or] at hc
    obtain ⟨hr, hco, hn⟩ := hc
    have := closedRegs_of_ne (s := s.tickTimes) hr
    have := closedCores_of_ne (s := s.tickTimes) hco
    have := closedNtm_of_ne (s := s.tickTimes) hn
    exact State.ntmTick_holds (G := fun t => c.same s.tickTimes t) (State.marchesEnd_holds Holds.same_refl)
  have hdt : s.tickMoves.promoteBase.dtime = s.tickMoves.dtime := by
    have := closedPos_of_ne (s := s.tickMoves) (c := .dtime) (by decide)
    exact State.promoteBase_holds (G := fun t => Comp.dtime.same s.tickMoves t) Holds.same_refl
  have hregs : s.tickMoves.promoteBase.regs = s.tickTimes.marchesEnd.regs := by
    have := closedPos_of_ne (s := s.tickTimes.marchesEnd) (c := .regs) (by decide)
    have := closedNtm_of_ne (s := s.tickTimes.marchesEnd) (c := .regs) (by decide)
    exact State.promoteBase_holds (G := fun t => Comp.regs.same s.tickTimes.marchesEnd t) (State.ntmTick_holds Holds.same_refl)
  have hpos : s.tickMoves.pos = { s.pos with wposBefore := s.pos.wpos } := (hsame .pos (by decide)).trans s.tickTimes_pos
  obtain ⟨b, hb⟩ := s.tickMoves.promoteBase_pos
  have h1 := State.tickTimes_regsWithin hw
  have h2 := (State.marchesEnd_regsWithin h1.1).flag (f := R.POS_STATUS.POS_LOST) (by decide) (by decide)
  refine ⟨(hdt.trans (hsame .dtime (by decide))).trans s.tickTimes_dtime, ⟨s.pos.wpos, b, ?_⟩, ?_⟩
  · rw [hb, hpos]
  · rw [State.flag, State.get_of_regs hregs]
    exact h2.trans (h1.flag (by decide) (by decide))

theorem State.tickMoved_regs (s : State) : s.tickMoved.regs = s.tickTimes.marchesEnd.regs := by
  have := closedPos_of_ne (s := s.tickTimes.marchesEnd) (c := .regs) (by decide)
  have := closedNtm_of_ne (s := s.tickTimes.marchesEnd) (c := .regs) (by decide)
  exact State.extrapolate_holds (G := fun t => Comp.regs.same s.tickTimes.marchesEnd t)
    (State.promoteBase_holds (State.ntmTick_holds Holds.same_refl))

theorem State.extrapolate_dtime (s : State) : s.extrapolate.dtime = s.dtime := by
  have := closedPos_of_ne (s := s) (c := .dtime) (by decide)
  exact State.extrapolate_holds (G := fun t => Comp.dtime.same s t) Holds.same_refl

/-- The registers that the tick writes once the position has moved. -/
def tickOffsets : List Nat := R.POS_STATUS :: R.PSQ_STATUS :: R.BOOT_STATUS :: lineStopOffsets

theorem State.tickStops_regsWithin (hw : sparseWf regDefault s.regs = true) : s.regsWithin tickOffsets s.revExcess.tickEnds :=
  have hl : lineStopOffsets ⊆ tickOffsets := fun _ h => .tail _ (.tail _ (.tail _ h))
  ((State.regsWithin_refl hw).revExcess (.head _) hl).tickEnds (.tail _ (.head _)) (.tail _ (.tail _ (.head _))) hl

/-- The stops that follow on REV_EXCESS leave it. -/
theorem State.tickStops_revExcess (hw : sparseWf regDefault s.regs = true) (hb : s.pos.backlog > s.get R.POS_REV_LIMIT.VALUE * 1000) :
    s.revExcess.tickEnds.flag R.POS_STATUS.REV_EXCESS = true := by
  have hl : lineStopOffsets ⊆ R.PSQ_STATUS :: R.BOOT_STATUS :: lineStopOffsets := fun _ h => .tail _ (.tail _ h)
  have h1 := ((State.regsWithin_refl hw).revExcess (offs := R.POS_STATUS :: lineStopOffsets) (.head _) (List.subset_cons_self ..)).1
  have h2 := (State.regsWithin_refl h1).tickEnds (.head _) (.tail _ (.head _)) hl
  exact (h2.flag (by decide) (by decide)).trans (State.revExcess_tells hw hb)

theorem tickOffsets_ldr (hn : n < 16) : R.CORE_LDR_STATUS n ∉ tickOffsets := by
  unfold tickOffsets lineStopOffsets R.CORE_LDR_STATUS R.POS_STATUS R.PSQ_STATUS R.BOOT_STATUS R.FLD_LS_CAUSE R.LOFT_CNT_DROP R.LOFT_STATUS
  simp only [List.mem_cons, List.not_mem_nil, or_false]
  omega

/-- The tick keeps every register but those of the tick and of the Larders. -/
theorem State.tick_keepsRegs (hw : sparseWf regDefault s.regs = true) :
    s.keepsRegs (R.POS_STATUS :: R.PSQ_STATUS :: R.BOOT_STATUS :: lineStopOffsets ++ (List.range 16).map R.CORE_LDR_STATUS)
      s.tickMoved.revExcess.tickEnds := by
  have h1 := State.tickTimes_regsWithin hw
  have h2 := State.marchesEnd_regsWithin h1.1
  have h3 := State.tickStops_regsWithin (s := s.tickMoved) (by rw [State.tickMoved_regs]; exact h2.1)
  intro off hoff hn
  have hn' : off ∉ tickOffsets ∧ off ∉ (List.range 16).map R.CORE_LDR_STATUS := by
    rw [← not_or]
    exact fun h => hn (List.mem_append.2 h)
  have hm : s.tickMoved.reg off = s.tickTimes.marchesEnd.reg off := by
    unfold State.reg
    rw [State.tickMoved_regs]
  rw [h3.2 off hoff hn'.1, hm, h2.2 off hoff hn'.2, h1.2 off hoff List.not_mem_nil]

/-- A Larder's status is that which the end of the marches leaves. -/
theorem State.tick_ldrStatus (hw : sparseWf regDefault s.regs = true) (hn : n < 16) :
    s.tickMoved.revExcess.tickEnds.reg (R.CORE_LDR_STATUS n) = s.tickTimes.marchesEnd.reg (R.CORE_LDR_STATUS n) := by
  have hm := State.marchesEnd_regsWithin (State.tickTimes_regsWithin hw).1
  have h3 := State.tickStops_regsWithin (s := s.tickMoved) (by rw [State.tickMoved_regs]; exact hm.1)
  rw [h3.2 _ (ldrStatus_lt hn) (tickOffsets_ldr hn), State.reg, State.tickMoved_regs, State.reg]

/-- Settles O12: on a still tick the position's own step is the extrapolator's, and what follows leaves WPOS and the bases. -/
theorem tickExtrapolatesPosition : Obligations.TickExtrapolatesPosition := by
  unfold Obligations.TickExtrapolatesPosition
  intro s hcan now base
  have hw : sparseWf regDefault s.regs = true := hcan.1
  refine ⟨fun hp hstill => ?_, fun hp => ?_⟩
  · obtain ⟨hdt, ⟨w, nb, hpos⟩, hlost⟩ := State.tickMoves_rules hw
    obtain ⟨hbase, hnext⟩ := s.tickMoves.promoteBase.extrapolate_bases
    obtain ⟨hdt', hpos'⟩ := s.tickMoved.tickStops_rules
    have hr := State.tickTimes_regsWithin hw
    have hm := State.marchesEnd_regsWithin hr.1
    have hmw : sparseWf regDefault s.tickMoved.regs = true := by
      rw [State.tickMoved_regs]
      exact hm.1
    have hlost' : s.flag R.POS_STATUS.POS_LOST = false → s.tickMoves.promoteBase.flag R.POS_STATUS.POS_LOST = false := hlost.trans
    have hbase' : s.tickMoves.promoteBase.pos.base = base := by rw [hpos]
    refine ⟨_, exec_wposExtrapolate_still hp hstill, s.tick_changesOnly, State.tick_keepsRegs hw, ?_⟩
    beta_reduce
    rw [hdt', hpos']
    refine ⟨s.tickMoves.promoteBase.extrapolate_dtime.trans hdt, hnext.trans (by rw [hpos]), hbase.trans hbase', fun h => ?_,
      fun b hb hl => ⟨fun h => ?_, fun ht h => ?_⟩, fun h => ?_, fun n hn => ⟨fun hu => ?_, fun u hu hd => ?_⟩, fun b c hc => ?_⟩
    · rw [State.tickMoved, State.extrapolate_stays (by rwa [hlost, hbase']), hpos]
      exact ⟨rfl, rfl⟩
    · have hmove := State.extrapolate_moves (hlost' hl) (hbase'.trans hb) (by rw [hpos, hdt]; exact h)
      rwa [hdt] at hmove
    · have hwait := State.extrapolate_waits (hlost' hl) (hbase'.trans hb) (by rw [hpos]; exact ht) (by rw [hpos, hdt]; exact h)
      rwa [hdt, hpos] at hwait
    · refine State.tickStops_revExcess hmw ?_
      rwa [State.get_of_regs s.tickMoved_regs, hm.get (by decide) (by decide), hr.get (by decide) (by decide)]
    · rw [State.tick_ldrStatus hw hn, State.marchesEnd_reg hr.1 hn (by rwa [s.tickTimes_core]), hr.2 _ (ldrStatus_lt hn) List.not_mem_nil]
    · rw [State.get_of_reg (f := R.CORE_LDR_STATUS.MODE n) (State.tick_ldrStatus hw hn)]
      exact State.marchesEnd_mode hr.1 hn ((congrArg _ (s.tickTimes_core n)).trans hu) (s.tickTimes_dtime ▸ hd)
    · have hend := State.tickEnds_cfgWrite (s := s.tickMoved.revExcess) (by rwa [s.tickMoved_boot])
      rwa [s.tickMoved_boot] at hend
  · rw [exec_wposExtrapolate, execWposExtrapolate, hp]
    rfl

end Sys2Proof.Machine
end

section
/-! SUPPORT, memory: which registers a load can write (R308-R315, R319). -/

namespace Sys2Proof.Machine

variable {s t : State} {offs : List Nat} {n : Nat}

/-! ### What a load can change (R308-R315, R319) -/

/-- The registers that a load of an agent of no partition can write: the log of the last hard fault, its counters, and what
of the events does not fit the Loft. -/
def loadOffsets : List Nat := [R.CEL_FAULT_LO, R.CEL_FAULT_HI, R.CEL_FAULT_INFO, R.CEL_STATUS, R.CEL_CNT_HARD, R.CEL_CNT_SOFT_CEL,
  R.CEL_CNT_SOFT_SHELF, R.CEL_CNT_PAN_LOCK, R.CEL_CNT_SOFT_PAN, R.CEL_CNT_WAIT_INFL, R.LOFT_CNT_DROP, R.LOFT_STATUS]

/-- From `s` to `t` memory has been read: the registers of loads alone may differ, and no page has been retired. -/
def State.reads (s t : State) : Prop := s.regsWithin loadOffsets t ∧ t.cel.retired = s.cel.retired

theorem State.reads_refl (h : sparseWf regDefault s.regs = true) : s.reads s := ⟨State.regsWithin_refl h, rfl⟩

theorem State.reads.put (h : s.reads t) {f : Fld} (hf : f.off ∈ loadOffsets) (v : Nat) : s.reads (t.put f v) := ⟨h.1.put hf v, h.2⟩

theorem State.reads.bump (h : s.reads t) {f : Fld} (hf : f.off ∈ loadOffsets) : s.reads (t.bump f) := ⟨h.1.bump hf, h.2⟩

theorem State.reads.latch (h : s.reads t) {f : Fld} (hf : f.off ∈ loadOffsets) : s.reads (t.latch f) := ⟨h.1.latch hf, h.2⟩

/-- Words, lines and ways are noted in the Cellar without a page being retired. -/
theorem State.reads.cel (h : s.reads t) {c : CelSt} (hc : c.retired = t.cel.retired) : s.reads { t with cel := c } :=
  ⟨h.1, hc.trans h.2⟩

theorem State.reads.ite (h : s.reads t) {u : State} (hu : s.reads u) {c : Prop} [Decidable c] : s.reads (if c then t else u) := by
  split <;> assumption

theorem State.loftEvent_cel (code : Nat) (data : List Byte) : (s.loftEvent code data).cel = s.cel := by
  unfold State.loftEvent State.loftPush
  split <;> rfl

/-- The state that has logged a hard fault (R314, R315). -/
def State.faultLogged (s : State) (ag : MemAgent) (a mem ch die : Nat) : State :=
  let s := s.put64 R.CEL_FAULT_LO.ADDR R.CEL_FAULT_HI.ADDR a
  let s := ((((s.put R.CEL_FAULT_INFO.PART ag.part).put R.CEL_FAULT_INFO.CORE ag.core).put
    R.CEL_FAULT_INFO.AGENT ag.code).put R.CEL_FAULT_INFO.DIE die).put R.CEL_FAULT_INFO.CHANNEL ch
  let s := ((s.put R.CEL_FAULT_INFO.MEM mem).latch R.CEL_STATUS.HARD_SEEN).bump R.CEL_CNT_HARD.N
  s.loftEvent 0x0002 (leBytes 8 a ++ leBytes 4 (s.reg R.CEL_FAULT_INFO).toNat)

theorem State.hardFault_shelf (ag : MemAgent) (a o : Nat) : s.hardFault ag a (.shelf o) = s.faultLogged ag a 1 0 (o / 4194304) := rfl

theorem State.hardFault_cellar (ag : MemAgent) (a ch cb : Nat) : s.hardFault ag a (.cellar ch cb) =
    let t := s.faultLogged ag a 0 ch (ch / 16)
    if t.unusable (.cellar ch cb) || t.cel.toRetire.contains (ch, cb / 65536) then t
    else { t with cel := { t.cel with toRetire := t.cel.toRetire ++ [(ch, cb / 65536)] } } := rfl

theorem State.reads.loftEvent (h : s.reads t) (code : Nat) (data : List Byte) : s.reads (t.loftEvent code data) :=
  ⟨h.1.loftEvent (by decide) (by decide) code data, (congrArg CelSt.retired (State.loftEvent_cel code data)).trans h.2⟩

theorem State.reads.faultLogged (h : s.reads t) (ag : MemAgent) (a mem ch die : Nat) : s.reads (t.faultLogged ag a mem ch die) := by
  unfold State.faultLogged
  extract_lets s1 s2 s3
  have h1 : s.reads s1 := (h.put (f := R.CEL_FAULT_LO.ADDR) (by decide) _).put (f := R.CEL_FAULT_HI.ADDR) (by decide) _
  have h2 : s.reads s2 := ((((h1.put (f := R.CEL_FAULT_INFO.PART) (by decide) _).put (f := R.CEL_FAULT_INFO.CORE) (by decide) _).put
    (f := R.CEL_FAULT_INFO.AGENT) (by decide) _).put (f := R.CEL_FAULT_INFO.DIE) (by decide) _).put (f := R.CEL_FAULT_INFO.CHANNEL) (by decide) _
  have h3 : s.reads s3 := ((h2.put (f := R.CEL_FAULT_INFO.MEM) (by decide) _).latch (f := R.CEL_STATUS.HARD_SEEN) (by decide)).bump
    (f := R.CEL_CNT_HARD.N) (by decide)
  exact h3.loftEvent _ _

theorem State.reads.hardFault (h : s.reads t) (ag : MemAgent) (a : Nat) (x : Home) : s.reads (t.hardFault ag a x) := by
  cases x with
  | shelf o => exact h.faultLogged ag a 1 0 _
  | cellar ch cb =>
    have h1 := h.faultLogged ag a 0 ch (ch / 16)
    rw [State.hardFault_cellar]
    extract_lets t1 c1
    split
    · exact h1
    · exact h1.cel rfl

theorem State.reads.checkWord (h : s.reads t) (ag : MemAgent) (a : Nat) (x : Home) : s.reads (t.checkWord ag a x).2 := by
  unfold State.checkWord
  split
  · exact h
  · next b _ =>
    extract_lets replays c1 s1 s2
    have h2 : s.reads s2 := State.reads.latch (t := s1) (h.cel rfl) (f := R.CEL_STATUS.SOFT_SEEN) (by decide)
    split
    · exact h.hardFault ag a x
    · split
      · exact h
      · dsimp only
        split
        · exact h2.bump (f := R.CEL_CNT_SOFT_CEL.N) (by decide)
        · exact h2.bump (f := R.CEL_CNT_SOFT_SHELF.N) (by decide)

theorem State.reads.checkWords (ag : MemAgent) (a : Nat) (x : Home) : ∀ (ks : List Nat) {t : State}, s.reads t →
    s.reads (t.checkWords ag a x ks).2
  | [], _, h => h
  | k :: ks, t, h => by
    have hw := h.checkWord ag (a / 64 * 64 + k) (x.inLine k)
    unfold State.checkWords
    split
    · next e => exact State.reads.checkWords ag a x ks (by rwa [e] at hw)
    · next e => exact State.reads.checkWords ag a x ks (by rwa [e] at hw)

theorem State.reads.pantryError (h : s.reads t) (die set way : Nat) : s.reads (t.pantryError die set way) := by
  unfold State.pantryError
  extract_lets k c1 s1
  have h1 : s.reads s1 := h.cel rfl
  split
  · split
    · exact h1
    · exact State.reads.bump (h1.cel rfl) (f := R.CEL_CNT_PAN_LOCK.N) (by decide)
  · exact h1.cel rfl

/-- An agent that belongs to no partition's threads. -/
def MemAgent.apart (ag : MemAgent) : Prop := ∀ e p, ag ≠ .thread e p

theorem State.pantryCount_apart {ag : MemAgent} (ha : ag.apart) (hit : Bool) : s.pantryCount ag hit = s := by
  cases ag with
  | thread e p => exact absurd rfl (ha e p)
  | _ => rfl

theorem State.reads.lookup (h : s.reads t) {ag : MemAgent} (ha : ag.apart) (ch cb : Nat) : s.reads (t.lookup ag ch cb).2 := by
  unfold State.lookup
  rw [State.pantryCount_apart ha, State.pantryCount_apart ha]
  split
  · dsimp only
    split
    · exact ((h.bump (f := R.CEL_CNT_SOFT_PAN.N) (by decide)).latch (f := R.CEL_STATUS.SOFT_SEEN) (by decide)).pantryError _ _ _
    · exact h.cel rfl
  · exact h

theorem State.reads.look (h : s.reads t) {ag : MemAgent} (ha : ag.apart) (x : Home) : s.reads (t.look ag x).2 := by
  unfold State.look
  split
  · exact h.lookup ha _ _
  · exact h

theorem State.reads.fetchLine (h : s.reads t) (ag : MemAgent) (a : Nat) (x : Home) (way : Option Nat) :
    s.reads (t.fetchLine ag a x way).2 := by
  have hc := State.reads.checkWords ag a x ((List.range 16).map (4 * ·)) h
  unfold State.fetchLine
  split
  · next e => exact State.reads.cel (by rwa [e] at hc) rfl
  · exact hc

theorem State.reads.roomWait (h : s.reads t) (ag : MemAgent) (x : Home) : s.reads (t.roomWait ag x) := by
  have hw : s.reads (if t.inFlight x.die none < 7168 then t else t.bump R.CEL_CNT_WAIT_INFL.N) :=
    h.ite (h.bump (f := R.CEL_CNT_WAIT_INFL.N) (by decide))
  cases ag with
  | inputPipe | firmware | fabric | issuer => exact hw
  | _ => exact h

theorem State.reads.readAt (h : s.reads t) {ag : MemAgent} (ha : ag.apart) (a : Nat) (x : Home) (k : Nat) :
    s.reads (t.readAt ag a x k).2 := by
  unfold State.readAt
  extract_lets s1
  have h1 : s.reads s1 := h.roomWait ag x
  have hl := h1.look ha x
  split
  · exact h1.hardFault ag a x
  · split
    · next e => rwa [e] at hl
    · next e => exact State.reads.checkWords ag a x _ (by rwa [e] at hl)
    · next e => exact State.reads.fetchLine (by rwa [e] at hl) ag a x _

theorem State.reads.loadWords {ag : MemAgent} (ha : ag.apart) : ∀ (f a k : Nat) {t : State}, s.reads t → s.reads (t.loadWords ag f a k).2.2
  | 0, _, _, _, h => h
  | f + 1, a, k, t, h => by
    unfold State.loadWords
    split
    · exact h
    · split
      · exact h
      · next x _ =>
        extract_lets m
        have hr := h.readAt ha a x m
        split
        · next e =>
          have hl := State.reads.loadWords ha f (a + 4 * m) (k - m) (t := (t.readAt ag a x m).2) hr
          rw [e] at hl
          exact hl
        · next e => rwa [e] at hr

/-- A load writes the registers of loads alone. -/
theorem State.reads.load (h : s.reads t) {ag : MemAgent} (ha : ag.apart) (a n : Nat) : s.reads (t.load ag a n).2.2 := by
  unfold State.load
  extract_lets a0 k
  have hw := State.reads.loadWords ha (k / 16 + 2) a0 k h
  split
  next e => rwa [e] at hw

theorem State.reads.loadAll {ag : MemAgent} (ha : ag.apart) : ∀ (ps : List (Nat × Nat)) {t : State}, s.reads t → s.reads (t.loadAll ag ps).2.2
  | [], _, h => h
  | p :: ps, t, h => by
    have hl := h.load ha p.1 p.2
    unfold State.loadAll
    split
    · next e => exact State.reads.loadAll ha ps (by rwa [e] at hl)
    · next e => rwa [e] at hl

theorem firmware_apart : MemAgent.firmware.apart := fun _ _ => nofun

theorem fabric_apart : MemAgent.fabric.apart := fun _ _ => nofun

theorem State.load_changesOnly (ag : MemAgent) (a n : Nat) : s.changesOnly [.regs, .cel, .loft] (s.load ag a n).2.2 := by
  intro c hc
  simp only [List.mem_cons, List.not_mem_nil, or_false, not_or] at hc
  obtain ⟨hr, hce, ho⟩ := hc
  have := closedRegs_of_ne (s := s) hr
  have := closedCel_of_ne (s := s) hce
  have := closedLoft_of_ne (s := s) ho
  exact State.load_holds (G := fun t => c.same s t) Holds.same_refl

theorem State.loadAll_changesOnly (ag : MemAgent) (ps : List (Nat × Nat)) : s.changesOnly [.regs, .cel, .loft] (s.loadAll ag ps).2.2 := by
  intro c hc
  simp only [List.mem_cons, List.not_mem_nil, or_false, not_or] at hc
  obtain ⟨hr, hce, ho⟩ := hc
  have := closedRegs_of_ne (s := s) hr
  have := closedCel_of_ne (s := s) hce
  have := closedLoft_of_ne (s := s) ho
  exact State.loadAll_holds (G := fun t => c.same s t) Holds.same_refl

end Sys2Proof.Machine
end

section
/-! PROOFS, commits: the freeze of the stage, its check and its ends (R379-R384). -/

namespace Sys2Proof.Machine

variable {s t : State} {offs : List Nat} {n : Nat}

/-! ### A calm module (R296, R329, R334, R341) -/

theorem State.settleN_of_nil (h : s.sync.woken = []) : ∀ n, s.settleN n = s
  | 0 => rfl
  | n + 1 => by
    unfold State.settleN
    rw [h]

theorem State.grantFreed_of_none (h : ∀ e ∈ s.sync.objs, s.grantable e.1 = false) : s.grantFreed = s := by
  have hf : (s.sync.objs.map (·.1)).filter s.grantable = [] := by
    refine List.filter_eq_nil_iff.2 fun o ho => ?_
    obtain ⟨e, he, rfl⟩ := List.mem_map.1 ho
    rw [h e he]
    exact Bool.false_ne_true
  unfold State.grantFreed
  rw [hf]
  rfl

theorem State.endDeferral_of_none (h : ∀ p, p < 8 → s.flag (R.STG_PTN_STATUS.DEFERRED p) = false) : s.endDeferral = s := by
  unfold State.endDeferral
  refine List.foldlRecOn (motive := (· = s)) _ _ rfl fun u hu p hp => ?_
  rw [hu, h p (List.mem_range.1 hp)]
  rfl

theorem State.lowWater_of_idle (h : (s.inRun = false ∧ s.adp.reachedLow = false) ∨ s.get R.ADP_IN_LOW.LOW_WATER = 0) : s.lowWater = s := by
  unfold State.lowWater
  refine if_pos ?_
  rcases h with ⟨hr, hl⟩ | h0
  · rw [hr, hl]
    exact Bool.or_true _
  · rw [h0]
    rfl

/-- In a calm module nothing follows a signal. -/
theorem State.settle_of_calm (h : s.calm) : s.settle = s := by
  obtain ⟨hw, hg, hd, hl⟩ := h
  unfold State.settle
  rw [State.settleN_of_nil hw, State.grantFreed_of_none hg, State.settleN_of_nil hw, State.endDeferral_of_none hd,
    State.lowWater_of_idle hl]

/-- Whether a module is calm hangs on its sync objects, the input pipeline and the deferred slice ends. -/
theorem State.calm_congr (h : s.calm) (hs : t.sync = s.sync) (ha : t.adp = s.adp) (hr : s.keepsRegs offs t)
    (ho : R.ADP_IN_STATUS ∉ offs ∧ R.ADP_IN_LOW ∉ offs ∧ ∀ p, p < 8 → R.STG_PTN_STATUS p ∉ offs) : t.calm := by
  obtain ⟨hw, hg, hd, hl⟩ := h
  obtain ⟨hin, hlow, hptn⟩ := ho
  have hgr : ∀ o, t.grantable o = s.grantable o := fun o => by
    unfold State.grantable State.holdRoom State.holdOf State.so
    rw [hs]
  refine ⟨hs ▸ hw, fun e he => (hgr e.1).trans (hg e (hs ▸ he)), fun p hp => ?_, ?_⟩
  · have hlt : R.STG_PTN_STATUS p < 0x400000 := by
      unfold R.STG_PTN_STATUS
      omega
    exact (congrArg (· != 0) (State.get_of_reg (f := R.STG_PTN_STATUS.DEFERRED p) (hr _ hlt (hptn p hp)))).trans (hd p hp)
  · have hst := hr R.ADP_IN_STATUS (by decide) hin
    have hrun : t.inRun = s.inRun := by
      unfold State.inRun State.flag
      rw [State.get_of_reg (f := R.ADP_IN_STATUS.RUNNING) hst, State.get_of_reg (f := R.ADP_IN_STATUS.DONE) hst]
    rw [hrun, ha, State.get_of_reg (f := R.ADP_IN_LOW.LOW_WATER) (hr R.ADP_IN_LOW (by decide) hlow)]
    exact hl

/-! ### The freeze and its end (R379, R381, R382) -/

/-- The flags of a commit under way: FROZEN, CHECKING, PENDING. -/
def State.commitFlags (s : State) : Bool × Bool × Bool :=
  (s.flag R.STG_STATUS.FROZEN, s.flag R.STG_STATUS.CHECKING, s.flag R.STG_STATUS.PENDING)

theorem State.commitFlags_congr (h : t.reg R.STG_STATUS = s.reg R.STG_STATUS) : t.commitFlags = s.commitFlags := by
  unfold State.commitFlags State.flag
  rw [State.get_of_reg (f := R.STG_STATUS.FROZEN) h, State.get_of_reg (f := R.STG_STATUS.CHECKING) h,
    State.get_of_reg (f := R.STG_STATUS.PENDING) h]

/-- The tick of the end of a freeze. -/
def State.thawedAt (s : State) : Option Nat := if s.flag R.STG_STATUS.FROZEN then some s.dtime else s.stage.thawed

theorem State.unfreeze_stage (s : State) : s.unfreeze.stage = { s.stage with commit := none, thawed := s.thawedAt } := rfl

/-- The three flags dropped. -/
def State.thaw (s : State) : State := ((s.drop R.STG_STATUS.FROZEN).drop R.STG_STATUS.CHECKING).drop R.STG_STATUS.PENDING

theorem State.unfreeze_eq (s : State) : s.unfreeze =
    s.thaw.setStage { s.stage with commit := none, thawed := s.thawedAt } := rfl

theorem State.regsWithin.thaw (h : s.regsWithin offs t) (ho : R.STG_STATUS ∈ offs) : s.regsWithin offs t.thaw :=
  ((h.drop (f := R.STG_STATUS.FROZEN) ho).drop (f := R.STG_STATUS.CHECKING) ho).drop (f := R.STG_STATUS.PENDING) ho

theorem State.thaw_flags (hw : sparseWf regDefault s.regs = true) : s.thaw.commitFlags = (false, false, false) := by
  have h1 : sparseWf regDefault (s.drop R.STG_STATUS.FROZEN).regs = true := State.put_wf hw _ _
  have h2 : sparseWf regDefault ((s.drop R.STG_STATUS.FROZEN).drop R.STG_STATUS.CHECKING).regs = true := State.put_wf h1 _ _
  have hf : s.thaw.flag R.STG_STATUS.FROZEN = false :=
    (State.flag_put_apart h2 (Fld.ok_of rfl) (Fld.apart_of rfl) _).trans ((State.flag_put_apart h1 (Fld.ok_of rfl) (Fld.apart_of rfl) _).trans
      (congrArg (· != 0) (State.get_drop hw (Fld.ok_of rfl))))
  have hc : s.thaw.flag R.STG_STATUS.CHECKING = false :=
    (State.flag_put_apart h2 (Fld.ok_of rfl) (Fld.apart_of rfl) _).trans (congrArg (· != 0) (State.get_drop h1 (Fld.ok_of rfl)))
  have hp : s.thaw.flag R.STG_STATUS.PENDING = false := congrArg (· != 0) (State.get_drop h2 (Fld.ok_of rfl))
  unfold State.commitFlags
  rw [hf, hc, hp]

theorem State.unfreeze_regsWithin (hw : sparseWf regDefault s.regs = true) : s.regsWithin [R.STG_STATUS] s.unfreeze :=
  (State.regsWithin_refl hw).thaw (.head _)

theorem State.unfreeze_flags (hw : sparseWf regDefault s.regs = true) : s.unfreeze.commitFlags = (false, false, false) := State.thaw_flags hw

theorem State.unfreeze_changesOnly (s : State) : s.changesOnly [.regs, .stage] s.unfreeze := by
  intro c hc
  simp only [List.mem_cons, List.not_mem_nil, or_false, not_or] at hc
  obtain ⟨hr, hs⟩ := hc
  have := closedRegs_of_ne (s := s) hr
  have := closedStage_of_ne (s := s) hs
  exact State.unfreeze_holds (G := fun t => c.same s t) Holds.same_refl

theorem State.emptyStage_changesOnly (s : State) : s.changesOnly [.regs, .staged, .stage] s.emptyStage := by
  intro c hc
  simp only [List.mem_cons, List.not_mem_nil, or_false, not_or] at hc
  obtain ⟨hr, hg, hs⟩ := hc
  have := closedRegs_of_ne (s := s) hr
  have := closedStaged_of_ne (s := s) hg
  have := closedStage_of_ne (s := s) hs
  exact State.emptyStage_holds (G := fun t => c.same s t) Holds.same_refl

theorem State.emptyStage_regsWithin (hw : sparseWf regDefault s.regs = true) : s.regsWithin [R.STG_STATUS, R.ADP_PUB_STATUS] s.emptyStage :=
  State.regsWithin.drop (t := { s.unfreeze with staged := [], stage := _ }) (f := R.ADP_PUB_STATUS.STAGED)
    ((State.regsWithin_refl hw).thaw (.head _)) (.tail _ (.head _))

theorem State.emptyStage_stage (s : State) : s.emptyStage.staged = [] ∧ s.emptyStage.stage = { thawed := s.thawedAt } := ⟨rfl, rfl⟩

theorem State.emptyStage_flags (hw : sparseWf regDefault s.regs = true) : s.emptyStage.commitFlags = (false, false, false) := by
  have hr := State.unfreeze_regsWithin hw
  have hd : s.unfreeze.regsWithin [R.ADP_PUB_STATUS] s.emptyStage :=
    State.regsWithin.drop (t := { s.unfreeze with staged := [], stage := { thawed := s.thawedAt } })
      (State.regsWithin_refl hr.1) (f := R.ADP_PUB_STATUS.STAGED) (.head _)
  exact (State.commitFlags_congr (hd.2 _ (by decide) (by decide))).trans (State.unfreeze_flags hw)

/-! ### The ends of a commit (R382) -/

theorem State.commitEnds_none {c : PendingCommit} (h : c.ring = none) (st : Status) (r : Nat) : s.commitEnds c st r = s := by
  unfold State.commitEnds
  rw [h]

theorem State.commitEnds_some {c : PendingCommit} {r i : Nat} {d : Started} (h : c.ring = some (r, i))
    (hd : s.client.started.find? (fun x => x.ring == r && x.index == i) = some d) (st : Status) (x : Nat) :
    s.commitEnds c st x = s.complete d st x := by
  unfold State.commitEnds
  rw [h]
  dsimp only
  rw [hd]

/-- The state of a refused commit, but for its completion. -/
def State.refusal (s : State) (code : Nat) : State := (s.unfreeze.put R.STG_LAST.RULE code).bump R.STG_CNT_REFUSED.N

theorem State.refuseCommit_eq (c : PendingCommit) (code : Nat) : s.refuseCommit c code = (s.refusal code).commitEnds c .checkFailed code := rfl

theorem State.refusal_changesOnly (s : State) (code : Nat) : s.changesOnly [.regs, .stage] (s.refusal code) := by
  intro c hc
  simp only [List.mem_cons, List.not_mem_nil, or_false, not_or] at hc
  obtain ⟨hr, hs⟩ := hc
  have := closedRegs_of_ne (s := s) hr
  have := closedStage_of_ne (s := s) hs
  exact State.bump_holds (G := fun t => c.same s t) (State.put_holds (State.unfreeze_holds Holds.same_refl))

/-- A refused commit shows the code of its rule and is counted. -/
theorem State.refusal_rules (hw : sparseWf regDefault s.regs = true) (code : Nat) :
    s.keepsRegs [R.STG_STATUS, R.STG_LAST, R.STG_CNT_REFUSED] (s.refusal code) ∧ (s.refusal code).commitFlags = (false, false, false) ∧
    (s.refusal code).stage = { s.stage with commit := none, thawed := s.thawedAt } ∧ (s.refusal code).get R.STG_LAST.RULE = u16 code ∧
    s.counts R.STG_CNT_REFUSED.N 1 (s.refusal code) := by
  have hu := State.unfreeze_regsWithin hw
  have hp : sparseWf regDefault (s.unfreeze.put R.STG_LAST.RULE code).regs = true := State.put_wf hu.1 _ _
  have hin : s.unfreeze.regsWithin [R.STG_LAST, R.STG_CNT_REFUSED] (s.refusal code) :=
    ((State.regsWithin_refl hu.1).put (f := R.STG_LAST.RULE) (.head _) _).bump (f := R.STG_CNT_REFUSED.N) (.tail _ (.head _))
  refine ⟨fun o ho hn => ?_, (State.commitFlags_congr (hin.2 _ (by decide) (by decide))).trans (State.unfreeze_flags hw), rfl, ?_, ?_⟩
  · simp only [List.mem_cons, List.not_mem_nil, or_false, not_or] at hn
    rw [hin.2 o ho (by simpa using hn.2), hu.2 o ho (by simpa using hn.1)]
  · exact (State.get_put_apart hp (Fld.ok_of rfl) (.inl (by decide)) _).trans (State.get_put_same hu.1 (Fld.ok_of rfl) _)
  · have hc := State.counts_bump hp (f := R.STG_CNT_REFUSED.N) (Fld.ok_of rfl)
    have he : (s.unfreeze.put R.STG_LAST.RULE code).get R.STG_CNT_REFUSED.N = s.get R.STG_CNT_REFUSED.N :=
      (State.get_put_apart hu.1 (Fld.ok_of rfl) (.inl (by decide)) _).trans (hu.get (by decide) (by decide))
    unfold State.counts at *
    rwa [he] at hc

/-- A flag that is latched leaves the other fields of BAR0. -/
theorem State.flag_latch_apart (h : sparseWf regDefault s.regs = true) {f g : Fld} (hf : f.ok) (hg : g.off < 0x400000) (ha : f.apart g) :
    (s.latch f).flag g = s.flag g := by
  have ho : f.onTick.apart g := by
    refine .inl ?_
    unfold Fld.onTick
    dsimp only
    omega
  unfold State.latch State.latchBits
  exact (State.flag_put_apart (State.put_wf h _ _) (f := f.onTick) hf ho _).trans (State.flag_put_apart h hf ha _)

/-! ### COMMIT and its check (R382, R383) -/

theorem exec_commit_pending {ring : Fin 8192} {index : BitVec 32} {d : Started} (h : s.startedAs ring.val index.toNat 0x21 = some d)
    {c : PendingCommit} (hc : s.stage.commit = some c) : exec (.commit ring index) s = .next (s.complete d .commitPending 0) := by
  rw [exec_commit, execCommit]
  dsimp only
  rw [h]
  dsimp only
  rw [hc]
  rfl

/-- The descriptor of a commit that is being checked stays started. -/
def State.awaiting (s : State) (d : Started) : State :=
  { s with client := { s.client with started := s.client.started.map (fun x => if x == d then { x with waiting := true } else x) } }

/-- The commit that a descriptor asks for. -/
def Started.commitAsked (d : Started) : PendingCommit := { ring := some (d.ring, d.index), when_ := d.param 24 1, at_ := d.param 32 8 }

theorem exec_commit_begins {ring : Fin 8192} {index : BitVec 32} {d : Started} (h : s.startedAs ring.val index.toNat 0x21 = some d)
    (hc : s.stage.commit = none) : exec (.commit ring index) s = .next ((s.awaiting d).beginCheck d.commitAsked) := by
  rw [exec_commit, execCommit]
  dsimp only
  rw [h]
  dsimp only
  rw [hc]
  rfl

theorem State.beginCheck_regsWithin (hw : sparseWf regDefault s.regs = true) (c : PendingCommit) :
    s.regsWithin [R.STG_STATUS] (s.beginCheck c) :=
  ((State.regsWithin_refl hw).raise (f := R.STG_STATUS.FROZEN) (.head _)).raise (f := R.STG_STATUS.CHECKING) (.head _)

theorem State.beginCheck_flags (hw : sparseWf regDefault s.regs = true) (hp : s.flag R.STG_STATUS.PENDING = false) (c : PendingCommit) :
    (s.beginCheck c).commitFlags = (true, true, false) := by
  have h1 : sparseWf regDefault (s.raise R.STG_STATUS.FROZEN).regs = true := State.put_wf hw _ _
  have hf : (s.beginCheck c).flag R.STG_STATUS.FROZEN = true :=
    (State.flag_put_apart h1 (f := R.STG_STATUS.CHECKING) (Fld.ok_of rfl) (Fld.apart_of rfl) _).trans (State.flag_raise hw (Fld.ok_of rfl))
  have hc : (s.beginCheck c).flag R.STG_STATUS.CHECKING = true := State.flag_raise h1 (Fld.ok_of rfl)
  have hq : (s.beginCheck c).flag R.STG_STATUS.PENDING = false :=
    (State.flag_put_apart h1 (f := R.STG_STATUS.CHECKING) (Fld.ok_of rfl) (Fld.apart_of rfl) _).trans
      ((State.flag_put_apart hw (f := R.STG_STATUS.FROZEN) (Fld.ok_of rfl) (Fld.apart_of rfl) _).trans hp)
  unfold State.commitFlags
  rw [hf, hc, hq]

theorem State.beginCheck_changesOnly (d : Started) (c : PendingCommit) :
    s.changesOnly [.regs, .client, .stage] ((s.awaiting d).beginCheck c) := by
  intro e he
  simp only [List.mem_cons, List.not_mem_nil, or_false, not_or] at he
  obtain ⟨hr, hc, hs⟩ := he
  have := closedRegs_of_ne (s := s) hr
  have := closedClient_of_ne (s := s) hc
  have := closedStage_of_ne (s := s) hs
  exact State.beginCheck_holds (G := fun t => e.same s t) (Holds.client Holds.same_refl)

theorem exec_commitCheckDone_skip (h : s.stage.commit = none ∨ s.flag R.STG_STATUS.CHECKING = false) :
    exec .commitCheckDone s = .next s := by
  rw [exec_commitCheckDone, execCommitCheckDone]
  split
  · rfl
  · next c hc =>
    rcases h with h | h
    · rw [h] at hc
      exact absurd hc nofun
    · rw [h]
      rfl

/-- The commit of a check that has passed waits for its tick. -/
def State.passed (s : State) (c : PendingCommit) : State :=
  ((s.drop R.STG_STATUS.CHECKING).raise R.STG_STATUS.PENDING).setStage { s.stage with commit := some { c with since := s.dtime } }

/-- The state of a commit whose check has passed. -/
def State.checked (s : State) (c : PendingCommit) : State :=
  if (s.passed c).atReached c then (s.passed c).latch R.STG_STATUS.LATE_TRIGGER else s.passed c

theorem State.checked_eq (s : State) (c : PendingCommit) : s.checked c =
    if (s.passed c).atReached c then (s.passed c).latch R.STG_STATUS.LATE_TRIGGER else s.passed c := rfl

section
variable {c : PendingCommit} (hc : s.stage.commit = some c) (hk : s.flag R.STG_STATUS.CHECKING = true) {bs : List Byte} {w : State}
include hc hk

theorem exec_commitCheckDone_parity (hl : s.loadAll .firmware s.checkReads = (false, bs, w)) :
    exec .commitCheckDone s = .next (w.unfreeze.commitEnds c .parity 0) := by
  rw [exec_commitCheckDone, execCommitCheckDone, hc]
  dsimp only
  rw [hk, hl]
  rfl

theorem exec_commitCheckDone_clean (hl : s.loadAll .firmware s.checkReads = (true, bs, w)) :
    exec .commitCheckDone s = .next (if w.checkStage false ≠ 0 then w.refuseCommit c (w.checkStage false) else w.checked c) := by
  rw [exec_commitCheckDone, execCommitCheckDone, hc]
  dsimp only
  rw [hk, hl]
  rfl

end

theorem State.checked_changesOnly (s : State) (c : PendingCommit) : s.changesOnly [.regs, .stage] (s.checked c) := by
  intro e he
  simp only [List.mem_cons, List.not_mem_nil, or_false, not_or] at he
  obtain ⟨hr, hs⟩ := he
  have := closedRegs_of_ne (s := s) hr
  have := closedStage_of_ne (s := s) hs
  have h1 : Holds (fun t => e.same s t) (s.passed c) := Holds.stage (State.raise_holds (State.drop_holds Holds.same_refl))
  exact Holds.ite (G := fun t => e.same s t) (State.latch_holds h1) h1

theorem State.checked_rules (hw : sparseWf regDefault s.regs = true) (hf : s.flag R.STG_STATUS.FROZEN = true) (c : PendingCommit) :
    s.regsWithin [R.STG_STATUS] (s.checked c) ∧ (s.checked c).commitFlags = (true, false, true) ∧
    (s.checked c).stage = { s.stage with commit := some { c with since := s.dtime } } ∧
    (s.checked c).flag R.STG_STATUS.LATE_TRIGGER = (s.flag R.STG_STATUS.LATE_TRIGGER || s.atReached c) := by
  have h1 : sparseWf regDefault (s.drop R.STG_STATUS.CHECKING).regs = true := State.put_wf hw _ _
  have h2 : sparseWf regDefault (s.passed c).regs = true := State.put_wf h1 _ _
  have hin : s.regsWithin [R.STG_STATUS] (s.passed c) :=
    ((State.regsWithin_refl hw).drop (f := R.STG_STATUS.CHECKING) (.head _)).raise (f := R.STG_STATUS.PENDING) (.head _)
  have hkeep : ∀ f : Fld, R.STG_STATUS.CHECKING.apart f → R.STG_STATUS.PENDING.apart f → (s.passed c).flag f = s.flag f := fun f hf hg =>
    (State.flag_put_apart h1 (f := R.STG_STATUS.PENDING) (Fld.ok_of rfl) hg _).trans
      (State.flag_put_apart hw (f := R.STG_STATUS.CHECKING) (Fld.ok_of rfl) hf _)
  have hflags : (s.passed c).commitFlags = (true, false, true) := by
    have hfr : (s.passed c).flag R.STG_STATUS.FROZEN = true := (hkeep _ (Fld.apart_of rfl) (Fld.apart_of rfl)).trans hf
    have hch : (s.passed c).flag R.STG_STATUS.CHECKING = false :=
      (State.flag_put_apart h1 (f := R.STG_STATUS.PENDING) (Fld.ok_of rfl) (Fld.apart_of rfl) _).trans
        (congrArg (· != 0) (State.get_drop hw (Fld.ok_of rfl)))
    have hpe : (s.passed c).flag R.STG_STATUS.PENDING = true := State.flag_raise h1 (Fld.ok_of rfl)
    unfold State.commitFlags
    rw [hfr, hch, hpe]
  have hreach : (s.passed c).atReached c = s.atReached c := rfl
  rw [State.checked_eq, hreach]
  split
  · next hr =>
    refine ⟨hin.latch (f := R.STG_STATUS.LATE_TRIGGER) (.head _), ?_, rfl, ?_⟩
    · unfold State.commitFlags
      rw [State.flag_latch_apart h2 (Fld.ok_of rfl) (by decide) (Fld.apart_of rfl),
        State.flag_latch_apart h2 (Fld.ok_of rfl) (by decide) (Fld.apart_of rfl),
        State.flag_latch_apart h2 (Fld.ok_of rfl) (by decide) (Fld.apart_of rfl)]
      exact hflags
    · rw [State.flag_latch h2 (Fld.ok_of rfl), hr, Bool.or_true]
  · next hr =>
    refine ⟨hin, hflags, rfl, ?_⟩
    rw [Bool.eq_false_of_not_eq_true hr, Bool.or_false]
    exact hkeep _ (Fld.apart_of rfl) (Fld.apart_of rfl)

/-! ### COMMIT_APPLY (R383, R384) -/

theorem State.commitDue_eq {c : PendingCommit} (hc : s.stage.commit = some c) : s.commitDue =
    if s.flag R.STG_STATUS.PENDING && decide (c.since < s.dtime) && (c.when_ == 0 || s.atReached c)
      && !(c.when_ == 1 && s.flag R.POS_STATUS.POS_LOST) then some c else none := by
  unfold State.commitDue
  rw [hc]

theorem exec_commitApply_skip (h : s.commitDue = none) : exec .commitApply s = .next s := by
  rw [exec_commitApply, execCommitApply, State.commitTick, h]

theorem exec_commitApply_refused {c : PendingCommit} (h : s.commitDue = some c) (hk : s.checkStage true ≠ 0) :
    exec .commitApply s = .next (s.refuseCommit c (s.checkStage true)) := by
  rw [exec_commitApply, execCommitApply, State.commitTick, h]
  exact congrArg _ (if_pos hk)

/-- The state after the stage `s` has come into force, before what follows on it. -/
def State.committed (s : State) : State :=
  (({ s.emptyStage with pairs := [] }.drop R.STG_STATUS.PAIR_OPEN).put64 R.STG_COMMIT_DTIME_LO.N R.STG_COMMIT_DTIME_HI.N s.dtime).bumpWrap
    R.STG_COMMIT_CNT.N

theorem exec_commitApply_applied {c : PendingCommit} (h : s.commitDue = some c) (hk : s.checkStage true = 0) :
    exec .commitApply s = .next (s.applyStage.committed.settle.commitEnds c .ok s.applyStage.committed.dtime).settle := by
  rw [exec_commitApply, execCommitApply, State.commitTick, h]
  exact congrArg _ (if_neg (not_not_intro hk))

theorem State.committed_changesOnly (s : State) : s.changesOnly [.regs, .staged, .pairs, .stage] s.committed := by
  intro c hc
  simp only [List.mem_cons, List.not_mem_nil, or_false, not_or] at hc
  obtain ⟨hr, hg, hp, hs⟩ := hc
  have := closedRegs_of_ne (s := s) hr
  have := closedStaged_of_ne (s := s) hg
  have := closedPairs_of_ne (s := s) hp
  have := closedStage_of_ne (s := s) hs
  exact State.bumpWrap_holds (G := fun t => c.same s t)
    (State.put64_holds (State.drop_holds (Holds.pairs (State.emptyStage_holds Holds.same_refl))))

/-- The registers that an applied commit writes beyond what it brings into force. -/
def commitOffsets : List Nat := [R.STG_STATUS, R.ADP_PUB_STATUS, R.STG_COMMIT_DTIME_LO, R.STG_COMMIT_DTIME_HI, R.STG_COMMIT_CNT]

/-- The stage and the open pairs are empty. -/
def State.emptied (s : State) : State := { s.emptyStage with pairs := [] }.drop R.STG_STATUS.PAIR_OPEN

theorem State.committed_eq (s : State) : s.committed =
    (s.emptied.put64 R.STG_COMMIT_DTIME_LO.N R.STG_COMMIT_DTIME_HI.N s.dtime).bumpWrap R.STG_COMMIT_CNT.N := rfl

theorem State.emptied_regsWithin (hw : sparseWf regDefault s.regs = true) : s.regsWithin [R.STG_STATUS, R.ADP_PUB_STATUS] s.emptied :=
  State.regsWithin.drop (t := { s.emptyStage with pairs := [] }) (State.emptyStage_regsWithin hw) (f := R.STG_STATUS.PAIR_OPEN) (.head _)

theorem State.committed_regsWithin (hw : sparseWf regDefault s.regs = true) : s.emptied.regsWithin
    [R.STG_COMMIT_DTIME_LO, R.STG_COMMIT_DTIME_HI, R.STG_COMMIT_CNT] s.committed :=
  State.regsWithin.put ((State.regsWithin_refl (State.emptied_regsWithin hw).1).put64 (lo := R.STG_COMMIT_DTIME_LO.N)
    (hi := R.STG_COMMIT_DTIME_HI.N) (.head _) (.tail _ (.head _)) _) (f := R.STG_COMMIT_CNT.N) (.tail _ (.tail _ (.head _))) _

theorem State.committed_keepsRegs (hw : sparseWf regDefault s.regs = true) : s.keepsRegs commitOffsets s.committed := by
  intro o ho hn
  simp only [commitOffsets, List.mem_cons, List.not_mem_nil, or_false, not_or] at hn
  obtain ⟨h1, h2, h3, h4, h5⟩ := hn
  rw [(State.committed_regsWithin hw).2 o ho (by simp [h3, h4, h5]), (State.emptied_regsWithin hw).2 o ho (by simp [h1, h2])]

/-- What an applied commit shows: no freeze, no open pair, its tick and its count. -/
theorem State.committed_rules (hw : sparseWf regDefault s.regs = true) :
    s.committed.commitFlags = (false, false, false) ∧ s.committed.flag R.STG_STATUS.PAIR_OPEN = false ∧
    s.committed.get64 R.STG_COMMIT_DTIME_LO.N R.STG_COMMIT_DTIME_HI.N = s.dtime % 2 ^ 64 ∧
    s.committed.get R.STG_COMMIT_CNT.N = u32 (s.get R.STG_COMMIT_CNT.N + 1) := by
  have he := State.emptyStage_regsWithin hw
  have hd := State.emptied_regsWithin hw
  have hc := State.committed_regsWithin hw
  have hst : s.committed.reg R.STG_STATUS = s.emptied.reg R.STG_STATUS := hc.2 _ (by decide) (by decide)
  have hp : sparseWf regDefault (s.emptied.put64 R.STG_COMMIT_DTIME_LO.N R.STG_COMMIT_DTIME_HI.N s.dtime).regs = true :=
    State.put_wf (State.put_wf hd.1 _ _) _ _
  have hkeep : ∀ f : Fld, R.STG_STATUS.PAIR_OPEN.apart f → s.emptied.flag f = s.emptyStage.flag f := fun f hf =>
    State.flag_put_apart (s := { s.emptyStage with pairs := [] }) he.1 (f := R.STG_STATUS.PAIR_OPEN) (Fld.ok_of rfl) hf _
  refine ⟨?_, ?_, ?_, ?_⟩
  · rw [State.commitFlags_congr hst, State.commitFlags, hkeep _ (Fld.apart_of rfl), hkeep _ (Fld.apart_of rfl), hkeep _ (Fld.apart_of rfl)]
    exact State.emptyStage_flags hw
  · rw [State.flag, State.get_of_reg (f := R.STG_STATUS.PAIR_OPEN) hst]
    exact congrArg (· != 0) (State.get_drop (s := { s.emptyStage with pairs := [] }) he.1 (Fld.ok_of rfl))
  · rw [State.committed_eq, State.bumpWrap, State.get64_put_apart hp (Fld.ok_of rfl) (.inl (by decide)) (.inl (by decide))]
    exact State.get64_put64 hd.1 (by decide) _
  · have hcnt : (s.emptied.put64 R.STG_COMMIT_DTIME_LO.N R.STG_COMMIT_DTIME_HI.N s.dtime).get R.STG_COMMIT_CNT.N = s.get R.STG_COMMIT_CNT.N :=
      (((State.regsWithin_refl hd.1).put64 (offs := [R.STG_COMMIT_DTIME_LO, R.STG_COMMIT_DTIME_HI]) (lo := R.STG_COMMIT_DTIME_LO.N)
        (hi := R.STG_COMMIT_DTIME_HI.N) (.head _) (.tail _ (.head _)) s.dtime).get (by decide) (by decide)).trans
        (hd.get (by decide) (by decide))
    rw [State.committed_eq, State.bumpWrap, State.get_put_same hp (Fld.ok_of rfl), hcnt]
    rfl

end Sys2Proof.Machine
end

section
/-! PROOFS, commits: a stage of SDG_WIN and one correction table comes into force (R123, R384, R398). -/

namespace Sys2Proof.Machine

variable {s t : State} {offs : List Nat} {n : Nat}

variable {w : BitVec 32}

/-! ### A stage of SDG_WIN and one table (R123, R384, R398) -/

/-- A fold of steps that leave the state as it is. -/
theorem foldl_of_fixed {α β : Type} {f : α → β → α} {a : α} {l : List β} (h : ∀ x ∈ l, f a x = a) : l.foldl f a = a :=
  List.foldlRecOn (motive := (· = a)) l f rfl fun _ hb x hx => hb ▸ h x hx

/-- From `s` to `t` the stage has stayed, SDG_WIN has taken `w`, and no other register has changed but POS_STATUS and CLK_FREQ. -/
structure State.quiet (s : State) (w : BitVec 32) (t : State) : Prop where
  wf : sparseWf regDefault t.regs = true
  reg : ∀ {off : Nat}, (off ≠ 0x210000 ∧ off ≠ 0x40004 ∧ (off < 0x10040 ∨ 0x1004C < off)) → t.reg off = s.reg off
  win : t.reg 0x210000 = w
  stage : t.stage = s.stage

theorem State.quiet.get (h : s.quiet w t) {f : Fld} (hf : f.off ≠ 0x210000 ∧ f.off ≠ 0x40004 ∧ (f.off < 0x10040 ∨ 0x1004C < f.off)) :
    t.get f = s.get f := State.get_of_reg (h.reg hf)

theorem State.quiet.flag (h : s.quiet w t) {f : Fld} (hf : f.off ≠ 0x210000 ∧ f.off ≠ 0x40004 ∧ (f.off < 0x10040 ∨ 0x1004C < f.off)) :
    t.flag f = s.flag f := congrArg (· != 0) (h.get hf)

/-- A change of other parts. -/
theorem State.quiet.of_regs (h : s.quiet w t) {u : State} (hr : u.regs = t.regs) (hs : u.stage = t.stage) : s.quiet w u := by
  have he : ∀ off, u.reg off = t.reg off := fun off => by rw [State.reg, hr, State.reg]
  exact ⟨hr ▸ h.wf, fun ho => (he _).trans (h.reg ho), (he _).trans h.win, hs.trans h.stage⟩

theorem State.quiet.setReg (h : s.quiet w t) {off : Nat} (ho : off = 0x40004 ∨ (0x10040 ≤ off ∧ off ≤ 0x1004C)) (v : BitVec 32) :
    s.quiet w (t.setReg off v) := by
  refine ⟨State.setReg_wf h.wf _ _, fun {o} hq => ?_, ?_, h.stage⟩
  · rw [State.reg_setReg h.wf, if_neg (by omega)]
    exact h.reg hq
  · rw [State.reg_setReg h.wf, if_neg (by omega)]
    exact h.win

theorem State.withStage_eq (hs : s.staged = [(R.SDG_WIN, w)]) : s.withStage = s.setReg R.SDG_WIN w := by
  unfold State.withStage
  rw [hs]
  rfl

theorem State.withStage_quiet (hw : sparseWf regDefault s.regs = true) (hs : s.staged = [(R.SDG_WIN, w)]) : s.quiet w s.withStage := by
  rw [State.withStage_eq hs]
  refine ⟨State.setReg_wf hw _ _, fun {o} hq => ?_, ?_, rfl⟩
  · rw [State.reg_setReg hw, if_neg (by simp only [R.SDG_WIN]; omega)]
  · rw [State.reg_setReg hw]
    exact if_pos rfl

/-! The parts of the commit that find nothing of theirs changed. -/

theorem State.quiet.lpOn (h : s.quiet w t) {c : Nat} (hc : c < 16) : t.lpOn c = s.lpOn c := by
  unfold State.lpOn
  rw [h.flag (by simp only [R.LPIPE_CTL.ENABLE, R.LPIPE_CTL]; omega),
    h.flag (f := R.LPIPE_CAM_CFG.ENABLE c) (by simp only [R.LPIPE_CAM_CFG.ENABLE, R.LPIPE_CAM_CFG]; omega)]

theorem State.quiet.strType (h : s.quiet w t) {c k : Nat} (hc : c < 16) (hk : k < 8) : t.strType c k = s.strType c k :=
  h.get (by simp only [R.LPIPE_STR_CFG.TYPE, R.LPIPE_STR_CFG]; omega)

theorem State.quiet.lpEnd (h : s.quiet w t) : s.lpEnd t = s := by
  unfold State.lpEnd
  refine foldl_of_fixed fun x hx => ?_
  have hx := List.mem_range.1 hx
  dsimp only
  rw [h.lpOn (by omega), h.strType (by omega) (by omega)]
  simp

theorem State.quiet.coresCommit (h : s.quiet w t) : t.coresCommit s = t := by
  unfold State.coresCommit
  refine foldl_of_fixed fun x hx => if_neg ?_
  have hof : ∀ p, p < 8 → t.coreOf x p = s.coreOf x p := fun p hp => by
    unfold State.coreOf
    rw [h.flag (f := R.STG_PTN_CFG.ENABLE p) (by simp only [R.STG_PTN_CFG.ENABLE, R.STG_PTN_CFG]; omega),
      h.get (f := R.STG_PTN_CORES.CORES p) (by simp only [R.STG_PTN_CORES.CORES, R.STG_PTN_CORES]; omega)]
  have hany : (List.range 8).any (fun p => t.coreOf x p && !s.coreOf x p) = false := by
    refine List.any_eq_false.2 fun p hp => ?_
    rw [hof p (List.mem_range.1 hp)]
    simp
  rw [hany]
  simp

theorem State.quiet.waysCommit (h : s.quiet w t) : t.waysCommit s = t := by
  have hp : ∀ p, p < 8 → t.get (R.CEL_PART_CFG.WAYS p) = s.get (R.CEL_PART_CFG.WAYS p) := fun p hp =>
    h.get (by simp only [R.CEL_PART_CFG.WAYS, R.CEL_PART_CFG]; omega)
  have hf : t.get R.CEL_FW_WAYS.WAYS = s.get R.CEL_FW_WAYS.WAYS := h.get (by decide)
  unfold State.waysCommit
  extract_lets owner moved
  have ho : ∀ w, owner t w = owner s w := fun w => by
    unfold owner
    rw [hf]
    refine congrArg (· ++ _) (List.filter_congr fun p hp' => ?_)
    rw [hp p (List.mem_range.1 hp')]
  have hm : moved = [] := List.filter_eq_nil_iff.2 fun w _ => by rw [ho w]; simp
  rw [hm]
  rfl

theorem State.quiet.chanTouched (h : s.quiet w t) (hn : n < 4) : chanTouched s t n = false := by
  unfold Machine.chanTouched
  refine List.any_eq_false.2 fun k hk => ?_
  have hk := List.mem_range.1 hk
  rw [h.reg (by simp only [R.POS_E_CFG]; omega)]
  simp

theorem State.quiet.chanCommit (h : s.quiet w t) (hn : n < 4) : t.chanCommit s n = t := by
  have hg : ∀ f : Fld, f.off = R.POS_E_CFG n → t.get f = s.get f := fun f hf => h.get (by rw [hf]; simp only [R.POS_E_CFG]; omega)
  unfold State.chanCommit
  simp only [State.flag, hg (R.POS_E_CFG.ENABLE n) rfl, hg (R.POS_E_CFG.WORDLEN n) rfl, hg (R.POS_E_CFG.CODE n) rfl,
    hg (R.POS_E_CFG.DIR_INVERT n) rfl, h.chanTouched hn]
  simp

/-- A commit that leaves the configuration of position may begin the source's base anew, and of the registers writes ALIGNED. -/
theorem State.quiet.posCommit (h : s.quiet w t) (hz : s.flag R.POS_CTL.REZERO = false) :
    s.quiet w (t.posCommit s) := by
  have hchan : (List.range 4).foldl (fun (t : State) n => t.chanCommit s n) t = t :=
    foldl_of_fixed fun n hn => h.chanCommit (List.mem_range.1 hn)
  have hrole : t.get R.POS_CTL.ROLE = s.get R.POS_CTL.ROLE := h.get (by decide)
  have hsrc : t.source = s.source := h.get (f := R.POS_CTL.SOURCE) (by decide)
  have hact : chanActed s t s.source = false := by
    rw [Machine.chanActed, h.chanTouched (n := s.source) (State.get_lt s R.POS_CTL.SOURCE), Bool.and_false]
  have hcommit : t.roleCommit s = if t.drives && !(t.chan t.source).haveBase then t.beginBase else t := by
    unfold State.roleCommit
    simp [hrole, hsrc, hact]
  have hbegin : s.quiet w (t.roleCommit s) := by
    rw [hcommit]
    split
    · refine h.of_regs ?_ ?_
      · unfold State.beginBase
        dsimp only
        split <;> rfl
      · unfold State.beginBase
        dsimp only
        split <;> rfl
    · exact h
  have hal : ∀ u : State, s.quiet w u → s.quiet w (if u.flag R.GTS_CFG.ENABLE then u else u.drop R.POS_STATUS.ALIGNED) := fun u hu => by
    split
    · exact hu
    · exact hu.setReg (.inl rfl) _
  have h2 := hal _ hbegin
  unfold State.posCommit
  rw [hchan]
  dsimp only
  rw [h2.flag (f := R.POS_CTL.REZERO) (by decide), hz]
  exact h2

theorem State.quiet.seqCommit (h : s.quiet w t) (hs : t.stage.seqTouched = false) (hr : s.flag R.PSQ_CTL.REAPPLY = false) :
    t.seqCommit s false = t := by
  have hcfg : (List.range 56).any (fun k => s.reg (R.PSQ_TRK_CFG k) != t.reg (R.PSQ_TRK_CFG k)) = false := by
    refine List.any_eq_false.2 fun k hk => ?_
    have hk := List.mem_range.1 hk
    rw [h.reg (by simp only [R.PSQ_TRK_CFG]; omega)]
    simp
  unfold State.seqCommit
  simp [hcfg, hs, h.flag (f := R.PSQ_CTL.REAPPLY) (by decide), hr]

/-- No register of a camera or of its lanes has changed. -/
theorem State.quiet.camTouched (h : s.quiet w t) {c : Nat} (hc : c < 16) : camTouched s t c = (false, false) := by
  have hcam : ∀ f : Nat → Fld, (f c).off = R.CXP_CAM_CFG c → t.get (f c) = s.get (f c) := fun f hf =>
    h.get (by rw [hf]; simp only [R.CXP_CAM_CFG]; omega)
  have hlane : ∀ k ∈ t.camLanes c, t.reg (R.LANE_L_CFG k) = s.reg (R.LANE_L_CFG k) := fun k hk => by
    obtain ⟨j, hj, rfl⟩ := List.mem_map.1 hk
    have hb : t.get (R.CXP_CAM_CFG.LANE_BASE c) < 32 := State.get_lt t _
    have hl : t.get (R.CXP_CAM_CFG.LANES c) < 4 := State.get_lt t _
    have hj : j < 2 ^ 3 := lt_of_lt_of_le (List.mem_range.1 hj) (Nat.pow_le_pow_right (by decide) (by omega))
    exact h.reg (by simp only [R.LANE_L_CFG]; omega)
  have hany : ∀ F : Nat → Fld, (∀ k, (F k).off = R.LANE_L_CFG k) → (t.camLanes c).any (fun k => s.get (F k) != t.get (F k)) = false :=
    fun F hF => List.any_eq_false.2 fun k hk => by
      rw [State.get_of_reg (s := s) (t := t) (f := F k) ((hF k).symm ▸ hlane k hk)]
      simp
  have hreg : (t.camLanes c).any (fun k => s.reg (R.LANE_L_CFG k) != t.reg (R.LANE_L_CFG k)) = false :=
    List.any_eq_false.2 fun k hk => by
      rw [hlane k hk]
      simp
  unfold Machine.camTouched
  simp only [hcam R.CXP_CAM_CFG.LANES rfl, hcam R.CXP_CAM_CFG.LANE_BASE rfl, hcam R.CXP_CAM_CFG.MIN_RATE rfl,
    hany R.LANE_L_CFG.RATE fun _ => rfl, hany R.LANE_L_CFG.ENABLE fun _ => rfl, hany R.LANE_L_CFG.LOOP fun _ => rfl,
    hany R.LANE_L_CFG.PATTERN fun _ => rfl, hreg, h.reg (off := R.CXP_CAM_CFG c) (by simp only [R.CXP_CAM_CFG]; omega),
    h.reg (off := R.CXP_CAM_GEOM c) (by simp only [R.CXP_CAM_GEOM]; omega),
    h.reg (off := R.CXP_CAM_FMT c) (by simp only [R.CXP_CAM_FMT]; omega),
    h.reg (off := R.CXP_CAM_PFNC c) (by simp only [R.CXP_CAM_PFNC]; omega),
    h.reg (off := R.CXP_CAM_LATE c) (by simp only [R.CXP_CAM_LATE]; omega)]
  simp

theorem State.quiet.discoverList (h : s.quiet w t) : discoverList s t = [] := by
  unfold Machine.discoverList
  refine List.filter_eq_nil_iff.2 fun c hc => ?_
  rw [h.camTouched (List.mem_range.1 hc),
    h.flag (f := R.CXP_CAM_CFG.ENABLE c) (by have := List.mem_range.1 hc; simp only [R.CXP_CAM_CFG.ENABLE, R.CXP_CAM_CFG]; omega)]
  simp

theorem State.quiet.laneCommit (h : s.quiet w t) (hn : n < 64) : t.laneCommit s n = t := by
  have hg : ∀ f : Fld, f.off = R.LANE_L_CFG n → t.get f = s.get f := fun f hf => h.get (by rw [hf]; simp only [R.LANE_L_CFG]; omega)
  unfold State.laneCommit
  simp only [State.flag, hg (R.LANE_L_CFG.ENABLE n) rfl, hg (R.LANE_L_CFG.RATE n) rfl, hg (R.LANE_L_CFG.RX_INV n) rfl,
    hg (R.LANE_L_CFG.TX_INV n) rfl, hg (R.LANE_L_CFG.LOOP n) rfl, hg (R.LANE_L_CFG.PATTERN n) rfl]
  simp

theorem State.quiet.cameraCommit (h : s.quiet w t) : t.cameraCommit s = t := by
  have hoff : (List.range 16).filter (fun c => s.flag (R.CXP_CAM_CFG.ENABLE c) && !t.flag (R.CXP_CAM_CFG.ENABLE c)) = [] := by
    refine List.filter_eq_nil_iff.2 fun c hc => ?_
    have hc := List.mem_range.1 hc
    rw [h.flag (f := R.CXP_CAM_CFG.ENABLE c) (by simp only [R.CXP_CAM_CFG.ENABLE, R.CXP_CAM_CFG]; omega)]
    simp
  have hlane : (List.range 64).foldl (fun (t : State) n => t.laneCommit s n) t = t :=
    foldl_of_fixed fun n hn => h.laneCommit (List.mem_range.1 hn)
  unfold State.cameraCommit
  rw [h.discoverList, hoff]
  dsimp only [List.foldl_nil]
  rw [hlane]
  refine foldl_of_fixed fun c hc => ?_
  have hc := List.mem_range.1 hc
  rw [h.reg (off := R.CXP_CAM_GEOM c) (by simp only [R.CXP_CAM_GEOM]; omega),
    h.reg (off := R.CXP_CAM_FMT c) (by simp only [R.CXP_CAM_FMT]; omega),
    h.reg (off := R.CXP_CAM_PFNC c) (by simp only [R.CXP_CAM_PFNC]; omega)]
  simp

/-- None of the registers listed has changed. -/
theorem State.quiet.any_reg (h : s.quiet w t) {os : List Nat} (ho : ∀ o ∈ os, o ≠ 0x210000 ∧ o ≠ 0x40004 ∧ (o < 0x10040 ∨ 0x1004C < o)) :
    os.any (fun o => t.reg o != s.reg o) = false ∧ os.any (fun o => s.reg o != t.reg o) = false := by
  refine ⟨List.any_eq_false.2 fun o hm => ?_, List.any_eq_false.2 fun o hm => ?_⟩ <;>
  · rw [h.reg (ho o hm)]
    simp

theorem State.quiet.markDiffers (h : s.quiet w t) {m : Nat} (hm : m < 64) : markDiffers t s m = false := by
  refine (h.any_reg fun o ho => ?_).1
  simp only [List.mem_cons, List.not_mem_nil, or_false, R.LPIPE_MRK_CFG, R.LPIPE_MRK_WX, R.LPIPE_MRK_WY, R.LPIPE_MRK_NOM,
    R.LPIPE_MRK_MIN_W, R.LPIPE_MRK_STEER_MAX] at ho
  omega

theorem State.quiet.ringDiffers (h : s.quiet w t) {c k : Nat} (hc : c < 16) (hk : k < 8) : ringDiffers t s c k = false := by
  refine (h.any_reg fun o ho => ?_).1
  simp only [List.mem_cons, List.not_mem_nil, or_false, R.LPIPE_STR_BUF_LO, R.LPIPE_STR_BUF_HI, R.LPIPE_STR_BUF_CTL] at ho
  omega

theorem State.quiet.streamCommit (h : s.quiet w t) {c k : Nat} (hc : c < 16) (hk : k < 8) : t.streamCommit s c k = t := by
  unfold State.streamCommit
  extract_lets on
  have hon : on t = on s := by
    unfold on
    rw [h.lpOn hc, h.strType hc hk]
  rw [hon, h.strType hc hk, h.ringDiffers hc hk]
  cases on s <;> simp

theorem State.quiet.lpCommit (h : s.quiet w t) : t.lpCommit s = t := by
  have hstr : (List.range 16).foldl (fun (t : State) c =>
      let t := if t.lpOn c && !s.lpOn c then { t with lp := { t.lp with nextRow := setNth t.lp.nextRow c (t.cam c).gates } } else t
      (List.range 8).foldl (fun (t : State) k => t.streamCommit s c k) t) t = t := by
    refine foldl_of_fixed fun c hc => ?_
    have hc := List.mem_range.1 hc
    rw [h.lpOn hc, Bool.and_not_self, if_neg Bool.false_ne_true]
    exact foldl_of_fixed fun k hk => h.streamCommit hc (List.mem_range.1 hk)
  have hcrop : (List.range 1024).foldl (fun (t : State) i =>
      if [R.LPIPE_CROP_CFG i, R.LPIPE_CROP_ROWS i, R.LPIPE_CROP_X i, R.LPIPE_CROP_W i].any (fun o => s.reg o != t.reg o)
        || Machine.markDiffers t s (t.get (R.LPIPE_CROP_CFG.MARK i)) then t.resetSteer (R.LPIPE_CROP_STEER i) else t) t = t := by
    refine foldl_of_fixed fun i hi => if_neg ?_
    have hi := List.mem_range.1 hi
    rw [h.markDiffers (m := t.get (R.LPIPE_CROP_CFG.MARK i)) (State.get_lt t _), Bool.or_false, (h.any_reg fun o ho => ?_).2]
    · exact Bool.false_ne_true
    · simp only [List.mem_cons, List.not_mem_nil, or_false, R.LPIPE_CROP_CFG, R.LPIPE_CROP_ROWS, R.LPIPE_CROP_X, R.LPIPE_CROP_W] at ho
      omega
  have hpat : (List.range 256).foldl (fun (t : State) i =>
      if [R.LPIPE_PAT_CFG i, R.LPIPE_PAT_WX i, R.LPIPE_PAT_WY i].any (fun o => s.reg o != t.reg o)
        || Machine.markDiffers t s (t.get (R.LPIPE_PAT_CFG.MARK i)) then t.resetSteer (R.LPIPE_PAT_STEER i) else t) t = t := by
    refine foldl_of_fixed fun i hi => if_neg ?_
    have hi := List.mem_range.1 hi
    rw [h.markDiffers (m := t.get (R.LPIPE_PAT_CFG.MARK i)) (State.get_lt t _), Bool.or_false, (h.any_reg fun o ho => ?_).2]
    · exact Bool.false_ne_true
    · simp only [List.mem_cons, List.not_mem_nil, or_false, R.LPIPE_PAT_CFG, R.LPIPE_PAT_WX, R.LPIPE_PAT_WY] at ho
      omega
  unfold State.lpCommit
  rw [hstr]
  dsimp only
  rw [hcrop, hpat]

theorem State.quiet.fieldCommit (h : s.quiet w t) : t.fieldCommit s = t := by
  have hq : (List.range 16).foldl (fun (t : State) q =>
      if s.reg (R.FLD_Q_CFG q) = t.reg (R.FLD_Q_CFG q) then t else t.sendDown (t.outCfgMsg q)) t = t :=
    foldl_of_fixed fun q hq => if_pos (h.reg (by have := List.mem_range.1 hq; simp only [R.FLD_Q_CFG]; omega)).symm
  have hi : ∀ n ∈ List.range 16, t.reg (R.FLD_I_CFG n) = s.reg (R.FLD_I_CFG n) := fun n hn =>
    h.reg (by have := List.mem_range.1 hn; simp only [R.FLD_I_CFG]; omega)
  have hin : (List.range 16).foldl (fun (t : State) n =>
      if s.reg (R.FLD_I_CFG n) = t.reg (R.FLD_I_CFG n) then t else t.sendDown (t.inCfgMsg n)) t = t :=
    foldl_of_fixed fun n hn => if_pos (hi n hn).symm
  unfold State.fieldCommit
  rw [hq]
  dsimp only
  rw [hin]
  refine if_neg ?_
  rw [List.any_eq_true]
  rintro ⟨n, hn, hne⟩
  rw [hi n hn] at hne
  simp at hne

theorem State.quiet.captureCommit (h : s.quiet w t) (hi : s.stage.images = []) (hg : s.stage.weights = [])
    (ha : s.flag R.ADP_CAP_CFG.ARM = false) : t.captureCommit s = t := by
  unfold State.captureCommit
  extract_lets replaced s1
  have hrep : replaced = false := by
    unfold replaced
    split
    · rfl
    · rw [h.stage, hi, hg]
      rfl
  have h1 : s1 = t := by
    unfold s1
    rw [hrep]
    rfl
  refine (if_neg ?_).trans h1
  rw [h1, h.flag (f := R.ADP_CAP_CFG.ARM) (by decide), ha]
  exact Bool.false_ne_true

theorem State.quiet.pubCommit (h : s.quiet w t) (hs : s.stage.sos = []) : t.pubCommit s = t := by
  have hreq : t.get R.ADP_PUB_SO.REQ = s.get R.ADP_PUB_SO.REQ := h.get (by decide)
  have hen : t.flag R.ADP_PUB_CFG.ENABLE = s.flag R.ADP_PUB_CFG.ENABLE := h.flag (by decide)
  unfold State.pubCommit
  rw [h.stage, hs, hreq, hen]
  simp [keyGet]

theorem State.quiet.deepCommit (h : s.quiet w t) (hq : ∀ q, q < 4 → s.quadState q ≠ 2) : t.deepCommit = t := by
  refine foldl_of_fixed fun q hm => if_neg ?_
  have hst : t.quadState q = s.quadState q := by
    unfold State.quadState
    rw [h.get (f := R.PWR_STATUS.QSTATE) (by decide)]
  rw [hst, decide_eq_false (hq q (List.mem_range.1 hm))]
  exact Bool.false_ne_true

theorem State.quiet.freqCommit (h : s.quiet w t) : s.quiet w t.freqCommit := by
  unfold State.freqCommit State.showFreqs
  refine List.foldlRecOn (motive := s.quiet w) _ _ (h.of_regs rfl rfl) fun u hu q hq => hu.setReg (.inr ?_) _
  have := List.mem_range.1 hq
  simp only [R.CLK_FREQ.MHZ, R.CLK_FREQ]
  omega

theorem State.quiet.jobsCommit (h : s.quiet w t) (hi : s.stage.images = []) (hg : s.stage.weights = []) (hr : s.stage.refs = [])
    (hj : s.stage.jobs = []) : t.jobsCommit = t := by
  unfold State.jobsCommit
  have hjs : (List.range 64).filter (fun j => (keyGet t.stage.images j).isSome || (keyGet t.stage.weights j).isSome) = [] := by
    refine List.filter_eq_nil_iff.2 fun j _ => ?_
    rw [h.stage, hi, hg]
    exact Bool.false_ne_true
  have hst : (List.range 64).filter (fun j => t.starts j) = [] := by
    refine List.filter_eq_nil_iff.2 fun j _ => ?_
    rw [State.starts, h.stage, hj]
    exact Bool.false_ne_true
  rw [hjs]
  dsimp only [List.foldl_nil]
  rw [h.stage, hr]
  dsimp only [List.foldl_nil]
  rw [hst]
  rfl

theorem State.quiet.inCommit (h : s.quiet w t) : s.quiet w (t.inCommit s) ∧ (t.inCommit s).sdg = t.sdg ∧ (t.inCommit s).lp = t.lp := by
  have hen : t.flag R.ADP_IN_CFG.ENABLE = s.flag R.ADP_IN_CFG.ENABLE := h.flag (by decide)
  have hkey : t.runKey = s.runKey := by
    unfold State.runKey State.inSeed State.inB State.inSlot State.get64
    rw [h.get (f := R.ADP_IN_SEED_LO.N) (by decide), h.get (f := R.ADP_IN_SEED_HI.N) (by decide), h.get (f := R.ADP_IN_LIST_LO.N) (by decide),
      h.get (f := R.ADP_IN_LIST_HI.N) (by decide), h.get (f := R.ADP_IN_CFG.BATCH) (by decide), h.get (f := R.ADP_IN_CFG.QDEPTH) (by decide),
      h.get (f := R.ADP_IN_SLOT.UNITS) (by decide), h.get (f := R.ADP_IN_COUNT.N) (by decide), h.get (f := R.ADP_IN_CFG.SRC_CAP) (by decide)]
  unfold State.inCommit
  rw [hen, hkey]
  cases s.flag R.ADP_IN_CFG.ENABLE
  · exact ⟨h.of_regs rfl rfl, rfl, rfl⟩
  · simp
    exact h

theorem State.quiet.audCommit (h : s.quiet w t) : t.audCommit s = t := by
  refine foldl_of_fixed fun a ha => ?_
  have ha := List.mem_range.1 ha
  rw [h.flag (f := R.ADP_AUD_CFG.ENABLE a) (by simp only [R.ADP_AUD_CFG.ENABLE, R.ADP_AUD_CFG]; omega), Bool.and_not_self]
  rfl

theorem State.quiet.tpoCommit (h : s.quiet w t) : t.tpoCommit s = t := by
  refine foldl_of_fixed fun k hk => if_pos ?_
  have hk := List.mem_range.1 hk
  refine List.all_eq_true.2 fun f hf => ?_
  have ho : f.off = R.NTM_TPO_CFG k := by
    simp only [List.mem_cons, List.not_mem_nil, or_false] at hf
    rcases hf with rfl | rfl | rfl <;> rfl
  rw [h.flag (f := f) (by rw [ho]; simp only [R.NTM_TPO_CFG]; omega)]
  exact beq_self_eq_true _

theorem State.quiet.clkCommit (h : s.quiet w t) : t.clkCommit s = t :=
  if_pos (h.get (f := R.CLK_CFG.PREFER) (by decide)).symm

theorem State.quiet.portCommit (h : s.quiet w t) {p : Nat} (hp : p < 8) : t.portCommit s p = t := by
  unfold State.portCommit
  rw [h.flag (f := R.GTS_G_CFG.ENABLE p) (by simp only [R.GTS_G_CFG.ENABLE, R.GTS_G_CFG]; omega),
    h.reg (off := R.GTS_CFG) (by decide), h.reg (off := R.GTS_MEMBERS_LO) (by decide), h.reg (off := R.GTS_MEMBERS_HI) (by decide),
    h.reg (off := R.GTS_G_CFG p) (by simp only [R.GTS_G_CFG]; omega), h.reg (off := R.GTS_G_ASYM p) (by simp only [R.GTS_G_ASYM]; omega)]
  cases s.flag (R.GTS_G_CFG.ENABLE p) <;> simp

theorem State.quiet.fabricCommit (h : s.quiet w t) : t.fabricCommit s = t.mapsCommit s := by
  have hm : s.quiet w (t.mapsCommit s) := h.of_regs rfl rfl
  have hf : (List.range 8).foldl (fun (u : State) p => u.portCommit s p) (t.mapsCommit s) = t.mapsCommit s :=
    foldl_of_fixed fun p hp => hm.portCommit (List.mem_range.1 hp)
  unfold State.fabricCommit
  rw [hf]
  dsimp only
  rw [hm.reg (off := R.GTS_CFG) (by decide), hm.reg (off := R.GTS_MEMBERS_LO) (by decide), hm.reg (off := R.GTS_MEMBERS_HI) (by decide)]
  simp

theorem State.quiet.ptpCommit (h : s.quiet w t) : t.ptpCommit s = t := if_pos (h.reg (by decide)).symm

theorem State.quiet.netCommit (h : s.quiet w t) (hn : s.stage.nets = []) (ha : s.stage.allow = none) : t.netCommit = t := by
  refine if_pos ?_
  rw [h.stage, hn, ha]
  rfl

/-- An entry that is put is read back, and every other one as before. -/
theorem keyGet_keyPut {α : Type} (l : List (Nat × α)) (k j : Nat) (v : α) :
    keyGet (keyPut l k v) j = if j = k then some v else keyGet l j := by
  induction l with
  | nil => simp [keyPut, keyGet, eq_comm]
  | cons e r ih =>
    obtain ⟨i, u⟩ := e
    unfold keyPut
    split
    · simp [keyGet, eq_comm]
    · split
      · next h =>
        subst h
        by_cases hj : k = j <;> simp [keyGet, hj, eq_comm]
      · next h =>
        have hi : i = j → j ≠ k := fun e e' => h (e'.symm.trans e.symm)
        unfold keyGet
        rw [ih]
        split
        · next hij => rw [if_neg (hi hij)]
        · rfl

/-- The correction tables of a camera with the staged one in force. -/
def Tables.with (t : Tables) (k : Nat) (vs : List Nat) : Tables :=
  match k with
  | 0 => { t with dark := some vs }
  | 1 => { t with gain := some vs }
  | _ => { t with defect := some vs }

theorem Tables.with_rules (t : Tables) (k : Nat) (vs : List Nat) : (t.with k vs).dark = (if k = 0 then some vs else t.dark) ∧
    (t.with k vs).gain = (if k = 1 then some vs else t.gain) ∧ (t.with k vs).defect = (if 2 ≤ k then some vs else t.defect) := by
  match k with
  | 0 => exact ⟨rfl, rfl, rfl⟩
  | 1 => exact ⟨rfl, rfl, rfl⟩
  | k + 2 => exact ⟨rfl, rfl, (if_pos (by omega)).symm⟩

/-- One staged table comes into force at its camera. -/
theorem State.tablesCommit_one {c k : Nat} {vs : List Nat} (ht : t.stage.tables = [(c, k, vs)]) :
    (∀ x, t.tablesCommit.tables x = if x = c then (t.tables c).with k vs else t.tables x) ∧ t.tablesCommit.regs = t.regs ∧
    t.tablesCommit.stage = t.stage ∧ t.tablesCommit.sdg = t.sdg := by
  have he : ∃ b x, t.tablesCommit = { t with lp := { t.lp with tables := keyPut t.lp.tables c ((t.tables c).with k vs), badTables := b }, cel := x } := by
    unfold State.tablesCommit
    rw [ht]
    exact ⟨_, _, rfl⟩
  obtain ⟨b, x, he⟩ := he
  rw [he]
  refine ⟨fun x => ?_, rfl, rfl, rfl⟩
  unfold State.tables
  dsimp only
  rw [keyGet_keyPut]
  split <;> rfl

theorem State.posCommit_keeps (t old : State) : (t.posCommit old).sdg = t.sdg ∧ (t.posCommit old).lp = t.lp := by
  have hsame : ∀ c, c ≠ Comp.regs → c ≠ .pos → c.same t (t.posCommit old) := fun c hr hp => by
    have := closedRegs_of_ne (s := t) hr
    have := closedPos_of_ne (s := t) hp
    exact State.posCommit_holds (G := fun u => c.same t u) Holds.same_refl
  exact ⟨hsame .sdg (by decide) (by decide), hsame .lp (by decide) (by decide)⟩

theorem State.freqCommit_keeps (t : State) : t.freqCommit.sdg = t.sdg ∧ t.freqCommit.lp = t.lp := by
  have hsame : ∀ c, c ≠ Comp.regs → c ≠ .clk → c.same t t.freqCommit := fun c hr hp => by
    have := closedRegs_of_ne (s := t) hr
    have := closedClk_of_ne (s := t) hp
    exact State.freqCommit_holds (G := fun u => c.same t u) Holds.same_refl
  exact ⟨hsame .sdg (by decide) (by decide), hsame .lp (by decide) (by decide)⟩

theorem State.quiet.windowCommit (h : s.quiet w t) : (t.windowCommit s).sdg.win = (if s.reg R.SDG_WIN = w then t.sdg.win else []) ∧
    (t.windowCommit s).regs = t.regs ∧ (t.windowCommit s).stage = t.stage ∧ (t.windowCommit s).lp = t.lp := by
  have hwin : t.reg R.SDG_WIN = w := h.win
  unfold State.windowCommit
  rw [hwin]
  split <;> exact ⟨rfl, rfl, rfl, rfl⟩

/-- A stage that holds a word for SDG_WIN and one correction table: the word is in the register, the window of verdicts starts anew
where it differs, and the table is in force. -/
theorem State.applyStage_winTable (hw : sparseWf regDefault s.regs = true) {c k : Nat} {vs : List Nat} (hs : s.staged = [(R.SDG_WIN, w)])
    (hst : s.stage = { commit := s.stage.commit, thawed := s.stage.thawed, tables := [(c, k, vs)] })
    (hz : s.flag R.POS_CTL.REZERO = false) (hr : s.flag R.PSQ_CTL.REAPPLY = false) (ha : s.flag R.ADP_CAP_CFG.ARM = false)
    (hq : ∀ q, q < 4 → s.quadState q ≠ 2) :
    s.applyStage.reg R.SDG_WIN = w ∧ s.applyStage.sdg.win = (if s.reg R.SDG_WIN = w then s.sdg.win else []) ∧
    ∀ x, s.applyStage.tables x = if x = c then (s.tables c).with k vs else s.tables x := by
  have h0 := State.withStage_quiet hw hs
  have hstops : (List.range 64).filter (fun j => s.stops j) = [] := by
    refine List.filter_eq_nil_iff.2 fun j _ => ?_
    rw [State.stops, hst]
    exact Bool.false_ne_true
  have hz' : s.withStage.flag R.POS_CTL.REZERO = false := (h0.flag (by decide)).trans hz
  have ha' : s.withStage.flag R.ADP_CAP_CFG.ARM = false := (h0.flag (by decide)).trans ha
  have h1 := h0.posCommit hz
  have ht1 : (s.withStage.posCommit s).stage.tables = [(c, k, vs)] := by rw [h1.stage, hst]
  obtain ⟨htab, hregs, hstage, hsdg⟩ := State.tablesCommit_one ht1
  have h2 := h1.of_regs hregs hstage
  obtain ⟨hwin, hwregs, hwstage, hwlp⟩ := h2.windowCommit
  have h3 := h2.of_regs hwregs hwstage
  have h4 := h3.freqCommit
  obtain ⟨h5, hsdg5, hlp5⟩ := h4.inCommit
  have h6 := h5.of_regs (u := State.mapsCommit _ s) rfl rfl
  have hso : ((s.withStage.posCommit s).tablesCommit.windowCommit s).soCommit = (s.withStage.posCommit s).tablesCommit.windowCommit s := by
    unfold State.soCommit
    rw [h3.stage, hst]
    rfl
  have hcap : ∀ u : State, u.captureArmed s = u := fun u => by
    unfold State.captureArmed
    rw [ha']
    rfl
  have hv : s.applyStage = (((s.withStage.posCommit s).tablesCommit.windowCommit s).freqCommit.inCommit s).mapsCommit s := by
    unfold State.applyStage
    dsimp only
    rw [hz', h0.lpEnd, hstops]
    dsimp only [List.foldl_nil]
    rw [h0.captureCommit (by rw [hst]) (by rw [hst]) ha, h0.coresCommit, h1.seqCommit (by rw [h1.stage, hst]) hr, h1.waysCommit,
      h1.cameraCommit, h2.lpCommit, h2.fieldCommit, hso, h3.pubCommit (by rw [hst]), h3.deepCommit hq,
      h4.jobsCommit (by rw [hst]) (by rw [hst]) (by rw [hst]) (by rw [hst]), hcap, h5.audCommit, h5.tpoCommit, h5.clkCommit,
      h5.fabricCommit, h6.ptpCommit, h6.netCommit (by rw [hst]) (by rw [hst])]
  have hlp : s.applyStage.lp = (s.withStage.posCommit s).tablesCommit.lp := by
    rw [hv]
    exact hlp5.trans ((State.freqCommit_keeps _).2.trans hwlp)
  have htables : ∀ x, s.applyStage.tables x = (s.withStage.posCommit s).tablesCommit.tables x := fun x => by
    rw [State.tables, hlp, State.tables]
  have hbefore : ∀ x, (s.withStage.posCommit s).tables x = s.tables x := fun x => by
    rw [State.tables, (State.posCommit_keeps _ s).2, State.withStage_eq hs]
    rfl
  refine ⟨hv ▸ h6.win, ?_, fun x => ?_⟩
  · have hsdgv : s.applyStage.sdg = ((s.withStage.posCommit s).tablesCommit.windowCommit s).sdg := by
      rw [hv]
      exact hsdg5.trans (State.freqCommit_keeps _).1
    rw [hsdgv, hwin, hsdg, (State.posCommit_keeps _ s).1, State.withStage_eq hs]
    rfl
  · rw [htables, htab, hbefore, hbefore]

end Sys2Proof.Machine
end

section
/-! PROOFS, commits: the commit as a whole, and what settles O42. -/

namespace Sys2Proof.Machine

variable {s t : State} {offs : List Nat} {n : Nat}

/-! ### The commit as a whole -/

/-- The stage comes into force on canonical registers. -/
theorem State.applyStage_wf (hw : sparseWf regDefault s.regs = true) : sparseWf regDefault s.applyStage.regs = true := by
  let G : State → Prop := fun t => sparseWf regDefault t.regs = true
  have regs : ClosedRegs G := ⟨fun _ _ hx h => hx h⟩
  have mem : ClosedMem G := ⟨fun _ _ _ h => h⟩
  have larder : ClosedLarder G := ⟨fun _ _ _ h => h⟩
  have host : ClosedHost G := ⟨fun _ _ _ h => h⟩
  have free : ClosedFree G := ⟨fun _ _ h => h⟩
  have cel : ClosedCel G := ⟨fun _ _ h => h⟩
  have pos : ClosedPos G := ⟨fun _ _ h => h⟩
  have lanes : ClosedLanes G := ⟨fun _ _ h => h⟩
  have cams : ClosedCams G := ⟨fun _ _ h => h⟩
  have lp : ClosedLp G := ⟨fun _ _ h => h⟩
  have seq : ClosedSeq G := ⟨fun _ _ h => h⟩
  have link : ClosedLink G := ⟨fun _ _ h => h⟩
  have aud : ClosedAud G := ⟨fun _ _ h => h⟩
  have loft : ClosedLoft G := ⟨fun _ _ h => h⟩
  have ntm : ClosedNtm G := ⟨fun _ _ h => h⟩
  have gts : ClosedGts G := ⟨fun _ _ h => h⟩
  have client : ClosedClient G := ⟨fun _ _ h => h⟩
  have cores : ClosedCores G := ⟨fun _ _ h => h⟩
  have lists : ClosedLists G := ⟨fun _ _ h => h⟩
  have jobs : ClosedJobs G := ⟨fun _ _ h => h⟩
  have ptns : ClosedPtns G := ⟨fun _ _ h => h⟩
  have flock : ClosedFlock G := ⟨fun _ _ h => h⟩
  have adp : ClosedAdp G := ⟨fun _ _ h => h⟩
  have sdg : ClosedSdg G := ⟨fun _ _ h => h⟩
  have sync : ClosedSync G := ⟨fun _ _ h => h⟩
  have clk : ClosedClk G := ⟨fun _ _ h => h⟩
  have boot : ClosedBoot G := ⟨fun _ _ h => h⟩
  exact State.applyStage_holds (G := G) hw

theorem State.complete_rules (d : Started) (st : Status) (x : Nat) : (s.complete d st x).regs = s.regs ∧
    (s.complete d st x).sync = s.sync ∧ (s.complete d st x).adp = s.adp := by
  have hsame : ∀ c, c ≠ Comp.host → c ≠ .client → c.same s (s.complete d st x) := fun c hh hc => by
    have := closedHost_of_ne (s := s) hh
    have := closedClient_of_ne (s := s) hc
    exact State.complete_holds (G := fun t => c.same s t) Holds.same_refl
  exact ⟨hsame .regs (by decide) (by decide), hsame .sync (by decide) (by decide), hsame .adp (by decide) (by decide)⟩

/-- A completion disturbs nothing of a calm module. -/
theorem State.complete_calm (h : s.calm) (d : Started) (st : Status) (x : Nat) : (s.complete d st x).calm := by
  obtain ⟨hr, hs, ha⟩ := s.complete_rules d st x
  exact State.calm_congr h hs ha (offs := []) (fun _ _ _ => by rw [State.reg, hr, State.reg]) ⟨List.not_mem_nil, List.not_mem_nil, fun _ _ => List.not_mem_nil⟩

theorem State.committed_calm (hw : sparseWf regDefault s.regs = true) (h : s.calm) : s.committed.calm := by
  refine State.calm_congr h (s.committed_changesOnly .sync (by decide)) (s.committed_changesOnly .adp (by decide)) (State.committed_keepsRegs hw)
    ⟨by decide, by decide, fun p hp => ?_⟩
  simp only [commitOffsets, List.mem_cons, List.not_mem_nil, or_false, R.STG_PTN_STATUS, R.STG_STATUS, R.ADP_PUB_STATUS, R.STG_COMMIT_DTIME_LO,
    R.STG_COMMIT_DTIME_HI, R.STG_COMMIT_CNT]
  omega

/-- A commit that applies in a calm module, whatever its descriptor. -/
theorem exec_commitApply_calm {c : PendingCommit} (hw : sparseWf regDefault s.regs = true) (h : s.commitDue = some c)
    (hk : s.checkStage true = 0) (hc : s.applyStage.calm) :
    (c.ring = none → exec .commitApply s = .next s.applyStage.committed) ∧
    ∀ r i d, c.ring = some (r, i) → s.applyStage.client.started.find? (fun x => x.ring == r && x.index == i) = some d →
      exec .commitApply s = .next (s.applyStage.committed.complete d .ok s.applyStage.dtime) := by
  have hcalm := State.committed_calm (State.applyStage_wf hw) hc
  have hdt : s.applyStage.committed.dtime = s.applyStage.dtime := State.committed_changesOnly _ .dtime (by decide)
  have hcl : s.applyStage.committed.client = s.applyStage.client := State.committed_changesOnly _ .client (by decide)
  have he := exec_commitApply_applied h hk
  rw [State.settle_of_calm hcalm] at he
  refine ⟨fun hr => ?_, fun r i d hr hd => ?_⟩
  · rw [State.commitEnds_none hr] at he
    exact he.trans (congrArg _ (State.settle_of_calm hcalm))
  · rw [State.commitEnds_some hr (by rwa [hcl]), hdt] at he
    exact he.trans (congrArg _ (State.settle_of_calm (State.complete_calm hcalm _ _ _)))

/-! ### DISCARD (R358, R381) -/

theorem exec_discard_idle {ring : Fin 8192} {index : BitVec 32} {d : Started} (h : s.startedAs ring.val index.toNat 0x22 = some d)
    (hc : s.stage.commit = none) : exec (.discard ring index) s = .next (s.emptyStage.complete d .ok 0) := by
  rw [exec_discard, execDiscard]
  dsimp only
  rw [h]
  dsimp only
  rw [hc]

theorem exec_discard_commit {ring : Fin 8192} {index : BitVec 32} {d : Started} (h : s.startedAs ring.val index.toNat 0x22 = some d)
    {c : PendingCommit} (hc : s.stage.commit = some c) :
    exec (.discard ring index) s = .next ((s.emptyStage.commitEnds c .discarded 0).complete d .ok 0) := by
  rw [exec_discard, execDiscard]
  dsimp only
  rw [h]
  dsimp only
  rw [hc]

/-- What firmware's reads for the check leave as it was. -/
theorem State.checkReads_rules (hw : sparseWf regDefault s.regs = true) {ok : Bool} {bs : List Byte} {w : State}
    (h : s.loadAll .firmware s.checkReads = (ok, bs, w)) : sparseWf regDefault w.regs = true ∧ w.stage = s.stage ∧
    w.client = s.client ∧ w.thawedAt = s.thawedAt ∧ (∀ c, w.atReached c = s.atReached c) ∧ w.dtime = s.dtime ∧
    ∀ f : Fld, f.off = R.STG_STATUS → w.flag f = s.flag f := by
  have hr := State.reads.loadAll firmware_apart s.checkReads (State.reads_refl hw)
  have hc := State.loadAll_changesOnly (s := s) .firmware s.checkReads
  rw [h] at hr hc
  have hstage : w.stage = s.stage := hc .stage (by decide)
  have hdt : w.dtime = s.dtime := hc .dtime (by decide)
  have hpos : w.pos = s.pos := hc .pos (by decide)
  have hflag : ∀ f : Fld, f.off = R.STG_STATUS → w.flag f = s.flag f := fun f hf =>
    congrArg (· != 0) (State.get_of_reg (hf ▸ hr.1.2 R.STG_STATUS (by decide) (by decide)))
  refine ⟨hr.1.1, hstage, hc .client (by decide), ?_, fun c => ?_, hdt, hflag⟩
  · unfold State.thawedAt
    rw [hflag _ rfl, hdt, hstage]
  · unfold State.atReached
    rw [hpos, hdt]

/-- A refused commit as its descriptor's completion shows it. -/
theorem refused_of_exec (hw : sparseWf regDefault s.regs = true) {i : Instr} {t : State} {c : PendingCommit} {code r k : Nat} {d : Started}
    (he : exec i t = .next (s.refuseCommit c code)) (hr : c.ring = some (r, k))
    (hd : s.client.started.find? (fun x => x.ring == r && x.index == k) = some d) : ∃ u,
      exec i t = .next (u.complete d .checkFailed code) ∧ s.changesOnly [.regs, .stage] u ∧
      s.keepsRegs [R.STG_STATUS, R.STG_LAST, R.STG_CNT_REFUSED] u ∧ u.commitFlags = (false, false, false) ∧
      u.stage = { s.stage with commit := none, thawed := s.thawedAt } ∧ u.get R.STG_LAST.RULE = u16 code ∧
      s.counts R.STG_CNT_REFUSED.N 1 u := by
  have hcl : (s.refusal code).client = s.client := s.refusal_changesOnly code .client (by decide)
  refine ⟨s.refusal code, ?_, s.refusal_changesOnly code, State.refusal_rules hw code⟩
  rw [he, State.refuseCommit_eq, State.commitEnds_some hr (by rwa [hcl])]

/-- Settles O42: COMMIT, its check, its tick and DISCARD, each by the state that it leaves. -/
theorem commitsFreezeCheckAndApply : Obligations.CommitsFreezeCheckAndApply := by
  unfold Obligations.CommitsFreezeCheckAndApply
  intro s hcan flags clean thawed
  have hw : sparseWf regDefault s.regs = true := hcan.1
  refine ⟨fun ring index d hd => ⟨fun c hc => exec_commit_pending hd hc, fun hc hp => ?_⟩, exec_commitCheckDone_skip, exec_commitApply_skip,
    fun c hc => ?_, fun w c k vs hs hst hz hr ha hq => ?_, fun ring index d hd => ?_⟩
  · have hb := State.beginCheck_regsWithin (s := s.awaiting d) hw d.commitAsked
    exact ⟨_, exec_commit_begins hd hc, State.beginCheck_changesOnly d _, hb.2, State.beginCheck_flags (s := s.awaiting d) hw hp _, rfl, rfl, rfl⟩
  · have hdue := State.commitDue_eq hc
    intro reached due
    refine ⟨hdue, fun r i d hr hd => ?_, fun hk hf w hcl hcode => ?_, fun hd hcode hcalm => ?_⟩
    · intro refused
      refine ⟨fun hk w hcl hcode => ?_, fun hk bs w hl => ?_, fun hd' hcode => ?_⟩
      · obtain ⟨bs, hl⟩ := hcl
        obtain ⟨hww, hst, hclient, hth, -⟩ := State.checkReads_rules hw hl
        have he := (exec_commitCheckDone_clean hc hk hl).trans (congrArg _ (if_pos hcode))
        have hu := refused_of_exec hww he hr (by rwa [hclient])
        rwa [hst, hth] at hu
      · obtain ⟨hww, hst, hclient, -⟩ := State.checkReads_rules hw hl
        have hucl : w.unfreeze.client = w.client := w.unfreeze_changesOnly .client (by decide)
        refine ⟨w.unfreeze, ?_, w.unfreeze_changesOnly, (State.unfreeze_regsWithin hww).2, State.unfreeze_flags hww, hst ▸ rfl⟩
        rw [exec_commitCheckDone_parity hc hk hl, State.commitEnds_some hr (by rwa [hucl, hclient])]
      · exact refused_of_exec hw (exec_commitApply_refused (hdue.trans (if_pos hd')) hcode) hr hd
    · obtain ⟨bs, hl⟩ := hcl
      obtain ⟨hww, hst, -, -, hat, hdt, hflag⟩ := State.checkReads_rules hw hl
      obtain ⟨hreg, hfl, hstage, hlate⟩ := State.checked_rules hww ((hflag _ rfl).trans hf) c
      rw [hst, hdt] at hstage
      rw [hflag _ rfl, hat] at hlate
      exact ⟨_, (exec_commitCheckDone_clean hc hk hl).trans (congrArg _ (if_neg (not_not_intro hcode))), w.checked_changesOnly c, hreg.2,
        hfl, hstage, hlate⟩
    · have hv := State.applyStage_wf hw
      obtain ⟨hnone, hsome⟩ := exec_commitApply_calm hw (hdue.trans (if_pos hd)) hcode hcalm
      obtain ⟨hfl, hopen, htick, hcnt⟩ := State.committed_rules hv
      exact ⟨_, hnone, hsome, s.applyStage.committed_changesOnly, State.committed_keepsRegs hv, hfl, rfl, rfl, rfl, hopen, htick, hcnt⟩
  · obtain ⟨hwin, hsdg, htab⟩ := State.applyStage_winTable hw hs hst hz hr ha hq
    obtain ⟨hdark, hgain, hdefect⟩ := (s.tables c).with_rules k vs
    have hc : s.applyStage.tables c = (s.tables c).with k vs := (htab c).trans (if_pos rfl)
    exact ⟨hwin, hsdg, hc ▸ hdark, hc ▸ hgain, hc ▸ hdefect, fun x hx => (htab x).trans (if_neg hx)⟩
  · have h0 := s.emptyStage_changesOnly
    have hcl : s.emptyStage.client = s.client := h0 .client (by decide)
    intro t0
    have ht : t0 s.emptyStage := ⟨State.emptyStage_flags hw, rfl, rfl, h0, (State.emptyStage_regsWithin hw).2⟩
    refine ⟨fun hc => ⟨_, ht, exec_discard_idle hd hc⟩, fun c r i e hc hr he => ⟨_, ht, ?_⟩⟩
    rw [exec_discard_commit hd hc, State.commitEnds_some hr (by rwa [hcl])]

end Sys2Proof.Machine
end

section
/-! SUPPORT, fabric: a packet's arrival, its delivery to this module's receiver, and its forwarding (R430-R434). -/

namespace Sys2Proof.Machine

variable {s t : State} {offs : List Nat} {n : Nat}
variable {h : Packet} {type vc len : Nat} {bs : List Byte}

/-! ### A packet arrives (R430, R432) -/

theorem State.gport_setGport {p : Nat} (hp : p < s.gts.ports.length) (x : PortSt) : (s.setGport p x).gport p = x :=
  (nth_setNth hp p x {}).trans (if_pos rfl)

theorem State.setGport_setGport (p : Nat) (x y : PortSt) : (s.setGport p x).setGport p y = s.setGport p y := by
  unfold State.setGport
  dsimp only
  rw [setNth_eq_set, setNth_eq_set, setNth_eq_set, List.set_set]

/-- A set that is sent beside a change of the port. -/
theorem State.sendCtl_setGport {p : Nat} (hp : p < s.gts.ports.length) (x : PortSt) (type data : Nat) :
    (s.setGport p x).sendCtl p type data = s.setGport p { x.emit [ctlSet type data] with ctl := x.ctl ++ [(type, data)] } := by
  unfold State.sendCtl
  rw [State.gport_setGport hp, State.setGport_setGport]

theorem State.accept_down {b : Bool} (hs : s.portState h.port.val ≠ 3) : s.accept h vc len b = (false, s) := if_pos hs

theorem State.accept_inOrder {b : Bool} (hp : h.port.val < s.gts.ports.length) (ho : s.inOrder h) :
    s.accept h vc len b = (true, s.taken h vc len b) := by
  obtain ⟨hs, hl⟩ := ho
  unfold State.accept
  dsimp only
  rw [if_neg (not_not_intro hs), if_pos hl, State.sendCtl_setGport hp]
  unfold State.taken credData
  dsimp only
  rw [ite_mul, Nat.zero_mul]
  cases b <;> rfl

theorem PortSt.emit_nakSent (x : PortSt) (k : Option Nat) (ss : List (List (Bool × Byte))) :
    { x with nakSent := k }.emit ss = { x.emit ss with nakSent := k } := by
  unfold PortSt.emit
  dsimp only
  split <;> rfl

theorem State.accept_other {b : Bool} (hp : h.port.val < s.gts.ports.length) (hs : s.portState h.port.val = 3)
    (hl : h.lseq.toNat ≠ (s.gport h.port.val).rxSeq) : s.accept h vc len b = (false,
      if (s.gport h.port.val).nakSent = some (s.gport h.port.val).rxSeq then s
      else s.setGport h.port.val { (s.gport h.port.val).emit [ctlSet 2 (s.gport h.port.val).rxSeq] with
        nakSent := some (s.gport h.port.val).rxSeq
        ctl := (s.gport h.port.val).ctl ++ [(2, (s.gport h.port.val).rxSeq)] }) := by
  unfold State.accept
  dsimp only
  rw [if_neg (not_not_intro hs), if_neg hl, State.sendCtl_setGport hp, PortSt.emit_nakSent]
  split <;> rfl

/-- A packet that the port does not accept (R430): on a port that is not UP it changes nothing; one out of order is answered by
one NAK. -/
def State.drops (s : State) (i : Instr) (h : Packet) : Prop :=
  (s.portState h.port.val ≠ 3 → exec i s = .next s) ∧
  (s.portState h.port.val = 3 → h.lseq.toNat ≠ (s.gport h.port.val).rxSeq →
    ((s.gport h.port.val).nakSent = some (s.gport h.port.val).rxSeq → exec i s = .next s) ∧
    ((s.gport h.port.val).nakSent ≠ some (s.gport h.port.val).rxSeq → exec i s = .next (s.setGport h.port.val
      { (s.gport h.port.val).emit [ctlSet 2 (s.gport h.port.val).rxSeq] with
        nakSent := some (s.gport h.port.val).rxSeq
        ctl := (s.gport h.port.val).ctl ++ [(2, (s.gport h.port.val).rxSeq)] })))

/-- A command that leaves a packet not accepted to the port drops it. -/
theorem State.drops_of_accept {i : Instr} (hp : h.port.val < s.gts.ports.length) {b : Bool}
    (he : ∀ r, s.accept h vc len b = (false, r) → exec i s = .next r) : s.drops i h := by
  refine ⟨fun hs => he s (State.accept_down hs), fun hs hl => ?_⟩
  have ha := he _ (State.accept_other hp hs hl)
  exact ⟨fun hn => ha.trans (congrArg _ (if_pos hn)), fun hn => ha.trans (congrArg _ (if_neg hn))⟩

/-! ### The routes do not hang on what the ports hold (R434) -/

theorem State.levels_congr (hl : t.linksOf = s.linksOf) (root : Nat) : ∀ k, t.levels root k = s.levels root k
  | 0 => rfl
  | k + 1 => by
    unfold State.levels
    rw [State.levels_congr hl root k]
    unfold State.bfsRound
    rw [hl]

theorem State.linksOf_congr (hr : t.regs = s.regs) (hl : t.gts.links = s.gts.links) : t.linksOf = s.linksOf := by
  have hup : t.upPorts = s.upPorts := by
    unfold State.upPorts State.portState State.get State.reg
    rw [hr]
  funext m
  unfold State.linksOf State.myId
  rw [hup, hl, State.get_of_regs hr]

theorem State.leader_congr (hr : t.regs = s.regs) (hl : t.gts.links = s.gts.links) : t.leader = s.leader := by
  unfold State.leader State.component State.tree State.myId
  rw [State.levels_congr (State.linksOf_congr hr hl), State.get_of_regs hr]

theorem State.cameDown_congr (hr : t.regs = s.regs) (hl : t.gts.links = s.gts.links) (p : Nat) : t.cameDown p = s.cameDown p := by
  unfold State.cameDown State.tree State.myId
  rw [State.levels_congr (State.linksOf_congr hr hl), State.leader_congr hr hl, State.get_of_regs hr, State.get_of_regs hr]

/-! ### Delivered or forwarded (R434) -/

/-- What a packet for another module is sent on as. -/
def onwardPacket (h : Packet) (type vc : Nat) (bs : List Byte) : GPacket :=
  { via := some h.port.val, type := type, vc := vc, part := h.part.val, dst := h.dst.val, src := h.src.val, tag := h.tag.toNat
    epoch := h.epoch.toNat, payload := bs }

theorem State.deliverOrForward_dropped {mine : State → State} {r : State} (ha : s.accept h vc bs.length (h.dst.val != s.myId) = (false, r)) :
    s.deliverOrForward h type vc bs mine = r := by
  unfold State.deliverOrForward
  rw [ha]

theorem State.deliverOrForward_mine {mine : State → State} (hp : h.port.val < s.gts.ports.length) (ho : s.inOrder h)
    (hd : h.dst.val = s.myId) : s.deliverOrForward h type vc bs mine = mine (s.taken h vc bs.length) := by
  unfold State.deliverOrForward
  rw [State.accept_inOrder hp ho, hd, bne_self_eq_false]
  exact if_pos rfl

theorem State.deliverOrForward_onward {mine : State → State} (hp : h.port.val < s.gts.ports.length) (ho : s.inOrder h)
    (hd : h.dst.val ≠ s.myId) : s.deliverOrForward h type vc bs mine =
      (s.taken h vc bs.length true).sendTo (onwardPacket h type vc bs) (s.cameDown h.port.val) := by
  have hb : (h.dst.val != s.myId) = true := bne_iff_ne.2 hd
  unfold State.deliverOrForward
  rw [State.accept_inOrder hp ho, hb]
  refine (if_neg hd).trans ?_
  rw [State.cameDown_congr (t := s.taken h vc bs.length true) rfl rfl]
  rfl

/-- Every addressed packet goes to this module's own receiver, or on. -/
theorem exec_packetRow {i : Instr} (hi : packetRow i = some (h, type, vc, bs)) :
    ∃ mine, exec i s = .next (s.deliverOrForward h type vc bs mine) := by
  unfold packetRow at hi
  split at hi
  case h_11 => exact absurd hi nofun
  all_goals
    cases hi
    exact ⟨_, rfl⟩

theorem State.drops_packetRow {i : Instr} (hp : h.port.val < s.gts.ports.length) (hi : packetRow i = some (h, type, vc, bs)) :
    s.drops i h := by
  obtain ⟨mine, he⟩ := exec_packetRow hi
  exact State.drops_of_accept hp fun r ha => he.trans (congrArg _ (State.deliverOrForward_dropped ha))

theorem exec_packetRow_onward {i : Instr} (hp : h.port.val < s.gts.ports.length) (hi : packetRow i = some (h, type, vc, bs))
    (ho : s.inOrder h) (hd : h.dst.val ≠ s.myId) :
    exec i s = .next ((s.taken h vc bs.length true).sendTo (onwardPacket h type vc bs) (s.cameDown h.port.val)) := by
  obtain ⟨mine, he⟩ := exec_packetRow hi
  exact he.trans (congrArg _ (State.deliverOrForward_onward hp ho hd))

theorem State.drops_linkstate (hp : h.port.val < s.gts.ports.length) (links : List (Fin 8 × Fin 64 × Fin 8)) :
    s.drops (.linkstate h links) h := by
  refine State.drops_of_accept (vc := 0) (len := 3 * links.length) (b := false) hp fun r ha => ?_
  show execLinkstate h links s = _
  unfold execLinkstate
  rw [ha]

/-- The units of a forwarded packet return by the port it came by (R432). -/
theorem onwardPacket_credits (h : Packet) (type vc : Nat) (bs : List Byte) :
    ({ via := some h.port.val, type := type, vc := vc, part := h.part.val, payload := bs } : GPacket).credits =
      [(h.port.val, (20 + bs.length + 63) / 64 + (if vc < 2 then 0 else h.part.val * 2048) + vc * 16384)] := by
  unfold GPacket.credits credData GPacket.units
  dsimp only [Option.toList_some, List.map_cons, List.map_nil]
  rw [ite_mul, Nat.zero_mul]
  rfl

end Sys2Proof.Machine
end

section
/-! SUPPORT, fabric: what a store and a rewritten shard map can write, and what a PROMOTE leaves (R228, R439). -/

namespace Sys2Proof.Machine

variable {s t : State} {offs : List Nat} {n : Nat}

section
/-! ### One register kept -/

/-- The registers of `t` are canonical, and the one at `o` reads as in `s`. -/
def State.keepsReg (s : State) (o : Nat) (t : State) : Prop := sparseWf regDefault t.regs = true ∧ t.reg o = s.reg o

theorem State.keepsReg.get {f : Fld} (hk : s.keepsReg f.off t) : t.get f = s.get f := State.get_of_reg hk.2

theorem State.keepsReg.of_regs {o : Nat} (hk : s.keepsReg o t) {u : State} (e : u.regs = t.regs) : s.keepsReg o u := by
  unfold State.keepsReg State.reg at *
  rwa [e]

theorem State.keepsReg.trans {o : Nat} {u : State} (hk : s.keepsReg o t) (hu : t.keepsReg o u) : s.keepsReg o u :=
  ⟨hu.1, hu.2.trans hk.2⟩

theorem State.keepsReg_of_within (hw : s.regsWithin offs t) {o : Nat} (hl : o < 0x400000) (ho : o ∉ offs) : s.keepsReg o t :=
  ⟨hw.1, hw.2 o hl ho⟩

/-! ### What a store can change (R308-R315, R319) -/

theorem State.reads.writeHome (h : s.reads t) (x : Home) (bs : List Byte) : s.reads (t.writeHome x bs) := ⟨h.1.of_regs rfl, h.2⟩

theorem State.reads.writeAt (h : s.reads t) {ag : MemAgent} (ha : ag.apart) (a : Nat) (x : Home) (bs : List Byte) :
    s.reads (t.writeAt ag a x bs).2 := by
  have h1 : s.reads (t.roomWait ag x) := h.roomWait ag x
  have hl := h1.look ha x
  unfold State.writeAt
  extract_lets s1
  split
  · exact h1.hardFault ag _ x
  · split
    next look s2 e =>
    have h2 : s.reads s2 := by rwa [e] at hl
    have hc : s.reads (if look = Look.hit then (MemRes.ok, s2) else s2.checkWords ag a x (partWords a bs.length)).2 := by
      split
      · exact h2
      · exact State.reads.checkWords ag a x _ h2
    split
    · next e =>
      rw [e] at hc
      split
      · exact (hc.writeHome x bs).fetchLine ag a x _
      · exact hc.writeHome x bs
    · exact hc

theorem State.reads.storeLines {ag : MemAgent} (ha : ag.apart) : ∀ (f a : Nat) (bs : List Byte) {t : State}, s.reads t →
    s.reads (t.storeLines ag f a bs).2
  | 0, _, _, _, h => h
  | f + 1, a, bs, t, h => by
    unfold State.storeLines
    split
    · exact h
    · split
      · exact h
      · next x _ =>
        extract_lets m
        have hw := h.writeAt ha a x (bs.take m)
        split
        · next e => exact State.reads.storeLines ha f (a + m) (bs.drop m) (by rwa [e] at hw)
        · exact hw

/-- A store writes the registers of loads alone. -/
theorem State.reads.store (h : s.reads t) {ag : MemAgent} (ha : ag.apart) (a : Nat) (bs : List Byte) : s.reads (t.store ag a bs).2 :=
  State.reads.storeLines ha _ a bs h

end

section
variable {h : Packet} {type vc len : Nat} {bs : List Byte}

/-! ### Shard maps are rewritten (R228, R439) -/

theorem State.readMap_reads (hw : sparseWf regDefault s.regs = true) {ag : MemAgent} (ha : ag.apart) (c : List Nat) (z : Nat) :
    s.reads (s.readMap ag c z).2 := by
  unfold State.readMap
  split
  · exact (State.reads_refl hw).load ha _ _
  · exact State.reads_refl hw

theorem setResult_outcome {o v m : Nat} (ho : o < 8) : setResult o v m % 8 = o := by
  unfold setResult
  omega

theorem State.finishOp_regs (e c : Nat) (x : Thread) (i v : Nat) : (s.finishOp e c x i v).regs = s.regs := by
  unfold State.finishOp
  split <;> rfl

/-- An operation that ends in DOUBT writes the counter of DOUBT alone, if any register. -/
theorem State.finishSet_keepsReg (hw : sparseWf regDefault s.regs = true) {o : Nat} (hl : o < 0x400000) (ho : o % 4096 ≠ 0x20)
    (e c : Nat) (x : Thread) (i : Nat) {v : Nat} (hv : v % 8 = 4) : s.keepsReg o (s.finishSet e c x i v) := by
  have hc : o ∉ [R.FLK_ENG_CNT_DOUBT e] := by
    rw [List.mem_singleton]
    unfold R.FLK_ENG_CNT_DOUBT
    omega
  have hb : s.keepsReg o (s.countSeen e (v % 8)) := by
    rw [hv]
    exact State.keepsReg_of_within ((State.regsWithin_refl hw).bump (f := R.FLK_ENG_CNT_DOUBT.N e) (.head _)) hl hc
  unfold State.finishSet
  extract_lets t1
  refine State.keepsReg.of_regs (t := t1) ?_ (State.finishOp_regs _ _ _ _ _)
  unfold t1
  split
  · split
    · exact hb
    · exact ⟨hw, rfl⟩
  · exact ⟨hw, rfl⟩

theorem State.failSet_keepsReg (hw : sparseWf regDefault s.regs = true) {o : Nat} (hl : o < 0x400000) (ho : o % 4096 ≠ 0x20)
    (e c : Nat) (x : Thread) (i : Nat) : s.keepsReg o (s.failSet e c x i 4) :=
  State.finishSet_keepsReg (s := s.draw.2) hw hl ho e c x i (setResult_outcome (by decide))

theorem State.doubtOps_keepsReg {o : Nat} (hl : o < 0x400000) (ho : o % 4096 ≠ 0x20) (k z : Nat) : ∀ (m : Nat) {s : State},
    sparseWf regDefault s.regs = true → s.keepsReg o (s.doubtOps k z m)
  | 0, _, hw => ⟨hw, rfl⟩
  | m + 1, s, hw => by
    unfold State.doubtOps
    extract_lets on
    split
    · exact ⟨hw, rfl⟩
    · next x _ =>
      have hf := State.failSet_keepsReg hw hl ho (x.1 / 4096) (x.1 % 4096) x.2 (x.2.ops.findIdx on)
      exact hf.trans (State.doubtOps_keepsReg hl ho k z m hf.1)

theorem State.rewriteMap_local {k z w : Nat} (hf : ¬ (cfgEnabled (s.setCfg k) = true ∧ cfgFabric (s.setCfg k) = true)) :
    s.rewriteMap [(k, z, w)] = s := by
  refine if_pos ?_
  simpa [← Bool.not_eq_true, imp_iff_not_or] using hf

/-- The entry of a fabric set is written; then, where operations on the shard are in flight, they may end. -/
theorem State.rewriteMap_fabric {k z w : Nat} (hf : cfgEnabled (s.setCfg k) = true ∧ cfgFabric (s.setCfg k) = true) :
    ∃ g m, s.rewriteMap [(k, z, w)] = ({ ((s.readMap .firmware (s.setCfg k) z).2.store .firmware (cfgMap (s.setCfg k) + 4 * z)
      (leBytes 4 w)).2 with gts := g } : State).doubtOps k z m := by
  obtain ⟨he, hb⟩ := hf
  unfold State.rewriteMap
  simp only [List.foldl_cons, List.foldl_nil, he, hb, Bool.not_true, Bool.or_self, Bool.false_eq_true, if_false]
  split
  · exact ⟨_, _, rfl⟩
  · exact ⟨_, 0, rfl⟩

theorem State.doubtOps_mem (k z m : Nat) : (s.doubtOps k z m).mem = s.mem := by
  have := closedRegs_of_ne (s := s) (c := .mem) (by decide)
  have := closedFree_of_ne (s := s) (c := .mem) (by decide)
  have := closedFlock_of_ne (s := s) (c := .mem) (by decide)
  exact State.doubtOps_holds (G := fun t => Comp.mem.same s t) Holds.same_refl

theorem State.rewriteMap_mem {k z w : Nat} (hf : cfgEnabled (s.setCfg k) = true ∧ cfgFabric (s.setCfg k) = true) {r : MemRes} {v : State}
    (hr : s.readMap .firmware (s.setCfg k) z = (r, v)) :
    (s.rewriteMap [(k, z, w)]).mem = (v.store .firmware (cfgMap (s.setCfg k) + 4 * z) (leBytes 4 w)).2.mem := by
  obtain ⟨g, m, e⟩ := State.rewriteMap_fabric (s := s) (z := z) (w := w) hf
  rw [e, State.doubtOps_mem, hr]

theorem State.rewriteEntry_keepsReg (hw : sparseWf regDefault s.regs = true) {o : Nat} (hl : o < 0x400000) (hn : o ∉ loadOffsets)
    (ho : o % 4096 ≠ 0x20) (k z w : Nat) : s.keepsReg o (s.rewriteMap [(k, z, w)]) := by
  by_cases hf : cfgEnabled (s.setCfg k) = true ∧ cfgFabric (s.setCfg k) = true
  · obtain ⟨g, m, e⟩ := State.rewriteMap_fabric (s := s) (z := z) (w := w) hf
    have hs := ((State.readMap_reads hw firmware_apart (s.setCfg k) z).store firmware_apart (cfgMap (s.setCfg k) + 4 * z)
      (leBytes 4 w)).1
    have hk := (State.keepsReg_of_within hs hl hn).of_regs (u := { State.store _ _ _ _ |>.2 with gts := g }) rfl
    rw [e]
    exact hk.trans (State.doubtOps_keepsReg hl ho k z m hk.1)
  · rw [State.rewriteMap_local hf]
    exact ⟨hw, rfl⟩

/-- A shard map rewritten leaves a register that neither memory nor the operations that end write. -/
theorem State.rewriteMap_keepsReg {o : Nat} (hl : o < 0x400000) (hn : o ∉ loadOffsets) (ho : o % 4096 ≠ 0x20) :
    ∀ (xs : List (Nat × Nat × Nat)) {s : State}, sparseWf regDefault s.regs = true → s.keepsReg o (s.rewriteMap xs)
  | [], _, hw => ⟨hw, rfl⟩
  | (k, z, w) :: xs, _, hw =>
    have h1 := State.rewriteEntry_keepsReg hw hl hn ho k z w
    h1.trans (State.rewriteMap_keepsReg hl hn ho xs h1.1)

/-! ### PROMOTE (R439) -/

theorem leBytes_length : ∀ k v : Nat, (leBytes k v).length = k
  | 0, _ => rfl
  | k + 1, v => congrArg (· + 1) (leBytes_length k (v / 256))

theorem promoteBytes_length (epoch : Nat) : ∀ xs : List (Nat × Nat × Nat), (promoteBytes epoch xs).length = 4 + 6 * xs.length
  | [] => by simp [promoteBytes, leBytes_length]
  | x :: xs => by
    have ih := promoteBytes_length epoch xs
    simp only [promoteBytes, List.length_append, List.flatMap_cons, leBytes_length, List.length_cons] at ih ⊢
    omega

theorem State.takeEpoch_same {e : Nat} (he : s.get R.GTS_MAP_EPOCH.N = e) : s.takeEpoch e = s := if_pos he

theorem State.takeEpoch_new {e : Nat} (he : s.get R.GTS_MAP_EPOCH.N ≠ e) :
    s.takeEpoch e = (s.put R.GTS_MAP_EPOCH.N e).bump R.GTS_CNT_PROMOTE.N := if_neg he

theorem State.takeEpoch_epoch (hw : sparseWf regDefault s.regs = true) {e : Nat} (he : e < 2 ^ 32) :
    (s.takeEpoch e).get R.GTS_MAP_EPOCH.N = e := by
  by_cases h : s.get R.GTS_MAP_EPOCH.N = e
  · rw [State.takeEpoch_same h, h]
  · have hp := State.put_wf hw R.GTS_MAP_EPOCH.N e
    have hb : (s.put R.GTS_MAP_EPOCH.N e).keepsReg R.GTS_MAP_EPOCH ((s.put R.GTS_MAP_EPOCH.N e).bump R.GTS_CNT_PROMOTE.N) :=
      State.keepsReg_of_within ((State.regsWithin_refl (offs := [R.GTS_CNT_PROMOTE]) hp).bump (.head _)) (by decide) (by decide)
    rw [State.takeEpoch_new h, State.keepsReg.get (f := R.GTS_MAP_EPOCH.N) hb, State.get_put_same hw (Fld.ok_of rfl)]
    exact Nat.mod_eq_of_lt he

theorem State.takeEpoch_counts (hw : sparseWf regDefault s.regs = true) (e : Nat) :
    s.counts R.GTS_CNT_PROMOTE.N (if s.get R.GTS_MAP_EPOCH.N = e then 0 else 1) (s.takeEpoch e) := by
  split
  next h =>
    rw [State.takeEpoch_same h]
    exact State.counts_zero rfl
  next h =>
    have hc := State.counts_bump (State.put_wf hw R.GTS_MAP_EPOCH.N e) (f := R.GTS_CNT_PROMOTE.N) (Fld.ok_of rfl)
    unfold State.counts at *
    rwa [State.get_put_apart hw (Fld.ok_of rfl) (.inl (by decide)), ← State.takeEpoch_new h] at hc

/-- Packets sent write no registers. -/
theorem State.sendBcast_regs (k : GPacket) : (s.sendBcast k).regs = s.regs := by
  have := closedGts_of_ne (s := s) (c := .regs) (by decide)
  exact State.sendBcast_holds (G := fun t => Comp.regs.same s t) Holds.same_refl

/-- What the taking of a PROMOTE leaves: its epoch, counted once. -/
theorem State.promoted_rules {u : State} (hw : sparseWf regDefault s.regs = true) (hu : u.regs = s.regs) (xs : List (Nat × Nat × Nat))
    {e : Nat} (he : e < 2 ^ 32) : ((u.rewriteMap xs).takeEpoch e).get R.GTS_MAP_EPOCH.N = e ∧
      s.counts R.GTS_CNT_PROMOTE.N (if s.get R.GTS_MAP_EPOCH.N = e then 0 else 1) ((u.rewriteMap xs).takeEpoch e) := by
  have hu0 : ∀ o, s.keepsReg o u := fun o => State.keepsReg.of_regs (t := s) ⟨hw, rfl⟩ hu
  have h1 := (hu0 R.GTS_MAP_EPOCH).trans (State.rewriteMap_keepsReg (by decide) (by decide) (by decide) xs (hu0 0).1)
  have h2 := (hu0 R.GTS_CNT_PROMOTE).trans (State.rewriteMap_keepsReg (by decide) (by decide) (by decide) xs (hu0 0).1)
  have hc := State.takeEpoch_counts h1.1 e
  have hg1 : (u.rewriteMap xs).get R.GTS_MAP_EPOCH.N = s.get R.GTS_MAP_EPOCH.N := h1.get
  have hg2 : (u.rewriteMap xs).get R.GTS_CNT_PROMOTE.N = s.get R.GTS_CNT_PROMOTE.N := h2.get
  refine ⟨State.takeEpoch_epoch h1.1 he, ?_⟩
  unfold State.counts at *
  rwa [hg1, hg2] at hc

/-- What a report of doubtful copies notes (R439). -/
def State.takeReports (s : State) (h : Packet) (xs : List (Nat × Nat × Nat)) : State :=
  let rs := xs.map (fun x => (x.1, x.2.1, h.src.val))
  ({ s with gts := { s.gts with reports := s.gts.reports.filter (fun r => !rs.contains r) ++ rs } } : State).promoteNow

section
variable {epoch : BitVec 32} {changes : List (Fin 16 × Fin 256 × BitVec 32)}

/-- The changed entries of a PROMOTE: set, shard and word. -/
def changedEntries (changes : List (Fin 16 × Fin 256 × BitVec 32)) : List (Nat × Nat × Nat) :=
  changes.map (fun x => (x.1.val, x.2.1.val, x.2.2.toNat))

theorem exec_promote_report (hr : epoch.toNat = s.get R.GTS_MAP_EPOCH.N ∧ h.src.val ≠ s.leader) :
    exec (.promote h epoch changes) s = .next (s.deliverOrForward h 3 0 (promoteBytes epoch.toNat (changedEntries changes))
      (fun a => a.takeReports h (changedEntries changes))) := by
  refine congrArg _ (if_pos ?_)
  simpa using hr

theorem exec_promote_news (hr : ¬ (epoch.toNat = s.get R.GTS_MAP_EPOCH.N ∧ h.src.val ≠ s.leader)) :
    exec (.promote h epoch changes) s = .next (match s.accept h 0 (4 + 6 * changes.length) with
      | (false, r) => r
      | (true, a) => if h.src.val = a.myId then a
        else ((a.sendBcast { type := 3, vc := 0, src := h.src.val, bcast := true
                             payload := promoteBytes epoch.toNat (changedEntries changes) }).rewriteMap
          (changedEntries changes)).takeEpoch epoch.toNat) := by
  have hl : (promoteBytes epoch.toNat (changedEntries changes)).length = 4 + 6 * changes.length := by
    rw [promoteBytes_length, changedEntries, List.length_map]
  rw [← hl]
  refine congrArg _ (if_neg ?_)
  simpa using hr

theorem State.drops_promote (hp : h.port.val < s.gts.ports.length) : s.drops (.promote h epoch changes) h := by
  by_cases hr : epoch.toNat = s.get R.GTS_MAP_EPOCH.N ∧ h.src.val ≠ s.leader
  · exact State.drops_of_accept hp fun r ha => (exec_promote_report hr).trans (congrArg _ (State.deliverOrForward_dropped ha))
  · refine State.drops_of_accept (vc := 0) (len := 4 + 6 * changes.length) (b := false) hp fun r ha => (exec_promote_news hr).trans ?_
    rw [ha]

theorem exec_promote_own (hp : h.port.val < s.gts.ports.length) (ho : s.inOrder h)
    (hr : ¬ (epoch.toNat = s.get R.GTS_MAP_EPOCH.N ∧ h.src.val ≠ s.leader)) (hm : h.src.val = s.myId) :
    exec (.promote h epoch changes) s = .next (s.taken h 0 (4 + 6 * changes.length)) := by
  rw [exec_promote_news hr, State.accept_inOrder hp ho]
  exact congrArg _ (if_pos hm)

theorem exec_promote_taken (hp : h.port.val < s.gts.ports.length) (ho : s.inOrder h)
    (hr : ¬ (epoch.toNat = s.get R.GTS_MAP_EPOCH.N ∧ h.src.val ≠ s.leader)) (hm : h.src.val ≠ s.myId) :
    exec (.promote h epoch changes) s = .next ((((s.taken h 0 (4 + 6 * changes.length)).sendBcast
      { type := 3, vc := 0, src := h.src.val, bcast := true, payload := promoteBytes epoch.toNat (changedEntries changes) }).rewriteMap
        (changedEntries changes)).takeEpoch epoch.toNat) := by
  rw [exec_promote_news hr, State.accept_inOrder hp ho]
  exact congrArg _ (if_neg hm)

theorem exec_promote_reported (hp : h.port.val < s.gts.ports.length) (ho : s.inOrder h)
    (hr : epoch.toNat = s.get R.GTS_MAP_EPOCH.N ∧ h.src.val ≠ s.leader) (hd : h.dst.val = s.myId) :
    exec (.promote h epoch changes) s =
      .next ((s.taken h 0 (4 + 6 * changes.length)).takeReports h (changedEntries changes)) := by
  have hl : (promoteBytes epoch.toNat (changedEntries changes)).length = 4 + 6 * changes.length := by
    rw [promoteBytes_length, changedEntries, List.length_map]
  rw [exec_promote_report hr, State.deliverOrForward_mine hp ho hd, hl]

theorem exec_promote_onward (hp : h.port.val < s.gts.ports.length) (ho : s.inOrder h)
    (hr : epoch.toNat = s.get R.GTS_MAP_EPOCH.N ∧ h.src.val ≠ s.leader) (hd : h.dst.val ≠ s.myId) :
    exec (.promote h epoch changes) s = .next ((s.taken h 0 (promoteBytes epoch.toNat (changedEntries changes)).length true).sendTo
      (onwardPacket h 3 0 (promoteBytes epoch.toNat (changedEntries changes))) (s.cameDown h.port.val)) := by
  rw [exec_promote_report hr, State.deliverOrForward_onward hp ho hd]

end

end

end Sys2Proof.Machine
end

section
/-! SUPPORT, fabric: position tuples taken, discarded, or naming a new master (R50, R53). -/

namespace Sys2Proof.Machine

variable {s t : State} {offs : List Nat} {n : Nat}
variable {h : Packet} {x : Tuple}

/-! ### Position tuples (R50, R53) -/

/-- The value of a word read as two's complement. -/
theorem signed_toNat {w : Nat} (b : BitVec w) : signed w b.toNat = b.toInt := by
  have hb := b.isLt
  unfold signed
  rw [BitVec.toInt_eq_toNat_cond, Nat.mod_eq_of_lt hb]
  cases w with
  | zero => simp
  | succ w =>
    rw [Nat.add_sub_cancel, Nat.pow_succ]
    split <;> split <;> omega

/-- A tuple's SEQ is new (R50). -/
def State.seqFresh (s : State) (x : Tuple) : Prop :=
  ∀ l, s.pos.lastSeq = some l → 1 ≤ (x.seq.toNat + 65536 - l) % 65536 ∧ (x.seq.toNat + 65536 - l) % 65536 ≤ 32767

theorem seqNew_iff (last : Option Nat) (seq : Nat) : seqNew last seq = true ↔
    ∀ l, last = some l → 1 ≤ (seq + 65536 - l) % 65536 ∧ (seq + 65536 - l) % 65536 ≤ 32767 := by
  unfold seqNew u16
  cases last with
  | none => simp
  | some l => simp

/-- A TAKEOVER tuple of STANDBY_ID that names a new master (R53). -/
def State.named (s : State) (x : Tuple) : Prop :=
  x.takeover = true ∧ x.src.val = s.get R.POS_BCAST.STANDBY_ID ∧ s.pos.master ≠ some x.src.val ∧ s.role ≠ 0

/-- The module takes tuples at all (R438, R507). -/
def State.takesTuples (s : State) : Prop := s.flag R.GTS_CFG.ENABLE = true ∧ s.flag R.GTS_TIME_STATUS.SYNCED = true

theorem State.posTuple_off (hn : ¬ s.takesTuples) : s.posTuple x = s := by
  refine if_pos ?_
  simpa [State.takesTuples, ← Bool.not_eq_true, imp_iff_not_or] using hn

theorem State.named_iff (hm : x.src.val ≠ s.get R.GTS_CFG.ID) : s.named x ↔ (x.takeover && x.src.val == s.get R.POS_BCAST.STANDBY_ID &&
    s.pos.master != some x.src.val && decide (s.role ≠ 0) && x.src.val != s.get R.GTS_CFG.ID) = true := by
  simp only [State.named, Bool.and_eq_true, beq_iff_eq, bne_iff_ne, decide_eq_true_eq, and_assoc, hm, ne_eq, not_false_eq_true, and_true]

/-- A module that was itself master, once another is named: a follower from now on (R53). -/
def State.stoodBack (s : State) : State := if s.role = 1 then s.put R.POS_STATUS.ROLE_NOW 2 else s

/-- The tuple's sender is master, its position not yet taken (R41). -/
def State.knowsMaster (s : State) (x : Tuple) : State :=
  { s with pos := { s.pos with master := some x.src.val, lastSeq := some x.seq.toNat } }

theorem State.posTuple_named (ho : s.takesTuples) (hm : x.src.val ≠ s.get R.GTS_CFG.ID) (hn : s.named x) : s.posTuple x =
    if (s.stoodBack.pos.needZero && !x.zero) = true then s.stoodBack.knowsMaster x else s.stoodBack.acceptTuple x := by
  obtain ⟨he, hs⟩ := ho
  unfold State.posTuple
  rw [if_neg (by simp [he, hs]), if_pos ((State.named_iff hm).1 hn)]
  rfl

/-- What a follower or standby takes: a tuple of its master, or of any while it has none, whose SEQ is new (R50). -/
def State.acceptable (s : State) (x : Tuple) : Prop :=
  s.drives = false ∧ s.seqFresh x ∧ (s.pos.master = none ∨ s.pos.master = some x.src.val) ∧ (s.pos.needZero = true → x.zero = true)

theorem State.posTuple_accepted (ho : s.takesTuples) (hm : x.src.val ≠ s.get R.GTS_CFG.ID) (hn : ¬ s.named x) (ha : s.acceptable x) :
    s.posTuple x = s.acceptTuple x := by
  obtain ⟨he, hs⟩ := ho
  obtain ⟨hd, hq, hma, hz⟩ := ha
  unfold State.posTuple
  rw [if_neg (by simp [he, hs]), if_neg (mt (State.named_iff hm).2 hn), if_neg (by simp [hd]), if_pos]
  simp only [Bool.and_eq_true, Bool.or_eq_true, Option.isNone_iff_eq_none, beq_iff_eq, Bool.not_eq_true']
  exact ⟨⟨hma, (seqNew_iff _ _).2 hq⟩, by cases hnz : s.pos.needZero with
    | false => exact .inl rfl
    | true => exact .inr (hz hnz)⟩

theorem State.posTuple_discarded (ho : s.takesTuples) (hm : x.src.val ≠ s.get R.GTS_CFG.ID) (hn : ¬ s.named x) (ha : ¬ s.acceptable x) :
    s.posTuple x = s := by
  obtain ⟨he, hs⟩ := ho
  unfold State.posTuple
  rw [if_neg (by simp [he, hs]), if_neg (mt (State.named_iff hm).2 hn)]
  refine ite_eq_left_iff.2 fun hd => if_neg fun hc => ha ?_
  simp only [Bool.and_eq_true, Bool.or_eq_true, Option.isNone_iff_eq_none, beq_iff_eq, Bool.not_eq_true'] at hc
  obtain ⟨⟨hma, hq⟩, hz⟩ := hc
  exact ⟨Bool.not_eq_true _ ▸ hd, (seqNew_iff _ _).1 hq, hma, fun hnz => hz.resolve_left (by rw [hnz]; decide)⟩

theorem State.acceptTuple_base (s : State) (x : Tuple) :
    (s.acceptTuple x).pos.nextBase = some ⟨x.wpos.toInt, x.dtime.toNat, x.speed.toInt⟩ := by
  unfold State.acceptTuple i64 i32
  rw [signed_toNat, signed_toNat]

/-! ### POS_TUPLE -/

theorem State.drops_posTuple (hp : h.port.val < s.gts.ports.length) : s.drops (.posTuple h x) h := by
  refine State.drops_of_accept (vc := 1) (len := 24) (b := false) hp fun r ha => ?_
  show execPosTuple h x s = _
  unfold execPosTuple
  rw [ha]

theorem exec_posTuple_own (hp : h.port.val < s.gts.ports.length) (ho : s.inOrder h) (hm : x.src.val = s.get R.GTS_CFG.ID) :
    exec (.posTuple h x) s = .next (s.taken h 1 24) := by
  show execPosTuple h x s = _
  unfold execPosTuple
  rw [State.accept_inOrder hp ho]
  exact congrArg _ (if_pos hm)

theorem exec_posTuple_taken (hp : h.port.val < s.gts.ports.length) (ho : s.inOrder h) (hm : x.src.val ≠ s.get R.GTS_CFG.ID) :
    exec (.posTuple h x) s = .next (((s.taken h 1 24).bcastTuple x).posTuple x) := by
  show execPosTuple h x s = _
  unfold execPosTuple
  rw [State.accept_inOrder hp ho]
  exact congrArg _ (if_neg hm)

/-- A tuple taken and forwarded leaves all but the fabric. -/
theorem State.tupleForwarded_changesOnly (s : State) (h : Packet) (x : Tuple) : s.changesOnly [.gts] ((s.taken h 1 24).bcastTuple x) := by
  intro c hc
  have := closedGts_of_ne (s := s) (c := c) (by simpa using hc)
  exact State.bcastTuple_holds (G := fun t => c.same s t) (Holds.gts Holds.same_refl)

section
variable {b : State} (hr : b.regs = s.regs) (hq : b.pos = s.pos)
include hr

theorem State.takesTuples_congr : b.takesTuples ↔ s.takesTuples := by
  unfold State.takesTuples State.flag
  rw [State.get_of_regs hr, State.get_of_regs hr]

include hq

theorem State.named_congr : b.named x ↔ s.named x := by
  unfold State.named State.role
  rw [State.get_of_regs hr, State.get_of_regs hr, hq]

theorem State.acceptable_congr : b.acceptable x ↔ s.acceptable x := by
  unfold State.acceptable State.seqFresh State.drives State.role
  rw [State.get_of_regs hr, hq]

end

section
variable (hp : h.port.val < s.gts.ports.length) (ho : s.inOrder h) (hm : x.src.val ≠ s.get R.GTS_CFG.ID)
include hp ho hm

theorem exec_posTuple_off (hn : ¬ s.takesTuples) : exec (.posTuple h x) s = .next ((s.taken h 1 24).bcastTuple x) := by
  have hr := s.tupleForwarded_changesOnly h x .regs (by decide)
  rw [exec_posTuple_taken hp ho hm, State.posTuple_off (mt (State.takesTuples_congr hr).1 hn)]

theorem exec_posTuple_discarded (ht : s.takesTuples) (hn : ¬ s.named x) (ha : ¬ s.acceptable x) :
    exec (.posTuple h x) s = .next ((s.taken h 1 24).bcastTuple x) := by
  have hr := s.tupleForwarded_changesOnly h x .regs (by decide)
  have hq := s.tupleForwarded_changesOnly h x .pos (by decide)
  have hm' := State.get_of_regs hr R.GTS_CFG.ID
  rw [exec_posTuple_taken hp ho hm, State.posTuple_discarded ((State.takesTuples_congr hr).2 ht) (hm' ▸ hm)
    (mt (State.named_congr hr hq).1 hn) (mt (State.acceptable_congr hr hq).1 ha)]

theorem posTuple_accepted_completes (ht : s.takesTuples) (hn : ¬ s.named x) (ha : s.acceptable x) :
    s.completes (.posTuple h x) [.pos, .gts] [] (fun u => u.pos.nextBase = some ⟨x.wpos.toInt, x.dtime.toNat, x.speed.toInt⟩ ∧
      u.pos.master = some x.src.val ∧ u.pos.lastSeq = some x.seq.toNat ∧ u.pos.lastTuple = s.dtime ∧ u.pos.needZero = false) := by
  have hf := s.tupleForwarded_changesOnly h x
  have hr := hf .regs (by decide)
  have hq := hf .pos (by decide)
  have hd : ((s.taken h 1 24).bcastTuple x).dtime = s.dtime := hf .dtime (by decide)
  have hm' := State.get_of_regs hr R.GTS_CFG.ID
  refine ⟨((s.taken h 1 24).bcastTuple x).acceptTuple x, ?_, ?_, ?_, State.acceptTuple_base _ _, rfl, rfl, hd, rfl⟩
  · rw [exec_posTuple_taken hp ho hm, State.posTuple_accepted ((State.takesTuples_congr hr).2 ht) (hm' ▸ hm)
      (mt (State.named_congr hr hq).1 hn) ((State.acceptable_congr hr hq).2 ha)]
  · intro c hc
    simp only [List.mem_cons, List.not_mem_nil, or_false, not_or] at hc
    obtain ⟨hcp, hcg⟩ := hc
    have := closedPos_of_ne (s := s) hcp
    exact State.acceptTuple_holds (G := fun t => c.same s t) (hf c (by simpa using hcg))
  · intro off _ _
    exact congrArg (fun r => sparseGet regDefault r off) hr

end

theorem State.regsWithin_stoodBack (hw : sparseWf regDefault s.regs = true) : s.regsWithin [R.POS_STATUS] s.stoodBack :=
  State.regsWithin.ite ((State.regsWithin_refl hw).put (f := R.POS_STATUS.ROLE_NOW) (.head _) 2) (State.regsWithin_refl hw)

theorem State.stoodBack_pos (s : State) : s.stoodBack.pos = s.pos := by
  unfold State.stoodBack
  split <;> rfl

theorem State.stoodBack_role (hw : sparseWf regDefault s.regs = true) :
    s.stoodBack.get R.POS_STATUS.ROLE_NOW = if s.role = 1 then 2 else s.get R.POS_STATUS.ROLE_NOW := by
  unfold State.stoodBack
  split
  · exact State.get_put_same hw (Fld.ok_of rfl) 2
  · rfl

/-- What the naming of a new master leaves of the position (R41, R53). -/
def State.takesMaster (s u : State) (x : Tuple) : Prop :=
  u.pos.master = some x.src.val ∧ u.pos.nextBase = (if s.pos.needZero = true ∧ x.zero = false then s.pos.nextBase
    else some ⟨x.wpos.toInt, x.dtime.toNat, x.speed.toInt⟩) ∧ u.pos.lastSeq = some x.seq.toNat

theorem State.posTuple_named_rules (ht : s.takesTuples) (hm : x.src.val ≠ s.get R.GTS_CFG.ID)
    (hn : s.named x) : (s.posTuple x).regs = s.stoodBack.regs ∧ s.takesMaster (s.posTuple x) x := by
  have hpos := s.stoodBack_pos
  rw [State.posTuple_named ht hm hn]
  split
  · next hz =>
    rw [hpos, Bool.and_eq_true, Bool.not_eq_true'] at hz
    exact ⟨rfl, rfl, by rw [if_pos hz, ← hpos]; rfl, rfl⟩
  · next hz =>
    rw [hpos, Bool.and_eq_true, Bool.not_eq_true'] at hz
    exact ⟨rfl, rfl, by rw [if_neg hz, State.acceptTuple_base], rfl⟩

theorem posTuple_named_completes (hw : sparseWf regDefault s.regs = true) (hp : h.port.val < s.gts.ports.length) (ho : s.inOrder h)
    (hm : x.src.val ≠ s.get R.GTS_CFG.ID) (ht : s.takesTuples) (hn : s.named x) :
    s.completes (.posTuple h x) [.regs, .pos, .gts] [R.POS_STATUS] (fun u => u.pos.master = some x.src.val ∧
      u.pos.nextBase = (if s.pos.needZero = true ∧ x.zero = false then s.pos.nextBase
        else some ⟨x.wpos.toInt, x.dtime.toNat, x.speed.toInt⟩) ∧ u.pos.lastSeq = some x.seq.toNat ∧
      u.get R.POS_STATUS.ROLE_NOW = (if s.role = 1 then 2 else s.get R.POS_STATUS.ROLE_NOW)) := by
  have hf := s.tupleForwarded_changesOnly h x
  generalize hb : (s.taken h 1 24).bcastTuple x = b at hf
  have hr : b.regs = s.regs := hf .regs (by decide)
  have hq : b.pos = s.pos := hf .pos (by decide)
  have hwb : sparseWf regDefault b.regs = true := hr ▸ hw
  have he := exec_posTuple_taken (x := x) hp ho hm
  rw [hb] at he
  obtain ⟨hur, hma, hnb, hls⟩ := State.posTuple_named_rules ((State.takesTuples_congr hr).2 ht) (State.get_of_regs hr R.GTS_CFG.ID ▸ hm)
    ((State.named_congr hr hq).2 hn)
  have hrole : b.role = s.role := State.get_of_regs hr _
  refine ⟨_, he, exec_changesOnly (.posTuple h x) s _ he, ?_, hma, by rw [hnb, hq], hls, ?_⟩
  · intro off hl hno
    have hk := ((State.regsWithin_stoodBack hwb).of_regs hur).2 off hl hno
    exact hk.trans (congrArg (fun r => sparseGet regDefault r off) hr)
  · rw [State.get_of_regs hur, State.stoodBack_role hwb, hrole, State.get_of_regs hr]

end Sys2Proof.Machine
end

section
/-! SUPPORT, fabric: the time exchange, its flags, and DTIME turned or stepped (R436-R438). -/

namespace Sys2Proof.Machine

variable {s t : State} {offs : List Nat} {n : Nat}

section
variable {h : Packet}

/-! ### The flags of the time exchange (R437, R438) -/

section
variable (hw : sparseWf regDefault s.regs = true) {f g : Fld} (hf : f.ok) {c : Prop} [Decidable c]
include hw

theorem State.wf_putWhen (f : Fld) (v : Nat) : sparseWf regDefault (if c then s.put f v else s).regs = true := by
  split
  · exact State.put_wf hw f v
  · exact hw

include hf

theorem State.flag_raiseWhen : (if c then s.raise f else s).flag f = (decide c || s.flag f) := by
  split
  · next hc => rw [State.flag_raise hw hf, decide_eq_true hc, Bool.true_or]
  · next hc => rw [decide_eq_false hc, Bool.false_or]

theorem State.flag_dropWhen : (if c then s.drop f else s).flag f = (!decide c && s.flag f) := by
  split
  · next hc => rw [State.flag, State.get_drop hw hf, decide_eq_true hc]; rfl
  · next hc => rw [decide_eq_false hc, Bool.not_false, Bool.true_and]

theorem State.get_putWhen_apart (hg : f.apart g) (v : Nat) : (if c then s.put f v else s).get g = s.get g := by
  split
  · exact State.get_put_apart hw hf hg v
  · rfl

theorem State.flag_putWhen_apart (hg : f.apart g) (v : Nat) : (if c then s.put f v else s).flag g = s.flag g :=
  congrArg (· != 0) (State.get_putWhen_apart hw hf hg v)

end

/-- JOIN_BLOCKED after an exchange whose offset is `n` units of 62.5 ps: while jobs are committed, a bad one raises it; with none,
it falls (R437). -/
def State.blockJoin (s : State) (n : Nat) (jobs : Bool) : State :=
  if jobs = true then (if n > 64 then s.raise R.GTS_TIME_STATUS.JOIN_BLOCKED else s) else s.drop R.GTS_TIME_STATUS.JOIN_BLOCKED

/-- SYNCED falls with an offset above 4 ns (R438). -/
def State.doubtOffset (s : State) (n : Nat) : State := if n > 64 then s.drop R.GTS_TIME_STATUS.SYNCED else s

/-- SYNCED rises with the sixteenth good exchange while no join is blocked (R438). -/
def State.trustRun (s : State) (run : Nat) : State :=
  if (decide (run ≥ 16) && !s.flag R.GTS_TIME_STATUS.JOIN_BLOCKED) = true then s.raise R.GTS_TIME_STATUS.SYNCED else s

/-- SYNCED and JOIN_BLOCKED after an exchange whose offset is `n` units of 62.5 ps, the `run`-th good one (R437, R438). -/
def State.offsetFlags (s : State) (n run : Nat) (jobs : Bool) : State := ((s.doubtOffset n).blockJoin n jobs).trustRun run

theorem synced_apart_blocked : R.GTS_TIME_STATUS.SYNCED.apart R.GTS_TIME_STATUS.JOIN_BLOCKED := Fld.apart_of rfl

theorem blocked_apart_synced : R.GTS_TIME_STATUS.JOIN_BLOCKED.apart R.GTS_TIME_STATUS.SYNCED := Fld.apart_of rfl

theorem State.blockJoin_rules (hw : sparseWf regDefault s.regs = true) (n : Nat) (jobs : Bool) :
    (s.blockJoin n jobs).flag R.GTS_TIME_STATUS.JOIN_BLOCKED = (jobs && (decide (n > 64) || s.flag R.GTS_TIME_STATUS.JOIN_BLOCKED)) ∧
      (s.blockJoin n jobs).flag R.GTS_TIME_STATUS.SYNCED = s.flag R.GTS_TIME_STATUS.SYNCED := by
  cases jobs with
  | true => exact ⟨State.flag_raiseWhen hw (Fld.ok_of rfl), State.flag_putWhen_apart hw (Fld.ok_of rfl) blocked_apart_synced 1⟩
  | false =>
    refine ⟨?_, State.flag_put_apart hw (Fld.ok_of rfl) blocked_apart_synced 0⟩
    show (s.drop R.GTS_TIME_STATUS.JOIN_BLOCKED).flag R.GTS_TIME_STATUS.JOIN_BLOCKED = false
    rw [State.flag, State.get_drop hw (Fld.ok_of rfl)]
    rfl

theorem State.regsWithin.blockJoin (h : s.regsWithin offs t) (ho : R.GTS_TIME_STATUS ∈ offs) (n : Nat) (jobs : Bool) :
    s.regsWithin offs (t.blockJoin n jobs) :=
  State.regsWithin.ite (State.regsWithin.ite (h.raise (f := R.GTS_TIME_STATUS.JOIN_BLOCKED) ho) h)
    (h.drop (f := R.GTS_TIME_STATUS.JOIN_BLOCKED) ho)

theorem State.doubtOffset_rules (hw : sparseWf regDefault s.regs = true) (n : Nat) :
    (s.doubtOffset n).flag R.GTS_TIME_STATUS.JOIN_BLOCKED = s.flag R.GTS_TIME_STATUS.JOIN_BLOCKED ∧
      (s.doubtOffset n).flag R.GTS_TIME_STATUS.SYNCED = (!decide (n > 64) && s.flag R.GTS_TIME_STATUS.SYNCED) :=
  ⟨State.flag_putWhen_apart hw (Fld.ok_of rfl) synced_apart_blocked 0, State.flag_dropWhen hw (Fld.ok_of rfl)⟩

theorem State.regsWithin.doubtOffset (h : s.regsWithin offs t) (ho : R.GTS_TIME_STATUS ∈ offs) (n : Nat) :
    s.regsWithin offs (t.doubtOffset n) :=
  State.regsWithin.ite (h.drop (f := R.GTS_TIME_STATUS.SYNCED) ho) h

theorem State.regsWithin.offsetFlags (h : s.regsWithin offs t) (ho : R.GTS_TIME_STATUS ∈ offs) (n run : Nat) (jobs : Bool) :
    s.regsWithin offs (t.offsetFlags n run jobs) := by
  have hb := (h.doubtOffset ho n).blockJoin ho n jobs
  exact State.regsWithin.ite (hb.raise (f := R.GTS_TIME_STATUS.SYNCED) ho) hb

section
variable (hw : sparseWf regDefault s.regs = true) (n run : Nat) (jobs : Bool)
include hw

theorem State.doubtOffset_wf : sparseWf regDefault (s.doubtOffset n).regs = true := State.wf_putWhen hw _ 0

theorem State.blockJoin_wf : sparseWf regDefault (s.blockJoin n jobs).regs = true :=
  ((State.regsWithin_refl hw).blockJoin (List.mem_singleton_self _) n jobs).1

theorem State.offsetFlags_rules :
    let t := s.offsetFlags n run jobs
    let blocked := jobs && (decide (n > 64) || s.flag R.GTS_TIME_STATUS.JOIN_BLOCKED)
    t.flag R.GTS_TIME_STATUS.JOIN_BLOCKED = blocked ∧
      t.flag R.GTS_TIME_STATUS.SYNCED = (decide (run ≥ 16) && !blocked || (!decide (n > 64) && s.flag R.GTS_TIME_STATUS.SYNCED)) := by
  intro t blocked
  obtain ⟨hdj, hds⟩ := State.doubtOffset_rules hw n
  have hwd := State.doubtOffset_wf hw n
  obtain ⟨hbj, hbs⟩ := State.blockJoin_rules hwd n jobs
  rw [hdj] at hbj
  rw [hds] at hbs
  have hwb := State.blockJoin_wf hwd n jobs
  refine ⟨(State.flag_putWhen_apart hwb (Fld.ok_of rfl) synced_apart_blocked 1).trans hbj, ?_⟩
  refine (State.flag_raiseWhen hwb (Fld.ok_of rfl)).trans ?_
  rw [hbs, hbj, Bool.decide_eq_true]

theorem State.blockJoin_offset : (s.blockJoin n jobs).get R.GTS_TIME_STATUS.OFFSET = s.get R.GTS_TIME_STATUS.OFFSET := by
  cases jobs with
  | true => exact State.get_putWhen_apart hw (Fld.ok_of rfl) (Fld.apart_of rfl) 1
  | false => exact State.get_put_apart hw (Fld.ok_of rfl) (Fld.apart_of rfl) 0

theorem State.offsetFlags_offset : (s.offsetFlags n run jobs).get R.GTS_TIME_STATUS.OFFSET = s.get R.GTS_TIME_STATUS.OFFSET := by
  have hwd := State.doubtOffset_wf hw n
  calc (s.offsetFlags n run jobs).get R.GTS_TIME_STATUS.OFFSET
    _ = _ := State.get_putWhen_apart (State.blockJoin_wf hwd n jobs) (Fld.ok_of rfl) (Fld.apart_of rfl) 1
    _ = _ := State.blockJoin_offset hwd n jobs
    _ = _ := State.get_putWhen_apart hw (Fld.ok_of rfl) (Fld.apart_of rfl) 0

end

/-! ### What an exchange does with its offset (R436, R437) -/

/-- The good exchanges in a row, with one of an offset. -/
def GtsSt.runWith (g : GtsSt) (off : Int) : Nat := if off.natAbs ≤ 32 then g.goodRun + 1 else 0

/-- The last four offsets, with this one. -/
def GtsSt.offsetsWith (g : GtsSt) (off : Int) : List Int := (off :: g.offsets).take 4

/-- The fabric once an exchange has been noted: run, offsets, the tick. -/
def GtsSt.noted (g : GtsSt) (off : Int) (now : Nat) : GtsSt :=
  { g with goodRun := g.runWith off, offsets := g.offsetsWith off, lastExchange := now }

/-- The phase turned toward an offset, at most 1 ns (R436). -/
def GtsSt.turned (g : GtsSt) (off : Int) : GtsSt := { g with phase := g.phase + clampInt off (-16) 16 }

theorem State.jobsRun_congr (hk : ∀ j, j < 64 → t.jobState j = s.jobState j) : t.jobsRun = s.jobsRun := by
  unfold State.jobsRun
  rw [Bool.eq_iff_iff, List.any_eq_true, List.any_eq_true]
  refine exists_congr fun j => and_congr_right fun hj => ?_
  rw [hk j (List.mem_range.1 hj)]

/-- The registers that show the time exchange are not those of the jobs. -/
theorem State.jobsRun_of_within (hk : s.regsWithin [R.GTS_TIME_STATUS, R.GTS_TIME_DELAY] t) : t.jobsRun = s.jobsRun := by
  refine State.jobsRun_congr fun j hj => hk.get (f := R.STG_JOB_STATUS.STATE j) ?_ ?_
  · show 0x20840C + j * 16 < 0x400000
    omega
  · show 0x20840C + j * 16 ∉ [0x240020, 0x240024]
    simp only [List.mem_cons, List.not_mem_nil, or_false]
    omega

theorem State.jobsRun_put (hw : sparseWf regDefault s.regs = true) {f : Fld} (hf : f.off = R.GTS_TIME_STATUS) (v : Nat) :
    (s.put f v).jobsRun = s.jobsRun :=
  State.jobsRun_of_within ((State.regsWithin_refl hw).put (hf ▸ .head _) v)

theorem State.jobsRun_putWhen (hw : sparseWf regDefault s.regs = true) {f : Fld} (hf : f.off = R.GTS_TIME_STATUS) {c : Prop} [Decidable c]
    (v : Nat) : (if c then s.put f v else s).jobsRun = s.jobsRun := by
  split
  · exact State.jobsRun_put hw hf v
  · rfl

/-- The state at another DTIME and with another fabric. -/
def State.timed (s : State) (d : Nat) (g : GtsSt) : State := { s with dtime := d, gts := g }

section
variable (d : Nat) (g : GtsSt)

theorem State.timed_putWhen (f : Fld) (v : Nat) {c : Prop} [Decidable c] :
    (if c then (s.timed d g).put f v else s.timed d g) = (if c then s.put f v else s).timed d g := by
  split <;> rfl

theorem State.timed_jobsRun : (s.timed d g).jobsRun = s.jobsRun := State.jobsRun_congr fun _ _ => rfl

theorem State.timed_doubtOffset (n : Nat) : (s.timed d g).doubtOffset n = (s.doubtOffset n).timed d g :=
  State.timed_putWhen d g R.GTS_TIME_STATUS.SYNCED 0

theorem State.timed_trustRun (run : Nat) : (s.timed d g).trustRun run = (s.trustRun run).timed d g :=
  State.timed_putWhen d g R.GTS_TIME_STATUS.SYNCED 1

theorem State.timed_blockJoin (n : Nat) (jobs : Bool) : (s.timed d g).blockJoin n jobs = (s.blockJoin n jobs).timed d g := by
  cases jobs with
  | true => exact State.timed_putWhen d g R.GTS_TIME_STATUS.JOIN_BLOCKED 1
  | false => rfl

end

/-- A time of the fabric's own, moved by the step of an offset (R437). -/
def stepped (off : Int) (k : Nat) : Nat := (((k : Int) + 4 * ((off + 32) / 64)) % 2 ^ 64).toNat

/-- The fabric after DTIME has stepped by an offset (R437). -/
def GtsSt.stepped (g : GtsSt) (off : Int) : GtsSt :=
  { g with
    phase := g.phase + clampInt (off - 64 * ((off + 32) / 64)) (-16) 16, offsets := []
    tsSent := Machine.stepped off g.tsSent, lastExchange := Machine.stepped off g.lastExchange
    away := g.away.map (fun (e : Nat × Nat) => (e.1, Machine.stepped off e.2))
    ports := g.ports.map (fun (x : PortSt) => { x with helloAt := x.helloAt.map (Machine.stepped off), ackAt := Machine.stepped off x.ackAt }) }

theorem State.takeOffset_eq (off : Int) : s.takeOffset off =
    let d := (s.timed s.dtime (s.gts.noted off s.dtime)).doubtOffset off.natAbs
    if d.jobsRun = true then
      let b := d.blockJoin off.natAbs true
      (b.timed b.dtime (b.gts.turned off)).trustRun (s.gts.runWith off)
    else
      let u := if offsetsAgree (s.gts.offsetsWith off) = true then d.stepTime off
        else (d.timed d.dtime (d.gts.turned off)).drop R.GTS_TIME_STATUS.JOIN_BLOCKED
      if s.gts.runWith off ≥ 16 then u.raise R.GTS_TIME_STATUS.SYNCED else u := rfl

theorem State.doubtOffset_jobsRun (hw : sparseWf regDefault s.regs = true) (d : Nat) (g : GtsSt) (n : Nat) :
    ((s.timed d g).doubtOffset n).jobsRun = s.jobsRun :=
  (State.jobsRun_putWhen (s := s.timed d g) hw rfl 0).trans (State.timed_jobsRun d g)

theorem State.takeOffset_jobs (hw : sparseWf regDefault s.regs = true) (hj : s.jobsRun = true) (off : Int) : s.takeOffset off =
    (s.offsetFlags off.natAbs (s.gts.runWith off) true).timed s.dtime ((s.gts.noted off s.dtime).turned off) := by
  have hd := State.doubtOffset_jobsRun hw s.dtime (s.gts.noted off s.dtime) off.natAbs
  rw [State.takeOffset_eq, if_pos (hd.trans hj), State.timed_doubtOffset, State.timed_blockJoin]
  exact State.timed_trustRun (s := (s.doubtOffset off.natAbs).blockJoin off.natAbs true) s.dtime _ _

/-- Where no job is committed the sixteenth good exchange raises SYNCED. -/
theorem State.trustRun_unblocked (hb : s.flag R.GTS_TIME_STATUS.JOIN_BLOCKED = false) (run : Nat) :
    s.trustRun run = if run ≥ 16 then s.raise R.GTS_TIME_STATUS.SYNCED else s := by
  unfold State.trustRun
  rw [hb, Bool.not_false, Bool.and_true]
  simp only [decide_eq_true_eq]

theorem State.takeOffset_idle (hw : sparseWf regDefault s.regs = true) (hj : s.jobsRun = false) (off : Int) : s.takeOffset off =
    if offsetsAgree (s.gts.offsetsWith off) = true then
      (s.offsetFlags off.natAbs (s.gts.runWith off) false).timed (Machine.stepped off s.dtime) ((s.gts.noted off s.dtime).stepped off)
    else (s.offsetFlags off.natAbs (s.gts.runWith off) false).timed s.dtime ((s.gts.noted off s.dtime).turned off) := by
  have hd := State.doubtOffset_jobsRun hw s.dtime (s.gts.noted off s.dtime) off.natAbs
  have hb : ((s.doubtOffset off.natAbs).blockJoin off.natAbs false).flag R.GTS_TIME_STATUS.JOIN_BLOCKED = false :=
    (State.blockJoin_rules (State.doubtOffset_wf hw _) _ false).1
  have ht : s.offsetFlags off.natAbs (s.gts.runWith off) false = _ := State.trustRun_unblocked hb _
  rw [State.takeOffset_eq, if_neg (by rw [hd, hj]; decide), State.timed_doubtOffset, ht]
  have hp (d : Nat) (g : GtsSt) := State.timed_putWhen (s := (s.doubtOffset off.natAbs).blockJoin off.natAbs false)
    (c := s.gts.runWith off ≥ 16) d g R.GTS_TIME_STATUS.SYNCED 1
  by_cases ha : offsetsAgree (s.gts.offsetsWith off) = true
  · rw [if_pos ha, if_pos ha]
    exact hp _ _
  · rw [if_neg ha, if_neg ha]
    exact hp _ _

end

section
variable {h : Packet}

/-! ### What an exchange leaves (R436, R437) -/

theorem offsetsAgree_iff (xs : List Int) :
    offsetsAgree xs = true ↔ xs.length = 4 ∧ ∀ x ∈ xs, ∀ y ∈ xs, (x - y).natAbs ≤ 160 := by
  simp [offsetsAgree]

theorem State.jobsRun_iff : s.jobsRun = true ↔ ∃ j, j < 64 ∧ (s.jobState j = 2 ∨ s.jobState j = 3) := by
  simp [State.jobsRun]

theorem State.takeOffset_timed (hw : sparseWf regDefault s.regs = true) (off : Int) : ∃ d g,
    s.takeOffset off = (s.offsetFlags off.natAbs (s.gts.runWith off) s.jobsRun).timed d g ∧
      g.tsync = s.gts.tsync ∧ g.lastExchange = d ∧ g.goodRun = s.gts.runWith off ∧
      (¬ (s.jobsRun = false ∧ offsetsAgree (s.gts.offsetsWith off) = true) → d = s.dtime ∧ g = (s.gts.noted off s.dtime).turned off) ∧
      (s.jobsRun = false ∧ offsetsAgree (s.gts.offsetsWith off) = true →
        d = Machine.stepped off s.dtime ∧ g = (s.gts.noted off s.dtime).stepped off) := by
  cases hj : s.jobsRun with
  | true =>
    exact ⟨_, _, State.takeOffset_jobs hw hj off, rfl, rfl, rfl, fun _ => ⟨rfl, rfl⟩, fun h => absurd h.1 nofun⟩
  | false =>
    have he := State.takeOffset_idle hw hj off
    by_cases ha : offsetsAgree (s.gts.offsetsWith off) = true
    · exact ⟨_, _, he.trans (if_pos ha), rfl, rfl, rfl, fun h => absurd ⟨rfl, ha⟩ h, fun _ => ⟨rfl, rfl⟩⟩
    · exact ⟨_, _, he.trans (if_neg ha), rfl, rfl, rfl, fun _ => ⟨rfl, rfl⟩, fun h => absurd h.2 ha⟩

/-! ### OFFSET and DELAY are shown (R436) -/

theorem toU64_toNat_sub (x : BitVec 64) (k : Nat) : toU64 ((x.toNat : Int) - k) = (x - BitVec.ofNat 64 k).toNat := by
  have hx := x.isLt
  unfold toU64 toBits
  rw [BitVec.toNat_sub, BitVec.toNat_ofNat]
  omega

theorem toU64_sub_toNat (k : Nat) (x : BitVec 64) : toU64 ((k : Int) - x.toNat) = (BitVec.ofNat 64 k - x).toNat := by
  have hx := x.isLt
  unfold toU64 toBits
  rw [BitVec.toNat_sub, BitVec.toNat_ofNat]
  omega

theorem signed_toBits16 {z : Int} (hl : -32768 ≤ z) (hu : z ≤ 32767) : signed 16 (toBits 16 z % 2 ^ 16) = z := by
  unfold signed toBits
  split <;> omega

/-- The offset of an exchange is shown, or where the field cannot hold it a value left open (R436). -/
def State.showOffset (s : State) (off : Int) : State :=
  if off < -32768 || 32767 < off then s.draw.2.put R.GTS_TIME_STATUS.OFFSET (s.draw.1.toNat % 65536)
  else s.putInt R.GTS_TIME_STATUS.OFFSET off

theorem State.showOffset_eq (off : Int) : ∃ v k, s.showOffset off = { s.put R.GTS_TIME_STATUS.OFFSET v with free := k } ∧
    (-32768 ≤ off → off ≤ 32767 → v = toBits 16 off ∧ k = s.free) := by
  unfold State.showOffset
  split
  · next hc =>
    refine ⟨_, _, rfl, fun hl hu => ?_⟩
    rw [Bool.or_eq_true, decide_eq_true_eq, decide_eq_true_eq] at hc
    omega
  · exact ⟨_, s.free, rfl, fun _ _ => ⟨rfl, rfl⟩⟩

theorem State.showOffset_rules (hw : sparseWf regDefault s.regs = true) (off : Int) :
    let t := s.showOffset off
    s.regsWithin [R.GTS_TIME_STATUS, R.GTS_TIME_DELAY] t ∧ t.gts = s.gts ∧ t.dtime = s.dtime ∧
      t.flag R.GTS_TIME_STATUS.SYNCED = s.flag R.GTS_TIME_STATUS.SYNCED ∧
      t.flag R.GTS_TIME_STATUS.JOIN_BLOCKED = s.flag R.GTS_TIME_STATUS.JOIN_BLOCKED ∧
      (-32768 ≤ off → off ≤ 32767 → t.getInt R.GTS_TIME_STATUS.OFFSET = off ∧ t.free = s.free) := by
  obtain ⟨v, k, e, hv⟩ := s.showOffset_eq off
  have hflag {f : Fld} (ha : R.GTS_TIME_STATUS.OFFSET.apart f) := State.flag_put_apart hw (Fld.ok_of rfl) ha v
  dsimp only
  rw [e]
  refine ⟨(State.regsWithin_refl hw).put (f := R.GTS_TIME_STATUS.OFFSET) (.head _) v, rfl, rfl, hflag (Fld.apart_of rfl),
    hflag (Fld.apart_of rfl), fun hl hu => ⟨?_, (hv hl hu).2⟩⟩
  show signed 16 ((s.put R.GTS_TIME_STATUS.OFFSET v).get R.GTS_TIME_STATUS.OFFSET) = off
  rw [State.get_put_same hw (Fld.ok_of rfl), (hv hl hu).1]
  exact signed_toBits16 hl hu

/-- The registers that show an exchange: its offset and its delay (R436). -/
def State.showExchange (s : State) (off delay : Int) : State := (s.showOffset off).put R.GTS_TIME_DELAY.N (toU32 delay)

theorem State.showExchange_rules (hw : sparseWf regDefault s.regs = true) (off delay : Int) :
    let t := s.showExchange off delay
    s.regsWithin [R.GTS_TIME_STATUS, R.GTS_TIME_DELAY] t ∧ t.gts = s.gts ∧ t.dtime = s.dtime ∧
      t.flag R.GTS_TIME_STATUS.SYNCED = s.flag R.GTS_TIME_STATUS.SYNCED ∧
      t.flag R.GTS_TIME_STATUS.JOIN_BLOCKED = s.flag R.GTS_TIME_STATUS.JOIN_BLOCKED ∧
      t.get R.GTS_TIME_DELAY.N = (delay % 2 ^ 32).toNat ∧
      (-32768 ≤ off → off ≤ 32767 → t.getInt R.GTS_TIME_STATUS.OFFSET = off ∧ t.free = s.free) := by
  obtain ⟨hwithin, hg, hd, hs, hj, ho⟩ := State.showOffset_rules hw off
  have hget (f : Fld) (hf : f.off ≠ R.GTS_TIME_DELAY) : (s.showExchange off delay).get f = (s.showOffset off).get f :=
    State.get_put_apart hwithin.1 (Fld.ok_of rfl) (.inl hf) _
  refine ⟨hwithin.put (f := R.GTS_TIME_DELAY.N) (.tail _ (.head _)) _, hg, hd, (congrArg (· != 0) (hget _ (by decide))).trans hs,
    (congrArg (· != 0) (hget _ (by decide))).trans hj, ?_, fun hl hu => ?_⟩
  · refine (State.get_put_same hwithin.1 (Fld.ok_of rfl) _).trans (Nat.mod_eq_of_lt ?_)
    show (delay % ((2 ^ 32 : Nat) : Int)).toNat < 2 ^ 32
    omega
  · obtain ⟨hoff, hfree⟩ := ho hl hu
    exact ⟨(congrArg (signed 16) (hget R.GTS_TIME_STATUS.OFFSET (by decide))).trans hoff, hfree⟩

/-! ### TSYNC_RESP -/

/-- What the answer to the request under way does (R436, R437): t2 - t1 and t4 - t3 give offset and delay. -/
def State.exchanged (s : State) (port : Nat) (d1 d2 : Int) : State :=
  (({ s with gts := { s.gts with tsync := none } } : State).showExchange (tdiv (d1 - d2 - s.asym port) 2) (tdiv (d1 + d2) 2)).takeOffset
    (tdiv (d1 - d2 - s.asym port) 2)

section
variable {t2 t3 : BitVec 64} {sub : Fin 64}

theorem tsync_payload_length (t2 t3 : Nat) : (leBytes 8 t2 ++ leBytes 8 t3).length = 16 := by
  rw [List.length_append, leBytes_length, leBytes_length]

theorem exec_tsyncResp_ignored (hp : h.port.val < s.gts.ports.length) (ho : s.inOrder h) (hd : h.dst.val = s.myId)
    (hn : ∀ tag t1, s.gts.tsync = some (tag, t1) → tag ≠ h.tag.toNat) :
    exec (.tsyncResp h t2 t3 sub) s = .next (s.taken h 1 16) := by
  refine congrArg _ ((State.deliverOrForward_mine hp ho hd).trans ?_)
  rw [tsync_payload_length]
  split
  · rfl
  · next tag t1 e => exact if_pos (hn tag t1 e).symm

theorem exec_tsyncResp_matched (hp : h.port.val < s.gts.ports.length) (ho : s.inOrder h) (hd : h.dst.val = s.myId) {t1 : Nat}
    (ht : s.gts.tsync = some (h.tag.toNat, t1)) : exec (.tsyncResp h t2 t3 sub) s = .next ((s.taken h 1 16).exchanged h.port.val
      (t2 - BitVec.ofNat 64 t1).toInt (BitVec.ofNat 64 (s.dtime * 16 + sub.val) - t3).toInt) := by
  refine congrArg _ ((State.deliverOrForward_mine hp ho hd).trans ?_)
  rw [tsync_payload_length, ← signed_toNat, ← signed_toNat, ← toU64_toNat_sub, ← toU64_sub_toNat]
  split
  · next e => exact absurd (ht.symm.trans e) nofun
  · next tag k e =>
    obtain ⟨rfl, rfl⟩ := Prod.mk.inj (Option.some.inj (ht.symm.trans e))
    exact if_neg (not_not_intro rfl)

end

/-- What an exchange of offset `o` and delay `delay` leaves: the registers that show it, the flags of R437 and R438, and DTIME turned
or stepped. -/
def State.exchangeLeaves (s t : State) (o delay : Int) : Prop :=
  let offs := (o :: s.gts.offsets).take 4
  let agree : Prop := offs.length = 4 ∧ ∀ x ∈ offs, ∀ y ∈ offs, (x - y).natAbs ≤ 160
  let committed : Prop := ∃ j, j < 64 ∧ (s.jobState j = 2 ∨ s.jobState j = 3)
  let steps : Prop := ¬ committed ∧ agree
  s.keepsRegs [R.GTS_TIME_STATUS, R.GTS_TIME_DELAY] t ∧ t.gts.tsync = none ∧ t.gts.lastExchange = t.dtime ∧
    (-32768 ≤ o → o ≤ 32767 → t.getInt R.GTS_TIME_STATUS.OFFSET = o ∧ t.free = s.free) ∧
    t.get R.GTS_TIME_DELAY.N = (delay % 2 ^ 32).toNat ∧
    t.gts.goodRun = (if o.natAbs ≤ 32 then s.gts.goodRun + 1 else 0) ∧
    (64 < o.natAbs → t.flag R.GTS_TIME_STATUS.SYNCED = false) ∧
    (o.natAbs ≤ 64 → t.gts.goodRun < 16 → t.flag R.GTS_TIME_STATUS.SYNCED = s.flag R.GTS_TIME_STATUS.SYNCED) ∧
    (16 ≤ t.gts.goodRun → ¬ committed ∨ s.flag R.GTS_TIME_STATUS.JOIN_BLOCKED = false → t.flag R.GTS_TIME_STATUS.SYNCED = true) ∧
    (committed → t.flag R.GTS_TIME_STATUS.JOIN_BLOCKED = (s.flag R.GTS_TIME_STATUS.JOIN_BLOCKED || decide (64 < o.natAbs))) ∧
    (¬ committed → t.flag R.GTS_TIME_STATUS.JOIN_BLOCKED = false) ∧
    (¬ steps → t.dtime = s.dtime ∧ t.gts.offsets = offs ∧ t.gts.tsSent = s.gts.tsSent ∧
      t.gts.phase = s.gts.phase + clampInt o (-16) 16) ∧
    (steps → t.dtime = Machine.stepped o s.dtime ∧ t.gts.offsets = [] ∧ t.gts.tsSent = Machine.stepped o s.gts.tsSent ∧
      t.gts.away = s.gts.away.map (fun e => (e.1, Machine.stepped o e.2)) ∧
      t.gts.phase = s.gts.phase + clampInt (o - 64 * ((o + 32) / 64)) (-16) 16)

theorem State.offsetFlags_free (n run : Nat) (jobs : Bool) : (s.offsetFlags n run jobs).free = s.free := by
  have := closedRegs_of_ne (s := s) (c := .free) (by decide)
  have hs : Holds (fun t => Comp.free.same s t) s := Holds.same_refl
  have hd : Holds (fun t => Comp.free.same s t) (s.doubtOffset n) := Holds.ite (State.drop_holds hs) hs
  have hb : Holds (fun t => Comp.free.same s t) ((s.doubtOffset n).blockJoin n jobs) :=
    Holds.ite (Holds.ite (State.raise_holds hd) hd) (State.drop_holds hd)
  exact Holds.ite (State.raise_holds hb) hb

theorem GtsSt.runWith_bad {g : GtsSt} {o : Int} (ho : 64 < o.natAbs) : g.runWith o = 0 := if_neg (by omega)

theorem State.showExchange_takeOffset_leaves (hw : sparseWf regDefault s.regs = true) (hn : s.gts.tsync = none) (o delay : Int) :
    s.exchangeLeaves ((s.showExchange o delay).takeOffset o) o delay := by
  obtain ⟨hwithin, hg, hdt, hsy, hjb, hdel, hoff⟩ := State.showExchange_rules hw o delay
  generalize s.showExchange o delay = u at *
  have hju : u.jobsRun = s.jobsRun := State.jobsRun_of_within hwithin
  obtain ⟨d, g, e, hts, hle, hrun, hkeep, hstep⟩ := State.takeOffset_timed hwithin.1 o
  obtain ⟨hfj, hfs⟩ := State.offsetFlags_rules hwithin.1 o.natAbs (u.gts.runWith o) u.jobsRun
  have hfo := State.offsetFlags_offset hwithin.1 o.natAbs (u.gts.runWith o) u.jobsRun
  have hwf := hwithin.offsetFlags (.head _) o.natAbs (u.gts.runWith o) u.jobsRun
  have hfd : (u.offsetFlags o.natAbs (u.gts.runWith o) u.jobsRun).get R.GTS_TIME_DELAY.N = u.get R.GTS_TIME_DELAY.N :=
    ((State.regsWithin_refl hwithin.1).offsetFlags (List.mem_singleton_self _) _ _ _).get (by decide) (by decide)
  have hff : (u.offsetFlags o.natAbs (u.gts.runWith o) u.jobsRun).free = u.free := State.offsetFlags_free _ _ _
  have hsteps := and_congr (not_congr (State.jobsRun_iff (s := s))) (offsetsAgree_iff (s.gts.offsetsWith o))
  rw [Bool.not_eq_true] at hsteps
  rw [e]
  rw [hju, hg, hdt] at *
  rw [hsy, hjb] at hfs
  rw [hjb] at hfj
  refine ⟨hwf.2, hts.trans hn, hle, fun hl hu => ⟨(congrArg (signed 16) hfo).trans (hoff hl hu).1, hff.trans (hoff hl hu).2⟩,
    hfd.trans hdel, hrun, fun ho => hfs.trans ?_, fun ho hr => hfs.trans ?_, fun hr hc => hfs.trans ?_, fun hc => hfj.trans ?_,
    fun hc => hfj.trans ?_, fun hs => ?_, fun hs => ?_⟩
  · rw [GtsSt.runWith_bad ho, decide_eq_true (p := o.natAbs > 64) ho]
    rfl
  · have hr' : ¬ s.gts.runWith o ≥ 16 := Nat.not_le_of_lt (hrun ▸ hr)
    rw [decide_eq_false hr', decide_eq_false (p := o.natAbs > 64) (by omega)]
    rfl
  · have hr' : s.gts.runWith o ≥ 16 := hrun ▸ hr
    have hb : ¬ o.natAbs > 64 := fun ho => by
      rw [GtsSt.runWith_bad ho] at hr'
      exact absurd hr' (by decide)
    rw [decide_eq_true hr', decide_eq_false hb]
    rcases hc with hc | hc
    · rw [Bool.eq_false_iff.2 (mt State.jobsRun_iff.1 hc)]
      rfl
    · rw [hc, Bool.or_self, Bool.and_false]
      rfl
  · rw [State.jobsRun_iff.2 hc, Bool.true_and, Bool.or_comm]
  · rw [Bool.eq_false_iff.2 (mt State.jobsRun_iff.1 hc), Bool.false_and]
  · obtain ⟨hd, hgs⟩ := hkeep fun hc => hs (hsteps.1 hc)
    subst hgs
    exact ⟨hd, rfl, rfl, rfl⟩
  · obtain ⟨hd, hgs⟩ := hstep (hsteps.2 hs)
    subst hgs
    exact ⟨hd, rfl, rfl, rfl, rfl⟩

end

section
variable {h : Packet}

theorem exec_tsyncResp_leaves (hw : sparseWf regDefault s.regs = true) (hp : h.port.val < s.gts.ports.length) (ho : s.inOrder h)
    (hd : h.dst.val = s.myId) {t2 t3 : BitVec 64} {sub : Fin 64} {t1 : Nat} (ht : s.gts.tsync = some (h.tag.toNat, t1)) :
    let d1 : Int := (t2 - BitVec.ofNat 64 t1).toInt
    let d2 : Int := (BitVec.ofNat 64 (s.dtime * 16 + sub.val) - t3).toInt
    ∃ t, exec (.tsyncResp h t2 t3 sub) s = .next t ∧ s.changesOnly [.regs, .dtime, .free, .gts] t ∧
      s.exchangeLeaves t (Int.tdiv (d1 - d2 - s.asym h.port.val) 2) (Int.tdiv (d1 + d2) 2) := by
  have he := exec_tsyncResp_matched (t2 := t2) (t3 := t3) (sub := sub) hp ho hd ht
  exact ⟨_, he, exec_changesOnly (.tsyncResp h t2 t3 sub) s _ he,
    State.showExchange_takeOffset_leaves (s := { s.taken h 1 16 with gts := { (s.taken h 1 16).gts with tsync := none } }) hw rfl _ _⟩

/-! ### TSYNC_REQ, TSYNC_SEND, TSYNC_TIMEOUT (R436, R437) -/

theorem exec_tsyncReq_mine (hp : h.port.val < s.gts.ports.length) (ho : s.inOrder h) (hd : h.dst.val = s.myId) (t1 : BitVec 64)
    (sub2 sub3 : Fin 64) : exec (.tsyncReq h t1 sub2 sub3) s = .next ((s.taken h 1 8).sendOn h.port.val
      { type := 0x12, vc := 1, dst := h.src.val, src := s.myId, tag := h.tag.toNat
        payload := leBytes 8 (s.dtime * 16 + sub2.val) ++ leBytes 8 (s.dtime * 16 + sub3.val) }) := by
  refine congrArg _ ((State.deliverOrForward_mine hp ho hd).trans ?_)
  rw [leBytes_length]
  rfl

theorem exec_tsyncSend_waits (sub : Fin 64) (hw : s.upstream = none ∨ s.flag R.GTS_CFG.ENABLE = false ∨ s.dtime < s.gts.tsSent + 1000000) :
    exec (.tsyncSend sub) s = .next s := by
  refine congrArg Host.Outcome.next ?_
  split
  · rfl
  · next p hu =>
    refine if_pos ?_
    rcases hw with hw | hw | hw
    · exact absurd (hu.symm.trans hw) nofun
    · simp [State.inFabric, hw]
    · simp [hw]

theorem exec_tsyncSend_asks (sub : Fin 64) {p : Nat} (hu : s.upstream = some p) (he : s.flag R.GTS_CFG.ENABLE = true)
    (hd : s.gts.tsSent + 1000000 ≤ s.dtime) :
    exec (.tsyncSend sub) s = .next (({ s with gts := { s.gts with
        nextTag := (s.gts.nextTag + 1) % 2 ^ 32, tsync := some (s.gts.nextTag, s.dtime * 16 + sub.val), tsSent := s.dtime } } : State).sendOn p
      { type := 0x11, vc := 1, dst := s.get (R.GTS_G_STATUS.PEER_ID p), src := s.myId, tag := s.gts.nextTag
        payload := leBytes 8 (s.dtime * 16 + sub.val) }) := by
  refine congrArg Host.Outcome.next ?_
  split
  · next hn => exact absurd (hu.symm.trans hn) nofun
  · next q hq =>
    obtain rfl := Option.some.inj (hu.symm.trans hq)
    refine if_neg ?_
    simp only [State.inFabric, he, Bool.not_true, Bool.false_or, decide_eq_true_eq]
    omega

theorem exec_tsyncTimeout_early (hn : ¬ (s.get R.GTS_STATUS.TIME_MASTER ≠ s.myId ∧ s.gts.lastExchange + 10000000 ≤ s.dtime)) :
    exec .tsyncTimeout s = .next s := by
  refine congrArg _ (if_neg ?_)
  rwa [Bool.and_eq_true, bne_iff_ne, decide_eq_true_eq]

theorem tsyncTimeout_completes (hw : sparseWf regDefault s.regs = true)
    (hd : s.get R.GTS_STATUS.TIME_MASTER ≠ s.myId ∧ s.gts.lastExchange + 10000000 ≤ s.dtime) :
    s.completes .tsyncTimeout [.regs, .gts] [R.GTS_TIME_STATUS] (fun t => t.flag R.GTS_TIME_STATUS.SYNCED = false ∧
      t.gts = { s.gts with goodRun := 0 }) := by
  have he : exec .tsyncTimeout s = .next (({ s with gts := { s.gts with goodRun := 0 } } : State).drop R.GTS_TIME_STATUS.SYNCED) := by
    refine congrArg _ (if_pos ?_)
    rwa [Bool.and_eq_true, bne_iff_ne, decide_eq_true_eq]
  refine ⟨_, he, exec_changesOnly .tsyncTimeout s _ he, ((State.regsWithin_refl hw).drop (f := R.GTS_TIME_STATUS.SYNCED) (.head _)).2, ?_, rfl⟩
  show (State.get (State.drop _ _) _ != 0) = false
  rw [State.get_drop (s := { s with gts := { s.gts with goodRun := 0 } }) hw (Fld.ok_of rfl)]
  rfl

end

end Sys2Proof.Machine
end

section
/-! SUPPORT, fabric: set traffic and remote windows (R226-R229, R441). -/

namespace Sys2Proof.Machine

variable {s t : State} {offs : List Nat} {n : Nat}

section
/-! ### A shard map reads as before once memory has been read (R302-R304, R316) -/

theorem State.reads.get_region (h : s.reads t) {f : Fld} (hl : 0xE0100 ≤ f.off) (hu : f.off < 0xE0300) : t.get f = s.get f := by
  refine h.1.get (by omega) fun hm => ?_
  simp only [loadOffsets, R.CEL_FAULT_LO, R.CEL_FAULT_HI, R.CEL_FAULT_INFO, R.CEL_STATUS, R.CEL_CNT_HARD, R.CEL_CNT_SOFT_CEL,
    R.CEL_CNT_SOFT_SHELF, R.CEL_CNT_PAN_LOCK, R.CEL_CNT_SOFT_PAN, R.CEL_CNT_WAIT_INFL, R.LOFT_CNT_DROP, R.LOFT_STATUS, List.mem_cons,
    List.not_mem_nil, or_false] at hm
  omega

section
variable (h : s.reads t) {r : Nat} (hr : r < 16)
include h hr

theorem State.reads.regionBase : t.regionBase r = s.regionBase r := by
  unfold State.regionBase State.get64
  rw [h.get_region (f := R.CEL_REG_BASE_LO.N r), h.get_region (f := R.CEL_REG_BASE_HI.N r)]
  all_goals
    simp only [R.CEL_REG_BASE_LO.N, R.CEL_REG_BASE_HI.N, R.CEL_REG_BASE_LO, R.CEL_REG_BASE_HI]
    omega

theorem State.reads.regionChans : t.regionChans r = s.regionChans r := by
  unfold State.regionChans
  rw [h.get_region (f := R.CEL_REG_CHAN.N r)]
  all_goals
    simp only [R.CEL_REG_CHAN.N, R.CEL_REG_CHAN]
    omega

theorem State.reads.regionPages (a b : Nat) : t.get ⟨R.CEL_REG_PAGES r, a, b⟩ = s.get ⟨R.CEL_REG_PAGES r, a, b⟩ := by
  refine h.get_region ?_ ?_
  all_goals
    simp only [R.CEL_REG_PAGES]
    omega

theorem State.reads.inRegion (a : Nat) : t.inRegion a r = s.inRegion a r := by
  have hp : t.get (R.CEL_REG_PAGES.PAGES r) = s.get (R.CEL_REG_PAGES.PAGES r) := h.regionPages hr _ _
  unfold State.inRegion State.regionSpan State.flag
  rw [h.regionBase hr, h.regionChans hr, hp, h.get_region (f := R.CEL_REG_CFG.ENABLE r)]
  all_goals
    simp only [R.CEL_REG_CFG.ENABLE, R.CEL_REG_CFG]
    omega

theorem State.reads.resolveIn (a : Nat) : t.resolveIn a r = s.resolveIn a r := by
  have hp : t.get (R.CEL_REG_PAGES.PAGE0 r) = s.get (R.CEL_REG_PAGES.PAGE0 r) := h.regionPages hr _ _
  unfold State.resolveIn
  rw [h.regionBase hr, h.regionChans hr, hp]

end

theorem State.reads.resolve (h : s.reads t) (a : Nat) : t.resolve .firmware a = s.resolve .firmware a := by
  have hf : (List.range 16).find? (fun r => t.inRegion a r) = (List.range 16).find? (fun r => s.inRegion a r) :=
    List.find?_congr fun r hr => h.inRegion (List.mem_range.1 hr) a
  unfold State.resolve
  simp only [MemAgent.confined, Bool.not_false, Bool.true_or, Bool.and_true, if_true]
  rw [hf]
  split
  · split
    · next r hr => rw [h.resolveIn (List.mem_range.1 (List.mem_of_find?_eq_some hr))]
    · rfl
  · rfl

theorem State.reads.phys (h : s.reads t) (x : Home) : t.phys x = s.phys x := by
  unfold State.phys State.retEntry
  rw [h.2]

theorem State.reads.mapEntry (h : s.reads t) (hm : t.mem = s.mem) (c : List Nat) (z : Nat) : t.mapEntry c z = s.mapEntry c z := by
  unfold State.mapEntry
  simp only [h.resolve, h.phys, hm]

end

section
variable {h : Packet} {c : List Nat} {z : Nat} {r : MemRes} {v : State}

/-! ### A packet's set and shard, once the map has been read (R226, R310) -/

theorem State.readMap_mem (ag : MemAgent) (c : List Nat) (z : Nat) : (s.readMap ag c z).2.mem = s.mem := by
  have := closedRegs_of_ne (s := s) (c := .mem) (by decide)
  have := closedCel_of_ne (s := s) (c := .mem) (by decide)
  have := closedLoft_of_ne (s := s) (c := .mem) (by decide)
  exact State.readMap_holds (G := fun t => Comp.mem.same s t) Holds.same_refl

theorem State.reads.myId (hs : s.reads t) : t.myId = s.myId := hs.1.get (by decide) (by decide)

section
variable (hw : sparseWf regDefault s.regs = true) (hr : s.readMap .fabric c z = (r, v))
include hw hr

theorem State.readMap_fabric : v.myId = s.myId ∧ ∀ d y, v.mapEntry d y = s.mapEntry d y := by
  have hs := State.readMap_reads hw fabric_apart c z
  have hm := State.readMap_mem (s := s) .fabric c z
  rw [hr] at hs hm
  exact ⟨hs.myId, hs.mapEntry hm⟩

theorem State.readMap_shardPrimary (d : List Nat) (y : Nat) : v.shardPrimary d y = s.shardPrimary d y :=
  congrArg (bits · 13 8) ((State.readMap_fabric hw hr).2 d y)

theorem State.readMap_shardReplica (d : List Nat) (y : Nat) : v.shardReplica d y = s.shardReplica d y :=
  congrArg (bits · 21 16) ((State.readMap_fabric hw hr).2 d y)

end

/-! ### SET_REQ (R227, R439, R440) -/

/-- A SET_REQ is answered with DOUBT. -/
def State.answerDoubt (s : State) (h : Packet) (stale : Bool) : State :=
  (s.setFailed 4).2.answerSet h.src.val h.part.val h.tag.toNat (s.setFailed 4).1 stale

/-- A request's epoch is older than the one in force (R439). -/
def State.staleEpoch (s : State) (h : Packet) : Prop :=
  h.epoch.toNat ≠ s.get R.GTS_MAP_EPOCH.N ∧ (s.get R.GTS_MAP_EPOCH.N + 2 ^ 32 - h.epoch.toNat) % 2 ^ 32 < 2 ^ 31

theorem State.epoch_eq : s.get R.GTS_MAP_EPOCH.N = (s.reg R.GTS_MAP_EPOCH).toNat := by
  have := (s.reg R.GTS_MAP_EPOCH).isLt
  show bits (s.reg R.GTS_MAP_EPOCH).toNat 31 0 = _
  unfold bits
  omega

theorem State.staleEpoch_iff : s.staleEpoch h ↔ (decide (toU32 ((s.reg R.GTS_MAP_EPOCH).toNat - (h.epoch.toNat : Int)) % 4294967296 ≠ 0)
    && decide (toU32 ((s.reg R.GTS_MAP_EPOCH).toNat - (h.epoch.toNat : Int)) < 2147483648)) = true := by
  have hr := (s.reg R.GTS_MAP_EPOCH).isLt
  have he := h.epoch.isLt
  unfold State.staleEpoch toU32 toBits
  rw [State.epoch_eq, Bool.and_eq_true, decide_eq_true_eq, decide_eq_true_eq]
  generalize (s.reg R.GTS_MAP_EPOCH).toNat = a at *
  generalize h.epoch.toNat = b at *
  omega

section
variable {op set key node : Nat}

theorem State.serveSet_stale (hs : s.staleEpoch h ∨ cfgEnabled (s.setCfg set) = false ∨ cfgFabric (s.setCfg set) = false) :
    s.serveSet h op set key node = s.answerDoubt h true := by
  refine if_pos ?_
  rw [Bool.or_eq_true, Bool.or_eq_true, ← State.staleEpoch_iff, Bool.not_eq_true', Bool.not_eq_true', or_assoc]
  exact hs

/-- What a primary does with a request once its map has been read: state `v`, in which the read ended with `r`. -/
def State.serveRead (s : State) (h : Packet) (op set key node : Nat) : MemRes × State → State
  | (.ok, v) =>
    let c := s.setCfg set
    let z := keyShard key
    if v.shardPrimary c z != v.myId then v.answerDoubt h true
    else if v.setDoubt set c z then v.answerDoubt h false
    else
      (match v.setApply .fabric c (v.shardSlot c z) op key node with
       | (d, w) =>
        if d.failed.isSome then w.answerDoubt h false
        else match w.replicate set h.part.val key h.src.val h.tag.toNat c none d with
          | (true, x) => x
          | (false, x) => x.answerSet h.src.val h.part.val h.tag.toNat d.value false)
  | (_, v) => v.answerDoubt h false

theorem State.serveSet_read (hr : s.readMap .fabric (s.setCfg set) (keyShard key) = (r, v)) (hs : ¬ s.staleEpoch h)
    (hc : ¬ (cfgEnabled (s.setCfg set) = false ∨ cfgFabric (s.setCfg set) = false)) :
    s.serveSet h op set key node = s.serveRead h op set key node (r, v) := by
  refine Eq.trans (if_neg ?_) (congrArg (s.serveRead h op set key node) hr)
  rw [Bool.or_eq_true, Bool.or_eq_true, ← State.staleEpoch_iff, Bool.not_eq_true', Bool.not_eq_true', or_assoc]
  exact not_or.2 ⟨hs, hc⟩

theorem State.serveRead_fails (hr : r ≠ .ok) : s.serveRead h op set key node (r, v) = v.answerDoubt h false := by
  cases r with
  | ok => exact absurd rfl hr
  | _ => rfl

theorem State.serveRead_elsewhere (hp : v.shardPrimary (s.setCfg set) (keyShard key) ≠ v.myId) :
    s.serveRead h op set key node (.ok, v) = v.answerDoubt h true := if_pos (bne_iff_ne.2 hp)

section
variable (hp : v.shardPrimary (s.setCfg set) (keyShard key) = v.myId)
include hp

theorem State.serveRead_doubtful (hd : v.setDoubt set (s.setCfg set) (keyShard key) = true) :
    s.serveRead h op set key node (.ok, v) = v.answerDoubt h false := by
  refine (if_neg ?_).trans (if_pos hd)
  rw [hp, bne_self_eq_false]
  decide

variable (hd : v.setDoubt set (s.setCfg set) (keyShard key) = false) {d : SetDone} {w : State}
  (ha : v.setApply .fabric (s.setCfg set) (v.shardSlot (s.setCfg set) (keyShard key)) op key node = (d, w))
include hd ha

theorem State.serveRead_applied : s.serveRead h op set key node (.ok, v) =
    if d.failed.isSome = true then w.answerDoubt h false
    else match w.replicate set h.part.val key h.src.val h.tag.toNat (s.setCfg set) none d with
      | (true, x) => x
      | (false, x) => x.answerSet h.src.val h.part.val h.tag.toNat d.value false := by
  refine (if_neg ?_).trans ((if_neg ?_).trans ?_)
  · rw [hp, bne_self_eq_false]
    decide
  · rw [hd]
    decide
  · rw [ha]

theorem State.serveRead_broken (hf : d.failed ≠ none) : s.serveRead h op set key node (.ok, v) = w.answerDoubt h false :=
  (State.serveRead_applied hp hd ha).trans (if_pos (Option.isSome_iff_ne_none.2 hf))

variable (hf : d.failed = none)
include hf

theorem State.serveRead_alone (hn : d.change = none ∨ w.shardReplica (s.setCfg set) (keyShard key) = w.myId) :
    s.serveRead h op set key node (.ok, v) = w.answerSet h.src.val h.part.val h.tag.toNat d.value false := by
  have hrep : w.replicate set h.part.val key h.src.val h.tag.toNat (s.setCfg set) none d = (false, w) := by
    unfold State.replicate
    split
    · rfl
    · next x hx =>
      refine if_pos ?_
      rw [Bool.or_eq_true, beq_iff_eq]
      exact .inr (hn.resolve_left fun e => absurd (hx.symm.trans e) nofun)
  rw [State.serveRead_applied hp hd ha, hf, hrep]
  exact if_neg nofun

theorem State.serveRead_replicated (hc : cfgFabric (s.setCfg set) = true) (hx : d.change ≠ none)
    (hn : w.shardReplica (s.setCfg set) (keyShard key) ≠ w.myId) : s.serveRead h op set key node (.ok, v) =
      (w.replicate set h.part.val key h.src.val h.tag.toNat (s.setCfg set) none d).2 := by
  have hrep : (w.replicate set h.part.val key h.src.val h.tag.toNat (s.setCfg set) none d).1 = true := by
    unfold State.replicate
    split
    · next e => exact absurd e hx
    · next x _ =>
      dsimp only
      rw [hc, if_neg]
      simpa using hn
  rw [State.serveRead_applied hp hd ha, hf]
  refine (if_neg nofun).trans ?_
  split
  · next e => rw [e]
  · next e => rw [e] at hrep; exact absurd hrep nofun

end

end

end

section
variable {h : Packet} {r : MemRes} {v : State}

/-- What a replica does with a change of an entry (R227). -/
def State.takeRepl (s : State) (h : Packet) (set key : Nat) (x : EntryChange) : State :=
  let c := s.setCfg set
  let z := keyShard key
  if !cfgEnabled c || !cfgFabric c then s
  else match s.readMap .fabric c z with
    | (.ok, s) =>
      if s.shardReplica c z != s.myId then s
      else (match s.writeEntry .fabric c (s.shardSlot c z) key x with
        | (.ok, s) => s.sendLookup 0x23 h.part.val h.src.val h.tag.toNat []
        | (_, s) => s)
    | (_, s) => s

section
variable {set key : Nat} {x : EntryChange}

theorem State.takeRepl_local (hf : ¬ (cfgEnabled (s.setCfg set) = true ∧ cfgFabric (s.setCfg set) = true)) : s.takeRepl h set key x = s := by
  refine if_pos ?_
  simpa [← Bool.not_eq_true, imp_iff_not_or] using hf

section
variable (hf : cfgEnabled (s.setCfg set) = true ∧ cfgFabric (s.setCfg set) = true)
  (hr : s.readMap .fabric (s.setCfg set) (keyShard key) = (r, v))
include hf hr

theorem State.takeRepl_elsewhere (hn : r ≠ .ok ∨ v.shardReplica (s.setCfg set) (keyShard key) ≠ v.myId) : s.takeRepl h set key x = v := by
  obtain ⟨he, hb⟩ := hf
  refine (if_neg (by rw [he, hb]; decide)).trans ?_
  rw [hr]
  cases r with
  | ok => exact if_pos (bne_iff_ne.2 (hn.resolve_left (not_not_intro rfl)))
  | _ => rfl

theorem State.takeRepl_writes (hk : r = .ok) (hn : v.shardReplica (s.setCfg set) (keyShard key) = v.myId) {q : MemRes} {w : State}
    (hwr : v.writeEntry .fabric (s.setCfg set) (v.shardSlot (s.setCfg set) (keyShard key)) key x = (q, w)) :
    s.takeRepl h set key x = if q = .ok then w.sendLookup 0x23 h.part.val h.src.val h.tag.toNat [] else w := by
  obtain ⟨he, hb⟩ := hf
  subst hk
  refine (if_neg (by rw [he, hb]; decide)).trans ?_
  rw [hr]
  refine (if_neg (by rw [hn, bne_self_eq_false]; decide)).trans ?_
  rw [hwr]
  cases q with
  | ok => rfl
  | _ => rfl

end

end

/-- The answer to an RGET_REQ (R229): the data that a window lets it read, or none. -/
def answerRead (h : Packet) : Option Nat × State → State
  | (some v, u) => u.sendLookup 0x25 h.part.val h.src.val h.tag.toNat (leBytes 8 v)
  | (none, u) => u.sendLookup 0x25 h.part.val h.src.val h.tag.toNat []

/-- An RGET ends with its data, or without (R229). -/
def State.giveData (s : State) (e c : Nat) (t : Thread) (i : Nat) : Option (BitVec 64) → State
  | some v => s.finishOp e c t i v.toNat
  | none => s.failGet e c t i

/-- What an RGET_RESP does (R229). -/
def State.takeData (s : State) (h : Packet) (data : Option (BitVec 64)) : State :=
  match s.waiterOf h.tag.toNat with
  | none => s
  | some (e, c, t, i) => s.giveData e c t i data

theorem State.takeData_unknown {data : Option (BitVec 64)} (hn : s.waiterOf h.tag.toNat = none) : s.takeData h data = s := by
  unfold State.takeData
  rw [hn]

theorem State.takeData_waited {data : Option (BitVec 64)} {e c i : Nat} {x : Thread} (hn : s.waiterOf h.tag.toNat = some (e, c, x, i)) :
    s.takeData h data = s.giveData e c x i data := by
  unfold State.takeData
  rw [hn]

section
variable (hp : h.port.val < s.gts.ports.length) (ho : s.inOrder h) (hd : h.dst.val = s.myId)
include hp ho hd

/-! ### Set traffic (R227) -/

theorem exec_setReq_mine (op : Fin 3) (set : Fin 16) (key : BitVec 88) (node : BitVec 32) :
    exec (.setReq h op set key node) s = .next
      ((s.taken h 2 (setReqBytes op.val set.val key.toNat node.toNat).length).serveSet h op.val set.val key.toNat node.toNat) :=
  congrArg _ (State.deliverOrForward_mine hp ho hd)

theorem exec_setResp_unknown {value : BitVec 64} {stale : Bool} (hn : s.waiterOf h.tag.toNat = none) :
    exec (.setResp h value stale) s = .next (s.taken h 2 (setRespBytes value.toNat stale).length) := by
  refine congrArg _ ((State.deliverOrForward_mine hp ho hd).trans ?_)
  split
  · rfl
  · next e => exact absurd (hn.symm.trans e) nofun

theorem exec_setResp_waited {value : BitVec 64} {stale : Bool} {e c i : Nat} {x : Thread}
    (hn : s.waiterOf h.tag.toNat = some (e, c, x, i)) :
    exec (.setResp h value stale) s = .next (if stale then (s.taken h 2 (setRespBytes value.toNat stale).length).failSet e c x i 4
      else (s.taken h 2 (setRespBytes value.toNat stale).length).finishSet e c x i value.toNat) := by
  refine congrArg _ ((State.deliverOrForward_mine hp ho hd).trans ?_)
  split
  · next e => exact absurd (hn.symm.trans e) nofun
  · next e =>
    cases hn.symm.trans e
    rfl

theorem exec_repl_mine (set : Fin 16) (key : BitVec 88) (bucket : BitVec 32) (entry : Fin 4) (st : BitVec 8) (node : BitVec 32) :
    exec (.repl h set key bucket entry st node) s = .next
      ((s.taken h 2 (replBytes set.val key.toNat ⟨bucket.toNat, entry.val, st.toNat, node.toNat⟩).length).takeRepl h set.val key.toNat
        ⟨bucket.toNat, entry.val, st.toNat, node.toNat⟩) :=
  congrArg _ (State.deliverOrForward_mine hp ho hd)

theorem exec_replAck_unknown (hn : ∀ x ∈ s.gts.serving, x.tag ≠ h.tag.toNat) : exec (.replAck h) s = .next (s.taken h 2 0) := by
  have hf : s.gts.serving.find? (fun x => x.tag == h.tag.toNat) = none :=
    List.find?_eq_none.2 fun x hx => by rw [beq_iff_eq]; exact hn x hx
  refine congrArg _ ((State.deliverOrForward_mine hp ho hd).trans ?_)
  split
  · rfl
  · next e => exact absurd (hf.symm.trans e) nofun

/-- The change that a REPL_ACK tells of is no longer served. -/
def State.served (s : State) (h : Packet) (x : Serving) : State :=
  { s.taken h 2 0 with gts := { (s.taken h 2 0).gts with serving := s.gts.serving.filter (fun y => y.tag != x.tag) } }

section
variable {x : Serving} (hf : s.gts.serving.find? (fun x => x.tag == h.tag.toNat) = some x)
include hf

theorem exec_replAck_remote (hl : x.local_ = none) :
    exec (.replAck h) s = .next ((s.served h x).answerSet x.requester x.part x.reqTag x.result false) := by
  refine congrArg _ ((State.deliverOrForward_mine hp ho hd).trans ?_)
  split
  · next e => exact absurd (hf.symm.trans e) nofun
  · next e =>
    cases hf.symm.trans e
    dsimp only
    split
    · rfl
    · next e => exact absurd (hl.symm.trans e) nofun

theorem exec_replAck_local {k tag : Nat} (hl : x.local_ = some (k, tag)) : exec (.replAck h) s = .next (match s.waiterOf tag with
    | some (e, c, t, i) => (s.served h x).finishSet e c t i x.result
    | none => s.served h x) := by
  refine congrArg _ ((State.deliverOrForward_mine hp ho hd).trans ?_)
  split
  · next e => exact absurd (hf.symm.trans e) nofun
  · next e =>
    cases hf.symm.trans e
    dsimp only
    split
    · next e => exact absurd (hl.symm.trans e) nofun
    · next e =>
      cases hl.symm.trans e
      rfl

theorem exec_replAck_gone {k tag : Nat} (hl : x.local_ = some (k, tag)) (hn : s.waiterOf tag = none) :
    exec (.replAck h) s = .next (s.served h x) := by
  rw [exec_replAck_local hp ho hd hf hl, hn]

theorem exec_replAck_waited {k tag e c i : Nat} {y : Thread} (hl : x.local_ = some (k, tag)) (hn : s.waiterOf tag = some (e, c, y, i)) :
    exec (.replAck h) s = .next ((s.served h x).finishSet e c y i x.result) := by
  rw [exec_replAck_local hp ho hd hf hl, hn]

end

/-! ### Remote windows (R229, R441) -/

theorem exec_rgetReq_mine (addr : BitVec 64) :
    exec (.rgetReq h addr) s = .next (answerRead h ((s.taken h 2 8).windowRead addr.toNat h.part.val)) := by
  refine congrArg _ ((State.deliverOrForward_mine hp ho hd).trans ?_)
  rw [leBytes_length]
  rfl

theorem exec_rgetReq_closed {addr : BitVec 64} (hn : ¬ (addr.toNat % 8 = 0 ∧ s.windowFor addr.toNat 8 h.part.val false = true)) :
    exec (.rgetReq h addr) s = .next ((s.taken h 2 8).sendLookup 0x25 h.part.val h.src.val h.tag.toNat []) := by
  have hr : (s.taken h 2 8).windowRead addr.toNat h.part.val = (none, s.taken h 2 8) := by
    refine if_pos ?_
    rw [Bool.or_eq_true, decide_eq_true_eq, Bool.not_eq_true', ← Bool.not_eq_true, ← not_and_or]
    exact hn
  rw [exec_rgetReq_mine hp ho hd, hr]
  rfl

theorem exec_rgetReq_open {addr : BitVec 64} (hn : addr.toNat % 8 = 0 ∧ s.windowFor addr.toNat 8 h.part.val false = true)
    {bs : List Byte} (hl : (s.taken h 2 8).load .fabric addr.toNat 8 = (r, bs, v)) : exec (.rgetReq h addr) s =
      .next (v.sendLookup 0x25 h.part.val h.src.val h.tag.toNat (if r = .ok then leBytes 8 (leVal bs) else [])) := by
  have hr : (s.taken h 2 8).windowRead addr.toNat h.part.val = (if r = .ok then some (leVal bs) else none, v) := by
    refine (if_neg ?_).trans ?_
    · rw [Bool.or_eq_true, decide_eq_true_eq, Bool.not_eq_true', ← Bool.not_eq_true, ← not_and_or]
      exact not_not_intro hn
    · rw [hl]
      cases r with
      | ok => rfl
      | _ => rfl
  rw [exec_rgetReq_mine hp ho hd, hr]
  cases r with
  | ok => rfl
  | _ => rfl

theorem exec_rgetResp_mine (data : Option (BitVec 64)) :
    exec (.rgetResp h data) s = .next ((s.taken h 2 (match data with | some _ => 8 | none => 0)).takeData h data) := by
  refine congrArg _ ((State.deliverOrForward_mine hp ho hd).trans ?_)
  cases data with
  | none => rfl
  | some v => exact congrArg (fun k => (s.taken h 2 k).takeData h (some v)) (leBytes_length 8 v.toNat)

end

end

end Sys2Proof.Machine
end

section
/-! SUPPORT, fabric: halo strips (R441, R443). -/

namespace Sys2Proof.Machine

variable {s t : State} {offs : List Nat} {n : Nat}

section
variable {h : Packet} {r : MemRes} {v : State}

/-! ### Halo strips (R441, R443) -/

section
variable (part e strip off total : Nat) (bs : List Byte)

/-- The strip that a HALO packet is of, as it stands before the packet. -/
def State.haloBegun (s : State) (e strip total : Nat) : HaloRecv :=
  (s.haloRecv e strip).getD
    { entry := e, strip := strip, total := total, dropped := decide ((s.so (s.get (R.GTS_HX_BUF.SO e))).value ≥ s.get (R.GTS_HX_BUF.BUFS e)) }

/-- The strip with a packet's bytes. -/
def State.haloWith (s : State) (e strip off total len : Nat) : HaloRecv :=
  { s.haloBegun e strip total with got := (s.haloBegun e strip total).got ++ [(off, len)] }

/-- Where a packet's bytes go: buffer k mod BUFS of the entry. -/
def State.haloAddr (s : State) (e strip off : Nat) : Nat :=
  s.get64 (R.GTS_HX_BASE_LO.N e) (R.GTS_HX_BASE_HI.N e) + strip % s.get (R.GTS_HX_BUF.BUFS e) * s.get (R.GTS_HX_STRIDE.UNITS e) * 4096 + off

theorem State.haloTake_eq : s.haloTake part e strip off total bs =
    let x := s.haloWith e strip off total bs.length
    let keep := if x.whole = true then none else some x
    if x.dropped = true then
      let u := s.setHalo e strip keep
      if (s.haloRecv e strip).isNone = true then u.bump (R.GTS_HX_DROP.N e) else u
    else if (!s.windowFor (s.haloAddr e strip off) bs.length part true) = true then s.bump (R.GTS_HX_DROP.N e)
    else
      match s.store .fabric (s.haloAddr e strip off) bs with
      | (.ok, v) =>
        if x.whole = true then
          (((v.setHalo e strip keep).bump (R.GTS_HX_STRIPS.N e)).signal .firmware (s.get (R.GTS_HX_BUF.SO e)) 1).settle
        else v.setHalo e strip keep
      | (_, v) => (v.setHalo e strip (if x.whole = true then none else some { x with dropped := true })).bump (R.GTS_HX_DROP.N e) := by
  unfold State.haloTake State.haloWith State.haloBegun
  cases s.haloRecv e strip <;> rfl

section
variable {part e strip off total bs}

/-- A packet of a strip that is refused: the strip counts with its first packet (R443). -/
theorem State.haloTake_refused (hx : (s.haloBegun e strip total).dropped = true) : ∃ k, s.haloTake part e strip off total bs =
    if s.haloRecv e strip = none then (s.setHalo e strip k).bump (R.GTS_HX_DROP.N e) else s.setHalo e strip k := by
  refine ⟨if (s.haloWith e strip off total bs.length).whole = true then none else some (s.haloWith e strip off total bs.length),
    (State.haloTake_eq part e strip off total bs).trans ((if_pos hx).trans ?_)⟩
  simp only [Option.isNone_iff_eq_none]

section
variable (hx : (s.haloBegun e strip total).dropped = false)
include hx

theorem State.haloTake_closed (hw : s.windowFor (s.haloAddr e strip off) bs.length part true = false) :
    s.haloTake part e strip off total bs = s.bump (R.GTS_HX_DROP.N e) := by
  refine (State.haloTake_eq part e strip off total bs).trans ((if_neg ?_).trans (if_pos ?_))
  · exact Bool.eq_false_iff.1 hx
  · rw [hw]
    rfl

variable (hw : s.windowFor (s.haloAddr e strip off) bs.length part true = true)
  (hs : s.store .fabric (s.haloAddr e strip off) bs = (r, v))
include hw hs

theorem State.haloTake_stored (hr : r = .ok) : s.haloTake part e strip off total bs =
    if (s.haloWith e strip off total bs.length).whole = true then
      (((v.setHalo e strip none).bump (R.GTS_HX_STRIPS.N e)).signal .firmware (s.get (R.GTS_HX_BUF.SO e)) 1).settle
    else v.setHalo e strip (some (s.haloWith e strip off total bs.length)) := by
  subst hr
  refine (State.haloTake_eq part e strip off total bs).trans ((if_neg (Bool.eq_false_iff.1 hx)).trans ((if_neg ?_).trans ?_))
  · rw [hw]
    decide
  · rw [hs]
    dsimp only
    split
    · rfl
    · rfl

theorem State.haloTake_failed (hr : r ≠ .ok) : s.haloTake part e strip off total bs =
    if (s.haloWith e strip off total bs.length).whole = true then (v.setHalo e strip none).bump (R.GTS_HX_DROP.N e)
    else (v.setHalo e strip (some { s.haloWith e strip off total bs.length with dropped := true })).bump (R.GTS_HX_DROP.N e) := by
  rw [← apply_ite (fun k => (v.setHalo e strip k).bump (R.GTS_HX_DROP.N e))]
  refine (State.haloTake_eq part e strip off total bs).trans ((if_neg (Bool.eq_false_iff.1 hx)).trans ((if_neg ?_).trans ?_))
  · rw [hw]
    decide
  · rw [hs]
    cases r with
    | ok => exact absurd rfl hr
    | _ => rfl

end

end

end

/-- Nothing is stored, no sync object moves, and `k` packets or strips count as dropped at the entry (R443). -/
def State.dropsHalo (s : State) (e k : Nat) (v : State) : Prop := v.mem = s.mem ∧ v.sync = s.sync ∧ s.counts (R.GTS_HX_DROP.N e) k v

section
variable {i : Instr} {u : State} (hw : sparseWf regDefault s.regs = true) (hu : s.changesOnly [.gts] u) {e : Nat}
include hw hu

theorem State.halo_counted (he : exec i s = .next (u.bump (R.GTS_HX_DROP.N e))) :
    s.completes i [.regs, .gts] [R.GTS_HX_DROP e] (fun v => s.dropsHalo e 1 v ∧ v.gts = u.gts) := by
  have hr : u.regs = s.regs := hu .regs (by decide)
  have hwithin : s.regsWithin [R.GTS_HX_DROP e] u := (State.regsWithin_refl hw).of_regs hr
  have hf : (R.GTS_HX_DROP.N e).ok := Fld.ok_of rfl
  have hc := State.counts_bump (hr ▸ hw : sparseWf regDefault u.regs = true) hf
  refine ⟨_, he, fun c hc => ?_, (hwithin.bump (f := R.GTS_HX_DROP.N e) (.head _)).2, ⟨hu .mem (by decide), hu .sync (by decide), ?_⟩, rfl⟩
  · simp only [List.mem_cons, List.not_mem_nil, or_false, not_or] at hc
    obtain ⟨hcr, hcg⟩ := hc
    have := closedRegs_of_ne (s := s) hcr
    exact State.bump_holds (G := fun t => c.same s t) (hu c (by simpa using hcg))
  · unfold State.counts at *
    rwa [State.get_of_regs hr] at hc

theorem State.halo_uncounted (he : exec i s = .next u) : s.completes i [.regs, .gts] [R.GTS_HX_DROP e] (fun v => s.dropsHalo e 0 v) := by
  have hr : u.regs = s.regs := hu .regs (by decide)
  refine ⟨u, he, fun c hc => hu c fun hm => hc (.tail _ hm), ((State.regsWithin_refl hw).of_regs hr).2,
    hu .mem (by decide), hu .sync (by decide), State.counts_zero (State.get_of_regs hr _)⟩

end

theorem State.taken_changesOnly (s : State) (h : Packet) (vc len : Nat) : s.changesOnly [.gts] (s.taken h vc len) := by
  intro c hc
  have := closedGts_of_ne (s := s) (c := c) (by simpa using hc)
  exact Holds.gts (G := fun t => c.same s t) Holds.same_refl

theorem State.setHalo_changesOnly {u : State} (hu : s.changesOnly [.gts] u) (e strip : Nat) (k : Option HaloRecv) :
    s.changesOnly [.gts] (u.setHalo e strip k) := by
  intro c hc
  have := closedGts_of_ne (s := s) (c := c) (by simpa using hc)
  exact State.setHalo_holds (G := fun t => c.same s t) (hu c hc)

/-- An entry receives the strips of a peer (R443). -/
def State.haloAdmits (s : State) (h : Packet) (e : Nat) : Prop :=
  s.flag (R.GTS_HX_CFG.ENABLE e) = true ∧ s.flag (R.GTS_HX_CFG.DIR e) = true ∧ s.get (R.GTS_HX_CFG.PEER e) = h.src.val

section
variable (hp : h.port.val < s.gts.ports.length) (ho : s.inOrder h) (hd : h.dst.val = s.myId)
variable {entry : Fin 16} {strip off total : BitVec 32} {bytes : List Byte}
include hp ho hd

theorem exec_halo_admitted (ha : s.haloAdmits h entry.val) : exec (.halo h entry strip off total bytes) s = .next
    ((s.taken h 3 bytes.length).haloTake h.part.val entry.val strip.toNat off.toNat total.toNat bytes) := by
  obtain ⟨h1, h2, h3⟩ := ha
  refine congrArg Host.Outcome.next ((State.deliverOrForward_mine hp ho hd).trans (if_pos ?_))
  rw [Bool.and_eq_true, Bool.and_eq_true, beq_iff_eq]
  exact ⟨⟨h1, h2⟩, h3⟩

theorem exec_halo_refused (ha : ¬ s.haloAdmits h entry.val) : exec (.halo h entry strip off total bytes) s = .next
    ((s.taken h 3 bytes.length).bump (R.GTS_HX_DROP.N entry.val)) := by
  refine congrArg Host.Outcome.next ((State.deliverOrForward_mine hp ho hd).trans (if_neg ?_))
  rw [Bool.and_eq_true, Bool.and_eq_true, beq_iff_eq, and_assoc]
  exact ha

variable (hw : sparseWf regDefault s.regs = true)
include hw

theorem halo_refused_completes (ha : ¬ s.haloAdmits h entry.val) :
    s.completes (.halo h entry strip off total bytes) [.regs, .gts] [R.GTS_HX_DROP entry.val] (fun v =>
      s.dropsHalo entry.val 1 v ∧ v.gts = (s.taken h 3 bytes.length).gts) :=
  State.halo_counted hw (s.taken_changesOnly h 3 bytes.length) (exec_halo_refused hp ho hd ha)

variable (ha : s.haloAdmits h entry.val)
include ha

theorem halo_dropped_completes (hx : (s.haloBegun entry.val strip.toNat total.toNat).dropped = true) :
    s.completes (.halo h entry strip off total bytes) [.regs, .gts] [R.GTS_HX_DROP entry.val] (fun v =>
      s.dropsHalo entry.val (if s.haloRecv entry.val strip.toNat = none then 1 else 0) v) := by
  have hs := s.taken_changesOnly h 3 bytes.length
  obtain ⟨k, e⟩ := State.haloTake_refused (s := s.taken h 3 bytes.length) (part := h.part.val) (off := off.toNat) (bs := bytes) hx
  have he := exec_halo_admitted (entry := entry) (strip := strip) (off := off) (total := total) (bytes := bytes) hp ho hd ha
  rw [e] at he
  have hu := State.setHalo_changesOnly hs entry.val strip.toNat k
  by_cases hn : s.haloRecv entry.val strip.toNat = none
  · obtain ⟨t, h1, h2, h3, h4, _⟩ := State.halo_counted hw hu (he.trans (congrArg _ (if_pos hn)))
    rw [if_pos hn]
    exact ⟨t, h1, h2, h3, h4⟩
  · rw [if_neg hn]
    exact State.halo_uncounted hw hu (he.trans (congrArg _ (if_neg hn)))

variable (hx : (s.haloBegun entry.val strip.toNat total.toNat).dropped = false)
include hx

theorem halo_closed_completes (hwin : s.windowFor (s.haloAddr entry.val strip.toNat off.toNat) bytes.length h.part.val true = false) :
    s.completes (.halo h entry strip off total bytes) [.regs, .gts] [R.GTS_HX_DROP entry.val] (fun v => s.dropsHalo entry.val 1 v) := by
  have e := State.haloTake_closed (s := s.taken h 3 bytes.length) hx hwin
  have he := exec_halo_admitted (entry := entry) (strip := strip) (off := off) (total := total) (bytes := bytes) hp ho hd ha
  rw [e] at he
  obtain ⟨t, h1, h2, h3, h4, _⟩ := State.halo_counted hw (s.taken_changesOnly h 3 bytes.length) he
  exact ⟨t, h1, h2, h3, h4⟩

end

end

section
/-! ### A strip is whole (R443) -/

section
variable {α : Type} {key : α → Nat}

theorem insertBy_eq_orderedInsert (a : α) : ∀ l : List α, insertBy key a l = l.orderedInsert (fun x y => key x ≤ key y) a
  | [] => rfl
  | b :: l => by
    unfold insertBy
    rw [insertBy_eq_orderedInsert a l]
    rfl

theorem sortBy_eq_insertionSort : ∀ l : List α, sortBy key l = l.insertionSort (fun x y => key x ≤ key y)
  | [] => rfl
  | a :: l => (insertBy_eq_orderedInsert a (sortBy key l)).trans
    (congrArg (List.orderedInsert (fun x y => key x ≤ key y) a) (sortBy_eq_insertionSort l))

theorem mem_sortBy {l : List α} {x : α} : x ∈ sortBy key l ↔ x ∈ l := by
  rw [sortBy_eq_insertionSort, List.mem_insertionSort]

theorem sortBy_sorted (l : List α) : (sortBy key l).Pairwise (fun x y => key x ≤ key y) := by
  have : Std.Total (fun x y : α => key x ≤ key y) := ⟨fun x y => Nat.le_total (key x) (key y)⟩
  have : IsTrans α (fun x y => key x ≤ key y) := ⟨fun _ _ _ => Nat.le_trans⟩
  rw [sortBy_eq_insertionSort]
  exact List.pairwise_insertionSort _ l

end

/-- How far the bytes are covered, those before `n` being so, by one more range (R443). -/
def coverStep (n : Nat) (r : Nat × Nat) : Nat := if r.1 ≤ n then Nat.max n (r.1 + r.2) else n

theorem coverStep_eq (n : Nat) (g : Nat × Nat) : coverStep n g = if g.1 ≤ n then max n (g.1 + g.2) else n := rfl

theorem coverStep_gains {g : Nat × Nat} {b : Nat} (hn : n ≤ b) (hb : b < coverStep n g) : g.1 ≤ b ∧ b < g.1 + g.2 := by
  rw [coverStep_eq] at hb
  split at hb
  · omega
  · omega

/-- A byte is in one of the ranges. -/
def inRanges (rs : List (Nat × Nat)) (b : Nat) : Prop := ∃ g ∈ rs, g.1 ≤ b ∧ b < g.1 + g.2

theorem foldl_coverStep_of_gap : ∀ {rs : List (Nat × Nat)}, (∀ g ∈ rs, n < g.1) → rs.foldl coverStep n = n
  | [], _ => rfl
  | g :: rs, hg => by
    have h1 : coverStep n g = n := if_neg (Nat.not_le_of_lt (hg g (.head _)))
    rw [List.foldl_cons, h1, foldl_coverStep_of_gap fun x hx => hg x (.tail _ hx)]

theorem foldl_coverStep_covered : ∀ (rs : List (Nat × Nat)) {n b : Nat}, b < rs.foldl coverStep n → b < n ∨ inRanges rs b
  | [], _, _, hb => .inl hb
  | g :: rs, n, b, hb => by
    rcases foldl_coverStep_covered rs hb with h | ⟨x, hx, hr⟩
    · by_cases hn : b < n
      · exact .inl hn
      · exact .inr ⟨g, .head _, coverStep_gains (by omega) h⟩
    · exact .inr ⟨x, .tail _ hx, hr⟩

theorem le_foldl_coverStep : ∀ (rs : List (Nat × Nat)) (n : Nat), n ≤ rs.foldl coverStep n
  | [], _ => Nat.le_refl _
  | g :: rs, n => by
    have h1 : n ≤ coverStep n g := by
      rw [coverStep_eq]
      split <;> omega
    exact h1.trans (le_foldl_coverStep rs _)

/-- The first byte past those covered is in no range, the ranges being taken in ascending order. -/
theorem foldl_coverStep_stops : ∀ {rs : List (Nat × Nat)} {n : Nat}, rs.Pairwise (fun x y => x.1 ≤ y.1) → ¬ inRanges rs (rs.foldl coverStep n)
  | [], _, _, ⟨_, hx, _⟩ => absurd hx List.not_mem_nil
  | g :: rs, n, hs, ⟨x, hx, hl, hu⟩ => by
    obtain ⟨hg, hrs⟩ := List.pairwise_cons.1 hs
    by_cases hn : g.1 ≤ n
    · rcases List.mem_cons.1 hx with rfl | hx
      · have h1 : x.1 + x.2 ≤ coverStep n x := by
          rw [coverStep_eq, if_pos hn]
          omega
        have h2 := le_foldl_coverStep rs (coverStep n x)
        rw [List.foldl_cons] at hu
        omega
      · exact foldl_coverStep_stops hrs ⟨x, hx, hl, hu⟩
    · have hgap : ∀ y ∈ g :: rs, n < y.1 := fun y hy => by
        rcases List.mem_cons.1 hy with rfl | hy
        · omega
        · have := hg y hy
          omega
      rw [foldl_coverStep_of_gap hgap] at hl
      have := hgap x hx
      omega

/-- A strip is whole when each of its bytes has arrived. -/
theorem HaloRecv.whole_iff (x : HaloRecv) : x.whole = true ↔ ∀ b, b < x.total → ∃ g ∈ x.got, g.1 ≤ b ∧ b < g.1 + g.2 := by
  have hc : coveredTo x.got = (sortBy (·.1) x.got).foldl coverStep 0 := rfl
  unfold HaloRecv.whole
  rw [decide_eq_true_eq, hc]
  constructor
  · intro ht b hb
    obtain ⟨g, hg, hr⟩ := (foldl_coverStep_covered _ (Nat.lt_of_lt_of_le hb ht)).resolve_left (Nat.not_lt_zero b)
    exact ⟨g, mem_sortBy.1 hg, hr⟩
  · intro ht
    by_contra hlt
    obtain ⟨g, hg, hr⟩ := ht _ (Nat.lt_of_not_le hlt)
    exact foldl_coverStep_stops (sortBy_sorted _) ⟨g, mem_sortBy.2 hg, hr⟩

end

end Sys2Proof.Machine
end

section
/-! PROOFS, fabric: what settles O60. -/

namespace Sys2Proof.Machine

variable {s t : State} {offs : List Nat} {n : Nat}

section
variable {h : Packet} (hw : sparseWf regDefault s.regs = true) (hp : h.port.val < s.gts.ports.length) (ho : s.inOrder h)
  (hd : h.dst.val = s.myId)
include hw hp ho hd

/-- A SET_REQ of a fabric set, in an epoch not older, once the map has been read. -/
theorem exec_setReq_read {op : Fin 3} {set : Fin 16} {key : BitVec 88} {node : BitVec 32} (hs : ¬ s.staleEpoch h)
    (hc : ¬ (cfgEnabled (s.setCfg set.val) = false ∨ cfgFabric (s.setCfg set.val) = false)) {r : MemRes} {v : State}
    (hr : (s.taken h 2 (setReqBytes op.val set.val key.toNat node.toNat).length).readMap .fabric (s.setCfg set.val) (key.toNat % 256) = (r, v)) :
    let c := s.setCfg set.val
    let z := key.toNat % 256
    let doubt (x : State) (stale : Bool) : Prop := exec (.setReq h op set key node) s = .next (x.answerDoubt h stale)
    (r ≠ .ok → doubt v false) ∧
      (r = .ok → s.shardPrimary c z ≠ s.myId → doubt v true) ∧
      (r = .ok → s.shardPrimary c z = s.myId → v.setDoubt set.val c z = true → doubt v false) ∧
      (r = .ok → s.shardPrimary c z = s.myId → v.setDoubt set.val c z = false → ∀ d w,
        v.setApply .fabric c (v.shardSlot c z) op.val key.toNat node.toNat = (d, w) →
        (d.failed ≠ none → doubt w false) ∧
        (d.failed = none → d.change = none ∨ w.shardReplica c z = w.myId → exec (.setReq h op set key node) s = .next
          (w.answerSet h.src.val h.part.val h.tag.toNat d.value false)) ∧
        (d.failed = none → d.change ≠ none → w.shardReplica c z ≠ w.myId → exec (.setReq h op set key node) s = .next
          (w.replicate set.val h.part.val key.toNat h.src.val h.tag.toNat c none d).2)) := by
  intro c z doubt
  have hfab : cfgFabric c = true := Bool.eq_true_of_not_eq_false fun hf => hc (.inr hf)
  obtain ⟨hid, -⟩ := State.readMap_fabric (s := s.taken h 2 _) hw hr
  have hprim := State.readMap_shardPrimary (s := s.taken h 2 _) hw hr c z
  have hread := (exec_setReq_mine hp ho hd op set key node).trans
    (congrArg Host.Outcome.next (State.serveSet_read (s := s.taken h 2 _) hr hs hc))
  have hhere (hpr : s.shardPrimary c z = s.myId) : v.shardPrimary c z = v.myId := hprim.trans (hpr.trans hid.symm)
  have haway (hpr : s.shardPrimary c z ≠ s.myId) : v.shardPrimary c z ≠ v.myId := fun e => hpr (hprim.symm.trans (e.trans hid))
  refine ⟨fun hk => hread.trans (congrArg _ (State.serveRead_fails hk)), fun hk hpr => ?_, fun hk hpr hdt => ?_, fun hk hpr hdt d w ha => ?_⟩
  · subst hk
    exact hread.trans (congrArg _ (State.serveRead_elsewhere (haway hpr)))
  · subst hk
    exact hread.trans (congrArg _ (State.serveRead_doubtful (hhere hpr) hdt))
  · subst hk
    exact ⟨fun hf => hread.trans (congrArg _ (State.serveRead_broken (hhere hpr) hdt ha hf)),
      fun hf hn => hread.trans (congrArg _ (State.serveRead_alone (hhere hpr) hdt ha hf hn)),
      fun hf hx hn => hread.trans (congrArg _ (State.serveRead_replicated (hhere hpr) hdt ha hf hfab hx hn))⟩

/-- A REPL of a fabric set, once the map has been read. -/
theorem exec_repl_read {set : Fin 16} {key : BitVec 88} {bucket : BitVec 32} {entry : Fin 4} {st : BitVec 8} {node : BitVec 32}
    (hf : cfgEnabled (s.setCfg set.val) = true ∧ cfgFabric (s.setCfg set.val) = true) {r : MemRes} {v : State}
    (hr : (s.taken h 2 (replBytes set.val key.toNat ⟨bucket.toNat, entry.val, st.toNat, node.toNat⟩).length).readMap .fabric
      (s.setCfg set.val) (key.toNat % 256) = (r, v)) :
    let c := s.setCfg set.val
    let z := key.toNat % 256
    (r ≠ .ok ∨ s.shardReplica c z ≠ s.myId → exec (.repl h set key bucket entry st node) s = .next v) ∧
      (r = .ok → s.shardReplica c z = s.myId → ∀ q w,
        v.writeEntry .fabric c (s.shardSlot c z) key.toNat ⟨bucket.toNat, entry.val, st.toNat, node.toNat⟩ = (q, w) →
        exec (.repl h set key bucket entry st node) s =
          .next (if q = .ok then w.sendLookup 0x23 h.part.val h.src.val h.tag.toNat [] else w)) := by
  intro c z
  have he := exec_repl_mine hp ho hd set key bucket entry st node
  obtain ⟨hid, hmap⟩ := State.readMap_fabric (s := s.taken h 2 _) hw hr
  have hrep := State.readMap_shardReplica (s := s.taken h 2 _) hw hr c z
  have hslot : v.shardSlot c z = s.shardSlot c z := by
    unfold State.shardSlot
    rw [hmap]
    rfl
  refine ⟨fun hn => he.trans (congrArg _ (State.takeRepl_elsewhere (s := s.taken h 2 _) hf hr ?_)), fun hk hn q w hq =>
    he.trans (congrArg _ (State.takeRepl_writes (s := s.taken h 2 _) hf hr hk (hrep.trans (hn.trans hid.symm)) ?_))⟩
  · exact hn.imp_right fun hn e => hn (hrep.symm.trans (e.trans hid))
  · exact (congrArg (v.writeEntry .fabric c · key.toNat _) hslot).trans hq

omit hw in
/-- A HALO packet admitted, its bytes inside a window, once they have been stored. -/
theorem exec_halo_stored {entry : Fin 16} {strip off total : BitVec 32} {bytes : List Byte} (ha : s.haloAdmits h entry.val)
    (hx : (s.haloBegun entry.val strip.toNat total.toNat).dropped = false)
    (hwin : s.windowFor (s.haloAddr entry.val strip.toNat off.toNat) bytes.length h.part.val true = true) {r : MemRes} {v : State}
    (hs : (s.taken h 3 bytes.length).store .fabric (s.haloAddr entry.val strip.toNat off.toNat) bytes = (r, v)) :
    let e := entry.val
    let i := Instr.halo h entry strip off total bytes
    let x := s.haloWith e strip.toNat off.toNat total.toNat bytes.length
    (r = .ok → ¬ x.whole = true → exec i s = .next (v.setHalo e strip.toNat (some x))) ∧
      (r = .ok → x.whole = true → exec i s = .next
        ((((v.setHalo e strip.toNat none).bump (R.GTS_HX_STRIPS.N e)).signal .firmware (s.get (R.GTS_HX_BUF.SO e)) 1).settle)) ∧
      (r ≠ .ok → ¬ x.whole = true → exec i s = .next
        ((v.setHalo e strip.toNat (some { x with dropped := true })).bump (R.GTS_HX_DROP.N e))) ∧
      (r ≠ .ok → x.whole = true → exec i s = .next ((v.setHalo e strip.toNat none).bump (R.GTS_HX_DROP.N e))) := by
  intro e i x
  have he := exec_halo_admitted (entry := entry) (strip := strip) (off := off) (total := total) (bytes := bytes) hp ho hd ha
  have hst (hk : r = .ok) := he.trans (congrArg Host.Outcome.next (State.haloTake_stored (s := s.taken h 3 bytes.length) hx hwin hs hk))
  have hfa (hk : r ≠ .ok) := he.trans (congrArg Host.Outcome.next (State.haloTake_failed (s := s.taken h 3 bytes.length) hx hwin hs hk))
  exact ⟨fun hk hn => (hst hk).trans (congrArg _ (if_neg hn)), fun hk hn => (hst hk).trans (congrArg _ (if_pos hn)),
    fun hk hn => (hfa hk).trans (congrArg _ (if_neg hn)),
    fun hk hn => (hfa hk).trans (congrArg _ (if_pos hn))⟩

end

/-- Settles O60: the port takes, forwards or drops each packet; what is for this module goes to its own receiver, whose rules stand above. -/
theorem packetsAreTakenForwardedOrServed : Obligations.PacketsAreTakenForwardedOrServed := by
  unfold Obligations.PacketsAreTakenForwardedOrServed
  intro s hcan hlen me master dropped onward
  have hw : sparseWf regDefault s.regs = true := hcan.1
  have hport (p : Fin 8) : p.val < s.gts.ports.length := Nat.lt_of_lt_of_eq p.isLt hlen.symm
  refine ⟨?_, onwardPacket_credits, fun h links => State.drops_linkstate (hport h.port) links, ?_, ?_, ?_, ?_, ?_, ?_, HaloRecv.whole_iff⟩
  · intro i h type vc bs hi
    exact ⟨State.drops_packetRow (hport h.port) hi, exec_packetRow_onward (hport h.port) hi⟩
  · intro h epoch changes i xs bs a report rs
    have hp := hport h.port
    refine ⟨State.drops_promote hp, exec_promote_onward hp, exec_promote_reported hp, exec_promote_own hp, fun ho hr hm => ?_⟩
    have he := exec_promote_taken (changes := changes) hp ho hr hm
    obtain ⟨hg, hc⟩ := State.promoted_rules (s := s) hw (State.sendBcast_regs (s := a)
      { type := 3, vc := 0, src := h.src.val, bcast := true, payload := bs }) xs epoch.isLt
    exact ⟨_, he, rfl, hg, hc⟩
  · intro k z w _ c fabric
    exact ⟨State.rewriteMap_local, fun hf r v hr => State.rewriteMap_mem hf hr⟩
  · intro h x i a b on seqOk names
    have hp := hport h.port
    refine ⟨State.drops_posTuple hp, exec_posTuple_own hp, exec_posTuple_off hp, fun ho hm ht hn ha => ?_, fun ho hm ht hn hd hq hma hz => ?_,
      fun ho hm ht hn => posTuple_named_completes hw hp ho hm ht hn⟩
    · refine exec_posTuple_discarded hp ho hm ht hn fun ⟨hd, hq, hma, hz⟩ => ?_
      rcases ha with ha | ha | ⟨ha, hb⟩ | ⟨ha, hb⟩
      · exact absurd (hd.symm.trans ha) nofun
      · exact ha hq
      · exact hma.elim ha hb
      · exact absurd (hb.symm.trans (hz ha)) nofun
    · exact posTuple_accepted_completes hp ho hm ht hn ⟨hd, hq, hma, hz⟩
  · intro sub
    exact ⟨exec_tsyncSend_waits sub, fun p => exec_tsyncSend_asks sub⟩
  · exact ⟨exec_tsyncTimeout_early, tsyncTimeout_completes hw⟩
  · intro h ho hd
    have hp := hport h.port
    refine ⟨exec_tsyncReq_mine hp ho hd, ?_, ?_, ?_, ?_, ?_, ?_, ?_, ?_⟩
    · intro t2 t3 sub4 i t4 a
      refine ⟨exec_tsyncResp_ignored hp ho hd, fun t1 ht => ?_⟩
      obtain ⟨t, he, hc, hl⟩ := exec_tsyncResp_leaves (t2 := t2) (t3 := t3) (sub := sub4) hw hp ho hd ht
      exact ⟨t, he, hc, hl⟩
    · intro op set key node a c z old none_ i doubt
      exact ⟨fun hc => (exec_setReq_mine hp ho hd op set key node).trans (congrArg _ (State.serveSet_stale (s := a) hc)),
        fun hs hc r v hr => exec_setReq_read hw hp ho hd hs hc hr⟩
    · intro value stale a
      exact ⟨exec_setResp_unknown hp ho hd, fun e c t k => exec_setResp_waited hp ho hd⟩
    · intro set key bucket entry st node i x a c z fabric
      exact ⟨fun hf => (exec_repl_mine hp ho hd set key bucket entry st node).trans (congrArg _ (State.takeRepl_local (s := a) hf)),
        fun hf r v hr => exec_repl_read hw hp ho hd hf hr⟩
    · exact ⟨exec_replAck_unknown hp ho hd, fun x hx => ⟨exec_replAck_remote hp ho hd hx, fun k tag hl =>
        ⟨exec_replAck_gone hp ho hd hx hl, fun e c t i hn => exec_replAck_waited hp ho hd hx hl hn⟩⟩⟩
    · intro addr i a open_
      exact ⟨exec_rgetReq_closed hp ho hd, fun hop r bs v hl => exec_rgetReq_open hp ho hd hop hl⟩
    · intro data i a
      have he := exec_rgetResp_mine hp ho hd data
      exact ⟨fun hn => he.trans (congrArg _ (State.takeData_unknown (s := a) hn)),
        fun e c t k hn => he.trans (congrArg _ (State.takeData_waited (s := a) hn))⟩
    · intro entry strip off total bytes i e a admitted bufs so addr x got whole keeps
      exact ⟨halo_refused_completes hp ho hd hw, halo_dropped_completes hp ho hd hw, halo_closed_completes hp ho hd hw,
        fun ha hx hwin r v hs => exec_halo_stored hp ho hd ha hx hwin hs⟩

end Sys2Proof.Machine
end

section
/-! SUPPORT. What an operation leaves alone, parts of State and registers of BAR0 together, one step after the other. -/

namespace Sys2Proof.Machine

variable {s t u : State} {cs ds : List Comp} {offs : List Nat}

/-! ### Frames, one after the other -/

theorem Comp.same_trans {c : Comp} (h : c.same s t) (h' : c.same t u) : c.same s u := by
  cases c <;> exact h'.trans h

/-- From `s` to `t` no part of State changed but those listed, and of the registers those at the offsets listed alone, which are
canonical still. -/
def State.touchesOnly (s : State) (cs : List Comp) (offs : List Nat) (t : State) : Prop := s.changesOnly cs t ∧ s.regsWithin offs t

theorem State.touchesOnly_refl (h : sparseWf regDefault s.regs = true) : s.touchesOnly cs offs s :=
  ⟨fun _ _ => Holds.same_refl, State.regsWithin_refl h⟩

theorem State.touchesOnly.wf (h : s.touchesOnly cs offs t) : sparseWf regDefault t.regs = true := h.2.1

/-- A command that answers `t`, which differs from `s` where it may. -/
theorem State.touchesOnly.completes (h : s.touchesOnly cs offs t) {i : Instr} (he : exec i s = .next t) {p : State → Prop} (hp : p t) :
    s.completes i cs offs p := ⟨t, he, h.1, h.2.2, hp⟩

theorem State.touchesOnly.same (h : s.touchesOnly cs offs t) {c : Comp} (hc : c ∉ cs := by decide) : c.same s t := h.1 c hc

theorem State.touchesOnly.get (h : s.touchesOnly cs offs t) {f : Fld} (hl : f.off < 0x400000) (hn : f.off ∉ offs) : t.get f = s.get f :=
  h.2.get hl hn

theorem State.touchesOnly.flag (h : s.touchesOnly cs offs t) {f : Fld} (hl : f.off < 0x400000) (hn : f.off ∉ offs) : t.flag f = s.flag f :=
  h.2.flag hl hn

/-- Longer lists of parts and of registers. -/
theorem State.touchesOnly.mono (h : s.touchesOnly cs offs t) {offs' : List Nat} (hc : cs ⊆ ds) (ho : offs ⊆ offs') :
    s.touchesOnly ds offs' t :=
  ⟨fun c hn => h.1 c fun hm => hn (hc hm), h.2.1, fun o hl hn => h.2.2 o hl fun hm => hn (ho hm)⟩

theorem State.touchesOnly.trans {offs' : List Nat} (h : s.touchesOnly cs offs t) (h' : t.touchesOnly ds offs' u) (hc : ds ⊆ cs)
    (ho : offs' ⊆ offs) : s.touchesOnly cs offs u :=
  ⟨fun c hn => Comp.same_trans (h.1 c hn) (h'.1 c fun hm => hn (hc hm)), h'.2.1,
    fun o hl hn => (h'.2.2 o hl fun hm => hn (ho hm)).trans (h.2.2 o hl hn)⟩

/-! ### Registers -/

/-- A step that changes the registers alone, and those where it may. -/
theorem State.touchesOnly.regs (h : s.touchesOnly cs offs t) (hr : s.regsWithin offs u) (hu : t.changesOnly [.regs] u) (hc : Comp.regs ∈ cs) :
    s.touchesOnly cs offs u :=
  ⟨fun c hn => Comp.same_trans (h.1 c hn) (hu c fun hm => hn (List.mem_singleton.1 hm ▸ hc)), hr⟩

theorem State.touchesOnly.put (h : s.touchesOnly cs offs t) {f : Fld} (v : Nat) (hf : f.off ∈ offs := by decide)
    (hc : Comp.regs ∈ cs := by decide) : s.touchesOnly cs offs (t.put f v) :=
  h.regs (h.2.put hf v) (State.changesOnly_regs State.put_holds) hc

theorem State.touchesOnly.bump (h : s.touchesOnly cs offs t) {f : Fld} (hf : f.off ∈ offs := by decide)
    (hc : Comp.regs ∈ cs := by decide) : s.touchesOnly cs offs (t.bump f) :=
  h.regs (h.2.bump hf) (State.changesOnly_regs State.bump_holds) hc

theorem State.touchesOnly.latch (h : s.touchesOnly cs offs t) {f : Fld} (hf : f.off ∈ offs := by decide)
    (hc : Comp.regs ∈ cs := by decide) : s.touchesOnly cs offs (t.latch f) :=
  h.regs (h.2.latch hf) (State.changesOnly_regs State.latch_holds) hc

/-! ### Other parts -/

/-- A step that changes one part, not the registers. -/
theorem State.touchesOnly.part (h : s.touchesOnly cs offs t) {c : Comp} (hc : c ∈ cs) (hr : c ≠ .regs) (hu : ∀ d, d ≠ c → d.same t u) :
    s.touchesOnly cs offs u :=
  ⟨fun d hn => Comp.same_trans (h.1 d hn) (hu d fun e => hn (e ▸ hc)), h.2.of_regs (hu .regs hr.symm)⟩

theorem State.touchesOnly.seq (h : s.touchesOnly cs offs t) (x : SeqSt) (hc : Comp.seq ∈ cs := by decide) :
    s.touchesOnly cs offs { t with seq := x } :=
  h.part hc (by decide) fun _ hd => (closedSeq_of_ne hd).upd t x Holds.same_refl

theorem State.touchesOnly.link (h : s.touchesOnly cs offs t) (x : LinkSt) (hc : Comp.link ∈ cs := by decide) :
    s.touchesOnly cs offs { t with link := x } :=
  h.part hc (by decide) fun _ hd => (closedLink_of_ne hd).upd t x Holds.same_refl

theorem State.touchesOnly.loft (h : s.touchesOnly cs offs t) (x : LoftSt) (hc : Comp.loft ∈ cs := by decide) :
    s.touchesOnly cs offs { t with loft := x } :=
  h.part hc (by decide) fun _ hd => (closedLoft_of_ne hd).upd t x Holds.same_refl

theorem State.touchesOnly.sync (h : s.touchesOnly cs offs t) (x : SyncSt) (hc : Comp.sync ∈ cs := by decide) :
    s.touchesOnly cs offs { t with sync := x } :=
  h.part hc (by decide) fun _ hd => (closedSync_of_ne hd).upd t x Holds.same_refl

theorem State.touchesOnly.pos (h : s.touchesOnly cs offs t) (x : PosSt) (hc : Comp.pos ∈ cs := by decide) :
    s.touchesOnly cs offs { t with pos := x } :=
  h.part hc (by decide) fun _ hd => (closedPos_of_ne hd).upd t x Holds.same_refl

theorem State.touchesOnly.field (h : s.touchesOnly cs offs t) (x : FieldSt) (hc : Comp.field ∈ cs := by decide) :
    s.touchesOnly cs offs { t with field := x } :=
  h.part hc (by decide) fun _ hd => (closedField_of_ne hd).upd t x Holds.same_refl

theorem State.touchesOnly.sendDown (h : s.touchesOnly cs offs t) (m : DownMsg) (hc : Comp.link ∈ cs := by decide) :
    s.touchesOnly cs offs (t.sendDown m) := h.link _ hc

/-- An item for the Loft engine: queued, or its drop counted (R472). -/
theorem State.touchesOnly.loftPush (h : s.touchesOnly cs offs t) (i : LoftItem) (hd : R.LOFT_CNT_DROP ∈ offs := by decide)
    (hs : R.LOFT_STATUS ∈ offs := by decide) (hr : Comp.regs ∈ cs := by decide) (hl : Comp.loft ∈ cs := by decide) :
    s.touchesOnly cs offs (t.loftPush i) := by
  unfold State.loftPush
  split
  · exact h.loft _ hl
  · exact ((h.loft _ hl).bump hd hr).latch hs hr

/-- A request of line stop (R423). -/
theorem State.touchesOnly.lineStop (h : s.touchesOnly cs offs t) (c : Cause) (ho : lineStopOffsets ⊆ offs := by decide)
    (hr : Comp.regs ∈ cs := by decide) (hk : Comp.link ∈ cs := by decide) (hl : Comp.loft ∈ cs := by decide) :
    s.touchesOnly cs offs (t.lineStop c) := by
  refine ⟨fun d hn => Comp.same_trans (h.1 d hn) ?_, h.2.lineStop ho c⟩
  have := closedRegs_of_ne (s := t) (c := d) fun e => hn (e ▸ hr)
  have := closedLink_of_ne (s := t) (c := d) fun e => hn (e ▸ hk)
  have := closedLoft_of_ne (s := t) (c := d) fun e => hn (e ▸ hl)
  exact State.lineStop_holds (G := fun u => d.same t u) Holds.same_refl

/-! ### Commands by the parts listed for them -/

/-- A command that answers `t`, where the registers of `t` are known. -/
theorem State.completes_within {i : Instr} (he : exec i s = .next t) (hr : s.regsWithin offs t) {p : State → Prop} (hp : p t)
    (hc : touches i ⊆ cs := by simp [touches]) : s.completes i cs offs p :=
  ⟨t, he, fun c hn => exec_changesOnly i s t he c fun hm => hn (hc hm), hr.2, hp⟩

/-- A command that leaves the registers alone. -/
theorem State.completes_off_regs {i : Instr} (he : exec i s = .next t) {p : State → Prop} (hp : p t)
    (hc : touches i ⊆ cs := by simp [touches]) (hr : Comp.regs ∉ touches i := by simp [touches]) : s.completes i cs offs p :=
  ⟨t, he, fun c hn => exec_changesOnly i s t he c fun hm => hn (hc hm),
    fun o _ _ => congrArg (sparseGet regDefault · o) (exec_changesOnly i s t he .regs hr), hp⟩

/-! ### A calm module stays calm -/

theorem State.touchesOnly.calm (h : s.touchesOnly cs offs t) (hc : s.calm) (hs : Comp.sync ∉ cs := by decide) (ha : Comp.adp ∉ cs := by decide)
    (ho : R.ADP_IN_STATUS ∉ offs ∧ R.ADP_IN_LOW ∉ offs ∧ ∀ p, p < 8 → R.STG_PTN_STATUS p ∉ offs := by decide) : t.calm :=
  State.calm_congr hc (h.1 .sync hs) (h.1 .adp ha) h.2.2 ho

end Sys2Proof.Machine
end

section
/-! PROOFS, the position sequencer: which entry fires, and what settles O15. -/

namespace Sys2Proof.Machine

variable {s : State} {t k a : Nat} {e : SeqEntry} {act : State → SeqEntry → State}

/-! ### The least of a list -/

/-- One step of a choice: an element of a lower key takes the place of the one held, the first is taken as it comes. -/
def keepLeast {α : Type} (key : α → Nat) : Option α → α → Option α
  | none, d => some d
  | some h, d => if key d < key h then some d else some h

/-- The choice is an element that none is less than, and of equal ones the first: the list stands in ascending order of `place`. -/
theorem foldl_keepLeast_spec {α : Type} {key place : α → Nat} {m : α} :
    ∀ (l : List α) (h : α), (h :: l).Pairwise (fun a b => place a ≤ place b) → l.foldl (keepLeast key) (some h) = some m →
      m ∈ h :: l ∧ ∀ d ∈ h :: l, key m < key d ∨ (key m = key d ∧ place m ≤ place d)
  | [], h, _, e => by
    cases e
    exact ⟨.head _, fun d hd => .inr (by rw [List.mem_singleton.1 hd]; exact ⟨rfl, Nat.le_refl _⟩)⟩
  | d :: l, h, hp, e => by
    obtain ⟨hh, hdl⟩ := List.pairwise_cons.1 hp
    rw [List.foldl_cons, keepLeast] at e
    split at e
    · next hlt =>
      obtain ⟨hm, hall⟩ := foldl_keepLeast_spec l d hdl e
      have hd := hall d (.head _)
      refine ⟨.tail _ hm, fun x hx => ?_⟩
      rcases List.mem_cons.1 hx with rfl | hx
      · omega
      · exact hall x hx
    · next hle =>
      obtain ⟨hm, hall⟩ := foldl_keepLeast_spec l h (hp.sublist (.cons_cons _ (List.sublist_cons_self d l))) e
      have hd := hall h (.head _)
      have hplace := hh d (.head _)
      refine ⟨List.cons_subset_cons h (List.subset_cons_self d l) hm, fun x hx => ?_⟩
      rcases List.mem_cons.1 hx with rfl | hx
      · exact hd
      · rcases List.mem_cons.1 hx with rfl | hx
        · omega
        · exact hall x (.tail _ hx)

/-- Something is chosen as soon as there is an element. -/
theorem foldl_keepLeast_isSome {α : Type} {key : α → Nat} : ∀ (l : List α) (h : α), ∃ m, l.foldl (keepLeast key) (some h) = some m
  | [], h => ⟨h, rfl⟩
  | d :: l, h => by
    rw [List.foldl_cons, keepLeast]
    split
    · exact foldl_keepLeast_isSome l d
    · exact foldl_keepLeast_isSome l h

/-! ### Heads (R57) -/

theorem State.head_eq (s : State) (t : Nat) :
    s.head t = ((s.trackEntries t).filter (fun e => e.2.valid)).foldl (keepLeast (fun e => e.2.x)) none := by
  unfold State.head
  refine congrArg (fun f => List.foldl f none _) (funext fun b => funext fun e => ?_)
  cases b <;> rfl

theorem State.head_valid (h : s.head t = some (k, e)) : e.valid = true := by
  have hmem : (k, e) ∈ (s.trackEntries t).filter (fun e => e.2.valid) := by
    rw [State.head_eq] at h
    revert h
    cases (s.trackEntries t).filter (fun e => e.2.valid) with
    | nil => exact nofun
    | cons d l => exact fun h => (foldl_keepLeast_spec (place := fun _ => 0) l d (List.pairwise_of_forall fun _ _ => Nat.le_refl 0) h).1
  exact (List.mem_filter.1 hmem).2

/-! ### The entries that are due (R57, R58) -/

/-- The heads that have been passed, of tracks that have not fired on this tick, in ascending order of the track. -/
def State.dueHeads (s : State) : List (Nat × Nat × SeqEntry) :=
  ((List.range 64).filter (fun t => !s.firedNow.contains t)).filterMap fun t =>
    ((s.head t).filter fun h => decide (h.2.x ≤ s.pos.wpos)).map (t, ·)

theorem State.mem_dueHeads : (t, k, e) ∈ s.dueHeads ↔ t < 64 ∧ t ∉ s.firedNow ∧ s.head t = some (k, e) ∧ e.x ≤ s.pos.wpos := by
  unfold State.dueHeads
  simp only [List.mem_filterMap, List.mem_filter, List.mem_range, Bool.not_eq_true', List.contains_eq_mem, decide_eq_false_iff_not,
    Option.map_eq_some_iff, Option.filter_eq_some_iff, Prod.mk.injEq, decide_eq_true_eq]
  constructor
  · rintro ⟨t', ⟨hlt, hn⟩, p, ⟨hh, hx⟩, rfl, rfl⟩
    exact ⟨hlt, hn, hh, hx⟩
  · rintro ⟨hlt, hn, hh, hx⟩
    exact ⟨t, ⟨hlt, hn⟩, (k, e), ⟨hh, hx⟩, rfl, rfl⟩

theorem State.dueHeads_ascending (s : State) : s.dueHeads.Pairwise (fun a b => a.1 ≤ b.1) := by
  have hr : ((List.range 64).filter (fun t => !s.firedNow.contains t)).Pairwise (· < ·) := List.pairwise_lt_range.filter _
  refine List.Pairwise.filterMap _ (fun a b hab x hx y hy => ?_) hr
  obtain ⟨_, -, rfl⟩ := Option.map_eq_some_iff.1 hx
  obtain ⟨_, -, rfl⟩ := Option.map_eq_some_iff.1 hy
  exact Nat.le_of_lt hab

/-- While the sequencer runs and no commit applies, the first of the due heads of least action fires next. -/
theorem State.nextDue_eq (s : State) :
    s.nextDue = if !s.seqRuns || s.commitDue.isSome then none else s.dueHeads.foldl (keepLeast (fun d => d.2.2.action)) none := by
  have hdue : s.dueHeads = ((List.range 64).filter (fun t => !s.firedNow.contains t)).filterMap (fun t =>
      (s.head t).bind fun h => if h.2.x ≤ s.pos.wpos then some (t, h) else none) := by
    refine List.filterMap_congr fun t _ => ?_
    cases s.head t with
    | none => rfl
    | some h => by_cases hx : h.2.x ≤ s.pos.wpos <;> simp [Option.filter, hx]
  rw [hdue]
  unfold State.nextDue
  dsimp only
  congr 2
  · funext b d
    cases b <;> rfl
  · refine List.filterMap_congr fun t _ => ?_
    cases s.head t <;> rfl

theorem State.nextDue_least (h : s.nextDue = some (t, k, e)) : s.seqRuns = true ∧ (t, k, e) ∈ s.dueHeads ∧
    ∀ d ∈ s.dueHeads, e.action < d.2.2.action ∨ (e.action = d.2.2.action ∧ t ≤ d.1) := by
  rw [State.nextDue_eq] at h
  split at h
  · exact absurd h nofun
  · next hr =>
    have hrun : s.seqRuns = true := by
      rw [Bool.not_eq_true, Bool.or_eq_false_iff, Bool.not_eq_false'] at hr
      exact hr.1
    have hasc := s.dueHeads_ascending
    revert h hasc
    cases s.dueHeads with
    | nil => exact nofun
    | cons d l => exact fun h hasc => ⟨hrun, foldl_keepLeast_spec (place := fun d => d.1) l d hasc h⟩

theorem State.nextDue_isSome (hr : s.seqRuns = true) (hc : s.commitDue = none) {d : Nat × Nat × SeqEntry} (hd : d ∈ s.dueHeads) :
    ∃ d, s.nextDue = some d := by
  rw [State.nextDue_eq, hr, hc]
  match s.dueHeads, hd with
  | d :: l, _ => exact foldl_keepLeast_isSome l d

/-! ### The action of a command (R59) -/

/-- A command fires the entry that is next only if the entry has its action. -/
theorem State.fire_of_ne (h : ∀ t k e, s.nextDue = some (t, k, e) → e.action ≠ a) : s.fire a act = s := by
  unfold State.fire
  split
  · rfl
  · next t k e hd => exact if_neg (h t k e hd)

theorem State.fire_of_due (h : s.nextDue = some (t, k, e)) : s.fire e.action act = (act (s.firing t k e) e).settle := by
  unfold State.fire
  rw [h]
  exact if_pos rfl

theorem exec_idle {i : Instr} (hi : exec i s = .next (s.fire a act)) (h : ∀ t k e, s.nextDue = some (t, k, e) → e.action ≠ a) :
    exec i s = .next s := by rw [hi, State.fire_of_ne h]

/-- Settles O15: the choice among the due heads, and a command of another action fires nothing. -/
theorem sequencerFiresLeastDueEntry : Obligations.SequencerFiresLeastDueEntry := by
  intro s
  refine ⟨fun t k e h => ?_, fun hr hc t k e ht hn hh hx => State.nextDue_isSome hr hc (State.mem_dueHeads.2 ⟨ht, hn, hh, hx⟩), ?_⟩
  · obtain ⟨hr, hmem, hleast⟩ := State.nextDue_least h
    obtain ⟨ht, hn, hh, hx⟩ := State.mem_dueHeads.1 hmem
    exact ⟨hh, ht, State.head_valid hh, hx, hn, hr, fun t' k' e' ht' hn' hh' hx' => hleast _ (State.mem_dueHeads.2 ⟨ht', hn', hh', hx'⟩)⟩
  · simp only [List.forall_mem_cons]
    exact ⟨exec_idle exec_nop, exec_idle exec_partClose, exec_idle exec_partOpen, exec_idle exec_lineGate, exec_idle exec_stripCut,
      exec_idle exec_roiApply, exec_idle exec_decision, exec_idle exec_ejectPass, exec_idle exec_pulse, exec_idle exec_selftestWin,
      exec_idle exec_signal, exec_idle exec_loftMark, List.forall_mem_nil _⟩

end Sys2Proof.Machine
end

section
/-! PROOFS, the position sequencer: what a firing leaves (R55, R57), and what settles O16. -/

namespace Sys2Proof.Machine

variable {s u : State} {t k a : Nat} {e : SeqEntry} {act : State → SeqEntry → State} {cs : List Comp} {offs : List Nat} {i : Instr}

/-! ### Keyed lists -/

theorem keyGet_keyDel {α : Type} (l : List (Nat × α)) (k j : Nat) : keyGet (keyDel l k) j = if j = k then none else keyGet l j := by
  induction l with
  | nil => simp [keyDel, keyGet]
  | cons e r ih =>
    obtain ⟨i, u⟩ := e
    unfold keyDel at ih ⊢
    by_cases hi : i = k
    · rw [List.filter_cons_of_neg (by simp [hi]), ih]
      by_cases hj : j = k
      · rw [if_pos hj, if_pos hj]
      · rw [if_neg hj, if_neg hj, keyGet, if_neg fun hij => hj (hij.symm.trans hi)]
    · rw [List.filter_cons_of_pos (by simpa using hi), keyGet, ih, keyGet]
      by_cases hij : i = j
      · rw [if_pos hij, if_neg fun hj => hi (hij.trans hj), if_pos hij]
      · rw [if_neg hij, if_neg hij]

/-! ### The state after a firing -/

/-- The entries after a firing: a program track's entry has advanced, a part track's is gone. -/
def State.entriesAfter (s : State) (t k : Nat) (e : SeqEntry) : List (Nat × SeqEntry) :=
  if t < 56 then keyPut s.seq.entries k e.advance else keyDel s.seq.entries k

theorem State.keyGet_entriesAfter (j : Nat) : keyGet (s.entriesAfter t k e) j =
    if j = k then (if t < 56 then some e.advance else none) else keyGet s.seq.entries j := by
  unfold State.entriesAfter
  by_cases ht : t < 56
  · rw [if_pos ht, if_pos ht, keyGet_keyPut]
  · rw [if_neg ht, if_neg ht, keyGet_keyDel]

/-- The sequencer after a firing. -/
def State.seqAfter (s : State) (t k : Nat) (e : SeqEntry) : SeqSt :=
  { s.seq with entries := s.entriesAfter t k e, fired := t :: s.firedNow, firedTick := s.dtime }

/-- The registers that show slips. -/
def slipOffsets : List Nat := [R.PSQ_CNT_SLIP, R.PSQ_STATUS]

theorem State.firing_eq (s : State) (t k : Nat) (e : SeqEntry) : s.firing t k e = { s with seq := s.seqAfter t k e }.slips t := by
  unfold State.firing State.seqAfter State.entriesAfter
  by_cases ht : t < 56
  · rw [if_pos ht, if_pos ht]
    rfl
  · rw [if_neg ht, if_neg ht]
    rfl

theorem State.slips_seq (s : State) (t : Nat) : (s.slips t).seq = s.seq := by
  unfold State.slips
  dsimp only
  split <;> rfl

theorem State.firing_seq (s : State) (t k : Nat) (e : SeqEntry) : (s.firing t k e).seq = s.seqAfter t k e := by
  rw [State.firing_eq, State.slips_seq]

theorem State.touchesOnly.slips (h : s.touchesOnly cs offs u) (t : Nat) (hc : Comp.regs ∈ cs := by decide)
    (hn : R.PSQ_CNT_SLIP ∈ offs := by decide) (hs : R.PSQ_STATUS ∈ offs := by decide) : s.touchesOnly cs offs (u.slips t) := by
  unfold State.slips
  dsimp only
  split
  · exact h
  · exact (h.put _ hn hc).latch hs hc

theorem State.firing_touchesOnly (hw : sparseWf regDefault s.regs = true) : s.touchesOnly [.regs, .seq] slipOffsets (s.firing t k e) := by
  rw [State.firing_eq]
  exact ((State.touchesOnly_refl hw).seq _).slips t

/-- Longer lists, as an action needs them. -/
theorem State.firing_within (hw : sparseWf regDefault s.regs = true) (hr : Comp.regs ∈ cs := by decide) (hs : Comp.seq ∈ cs := by decide)
    (ho : slipOffsets ⊆ offs := by decide) : s.touchesOnly cs offs (s.firing t k e) :=
  (State.firing_touchesOnly hw).mono (by simp [hr, hs]) ho

/-! ### An action that is done -/

theorem exec_fired (hi : exec i s = .next (s.fire a act)) (hd : s.nextDue = some (t, k, e)) (ha : e.action = a)
    (hc : (act (s.firing t k e) e).calm) : exec i s = .next (act (s.firing t k e) e) := by
  subst ha
  rw [hi, State.fire_of_due hd, State.settle_of_calm hc]

/-- What a firing leaves of entries, tracks, parts and frames. -/
def State.hasFired (s : State) (t k : Nat) (e : SeqEntry) (u : State) : Prop :=
  u.dtime = s.dtime ∧ u.seq.entries = s.entriesAfter t k e ∧ u.seq.fired = t :: s.firedNow ∧ u.seq.firedTick = s.dtime ∧
  u.seq.parts = s.seq.parts ∧ u.seq.frames = s.seq.frames

theorem State.firing_hasFired (hw : sparseWf regDefault s.regs = true) : s.hasFired t k e (s.firing t k e) := by
  rw [State.hasFired, State.firing_seq]
  exact ⟨(State.firing_touchesOnly hw).same (c := .dtime), rfl, rfl, rfl, rfl, rfl⟩

theorem State.hasFired.of_seq (h : s.hasFired t k e u) {v : State} (hd : v.dtime = u.dtime) (hs : v.seq = u.seq) : s.hasFired t k e v := by
  unfold State.hasFired at *
  rwa [hd, hs]

theorem State.hasFired.firedNow (h : s.hasFired t k e u) : u.firedNow = t :: s.firedNow := by
  obtain ⟨hd, -, hf, ht, -⟩ := h
  rw [State.firedNow, if_pos (ht.trans hd.symm), hf]

/-- A repeating entry goes on by its pitch, without drift, until it has fired as often as it counts; another one is done. -/
theorem SeqEntry.advance_eq (e : SeqEntry) : e.advance =
    if e.repeats then { e with x := u64 (e.x + e.pitch + u32 (e.xf + e.pitchFrac) / 65536), xf := u32 (e.xf + e.pitchFrac) % 65536
                               n := u32 (e.n + 1), valid := !(decide (e.count ≠ 0) && u32 (e.n + 1) == e.count) }
    else { e with valid := false, n := u32 (e.n + 1) } := by
  unfold SeqEntry.advance
  cases e.repeats <;> rfl

/-- SELFTEST_WIN: the window is offered, those that have ended are forgotten (R401). -/
def State.offerWindow (s : State) (e : SeqEntry) : State := { s with seq := { s.seq with
  windows := s.seq.windows.filter (fun w => decide (s.pos.wpos < w.2.1 + w.2.2 * 1000)) ++ [(bits e.param 15 0, e.x, bits e.param 63 32)] } }

theorem State.loftEvent_seq (code : Nat) (data : List Byte) : (s.loftEvent code data).seq = s.seq := by
  unfold State.loftEvent State.loftPush
  split <;> rfl

theorem State.loftEvent_queue (h : s.loft.queue.length < 512) (code : Nat) (data : List Byte) :
    (s.loftEvent code data).loft.queue = s.loft.queue ++ [.event code 4294967295 data s.dtime s.pos.wpos] := by
  rw [State.loftEvent, State.loftPush, if_pos h]

/-! ### Position events (R338) -/

/-- A position event on which nothing waits: it counts, and keeps the entry's position. -/
def SyncObj.happens (y : SyncObj) (x : Nat) : SyncObj := { y with value := ((toU32 (y.value + 1) : Nat) : Int), lastWpos := x }

theorem State.so_setSo (o j : Nat) (y : SyncObj) : (s.setSo o y).so j = if j = o then y else s.so j := by
  unfold State.so State.setSo
  dsimp only
  rw [keyGet_keyPut]
  split <;> rfl

theorem State.setSo_setSo (o : Nat) (x y : SyncObj) : (s.setSo o x).setSo o y = s.setSo o y := by
  have hput : ∀ l : List (Nat × SyncObj), keyPut (keyPut l o x) o y = keyPut l o y := by
    intro l
    induction l with
    | nil => simp [keyPut]
    | cons e r ih =>
      unfold keyPut
      rcases Nat.lt_trichotomy o e.1 with h | h | h
      · simp [h, keyPut]
      · simp [h, keyPut]
      · simp [Nat.lt_asymm h, Nat.ne_of_gt h, keyPut, ih]
  unfold State.setSo
  dsimp only
  rw [hput]

/-- Where nothing waits nothing is released. -/
theorem State.release_of_none {o : Nat} (h : (s.so o).waiters = []) (met : Waiter → Bool) : s.release o met = s.setSo o (s.so o) := by
  have hx : { s.so o with waiters := (s.so o).waiters.filter (fun w => !met w) } = s.so o := by
    rw [h, List.filter_nil, ← h]
  unfold State.release
  dsimp only
  rw [hx, h]
  rfl

theorem State.positionEvent_eq {o : Nat} (x : Nat) (ht : (s.so o).cfg.type = 4) (hb : (s.so o).broken = false) (hq : (s.so o).waiters = []) :
    s.positionEvent o x = s.setSo o ((s.so o).happens x) := by
  have hsame : (s.setSo o ((s.so o).happens x)).so o = (s.so o).happens x := by rw [State.so_setSo, if_pos rfl]
  unfold State.positionEvent
  dsimp only
  rw [if_neg (not_not.2 ht), if_neg (by simp [hb])]
  refine (State.release_of_none (s := s.setSo o ((s.so o).happens x)) (by rwa [hsame]) _).trans ?_
  rw [hsame, State.setSo_setSo]

theorem mem_keyPut {α : Type} {k : Nat} {v : α} {x : Nat × α} : ∀ {l : List (Nat × α)}, x ∈ keyPut l k v → x = (k, v) ∨ x ∈ l
  | [], h => .inl (List.mem_singleton.1 h)
  | (j, w) :: r, h => by
    unfold keyPut at h
    split at h
    · exact List.mem_cons.1 h
    · split at h
      · exact (List.mem_cons.1 h).imp_right (.tail _)
      · rcases List.mem_cons.1 h with h | h
        · exact .inr (h ▸ .head _)
        · exact (mem_keyPut h).imp_right (.tail _)

/-- Nothing but a semaphore can be granted, so a calm module stays calm as a position event is replaced (R341). -/
theorem State.setSo_calm (h : s.calm) {o : Nat} {y : SyncObj} (hy : y.cfg.type ≠ 1) : (s.setSo o y).calm := by
  obtain ⟨hw, hg, hd, hl⟩ := h
  refine ⟨hw, fun e he => ?_, hd, hl⟩
  have hgr : ∀ j, (s.setSo o y).grantable j = if j = o then false else s.grantable j := fun j => by
    unfold State.grantable State.holdRoom
    rw [State.so_setSo]
    split
    · simp [hy]
    · rfl
  rw [hgr]
  split
  · rfl
  · next hne =>
    rcases mem_keyPut he with rfl | he
    · exact absurd rfl hne
    · exact hg e he

/-- Settles O16: the firing is the same in the four actions, and each adds its own step to it. -/
theorem firingAdvancesTheEntry : Obligations.FiringAdvancesTheEntry := by
  intro s t k e ⟨hw, _⟩ hc hd n after fired slips
  have hin {cs : List Comp} {offs : List Nat} (hr : Comp.regs ∈ cs := by decide) (hs : Comp.seq ∈ cs := by decide)
    (ho : slipOffsets ⊆ offs := by decide) : s.touchesOnly cs offs (s.firing t k e) := State.firing_within hw hr hs ho
  have hfired {u : State} (h : s.hasFired t k e u) : fired u := by
    have hget := fun j => congrArg (keyGet · j) h.2.1
    simp only [State.keyGet_entriesAfter] at hget
    refine ⟨fun ht => ?_, fun ht => ?_, fun j hj => ?_, h.firedNow, h.2.2.2.2⟩
    · rw [hget, if_pos rfl, if_pos ht, SeqEntry.advance_eq]
    · rw [hget, if_pos rfl, if_neg (by omega)]
    · rw [hget, if_neg hj]
  have hfire : s.hasFired t k e (s.firing t k e) := State.firing_hasFired hw
  refine ⟨fun ha => ?nop, fun ha => ?loftMark, fun ha => ?selftestWin, fun ha ht hb hq hh => ?signal⟩
  case nop =>
    have h : s.touchesOnly [.regs, .seq] slips (s.firing t k e) := hin
    exact h.completes (exec_fired exec_nop hd ha (h.calm hc)) ⟨hfired hfire, by rw [State.firing_seq]; rfl⟩
  case loftMark =>
    have h : s.touchesOnly [.regs, .seq, .loft] (slips ++ lineStopOffsets)
      ((s.firing t k e).loftEvent 1 (leBytes 2 (bits e.param 15 0) ++ leBytes 2 e.tag)) := State.touchesOnly.loftPush hin _
    have hf : s.touchesOnly [.regs, .seq] slips (s.firing t k e) := hin
    refine h.completes (exec_fired exec_loftMark hd ha (h.calm hc))
      ⟨hfired (hfire.of_seq ((h.same (c := .dtime)).trans (hf.same (c := .dtime)).symm) (State.loftEvent_seq ..)), fun hlen => ?_⟩
    have hloft : (s.firing t k e).loft = s.loft := hf.same (c := .loft)
    rw [State.loftEvent_queue (by rwa [hloft]), hloft, hf.same (c := .dtime), hf.same (c := .pos)]
  case selftestWin =>
    have h : s.touchesOnly [.regs, .seq] slips ((s.firing t k e).offerWindow e) := State.touchesOnly.seq hin _
    exact h.completes (exec_fired exec_selftestWin hd ha (h.calm hc)) ⟨hfired hfire, List.mem_append_right _ (.head _)⟩
  case signal =>
    have hf : s.touchesOnly [.regs, .seq] slips (s.firing t k e) := hin
    have hsync : (s.firing t k e).sync = s.sync := hf.same (c := .sync)
    have hso : ∀ o, (s.firing t k e).so o = s.so o := fun o => by rw [State.so, hsync, State.so]
    have hdue : (s.firing t k e).holdDue = none := by
      have hdt : (s.firing t k e).dtime = s.dtime := hf.same (c := .dtime)
      simpa only [State.holdDue, hso, hsync, hdt] using hh
    have hev : (s.firing t k e).expireDue.positionEvent (bits e.param 13 0) e.x =
        (s.firing t k e).setSo (bits e.param 13 0) ((s.so (bits e.param 13 0)).happens e.x) := by
      rw [State.expireDue_of_none hdue, State.positionEvent_eq, hso] <;> rwa [hso]
    have h : s.touchesOnly [.regs, .seq, .sync] slips
        ((s.firing t k e).setSo (bits e.param 13 0) ((s.so (bits e.param 13 0)).happens e.x)) := State.touchesOnly.sync hin _
    have hcalm := State.setSo_calm (hf.calm hc) (o := bits e.param 13 0) (y := (s.so (bits e.param 13 0)).happens e.x) (by
      rw [SyncObj.happens, ht]; decide)
    have he := exec_fired exec_signal hd ha (by rwa [hev])
    rw [hev] at he
    refine h.completes he ⟨hfired hfire, ?_, ?_, fun o ho => ?_⟩
    · rw [State.so_setSo, if_pos rfl, SyncObj.happens]
    · rw [State.so_setSo, if_pos rfl, SyncObj.happens]
    · rw [State.so_setSo, if_neg ho, hso]

end Sys2Proof.Machine
end

section
/-! SUPPORT. Fields of byte strings that are put together from little-endian numbers (R4). -/

namespace Sys2Proof.Machine

variable {a b : List Byte} {i k m n v : Nat}

/-- A field of whole bytes that all stand in the string. -/
theorem fieldAt_eq (h : i + n ≤ a.length) : fieldAt a i n = leVal ((a.drop i).take n) := by
  unfold fieldAt sliceBytes
  have : n - ((a.drop i).take n).length = 0 := by simp only [List.length_take, List.length_drop]; omega
  dsimp only
  rw [this, List.replicate_zero, List.append_nil]

theorem leVal_append : ∀ a b : List Byte, leVal (a ++ b) = leVal a + 256 ^ a.length * leVal b
  | [], b => by simp [leVal]
  | x :: a, b => by
    rw [List.cons_append, leVal, leVal_append a b, leVal, List.length_cons, Nat.pow_succ]
    ring

theorem leVal_leBytes : ∀ k v, leVal (leBytes k v) = v % 256 ^ k
  | 0, v => by simp [leBytes, leVal, Nat.mod_one]
  | k + 1, v => by
    rw [leBytes, leVal, leVal_leBytes k, BitVec.toNat_ofNat]
    exact (Nat.pow_succ' (n := k) (m := 256) ▸ Nat.mod_mul).symm

theorem leBytes_drop : ∀ i k v, (leBytes k v).drop i = leBytes (k - i) (v / 256 ^ i)
  | 0, k, v => by simp
  | i + 1, 0, v => by simp [leBytes]
  | i + 1, k + 1, v => by
    rw [leBytes, List.drop_succ_cons, leBytes_drop i k, Nat.div_div_eq_div_mul, Nat.pow_succ', Nat.succ_sub_succ]

theorem leBytes_take : ∀ n k v, n ≤ k → (leBytes k v).take n = leBytes n v
  | 0, k, v, _ => by simp [leBytes]
  | n + 1, k + 1, v, h => by rw [leBytes, List.take_succ_cons, leBytes_take n k _ (Nat.le_of_succ_le_succ h), leBytes]

theorem fieldAt_leBytes (h : i + n ≤ k) : fieldAt (leBytes k v) i n = v / 256 ^ i % 256 ^ n := by
  rw [fieldAt_eq (by rwa [leBytes_length]), leBytes_drop, leBytes_take _ _ _ (by omega), leVal_leBytes]

theorem fieldAt_append_left (h : i + n ≤ a.length) : fieldAt (a ++ b) i n = fieldAt a i n := by
  rw [fieldAt_eq h, fieldAt_eq (by rw [List.length_append]; omega), List.drop_append_of_le_length (by omega),
    List.take_append_of_le_length (by rw [List.length_drop]; omega)]

theorem fieldAt_append_right (h : a.length ≤ i) : fieldAt (a ++ b) i n = fieldAt b (i - a.length) n := by
  unfold fieldAt sliceBytes
  rw [List.drop_append, List.drop_eq_nil_of_le h, List.nil_append]

/-- A field in two parts, the lower one first. -/
theorem fieldAt_add (h : i + (m + n) ≤ a.length) : fieldAt a i (m + n) = fieldAt a i m + 256 ^ m * fieldAt a (i + m) n := by
  rw [fieldAt_eq h, fieldAt_eq (by omega), fieldAt_eq (by omega), List.take_add, leVal_append, List.drop_drop]
  congr 3
  simp only [List.length_take, List.length_drop]
  omega

end Sys2Proof.Machine
end

section
/-! PROOFS, the position sequencer: the read windows (R54, R66), and what settles O20. -/

namespace Sys2Proof.Machine

variable {s t : State} {offs : List Nat} {reg : Nat → Nat} {bs : List Byte} {cs : List Comp}

/-! ### A window of eight registers -/

/-- The registers of a window, the first `n` of them written. -/
def State.putWords (s : State) (reg : Nat → Nat) (bs : List Byte) (n : Nat) : State :=
  (List.range n).foldl (fun (s : State) k => s.setReg (reg k) (BitVec.ofNat 32 (fieldAt bs (4 * k) 4))) s

theorem State.putWindow_eq (s : State) (reg : Nat → Nat) (bs : List Byte) : s.putWindow reg bs = s.putWords reg bs 8 := rfl

theorem State.putWords_succ (n : Nat) :
    s.putWords reg bs (n + 1) = (s.putWords reg bs n).setReg (reg n) (BitVec.ofNat 32 (fieldAt bs (4 * n) 4)) := by
  unfold State.putWords
  rw [List.range_succ, List.foldl_append]
  rfl

theorem State.touchesOnly.putWords (h : s.touchesOnly cs offs t) (hc : Comp.regs ∈ cs) (bs : List Byte) : ∀ n, (∀ k < n, reg k ∈ offs) →
    s.touchesOnly cs offs (t.putWords reg bs n)
  | 0, _ => h
  | n + 1, ho => by
    have ih := State.touchesOnly.putWords h hc bs n fun k hk => ho k (Nat.lt_succ_of_lt hk)
    rw [State.putWords_succ]
    exact ih.regs (ih.2.setReg (.inl (ho n (Nat.lt_succ_self n))) _) (State.changesOnly_regs State.setReg_holds) hc

/-- Each register of the window shows its four bytes. -/
theorem State.putWords_reg (hw : sparseWf regDefault s.regs = true) (hinj : Function.Injective reg) {k : Nat} :
    ∀ n, k < n → ((s.putWords reg bs n).reg (reg k)).toNat = fieldAt bs (4 * k) 4
  | n + 1, hk => by
    have hwn := ((State.touchesOnly_refl (cs := [.regs]) (offs := (List.range n).map reg) hw).putWords (.head _) bs n
      fun k hk => List.mem_map_of_mem (List.mem_range.2 hk)).wf
    rw [State.putWords_succ, State.reg_setReg hwn]
    split
    · next he =>
      rw [hinj he, BitVec.toNat_ofNat]
      exact Nat.mod_eq_of_lt (fieldAt_lt bs _ 4)
    · next hne => exact State.putWords_reg hw hinj n (by have := mt (congrArg reg) hne; omega)

/-- The registers of a window that starts at `base`. -/
theorem window_injective (base : Nat) : Function.Injective fun k => base + k * 4 := fun i j h => by
  dsimp only at h
  omega

theorem mem_window {base k : Nat} (hk : k < 8) (off : Nat) : base + k * 4 ∈ off :: (List.range 8).map (fun k => base + k * 4) :=
  .tail _ (List.mem_map.2 ⟨k, List.mem_range.2 hk, rfl⟩)

/-- A read window: the index, and the 32 bytes of what it names, in eight words. -/
theorem window_completes {i : Instr} {f : Fld} {base v : Nat} {bs : List Byte} (hw : sparseWf regDefault s.regs = true)
    (he : exec i s = .next ((s.put f v).putWindow (fun k => base + k * 4) bs)) (hf : f.ok) (hl : f.off < 0x400000) (hb : f.off < base)
    (hv : v < 2 ^ (f.hi - f.lo + 1)) {p : State → Prop}
    (hp : ∀ t : State, t.get f = v → (∀ k < 8, (t.reg (base + k * 4)).toNat = fieldAt bs (4 * k) 4) → p t) :
    s.completes i [.regs] (f.off :: (List.range 8).map (fun k => base + k * 4)) p := by
  have h1 : s.touchesOnly [.regs] (f.off :: (List.range 8).map (fun k => base + k * 4)) (s.put f v) :=
    (State.touchesOnly_refl hw).put v (.head _) (.head _)
  have h2 := h1.putWords (.head _) bs 8 fun k hk => mem_window hk f.off
  have hkeep : (s.put f v).touchesOnly [.regs] ((List.range 8).map (fun k => base + k * 4)) ((s.put f v).putWords (fun k => base + k * 4) bs 8) :=
    (State.touchesOnly_refl h1.wf).putWords (.head _) bs 8 fun k hk => List.mem_map_of_mem (List.mem_range.2 hk)
  refine h2.completes he (hp _ ?_ fun k hk => State.putWords_reg h1.wf (window_injective base) 8 hk)
  rw [hkeep.get hl fun hm => ?_, State.get_put_same hw hf, Nat.mod_eq_of_lt hv]
  obtain ⟨k, -, hk⟩ := List.mem_map.1 hm
  omega

/-! ### The bytes that the windows show -/

theorem entry_words {e : SeqEntry} {pos : Nat} {valid : Bool} {b : List Byte} (hb : b = e.bytes pos valid) :
    fieldAt b 0 4 = pos % 2 ^ 32 ∧ fieldAt b 4 4 = pos / 2 ^ 32 % 2 ^ 32 ∧ fieldAt b 8 4 = e.pitch % 2 ^ 32 ∧
    fieldAt b 12 4 = e.pitchFrac % 65536 + ((if valid then 1 else 0) + (if e.repeats then 2 else 0)) * 65536 ∧
    fieldAt b 16 4 = e.count % 2 ^ 32 ∧ fieldAt b 20 4 = e.action % 256 + e.tag % 65536 * 65536 ∧
    fieldAt b 24 4 = e.param % 2 ^ 32 ∧ fieldAt b 28 4 = e.param / 2 ^ 32 % 2 ^ 32 := by
  have hlen : b.length = 32 := by simp [hb, SeqEntry.bytes, leBytes_length]
  have h12 : fieldAt b 12 4 = fieldAt b 12 2 + 256 ^ 2 * fieldAt b 14 2 := fieldAt_add (m := 2) (n := 2) (by omega)
  have h20 : fieldAt b 20 4 = fieldAt b 20 1 + 256 ^ 1 * fieldAt b 21 3 := fieldAt_add (m := 1) (n := 3) (by omega)
  have h21 : fieldAt b 21 3 = fieldAt b 21 1 + 256 ^ 1 * fieldAt b 22 2 := fieldAt_add (m := 1) (n := 2) (by omega)
  have hflags : ((if valid then 1 else 0) + (if e.repeats then 2 else 0)) % 65536 = (if valid then 1 else 0) + (if e.repeats then 2 else 0) :=
    Nat.mod_eq_of_lt (by split <;> split <;> decide)
  rw [h12, h20, h21]
  simp only [hb, SeqEntry.bytes, fieldAt_append_left, fieldAt_append_right, fieldAt_leBytes, leBytes_length, List.length_append,
    Nat.reduceAdd, Nat.reduceSub, Nat.reduceLeDiff, Nat.reducePow, Nat.div_one, hflags, Nat.zero_mod, true_and, and_true]
  omega

theorem part_words {p : Part} {b : List Byte} (hb : b = p.bytes) :
    fieldAt b 0 4 = p.core.id % 2 ^ 32 ∧ fieldAt b 4 4 = p.core.origin % 2 ^ 32 ∧ fieldAt b 8 4 = p.core.origin / 2 ^ 32 % 2 ^ 32 ∧
    fieldAt b 12 4 = p.core.lane % 256 + p.core.state.code * 256 + p.core.verdict.getD 255 % 256 * 65536 + p.core.flags % 256 * 2 ^ 24 ∧
    fieldAt b 16 4 = p.core.tag % 65536 + p.core.channel % 256 * 65536 ∧ fieldAt b 20 4 = toU32 p.core.residual ∧
    fieldAt b 24 4 = p.core.onDtime % 2 ^ 32 ∧ fieldAt b 28 4 = p.core.onDtime / 2 ^ 32 % 2 ^ 32 := by
  have hlen : b.length = 32 := by simp [hb, Part.bytes, leBytes_length]
  have h12 : fieldAt b 12 4 = fieldAt b 12 1 + 256 ^ 1 * fieldAt b 13 3 := fieldAt_add (m := 1) (n := 3) (by omega)
  have h13 : fieldAt b 13 3 = fieldAt b 13 1 + 256 ^ 1 * fieldAt b 14 2 := fieldAt_add (m := 1) (n := 2) (by omega)
  have h14 : fieldAt b 14 2 = fieldAt b 14 1 + 256 ^ 1 * fieldAt b 15 1 := fieldAt_add (m := 1) (n := 1) (by omega)
  have h16 : fieldAt b 16 4 = fieldAt b 16 2 + 256 ^ 2 * fieldAt b 18 2 := fieldAt_add (m := 2) (n := 2) (by omega)
  have h18 : fieldAt b 18 2 = fieldAt b 18 1 + 256 ^ 1 * fieldAt b 19 1 := fieldAt_add (m := 1) (n := 1) (by omega)
  have hcode : p.core.state.code % 256 = p.core.state.code := Nat.mod_eq_of_lt (by cases p.core.state <;> decide)
  have hres : toU32 p.core.residual % 4294967296 = toU32 p.core.residual := Nat.mod_eq_of_lt (toU32_lt _)
  rw [h12, h13, h14, h16, h18]
  simp only [hb, Part.bytes, fieldAt_append_left, fieldAt_append_right, fieldAt_leBytes, leBytes_length, List.length_append,
    Nat.reduceAdd, Nat.reduceSub, Nat.reduceLeDiff, Nat.reducePow, Nat.div_one, hcode, hres, Nat.zero_mod, true_and, and_true]
  omega

/-- A module that serves takes the write of one register (R5). -/
theorem State.written_of_serves (h : s.serves) (off : Nat) (f : State → State) : s.written off f = f s := by
  obtain ⟨hp, hr⟩ := h
  unfold State.written State.answers State.inUse
  rw [hp, hr]
  rfl

/-- Settles O20: the two windows are one window of eight registers, with the bytes of an entry or of a part. -/
theorem readWindowsShowEntries : Obligations.ReadWindowsShowEntries := by
  intro s k i ⟨hw, _⟩ hs e p
  have hwritten := State.written_of_serves hs
  refine ⟨window_completes (f := R.PSQ_TBL_IDX.INDEX) (base := R.PSQ_TBL_DATA 0) (v := k.toNat) (bs := e.bytes e.x e.valid)
    hw ?_ ⟨by decide, by decide⟩
      (by decide) (by decide) k.isLt fun t hi ht => ⟨hi, ?_⟩,
    window_completes (f := R.PART_WIN_IDX.INDEX) (base := R.PART_WIN_DATA 0) (v := i.toNat) (bs := (s.part i.toNat).bytes) hw ?_
      ⟨by decide, by decide⟩ (by decide) (by decide) i.isLt fun t hi ht => ⟨hi, ?_⟩⟩
  · exact congrArg _ (hwritten ..)
  · have hword (k : Nat) (hk : k < 8) : (t.reg (R.PSQ_TBL_DATA k)).toNat = fieldAt (e.bytes e.x e.valid) (4 * k) 4 := ht k hk
    simpa only [hword, Nat.reduceLT] using entry_words (e := e) rfl
  · exact congrArg _ (hwritten ..)
  · have hword (k : Nat) (hk : k < 8) : (t.reg (R.PART_WIN_DATA k)).toNat = fieldAt (s.part i.toNat).bytes (4 * k) 4 := ht k hk
    simpa only [hword, Nat.reduceLT] using part_words (p := s.part i.toNat) rfl

end Sys2Proof.Machine
end

section
/-! PROOFS, the field controller: frames as they stand on the link, and the edge frames that it judges; what settles O27. -/

namespace Sys2Proof.Machine

variable {s r t : State} {seq ch tag on off : Nat} {m : DownMsg} {offs : List Nat}

/-! ### Frames as bytes (R76, R408, R410) -/

theorem crc16Bit_lt (c : Nat) : crc16Bit c < 65536 := by
  have h : c * 2 % 65536 < 2 ^ 16 := Nat.mod_lt _ (by decide)
  unfold crc16Bit
  split
  · exact Nat.xor_lt_two_pow h (by decide)
  · exact h

theorem crc16_lt (bs : List Byte) : crc16 bs < 65536 := by
  unfold crc16
  exact List.foldlRecOn (motive := (· < 65536)) bs _ (by decide) fun _ _ _ _ => crc16Bit_lt _

/-- The bytes before the CRC: TYPE, 19 bytes of content, SEQ. -/
def frameHead (type seq : Nat) (body : List Byte) : List Byte :=
  leBytes 1 type ++ (body ++ List.replicate (19 - body.length) 0).take 19 ++ leBytes 2 seq

theorem frameHead_length (type seq : Nat) (body : List Byte) : (frameHead type seq body).length = 22 := by
  simp only [frameHead, List.length_append, leBytes_length, List.length_take, List.length_replicate]
  omega

/-- A frame has 24 bytes with a good CRC, and its SEQ at byte 20. -/
theorem frameBytes_good (type seq : Nat) (body : List Byte) : let b := frameBytes type seq body
    b.length = 24 ∧ frameGood b = true ∧ fieldAt b 20 2 = seq % 65536 := by
  have hlen := frameHead_length type seq body
  have hb : frameBytes type seq body = frameHead type seq body ++ leBytes 2 (crc16 (frameHead type seq body)) := rfl
  have hseq : fieldAt (frameHead type seq body) 20 2 = seq % 65536 := by
    have h20 : (leBytes 1 type ++ (body ++ List.replicate (19 - body.length) 0).take 19).length = 20 := by
      simp only [List.length_append, leBytes_length, List.length_take, List.length_replicate]
      omega
    rw [frameHead, fieldAt_append_right (by rw [h20]), h20, fieldAt_leBytes (by decide)]
    simp
  have hcrc : fieldAt (frameBytes type seq body) 22 2 = crc16 (frameHead type seq body) := by
    rw [hb, fieldAt_append_right (by rw [hlen]), hlen, fieldAt_leBytes (by decide), pow_zero, Nat.div_one]
    exact Nat.mod_eq_of_lt (crc16_lt _)
  have h24 : (frameBytes type seq body).length = 24 := by rw [hb, List.length_append, hlen, leBytes_length]
  refine ⟨h24, ?_, ?_⟩
  · rw [frameGood, h24, hcrc, hb, ← hlen, List.take_left]
    simp
  · rw [hb, fieldAt_append_left (by rw [hlen]), hseq]

/-- Every frame of the downlink is TYPE, content, SEQ and CRC. -/
theorem DownFrame.bytes_eq (n : Nat) (m : DownMsg) : ∃ type body, DownFrame.bytes ⟨n, m⟩ = frameBytes type n body := by
  cases m <;> exact ⟨_, _, rfl⟩

theorem UpFrame.bytes_eq (n : Nat) (m : UpMsg) : ∃ type body, UpFrame.bytes ⟨n, m⟩ = frameBytes type n body := by
  cases m <;> exact ⟨_, _, rfl⟩

theorem fieldAt_frameBytes_type (type seq : Nat) (body : List Byte) : fieldAt (frameBytes type seq body) 0 1 = type % 256 := by
  change fieldAt (frameHead type seq body ++ _) 0 1 = _
  rw [fieldAt_append_left (by rw [frameHead_length]; decide), frameHead, List.append_assoc,
    fieldAt_append_left (by rw [leBytes_length]), fieldAt_leBytes (by decide), pow_zero, Nat.div_one, pow_one]

/-- A field of a frame's content, as it was put in. -/
theorem fieldAt_frameBytes {type seq i n : Nat} {body : List Byte} (hb : body.length ≤ 19) (hi : 1 ≤ i) (hn : i - 1 + n ≤ body.length) :
    fieldAt (frameBytes type seq body) i n = fieldAt body (i - 1) n := by
  have hlen := frameHead_length type seq body
  have htake : (body ++ List.replicate (19 - body.length) (0 : Byte)).take 19 = body ++ List.replicate (19 - body.length) 0 :=
    List.take_of_length_le (by simp only [List.length_append, List.length_replicate]; omega)
  change fieldAt (frameHead type seq body ++ _) i n = _
  rw [fieldAt_append_left (by rw [hlen]; omega), frameHead, htake,
    fieldAt_append_left (by simp only [List.length_append, leBytes_length, List.length_replicate]; omega),
    fieldAt_append_right (by rw [leBytes_length]; exact hi), leBytes_length, fieldAt_append_left (by omega)]

/-- EDGE_NEW on the link: its type, the channel, the tag and the two times. -/
theorem edgeNew_fields (n : Nat) (c : Fin 16) (g : BitVec 16) (on off : BitVec 64) : let b := DownFrame.bytes ⟨n, .edgeNew c g on off⟩
    fieldAt b 0 1 = 1 ∧ fieldAt b 1 1 = c.val ∧ fieldAt b 2 2 = g.toNat ∧ fieldAt b 4 8 = on.toNat ∧ fieldAt b 12 8 = off.toNat := by
  have hb : DownFrame.bytes ⟨n, .edgeNew c g on off⟩ =
      frameBytes 1 n (leBytes 1 c.val ++ leBytes 2 g.toNat ++ leBytes 8 on.toNat ++ leBytes 8 off.toNat) := rfl
  have hc : c.val % 256 = c.val := Nat.mod_eq_of_lt (by omega)
  have hg : g.toNat % 65536 = g.toNat := Nat.mod_eq_of_lt g.isLt
  have hon : on.toNat % 18446744073709551616 = on.toNat := Nat.mod_eq_of_lt on.isLt
  have hoff : off.toNat % 18446744073709551616 = off.toNat := Nat.mod_eq_of_lt off.isLt
  dsimp only
  rw [hb]
  refine ⟨?_, ?_⟩
  · rw [fieldAt_frameBytes_type]
  · simp only [fieldAt_frameBytes, fieldAt_append_left, fieldAt_append_right, fieldAt_leBytes, leBytes_length, List.length_append,
      Nat.reduceAdd, Nat.reduceSub, Nat.reduceLeDiff, Nat.reducePow, Nat.div_one, hc, hg, hon, hoff, and_self]

/-! ### A frame taken off the link (R410) -/

theorem State.sendUp_up (s : State) (m : UpMsg) : (s.sendUp m).link.up = s.link.up ++ s.onLink [⟨s.field.upSeq, m⟩] := by
  unfold State.sendUp State.onLink
  dsimp only
  cases s.boot.power
  · exact (List.append_nil _).symm
  · rfl

/-- SEQ numbers missing before a frame. -/
def State.missed (s : State) (seq : Nat) : Nat := u16 (seq + 65536 - s.field.expSeq)

/-- The controller expects the next SEQ, and has told of a gap; nothing else of it changed. -/
theorem State.receive_field (s : State) (seq : Nat) (m : DownMsg) : (s.receive seq m).field = { s.field with
    upSeq := if s.missed seq = 0 then s.field.upSeq else u16 (s.field.upSeq + 1), expSeq := u16 (seq + 1) } := by
  unfold State.receive State.missed
  dsimp only
  split <;> rfl

theorem State.receive_down (s : State) (seq : Nat) (m : DownMsg) : (s.receive seq m).link.down = s.link.down.erase ⟨seq, m⟩ := by
  unfold State.receive
  dsimp only
  split <;> rfl

theorem State.receive_up (s : State) (seq : Nat) (m : DownMsg) : (s.receive seq m).link.up = if s.missed seq = 0 then s.link.up
    else s.link.up ++ s.onLink [⟨s.field.upSeq, .reject 2 0 (BitVec.ofNat 16 s.field.expSeq) (BitVec.ofNat 16 (s.missed seq))⟩] := by
  unfold State.receive
  change (if s.missed seq = 0 then _ else _ : State).link.up = _
  split
  · rfl
  · exact State.sendUp_up { s with link := { s.link with down := s.link.down.erase ⟨seq, m⟩ } } _

theorem State.receive_changesOnly (s : State) (seq : Nat) (m : DownMsg) : s.changesOnly [.field, .link] (s.receive seq m) := by
  intro c hc
  simp only [List.mem_cons, List.not_mem_nil, or_false, not_or] at hc
  obtain ⟨hf, hl⟩ := hc
  have := closedField_of_ne (s := s) hf
  have := closedLink_of_ne (s := s) hl
  exact State.receive_holds (G := fun t => c.same s t) Holds.same_refl

theorem State.receive_regs (s : State) (seq : Nat) (m : DownMsg) : (s.receive seq m).regs = s.regs :=
  s.receive_changesOnly seq m .regs (by decide)

theorem State.receive_boot (s : State) (seq : Nat) (m : DownMsg) : (s.receive seq m).boot = s.boot :=
  s.receive_changesOnly seq m .boot (by decide)

theorem State.missed_eq (h : seq < 65536) (he : s.field.expSeq < 65536) : (s.field.expSeq + s.missed seq) % 65536 = seq := by
  unfold State.missed u16
  omega

/-! ### EDGE_NEW (R77) -/

/-- What judges an edge frame is not what a frame taken off the link changes. -/
theorem State.receive_newReason (s : State) (q : Nat) (m : DownMsg) : (s.receive q m).newReason = s.newReason := by
  funext ch tag on off
  unfold State.newReason State.edgeqUsed State.out
  rw [State.receive_field]

theorem State.receive_pulseFor (s : State) (q : Nat) (m : DownMsg) : (s.receive q m).pulseFor = s.pulseFor := by
  funext ch tag
  unfold State.pulseFor State.out
  rw [State.receive_field]

theorem State.receive_windowOpen (s : State) (q : Nat) (m : DownMsg) : (s.receive q m).windowOpen = s.windowOpen := by
  funext t
  unfold State.windowOpen
  rw [State.receive_field]

theorem State.receive_onOpen (s : State) (q : Nat) (m : DownMsg) : (s.receive q m).onOpen = s.onOpen := by
  funext p
  unfold State.onOpen
  rw [State.receive_windowOpen]

/-- The controller runs, and the channel is one for pulses: edge frames of it are not rejected with MODE. -/
def State.edgeMode (s : State) (ch : Nat) : Prop := s.field.mode = .run ∧ (s.out ch).mode = 1

theorem State.edgeMode_iff : s.edgeMode ch ↔ (s.field.mode != .run || (s.out ch).mode != 1) = false := by
  simp [State.edgeMode]

/-- A pulse that stands in the queue overlaps one of those times on its output. -/
def State.overlaps (s : State) (ch on off : Nat) : Prop :=
  ∃ p ∈ s.field.pulses, p.channel = ch ∧ p.parked = false ∧ diff64 on p.off < 0 ∧ 0 < diff64 off p.on

/-- The reject reasons of an EDGE_NEW, in their order: MODE, then the lowest that applies. -/
theorem State.newReason_spec :
    (¬ s.edgeMode ch → s.newReason ch tag on off = some 9) ∧
    (s.edgeMode ch → diff64 on s.field.ftime < 500000 → s.newReason ch tag on off = some 3) ∧
    (s.edgeMode ch → 500000 ≤ diff64 on s.field.ftime →
      (diff64 off on ≤ 0 → s.newReason ch tag on off = some 4) ∧
      (0 < diff64 off on →
        ((∃ p ∈ s.field.pulses, p.tag = tag) → s.newReason ch tag on off = some 6) ∧
        ((∀ p ∈ s.field.pulses, p.tag ≠ tag) →
          (4096 < s.edgeqUsed + 2 → s.newReason ch tag on off = some 7) ∧
          (s.edgeqUsed + 2 ≤ 4096 → s.overlaps ch on off → s.newReason ch tag on off = some 8) ∧
          (s.edgeqUsed + 2 ≤ 4096 → ¬ s.overlaps ch on off → s.newReason ch tag on off = none)))) := by
  have hov : s.overlaps ch on off ↔
      s.field.pulses.any (fun p => p.channel == ch && !p.parked && decide (diff64 on p.off < 0) && decide (diff64 off p.on > 0)) = true := by
    simp [State.overlaps, and_assoc]
  have htag : (∃ p ∈ s.field.pulses, p.tag = tag) ↔ s.field.pulses.any (fun p => p.tag == tag) = true := by simp
  have hno : (∀ p ∈ s.field.pulses, p.tag ≠ tag) ↔ ¬ s.field.pulses.any (fun p => p.tag == tag) = true := by simp
  unfold State.newReason
  rw [State.edgeMode_iff, htag, hno, hov]
  dsimp only
  refine ⟨fun hm => if_pos (Bool.eq_true_of_not_eq_false hm), fun hm h3 => ?_, fun hm h3 => ⟨fun h4 => ?_,
    fun h4 => ⟨fun h6 => ?_, fun h6 => ⟨fun h7 => ?_,
    fun h7 h8 => ?_, fun h7 h8 => ?_⟩⟩⟩⟩ <;> rw [if_neg (by rw [hm]; exact Bool.false_ne_true)]
  · rw [if_pos h3]
  · rw [if_neg (by omega), if_pos h4]
  · rw [if_neg (by omega), if_neg (by omega), if_pos h6]
  · rw [if_neg (by omega), if_neg (by omega), if_neg h6, if_pos h7]
  · rw [if_neg (by omega), if_neg (by omega), if_neg h6, if_neg (by omega), if_pos h8]
  · rw [if_neg (by omega), if_neg (by omega), if_neg h6, if_neg (by omega), if_neg h8]

theorem State.fieldNew_of_reason {n : Nat} (h : s.newReason ch tag on off = some n) :
    s.fieldNew seq ch tag on off = s.rejectUp n tag seq 0 := by
  simp only [State.fieldNew, h]

/-- A pulse at the end of the edge queue. -/
def State.queuePulse (s : State) (p : Pulse) : State := { s with field := { s.field with pulses := s.field.pulses ++ [p] } }

theorem State.queuePulse_edgeqUsed {p : Pulse} (h : p.onFired = none) : (s.queuePulse p).edgeqUsed = s.edgeqUsed + 2 := by
  simp [State.edgeqUsed, State.queuePulse, h]

theorem State.fieldNew_of_none (h : s.newReason ch tag on off = none) : s.fieldNew seq ch tag on off =
    (s.queuePulse { channel := ch, tag := tag, on := on, off := off }).onRails (fun u => u.peak R.FLD_EDGEQ.PEAK (s.edgeqUsed + 2)) := by
  have hused : (s.queuePulse { channel := ch, tag := tag, on := on, off := off }).edgeqUsed = s.edgeqUsed + 2 :=
    State.queuePulse_edgeqUsed rfl
  simp only [State.fieldNew, h, State.onRails]
  rw [← hused]
  rfl

/-- The queue's peak shows with the logic side's rails on, and is one register. -/
theorem State.showPeak_regsWithin (hw : sparseWf regDefault s.regs = true) (v : Nat) :
    s.regsWithin [R.FLD_EDGEQ] (s.onRails (fun u => u.peak R.FLD_EDGEQ.PEAK v)) := by
  have h := State.regsWithin_refl (offs := [R.FLD_EDGEQ]) hw
  unfold State.onRails State.peak
  split
  · exact (h.put (.head _) v).ite h
  · exact h

theorem State.showPeak_field (s : State) (v : Nat) : (s.onRails (fun u => u.peak R.FLD_EDGEQ.PEAK v)).field = s.field ∧
    (s.onRails (fun u => u.peak R.FLD_EDGEQ.PEAK v)).link = s.link := by
  unfold State.onRails State.peak
  dsimp only
  split
  · split <;> exact ⟨rfl, rfl⟩
  · exact ⟨rfl, rfl⟩

theorem State.showPeak_get (hw : sparseWf regDefault s.regs = true) (hp : s.boot.power = true) {v : Nat} (hv : v < 8192) :
    (s.onRails (fun u => u.peak R.FLD_EDGEQ.PEAK v)).get R.FLD_EDGEQ.PEAK = max (s.get R.FLD_EDGEQ.PEAK) v := by
  unfold State.onRails State.peak
  rw [if_pos hp]
  dsimp only
  split
  · next h => rw [State.get_put_same hw (Fld.ok_of rfl), max_eq_right h.le, Nat.mod_eq_of_lt (by exact hv)]
  · next h => rw [max_eq_left (by omega)]

/-! ### EDGE_CORR, EDGE_HOLD and EDGE_CANCEL (R77) -/

theorem State.pulseFor_of_not_mode (h : ¬ s.edgeMode ch) : s.pulseFor ch tag = .inl 9 := by
  rw [State.edgeMode_iff] at h
  rw [State.pulseFor, if_pos (Bool.eq_true_of_not_eq_false h)]

theorem State.pulseFor_of_mode (h : s.edgeMode ch) {p : Pulse} (hp : s.field.pulses.find? (fun x => x.tag == tag) = some p) :
    s.pulseFor ch tag = .inr p := by
  rw [State.pulseFor, if_neg (by rw [State.edgeMode_iff.1 h]; exact Bool.false_ne_true), hp]

theorem State.pulseFor_of_unknown (h : s.edgeMode ch) (hp : ∀ p ∈ s.field.pulses, p.tag ≠ tag) : s.pulseFor ch tag = .inl 5 := by
  have hn : s.field.pulses.find? (fun x => x.tag == tag) = none := by simpa using hp
  rw [State.pulseFor, if_neg (by rw [State.edgeMode_iff.1 h]; exact Bool.false_ne_true), hn]

theorem State.setPulse_pulses {p : Pulse} (h : p.tag = tag) :
    (s.setPulse p).field.pulses = s.field.pulses.map (fun y => if y.tag = tag then p else y) := by
  simp only [State.setPulse, h, beq_iff_eq]

/-- A pulse that fits goes to the end of the queue, and the queue's peak follows. -/
theorem State.fieldNew_fits (hw : sparseWf regDefault s.regs = true) (h : s.newReason ch tag on off = none) (hfit : s.edgeqUsed + 2 ≤ 4096) :
    let t := s.fieldNew seq ch tag on off
    s.regsWithin [R.FLD_EDGEQ] t ∧ t.field.pulses = s.field.pulses ++ [{ channel := ch, tag := tag, on := on, off := off }] ∧
    t.link = s.link ∧ t.edgeqUsed = s.edgeqUsed + 2 ∧
    (s.boot.power = true → t.get R.FLD_EDGEQ.PEAK = max (s.get R.FLD_EDGEQ.PEAK) (s.edgeqUsed + 2)) := by
  dsimp only
  rw [State.fieldNew_of_none h]
  obtain ⟨hf, hl⟩ := State.showPeak_field (s.queuePulse { channel := ch, tag := tag, on := on, off := off }) (s.edgeqUsed + 2)
  refine ⟨State.showPeak_regsWithin (s := s.queuePulse _) hw _, ?_, hl, ?_, fun hp => ?_⟩
  · rw [hf]
    rfl
  · rw [State.edgeqUsed, hf]
    exact State.queuePulse_edgeqUsed rfl
  · exact State.showPeak_get (s := s.queuePulse _) hw hp (by omega)

/-- What an EDGE_CORR does with the parked pulse of its tag. -/
theorem State.fieldCorr_parked {p : Pulse} (h : s.pulseFor ch tag = .inr p) (hp : p.parked = true) : s.fieldCorr seq ch tag on off =
    if diff64 on s.field.ftime < 500000 then s.rejectUp 3 tag seq 0
    else if diff64 off on ≤ 0 then s.rejectUp 4 tag seq 0
    else s.setPulse { p with on := on, off := off, parked := false } := by
  simp only [State.fieldCorr, h]
  rw [if_pos hp]

/-- What it does with another pulse: `a` and `b` say which edges are replaced. -/
theorem State.fieldCorr_moves {p : Pulse} (h : s.pulseFor ch tag = .inr p) (hp : p.parked = false) {a b : Bool}
    (ha : a = (p.onFired.isNone && decide (100000 ≤ diff64 p.on s.field.ftime ∧ 100000 ≤ diff64 on s.field.ftime)))
    (hb : b = decide (100000 ≤ diff64 p.off s.field.ftime ∧ 100000 ≤ diff64 off s.field.ftime)) : s.fieldCorr seq ch tag on off =
    if diff64 (if b then off else p.off) (if a then on else p.on) ≤ 0 then s.rejectUp 4 tag seq 0
    else if !a && !b then s.rejectUp 10 tag seq 0
    else s.setPulse { p with on := if a then on else p.on, off := if b then off else p.off } := by
  have ha' : (p.onFired.isNone && s.windowOpen p.on && s.windowOpen on) = a := by
    rw [ha, Bool.and_assoc, Bool.decide_and]
    rfl
  have hb' : (s.windowOpen p.off && s.windowOpen off) = b := by
    rw [hb, Bool.decide_and]
    rfl
  simp only [State.fieldCorr, h, ha', hb']
  rw [if_neg (by rw [hp]; exact Bool.false_ne_true)]

theorem State.regsWithin.congr (e : t.regs = s.regs) (h : t.regsWithin offs r) : s.regsWithin offs r := by
  unfold State.regsWithin State.keepsRegs State.reg at *
  rwa [e] at h

theorem State.receive_edgeqUsed (s : State) (q : Nat) (m : DownMsg) : (s.receive q m).edgeqUsed = s.edgeqUsed := by
  rw [State.edgeqUsed, State.receive_field, State.edgeqUsed]

theorem State.windowOpen_eq (s : State) (t : Nat) : s.windowOpen t = decide (100000 ≤ diff64 t s.field.ftime) := rfl

/-- The on window of a pulse, in words. -/
theorem State.onOpen_iff {p : Pulse} : s.onOpen p = true ↔ p.parked = true ∨ (p.onFired = none ∧ 100000 ≤ diff64 p.on s.field.ftime) := by
  simp [State.onOpen, State.windowOpen_eq]

/-- The report of a pulse whose edges did not both fire: nothing else goes up, and the time of an on edge that fired is told. -/
theorem State.reportUnfired_spec (s : State) (p : Pulse) (result : Nat) : let t := s.reportUnfired p result
    t.field.pulses = s.field.pulses ∧ t.link.down = s.link.down ∧
    ∃ x y, (∀ w, p.onFired = some w → x = BitVec.ofNat 64 w) ∧ t.link.up = s.link.up ++ s.onLink [⟨s.field.upSeq,
      .edgeDone (Fin.ofNat 16 p.channel) (Fin.ofNat 16 (result + if p.late then 8 else 0)) (BitVec.ofNat 16 p.tag) x y⟩] := by
  refine ⟨rfl, rfl, (p.onFired.map (BitVec.ofNat 64)).getD s.draw.1, s.draw.2.draw.1, fun w hw => by simp [hw], ?_⟩
  exact State.sendUp_up s.draw.2.draw.2 _

/-- Settles O27: each frame is judged in the state that took it off the link, of which the edge queue and the outputs are those of before. -/
theorem fieldJudgesEdgeFrames : Obligations.FieldJudgesEdgeFrames := by
  intro s seq tag ch on off ⟨hw, _⟩ f q rejects works lead
  refine ⟨?taken, ?edgeNew, ?tagged, ?refused, ?down, ?up⟩
  case taken =>
    intro m r
    refine ⟨s.receive_changesOnly _ _, by rw [State.receive_field], s.receive_down _ _, by rw [State.receive_field],
      by rw [State.receive_field], by rw [State.receive_field], fun he => ?_, fun h16 hne => ?_⟩
    · have hmiss : s.missed seq.toNat = 0 := by
        rw [he, State.missed, u16, Nat.add_sub_cancel_left]
      rw [State.receive_up, if_pos hmiss]
    · have hsum := State.missed_eq seq.isLt h16
      have hmiss : s.missed seq.toNat ≠ 0 := fun h0 => hne (by
        rw [h0, Nat.add_zero, Nat.mod_eq_of_lt h16] at hsum
        exact hsum.symm)
      have hlt : s.missed seq.toNat < 65536 := Nat.mod_lt _ (by decide)
      exact ⟨BitVec.ofNat 16 (s.missed seq.toNat), by rw [State.receive_up, if_neg hmiss], by
        rw [BitVec.toNat_ofNat, Nat.mod_eq_of_lt (a := s.missed seq.toNat) (by exact hlt), hsum]⟩
  case edgeNew =>
    intro r i overlap
    have hreason : r.newReason q tag.toNat on.toNat off.toNat = s.newReason q tag.toNat on.toNat off.toNat := by rw [State.receive_newReason]
    have hrej {n : Nat} (h : s.newReason q tag.toNat on.toNat off.toNat = some n) : rejects i r n :=
      congrArg Host.Outcome.next (State.fieldNew_of_reason (hreason.trans h))
    obtain ⟨h9, h3, hrest⟩ := State.newReason_spec (s := s) (ch := q) (tag := tag.toNat) (on := on.toNat) (off := off.toNat)
    refine ⟨fun hm => hrej (h9 hm), fun hm hl => hrej (h3 hm hl), fun hm hl => ?_⟩
    obtain ⟨h4, hrest⟩ := hrest hm hl
    refine ⟨fun ho => hrej (h4 ho), fun ho => ?_⟩
    obtain ⟨h6, hrest⟩ := hrest ho
    refine ⟨fun ht => hrej (h6 ht), fun ht => ?_⟩
    obtain ⟨h7, h8, hfit⟩ := hrest ht
    refine ⟨fun hu => hrej (h7 hu), fun hu hov => hrej (h8 hu hov), fun hu hov => ?_⟩
    have hused : r.edgeqUsed = s.edgeqUsed := s.receive_edgeqUsed _ _
    have hregs : r.regs = s.regs := s.receive_regs _ _
    have hpulses : r.field.pulses = s.field.pulses := by rw [State.receive_field]
    obtain ⟨hr, hp, hlink, hn, hpeak⟩ := State.fieldNew_fits (seq := seq.toNat) (s := r) (by rwa [hregs])
      (hreason.trans (hfit hu hov)) (by rwa [hused])
    rw [hused] at hn hpeak
    refine State.completes_within (i := .edgeNew seq ch tag on off) rfl (State.regsWithin.congr hregs hr)
      ⟨by rw [hp, hpulses], hlink, hn, fun hpow => ?_⟩
    rw [hpeak (by rwa [State.receive_boot]), State.get_of_regs hregs]
  case tagged =>
    intro p hm hp swap parts open_
    have htag : p.tag = tag.toNat := by simpa using List.find?_some hp
    have hfor (m : DownMsg) : (s.receive seq.toNat m).pulseFor ch.val tag.toNat = .inr p := by
      rw [State.receive_pulseFor, State.pulseFor_of_mode hm hp]
    have hset (m : DownMsg) (x : Pulse) (hx : x.tag = p.tag) : ((s.receive seq.toNat m).setPulse x).field.pulses = swap x := by
      rw [State.setPulse_pulses (hx.trans htag), State.receive_field]
    have hopen (m : DownMsg) : (s.receive seq.toNat m).onOpen p = true ↔ open_ := by
      rw [State.receive_onOpen, State.onOpen_iff]
    refine ⟨?corr, ?hold, ?cancel⟩
    case corr =>
      intro r i
      have he : exec i s = .next (r.fieldCorr seq.toNat ch.val tag.toNat on.toNat off.toNat) := rfl
      have hft : r.field.ftime = s.field.ftime := by rw [State.receive_field]
      refine ⟨fun hk hl => ?_, fun hk hl ho => ?_, fun hk hl ho => ?_, fun hk => ?_⟩
      · rwa [State.fieldCorr_parked (hfor _) hk, hft, if_pos hl] at he
      · rwa [State.fieldCorr_parked (hfor _) hk, hft, if_neg (not_lt.2 hl), if_pos ho] at he
      · rw [State.fieldCorr_parked (hfor _) hk, hft, if_neg (not_lt.2 hl), if_neg (not_le.2 ho)] at he
        exact State.completes_off_regs (i := .edgeCorr seq ch tag on off) (cs := [.field, .link]) he ⟨hset _ _ rfl, rfl⟩
      · intro a b on' off'
        rw [State.fieldCorr_moves (a := a) (b := b) (hfor _) hk (by rw [hft]) (by rw [hft])] at he
        refine ⟨fun ho => ?_, fun ho ha hb => ?_, fun ho hab => ?_⟩
        · rwa [if_pos ho] at he
        · rwa [if_neg (not_le.2 ho), if_pos (by rw [ha, hb]; rfl)] at he
        · rw [if_neg (not_le.2 ho), if_neg (by rcases hab with h | h <;> simp [h])] at he
          exact State.completes_off_regs (i := .edgeCorr seq ch tag on off) (cs := [.field, .link]) he ⟨hset _ _ rfl, rfl⟩
    case hold =>
      intro r
      have he : exec (.edgeHold seq ch tag) s = .next (
          if r.onOpen p then r.setPulse { p with parked := true } else r.rejectUp 10 tag.toNat seq.toNat 0) := by
        simp only [exec_edgeHold, execEdgeHold, hfor]
        rfl
      refine ⟨fun ho => ?_, fun ho => ?_⟩
      · rw [if_pos ((hopen _).2 ho)] at he
        exact State.completes_off_regs (cs := [.field, .link]) he ⟨hset _ _ rfl, rfl⟩
      · rwa [if_neg (mt (hopen _).1 ho)] at he
    case cancel =>
      intro r
      have he : exec (.edgeCancel seq ch tag) s = .next (if r.onOpen p then { r with field := { r.field with
          pulses := r.field.pulses.filter (fun x => x.tag != p.tag) } }.reportUnfired p 3 else r.rejectUp 10 tag.toNat seq.toNat 0) := by
        simp only [exec_edgeCancel, execEdgeCancel, hfor]
        rfl
      refine ⟨fun ho => ?_, fun ho => ?_⟩
      · rw [if_pos ((hopen _).2 ho)] at he
        obtain ⟨hpulses, hdown, hup⟩ := State.reportUnfired_spec { r with field := { r.field with
          pulses := r.field.pulses.filter (fun x => x.tag != p.tag) } } p 3
        have hpow : r.onLink (α := UpFrame) = s.onLink := by
          funext fs
          rw [State.onLink, State.receive_boot, State.onLink]
        refine State.completes_off_regs (cs := [.field, .link, .free]) he ⟨?_, hdown, ?_⟩
        · rw [hpulses, htag, State.receive_field]
        · obtain ⟨x, y, hx, hup⟩ := hup
          refine ⟨x, y, hx, hup.trans ?_⟩
          rw [htag, BitVec.ofNat_toNat, BitVec.setWidth_eq, ← hpow]
          rfl
      · rwa [if_neg (mt (hopen _).1 ho)] at he
  case refused =>
    intro refused
    have hall {n : Nat} (h : s.pulseFor q tag.toNat = .inl n) : refused n := by
      have hfor (m : DownMsg) : (s.receive seq.toNat m).pulseFor ch.val tag.toNat = .inl n := by rw [State.receive_pulseFor, h]
      refine ⟨?_, ?_, ?_⟩
      · simp only [rejects, exec_edgeHold, execEdgeHold, hfor]
      · simp only [rejects, exec_edgeCancel, execEdgeCancel, hfor]
      · simp only [rejects, exec_edgeCorr, execEdgeCorr, State.fieldCorr, hfor]
    exact ⟨fun hm => hall (State.pulseFor_of_not_mode hm), fun hm hno => hall (State.pulseFor_of_unknown hm hno)⟩
  case down =>
    intro n m b
    obtain ⟨type, body, hb⟩ := DownFrame.bytes_eq n m
    obtain ⟨hlen, hgood, hseq⟩ := frameBytes_good type n body
    rw [← hb] at hlen hgood hseq
    exact ⟨hlen, hgood, hseq, fun he => by subst he; exact edgeNew_fields n ch tag on off⟩
  case up =>
    intro n m b
    obtain ⟨type, body, hb⟩ := UpFrame.bytes_eq n m
    have hgood := frameBytes_good type n body
    rwa [← hb] at hgood

end Sys2Proof.Machine
end

section
/-! PROOFS, the position sequencer: parts open and close (R61-R66), and what settles O17. -/

namespace Sys2Proof.Machine

variable {s t u : State} {i j m x dk ek : Nat} {cs : List Comp} {offs : List Nat}

/-- An action that is done, by what it comes to. -/
theorem exec_fired_eq {k a : Nat} {e : SeqEntry} {act : State → SeqEntry → State} {c : Instr} (hi : exec c s = .next (s.fire a act))
    (hd : s.nextDue = some (j, k, e)) (ha : e.action = a) (h : act (s.firing j k e) e = u) (hc : u.calm) : exec c s = .next u := by
  subst h
  exact exec_fired hi hd ha hc

/-! ### The part table -/

theorem State.part_setPart (s : State) (i j : Nat) (p : Part) : (s.setPart i p).part j = if j = i then p else s.part j := by
  unfold State.part State.setPart
  dsimp only
  rw [keyGet_keyPut]
  split <;> rfl

theorem State.entry_setEntry (s : State) (k j : Nat) (e : SeqEntry) : (s.setEntry k e).entry j = if j = k then e else s.entry j := by
  unfold State.entry State.setEntry
  dsimp only
  rw [keyGet_keyPut]
  split <;> rfl

theorem State.part_of_parts (h : t.seq.parts = s.seq.parts) (i : Nat) : t.part i = s.part i := by rw [State.part, h, State.part]

theorem State.touchesOnly.setPart (h : s.touchesOnly cs offs t) (i : Nat) (p : Part) (hc : Comp.seq ∈ cs := by decide) :
    s.touchesOnly cs offs (t.setPart i p) := h.seq _ hc

theorem State.touchesOnly.setEntry (h : s.touchesOnly cs offs t) (k : Nat) (e : SeqEntry) (hc : Comp.seq ∈ cs := by decide) :
    s.touchesOnly cs offs (t.setEntry k e) := h.seq _ hc

/-- The entry that a new part takes is FREE (R61). -/
theorem State.freeEntry_spec (h : s.freeEntry = some i) : i < 4096 ∧ (s.part i).core.state = .free := by
  have hmem : i ∈ (List.range 4096).filter (fun i => match keyGet s.seq.parts i with
      | some p => p.core.state == .free
      | none => true) := by
    rw [State.freeEntry] at h
    rcases Option.or_eq_some_iff.1 h with h | ⟨-, h⟩
    · exact List.mem_of_find?_eq_some h
    · exact List.mem_of_head? h
  obtain ⟨hlt, hfree⟩ := List.mem_filter.1 hmem
  refine ⟨List.mem_range.1 hlt, ?_⟩
  rw [State.part]
  revert hfree
  cases keyGet s.seq.parts i with
  | none => exact fun _ => rfl
  | some p => simp

/-- The indices that the two entries of a new part take held none (R65). -/
theorem State.trackRoom_spec (h : s.trackRoom m = some (dk, ek)) :
    dk < ek ∧ keyGet s.seq.entries dk = none ∧ keyGet s.seq.entries ek = none := by
  unfold State.trackRoom at h
  dsimp only at h
  split at h
  · next x y l hl =>
    cases h
    have hsort : (x :: y :: l).Pairwise (· < ·) := hl ▸ List.pairwise_lt_range.filter _
    have hmem : ∀ k ∈ x :: y :: l, keyGet s.seq.entries (57344 + m % 8 * 1024 + k) = none := fun k hk => by
      rw [← hl] at hk
      simpa using (List.mem_filter.1 hk).2
    have hxy : x < y := (List.pairwise_cons.1 hsort).1 y (.head _)
    exact ⟨by omega, hmem x (.head _), hmem y (.tail _ (.head _))⟩
  · exact absurd h nofun

/-! ### Capture, measurement and the part list, where they are off -/

theorem State.captureTake_of_off (h : s.flag R.ADP_CAP_CFG.ENABLE = false) : s.captureTake i = s := by
  unfold State.captureTake
  exact if_pos (by simp [State.capLane, h])

theorem State.measOpen_of_off (h : s.flag R.LPIPE_CTL.ENABLE = false) : s.measOpen i = s := by
  unfold State.measOpen
  exact if_pos (by rw [h]; rfl)

theorem State.startPartList_of_none (h : s.rtJob = none) : s.startPartList i = s := by
  simp only [State.startPartList, h]

/-- The job of the real-time partition stands in the registers of the partitions and jobs. -/
theorem State.rtJob_congr (h : ∀ f : Fld, 0x208000 ≤ f.off → t.get f = s.get f) : t.rtJob = s.rtJob := by
  have hcfg (p : Nat) : t.get (R.STG_PTN_CFG.ENABLE p) = s.get _ ∧ t.get (R.STG_PTN_CFG.RT p) = s.get _ :=
    ⟨h _ (Nat.le_add_right ..), h _ (Nat.le_add_right ..)⟩
  have hjob (j : Nat) : t.jobPart j = s.jobPart j ∧ t.jobState j = s.jobState j :=
    ⟨h _ (Nat.le_trans (by decide) (Nat.le_add_right ..)), h _ (Nat.le_trans (by decide) (Nat.le_add_right ..))⟩
  unfold State.rtJob State.rtPart State.flag
  simp only [hcfg, hjob]

theorem State.captureClose_of_none (h : (s.part i).vd.capture = none) : s.captureClose i = s := by
  simp only [State.captureClose, State.captureStep, h]

theorem State.sdgEnqueue_of_off (h : ∀ i, (s.part i).sdgOn = false) : s.sdgEnqueue = s := by
  have hready : s.liveParts.filter (fun i => s.sdgReady i) = [] :=
    List.filter_eq_nil_iff.2 fun i _ => by simp [State.sdgReady, h]
  unfold State.sdgEnqueue
  extract_lets ready order
  have horder : order = [] := List.flatMap_eq_nil_iff.2 fun m _ => by simp [ready, hready]
  rw [horder]
  rfl

/-! ### PART_OPEN of one lane (R61, R64) -/

/-- The state with a new part at entry `i`, its DECISION at index `dk` and its EJECT_PASS at `ek`. -/
def State.opens (s : State) (m x i dk ek : Nat) : State :=
  let p := s.newPart m x dk ek
  ((((s.put R.PART_NEXT_ID.ID (u32 (p.core.id + 1))).setEntry dk (partEntry (u64 (x + p.core.decOff)) 6 i)).setEntry ek
    (partEntry (u64 (x + p.core.onOff)) 7 i)).forget i).setPart i p

theorem State.openLane_of_disabled (h : s.flag (R.PSQ_LANE_CFG.ENABLE m) = false) : s.openLane m x = s := by
  unfold State.openLane
  exact if_pos (by rw [h]; rfl)

theorem State.openLane_of_room (hw : sparseWf regDefault s.regs = true) (he : s.flag (R.PSQ_LANE_CFG.ENABLE m) = true)
    (ho : s.openOf m = none) (hp : s.sdg.proof = none) (hj : s.rtJob = none) (hc : s.flag R.ADP_CAP_CFG.ENABLE = false)
    (hl : s.flag R.LPIPE_CTL.ENABLE = false) (hi : s.freeEntry = some i) (hr : s.trackRoom m = some (dk, ek)) :
    s.openLane m x = s.opens m x i dk ek := by
  have hproof : (s.newPart m x dk ek).vd.proof = 0 := by simp [State.newPart, hp]
  have hget {g : Fld} (hg : R.PART_NEXT_ID.ID.apart g) : (s.opens m x i dk ek).get g = s.get g :=
    State.get_put_apart hw (Fld.ok_of rfl) hg _
  have hflag {g : Fld} (hg : R.PART_NEXT_ID.ID.apart g) : (s.opens m x i dk ek).flag g = s.flag g := congrArg (· != 0) (hget hg)
  have hjob : (s.opens m x i dk ek).rtJob = none := (State.rtJob_congr fun g hg => hget (.inl (by
    intro e
    rw [e] at hg
    exact absurd hg (by decide)))).trans hj
  unfold State.openLane
  rw [if_neg (by rw [he]; decide)]
  simp only [ho, hi, hr, hproof, ne_eq, not_true_eq_false, if_false]
  change (((s.opens m x i dk ek).captureTake i).measOpen i).startPartList i = _
  rw [State.captureTake_of_off ((hflag (.inl (by decide))).trans hc), State.measOpen_of_off ((hflag (.inl (by decide))).trans hl),
    State.startPartList_of_none hjob]

/-- No free entry, or no room in the lane's part track: the overflow is counted, and line stop requested. -/
def State.overflows (s : State) : State := ((s.bump R.PSQ_CNT_PART_OVF.N).latch R.PSQ_STATUS.PART_FULL).lineStop .sequencer

theorem State.openLane_of_full (he : s.flag (R.PSQ_LANE_CFG.ENABLE m) = true) (ho : s.openOf m = none)
    (h : s.freeEntry = none ∨ s.trackRoom m = none) : s.openLane m x = s.overflows := by
  unfold State.openLane
  rw [if_neg (by rw [he]; decide)]
  simp only [ho]
  rcases h with h | h <;> rw [h]
  · rfl
  · cases s.freeEntry <;> rfl

theorem State.touchesOnly.forget (h : s.touchesOnly cs offs t) (i : Nat) (hl : Comp.lp ∈ cs := by decide) (hc : Comp.cores ∈ cs := by decide)
    (hi : Comp.lists ∈ cs := by decide) (hj : Comp.jobs ∈ cs := by decide) (hf : Comp.flock ∈ cs := by decide) :
    s.touchesOnly cs offs (t.forget i) := by
  refine ⟨fun d hn => Comp.same_trans (h.1 d hn) ?_, h.2.of_regs rfl⟩
  have := closedLp_of_ne (s := t) (c := d) fun e => hn (e ▸ hl)
  have := closedCores_of_ne (s := t) (c := d) fun e => hn (e ▸ hc)
  have := closedLists_of_ne (s := t) (c := d) fun e => hn (e ▸ hi)
  have := closedJobs_of_ne (s := t) (c := d) fun e => hn (e ▸ hj)
  have := closedFlock_of_ne (s := t) (c := d) fun e => hn (e ▸ hf)
  exact State.forget_holds (G := fun u => d.same t u) Holds.same_refl

theorem State.touchesOnly.opens (h : s.touchesOnly [.regs, .seq] slipOffsets t) :
    s.touchesOnly [.regs, .seq, .lp, .cores, .lists, .jobs, .flock] [R.PSQ_CNT_SLIP, R.PSQ_STATUS, R.PART_NEXT_ID] (t.opens m x i dk ek) := by
  have h' : s.touchesOnly [.regs, .seq, .lp, .cores, .lists, .jobs, .flock] [R.PSQ_CNT_SLIP, R.PSQ_STATUS, R.PART_NEXT_ID] t :=
    h.mono (by decide) (by decide)
  exact ((((h'.put _).setEntry dk _).setEntry ek _).forget i).setPart i _

theorem State.touchesOnly.overflows (h : s.touchesOnly [.regs, .seq] slipOffsets t) :
    s.touchesOnly [.regs, .seq, .link, .loft] ([R.PSQ_CNT_SLIP, R.PSQ_STATUS, R.PSQ_CNT_PART_OVF] ++ lineStopOffsets) t.overflows := by
  have h' : s.touchesOnly [.regs, .seq, .link, .loft] ([R.PSQ_CNT_SLIP, R.PSQ_STATUS, R.PSQ_CNT_PART_OVF] ++ lineStopOffsets) t :=
    h.mono (by decide) (by decide)
  exact ((h'.bump).latch).lineStop .sequencer

/-- What the forgetting of an entry leaves, where the parts it speaks of are the same. -/
theorem State.forget_congr (hl : t.lp = s.lp) (hc : t.cores = s.cores) (hi : t.lists = s.lists) (hj : t.jobs = s.jobs) (hf : t.flock = s.flock)
    (i : Nat) : (t.forget i).lp = (s.forget i).lp ∧ (t.forget i).cores = (s.forget i).cores ∧ (t.forget i).lists = (s.forget i).lists ∧
      (t.forget i).jobs = (s.forget i).jobs ∧ (t.forget i).flock = (s.forget i).flock := by
  simp only [State.forget, hl, hc, hi, hj, hf, and_self]

theorem State.opens_part (s : State) (m x i dk ek j : Nat) :
    (s.opens m x i dk ek).part j = if j = i then s.newPart m x dk ek else s.part j :=
  State.part_setPart ..

theorem State.opens_entry (s : State) (m x i dk ek j : Nat) : (s.opens m x i dk ek).entry j =
    if j = ek then partEntry (u64 (x + s.get (R.PSQ_LANE_ON_OFF.N m))) 7 i
    else if j = dk then partEntry (u64 (x + s.get (R.PSQ_LANE_DEC_OFF.N m))) 6 i else s.entry j := by
  change ((State.setEntry _ dk _).setEntry ek _).entry j = _
  rw [State.entry_setEntry, State.entry_setEntry]
  rfl

theorem State.opens_nextId (hw : sparseWf regDefault s.regs = true) :
    (s.opens m x i dk ek).get R.PART_NEXT_ID.ID = u32 (s.get R.PART_NEXT_ID.ID + 1) := by
  refine (State.get_put_same hw (Fld.ok_of rfl) _).trans ?_
  change u32 (s.get R.PART_NEXT_ID.ID + 1) % 2 ^ 32 = _
  exact Nat.mod_mod _ _

theorem State.overflows_spec (hw : sparseWf regDefault s.regs = true) : s.counts R.PSQ_CNT_PART_OVF.N 1 s.overflows ∧
    s.overflows.flag R.PSQ_STATUS.PART_FULL = true ∧ bit (s.overflows.get R.FLD_LS_CAUSE.CAUSE) 3 = true := by
  have hb : sparseWf regDefault (s.bump R.PSQ_CNT_PART_OVF.N).regs = true := State.put_wf hw _ _
  have hl : (s.bump R.PSQ_CNT_PART_OVF.N).regsWithin [R.PSQ_STATUS] ((s.bump R.PSQ_CNT_PART_OVF.N).latch R.PSQ_STATUS.PART_FULL) :=
    (State.regsWithin_refl hb).latch (.head _)
  have hs := (State.regsWithin_refl (offs := lineStopOffsets) hl.1).lineStop (List.Subset.refl _) .sequencer
  refine ⟨?_, ?_, ?_⟩
  · have hn : s.overflows.get R.PSQ_CNT_PART_OVF.N = (s.bump R.PSQ_CNT_PART_OVF.N).get R.PSQ_CNT_PART_OVF.N :=
      (hs.get (by decide) (by decide)).trans (hl.get (by decide) (by decide))
    rw [State.counts, hn]
    exact State.counts_bump hw (Fld.ok_of rfl)
  · exact (hs.flag (by decide) (by decide)).trans (State.flag_latch hb (Fld.ok_of rfl))
  · rw [State.overflows, State.lineStop_get hl.1, bit_eq_testBit, Nat.testBit_lor]
    exact Bool.or_eq_true_iff.2 (.inr (Nat.testBit_two_pow_self (n := 3)))

theorem State.overflows_seq (s : State) : s.overflows.seq = s.seq := by
  have hl : s.changesOnly [.regs, .link, .loft] s.overflows := fun c hc => by
    have := closedRegs_of_ne (s := s) (c := c) (by rintro rfl; exact hc (by decide))
    have := closedLink_of_ne (s := s) (c := c) (by rintro rfl; exact hc (by decide))
    have := closedLoft_of_ne (s := s) (c := c) (by rintro rfl; exact hc (by decide))
    exact State.lineStop_holds (G := fun u => c.same s u) (State.latch_holds (State.bump_holds Holds.same_refl))
  exact hl .seq (by decide)

theorem State.counts_of_get {f : Fld} {n : Nat} (h : t.get f = s.get f) (hc : t.counts f n u) : s.counts f n u := by
  rwa [State.counts, ← h]

/-! ### PART_CLOSE of one lane (R62) -/

theorem State.closePart_of_unchecked (hc : (s.part i).vd.capture = none) (hs : ∀ j, (s.part j).sdgOn = false) :
    s.closePart i = s.setPart i { s.part i with core := { (s.part i).core with state := .closed } } := by
  set t := s.setPart i { s.part i with core := { (s.part i).core with state := .closed } } with ht
  have hvd (j : Nat) : (t.part j).vd = (s.part j).vd := by
    rw [ht, State.part_setPart]
    split
    · next e => rw [e]
    · rfl
  change (t.captureClose i).sdgEnqueue = t
  rw [State.captureClose_of_none ((congrArg _ (hvd i)).trans hc), State.sdgEnqueue_of_off fun j => by
    rw [Part.sdgOn, hvd]
    exact hs j]

/-- Settles O17: after the firing the lane's part is opened or closed, where nothing else of the module takes part. -/
theorem partsOpenAndClose : Obligations.PartsOpenAndClose := by
  intro s t k e m ⟨hw, _⟩ hc hd hm hlt f hj hcap hlp
  have hf : s.touchesOnly [.regs, .seq] slipOffsets f := State.firing_touchesOnly hw
  have hparts : f.seq.parts = s.seq.parts := by rw [State.firing_seq]; rfl
  have hpart : ∀ i, f.part i = s.part i := State.part_of_parts hparts
  have hlane {g : Fld} (c : Nat) (hg : g.off = c + m * 32) (h0 : 0x50400 ≤ c ∧ c < 0x50420 := by decide) : f.get g = s.get g :=
    hf.get (by omega) (by
      simp only [slipOffsets, R.PSQ_CNT_SLIP, R.PSQ_STATUS, List.mem_cons, List.not_mem_nil, or_false]
      omega)
  have hcap' : f.flag R.ADP_CAP_CFG.ENABLE = false := (hf.flag (by decide) (by decide)).trans hcap
  have hlp' : f.flag R.LPIPE_CTL.ENABLE = false := (hf.flag (by decide) (by decide)).trans hlp
  have hopen : f.partOpen e = f.openLane m e.x := by
    simp only [State.partOpen, hj, hm, List.foldl_cons, List.foldl_nil]
  have hen : f.flag (R.PSQ_LANE_CFG.ENABLE m) = s.flag (R.PSQ_LANE_CFG.ENABLE m) :=
    congrArg (· != 0) (hlane 0x50400 rfl)
  have hproof : f.sdg.proof = s.sdg.proof := congrArg SdgSt.proof (hf.same (c := .sdg))
  refine ⟨fun ha ho hp => ⟨fun he => ?disabled, fun he i dk ek hi hr => ?room, fun he hfull => ?full⟩,
    fun ha => ⟨fun ho => ?none, fun i ho hcp hsd => ?close⟩⟩
  case disabled =>
    have h : f.partOpen e = f := by rw [hopen, State.openLane_of_disabled ((hen).trans he)]
    exact exec_fired_eq exec_partOpen hd ha h (hf.calm hc)
  case room =>
    have h : f.partOpen e = f.opens m e.x i dk ek := by
      rw [hopen, State.openLane_of_room hf.wf (hen.trans he) ho (hproof.trans hp) hj hcap' hlp' hi hr]
    have hu := hf.opens (m := m) (x := e.x) (i := i) (dk := dk) (ek := ek)
    refine hu.completes (exec_fired_eq exec_partOpen hd ha h (hu.calm hc)) ?_
    obtain ⟨hlt4, hfree⟩ := State.freeEntry_spec hi
    obtain ⟨hde, hnd, hne⟩ := State.trackRoom_spec hr
    have hid : f.get R.PART_NEXT_ID.ID = s.get R.PART_NEXT_ID.ID := hf.get (by decide) (by decide)
    have hdec : f.get (R.PSQ_LANE_DEC_OFF.N m) = s.get (R.PSQ_LANE_DEC_OFF.N m) := hlane 0x50408 rfl
    have hon : f.get (R.PSQ_LANE_ON_OFF.N m) = s.get (R.PSQ_LANE_ON_OFF.N m) := hlane 0x5040C rfl
    have hnew : (f.opens m e.x i dk ek).part i = f.newPart m e.x dk ek := by rw [State.opens_part, if_pos rfl]
    have hdk := State.opens_entry f m e.x i dk ek dk
    have hek := State.opens_entry f m e.x i dk ek ek
    rw [if_neg (Nat.ne_of_lt hde), if_pos rfl, hdec] at hdk
    rw [if_pos rfl, hon] at hek
    rw [hnew, hdk, hek, State.opens_nextId hf.wf, hid]
    refine ⟨State.forget_congr (hf.same (c := .lp)) (hf.same (c := .cores)) (hf.same (c := .lists)) (hf.same (c := .jobs))
      (hf.same (c := .flock)) i, rfl, rfl, rfl, hid, rfl, hdec, hon, hlane 0x50410 rfl, hlane 0x50400 rfl, rfl, rfl, rfl, rfl, rfl, rfl, rfl,
      hlt4, hpart i ▸ hfree, hde, hnd, hne, fun j hj => ?_⟩
    rw [State.opens_part, if_neg hj, hpart]
  case full =>
    have h : f.partOpen e = f.overflows := by rw [hopen, State.openLane_of_full (hen.trans he) ho hfull]
    have hu := hf.overflows
    obtain ⟨hcnt, hflag, hbit⟩ := State.overflows_spec hf.wf
    refine hu.completes (exec_fired_eq exec_partOpen hd ha h (hu.calm hc)) ⟨?_, hflag, hbit, ?_⟩
    · exact State.counts_of_get (hf.get (by decide) (by decide)) hcnt
    · rw [State.overflows_seq, hparts]
  case none =>
    have h : f.partClose e = f.bump R.PSQ_CNT_CLOSE_NONE.N := by simp only [State.partClose, hm, List.foldl_cons, List.foldl_nil, ho]
    have hu : s.touchesOnly [.regs, .seq] [R.PSQ_CNT_SLIP, R.PSQ_STATUS, R.PSQ_CNT_CLOSE_NONE] (f.bump R.PSQ_CNT_CLOSE_NONE.N) :=
      (hf.mono (offs' := [R.PSQ_CNT_SLIP, R.PSQ_STATUS, R.PSQ_CNT_CLOSE_NONE]) (List.Subset.refl _) (by decide)).bump
    refine hu.completes (exec_fired_eq exec_partClose hd ha h (hu.calm hc)) ⟨?_, hparts⟩
    exact State.counts_of_get (hf.get (by decide) (by decide)) (State.counts_bump hf.wf (Fld.ok_of rfl))
  case close =>
    have h : f.partClose e = f.setPart i { f.part i with core := { (f.part i).core with state := .closed } } := by
      simp only [State.partClose, hm, List.foldl_cons, List.foldl_nil, ho]
      rw [State.closePart_of_unchecked (by rwa [hpart]) fun j => by rw [hpart, hsd]]
    have hu : s.touchesOnly [.regs, .seq] slipOffsets (f.setPart i { f.part i with core := { (f.part i).core with state := .closed } }) :=
      State.touchesOnly.setPart hf i _
    refine hu.completes (exec_fired_eq exec_partClose hd ha h (hu.calm hc)) ⟨?_, fun j hj => ?_⟩
    · rw [State.part_setPart, if_pos rfl, hpart]
    · rw [State.part_setPart, if_neg hj, hpart]

end Sys2Proof.Machine
end

section
/-! PROOFS, the eject path of the sequencer: EJECT_PASS, PULSE, corrections and reports (R68-R78, R508), and what settles O19. -/

namespace Sys2Proof.Machine

variable {s t u : State} {i j k q x on off : Nat} {f : Frame} {e : EdgeSrc} {b : PosBase} {cs : List Comp} {offs : List Nat}

/-! ### What goes out and what is recorded -/

/-- A frame that is sent reaches the downlink but while the test access port has the isolator pins (R503). -/
theorem State.sendDown_down (s : State) (m : DownMsg) : (s.sendDown m).link.down = s.link.down ++ s.onPins [⟨s.link.downSeq, m⟩] := by
  unfold State.sendDown State.onPins
  dsimp only
  cases s.pinsTaken
  · rfl
  · exact (List.append_nil _).symm

theorem State.onPins_congr {α : Type} (hb : t.boot = s.boot) (hr : t.reg R.GLB_STATUS = s.reg R.GLB_STATUS) (fs : List α) :
    t.onPins fs = s.onPins fs := by
  have hflag (f : Fld) (hf : f.off = R.GLB_STATUS) : t.flag f = s.flag f := congrArg (· != 0) (State.get_of_reg (by rw [hf, hr]))
  rw [State.onPins, State.pinsTaken_congr (congrArg _ hb) (hflag _ rfl) (hflag _ rfl), State.onPins]

theorem State.loftPush_seq (s : State) (i : LoftItem) : (s.loftPush i).seq = s.seq := by
  unfold State.loftPush
  split <;> rfl

/-! ### Registers that a firing leaves (R57) -/

theorem State.slips_get (hw : sparseWf regDefault s.regs = true) {g : Fld} (hn : g.off ≠ R.PSQ_CNT_SLIP) (hs : g.off ≠ R.PSQ_STATUS)
    (ht : g.off ≠ R.PSQ_STATUS + 0x400000) (t : Nat) : (s.slips t).get g = s.get g := by
  have hput {u : State} (hu : sparseWf regDefault u.regs = true) {h : Fld} (hk : h.ok) (ho : g.off ≠ h.off) (v : Nat) :
      (u.put h v).get g = u.get g :=
    State.get_put_apart hu hk (.inl ho) v
  unfold State.slips
  dsimp only
  split
  · rfl
  · unfold State.latch State.latchBits State.bumpBy
    rw [hput (State.put_wf (State.put_wf hw _ _) _ _) (Fld.ok_of rfl) ht, hput (State.put_wf hw _ _) (Fld.ok_of rfl) hs,
      hput hw (Fld.ok_of rfl) hn]

/-- ADV_US of an output stands clear of the registers that show slips, whatever the output. -/
theorem State.firing_adv (hw : sparseWf regDefault s.regs = true) (t k : Nat) (e : SeqEntry) (q : Nat) :
    (s.firing t k e).adv q = s.get (R.PSQ_Q_MODE.ADV_US q) * 1000 := by
  have ho : (R.PSQ_Q_MODE.ADV_US q).off = 0x50C00 + q * 16 := rfl
  have hs : R.PSQ_STATUS + 0x400000 = 0x450004 := rfl
  rw [State.firing_eq, State.adv, State.slips_get (s := { s with seq := s.seqAfter t k e }) hw (by rw [ho, R.PSQ_CNT_SLIP]; omega)
    (by rw [ho, R.PSQ_STATUS]; omega) (by rw [ho, hs]; omega)]
  rfl

/-! ### EJECT_PASS of an ARMED part (R73) -/

/-- The residual of a part that passes. -/
def State.residualOf (s : State) (p : Part) : Int := sat32 (diff64 s.dtime (u64 (p.core.onDtime + s.adv p.core.channel)))

theorem State.ejectPass_of_armed (h : (s.part i).core.state = .armed) : s.ejectPass i =
    ((s.setPart i { s.part i with core := { (s.part i).core with residual := s.residualOf (s.part i) } }).loftValue
      (16 + (s.part i).core.channel) (s.residualOf (s.part i)) (s.part i).core.id).loftValue
      (32 + (s.part i).core.channel) (s.residualOf (s.part i)) (s.part i).core.id := by
  simp only [State.ejectPass, h]
  rfl

theorem State.ejectPass_part (h : (s.part i).core.state = .armed) (j : Nat) : (s.ejectPass i).part j =
    if j = i then { s.part i with core := { (s.part i).core with residual := s.residualOf (s.part i) } } else s.part j := by
  rw [State.ejectPass_of_armed h, State.part_of_parts (s := s.setPart i _)
    (by rw [State.loftValue, State.loftValue, State.loftPush_seq, State.loftPush_seq]),
    State.part_setPart]

theorem State.touchesOnly.ejectPass (h : s.touchesOnly [.regs, .seq] slipOffsets t) (ha : (t.part i).core.state = .armed) :
    s.touchesOnly [.regs, .seq, .loft] (slipOffsets ++ lineStopOffsets) (t.ejectPass i) := by
  have h' : s.touchesOnly [.regs, .seq, .loft] (slipOffsets ++ lineStopOffsets) t := h.mono (by decide) (by decide)
  rw [State.ejectPass_of_armed ha]
  exact ((h'.setPart i _).loftPush _).loftPush _

/-! ### PULSE (R508) -/

theorem State.offer_of_none (h : s.movingBase = none) (q : Nat) (e : EdgeSrc) :
    s.offer q e = { s with seq := { s.seq with waiting := s.seq.waiting ++ [(q, e)] } } := by
  simp only [State.offer, h]

/-- The frame of a PULSE that nothing holds back. -/
def State.pulseFrame (s : State) (q on off : Nat) (e : EdgeSrc) : Frame :=
  { tag := s.freshTag, channel := q, srcs := [e], on := on, off := off, behind := none, minOff := s.minOff q }

/-- With no frame pending on the output, the lead kept and room in the edge queue, EDGE_NEW is sent (R69, R72). -/
theorem State.offer_of_clear (hb : s.movingBase = some b) (hp : s.pendingOf q = none) (ho : e.owner = none)
    (hl : 502000 ≤ diff64 (s.edgesOf b q e).1 (e.fired.getD s.dtime)) (hn : s.edgesPending + 2 ≤ 4096) :
    let g := s.pulseFrame q (s.edgesOf b q e).1 (s.edgesOf b q e).2 e
    s.offer q e = State.sendDown { s with seq := { s.seq with nextTag := (g.tag + 1) % 65536, frames := s.seq.frames ++ [g] } } g.newMsg := by
  have harm (u : State) (g : Frame) (hg : g.srcs = [e]) : u.armOwners g = u := by
    simp only [State.armOwners, hg, List.foldl_cons, List.foldl_nil, ho]
  simp only [State.offer, hb, State.offerWith, hp, State.sendNew, State.pulseFrame]
  rw [if_neg (by omega), if_neg (by omega), if_neg (by simp), harm _ _ rfl]

/-! ### A firing leaves what frames are computed from -/

theorem State.firing_movingBase (hw : sparseWf regDefault s.regs = true) (t k : Nat) (e : SeqEntry) :
    (s.firing t k e).movingBase = s.movingBase := by
  have hf : s.touchesOnly [.regs, .seq] slipOffsets (s.firing t k e) := State.firing_touchesOnly hw
  have hpos : (s.firing t k e).pos = s.pos := hf.same (c := .pos)
  rw [State.movingBase, hpos, hf.flag (f := R.POS_STATUS.POS_LOST) (by decide) (by decide), State.movingBase]

theorem State.firing_frames (hw : sparseWf regDefault s.regs = true) (t k : Nat) (e : SeqEntry) :
    (s.firing t k e).pendingOf = s.pendingOf ∧ (s.firing t k e).edgesPending = s.edgesPending ∧ (s.firing t k e).freshTag = s.freshTag := by
  have hdt : (s.firing t k e).dtime = s.dtime := (State.firing_touchesOnly hw).same (c := .dtime)
  refine ⟨funext fun q => ?_, ?_, ?_⟩
  · rw [State.pendingOf, State.firing_seq, hdt]
    rfl
  · rw [State.edgesPending, State.firing_seq, hdt]
    rfl
  · rw [State.freshTag, State.firing_seq]
    rfl

/-! ### EDGE_RECOMPUTE of one frame (R78) -/

/-- The new base has been taken up. -/
def State.baseTaken (s : State) : State := { s with pos := { s.pos with newBase := false } }

theorem State.offerWaiting_of_none (h : s.seq.waiting = []) : s.offerWaiting = s := by
  have hs : { s with seq := { s.seq with waiting := [] } } = s := by rw [← h]
  unfold State.offerWaiting
  split
  · rfl
  · dsimp only
    rw [h, List.foldl_nil, hs]

theorem exec_edgeRecompute_idle (h : s.pos.newBase = false) : exec .edgeRecompute s = .next s := by
  rw [exec_edgeRecompute, execEdgeRecompute, h]
  rfl

theorem exec_edgeRecompute_none (h : s.pos.newBase = true) (hf : s.seq.frames = []) (hw : s.seq.waiting = []) :
    exec .edgeRecompute s = .next s.baseTaken := by
  rw [exec_edgeRecompute, execEdgeRecompute, h]
  change Host.Outcome.next (State.offerWaiting ((s.seq.frames.map (·.tag)).foldl _ s.baseTaken)) = _
  rw [hf]
  exact congrArg Host.Outcome.next (State.offerWaiting_of_none (s := s.baseTaken) hw)

theorem exec_edgeRecompute_one (h : s.pos.newBase = true) (hf : s.seq.frames = [f]) (hc : s.baseTaken.correct f = u)
    (hw : u.seq.waiting = []) : exec .edgeRecompute s = .next u := by
  have hfind : s.baseTaken.seq.frames.find? (fun g => g.tag == f.tag) = some f := by
    change s.seq.frames.find? _ = _
    simp [hf]
  rw [exec_edgeRecompute, execEdgeRecompute, h]
  change Host.Outcome.next (State.offerWaiting ((s.seq.frames.map (·.tag)).foldl _ s.baseTaken)) = _
  rw [hf, List.map_cons, List.map_nil, List.foldl_cons, List.foldl_nil]
  simp only [hfind, hc, State.offerWaiting_of_none hw]

/-- A lone frame, replaced. -/
theorem State.setFrame_of_one (hf : s.seq.frames = [f]) {g : Frame} (ht : g.tag = f.tag) :
    s.setFrame g = { s with seq := { s.seq with frames := [g] } } := by
  simp [State.setFrame, hf, ht]

theorem State.armOwners_of_one (hs : f.srcs = [e]) : ∃ ps, s.armOwners f = { s with seq := { s.seq with parts := ps } } := by
  simp only [State.armOwners, hs, List.foldl_cons, List.foldl_nil]
  cases e.owner with
  | none => exact ⟨_, rfl⟩
  | some i => exact ⟨_, rfl⟩

/-- The edges of a frame of one source that is delayed behind none are those of its source. -/
theorem State.recomputed_of_one (hs : f.srcs = [e]) (hb : f.behind = none) : s.recomputed b f = s.edgesOf b f.channel e := by
  simp only [State.recomputed, hs, hb, List.foldl_nil, State.edgesOf]
  cases e.offPos <;> simp

/-! ### Corrections of a lone frame -/

/-- No edges can be computed. -/
theorem State.correct_slow (hc : f.cancelled = false) (hb : s.movingBase = none) : s.correct f =
    if f.held || decide (diff64 f.off s.dtime ≤ 0) then s else (s.setFrame { f with parked := true, held := true }).sendDown f.holdMsg := by
  unfold State.correct
  rw [if_neg (by simp [hc])]
  simp only [hb]

/-- Edges can be computed, of a frame that is not parked. -/
theorem State.correct_moving (hc : f.cancelled = false) (hp : f.parked = false) (hb : s.movingBase = some b) {r : Nat × Nat}
    (hr : s.recomputed b { f with held := false } = r) : s.correct f =
      let cOn := s.correctable f.on r.1
      let cOff := s.correctable f.off r.2
      let th : Int := s.get R.PSQ_CORR.THRESH_NS
      let g : Frame := { f with held := false, on := if cOn then r.1 else f.on, off := if cOff then r.2 else f.off }
      if (cOn && decide (((diff64 r.1 f.on).natAbs : Int) ≥ th)) || (cOff && decide (((diff64 r.2 f.off).natAbs : Int) ≥ th)) then
        ((s.setFrame g).armOwners g).sendDown g.corrMsg
      else s.setFrame { f with held := false } := by
  unfold State.correct
  rw [if_neg (by simp [hc])]
  simp only [hb, hr]
  rw [if_neg (by simp [hp])]

/-- A lone frame that is not corrected stays as it is. -/
theorem State.correct_of_held (hc : f.cancelled = false) (hb : s.movingBase = none) (hh : f.held = true) : s.correct f = s := by
  simp [State.correct, hc, hb, hh]

theorem State.correct_of_slow (hc : f.cancelled = false) (hb : s.movingBase = none) (hh : f.held = false) (ho : 0 < diff64 f.off s.dtime)
    (hf : s.seq.frames = [f]) : s.correct f =
      State.sendDown { s with seq := { s.seq with frames := [{ f with parked := true, held := true }] } } f.holdMsg := by
  have hfr := State.setFrame_of_one (g := { f with parked := true, held := true }) hf rfl
  rw [State.correct_slow hc hb, if_neg (by simpa [hh] using ho), hfr]

theorem State.correct_of_moved (hc : f.cancelled = false) (hp : f.parked = false) (hb : s.movingBase = some b) (hs : f.srcs = [e])
    (hd : f.behind = none) (hf : s.seq.frames = [f]) (hon : s.correctable f.on (s.edgesOf b f.channel e).1 = true)
    (hoff : s.correctable f.off (s.edgesOf b f.channel e).2 = true)
    (hm : s.get R.PSQ_CORR.THRESH_NS ≤ (diff64 (s.edgesOf b f.channel e).1 f.on).natAbs) :
    let g : Frame := { f with held := false, on := (s.edgesOf b f.channel e).1, off := (s.edgesOf b f.channel e).2 }
    ∃ ps, s.correct f = State.sendDown { s with seq := { s.seq with frames := [g], parts := ps } } g.corrMsg := by
  intro g
  have hfr := State.setFrame_of_one (g := g) hf rfl
  have hrec : s.recomputed b { f with held := false } = s.edgesOf b f.channel e := State.recomputed_of_one hs hd
  obtain ⟨ps, hps⟩ := State.armOwners_of_one (s := { s with seq := { s.seq with frames := [g] } }) (f := g) hs
  refine ⟨ps, ?_⟩
  rw [State.correct_moving hc hp hb hrec]
  simp only [hon, hoff, Bool.true_and, if_true]
  rw [if_pos (Bool.or_eq_true_iff.2 (.inl (decide_eq_true (by exact_mod_cast hm)))), hfr, hps]

/-- Both edges move by less than the threshold. -/
theorem State.correct_of_still (hc : f.cancelled = false) (hp : f.parked = false) (hh : f.held = false) (hb : s.movingBase = some b)
    (hs : f.srcs = [e]) (hd : f.behind = none) (hf : s.seq.frames = [f])
    (hon : (diff64 (s.edgesOf b f.channel e).1 f.on).natAbs < s.get R.PSQ_CORR.THRESH_NS)
    (hoff : (diff64 (s.edgesOf b f.channel e).2 f.off).natAbs < s.get R.PSQ_CORR.THRESH_NS) : s.correct f = s := by
  have hg : { f with held := false } = f := by rw [← hh]
  have hrec : s.recomputed b f = s.edgesOf b f.channel e := State.recomputed_of_one hs hd
  have hfr : s.setFrame f = s := by
    rw [State.setFrame_of_one hf rfl, ← hf]
  rw [State.correct_moving hc hp hb (hg ▸ hrec), hg, hfr]
  dsimp only
  rw [if_neg]
  simp only [Bool.or_eq_true, Bool.and_eq_true, decide_eq_true_eq]
  omega

/-! ### The end of a frame (R74) -/

theorem State.dropPartEntry_seq (s : State) (i k a : Nat) : ∃ es, (s.dropPartEntry i k a).seq = { s.seq with entries := es } := by
  unfold State.dropPartEntry
  split
  · split <;> exact ⟨_, rfl⟩
  · exact ⟨_, rfl⟩

/-- A part that ends frees its entry; other parts and the frames stay. -/
theorem State.freePart_seq (s : State) (i : Nat) : ∃ es, (s.freePart i).seq =
    { s.seq with entries := es, parts := keyPut s.seq.parts i { core := { (s.part i).core with state := .free } } } := by
  have ht : (if (s.part i).vd.capture.isSome then s.bump R.ADP_CAP_DROPPED.N else s).seq = s.seq := by split <;> rfl
  obtain ⟨ds, hd⟩ := State.dropPartEntry_seq (if (s.part i).vd.capture.isSome then s.bump R.ADP_CAP_DROPPED.N else s) i (s.part i).core.decIdx 6
  obtain ⟨es, he⟩ := State.dropPartEntry_seq (State.dropPartEntry (if (s.part i).vd.capture.isSome then s.bump R.ADP_CAP_DROPPED.N else s)
    i (s.part i).core.decIdx 6) i (s.part i).core.ejectIdx 7
  refine ⟨es, ?_⟩
  rw [hd, ht] at he
  unfold State.freePart
  extract_lets p t w
  change { w.seq with parts := keyPut w.seq.parts i { core := { p.core with state := .free } } } = _
  rw [show w.seq = _ from he]

/-- A part's record posted, its entry not yet freed. -/
def State.posted (s : State) (i : Nat) : State :=
  let p := s.part i
  let code := p.core.verdict.getD 7
  let r := s.record p code
  (r.2.postVerdict p.core.job code r.1).loftValue 0 code p.core.id

theorem State.finish_eq (s : State) (i : Nat) : s.finish i = (s.posted i).freePart i := by
  unfold State.finish State.posted
  dsimp only

/-- The record and its posting leave the sequencer alone. -/
theorem State.posted_seq (s : State) (i : Nat) : (s.posted i).seq = s.seq := by
  unfold State.posted
  extract_lets p code r
  have hrec : r.2.seq = s.seq := by
    have := closedFree_of_ne (s := s) (c := .seq) (by decide)
    exact State.record_holds (G := fun u => Comp.seq.same s u) Holds.same_refl
  refine (State.loftPush_seq _ _).trans (Eq.trans ?_ hrec)
  have := closedRegs_of_ne (s := r.2) (c := .seq) (by decide)
  have := closedHost_of_ne (s := r.2) (c := .seq) (by decide)
  have := closedClient_of_ne (s := r.2) (c := .seq) (by decide)
  exact State.postVerdict_holds (G := fun u => Comp.seq.same r.2 u) Holds.same_refl

theorem State.finish_seq (s : State) (i : Nat) : ∃ es, (s.finish i).seq =
    { s.seq with entries := es, parts := keyPut s.seq.parts i { core := { (s.part i).core with state := .free } } } := by
  have hseq := s.posted_seq i
  obtain ⟨es, h⟩ := State.freePart_seq (s.posted i) i
  exact ⟨es, by rw [State.finish_eq, h, State.part_of_parts (congrArg _ hseq), hseq]⟩

theorem State.finish_frames (s : State) (i : Nat) : (s.finish i).seq.frames = s.seq.frames := by
  obtain ⟨es, h⟩ := State.finish_seq s i
  rw [h]

theorem State.finish_core (s : State) (i j : Nat) :
    ((s.finish i).part j).core = if j = i then { (s.part i).core with state := .free } else (s.part j).core := by
  obtain ⟨es, h⟩ := State.finish_seq s i
  rw [State.part, h, keyGet_keyPut]
  split <;> rfl

/-- The end of a frame, for one of its sources. -/
def State.endOwner (s : State) (e : EdgeSrc) : State :=
  match e.owner with
  | some i => if (s.part i).core.state != .free then s.finish i else s
  | none => s

theorem State.endFrame_eq (s : State) (f : Frame) : s.endFrame f = f.srcs.foldl State.endOwner
    { s with seq := { s.seq with frames := s.seq.frames.filter (fun g => g.tag != f.tag) } } := rfl

theorem State.endOwner_frames (s : State) (e : EdgeSrc) : (s.endOwner e).seq.frames = s.seq.frames := by
  unfold State.endOwner
  split
  · split
    · exact State.finish_frames ..
    · rfl
  · rfl

theorem State.endOwner_core (s : State) (e : EdgeSrc) (j : Nat) : ((s.endOwner e).part j).core =
    if e.owner = some j then { (s.part j).core with state := .free } else (s.part j).core := by
  unfold State.endOwner
  split
  · next i hi =>
    rw [hi]
    by_cases hj : j = i
    · subst hj
      rw [if_pos rfl]
      split
      · rw [State.finish_core, if_pos rfl]
      · next hfree =>
        have hst : (s.part j).core.state = .free := by simpa using hfree
        rw [← hst]
    · rw [if_neg (c := some i = some j) (by simpa using Ne.symm hj)]
      split
      · rw [State.finish_core, if_neg hj]
      · rfl
  · next hn => simp [hn]

theorem State.foldl_endOwner_frames : ∀ (es : List EdgeSrc) (s : State), (es.foldl State.endOwner s).seq.frames = s.seq.frames
  | [], _ => rfl
  | e :: es, s => (State.foldl_endOwner_frames es (s.endOwner e)).trans (State.endOwner_frames s e)

theorem State.foldl_endOwner_core (j : Nat) : ∀ (es : List EdgeSrc) (s : State), ((es.foldl State.endOwner s).part j).core =
    if ∃ e ∈ es, e.owner = some j then { (s.part j).core with state := .free } else (s.part j).core
  | [], _ => by simp
  | e :: es, s => by
    rw [List.foldl_cons, State.foldl_endOwner_core j es, State.endOwner_core]
    by_cases he : e.owner = some j <;> by_cases hes : ∃ x ∈ es, x.owner = some j <;> simp [he, hes]

/-- A bit that is set in FLAGS. -/
theorem Part.flag_bit (p : Part) (k : Nat) : bit (p.flag k).core.flags k = true := by
  unfold Part.flag
  split
  · assumption
  · next h =>
    rw [bit_eq_testBit] at h
    dsimp only
    rw [bit_eq_testBit, add_two_pow_eq_lor (by simpa using h), Nat.testBit_lor, Nat.testBit_two_pow_self, Bool.or_true]

theorem State.flagOwner_seq (s : State) (e : EdgeSrc) (k : Nat) : ∃ ps, s.flagOwner e k = { s with seq := { s.seq with parts := ps } } := by
  unfold State.flagOwner
  cases e.owner <;> exact ⟨_, rfl⟩

theorem State.flagOwner_bit (e : EdgeSrc) (k : Nat) (h : e.owner = some j ∨ bit (s.part j).core.flags k = true) :
    bit ((s.flagOwner e k).part j).core.flags k = true := by
  unfold State.flagOwner
  cases ho : e.owner with
  | none => exact h.resolve_left (by simp [ho])
  | some i =>
    dsimp only
    rw [State.part_setPart]
    split
    · exact Part.flag_bit ..
    · next hj => exact h.resolve_left (by simpa [ho] using Ne.symm hj)

theorem State.foldl_flagOwner (j k : Nat) : ∀ (es : List EdgeSrc) (s : State),
    (∃ e ∈ es, e.owner = some j) ∨ bit (s.part j).core.flags k = true →
    bit ((es.foldl (fun s e => s.flagOwner e k) s).part j).core.flags k = true
  | [], _, h => h.resolve_left (by simp)
  | e :: es, s, h => by
    refine State.foldl_flagOwner j k es (s.flagOwner e k) ?_
    rw [List.exists_mem_cons_iff, or_assoc, or_left_comm] at h
    exact h.imp_right (State.flagOwner_bit e k)

theorem State.flagFrame_frames (f : Frame) (k : Nat) (s : State) : (s.flagFrame f k).seq.frames = s.seq.frames := by
  unfold State.flagFrame
  induction f.srcs generalizing s with
  | nil => rfl
  | cons e es ih =>
    obtain ⟨ps, h⟩ := State.flagOwner_seq s e k
    rw [List.foldl_cons, ih, h]

/-- A frame that ends with a flag leaves the pending set; its parts are FREE and have the flag. -/
theorem State.endFlagged_spec (s : State) (f : Frame) (k : Nat) : let u := (s.flagFrame f k).endFrame f
    u.seq.frames = s.seq.frames.filter (fun g => g.tag != f.tag) ∧
    ∀ e ∈ f.srcs, ∀ j, e.owner = some j → (u.part j).core.state = .free ∧ bit (u.part j).core.flags k = true := by
  refine ⟨?_, fun e he j ho => ?_⟩
  · rw [State.endFrame_eq, State.foldl_endOwner_frames, State.flagFrame_frames]
  · rw [State.endFrame_eq, State.foldl_endOwner_core, if_pos ⟨e, he, ho⟩]
    exact ⟨rfl, State.foldl_flagOwner j k f.srcs s (.inl ⟨e, he, ho⟩)⟩

/-! ### The obligation -/

/-- What a PULSE entry offers, on the tick `dt`. -/
def SeqEntry.pulseSrc (e : SeqEntry) (dt : Nat) : EdgeSrc :=
  { owner := none, onPos := u64 (e.x + bits e.param 63 36 * 1000), offPos := none, width := bits e.param 35 16 * 1000, fired := some dt }

theorem exec_pulse_eq {k : Nat} {e : SeqEntry} (hd : s.nextDue = some (j, k, e)) (ha : e.action = 8)
    (h : (s.firing j k e).offer (bits e.param 3 0) (e.pulseSrc (s.firing j k e).dtime) = u) (hc : u.calm) : exec .pulse s = .next u :=
  exec_fired_eq exec_pulse hd ha h hc

/-- The edges of a PULSE (R508). -/
theorem State.edgesOf_pulse (s : State) (b : PosBase) (q : Nat) (e : SeqEntry) (dt : Nat) :
    (s.edgesOf b q (e.pulseSrc dt)).2 = u64 ((s.edgesOf b q (e.pulseSrc dt)).1 + bits e.param 35 16 * 1000) := rfl

/-- A frame sent from a state that has the link and the pins of another. -/
theorem State.sendDown_down_of (hl : t.link = s.link) (hb : t.boot = s.boot) (hr : t.reg R.GLB_STATUS = s.reg R.GLB_STATUS) (m : DownMsg) :
    (t.sendDown m).link.down = s.link.down ++ s.onPins [⟨s.link.downSeq, m⟩] := by
  rw [State.sendDown_down, State.onPins_congr hb hr, hl]

theorem State.touchesOnly_baseTaken (hw : sparseWf regDefault s.regs = true) : s.touchesOnly [.pos, .seq, .link] [] s.baseTaken :=
  State.touchesOnly.pos (State.touchesOnly_refl hw) _

/-- Settles O19: the three commands of a frame, in the state that the firing or the new base leaves. -/
theorem ejectPassPulseAndReports : Obligations.EjectPassPulseAndReports := by
  intro s ⟨hw, _⟩ hc
  have hfire (t k : Nat) (e : SeqEntry) : s.touchesOnly [.regs, .seq] slipOffsets (s.firing t k e) := State.firing_touchesOnly hw
  have hparts (t k : Nat) (e : SeqEntry) (i : Nat) : (s.firing t k e).part i = s.part i :=
    State.part_of_parts (by rw [State.firing_seq]; rfl) i
  refine ⟨fun t k e hd ha hst => ?ejectPass, fun t k e hd ha => ?pulse, exec_edgeRecompute_idle, exec_edgeRecompute_none,
    fun f src hn hf hwt hp hcn hs hb => ?recompute, fun hall => ?inTime, fun f hf => ?late⟩
  case ejectPass =>
    intro i p
    have harm : ((s.firing t k e).part i).core.state = .armed := by rw [hparts, hst]
    have hu := (hfire t k e).ejectPass harm
    refine hu.completes (exec_fired_eq exec_ejectPass hd ha rfl (hu.calm hc)) ⟨?_, fun j hj => ?_⟩
    · rw [State.ejectPass_part harm, if_pos rfl, hparts, State.residualOf, State.firing_adv hw, (hfire t k e).same (c := .dtime)]
    · rw [State.ejectPass_part harm, if_neg hj, hparts]
  case pulse =>
    intro q src
    have hbase := State.firing_movingBase hw t k e
    obtain ⟨hpend, hedges, htag⟩ := State.firing_frames hw t k e
    have hdt : (s.firing t k e).dtime = s.dtime := (hfire t k e).same (c := .dtime)
    have hlink : (s.firing t k e).link = s.link := (hfire t k e).same (c := .link)
    have hglb : (s.firing t k e).reg R.GLB_STATUS = s.reg R.GLB_STATUS := (hfire t k e).2.2 _ (by decide) (by decide)
    refine ⟨fun hb => ?_, fun b hb hp hn => ?_⟩
    · have hu : s.touchesOnly [.regs, .seq] slipOffsets ((s.firing t k e).offer q (e.pulseSrc (s.firing t k e).dtime)) := by
        rw [State.offer_of_none (hbase.trans hb)]
        exact (hfire t k e).seq _
      refine hu.completes (exec_pulse_eq hd ha rfl (hu.calm hc)) ?_
      rw [State.offer_of_none (hbase.trans hb), State.firing_seq, hdt]
      rfl
    · intro on hl
      have hon : ((s.firing t k e).edgesOf b q (e.pulseSrc s.dtime)).1 = on := by
        rw [State.edgesOf, State.firing_adv hw]
        rfl
      have h := State.offer_of_clear (s := s.firing t k e) (q := q) (e := e.pulseSrc s.dtime) (hbase.trans hb) (by rwa [hpend]) rfl
        (by rw [hon]; exact hl) (by rwa [hedges])
      rw [State.edgesOf_pulse, hon] at h
      have hu : s.touchesOnly [.regs, .seq, .link] slipOffsets ((s.firing t k e).offer q (e.pulseSrc (s.firing t k e).dtime)) := by
        rw [hdt, h]
        exact (((hfire t k e).mono (ds := [.regs, .seq, .link]) (by decide) (List.Subset.refl _)).seq _).sendDown _
      refine hu.completes (exec_pulse_eq hd ha rfl (hu.calm hc)) ?_
      rw [hdt, h]
      refine (State.sendDown_down_of (s := s) hlink ((hfire t k e).same (c := .boot)) hglb _).trans ?_
      rw [Frame.newMsg, State.pulseFrame, htag]
  case recompute =>
    have hu : s.touchesOnly [.pos, .seq, .link] [] s.baseTaken := State.touchesOnly_baseTaken hw
    refine ⟨fun hm hh => ?held, fun hm hh ho => ?slow, fun b' hm => ?moving⟩
    case held => exact exec_edgeRecompute_one hn hf (State.correct_of_held hcn hm hh) hwt
    case slow =>
      have h := State.correct_of_slow (s := s.baseTaken) hcn hm hh ho hf
      exact ((hu.seq _).sendDown _).completes (exec_edgeRecompute_one hn hf h hwt) ⟨rfl, State.sendDown_down_of (s := s) rfl rfl rfl _⟩
    case moving =>
      intro on off ahead
      refine ⟨fun h1 h2 h3 h4 hth => ?moved, fun hh h1 h2 => ?still⟩
      case moved =>
        obtain ⟨ps, h⟩ := State.correct_of_moved (s := s.baseTaken) hcn hp hm hs hb hf
          (Bool.and_eq_true_iff.2 ⟨decide_eq_true h1, decide_eq_true h2⟩) (Bool.and_eq_true_iff.2 ⟨decide_eq_true h3, decide_eq_true h4⟩) hth
        exact ((hu.seq _).sendDown _).completes (exec_edgeRecompute_one hn hf h hwt) ⟨rfl, State.sendDown_down_of (s := s) rfl rfl rfl _⟩
      case still => exact exec_edgeRecompute_one hn hf (State.correct_of_still (s := s.baseTaken) hcn hp hh hm hs hb hf h1 h2) hwt
  case inTime =>
    have hnone : s.seq.frames.find? (fun f => !f.parked && decide (diff64 s.dtime f.off ≥ 2000000)) = none := by
      refine List.find?_eq_none.2 fun f hf => ?_
      rcases hall f hf with h | h
      · simp [h]
      · simp [h]
    rw [exec_edgeReportTimeout, execEdgeReportTimeout, hnone]
  case late =>
    have he : exec .edgeReportTimeout s = .next ((s.flagFrame f 5).endFrame f) := by
      rw [exec_edgeReportTimeout, execEdgeReportTimeout, hf]
    obtain ⟨hframes, hend⟩ := State.endFlagged_spec s f 5
    exact ⟨_, he, exec_changesOnly _ _ _ he, hframes, fun x hx i ho _ => hend x hx i ho⟩

end Sys2Proof.Machine
end

section
/-! SUPPORT. The logic side of the field link: the causes bit by bit, and the frames that an operation sends (R410, R420-R423). -/

namespace Sys2Proof.Machine

variable {s t u : State} {ms ns : List DownMsg} {k : Nat}

/-! ### Masks -/

theorem testBit_foldl_set (j : Nat) : ∀ (ks : List Nat) (a : Nat),
    (ks.foldl (fun a k => if bit a k then a else a + 2 ^ k) a).testBit j = (a.testBit j || decide (j ∈ ks))
  | [], a => by simp
  | k :: ks, a => by
    have hstep : (if bit a k then a else a + 2 ^ k) = a ||| 2 ^ k := by
      rw [bit_eq_testBit]
      split
      · next h => exact (lor_two_pow_of_testBit h).symm
      · next h => exact add_two_pow_eq_lor (by simpa using h)
    rw [List.foldl_cons, testBit_foldl_set j ks, hstep, Nat.testBit_lor, Nat.testBit_two_pow, Bool.or_assoc]
    simp only [List.mem_cons, Bool.decide_or, eq_comm]

theorem bit_maskOf (ks : List Nat) (j : Nat) : bit (maskOf ks) j = decide (j ∈ ks) := by
  rw [bit_eq_testBit, maskOf, testBit_foldl_set, Nat.zero_testBit, Bool.false_or]

theorem maskOf_lt {ks : List Nat} {n : Nat} (h : ∀ k ∈ ks, k < n) : maskOf ks < 2 ^ n :=
  Nat.lt_pow_two_of_testBit _ fun j hj => by
    rw [← bit_eq_testBit, bit_maskOf]
    exact decide_eq_false fun hm => absurd (h j hm) (by omega)

/-! ### Causes, bit by bit (R423) -/

theorem State.lineStop_bit (hw : sparseWf regDefault s.regs = true) (c : Cause) (k : Nat) :
    bit ((s.lineStop c).get R.FLD_LS_CAUSE.CAUSE) k = (bit (s.get R.FLD_LS_CAUSE.CAUSE) k || k == c.bitNo) := by
  rw [State.lineStop_get hw, bit_eq_testBit, bit_eq_testBit, Nat.testBit_lor, Nat.testBit_two_pow, beq_eq_decide]
  simp only [eq_comm]

/-- A change of the causes leaves the link but for what it sends. -/
theorem State.setCauses_link (s : State) (new : Nat) : ∃ d q n, (s.setCauses new).link = { s.link with down := d, downSeq := q, sent := n } := by
  by_cases he : s.get R.FLD_LS_CAUSE.CAUSE = new
  · rw [State.setCauses_same he]
    exact ⟨_, _, _, rfl⟩
  · rw [State.setCauses_change he, State.loftEvent_link, State.tellRun]
    split
    · exact ⟨_, _, _, rfl⟩
    · split <;> exact ⟨_, _, _, rfl⟩

theorem State.lineStop_link (s : State) (c : Cause) : ∃ d q n, (s.lineStop c).link = { s.link with down := d, downSeq := q, sent := n } :=
  State.setCauses_link ..

/-- Which inputs ask for line stop is seen in their levels and FUNC (R422). -/
theorem State.inputStops_congr (hl : t.link.inputs = s.link.inputs) (hr : ∀ n, n < 16 → t.get (R.FLD_I_CFG.FUNC n) = s.get (R.FLD_I_CFG.FUNC n)) :
    t.inputStops = s.inputStops := by
  unfold State.inputStops
  rw [Bool.eq_iff_iff, List.any_eq_true, List.any_eq_true]
  refine exists_congr fun n => and_congr_right fun hn => ?_
  rw [hr n (List.mem_range.1 hn), hl]

theorem State.judgeInputs_inputStops (hw : sparseWf regDefault s.regs = true) : s.judgeInputs.inputStops = s.inputStops := by
  unfold State.judgeInputs
  split
  · obtain ⟨d, q, m, hl⟩ := s.lineStop_link .input
    have hr := (State.regsWithin_refl (offs := lineStopOffsets) hw).lineStop (List.Subset.refl _) .input
    refine State.inputStops_congr (by rw [hl]) fun n hn => hr.get ?_ ?_
    · simp only [R.FLD_I_CFG.FUNC, R.FLD_I_CFG]
      omega
    · simp only [lineStopOffsets, R.FLD_I_CFG.FUNC, R.FLD_I_CFG, R.FLD_LS_CAUSE,
        R.LOFT_CNT_DROP, R.LOFT_STATUS, List.mem_cons, List.not_mem_nil, or_false]
      omega
  · rfl

theorem State.judgeInputs_bit (hw : sparseWf regDefault s.regs = true) (k : Nat) : bit (s.judgeInputs.get R.FLD_LS_CAUSE.CAUSE) k =
    (bit (s.get R.FLD_LS_CAUSE.CAUSE) k || (k == 8 && s.inputStops)) := by
  unfold State.judgeInputs
  split
  · next h => rw [State.lineStop_bit hw, h, Bool.and_true]; rfl
  · next h => rw [Bool.eq_false_of_not_eq_true h, Bool.and_false, Bool.or_false]

theorem State.judgeInputs_link (s : State) : ∃ d q n, s.judgeInputs.link = { s.link with down := d, downSeq := q, sent := n } := by
  unfold State.judgeInputs
  split
  · exact State.lineStop_link ..
  · exact ⟨_, _, _, rfl⟩

theorem State.touchesOnly.judgeInputs {cs : List Comp} {offs : List Nat} (h : s.touchesOnly cs offs t) (ho : lineStopOffsets ⊆ offs := by decide)
    (hr : Comp.regs ∈ cs := by decide) (hk : Comp.link ∈ cs := by decide) (hl : Comp.loft ∈ cs := by decide) :
    s.touchesOnly cs offs t.judgeInputs := by
  unfold State.judgeInputs
  split
  · exact h.lineStop .input ho hr hk hl
  · exact h

theorem State.touchesOnly.setCauses {cs : List Comp} {offs : List Nat} (h : s.touchesOnly cs offs t) (new : Nat)
    (ho : lineStopOffsets ⊆ offs := by decide) (hr : Comp.regs ∈ cs := by decide) (hk : Comp.link ∈ cs := by decide)
    (hl : Comp.loft ∈ cs := by decide) : s.touchesOnly cs offs (t.setCauses new) := by
  refine ⟨fun d hn => Comp.same_trans (h.1 d hn) ?_, h.2.setCauses ho new⟩
  have := closedRegs_of_ne (s := t) (c := d) fun e => hn (e ▸ hr)
  have := closedLink_of_ne (s := t) (c := d) fun e => hn (e ▸ hk)
  have := closedLoft_of_ne (s := t) (c := d) fun e => hn (e ▸ hl)
  exact State.setCauses_holds (G := fun u => d.same t u) Holds.same_refl

/-! ### Frames sent (R408, R503) -/

/-- From `s` to `t` the messages listed went out, and nothing else came onto the downlink or left it. -/
def State.sentDown (s : State) (ms : List DownMsg) (t : State) : Prop :=
  ∃ fs, t.link.down = s.link.down ++ fs ∧ fs.map (·.msg) = s.onPins ms

theorem State.sentDown.sends (h : s.sentDown ms t) :
    (t.link.down.drop s.link.down.length).map (·.msg) = s.onPins ms ∧ t.link.down.take s.link.down.length = s.link.down := by
  obtain ⟨fs, hd, hm⟩ := h
  rw [hd, List.drop_left, List.take_left]
  exact ⟨hm, rfl⟩

theorem State.onPins_map {α β : Type} (s : State) (f : α → β) (xs : List α) : (s.onPins xs).map f = s.onPins (xs.map f) := by
  unfold State.onPins
  split <;> rfl

theorem State.onPins_append {α : Type} (s : State) (xs ys : List α) : s.onPins (xs ++ ys) = s.onPins xs ++ s.onPins ys := by
  unfold State.onPins
  split <;> rfl

theorem State.sentDown_nil (h : t.link.down = s.link.down) : s.sentDown [] t :=
  ⟨[], by rw [h, List.append_nil], by unfold State.onPins; split <;> rfl⟩

theorem State.sentDown_one (hl : t.link.down = s.link.down) (hp : t.pinsTaken = s.pinsTaken) (m : DownMsg) : s.sentDown [m] (t.sendDown m) :=
  ⟨s.onPins [⟨t.link.downSeq, m⟩], by rw [State.sendDown_down, hl, State.onPins, hp, State.onPins], State.onPins_map ..⟩

theorem State.sentDown.trans (h : s.sentDown ms t) (h' : t.sentDown ns u) (hp : t.pinsTaken = s.pinsTaken) : s.sentDown (ms ++ ns) u := by
  obtain ⟨fs, hd, hm⟩ := h
  obtain ⟨gs, hd', hm'⟩ := h'
  refine ⟨fs ++ gs, by rw [hd', hd, List.append_assoc], ?_⟩
  rw [List.map_append, hm, hm', State.onPins_append, State.onPins, State.onPins, State.onPins, hp]

theorem State.sentDown.of_down (h : s.sentDown ms t) (hd : u.link.down = t.link.down) : s.sentDown ms u := by
  unfold State.sentDown at *
  rwa [hd]

/-- LS_SET as line stop begins or ends (R423). -/
def runFrames (old new : Nat) : List DownMsg :=
  if old = new then [] else if old = 0 then [.lsSet false] else if new = 0 then [.lsSet true] else []

theorem State.setCauses_sentDown (hw : sparseWf regDefault s.regs = true) (new : Nat) :
    s.sentDown (runFrames (s.get R.FLD_LS_CAUSE.CAUSE) new) (s.setCauses new) := by
  unfold runFrames
  by_cases he : s.get R.FLD_LS_CAUSE.CAUSE = new
  · rw [State.setCauses_same he, if_pos he]
    exact State.sentDown_nil rfl
  · have hr : s.regsWithin [R.FLD_LS_CAUSE] (s.putCauses new) :=
      ((State.regsWithin_refl hw).put (.head _) _).latchBits (.head _) _
    have hp : (s.putCauses new).pinsTaken = s.pinsTaken :=
      State.pinsTaken_congr rfl (hr.flag (by decide) (by decide)) (hr.flag (by decide) (by decide))
    rw [if_neg he, State.setCauses_change he]
    refine State.sentDown.of_down ?_ (congrArg LinkSt.down (State.loftEvent_link _ _))
    unfold State.tellRun
    split
    · exact State.sentDown_one (s := s) (t := s.putCauses new) rfl hp _
    · split
      · exact State.sentDown_one (s := s) (t := s.putCauses new) rfl hp _
      · exact State.sentDown_nil rfl

end Sys2Proof.Machine
end

section
/-! PROOFS, the logic side of the field link (R407-R425), and what settles O30. -/

namespace Sys2Proof.Machine

variable {s t u : State} {ms ns : List DownMsg} {k : Nat} {seq : BitVec 16}

theorem State.onRails_of_power (h : s.boot.power = true) (f : State → State) : s.onRails f = f s := if_pos h

theorem State.onRails_of_off (h : s.boot.power = false) (f : State → State) : s.onRails f = s :=
  if_neg (by rw [h]; exact Bool.false_ne_true)

theorem State.takeUplink_touchesOnly (hw : sparseWf regDefault s.regs = true) (q : Nat) (m : UpMsg) {cs : List Comp} {offs : List Nat}
    (hc : Comp.link ∈ cs := by decide) : s.touchesOnly cs offs (s.takeUplink q m) :=
  (State.touchesOnly_refl hw).link _ hc

/-! ### Sync edges (R407, R409) -/

theorem exec_syncEdgeSend_idle (h : ¬ (s.dtime % 100000 = 0 ∧ s.link.lastSyncDtime ≠ some s.dtime)) : exec .syncEdgeSend s = .next s := by
  rw [exec_syncEdgeSend, execSyncEdgeSend, if_neg]
  simp only [Bool.and_eq_true, decide_eq_true_eq, bne_iff_ne]
  exact fun hall => h ⟨hall.1.2, hall.2⟩

/-- The sync edge of this tick has gone out. -/
def State.syncSent (s : State) : State := { s with
  field := { s.field with syncEdge := if s.pinsTaken then s.field.syncEdge else some s.field.ftime }
  link := { s.link with lastSyncDtime := some s.dtime } }

theorem exec_syncEdgeSend_due (hp : s.boot.power = true) (hd : s.dtime % 100000 = 0) (hl : s.link.lastSyncDtime ≠ some s.dtime) :
    exec .syncEdgeSend s = .next (s.syncSent.sendDown (.heartbeat s.runNow (BitVec.ofNat 64 s.dtime))) := by
  rw [exec_syncEdgeSend, execSyncEdgeSend, if_pos (by simp [hp, hd, hl])]
  rfl

/-! ### What the field side reports (R420-R422) -/

/-- STATUS noted, before anything is judged by it. -/
def State.statusNoted (s : State) (fs ins v tc hb : Nat) : State :=
  let t : State := { s with link := { s.link with lastStatus := some s.dtime, lastFstate := fs, lastStatusHb := some hb, inputs := ins } }
  (t.put R.FLD_SUPPLY.SUPPLY v).put R.FLD_SUPPLY.TEMP tc

theorem State.statusNoted_supply (hw : sparseWf regDefault s.regs = true) (fs ins : Nat) (v : BitVec 16) (tc : BitVec 8) (hb : Nat) :
    (s.statusNoted fs ins v.toNat tc.toNat hb).get R.FLD_SUPPLY.SUPPLY = v.toNat ∧
    (s.statusNoted fs ins v.toNat tc.toNat hb).get R.FLD_SUPPLY.TEMP = tc.toNat := by
  have h (t : State) (ht : sparseWf regDefault t.regs = true) :
      ((t.put R.FLD_SUPPLY.SUPPLY v.toNat).put R.FLD_SUPPLY.TEMP tc.toNat).get R.FLD_SUPPLY.SUPPLY = v.toNat ∧
      ((t.put R.FLD_SUPPLY.SUPPLY v.toNat).put R.FLD_SUPPLY.TEMP tc.toNat).get R.FLD_SUPPLY.TEMP = tc.toNat := by
    refine ⟨?_, (State.get_put_same (State.put_wf ht _ _) (Fld.ok_of rfl) _).trans (Nat.mod_eq_of_lt tc.isLt)⟩
    rw [State.get_put_apart (g := R.FLD_SUPPLY.SUPPLY) (State.put_wf ht _ _) (Fld.ok_of rfl) (Fld.apart_of rfl)]
    exact (State.get_put_same ht (Fld.ok_of rfl) _).trans (Nat.mod_eq_of_lt v.isLt)
  exact h _ hw

theorem exec_status_eq (hp : s.boot.power = true) (fs : Fin 4) (ins : BitVec 16) (fl : BitVec 32) (v : BitVec 16) (tc : BitVec 8) (a b : Bool)
    (n hb : BitVec 16) : exec (.status seq fs ins fl v tc a b n hb) s = .next (
      let t := (s.takeUplink seq.toNat (.status fs ins fl v tc a b n hb)).statusNoted fs.val ins.toNat v.toNat tc.toNat hb.toNat
      State.judgeInputs (if fs.val == 2 && s.link.lastFstate == 1 then t.lineStop .heartbeat else t)) :=
  congrArg Host.Outcome.next (State.onRails_of_power (s := s.takeUplink _ _) hp _)

theorem State.lineStopIf_bit (hw : sparseWf regDefault s.regs = true) (b : Bool) (c : Cause) (k : Nat) :
    bit ((if b then s.lineStop c else s).get R.FLD_LS_CAUSE.CAUSE) k = (bit (s.get R.FLD_LS_CAUSE.CAUSE) k || (k == c.bitNo && b)) := by
  cases b
  · rw [if_neg Bool.false_ne_true, Bool.and_false, Bool.or_false]
  · rw [if_pos rfl, State.lineStop_bit hw, Bool.and_true]

theorem State.lineStopIf_link (s : State) (b : Bool) (c : Cause) :
    ∃ d q n, (if b then s.lineStop c else s).link = { s.link with down := d, downSeq := q, sent := n } := by
  split
  · exact State.lineStop_link ..
  · exact ⟨_, _, _, rfl⟩

theorem State.touchesOnly.lineStopIf {cs : List Comp} {offs : List Nat} (h : s.touchesOnly cs offs t) (b : Bool) (c : Cause)
    (ho : lineStopOffsets ⊆ offs := by decide) (hr : Comp.regs ∈ cs := by decide) (hk : Comp.link ∈ cs := by decide)
    (hl : Comp.loft ∈ cs := by decide) : s.touchesOnly cs offs (if b then t.lineStop c else t) := by
  split
  · exact h.lineStop c ho hr hk hl
  · exact h

/-- What STATUS leaves, of the state `t` in which it is noted. -/
theorem State.statusJudged_spec (hw : sparseWf regDefault s.regs = true) (b : Bool) :
    let t : State := State.judgeInputs (if b then s.lineStop .heartbeat else s)
    (∀ k, bit (t.get R.FLD_LS_CAUSE.CAUSE) k = (bit (s.get R.FLD_LS_CAUSE.CAUSE) k || (k == 9 && b) || (k == 8 && t.inputStops))) ∧
    ∃ d q n, t.link = { s.link with down := d, downSeq := q, sent := n } := by
  intro t
  have hw' : sparseWf regDefault (if b then s.lineStop .heartbeat else s).regs = true := by
    have h : s.touchesOnly [.regs, .link, .loft] lineStopOffsets (if b then s.lineStop .heartbeat else s) :=
      (State.touchesOnly_refl hw).lineStopIf b _
    exact h.wf
  refine ⟨fun k => ?_, ?_⟩
  · rw [State.judgeInputs_inputStops hw', State.judgeInputs_bit hw', State.lineStopIf_bit hw]
    rfl
  · obtain ⟨d, q, n, h⟩ := State.judgeInputs_link (if b then s.lineStop .heartbeat else s)
    obtain ⟨d', q', n', h'⟩ := State.lineStopIf_link s b .heartbeat
    exact ⟨d, q, n, by rw [h, h']⟩

/-- The levels after an INPUT_EDGE. -/
def setLevel (m n : Nat) (level : Bool) : Nat := if bit m n == level then m else if level then m + 2 ^ n else m - 2 ^ n

theorem bit_setLevel (m n : Nat) (level : Bool) (j : Nat) : bit (setLevel m n level) j = if j = n then level else bit m j := by
  unfold setLevel
  simp only [bit_eq_testBit]
  by_cases hb : m.testBit n = level
  · rw [if_pos (by simp [hb])]
    split
    · next h => rw [h, hb]
    · rfl
  · rw [if_neg (by simp [hb])]
    cases level
    · rw [if_neg Bool.false_ne_true, sub_two_pow_eq_ldiff (by simpa using hb), Nat.testBit_ldiff, Nat.testBit_two_pow]
      by_cases hj : j = n
      · simp [hj]
      · simp [hj, Ne.symm hj]
    · rw [if_pos rfl, add_two_pow_eq_lor (by simpa using hb), Nat.testBit_lor, Nat.testBit_two_pow]
      by_cases hj : j = n
      · simp [hj]
      · simp [hj, Ne.symm hj]

theorem exec_inputEdge_eq (hp : s.boot.power = true) (n : Fin 16) (level : Bool) (d : BitVec 64) :
    exec (.inputEdge seq n level d) s = .next (State.judgeInputs { s.takeUplink seq.toNat (.inputEdge n level d) with
      link := { (s.takeUplink seq.toNat (.inputEdge n level d)).link with inputs := setLevel s.link.inputs n.val level } }) :=
  congrArg Host.Outcome.next (State.onRails_of_power (s := s.takeUplink _ _) hp _)

theorem exec_uplinkCrcError_eq (hp : s.boot.power = true) :
    exec .uplinkCrcError s = .next (State.bump { s with link := { s.link with up := s.link.up.drop 1 } } R.FLD_CNT_UP_CRC.N) :=
  congrArg Host.Outcome.next (State.onRails_of_power hp _)

theorem exec_uplinkLost_eq (hp : s.boot.power = true) {t0 : Nat} (ht : s.link.lastStatus = some t0) : exec .uplinkLost s =
    .next (if 2000000 ≤ diff64 s.dtime t0 then (s.latch R.FLD_STATUS.UPLINK_LOST).lineStop .field else s) := by
  rw [exec_uplinkLost, execUplinkLost, hp, State.uplinkSilent, ht]
  simp only [Bool.true_and, decide_eq_true_eq, ge_iff_le]

/-! ### EDGE_DONE (R74, R415) -/

/-- The report of a pulse, once off the link. -/
def State.pulseDone (s : State) (ch res tag on : Nat) : State :=
  let r := res % 8
  let s := if r = 0 then s.bump (R.FLD_Q_PULSES.N ch) else s
  match s.seq.frames.find? (fun f => f.tag == tag) with
  | none => s
  | some f =>
    let parts := f.srcs.filterMap (·.owner)
    let s := if r = 0 then s.acReport ch on parts else s
    let s := if r = 1 || r = 2 || r = 4 || (r = 3 && f.cancelled) then s.flagFrame f 0 else s
    s.endFrame f

theorem exec_edgeDone_eq (hp : s.boot.power = true) (ch res : Fin 16) (tag : BitVec 16) (on off : BitVec 64) :
    exec (.edgeDone seq ch res tag on off) s =
      .next ((s.takeUplink seq.toNat (.edgeDone ch res tag on off)).pulseDone ch.val res.val tag.toNat on.toNat) :=
  congrArg Host.Outcome.next (State.onRails_of_power (s := s.takeUplink _ _) hp _)

theorem State.pulseDone_unknown {ch res tag on : Nat} (h : ∀ f ∈ s.seq.frames, f.tag ≠ tag) (hr : res % 8 = 0) :
    s.pulseDone ch res tag on = s.bump (R.FLD_Q_PULSES.N ch) := by
  have hnone : (s.bump (R.FLD_Q_PULSES.N ch)).seq.frames.find? (fun f => f.tag == tag) = none :=
    List.find?_eq_none.2 fun f hf => by simpa using h f hf
  unfold State.pulseDone
  simp only [hr, if_true, hnone]

/-- The results that leave the parts of a frame EJECT_MISSED (R415). -/
def missedResult (r : Nat) (cancelled : Bool) : Bool := [1, 2, 4].contains r || (r == 3 && cancelled)

/-- A pulse of a frame, where acoustic confirmation is off. -/
theorem State.pulseDone_known {ch res tag on : Nat} {f : Frame} (h : s.seq.frames.find? (fun f => f.tag == tag) = some f)
    (hw : sparseWf regDefault s.regs = true) (ha : s.flag (R.AUD_AC_CFG.ENABLE ch) = false) :
    ∃ t : State, t.seq = s.seq ∧ s.pulseDone ch res tag on =
      (if missedResult (res % 8) f.cancelled then t.flagFrame f 0 else t).endFrame f := by
  have hap : (R.FLD_Q_PULSES.N ch).apart (R.AUD_AC_CFG.ENABLE ch) := .inl (by
    simp only [R.FLD_Q_PULSES.N, R.FLD_Q_PULSES, R.AUD_AC_CFG.ENABLE, R.AUD_AC_CFG]
    omega)
  have hrep (parts : List Nat) : (s.bump (R.FLD_Q_PULSES.N ch)).acReport ch on parts = s.bump (R.FLD_Q_PULSES.N ch) := by
    have hflag : (s.bump (R.FLD_Q_PULSES.N ch)).flag (R.AUD_AC_CFG.ENABLE ch) = false :=
      (State.flag_put_apart hw (Fld.ok_of rfl) hap _).trans ha
    exact if_pos (by rw [hflag]; rfl)
  have hmiss : (decide (res % 8 = 1) || decide (res % 8 = 2) || decide (res % 8 = 4) || decide (res % 8 = 3) && f.cancelled)
      = missedResult (res % 8) f.cancelled := by
    simp [missedResult, beq_eq_decide, Bool.or_assoc]
  unfold State.pulseDone
  by_cases hr : res % 8 = 0
  · refine ⟨s.bump (R.FLD_Q_PULSES.N ch), rfl, ?_⟩
    have hf : (s.bump (R.FLD_Q_PULSES.N ch)).seq.frames.find? (fun f => f.tag == tag) = some f := h
    simp only [hr, if_true, hf, hrep]
    rw [← hr, ← hmiss]
  · refine ⟨s, rfl, ?_⟩
    simp only [hr, if_false, h, hmiss]

theorem State.endFrame_frames (s : State) (f : Frame) : (s.endFrame f).seq.frames = s.seq.frames.filter (fun g => g.tag != f.tag) := by
  rw [State.endFrame_eq, State.foldl_endOwner_frames]

/-- The lone part of a frame that ends, with or without a flag. -/
theorem State.endFrame_owner {f : Frame} {e : EdgeSrc} (hs : f.srcs = [e]) (ho : e.owner = some k) (b : Bool) (n : Nat) :
    let u := (if b then s.flagFrame f n else s).endFrame f
    (u.part k).core.state = .free ∧ u.seq.frames = s.seq.frames.filter (fun g => g.tag != f.tag) ∧
    bit (u.part k).core.flags n = (bit (s.part k).core.flags n || b) := by
  have hmem : ∃ x ∈ f.srcs, x.owner = some k := ⟨e, by rw [hs]; exact .head _, ho⟩
  intro u
  have hcore : (u.part k).core = { ((if b then s.flagFrame f n else s).part k).core with state := .free } := by
    change (State.part (State.endFrame _ f) k).core = _
    rw [State.endFrame_eq, State.foldl_endOwner_core, if_pos hmem]
    rfl
  refine ⟨by rw [hcore], ?_, ?_⟩
  · change (State.endFrame _ f).seq.frames = _
    rw [State.endFrame_frames]
    cases b
    · rfl
    · exact congrArg (List.filter _) (State.flagFrame_frames ..)
  · rw [hcore]
    cases b
    · exact (Bool.or_false _).symm
    · rw [Bool.or_true]
      exact State.foldl_flagOwner k n f.srcs s (.inl hmem)

/-! ### Rejects (R410, R411) -/

theorem exec_reject_eq (hp : s.boot.power = true) (r : Fin 16) (tag q m : BitVec 16) : exec (.reject seq r tag q m) s =
    .next (match r.val with
      | 1 => (s.takeUplink seq.toNat (.reject r tag q m)).retransmit q.toNat
      | 2 => (List.range m.toNat).foldl (fun t k => t.retransmit (u16 (q.toNat + k))) (s.takeUplink seq.toNat (.reject r tag q m))
      | n => match (s.takeUplink seq.toNat (.reject r tag q m)).link.sent.find? (fun f => f.1.seq == q.toNat) with
        | some f => (s.takeUplink seq.toNat (.reject r tag q m)).edgeRejected f.1.msg n
        | none => s.takeUplink seq.toNat (.reject r tag q m)) :=
  congrArg Host.Outcome.next (State.onRails_of_power (s := s.takeUplink _ _) hp _)

theorem exec_reject_crc (hp : s.boot.power = true) (tag q m : BitVec 16) :
    exec (.reject seq 1 tag q m) s = .next ((s.takeUplink seq.toNat (.reject 1 tag q m)).retransmit q.toNat) :=
  congrArg Host.Outcome.next (State.onRails_of_power (s := s.takeUplink _ _) hp _)

theorem exec_reject_refused (hp : s.boot.power = true) {r : Fin 16} {tag q m : BitVec 16} (hr : 2 < r.val) {f : DownFrame × SentMark}
    (hf : s.link.sent.find? (fun f => f.1.seq == q.toNat) = some f) :
    exec (.reject seq r tag q m) s = .next ((s.takeUplink seq.toNat (.reject r tag q m)).edgeRejected f.1.msg r.val) := by
  have hf' : (s.takeUplink seq.toNat (.reject r tag q m)).link.sent.find? (fun f => f.1.seq == q.toNat) = some f := hf
  rw [exec_reject_eq hp]
  split
  · omega
  · omega
  · rw [hf']

theorem sameKind_lsSet {m : DownMsg} {b : Bool} (h : m.sameKind (.lsSet b) = true) : ∃ c, m = .lsSet c := by
  cases m with
  | lsSet c => exact ⟨c, rfl⟩
  | _ => cases h

/-- An LS_SET after which none was sent goes out anew, with the RUN in force. -/
theorem State.retransmit_lsSet {q : Nat} {r : DownFrame} {b : Bool} (hf : s.link.sent.find? (fun f => f.1.seq == q) = some (r, .first))
    (hm : r.msg = .lsSet b) (hl : ∀ f ∈ s.link.sent.takeWhile (fun f => f.1.seq != r.seq), ∀ c, f.1.msg ≠ .lsSet c) :
    s.retransmit q = (((s.markSent q .named).sendDown (.lsSet s.runNow)).markSent s.link.downSeq .again).bump R.FLD_CNT_RETX.N := by
  have hlater : laterSent s.link.sent r.seq (.lsSet b) = false := by
    unfold laterSent
    rw [List.any_eq_false]
    intro f hmem hsame
    obtain ⟨c, hc⟩ := sameKind_lsSet hsame
    exact hl f hmem c hc
  have hring : s.ringResend r = some (.lsSet s.runNow) := by
    simp only [State.ringResend, hm, hlater, Bool.false_eq_true, if_false]
  simp only [State.retransmit, hf, hring, reduceCtorEq, if_false]

/-- A refused EDGE_NEW whose frame is no longer pending is counted, and is a cause of line stop. -/
theorem State.edgeRejected_new {c : Fin 16} {g : BitVec 16} {on off : BitVec 64} {reason : Nat} (h : ∀ f ∈ s.seq.frames, f.tag ≠ g.toNat) :
    s.edgeRejected (.edgeNew c g on off) reason = (s.bump R.FLD_CNT_REJECT.N).lineStop .field := by
  have hnone : s.seq.frames.find? (fun f => f.tag == g.toNat) = none := List.find?_eq_none.2 fun f hf => by simpa using h f hf
  simp only [State.edgeRejected, DownMsg.tag?, hnone, Bool.not_true, Bool.and_false, Bool.false_eq_true, if_false]

/-! ### Client writes (R416, R420, R423) -/

theorem State.clearCauses_bit (hw : sparseWf regDefault s.regs = true) (mask : Nat) (hk : k < 11) :
    bit ((s.clearCauses mask).get R.FLD_LS_CAUSE.CAUSE) k = (bit (s.get R.FLD_LS_CAUSE.CAUSE) k && (!bit mask k || bit s.causeHolds k ||
      bit (s.get R.FLD_LS_CAUSE.CAUSE.onTick) k)) := by
  have hlt : maskOf ((setBits 11 (s.get R.FLD_LS_CAUSE.CAUSE)).filter (fun k =>
      !bit mask k || bit s.causeHolds k || bit (s.get R.FLD_LS_CAUSE.CAUSE.onTick) k)) < 2 ^ 11 :=
    maskOf_lt fun j hj => List.mem_range.1 (List.mem_filter.1 (List.mem_filter.1 hj).1).1
  unfold State.clearCauses
  rw [State.setCauses_get hw hlt, bit_maskOf]
  simp only [setBits, List.mem_filter, List.mem_range, hk, true_and, Bool.decide_and, Bool.decide_eq_true]

theorem State.clearCauses_sentDown (hw : sparseWf regDefault s.regs = true) (mask : Nat) : s.sentDown
    (if s.get R.FLD_LS_CAUSE.CAUSE ≠ 0 ∧ (s.clearCauses mask).get R.FLD_LS_CAUSE.CAUSE = 0 then [.lsSet true] else []) (s.clearCauses mask) := by
  have hbits : ∀ k, bit ((s.clearCauses mask).get R.FLD_LS_CAUSE.CAUSE) k = true → bit (s.get R.FLD_LS_CAUSE.CAUSE) k = true := fun k hk => by
    by_cases h11 : k < 11
    · rw [State.clearCauses_bit hw mask h11, Bool.and_eq_true] at hk
      exact hk.1
    · have hlt : (s.clearCauses mask).get R.FLD_LS_CAUSE.CAUSE < 2 ^ 11 := State.get_lt ..
      rw [bit_eq_testBit, Nat.testBit_lt_two_pow (hlt.trans_le (Nat.pow_le_pow_right (by decide) (by omega)))] at hk
      cases hk
  have h0 : s.get R.FLD_LS_CAUSE.CAUSE = 0 → (s.clearCauses mask).get R.FLD_LS_CAUSE.CAUSE = 0 := fun h => Nat.eq_of_testBit_eq fun k => by
    have := hbits k
    rw [h, bit_eq_testBit, bit_eq_testBit, Nat.zero_testBit] at this
    simpa using this
  have hsent : s.sentDown (runFrames (s.get R.FLD_LS_CAUSE.CAUSE) ((s.clearCauses mask).get R.FLD_LS_CAUSE.CAUSE)) (s.clearCauses mask) := by
    have hlt : maskOf ((setBits 11 (s.get R.FLD_LS_CAUSE.CAUSE)).filter (fun k =>
        !bit mask k || bit s.causeHolds k || bit (s.get R.FLD_LS_CAUSE.CAUSE.onTick) k)) < 2 ^ 11 :=
      maskOf_lt fun j hj => List.mem_range.1 (List.mem_filter.1 (List.mem_filter.1 hj).1).1
    unfold State.clearCauses
    rw [State.setCauses_get hw hlt]
    exact State.setCauses_sentDown hw _
  refine cast (congrArg (State.sentDown s · _) ?_) hsent
  unfold runFrames
  by_cases hold : s.get R.FLD_LS_CAUSE.CAUSE = 0
  · rw [if_pos (by rw [hold, h0 hold]), if_neg fun h => h.1 hold]
  · by_cases hnew : (s.clearCauses mask).get R.FLD_LS_CAUSE.CAUSE = 0
    · rw [if_neg (by rwa [hnew]), if_neg hold, if_pos hnew, if_pos ⟨hold, hnew⟩]
    · rw [if_neg hold, if_neg hnew, ite_self, if_neg fun h => hnew h.2]

theorem State.lineStop_sentDown (hw : sparseWf regDefault s.regs = true) (c : Cause) :
    s.sentDown (if s.get R.FLD_LS_CAUSE.CAUSE = 0 then [.lsSet false] else []) (s.lineStop c) := by
  have hpow : 0 < 2 ^ c.bitNo := Nat.two_pow_pos _
  have hsent := State.setCauses_sentDown hw (if bit (s.get R.FLD_LS_CAUSE.CAUSE) c.bitNo then s.get R.FLD_LS_CAUSE.CAUSE
    else s.get R.FLD_LS_CAUSE.CAUSE + 2 ^ c.bitNo)
  refine State.sentDown.of_down (cast (congrArg (State.sentDown s · _) ?_) hsent) rfl
  unfold runFrames
  by_cases hb : bit (s.get R.FLD_LS_CAUSE.CAUSE) c.bitNo = true
  · have hne : s.get R.FLD_LS_CAUSE.CAUSE ≠ 0 := fun h => by
      rw [h, bit_eq_testBit, Nat.zero_testBit] at hb
      cases hb
    rw [if_pos hb, if_pos rfl, if_neg hne]
  · rw [if_neg hb, if_neg (by omega)]
    by_cases hold : s.get R.FLD_LS_CAUSE.CAUSE = 0
    · rw [if_pos hold, if_pos hold]
    · rw [if_neg hold, if_neg hold, if_neg (by omega)]

/-- Frames sent one after the other, each made of the registers alone. -/
theorem State.foldl_sendDown {f : State → Nat → DownMsg} (hf : ∀ u : State, u.regs = s.regs → ∀ q, f u q = f s q) :
    ∀ (qs : List Nat) (ms : List DownMsg) (t : State), t.regs = s.regs → t.boot = s.boot → s.sentDown ms t →
      (qs.foldl (fun u q => u.sendDown (f u q)) t).regs = s.regs ∧ (qs.foldl (fun u q => u.sendDown (f u q)) t).boot = s.boot ∧
      s.sentDown (ms ++ qs.map (f s)) (qs.foldl (fun u q => u.sendDown (f u q)) t)
  | [], ms, t, hr, hb, h => ⟨hr, hb, by rwa [List.map_nil, List.append_nil]⟩
  | q :: qs, ms, t, hr, hb, h => by
    have hp : t.pinsTaken = s.pinsTaken := State.pinsTaken_congr (congrArg _ hb) (congrArg (· != 0) (State.get_of_regs hr _))
      (congrArg (· != 0) (State.get_of_regs hr _))
    have hstep : s.sentDown (ms ++ [f s q]) (t.sendDown (f t q)) := by
      rw [hf t hr q]
      exact h.trans (State.sentDown_one (s := t) (t := t) rfl rfl _) hp
    have := State.foldl_sendDown hf qs (ms ++ [f s q]) (t.sendDown (f t q)) hr hb hstep
    rwa [List.append_assoc] at this

theorem State.fldResume_sentDown (h : s.resumeOk = true) : s.fldResume.regs = s.regs ∧
    s.sentDown ((List.range 16).map s.outCfgMsg ++ (List.range 16).map s.inCfgMsg ++ [.resume]) s.fldResume := by
  have hget {u : State} (hr : u.regs = s.regs) (g : Fld) : u.get g = s.get g := State.get_of_regs hr g
  have hout : ∀ u : State, u.regs = s.regs → ∀ q, u.outCfgMsg q = s.outCfgMsg q := fun u hr q => by
    simp only [State.outCfgMsg, State.flag, hget hr]
  have hin : ∀ u : State, u.regs = s.regs → ∀ n, u.inCfgMsg n = s.inCfgMsg n := fun u hr n => by
    simp only [State.inCfgMsg, hget hr]
  obtain ⟨hr, hb, hs⟩ := State.foldl_sendDown hout (List.range 16) [] s rfl rfl (State.sentDown_nil rfl)
  obtain ⟨hr', hb', hs'⟩ := State.foldl_sendDown hin (List.range 16) _ _ hr hb hs
  have heq : s.fldResume = State.sendDown ((List.range 16).foldl (fun (s : State) n => s.sendDown (s.inCfgMsg n))
      ((List.range 16).foldl (fun (s : State) q => s.sendDown (s.outCfgMsg q)) s)) .resume := if_pos h
  rw [heq]
  generalize (List.range 16).foldl (fun (s : State) n => s.sendDown (s.inCfgMsg n)) _ = u at hr' hb' hs' ⊢
  refine ⟨hr', hs'.trans (State.sentDown_one (s := u) (t := u) rfl rfl _) ?_⟩
  exact State.pinsTaken_congr (congrArg _ hb') (congrArg (· != 0) (hget hr' _)) (congrArg (· != 0) (hget hr' _))

/-! ### Acoustic confirmation (R425) -/

theorem State.counts_of_reg {f : Fld} {n : Nat} (h : u.get f = t.get f) (hc : s.counts f n t) : s.counts f n u := by
  rwa [State.counts, h]

theorem State.counts_bump_of_get {f : Fld} (ht : sparseWf regDefault t.regs = true) (hf : f.ok) (h : t.get f = s.get f) :
    s.counts f 1 (t.bump f) := by
  rw [State.counts, ← h]
  exact State.counts_bump ht hf

/-- One of two counters counts, as the flag says. -/
theorem State.bumpWhich_counts (hw : sparseWf regDefault s.regs = true) {f g : Fld} (hf : f.ok) (hg : g.ok)
    (hfg : f.apart g) (hgf : g.apart f) (b : Bool) :
    s.counts f (if b then 1 else 0) (if b then s.bump f else s.bump g) ∧ s.counts g (if b then 0 else 1) (if b then s.bump f else s.bump g) := by
  cases b
  · exact ⟨State.counts_zero (State.get_put_apart hw hg hgf _), State.counts_bump hw hg⟩
  · exact ⟨State.counts_bump hw hf, State.counts_zero (State.get_put_apart hw hf hfg _)⟩

/-- The judgement of a window that no part waits for, by its three counters. -/
def State.acCounted (s : State) (ok none_ : Bool) : State :=
  let s := if none_ then s.bump R.AUD_CNT_NOFRAME.N else s
  if ok then s.bump R.AUD_CNT_AC_OK.N else s.bump R.AUD_CNT_AC_FAIL.N

theorem State.acCounted_touchesOnly (hw : sparseWf regDefault s.regs = true) (ok none_ : Bool) :
    s.touchesOnly [.regs] [R.AUD_CNT_NOFRAME, R.AUD_CNT_AC_OK, R.AUD_CNT_AC_FAIL] (s.acCounted ok none_) := by
  have h : s.touchesOnly [.regs] [R.AUD_CNT_NOFRAME, R.AUD_CNT_AC_OK, R.AUD_CNT_AC_FAIL] s := State.touchesOnly_refl hw
  cases none_ <;> cases ok
  · exact h.bump
  · exact h.bump
  · exact h.bump.bump
  · exact h.bump.bump

theorem State.acCounted_counts (hw : sparseWf regDefault s.regs = true) (ok none_ : Bool) :
    s.counts R.AUD_CNT_AC_OK.N (if ok then 1 else 0) (s.acCounted ok none_) ∧
    s.counts R.AUD_CNT_AC_FAIL.N (if ok then 0 else 1) (s.acCounted ok none_) ∧
    s.counts R.AUD_CNT_NOFRAME.N (if none_ then 1 else 0) (s.acCounted ok none_) := by
  have hfirst : s.touchesOnly [.regs] [R.AUD_CNT_NOFRAME] (if none_ then s.bump R.AUD_CNT_NOFRAME.N else s) := by
    have h : s.touchesOnly [.regs] [R.AUD_CNT_NOFRAME] s := State.touchesOnly_refl hw
    cases none_
    · exact h
    · exact h.bump
  have hnone : s.counts R.AUD_CNT_NOFRAME.N (if none_ then 1 else 0) (if none_ then s.bump R.AUD_CNT_NOFRAME.N else s) := by
    cases none_
    · exact State.counts_zero rfl
    · exact State.counts_bump hw (Fld.ok_of rfl)
  have hkept : (s.acCounted ok none_).get R.AUD_CNT_NOFRAME.N = (if none_ then s.bump R.AUD_CNT_NOFRAME.N else s).get R.AUD_CNT_NOFRAME.N := by
    cases ok
    · exact State.get_put_apart hfirst.wf (Fld.ok_of rfl) (.inl (by decide)) _
    · exact State.get_put_apart hfirst.wf (Fld.ok_of rfl) (.inl (by decide)) _
  obtain ⟨hok, hfail⟩ := State.bumpWhich_counts hfirst.wf (f := R.AUD_CNT_AC_OK.N) (g := R.AUD_CNT_AC_FAIL.N) (Fld.ok_of rfl) (Fld.ok_of rfl)
    (.inl (by decide)) (.inl (by decide)) ok
  exact ⟨State.counts_of_get (hfirst.get (by decide) (by decide)) hok, State.counts_of_get (hfirst.get (by decide) (by decide)) hfail,
    State.counts_of_reg hkept hnone⟩

theorem exec_acJudge_open (h : ∀ w ∈ s.link.acWindows, diff64 s.dtime (s.acEnd w.1 w.2.1) < 0) : exec .acJudge s = .next s := by
  have hnone : s.link.acWindows.find? (fun w => decide (diff64 s.dtime (s.acEnd w.1 w.2.1) ≥ 0)) = none :=
    List.find?_eq_none.2 fun w hw => by simpa using h w hw
  rw [exec_acJudge, execAcJudge, hnone]

/-- The only window has closed. -/
theorem exec_acJudge_closed {w : Nat × Nat × List Nat} (h : s.link.acWindows = [w]) (hc : 0 ≤ diff64 s.dtime (s.acEnd w.1 w.2.1)) :
    let fs := s.windowFrames (s.get (R.AUD_AC_CFG.INPUT w.1)) (u64 (w.2.1 + s.get (R.AUD_AC_CFG.DELAY_US w.1) * 1000)) (s.acEnd w.1 w.2.1)
    let ok : Bool := fs.any (fun f => f32Ge (nth f.bands (s.get (R.AUD_AC_CFG.BAND w.1)) 0).toNat (s.get (R.AUD_AC_THR.N w.1)))
    exec .acJudge s = .next (State.acCounted { s with link := { s.link with acWindows := [] } } ok fs.isEmpty) := by
  have hfind : s.link.acWindows.find? (fun w => decide (diff64 s.dtime (s.acEnd w.1 w.2.1) ≥ 0)) = some w := by
    rw [h, List.find?_cons_of_pos (by simpa using hc)]
  have herase : s.link.acWindows.erase w = [] := by rw [h, List.erase_cons_head]
  rw [exec_acJudge, execAcJudge, hfind]
  simp only [herase]
  rfl

/-! ### The commands of the uplink, done -/

/-- STATUS (R420, R421). -/
theorem status_completes (hw : sparseWf regDefault s.regs = true) (hp : s.boot.power = true) (fs : Fin 4) (ins : BitVec 16) (fl : BitVec 32)
    (v : BitVec 16) (tc : BitVec 8) (a b : Bool) (n hb : BitVec 16) :
    s.completes (.status seq fs ins fl v tc a b n hb) [.regs, .link, .loft] (R.FLD_SUPPLY :: lineStopOffsets) (fun t =>
      t.get R.FLD_SUPPLY.SUPPLY = v.toNat ∧ t.get R.FLD_SUPPLY.TEMP = tc.toNat ∧ t.link.lastStatus = some s.dtime ∧
      t.link.lastFstate = fs.val ∧ t.link.lastStatusHb = some hb.toNat ∧ t.link.inputs = ins.toNat ∧
      ∀ k, k < 11 → bit (t.get R.FLD_LS_CAUSE.CAUSE) k = (bit (s.get R.FLD_LS_CAUSE.CAUSE) k ||
        (k == 9 && fs == 2 && s.link.lastFstate == 1) || (k == 8 && t.inputStops))) := by
  have hup (m : UpMsg) {cs : List Comp} {offs : List Nat} (hc : Comp.link ∈ cs := by decide) :
      s.touchesOnly cs offs (s.takeUplink seq.toNat m) := State.takeUplink_touchesOnly hw _ _ hc
  have hn : s.touchesOnly [.regs, .link] [R.FLD_SUPPLY]
      ((s.takeUplink seq.toNat (.status fs ins fl v tc a b n hb)).statusNoted fs.val ins.toNat v.toNat tc.toNat hb.toNat) :=
    (((hup _).link _).put _).put _
  have hj : State.touchesOnly _ [.regs, .link, .loft] lineStopOffsets _ :=
    ((State.touchesOnly_refl hn.wf).lineStopIf (fs.val == 2 && s.link.lastFstate == 1) .heartbeat).judgeInputs
  have hu : s.touchesOnly [.regs, .link, .loft] (R.FLD_SUPPLY :: lineStopOffsets) _ :=
    ((hn.mono (by decide) (by decide)).lineStopIf (fs.val == 2 && s.link.lastFstate == 1) .heartbeat).judgeInputs
  obtain ⟨hbits, d, q, m, hlink⟩ := State.statusJudged_spec hn.wf (fs.val == 2 && s.link.lastFstate == 1)
  obtain ⟨hsupply, htemp⟩ := State.statusNoted_supply (s := s.takeUplink seq.toNat (.status fs ins fl v tc a b n hb)) hw fs.val ins.toNat
    v tc hb.toNat
  refine hu.completes (exec_status_eq hp fs ins fl v tc a b n hb) ⟨?_, ?_, ?_, ?_, ?_, ?_, fun k hk => ?_⟩
  · exact (hj.get (by decide) (by decide)).trans hsupply
  · exact (hj.get (by decide) (by decide)).trans htemp
  iterate 4 exact (congrArg _ hlink).trans rfl
  · refine (hbits k).trans ?_
    rw [hn.get (f := R.FLD_LS_CAUSE.CAUSE) (by decide) (by decide), ← Bool.and_assoc]
    have hfs : (fs.val == 2) = (fs == 2) := by
      rw [Bool.eq_iff_iff, beq_iff_eq, beq_iff_eq, Fin.ext_iff]
      rfl
    rw [hfs]

/-- INPUT_EDGE (R422). -/
theorem inputEdge_completes (hw : sparseWf regDefault s.regs = true) (hp : s.boot.power = true) (n : Fin 16) (level : Bool) (d : BitVec 64) :
    s.completes (.inputEdge seq n level d) [.regs, .link, .loft] lineStopOffsets (fun t =>
      bit t.link.inputs n.val = level ∧ (∀ k, k ≠ n.val → bit t.link.inputs k = bit s.link.inputs k) ∧
      ∀ k, k < 11 → bit (t.get R.FLD_LS_CAUSE.CAUSE) k = (bit (s.get R.FLD_LS_CAUSE.CAUSE) k || (k == 8 && t.inputStops))) := by
  have hup (m : UpMsg) {cs : List Comp} {offs : List Nat} (hc : Comp.link ∈ cs := by decide) :
      s.touchesOnly cs offs (s.takeUplink seq.toNat m) := State.takeUplink_touchesOnly hw _ _ hc
  have hn : s.touchesOnly [.regs, .link, .loft] lineStopOffsets { s.takeUplink seq.toNat (.inputEdge n level d) with
      link := { (s.takeUplink seq.toNat (.inputEdge n level d)).link with inputs := setLevel s.link.inputs n.val level } } :=
    (hup _).link _
  obtain ⟨d', q, m, hlink⟩ := State.judgeInputs_link { s.takeUplink seq.toNat (.inputEdge n level d) with
    link := { (s.takeUplink seq.toNat (.inputEdge n level d)).link with inputs := setLevel s.link.inputs n.val level } }
  have hin (j : Nat) : bit (setLevel s.link.inputs n.val level) j = if j = n.val then level else bit s.link.inputs j := bit_setLevel ..
  refine hn.judgeInputs.completes (exec_inputEdge_eq hp n level d) ⟨?_, fun k hk => ?_, fun k hk => ?_⟩
  · rw [hlink]
    exact (hin _).trans (if_pos rfl)
  · rw [hlink]
    exact (hin k).trans (if_neg hk)
  · refine (State.judgeInputs_bit hn.wf k).trans ?_
    rw [State.judgeInputs_inputStops hn.wf]
    rfl

/-- EDGE_DONE of the lone part of a frame (R74, R415). -/
theorem edgeDone_ends (hw : sparseWf regDefault s.regs = true) (hp : s.boot.power = true) {ch res : Fin 16} {tag : BitVec 16} {on off : BitVec 64}
    {f : Frame} {e : EdgeSrc} (hf : s.seq.frames.find? (fun f => f.tag == tag.toNat) = some f) (hs : f.srcs = [e]) (ho : e.owner = some k)
    (ha : s.flag (R.AUD_AC_CFG.ENABLE ch.val) = false) :
    ∃ t, exec (.edgeDone seq ch res tag on off) s = .next t ∧ s.changesOnly (touches (.edgeDone seq ch res tag on off)) t ∧
      (t.part k).core.state = .free ∧ t.seq.frames = s.seq.frames.filter (fun g => g.tag != tag.toNat) ∧
      bit (t.part k).core.flags 0 = (bit (s.part k).core.flags 0 || [1, 2, 4].contains (res.val % 8) || (res.val % 8 == 3 && f.cancelled)) := by
  obtain ⟨t, hseq, ht⟩ := State.pulseDone_known (s := s.takeUplink seq.toNat (.edgeDone ch res tag on off))
    (res := res.val) (on := on.toNat) hf hw ha
  have he := (exec_edgeDone_eq (seq := seq) hp ch res tag on off).trans (congrArg Host.Outcome.next ht)
  obtain ⟨hfree, hframes, hbit⟩ := State.endFrame_owner (s := t) (n := 0) hs ho (missedResult (res.val % 8) f.cancelled)
  have htag : f.tag = tag.toNat := by simpa using List.find?_some hf
  refine ⟨_, he, exec_changesOnly _ _ _ he, hfree, ?_, ?_⟩
  · rw [hframes, hseq, htag]
    rfl
  · rw [hbit, State.part_of_parts (s := s) (by rw [hseq]; rfl), missedResult, Bool.or_assoc]

/-- A damaged LS_SET goes out anew, with the RUN in force (R410). -/
theorem reject_lsSet (hw : sparseWf regDefault s.regs = true) (hp : s.boot.power = true) {q : BitVec 16} {r : DownFrame} {b : Bool}
    (hf : s.link.sent.find? (fun f => f.1.seq == q.toNat) = some (r, .first)) (hb : r.msg = .lsSet b)
    (hl : ∀ f ∈ s.link.sent.takeWhile (fun f => f.1.seq != r.seq), ∀ c, f.1.msg ≠ .lsSet c) :
    s.completes (.reject seq 1 0 q 0) [.regs, .link] [R.FLD_CNT_RETX]
      (fun t => s.sentDown [.lsSet s.runNow] t ∧ s.counts R.FLD_CNT_RETX.N 1 t) := by
  have hup (m : UpMsg) {cs : List Comp} {offs : List Nat} (hc : Comp.link ∈ cs := by decide) :
      s.touchesOnly cs offs (s.takeUplink seq.toNat m) := State.takeUplink_touchesOnly hw _ _ hc
  have he := exec_reject_crc (seq := seq) hp 0 q 0
  rw [State.retransmit_lsSet (s := s.takeUplink seq.toNat (.reject 1 0 q 0)) hf hb hl] at he
  have hm (offs : List Nat) : s.touchesOnly [.regs, .link] offs ((((s.takeUplink seq.toNat (.reject 1 0 q 0)).markSent q.toNat .named).sendDown
      (.lsSet s.runNow)).markSent s.link.downSeq .again) := (((hup _).link _).sendDown _).link _
  refine (hm _).bump.completes he ⟨State.sentDown.of_down (State.sentDown_one (s := s)
    (t := (s.takeUplink seq.toNat (.reject 1 0 q 0)).markSent q.toNat .named) rfl rfl _) rfl, ?_⟩
  exact State.counts_bump_of_get (hm []).wf (Fld.ok_of rfl) ((hm []).get (by decide) List.not_mem_nil)

/-- A refused EDGE_NEW whose frame is no longer pending (R411). -/
theorem reject_edgeNew (hw : sparseWf regDefault s.regs = true) (hp : s.boot.power = true) {q : BitVec 16} {r : DownFrame}
    {c : Fin 16} {g : BitVec 16}
    {on off : BitVec 64} {k : Fin 16} (hf : s.link.sent.find? (fun f => f.1.seq == q.toNat) = some (r, .first))
    (hm : r.msg = .edgeNew c g on off) (hk : 3 ≤ k.val) (hno : ∀ f ∈ s.seq.frames, f.tag ≠ g.toNat) :
    s.completes (.reject seq k g q 0) [.regs, .link, .loft] (R.FLD_CNT_REJECT :: lineStopOffsets) (fun t =>
      s.counts R.FLD_CNT_REJECT.N 1 t ∧ bit (t.get R.FLD_LS_CAUSE.CAUSE) 7 = true) := by
  have hup (m : UpMsg) {cs : List Comp} {offs : List Nat} (hc : Comp.link ∈ cs := by decide) :
      s.touchesOnly cs offs (s.takeUplink seq.toNat m) := State.takeUplink_touchesOnly hw _ _ hc
  have he : exec (.reject seq k g q 0) s = .next (((s.takeUplink seq.toNat (.reject k g q 0)).bump R.FLD_CNT_REJECT.N).lineStop .field) := by
    rw [exec_reject_refused hp (by omega) hf, hm, State.edgeRejected_new (s := s.takeUplink seq.toNat (.reject k g q 0)) hno]
  have hb : s.touchesOnly [.regs, .link, .loft] (R.FLD_CNT_REJECT :: lineStopOffsets)
      ((s.takeUplink seq.toNat (.reject k g q 0)).bump R.FLD_CNT_REJECT.N) := (hup _).bump
  have hkept := (State.regsWithin_refl (offs := lineStopOffsets) hb.wf).lineStop (List.Subset.refl _) .field
  refine (hb.lineStop .field).completes he ⟨?_, (State.lineStop_bit hb.wf .field 7).trans (Bool.or_true _)⟩
  exact State.counts_of_reg (hkept.get (by decide) (by decide))
    (State.counts_bump (s := s.takeUplink seq.toNat (.reject k g q 0)) hw (Fld.ok_of rfl))

/-- Settles O30: what each command of the logic side comes to, with the rails on or off. -/
theorem logicSideOfTheFieldLink : Obligations.LogicSideOfTheFieldLink := by
  intro s seq ⟨hw, _⟩ cause sends gone
  have hup (m : UpMsg) {cs : List Comp} {offs : List Nat} (hc : Comp.link ∈ cs := by decide) :
      s.touchesOnly cs offs (s.takeUplink seq.toNat m) := State.takeUplink_touchesOnly hw _ _ hc
  refine ⟨fun hoff => ⟨?idle, fun fs ins fl v tc a b n hb => ?_, fun n level d => ?_, fun c r tag on off => ?_, fun r tag q m => ?_⟩,
    fun hp => ⟨exec_syncEdgeSend_idle, fun hd hl => ?syncEdge, fun fs ins fl v tc a b n hb => status_completes hw hp fs ins fl v tc a b n hb,
      fun n level d => inputEdge_completes hw hp n level d, ?crc, fun ⟨t0, ht, hearly⟩ => ?talking, fun t0 ht hlate => ?silent,
      fun ch res tag on off => ⟨fun hno hr => ?unknown, fun f e k hf hs ho hst ha => edgeDone_ends hw hp hf hs ho ha⟩,
      fun q r hf => ⟨fun ⟨b, hb⟩ hl => ?again, fun c g on off k hm hk hno => reject_edgeNew hw hp hf hm hk hno⟩⟩,
    fun mask hs => ?clear, fun hs => ?stop, fun hs hr => ?noResume, fun hs hr => ?resume, fun level hs => ?outSet, exec_acJudge_open,
    fun w h' hc => ?acJudge⟩
  case idle =>
    simp only [List.forall_mem_cons]
    refine ⟨?_, ?_, ?_, List.forall_mem_nil _⟩
    · simp [exec_syncEdgeSend, execSyncEdgeSend, hoff]
    · exact congrArg Host.Outcome.next (State.onRails_of_off hoff _)
    · simp [exec_uplinkLost, execUplinkLost, hoff]
  iterate 4 exact congrArg Host.Outcome.next (State.onRails_of_off (s := s.takeUplink _ _) hoff _)
  case syncEdge =>
    have hs : s.touchesOnly [.field, .link] [] s := State.touchesOnly_refl hw
    have h : s.touchesOnly [.field, .link] [] (s.syncSent.sendDown (.heartbeat s.runNow (BitVec.ofNat 64 s.dtime))) :=
      ((hs.field s.syncSent.field).link s.syncSent.link).sendDown _
    exact h.completes (exec_syncEdgeSend_due hp hd hl) ⟨rfl, rfl, (State.sentDown_one (s := s) (t := s.syncSent) rfl rfl _).sends⟩
  case crc =>
    have h : s.touchesOnly [.regs, .link] [R.FLD_CNT_UP_CRC]
        (State.bump { s with link := { s.link with up := s.link.up.drop 1 } } R.FLD_CNT_UP_CRC.N) :=
      ((State.touchesOnly_refl hw).link _).bump
    exact h.completes (exec_uplinkCrcError_eq hp)
      ⟨State.counts_bump (s := { s with link := { s.link with up := s.link.up.drop 1 } }) hw (Fld.ok_of rfl), rfl⟩
  case talking => rw [exec_uplinkLost_eq hp ht, if_neg (by omega)]
  case silent =>
    have hl : s.touchesOnly [.regs, .link, .loft] (R.FLD_STATUS :: lineStopOffsets) (s.latch R.FLD_STATUS.UPLINK_LOST) :=
      (State.touchesOnly_refl hw).latch
    have hkept := (State.regsWithin_refl (offs := lineStopOffsets) hl.wf).lineStop (List.Subset.refl _) .field
    refine (hl.lineStop .field).completes (by rw [exec_uplinkLost_eq hp ht, if_pos hlate]) ⟨?_, ?_⟩
    · exact (hkept.flag (by decide) (by decide)).trans (State.flag_latch hw (Fld.ok_of rfl))
    · exact (State.lineStop_bit hl.wf .field 7).trans (Bool.or_true _)
  case unknown =>
    have h : s.touchesOnly [.regs, .link] [R.FLD_Q_PULSES ch.val]
        ((s.takeUplink seq.toNat (.edgeDone ch res tag on off)).bump (R.FLD_Q_PULSES.N ch.val)) :=
      (hup _).bump (.head _)
    refine h.completes ((exec_edgeDone_eq hp ch res tag on off).trans (congrArg _ (State.pulseDone_unknown hno hr))) ?_
    exact State.counts_bump (s := s.takeUplink seq.toNat (.edgeDone ch res tag on off)) hw (Fld.ok_of rfl)
  case again =>
    obtain ⟨t, he, hc, hr, hsent, hcnt⟩ := reject_lsSet (seq := seq) hw hp hf hb hl
    exact ⟨t, he, hc, hr, hsent.sends, hcnt⟩
  case clear =>
    have h : s.touchesOnly [.regs, .link, .loft] lineStopOffsets (s.clearCauses mask.toNat) := (State.touchesOnly_refl hw).setCauses _
    exact h.completes (congrArg _ (State.written_of_serves hs _ _))
      ⟨fun k hk => State.clearCauses_bit hw _ hk, (State.clearCauses_sentDown hw _).sends⟩
  case stop =>
    have h : s.touchesOnly [.regs, .link, .loft] lineStopOffsets (s.lineStop .client) := (State.touchesOnly_refl hw).lineStop _
    exact h.completes (congrArg _ (State.written_of_serves hs _ _)) ⟨fun k _ => State.lineStop_bit hw _ k, (State.lineStop_sentDown hw _).sends⟩
  case noResume => exact congrArg _ ((State.written_of_serves hs _ _).trans (if_neg (by rw [hr]; exact Bool.false_ne_true)))
  case resume =>
    obtain ⟨hregs, hsent⟩ := State.fldResume_sentDown hr
    have h : s.changesOnly [.link] s.fldResume := fun c hc => by
      have := closedLink_of_ne (s := s) (c := c) (by simpa using hc)
      exact State.fldResume_holds (G := fun u => c.same s u) Holds.same_refl
    have he : exec .fldResume s = .next s.fldResume := congrArg Host.Outcome.next (State.written_of_serves hs _ _)
    exact ⟨_, he, h, ((State.regsWithin_refl hw).of_regs hregs).2, hsent.sends⟩
  case outSet =>
    have h : s.touchesOnly [.regs, .link] [R.FLD_OUT_SET] (s.put R.FLD_OUT_SET.LEVEL level.toNat) := (State.touchesOnly_refl hw).put _
    refine (h.sendDown _).completes (congrArg _ (State.written_of_serves hs _ _)) ⟨?_, ?_⟩
    · refine (State.get_put_same (s := s) hw (Fld.ok_of rfl) level.toNat).trans (Nat.mod_eq_of_lt ?_)
      exact level.isLt
    · have hpins : (s.put R.FLD_OUT_SET.LEVEL level.toNat).pinsTaken = s.pinsTaken :=
        State.pinsTaken_congr rfl (h.flag (by decide) (by decide)) (h.flag (by decide) (by decide))
      rw [BitVec.ofNat_toNat, BitVec.setWidth_eq]
      exact (State.sentDown_one (s := s) (t := s.put R.FLD_OUT_SET.LEVEL level.toNat) rfl hpins _).sends
  case acJudge =>
    intro fs ok
    have hn : s.touchesOnly [.regs, .link] [R.AUD_CNT_NOFRAME, R.AUD_CNT_AC_OK, R.AUD_CNT_AC_FAIL]
        { s with link := { s.link with acWindows := [] } } := (State.touchesOnly_refl hw).link _
    have h := hn.trans (State.acCounted_touchesOnly hn.wf ok fs.isEmpty) (by decide) (List.Subset.refl _)
    have hcnt := State.acCounted_counts hn.wf ok fs.isEmpty
    refine h.completes (exec_acJudge_closed h' hc) ⟨(State.acCounted_touchesOnly hn.wf ok fs.isEmpty).same (c := .link), hcnt⟩

end Sys2Proof.Machine
end

section
/-! PROOFS, the staging opcodes (R358, R379-R385), and what settles O40. -/

namespace Sys2Proof.Machine

variable {s u : State} {ring : Fin 8192} {index : BitVec 32} {d : Started} {j k n a op : Nat}

/-! ### Whose turn it is (R381) -/

theorem State.stagingAs_of_frozen (h : s.flag R.STG_STATUS.FROZEN = true ∨ s.stage.thawed = some s.dtime) (r i op : Nat) :
    s.stagingAs r i op = none := if_pos (by rcases h with h | h <;> simp [h])

/-- Another descriptor is the first staging one. -/
theorem State.stagingAs_of_other {r i : Nat} (hf : s.client.started.find? (fun x => stagingOp x.op) = some d) (h : d.ring ≠ r ∨ d.index ≠ i)
    (op : Nat) : s.stagingAs r i op = none := by
  unfold State.stagingAs
  rw [hf]
  dsimp only
  split
  · rfl
  · exact if_neg (by rcases h with h | h <;> simp [h])

/-- Without its turn no staging command does anything. -/
theorem exec_staging_idle (h : ∀ op, s.stagingAs ring.val index.toNat op = none) (cost : DecodeCost) :
    ∀ i ∈ [Instr.imageLoadProgram ring index, .imageLoadWeights ring index, .imageLoadReference ring index cost, .seqWrite ring index,
      .lpipeTable ring index, .setLoadRaw ring index, .setLoadEntries ring index, .setLoadClear ring index, .jobStart ring index,
      .jobStop ring index, .netSet ring index, .allowLoad ring index], exec i s = .next s := by
  simp only [List.forall_mem_cons]
  refine ⟨?_, ?_, ?_, ?_, ?_, ?_, ?_, ?_, ?_, ?_, ?_, ?_, List.forall_mem_nil _⟩
  · simp [exec_imageLoadProgram, execImageLoadProgram, h]
  · simp [exec_imageLoadWeights, execImageLoadWeights, h]
  · simp [exec_imageLoadReference, execImageLoadReference, h]
  · simp [exec_seqWrite, execSeqWrite, h]
  · simp [exec_lpipeTable, execLpipeTable, h]
  · simp [exec_setLoadRaw, execSetLoadRaw, h]
  · simp [exec_setLoadEntries, execSetLoadEntries, h]
  · simp [exec_setLoadClear, execSetLoadClear, h]
  · simp [exec_jobStart, execJobStart, h]
  · simp [exec_jobStop, execJobStop, h]
  · simp [exec_netSet, execNetSet, h]
  · simp [exec_allowLoad, execAllowLoad, h]

theorem filter_of_kind {p : Started → Bool} {o : Option Started} (h : o = some d) (hp : p d = true) : o.filter p = some d := by
  rw [h, Option.filter_some, if_pos hp]

theorem State.setStage_changesOnly (s : State) (x : StageSt) : s.changesOnly [.stage] (s.setStage x) := fun c hc =>
  (closedStage_of_ne (s := s) (c := c) (by simpa using hc)).upd s x Holds.same_refl

/-! ### SEQ_WRITE, LPIPE_TABLE, NET_SET, ALLOW_LOAD -/

/-- Entries put one after the other from an index on. -/
theorem keyGet_foldl_keyPut {α : Type} (l : List (Nat × α)) (base : Nat) (g : Nat → α) (j : Nat) : ∀ n,
    keyGet (((List.range n).map (fun i => (base + i, g i))).foldl (fun a e => keyPut a e.1 e.2) l) j =
      if base ≤ j ∧ j < base + n then some (g (j - base)) else keyGet l j
  | 0 => by rw [if_neg (by omega)]; rfl
  | n + 1 => by
    rw [List.range_succ, List.map_append, List.map_singleton, List.foldl_append, List.foldl_cons, List.foldl_nil, keyGet_keyPut,
      keyGet_foldl_keyPut l base g j n]
    by_cases hj : j = base + n
    · rw [if_pos hj, if_pos (by omega), hj, Nat.add_sub_cancel_left]
    · rw [if_neg hj]
      by_cases hin : base ≤ j ∧ j < base + n
      · rw [if_pos hin, if_pos (by omega)]
      · rw [if_neg hin, if_neg (by omega)]

/-- The staged entries after a SEQ_WRITE. -/
def State.seqStaged (s : State) (d : Started) : StageSt := { s.stage with
  seqTouched := true
  seq := ((List.range (d.data.length / 32)).map (fun i => (d.param 24 2 + i, SeqEntry.ofBytes (sliceBytes d.data (32 * i) 32)))).foldl
    (fun a e => keyPut a e.1 e.2) s.stage.seq }

theorem exec_seqWrite_eq (h : s.stagingAs ring.val index.toNat 0x11 = some d) :
    exec (.seqWrite ring index) s = .next ((s.setStage (s.seqStaged d)).complete d .ok 0) := by
  rw [exec_seqWrite, execSeqWrite, h]
  rfl

theorem tableValues_length (k n : Nat) (bs : List Byte) : (tableValues k n bs).length = n := by
  unfold tableValues
  split <;> rw [List.length_map, List.length_range]

theorem nth_map_range {α : Type} (f : Nat → α) (v : α) (hj : j < n) : nth ((List.range n).map f) j v = f j := by
  simp [nth, hj]

theorem State.tableLen_eq (s : State) (d : Started) : s.tableLen d =
    if d.param 25 1 = 2 then (s.withStage.width (d.param 24 1) * s.withStage.sensorLines (d.param 24 1) + 7) / 8
    else 2 * (s.withStage.width (d.param 24 1) * s.withStage.sensorLines (d.param 24 1)) := rfl

/-- The stage after an LPIPE_TABLE of `n` values. -/
def State.tableStaged (s : State) (d : Started) (n : Nat) : StageSt := { s.stage with
  tables := s.stage.tables.filter (fun x => !(x.1 == d.param 24 1 && x.2.1 == d.param 25 1)) ++
    [(d.param 24 1, d.param 25 1, tableValues (d.param 25 1) n d.data)] }

theorem exec_lpipeTable_eq (h : s.stagingAs ring.val index.toNat 0x12 = some d) : exec (.lpipeTable ring index) s =
    .next (if d.len ≠ s.tableLen d then s.complete d .badLen 0 else
      (s.setStage (s.tableStaged d (s.withStage.width (d.param 24 1) * s.withStage.sensorLines (d.param 24 1)))).complete d .ok 0) := by
  rw [exec_lpipeTable, execLpipeTable, h]
  rfl

/-- In the tables after an LPIPE_TABLE the one of its camera and table is the new one, the others stand as they were. -/
theorem State.mem_tableStaged {x : Nat × Nat × List Nat} (hx : x ∈ (s.tableStaged d n).tables) :
    (x.1 = d.param 24 1 ∧ x.2.1 = d.param 25 1 → x.2.2 = tableValues (d.param 25 1) n d.data) ∧
    (x.1 ≠ d.param 24 1 ∨ x.2.1 ≠ d.param 25 1 → x ∈ s.stage.tables) := by
  rcases List.mem_append.1 hx with hx | hx
  · obtain ⟨hm, hne⟩ := List.mem_filter.1 hx
    refine ⟨fun he => ?_, fun _ => hm⟩
    simp [he.1, he.2] at hne
  · rw [List.mem_singleton.1 hx]
    exact ⟨fun _ => rfl, fun hne => by simp at hne⟩

/-! ### JOB_CTL (R385) -/

theorem State.jobLive_iff : s.jobLive j = true ↔ s.jobState j = 2 ∨ s.jobState j = 3 := by simp [State.jobLive]

theorem exec_jobStart_eq (h : s.stagingAs ring.val index.toNat 0x20 = some d) (hk : d.param 25 1 = 0) :
    exec (.jobStart ring index) s = .next (s.stageJob d .start (!s.jobLive (d.param 24 1))) := by
  rw [exec_jobStart, execJobStart, filter_of_kind h (by simp [hk])]

theorem exec_jobStop_eq (h : s.stagingAs ring.val index.toNat 0x20 = some d) (hk : d.param 25 1 = 1) :
    exec (.jobStop ring index) s = .next (s.stageJob d .stop (s.jobLive (d.param 24 1))) := by
  rw [exec_jobStop, execJobStop, filter_of_kind h (by simp [hk])]

/-! ### IMAGE_LOAD of an image or a weight set (R258, R380) -/

theorem placeIn_eq (area : Nat × Nat) (used : List (Nat × Nat)) (n : Nat) : placeIn area used n =
    ((area.1 :: used.map (fun u => (u.1 + u.2 + 63) / 64 * 64)).filter (fun a =>
      decide (area.1 ≤ a) && decide (a + n ≤ area.1 + area.2) && used.all (fun u => apart u (a, n)))).foldl (keepLeast id) none := by
  unfold placeIn
  refine congrArg (fun f => List.foldl f none _) (funext fun m => funext fun b => ?_)
  cases m <;> rfl

/-- A place lies within its area. -/
theorem placeIn_within {area : Nat × Nat} {used : List (Nat × Nat)} (h : placeIn area used n = some a) :
    area.1 ≤ a ∧ a + n ≤ area.1 + area.2 := by
  rw [placeIn_eq] at h
  generalize hl : (area.1 :: used.map (fun u => (u.1 + u.2 + 63) / 64 * 64)).filter _ = l at h
  have hmem : a ∈ l := by
    cases l with
    | nil => exact absurd h nofun
    | cons b l => exact (foldl_keepLeast_spec (place := fun _ => 0) l b (List.pairwise_of_forall fun _ _ => Nat.le_refl 0) h).1
  rw [← hl] at hmem
  have hok := (List.mem_filter.1 hmem).2
  simp only [Bool.and_eq_true, decide_eq_true_eq] at hok
  exact hok.1

theorem State.stagePlace_within {x : Loading} (h : s.stagePlace j x n = some a) :
    (s.withStage.areaOf (s.withStage.jobPart j)).1 ≤ a ∧
    a + n ≤ (s.withStage.areaOf (s.withStage.jobPart j)).1 + (s.withStage.areaOf (s.withStage.jobPart j)).2 := by
  unfold State.stagePlace at h
  dsimp only at h
  split at h
  · next b hb =>
    split at h
    · cases h
      exact placeIn_within hb
    · cases h
  · cases h

/-- A store leaves the stage alone. -/
theorem State.store_stage {ag : MemAgent} {bs : List Byte} {r : MemRes} (h : s.store ag a bs = (r, u)) : u.stage = s.stage := by
  have hs : Comp.stage.same s (s.store ag a bs).2 := by
    have := closedRegs_of_ne (s := s) (c := .stage) (by decide)
    have := closedMem_of_ne (s := s) (c := .stage) (by decide)
    have := closedCel_of_ne (s := s) (c := .stage) (by decide)
    have := closedLoft_of_ne (s := s) (c := .stage) (by decide)
    exact State.store_holds (G := fun u => Comp.stage.same s u) Holds.same_refl
  rwa [h] at hs

theorem State.stageImage_full {f : List Byte} (h : s.stagePlace j (.image j) (f.take (fieldAt f 8 8)).length = none) :
    s.stageImage j f = (.stageFull, s) := by
  simp only [State.stageImage, h]

theorem State.stageImage_stored {f : List Byte} (h : s.stagePlace j (.image j) (f.take (fieldAt f 8 8)).length = some a)
    (hs : s.store .firmware a (f.take (fieldAt f 8 8)) = (.ok, u)) : s.stageImage j f = (.ok, u.setStage { s.stage with
      images := keyPut s.stage.images j (imageRef a (f.take (fieldAt f 8 8))) }) := by
  simp only [State.stageImage, h, hs, State.setStage, State.store_stage hs]

theorem State.stageImage_failed {f : List Byte} {r : MemRes} (h : s.stagePlace j (.image j) (f.take (fieldAt f 8 8)).length = some a)
    (hs : s.store .firmware a (f.take (fieldAt f 8 8)) = (r, u)) (hr : r ≠ .ok) : s.stageImage j f = (.parity, u) := by
  simp only [State.stageImage, h, hs]

theorem State.stageWeights_full {f : List Byte} (h : s.stagePlace j (.weights j) f.length = none) : s.stageWeights j f = (.stageFull, s) := by
  simp only [State.stageWeights, h]

theorem State.stageWeights_stored {f : List Byte} (h : s.stagePlace j (.weights j) f.length = some a) (hs : s.store .firmware a f = (.ok, u)) :
    s.stageWeights j f = (.ok, u.setStage { s.stage with weights := keyPut s.stage.weights j (weightRef a f) }) := by
  simp only [State.stageWeights, h, hs, State.setStage, State.store_stage hs]

theorem State.stageWeights_failed {f : List Byte} {r : MemRes} (h : s.stagePlace j (.weights j) f.length = some a)
    (hs : s.store .firmware a f = (r, u)) (hr : r ≠ .ok) : s.stageWeights j f = (.parity, u) := by
  simp only [State.stageWeights, h, hs]

theorem exec_imageLoadProgram_refused (h : s.stagingAs ring.val index.toNat 0x10 = some d) (hk : d.param 24 1 = 0) {e : Status}
    (he : imageStatus d.signers d.data = some e) : exec (.imageLoadProgram ring index) s = .next (s.complete d e 0) := by
  rw [exec_imageLoadProgram, execImageLoadProgram, filter_of_kind h (by simp [hk])]
  simp only [he]

theorem exec_imageLoadProgram_staged (h : s.stagingAs ring.val index.toNat 0x10 = some d) (hk : d.param 24 1 = 0)
    (he : imageStatus d.signers d.data = none) {st : Status} (hs : s.stageImage (d.param 25 1) d.data = (st, u)) :
    exec (.imageLoadProgram ring index) s = .next (u.complete d st 0) := by
  rw [exec_imageLoadProgram, execImageLoadProgram, filter_of_kind h (by simp [hk])]
  simp only [he, hs]

theorem exec_imageLoadWeights_refused (h : s.stagingAs ring.val index.toNat 0x10 = some d) (hk : d.param 24 1 = 1)
    (he : weightsOk d.data = false) : exec (.imageLoadWeights ring index) s = .next (s.complete d .imgFormat 0) := by
  rw [exec_imageLoadWeights, execImageLoadWeights, filter_of_kind h (by simp [hk])]
  simp [he]

theorem exec_imageLoadWeights_staged (h : s.stagingAs ring.val index.toNat 0x10 = some d) (hk : d.param 24 1 = 1)
    (he : weightsOk d.data = true) {st : Status} (hs : s.stageWeights (d.param 25 1) d.data = (st, u)) :
    exec (.imageLoadWeights ring index) s = .next (u.complete d st 0) := by
  rw [exec_imageLoadWeights, execImageLoadWeights, filter_of_kind h (by simp [hk])]
  simp [he, hs]

/-! ### IMAGE_LOAD of a reference image (R291) -/

theorem State.refFits_iff {slot dest : Nat} : s.refFits j slot dest n = true ↔
    let area := s.withStage.areaOf (s.withStage.jobPart j)
    area.1 ≤ dest ∧ dest + n ≤ area.1 + area.2 ∧
      s.reachable .firmware dest n = true ∧ ∀ u ∈ s.areaUsed (.ref j slot), apart u (dest, n) = true := by
  simp [State.refFits, and_assoc]

theorem exec_imageLoadReference_full {cost : DecodeCost} (h : s.stagingAs ring.val index.toNat 0x10 = some d) (hk : d.param 24 1 = 2)
    (hf : s.refFits (d.param 25 1) (d.param 26 1) (d.param 32 8) (d.param 40 4) = false) :
    exec (.imageLoadReference ring index cost) s = .next (s.complete d .stageFull 0) := by
  rw [exec_imageLoadReference, execImageLoadReference, filter_of_kind h (by simp [hk])]
  simp [hf]

/-- The decode of a reference image takes its budget (R358). -/
def SampleOut.counted (x : SampleOut) : Prop := x.status = .ok ∨ x.status = .shortData ∨ x.status = .corrupt

/-- A decode as its budget ends it. -/
def SampleOut.inBudget (x : SampleOut) (budget : Nat) (cost : DecodeCost) : SampleOut :=
  if (decide (x.status = .ok) || decide (x.status = .shortData) || decide (x.status = .corrupt)) && decide (budget ≤ cost.cycles.toNat) then
    { x with status := .timedOut, writes := x.writes.take cost.written.toNat }
  else x

theorem SampleOut.inBudget_of_early {x : SampleOut} {budget : Nat} {cost : DecodeCost} (h : cost.cycles.toNat < budget ∨ ¬ x.counted) :
    x.inBudget budget cost = x := by
  refine if_neg ?_
  simp only [Bool.and_eq_true, Bool.or_eq_true, decide_eq_true_eq, or_assoc]
  rintro ⟨hc, hb⟩
  rcases h with h | h
  · omega
  · exact h hc

theorem SampleOut.inBudget_of_late {x : SampleOut} {budget : Nat} {cost : DecodeCost} (hb : budget ≤ cost.cycles.toNat) (hc : x.counted) :
    x.inBudget budget cost = { x with status := .timedOut, writes := x.writes.take cost.written.toNat } := by
  refine if_pos ?_
  simp only [Bool.and_eq_true, Bool.or_eq_true, decide_eq_true_eq, or_assoc]
  exact ⟨hc, hb⟩

/-- The reference image of a decode that wrote all it could; an image is staged that ends OK or SHORT_DATA. -/
def State.refDone (s : State) (d : Started) (st : Sample) : State :=
  match st with
  | .ok => s.stageRef ⟨d.param 25 1, d.param 26 1, d.param 32 8, d.param 40 4, false⟩
  | .shortData => s.stageRef ⟨d.param 25 1, d.param 26 1, d.param 32 8, d.param 40 4, true⟩
  | _ => s

theorem State.refDone_staged (s : State) (d : Started) {st : Sample} (h : st = .ok ∨ st = .shortData) : s.refDone d st =
    s.stageRef ⟨d.param 25 1, d.param 26 1, d.param 32 8, d.param 40 4, st == .shortData⟩ := by
  rcases h with rfl | rfl <;> rfl

theorem State.refDone_other (s : State) (d : Started) {st : Sample} (h : st ≠ .ok) (h' : st ≠ .shortData) : s.refDone d st = s := by
  cases st with
  | ok => exact absurd rfl h
  | shortData => exact absurd rfl h'
  | _ => rfl

/-- The decode of a reference image that fits. -/
def Started.decoded (d : Started) : SampleOut := decodeSample (fileFormat d.data) d.data (d.param 40 4) (d.param 44 2) (d.param 46 2)

/-- The image of a decode stored, and the descriptor done. -/
def State.refLoaded (s : State) (d : Started) (x : SampleOut) : State :=
  let r := s.storeAll .inputPipe (d.param 32 8) x.writes
  if !r.1 then r.2.complete d .parity 0 else (r.2.refDone d x.status).complete d x.status.status 0

theorem exec_imageLoadReference_eq {cost : DecodeCost} (h : s.stagingAs ring.val index.toNat 0x10 = some d) (hk : d.param 24 1 = 2)
    (hf : s.refFits (d.param 25 1) (d.param 26 1) (d.param 32 8) (d.param 40 4) = true) {ok : Bool}
    (hs : s.storeAll .inputPipe (d.param 32 8) (d.decoded.inBudget (s.loadBudget d) cost).writes = (ok, u)) :
    exec (.imageLoadReference ring index cost) s = .next (if ok then
      (u.refDone d (d.decoded.inBudget (s.loadBudget d) cost).status).complete d (d.decoded.inBudget (s.loadBudget d) cost).status.status 0
      else u.complete d .parity 0) := by
  rw [exec_imageLoadReference, execImageLoadReference, filter_of_kind h (by simp [hk])]
  dsimp only
  rw [if_neg (by simp [hf])]
  change Host.Outcome.next (s.refLoaded d (d.decoded.inBudget (s.loadBudget d) cost)) = _
  rw [State.refLoaded, hs]
  cases ok <;> rfl

theorem exec_imageLoadReference_stored {cost : DecodeCost} (h : s.stagingAs ring.val index.toNat 0x10 = some d) (hk : d.param 24 1 = 2)
    (hf : s.refFits (d.param 25 1) (d.param 26 1) (d.param 32 8) (d.param 40 4) = true) {x : SampleOut}
    (hx : d.decoded.inBudget (s.loadBudget d) cost = x) (hs : s.storeAll .inputPipe (d.param 32 8) x.writes = (true, u)) :
    exec (.imageLoadReference ring index cost) s = .next ((u.refDone d x.status).complete d x.status.status 0) := by
  subst hx
  exact (exec_imageLoadReference_eq h hk hf hs).trans (congrArg _ (if_pos rfl))

theorem exec_imageLoadReference_failed {cost : DecodeCost} (h : s.stagingAs ring.val index.toNat 0x10 = some d) (hk : d.param 24 1 = 2)
    (hf : s.refFits (d.param 25 1) (d.param 26 1) (d.param 32 8) (d.param 40 4) = true) {x : SampleOut}
    (hx : d.decoded.inBudget (s.loadBudget d) cost = x) (hs : s.storeAll .inputPipe (d.param 32 8) x.writes = (false, u)) :
    exec (.imageLoadReference ring index cost) s = .next (u.complete d .parity 0) := by
  subst hx
  exact (exec_imageLoadReference_eq h hk hf hs).trans (congrArg _ (if_neg Bool.false_ne_true))

/-- Settles O40: a command whose turn it is not does nothing, and each opcode does one thing to the stage. -/
theorem stagingOpcodes : Obligations.StagingOpcodes := by
  intro s ring index cycles written _ as_ all ends stages
  have staged {i : Instr} {d : Started} {x : StageSt} {p : State → Prop} (he : exec i s = .next ((s.setStage x).complete d .ok 0))
      (hp : p (s.setStage x)) : stages i d [.stage] p := ⟨_, he, s.setStage_changesOnly x, hp⟩
  refine ⟨fun hf => exec_staging_idle (State.stagingAs_of_frozen hf _ _) _, fun d hd hne => exec_staging_idle (State.stagingAs_of_other hd hne) _,
    fun d h => ?seqWrite, fun d h => ?table, fun d h => ?net, fun d h => ?allow, fun d h => ?job, fun d h => ?load⟩
  case seqWrite =>
    refine staged (exec_seqWrite_eq h) ⟨rfl, fun k hk => ?_, fun k hk => ?_⟩
    · refine (keyGet_foldl_keyPut s.stage.seq (d.param 24 2) (fun i => SeqEntry.ofBytes (sliceBytes d.data (32 * i) 32)) _ _).trans ?_
      rw [if_pos (by omega), Nat.add_sub_cancel_left]
    · refine (keyGet_foldl_keyPut s.stage.seq (d.param 24 2) (fun i => SeqEntry.ofBytes (sliceBytes d.data (32 * i) 32)) _ _).trans ?_
      rw [if_neg (by omega)]
  case table =>
    intro c k n len
    have he := exec_lpipeTable_eq h
    rw [State.tableLen_eq] at he
    refine ⟨fun hl => ?_, fun hl => ?_⟩
    · rwa [if_pos hl] at he
    · rw [if_neg (not_not.2 hl)] at he
      refine staged he ⟨tableValues k n d.data, List.mem_append_right _ (.head _), tableValues_length .., fun hk j hj => ?_, fun hk j hj => ?_,
        fun x hx => State.mem_tableStaged hx⟩
      · rw [tableValues, if_neg hk, nth_map_range _ _ hj]
      · rw [tableValues, if_pos hk, nth_map_range _ _ hj]
  case net => exact staged (by rw [exec_netSet, execNetSet, h]) rfl
  case allow => exact staged (by rw [exec_allowLoad, execAllowLoad, h]) rfl
  case job =>
    intro j runs
    have hon (hr : runs) : s.jobLive (d.param 24 1) = true := State.jobLive_iff.2 hr
    have hoff (hr : ¬ runs) : s.jobLive (d.param 24 1) = false := Bool.eq_false_of_not_eq_true (mt State.jobLive_iff.1 hr)
    refine ⟨fun hk => ⟨fun hr => ?_, fun hr => ?_⟩, fun hk => ⟨fun hr => ?_, fun hr => ?_⟩⟩
    · exact (exec_jobStart_eq h hk).trans (congrArg _ (if_pos (by rw [hon hr]; rfl)))
    · exact staged ((exec_jobStart_eq h hk).trans (congrArg _ (if_neg (by rw [hoff hr]; decide)))) rfl
    · exact (exec_jobStop_eq h hk).trans (congrArg _ (if_pos (by rw [hoff hr]; rfl)))
    · exact staged ((exec_jobStop_eq h hk).trans (congrArg _ (if_neg (by rw [hon hr]; decide)))) rfl
  case load =>
    intro j t area
    refine ⟨fun hk => ?program, fun hk => ?weights, fun hk => ?reference⟩
    case program =>
      intro b
      refine ⟨fun e he => exec_imageLoadProgram_refused h hk he,
        fun he hp => exec_imageLoadProgram_staged h hk he (State.stageImage_full hp), fun a r u he hp hs => ?_⟩
      obtain ⟨hlo, hhi⟩ := State.stagePlace_within hp
      refine ⟨hlo, hhi, fun hr => ?_, fun hr => exec_imageLoadProgram_staged h hk he (State.stageImage_failed hp hs hr)⟩
      subst hr
      exact exec_imageLoadProgram_staged h hk he (State.stageImage_stored hp hs)
    case weights =>
      refine ⟨fun he => exec_imageLoadWeights_refused h hk he,
        fun he hp => exec_imageLoadWeights_staged h hk he (State.stageWeights_full hp), fun a r u he hp hs => ?_⟩
      obtain ⟨hlo, hhi⟩ := State.stagePlace_within hp
      refine ⟨hlo, hhi, fun hr => ?_, fun hr => exec_imageLoadWeights_staged h hk he (State.stageWeights_failed hp hs hr)⟩
      subst hr
      exact exec_imageLoadWeights_staged h hk he (State.stageWeights_stored hp hs)
    case reference =>
      intro dest slot n fits budget x counted i
      have hfits : s.refFits j slot dest n = true ↔ fits := State.refFits_iff
      have early (hc : cycles.toNat < budget ∨ ¬ counted) : d.decoded.inBudget (s.loadBudget d) ⟨cycles, written⟩ = x :=
        SampleOut.inBudget_of_early (x := d.decoded) (budget := s.loadBudget d) (cost := ⟨cycles, written⟩) hc
      have late (hb : budget ≤ cycles.toNat) (hc : counted) : d.decoded.inBudget (s.loadBudget d) ⟨cycles, written⟩ =
          { x with status := .timedOut, writes := x.writes.take written.toNat } :=
        SampleOut.inBudget_of_late (x := d.decoded) (budget := s.loadBudget d) (cost := ⟨cycles, written⟩) hb hc
      refine ⟨fun hf => exec_imageLoadReference_full h hk (Bool.eq_false_of_not_eq_true (mt hfits.1 hf)),
        fun hf u hs hc => ⟨fun hok => ?_, fun hn hn' => ?_⟩,
        fun hf u hs hc => exec_imageLoadReference_failed h hk (hfits.2 hf) (early hc) hs,
        fun hf u hb hc hs => exec_imageLoadReference_stored h hk (hfits.2 hf) (late hb hc) hs⟩
      · exact (exec_imageLoadReference_stored h hk (hfits.2 hf) (early hc) hs).trans
          (congrArg (fun t => Host.Outcome.next (t.complete d x.status.status 0)) (State.refDone_staged u d hok))
      · exact (exec_imageLoadReference_stored h hk (hfits.2 hf) (early hc) hs).trans
          (congrArg (fun t => Host.Outcome.next (t.complete d x.status.status 0)) (State.refDone_other u d hn hn'))

end Sys2Proof.Machine
end

section
/-! SUPPORT, comma lanes: the lanes, the events that a tick notes, and the parts of State that a lane's operations change (R83, R89). -/

namespace Sys2Proof.Machine

variable {s t : State} {n : Nat} {cs : List Comp} {offs : List Nat} {f g : Fld}

/-! ### Lanes -/

theorem State.lane_setLane (h : n < s.lanes.length) (m : Nat) (l : LaneSt) : (s.setLane n l).lane m = if m = n then l else s.lane m :=
  nth_setNth h m l {}

theorem State.lane_setLane_same (h : n < s.lanes.length) (l : LaneSt) : (s.setLane n l).lane n = l :=
  (State.lane_setLane h n l).trans (if_pos rfl)

theorem State.lane_setLane_other {m : Nat} (h : m ≠ n) (l : LaneSt) : (s.setLane n l).lane m = s.lane m := by
  unfold State.lane State.setLane nth
  dsimp only
  rw [setNth_eq_set, List.getD_eq_getElem?_getD, List.getElem?_set_ne h.symm, List.getD_eq_getElem?_getD]

theorem State.setLane_setLane (n : Nat) (a b : LaneSt) : (s.setLane n a).setLane n b = s.setLane n b := by
  unfold State.setLane
  dsimp only
  rw [setNth_eq_set, setNth_eq_set, setNth_eq_set, List.set_set]

theorem State.length_setLane (m : Nat) (l : LaneSt) : (s.setLane m l).lanes.length = s.lanes.length := length_setNth ..

theorem State.lane_of_lanes (h : t.lanes = s.lanes) (m : Nat) : t.lane m = s.lane m := by rw [State.lane, h, State.lane]

@[simp] theorem State.get_setLane (s : State) (n : Nat) (l : LaneSt) (f : Fld) : (s.setLane n l).get f = s.get f := rfl
@[simp] theorem State.flag_setLane (s : State) (n : Nat) (l : LaneSt) (f : Fld) : (s.setLane n l).flag f = s.flag f := rfl
@[simp] theorem State.get64_setLane (s : State) (n : Nat) (l : LaneSt) (f g : Fld) : (s.setLane n l).get64 f g = s.get64 f g := rfl
@[simp] theorem State.laneState_setLane (s : State) (n m : Nat) (l : LaneSt) : (s.setLane n l).laneState m = s.laneState m := rfl

/-! ### What an operation leaves alone -/

theorem State.touchesOnly.setLane (h : s.touchesOnly cs offs t) (n : Nat) (l : LaneSt) (hc : Comp.lanes ∈ cs := by decide) :
    s.touchesOnly cs offs (t.setLane n l) :=
  h.part hc (by decide) fun _ hd => (closedLanes_of_ne hd).upd t _ Holds.same_refl

theorem State.touchesOnly.gts (h : s.touchesOnly cs offs t) (x : GtsSt) (hc : Comp.gts ∈ cs) : s.touchesOnly cs offs { t with gts := x } :=
  h.part hc (by decide) fun _ hd => (closedGts_of_ne hd).upd t x Holds.same_refl

theorem State.touchesOnly.draw (h : s.touchesOnly cs offs t) (hc : Comp.free ∈ cs := by decide) : s.touchesOnly cs offs t.draw.2 :=
  h.part hc (by decide) fun _ hd => (closedFree_of_ne hd).upd t _ Holds.same_refl

theorem State.touchesOnly.ite {c : Prop} [Decidable c] {u : State} (ht : s.touchesOnly cs offs t) (hu : s.touchesOnly cs offs u) :
    s.touchesOnly cs offs (if c then t else u) := by
  split <;> assumption

/-- An event that is counted, and noted beside the register (R89). -/
theorem State.touchesOnly.bumpNow (h : s.touchesOnly cs offs t) (hf : f.off ∈ offs) (hc : Comp.regs ∈ cs := by decide) :
    s.touchesOnly cs offs (t.bumpNow f) :=
  (h.bump hf hc).regs ((h.2.bump hf).setReg (.inr (Nat.le_add_left ..)) _) (State.changesOnly_regs State.bump_holds) hc

/-! ### Registers -/

theorem State.counts_bumpNow (hw : sparseWf regDefault s.regs = true) (hf : f.ok) : s.counts f 1 (s.bumpNow f) := by
  have hap : f.onTick.apart f := .inl (by simp [Fld.onTick])
  have hok : f.onTick.ok := hf
  refine (State.get_put_apart (State.put_wf hw _ _) hok hap _).trans ?_
  exact State.counts_bump hw hf

section
variable (hw : sparseWf regDefault s.regs = true) (hf : f.ok) {c : Prop} [Decidable c]
include hw hf

omit hf in
theorem State.wf_latchWhen (f : Fld) : sparseWf regDefault (if c then s.latch f else s).regs = true := by
  split
  · exact State.put_wf (State.put_wf hw _ _) _ _
  · exact hw

theorem State.flag_latchWhen : (if c then s.latch f else s).flag f = (decide c || s.flag f) := by
  by_cases hc : c
  · rw [if_pos hc, State.flag_latch hw hf, decide_eq_true hc, Bool.true_or]
  · rw [if_neg hc, decide_eq_false hc, Bool.false_or]

theorem State.flag_latchWhen_apart (hg : g.off < 0x400000) (ha : f.apart g) : (if c then s.latch f else s).flag g = s.flag g := by
  split
  · exact State.flag_latch_apart hw hf hg ha
  · rfl

end

end Sys2Proof.Machine
end

section
/-! PROOFS, comma lanes: eye scans (R90, R91), and what settles O25. -/

namespace Sys2Proof.Machine

variable {s t : State} {n : Nat} {lane : Fin 64} {phase : BitVec 7} {voff : BitVec 9} {dwell : BitVec 5}

/-! ### The end of a scan -/

/-- A scan is over: its bits and its mismatches are shown, and a flag says how it ended (R90, R91). -/
def State.showScan (s : State) (n : Nat) (how : Fld) (bits errs : Nat) : State :=
  ((((s.drop (R.LANE_L_EYE_STAT.BUSY n)).latch how).put (R.LANE_L_EYE_STAT.BITS_HI n) (bits / 4294967296)).put
    (R.LANE_L_EYE_BITS_LO.N n) bits).put (R.LANE_L_EYE_ERR.N n) errs

/-- A scan that runs is over, so many bits and mismatches having been compared. -/
def State.scanEnded (t : State) (n : Nat) (how : Fld) (bits errs : Nat) : Prop :=
  t.flag (R.LANE_L_EYE_STAT.BUSY n) = false ∧ t.flag how = true ∧
    t.get64 (R.LANE_L_EYE_BITS_LO.N n) (R.LANE_L_EYE_STAT.BITS_HI n) = bits ∧ t.get (R.LANE_L_EYE_ERR.N n) = errs

/-- The registers that show a scan. -/
def scanOffsets (n : Nat) : List Nat := [R.LANE_L_EYE_STAT n, R.LANE_L_EYE_ERR n, R.LANE_L_EYE_BITS_LO n]

theorem eyeStat_lt (hn : n < 64) : R.LANE_L_EYE_STAT n < 0x400000 := by
  unfold R.LANE_L_EYE_STAT
  omega

theorem eyeOffsets_ne (n : Nat) : R.LANE_L_EYE_STAT n ≠ R.LANE_L_EYE_ERR n ∧ R.LANE_L_EYE_STAT n ≠ R.LANE_L_EYE_BITS_LO n ∧
    R.LANE_L_EYE_BITS_LO n ≠ R.LANE_L_EYE_ERR n := by
  simp [R.LANE_L_EYE_STAT, R.LANE_L_EYE_ERR, R.LANE_L_EYE_BITS_LO]

theorem State.touchesOnly.showScan {cs : List Comp} (h : s.touchesOnly cs (scanOffsets n) t) (hc : Comp.regs ∈ cs) {how : Fld}
    (ho : how.off = R.LANE_L_EYE_STAT n) (bits errs : Nat) : s.touchesOnly cs (scanOffsets n) (t.showScan n how bits errs) := by
  have hstat : R.LANE_L_EYE_STAT n ∈ scanOffsets n := .head _
  exact ((((h.put 0 hstat hc).latch (ho ▸ hstat) hc).put _ hstat hc).put _ (.tail _ (.tail _ (.head _))) hc).put _ (.tail _ (.head _)) hc

theorem State.showScan_ends (hw : sparseWf regDefault s.regs = true) (hn : n < 64) {how : Fld} (ho : how = R.LANE_L_EYE_STAT.DONE n ∨
    how = R.LANE_L_EYE_STAT.ABORTED n) {bits : Nat} (hb : bits < 2 ^ 40) (errs : Nat) :
    (s.showScan n how bits errs).scanEnded n how bits (errs % 2 ^ 32) := by
  have hlt := eyeStat_lt hn
  obtain ⟨hok, hbusy, hhi, hoff⟩ : how.ok ∧ how.apart (R.LANE_L_EYE_STAT.BUSY n) ∧ (R.LANE_L_EYE_STAT.BITS_HI n).apart how ∧
      how.off = R.LANE_L_EYE_STAT n := by
    obtain rfl | rfl := ho <;> exact ⟨Fld.ok_of rfl, Fld.apart_of rfl, Fld.apart_of rfl, rfl⟩
  obtain ⟨hse, hsl, hle⟩ := eyeOffsets_ne n
  have hlo : ∀ g : Fld, g.off = R.LANE_L_EYE_STAT n → (R.LANE_L_EYE_BITS_LO.N n).apart g := fun g hg => .inl (hg ▸ hsl)
  have herr : ∀ g : Fld, g.off = R.LANE_L_EYE_STAT n → (R.LANE_L_EYE_ERR.N n).apart g := fun g hg => .inl (hg ▸ hse)
  have w1 := State.put_wf hw (R.LANE_L_EYE_STAT.BUSY n) 0
  have w2 : sparseWf regDefault ((s.drop (R.LANE_L_EYE_STAT.BUSY n)).latch how).regs = true := State.put_wf (State.put_wf w1 _ _) _ _
  have w3 := State.put_wf w2 (R.LANE_L_EYE_STAT.BITS_HI n) (bits / 4294967296)
  have w4 := State.put_wf w3 (R.LANE_L_EYE_BITS_LO.N n) bits
  have okHi : (R.LANE_L_EYE_STAT.BITS_HI n).ok := Fld.ok_of rfl
  have okLo : (R.LANE_L_EYE_BITS_LO.N n).ok := Fld.ok_of rfl
  have okErr : (R.LANE_L_EYE_ERR.N n).ok := Fld.ok_of rfl
  refine ⟨?_, ?_, ?_, ?_⟩
  · rw [State.showScan, State.flag_put_apart w4 okErr (herr _ rfl), State.flag_put_apart w3 okLo (hlo _ rfl),
      State.flag_put_apart w2 okHi (Fld.apart_of rfl), State.flag_latch_apart (s := s.drop _) w1 hok hlt hbusy]
    exact congrArg (· != 0) (State.get_drop hw (Fld.ok_of rfl))
  · rw [State.showScan, State.flag_put_apart w4 okErr (herr _ hoff), State.flag_put_apart w3 okLo (hlo _ hoff),
      State.flag_put_apart w2 okHi hhi]
    exact State.flag_latch w1 hok
  · rw [State.showScan, State.get64_put_apart w4 okErr (.inl hle) (herr _ rfl), State.get64,
      State.get_put_same w3 okLo, State.get_put_apart w3 okLo (hlo _ rfl), State.get_put_same w2 okHi]
    change bits % 2 ^ 32 + 4294967296 * (bits / 4294967296 % 2 ^ 8) = bits
    omega
  · exact State.get_put_same w4 okErr errs

/-! ### EYE_SCAN_DONE and EYE_SCAN_ABORT (R90, R91) -/

theorem exec_eyeScanDone_idle (hb : s.flag (R.LANE_L_EYE_STAT.BUSY lane.val) = false) (mis : BitVec 40) :
    exec (.eyeScanDone lane mis) s = .next s := congrArg Host.Outcome.next (if_pos (by rw [hb]; rfl))

theorem exec_eyeScanDone_busy (hb : s.flag (R.LANE_L_EYE_STAT.BUSY lane.val) = true) (mis : BitVec 40) :
    exec (.eyeScanDone lane mis) s = .next (s.showScan lane.val (R.LANE_L_EYE_STAT.DONE lane.val) (2 ^ ((s.lane lane.val).dwell + 10))
      (satNat 32 (min mis.toNat (2 ^ ((s.lane lane.val).dwell + 10))))) :=
  congrArg Host.Outcome.next (if_neg (by rw [hb]; decide))

theorem exec_eyeScanAbort_idle (hs : s.serves) (hb : s.flag (R.LANE_L_EYE_STAT.BUSY lane.val) = false) :
    exec (.eyeScanAbort lane) s = .next s :=
  (congrArg Host.Outcome.next (State.written_of_serves hs _ _)).trans (congrArg _ (if_pos (by rw [hb]; rfl)))

theorem exec_eyeScanAbort_busy (hs : s.serves) (hb : s.flag (R.LANE_L_EYE_STAT.BUSY lane.val) = true) : ∃ v w : Nat,
    let b := v % 2 ^ ((s.lane lane.val).dwell + 10)
    exec (.eyeScanAbort lane) s = .next (s.draw.2.draw.2.showScan lane.val (R.LANE_L_EYE_STAT.ABORTED lane.val) b
      (if b = 0 then 0 else w % (b + 1))) :=
  ⟨s.draw.1.toNat, s.draw.2.draw.1.toNat,
    (congrArg Host.Outcome.next (State.written_of_serves hs _ _)).trans (congrArg _ (if_neg (by rw [hb]; decide)))⟩

theorem eyeScanDone_completes (hw : sparseWf regDefault s.regs = true) (hb : s.flag (R.LANE_L_EYE_STAT.BUSY lane.val) = true)
    (hd : (s.lane lane.val).dwell ≤ 24) (mis : BitVec 40) : let b := 2 ^ ((s.lane lane.val).dwell + 10)
    s.completes (.eyeScanDone lane mis) [.regs] (scanOffsets lane.val)
      (fun t => t.scanEnded lane.val (R.LANE_L_EYE_STAT.DONE lane.val) b (min (2 ^ 32 - 1) (min mis.toNat b))) := by
  intro b
  have hlt : b < 2 ^ 40 := Nat.pow_lt_pow_right (by decide) (by omega)
  refine (State.touchesOnly.showScan (State.touchesOnly_refl hw) (.head _) rfl _ _).completes (exec_eyeScanDone_busy hb mis) ?_
  have hsat : min (2 ^ 32 - 1) (min mis.toNat b) % 2 ^ 32 = min (2 ^ 32 - 1) (min mis.toNat b) := Nat.mod_eq_of_lt (by omega)
  have h := State.showScan_ends hw lane.isLt (how := R.LANE_L_EYE_STAT.DONE lane.val) (.inl rfl) hlt (min (2 ^ 32 - 1) (min mis.toNat b))
  rw [hsat] at h
  rwa [satNat_eq_min]

theorem eyeScanAbort_completes (hw : sparseWf regDefault s.regs = true) (hs : s.serves)
    (hb : s.flag (R.LANE_L_EYE_STAT.BUSY lane.val) = true) (hd : (s.lane lane.val).dwell ≤ 24) : ∃ b e,
    b < 2 ^ ((s.lane lane.val).dwell + 10) ∧ e ≤ b ∧ s.completes (.eyeScanAbort lane) [.regs, .free] (scanOffsets lane.val)
      (fun t => t.scanEnded lane.val (R.LANE_L_EYE_STAT.ABORTED lane.val) b e) := by
  obtain ⟨v, w, he⟩ := exec_eyeScanAbort_busy hs hb
  have htotal : 2 ^ ((s.lane lane.val).dwell + 10) ≤ 2 ^ 34 := Nat.pow_le_pow_right (by decide) (by omega)
  have hlt : v % 2 ^ ((s.lane lane.val).dwell + 10) < 2 ^ ((s.lane lane.val).dwell + 10) := Nat.mod_lt _ (Nat.two_pow_pos _)
  revert he hlt
  generalize v % 2 ^ ((s.lane lane.val).dwell + 10) = b
  intro he hlt
  have hle : (if b = 0 then 0 else w % (b + 1)) ≤ b := by
    have := Nat.mod_lt w (show 0 < b + 1 from Nat.succ_pos b)
    split <;> omega
  have hfree : s.touchesOnly [.regs, .free] (scanOffsets lane.val) s.draw.2.draw.2 := (State.touchesOnly_refl hw).draw.draw
  exact ⟨b, _, hlt, (Nat.mod_le _ _).trans hle, (State.touchesOnly.showScan hfree (.head _) rfl _ _).completes he
    (State.showScan_ends (s := s.draw.2.draw.2) hw lane.isLt (.inr rfl) (by omega) _)⟩

/-! ### EYE_SCAN_START (R90, R91) -/

/-- The settings written, as the control register keeps them. -/
def State.keepScan (s : State) (n phase voff dwell : Nat) : State :=
  ((s.put (R.LANE_L_EYE_CTL.PHASE n) phase).put (R.LANE_L_EYE_CTL.VOFF n) voff).put (R.LANE_L_EYE_CTL.DWELL n) dwell

/-- A flag for each reason not to begin (R91). -/
def State.markScan (s : State) (n : Nat) (busy range noLock : Bool) : State :=
  let s := if busy then s.latch (R.LANE_L_EYE_STAT.OVERRUN n) else s
  let s := if range then s.latch (R.LANE_L_EYE_STAT.RANGE n) else s
  if noLock then s.latch (R.LANE_L_EYE_STAT.NOLOCK n) else s

/-- The registers as a scan begins: its results are 0 (R90). -/
def State.clearScan (s : State) (n : Nat) : State :=
  (((s.drop (R.LANE_L_EYE_ERR.N n)).drop (R.LANE_L_EYE_BITS_LO.N n)).drop (R.LANE_L_EYE_STAT.BITS_HI n)).raise (R.LANE_L_EYE_STAT.BUSY n)

/-- A scan begins with its settings latched (R90). -/
def State.beginScan (s : State) (n : Nat) (phase voff : Int) (dwell : Nat) : State :=
  (s.clearScan n).setLane n { s.lane n with dwell := dwell, phase := phase, voff := voff }

/-- A setting is out of range (R91). -/
def scanOutside (phase voff : Int) (dwell : Nat) : Bool :=
  decide (phase < -32 || phase > 31 || voff < -127 || voff > 127 || dwell > 24)

theorem scanOutside_eq (phase voff : Int) (dwell : Nat) : scanOutside phase voff dwell =
    !decide (phase ≥ -32 ∧ phase ≤ 31 ∧ voff ≥ -127 ∧ voff ≤ 127 ∧ dwell ≤ 24) := by
  rw [scanOutside, ← decide_not]
  refine decide_eq_decide.2 ?_
  simp only [Bool.or_eq_true, decide_eq_true_eq]
  omega

theorem State.eyeStart_eq (n phase voff dwell : Nat) : s.eyeStart n phase voff dwell =
    if s.flag (R.LANE_L_EYE_STAT.BUSY n) || scanOutside (signed 7 phase) (signed 9 voff) dwell || decide (s.laneState n < 3) then
      s.markScan n (s.flag (R.LANE_L_EYE_STAT.BUSY n)) (scanOutside (signed 7 phase) (signed 9 voff) dwell) (decide (s.laneState n < 3))
    else (s.markScan n (s.flag (R.LANE_L_EYE_STAT.BUSY n)) (scanOutside (signed 7 phase) (signed 9 voff) dwell)
      (decide (s.laneState n < 3))).beginScan n (signed 7 phase) (signed 9 voff) dwell := rfl

theorem State.keepScan_touchesOnly {cs : List Comp} {offs : List Nat} (hw : sparseWf regDefault s.regs = true) (hc : Comp.regs ∈ cs)
    (ho : R.LANE_L_EYE_CTL n ∈ offs) (phase voff dwell : Nat) : s.touchesOnly cs offs (s.keepScan n phase voff dwell) :=
  (((State.touchesOnly_refl hw).put phase ho hc).put voff ho hc).put dwell ho hc

theorem State.keepScan_kept (hw : sparseWf regDefault s.regs = true) (phase voff dwell : Nat) : let t := s.keepScan n phase voff dwell
    t.get (R.LANE_L_EYE_CTL.PHASE n) = phase % 2 ^ 7 ∧ t.get (R.LANE_L_EYE_CTL.VOFF n) = voff % 2 ^ 9 ∧
      t.get (R.LANE_L_EYE_CTL.DWELL n) = dwell % 2 ^ 5 := by
  have w1 := State.put_wf hw (R.LANE_L_EYE_CTL.PHASE n) phase
  have w2 := State.put_wf w1 (R.LANE_L_EYE_CTL.VOFF n) voff
  have okP : (R.LANE_L_EYE_CTL.PHASE n).ok := Fld.ok_of rfl
  have okV : (R.LANE_L_EYE_CTL.VOFF n).ok := Fld.ok_of rfl
  have okD : (R.LANE_L_EYE_CTL.DWELL n).ok := Fld.ok_of rfl
  refine ⟨?_, ?_, State.get_put_same w2 okD dwell⟩
  · exact (State.get_put_apart w2 okD (Fld.apart_of rfl) _).trans
      ((State.get_put_apart w1 okV (Fld.apart_of rfl) _).trans (State.get_put_same hw okP phase))
  · exact (State.get_put_apart w2 okD (Fld.apart_of rfl) _).trans (State.get_put_same w1 okV voff)

theorem State.touchesOnly.markScan {cs : List Comp} {offs : List Nat} (h : s.touchesOnly cs offs t) (hc : Comp.regs ∈ cs)
    (ho : R.LANE_L_EYE_STAT n ∈ offs) (busy range noLock : Bool) : s.touchesOnly cs offs (t.markScan n busy range noLock) := by
  have h1 : s.touchesOnly cs offs (if busy then t.latch (R.LANE_L_EYE_STAT.OVERRUN n) else t) := .ite (h.latch ho hc) h
  have h2 := State.touchesOnly.ite (c := range = true) (h1.latch (f := R.LANE_L_EYE_STAT.RANGE n) ho hc) h1
  exact State.touchesOnly.ite (c := noLock = true) (h2.latch (f := R.LANE_L_EYE_STAT.NOLOCK n) ho hc) h2

/-- Each flag is set where its reason is there, and else stays. -/
theorem State.markScan_flags (hw : sparseWf regDefault s.regs = true) (hn : n < 64) (busy range noLock : Bool) :
    let t := s.markScan n busy range noLock
    t.flag (R.LANE_L_EYE_STAT.BUSY n) = s.flag (R.LANE_L_EYE_STAT.BUSY n) ∧
      t.flag (R.LANE_L_EYE_STAT.OVERRUN n) = (busy || s.flag (R.LANE_L_EYE_STAT.OVERRUN n)) ∧
      t.flag (R.LANE_L_EYE_STAT.RANGE n) = (range || s.flag (R.LANE_L_EYE_STAT.RANGE n)) ∧
      t.flag (R.LANE_L_EYE_STAT.NOLOCK n) = (noLock || s.flag (R.LANE_L_EYE_STAT.NOLOCK n)) := by
  have hlt := eyeStat_lt hn
  have okO : (R.LANE_L_EYE_STAT.OVERRUN n).ok := Fld.ok_of rfl
  have okR : (R.LANE_L_EYE_STAT.RANGE n).ok := Fld.ok_of rfl
  have okN : (R.LANE_L_EYE_STAT.NOLOCK n).ok := Fld.ok_of rfl
  have w1 : sparseWf regDefault (if busy then s.latch (R.LANE_L_EYE_STAT.OVERRUN n) else s).regs = true := State.wf_latchWhen hw _
  have w2 : sparseWf regDefault (if range then (if busy then s.latch (R.LANE_L_EYE_STAT.OVERRUN n) else s).latch
      (R.LANE_L_EYE_STAT.RANGE n) else (if busy then s.latch (R.LANE_L_EYE_STAT.OVERRUN n) else s)).regs = true := State.wf_latchWhen w1 _
  refine ⟨?_, ?_, ?_, ?_⟩
  · refine (State.flag_latchWhen_apart w2 okN hlt (Fld.apart_of rfl)).trans ?_
    refine (State.flag_latchWhen_apart w1 okR hlt (Fld.apart_of rfl)).trans ?_
    exact State.flag_latchWhen_apart hw okO hlt (Fld.apart_of rfl)
  · refine (State.flag_latchWhen_apart w2 okN hlt (Fld.apart_of rfl)).trans ?_
    refine (State.flag_latchWhen_apart w1 okR hlt (Fld.apart_of rfl)).trans ?_
    simpa using State.flag_latchWhen hw okO (c := busy = true)
  · refine (State.flag_latchWhen_apart w2 okN hlt (Fld.apart_of rfl)).trans ((State.flag_latchWhen w1 okR).trans ?_)
    rw [State.flag_latchWhen_apart hw okO hlt (Fld.apart_of rfl), Bool.decide_eq_true]
  · refine (State.flag_latchWhen w2 okN).trans ?_
    rw [State.flag_latchWhen_apart w1 okR hlt (Fld.apart_of rfl), State.flag_latchWhen_apart hw okO hlt (Fld.apart_of rfl),
      Bool.decide_eq_true]

theorem State.touchesOnly.beginScan {cs : List Comp} {offs : List Nat} (h : s.touchesOnly cs offs t) (hr : Comp.regs ∈ cs)
    (hl : Comp.lanes ∈ cs) (ho : scanOffsets n ⊆ offs) (phase voff : Int) (dwell : Nat) :
    s.touchesOnly cs offs (t.beginScan n phase voff dwell) := by
  have hstat : R.LANE_L_EYE_STAT n ∈ offs := ho (.head _)
  have herr : R.LANE_L_EYE_ERR n ∈ offs := ho (.tail _ (.head _))
  have hlo : R.LANE_L_EYE_BITS_LO n ∈ offs := ho (.tail _ (.tail _ (.head _)))
  exact ((((h.put 0 herr hr).put 0 hlo hr).put 0 hstat hr).put 1 hstat hr).setLane _ _ hl

theorem State.clearScan_regs (hw : sparseWf regDefault s.regs = true) : let t := s.clearScan n
    t.flag (R.LANE_L_EYE_STAT.BUSY n) = true ∧ t.get64 (R.LANE_L_EYE_BITS_LO.N n) (R.LANE_L_EYE_STAT.BITS_HI n) = 0 ∧
      t.get (R.LANE_L_EYE_ERR.N n) = 0 := by
  obtain ⟨hse, hsl, hle⟩ := eyeOffsets_ne n
  have okBusy : (R.LANE_L_EYE_STAT.BUSY n).ok := Fld.ok_of rfl
  have okHi : (R.LANE_L_EYE_STAT.BITS_HI n).ok := Fld.ok_of rfl
  have okLo : (R.LANE_L_EYE_BITS_LO.N n).ok := Fld.ok_of rfl
  have w1 := State.put_wf hw (R.LANE_L_EYE_ERR.N n) 0
  have w2 := State.put_wf w1 (R.LANE_L_EYE_BITS_LO.N n) 0
  have w3 := State.put_wf w2 (R.LANE_L_EYE_STAT.BITS_HI n) 0
  refine ⟨State.flag_raise w3 okBusy, ?_, ?_⟩
  · refine (State.get64_put_apart w3 okBusy (.inl hsl.symm) (Fld.apart_of rfl) 1).trans ?_
    have hlo := (State.get_put_apart w2 okHi (.inl hsl.symm) 0).trans (State.get_drop w1 okLo)
    have hhi := State.get_drop w2 okHi
    exact congrArg₂ (fun a b => a + 4294967296 * b) hlo hhi
  · refine (State.get_put_apart w3 okBusy (.inl hse.symm) 1).trans ?_
    refine (State.get_put_apart w2 okHi (.inl hse.symm) 0).trans ?_
    exact (State.get_put_apart w1 okLo (.inl hle.symm) 0).trans (State.get_drop hw (Fld.ok_of rfl))

/-- What a scan that begins shows; the rest of its lane, and the other lanes, stay. -/
theorem State.beginScan_shows (hw : sparseWf regDefault s.regs = true) (hl : n < s.lanes.length) (phase voff : Int) (dwell : Nat) :
    let t := s.beginScan n phase voff dwell
    t.flag (R.LANE_L_EYE_STAT.BUSY n) = true ∧ t.get64 (R.LANE_L_EYE_BITS_LO.N n) (R.LANE_L_EYE_STAT.BITS_HI n) = 0 ∧
      t.get (R.LANE_L_EYE_ERR.N n) = 0 ∧ t.lane n = { s.lane n with dwell := dwell, phase := phase, voff := voff } ∧
      ∀ m, m ≠ n → t.lane m = s.lane m := by
  obtain ⟨hbusy, hbits, herrs⟩ := State.clearScan_regs (n := n) hw
  dsimp only
  rw [State.beginScan, State.flag_setLane, State.get64_setLane, State.get_setLane]
  exact ⟨hbusy, hbits, herrs, State.lane_setLane_same (s := s.clearScan n) hl _,
    fun m hm => State.lane_setLane_other (s := s.clearScan n) hm _⟩

theorem eyeCtl_lt (hn : n < 64) : R.LANE_L_EYE_CTL n < 0x400000 := by
  unfold R.LANE_L_EYE_CTL
  omega

theorem eyeCtl_ne (n : Nat) : R.LANE_L_EYE_CTL n ∉ scanOffsets n ∧ R.LANE_L_STATUS n ≠ R.LANE_L_EYE_CTL n := by
  simp [scanOffsets, R.LANE_L_EYE_CTL, R.LANE_L_STATUS, R.LANE_L_EYE_STAT, R.LANE_L_EYE_ERR, R.LANE_L_EYE_BITS_LO]

theorem State.keepScan_flag (hw : sparseWf regDefault s.regs = true) (hn : n < 64) {f : Fld} (hf : f.off = R.LANE_L_EYE_STAT n)
    (phase voff dwell : Nat) : (s.keepScan n phase voff dwell).flag f = s.flag f := by
  have hne : f.off ≠ R.LANE_L_EYE_CTL n := fun e => (eyeCtl_ne n).1 (e ▸ hf ▸ List.mem_cons_self ..)
  exact (State.keepScan_touchesOnly (cs := [.regs]) hw (.head _) (.head _) ..).flag (hf ▸ eyeStat_lt hn)
    (fun hm => hne (List.mem_singleton.1 hm))

theorem State.keepScan_laneState (hw : sparseWf regDefault s.regs = true) (phase voff dwell : Nat) :
    (s.keepScan n phase voff dwell).laneState n = s.laneState n := by
  have hap : ∀ f : Fld, f.off = R.LANE_L_EYE_CTL n → f.apart (R.LANE_L_STATUS.STATE n) := fun f hf => .inl (hf ▸ (eyeCtl_ne n).2)
  have w1 := State.put_wf hw (R.LANE_L_EYE_CTL.PHASE n) phase
  have w2 := State.put_wf w1 (R.LANE_L_EYE_CTL.VOFF n) voff
  exact (State.get_put_apart w2 (f := R.LANE_L_EYE_CTL.DWELL n) (Fld.ok_of rfl) (hap _ rfl) _).trans
    ((State.get_put_apart w1 (f := R.LANE_L_EYE_CTL.VOFF n) (Fld.ok_of rfl) (hap _ rfl) _).trans
      (State.get_put_apart hw (f := R.LANE_L_EYE_CTL.PHASE n) (Fld.ok_of rfl) (hap _ rfl) _))

section
variable (hw : sparseWf regDefault s.regs = true) (hs : s.serves)
include hw hs

theorem exec_eyeScanStart_eq : exec (.eyeScanStart lane phase voff dwell) s =
    .next (let busy := s.flag (R.LANE_L_EYE_STAT.BUSY lane.val)
      let out := scanOutside phase.toInt voff.toInt dwell.toNat
      let low := decide (s.laneState lane.val < 3)
      let u := (s.keepScan lane.val phase.toNat voff.toNat dwell.toNat).markScan lane.val busy out low
      if busy || out || low then u else u.beginScan lane.val phase.toInt voff.toInt dwell.toNat) := by
  have h : exec (.eyeScanStart lane phase voff dwell) s =
      .next ((s.keepScan lane.val phase.toNat voff.toNat dwell.toNat).eyeStart lane.val phase.toNat voff.toNat dwell.toNat) :=
    congrArg Host.Outcome.next (State.written_of_serves hs _ _)
  rw [h, State.eyeStart_eq, State.keepScan_flag hw lane.isLt rfl, State.keepScan_laneState hw, signed_toNat, signed_toNat]

end

/-- A flag that is set for a reason, and else stays. -/
theorem flag_set_or_stays {f : Fld} {b : Bool} (h : t.flag f = (b || s.flag f)) : if b then t.flag f = true else t.flag f = s.flag f := by
  cases b <;> exact h

/-- Settles O25: a scan begins where no reason stands against it, and ends with what it has compared. -/
theorem eyeScans : Obligations.EyeScans := by
  intro s lane phase voff dwell mis ⟨hw, _⟩ hl n ctl stat busy bitsOf kept fits stays
  have hn : n < 64 := lane.isLt
  have hout : scanOutside phase.toInt voff.toInt dwell.toNat = !fits := scanOutside_eq ..
  let u := s.keepScan n phase.toNat voff.toNat dwell.toNat
  have hu : s.touchesOnly [.regs] [ctl] u := State.keepScan_touchesOnly hw (.head _) (.head _) ..
  have hflag : ∀ f : Fld, f.off = stat → u.flag f = s.flag f := fun f hf => State.keepScan_flag hw hn hf ..
  have hkept {v : State} {cs : List Comp} {offs : List Nat} (hv : u.touchesOnly cs offs v) (ho : offs ⊆ scanOffsets n) : kept v := by
    have hc : ctl ∉ offs := fun hm => (eyeCtl_ne n).1 (ho hm)
    obtain ⟨hp, hv', hd⟩ := State.keepScan_kept (n := n) hw phase.toNat voff.toNat dwell.toNat
    exact ⟨(hv.get (eyeCtl_lt hn) hc).trans (hp.trans (Nat.mod_eq_of_lt phase.isLt)),
      (hv.get (eyeCtl_lt hn) hc).trans (hv'.trans (Nat.mod_eq_of_lt voff.isLt)),
      (hv.get (eyeCtl_lt hn) hc).trans (hd.trans (Nat.mod_eq_of_lt dwell.isLt))⟩
  have hexec (hs : s.serves) := exec_eyeScanStart_eq (lane := lane) (phase := phase) (voff := voff) (dwell := dwell) hw hs
  rw [hout] at hexec
  refine ⟨fun hs hno => ?refused, fun hs hb hf h3 => ?begun,
    fun hb => ⟨exec_eyeScanDone_idle hb mis, fun hs => exec_eyeScanAbort_idle hs hb⟩,
    fun hb hd => ⟨eyeScanDone_completes hw hb hd mis, fun hs => ?aborted⟩⟩
  case refused =>
    have hany : (busy s || !fits || decide (s.laneState n < 3)) = true := by
      rcases hno with h | h | h <;> simp [h]
    have hm : u.touchesOnly [.regs] [stat] (u.markScan n (busy s) (!fits) (decide (s.laneState n < 3))) :=
      (State.touchesOnly_refl hu.wf).markScan (.head _) (.head _) ..
    have hsub : [stat] ⊆ [ctl, stat] := List.subset_cons_self ..
    refine ((hu.mono (List.Subset.refl _) (by simp)).trans hm (List.Subset.refl _) hsub).completes
      ((hexec hs).trans (congrArg _ (if_pos hany))) ?_
    obtain ⟨hbusy, hover, hrange, hlock⟩ := State.markScan_flags hu.wf hn (busy s) (!fits) (decide (s.laneState n < 3))
    rw [hflag _ rfl] at hbusy hover hrange hlock
    refine ⟨hkept hm (by simp [stat, scanOffsets]), hbusy, flag_set_or_stays hover, ?_, ?_⟩
    · simpa [stays] using flag_set_or_stays hrange
    · simpa using flag_set_or_stays hlock
  case begun =>
    have hlow : decide (s.laneState n < 3) = false := decide_eq_false (by omega)
    have ht : u.touchesOnly [.regs, .lanes] (scanOffsets n) (u.beginScan n phase.toInt voff.toInt dwell.toNat) :=
      State.touchesOnly.beginScan (State.touchesOnly_refl hu.wf) (.head _) (.tail _ (.head _)) (List.Subset.refl _) ..
    have he : exec (.eyeScanStart lane phase voff dwell) s = .next (u.beginScan n phase.toInt voff.toInt dwell.toNat) := by
      rw [hexec hs, show s.flag (R.LANE_L_EYE_STAT.BUSY lane.val) = false from hb, hf, hlow]
      rfl
    refine ((hu.mono (by simp) (by simp)).trans ht (List.Subset.refl _) (by simp [scanOffsets, ctl, stat])).completes he
      ⟨hkept ht (List.Subset.refl _), State.beginScan_shows hu.wf ?_ _ _ _⟩
    rw [show u.lanes = s.lanes from rfl]
    omega
  case aborted =>
    obtain ⟨b, e, hlt, hle, t, ht, hc, hk, hbusy, habort, hbits, herrs⟩ := eyeScanAbort_completes hw hs hb hd
    exact ⟨t, ht, hc, hk, hbusy, habort, by rwa [show bitsOf t = b from hbits], by rwa [show bitsOf t = b from hbits, herrs]⟩

end Sys2Proof.Machine
end

section
/-! SUPPORT, comma lanes: the states of a lane, and what follows where a lane leaves ALIGNED (R83, R84, R102). -/

namespace Sys2Proof.Machine

variable {s t : State} {n st c : Nat}

/-! ### Where a lane's registers stand -/

/-- The registers that the events of a lane change. -/
def laneOffsets (n : Nat) : List Nat :=
  [R.LANE_L_STATUS n, R.LANE_L_EYE_STAT n, R.LANE_L_ERR n, R.LANE_L_EVT n, R.LANE_L_CG_LO n, R.LANE_L_CG_HI n]

theorem laneOffsets_lt (hn : n < 64) {o : Nat} (ho : o ∈ laneOffsets n) : o < 0x81000 := by
  simp only [laneOffsets, R.LANE_L_STATUS, R.LANE_L_EYE_STAT, R.LANE_L_ERR, R.LANE_L_EVT, R.LANE_L_CG_LO, R.LANE_L_CG_HI, List.mem_cons,
    List.not_mem_nil, or_false] at ho
  omega

theorem laneCfg_notMem (n : Nat) : R.LANE_L_CFG n ∉ laneOffsets n := by
  simp [laneOffsets, R.LANE_L_CFG, R.LANE_L_STATUS, R.LANE_L_EYE_STAT, R.LANE_L_ERR, R.LANE_L_EVT, R.LANE_L_CG_LO, R.LANE_L_CG_HI]

theorem laneStatus_ne (n : Nat) : R.LANE_L_STATUS n ≠ R.LANE_L_EYE_STAT n := by simp [R.LANE_L_STATUS, R.LANE_L_EYE_STAT]

theorem laneStatus_lt (hn : n < 64) : R.LANE_L_STATUS n < 0x400000 := (laneOffsets_lt hn (.head _)).trans (by decide)

/-- What a lane's events leave: its configuration, and the registers of the blocks above the lanes. -/
theorem State.touchesOnly.reg_apart {cs : List Comp} {offs : List Nat} (h : s.touchesOnly cs offs t) (hn : n < 64)
    (ho : offs ⊆ laneOffsets n) {o : Nat} (hf : o = R.LANE_L_CFG n ∨ (0x81000 ≤ o ∧ o < 0x400000)) : t.reg o = s.reg o := by
  obtain rfl | ⟨hlo, hhi⟩ := hf
  · have hlt : R.LANE_L_CFG n < 0x400000 := by unfold R.LANE_L_CFG; omega
    exact h.2.2 _ hlt fun hm => laneCfg_notMem n (ho hm)
  · exact h.2.2 _ hhi fun hm => Nat.not_lt.2 hlo (laneOffsets_lt hn (ho hm))

/-! ### STATE, CDR_LOCK and PAT_LOCK (R83, R95) -/

/-- The registers of a lane that is in state `st`. -/
def State.showLane (s : State) (n st : Nat) : State :=
  let t := (s.put (R.LANE_L_STATUS.STATE n) st).putFlag (R.LANE_L_STATUS.CDR_LOCK n) (decide (st ≥ 3))
  if st = 4 then t else t.drop (R.LANE_L_STATUS.PAT_LOCK n)

theorem State.toLaneState_eq (h : s.laneState n ≠ 4 ∨ st = 4) : s.toLaneState n st = s.showLane n st := by
  refine if_neg ?_
  obtain h | h := h <;> simp [h]

theorem State.toLaneState_leaves (h : s.laneState n = 4) (hst : st ≠ 4) : s.toLaneState n st = (s.showLane n st).linkSees n :=
  if_pos (by simp [h, hst])

theorem State.touchesOnly.showLane {cs : List Comp} {offs : List Nat} (h : s.touchesOnly cs offs t) (n st : Nat)
    (hc : Comp.regs ∈ cs := by decide) (ho : R.LANE_L_STATUS n ∈ offs := by simp) : s.touchesOnly cs offs (t.showLane n st) := by
  have h2 : s.touchesOnly cs offs ((t.put (R.LANE_L_STATUS.STATE n) st).putFlag (R.LANE_L_STATUS.CDR_LOCK n) (decide (st ≥ 3))) :=
    (h.put st ho hc).put _ ho hc
  exact h2.ite (h2.put 0 ho hc)

section
variable (hw : sparseWf regDefault s.regs = true)
include hw

/-- The fields of STATUS but those that go with the state. -/
theorem State.showLane_flag {f : Fld} (hs : (R.LANE_L_STATUS.STATE n).apart f) (hc : (R.LANE_L_STATUS.CDR_LOCK n).apart f)
    (hp : (R.LANE_L_STATUS.PAT_LOCK n).apart f) : (s.showLane n st).flag f = s.flag f := by
  have w1 := State.put_wf hw (R.LANE_L_STATUS.STATE n) st
  have h2 : ((s.put (R.LANE_L_STATUS.STATE n) st).putFlag (R.LANE_L_STATUS.CDR_LOCK n) (decide (st ≥ 3))).flag f = s.flag f :=
    (State.flag_put_apart w1 (Fld.ok_of rfl) hc _).trans (State.flag_put_apart hw (Fld.ok_of rfl) hs _)
  unfold State.showLane
  dsimp only
  split
  · exact h2
  · exact (State.flag_put_apart (State.put_wf w1 _ _) (Fld.ok_of rfl) hp _).trans h2

theorem State.showLane_state (hst : st < 8) : (s.showLane n st).laneState n = st := by
  have w1 := State.put_wf hw (R.LANE_L_STATUS.STATE n) st
  have h2 : ((s.put (R.LANE_L_STATUS.STATE n) st).putFlag (R.LANE_L_STATUS.CDR_LOCK n) (decide (st ≥ 3))).laneState n = st :=
    (State.get_put_apart w1 (Fld.ok_of rfl) (Fld.apart_of rfl) _).trans
      ((State.get_put_same hw (Fld.ok_of rfl) st).trans (Nat.mod_eq_of_lt hst))
  unfold State.showLane
  dsimp only
  split
  · exact h2
  · exact (State.get_put_apart (State.put_wf w1 _ _) (Fld.ok_of rfl) (Fld.apart_of rfl) 0).trans h2

theorem State.showLane_locked : (s.showLane n st).flag (R.LANE_L_STATUS.CDR_LOCK n) = decide (st ≥ 3) := by
  have w1 := State.put_wf hw (R.LANE_L_STATUS.STATE n) st
  have h2 := State.flag_putFlag w1 (f := R.LANE_L_STATUS.CDR_LOCK n) (Fld.ok_of rfl) (decide (st ≥ 3))
  unfold State.showLane
  dsimp only
  split
  · exact h2
  · exact (State.flag_put_apart (State.put_wf w1 _ _) (Fld.ok_of rfl) (Fld.apart_of rfl) 0).trans h2

end

theorem State.showLane_lanes (s : State) (n st : Nat) : (s.showLane n st).lanes = s.lanes := by
  unfold State.showLane
  dsimp only
  split <;> rfl

/-! ### The camera of a lane (R98, R102) -/

/-- No register of a camera's configuration has changed. -/
theorem State.camOfLane_congr (h : ∀ c, c < 16 → t.reg (R.CXP_CAM_CFG c) = s.reg (R.CXP_CAM_CFG c)) (n : Nat) :
    t.camOfLane n = s.camOfLane n := by
  unfold State.camOfLane
  refine List.find?_congr fun c hc => ?_
  have hr := h c (List.mem_range.1 hc)
  have hg : ∀ f : Fld, f.off = R.CXP_CAM_CFG c → t.get f = s.get f := fun f hf => State.get_of_reg (hf ▸ hr)
  rw [State.flag, State.flag, hg (R.CXP_CAM_CFG.ENABLE c) rfl, hg (R.CXP_CAM_CFG.LANE_BASE c) rfl, hg (R.CXP_CAM_CFG.LANES c) rfl]

theorem State.camOfLane_lt (h : s.camOfLane n = some c) : c < 16 := List.mem_range.1 (List.mem_of_find?_eq_some h)

/-- A lane that no camera has is no camera's loss (R84). -/
theorem State.linkSees_none (h32 : n < 32) (hc : s.camOfLane n = none) : s.linkSees n = s := by
  rw [State.linkSees, if_pos h32, hc]

theorem State.linkSees_some (h32 : n < 32) (hc : s.camOfLane n = some c) : s.linkSees n = s.cameraDown c := by
  rw [State.linkSees, if_pos h32, hc]

/-- What happens to a lane gives it no other camera. -/
theorem State.touchesOnly.camOfLane {cs : List Comp} {offs : List Nat} (h : s.touchesOnly cs offs t) (hn : n < 64)
    (ho : offs ⊆ laneOffsets n) : t.camOfLane n = s.camOfLane n := by
  refine State.camOfLane_congr (fun c hc => h.reg_apart hn ho (.inr ?_)) n
  unfold R.CXP_CAM_CFG
  omega

/-! ### CAMERA_LINK_DOWN (R99, R102) -/

/-- The registers that a camera's loss of its link changes. -/
def cameraOffsets (c : Nat) : List Nat := R.CXP_CAM_STATUS c :: R.CXP_CAM_LINK_LOSS c :: (List.range 32).map R.CXP_MAP

theorem le_cameraOffsets {o : Nat} (ho : o ∈ cameraOffsets c) : 0x81000 ≤ o := by
  simp only [cameraOffsets, R.CXP_CAM_STATUS, R.CXP_CAM_LINK_LOSS, R.CXP_MAP, List.mem_cons, List.mem_map] at ho
  omega

theorem camOffsets_range (hc : c < 16) {o : Nat} (ho : o = R.CXP_CAM_CFG c ∨ o = R.CXP_CAM_STATUS c ∨ o = R.CXP_CAM_LINK_LOSS c) :
    0x81000 ≤ o ∧ o < 0x400000 := by
  simp only [R.CXP_CAM_CFG, R.CXP_CAM_STATUS, R.CXP_CAM_LINK_LOSS] at ho
  omega

theorem camOffsets_notMem (hc : c < 16) {o : Nat} (ho : o = R.CXP_CAM_CFG c ∨ o = R.CXP_CAM_STATUS c ∨ o = R.CXP_CAM_LINK_LOSS c) :
    o < 0x400000 ∧ o ∉ (List.range 32).map R.CXP_MAP := by
  refine ⟨(camOffsets_range hc ho).2, fun hm => ?_⟩
  simp only [R.CXP_CAM_CFG, R.CXP_CAM_STATUS, R.CXP_CAM_LINK_LOSS] at ho
  simp only [R.CXP_MAP, List.mem_map] at hm
  omega

theorem camOffsets_ne (c : Nat) : R.CXP_CAM_LINK_LOSS c ≠ R.CXP_CAM_STATUS c ∧ R.CXP_CAM_CFG c ≠ R.CXP_CAM_STATUS c ∧
    R.CXP_CAM_CFG c ≠ R.CXP_CAM_LINK_LOSS c := by
  simp [R.CXP_CAM_CFG, R.CXP_CAM_STATUS, R.CXP_CAM_LINK_LOSS]

@[simp] theorem State.get_setCam (s : State) (c : Nat) (x : CamSt) (f : Fld) : (s.setCam c x).get f = s.get f := rfl
@[simp] theorem State.flag_setCam (s : State) (c : Nat) (x : CamSt) (f : Fld) : (s.setCam c x).flag f = s.flag f := rfl

/-- The registers of a camera that is in LINK_DOWN. -/
def State.showDown (s : State) (c : Nat) : State :=
  let t := ((s.put (R.CXP_CAM_STATUS.STATE c) 5).bump (R.CXP_CAM_LINK_LOSS.N c)).latch (R.CXP_CAM_STATUS.LOSS_SEEN c)
  (t.drop (R.CXP_CAM_STATUS.LANES_NOW c)).drop (R.CXP_CAM_STATUS.RATE_NOW c)

theorem State.touchesOnly.clearMap {cs : List Comp} {offs : List Nat} (h : s.touchesOnly cs offs t) (c : Nat) (hc : Comp.regs ∈ cs)
    (ho : (List.range 32).map R.CXP_MAP ⊆ offs) : s.touchesOnly cs offs (t.clearMap c) := by
  refine h.regs (h.2.foldl fun u k hk hu => ?_) (State.changesOnly_regs State.clearMap_holds) hc
  exact (hu.setReg (.inl (ho (List.mem_map_of_mem hk))) 0).ite hu

theorem State.touchesOnly.showDown {cs : List Comp} {offs : List Nat} (h : s.touchesOnly cs offs t) (c : Nat) (hc : Comp.regs ∈ cs)
    (hs : R.CXP_CAM_STATUS c ∈ offs) (hl : R.CXP_CAM_LINK_LOSS c ∈ offs) : s.touchesOnly cs offs (t.showDown c) :=
  ((((h.put 5 hs hc).bump hl hc).latch hs hc).put 0 hs hc).put 0 hs hc

theorem State.get_latch_apart (hw : sparseWf regDefault s.regs = true) {f g : Fld} (hf : f.ok) (hg : g.off < 0x400000) (ha : f.apart g) :
    (s.latch f).get g = s.get g := by
  have ho : f.onTick.apart g := .inl (by unfold Fld.onTick; dsimp only; omega)
  have hok : f.onTick.ok := hf
  exact (State.get_put_apart (State.put_wf hw _ _) hok ho _).trans (State.get_put_apart hw hf ha _)

/-- What the loss of its link leaves of a camera. -/
def State.linkLost (s : State) (c : Nat) (t : State) : Prop :=
  t.camState c = 5 ∧ s.counts (R.CXP_CAM_LINK_LOSS.N c) 1 t ∧ t.flag (R.CXP_CAM_STATUS.LOSS_SEEN c) = true ∧ t.link = s.link

theorem State.showDown_lost (hw : sparseWf regDefault s.regs = true) (hc : c < 16) : s.linkLost c (s.showDown c) := by
  obtain ⟨hls, -, -⟩ := camOffsets_ne c
  have hlt := (camOffsets_notMem hc (.inr (.inl rfl))).1
  have hlt' := (camOffsets_notMem hc (.inr (.inr rfl))).1
  have okState : (R.CXP_CAM_STATUS.STATE c).ok := Fld.ok_of rfl
  have okLoss : (R.CXP_CAM_LINK_LOSS.N c).ok := Fld.ok_of rfl
  have okSeen : (R.CXP_CAM_STATUS.LOSS_SEEN c).ok := Fld.ok_of rfl
  have okLanes : (R.CXP_CAM_STATUS.LANES_NOW c).ok := Fld.ok_of rfl
  have okRate : (R.CXP_CAM_STATUS.RATE_NOW c).ok := Fld.ok_of rfl
  have w1 := State.put_wf hw (R.CXP_CAM_STATUS.STATE c) 5
  have w2 : sparseWf regDefault ((s.put (R.CXP_CAM_STATUS.STATE c) 5).bump (R.CXP_CAM_LINK_LOSS.N c)).regs = true := State.put_wf w1 _ _
  have w3 : sparseWf regDefault (((s.put (R.CXP_CAM_STATUS.STATE c) 5).bump (R.CXP_CAM_LINK_LOSS.N c)).latch
    (R.CXP_CAM_STATUS.LOSS_SEEN c)).regs = true := State.put_wf (State.put_wf w2 _ _) _ _
  have w4 := State.put_wf w3 (R.CXP_CAM_STATUS.LANES_NOW c) 0
  refine ⟨?_, ?_, ?_, rfl⟩
  · refine (State.get_put_apart w4 okRate (Fld.apart_of rfl) 0).trans ((State.get_put_apart w3 okLanes (Fld.apart_of rfl) 0).trans ?_)
    refine (State.get_latch_apart w2 okSeen hlt (Fld.apart_of rfl)).trans ((State.get_put_apart w1 okLoss (.inl hls.symm) _).trans ?_)
    exact State.get_put_same hw okState 5
  · have hcount := State.counts_of_get (State.get_put_apart hw okState (.inl hls) 5) (State.counts_bump w1 okLoss)
    refine .trans ?_ hcount
    refine (State.get_put_apart w4 okRate (.inl hls) 0).trans ((State.get_put_apart w3 okLanes (.inl hls) 0).trans ?_)
    exact State.get_latch_apart w2 okSeen hlt' (.inl hls)
  · exact (State.flag_put_apart w4 okRate (Fld.apart_of rfl) 0).trans ((State.flag_put_apart w3 okLanes (Fld.apart_of rfl) 0).trans
      (State.flag_latch w2 okSeen))

theorem State.cameraDown_eq (hw : sparseWf regDefault s.regs = true) (hc : c < 16) (h4 : s.camState c = 4)
    (hk : s.flag (R.CXP_CAM_CFG.STOP_ON_LOSS c) = false) : ∃ x, s.cameraDown c = ((s.showDown c).clearMap c).setCam c x := by
  obtain ⟨-, hcs, hcl⟩ := camOffsets_ne c
  obtain ⟨hlt, hmap⟩ := camOffsets_notMem hc (.inl rfl)
  have hd : s.touchesOnly [.regs] (cameraOffsets c) ((s.showDown c).clearMap c) :=
    ((State.touchesOnly_refl hw).showDown c (.head _) (.head _) (.tail _ (.head _))).clearMap c (.head _)
      fun o ho => .tail _ (.tail _ ho)
  have hstop : ((s.showDown c).clearMap c).flag (R.CXP_CAM_CFG.STOP_ON_LOSS c) = false := by
    have hno : R.CXP_CAM_CFG c ∉ cameraOffsets c := by simpa [cameraOffsets, hcs, hcl] using hmap
    exact (hd.flag hlt hno).trans hk
  have h4' : s.get (R.CXP_CAM_STATUS.STATE c) = 4 := h4
  rw [State.cameraDown, if_neg (by simp [h4'])]
  exact ⟨_, if_neg fun h => Bool.false_ne_true (hstop.symm.trans h)⟩

/-- A STREAMING camera that does not stop the line loses its link (R102). -/
theorem State.cameraDown_lost (hw : sparseWf regDefault s.regs = true) (hc : c < 16) (h4 : s.camState c = 4)
    (hk : s.flag (R.CXP_CAM_CFG.STOP_ON_LOSS c) = false) :
    s.regsWithin (cameraOffsets c) (s.cameraDown c) ∧ s.linkLost c (s.cameraDown c) := by
  obtain ⟨x, hx⟩ := State.cameraDown_eq hw hc h4 hk
  have hd : s.touchesOnly [.regs] (cameraOffsets c) (s.showDown c) :=
    (State.touchesOnly_refl hw).showDown c (.head _) (.head _) (.tail _ (.head _))
  have hm : (s.showDown c).touchesOnly [.regs] ((List.range 32).map R.CXP_MAP) ((s.showDown c).clearMap c) :=
    (State.touchesOnly_refl hd.wf).clearMap c (.head _) (List.Subset.refl _)
  have hmap : (List.range 32).map R.CXP_MAP ⊆ cameraOffsets c := fun o ho => .tail _ (.tail _ ho)
  obtain ⟨hstate, hcount, hseen, hlink⟩ := State.showDown_lost hw hc
  obtain ⟨hlt, hno⟩ := camOffsets_notMem hc (.inr (.inl rfl))
  obtain ⟨hlt', hno'⟩ := camOffsets_notMem hc (.inr (.inr rfl))
  rw [hx]
  refine ⟨(hd.trans hm (List.Subset.refl _) hmap).2.of_regs rfl, ?_, ?_, ?_, ?_⟩
  · exact (State.get_setCam ..).trans ((hm.get hlt hno).trans hstate)
  · exact (State.get_setCam ..).trans ((hm.get hlt' hno').trans hcount)
  · exact (State.flag_setCam ..).trans ((hm.flag hlt hno).trans hseen)
  · exact (hm.same (c := .link)).trans hlink

/-! ### A lane falls (R83, R91) -/

/-- A running eye scan whose signal or clock is lost turns INVALID (R91). -/
def State.loseScan (s : State) (n : Nat) : State :=
  if s.flag (R.LANE_L_EYE_STAT.BUSY n) then s.latch (R.LANE_L_EYE_STAT.INVALID n) else s

/-- The scan of a lane runs on, as it did, and is INVALID where it runs. -/
def State.scanLost (s : State) (n : Nat) (t : State) : Prop :=
  t.flag (R.LANE_L_EYE_STAT.BUSY n) = s.flag (R.LANE_L_EYE_STAT.BUSY n) ∧
    (s.flag (R.LANE_L_EYE_STAT.BUSY n) = true → t.flag (R.LANE_L_EYE_STAT.INVALID n) = true)

theorem State.scanLost.congr {u : State} (h : s.scanLost n t) (hu : u.reg (R.LANE_L_EYE_STAT n) = t.reg (R.LANE_L_EYE_STAT n)) :
    s.scanLost n u := by
  have hflag : ∀ f : Fld, f.off = R.LANE_L_EYE_STAT n → u.flag f = t.flag f := fun f hf =>
    congrArg (· != 0) (State.get_of_reg (hf ▸ hu))
  exact ⟨(hflag _ rfl).trans h.1, fun hb => (hflag _ rfl).trans (h.2 hb)⟩

theorem State.scanLost.of_before {u : State} (h : s.scanLost n t) (hu : s.reg (R.LANE_L_EYE_STAT n) = u.reg (R.LANE_L_EYE_STAT n)) :
    u.scanLost n t := by
  have hflag : s.flag (R.LANE_L_EYE_STAT.BUSY n) = u.flag (R.LANE_L_EYE_STAT.BUSY n) := congrArg (· != 0) (State.get_of_reg hu)
  rwa [State.scanLost, ← hflag]

theorem State.loseScan_scanLost (hw : sparseWf regDefault s.regs = true) (hn : n < 64) : s.scanLost n (s.loseScan n) := by
  have okInvalid : (R.LANE_L_EYE_STAT.INVALID n).ok := Fld.ok_of rfl
  refine ⟨State.flag_latchWhen_apart hw okInvalid (eyeStat_lt hn) (Fld.apart_of rfl), fun hb => ?_⟩
  rw [State.loseScan, if_pos hb]
  exact State.flag_latch hw okInvalid

theorem State.touchesOnly.loseScan {cs : List Comp} {offs : List Nat} (h : s.touchesOnly cs offs t) (n : Nat)
    (hc : Comp.regs ∈ cs) (ho : R.LANE_L_EYE_STAT n ∈ offs) : s.touchesOnly cs offs (t.loseScan n) :=
  (h.latch ho hc).ite h

/-- The receiver of a lane begins anew (R83). -/
def State.renewLane (s : State) (n : Nat) : State := s.setLane n (s.lane n).anew

/-- A lane falls to a state below ALIGNED, and its receiver begins anew. -/
def State.laneFalls (s : State) (n st : Nat) : State := ((s.loseScan n).toLaneState n st).renewLane n

/-- The registers of a lane that falls. -/
def State.showFall (s : State) (n st : Nat) : State := (s.loseScan n).showLane n st

section
variable (hw : sparseWf regDefault s.regs = true) (hn : n < 64)
include hw hn

theorem State.loseScan_laneState : (s.loseScan n).laneState n = s.laneState n :=
  ((State.touchesOnly_refl hw).loseScan (cs := [.regs]) (offs := [R.LANE_L_EYE_STAT n]) n (.head _) (.head _)).get (laneStatus_lt hn)
    fun hm => laneStatus_ne n (List.mem_singleton.1 hm)

omit hn in
theorem State.showFall_touchesOnly : s.touchesOnly [.regs] [R.LANE_L_STATUS n, R.LANE_L_EYE_STAT n] (s.showFall n st) :=
  ((State.touchesOnly_refl hw).loseScan n (.head _) (.tail _ (.head _))).showLane n st

/-- The state of a lane that has fallen; SIG_DET stays. -/
theorem State.showFall_shows (hst : st < 8) : (s.showFall n st).laneState n = st ∧
    (s.showFall n st).flag (R.LANE_L_STATUS.CDR_LOCK n) = decide (st ≥ 3) ∧
    (s.showFall n st).flag (R.LANE_L_STATUS.SIG_DET n) = s.flag (R.LANE_L_STATUS.SIG_DET n) ∧ s.scanLost n (s.showFall n st) := by
  have hl : s.touchesOnly [.regs] [R.LANE_L_EYE_STAT n] (s.loseScan n) :=
    (State.touchesOnly_refl hw).loseScan n (.head _) (.head _)
  have hsig : (s.loseScan n).flag (R.LANE_L_STATUS.SIG_DET n) = s.flag (R.LANE_L_STATUS.SIG_DET n) :=
    hl.flag (laneStatus_lt hn) fun hm => laneStatus_ne n (List.mem_singleton.1 hm)
  have hshow : (s.loseScan n).touchesOnly [.regs] [R.LANE_L_STATUS n] ((s.loseScan n).showLane n st) :=
    (State.touchesOnly_refl hl.wf).showLane n st
  have hscan : ((s.loseScan n).showLane n st).reg (R.LANE_L_EYE_STAT n) = (s.loseScan n).reg (R.LANE_L_EYE_STAT n) :=
    hshow.2.2 _ (eyeStat_lt hn) fun hm => laneStatus_ne n (List.mem_singleton.1 hm).symm
  exact ⟨State.showLane_state hl.wf hst, State.showLane_locked hl.wf,
    (State.showLane_flag hl.wf (Fld.apart_of rfl) (Fld.apart_of rfl) (Fld.apart_of rfl)).trans hsig,
    (State.loseScan_scanLost hw hn).congr hscan⟩

/-- A lane falls that was not ALIGNED, or that no camera has. -/
theorem State.laneFalls_alone (hst : st ≠ 4) (h : s.laneState n ≠ 4 ∨ (n < 32 ∧ s.camOfLane n = none)) :
    s.laneFalls n st = (s.showFall n st).renewLane n := by
  have hstate := State.loseScan_laneState hw hn
  have hcam := (State.showFall_touchesOnly (n := n) (st := st) hw).camOfLane hn (by simp [laneOffsets])
  unfold State.laneFalls
  congr 1
  by_cases h4 : s.laneState n = 4
  · obtain ⟨h32, hc⟩ := h.resolve_left fun h => h h4
    rw [State.toLaneState_leaves (hstate.trans h4) hst]
    exact State.linkSees_none h32 (hcam.trans hc)
  · exact State.toLaneState_eq (.inl (by rwa [hstate]))

/-- An ALIGNED lane of a camera falls, and takes the camera's link with it (R102). -/
theorem State.laneFalls_camera (h4 : s.laneState n = 4) (hst : st ≠ 4) (h32 : n < 32) (hc : s.camOfLane n = some c) :
    s.laneFalls n st = ((s.showFall n st).cameraDown c).renewLane n := by
  have hcam := (State.showFall_touchesOnly (n := n) (st := st) hw).camOfLane hn (by simp [laneOffsets])
  unfold State.laneFalls
  rw [State.toLaneState_leaves ((State.loseScan_laneState hw hn).trans h4) hst]
  exact congrArg (State.renewLane · n) (State.linkSees_some h32 (hcam.trans hc))

end

theorem State.showFall_lanes (s : State) (n st : Nat) : (s.showFall n st).lanes = s.lanes := by
  rw [State.showFall, State.showLane_lanes, State.loseScan]
  split <;> rfl

/-- What a fall leaves of a lane; the other lanes stay. -/
theorem State.laneFalls_spec (hw : sparseWf regDefault s.regs = true) (hl : s.lanes.length = 64) (hn : n < 64) (hst : st < 3)
    (h : s.laneState n ≠ 4 ∨ (n < 32 ∧ s.camOfLane n = none)) : let t := s.laneFalls n st
    s.touchesOnly [.regs, .lanes] [R.LANE_L_STATUS n, R.LANE_L_EYE_STAT n] t ∧ t.laneState n = st ∧
      t.flag (R.LANE_L_STATUS.CDR_LOCK n) = false ∧ t.flag (R.LANE_L_STATUS.SIG_DET n) = s.flag (R.LANE_L_STATUS.SIG_DET n) ∧
      t.lane n = (s.lane n).anew ∧ (∀ m, m ≠ n → t.lane m = s.lane m) ∧ s.scanLost n t := by
  have hlanes := State.showFall_lanes s n st
  obtain ⟨hstate, hlock, hsig, hscan⟩ := State.showFall_shows hw hn (st := st) (by omega)
  dsimp only
  rw [State.laneFalls_alone hw hn (by omega) h]
  refine ⟨((State.showFall_touchesOnly hw).mono (by simp) (List.Subset.refl _)).setLane n _, hstate,
    hlock.trans (decide_eq_false (by omega)), hsig, ?_, fun m hm => ?_, hscan.congr rfl⟩
  · rw [State.renewLane, State.lane_setLane_same (by rw [hlanes, hl]; exact hn), State.lane_of_lanes hlanes]
  · rw [State.renewLane, State.lane_setLane_other hm, State.lane_of_lanes hlanes]

/-- The fall of an ALIGNED lane of a STREAMING camera (R102). -/
theorem State.laneFalls_lost (hw : sparseWf regDefault s.regs = true) (h32 : n < 32) (hst : st < 3) (h4 : s.laneState n = 4)
    (hc : s.camOfLane n = some c) (hs : s.camState c = 4) (hk : s.flag (R.CXP_CAM_CFG.STOP_ON_LOSS c) = false) :
    (s.laneFalls n st).laneState n = st ∧ s.linkLost c (s.laneFalls n st) ∧ s.scanLost n (s.laneFalls n st) := by
  have hn : n < 64 := by omega
  have h16 := State.camOfLane_lt hc
  have hf := State.showFall_touchesOnly (n := n) (st := st) hw
  obtain ⟨hstate, -, -, hscan⟩ := State.showFall_shows hw hn (st := st) (by omega)
  have hcam : ∀ o, o = R.CXP_CAM_CFG c ∨ o = R.CXP_CAM_STATUS c ∨ o = R.CXP_CAM_LINK_LOSS c → (s.showFall n st).reg o = s.reg o :=
    fun o ho => hf.reg_apart hn (by simp [laneOffsets]) (.inr (camOffsets_range h16 ho))
  obtain ⟨hin, hstate', hcount, hseen, hlink⟩ := State.cameraDown_lost hf.wf h16
    ((State.get_of_reg (hcam _ (.inr (.inl rfl)))).trans hs)
    ((congrArg (· != 0) (State.get_of_reg (hcam _ (.inl rfl)))).trans hk)
  have hkeep : ∀ o ∈ laneOffsets n, ((s.showFall n st).cameraDown c).reg o = (s.showFall n st).reg o := fun o ho =>
    hin.2 o ((laneOffsets_lt hn ho).trans (by decide)) fun hm => Nat.not_lt.2 (le_cameraOffsets hm) (laneOffsets_lt hn ho)
  rw [State.laneFalls_camera hw hn h4 (by omega) h32 hc]
  refine ⟨(State.get_of_reg (hkeep _ (.head _))).trans hstate, ⟨hstate', ?_, hseen, ?_⟩, hscan.congr (hkeep _ (.tail _ (.head _)))⟩
  · exact State.counts_of_get (State.get_of_reg (hcam _ (.inr (.inr rfl)))) hcount
  · exact hlink.trans (hf.same (c := .link))

end Sys2Proof.Machine
end

section
/-! PROOFS, comma lanes: signal and lock (R83, R91, R93). -/

namespace Sys2Proof.Machine

variable {s t : State} {lane : Fin 64} {c : Nat}

/-! ### LANE_SIGNAL_DETECT and LANE_SIGNAL_LOSS (R83, R93) -/

/-- What the receive pin of a lane has. -/
def State.setPin (s : State) (n : Nat) (b : Bool) : State := s.setLane n { s.lane n with pin := b }

section
variable (he : s.flag (R.LANE_L_CFG.ENABLE lane.val) = true) (hf : s.nearEnd lane.val = false)

theorem exec_laneSignalDetect_off (he : s.flag (R.LANE_L_CFG.ENABLE lane.val) = false) : exec (.laneSignalDetect lane) s = .next s :=
  congrArg Host.Outcome.next (if_pos (by rw [he]; rfl))

include he

theorem exec_laneSignalDetect_on : exec (.laneSignalDetect lane) s = .next (if s.nearEnd lane.val then s.setPin lane.val true
    else if ((s.setPin lane.val true).raise (R.LANE_L_STATUS.SIG_DET lane.val)).laneState lane.val = 1 then
      ((s.setPin lane.val true).raise (R.LANE_L_STATUS.SIG_DET lane.val)).toLaneState lane.val 2
    else (s.setPin lane.val true).raise (R.LANE_L_STATUS.SIG_DET lane.val)) :=
  congrArg Host.Outcome.next (if_neg (by rw [he]; decide))

theorem exec_laneSignalDetect_near (hf : s.nearEnd lane.val = true) :
    exec (.laneSignalDetect lane) s = .next (s.setPin lane.val true) :=
  (exec_laneSignalDetect_on he).trans (congrArg _ (if_pos hf))

end

theorem State.raise_laneState (hw : sparseWf regDefault s.regs = true) (n : Nat) :
    (s.raise (R.LANE_L_STATUS.SIG_DET n)).laneState n = s.laneState n :=
  State.get_put_apart hw (Fld.ok_of rfl) (Fld.apart_of rfl) 1

theorem State.drop_laneState (hw : sparseWf regDefault s.regs = true) (n : Nat) :
    (s.drop (R.LANE_L_STATUS.SIG_DET n)).laneState n = s.laneState n :=
  State.get_put_apart hw (Fld.ok_of rfl) (Fld.apart_of rfl) 0

section
variable (hw : sparseWf regDefault s.regs = true)
include hw

section
variable (he : s.flag (R.LANE_L_CFG.ENABLE lane.val) = true) (hf : s.nearEnd lane.val = false)
include he hf

theorem exec_laneSignalDetect_known (h1 : s.laneState lane.val ≠ 1) :
    exec (.laneSignalDetect lane) s = .next ((s.setPin lane.val true).raise (R.LANE_L_STATUS.SIG_DET lane.val)) := by
  have hstate : ((s.setPin lane.val true).raise (R.LANE_L_STATUS.SIG_DET lane.val)).laneState lane.val ≠ 1 := by
    rwa [State.raise_laneState (s := s.setPin lane.val true) hw]
  rw [exec_laneSignalDetect_on he, if_neg (by rw [hf]; decide), if_neg hstate]

theorem exec_laneSignalDetect_found (h1 : s.laneState lane.val = 1) : exec (.laneSignalDetect lane) s =
    .next (((s.setPin lane.val true).raise (R.LANE_L_STATUS.SIG_DET lane.val)).showLane lane.val 2) := by
  have hstate : ((s.setPin lane.val true).raise (R.LANE_L_STATUS.SIG_DET lane.val)).laneState lane.val = 1 :=
    (State.raise_laneState (s := s.setPin lane.val true) hw _).trans h1
  rw [exec_laneSignalDetect_on he, if_neg (by rw [hf]; decide), if_pos hstate, State.toLaneState_eq (.inl (by rw [hstate]; decide))]

end

/-- A lane at NO_SIGNAL acquires its clock (R83). -/
theorem laneSignalDetect_completes (hl : s.lanes.length = 64) (he : s.flag (R.LANE_L_CFG.ENABLE lane.val) = true)
    (hf : s.nearEnd lane.val = false) (h1 : s.laneState lane.val = 1) :
    s.completes (.laneSignalDetect lane) [.regs, .lanes] [R.LANE_L_STATUS lane.val] (fun t =>
      t.laneState lane.val = 2 ∧ t.flag (R.LANE_L_STATUS.SIG_DET lane.val) = true ∧ t.flag (R.LANE_L_STATUS.CDR_LOCK lane.val) = false ∧
      t.lane lane.val = { s.lane lane.val with pin := true } ∧ ∀ m, m ≠ lane.val → t.lane m = s.lane m) := by
  have hr : s.touchesOnly [.regs, .lanes] [R.LANE_L_STATUS lane.val] ((s.setPin lane.val true).raise (R.LANE_L_STATUS.SIG_DET lane.val)) :=
    ((State.touchesOnly_refl hw).setLane _ _).put 1 (.head _)
  refine (hr.showLane lane.val 2).completes (exec_laneSignalDetect_found hw he hf h1) ⟨State.showLane_state hr.wf (by decide), ?_,
    State.showLane_locked hr.wf, ?_, fun m hm => ?_⟩
  · refine (State.showLane_flag hr.wf (Fld.apart_of rfl) (Fld.apart_of rfl) (Fld.apart_of rfl)).trans ?_
    exact State.flag_raise (s := s.setPin lane.val true) hw (Fld.ok_of rfl)
  · rw [State.lane_of_lanes (State.showLane_lanes ..)]
    exact State.lane_setLane_same (by rw [hl]; exact lane.isLt) _
  · rw [State.lane_of_lanes (State.showLane_lanes ..)]
    exact State.lane_setLane_other hm _

omit hw in
theorem exec_laneSignalLoss_near (hf : s.nearEnd lane.val = true) : exec (.laneSignalLoss lane) s = .next (s.setPin lane.val false) :=
  congrArg Host.Outcome.next (if_pos hf)

/-- A lane whose signal is lost. -/
def State.unsigned (s : State) (n : Nat) : State := (s.setPin n false).drop (R.LANE_L_STATUS.SIG_DET n)

section
variable (hf : s.nearEnd lane.val = false)
include hf

theorem exec_laneSignalLoss_early (h2 : s.laneState lane.val < 2) : exec (.laneSignalLoss lane) s = .next (s.unsigned lane.val) := by
  have hstate := State.drop_laneState (s := s.setPin lane.val false) hw lane.val
  refine congrArg Host.Outcome.next ((if_neg (by rw [show (State.setLane ..).nearEnd _ = _ from hf]; decide)).trans (if_neg ?_))
  exact Nat.not_le.2 (hstate.trans_lt h2)

theorem exec_laneSignalLoss_falls (h2 : 2 ≤ s.laneState lane.val) :
    exec (.laneSignalLoss lane) s = .next ((s.unsigned lane.val).laneFalls lane.val 1) := by
  have hstate := State.drop_laneState (s := s.setPin lane.val false) hw lane.val
  refine congrArg Host.Outcome.next ((if_neg (by rw [show (State.setLane ..).nearEnd _ = _ from hf]; decide)).trans (if_pos ?_))
  exact h2.trans_eq hstate.symm

end

theorem State.unsigned_touchesOnly (n : Nat) : s.touchesOnly [.regs, .lanes] [R.LANE_L_STATUS n] (s.unsigned n) :=
  ((State.touchesOnly_refl hw).setLane _ _).put 0 (.head _)

/-- A lane that acquires falls to NO_SIGNAL with its signal (R83). -/
theorem laneSignalLoss_completes (hl : s.lanes.length = 64) (hf : s.nearEnd lane.val = false)
    (h23 : s.laneState lane.val = 2 ∨ s.laneState lane.val = 3) :
    s.completes (.laneSignalLoss lane) [.regs, .lanes] [R.LANE_L_STATUS lane.val, R.LANE_L_EYE_STAT lane.val] (fun t =>
      t.laneState lane.val = 1 ∧ t.flag (R.LANE_L_STATUS.SIG_DET lane.val) = false ∧ t.flag (R.LANE_L_STATUS.CDR_LOCK lane.val) = false ∧
      t.lane lane.val = LaneSt.anew { s.lane lane.val with pin := false } ∧ (∀ m, m ≠ lane.val → t.lane m = s.lane m) ∧
      s.scanLost lane.val t) := by
  have hlt : lane.val < s.lanes.length := by rw [hl]; exact lane.isLt
  have hu := State.unsigned_touchesOnly hw lane.val
  have hstate : (s.unsigned lane.val).laneState lane.val = s.laneState lane.val := State.drop_laneState (s := s.setPin _ false) hw _
  have hlanes : (s.unsigned lane.val).lanes.length = 64 := (State.length_setLane ..).trans hl
  obtain ⟨hto, h1, hlock, hsig, hlane, hothers, hscan⟩ := State.laneFalls_spec (st := 1) hu.wf hlanes lane.isLt (by decide) (.inl (by omega))
  have hsub : [R.LANE_L_STATUS lane.val] ⊆ [R.LANE_L_STATUS lane.val, R.LANE_L_EYE_STAT lane.val] := by simp
  refine ((hu.mono (List.Subset.refl _) hsub).trans hto (List.Subset.refl _) (List.Subset.refl _)).completes
    (exec_laneSignalLoss_falls hw hf (by omega)) ⟨h1, hsig.trans ?_, hlock, hlane.trans ?_, fun m hm => (hothers m hm).trans ?_, ?_⟩
  · exact congrArg (· != 0) (State.get_drop (s := s.setPin _ false) hw (Fld.ok_of rfl))
  · exact congrArg LaneSt.anew (State.lane_setLane_same hlt _)
  · exact State.lane_setLane_other hm _
  · exact hscan.of_before (hu.2.2 _ (eyeStat_lt lane.isLt) fun hm => laneStatus_ne lane.val (List.mem_singleton.1 hm).symm)

/-- The camera of an ALIGNED lane whose signal is lost (R102). -/
theorem laneSignalLoss_lost (h32 : lane.val < 32) (hf : s.nearEnd lane.val = false) (h4 : s.laneState lane.val = 4)
    (hc : s.camOfLane lane.val = some c) (hs : s.camState c = 4) (hk : s.flag (R.CXP_CAM_CFG.STOP_ON_LOSS c) = false) :
    ∃ t, exec (.laneSignalLoss lane) s = .next t ∧ t.laneState lane.val = 1 ∧ s.linkLost c t ∧ s.scanLost lane.val t := by
  have h16 := State.camOfLane_lt hc
  have hu := State.unsigned_touchesOnly hw lane.val
  have hreg : ∀ o, o = R.CXP_CAM_CFG c ∨ o = R.CXP_CAM_STATUS c ∨ o = R.CXP_CAM_LINK_LOSS c → (s.unsigned lane.val).reg o = s.reg o :=
    fun o ho => hu.reg_apart lane.isLt (by simp [laneOffsets]) (.inr (camOffsets_range h16 ho))
  obtain ⟨h1, ⟨hdown, hcount, hseen, hlink⟩, hscan⟩ := State.laneFalls_lost (s := s.unsigned lane.val) (st := 1) hu.wf h32 (by decide)
    ((State.drop_laneState (s := s.setPin _ false) hw _).trans h4) ((hu.camOfLane lane.isLt (by simp [laneOffsets])).trans hc)
    ((State.get_of_reg (hreg _ (.inr (.inl rfl)))).trans hs) ((congrArg (· != 0) (State.get_of_reg (hreg _ (.inl rfl)))).trans hk)
  refine ⟨_, exec_laneSignalLoss_falls hw hf (by omega), h1, ⟨hdown, ?_, hseen, hlink⟩, ?_⟩
  · exact State.counts_of_get (State.get_of_reg (hreg _ (.inr (.inr rfl)))) hcount
  · exact hscan.of_before (hu.2.2 _ (eyeStat_lt lane.isLt) fun hm => laneStatus_ne lane.val (List.mem_singleton.1 hm).symm)

/-! ### CDR_LOCK and CDR_LOCK_LOSS (R83) -/

omit hw in
theorem exec_cdrLock_idle (h : s.laneState lane.val ≠ 2) : exec (.cdrLock lane) s = .next s := congrArg Host.Outcome.next (if_neg h)

theorem cdrLock_completes (hl : s.lanes.length = 64) (h2 : s.laneState lane.val = 2) :
    s.completes (.cdrLock lane) [.regs, .lanes] [R.LANE_L_STATUS lane.val] (fun t =>
      t.laneState lane.val = 3 ∧ t.flag (R.LANE_L_STATUS.CDR_LOCK lane.val) = true ∧ t.lane lane.val = (s.lane lane.val).anew ∧
      ∀ m, m ≠ lane.val → t.lane m = s.lane m) := by
  have hlanes := State.showLane_lanes s lane.val 3
  have he : exec (.cdrLock lane) s = .next ((s.showLane lane.val 3).renewLane lane.val) := by
    rw [← State.toLaneState_eq (.inl (by omega))]
    exact congrArg Host.Outcome.next (if_pos h2)
  refine (((State.touchesOnly_refl hw).showLane lane.val 3).setLane _ _).completes he ⟨State.showLane_state hw (by decide),
    State.showLane_locked hw, ?_, fun m hm => ?_⟩
  · rw [State.lane_setLane_same (by rw [hlanes, hl]; exact lane.isLt), State.lane_of_lanes hlanes]
  · rw [State.lane_setLane_other hm, State.lane_of_lanes hlanes]

omit hw in
theorem exec_cdrLockLoss_idle (h : s.laneState lane.val < 3) : exec (.cdrLockLoss lane) s = .next s :=
  congrArg Host.Outcome.next (if_neg (Nat.not_le.2 h))

omit hw in
theorem exec_cdrLockLoss_falls (h : 3 ≤ s.laneState lane.val) : exec (.cdrLockLoss lane) s = .next (s.laneFalls lane.val 2) :=
  congrArg Host.Outcome.next (if_pos h)

theorem cdrLockLoss_completes (hl : s.lanes.length = 64)
    (h : s.laneState lane.val = 3 ∨ (s.laneState lane.val = 4 ∧ lane.val < 32 ∧ s.camOfLane lane.val = none)) :
    s.completes (.cdrLockLoss lane) [.regs, .lanes] [R.LANE_L_STATUS lane.val, R.LANE_L_EYE_STAT lane.val] (fun t =>
      t.laneState lane.val = 2 ∧ t.flag (R.LANE_L_STATUS.CDR_LOCK lane.val) = false ∧ t.lane lane.val = (s.lane lane.val).anew ∧
      (∀ m, m ≠ lane.val → t.lane m = s.lane m) ∧ s.scanLost lane.val t) := by
  have halone : s.laneState lane.val ≠ 4 ∨ (lane.val < 32 ∧ s.camOfLane lane.val = none) := h.imp (by omega) And.right
  obtain ⟨hto, h2, hlock, -, hlane, hothers, hscan⟩ := State.laneFalls_spec (st := 2) hw hl lane.isLt (by decide) halone
  exact hto.completes (exec_cdrLockLoss_falls (by omega)) ⟨h2, hlock, hlane, hothers, hscan⟩

end

end Sys2Proof.Machine
end

section
/-! PROOFS, comma lanes: the search for commas in ACQUIRE (R85). -/

namespace Sys2Proof.Machine

variable {s : State} {n k x w : Nat} {l : LaneSt} {commas : Nat} {es : List (Nat × Nat)} {lane : Fin 64} {g wrong : BitVec 10}

/-! ### One group time of a lane without loopback, pattern and inversion (R92) -/

/-- A lane without loopback, pattern and inversion. -/
structure State.plainLane (s : State) (n : Nat) : Prop where
  pattern : s.get (R.LANE_L_CFG.PATTERN n) = 0
  loop : s.loop n = 0
  upright : s.flag (R.LANE_L_CFG.RX_INV n) = false

theorem State.plainLane.groupTime (h : s.plainLane n) (bits wrong : Nat) : s.groupTime n bits wrong = (bits, s) := by
  unfold State.groupTime
  rw [if_neg (not_not.2 h.pattern), h.loop, h.upright]
  rfl

/-! ### The groups that are searched (R85) -/

/-- The group `x` begins at bit position `k` of the ten bits before and these. -/
def groupBegins (prev : Option Nat) (w k x : Nat) : Prop :=
  (prev = none ∧ k = 0 ∧ x = w) ∨ ∃ p, prev = some p ∧ k < 10 ∧ x = (p * 1024 + w) / 2 ^ ((10 - k) % 10) % 1024

theorem mem_groupsIn {prev : Option Nat} : (k, x) ∈ groupsIn prev w ↔ groupBegins prev w k x := by
  cases prev with
  | none => simp [groupsIn, groupBegins]
  | some p =>
    simp only [groupsIn, groupBegins, List.mem_map, List.mem_range, Prod.mk.injEq, reduceCtorEq, false_and, false_or, Option.some.injEq,
      exists_eq_left']
    constructor
    · rintro ⟨j, hj, rfl, rfl⟩
      refine ⟨Nat.mod_lt _ (by decide), ?_⟩
      have he : 9 - j = (10 - (j + 1) % 10) % 10 := by omega
      rw [he]
    · rintro ⟨hk, rfl⟩
      refine ⟨(k + 9) % 10, Nat.mod_lt _ (by decide), by omega, ?_⟩
      have he : 9 - (k + 9) % 10 = (10 - k) % 10 := by omega
      rw [he]

theorem groupsIn_nodup (prev : Option Nat) (w : Nat) : ((groupsIn prev w).map Prod.fst).Nodup := by
  cases prev with
  | none => exact List.nodup_singleton 0
  | some p =>
    have he : (groupsIn (some p) w).map Prod.fst = (List.range 10).map (fun k => (k + 1) % 10) := by
      rw [groupsIn, List.map_map]
      rfl
    rw [he]
    decide

/-! ### One position (R85) -/

theorem classify_of_some {g : Nat} {pos : Bool} {d : Decoded} (h : decodeAt g pos = some d) : classify g pos = .good d := by
  rw [classify, h]

theorem classify_of_none {g : Nat} {pos : Bool} (h : decodeAt g pos = none) (d : Decoded) : classify g pos ≠ .good d := by
  rw [classify, h]
  cases decodeAt g (!pos) <;> nofun

theorem LaneSt.acquired_eq_false (h : l.count < commas ∨ l.count = 0) : l.acquired commas = false := by
  simp only [LaneSt.acquired, Bool.and_eq_true, decide_eq_true_eq, decide_eq_false_iff_not]
  omega

/-- A group that holds no comma, off the candidate boundary. -/
theorem LaneSt.seek_idle (hg : commaGroup x = false) (hk : l.cand ≠ some k) : l.seek commas k x = l := by
  have hb : (l.cand == some k) = false := beq_eq_false_iff_ne.2 hk
  rw [LaneSt.seek, hg, hb]
  split <;> rfl

section
variable (ha : l.count < commas ∨ l.count = 0)
include ha

/-- A valid comma on the candidate boundary counts on. -/
theorem LaneSt.seek_counts (hg : commaGroup x = true) (hk : l.cand = some k) {q : Decoded} (hq : decodeAt x l.rdPos = some q) :
    l.seek commas k x = { l with count := l.count + 1, rdPos := q.rd, last := x } := by
  rw [LaneSt.seek, LaneSt.acquired_eq_false ha, hg, hk, classify_of_some hq, beq_self_eq_true]
  rfl

/-- A comma on another boundary, or not valid on the candidate's, begins the count. -/
theorem LaneSt.seek_begins (hg : commaGroup x = true) (hk : l.cand ≠ some k ∨ decodeAt x l.rdPos = none) :
    l.seek commas k x = { l with cand := some k, count := 1, rdPos := groupRd x, last := x } := by
  rw [LaneSt.seek, LaneSt.acquired_eq_false ha, hg]
  simp only [Bool.false_eq_true, if_false, if_true]
  split
  · next d hc hd =>
    exact absurd hd (classify_of_none (hk.resolve_left (not_not.2 (beq_iff_eq.1 hc))) d)
  · rfl

theorem LaneSt.seek_follows (hg : commaGroup x = false) (hk : l.cand = some k) {q : Decoded} (hq : decodeAt x l.rdPos = some q) :
    l.seek commas k x = { l with rdPos := q.rd } := by
  rw [LaneSt.seek, LaneSt.acquired_eq_false ha, hg, hk, classify_of_some hq, beq_self_eq_true]
  rfl

theorem LaneSt.seek_drops (hg : commaGroup x = false) (hk : l.cand = some k) (hq : decodeAt x l.rdPos = none) :
    l.seek commas k x = { l with cand := none, count := 0 } := by
  have hb : (l.cand == some k) = true := beq_iff_eq.2 hk
  rw [LaneSt.seek, LaneSt.acquired_eq_false ha, hg, hb]
  simp only [Bool.false_eq_true, if_false, if_true]
  split
  · next d hd => exact absurd hd (classify_of_none hq d)
  · rfl

end

/-! ### All positions (R85) -/

/-- The search of the groups of one time. -/
def LaneSt.seekAll (commas : Nat) (l : LaneSt) (es : List (Nat × Nat)) : LaneSt := es.foldl (fun l e => l.seek commas e.1 e.2) l

theorem LaneSt.seekAll_append (es ds : List (Nat × Nat)) : l.seekAll commas (es ++ ds) = (l.seekAll commas es).seekAll commas ds :=
  List.foldl_append ..

theorem LaneSt.seekAll_idle : ∀ {es : List (Nat × Nat)}, (∀ e ∈ es, commaGroup e.2 = false ∧ l.cand ≠ some e.1) → l.seekAll commas es = l
  | [], _ => rfl
  | e :: es, h => by
    rw [LaneSt.seekAll, List.foldl_cons, LaneSt.seek_idle (h e (.head _)).1 (h e (.head _)).2]
    exact LaneSt.seekAll_idle fun d hd => h d (.tail _ hd)

/-- Groups that hold no comma move the disparity, or take the candidate away. -/
def LaneSt.unmarked (commas : Nat) (l m : LaneSt) : Prop :=
  (m.count < commas ∨ m.count = 0) ∧ (m.cand = l.cand ∨ m.cand = none) ∧
    m = { l with cand := m.cand, count := m.count, rdPos := m.rdPos }

theorem LaneSt.seek_unmarked {m : LaneSt} (h : l.unmarked commas m) (hx : commaGroup x = false) : l.unmarked commas (m.seek commas k x) := by
  obtain ⟨hcount, hcand, hm⟩ := h
  by_cases hk : m.cand = some k
  · cases hq : decodeAt x m.rdPos with
    | some q =>
      rw [LaneSt.seek_follows hcount hx hk hq]
      exact ⟨hcount, hcand, congrArg (fun a : LaneSt => { a with rdPos := q.rd }) hm⟩
    | none =>
      rw [LaneSt.seek_drops hcount hx hk hq]
      exact ⟨.inr rfl, .inr rfl, congrArg (fun a : LaneSt => { a with cand := none, count := 0 }) hm⟩
  · rw [LaneSt.seek_idle hx hk]
    exact ⟨hcount, hcand, hm⟩

theorem LaneSt.seekAll_unmarked : ∀ {es : List (Nat × Nat)} {m : LaneSt}, l.unmarked commas m → (∀ e ∈ es, commaGroup e.2 = false) →
    l.unmarked commas (m.seekAll commas es)
  | [], _, h, _ => h
  | e :: es, _, h, he =>
    LaneSt.seekAll_unmarked (es := es) (LaneSt.seek_unmarked h (he e (.head _))) fun d hd => he d (.tail _ hd)

section
variable (hd : (es.map Prod.fst).Nodup) (hm : (k, x) ∈ es)
include hd hm

/-- The group at one position, and those before and after it. -/
theorem positions_split : ∃ as bs, es = as ++ (k, x) :: bs ∧ ∀ e ∈ as ++ bs, e ∈ es ∧ e.1 ≠ k := by
  obtain ⟨as, bs, rfl⟩ := List.append_of_mem hm
  refine ⟨as, bs, rfl, fun e he => ⟨?_, fun hk => ?_⟩⟩
  · rcases List.mem_append.1 he with h | h
    · exact List.mem_append_left _ h
    · exact List.mem_append_right _ (.tail _ h)
  · have hn := (List.perm_middle.map Prod.fst).nodup_iff.1 hd
    rw [List.map_cons, List.nodup_cons] at hn
    exact hn.1 (List.mem_map.2 ⟨e, he, hk⟩)

variable (ho : ∀ e ∈ es, e.1 ≠ k → commaGroup e.2 = false)
include ho

/-- The group on the candidate boundary decides, where no other holds a comma. -/
theorem LaneSt.seekAll_candidate (hk : l.cand = some k) (hs : (l.seek commas k x).cand = some k ∨ (l.seek commas k x).cand = none) :
    l.seekAll commas es = l.seek commas k x := by
  obtain ⟨as, bs, rfl, hother⟩ := positions_split hd hm
  have hidle : ∀ {m : LaneSt} (es' : List (Nat × Nat)), es' ⊆ as ++ bs → (m.cand = some k ∨ m.cand = none) → m.seekAll commas es' = m :=
    fun es' hsub hc => LaneSt.seekAll_idle fun e he => by
      obtain ⟨hin, hne⟩ := hother e (hsub he)
      refine ⟨ho e hin hne, ?_⟩
      rcases hc with hc | hc <;> rw [hc]
      · exact fun h => hne (Option.some.inj h).symm
      · nofun
  rw [LaneSt.seekAll_append, hidle as (List.subset_append_left ..) (.inl hk)]
  exact hidle bs (List.subset_append_right ..) hs

/-- A comma off the candidate boundary is the candidate, whatever the other groups are. -/
theorem LaneSt.seekAll_comma (ha : l.count < commas ∨ l.count = 0) (hg : commaGroup x = true) (hk : l.cand ≠ some k) :
    l.seekAll commas es = { l with cand := some k, count := 1, rdPos := groupRd x, last := x } := by
  obtain ⟨as, bs, rfl, hother⟩ := positions_split hd hm
  have has : ∀ e ∈ as, commaGroup e.2 = false := fun e he =>
    ho e (hother e (List.mem_append_left _ he)).1 (hother e (List.mem_append_left _ he)).2
  obtain ⟨hcount, hcand, hl⟩ := LaneSt.seekAll_unmarked (l := l) (commas := commas) ⟨ha, .inl rfl, rfl⟩ has
  have hk' : (l.seekAll commas as).cand ≠ some k := by
    rcases hcand with h | h <;> rw [h]
    · exact hk
    · nofun
  have hseek : (l.seekAll commas as).seek commas k x = { l with cand := some k, count := 1, rdPos := groupRd x, last := x } := by
    rw [LaneSt.seek_begins hcount hg (.inl hk')]
    exact congrArg (fun a : LaneSt => { a with cand := some k, count := 1, rdPos := groupRd x, last := x }) hl
  rw [LaneSt.seekAll_append]
  change ((l.seekAll commas as).seek commas k x).seekAll commas bs = _
  rw [hseek]
  exact LaneSt.seekAll_idle fun e he => by
    obtain ⟨hin, hne⟩ := hother e (List.mem_append_right _ he)
    exact ⟨ho e hin hne, fun h => hne (Option.some.inj h).symm⟩

end

/-! ### ACQUIRE_GROUP (R85) -/

theorem exec_acquireGroup_idle (h : s.laneState lane.val ≠ 3) : exec (.acquireGroup lane g wrong) s = .next s :=
  congrArg Host.Outcome.next (if_pos (bne_iff_ne.2 h))

section
variable (hp : s.plainLane lane.val) (h3 : s.laneState lane.val = 3) {m : LaneSt}
  (hm : (s.lane lane.val).seekAll (s.get (R.LANE_L_CFG.ACQ_COMMAS lane.val)) (groupsIn (s.lane lane.val).raw g.toNat) = m)
include hp h3 hm

theorem exec_acquireGroup_eq : exec (.acquireGroup lane g wrong) s =
    .next (if m.acquired (s.get (R.LANE_L_CFG.ACQ_COMMAS lane.val)) then
      (s.setLane lane.val { m.anew with rdPos := m.rdPos, last := m.last, tx := m.tx }).toLaneState lane.val 4
    else s.setLane lane.val { m with raw := some g.toNat }) := by
  subst hm
  refine congrArg Host.Outcome.next ((if_neg (by rw [h3]; decide)).trans ?_)
  rw [hp.groupTime]
  rfl

theorem exec_acquireGroup_stays (hc : m.count < s.get (R.LANE_L_CFG.ACQ_COMMAS lane.val) ∨ m.count = 0) :
    exec (.acquireGroup lane g wrong) s = .next (s.setLane lane.val { m with raw := some g.toNat }) := by
  rw [exec_acquireGroup_eq hp h3 hm, LaneSt.acquired_eq_false hc]
  rfl

/-- At ACQ_COMMAS the lane enters ALIGNED. -/
theorem acquireGroup_completes (hw : sparseWf regDefault s.regs = true) (hl : s.lanes.length = 64) (h0 : 0 < m.count)
    (hc : s.get (R.LANE_L_CFG.ACQ_COMMAS lane.val) ≤ m.count) :
    s.completes (.acquireGroup lane g wrong) [.regs, .lanes] [R.LANE_L_STATUS lane.val] (fun t => t.laneState lane.val = 4 ∧
      (∀ k, k ≠ lane.val → t.lane k = s.lane k) ∧ t.lane lane.val = { m.anew with rdPos := m.rdPos, last := m.last, tx := m.tx }) := by
  have hacq : m.acquired (s.get (R.LANE_L_CFG.ACQ_COMMAS lane.val)) = true := by simp [LaneSt.acquired, hc, h0]
  have hto : s.touchesOnly [.regs, .lanes] [R.LANE_L_STATUS lane.val]
      (s.setLane lane.val { m.anew with rdPos := m.rdPos, last := m.last, tx := m.tx }) := (State.touchesOnly_refl hw).setLane _ _
  have he := exec_acquireGroup_eq hp h3 hm (wrong := wrong)
  rw [hacq, if_pos rfl, State.toLaneState_eq (.inr rfl)] at he
  refine (hto.showLane lane.val 4).completes he ⟨State.showLane_state hto.wf (by decide), fun k hk => ?_, ?_⟩
  · rw [State.lane_of_lanes (State.showLane_lanes ..), State.lane_setLane_other hk]
  · rw [State.lane_of_lanes (State.showLane_lanes ..), State.lane_setLane_same (by rw [hl]; exact lane.isLt)]

end

end Sys2Proof.Machine
end

section
/-! PROOFS, comma lanes: groups in ALIGNED, as they are counted, delivered and scored (R84, R86, R88, R427). -/

namespace Sys2Proof.Machine

variable {s t u : State} {n g out : Nat} {l a m : LaneSt} {cs : List Comp} {offs : List Nat} {b : Bool × Byte} {q : Decoded} {bad : Bool}

/-! ### Counters (R88, R89) -/

/-- The registers that count a group. -/
def countOffsets (n : Nat) : List Nat := [R.LANE_L_ERR n, R.LANE_L_EVT n, R.LANE_L_CG_LO n, R.LANE_L_CG_HI n]

theorem countOffsets_subset (n : Nat) : countOffsets n ⊆ laneOffsets n := fun _ h => .tail _ (.tail _ h)

theorem laneStatus_notMem (n : Nat) : R.LANE_L_STATUS n ∉ countOffsets n := by
  simp [countOffsets, R.LANE_L_STATUS, R.LANE_L_ERR, R.LANE_L_EVT, R.LANE_L_CG_LO, R.LANE_L_CG_HI]

theorem countOffsets_ne (n : Nat) : R.LANE_L_ERR n ≠ R.LANE_L_EVT n ∧ R.LANE_L_CG_LO n ≠ R.LANE_L_CG_HI n ∧
    R.LANE_L_ERR n ∉ [R.LANE_L_CG_LO n, R.LANE_L_CG_HI n] ∧ R.LANE_L_EVT n ∉ [R.LANE_L_CG_LO n, R.LANE_L_CG_HI n] := by
  simp [R.LANE_L_ERR, R.LANE_L_EVT, R.LANE_L_CG_LO, R.LANE_L_CG_HI]

/-- The groups that a lane has counted. -/
def State.groupCount (s : State) (n : Nat) : Nat := s.get64 (R.LANE_L_CG_LO.N n) (R.LANE_L_CG_HI.N n)

theorem State.groupCount_congr (hn : n < 64) (h : s.touchesOnly cs offs t) (hlo : R.LANE_L_CG_LO n ∉ offs) (hhi : R.LANE_L_CG_HI n ∉ offs) :
    t.groupCount n = s.groupCount n := by
  have hl : R.LANE_L_CG_LO n < 0x400000 := (laneOffsets_lt hn (by simp [laneOffsets])).trans (by decide)
  have hh : R.LANE_L_CG_HI n < 0x400000 := (laneOffsets_lt hn (by simp [laneOffsets])).trans (by decide)
  exact congrArg₂ (fun a b => a + 4294967296 * b) (h.get hl hlo) (h.get hh hhi)

theorem State.groupCount_put64 (hw : sparseWf regDefault s.regs = true) {v : Nat} (hv : v < 2 ^ 48) :
    (s.put64 (R.LANE_L_CG_LO.N n) (R.LANE_L_CG_HI.N n) v).groupCount n = v := by
  have w1 := State.put_wf hw (R.LANE_L_CG_LO.N n) (v % 4294967296)
  have okLo : (R.LANE_L_CG_LO.N n).ok := Fld.ok_of rfl
  have okHi : (R.LANE_L_CG_HI.N n).ok := Fld.ok_of rfl
  have hlo := (State.get_put_apart w1 okHi (.inl (countOffsets_ne n).2.1) (v / 4294967296)).trans (State.get_put_same hw okLo (v % 4294967296))
  have hhi := State.get_put_same w1 okHi (v / 4294967296)
  refine (congrArg₂ (fun a b => a + 4294967296 * b) hlo hhi).trans ?_
  change v % 4294967296 % 2 ^ 32 + 4294967296 * (v / 4294967296 % 2 ^ 16) = v
  omega

theorem State.countGroup_touchesOnly (hw : sparseWf regDefault s.regs = true) (n : Nat) :
    s.touchesOnly [.regs] [R.LANE_L_CG_LO n, R.LANE_L_CG_HI n] (s.countGroup n) := by
  have h64 : s.touchesOnly [.regs] [R.LANE_L_CG_LO n, R.LANE_L_CG_HI n] (s.put64 (R.LANE_L_CG_LO.N n) (R.LANE_L_CG_HI.N n)
      (satNat 48 (s.groupCount n + 1))) := ((State.touchesOnly_refl hw).put _ (.head _)).put _ (.tail _ (.head _))
  exact h64.regs (h64.2.setReg (.inr (Nat.le_add_left ..)) _) (State.changesOnly_regs State.bump_holds) (.head _)

theorem State.countGroup_groupCount (hw : sparseWf regDefault s.regs = true) (hn : n < 64) :
    (s.countGroup n).groupCount n = min (2 ^ 48 - 1) (s.groupCount n + 1) := by
  let u := s.put64 (R.LANE_L_CG_LO.N n) (R.LANE_L_CG_HI.N n) (satNat 48 (s.groupCount n + 1))
  have hu : sparseWf regDefault u.regs = true := State.put_wf (State.put_wf hw _ _) _ _
  have hb : u.touchesOnly [.regs] [] (u.bump (R.LANE_L_CG_LO.N n).onTick) :=
    (State.touchesOnly_refl hu).regs ((State.regsWithin_refl hu).setReg (.inr (Nat.le_add_left ..)) _)
      (State.changesOnly_regs State.bump_holds) (.head _)
  refine (State.groupCount_congr hn hb (by simp) (by simp)).trans ?_
  rw [← satNat_eq_min]
  exact State.groupCount_put64 hw (by rw [satNat_eq_min]; omega)

/-! ### Delivery to the link (R84, R427) -/

/-- A lane that delivers to its link, without a pattern; the link of a fabric port does not train. -/
structure State.delivers (s : State) (n : Nat) : Prop where
  state : s.laneState n = 4
  loop : s.loop n = 0
  pattern : s.get (R.LANE_L_CFG.PATTERN n) = 0
  trained : n < 32 ∨ s.get (R.GTS_G_STATUS.STATE ((n - 32) / 4)) ≠ 1
  room : n < s.lanes.length

theorem State.delivers.laneUp (h : s.delivers n) : s.laneUp n = true := by
  have hl : s.get (R.LANE_L_CFG.LOOP n) = 0 := h.loop
  rw [State.laneUp, h.state, hl, h.pattern]
  rfl

theorem State.delivers.setLane (h : s.delivers n) (l : LaneSt) : (s.setLane n l).delivers n :=
  ⟨h.state, h.loop, h.pattern, h.trained, h.room.trans_eq (State.length_setLane n l).symm⟩

/-- Counting a group leaves all of it. -/
theorem State.delivers.counted (h : s.delivers n) (hn : n < 64) (hu : s.touchesOnly [.regs] offs u) (ho : offs ⊆ countOffsets n) :
    u.delivers n := by
  have hcfg : u.reg (R.LANE_L_CFG n) = s.reg (R.LANE_L_CFG n) := hu.reg_apart hn (List.Subset.trans ho (countOffsets_subset n)) (.inl rfl)
  have hport : u.reg (R.GTS_G_STATUS ((n - 32) / 4)) = s.reg (R.GTS_G_STATUS ((n - 32) / 4)) :=
    hu.reg_apart hn (List.Subset.trans ho (countOffsets_subset n)) (.inr (by unfold R.GTS_G_STATUS; omega))
  have hlanes : u.lanes = s.lanes := hu.same (c := .lanes)
  refine ⟨(hu.get (laneStatus_lt hn) fun hm => laneStatus_notMem n (ho hm)).trans h.state, (State.get_of_reg hcfg).trans h.loop,
    (State.get_of_reg hcfg).trans h.pattern, h.trained.imp_right fun hs => ?_, hlanes ▸ h.room⟩
  rwa [State.get_of_reg (f := R.GTS_G_STATUS.STATE ((n - 32) / 4)) hport]

/-- A symbol reaches the link of a fabric port. -/
def State.feedLink (s : State) (n : Nat) (b : Bool × Byte) : State :=
  if n < 32 then s else s.setGport ((n - 32) / 4) ((s.gport ((n - 32) / 4)).symbol ((n - 32) % 4) b)

theorem State.feedLink_lanes (s : State) (n : Nat) (b : Bool × Byte) : (s.feedLink n b).lanes = s.lanes := by
  unfold State.feedLink
  split <;> rfl

theorem State.feedLink_regs (s : State) (n : Nat) (b : Bool × Byte) : (s.feedLink n b).regs = s.regs := by
  unfold State.feedLink
  split <;> rfl

/-- The parts of State that a fabric port's link is. -/
def linkParts (n : Nat) : List Comp := if n < 32 then [] else [.gts]

theorem State.touchesOnly.feedLink (h : s.touchesOnly cs offs t) (n : Nat) (b : Bool × Byte) :
    s.touchesOnly (cs ++ linkParts n) offs (t.feedLink n b) := by
  have h' : s.touchesOnly (cs ++ linkParts n) offs t := h.mono (List.subset_append_left ..) (List.Subset.refl _)
  unfold State.feedLink
  split
  · exact h'
  · next h32 => exact h'.gts _ (List.mem_append_right _ (by rw [linkParts, if_neg h32]; exact .head _))

theorem State.feedLink_gport (h32 : 32 ≤ n) (hn : n < 64) (hp : s.gts.ports.length = 8) (b : Bool × Byte) :
    (s.feedLink n b).gport ((n - 32) / 4) = (s.gport ((n - 32) / 4)).symbol ((n - 32) % 4) b := by
  rw [State.feedLink, if_neg (Nat.not_lt.2 h32)]
  exact State.gport_setGport (by omega) _

theorem State.trainDone_of_trained {p : Nat} (h : s.get (R.GTS_G_STATUS.STATE p) ≠ 1) : s.trainDone p = s := by
  refine if_neg ?_
  rw [beq_eq_false_iff_ne.2 h]
  exact Bool.false_ne_true

theorem State.linkSymbol_of_given {x : Nat} {ctl e : Bool} (hg : (s.lane n).given = some (x, ctl, e))
    (ht : n < 32 ∨ s.get (R.GTS_G_STATUS.STATE ((n - 32) / 4)) ≠ 1) : s.linkSymbol n = s.feedLink n (ctl, BitVec.ofNat 8 x) := by
  by_cases h32 : n < 32
  · rw [State.linkSymbol, State.feedLink, if_pos h32, if_pos h32]
  · rw [State.linkSymbol, State.feedLink, if_neg h32, if_neg h32, hg]
    exact State.trainDone_of_trained (ht.resolve_left h32)

theorem State.checkPattern_off (h : s.get (R.LANE_L_CFG.PATTERN n) = 0) (x : Option Nat) : s.checkPattern n x = s := if_pos h

theorem State.farEnd_off (h : s.loop n = 0) : s.farEnd n g out = s := if_pos (by rw [h]; rfl)

/-- The byte that a lane gives goes to its link; without a pattern and a far-end loopback nothing else is done with the group. -/
theorem State.delivers.given (h : s.delivers n) {x : Nat} {ctl : Bool} (p : Option Nat) :
    (((s.setLane n { a with given := some (x, ctl, bad) }).linkSymbol n).checkPattern n p).farEnd n g out =
      (s.setLane n { a with given := some (x, ctl, bad) }).feedLink n (ctl, BitVec.ofNat 8 x) := by
  have hl := h.setLane { a with given := some (x, ctl, bad) }
  have hregs := State.feedLink_regs (s.setLane n { a with given := some (x, ctl, bad) }) n (ctl, BitVec.ofNat 8 x)
  rw [State.linkSymbol_of_given (congrArg LaneSt.given (State.lane_setLane_same h.room _)) hl.trained,
    State.checkPattern_off ((State.get_of_regs hregs _).trans hl.pattern), State.farEnd_off ((State.get_of_regs hregs _).trans hl.loop)]

/-- The byte of a group that is one of the code, at this disparity or at the other. -/
theorem State.delivers.giveByte (h : s.delivers n) {cls : GroupClass} (hc : cls = .good q ∨ cls = .disp q) :
    (s.setLane n a).giveByte n cls bad = s.setLane n { a with given := some (q.byte, q.ctl, bad) } := by
  have hup : (!(s.setLane n a).laneUp n) = false := by rw [(h.setLane a).laneUp]; rfl
  unfold State.giveByte
  rw [hup]
  obtain rfl | rfl := hc <;>
    exact (congrArg (fun l : LaneSt => (s.setLane n a).setLane n { l with given := some (q.byte, q.ctl, bad) })
      (State.lane_setLane_same h.room a)).trans (State.setLane_setLane ..)

/-- The byte of a code violation is free (R84). -/
theorem State.delivers.giveFree (h : s.delivers n) : (s.setLane n a).giveByte n .cv bad =
    s.draw.2.setLane n { a with given := some (s.draw.1.toNat % 256, false, bad) } := by
  have hup : (!(s.setLane n a).laneUp n) = false := by rw [(h.setLane a).laneUp]; rfl
  unfold State.giveByte
  rw [hup]
  exact (congrArg (fun l : LaneSt => (s.draw.2.setLane n a).setLane n { l with given := some (s.draw.1.toNat % 256, false, bad) })
    (State.lane_setLane_same h.room a)).trans (State.setLane_setLane ..)

/-! ### The score (R86) -/

theorem State.score_below_bad (h : (s.lane n).score + 1 < s.get (R.LANE_L_CFG.LOA_LIMIT n)) :
    s.score n true = s.setLane n { s.lane n with good := 0, score := (s.lane n).score + 1 } := if_neg (Nat.not_le.2 h)

theorem State.score_below_good (h : (s.lane n).score < s.get (R.LANE_L_CFG.LOA_LIMIT n)) : s.score n false = s.setLane n { s.lane n with
    good := (if (s.lane n).good + 1 = 64 then 0 else (s.lane n).good + 1)
    score := (if (s.lane n).good + 1 = 64 then (s.lane n).score - 1 else (s.lane n).score) } := by
  have hle : (if (s.lane n).good + 1 = 64 then (s.lane n).score - 1 else (s.lane n).score) ≤ (s.lane n).score := by split <;> omega
  exact if_neg (Nat.not_le.2 (hle.trans_lt h))

/-- The registers of a lane that has lost its alignment. -/
def State.showLoss (s : State) (n : Nat) : State := ((s.bumpNow (R.LANE_L_EVT.LOA n)).latch (R.LANE_L_STATUS.LOA_SEEN n)).showLane n 3

theorem State.touchesOnly.showLoss (h : s.touchesOnly cs offs t) (hc : Comp.regs ∈ cs) (he : R.LANE_L_EVT n ∈ offs)
    (hs : R.LANE_L_STATUS n ∈ offs) : s.touchesOnly cs offs (t.showLoss n) :=
  ((h.bumpNow he hc).latch hs hc).showLane n 3 hc hs

/-- What a loss of alignment shows. -/
theorem State.showLoss_shows (hw : sparseWf regDefault s.regs = true) (hn : n < 64) : (s.showLoss n).laneState n = 3 ∧
    s.counts (R.LANE_L_EVT.LOA n) 1 (s.showLoss n) ∧ (s.showLoss n).flag (R.LANE_L_STATUS.LOA_SEEN n) = true := by
  have okLoa : (R.LANE_L_EVT.LOA n).ok := Fld.ok_of rfl
  have okSeen : (R.LANE_L_STATUS.LOA_SEEN n).ok := Fld.ok_of rfl
  have w1 : sparseWf regDefault (s.bumpNow (R.LANE_L_EVT.LOA n)).regs = true := State.put_wf (State.put_wf hw _ _) _ _
  have hlt : R.LANE_L_EVT n < 0x400000 := (laneOffsets_lt hn (by simp [laneOffsets])).trans (by decide)
  have hne : R.LANE_L_EVT n ∉ [R.LANE_L_STATUS n] := by simp [R.LANE_L_EVT, R.LANE_L_STATUS]
  have hl : (s.bumpNow (R.LANE_L_EVT.LOA n)).touchesOnly [.regs] [R.LANE_L_STATUS n] ((s.bumpNow (R.LANE_L_EVT.LOA n)).latch
    (R.LANE_L_STATUS.LOA_SEEN n)) := (State.touchesOnly_refl w1).latch (.head _)
  refine ⟨State.showLane_state hl.wf (by decide), ?_, ?_⟩
  · exact ((hl.showLane n 3).get hlt hne).trans (State.counts_bumpNow hw okLoa)
  · exact (State.showLane_flag hl.wf (Fld.apart_of rfl) (Fld.apart_of rfl) (Fld.apart_of rfl)).trans (State.flag_latch w1 okSeen)

/-- At LOA_LIMIT a lane that no camera has falls to ACQUIRE. -/
theorem State.score_lost (hw : sparseWf regDefault s.regs = true) (h4 : s.laneState n = 4) (h32 : n < 32) (hc : s.camOfLane n = none)
    (h : s.get (R.LANE_L_CFG.LOA_LIMIT n) ≤ (s.lane n).score + 1) : s.score n true =
      ((s.setLane n { s.lane n with good := 0, score := (s.lane n).score + 1 }).showLoss n).setLane n
        { (s.lane n).anew with raw := some (s.lane n).last } := by
  have hn : n < 64 := by omega
  let v := s.setLane n { s.lane n with good := 0, score := (s.lane n).score + 1 }
  have hv : v.touchesOnly [.regs] [R.LANE_L_EVT n] (v.bumpNow (R.LANE_L_EVT.LOA n)) :=
    (State.touchesOnly_refl (s := v) hw).bumpNow (.head _) (.head _)
  have hstate : ((v.bumpNow (R.LANE_L_EVT.LOA n)).latch (R.LANE_L_STATUS.LOA_SEEN n)).laneState n = 4 := by
    refine (State.get_latch_apart hv.wf (Fld.ok_of rfl) (laneStatus_lt hn) (Fld.apart_of rfl)).trans ((hv.get (laneStatus_lt hn) ?_).trans h4)
    simp [R.LANE_L_STATUS.STATE, R.LANE_L_STATUS, R.LANE_L_EVT]
  have hto : v.touchesOnly [.regs] (laneOffsets n) (v.showLoss n) :=
    State.touchesOnly.showLoss (State.touchesOnly_refl (s := v) hw) (.head _) (by simp [laneOffsets]) (.head _)
  have hcam : (v.showLoss n).camOfLane n = none := (hto.camOfLane hn (List.Subset.refl _)).trans hc
  refine (if_pos h).trans ?_
  have hfall := State.toLaneState_leaves hstate (st := 3) (by decide)
  exact congrArg (State.setLane · n { (s.lane n).anew with raw := some (s.lane n).last })
    (hfall.trans (State.linkSees_none (s := v.showLoss n) h32 hcam))

end Sys2Proof.Machine
end

section
/-! PROOFS, comma lanes: a group in ALIGNED by its class (R84, R86, R88). -/

namespace Sys2Proof.Machine

variable {s t u : State} {n g out x : Nat} {l a m : LaneSt} {cs : List Comp} {offs : List Nat} {q : Decoded} {bad mis ctl : Bool}

/-! ### A group by its class (R88) -/

/-- A group is taken: so much is counted, `u`, and this the lane holds as its byte goes to the link. -/
def State.takeGroup (u : State) (n : Nat) (a : LaneSt) (x : Nat) (ctl bad : Bool) : State :=
  (u.setLane n { a with given := some (x, ctl, bad) }).feedLink n (ctl, BitVec.ofNat 8 x)

theorem State.alignedGroup_coded (hm : straddles (s.lane n).last g = mis) (hq : decodeAt g (s.lane n).rdPos = some q)
    (hu : (if mis then (s.countGroup n).bumpNow (R.LANE_L_EVT.MIS_COMMA n) else s.countGroup n) = u) (hd : u.delivers n) :
    s.alignedGroup n g out = (u.takeGroup n { s.lane n with rdPos := q.rd, last := g } q.byte q.ctl mis).score n mis := by
  unfold State.alignedGroup
  dsimp only
  rw [classify_of_some hq, hm]
  dsimp only
  rw [hu, Bool.or_false, hd.giveByte (.inl rfl), hd.given]
  rfl

theorem State.alignedGroup_disparity (hm : straddles (s.lane n).last g = false) (hn : decodeAt g (s.lane n).rdPos = none)
    (hq : decodeAt g (!(s.lane n).rdPos) = some q) (hd : ((s.countGroup n).bumpNow (R.LANE_L_ERR.DISP n)).delivers n) :
    s.alignedGroup n g out = (((s.countGroup n).bumpNow (R.LANE_L_ERR.DISP n)).takeGroup n { s.lane n with rdPos := q.rd, last := g }
      q.byte q.ctl true).score n true := by
  have hc : classify g (s.lane n).rdPos = .disp q := by rw [classify, hn, hq]
  unfold State.alignedGroup
  dsimp only
  rw [hc, hm]
  dsimp only
  rw [Bool.false_or, if_neg Bool.false_ne_true, hd.giveByte (.inr rfl), hd.given]
  rfl

theorem State.alignedGroup_violation (hm : straddles (s.lane n).last g = false) (hf : decodeAt g false = none)
    (ht : decodeAt g true = none) (hu : (s.countGroup n).bumpNow (R.LANE_L_ERR.CV n) = u) (hd : u.delivers n) :
    s.alignedGroup n g out = (u.draw.2.takeGroup n { s.lane n with last := g }
      (u.draw.1.toNat % 256) false true).score n true := by
  have hc : classify g (s.lane n).rdPos = .cv := by cases h : (s.lane n).rdPos <;> rw [classify] <;> simp [hf, ht]
  have hdraw : u.draw.2.delivers n := ⟨hd.state, hd.loop, hd.pattern, hd.trained, hd.room⟩
  unfold State.alignedGroup
  dsimp only
  rw [hc, hm]
  dsimp only
  rw [Bool.false_or, if_neg Bool.false_ne_true, hu, hd.giveFree, hdraw.given]
  rfl

theorem State.takeGroup_lane (hr : n < u.lanes.length) (x : Nat) (ctl bad : Bool) :
    (u.takeGroup n a x ctl bad).lane n = { a with given := some (x, ctl, bad) } := by
  rw [State.takeGroup, State.lane_of_lanes (State.feedLink_lanes ..), State.lane_setLane_same hr]

theorem State.takeGroup_regs (u : State) (n : Nat) (a : LaneSt) (x : Nat) (ctl bad : Bool) :
    (u.takeGroup n a x ctl bad).regs = u.regs := State.feedLink_regs ..

section
variable (hr : n < u.lanes.length) (x : Nat) (ctl : Bool)
include hr

theorem State.takeGroup_score_bad (h : a.score + 1 < u.get (R.LANE_L_CFG.LOA_LIMIT n)) : (u.takeGroup n a x ctl true).score n true =
    (u.takeGroup n a x ctl true).setLane n { a with given := some (x, ctl, true), good := 0, score := a.score + 1 } := by
  have hlane := State.takeGroup_lane (a := a) hr x ctl true
  rw [State.score_below_bad (by rwa [hlane, State.get_of_regs (State.takeGroup_regs ..)]), hlane]

theorem State.takeGroup_score_good (h : a.score < u.get (R.LANE_L_CFG.LOA_LIMIT n)) : (u.takeGroup n a x ctl false).score n false =
    (u.takeGroup n a x ctl false).setLane n { a with given := some (x, ctl, false)
                                                     good := (if a.good + 1 = 64 then 0 else a.good + 1)
                                                     score := (if a.good + 1 = 64 then a.score - 1 else a.score) } := by
  have hlane := State.takeGroup_lane (a := a) hr x ctl false
  rw [State.score_below_good (by rwa [hlane, State.get_of_regs (State.takeGroup_regs ..)]), hlane]

end

/-! ### What a group leaves (R84, R88, R427) -/

/-- A group has been counted and given: what the lane holds then, and what the link of a fabric port has got. -/
structure State.groupTaken (s : State) (n x : Nat) (ctl : Bool) (m : LaneSt) (t : State) : Prop where
  count : t.groupCount n = min (2 ^ 48 - 1) (s.groupCount n + 1)
  others : ∀ k, k ≠ n → t.lane k = s.lane k
  given : 32 ≤ n → s.gts.ports.length = 8 →
    t.gport ((n - 32) / 4) = (s.gport ((n - 32) / 4)).symbol ((n - 32) % 4) (ctl, BitVec.ofNat 8 x)
  lane : t.lane n = m

/-- What has been counted, in `u`, before a group is taken. -/
structure State.counted (s : State) (n : Nat) (u : State) : Prop where
  count : u.groupCount n = min (2 ^ 48 - 1) (s.groupCount n + 1)
  lanes : u.lanes = s.lanes
  gts : u.gts = s.gts

theorem State.counted_of (hw : sparseWf regDefault s.regs = true) (hn : n < 64) (h : (s.countGroup n).touchesOnly cs offs u)
    (ho : R.LANE_L_CG_LO n ∉ offs ∧ R.LANE_L_CG_HI n ∉ offs) (hc : Comp.lanes ∉ cs ∧ Comp.gts ∉ cs) : s.counted n u :=
  ⟨(State.groupCount_congr hn h ho.1 ho.2).trans (State.countGroup_groupCount hw hn), h.1 .lanes hc.1, h.1 .gts hc.2⟩

/-- The draw of a free value counts nothing. -/
theorem State.counted.draw (h : s.counted n u) : s.counted n u.draw.2 := ⟨h.count, h.lanes, h.gts⟩

theorem State.counts_draw {f : Fld} {k : Nat} (h : s.counts f k u) : s.counts f k u.draw.2 := h

theorem State.counted.taken (h : s.counted n u) (hn : n < 64) (hl : s.lanes.length = 64) (a m : LaneSt) (x : Nat) (ctl bad : Bool) :
    s.groupTaken n x ctl m ((u.takeGroup n a x ctl bad).setLane n m) := by
  have hr : n < u.lanes.length := by rw [h.lanes, hl]; exact hn
  have hlanes : (u.takeGroup n a x ctl bad).lanes = (u.setLane n { a with given := some (x, ctl, bad) }).lanes := State.feedLink_lanes ..
  refine ⟨?_, fun k hk => ?_, fun h32 hp => ?_, ?_⟩
  · have hregs := State.takeGroup_regs u n a x ctl bad
    exact (congrArg₂ (fun a b => a + 4294967296 * b) (State.get_of_regs hregs _) (State.get_of_regs hregs _)).trans h.count
  · rw [State.lane_setLane_other hk, State.lane_of_lanes hlanes, State.lane_setLane_other hk, State.lane_of_lanes h.lanes]
  · have hg : ∀ p, u.gport p = s.gport p := fun p => by rw [State.gport, h.gts, State.gport]
    rw [← hg]
    exact State.feedLink_gport (s := u.setLane n _) h32 hn (h.gts ▸ hp) _
  · exact State.lane_setLane_same (by rw [hlanes, State.length_setLane]; exact hr) m

theorem State.touchesOnly.takeGroup (h : s.touchesOnly cs offs u) (hc : Comp.lanes ∈ cs) (a m : LaneSt) (x : Nat) (ctl bad : Bool) :
    s.touchesOnly (cs ++ linkParts n) offs ((u.takeGroup n a x ctl bad).setLane n m) :=
  ((h.setLane n _ hc).feedLink n _).setLane n m (List.mem_append_left _ hc)

/-! ### ALIGNED_GROUP (R86, R88) -/

/-- The registers that every group counts in. -/
def groupOffsets (n : Nat) : List Nat := [R.LANE_L_CG_LO n, R.LANE_L_CG_HI n]

theorem groupOffsets_subset (n : Nat) : groupOffsets n ⊆ countOffsets n := fun _ h => .tail _ (.tail _ h)

theorem errorOffsets_subset {f : Fld} (hf : f.off ∈ [R.LANE_L_ERR n, R.LANE_L_EVT n]) : f.off :: groupOffsets n ⊆ countOffsets n :=
  List.cons_subset.2 ⟨List.mem_append_left (groupOffsets n) hf, groupOffsets_subset n⟩

section
variable (hw : sparseWf regDefault s.regs = true) (hn : n < 64)
include hw hn

theorem State.delivers.countGroup (hd : s.delivers n) : (s.countGroup n).delivers n :=
  hd.counted hn (State.countGroup_touchesOnly hw n) (groupOffsets_subset n)

theorem State.countGroup_counted : s.counted n (s.countGroup n) :=
  State.counted_of (cs := []) (offs := []) hw hn (State.touchesOnly_refl (State.countGroup_touchesOnly hw n).wf) (by simp) (by simp)

section
variable {f : Fld} (hf : f.off ∈ [R.LANE_L_ERR n, R.LANE_L_EVT n])
include hf

omit hn hf in
theorem State.countError_touchesOnly : s.touchesOnly [.regs] (f.off :: groupOffsets n) ((s.countGroup n).bumpNow f) :=
  ((State.countGroup_touchesOnly hw n).mono (List.Subset.refl _) (List.subset_cons_self ..)).bumpNow (.head _)

theorem State.delivers.countError (hd : s.delivers n) : ((s.countGroup n).bumpNow f).delivers n :=
  hd.counted hn (State.countError_touchesOnly hw) (errorOffsets_subset hf)

theorem State.countError_counted : s.counted n ((s.countGroup n).bumpNow f) := by
  have hc := (State.countGroup_touchesOnly hw n).wf
  refine State.counted_of (cs := [.regs]) (offs := [f.off]) hw hn ((State.touchesOnly_refl hc).bumpNow (.head _)) ?_ (by decide)
  obtain ⟨-, -, herr, hevt⟩ := countOffsets_ne n
  simp only [List.mem_cons, List.not_mem_nil, or_false, not_or] at hf herr hevt ⊢
  obtain h | h := hf <;> rw [h]
  · exact ⟨Ne.symm herr.1, Ne.symm herr.2⟩
  · exact ⟨Ne.symm hevt.1, Ne.symm hevt.2⟩

theorem State.counts_countError (hok : f.ok) : s.counts f 1 ((s.countGroup n).bumpNow f) := by
  have hc := State.countGroup_touchesOnly hw n
  have hlt : f.off < 0x400000 := (laneOffsets_lt hn (countOffsets_subset n (List.mem_append_left (groupOffsets n) hf))).trans (by decide)
  have hno : f.off ∉ groupOffsets n := by
    obtain ⟨-, -, herr, hevt⟩ := countOffsets_ne n
    simp only [List.mem_cons, List.not_mem_nil, or_false] at hf
    obtain h | h := hf <;> rw [h] <;> assumption
  exact State.counts_of_get (hc.get hlt hno) (State.counts_bumpNow hc.wf hok)

end

omit hw in
theorem State.loaLimit_counted (hu : s.touchesOnly cs offs u) (ho : offs ⊆ countOffsets n) :
    u.get (R.LANE_L_CFG.LOA_LIMIT n) = s.get (R.LANE_L_CFG.LOA_LIMIT n) :=
  State.get_of_reg (hu.reg_apart hn (List.Subset.trans ho (countOffsets_subset n)) (.inl rfl))

end

/-! ### Loss of alignment (R86) -/

section
variable (hl : s.lanes.length = 64) (h32 : n < 32) (h4 : s.laneState n = 4)
  (hcam : s.camOfLane n = none) (hu : s.touchesOnly cs offs u) (ho : offs ⊆ countOffsets n) (hcnt : s.counted n u)
  (hlim : s.get (R.LANE_L_CFG.LOA_LIMIT n) ≤ a.score + 1)
include hl h32 h4 hcam hu ho hcnt hlim

theorem State.takeGroup_score_lost (x : Nat) (ctl : Bool) : (u.takeGroup n a x ctl true).score n true =
    (((u.takeGroup n a x ctl true).setLane n { a with given := some (x, ctl, true), good := 0, score := a.score + 1 }).showLoss n).setLane n
      { a.anew with raw := some a.last } := by
  have hn : n < 64 := by omega
  have hlane := State.takeGroup_lane (a := a) (by rw [hcnt.lanes, hl]; exact hn) x ctl true
  have hregs := State.takeGroup_regs u n a x ctl true
  have hsub := List.Subset.trans ho (countOffsets_subset n)
  have hstate : (u.takeGroup n a x ctl true).laneState n = 4 := (State.get_of_regs hregs _).trans
    ((hu.get (laneStatus_lt hn) fun hm => laneStatus_notMem n (ho hm)).trans h4)
  have hnone : (u.takeGroup n a x ctl true).camOfLane n = none :=
    (State.camOfLane_congr (fun _ _ => by rw [State.reg, hregs, State.reg]) n).trans ((hu.camOfLane hn hsub).trans hcam)
  have hle : (u.takeGroup n a x ctl true).get (R.LANE_L_CFG.LOA_LIMIT n) ≤ ((u.takeGroup n a x ctl true).lane n).score + 1 := by
    rw [hlane, State.get_of_regs hregs, State.loaLimit_counted hn hu ho]
    exact hlim
  rw [State.score_lost (hregs ▸ hu.wf) hstate h32 hnone hle, hlane]
  rfl

/-- What is left of a lane that loses its alignment, where `u` has counted the group. -/
theorem State.takeGroup_lost (hr : Comp.regs ∈ cs) (hc : Comp.lanes ∈ cs) (hevt : R.LANE_L_EVT n ∉ offs) {f : Fld}
    (hf : f.off = R.LANE_L_ERR n) (hfc : s.counts f 1 u) (x : Nat) (ctl : Bool) : let t := (u.takeGroup n a x ctl true).score n true
    s.touchesOnly (cs ++ linkParts n) (R.LANE_L_EVT n :: R.LANE_L_STATUS n :: offs) t ∧
      t.groupCount n = min (2 ^ 48 - 1) (s.groupCount n + 1) ∧ (∀ k, k ≠ n → t.lane k = s.lane k) ∧ t.laneState n = 3 ∧
      s.counts f 1 t ∧ s.counts (R.LANE_L_EVT.LOA n) 1 t ∧ t.flag (R.LANE_L_STATUS.LOA_SEEN n) = true ∧
      t.lane n = { a.anew with raw := some a.last } := by
  have hn : n < 64 := by omega
  dsimp only
  rw [State.takeGroup_score_lost hl h32 h4 hcam hu ho hcnt hlim]
  generalize hb : ({ a with given := some (x, ctl, true), good := 0, score := a.score + 1 } : LaneSt) = b
  have hcounts : s.counts f 1 ((u.takeGroup n a x ctl true).setLane n b) := (State.get_of_regs (State.takeGroup_regs ..) f).trans hfc
  have hto := hu.takeGroup (n := n) hc a b x ctl true
  obtain ⟨hcount, hothers, -, hlane⟩ := hcnt.taken hn hl a b x ctl true
  have hlen : n < ((u.takeGroup n a x ctl true).setLane n b).lanes.length := by
    rw [State.length_setLane, State.takeGroup, State.feedLink_lanes, State.length_setLane, hcnt.lanes, hl]
    exact hn
  generalize (u.takeGroup n a x ctl true).setLane n b = w at *
  have hloss : w.touchesOnly [.regs] [R.LANE_L_EVT n, R.LANE_L_STATUS n] (w.showLoss n) :=
    State.touchesOnly.showLoss (State.touchesOnly_refl hto.wf) (.head _) (.head _) (.tail _ (.head _))
  obtain ⟨hstate, hloa, hseen⟩ := State.showLoss_shows hto.wf hn
  have hlanes : (w.showLoss n).lanes = w.lanes := hloss.same (c := .lanes)
  have hlt : ∀ o ∈ laneOffsets n, o < 0x400000 := fun o h => (laneOffsets_lt hn h).trans (by decide)
  refine ⟨?_, ?_, fun k hk => ?_, (State.laneState_setLane ..).trans hstate, ?_, ?_,
    (State.flag_setLane ..).trans hseen, State.lane_setLane_same (hlanes ▸ hlen) _⟩
  · have hsub : offs ⊆ R.LANE_L_EVT n :: R.LANE_L_STATUS n :: offs := fun _ h => .tail _ (.tail _ h)
    exact (State.touchesOnly.showLoss (hto.mono (List.Subset.refl _) hsub) (List.mem_append_left _ hr) (.head _)
      (.tail _ (.head _))).setLane n _ (List.mem_append_left _ hc)
  · have hcg : (w.showLoss n).groupCount n = w.groupCount n :=
      State.groupCount_congr hn hloss (by simp [R.LANE_L_CG_LO, R.LANE_L_EVT, R.LANE_L_STATUS])
        (by simp [R.LANE_L_CG_HI, R.LANE_L_EVT, R.LANE_L_STATUS])
    exact (State.get64_setLane ..).trans (hcg.trans hcount)
  · rw [State.lane_setLane_other hk, State.lane_of_lanes hlanes, hothers k hk]
  · have hne : f.off ∉ [R.LANE_L_EVT n, R.LANE_L_STATUS n] := by
      rw [hf]
      simp [R.LANE_L_ERR, R.LANE_L_EVT, R.LANE_L_STATUS]
    exact (State.get_setLane ..).trans ((hloss.get (hf ▸ hlt _ (by simp [laneOffsets])) hne).trans hcounts)
  · have hkept : w.get (R.LANE_L_EVT.LOA n) = s.get (R.LANE_L_EVT.LOA n) := hto.get (hlt (R.LANE_L_EVT n) (by simp [laneOffsets])) hevt
    exact (State.get_setLane ..).trans (State.counts_of_get hkept hloa)

end

end Sys2Proof.Machine
end

section
/-! PROOFS, comma lanes: ALIGNED_GROUP on a lane without loopback, pattern and inversion (R84, R86, R88), and what settles O24. -/

namespace Sys2Proof.Machine

variable {s t u : State} {lane : Fin 64} {g : BitVec 10} {d : Fin 4} {q : Decoded} {cs : List Comp} {offs : List Nat}

theorem State.completes.imp {i : Instr} {p r : State → Prop} (h : s.completes i cs offs p) (hp : ∀ t, p t → r t) : s.completes i cs offs r := by
  obtain ⟨t, he, hc, hk, ht⟩ := h
  exact ⟨t, he, hc, hk, hp t ht⟩

theorem exec_alignedGroup_idle (h : s.laneState lane.val ≠ 4) : exec (.alignedGroup lane g d) s = .next s :=
  congrArg Host.Outcome.next (if_pos (bne_iff_ne.2 h))

theorem exec_alignedGroup_eq (h4 : s.laneState lane.val = 4) (hp : s.plainLane lane.val) :
    exec (.alignedGroup lane g d) s = .next (s.alignedGroup lane.val g.toNat d.val) := by
  refine congrArg Host.Outcome.next ((if_neg (by rw [h4]; decide)).trans ?_)
  rw [hp.groupTime]

section
variable (hw : sparseWf regDefault s.regs = true) (hl : s.lanes.length = 64) (hp : s.plainLane lane.val) (hd : s.delivers lane.val)
include hw hl hp hd

/-- A good group on the boundary. -/
theorem alignedGroup_good (hlim : (s.lane lane.val).score < s.get (R.LANE_L_CFG.LOA_LIMIT lane.val))
    (hm : straddles (s.lane lane.val).last g.toNat = false) (hq : decodeAt g.toNat (s.lane lane.val).rdPos = some q) :
    s.completes (.alignedGroup lane g d) ([.regs, .lanes] ++ linkParts lane.val) (groupOffsets lane.val)
      (s.groupTaken lane.val q.byte q.ctl { s.lane lane.val with
        rdPos := q.rd, last := g.toNat, given := some (q.byte, q.ctl, false)
        good := (if (s.lane lane.val).good + 1 = 64 then 0 else (s.lane lane.val).good + 1)
        score := (if (s.lane lane.val).good + 1 = 64 then (s.lane lane.val).score - 1 else (s.lane lane.val).score) }) := by
  have hn := lane.isLt
  have hu := State.countGroup_touchesOnly hw lane.val
  have hcnt := State.countGroup_counted hw hn
  have hlim' : (s.lane lane.val).score < (s.countGroup lane.val).get (R.LANE_L_CFG.LOA_LIMIT lane.val) := by
    rwa [State.loaLimit_counted hn hu (groupOffsets_subset _)]
  have he := (exec_alignedGroup_eq (d := d) hd.state hp).trans (congrArg Host.Outcome.next
    ((State.alignedGroup_coded hm hq (if_neg Bool.false_ne_true) (hd.countGroup hw hn)).trans
      (State.takeGroup_score_good (by rw [hcnt.lanes, hl]; exact hn) _ _ hlim')))
  have hu' : s.touchesOnly [.regs, .lanes] (groupOffsets lane.val) (s.countGroup lane.val) := hu.mono (by simp) (List.Subset.refl _)
  exact (hu'.takeGroup (.tail _ (.head _)) _ _ _ _ _).completes he (hcnt.taken hn hl _ _ _ _ _)

omit hw in
/-- What a bad group leaves below LOA_LIMIT, where `u` has counted it. -/
theorem alignedGroup_bad {a : LaneSt} {x : Nat} {ctl : Bool} {f : Fld} (hlim : a.score + 1 < s.get (R.LANE_L_CFG.LOA_LIMIT lane.val))
    (he : s.alignedGroup lane.val g.toNat d.val = (u.takeGroup lane.val a x ctl true).score lane.val true)
    (hu : s.touchesOnly cs offs u) (hc : Comp.lanes ∈ cs) (ho : offs ⊆ countOffsets lane.val) (hcnt : s.counted lane.val u)
    (hf : s.counts f 1 u) : s.completes (.alignedGroup lane g d) (cs ++ linkParts lane.val) offs (fun t =>
      s.groupTaken lane.val x ctl { a with given := some (x, ctl, true), good := 0, score := a.score + 1 } t ∧ s.counts f 1 t) := by
  have hn := lane.isLt
  have hscore := State.takeGroup_score_bad (a := a) (u := u) (by rw [hcnt.lanes, hl]; exact hn) x ctl
    (by rwa [State.loaLimit_counted hn hu ho])
  have hget := State.get_of_regs (State.takeGroup_regs u lane.val a x ctl true) f
  exact (hu.takeGroup hc _ _ _ _ _).completes ((exec_alignedGroup_eq hd.state hp).trans (congrArg _ (he.trans hscore)))
    ⟨hcnt.taken hn hl _ _ _ _ _, hget.trans hf⟩

/-- A comma off the boundary counts in MIS_COMMA alone. -/
theorem alignedGroup_misaligned (hlim : (s.lane lane.val).score + 1 < s.get (R.LANE_L_CFG.LOA_LIMIT lane.val))
    (hm : straddles (s.lane lane.val).last g.toNat = true) (hq : decodeAt g.toNat (s.lane lane.val).rdPos = some q) :
    s.completes (.alignedGroup lane g d) ([.regs, .lanes] ++ linkParts lane.val) (R.LANE_L_EVT lane.val :: groupOffsets lane.val) (fun t =>
      s.groupTaken lane.val q.byte q.ctl { s.lane lane.val with rdPos := q.rd, last := g.toNat, given := some (q.byte, q.ctl, true)
                                                                good := 0, score := (s.lane lane.val).score + 1 } t ∧
      s.counts (R.LANE_L_EVT.MIS_COMMA lane.val) 1 t) := by
  have hn := lane.isLt
  have hf : (R.LANE_L_EVT.MIS_COMMA lane.val).off ∈ [R.LANE_L_ERR lane.val, R.LANE_L_EVT lane.val] := .tail _ (.head _)
  have hu := State.countError_touchesOnly (n := lane.val) (f := R.LANE_L_EVT.MIS_COMMA lane.val) hw
  exact alignedGroup_bad hl hp hd (a := { s.lane lane.val with rdPos := q.rd, last := g.toNat }) hlim
    (State.alignedGroup_coded hm hq (if_pos rfl) (hd.countError hw hn hf)) (hu.mono (by simp) (List.Subset.refl _)) (by simp)
    (errorOffsets_subset hf) (State.countError_counted hw hn hf) (State.counts_countError hw hn hf (Fld.ok_of rfl))

/-- A group of the other disparity counts in DISP. -/
theorem alignedGroup_disparity (hlim : (s.lane lane.val).score + 1 < s.get (R.LANE_L_CFG.LOA_LIMIT lane.val))
    (hm : straddles (s.lane lane.val).last g.toNat = false) (ho : decodeAt g.toNat (s.lane lane.val).rdPos = none)
    (hq : decodeAt g.toNat (!(s.lane lane.val).rdPos) = some q) :
    s.completes (.alignedGroup lane g d) ([.regs, .lanes] ++ linkParts lane.val) (R.LANE_L_ERR lane.val :: groupOffsets lane.val) (fun t =>
      s.groupTaken lane.val q.byte q.ctl { s.lane lane.val with rdPos := q.rd, last := g.toNat, given := some (q.byte, q.ctl, true)
                                                                good := 0, score := (s.lane lane.val).score + 1 } t ∧
      s.counts (R.LANE_L_ERR.DISP lane.val) 1 t) := by
  have hn := lane.isLt
  have hf : (R.LANE_L_ERR.DISP lane.val).off ∈ [R.LANE_L_ERR lane.val, R.LANE_L_EVT lane.val] := .head _
  have hu := State.countError_touchesOnly (n := lane.val) (f := R.LANE_L_ERR.DISP lane.val) hw
  exact alignedGroup_bad hl hp hd (a := { s.lane lane.val with rdPos := q.rd, last := g.toNat }) hlim
    (State.alignedGroup_disparity hm ho hq (hd.countError hw hn hf)) (hu.mono (by simp) (List.Subset.refl _)) (by simp)
    (errorOffsets_subset hf) (State.countError_counted hw hn hf) (State.counts_countError hw hn hf (Fld.ok_of rfl))

section
variable (hm : straddles (s.lane lane.val).last g.toNat = false) (hf : decodeAt g.toNat false = none) (ht : decodeAt g.toNat true = none)
include hm hf ht

/-- A group that is none of the code counts in CV, and its byte is free. -/
theorem alignedGroup_violation (hlim : (s.lane lane.val).score + 1 < s.get (R.LANE_L_CFG.LOA_LIMIT lane.val)) :
    s.completes (.alignedGroup lane g d) ([.regs, .lanes, .free] ++ linkParts lane.val) (R.LANE_L_ERR lane.val :: groupOffsets lane.val)
      (fun t => ∃ b, b < 256 ∧ s.groupTaken lane.val b false { s.lane lane.val with last := g.toNat, given := some (b, false, true)
                                                                                    good := 0, score := (s.lane lane.val).score + 1 } t ∧
        s.counts (R.LANE_L_ERR.CV lane.val) 1 t) := by
  have hn := lane.isLt
  have hcv : (R.LANE_L_ERR.CV lane.val).off ∈ [R.LANE_L_ERR lane.val, R.LANE_L_EVT lane.val] := .head _
  have hu := State.countError_touchesOnly (n := lane.val) (f := R.LANE_L_ERR.CV lane.val) hw
  have hu' : s.touchesOnly [.regs, .lanes, .free] (R.LANE_L_ERR lane.val :: groupOffsets lane.val) _ :=
    (hu.mono (by simp) (List.Subset.refl _)).draw
  have hcnt := (State.countError_counted hw hn hcv).draw
  have hcounts := State.counts_draw (State.counts_countError (f := R.LANE_L_ERR.CV lane.val) hw hn hcv (Fld.ok_of rfl))
  refine (alignedGroup_bad hl hp hd (a := { s.lane lane.val with last := g.toNat }) hlim
    (State.alignedGroup_violation hm hf ht rfl (hd.countError hw hn hcv)) hu' (by simp)
    (errorOffsets_subset hcv) hcnt hcounts).imp fun t h => ?_
  exact ⟨_, Nat.mod_lt _ (by decide), h⟩

/-- At LOA_LIMIT a lane that no camera has falls to ACQUIRE. -/
theorem alignedGroup_lost (hlim : (s.lane lane.val).score + 1 = s.get (R.LANE_L_CFG.LOA_LIMIT lane.val)) (h32 : lane.val < 32)
    (hcam : s.camOfLane lane.val = none) :
    s.completes (.alignedGroup lane g d) ([.regs, .lanes, .free] ++ linkParts lane.val)
      ([R.LANE_L_ERR lane.val, R.LANE_L_EVT lane.val, R.LANE_L_STATUS lane.val] ++ groupOffsets lane.val) (fun t =>
        t.groupCount lane.val = min (2 ^ 48 - 1) (s.groupCount lane.val + 1) ∧ (∀ k, k ≠ lane.val → t.lane k = s.lane k) ∧
        t.laneState lane.val = 3 ∧ s.counts (R.LANE_L_ERR.CV lane.val) 1 t ∧ s.counts (R.LANE_L_EVT.LOA lane.val) 1 t ∧
        t.flag (R.LANE_L_STATUS.LOA_SEEN lane.val) = true ∧
        t.lane lane.val = { (s.lane lane.val).anew with raw := some g.toNat }) := by
  have hn := lane.isLt
  have hcv : (R.LANE_L_ERR.CV lane.val).off ∈ [R.LANE_L_ERR lane.val, R.LANE_L_EVT lane.val] := .head _
  have hu := State.countError_touchesOnly (n := lane.val) (f := R.LANE_L_ERR.CV lane.val) hw
  have hu' : s.touchesOnly [.regs, .lanes, .free] (R.LANE_L_ERR lane.val :: groupOffsets lane.val) _ :=
    (hu.mono (by simp) (List.Subset.refl _)).draw
  have hcnt : s.counted lane.val _ := (State.countError_counted hw hn hcv).draw
  have hcounts := State.counts_draw (State.counts_countError (f := R.LANE_L_ERR.CV lane.val) hw hn hcv (Fld.ok_of rfl))
  have he := (exec_alignedGroup_eq (d := d) hd.state hp).trans
    (congrArg Host.Outcome.next (State.alignedGroup_violation hm hf ht rfl (hd.countError hw hn hcv)))
  have hsub : R.LANE_L_EVT lane.val :: R.LANE_L_STATUS lane.val :: R.LANE_L_ERR lane.val :: groupOffsets lane.val ⊆
      [R.LANE_L_ERR lane.val, R.LANE_L_EVT lane.val, R.LANE_L_STATUS lane.val] ++ groupOffsets lane.val := by
    intro o
    simp only [List.mem_cons, List.mem_append, List.not_mem_nil, or_false]
    tauto
  have hevt : R.LANE_L_EVT lane.val ∉ R.LANE_L_ERR lane.val :: groupOffsets lane.val := by
    simp [groupOffsets, R.LANE_L_EVT, R.LANE_L_ERR, R.LANE_L_CG_LO, R.LANE_L_CG_HI]
  obtain ⟨hto, hrest⟩ := State.takeGroup_lost (a := { s.lane lane.val with last := g.toNat }) hl h32 hd.state hcam hu'
    (errorOffsets_subset hcv) hcnt hlim.ge (by simp) (by simp) hevt rfl hcounts _ false
  exact (hto.mono (List.Subset.refl _) hsub).completes he hrest

end

end

/-- A group that the aligner has searched: the lane holds `m`, and enters ALIGNED at ACQ_COMMAS (R85). -/
theorem acquireGroup_ends {wrong : BitVec 10} {m : LaneSt} (hw : sparseWf regDefault s.regs = true) (hl : s.lanes.length = 64)
    (hp : s.plainLane lane.val) (h3 : s.laneState lane.val = 3) (h0 : 0 < m.count)
    (hm : (s.lane lane.val).seekAll (s.get (R.LANE_L_CFG.ACQ_COMMAS lane.val)) (groupsIn (s.lane lane.val).raw g.toNat) = m) :
    (m.count < s.get (R.LANE_L_CFG.ACQ_COMMAS lane.val) →
      exec (.acquireGroup lane g wrong) s = .next (s.setLane lane.val { m with raw := some g.toNat })) ∧
    (s.get (R.LANE_L_CFG.ACQ_COMMAS lane.val) ≤ m.count →
      s.completes (.acquireGroup lane g wrong) [.regs, .lanes] [R.LANE_L_STATUS lane.val] (fun t => t.laneState lane.val = 4 ∧
        (∀ k, k ≠ lane.val → t.lane k = s.lane k) ∧ t.lane lane.val = { m.anew with rdPos := m.rdPos, last := m.last, tx := m.tx })) :=
  ⟨fun hc => exec_acquireGroup_stays hp h3 hm (.inl hc), fun hc => acquireGroup_completes hp h3 hm hw hl h0 hc⟩

/-- Settles O24: signal, lock and commas take a lane up, each loss takes it down, and a group in ALIGNED counts by its class. -/
theorem lanesRiseAndFall : Obligations.LanesRiseAndFall := by
  intro s lane g wrong d ⟨hw, _⟩ hl n l w st eye others scan pin
  refine ⟨exec_laneSignalDetect_off, fun he => ⟨exec_laneSignalDetect_near he, exec_laneSignalDetect_known hw he,
    laneSignalDetect_completes hw hl he⟩, exec_laneSignalLoss_near, exec_laneSignalLoss_early hw, laneSignalLoss_completes hw hl,
    cdrLock_completes hw hl, exec_cdrLock_idle, exec_cdrLockLoss_idle, cdrLockLoss_completes hw hl,
    fun c h32 h4 hc hs hk => ?lost, exec_acquireGroup_idle, exec_alignedGroup_idle,
    fun hpat hloop hinv h3 => ?acquire, fun hpat hloop hinv h4 hlim ht => ?aligned⟩
  case lost =>
    intro lost
    refine ⟨fun hf => ?_, ?_⟩
    · obtain ⟨t, he, h1, ⟨hdown, hcount, hseen, hlink⟩, hscan⟩ := laneSignalLoss_lost hw h32 hf h4 hc hs hk
      exact ⟨t, he, h1, hdown, hcount, hseen, hlink, hscan⟩
    · obtain ⟨h2, ⟨hdown, hcount, hseen, hlink⟩, hscan⟩ := State.laneFalls_lost (st := 2) hw h32 (by decide) h4 hc hs hk
      exact ⟨_, exec_cdrLockLoss_falls (show 3 ≤ s.laneState n by omega), h2, hdown, hcount, hseen, hlink, hscan⟩
  case acquire =>
    intro commas group stays ends hc
    have hp : s.plainLane n := ⟨hpat, hloop, hinv⟩
    have hdis := groupsIn_nodup l.raw w
    refine ⟨fun k x hg hx hother => ?comma, fun hnone => ⟨fun k x q hg hk hq => ?follows, fun k x hg hk hq => ?drops, fun hk => ?idle⟩⟩
    case comma =>
      have hm : (k, x) ∈ groupsIn l.raw w := mem_groupsIn.2 hg
      have ho : ∀ e ∈ groupsIn l.raw w, e.1 ≠ k → commaGroup e.2 = false := fun e he => hother e.1 e.2 (mem_groupsIn.1 he)
      refine ⟨fun q hk hq => ?_, fun hno => ?_⟩
      · have hseek := LaneSt.seek_counts hc hx hk hq
        have hall := (LaneSt.seekAll_candidate hdis hm ho hk (by rw [hseek]; exact .inl hk)).trans hseek
        exact acquireGroup_ends hw hl hp h3 (Nat.succ_pos _) hall
      · have hall : l.seekAll commas (groupsIn l.raw w) = { l with cand := some k, count := 1, rdPos := groupRd x, last := x } := by
          by_cases hk : l.cand = some k
          · have hseek := LaneSt.seek_begins (k := k) hc hx hno
            exact (LaneSt.seekAll_candidate hdis hm ho hk (by rw [hseek]; exact .inl rfl)).trans hseek
          · exact LaneSt.seekAll_comma hdis hm ho hc hx hk
        exact acquireGroup_ends hw hl hp h3 Nat.one_pos hall
    all_goals have ho : ∀ e ∈ groupsIn l.raw w, commaGroup e.2 = false := fun e he => hnone e.1 e.2 (mem_groupsIn.1 he)
    case follows =>
      have hseek := LaneSt.seek_follows hc (hnone k x hg) hk hq
      have hall := (LaneSt.seekAll_candidate hdis (mem_groupsIn.2 hg) (fun e he _ => ho e he) hk (by rw [hseek]; exact .inl hk)).trans hseek
      exact exec_acquireGroup_stays hp h3 hall hc
    case drops =>
      have hseek := LaneSt.seek_drops hc (hnone k x hg) hk hq
      have hall := (LaneSt.seekAll_candidate hdis (mem_groupsIn.2 hg) (fun e he _ => ho e he) hk (by rw [hseek]; exact .inr rfl)).trans hseek
      exact exec_acquireGroup_stays hp h3 hall (.inr rfl)
    case idle =>
      exact exec_acquireGroup_stays hp h3 (LaneSt.seekAll_idle fun e he => ⟨ho e he, hk e.1 e.2 (mem_groupsIn.1 he)⟩) hc
  case aligned =>
    intro cg cgs goes port given bad fewer noCode
    have hp : s.plainLane n := ⟨hpat, hloop, hinv⟩
    have hd : s.delivers n := ⟨h4, hloop, hpat, ht, by rw [hl]; exact lane.isLt⟩
    refine ⟨fun x hm hq => ?_, fun x hm hq hlow => ?_, fun x hm ho hq hlow => ?_, fun ⟨hm, hf, ht⟩ hlow => ?_,
      fun ⟨hm, hf, ht⟩ hlast h32 hcam => ?_⟩
    · exact (alignedGroup_good hw hl hp hd hlim hm hq).imp fun t h => ⟨h.count, h.others, h.given, h.lane⟩
    · exact (alignedGroup_misaligned hw hl hp hd hlow hm hq).imp fun t ⟨h, hc⟩ => ⟨h.count, h.others, hc, h.given, h.lane⟩
    · exact (alignedGroup_disparity hw hl hp hd hlow hm ho hq).imp fun t ⟨h, hc⟩ => ⟨h.count, h.others, hc, h.given, h.lane⟩
    · exact (alignedGroup_violation hw hl hp hd hm hf ht hlow).imp fun t ⟨b, hb, h, hc⟩ =>
        ⟨h.count, h.others, hc, b, hb, h.given, h.lane⟩
    · exact alignedGroup_lost hw hl hp hd hm hf ht hlast h32 hcam

end Sys2Proof.Machine
end
